-- ==== Sys2Proof/Word.lean ====
section
/-! DEFINITION. The word types of the LM3216: registers are 32 bits wide (R4), byte formats are lists of bytes. -/

namespace Sys2Proof

/-- A register value: 32 bits (R4). -/
abbrev Word := BitVec 32

/-- One byte of a byte format. -/
abbrev Byte := BitVec 8

end Sys2Proof
end

