-- ==== Sys2Proof/Syntax.lean ====
section
/-! DEFINITION. The commands and events of the LM3216, one constructor per row of spec/opcode_table.json. Operands are
what the host, a far end, the twin, a sensor or the elapse of a time presents; the table gives no row any bits. -/

namespace Sys2Proof

/-- The access paths of R7: the Device Window, allotment window n, the I3C bus. -/
inductive Path where
  | device
  | window (n : Fin 64)
  | i3c
  deriving DecidableEq, Repr

/-- The allotment as which an access path acts (R510, R512, R538). -/
def Path.allot : Path → Nat
  | .device => 0
  | .window n => n.val
  | .i3c => 0

/-- What HBM and the guard tree answer for one line (R277, R288): good; corrected ECC severity; good after 1 to 3 retries of
a parity failure; the line tag, the SEAL or the record tag fails; uncorrected ECC severity; the fourth attempt failed too. -/
inductive MemOutcome where
  | good
  | corrected
  | retried (n : Fin 4)
  | lineTag
  | pageSeal
  | recordTag
  | uncorrected
  | linkFail
  deriving DecidableEq, Repr


/-- The commands and events of the LM3216: one constructor per row of the opcode table. -/
inductive Instr where
  /-- REGISTER_WRITE (R8): A host write to a register field that has no row of its own takes effect according to the field's access type. -/
  | registerWrite (path : Path) (off : BitVec 25) (size : Fin 5) (val : Word)
  /-- WIDE_VALUE_LOW_READ (R7): A read of the lowest word of a wide value latches the higher words into that access path's shadow copy. -/
  | wideValueLowRead (path : Path) (off : BitVec 25) (size : Fin 5)
  /-- RC_FIELD_READ (R8): A read of an RC field returns its value and clears it; a count arising in the same cycle is kept. -/
  | rcFieldRead (path : Path) (off : BitVec 25) (size : Fin 5)
  /-- IMAGE_ARM_WRITE (R571): A write of the magic value to STW_IMAGE_ARM arms the next image command. -/
  | imageArmWrite (path : Path) (val : Word)
  /-- KVT_ARM_WRITE (R571): A write of the magic value to KVT_ARM arms the next Key Vault command. -/
  | kvtArmWrite (path : Path) (val : Word)
  /-- CAL_ARM_WRITE (R571): A write of the magic value to LOG_CAL_ARM arms the next Ledger command. -/
  | calArmWrite (path : Path) (val : Word)
  /-- YOKE_ARM_WRITE (R571): A write of the magic value to YOK_ARM arms the next Yoke command. -/
  | yokeArmWrite (path : Path) (val : Word)
  /-- BOOT_ENTRY (R84): Boot starts at B1: OTP read, Hedge query at B2 and candidate choice with TRIES store at B3. -/
  | bootEntry (metaGood : Bool)
  /-- IMAGE_CANDIDATE_READ (R82): A candidate image has been streamed and checked, is verified at B6, and its sections are applied at B7, or the next candidate is tried. -/
  | imageCandidateRead (readOk : Bool)
  /-- MGD_INIT_DONE (R299): HBM training and the Memory Guard start-up checks end at B8, passing or holding Boot with reason 2. -/
  | mgdInitDone (passed : Bool)
  /-- KVT_UNSEAL_DONE (R403): The Key Vault unseals sealed records at B9, associations are rebuilt, IMAGE_DIGEST is set and Calibrate is entered. -/
  | kvtUnsealDone
  /-- CALIBRATE_END (R98): Calibrate finishes its tasks and the module enters Ready, making an automatic attempt if AUTO_TARGET asks. -/
  | calibrateEnd
  /-- AUTO_SERVICE_ATTEMPT (R574): Every 1 s in Ready an automatic attempt at T7 or T8 is made until one succeeds or a command ends the attempts. -/
  | autoServiceAttempt
  /-- WRITE_OPEN (R90): Image command that sets a slot to Writing. -/
  | writeOpen (path : Path) (slot : Fin 16)
  /-- WRITE_CHUNK (R90): Image command that erases the slot's n-th good sector and programs the staging window into it. -/
  | writeChunk (path : Path) (slot : Fin 16) (n : Fin 4096)
  /-- CHUNK_ENERGY_TIMEOUT (R90): A chunk erase that has not passed the energy check within 1 s fails with CODE 5. -/
  | chunkEnergyTimeout
  /-- WRITE_CLOSE (R90): Image command that checks the written image and sets the slot Written or Bad. -/
  | writeClose (path : Path) (slot : Fin 16) (readOk : Bool)
  /-- ACTIVATE (R91): Image command that sets a Written or Good slot to Trial, PREFER to it and TRIES to 0. -/
  | activate (path : Path) (slot : Fin 16)
  /-- CONFIRM (R91): Image command that sets the running Trial slot to Good. -/
  | confirm (path : Path)
  /-- REVERT (R91): Image command that sets PREFER to the other slot if it is Good. -/
  | revert (path : Path)
  /-- REBOOT (R126): Image command that resets the module and enters Boot at B1. -/
  | reboot (path : Path)
  /-- COPY_GOLDEN (R92): Image command that copies a golden-capable Good slot into the golden slot. -/
  | copyGolden (path : Path) (slot : Fin 16)
  /-- IMAGE_ERASE (R90): Image command that erases every non-retired sector of a slot, leaving it Empty. -/
  | imageErase (path : Path) (slot : Fin 16)
  /-- RAISE_FLOOR (R93): Armed image command that burns the OTP rollback floor up to n. -/
  | raiseFloor (path : Path) (n : Fin 4096)
  /-- REVOKE_AUTH (R93): Armed image command that burns the revoke fuse of a plan authority slot. -/
  | revokeAuth (path : Path) (k : Fin 4096)
  /-- SET_TRIAL_MAX (R89): Image command that sets TRIAL_MAX in the slot-state metadata. -/
  | setTrialMax (path : Path) (n : Fin 4096)
  /-- IMAGE_CMD_UNKNOWN (R89): An image command with OP 13 to 15 ends at once with CODE 14. -/
  | imageCmdUnknown (path : Path) (op : Fin 16)
  /-- SWAP_CMD (R180): A write to RIX_SWAP_CMD checks the standby page and announces a transmit page swap. -/
  | swapCmd (path : Path) (val : Word)
  /-- CLEAR (R198): APS command that removes local LO, FS and MS and ends WTR. -/
  | apsClear (path : Path) (pair : Fin 8)
  /-- LOCKOUT (R198): APS command that holds lockout of protection until CLEAR. -/
  | apsLockout (path : Path) (pair : Fin 8)
  /-- FORCED (R198): APS command that holds a forced switch until CLEAR. -/
  | apsForced (path : Path) (pair : Fin 8)
  /-- MANUAL_P (R198): APS command for a manual switch to protection. -/
  | apsManualP (path : Path) (pair : Fin 8)
  /-- MANUAL_W (R198): APS command for a manual switch to working. -/
  | apsManualW (path : Path) (pair : Fin 8)
  /-- APS_CMD_UNKNOWN (R198): An APS command with OP 6 to 15 is refused with CMD_CODE 4. -/
  | apsCmdUnknown (path : Path) (pair : Fin 8) (op : Fin 16)
  /-- GO_SERVICE (R99): Mode command that takes Ready to Service under T7. -/
  | goService (path : Path)
  /-- GO_YOKE (R99): Mode command that requests pairing under T8. -/
  | goYoke (path : Path)
  /-- GO_YOKE_TIMEOUT (R576): GO_YOKE ends with CODE 5 if the twin has made no request within 1 s. -/
  | goYokeTimeout
  /-- STOP (R99): Mode command that closes intake and drains queues for at most 1 ms, then enters Ready. -/
  | modeStop (path : Path)
  /-- STOP_DRAIN_END (R576): The drain of T14 ends, remaining frames are discarded and STOP completes. -/
  | stopDrainEnd
  /-- SELF_TEST (R99): Mode command that mutes transmitters and enters Self-Test. -/
  | selfTest (path : Path) (mask : BitVec 8)
  /-- SELF_TEST_END (R99): The built-in tests end, results are reported and Ready is entered. -/
  | selfTestEnd (fail : BitVec 6)
  /-- UNYOKE (R99): Mode command that stops the decision stream and takes Yoke Lead to Service. -/
  | unyoke (path : Path)
  /-- MODULE_RESET (R126): Mode command that resets every island except the Hedge and enters Boot. -/
  | moduleReset (path : Path)
  /-- CLEAR_DEGRADE (R110): Mode command that ends Degrade when no level 2 condition persists. -/
  | clearDegrade (path : Path)
  /-- MODE_CMD_UNKNOWN (R575): A mode command with an unknown OP ends with CODE 7. -/
  | modeCmdUnknown (path : Path) (op : Fin 16)
  /-- RECOVERY_ISLANDS_RELEASED (R111): At V5 reset islands are released, tables are scanned and PN and sheaf counters resume from their marks. -/
  | recoveryIslandsReleased (scanGood : Bool)
  /-- RECOVERY_CAUSE_CLEARED (R113): The cause clears, service-set parts are re-checked and Recovery resumes traffic or escalates. -/
  | recoveryCauseCleared
  /-- ESCALATION_WINDOW_EXPIRY (R115): The 60 s escalation window expires and its count restarts. -/
  | escalationWindowExpiry
  /-- STEWARD_WATCHDOG (R127): 100 ms pass without a Steward service and the Hedge forces a module reset. -/
  | stewardWatchdog
  /-- STORE_REQUEST (R121): A unit requests a non-volatile store, which starts if the energy check passes or is queued. -/
  | storeRequest (cls : Fin 8) (cost : Nat)
  /-- STORE_RETRY_CHECK (R121): Every 1 ms a deferred store's energy check is retried. -/
  | storeRetryCheck
  /-- STORE_COMPLETE (R121): A store becomes durable, is read back, and the next queued store may start. -/
  | storeComplete (nor good : Bool)
  /-- CLIENT_FRAME_LOOKUP (R212): A client frame is looked up in the ALT, setting HIT or taking the miss path. -/
  | clientFrameLookup (port : Fin 16) (frame : List Byte) (bad : List (Fin 8)) (fixed : Fin 9)
  /-- LEARN_PROBE (R230): An authenticated decrypted frame probes its source address and may move a station or queue a learn request. -/
  | learnProbe (bad : List (Fin 8)) (fixed : Fin 9)
  /-- LEARN_INSERT (R231): The insertion engine serves a queued learn request, probing again before inserting. -/
  | learnInsert (bad : List (Fin 8)) (fixed : Fin 9)
  /-- SEARCH (R222): Classifier command that returns the entry matching a key. -/
  | clsSearch (path : Path)
  /-- NEXT (R224): Classifier command that returns the next valid entry passing the filter. -/
  | searchNext (path : Path)
  /-- INSERT (R217): Classifier command that inserts an entry, with transplant chain or eviction if needed. -/
  | clsInsert (path : Path) (replace noEvict : Bool)
  /-- DELETE (R222): Classifier command that removes the matching entry. -/
  | clsDelete (path : Path)
  /-- FLUSH_BY_PORT (R226): Classifier command that removes a port's entries one commit at a time, pausing learning into it. -/
  | flushByPort (path : Path) (port : Fin 16) (statics : Bool)
  /-- FLUSH_DONE (R226): FLUSH_BY_PORT completes and learning into the port resumes. -/
  | flushDone
  /-- DIGEST_SNAP (R238): Classifier command that latches all stripe digests at one instant. -/
  | digestSnap (path : Path)
  /-- CLS_CMD_UNKNOWN (R222): A classifier command with OP 7 to 15 completes with CODE 9. -/
  | clsCmdUnknown (path : Path) (op : Fin 16)
  /-- HASH_SEED_WRITE (R211): A hash seed write is accepted only while the ALT is empty. -/
  | hashSeedWrite (path : Path) (one : Bool) (val : Word)
  /-- REAPER_VISIT (R235): The reaper visits its next bucket, clearing HIT or removing silent learned entries. -/
  | reaperVisit (bad : List (Fin 4)) (fixed : Fin 5)
  /-- DEFAULT_BYPASS (R216): The classifier ceases to be live and ports run in bypass. -/
  | defaultBypass
  /-- FRAME_ADMIT (R247): A frame's first cell arrives and the policer, queue limit and pool decide admission with a cell reservation. -/
  | frameAdmit
  /-- FRAME_LAST_CELL (R260): A frame's last cell arrives, its policer is charged and the unused reservation released. -/
  | frameLastCell (frame kept : Nat)
  /-- PICK (R254): The Scheduler picks a frame for an output, the PN is assigned and the frame is dispatched to a cipher pair. -/
  | schPick (output : Fin 544) (seen : MemOutcome) (badCheck : Bool)
  /-- PICKED_FRAME_END (R257): At the end of a picked frame, shapers lose its counted length and its cells are freed. -/
  | pickedFrameEnd (output : Fin 544) (seen : MemOutcome)
  /-- GATE_CHANGE (R265): CHANGE requests a gate list change at T_c, or is refused. -/
  | gateChange (path : Path) (output : Fin 544) (val : Word)
  /-- GATE_LIST_TAKE_EFFECT (R265): At T_c the new gate list governs from its entry 0. -/
  | gateListTakeEffect (output : Fin 544)
  /-- GATE_ENTRY_ADVANCE (R264): A gate entry's interval ends and the next entry or cycle begins. -/
  | gateEntryAdvance (output : Fin 544)
  /-- LAUNCH_LATE (R270): A launch-time head frame that cannot leave by its late limit is dropped. -/
  | launchLate (cq : Fin 4352) (assoc : Option (Fin 65536))
  /-- SCH_TBL_READ (R274): Scheduler table command that reads an entry at one instant. -/
  | schTblRead (path : Path) (table : Fin 3)
  /-- SCH_TBL_WRITE (R274): Scheduler table command that writes an entry in one commit. -/
  | schTblWrite (path : Path) (table : Fin 3)
  /-- SCH_TBL_UNKNOWN (R274): A Scheduler table command with TABLE or OP 3 completes with CODE 4. -/
  | schTblUnknown (path : Path) (table op : Fin 4)
  /-- MGD_READ (R290): A read request to HBM is verified against tags and the guard tree before return. -/
  | mgdRead (queue : Fin 80) (addr : Nat) (seen : MemOutcome)
  /-- MGD_WRITE (R294): A full or partial write is encrypted under its next write counter and updates the guard tree. -/
  | mgdWrite (queue : Fin 80) (addr : Nat) (data : List Byte) (seen sent : MemOutcome)
  /-- SPILL_LINE_VERDICT (R292): In Expanse a spilled line's verdict arrives and may open the frame's gate. -/
  | spillLineVerdict (frame addr : Nat) (seen : MemOutcome)
  /-- VERDICT_TIMEOUT (R292): No verdict within 200 ns of the held bytes stomps the frame as a late stomp. -/
  | verdictTimeout (frame : Nat)
  /-- TAG_BURST_WINDOW_END (R289): The 1 s window for counting TAG_FAIL events closes. -/
  | tagBurstWindowEnd
  /-- RETILL_CMD (R297): MGD_RETILL_CMD starts a re-till of a key index. -/
  | retillCmd (path : Path) (idx : Fin 64)
  /-- RETILL_DONE (R297): A re-till sweep ends, the old generation is erased and refusal clears. -/
  | retillDone
  /-- HARROW_STEP (R298): The harrow reads and verifies its next line, rewriting on corrected ECC. -/
  | harrowStep (seen : MemOutcome)
  /-- ALLOT_WINDOW_WRITE (R280): A write to an allotment window or its queue KEY_IDX starts window re-initialisation. -/
  | allotWindowWrite (path : Path) (allot : Fin 64) (keyIdx : Bool) (val : Word)
  /-- WINDOW_INIT_DONE (R280): An allotment window re-initialisation ends. -/
  | windowInitDone (allot : Fin 64)
  /-- CTX_READ (R308): Context command READ copies a whole context. -/
  | ctxRead (path : Path)
  /-- CTX_CREATE (R308): Context command CREATE creates an association and inserts its SCI index entry. -/
  | ctxCreate (path : Path) (arg : Fin 16)
  /-- CTX_WRITE (R308): Context command WRITE rewrites the writable context bytes. -/
  | ctxWrite (path : Path)
  /-- CTX_DELETE (R308): Context command DELETE sets KIND to 0 and removes the SCI index entry. -/
  | ctxDelete (path : Path)
  /-- ROTATE (R335): Context command that switches transmission to the other slot after its store. -/
  | ascRotate (path : Path)
  /-- FLIP (R338): Context command that announces a cloak key flip on a tributary. -/
  | ascFlip (path : Path) (arg : Fin 16)
  /-- ASC_CMD_UNKNOWN (R308): A context command with OP 7 to 15 completes with CODE 11. -/
  | ascCmdUnknown (path : Path) (op : Fin 16)
  /-- LINE_FRAME_RECEIVE (R313): A frame from a line input finds its association and passes the pre-check, or is punted or dropped. -/
  | lineFrameReceive (input : Fin 544) (frame : List Byte) (badCheck : Bool)
  /-- DECRYPT_FINAL_CHECK (R324): A frame's ICV completes and the final replay check updates winnow state or stomps the frame. -/
  | decryptFinalCheck (frame : Nat)
  /-- CTX_WRITEBACK (R306): Cached counters and state are written back to HBM at least once per second. -/
  | ctxWriteback (assoc : Fin 65536)
  /-- OLD_HOLD_EXPIRY (R337): OLD_HOLD_LEFT reaches 0 and the superseded slot is erased through Fallow. -/
  | oldHoldExpiry (assoc : Fin 65536)
  /-- CLOAK_SHEAF_RECEIVE (R331): A received cloaked sheaf is winnowed and decrypted with the slot of its CLOAK_CUR. -/
  | cloakSheafReceive (trib : Fin 512) (sheaf : BitVec 48) (data tag : List Byte) (badCheck : Bool)
  /-- CLOAK_TAG_CHECK (R332): A sheaf's tag is checked at its end, and a failure stomps a continuing frame and hunts. -/
  | cloakTagCheck (trib : Fin 512)
  /-- CIPHER_BLOCK_RELEASE (R346): A pair compares the true and complement results of a block and releases it if they agree. -/
  | cipherBlockRelease (pair : Fin 72) (item : Nat) (agree retryAgrees slack released : Bool)
  /-- MISMATCH_WINDOW_END (R349): A pair's 1 s mismatch window closes. -/
  | mismatchWindowEnd (pair : Fin 72)
  /-- BURST_WINDOW_END (R350): The array's 1 ms mismatch burst window closes. -/
  | burstWindowEnd
  /-- SPARE_KAT_TICK (R352): Once per second each idle spare runs a known-answer test. -/
  | spareKatTick
  /-- KAT_DONE (R351): A known-answer test ends, passing the pair or retiring it. -/
  | katDone (pair : Fin 72) (pass : Bool)
  /-- WORK_ITEM_END (R358): A work item's last block is released, its snapshot cleared and the slot's in-flight count reduced. -/
  | workItemEnd (item : Nat)
  /-- FALLOW_SQUASH (R360): An item still holding a snapshot 9 µs after Fallow entry is squashed. -/
  | fallowSquash (item : Nat) (released : Bool)
  /-- PAIR_RETIRE (R377): Pair command RETIRE retires a pair with cause 4. -/
  | pairRetire (path : Path) (pair : Fin 128)
  /-- PAIR_KAT (R377): Pair command KAT runs a known-answer test on a spare or retired pair. -/
  | pairKat (path : Path) (pair : Fin 128)
  /-- PAIR_CMD_UNKNOWN (R377): A pair command with OP 3 to 15 completes with CODE 3. -/
  | pairCmdUnknown (path : Path) (op : Fin 16) (pair : Fin 128)
  /-- LOOKASIDE_JOB (R366): A lookaside job descriptor is fetched and checked. -/
  | lookasideJob (allot : Fin 64) (ring : Fin 9) (desc : List Byte)
  /-- LOOKASIDE_ADMIT (R371): A job is admitted to a pair once staging can hold it and its source is staged. -/
  | lookasideAdmit (src : List Byte) (fetched : Bool) (seen : MemOutcome) (badCheck : Bool)
  /-- LOOKASIDE_COMPLETE (R372): A job's output is written and its completion record posted. -/
  | lookasideComplete (job : Nat) (written : Bool) (seen : MemOutcome)
  /-- LOAD (R397): Key Vault command that loads a clear key into a slot. -/
  | kvtLoad (path : Path)
  /-- IMPORT_KW (R397): Key Vault command that unwraps a key with AES Key Wrap and loads it. -/
  | importKw (path : Path)
  /-- GENERATE (R397): Key Vault command that draws a vault key from the generator. -/
  | kvtGenerate (path : Path)
  /-- DERIVE (R381): Key Vault command that derives a vault key from a parent. -/
  | kvtDerive (path : Path)
  /-- ERASE (R402): Key Vault command that puts a slot in Fallow and clears its sealed record. -/
  | kvtErase (path : Path)
  /-- READ_ATTR (R397): Key Vault command that returns a slot's attributes, usage and fingerprint. -/
  | readAttr (path : Path)
  /-- GRANT (R388): Key Vault command that sets the owner of an Empty or Erased vault slot. -/
  | kvtGrant (path : Path)
  /-- PROV_OPEN (R398): Key Vault command that opens a provisioning session and writes a signed request. -/
  | provOpen (path : Path)
  /-- PROV_ACCEPT (R399): Key Vault command that authenticates the server response and derives the session key. -/
  | provAccept (path : Path)
  /-- IMPORT_PROV (R400): Key Vault command that loads one key record of the provisioning response. -/
  | importProv (path : Path)
  /-- PROV_CLOSE (R397): Key Vault command that erases the session key and ends the session. -/
  | provClose (path : Path)
  /-- PROV_SESSION_TIMEOUT (R398): A session without PROV_ACCEPT for 60 s closes. -/
  | provSessionTimeout
  /-- ID_EXPORT (R397): Key Vault command that writes the identity public keys and certificates to KVT_XFER. -/
  | idExport (path : Path)
  /-- CERT_WRITE (R385): Armed Key Vault command that stores identity certificates. -/
  | certWrite (path : Path)
  /-- ANCHOR_ADD (R577): Armed Key Vault command that burns an unprogrammed provisioning anchor slot. -/
  | anchorAdd (path : Path)
  /-- ANCHOR_REVOKE (R577): Armed Key Vault command that burns an anchor slot's revoke fuse. -/
  | anchorRevoke (path : Path)
  /-- LC_ADVANCE (R407): Armed Key Vault command that performs a life-cycle transition and resets the module. -/
  | lcAdvance (path : Path)
  /-- ZEROIZE_ALL (R404): Armed Key Vault command that raises HOST_ZEROIZE at level 5. -/
  | zeroizeAll (path : Path)
  /-- RESEED (R408): Armed Key Vault command that burns a re-seed fuse, generates a new root and resets. -/
  | reseed (path : Path)
  /-- KVT_CMD_UNKNOWN (R577): A Key Vault command with OP 19 to 31 completes with CODE 16. -/
  | kvtCmdUnknown (path : Path) (op : Fin 32)
  /-- LOAD_STORE_TIMEOUT (R393): A load's store deferred for more than 1 s completes the load with CODE 13. -/
  | loadStoreTimeout (allot : Fin 64)
  /-- SLOT_ERASED (R391): A Fallow slot's in-flight count reaches 0 and it becomes Erased. -/
  | slotErased (vault : Bool) (slot : Fin 131072)
  /-- REMASK_WALK (R394): Every REMASK_S seconds a new mask key is drawn and every slot re-masked. -/
  | remaskWalk (bad : List Nat)
  /-- RBG_RESEED (R382): The random bit generator reseeds every 1 s or 65,536 requests. -/
  | rbgReseed (passed : Bool)
  /-- RBG_HEALTH_FAIL (R383): An entropy health test fails and the generator gives no output. -/
  | rbgHealthFail
  /-- PAIRING_MESSAGE (R415): A twin receives its peer's pairing message and accepts it and derives the pair key, or fails pairing. -/
  | pairingMessage (msg : List Byte)
  /-- PAIR_CONFIRM (R416): A twin receives CONFIRM and completes pairing, taking its role, or erases the pair key. -/
  | pairConfirm (confirm : List Byte)
  /-- DITHAL_CELL_RECEIVE (R420): A Dithal cell arrives and is delivered in order or answered with NAK. -/
  | dithalCellReceive (lane : Fin 4) (cell : List Byte)
  /-- DITHAL_RESEND_TIMEOUT (R420): The oldest unacknowledged Dithal cell is 2 µs old and is resent, raising DITHAL_DOWN after 4 sends. -/
  | dithalResendTimeout
  /-- FRAME_RECORD (R432): The follower applies a frame record at its epoch, matching a buffered frame or making a phantom. -/
  | frameRecord (record : BitVec 48)
  /-- UNMATCHED_DISCARD (R434): A frame unmatched for 2 × LAG_B blocks is discarded. -/
  | unmatchedDiscard (input : Fin 544)
  /-- EPOCH (R426): Decision stream item that marks an epoch boundary. -/
  | streamEpoch (item : List Byte)
  /-- VERDICT (R435): Decision stream item carrying the lead's verdict on a frame. -/
  | streamVerdict (item : List Byte)
  /-- SHEAF_VERDICT (R435): Decision stream item carrying the lead's verdict on a received sheaf. -/
  | sheafVerdict (item : List Byte)
  /-- CLS_COMMIT (R239): Decision stream item conveying an ALT commit. -/
  | clsCommit (item : List Byte)
  /-- SCI_COMMIT (R339): Decision stream item conveying an SCI index write. -/
  | sciCommit (item : List Byte)
  /-- ASC_COMMIT (R339): Decision stream item conveying a context command commit. -/
  | ascCommit (item : List Byte)
  /-- ASC_EVENT (R339): Decision stream item conveying a rotation, primary switch, retirement or transmit hold. -/
  | ascEvent (item : List Byte)
  /-- FLIP_ITEM (R339): Decision stream item conveying a cloak flip sheaf. -/
  | flipItem (item : List Byte)
  /-- KVT_COMMIT (R410): Decision stream item conveying a wrapped key commit or erase. -/
  | kvtCommit (item : List Byte)
  /-- REG_WRITE (R430): Decision stream item conveying a committed host register write. -/
  | regWrite (item : List Byte)
  /-- SCH_COMMIT (R430): Decision stream item conveying a Scheduler table commit. -/
  | schCommit (item : List Byte)
  /-- TIMEMAP (R429): Decision stream item conveying a channel's block map for a sheaf. -/
  | timemap (item : List Byte)
  /-- RIX_ITEM (R200): Decision stream item conveying APS state or page swaps. -/
  | rixItem (item : List Byte)
  /-- INJECT (R431): Decision stream item conveying a host-injected frame. -/
  | streamInject (item : List Byte)
  /-- DIVERGE (R444): Decision stream item declaring a divergence and which twin mutes. -/
  | streamDiverge (item : List Byte)
  /-- YIELD (R445): Decision stream item announcing the lead's B_MUTE. -/
  | streamYield (item : List Byte)
  /-- HANDOVER_ITEM (R448): Decision stream item announcing the handover block B_H. -/
  | handoverItem (item : List Byte)
  /-- COPY (R450): Decision stream item carrying static table entries during resync. -/
  | streamCopy (item : List Byte)
  /-- SNAP (R450): Decision stream item carrying dynamic state at the cut-in. -/
  | streamSnap (item : List Byte)
  /-- MARK (R438): Decision stream item conveying a new PN or sheaf mark for the follower to store. -/
  | streamMark (item : List Byte)
  /-- ACK_MARK (R438): Reverse stream item confirming that a mark is durable on the follower. -/
  | ackMark (item : List Byte)
  /-- DEFECTS (R439): Reverse stream item reporting the follower's line defects. -/
  | streamDefects (item : List Byte)
  /-- DIGEST (R442): Reverse stream item carrying the follower's digests and excused map for comparison. -/
  | streamDigest (item : List Byte)
  /-- REPAIR_REQ (R437): Reverse stream item asking the lead to convey an ALT entry. -/
  | repairReq (item : List Byte)
  /-- STATE_ITEM (R428): Reverse stream item reporting the follower's mode and resync step. -/
  | stateItem (item : List Byte)
  /-- DIGEST_INTERVAL_END (R441): An 8-sheaf digest interval ends; digests are sent or compared and resync progress checked. -/
  | digestIntervalEnd
  /-- REPAIR_TIMEOUT (R443): No repair within 1 ms of a REPAIR_REQ is a class 6 divergence. -/
  | repairTimeout
  /-- YOKE_LOCK_LOST (R443): The follower loses frequency lock, a class 4 divergence. -/
  | yokeLockLost
  /-- LEAD_SILENT (R447): No EPOCH for LOSS_US µs mutes the follower and raises YOKE_LEAD_SILENT. -/
  | leadSilent
  /-- PROMOTION (R445): The follower reaches B_MUTE after YIELD and becomes lead under T10. -/
  | promotion
  /-- HANDOVER (R448): Yoke command on the lead that schedules a handover at B_H. -/
  | yokHandover (path : Path)
  /-- HANDOVER_TAKE_EFFECT (R448): At B_H the lead becomes follower and the follower becomes lead. -/
  | handoverTakeEffect
  /-- PROMOTE (R447): Armed Yoke command that promotes a follower whose lead is silent. -/
  | yokPromote (path : Path)
  /-- RESYNC (R449): Yoke command that starts resync on a muted twin. -/
  | yokResync (path : Path)
  /-- YOK_CMD_UNKNOWN (R449): A Yoke command with OP 4 to 15 completes with CODE 7. -/
  | yokCmdUnknown (path : Path) (op : Fin 16)
  /-- RESYNC_CUT_IN (R449): At the next sheaf after the copy, the resyncing twin cuts in and the lead captures its state. -/
  | resyncCutIn
  /-- RESYNC_TIMEOUT (R449): Y7 is not complete within RESYNC_S and YOKE_RESYNC_FAIL is raised. -/
  | resyncTimeout
  /-- RESYNC_RESTART (R449): With AUTO_RESYNC, resync starts again 1 s after a failure. -/
  | resyncRestart
  /-- CHANNEL_SET (R460): Time command SET loads a channel's value. -/
  | channelSet (path : Path) (ch : Fin 16)
  /-- CHANNEL_STEP (R460): Time command STEP adds an offset at once. -/
  | channelStep (path : Path) (ch : Fin 16)
  /-- CHANNEL_SLEW (R460): Time command SLEW adds an offset gradually. -/
  | channelSlew (path : Path) (ch : Fin 16)
  /-- CHANNEL_STOP (R460): Time command STOP stops a channel. -/
  | channelStop (path : Path) (ch : Fin 16)
  /-- TIM_CMD_UNKNOWN (R460): A Time command with OP 5 to 7 completes with CODE 5. -/
  | timCmdUnknown (path : Path) (ch : Fin 16) (op : Fin 8)
  /-- SLEW_DONE (R460): A running slew has added its whole amount. -/
  | slewDone (ch : Fin 16)
  /-- FREQ_WRITE (R457): A FREQ write folds the elapsed term and changes the channel's rate without a jump. -/
  | freqWrite (path : Path) (ch : Fin 16) (val : Word)
  /-- PARENT_WRITE (R457): A change of an offset-rate channel's parent acts as a SET to its present value. -/
  | parentWrite (path : Path) (ch : Fin 16) (val : Word)
  /-- PPS_IN_EDGE (R462): A PPS_IN edge is accepted or rejected and steers disciplined channels. -/
  | ppsInEdge (widthNs : Nat) (eighths : Fin 8)
  /-- PPS_EDGE_MISSED (R454): An expected PPS_IN edge is missed, entering HOLDOVER after three. -/
  | ppsEdgeMissed
  /-- TOD_MESSAGE (R464): A ToD message on TOD_IN is accepted or rejected. -/
  | todMessage (msg : List Byte) (startAgo : Nat)
  /-- PPS_OUT_EDGE (R465): The PPS channel reaches a whole second plus delay and PPS_OUT rises. -/
  | ppsOutEdge
  /-- TOD_OUT_SEND (R465): 200 ms after a PPS_OUT edge a ToD message leaves TOD_OUT. -/
  | todOutSend
  /-- DOORBELL (R515): A doorbell write gives a ring its new host index, or disables it on an invalid index. -/
  | doorbell (path : Path) (ring : Fin 16) (index : BitVec 16)
  /-- COMMAND_DESCRIPTOR (R519): A command descriptor, fetched once a completion slot is reserved, runs as a unit command. -/
  | commandDescriptor (allot : Fin 64) (desc input : List Byte) (fetched written : Bool)
  /-- INJECT_DESCRIPTOR (R523): An inject descriptor queues a host frame to a class queue's direct FIFO. -/
  | injectDescriptor (allot : Fin 64) (desc frame : List Byte) (fetched : Bool)
  /-- PUNT_DELIVERY (R524): A punted frame is written into the next posted receive buffer. -/
  | puntDelivery (allot : Fin 64) (entry : List Byte)
  /-- IRQ_COALESCE_TIMER (R527): USEC µs after the first unsignalled record, a coalesced vector fires. -/
  | irqCoalesceTimer (allot : Fin 64) (vector : Fin 2)
  /-- RESET_DRAIN (R528): Allotment command that resets an allotment after draining started work. -/
  | resetDrain (path : Path) (allot : Fin 64)
  /-- RESET_SQUASH (R528): Allotment command that resets an allotment, squashing started work. -/
  | resetSquash (path : Path) (allot : Fin 64)
  /-- SELF_RESET (R528): An allotment resets itself through HIF_ALLOT_STATE.SELF_RESET. -/
  | selfReset (path : Path) (squash : Bool)
  /-- DRAIN_TIMEOUT (R529): A drain not ended within LIMIT_MS continues as a squash. -/
  | drainTimeout (allot : Fin 64)
  /-- FREEZE (R531): Allotment command that drains an allotment and stops its picks for migration. -/
  | allotFreeze (path : Path) (allot : Fin 64)
  /-- THAW (R531): Allotment command that reverses FREEZE. -/
  | allotThaw (path : Path) (allot : Fin 64)
  /-- ALLOT_CMD_UNKNOWN (R528): An allotment command with an unknown OP completes with CODE 6. -/
  | allotCmdUnknown (path : Path) (op : Fin 16) (allot : Fin 64)
  /-- MIG_SAVE (R532): Ring command that writes a frozen allotment's migration blob and caps its transmit PNs. -/
  | migSave (desc : List Byte) (written : Bool)
  /-- MIG_RESTORE (R535): Ring command that validates and applies a migration blob to a frozen allotment. -/
  | migRestore (desc blob : List Byte) (fetched : Bool)
  /-- ALLOT_CTRL_WRITE (R513): A write binding an allotment's PASID is accepted or refused. -/
  | allotCtrlWrite (path : Path) (allot : Fin 64) (val : Word)
  /-- PCIE_LINK_DOWN (R530): The PCIe link goes down and every allotment is quiesced. -/
  | pcieLinkDown
  /-- PCIE_LINK_UP (R541): The PCIe link reaches L0. -/
  | pcieLinkUp (speed width : Fin 8)
  /-- ENTDAA (R537): I3C command that assigns a dynamic address. -/
  | entdaa (addr : Fin 128)
  /-- SETDASA (R537): I3C command that sets the dynamic address from the static address. -/
  | setdasa (target addr : Fin 128)
  /-- RSTDAA (R537): I3C command that resets the dynamic address. -/
  | rstdaa
  /-- RSTACT (R537): I3C broadcast that defines the target reset action. -/
  | rstact (action : BitVec 8)
  /-- GETPID (R537): I3C command that returns the Provisional ID. -/
  | getpid
  /-- GETBCR (R537): I3C command that returns the BCR. -/
  | getbcr
  /-- GETDCR (R537): I3C command that returns the DCR. -/
  | getdcr
  /-- GETSTATUS (R537): I3C command that returns target status. -/
  | getstatus
  /-- GETMXDS (R537): I3C command that returns maximum data speed. -/
  | getmxds
  /-- GETMWL (R537): I3C command that returns maximum write length. -/
  | getmwl
  /-- GETMRL (R537): I3C command that returns maximum read length. -/
  | getmrl
  /-- SETMWL (R537): I3C command that sets maximum write length. -/
  | setmwl (len : BitVec 16)
  /-- SETMRL (R537): I3C command that sets maximum read length. -/
  | setmrl (len : BitVec 16)
  /-- ENEC (R537): I3C command that enables target events such as IBIs and Hot-Join. -/
  | enec (events : BitVec 8)
  /-- DISEC (R537): I3C command that disables target events. -/
  | disec (events : BitVec 8)
  /-- READ32 (R538): I3C private write with opcode 0x01 selecting a register to read. -/
  | read32 (addr : Fin 128) (off : BitVec 32)
  /-- WRITE32 (R538): I3C private write with opcode 0x02 writing a register. -/
  | write32 (addr : Fin 128) (off val : BitVec 32)
  /-- I3C_PRIVATE_READ (R538): An I3C private read returns the status and value of the pending READ32. -/
  | i3cPrivateRead (addr : Fin 128)
  /-- HOT_JOIN_REQUEST (R537): After a reset the module requests Hot-Join once the bus is idle. -/
  | hotJoinRequest
  /-- FOLD_CLOSE (R544): An open record closes FOLD_MS after its first occurrence and enters staging. -/
  | foldClose
  /-- BATCH_OFFER (R547): A batch of staged records is offered as an event log store. -/
  | batchOffer
  /-- LOG_SCAN (R549): The Boot scan of the log ends, rebuilding block levels and SEQ. -/
  | logScan (good : Bool)
  /-- LOG_FREEZE (R550): Ledger command that stops MRAM writes of records. -/
  | logFreeze (path : Path)
  /-- LOG_THAW (R550): Ledger command that ends a freeze. -/
  | logThaw (path : Path)
  /-- FREEZE_EXPIRY (R550): A freeze ends after FREEZE_MS. -/
  | freezeExpiry
  /-- RELEASE (R549): Ledger command that stores a new release mark. -/
  | logRelease (path : Path)
  /-- COPY_OUT (R552): Ledger command that copies every log slot to host memory. -/
  | copyOut (path : Path) (dmaOk : Bool)
  /-- CAL_WRITE (R565): Armed Ledger command that stores the staged calibration page. -/
  | calWrite (path : Path)
  /-- CAL_READ (R565): Ledger command that copies the stored calibration page into staging. -/
  | calRead (path : Path)
  /-- LOG_CMD_UNKNOWN (R550): A Ledger command with OP 7 to 15 ends with CODE 8. -/
  | logCmdUnknown (path : Path) (op : Fin 16)
  /-- LOG_READ_INDEX_WRITE (R552): A write to LOG_READ_INDEX copies one log slot into LOG_READ_DATA. -/
  | logReadIndexWrite (path : Path) (val : Word)
  /-- COUNTER_SNAP (R558): A SNAP request copies all counters at one instant into the dump ring. -/
  | counterSnap (path : Path) (val : Word)
  /-- PERIODIC_SNAP (R558): Every PERIOD_MS a counter snapshot is taken. -/
  | periodicSnap
  /-- FU_CFG_WRITE (R555): A write to PMC_FU_CFG reconfigures a filter unit and clears its counts. -/
  | fuCfgWrite (path : Path) (unit : Fin 256) (val : Word)
  /-- YOKE_FREQ_LOCKED (R423): The follower's transmit clocks lock to the recovered Dithal clock and LOCKED is set. -/
  | yokeFreqLocked
  /-- STORE_DEFERRAL_EXCEEDED (R402): A command whose store has been deferred for more than 1 s completes with its deferral CODE while the store stays queued. -/
  | storeDeferralExceeded (unit : Fin 16) (allot : Fin 64)
  /-- RBG_REQUEST_TIMEOUT (R383): A random bit request that cannot be served within 1 ms fails and its command completes with CODE 15. -/
  | rbgRequestTimeout (allot : Fin 64)
  /-- CROSSING_OFFER (R23): A sending island offers a value across a crossing, and the receiver takes it and acknowledges. -/
  | crossingOffer (src dst : Fin 21) (value : Nat) (taken : Bool)
  /-- IDLE_PROBE (R24): A crossing port that has offered nothing for 4,096 live-side cycles offers an idle probe. -/
  | idleProbe (src dst : Fin 21) (taken : Bool)
  /-- CROSS_TIMEOUT (R24): An offer unacknowledged for 4,096 live-side cycles is discarded, returns an error and raises CROSS_TIMEOUT. -/
  | crossTimeout (live stopped : Fin 21)
  /-- CELL_RECEIVE (R26): An internal cell arrives and is checked by CRC and acknowledged cumulatively or negatively. -/
  | cellReceive (src dst : Fin 21) (seq : Fin 256) (len : Fin 256) (last : Bool) (payload : List Byte) (crcGood : Bool)
  /-- CELL_NAK_RECEIVED (R26): A sender receives a negative acknowledge and re-sends from the failed cell onwards. -/
  | cellNakReceived (src dst : Fin 21) (seq : Fin 256)
  /-- BUS_TRANSACTION (R28): An internal register, table or memory transaction arrives at its destination and its integrity code is checked. -/
  | busTransaction (src : Fin 21) (unit : Fin 16) (allot : Fin 64) (cls : Fin 3) (address command data : List Byte) (code : BitVec 16) (host : Bool)
  /-- PERST_ASSERT (R39): PERST# low resets the Host Interface island and its crossing ports only. -/
  | perstAssert
  /-- LID_OVERTEMP (R35): The lid sensor reads above 75 °C and raises LID_OVERTEMP. -/
  | lidOvertemp (reading : BitVec 16)
  /-- DIE_OVERTEMP (R35): The die sensor reads above 110 °C and raises DIE_OVERTEMP. -/
  | dieOvertemp (reading : BitVec 16)
  /-- DIE_THERMAL_SHUTDOWN (R35): At 125 °C the converters switch off the data-path rails and the power-fail sequence runs from step 2. -/
  | dieThermalShutdown
  /-- INPUT_OVERVOLTAGE (R44): The ORed input exceeds the over-voltage threshold, converters switch off and Power Rise is held off until 72 V or below. -/
  | inputOvervoltage (mv : Nat)
  /-- FEED_LOST (R52): One feed falls below the feed-lost threshold while the other holds the ORed input. -/
  | feedLost (feedB : Bool)
  /-- FEED_RESTORED (R61): A lost feed rises above the feed-good threshold. -/
  | feedRestored (feedB : Bool)
  /-- SUPPLY_SAMPLE (R49): Every 1 ms the Steward updates feed voltages, currents, input power and available hold-up energy. -/
  | supplySample (va vb ia ib power bankV : BitVec 16)
  /-- POWER_RISE (R84): The ORed input crosses the turn-on threshold and Power Rise steps P1 to P3 run, including YOKE_ID sampling and bleed self-check. -/
  | powerRise (mv : Nat) (yokePos bleedA bleedB : Bool)
  /-- HOLDUP_CAP_MEASURE (R49): The bank finishes charging, its capacitance is measured and the data-path rails rise. -/
  | holdupCapMeasure (uf bankV : Nat) (above30 : Bool)
  /-- POWER_FAIL (R52): The ORed input stays below the power-fail threshold for the filter time and the power-fail sequence starts. -/
  | powerFail
  /-- PFAIL_SUMMARY (R125): Once no queued store can start in step 5, the Steward writes the power-fail summary record without an energy check. -/
  | pfailSummary
  /-- STORE_DOMAIN_RELEASE (R52): Step 5 ends, the store domain is released, the Hedge moves to the cell, Sentry is entered and bleeding starts unless power has returned. -/
  | storeDomainRelease (loadedMv mv : Nat) (yokePos bleedA bleedB : Bool)
  /-- POWER_RETURN_DURING_BLEED (R53): Input power returns during step 7; the bleed stops and Power Rise starts. -/
  | powerReturnDuringBleed (mv : Nat) (yokePos bleedA bleedB : Bool)
  /-- SVC_MUTE_ASSERT (R55): SVC_MUTE_N low for 100 ns squelches all client and line transmitters in hardware. -/
  | svcMuteAssert
  /-- SVC_MUTE_RELEASE (R57): SVC_MUTE_N high for 1 ms ends its mute; outputs resume at the next sheaf boundary or frame start. -/
  | svcMuteRelease
  /-- YOKE_ID_CHANGED (R59): YOKE_ID changes after Power Rise and only raises an event. -/
  | yokeIdChanged
  /-- ZERO_PIN_REQUEST (R491): HEDGE_ZERO_N held low for 10 ms is an alarm of sensor 11 at level 5. -/
  | zeroPinRequest (loadedMv : Nat)
  /-- LANE_LOS (R166): Input amplitude below detection for 5 µs declares LOS on a lane. -/
  | laneLos (lane : Fin 32)
  /-- LANE_LOL (R166): Clock and data recovery loses lock and LOL is declared. -/
  | laneLol (lane : Fin 32)
  /-- LANE_CLEAR (R166): A lane defect clears after its clearing condition has held. -/
  | laneClear (lane : Fin 32) (lol : Bool)
  /-- FEC_WINDOW_END (R167): A 10 ms FEC window ends and SD and EXC are declared or cleared. -/
  | fecWindowEnd (lane : Fin 32) (symCorr cwCorr cwUncorr : Nat)
  /-- PCS_STATE_CHANGE (R166): An Ethernet PCS gains or loses lock or fault and UP changes. -/
  | pcsStateChange (port : Fin 32) (aligned hiBer localFault remoteFault : Bool)
  /-- MARKER_FOUND (R162): A search of a hunting Glafold lane finds a matching marker and enters PRESYNC. -/
  | markerFound (lane : Fin 32) (marker : List Byte) (sheafNo : BitVec 48)
  /-- HEADLAND_RECEIVE (R145): At an expected marker position a headland is received and its fields acted on if HL_CRC is good. -/
  | headlandReceive (lane : Fin 32) (headland : List Byte)
  /-- GROUP_ALIGNMENT_CHECK (R165): Once per sheaf a group's alignment is evaluated and LOGA declared or cleared. -/
  | groupAlignmentCheck (group : Fin 16)
  /-- SHEAF_START (R139): The transmit sheaf timer starts a new sheaf on every Glafold group. -/
  | sheafStart (fecUnc : List Nat)
  /-- SECOND_LATCH (R170): On the one-second tick the framer copies running counters to latched registers. -/
  | secondLatch
  /-- TRIB_HEADER (R161): A tributary receiver meets an item header and follows, starts a frame or counts a header error. -/
  | tribHeader (trib : Fin 512) (hdr : BitVec 32) (firstGood atFirst : Bool)
  /-- LANE_CTRL_WRITE (R173): A write of PRBS or LOOPBACK is accepted or refused. -/
  | laneCtrlWrite (path : Path) (lane : Fin 32) (val : Word)
  /-- PORT_ENABLE_WRITE (R173): Setting a port's or group's ENABLE enables it and returns its lanes' PRBS and LOOPBACK to 0. -/
  | portEnableWrite (path : Path) (group : Bool) (idx : Fin 32) (val : Word)
  /-- ETH_FRAME_RECEIVE (R133): An Ethernet frame is received and too short, too long or control frames are dropped. -/
  | ethFrameReceive (port : Fin 32) (frame : List Byte)
  /-- CONNECTION_MEMORY_WRITE (R179): A write to a connection memory entry takes effect only on an unannounced standby page. -/
  | connectionMemoryWrite (path : Path) (receive : Bool) (page : Fin 2) (row : Fin 512) (val : Word)
  /-- PAIR_CFG_WRITE (R187): A write to RIX_PAIR_CFG enables a protection pair if its conditions hold, or raises PAIR_REFUSED. -/
  | pairCfgWrite (path : Path) (pair : Fin 8) (val : Word)
  /-- HOLDOFF_EXPIRY (R196): The hold-off after a working-group SF or SD expires and the request counts. -/
  | holdoffExpiry (pair : Fin 8)
  /-- WTR_EXPIRY (R197): The wait-to-restore time expires and the request becomes NR. -/
  | wtrExpiry (pair : Fin 8)
  /-- SENSOR_DETECTION (R485): A Hedge sensor detects and fills its filter, alarming when the fill reaches COUNT. -/
  | sensorDetection (sensor : Fin 16) (measured : Word) (loadedMv : Nat)
  /-- SENSOR_WINDOW_CLOSE (R485): A sensor's filter window closes below COUNT and empties. -/
  | sensorWindowClose (sensor : Fin 16) (present : Bool)
  /-- SENSOR_TRIP_CLEAR (R486): A tripped sensor's detection is absent for 1 s and it stops being tripped. -/
  | sensorTripClear (sensor : Fin 16)
  /-- SENSOR_CFG_WRITE (R488): A write to a sensor's configuration is bound by its effective floor. -/
  | sensorCfgWrite (path : Path) (sensor : Fin 16) (win : Bool) (val : Word)
  /-- ROOT_REFRESH (R480): Every 3,600 s the roots are rewritten in complemented form. -/
  | rootRefresh
  /-- RESERVE_TEST (R495): Every 3,600 s on the cell the Hedge draws a test pulse and records RESERVE_OK. -/
  | reserveTest (loadedMv : Nat)
  /-- HDG_LOG_INDEX_WRITE (R504): A write to HDG_LOG_INDEX copies one evidence record into HDG_LOG_DATA. -/
  | hdgLogIndexWrite (path : Path) (val : Word)
  /-- PERST_RELEASE (R39): PERST# goes high, the Host Interface island leaves reset and the host may train the PCIe link. -/
  | perstRelease
  /-- OVERVOLTAGE_RELEASE (R44): After an over-voltage shutdown the ORed input falls to 72 V or below and Power Rise starts under T1. -/
  | overvoltageRelease (mv : Nat) (yokePos bleedA bleedB : Bool)
  /-- CELL_EXHAUSTED (R505): The backup cell is exhausted and the Hedge state, roots and latch are lost together. -/
  | cellExhausted
  deriving DecidableEq, Repr

end Sys2Proof
end

