-- ==== Sys2Proof/Config.lean ====
section
/-! DEFINITION. What an implementation or a factory fixes, what the spec leaves open, and the cryptographic primitives
it names by their standards: constants without a body, so that a claim holds whatever they are. -/

namespace Sys2Proof.Config

open Sys2Proof

/-! ## Factory values -/

/-- The 64-bit serial number (SERIAL_LO, SERIAL_HI). -/
opaque serial : BitVec 64

/-! ## Free values: what the spec leaves undefined or to a generator, by the number of the draw -/

/-- A free number below a bound is taken from this by remainder. -/
opaque freeNat : Nat → Nat
/-- Free bytes: the draws of the random bit generators and the values the spec leaves open. -/
opaque freeBytes : Nat → Nat → List Byte
/-- A free flag. -/
opaque freeBool : Nat → Bool
/-- Record and metadata lines that the guard's on-die cache lacks at a read: the count of lines read, the line. -/
opaque cacheMisses : Nat → Nat → Nat

/-! ## Primitives of the standards the spec cites -/

/-- SHA-256 and SHA-384 of a byte string. -/
opaque sha256 : List Byte → List Byte
opaque sha384 : List Byte → List Byte
/-- AES of one block under a key (R317). -/
opaque aes : List Byte → List Byte → List Byte
/-- The inverse cipher of AES: key, block. -/
opaque aesDec : List Byte → List Byte → List Byte
/-- CMAC-AES-256 under a key. -/
opaque cmac : List Byte → List Byte → List Byte
/-- GCM: key, IV, additional data, plaintext to ciphertext and tag. -/
opaque gcmSeal : List Byte → List Byte → List Byte → List Byte → List Byte × List Byte
/-- GCM: key, IV, additional data, ciphertext, tag to plaintext, none when the tag fails. -/
opaque gcmOpen : List Byte → List Byte → List Byte → List Byte → List Byte → Option (List Byte)
/-- AES in counter mode: key, first counter block, text. -/
opaque ctr : List Byte → List Byte → List Byte → List Byte
/-- XTS of one line: key set, tweak, text; and its inverse. -/
opaque xtsEnc : List Byte → List Byte → List Byte → List Byte
opaque xtsDec : List Byte → List Byte → List Byte → List Byte
/-- GHASH of a byte string under a hash key (R283, R330). -/
opaque ghash : List Byte → List Byte → List Byte
/-- AES Key Wrap and Key Wrap with Padding: wrapping key, text; none when the integrity value fails. -/
opaque kwWrap : List Byte → List Byte → List Byte
opaque kwUnwrap : List Byte → List Byte → Option (List Byte)
opaque kwpWrap : List Byte → List Byte → List Byte
opaque kwpUnwrap : List Byte → List Byte → Option (List Byte)
/-- ECDSA P-384: public key, digest, signature. -/
opaque ecdsaVerify : List Byte → List Byte → List Byte → Bool
opaque ecdsaSign : List Byte → List Byte → List Byte
/-- ML-DSA-65: public key, context string, message, signature. -/
opaque mldsaVerify : List Byte → List Byte → List Byte → List Byte → Bool
opaque mldsaSign : List Byte → List Byte → List Byte → List Byte
/-- Key pairs derived from a seed: the public key. -/
opaque ecdsaPublic : List Byte → List Byte
opaque mldsaPublic : List Byte → List Byte
/-- The subject public key of an X.509 certificate in DER (R385). -/
opaque certKey : List Byte → List Byte
/-- ECDH P-384: private seed, peer point; none when the point is invalid. -/
opaque ecdhPublic : List Byte → List Byte
opaque ecdh : List Byte → List Byte → Option (List Byte)
/-- ML-KEM-1024: encapsulation key of a seed; decapsulation; encapsulation with randomness. -/
opaque mlkemPublic : List Byte → List Byte
opaque mlkemDecap : List Byte → List Byte → List Byte
opaque mlkemEncap : List Byte → List Byte → List Byte × List Byte
/-- HKDF with SHA-384: salt, input key, info, length. -/
opaque hkdf : List Byte → List Byte → List Byte → Nat → List Byte
/-- The PRF of R381: key, label, context, length in bits. -/
opaque kdf : List Byte → List Byte → List Byte → Nat → List Byte
/-- The bytes over which an internal cell's CRC runs: how the sideband fields are packed is not stated (R26). -/
opaque cellCrcInput : Nat → Nat → Nat → Nat → Bool → List Byte → List Byte

end Sys2Proof.Config
end

