-- ==== Sys2Proof/Machine/Operands.lean ====
section
/-! DEFINITION. Bit fields of registers, byte order, cyclic redundancy codes and the sparse map that holds the register
file and every table: the operand forms the meanings share. -/

namespace Sys2Proof.Machine

open Sys2Proof

/-! ## Bit fields (R2: bit 0 is the least significant) -/

/-- Bits [hi:lo] of a register, as a number. -/
def bits (w : Word) (hi lo : Nat) : Nat := (w.toNat / 2 ^ lo) % 2 ^ (hi + 1 - lo)

/-- One bit of a register. -/
def bit (w : Word) (k : Nat) : Bool := w.getLsbD k

/-- The mask of bits [hi:lo]. -/
def maskBits (hi lo : Nat) : Word := BitVec.ofNat 32 ((2 ^ (hi + 1 - lo) - 1) * 2 ^ lo)

/-- The register with bits [hi:lo] replaced by the low bits of v. -/
def setBits (w : Word) (hi lo v : Nat) : Word :=
  (w &&& ~~~ maskBits hi lo) ||| (BitVec.ofNat 32 ((v % 2 ^ (hi + 1 - lo)) * 2 ^ lo))

/-- The register with bit k replaced. -/
def setBit (w : Word) (k : Nat) (b : Bool) : Word := setBits w k k (if b then 1 else 0)

/-- 1 for true, 0 for false: a flag as a bit-field value. -/
def flag (b : Bool) : Nat := if b then 1 else 0

/-- A value brought into a range, as the clamped fields of the spec are. -/
def clamp (lo hi v : Nat) : Nat := if v < lo then lo else if hi < v then hi else v

/-- A count that saturates. -/
def satAdd (cap a b : Nat) : Nat := if cap < a + b then cap else a + b

/-- The low 16 bits read as a two's complement number. -/
def signed16 (n : Nat) : Int := if n % 65536 < 32768 then (n % 65536 : Nat) else (n % 65536 : Nat) - 65536

/-- The low 32 bits read as a two's complement number. -/
def signed32 (n : Nat) : Int :=
  if n % 4294967296 < 2147483648 then (n % 4294967296 : Nat) else (n % 4294967296 : Nat) - 4294967296

/-- A two's complement number as a 32-bit field value. -/
def unsigned32 (i : Int) : Nat := (i % 4294967296).toNat

/-! ## Byte order -/

/-- n as k bytes, most significant first. -/
def beBytes : Nat → Nat → List Byte
  | 0, _ => []
  | k + 1, n => BitVec.ofNat 8 (n / 2 ^ (8 * k)) :: beBytes k n

/-- n as k bytes, least significant first. -/
def leBytes : Nat → Nat → List Byte
  | 0, _ => []
  | k + 1, n => BitVec.ofNat 8 n :: leBytes k (n / 256)

/-- The number whose bytes stand most significant first. -/
def ofBe (bs : List Byte) : Nat := bs.foldl (fun a b => a * 256 + b.toNat) 0

/-- The number whose bytes stand least significant first. -/
def ofLe (bs : List Byte) : Nat := bs.foldr (fun b a => a * 256 + b.toNat) 0

/-- k zero bytes. -/
def zeroBytes (k : Nat) : List Byte := List.replicate k 0

/-- k bytes of a byte string from offset o, zero past its end. -/
def slice (bs : List Byte) (o k : Nat) : List Byte :=
  let t := (bs.drop o).take k
  t ++ zeroBytes (k - t.length)

/-- Byte-wise exclusive or. -/
def xorBytes : List Byte → List Byte → List Byte
  | a :: as, b :: bs => (a ^^^ b) :: xorBytes as bs
  | _, _ => []

/-! ## Cyclic redundancy codes -/

/-- One bit of a CRC with its most significant bit shifted out first. -/
def crcBitMsb (width poly : Nat) (acc : Nat) (b : Bool) : Nat :=
  let top := acc.testBit (width - 1)
  let sh := (acc * 2) % 2 ^ width
  if top != b then sh ^^^ poly else sh

/-- A CRC over bytes, most significant bit of each byte first. -/
def crcMsb (width poly init : Nat) (bs : List Byte) : Nat :=
  bs.foldl (fun acc x => [7, 6, 5, 4, 3, 2, 1, 0].foldl (fun a k => crcBitMsb width poly a (x.getLsbD k)) acc) init

/-- One bit of a reflected CRC, least significant bit shifted out first; poly is the reversed polynomial. -/
def crcBitLsb (poly : Nat) (acc : Nat) (b : Bool) : Nat :=
  let low := acc.testBit 0
  if low != b then (acc / 2) ^^^ poly else acc / 2

/-- A reflected CRC over bytes, least significant bit of each byte first. -/
def crcLsb (poly init : Nat) (bs : List Byte) : Nat :=
  bs.foldl (fun acc x => [0, 1, 2, 3, 4, 5, 6, 7].foldl (fun a k => crcBitLsb poly a (x.getLsbD k)) acc) init

/-- The bus integrity code of R28: x^16 + x^12 + x^5 + 1, initial value 0xFFFF. -/
def crc16 (bs : List Byte) : Nat := crcMsb 16 0x1021 0xFFFF bs

/-- CRC-32 of IEEE 802.3: initial value and final inversion of all ones, reflected. -/
def crc32 (bs : List Byte) : Nat := crcLsb 0xEDB88320 0xFFFFFFFF bs ^^^ 0xFFFFFFFF

/-- Saturating 32-bit register count. -/
def sat32 (n : Nat) : Word := BitVec.ofNat 32 (if 0xFFFFFFFF < n then 0xFFFFFFFF else n)

/-! ## Sparse maps -/

/-- A table as plain data: key and value pairs with keys strictly rising and no entry equal to the default. -/
abbrev SMap (β : Type) := List (Nat × β)

/-- The value at a key, the default where nothing is listed. -/
def SMap.get {β : Type} (d : Nat → β) (m : SMap β) (k : Nat) : β :=
  match m.lookup k with
  | some v => v
  | none => d k

/-- Insert a pair before the first larger key. -/
def SMap.put {β : Type} (k : Nat) (v : β) : SMap β → SMap β
  | [] => [(k, v)]
  | (j, w) :: t => if k < j then (k, v) :: (j, w) :: t else (j, w) :: SMap.put k v t

/-- The map without a key. -/
def SMap.erase {β : Type} (m : SMap β) (k : Nat) : SMap β := m.filter (fun p => p.1 != k)

/-- The map with a key set; the default value is not listed. -/
def SMap.set {β : Type} [DecidableEq β] (d : Nat → β) (m : SMap β) (k : Nat) (v : β) : SMap β :=
  if v = d k then SMap.erase m k else SMap.put k v (SMap.erase m k)

/-- Canonical form: keys strictly rising, no default listed. -/
def SMap.wf {β : Type} [DecidableEq β] (d : Nat → β) : SMap β → Bool
  | [] => true
  | [(k, v)] => decide (v ≠ d k)
  | (k, v) :: (j, w) :: t => decide (v ≠ d k) && decide (k < j) && SMap.wf d ((j, w) :: t)

/-- The keys listed in [lo, hi). -/
def SMap.keysIn {β : Type} (m : SMap β) (lo hi : Nat) : List Nat :=
  (m.filter (fun p => decide (lo ≤ p.1) && decide (p.1 < hi))).map (·.1)

/-- The map without every key in [lo, hi). -/
def SMap.dropRange {β : Type} (m : SMap β) (lo hi : Nat) : SMap β :=
  m.filter (fun p => ! (decide (lo ≤ p.1) && decide (p.1 < hi)))

/-- Keep only the entries whose key and value pass. -/
def SMap.keep {β : Type} (m : SMap β) (p : Nat → β → Bool) : SMap β := m.filter (fun e => p e.1 e.2)

/-- The number default of a numeric table. -/
def zeroOf (_ : Nat) : Nat := 0

/-- The absent default of a table of records. -/
def noneOf {β : Type} (_ : Nat) : Option β := none

/-- The default of a sparse map of lists. -/
def nilOf {β : Type} (_ : Nat) : List β := []

/-- The ASCII bytes of a text. -/
def ascii (t : String) : List Byte := t.toList.map (fun c => BitVec.ofNat 8 c.toNat)

end Sys2Proof.Machine
end

