-- ==== Sys2Proof/Machine/RegMap.lean ====
section
/-! DEFINITION. The register map of the Device Window: where each register of the spec lies (R5), whether it has
allotment-private copies (R511), its reset value, and the access type of each of its fields (R8). One row per
register heading of the spec's chapters 01 to 17. -/

namespace Sys2Proof.Machine

/-- The access types of R8. -/
inductive Access where
  | ro | rw | wo | w1c | w1s | rc | rwl
  deriving DecidableEq, Repr

/-- One field of a register: bits [hi:lo] and its access type. -/
structure FieldRow where
  hi : Nat
  lo : Nat
  acc : Access
  deriving DecidableEq, Repr

/-- One dimension of a register array: first index, one past the last index, stride in bytes. -/
structure Dim where
  first : Nat
  stop : Nat
  stride : Nat
  deriving DecidableEq, Repr

/-- One register or register array of the map; base is the Device Window offset of index 0. -/
structure RegRow where
  base : Nat
  dims : List Dim
  priv : Bool
  reset : Nat
  fields : List FieldRow
  deriving DecidableEq, Repr

/-! ## Addresses, by the names of the spec -/

/-- VENDOR_PART, chapter 01. -/
def Reg.vendorPart : Nat := 0x00000000
/-- SILICON_STEP, chapter 01. -/
def Reg.siliconStep : Nat := 0x00000004
/-- SERIAL_LO, chapter 01. -/
def Reg.serialLo : Nat := 0x00000008
/-- SERIAL_HI, chapter 01. -/
def Reg.serialHi : Nat := 0x0000000C
/-- IMAGE_DIGEST, chapter 01. -/
def Reg.imageDigest : Nat := 0x00000010
/-- DIR_ENTRY[n], chapter 01. -/
def Reg.dirEntry (n : Nat) : Nat := 0x00000040 + 0x4 * n
/-- ISLAND_STATE[n], chapter 01. -/
def Reg.islandState (n : Nat) : Nat := 0x00000100 + 0x4 * n
/-- CROSS_LAST, chapter 01. -/
def Reg.crossLast : Nat := 0x00000200
/-- CELL_RESENDS, chapter 01. -/
def Reg.cellResends : Nat := 0x00000204
/-- BUS_CODE_FAILS, chapter 01. -/
def Reg.busCodeFails : Nat := 0x00000208
/-- STW_FEED_STATUS, chapter 02. -/
def Reg.stwFeedStatus : Nat := 0x00100800
/-- STW_VIN[n], chapter 02. -/
def Reg.stwVin (n : Nat) : Nat := 0x00100804 + 0x4 * n
/-- STW_INPUT_POWER, chapter 02. -/
def Reg.stwInputPower : Nat := 0x0010080C
/-- STW_HOLDUP_V, chapter 02. -/
def Reg.stwHoldupV : Nat := 0x00100810
/-- STW_HOLDUP_CAP, chapter 02. -/
def Reg.stwHoldupCap : Nat := 0x00100814
/-- STW_HOLDUP_ENERGY, chapter 02. -/
def Reg.stwHoldupEnergy : Nat := 0x00100818
/-- STW_PFAIL_LOG, chapter 02. -/
def Reg.stwPfailLog : Nat := 0x0010081C
/-- STW_TEMP, chapter 02. -/
def Reg.stwTemp : Nat := 0x00100820
/-- STW_PINS, chapter 02. -/
def Reg.stwPins : Nat := 0x00100824
/-- STW_ALERT, chapter 02. -/
def Reg.stwAlert : Nat := 0x00100828
/-- STW_BOOT_STATUS, chapter 03. -/
def Reg.stwBootStatus : Nat := 0x00100400
/-- STW_BOOT_TIME, chapter 03. -/
def Reg.stwBootTime : Nat := 0x00100404
/-- STW_SLOT_STATE, chapter 03. -/
def Reg.stwSlotState : Nat := 0x00100408
/-- STW_SLOT_BUILD_LO[n], chapter 03. -/
def Reg.stwSlotBuildLo (n : Nat) : Nat := 0x00100410 + 0x8 * n
/-- STW_SLOT_BUILD_HI[n], chapter 03. -/
def Reg.stwSlotBuildHi (n : Nat) : Nat := 0x00100414 + 0x8 * n
/-- STW_SLOT_ROLLBACK, chapter 03. -/
def Reg.stwSlotRollback : Nat := 0x00100428
/-- STW_IMAGE_INFO, chapter 03. -/
def Reg.stwImageInfo : Nat := 0x0010042C
/-- STW_YOKE_CLASS_LO, chapter 03. -/
def Reg.stwYokeClassLo : Nat := 0x00100430
/-- STW_YOKE_CLASS_HI, chapter 03. -/
def Reg.stwYokeClassHi : Nat := 0x00100434
/-- STW_AUTH_STATE, chapter 03. -/
def Reg.stwAuthState : Nat := 0x00100438
/-- STW_IMAGE_CMD, chapter 03. -/
def Reg.stwImageCmd : Nat := 0x00100440
/-- STW_IMAGE_RESULT, chapter 03. -/
def Reg.stwImageResult : Nat := 0x00100444
/-- STW_IMAGE_ARM, chapter 03. -/
def Reg.stwImageArm : Nat := 0x00100448
/-- STW_NOR_WEAR, chapter 03. -/
def Reg.stwNorWear : Nat := 0x00100450
/-- STW_STAGE[n], chapter 03. -/
def Reg.stwStage (n : Nat) : Nat := 0x00110000 + 0x4 * n
/-- STW_MODE, chapter 04. -/
def Reg.stwMode : Nat := 0x00100000
/-- STW_MODE_CMD, chapter 04. -/
def Reg.stwModeCmd : Nat := 0x00100004
/-- STW_MODE_RESULT, chapter 04. -/
def Reg.stwModeResult : Nat := 0x00100008
/-- STW_MODE_CFG, chapter 04. -/
def Reg.stwModeCfg : Nat := 0x0010000C
/-- STW_SERVICE_SET, chapter 04. -/
def Reg.stwServiceSet : Nat := 0x00100010
/-- STW_RESPONSE, chapter 04. -/
def Reg.stwResponse : Nat := 0x00100014
/-- STW_RECOVERY, chapter 04. -/
def Reg.stwRecovery : Nat := 0x00100018
/-- STW_RECOVERY_ISLANDS, chapter 04. -/
def Reg.stwRecoveryIslands : Nat := 0x0010001C
/-- STW_RESET_CAUSE, chapter 04. -/
def Reg.stwResetCause : Nat := 0x00100020
/-- STW_STORE_CFG, chapter 04. -/
def Reg.stwStoreCfg : Nat := 0x00100030
/-- STW_STORE_STATUS, chapter 04. -/
def Reg.stwStoreStatus : Nat := 0x00100034
/-- STW_STORE_DEFERRALS, chapter 04. -/
def Reg.stwStoreDeferrals : Nat := 0x00100038
/-- STW_SELFTEST, chapter 04. -/
def Reg.stwSelftest : Nat := 0x00100040
/-- LNF_SHEAF_LO, chapter 05. -/
def Reg.lnfSheafLo : Nat := 0x00300000
/-- LNF_SHEAF_HI, chapter 05. -/
def Reg.lnfSheafHi : Nat := 0x00300004
/-- LNF_MARK_LO, chapter 05. -/
def Reg.lnfMarkLo : Nat := 0x00300008
/-- LNF_MARK_HI, chapter 05. -/
def Reg.lnfMarkHi : Nat := 0x0030000C
/-- LNF_SHEAF_CFG, chapter 05. -/
def Reg.lnfSheafCfg : Nat := 0x00300010
/-- LNF_TIME_CFG, chapter 05. -/
def Reg.lnfTimeCfg : Nat := 0x00300014
/-- LNF_SECOND, chapter 05. -/
def Reg.lnfSecond : Nat := 0x00300020
/-- LNF_LANE_CTRL[n], chapter 05. -/
def Reg.lnfLaneCtrl (n : Nat) : Nat := 0x00301000 + 0x40 * n
/-- LNF_LANE_STATUS[n], chapter 05. -/
def Reg.lnfLaneStatus (n : Nat) : Nat := 0x00301004 + 0x40 * n
/-- LNF_LANE_PRBS_ERR[n], chapter 05. -/
def Reg.lnfLanePrbsErr (n : Nat) : Nat := 0x00301008 + 0x40 * n
/-- LNF_LANE_SKEW[n], chapter 05. -/
def Reg.lnfLaneSkew (n : Nat) : Nat := 0x0030100C + 0x40 * n
/-- LNF_LANE_SEC[n][c], chapter 05. -/
def Reg.lnfLaneSec (n c : Nat) : Nat := 0x00301010 + 0x40 * n + 0x4 * c
/-- LNF_GRP_CTRL[g], chapter 05. -/
def Reg.lnfGrpCtrl (g : Nat) : Nat := 0x00302000 + 0x80 * g
/-- LNF_GRP_TRACE_TX[g], chapter 05. -/
def Reg.lnfGrpTraceTx (g : Nat) : Nat := 0x00302004 + 0x80 * g
/-- LNF_GRP_TRACE_EXP[g], chapter 05. -/
def Reg.lnfGrpTraceExp (g : Nat) : Nat := 0x00302008 + 0x80 * g
/-- LNF_GRP_TRACE_RX[g], chapter 05. -/
def Reg.lnfGrpTraceRx (g : Nat) : Nat := 0x0030200C + 0x80 * g
/-- LNF_GRP_STATUS[g], chapter 05. -/
def Reg.lnfGrpStatus (g : Nat) : Nat := 0x00302010 + 0x80 * g
/-- LNF_GRP_DEFECT[g], chapter 05. -/
def Reg.lnfGrpDefect (g : Nat) : Nat := 0x00302014 + 0x80 * g
/-- LNF_GRP_RX_SHEAF_LO[g], chapter 05. -/
def Reg.lnfGrpRxSheafLo (g : Nat) : Nat := 0x00302018 + 0x80 * g
/-- LNF_GRP_RX_SHEAF_HI[g], chapter 05. -/
def Reg.lnfGrpRxSheafHi (g : Nat) : Nat := 0x0030201C + 0x80 * g
/-- LNF_GRP_SKEW[g], chapter 05. -/
def Reg.lnfGrpSkew (g : Nat) : Nat := 0x00302020 + 0x80 * g
/-- LNF_GRP_SD_SET[g], chapter 05. -/
def Reg.lnfGrpSdSet (g : Nat) : Nat := 0x00302024 + 0x80 * g
/-- LNF_GRP_SD_CLEAR[g], chapter 05. -/
def Reg.lnfGrpSdClear (g : Nat) : Nat := 0x00302028 + 0x80 * g
/-- LNF_GRP_EXC_CFG[g], chapter 05. -/
def Reg.lnfGrpExcCfg (g : Nat) : Nat := 0x0030202C + 0x80 * g
/-- LNF_GRP_SEC[g][c], chapter 05. -/
def Reg.lnfGrpSec (g c : Nat) : Nat := 0x00302030 + 0x80 * g + 0x4 * c
/-- LNF_ETH_CTRL[p], chapter 05. -/
def Reg.lnfEthCtrl (p : Nat) : Nat := 0x00303000 + 0x40 * p
/-- LNF_ETH_STATUS[p], chapter 05. -/
def Reg.lnfEthStatus (p : Nat) : Nat := 0x00303004 + 0x40 * p
/-- LNF_ETH_SEC[p][c], chapter 05. -/
def Reg.lnfEthSec (p c : Nat) : Nat := 0x00303010 + 0x40 * p + 0x4 * c
/-- RIX_SWAP_CMD, chapter 06. -/
def Reg.rixSwapCmd : Nat := 0x00400000
/-- RIX_SWAP_RESULT, chapter 06. -/
def Reg.rixSwapResult : Nat := 0x00400004
/-- RIX_SWAP_SHEAF_LO, chapter 06. -/
def Reg.rixSwapSheafLo : Nat := 0x00400008
/-- RIX_SWAP_SHEAF_HI, chapter 06. -/
def Reg.rixSwapSheafHi : Nat := 0x0040000C
/-- RIX_GRP_PAGE[g], chapter 06. -/
def Reg.rixGrpPage (g : Nat) : Nat := 0x00400100 + 0x4 * g
/-- RIX_GRP_CRC[g], chapter 06. -/
def Reg.rixGrpCrc (g : Nat) : Nat := 0x00400140 + 0x4 * g
/-- RIX_GRP_RX_CRC[g], chapter 06. -/
def Reg.rixGrpRxCrc (g : Nat) : Nat := 0x00400180 + 0x4 * g
/-- RIX_PAIR_CFG[k], chapter 06. -/
def Reg.rixPairCfg (k : Nat) : Nat := 0x00400200 + 0x20 * k
/-- RIX_PAIR_TIMERS[k], chapter 06. -/
def Reg.rixPairTimers (k : Nat) : Nat := 0x00400204 + 0x20 * k
/-- RIX_APS_CMD[k], chapter 06. -/
def Reg.rixApsCmd (k : Nat) : Nat := 0x00400208 + 0x20 * k
/-- RIX_APS_STATUS[k], chapter 06. -/
def Reg.rixApsStatus (k : Nat) : Nat := 0x0040020C + 0x20 * k
/-- RIX_APS_RX[k], chapter 06. -/
def Reg.rixApsRx (k : Nat) : Nat := 0x00400210 + 0x20 * k
/-- RIX_PAIR_SKEW[k], chapter 06. -/
def Reg.rixPairSkew (k : Nat) : Nat := 0x00400214 + 0x20 * k
/-- RIX_PAIR_SWITCHES[k], chapter 06. -/
def Reg.rixPairSwitches (k : Nat) : Nat := 0x00400218 + 0x20 * k
/-- RIX_TCM[p][n], chapter 06. -/
def Reg.rixTcm (p n : Nat) : Nat := 0x00410000 + 0x800 * p + 0x4 * n
/-- RIX_RCM[p][n], chapter 06. -/
def Reg.rixRcm (p n : Nat) : Nat := 0x00420000 + 0x800 * p + 0x4 * n
/-- CLS_CTRL, chapter 07. -/
def Reg.clsCtrl : Nat := 0x00500000
/-- CLS_STATUS, chapter 07. -/
def Reg.clsStatus : Nat := 0x00500004
/-- CLS_HASH_SEED0, chapter 07. -/
def Reg.clsHashSeed0 : Nat := 0x00500008
/-- CLS_HASH_SEED1, chapter 07. -/
def Reg.clsHashSeed1 : Nat := 0x0050000C
/-- CLS_EVICT_CFG, chapter 07. -/
def Reg.clsEvictCfg : Nat := 0x00500010
/-- CLS_AGE_CFG, chapter 07. -/
def Reg.clsAgeCfg : Nat := 0x00500014
/-- CLS_REAPER_STATUS, chapter 07. -/
def Reg.clsReaperStatus : Nat := 0x00500018
/-- CLS_LEARN_QUEUE, chapter 07. -/
def Reg.clsLearnQueue : Nat := 0x0050001C
/-- CLS_CMD, chapter 07. -/
def Reg.clsCmd : Nat := 0x00500100
/-- CLS_CMD_RESULT, chapter 07. -/
def Reg.clsCmdResult : Nat := 0x00500104
/-- CLS_CMD_INDEX, chapter 07. -/
def Reg.clsCmdIndex : Nat := 0x00500108
/-- CLS_CMD_FILTER, chapter 07. -/
def Reg.clsCmdFilter : Nat := 0x0050010C
/-- CLS_CMD_ENTRY[w], chapter 07. -/
def Reg.clsCmdEntry (w : Nat) : Nat := 0x00500120 + 0x4 * w
/-- CLS_PORT_CFG[p], chapter 07. -/
def Reg.clsPortCfg (p : Nat) : Nat := 0x00500200 + 0x10 * p
/-- CLS_PORT_MISS[p], chapter 07. -/
def Reg.clsPortMiss (p : Nat) : Nat := 0x00500204 + 0x10 * p
/-- CLS_PORT_QUOTA[p], chapter 07. -/
def Reg.clsPortQuota (p : Nat) : Nat := 0x00500208 + 0x10 * p
/-- CLS_PORT_LEARNED[p], chapter 07. -/
def Reg.clsPortLearned (p : Nat) : Nat := 0x0050020C + 0x10 * p
/-- CLS_PROFILE[k], chapter 07. -/
def Reg.clsProfile (k : Nat) : Nat := 0x00500400 + 0x4 * k
/-- CLS_TPID, chapter 07. -/
def Reg.clsTpid : Nat := 0x00500440
/-- CLS_DIGEST_CTRL, chapter 07. -/
def Reg.clsDigestCtrl : Nat := 0x00500500
/-- CLS_COUNT_LO[c], chapter 07. -/
def Reg.clsCountLo (c : Nat) : Nat := 0x00500600 + 0x8 * c
/-- CLS_COUNT_HI[c], chapter 07. -/
def Reg.clsCountHi (c : Nat) : Nat := 0x00500604 + 0x8 * c
/-- CLS_FLOOD[l][m], chapter 07. -/
def Reg.clsFlood (l m : Nat) : Nat := 0x00501000 + 0x40 * l + 0x4 * m
/-- CLS_DIGEST_LO[j], chapter 07. -/
def Reg.clsDigestLo (j : Nat) : Nat := 0x00508000 + 0x8 * j
/-- CLS_DIGEST_HI[j], chapter 07. -/
def Reg.clsDigestHi (j : Nat) : Nat := 0x00508004 + 0x8 * j
/-- SCH_STATUS, chapter 08. -/
def Reg.schStatus : Nat := 0x00600004
/-- SCH_FREE_ENC, chapter 08. -/
def Reg.schFreeEnc : Nat := 0x00600008
/-- SCH_FREE_DEC, chapter 08. -/
def Reg.schFreeDec : Nat := 0x0060000C
/-- SCH_SPILL_CFG, chapter 08. -/
def Reg.schSpillCfg : Nat := 0x00600010
/-- SCH_SPILL_USED, chapter 08. -/
def Reg.schSpillUsed : Nat := 0x00600014
/-- SCH_TBL_CMD, chapter 08. -/
def Reg.schTblCmd : Nat := 0x00600020
/-- SCH_TBL_RESULT, chapter 08. -/
def Reg.schTblResult : Nat := 0x00600024
/-- SCH_TBL_INDEX, chapter 08. -/
def Reg.schTblIndex : Nat := 0x00600028
/-- SCH_TBL_DATA[w], chapter 08. -/
def Reg.schTblData (w : Nat) : Nat := 0x00600030 + 0x4 * w
/-- SCH_COUNT_LO[c], chapter 08. -/
def Reg.schCountLo (c : Nat) : Nat := 0x00600100 + 0x8 * c
/-- SCH_COUNT_HI[c], chapter 08. -/
def Reg.schCountHi (c : Nat) : Nat := 0x00600104 + 0x8 * c
/-- SCH_OUT_CFG[o], chapter 08. -/
def Reg.schOutCfg (o : Nat) : Nat := 0x00601000 + 0x20 * o
/-- SCH_OUT_RATE[o], chapter 08. -/
def Reg.schOutRate (o : Nat) : Nat := 0x00601004 + 0x20 * o
/-- SCH_OUT_BURST[o], chapter 08. -/
def Reg.schOutBurst (o : Nat) : Nat := 0x00601008 + 0x20 * o
/-- SCH_GATE_CFG[o], chapter 08. -/
def Reg.schGateCfg (o : Nat) : Nat := 0x0060100C + 0x20 * o
/-- SCH_GATE_BASE_LO[o], chapter 08. -/
def Reg.schGateBaseLo (o : Nat) : Nat := 0x00601010 + 0x20 * o
/-- SCH_GATE_BASE_HI[o], chapter 08. -/
def Reg.schGateBaseHi (o : Nat) : Nat := 0x00601014 + 0x20 * o
/-- SCH_GATE_CYCLE[o], chapter 08. -/
def Reg.schGateCycle (o : Nat) : Nat := 0x00601018 + 0x20 * o
/-- SCH_GATE_STATUS[o], chapter 08. -/
def Reg.schGateStatus (o : Nat) : Nat := 0x0060101C + 0x20 * o
/-- SCH_CQ_CFG[q], chapter 08. -/
def Reg.schCqCfg (q : Nat) : Nat := 0x00610000 + 0x20 * q
/-- SCH_CQ_RATE[q], chapter 08. -/
def Reg.schCqRate (q : Nat) : Nat := 0x00610004 + 0x20 * q
/-- SCH_CQ_BURST[q], chapter 08. -/
def Reg.schCqBurst (q : Nat) : Nat := 0x00610008 + 0x20 * q
/-- SCH_CQ_LAUNCH[q], chapter 08. -/
def Reg.schCqLaunch (q : Nat) : Nat := 0x0061000C + 0x20 * q
/-- SCH_CQ_LIMIT[q], chapter 08. -/
def Reg.schCqLimit (q : Nat) : Nat := 0x00610010 + 0x20 * q
/-- SCH_CQ_DEPTH[q], chapter 08. -/
def Reg.schCqDepth (q : Nat) : Nat := 0x00610014 + 0x20 * q
/-- MGD_STATUS, chapter 09. -/
def Reg.mgdStatus : Nat := 0x00700000
/-- MGD_GUARD, chapter 09. -/
def Reg.mgdGuard : Nat := 0x00700004
/-- MGD_TAG_CFG, chapter 09. -/
def Reg.mgdTagCfg : Nat := 0x00700008
/-- MGD_HARROW_CFG, chapter 09. -/
def Reg.mgdHarrowCfg : Nat := 0x0070000C
/-- MGD_HARROW_STATUS, chapter 09. -/
def Reg.mgdHarrowStatus : Nat := 0x00700010
/-- MGD_RETILL_CMD, chapter 09. -/
def Reg.mgdRetillCmd : Nat := 0x00700020
/-- MGD_RETILL_STATUS, chapter 09. -/
def Reg.mgdRetillStatus : Nat := 0x00700024
/-- MGD_FAIL_ADDR_LO, chapter 09. -/
def Reg.mgdFailAddrLo : Nat := 0x00700030
/-- MGD_FAIL_ADDR_HI, chapter 09. -/
def Reg.mgdFailAddrHi : Nat := 0x00700034
/-- MGD_FAIL_INFO, chapter 09. -/
def Reg.mgdFailInfo : Nat := 0x00700038
/-- MGD_COUNT_LO[c], chapter 09. -/
def Reg.mgdCountLo (c : Nat) : Nat := 0x00700100 + 0x8 * c
/-- MGD_COUNT_HI[c], chapter 09. -/
def Reg.mgdCountHi (c : Nat) : Nat := 0x00700104 + 0x8 * c
/-- MGD_QUEUE_CFG[q], chapter 09. -/
def Reg.mgdQueueCfg (q : Nat) : Nat := 0x00701000 + 0x10 * q
/-- MGD_ALLOT_WIN[n], chapter 09. -/
def Reg.mgdAllotWin (n : Nat) : Nat := 0x00702000 + 0x4 * n
/-- MGD_REGION[r], chapter 09. -/
def Reg.mgdRegion (r : Nat) : Nat := 0x00703000 + 0x10 * r
/-- MGD_REGION_INFO[r], chapter 09. -/
def Reg.mgdRegionInfo (r : Nat) : Nat := 0x00703004 + 0x10 * r
/-- MGD_REGION_PROT[r], chapter 09. -/
def Reg.mgdRegionProt (r : Nat) : Nat := 0x00703008 + 0x10 * r
/-- ASC_STATUS, chapter 10. -/
def Reg.ascStatus : Nat := 0x00800000
/-- ASC_PN_CFG, chapter 10. -/
def Reg.ascPnCfg : Nat := 0x00800004
/-- ASC_SCI_STATUS, chapter 10. -/
def Reg.ascSciStatus : Nat := 0x00800008
/-- ASC_PERSIST_STATUS, chapter 10. -/
def Reg.ascPersistStatus : Nat := 0x0080000C
/-- ASC_CMD, chapter 10. -/
def Reg.ascCmd : Nat := 0x00800100
/-- ASC_CMD_RESULT, chapter 10. -/
def Reg.ascCmdResult : Nat := 0x00800104
/-- ASC_CMD_ASSOC, chapter 10. -/
def Reg.ascCmdAssoc : Nat := 0x00800108
/-- ASC_CMD_DATA[w], chapter 10. -/
def Reg.ascCmdData (w : Nat) : Nat := 0x00800200 + 0x4 * w
/-- ASC_COUNT_LO[c], chapter 10. -/
def Reg.ascCountLo (c : Nat) : Nat := 0x00800400 + 0x8 * c
/-- ASC_COUNT_HI[c], chapter 10. -/
def Reg.ascCountHi (c : Nat) : Nat := 0x00800404 + 0x8 * c
/-- ASC_INPUT_CFG[i], chapter 10. -/
def Reg.ascInputCfg (i : Nat) : Nat := 0x00801000 + 0x4 * i
/-- ASC_TRIB_CLOAK[t], chapter 10. -/
def Reg.ascTribCloak (t : Nat) : Nat := 0x00802000 + 0x4 * t
/-- ASC_FLIP_STATUS[g], chapter 10. -/
def Reg.ascFlipStatus (g : Nat) : Nat := 0x00803000 + 0x4 * g
/-- ASC_OUT_OWNER[o], chapter 10. -/
def Reg.ascOutOwner (o : Nat) : Nat := 0x00804000 + 0x4 * o
/-- CPH_STATUS, chapter 11. -/
def Reg.cphStatus : Nat := 0x00900000
/-- CPH_CFG, chapter 11. -/
def Reg.cphCfg : Nat := 0x00900004
/-- CPH_ROLE_COUNT, chapter 11. -/
def Reg.cphRoleCount : Nat := 0x00900008
/-- CPH_POOL_COUNT, chapter 11. -/
def Reg.cphPoolCount : Nat := 0x0090000C
/-- CPH_PAIR_CMD, chapter 11. -/
def Reg.cphPairCmd : Nat := 0x00900010
/-- CPH_PAIR_RESULT, chapter 11. -/
def Reg.cphPairResult : Nat := 0x00900014
/-- CPH_COUNT_LO[c], chapter 11. -/
def Reg.cphCountLo (c : Nat) : Nat := 0x00900100 + 0x8 * c
/-- CPH_COUNT_HI[c], chapter 11. -/
def Reg.cphCountHi (c : Nat) : Nat := 0x00900104 + 0x8 * c
/-- CPH_JOB_STATUS, chapter 11. -/
def Reg.cphJobStatus : Nat := 0x00900200
/-- CPH_PAIR_STATE[p], chapter 11. -/
def Reg.cphPairState (p : Nat) : Nat := 0x00901000 + 0x4 * p
/-- CPH_ALLOT_WEIGHT[n], chapter 11. -/
def Reg.cphAllotWeight (n : Nat) : Nat := 0x00902000 + 0x4 * n
/-- KVT_STATUS, chapter 12. -/
def Reg.kvtStatus : Nat := 0x00A00000
/-- KVT_POLICY, chapter 12. -/
def Reg.kvtPolicy : Nat := 0x00A00004
/-- KVT_DATA_LIVE, chapter 12. -/
def Reg.kvtDataLive : Nat := 0x00A00008
/-- KVT_VAULT_LIVE, chapter 12. -/
def Reg.kvtVaultLive : Nat := 0x00A0000C
/-- KVT_SEALED, chapter 12. -/
def Reg.kvtSealed : Nat := 0x00A00010
/-- KVT_RBG, chapter 12. -/
def Reg.kvtRbg : Nat := 0x00A00014
/-- KVT_LC, chapter 12. -/
def Reg.kvtLc : Nat := 0x00A00018
/-- KVT_ARM, chapter 12. -/
def Reg.kvtArm : Nat := 0x00A0001C
/-- KVT_CMD, chapter 12. -/
def Reg.kvtCmd : Nat := 0x00A00100
/-- KVT_CMD_RESULT, chapter 12. -/
def Reg.kvtCmdResult : Nat := 0x00A00104
/-- KVT_CMD_SLOT, chapter 12. -/
def Reg.kvtCmdSlot : Nat := 0x00A00108
/-- KVT_CMD_ATTR, chapter 12. -/
def Reg.kvtCmdAttr : Nat := 0x00A0010C
/-- KVT_CMD_ARG, chapter 12. -/
def Reg.kvtCmdArg : Nat := 0x00A00110
/-- KVT_CMD_USAGE_LO, chapter 12. -/
def Reg.kvtCmdUsageLo : Nat := 0x00A00114
/-- KVT_CMD_USAGE_HI, chapter 12. -/
def Reg.kvtCmdUsageHi : Nat := 0x00A00118
/-- KVT_CMD_FP_LO, chapter 12. -/
def Reg.kvtCmdFpLo : Nat := 0x00A0011C
/-- KVT_CMD_FP_HI, chapter 12. -/
def Reg.kvtCmdFpHi : Nat := 0x00A00120
/-- KVT_CMD_DATA[w], chapter 12. -/
def Reg.kvtCmdData (w : Nat) : Nat := 0x00A00140 + 0x4 * w
/-- KVT_COUNT_LO[c], chapter 12. -/
def Reg.kvtCountLo (c : Nat) : Nat := 0x00A00400 + 0x8 * c
/-- KVT_COUNT_HI[c], chapter 12. -/
def Reg.kvtCountHi (c : Nat) : Nat := 0x00A00404 + 0x8 * c
/-- KVT_XFER[n], chapter 12. -/
def Reg.kvtXfer (n : Nat) : Nat := 0x00A10000 + 0x4 * n
/-- YOK_STATUS, chapter 13. -/
def Reg.yokStatus : Nat := 0x00B00000
/-- YOK_CFG, chapter 13. -/
def Reg.yokCfg : Nat := 0x00B00004
/-- YOK_LAG, chapter 13. -/
def Reg.yokLag : Nat := 0x00B00008
/-- YOK_CMD, chapter 13. -/
def Reg.yokCmd : Nat := 0x00B00010
/-- YOK_CMD_RESULT, chapter 13. -/
def Reg.yokCmdResult : Nat := 0x00B00014
/-- YOK_ARM, chapter 13. -/
def Reg.yokArm : Nat := 0x00B00018
/-- YOK_LINK, chapter 13. -/
def Reg.yokLink : Nat := 0x00B00020
/-- YOK_SKEW, chapter 13. -/
def Reg.yokSkew : Nat := 0x00B00024
/-- YOK_DIVERGE, chapter 13. -/
def Reg.yokDiverge : Nat := 0x00B00028
/-- YOK_PEER_HASH[n], chapter 13. -/
def Reg.yokPeerHash (n : Nat) : Nat := 0x00B00080 + 0x4 * n
/-- YOK_COUNT_LO[c], chapter 13. -/
def Reg.yokCountLo (c : Nat) : Nat := 0x00B00200 + 0x8 * c
/-- YOK_COUNT_HI[c], chapter 13. -/
def Reg.yokCountHi (c : Nat) : Nat := 0x00B00204 + 0x8 * c
/-- TIM_STATUS, chapter 14. -/
def Reg.timStatus : Nat := 0x00C00000
/-- TIM_CFG, chapter 14. -/
def Reg.timCfg : Nat := 0x00C00004
/-- TIM_PPS_DELAY, chapter 14. -/
def Reg.timPpsDelay : Nat := 0x00C00008
/-- TIM_PPS_CFG, chapter 14. -/
def Reg.timPpsCfg : Nat := 0x00C0000C
/-- TIM_PPS_STATUS, chapter 14. -/
def Reg.timPpsStatus : Nat := 0x00C00010
/-- TIM_STEP_CFG, chapter 14. -/
def Reg.timStepCfg : Nat := 0x00C00014
/-- TIM_TOD_TX, chapter 14. -/
def Reg.timTodTx : Nat := 0x00C00018
/-- TIM_TOD_RX[w], chapter 14. -/
def Reg.timTodRx (w : Nat) : Nat := 0x00C00020 + 0x4 * w
/-- TIM_LINK_DELAY[g], chapter 14. -/
def Reg.timLinkDelay (g : Nat) : Nat := 0x00C00100 + 0x8 * g
/-- TIM_LINK_OFFSET[g], chapter 14. -/
def Reg.timLinkOffset (g : Nat) : Nat := 0x00C00104 + 0x8 * g
/-- TIM_ALLOT_CH[n], chapter 14. -/
def Reg.timAllotCh (n : Nat) : Nat := 0x00C00200 + 0x4 * n
/-- TIM_COUNT_LO[c], chapter 14. -/
def Reg.timCountLo (c : Nat) : Nat := 0x00C00300 + 0x8 * c
/-- TIM_COUNT_HI[c], chapter 14. -/
def Reg.timCountHi (c : Nat) : Nat := 0x00C00304 + 0x8 * c
/-- TIM_CH_CTRL[ch], chapter 14. -/
def Reg.timChCtrl (ch : Nat) : Nat := 0x00C01000 + 0x40 * ch
/-- TIM_CH_ADJ[ch], chapter 14. -/
def Reg.timChAdj (ch : Nat) : Nat := 0x00C01004 + 0x40 * ch
/-- TIM_CH_T[ch][w], chapter 14. -/
def Reg.timChT (ch w : Nat) : Nat := 0x00C01008 + 0x40 * ch + 0x4 * w
/-- TIM_CH_CMD[ch], chapter 14. -/
def Reg.timChCmd (ch : Nat) : Nat := 0x00C01018 + 0x40 * ch
/-- TIM_CH_ARG[ch][w], chapter 14. -/
def Reg.timChArg (ch w : Nat) : Nat := 0x00C0101C + 0x40 * ch + 0x4 * w
/-- TIM_CH_RESULT[ch], chapter 14. -/
def Reg.timChResult (ch : Nat) : Nat := 0x00C0102C + 0x40 * ch
/-- TIM_CH_SLEW_LEFT[ch], chapter 14. -/
def Reg.timChSlewLeft (ch : Nat) : Nat := 0x00C01030 + 0x40 * ch
/-- HDG_STATUS, chapter 15. -/
def Reg.hdgStatus : Nat := 0x00D00000
/-- HDG_CFG, chapter 15. -/
def Reg.hdgCfg : Nat := 0x00D00004
/-- HDG_TEMP, chapter 15. -/
def Reg.hdgTemp : Nat := 0x00D00008
/-- HDG_CELL, chapter 15. -/
def Reg.hdgCell : Nat := 0x00D0000C
/-- HDG_HCOUNT_LO, chapter 15. -/
def Reg.hdgHcountLo : Nat := 0x00D00010
/-- HDG_HCOUNT_HI, chapter 15. -/
def Reg.hdgHcountHi : Nat := 0x00D00014
/-- HDG_POWERUPS, chapter 15. -/
def Reg.hdgPowerups : Nat := 0x00D00018
/-- HDG_ROOT_CAUSE, chapter 15. -/
def Reg.hdgRootCause : Nat := 0x00D0001C
/-- HDG_LATCH, chapter 15. -/
def Reg.hdgLatch : Nat := 0x00D00020
/-- HDG_LOG_STATUS, chapter 15. -/
def Reg.hdgLogStatus : Nat := 0x00D00030
/-- HDG_LOG_HEAD[w], chapter 15. -/
def Reg.hdgLogHead (w : Nat) : Nat := 0x00D00040 + 0x4 * w
/-- HDG_LOG_INDEX, chapter 15. -/
def Reg.hdgLogIndex : Nat := 0x00D00060
/-- HDG_LOG_DATA[w], chapter 15. -/
def Reg.hdgLogData (w : Nat) : Nat := 0x00D00080 + 0x4 * w
/-- HDG_SENSOR_CFG[s], chapter 15. -/
def Reg.hdgSensorCfg (s : Nat) : Nat := 0x00D00100 + 0x10 * s
/-- HDG_SENSOR_WIN[s], chapter 15. -/
def Reg.hdgSensorWin (s : Nat) : Nat := 0x00D00104 + 0x10 * s
/-- HDG_SENSOR_STATUS[s], chapter 15. -/
def Reg.hdgSensorStatus (s : Nat) : Nat := 0x00D00108 + 0x10 * s
/-- HDG_SENSOR_CELL[s], chapter 15. -/
def Reg.hdgSensorCell (s : Nat) : Nat := 0x00D0010C + 0x10 * s
/-- HIF_LINK_STATUS, chapter 16. -/
def Reg.hifLinkStatus : Nat := 0x00200000
/-- HIF_LINK_CFG, chapter 16. -/
def Reg.hifLinkCfg : Nat := 0x00200004
/-- HIF_ALLOT_CMD, chapter 16. -/
def Reg.hifAllotCmd : Nat := 0x00200010
/-- HIF_ALLOT_RESULT, chapter 16. -/
def Reg.hifAllotResult : Nat := 0x00200014
/-- HIF_DRAIN_CFG, chapter 16. -/
def Reg.hifDrainCfg : Nat := 0x00200018
/-- HIF_I3C_STATUS, chapter 16. -/
def Reg.hifI3cStatus : Nat := 0x00200020
/-- HIF_DOORBELL, chapter 16. -/
def Reg.hifDoorbell : Nat := 0x00200100
/-- HIF_IRQ_CFG, chapter 16. -/
def Reg.hifIrqCfg : Nat := 0x00200104
/-- HIF_ALLOT_STATE, chapter 16. -/
def Reg.hifAllotState : Nat := 0x00200108
/-- HIF_RING_BASE_LO[r], chapter 16. -/
def Reg.hifRingBaseLo (r : Nat) : Nat := 0x00200140 + 0x10 * r
/-- HIF_RING_BASE_HI[r], chapter 16. -/
def Reg.hifRingBaseHi (r : Nat) : Nat := 0x00200144 + 0x10 * r
/-- HIF_RING_CFG[r], chapter 16. -/
def Reg.hifRingCfg (r : Nat) : Nat := 0x00200148 + 0x10 * r
/-- HIF_RING_INDEX[r], chapter 16. -/
def Reg.hifRingIndex (r : Nat) : Nat := 0x0020014C + 0x10 * r
/-- HIF_COUNT_LO[c], chapter 16. -/
def Reg.hifCountLo (c : Nat) : Nat := 0x00200400 + 0x8 * c
/-- HIF_COUNT_HI[c], chapter 16. -/
def Reg.hifCountHi (c : Nat) : Nat := 0x00200404 + 0x8 * c
/-- HIF_ALLOT_CTRL[n], chapter 16. -/
def Reg.hifAllotCtrl (n : Nat) : Nat := 0x00201000 + 0x4 * n
/-- LOG_STATUS, chapter 17. -/
def Reg.logStatus : Nat := 0x00E00000
/-- LOG_CFG, chapter 17. -/
def Reg.logCfg : Nat := 0x00E00004
/-- LOG_CMD, chapter 17. -/
def Reg.logCmd : Nat := 0x00E00008
/-- LOG_RESULT, chapter 17. -/
def Reg.logResult : Nat := 0x00E0000C
/-- LOG_ARG, chapter 17. -/
def Reg.logArg : Nat := 0x00E00010
/-- LOG_FREEZE_MS, chapter 17. -/
def Reg.logFreezeMs : Nat := 0x00E00014
/-- LOG_SEQ, chapter 17. -/
def Reg.logSeq : Nat := 0x00E00018
/-- LOG_OLDEST, chapter 17. -/
def Reg.logOldest : Nat := 0x00E0001C
/-- LOG_LOST, chapter 17. -/
def Reg.logLost : Nat := 0x00E00020
/-- LOG_HOST_LO, chapter 17. -/
def Reg.logHostLo : Nat := 0x00E00028
/-- LOG_HOST_HI, chapter 17. -/
def Reg.logHostHi : Nat := 0x00E0002C
/-- LOG_READ_INDEX, chapter 17. -/
def Reg.logReadIndex : Nat := 0x00E00040
/-- LOG_READ_DATA[w], chapter 17. -/
def Reg.logReadData (w : Nat) : Nat := 0x00E00080 + 0x4 * w
/-- LOG_CAL_ARM, chapter 17. -/
def Reg.logCalArm : Nat := 0x00E00100
/-- LOG_CAL_INFO, chapter 17. -/
def Reg.logCalInfo : Nat := 0x00E00104
/-- LOG_CAL_STAGE[n], chapter 17. -/
def Reg.logCalStage (n : Nat) : Nat := 0x00E10000 + 0x4 * n
/-- PMC_SNAP_CFG, chapter 17. -/
def Reg.pmcSnapCfg : Nat := 0x00F00004
/-- PMC_DUMP_BASE_LO, chapter 17. -/
def Reg.pmcDumpBaseLo : Nat := 0x00F00010
/-- PMC_DUMP_BASE_HI, chapter 17. -/
def Reg.pmcDumpBaseHi : Nat := 0x00F00014
/-- PMC_DUMP_CFG, chapter 17. -/
def Reg.pmcDumpCfg : Nat := 0x00F00018
/-- PMC_DUMP_INDEX, chapter 17. -/
def Reg.pmcDumpIndex : Nat := 0x00F0001C
/-- PMC_TAG_CFG, chapter 17. -/
def Reg.pmcTagCfg : Nat := 0x00F00020
/-- PMC_TAG_NEXT, chapter 17. -/
def Reg.pmcTagNext : Nat := 0x00F00024
/-- PMC_DROPS, chapter 17. -/
def Reg.pmcDrops : Nat := 0x00F00028
/-- PMC_STREAM_BASE_LO[s], chapter 17. -/
def Reg.pmcStreamBaseLo (s : Nat) : Nat := 0x00F00100 + 0x10 * s
/-- PMC_STREAM_BASE_HI[s], chapter 17. -/
def Reg.pmcStreamBaseHi (s : Nat) : Nat := 0x00F00104 + 0x10 * s
/-- PMC_STREAM_CFG[s], chapter 17. -/
def Reg.pmcStreamCfg (s : Nat) : Nat := 0x00F00108 + 0x10 * s
/-- PMC_STREAM_INDEX[s], chapter 17. -/
def Reg.pmcStreamIndex (s : Nat) : Nat := 0x00F0010C + 0x10 * s
/-- PMC_STREAM_DROPS[s], chapter 17. -/
def Reg.pmcStreamDrops (s : Nat) : Nat := 0x00F00200 + 0x4 * s
/-- PMC_FU_CFG[k], chapter 17. -/
def Reg.pmcFuCfg (k : Nat) : Nat := 0x00F01000 + 0x20 * k
/-- PMC_FU_MATCH[k], chapter 17. -/
def Reg.pmcFuMatch (k : Nat) : Nat := 0x00F01004 + 0x20 * k
/-- PMC_FU_ADDR_LO[k], chapter 17. -/
def Reg.pmcFuAddrLo (k : Nat) : Nat := 0x00F01008 + 0x20 * k
/-- PMC_FU_ADDR_HI[k], chapter 17. -/
def Reg.pmcFuAddrHi (k : Nat) : Nat := 0x00F0100C + 0x20 * k
/-- PMC_FU_COUNT_LO[k], chapter 17. -/
def Reg.pmcFuCountLo (k : Nat) : Nat := 0x00F01010 + 0x20 * k
/-- PMC_FU_COUNT_HI[k], chapter 17. -/
def Reg.pmcFuCountHi (k : Nat) : Nat := 0x00F01014 + 0x20 * k
/-- PMC_FU_BYTES_LO[k], chapter 17. -/
def Reg.pmcFuBytesLo (k : Nat) : Nat := 0x00F01018 + 0x20 * k
/-- PMC_FU_BYTES_HI[k], chapter 17. -/
def Reg.pmcFuBytesHi (k : Nat) : Nat := 0x00F0101C + 0x20 * k
/-- PMC_EVC_LO[i], chapter 17. -/
def Reg.pmcEvcLo (i : Nat) : Nat := 0x00F10000 + 0x8 * i
/-- PMC_EVC_HI[i], chapter 17. -/
def Reg.pmcEvcHi (i : Nat) : Nat := 0x00F10004 + 0x8 * i

/-! ## The table, one list per unit block -/

/-- The registers of unit id 0x00. -/
def regRowsId : List RegRow :=
 [
  ⟨0x00000000, [], false, 0x5AE13216, [⟨31, 16, .ro⟩, ⟨15, 0, .ro⟩]⟩,
  ⟨0x00000004, [], false, 0x100, [⟨15, 8, .ro⟩, ⟨7, 0, .ro⟩]⟩,
  ⟨0x00000008, [], false, 0x0, [⟨31, 0, .ro⟩]⟩,
  ⟨0x0000000C, [], false, 0x0, [⟨31, 0, .ro⟩]⟩,
  ⟨0x00000010, [], false, 0x0, [⟨31, 0, .ro⟩]⟩,
  ⟨0x00000040, [⟨0, 16, 0x4⟩], false, 0x0, [⟨31, 24, .ro⟩, ⟨23, 16, .ro⟩, ⟨15, 8, .ro⟩, ⟨1, 1, .ro⟩, ⟨0, 0, .ro⟩]⟩,
  ⟨0x00000100, [⟨0, 21, 0x4⟩], false, 0x2, [⟨31, 16, .ro⟩, ⟨2, 2, .w1c⟩, ⟨1, 1, .ro⟩, ⟨0, 0, .ro⟩]⟩,
  ⟨0x00000200, [], false, 0x0, [⟨20, 16, .ro⟩, ⟨12, 8, .ro⟩, ⟨0, 0, .w1c⟩]⟩,
  ⟨0x00000204, [], false, 0x0, [⟨31, 0, .ro⟩]⟩,
  ⟨0x00000208, [], false, 0x0, [⟨31, 0, .ro⟩]⟩ ]

/-- The registers of unit id 0x01. -/
def regRowsStw : List RegRow :=
 [
  ⟨0x00100800, [], false, 0x0, [⟨7, 7, .w1c⟩, ⟨6, 6, .w1c⟩, ⟨5, 5, .w1c⟩, ⟨4, 4, .w1c⟩, ⟨1, 1, .ro⟩, ⟨0, 0, .ro⟩]⟩,
  ⟨0x00100804, [⟨0, 2, 0x4⟩], false, 0x0, [⟨31, 16, .ro⟩, ⟨15, 0, .ro⟩]⟩,
  ⟨0x0010080C, [], false, 0x0, [⟨31, 16, .rc⟩, ⟨15, 0, .ro⟩]⟩,
  ⟨0x00100810, [], false, 0x0, [⟨18, 16, .ro⟩, ⟨15, 0, .ro⟩]⟩,
  ⟨0x00100814, [], false, 0x0, [⟨15, 0, .ro⟩]⟩,
  ⟨0x00100818, [], false, 0x0, [⟨15, 0, .ro⟩]⟩,
  ⟨0x0010081C, [], false, 0x0, [⟨31, 16, .ro⟩, ⟨15, 8, .ro⟩, ⟨7, 0, .ro⟩]⟩,
  ⟨0x00100820, [], false, 0x0, [⟨31, 16, .ro⟩, ⟨15, 0, .ro⟩]⟩,
  ⟨0x00100824, [], false, 0x0, [⟨3, 3, .ro⟩, ⟨2, 2, .ro⟩, ⟨1, 1, .ro⟩, ⟨0, 0, .ro⟩]⟩,
  ⟨0x00100828, [], false, 0x2, [⟨8, 8, .w1c⟩, ⟨2, 0, .rw⟩]⟩,
  ⟨0x00100400, [], false, 0x3000, [⟨31, 28, .ro⟩, ⟨27, 24, .ro⟩, ⟨13, 12, .ro⟩, ⟨11, 8, .ro⟩]⟩,
  ⟨0x00100404, [], false, 0x0, [⟨31, 16, .ro⟩, ⟨15, 0, .ro⟩]⟩,
  ⟨0x00100408, [], false, 0x0, [⟨23, 20, .ro⟩, ⟨19, 16, .ro⟩, ⟨12, 12, .ro⟩, ⟨10, 8, .ro⟩, ⟨6, 4, .ro⟩, ⟨2, 0, .ro⟩]⟩,
  ⟨0x00100410, [⟨0, 3, 0x8⟩], false, 0x0, [⟨31, 0, .ro⟩]⟩,
  ⟨0x00100414, [⟨0, 3, 0x8⟩], false, 0x0, [⟨31, 0, .ro⟩]⟩,
  ⟨0x00100428, [], false, 0x0, [⟨31, 24, .ro⟩, ⟨23, 16, .ro⟩, ⟨15, 8, .ro⟩, ⟨7, 0, .ro⟩]⟩,
  ⟨0x0010042C, [], false, 0x0, [⟨17, 16, .ro⟩, ⟨15, 9, .ro⟩, ⟨8, 8, .ro⟩, ⟨7, 0, .ro⟩]⟩,
  ⟨0x00100430, [], false, 0x0, [⟨31, 0, .ro⟩]⟩,
  ⟨0x00100434, [], false, 0x0, [⟨31, 0, .ro⟩]⟩,
  ⟨0x00100438, [], false, 0x0, [⟨7, 4, .ro⟩, ⟨3, 0, .ro⟩]⟩,
  ⟨0x00100440, [], false, 0x0, [⟨31, 31, .ro⟩, ⟨19, 8, .wo⟩, ⟨7, 4, .wo⟩, ⟨3, 0, .wo⟩]⟩,
  ⟨0x00100444, [], false, 0x0, [⟨31, 31, .ro⟩, ⟨30, 20, .ro⟩, ⟨16, 16, .w1c⟩, ⟨7, 0, .ro⟩]⟩,
  ⟨0x00100448, [], false, 0x0, [⟨31, 0, .wo⟩]⟩,
  ⟨0x00100450, [], false, 0x0, [⟨31, 16, .ro⟩, ⟨15, 0, .ro⟩]⟩ ] ++
 [
  ⟨0x00110000, [⟨0, 16384, 0x4⟩], false, 0x0, [⟨31, 0, .rw⟩]⟩,
  ⟨0x00100000, [], false, 0x12, [⟨23, 16, .ro⟩, ⟨10, 8, .ro⟩, ⟨7, 4, .ro⟩, ⟨3, 0, .ro⟩]⟩,
  ⟨0x00100004, [], false, 0x0, [⟨31, 31, .ro⟩, ⟨15, 8, .wo⟩, ⟨3, 0, .wo⟩]⟩,
  ⟨0x00100008, [], false, 0x0, [⟨16, 16, .w1c⟩, ⟨7, 0, .ro⟩]⟩,
  ⟨0x0010000C, [], false, 0x300, [⟨31, 31, .w1s⟩, ⟨11, 8, .rwl⟩, ⟨1, 0, .rwl⟩]⟩,
  ⟨0x00100010, [], false, 0x0, [⟨31, 31, .ro⟩, ⟨10, 0, .ro⟩]⟩,
  ⟨0x00100014, [], false, 0x0, [⟨31, 16, .ro⟩, ⟨10, 8, .ro⟩, ⟨2, 2, .w1c⟩, ⟨1, 1, .ro⟩, ⟨0, 0, .ro⟩]⟩,
  ⟨0x00100018, [], false, 0x0, [⟨31, 24, .ro⟩, ⟨17, 16, .ro⟩, ⟨4, 4, .ro⟩, ⟨3, 0, .ro⟩]⟩,
  ⟨0x0010001C, [], false, 0x0, [⟨20, 0, .ro⟩]⟩,
  ⟨0x00100020, [], false, 0x0, [⟨3, 0, .ro⟩]⟩,
  ⟨0x00100030, [], false, 0x190, [⟨15, 0, .rw⟩]⟩,
  ⟨0x00100034, [], false, 0x0, [⟨16, 16, .ro⟩, ⟨8, 0, .ro⟩]⟩,
  ⟨0x00100038, [], false, 0x0, [⟨31, 0, .ro⟩]⟩,
  ⟨0x00100040, [], false, 0x0, [⟨31, 31, .w1c⟩, ⟨13, 8, .ro⟩, ⟨5, 0, .ro⟩]⟩ ]

/-- The registers of unit id 0x02. -/
def regRowsHif : List RegRow :=
 [
  ⟨0x00200000, [], false, 0x0, [⟨31, 31, .ro⟩, ⟨27, 24, .ro⟩, ⟨19, 16, .ro⟩, ⟨5, 0, .ro⟩]⟩,
  ⟨0x00200004, [], false, 0x105, [⟨31, 31, .w1s⟩, ⟨8, 8, .rw⟩, ⟨3, 0, .rwl⟩]⟩,
  ⟨0x00200010, [], false, 0x0, [⟨31, 31, .ro⟩, ⟨21, 16, .wo⟩, ⟨3, 0, .wo⟩]⟩,
  ⟨0x00200014, [], false, 0x0, [⟨16, 16, .w1c⟩, ⟨7, 0, .ro⟩]⟩,
  ⟨0x00200018, [], false, 0xA, [⟨15, 0, .rw⟩]⟩,
  ⟨0x00200020, [], false, 0x20000058, [⟨31, 31, .ro⟩, ⟨30, 30, .ro⟩, ⟨29, 29, .ro⟩, ⟨22, 16, .ro⟩, ⟨6, 0, .ro⟩]⟩,
  ⟨0x00200100, [], true, 0x0, [⟨31, 28, .wo⟩, ⟨15, 0, .wo⟩]⟩,
  ⟨0x00200104, [], true, 0x10000, [⟨23, 16, .rw⟩, ⟨9, 0, .rw⟩]⟩,
  ⟨0x00200108, [], true, 0x10000000, [⟨30, 28, .ro⟩, ⟨17, 16, .wo⟩]⟩,
  ⟨0x00200140, [⟨0, 13, 0x10⟩], true, 0x0, [⟨31, 0, .rw⟩]⟩,
  ⟨0x00200144, [⟨0, 13, 0x10⟩], true, 0x0, [⟨31, 0, .rw⟩]⟩,
  ⟨0x00200148, [⟨0, 13, 0x10⟩], true, 0x4, [⟨31, 31, .rw⟩, ⟨4, 0, .rw⟩]⟩,
  ⟨0x0020014C, [⟨0, 13, 0x10⟩], true, 0x0, [⟨31, 16, .ro⟩, ⟨15, 0, .ro⟩]⟩,
  ⟨0x00200400, [⟨0, 8, 0x8⟩], false, 0x0, [⟨31, 0, .ro⟩]⟩,
  ⟨0x00200404, [⟨0, 8, 0x8⟩], false, 0x0, [⟨31, 0, .ro⟩]⟩,
  ⟨0x00201000, [⟨0, 64, 0x4⟩], false, 0x10000000, [⟨31, 31, .rw⟩, ⟨30, 28, .ro⟩, ⟨19, 0, .rw⟩]⟩ ]

/-- The registers of unit id 0x03. -/
def regRowsLnf : List RegRow :=
 [
  ⟨0x00300000, [], false, 0x0, [⟨31, 0, .ro⟩]⟩,
  ⟨0x00300004, [], false, 0x0, [⟨15, 0, .ro⟩]⟩,
  ⟨0x00300008, [], false, 0x0, [⟨31, 0, .ro⟩]⟩,
  ⟨0x0030000C, [], false, 0x0, [⟨15, 0, .ro⟩]⟩,
  ⟨0x00300010, [], false, 0x18, [⟨31, 31, .w1s⟩, ⟨4, 0, .rwl⟩]⟩,
  ⟨0x00300014, [], false, 0x0, [⟨8, 8, .rw⟩, ⟨3, 0, .rw⟩]⟩,
  ⟨0x00300020, [], false, 0x0, [⟨31, 16, .ro⟩, ⟨1, 1, .ro⟩, ⟨0, 0, .w1c⟩]⟩,
  ⟨0x00301000, [⟨0, 32, 0x40⟩], false, 0x0, [⟨9, 9, .rw⟩, ⟨8, 6, .rw⟩, ⟨5, 4, .rw⟩, ⟨0, 0, .rw⟩]⟩,
  ⟨0x00301004, [⟨0, 32, 0x40⟩], false, 0x0, [⟨31, 24, .ro⟩, ⟨10, 9, .ro⟩, ⟨8, 8, .ro⟩, ⟨7, 7, .ro⟩, ⟨6, 6, .ro⟩, ⟨5, 5, .ro⟩, ⟨3, 3, .w1c⟩, ⟨2, 2, .w1c⟩, ⟨1, 1, .w1c⟩, ⟨0, 0, .w1c⟩]⟩,
  ⟨0x00301008, [⟨0, 32, 0x40⟩], false, 0x0, [⟨31, 0, .rc⟩]⟩,
  ⟨0x0030100C, [⟨0, 32, 0x40⟩], false, 0x0, [⟨12, 0, .ro⟩]⟩,
  ⟨0x00301010, [⟨0, 32, 0x40⟩, ⟨0, 6, 0x4⟩], false, 0x0, [⟨31, 0, .ro⟩]⟩,
  ⟨0x00302000, [⟨0, 16, 0x80⟩], false, 0x48, [⟨6, 6, .rw⟩, ⟨5, 5, .rw⟩, ⟨4, 4, .rw⟩, ⟨3, 3, .rw⟩, ⟨2, 1, .rw⟩, ⟨0, 0, .rw⟩]⟩,
  ⟨0x00302004, [⟨0, 16, 0x80⟩], false, 0x0, [⟨31, 0, .rw⟩]⟩,
  ⟨0x00302008, [⟨0, 16, 0x80⟩], false, 0x0, [⟨31, 0, .rw⟩]⟩,
  ⟨0x0030200C, [⟨0, 16, 0x80⟩], false, 0x0, [⟨31, 0, .ro⟩]⟩,
  ⟨0x00302010, [⟨0, 16, 0x80⟩], false, 0x0, [⟨15, 8, .ro⟩, ⟨7, 7, .ro⟩, ⟨6, 6, .ro⟩, ⟨5, 5, .ro⟩, ⟨4, 4, .ro⟩, ⟨3, 3, .ro⟩, ⟨2, 2, .ro⟩, ⟨1, 1, .ro⟩, ⟨0, 0, .ro⟩]⟩,
  ⟨0x00302014, [⟨0, 16, 0x80⟩], false, 0x0, [⟨6, 1, .w1c⟩]⟩,
  ⟨0x00302018, [⟨0, 16, 0x80⟩], false, 0x0, [⟨31, 0, .ro⟩]⟩,
  ⟨0x0030201C, [⟨0, 16, 0x80⟩], false, 0x0, [⟨15, 0, .ro⟩]⟩,
  ⟨0x00302020, [⟨0, 16, 0x80⟩], false, 0x0, [⟨11, 0, .ro⟩]⟩,
  ⟨0x00302024, [⟨0, 16, 0x80⟩], false, 0x5302, [⟨31, 0, .rw⟩]⟩,
  ⟨0x00302028, [⟨0, 16, 0x80⟩], false, 0x84D, [⟨31, 0, .rw⟩]⟩,
  ⟨0x0030202C, [⟨0, 16, 0x80⟩], false, 0xA0040, [⟨23, 16, .rw⟩, ⟨15, 0, .rw⟩]⟩ ] ++
 [
  ⟨0x00302030, [⟨0, 16, 0x80⟩, ⟨0, 4, 0x4⟩], false, 0x0, [⟨31, 0, .ro⟩]⟩,
  ⟨0x00303000, [⟨0, 32, 0x40⟩], false, 0x24000, [⟨17, 4, .rw⟩, ⟨2, 1, .rw⟩, ⟨0, 0, .rw⟩]⟩,
  ⟨0x00303004, [⟨0, 32, 0x40⟩], false, 0x0, [⟨12, 8, .w1c⟩, ⟨4, 4, .ro⟩, ⟨3, 3, .ro⟩, ⟨2, 2, .ro⟩, ⟨1, 1, .ro⟩, ⟨0, 0, .ro⟩]⟩,
  ⟨0x00303010, [⟨0, 32, 0x40⟩, ⟨0, 6, 0x4⟩], false, 0x0, [⟨31, 0, .ro⟩]⟩ ]

/-- The registers of unit id 0x04. -/
def regRowsRix : List RegRow :=
 [
  ⟨0x00400000, [], false, 0x0, [⟨31, 31, .ro⟩, ⟨11, 8, .wo⟩, ⟨3, 0, .wo⟩]⟩,
  ⟨0x00400004, [], false, 0x0, [⟨16, 16, .w1c⟩, ⟨15, 8, .ro⟩, ⟨7, 0, .ro⟩]⟩,
  ⟨0x00400008, [], false, 0x0, [⟨31, 0, .ro⟩]⟩,
  ⟨0x0040000C, [], false, 0x0, [⟨15, 0, .ro⟩]⟩,
  ⟨0x00400100, [⟨0, 16, 0x4⟩], false, 0x0, [⟨23, 23, .ro⟩, ⟨19, 16, .ro⟩, ⟨15, 15, .ro⟩, ⟨14, 14, .ro⟩, ⟨11, 8, .ro⟩, ⟨7, 7, .ro⟩, ⟨6, 6, .ro⟩]⟩,
  ⟨0x00400140, [⟨0, 16, 0x4⟩], false, 0x0, [⟨31, 16, .ro⟩, ⟨15, 0, .ro⟩]⟩,
  ⟨0x00400180, [⟨0, 16, 0x4⟩], false, 0x0, [⟨31, 16, .ro⟩, ⟨15, 0, .ro⟩]⟩,
  ⟨0x00400200, [⟨0, 8, 0x20⟩], false, 0x3008, [⟨15, 12, .rw⟩, ⟨11, 8, .rw⟩, ⟨7, 4, .rw⟩, ⟨3, 3, .rw⟩, ⟨2, 2, .rw⟩, ⟨1, 1, .rw⟩, ⟨0, 0, .rw⟩]⟩,
  ⟨0x00400204, [⟨0, 8, 0x20⟩], false, 0x12C0000, [⟨31, 16, .rw⟩, ⟨15, 0, .rw⟩]⟩,
  ⟨0x00400208, [⟨0, 8, 0x20⟩], false, 0x0, [⟨3, 0, .wo⟩]⟩,
  ⟨0x0040020C, [⟨0, 8, 0x20⟩], false, 0x0, [⟨31, 28, .ro⟩, ⟨27, 24, .ro⟩, ⟨23, 20, .ro⟩, ⟨19, 19, .ro⟩, ⟨18, 18, .ro⟩, ⟨17, 17, .ro⟩, ⟨16, 16, .ro⟩, ⟨15, 15, .ro⟩, ⟨14, 14, .ro⟩, ⟨13, 13, .ro⟩, ⟨12, 12, .ro⟩, ⟨11, 9, .ro⟩, ⟨8, 8, .w1c⟩, ⟨3, 0, .ro⟩]⟩,
  ⟨0x00400210, [⟨0, 8, 0x20⟩], false, 0x0, [⟨23, 0, .ro⟩]⟩,
  ⟨0x00400214, [⟨0, 8, 0x20⟩], false, 0x0, [⟨31, 31, .ro⟩, ⟨15, 0, .ro⟩]⟩,
  ⟨0x00400218, [⟨0, 8, 0x20⟩], false, 0x0, [⟨31, 0, .ro⟩]⟩,
  ⟨0x00410000, [⟨0, 2, 0x800⟩, ⟨0, 512, 0x4⟩], false, 0x0, [⟨15, 0, .rw⟩]⟩,
  ⟨0x00420000, [⟨0, 2, 0x800⟩, ⟨0, 512, 0x4⟩], false, 0x0, [⟨15, 0, .rw⟩]⟩ ]

/-- The registers of unit id 0x05. -/
def regRowsCls : List RegRow :=
 [
  ⟨0x00500000, [], false, 0x6, [⟨31, 31, .w1s⟩, ⟨2, 2, .rw⟩, ⟨1, 1, .rw⟩]⟩,
  ⟨0x00500004, [], false, 0x0, [⟨31, 31, .ro⟩, ⟨30, 30, .ro⟩, ⟨18, 0, .ro⟩]⟩,
  ⟨0x00500008, [], false, 0xFFFFFFFF, [⟨31, 0, .rw⟩]⟩,
  ⟨0x0050000C, [], false, 0xFFFFFFFF, [⟨31, 0, .rw⟩]⟩,
  ⟨0x00500010, [], false, 0x2, [⟨1, 0, .rwl⟩]⟩,
  ⟨0x00500014, [], false, 0x12C, [⟨15, 0, .rw⟩]⟩,
  ⟨0x00500018, [], false, 0x0, [⟨31, 16, .ro⟩, ⟨15, 0, .ro⟩]⟩,
  ⟨0x0050001C, [], false, 0x0, [⟨12, 0, .ro⟩]⟩,
  ⟨0x00500100, [], true, 0x0, [⟨31, 31, .ro⟩, ⟨23, 23, .wo⟩, ⟨22, 22, .wo⟩, ⟨21, 21, .wo⟩, ⟨11, 8, .wo⟩, ⟨3, 0, .wo⟩]⟩,
  ⟨0x00500104, [], true, 0x0, [⟨16, 16, .w1c⟩, ⟨11, 8, .ro⟩, ⟨7, 0, .ro⟩]⟩,
  ⟨0x00500108, [], true, 0x0, [⟨17, 0, .rw⟩]⟩,
  ⟨0x0050010C, [], true, 0x0, [⟨31, 31, .rw⟩, ⟨29, 28, .rw⟩, ⟨27, 27, .rw⟩, ⟨26, 26, .rw⟩, ⟨25, 25, .rw⟩, ⟨24, 24, .rw⟩, ⟨19, 16, .rw⟩, ⟨15, 0, .rw⟩]⟩,
  ⟨0x00500120, [⟨0, 8, 0x4⟩], true, 0x0, [⟨31, 0, .rw⟩]⟩,
  ⟨0x00500200, [⟨0, 16, 0x10⟩], false, 0x0, [⟨31, 26, .rw⟩, ⟨23, 12, .rw⟩, ⟨11, 8, .rw⟩, ⟨7, 6, .rw⟩, ⟨5, 5, .rw⟩, ⟨4, 4, .rw⟩, ⟨3, 2, .rw⟩, ⟨1, 1, .rw⟩]⟩,
  ⟨0x00500204, [⟨0, 16, 0x10⟩], false, 0x0, [⟨31, 31, .rw⟩, ⟨23, 16, .rw⟩, ⟨15, 0, .rw⟩]⟩,
  ⟨0x00500208, [⟨0, 16, 0x10⟩], false, 0x40000, [⟨18, 0, .rw⟩]⟩,
  ⟨0x0050020C, [⟨0, 16, 0x10⟩], false, 0x0, [⟨31, 31, .ro⟩, ⟨18, 0, .ro⟩]⟩,
  ⟨0x00500400, [⟨0, 16, 0x4⟩], false, 0x0, [⟨31, 16, .rw⟩, ⟨6, 6, .rw⟩, ⟨5, 5, .rw⟩, ⟨4, 4, .rw⟩, ⟨3, 0, .rw⟩]⟩,
  ⟨0x00500440, [], false, 0x9100, [⟨15, 0, .rw⟩]⟩,
  ⟨0x00500500, [], false, 0x0, [⟨31, 31, .ro⟩, ⟨0, 0, .rw⟩]⟩,
  ⟨0x00500600, [⟨0, 16, 0x8⟩], false, 0x0, [⟨31, 0, .ro⟩]⟩,
  ⟨0x00500604, [⟨0, 16, 0x8⟩], false, 0x0, [⟨31, 0, .ro⟩]⟩,
  ⟨0x00501000, [⟨0, 256, 0x40⟩, ⟨0, 16, 0x4⟩], false, 0x0, [⟨31, 31, .rw⟩, ⟨15, 0, .rw⟩]⟩,
  ⟨0x00508000, [⟨0, 256, 0x8⟩], false, 0x0, [⟨31, 0, .ro⟩]⟩ ] ++
 [
  ⟨0x00508004, [⟨0, 256, 0x8⟩], false, 0x0, [⟨31, 0, .ro⟩]⟩ ]

/-- The registers of unit id 0x06. -/
def regRowsSch : List RegRow :=
 [
  ⟨0x00600004, [], false, 0x0, [⟨31, 31, .ro⟩, ⟨30, 30, .ro⟩, ⟨29, 29, .ro⟩]⟩,
  ⟨0x00600008, [], false, 0x0, [⟨18, 0, .ro⟩]⟩,
  ⟨0x0060000C, [], false, 0x0, [⟨18, 0, .ro⟩]⟩,
  ⟨0x00600010, [], false, 0x80100020, [⟨31, 31, .rw⟩, ⟨25, 16, .rw⟩, ⟨9, 0, .rw⟩]⟩,
  ⟨0x00600014, [], false, 0x0, [⟨27, 0, .ro⟩]⟩,
  ⟨0x00600020, [], true, 0x0, [⟨31, 31, .ro⟩, ⟨5, 4, .wo⟩, ⟨1, 0, .wo⟩]⟩,
  ⟨0x00600024, [], true, 0x0, [⟨16, 16, .w1c⟩, ⟨7, 0, .ro⟩]⟩,
  ⟨0x00600028, [], true, 0x0, [⟨20, 0, .rw⟩]⟩,
  ⟨0x00600030, [⟨0, 4, 0x4⟩], true, 0x0, [⟨31, 0, .rw⟩]⟩,
  ⟨0x00600100, [⟨0, 12, 0x8⟩], false, 0x0, [⟨31, 0, .ro⟩]⟩,
  ⟨0x00600104, [⟨0, 12, 0x8⟩], false, 0x0, [⟨31, 0, .ro⟩]⟩,
  ⟨0x00601000, [⟨0, 544, 0x20⟩], false, 0x140300, [⟨31, 31, .rw⟩, ⟨23, 16, .rw⟩, ⟨10, 8, .rw⟩]⟩,
  ⟨0x00601004, [⟨0, 544, 0x20⟩], false, 0x0, [⟨31, 0, .rw⟩]⟩,
  ⟨0x00601008, [⟨0, 544, 0x20⟩], false, 0x2800, [⟨23, 0, .rw⟩]⟩,
  ⟨0x0060100C, [⟨0, 544, 0x20⟩], false, 0xFF0000, [⟨31, 31, .rw⟩, ⟨30, 30, .ro⟩, ⟨29, 29, .ro⟩, ⟨28, 28, .wo⟩, ⟨27, 24, .rw⟩, ⟨23, 16, .rw⟩, ⟨10, 0, .rw⟩]⟩,
  ⟨0x00601010, [⟨0, 544, 0x20⟩], false, 0x0, [⟨31, 0, .rw⟩]⟩,
  ⟨0x00601014, [⟨0, 544, 0x20⟩], false, 0x0, [⟨31, 0, .rw⟩]⟩,
  ⟨0x00601018, [⟨0, 544, 0x20⟩], false, 0xF4240, [⟨29, 0, .rw⟩]⟩,
  ⟨0x0060101C, [⟨0, 544, 0x20⟩], false, 0xFF0000, [⟨31, 31, .ro⟩, ⟨30, 30, .w1c⟩, ⟨23, 16, .ro⟩, ⟨10, 0, .ro⟩]⟩,
  ⟨0x00610000, [⟨0, 4352, 0x20⟩], false, 0x40010001, [⟨31, 31, .rw⟩, ⟨30, 30, .rw⟩, ⟨29, 29, .rw⟩, ⟨25, 16, .rw⟩, ⟨9, 0, .rw⟩]⟩,
  ⟨0x00610004, [⟨0, 4352, 0x20⟩], false, 0x0, [⟨31, 0, .rw⟩]⟩,
  ⟨0x00610008, [⟨0, 4352, 0x20⟩], false, 0x2800, [⟨23, 0, .rw⟩]⟩,
  ⟨0x0061000C, [⟨0, 4352, 0x20⟩], false, 0xA000000, [⟨31, 24, .rw⟩, ⟨23, 0, .rw⟩]⟩,
  ⟨0x00610010, [⟨0, 4352, 0x20⟩], false, 0x0, [⟨15, 0, .rw⟩]⟩ ] ++
 [
  ⟨0x00610014, [⟨0, 4352, 0x20⟩], false, 0x0, [⟨27, 0, .ro⟩]⟩ ]

/-- The registers of unit id 0x07. -/
def regRowsMgd : List RegRow :=
 [
  ⟨0x00700000, [], false, 0x0, [⟨31, 31, .ro⟩, ⟨30, 30, .ro⟩, ⟨29, 29, .ro⟩, ⟨28, 28, .ro⟩, ⟨27, 27, .ro⟩, ⟨4, 0, .ro⟩]⟩,
  ⟨0x00700004, [], false, 0x0, [⟨31, 16, .ro⟩, ⟨15, 0, .ro⟩]⟩,
  ⟨0x00700008, [], false, 0x401, [⟨31, 31, .w1s⟩, ⟨15, 8, .rwl⟩, ⟨0, 0, .rw⟩]⟩,
  ⟨0x0070000C, [], false, 0x80000018, [⟨31, 31, .rw⟩, ⟨7, 0, .rw⟩]⟩,
  ⟨0x00700010, [], false, 0x0, [⟨31, 16, .ro⟩, ⟨6, 0, .ro⟩]⟩,
  ⟨0x00700020, [], false, 0x0, [⟨31, 31, .ro⟩, ⟨5, 0, .wo⟩]⟩,
  ⟨0x00700024, [], false, 0x0, [⟨16, 16, .w1c⟩, ⟨15, 8, .ro⟩, ⟨7, 0, .ro⟩]⟩,
  ⟨0x00700030, [], false, 0x0, [⟨31, 0, .ro⟩]⟩,
  ⟨0x00700034, [], false, 0x0, [⟨31, 0, .ro⟩]⟩,
  ⟨0x00700038, [], false, 0x0, [⟨23, 16, .ro⟩, ⟨10, 8, .ro⟩, ⟨0, 0, .w1c⟩]⟩,
  ⟨0x00700100, [⟨0, 15, 0x8⟩], false, 0x0, [⟨31, 0, .ro⟩]⟩,
  ⟨0x00700104, [⟨0, 15, 0x8⟩], false, 0x0, [⟨31, 0, .ro⟩]⟩,
  ⟨0x00701000, [⟨0, 80, 0x10⟩], false, 0x0, [⟨21, 16, .rw⟩, ⟨4, 4, .ro⟩, ⟨1, 0, .ro⟩]⟩,
  ⟨0x00702000, [⟨0, 64, 0x4⟩], false, 0x0, [⟨31, 16, .rw⟩, ⟨15, 0, .rw⟩]⟩,
  ⟨0x00703000, [⟨0, 16, 0x10⟩], false, 0x0, [⟨31, 16, .ro⟩, ⟨15, 0, .ro⟩]⟩,
  ⟨0x00703004, [⟨0, 16, 0x10⟩], false, 0x0, [⟨17, 17, .ro⟩, ⟨16, 16, .ro⟩, ⟨13, 8, .ro⟩, ⟨3, 0, .ro⟩]⟩,
  ⟨0x00703008, [⟨0, 16, 0x10⟩], false, 0x0, [⟨15, 0, .ro⟩]⟩ ]

/-- The registers of unit id 0x08. -/
def regRowsAsc : List RegRow :=
 [
  ⟨0x00800000, [], false, 0x0, [⟨31, 31, .ro⟩, ⟨13, 0, .ro⟩]⟩,
  ⟨0x00800004, [], false, 0x14, [⟨31, 31, .w1s⟩, ⟨4, 0, .rwl⟩]⟩,
  ⟨0x00800008, [], false, 0x0, [⟨16, 0, .ro⟩]⟩,
  ⟨0x0080000C, [], false, 0x0, [⟨14, 0, .ro⟩]⟩,
  ⟨0x00800100, [], true, 0x0, [⟨31, 31, .ro⟩, ⟨11, 8, .wo⟩, ⟨3, 0, .wo⟩]⟩,
  ⟨0x00800104, [], true, 0x0, [⟨16, 16, .w1c⟩, ⟨7, 0, .ro⟩]⟩,
  ⟨0x00800108, [], true, 0x0, [⟨15, 0, .rw⟩]⟩,
  ⟨0x00800200, [⟨0, 128, 0x4⟩], true, 0x0, [⟨31, 0, .rw⟩]⟩,
  ⟨0x00800400, [⟨0, 14, 0x8⟩], false, 0x0, [⟨31, 0, .ro⟩]⟩,
  ⟨0x00800404, [⟨0, 14, 0x8⟩], false, 0x0, [⟨31, 0, .ro⟩]⟩,
  ⟨0x00801000, [⟨16, 544, 0x4⟩], false, 0x0, [⟨31, 31, .rw⟩, ⟨30, 29, .rw⟩, ⟨28, 28, .rw⟩, ⟨27, 22, .rw⟩, ⟨19, 16, .rw⟩, ⟨15, 0, .rw⟩]⟩,
  ⟨0x00802000, [⟨0, 512, 0x4⟩], false, 0x0, [⟨31, 31, .rw⟩, ⟨15, 0, .rw⟩]⟩,
  ⟨0x00803000, [⟨0, 16, 0x4⟩], false, 0x0, [⟨31, 31, .ro⟩, ⟨24, 16, .ro⟩, ⟨7, 0, .ro⟩]⟩,
  ⟨0x00804000, [⟨16, 544, 0x4⟩], false, 0x0, [⟨5, 0, .rw⟩]⟩ ]

/-- The registers of unit id 0x09. -/
def regRowsCph : List RegRow :=
 [
  ⟨0x00900000, [], false, 0x0, [⟨31, 31, .ro⟩, ⟨30, 30, .ro⟩, ⟨29, 29, .ro⟩, ⟨6, 0, .ro⟩]⟩,
  ⟨0x00900004, [], false, 0x1400010, [⟨31, 31, .w1s⟩, ⟨24, 24, .rwl⟩, ⟨23, 16, .rwl⟩, ⟨7, 0, .rwl⟩]⟩,
  ⟨0x00900008, [], false, 0x0, [⟨31, 24, .ro⟩, ⟨23, 16, .ro⟩, ⟨15, 8, .ro⟩, ⟨7, 0, .ro⟩]⟩,
  ⟨0x0090000C, [], false, 0x0, [⟨23, 16, .ro⟩, ⟨15, 8, .ro⟩, ⟨7, 0, .ro⟩]⟩,
  ⟨0x00900010, [], false, 0x0, [⟨31, 31, .ro⟩, ⟨11, 8, .wo⟩, ⟨6, 0, .wo⟩]⟩,
  ⟨0x00900014, [], false, 0x0, [⟨16, 16, .w1c⟩, ⟨7, 0, .ro⟩]⟩,
  ⟨0x00900100, [⟨0, 14, 0x8⟩], false, 0x0, [⟨31, 0, .ro⟩]⟩,
  ⟨0x00900104, [⟨0, 14, 0x8⟩], false, 0x0, [⟨31, 0, .ro⟩]⟩,
  ⟨0x00900200, [], true, 0x0, [⟨30, 24, .ro⟩, ⟨23, 0, .ro⟩]⟩,
  ⟨0x00901000, [⟨0, 72, 0x4⟩], false, 0x7F0000, [⟨31, 29, .ro⟩, ⟨28, 26, .ro⟩, ⟨25, 23, .ro⟩, ⟨22, 16, .ro⟩, ⟨14, 12, .ro⟩, ⟨7, 0, .ro⟩]⟩,
  ⟨0x00902000, [⟨0, 64, 0x4⟩], false, 0x1, [⟨9, 0, .rw⟩]⟩ ]

/-- The registers of unit id 0x0A. -/
def regRowsKvt : List RegRow :=
 [
  ⟨0x00A00000, [], false, 0x0, [⟨31, 31, .ro⟩, ⟨30, 30, .ro⟩, ⟨29, 29, .ro⟩, ⟨28, 28, .ro⟩, ⟨27, 27, .ro⟩]⟩,
  ⟨0x00A00004, [], false, 0xA, [⟨31, 31, .w1s⟩, ⟨8, 8, .rwl⟩, ⟨7, 0, .rwl⟩]⟩,
  ⟨0x00A00008, [], false, 0x0, [⟨17, 0, .ro⟩]⟩,
  ⟨0x00A0000C, [], false, 0x0, [⟨8, 0, .ro⟩]⟩,
  ⟨0x00A00010, [], false, 0x0, [⟨31, 16, .ro⟩, ⟨14, 0, .ro⟩]⟩,
  ⟨0x00A00014, [], false, 0x0, [⟨31, 31, .ro⟩, ⟨15, 0, .ro⟩]⟩,
  ⟨0x00A00018, [], false, 0x0, [⟨20, 16, .ro⟩, ⟨13, 8, .ro⟩, ⟨7, 4, .ro⟩, ⟨3, 0, .ro⟩]⟩,
  ⟨0x00A0001C, [], false, 0x0, [⟨31, 0, .wo⟩]⟩,
  ⟨0x00A00100, [], true, 0x0, [⟨31, 31, .ro⟩, ⟨4, 0, .wo⟩]⟩,
  ⟨0x00A00104, [], true, 0x0, [⟨16, 16, .w1c⟩, ⟨7, 0, .ro⟩]⟩,
  ⟨0x00A00108, [], true, 0x0, [⟨31, 31, .rw⟩, ⟨16, 0, .rw⟩]⟩,
  ⟨0x00A0010C, [], true, 0x0, [⟨31, 0, .rw⟩]⟩,
  ⟨0x00A00110, [], true, 0x0, [⟨31, 0, .rw⟩]⟩,
  ⟨0x00A00114, [], true, 0x0, [⟨31, 0, .ro⟩]⟩,
  ⟨0x00A00118, [], true, 0x0, [⟨31, 0, .ro⟩]⟩,
  ⟨0x00A0011C, [], true, 0x0, [⟨31, 0, .ro⟩]⟩,
  ⟨0x00A00120, [], true, 0x0, [⟨15, 0, .ro⟩]⟩,
  ⟨0x00A00140, [⟨0, 12, 0x4⟩], true, 0x0, [⟨31, 0, .wo⟩]⟩,
  ⟨0x00A00400, [⟨0, 8, 0x8⟩], false, 0x0, [⟨31, 0, .ro⟩]⟩,
  ⟨0x00A00404, [⟨0, 8, 0x8⟩], false, 0x0, [⟨31, 0, .ro⟩]⟩,
  ⟨0x00A10000, [⟨0, 4096, 0x4⟩], false, 0x0, [⟨31, 0, .rw⟩]⟩ ]

/-- The registers of unit id 0x0B. -/
def regRowsYok : List RegRow :=
 [
  ⟨0x00B00000, [], false, 0x0, [⟨31, 31, .ro⟩, ⟨30, 30, .ro⟩, ⟨29, 29, .ro⟩, ⟨28, 28, .ro⟩, ⟨27, 27, .ro⟩, ⟨26, 26, .ro⟩, ⟨25, 25, .ro⟩, ⟨24, 24, .ro⟩, ⟨23, 20, .ro⟩, ⟨19, 16, .ro⟩]⟩,
  ⟨0x00B00004, [], false, 0x22B2710, [⟨31, 31, .w1s⟩, ⟨27, 24, .rwl⟩, ⟨23, 18, .rwl⟩, ⟨17, 17, .rwl⟩, ⟨16, 16, .rwl⟩, ⟨15, 0, .rwl⟩]⟩,
  ⟨0x00B00008, [], false, 0x7DBC, [⟨16, 0, .ro⟩]⟩,
  ⟨0x00B00010, [], false, 0x0, [⟨31, 31, .ro⟩, ⟨3, 0, .wo⟩]⟩,
  ⟨0x00B00014, [], false, 0x0, [⟨16, 16, .w1c⟩, ⟨7, 0, .ro⟩]⟩,
  ⟨0x00B00018, [], false, 0x0, [⟨31, 0, .wo⟩]⟩,
  ⟨0x00B00020, [], false, 0x0, [⟨31, 28, .ro⟩, ⟨15, 0, .ro⟩]⟩,
  ⟨0x00B00024, [], false, 0x0, [⟨31, 31, .ro⟩, ⟨15, 0, .ro⟩]⟩,
  ⟨0x00B00028, [], false, 0x0, [⟨25, 16, .ro⟩, ⟨15, 8, .ro⟩, ⟨1, 1, .ro⟩, ⟨0, 0, .w1c⟩]⟩,
  ⟨0x00B00080, [⟨0, 12, 0x4⟩], false, 0x0, [⟨31, 0, .rwl⟩]⟩,
  ⟨0x00B00200, [⟨0, 12, 0x8⟩], false, 0x0, [⟨31, 0, .ro⟩]⟩,
  ⟨0x00B00204, [⟨0, 12, 0x8⟩], false, 0x0, [⟨31, 0, .ro⟩]⟩ ]

/-- The registers of unit id 0x0C. -/
def regRowsTim : List RegRow :=
 [
  ⟨0x00C00000, [], false, 0x0, [⟨31, 31, .ro⟩, ⟨15, 0, .ro⟩]⟩,
  ⟨0x00C00004, [], false, 0x40000000, [⟨31, 31, .w1s⟩, ⟨30, 30, .rw⟩, ⟨29, 29, .rw⟩, ⟨28, 28, .rw⟩, ⟨27, 27, .rw⟩, ⟨23, 20, .rw⟩, ⟨19, 16, .rwl⟩, ⟨15, 12, .rwl⟩, ⟨11, 8, .rw⟩]⟩,
  ⟨0x00C00008, [], false, 0x0, [⟨31, 16, .rw⟩, ⟨15, 0, .rw⟩]⟩,
  ⟨0x00C0000C, [], false, 0x6403E8, [⟨24, 16, .rw⟩, ⟨15, 0, .rw⟩]⟩,
  ⟨0x00C00010, [], false, 0x0, [⟨31, 0, .ro⟩]⟩,
  ⟨0x00C00014, [], false, 0x3E8, [⟨31, 0, .rw⟩]⟩,
  ⟨0x00C00018, [], false, 0xF80025, [⟨31, 31, .rw⟩, ⟨30, 30, .rw⟩, ⟨29, 29, .rw⟩, ⟨23, 16, .rw⟩, ⟨15, 0, .rw⟩]⟩,
  ⟨0x00C00020, [⟨0, 4, 0x4⟩], false, 0x0, [⟨31, 0, .ro⟩]⟩,
  ⟨0x00C00100, [⟨0, 16, 0x8⟩], false, 0xFFFFFFFF, [⟨31, 0, .ro⟩]⟩,
  ⟨0x00C00104, [⟨0, 16, 0x8⟩], false, 0x0, [⟨31, 0, .ro⟩]⟩,
  ⟨0x00C00200, [⟨0, 64, 0x4⟩], false, 0x0, [⟨3, 0, .rw⟩]⟩,
  ⟨0x00C00300, [⟨0, 8, 0x8⟩], false, 0x0, [⟨31, 0, .ro⟩]⟩,
  ⟨0x00C00304, [⟨0, 8, 0x8⟩], false, 0x0, [⟨31, 0, .ro⟩]⟩,
  ⟨0x00C01000, [⟨0, 16, 0x40⟩], true, 0x1900, [⟨31, 29, .ro⟩, ⟨28, 26, .ro⟩, ⟨25, 20, .ro⟩, ⟨19, 16, .rw⟩, ⟨15, 6, .rw⟩]⟩,
  ⟨0x00C01004, [⟨0, 16, 0x40⟩], true, 0x0, [⟨31, 0, .rw⟩]⟩,
  ⟨0x00C01008, [⟨0, 16, 0x40⟩, ⟨0, 4, 0x4⟩], true, 0x0, [⟨31, 0, .ro⟩]⟩,
  ⟨0x00C01018, [⟨0, 16, 0x40⟩], true, 0x0, [⟨31, 31, .ro⟩, ⟨2, 0, .wo⟩]⟩,
  ⟨0x00C0101C, [⟨0, 16, 0x40⟩, ⟨0, 4, 0x4⟩], true, 0x0, [⟨31, 0, .rw⟩]⟩,
  ⟨0x00C0102C, [⟨0, 16, 0x40⟩], true, 0x0, [⟨16, 16, .w1c⟩, ⟨7, 0, .ro⟩]⟩,
  ⟨0x00C01030, [⟨0, 16, 0x40⟩], true, 0x0, [⟨31, 0, .ro⟩]⟩ ]

/-- The registers of unit id 0x0D. -/
def regRowsHdg : List RegRow :=
 [
  ⟨0x00D00000, [], false, 0x0, [⟨31, 31, .ro⟩, ⟨30, 30, .ro⟩, ⟨29, 29, .ro⟩, ⟨28, 28, .ro⟩, ⟨27, 24, .ro⟩, ⟨23, 23, .ro⟩]⟩,
  ⟨0x00D00004, [], false, 0x0, [⟨31, 31, .w1s⟩]⟩,
  ⟨0x00D00008, [], false, 0x0, [⟨15, 0, .ro⟩]⟩,
  ⟨0x00D0000C, [], false, 0x0, [⟨31, 31, .ro⟩, ⟨27, 16, .ro⟩, ⟨11, 0, .ro⟩]⟩,
  ⟨0x00D00010, [], false, 0x0, [⟨31, 0, .ro⟩]⟩,
  ⟨0x00D00014, [], false, 0x0, [⟨15, 0, .ro⟩]⟩,
  ⟨0x00D00018, [], false, 0x0, [⟨31, 0, .ro⟩]⟩,
  ⟨0x00D0001C, [], false, 0x0, [⟨3, 0, .ro⟩]⟩,
  ⟨0x00D00020, [], false, 0x0, [⟨31, 31, .w1c⟩, ⟨7, 0, .ro⟩]⟩,
  ⟨0x00D00030, [], false, 0x0, [⟨31, 31, .ro⟩, ⟨30, 30, .ro⟩, ⟨29, 16, .ro⟩, ⟨12, 0, .ro⟩]⟩,
  ⟨0x00D00040, [⟨0, 8, 0x4⟩], false, 0x0, [⟨31, 0, .ro⟩]⟩,
  ⟨0x00D00060, [], false, 0x0, [⟨31, 31, .ro⟩, ⟨12, 0, .rw⟩]⟩,
  ⟨0x00D00080, [⟨0, 32, 0x4⟩], false, 0x0, [⟨31, 0, .ro⟩]⟩,
  ⟨0x00D00100, [⟨0, 16, 0x10⟩], false, 0x0, [⟨18, 16, .rwl⟩, ⟨15, 0, .rwl⟩]⟩,
  ⟨0x00D00104, [⟨0, 16, 0x10⟩], false, 0x0, [⟨31, 0, .rwl⟩]⟩,
  ⟨0x00D00108, [⟨0, 16, 0x10⟩], false, 0x0, [⟨31, 31, .ro⟩, ⟨30, 30, .ro⟩, ⟨29, 29, .w1c⟩, ⟨23, 16, .ro⟩, ⟨15, 0, .ro⟩]⟩,
  ⟨0x00D0010C, [⟨0, 16, 0x10⟩], false, 0x0, [⟨15, 0, .ro⟩]⟩ ]

/-- The registers of unit id 0x0E. -/
def regRowsLog : List RegRow :=
 [
  ⟨0x00E00000, [], false, 0x0, [⟨31, 31, .ro⟩, ⟨30, 30, .ro⟩, ⟨29, 16, .ro⟩, ⟨10, 0, .ro⟩]⟩,
  ⟨0x00E00004, [], false, 0x40000064, [⟨31, 31, .w1s⟩, ⟨30, 30, .rwl⟩, ⟨26, 24, .rwl⟩, ⟨15, 0, .rwl⟩]⟩,
  ⟨0x00E00008, [], false, 0x0, [⟨31, 31, .ro⟩, ⟨3, 0, .wo⟩]⟩,
  ⟨0x00E0000C, [], false, 0x0, [⟨31, 18, .ro⟩, ⟨16, 16, .w1c⟩, ⟨7, 0, .ro⟩]⟩,
  ⟨0x00E00010, [], false, 0x0, [⟨31, 0, .rw⟩]⟩,
  ⟨0x00E00014, [], false, 0x3E8, [⟨15, 0, .rw⟩]⟩,
  ⟨0x00E00018, [], false, 0x0, [⟨31, 0, .ro⟩]⟩,
  ⟨0x00E0001C, [], false, 0x0, [⟨31, 0, .ro⟩]⟩,
  ⟨0x00E00020, [], false, 0x0, [⟨31, 16, .rc⟩, ⟨15, 0, .rc⟩]⟩,
  ⟨0x00E00028, [], false, 0x0, [⟨31, 0, .rw⟩]⟩,
  ⟨0x00E0002C, [], false, 0x0, [⟨31, 0, .rw⟩]⟩,
  ⟨0x00E00040, [], false, 0x0, [⟨31, 31, .ro⟩, ⟨17, 0, .rw⟩]⟩,
  ⟨0x00E00080, [⟨0, 16, 0x4⟩], false, 0x0, [⟨31, 0, .ro⟩]⟩,
  ⟨0x00E00100, [], false, 0x0, [⟨31, 0, .wo⟩]⟩,
  ⟨0x00E00104, [], false, 0x0, [⟨31, 31, .ro⟩, ⟨16, 16, .ro⟩, ⟨15, 0, .ro⟩]⟩,
  ⟨0x00E10000, [⟨0, 16384, 0x4⟩], false, 0x0, [⟨31, 0, .rw⟩]⟩ ]

/-- The registers of unit id 0x0F. -/
def regRowsPmc : List RegRow :=
 [
  ⟨0x00F00004, [], false, 0x3E8, [⟨31, 31, .rw⟩, ⟨30, 30, .rw⟩, ⟨29, 29, .wo⟩, ⟨28, 28, .ro⟩, ⟨15, 0, .rw⟩]⟩,
  ⟨0x00F00010, [], false, 0x0, [⟨31, 0, .rw⟩]⟩,
  ⟨0x00F00014, [], false, 0x0, [⟨31, 0, .rw⟩]⟩,
  ⟨0x00F00018, [], false, 0x0, [⟨31, 31, .rw⟩, ⟨3, 0, .rw⟩]⟩,
  ⟨0x00F0001C, [], false, 0x0, [⟨31, 16, .ro⟩, ⟨15, 0, .rw⟩]⟩,
  ⟨0x00F00020, [], false, 0x10000000, [⟨31, 31, .rw⟩, ⟨28, 24, .rw⟩, ⟨11, 0, .rw⟩]⟩,
  ⟨0x00F00024, [], false, 0x0, [⟨31, 0, .ro⟩]⟩,
  ⟨0x00F00028, [], false, 0x0, [⟨31, 0, .rc⟩]⟩,
  ⟨0x00F00100, [⟨0, 16, 0x10⟩], false, 0x0, [⟨31, 0, .rw⟩]⟩,
  ⟨0x00F00104, [⟨0, 16, 0x10⟩], false, 0x0, [⟨31, 0, .rw⟩]⟩,
  ⟨0x00F00108, [⟨0, 16, 0x10⟩], false, 0x8, [⟨31, 31, .rw⟩, ⟨30, 30, .rw⟩, ⟨29, 29, .rw⟩, ⟨13, 8, .rw⟩, ⟨4, 0, .rw⟩]⟩,
  ⟨0x00F0010C, [⟨0, 16, 0x10⟩], false, 0x0, [⟨31, 16, .ro⟩, ⟨15, 0, .rw⟩]⟩,
  ⟨0x00F00200, [⟨0, 16, 0x4⟩], false, 0x0, [⟨31, 0, .rc⟩]⟩,
  ⟨0x00F01000, [⟨0, 256, 0x20⟩], false, 0x0, [⟨31, 30, .rw⟩, ⟨29, 24, .rw⟩, ⟨23, 20, .rw⟩, ⟨19, 16, .rw⟩, ⟨15, 8, .rw⟩, ⟨3, 3, .rw⟩, ⟨2, 2, .rw⟩, ⟨1, 1, .rw⟩, ⟨0, 0, .rw⟩]⟩,
  ⟨0x00F01004, [⟨0, 256, 0x20⟩], false, 0x0, [⟨31, 26, .rw⟩, ⟨25, 16, .rw⟩, ⟨9, 0, .rw⟩]⟩,
  ⟨0x00F01008, [⟨0, 256, 0x20⟩], false, 0x0, [⟨31, 0, .rw⟩]⟩,
  ⟨0x00F0100C, [⟨0, 256, 0x20⟩], false, 0x0, [⟨31, 0, .rw⟩]⟩,
  ⟨0x00F01010, [⟨0, 256, 0x20⟩], false, 0x0, [⟨31, 0, .ro⟩]⟩,
  ⟨0x00F01014, [⟨0, 256, 0x20⟩], false, 0x0, [⟨15, 0, .ro⟩]⟩,
  ⟨0x00F01018, [⟨0, 256, 0x20⟩], false, 0x0, [⟨31, 0, .ro⟩]⟩,
  ⟨0x00F0101C, [⟨0, 256, 0x20⟩], false, 0x0, [⟨15, 0, .ro⟩]⟩,
  ⟨0x00F10000, [⟨0, 4096, 0x8⟩], false, 0x0, [⟨31, 0, .ro⟩]⟩,
  ⟨0x00F10004, [⟨0, 4096, 0x8⟩], false, 0x0, [⟨15, 0, .ro⟩]⟩ ]

/-- The rows of the unit block that holds a Device Window offset (R5). -/
def regRowsOf (unit : Nat) : List RegRow :=
  match unit with
  | 0 => regRowsId
  | 1 => regRowsStw
  | 2 => regRowsHif
  | 3 => regRowsLnf
  | 4 => regRowsRix
  | 5 => regRowsCls
  | 6 => regRowsSch
  | 7 => regRowsMgd
  | 8 => regRowsAsc
  | 9 => regRowsCph
  | 10 => regRowsKvt
  | 11 => regRowsYok
  | 12 => regRowsTim
  | 13 => regRowsHdg
  | 14 => regRowsLog
  | 15 => regRowsPmc
  | _ => []

/-- The offset d from a row's base falls on an index of its dimensions. -/
def Dim.hits : List Dim → Nat → Bool
  | [], d => d == 0
  | x :: xs, d => decide (x.first ≤ d / x.stride) && decide (d / x.stride < x.stop) && Dim.hits xs (d % x.stride)

/-- The row names the register at this Device Window offset. -/
def RegRow.covers (r : RegRow) (off : Nat) : Bool := decide (r.base ≤ off) && Dim.hits r.dims (off - r.base)

/-- The register at a Device Window offset, if the spec defines one there (R6). -/
def regRowAt (off : Nat) : Option RegRow := (regRowsOf (off / 0x100000)).find? (·.covers off)

/-- The register of a unit block that holds the block's LOCK bit, bit 31 (R12). -/
def lockRegOf (unit : Nat) : Option Nat :=
  match unit with
  | 1 => some Reg.stwModeCfg
  | 2 => some Reg.hifLinkCfg
  | 3 => some Reg.lnfSheafCfg
  | 5 => some Reg.clsCtrl
  | 7 => some Reg.mgdTagCfg
  | 8 => some Reg.ascPnCfg
  | 9 => some Reg.cphCfg
  | 10 => some Reg.kvtPolicy
  | 11 => some Reg.yokCfg
  | 12 => some Reg.timCfg
  | 13 => some Reg.hdgCfg
  | 14 => some Reg.logCfg
  | _ => none

/-- MGD_QUEUE_CFG[q] at reset (R279): key index q in bits [21:16] for the allotment queues 0 to 63. -/
def mgdQueueReset (q : Nat) : Nat := if q < 64 then q * 0x10000 else 0

/-- Default LEVEL, COUNT and WINDOW_MS of the Hedge sensors 0 to 12 (R484). -/
def sensorDefaults : List (Nat × Nat × Nat) :=
  [(5, 2, 250), (5, 2, 250), (5, 1, 10), (5, 3, 100), (5, 3, 5000), (4, 3, 5000), (3, 4, 1000), (3, 4, 1000),
   (1, 2, 180000), (2, 2, 3000), (3, 1, 1000), (5, 1, 10), (5, 1, 1)]

/-- HDG_SENSOR_CFG and HDG_SENSOR_WIN at reset: the defaults of R484. -/
def sensorReset (off : Nat) : Nat :=
  let s := (off - Reg.hdgSensorCfg 0) / 16
  let d := sensorDefaults.getD s (0, 0, 0)
  if Reg.hdgSensorCfg 0 ≤ off ∧ s < 13 then
    if off = Reg.hdgSensorCfg s then d.1 * 65536 + d.2.1
    else if off = Reg.hdgSensorWin s then d.2.2
    else 0
  else 0

/-- The reset value of the register at an offset: the value of its heading, 0 where the spec defines no register (R6).
Headings that give a value per index are written out first: DIR_ENTRY, SCH_OUT_CFG, MGD_QUEUE_CFG (R279) and
HIF_ALLOT_CTRL (STATE 1 below the COUNT of the image; no image is loaded at reset, so allotment 0 alone is present,
DESIGN CHOICE of log entry 12). -/
def regReset (off : Nat) : Nat :=
  let u := off / 0x100000
  match u with
  | 0 =>
    if 0x40 ≤ off ∧ off < 0x80 ∧ off % 4 = 0 then ((off - 0x40) / 4) * 0x1000000 + 0x10001 else
    if off = 0x0 then 0x5AE13216 else
    if off = 0x4 then 0x100 else
    if 0x100 ≤ off ∧ off < 0x154 ∧ (off - 0x100) % 0x4 = 0 then 0x2 else
    0
  | 1 =>
    if off = 0x100828 then 0x2 else
    if off = 0x100400 then 0x3000 else
    if off = 0x10000C then 0x300 else
    if off = 0x100030 then 0x190 else
    0
  | 2 =>
    if off = 0x200004 then 0x105 else
    if off = 0x200018 then 0xA else
    if off = 0x200020 then 0x20000058 else
    if off = 0x200104 then 0x10000 else
    if off = 0x200108 then 0x10000000 else
    if 0x200148 ≤ off ∧ off < 0x200218 ∧ (off - 0x200148) % 0x10 = 0 then 0x4 else
    if off = Reg.hifAllotCtrl 0 then 0x10000000 else
    0
  | 13 => sensorReset off
  | 3 =>
    if off = 0x300010 then 0x18 else
    if 0x302000 ≤ off ∧ off < 0x302800 ∧ (off - 0x302000) % 0x80 = 0 then 0x48 else
    if 0x302024 ≤ off ∧ off < 0x302824 ∧ (off - 0x302024) % 0x80 = 0 then 0x5302 else
    if 0x302028 ≤ off ∧ off < 0x302828 ∧ (off - 0x302028) % 0x80 = 0 then 0x84D else
    if 0x30202C ≤ off ∧ off < 0x30282C ∧ (off - 0x30202C) % 0x80 = 0 then 0xA0040 else
    if 0x303000 ≤ off ∧ off < 0x303800 ∧ (off - 0x303000) % 0x40 = 0 then 0x24000 else
    0
  | 4 =>
    if 0x400200 ≤ off ∧ off < 0x400300 ∧ (off - 0x400200) % 0x20 = 0 then 0x3008 else
    if 0x400204 ≤ off ∧ off < 0x400304 ∧ (off - 0x400204) % 0x20 = 0 then 0x12C0000 else
    0
  | 5 =>
    if off = 0x500000 then 0x6 else
    if off = 0x500008 then 0xFFFFFFFF else
    if off = 0x50000C then 0xFFFFFFFF else
    if off = 0x500010 then 0x2 else
    if off = 0x500014 then 0x12C else
    if 0x500208 ≤ off ∧ off < 0x500308 ∧ (off - 0x500208) % 0x10 = 0 then 0x40000 else
    if off = 0x500440 then 0x9100 else
    0
  | 6 =>
    if off = 0x600010 then 0x80100020 else
    if 0x601000 ≤ off ∧ off < 0x601400 ∧ (off - 0x601000) % 0x20 = 0 then 0x140300 else
    if 0x601400 ≤ off ∧ off < 0x605400 ∧ (off - 0x601000) % 0x20 = 0 then 0x300 else
    if 0x601008 ≤ off ∧ off < 0x605408 ∧ (off - 0x601008) % 0x20 = 0 then 0x2800 else
    if 0x60100C ≤ off ∧ off < 0x60540C ∧ (off - 0x60100C) % 0x20 = 0 then 0xFF0000 else
    if 0x601018 ≤ off ∧ off < 0x605418 ∧ (off - 0x601018) % 0x20 = 0 then 0xF4240 else
    if 0x60101C ≤ off ∧ off < 0x60541C ∧ (off - 0x60101C) % 0x20 = 0 then 0xFF0000 else
    if 0x610000 ≤ off ∧ off < 0x632000 ∧ (off - 0x610000) % 0x20 = 0 then 0x40010001 else
    if 0x610008 ≤ off ∧ off < 0x632008 ∧ (off - 0x610008) % 0x20 = 0 then 0x2800 else
    if 0x61000C ≤ off ∧ off < 0x63200C ∧ (off - 0x61000C) % 0x20 = 0 then 0xA000000 else
    0
  | 7 =>
    if off = 0x700008 then 0x401 else
    if off = 0x70000C then 0x80000018 else
    if 0x701000 ≤ off ∧ off < 0x701400 ∧ (off - 0x701000) % 0x10 = 0 then mgdQueueReset ((off - 0x701000) / 0x10) else
    0
  | 8 =>
    if off = 0x800004 then 0x14 else
    0
  | 9 =>
    if off = 0x900004 then 0x1400010 else
    if 0x901000 ≤ off ∧ off < 0x901120 ∧ (off - 0x901000) % 0x4 = 0 then 0x7F0000 else
    if 0x902000 ≤ off ∧ off < 0x902100 ∧ (off - 0x902000) % 0x4 = 0 then 0x1 else
    0
  | 10 =>
    if off = 0xA00004 then 0xA else
    0
  | 11 =>
    if off = 0xB00004 then 0x22B2710 else
    if off = 0xB00008 then 0x7DBC else
    0
  | 12 =>
    if off = 0xC00004 then 0x40000000 else
    if off = 0xC0000C then 0x6403E8 else
    if off = 0xC00014 then 0x3E8 else
    if off = 0xC00018 then 0xF80025 else
    if 0xC00100 ≤ off ∧ off < 0xC00180 ∧ (off - 0xC00100) % 0x8 = 0 then 0xFFFFFFFF else
    if 0xC01000 ≤ off ∧ off < 0xC01400 ∧ (off - 0xC01000) % 0x40 = 0 then 0x1900 else
    0
  | 14 =>
    if off = 0xE00004 then 0x40000064 else
    if off = 0xE00014 then 0x3E8 else
    0
  | 15 =>
    if off = 0xF00004 then 0x3E8 else
    if off = 0xF00020 then 0x10000000 else
    if 0xF00108 ≤ off ∧ off < 0xF00208 ∧ (off - 0xF00108) % 0x10 = 0 then 0x8 else
    0
  | _ => 0

end Sys2Proof.Machine
end

