-- ==== Sys2Proof/Machine/Events.lean ====
section
/-! DEFINITION. The event codes of the chapters' event tables (R13) with their response levels (R106). Where a table
gives a level by a rule, the level here is the lower one and the raising operation sets the other. -/

namespace Sys2Proof.Machine

open Sys2Proof

/-- An event kind: its 16-bit code (R13) and its response level (R106). -/
structure EvKind where
  code : Nat
  level : Nat
  deriving DecidableEq, Repr

/-- CROSS_TIMEOUT: A crossing timed out under R24. Level: 3 if the stopped island hosts a unit of the minimal service set, otherwise 1. -/
def Ev.crossTimeout : EvKind := ⟨0x0001, 1⟩
/-- CELL_RESEND_EXHAUSTED: A cell failed 4 consecutive times under R27. -/
def Ev.cellResendExhausted : EvKind := ⟨0x0002, 3⟩
/-- BUS_CODE_FAIL: An integrity code failed under R29. Level: That of the Hedge bus-integrity sensor. -/
def Ev.busCodeFail : EvKind := ⟨0x0003, 0⟩
/-- FEED_LOST: A feed fell below the feed-lost threshold while the ORed input held. -/
def Ev.feedLost : EvKind := ⟨0x0140, 1⟩
/-- FEED_RESTORED: A lost feed rose above the feed-good threshold. -/
def Ev.feedRestored : EvKind := ⟨0x0141, 0⟩
/-- POWER_FAIL: The power-fail sequence started. -/
def Ev.powerFail : EvKind := ⟨0x0142, 3⟩
/-- INPUT_OVERVOLTAGE: The over-voltage shutdown acted under R44. -/
def Ev.inputOvervoltage : EvKind := ⟨0x0143, 3⟩
/-- HOLDUP_LOW_CAP: Bank capacitance measured below 4,500 µF. -/
def Ev.holdupLowCap : EvKind := ⟨0x0144, 2⟩
/-- LID_OVERTEMP: Lid above 75 °C. -/
def Ev.lidOvertemp : EvKind := ⟨0x0145, 1⟩
/-- DIE_OVERTEMP: Die above 110 °C. -/
def Ev.dieOvertemp : EvKind := ⟨0x0146, 3⟩
/-- BLEED_FAULT: A bleed path failed its self-check. -/
def Ev.bleedFault : EvKind := ⟨0x0147, 1⟩
/-- YOKE_ID_CHANGED: YOKE_ID changed after Power Rise. -/
def Ev.yokeIdChanged : EvKind := ⟨0x0148, 1⟩
/-- SVC_MUTE: SVC_MUTE_N began or ended a mute. -/
def Ev.svcMute : EvKind := ⟨0x0149, 0⟩
/-- IMAGE_CRC_FAIL: Header, table or section integrity failed. -/
def Ev.imageCrcFail : EvKind := ⟨0x0110, 0⟩
/-- IMAGE_NOT_PERMITTED: Life-cycle or stepping excludes the image. -/
def Ev.imageNotPermitted : EvKind := ⟨0x0111, 1⟩
/-- IMAGE_ROLLBACK: ROLLBACK is below the floor. -/
def Ev.imageRollback : EvKind := ⟨0x0112, 1⟩
/-- IMAGE_SIG_FAIL: Authority or signature check failed. -/
def Ev.imageSigFail : EvKind := ⟨0x0113, 1⟩
/-- IMAGE_SECTION_INVALID: A section constraint failed at B7. -/
def Ev.imageSectionInvalid : EvKind := ⟨0x0114, 1⟩
/-- IMAGE_TRIAL_EXPIRED: The trial count was reached. -/
def Ev.imageTrialExpired : EvKind := ⟨0x0115, 1⟩
/-- GOLDEN_BOOT: The golden image was loaded. -/
def Ev.goldenBoot : EvKind := ⟨0x0116, 1⟩
/-- NO_VALID_IMAGE: No candidate loaded. -/
def Ev.noValidImage : EvKind := ⟨0x0117, 3⟩
/-- NOR_META_LOST: Neither metadata copy was valid. -/
def Ev.norMetaLost : EvKind := ⟨0x0118, 1⟩
/-- NOR_SECTOR_RETIRED: A NOR sector was retired. -/
def Ev.norSectorRetired : EvKind := ⟨0x0119, 1⟩
/-- STRUCTURE_BOUND: A write was ignored under R63. -/
def Ev.structureBound : EvKind := ⟨0x011A, 0⟩
/-- IMAGE_CMD_REFUSED: A command was written while BUSY. -/
def Ev.imageCmdRefused : EvKind := ⟨0x011B, 0⟩
/-- FLOOR_RAISED: RAISE_FLOOR burned OTP. -/
def Ev.floorRaised : EvKind := ⟨0x011C, 0⟩
/-- AUTH_REVOKED: REVOKE_AUTH burned OTP. -/
def Ev.authRevoked : EvKind := ⟨0x011D, 0⟩
/-- IMAGE_CONFIRMED: A Trial slot became Good. -/
def Ev.imageConfirmed : EvKind := ⟨0x011E, 0⟩
/-- MODE_CHANGE: The mode changed; the record carries old and new codes. -/
def Ev.modeChange : EvKind := ⟨0x0100, 0⟩
/-- SERVICE_SET_LOST: A minimal service set part dropped. Level: 3 or 1, under R104. -/
def Ev.serviceSetLost : EvKind := ⟨0x0101, 1⟩
/-- RECOVERY_DONE: Recovery ended at V7. -/
def Ev.recoveryDone : EvKind := ⟨0x0102, 1⟩
/-- RECOVERY_ESCALATED: Recovery caused a module reset. -/
def Ev.recoveryEscalated : EvKind := ⟨0x0103, 1⟩
/-- RECOVERY_STUCK: R115 applied. -/
def Ev.recoveryStuck : EvKind := ⟨0x0104, 3⟩
/-- MODULE_RESET: A module reset occurred; the record carries CAUSE. -/
def Ev.moduleReset : EvKind := ⟨0x0105, 1⟩
/-- KEYS_ERASED: A level 4 action ran. -/
def Ev.keysErased : EvKind := ⟨0x0106, 0⟩
/-- SELFTEST_FAIL: A Self-Test test failed. -/
def Ev.selftestFail : EvKind := ⟨0x0107, 2⟩
/-- STEWARD_WATCHDOG: R127 applied. -/
def Ev.stewardWatchdog : EvKind := ⟨0x0108, 3⟩
/-- MODE_CMD_REFUSED: A mode command was refused. -/
def Ev.modeCmdRefused : EvKind := ⟨0x0109, 0⟩
/-- STORE_DEFERRED: A store failed the energy check. -/
def Ev.storeDeferred : EvKind := ⟨0x0120, 0⟩
/-- STORE_QUEUE_FULL: A store request was refused under R124. -/
def Ev.storeQueueFull : EvKind := ⟨0x0121, 2⟩
/-- STORE_VERIFY_FAIL: An MRAM store failed read-back; the requester keeps its prior state. -/
def Ev.storeVerifyFail : EvKind := ⟨0x0122, 2⟩
/-- PFAIL_SUMMARY: The last store of step 5. -/
def Ev.pfailSummary : EvKind := ⟨0x0123, 0⟩
/-- LOCK_WRITE_IGNORED: A write was ignored under R12; the record carries the Device Window offset. -/
def Ev.lockWriteIgnored : EvKind := ⟨0x0124, 0⟩
/-- LANE_LOS: LOS declared on a lane. -/
def Ev.laneLos : EvKind := ⟨0x0300, 1⟩
/-- LANE_LOL: LOL declared on a lane. -/
def Ev.laneLol : EvKind := ⟨0x0301, 1⟩
/-- LANE_LOA: LOA declared on a Glafold lane. -/
def Ev.laneLoa : EvKind := ⟨0x0302, 1⟩
/-- LANE_CLEAR: A lane defect cleared; the record names the defect. -/
def Ev.laneClear : EvKind := ⟨0x0303, 0⟩
/-- GROUP_SF: SF declared on a line group. -/
def Ev.groupSf : EvKind := ⟨0x0304, 1⟩
/-- GROUP_SF_CLEAR: SF cleared. -/
def Ev.groupSfClear : EvKind := ⟨0x0305, 0⟩
/-- GROUP_SD: SD declared or cleared; the record carries which. -/
def Ev.groupSd : EvKind := ⟨0x0306, 1⟩
/-- GROUP_LOGA: LOGA declared. -/
def Ev.groupLoga : EvKind := ⟨0x0307, 1⟩
/-- GROUP_TIM: TIM declared. -/
def Ev.groupTim : EvKind := ⟨0x0308, 1⟩
/-- GROUP_RDI: RDI_RX declared or cleared. -/
def Ev.groupRdi : EvKind := ⟨0x0309, 0⟩
/-- SHEAF_JUMP: Received sheaf numbering jumped under R164. -/
def Ev.sheafJump : EvKind := ⟨0x030A, 1⟩
/-- SHEAF_MARK_STALL: R153 applied. -/
def Ev.sheafMarkStall : EvKind := ⟨0x030B, 3⟩
/-- ETH_LINK_DOWN: An Ethernet port or group lost UP. -/
def Ev.ethLinkDown : EvKind := ⟨0x030C, 1⟩
/-- ETH_LINK_UP: An Ethernet port or group reached UP. -/
def Ev.ethLinkUp : EvKind := ⟨0x030D, 0⟩
/-- KEYIDX_MISMATCH: Rows of one tributary disagreed under R147. -/
def Ev.keyidxMismatch : EvKind := ⟨0x030E, 1⟩
/-- TRIB_DELINEATION_LOST: A tributary header error under R161. -/
def Ev.tribDelineationLost : EvKind := ⟨0x030F, 0⟩
/-- LANE_CTRL_REFUSED: A lane test write was ignored under R173. -/
def Ev.laneCtrlRefused : EvKind := ⟨0x0310, 0⟩
/-- PAGE_SWAP: A transmit swap took effect; the record carries group and sheaf. -/
def Ev.pageSwap : EvKind := ⟨0x0400, 0⟩
/-- RX_PAGE_SWAP: A receive swap took effect. -/
def Ev.rxPageSwap : EvKind := ⟨0x0401, 0⟩
/-- RX_SWAP_LATE: A receive swap was made under R185. -/
def Ev.rxSwapLate : EvKind := ⟨0x0402, 1⟩
/-- RX_MAP_MISMATCH: Standby CRC differed under R184, or MAP_MISMATCH was declared under R186. -/
def Ev.rxMapMismatch : EvKind := ⟨0x0403, 1⟩
/-- APS_SWITCH: A selector changed; the record carries the request in force. -/
def Ev.apsSwitch : EvKind := ⟨0x0404, 1⟩
/-- APS_CMD_REFUSED: A command was refused under R198. -/
def Ev.apsCmdRefused : EvKind := ⟨0x0405, 0⟩
/-- PAIR_CONFIG_MISMATCH: R194 mismatch declared. -/
def Ev.pairConfigMismatch : EvKind := ⟨0x0406, 1⟩
/-- APS_FAR_INVALID: An invalid APS set was received. -/
def Ev.apsFarInvalid : EvKind := ⟨0x0407, 1⟩
/-- PAIR_SKEW_EXCESS: Differential delay exceeded 19.68 µs. -/
def Ev.pairSkewExcess : EvKind := ⟨0x0408, 1⟩
/-- PAIR_REFUSED: ENABLE refused under R187. -/
def Ev.pairRefused : EvKind := ⟨0x0409, 0⟩
/-- RIX_WRITE_REFUSED: A write was ignored under R179 or R187. -/
def Ev.rixWriteRefused : EvKind := ⟨0x040A, 0⟩
/-- ALT_INSERT_FAIL: An insertion found no place and evicted nothing. -/
def Ev.altInsertFail : EvKind := ⟨0x0500, 0⟩
/-- ALT_EVICT: An entry was evicted under R220. -/
def Ev.altEvict : EvKind := ⟨0x0501, 0⟩
/-- LEARN_QUOTA_REACHED: A port's COUNT reached QUOTA. -/
def Ev.learnQuotaReached : EvKind := ⟨0x0502, 1⟩
/-- LEARN_QUEUE_FULL: A learn request was discarded under R231. -/
def Ev.learnQueueFull : EvKind := ⟨0x0503, 0⟩
/-- STATION_MOVE: A learned entry moved under R230. -/
def Ev.stationMove : EvKind := ⟨0x0504, 0⟩
/-- LEARN_CONFLICT: A probe met a STATIC entry with another association. -/
def Ev.learnConflict : EvKind := ⟨0x0505, 1⟩
/-- ALT_ECC_UNCORR: A double-bit error in an entry. Level: 1 or 3, under R242. -/
def Ev.altEccUncorr : EvKind := ⟨0x0506, 1⟩
/-- CLS_CMD_REFUSED: A seed write or command was refused. -/
def Ev.clsCmdRefused : EvKind := ⟨0x0507, 0⟩
/-- FLUSH_DONE: FLUSH_BY_PORT completed; the record carries port and count. -/
def Ev.flushDone : EvKind := ⟨0x0508, 0⟩
/-- DEFAULT_BYPASS: Bypass under R216 began. -/
def Ev.defaultBypass : EvKind := ⟨0x0509, 1⟩
/-- ALT_DUP_REMOVED: R241 removed a duplicate copy. -/
def Ev.altDupRemoved : EvKind := ⟨0x050A, 1⟩
/-- SPILL_START: Spill began in a direction; the record names it. -/
def Ev.spillStart : EvKind := ⟨0x0600, 0⟩
/-- SPILL_STOP: Spill ended in a direction. -/
def Ev.spillStop : EvKind := ⟨0x0601, 0⟩
/-- POOL_EXHAUSTED: A frame was dropped under R247 for lack of free cells. -/
def Ev.poolExhausted : EvKind := ⟨0x0602, 1⟩
/-- GATE_LIST_CHANGE: A change took effect at T_c; the record carries the output and list. -/
def Ev.gateListChange : EvKind := ⟨0x0603, 0⟩
/-- GATE_CHANGE_REFUSED: A CHANGE was refused under R265. -/
def Ev.gateChangeRefused : EvKind := ⟨0x0604, 0⟩
/-- GATE_OVERSIZE: R267 applied. -/
def Ev.gateOversize : EvKind := ⟨0x0605, 1⟩
/-- GATE_TIME_LOST: R268 applied FAIL_MASK. -/
def Ev.gateTimeLost : EvKind := ⟨0x0606, 1⟩
/-- LAUNCH_LATE: R270 applied. -/
def Ev.launchLate : EvKind := ⟨0x0607, 1⟩
/-- SCH_TBL_REFUSED: A table command completed with a CODE other than 0. -/
def Ev.schTblRefused : EvKind := ⟨0x0608, 0⟩
/-- MGD_INIT_DONE: R299 completed. -/
def Ev.mgdInitDone : EvKind := ⟨0x0700, 0⟩
/-- MGD_INIT_FAIL: A start-up check failed; Boot holds with reason 2. -/
def Ev.mgdInitFail : EvKind := ⟨0x0701, 3⟩
/-- HBM_LINK_FAIL: A transfer failed after 3 retries under R277. -/
def Ev.hbmLinkFail : EvKind := ⟨0x0702, 1⟩
/-- HBM_UNCORR: A read reported uncorrected ECC severity. -/
def Ev.hbmUncorr : EvKind := ⟨0x0703, 1⟩
/-- TAG_FAIL: A verification failed under R288; the record carries KIND and address. -/
def Ev.tagFail : EvKind := ⟨0x0704, 1⟩
/-- MGD_TAG_BURST: R289 applied. -/
def Ev.mgdTagBurst : EvKind := ⟨0x0705, 3⟩
/-- MGD_POISON_WRITE: A partial write met a line that did not verify. -/
def Ev.mgdPoisonWrite : EvKind := ⟨0x0706, 1⟩
/-- MGD_LATE_STOMP: A frame was stomped under R292, raised at most once per second. -/
def Ev.mgdLateStomp : EvKind := ⟨0x0707, 1⟩
/-- RETILL_DUE: R296 threshold reached; the record carries the key index. -/
def Ev.retillDue : EvKind := ⟨0x0708, 1⟩
/-- REGION_REFUSED: Writes to a domain are refused under R296. -/
def Ev.regionRefused : EvKind := ⟨0x0709, 2⟩
/-- RETILL_DONE: A re-till completed. -/
def Ev.retillDone : EvKind := ⟨0x070A, 0⟩
/-- HARROW_PASS: A harrow pass completed. -/
def Ev.harrowPass : EvKind := ⟨0x070B, 0⟩
/-- MGD_RANGE_REFUSED: A request fell outside its queue's domain. -/
def Ev.mgdRangeRefused : EvKind := ⟨0x070C, 1⟩
/-- WINDOW_INIT_DONE: An allotment window was re-initialised. -/
def Ev.windowInitDone : EvKind := ⟨0x070D, 0⟩
/-- CTX_POISON: R307 applied. -/
def Ev.ctxPoison : EvKind := ⟨0x0800, 1⟩
/-- ROTATION_REQUEST: A soft limit was reached under R336. -/
def Ev.rotationRequest : EvKind := ⟨0x0801, 1⟩
/-- PN_EXHAUSTED: R316 applied. -/
def Ev.pnExhausted : EvKind := ⟨0x0802, 1⟩
/-- PN_MARK_STALL: A transmit or receive SA met an undurable mark. -/
def Ev.pnMarkStall : EvKind := ⟨0x0803, 1⟩
/-- ROTATED: A transmit switch committed. -/
def Ev.rotated : EvKind := ⟨0x0804, 0⟩
/-- RX_PRIMARY_SWITCH: R337 applied. -/
def Ev.rxPrimarySwitch : EvKind := ⟨0x0805, 0⟩
/-- OLD_SLOT_RETIRED: OLD_HOLD_MS expired and the slot was erased. -/
def Ev.oldSlotRetired : EvKind := ⟨0x0806, 0⟩
/-- CLOAK_FLIP: A cloak flip took effect; the record carries tributary and sheaf. -/
def Ev.cloakFlip : EvKind := ⟨0x0807, 0⟩
/-- CLOAK_TAG_FAIL: R332 applied. -/
def Ev.cloakTagFail : EvKind := ⟨0x0808, 1⟩
/-- CLOAK_KEY_UNKNOWN: R331 applied. -/
def Ev.cloakKeyUnknown : EvKind := ⟨0x0809, 1⟩
/-- RX_ICV_FAIL: An ICV failed; the Ledger folds repeats. -/
def Ev.rxIcvFail : EvKind := ⟨0x080A, 0⟩
/-- RX_STOMP: A cut-through frame was stomped. -/
def Ev.rxStomp : EvKind := ⟨0x080B, 0⟩
/-- PUNT_OVERFLOW: An EAPOL frame was dropped under R315. -/
def Ev.puntOverflow : EvKind := ⟨0x080C, 0⟩
/-- PERSIST_REBUILT: R322 completed; the record carries the count. -/
def Ev.persistRebuilt : EvKind := ⟨0x080D, 0⟩
/-- ASC_CMD_REFUSED: A command completed with a CODE other than 0. -/
def Ev.ascCmdRefused : EvKind := ⟨0x080E, 0⟩
/-- CPH_MISMATCH: A compare failed; the record carries pair and whether the retry agreed. -/
def Ev.cphMismatch : EvKind := ⟨0x0900, 0⟩
/-- CPH_RETRY_FAIL: A retry failed under R347. -/
def Ev.cphRetryFail : EvKind := ⟨0x0901, 1⟩
/-- CPH_PAIR_RETIRED: A pair was retired; the record carries the cause. -/
def Ev.cphPairRetired : EvKind := ⟨0x0902, 1⟩
/-- CPH_SUBSTITUTED: A spare took a role under R354. -/
def Ev.cphSubstituted : EvKind := ⟨0x0903, 0⟩
/-- CPH_LOOKASIDE_LENT: A lookaside pair was lent under R354. -/
def Ev.cphLookasideLent : EvKind := ⟨0x0904, 1⟩
/-- CPH_CAPACITY_SHORT: R357 applied, or a role stayed short. -/
def Ev.cphCapacityShort : EvKind := ⟨0x0905, 1⟩
/-- CPH_MISMATCH_BURST: R350 applied. -/
def Ev.cphMismatchBurst : EvKind := ⟨0x0906, 3⟩
/-- CPH_KAT_FAIL: A pair failed a KAT. -/
def Ev.cphKatFail : EvKind := ⟨0x0907, 1⟩
/-- CPH_SPARES_EXHAUSTED: R354 step 3 applied. -/
def Ev.cphSparesExhausted : EvKind := ⟨0x0908, 1⟩
/-- CPH_FALLOW_SQUASH: R360 squashed an item. -/
def Ev.cphFallowSquash : EvKind := ⟨0x0909, 0⟩
/-- CPH_JOB_REFUSED: A job completed with BAD_DESCRIPTOR. -/
def Ev.cphJobRefused : EvKind := ⟨0x090A, 0⟩
/-- KVT_SLOT_CHECK_FAIL: R396 applied. Level: That of the Hedge bus-integrity sensor. -/
def Ev.kvtSlotCheckFail : EvKind := ⟨0x0A00, 0⟩
/-- KVT_UNSEAL_FAIL: A sealed record failed under R403. -/
def Ev.kvtUnsealFail : EvKind := ⟨0x0A01, 1⟩
/-- KVT_UNSEAL_DONE: R403 completed; the record carries the counts. -/
def Ev.kvtUnsealDone : EvKind := ⟨0x0A02, 0⟩
/-- KVT_USAGE_SOFT: A vault slot reached its soft limit. -/
def Ev.kvtUsageSoft : EvKind := ⟨0x0A03, 1⟩
/-- KVT_USAGE_HARD: A slot reached its hard limit. -/
def Ev.kvtUsageHard : EvKind := ⟨0x0A04, 1⟩
/-- RBG_HEALTH_FAIL: R383 applied. -/
def Ev.rbgHealthFail : EvKind := ⟨0x0A05, 2⟩
/-- PROV_SESSION: A session opened or closed; the record carries which. -/
def Ev.provSession : EvKind := ⟨0x0A06, 0⟩
/-- PROV_AUTH_FAIL: A response or token failed under R399 or R406. -/
def Ev.provAuthFail : EvKind := ⟨0x0A07, 1⟩
/-- KVT_IMPORT_FAIL: An unwrap or record tag failed. -/
def Ev.kvtImportFail : EvKind := ⟨0x0A08, 1⟩
/-- LIFECYCLE_CHANGE: R407 completed; the record carries old and new states. -/
def Ev.lifecycleChange : EvKind := ⟨0x0A09, 0⟩
/-- HOST_ZEROIZE: ZEROIZE_ALL was issued. -/
def Ev.hostZeroize : EvKind := ⟨0x0A0A, 5⟩
/-- RESEEDED: R408 completed. -/
def Ev.reseeded : EvKind := ⟨0x0A0B, 1⟩
/-- ANCHOR_CHANGED: An anchor slot was programmed or revoked. -/
def Ev.anchorChanged : EvKind := ⟨0x0A0C, 0⟩
/-- CERT_WRITTEN: CERT_WRITE completed. -/
def Ev.certWritten : EvKind := ⟨0x0A0D, 0⟩
/-- KVT_CMD_REFUSED: A command completed with a CODE other than 0. -/
def Ev.kvtCmdRefused : EvKind := ⟨0x0A0E, 0⟩
/-- YOKE_PAIRED: Pairing completed; the record carries the role. -/
def Ev.yokePaired : EvKind := ⟨0x0B00, 0⟩
/-- YOKE_PAIR_FAIL: R415 or R416 failed; the record carries PAIR_CODE. -/
def Ev.yokePairFail : EvKind := ⟨0x0B01, 1⟩
/-- DITHAL_DOWN: The link went down under R418 or R420. -/
def Ev.dithalDown : EvKind := ⟨0x0B02, 1⟩
/-- DITHAL_UP: The link came up. -/
def Ev.dithalUp : EvKind := ⟨0x0B03, 0⟩
/-- YOKE_LOCK_LOST: The follower lost frequency lock. -/
def Ev.yokeLockLost : EvKind := ⟨0x0B04, 1⟩
/-- YOKE_LEAD_SILENT: R447 applied. -/
def Ev.yokeLeadSilent : EvKind := ⟨0x0B05, 1⟩
/-- YOKE_TWIN_LOST: The lead lost its follower. -/
def Ev.yokeTwinLost : EvKind := ⟨0x0B06, 1⟩
/-- YOKE_PROMOTED: This module became lead by T10. -/
def Ev.yokePromoted : EvKind := ⟨0x0B07, 1⟩
/-- YOKE_HANDOVER: R448 completed. -/
def Ev.yokeHandover : EvKind := ⟨0x0B08, 0⟩
/-- YOKE_DIVERGED: The follower was muted under R444. -/
def Ev.yokeDiverged : EvKind := ⟨0x0B09, 1⟩
/-- YOKE_LEAD_DIVERGED: The lead was muted under R444. -/
def Ev.yokeLeadDiverged : EvKind := ⟨0x0B0A, 3⟩
/-- YOKE_STREAM_LATE: A class 3 divergence. -/
def Ev.yokeStreamLate : EvKind := ⟨0x0B0B, 1⟩
/-- YOKE_RESYNC_START: Step Y1 began. -/
def Ev.yokeResyncStart : EvKind := ⟨0x0B0C, 0⟩
/-- YOKE_RESYNC_DONE: Step Y7 completed. -/
def Ev.yokeResyncDone : EvKind := ⟨0x0B0D, 0⟩
/-- YOKE_RESYNC_FAIL: RESYNC_S expired. -/
def Ev.yokeResyncFail : EvKind := ⟨0x0B0E, 1⟩
/-- YOKE_WRITE_REFUSED: A write was ignored under R430 or YOK_CFG. -/
def Ev.yokeWriteRefused : EvKind := ⟨0x0B0F, 0⟩
/-- YOKE_PHANTOM: A phantom was accounted; the Ledger folds repeats. -/
def Ev.yokePhantom : EvKind := ⟨0x0B10, 0⟩
/-- YOKE_STALE: Boot found STALE set under R440. -/
def Ev.yokeStale : EvKind := ⟨0x0B11, 1⟩
/-- TIME_SET: A channel was SET or STOPPED; the record carries the channel. -/
def Ev.timeSet : EvKind := ⟨0x0C00, 0⟩
/-- TIME_STEP: R461 or R462 stepped a carry clock by more than 1 µs. -/
def Ev.timeStep : EvKind := ⟨0x0C01, 1⟩
/-- PPS_LOCKED: A channel entered LOCKED. -/
def Ev.ppsLocked : EvKind := ⟨0x0C02, 0⟩
/-- PPS_HOLDOVER: A channel entered HOLDOVER. -/
def Ev.ppsHoldover : EvKind := ⟨0x0C03, 1⟩
/-- TOD_MISMATCH: R464 changed the seconds. -/
def Ev.todMismatch : EvKind := ⟨0x0C04, 1⟩
/-- TIM_WRITE_REFUSED: A write was ignored under R459 or a command was refused. -/
def Ev.timWriteRefused : EvKind := ⟨0x0C05, 0⟩
/-- HEDGE_ALARM: A sensor alarmed; the record carries sensor, fill and measured value. Level: LEVEL of the sensor. -/
def Ev.hedgeAlarm : EvKind := ⟨0x0D00, 0⟩
/-- ROOTS_ERASED: The clamp of R481 completed. -/
def Ev.rootsErased : EvKind := ⟨0x0D01, 0⟩
/-- UNLOGGED_TAMPER: B2 converted the latch of R496. -/
def Ev.unloggedTamper : EvKind := ⟨0x0D02, 1⟩
/-- ROOTS_LOST: R505 order 6 applied. -/
def Ev.rootsLost : EvKind := ⟨0x0D03, 1⟩
/-- CELL_NOTE: R505 order 2; the record carries sensor and count. -/
def Ev.cellNote : EvKind := ⟨0x0D04, 0⟩
/-- EVIDENCE_REPLAY: R505 order 3; the record carries SEQ. -/
def Ev.evidenceReplay : EvKind := ⟨0x0D05, 0⟩
/-- EVIDENCE_APPENDED: An evidence record was written; the record carries SEQ. -/
def Ev.evidenceAppended : EvKind := ⟨0x0D06, 0⟩
/-- EVIDENCE_FULL: R502 applied. -/
def Ev.evidenceFull : EvKind := ⟨0x0D07, 1⟩
/-- EVIDENCE_FAIL: An evidence write failed its read-back under R503. -/
def Ev.evidenceFail : EvKind := ⟨0x0D08, 1⟩
/-- HIF_LINK_UP: The link reached L0. -/
def Ev.hifLinkUp : EvKind := ⟨0x0200, 0⟩
/-- HIF_LINK_DOWN: The link left L0. -/
def Ev.hifLinkDown : EvKind := ⟨0x0201, 1⟩
/-- HIF_LINK_QUIESCE: R530 applied. -/
def Ev.hifLinkQuiesce : EvKind := ⟨0x0202, 1⟩
/-- ALLOT_RESET_DONE: R528 completed; the record carries allotment and CODE. -/
def Ev.allotResetDone : EvKind := ⟨0x0203, 0⟩
/-- ALLOT_FROZEN: FREEZE completed. -/
def Ev.allotFrozen : EvKind := ⟨0x0204, 0⟩
/-- ALLOT_THAWED: THAW completed. -/
def Ev.allotThawed : EvKind := ⟨0x0205, 0⟩
/-- MIG_SAVED: SAVE completed; the record carries the counts. -/
def Ev.migSaved : EvKind := ⟨0x0206, 0⟩
/-- MIG_RESTORED: RESTORE completed. -/
def Ev.migRestored : EvKind := ⟨0x0207, 0⟩
/-- RING_ERROR: R515 disabled a ring. -/
def Ev.ringError : EvKind := ⟨0x0208, 1⟩
/-- HIF_DMA_ERROR: R508 applied. -/
def Ev.hifDmaError : EvKind := ⟨0x0209, 1⟩
/-- EVENT_RING_OVERFLOW: R525 dropped an entry. -/
def Ev.eventRingOverflow : EvKind := ⟨0x020A, 0⟩
/-- PASID_REFUSED: R513 ignored a write. -/
def Ev.pasidRefused : EvKind := ⟨0x020B, 0⟩
/-- I3C_ADDR: A dynamic address was assigned or reset. -/
def Ev.i3cAddr : EvKind := ⟨0x020C, 0⟩
/-- I3C_REFUSED: R538 refused an access. -/
def Ev.i3cRefused : EvKind := ⟨0x020D, 0⟩
/-- DRAIN_TIMEOUT: R529 applied. -/
def Ev.drainTimeout : EvKind := ⟨0x020E, 1⟩
/-- LOG_FROZEN: FREEZE took effect. -/
def Ev.logFrozen : EvKind := ⟨0x0E00, 0⟩
/-- LOG_THAWED: A freeze ended; the record carries the cause, coded under R550, and STAGE_LOST. -/
def Ev.logThawed : EvKind := ⟨0x0E01, 0⟩
/-- LOG_STAGE_LOST: R551 applied. -/
def Ev.logStageLost : EvKind := ⟨0x0E02, 1⟩
/-- LOG_FULL: R548 discarded a record. -/
def Ev.logFull : EvKind := ⟨0x0E03, 1⟩
/-- LOG_UNHEALTHY: R553 applied. -/
def Ev.logUnhealthy : EvKind := ⟨0x0E04, 1⟩
/-- CAL_WRITTEN: CAL_WRITE stored a page; the record carries PROVENANCE and VERSION. -/
def Ev.calWritten : EvKind := ⟨0x0E05, 1⟩
/-- CAL_INVALID: R566 applied. -/
def Ev.calInvalid : EvKind := ⟨0x0E06, 1⟩
/-- DUMP_DROPPED: R558 discarded a dump. -/
def Ev.dumpDropped : EvKind := ⟨0x0F00, 0⟩
/-- STREAM_DROPPED: R563 discarded a record; the Ledger folds repeats. -/
def Ev.streamDropped : EvKind := ⟨0x0F01, 0⟩

/-- The events whose table says that the record carries or names something: only these have parameters, every other
event has PLEN 0 (R569, DEDUCED). -/
def Ev.carrying : List Nat :=
  [0x0100, 0x0105, 0x0124, 0x0203, 0x0206, 0x0303, 0x0306, 0x0400, 0x0404, 0x0508, 0x0600, 0x0603, 0x0704, 0x0708,
    0x0807, 0x080D, 0x0900, 0x0902, 0x0A02, 0x0A06, 0x0A09, 0x0B00, 0x0B01, 0x0C00, 0x0D00, 0x0D04, 0x0D05, 0x0D06,
    0x0E01, 0x0E05]

/-- The same event at another response level. -/
def EvKind.atLevel (k : EvKind) (l : Nat) : EvKind := ⟨k.code, l⟩

end Sys2Proof.Machine
end

