-- ==== Sys2Proof/Machine/StateControl.lean ====
section
/-! DEFINITION. The parts of State that chapters 01 to 04 and 14 to 17 give the machine: modes and recovery, power,
images and non-volatile memory, the Ledger, the Hedge, the host interface and the time channels. -/

namespace Sys2Proof.Machine

open Sys2Proof

/-! ## Modes (R96) and life-cycle states (R105) -/

/-- The twelve modes of R96. -/
inductive Mode where
  | sentry | powerRise | boot | calibrate | ready | service
  | yokeLead | yokeFollower | yokeResync | selfTest | recovery | zeroized
  deriving DecidableEq, Repr

/-- The six life-cycle states, coded as STW_MODE.LIFECYCLE. -/
inductive LifeCycle where
  | raw | manufacture | development | production | returned | scrapped
  deriving DecidableEq, Repr

/-- A mode command that is running (R576). -/
inductive ModeCmd where
  | goService | goYoke | stop | selfTest | unyoke | clearDegrade
  deriving DecidableEq, Repr

/-- Modes, alarm responses and Recovery (chapter 04). -/
structure Control where
  /-- STW_MODE.MODE (R96). -/
  mode : Mode
  /-- STW_MODE.PREV_MODE (R99). -/
  prevMode : Mode
  /-- STW_MODE.RECOVERIES, the recoveries begun (R111). -/
  recoveries : Nat
  /-- STW_RESPONSE.LAST_CODE, LAST_LEVEL, HALTED, DEGRADED. -/
  lastCode : Nat
  lastLevel : Nat
  halted : Bool
  degraded : Bool
  /-- Codes of the level 2 conditions that persist (R110). -/
  level2 : List Nat
  /-- Time in ns at which the actions of the latest response are complete (R575). -/
  responseEnds : Nat
  /-- The running mode command, its argument, and its start time in ns (R102, R576). -/
  cmd : Option ModeCmd
  /-- Start of the running mode command in ns (R576). -/
  cmdStart : Nat
  /-- Automatic attempts of R574 are running. -/
  autoOn : Bool
  /-- Intake of frames is open (T7, T14, V1). -/
  intake : Bool
  /-- Recovery: step V1 to V7 (0 idle), the mode before, stuck, last outcome, islands reset, islands still faulted,
  the cause is a condition (R113), a table failed its scan, service parts healthy before (R114). -/
  recStep : Nat
  modeBefore : Mode
  stuck : Bool
  outcome : Nat
  recIslands : List Nat
  recCondition : Bool
  partsBefore : Nat
  /-- The service set as last evaluated (R103, R104). -/
  parts : Nat
  /-- Escalations in the present 60 s window, in the store domain (R115). -/
  escalations : Nat
  /-- STW_RESET_CAUSE.CAUSE. -/
  resetCause : Nat
  /-- The Steward's watchdog interval has lapsed without service (R127). -/
  watchdogServed : Bool
  /-- Tests asked of the running Self-Test. -/
  selfTestMask : Nat
  deriving DecidableEq, Repr

/-! ## Power (chapter 02) -/

/-- The hold-up bank's state, coded as STW_HOLDUP_V.STATE. -/
inductive BankState where
  | empty | charging | full | holding | bleeding | fault
  deriving DecidableEq, Repr

/-- Supplies, hold-up bank, pins (chapter 02). -/
structure Power where
  /-- ORed input in mV as last presented (R42). -/
  inputMv : Nat
  /-- Feeds above feed-lost, A_OK and B_OK (R42). -/
  aOk : Bool
  bOk : Bool
  /-- Feeds that count as lost (R42, R52). -/
  aLost : Bool
  bLost : Bool
  /-- Power Rise is held off until 72 V or below (R44). -/
  overvoltHold : Bool
  /-- State of the hold-up bank, STW_HOLDUP_V.STATE (R49, R53). -/
  bank : BankState
  /-- Bank voltage in units of 10 mV (R49). -/
  bankV : Nat
  /-- Measured capacitance in µF, 0 until known (R48, R49). -/
  capUf : Nat
  /-- Available energy in mJ (R49). -/
  eAvail : Nat
  /-- The bleed paths pass their self-check (R53). -/
  bleedA : Bool
  bleedB : Bool
  /-- Power-fail sequence: 0 none, else the step 1 to 7 of R52; stores done and the start of step 5 in ns. -/
  pfStep : Nat
  pfDone : Nat
  pfStart : Nat
  /-- Power has returned (above turn-on) during the sequence. -/
  powerBack : Bool
  /-- Rails: converters on, data-path rails on. -/
  converters : Bool
  dataRails : Bool
  /-- The module's own oscillator is locked (R103). -/
  oscLocked : Bool
  /-- ALERT_N is asserted; a power-fail sequence asserts it from its step 1 (R58). -/
  alertN : Bool
  failAlert : Bool
  /-- SVC_MUTE_N mute in force (R57). -/
  svcMute : Bool
  /-- YOKE_ID as sampled (R59). -/
  yokePos : Bool
  /-- PERST# is high (R39). -/
  perstHigh : Bool
  /-- STW_BOOT_TIME.RISE_MS and BOOT_MS, as measured. -/
  riseMs : Nat
  bootMs : Nat
  /-- The ns at which the present Boot began. -/
  bootAt : Nat
  deriving DecidableEq, Repr

/-! ## Images and NOR (chapter 03) -/

/-- A NOR slot's state, coded as R80. -/
inductive SlotState where
  | empty | writing | written | trial | good | bad
  deriving DecidableEq, Repr

/-- The slot-state record in force (R80), with the header fields it carries. -/
structure SlotMeta where
  prefer : Nat
  stA : SlotState
  stB : SlotState
  stG : SlotState
  tries : Nat
  trialMax : Nat
  digA : Nat
  digB : Nat
  digG : Nat
  rbA : Nat
  rbB : Nat
  rbG : Nat
  seq : Nat
  deriving DecidableEq, Repr

/-- A plan authority slot of OTP (R78). -/
structure AuthSlot where
  hash : List Byte
  mask : Nat
  programmed : Bool
  revoked : Bool
  deriving DecidableEq, Repr

/-- An image command in progress (R89, R90, R92): a chunk of a slot, with 17 stores left while its erase is not durable and
then the programs left; an erase, with the sectors left; a copy of a slot to the golden slot, likewise by chunk; the two copies
of a metadata record, with the CODE and DETAIL that the command then ends with. -/
inductive ImageJob where
  | chunk (slot n left : Nat)
  | erase (slot : Nat) (left : List Nat)
  | copy (src n left : Nat)
  | metaStore (code detail : Nat)
  deriving DecidableEq, Repr

/-- One entry of CROSSBAR (R67). -/
structure XbarEntry where
  kind : Nat
  rate : Nat
  mask : Nat
  deriving DecidableEq, Repr

/-- One entry of HBM_REGIONS (R70). -/
structure HbmRegion where
  base : Nat
  sizeMib : Nat
  purpose : Nat
  keyIdx : Nat
  deriving DecidableEq, Repr

/-- One entry of HEDGE_FLOORS (R73). -/
structure FloorEntry where
  sensor : Nat
  minLevel : Nat
  maxCount : Nat
  minWindow : Nat
  deriving DecidableEq, Repr

/-- One entry of PRESET (R75). -/
structure PresetEntry where
  offset : Nat
  mask : Word
  value : Word
  deriving DecidableEq, Repr

/-- What the loaded image fixes (R62): header fields and sections. -/
structure Structure where
  rollback : Nat
  buildId : Nat
  expanse : Bool
  golden : Bool
  yokeClass : Nat
  digest : List Byte
  authSlot : Nat
  xbar : List XbarEntry
  cipherSplit : List Nat
  cellsEnc : Nat
  cellsDec : Nat
  ctxCache : Nat
  regions : List HbmRegion
  allotCount : Nat
  rings : Nat
  timeMap : List (Nat × Nat)
  floors : List FloorEntry
  unitEnable : Nat
  presets : List PresetEntry
  deriving DecidableEq, Repr

/-- Image loading and OTP (chapter 03). -/
structure Boot where
  /-- STW_BOOT_STATUS: PHASE, HOLD_REASON, BOOTED, CANDIDATES. -/
  phase : Nat
  hold : Nat
  booted : Nat
  tried : Nat
  /-- Candidates left of R82, in order, and whether metadata was lost (R83). -/
  cands : List Nat
  metaLost : Bool
  /-- The loaded image, if one has been applied. -/
  image : Option Structure
  /-- The metadata record in force; none where no valid record is (R80). -/
  slotMeta : Option SlotMeta
  /-- Content words of the three slots, keyed slot × 0x100_0000 + sector × 0x4000 + word (R90). -/
  nor : SMap Word
  /-- Retired sectors: device and sector (R81). -/
  retired : List (Nat × Nat)
  /-- SEQ of the next metadata record (R80). -/
  metaSeq : Nat
  /-- The metadata log: 64-byte records keyed copy × 2^18 + sector × 1,024 + index (R80). -/
  metaRecs : SMap (List Byte)
  /-- Erase counts of its sectors, keyed copy × 256 + sector (R81). -/
  metaWear : SMap Nat
  /-- Sector and index of each copy's next record (R81). -/
  metaPos : List (Nat × Nat)
  /-- A record of TRIES is still to be requested (R82). -/
  metaDue : Bool
  /-- OTP: plan authorities (R78). -/
  auth : List AuthSlot
  /-- OTP: rollback floor (R78). -/
  floor : Nat
  /-- OTP: life-cycle state (R405). -/
  otpLife : LifeCycle
  /-- The image command that runs (R89, R90). -/
  job : Option ImageJob
  deriving DecidableEq, Repr

/-! ## The Ledger (chapter 17) -/

/-- An event record of R542. -/
structure EvRec where
  code : Nat
  level : Nat
  seq : Nat
  timeS : Nat
  timeNs : Nat
  valid : Bool
  rep : Nat
  spanUs : Nat
  allot : Nat
  mode : Nat
  params : List Byte
  deriving DecidableEq, Repr

/-- An open fold record (R544): the ns of its first occurrence, whether it is to be stored (R546), the record. -/
structure OpenRec where
  first : Nat
  keep : Bool
  rcd : EvRec
  deriving DecidableEq, Repr

/-- A staged record and the time at which it closed, 0 for one that was offered before. -/
structure Staged where
  since : Nat
  rcd : EvRec
  deriving DecidableEq, Repr

/-- The recorder and the counter unit (chapter 17). -/
structure Ledger where
  /-- Open fold records, oldest first (R544). -/
  opened : List OpenRec
  /-- Staged records, oldest first (R547). -/
  staged : List Staged
  /-- The SEQ that the next record takes, LOG_SEQ (R543). -/
  seq : Nat
  /-- The log: slot number to record (R548). -/
  log : SMap (Option EvRec)
  /-- The current block and its next free slot (R548). -/
  block : Nat
  fill : Nat
  /-- The durable release mark (R549). -/
  mark : Option Nat
  /-- The Boot scan has ended (R553). -/
  scanned : Bool
  /-- HEALTHY of LOG_STATUS is 0 (R553). -/
  unhealthy : Bool
  /-- Batches that failed their read-back (R553). -/
  verifyFails : Nat
  /-- The log is frozen, since freezeStart in ns (R550). -/
  frozen : Bool
  freezeStart : Nat
  /-- Once-per-second and once-per-freeze reports of R548 and R551: ns of the last one, if any. -/
  fullAt : Option Nat
  stageLostAt : Option Nat
  /-- Event counters of R554, 48 bits, in the store domain. -/
  evc : SMap Nat
  /-- LOG_CMD is busy with a store or a copy: the OP (R549, R552, R565). -/
  cmd : Option Nat
  /-- The stored calibration page as words (R565). -/
  cal : SMap Word
  /-- LOG_CAL_INFO.VALID of the last Calibrate (R566). -/
  calValid : Bool
  /-- Filter unit counts: MATCHES at 2k, BYTES at 2k + 1 (R555). -/
  fu : SMap Nat
  /-- Filter units' sample numbers (R563). -/
  fuSample : SMap Nat
  /-- Number of the next dump (R558). -/
  dumpSeq : Nat
  /-- The ns from which PERIOD_MS runs (R558). -/
  snapAt : Nat
  /-- Seed tags: next TAG_ID (R560). -/
  tagNext : Nat
  deriving DecidableEq, Repr

/-! ## The Hedge (chapter 15) -/

/-- An evidence record of R500, before its chain value and seal. -/
structure EvidRec where
  seq : Nat
  type : Nat
  level : Nat
  onCell : Bool
  rootsErased : Bool
  late : Bool
  lifecycle : Nat
  sensor : Nat
  fill : Nat
  mode : Nat
  hcount : Nat
  timeS : Nat
  timeNs : Nat
  powerups : Nat
  detail : List Byte
  chain : List Byte
  mac : Option (List Byte)
  deriving DecidableEq, Repr

/-- A sensor's filter state (R485, R486). -/
structure Sensor where
  fill : Nat
  tripped : Bool
  raw : Bool
  alarms : Nat
  notes : Nat
  notesReported : Nat
  measured : Nat
  /-- When the open window closes, and when 1 s without a detection has passed, in ns. -/
  closesAt : Nat
  clearAt : Nat
  deriving DecidableEq, Repr

/-- A sensor that has detected nothing. -/
def Sensor.idle : Sensor := ⟨0, false, false, 0, 0, 0, 0, 0, 0⟩

/-- The unlogged-tamper latch of R496: sensor id, HCOUNT, further items. -/
structure TamperLatch where
  sensor : Nat
  hcount : Nat
  more : Nat
  deriving DecidableEq, Repr

/-- The Hedge (chapter 15). Root words are held as their presence and their opaque value. -/
structure Hedge where
  /-- Runs on main power (LIVE); on the cell otherwise. -/
  live : Bool
  /-- HCOUNT, and the part of a period of the crystal that has passed, in 10^-9 of one (R479). -/
  hcount : Nat
  hcountFrac : Nat
  /-- POWERUPS (R479). -/
  powerups : Nat
  /-- Root words of Manufacture, Development, Production and Returned (R480). -/
  roots : List (Option (List Byte))
  /-- The pending root word (R480). -/
  pendingRoot : Option (List Byte)
  /-- Polarity in which the root words are held (R480). -/
  rootPolarity : Bool
  /-- The root words agree with their check values (R480, R486). -/
  rootCheckOk : Bool
  /-- ZEROIZED, the sensor that caused it and HCOUNT then (R491). -/
  zeroized : Bool
  zeroizedBy : Nat
  zeroizedAt : Nat
  /-- The evidence log key (R500). -/
  evidKey : Option (List Byte)
  /-- Filter state of the 16 sensors (R485). -/
  sensors : List Sensor
  /-- The cell in mV, unloaded and under the load of the reserve test (R495). -/
  cellMv : Nat
  loadedMv : Nat
  /-- The last reserve test passed (R495). -/
  reserveOk : Bool
  /-- The unlogged-tamper latch (R496). -/
  latch : Option TamperLatch
  /-- The pending store of 8 records (R503). -/
  pend : List EvidRec
  /-- Records passed to the Steward and not yet read back good (R503). -/
  inFlight : List EvidRec
  /-- SEQs of records in flight that failed their read-back twice: they are passed no more (R503). -/
  givenUp : List Nat
  /-- Evidence log: records by SEQ (R500, R502). -/
  log : SMap (Option EvidRec)
  /-- The evidence log has its header (R502). -/
  header : Bool
  /-- NEXT of the evidence log (R502). -/
  next : Nat
  /-- OVERFLOW: records that found no room (R502). -/
  overflow : Nat
  /-- The latest chain value (R500). -/
  head : List Byte
  /-- EVIDENCE_FULL was raised (R502). -/
  fullRaised : Bool
  /-- SEQs appended on the cell since the last Boot (R505 order 3). -/
  replay : List Nat
  /-- Cause and sensor of the last erasure of the roots on the cell, for the next Boot (R505). -/
  rootCause : Nat
  latchSensor : Nat
  deriving DecidableEq, Repr

/-! ## The host interface (chapter 16) -/

/-- The state of an allotment, coded as HIF_ALLOT_STATE.STATE. -/
inductive AllotState where
  | absent | idle | running | frozen | resetting | freezing
  deriving DecidableEq, Repr

/-- A ring command that runs (R519): its allotment, unit, OP, descriptor index, TAG, output address and room, and whether the
host takes the output (R508). -/
structure RingCmd where
  allot : Nat
  unit : Nat
  op : Nat
  idx : Nat
  tag : Nat
  outAddr : Nat
  outMax : Nat
  outOk : Bool
  deriving DecidableEq, Repr

/-- An allotment reset in progress (R528): the allotment, whether it squashes, whether its drain timed out (R529), whether
steps A4 and A5 have begun, whether HIF_ALLOT_CMD issued it. -/
structure AllotReset where
  allot : Nat
  squash : Bool
  late : Bool
  erased : Bool
  byCommand : Bool
  /-- The ns of its beginning. -/
  since : Nat
  deriving DecidableEq, Repr

/-- The host interface and the management bus (chapter 16). -/
structure HostIf where
  /-- The PCIe link: up, speed, width and LTSSM state (R530). -/
  linkUp : Bool
  speed : Nat
  width : Nat
  ltssm : Nat
  /-- State of allotments 0 to 63 (R527). -/
  allots : List AllotState
  /-- The allotment command in progress: OP and allotment (R528, R531). -/
  cmd : Option (Nat × Nat)
  /-- The ns at which a FREEZE began (R531). -/
  freezeAt : Nat
  /-- Allotment resets in progress (R528). -/
  resets : List AllotReset
  /-- The module's ring indices, keyed allotment × 16 + ring (R515). -/
  ringMod : SMap Nat
  /-- The host's last accepted ring indices, keyed likewise (R515). -/
  ringHost : SMap Nat
  /-- Ring commands that run (R519). -/
  ringCmds : List RingCmd
  /-- Posted receive buffers by allotment: address, length, TAG, ring index (R524). -/
  bufs : SMap (List (Nat × Nat × Nat × Nat))
  /-- OVERFLOW is owed to the next entry of an allotment's event ring (R525). -/
  ringOvf : List Nat
  /-- Unsignalled records of vectors 0 and 1, keyed allotment × 2 + v (R527). -/
  unsig : SMap Nat
  /-- The ns of the first of them (R527). -/
  unsigAt : SMap Nat
  /-- MSI-X table and masks: words by table word index (R526). -/
  msix : SMap Nat
  /-- Vectors with their pending bit set (R526). -/
  pba : List Nat
  /-- I3C dynamic address (R536). -/
  dynAddr : Option Nat
  /-- In-band interrupts and Hot-Join are enabled (R537, R540). -/
  ibiEn : Bool
  hjEn : Bool
  /-- READ32: pending offset and whether it was refused (R538). -/
  read32 : Option (Nat × Bool)
  /-- Maximum write and read lengths, and the reset action (R537). -/
  mwl : Nat
  mrl : Nat
  rstAction : Nat
  /-- A Hot-Join request is owed (R540). -/
  hotJoinDue : Bool
  deriving DecidableEq, Repr

/-! ## Time (chapter 14) -/

/-- The states of a time channel (R454). -/
inductive ChState where
  | stopped | running | acquiring | locked | holdover
  deriving DecidableEq, Repr

/-- A time channel. A carry clock's value is kept in units of 2^-40 ns; an offset-rate channel keeps O and A. -/
structure Channel where
  st : ChState
  source : Nat
  owner : Nat
  parent : Nat
  slewPpm : Nat
  freq : Int
  value : Nat
  offO : Int
  offA : Nat
  /-- Remaining slew in units of 2^-40 ns. -/
  slew : Int
  /-- PPS: consecutive good edges, consecutive missed or rejected edges, a ToD message was accepted. -/
  good : Nat
  missed : Nat
  todSeen : Bool
  /-- Value at block 0 of the last sheaf (C_k of R466), in 2^-40 ns. -/
  mapC : Option Nat
  /-- Fixed block maps, newest first: sheaf, T_S in 2^-32 ns, RATE in 2^-32 ns per block (R466, R429). -/
  maps : List (Nat × Nat × Nat)
  deriving DecidableEq, Repr

/-- Time (chapter 14). -/
structure TimeSt where
  /-- The time channels (R454). -/
  chans : List Channel
  /-- Last accepted PPS_IN edge in ns since reset (R462). -/
  lastPps : Option Nat
  /-- The accepted ToD seconds that await the next edge (R464). -/
  todPending : Option Nat
  /-- The ns of the last PPS_OUT edge that no ToD message has followed, and the ns at which PPS_OUT, now high, falls (R465). -/
  ppsRise : Option Nat
  ppsFall : Option Nat
  /-- TIME_TX history per group: (group, sheaf, time) for the last 64 transmit sheaves (R475). -/
  txHist : List (Nat × Nat × Nat)
  /-- Consecutive headlands per group without a usable time word (R475). -/
  badEcho : SMap Nat
  deriving DecidableEq, Repr

/-! ## At reset -/

/-- A channel that counts nothing. -/
def Channel.idle : Channel :=
  ⟨.stopped, 0, 0, 0, 100, 0, 0, 0, 0, 0, 0, 0, false, none, []⟩

/-- Time after Boot: every channel STOPPED (R454). -/
def TimeSt.reset : TimeSt := ⟨List.replicate 16 Channel.idle, none, none, none, none, [], []⟩

/-- The host interface after reset: no link, allotment 0 idle, no dynamic address, Hot-Join owed (R530, R537). -/
def HostIf.reset : HostIf :=
  ⟨false, 0, 0, 0, .idle :: List.replicate 63 .absent, none, 0, [], [], [], [], [], [], [], [], [], [], none, false, true, none, 0, 0, 0, true⟩

/-- Modes right after reset: Boot, entered from Power Rise (STW_MODE 0x12). -/
def Control.cold : Control :=
  { mode := .boot, prevMode := .powerRise, recoveries := 0, lastCode := 0, lastLevel := 0, halted := false, degraded := false
    level2 := [], responseEnds := 0, cmd := none, cmdStart := 0, autoOn := false, intake := false, recStep := 0
    modeBefore := .boot, stuck := false, outcome := 0, recIslands := [], recCondition := false, partsBefore := 0, parts := 0
    escalations := 0, resetCause := 0, watchdogServed := true, selfTestMask := 0 }

/-- Power right after reset: every rail on from 48 V; feeds, bleed paths and bank not yet measured (STW_FEED_STATUS, STW_PINS,
STW_HOLDUP_V read 0). -/
def Power.cold : Power :=
  { inputMv := 48000, aOk := false, bOk := false, aLost := false, bLost := false, overvoltHold := false, bank := .empty, bankV := 0
    capUf := 0, eAvail := 0, bleedA := false, bleedB := false, pfStep := 0, pfDone := 0, pfStart := 0, powerBack := false
    converters := true, dataRails := true, oscLocked := true, alertN := false, failAlert := false, svcMute := false, yokePos := false, perstHigh := true, riseMs := 0, bootMs := 0
    bootAt := 0 }

/-- Boot right after reset on a blank module: NOR erased, OTP unprogrammed, life-cycle state Raw. -/
def Boot.blank : Boot :=
  { phase := 0, hold := 0, booted := 3, tried := 0, cands := [], metaLost := false, image := none, slotMeta := none, nor := []
    retired := [], metaSeq := 0, metaRecs := [], metaWear := [], metaPos := [(0, 0), (0, 0)], metaDue := false, auth := List.replicate 4 ⟨[], 0, false, false⟩, floor := 0, otpLife := .raw, job := none }

/-- The Ledger with an empty log. -/
def Ledger.blank : Ledger :=
  { opened := [], staged := [], seq := 0, log := [], block := 0, fill := 0, mark := none, scanned := false, unhealthy := false
    verifyFails := 0, frozen := false, freezeStart := 0, fullAt := none, stageLostAt := none, evc := [], cmd := none, cal := []
    calValid := false, fu := [], fuSample := [], dumpSeq := 1, snapAt := 0, tagNext := 0 }

/-- The Hedge without roots or records, on main power. -/
def Hedge.blank : Hedge :=
  { live := true, hcount := 0, hcountFrac := 0, powerups := 0, roots := List.replicate 4 none, pendingRoot := none
    rootPolarity := false, rootCheckOk := true, zeroized := false, zeroizedBy := 0, zeroizedAt := 0, evidKey := none
    sensors := List.replicate 16 Sensor.idle, cellMv := 0, loadedMv := 0, reserveOk := false, latch := none
    pend := [], inFlight := [], givenUp := [], log := [], header := false, next := 0, overflow := 0, head := [], fullRaised := false
    replay := [], rootCause := 0, latchSensor := 0 }

end Sys2Proof.Machine
end

