-- ==== Sys2Proof/Machine/StateStore.lean ====
section
/-! DEFINITION. Non-volatile memory and the stores that write it (R17, R121 to R125), and what the module emits. -/

namespace Sys2Proof.Machine

open Sys2Proof

/-! ## Records of main MRAM -/

/-- A reservation record of R317 (32 B; VALID is presence, the CRC follows from the fields). -/
structure PnRec where
  txFp : Nat
  txMark : Nat
  rxFp : Nat
  rxMark : Nat
  txSlot : Bool
  rxSlot : Bool
  otherFresh : Bool
  deriving DecidableEq, Repr

/-- A sealed record of R401: ID, ATTR, IV, ciphertext and tag. -/
structure SealedRec where
  id : Nat
  attr : Word
  iv : List Byte
  ct : List Byte
  tag : List Byte
  deriving DecidableEq, Repr

/-- The PFAIL_SUMMARY record of R125 and R573. -/
structure PfailRec where
  holdMs : Nat
  done : Nat
  deferred : Nat
  powerups : Nat
  deriving DecidableEq, Repr

/-- Main MRAM but for the event log and the calibration page, which the Ledger holds. -/
structure Mram where
  /-- Reservation records by association (R317). -/
  pn : SMap (Option PnRec)
  /-- The durable sheaf mark M (R151). -/
  sheafMark : Nat
  /-- The STALE flag (R440). -/
  stale : Bool
  /-- Sealed slot records by slot code and sealed association records by record index (R401). -/
  slots : SMap (Option SealedRec)
  assocs : SMap (Option SealedRec)
  /-- The identity page: certificates as bytes (R385). -/
  idPage : List Byte
  /-- The summary record of the last power failure (R125, R573). -/
  pfail : Option PfailRec
  deriving DecidableEq, Repr

/-! ## Stores -/

/-- The classes of R125 in order, and the NOR stores, which have their own port. -/
inductive StoreClass where
  | stale | reservation | evidence | sealedRec | otherRec | logBatch | calibration | nor
  deriving DecidableEq, Repr

/-- What a store makes durable; a record that no other row names is not interpreted. -/
inductive Payload where
  | pnRec (assoc : Nat) (r : PnRec)
  | sheafMark (m : Nat)
  | stale (b : Bool)
  | evidence (r : EvidRec)
  | slotRec (code : Nat) (r : Option SealedRec)
  | assocRec (k : Nat) (r : Option SealedRec)
  | idPage (bs : List Byte)
  | releaseMark (n : Nat)
  | logBatch (rs : List EvRec)
  | calPage (page : SMap Word)
  | norErase (slot sector : Nat)
  | norProgram (slot sector page : Nat) (words : SMap Word)
  | norMeta (copy sector idx : Nat) (m : SlotMeta)
  | norRetire (copy sector idx : Nat) (m : SlotMeta) (device bad : Nat)
  | other
  deriving DecidableEq, Repr

/-- The command that waits for a store: none, or the unit and the window whose command it is. -/
inductive Waiter where
  | nobody
  | unit (id win : Nat)
  deriving DecidableEq, Repr

/-- A store request (R121): its class, declared cost in mJ (R122), payload, waiting command, and whether it has
been counted as deferred. -/
structure StoreReq where
  cls : StoreClass
  cost : Nat
  pay : Payload
  who : Waiter
  deferred : Bool
  deriving DecidableEq, Repr

/-- The Steward's store ports and deferral queue, in the store domain (R121, R124). -/
structure Stores where
  /-- Requests in order of arrival (R121, R124). -/
  queue : List StoreReq
  /-- The store that the MRAM port makes (R121). -/
  mram : Option StoreReq
  /-- The store that the NOR port makes (R121). -/
  nor : Option StoreReq
  /-- Stores passed over in the present step 5 (R125). -/
  lost : Nat
  /-- A request has been refused and STORE_QUEUE_FULL not yet raised (R124). -/
  refused : Bool
  deriving DecidableEq, Repr

/-! ## Crossings and internal links (chapter 01) -/

/-- One crossing port: the value held, request and acknowledge flags, and whether the value is an idle probe (R23, R24). -/
structure Crossing where
  value : Nat
  req : Bool
  ack : Bool
  probe : Bool
  deriving DecidableEq, Repr

/-- An internal cell (the table before R26). -/
structure ICell where
  seq : Nat
  src : Nat
  dst : Nat
  len : Nat
  last : Bool
  payload : List Byte
  deriving DecidableEq, Repr

/-- An internal link: the sender's unacknowledged cells oldest first, its next SEQ, the SEQ the receiver expects,
the receiver is discarding after a failure, consecutive failures of the oldest cell (R26, R27). -/
structure ILink where
  unacked : List ICell
  nextSeq : Nat
  expect : Nat
  discarding : Bool
  fails : Nat
  deriving DecidableEq, Repr

/-- Islands, crossings, links (chapter 01). -/
structure Fabric where
  /-- Islands whose clock runs (R24). -/
  live : List Nat
  /-- Islands held in reset (R25). -/
  inReset : List Nat
  /-- Crossings by sender × 32 + receiver (R23). -/
  cross : SMap (Option Crossing)
  /-- Links by sender × 32 + receiver (R26). -/
  links : SMap (Option ILink)
  /-- Cells discarded at reset ports (R25). -/
  discarded : Nat
  deriving DecidableEq, Repr

/-! ## What leaves the module -/

/-- A tributary on the rows of one lane of a group in a sheaf: its bytes, its row count in the group, and its rows on this lane
with their place among the tributary's rows (R155). -/
structure LaneTrib where
  bytes : List Byte
  count : Nat
  rows : List (Nat × Nat)
  deriving DecidableEq, Repr

/-- What one lane of a Glafold group carries in one sheaf: physical line lane, lane index, sheaf number, precoding, the headland and
the tributaries. `Stream.lean` says what stands at the contacts for it (R137 to R142, R154 to R156). -/
structure LaneSheaf where
  lane : Nat
  idx : Nat
  no : Nat
  precode : Bool
  head : List Byte
  tribs : List LaneTrib
  deriving DecidableEq, Repr

/-- What a DMA write of an allotment carries (R509, R513): the allotment, its PASID prefix, and Relaxed Ordering. -/
structure DmaTag where
  allot : Nat
  pasid : Option Nat
  relaxed : Bool
  deriving DecidableEq, Repr

/-- One thing the module emits: the answer to an access, a write to host memory, an interrupt, a pin, a frame. -/
inductive Output where
  /-- The answer to a register read. -/
  | readValue (v : Word)
  /-- Completed with Unsupported Request (R4), or with Completer Abort (R29). -/
  | unsupported (off : Nat)
  | completerAbort
  /-- An error status returned to the unit that offered a value on a crossing (R24) or began a transaction (R29). -/
  | offerError (src dst : Nat)
  | transactionError
  /-- Acknowledge and negative acknowledge of internal cells by SEQ (R26). -/
  | cellAck (src dst seq : Nat)
  | cellNak (src dst seq : Nat)
  | cellSent (c : ICell)
  /-- A write to host memory: for whom, address, bytes. -/
  | hostWrite (tag : DmaTag) (addr : Nat) (bs : List Byte)
  /-- An MSI-X vector fires (R526). -/
  | msix (v : Nat)
  /-- An in-band interrupt (R540) or a Hot-Join request (R537). -/
  | ibi (level code : Nat)
  | hotJoin
  /-- Bytes returned on the I3C bus; an address not acknowledged. -/
  | i3c (bs : List Byte)
  | i3cNack
  /-- A frame or stream leaving on an output: output id, bytes; a frame ended with an inverted FCS. -/
  | frame (out : Nat) (bs : List Byte)
  | stomped (out : Nat)
  /-- A sheaf's headland on a lane of a group: group, lane index, bytes. -/
  | headland (group lane : Nat) (bs : List Byte)
  /-- Bytes that join the stream of a Dithal channel: 0 decision stream, 1 reverse stream, 2 pairing and management. -/
  | dithal (channel : Nat) (bs : List Byte)
  /-- A cell on a Dithal lane (R419). -/
  | dithalCell (lane : Nat) (bs : List Byte)
  /-- A tributary's bytes of one sheaf with its tag, on rows of a group: tributary, group, bytes. -/
  | trib (t g : Nat) (bs : List Byte)
  /-- The sheaf that a Glafold lane has sent; a client port begins or ceases to send remote fault (R168). -/
  | lane (x : LaneSheaf)
  | remoteFault (port : Nat) (on : Bool)
  /-- A write to HBM: stack, pseudo-channel of the stack, address, bytes (R276). The answer of the Memory Guard to a queue: status
  0 OK, 1 POISON, 2 ERROR, 3 BUSY, 4 NOT_STARTED; the line read. -/
  | hbm (stack chan addr : Nat) (bs : List Byte)
  | memAnswer (queue addr status : Nat) (bs : List Byte)
  /-- PPS_OUT level, a ToD message, the erase and mute lines of R108. -/
  | ppsOut (high : Bool)
  | todOut (baud : Nat) (bs : List Byte)
  | eraseLine
  | muteLine
  /-- ALERT_N is asserted (low), or released (R58). -/
  | alertN (low : Bool)
  deriving DecidableEq, Repr

/-! ## At reset -/

/-- The 21 islands of the die. -/
def allIslands : List Nat := List.range 21

/-- Every island in reset, no crossing or link in use. -/
def Fabric.reset (discarded : Nat) : Fabric := ⟨[], allIslands, [], [], discarded⟩

/-- Main MRAM before anything is stored. -/
def Mram.blank : Mram := ⟨[], 0, false, [], [], [], none⟩

/-- No store waits or runs. -/
def Stores.idle : Stores := ⟨[], none, none, 0, false⟩

end Sys2Proof.Machine
end

