-- ==== Sys2Proof/Machine/StateLine.lean ====
section
/-! DEFINITION. The parts of State that chapters 05 and 06 give the machine: lanes, groups, ports, the framer, tributary
receivers, connection memory pages and protection pairs. -/

namespace Sys2Proof.Machine

open Sys2Proof

/-- The alignment state machine of R162. -/
inductive Align where
  | hunt
  | presync (count : Nat)
  | sync (misses : Nat)
  | notGlafold
  deriving DecidableEq, Repr

/-- One lane: 0 to 15 client, 16 to 31 line. -/
structure Lane where
  signal : Bool
  cdrLock : Bool
  cwLock : Bool
  prbsLock : Bool
  snr : Nat
  los : Bool
  lol : Bool
  loa : Bool
  sd : Bool
  exc : Bool
  align : Align
  /-- Last SHEAF_NO followed; a new numbering seen once (R164). -/
  prevSheaf : Nat
  jump : Option Nat
  /-- Rows of the present sheaf are discarded. -/
  dropRows : Bool
  /-- From the last good headland: LANE_TAG index, GROUP and WIDTH; arrival of the last marker in ns. -/
  tagIdx : Nat
  rxGroup : Nat
  rxWidth : Nat
  arrive : Nat
  /-- Transmit-coded blocks of a codeword that come before the marker's sheaf, from the last matching marker (R140, R162). -/
  codePhase : Nat
  /-- The sheaf number most recently received, and the headland time channel at its marker's arrival: ns modulo 2^32 and
  fraction, in 2^-16 ns (R143, R149). -/
  echoSheaf : Nat
  echo : Nat
  /-- From the last good headland: CLOAK_CUR, CLOAK_NEXT, and the sheaf of the announced flip, SHEAF_NO + FLIP_IN (R145, R147). -/
  cloakCur : Nat
  cloakNext : Nat
  flipAt : Option Nat
  /-- The lane has reached SYNC or PCS lock since its reset: its 10 ms windows run (R167). -/
  windows : Bool
  /-- Consecutive windows below the clearing bounds of SD and EXC (R166). -/
  sdQuiet : Nat
  excQuiet : Nat
  /-- Running second counters c = 0 to 5 of LNF_LANE_SEC. -/
  sec : List Nat
  deriving DecidableEq, Repr

/-- What the last good headland of a group carries that later steps use (R143, R145). -/
structure RxHead where
  muted : Bool
  feTagFails : Nat
  feLastTrib : Nat
  deriving DecidableEq, Repr

/-- One line group. -/
structure Group where
  loga : Bool
  tim : Bool
  rdiRx : Bool
  sf : Bool
  sd : Bool
  aligned : Bool
  rxSheaf : Nat
  spreadNs : Nat
  /-- Consecutive good headlands with a differing and an equal TRACE; with RDI 1 and RDI 0. -/
  traceBad : Nat
  traceGood : Nat
  rdiOn : Nat
  rdiOff : Nat
  head : RxHead
  /-- Running second counters c = 0 to 3 of LNF_GRP_SEC. -/
  sec : List Nat
  deriving DecidableEq, Repr

/-- One Ethernet port: 0 to 15 client ports, 16 to 31 line groups of KIND 1. -/
structure EthPort where
  aligned : Bool
  hiBer : Bool
  localFault : Bool
  remoteFault : Bool
  up : Bool
  /-- The port sends remote fault (R168). -/
  faultSent : Bool
  /-- Running second counters c = 0 to 5 of LNF_ETH_SEC. -/
  sec : List Nat
  deriving DecidableEq, Repr

/-- A tributary receiver (R161): hunting or following; LEN of the frame whose header it has met and which it has not yet handed
on. -/
structure TribRx where
  following : Bool
  left : Nat
  deriving DecidableEq, Repr

/-- Lanes and framer (chapter 05). -/
structure Line where
  /-- Lanes 0 to 31 (R130, R162). -/
  lanes : List Lane
  /-- Line groups 0 to 15 (R131). -/
  groups : List Group
  /-- Ethernet ports 0 to 31 (R132). -/
  eth : List EthPort
  /-- Transmit sheaf number S (R151). -/
  sheaf : Nat
  /-- The durable mark M in force (R151, R438). -/
  mark : Nat
  /-- The mark whose store is requested (R153). -/
  markAsked : Option Nat
  /-- No sheaf starts until a higher mark is durable (R153). -/
  stalled : Bool
  /-- The ns at which the present transmit sheaf began (R151). -/
  sheafAt : Nat
  /-- A sheaf is being sent (R151). -/
  sending : Bool
  /-- Its transmitters were off when it began (R57). -/
  sheafOff : Bool
  /-- The headlands it sends, by group and lane index (R143). -/
  heads : List (Nat × Nat × List Byte)
  /-- Tributary receivers (R161). -/
  tribs : SMap (Option TribRx)
  /-- Counts that no register shows, by `tallyPcs` and the keys beside it (R159, R168, R186, R190). -/
  tally : SMap Nat
  deriving DecidableEq, Repr

/-- The pages of one Glafold group (R175, R180, R184). -/
structure GroupPages where
  txActive : Nat
  rxActive : Nat
  /-- The announced transmit swap sheaf; the announced received swap sheaf. -/
  txSwap : Option Nat
  rxSwap : Option Nat
  mismatch : Bool
  mapBad : Nat
  mapGood : Nat
  /-- The announced cloak flip: tributary and flip sheaf (R147, R338). -/
  flip : Option (Nat × Nat)
  deriving DecidableEq, Repr

/-- A far APS set: request code, requested and bridged signal, ARCH and DIR bits (R191, R192). -/
structure ApsSet where
  req : Nat
  sig : Nat
  bridged : Nat
  arch : Nat
  dir : Nat
  deriving DecidableEq, Repr

/-- An APS state that a lead conveys: from which sheaf it holds, selector, bridge, request and requested signal sent (R200, R428). -/
structure ApsState where
  sheaf : Nat
  selector : Nat
  bridge : Nat
  req : Nat
  sig : Nat
  deriving DecidableEq, Repr

/-- One protection pair (R187 to R199). -/
structure Pair where
  /-- Command in force, as RIX_APS_STATUS.COMMAND: 0 none, 1 LOCKOUT, 2 FORCED, 3 MANUAL_P, 4 MANUAL_W. -/
  cmd : Nat
  far : ApsSet
  /-- A far request has been accepted (R193). -/
  farSet : Bool
  /-- The candidate of the persistence filter and its count; the set that last raised an invalid report. -/
  cand : Option ApsSet
  candCount : Nat
  farInvalid : Bool
  mismatch : Bool
  /-- The hold-off runs, has expired; the WTR timer runs; the ns at which hold-off and WTR end. -/
  holdRun : Bool
  holdDone : Bool
  wtr : Bool
  holdDue : Nat
  wtrDue : Nat
  /-- Local request, request sent, its signal; position, bridge, selector (0 working, 1 protection). -/
  local_ : Nat
  sent : Nat
  sentSig : Nat
  position : Nat
  bridge : Nat
  selector : Nat
  skewBlocks : Nat
  skewExcess : Bool
  /-- The number of the first sheaf that the selector takes from its present group (R190). -/
  nextSheaf : Nat
  /-- A follower's APS states of sheaves to come (R200). -/
  ahead : List ApsState
  deriving DecidableEq, Repr

/-- Row Interchange (chapter 06). -/
structure Rows where
  /-- Connection memory pages of the groups (R175). -/
  pages : List GroupPages
  /-- Protection pairs (R187). -/
  pairs : List Pair
  /-- The twin's SF and SD of groups, bit g for group g, as its last DEFECTS item said (R439). -/
  twinSf : Nat
  twinSd : Nat
  deriving DecidableEq, Repr

/-- Keys of the counts that no register shows: frames dropped for client port p under PCS_DOWN; frames and sheaves of group g
discarded under SF, and under MAP_MISMATCH; sheaves lost at a switch of pair k; stomps on tributary t. -/
def tallyPcs (p : Nat) : Nat := p
def tallySf (g : Nat) : Nat := 16 + g
def tallyMap (g : Nat) : Nat := 32 + g
def tallyLost (k : Nat) : Nat := 48 + k
def tallyStomp (t : Nat) : Nat := 64 + t
/-- Frames dropped because a spilled cell was returned with POISON or ERROR (R293). -/
def tallyPoison : Nat := 576
def tallyLocal : Nat := 577

/-- A lane at reset: nothing received, in HUNT. -/
def Lane.reset : Lane :=
  ⟨false, false, false, false, 0, false, false, false, false, false, .hunt, 0, none, false, 0, 0, 0, 0, 0, 0, 0, 0, 0, none, false,
    0, 0, List.replicate 6 0⟩

/-- A group at reset. -/
def Group.reset : Group :=
  ⟨false, false, false, false, false, false, 0, 0, 0, 0, 0, 0, ⟨false, 0, 0xFFFF⟩, List.replicate 4 0⟩

/-- A port at reset: no block lock. -/
def EthPort.reset : EthPort := ⟨false, false, false, false, false, false, List.replicate 6 0⟩

/-- A group's pages at reset: page A active both ways. -/
def GroupPages.reset : GroupPages := ⟨0, 0, none, none, false, 0, 0, none⟩

/-- No far request. -/
def ApsSet.none : ApsSet := ⟨0, 0, 0, 0, 0⟩

/-- A pair at reset. -/
def Pair.reset : Pair := ⟨0, .none, false, .none, 0, false, false, false, false, false, 0, 0, 0, 0, 0, 0, 0, 0, 0, false, 0, []⟩

/-- Lanes and framer at reset. -/
def Line.reset : Line :=
  ⟨List.replicate 32 Lane.reset, List.replicate 16 Group.reset, List.replicate 32 EthPort.reset, 0, 0, Option.none, false, 0, false,
    false, [], [], []⟩

/-- Rows at reset. -/
def Rows.reset : Rows := ⟨List.replicate 16 GroupPages.reset, List.replicate 8 Pair.reset, 0, 0⟩

end Sys2Proof.Machine
end

