-- ==== Sys2Proof/Machine/StatePath.lean ====
section
/-! DEFINITION. The parts of State that chapters 07 and 08 give the machine: the Association Lookup Table with its
engine, and the Scheduler's frames, queues, shapers and gates. -/

namespace Sys2Proof.Machine

open Sys2Proof

/-! ## Classifier (chapter 07) -/

/-- An ALT entry (R207) without ECRC: KIND, STATIC, HIT, OWNER, the 16-bit DOMAIN field, the 12 KEY bytes, result,
AGE and PORT. -/
structure AltEntry where
  kind : Nat
  stat : Bool
  hit : Bool
  owner : Nat
  domain : Nat
  key : List Byte
  assoc : Nat
  classEn : Bool
  cls : Nat
  output : Nat
  age : Nat
  portValid : Bool
  port : Nat
  deriving DecidableEq, Repr

/-- A learn probe or request: the MAC key's domain field and KEY bytes, the port and the association (R230, R231). -/
structure LearnReq where
  domain : Nat
  key : List Byte
  port : Nat
  assoc : Nat
  deriving DecidableEq, Repr

/-- A FLUSH_BY_PORT in progress: window, port, INCLUDE_STATIC, entries removed so far (R226, R228). -/
structure Flush where
  win : Nat
  port : Nat
  statics : Bool
  removed : Nat
  deriving DecidableEq, Repr

/-- The classifier. -/
structure Cls where
  /-- The table by entry index (R210). -/
  alt : SMap (Option AltEntry)
  /-- SWEEP of the reaper and the bucket it visits next (R235). -/
  sweep : Nat
  bucket : Nat
  /-- The time from which the reaper visits its next bucket (R235). -/
  visitAt : Nat
  /-- Learn probes waiting for a pipe, at most 1,024 (R215). -/
  probes : List LearnReq
  /-- Probes of accepted frames that find the queue full, with the frame that waits for each to enter (R215). -/
  probeWait : List (LearnReq × Nat)
  /-- Learn requests waiting for the engine (R231). -/
  learnQ : List LearnReq
  /-- Flushes in progress (R226, R228). -/
  flushes : List Flush
  /-- Bypass is in force and was reported (R216). -/
  bypass : Bool
  /-- Ports whose COUNT was reported to have reached QUOTA (R230). -/
  quotaSeen : List Nat
  deriving DecidableEq, Repr

/-- The classifier with an empty table. -/
def Cls.reset : Cls := ⟨[], 0, 0, 0, [], [], [], [], false, []⟩

/-! ## Scheduler (chapter 08) -/

/-- What an inject descriptor asks for (R522): allotment, ring index, TAG, ONE_STEP, TWO_STEP. -/
structure Inject where
  allot : Nat
  idx : Nat
  tag : Nat
  oneStep : Bool
  twoStep : Bool
  deriving DecidableEq, Repr

/-- A frame between its first byte and the end of its transmission. -/
structure Frame where
  id : Nat
  /-- DA through FCS: as received in the encrypt direction, as recovered in the decrypt direction. -/
  bytes : List Byte
  /-- Input: 0 to 15 client port, 16 to 543 decrypt input (R427), 544 host injection. -/
  input : Nat
  encrypt : Bool
  /-- Association, own output or the ALT entry's, class; the frame goes to a direct FIFO. -/
  assoc : Nat
  output : Nat
  cls : Nat
  direct : Bool
  /-- Members of a flood copy set other than the first (R234, R248). -/
  flood : List Nat
  /-- Instant in ns at which its first byte reached the receiving contacts; launch time of an injected frame (R269). -/
  arrival : Nat
  launch : Option Nat
  /-- All cells have arrived; cells reserved, cells held, of which on spill regions; queue entries that refer to it, 0 for a frame
  dropped before its last cell. -/
  whole : Bool
  reserved : Nat
  cells : Nat
  spilled : Nat
  refs : Nat
  /-- Decrypt direction: slot and PN the SecTAG gave, verify-first; the result of the final check once known. -/
  slot : Nat
  pn : Nat
  hold : Bool
  verdict : Option Bool
  /-- Expanse: HBM addresses of the lines whose verdicts are awaited, and one has failed (R292). -/
  linesWait : List Nat
  lineBad : Bool
  /-- A yoke follower's phantom (R433); host or classifier seed tag (R560). -/
  phantom : Bool
  tag : Option Nat
  /-- Decrypt direction: 0 sound, 1 the received FCS is bad, 2 the ICV does not verify (R363, R428). -/
  rxFault : Nat
  /-- Injection by host software (R522). -/
  inject : Option Inject
  /-- RECNO of its frame record; its length and the CRC-16 of its first 64 bytes, both as received (R427). -/
  recNo : Nat
  rxLen : Nat
  rxMatch : Nat
  /-- Spill cells that hold its last cells, in order; the Memory Guard did not take one of them (R250, R294). -/
  spillAt : List Nat
  spillLost : Bool
  /-- The time of TC_CHANNEL at its arrival in units of 2^-40 ns, none while that channel does not run (R472). -/
  tcAt : Option Nat
  /-- In the Yoke modes, the instant in ns at which its last cell counts as buffered (R425). -/
  wholeAt : Nat
  deriving DecidableEq, Repr

/-- One entry of a queue: a frame, the association whose copy it is, and the arrival of its first byte in ns of the output's
CHANNEL, modulo 2^32 (R269). -/
structure QEntry where
  frame : Nat
  assoc : Nat
  arrival : Nat
  deriving DecidableEq, Repr

/-- The frame an output is sending (R254, R257): its entry, the queue it came from (association queue a, or 65,536 + q
for the direct FIFO of class queue q), class queue, counted length, bytes as they leave, cipher or memory outcome, work item if any, block and
descriptor timestamp of the pick. -/
structure Sending where
  entry : QEntry
  queue : Nat
  cq : Nat
  counted : Nat
  bytes : List Byte
  stomp : Bool
  drop : Bool
  item : Option Nat
  block : Nat
  stamp : Nat
  /-- The output was muted when the frame began (R57). -/
  off : Bool
  deriving DecidableEq, Repr

/-- A token bucket: how far below BURST_B it stands, in units of 2^-16 B, at an instant in ns, and what it has gained beyond whole
units, in 10^-9 of one (R257, R259, R260). -/
structure Bucket where
  below : Nat
  at_ : Nat
  part : Nat
  deriving DecidableEq, Repr

/-- An association queue's or policer's table words (R274). -/
structure TblWords where
  w0 : Word
  w1 : Word
  w2 : Word
  deriving DecidableEq, Repr

/-- The gates of one output (R264 to R268). -/
structure GateSt where
  active : Nat
  /-- The list in force: BASE, CYCLE_NS, LENGTH; 0 entries for none. -/
  base : Nat
  cycle : Nat
  len : Nat
  entry : Nat
  /-- Channel ns at which the present cycle began and at which the present entry ends. -/
  cycleAt : Nat
  endsAt : Nat
  running : Bool
  /-- The change that awaits T_c: T_c, BASE, CYCLE_NS, LENGTH. -/
  pending : Option (Nat × Nat × Nat × Nat)
  /-- GATE_OVERSIZE was raised for the active list. -/
  oversize : Bool
  deriving DecidableEq, Repr

/-- The Scheduler. -/
structure Sch where
  /-- Frames classified and awaiting admission, oldest first (R247). -/
  arrivals : List Frame
  /-- Admitted frames by id; the next id (R247). -/
  frames : SMap (Option Frame)
  nextId : Nat
  /-- Queues: association queue a at a, the direct FIFO of class queue q at 65,536 + q (R253). -/
  queues : SMap (List QEntry)
  /-- What each output is sending (R254). -/
  sending : SMap (Option Sending)
  /-- DWRR deficits: children of class queue q at 65,536 + q (direct FIFO) and a (association a), classes of an output at 200,000 +
  q (R254). -/
  deficit : SMap Nat
  /-- DWRR: the child whose turn it is, by class queue q, and by 10,000 + o for output o (R254). -/
  turn : SMap (Option Nat)
  /-- Buckets: association shaper a, 65,536 + q class shaper, 200,000 + o output shaper, 300,000 + a policer (R257, R260). -/
  buckets : SMap (Option Bucket)
  /-- TABLE 0 by association (R274). -/
  aq : SMap TblWords
  /-- TABLE 1 by association (R274). -/
  pol : SMap TblWords
  /-- Policer DROPS (R260, R274). -/
  polDrops : SMap Nat
  /-- TABLE 2 by INDEX: GATES and INTERVAL_NS (R264, R274). -/
  gateTbl : SMap (Nat × Nat)
  /-- Gates of the outputs (R264). -/
  gates : SMap (Option GateSt)
  /-- Cells in use on die by direction (R246). -/
  usedEnc : Nat
  usedDec : Nat
  /-- Reserved cells by direction (R247). -/
  resEnc : Nat
  resDec : Nat
  /-- Spill cells in use (R250). -/
  spillUsed : Nat
  /-- Spill is active by direction (R250). -/
  spillEnc : Bool
  spillDec : Bool
  /-- Last LAUNCH_LATE by class queue, in ns (R270). -/
  lateAt : SMap (Option Nat)
  deriving DecidableEq, Repr

/-- TABLE 0 before it is written: SPILL_OK 1, WEIGHT 1. -/
def aqDefault (_ : Nat) : TblWords := ⟨0x40010000#32, 0, 0⟩

/-- TABLE 1 before it is written. -/
def polDefault (_ : Nat) : TblWords := ⟨0, 0, 0⟩

/-- TABLE 2 before it is written. -/
def gateTblDefault (_ : Nat) : Nat × Nat := (0, 0)

/-- An empty queue. -/
def noQueue (_ : Nat) : List QEntry := []

/-- The Scheduler at reset. -/
def Sch.reset : Sch := ⟨[], [], 0, [], [], [], [], [], [], [], [], [], [], 0, 0, 0, 0, 0, false, false, []⟩

end Sys2Proof.Machine
end

