-- ==== Sys2Proof/Machine/StateKeys.lean ====
section
/-! DEFINITION. The parts of State that chapters 09 to 12 give the machine: HBM under the Memory Guard, the association
contexts, the Cipher Array and the Key Vault. -/

namespace Sys2Proof.Machine

open Sys2Proof

/-! ## Memory Guard (chapter 09) -/

/-- One protected line: the plaintext it stands for, its MINOR, and whether it carries the poison tag (R282, R284). -/
structure GLine where
  data : List Byte
  minor : Nat
  poison : Bool
  deriving DecidableEq, Repr

/-- A key set K1, K2, K3 (R300). -/
structure KeySet where
  k1 : List Byte
  k2 : List Byte
  k3 : List Byte
  deriving DecidableEq, Repr

/-- A re-till in progress (R297): key index, the new key set, pages swept of the index's domains in
queue order. -/
structure Retill where
  idx : Nat
  fresh : KeySet
  swept : Nat
  deriving DecidableEq, Repr

/-- The Memory Guard. Lines by P ÷ 64, pages by P ÷ 4,096, record lines by P ÷ 16,384. -/
structure Mgd where
  /-- MGD_INIT_DONE (R299). -/
  initDone : Bool
  /-- Protected lines by P ÷ 64 (R282). -/
  lines : SMap (Option GLine)
  /-- MAJOR of pages, by P ÷ 4,096 (R286). -/
  majors : SMap Nat
  /-- MAJOR and MINOR of record lines in the on-die root, by P ÷ 16,384 (R287). -/
  rootMajor : SMap Nat
  rootMinor : SMap Nat
  /-- Key sets 0 to 63 (R300). -/
  keys : List (Option KeySet)
  /-- The guard key KG (R287). -/
  kg : Option (List Byte)
  /-- The re-till in progress (R297). -/
  retill : Option Retill
  /-- Key indices with RETILL_DUE (R296). -/
  due : List Nat
  /-- Domains (queues) whose writes are refused (R296). -/
  refused : List Nat
  /-- Windows that re-initialise (R280). -/
  winInit : List Nat
  /-- TAG_FAIL events in the present 1 s window (R289). -/
  burst : Nat
  /-- Harrow: next line, passes, lines to rewrite on the next pass (R277, R298). -/
  harrowAt : Nat
  passes : Nat
  rewrite : List Nat
  /-- Last MGD_LATE_STOMP in ns (R292). -/
  stompAt : Option Nat
  /-- Frames whose gate timed out and whose lines have no verdict yet (R292). -/
  late : List Nat
  deriving DecidableEq, Repr

/-- The Memory Guard before B8. -/
def Mgd.reset : Mgd :=
  ⟨false, [], [], [], [], List.replicate 64 none, none, none, [], [], [], 0, 0, 0, [], none, []⟩

/-! ## Associations (chapter 10) -/

/-- An association context (R304). Slot roles, AN and salts are pairs for slots 2a and 2a + 1. -/
structure Ctx where
  kind : Nat
  owner : Nat
  flags : Word
  encOut : Nat
  encClass : Nat
  decClass : Nat
  decOut : Nat
  rxDomain : Nat
  an0 : Nat
  an1 : Nat
  oldHoldMs : Nat
  winnow : Nat
  txSci : List Byte
  rxSci : List Byte
  txSsci : List Byte
  rxSsci : List Byte
  salt0 : List Byte
  salt1 : List Byte
  txPnSoft : Nat
  startPn : Nat
  trib : Nat
  cloak : Nat
  txNext : Nat
  txMark : Nat
  rxHigh0 : Nat
  rxHigh1 : Nat
  rxMark : Nat
  rxOldMark : Nat
  smallMap : Nat
  sheafTop : Nat
  sheafMap : Nat
  flipPending : Bool
  flipIndex : Nat
  flipSheaf : Nat
  poisoned : Bool
  softSeen : Bool
  exhausted : Bool
  txSlot : Nat
  rxPrimary : Nat
  fresh0 : Bool
  fresh1 : Bool
  txWait : Bool
  /-- The instant in ns at which OLD_HOLD_LEFT reaches 0; 0 while it does not count. -/
  holdLeft : Nat
  counters : List Nat
  hostData : List Byte
  /-- The primary slot's winnow bits: bit p mod 16,384 for PN p (R325). -/
  seen : Nat
  /-- A slot that was neither primary nor fresh at a rebuild accepts nothing (R322). -/
  dead0 : Bool
  dead1 : Bool
  /-- A transmit mark store or a receive mark store is outstanding. -/
  markAsked : Bool
  rxAsked : Bool
  /-- ROTATE waits: its slot, and whether its store is durable (R335). -/
  rotating : Option (Nat × Bool)
  /-- PN_MARK_STALL was raised for the present stall; last CLOAK_TAG_FAIL in ns. -/
  stalled : Bool
  /-- The last PN a migration save permits (R533). -/
  cap : Option Nat
  /-- STALE holds the transmit SA (R440). -/
  held : Bool
  /-- PN_MARK_STALL was raised for the present receive stall. -/
  rxStalled : Bool
  tagFailAt : Option Nat
  deriving DecidableEq, Repr

/-- One SCI index key: domain, SCI, association (R314). -/
structure SciKey where
  domain : Nat
  sci : List Byte
  assoc : Nat
  deriving DecidableEq, Repr

/-- A command that waits for stores: unit, window, OP, stores outstanding, its CODE once they are durable, the ns at
which it began, and the association, group or slot it names (R393, R402, R338). -/
structure RunCmd where
  unit : Nat
  win : Nat
  op : Nat
  waits : Nat
  code : Nat
  started : Nat
  arg : Nat
  deriving DecidableEq, Repr

/-- Sheaf tag failures of a group's receive side in one sheaf, and in the sheaf before it (R143). -/
structure TagTally where
  sheaf : Nat
  fails : Nat
  before : Nat
  deriving DecidableEq, Repr

/-- The Association Engine. -/
structure Asc where
  /-- Contexts by association (R304). -/
  ctxs : SMap (Option Ctx)
  /-- SCI index by slot: way × 65,536 + bucket × 4 + slot (R314). -/
  sci : SMap (Option SciKey)
  /-- Tributary transmit streams: what is left of the item in progress, then whole items (R158, R159). The flag marks
  an item whose bytes the yoke does not let this twin send (R436). -/
  txItems : SMap (List (Bool × List Byte))
  /-- Sheaf tag failures by group, and the most recent tributary plus 1, 0 for none (R143). -/
  tagFails : SMap (Option TagTally)
  lastTrib : SMap Nat
  /-- Received cloaked sheaves awaiting their tag: tributary to sheaf number, slot, and whether the tag is right (R331). -/
  rxSheaf : SMap (Option (Nat × Nat × Bool))
  /-- Punted frames waiting for buffers: allotment, input, bytes (R315). -/
  punts : List (Nat × Nat × List Byte)
  /-- Tributaries left unserved this sheaf, transmit and receive; a short episode runs (R357). -/
  shortTx : List Nat
  shortRx : List Nat
  shortEp : Bool
  /-- The receive pairs that each cloaked tributary is assigned to since the last sheaf start (R357, R364). -/
  rxPairs : SMap (List Nat)
  /-- Sealed association record of each PERSIST association (R402). -/
  recOf : SMap (Option Nat)
  /-- Contexts of deleted associations, whose bytes stay with KIND 0 (R308). -/
  gone : SMap (Option Ctx)
  /-- Cached contexts, most recently used first (R306). -/
  cache : List Nat
  /-- Punts from cloaked tributaries that await their sheaf tags (R332). -/
  waitPunts : List (Nat × Nat × List Byte)
  deriving DecidableEq, Repr

/-- The Association Engine at reset. -/
def Asc.reset : Asc := ⟨[], [], [], [], [], [], [], [], [], false, [], [], [], [], []⟩

/-! ## Cipher Array (chapter 11) -/

/-- A pair (R344, CPH_PAIR_STATE): STATE, ROLE, IMAGE_ROLE, STANDS_FOR, RETIRE_CAUSE, mismatches since reset and in the
present 1 s window. -/
structure CPair where
  st : Nat
  role : Nat
  imageRole : Nat
  standsFor : Nat
  cause : Nat
  mismatches : Nat
  window : Nat
  deriving DecidableEq, Repr

/-- What a work item is (R358): an encrypt frame, decrypt frame, tributary sheaf each way, or lookaside job, by number. -/
inductive ItemKind where
  | encFrame (output : Nat)
  | decFrame (frame : Nat)
  | cloakTx (trib : Nat)
  | cloakRx (trib : Nat)
  | job (n : Nat)
  deriving DecidableEq, Repr

/-- A work item: its kind, the slots it holds snapshots of, their keys as the snapshot registers hold them (R358, R359), and the
pairs that run it: one, but for a cloak sheaf that is split (R364). -/
structure Item where
  kind : ItemKind
  slots : List Nat
  keys : List (List Byte)
  pairs : List Nat
  deriving DecidableEq, Repr

/-- A lookaside job (R366): allotment, ring, ring index, descriptor; once admitted its work item, pair, and the STATUS
and output that its computation gives; once ended its final STATUS and OUT_LEN, which wait for earlier jobs of the ring. -/
structure Job where
  allot : Nat
  ring : Nat
  idx : Nat
  desc : List Byte
  item : Option Nat
  pair : Nat
  status : Nat
  output : List Byte
  fin : Option (Nat × Nat)
  deriving DecidableEq, Repr

/-- The key cache of a cipher island (R395): the island's own mask key, and masked copies by slot code, most recently used
first. -/
structure KeyCache where
  mask : List Byte
  copies : List (Nat × List Byte)
  deriving DecidableEq, Repr

/-- The Cipher Array. -/
structure Cph where
  /-- Pairs 0 to 71 (R344). -/
  pairs : List CPair
  /-- Work items by number (R358). -/
  items : SMap (Option Item)
  /-- Number of the next work item (R358). -/
  nextItem : Nat
  /-- Lookaside jobs by number (R366). -/
  jobs : SMap (Option Job)
  /-- Number of the next job (R366). -/
  nextJob : Nat
  /-- Mismatches in the present 1 ms window (R350). -/
  burst : Nat
  /-- Vacant roles in time order: role and the pair they stand for (R354). -/
  vacant : List (Nat × Nat)
  /-- Pairs under a known-answer test, and the vacancy that one fills (R352, R354). -/
  testing : List (Nat × Option (Nat × Nat))
  /-- CPH_SPARES_EXHAUSTED was raised (R354). -/
  exhausted : Bool
  /-- A KAT command of the host runs on this pair (R351). -/
  cmd : Option Nat
  /-- DWRR of allotments in job bytes (R370): whose turn it is, deficits, and the last ring served of each. -/
  turn : Option Nat
  deficit : SMap Nat
  lastRing : SMap Nat
  /-- The key caches of islands 9 to 12 (R395). -/
  caches : List KeyCache
  deriving DecidableEq, Repr

/-- A pair not configured. -/
def CPair.reset : CPair := ⟨0, 0, 0, 0x7F, 0, 0, 0⟩

/-- The Cipher Array before B7. -/
def Cph.reset : Cph := ⟨List.replicate 72 CPair.reset, [], 0, [], 0, 0, [], [], false, none, none, [], [], List.replicate 4 ⟨[], []⟩⟩

/-! ## Key Vault (chapter 12) -/

/-- STATE of a slot (R387). -/
inductive KeyState where
  | empty | loaded | active | fallow | erased
  deriving DecidableEq, Repr

/-- A key slot: KEY masked (R386, R394), ATTR without STATE and MGEN, CHECK, mask generation, usage, fingerprint, in-flight count,
and which limits were reported since its load. -/
structure KeySlot where
  st : KeyState
  key : List Byte
  attr : Word
  check : List Byte
  mgen : Bool
  usage : Nat
  fp : Nat
  inflight : Nat
  softSeen : Bool
  hardSeen : Bool
  deriving DecidableEq, Repr

/-- A provisioning session (R398 to R400). -/
structure ProvSession where
  nonce : List Byte
  ecdhSeed : List Byte
  kemSeed : List Byte
  request : List Byte
  accepted : Bool
  records : List Byte
  imported : List Nat
  deriving DecidableEq, Repr

/-- An OTP provisioning anchor slot. -/
structure Anchor where
  hash : Option (List Byte)
  revoked : Bool
  deriving DecidableEq, Repr

/-- A life-cycle transition or re-seed that waits for its stores (R407, R408). -/
inductive LifeJob where
  | advance (target : LifeCycle)
  | reseed
  deriving DecidableEq, Repr

/-- The Key Vault. Slot code: data slot s is s, vault slot v is 131,072 + v. -/
structure Kvt where
  /-- Key slots by slot code (R386, R387). -/
  slots : SMap (Option KeySlot)
  /-- Owner of vault slots by grant (R388). -/
  grants : SMap Nat
  /-- The generator has started, and passes its health tests (R382, R383). -/
  rbgUp : Bool
  rbgHealthy : Bool
  /-- Generate requests since the last reseed (R382). -/
  rbgCount : Nat
  /-- B9 has ended (R403). -/
  unsealDone : Bool
  /-- The mask key of the slot store (R394). -/
  maskKey : Option (List Byte)
  /-- The key of the check values (R386). -/
  checkKey : Option (List Byte)
  /-- The key of the permutation of slot-store rows (R394). -/
  rowKey : Option (List Byte)
  /-- The mask generation, MGEN of a slot as last re-masked (R394). -/
  generation : Bool
  /-- The provisioning session (R398). -/
  session : Option ProvSession
  /-- K_seal of the present life-cycle state while held (R384). -/
  kSeal : Option (List Byte)
  /-- Public identity keys, ECDSA and ML-DSA (R384). -/
  pubEc : List Byte
  pubMl : List Byte
  /-- OTP provisioning anchors (R398). -/
  anchors : List Anchor
  /-- Life-cycle fuses as five bits MFG, DEV, PROD, RET, SCRAP (R405). -/
  fuses : Nat
  /-- Re-seed fuses burned (R408). -/
  reseeds : Nat
  /-- The life-cycle step that waits for its stores (R407). -/
  life : Option LifeJob
  /-- Commands of every unit that wait for stores or a time (R393, R402). -/
  runs : List RunCmd
  deriving DecidableEq, Repr

/-- The Key Vault at reset: every slot Empty. OTP fields are kept by the caller. -/
def Kvt.reset : Kvt :=
  ⟨[], [], false, true, 0, false, none, none, none, false, none, none, [], [], List.replicate 4 ⟨none, false⟩, 0, 0, none, []⟩

end Sys2Proof.Machine
end

