-- ==== Sys2Proof/Machine/StateYoke.lean ====
section
/-! DEFINITION. The part of State that chapter 13 gives the machine: pairing, the Dithal link, the two streams, marks,
digests, resync. -/

namespace Sys2Proof.Machine

open Sys2Proof

/-- A pairing in progress (R413 to R416): this twin is the initiator; its ephemeral secrets; its own message; the peer's
message and H_R once known; the pair key and whether this twin's CONFIRM has been sent. -/
structure Pairing where
  initiator : Bool
  ecdhSeed : List Byte
  kemSeed : List Byte
  own : List Byte
  peer : List Byte
  hr : List Byte
  key : List Byte
  deriving DecidableEq, Repr

/-- A Dithal data cell that awaits acknowledgement (R419, R420), with the number of times it was sent. -/
structure DCell where
  seq : Nat
  channel : Nat
  bytes : List Byte
  sends : Nat
  sentAt : Nat
  deriving DecidableEq, Repr

/-- A mark that waits to be durable (R438): KIND 1 transmit, 2 receive, 3 sheaf; association; value; this twin's store is
durable; the twin has acknowledged. -/
structure MarkWait where
  kind : Nat
  assoc : Nat
  mark : Nat
  stored : Bool
  acked : Bool
  deriving DecidableEq, Repr

/-- Output digests of one interval (R441, R442): entry to digest, and the excused entries. -/
structure Interval where
  no : Nat
  digest : SMap Nat
  excused : List Nat
  deriving DecidableEq, Repr

/-- The Yoke. -/
structure Yok where
  /-- Consecutive good cells of a lane without lock, consecutive bad cells of a lane with lock (R418). -/
  laneRun : SMap Nat
  /-- Stream bytes that wait for a place among the unacknowledged cells: channel and payload (R420). -/
  txWait : List (Nat × List Byte)
  /-- Half the last cell round trip in ns, YOK_LINK (R421). -/
  oneWay : Nat
  /-- Lanes with cell lock, bit n for lane n (R418). -/
  lanes : Nat
  /-- LOCKED of the recovered clock (R423). -/
  locked : Bool
  /-- The twin is lost, or the lead is silent (R445, R447). -/
  twinLost : Bool
  /-- SUSPECT for this many more intervals. -/
  suspect : Nat
  /-- RESYNC_STEP (R449). -/
  step : Nat
  /-- PAIR_CODE (R416). -/
  pairCode : Nat
  /-- PAIRED (R416). -/
  paired : Bool
  /-- A pairing in progress (R413). -/
  pairing : Option Pairing
  /-- The twin's last reported or known mode code (R426). -/
  twinMode : Nat
  /-- Outputs of this twin are muted by the yoke: a divergence, resync, silence, handover (R443, R447, R448). -/
  muted : Bool
  /-- Cells unacknowledged, oldest first (R419). -/
  unacked : List DCell
  /-- Next SEQ to send, and the SEQ expected (R419). -/
  nextSeq : Nat
  expect : Nat
  /-- Cells are discarded after a failure until the expected one comes (R420). -/
  discarding : Bool
  /-- The ns at which the latest EPOCH item, or the beginning of the stream, came (R447). -/
  heardAt : Nat
  /-- The latest epoch of the stream (R424). -/
  epoch : Nat
  /-- Records numbered per input (R427). -/
  recNo : SMap Nat
  /-- Frames received and not yet matched, per input (R432). -/
  buffers : SMap (List Frame)
  /-- B_MUTE of a YIELD (R445). -/
  bMute : Option Nat
  /-- B_H of a handover (R448). -/
  bHand : Option Nat
  /-- Marks that wait to be durable on both twins (R438). -/
  marks : List MarkWait
  /-- Digests of the present interval, and of intervals not yet compared (R441). -/
  cur : Interval
  past : List Interval
  /-- Consecutive intervals with matching digests and nothing excused (R448, R449). -/
  clean : Nat
  /-- ALT index of an outstanding REPAIR_REQ (R437). -/
  repair : Option Nat
  /-- The ns of the trigger of a resync, or of its failure (R449). -/
  resyncAt : Nat
  /-- Copy pointers by table (R450). -/
  copied : SMap Nat
  /-- Tributaries whose bytes are zeros to the end of the sheaf, and the ns from which on (R347, R436). -/
  zeroed : List (Nat × Nat)
  /-- A command of YOK_CMD runs. -/
  cmd : Option Nat
  /-- Largest arrival difference of matched frames in the present second, in ns, and whether this twin's copy was the
  later one; blocks after the lead's to which a matched frame arrived (YOK_SKEW). -/
  skewNs : Nat
  skewLater : Bool
  deriving DecidableEq, Repr

/-- The Yoke at reset. -/
def Yok.reset : Yok :=
  ⟨[], [], 0, 0, false, false, 0, 0, 0, false, none, 0, false, [], 0, 0, false, 0, 0, [], [], none, none, [], ⟨0, [], []⟩, [], 0, none, 0, [], [], none, 0, false⟩

end Sys2Proof.Machine
end

