-- ==== Sys2Proof/Machine/State.lean ====
section
/-! DEFINITION. The state of the LM3216, its fault and refusal reasons, and the state right after reset. -/

namespace Sys2Proof.Machine

open Sys2Proof

/-- Reasons the machine stops with a fault. -/
inductive Fault where
  /-- Raised by no meaning at present: the spec describes the outcome of every fault. Safe. -/
  | none
  deriving DecidableEq, Repr

/-- Reasons a command has no meaning. -/
inductive Refusal where
  /-- Raised by an arm of exec whose command has no meaning yet. Safe: nothing is claimed of it. -/
  | notModelled (mnemonic : String)
  deriving DecidableEq, Repr

/-- Everything the spec gives the machine. -/
structure State where
  /-- Register fields with no other home, by Device Window offset; the private copy of allotment n (R511) lies
  n × 0x0200_0000 higher. -/
  regs : SMap Word
  /-- Shadow copies of R7, by path × 2^32 + register key. -/
  shadow : SMap Word
  /-- 64-bit and 48-bit unit counters, by the Device Window offset of their low word. -/
  cnt : SMap Nat
  /-- Units whose next command is armed (R571). -/
  armed : List Nat
  /-- ns since module reset, counted by Time's 1.0 GHz cycles. -/
  now : Nat
  ctl : Control
  pow : Power
  boot : Boot
  led : Ledger
  hdg : Hedge
  hif : HostIf
  tim : TimeSt
  mram : Mram
  st : Stores
  fab : Fabric
  line : Line
  rows : Rows
  cls : Cls
  sch : Sch
  mgd : Mgd
  asc : Asc
  cph : Cph
  kvt : Kvt
  yok : Yok
  /-- Commands held, not failed: while their allotment is frozen (R531) or during a Recovery (R111). -/
  held : List Instr
  /-- The model's own fields: what has been emitted, oldest first; the number of free values drawn. -/
  out : List Output
  free : Nat
  /-- Commands waiting, first in first out. -/
  pending : List Instr
  deriving DecidableEq, Repr

/-- The machine right after reset (R126, STW_MODE): Boot before its step B1, entered from Power Rise; every register at its
reset value, no image loaded, every island in reset. -/
def State.reset : State :=
  { regs := [], shadow := [], cnt := [], armed := [], now := 0, ctl := Control.cold, pow := Power.cold, boot := Boot.blank
    led := Ledger.blank, hdg := Hedge.blank, hif := HostIf.reset, tim := TimeSt.reset, mram := Mram.blank, st := Stores.idle
    fab := Fabric.reset 0, line := Line.reset, rows := Rows.reset, cls := Cls.reset, sch := Sch.reset, mgd := Mgd.reset
    asc := Asc.reset, cph := Cph.reset, kvt := Kvt.reset, yok := Yok.reset, held := [], out := [], free := 0, pending := [] }

end Sys2Proof.Machine
end

