-- ==== Sys2Proof/Machine/Regs.lean ====
section
/-! DEFINITION. Reading and writing the register file, counters, free values and outputs: the accessors every meaning
goes through. -/

namespace Sys2Proof.Machine

open Sys2Proof

/-- One element of a list changed in place. -/
def modAt {α : Type} (f : α → α) : List α → Nat → List α
  | [], _ => []
  | x :: xs, 0 => f x :: xs
  | x :: xs, n + 1 => x :: modAt f xs n

/-! ## The register file -/

/-- Where the private copy of allotment n of a register lies; allotment 0 and the Device Window share one (R512). -/
def privKey (n off : Nat) : Nat := n * 0x2000000 + off

/-- What an unwritten register reads as. -/
def regDefault (k : Nat) : Word := BitVec.ofNat 32 (regReset (k % 0x2000000))

/-- The register home at a key. -/
def State.rd (s : State) (k : Nat) : Word := SMap.get regDefault s.regs k

/-- The state with a register home replaced. -/
def State.wr (s : State) (k : Nat) (v : Word) : State := { s with regs := SMap.set regDefault s.regs k v }

/-- A field of a register, as a number. -/
def State.fld (s : State) (k hi lo : Nat) : Nat := bits (s.rd k) hi lo

/-- The state with one field of a register replaced. -/
def State.setFld (s : State) (k hi lo v : Nat) : State := s.wr k (setBits (s.rd k) hi lo v)

/-- One flag bit of a register. -/
def State.flg (s : State) (k b : Nat) : Bool := bit (s.rd k) b

/-- The state with one bit of a register set to a value. -/
def State.setFlg (s : State) (k b : Nat) (v : Bool) : State := s.setFld k b b (flag v)

/-- The registers of a range of keys put back to reset. -/
def State.clearRegs (s : State) (lo hi : Nat) : State := { s with regs := SMap.dropRange s.regs lo hi }

/-! ## Results of command units: CODE in bits [7:0], DONE in bit 16 -/

/-- A command ends: its result register takes CODE and DONE is set; other fields of the register are as given. -/
def State.result (s : State) (k code : Nat) : State :=
  s.wr k (setBits (setBits (s.rd k) 7 0 code) 16 16 1)

/-! ## Counters and arming -/

/-- A 64-bit or 48-bit counter. -/
def State.count (s : State) (k : Nat) : Nat := SMap.get zeroOf s.cnt k

/-- A counter advanced by n. -/
def State.incBy (s : State) (k n : Nat) : State := { s with cnt := SMap.set zeroOf s.cnt k (s.count k + n) }

/-- A counter advanced by 1. -/
def State.inc (s : State) (k : Nat) : State := s.incBy k 1

/-- A unit's arm is cleared (R571). -/
def State.disarm (s : State) (unit : Nat) : State := { s with armed := s.armed.filter (· != unit) }

/-- A unit's next command is armed. -/
def State.isArmed (s : State) (unit : Nat) : Bool := s.armed.contains unit

/-! ## Free values and outputs -/

/-- The next free value of w bits is drawn: the number of draws advances. -/
def State.draw (s : State) : Nat × State := (s.free, { s with free := s.free + 1 })

/-- Bits are drawn from the generator: a number of draws. A generate request is counted; after 65,536 of them the generator
reseeds (R382). -/
def State.rbgTake (s : State) (k : Nat) : Nat × State :=
  let again := decide (65536 ≤ s.kvt.rbgCount + 1)
  (s.free, { s with free := s.free + k + flag again, kvt := { s.kvt with rbgCount := if again then 0 else s.kvt.rbgCount + 1 } })

/-- Something leaves the module. -/
def State.emit (s : State) (o : Output) : State := { s with out := s.out ++ [o] }

/-- What the DMA writes of allotment n carry: its PASID while PASID_EN is 1 (R513), Relaxed Ordering on payload while RO_EN is 1 and
on no record (R509). -/
def State.dmaTag (s : State) (n : Nat) (payload : Bool) : DmaTag :=
  ⟨n, if s.flg (Reg.hifAllotCtrl n) 31 then some (s.fld (Reg.hifAllotCtrl n) 19 0) else none, payload && s.flg Reg.hifLinkCfg 8⟩

/-- A DMA write for allotment n. -/
def State.dma (s : State) (n : Nat) (payload : Bool) (addr : Nat) (bs : List Byte) : State :=
  s.emit (.hostWrite (s.dmaTag n payload) addr bs)

/-! ## Codes of the enumerated state -/

/-- R96. -/
def Mode.code : Mode → Nat
  | .sentry => 0 | .powerRise => 1 | .boot => 2 | .calibrate => 3 | .ready => 4 | .service => 5
  | .yokeLead => 6 | .yokeFollower => 7 | .yokeResync => 8 | .selfTest => 9 | .recovery => 10 | .zeroized => 11

/-- STW_MODE.LIFECYCLE. -/
def LifeCycle.code : LifeCycle → Nat
  | .raw => 0 | .manufacture => 1 | .development => 2 | .production => 3 | .returned => 4 | .scrapped => 5

/-- R80. -/
def SlotState.code : SlotState → Nat
  | .empty => 0 | .writing => 1 | .written => 2 | .trial => 3 | .good => 4 | .bad => 5

/-- STW_HOLDUP_V.STATE. -/
def BankState.code : BankState → Nat
  | .empty => 0 | .charging => 1 | .full => 2 | .holding => 3 | .bleeding => 4 | .fault => 5

/-- HIF_ALLOT_STATE.STATE. -/
def AllotState.code : AllotState → Nat
  | .absent => 0 | .idle => 1 | .running => 2 | .frozen => 3 | .resetting => 4 | .freezing => 5

/-- TIM_CH_CTRL.STATE. -/
def ChState.code : ChState → Nat
  | .stopped => 0 | .running => 1 | .acquiring => 2 | .locked => 3 | .holdover => 4

/-- The modes in which any alarm erases keys (R14, R98). -/
def Mode.erases : Mode → Bool
  | .powerRise | .boot | .calibrate | .selfTest | .recovery => true
  | _ => false

/-- The Yoke modes. -/
def Mode.isYoke : Mode → Bool
  | .yokeLead | .yokeFollower | .yokeResync => true
  | _ => false

/-- The modes in which frames are carried (R96). -/
def Mode.carries : Mode → Bool
  | .service | .yokeLead | .yokeFollower => true
  | _ => false

/-! ## The decision stream (R426, R428) -/

/-- A control item: byte 0 is 0x80 + TYPE, byte 1 is 0, then the whole item's size. -/
def yokeItem (type : Nat) (content : List Byte) : List Byte :=
  let c := if content.length % 2 = 0 then content else content ++ [0]
  beBytes 1 (128 + type) ++ beBytes 1 0 ++ beBytes 2 (c.length + 4) ++ c

/-- The 272 bytes of a Dithal cell (R419): kind and channel, payload, SEQ, the SEQ last received in order, NAK. -/
def dithalCell (kind channel : Nat) (bs : List Byte) (seq ack : Nat) (nak : Bool) : List Byte :=
  let b := [0xD1#8, 0x7A#8] ++ beBytes 1 (kind * 64 + channel * 16) ++ beBytes 1 (bs.length - 1) ++ beBytes 3 seq ++ beBytes 3 ack ++
    beBytes 1 (flag nak * 128) ++ [0] ++ slice bs 0 256
  b ++ beBytes 4 (crc32 b)

/-- The Dithal lanes are in use: their island runs, and neither a Boot hold (R88) nor Zeroized (T21) keeps outputs off. -/
def State.dithalOn (s : State) : Bool :=
  s.fab.live.contains 8 && !s.fab.inReset.contains 8 && !(s.ctl.mode == .boot && s.boot.phase == 11) && s.ctl.mode != .zeroized

/-- A cell leaves on its lane (R418). -/
def State.emitCell (s : State) (kind : Nat) (c : DCell) : State :=
  if s.dithalOn = false then s
  else s.emit (.dithalCell (c.seq % 4) (dithalCell kind c.channel c.bytes c.seq ((s.yok.expect + 0xFFFFFF) % 0x1000000) s.yok.discarding))

/-- The next waiting payload: channels 0 and 1 go before channel 2 (R420). -/
def nextPayload (q : List (Nat × List Byte)) : Option ((Nat × List Byte) × List (Nat × List Byte)) :=
  match q.find? (fun p => p.1 != 2) with
  | some p => some (p, q.erase p)
  | none => match q with
    | [] => none
    | p :: ps => some (p, ps)

/-- Waiting payload leaves as data cells while fewer than 512 are unacknowledged (R420). -/
def State.fillCells (s : State) : Nat → State
  | 0 => s
  | k + 1 =>
    if 512 ≤ s.yok.unacked.length then s
    else match nextPayload s.yok.txWait with
      | none => s
      | some ((ch, bs), rest) =>
        let c : DCell := ⟨s.yok.nextSeq, ch, bs, 1, s.now⟩
        State.fillCells (({ s with yok := { s.yok with
          unacked := s.yok.unacked ++ [c], nextSeq := (c.seq + 1) % 0x1000000, txWait := rest } }).emitCell 1 c) k

/-- Bytes join a Dithal channel's stream, which cells of at most 256 B carry; without a link nothing is sent. -/
def State.sendDithal (s : State) (channel : Nat) (bs : List Byte) : State :=
  if s.yok.lanes = 15 ∧ s.dithalOn then
    let parts := (List.range ((bs.length + 255) / 256)).map (fun i => (channel, (bs.drop (256 * i)).take 256))
    let s := s.emit (.dithal channel bs)
    ({ s with yok := { s.yok with txWait := s.yok.txWait ++ parts } }).fillCells 512
  else s

/-- A lead sends a control item on the decision stream, channel 0. -/
def State.convey (s : State) (type : Nat) (content : List Byte) : State :=
  if s.ctl.mode = .yokeLead then s.sendDithal 0 (yokeItem type content) else s

/-- A follower or resyncing twin sends a control item on the reverse stream, channel 1. -/
def State.report (s : State) (type : Nat) (content : List Byte) : State :=
  if s.ctl.mode = .yokeFollower ∨ s.ctl.mode = .yokeResync then s.sendDithal 1 (yokeItem type content) else s

/-! ## Time of records -/

/-- Channel c. -/
def State.chan (s : State) (c : Nat) : Channel := s.tim.chans.getD c Channel.idle

/-- Nanoseconds of a value in units of 2^-40 ns. -/
def nsOf (v : Nat) : Nat := v / 2 ^ 40

/-- The value of a channel now, in units of 2^-40 ns; 0 while STOPPED (R454, R455, R457). -/
def State.chanValue (s : State) (c : Nat) : Nat :=
  let ch := s.chan c
  if ch.st = .stopped then 0
  else if c < 12 then ch.value
  else
    let tp := (s.chan ch.parent).value
    ((tp : Int) + ch.offO + ((tp : Int) - ch.offA) * ch.freq / 2 ^ 40).toNat

/-- The time an event record takes: seconds, nanoseconds, TIME_VALID (R543, R18). -/
def State.logTime (s : State) : Nat × Nat × Bool :=
  let c := s.fld Reg.timCfg 15 12
  if (s.chan c).st = .stopped then (s.now / 1000000000, s.now % 1000000000, false)
  else
    let n := nsOf (s.chanValue c)
    (n / 1000000000, n % 1000000000, true)

/-- The descriptor timestamp of allotment n: the 64-bit form of its channel modulo 2^32 (R469). -/
def State.descTime (s : State) (n : Nat) : Nat :=
  nsOf (s.chanValue (s.fld (Reg.timAllotCh n) 3 0)) % 2 ^ 32

end Sys2Proof.Machine
end

