-- ==== Sys2Proof/Machine/Note.lean ====
section
/-! DEFINITION. Recording an event: counters, fold, staging, the event rings, STW_ALERT and the in-band interrupt
(R542 to R551, R554, R525 to R527, R540). Nothing here performs a response above level 1. -/

namespace Sys2Proof.Machine

open Sys2Proof

/-! ## Record bytes -/

/-- The 60 bytes of an event record before its CRC (R542). -/
def EvRec.body (r : EvRec) : List Byte :=
  beBytes 2 r.code ++ beBytes 1 r.level ++ beBytes 1 r.params.length ++ beBytes 4 r.seq ++
  beBytes 8 r.timeS ++ beBytes 4 r.timeNs ++ beBytes 4 r.rep ++ beBytes 4 r.spanUs ++
  beBytes 1 r.allot ++ beBytes 1 r.mode ++ beBytes 2 (if r.valid then 0x8000 else 0) ++ slice r.params 0 28

/-- The 64 bytes of an event record (R542). -/
def EvRec.bytes (r : EvRec) : List Byte := r.body ++ beBytes 4 (crc32 r.body)

/-! ## Interrupts -/

/-- The words of the MSI-X table before they are written: every vector control word has its mask bit set, as PCI Express
leaves it (PRESUMED). -/
def msixDefault (w : Nat) : Nat := if w % 4 = 3 then 1 else 0

/-- Vector v is masked by its table entry. -/
def State.vectorMasked (s : State) (v : Nat) : Bool := (SMap.get msixDefault s.hif.msix (4 * v + 3)).testBit 0

/-- Vector v fires (R526), or stays pending while it is masked (R527). -/
def State.fire (s : State) (v : Nat) : State :=
  if s.vectorMasked v then
    { s with hif := { s.hif with pba := if s.hif.pba.contains v then s.hif.pba else v :: s.hif.pba } }
  else s.emit (.msix v)

/-- A record of vector v (0 completion, 1 event) of allotment n was written: the vector coalesces under R527. -/
def State.signal (s : State) (n v : Nat) : State :=
  let cfg := privKey n Reg.hifIrqCfg
  let lim := if s.fld cfg 23 16 = 0 then 1 else s.fld cfg 23 16
  let u := SMap.get zeroOf s.hif.unsig (n * 2 + v) + 1
  if s.fld cfg 9 0 = 0 ∨ lim ≤ u then
    ({ s with hif := { s.hif with unsig := SMap.set zeroOf s.hif.unsig (n * 2 + v) 0 } }).fire (32 * n + v)
  else { s with hif := { s.hif with
    unsig := SMap.set zeroOf s.hif.unsig (n * 2 + v) u
    unsigAt := if u = 1 then SMap.set zeroOf s.hif.unsigAt (n * 2 + v) s.now else s.hif.unsigAt } }

/-! ## Rings -/

/-- Ring r of allotment n is enabled. -/
def State.ringOn (s : State) (n r : Nat) : Bool := s.flg (privKey n (Reg.hifRingCfg r)) 31

/-- S of ring r of allotment n (R515, clamped to 4 to 16). -/
def State.ringLog2 (s : State) (n r : Nat) : Nat := clamp 4 16 (s.fld (privKey n (Reg.hifRingCfg r)) 4 0)

/-- Module and host index of a ring, modulo 2^16. -/
def State.ringM (s : State) (n r : Nat) : Nat := SMap.get zeroOf s.hif.ringMod (n * 16 + r)
def State.ringH (s : State) (n r : Nat) : Nat := SMap.get zeroOf s.hif.ringHost (n * 16 + r)

/-- The base address of a ring. -/
def State.ringBase (s : State) (n r : Nat) : Nat :=
  (s.rd (privKey n (Reg.hifRingBaseLo r))).toNat / 4096 * 4096 + (s.rd (privKey n (Reg.hifRingBaseHi r))).toNat * 2 ^ 32

/-- A module-written ring (11, 12) holds 2^S − 1 entries outstanding (R515). -/
def State.ringFull (s : State) (n r : Nat) : Bool :=
  decide (2 ^ s.ringLog2 n r - 1 ≤ (s.ringM n r + 65536 - s.ringH n r) % 65536)

/-- PHASE of the next entry of a module-written ring: 1 on the first pass, inverted on each wrap (R516). -/
def State.ringPhase (s : State) (n r : Nat) : Nat := 1 - s.ringM n r / 2 ^ s.ringLog2 n r % 2

/-- The module writes the next entry of ring 11 or 12 and advances its index. The index keeps one pass bit above
2^16 so that PHASE follows every wrap at S = 16. -/
def State.ringPut (s : State) (n r size : Nat) (bs : List Byte) : State :=
  let m := s.ringM n r
  let slot := m % 2 ^ s.ringLog2 n r
  let s := s.dma n false (s.ringBase n r + slot * size) bs
  { s with hif := { s.hif with ringMod := SMap.set zeroOf s.hif.ringMod (n * 16 + r) ((m + 1) % 131072) } }

/-- The allotment exists: its id is below the image's COUNT; allotment 0 always does (R71). -/
def State.allotExists (s : State) (n : Nat) : Bool :=
  match s.boot.image with
  | some im => decide (n < im.allotCount)
  | none => decide (n = 0)

/-- One event ring entry (R525). -/
def evEntry (s : State) (n : Nat) (r : EvRec) : List Byte :=
  let ovf := s.hif.ringOvf.contains n
  let p := slice r.params 0 20
  let last := setBits (BitVec.ofNat 32 (ofBe (slice p 16 4))) 31 31 (s.ringPhase n 12)
  beBytes 2 r.code ++ beBytes 1 r.level ++ beBytes 1 (flag ovf) ++ beBytes 4 (s.descTime n) ++ beBytes 4 r.seq ++
  slice p 0 16 ++ beBytes 4 last.toNat

/-! ## Opening, folding, closing -/

/-- The number of records that may be staged, open and queued (R544, R547, R551). -/
def stageCap : Nat := 1024
def openCap : Nat := 64

/-- The staged record that R551 replaces: the oldest whose LEVEL is below lvl. -/
def dropOldestBelow (lvl : Nat) : List Staged → Option (List Staged)
  | [] => none
  | r :: rs => if r.rcd.level < lvl then some rs else (dropOldestBelow lvl rs).map (r :: ·)

/-- A record closes at now and enters staging; the flag tells that a record was lost (R551). A record below STORE_LEVEL is
not staged (R546); an unhealthy log discards what it staged (R553). -/
def Ledger.close (l : Ledger) (now : Nat) (keep : Bool) (r : EvRec) : Ledger × Bool :=
  if keep = false ∨ l.unhealthy then (l, false)
  else if l.staged.length < stageCap then ({ l with staged := l.staged ++ [⟨now, r⟩] }, false)
  else
    match dropOldestBelow r.level l.staged with
    | some rest => ({ l with staged := rest ++ [⟨now, r⟩] }, true)
    | none => (l, true)

/-- The oldest open record closes at now. -/
def Ledger.closeOldest (l : Ledger) (now : Nat) : Ledger × Bool :=
  match l.opened with
  | [] => (l, false)
  | o :: os => ({ l with opened := os }).close now o.keep o.rcd

/-- An occurrence matches an open record: same CODE, ALLOT and PARAMS bytes 0 to 7 (R544). -/
def OpenRec.matches (o : OpenRec) (code allot : Nat) (params : List Byte) : Bool :=
  o.rcd.code == code && o.rcd.allot == allot && slice o.rcd.params 0 8 == slice params 0 8

/-- The occurrence folded into a record: REPEAT and SPAN_US rise, saturating (R542). -/
def OpenRec.fold (o : OpenRec) (now : Nat) : OpenRec :=
  { o with rcd := { o.rcd with
      rep := satAdd 0xFFFFFFFF o.rcd.rep 1
      spanUs := if 0xFFFFFFFF < (now - o.first) / 1000 then 0xFFFFFFFF else (now - o.first) / 1000 } }

/-- Fold into the first matching open record whose hold ns are not over, if one exists. -/
def foldInto (code allot : Nat) (params : List Byte) (hold now : Nat) : List OpenRec → Option (List OpenRec)
  | [] => none
  | o :: os =>
    if o.matches code allot params && decide (now < o.first + hold) then some (o.fold now :: os)
    else (foldInto code allot params hold now os).map (o :: ·)

/-- FOLD_MS in ns (R544, clamped to 1 to 10,000 ms). -/
def State.foldNs (s : State) : Nat := clamp 1 10000 (s.fld Reg.logCfg 15 0) * 1000000

/-- The event counter of a code advances, saturating at 2^48 − 1 (R554). -/
def Ledger.bump (l : Ledger) (code : Nat) : Ledger :=
  { l with evc := SMap.set zeroOf l.evc code (satAdd (2 ^ 48 - 1) (SMap.get zeroOf l.evc code) 1) }

/-- LOG_LOST.STAGE_LOST rises, saturating. -/
def State.stageLost (s : State) : State :=
  s.setFld Reg.logLost 31 16 (satAdd 65535 (s.fld Reg.logLost 31 16) 1)

/-! ## Notifying -/

/-- ALERT_N follows its causes (R58): STW_ALERT.PENDING, and a power-fail sequence from its step 1 on. -/
def State.driveAlert (s : State) : State :=
  let low := s.flg Reg.stwAlert 8 || s.pow.failAlert
  if s.pow.alertN = low then s else ({ s with pow := { s.pow with alertN := low } }).emit (.alertN low)

/-- STW_ALERT.PENDING is set if the level is at least MIN_LEVEL (6 and 7 set nothing); when it rises, allotment 0's
vector 3 fires (R526), ALERT_N is asserted (R58) and an IBI is raised while IBIs are enabled (R540). -/
def State.alert (s : State) (level : Nat) : State :=
  let m := s.fld Reg.stwAlert 2 0
  if 5 < m ∨ level < m then s
  else if s.flg Reg.stwAlert 8 then s
  else
    let s := ((s.setFlg Reg.stwAlert 8 true).driveAlert).fire 3
    if s.hif.ibiEn ∧ s.hif.dynAddr.isSome then s.emit (.ibi s.ctl.lastLevel s.ctl.lastCode) else s

/-- Post a record to one allotment's event ring; the flag tells that the entry was dropped (R525). -/
def State.postTo (s : State) (n : Nat) (r : EvRec) : State × Bool :=
  if s.allotExists n = false ∨ s.ringOn n 12 = false ∨ s.hif.linkUp = false then (s, false)
  else if s.ringFull n 12 then
    let h := { s.hif with ringOvf := if s.hif.ringOvf.contains n then s.hif.ringOvf else n :: s.hif.ringOvf }
    (({ s with hif := h }).inc (Reg.hifCountLo 4), true)
  else
    let s1 := s.ringPut n 12 32 (evEntry s n r)
    let s2 := { s1 with hif := { s1.hif with ringOvf := s1.hif.ringOvf.filter (· != n) } }
    ((s2.inc (Reg.hifCountLo 3)).signal n 1, false)

/-- Post to a list of allotments. -/
def State.postAll (s : State) (r : EvRec) : List Nat → State × Bool
  | [] => (s, false)
  | n :: ns =>
    let (s, d) := s.postTo n r
    let (s, d') := State.postAll s r ns
    (s, d || d')

/-- An event is counted and its record formed, with the time t at which the event occurred. lost tells that staging lost a
record, dropped that a ring was full. -/
def State.noteCore (s : State) (t : Nat × Nat × Bool) (code level allot : Nat) (owners : List Nat) (params : List Byte) :
    State × Bool × Bool :=
  if s.ctl.mode = .sentry then (s, false, false)
  else
    let led := s.led.bump code
    let folds := decide (level ≤ 2) && s.flg Reg.logCfg 30
    match (if folds then foldInto code allot params s.foldNs s.now led.opened else none) with
    | some os => ({ s with led := { led with opened := os } }, false, false)
    | none =>
      let (ts, tn, v) := t
      let stl := clamp 0 5 (s.fld Reg.logCfg 26 24)
      let r : EvRec := ⟨code, level, led.seq, ts, tn, v, 0, 0, allot, s.ctl.mode.code, params⟩
      let led := { led with seq := led.seq + 1 }
      let keep := decide (stl ≤ level)
      let (led, lost) :=
        if folds then
          let (led, lost) := if led.opened.length < openCap then (led, false) else led.closeOldest s.now
          ({ led with opened := led.opened ++ [⟨s.now, keep, r⟩] }, lost)
        else led.close s.now keep r
      let s := { s with led := led }
      let s := if lost then s.stageLost else s
      let (s, dropped) :=
        if 1 ≤ level then s.postAll r (0 :: owners.filter (· != 0)) else (s, false)
      (s.alert level, lost, dropped)

/-- LOG_STAGE_LOST is due: once per freeze, or once per second while not frozen (R551). -/
def Ledger.stageReportDue (l : Ledger) (now : Nat) : Bool :=
  match l.stageLostAt with
  | none => true
  | some t => if l.frozen then decide (t < l.freezeStart) else decide (t + 1000000000 ≤ now)

/-- The events after which a yoke lead is SUSPECT for 2 intervals, besides those at level 2 or higher (R443). -/
def suspectCodes : List Nat :=
  [Ev.cphRetryFail.code, Ev.tagFail.code, Ev.altEccUncorr.code, Ev.kvtSlotCheckFail.code, Ev.busCodeFail.code]

/-- R443: the lead becomes SUSPECT. -/
def State.suspectAfter (s : State) (code level : Nat) : State :=
  if s.ctl.mode = .yokeLead ∧ (2 ≤ level ∨ suspectCodes.contains code) then { s with yok := { s.yok with suspect := 2 } }
  else s

/-- An event that occurred at time t is recorded: counter, record, ring entries, alert; then the reports that recording itself
gives rise to. -/
def State.noteAt (s : State) (t : Nat × Nat × Bool) (code level allot : Nat) (owners : List Nat) (params : List Byte) : State :=
  let s := s.suspectAfter code level
  let params := if Ev.carrying.contains code then params else []
  let (s, lost, dropped) := s.noteCore t code level allot owners params
  let s := if dropped then (s.noteCore t Ev.eventRingOverflow.code 0 0xFF [] []).1 else s
  if lost ∧ s.led.stageReportDue s.now then
    let s := { s with led := { s.led with stageLostAt := some s.now } }
    (s.noteCore t Ev.logStageLost.code 1 0xFF [] []).1
  else s

/-- An event of the present moment is recorded. -/
def State.noteAs (s : State) (code level allot : Nat) (owners : List Nat) (params : List Byte) : State :=
  s.noteAt s.logTime code level allot owners params

/-- An event of level 0 or 1 that names no allotment. -/
def State.note (s : State) (k : EvKind) (params : List Byte := []) : State := s.noteAs k.code k.level 0xFF [] params

/-- An event of level 0 or 1 whose record names something an allotment owns (R525). -/
def State.noteFor (s : State) (k : EvKind) (owner : Nat) (params : List Byte := []) : State :=
  s.noteAs k.code k.level owner [owner] params

/-! ## Changing the mode -/

/-- The twin on the reverse stream reports a mode with STALE, MUTED and its resync step (TYPE 0x24 of R428). -/
def State.reportMode (s : State) (m : Mode) : State :=
  s.report 0x24 (beBytes 1 m.code ++ beBytes 1 (flag s.mram.stale * 2 + flag s.yok.muted) ++ zeroBytes 2 ++ beBytes 4 s.yok.step)

/-- The mode changes: MODE_CHANGE is recorded with the old and the new code (R99, R129). A twin that stops following
tells its lead. -/
def State.setMode (s : State) (m : Mode) : State :=
  let old := s.ctl.mode
  if old = m then s
  else
    let s := if m = .yokeFollower ∨ m = .yokeResync then s else s.reportMode m
    let s := { s with ctl := { s.ctl with mode := m, prevMode := old } }
    s.note Ev.modeChange (beBytes 1 old.code ++ beBytes 1 m.code)

end Sys2Proof.Machine
end

