-- ==== Sys2Proof/Machine/Complete.lean ====
section
/-! DEFINITION. Completion records of the rings and the end of a unit's command (R372, R516, R520, R521), and the block
counter (R262). -/

namespace Sys2Proof.Machine

open Sys2Proof

/-! ## The block counter -/

/-- B = S × 20,500 + j (R262): j is the number of 0.32 ns blocks since the sheaf began. -/
def State.blockNo (s : State) : Nat :=
  let j := (s.now - s.line.sheafAt) * 25 / 8
  s.line.sheaf * 20500 + (if 20499 < j then 20499 else j)

/-! ## Completion records -/

/-- The 16 bytes of a completion record but for PHASE (R372, R521). -/
def completion (jobId status pair b67 outLen idx ring : Nat) : List Byte :=
  leBytes 4 jobId ++ beBytes 1 status ++ beBytes 1 pair ++ beBytes 2 b67 ++ leBytes 4 outLen ++ leBytes 4 (idx % 65536 * 256 + ring)

/-- A record joins allotment n's completion ring with its PHASE and is signalled (R516, R527). Without a link, or with
the ring disabled, no record is written (R530). -/
def State.complete (s : State) (n jobId status pair b67 outLen idx ring : Nat) : State :=
  if s.hif.linkUp = false ∨ s.ringOn n 11 = false then s
  else
    let word := idx % 65536 * 256 + ring + s.ringPhase n 11 * 2 ^ 31
    ((s.ringPut n 11 16 ((completion jobId status pair b67 outLen idx ring).take 12 ++ leBytes 4 word)).inc (Reg.hifCountLo 2)).signal n 0

/-- Output bytes of a ring command of a unit (R519), read from the window's command registers. -/
def State.ringOutput (s : State) (c : RingCmd) : List Byte :=
  let words := fun (f : Nat → Nat) (k : Nat) => (List.range k).flatMap (fun w => beBytes 4 (s.rd (privKey c.allot (f w))).toNat)
  match c.unit with
  | 5 => if c.op ≤ 4 then words Reg.clsCmdEntry 8 ++ leBytes 4 (s.rd (privKey c.allot Reg.clsCmdIndex)).toNat else []
  | 6 => if c.op = 1 then (List.range 4).flatMap (fun w => leBytes 4 (s.rd (privKey c.allot (Reg.schTblData w))).toNat) else []
  | 8 => if c.op = 1 then words Reg.ascCmdData 128 else []
  | 10 => if c.op = 6 then
      leBytes 4 (s.rd (privKey c.allot Reg.kvtCmdAttr)).toNat ++ leBytes 4 (s.rd (privKey c.allot Reg.kvtCmdUsageLo)).toNat ++
      leBytes 4 (s.rd (privKey c.allot Reg.kvtCmdUsageHi)).toNat ++ leBytes 4 (s.rd (privKey c.allot Reg.kvtCmdFpLo)).toNat ++
      leBytes 4 (s.rd (privKey c.allot Reg.kvtCmdFpHi)).toNat
    else []
  | _ => []

/-- A unit's command of window n ends with CODE in its result register; if a ring issued it, output data and completion
record follow (R520), or code 0xF2 where the output fails (R508). -/
def State.cmdEnd (s : State) (unit n off code : Nat) : State :=
  let s := s.result (privKey n off) code
  match s.hif.ringCmds.find? (fun c => c.allot == n && c.unit == unit) with
  | none => s
  | some c =>
    let s := { s with hif := { s.hif with ringCmds := s.hif.ringCmds.filter (· != c) } }
    let out := if code = 0 then (s.ringOutput c).take c.outMax else []
    if out = [] then s.complete n c.tag code c.unit 0 0 c.idx 0
    else if c.outOk then (s.dma n true c.outAddr out).complete n c.tag code c.unit 0 out.length c.idx 0
    else ((s.inc (Reg.hifCountLo 5)).noteFor Ev.hifDmaError n).complete n c.tag 0xF2 c.unit 0 0 c.idx 0

/-! ## Completion of lookaside jobs (R370, R372) -/

/-- Job n. -/
def State.job (s : State) (n : Nat) : Option Job := SMap.get noneOf s.cph.jobs n

def State.setJob (s : State) (n : Nat) (j : Option Job) : State :=
  { s with cph := { s.cph with jobs := SMap.set noneOf s.cph.jobs n j } }

/-- JOB_ID of a descriptor (R366). -/
def jobId (desc : List Byte) : Nat := ofLe (slice desc 20 4)

/-- The counter of the Cipher Array that a STATUS adds to; NOT_STARTED adds to none. -/
def jobCounter (status : Nat) : Option Nat :=
  if status = 0 then some 9 else if status ≤ 8 then some 10 else if status = 9 then some 11 else none

/-- A job's completion record and counters (R372). -/
def State.postJob (s : State) (j : Job) (status len : Nat) : State :=
  let s := match jobCounter status with | some c => s.inc (Reg.cphCountLo c) | none => s
  let s := s.inc (privKey 0 Reg.cphJobStatus)
  let s := if j.allot = 0 then s else s.inc (privKey j.allot Reg.cphJobStatus)
  s.complete j.allot (jobId j.desc) status j.pair 0 len j.idx j.ring

/-- Ended jobs at the head of a ring complete, in ring order (R370). -/
def State.flushRing (s : State) (allot ring : Nat) : Nat → State
  | 0 => s
  | n + 1 =>
    match s.cph.jobs.find? (fun e => match e.2 with | some j => j.allot == allot && j.ring == ring | none => false) with
    | some (k, some j) =>
      match j.fin with
      | some (st, len) => State.flushRing ((s.setJob k none).postJob j st len) allot ring n
      | none => s
    | _ => s

/-- Every ring's ended jobs complete. -/
def State.flushAll (s : State) : State :=
  let rings := (s.cph.jobs.filterMap (fun e => e.2.map (fun j => (j.allot, j.ring)))).eraseDups
  rings.foldl (fun s r => s.flushRing r.1 r.2 (s.cph.jobs.length + 1)) s

end Sys2Proof.Machine
end

