-- ==== Sys2Proof/Machine/StoreOps.lean ====
section
/-! DEFINITION. Energy-checked stores (R49, R121 to R125): which store starts next on each port, and the energy check. -/

namespace Sys2Proof.Machine

open Sys2Proof

/-! ## Energy -/

/-- E_avail in mJ from the capacitance in µF and the bank voltage in units of 10 mV (R49): 0.5 × C × (V² − 23.7²) ÷ 1,000;
a result of 0 or less is 0. -/
def energyMj (capUf v10 : Nat) : Nat := capUf * (v10 * v10 - 2370 * 2370) / 20000000

/-- Declared costs in mJ (R122). -/
def costRecord : Nat := 2
def costLogBatch : Nat := 12
def costPage : Nat := 200
def costProgram : Nat := 32
def costErase : Nat := 1600

/-- The reserve of R121, clamped under R123. -/
def State.reserveMj (s : State) : Nat := clamp 200 1000 (s.fld Reg.stwStoreCfg 15 0)

/-- C_RUN: the declared cost of the store on the other port. -/
def costOf : Option StoreReq → Nat
  | some r => r.cost
  | none => 0

/-- The energy check of R121 for a cost while a store of cost run holds the other port. -/
def State.energyOk (s : State) (cost run : Nat) : Bool := decide (cost + s.reserveMj + run ≤ s.pow.eAvail)

/-! ## Choosing -/

/-- The order of the classes in step 5 (R125). -/
def StoreClass.rank : StoreClass → Nat
  | .stale => 0 | .reservation => 1 | .evidence => 2 | .sealedRec => 3 | .otherRec => 4 | .logBatch => 5
  | .calibration => 6 | .nor => 7

/-- The first store of a list that has a rank, with the rest in order. -/
def takeRank (k : Nat) : List StoreReq → Option (StoreReq × List StoreReq)
  | [] => none
  | r :: rs => if r.cls.rank = k then some (r, rs) else (takeRank k rs).map (fun (x, ys) => (x, r :: ys))

/-- The first store for the MRAM port in queue order. -/
def takeMram : List StoreReq → Option (StoreReq × List StoreReq)
  | [] => none
  | r :: rs => if r.cls = .nor then (takeMram rs).map (fun (x, ys) => (x, r :: ys)) else some (r, rs)

/-- The store the MRAM port takes next outside a power-fail sequence: reservations before any other (R319), then queue order. The
first of them holds up the others until its check passes (DESIGN CHOICE, log entry 91: R121 orders only one requester's stores). -/
def State.nextMram (s : State) : Option (StoreReq × List StoreReq) :=
  match takeRank 1 s.st.queue with
  | some x => some x
  | none => takeMram s.st.queue

/-- The MRAM stores of a queue in the class order of R125, queue order within a class. -/
def byClass (q : List StoreReq) : List StoreReq := (List.range 7).flatMap (fun k => q.filter (fun r => r.cls.rank == k))

/-- The store the NOR port takes next; in a power-fail sequence none starts (R125). -/
def State.nextNor (s : State) : Option (StoreReq × List StoreReq) :=
  if 0 < s.pow.pfStep then none else takeRank 7 s.st.queue

/-- Mark the first store equal to r as deferred. -/
def markDeferred (r : StoreReq) : List StoreReq → List StoreReq
  | [] => []
  | x :: xs => if x = r then { r with deferred := true } :: xs else x :: markDeferred r xs

/-- A failed check: STORE_DEFERRED is raised and STW_STORE_DEFERRALS counts once for each store (R121). -/
def State.defer (s : State) (r : StoreReq) : State :=
  if r.deferred then s
  else
    let s := { s with st := { s.st with queue := markDeferred r s.st.queue } }
    let s := s.wr Reg.stwStoreDeferrals (sat32 ((s.rd Reg.stwStoreDeferrals).toNat + 1))
    s.note Ev.storeDeferred

/-- The MRAM port, while idle, takes a queued store if its check passes; else the store is deferred. -/
def State.tryMram (s : State) (r : StoreReq) : State :=
  match s.st.mram with
  | some _ => s
  | none =>
    if s.energyOk r.cost (costOf s.st.nor) then { s with st := { s.st with mram := some r, queue := s.st.queue.erase r } }
    else s.defer r

/-- The MRAM port takes its next store if it is idle and the check passes. In step 5 (R125) stores go in class order; one that
fails its check is passed over once the other port is idle. After step 5 none starts. -/
def State.startMram (s : State) : State :=
  if 5 < s.pow.pfStep then s
  else if s.pow.pfStep = 5 then
    (match s.st.nor with
      | some _ => (byClass s.st.queue).take 1
      | none => byClass s.st.queue).foldl State.tryMram s
  else
    match s.nextMram with
    | none => s
    | some (r, _) => s.tryMram r

/-- The NOR port likewise. -/
def State.startNor (s : State) : State :=
  match s.st.nor with
  | some _ => s
  | none =>
    match s.nextNor with
    | none => s
    | some (r, rest) =>
      if s.energyOk r.cost (costOf s.st.mram) then { s with st := { s.st with nor := some r, queue := rest } }
      else s.defer r

/-- Every store that may start now starts. -/
def State.startStores (s : State) : State := s.startMram.startNor

/-- The capacity of the deferral queue (R124). -/
def storeCap : Nat := 256

/-- A store is requested (R121): it joins the queue, and starts if its port is idle and the check passes. The flag is
false when the queue is full and the request is refused (R124); STORE_QUEUE_FULL is then owed. -/
def State.pushStore (s : State) (r : StoreReq) : State × Bool :=
  if storeCap ≤ s.st.queue.length then ({ s with st := { s.st with refused := true } }, false)
  else (({ s with st := { s.st with queue := s.st.queue ++ [r] } }).startStores, true)

/-- A record store of 2 mJ. -/
def recordStore (cls : StoreClass) (p : Payload) (who : Waiter := .nobody) : StoreReq := ⟨cls, costRecord, p, who, false⟩

end Sys2Proof.Machine
end

