-- ==== Sys2Proof/Machine/Resets.lean ====
section
/-! DEFINITION. What each reset and erasure reaches (R25, R106, R109, R112, R126), before the events that report it. -/

namespace Sys2Proof.Machine

open Sys2Proof

/-! ## Work items -/

/-- Work items that a test picks end as a failed retry ends them (R347): frames are stomped, a sheaf's rest is zeros or
its tag fails, jobs take a STATUS and complete in ring order; snapshots are cleared and in-flight counts fall (R358). -/
def State.squashItems (s : State) (pick : Nat → Item → Bool) (status : Nat) : State :=
  let hit := s.cph.items.filterMap (fun e => e.2.bind (fun i => if pick e.1 i then some (e.1, i) else none))
  let ids := hit.map (·.1)
  let kinds := hit.map (·.2.kind)
  let frames := (kinds.filter (fun k => match k with | .encFrame _ => true | .decFrame _ => true | _ => false)).length
  let txs := kinds.filterMap (fun k => match k with | .cloakTx t => some t | _ => none)
  let held := fun (c : Nat) => (hit.filter (fun h => h.2.slots.contains c)).length
  let stop := fun (o : Nat) (x : Sending) =>
    if (match x.item with | some i => ids.contains i | none => false) then { x with stomp := true, item := none }
    else if txs.any (fun t => o == 32 + t) then { x with stomp := true } else x
  let bad := fun (f : Frame) => if kinds.contains (.decFrame f.id) ∧ f.encrypt = false then { f with verdict := some false } else f
  let jobs := s.cph.jobs.map (fun (e : Nat × Option Job) =>
    (e.1, e.2.map (fun (j : Job) => if kinds.contains (.job e.1) then { j with fin := some (status, 0) } else j)))
  let slots := s.kvt.slots.map (fun (e : Nat × Option KeySlot) =>
    (e.1, e.2.map (fun (k : KeySlot) => { k with inflight := k.inflight - held e.1 })))
  let sheaves := s.asc.rxSheaf.map (fun (e : Nat × Option (Nat × Nat × Bool)) =>
    (e.1, e.2.map (fun (x : Nat × Nat × Bool) => if kinds.contains (.cloakRx e.1) then (x.1, x.2.1, false) else x)))
  let sending := s.sch.sending.map (fun (e : Nat × Option Sending) => (e.1, e.2.map (stop e.1)))
  let fs := s.sch.frames.map (fun (e : Nat × Option Frame) => (e.1, e.2.map bad))
  let s := { s with
    cph := { s.cph with items := s.cph.items.filter (fun e => !ids.contains e.1), jobs := jobs }
    kvt := { s.kvt with slots := slots }
    sch := { s.sch with sending := sending, frames := fs, arrivals := s.sch.arrivals.map bad }
    asc := { s.asc with rxSheaf := sheaves }
    yok := { s.yok with zeroed := s.yok.zeroed ++ txs.map (fun t => (t, s.now)) } }
  let s := s.incBy (Reg.cphCountLo 7) frames
  if kinds.any (fun k => match k with | .job _ => true | _ => false) then s.flushAll else s

/-- Every frame the Scheduler holds is discarded and counted; an injected one completes with NOT_STARTED (R271, R272). -/
def State.discardFrames (s : State) : State :=
  let fs := s.sch.frames.filterMap (·.2)
  let s := fs.foldl (fun (s : State) f => match f.inject with
    | some i => s.complete i.allot i.tag 10 0xFF 0 0 i.idx 9
    | none => s) s
  let s := s.squashItems (fun _ i => match i.kind with | .encFrame _ => true | .decFrame _ => true | _ => false) 10
  let s := s.incBy (Reg.schCountLo 11) (fs.length + s.sch.arrivals.length)
  { s with sch := { s.sch with
      frames := [], queues := [], sending := [], deficit := [], turn := [], arrivals := [], usedEnc := 0, usedDec := 0
      resEnc := 0, resDec := 0, spillUsed := 0, spillEnc := false, spillDec := false } }

/-! ## The host link (R530) -/

/-- Rings of allotment n are disabled and their registers cleared (R528 step A6, R530). -/
def State.clearRings (s : State) (n : Nat) : State :=
  let s := s.clearRegs (privKey n (Reg.hifRingBaseLo 0)) (privKey n (Reg.hifRingBaseLo 13))
  { s with hif := { s.hif with
      ringMod := SMap.dropRange s.hif.ringMod (n * 16) (n * 16 + 16)
      ringHost := SMap.dropRange s.hif.ringHost (n * 16) (n * 16 + 16)
      bufs := SMap.erase s.hif.bufs n, unsig := SMap.dropRange s.hif.unsig (n * 2) (n * 2 + 2)
      unsigAt := SMap.dropRange s.hif.unsigAt (n * 2) (n * 2 + 2)
      ringOvf := s.hif.ringOvf.filter (· != n)
      allots := (List.range 64).map (fun k =>
        let a := s.hif.allots.getD k .absent
        if k = n ∧ a = .running then .idle else a) } }

/-- The host link is down (R530): every allotment is quiesced in squash mode, no record is written, rings are disabled and
their registers cleared; keys, scratch windows and traffic stay. -/
def State.quiesceAll (s : State) : State :=
  let s := { s with hif := { s.hif with linkUp := false, speed := 0, width := 0, ltssm := 0 } }
  let s := s.squashItems (fun _ i => match i.kind with | .job _ => true | _ => false) 9
  let s := { s with cph := { s.cph with jobs := [] }
                    hif := { s.hif with ringCmds := [] } }
  (List.range 64).foldl State.clearRings s

/-- The link leaves L0: every allotment is quiesced, and HIF_LINK_DOWN and HIF_LINK_QUIESCE tell it (R530). -/
def State.linkLost (s : State) : State :=
  if s.hif.linkUp then (s.quiesceAll.note Ev.hifLinkDown).note Ev.hifLinkQuiesce else s

/-- The ports and groups of a list that were UP have lost it: SEEN bit 8, and ETH_LINK_DOWN to the owner (R174). -/
def State.portsLost (s : State) (ps : List Nat) : State :=
  ps.foldl (fun (s : State) (p : Nat) =>
    if (s.line.eth.getD p EthPort.reset).up then
      (s.setFlg (Reg.lnfEthStatus p) 8 true).noteFor Ev.ethLinkDown (if p < 16 then s.fld (Reg.clsPortCfg p) 31 26 else s.fld (Reg.ascOutOwner p) 5 0)
    else s) s

/-! ## Working keys -/

/-- Every channel stops (R454), and with them the gate lists that ran (R268). -/
def State.stopChannels (s : State) : State :=
  let s := s.sch.gates.foldl (fun (s : State) (e : Nat × Option GateSt) => match e.2 with
    | some g => if g.running then s.noteAs Ev.gateTimeLost.code 1 0xFF [] (beBytes 2 e.1) else s
    | none => s) s
  { s with
    tim := { s.tim with chans := s.tim.chans.map (fun (c : Channel) =>
      { c with st := .stopped, value := 0, slew := 0, mapC := none, maps := [] }) }
    sch := { s.sch with gates := s.sch.gates.map (fun (e : Nat × Option GateSt) =>
      (e.1, e.2.map (fun (g : GateSt) => { g with running := false }))) } }

/-- The output of every work item in flight is suppressed: what an output was sending of it ends without a byte (R106, R361). -/
def State.suppress (s : State) : State :=
  { s with sch := { s.sch with sending := s.sch.sending.map (fun (e : Nat × Option Sending) =>
      (e.1, e.2.map (fun (x : Sending) => if x.item.isSome then { x with drop := true } else x))) } }

/-- Empty key caches under mask keys of their own, drawn at k and after (R395). -/
def freshCaches (k : Nat) : List KeyCache := (List.range 4).map (fun i => ⟨Config.freeBytes (k + i) 32, []⟩)

/-- The level 4 action (R106, R300, R361, R404): work in flight is squashed and its output suppressed, every slot that is not Empty is Erased without
Fallow, key-cache copies, every memory key set and KG go, the mask keys and the check key are redrawn; time channels stop (R454). -/
def State.eraseWorking (s : State) : State :=
  let s := s.suppress.squashItems (fun _ _ => true) 9
  let s := if s.mgd.retill.isSome then s.result Reg.mgdRetillStatus 5 else s
  let erase := fun (e : Nat × Option KeySlot) =>
    (e.1, e.2.map (fun (k : KeySlot) => { k with st := .erased, key := [], fp := 0, inflight := 0 }))
  let k := s.free
  let s := { s with
    free := k + 6
    kvt := { s.kvt with
      slots := s.kvt.slots.map erase, maskKey := some (Config.freeBytes k 32), checkKey := some (Config.freeBytes (k + 1) 32)
      session := none }
    cph := { s.cph with caches := freshCaches (k + 2) }
    mgd := { s.mgd with initDone := false, kg := none, keys := List.replicate 64 none, retill := none }
    yok := { s.yok with paired := false } }
  (s.setFlg Reg.stwResponse 2 true).stopChannels

/-! ## Joint island reset -/

/-- Ports that face an island lose their pending values; queued cells are discarded and counted (R25). -/
def Fabric.resetPorts (f : Fabric) (i : Nat) : Fabric :=
  let hits := f.links.filter (fun e => e.1 / 32 == i || e.1 % 32 == i)
  let lost := (hits.map (fun e => match e.2 with | some l => l.unacked.length | none => 0)).sum
  { f with cross := f.cross.filter (fun e => ! (e.1 / 32 == i || e.1 % 32 == i))
           links := f.links.filter (fun e => ! (e.1 / 32 == i || e.1 % 32 == i))
           discarded := f.discarded + lost }

/-- CROSSBAR entries that own a lane of quad i: client entries 0 to 15 for quads 0 to 3, line groups 16 to 31 for 4 to 7. -/
def State.quadEntries (s : State) (i : Nat) : List Nat :=
  match s.boot.image with
  | none => []
  | some im => ((List.range 16).map (· + i / 4 * 16)).filter (fun e =>
      let x := im.xbar.getD e ⟨0, 0, 0⟩
      x.kind != 0 && (List.range 4).any (fun k => x.mask.testBit (i % 4 * 4 + k)))

/-- Lane island i: its lanes lose lock and alignment, and the ports and groups they belong to with them. -/
def State.resetQuad (s : State) (i : Nat) : State :=
  let es := s.quadEntries i
  let glafold := fun (n : Nat) => match s.boot.image with
    | some im => es.any (fun e => let x := im.xbar.getD e ⟨0, 0, 0⟩; x.kind == 2 && x.mask.testBit (n % 16))
    | none => false
  let lanes := (List.range 32).map (fun n =>
    let l := s.line.lanes.getD n Lane.reset
    if n / 4 = i then
      { Lane.reset with signal := l.signal, loa := glafold n, sec := modAt (fun v => v ||| flag (glafold n) * 4) l.sec 5 }
    else l)
  let eth := (List.range 32).map (fun p =>
    let x := s.line.eth.getD p EthPort.reset
    if es.contains p then { EthPort.reset with sec := x.sec } else x)
  let s := s.portsLost ((List.range 32).filter (fun p => es.contains p))
  { s with line := { s.line with lanes := lanes, eth := eth } }

/-- Bypass begins as the classifier ceases to be live, and DEFAULT_BYPASS is raised once for it (R216). -/
def State.beginBypass (s : State) : State :=
  if s.cls.bypass then s else ({ s with cls := { s.cls with bypass := true } }).note Ev.defaultBypass

/-- The state an island loses in a joint reset: logic, queues and pipeline state; configuration registers and table
memories stay (R112, R271, R301, R375). The Steward and the Hedge escalate instead (R114); the classifier's losses are
those of its V5 scan (R241). -/
def State.islandLoses (s : State) (i : Nat) : State :=
  if i < 8 then s.resetQuad i
  else if i = 8 then { s with yok := { s.yok with lanes := 0, unacked := [], discarding := false } }
  else if i < 13 then s.squashItems (fun _ x => x.pairs.any (fun p => 9 + p / 18 == i)) 10
  else if i = 14 then s.beginBypass
  else if i = 15 then
    let s := s.discardFrames
    { s with sch := { s.sch with buckets := [] } }
  else if i = 17 then
    let s := s.stopChannels
    { s with
      line := { s.line with tribs := [], sending := false }
      asc := { s.asc with txItems := [] }
      rows := { s.rows with
        pages := s.rows.pages.map (fun (p : GroupPages) => { p with rxSwap := none, flip := none, mapBad := 0, mapGood := 0 }) } }
  else if i = 19 then s.linkLost
  else s

/-- The joint reset of one island and the crossing ports that face it (R25, R112). -/
def State.jointReset (s : State) (i : Nat) : State :=
  ({ s with fab := { s.fab.resetPorts i with
      inReset := if s.fab.inReset.contains i then s.fab.inReset else i :: s.fab.inReset } }).islandLoses i

/-- Joint reset of each island of a list. -/
def State.jointResets (s : State) (is : List Nat) : State := is.foldl State.jointReset s

/-! ## Module reset -/

/-- A module reset closes every open record (R547). -/
def Ledger.closeAll (l : Ledger) : Nat → Ledger
  | 0 => l
  | n + 1 => Ledger.closeAll (l.closeOldest 0).1 n

/-- The Ledger across a module reset: open records close; staged records, SEQ, counters and the log stay (R547, R554). -/
def Ledger.reset (l : Ledger) : Ledger :=
  let l := l.closeAll l.opened.length
  { l with
    staged := l.staged.map (fun x => { x with since := 0 }), snapAt := 0
    scanned := false, frozen := false, freezeStart := 0, fullAt := none, stageLostAt := none, cmd := none
    calValid := false, fu := [], fuSample := [], tagNext := 0, verifyFails := 0 }

/-- Modes and responses after a module reset: Degrade and the escalation count stay (R110, R115). -/
def Control.reset (c : Control) (cause : Nat) : Control :=
  { c with recoveries := 0, lastCode := 0, lastLevel := 0, halted := false, responseEnds := 0, cmd := none, cmdStart := 0
           autoOn := false, intake := false, recStep := 0, stuck := false, outcome := 0, recIslands := []
           recCondition := false, partsBefore := 0, parts := 0, resetCause := cause, selfTestMask := 0
           watchdogServed := true }

/-- The count of ns starts anew from now: what the Hedge still waits for, it waits for as long as before. -/
def Hedge.rebase (h : Hedge) (now : Nat) : Hedge :=
  { h with sensors := h.sensors.map (fun x => { x with closesAt := x.closesAt - now, clearAt := x.clearAt - now }) }

/-- The Hedge keeps everything but its counts of alarms since module reset. -/
def Hedge.reset (h : Hedge) : Hedge :=
  { h with sensors := h.sensors.map (fun x => { x with alarms := 0 }) }

/-- What a module reset leaves (R126): the Hedge with its registers but for HDG_CFG, whose LOCK clears (R12), the store domain's
counters, the store queue, Degrade, the Ledger's records, MRAM and NOR. -/
def State.resetCore (s : State) (cause : Nat) : State :=
  { s with
    regs := s.regs.filter (fun e => decide (0xD00000 ≤ e.1) && decide (e.1 < 0xE00000) && e.1 != Reg.hdgCfg), shadow := [], cnt := [], armed := [], now := 0
    ctl := s.ctl.reset cause
    boot := { s.boot with phase := 0, hold := 0, booted := 3, tried := 0, cands := [], metaLost := false, metaDue := false, image := none, job := none }
    led := s.led.reset
    hdg := s.hdg.reset.rebase s.now
    hif := HostIf.reset
    tim := TimeSt.reset
    st := s.st
    fab := Fabric.reset 0
    line := Line.reset
    rows := Rows.reset
    cls := Cls.reset
    sch := Sch.reset
    mgd := Mgd.reset
    asc := Asc.reset
    cph := Cph.reset
    kvt := { Kvt.reset with anchors := s.kvt.anchors, fuses := s.kvt.fuses, reseeds := s.kvt.reseeds }
    yok := Yok.reset
    held := [] }

end Sys2Proof.Machine
end

