-- ==== Sys2Proof/Machine/Service.lean ====
section
/-! DEFINITION. What the loaded image fixes, seen by index (R67, R130), the owners of things events name (R514), and
the minimal service set (R103, R104). -/

namespace Sys2Proof.Machine

open Sys2Proof

/-! ## The image's structure -/

/-- CROSSBAR entry i: client port i, or line group i − 16 (R67). -/
def State.xbar (s : State) (i : Nat) : XbarEntry :=
  match s.boot.image with
  | some im => im.xbar.getD i ⟨0, 0, 0⟩
  | none => ⟨0, 0, 0⟩

/-- KIND of line group g, of client port p. -/
def State.groupKind (s : State) (g : Nat) : Nat := (s.xbar (16 + g)).kind
def State.portKind (s : State) (p : Nat) : Nat := (s.xbar p).kind

/-- The line group is Glafold. -/
def State.isGlafold (s : State) (g : Nat) : Bool := s.groupKind g == 2

/-- The physical lanes of one side that a mask names, ascending. -/
def lanesOfMask (m : Nat) : List Nat := (List.range 16).filter (fun k => m.testBit k)

/-- The line lanes of group g in lane-index order, as 0 to 15. -/
def State.groupLanes (s : State) (g : Nat) : List Nat := lanesOfMask (s.xbar (16 + g)).mask

/-- Width of a group. -/
def State.groupWidth (s : State) (g : Nat) : Nat := (s.groupLanes g).length

/-- The CROSSBAR entry a lane belongs to: lane 0 to 15 client, 16 to 31 line. -/
def State.entryOfLane (s : State) (n : Nat) : Option Nat :=
  if n < 16 then (List.range 16).find? (fun p => s.portKind p != 0 && (s.xbar p).mask.testBit n)
  else ((List.range 16).find? (fun g => s.groupKind g != 0 && (s.xbar (16 + g)).mask.testBit (n - 16))).map (· + 16)

/-- The line group of a line lane (16 to 31). -/
def State.groupOfLane (s : State) (n : Nat) : Option Nat :=
  match s.entryOfLane n with
  | some e => if 16 ≤ e then some (e - 16) else none
  | none => none

/-- A port or group is enabled (LNF_ETH_CTRL on client ports, LNF_GRP_CTRL on groups). -/
def State.portEnabled (s : State) (p : Nat) : Bool := s.portKind p != 0 && s.flg (Reg.lnfEthCtrl p) 0
def State.groupEnabled (s : State) (g : Nat) : Bool := s.groupKind g != 0 && s.flg (Reg.lnfGrpCtrl g) 0

/-- The unit is enabled by the image (R74). -/
def State.unitEnabled (s : State) (u : Nat) : Bool :=
  match s.boot.image with
  | some im => im.unitEnable.testBit u
  | none => false

/-! ## Owners -/

/-- Owner of a client port, and of an output or line input 16 to 543 (R514). -/
def State.portOwner (s : State) (p : Nat) : Nat := s.fld (Reg.clsPortCfg p) 31 26
def State.outOwner (s : State) (o : Nat) : Nat :=
  if o < 16 then s.portOwner o else s.fld (Reg.ascOutOwner o) 5 0

/-- Owner of the port or group of a lane. -/
def State.laneOwner (s : State) (n : Nat) : Nat :=
  match s.entryOfLane n with
  | some e => s.outOwner e
  | none => 0

/-! ## The minimal service set -/

/-- Lane, group, port by index. -/
def State.lane (s : State) (n : Nat) : Lane := s.line.lanes.getD n Lane.reset
def State.group (s : State) (g : Nat) : Group := s.line.groups.getD g Group.reset
def State.ethPort (s : State) (p : Nat) : EthPort := s.line.eth.getD p EthPort.reset
def State.gpages (s : State) (g : Nat) : GroupPages := s.rows.pages.getD g GroupPages.reset
def State.pair (s : State) (k : Nat) : Pair := s.rows.pairs.getD k Pair.reset

def State.setLane (s : State) (n : Nat) (f : Lane → Lane) : State :=
  { s with line := { s.line with lanes := modAt f s.line.lanes n } }
def State.setGroup (s : State) (g : Nat) (f : Group → Group) : State :=
  { s with line := { s.line with groups := modAt f s.line.groups g } }
def State.setEth (s : State) (p : Nat) (f : EthPort → EthPort) : State :=
  { s with line := { s.line with eth := modAt f s.line.eth p } }
def State.setPages (s : State) (g : Nat) (f : GroupPages → GroupPages) : State :=
  { s with rows := { s.rows with pages := modAt f s.rows.pages g } }
def State.setPair (s : State) (k : Nat) (f : Pair → Pair) : State :=
  { s with rows := { s.rows with pairs := modAt f s.rows.pairs k } }

/-- The group is UP: enabled without SF. -/
def State.groupUp (s : State) (g : Nat) : Bool := s.groupEnabled g && !(s.group g).sf

/-- The client port is UP. -/
def State.portUp (s : State) (p : Nat) : Bool := s.portEnabled p && (s.ethPort p).up

/-- The root word a life-cycle state selects (R105): index into the Hedge's four words. -/
def rootIndex : LifeCycle → Option Nat
  | .manufacture => some 0
  | .development => some 1
  | .production => some 2
  | .returned => some 3
  | _ => none

/-- The root of the present life-cycle state. -/
def State.presentRoot (s : State) : Option (List Byte) :=
  match rootIndex s.boot.otpLife with
  | some i => s.hdg.roots.getD i none
  | none => none

/-- The Hedge reports intact (R492). -/
def State.hedgeIntact (s : State) : Bool := s.hdg.live && s.presentRoot.isSome && s.hdg.rootCheckOk

/-- The island's clock runs and it is out of reset. -/
def State.islandUp (s : State) (i : Nat) : Bool := s.fab.live.contains i && !s.fab.inReset.contains i

end Sys2Proof.Machine
end

