-- ==== Sys2Proof/Machine/Health.lean ====
section
/-! DEFINITION. The minimal service set (R103). -/

namespace Sys2Proof.Machine

open Sys2Proof

/-- Part 0: the ORed input lies within R42 and no power-fail sequence runs; the module's own oscillator is locked. -/
def State.part0 (s : State) : Bool :=
  decide (36000 ≤ s.pow.inputMv) && decide (s.pow.inputMv ≤ 72000) && s.pow.pfStep == 0 && s.pow.oscLocked

/-- Part 4: an association has its current key slot Loaded or Active. -/
def State.part4 (s : State) : Bool :=
  s.asc.ctxs.any (fun (e : Nat × Option Ctx) => match e.2 with
    | some c => (c.kind == 1 || c.kind == 2) && (match SMap.get noneOf s.kvt.slots (2 * e.1 + c.txSlot % 2) with
        | some k => k.st == .loaded || k.st == .active
        | none => false)
    | none => false)
/-- Part 5: Memory Guard start-up checks passed, and no region is refused. -/
def State.part5 (s : State) : Bool := s.mgd.initDone && s.mgd.refused.isEmpty
/-- Part 8: classifier live, or a default association set on an up client port. -/
def State.part8 (s : State) : Bool :=
  (s.unitEnabled 5 && s.islandUp 14) || (List.range 16).any (fun p => s.portUp p && s.flg (Reg.clsPortMiss p) 31)
/-- Part 9: a healthy pair each in inner encrypt and inner decrypt. -/
def State.part9 (s : State) : Bool :=
  [0, 1].all (fun r => (List.range 72).any (fun p =>
    let x := s.cph.pairs.getD p CPair.reset
    x.st == 1 && x.role == r && s.islandUp (9 + p / 18)))

/-- Part k of R103 is healthy. -/
def State.part (s : State) (k : Nat) : Bool :=
  match k with
  | 0 => s.part0
  | 1 => s.boot.image.isSome
  | 2 => s.islandUp 18 && s.ctl.watchdogServed
  | 3 => s.hedgeIntact
  | 4 => s.part4
  | 5 => s.part5
  | 6 => (List.range 16).any s.portUp
  | 7 => (List.range 16).any s.groupUp
  | 8 => s.part8
  | 9 => s.part9
  | 10 => s.islandUp 15
  | _ => false

/-- STW_SERVICE_SET.PART as it stands. -/
def State.partsNow (s : State) : Nat := ((List.range 11).map (fun k => flag (s.part k) * 2 ^ k)).sum

/-- All eleven parts are healthy. -/
def State.setComplete (s : State) : Bool := (List.range 11).all s.part

/-- The parts whose loss is answered at level 3, as a mask: 0, 1, 2, 3, 5 and 10 (R104). -/
def severeParts : Nat := 0x42F

end Sys2Proof.Machine
end

