-- ==== Sys2Proof/Machine/Ops.lean ====
section
/-! DEFINITION. The shared operations of the Steward and the Hedge: evidence records (R499 to R503), root erasure
(R481), the responses of R106 to R109 with Recovery (R111 to R115) and the module reset (R126), raising an event
(R19, R97, R98, R104, R107), and requesting a store (R121, R124). -/

namespace Sys2Proof.Machine

open Sys2Proof

/-! ## Evidence records -/

/-- The capacity of the evidence log and the start of its tail (R498, R502). -/
def evidCap : Nat := 8160
def evidTail : Nat := 8128

/-- Bytes 0 to 63 of an evidence record (R500). -/
def EvidRec.head (r : EvidRec) : List Byte :=
  [0x53#8, 0x4C#8, 0x45#8, 0x56#8] ++ beBytes 4 r.seq ++ beBytes 2 r.type ++ beBytes 1 r.level ++
  beBytes 1 (flag r.onCell * 128 + flag r.rootsErased * 64 + flag r.late * 32 + flag r.mac.isSome * 16 + r.lifecycle) ++
  beBytes 1 r.sensor ++ beBytes 1 r.fill ++ beBytes 1 r.mode ++ [0] ++ beBytes 8 r.hcount ++ beBytes 8 r.timeS ++
  beBytes 4 r.timeNs ++ beBytes 4 r.powerups ++ slice r.detail 0 24

/-- Bytes 0 to 95: the head and CHAIN. -/
def EvidRec.sealed (r : EvidRec) : List Byte := r.head ++ slice r.chain 0 32

/-- Bytes 0 to 123 and the CRC: the 128 bytes of an evidence record. -/
def EvidRec.bytes (r : EvidRec) : List Byte :=
  let b := r.sealed ++ slice (r.mac.getD []) 0 16 ++ zeroBytes 12
  b ++ beBytes 4 (crc32 b)

/-- The record types that the tail of the log still takes (R502): level 5 responses, latch conversions, ROOTS_LOST and
LIFECYCLE_CHANGE. -/
def tailTakes (type level : Nat) : Bool :=
  level == 5 || type == Ev.unloggedTamper.code || type == Ev.rootsLost.code || type == Ev.lifecycleChange.code

/-- What an evidence record is made of besides what the Hedge itself knows. -/
structure EvidArgs where
  type : Nat
  level : Nat
  sensor : Nat
  fill : Nat
  detail : List Byte
  late : Bool
  hcount : Nat
  deriving DecidableEq, Repr

/-- The record at NEXT, chained (R501), and sealed while the evidence log key is held. -/
def State.buildEvid (s : State) (a : EvidArgs) (onCell : Bool) : EvidRec :=
  let h := s.hdg
  let (ts, tn, v) := s.logTime
  let r : EvidRec :=
    { seq := h.next, type := a.type, level := a.level, onCell := onCell
      rootsErased := h.roots.all (·.isNone), late := a.late, lifecycle := s.boot.otpLife.code
      sensor := a.sensor, fill := if 255 < a.fill then 255 else a.fill
      mode := if onCell then 0 else s.ctl.mode.code, hcount := a.hcount
      timeS := if onCell ∨ v = false then 0 else ts, timeNs := if onCell ∨ v = false then 0 else tn
      powerups := h.powerups, detail := a.detail, chain := []
      mac := if onCell then none else h.evidKey.map (fun _ => []) }
  let r := { r with chain := Config.sha256 (h.head ++ r.head) }
  match r.mac, h.evidKey with
  | some _, some k => { r with mac := some (Config.cmac k r.sealed) }
  | _, _ => r

/-- EVIDENCE_FULL is raised once when NEXT reaches the capacity (R502). -/
def State.evidFullCheck (s : State) : State :=
  if evidCap ≤ s.hdg.next ∧ s.hdg.fullRaised = false then
    ({ s with hdg := { s.hdg with fullRaised := true } }).note Ev.evidenceFull
  else s

/-- A record the log has no place for is counted (R502). -/
def State.evidOverflow (s : State) : State :=
  { s with hdg := { s.hdg with overflow := satAdd 16383 s.hdg.overflow 1 } }

/-- The log takes a record of this type and level now (R502). -/
def State.evidRoom (s : State) (type level : Nat) : Bool :=
  decide (s.hdg.next < evidCap) && (decide (s.hdg.next < evidTail) || tailTakes type level)

/-- A record on main power: built, kept by the Hedge, and passed to the Steward as a store (R17, R503). NEXT advances as the
record is passed. -/
def State.evidPass (s : State) (a : EvidArgs) (onCell : Bool) : State :=
  if s.evidRoom a.type a.level then
    let r := s.buildEvid a onCell
    let s := { s with hdg := { s.hdg with next := s.hdg.next + 1, head := r.chain, inFlight := s.hdg.inFlight ++ [r] } }
    (s.pushStore (recordStore .evidence (.evidence r))).1.evidFullCheck
  else s.evidOverflow

/-- An evidence record of an event on main power. -/
def State.evidMain (s : State) (a : EvidArgs) : State := s.evidPass a false

/-- A record appended by the Hedge itself on the cell (R494 step C5, R503). -/
def State.evidCellAppend (s : State) (a : EvidArgs) : State :=
  if s.evidRoom a.type a.level then
    let r := s.buildEvid a true
    { s with hdg := { s.hdg with next := s.hdg.next + 1, head := r.chain, replay := s.hdg.replay ++ [r.seq]
                                 log := SMap.set noneOf s.hdg.log r.seq (some r) } }
  else s.evidOverflow

/-- H_0: the digest of the header of the evidence log (R498, R501). -/
def chainStart : List Byte :=
  let head := ascii "SLEH" ++ beBytes 4 1 ++ beBytes 8 Config.serial.toNat ++ beBytes 8 0 ++ beBytes 4 8160 ++ zeroBytes 32
  Config.sha256 (head ++ beBytes 4 (crc32 head))

/-- The first of the last slots below n, at most k of them, that hold no record. -/
def Hedge.firstFree (h : Hedge) : Nat → Nat → Nat
  | 0, n => n
  | k + 1, n => if 0 < n ∧ (SMap.get noneOf h.log (n - 1)).isNone then h.firstFree k (n - 1) else n

/-- The slots of records that were passed to the Steward and not written are free again: the chain stands at the last record
before them (R503, DESIGN CHOICE, log entry 60). -/
def Hedge.rewind (h : Hedge) : Hedge :=
  let n := h.firstFree h.inFlight.length h.next
  if n = h.next then h
  else { h with next := n, head := match SMap.get noneOf h.log (n - 1) with
    | some r => if 0 < n then r.chain else chainStart
    | none => chainStart }

/-- An alarm that cannot be appended sets the unlogged-tamper latch, or adds to its count (R496). -/
def Hedge.latchItem (h : Hedge) (sensor hcount : Nat) : Hedge :=
  match h.latch with
  | none => { h with latch := some ⟨sensor, hcount, 0⟩ }
  | some l => { h with latch := some { l with more := satAdd 65535 l.more 1 } }

/-! ## Roots -/

/-- The clamp of R481: every root word and the pending word go to 0; the evidence log key is dropped once the last
record has been sealed (R483). -/
def Hedge.clampRoots (h : Hedge) : Hedge :=
  { h with roots := List.replicate 4 none, pendingRoot := none }

/-! ## Recovery -/

/-- The islands that host a unit of the minimal service set (R103, the island table): lanes 0 to 7, cipher islands,
Memory Guard and its cipher island, classifier, scheduler, Steward and Hedge. The Host island, the Dithal quad and the Time island,
which also hosts group framing and RIX, host none (DEDUCED from R103, log entry 99). -/
def serviceIsland (i : Nat) : Bool := decide (i ≤ 7) || (decide (9 ≤ i) && decide (i ≤ 16)) || i == 18 || i == 20

/-- Islands named at V3: those ISLAND_STATE marks as timed out whose clock has stopped (R111). -/
def State.namedIslands (s : State) : List Nat :=
  allIslands.filter (fun n => s.flg (Reg.islandState n) 2 && !s.fab.live.contains n)

/-- The RECOVERY_LIMIT in force: 0 reads as 1. -/
def State.recoveryLimit (s : State) : Nat := if s.fld Reg.stwModeCfg 11 8 = 0 then 1 else s.fld Reg.stwModeCfg 11 8

/-- A module reset with its cause (R126): the ports and the host link that were up go down, MODULE_RESET is recorded; enters Boot
(B1 follows as BOOT_ENTRY). PREV_MODE then shows the mode before the reset (DESIGN CHOICE, log entry 92). -/
def State.moduleReset (s : State) (cause : Nat) : State :=
  let s := s.portsLost (List.range 32)
  let s := if s.hif.linkUp then ({ s with hif := { s.hif with linkUp := false } }).note Ev.hifLinkDown else s
  let s := (s.resetCore cause).driveAlert
  let s := s.note Ev.moduleReset (beBytes 1 cause)
  s.setMode .boot

/-- The running mode command ends with CODE; a GO_YOKE's pairing ends with it (R102). -/
def State.endModeCmd (s : State) (code : Nat) : State :=
  match s.ctl.cmd with
  | none => s
  | some c =>
    let s := if c = .goYoke then { s with yok := { s.yok with pairing := none } } else s
    ({ s with ctl := { s.ctl with cmd := none } }).result Reg.stwModeResult code

/-! ## The response to alarms (R106 to R109) -/

/-- The level of an event after R98: an alarm in a mode that erases adds the level 4 action. -/
def Mode.effLevel (m : Mode) (lvl : Nat) : Nat := if 2 ≤ lvl ∧ m.erases ∧ lvl < 4 then 4 else lvl

/-- One of the events that fire together (R107): its code and own level, the allotment its record names, the owners notified,
its parameters. -/
structure Fired where
  code : Nat
  level : Nat
  allot : Nat
  owners : List Nat
  params : List Byte
  deriving DecidableEq, Repr

/-- An event whose record names no allotment. -/
def Fired.plain (k : EvKind) : Fired := ⟨k.code, k.level, 0xFF, [], []⟩

/-- The event that names the response. -/
def Fired.first (fs : List Fired) : Fired := fs.headD ⟨0, 0, 0xFF, [], []⟩

/-- A response begins: LAST_CODE and LAST_LEVEL, the time of R575; a running mode command ends with CODE 3 (R102: a STOP so ended
leaves intake closed, DESIGN CHOICE, log entry 90) and a provisioning session ends. -/
def State.beginResponse (s : State) (code lvl eff : Nat) : State :=
  let s := { s with ctl := { s.ctl with
    lastCode := code, lastLevel := eff, responseEnds := s.now + (if 5 ≤ lvl then 1000000 else 10000) } }
  let s := s.endModeCmd 3
  if s.kvt.session.isSome then ({ s with kvt := { s.kvt with session := none } }).note Ev.provSession (beBytes 1 1) else s

/-- The actions of a response from the highest level down (R106 to R108): the roots with the Hedge's evidence of the event (R481,
R499), the working keys, the mute, Degrade. A Hedge alarm, and every level 5, drives the erase and mute lines. -/
def State.perform (s : State) (lvl : Nat) (erase : Bool) (ev : Option EvidArgs) : State :=
  let hedge := ev.isSome || decide (5 ≤ lvl)
  let s := if 5 ≤ lvl then { s with hdg := s.hdg.clampRoots } else s
  let s := match ev with
    | some a => s.evidMain a
    | none => s
  let s := if 5 ≤ lvl then { s with hdg := { s.hdg with evidKey := none, zeroized := true } } else s
  let s := if hedge && erase then s.emit .eraseLine else s
  let s := if erase then s.eraseWorking else s
  let s := if hedge && decide (3 ≤ lvl) then s.emit .muteLine else s
  { s with ctl := { s.ctl with degraded := true, halted := s.ctl.halted || decide (3 ≤ lvl) } }

/-- The records of the events that fired together, each with its own code and its level after R98, and of what was erased; t is
the time of the events. -/
def State.recordAll (s : State) (t : Nat × Nat × Bool) (fs : List Fired) (lvl : Nat) (erase : Bool) : State :=
  let s := fs.foldl (fun (s : State) (f : Fired) => s.noteAt t f.code (s.ctl.mode.effLevel f.level) f.allot f.owners f.params) s
  let s := if 5 ≤ lvl then s.note Ev.rootsErased else s
  if erase then s.note Ev.keysErased else s

/-- The response to events that fire together but for its mode consequence: the union of their actions once, then their records
(R107). lvl is the highest of their own levels, erase tells whether the level 4 action is among the actions. -/
def State.answer (s : State) (fs : List Fired) (lvl : Nat) (erase : Bool) (ev : Option EvidArgs) : State :=
  let t := s.logTime
  let s := s.beginResponse (Fired.first fs).code lvl (s.ctl.mode.effLevel (Fired.first fs).level)
  (s.perform lvl erase ev).recordAll t fs lvl erase

/-! ## Escalation and Recovery -/

/-- Escalation (R114, R115): a module reset, or the stuck state once RECOVERY_LIMIT would be exceeded. RECOVERY_STUCK is an alarm
in Recovery: it erases the working keys (R98) unless the alarm that it fires together with has erased them (R107). -/
def State.escalate (s : State) (erased : Bool) : State :=
  if s.recoveryLimit < s.ctl.escalations + 1 then
    let s := { s with ctl := { s.ctl with stuck := true, outcome := 3, recStep := 6 } }
    s.answer [Fired.plain Ev.recoveryStuck] 3 (!erased) none
  else
    let s := { s with ctl := { s.ctl with escalations := s.ctl.escalations + 1, outcome := 2 } }
    (s.note Ev.recoveryEscalated).moduleReset 3

/-- Associations whose transmit slot holds a key with YOKE 1 (ATTR bit 19) start, or end, being held by STALE (R440). -/
def State.holdYoke (s : State) (b : Bool) : State :=
  let yoke := fun (c : Nat) => match SMap.get noneOf s.kvt.slots c with | some k => bit k.attr 19 | none => false
  let put := fun (e : Nat × Option Ctx) => (e.1, e.2.map (fun (c : Ctx) =>
    if c.kind == 1 && (!b || yoke (2 * e.1 + c.txSlot)) then { c with held := b } else c))
  { s with asc := { s.asc with ctxs := s.asc.ctxs.map put } }

/-- The lead mutes (R445): B_MUTE lies 3,125 blocks ahead, YIELD is sent with its cause, STALE is set and holds its
associations (R440). Without a link nothing is sent. -/
def State.yieldNow (s : State) (cause : Nat) : State :=
  if s.ctl.mode = .yokeLead ∧ s.yok.lanes = 15 ∧ s.yok.bMute = none then
    let b := s.blockNo + 3125
    let s := s.convey 0x10 (beBytes 8 b ++ beBytes 1 cause ++ zeroBytes 3)
    let s := { s with yok := { s.yok with bMute := some b } }
    (s.pushStore (recordStore .stale (.stale true))).1.holdYoke true
  else s

/-- A lead that has yielded makes no decision any more (R445). -/
def State.yielded (s : State) : Bool := s.ctl.mode == .yokeLead && s.yok.bMute.isSome

/-- Recovery steps V1 to V4 (R111): mute, intake closed, picks stopped, islands named and jointly reset. A condition
resets nothing (R113); a faulted Steward or Hedge escalates at once (R114). erased: the working keys have just been erased. -/
def State.enterRecovery (s : State) (condition erased : Bool) (faulted : List Nat) : State :=
  let s := s.yieldNow 2
  let c := s.ctl
  let s := { s with ctl := { c with
      modeBefore := c.mode, recoveries := satAdd 255 c.recoveries 1, halted := true, intake := false
      recCondition := condition, partsBefore := c.parts, recStep := 4, outcome := 0, stuck := false, recIslands := [] } }
  let s := s.squashItems (fun _ _ => true) 10
  let s := s.setMode .recovery
  if condition then s
  else
    let is := (s.namedIslands ++ faulted).eraseDups
    if is.contains 18 ∨ is.contains 20 then s.escalate erased
    else (s.jointResets is).wr Reg.stwRecoveryIslands 0 |> fun s => { s with ctl := { s.ctl with recIslands := is } }

/-- The outcomes of R86, which T23 excludes: NO_VALID_IMAGE and MGD_INIT_FAIL. -/
def bootOutcome (code : Nat) : Bool := code == Ev.noValidImage.code || code == Ev.mgdInitFail.code

/-- The causes of Recovery that are conditions and not island faults (R113). -/
def isCondition (code : Nat) : Bool :=
  code == Ev.dieOvertemp.code || code == Ev.inputOvervoltage.code || code == Ev.sheafMarkStall.code

/-- The modes from which T17 leads to Recovery. -/
def Mode.recovers : Mode → Bool
  | .calibrate | .ready | .service | .selfTest | .yokeLead | .yokeFollower | .yokeResync => true
  | _ => false

/-- The mode consequence of a response of level 3 or 4, and of any alarm in Recovery (T17, T23, R100, R113, R114). -/
def State.halt (s : State) (code : Nat) (erased : Bool) (faulted : List Nat) : State :=
  if 0 < s.pow.pfStep then { s with ctl := { s.ctl with recStep := 0 } }
  else
    match s.ctl.mode with
    | .recovery => if s.ctl.stuck then s else s.escalate erased
    | .powerRise | .boot =>
      if bootOutcome code ∨ s.boot.otpLife = .scrapped then s else (s.enterRecovery true erased []).escalate erased
    | _ => if s.ctl.mode.recovers then s.enterRecovery (isCondition code) erased faulted else s

/-- The store is waiting or in progress on the MRAM port. -/
def Stores.has (st : Stores) (p : Payload) : Bool :=
  st.queue.any (fun r => r.pay == p) || (match st.mram with | some r => r.pay == p | none => false)

/-- The overwriting store of one record is queued if there is room and none is under way. -/
def State.overwriteOne (s : State) (p : Payload) : State :=
  if storeCap ≤ s.st.queue.length ∨ s.st.has p then s else (s.pushStore (recordStore .sealedRec p)).1

/-- The Steward overwrites the records still in use (R109): as many stores as the queue has room for; the rest follow as stores
complete (DESIGN CHOICE, log entry 93). -/
def State.overwriteLeft (s : State) : State :=
  let s := s.mram.slots.foldl (fun (s : State) (e : Nat × Option SealedRec) => s.overwriteOne (.slotRec e.1 none)) s
  s.mram.assocs.foldl (fun (s : State) (e : Nat × Option SealedRec) => s.overwriteOne (.assocRec e.1 none)) s

/-- Zeroized follows a level 5 response (T21), but for a Scrapped module in Boot (R100). The sealed records are overwritten; in
step 5 of a power-fail sequence only the stores in progress complete and no summary follows (R125). -/
def State.enterZeroized (s : State) : State :=
  let s := { s with ctl := { s.ctl with intake := false, recStep := 0 } }
  let s := if s.ctl.mode = .boot ∧ s.boot.otpLife = .scrapped then s else s.setMode .zeroized
  if s.pow.pfStep = 5 then { s with pow := { s.pow with pfStep := 6 } } else s.overwriteLeft

/-! ## Raising an event -/

/-- The highest own level of events that fire together. -/
def highest (fs : List Fired) : Nat := fs.foldl (fun (m : Nat) (f : Fired) => max m f.level) 0

/-- Events that fire together, the one that names the response first (R97, R106, R107): answered and recorded, then the mode
consequence. Without an alarm among them they are only recorded. -/
def State.raiseAll (s : State) (fs : List Fired) (faulted : List Nat) (ev : Option EvidArgs) : State :=
  let lvl := highest fs
  if lvl < 2 then fs.foldl (fun (s : State) (f : Fired) => s.noteAs f.code f.level f.allot f.owners f.params) s
  else if s.ctl.mode = .sentry then s
  else
    let erase := decide (4 ≤ s.ctl.mode.effLevel lvl)
    let s := s.answer fs lvl erase (if 5 ≤ lvl ∧ ev.isNone then some ⟨(Fired.first fs).code, 5, 0xFF, 0, [], false, s.hdg.hcount⟩ else ev)
    if 5 ≤ lvl then s.enterZeroized
    else if 3 ≤ lvl ∨ s.ctl.mode = .recovery then s.halt (Fired.first fs).code erase faulted
    else s

/-- SERVICE_SET_LOST as it fires now, in Service or a Yoke mode (R104): at level 3 if part 0, 1, 2, 3, 5 or 10 has dropped, and at
level 1 if another part has. -/
def State.setLost (s : State) : List Fired :=
  let lost := s.ctl.parts - (s.ctl.parts &&& s.partsNow)
  if s.ctl.mode = .service ∨ s.ctl.mode.isYoke then
    (if lost &&& severeParts ≠ 0 then [Fired.plain (Ev.serviceSetLost.atLevel 3)] else []) ++
    (if lost - (lost &&& severeParts) ≠ 0 then [Fired.plain Ev.serviceSetLost] else [])
  else []

/-- The service set as it stands is the one last evaluated. -/
def State.settleParts (s : State) : State := { s with ctl := { s.ctl with parts := s.partsNow } }

/-- A store request that was refused raises STORE_QUEUE_FULL (R124). -/
def State.reportRefused (s : State) : State :=
  if s.st.refused then
    let s := ({ s with st := { s.st with refused := false } }).raiseAll [Fired.plain Ev.storeQueueFull] [] none
    { s with st := { s.st with refused := false } }
  else s

/-- An event is raised (R19, R97, R106): recorded at its level after R98, then answered. allot and owners name what
allotments own, faulted the islands unit reports name, ev the evidence record of a Hedge alarm, others the events that fire with
it. A part of the service set that has dropped fires with an alarm (R104). -/
def State.raiseFull (s : State) (k : EvKind) (allot : Nat) (owners : List Nat) (params : List Byte)
    (faulted : List Nat) (ev : Option EvidArgs) (others : List Fired := []) : State :=
  let fs := ⟨k.code, k.level, allot, owners, params⟩ :: others
  if highest fs < 2 then s.raiseAll fs faulted ev
  else (s.raiseAll (fs ++ s.setLost) faulted ev).settleParts.reportRefused

/-- The service set is evaluated again, and what has dropped is raised (R104). -/
def State.recheck (s : State) : State :=
  ((if s.setLost = [] then s else s.raiseAll s.setLost [] none).settleParts).reportRefused

/-- An event whose record names no allotment. -/
def State.raise (s : State) (k : EvKind) (params : List Byte := []) : State := s.raiseFull k 0xFF [] params [] none

/-- An event whose record names something that an allotment owns. -/
def State.raiseFor (s : State) (k : EvKind) (owner : Nat) (params : List Byte := []) : State :=
  s.raiseFull k owner [owner] params [] none

/-- A level 2 condition begins: it persists until its cause ends (R110). -/
def State.beginLevel2 (s : State) (code : Nat) : State :=
  { s with ctl := { s.ctl with level2 := if s.ctl.level2.contains code then s.ctl.level2 else code :: s.ctl.level2 } }

/-- A level 2 condition ends. -/
def State.endLevel2 (s : State) (code : Nat) : State :=
  { s with ctl := { s.ctl with level2 := s.ctl.level2.filter (· != code) } }

/-- A unit requests a store (R121): refused with STORE_QUEUE_FULL when the queue is full (R124). -/
def State.requestStore (s : State) (r : StoreReq) : State × Bool :=
  let (s, ok) := s.pushStore r
  if ok then (s, true) else (s.reportRefused, false)

/-- The lead mutes outside an alarm response (R445); a refused store of STALE is reported. -/
def State.yield (s : State) (cause : Nat) : State := (s.yieldNow cause).reportRefused

/-- The automatic attempts of R574 end, with a pairing that one of them has begun. -/
def State.endAuto (s : State) : State :=
  { s with ctl := { s.ctl with autoOn := false }, yok := { s.yok with pairing := if s.ctl.autoOn then none else s.yok.pairing } }

end Sys2Proof.Machine
end

