-- ==== Sys2Proof/Machine/LineOps.lean ====
section
/-! DEFINITION. Operations shared by the lanes and the rows: defects of groups and ports (R166 to R169), connection
memory pages and map CRCs (R175 to R178), the hold-off (R196). -/

namespace Sys2Proof.Machine

open Sys2Proof

/-! ## Second counters -/

/-- Counter c of a list of second counters rises by n, saturating (R172). -/
def secAdd (l : List Nat) (c n : Nat) : List Nat := modAt (fun v => satAdd 0xFFFFFFFF v n) l c

/-- Flags of a DEFECT_SEC counter are or-ed in. -/
def secFlags (l : List Nat) (c m : Nat) : List Nat := modAt (fun v => v ||| m) l c

/-- A count that no register shows rises by 1. -/
def State.tally (s : State) (k : Nat) : State :=
  { s with line := { s.line with tally := SMap.set zeroOf s.line.tally k (SMap.get zeroOf s.line.tally k + 1) } }

/-! ## Pairs -/

/-- RIX_PAIR_CFG fields. -/
def State.pairEnabled (s : State) (k : Nat) : Bool := s.flg (Reg.rixPairCfg k) 0
def State.pairWorking (s : State) (k : Nat) : Nat := s.fld (Reg.rixPairCfg k) 7 4
def State.pairProtect (s : State) (k : Nat) : Nat := s.fld (Reg.rixPairCfg k) 11 8

/-- The enabled pair whose working group, or whose protection group, is g. -/
def State.pairOfWorking (s : State) (g : Nat) : Option Nat :=
  (List.range 8).find? (fun k => s.pairEnabled k && s.pairWorking k == g)
def State.pairOfProtect (s : State) (g : Nat) : Option Nat :=
  (List.range 8).find? (fun k => s.pairEnabled k && s.pairProtect k == g)

/-- The hold-off time in ms, in steps of 100 up to 10,000 (R196). -/
def State.holdoffMs (s : State) (k : Nat) : Nat :=
  let v := s.fld (Reg.rixPairTimers k) 15 0
  if 10000 < v then 10000 else v / 100 * 100

/-- The WTR time in s (R197). -/
def State.wtrS (s : State) (k : Nat) : Nat := clamp 10 720 (s.fld (Reg.rixPairTimers k) 31 16)

/-- SF or SD is declared on a working group: the hold-off starts; at 0 ms it has expired at once (R196). -/
def State.startHoldoff (s : State) (g : Nat) : State :=
  match s.pairOfWorking g with
  | none => s
  | some k =>
    if s.holdoffMs k = 0 then s.setPair k (fun p => { p with holdRun := false, holdDone := true })
    else s.setPair k (fun p => { p with holdRun := true, holdDone := false, holdDue := s.now + s.holdoffMs k * 1000000 })

/-- The working group has neither SF nor SD any more: the next declaration starts the hold-off again (R196). -/
def State.stopHoldoff (s : State) (g : Nat) : State :=
  match s.pairOfWorking g with
  | none => s
  | some k => s.setPair k (fun p => { p with holdRun := false, holdDone := false })

/-! ## Group defects -/

/-- PRBS and LOOPBACK as they act: 3 to 7, and 3, act as 0. -/
def prbsOf (w : Word) : Nat := if bits w 8 6 ≤ 2 then bits w 8 6 else 0
def loopOf (w : Word) : Nat := if bits w 5 4 ≤ 2 then bits w 5 4 else 0

/-- A lane is in loopback or PRBS test (R169). -/
def State.inTest (s : State) (n : Nat) : Bool :=
  prbsOf (s.rd (Reg.lnfLaneCtrl n)) != 0 || loopOf (s.rd (Reg.lnfLaneCtrl n)) != 0

/-- The lanes, 0 to 31, of CROSSBAR entry e. -/
def State.entryLanes (s : State) (e : Nat) : List Nat := (lanesOfMask (s.xbar e).mask).map (fun k => if e < 16 then k else 16 + k)

/-- The PCS of an Ethernet port lacks lock, or sees hi_ber or local fault (R166). -/
def EthPort.pcsDown (e : EthPort) : Bool := !e.aligned || e.hiBer || e.localFault

/-- PCS_DOWN of Ethernet port p (R166); a port with a lane in test has it (R169). -/
def State.pcsDown (s : State) (p : Nat) : Bool := (s.ethPort p).pcsDown || (s.entryLanes p).any s.inTest

/-- The ENABLE that governs Ethernet port p: on a line group, LNF_GRP_CTRL.ENABLE. -/
def State.ethEnabled (s : State) (p : Nat) : Bool := if p < 16 then s.portEnabled p else s.groupEnabled (p - 16)

/-- UP of port p is evaluated: ENABLE without PCS_DOWN; a change raises ETH_LINK_UP or ETH_LINK_DOWN. A client port sends remote
fault while it has PCS_DOWN (R166, R168). -/
def State.refreshPort (s : State) (p : Nat) : State :=
  let was := s.ethPort p
  let up := s.ethEnabled p && !s.pcsDown p
  let fault := decide (p < 16) && s.portEnabled p && s.pcsDown p
  let s := s.setEth p (fun x => { x with up := up, faultSent := fault })
  let s := if fault = was.faultSent then s else s.emit (.remoteFault p fault)
  if was.up && !up then (s.setFlg (Reg.lnfEthStatus p) 8 true).noteFor Ev.ethLinkDown (s.outOwner p) (beBytes 1 p)
  else if !was.up && up then s.noteFor Ev.ethLinkUp (s.outOwner p) (beBytes 1 p) else s

/-- The lanes 16 to 31 of a group. -/
def State.groupLaneIds (s : State) (g : Nat) : List Nat := (s.groupLanes g).map (· + 16)

/-- SF of a line group (R166); a group with a lane in test has it (R169). -/
def State.groupSf (s : State) (g : Nat) : Bool :=
  let ls := (s.groupLaneIds g).map s.lane
  ls.any (fun l => l.los || l.lol || l.exc) || (s.groupLaneIds g).any s.inTest ||
  (if s.isGlafold g then
    ls.any (·.loa) || (s.group g).loga || ((s.group g).tim && s.flg (Reg.lnfGrpCtrl g) 6)
   else s.pcsDown (16 + g))

/-- Group status flags as the low byte of LNF_GRP_STATUS without UP: SF 1, SD 2, LOGA 3, TIM 4, RDI_RX 5, EXC 6. -/
def State.groupFlags (s : State) (g : Nat) : Nat :=
  let x := s.group g
  flag x.sf * 2 + flag x.sd * 4 + flag x.loga * 8 + flag x.tim * 16 + flag x.rdiRx * 32 +
  flag (((s.groupLaneIds g).map s.lane).any (·.exc)) * 64

/-- DEFECT_SEC flags of a group: SF, SD, LOGA, TIM, RDI_RX. -/
def Group.secMask (x : Group) : Nat :=
  flag x.sf + flag x.sd * 2 + flag x.loga * 4 + flag x.tim * 8 + flag x.rdiRx * 16

/-- The flags that rose are recorded in LNF_GRP_DEFECT.SEEN, and the defect second is marked. -/
def State.groupSeen (s : State) (g old : Nat) : State :=
  let new := s.groupFlags g
  let rose := new - (new &&& old)
  let s := s.wr (Reg.lnfGrpDefect g) (s.rd (Reg.lnfGrpDefect g) ||| BitVec.ofNat 32 rose)
  s.setGroup g (fun x => { x with sec := secFlags x.sec 3 x.secMask })

/-- SF and SD of a group as R195 sees them: a lead counts a defect that either twin has (R200, R439). -/
def State.apsSf (s : State) (g : Nat) : Bool := (s.group g).sf || (s.ctl.mode == .yokeLead && s.rows.twinSf.testBit g)
def State.apsSd (s : State) (g : Nat) : Bool :=
  !s.apsSf g && ((s.group g).sd || (s.ctl.mode == .yokeLead && s.rows.twinSd.testBit g))

/-- The hold-off of the pair that group g works for follows a change of its SF and SD (R196): a declaration starts it, and it stops
when neither holds any more. -/
def State.holdoffFollows (s : State) (g : Nat) (sf sd : Bool) : State :=
  if (s.apsSf g && !sf) || (s.apsSd g && !sd) then s.startHoldoff g
  else if !s.apsSf g && !s.apsSd g && (sf || sd) then s.stopHoldoff g else s

/-- SF and SD of every group as bits: bit g for group g. -/
def State.defectBits (s : State) (f : Group → Bool) : Nat :=
  ((List.range 16).map (fun g => if f (s.group g) then 2 ^ g else 0)).sum

/-- A follower's DEFECTS item (R428, R439). -/
def State.reportDefects (s : State) : State :=
  s.report 0x21 (beBytes 2 (s.defectBits (·.sf)) ++ beBytes 2 (s.defectBits (·.sd)) ++ beBytes 4 s.line.sheaf)

/-- SF and SD of a group are evaluated: events, the hold-off, SEEN (R166, R167, R196). old holds the flags before. -/
def State.refreshGroup (s : State) (g old : Nat) : State :=
  if s.groupKind g = 0 then s
  else
    let x := s.group g
    let sf := s.groupSf g
    let sd := !sf && ((s.groupLaneIds g).map s.lane).any (·.sd)
    let (wasSf, wasSd) := (s.apsSf g, s.apsSd g)
    let s := s.setGroup g (fun y => { y with sf := sf, sd := sd })
    let s := (s.groupSeen g old).holdoffFollows g wasSf wasSd
    let ow := s.outOwner (16 + g)
    let s := if sf && !x.sf then s.noteFor Ev.groupSf ow (beBytes 1 g)
             else if !sf && x.sf then s.noteFor Ev.groupSfClear ow (beBytes 1 g) else s
    let s := if sd && !x.sd then s.noteFor Ev.groupSd ow (beBytes 1 0)
             else if !sd && x.sd then s.noteFor Ev.groupSd ow (beBytes 1 1) else s
    let s := if sf = x.sf ∧ sd = x.sd then s else s.reportDefects
    s.recheck

/-- A lane changed: its group, if it has one, is evaluated, and the service set. -/
def State.laneChanged (s : State) (n old : Nat) : State :=
  match s.groupOfLane n with
  | some g => s.refreshGroup g old
  | none => s.recheck

/-- The flags of the group of a lane before a change. -/
def State.laneGroupFlags (s : State) (n : Nat) : Nat :=
  match s.groupOfLane n with
  | some g => s.groupFlags g
  | none => 0

/-- A lane's DEFECT_SEC flags: LOS, LOL, LOA, SD, EXC. -/
def Lane.secMask (l : Lane) : Nat :=
  flag l.los + flag l.lol * 2 + flag l.loa * 4 + flag l.sd * 8 + flag l.exc * 16

/-- A lane is changed and its defect second marked. -/
def State.touchLane (s : State) (n : Nat) (f : Lane → Lane) : State :=
  s.setLane n (fun l => let l := f l; { l with sec := secFlags l.sec 5 l.secMask })

/-! ## Connection memories -/

/-- The page whose rows group g sends: a protection group uses its working group's pages (R188). -/
def State.pageGroup (s : State) (g : Nat) : Nat :=
  match s.pairOfProtect g with
  | some k => s.pairWorking k
  | none => g

/-- Module row id of group row i of a group on transmit: 32 × physical line lane + r (R154). -/
def State.txRow (s : State) (g i : Nat) : Nat := 32 * ((s.groupLanes g).getD (i / 32) 0) + i % 32

/-- The physical line lane that received lane index i of a group arrives on (R165). -/
def State.rxLane (s : State) (g i : Nat) : Nat :=
  ((s.groupLanes g).find? (fun k => (s.lane (16 + k)).tagIdx == i)).getD ((s.groupLanes g).getD i 0)

/-- Module row id of group row i on receive. -/
def State.rxRow (s : State) (g i : Nat) : Nat := 32 * s.rxLane g (i / 32) + i % 32

/-- Transmit and receive entry of group row i in page p (R176). -/
def State.tcmEntry (s : State) (p g i : Nat) : Nat := s.fld (Reg.rixTcm p (s.txRow g i)) 15 0
def State.rcmEntry (s : State) (p g i : Nat) : Nat := s.fld (Reg.rixRcm p (s.rxRow g i)) 15 0

/-- USED and TRIB of an entry. -/
def entryUsed (e : Nat) : Bool := e.testBit 15
def entryTrib (e : Nat) : Nat := e % 512

/-- Rows of a group. -/
def State.groupRows (s : State) (g : Nat) : List Nat := List.range (32 * s.groupWidth g)

/-- The map CRCs of R178 of page p. -/
def State.txMapCrc (s : State) (p g : Nat) : Nat :=
  crc16 ((s.groupRows g).flatMap (fun i => beBytes 2 (s.tcmEntry p g i)))
def State.rxMapCrc (s : State) (p g : Nat) : Nat :=
  crc16 ((s.groupRows g).flatMap (fun i => beBytes 2 (s.rcmEntry p g i)))

/-- The tributaries of a group's active transmit page, each once. -/
def State.txTribs (s : State) (g : Nat) : List Nat :=
  ((s.groupRows g).filterMap (fun i =>
    let e := s.tcmEntry (s.gpages g).txActive g i
    if entryUsed e then some (entryTrib e) else none)).eraseDups

/-- Row count of a tributary in a group's active transmit page. -/
def State.tribRows (s : State) (g t : Nat) : Nat :=
  ((s.groupRows g).filter (fun i =>
    let e := s.tcmEntry (s.gpages g).txActive g i
    entryUsed e && entryTrib e == t)).length

/-- The group that carries a tributary in its active transmit page. -/
def State.groupOfTrib (s : State) (t : Nat) : Option Nat :=
  (List.range 16).find? (fun g => s.isGlafold g && (s.txTribs g).contains t)

/-- The group on which tributary t is received. -/
def State.rxGroupOf (s : State) (t : Nat) : Option Nat :=
  (List.range 16).find? (fun g => s.isGlafold g && (s.groupRows g).any (fun i =>
    let e := s.rcmEntry (s.gpages g).rxActive g i
    entryUsed e && entryTrib e == t))

/-- The group that the receive selector takes tributary t's sheaves from (R190). -/
def State.rxSource (s : State) (g : Nat) : Nat :=
  match s.pairOfWorking g with
  | some k => if (s.pair k).selector = 1 then s.pairProtect k else g
  | none => g

/-- The selector of the pair that group g works for has come to the sheaf that follows the last one it took from the other group
(R190). -/
def State.sheafTaken (s : State) (g : Nat) : Bool :=
  match s.pairOfWorking g with
  | some k => decide ((s.pair k).nextSheaf ≤ (s.group (s.rxSource g)).rxSheaf)
  | none => true

/-- A tributary's received rows count: its group has no SF, no MAP_MISMATCH, no lane discards rows, and the selector takes the sheaf
(R162, R164, R168, R186, R190). -/
def State.tribCarried (s : State) (t : Nat) : Bool :=
  match s.rxGroupOf t with
  | none => false
  | some g =>
    let src := s.rxSource g
    s.groupUp src && !(s.gpages src).mismatch && !((s.groupLaneIds src).map s.lane).any (·.dropRows) && s.sheafTaken g

/-- TIME_EN of LNF_TIME_CFG with a channel that counts (R149). -/
def State.timeEn (s : State) : Bool :=
  s.flg Reg.lnfTimeCfg 8 && (s.chan (s.fld Reg.lnfTimeCfg 3 0)).st != .stopped

/-- The time of the headland words now: ns modulo 2^32 with a 16-bit fraction, in 2^-16 ns (R149). -/
def State.headTime (s : State) : Nat :=
  if s.timeEn then s.chanValue (s.fld Reg.lnfTimeCfg 3 0) / 2 ^ 24 % 2 ^ 48 else 0

/-- Ethernet second counter of an output below 32. -/
def State.ethCount (s : State) (p c n : Nat) : State := s.setEth p (fun e => { e with sec := secAdd e.sec c n })

/-! ## Muting -/

/-- Client and line transmitters are muted: SVC_MUTE_N, a level 3 response, a mode that mutes or turns outputs off, or
a power-fail sequence (R52, R55, R57, R96, R106). -/
def State.muted (s : State) : Bool :=
  s.pow.svcMute || s.ctl.halted || decide (0 < s.pow.pfStep) ||
  (match s.ctl.mode with
   | .service | .yokeLead | .yokeFollower | .ready => false
   | _ => true)

end Sys2Proof.Machine
end

