-- ==== Sys2Proof/Machine/Access.lean ====
section
/-! DEFINITION. The gates every host access passes: which blocks respond (R74, R88, R409, R570), what the I3C bus and an
allotment window reach (R511, R538), what clears an arm (R571), what a follower refuses and a lead conveys (R430). -/

namespace Sys2Proof.Machine

open Sys2Proof

/-- The unit block responds to host accesses. -/
def State.unitResponds (s : State) (u : Nat) : Bool :=
  match s.ctl.mode with
  | .sentry | .powerRise => false
  | .boot => if s.boot.phase < 8 ∨ s.boot.phase = 11 then u == 0 || u == 1 else u == 0 || s.unitEnabled u
  | .zeroized => [0, 1, 10, 13, 14, 15].contains u
  | _ => u == 0 || s.unitEnabled u

/-- The register is one whose host writes a lead conveys and a follower refuses (R430). -/
def conveyed (off : Nat) : Bool :=
  let o := off % 0x100000
  match off / 0x100000 with
  | 3 => (decide (0x2000 ≤ o) && decide (o < 0x2800) && (o % 0x80 == 0 || o % 0x80 == 4 || o % 0x80 == 8)) ||
         (decide (0x3000 ≤ o) && decide (o < 0x3800) && o % 0x40 == 0)
  | 4 => decide (0x10000 ≤ o) || (decide (0x200 ≤ o) && decide (o < 0x300) && (o % 0x20 == 0 || o % 0x20 == 4))
  | 5 => o == 0 || o == 0x10 || o == 0x14 || (decide (0x200 ≤ o) && decide (o < 0x300) && o % 0x10 != 0xC) ||
         (decide (0x400 ≤ o) && decide (o ≤ 0x440)) || (decide (0x1000 ≤ o) && decide (o < 0x5000))
  | 6 => decide (o < 0x20) || decide (0x1000 ≤ o)
  | 8 => decide (0x1000 ≤ o)
  | _ => false

/-- The module is a yoke follower or a resyncing twin. -/
def State.isFollower (s : State) : Bool := s.ctl.mode == .yokeFollower || s.ctl.mode == .yokeResync

/-- A write through the Device Window, window 0 or the I3C bus that reaches a unit's block clears the unit's arm (R571). -/
def State.touchArm (s : State) (p : Path) (u : Nat) : State :=
  match p with
  | .window n => if n.val = 0 then s.disarm u else s
  | _ => s.disarm u

/-- A host write to a register without private copies: it reaches the register only through the Device Window, or the
I3C bus for the STW and HDG blocks (R511, R538), only while the block responds; a follower refuses it, and a lead
conveys it once it has changed the register or asked for a gate change, where R430 says. -/
def State.hostWrite (s : State) (p : Path) (off : Nat) (v : Word) (act : State → State) : State :=
  let u := off / 0x100000
  match p with
  | .window _ => s
  | _ =>
    if p = .i3c ∧ u ≠ 1 ∧ u ≠ 13 then s.note Ev.i3cRefused
    else if s.unitResponds u = false then s
    else
      let s := s.touchArm p u
      if s.isFollower ∧ conveyed off then s.note Ev.yokeWriteRefused
      else
        let t := act s
        if conveyed off && (t.rd off != s.rd off || (decide (off / 0x100000 = 6) && bit v 28)) then
          t.convey 0x0A (beBytes 4 off ++ beBytes 4 v.toNat)
        else t

/-- The state of allotment n. -/
def State.allotState (s : State) (n : Nat) : AllotState := s.hif.allots.getD n .absent

/-- A host write to a command register with private copies: it acts for the allotment of its window (R511, R512). A
window is deaf in Zeroized (R409), for an absent allotment, and while its allotment is being reset (R528); while it is
frozen the command i is held (R531). Every command of a unit clears the unit's arm (R571). -/
def State.cmdWrite (s : State) (i : Instr) (p : Path) (off : Nat) (act : Nat → State → State) : State :=
  let u := off / 0x100000
  let n := p.allot
  if p = .i3c then s.note Ev.i3cRefused
  else if n ≠ 0 ∧ (s.ctl.mode = .zeroized ∨ s.allotExists n = false) then s
  else if s.unitResponds u = false then s
  else
    match s.allotState n with
    | .resetting => s
    | .frozen | .freezing => { s with held := s.held ++ [i] }
    | _ => (act n s).disarm u

/-- A host write to a register with private copies, other than a unit's OP (R511, R512). A register of a command engine
is held while the allotment is frozen (R531); all are deaf while it is being reset (R528). -/
def State.privWrite (s : State) (i : Instr) (p : Path) (off : Nat) (engine : Bool) (act : Nat → State → State) : State :=
  let u := off / 0x100000
  let n := p.allot
  if p = .i3c then s.note Ev.i3cRefused
  else if n ≠ 0 ∧ (s.ctl.mode = .zeroized ∨ s.allotExists n = false) then s
  else if s.unitResponds u = false then s
  else
    match s.allotState n with
    | .resetting => s
    | .frozen | .freezing => if engine then { s with held := s.held ++ [i] } else act n (s.touchArm p u)
    | _ => act n (s.touchArm p u)

/-- A command that a follower refuses: the refusal itself is noted (R430). -/
def State.followerRefusal (s : State) : State := s.note Ev.yokeWriteRefused

end Sys2Proof.Machine
end

