-- ==== Sys2Proof/Machine/Observe.lean ====
section
/-! DEFINITION. What watches frames and commands without changing them: filter units on frames
(R555, R556), seed tags and telemetry streams (R560 to R563). -/

namespace Sys2Proof.Machine

open Sys2Proof

/-- An association's context. -/
def State.ctx (s : State) (a : Nat) : Option Ctx := SMap.get noneOf s.asc.ctxs a

/-- Context a replaced. -/
def State.setCtx (s : State) (a : Nat) (c : Option Ctx) : State :=
  { s with asc := { s.asc with ctxs := SMap.set noneOf s.asc.ctxs a c } }

/-- Context a changed where it exists. -/
def State.modCtx (s : State) (a : Nat) (f : Ctx → Ctx) : State :=
  match s.ctx a with
  | some c => s.setCtx a (some (f c))
  | none => s

/-- Counter c of an association rises by n, saturating (R304). -/
def Ctx.bump (x : Ctx) (c n : Nat) : Ctx := { x with counters := modAt (fun v => satAdd (2 ^ 64 - 1) v n) x.counters c }

/-- Owner of an association; allotment 0 for an unused one. -/
def State.assocOwner (s : State) (a : Nat) : Nat := match s.ctx a with | some c => c.owner | none => 0

/-! ## Telemetry streams (R563) -/

/-- Records outstanding in stream k. -/
def State.streamLevel (s : State) (k : Nat) : Nat :=
  (s.count (Reg.pmcStreamIndex k) + 65536 - s.fld (Reg.pmcStreamIndex k) 15 0) % 65536

/-- Room for outstanding records, as R515 counts it. -/
def State.streamRoom (s : State) (k : Nat) : Nat := 2 ^ (min 16 (clamp 8 20 (s.fld (Reg.pmcStreamCfg k) 4 0))) - 1

/-- A 28-byte body enters stream k: PHASE and CRC-16 are added; a full stream discards it. -/
def State.streamPut (s : State) (k : Nat) (body : List Byte) : State :=
  if s.hif.linkUp = false then s
  else if s.streamRoom k ≤ s.streamLevel k then
    (s.wr (Reg.pmcStreamDrops k) (sat32 ((s.rd (Reg.pmcStreamDrops k)).toNat + 1))).note Ev.streamDropped (beBytes 1 k)
  else
    let m := s.count (Reg.pmcStreamIndex k)
    let size := 2 ^ clamp 8 20 (s.fld (Reg.pmcStreamCfg k) 4 0)
    let phase := 1 - m / size % 2
    let base := (s.rd (Reg.pmcStreamBaseLo k)).toNat / 4096 * 4096 + (s.rd (Reg.pmcStreamBaseHi k)).toNat * 2 ^ 32
    let bytes := body ++ beBytes 4 (phase * 2 ^ 31 + crc16 body)
    (s.dma (s.fld (Reg.pmcStreamCfg k) 13 8) false (base + m % size * 32) bytes).inc (Reg.pmcStreamIndex k)

/-- A record goes to every stream that passes. -/
def State.streamAll (s : State) (pass : Word → Bool) (body : List Byte) : State :=
  (List.range 16).foldl (fun s k =>
    let w := s.rd (Reg.pmcStreamCfg k)
    if bit w 31 && pass w then s.streamPut k body else s) s

/-! ## Frames at an observation point -/

/-- What a point sees of a frame: association once known, owner, MASTER id, class, length, queue depth. -/
structure Sight where
  assoc : Option Nat
  owner : Nat
  master : Nat
  cls : Nat
  len : Nat
  depth : Nat
  deriving DecidableEq, Repr

/-- MATCHES and BYTES are 48 bits, saturating. -/
def cap48 : Nat := 2 ^ 48 - 1

/-- Filter unit k passes a frame (R555, R556). -/
def State.fuPasses (s : State) (k p : Nat) (v : Sight) : Bool :=
  let w := s.rd (Reg.pmcFuCfg k)
  let m := s.rd (Reg.pmcFuMatch k)
  bits w 31 30 == 2 && bits w 19 16 == p &&
  (bits w 29 24 == 0 || bits w 29 24 == v.owner) &&
  (!bit w 3 || bits m 31 26 == v.owner) &&
  (!bit w 2 || (decide (bits m 9 0 ≤ v.master) && decide (v.master ≤ bits m 25 16))) &&
  (!bit w 1 || (match v.assoc with
    | some a => decide ((s.rd (Reg.pmcFuAddrLo k)).toNat ≤ a) && decide (a ≤ (s.rd (Reg.pmcFuAddrHi k)).toNat)
    | none => false)) &&
  (!bit w 0 || (bits w 15 8).testBit v.cls)

/-- Unit k counts one item of a length. -/
def State.fuCount (s : State) (k len : Nat) : State :=
  let get := fun i => SMap.get zeroOf s.led.fu i
  let fu := SMap.set zeroOf s.led.fu (2 * k) (satAdd cap48 (get (2 * k)) 1)
  { s with led := { s.led with fu := SMap.set zeroOf fu (2 * k + 1) (satAdd cap48 (get (2 * k + 1)) len) } }

/-- The filter units that are configured: a unit with no listed register has SOURCE 0. -/
def State.fuUsed (s : State) : List Nat :=
  (SMap.keysIn s.regs (Reg.pmcFuCfg 0) (Reg.pmcFuCfg 256)).filterMap (fun k =>
    if (k - Reg.pmcFuCfg 0) % 0x20 = 0 then some ((k - Reg.pmcFuCfg 0) / 0x20) else none)

/-- Filter unit k passes a bus transaction (R555, R556). -/
def State.fuPassesBus (s : State) (k allot unit master addr cls : Nat) : Bool :=
  let w := s.rd (Reg.pmcFuCfg k)
  let m := s.rd (Reg.pmcFuMatch k)
  bits w 31 30 == 1 && bits w 23 20 == unit &&
  (bits w 29 24 == 0 || bits w 29 24 == allot) &&
  (!bit w 3 || bits m 31 26 == allot) &&
  (!bit w 2 || (decide (bits m 9 0 ≤ master) && decide (master ≤ bits m 25 16))) &&
  (!bit w 1 || (decide ((s.rd (Reg.pmcFuAddrLo k)).toNat ≤ addr) && decide (addr ≤ (s.rd (Reg.pmcFuAddrHi k)).toNat))) &&
  (!bit w 0 || (bits w 15 8).testBit cls)

/-- A transaction arrives at a unit: filter units count it (R555). -/
def State.observeBus (s : State) (allot unit master addr cls len : Nat) : State :=
  s.fuUsed.foldl (fun s k => if s.fuPassesBus k allot unit master addr cls then s.fuCount k len else s) s

/-- A seed-tag record without PHASE and CRC (R562). -/
def State.tagRecord (s : State) (id p : Nat) (v : Sight) (dropped stomped : Bool) : List Byte :=
  let (ts, tn, _) := s.logTime
  beBytes 1 1 ++ beBytes 1 p ++ beBytes 2 (flag dropped * 32768 + flag stomped * 16384 + v.cls) ++ beBytes 4 id ++
  beBytes 8 s.blockNo ++ beBytes 4 (ts * 1000000000 + tn) ++ beBytes 2 (v.assoc.getD 0xFFFF) ++ beBytes 2 v.master ++
  beBytes 2 v.len ++ beBytes 2 (if 65535 < v.depth / 16 then 65535 else v.depth / 16)

/-- A frame passes point p: filter units count it, and a tagged frame gives its record where the point is enabled. -/
def State.observe (s : State) (p : Nat) (tag : Option Nat) (v : Sight) (dropped stomped : Bool) : State :=
  let s := s.fuUsed.foldl (fun s k => if s.fuPasses k p v then s.fuCount k v.len else s) s
  match tag with
  | none => s
  | some id =>
    if s.flg Reg.pmcTagCfg p && decide (p < 12) then
      s.streamAll (fun w => bit w 30 && (bits w 13 8 == 0 || bits w 13 8 == v.owner)) (s.tagRecord id p v dropped stomped)
    else s

/-- A frame enters at point 0 or 7: while EN is 1 it is tagged with probability 2^−RATE_EXP, the draw being a free
value (R560). -/
def State.drawTag (s : State) : Option Nat × State :=
  if s.flg Reg.pmcTagCfg 31 then
    let (k, s) := s.draw
    if Config.freeNat k % 2 ^ clamp 8 24 (s.fld Reg.pmcTagCfg 28 24) = 0 then
      (some s.led.tagNext, { s with led := { s.led with tagNext := (s.led.tagNext + 1) % 2 ^ 32 } })
    else (none, s)
  else (none, s)

end Sys2Proof.Machine
end

