-- ==== Sys2Proof/Machine/Snap.lean ====
section
/-! DEFINITION. Counter snapshots, dumps and filter samples (R558, R559, R562), and the second's arrival difference of a
yoke. -/

namespace Sys2Proof.Machine

open Sys2Proof

/-! ## Filter samples -/

/-- A filter sample of unit k without PHASE and CRC (R562). -/
def State.fuSample (s : State) (k no : Nat) : List Byte :=
  let (ts, tn, _) := s.logTime
  let b := SMap.get zeroOf s.led.fu (2 * k + 1)
  beBytes 1 2 ++ beBytes 1 k ++ beBytes 2 0 ++ beBytes 4 no ++ beBytes 8 (SMap.get zeroOf s.led.fu (2 * k)) ++
  beBytes 4 b ++ beBytes 2 (b / 2 ^ 32) ++ beBytes 2 0 ++ beBytes 4 (ts * 1000000000 + tn)

/-- One filter sample of unit k goes to each stream with FU set of the same OWNER (R563). -/
def State.sampleUnit (s : State) (k : Nat) : State :=
  let owner := bits (s.rd (Reg.pmcFuCfg k)) 29 24
  let no := SMap.get zeroOf s.led.fuSample k
  let s := s.streamAll (fun w => bit w 29 && bits w 13 8 == owner) (s.fuSample k no)
  { s with led := { s.led with fuSample := SMap.set zeroOf s.led.fuSample k ((no + 1) % 2 ^ 32) } }

/-! ## Dumps -/

/-- Slots of the dump ring. -/
def State.dumpSlots (s : State) : Nat := 2 ^ min 8 (s.fld Reg.pmcDumpCfg 3 0)

/-- Dumps written and not consumed. -/
def State.dumpLevel (s : State) : Nat :=
  (s.count Reg.pmcDumpIndex + 65536 - s.fld Reg.pmcDumpIndex 15 0) % 65536

/-- Bytes 0 to 27,679 of a dump (R559); periodic is FLAGS bit 1. -/
def State.dumpBody (s : State) (periodic : Bool) : List Byte :=
  let (ts, tn, v) := s.logTime
  [0x53#8, 0x4C#8, 0x50#8, 0x44#8] ++ beBytes 4 s.led.dumpSeq ++ beBytes 8 s.blockNo ++ beBytes 8 ts ++ beBytes 4 tn ++
  beBytes 4 (flag v + flag periodic * 2) ++
  (List.range 4096).flatMap (fun i => beBytes 6 (SMap.get zeroOf s.led.evc i)) ++
  (List.range 512).flatMap (fun i => beBytes 6 (SMap.get zeroOf s.led.fu i))

/-- A dump is written into the next free slot of the dump ring under allotment 0's PASID, SEQ last; without a free slot it
is discarded and counted (R558, R559). -/
def State.dump (s : State) (periodic : Bool) : State :=
  if s.dumpSlots ≤ s.dumpLevel ∨ s.hif.linkUp = false then
    (s.wr Reg.pmcDrops (sat32 ((s.rd Reg.pmcDrops).toNat + 1))).note Ev.dumpDropped
  else
    let body := s.dumpBody periodic
    let base := (s.rd Reg.pmcDumpBaseLo).toNat / 32768 * 32768 + (s.rd Reg.pmcDumpBaseHi).toNat * 2 ^ 32
    let addr := base + s.count Reg.pmcDumpIndex % s.dumpSlots * 32768
    let s := s.dma 0 false addr (body.take 4)
    let s := s.dma 0 false (addr + 8) (body.drop 8 ++ beBytes 4 (crc32 body))
    let s := s.dma 0 false (addr + 4) (slice body 4 4)
    ({ s with led := { s.led with dumpSeq := s.led.dumpSeq + 1 } }).inc Reg.pmcDumpIndex

/-- A snapshot (R558): its dump while dumps are enabled, and the filter samples of the streams. -/
def State.snapshot (s : State) (periodic : Bool) : State :=
  let s := if s.flg Reg.pmcDumpCfg 31 then s.dump periodic else s
  (List.range 256).foldl State.sampleUnit s

/-! ## The second's arrival difference -/

/-- YOK_SKEW takes the largest arrival difference of matched frames of the second that ends. -/
def State.latchSkew (s : State) : State :=
  let n := s.yok.skewNs
  let s := s.wr Reg.yokSkew (BitVec.ofNat 32 (flag (s.yok.skewLater && decide (0 < n)) * 2 ^ 31 + (if 65535 < n then 65535 else n)))
  { s with yok := { s.yok with skewNs := 0, skewLater := false } }

end Sys2Proof.Machine
end

