-- ==== Sys2Proof/Machine/Stream.lean ====
section
/-! DEFINITION. What stands on a Glafold lane for the sheaves that the module sends or receives: numbered blocks, the scrambler,
66-bit blocks, transcoding, RS(544,514) codewords, PAM4 symbols (R137, R138, R140 to R142, R154 to R156). What the spec takes from
IEEE 802.3 is written out as that standard has it (PRESUMED, log entry 101). -/

namespace Sys2Proof.Machine

open Sys2Proof

/-! ## Blocks (R138, R154 to R156) -/

/-- Payload of block j of row r of the lane: of the tributary that holds the row, block j·k + q for its q-th of k rows; 0x00 where no
tributary uses the row. -/
def LaneSheaf.rowBlock (x : LaneSheaf) (r j : Nat) : List Byte :=
  match x.tribs.findSome? (fun t => (t.rows.find? (fun p => p.1 == r)).map (fun p => (t, p.2))) with
  | some (t, q) => slice t.bytes (8 * (j * t.count + q)) 8
  | none => zeroBytes 8

/-- Payload of block n of the sheaf before scrambling: blocks 0 to 19 are the headland, block 20 + 32j + r is block j of row r. -/
def LaneSheaf.block (x : LaneSheaf) (n : Nat) : List Byte :=
  if n < 20 then slice x.head (8 * n) 8 else x.rowBlock ((n - 20) % 32) ((n - 20) / 32)

/-- Blocks of a sheaf. -/
def sheafBlocks : Nat := 20500

/-- The payload bytes of a sheaf in transmit order. -/
def LaneSheaf.payload (x : LaneSheaf) : List Byte := (List.range sheafBlocks).flatMap x.block

/-! ## Bits and the scrambler (R141, R142) -/

/-- The bits of a byte, least significant first. -/
def byteBits (b : Byte) : List Bool := (List.range 8).map b.getLsbD

/-- The bits of bytes in transmit order. -/
def bitsOf (bs : List Byte) : List Bool := bs.flatMap byteBits

/-- The byte of 8 bits, least significant first. -/
def bitsByte (l : List Bool) : Byte := BitVec.ofNat 8 (((List.range 8).map (fun k => if l.getD k false then 2 ^ k else 0)).sum)

/-- The bytes of bits in transmit order. -/
def bytesOf : Nat → List Bool → List Byte
  | 0, _ => []
  | n + 1, l => bitsByte (l.take 8) :: bytesOf n (l.drop 8)

/-- Seed of the scrambler of lane index i. -/
def scrambleSeed (i : Nat) : Nat := (0x55555555 ^^^ i) % 2 ^ 31

/-- The additive scrambler x^31 + x^28 + 1 from a state. It is its own inverse, so it descrambles as well. -/
def scramble (st : Nat) : List Bool → List Bool
  | [] => []
  | b :: bs =>
    let p := st.testBit 30 != st.testBit 27
    (b != p) :: scramble ((2 * st + flag p) % 2 ^ 31) bs

/-- The payload bits of a lane's sheaf as they are sent: block 0 as it is, the others scrambled. -/
def scrambleSheaf (i : Nat) (bs : List Bool) : List Bool := bs.take 64 ++ scramble (scrambleSeed i) (bs.drop 64)

/-- The payload bits of a sheaf on its lane. -/
def LaneSheaf.bits (x : LaneSheaf) : List Bool := scrambleSheaf x.idx (bitsOf x.payload)

/-- The headland that a lane carries, descrambled: the marker as it stands, the other 152 bytes through the scrambler. -/
def descrambleHead (i : Nat) (h : List Byte) : List Byte := h.take 8 ++ bytesOf 152 (scramble (scrambleSeed i) (bitsOf (h.drop 8)))

/-! ## Coding (R137, R140) -/

/-- The 64-bit payloads of n blocks. -/
def payloads : Nat → List Bool → List (List Bool)
  | 0, _ => []
  | n + 1, l => l.take 64 :: payloads n (l.drop 64)

/-- The 66-bit blocks of a sheaf: sync header 0b01, never scrambled, then the payload. -/
def LaneSheaf.blocks66 (x : LaneSheaf) : List (List Bool) := (payloads sheafBlocks x.bits).map (fun p => [false, true] ++ p)

/-- Four data blocks transcoded to 257 bits: the header bit 1, then their payloads. -/
def transcode : List (List Bool) → List (List Bool)
  | a :: b :: c :: d :: rest => (true :: (a.drop 2 ++ b.drop 2 ++ c.drop 2 ++ d.drop 2)) :: transcode rest
  | _ => []

/-- The 5,125 transcoded blocks of a sheaf. -/
def LaneSheaf.transcoded (x : LaneSheaf) : List (List Bool) := transcode x.blocks66

/-- Transcoded blocks of its codeword that come before block 0 of sheaf n. -/
def sheafPhase (n : Nat) : Nat := 5 * (n % 4)

/-- Bits between the first bit of the codeword and the first payload bit of block 0 of sheaf n. -/
def markerOffset (n : Nat) : Nat := sheafPhase n * 257 + 1

/-- A product in GF(2^10) modulo x^10 + x^3 + 1, over n bits of a. -/
def gfMul : Nat → Nat → Nat → Nat
  | 0, _, _ => 0
  | n + 1, a, b =>
    let twice := if b.testBit 9 then (2 * b) ^^^ 0x409 else 2 * b
    (if a.testBit 0 then b else 0) ^^^ gfMul n (a / 2) twice

/-- The generator polynomial's coefficients below x^30, lowest first, with the leading 1 left out: the product of (x − α^j) for
j = 0 to 29. -/
def rsGenerator : List Nat :=
  let step := fun (a : List Nat × Nat) (_ : Nat) =>
    let (g, r) := a
    let shifted := 0 :: g
    let scaled := g.map (gfMul 10 r) ++ [0]
    ((List.zip shifted scaled).map (fun x => x.1 ^^^ x.2), gfMul 10 2 r)
  (((List.range 30).foldl step ([1], 1)).1).take 30

/-- One message symbol enters the division by the generator: rem holds the remainder, highest power first. -/
def rsStep (g : List Nat) (rem : List Nat) (m : Nat) : List Nat :=
  let f := m ^^^ rem.headD 0
  (List.zip (rem.drop 1 ++ [0]) g).map (fun x => x.1 ^^^ gfMul 10 f x.2)

/-- The 30 parity symbols of 514 message symbols, in transmit order. -/
def rsParity (ms : List Nat) : List Nat := ms.foldl (rsStep rsGenerator.reverse) (List.replicate 30 0)

/-- 10-bit symbols, least significant bit first. -/
def symbolsOf : Nat → List Bool → List Nat
  | 0, _ => []
  | n + 1, l => ((List.range 10).map (fun k => if l.getD k false then 2 ^ k else 0)).sum :: symbolsOf n (l.drop 10)

/-- The 5,440 bits of the codeword of 20 transcoded blocks. -/
def codeword (ts : List (List Bool)) : List Bool :=
  let ms := symbolsOf 514 ts.flatten
  (ms ++ rsParity ms).flatMap (fun v => (List.range 10).map v.testBit)

/-- The whole codewords of a list of transcoded blocks, in order, and the blocks left for the next codeword. -/
def codewords : Nat → List (List Bool) → List (List Bool) × List (List Bool)
  | 0, ts => ([], ts)
  | n + 1, ts =>
    if ts.length < 20 then ([], ts)
    else
      let (cs, rest) := codewords n (ts.drop 20)
      (codeword (ts.take 20) :: cs, rest)

/-- Gray-coded PAM4 symbols of a bit stream. -/
def pam4 : List Bool → List Nat
  | a :: b :: rest => (if a then (if b then 2 else 3) else flag b) :: pam4 rest
  | _ => []

/-- The precoder 1/(1 + D) modulo 4 from its last output. -/
def precode (last : Nat) : List Nat → List Nat
  | [] => []
  | g :: gs => let p := (g + 4 - last % 4) % 4; p :: precode p gs

/-- The transcoded blocks of consecutive sheaves of one lane, after those of the codeword in which the first of them begins. -/
def laneBlocks (before : List (List Bool)) (xs : List LaneSheaf) : List (List Bool) := before ++ xs.flatMap LaneSheaf.transcoded

/-- The symbols on a lane for consecutive sheaves: whole codewords in order, Gray coded, precoded where the lane's PRECODE is 1.
before holds the transcoded blocks of the first codeword that an earlier sheaf carried: 5 × (n mod 4) of them (R140). -/
def laneSymbols (before : List (List Bool)) (last : Nat) (xs : List LaneSheaf) : List Nat :=
  let ts := laneBlocks before xs
  let syms := pam4 (codewords (ts.length / 20) ts).1.flatten
  match xs with
  | x :: _ => if x.precode then precode last syms else syms
  | [] => []

end Sys2Proof.Machine
end

