-- ==== Sys2Proof/Machine/Lanes.lean ====
section
/-! DEFINITION. Lanes, ports and the framer's receive side (chapter 05): lane defects, FEC windows, PCS, alignment,
second latch, tributary delineation, lane tests, Ethernet reception. -/

namespace Sys2Proof.Machine

open Sys2Proof

/-! ## Lane defects -/

/-- LANE_LOS (R166): no amplitude for 5 µs; LOS is declared once. -/
def execLaneLos (lane : Fin 32) (s : State) : Host.Outcome State Fault Refusal :=
  let n := lane.val
  let old := s.laneGroupFlags n
  if (s.lane n).los then .next (s.setLane n (fun l => { l with signal := false }))
  else
    let s := s.touchLane n (fun l => { l with los := true, signal := false })
    let s := s.setFlg (Reg.lnfLaneStatus n) 3 true
    let s := s.noteFor Ev.laneLos (s.laneOwner n) (beBytes 1 n)
    .next (s.laneChanged n old)

/-- LANE_LOL (R166): clock and data recovery is out of lock. -/
def execLaneLol (lane : Fin 32) (s : State) : Host.Outcome State Fault Refusal :=
  let n := lane.val
  let old := s.laneGroupFlags n
  if (s.lane n).lol then .next (s.setLane n (fun l => { l with cdrLock := false }))
  else
    let s := s.touchLane n (fun l => { l with lol := true, cdrLock := false, cwLock := false })
    let s := s.setFlg (Reg.lnfLaneStatus n) 2 true
    let s := s.noteFor Ev.laneLol (s.laneOwner n) (beBytes 1 n)
    .next (s.laneChanged n old)

/-- LANE_CLEAR (R166): signal present, or lock held, for 100 µs; the record names the defect by its DEFECT_SEC bit. -/
def execLaneClear (lane : Fin 32) (lol : Bool) (s : State) : Host.Outcome State Fault Refusal :=
  let n := lane.val
  let old := s.laneGroupFlags n
  let l := s.lane n
  if (if lol then l.lol else l.los) then
    let s := if lol then s.touchLane n (fun l => { l with lol := false, cdrLock := true })
             else s.touchLane n (fun l => { l with los := false, signal := true })
    let s := s.noteFor Ev.laneClear (s.laneOwner n) (beBytes 1 (flag lol))
    .next (s.laneChanged n old)
  else
    .next (if lol then s.setLane n (fun l => { l with cdrLock := true })
           else s.setLane n (fun l => { l with signal := true }))

/-- CLEAR_WINDOWS of a group, at least 1. -/
def State.lastOfWindows (s : State) (g : Nat) : Nat :=
  if s.fld (Reg.lnfGrpExcCfg g) 23 16 = 0 then 1 else s.fld (Reg.lnfGrpExcCfg g) 23 16

/-- EXC_SET, at least 1. -/
def State.excSet (s : State) (g : Nat) : Nat :=
  if s.fld (Reg.lnfGrpExcCfg g) 15 0 = 0 then 1 else s.fld (Reg.lnfGrpExcCfg g) 15 0

/-- SD_SET, SD_CLEAR, EXC_SET and CLEAR_WINDOWS of a lane: its group's registers. A client lane has no such registers: the values
that those registers reset to (DESIGN CHOICE, log entry 100). -/
def State.fecBounds (s : State) (n : Nat) : Nat × Nat × Nat × Nat :=
  match s.groupOfLane n with
  | some g => ((s.rd (Reg.lnfGrpSdSet g)).toNat, (s.rd (Reg.lnfGrpSdClear g)).toNat, s.excSet g, s.lastOfWindows g)
  | none => (21250, 2125, 64, 10)

/-- FEC_MODE of a lane (R132): of its Ethernet port, or of its Glafold group; 2 and 3 act as 0. -/
def State.fecMode (s : State) (n : Nat) : Nat :=
  let m := match s.entryOfLane n with
    | some e => if 16 ≤ e ∧ s.isGlafold (e - 16) then s.fld (Reg.lnfGrpCtrl (e - 16)) 2 1 else s.fld (Reg.lnfEthCtrl e) 2 1
    | none => 0
  if m = 1 then 1 else 0

/-- SD of a lane at a window's end (R166): set above SD_SET; cleared after CLEAR_WINDOWS windows at or below SD_CLEAR. -/
def sdWindow (l : Lane) (sym set_ clear windows : Nat) : Lane :=
  let quiet := if sym ≤ clear then l.sdQuiet + 1 else 0
  if set_ < sym then { l with sd := true, sdQuiet := quiet }
  else if l.sd && decide (windows ≤ quiet) then { l with sd := false, sdQuiet := quiet }
  else { l with sdQuiet := quiet }

/-- EXC of a lane at a window's end (R166). -/
def excWindow (l : Lane) (unc set_ windows : Nat) : Lane :=
  let quiet := if unc < set_ then l.excQuiet + 1 else 0
  if set_ ≤ unc then { l with exc := true, excQuiet := quiet }
  else if l.exc && decide (windows ≤ quiet) then { l with exc := false, excQuiet := quiet }
  else { l with excQuiet := quiet }

/-- FEC_WINDOW_END (R132, R166, R167): a 10 ms window's counts; the second counters take them too. FEC mode 1 corrects nothing, so
no codeword and no symbol counts as corrected. SD and EXC are declared and cleared only once the lane's windows run. -/
def execFecWindowEnd (lane : Fin 32) (symCorr cwCorr cwUncorr : Nat) (s : State) :
    Host.Outcome State Fault Refusal :=
  let n := lane.val
  let old := s.laneGroupFlags n
  let was := s.lane n
  let fix := fun (x : Nat) => if s.fecMode n = 1 then 0 else x
  let s := s.setLane n (fun l => { l with sec := secAdd (secAdd (secAdd l.sec 0 (fix cwCorr)) 1 cwUncorr) 2 (fix symCorr) })
  let s := if 0 < cwUncorr then s.setFlg (Reg.lnfLaneStatus n) 0 true else s
  if was.windows = false then .next s
  else
    let (set_, clear, exc, w) := s.fecBounds n
    let s := s.touchLane n (fun l => excWindow (sdWindow l (fix symCorr) set_ clear w) cwUncorr exc w)
    let now := s.lane n
    let s := if was.sd && !now.sd then s.noteFor Ev.laneClear (s.laneOwner n) (beBytes 1 3) else s
    let s := if was.exc && !now.exc then s.noteFor Ev.laneClear (s.laneOwner n) (beBytes 1 4) else s
    .next (s.laneChanged n old)

/-- SEEN flags of LNF_ETH_STATUS that rise with the PCS state: bit 8 + k when status bit k rises (k = 1 to 4). -/
def ethSeen (a b : EthPort) : Nat :=
  flag (!a.aligned && b.aligned) * 0x200 + flag (!a.hiBer && b.hiBer) * 0x400 +
  flag (!a.localFault && b.localFault) * 0x800 + flag (!a.remoteFault && b.remoteFault) * 0x1000

/-- PCS_STATE_CHANGE (R166 to R168): UP is ENABLE without PCS_DOWN; its change raises ETH_LINK_UP or ETH_LINK_DOWN. The first PCS
lock starts the windows of the port's lanes. -/
def execPcsStateChange (port : Fin 32) (aligned hiBer localFault remoteFault : Bool) (s : State) :
    Host.Outcome State Fault Refusal :=
  let p := port.val
  let was := s.ethPort p
  let old := if 16 ≤ p then s.groupFlags (p - 16) else 0
  let new : EthPort := { was with aligned := aligned, hiBer := hiBer, localFault := localFault, remoteFault := remoteFault }
  let s := s.setEth p (fun _ => new)
  let s := s.wr (Reg.lnfEthStatus p) (s.rd (Reg.lnfEthStatus p) ||| BitVec.ofNat 32 (ethSeen was new))
  let s := s.refreshPort p
  let s := if aligned then (s.entryLanes p).foldl (fun s n => s.setLane n (fun l => { l with windows := true })) s else s
  .next (if 16 ≤ p then s.refreshGroup (p - 16) old else s.recheck)

/-! ## Alignment -/

/-- The marker bytes of R143. -/
def markerBytes : List Byte := [0xA7#8, 0x3C#8, 0xE4#8, 0x19#8, 0xD2#8, 0x6B#8]

/-- Bits in which two bytes differ. -/
def byteDist (a b : Byte) : Nat := ((List.range 8).filter (fun k => (a ^^^ b).getLsbD k)).length

/-- Bits in which two byte strings differ. -/
def bytesDist : List Byte → List Byte → Nat
  | a :: as, b :: bs => byteDist a b + bytesDist as bs
  | _, _ => 0

/-- QUARTER codes of sheaf numbers mod 4 = 0 to 3 (R143). -/
def quarterCodes : List Byte := [0x0F#8, 0x33#8, 0x55#8, 0x69#8]

/-- A marker matches (R162): at most 4 bits differ from MARKER, and QUARTER lies within 1 bit of a code. -/
def markerMatches (m : List Byte) : Bool :=
  decide (8 ≤ m.length) && decide (bytesDist (m.take 6) markerBytes ≤ 4) &&
  quarterCodes.any (fun q => decide (byteDist (m.getD 6 0) q ≤ 1))

/-- The sheaf number mod 4 that a QUARTER byte names: the code within 1 bit of it (R143, R162). -/
def quarterOf (q : Byte) : Nat := ((List.range 4).find? (fun k => decide (byteDist q (quarterCodes.getD k 0) ≤ 1))).getD 0

/-- Transcoded blocks of the codeword before block 0 of a sheaf whose QUARTER is q (R140). -/
def quarterPhase (q : Byte) : Nat := sheafPhase (quarterOf q)

/-- MARKER_FOUND (R162): in HUNT a matching marker takes the codeword phase and enters PRESYNC with count 1. -/
def execMarkerFound (lane : Fin 32) (marker : List Byte) (sheafNo : BitVec 48) (s : State) :
    Host.Outcome State Fault Refusal :=
  let n := lane.val
  match s.groupOfLane n with
  | none => .next s
  | some g =>
    if s.isGlafold g ∧ (s.lane n).align = .hunt ∧ markerMatches marker then
      .next (s.setLane n (fun l => { l with
        align := .presync 1, cwLock := true, codePhase := quarterPhase (marker.getD 6 0), prevSheaf := sheafNo.toNat
        tagIdx := (marker.getD 7 0).toNat / 32, arrive := s.now, echoSheaf := sheafNo.toNat, echo := s.headTime }))
    else .next s

/-- The spread of arrivals in ns. -/
def spreadOf (xs : List Nat) : Nat := xs.foldl max 0 - (match xs with | [] => 0 | x :: t => t.foldl min x)

/-- R165: a group is aligned. -/
def State.alignedNow (s : State) (g : Nat) : Bool :=
  let ls := (s.groupLaneIds g).map s.lane
  let w := ls.length
  let wcode := if w = 1 then 0 else if w = 2 then 1 else if w = 4 then 2 else 3
  decide (0 < w) &&
  ls.all (fun l => match l.align with | .sync _ => true | _ => false) &&
  (List.range w).all (fun i => (ls.filter (fun l => l.tagIdx == i)).length == 1) &&
  ls.all (fun l => l.rxWidth == wcode && l.rxGroup == (ls.map (·.rxGroup)).headD 0 &&
    l.prevSheaf == (ls.map (·.prevSheaf)).headD 0) &&
  decide (spreadOf (ls.map (·.arrive)) ≤ 2000)

/-- GROUP_ALIGNMENT_CHECK (R165): once per sheaf; a group that is not aligned has LOGA. -/
def execGroupAlignmentCheck (group : Fin 16) (s : State) : Host.Outcome State Fault Refusal :=
  let g := group.val
  if s.isGlafold g = false then .next s
  else
    let old := s.groupFlags g
    let was := s.group g
    let ok := s.alignedNow g
    let ls := (s.groupLaneIds g).map s.lane
    let spread := spreadOf (ls.map (·.arrive))
    let first := match ls.map (·.arrive) with | [] => 0 | x :: t => t.foldl min x
    let s := s.setGroup g (fun x => { x with
      aligned := ok, loga := !ok, spreadNs := if 4095 < spread then 4095 else spread
      rxSheaf := if ok then (ls.map (·.prevSheaf)).headD 0 else x.rxSheaf })
    let s := (s.groupLaneIds g).foldl (fun s n =>
      s.wr (Reg.lnfLaneSkew n) (BitVec.ofNat 32 (((s.lane n).arrive - first) * 25 / 8 % 8192))) s
    let s := if !ok && !was.loga then s.noteFor Ev.groupLoga (s.outOwner (16 + g)) (beBytes 1 g) else s
    .next (s.refreshGroup g old)

/-! ## Second latch -/

/-- Write a list of counts to consecutive registers. -/
def State.wrList (s : State) (k : Nat) : List Nat → State
  | [] => s
  | v :: vs => State.wrList (s.wr k (sat32 v)) (k + 4) vs

/-- The second counters as they are latched: the flags of defects that hold are set (R172). -/
def Lane.latched (l : Lane) : List Nat := secFlags l.sec 5 l.secMask
def Group.latched (x : Group) : List Nat := secFlags x.sec 3 x.secMask

/-- Every running second counter restarts from 0, but for the flags of defects that hold on. -/
def Line.nextSecond (l : Line) : Line :=
  { l with lanes := l.lanes.map (fun (x : Lane) => { x with sec := [0, 0, 0, 0, 0, x.secMask] }),
           groups := l.groups.map (fun (x : Group) => { x with sec := [0, 0, 0, x.secMask] }),
           eth := l.eth.map (fun (x : EthPort) => { x with sec := List.replicate 6 0 }) }

/-- SECOND_LATCH (R170, R172): all running counts go to the latched registers and restart from 0; a defect that holds on
marks the new second too. SOURCE is 1 while Time gives no tick. The tick takes the snapshot of ON_TICK (R558) and latches
YOK_SKEW. -/
def execSecondLatch (s : State) : Host.Outcome State Fault Refusal :=
  let s := if s.flg Reg.pmcSnapCfg 30 then s.snapshot true else s
  let s := s.latchSkew
  let own := (s.chan (s.fld Reg.timCfg 19 16)).st == .stopped || !s.islandUp 17
  let s := (List.range 32).foldl (fun s n => s.wrList (Reg.lnfLaneSec n 0) (s.lane n).latched) s
  let s := (List.range 16).foldl (fun s g => s.wrList (Reg.lnfGrpSec g 0) (s.group g).latched) s
  let s := (List.range 32).foldl (fun s p => s.wrList (Reg.lnfEthSec p 0) (s.ethPort p).sec) s
  let s := { s with line := s.line.nextSecond }
  let w := setBits (setBits (s.rd Reg.lnfSecond) 31 16 (s.fld Reg.lnfSecond 31 16 + 1)) 1 0 (flag own * 2 + 1)
  .next (s.wr Reg.lnfSecond w)

/-! ## Lane tests and enables -/

/-- R173: a lane test value is accepted while the lane's port or group has ENABLE at 0, or in Ready or Self-Test. -/
def State.testAllowed (s : State) (n : Nat) : Bool :=
  s.ctl.mode == .ready || s.ctl.mode == .selfTest ||
  (match s.entryOfLane n with
   | some e => if e < 16 then !s.portEnabled e else !s.groupEnabled (e - 16)
   | none => true)

/-- What a write of LNF_LANE_CTRL[n] does (R173, R169): the port or group of a lane in test has PCS_DOWN or SF. -/
def State.laneCtrlEffect (s : State) (n : Nat) (val : Word) : State :=
  if (prbsOf val ≠ 0 ∨ loopOf val ≠ 0) ∧ s.testAllowed n = false then s.noteFor Ev.laneCtrlRefused (s.laneOwner n) (beBytes 1 n)
  else
    let w := setBits (setBits (setBits (setBits 0 9 9 (bits val 9 9)) 8 6 (prbsOf val)) 5 4 (loopOf val)) 0 0 (bits val 0 0)
    let old := s.laneGroupFlags n
    let s := s.wr (Reg.lnfLaneCtrl n) w
    match s.entryOfLane n with
    | none => s
    | some e =>
      let s := if e < 16 ∨ s.groupKind (e - 16) = 1 then s.refreshPort e else s
      s.laneChanged n old

/-- LANE_CTRL_WRITE (R173, R169): the whole write is ignored and LANE_CTRL_REFUSED raised when it carries a test value
that is not accepted; a lane under test reports LOS, LOL and LOA from its test path. -/
def execLaneCtrlWrite (path : Path) (lane : Fin 32) (val : Word) (s : State) : Host.Outcome State Fault Refusal :=
  let n := lane.val
  .next (s.hostWrite path (Reg.lnfLaneCtrl n) val (fun s => s.laneCtrlEffect n val))

/-- PRBS and LOOPBACK of the lanes of a CROSSBAR entry return to 0 (R173). -/
def State.clearTests (s : State) (e : Nat) : State :=
  (s.entryLanes e).foldl (fun s n => s.setFld (Reg.lnfLaneCtrl n) 8 4 0) s

/-- The stored control word of a port: MAX_FRAME clamped under R133. -/
def ethCtrlWord (p : Nat) (val : Word) : Word :=
  setBits (setBits (setBits 0 17 4 (clamp 1518 (if p < 16 then 9216 else 9248) (bits val 17 4))) 2 1 (bits val 2 1)) 0 0 (bits val 0 0)

/-- What a write of LNF_GRP_CTRL[i] or LNF_ETH_CTRL[i] does (R173, R63). -/
def State.portEnableEffect (s : State) (group : Bool) (i : Nat) (val : Word) : State :=
    let off := if group then Reg.lnfGrpCtrl i else Reg.lnfEthCtrl i
    let e := if group then 16 + i else i
    let on := bit val 0
    if on ∧ (s.xbar e).kind = 0 then s.note Ev.structureBound (beBytes 4 off)
    else
      let old := if 16 ≤ e then s.groupFlags (e - 16) else 0
      let s := if group then s.wr off (val &&& 0x7F#32) else s.wr off (ethCtrlWord i val)
      let s := if group ∧ s.groupKind i = 1 then s.setFlg (Reg.lnfEthCtrl (16 + i)) 0 on
               else if !group ∧ 16 ≤ i then s.setFlg (Reg.lnfGrpCtrl (i - 16)) 0 on else s
      let s := if on then s.clearTests e else s
      let s := if e < 16 ∨ s.groupKind (e - 16) = 1 then s.refreshPort e else s
      if 16 ≤ e then s.refreshGroup (e - 16) old else s.recheck

/-- PORT_ENABLE_WRITE (R173, R63): a write of LNF_GRP_CTRL[idx] or LNF_ETH_CTRL[idx]. Enabling an entry that the image
leaves unused is ignored and raises STRUCTURE_BOUND; on a line group of KIND 1 the two ENABLE bits are one. -/
def execPortEnableWrite (path : Path) (group : Bool) (idx : Fin 32) (val : Word) (s : State) :
    Host.Outcome State Fault Refusal :=
  let i := idx.val
  if group ∧ 16 ≤ i then .next s
  else
    let off := if group then Reg.lnfGrpCtrl i else Reg.lnfEthCtrl i
    .next (s.hostWrite path off val (fun s => s.portEnableEffect group i val))

/-! ## Ethernet reception -/

/-- The FCS of frame bytes without it, as 4 bytes in transmit order. -/
def fcsOf (body : List Byte) : List Byte := leBytes 4 (crc32 body)

/-- A frame's FCS is good. -/
def fcsGood (f : List Byte) : Bool := decide (4 ≤ f.length) && f.drop (f.length - 4) == fcsOf (f.take (f.length - 4))

/-- EtherType of an untagged frame. -/
def etherType (f : List Byte) : Nat := ofBe (slice f 12 2)

/-- ETH_FRAME_RECEIVE (R133, R168): runts, overlong and MAC control frames are dropped and counted in RX_LEN_DROP; the
others count as good or bad by FCS. On a line group with SF, received frames are discarded and counted. A good frame goes on as
CLIENT_FRAME_LOOKUP or LINE_FRAME_RECEIVE. -/
def execEthFrameReceive (port : Fin 32) (frame : List Byte) (s : State) : Host.Outcome State Fault Refusal :=
  let p := port.val
  if s.ethEnabled p = false then .next s
  else if 16 ≤ p ∧ (s.group (p - 16)).sf then .next (s.tally (tallySf (p - 16)))
  else if frame.length < 64 ∨ s.fld (Reg.lnfEthCtrl p) 17 4 < frame.length ∨ etherType frame = 0x8808 then
    .next (s.ethCount p 2 1)
  else if fcsGood frame then .next (s.ethCount p 0 1)
  else .next (s.ethCount p 1 1)

end Sys2Proof.Machine
end

