-- ==== Sys2Proof/Machine/Rows.lean ====
section
/-! DEFINITION. Row Interchange and line protection (chapter 06): page swaps, connection memory writes, protection
pairs, automatic protection switching and its timers. -/

namespace Sys2Proof.Machine

open Sys2Proof

/-! ## Page swaps -/

/-- Lead and group of RIX_SWAP_CMD; 0 and 1 act as 2, 15 acts as 14. -/
def swapLead (w : Word) : Nat := clamp 2 14 (bits w 11 8)
def swapGroup (w : Word) : Nat := bits w 3 0

/-- A swap is announced and not yet in effect. -/
def State.swapBusy (s : State) : Bool := (List.range 16).any (fun g => (s.gpages g).txSwap.isSome)

/-- An entry of a standby page breaks R177 when its tributary stands in the active transmit page of another group. -/
def State.breaksR177 (s : State) (g t : Nat) : Bool :=
  (List.range 16).any (fun h => h != g && s.isGlafold h && (s.pairOfProtect h).isNone && (s.txTribs h).contains t)

/-- The first group row whose standby entry breaks R177. -/
def State.swapOffender (s : State) (g : Nat) : Option Nat :=
  (s.groupRows g).find? (fun i =>
    let e := s.tcmEntry (1 - (s.gpages g).txActive) g i
    entryUsed e && s.breaksR177 g (entryTrib e))

/-- The swap sheaf of R180, one later where it would meet an announced flip (R183). -/
def State.swapSheaf (s : State) (g lead : Nat) : Nat :=
  let n := s.line.sheaf + 1 + lead
  match (s.gpages g).flip with
  | some (_, f) => if f = n then n + 1 else n
  | none => n

/-- The refusal code of RIX_SWAP_RESULT for a command that names group g, 0 when it is accepted. -/
def State.swapCode (s : State) (g : Nat) : Nat :=
  if s.swapBusy then 1
  else if s.boot.otpLife = .raw ∨ s.boot.otpLife = .scrapped then 6
  else if s.isFollower then 5
  else if s.isGlafold g = false ∨ s.groupEnabled g = false then 2
  else if (s.pairOfProtect g).isSome then 4
  else if (s.swapOffender g).isSome then 3
  else 0

/-- A swap is refused: CODE, DETAIL and DONE. -/
def State.swapRefuse (s : State) (g code : Nat) : State :=
  (s.setFld Reg.rixSwapResult 15 8 (if code = 3 then (s.swapOffender g).getD 0 else 0)).result Reg.rixSwapResult code

/-- SWAP_CMD (R180, R183, R189): the standby page is checked and the swap announced for a sheaf; a lead conveys it. -/
def execSwapCmd (path : Path) (val : Word) (s : State) : Host.Outcome State Fault Refusal :=
  .next (s.hostWrite path Reg.rixSwapCmd val (fun s =>
    let g := swapGroup val
    let code := s.swapCode g
    if code = 0 then
      let n := s.swapSheaf g (swapLead val)
      let s := s.setPages g (fun p => { p with txSwap := some n })
      let s := (s.wr Reg.rixSwapSheafLo (BitVec.ofNat 32 n)).wr Reg.rixSwapSheafHi (BitVec.ofNat 32 (n / 2 ^ 32 % 65536))
      s.convey 0x0D (beBytes 1 2 ++ beBytes 1 g ++ beBytes 1 (1 - (s.gpages g).txActive) ++ zeroBytes 3 ++ beBytes 6 n)
    else if code = 5 then (s.swapRefuse g code).followerRefusal
    else s.swapRefuse g code))

/-- A group's transmit pages change over: PAGE_SWAP (R180, R202). -/
def State.pageSwap (s : State) (g n : Nat) : State :=
  let s := s.setPages g (fun p => { p with txActive := 1 - p.txActive, txSwap := none })
  s.note Ev.pageSwap (beBytes 1 g ++ beBytes 6 n)

/-- A transmit swap whose sheaf is n or was skipped takes effect; DONE is set (R180, R182, R201). -/
def State.swapsDue (s : State) (n : Nat) : State :=
  (List.range 16).foldl (fun s g =>
    match (s.gpages g).txSwap with
    | some t =>
      if t ≤ n then
        let s := s.pageSwap g n
        if s.isFollower then s else (s.setFld Reg.rixSwapResult 15 8 0).result Reg.rixSwapResult 0
      else s
    | none => s) s

/-! ## Connection memories -/

/-- What a write of a connection memory entry does (R179). -/
def State.cmEffect (s : State) (receive : Bool) (page row : Nat) (val : Word) : State :=
  let off := if receive then Reg.rixRcm page row else Reg.rixTcm page row
  match s.groupOfLane (16 + row / 32) with
  | none => s.note Ev.rixWriteRefused (beBytes 4 off)
  | some g =>
    let p := s.gpages g
    let free := if receive then page != p.rxActive && p.rxSwap.isNone else page != p.txActive && p.txSwap.isNone
    if s.isGlafold g && free then s.wr off (if bit val 15 then val &&& 0x81FF#32 else 0)
    else s.note Ev.rixWriteRefused (beBytes 4 off)

/-- CONNECTION_MEMORY_WRITE (R179): only an entry of the standby page of its row's group, and only while no swap of that
group and direction is announced. -/
def execConnectionMemoryWrite (path : Path) (receive : Bool) (page : Fin 2) (row : Fin 512) (val : Word) (s : State) :
    Host.Outcome State Fault Refusal :=
  let off := if receive then Reg.rixRcm page.val row.val else Reg.rixTcm page.val row.val
  .next (s.hostWrite path off val (fun s => s.cmEffect receive page.val row.val val))

/-! ## Pairs -/

/-- Every entry of a group's rows in all four pages is unused. -/
def State.pagesUnused (s : State) (g : Nat) : Bool :=
  ((s.groupLanes g).flatMap (fun l => (List.range 32).map (fun r => 32 * l + r))).all (fun n =>
    [0, 1].all (fun p => !s.flg (Reg.rixTcm p n) 15 && !s.flg (Reg.rixRcm p n) 15))

/-- The conditions of R187 for pair k with the fields of w. -/
def State.pairAllowed (s : State) (k : Nat) (w : Word) : Bool :=
  let a := bits w 7 4
  let b := bits w 11 8
  s.isGlafold a && s.isGlafold b && s.groupWidth a == s.groupWidth b && a != b &&
  (List.range 8).all (fun j => j == k || !s.pairEnabled j ||
    !([s.pairWorking j, s.pairProtect j].contains a || [s.pairWorking j, s.pairProtect j].contains b)) &&
  s.pagesUnused b && (!bit w 1 || bit w 2)

/-- What a write of RIX_PAIR_CFG[k] does (R187). -/
def State.pairCfgEffect (s : State) (k : Nat) (val : Word) : State :=
  let off := Reg.rixPairCfg k
  let w := val &&& 0xFFFF#32
  if s.pairEnabled k then
    let s := if bits w 15 1 ≠ s.fld off 15 1 then s.note Ev.rixWriteRefused (beBytes 4 off) else s
    if bit w 0 then s else (s.setFlg off 0 false).setPair k (fun _ => Pair.reset)
  else if bit w 0 = false then s.wr off w
  else if s.pairAllowed k w then
    let s := (s.wr off w).setPair k (fun _ => Pair.reset)
    let x := s.group (bits w 7 4)
    if x.sf || x.sd then s.startHoldoff (bits w 7 4) else s
  else (s.wr off (setBit w 0 false)).note Ev.pairRefused (beBytes 1 k)

/-- PAIR_CFG_WRITE (R187): while ENABLE is 1 the other fields keep their values; ENABLE is taken only if the
conditions hold. -/
def execPairCfgWrite (path : Path) (pair : Fin 8) (val : Word) (s : State) : Host.Outcome State Fault Refusal :=
  let k := pair.val
  let off := Reg.rixPairCfg k
  .next (s.hostWrite path off val (fun s => s.pairCfgEffect k val))

/-! ## Requests (R191, R195) -/

/-- ARCH, DIR, REVERTIVE of a pair. -/
def State.pairArch (s : State) (k : Nat) : Bool := s.flg (Reg.rixPairCfg k) 1
def State.pairDir (s : State) (k : Nat) : Bool := s.flg (Reg.rixPairCfg k) 2
def State.pairRevertive (s : State) (k : Nat) : Bool := s.flg (Reg.rixPairCfg k) 3

/-- The far request that counts: NR while CONFIG_MISMATCH holds (R194). -/
def Pair.farReq (p : Pair) : Nat := if p.mismatch then 0 else p.far.req

/-- The local request without WTR and DNR, highest first (R195). -/
def State.localDefect (s : State) (k : Nat) : Nat :=
  let p := s.pair k
  let w := s.pairWorking k
  if p.cmd = 1 then 0xF
  else if s.apsSf (s.pairProtect k) then 0xE
  else if p.cmd = 2 then 0xD
  else if s.apsSf w && p.holdDone then 0xB
  else if s.apsSd w && p.holdDone then 0x9
  else if p.cmd = 3 ∨ p.cmd = 4 then 0x7
  else 0

/-- The signal that a local request asks for (R191): NR asks for protection while traffic is on protection. -/
def localSignal (req cmd position : Nat) : Nat :=
  if req = 0xD ∨ req = 0xB ∨ req = 0x9 ∨ req = 0x5 ∨ req = 0x1 then 1
  else if req = 0x7 ∧ cmd = 3 then 1
  else if req = 0 then position else 0

/-- The accepted far request is in force: in a bidirectional pair (R195). -/
def State.farInForce (s : State) (k : Nat) : Nat := if s.pairDir k then (s.pair k).farReq else 0

/-- An SF or SD request has ended with traffic on protection in a revertive pair, and no higher request is in force, local or far:
WTR starts; a new request or a command ends it (R197). -/
def State.wtrNext (s : State) (k base : Nat) : Bool :=
  let p := s.pair k
  if base ≠ 0 then false
  else if p.wtr then true
  else (p.local_ == 0xB || p.local_ == 0x9) && p.position == 1 && s.pairRevertive k && decide (s.farInForce k ≤ 0x5)

/-- Sheaves that a change of selector loses: those that the deskew buffer of 3 sheaves cannot bridge (R190). -/
def Pair.lostSheaves (p : Pair) : Nat := if p.skewExcess then (p.skewBlocks - 61500 + 20499) / 20500 else 0

/-- The selector of pair k changes (R190, R202): the first sheaf it takes is the one after the last it took; lost sheaves are
counted. req is the request in force. -/
def State.switchSelector (s : State) (k sel req : Nat) : State :=
  let p := s.pair k
  if sel = p.selector then s
  else
    let from_ := if p.selector = 1 then s.pairProtect k else s.pairWorking k
    let s := s.setPair k (fun p => { p with selector := sel, nextSheaf := (s.group from_).rxSheaf + 1 })
    let key := tallyLost k
    let s := { s with line := { s.line with tally := SMap.set zeroOf s.line.tally key (SMap.get zeroOf s.line.tally key + p.lostSheaves) } }
    let s := s.wr (Reg.rixPairSwitches k) (sat32 ((s.rd (Reg.rixPairSwitches k)).toNat + 1))
    s.note Ev.apsSwitch (beBytes 1 req)

/-- R195 for one enabled pair: request, request sent, position, bridge and selector. A request above MS that takes effect removes
an MS command (R198). -/
def State.evalPair (s : State) (k : Nat) : State :=
  let was := s.pair k
  let base := s.localDefect k
  let wtr := s.wtrNext k base
  let loc := if base ≠ 0 then base else if wtr then 0x5 else if was.position = 1 ∧ s.pairRevertive k = false then 0x1 else 0
  let far := s.farInForce k
  let follow := decide (loc < far)
  let position := if follow then was.far.sig else localSignal loc was.cmd was.position
  let sent := if follow then (if was.far.sig = 1 then 0x2 else 0) else loc
  let bridge := if s.pairArch k then position else 1
  let selector := if s.pairArch k && was.far.bridged == 0 then 0 else position
  let dropMs := (was.cmd = 3 ∨ was.cmd = 4) ∧ (0x7 < base ∨ 0x7 < far)
  let s := s.setPair k (fun p => { p with
    wtr := wtr, wtrDue := if wtr && !was.wtr then s.now + s.wtrS k * 1000000000 else p.wtrDue, local_ := loc, sent := sent, sentSig := position, position := position, bridge := bridge
    cmd := if dropMs then 0 else p.cmd })
  let s := s.switchSelector k selector (if follow then far else loc)
  if sent ≠ was.sent ∨ position ≠ was.sentSig ∨ bridge ≠ was.bridge ∨ selector ≠ was.selector then
    s.convey 0x0D (beBytes 1 1 ++ beBytes 1 k ++ beBytes 1 (selector * 2 + bridge) ++
      beBytes 1 (sent * 16 + flag (s.pairArch k) * 8 + flag (s.pairDir k) * 4) ++ beBytes 1 position ++ beBytes 1 bridge ++
      beBytes 6 s.line.sheaf)
  else s

/-- A follower's pair takes the APS states whose sheaf has come (R200): switches are counted and noted as on the lead. -/
def State.apsDue (s : State) (k : Nat) : State :=
  let due := (s.pair k).ahead.filter (fun x => decide (x.sheaf ≤ s.line.sheaf))
  let s := s.setPair k (fun p => { p with ahead := p.ahead.filter (fun x => decide (s.line.sheaf < x.sheaf)) })
  due.foldl (fun (s : State) (x : ApsState) =>
    (s.setPair k (fun p => { p with bridge := x.bridge, sent := x.req, sentSig := x.sig })).switchSelector k x.selector x.req) s

/-- Every enabled pair is evaluated; a follower takes its states from the lead (R200). -/
def State.evalPairs (s : State) : State :=
  if s.isFollower then (List.range 8).foldl State.apsDue s
  else (List.range 8).foldl (fun s k => if s.pairEnabled k then s.evalPair k else s) s

/-! ## Commands (R198) -/

/-- A command of RIX_APS_CMD ends with CMD_CODE; a refusal raises APS_CMD_REFUSED. -/
def State.apsEnd (s : State) (k code : Nat) : State :=
  let s := s.wr (Reg.rixApsStatus k) (setBits (setBits (s.rd (Reg.rixApsStatus k)) 3 0 code) 8 8 1)
  if code = 0 then s else s.note Ev.apsCmdRefused (beBytes 1 k ++ beBytes 1 code)

/-- The form of every command: refused on a follower (3), on a pair that is not enabled (2), or by priority (1); else it
takes effect. -/
def State.apsCommand (s : State) (path : Path) (k op : Nat) (allowed : State → Bool) (act : Pair → Pair) : State :=
  s.hostWrite path (Reg.rixApsCmd k) (BitVec.ofNat 32 op) (fun s =>
    if s.isFollower then (s.apsEnd k 3).followerRefusal
    else if s.pairEnabled k = false then s.apsEnd k 2
    else if allowed s = false then s.apsEnd k 1
    else (s.setPair k act).apsEnd k 0)

/-- CLEAR: LO, FS and MS of local origin go, WTR ends. -/
def execApsClear (path : Path) (pair : Fin 8) (s : State) : Host.Outcome State Fault Refusal :=
  .next (s.apsCommand path pair.val 1 (fun _ => true) (fun p => { p with cmd := 0, wtr := false }))

/-- LOCKOUT: LO holds until CLEAR. -/
def execApsLockout (path : Path) (pair : Fin 8) (s : State) : Host.Outcome State Fault Refusal :=
  .next (s.apsCommand path pair.val 2 (fun _ => true) (fun p => { p with cmd := 1, wtr := false }))

/-- LO and SF_P are in force neither locally nor at the far end. -/
def State.forcedAllowed (s : State) (k : Nat) : Bool :=
  let p := s.pair k
  p.cmd != 1 && !s.apsSf (s.pairProtect k) && decide (s.farInForce k < 0xE)

/-- FORCED: FS holds until CLEAR. -/
def execApsForced (path : Path) (pair : Fin 8) (s : State) : Host.Outcome State Fault Refusal :=
  .next (s.apsCommand path pair.val 3 (fun s => s.forcedAllowed pair.val) (fun p => { p with cmd := 2, wtr := false }))

/-- No request above MS is in force, locally or at the far end. -/
def State.manualAllowed (s : State) (k : Nat) : Bool :=
  decide (s.localDefect k ≤ 0x7) && decide (s.farInForce k ≤ 0x7)

/-- MANUAL_P: MS to protection. -/
def execApsManualP (path : Path) (pair : Fin 8) (s : State) : Host.Outcome State Fault Refusal :=
  .next (s.apsCommand path pair.val 4 (fun s => s.manualAllowed pair.val) (fun p => { p with cmd := 3, wtr := false }))

/-- MANUAL_W: MS to working. -/
def execApsManualW (path : Path) (pair : Fin 8) (s : State) : Host.Outcome State Fault Refusal :=
  .next (s.apsCommand path pair.val 5 (fun s => s.manualAllowed pair.val) (fun p => { p with cmd := 4, wtr := false }))

/-- APS_CMD_UNKNOWN: OP 6 to 15 is refused with CMD_CODE 4. -/
def execApsCmdUnknown (path : Path) (pair : Fin 8) (op : Fin 16) (s : State) : Host.Outcome State Fault Refusal :=
  let k := pair.val
  if op.val < 6 then .next s
  else .next (s.hostWrite path (Reg.rixApsCmd k) (BitVec.ofNat 32 op.val) (fun s => s.apsEnd k 4))

/-! ## Timers -/

/-- Hold-off and WTR timers of every pair restart from their full values, and the persistence filters restart, as a Recovery ends
(R201). -/
def State.restartAps (s : State) : State :=
  { s with rows := { s.rows with pairs := (List.range 8).map (fun k =>
    { s.pair k with cand := none, candCount := 0, holdDue := s.now + s.holdoffMs k * 1000000, wtrDue := s.now + s.wtrS k * 1000000000 }) } }

/-- HOLDOFF_EXPIRY (R196): if the defect is still there, the request counts. -/
def execHoldoffExpiry (pair : Fin 8) (s : State) : Host.Outcome State Fault Refusal :=
  if (s.pair pair.val).holdRun ∧ (s.pair pair.val).holdDue ≤ s.now then
    .next (s.setPair pair.val (fun p => { p with holdRun := false, holdDone := true }))
  else .next s

/-- WTR_EXPIRY (R197): the request becomes NR, and traffic returns to the working group: the evaluation of the next sheaf boundary
moves bridge and selector. -/
def execWtrExpiry (pair : Fin 8) (s : State) : Host.Outcome State Fault Refusal :=
  if (s.pair pair.val).wtr ∧ (s.pair pair.val).wtrDue ≤ s.now then
    .next (s.setPair pair.val (fun p => { p with wtr := false, local_ := 0, position := 0 }))
  else .next s

end Sys2Proof.Machine
end

