-- ==== Sys2Proof/Machine/Classifier.lean ====
section
/-! DEFINITION. The classifier (chapter 07): keys and parse profiles, the Association Lookup Table, lookup, insertion and
eviction, table commands, learning, the reaper, stripe digests. -/

namespace Sys2Proof.Machine

open Sys2Proof

/-! ## Frames as the parser sees them (R204 to R206) -/

/-- A 16-bit big-endian field of a frame. -/
def be16 (f : List Byte) (o : Nat) : Nat := ofBe (slice f o 2)
/-- A 32-bit big-endian field. -/
def be32 (f : List Byte) (o : Nat) : Nat := ofBe (slice f o 4)

/-- The TPIDs recognised as VLAN tags. -/
def State.isTpid (s : State) (t : Nat) : Bool := t == 0x8100 || t == 0x88A8 || t == s.fld Reg.clsTpid 15 0

/-- Number of VLAN tags of a frame, at most two. -/
def State.vlanTags (s : State) (f : List Byte) : Nat :=
  if s.isTpid (be16 f 12) then (if s.isTpid (be16 f 16) then 2 else 1) else 0

/-- VID of tag k. -/
def vidOf (f : List Byte) (k : Nat) : Nat := be16 f (14 + 4 * k) % 4096

/-- VID of a frame under a port's VID_MODE (R204). -/
def State.frameVid (s : State) (p : Nat) (f : List Byte) : Nat :=
  if s.flg (Reg.clsPortCfg p) 5 ∧ 0 < s.vlanTags f then vidOf f 0 else 0xFFF

/-- A field of a frame lies within the 128 bytes the parser reads. -/
def inReach (f : List Byte) (o k : Nat) : Bool := decide (o + k ≤ 128) && decide (o + k ≤ f.length)

/-- The outer IP header of a frame: offset, IPv6, protocol, offset of its payload (R205, R206). -/
def State.outerIp (s : State) (k : Nat) (f : List Byte) : Option (Nat × Bool × Nat × Nat) :=
  let e := if s.flg (Reg.clsProfile k) 5 then 12 + 4 * s.vlanTags f else 12
  let t := be16 f e
  let h := e + 2
  if t = 0x0800 ∧ inReach f h 20 then
    some (h, false, (f.getD (h + 9) 0).toNat, h + 4 * ((f.getD h 0).toNat % 16))
  else if t = 0x86DD ∧ s.flg (Reg.clsProfile k) 6 ∧ inReach f h 40 then
    some (h, true, (f.getD (h + 6) 0).toNat, h + 40)
  else none

/-- ENDPOINT: the outer IPv4 source address if ENDPOINT_EN is 1, else 0. -/
def State.endpoint (s : State) (k : Nat) (f : List Byte) (ip : Nat × Bool × Nat × Nat) : Nat :=
  if s.flg (Reg.clsProfile k) 4 ∧ ip.2.1 = false then be32 f (ip.1 + 12) else 0

/-- TUNNEL_ID and ENDPOINT by parse profile k (R205); none is a parse miss. -/
def State.tunnelOf (s : State) (k : Nat) (f : List Byte) : Option (Nat × Nat) :=
  let type := s.fld (Reg.clsProfile k) 3 0
  let port := s.fld (Reg.clsProfile k) 31 16
  if type = 0 then
    match s.vlanTags f with
    | 0 => none
    | 1 => some (vidOf f 0 * 4096 + 0xFFF, 0)
    | _ => some (vidOf f 0 * 4096 + vidOf f 1, 0)
  else if type = 1 then
    let e := if s.flg (Reg.clsProfile k) 5 then 12 + 4 * s.vlanTags f else 12
    if (be16 f e = 0x8847 ∨ be16 f e = 0x8848) ∧ inReach f (e + 2) 4 then some (be32 f (e + 2) / 4096, 0) else none
  else if 4 < type then none
  else
    match s.outerIp k f with
    | none => none
    | some ip =>
      let o := ip.2.2.2
      if type = 2 then
        let fl := be16 f o
        let ko := o + 4 + (if fl / 0x8000 % 2 = 1 then 4 else 0)
        if ip.2.2.1 = 47 ∧ fl / 0x2000 % 2 = 1 ∧ inReach f ko 4 then some (be32 f ko, s.endpoint k f ip) else none
      else if ip.2.2.1 = 17 ∧ be16 f (o + 2) = port ∧ inReach f (o + 8) 8 then
        if type = 3 then some (be32 f (o + 12) / 256, s.endpoint k f ip)
        else some (be32 f (o + 12), s.endpoint k f ip)
      else none

/-! ## Keys (R203, R207, R208) -/

/-- A lookup key: KIND, the 16-bit DOMAIN field, the 12 KEY bytes. -/
structure AltKey where
  kind : Nat
  domain : Nat
  key : List Byte
  deriving DecidableEq, Repr

/-- The 15 key bytes over which the hashes run. -/
def AltKey.bytes (k : AltKey) : List Byte := beBytes 1 (k.kind * 64) ++ beBytes 2 k.domain ++ slice k.key 0 12

/-- The key of an entry. -/
def AltEntry.toKey (e : AltEntry) : AltKey := ⟨e.kind, e.domain, e.key⟩

/-- A MAC key. -/
def macKey (domain vid : Nat) (mac : List Byte) : AltKey := ⟨1, domain, beBytes 2 vid ++ slice mac 0 6 ++ zeroBytes 4⟩

/-- The key of a frame from client port p; none is FORMAT 0, and inner none a parse miss. -/
def State.frameKey (s : State) (p : Nat) (f : List Byte) : Option (Option AltKey) :=
  let cfg := Reg.clsPortCfg p
  let dom := s.fld cfg 23 12
  match s.fld cfg 7 6 with
  | 1 => some (some (macKey dom (s.frameVid p f) (slice f 0 6)))
  | 2 => some ((s.tunnelOf (s.fld cfg 11 8) f).map (fun (t, e) =>
      ⟨2, s.fld cfg 11 8 * 4096 + dom, beBytes 4 t ++ beBytes 4 e ++ zeroBytes 4⟩))
  | 3 => some (some ⟨3, dom, beBytes 2 (s.frameVid p f) ++ beBytes 1 p ++ zeroBytes 9⟩)
  | _ => none

/-! ## Entries as bytes (R207, R209) -/

/-- Bytes 0 to 27 of an entry with the given HIT and AGE. -/
def AltEntry.head (e : AltEntry) (hit : Bool) (age : Nat) : List Byte :=
  beBytes 1 (e.kind * 64 + flag e.stat * 32 + flag hit * 16) ++ beBytes 1 e.owner ++ beBytes 2 e.domain ++
  slice e.key 0 12 ++ beBytes 2 e.assoc ++ beBytes 2 (flag e.classEn * 32768 + e.cls * 4096 + e.output) ++
  beBytes 2 age ++ beBytes 1 (flag e.portValid * 128 + e.port) ++ zeroBytes 5

/-- The 32 bytes of an entry: ECRC is taken with HIT and AGE as 0. -/
def AltEntry.bytes (e : AltEntry) : List Byte := e.head e.hit e.age ++ beBytes 4 (crc32 (e.head false 0))

/-- The entry that 32 bytes describe; HIT, AGE and ECRC are ignored. -/
def AltEntry.ofBytes (b : List Byte) : AltEntry :=
  let c := (b.getD 0 0).toNat
  let r := be16 b 18
  let p := (b.getD 22 0).toNat
  ⟨c / 64, (c / 32 % 2 == 1), false, (b.getD 1 0).toNat % 64, be16 b 2, slice b 4 12, be16 b 16, r / 32768 == 1,
    r / 4096 % 8, r % 1024, 0, p / 128 == 1, p % 16⟩

/-- An entry breaks R225: KIND 0, OUTPUT 544 to 1,022, or something other than 0 where R207 has 0. -/
def altInvalid (b : List Byte) : Bool :=
  let e := AltEntry.ofBytes b
  e.kind == 0 || (decide (544 ≤ e.output) && decide (e.output ≤ 1022)) || (b.getD 0 0).toNat % 16 != 0 ||
  decide (64 ≤ (b.getD 1 0).toNat) || (e.kind != 2 && decide (4096 ≤ e.domain)) ||
  (e.kind != 2 && decide (4096 ≤ be16 b 4)) || be16 b 18 / 1024 % 4 != 0 || (b.getD 22 0).toNat / 16 % 8 != 0 ||
  slice b 23 5 != zeroBytes 5 ||
  (if e.kind = 3 then decide (16 ≤ (b.getD 6 0).toNat) || slice b 7 9 != zeroBytes 9 else slice b 12 4 != zeroBytes 4)

/-- The 32 bytes in window n's CLS_CMD_ENTRY. -/
def State.cmdEntry (s : State) (n : Nat) : List Byte :=
  (List.range 8).flatMap (fun w => beBytes 4 (s.rd (privKey n (Reg.clsCmdEntry w))).toNat)

/-- An entry copied into window n's CLS_CMD_ENTRY. -/
def State.putEntry (s : State) (n : Nat) (b : List Byte) : State :=
  (List.range 8).foldl (fun s w => s.wr (privKey n (Reg.clsCmdEntry w)) (BitVec.ofNat 32 (be32 b (4 * w)))) s

/-! ## The table (R210, R212) -/

/-- Entry i. -/
def State.altAt (s : State) (i : Nat) : Option AltEntry := SMap.get noneOf s.cls.alt i

/-- H0 and H1 of a key. -/
def State.hash0 (s : State) (k : AltKey) : Nat :=
  (crcLsb 0x82F63B78 (s.rd Reg.clsHashSeed0).toNat k.bytes ^^^ 0xFFFFFFFF) % 32768
def State.hash1 (s : State) (k : AltKey) : Nat :=
  (crcLsb 0xEDB88320 (s.rd Reg.clsHashSeed1).toNat k.bytes ^^^ 0xFFFFFFFF) % 32768

/-- Entries of bucket b of way w. -/
def bucketOf (w b : Nat) : List Nat := [0, 1, 2, 3].map (fun k => w * 131072 + 4 * b + k)

/-- The eight candidate slots of a key, in the order of R217. -/
def State.candidates (s : State) (k : AltKey) : List Nat := bucketOf 0 (s.hash0 k) ++ bucketOf 1 (s.hash1 k)

/-- The first valid entry that matches, way 0 first, among those that showed no double-bit error. -/
def State.altFindBut (s : State) (k : AltKey) (bad : List Nat) : Option Nat :=
  (s.candidates k).find? (fun i => !bad.contains i && (match s.altAt i with
    | some e => decide (e.toKey = k)
    | none => false))

/-- The first valid entry that matches, way 0 first. -/
def State.altFind (s : State) (k : AltKey) : Option Nat := s.altFindBut k []

/-- Entry i takes a value; a lead conveys the commit (R239). -/
def State.altWrite (s : State) (i : Nat) (e : Option AltEntry) : State :=
  let s := { s with cls := { s.cls with alt := SMap.set noneOf s.cls.alt i e } }
  s.convey 0x04 (beBytes 4 i ++ (match e with | some x => x.bytes | none => zeroBytes 32))

/-- HIT of entry i is set by a pipe: no commit of the engine (R213). -/
def State.altHit (s : State) (i : Nat) : State :=
  match s.altAt i with
  | some e => { s with cls := { s.cls with alt := SMap.set noneOf s.cls.alt i (some { e with hit := true }) } }
  | none => s

/-- CLS_PORT_LEARNED.COUNT (R232). -/
def State.learnedCount (s : State) (p : Nat) : Nat :=
  (s.cls.alt.filter (fun x => match x.2 with
    | some e => !e.stat && e.portValid && e.port == p
    | none => false)).length

/-- QUOTA of a port, at most 262,144, and whether COUNT has reached it. -/
def State.quota (s : State) (p : Nat) : Nat := clamp 0 262144 (s.fld (Reg.clsPortQuota p) 18 0)
def State.atQuota (s : State) (p : Nat) : Bool := decide (s.quota p ≤ s.learnedCount p)

/-- LEARN_QUOTA_REACHED is raised when a port's COUNT first reaches QUOTA (R230). -/
def State.quotaCheck (s : State) (p : Nat) : State :=
  if s.atQuota p then
    if s.cls.quotaSeen.contains p then s
    else ({ s with cls := { s.cls with quotaSeen := p :: s.cls.quotaSeen } }).noteFor Ev.learnQuotaReached (s.portOwner p) (beBytes 1 p)
  else { s with cls := { s.cls with quotaSeen := s.cls.quotaSeen.filter (· != p) } }

/-- After a write of QUOTA, a port whose COUNT is at it has reached it, and any other may reach it again (R230). -/
def State.quotaSettle (s : State) : State := { s with cls := { s.cls with quotaSeen := (List.range 16).filter s.atQuota } }

/-- The port whose COUNT an entry is part of (R232). -/
def AltEntry.counted (e : AltEntry) : Option Nat := if e.portValid ∧ e.stat = false then some e.port else none

/-- One commit of the engine that inserts, replaces or removes entry i: COUNT of the ports it touches changes with it (R230,
R232). -/
def State.altPut (s : State) (i : Nat) (e : Option AltEntry) : State :=
  let ports := ((s.altAt i).bind AltEntry.counted).toList ++ (e.bind AltEntry.counted).toList
  ports.eraseDups.foldl State.quotaCheck (s.altWrite i e)

/-- A double-bit error in entry i (R212, R242): the entry is removed if learned, and the event is raised at level 1, or at
level 3 for a STATIC entry; a follower asks the lead to convey the entry (R437). -/
def State.altEcc (s : State) (i : Nat) : State :=
  match s.altAt i with
  | none => s
  | some e =>
    let s := if s.isFollower then ({ s with yok := { s.yok with repair := some i } }).report 0x23 (beBytes 4 i)
             else if e.stat then s else s.altPut i none
    s.raiseFull (if e.stat then Ev.altEccUncorr.atLevel 3 else Ev.altEccUncorr) e.owner [e.owner] (beBytes 4 i) [] none

/-- What a read of the slots cs shows besides their contents (R212): fixed single-bit errors are corrected and counted in bits
[63:48] of counter 15, the entries at the places bad have a double-bit error. -/
def State.altErrors (s : State) (bad : List Nat) (fixed : Nat) : State :=
  bad.foldl State.altEcc (s.incBy (Reg.clsCountLo 15) (fixed * 2 ^ 48))

/-! ## Insertion (R217, R218) -/

/-- The alternate bucket of the entry at slot i with key k. -/
def State.alternate (s : State) (i : Nat) (k : AltKey) : List Nat :=
  if i < 131072 then bucketOf 1 (s.hash1 k) else bucketOf 0 (s.hash0 k)

/-- A random draw of w bits (R221). -/
def State.rand (s : State) (w : Nat) : Nat × State :=
  let (k, s) := s.rbgTake 1
  (Config.freeNat k % 2 ^ w, s)

/-- The slot of a full bucket at or after number r, modulo 4, whose entry is not on the path. -/
def freshSlot (b path : List Nat) (r : Nat) : Option Nat :=
  ([0, 1, 2, 3].map (fun k => b.getD ((r + k) % 4) 0)).find? (fun i => !path.contains i)

/-- The search of R217 from a slot: the path, first slot first, and the empty slot that ends the chain. It only reads. -/
def State.chain (s : State) (slot : Nat) (path : List Nat) : Nat → Option (List Nat × Nat) × State
  | 0 => (none, s)
  | n + 1 =>
    match s.altAt slot with
    | none => (none, s)
    | some r =>
      let path := path ++ [slot]
      let b := s.alternate slot r.toKey
      match b.find? (fun i => (s.altAt i).isNone) with
      | some f => (some (path, f), s)
      | none =>
        let (x, s) := s.rand 2
        match freshSlot b path x with
        | some i => State.chain s i path n
        | none => (none, s)

/-- The writes of R218, from the chain's end back to its start: each entry of the path moves to the place after it. -/
def State.shift (s : State) : List Nat → Nat → State
  | [], _ => s
  | i :: rest, f =>
    let next := match rest with | [] => f | j :: _ => j
    let s := State.shift s rest f
    s.altWrite next (s.altAt i)

/-- Eligible victims among the candidates (R220): STATIC 0, and for a learn insertion PORT_VALID 1. -/
def State.victims (s : State) (k : AltKey) (learn : Bool) : List Nat :=
  (s.candidates k).filter (fun i => match s.altAt i with
    | some e => !e.stat && (!learn || e.portValid)
    | none => false)

/-- The eligible occupant with the largest (SWEEP − AGE) mod 65,536; a tie goes to the lowest candidate. -/
def State.oldest (s : State) (vs : List Nat) : Option Nat :=
  let ageOf := fun i => match s.altAt i with
    | some e => (s.cls.sweep + 65536 - e.age) % 65536
    | none => 0
  vs.foldl (fun best i => match best with
    | none => some i
    | some b => if ageOf b < ageOf i then some i else some b) none

/-- What an insertion answers: CODE, index, moves. -/
structure Placed where
  code : Nat
  index : Nat
  moves : Nat
  deriving DecidableEq, Repr

/-- An insertion that found no place. -/
def State.noPlace (s : State) (e : AltEntry) : State × Placed :=
  (s.noteFor Ev.altInsertFail e.owner (beBytes 2 e.assoc), ⟨3, 0, 0⟩)

/-- Eviction under R220. -/
def State.evict (s : State) (e : AltEntry) (noEvict learn : Bool) : State × Placed :=
  let mode := s.fld Reg.clsEvictCfg 1 0
  let vs := s.victims e.toKey learn
  if noEvict ∨ vs = [] ∨ mode = 0 ∨ mode = 3 then s.noPlace e
  else
    let (v, s) := if mode = 1 then
        let (r, s) := s.rand 3
        (some (vs.getD (r % vs.length) 0), s)
      else (s.oldest vs, s)
    match v with
    | none => s.noPlace e
    | some i =>
      let s := (s.altPut i (some e)).inc (Reg.clsCountLo 12)
      (s.noteFor Ev.altEvict e.owner (beBytes 4 i), ⟨4, i, 0⟩)

/-- An insertion of an entry whose key is not present (R217 to R220). While the generator gives no output it fails as
under eviction mode 0 once it needs random bits (R383). -/
def State.place (s : State) (e : AltEntry) (noEvict learn : Bool) : State × Placed :=
  let e := { e with hit := false, age := s.cls.sweep }
  let cs := s.candidates e.toKey
  match cs.find? (fun i => (s.altAt i).isNone) with
  | some i => (s.altPut i (some e), ⟨0, i, 0⟩)
  | none =>
    if s.kvt.rbgHealthy = false then s.noPlace e
    else
      let (c, s) := s.rand 3
      let (r, s) := s.chain (cs.getD c 0) [] 8
      match r with
      | some (path, f) =>
        let s := (s.shift path f).altPut (path.headD 0) (some e)
        (s.incBy (Reg.clsCountLo 14) path.length, ⟨0, path.headD 0, path.length⟩)
      | none => s.evict e noEvict learn

/-! ## Lookup (R212 to R216) -/

/-- The classifier is live: its unit enabled and island 14 running. -/
def State.clsLive (s : State) : Bool := s.unitEnabled 5 && s.islandUp 14

/-- A frame of input p as first seen. -/
def newFrame (s : State) (f : List Byte) (input : Nat) (encrypt : Bool) (assoc output cls : Nat) (direct : Bool) : Frame :=
  ⟨0, f, input, encrypt, assoc, output, cls, direct, [], s.now, none, false, 0, 0, 0, 0, 0, 0, false, none, [], false,
    false, none, 0, none, 0, f.length, crc16 (f.take 64), [], false,
    if (s.chan (s.fld Reg.timCfg 23 20)).st = .stopped then none else some (s.chanValue (s.fld Reg.timCfg 23 20)), 0⟩

/-- A classified frame waits for admission (R253): its output and class are the ALT entry's, or the association's own; it
is direct when they differ from the attachment. A frame of an unused association without an output of its own is dropped. -/
def State.classified (s : State) (f : List Byte) (p a : Nat) (out cls : Option Nat) (flood : List Nat) : State :=
  match s.ctx a with
  | none =>
    match out with
    | none => s.inc (Reg.clsCountLo 5)
    | some o =>
      { s with sch := { s.sch with arrivals := s.sch.arrivals ++ [newFrame s f p true a o (cls.getD 0) true] } }
  | some c =>
    let o := out.getD c.encOut
    let k := cls.getD c.encClass
    let fr := newFrame s f p true a o k (o != c.encOut || k != c.encClass)
    { s with sch := { s.sch with arrivals := s.sch.arrivals ++ [{ fr with flood := flood }] } }

/-- The valid members of a flood list, in order (R234). -/
def State.floodMembers (s : State) (l : Nat) : List Nat :=
  (List.range 16).filterMap (fun m => if s.flg (Reg.clsFlood l m) 31 then some (s.fld (Reg.clsFlood l m) 15 0) else none)

/-- A frame goes to a flood list: one set of cells, a copy for each member; a member whose association is not in use has no
output of its own, and gets no copy (R234, R248). -/
def State.floodFrame (s : State) (f : List Byte) (p l : Nat) : State :=
  let ms := s.floodMembers l
  if ms = [] then s.inc (Reg.clsCountLo 5)
  else
    let s := s.inc (Reg.clsCountLo 4)
    match ms.filter (fun a => (s.ctx a).isSome) with
    | [] => s.inc (Reg.clsCountLo 5)
    | a :: rest => s.classified f p a none none rest

/-- The miss path (R214). -/
def State.missPath (s : State) (f : List Byte) (p : Nat) : State :=
  let cfg := Reg.clsPortCfg p
  let miss := Reg.clsPortMiss p
  let group := (f.getD 0 0).toNat % 2 == 1
  if group ∧ s.fld cfg 3 2 = 1 then s.floodFrame f p (s.fld miss 23 16)
  else if group ∧ s.fld cfg 3 2 = 2 then s.inc (Reg.clsCountLo 5)
  else if s.flg miss 31 then (s.inc (Reg.clsCountLo 3)).classified f p (s.fld miss 15 0) none none []
  else if s.flg cfg 1 then s.floodFrame f p (s.fld miss 23 16)
  else s.inc (Reg.clsCountLo 5)

/-- The lookup itself (R203, R212 to R216). A follower's frame whose entry may be one in error takes no miss path: the lead's record of
it makes a phantom (R437). -/
def State.lookup (s : State) (p : Nat) (frame : List Byte) (bad : List (Fin 8)) (fixed : Nat) : State :=
  if s.clsLive = false then
    let miss := Reg.clsPortMiss p
    if s.flg miss 31 then (s.inc (Reg.clsCountLo 15)).classified frame p (s.fld miss 15 0) none none []
    else s.inc (Reg.clsCountLo 5)
  else
    match s.frameKey p frame with
    | none => s.missPath frame p
    | some none => (s.inc (Reg.clsCountLo 6)).missPath frame p
    | some (some k) =>
      let cs := s.candidates k
      let s := s.inc (Reg.clsCountLo 0)
      let badIdx := bad.map (fun c => cs.getD c.val 0)
      let hit := s.altFindBut k badIdx
      let s := s.altErrors badIdx fixed
      match hit with
      | none => if s.isFollower ∧ bad ≠ [] then s else (s.inc (Reg.clsCountLo 2)).missPath frame p
      | some i =>
        match s.altAt i with
        | none => (s.inc (Reg.clsCountLo 2)).missPath frame p
        | some e =>
          let s := (s.inc (Reg.clsCountLo 1)).altHit i
          s.classified frame p e.assoc (if e.output = 0x3FF then none else some e.output)
            (if e.classEn then some e.cls else none) []

/-- Point 1: the frames the lookup queued carry the tag and are seen; none was queued when the frame was dropped. -/
def State.sawClassified (s : State) (tag : Option Nat) (v : Sight) (before : Nat) : State :=
  match s.sch.arrivals.drop before with
  | [] => s.observe 1 tag v true false
  | f :: _ =>
    let tagged := (s.sch.arrivals.drop before).map (fun (x : Frame) => { x with tag := tag })
    let s := { s with sch := { s.sch with arrivals := s.sch.arrivals.take before ++ tagged } }
    s.observe 1 tag { v with assoc := some f.assoc, owner := s.assocOwner f.assoc, master := f.output, cls := f.cls } false false

/-- CLIENT_FRAME_LOOKUP (R203, R212 to R216, R560, R561): bad names the candidate slots of the key that showed a
double-bit error, fixed counts corrected single-bit errors. -/
def execClientFrameLookup (port : Fin 16) (frame : List Byte) (bad : List (Fin 8)) (fixed : Fin 9) (s : State) :
    Host.Outcome State Fault Refusal :=
  let p := port.val
  let (tag, s) := s.drawTag
  let v : Sight := ⟨none, s.portOwner p, p, 0, frame.length, 0⟩
  let s := s.observe 0 tag v (!s.portUp p) false
  if s.portUp p = false then .next s
  else .next ((s.lookup p frame bad fixed.val).sawClassified tag v s.sch.arrivals.length)

/-! ## Frames held -/

/-- An admitted frame. -/
def State.frame? (s : State) (id : Nat) : Option Frame := SMap.get noneOf s.sch.frames id

/-- An admitted frame replaced or taken away. -/
def State.setFrame (s : State) (id : Nat) (f : Option Frame) : State :=
  { s with sch := { s.sch with frames := SMap.set noneOf s.sch.frames id f } }

/-- An admitted frame changed. -/
def State.modFrame (s : State) (id : Nat) (g : Frame → Frame) : State :=
  match s.frame? id with
  | some f => s.setFrame id (some (g f))
  | none => s

/-- A frame of the decrypt direction wherever it is: admitted, awaiting admission, or in a follower's buffer. -/
def State.decFrame? (s : State) (id : Nat) : Option Frame :=
  match s.frame? id with
  | some f => some f
  | none =>
    match s.sch.arrivals.find? (fun f => f.id == id && !f.encrypt) with
    | some f => some f
    | none => (s.yok.buffers.flatMap (·.2)).find? (fun f => f.id == id && !f.encrypt)

/-- The verdict of a decrypt frame is known. -/
def State.setVerdict (s : State) (id : Nat) (ok : Bool) : State :=
  match s.frame? id with
  | some f => s.setFrame id (some { f with verdict := some ok })
  | none =>
    let mark := fun (f : Frame) => if f.id = id ∧ f.encrypt = false then { f with verdict := some ok } else f
    { s with
      sch := { s.sch with arrivals := s.sch.arrivals.map mark }
      yok := { s.yok with buffers := s.yok.buffers.map (fun e => (e.1, e.2.map mark)) } }

/-! ## Learning (R229 to R233) -/

/-- Changes to the table are permitted for port p (R229); a follower makes none (R240). -/
def State.mayLearn (s : State) (p : Nat) : Bool :=
  s.flg Reg.clsCtrl 1 && s.flg (Reg.clsPortCfg p) 4 && s.fld (Reg.clsPortCfg p) 7 6 == 1 && !s.isFollower

/-- A flush of port p runs (R226). -/
def State.flushing (s : State) (p : Nat) : Bool := s.cls.flushes.any (fun f => f.port == p)

/-- What a probe that met entry i with association a does (R230). -/
def State.stationMove (s : State) (i : Nat) (e : AltEntry) (r : LearnReq) : State :=
  if e.assoc = r.assoc then s
  else if e.stat then s.noteFor Ev.learnConflict e.owner (beBytes 4 i ++ beBytes 2 r.assoc)
  else if e.portValid ∧ e.port = r.port then
    ((s.altPut i (some { e with assoc := r.assoc, hit := true })).inc (Reg.clsCountLo 9)).noteFor Ev.stationMove e.owner (beBytes 4 i)
  else if s.atQuota r.port then s.inc (Reg.clsCountLo 10)
  else
    let e' := { e with assoc := r.assoc, hit := true, portValid := true, port := r.port, owner := s.portOwner r.port }
    ((s.altPut i (some e')).inc (Reg.clsCountLo 9)).noteFor Ev.stationMove e'.owner (beBytes 4 i)

/-- A place in the probe queue is free: the next waiting probe enters, and its frame may leave (R215). -/
def State.nextProbe (s : State) : State :=
  match s.cls.probeWait with
  | [] => s
  | (r, id) :: rest => ({ s with cls := { s.cls with probes := s.cls.probes ++ [r], probeWait := rest } }).setVerdict id true

/-- LEARN_PROBE (R212, R215, R229, R230): the next waiting probe sets HIT on a match; its table changes follow if permitted. bad and
fixed are the errors its read showed, as for a lookup. -/
def execLearnProbe (bad : List (Fin 8)) (fixed : Fin 9) (s : State) : Host.Outcome State Fault Refusal :=
  match s.cls.probes with
  | [] => .next s
  | r :: rest =>
    let s := ({ s with cls := { s.cls with probes := rest } }).nextProbe
    if s.clsLive = false then .next s
    else
      let s := s.inc (Reg.clsCountLo 7)
      let k : AltKey := ⟨1, r.domain, r.key⟩
      let badIdx := bad.map (fun c => (s.candidates k).getD c.val 0)
      let hit := s.altFindBut k badIdx
      let s := s.altErrors badIdx fixed.val
      match hit with
      | some i =>
        let s := s.altHit i
        match s.altAt i with
        | none => .next s
        | some e => .next (if s.mayLearn r.port then s.stationMove i e r else s)
      | none =>
        if s.mayLearn r.port = false then .next s
        else if s.flushing r.port then .next (s.inc (Reg.clsCountLo 11))
        else if s.atQuota r.port then .next (s.inc (Reg.clsCountLo 10))
        else if 4096 ≤ s.cls.learnQ.length then .next ((s.inc (Reg.clsCountLo 11)).note Ev.learnQueueFull)
        else .next { s with cls := { s.cls with learnQ := s.cls.learnQ ++ [r] } }

/-- A learned entry (R232). -/
def State.learned (s : State) (r : LearnReq) : AltEntry :=
  ⟨1, false, false, s.portOwner r.port, r.domain, r.key, r.assoc, false, 0, 0x3FF, 0, true, r.port⟩

/-- LEARN_INSERT (R231, R233): the engine serves the oldest learn request, probing again first; bad and fixed are the errors
that the probe showed. -/
def execLearnInsert (bad : List (Fin 8)) (fixed : Fin 9) (s : State) : Host.Outcome State Fault Refusal :=
  match s.cls.learnQ with
  | [] => .next s
  | r :: rest =>
    let s := { s with cls := { s.cls with learnQ := rest } }
    let k : AltKey := ⟨1, r.domain, r.key⟩
    let s := s.altErrors (bad.map (fun c => (s.candidates k).getD c.val 0)) fixed.val
    if (s.altFind k).isSome then .next s
    else if s.flushing r.port ∨ s.mayLearn r.port = false then .next (s.inc (Reg.clsCountLo 11))
    else if s.atQuota r.port then .next (s.inc (Reg.clsCountLo 10))
    else
      let (s, d) := s.place (s.learned r) false true
      if d.code = 3 then .next (s.inc (Reg.clsCountLo 11))
      else .next (s.inc (Reg.clsCountLo 8))

/-! ## Table commands (R222 to R228) -/

/-- A command of window n ends. Refusals raise CLS_CMD_REFUSED. -/
def State.clsEnd (s : State) (n code : Nat) : State :=
  let s := if code = 7 then s.result (privKey n Reg.clsCmdResult) 7 else s.cmdEnd 5 n Reg.clsCmdResult code
  let s := if code = 6 then s.followerRefusal else s
  if 5 ≤ code ∧ code ≤ 9 then s.noteFor Ev.clsCmdRefused n (beBytes 1 code) else s

/-- The window reaches the entry (R227). -/
def reaches (n owner : Nat) : Bool := n == 0 || n == owner

/-- A command of window n is running. -/
def State.clsBusy (s : State) (n : Nat) : Bool := s.cls.flushes.any (fun f => f.win == n)

/-- SEARCH. -/
def State.clsSearch (s : State) (n : Nat) : State :=
  if s.clsBusy n then s.clsEnd n 7
  else
    match s.altFind (AltEntry.ofBytes (s.cmdEntry n)).toKey with
    | none => s.clsEnd n 1
    | some i =>
      match s.altAt i with
      | none => s.clsEnd n 1
      | some e =>
        if reaches n e.owner then
          ((s.putEntry n e.bytes).setFld (privKey n Reg.clsCmdIndex) 17 0 i).clsEnd n 0
        else s.clsEnd n 1

/-- An entry passes CLS_CMD_FILTER. -/
def passesFilter (w : Word) (e : AltEntry) : Bool :=
  (!bit w 31 || e.kind == bits w 29 28) && (!bit w 27 || e.stat) && (!bit w 26 || !e.stat) &&
  (!bit w 25 || e.assoc == bits w 15 0) && (!bit w 24 || (e.portValid && e.port == bits w 19 16))

/-- NEXT: the first valid entry at or above the start index that passes the filter. -/
def State.clsNext (s : State) (n : Nat) : State :=
  if s.clsBusy n then s.clsEnd n 7
  else
    let start := s.fld (privKey n Reg.clsCmdIndex) 17 0
    let w := s.rd (privKey n Reg.clsCmdFilter)
    match s.cls.alt.find? (fun x => decide (start ≤ x.1) && (match x.2 with
        | some e => reaches n e.owner && passesFilter w e
        | none => false)) with
    | some (i, some e) => ((s.putEntry n e.bytes).setFld (privKey n Reg.clsCmdIndex) 17 0 i).clsEnd n 0
    | _ => s.clsEnd n 10

/-- The allotment may insert the entry (R227). -/
def State.mayInsert (s : State) (n : Nat) (e : AltEntry) : Bool :=
  n == 0 ||
  (e.owner == n &&
   (List.range 16).any (fun p => s.portOwner p == n && s.fld (Reg.clsPortCfg p) 23 12 == e.domain % 4096) &&
   (!e.portValid || s.portOwner e.port == n) &&
   (match s.ctx e.assoc with
    | some c => c.owner == n
    | none => false))

/-- INSERT (R217 to R220, R225); MOVES is that of the last INSERT. -/
def State.clsInsert (s : State) (n : Nat) (replace noEvict : Bool) : State :=
  let b := s.cmdEntry n
  let e := AltEntry.ofBytes b
  if s.clsBusy n then s.clsEnd n 7
  else
  let s := s.setFld (privKey n Reg.clsCmdResult) 11 8 0
  if s.isFollower then s.clsEnd n 6
  else if altInvalid b then s.clsEnd n 8
  else if s.mayInsert n e = false then s.clsEnd n 5
  else
    let done := fun (s : State) (d : Placed) =>
      ((s.setFld (privKey n Reg.clsCmdIndex) 17 0 d.index).setFld (privKey n Reg.clsCmdResult) 11 8 d.moves).clsEnd n d.code
    match s.altFind e.toKey with
    | some i =>
      match s.altAt i with
      | none => s.clsEnd n 3
      | some o =>
        if replace = false then s.clsEnd n 2
        else if reaches n o.owner = false then s.clsEnd n 5
        else done (s.altPut i (some { e with hit := o.hit, age := o.age })) ⟨0, i, 0⟩
    | none =>
      let (s, d) := s.place e noEvict false
      if d.code = 3 then s.clsEnd n 3 else done s d

/-- DELETE. -/
def State.clsDelete (s : State) (n : Nat) : State :=
  if s.clsBusy n then s.clsEnd n 7
  else if s.isFollower then s.clsEnd n 6
  else
    match s.altFind (AltEntry.ofBytes (s.cmdEntry n)).toKey with
    | none => s.clsEnd n 1
    | some i =>
      match s.altAt i with
      | none => s.clsEnd n 1
      | some e =>
        if reaches n e.owner then ((s.altPut i none).setFld (privKey n Reg.clsCmdIndex) 17 0 i).clsEnd n 0
        else s.clsEnd n 1

/-- The entries a flush of window n removes. -/
def State.flushSet (s : State) (n p : Nat) (statics : Bool) : List Nat :=
  s.cls.alt.filterMap (fun x => match x.2 with
    | some e => if e.portValid && e.port == p && (statics || !e.stat) && reaches n e.owner then some x.1 else none
    | none => none)

/-- Entries go one commit at a time. -/
def State.altRemove (s : State) (is : List Nat) : State := is.foldl (fun (s : State) i => s.altPut i none) s

/-- FLUSH_BY_PORT (R226, R228): entries go one commit at a time; learning into the port pauses until FLUSH_DONE. How many go before
the next command is free; the rest go by FLUSH_DONE. -/
def State.clsFlush (s : State) (n p : Nat) (statics : Bool) : State :=
  if s.clsBusy n then s.clsEnd n 7
  else if s.isFollower then s.clsEnd n 6
  else if n ≠ 0 ∧ s.portOwner p ≠ n then s.clsEnd n 5
  else
    let gone := s.flushSet n p statics
    let (k, s) := s.draw
    let first := gone.take (Config.freeNat k % (gone.length + 1))
    ({ s with cls := { s.cls with flushes := s.cls.flushes ++ [Flush.mk n p statics first.length] } }).altRemove first

/-- d(e) of R237 at index i. -/
def entryDigest (i : Nat) (e : AltEntry) : Nat :=
  let m := beBytes 3 i ++ e.head false 0
  (crcLsb 0x82F63B78 0xFFFFFFFF m ^^^ 0xFFFFFFFF) * 2 ^ 32 + crc32 m

/-- An entry's digest is folded into its stripe's latched copy. -/
def State.digestIn (s : State) (i : Nat) (e : AltEntry) : State :=
  let j := i / 1024
  let d := entryDigest i e
  let s := s.wr (Reg.clsDigestLo j) (s.rd (Reg.clsDigestLo j) ^^^ BitVec.ofNat 32 d)
  s.wr (Reg.clsDigestHi j) (s.rd (Reg.clsDigestHi j) ^^^ BitVec.ofNat 32 (d / 2 ^ 32))

/-- DIGEST_SNAP (R237, R238): all 256 digests at one instant; allotment 0 only (R227). -/
def State.clsSnap (s : State) (n : Nat) : State :=
  if s.clsBusy n then s.clsEnd n 7
  else if n ≠ 0 then s.clsEnd n 5
  else
    let only := s.flg Reg.clsDigestCtrl 0
    let s := s.clearRegs (Reg.clsDigestLo 0) (Reg.clsDigestLo 256)
    let s := s.cls.alt.foldl (fun s x => match x.2 with
      | some e => if only && !e.stat then s else s.digestIn x.1 e
      | none => s) s
    (s.setFlg Reg.clsDigestCtrl 31 true).clsEnd n 0

/-- The command OP of CLS_CMD with the other fields of the word, for window n (R222); OP 7 to 15 complete with CODE 9. -/
def State.clsRun (s : State) (n op : Nat) (w : Word) : State :=
  match op with
  | 0 => if s.clsBusy n then s.clsEnd n 7 else s
  | 1 => s.clsSearch n
  | 2 => s.clsNext n
  | 3 => s.clsInsert n (bit w 22) (bit w 23)
  | 4 => s.clsDelete n
  | 5 => s.clsFlush n (bits w 11 8) (bit w 21)
  | 6 => s.clsSnap n
  | _ => if s.clsBusy n then s.clsEnd n 7 else s.clsEnd n 9

/-- SEARCH: the entry whose key stands in CLS_CMD_ENTRY. -/
def execClsSearch (path : Path) (s : State) : Host.Outcome State Fault Refusal :=
  .next (s.cmdWrite (.clsSearch path) path Reg.clsCmd (fun n s => s.clsSearch n))

/-- NEXT: the table walk of R224. -/
def execSearchNext (path : Path) (s : State) : Host.Outcome State Fault Refusal :=
  .next (s.cmdWrite (.searchNext path) path Reg.clsCmd (fun n s => s.clsNext n))

/-- INSERT with REPLACE and NO_EVICT. -/
def execClsInsert (path : Path) (replace noEvict : Bool) (s : State) : Host.Outcome State Fault Refusal :=
  .next (s.cmdWrite (.clsInsert path replace noEvict) path Reg.clsCmd (fun n s => s.clsInsert n replace noEvict))

/-- DELETE of the matching entry. -/
def execClsDelete (path : Path) (s : State) : Host.Outcome State Fault Refusal :=
  .next (s.cmdWrite (.clsDelete path) path Reg.clsCmd (fun n s => s.clsDelete n))

/-- FLUSH_BY_PORT with PORT and INCLUDE_STATIC. -/
def execFlushByPort (path : Path) (port : Fin 16) (statics : Bool) (s : State) : Host.Outcome State Fault Refusal :=
  .next (s.cmdWrite (.flushByPort path port statics) path Reg.clsCmd (fun n s => s.clsFlush n port.val statics))

/-- FLUSH_DONE (R226): the oldest flush makes the removals that are left and completes; learning into its port resumes. -/
def execFlushDone (s : State) : Host.Outcome State Fault Refusal :=
  match s.cls.flushes with
  | [] => .next s
  | f :: rest =>
    let gone := s.flushSet f.win f.port f.statics
    let s := s.altRemove gone
    let s := { s with cls := { s.cls with flushes := rest } }
    .next ((s.clsEnd f.win 0).noteFor Ev.flushDone f.win (beBytes 1 f.port ++ beBytes 4 (f.removed + gone.length)))

/-- DIGEST_SNAP. -/
def execDigestSnap (path : Path) (s : State) : Host.Outcome State Fault Refusal :=
  .next (s.cmdWrite (.digestSnap path) path Reg.clsCmd (fun n s => s.clsSnap n))

/-- CLS_CMD_UNKNOWN: OP 7 to 15; a write of OP 0 is no command, but completes with CODE 7 while BUSY is 1. -/
def execClsCmdUnknown (path : Path) (op : Fin 16) (s : State) : Host.Outcome State Fault Refusal :=
  if 1 ≤ op.val ∧ op.val < 7 then .next s
  else .next (s.cmdWrite (.clsCmdUnknown path op) path Reg.clsCmd (fun n s => s.clsRun n op.val 0))

/-- What a write of a hash seed does (R211). -/
def State.hashSeedEffect (s : State) (off : Nat) (val : Word) : State :=
  if s.cls.alt = [] then s.wr off val else s.note Ev.clsCmdRefused (beBytes 4 off)

/-- HASH_SEED_WRITE (R211): accepted only while the table is empty. -/
def execHashSeedWrite (path : Path) (one : Bool) (val : Word) (s : State) : Host.Outcome State Fault Refusal :=
  let off := if one then Reg.clsHashSeed1 else Reg.clsHashSeed0
  .next (s.hostWrite path off val (fun s => s.hashSeedEffect off val))

/-! ## The reaper (R235, R236) and bypass (R216) -/

/-- The reaper at one slot: clear HIT and set AGE, or remove a silent learned entry. -/
def State.reapSlot (s : State) (i : Nat) : State :=
  match s.altAt i with
  | none => s
  | some e =>
    if e.hit then { s with cls := { s.cls with alt := SMap.set noneOf s.cls.alt i (some { e with hit := false, age := s.cls.sweep }) } }
    else if e.stat = false ∧ e.portValid then (s.altPut i none).inc (Reg.clsCountLo 13)
    else s

/-- The ns between two visits of the reaper: PERIOD_S ÷ 65,536 (R235). -/
def State.visitNs (s : State) : Nat := max 1 (s.fld Reg.clsAgeCfg 15 0) * 1000000000 / 65536

/-- REAPER_VISIT (R235, R242): the next of the 65,536 buckets when its time has come; at the end of a sweep SWEEP rises modulo
65,536. bad names the slots
whose read showed a double-bit error; the fixed words with a single-bit error are corrected, counted and rewritten. -/
def execReaperVisit (bad : List (Fin 4)) (fixed : Fin 5) (s : State) : Host.Outcome State Fault Refusal :=
  if s.flg Reg.clsCtrl 2 = false ∨ s.isFollower ∨ s.clsLive = false ∨ s.now < s.cls.visitAt then .next s
  else
    let s := { s with cls := { s.cls with visitAt := s.now + s.visitNs } }
    let b := s.cls.bucket
    let badIdx := bad.map (fun k => 4 * b + k.val)
    let s := s.altErrors badIdx fixed.val
    let s := [0, 1, 2, 3].foldl (fun (s : State) k => if badIdx.contains (4 * b + k) then s else s.reapSlot (4 * b + k)) s
    if b = 65535 then .next { s with cls := { s.cls with bucket := 0, sweep := (s.cls.sweep + 1) % 65536 } }
    else .next { s with cls := { s.cls with bucket := b + 1 } }

/-- Frames whose probe waits for a place leave without one: in bypass decrypted frames cause no probe (R215, R216). -/
def State.freeProbes (s : State) : State :=
  s.cls.probeWait.foldl (fun (s : State) (w : LearnReq × Nat) => s.setVerdict w.2 true) { s with cls := { s.cls with probeWait := [] } }

/-- DEFAULT_BYPASS: the classifier ceases to be live; the event is raised once when bypass begins. -/
def execDefaultBypass (s : State) : Host.Outcome State Fault Refusal :=
  let s := { s with fab := { s.fab with live := s.fab.live.filter (· != 14) } }
  .next (s.beginBypass.freeProbes.recheck)

/-- The V5 scan of R241: the higher copy of a key found twice goes; an insertion in progress had no effect, and the removals that a
flush had not made end with NOT_STARTED (R228). Bypass ends. -/
def State.clsScan (s : State) : State :=
  let s := s.cls.flushes.foldl (fun s f => s.clsEnd f.win 11) s.freeProbes
  let s := { s with cls := { s.cls with flushes := [], probes := [], learnQ := [], bypass := false } }
  s.cls.alt.foldl (fun s x => match x.2 with
    | some e =>
      match s.altFind e.toKey with
      | some i => if i < x.1 then (s.altPut x.1 none).noteFor Ev.altDupRemoved e.owner (beBytes 4 x.1) else s
      | none => s
    | none => s) s

end Sys2Proof.Machine
end

