-- ==== Sys2Proof/Machine/Sensors.lean ====
section
/-! DEFINITION. The Hedge (chapter 15): sensor filters and alarms on both supplies, the reserve test, sensor
configuration, root refresh, reading the evidence log. -/

namespace Sys2Proof.Machine

open Sys2Proof

/-! ## Configuration of a sensor -/

/-- Factory floors of R487: MIN_LEVEL, MAX_COUNT, MIN_WINDOW_MS of sensors 0 to 12. -/
def factoryFloors : List (Nat × Nat × Nat) :=
  [(5, 4, 250), (5, 4, 250), (5, 2, 10), (4, 5, 100), (4, 5, 5000), (3, 5, 5000), (2, 16, 1000), (2, 16, 1000),
   (1, 3, 180000), (2, 3, 3000), (3, 4, 1000), (5, 1, 10), (5, 1, 1)]

/-- The effective floor of a sensor: the stricter of the factory floor and every entry of the image that names it. -/
def State.floorOf (s : State) (k : Nat) : Nat × Nat × Nat :=
  let fs : List FloorEntry := match s.boot.image with
    | some im => im.floors.filter (fun f => f.sensor == k)
    | none => []
  fs.foldl (fun (a : Nat × Nat × Nat) f => (max a.1 f.minLevel, min a.2.1 f.maxCount, max a.2.2 f.minWindow))
    (factoryFloors.getD k (0, 0, 0))

/-- LEVEL and COUNT in force; a COUNT of 0 acts as 1 (R488). -/
def State.sensorLevel (s : State) (k : Nat) : Nat := s.fld (Reg.hdgSensorCfg k) 18 16
def State.sensorCount (s : State) (k : Nat) : Nat :=
  if s.fld (Reg.hdgSensorCfg k) 15 0 = 0 then 1 else s.fld (Reg.hdgSensorCfg k) 15 0

/-- Sensor k. -/
def State.sensor (s : State) (k : Nat) : Sensor := s.hdg.sensors.getD k Sensor.idle

/-- Sensor k changed. -/
def State.setSensor (s : State) (k : Nat) (f : Sensor → Sensor) : State :=
  { s with hdg := { s.hdg with sensors := modAt f s.hdg.sensors k } }

/-! ## Filters (R485, R486) -/

/-- The sensor is served on the present supply (R484). -/
def State.sensed (s : State) (k : Nat) : Bool := decide (k < 13) && (s.hdg.live || (k != 6 && k != 10))

/-- The last measured value that an evidence record carries: mesh, temperature and cell sensors measure (R500). -/
def measures (k : Nat) : Bool := k == 0 || k == 1 || k == 4 || k == 5 || k == 8 || k == 9

/-- What a detection measured shows in HDG_TEMP and HDG_CELL; a ROOT_CHECK that detects has failed (R492). -/
def State.measure (s : State) (k measured : Nat) : State :=
  if k = 4 ∨ k = 5 then s.wr Reg.hdgTemp (BitVec.ofNat 32 (measured % 65536))
  else if k = 8 ∨ k = 9 then { s with hdg := { s.hdg with cellMv := measured % 4294967296 } }
  else if k = 12 then { s with hdg := { s.hdg with rootCheckOk := false } }
  else s

/-- One detection fills the filter; the flag tells that the fill reached COUNT, which empties it. The fill before it was emptied
is returned with it. A detection that finds the filter empty, or its window over, opens a window of WINDOW_MS (R485). -/
def State.fillUp (s : State) (k measured : Nat) : State × Bool × Nat :=
  let x := s.sensor k
  let opens := decide (x.fill = 0) || decide (x.closesAt ≤ s.now)
  let fill := if opens then 1 else x.fill + 1
  let full := decide (s.sensorCount k ≤ fill)
  let closes := if opens then s.now + (s.rd (Reg.hdgSensorWin k)).toNat * 1000000 else x.closesAt
  let s := (s.setFlg (Reg.hdgSensorStatus k) 29 true).measure k measured
  let s := s.setSensor k (fun x => { x with
    fill := if full then 0 else fill, raw := true, measured := if measures k then measured % 4294967296 else 0
    closesAt := closes, clearAt := s.now + 1000000000 })
  (s, full, fill)

/-- One detection; the flag tells that the filter has filled on a sensor that was not tripped, which is its alarm (R486). -/
def State.detect (s : State) (k measured : Nat) : State × Bool × Nat :=
  let tripped := (s.sensor k).tripped
  let (s, full, fill) := s.fillUp k measured
  (s, full && !tripped, fill)

/-- The sensor is tripped by its alarm, which is counted. -/
def State.trip (s : State) (k : Nat) : State :=
  s.setSensor k (fun x => { x with tripped := true, alarms := satAdd 65535 x.alarms 1 })

/-- Evidence of an alarm of sensor k (R499, R500). -/
def State.alarmEvid (s : State) (k fill : Nat) : EvidArgs :=
  ⟨Ev.hedgeAlarm.code, s.sensorLevel k, k, fill,
    beBytes 4 (s.sensor k).measured ++ beBytes 4 (s.rd (Reg.hdgSensorWin k)).toNat, false, s.hdg.hcount⟩

/-- An alarm on main power raises HEDGE_ALARM at the sensor's level (R489), with evidence from level 2 up (R499); others fire
with it. -/
def State.mainAlarm (s : State) (k fill : Nat) (others : List Fired := []) : State :=
  let lvl := s.sensorLevel k
  let ev := s.alarmEvid k fill
  let s := s.trip k
  let s := if 5 ≤ lvl then { s with hdg := { s.hdg with zeroizedBy := k, zeroizedAt := s.hdg.hcount } } else s
  s.raiseFull (Ev.hedgeAlarm.atLevel lvl) 0xFF []
    (beBytes 1 k ++ beBytes 4 fill ++ beBytes 4 (s.sensor k).measured) []
    (if 2 ≤ lvl then some ev else none) others

/-- The reserve test of R495 with the voltage measured at the end of its pulse, in mV. -/
def State.reserveTest (s : State) (mv : Nat) : State :=
  { s with hdg := { s.hdg with loadedMv := if 4095 < mv then 4095 else mv, reserveOk := decide (2500 ≤ mv) } }

/-- The cell alarm sequence C1 to C5 (R493, R494): ZEROIZED, clamp, reserve test, evidence or latch. A filter result at
level 0 or 1 only counts in NOTES. -/
def State.cellAlarm (s : State) (k fill loadedMv : Nat) : State :=
  if s.sensorLevel k < 2 then s.setSensor k (fun x => { x with notes := x.notes + 1 })
  else
    let ev := s.alarmEvid k fill
    let s := s.trip k
    let s := { s with hdg := { s.hdg.clampRoots with
      zeroized := true
      zeroizedBy := if s.hdg.zeroized then s.hdg.zeroizedBy else k
      zeroizedAt := if s.hdg.zeroized then s.hdg.zeroizedAt else s.hdg.hcount } }
    let s := s.emit .eraseLine
    let s := s.reserveTest loadedMv
    if s.hdg.reserveOk then s.evidCellAppend ev
    else { s with hdg := s.hdg.latchItem k s.hdg.hcount }

/-- An alarm on the present supply. -/
def State.hedgeAlarm (s : State) (k fill loadedMv : Nat) : State :=
  if s.hdg.live then s.mainAlarm k fill else s.cellAlarm k fill loadedMv

/-- A failed bus code or slot check counts as one detection of sensor 10; the event that brings the filter to COUNT
takes its LEVEL, each other one level 0 (R490). While the sensor is not tripped HEDGE_ALARM fires with it, and their actions
are done once (R107); while it is tripped the event alone fires (R486). -/
def State.busFailure (s : State) (k : EvKind) (owner : Nat) (owners : List Nat) (params : List Byte) : State :=
  let tripped := (s.sensor 10).tripped
  let (s, full, fill) := s.fillUp 10 0
  let lvl := s.sensorLevel 10
  if full = false then s.noteAs k.code 0 owner owners params
  else if tripped then s.raiseFull (k.atLevel lvl) owner owners params [] none
  else s.mainAlarm 10 fill [⟨k.code, lvl, owner, owners, params⟩]

/-! ## The commands -/

/-- SENSOR_DETECTION (R485, R489, R493): measured is the sensor's value, loadedMv what a reserve test would read. -/
def execSensorDetection (sensor : Fin 16) (measured : Word) (loadedMv : Nat) (s : State) :
    Host.Outcome State Fault Refusal :=
  let k := sensor.val
  if s.sensed k = false then .next s
  else
    let (s, alarm, fill) := s.detect k measured.toNat
    if alarm then .next (s.hedgeAlarm k fill loadedMv) else .next s

/-- SENSOR_WINDOW_CLOSE (R485): an open window ends below COUNT, and the filter empties; present tells whether the detection still
holds. -/
def execSensorWindowClose (sensor : Fin 16) (present : Bool) (s : State) : Host.Outcome State Fault Refusal :=
  let x := s.sensor sensor.val
  .next (if x.fill = 0 ∨ s.now < x.closesAt then s else s.setSensor sensor.val (fun x => { x with fill := 0, raw := present }))

/-- SENSOR_TRIP_CLEAR (R486): the detection has been absent for 1 s; the root words agree with their check values again. -/
def execSensorTripClear (sensor : Fin 16) (s : State) : Host.Outcome State Fault Refusal :=
  let k := sensor.val
  if (s.sensor k).tripped = false ∨ s.now < (s.sensor k).clearAt then .next s
  else
    let s := if k = 12 then { s with hdg := { s.hdg with rootCheckOk := true } } else s
    .next (s.setSensor k (fun x => { x with tripped := false, raw := false }))

/-- A locked field was written: LOCK_WRITE_IGNORED with the Device Window offset (R12). -/
def State.lockIgnored (s : State) (off : Nat) : State := s.note Ev.lockWriteIgnored (beBytes 4 off)

/-- A configuration word is at least as strict as the floor (R488). -/
def State.cfgAllowed (s : State) (k : Nat) (win : Bool) (val : Word) : Bool :=
  let f := s.floorOf k
  if win then decide (f.2.2 ≤ val.toNat)
  else decide (bits val 18 16 ≤ 5) && decide (f.1 ≤ bits val 18 16) && decide (bits val 15 0 ≤ f.2.1)

/-- What a write of HDG_SENSOR_CFG[k] or HDG_SENSOR_WIN[k] does (R488, R63). -/
def State.sensorCfgEffect (s : State) (k : Nat) (win : Bool) (val : Word) : State :=
  let off := if win then Reg.hdgSensorWin k else Reg.hdgSensorCfg k
  if 11 ≤ k then s
  else if s.flg Reg.hdgCfg 31 then s.lockIgnored off
  else if s.cfgAllowed k win val = false then s.note Ev.structureBound (beBytes 4 off)
  else s.wr off (if win then val else val &&& 0x7FFFF#32)

/-- SENSOR_CFG_WRITE (R488, R63): HDG_SENSOR_CFG, or HDG_SENSOR_WIN with win; sensors 11 and 12 are read-only, 13 to 15
ignore writes. -/
def execSensorCfgWrite (path : Path) (sensor : Fin 16) (win : Bool) (val : Word) (s : State) :
    Host.Outcome State Fault Refusal :=
  let k := sensor.val
  let off := if win then Reg.hdgSensorWin k else Reg.hdgSensorCfg k
  .next (s.hostWrite path off val (fun s => s.sensorCfgEffect k win val))

/-- What one SRAM word of a root and its check value hold: 0 where there is no root, complemented under polarity 1 (R480). -/
def Hedge.rootCell (h : Hedge) (root : Option (List Byte)) : List Byte :=
  let b := match root with | some r => slice r 0 32 ++ beBytes 4 (crc32 (slice r 0 32)) | none => zeroBytes 36
  if h.rootPolarity then b.map (fun x => ~~~x) else b

/-- The five root words with their check values as the SRAM holds them, the pending word last (R480). -/
def Hedge.rootCells (h : Hedge) : List (List Byte) := (h.roots ++ [h.pendingRoot]).map h.rootCell

/-- ROOT_REFRESH (R480): every root word is rewritten in complemented form and the polarity bit toggles. -/
def execRootRefresh (s : State) : Host.Outcome State Fault Refusal :=
  .next { s with hdg := { s.hdg with rootPolarity := !s.hdg.rootPolarity } }

/-- RESERVE_TEST (R495): every 3,600 s on the cell; loadedMv is the voltage at the end of the pulse. -/
def execReserveTest (loadedMv : Nat) (s : State) : Host.Outcome State Fault Refusal :=
  if s.hdg.live then .next s else .next (s.reserveTest loadedMv)

/-- ZERO_PIN_REQUEST (R491): an alarm of sensor 11 at level 5 in every mode; while the contact stays low the sensor stays
tripped. -/
def execZeroPinRequest (loadedMv : Nat) (s : State) : Host.Outcome State Fault Refusal :=
  let (s, alarm, fill) := s.detect 11 0
  if alarm then .next (s.hedgeAlarm 11 fill loadedMv) else .next s

/-- The 32 words of a record. -/
def State.putEvidence (s : State) (b : List Byte) : State :=
  (List.range 32).foldl (fun s w => s.wr (Reg.hdgLogData w) (BitVec.ofNat 32 (ofBe (slice b (4 * w) 4)))) s

/-- What a write of HDG_LOG_INDEX does (R504). -/
def State.hdgIndexEffect (s : State) (val : Word) : State :=
  let i := bits val 12 0
  match (if i < s.hdg.next then SMap.get noneOf s.hdg.log i else none) with
  | some r => (s.putEvidence r.bytes).wr Reg.hdgLogIndex (setBit (BitVec.ofNat 32 i) 31 true)
  | none => (s.putEvidence []).wr Reg.hdgLogIndex (BitVec.ofNat 32 i)

/-- HDG_LOG_INDEX_WRITE (R504): the record at INDEX is copied; at or above NEXT, or not yet written, VALID is 0. -/
def execHdgLogIndexWrite (path : Path) (val : Word) (s : State) : Host.Outcome State Fault Refusal :=
  .next (s.hostWrite path Reg.hdgLogIndex val (fun s => s.hdgIndexEffect val))

/-- CELL_EXHAUSTED (R505 order 6): on the cell the Hedge state, the roots and the latch are lost together. NEXT and the
chain stay, since the pointer only advances (R502); HCOUNT and POWERUPS are free values. -/
def execCellExhausted (s : State) : Host.Outcome State Fault Refusal :=
  if s.hdg.live then .next s
  else
    let h := s.hdg
    .next { s with
      hdg := { h.clampRoots with
        zeroized := false, zeroizedBy := 0, zeroizedAt := 0, evidKey := none, latch := none, pend := [], reserveOk := false
        replay := []
        hcount := Config.freeNat s.free % 2 ^ 48, powerups := Config.freeNat (s.free + 1) % 2 ^ 32
        sensors := h.sensors.map (fun (x : Sensor) => { x with fill := 0, tripped := false, notes := 0, closesAt := 0, clearAt := 0 }) }
      free := s.free + 2 }

end Sys2Proof.Machine
end

