-- ==== Sys2Proof/Machine/KeyOps.lean ====
section
/-! DEFINITION. What frames, sheaves and jobs share in using keys: slots and their limits (R386 to R396), work items
(R358 to R361), packet numbers, reservations and rotation (R316 to R322, R335 to R337, R438). -/

namespace Sys2Proof.Machine

open Sys2Proof

/-! ## Slots (slot code: data slot s is s, vault slot v is 131,072 + v) -/

/-- The first vault slot code; the session key and the yoke pair key (R385, table of slots). -/
def vaultBase : Nat := 131072
def sessionSlot : Nat := vaultBase + 254
def pairKeySlot : Nat := vaultBase + 255

/-- A slot code as the 4 bytes of a descriptor: [31] VAULT, [16:0] id (R366). -/
def slotWord (c : Nat) : Nat := if c < vaultBase then c else 2 ^ 31 + (c - vaultBase)

/-- The slot code that a descriptor word names; none for a vault id above 255. -/
def slotOfWord (w : Nat) : Option Nat :=
  if w / 2 ^ 31 % 2 = 1 then (if w % 131072 < 256 then some (vaultBase + w % 131072) else none) else some (w % 131072)

/-- Slot c; none is Empty. -/
def State.slot (s : State) (c : Nat) : Option KeySlot := SMap.get noneOf s.kvt.slots c

def State.setSlot (s : State) (c : Nat) (k : Option KeySlot) : State :=
  { s with kvt := { s.kvt with slots := SMap.set noneOf s.kvt.slots c k } }

def State.modSlot (s : State) (c : Nat) (f : KeySlot → KeySlot) : State :=
  match s.slot c with
  | some k => s.setSlot c (some (f k))
  | none => s

/-- Loaded or Active; Loaded, Active or Fallow; Empty or Erased. -/
def KeySlot.usable (k : KeySlot) : Bool := k.st == .loaded || k.st == .active
def State.slotUsable (s : State) (c : Nat) : Bool := match s.slot c with | some k => k.usable | none => false
def State.slotBound (s : State) (c : Nat) : Bool :=
  match s.slot c with | some k => k.usable || k.st == .fallow | none => false

/-- Fields of ATTR (R387). -/
def attrSize (a : Word) : Bool := bit a 28
def attrOwner (a : Word) : Nat := bits a 27 22
def attrPersist (a : Word) : Bool := bit a 21
def attrMigratable (a : Word) : Bool := bit a 20
def attrYoke (a : Word) : Bool := bit a 19
def attrLimit (a : Word) : Nat := bits a 18 16
def attrAn (a : Word) : Nat := bits a 1 0

/-- ATTR with STATE and MGEN as READ_ATTR returns it. -/
def KeyState.code : KeyState → Nat
  | .empty => 0 | .loaded => 1 | .active => 2 | .fallow => 3 | .erased => 4

/-- The stored ATTR keeps neither STATE nor MGEN nor the bits that are 0. -/
def attrMask : Word := 0x1FFFFE03#32

def KeySlot.fullAttr (k : KeySlot) : Word := setBit (setBits (k.attr &&& attrMask) 31 29 k.st.code) 7 k.mgen

/-- The fingerprint of a key (R317). -/
def keyFp (k : List Byte) : Nat := ofBe ((Config.aes k (beBytes 8 0x4C4D333231362D46 ++ beBytes 8 0x5000000000000000)).take 6)

/-- Soft and hard limits of a limit class (R389). -/
def softLimit (c : Nat) : Option Nat := if c = 0 then none else some (2 ^ (24 + 4 * c))
def hardLimit (c : Nat) : Option Nat := if c = 0 then none else some (2 ^ (28 + 4 * c))

/-- The usage count has reached the limit. -/
def atLimit (l : Option Nat) (u : Nat) : Bool := match l with | some m => decide (m ≤ u) | none => false

/-- A slot at its hard limit starts no new work item (R390). -/
def KeySlot.hard (k : KeySlot) : Bool := atLimit (hardLimit (attrLimit k.attr)) k.usage

/-- A new work item may start on the slot. -/
def State.mayStart (s : State) (c : Nat) : Bool := match s.slot c with | some k => k.usable && !k.hard | none => false

/-- YOKE of a slot's ATTR. -/
def State.slotYoke (s : State) (c : Nat) : Bool := match s.slot c with | some k => attrYoke k.attr | none => false

/-- The mask of slot code c under a mask key (R394). -/
def slotMask (mk : List Byte) (c : Nat) : List Byte :=
  slice (Config.aes mk (beBytes 4 (slotWord c) ++ zeroBytes 11 ++ [0x01#8])) 0 16 ++
  slice (Config.aes mk (beBytes 4 (slotWord c) ++ zeroBytes 11 ++ [0x02#8])) 0 16

/-- Bytes of a key of ATTR's SIZE. -/
def attrBytes (a : Word) : Nat := if attrSize a then 32 else 16

/-- The mask key of the slot store. -/
def State.storeMask (s : State) : List Byte := s.kvt.maskKey.getD []

/-- A key under the mask of its slot: 32 bytes, a 128-bit key followed by 0x00 (R386). -/
def maskedKey (mk : List Byte) (c : Nat) (key : List Byte) : List Byte := xorBytes (slice key 0 32) (slotMask mk c)

/-- KEY of a slot, unmasked. -/
def State.keyOf (s : State) (c : Nat) : List Byte :=
  match s.slot c with
  | some k => (xorBytes k.key (slotMask s.storeMask c)).take (attrBytes k.attr)
  | none => []

/-- CHECK of a slot's key and ATTR (R386). -/
def State.slotCheck (s : State) (c : Nat) (key : List Byte) (a : Word) : List Byte :=
  slice (Config.cmac (s.kvt.checkKey.getD []) (slice key 0 32 ++ beBytes 4 (a &&& attrMask).toNat ++ beBytes 4 (slotWord c))) 12 4

/-- The 40 bytes of a slot in the slot store (R386). -/
def KeySlot.bytes (k : KeySlot) : List Byte := slice k.key 0 32 ++ beBytes 4 k.fullAttr.toNat ++ slice k.check 0 4

/-- Owner of a slot: its association's for a data slot (the KVT section), its ATTR's for a vault slot. -/
def State.slotOwner (s : State) (c : Nat) : Nat :=
  if c < vaultBase then s.assocOwner (c / 2)
  else match s.slot c with
    | some k => if k.usable || k.st == .fallow then attrOwner k.attr else SMap.get zeroOf s.kvt.grants c
    | none => SMap.get zeroOf s.kvt.grants c

/-- A KVT_COMMIT item for a slot with YOKE 1 (R410): OP 1 with the key wrapped under slot 255, OP 2 without. -/
def State.conveySlot (s : State) (c op : Nat) : State :=
  match s.slot c with
  | none => s
  | some k =>
    if attrYoke k.attr ∧ c < vaultBase then
      s.convey 0x09 (beBytes 4 (slotWord c) ++ beBytes 4 k.attr.toNat ++ beBytes 1 op ++ zeroBytes 3 ++
        (if op = 1 then slice (Config.kwWrap (s.keyOf pairKeySlot) (slice (s.keyOf c) 0 32)) 0 40 else zeroBytes 40))
    else s

/-- Copies that a key cache holds (R395). -/
def cacheSize : Nat := 16384

/-- The copy of slot c in a key cache becomes the most recently used; the least recently used one leaves a full cache. -/
def KeyCache.put (x : KeyCache) (c : Nat) (key : List Byte) : KeyCache :=
  { x with copies := ((c, maskedKey x.mask c key) :: x.copies.filter (fun e => e.1 != c)).take cacheSize }

/-- The copies of slot c are dropped (R395). -/
def State.dropCopies (s : State) (c : Nat) : State :=
  { s with cph := { s.cph with caches := s.cph.caches.map (fun x => { x with copies := x.copies.filter (fun e => e.1 != c) }) } }

/-- The copies of slot c that the caches hold take a key (R395). -/
def State.updateCopies (s : State) (c : Nat) (key : List Byte) : State :=
  { s with cph := { s.cph with caches := s.cph.caches.map (fun x =>
      { x with copies := x.copies.map (fun e => if e.1 = c then (c, maskedKey x.mask c key) else e) }) } }

/-- The key of a slot that is Loaded or Active is staged into every cipher island (R395). -/
def State.stageSlot (s : State) (c : Nat) : State :=
  if s.slotUsable c then
    let key := s.keyOf c
    { s with cph := { s.cph with caches := s.cph.caches.map (fun x => x.put c key) } }
  else s

/-- The snapshot of slot c that pair p takes: the key unmasked from its island's copy (R358, R395); a copy that the cache has
replaced is staged again. -/
def State.keySnapshot (s : State) (p c : Nat) : List Byte :=
  match s.cph.caches[p / 18]? with
  | some x =>
    match x.copies.find? (fun e => e.1 == c), s.slot c with
    | some e, some k => (xorBytes e.2 (slotMask x.mask c)).take (attrBytes k.attr)
    | _, _ => s.keyOf c
  | none => s.keyOf c

/-- A Loaded or Active slot enters Fallow (R391); every copy of it goes first (R395). -/
def State.enterFallow (s : State) (c : Nat) : State :=
  if s.slotUsable c then
    (((s.dropCopies c).modSlot c (fun k => { k with st := .fallow })).inc (Reg.kvtCountLo 3)).conveySlot c 2
  else s

/-- A slot fails its check value: it serves nothing, is erased through Fallow and reported to the Hedge (R396). -/
def State.slotCheckFail (s : State) (c : Nat) : State :=
  ((s.enterFallow c).inc (Reg.kvtCountLo 5)).busFailure Ev.kvtSlotCheckFail (s.slotOwner c) [s.slotOwner c] (beBytes 4 (slotWord c))

/-! ## Reservation records -/

/-- E of R318. -/
def State.reserveExp (s : State) : Nat := clamp 16 24 (s.fld Reg.ascPnCfg 4 0)

/-- No record. -/
def PnRec.none : PnRec := ⟨0, 0, 0, 0, false, false, false⟩

/-- The record of an association's payload. -/
def pnPayload (a : Nat) (r : StoreReq) : Option PnRec :=
  match r.pay with
  | .pnRec b x => if b = a then some x else Option.none
  | _ => Option.none

/-- The record as last requested: the newest queued store, the store in progress, the durable record. -/
def State.pnRec (s : State) (a : Nat) : PnRec :=
  match s.st.queue.reverse.findSome? (pnPayload a) with
  | some r => r
  | Option.none =>
    match s.st.mram.bind (pnPayload a) with
    | some r => r
    | Option.none => (SMap.get noneOf s.mram.pn a).getD PnRec.none

/-- A lead waits for its twin's marks: the twin is Yoke Follower and not lost (R438, R449 step Y7). -/
def State.twinAcks (s : State) : Bool := s.ctl.mode == .yokeLead && !s.yok.twinLost && s.yok.twinMode == 7

/-- A lead conveys a new mark, and waits for the twin's acknowledgement of it (R438). -/
def State.conveyMark (s : State) (kind a mark : Nat) : State :=
  if s.ctl.mode = .yokeLead then
    let s := if s.twinAcks then { s with yok := { s.yok with marks := s.yok.marks ++ [MarkWait.mk kind a mark false false] } } else s
    s.convey 0x14 (beBytes 1 kind ++ beBytes 1 0 ++ beBytes 2 a ++ beBytes 8 mark)
  else s

/-- A reservation record is requested; the flag is false when the store is refused (R124). -/
def State.storePn (s : State) (a : Nat) (r : PnRec) (who : Waiter) : State × Bool :=
  let old := s.pnRec a
  let (s, ok) := s.requestStore (recordStore .reservation (.pnRec a r) who)
  if ok then
    let s := if r.txMark ≠ old.txMark then s.conveyMark 1 a r.txMark else s
    (if r.rxMark ≠ old.rxMark then s.conveyMark 2 a r.rxMark else s, true)
  else (s, false)

/-! ## Transmit security associations (R316, R318, R320, R335) -/

/-- Slot code of slot k of association a; the transmit slot; the other slot. -/
def slotOf (a k : Nat) : Nat := 2 * a + k

/-- AN of slot k. -/
def Ctx.an (c : Ctx) (k : Nat) : Nat := if k = 0 then c.an0 else c.an1

/-- Flags of a context (R304). -/
def Ctx.persist (c : Ctx) : Bool := bit c.flags 15
def Ctx.verifyFirst (c : Ctx) : Bool := bit c.flags 14
def Ctx.autoRotate (c : Ctx) : Bool := bit c.flags 13
def Ctx.timingBypass (c : Ctx) : Bool := bit c.flags 12
def Ctx.xpn (c : Ctx) : Bool := bit c.flags 11
def Ctx.key256 (c : Ctx) : Bool := bit c.flags 10
def Ctx.conf (c : Ctx) : Bool := bit c.flags 9
def Ctx.sc (c : Ctx) : Bool := bit c.flags 8
def Ctx.es (c : Ctx) : Bool := bit c.flags 7
def Ctx.confOffset (c : Ctx) : Nat := match bits c.flags 6 5 with | 0 => 0 | 1 => 30 | _ => 50
def Ctx.clearTags (c : Ctx) : Nat := bits c.flags 4 3

/-- The last PN of an SA (R316), lowered by a migration cap (R533). -/
def Ctx.lastPn (c : Ctx) : Nat :=
  let l := if c.xpn then 2 ^ 64 - 1 else 2 ^ 32 - 1
  match c.cap with
  | some x => if x < l then x else l
  | none => l

/-- The first PN of an SA whose key has a fingerprint (R320 step 1). -/
def State.firstPn (s : State) (a fp : Nat) (c : Ctx) : Nat :=
  let r := s.pnRec a
  if r.txFp = fp then max c.startPn r.txMark else c.startPn

/-- Fingerprint of slot k's key. -/
def State.fpOf (s : State) (c : Nat) : Nat := match s.slot c with | some k => k.fp | none => 0

/-- A transmit SA starts on slot k (R320): next PN, reservation record, TX_WAIT. -/
def State.startTxSa (s : State) (a k : Nat) (who : Waiter) : State × Bool :=
  match s.ctx a with
  | none => (s, true)
  | some c =>
    let fp := s.fpOf (slotOf a k)
    let next := s.firstPn a fp c
    let s := s.setCtx a (some { c with txSlot := k, txNext := next, txMark := next, txWait := true, exhausted := false
                                       softSeen := false, stalled := false, markAsked := true, cap := none, held := false })
    let s := s.convey 0x07 (beBytes 2 a ++ beBytes 1 4 ++ beBytes 1 k ++ zeroBytes 4)
    s.storePn a { s.pnRec a with txFp := fp, txSlot := k == 1, txMark := next + 2 ^ s.reserveExp } who

/-- R335: the other slot may take over transmission. -/
def State.rotatable (s : State) (a : Nat) (c : Ctx) : Bool :=
  c.kind == 1 && s.slotUsable (slotOf a (1 - c.txSlot)) && c.an0 != c.an1 && c.rotating.isNone

/-- ROTATE is prepared: the record of the new SA is stored; until the switch the old SA transmits. -/
def State.prepareRotate (s : State) (a : Nat) (who : Waiter) : State × Bool :=
  match s.ctx a with
  | none => (s, true)
  | some c =>
    let k := 1 - c.txSlot
    let fp := s.fpOf (slotOf a k)
    let next := s.firstPn a fp c
    let s := s.setCtx a (some { c with rotating := some (k, false) })
    let (s, ok) := s.storePn a { s.pnRec a with txFp := fp, txSlot := k == 1, txMark := next + 2 ^ s.reserveExp } who
    (if ok then s else s.modCtx a (fun c => { c with rotating := none }), ok)

/-- OLD_HOLD_LEFT starts when TX_SLOT and RX_PRIMARY name the same slot (R337). -/
def State.startHold (s : State) (a : Nat) : State :=
  s.modCtx a (fun c => if c.txSlot = c.rxPrimary ∧ c.oldHoldMs ≠ 0 then { c with holdLeft := s.now + c.oldHoldMs * 1000000 } else c)

/-- ROTATE_COMMIT (R335): transmission switches to the prepared slot. -/
def State.commitRotate (s : State) (a : Nat) : State :=
  match s.ctx a with
  | none => s
  | some c =>
    match c.rotating with
    | none => s
    | some (k, _) =>
      let mark := s.pnRec a |>.txMark
      let next := mark - 2 ^ s.reserveExp
      let c := ({ c with txSlot := k, rotating := none, txNext := next, txMark := mark, exhausted := false, softSeen := false
                         stalled := false, markAsked := false }).bump 11 1
      let s := (s.setCtx a (some c)).startHold a
      let s := s.convey 0x07 (beBytes 2 a ++ beBytes 1 1 ++ beBytes 1 k ++ zeroBytes 4)
      s.noteFor Ev.rotated c.owner (beBytes 2 a ++ beBytes 1 k)

/-- ROTATION_REQUEST (R336), with automatic rotation if enabled. -/
def State.askRotation (s : State) (a : Nat) : State :=
  match s.ctx a with
  | none => s
  | some c =>
    let s := s.noteFor Ev.rotationRequest c.owner (beBytes 2 a)
    if c.autoRotate && s.rotatable a c && !s.isFollower then (s.prepareRotate a .nobody).1 else s

/-- Usage rises by a number of blocks; soft and hard limits are reported once (R389, R390). -/
def State.addUsage (s : State) (c n : Nat) : State :=
  match s.slot c with
  | none => s
  | some k =>
    let u := satAdd (2 ^ 64 - 1) k.usage n
    let soft := atLimit (softLimit (attrLimit k.attr)) u && !k.softSeen
    let hard := atLimit (hardLimit (attrLimit k.attr)) u && !k.hardSeen
    let s := s.setSlot c (some { k with usage := u, softSeen := k.softSeen || soft, hardSeen := k.hardSeen || hard })
    let s := if soft then (if c < vaultBase then s.askRotation (c / 2)
               else s.noteFor Ev.kvtUsageSoft (s.slotOwner c) (beBytes 4 (slotWord c))) else s
    if hard then s.noteFor Ev.kvtUsageHard (s.slotOwner c) (beBytes 4 (slotWord c)) else s

/-- The mark is near: a new transmit mark is stored (R318). While a rotation is prepared the record belongs to it. -/
def State.askMark (s : State) (a : Nat) : State :=
  match s.ctx a with
  | none => s
  | some c =>
    if c.markAsked ∨ c.rotating.isSome ∨ c.txNext + 2 ^ (s.reserveExp - 1) < c.txMark then s
    else
      let s := s.setCtx a (some { c with markAsked := true })
      let (s, ok) := s.storePn a { s.pnRec a with txMark := c.txMark + 2 ^ s.reserveExp } .nobody
      if ok then s else s.modCtx a (fun c => { c with markAsked := false })

/-- The PN of a picked frame (R316): TX_NEXT_PN, which then increments; marks and the soft limit follow. -/
def State.takePn (s : State) (a : Nat) : Nat × State :=
  match s.ctx a with
  | none => (0, s)
  | some c =>
    let soft := decide (c.txPnSoft ≤ c.txNext + 1) && !c.softSeen
    let s := s.setCtx a (some { c with txNext := c.txNext + 1, softSeen := c.softSeen || soft })
    let s := s.askMark a
    (c.txNext, if soft then s.askRotation a else s)

/-! ## Receive security associations (R321, R324, R325, R337) -/

/-- Number of winnow bits held, and the state with every bit set. -/
def winnowBits : Nat := 16384
def allSeen : Nat := 2 ^ 16384 - 1

/-- Highest accepted PN and role of slot k. -/
def Ctx.high (c : Ctx) (k : Nat) : Nat := if k = 0 then c.rxHigh0 else c.rxHigh1
def Ctx.fresh (c : Ctx) (k : Nat) : Bool := if k = 0 then c.fresh0 else c.fresh1
def Ctx.dead (c : Ctx) (k : Nat) : Bool := if k = 0 then c.dead0 else c.dead1
def Ctx.setHigh (c : Ctx) (k v : Nat) : Ctx := if k = 0 then { c with rxHigh0 := v } else { c with rxHigh1 := v }
def Ctx.setFresh (c : Ctx) (k : Nat) (v : Bool) : Ctx := if k = 0 then { c with fresh0 := v } else { c with fresh1 := v }
def Ctx.setDead (c : Ctx) (k : Nat) (v : Bool) : Ctx := if k = 0 then { c with dead0 := v } else { c with dead1 := v }

/-- w of R324, and the limit of slot k's SA (R321). -/
def Ctx.window (c : Ctx) (k : Nat) : Nat := if c.rxPrimary = k then c.winnow else 64
def State.rxLimit (s : State) (c : Ctx) (k : Nat) : Nat :=
  if c.rxPrimary = k then c.rxMark else if c.fresh k then c.startPn - 1 + 2 ^ s.reserveExp else c.rxOldMark

/-- seen(s, p) for p ≤ highest within the window. -/
def Ctx.seenBit (c : Ctx) (k p : Nat) : Bool :=
  if c.high k < p then false
  else if c.rxPrimary = k then c.seen.testBit (p % winnowBits)
  else c.smallMap.testBit (c.high k - p)

/-- The PN is late: behind the window, or seen (R324). -/
def Ctx.late (c : Ctx) (k p : Nat) : Bool := decide (p + c.window k ≤ c.high k) || c.seenBit k p

/-- A number with the n bits from bit a on cleared, wrapping at the number of winnow bits. -/
def clearBits (m a n : Nat) : Nat :=
  if winnowBits ≤ n then 0
  else
    let one := fun (m lo k : Nat) => m - (m &&& ((2 ^ k - 1) * 2 ^ lo))
    if a + n ≤ winnowBits then one m a n else one (one m a (winnowBits - a)) 0 (a + n - winnowBits)

/-- Bit p of the winnow state set, the highest raised (R324, R325, R326). -/
def Ctx.accept (c : Ctx) (k p : Nat) : Ctx :=
  let h := c.high k
  if c.rxPrimary = k then
    let m := if h < p then clearBits c.seen ((h + 1) % winnowBits) (p - h - 1) else c.seen
    { c.setHigh k (if h < p then p else h) with seen := m ||| 2 ^ (p % winnowBits) }
  else
    let m := if h < p then c.smallMap * 2 ^ (p - h) % 2 ^ 64 else c.smallMap
    let h' := if h < p then p else h
    { c.setHigh k h' with smallMap := m ||| 2 ^ (h' - p) }

/-- The receive mark is near: RX_MARK + 2^E is stored (R321). -/
def State.askRxMark (s : State) (a : Nat) : State :=
  match s.ctx a with
  | none => s
  | some c =>
    if c.rxAsked ∨ c.high c.rxPrimary + 2 ^ (s.reserveExp - 1) < c.rxMark then s
    else
      let s := s.setCtx a (some { c with rxAsked := true })
      let (s, ok) := s.storePn a { s.pnRec a with rxMark := c.rxMark + 2 ^ s.reserveExp } .nobody
      if ok then s else s.modCtx a (fun c => { c with rxAsked := false })

/-- The highest 64 bits of the primary's winnow state as SMALL_MAP. -/
def Ctx.smallOf (c : Ctx) (k : Nat) : Nat :=
  ((List.range 64).map (fun i => if i ≤ c.high k ∧ c.seen.testBit ((c.high k - i) % winnowBits) then 2 ^ i else 0)).sum

/-- RX_PRIMARY_SWITCH (R337): the fresh slot k becomes the receive primary. -/
def State.primarySwitch (s : State) (a k : Nat) : State :=
  match s.ctx a with
  | none => s
  | some c =>
    let old := c.rxPrimary
    let mark := c.startPn - 1 + 2 ^ s.reserveExp
    let c' := { c.setFresh k false with
      rxPrimary := k, smallMap := c.smallOf old, rxOldMark := c.rxMark, rxMark := mark, seen := allSeen, rxAsked := false }
    let s := s.setCtx a (some c')
    let (s, _) := s.storePn a { s.pnRec a with rxFp := s.fpOf (slotOf a k), rxSlot := k == 1, otherFresh := false, rxMark := mark } .nobody
    let s := s.convey 0x07 (beBytes 2 a ++ beBytes 1 2 ++ beBytes 1 k ++ zeroBytes 4)
    (s.startHold a).noteFor Ev.rxPrimarySwitch c.owner (beBytes 2 a ++ beBytes 1 k)

/-- A receive slot starts (R321): its highest, winnow bits and role; the record of the primary or of the fresh slot. -/
def State.startRxSa (s : State) (a k : Nat) (who : Waiter) : State × Bool :=
  match s.ctx a with
  | none => (s, true)
  | some c =>
    let fp := s.fpOf (slotOf a k)
    let r := s.pnRec a
    if c.rxPrimary = k then
      if r.rxFp = fp then
        let h := max (c.startPn - 1) r.rxMark
        let c := { (c.setHigh k h).setDead k false with seen := allSeen, rxMark := max c.rxMark r.rxMark }
        ((s.setCtx a (some c)).askRxMark a, true)
      else
        let m := c.startPn - 1 + 2 ^ s.reserveExp
        let c := { (c.setHigh k (c.startPn - 1)).setDead k false with seen := allSeen, rxMark := c.startPn - 1, rxAsked := true }
        (s.setCtx a (some c)).storePn a { r with rxFp := fp, rxSlot := k == 1, rxMark := m } who
    else
      let c := { ((c.setHigh k (c.startPn - 1)).setFresh k true).setDead k false with smallMap := 2 ^ 64 - 1, holdLeft := 0 }
      (s.setCtx a (some c)).storePn a { r with otherFresh := true } who

/-! ## A reservation record becomes durable -/

/-- The prepared rotation's record is this one (R335). -/
def State.rotationRecord (s : State) (a : Nat) (c : Ctx) (r : PnRec) : Bool :=
  match c.rotating with
  | some (k, false) => r.txSlot == (k == 1) && r.txFp == s.fpOf (slotOf a k)
  | _ => false

/-- The transmit mark of a record applies: TX_WAIT ends, or the prepared rotation may commit, at once if no frame waits. On a
follower TX_WAIT ends with the lead's ASC_EVENT alone (R339). -/
def State.txDurable (s : State) (a : Nat) (r : PnRec) : State :=
  match s.ctx a with
  | none => s
  | some c =>
    if s.rotationRecord a c r then
      let s := s.setCtx a (some { c with rotating := some (1 - c.txSlot, true) })
      if SMap.get noQueue s.sch.queues a = [] then s.commitRotate a else s
    else if r.txSlot = (c.txSlot == 1) then
      let s := s.setCtx a (some { c with txMark := r.txMark, txWait := c.txWait && s.isFollower, markAsked := false, stalled := false })
      if c.txWait then s.convey 0x07 (beBytes 2 a ++ beBytes 1 5 ++ beBytes 1 c.txSlot ++ zeroBytes 4) else s
    else s

/-- The receive mark of a record applies. -/
def State.rxDurable (s : State) (a : Nat) (r : PnRec) : State :=
  s.modCtx a (fun c => if r.rxSlot = (c.rxPrimary == 1) then { c with rxMark := max c.rxMark r.rxMark, rxAsked := false, rxStalled := false } else c)

/-- A mark waits still for the twin (R438). -/
def State.markWaits (s : State) (kind a m : Nat) : Bool :=
  s.twinAcks && s.yok.marks.any (fun w => w.kind == kind && w.assoc == a && w.mark == m && !w.acked)

/-- Marks that are durable on both twins are done; a follower answers each with ACK_MARK (R438). -/
def State.dropMarks (s : State) : State :=
  let ready := fun (w : MarkWait) => w.stored && w.acked
  let s := (s.yok.marks.filter ready).foldl (fun (s : State) (w : MarkWait) =>
    s.report 0x20 (beBytes 1 w.kind ++ beBytes 1 0 ++ beBytes 2 w.assoc ++ beBytes 8 w.mark)) s
  { s with yok := { s.yok with marks := s.yok.marks.filter (fun w => !ready w) } }

/-- A reservation record is durable on this module: the marks that the twin has confirmed too take effect. -/
def State.pnDurable (s : State) (a : Nat) (r : PnRec) : State :=
  let stored := fun (w : MarkWait) =>
    if w.assoc = a ∧ ((w.kind = 1 ∧ w.mark ≤ r.txMark) ∨ (w.kind = 2 ∧ w.mark ≤ r.rxMark)) then { w with stored := true } else w
  let s := { s with yok := { s.yok with marks := s.yok.marks.map stored } }
  let s := { s with mram := { s.mram with pn := SMap.set noneOf s.mram.pn a (some r) } }
  let s := if s.markWaits 1 a r.txMark then s else s.txDurable a r
  (if s.markWaits 2 a r.rxMark then s else s.rxDurable a r).dropMarks

/-! ## Work items (R358) -/

/-- Serving pairs of a role (R345). -/
def State.serving (s : State) (role : Nat) : List Nat :=
  (List.range 72).filter (fun p => match s.cph.pairs.getD p CPair.reset with | x => x.st == 1 && x.role == role && s.islandUp (9 + p / 18))

/-- Items that a pair holds snapshots for, at most 16. -/
def State.pairLoad (s : State) (p : Nat) : Nat :=
  (s.cph.items.filter (fun e => match e.2 with | some i => i.pairs.contains p | none => false)).length

/-- The lowest-numbered serving pair of a role that can accept an item. -/
def State.freePair (s : State) (role : Nat) : Option Nat := (s.serving role).find? (fun p => decide (s.pairLoad p < 16))

/-- A work item starts: snapshots, in-flight counts, Active, usage (R358, R389, R391). The keys are those of the slots as it
starts (R359). -/
def State.startItem (s : State) (kind : ItemKind) (slots : List Nat) (blocks : Nat) (pairs : List Nat) : Nat × State :=
  let id := s.cph.nextItem
  let s := slots.foldl State.stageSlot s
  let keys := slots.map (s.keySnapshot (pairs.headD 0))
  let s := { s with cph := { s.cph with
    items := SMap.set noneOf s.cph.items id (some ⟨kind, slots, keys, pairs⟩), nextItem := id + 1 } }
  let s := slots.foldl (fun s c =>
    ((s.modSlot c (fun k => { k with inflight := k.inflight + 1, st := if k.st = .loaded then .active else k.st })).inc
      (Reg.kvtCountLo 4)).addUsage c blocks) s
  (id, s)

/-- Item id. -/
def State.item (s : State) (id : Nat) : Option Item := SMap.get noneOf s.cph.items id

/-- An item ends: its snapshot is cleared and the slots' in-flight counts fall by 1. -/
def State.endItem (s : State) (id : Nat) : State :=
  match s.item id with
  | none => s
  | some i =>
    let s := { s with cph := { s.cph with items := SMap.set noneOf s.cph.items id none } }
    i.slots.foldl (fun s c => s.modSlot c (fun k => { k with inflight := k.inflight - 1 })) s

/-- The pairs that 10 k tenths of a row's work from place o on take, at 32.8 rows to a pair (R357, R364). -/
def pairSpan (ps : List Nat) (o k : Nat) : List Nat :=
  (List.range ((o + 10 * k + 327) / 328 - o / 328)).filterMap (fun i => ps[o / 328 + i]?)

/-- Cloaked tributaries, in ascending id with their rows, are assigned in order to pairs from place o on; one that the rest
cannot serve gets none (R357). -/
def assignPairs (ps : List Nat) (o : Nat) : List (Nat × Nat) → List (Nat × List Nat)
  | [] => []
  | (t, k) :: rest =>
    if o + 10 * k ≤ 328 * ps.length then (t, pairSpan ps o k) :: assignPairs ps (o + 10 * k) rest
    else (t, []) :: assignPairs ps o rest

/-- AES blocks of a frame of secure length L (R365): the text blocks and the tag mask. -/
def frameBlocks (len : Nat) : Nat := (len - 16 + 15) / 16 + 1

end Sys2Proof.Machine
end

