-- ==== Sys2Proof/Machine/Macsec.lean ====
section
/-! DEFINITION. Frames as the Association Engine builds and takes them apart (R311, R312, R313, R323, R362, R363), and
PTP event messages (R315, R471, R472, R474). -/

namespace Sys2Proof.Machine

open Sys2Proof

/-- A frame with a new FCS. -/
def withFcs (body : List Byte) : List Byte := body ++ fcsOf body

/-- A frame without its FCS. -/
def noFcs (f : List Byte) : List Byte := f.take (f.length - 4)

/-- A frame whose FCS is inverted (R22). -/
def stompFcs (f : List Byte) : List Byte := noFcs f ++ (f.drop (f.length - 4)).map (fun b => ~~~ b)

/-- A frame whose data underruns after n bytes (R159): LEN is completed with 0x00, and the last 4 bytes are the ones' complement of
the correct FCS. -/
def underrun (f : List Byte) (n : Nat) : List Byte :=
  let body := noFcs f
  stompFcs (withFcs (body.take n ++ zeroBytes (body.length - n)))

/-! ## The SecTAG -/

/-- The IV of IEEE 802.1AE: SCI and PN, or (SSCI ‖ PN) XOR salt (R311). -/
def gcmIv (xpn : Bool) (sci ssci salt : List Byte) (pn : Nat) : List Byte :=
  if xpn then xorBytes (slice ssci 0 4 ++ beBytes 8 pn) (slice salt 0 12) else slice sci 0 8 ++ beBytes 4 pn

/-- The SecTAG of a transmitted frame (R312). -/
def Ctx.secTag (c : Ctx) (k pn secLen : Nat) : List Byte :=
  beBytes 2 0x88E5 ++
  beBytes 1 (flag c.es * 64 + flag c.sc * 32 + flag c.conf * 12 + c.an k) ++
  beBytes 1 (if secLen < 48 then secLen else 0) ++ beBytes 4 (pn % 2 ^ 32) ++
  (if c.sc then slice c.txSci 0 8 else [])

/-- The salt of slot k. -/
def Ctx.salt (c : Ctx) (k : Nat) : List Byte := if k = 0 then c.salt0 else c.salt1

/-- A protected frame (R312, R362): DA and SA, clear tags, SecTAG, secure data, ICV, FCS. -/
def Ctx.protect (c : Ctx) (key : List Byte) (tags k pn : Nat) (frame : List Byte) : List Byte :=
  let f := noFcs frame
  let cl := 4 * min c.clearTags tags
  let secure := f.drop (12 + cl)
  let tag := c.secTag k pn secure.length
  let off := if secure.length < c.confOffset ∨ c.conf = false then secure.length else c.confOffset
  let aad := f.take 12 ++ tag ++ secure.take off
  let (ct, icv) := Config.gcmSeal key (gcmIv c.xpn c.txSci c.txSsci (c.salt k) pn) aad (secure.drop off)
  withFcs (f.take 12 ++ (f.drop 12).take cl ++ tag ++ secure.take off ++ ct ++ icv)

/-- The parts of a received SecTAG. -/
structure RxTag where
  an : Nat
  sl : Nat
  pn : Nat
  sci : List Byte
  conf : Bool
  /-- Offset of the secure data. -/
  at_ : Nat
  deriving DecidableEq, Repr

/-- The SecTAG after a number of clear tags. -/
def parseTag (tags : Nat) (f : List Byte) : RxTag :=
  let o := 12 + 4 * tags
  let tci := (f.getD (o + 2) 0).toNat
  let sc := tci / 32 % 2 == 1
  ⟨tci % 4, (f.getD (o + 3) 0).toNat, be32 f (o + 4), if sc then slice f (o + 8) 8 else slice f 6 6 ++ beBytes 2 1,
    tci / 4 % 2 == 1, o + (if sc then 16 else 8)⟩

/-- A tag that is accepted (R311): V and SCB are 0, E equals C, SL is below 48, and the ICV and FCS fit. -/
def tagValid (tags : Nat) (f : List Byte) : Bool :=
  let o := 12 + 4 * tags
  let tci := (f.getD (o + 2) 0).toNat
  let t := parseTag tags f
  tci / 128 % 2 == 0 && tci / 16 % 2 == 0 && tci / 8 % 2 == tci / 4 % 2 && decide (t.sl < 48) &&
  decide (t.at_ + t.sl + 20 ≤ f.length)

/-- The upper bits of an extended PN, recovered from the lowest acceptable PN (R323). -/
def recoverPn (lowest pn32 : Nat) : Nat :=
  let hi := lowest / 2 ^ 32
  (if 2 ^ 31 ≤ lowest % 2 ^ 32 ∧ pn32 < 2 ^ 31 then hi + 1 else hi) * 2 ^ 32 + pn32

/-- The recovered client frame and whether its ICV verifies (R313, R363): clear tags go back after the SA. -/
def Ctx.unprotect (c : Ctx) (key : List Byte) (tags k pn : Nat) (frame : List Byte) : List Byte × Bool :=
  let f := noFcs frame
  let t := parseTag tags f
  let cl := 4 * tags
  let n := if t.sl = 0 then f.length - t.at_ - 16 else t.sl
  let secure := slice f t.at_ n
  let icv := slice f (t.at_ + n) 16
  let off := if n < c.confOffset ∨ t.conf = false then n else c.confOffset
  let aad := f.take 12 ++ (f.drop (12 + cl)).take (t.at_ - 12 - cl) ++ secure.take off
  let iv := gcmIv c.xpn t.sci c.rxSsci (c.salt k) pn
  match Config.gcmOpen key iv aad (secure.drop off) icv with
  | some p => (withFcs (f.take 12 ++ (f.drop 12).take cl ++ secure.take off ++ p), true)
  | none => (withFcs (f.take 12 ++ (f.drop 12).take cl ++ secure.take off ++
      Config.ctr key (iv ++ beBytes 4 2) (secure.drop off)), false)

/-! ## PTP -/

/-- Offset of a PTP version 2 header behind up to two VLAN tags (R471). -/
def State.ptpAt (s : State) (f : List Byte) : Option Nat :=
  let o := 12 + 4 * s.vlanTags f
  if be16 f o = 0x88F7 ∧ (f.getD (o + 3) 0).toNat % 16 = 2 then some (o + 2) else none

/-- The frame is of EtherType 0x88F7. -/
def State.isPtp (s : State) (f : List Byte) : Bool := be16 f (12 + 4 * s.vlanTags f) == 0x88F7

/-- The time of a block on channel c in units of 2^-32 ns, by the map of the block's own sheaf (R429, R466). -/
def State.mapTime (s : State) (c b : Nat) : Option Nat :=
  ((s.chan c).maps.find? (fun m => m.1 == b / 20500)).map (fun m => m.2.1 + b % 20500 * m.2.2)

/-- Residence of a frame since its arrival on channel c in units of 2^-16 ns (R472): in the Yoke modes from its nominal arrival, both
instants converted by the block maps, so that both twins write the same bytes (R473). -/
def State.residence (s : State) (c : Nat) (f : Frame) : Option Int :=
  let b := s.blockNo
  match (if s.ctl.mode.isYoke then s.mapTime c b else none), s.mapTime c (b - (s.now - f.arrival) * 25 / 8) with
  | some t1, some t0 => some (((t1 : Int) - (t0 : Int)) / 65536)
  | _, _ => f.tcAt.map (fun t0 => ((s.chanValue c : Nat) - (t0 : Int)) / 2 ^ 24)

/-- A number as a signed 64-bit field, clamped at the top (R472). -/
def signed64 (n : Nat) : Int := if n % 2 ^ 64 < 2 ^ 63 then (n % 2 ^ 64 : Nat) else (n % 2 ^ 64 : Nat) - 2 ^ 64
def top64 (i : Int) : Nat := if 2 ^ 63 ≤ i then 2 ^ 63 - 1 else (i % 2 ^ 64).toNat

/-- Bytes of a frame replaced from an offset. -/
def patch (f : List Byte) (o : Nat) (b : List Byte) : List Byte := f.take o ++ b ++ f.drop (o + b.length)

/-- A frame whose correctionField at header offset o rises by d units of 2^-16 ns, with a new FCS. -/
def addCorrection (f : List Byte) (o : Nat) (d : Int) : List Byte :=
  withFcs (noFcs (patch f (o + 8) (beBytes 8 (top64 (signed64 (ofBe (slice f (o + 8) 8)) + d)))))

/-- The transparent clock (R472): the frame with its residence time on TC_CHANNEL added, for Sync, Delay_Req, Pdelay_Req and
Pdelay_Resp; none while TC_EN is 0 or the channel does not run. -/
def State.transparent (s : State) (f : Frame) : Option (List Byte) :=
  match s.ptpAt f.bytes with
  | none => none
  | some o =>
    let c := s.fld Reg.timCfg 23 20
    if s.flg Reg.timCfg 30 ∧ (s.chan c).st ≠ .stopped ∧ (f.bytes.getD o 0).toNat % 16 ≤ 3 then
      (s.residence c f).map (fun r => addCorrection f.bytes o r)
    else none

/-- One-step timestamping of an injected event message (R474): originTimestamp and the fraction in correctionField. -/
def State.oneStep (s : State) (f : List Byte) : List Byte :=
  match s.ptpAt f with
  | none => f
  | some o =>
    let v := s.chanValue (s.fld Reg.timCfg 23 20)
    let ns := nsOf v
    let f := patch f (o + 34) (beBytes 6 (ns / 1000000000) ++ beBytes 4 (ns % 1000000000))
    addCorrection f o ((v % 2 ^ 40 / 2 ^ 24 : Nat) : Int)

end Sys2Proof.Machine
end

