-- ==== Sys2Proof/Machine/SchOps.lean ====
section
/-! DEFINITION. The Scheduler's shared operations (chapter 08): outputs and their capacity (R244, R245), cells and spill
(R246 to R250), queues and counted lengths (R252, R253, R258), buckets (R257 to R260), gates (R264 to R268), launch times
(R269, R270) and deficit weighted round robin (R254). -/

namespace Sys2Proof.Machine

open Sys2Proof

/-! ## Outputs and inputs -/

/-- Counter c of the Scheduler rises by n. -/
def State.schCount (s : State) (c n : Nat) : State := s.incBy (Reg.schCountLo c) n

/-- Rate in Gb/s of a CROSSBAR entry (R131). -/
def State.entryGbs (s : State) (e : Nat) : Nat :=
  let x := s.xbar e
  (lanesOfMask x.mask).length * (match x.rate with | 0 => 200 | 1 => 100 | _ => 50)

/-- Received rows of tributary t. -/
def State.rxTribRows (s : State) (t : Nat) : Nat :=
  ((List.range 16).map (fun g => if s.isGlafold g then
    ((s.groupRows g).filter (fun i =>
      let e := s.rcmEntry (s.gpages g).rxActive g i
      entryUsed e && entryTrib e == t)).length else 0)).sum

/-- Rows of tributary t in the active transmit page. -/
def State.txTribRows (s : State) (t : Nat) : Nat :=
  match s.groupOfTrib t with | some g => s.tribRows g t | none => 0

/-- Capacity of an output in bytes per 6.56 µs (R245): 820 B for each Gb/s, or 5,120k − 20 item bytes; 0 where the output
does not exist (R244). -/
def State.capacity (s : State) (o : Nat) : Nat :=
  if o < 16 then (if s.portKind o = 0 then 0 else s.entryGbs o * 820)
  else if o < 32 then (if s.groupKind (o - 16) = 1 then s.entryGbs o * 820 else 0)
  else s.txTribRows (o - 32) * 5120 - 20

/-- Rate of an input in the same unit. -/
def State.inputRate (s : State) (i : Nat) : Nat :=
  if i < 32 then s.entryGbs i * 820 else s.rxTribRows (i - 32) * 5120 - 20

/-- Owner of an input: 544 is host injection. -/
def State.inputOwner (s : State) (i : Nat) : Nat := if i < 544 then s.outOwner i else 0

/-! ## Cells (R246 to R250) -/

/-- Cells of a number of bytes. -/
def cellsOf (n : Nat) : Nat := (n + 255) / 256

/-- On-die cells of a direction (R69). -/
def State.poolSize (s : State) (enc : Bool) : Nat :=
  match s.boot.image with | some im => if enc then im.cellsEnc else im.cellsDec | none => 0

/-- Cells in use and reserved in a direction. -/
def State.usedCells (s : State) (enc : Bool) : Nat := if enc then s.sch.usedEnc else s.sch.usedDec
def State.resCells (s : State) (enc : Bool) : Nat := if enc then s.sch.resEnc else s.sch.resDec

/-- Free on-die cells of a direction, after reservations. -/
def State.freeCells (s : State) (enc : Bool) : Nat := s.poolSize enc - (s.usedCells enc + s.resCells enc)

/-- Cells that the reservations of a direction need beyond its on-die pool. -/
def State.overCells (s : State) (enc : Bool) : Nat := s.usedCells enc + s.resCells enc - s.poolSize enc

/-- Spill cells of the image: 4,096 for each MiB of PURPOSE 2. -/
def State.spillSize (s : State) : Nat :=
  match s.boot.image with
  | some im => ((im.regions.filter (fun r => r.purpose == 2)).map (fun r => r.sizeMib * 4096)).sum
  | none => 0

/-- Spill cells that no frame holds and no reservation needs. -/
def State.spillRoom (s : State) : Nat := s.spillSize - (s.sch.spillUsed + s.overCells true + s.overCells false)

/-- Spill cells that frames may still draw. -/
def State.freeSpill (s : State) : Nat := if s.flg Reg.schSpillCfg 31 then s.spillRoom else 0

/-- Cells used and reserved in a direction change. -/
def State.addCells (s : State) (enc : Bool) (used reserved : Int) : State :=
  let f := fun (x : Nat) (d : Int) => ((x : Int) + d).toNat
  if enc then { s with sch := { s.sch with usedEnc := f s.sch.usedEnc used, resEnc := f s.sch.resEnc reserved } }
  else { s with sch := { s.sch with usedDec := f s.sch.usedDec used, resDec := f s.sch.resDec reserved } }

/-- Spill starts below ON_KCELLS and stops above OFF_KCELLS (R250). -/
def State.spillCheck (s : State) (enc : Bool) : State :=
  let on := s.fld Reg.schSpillCfg 25 16
  let off := s.fld Reg.schSpillCfg 9 0
  let off := if off ≤ on then on + 1 else off
  let active := if enc then s.sch.spillEnc else s.sch.spillDec
  let free := s.freeCells enc
  let put := fun (s : State) (b : Bool) =>
    if enc then { s with sch := { s.sch with spillEnc := b } } else { s with sch := { s.sch with spillDec := b } }
  let dir := beBytes 1 (if enc then 0 else 1)
  if active then
    if s.flg Reg.schSpillCfg 31 = false ∨ off * 1024 < free then (put s false).note Ev.spillStop dir else s
  else if s.flg Reg.schSpillCfg 31 ∧ free < on * 1024 ∧ 0 < s.spillSize then (put s true).note Ev.spillStart dir
  else s

/-! ## Queues -/

/-- The key of class queue q's direct FIFO. -/
def directKey (q : Nat) : Nat := 65536 + q

/-- The queue a frame enters (R253). -/
def Frame.key (f : Frame) : Nat := if f.direct then directKey (8 * f.output + f.cls) else f.assoc

def State.queue (s : State) (k : Nat) : List QEntry := SMap.get noQueue s.sch.queues k
def State.setQueue (s : State) (k : Nat) (l : List QEntry) : State :=
  { s with sch := { s.sch with queues := SMap.set noQueue s.sch.queues k l } }

/-- Depth of a queue in cells: each copy counts its full cell count (R248). -/
def State.depth (s : State) (k : Nat) : Nat :=
  ((s.queue k).map (fun e => match s.frame? e.frame with | some f => cellsOf f.bytes.length | none => 0)).sum

/-- The class queue of which association queue a is a child: its context's attachment; frames of a deleted association
stay where they were queued. -/
def State.attachedTo (s : State) (a : Nat) : Nat :=
  match s.ctx a with
  | some c => 8 * c.encOut + c.encClass
  | none =>
    match (s.queue a).head?.bind (fun e => s.frame? e.frame) with
    | some f => 8 * f.output + f.cls
    | none => 0

/-- Non-empty children of class queue q: association queues, then the direct FIFO. -/
def State.children (s : State) (q : Nat) : List Nat :=
  (s.sch.queues.filterMap (fun e => if e.1 < 65536 ∧ s.attachedTo e.1 = q then some e.1 else none)) ++
  (if s.queue (directKey q) = [] then [] else [directKey q])

/-- TABLE 0 and TABLE 1 words of an association. -/
def State.aqWords (s : State) (a : Nat) : TblWords := SMap.get aqDefault s.sch.aq a
def State.polWords (s : State) (a : Nat) : TblWords := SMap.get polDefault s.sch.pol a

/-- LIMIT of a queue in cells, 0 for none; SPILL_OK of a queue. -/
def State.queueLimit (s : State) (k : Nat) : Nat :=
  16 * (if k < 65536 then bits (s.aqWords k).w0 15 0 else s.fld (Reg.schCqLimit (k - 65536)) 15 0)
def State.spillOk (s : State) (k : Nat) : Bool :=
  if k < 65536 then bit (s.aqWords k).w0 30 else s.flg (Reg.schCqCfg (k - 65536)) 30

/-- A frame leaves without SecTAG and ICV: injected, or PTP of an association with TIMING_BYPASS (R315, R523). -/
def State.bare (s : State) (f : Frame) (a : Nat) : Bool :=
  !f.encrypt || f.inject.isSome || (match s.ctx a with | some c => c.timingBypass && s.isPtp f.bytes | none => false)

/-- A frame's length as it leaves (R312). -/
def State.leaveLen (s : State) (f : Frame) (a : Nat) : Nat :=
  if s.bare f a then f.bytes.length
  else match s.ctx a with | some c => f.bytes.length + (if c.sc then 32 else 24) | none => f.bytes.length

/-- OVERHEAD, −32 to +127 (R258). -/
def State.overhead (s : State) (o : Nat) : Int :=
  let v := s.fld (Reg.schOutCfg o) 23 16
  let i : Int := if v < 128 then v else (v : Int) - 256
  if i < -32 then -32 else i

/-- Counted length on an output (R258). -/
def State.counted (s : State) (o len : Nat) : Nat :=
  let n : Int := (if o < 32 then (len : Int) else (4 + (len + 3) / 4 * 4 : Nat)) + s.overhead o
  if n < 1 then 1 else n.toNat

/-! ## Buckets (R257 to R261) -/

/-- What a bucket has gained since it was last set, in 10^-9 of 2^-16 B: RATE_KBPS × 125 B/s. -/
def State.gained (s : State) (rate : Nat) (b : Bucket) : Nat := rate * 125 * 65536 * (s.now - b.at_) + b.part

/-- How far a bucket stands below BURST_B now, in units of 2^-16 B. -/
def State.below (s : State) (k rate : Nat) : Nat :=
  match SMap.get noneOf s.sch.buckets k with
  | none => 0
  | some b => b.below - s.gained rate b / 1000000000

/-- What a bucket that is not full has gained beyond whole units of 2^-16 B: kept, so that no interval loses it (R259). -/
def State.gainPart (s : State) (k rate : Nat) : Nat :=
  match SMap.get noneOf s.sch.buckets k with
  | none => 0
  | some b => if b.below * 1000000000 ≤ s.gained rate b then 0 else s.gained rate b % 1000000000

/-- The bucket is set to stand below its burst by n, with the fraction p of a unit gained. -/
def State.setBelow (s : State) (k n p : Nat) : State :=
  { s with sch := { s.sch with buckets := SMap.set noneOf s.sch.buckets k (if n = 0 then none else some ⟨n, s.now, p⟩) } }

/-- SHAPE_EN, RATE_KBPS, BURST_B of a bucket key. -/
def State.shaper (s : State) (k : Nat) : Bool × Nat × Nat :=
  if k < 65536 then let w := s.aqWords k; (bit w.w0 31, w.w1.toNat, bits w.w2 23 0)
  else if k < 200000 then
    let q := k - 65536
    (s.flg (Reg.schCqCfg q) 31, (s.rd (Reg.schCqRate q)).toNat, s.fld (Reg.schCqBurst q) 23 0)
  else if k < 300000 then
    let o := k - 200000
    (s.flg (Reg.schOutCfg o) 31, (s.rd (Reg.schOutRate o)).toNat, s.fld (Reg.schOutBurst o) 23 0)
  else let w := s.polWords (k - 300000); (bit w.w0 31, w.w1.toNat, bits w.w0 23 0)

/-- A bucket holds tokens ≥ 0, or does not run. -/
def State.tokens (s : State) (k : Nat) : Bool :=
  let (on, rate, burst) := s.shaper k
  !on || decide (s.below k rate ≤ burst * 65536)

/-- A running bucket loses n bytes; it may go negative. -/
def State.charge (s : State) (k n : Nat) : State :=
  let (on, rate, _) := s.shaper k
  if on then s.setBelow k (s.below k rate + n * 65536) (s.gainPart k rate) else s

/-- RATE_KBPS or BURST_B of a bucket changes: what it has gained so far is kept, and it is cut to a smaller BURST_B
(R259, R261); a bucket that did not run starts full. act writes the new values. -/
def State.reshape (s : State) (k : Nat) (act : State → State) : State :=
  let (on, rate, burst) := s.shaper k
  let b := s.below k rate
  let p := s.gainPart k rate
  let s := act s
  let (_, _, burst') := s.shaper k
  s.setBelow k (if on then burst' * 65536 + b - burst * 65536 else 0) p

/-! ## Gates (R264 to R268) -/

/-- The gates of an output. -/
def GateSt.idle : GateSt := ⟨0, 0, 0, 0, 0, 0, 0, false, none, false⟩
def State.gate (s : State) (o : Nat) : GateSt := (SMap.get noneOf s.sch.gates o).getD GateSt.idle
def State.setGate (s : State) (o : Nat) (g : GateSt) : State :=
  { s with sch := { s.sch with gates := SMap.set noneOf s.sch.gates o (if g = GateSt.idle then none else some g) } }

/-- CHANNEL of an output's gates: a carry clock (R458); its present time in ns. -/
def State.gateChannel (s : State) (o : Nat) : Nat :=
  let c := s.fld (Reg.schGateCfg o) 27 24
  if c < 12 then c else 0

/-- The block map of channel c that holds for the present sheaf: the map fixed for it (R263, R429, R466), on a follower without one
the newest map that it has, which it extends (R429). -/
def State.blockMap (s : State) (c : Nat) : Option (Nat × Nat × Nat) :=
  match (s.chan c).maps.find? (fun m => m.1 == s.line.sheaf) with
  | some m => some m
  | none => if s.isFollower then (s.chan c).maps.head? else none

/-- The time of channel c at the present block in 2^-32 ns: by its block map, else as the channel reads. -/
def State.blockFine (s : State) (c : Nat) : Nat :=
  if (s.chan c).st = .stopped then 0
  else match s.blockMap c with
    | some (n, t, r) => t + (s.blockNo - 20500 * n) * r
    | none => s.chanValue c / 256

/-- ns of channel c per block, in 2^-32 ns: the map's RATE, else that of an exact oscillator (R466). -/
def State.blockRate (s : State) (c : Nat) : Nat := match s.blockMap c with | some (_, _, r) => r | none => 1374389535

/-- The time of channel c at the present block in ns. -/
def State.blockTime (s : State) (c : Nat) : Nat := s.blockFine c / 2 ^ 32

/-- The present time of an output's gates. -/
def State.gateNow (s : State) (o : Nat) : Nat := s.blockTime (s.gateChannel o)

/-- Entry e of list l of an output. -/
def State.gateEntry (s : State) (o l e : Nat) : Nat × Nat := SMap.get gateTblDefault s.sch.gateTbl (o * 2048 + l * 1024 + e)

/-- The entries of a list that run in one cycle: GATES and the time each lasts (R264). -/
def gateSpans (entry : Nat → Nat × Nat) (len cycle : Nat) : List (Nat × Nat) :=
  ((List.range len).foldl (fun (a : List (Nat × Nat) × Nat) e =>
    let (g, i) := entry e
    let left := cycle - a.2
    let n := if e + 1 = len then left else min i left
    (if n = 0 then a.1 else a.1 ++ [(g, n)], a.2 + n)) ([], 0)).1

/-- Spans of the list in force. -/
def State.spans (s : State) (o : Nat) : List (Nat × Nat) :=
  let g := s.gate o
  gateSpans (s.gateEntry o g.active) g.len g.cycle

/-- The gates in force: the active entry's, FAIL_MASK while no list runs. -/
def State.gatesNow (s : State) (o : Nat) : Nat :=
  let g := s.gate o
  if g.running then ((s.spans o).getD g.entry (0, 0)).1 else s.fld (Reg.schGateCfg o) 23 16

/-- ns from the start of a list of spans during which class c stays open; the flag tells that it closes within them. -/
def openFor (c : Nat) : List (Nat × Nat) → Nat × Bool
  | [] => (0, false)
  | (g, n) :: rest =>
    if g.testBit c then let (t, b) := openFor c rest; (n + t, b) else (0, true)

/-- The channel time in ns at which gate c next closes: none if it never does. A pending change whose entry 0 closes the gate is a
closing (R266). -/
def State.closesAt (s : State) (o c : Nat) : Option Nat :=
  let g := s.gate o
  let own := if g.running then
      let sp := s.spans o
      let (n, b) := openFor c ((sp.drop (g.entry + 1) ++ sp))
      if !(sp.getD g.entry (0, 0)).1.testBit c then some g.endsAt else if b then some (g.endsAt + n) else none
    else none
  match g.pending with
  | some (tc, _, _, _) =>
    if (s.gateEntry o (1 - g.active) 0).1.testBit c then own
    else some (match own with | some n => min n tc | none => tc)
  | none => own

/-- A frame's duration in blocks, rounded up (R266). -/
def durationBlocks (counted capacity : Nat) : Nat := if capacity = 0 then 0 else (counted * 20500 + capacity - 1) / capacity

/-- A frame of d blocks that starts at the present block has left by the block of a channel instant in ns: the smallest block whose
mapped time reaches it (R263, R266). -/
def State.leavesBy (s : State) (c d instant : Nat) : Bool :=
  decide (s.blockFine c + (d - 1) * s.blockRate c < instant * 2 ^ 32)

/-- Gate c permits a frame of a counted length now: it is open and stays open until the last byte has left (R266). -/
def State.gatePermits (s : State) (o c counted : Nat) : Bool :=
  (s.gatesNow o).testBit c &&
  (match s.closesAt o c with
   | some t => s.leavesBy (s.gateChannel o) (durationBlocks counted (s.capacity o)) t
   | none => true)

/-- The longest open interval of class c in the list in force, in ns; none when the gate never closes. -/
def State.longestOpen (s : State) (o c : Nat) : Option Nat :=
  let sp := s.spans o
  if sp.all (fun x => x.1.testBit c) then none
  else some ((((sp ++ sp).foldl (fun (a : Nat × Nat) x =>
    if x.1.testBit c then (a.1 + x.2, max a.2 (a.1 + x.2)) else (0, a.2)) (0, 0))).2)

/-- A frame is longer than every open interval of its class (R267). -/
def State.oversize (s : State) (o c counted : Nat) : Bool :=
  (s.gate o).running &&
  (match s.longestOpen o c with
   | some n => decide (n * 100 < durationBlocks counted (s.capacity o) * 32)
   | none => false)

/-- The position that a list's cycles give for a channel time (R264, R268). -/
def State.placeGate (s : State) (o : Nat) : State :=
  let g := s.gate o
  let t := s.gateNow o
  let off := (((t : Int) - g.base) % g.cycle).toNat
  let (e, ends) := (s.spans o).foldl (fun (a : Nat × Nat) x => if a.2 ≤ off then (a.1 + 1, a.2 + x.2) else a) (0, 0)
  s.setGate o { g with entry := e - 1, cycleAt := t - off, endsAt := t - off + ends, running := true }

/-- The list of an output may run: ENABLE, a list, a running channel. -/
def State.gateMay (s : State) (o : Nat) : Bool :=
  s.flg (Reg.schGateCfg o) 31 && decide (0 < (s.gate o).len) && (s.chan (s.gateChannel o)).st != .stopped

/-- A list that may run and does not resumes; one that may not ceases (R268). -/
def State.gateResume (s : State) (o : Nat) : State :=
  if s.gateMay o then (if (s.gate o).running then s else s.placeGate o)
  else if (s.gate o).running then s.setGate o { s.gate o with running := false } else s

/-- The outputs with gate state. -/
def State.gatedOutputs (s : State) : List Nat := s.sch.gates.map (·.1)

/-- A channel stops or steps by more than 1 µs: GATE_TIME_LOST, and FAIL_MASK until the list resumes (R268). -/
def State.gatesLost (s : State) (ch : Nat) : State :=
  s.gatedOutputs.foldl (fun s o =>
    if (s.gate o).running && s.gateChannel o == ch then
      (s.setGate o { s.gate o with running := false }).noteFor Ev.gateTimeLost (s.outOwner o) (beBytes 2 o)
    else s) s

/-- A channel runs again: its lists resume. -/
def State.gatesResume (s : State) (ch : Nat) : State :=
  s.gatedOutputs.foldl (fun s o => if s.gateChannel o = ch then s.gateResume o else s) s

/-! ## Launch times (R269, R270) -/

/-- LAUNCH of class queue q. -/
def State.isLaunch (s : State) (q : Nat) : Bool := s.flg (Reg.schCqCfg q) 29

/-- The release instant L of a queued frame in ns of the output's CHANNEL, modulo 2^32: an injected frame carries it (R269). -/
def State.launchAt (s : State) (q : Nat) (e : QEntry) (f : Frame) : Nat :=
  match f.launch with
  | some x => x % 2 ^ 32
  | none => (e.arrival + s.fld (Reg.schCqLaunch q) 23 0) % 2 ^ 32

/-- (L − t) mod 2^32, t the present time of the output's channel: below 2^31 while L lies ahead (R270). -/
def State.launchIn (s : State) (q : Nat) (e : QEntry) (f : Frame) : Nat :=
  (s.launchAt q e f + 2 ^ 32 - s.gateNow (q / 8) % 2 ^ 32) % 2 ^ 32

/-- The release instant is reached. -/
def State.launched (s : State) (q : Nat) (e : QEntry) (f : Frame) : Bool :=
  !s.isLaunch q || s.launchIn q e f == 0 || decide (2 ^ 31 ≤ s.launchIn q e f)

/-- The late limit is passed (R270). -/
def State.tooLate (s : State) (q : Nat) (e : QEntry) (f : Frame) : Bool :=
  let lim := if s.fld (Reg.schCqLaunch q) 31 24 = 0 then 1 else s.fld (Reg.schCqLaunch q) 31 24
  s.isLaunch q && decide (2 ^ 31 ≤ s.launchIn q e f) && decide (lim * 100 < 2 ^ 32 - s.launchIn q e f)

/-! ## Deficit weighted round robin (R254) -/

/-- A child that may be picked from: its key, its quantum, its head's counted length. -/
structure Child where
  key : Nat
  quantum : Nat
  len : Nat
  deriving DecidableEq, Repr

/-- One visit to each child in turn: a quantum is added, and the first whose deficit covers its head is taken. -/
def dwrrVisit (d : SMap Nat) : List Child → SMap Nat × Option Child
  | [] => (d, none)
  | c :: cs =>
    let v := SMap.get zeroOf d c.key + c.quantum
    let d := SMap.set zeroOf d c.key v
    if c.len ≤ v then (d, some c) else dwrrVisit d cs

/-- Rounds of visits until a child is taken. -/
def dwrrRounds (d : SMap Nat) (cs : List Child) : Nat → SMap Nat × Option Child
  | 0 => (d, none)
  | n + 1 =>
    match dwrrVisit d cs with
    | (d, some c) => (d, some c)
    | (d, none) => dwrrRounds d cs n

/-- One choice: the child whose turn it is goes on while its deficit covers its head; then the visits go on after it. The
longest counted length, 9,380 B, needs at most 37 quanta of 256 B. -/
def dwrr (d : SMap Nat) (turn : Option Nat) (cs : List Child) : SMap Nat × Option Child :=
  match turn with
  | none => dwrrRounds d cs 40
  | some t =>
    match cs.find? (fun c => c.key == t) with
    | some c =>
      if c.len ≤ SMap.get zeroOf d t then (d, some c)
      else dwrrRounds d (cs.filter (fun x => t < x.key) ++ cs.filter (fun x => x.key ≤ t)) 40
    | none => dwrrRounds d (cs.filter (fun x => t < x.key) ++ cs.filter (fun x => x.key ≤ t)) 40

/-- WEIGHT of a child: of the class's direct FIFO, or of the association queue; 0 acts as 1. -/
def State.childWeight (s : State) (q k : Nat) : Nat :=
  max 1 (if k < 65536 then bits (s.aqWords k).w0 25 16 else s.fld (Reg.schCqCfg q) 9 0)

/-! ## Dropping and freeing -/

/-- A queue entry no longer refers to its frame; the last one frees cells and reservation (R248). Of a frame dropped before it is
whole, the rest is still received: its policers lose its length at its last cell (R260). -/
def State.dropRef (s : State) (id : Nat) : State :=
  match s.frame? id with
  | none => s
  | some f =>
    if 1 < f.refs then s.setFrame id (some { f with refs := f.refs - 1 })
    else
      let s := s.setFrame id (if f.whole then none else some { f with refs := 0, reserved := 0 })
      let s := { s with sch := { s.sch with spillUsed := s.sch.spillUsed - f.spilled } }
      (s.addCells f.encrypt (-((f.cells - f.spilled : Nat) : Int)) (-(f.reserved : Int))).spillCheck f.encrypt

/-- The class queue that a queue is a child of. -/
def State.classQueueOf (s : State) (k : Nat) : Nat := if k < 65536 then s.attachedTo k else k - 65536

/-- The deficit of a key is set to 0 if a condition holds. -/
def State.zeroDeficit (s : State) (k : Nat) (b : Bool) : State :=
  if b then { s with sch := { s.sch with deficit := SMap.set zeroOf s.sch.deficit k 0 } } else s

/-- The first entry of a queue goes; a child that becomes empty has its deficit set to 0, and so has a class (R254). -/
def State.popQueue (s : State) (k : Nat) : State :=
  let q := s.classQueueOf k
  let s := s.setQueue k ((s.queue k).drop 1)
  (s.zeroDeficit k (s.queue k == [])).zeroDeficit (200000 + q) (s.children q == [])

/-- The completion of an injected frame (R523): no record for other frames. -/
def State.injectDone (s : State) (f : Frame) (status stamp : Nat) : State :=
  match f.inject with
  | some i => s.complete i.allot i.tag status 0xFF 0 stamp i.idx 9
  | none => s

/-- What points 2 to 6 and 11 see of a frame. -/
def State.sight (s : State) (f : Frame) (a key : Nat) : Sight :=
  ⟨some a, s.assocOwner a, f.output, f.cls, f.bytes.length, s.depth key⟩

/-- The head of a queue is dropped: point 4 gives its record, its cells go. -/
def State.dropHead (s : State) (k : Nat) (injStatus : Nat) : State :=
  match s.queue k with
  | [] => s
  | e :: _ =>
    match s.frame? e.frame with
    | none => s.popQueue k
    | some f =>
      let s := s.observe 4 f.tag (s.sight f e.assoc k) true false
      ((s.popQueue k).injectDone f injStatus 0).dropRef e.frame

/-- An injected frame of n that no output is sending leaves its queue and completes with NOT_STARTED. -/
def State.dropInjected (s : State) (n : Nat) : State :=
  let mine := fun (f : Frame) => match f.inject with | some i => i.allot == n | none => false
  let busy := fun (id : Nat) => s.sch.sending.any (fun e => match e.2 with | some x => x.entry.frame == id | none => false)
  let s := (s.sch.arrivals.filter mine).foldl (fun (s : State) f => s.injectDone f 10 0) s
  let s := { s with sch := { s.sch with arrivals := s.sch.arrivals.filter (fun f => !mine f) } }
  s.sch.frames.foldl (fun (s : State) e => match e.2 with
    | some f =>
      if mine f && !busy e.1 then
        ((s.setQueue f.key ((s.queue f.key).filter (fun q => q.frame != e.1))).injectDone f 10 0).dropRef e.1
      else s
    | none => s) s

/-- The host link goes down (R530): injected frames that no output is sending go too, and no record tells of them. -/
def State.linkDown (s : State) : State :=
  if s.hif.linkUp then (List.range 64).foldl State.dropInjected s.linkLost else s

/-! ## Output digests (R441, R442) -/

/-- CRC-64 of R441. -/
def crc64 (b : List Byte) : Nat := crcMsb 64 0x42F0E1EBA9EA3693 (2 ^ 64 - 1) b ^^^ (2 ^ 64 - 1)

/-- A contribution to digest entry e of the present interval. -/
def State.digest (s : State) (e : Nat) (b : List Byte) : State :=
  if s.ctl.mode.isYoke then
    let c := s.yok.cur
    let d := SMap.set zeroOf c.digest e (SMap.get zeroOf c.digest e ^^^ crc64 b)
    { s with yok := { s.yok with cur := { c with digest := d } } }
  else s

/-- Entry e of the present interval is excused. -/
def State.excuse (s : State) (e : Nat) : State :=
  if s.ctl.mode.isYoke ∧ s.yok.cur.excused.contains e = false then
    { s with yok := { s.yok with cur := { s.yok.cur with excused := e :: s.yok.cur.excused } } }
  else s

end Sys2Proof.Machine
end

