-- ==== Sys2Proof/Machine/Guard.lean ====
section
/-! DEFINITION. The Memory Guard (chapter 09): domains and queues, protected lines with their counters, tags and page
records, reads, writes, page refresh, tag failures, re-till, harrow, allotment windows, memory verdicts of spilled frames. -/

namespace Sys2Proof.Machine

open Sys2Proof

/-- Counter c of the Memory Guard. -/
def State.mgdCount (s : State) (c n : Nat) : State := s.incBy (Reg.mgdCountLo c) n

/-! ## Domains (R278 to R280, R285) -/

/-- One MiB. -/
def mib : Nat := 1048576

/-- The image's regions in order. -/
def State.regions (s : State) : List HbmRegion := match s.boot.image with | some im => im.regions | none => []

/-- The variant is Expanse. -/
def State.expanse (s : State) : Bool := match s.boot.image with | some im => im.expanse | none => false

/-- Protected offset of the start of region r (R278). -/
def State.protStart (s : State) (r : Nat) : Nat := (((s.regions.take r).map (·.sizeMib)).sum) * mib

/-- A span of HBM: address, size, protected offset of its start, memory key index, and its domain: a region's number, or
100 + n for allotment window n. -/
structure Domain where
  base : Nat
  size : Nat
  prot : Nat
  key : Nat
  id : Nat
  deriving DecidableEq, Repr

/-- Region r as a domain. -/
def State.regionDomain (s : State) (r : Nat) : Option Domain :=
  (s.regions[r]?).map (fun x => ⟨x.base, x.sizeMib * mib, s.protStart r, x.keyIdx, r⟩)

/-- Numbers of the regions of a purpose, in list order. -/
def State.regionsOf (s : State) (purpose : Nat) : List Nat :=
  (List.range s.regions.length).filter (fun r => match s.regions[r]? with | some x => x.purpose == purpose | none => false)

/-- The domain that queue q reaches (R279). -/
def State.queueDomain (s : State) (q : Nat) : Option Domain :=
  if q < 64 then
    match (s.regionsOf 3).head?.bind s.regionDomain with
    | some d =>
      let w := s.rd (Reg.mgdAllotWin q)
      let off := bits w 31 16 * 2 * mib
      if bits w 15 0 = 0 then none
      else some ⟨d.base + off, bits w 15 0 * 2 * mib, d.prot + off, s.fld (Reg.mgdQueueCfg q) 21 16, 100 + q⟩
    | none => none
  else if q = 64 then (s.regionsOf 0).head?.bind s.regionDomain
  else if q = 65 then (s.regionsOf 1).head?.bind s.regionDomain
  else ((s.regionsOf 2)[q - 66]?).bind s.regionDomain

/-- Every domain in queue order. -/
def State.domains (s : State) : List Domain := (List.range 80).filterMap s.queueDomain

/-- Guard area size and parts (R285): GB, RB, TB. -/
def State.guardMib (s : State) : Nat := if s.expanse then 5300 else 1060
def State.guardGb (s : State) : Nat := (49152 - s.guardMib) * mib
def State.guardRb (s : State) : Nat := s.guardGb + (if s.expanse then 40960 else 8192) * mib / 8
def State.guardTb (s : State) : Nat := s.guardRb + (if s.expanse then 40960 else 8192) * mib / 256

/-! ## Lines, counters, tags (R282 to R287) -/

/-- A line never written since start-up: zeros, MINOR 0. -/
def GLine.zero : GLine := ⟨zeroBytes 64, 0, false⟩

/-- The line at protected line number l; MAJOR of a page; root counters of a record line. -/
def State.gline (s : State) (l : Nat) : GLine := (SMap.get noneOf s.mgd.lines l).getD GLine.zero
def State.major (s : State) (pg : Nat) : Nat := SMap.get zeroOf s.mgd.majors pg
def State.rootW (s : State) (r : Nat) : Nat := SMap.get zeroOf s.mgd.rootMajor (r / 64) * 256 + SMap.get zeroOf s.mgd.rootMinor r

def State.setLine (s : State) (l : Nat) (x : GLine) : State :=
  { s with mgd := { s.mgd with lines := SMap.set noneOf s.mgd.lines l (if x = GLine.zero then none else some x) } }
def State.setMajor (s : State) (pg v : Nat) : State :=
  { s with mgd := { s.mgd with majors := SMap.set zeroOf s.mgd.majors pg v } }

/-- W and the tweak of a line at HBM address A (R282). -/
def State.lineW (s : State) (l : Nat) : Nat := s.major (l / 64) * 256 + (s.gline l).minor
def tweakOf (a w : Nat) : List Byte := beBytes 8 (a / 64) ++ beBytes 8 w

/-- The tag of a line under a tag key, and the poison tag (R283, R284). -/
def lineTag (k : List Byte) (ct tweak : List Byte) : List Byte :=
  (xorBytes (Config.ghash (Config.aes k (zeroBytes 16)) (ct ++ zeroBytes 8 ++ beBytes 8 512)) (Config.aes k tweak)).take 7
def poisonTag (k tweak : List Byte) : List Byte := (Config.aes k (xorBytes tweak (0x80#8 :: zeroBytes 15))).take 7

/-- SEAL of page pg at HBM page address a (R286). -/
def State.sealOf (s : State) (kg : List Byte) (a pg : Nat) : List Byte :=
  ((List.range 64).foldl (fun acc i =>
    xorBytes acc (Config.aes kg (beBytes 1 1 ++ beBytes 5 (a / 4096) ++ beBytes 1 i ++ beBytes 1 (s.gline (64 * pg + i)).minor ++
      beBytes 8 (s.major pg)))) (zeroBytes 16)).take 8

/-- The key set of a key index. -/
def State.keySet (s : State) (k : Nat) : KeySet := (s.mgd.keys.getD k none).getD ⟨[], [], []⟩

/-- Number of a page among the pages of a list of domains. -/
def pageRank (d : Domain) (pg : Nat) (ds : List Domain) : Nat :=
  ((ds.takeWhile (fun x => x.id != d.id)).map (fun x => x.size / 4096)).sum + (pg - d.prot / 4096)

/-- The key set of a line: below the sweep pointer of a re-till of its key index, the fresh one (R297). -/
def State.lineKeys (s : State) (d : Domain) (l : Nat) : KeySet :=
  match s.mgd.retill with
  | some r => if r.idx = d.key ∧ pageRank d (l / 64) (s.domains.filter (fun x => x.key == d.key)) < r.swept then r.fresh else s.keySet d.key
  | none => s.keySet d.key

/-- The page record of page pg (R286). -/
def State.pageRecord (s : State) (a pg : Nat) : List Byte := beBytes 8 (s.major pg) ++ s.sealOf (s.mgd.kg.getD []) a pg

/-- Pseudo-channel index of an HBM byte address: bits [13:8] XOR bits [19:14] (R276). -/
def hbmChannel (a : Nat) : Nat := (a / 256 % 64) ^^^ (a / 16384 % 64)

/-- A transfer to HBM, on the stack that bit 5 of the index selects and the pseudo-channel of its bits [4:0] (R276). -/
def State.toHbm (s : State) (a : Nat) (bs : List Byte) : State := s.emit (.hbm (hbmChannel a / 32) (hbmChannel a % 32) a bs)

/-- The line, its metadata word, its page record and the record-tag word are written to HBM (R282 to R287). -/
def State.emitLine (s : State) (d : Domain) (l : Nat) : State :=
  let a := d.base + (64 * l - d.prot)
  let k := s.lineKeys d l
  let x := s.gline l
  let tw := tweakOf a (s.lineW l)
  let ct := Config.xtsEnc (k.k1 ++ k.k2) tw x.data
  let tag := if x.poison then poisonTag k.k3 tw else lineTag k.k3 ct tw
  let r := l / 256
  let kg := s.mgd.kg.getD []
  let ra := s.guardRb + 64 * r
  let rl := [0, 1, 2, 3].flatMap (fun i => s.pageRecord (d.base + (4096 * (4 * r + i) - d.prot)) (4 * r + i))
  let s := (s.toHbm a ct).toHbm (s.guardGb + 8 * l) (beBytes 1 x.minor ++ tag)
  let s := s.toHbm ra rl
  s.toHbm (s.guardTb + 8 * r) (beBytes 1 (s.rootW r % 256) ++ lineTag kg rl (tweakOf ra (s.rootW r)))

/-- The record line of a page advances its own counter (R287). -/
def State.bumpRoot (s : State) (r : Nat) : State :=
  let m := SMap.get zeroOf s.mgd.rootMinor r
  if m < 255 then { s with mgd := { s.mgd with rootMinor := SMap.set zeroOf s.mgd.rootMinor r (m + 1) } }
  else
    let j := r / 64
    { s with mgd := { s.mgd with
        rootMajor := SMap.set zeroOf s.mgd.rootMajor j (SMap.get zeroOf s.mgd.rootMajor j + 1)
        rootMinor := SMap.dropRange s.mgd.rootMinor (64 * j) (64 * j + 64) } }

/-! ## Failures (R277, R288, R289) -/

/-- MGD_FAIL_ADDR and MGD_FAIL_INFO take the most recent failure. -/
def State.failInfo (s : State) (a queue kind : Nat) : State :=
  ((s.wr Reg.mgdFailAddrLo (BitVec.ofNat 32 a)).wr Reg.mgdFailAddrHi (BitVec.ofNat 32 (a / 2 ^ 32))).wr Reg.mgdFailInfo
    (BitVec.ofNat 32 (queue * 65536 + kind * 256 + 1))

/-- The n lines from lo on carry the poison tag (R284). -/
def State.poisonLines (s : State) (d : Domain) (lo n : Nat) : State :=
  let s := (List.range n).foldl (fun s i => s.setLine (lo + i) { s.gline (lo + i) with poison := true }) s
  (List.range n).foldl (fun (s : State) i => s.emitLine d (lo + i)) s

/-- A transfer's parity failed four times (R277): HBM_LINK_FAIL. -/
def State.linkFailed (s : State) (a queue : Nat) : State :=
  ((s.mgdCount 7 3).failInfo a queue 4).note Ev.hbmLinkFail (beBytes 8 a)

/-- The highest MAJOR in use in a domain. -/
def State.highMajor (s : State) (d : Domain) : Nat :=
  (s.mgd.majors.filter (fun e => decide (d.prot ≤ e.1 * 4096) && decide (e.1 * 4096 < d.prot + d.size))).foldl
    (fun a e => max a e.2) 0

/-- The four pages of a record line are refounded (R288). -/
def State.refound (s : State) (d : Domain) (r : Nat) : State :=
  let m := s.highMajor d + 1
  let s := [0, 1, 2, 3].foldl (fun s i => s.setMajor (4 * r + i) m) s
  let s := ((List.range 256).foldl (fun s i => s.setLine (256 * r + i) { s.gline (256 * r + i) with minor := 0 }) s).bumpRoot r
  s.poisonLines d (256 * r) 256

/-- A TAG_FAIL of a kind: counted, recorded, answered (R288, R289). -/
def State.tagFailure (s : State) (d : Domain) (l queue kind : Nat) : State :=
  let a := d.base + (64 * l - d.prot)
  let s := (s.mgdCount 4 1).failInfo a queue kind
  let s := match kind with
    | 0 => s.poisonLines d l 1
    | 1 => s.poisonLines d (l / 64 * 64) 64
    | _ => s.refound d (l / 256)
  let s := s.note Ev.tagFail (beBytes 1 kind ++ beBytes 8 a)
  let lim := max 1 (s.fld Reg.mgdTagCfg 15 8)
  let s := { s with mgd := { s.mgd with burst := s.mgd.burst + 1 } }
  if s.mgd.burst = lim then s.raise Ev.mgdTagBurst else s

/-- A read that ends with status POISON is counted. -/
def State.poisoned (s : State) : State × Nat := (s.mgdCount 5 1, 1)

/-- Reads of record and metadata lines that the on-die cache does not hold (R288): which lines it holds is not stated, so their number,
at most two for a line, is free. -/
def State.cacheLook (s : State) (l : Nat) : State := s.mgdCount 13 (Config.cacheMisses (s.count (Reg.mgdCountLo 0)) l % 3)

/-- What a line's read shows is counted and answered; the status is 0 OK, 1 POISON, 2 ERROR (R277, R288, R290). -/
def State.verify (s : State) (d : Domain) (l queue : Nat) (x : MemOutcome) : State × Nat :=
  let a := d.base + (64 * l - d.prot)
  let s := s.cacheLook l
  let ok := fun (s : State) => if (s.gline l).poison then s.poisoned else (s, 0)
  match x with
  | .good => ok s
  | .corrected =>
    let w := s.mgd.rewrite
    ok (({ s with mgd := { s.mgd with rewrite := if w.contains l then w else w ++ [l] } }).mgdCount 8 1)
  | .retried n => ok (s.mgdCount 7 n.val)
  | .lineTag => (s.tagFailure d l queue 0).poisoned
  | .pageSeal => (s.tagFailure d l queue 1).poisoned
  | .recordTag => (s.tagFailure d l queue 2).poisoned
  | .uncorrected => ((((s.mgdCount 9 1).failInfo a queue 3).poisonLines d l 1).note Ev.hbmUncorr (beBytes 8 a)).poisoned
  | .linkFail => (s.linkFailed a queue, 2)

/-! ## The sweep of a re-till (R297) -/

/-- Every domain of a memory key index, in queue order. -/
def State.keyDomains (s : State) (key : Nat) : List Domain := s.domains.filter (fun d => d.key == key)

/-- Pages of a list of domains. -/
def pagesOf (ds : List Domain) : Nat := (ds.map (fun d => d.size / 4096)).sum

/-- Pages [lo, hi) of protected memory are written anew under MAJOR 0 and MINOR 0 with their contents kept; poison stays (R297). -/
def State.restartPages (s : State) (lo hi : Nat) : State :=
  let inside := s.mgd.lines.filter (fun e => decide (64 * lo ≤ e.1) && decide (e.1 < 64 * hi))
  let s := { s with mgd := { s.mgd with majors := SMap.dropRange s.mgd.majors lo hi } }
  inside.foldl (fun s e => s.setLine e.1 { s.gline e.1 with minor := 0 }) s

/-- The pages from number n to m, counted through a list of domains, are written anew. -/
def State.restartSpan (s : State) (n m : Nat) : List Domain → State
  | [] => s
  | d :: ds =>
    let k := d.size / 4096
    let p := d.prot / 4096
    State.restartSpan (s.restartPages (p + min n k) (p + min m k)) (n - k) (m - k) ds

/-- The sweep goes on to page m of its domains, page by page. -/
def State.sweepTo (s : State) (r : Retill) (m : Nat) : State :=
  let s := s.restartSpan r.swept m (s.keyDomains r.idx)
  { s with mgd := { s.mgd with retill := some { r with swept := m } } }

/-- PERCENT of a re-till (MGD_RETILL_STATUS). -/
def State.retillPercent (s : State) (r : Retill) : Nat :=
  let n := pagesOf (s.keyDomains r.idx)
  if n = 0 then 0 else r.swept * 100 / n

/-- How far a re-till has swept when a request arrives is free. -/
def State.retillSweep (s : State) : State :=
  match s.mgd.retill with
  | none => s
  | some r =>
    let (k, s) := s.draw
    s.sweepTo r (r.swept + Config.freeNat k % (pagesOf (s.keyDomains r.idx) - r.swept + 1))

/-! ## Requests (R279 to R281, R290, R294 to R296) -/

/-- A request that does not reach the lines: island down (NOT_STARTED), no keys (R300), outside the queue's domain (R279),
window re-initialising (R280). -/
def State.mgdGate (s : State) (q addr : Nat) : State × Option Domain :=
  let refuse := fun (s : State) (st : Nat) => (s.emit (.memAnswer q addr st []), none)
  if s.islandUp 13 = false ∨ s.islandUp 16 = false then refuse s 4
  else if s.mgd.initDone = false then refuse s 2
  else
    let s := s.retillSweep
    match s.queueDomain q with
    | some d =>
      if d.base ≤ addr ∧ addr < d.base + d.size then
        if s.mgd.winInit.contains q then refuse s 3 else (s, some d)
      else refuse ((s.mgdCount 14 1).note Ev.mgdRangeRefused (beBytes 1 q ++ beBytes 8 addr)) 2
    | none => refuse ((s.mgdCount 14 1).note Ev.mgdRangeRefused (beBytes 1 q ++ beBytes 8 addr)) 2

/-- Protected line number of an address of a domain. -/
def Domain.line (d : Domain) (addr : Nat) : Nat := (d.prot + (addr - d.base)) / 64

/-- A poisoned context or winnow read sets POISONED and raises CTX_POISON (R307). -/
def State.ctxPoison (s : State) (a : Nat) : State :=
  match s.ctx a with
  | none => s
  | some c => if c.poisoned then s
      else (s.setCtx a (some { c with poisoned := true })).noteFor Ev.ctxPoison c.owner (beBytes 2 a)

/-- MGD_READ (R290 to R292, R281, R307): queue q reads the line at addr. In Expanse a spill queue gets the line as soon as it is read;
its verdict is SPILL_LINE_VERDICT. -/
def execMgdRead (queue : Fin 80) (addr : Nat) (seen : MemOutcome) (s : State) : Host.Outcome State Fault Refusal :=
  let q := queue.val
  match s.mgdGate q addr with
  | (s, none) => .next s
  | (s, some d) =>
    let l := d.line addr
    if s.expanse ∧ 66 ≤ q ∧ seen ≠ .linkFail then .next (s.emit (.memAnswer q addr 0 (s.gline l).data))
    else
      let (s, st) := (s.mgdCount 0 1).verify d l q seen
      let s := if st = 0 then s
        else if q = 64 then s.ctxPoison ((addr - d.base) / 512)
        else if q = 65 then s.ctxPoison ((addr - d.base) / 2048) else s
      .next (s.emit (.memAnswer q addr st (if st = 0 then (s.gline l).data else [])))

/-- A page's MAJOR reaches 2^56 − 2^20: RETILL_DUE, with an automatic re-till (R296). -/
def State.retillDue (s : State) (key : Nat) : State :=
  if s.mgd.due.contains key then s
  else
    let s := ({ s with mgd := { s.mgd with due := key :: s.mgd.due } }).note Ev.retillDue (beBytes 1 key)
    if s.flg Reg.mgdTagCfg 0 ∧ s.mgd.retill.isNone ∧ s.ctl.degraded = false then
      let (k, s) := s.rbgTake 3
      { s with mgd := { s.mgd with retill := some ⟨key, ⟨Config.freeBytes k 32, Config.freeBytes (k + 1) 32, Config.freeBytes (k + 2) 32⟩, 0⟩ } }
    else s

/-- A page refresh that also takes a write (R295). -/
def State.refreshPage (s : State) (d : Domain) (l : Nat) (data : List Byte) : State :=
  let pg := l / 64
  let m := s.major pg + 1
  let s := (s.mgdCount 3 1).setMajor pg m
  let s := (List.range 64).foldl (fun s i => s.setLine (64 * pg + i) { s.gline (64 * pg + i) with minor := 0 }) s
  let s := (s.setLine l ⟨data, 0, false⟩).bumpRoot (l / 256)
  let s := (List.range 64).foldl (fun s i => s.emitLine d (64 * pg + i)) s
  if 2 ^ 56 - 2 ^ 20 ≤ m then s.retillDue d.key else s

/-- The write transfer of a line that failed four times (R277): its MINOR is taken (R294). Whether the line still reads as before or no
longer verifies is not stated: free. -/
def State.writeFailed (s : State) (d : Domain) (l queue : Nat) : State :=
  let (k, s) := s.draw
  let x := s.gline l
  let s := (s.setLine l { x with minor := x.minor + 1, poison := x.poison || Config.freeBool k }).bumpRoot (l / 256)
  s.linkFailed (d.base + (64 * l - d.prot)) queue

/-- A full write of a line (R294 to R296): the status is 0, or 2 when the domain's writes are refused or the transfer fails (R277);
sent is what the write transfer shows. -/
def State.writeLine (s : State) (d : Domain) (l : Nat) (data : List Byte) (sent : MemOutcome) (queue : Nat := 0xFF) : State × Nat :=
  let s := match sent with | .retried n => s.mgdCount 7 n.val | _ => s
  let x := s.gline l
  if s.mgd.refused.contains d.id then (s.mgdCount 14 1, 2)
  else if x.minor < 255 then
    if sent = .linkFail then (s.writeFailed d l queue, 2)
    else
      let s := ((s.setLine l ⟨data, x.minor + 1, false⟩).bumpRoot (l / 256)).mgdCount 1 1
      (s.emitLine d l, 0)
  else if 2 ^ 56 - 1 ≤ s.major (l / 64) then
    let s := ({ s with mgd := { s.mgd with refused := d.id :: s.mgd.refused } }).mgdCount 14 1
    (((s.beginLevel2 Ev.regionRefused.code).raise Ev.regionRefused (beBytes 1 d.id)).recheck, 2)
  else ((s.refreshPage d l data).mgdCount 1 1, 0)

/-- MGD_WRITE (R294): queue q writes bytes at addr within one line; seen is what the read of a partial write shows, sent what the write
transfer shows. -/
def execMgdWrite (queue : Fin 80) (addr : Nat) (data : List Byte) (seen sent : MemOutcome) (s : State) :
    Host.Outcome State Fault Refusal :=
  let q := queue.val
  match s.mgdGate q addr with
  | (s, none) => .next s
  | (s, some d) =>
    let l := d.line addr
    let o := addr % 64
    let answer := fun (s : State) (st : Nat) => Host.Outcome.next (s.emit (.memAnswer q addr st []))
    if o = 0 ∧ 64 ≤ data.length then
      let (s, st) := s.writeLine d l (data.take 64) sent q
      answer s st
    else
      let (s, st) := (s.mgdCount 2 1).verify d l q seen
      if st = 0 then
        let (s, st) := s.writeLine d l (patch (s.gline l).data o (data.take (64 - o))) sent q
        answer s st
      else if st = 1 then
        let s := (s.mgdCount 6 1).poisonLines d l 1
        let s := s.note Ev.mgdPoisonWrite (beBytes 1 q ++ beBytes 8 addr)
        answer (if q = 64 then s.ctxPoison ((addr - d.base) / 512) else if q = 65 then s.ctxPoison ((addr - d.base) / 2048) else s) 1
      else answer s st

/-! ## Verdicts of spilled frames in Expanse (R292) -/

/-- Spill cell c: its queue, domain and HBM address. Cells count through the PURPOSE 2 regions in list order (R279). -/
def State.spillCell (s : State) (c : Nat) : Option (Nat × Domain × Nat) :=
  (((List.range 14).map (· + 66)).foldl (fun (a : Nat × Option (Nat × Domain × Nat)) q =>
    match a.2, s.queueDomain q with
    | none, some d => if c < a.1 + d.size / 256 then (a.1, some (q, d, d.base + 256 * (c - a.1))) else (a.1 + d.size / 256, none)
    | r, _ => (a.1, r)) (0, none)).2

/-- Spill cells that frames hold. -/
def State.spillTaken (s : State) : List Nat := s.sch.frames.flatMap (fun e => match e.2 with | some f => f.spillAt | none => [])

/-- The n spill cells of lowest number that no frame holds (DESIGN CHOICE: which cells the Scheduler takes is not stated, log entry
106). -/
def State.takeSpill (s : State) (n : Nat) : List Nat :=
  let taken := s.spillTaken
  ((List.range (taken.length + n)).filter (fun c => !taken.contains c)).take n

/-- The Memory Guard takes requests: its islands run and its keys are valid (R300, R301). -/
def State.guardUp (s : State) : Bool := s.islandUp 13 && s.islandUp 16 && s.mgd.initDone

/-- A cell is written to a spill region, its four lines in full (R250, R294); the flag tells that the Memory Guard took it. -/
def State.spillWrite (s : State) (c : Nat) (bs : List Byte) : State × Bool :=
  match s.spillCell c with
  | none => (s, false)
  | some (_, d, a) =>
    if s.guardUp = false then (s, false)
    else (List.range 4).foldl (fun (x : State × Bool) i =>
      let (s, st) := x.1.writeLine d (d.line (a + 64 * i)) (slice bs (64 * i) 64) .good
      (s, x.2 && st == 0)) (s, true)

/-- A spilled cell is read: in Compact it is returned once all four lines verify, in Expanse as soon as it is read (R291, R292). seen is
what its first line shows. The flag tells that it is returned with POISON or ERROR. -/
def State.spillRead (s : State) (c : Nat) (seen : MemOutcome) : State × Bool :=
  match s.spillCell c with
  | none => (s, true)
  | some (q, d, a) =>
    if s.guardUp = false then (s, true)
    else if s.expanse then
      if seen = .linkFail then ((s.verify d (d.line a) q seen).1, true) else (s, false)
    else (List.range 4).foldl (fun (x : State × Bool) i =>
      let (s, st) := (x.1.mgdCount 0 1).verify d (d.line (a + 64 * i)) q (if i = 0 then seen else .good)
      (s, x.2 || st != 0)) (s, false)

/-- A frame is stomped late: counted, recorded at most once per second. -/
def State.lateStomp (s : State) (frame : Nat) : State :=
  let s := (s.modFrame frame (fun f => { f with lineBad := true })).mgdCount 10 1
  let due := match s.mgd.stompAt with | some t => decide (t + 1000000000 ≤ s.now) | none => true
  if due then ({ s with mgd := { s.mgd with stompAt := some s.now } }).note Ev.mgdLateStomp (beBytes 4 frame) else s

/-- The spill queue and domain of an HBM address. -/
def State.spillDomain (s : State) (addr : Nat) : Option (Nat × Domain) :=
  ((List.range 14).map (· + 66)).findSome? (fun q => (s.queueDomain q).bind (fun d =>
    if d.base ≤ addr ∧ addr < d.base + d.size then some (q, d) else none))

/-- SPILL_LINE_VERDICT (R292): the verdict of one line of a frame, at an HBM address. A good verdict of a frame whose gate
timed out counts in LATE_TIMEOUTS. -/
def execSpillLineVerdict (frame addr : Nat) (seen : MemOutcome) (s : State) : Host.Outcome State Fault Refusal :=
  match s.spillDomain addr with
  | none => .next s
  | some (q, d) =>
    let (s, st) := (s.mgdCount 0 1).verify d (d.line addr) q seen
    if s.mgd.late.contains frame then
      .next (if st = 0 then ({ s with mgd := { s.mgd with late := s.mgd.late.filter (· != frame) } }).mgdCount 11 1 else s)
    else
      match s.frame? frame with
      | none => .next s
      | some f =>
        if f.linesWait.contains (addr / 64 * 64) = false ∨ f.lineBad then .next s
        else if st = 0 then .next (s.modFrame frame (fun f => { f with linesWait := f.linesWait.filter (· != addr / 64 * 64) }))
        else .next (s.lateStomp frame)

/-- VERDICT_TIMEOUT (R292): a line of the frame has no verdict 200 ns after the held bytes are ready. -/
def execVerdictTimeout (frame : Nat) (s : State) : Host.Outcome State Fault Refusal :=
  match s.frame? frame with
  | none => .next s
  | some f =>
    match f.linesWait with
    | [] => .next s
    | a :: _ =>
      if f.lineBad then .next s
      else
        let s := { s with mgd := { s.mgd with late := frame :: s.mgd.late } }
        .next ((s.lateStomp frame).failInfo a (match s.spillDomain a with | some (q, _) => q | none => 66) 5)

/-- TAG_BURST_WINDOW_END (R289). -/
def execTagBurstWindowEnd (s : State) : Host.Outcome State Fault Refusal :=
  .next { s with mgd := { s.mgd with burst := 0 } }

/-! ## Re-till (R297) -/

/-- A re-till ends or is refused with CODE. -/
def State.retillEnd (s : State) (code : Nat) : State := s.result Reg.mgdRetillStatus code

/-- RETILL_CMD: MGD_RETILL_CMD starts a re-till of a key index. -/
def execRetillCmd (path : Path) (idx : Fin 64) (s : State) : Host.Outcome State Fault Refusal :=
  .next (s.hostWrite path Reg.mgdRetillCmd (BitVec.ofNat 32 idx.val) (fun s =>
    if s.mgd.retill.isSome then s.retillEnd 1
    else if s.mgd.initDone = false then s.retillEnd 4
    else if s.domains.any (fun d => d.key == idx.val) = false then s.retillEnd 2
    else if s.ctl.degraded then s.retillEnd 3
    else
      let (k, s) := s.rbgTake 3
      { s with mgd := { s.mgd with retill := some ⟨idx.val, ⟨Config.freeBytes k 32, Config.freeBytes (k + 1) 32, Config.freeBytes (k + 2) 32⟩, 0⟩ } }))

/-- RETILL_DONE: the sweep ends; the old generation is erased, refusal clears. -/
def execRetillDone (s : State) : Host.Outcome State Fault Refusal :=
  match s.mgd.retill with
  | none => .next s
  | some r =>
    let ds := s.keyDomains r.idx
    let s := s.sweepTo r (max r.swept (pagesOf ds))
    let s := { s with mgd := { s.mgd with
      retill := none, keys := s.mgd.keys.set r.idx (some r.fresh), due := s.mgd.due.filter (· != r.idx)
      refused := s.mgd.refused.filter (fun (i : Nat) => !ds.any (fun (d : Domain) => d.id == i)) } }
    let s := if s.mgd.refused = [] then s.endLevel2 Ev.regionRefused.code else s
    let s := s.note Ev.retillDone (beBytes 1 r.idx)
    .next ((s.retillEnd 0).recheck)

/-! ## Harrow (R298) -/

/-- The domain that holds a protected line, and the line. -/
def State.domainOfLine (s : State) (l : Nat) : Option (Domain × Nat) :=
  (s.domains.find? (fun d => decide (d.prot ≤ 64 * l) && decide (64 * l < d.prot + d.size))).map (fun d => (d, l))

/-- The first protected line that line g of the guard area speaks for: of the tag area, the record area, the record-tag area (R285). -/
def State.guardLine (s : State) (g : Nat) : Nat :=
  let tags := (s.guardRb - s.guardGb) / 64
  let recs := (s.guardTb - s.guardRb) / 64
  if g < tags then 8 * g else if g < tags + recs then 256 * (g - tags) else 2048 * (g - tags - recs)

/-- Line i of a harrow pass: the lines of every domain in queue order, then the lines of the guard area, each by a protected line that
it speaks for, if a domain holds that. -/
def State.harrowLine (s : State) (i : Nat) : Option (Domain × Nat) :=
  match (s.domains.foldl (fun (a : Nat × Option (Domain × Nat)) d =>
    let n := d.size / 64
    match a.2 with
    | some x => (a.1, some x)
    | none => if i < a.1 + n then (a.1, some (d, d.prot / 64 + (i - a.1))) else (a.1 + n, none)) (0, none)) with
  | (_, some x) => some x
  | (n, none) => s.domainOfLine (s.guardLine (i - n))

/-- Lines of one pass. -/
def State.harrowTotal (s : State) : Nat := ((s.domains.map (·.size)).sum + s.guardMib * mib) / 64

/-- The harrow's visit of a line: verified, and rewritten if its read showed corrected severity. -/
def State.harrowVisit (s : State) (d : Domain) (l : Nat) (seen : MemOutcome) : State :=
  let due := s.mgd.rewrite.contains l || decide (seen = .corrected)
  let (s, st) := s.verify d l 0xFF seen
  let s := { s with mgd := { s.mgd with rewrite := s.mgd.rewrite.filter (· != l) } }
  if due ∧ st = 0 then (s.writeLine d l (s.gline l).data .good).1 else s

/-- HARROW_STEP: the next line is read and verified; at the end of a pass HARROW_PASS is raised. -/
def execHarrowStep (seen : MemOutcome) (s : State) : Host.Outcome State Fault Refusal :=
  if s.flg Reg.mgdHarrowCfg 31 = false ∨ s.guardUp = false then .next s
  else
    let i := s.mgd.harrowAt
    let s := s.retillSweep.mgdCount 12 1
    let s := match s.harrowLine i with
      | some (d, l) => s.harrowVisit d l seen
      | none => s
    if s.harrowTotal ≤ i + 1 then
      .next (({ s with mgd := { s.mgd with harrowAt := 0, passes := satAdd 65535 s.mgd.passes 1 } }).note Ev.harrowPass)
    else .next { s with mgd := { s.mgd with harrowAt := i + 1 } }

/-! ## Allotment windows (R280) -/

/-- A window lies within the scratch region and meets no other of non-zero size. -/
def State.windowFits (s : State) (n : Nat) (w : Word) : Bool :=
  let size := match (s.regionsOf 3).head?.bind s.regionDomain with | some d => d.size / (2 * mib) | none => 0
  let lo := bits w 31 16
  let k := bits w 15 0
  s.allotExists n && decide (lo + k ≤ size) &&
  (List.range 64).all (fun m =>
    let v := s.rd (Reg.mgdAllotWin m)
    m == n || k == 0 || bits v 15 0 == 0 || decide (lo + k ≤ bits v 31 16) || decide (bits v 31 16 + bits v 15 0 ≤ lo))

/-- Window n re-initialises: its queue is BUSY until it ends. -/
def State.startWindowInit (s : State) (n : Nat) : State :=
  { s with mgd := { s.mgd with winInit := if s.mgd.winInit.contains n then s.mgd.winInit else n :: s.mgd.winInit } }

/-- What a write of MGD_ALLOT_WIN[n] or of queue n's KEY_IDX does (R280, R63). -/
def State.allotWindowEffect (s : State) (n : Nat) (keyIdx : Bool) (val : Word) : State :=
  let off := if keyIdx then Reg.mgdQueueCfg n else Reg.mgdAllotWin n
  if keyIdx then
    if s.allotExists n then (s.wr off (val &&& 0x3F0000#32)).startWindowInit n else s.note Ev.structureBound (beBytes 4 off)
  else if s.windowFits n val then (s.wr off val).startWindowInit n
  else s.note Ev.structureBound (beBytes 4 off)

/-- ALLOT_WINDOW_WRITE (R280, R63): MGD_ALLOT_WIN[n], or KEY_IDX of queue n. -/
def execAllotWindowWrite (path : Path) (allot : Fin 64) (keyIdx : Bool) (val : Word) (s : State) :
    Host.Outcome State Fault Refusal :=
  let n := allot.val
  let off := if keyIdx then Reg.mgdQueueCfg n else Reg.mgdAllotWin n
  .next (s.hostWrite path off val (fun s => s.allotWindowEffect n keyIdx val))

/-- WINDOW_INIT_DONE (R280, R299 step 3): the window holds encrypted zero lines under MAJOR 0 and MINOR 0. -/
def execWindowInitDone (allot : Fin 64) (s : State) : Host.Outcome State Fault Refusal :=
  let n := allot.val
  if s.mgd.winInit.contains n = false then .next s
  else
    let s := { s with mgd := { s.mgd with winInit := s.mgd.winInit.filter (· != n) } }
    let s := match s.queueDomain n with
      | some d =>
        let lo := d.prot / 64
        let hi := (d.prot + d.size) / 64
        { s with mgd := { s.mgd with lines := SMap.dropRange s.mgd.lines lo hi, majors := SMap.dropRange s.mgd.majors (lo / 64) (hi / 64)
                                     refused := s.mgd.refused.filter (· != 100 + n) } }
      | none => s
    .next (s.noteFor Ev.windowInitDone n (beBytes 1 n))

/-! ## Start-up (R299, R300) -/

/-- Steps 2 and 3 of R299: KG and every key set are drawn, every domain is written with zero lines. -/
def State.mgdInit (s : State) : State :=
  let (k, s) := s.rbgTake 193
  let set := fun (i : Nat) => some (KeySet.mk (Config.freeBytes (k + 1 + 3 * i) 32) (Config.freeBytes (k + 2 + 3 * i) 32) (Config.freeBytes (k + 3 + 3 * i) 32))
  { s with mgd := { s.mgd with
             initDone := true, lines := [], majors := [], rootMajor := [], rootMinor := [], keys := (List.range 64).map set
             kg := some (Config.freeBytes k 32), retill := none, due := [], refused := [], winInit := [], burst := 0
             harrowAt := 0, rewrite := [], late := [] } }

/-- The level 4 action on the Memory Guard: KG and every key set are erased (R300). -/
def State.mgdErase (s : State) : State :=
  { s with mgd := { s.mgd with initDone := false, kg := none, keys := List.replicate 64 none, retill := none } }

end Sys2Proof.Machine
end

