-- ==== Sys2Proof/Machine/CtxOps.lean ====
section
/-! DEFINITION. Contexts as bytes (R304), their cache and write-back (R306), sealed records (R401, R402), commands that wait
for stores. -/

namespace Sys2Proof.Machine

open Sys2Proof

/-! ## Contexts as bytes (R304) -/

/-- OLD_HOLD_LEFT in ms. -/
def State.holdMs (s : State) (c : Ctx) : Nat := (c.holdLeft - s.now + 999999) / 1000000

/-- Bytes 0 to 127. -/
def Ctx.head (c : Ctx) : List Byte :=
  beBytes 1 c.kind ++ beBytes 1 c.owner ++ beBytes 2 c.flags.toNat ++ beBytes 2 c.encOut ++ beBytes 1 c.encClass ++
  beBytes 1 c.decClass ++ beBytes 2 c.decOut ++ beBytes 1 c.rxDomain ++ beBytes 1 (c.an0 * 4 + c.an1) ++
  beBytes 2 c.oldHoldMs ++ beBytes 2 c.winnow ++ slice c.txSci 0 8 ++ slice c.rxSci 0 8 ++ slice c.txSsci 0 4 ++
  slice c.rxSsci 0 4 ++ slice c.salt0 0 12 ++ slice c.salt1 0 12 ++ beBytes 8 c.txPnSoft ++ beBytes 8 c.startPn ++
  beBytes 2 c.trib ++ beBytes 1 c.cloak ++ zeroBytes 45

/-- STATE of a context. -/
def State.ctxState (s : State) (c : Ctx) : Nat :=
  flag c.poisoned * 2 ^ 31 + flag c.softSeen * 2 ^ 30 + flag c.exhausted * 2 ^ 29 + c.txSlot % 2 * 2 ^ 28 +
  c.rxPrimary % 2 * 2 ^ 27 + flag c.fresh1 * 2 ^ 26 + flag c.fresh0 * 2 ^ 25 + flag c.txWait * 2 ^ 24 + s.holdMs c % 65536

/-- Bytes 128 to 383. -/
def State.ctxTail (s : State) (c : Ctx) : List Byte :=
  beBytes 8 c.txNext ++ beBytes 8 c.txMark ++ beBytes 8 c.rxHigh0 ++ beBytes 8 c.rxHigh1 ++ beBytes 8 c.rxMark ++
  beBytes 8 c.rxOldMark ++ beBytes 8 c.smallMap ++ beBytes 8 c.sheafTop ++ beBytes 8 c.sheafMap ++
  beBytes 8 (if c.flipPending then 2 ^ 63 + c.flipIndex * 2 ^ 48 + c.flipSheaf else 0) ++ beBytes 4 (s.ctxState c) ++
  zeroBytes 44 ++ (List.range 16).flatMap (fun i => beBytes 8 (c.counters.getD i 0))

/-- The 512 bytes of a context. -/
def State.ctxBytes (s : State) (c : Ctx) : List Byte := c.head ++ s.ctxTail c ++ slice c.hostData 0 128

/-- A context after CREATE (R308): bytes 0 to 127 and 384 to 511 of b, TX_SLOT and RX_PRIMARY k. START_PN 0 acts as 1. -/
def Ctx.create (b : List Byte) (k : Nat) : Ctx :=
  let n := fun o w => ofBe (slice b o w)
  let start := max 1 (n 72 8)
  { kind := n 0 1, owner := n 1 1, flags := BitVec.ofNat 32 (n 2 2), encOut := n 4 2, encClass := n 6 1, decClass := n 7 1
    decOut := n 8 2, rxDomain := n 10 1, an0 := n 11 1 / 4 % 4, an1 := n 11 1 % 4, oldHoldMs := n 12 2, winnow := n 14 2
    txSci := slice b 16 8, rxSci := slice b 24 8, txSsci := slice b 32 4, rxSsci := slice b 36 4, salt0 := slice b 40 12
    salt1 := slice b 52 12, txPnSoft := n 64 8, startPn := start, trib := n 80 2, cloak := n 82 1, txNext := start
    txMark := start, rxHigh0 := start - 1, rxHigh1 := start - 1, rxMark := start - 1, rxOldMark := start - 1
    smallMap := 2 ^ 64 - 1, sheafTop := 0, sheafMap := 0, flipPending := false, flipIndex := 0, flipSheaf := 0
    poisoned := false, softSeen := false, exhausted := false, txSlot := k, rxPrimary := k, fresh0 := false, fresh1 := false
    txWait := false, holdLeft := 0, counters := List.replicate 16 0, hostData := slice b 384 128, seen := allSeen
    dead0 := false, dead1 := false, markAsked := false, rxAsked := false, rotating := none, stalled := false, cap := none
    held := false, rxStalled := false, tagFailAt := none }

/-- Fields of CLOAK_CTRL. -/
def Ctx.cloakEnd (c : Ctx) : Bool := c.cloak.testBit 7
def Ctx.cloakTx (c : Ctx) : Bool := c.cloak.testBit 6
def Ctx.cloakRx (c : Ctx) : Bool := c.cloak.testBit 5

/-! ## Cache and write-back (R306) -/

/-- A context's 512 bytes are written to HBM through queue 64, if it takes the writes. -/
def State.writeBack (s : State) (a : Nat) : State :=
  match s.ctx a, s.queueDomain 64 with
  | some c, some d =>
    if s.mgd.initDone = false ∨ s.islandUp 16 = false ∨ d.size < 512 * (a + 1) then s
    else
      let b := s.ctxBytes c
      (List.range 8).foldl (fun s i => (s.writeLine d (d.line (d.base + 512 * a + 64 * i)) (slice b (64 * i) 64) .good 64).1) s
  | _, _ => s

/-- Context a enters the cache; the least recently used context leaves a full one and is written back. -/
def State.cachePut (s : State) (a : Nat) : State :=
  let cap := match s.boot.image with | some im => im.ctxCache | none => 0
  let c := s.asc.cache
  if c.contains a then { s with asc := { s.asc with cache := a :: c.filter (· != a) } }
  else
    let s := if cap ≤ c.length then (match c.getLast? with | some b => s.writeBack b | none => s) else s
    { s with asc := { s.asc with cache := (a :: c).take cap } }

/-- The context of a frame that is queued or received is fetched; a miss counts in CTX_MISSES, and the fetch stages the
context's slots into the cipher islands (R395). -/
def State.touchCtx (s : State) (a : Nat) : State :=
  if (s.ctx a).isNone then s
  else if s.asc.cache.contains a then s.cachePut a
  else (((s.inc (Reg.ascCountLo 13)).cachePut a).stageSlot (slotOf a 0)).stageSlot (slotOf a 1)

/-- A context command commits into the cache and HBM in one commit. -/
def State.commitCtx (s : State) (a : Nat) : State := (s.cachePut a).writeBack a

/-! ## Sealed records (R401) -/

/-- A record sealed under K_seal with a drawn IV: kind 0 an association, 1 a slot. -/
def State.sealRec (s : State) (kind id : Nat) (attr : Word) (pt : List Byte) : SealedRec × State :=
  let (k, s) := s.rbgTake 1
  let iv := Config.freeBytes k 12
  let magic := ([0x53#8, 0x4C#8, 0x4B#8] ++ [if kind = 0 then 0x41#8 else 0x53#8])
  let aad := magic ++ beBytes 4 id ++ beBytes 4 attr.toNat ++ zeroBytes 4
  let (ct, tag) := Config.gcmSeal (s.kvt.kSeal.getD []) iv aad pt
  (⟨id, attr, iv, ct, tag⟩, s)

/-- A store of a sealed record or its clearing is requested. -/
def State.storeSealed (s : State) (p : Payload) (who : Waiter) : State × Bool :=
  let (s, ok) := s.requestStore (recordStore .sealedRec p who)
  (if ok then s.inc (Reg.kvtCountLo 7) else s, ok)

/-- The slot record of a slot is in use. -/
def State.slotRecUsed (s : State) (c : Nat) : Bool := (SMap.get noneOf s.mram.slots c).isSome

/-- Association records that may be freed are cleared (R402): PERSIST cleared or association deleted, both slot records
free, no clearing requested yet. -/
def State.freeRecords (s : State) : State :=
  s.asc.recOf.foldl (fun s e => match e.2 with
    | none => s
    | some k =>
      let keeps := match s.ctx e.1 with | some c => c.persist | none => false
      let asked := s.st.queue.any (fun r => r.pay == .assocRec k none) || (match s.st.mram with | some r => r.pay == .assocRec k none | none => false)
      if keeps || s.slotRecUsed (slotOf e.1 0) || s.slotRecUsed (slotOf e.1 1) || asked then s
      else (s.storeSealed (.assocRec k none) .nobody).1) s

/-- A slot is erased through Fallow; its sealed record is cleared (R391, R402); the service set may lose its key (R104).
The flag is false when that store is refused. -/
def State.eraseSlot (s : State) (c : Nat) (who : Waiter) : State × Bool :=
  let s := (s.enterFallow c).recheck
  if s.slotRecUsed c then s.storeSealed (.slotRec c none) who else (s, true)

/-! ## Commands that wait -/

/-- A command of a unit's window runs. -/
def State.unitBusy (s : State) (unit win : Nat) : Bool := s.kvt.runs.any (fun r => r.unit == unit && r.win == win)

/-- A command waits for a number of stores. -/
def State.startRun (s : State) (unit win op waits code arg : Nat) : State :=
  { s with kvt := { s.kvt with runs := s.kvt.runs ++ [RunCmd.mk unit win op waits code s.now arg] } }

/-- The running command of a unit's window is taken off. -/
def State.endRun (s : State) (unit win : Nat) : State :=
  { s with kvt := { s.kvt with runs := s.kvt.runs.filter (fun r => !(r.unit == unit && r.win == win)) } }

/-- The stores of a waiting command go on without it. -/
def State.orphanStores (s : State) (who : Waiter) : State :=
  let put := fun (r : StoreReq) => if r.who = who then { r with who := .nobody } else r
  { s with st := { s.st with queue := s.st.queue.map put, mram := s.st.mram.map put, nor := s.st.nor.map put } }

end Sys2Proof.Machine
end

