-- ==== Sys2Proof/Machine/Scheduler.lean ====
section
/-! DEFINITION. The Scheduler's commands (chapter 08): admission, the pick with its packet number and cipher dispatch, the
end of a picked frame, gate lists, launch-time drops, table commands. -/

namespace Sys2Proof.Machine

open Sys2Proof

/-! ## Admission (R247, R248, R253, R260, R427) -/

/-- Cells a frame reserves: those of the largest frame of its receiving port; an injected frame's own (R247). -/
def State.reserveFor (s : State) (f : Frame) : Nat :=
  if 544 ≤ f.input then cellsOf f.bytes.length
  else cellsOf ((if f.input < 32 then s.fld (Reg.lnfEthCtrl f.input) 17 4 else 9248) + 32)

/-- A frame's copies: queue and association. -/
def Frame.copies (f : Frame) : List (Nat × Nat) := (f.key, f.assoc) :: f.flood.map (fun a => (a, a))

/-- The policer applies to a copy: encrypt direction, not injected. -/
def Frame.policed (f : Frame) : Bool := f.encrypt && f.inject.isNone && decide (f.input < 544)

/-- The 6 bytes of a frame record (R427). -/
def State.frameRecord (s : State) (f : Frame) : List Byte :=
  beBytes 6 (f.input * 2 ^ 37 + f.rxLen * 2 ^ 23 + f.rxMatch * 2 ^ 7 + min 127 ((s.now - f.arrival) * 25 / 64))

/-- The nominal times of a frame that is admitted now (R425): arrival at A − 8 × FIRST_OFS, the last cell at A and the whole epochs of
64 blocks that its LEN takes at the input's rate. -/
def State.nominal (s : State) (f : Frame) : Frame :=
  let ofs := min 127 ((s.now - f.arrival) * 25 / 64)
  let r := max 1 (s.inputRate f.input)
  let epochs := (f.rxLen * 20500 + r * 64 - 1) / (r * 64)
  { f with arrival := s.now - ofs * 64 / 25, wholeAt := s.now + (epochs * 512 + 24) / 25 }

/-- A frame as admitted: in the Yoke modes with its nominal times. -/
def State.timed (s : State) (f : Frame) : Frame := if s.ctl.mode.isYoke ∧ f.input < 544 then s.nominal f else f

/-- The lead sends the record of a frame it admits, unless software injected it (R427). -/
def State.sendRecord (s : State) (f : Frame) : State :=
  if s.ctl.mode = .yokeLead ∧ f.input < 544 then s.sendDithal 0 (s.frameRecord f) else s

/-- RECNO of the next record of an input, which advances (R427). -/
def State.takeRecNo (s : State) (f : Frame) : Nat × State :=
  let n := SMap.get zeroOf s.yok.recNo f.input
  if s.ctl.mode.isYoke ∧ f.input < 544 then
    (n, { s with yok := { s.yok with recNo := SMap.set zeroOf s.yok.recNo f.input ((n + 1) % 2 ^ 32) } })
  else (0, s)

/-- The output whose class queue a copy waits for. -/
def State.copyOutput (s : State) (f : Frame) (c : Nat × Nat) : Nat :=
  if 65536 ≤ c.1 then f.output else match s.ctx c.2 with | some x => x.encOut | none => f.output

/-- The arrival of a frame's first byte in ns of an output's CHANNEL, modulo 2^32 (R269). -/
def State.arrivalOn (s : State) (o : Nat) (f : Frame) : Nat := (s.gateNow o + 2 ^ 32 - (s.now - f.arrival) % 2 ^ 32) % 2 ^ 32

/-- A copy enters its queue. -/
def State.enqueue (s : State) (f : Frame) (id : Nat) (c : Nat × Nat) : State :=
  s.setQueue c.1 (s.queue c.1 ++ [⟨id, c.2, s.arrivalOn (s.copyOutput f c) f⟩])

/-- A dropped frame: a seed-tagged one gives its record, an injected one its completion, a decrypt item ends. -/
def State.notAdmitted (s : State) (f : Frame) (status : Nat) : State :=
  let s := s.observe (if f.encrypt then 2 else 10) f.tag (s.sight f f.assoc f.key) true false
  let s := s.injectDone f status 0
  match s.cph.items.find? (fun e => match e.2 with | some i => i.kind == .decFrame f.id | none => false) with
  | some (k, _) => if f.encrypt then s else s.endItem k
  | none => s

/-- The frame that stands for a list of admitted copies: the first is its own (R234, R260). -/
def State.leadCopy (s : State) (f : Frame) (cs : List (Nat × Nat)) : Frame :=
  match cs with
  | [] => f
  | (k, a) :: rest =>
    let f := { f with flood := rest.map (·.2), refs := cs.length }
    if 65536 ≤ k ∨ a = f.assoc then f
    else match s.ctx a with
      | some c => { f with assoc := a, output := c.encOut, cls := c.encClass }
      | none => { f with assoc := a }

/-- A frame enters with a list of copies. -/
def State.admitCopies (s : State) (f : Frame) (cs : List (Nat × Nat)) (r : Nat) : State :=
  let (id, s) := if f.encrypt then (s.sch.nextId, { s with sch := { s.sch with nextId := s.sch.nextId + 1 } }) else (f.id, s)
  let (no, s) := s.takeRecNo f
  let f := s.leadCopy (s.timed f) cs
  let fr : Frame := { f with id := id, reserved := r, recNo := no }
  let s := cs.foldl (fun s c => s.touchCtx c.2) s
  let s := (s.setFrame id (some fr)).addCells f.encrypt 0 r
  let s := cs.foldl (fun s c => s.enqueue f id c) s
  let s := (s.schCount 0 1).schCount 10 (cs.length - 1)
  let s := if f.encrypt ∧ f.direct then s.schCount 9 1 else s
  let s := s.sendRecord f
  (s.observe (if f.encrypt then 2 else 10) f.tag (s.sight fr f.assoc f.key) false false).spillCheck f.encrypt

/-- Admission of a frame: a follower admits what the lead's records name, whatever its own policers and queues say. A record does not
tell which copies of a flood set the lead admitted; those of them that the follower's own policers and queues admit are taken, or all
where they would admit none (DEDUCED from R273, R437, log entry 107). -/
def State.admitFrame (s : State) (f : Frame) (byRecord : Bool) : State :=
  let r := s.reserveFor f
  let pol := f.copies.filter (fun c => !f.policed || s.tokens (300000 + c.2))
  let lim := pol.filter (fun c => s.queueLimit c.1 == 0 || decide (s.depth c.1 < s.queueLimit c.1))
  if byRecord then s.admitCopies f (if lim = [] then f.copies else lim) r
  else
    let drops := f.copies.filter (fun c => f.policed && !s.tokens (300000 + c.2))
    let s := drops.foldl (fun s c =>
      let w := s.polWords c.2
      { s with sch := { s.sch with pol := SMap.set polDefault s.sch.pol c.2 { w with w2 := sat32 (w.w2.toNat + 1) } } }) s
    let s := (s.schCount 1 drops.length).schCount 2 (pol.length - lim.length)
    if lim = [] then s.notAdmitted f 10
    else if s.freeCells f.encrypt + s.freeSpill < r then
      ((s.schCount 3 1).noteFor Ev.poolExhausted (s.assocOwner f.assoc) (beBytes 2 f.assoc)).notAdmitted f 10
    else s.admitCopies f lim r

/-- FRAME_ADMIT (R247, R272): the oldest classified frame. A follower keeps it for the lead's record (R432); no frame is
admitted while intake is closed. -/
def execFrameAdmit (s : State) : Host.Outcome State Fault Refusal :=
  match s.sch.arrivals with
  | [] => .next s
  | f :: rest =>
    let s := { s with sch := { s.sch with arrivals := rest } }
    if s.isFollower then
      let b := SMap.get (fun _ => []) s.yok.buffers f.input
      .next { s with yok := { s.yok with buffers := SMap.set (fun _ => []) s.yok.buffers f.input (b ++ [f]) } }
    else if s.ctl.intake = false ∨ s.ctl.mode.carries = false ∨ s.yielded then .next (s.notAdmitted f 10)
    else .next (s.admitFrame f false)

/-- How many of a whole frame's n cells spill, its reservation released (R250, R251): while spill is active and its queue permits it,
all but those that HBM cannot take within its bound; and those for which no on-die cell is left. -/
def State.spillCount (s : State) (f : Frame) (n kept : Nat) : Nat :=
  let onDie := s.poolSize f.encrypt - s.usedCells f.encrypt
  let active := if f.encrypt then s.sch.spillEnc else s.sch.spillDec
  max (n - onDie) (if active && s.spillOk f.key then min (n - kept) s.spillRoom else 0)

/-- A lead names a frame that it does not accept (R428, R435). -/
def State.conveyVerdict (s : State) (f : Frame) (code : Nat) : State :=
  s.convey 0x02 (beBytes 2 f.input ++ beBytes 1 code ++ beBytes 1 0 ++ beBytes 4 f.recNo)

/-- The last m cells of a whole frame are written to spill regions; its other cells lie on die. -/
def State.placeCells (s : State) (f : Frame) (n m : Nat) : State :=
  let cs := s.takeSpill m
  let (s, ok) := ((List.range cs.length).foldl (fun (x : State × Bool) j =>
    let (s, ok) := x.1.spillWrite (cs.getD j 0) (slice f.bytes (256 * (n - m + j)) 256)
    (s, x.2 && ok)) (s, true))
  let s := s.setFrame f.id (some { f with whole := true, cells := n, spilled := m, reserved := 0, spillAt := cs, spillLost := !ok })
  let s := { s with sch := { s.sch with spillUsed := s.sch.spillUsed + m } }
  (s.addCells f.encrypt ((n - m : Nat) : Int) 0).schCount 4 m

/-- FRAME_LAST_CELL (R246, R247, R250, R251, R260): the frame is whole, policers are charged its received length, the unused
reservation goes; kept is the number of its cells that HBM cannot take within its bound. Of a frame dropped before, nothing is kept. -/
def execFrameLastCell (frame kept : Nat) (s : State) : Host.Outcome State Fault Refusal :=
  match s.frame? frame with
  | none => .next s
  | some f =>
    if f.whole then .next s
    else
      let s := if f.policed then (f.assoc :: f.flood).foldl (fun s a => s.charge (300000 + a) f.bytes.length) s else s
      if f.refs = 0 then .next (s.setFrame frame none)
      else
        let n := cellsOf f.bytes.length
        let s := s.addCells f.encrypt 0 (-(f.reserved : Int))
        let m := s.spillCount f n kept
        let s := s.placeCells { f with id := frame } n m
        let s := if f.encrypt ∧ f.inject.isNone ∧ fcsGood f.bytes = false then s.conveyVerdict f 1 else s
        let s := if 0 < m then s.observe 3 f.tag (s.sight f f.assoc f.key) false false else s
        .next (s.spillCheck f.encrypt)

/-! ## Choosing (R254 to R256, R266, R267) -/

/-- Slot of an association that the next pick uses: a durable rotation commits first (R335). -/
def Ctx.pickSlot (c : Ctx) : Nat := match c.rotating with | some (k, true) => k | _ => c.txSlot

/-- The slot and the transmit SA let a frame be picked: no TX_WAIT, a Loaded or Active slot (R320, R392). Frames that are
to be dropped at their pick are not held. -/
def State.saReady (s : State) (a : Nat) : Bool :=
  match s.ctx a with
  | none => true
  | some c => c.kind != 1 || c.poisoned ||
      ((!c.txWait || (match c.rotating with | some (_, true) => true | _ => false)) && s.slotUsable (slotOf a c.pickSlot))

/-- The last cell of a frame counts as buffered: in the Yoke modes at its nominal time (R425). -/
def State.buffered (s : State) (f : Frame) : Bool :=
  if s.ctl.mode.isYoke ∧ f.input < 544 then decide (f.wholeAt ≤ s.now) else f.whole

/-- A head frame may be picked now from a child of class queue q of output o. -/
def State.headOk (s : State) (o q : Nat) (e : QEntry) (f : Frame) : Bool :=
  (s.buffered f || (!s.flg (Reg.schGateCfg o) 31 && !s.isLaunch q && f.inject.isNone && decide (s.capacity o ≤ s.inputRate f.input))) &&
  (f.encrypt || !f.hold || f.verdict.isSome) &&
  (s.bare f e.assoc || s.saReady e.assoc) &&
  s.allotState (s.assocOwner e.assoc) != .frozen &&
  s.gatePermits o (q % 8) (s.counted o (s.leaveLen f e.assoc)) && s.launched q e f && !s.tooLate q e f

/-- The head of a queue with its frame. -/
def State.head (s : State) (k : Nat) : Option (QEntry × Frame) :=
  match s.queue k with
  | [] => none
  | e :: _ => (s.frame? e.frame).map (fun f => (e, f))

/-- The children of class queue q that may be picked from. -/
def State.readyChildren (s : State) (o q : Nat) : List Child :=
  (s.children q).filterMap (fun k => match s.head k with
    | some (e, f) =>
      if s.headOk o q e f && (decide (65536 ≤ k) || s.tokens k) then
        some ⟨k, s.childWeight q k * 256, s.counted o (s.leaveLen f e.assoc)⟩
      else none
    | none => none)

/-- pick_within of R254: the child chosen in class c of output o, with the deficits. -/
def State.pickWithin (s : State) (d : SMap Nat) (o c : Nat) : SMap Nat × Option Child :=
  let q := 8 * o + c
  if s.tokens (directKey q) then dwrr d (SMap.get noneOf s.sch.turn q) (s.readyChildren o q) else (d, none)

/-- STRICT of an output. -/
def State.strict (s : State) (o : Nat) : Nat := clamp 1 4 (s.fld (Reg.schOutCfg o) 10 8)

/-- What a choice answers: class, child, deficits after it, whether the classes took part in DWRR. -/
structure Choice where
  cls : Nat
  child : Child
  deficit : SMap Nat
  shared : Bool
  deriving DecidableEq, Repr

/-- The choice of R254 on output o. -/
def State.choose (s : State) (o : Nat) : Option Choice :=
  let d := s.sch.deficit
  let st := s.strict o
  match (List.range st).findSome? (fun c => match s.pickWithin d o c with
      | (d, some x) => some (Choice.mk c x d false)
      | _ => none) with
  | some r => some r
  | none =>
    let classes := ((List.range 8).drop st).filterMap (fun c => match (s.pickWithin d o c).2 with
      | some x => some (Child.mk (200000 + 8 * o + c) (max 1 (s.fld (Reg.schCqCfg (8 * o + c)) 25 16) * 256) x.len)
      | none => none)
    match dwrr d (SMap.get noneOf s.sch.turn (10000 + o)) classes with
    | (d, some k) =>
      let c := (k.key - 200000) % 8
      match s.pickWithin d o c with
      | (d, some x) => some (Choice.mk c x d true)
      | _ => none
    | _ => none

/-- Deficits and turns after a pick. -/
def State.settleChoice (s : State) (o : Nat) (x : Choice) : State :=
  let q := 8 * o + x.cls
  let d := SMap.set zeroOf x.deficit x.child.key (SMap.get zeroOf x.deficit x.child.key - x.child.len)
  let d := if x.shared then SMap.set zeroOf d (200000 + q) (SMap.get zeroOf d (200000 + q) - x.child.len) else d
  let t := SMap.set noneOf s.sch.turn q (some x.child.key)
  let t := if x.shared then SMap.set noneOf t (10000 + o) (some (200000 + q)) else t
  { s with sch := { s.sch with deficit := d, turn := t } }

/-- A queue whose head is longer than every open interval of its class (R267). -/
def State.oversizeChild (s : State) (o : Nat) : Option Nat :=
  if (s.gate o).running = false then none
  else (List.range 8).findSome? (fun c => (s.children (8 * o + c)).find? (fun k => match s.head k with
    | some (e, f) => s.oversize o c (s.counted o (s.leaveLen f e.assoc))
    | none => false))

/-- The oversize head is dropped; GATE_OVERSIZE is raised once for the list. -/
def State.dropOversize (s : State) (o k : Nat) : State :=
  let s := (s.schCount 6 1).dropHead k 11
  if (s.gate o).oversize then s
  else (s.setGate o { s.gate o with oversize := true }).noteFor Ev.gateOversize (s.outOwner o) (beBytes 2 o)

/-! ## Frames dropped before their pick -/

/-- A transmit frame is dropped and counted in TX_PN_DROPS. -/
def State.pnDrop (s : State) (a : Nat) : State := (s.modCtx a (fun c => c.bump 2 1)).inc (Reg.ascCountLo 10)

/-- PN_EXHAUSTED (R316, R336): once for the SA. -/
def State.exhaust (s : State) (a : Nat) : State :=
  match s.ctx a with
  | none => s
  | some c =>
    let s := s.pnDrop a
    if c.exhausted then s
    else (s.modCtx a (fun c => { c with exhausted := true })).noteFor Ev.pnExhausted c.owner (beBytes 2 a)

/-- PN_MARK_STALL (R318): once for the stall; the mark is asked for again if its store was refused. -/
def State.stall (s : State) (a : Nat) : State :=
  match s.ctx a with
  | none => s
  | some c =>
    let s := (s.pnDrop a).askMark a
    if c.stalled then s
    else (s.modCtx a (fun c => { c with stalled := true })).noteFor Ev.pnMarkStall c.owner (beBytes 2 a)

/-- Why the chosen head is dropped instead of being picked: what is counted and raised (R256, R307, R308, R316, R318, R390,
R440); none if it is picked. -/
def State.dropWhy (s : State) (f : Frame) (a : Nat) : Option (State → State) :=
  if f.verdict = some false then some id
  else if f.encrypt ∧ f.whole ∧ f.inject.isNone ∧ f.phantom = false ∧ s.isFollower = false ∧ fcsGood f.bytes = false then some id
  else if s.bare f a then none
  else match s.ctx a with
    | none => some id
    | some c =>
      if c.kind ≠ 1 then some id
      else if c.poisoned then some (fun s => s.inc (Reg.ascCountLo 10))
      else if c.held then some (fun s => s.pnDrop a)
      else if c.lastPn < c.txNext ∨ c.exhausted ∨ s.mayStart (slotOf a c.txSlot) = false then some (fun s => s.exhaust a)
      else if c.txMark ≤ c.txNext then some (fun s => s.stall a)
      else none

/-- A rotation whose record is durable commits at this pick (R335). -/
def State.commitAtPick (s : State) (f : Frame) (a : Nat) : State :=
  if s.bare f a then s
  else match s.ctx a with
    | some c => match c.rotating with | some (_, true) => s.commitRotate a | _ => s
    | none => s

/-- Oversize and undeliverable heads go until a frame is chosen that is picked. -/
def State.chooseFrame (s : State) (o : Nat) : Nat → State × Option Choice
  | 0 => (s, none)
  | n + 1 =>
    match s.oversizeChild o with
    | some k => State.chooseFrame (s.dropOversize o k) o n
    | none =>
      match s.choose o with
      | none => (s, none)
      | some x =>
        match s.head x.child.key with
        | none => (s, none)
        | some (e, f) =>
          let s := s.commitAtPick f e.assoc
          match s.dropWhy f e.assoc with
          | some act => State.chooseFrame (act (s.dropHead x.child.key 10)) o n
          | none => (s, some x)

/-! ## The pick -/

/-- Picks are made (R111, R272, R447): no level 3 mute, no power fail, a mode that carries frames, a follower that hears
its lead. -/
def State.picks (s : State) : Bool :=
  !s.ctl.halted && s.pow.pfStep == 0 && (s.ctl.mode.carries || s.ctl.mode == .yokeResync) &&
  !(s.isFollower && s.yok.twinLost) && !s.yielded

/-- Output o may be picked for: it exists, sends nothing, its shaper holds tokens, its tributary is not short (R254, R357). -/
def State.outputFree (s : State) (o : Nat) : Bool :=
  decide (0 < s.capacity o) && (SMap.get noneOf s.sch.sending o).isNone && s.tokens (200000 + o) &&
  (decide (o < 32) || !s.asc.shortTx.contains (o - 32))

/-- The bytes of a frame that leaves bare: one-step time for an injected event message, residence time for PTP that passes
under TIMING_BYPASS (R472, R474). -/
def State.bareBytes (s : State) (f : Frame) : List Byte :=
  match f.inject with
  | some i => if i.oneStep then s.oneStep f.bytes else f.bytes
  | none => if f.encrypt ∨ f.pn = 0 then (s.transparent f).getD f.bytes else f.bytes

/-- What a frame that leaves bare counts: PTP_CORRECTED, ONE_STEP or TWO_STEP. -/
def State.countBare (s : State) (f : Frame) : State :=
  match f.inject with
  | some i => if i.oneStep then s.inc (Reg.timCountLo 1) else if i.twoStep then s.inc (Reg.timCountLo 2) else s
  | none => if (f.encrypt ∨ f.pn = 0) ∧ (s.transparent f).isSome then s.inc (Reg.timCountLo 0) else s

/-- A frame begins to leave. -/
def State.beginSend (s : State) (o : Nat) (x : Sending) : State :=
  { s with sch := { s.sch with sending := SMap.set noneOf s.sch.sending o (some x) } }

/-- A pick reads the first spilled cell of a frame, and awaits in Expanse the verdicts of every spilled line (R291 to R293); the flag
tells that it is returned with POISON or ERROR. -/
def State.fetchSpilled (s : State) (f : Frame) (seen : MemOutcome) : State × Bool :=
  match f.spillAt with
  | [] => (s, false)
  | c :: _ =>
    let (s, bad) := (s.schCount 5 f.spilled).spillRead c seen
    let lines := f.spillAt.flatMap (fun c => match s.spillCell c with
      | some (_, _, a) => [a, a + 64, a + 128, a + 192]
      | none => [])
    (if s.expanse then s.modFrame f.id (fun f => { f with linesWait := lines }) else s, bad || f.spillLost)

/-- The other spilled cells of a frame are read while it leaves. -/
def State.fetchRest (s : State) (f : Frame) (seen : MemOutcome) : State × Bool :=
  (f.spillAt.drop 1).foldl (fun (x : State × Bool) c =>
    let (s, bad) := x.1.spillRead c (if f.spillAt[1]? = some c then seen else .good)
    (s, x.2 || bad)) (s, false)

/-- A protected frame is dispatched (R20, R312, R347, R356, R358, R396): its PN is taken first and stays consumed. -/
def State.dispatch (s : State) (o : Nat) (e : QEntry) (f : Frame) (x : Choice) (badCheck : Bool) : State :=
  let a := e.assoc
  match s.ctx a with
  | none => s.dropRef e.frame
  | some c =>
    let code := slotOf a c.txSlot
    let (pn, s) := s.takePn a
    let lost := fun (s : State) => s.dropRef e.frame
    if badCheck then lost (s.slotCheckFail code)
    else
      match s.freePair 0 with
      | none => lost (((s.inc (Reg.cphCountLo 8)).excuse o).addUsage code (frameBlocks f.bytes.length))
      | some p =>
        let bytes := c.protect (s.keyOf code) (s.vlanTags f.bytes) c.txSlot pn f.bytes
        let (id, s) := s.startItem (.encFrame o) [code] (frameBlocks f.bytes.length) [p]
        let s := s.incBy (Reg.cphCountLo 0) (frameBlocks f.bytes.length)
        let s := (s.modCtx a (fun c => (c.bump 0 1).bump 1 bytes.length)).inc (Reg.ascCountLo 0)
        s.beginSend o ⟨e, x.child.key, 8 * o + x.cls, x.child.len, bytes, false, false, some id, s.blockNo, 0, s.muted || s.yok.muted⟩

/-- PICK (R254 to R256, R20, R316): seen is what the read of a first spilled cell shows before any byte leaves (R293), badCheck tells
that the key slot fails its check value (R396). Outside the yoke no pick is made that needs a pair while none can accept
the frame (R356). -/
def execSchPick (output : Fin 544) (seen : MemOutcome) (badCheck : Bool) (s : State) : Host.Outcome State Fault Refusal :=
  let o := output.val
  if s.picks = false ∨ s.outputFree o = false then .next s
  else
    let fuel := (s.sch.queues.map (fun e => e.2.length)).sum + 1
    match s.chooseFrame o fuel with
    | (s, none) => .next s
    | (s, some x) =>
      match s.head x.child.key with
      | none => .next s
      | some (e, f) =>
        let bare := s.bare f e.assoc
        if bare = false ∧ s.ctl.mode.isYoke = false ∧ s.freePair 0 = none then .next s
        else
          let s := s.observe 4 f.tag (s.sight f e.assoc x.child.key) false false
          let (s, bad) := (((s.settleChoice o x).popQueue x.child.key).schCount 8 1).fetchSpilled f seen
          if bad then
            let s := if bare then s else (s.takePn e.assoc).2
            .next ((((s.tally tallyPoison).excuse o).injectDone f 10 0).dropRef e.frame)
          else if bare then
            let stamp := match f.inject with | some i => if i.twoStep then s.descTime i.allot else 0 | none => 0
            .next ((s.countBare f).beginSend o ⟨e, x.child.key, 8 * o + x.cls, x.child.len, s.bareBytes f, false, false, none, s.blockNo, stamp, s.muted || s.yok.muted⟩)
          else .next (s.dispatch o e f x badCheck)

/-! ## The end of a picked frame (R257, R248, R22, R159) -/

/-- A tributary item (R158): header with LEN and its check, the frame, zero padding to a multiple of 4. -/
def tribItem (b : List Byte) : List Byte :=
  beBytes 2 b.length ++ beBytes 2 (crc16 (beBytes 2 b.length)) ++ b ++ zeroBytes ((4 - b.length % 4) % 4)

/-- The items that tributary t has still to send: an item in progress, perhaps none, then whole items. -/
def State.txItems (s : State) (t : Nat) : List (Bool × List Byte) := SMap.get (fun _ => []) s.asc.txItems t

/-- An item joins tributary t's stream. -/
def State.pushItem (s : State) (t : Nat) (hole : Bool) (b : List Byte) : State :=
  let l := s.txItems t
  let l := if l.isEmpty then [(false, [])] else l
  { s with asc := { s.asc with txItems := SMap.set (fun _ => []) s.asc.txItems t (l ++ [(hole, tribItem b)]) } }

/-- A frame whose bytes this twin must not send takes its place in a tributary's stream (R436). -/
def State.leaveHole (s : State) (o : Nat) (b : List Byte) : State :=
  (if 32 ≤ o then s.pushItem (o - 32) true b else s).excuse o

/-- The frame's bytes leave on an output: a tributary takes an item, an Ethernet output a frame; a muted Ethernet output
discards and counts it (R56), also where it was muted when the frame began (R57); a client port with PCS_DOWN drops it and counts
it (R168). A stomp is counted (R22, R159). -/
def State.leave (s : State) (o : Nat) (b : List Byte) (stomp off : Bool) (block : Nat) : State :=
  if 32 ≤ o then
    let t := o - 32
    let s := s.pushItem t false b
    if stomp then (s.tally (tallyStomp t)).excuse o else s
  else if s.muted ∨ s.yok.muted ∨ off then (if s.ctl.halted then s.schCount 11 1 else s.ethCount o 5 1).excuse o
  else if o < 16 ∧ s.pcsDown o then (s.tally (tallyPcs o)).excuse o
  else
    let s := (s.ethCount o 3 1).emit (.frame o b)
    if stomp then ((s.ethCount o 4 1).emit (.stomped o)).excuse o else s.digest o (beBytes 8 block ++ b)

/-- Every shaper the frame was picked through loses its counted length. -/
def State.chargeShapers (s : State) (o : Nat) (x : Sending) : State :=
  let s := if x.queue < 65536 then s.charge x.queue x.counted else s
  (s.charge (directKey x.cq) x.counted).charge (200000 + o) x.counted

/-- The frame that output o sends is complete: its last cell is here, a decrypted frame's final check is known, and in
Expanse no memory verdict is awaited (R292, R363). -/
def Frame.sendable (f : Frame) : Bool :=
  f.whole && (f.encrypt || f.verdict.isSome) && (f.linesWait == [] || f.lineBad)

/-- A twin's own data is not here although it counts as buffered (R425): the frame ends as an underrun. -/
def State.lacking (s : State) (f : Frame) : Bool := s.ctl.mode.isYoke && !f.whole && s.buffered f

/-- The bytes with which a picked frame ends: whole, with an inverted FCS, or in a tributary as an underrun after part of it has left,
how much of it is free (R22, R159, R293). -/
def State.endBytes (s : State) (o : Nat) (b : List Byte) (stomp short : Bool) : List Byte × State :=
  if short ∧ 32 ≤ o then
    let (k, s) := s.draw
    (underrun b (Config.freeNat k % (b.length - 3)), s)
  else (if stomp then stompFcs b else b, s)

/-- The frame ends with an inverted FCS (R22): it was stomped, its received FCS, ICV, final check or memory verdict failed. -/
def Frame.stompAtEnd (f : Frame) (x : Sending) : Bool :=
  x.stomp || f.lineBad || f.verdict == some false || (f.encrypt && !f.phantom && f.inject.isNone && !fcsGood f.bytes)

/-- PICKED_FRAME_END (R257, R248, R293): seen is what the read of a later spilled cell shows after part of the frame has
left. -/
def execPickedFrameEnd (output : Fin 544) (seen : MemOutcome) (s : State) : Host.Outcome State Fault Refusal :=
  let o := output.val
  match SMap.get noneOf s.sch.sending o with
  | none => .next s
  | some x =>
    match s.frame? x.entry.frame with
    | none => .next { s with sch := { s.sch with sending := SMap.set noneOf s.sch.sending o none } }
    | some f =>
      if f.sendable = false ∧ s.lacking f = false then .next s
      else
        let lack := s.lacking f
        let (s, bad) := ({ s with sch := { s.sch with sending := SMap.set noneOf s.sch.sending o none } }).fetchRest f seen
        let s := if s.ctl.mode.isYoke ∧ f.phantom = false ∧ (lack ∨ bad) then s.tally tallyLocal else s
        let stomp := f.stompAtEnd x || bad || lack
        let v := { s.sight f x.entry.assoc x.queue with len := x.bytes.length }
        let s := if f.encrypt then s.observe 5 f.tag v x.drop false else s
        let (bs, s) := s.endBytes o x.bytes stomp (bad || lack)
        let s := if f.phantom || (s.ctl.mode.isYoke && decide (32 ≤ o) && s.flg (Reg.ascTribCloak (o - 32)) 31 && (bad || lack || x.stomp || x.drop))
            then s.leaveHole o x.bytes
          else if x.drop then s.excuse o
          else (s.leave o bs stomp x.off x.block).observe (if f.encrypt then 6 else 11) f.tag v false stomp
        let s := (s.chargeShapers o x).injectDone f 0 x.stamp
        let s := match x.item with | some i => s.endItem i | none => s
        .next (s.dropRef x.entry.frame)

/-! ## Gate lists -/

/-- A write of SCH_GATE_CFG without CHANGE: its fields; the list runs only while ENABLE is 1, by the time of CHANNEL (R264, R268,
R458). -/
def State.writeGateCfg (s : State) (o : Nat) (val : Word) : State :=
  let w := val &&& 0x8FFF07FF#32
  let w := if 12 ≤ bits w 27 24 then setBits w 27 24 0 else w
  let moved := decide (bits w 27 24 ≠ s.gateChannel o)
  let s := (s.wr (Reg.schGateCfg o) w).gateResume o
  if moved && (s.gate o).running then s.placeGate o else s

/-- Every entry of the standby list lasts 32 ns to 1 s. -/
def State.intervalsOk (s : State) (o len : Nat) : Bool :=
  (List.range len).all (fun e =>
    let i := (s.gateEntry o (1 - (s.gate o).active) e).2
    decide (32 ≤ i) && decide (i ≤ 1000000000))

/-- What a write of SCH_GATE_CFG[o] does; CHANGE 1 announces the standby list (R265). -/
def State.gateCfgEffect (s : State) (o : Nat) (val : Word) : State :=
  let s := s.writeGateCfg o val
  if bit val 28 = false then s
  else
    let g := s.gate o
    let len := bits val 10 0
    if g.pending.isSome ∨ len = 0 ∨ 1024 < len ∨ s.intervalsOk o len = false ∨ bit val 31 = false then
      (s.setFlg (Reg.schGateStatus o) 30 true).noteFor Ev.gateChangeRefused (s.outOwner o) (beBytes 2 o)
    else
      let base := (s.rd (Reg.schGateBaseLo o)).toNat + (s.rd (Reg.schGateBaseHi o)).toNat * 2 ^ 32
      let cyc := clamp 1 1000000000 (s.fld (Reg.schGateCycle o) 29 0)
      let from_ := s.gateNow o + 20000
      let tc := if from_ ≤ base then base else base + (from_ - base + cyc - 1) / cyc * cyc
      s.setGate o { g with pending := some (tc, base, cyc, len) }

/-- GATE_CHANGE (R265): a write of SCH_GATE_CFG[o] with CHANGE 1; without it the write is REGISTER_WRITE's. -/
def execGateChange (path : Path) (output : Fin 544) (val : Word) (s : State) : Host.Outcome State Fault Refusal :=
  if bit val 28 = false then .next s
  else .next (s.hostWrite path (Reg.schGateCfg output.val) val (fun s => s.gateCfgEffect output.val val))

/-- GATE_LIST_TAKE_EFFECT (R265): at T_c, and not before, the new list governs from its entry 0. -/
def execGateListTakeEffect (output : Fin 544) (s : State) : Host.Outcome State Fault Refusal :=
  let o := output.val
  let g := s.gate o
  match g.pending with
  | none => .next s
  | some (tc, base, cyc, len) =>
    if s.gateNow o < tc then .next s
    else
    let s := s.setGate o { g with active := 1 - g.active, base := base, cycle := cyc, len := len, entry := 0, cycleAt := tc
                                  endsAt := tc, running := false, pending := none, oversize := false }
    let s := if s.gateMay o then
        s.setGate o { s.gate o with running := true, endsAt := tc + ((s.spans o).getD 0 (0, 0)).2 }
      else s
    .next (s.noteFor Ev.gateListChange (s.outOwner o) (beBytes 2 o ++ beBytes 1 (1 - g.active)))

/-- GATE_ENTRY_ADVANCE (R264, R268): once the present entry has ended, the next entry, or the next cycle; a list that does not run
resumes if it may. -/
def execGateEntryAdvance (output : Fin 544) (s : State) : Host.Outcome State Fault Refusal :=
  let o := output.val
  let g := s.gate o
  if s.gateMay o = false ∨ g.running = false then .next (s.gateResume o)
  else if s.gateNow o < g.endsAt then .next s
  else
    let sp := s.spans o
    if g.entry + 1 < sp.length then
      .next (s.setGate o { g with entry := g.entry + 1, endsAt := g.endsAt + (sp.getD (g.entry + 1) (0, 0)).2 })
    else
      let at_ := g.cycleAt + g.cycle
      .next (s.setGate o { g with entry := 0, cycleAt := at_, endsAt := at_ + (sp.getD 0 (0, 0)).2 })

/-! ## Launch-time queues -/

/-- LAUNCH_LATE (R270): the head frame of a launch-time queue, of an association's or of the direct FIFO (none), has passed
its late limit. -/
def execLaunchLate (cq : Fin 4352) (assoc : Option (Fin 65536)) (s : State) : Host.Outcome State Fault Refusal :=
  let q := cq.val
  let k := match assoc with | some a => a.val | none => directKey q
  match s.head k with
  | none => .next s
  | some (e, f) =>
    if (s.children q).contains k = false ∨ s.tooLate q e f = false then .next s
    else
      let s := (s.schCount 7 1).dropHead k 11
      let due := match SMap.get noneOf s.sch.lateAt q with | some t => decide (t + 1000000000 ≤ s.now) | none => true
      if due then
        let s := { s with sch := { s.sch with lateAt := SMap.set noneOf s.sch.lateAt q (some s.now) } }
        .next (s.noteFor Ev.launchLate (s.outOwner (q / 8)) (beBytes 2 q))
      else .next s

/-! ## Table commands (R274) -/

/-- A table command of window n ends. -/
def State.schEnd (s : State) (n code : Nat) : State :=
  let s := s.cmdEnd 6 n Reg.schTblResult code
  let s := if code = 2 then s.followerRefusal else s
  if code = 0 then s else s.noteFor Ev.schTblRefused n (beBytes 1 code)

/-- Words 0 to 3 of an entry. -/
def State.tblRead (s : State) (table i : Nat) : List Word :=
  match table with
  | 0 => let w := s.aqWords i; [w.w0, w.w1, w.w2, BitVec.ofNat 32 (s.depth i)]
  | 1 => let w := s.polWords i; [w.w0, w.w1, w.w2, 0]
  | _ => let g := SMap.get gateTblDefault s.sch.gateTbl i; [BitVec.ofNat 32 g.1, BitVec.ofNat 32 g.2, 0, 0]

/-- WEIGHT 0 sets 1. -/
def weightOne (w : Word) : Word := if bits w 25 16 = 0 then setBits w 25 16 1 else w

/-- An entry takes words in one commit. -/
def State.tblWrite (s : State) (table i : Nat) (w : List Word) : State :=
  let g := fun k => w.getD k 0
  match table with
  | 0 => s.reshape i (fun s => { s with sch := { s.sch with
      aq := SMap.set aqDefault s.sch.aq i ⟨weightOne (g 0 &&& 0xC3FFFFFF#32), g 1, g 2 &&& 0xFFFFFF#32⟩ } })
  | 1 => s.reshape (300000 + i) (fun s => { s with sch := { s.sch with
      pol := SMap.set polDefault s.sch.pol i ⟨g 0 &&& 0x80FFFFFF#32, g 1, (s.polWords i).w2⟩ } })
  | _ => { s with sch := { s.sch with
      gateTbl := SMap.set gateTblDefault s.sch.gateTbl i (bits (g 0) 7 0, (g 1).toNat) } }

/-- A gate entry that a running or announced list holds: the active list, or either list while a change is pending. -/
def State.gateHeld (s : State) (i : Nat) : Bool :=
  let g := s.gate (i / 2048)
  g.pending.isSome || g.active == i / 1024 % 2

/-- The table command OP of window n on TABLE. -/
def State.schRun (s : State) (n table op : Nat) : State :=
  let i := s.fld (privKey n Reg.schTblIndex) 20 0
  if op = 0 then s
  else if 3 ≤ table ∨ 3 ≤ op then s.schEnd n 4
  else if n ≠ 0 ∧ table = 2 then s.schEnd n 5
  else if (if table = 2 then 544 * 2048 else 65536) ≤ i then s.schEnd n 1
  else if n ≠ 0 ∧ s.assocOwner i ≠ n then s.schEnd n 5
  else if op = 1 then
    let ws := s.tblRead table i
    ((List.range 4).foldl (fun s k => s.wr (privKey n (Reg.schTblData k)) (ws.getD k 0)) s).schEnd n 0
  else if s.isFollower then s.schEnd n 2
  else if table = 2 ∧ s.gateHeld i then s.schEnd n 3
  else
    let ws := (List.range 4).map (fun k => s.rd (privKey n (Reg.schTblData k)))
    ((s.tblWrite table i ws).convey 0x0B (beBytes 1 table ++ beBytes 3 i ++ ws.flatMap (fun w => beBytes 4 w.toNat))).schEnd n 0

/-- SCH_TBL_READ. -/
def execSchTblRead (path : Path) (table : Fin 3) (s : State) : Host.Outcome State Fault Refusal :=
  .next (s.cmdWrite (.schTblRead path table) path Reg.schTblCmd (fun n s => s.schRun n table.val 1))

/-- SCH_TBL_WRITE. -/
def execSchTblWrite (path : Path) (table : Fin 3) (s : State) : Host.Outcome State Fault Refusal :=
  .next (s.cmdWrite (.schTblWrite path table) path Reg.schTblCmd (fun n s => s.schRun n table.val 2))

/-- SCH_TBL_UNKNOWN: TABLE 3 or OP 3; OP 0 does nothing. -/
def execSchTblUnknown (path : Path) (table op : Fin 4) (s : State) : Host.Outcome State Fault Refusal :=
  if table.val < 3 ∧ op.val < 3 then .next s
  else .next (s.cmdWrite (.schTblUnknown path table op) path Reg.schTblCmd (fun n s => s.schRun n table.val op.val))

end Sys2Proof.Machine
end

