-- ==== Sys2Proof/Machine/Assoc.lean ====
section
/-! DEFINITION. The Association Engine's commands (chapter 10): the SCI index, context commands, rotation and flip, received
frames with their replay checks, punts, the cloak's receive side. -/

namespace Sys2Proof.Machine

open Sys2Proof

/-! ## SCI index (R314) -/

/-- The 9 bytes of a key. -/
def SciKey.bytes (k : SciKey) : List Byte := beBytes 1 k.domain ++ slice k.sci 0 8

/-- Same domain and SCI. -/
def SciKey.same (a b : SciKey) : Bool := a.domain == b.domain && slice a.sci 0 8 == slice b.sci 0 8

/-- Slot i of the index. -/
def State.sciAt (s : State) (i : Nat) : Option SciKey := SMap.get noneOf s.asc.sci i

/-- Bucket of a key in way 0 and way 1, hashed as R210 does with bits [13:0] taken. -/
def State.sciHash0 (s : State) (k : SciKey) : Nat :=
  (crcLsb 0x82F63B78 (s.rd Reg.clsHashSeed0).toNat k.bytes ^^^ 0xFFFFFFFF) % 16384
def State.sciHash1 (s : State) (k : SciKey) : Nat :=
  (crcLsb 0xEDB88320 (s.rd Reg.clsHashSeed1).toNat k.bytes ^^^ 0xFFFFFFFF) % 16384

/-- Slots of bucket b of way w. -/
def sciBucket (w b : Nat) : List Nat := [0, 1, 2, 3].map (fun k => w * 65536 + 4 * b + k)

/-- The eight candidate slots of a key. -/
def State.sciCandidates (s : State) (k : SciKey) : List Nat := sciBucket 0 (s.sciHash0 k) ++ sciBucket 1 (s.sciHash1 k)

/-- The slot that holds a key. -/
def State.sciFind (s : State) (k : SciKey) : Option Nat :=
  (s.sciCandidates k).find? (fun i => match s.sciAt i with | some e => e.same k | none => false)

/-- One write of the index, which a lead conveys as SCI_COMMIT (R428). -/
def State.sciPut (s : State) (i : Nat) (e : Option SciKey) : State :=
  let s := { s with asc := { s.asc with sci := SMap.set noneOf s.asc.sci i e } }
  s.convey 0x05 (beBytes 4 i ++ (match e with
    | some x => beBytes 1 (128 + x.domain) ++ beBytes 1 0 ++ slice x.sci 0 8 ++ beBytes 2 x.assoc
    | none => zeroBytes 12))

/-- The other bucket of the key in slot i. -/
def State.sciAlternate (s : State) (i : Nat) (k : SciKey) : List Nat :=
  if i < 65536 then sciBucket 1 (s.sciHash1 k) else sciBucket 0 (s.sciHash0 k)

/-- A transplant chain of at most n moves: its path and the empty slot that ends it. -/
def State.sciChain (s : State) (slot : Nat) (path : List Nat) : Nat → Option (List Nat × Nat) × State
  | 0 => (none, s)
  | n + 1 =>
    match s.sciAt slot with
    | none => (none, s)
    | some r =>
      let path := path ++ [slot]
      let b := s.sciAlternate slot r
      match b.find? (fun i => (s.sciAt i).isNone) with
      | some f => (some (path, f), s)
      | none =>
        let (x, s) := s.rand 2
        match freshSlot b path x with
        | some i => State.sciChain s i path n
        | none => (none, s)

/-- The moves of a chain in the order of R218, from its end back. -/
def State.sciShift (s : State) : List Nat → Nat → State
  | [], _ => s
  | i :: rest, f =>
    let next := match rest with | [] => f | j :: _ => j
    let s := State.sciShift s rest f
    s.sciPut next (s.sciAt i)

/-- A key is inserted; the flag is false when it is present for another association or finds no place. -/
def State.sciInsert (s : State) (k : SciKey) : State × Bool :=
  match s.sciFind k with
  | some i => (s, match s.sciAt i with | some e => e.assoc == k.assoc | none => false)
  | none =>
    let cs := s.sciCandidates k
    match cs.find? (fun i => (s.sciAt i).isNone) with
    | some i => (s.sciPut i (some k), true)
    | none =>
      let (c, s) := s.rand 3
      match s.sciChain (cs.getD c 0) [] 8 with
      | (some (path, f), s) => ((s.sciShift path f).sciPut (path.headD 0) (some k), true)
      | (none, s) => (s, false)

/-- A key is removed. -/
def State.sciRemove (s : State) (k : SciKey) : State :=
  match s.sciFind k with
  | some i => s.sciPut i none
  | none => s

/-- The key of an association's context. -/
def Ctx.sciKey (c : Ctx) (a : Nat) : SciKey := ⟨c.rxDomain, c.rxSci, a⟩

/-! ## Context commands (R308 to R310, R577) -/

/-- The 512 bytes in window n's ASC_CMD_DATA. -/
def State.ascData (s : State) (n : Nat) : List Byte :=
  (List.range 128).flatMap (fun w => beBytes 4 (s.rd (privKey n (Reg.ascCmdData w))).toNat)

/-- 512 bytes are copied into ASC_CMD_DATA. -/
def State.putAscData (s : State) (n : Nat) (b : List Byte) : State :=
  (List.range 128).foldl (fun s w => s.wr (privKey n (Reg.ascCmdData w)) (BitVec.ofNat 32 (be32 b (4 * w)))) s

/-- A context command of window n ends; a refusal raises ASC_CMD_REFUSED. -/
def State.ascEnd (s : State) (n code : Nat) : State :=
  let a := s.fld (privKey n Reg.ascCmdAssoc) 15 0
  let s := if code = 1 then s.result (privKey n Reg.ascCmdResult) 1 else s.cmdEnd 8 n Reg.ascCmdResult code
  let s := if code = 7 then s.followerRefusal else s
  if code = 0 then s else s.noteFor Ev.ascCmdRefused n (beBytes 1 code ++ beBytes 2 a)

/-- A field is outside R304. -/
def State.ctxInvalid (s : State) (c : Ctx) (b : List Byte) : Bool :=
  let count := match s.boot.image with | some im => im.allotCount | none => 1
  !(c.kind == 1 || c.kind == 2) || decide (count ≤ c.owner) || bits c.flags 6 5 == 3 || bits c.flags 4 3 == 3 ||
  bits c.flags 2 0 != 0 || decide (8 ≤ c.encClass) || decide (8 ≤ c.decClass) || decide (16 ≤ c.decOut) ||
  decide (16 ≤ c.rxDomain) || decide (16 ≤ ofBe (slice b 11 1)) || c.cloak % 32 != 0 || slice b 83 45 != zeroBytes 45 ||
  (if c.kind = 1 then
    decide (c.encOut < 16) || decide (544 ≤ c.encOut) || decide (c.winnow < 64) || decide (16384 < c.winnow) ||
    c.winnow % 64 != 0 || c.trib != 0
   else decide (512 ≤ c.trib))

/-- The outputs and the tributary that a context names are the window's (R309). -/
def State.ctxReaches (s : State) (n : Nat) (c : Ctx) : Bool :=
  n == 0 || (c.owner == n && s.portOwner c.decOut == n &&
    (if c.kind = 1 then s.outOwner c.encOut == n else s.outOwner (32 + c.trib) == n))

/-- Associations other than a that hold PERSIST. -/
def State.persistCount (s : State) (a : Nat) : Nat :=
  (s.asc.ctxs.filter (fun e => e.1 != a && (match e.2 with | some c => c.persist | none => false))).length

/-- The lowest free association record. -/
def State.freeAssocRec (s : State) : Nat :=
  ((List.range 16385).find? (fun k => !(s.asc.recOf.any (fun e => e.2 == some k)) && (SMap.get noneOf s.mram.assocs k).isNone)).getD 0

/-- The association's sealed record is requested for window n's command (R310, R402). -/
def State.persistStore (s : State) (a n : Nat) (b : List Byte) : State × Bool :=
  let k := (SMap.get noneOf s.asc.recOf a).getD s.freeAssocRec
  let (r, s) := s.sealRec 0 a 0 (slice b 0 128)
  let (s, ok) := s.storeSealed (.assocRec k (some r)) (.unit 8 n)
  (if ok then { s with asc := { s.asc with recOf := SMap.set noneOf s.asc.recOf a (some k) } } else s, ok)

/-- CREATE and WRITE end at once, or when the PERSIST record is durable. -/
def State.ascFinish (s : State) (n op a : Nat) (c : Ctx) : State :=
  if c.persist then s.startRun 8 n op 1 0 a else s.freeRecords.ascEnd n 0

/-- What CREATE and WRITE need before they commit: a place in the SCI index where key is one, and the PERSIST store taken.
The answer is the CODE; on a refusal the index is as before. -/
def State.ascReserve (s : State) (n a : Nat) (c : Ctx) (key : Option SciKey) : State × Nat :=
  let (t, ok) := match key with | some k => s.sciInsert k | none => (s, true)
  if ok = false then (t, 6)
  else if c.persist = false then (t, 0)
  else
    let (t, ok) := t.persistStore a n c.head
    if ok then (t, 0) else (match key with | some k => t.sciRemove k | none => t, 10)

/-- An ASC_COMMIT item (R428). -/
def State.conveyCtx (s : State) (a op arg : Nat) (b : List Byte) : State :=
  s.convey 0x06 (beBytes 2 a ++ beBytes 1 op ++ beBytes 1 arg ++ slice b 0 128)

/-- CREATE (R308). -/
def State.ascCreate (s : State) (n a arg : Nat) : State :=
  if (s.ctx a).isSome then s.ascEnd n 4
  else
    let b := s.ascData n
    let c := Ctx.create b (arg % 2)
    if s.ctxInvalid c b then s.ascEnd n 3
    else if s.ctxReaches n c = false then s.ascEnd n 2
    else if c.persist ∧ 16384 ≤ s.persistCount a then s.ascEnd n 14
    else
      let (t, code) := s.ascReserve n a c (if c.kind = 1 then some (c.sciKey a) else none)
      if code ≠ 0 then t.ascEnd n code
      else
        let t := { t with asc := { t.asc with gone := SMap.set noneOf t.asc.gone a none } }
        let t := ((t.setCtx a (some c)).commitCtx a).conveyCtx a 2 arg c.head
        t.ascFinish n 2 a c

/-- The bytes that WRITE rewrites, with the bytes only CREATE sets kept. -/
def Ctx.rewrite (c : Ctx) (b : List Byte) : Ctx :=
  let x := Ctx.create b 0
  { c with
    owner := x.owner, flags := (x.flags &&& 0xFFFFF3FF#32) ||| (c.flags &&& 0xC00#32), encOut := x.encOut
    encClass := x.encClass, decClass := x.decClass, decOut := x.decOut, rxDomain := x.rxDomain, an0 := x.an0, an1 := x.an1
    oldHoldMs := x.oldHoldMs, winnow := x.winnow, txSci := x.txSci, rxSci := x.rxSci, txSsci := x.txSsci
    rxSsci := x.rxSsci, salt0 := x.salt0, salt1 := x.salt1, txPnSoft := x.txPnSoft, cloak := x.cloak, hostData := x.hostData }

/-- An association's state is rebuilt from its reservation record under R320 and R321 (R307, R322): slot roles from the
record, counters 0; a slot that is neither primary nor fresh accepts nothing. -/
def State.rebuild (s : State) (a : Nat) : State :=
  match s.ctx a with
  | none => s
  | some c =>
    let r := s.pnRec a
    let has := decide (r ≠ PnRec.none)
    let tx := if has then flag r.txSlot else c.txSlot
    let rx := if has then flag r.rxSlot else c.rxPrimary
    let c := { c with
      txSlot := tx, rxPrimary := rx, counters := List.replicate 16 0, poisoned := false, softSeen := false
      exhausted := false, txWait := false, holdLeft := 0, rotating := none, stalled := false, rxStalled := false
      fresh0 := false, fresh1 := false, dead0 := false, dead1 := false, seen := allSeen, smallMap := 2 ^ 64 - 1
      sheafTop := 0, sheafMap := 0, rxMark := max (c.startPn - 1) r.rxMark, rxHigh0 := c.startPn - 1, rxHigh1 := c.startPn - 1 }
    let c := if r.otherFresh then c.setFresh (1 - rx) true else c.setDead (1 - rx) true
    let s := s.setCtx a (some c)
    let s := if s.slotUsable (slotOf a rx) then (s.startRxSa a rx .nobody).1 else s
    if c.kind = 1 ∧ s.slotUsable (slotOf a tx) then
      (if s.mram.stale && s.slotYoke (slotOf a tx) then s.modCtx a (fun c => { c with held := true }) else (s.startTxSa a tx .nobody).1)
    else s

/-- WRITE (R307, R308). -/
def State.ascWrite (s : State) (n a : Nat) : State :=
  match s.ctx a with
  | none => s.ascEnd n 4
  | some c =>
    let b := s.ascData n
    let x := c.rewrite b
    if s.ctxInvalid x b then s.ascEnd n 3
    else if s.ctxReaches n x = false then s.ascEnd n 2
    else if x.persist ∧ 16384 ≤ s.persistCount a then s.ascEnd n 14
    else if (x.an0 ≠ c.an0 ∧ s.slotBound (slotOf a 0)) ∨ (x.an1 ≠ c.an1 ∧ s.slotBound (slotOf a 1)) then s.ascEnd n 9
    else
      let moved := c.kind == 1 && !((x.sciKey a).same (c.sciKey a))
      let (t, code) := s.ascReserve n a x (if moved then some (x.sciKey a) else none)
      if code ≠ 0 then t.ascEnd n code
      else
        let t := if moved then t.sciRemove (c.sciKey a) else t
        let t := t.setCtx a (some x)
        let t := if c.poisoned then t.rebuild a else t
        let t := (t.commitCtx a).conveyCtx a 3 0 x.head
        t.ascFinish n 3 a x

/-- DELETE (R308): the bytes stay with KIND 0, the reservation record is kept. -/
def State.ascDelete (s : State) (n a : Nat) : State :=
  match s.ctx a with
  | none => s.ascEnd n 4
  | some c =>
    if s.slotBound (slotOf a 0) ∨ s.slotBound (slotOf a 1) then s.ascEnd n 9
    else
      let s := if c.kind = 1 then s.sciRemove (c.sciKey a) else s
      let s := s.setCtx a none
      let gone := SMap.set noneOf s.asc.gone a (some { c with kind := 0 })
      let s := { s with asc := { s.asc with gone := gone, cache := s.asc.cache.filter (· != a) } }
      (s.conveyCtx a 4 0 ({ c with kind := 0 }).head).freeRecords.ascEnd n 0

/-- READ (R308): the context as at one instant. -/
def State.ascRead (s : State) (n a : Nat) : State :=
  let b := match s.ctx a with
    | some c => s.ctxBytes c
    | none => match SMap.get noneOf s.asc.gone a with
      | some c => s.ctxBytes c
      | none => zeroBytes 512
  (s.putAscData n b).ascEnd n 0

/-- ROTATE (R335): the record of the new SA is stored; the command ends when it is durable. -/
def State.rotateCmd (s : State) (n a : Nat) : State :=
  match s.ctx a with
  | none => s.ascEnd n 4
  | some c =>
    if c.kind ≠ 1 then s.ascEnd n 4
    else if s.rotatable a c = false then s.ascEnd n 5
    else
      let (s, ok) := s.prepareRotate a (.unit 8 n)
      if ok then s.startRun 8 n 5 1 0 a else s.ascEnd n 10

/-- FLIP (R338, R183): accepted in the present transmit sheaf with lead L; it ends at the flip sheaf. -/
def State.flipCmd (s : State) (n a arg : Nat) : State :=
  match s.ctx a with
  | none => s.ascEnd n 4
  | some c =>
    let k := 1 - c.txSlot
    if c.kind ≠ 2 then s.ascEnd n 4
    else
      match s.groupOfTrib c.trib with
      | none => s.ascEnd n 5
      | some g =>
        if c.cloakTx = false ∨ s.slotUsable (slotOf a k) = false ∨ c.an k ≠ (c.an c.txSlot + 1) % 4 then s.ascEnd n 5
        else if (s.gpages g).flip.isSome then s.ascEnd n 8
        else
          let at_ := s.line.sheaf + 1 + max 2 arg
          let at_ := if (s.gpages g).txSwap = some at_ then at_ + 1 else at_
          let s := s.setCtx a (some { c with flipPending := true, flipIndex := c.an k, flipSheaf := at_ })
          let s := s.setPages g (fun p => { p with flip := some (c.trib, at_) })
          let s := s.convey 0x08 (beBytes 2 c.trib ++ beBytes 1 (c.an k) ++ beBytes 1 0 ++ beBytes 6 at_ ++ beBytes 2 0)
          s.startRun 8 n 6 1 0 g

/-- The context command OP with ARG of window n. -/
def State.ascRun (s : State) (n op arg : Nat) : State :=
  let a := s.fld (privKey n Reg.ascCmdAssoc) 15 0
  if op = 0 then s
  else if s.unitBusy 8 n then s.ascEnd n 1
  else if 6 < op then s.ascEnd n 11
  else if s.isFollower ∧ 2 ≤ op then s.ascEnd n 7
  else if n ≠ 0 ∧ s.assocOwner a ≠ n ∧ !(op == 2 && (s.ctx a).isNone) then s.ascEnd n 2
  else match op with
    | 1 => s.ascRead n a
    | 2 => s.ascCreate n a arg
    | 3 => s.ascWrite n a
    | 4 => s.ascDelete n a
    | 5 => s.rotateCmd n a
    | _ => s.flipCmd n a arg

/-- CTX_READ. -/
def execCtxRead (path : Path) (s : State) : Host.Outcome State Fault Refusal :=
  .next (s.cmdWrite (.ctxRead path) path Reg.ascCmd (fun n s => s.ascRun n 1 0))

/-- CTX_CREATE. -/
def execCtxCreate (path : Path) (arg : Fin 16) (s : State) : Host.Outcome State Fault Refusal :=
  .next (s.cmdWrite (.ctxCreate path arg) path Reg.ascCmd (fun n s => s.ascRun n 2 arg.val))

/-- CTX_WRITE. -/
def execCtxWrite (path : Path) (s : State) : Host.Outcome State Fault Refusal :=
  .next (s.cmdWrite (.ctxWrite path) path Reg.ascCmd (fun n s => s.ascRun n 3 0))

/-- CTX_DELETE. -/
def execCtxDelete (path : Path) (s : State) : Host.Outcome State Fault Refusal :=
  .next (s.cmdWrite (.ctxDelete path) path Reg.ascCmd (fun n s => s.ascRun n 4 0))

/-- ROTATE. -/
def execAscRotate (path : Path) (s : State) : Host.Outcome State Fault Refusal :=
  .next (s.cmdWrite (.ascRotate path) path Reg.ascCmd (fun n s => s.ascRun n 5 0))

/-- FLIP. -/
def execAscFlip (path : Path) (arg : Fin 16) (s : State) : Host.Outcome State Fault Refusal :=
  .next (s.cmdWrite (.ascFlip path arg) path Reg.ascCmd (fun n s => s.ascRun n 6 arg.val))

/-- ASC_CMD_UNKNOWN: OP 7 to 15; a lower OP is another row's. -/
def execAscCmdUnknown (path : Path) (op : Fin 16) (s : State) : Host.Outcome State Fault Refusal :=
  if op.val < 7 then .next s
  else .next (s.cmdWrite (.ascCmdUnknown path op) path Reg.ascCmd (fun n s => s.ascRun n op.val 0))

/-! ## Punts (R315, R524) -/

/-- Ring 10 of allotment n can take a frame. -/
def State.bufReady (s : State) (n : Nat) : Bool :=
  s.hif.linkUp && s.ringOn n 10 && !(SMap.get (fun _ => []) s.hif.bufs n).isEmpty

/-- A punted frame is written into the next posted buffer of allotment n. -/
def State.deliverPunt (s : State) (n input : Nat) (f : List Byte) : State :=
  match SMap.get (fun _ => []) s.hif.bufs n with
  | [] => s
  | (addr, len, tag, idx) :: rest =>
    let s := { s with hif := { s.hif with bufs := SMap.set (fun _ => []) s.hif.bufs n rest } }
    let s := s.dma n true addr (f.take len)
    s.complete n tag (if len < f.length then 8 else 0) 0xFF input f.length idx 10

/-- Waiting punts of allotment n go into posted buffers, oldest first. -/
def State.drainPunts (s : State) (n : Nat) : Nat → State
  | 0 => s
  | k + 1 =>
    if s.bufReady n then
      match s.asc.punts.find? (fun p => p.1 == n) with
      | none => s
      | some p =>
        let s := { s with asc := { s.asc with punts := s.asc.punts.erase p } }
        State.drainPunts (s.deliverPunt n p.2.1 p.2.2) n k
    else s

/-- A frame joins the punt queue of 256; the excess is dropped and counted. -/
def State.puntFrame (s : State) (n input : Nat) (f : List Byte) : State :=
  if 256 ≤ s.asc.punts.length then (s.inc (Reg.ascCountLo 9)).noteFor Ev.puntOverflow n (beBytes 2 input)
  else
    let s := { s with asc := { s.asc with punts := s.asc.punts ++ [(n, input, f)] } }
    (s.inc (Reg.ascCountLo 8)).drainPunts n 1

/-! ## Received frames (R313, R315, R323, R324) -/

/-- CLEAR_TAGS of an input: 3 acts as 2. -/
def State.inputTags (s : State) (i : Nat) : Nat := min 2 (s.fld (Reg.ascInputCfg i) 30 29)

/-- The association of a MACsec frame (R313). -/
def State.rxAssoc (s : State) (i : Nat) (t : RxTag) : Option Nat :=
  let cfg := Reg.ascInputCfg i
  if s.flg cfg 31 then some (s.fld cfg 15 0)
  else match s.sciFind ⟨s.fld cfg 19 16, t.sci, 0⟩ with
    | some j => (s.sciAt j).map (·.assoc)
    | none => none

/-- The slot 0 or 1 whose AN the SecTAG has and which is Loaded or Active. -/
def State.rxSlot (s : State) (a : Nat) (c : Ctx) (an : Nat) : Option Nat :=
  [0, 1].find? (fun k => c.an k == an && s.slotUsable (slotOf a k))

/-- Counter c of an association, where it exists, and module counter m rise. -/
def State.rxCount (s : State) (a c m : Nat) : State := (s.modCtx a (fun x => x.bump c 1)).inc (Reg.ascCountLo m)

/-- Tributary t is cloaked (R328) by its KIND 2 association. -/
def State.cloakOf (s : State) (t : Nat) : Option (Nat × Ctx) :=
  if s.flg (Reg.ascTribCloak t) 31 then
    let a := s.fld (Reg.ascTribCloak t) 15 0
    match s.ctx a with
    | some c => if c.kind = 2 ∧ c.trib = t then some (a, c) else none
    | none => none
  else none

/-- Reception of a tributary is cloaked. -/
def State.cloakRx (s : State) (t : Nat) : Bool := match s.cloakOf t with | some (_, c) => c.cloakRx | none => false

/-- The PN a frame carries (R323). -/
def Ctx.rxPn (c : Ctx) (k pn32 : Nat) : Nat := if c.xpn then recoverPn (c.high k + 1 - c.window k) pn32 else pn32

/-- A frame of a decrypt input joins the arrivals. -/
def State.rxArrive (s : State) (f : Frame) : State :=
  { s with sch := { s.sch with arrivals := s.sch.arrivals ++ [f], nextId := s.sch.nextId + 1 } }

/-- A frame that passed the pre-check is dispatched to decrypt pair p: its work item, its output and class (R253, R358). -/
def State.rxDispatch (s : State) (i a k pn p : Nat) (c : Ctx) (tag : Option Nat) (frame : List Byte) : State :=
  let code := slotOf a k
  let tags := s.inputTags i
  let (plain, icv) := c.unprotect (s.keyOf code) tags k pn frame
  let id := s.sch.nextId
  let n := frameBlocks plain.length
  let s := (s.startItem (.decFrame id) [code] n [p]).2
  let s := s.incBy (Reg.cphCountLo 1) n
  let fault := if fcsGood frame = false then 1 else if icv then 0 else 2
  let f := { newFrame s plain i false a c.decOut c.decClass true with
    id := id, slot := code, pn := pn, hold := c.verifyFirst, rxFault := fault, tag := tag, rxLen := frame.length, rxMatch := crc16 (frame.take 64) }
  s.rxArrive f

/-- Why a frame of slot k with a PN is discarded at the pre-check (R324): what is counted; none if it passes. -/
def State.preCheck (s : State) (a k pn : Nat) (c : Ctx) : Option (State → State) :=
  if pn = 0 then some (fun s => s.rxCount a 9 6)
  else if s.rxLimit c k < pn then
    some (fun s =>
      let s := s.rxCount a 10 10
      if c.rxStalled ∨ c.rxAsked = false then s
      else (s.modCtx a (fun c => { c with rxStalled := true })).noteFor Ev.pnMarkStall c.owner (beBytes 2 a))
  else if c.late k pn then some (fun s => s.rxCount a 7 4)
  else none

/-- A MACsec frame (R311, R313, R324, R356, R396). cmd is the command, kept while no decrypt pair can accept it. -/
def State.rxMacsec (s : State) (cmd : Instr) (i : Nat) (tag : Option Nat) (v : Sight) (frame : List Byte) (badCheck : Bool) :
    State :=
  let drop := fun (s : State) (a : Option Nat) => s.observe 8 tag { v with assoc := a } true false
  let tags := s.inputTags i
  let t := parseTag tags frame
  match s.rxAssoc i t with
  | none => drop (s.inc (Reg.ascCountLo 5)) none
  | some a =>
    match s.ctx a with
    | none => drop (s.inc (Reg.ascCountLo 5)) none
    | some c =>
      if c.kind ≠ 1 then drop (s.inc (Reg.ascCountLo 5)) none
      else if tagValid tags frame = false then drop (s.rxCount a 9 6) (some a)
      else
        let s := s.touchCtx a
        match s.rxSlot a c t.an with
        | none => drop (s.rxCount a 8 5) (some a)
        | some k =>
          if s.allotState c.owner = .frozen then drop (s.inc (Reg.hifCountLo 6)) (some a)
          else if c.poisoned then drop (s.inc (Reg.ascCountLo 10)) (some a)
          else if c.dead k ∨ s.mayStart (slotOf a k) = false then drop (s.rxCount a 8 5) (some a)
          else if badCheck then drop ((s.slotCheckFail (slotOf a k)).rxCount a 8 5) (some a)
          else
            let pn := c.rxPn k t.pn
            match s.preCheck a k pn c with
            | some act => drop (act s) (some a)
            | none =>
              match s.freePair 1 with
              | none =>
                if s.ctl.mode.isYoke then drop ((s.inc (Reg.cphCountLo 8)).excuse c.decOut) (some a)
                else { s with held := s.held ++ [cmd] }
              | some p =>
                (s.rxDispatch i a k pn p c tag frame).observe 8 tag { v with assoc := some a, owner := c.owner } false false

/-- A PTP frame without MACsec (R315): to the client output of FIXED_ASSOC under TIMING_BYPASS. In a cloaked tributary it
waits for its sheaf's tag (R332). -/
def State.rxPtp (s : State) (i : Nat) (tag : Option Nat) (frame : List Byte) : State :=
  let a := s.fld (Reg.ascInputCfg i) 15 0
  match s.ctx a with
  | none => s.inc (Reg.ascCountLo 7)
  | some c =>
    if c.timingBypass then
      let waits := decide (32 ≤ i) && s.cloakRx (i - 32)
      s.rxArrive { newFrame s frame i false a c.decOut c.decClass true with
        id := s.sch.nextId, tag := tag, hold := waits, verdict := if waits then none else some true }
    else s.inc (Reg.ascCountLo 7)

/-- An EAPOL frame (R315). -/
def State.rxEapol (s : State) (i : Nat) (frame : List Byte) : State :=
  let cfg := Reg.ascInputCfg i
  let n := s.fld cfg 27 22
  if s.flg cfg 28 = false then (s.inc (Reg.ascCountLo 9)).noteFor Ev.puntOverflow n (beBytes 2 i)
  else if 32 ≤ i ∧ s.cloakRx (i - 32) then
    { s with asc := { s.asc with waitPunts := s.asc.waitPunts ++ [(n, i, frame)] } }
  else s.puntFrame n i frame

/-- A tributary's receiver (R161). -/
def State.tribRx (s : State) (t : Nat) : TribRx := (SMap.get noneOf s.line.tribs t).getD ⟨false, 0⟩

def State.setTribRx (s : State) (t : Nat) (r : TribRx) : State :=
  { s with line := { s.line with tribs := SMap.set noneOf s.line.tribs t (if r = ⟨false, 0⟩ then none else some r) } }

/-- Received rows or frames of a line input are discarded and counted: its group has SF (R168), or MAP_MISMATCH (R186). -/
def State.countLost (s : State) (src : Nat) : State :=
  if (s.group src).sf then s.tally (tallySf src) else if (s.gpages src).mismatch then s.tally (tallyMap src) else s

/-- A line input that delivers nothing counts what it discards. -/
def State.inputLost (s : State) (i : Nat) : State :=
  if i < 16 then s
  else if i < 32 then s.countLost (i - 16)
  else match s.rxGroupOf (i - 32) with
    | some g => s.countLost (s.rxSource g)
    | none => s

/-- The line input exists and delivers frames: an Ethernet group without SF, or a tributary that the receive page maps. -/
def State.lineInput (s : State) (i : Nat) : Bool :=
  if i < 16 then false
  else if i < 32 then s.groupKind (i - 16) == 1 && s.groupUp (i - 16)
  else s.tribCarried (i - 32)

/-- LINE_FRAME_RECEIVE (R161, R313, R315, R324): a frame recovered from line input i, DA through FCS. On a tributary it is the frame
whose header the receiver has met. -/
def execLineFrameReceive (input : Fin 544) (frame : List Byte) (badCheck : Bool) (s : State) :
    Host.Outcome State Fault Refusal :=
  let i := input.val
  if s.lineInput i = false then .next (s.inputLost i)
  else if 32 ≤ i ∧ (s.tribRx (i - 32)).left ≠ frame.length then .next s
  else
    let s := if 32 ≤ i then s.setTribRx (i - 32) ⟨true, 0⟩ else s
    let (tag, s) := s.drawTag
    let v : Sight := ⟨none, s.inputOwner i, i, 0, frame.length, 0⟩
    let s := s.observe 7 tag v false false
    let et := be16 frame (12 + 4 * s.inputTags i)
    .next (if et = 0x88E5 then s.rxMacsec (.lineFrameReceive input frame badCheck) i tag v frame badCheck
      else if et = 0x888E then s.rxEapol i frame
      else if et = 0x88F7 then s.rxPtp i tag frame
      else s.inc (Reg.ascCountLo 7))

/-! ## The final check (R324, R327, R337, R363) -/

/-- The work item of a decrypt frame ends. -/
def State.endDecItem (s : State) (id : Nat) : State :=
  match s.cph.items.find? (fun e => match e.2 with | some i => i.kind == .decFrame id | none => false) with
  | some (k, _) => s.endItem k
  | none => s

/-- An accepted frame (R324): winnow state, counters, marks. -/
def State.acceptFrame (s : State) (f : Frame) (k : Nat) : State :=
  let s := s.modCtx f.assoc (fun c => ((c.accept k f.pn).bump 3 1).bump 4 f.bytes.length)
  (s.inc (Reg.ascCountLo 1)).askRxMark f.assoc

/-- The learn probe of an accepted frame: the port is its association's client output (R229). -/
def State.probeOf (s : State) (f : Frame) : LearnReq :=
  ⟨s.fld (Reg.clsPortCfg f.output) 23 12, beBytes 2 (s.frameVid f.output f.bytes) ++ slice f.bytes 6 6 ++ zeroBytes 4, f.output, f.assoc⟩

/-- An accepted frame may leave once its probe has entered the queue of 1,024; in bypass it has none (R215, R216). -/
def State.releaseFrame (s : State) (f : Frame) : State :=
  if s.clsLive = false then s.setVerdict f.id true
  else if s.cls.probes.length < 1024 then
    ({ s with cls := { s.cls with probes := s.cls.probes ++ [s.probeOf f] } }).setVerdict f.id true
  else { s with cls := { s.cls with probeWait := s.cls.probeWait ++ [(s.probeOf f, f.id)] } }

/-- Part of a frame may have left: an output is sending it (R22). -/
def State.leaving (s : State) (f : Frame) : Bool :=
  s.sch.sending.any (fun e => match e.2 with | some x => x.entry.frame == f.id | none => false)

/-- A frame that fails: one of which part has left is stomped, any other discarded (R22, R324, R327). -/
def State.rejectFrame (s : State) (f : Frame) (c m : Nat) (code : Nat) : State :=
  let s := (s.setVerdict f.id false).modCtx f.assoc (fun x => x.bump c 1)
  let s := (s.inc (Reg.ascCountLo m)).conveyVerdict f code
  let ow := s.assocOwner f.assoc
  let s := if s.leaving f then s.noteFor Ev.rxStomp ow (beBytes 2 f.assoc) else s
  s.observe 9 f.tag ⟨some f.assoc, ow, f.input, f.cls, f.bytes.length, 0⟩ true false

/-- The ICV of a frame fails, or its FCS was bad. -/
def State.icvFail (s : State) (f : Frame) : State :=
  let s := s.noteFor Ev.rxIcvFail (s.assocOwner f.assoc) (beBytes 2 f.assoc)
  let s := s.inc (Reg.ascCountLo 2)
  if s.leaving f then s.rejectFrame f 6 3 f.rxFault else s.rejectFrame f 5 2 f.rxFault

/-- The final check of a frame whose ICV and FCS are good. -/
def State.finalCheck (s : State) (f : Frame) : State :=
  let k := f.slot % 2
  match s.ctx f.assoc with
  | none => s.setVerdict f.id false
  | some c =>
    let s := if c.fresh k ∧ s.isFollower = false then s.primarySwitch f.assoc k else s
    match s.ctx f.assoc with
    | none => s
    | some c =>
      if c.late k f.pn then
        if s.isFollower then (s.setVerdict f.id false).excuse f.output else s.rejectFrame f 7 4 3
      else
        let s := (s.acceptFrame f k).releaseFrame f
        s.observe 9 f.tag ⟨some f.assoc, c.owner, f.input, f.cls, f.bytes.length, 0⟩ false false

/-- A follower's own copy fails where the lead's passed (R435): stomped, excused, and its state is as for a pass. -/
def State.localException (s : State) (f : Frame) : State :=
  let s := ((s.setVerdict f.id false).excuse f.output).tally tallyLocal
  match s.ctx f.assoc with
  | none => s
  | some c => if c.late (f.slot % 2) f.pn then s else s.acceptFrame f (f.slot % 2)

/-- DECRYPT_FINAL_CHECK (R324, R435): the last block of a received frame is verified. A frame that the lead's VERDICT names
already has its verdict. -/
def execDecryptFinalCheck (frame : Nat) (s : State) : Host.Outcome State Fault Refusal :=
  match s.decFrame? frame with
  | none => .next (s.endDecItem frame)
  | some f =>
    if f.encrypt ∨ f.pn = 0 then .next s
    else
      let s := s.endDecItem frame
      if f.verdict.isSome ∨ s.cls.probeWait.any (fun w => w.2 == f.id) then .next s
      else if f.rxFault = 0 then .next (s.finalCheck f)
      else if s.isFollower then .next (s.localException f)
      else .next (s.icvFail f)

/-! ## Tributary delineation (R161) -/

/-- The frame of tributary t whose last cell has not arrived: the newest of its input. -/
def State.partialFrame (s : State) (t : Nat) : Option Frame :=
  (s.sch.frames.filterMap (·.2) ++ s.sch.arrivals ++ (s.yok.buffers.flatMap (·.2))).reverse.find? (fun f =>
    f.input == 32 + t && !f.encrypt && !f.whole)

/-- The frame in progress is discarded, stomped if part of it has left; a lead names it (R428, code 5), a follower's own failure is
a local exception (R435). -/
def State.discardPartial (s : State) (t : Nat) : State :=
  match s.partialFrame t with
  | none => s
  | some f =>
    let s := s.endDecItem f.id
    if s.isFollower then s.localException f
    else if s.sch.arrivals.any (fun x => x.id == f.id && !x.encrypt) then
      ({ s with sch := { s.sch with arrivals := s.sch.arrivals.filter (fun x => x.id != f.id || x.encrypt) } }).notAdmitted f 10
    else ((s.setVerdict f.id false).modFrame f.id (fun x => { x with whole := true })).conveyVerdict f 5

/-- A header error counts in the group that carries the tributary. -/
def State.headerError (s : State) (t : Nat) : State :=
  match s.rxGroupOf t with
  | some g => s.setGroup g (fun x => { x with sec := secAdd x.sec 2 1 })
  | none => s

/-- Following ends: the frame in progress is discarded, and the receiver hunts (R161). -/
def State.tribHunt (s : State) (t : Nat) : State := (s.discardPartial t).setTribRx t ⟨false, 0⟩

/-- Delineation is lost (R161): the frame in progress is discarded, and hunting follows. -/
def State.tribLost (s : State) (t : Nat) : State :=
  (s.tribHunt t).noteFor Ev.tribDelineationLost (s.outOwner (32 + t)) (beBytes 2 t)

/-- TRIB_HEADER (R158, R161): hdr is the 4-byte header, LEN in the upper half; firstGood tells that it is the first
header met in a sheaf with a good FIRST_CRC and a FIRST, atFirst that it stands at FIRST. A first header that is not at FIRST is a
header error after which following restarts at FIRST. -/
def execTribHeader (trib : Fin 512) (hdr : BitVec 32) (firstGood atFirst : Bool) (s : State) :
    Host.Outcome State Fault Refusal :=
  let t := trib.val
  let r := s.tribRx t
  let len := hdr.toNat / 65536
  let hec := hdr.toNat % 65536
  if s.tribCarried t = false then .next ((s.inputLost (32 + t)).tribHunt t)
  else if !r.following && !(firstGood && atFirst) then .next s
  else if r.following && firstGood && !atFirst then .next (((s.headerError t).tribLost t).setTribRx t ⟨true, 0⟩)
  else if hec = crc16 (beBytes 2 len) then
    if len = 0 then .next (s.setTribRx t ⟨true, 0⟩)
    else if 64 ≤ len ∧ len ≤ 9248 then .next (s.setTribRx t ⟨true, len⟩)
    else .next ((s.headerError t).tribLost t)
  else .next ((s.headerError t).tribLost t)

/-! ## Write-back and retirement -/

/-- CTX_WRITEBACK (R306): a cached context is written back to HBM. -/
def execCtxWriteback (assoc : Fin 65536) (s : State) : Host.Outcome State Fault Refusal :=
  .next (if s.asc.cache.contains assoc.val then s.writeBack assoc.val else s)

/-- OLD_HOLD_EXPIRY (R337): OLD_HOLD_LEFT reaches 0; the other slot is erased through Fallow. A follower waits for the
lead's ASC_EVENT. -/
def execOldHoldExpiry (assoc : Fin 65536) (s : State) : Host.Outcome State Fault Refusal :=
  let a := assoc.val
  match s.ctx a with
  | none => .next s
  | some c =>
    if c.holdLeft = 0 ∨ s.now < c.holdLeft ∨ s.isFollower then .next s
    else
      let k := 1 - c.txSlot
      let s := s.setCtx a (some { c with holdLeft := 0 })
      let s := (s.eraseSlot (slotOf a k) .nobody).1
      let s := s.convey 0x07 (beBytes 2 a ++ beBytes 1 3 ++ beBytes 1 k ++ zeroBytes 4)
      .next (s.noteFor Ev.oldSlotRetired c.owner (beBytes 2 a ++ beBytes 1 k))

/-! ## The cloak (R328 to R333) -/

/-- The counter block of sheaf S, tributary t, END e with Q (R329). -/
def cloakBlock (e : Bool) (t sheaf q : Nat) : List Byte :=
  [0xC7#8] ++ beBytes 1 (flag e * 128 + t / 256) ++ beBytes 1 t ++ beBytes 6 sheaf ++ zeroBytes 4 ++ beBytes 3 q

/-- The cloaked bytes of a tributary in a sheaf. -/
def cloakText (key : List Byte) (e : Bool) (t sheaf : Nat) (text : List Byte) : List Byte :=
  Config.ctr key (cloakBlock e t sheaf 1) text

/-- TAG of R330. -/
def cloakTag (key : List Byte) (e : Bool) (t sheaf : Nat) (c : List Byte) : List Byte :=
  xorBytes (slice (Config.ghash (Config.aes key (zeroBytes 16)) (c ++ zeroBytes 8 ++ beBytes 8 (8 * c.length))) 0 16)
    (slice (Config.aes key (cloakBlock e t sheaf 0)) 0 16)

/-- A received sheaf was winnowed, or seen, before (R333). -/
def Ctx.sheafLate (c : Ctx) (n : Nat) : Bool :=
  decide (n + 64 ≤ c.sheafTop) || (decide (n ≤ c.sheafTop) && c.sheafMap.testBit (c.sheafTop - n))

/-- A sheaf whose tag verified sets its bit. -/
def Ctx.sheafSeen (c : Ctx) (n : Nat) : Ctx :=
  if c.sheafTop < n then { c with sheafTop := n, sheafMap := c.sheafMap * 2 ^ (n - c.sheafTop) % 2 ^ 64 ||| 1 }
  else { c with sheafMap := c.sheafMap ||| 2 ^ (c.sheafTop - n) }

/-- One more tag failure in sheaf n; the tally holds the newest sheaf's and the one before. -/
def TagTally.add (x : TagTally) (n : Nat) : TagTally :=
  if n = x.sheaf then { x with fails := min 256 (x.fails + 1) }
  else if n + 1 = x.sheaf then { x with before := min 256 (x.before + 1) }
  else if n = x.sheaf + 1 then ⟨n, 1, x.fails⟩
  else if n < x.sheaf then x else ⟨n, 1, 0⟩

/-- The failures of sheaf n. -/
def TagTally.of (x : TagTally) (n : Nat) : Nat := if n = x.sheaf then x.fails else if n + 1 = x.sheaf then x.before else 0

/-- A tag failure of tributary t in sheaf n is noted for FE_TAG_FAILS and FE_LAST_TRIB (R143). -/
def State.noteTagFail (s : State) (t n : Nat) : State :=
  match s.rxGroupOf t with
  | none => s
  | some g =>
    { s with asc := { s.asc with
        tagFails := SMap.set noneOf s.asc.tagFails g (some (((SMap.get noneOf s.asc.tagFails g).getD ⟨0, 0, 0⟩).add n))
        lastTrib := SMap.set zeroOf s.asc.lastTrib g (t + 1) } }

/-- A lead names a sheaf that it does not accept (R428). -/
def State.conveySheaf (s : State) (t sheaf code : Nat) : State :=
  s.convey 0x03 (beBytes 2 t ++ beBytes 6 sheaf ++ beBytes 1 code ++ zeroBytes 3)

/-- CLOAK_TAG_FAIL, at most once per second for a tributary (R332). -/
def State.cloakTagFailed (s : State) (a t : Nat) : State :=
  match s.ctx a with
  | none => s
  | some c =>
    let s := s.rxCount a 13 11
    let due := match c.tagFailAt with | some x => decide (x + 1000000000 ≤ s.now) | none => true
    if due then (s.modCtx a (fun c => { c with tagFailAt := some s.now })).noteFor Ev.cloakTagFail c.owner (beBytes 2 t) else s

/-- The slot of a received CLOAK_CUR (R331, R390). -/
def State.cloakSlot (s : State) (a : Nat) (c : Ctx) (cur : Nat) : Option Nat :=
  [0, 1].find? (fun k => c.an k == cur && s.mayStart (slotOf a k))

/-- The cloak key index received for group row i in sheaf n (R145, R147): the last good headland's, changed at the announced flip. -/
def State.rxIndex (s : State) (g i n : Nat) : Nat :=
  let l := s.lane (16 + s.rxLane g (i / 32))
  let due := match l.flipAt with | some f => decide (f ≤ n) | none => false
  (if due then l.cloakNext else l.cloakCur) / 4 ^ (i % 32) % 4

/-- The key index of tributary t in sheaf n: that of its row with the lowest group row index (R147). -/
def State.rxKeyIndex (s : State) (t n : Nat) : Nat :=
  match s.rxGroupOf t with
  | none => 0
  | some g =>
    match (s.groupRows g).find? (fun i => let e := s.rcmEntry (s.gpages g).rxActive g i; entryUsed e && entryTrib e == t) with
    | some i => s.rxIndex (s.rxSource g) i n
    | none => 0

/-- The pairs that a received sheaf of tributary t runs on (R357): those assigned at the last sheaf start that still serve. -/
def State.rxPairsOf (s : State) (t : Nat) : List Nat :=
  let ps := (SMap.get nilOf s.asc.rxPairs t).filter (s.serving 3).contains
  if ps.isEmpty ∧ s.asc.shortRx.contains t = false then (s.serving 3).take 1 else ps

/-- A cloaked sheaf for which no pair serves fails its tag at once (R357); on a follower that is a local exception (R435). -/
def State.sheafUnserved (s : State) (a t n : Nat) : State :=
  if s.isFollower then ((s.modCtx a (fun c => c.sheafSeen n)).tribLost t).tally tallyLocal
  else (((s.cloakTagFailed a t).noteTagFail t n).conveySheaf t n 4).tribLost t

/-- CLOAK_SHEAF_RECEIVE (R147, R329, R331, R333, R357): data is the sheaf's ciphertext of tributary t, tag its TAG. Its plaintext
reaches delineation as TRIB_HEADER and LINE_FRAME_RECEIVE. -/
def execCloakSheafReceive (trib : Fin 512) (sheaf : BitVec 48) (data tag : List Byte) (badCheck : Bool)
    (s : State) : Host.Outcome State Fault Refusal :=
  let t := trib.val
  let n := sheaf.toNat
  match s.cloakOf t with
  | none => .next s
  | some (a, c) =>
    if c.cloakRx = false then .next s
    else if s.tribCarried t = false then .next ((s.inputLost (32 + t)).tribHunt t)
    else if c.sheafLate n then .next (((s.rxCount a 14 12).conveySheaf t n 3).tribHunt t)
    else
      match s.cloakSlot a c (s.rxKeyIndex t n) with
      | none =>
        let s := ((s.modCtx a (fun c => c.bump 15 1)).conveySheaf t n 2).noteFor Ev.cloakKeyUnknown c.owner (beBytes 2 t)
        .next (s.tribHunt t)
      | some k =>
        let code := slotOf a k
        if badCheck then
          .next (((s.slotCheckFail code).modCtx a (fun c => c.bump 15 1)).conveySheaf t n 2 |>.tribHunt t)
        else
          let ps := s.rxPairsOf t
          if ps.isEmpty then .next (s.sheafUnserved a t n)
          else
            let ok := decide (slice tag 0 16 = cloakTag (s.keyOf code) (!c.cloakEnd) t n data)
            let blocks := (data.length + 15) / 16 + 2
            let s := (s.startItem (.cloakRx t) [code] blocks ps).2
            let s := s.incBy (Reg.cphCountLo 3) blocks
            .next { s with asc := { s.asc with rxSheaf := SMap.set noneOf s.asc.rxSheaf t (some (n, code, ok)) } }

/-- Bare frames and punts of a tributary that waited for a sheaf tag are released, or dropped (R332). -/
def State.settleBare (s : State) (t : Nat) (ok : Bool) : State :=
  let mine := fun (f : Frame) => !f.encrypt && f.input == 32 + t && f.pn == 0 && f.hold && f.verdict.isNone
  let put := fun (f : Frame) => if mine f then { f with verdict := some ok } else f
  let s := { s with sch := { s.sch with
    arrivals := s.sch.arrivals.map put,
    frames := s.sch.frames.map (fun (e : Nat × Option Frame) => (e.1, e.2.map put)) } }
  let ps := s.asc.waitPunts.filter (fun (p : Nat × Nat × List Byte) => p.2.1 == 32 + t)
  let s := { s with asc := { s.asc with waitPunts := s.asc.waitPunts.filter (fun (p : Nat × Nat × List Byte) => p.2.1 != 32 + t) } }
  if ok then ps.foldl (fun (s : State) (p : Nat × Nat × List Byte) => s.puntFrame p.1 p.2.1 p.2.2) s else s

/-- The work item of a received cloak sheaf ends. -/
def State.endCloakItem (s : State) (t : Nat) : State :=
  match s.cph.items.find? (fun e => match e.2 with | some i => i.kind == .cloakRx t | none => false) with
  | some (k, _) => s.endItem k
  | none => s

/-- A received sheaf fails its tag (R332, R347). On a follower that is a local exception: it fills FE_TAG_FAILS from the lead's
items, and its state stands as for a pass (R435). -/
def State.sheafFail (s : State) (a t n : Nat) : State :=
  let s := (s.settleBare t false).tribLost t
  if s.isFollower then (s.modCtx a (fun c => c.sheafSeen n)).tally tallyLocal
  else ((s.cloakTagFailed a t).noteTagFail t n).conveySheaf t n 1

/-- CLOAK_TAG_CHECK (R330, R332, R333): the sheaf of tributary t ends. -/
def execCloakTagCheck (trib : Fin 512) (s : State) : Host.Outcome State Fault Refusal :=
  let t := trib.val
  match SMap.get noneOf s.asc.rxSheaf t with
  | none => .next s
  | some (n, code, ok) =>
    let a := code / 2
    let s := { s with asc := { s.asc with rxSheaf := SMap.set noneOf s.asc.rxSheaf t none } }
    let s := s.endCloakItem t
    if ok then .next ((s.modCtx a (fun c => (c.sheafSeen n).bump 12 1)).settleBare t true)
    else .next (s.sheafFail a t n)

end Sys2Proof.Machine
end

