-- ==== Sys2Proof/Machine/TimeOps.lean ====
section
/-! DEFINITION. Operations on time channels (chapter 14) that several meanings share: counting, block maps, steps. -/

namespace Sys2Proof.Machine

open Sys2Proof

/-- Channel c changed. -/
def State.setChan (s : State) (c : Nat) (f : Channel → Channel) : State :=
  { s with tim := { s.tim with chans := modAt f s.tim.chans c } }

/-- One second, and the wrap of a 48-bit seconds count, in units of 2^-40 ns. -/
def secUnits : Nat := 1000000000 * 2 ^ 40
def chanWrap : Nat := 2 ^ 48 * secUnits

/-- The part of a slew that n ns add, at SLEW_PPM (R460). -/
def Channel.slewPart (c : Channel) (n : Nat) : Int :=
  let m : Nat := c.slewPpm * n * 2 ^ 40 / 1000000
  if 0 ≤ c.slew then min c.slew (Int.ofNat m) else max c.slew (-Int.ofNat m)

/-- A carry clock after n ns of Time's own cycles (R455): its rate, and what a running slew adds. -/
def Channel.advance (c : Channel) (n : Nat) : Channel :=
  if c.st = .stopped then c
  else
    let d := c.slewPart n
    { c with value := (((c.value : Int) + n * (2 ^ 40 + c.freq) + d) % chanWrap).toNat, slew := c.slew - d }

/-- Every carry clock after n ns. Offset-rate channels slew; their value is computed when used (R457). -/
def State.advanceTime (s : State) (n : Nat) : State :=
  let f := fun (p : Nat × Channel) =>
    if p.1 < 12 then p.2.advance n
    else
      let d := p.2.slewPart n
      { p.2 with offO := p.2.offO + d, slew := p.2.slew - d }
  { s with tim := { s.tim with chans := ((List.range s.tim.chans.length).zip s.tim.chans).map f } }

/-- RATE of a sheaf that began at channel value c0 and ended at c1, in 2^-32 ns per block, rounded (R466). -/
def mapRate (c0 c1 : Nat) : Nat := ((c1 - c0) * 2 + 256 * 20500) / (2 * 256 * 20500)

/-- The block map of sheaf k + 3 of channel c, fixed at block 0 of sheaf k, where the channel has value v (R466). -/
def Channel.fixMap (c : Channel) (k v : Nat) : Channel :=
  match c.mapC with
  | none => { c with mapC := some v }
  | some v0 =>
    let r := mapRate v0 v
    { c with mapC := some v, maps := ((k + 3, v / 256 + 61500 * r, r) :: c.maps).take 5 }

/-- Bytes 4 to 27 of a TIMEMAP item (R428). -/
def timemapBytes (c sheaf t rate : Nat) : List Byte :=
  let ns := t / 2 ^ 32
  beBytes 1 c ++ beBytes 1 0 ++ beBytes 6 sheaf ++ beBytes 6 (ns / 1000000000) ++ beBytes 4 (ns % 1000000000) ++
  beBytes 2 (t / 65536 % 65536) ++ beBytes 4 rate

/-- A channel whose values a follower takes from the lead (R467). -/
def State.mapped (s : State) (c : Nat) : Bool := s.isFollower && (s.chan c).source == 4

/-- Value and rate of a follower's channel from the map of a sheaf, where it has one. -/
def Channel.fromMap (c : Channel) (sheaf : Nat) : Channel :=
  match c.maps.find? (fun m => m.1 == sheaf) with
  | none => c
  | some (_, t, r) => { c with st := .running, value := t * 256, freq := (r : Int) * 800 - 2 ^ 40 }

/-- A follower's SOURCE 4 channel takes the map of sheaf k (R467); a jump by more than 1 µs costs its gate lists their time (R268). -/
def State.takeMap (s : State) (c k : Nat) : State :=
  let x := s.chan c
  let y := x.fromMap k
  let s := s.setChan c (fun _ => y)
  if x.st = .stopped then (if y.st = .stopped then s else s.gatesResume c)
  else if 1000 * 2 ^ 40 < ((y.value : Int) - (x.value : Int)).natAbs then (s.gatesLost c).gatesResume c
  else s

/-- BLOCK_MAP_FIX at block 0 of sheaf k, for each running carry clock (R466); a lead conveys the maps (R429). A follower fixes
none: its maps are the lead's, and its SOURCE 4 channels take the map of sheaf k (R467). -/
def State.blockMaps (s : State) (k : Nat) : State :=
  (List.range 12).foldl (fun s c =>
    if s.mapped c then s.takeMap c k
    else if s.isFollower then s
    else if (s.chan c).st = .stopped then s.setChan c (fun x => { x with mapC := none })
    else
      let s := s.setChan c (fun x => x.fixMap k x.value)
      match (s.chan c).maps with
      | (n, t, r) :: _ => if n = k + 3 then s.convey 0x0C (timemapBytes c n t r) else s
      | [] => s) s

end Sys2Proof.Machine
end

