-- ==== Sys2Proof/Machine/Framer.lean ====
section
/-! DEFINITION. The framer (chapters 05 and 06): transmit sheaves with their headlands, tributary payload and cloak
assignment, and what a received headland does. -/

namespace Sys2Proof.Machine

open Sys2Proof

/-! ## Sheaf marks (R151 to R153) -/

/-- E of R151: 20 to 28. -/
def State.sheafExp (s : State) : Nat := clamp 20 28 (s.fld Reg.lnfSheafCfg 4 0)

/-- SHEAF_MARK_STALL: no sheaf starts until a higher mark is durable (R153). -/
def State.sheafStall (s : State) : State :=
  if s.line.stalled then s
  else ({ s with line := { s.line with stalled := true } }).raise Ev.sheafMarkStall

/-- A store of a new sheaf mark is requested, which a lead conveys (R151, R438); a mark above 2^48 − 1 stalls (R153). -/
def State.storeSheafMark (s : State) (m : Nat) : State :=
  if 2 ^ 48 - 1 < m then s.sheafStall
  else
    let (s, ok) := s.requestStore (recordStore .reservation (.sheafMark m))
    if ok then ({ s with line := { s.line with markAsked := some m } }).conveyMark 3 0 m else s

/-- Sheaf S has started: at M − 2^(E−1) a new mark is requested (R151). A follower stores what the lead conveys. -/
def State.askSheafMark (s : State) : State :=
  let h := 2 ^ (s.sheafExp - 1)
  if s.isFollower ∨ s.line.markAsked.isSome ∨ s.line.sheaf + h < s.line.mark then s
  else s.storeSheafMark (s.line.sheaf + 3 * h)

/-- A mark takes effect: durable here, and at the twin where a lead waits for it (R438, R153). -/
def State.sheafMarkInForce (s : State) (m : Nat) : State :=
  let l := s.line
  let up := decide (l.mark < m)
  { s with line := { l with
      mark := max l.mark m, markAsked := if l.markAsked = some m then none else l.markAsked
      stalled := l.stalled && !up } }

/-- The store of a sheaf mark is durable. -/
def State.sheafMarkDurable (s : State) (m : Nat) : State :=
  let put := fun (w : MarkWait) => if w.kind = 3 ∧ w.mark ≤ m then { w with stored := true } else w
  let s := { s with mram := { s.mram with sheafMark := max s.mram.sheafMark m }
                    yok := { s.yok with marks := s.yok.marks.map put } }
  (if s.markWaits 3 0 m then s else s.sheafMarkInForce m).dropMarks

/-- S starts at the durable mark, and a mark 2^E above it is stored before the first sheaf (R152); a mark above 2^48 − 1 raises
SHEAF_MARK_STALL (R153). -/
def State.resumeSheaf (s : State) : State :=
  let m := s.mram.sheafMark
  let next := m + 2 ^ s.sheafExp
  let s := { s with line := { s.line with
    sheaf := m, mark := m, markAsked := none, stalled := s.isFollower || decide (next < 2 ^ 48), sending := false } }
  if s.isFollower then s else s.storeSheafMark next

/-! ## Tributary payload (R157 to R160) -/

/-- Idle words of n bytes. -/
def idleWords (n : Nat) : List Byte := (List.replicate (n / 4) [0x00#8, 0x00#8, 0x1D#8, 0x0F#8]).flatten

/-- What fills an item area from offset pos to its end: the bytes, the offset from which an item may not be sent as it
is, the offset of the first header, and what is left. going tells that the first item is in progress. -/
def fillArea (room pos : Nat) (going : Bool) :
    List (Bool × List Byte) → List Byte × Option Nat × Option Nat × List (Bool × List Byte)
  | [] => (idleWords room, none, none, [])
  | (h, b) :: rest =>
    if going = false ∧ room = 0 then ([], none, none, (false, []) :: (h, b) :: rest)
    else if room < b.length then
      (b.take room, if h ∧ 0 < room then some pos else none, if going then none else some pos, (h, b.drop room) :: rest)
    else
      let (bs, hole, first, left) := fillArea (room - b.length) (pos + b.length) false rest
      (b ++ bs, if h ∧ b ≠ [] then some pos else hole, if going then first else some pos, left)

/-- The tributary's first 4 bytes: FIRST and its CRC-8 (R157). -/
def firstBytes (first : Option Nat) : List Byte :=
  let f := beBytes 3 (match first with | some o => o + 4 | none => 0xFFFFFF)
  f ++ beBytes 1 (crcMsb 8 0x07 0 f)

/-- The byte of a k-row tributary that goes out at an instant of the present sheaf (R154, R155). -/
def State.byteAt (s : State) (k ns : Nat) : Nat :=
  let blk := (ns - s.line.sheafAt) * 25 / 8
  if blk ≤ 20 then 0 else (blk - 20) / 32 * (8 * k)

/-- The running cloak item of tributary t on transmit. -/
def State.cloakItem (s : State) (t : Nat) : Option (Nat × Item) :=
  (s.cph.items.filterMap (fun e => e.2.bind (fun i => if i.kind == .cloakTx t then some (e.1, i) else none))).head?

/-- The least of the offsets from which a tributary's sheaf is zeros (R347, R436). -/
def State.zeroFrom (s : State) (t k : Nat) (hole : Option Nat) : Option Nat :=
  let zs := (s.yok.zeroed.filter (fun z => z.1 == t)).map (fun z => s.byteAt k z.2)
  let zs := match hole with | some h => (h + 4) :: zs | none => zs
  match zs with
  | [] => none
  | z :: r => some (r.foldl min z)

/-- The 5,120k bytes of tributary t in the sheaf that ends, and whether they are those that the yoke's decisions
define (R157, R160, R330, R357, R436). -/
def State.tribBytes (s : State) (t k : Nat) : List Byte × Bool × List (Bool × List Byte) :=
  let size := 5120 * k
  if s.asc.shortTx.contains t then (zeroBytes size, false, s.txItems t)
  else
    let (area, hole, first, rest) := fillArea (size - 20) 0 true (s.txItems t)
    let rest := if rest.all (fun x => x.2.isEmpty) then [] else rest
    let plain := firstBytes first ++ area
    let cloaked := match s.cloakOf t with | some (_, c) => c.cloakTx | none => false
    let cut := s.zeroFrom t k hole
    match cut with
    | some z =>
      let body := match s.cloakItem t, s.cloakOf t with
        | some (_, i), some (_, c) => cloakText (i.keys.headD []) c.cloakEnd t s.line.sheaf plain
        | _, _ => if cloaked then zeroBytes (size - 16) else plain
      (body.take z ++ zeroBytes (size - min z (size - 16)), false, rest)
    | none =>
      match s.cloakItem t, s.cloakOf t with
      | some (_, i), some (_, c) =>
        let key := i.keys.headD []
        let ct := cloakText key c.cloakEnd t s.line.sheaf plain
        (ct ++ cloakTag key c.cloakEnd t s.line.sheaf ct, true, rest)
      | _, _ => if cloaked then (zeroBytes size, false, rest) else (plain ++ zeroBytes 16, true, rest)

/-- Line transmitters are off: a mute of the module or of the yoke. -/
def State.lineOff (s : State) : Bool := s.muted || s.yok.muted

/-- The groups whose rows are sent: Glafold, enabled; a protection group follows its working group. -/
def State.sentGroups (s : State) : List Nat :=
  (List.range 16).filter (fun g => s.isGlafold g && s.groupEnabled g)

/-- Rows of a group carry traffic (R148, R188): not in Ready, nor on a protection group whose bridge is off. -/
def State.rowsCarry (s : State) (g : Nat) : Bool :=
  s.ctl.mode != .ready &&
  (match s.pairOfProtect g with
   | some k => (s.pair k).bridge == 1
   | none => true)

/-- One tributary of group g ends its sheaf: its bytes leave on the group's rows and, bridged, on its protection group's;
the digest takes them (R188, R441, R442). -/
def State.sendTrib (s : State) (g t : Nat) : State :=
  let (bs, whole, rest) := s.tribBytes t (s.tribRows g t)
  let s := { s with asc := { s.asc with txItems := SMap.set (fun _ => []) s.asc.txItems t rest } }
  let s := match s.cloakItem t with | some (id, _) => s.endItem id | none => s
  if s.lineOff ∨ s.line.sheafOff then s.excuse (32 + t)
  else
    let s := if s.rowsCarry g then s.emit (.trib t g bs) else s
    let s := match s.pairOfWorking g with
      | some k =>
        let h := s.pairProtect k
        if s.groupEnabled h ∧ s.rowsCarry h then s.emit (.trib t h bs) else s
      | none => s
    if whole then s.digest (32 + t) (beBytes 8 s.line.sheaf ++ bs) else s.excuse (32 + t)

/-- Tributary t on lane index i of group g: its rows of the lane with their place among its rows in ascending group row index
(R154, R155). -/
def State.laneTrib (s : State) (g i t : Nat) (bs : List Byte) : LaneTrib :=
  let p := s.pageGroup g
  let rows := (s.groupRows g).filter (fun j =>
    let e := s.tcmEntry (s.gpages p).txActive p j
    entryUsed e && entryTrib e == t)
  let here := ((List.range rows.length).zip rows).filterMap (fun (x : Nat × Nat) =>
    if x.2 / 32 = i then some (x.2 % 32, x.1) else none)
  ⟨bs, rows.length, here⟩

/-- What lane index i of group g has sent in the sheaf that ends, with headland h and the tributaries' bytes (R137, R138, R156). A
group whose rows carry no traffic sends 0x00 in them (R148, R188). -/
def State.laneSheaf (s : State) (g i : Nat) (h : List Byte) (tribs : List (Nat × List Byte)) : LaneSheaf :=
  let lane := (s.groupLanes g).getD i 0
  ⟨lane, i, s.line.sheaf, s.flg (Reg.lnfLaneCtrl (16 + lane)) 9, h, tribs.map (fun x => s.laneTrib g i x.1 x.2)⟩

/-- The tributaries that a list of outputs sends on group g. -/
def tribsOn (g : Nat) (os : List Output) : List (Nat × List Byte) :=
  os.filterMap (fun o => match o with | .trib t h bs => if h = g then some (t, bs) else none | _ => none)

/-- The sheaf in progress ends: every tributary's bytes have left, and with them the sheaf of every lane that sent its headland. -/
def State.endSheaf (s : State) : State :=
  if s.line.sending = false then s
  else
    let n := s.out.length
    let s := (s.sentGroups.filter (fun g => (s.pairOfProtect g).isNone)).foldl
      (fun s g => (s.txTribs g).foldl (fun s t => s.sendTrib g t) s) s
    let sent := s.out.drop n
    let s := if s.lineOff then s
      else s.line.heads.foldl (fun (s : State) (x : Nat × Nat × List Byte) =>
        s.emit (.lane (s.laneSheaf x.1 x.2.1 x.2.2 (tribsOn x.1 sent)))) s
    { s with yok := { s.yok with zeroed := [] }, line := { s.line with sending := false, heads := [] } }

/-! ## The start of a sheaf -/

/-- Tributaries that lost all their rows end; a frame in progress is stomped (R182): one whose item is under way, and one that the
output still sends, whose bytes are then not sent. -/
def State.dropTribs (s : State) (ts : List Nat) : State :=
  ts.foldl (fun s t =>
    let busy := (SMap.get noneOf s.sch.sending (32 + t)).isSome
    let s := if (s.txItems t).isEmpty && !busy then s else ((s.emit (.stomped (32 + t))).tally (tallyStomp t)).excuse (32 + t)
    let s := match SMap.get noneOf s.sch.sending (32 + t) with
      | some x => { s with sch := { s.sch with sending := SMap.set noneOf s.sch.sending (32 + t) (some { x with stomp := true, drop := true }) } }
      | none => s
    { s with asc := { s.asc with txItems := SMap.set (fun _ => []) s.asc.txItems t [] } }) s

/-- Page swaps due in sheaf n (R180, R182, R201). -/
def State.sheafSwaps (s : State) (n : Nat) : State :=
  let before := s.sentGroups.flatMap s.txTribs
  let s := s.swapsDue n
  let after := s.sentGroups.flatMap s.txTribs
  s.dropTribs (before.filter (fun t => !after.contains t))

/-- CLOAK_FLIP: the flip of group g takes effect in sheaf n (R338, R341). -/
def State.flipNow (s : State) (g t n : Nat) : State :=
  let s := s.setPages g (fun p => { p with flip := none })
  let s := match s.cloakOf t with
    | some (a, c) =>
      (s.setCtx a (some { c with txSlot := 1 - c.txSlot, flipPending := false })).noteFor Ev.cloakFlip c.owner (beBytes 2 t ++ beBytes 6 n)
    | none => s
  match s.kvt.runs.find? (fun r => r.unit == 8 && r.op == 6 && r.arg == g) with
  | some r => (s.endRun 8 r.win).ascEnd r.win 0
  | none => s

/-- Flips due in sheaf n, but for the groups whose pages swapped in it (R183, R341). -/
def State.sheafFlips (s : State) (n : Nat) (swapped : List Nat) : State :=
  (List.range 16).foldl (fun s g =>
    match (s.gpages g).flip with
    | some (t, f) => if f ≤ n ∧ swapped.contains g = false then s.flipNow g t n else s
    | none => s) s

/-- Cloaked tributaries of the transmit pages in ascending id with their rows. -/
def State.cloakedTx (s : State) : List (Nat × Nat) :=
  let ts := (s.sentGroups.filter (fun g => (s.pairOfProtect g).isNone)).flatMap
    (fun g => (s.txTribs g).map (fun t => (t, s.tribRows g t)))
  (List.range 512).filterMap (fun t =>
    match s.cloakOf t with
    | some (_, c) => if c.cloakTx then ts.find? (fun x => x.1 == t) else none
    | none => none)

/-- Cloaked tributaries that are received, in ascending id with their rows. -/
def State.cloakedRx (s : State) : List (Nat × Nat) :=
  (List.range 512).filterMap (fun t => if s.cloakRx t ∧ 0 < s.rxTribRows t then some (t, s.rxTribRows t) else none)

/-- The transmit pairs of each cloaked tributary in the sheaf that begins. -/
def State.txAssignment (s : State) : List (Nat × List Nat) := assignPairs (s.serving 2) 0 s.cloakedTx

/-- Tributaries that an assignment leaves unserved. -/
def unserved (as : List (Nat × List Nat)) : List Nat := (as.filter (fun x => x.2.isEmpty)).map (·.1)

/-- CLOAK_ASSIGN (R357): CPH_CAPACITY_SHORT is raised once for an episode. -/
def State.cloakAssign (s : State) : State :=
  let rxs := assignPairs (s.serving 3) 0 s.cloakedRx
  let tx := unserved s.txAssignment
  let rx := unserved rxs
  let short := !(tx.isEmpty && rx.isEmpty)
  let was := s.asc.shortEp
  let s := { s with asc := { s.asc with
    shortTx := tx, shortRx := rx, shortEp := short
    rxPairs := rxs.foldl (fun m x => SMap.set nilOf m x.1 x.2) [] } }
  if short && !was then s.raise Ev.cphCapacityShort else s

/-- The cloak work of one tributary starts (R358); one whose key slot starts no work item sends zeros. -/
def State.startCloak (s : State) (x : Nat × List Nat) (k : Nat) : State :=
  match s.cloakOf x.1 with
  | some (a, c) =>
    let code := slotOf a c.txSlot
    if s.mayStart code then
      ((s.startItem (.cloakTx x.1) [code] (320 * k + 1) x.2).2).incBy (Reg.cphCountLo 2) (320 * k + 1)
    else { s with yok := { s.yok with zeroed := s.yok.zeroed ++ [(x.1, s.now)] } }
  | none => s

/-- The cloak work of the tributaries that are served starts (R357, R358). -/
def State.startCloaks (s : State) : State :=
  (s.cloakedTx.zip s.txAssignment).foldl (fun s x =>
    if x.2.2.isEmpty then s.excuse (32 + x.1.1) else s.startCloak x.2 x.1.2) s

/-! ## Headlands (R143 to R150) -/

/-- WIDTH code of a number of lanes. -/
def widthCode (w : Nat) : Nat := if w = 1 then 0 else if w = 2 then 1 else if w = 4 then 2 else 3

/-- Cloak key index in force for group row i, and after the announced flip (R147). -/
def State.rowIndex (s : State) (g i : Nat) : Nat × Nat :=
  let p := s.pageGroup g
  let e := s.tcmEntry (s.gpages p).txActive p i
  if entryUsed e then
    match s.cloakOf (entryTrib e) with
    | some (_, c) => if c.cloakTx then (c.an c.txSlot, if c.flipPending then c.flipIndex else c.an c.txSlot) else (0, 0)
    | none => (0, 0)
  else (0, 0)

/-- CLOAK_CUR or CLOAK_NEXT of lane index i of a group. -/
def State.cloakField (s : State) (g i : Nat) (next : Bool) : List Byte :=
  beBytes 8 (((List.range 32).map (fun r =>
    (if next then (s.rowIndex g (32 * i + r)).2 else (s.rowIndex g (32 * i + r)).1) * 4 ^ r)).sum)

/-- APS bytes that a group sends: those of its enabled pair, else zeros (R192). -/
def State.apsBytes (s : State) (g : Nat) : List Byte :=
  match (s.pairOfWorking g).orElse (fun _ => s.pairOfProtect g) with
  | none => zeroBytes 3
  | some k =>
    let p := s.pair k
    beBytes 1 (p.sent * 16 + flag (s.pairArch k) * 8 + flag (s.pairDir k) * 4) ++ beBytes 1 p.sentSig ++ beBytes 1 p.bridge

/-- PAGE of a group in sheaf n (R180, R181, R189). -/
def State.pageByte (s : State) (g n : Nat) : Nat :=
  let p := s.gpages (s.pageGroup g)
  match p.txSwap with
  | some t => p.txActive * 128 + (1 - p.txActive) * 64 + (t - n) % 16
  | none => p.txActive * 128 + p.txActive * 64

/-- STATUS of a group (R148). -/
def State.headStatus (s : State) (g : Nat) : Nat :=
  let rdi := (s.flg (Reg.lnfGrpCtrl g) 3 && (s.group g).sf) || s.flg (Reg.lnfGrpCtrl g) 4
  flag rdi * 128 + flag (!s.rowsCarry g) * 64

/-- The receive lane of a group that carries lane index i. -/
def State.rxLaneOf (s : State) (g i : Nat) : Lane :=
  (((s.groupLaneIds g).map s.lane).find? (fun l => l.tagIdx == i)).getD Lane.reset

/-- The lane of a group in SYNC with the lowest lane index (R186, R192). -/
def State.leadLane (s : State) (g : Nat) : Option Nat :=
  let ls := (s.groupLaneIds g).filter (fun n => match (s.lane n).align with | .sync _ => true | _ => false)
  (List.range 8).findSome? (fun i => ls.find? (fun n => (s.lane n).tagIdx == i))

/-- FE_TAG_FAILS of group g (R143): the failures of the last sheaf completed on its receive side, the one before the sheaf that
arrives. -/
def State.feTagFails (s : State) (g : Nat) : Nat :=
  match s.leadLane (s.rxSource g), SMap.get noneOf s.asc.tagFails g with
  | some n, some x => if (s.lane n).prevSheaf = 0 then 0 else x.of ((s.lane n).prevSheaf - 1)
  | _, _ => 0

/-- The 160 bytes of the headland of lane index i of group g; unc is FE_FEC_UNC. -/
def State.headlandBytes (s : State) (g i unc : Nat) : List Byte :=
  let n := s.line.sheaf
  let lane := (s.groupLanes g).getD i 0
  let pg := s.pageGroup g
  let act := (s.gpages pg).txActive
  let flip := match (s.gpages pg).flip with | some (_, f) => if n < f then f - n else 0 | none => 0
  let l := s.rxLaneOf g i
  let echo := if s.timeEn then beBytes 2 l.echoSheaf ++ beBytes 6 l.echo else zeroBytes 8
  let body :=
    beBytes 6 n ++ beBytes 1 (g * 16 + widthCode (s.groupWidth g)) ++ beBytes 1 (i * 32 + lane) ++
    beBytes 4 (s.rd (Reg.lnfGrpTraceTx g)).toNat ++ beBytes 1 (s.headStatus g) ++ beBytes 1 (s.pageByte g n) ++
    beBytes 2 (s.txMapCrc act pg) ++ beBytes 2 (s.txMapCrc (1 - act) pg) ++ s.apsBytes g ++ zeroBytes 3 ++
    s.cloakField g i false ++ s.cloakField g i true ++ beBytes 1 flip ++ zeroBytes 3 ++
    beBytes 2 (s.feTagFails g) ++ beBytes 2 ((SMap.get zeroOf s.asc.lastTrib g + 65535) % 65536) ++
    beBytes 2 unc ++ zeroBytes 2 ++ beBytes 6 s.headTime ++ echo ++ zeroBytes 82
  markerBytes ++ [quarterCodes.getD (n % 4) 0] ++ beBytes 1 (i * 32 + (7 - i) * 4 + 2) ++ body ++ beBytes 4 (crc32 body)

/-- The bytes of a headland that the digest covers (R441). -/
def headDigest (h : List Byte) : List Byte := slice h 8 12 ++ slice h 21 35 ++ slice h 58 2 ++ slice h 74 82

/-- TIME_TX is held for the last 64 transmit sheaves (R475). -/
def State.keepTimeTx (s : State) (g : Nat) : State :=
  if s.timeEn then
    let old := s.tim.txHist.filter (fun h => h.1 != g || decide (s.line.sheaf < h.2.1 + 64))
    { s with tim := { s.tim with txHist := (g, s.line.sheaf, s.headTime) :: old } }
  else s

/-- The headlands of group g leave; unc gives FE_FEC_UNC by line lane. -/
def State.sendHeadlands (s : State) (unc : List Nat) (g : Nat) : State :=
  let hs := (List.range (s.groupWidth g)).map (fun i =>
    s.headlandBytes g i (unc.getD (s.rxLane g i) 0))
  let s := s.keepTimeTx g
  if s.lineOff then s.excuse (544 + g)
  else
    let s := ((List.range hs.length).zip hs).foldl (fun (s : State) (x : Nat × List Byte) =>
      ({ s with line := { s.line with heads := s.line.heads ++ [(g, x.1, x.2)] } }).emit (.headland g x.1 x.2)) s
    s.digest (544 + g) (beBytes 8 s.line.sheaf ++ hs.flatMap headDigest)

/-! ## SHEAF_START -/

/-- The sheaf timer runs: lines are driven in this mode (R96, R139, R148). -/
def State.sheafTimer (s : State) : Bool :=
  match s.ctl.mode with
  | .ready | .service | .yokeLead | .yokeFollower | .yokeResync => s.boot.image.isSome
  | _ => false

/-- An 8-sheaf digest interval ends with sheaf 8k + 7 (R441). -/
def State.nextInterval (s : State) (n : Nat) : State :=
  if s.ctl.mode.isYoke ∧ n / 8 ≠ s.yok.cur.no then
    { s with yok := { s.yok with past := s.yok.past ++ [s.yok.cur], cur := ⟨n / 8, [], []⟩ } }
  else s

/-- Sheaf n begins. -/
def State.beginSheaf (s : State) (n : Nat) (unc : List Nat) : State :=
  let s := { s with line := { s.line with sheaf := n, sheafAt := s.now, sending := true, sheafOff := s.lineOff, heads := [] } }
  let s := s.nextInterval n
  let swapped := (List.range 16).filter (fun g => match (s.gpages g).txSwap with | some t => decide (t ≤ n) | none => false)
  let s := (s.sheafSwaps n).sheafFlips n swapped
  let s := (s.evalPairs.blockMaps n).cloakAssign.startCloaks
  let s := s.sentGroups.foldl (fun s g => s.sendHeadlands unc g) s
  s.askSheafMark

/-- SHEAF_START (R139, R141 and the steps within it): the present sheaf's rows have left, and the next sheaf starts on
every Glafold group unless its number is not reserved (R153). fecUnc gives the uncorrected codewords of the last
completed sheaf on each physical line lane (FE_FEC_UNC). -/
def execSheafStart (fecUnc : List Nat) (s : State) : Host.Outcome State Fault Refusal :=
  if s.sheafTimer = false then .next s
  else
    let s := s.endSheaf
    if s.line.stalled then
      .next (if s.isFollower ∨ s.line.markAsked.isSome then s else s.storeSheafMark (s.line.mark + 2 ^ s.sheafExp))
    else if s.isFollower = false ∧ s.line.mark ≤ s.line.sheaf then .next s.sheafStall
    else .next (s.beginSheaf (s.line.sheaf + 1) fecUnc)

/-! ## HEADLAND_RECEIVE: alignment (R162 to R164) -/

/-- HL_CRC is good (R144). -/
def headGood (h : List Byte) : Bool := slice h 156 4 == beBytes 4 (crc32 (slice h 8 148))

/-- What a good headland tells of its lane. -/
def takeTags (h : List Byte) (l : Lane) : Lane :=
  { l with tagIdx := ofBe (slice h 7 1) / 32, rxGroup := ofBe (slice h 14 1) / 16, rxWidth := ofBe (slice h 14 1) % 4 }

/-- A lane loses alignment: LOA is declared (R163). -/
def State.declareLoa (s : State) (n : Nat) : State :=
  let s := s.touchLane n (fun l => { l with align := .hunt, loa := true, dropRows := true, jump := none })
  (s.setFlg (Reg.lnfLaneStatus n) 1 true).noteFor Ev.laneLoa (s.laneOwner n) (beBytes 1 n)

/-- A lane reaches SYNC: LOA is cleared (R163). -/
def State.reachSync (s : State) (n : Nat) : State :=
  let was := (s.lane n).loa
  let s := s.setLane n (fun l => { l with align := .sync 0, loa := false, dropRows := false, jump := none, windows := true })
  if was then s.noteFor Ev.laneClear (s.laneOwner n) (beBytes 1 2) else s

/-- PRESYNC (R162). -/
def State.presyncHead (s : State) (n count : Nat) (h : List Byte) : State :=
  let no := ofBe (slice h 8 6)
  if markerMatches (h.take 8) ∧ headGood h ∧ no = (s.lane n).prevSheaf + 1 then
    let s := s.setLane n (fun l => takeTags h { l with
      prevSheaf := no, arrive := s.now, echoSheaf := no, echo := s.headTime, codePhase := quarterPhase (h.getD 6 0)
      align := .presync (count + 1) })
    if 3 ≤ count + 1 then s.reachSync n else s
  else s.setLane n (fun l => { l with align := .hunt })

/-- The sheaf number of a good headland in SYNC (R164): the expected one; a new numbering that two consecutive good
headlands agree on; else SHEAF_JUMP, and the lane's rows are discarded. -/
def State.followNumber (s : State) (n no : Nat) : State :=
  let l := s.lane n
  if no = l.prevSheaf + 1 ∨ l.jump = some no then
    s.setLane n (fun l => { l with prevSheaf := no, jump := none, dropRows := false })
  else
    (s.setLane n (fun l => { l with prevSheaf := l.prevSheaf + 1, jump := some (no + 1), dropRows := true })).noteFor
      Ev.sheafJump (s.laneOwner n) (beBytes 1 n ++ beBytes 6 no)

/-! ## HEADLAND_RECEIVE: group fields -/

/-- TRACE and RDI (R166). -/
def State.headTrace (s : State) (g : Nat) (h : List Byte) : State :=
  let trace := ofBe (slice h 16 4)
  let rdi := (ofBe (slice h 20 1)).testBit 7
  let same := decide (trace = (s.rd (Reg.lnfGrpTraceExp g)).toNat)
  let was := s.group g
  let bad := if same then 0 else was.traceBad + 1
  let good := if same then was.traceGood + 1 else 0
  let on := if rdi then was.rdiOn + 1 else 0
  let off := if rdi then 0 else was.rdiOff + 1
  let tim := if s.flg (Reg.lnfGrpCtrl g) 5 && decide (3 ≤ bad) then true else if 3 ≤ good then false else was.tim
  let rx := if 3 ≤ on then true else if 3 ≤ off then false else was.rdiRx
  let s := s.wr (Reg.lnfGrpTraceRx g) (BitVec.ofNat 32 trace)
  let s := s.setGroup g (fun x => { x with
    traceBad := min 3 bad, traceGood := min 3 good, rdiOn := min 3 on, rdiOff := min 3 off, tim := tim, rdiRx := rx })
  let ow := s.outOwner (16 + g)
  let s := if tim && !was.tim then s.noteFor Ev.groupTim ow (beBytes 1 g) else s
  if rx != was.rdiRx then s.noteFor Ev.groupRdi ow (beBytes 1 g ++ beBytes 1 (flag rx)) else s

/-- Far-end counts (R172, the table of LNF_GRP_SEC): FE_TAG_FAILS from lane index 0, FE_FEC_UNC from every lane. -/
def State.headFarEnd (s : State) (n g : Nat) (h : List Byte) : State :=
  let s := s.setGroup g (fun x => { x with sec := secAdd x.sec 1 (ofBe (slice h 56 2)) })
  if (s.lane n).tagIdx = 0 then
    s.setGroup g (fun x => { x with
      sec := secAdd x.sec 0 (ofBe (slice h 52 2))
      head := { x.head with feTagFails := ofBe (slice h 52 2), feLastTrib := ofBe (slice h 54 2) } })
  else s

/-- CLOAK_CUR, CLOAK_NEXT and FLIP_IN of a lane's good headland of sheaf no (R147), and the group's MUTED. FLIP_IN is kept as the
flip's sheaf, so that the sheaves left to it fall by 1 in each later sheaf (R145). -/
def State.headCloak (s : State) (n g no : Nat) (h : List Byte) : State :=
  let f := ofBe (slice h 48 1)
  let s := s.setLane n (fun l => { l with
    cloakCur := ofBe (slice h 32 8), cloakNext := ofBe (slice h 40 8), flipAt := if f = 0 then none else some (no + f) })
  s.setGroup g (fun x => { x with head := { x.head with muted := (ofBe (slice h 20 1)).testBit 6 } })

/-- Rows of one tributary that disagree once every lane of the group has delivered a sheaf's headland:
KEYIDX_MISMATCH (R147). -/
def State.checkIndices (s : State) (g : Nat) : State :=
  let ls := (s.groupLaneIds g).map s.lane
  if ls.any (fun l => l.prevSheaf != (ls.map (·.prevSheaf)).headD 0) then s
  else
    let pg := s.pageGroup g
    let rows := (s.groupRows g).filterMap (fun i =>
      let e := s.rcmEntry (s.gpages pg).rxActive pg i
      if entryUsed e then some (entryTrib e, s.rxIndex g i ((ls.map (·.prevSheaf)).headD 0)) else none)
    let bad := (rows.map (·.1)).eraseDups.filter (fun t =>
      let v := (rows.filter (fun r => r.1 == t)).map (·.2)
      v.any (fun x => x != v.headD 0))
    bad.foldl (fun s t => s.noteFor Ev.keyidxMismatch (s.outOwner (32 + t)) (beBytes 2 t)) s

/-- A group whose sheaves the receive selector does not take reports nothing of its pages. -/
def State.selected (s : State) (g : Nat) : Bool := s.rxSource (s.pageGroup g) == g

/-- The receive page of pg changes over: RX_PAGE_SWAP; a lead conveys it (R184, R428). -/
def State.rxSwapNow (s : State) (pg n : Nat) : State :=
  let s := s.setPages pg (fun p => { p with rxActive := 1 - p.rxActive, rxSwap := none })
  let s := s.note Ev.rxPageSwap (beBytes 1 pg ++ beBytes 6 n)
  s.convey 0x0D (beBytes 1 3 ++ beBytes 1 pg ++ beBytes 1 (s.gpages pg).rxActive ++ zeroBytes 3 ++ beBytes 6 n)

/-- An announced receive swap takes effect in received sheaf n (R184). -/
def State.rxSwapDue (s : State) (g n : Nat) : State :=
  let pg := s.pageGroup g
  match (s.gpages pg).rxSwap with
  | some t => if (s.isFollower || s.selected g) ∧ t ≤ n then s.rxSwapNow pg n else s
  | none => s

/-- PAGE of a good headland of sheaf n, on the group that the receive selector takes (R184, R185). A follower swaps by RIX items
alone (R435). -/
def State.headSwap (s : State) (g n : Nat) (h : List Byte) : State :=
  let pg := s.pageGroup g
  let b := ofBe (slice h 21 1)
  if s.selected g = false ∨ s.isFollower then s
  else if 0 < b % 16 then
    if (s.gpages pg).rxSwap.isSome then s
    else
      let s := s.setPages pg (fun p => { p with rxSwap := some (n + b % 16) })
      if s.rxMapCrc (1 - (s.gpages pg).rxActive) pg = ofBe (slice h 24 2) then s
      else s.noteFor Ev.rxMapMismatch (s.outOwner (16 + pg)) (beBytes 1 pg)
  else if b / 128 ≠ (s.gpages pg).rxActive then
    (s.rxSwapNow pg n).noteFor Ev.rxSwapLate (s.outOwner (16 + pg)) (beBytes 1 pg)
  else s

/-- ACTIVE_MAP_CRC of a good headland against the active receive page of its group (R186, R188). -/
def State.headMap (s : State) (g : Nat) (h : List Byte) : State :=
  let pg := s.pageGroup g
  let p := s.gpages g
  let same := decide (s.rxMapCrc (s.gpages pg).rxActive pg = ofBe (slice h 22 2))
  let bad := if same then 0 else p.mapBad + 1
  let good := if same then p.mapGood + 1 else 0
  let mm := if 3 ≤ bad then true else if 3 ≤ good then false else p.mismatch
  let s := s.setPages g (fun p => { p with mapBad := min 3 bad, mapGood := min 3 good, mismatch := mm })
  if mm && !p.mismatch then s.noteFor Ev.rxMapMismatch (s.outOwner (16 + g)) (beBytes 1 g) else s

/-- A received APS set, from its three bytes. -/
def apsOf (h : List Byte) : ApsSet :=
  let b := ofBe (slice h 26 1)
  ⟨b / 16, ofBe (slice h 27 1), ofBe (slice h 28 1), b / 8 % 2, b / 4 % 2⟩

/-- Request codes that are used, and valid signals (R191, R192). -/
def ApsSet.valid (a : ApsSet) : Bool :=
  !([0x3, 0x4, 0x6, 0x8, 0xA, 0xC].contains a.req) && decide (a.sig ≤ 1) && decide (a.bridged ≤ 1)

/-- PERSIST of a pair: 2 to 15. -/
def State.persist (s : State) (k : Nat) : Nat := max 2 (s.fld (Reg.rixPairCfg k) 15 12)

/-- APS_FAR_ACCEPT (R193, R194): a set that persists becomes the far request of pair k. -/
def State.apsAccept (s : State) (k : Nat) (a : ApsSet) (bytes : Nat) : State :=
  let was := s.pair k
  let mm := decide (a.arch ≠ flag (s.pairArch k)) || decide (a.dir ≠ flag (s.pairDir k))
  let s := s.setPair k (fun p => { p with far := a, farSet := true, mismatch := mm })
  let s := s.wr (Reg.rixApsRx k) (BitVec.ofNat 32 bytes)
  if mm && !was.mismatch then s.note Ev.pairConfigMismatch (beBytes 1 k) else s

/-- The APS bytes of a good headland on the protection group of an enabled pair. While that group has SF no set is accepted
(R193). -/
def State.headAps (s : State) (g : Nat) (h : List Byte) : State :=
  match s.pairOfProtect g with
  | none => s
  | some k =>
    if s.isFollower then s
    else
      let a := apsOf h
      let p := s.pair k
      if a.valid then
        let c := if p.cand = some a then p.candCount + 1 else 1
        let s := s.setPair k (fun p => { p with cand := some a, candCount := min 15 c, farInvalid := false })
        if s.persist k ≤ c ∧ (s.group g).sf = false ∧ (p.far ≠ a ∨ p.farSet = false) then s.apsAccept k a (ofBe (slice h 26 3)) else s
      else
        let s := s.setPair k (fun p => { p with cand := none, candCount := 0, farInvalid := true })
        if p.farInvalid then s else s.note Ev.apsFarInvalid (beBytes 1 k)

/-- The differential delay of a pair's groups, from the arrivals of their lead lanes (R190). -/
def State.headSkew (s : State) (g : Nat) : State :=
  match s.pairOfProtect g with
  | none => s
  | some k =>
    match s.leadLane g, s.leadLane (s.pairWorking k) with
    | some a, some b =>
      let p := s.lane a
      let w := s.lane b
      let d : Int := ((p.arrive : Int) - w.arrive) - ((p.prevSheaf : Int) - w.prevSheaf) * 6560
      let n := d.natAbs
      let was := s.pair k
      let s := s.setPair k (fun p => { p with skewBlocks := n * 25 / 8, skewExcess := decide (19680 < n) })
      let s := s.wr (Reg.rixPairSkew k) (BitVec.ofNat 32 (flag (decide (0 < d)) * 2 ^ 31 + min 65535 n))
      if 19680 < n ∧ was.skewExcess = false then s.note Ev.pairSkewExcess (beBytes 1 k) else s
    | _, _ => s

/-- A difference of two times in 2^-16 ns, modulo 2^32 ns, signed (R475). -/
def timeDiff (a b : Nat) : Int :=
  let d : Nat := (a + 2 ^ 48 - b % 2 ^ 48) % 2 ^ 48
  if d < 2 ^ 47 then Int.ofNat d else Int.ofNat d - 2 ^ 48

/-- A headland without usable time words: after 64 of them DELAY is invalid (R475). -/
def State.badEcho (s : State) (g : Nat) : State :=
  let c := SMap.get zeroOf s.tim.badEcho g + 1
  let s := { s with tim := { s.tim with badEcho := SMap.set zeroOf s.tim.badEcho g (min 64 c) } }
  if 64 ≤ c then s.wr (Reg.timLinkDelay g) 0xFFFFFFFF#32 else s

/-- LINK_DELAY_UPDATE (R475), from lane index 0. Results are rounded down to 2^-4 ns. -/
def State.headDelay (s : State) (n g : Nat) (h : List Byte) : State :=
  if s.flg Reg.lnfTimeCfg 8 = false ∨ (s.lane n).tagIdx ≠ 0 then s
  else
    let t3 := ofBe (slice h 60 6)
    let t2 := ofBe (slice h 68 6)
    let hist := s.tim.txHist.find? (fun x => x.1 == g && x.2.1 % 65536 == ofBe (slice h 66 2))
    match hist with
    | some (_, _, t1) =>
      if t3 = 0 ∨ t2 = 0 then s.badEcho g
      else
        let t4 := s.headTime
        let delay := (timeDiff t4 t1 - timeDiff t3 t2) / 2
        let off := (timeDiff t2 t1 - timeDiff t4 t3) / 2
        let s := { s with tim := { s.tim with badEcho := SMap.set zeroOf s.tim.badEcho g 0 } }
        let s := s.wr (Reg.timLinkDelay g) (BitVec.ofNat 32 (unsigned32 (delay / 4096)))
        s.wr (Reg.timLinkOffset g) (BitVec.ofNat 32 (unsigned32 (off / 4096)))
    | none => s.badEcho g
/-- The fields of a good headland of lane n, group g, sheaf no (R145). -/
def State.actOnHead (s : State) (n g no : Nat) (h : List Byte) : State :=
  let accepted := !(s.lane n).dropRows
  let s := (s.headFarEnd n g h).headCloak n g no h
  let s := s.headDelay n g h
  let s := if s.leadLane g = some n then
      let s := s.headTrace g h
      let s := if accepted then (s.rxSwapDue g no).headSwap g no h else s
      let s := s.headMap g h
      ((s.headAps g h).headSkew g)
    else s
  s.checkIndices g

/-- A sheaf of lane n whose headland is not used: the numbering goes on, a jump's as well (R145, R164). -/
def Lane.skip (l : Lane) : Lane := { l with prevSheaf := l.prevSheaf + 1, jump := l.jump.map (· + 1) }

/-- SYNC (R162 to R164, R145). -/
def State.syncHead (s : State) (n g misses : Nat) (h : List Byte) : State :=
  if markerMatches (h.take 8) = false then
    let s := s.setLane n (fun l => { l.skip with sec := secAdd l.sec 4 1, dropRows := true })
    if 4 ≤ misses + 1 then s.declareLoa n
    else
      let s := s.setLane n (fun l => { l with align := .sync (misses + 1) })
      if s.leadLane g = some n then s.rxSwapDue g (s.lane n).prevSheaf else s
  else
    let s := s.setLane n (fun l => { l with align := .sync 0, arrive := s.now, codePhase := quarterPhase (h.getD 6 0) })
    if headGood h then
      let no := ofBe (slice h 8 6)
      (s.setLane n (fun l => takeTags h { l with echoSheaf := no, echo := s.headTime })).followNumber n no |>.actOnHead n g no h
    else
      let s := s.setLane n (fun l => { l.skip with sec := secAdd l.sec 3 1, dropRows := l.jump.isSome })
      if s.leadLane g = some n then s.rxSwapDue g (s.lane n).prevSheaf else s

/-- HEADLAND_RECEIVE (R145, R162 to R164 and the steps within it): 160 bytes at an expected marker position of a line
lane, descrambled. -/
def execHeadlandReceive (lane : Fin 32) (headland : List Byte) (s : State) : Host.Outcome State Fault Refusal :=
  let n := lane.val
  match s.groupOfLane n with
  | none => .next s
  | some g =>
    if s.isGlafold g = false then .next s
    else
      let old := s.laneGroupFlags n
      match (s.lane n).align with
      | .presync c => .next ((s.presyncHead n c headland).laneChanged n old)
      | .sync m => .next ((s.syncHead n g m headland).laneChanged n old)
      | _ => .next s

end Sys2Proof.Machine
end

