-- ==== Sys2Proof/Machine/Flags.lean ====
section
/-! DEFINITION. What a write does to the fields of a register, by their access types (R8, R12). -/

namespace Sys2Proof.Machine

open Sys2Proof

/-- One field after a write of val over old, with the block's LOCK bit as given (R8). WO fields are kept where a later
command reads them. -/
def FieldRow.write (f : FieldRow) (old val : Word) (locked : Bool) : Nat :=
  let o := bits old f.hi f.lo
  let v := bits val f.hi f.lo
  match f.acc with
  | .ro | .rc => o
  | .rw | .wo => v
  | .w1c => o - (o &&& v)
  | .w1s => o ||| v
  | .rwl => if locked then o else v

/-- A register after a write: reserved bits stay 0 (R6). -/
def mergeWrite (fields : List FieldRow) (old val : Word) (locked : Bool) : Word :=
  fields.foldl (fun w f => setBits w f.hi f.lo (f.write old val locked)) 0

/-- A write to these fields meets the block's LOCK bit (R12). -/
def lockHit (fields : List FieldRow) (locked : Bool) : Bool := locked && fields.any (fun f => f.acc == .rwl)

/-- The bits of a register that read as 0: those of its WO fields (R8). -/
def woMask (fields : List FieldRow) : Word :=
  fields.foldl (fun w f => if f.acc = .wo then w ||| maskBits f.hi f.lo else w) 0

/-- The bits of a register that a read clears (R8). -/
def rcMask (fields : List FieldRow) : Word :=
  fields.foldl (fun w f => if f.acc = .rc then w ||| maskBits f.hi f.lo else w) 0

/-- The bits that no PRESET mask may cover: all but RW, WO, W1S and RWL (R75). -/
def presetForbidden (fields : List FieldRow) : Word :=
  fields.foldl (fun w f => match f.acc with
    | .rw | .wo | .w1s | .rwl => w &&& ~~~(maskBits f.hi f.lo)
    | _ => w) 0xFFFFFFFF#32

end Sys2Proof.Machine
end

