-- ==== Sys2Proof/Machine/Ledger.lean ====
section
/-! DEFINITION. The Ledger's commands and events (chapter 17): folding, staging, the log, the calibration page, counter
snapshots. -/

namespace Sys2Proof.Machine

open Sys2Proof

/-! ## Folding and batches -/

/-- FOLD_CLOSE (R544): FOLD_MS has passed since the oldest open record's first occurrence. -/
def execFoldClose (s : State) : Host.Outcome State Fault Refusal :=
  let due := match s.led.opened with
    | o :: _ => decide (o.first + s.foldNs ≤ s.now)
    | [] => false
  let (led, lost) := if due then s.led.closeOldest s.now else (s.led, false)
  let s := { s with led := led }
  if lost then
    let s := s.stageLost
    .next (if s.led.stageReportDue s.now then
      ({ s with led := { s.led with stageLostAt := some s.now } }).note Ev.logStageLost
    else s)
  else .next s

/-- A record inserted by SEQ. -/
def insertSeq (r : Staged) : List Staged → List Staged
  | [] => [r]
  | x :: xs => if r.rcd.seq < x.rcd.seq then r :: x :: xs else x :: insertSeq r xs

/-- Records in order of SEQ. -/
def sortSeq (rs : List Staged) : List Staged := rs.foldl (fun acc r => insertSeq r acc) []

/-- A log batch waits or is being stored. -/
def State.batchOut (s : State) : Bool :=
  s.st.queue.any (fun r => r.cls == .logBatch) || (match s.st.mram with | some r => r.cls == .logBatch | none => false)

/-- A batch is due: 64 records are staged, or one closed 10 ms ago (R547). -/
def Ledger.batchDue (l : Ledger) (now : Nat) : Bool :=
  decide (64 ≤ l.staged.length) || l.staged.any (fun x => decide (x.since + 10000000 ≤ now))

/-- The records of the next batch: the up to 64 staged ones of lowest SEQ, in that order (R547). -/
def Ledger.batch (l : Ledger) : List Staged := (sortSeq l.staged).take 64

/-- BATCH_OFFER (R547, R550, R553): a due batch is offered as one store. One batch is outstanding at a time; a refused one
stays staged. -/
def execBatchOffer (s : State) : Host.Outcome State Fault Refusal :=
  let l := s.led
  if l.scanned = false ∨ l.frozen ∨ l.unhealthy ∨ s.batchOut ∨ l.batchDue s.now = false then .next s
  else
    let rs := l.batch
    let (s2, ok) := s.requestStore ⟨.logBatch, costLogBatch, .logBatch (rs.map (·.rcd)), .nobody, false⟩
    .next (if ok then { s2 with led := { s2.led with staged := s2.led.staged.filter (fun x => !rs.contains x) } } else s2)

/-- Records that were offered are staged again, and due at once. -/
def restaged (rs : List EvRec) : List Staged := rs.map (fun r => ⟨0, r⟩)

/-! ## The log (R548, R549) -/

/-- Blocks and slots of the log. -/
def logBlocks : Nat := 3072
def logSlots : Nat := 196608

/-- The records of block b. -/
def Ledger.blockRecs (l : Ledger) (b : Nat) : List EvRec :=
  l.log.filterMap (fun e => if e.1 / 64 = b then e.2 else none)

/-- A block is released: every record in it has SEQ at most the durable mark. -/
def Ledger.released (l : Ledger) (b : Nat) : Bool :=
  match l.mark with
  | some m => (l.blockRecs b).all (fun r => decide (r.seq ≤ m))
  | none => l.blockRecs b == []

/-- The block's level is at most lvl. -/
def Ledger.levelAtMost (l : Ledger) (b lvl : Nat) : Bool := (l.blockRecs b).all (fun r => decide (r.level ≤ lvl))

/-- The first block after the current one, in ring order, that a record of a level may take. -/
def Ledger.freeBlock (l : Ledger) (lvl : Nat) : Option Nat :=
  ((List.range (logBlocks - 1)).map (fun j => (l.block + 1 + j) % logBlocks)).find? (fun b => l.levelAtMost b lvl || l.released b)

/-- A record placed in a slot of the log. -/
def Ledger.place (l : Ledger) (slot : Nat) (r : EvRec) : Ledger := { l with log := SMap.set noneOf l.log slot (some r) }

/-- A record is appended; it is discarded and counted when no block qualifies. -/
def State.appendRec (s : State) (r : EvRec) : State :=
  let l := s.led
  if l.fill < 64 then { s with led := { l.place (l.block * 64 + l.fill) r with fill := l.fill + 1 } }
  else
    match l.freeBlock r.level with
    | some b =>
      let l := { l with log := SMap.dropRange l.log (b * 64) (b * 64 + 64), block := b, fill := 1 }
      { s with led := l.place (b * 64) r }
    | none =>
      let s := s.setFld Reg.logLost 15 0 (satAdd 65535 (s.fld Reg.logLost 15 0) 1)
      let due := match l.fullAt with
        | none => true
        | some t => decide (t + 1000000000 ≤ s.now)
      if due then ({ s with led := { s.led with fullAt := some s.now } }).note Ev.logFull else s

/-- The records of a batch that is durable enter the log; the count of failed read-backs restarts (R553). -/
def State.appendBatch (s : State) (rs : List EvRec) : State :=
  let s := rs.foldl State.appendRec s
  { s with led := { s.led with verifyFails := 0 } }

/-- A batch store has failed its read-back: its records are staged again; two in a row make the log unhealthy (R553). -/
def State.batchFailed (s : State) (rs : List EvRec) : State :=
  let n := s.led.verifyFails + 1
  let s := { s with led := { s.led with verifyFails := n, staged := restaged rs ++ s.led.staged } }
  if 2 ≤ n ∧ s.led.unhealthy = false then
    ({ s with led := { s.led with unhealthy := true, staged := [] } }).note Ev.logUnhealthy
  else s

/-- The slot that holds the highest SEQ. -/
def Ledger.newest (l : Ledger) : Option Nat :=
  (l.log.foldl (fun (best : Option (Nat × Nat)) (e : Nat × Option EvRec) =>
    match e.2 with
    | none => best
    | some r => match best with
      | some (q, k) => if r.seq < q then some (q, k) else some (r.seq, e.1)
      | none => some (r.seq, e.1)) none).map (·.2)

/-- The slots of block b up to its last record. -/
def Ledger.fillOf (l : Ledger) (b : Nat) : Nat :=
  l.log.foldl (fun (m : Nat) (e : Nat × Option EvRec) => if e.1 / 64 = b ∧ e.2.isSome then max m (e.1 % 64 + 1) else m) 0

/-- LOG_SCAN (R549, R553): the Boot scan ends; good tells that the log reads back. The current block is the one that holds
the highest SEQ, and the next record goes behind its last one. -/
def execLogScan (good : Bool) (s : State) : Host.Outcome State Fault Refusal :=
  let b := match s.led.newest with
    | some k => k / 64
    | none => 0
  let f := s.led.fillOf b
  .next <| if s.led.scanned then s else { s with led := { s.led with
    scanned := true, block := b, fill := f
    unhealthy := s.led.unhealthy && !(s.ctl.resetCause == 0 && good) } }

/-! ## Commands -/

/-- A write of LOG_CMD: busy gives CODE 1; every command clears the arm (R571). The act learns whether it was armed. -/
def State.logWrite (s : State) (p : Path) (op : Nat) (act : Bool → State → State) : State :=
  let armed := s.isArmed 14
  s.hostWrite p Reg.logCmd (BitVec.ofNat 32 op) (fun s =>
    if s.led.cmd.isSome then s.result Reg.logResult 1 else act armed s)

/-- LOG_FREEZE (R550): a batch that has not started is staged again, so that no record is written. -/
def execLogFreeze (path : Path) (s : State) : Host.Outcome State Fault Refusal :=
  .next (s.logWrite path 1 (fun _ s =>
    if s.led.frozen then s.result Reg.logResult 2
    else
      let back := s.st.queue.flatMap (fun (r : StoreReq) => match r.pay with | .logBatch rs => rs | _ => [])
      let s := { s with
        st := { s.st with queue := s.st.queue.filter (fun (r : StoreReq) => !(r.cls == StoreClass.logBatch)) }
        led := { s.led with frozen := true, freezeStart := s.now, staged := restaged back ++ s.led.staged } }
      (s.note Ev.logFrozen).result Reg.logResult 0))

/-- A freeze ends (R550): cause 1 THAW, 2 expiry, 3 a power-fail sequence. -/
def State.thawLog (s : State) (cause : Nat) : State :=
  if s.led.frozen then
    ({ s with led := { s.led with frozen := false } }).note Ev.logThawed (beBytes 1 cause ++ beBytes 4 (s.fld Reg.logLost 31 16))
  else s

/-- LOG_THAW (R550). -/
def execLogThaw (path : Path) (s : State) : Host.Outcome State Fault Refusal :=
  .next (s.logWrite path 2 (fun _ s =>
    if s.led.frozen then (s.thawLog 1).result Reg.logResult 0 else s.result Reg.logResult 2))

/-- FREEZE_EXPIRY (R550): FREEZE_MS has passed. -/
def execFreezeExpiry (s : State) : Host.Outcome State Fault Refusal :=
  .next (if s.led.freezeStart + clamp 1 10000 (s.fld Reg.logFreezeMs 15 0) * 1000000 ≤ s.now then s.thawLog 2 else s)

/-- RELEASE (R549): one record store of 2 mJ; it completes when the store is durable. -/
def execLogRelease (path : Path) (s : State) : Host.Outcome State Fault Refusal :=
  .next (s.logWrite path 3 (fun _ s =>
    let n := min (s.rd Reg.logArg).toNat (s.led.seq - 1)
    if s.led.seq = 0 ∨ (match s.led.mark with | some m => decide (n ≤ m) | none => false) = true then s.result Reg.logResult 0
    else
      let (s, ok) := s.requestStore (recordStore .otherRec (.releaseMark n) (.unit 14 0))
      if ok then { s with led := { s.led with cmd := some 3 } } else s.result Reg.logResult 9))

/-- Slot i of the log as 64 bytes; a free slot is all 0x00. -/
def Ledger.slotBytes (l : Ledger) (i : Nat) : List Byte :=
  match SMap.get noneOf l.log i with
  | some r => r.bytes
  | none => zeroBytes 64

/-- COPY_OUT (R552): all slots in order go to the buffer at LOG_HOST under allotment 0's PASID; dmaOk tells that the host
bus takes the writes. -/
def execCopyOut (path : Path) (dmaOk : Bool) (s : State) : Host.Outcome State Fault Refusal :=
  .next (s.logWrite path 4 (fun _ s =>
    if dmaOk && s.hif.linkUp then
      let addr := (s.rd Reg.logHostLo).toNat / 4096 * 4096 + (s.rd Reg.logHostHi).toNat * 2 ^ 32
      (s.dma 0 true addr ((List.range logSlots).flatMap s.led.slotBytes)).result Reg.logResult 0
    else ((s.inc (Reg.hifCountLo 5)).noteFor Ev.hifDmaError 0).result Reg.logResult 7))

/-! ## The calibration page (R564 to R566) -/

/-- Words of the page that must be zero: reserved bytes of whole words. -/
def calReserved (i : Nat) : Bool := i == 3 || (decide (8 ≤ i) && decide (i ≤ 15)) || (decide (1874 ≤ i) && decide (i ≤ 16382))

/-- CRC-32 over bytes 0x0000 to 0xFFFB of a page read by word. -/
def calCrc (w : Nat → Word) : Nat := crc32 ((List.range 16383).flatMap (fun i => beBytes 4 (w i).toNat))

/-- Word i of a page is wrong: MAGIC, FORMAT, a reserved byte, SERIAL, or CRC. -/
def calWordBad (w : Nat → Word) (i : Nat) : Bool :=
  match i with
  | 0 => w 0 != 0x534C4341#32
  | 1 => bits (w 1) 31 16 != 1 || bits (w 1) 7 0 != 0
  | 4 => w 4 != (Config.serial.extractLsb' 32 32)
  | 5 => w 5 != (Config.serial.extractLsb' 0 32)
  | 16383 => (w 16383).toNat != calCrc w
  | _ => calReserved i && w i != 0

/-- The first offending word of a page. -/
def calFirstBad (w : Nat → Word) : Option Nat := (List.range 16384).find? (calWordBad w)

/-- The staged page, the stored page. -/
def State.calStage (s : State) (i : Nat) : Word := s.rd (Reg.logCalStage i)
def zeroWord (_ : Nat) : Word := 0
def State.calWord (s : State) (i : Nat) : Word := SMap.get zeroWord s.led.cal i

/-- A page as the map of its words. -/
def pageOf (w : Nat → Word) : SMap Word :=
  (List.range 16384).filterMap (fun i => if w i = 0 then none else some (i, w i))

/-- The page that CAL_WRITE stores: PROVENANCE stays 0 only in Manufacture with a staged 0; else it is 1 and CRC is
recomputed (R565). -/
def State.calToStore (s : State) : SMap Word :=
  if s.boot.otpLife = .manufacture ∧ bits (s.calStage 1) 15 8 = 0 then pageOf s.calStage
  else
    let w := fun i => if i = 1 then setBits (s.calStage 1) 15 8 1 else s.calStage i
    pageOf (fun i => if i = 16383 then BitVec.ofNat 32 (calCrc w) else w i)

/-- CAL_WRITE (R565): refused by mode, then not armed, then an invalid page with its first offending word in DETAIL. -/
def execCalWrite (path : Path) (s : State) : Host.Outcome State Fault Refusal :=
  .next (s.logWrite path 5 (fun armed s =>
    if s.ctl.mode ≠ .ready then s.result Reg.logResult 4
    else if armed = false then s.result Reg.logResult 3
    else
      match calFirstBad s.calStage with
      | some i => (s.setFld Reg.logResult 31 18 i).result Reg.logResult 5
      | none =>
        let (s, ok) := s.requestStore ⟨.calibration, costPage, .calPage s.calToStore, .unit 14 0, false⟩
        if ok then { s with led := { s.led with cmd := some 5 } } else s.result Reg.logResult 9))

/-- CAL_READ (R565): the stored page goes to LOG_CAL_STAGE. -/
def execCalRead (path : Path) (s : State) : Host.Outcome State Fault Refusal :=
  .next (s.logWrite path 6 (fun _ s =>
    let s := s.clearRegs (Reg.logCalStage 0) (Reg.logCalStage 16384)
    (s.led.cal.foldl (fun s e => s.wr (Reg.logCalStage e.1) e.2) s).result Reg.logResult 0))

/-- LOG_CMD_UNKNOWN: OP 7 to 15 end with CODE 8; OP 0 does nothing; a lower OP is another row's. -/
def execLogCmdUnknown (path : Path) (op : Fin 16) (s : State) : Host.Outcome State Fault Refusal :=
  .next (s.logWrite path op.val (fun _ s => if 7 ≤ op.val then s.result Reg.logResult 8 else s))

/-- What a write of LOG_READ_INDEX does (R552). -/
def State.logIndexEffect (s : State) (val : Word) : State :=
  let k := bits val 17 0
  if logSlots ≤ k then s.wr Reg.logReadIndex (BitVec.ofNat 32 k)
  else
    let b := s.led.slotBytes k
    let s := (List.range 16).foldl (fun s w => s.wr (Reg.logReadData w) (BitVec.ofNat 32 (ofBe (slice b (4 * w) 4)))) s
    s.wr Reg.logReadIndex (BitVec.ofNat 32 (2 ^ 31 + k))

/-- LOG_READ_INDEX_WRITE (R552): one slot is copied; a slot number above 196,607 reads as VALID 0. -/
def execLogReadIndexWrite (path : Path) (val : Word) (s : State) : Host.Outcome State Fault Refusal :=
  .next (s.hostWrite path Reg.logReadIndex val (fun s => s.logIndexEffect val))

/-! ## Counters -/

/-- What a write of PMC_SNAP_CFG does (R558). -/
def State.snapCfgEffect (s : State) (val : Word) : State :=
  let w := setBits (val &&& 0xC0000000#32) 15 0 (clamp 10 60000 (bits val 15 0))
  let s := if s.flg Reg.pmcSnapCfg 31 then s else { s with led := { s.led with snapAt := s.now } }
  let s := s.wr Reg.pmcSnapCfg w
  if bit val 29 then s.snapshot false else s

/-- COUNTER_SNAP (R558): a write of PMC_SNAP_CFG; SNAP requests a snapshot. -/
def execCounterSnap (path : Path) (val : Word) (s : State) : Host.Outcome State Fault Refusal :=
  .next (s.hostWrite path Reg.pmcSnapCfg val (fun s => s.snapCfgEffect val))

/-- PERIODIC_SNAP (R558): PERIOD_MS has passed, while PERIODIC_EN is 1, since it was set or since the last such snapshot. -/
def execPeriodicSnap (s : State) : Host.Outcome State Fault Refusal :=
  let next := s.led.snapAt + clamp 10 60000 (s.fld Reg.pmcSnapCfg 15 0) * 1000000
  .next (if s.flg Reg.pmcSnapCfg 31 && decide (next ≤ s.now) then
    ({ s with led := { s.led with snapAt := next } }).snapshot true
  else s)

/-- What a write of PMC_FU_CFG[k] does (R555). -/
def State.fuCfgEffect (s : State) (k : Nat) (val : Word) : State :=
  let s := s.wr (Reg.pmcFuCfg k) (val &&& 0xFFFFFF0F#32)
  { s with led := { s.led with fu := SMap.erase (SMap.erase s.led.fu (2 * k)) (2 * k + 1) } }

/-- FU_CFG_WRITE (R555): the unit is configured and both its counts clear in the same commit. -/
def execFuCfgWrite (path : Path) (unit : Fin 256) (val : Word) (s : State) : Host.Outcome State Fault Refusal :=
  let k := unit.val
  .next (s.hostWrite path (Reg.pmcFuCfg k) val (fun s => s.fuCfgEffect k val))

end Sys2Proof.Machine
end

