-- ==== Sys2Proof/Machine/Power.lean ====
section
/-! DEFINITION. Supplies, the hold-up bank, the power-fail sequence, temperatures and control contacts (chapter 02). The
thresholds of R42 are taken at their typical values. -/

namespace Sys2Proof.Machine

open Sys2Proof

/-! ## Thresholds (R42, R44) -/

/-- Turn-on and over-voltage thresholds and the release of R44, in mV. -/
def turnOnMv : Nat := 34000
def overMv : Nat := 74000
def overReleaseMv : Nat := 72000

/-- Feed-lost threshold in units of 10 mV. -/
def feedLost10 : Nat := 3300

/-! ## The PCIe link and PERST# (R39, R530) -/

/-- PERST_ASSERT (R39): the Host Interface island and its crossing ports are reset; nothing else changes. -/
def execPerstAssert (s : State) : Host.Outcome State Fault Refusal :=
  let s := { s with pow := { s.pow with perstHigh := false } }
  .next (s.linkDown.jointReset 19)

/-- PERST_RELEASE (R39): the island leaves reset once its rails are on, and the host may train the link. -/
def execPerstRelease (s : State) : Host.Outcome State Fault Refusal :=
  .next { s with pow := { s.pow with perstHigh := true }
                 fab := { s.fab with inReset := if s.fab.live.contains 19 then s.fab.inReset.filter (· != 19) else s.fab.inReset } }

/-! ## Temperatures (R35) -/

/-- LID_OVERTEMP: the lid sensor's reading in 1/16 °C; above 75 °C the event is raised. -/
def execLidOvertemp (reading : BitVec 16) (s : State) : Host.Outcome State Fault Refusal :=
  let s := s.setFld Reg.stwTemp 15 0 reading.toNat
  .next (if 1200 < reading.toInt then s.note Ev.lidOvertemp else s)

/-- DIE_OVERTEMP: the hottest die sensor's reading in 1/16 °C; above 110 °C the event is raised. -/
def execDieOvertemp (reading : BitVec 16) (s : State) : Host.Outcome State Fault Refusal :=
  let s := s.setFld Reg.stwTemp 31 16 reading.toNat
  .next (if 1760 < reading.toInt then s.raise Ev.dieOvertemp else s)

/-! ## The power-fail sequence (R52) -/

/-- Islands that keep power in step 4: the store domain's Steward island and the Hedge. -/
def storeDomain : List Nat := [18, 20]

/-- Steps 3 to 5: intake stops, frames in flight are discarded, the data-path, HBM and Host Interface rails switch off,
and the stores go on in class order. -/
def State.railsOff (s : State) : State :=
  let s := { s with ctl := { s.ctl with intake := false } }
  let s := (s.thawLog 3).discardFrames.quiesceAll
  ({ s with
    pow := { s.pow with dataRails := false, bank := .holding, pfStart := s.now, pfDone := 0 }
    fab := { s.fab with live := storeDomain }
    mgd := Mgd.reset
    st := { s.st with lost := 0 } }).startStores

/-- A power-fail sequence runs and outputs squelch (step 2); it supersedes a Recovery (R113). One that runs from step 1 asserts
ALERT_N until the store domain is released (R58). -/
def State.beginPfail (s : State) (step1 : Bool) : State :=
  let s := s.yield 1
  ({ s with pow := { s.pow with pfStep := 5, failAlert := step1 }, ctl := { s.ctl with recStep := 0 } }).driveAlert

/-- POWER_FAIL (R52): the filter time has passed; step 1 raises POWER_FAIL. -/
def execPowerFail (s : State) : Host.Outcome State Fault Refusal :=
  if s.ctl.mode = .sentry ∨ 0 < s.pow.pfStep then .next s
  else .next ((s.beginPfail true).raise Ev.powerFail).railsOff

/-- DIE_THERMAL_SHUTDOWN (R35): at 125 °C the converters switch off the data-path rails and the sequence runs from step 2. -/
def execDieThermalShutdown (s : State) : Host.Outcome State Fault Refusal :=
  if s.ctl.mode = .sentry ∨ 0 < s.pow.pfStep then .next s else .next (s.beginPfail false).railsOff

/-- INPUT_OVERVOLTAGE (R44): above the over-voltage threshold the converters switch off and the sequence runs from step 2;
T1 waits for 72 V or below. During a power-fail sequence that sequence goes on, and T1 waits as well. -/
def execInputOvervoltage (mv : Nat) (s : State) : Host.Outcome State Fault Refusal :=
  if mv ≤ overMv ∨ s.ctl.mode = .sentry then .next s
  else
    let runs := decide (0 < s.pow.pfStep)
    let s := (if runs then s else s.beginPfail false).setFlg Reg.stwFeedStatus 7 true
    let s := { s with pow := { s.pow with inputMv := mv, overvoltHold := true, converters := false } }
    let s := s.raise Ev.inputOvervoltage
    .next (if runs then s else s.railsOff)

/-- A queued MRAM store could still start. -/
def State.canStart (s : State) : Bool := s.st.queue.any (fun r => r.cls != StoreClass.nor && s.energyOk r.cost 0)

/-- PFAIL_SUMMARY (R125, R573): once both ports are idle and nothing queued can start, the summary is written without an
energy check; stores left and records still staged count as deferred. -/
def execPfailSummary (s : State) : Host.Outcome State Fault Refusal :=
  if s.pow.pfStep ≠ 5 ∨ s.st.mram.isSome ∨ s.st.nor.isSome ∨ s.canStart then .next s
  else
    let left := s.st.queue.length + s.led.staged.length
    let r : PfailRec := ⟨(s.now - s.pow.pfStart) / 1000000, s.pow.pfDone, left, s.hdg.powerups⟩
    let s := s.note Ev.pfailSummary
    .next { s with mram := { s.mram with pfail := some r }, pow := { s.pow with pfStep := 6 }, st := { s.st with lost := left } }

/-- A record that the release found undurable: the Hedge appends it on the cell under the reserve rule, else keeps it
pending, else the latch accounts for it (R503, R496). -/
def State.evidOnCell (s : State) (r : EvidRec) : State :=
  if s.hdg.reserveOk then s.evidCellAppend ⟨r.type, r.level, r.sensor, r.fill, r.detail, r.late, r.hcount⟩
  else if s.hdg.pend.length < 8 then { s with hdg := { s.hdg with pend := s.hdg.pend ++ [r] } }
  else { s with hdg := s.hdg.latchItem 0xFF s.hdg.hcount }

/-- The records that are not durable as the store domain is released, after a reserve test that reads mv (R503). -/
def State.evidRelease (s : State) (mv : Nat) : State :=
  if s.hdg.inFlight = [] then s
  else s.hdg.inFlight.foldl State.evidOnCell (({ s with hdg := s.hdg.rewind }).reserveTest mv)

/-- What main power carried is lost: everything but the Hedge, OTP and non-volatile memory (R52, R110, R124, R547, R554). -/
def State.powerReset (s : State) : State :=
  let p := s.pow
  let old := s.ctl.mode
  let s := s.resetCore 0
  let s := if p.alertN then s.emit (.alertN false) else s
  { s with
    ctl := { s.ctl with mode := .sentry, prevMode := old, degraded := false, level2 := [], escalations := 0 }
    led := { s.led with opened := [], staged := [], seq := 0, evc := [], dumpSeq := 1 }
    st := { s.st with queue := [], mram := none, nor := none, refused := false }
    pow := { p with pfStep := 0, failAlert := false, alertN := false, pfDone := 0, pfStart := 0, capUf := 0, eAvail := 0, bank := .bleeding, converters := false,
                    dataRails := false, riseMs := 0, bootMs := 0, bootAt := 0, aLost := false, bLost := false }
    hdg := { s.hdg with evidKey := none, live := false, inFlight := [], givenUp := [] } }

/-! ## Power Rise (R84, R49) -/

/-- The SEQ at which the recorder resumes at Power Rise (R543). -/
def Ledger.resumeSeq (l : Ledger) : Nat :=
  let top := l.log.foldl (fun (m : Nat) (e : Nat × Option EvRec) => match e.2 with | some r => max m (r.seq + 1) | none => m) 0
  match l.mark with
  | some m => max top (m + 1)
  | none => top

/-- Steps P1 to P3: converters start, the Hedge moves to main power, YOKE_ID is sampled, the bleed paths self-check, the
charger starts. A_OK and B_OK read 1 until the first SUPPLY_SAMPLE (DESIGN CHOICE, log entry 89). -/
def State.powerRise (s : State) (mv : Nat) (yokePos bleedA bleedB : Bool) : State :=
  let s := { s with
    now := 0
    pow := { s.pow with inputMv := mv, converters := true, bank := .charging, bleedA := bleedA, bleedB := bleedB, yokePos := yokePos
                        aOk := true, bOk := true, overvoltHold := false }
    hdg := { s.hdg.rebase s.now with live := true, powerups := s.hdg.powerups + 1 }
    fab := { s.fab with live := storeDomain, inReset := allIslands.filter (fun i => !storeDomain.contains i) }
    led := { s.led with seq := s.led.resumeSeq } }
  let s := s.setMode .powerRise
  if bleedA && bleedB then s else s.note Ev.bleedFault

/-- POWER_RISE (T1, R44, R84). -/
def execPowerRise (mv : Nat) (yokePos bleedA bleedB : Bool) (s : State) : Host.Outcome State Fault Refusal :=
  if s.ctl.mode ≠ .sentry ∨ mv < turnOnMv ∨ (s.pow.overvoltHold ∧ overReleaseMv < mv) then .next s
  else .next (s.powerRise mv yokePos bleedA bleedB)

/-- POWER_RETURN_DURING_BLEED (R53): the bleed stops and Power Rise starts. -/
def execPowerReturnDuringBleed (mv : Nat) (yokePos bleedA bleedB : Bool) (s : State) : Host.Outcome State Fault Refusal :=
  if s.ctl.mode ≠ .sentry ∨ s.pow.bank ≠ .bleeding ∨ mv < turnOnMv ∨ (s.pow.overvoltHold ∧ overReleaseMv < mv) then .next s
  else .next (s.powerRise mv yokePos bleedA bleedB)

/-- OVERVOLTAGE_RELEASE (R44): the input has fallen to 72 V or below; Power Rise starts if it lies above turn-on. -/
def execOvervoltageRelease (mv : Nat) (yokePos bleedA bleedB : Bool) (s : State) : Host.Outcome State Fault Refusal :=
  if s.pow.overvoltHold = false ∨ overReleaseMv < mv then .next s
  else
    let s := { s with pow := { s.pow with overvoltHold := false } }
    if s.ctl.mode = .sentry ∧ turnOnMv ≤ mv then .next (s.powerRise mv yokePos bleedA bleedB) else .next s

/-- STORE_DOMAIN_RELEASE (R52 step 6, R53, R503): loadedMv is what the reserve test reads, mv the ORed input. Records in
flight go to the cell; Sentry follows, and Power Rise at once if power has returned. -/
def execStoreDomainRelease (loadedMv mv : Nat) (yokePos bleedA bleedB : Bool) (s : State) :
    Host.Outcome State Fault Refusal :=
  if s.pow.pfStep ≠ 6 ∨ s.st.mram.isSome ∨ s.st.nor.isSome then .next s
  else
    let s := (s.evidRelease loadedMv).powerReset
    if turnOnMv ≤ mv ∧ !(s.pow.overvoltHold && decide (overReleaseMv < mv)) then .next (s.powerRise mv yokePos bleedA bleedB)
    else .next s

/-- HOLDUP_CAP_MEASURE (R48 to R50): the bank is full at bankV (10 mV units); its capacitance is uf, or is taken as
4,500 µF when the bank stood above 30.0 V with both bleed paths failed. Below 4,500 µF, or so taken, HOLDUP_LOW_CAP. -/
def execHoldupCapMeasure (uf bankV : Nat) (above30 : Bool) (s : State) : Host.Outcome State Fault Refusal :=
  if s.ctl.mode = .sentry ∨ 0 < s.pow.capUf then .next s
  else
    let taken := above30 && !s.pow.bleedA && !s.pow.bleedB
    let cap := if taken then 4500 else uf
    let s := { s with pow := { s.pow with
      capUf := cap, bank := .full, bankV := bankV, eAvail := energyMj cap bankV, dataRails := true } }
    let low := taken || decide (cap < 4500)
    let s := if low then (s.beginLevel2 Ev.holdupLowCap.code).raise Ev.holdupLowCap else s.endLevel2 Ev.holdupLowCap.code
    .next s.startStores

/-! ## Supplies -/

/-- FEED_LOST (R52, R61): a feed has fallen below the feed-lost threshold while the ORed input holds. -/
def execFeedLost (feedB : Bool) (s : State) : Host.Outcome State Fault Refusal :=
  let s := { s with pow := if feedB then { s.pow with bLost := true, bOk := false } else { s.pow with aLost := true, aOk := false } }
  .next ((s.setFlg Reg.stwFeedStatus (if feedB then 5 else 4) true).note Ev.feedLost)

/-- FEED_RESTORED (R61): a lost feed has risen above the feed-good threshold. -/
def execFeedRestored (feedB : Bool) (s : State) : Host.Outcome State Fault Refusal :=
  if (if feedB then s.pow.bLost else s.pow.aLost) then
    let s := { s with pow := if feedB then { s.pow with bLost := false, bOk := true } else { s.pow with aLost := false, aOk := true } }
    .next (s.note Ev.feedRestored)
  else .next s

/-! ## Control contacts -/

/-- SVC_MUTE_ASSERT (R55): outputs squelch in hardware; a lead yields (R445). -/
def execSvcMuteAssert (s : State) : Host.Outcome State Fault Refusal :=
  if s.pow.svcMute then .next s
  else .next (({ s with pow := { s.pow with svcMute := true } }).note Ev.svcMute |>.yield 3)

/-- SVC_MUTE_RELEASE (R57): the contact has been high for 1 ms; other causes of muting stay. -/
def execSvcMuteRelease (s : State) : Host.Outcome State Fault Refusal :=
  if s.pow.svcMute then .next (({ s with pow := { s.pow with svcMute := false } }).note Ev.svcMute) else .next s

/-- YOKE_ID_CHANGED (R59): an event and no other effect. -/
def execYokeIdChanged (s : State) : Host.Outcome State Fault Refusal := .next (s.note Ev.yokeIdChanged)

end Sys2Proof.Machine
end

