-- ==== Sys2Proof/Machine/Time.lean ====
section
/-! DEFINITION. Time's commands and events (chapter 14): steering, PPS and ToD. -/

namespace Sys2Proof.Machine

open Sys2Proof

/-! ## Steering (R459 to R461) -/

/-- Allotment n may command or write channel c (R459). -/
def State.mayTime (s : State) (n c : Nat) : Bool := n == 0 || n == (s.chan c).owner

/-- A channel accepts STEP, SLEW and FREQ (R460). -/
def State.steerable (s : State) (c : Nat) : Bool :=
  decide (12 ≤ c) || (s.chan c).source == 1 || (s.chan c).source == 4

/-- A carry clock disciplined to PPS_IN: SOURCE 2 or 3. -/
def State.disciplined (s : State) (c : Nat) : Bool :=
  decide (c < 12) && ((s.chan c).source == 2 || (s.chan c).source == 3)

/-- A Time command that was refused: TIM_WRITE_REFUSED (R476). -/
def State.timEnd (s : State) (n c code : Nat) : State :=
  let s := s.cmdEnd 12 n (Reg.timChResult c) code
  if code = 0 then s else s.note Ev.timWriteRefused

/-- The code of an operation that is refused before it looks at its argument: 2 not permitted, 4 a follower's SOURCE 4, 3 not
accepted for SOURCE; 0 otherwise. -/
def State.timRefusal (s : State) (n c : Nat) (accepts : Bool) : Nat :=
  if s.mayTime n c = false then 2
  else if s.mapped c then 4
  else if accepts then 0 else 3

/-- A carry clock has moved by d, in units of 2^-40 ns: a move by more than 1 µs raises TIME_STEP when reported, and R268
applies to its gate lists (R461). Its block maps start anew (DESIGN CHOICE, log entry 108). -/
def State.movedBy (s : State) (c : Nat) (d : Int) (report : Bool) : State :=
  if c < 12 ∧ 1000 * 2 ^ 40 < d.natAbs then
    let s := s.inc (Reg.timCountLo 7)
    let s := if report then s.note Ev.timeStep (beBytes 1 c) else s
    ((s.setChan c (fun x => { x with mapC := none, maps := [] })).gatesLost c).gatesResume c
  else s

/-- A channel takes a value, in units of 2^-40 ns, without any event; its slew ends (R457, R460). -/
def State.putTime (s : State) (c v : Nat) : State :=
  if c < 12 then s.setChan c (fun x => { x with value := v % chanWrap, slew := 0 })
  else
    let tp := (s.chan (s.chan c).parent).value
    s.setChan c (fun x => { x with offO := (v : Int) - tp, offA := tp, slew := 0 })

/-- SET: the channel is loaded, a STOPPED one starts (R454, R460). A disciplined channel starts in ACQUIRING. -/
def State.setTime (s : State) (c v : Nat) : State :=
  let old := (s.chan c).st
  let d : Int := (v : Int) - (s.chanValue c : Nat)
  let s := (s.putTime c v).setChan c (fun x =>
    { x with st := if old = .stopped then (if c < 12 ∧ (x.source = 2 ∨ x.source = 3) then .acquiring else .running) else old })
  let s := s.note Ev.timeSet (beBytes 1 c)
  if old = .stopped then s.gatesResume c else s.movedBy c d true

/-- Argument word w of a channel's command in allotment n's copy. -/
def State.timArg (s : State) (n c w : Nat) : Nat := (s.rd (privKey n (Reg.timChArg c w))).toNat

/-- SET's argument as a value: seconds, ns, fraction. -/
def State.setArg (s : State) (n c : Nat) : Nat :=
  let secs := s.timArg n c 2 + s.timArg n c 3 % 65536 * 2 ^ 32
  (secs * 1000000000 + s.timArg n c 1) * 2 ^ 40 + s.timArg n c 0 % 65536 * 2 ^ 24

/-- The signed offset of STEP and SLEW in units of 2^-40 ns: words 1 and 2 in ns, word 0 the fraction. -/
def State.offsetArg (s : State) (n c : Nat) : Int :=
  let u : Nat := s.timArg n c 1 + s.timArg n c 2 * 2 ^ 32
  let ns : Int := if u < 2 ^ 63 then (u : Int) else (u : Int) - 2 ^ 64
  let part : Nat := s.timArg n c 0 % 65536 * 2 ^ 24
  ns * 2 ^ 40 + (part : Int)

/-- SET on allotment n's copy: seconds of 2^34 or more are refused; on a disciplined channel only the seconds load. -/
def State.runSet (s : State) (n c : Nat) : State :=
  let code := s.timRefusal n c true
  if code ≠ 0 then s.timEnd n c code
  else
    let v := s.setArg n c
    let secs := s.timArg n c 2 + s.timArg n c 3 % 65536 * 2 ^ 32
    if 2 ^ 34 ≤ secs then s.timEnd n c 6
    else
      let v := if s.disciplined c then secs * secUnits + s.chanValue c % secUnits else v
      (s.setTime c v).timEnd n c 0

/-- STEP: the offset is added at once. A STOPPED channel has no value to add to. -/
def State.runStep (s : State) (n c : Nat) : State :=
  let code := s.timRefusal n c (s.steerable c)
  if code ≠ 0 then s.timEnd n c code
  else
    let d := s.offsetArg n c
    let s := s.setChan c (fun x =>
      if x.st = .stopped then x
      else if c < 12 then { x with value := (((x.value : Int) + d) % chanWrap).toNat, slew := 0 }
      else { x with offO := x.offO + d, slew := 0 })
    let s := if (s.chan c).st = .stopped then s else s.movedBy c d true
    s.timEnd n c 0

/-- SLEW: the offset replaces what remains of an earlier slew. -/
def State.runSlew (s : State) (n c : Nat) : State :=
  let code := s.timRefusal n c (s.steerable c)
  if code ≠ 0 then s.timEnd n c code
  else
    let d := s.offsetArg n c
    (s.setChan c (fun x => if x.st = .stopped then x else { x with slew := d })).timEnd n c 0

/-- STOP: the channel enters STOPPED and reads 0. -/
def State.runStop (s : State) (n c : Nat) : State :=
  let code := s.timRefusal n c true
  if code ≠ 0 then s.timEnd n c code
  else
    let s := s.setChan c (fun x =>
      { x with st := .stopped, value := 0, offO := 0, offA := 0, slew := 0, good := 0, missed := 0, todSeen := false, mapC := none })
    let s := s.note Ev.timeSet (beBytes 1 c)
    (if c < 12 then s.gatesLost c else s).timEnd n c 0

/-- A Time command with its OP, from a register or a ring; OP 5 to 7 complete with CODE 5 (TIM_CH_CMD). -/
def State.timRun (s : State) (n c op : Nat) : State :=
  match op with
  | 0 => s
  | 1 => s.runSet n c
  | 2 => s.runStep n c
  | 3 => s.runSlew n c
  | 4 => s.runStop n c
  | _ => s.timEnd n c (if s.mayTime n c then 5 else 2)

/-- CHANNEL_SET. -/
def execChannelSet (path : Path) (ch : Fin 16) (s : State) : Host.Outcome State Fault Refusal :=
  .next (s.cmdWrite (.channelSet path ch) path (Reg.timChCmd ch.val) (fun n s => s.timRun n ch.val 1))

/-- CHANNEL_STEP. -/
def execChannelStep (path : Path) (ch : Fin 16) (s : State) : Host.Outcome State Fault Refusal :=
  .next (s.cmdWrite (.channelStep path ch) path (Reg.timChCmd ch.val) (fun n s => s.timRun n ch.val 2))

/-- CHANNEL_SLEW. -/
def execChannelSlew (path : Path) (ch : Fin 16) (s : State) : Host.Outcome State Fault Refusal :=
  .next (s.cmdWrite (.channelSlew path ch) path (Reg.timChCmd ch.val) (fun n s => s.timRun n ch.val 3))

/-- CHANNEL_STOP. -/
def execChannelStop (path : Path) (ch : Fin 16) (s : State) : Host.Outcome State Fault Refusal :=
  .next (s.cmdWrite (.channelStop path ch) path (Reg.timChCmd ch.val) (fun n s => s.timRun n ch.val 4))

/-- TIM_CMD_UNKNOWN: OP 5 to 7; the other operands are other commands' or none. -/
def execTimCmdUnknown (path : Path) (ch : Fin 16) (op : Fin 8) (s : State) : Host.Outcome State Fault Refusal :=
  if op.val < 5 then .next s
  else .next (s.cmdWrite (.timCmdUnknown path ch op) path (Reg.timChCmd ch.val) (fun n s => s.timRun n ch.val op.val))

/-- SLEW_DONE (R460): what a slew has left falls within the present ns, and is added; a slew that runs on is not done. -/
def execSlewDone (ch : Fin 16) (s : State) : Host.Outcome State Fault Refusal :=
  .next (s.setChan ch.val (fun x =>
    if x.st = .stopped then { x with slew := 0 }
    else if x.slewPart 1 ≠ x.slew then x
    else if ch.val < 12 then { x with value := (((x.value : Int) + x.slew) % chanWrap).toNat, slew := 0 }
    else { x with offO := x.offO + x.slew, slew := 0 }))

/-- FREQ's clamp (R455). -/
def freqClamp (f : Int) : Int := max (-1099511628) (min 1099511628 f)

/-- A FREQ write by allotment n (R457, R459, R460): on an offset-rate channel the elapsed term is folded first. A follower's SOURCE 4
channel answers it with CODE 4 (R467). -/
def State.freqWrite (s : State) (n c : Nat) (val : Word) : State :=
  if s.timRefusal n c (s.steerable c) = 4 then (s.result (privKey n (Reg.timChResult c)) 4).note Ev.timWriteRefused
  else if s.timRefusal n c (s.steerable c) ≠ 0 then s.note Ev.timWriteRefused
  else
    let f := freqClamp val.toInt
    let tp := (s.chan (s.chan c).parent).value
    s.setChan c (fun x =>
      if c < 12 then { x with freq := f }
      else { x with offO := x.offO + ((tp : Int) - x.offA) * x.freq / 2 ^ 40, offA := tp, freq := f })

/-- FREQ_WRITE. -/
def execFreqWrite (path : Path) (ch : Fin 16) (val : Word) (s : State) : Host.Outcome State Fault Refusal :=
  .next (s.privWrite (.freqWrite path ch val) path (Reg.timChAdj ch.val) false (fun n s => s.freqWrite n ch.val val))

/-- PARENT as written: 0 to 11; 12 to 15 read back as 0 (R458). -/
def parentOf (val : Word) : Nat := if bits val 19 16 < 12 then bits val 19 16 else 0

/-- A write of TIM_CH_CTRL by allotment n: SLEW_PPM from 1 to 1,000, and PARENT on channels 12 to 15, whose change is a SET
to the channel's present value (R457). -/
def State.chCtrlWrite (s : State) (n c : Nat) (val : Word) : State :=
  if s.mayTime n c = false then s.note Ev.timWriteRefused
  else
    let s := s.setChan c (fun x => { x with slewPpm := clamp 1 1000 (bits val 15 6) })
    let p := parentOf val
    if c < 12 ∨ (s.chan c).parent = p then s
    else
      let v := s.chanValue c
      (s.setChan c (fun x => { x with parent := p })).setTime c v

/-- PARENT_WRITE. -/
def execParentWrite (path : Path) (ch : Fin 16) (val : Word) (s : State) : Host.Outcome State Fault Refusal :=
  .next (s.privWrite (.parentWrite path ch val) path (Reg.timChCtrl ch.val) false (fun n s => s.chCtrlWrite n ch.val val))

/-! ## PPS and ToD (R462 to R464) -/

/-- The signed phase of a value within its second, from −500,000,000 ns to below 500,000,000 ns, in units of 2^-40 ns. -/
def phaseOf (v : Int) : Int := (v + 500000000 * 2 ^ 40) % secUnits - 500000000 * 2 ^ 40

/-- A second-order loop's FREQ within ±1,000 ppm, whose value the spec leaves to the loop (R462). -/
def State.loopFreq (s : State) (c : Nat) : State :=
  let (k, s) := s.draw
  s.setChan c (fun x => { x with freq := (Config.freeNat k % 2199023257 : Nat) - 1099511628 })

/-- PPS_HOLDOVER: LOCKED is left after 3 consecutive missed or rejected edges (R454). -/
def State.missEdge (s : State) (c : Nat) : State :=
  let x := s.chan c
  if x.st = .acquiring then s.setChan c (fun x => { x with good := 0 })
  else if x.st ≠ .locked then s
  else if x.missed < 2 then s.setChan c (fun x => { x with missed := x.missed + 1 })
  else (s.setChan c (fun x => { x with st := .holdover, missed := 0, good := 0 })).note Ev.ppsHoldover (beBytes 1 c)

/-- ToD seconds reach a SOURCE 3 channel at an accepted edge, whose whole second the channel takes as its own (R464). -/
def State.takeTod (s : State) (c : Nat) (e : Int) : State :=
  match s.tim.todPending with
  | none => s
  | some secs =>
    if (s.chan c).source ≠ 3 then s
    else
      let v : Int := (s.chan c).value
      let have_ : Int := (v - e) / secUnits
      if have_ = secs then s
      else
        let d := ((secs : Int) - have_) * secUnits
        let s := s.setChan c (fun x => { x with value := ((v + d) % chanWrap).toNat })
        (s.movedBy c d false).note Ev.todMismatch (beBytes 1 c)

/-- An accepted edge with phase error e locks an acquiring channel after 3 in a row below 100 ns (R454, R464). -/
def State.acquireStep (s : State) (c : Nat) (e : Int) : State :=
  let x := s.chan c
  let good := if e.natAbs < 100 * 2 ^ 40 then x.good + 1 else 0
  if 3 ≤ good ∧ (x.source = 2 ∨ x.todSeen) then
    (s.setChan c (fun x => { x with st := .locked, good := 0, missed := 0 })).note Ev.ppsLocked (beBytes 1 c)
  else s.setChan c (fun x => { x with good := good })

/-- ERROR_PS of an accepted edge, saturating. -/
def errorPs (e : Int) : Nat :=
  unsigned32 (max (-2147483648) (min 2147483647 (e * 1000 / 2 ^ 40)))

/-- A disciplined channel sees an edge with phase error e (R454, R462). -/
def State.steer (s : State) (c : Nat) (e : Int) : State :=
  let x := s.chan c
  let window := max 100 (s.fld Reg.timPpsCfg 15 0)
  let step := max 100 (s.rd Reg.timStepCfg).toNat
  if x.st = .locked ∧ window * 2 ^ 40 < e.natAbs then (s.inc (Reg.timCountLo 4)).missEdge c
  else
    let s := (s.inc (Reg.timCountLo 3)).wr Reg.timPpsStatus (BitVec.ofNat 32 (errorPs e))
    let s := { s with tim := { s.tim with lastPps := some s.now } }
    let s := s.takeTod c e
    match x.st with
    | .locked => (s.setChan c (fun x => { x with missed := 0, slew := -e })).loopFreq c
    | _ =>
      let s := s.setChan c (fun x => { x with st := .acquiring })
      if step * 2 ^ 40 < e.natAbs then
        let s := s.setChan c (fun x => { x with value := (((x.value : Int) - e) % chanWrap).toNat, slew := 0, good := 0 })
        if 1000 * 2 ^ 40 < e.natAbs then s.movedBy c e true
        else (s.inc (Reg.timCountLo 7)).note Ev.timeStep (beBytes 1 c)
      else ((s.setChan c (fun x => { x with slew := -e })).loopFreq c).acquireStep c e

/-- The first edge of a STOPPED disciplined channel marks its second 0 (R454): since units of 2^-40 ns have passed. -/
def State.firstEdge (s : State) (c : Nat) (since : Int) : State :=
  let s := (s.inc (Reg.timCountLo 3)).setChan c (fun x =>
    { x with st := .acquiring, value := (since % chanWrap).toNat, freq := 0, slew := 0, good := 1, missed := 0 })
  let s := ({ s with tim := { s.tim with lastPps := some s.now } }).wr Reg.timPpsStatus 0
  (s.takeTod c since).gatesResume c

/-- PPS_IN_EDGE (R462): a pulse of widthNs whose rising edge came eighths × 0.125 ns before the present cycle. The second it
marks lies IN_DELAY_NS before the edge. -/
def execPpsInEdge (widthNs : Nat) (eighths : Fin 8) (s : State) : Host.Outcome State Fault Refusal :=
  if widthNs < 100 then .next s
  else
    let ago : Int := (eighths.val * 2 ^ 37 : Nat)
    let delay : Int := signed16 (s.fld Reg.timPpsDelay 15 0) * 2 ^ 40
    let s := ((List.range 12).filter s.disciplined).foldl (fun (s : State) c =>
      if (s.chan c).st = .stopped then s.firstEdge c (ago + delay)
      else s.steer c (phaseOf (((s.chan c).value : Int) - ago - delay))) s
    .next (if s.tim.lastPps = some s.now then { s with tim := { s.tim with todPending := none } } else s)

/-- PPS_EDGE_MISSED (R454): no edge came at a second. -/
def execPpsEdgeMissed (s : State) : Host.Outcome State Fault Refusal :=
  .next (((List.range 12).filter s.disciplined).foldl State.missEdge s)

/-- TOD_MESSAGE (R463, R464): a message whose first start bit came startAgo ns ago. -/
def execTodMessage (msg : List Byte) (startAgo : Nat) (s : State) : Host.Outcome State Fault Refusal :=
  let at_ := s.now - startAgo
  let timely := match s.tim.lastPps with
    | some p => decide (p + 10000000 ≤ at_) && decide (at_ ≤ p + 900000000)
    | none => false
  let sound := msg.length == 16 && ofBe (slice msg 0 3) == 0x535401 && ofBe (slice msg 14 2) == crc16 (slice msg 0 14)
  let valid := (ofBe (slice msg 3 1)).testBit 7
  if timely && sound && valid then
    let s := s.inc (Reg.timCountLo 5)
    let s := (List.range 4).foldl (fun (s : State) w => s.wr (Reg.timTodRx w) (BitVec.ofNat 32 (ofBe (slice msg (4 * w) 4)))) s
    .next { s with tim := { s.tim with
      todPending := some (ofBe (slice msg 4 6))
      chans := s.tim.chans.map (fun (x : Channel) => if x.source = 3 then { x with todSeen := true } else x) } }
  else .next (s.inc (Reg.timCountLo 6))

/-- The carry clock of PPS_OUT and TOD_OUT, if it is not STOPPED (R465). -/
def State.ppsChannel (s : State) : Option Nat :=
  let c := s.fld Reg.timCfg 11 8
  if c < 12 ∧ (s.chan c).st ≠ .stopped then some c else none

/-- Channel c stands at a whole second plus OUT_DELAY_NS, within 2 ns (R465). -/
def State.atPpsOut (s : State) (c : Nat) : Bool :=
  decide ((phaseOf (((s.chan c).value : Int) - signed16 (s.fld Reg.timPpsDelay 31 16) * 2 ^ 40)).natAbs ≤ 2 * 2 ^ 40)

/-- PPS_OUT_EDGE (R465): PPS_OUT rises at the second that its channel reaches, to fall WIDTH_MS later. -/
def execPpsOutEdge (s : State) : Host.Outcome State Fault Refusal :=
  match s.ppsChannel with
  | some c =>
    if s.flg Reg.timCfg 29 ∧ s.atPpsOut c then
      .next ({ s with tim := { s.tim with
        ppsRise := some s.now, ppsFall := some (s.now + clamp 1 500 (s.fld Reg.timPpsCfg 24 16) * 1000000) } }.emit (.ppsOut true))
    else .next s
  | none => .next s

/-- PPS_OUT falls once its high time has passed. -/
def State.ppsDown (s : State) : State :=
  match s.tim.ppsFall with
  | some t => if t ≤ s.now then { s with tim := { s.tim with ppsFall := none } }.emit (.ppsOut false) else s
  | none => s

/-- The ToD message that announces the second after the channel's present one (R463, R465). -/
def State.todMessage (s : State) (c : Nat) : List Byte :=
  let x := s.chan c
  let tx := s.rd Reg.timTodTx
  let ok := bit tx 31 && (x.st == .running || x.st == .locked)
  let m := beBytes 3 0x535401 ++ beBytes 1 (flag ok * 128 + flag (bit tx 30) * 64 + flag (bit tx 29) * 32) ++
    beBytes 6 (s.chanValue c / secUnits + 1) ++ beBytes 2 (bits tx 15 0) ++ beBytes 1 (bits tx 23 16) ++ beBytes 1 0
  m ++ beBytes 2 (crc16 m)

/-- The last PPS_OUT edge lies 200 ms ± 1 ms back (R465). -/
def State.atTodOut (s : State) : Bool :=
  match s.tim.ppsRise with
  | some t => decide (t + 199000000 ≤ s.now) && decide (s.now ≤ t + 201000000)
  | none => false

/-- TOD_OUT_SEND (R465): 200 ms after a PPS_OUT edge, one message for each edge, at the rate of TOD_BAUD. -/
def execTodOutSend (s : State) : Host.Outcome State Fault Refusal :=
  match s.ppsChannel with
  | some c =>
    if s.flg Reg.timCfg 28 ∧ s.atTodOut then
      .next ({ s with tim := { s.tim with ppsRise := none } }.emit
        (.todOut (if s.flg Reg.timCfg 27 then 9600 else 115200) (s.todMessage c)))
    else .next s
  | none => .next s

end Sys2Proof.Machine
end

