-- ==== Sys2Proof/Machine/RegOps.lean ====
section
/-! DEFINITION. What a write of any register does, whoever makes it: the host, PRESET (R75), the decision stream (R430).
Bounds of R63, clamps, locks (R12), and the effects of the registers that have commands of their own. -/

namespace Sys2Proof.Machine

open Sys2Proof

/-! ## Fields that are clamped -/

/-- A field clamped to a range. -/
def clampFld (w : Word) (hi lo a b : Nat) : Word := setBits w hi lo (clamp a b (bits w hi lo))

/-- A carry-clock channel field: 12 to 15 read back as 0 (R458). -/
def carryFld (w : Word) (hi lo : Nat) : Word := if 12 ≤ bits w hi lo then setBits w hi lo 0 else w

/-- OVERHEAD, two's complement in 8 bits, clamped to −32 to +127 (SCH_OUT_CFG). -/
def overheadFld (w : Word) : Word :=
  let v := bits w 23 16
  if 128 ≤ v ∧ v < 224 then setBits w 23 16 224 else w

/-- The word a register keeps of what was written, by the base address of its row. -/
def regClamp (base : Nat) (w : Word) : Word :=
  if base = Reg.stwStoreCfg then clampFld w 15 0 200 1000
  else if base = Reg.stwModeCfg then clampFld w 11 8 1 15
  else if base = Reg.lnfSheafCfg then clampFld w 4 0 20 28
  else if base = Reg.lnfTimeCfg then carryFld w 3 0
  else if base = Reg.rixPairTimers 0 then
    setBits (clampFld w 31 16 10 720) 15 0 (min 10000 (bits w 15 0 / 100 * 100))
  else if base = Reg.clsPortQuota 0 then clampFld w 18 0 0 262144
  else if base = Reg.schOutCfg 0 then overheadFld w
  else if base = Reg.schGateCycle 0 then clampFld w 29 0 1 1000000000
  else if base = Reg.schCqCfg 0 then clampFld (clampFld w 25 16 1 1023) 9 0 1 1023
  else if base = Reg.mgdHarrowCfg then clampFld w 7 0 1 168
  else if base = Reg.ascPnCfg then clampFld w 4 0 16 24
  else if base = Reg.cphAllotWeight 0 then clampFld w 9 0 1 1023
  else if base = Reg.yokCfg then clampFld w 15 0 1000 40000
  else if base = Reg.timCfg then carryFld (carryFld (carryFld (carryFld w 23 20) 19 16) 15 12) 11 8
  else if base = Reg.timPpsCfg then clampFld (clampFld w 24 16 1 500) 15 0 100 65535
  else if base = Reg.timStepCfg then (if w.toNat < 100 then 100 else w)
  else if base = Reg.hifDrainCfg then clampFld w 15 0 1 1000
  else if base = Reg.hifRingBaseLo 0 then setBits w 11 0 0
  else if base = Reg.hifRingCfg 0 then clampFld w 4 0 4 16
  else if base = Reg.logCfg then clampFld w 15 0 1 10000
  else if base = Reg.logFreezeMs then clampFld w 15 0 1 10000
  else if base = Reg.logHostLo then setBits w 11 0 0
  else if base = Reg.pmcDumpBaseLo then setBits w 14 0 0
  else if base = Reg.pmcTagCfg then clampFld w 28 24 8 24
  else if base = Reg.pmcStreamBaseLo 0 then setBits w 11 0 0
  else if base = Reg.pmcStreamCfg 0 then clampFld w 4 0 8 20
  else w

/-! ## Writes outside the image's structure (R63) -/

/-- A ring of the image: 1 to 8 only up to its RINGS (R71). -/
def State.ringExists (s : State) (r : Nat) : Bool :=
  decide (r = 0) || decide (9 ≤ r) || (match s.boot.image with | some im => decide (r ≤ im.rings) | none => false)

/-- A write that would take a setting outside the image's structure; i is the index within the row. -/
def State.outOfBounds (s : State) (base i : Nat) (val : Word) : Bool :=
  if base = Reg.clsPortCfg 0 then !s.allotExists (bits val 31 26)
  else if base = Reg.ascOutOwner 0 then !s.allotExists (bits val 5 0)
  else if base = Reg.ascInputCfg 0 then !s.allotExists (bits val 27 22)
  else if base = Reg.pmcStreamCfg 0 then !s.allotExists (bits val 13 8)
  else if base = Reg.cphAllotWeight 0 then !s.allotExists i
  else if base = Reg.hifRingBaseLo 0 ∨ base = Reg.hifRingBaseHi 0 ∨ base = Reg.hifRingCfg 0 then !s.ringExists i
  else if base = Reg.timAllotCh 0 then decide (12 ≤ bits val 3 0) && (s.chan (bits val 3 0)).owner != i
  else false

/-- Writes that are ignored without an event: a base or LOG2 while EN is 1, the peer hash while PAIRED is 1, which counts before
LOCK does (DESIGN CHOICE, log entry 88). The word that the write leaves to take effect, if any. -/
def State.writeIgnored (s : State) (n base i : Nat) (val : Word) : Option Word :=
  if base = Reg.hifRingBaseLo 0 ∨ base = Reg.hifRingBaseHi 0 then
    if s.ringOn n i = false then some val else none
  else if base = Reg.hifRingCfg 0 then
    if s.ringOn n i then some (setBits val 4 0 (s.fld (privKey n (Reg.hifRingCfg i)) 4 0)) else some val
  else if base = Reg.pmcStreamBaseLo 0 ∨ base = Reg.pmcStreamBaseHi 0 then
    if s.flg (Reg.pmcStreamCfg i) 31 then none else some val
  else if base = Reg.yokPeerHash 0 then (if s.yok.paired then none else some val)
  else some val

/-! ## What follows a write -/

/-- An allotment runs while one of its rings is enabled (HIF_ALLOT_STATE). -/
def State.allotRuns (s : State) (n : Nat) : State :=
  let on := (List.range 13).any (fun r => s.ringOn n r)
  let st := s.allotState n
  let st' := if st = .idle ∧ on then .running else if st = .running ∧ !on then .idle else st
  { s with hif := { s.hif with allots := s.hif.allots.set n st' } }

/-- The bucket that a register shapes, if any (R257). -/
def shapedBy (base i : Nat) : Option Nat :=
  if base = Reg.schOutCfg 0 ∨ base = Reg.schOutRate 0 ∨ base = Reg.schOutBurst 0 then some (200000 + i)
  else if base = Reg.schCqCfg 0 ∨ base = Reg.schCqRate 0 ∨ base = Reg.schCqBurst 0 then some (65536 + i)
  else none

/-- What a write of a plain register has as a consequence: old is the word before it. -/
def State.afterWrite (s : State) (n base : Nat) (old new : Word) : State :=
  if base = Reg.stwStoreCfg then s.startStores
  else if base = Reg.stwModeCfg then (if bit old 31 then s else s.endAuto)
  else if base = Reg.stwAlert then s.driveAlert
  else if base = Reg.clsDigestCtrl then (if bit old 0 = bit new 0 then s else s.setFlg Reg.clsDigestCtrl 31 false)
  else if base = Reg.hifRingCfg 0 then s.allotRuns n
  else if base = Reg.clsPortQuota 0 then s.quotaSettle
  else s

/-- SKEW_NS does not change in a Yoke mode, and the write of it is refused (YOK_CFG). -/
def State.skewRefused (s : State) (base : Nat) (val : Word) : State × Word :=
  let old := s.fld Reg.yokCfg 15 0
  if base = Reg.yokCfg ∧ s.ctl.mode.isYoke ∧ bits val 15 0 ≠ old then (s.note Ev.yokeWriteRefused, setBits val 15 0 old)
  else (s, val)

/-- A write of a register without commands of its own, in allotment n's copy where it has copies. -/
def State.plainWrite (s : State) (r : RegRow) (n i off : Nat) (val : Word) : State :=
  if s.outOfBounds r.base i val then s.note Ev.structureBound (beBytes 4 off)
  else
    match s.writeIgnored n r.base i val with
    | none => s
    | some val =>
      let k := if r.priv then privKey n off else off
      let locked := match lockRegOf (off / 0x100000) with | some l => s.flg l 31 | none => false
      let s := if lockHit r.fields locked then s.lockIgnored off else s
      let (s, val) := if locked then (s, val) else s.skewRefused r.base val
      let old := s.rd k
      let new := regClamp r.base (mergeWrite r.fields old val locked)
      let act := fun (s : State) => (s.wr k new).afterWrite n r.base old new
      match shapedBy r.base i with
      | some b => s.reshape b act
      | none => act s

/-! ## HIF_ALLOT_CTRL (R513) -/

/-- Two enabled allotments would share a PASID. -/
def State.pasidTaken (s : State) (n : Nat) (w : Word) : Bool :=
  bit w 31 && (List.range 64).any (fun m =>
    m != n && s.flg (Reg.hifAllotCtrl m) 31 && s.fld (Reg.hifAllotCtrl m) 19 0 == bits w 19 0)

/-- What a write of HIF_ALLOT_CTRL[n] does (R513, R63). -/
def State.allotCtrlEffect (s : State) (n : Nat) (val : Word) : State :=
  let off := Reg.hifAllotCtrl n
  let w := val &&& 0x800FFFFF#32
  let same := bit w 31 == s.flg off 31 && bits w 19 0 == s.fld off 19 0
  if s.allotExists n = false then s.note Ev.structureBound (beBytes 4 off)
  else if (!same && (List.range 13).any (fun r => s.ringOn n r)) || s.pasidTaken n w then s.note Ev.pasidRefused
  else s.wr off (setBits (setBits (s.rd off) 31 31 (bits w 31 31)) 19 0 (bits w 19 0))

/-! ## Every register -/

/-- Registers with commands of their own whose write is a configuration: the state it gives, if the row is one of them;
d is the distance in bytes from the row's base. -/
def State.ownEffect (s : State) (n base d off : Nat) (val : Word) : Option State :=
  if base = Reg.lnfLaneCtrl 0 then some (s.laneCtrlEffect (d / 0x40) val)
  else if base = Reg.lnfGrpCtrl 0 then some (s.portEnableEffect true (d / 0x80) val)
  else if base = Reg.lnfEthCtrl 0 then some (s.portEnableEffect false (d / 0x40) val)
  else if base = Reg.rixTcm 0 0 then some (s.cmEffect false (d / 0x800) (d % 0x800 / 4) val)
  else if base = Reg.rixRcm 0 0 then some (s.cmEffect true (d / 0x800) (d % 0x800 / 4) val)
  else if base = Reg.rixPairCfg 0 then some (s.pairCfgEffect (d / 0x20) val)
  else if base = Reg.clsHashSeed0 ∨ base = Reg.clsHashSeed1 then some (s.hashSeedEffect off val)
  else if base = Reg.schGateCfg 0 then some (s.gateCfgEffect (d / 0x20) val)
  else if base = Reg.mgdAllotWin 0 then some (s.allotWindowEffect (d / 4) false val)
  else if base = Reg.mgdQueueCfg 0 then some (if d / 0x10 < 64 then s.allotWindowEffect (d / 0x10) true val else s)
  else if base = Reg.timChCtrl 0 then some (s.chCtrlWrite n (d / 0x40) val)
  else if base = Reg.timChAdj 0 then some (s.freqWrite n (d / 0x40) val)
  else if base = Reg.hdgSensorCfg 0 then some (s.sensorCfgEffect (d / 0x10) false val)
  else if base = Reg.hdgSensorWin 0 then some (s.sensorCfgEffect (d / 0x10) true val)
  else if base = Reg.hdgLogIndex then some (s.hdgIndexEffect val)
  else if base = Reg.logReadIndex then some (s.logIndexEffect val)
  else if base = Reg.pmcSnapCfg then some (s.snapCfgEffect val)
  else if base = Reg.pmcFuCfg 0 then some (s.fuCfgEffect (d / 0x20) val)
  else if base = Reg.hifAllotCtrl 0 then some (s.allotCtrlEffect (d / 4) val)
  else none

/-- Command and arming registers: their writes are commands, which rows of their own give. -/
def isCommandReg (base : Nat) : Bool :=
  [Reg.stwModeCmd, Reg.stwImageCmd, Reg.stwImageArm, Reg.rixSwapCmd, Reg.rixApsCmd 0, Reg.clsCmd, Reg.schTblCmd,
   Reg.mgdRetillCmd, Reg.ascCmd, Reg.cphPairCmd, Reg.kvtCmd, Reg.kvtArm, Reg.yokCmd, Reg.yokArm, Reg.timChCmd 0,
   Reg.hifAllotCmd, Reg.hifDoorbell, Reg.hifAllotState, Reg.logCmd, Reg.logCalArm].contains base

/-- The index of the register at an offset in its row's first dimension. -/
def RegRow.index (r : RegRow) (off : Nat) : Nat :=
  match r.dims with
  | [] => 0
  | d :: _ => (off - r.base) / d.stride

/-- The effect of writing val to the register at a Device Window offset, in allotment n's copy. An undefined offset
ignores the write (R6). -/
def State.regEffect (s : State) (n off : Nat) (val : Word) : State :=
  match regRowAt off with
  | none => s
  | some r =>
    if isCommandReg r.base then s
    else
      match s.ownEffect n r.base (off - r.base) off val with
      | some s' => s'
      | none => s.plainWrite r n (r.index off) off val

end Sys2Proof.Machine
end

