-- ==== Sys2Proof/Machine/Cipher.lean ====
section
/-! DEFINITION. The Cipher Array's commands (chapter 11): compares and retries, retirement and substitution, known-answer
tests, squashes, pair commands, lookaside jobs. -/

namespace Sys2Proof.Machine

open Sys2Proof

/-! ## Pairs -/

/-- Counter c of the Cipher Array rises by n. -/
def State.cphCount (s : State) (c n : Nat) : State := s.incBy (Reg.cphCountLo c) n

def State.cpair (s : State) (p : Nat) : CPair := s.cph.pairs.getD p CPair.reset

def State.modPair (s : State) (p : Nat) (f : CPair → CPair) : State :=
  { s with cph := { s.cph with pairs := modAt f s.cph.pairs p } }

/-- Work items of a pair. -/
def State.pairItems (s : State) (p : Nat) : List (Nat × Item) :=
  s.cph.items.filterMap (fun e => e.2.bind (fun i => if i.pairs.contains p then some (e.1, i) else none))

/-- The pair runs a lookaside job. -/
def State.runsJob (s : State) (p : Nat) : Bool :=
  s.cph.jobs.any (fun e => match e.2 with | some j => j.item.isSome && j.fin.isNone && j.pair == p | none => false)

/-- A pair serves a role for another. -/
def State.substitute (s : State) (p role forPair : Nat) : State :=
  s.modPair p (fun x => { x with st := 1, role := role, standsFor := forPair })

/-- A known-answer test starts on a pair, for a vacancy or for none. -/
def State.startKat (s : State) (p : Nat) (v : Option (Nat × Nat)) : State :=
  let s := s.modPair p (fun x => { x with st := 3 })
  { s with cph := { s.cph with testing := s.cph.testing ++ [(p, v)] } }

/-- The lookaside pair that R354 step 2 lends: the highest-numbered one that runs no job. -/
def State.lendable (s : State) : Option Nat := ((s.serving 4).filter (fun p => !s.runsJob p)).getLast?

/-- An idle spare is under its test of R352: it remains a spare, and the vacancy waits for it. -/
def State.spareTested (s : State) : Bool := s.cph.testing.any (fun t => t.2.isNone && (s.cpair t.1).cause == 0)

/-- The oldest vacancy is filled as far as it can be (R354). -/
def State.fillOne (s : State) (v : Nat × Nat) (rest : List (Nat × Nat)) : State :=
  let taken := { s with cph := { s.cph with vacant := rest } }
  match (List.range 72).find? (fun p => (s.cpair p).st == 2 && s.islandUp (9 + p / 18)) with
  | some p => taken.startKat p (some v)
  | none =>
    if s.spareTested then s
    else if s.flg Reg.cphCfg 24 ∧ s.serving 4 ≠ [] then
      match s.lendable with
      | some p => (taken.substitute p v.1 v.2).note Ev.cphLookasideLent (beBytes 1 p ++ beBytes 1 v.2)
      | none => s
    else if s.cph.exhausted then s
    else
      (({ s with cph := { s.cph with exhausted := true } }).note Ev.cphSparesExhausted (beBytes 1 v.1)).note Ev.cphCapacityShort
        (beBytes 1 v.1)

/-- Vacancies are filled in time order. -/
def State.fillVacant (s : State) : Nat → State
  | 0 => s
  | n + 1 =>
    match s.cph.vacant with
    | [] => { s with cph := { s.cph with exhausted := false } }
    | v :: rest =>
      let t := s.fillOne v rest
      if t.cph.vacant = rest then State.fillVacant t n else t

/-- A pair is retired with a cause (R353); a role that it served falls vacant, but for lookaside (R354). -/
def State.retirePair (s : State) (p cause : Nat) : State :=
  let x := s.cpair p
  let s := s.modPair p (fun x => { x with st := 4, cause := cause, standsFor := 0x7F })
  let s := s.note Ev.cphPairRetired (beBytes 1 cause)
  let s := if x.st = 1 ∧ x.role ≤ 3 then
      { s with cph := { s.cph with vacant := s.cph.vacant ++ [(x.role, if x.standsFor = 0x7F then p else x.standsFor)] } }
    else s
  (s.fillVacant 72).recheck

/-! ## Jobs (R366, R367, R372) -/

/-- A job descriptor's fields. -/
structure JobDesc where
  mode : Nat
  flags : Nat
  tagLen : Nat
  ivLen : Nat
  key : Nat
  key2 : Nat
  len : Nat
  aad : Nat
  id : Nat
  src : Nat
  dst : Nat
  iv : List Byte
  deriving DecidableEq, Repr

/-- The descriptor in 64 bytes. -/
def JobDesc.of (d : List Byte) : JobDesc :=
  let b := fun o => (d.getD o 0).toNat
  let w := fun o k => ofLe (slice d o k)
  ⟨b 0, b 1, b 2, b 3, w 4 4, w 8 4, w 12 4, w 16 4, w 20 4, w 24 8, w 32 8, (slice d 40 16).take (b 3)⟩

def JobDesc.decrypt (d : JobDesc) : Bool := d.flags.testBit 7
def JobDesc.srcScratch (d : JobDesc) : Bool := d.flags.testBit 6
def JobDesc.dstScratch (d : JobDesc) : Bool := d.flags.testBit 5
def JobDesc.pad (d : JobDesc) : Bool := d.flags.testBit 4

/-- Bytes of the job as DWRR counts them (R370). -/
def JobDesc.bytes (d : JobDesc) : Nat := d.len + d.aad

/-- Source bytes: AAD, payload, and the tag of a verify. -/
def JobDesc.srcLen (d : JobDesc) : Nat := d.bytes + (if d.decrypt then d.tagLen else 0)

/-- Length bounds of a mode (R367). -/
def JobDesc.lenOk (d : JobDesc) : Bool :=
  let n := d.len
  match d.mode with
  | 1 => n == 0
  | 3 => if d.pad ∧ d.decrypt = false then decide (n ≤ 65520) else n % 16 == 0 && decide (16 ≤ n) && decide (n ≤ 65536)
  | 6 => decide (16 ≤ n) && decide (n ≤ 65536)
  | 8 => n % 8 == 0 && (if d.decrypt then decide (24 ≤ n) && decide (n ≤ 4104) else decide (16 ≤ n) && decide (n ≤ 4096))
  | 9 => if d.decrypt then n % 8 == 0 && decide (16 ≤ n) && decide (n ≤ 4104) else decide (1 ≤ n) && decide (n ≤ 4096)
  | _ => decide (n ≤ 65536)

/-- A key word is well coded: reserved bits 0, a vault id up to 255. -/
def keyWordOk (w : Nat) : Bool := w / 2 ^ 17 % 2 ^ 14 == 0 && (slotOfWord w).isSome

/-- The descriptor satisfies R366 and R367. -/
def jobValid (raw : List Byte) : Bool :=
  let d := JobDesc.of raw
  decide (d.mode ≤ 9) && d.flags % 16 == 0 && (!d.pad || d.mode == 3) &&
  (match d.mode with
   | 0 | 1 => decide (12 ≤ d.tagLen) && decide (d.tagLen ≤ 16)
   | 7 => decide (4 ≤ d.tagLen) && decide (d.tagLen ≤ 16)
   | _ => d.tagLen == 0) &&
  d.ivLen == (match d.mode with | 0 | 1 => 12 | 2 | 3 | 4 | 5 | 6 => 16 | _ => 0) &&
  keyWordOk d.key && (if d.mode = 6 then keyWordOk d.key2 && d.key != d.key2 else d.key2 == 0) &&
  (match d.mode with
   | 0 => decide (d.aad ≤ 65536)
   | 1 => decide (1 ≤ d.aad) && decide (d.aad ≤ 65536)
   | _ => d.aad == 0) &&
  d.lenOk && decide (d.bytes ≤ 65536) && slice raw (40 + d.ivLen) (16 - d.ivLen) == zeroBytes (16 - d.ivLen) &&
  slice raw 56 8 == zeroBytes 8

/-- A job ends with a STATUS and an output length. -/
def State.endJob (s : State) (n status len : Nat) : State :=
  match s.job n with
  | none => s
  | some j =>
    let s := match j.item with | some i => s.endItem i | none => s
    let s := s.setJob n (some { j with fin := some (status, len) })
    (s.flushRing j.allot j.ring (s.cph.jobs.length + 1)).fillVacant 72

/-! ## Squashes (R347, R360) -/

/-- The item of kind k ended without its result: what else follows. -/
def State.afterSquash (s : State) (k : ItemKind) (released : Bool) : State :=
  match k with
  | .encFrame o =>
    let s := s.excuse o
    if released then s
    else match SMap.get noneOf s.sch.sending o with
      | some x => s.beginSend o { x with stomp := false, drop := true }
      | none => s
  | .decFrame id =>
    match s.decFrame? id with
    | none => s
    | some f => if s.ctl.mode.isYoke then s.localException f else s.setVerdict id false
  | .cloakTx t => s.excuse (32 + t)
  | .cloakRx _ => s
  | .job _ => s

/-- One work item is squashed. -/
def State.squash (s : State) (id status : Nat) (released : Bool) : State :=
  match s.item id with
  | none => s
  | some i => (s.squashItems (fun k _ => k == id) status).afterSquash i.kind released

/-! ## Compares (R346 to R350) -/

/-- A mismatch of a pair: counted, recorded, limits checked. -/
def State.mismatch (s : State) (p : Nat) (retryAgrees : Bool) : State :=
  let s := s.modPair p (fun x => { x with mismatches := satAdd 255 x.mismatches 1, window := x.window + 1 })
  let s := (s.cphCount 5 1).note Ev.cphMismatch (beBytes 1 p ++ beBytes 1 (flag retryAgrees))
  let s := { s with cph := { s.cph with burst := s.cph.burst + 1 } }
  let s := if s.cph.burst = max 1 (s.fld Reg.cphCfg 23 16) then s.raise Ev.cphMismatchBurst (beBytes 1 p) else s
  if (s.cpair p).window = max 1 (s.fld Reg.cphCfg 7 0) ∧ (s.cpair p).st = 1 then s.retirePair p 1 else s

/-- A pair is retired by a failed retry: everything else in it ends, jobs with NOT_STARTED (R353). -/
def State.retireNow (s : State) (p : Nat) : State :=
  let s := (s.pairItems p).foldl (fun s e => s.squash e.1 10 true) s
  if (s.cpair p).st = 4 then s else s.retirePair p 2

/-- CIPHER_BLOCK_RELEASE (R346 to R348): agree tells that both lanes' results agree, retryAgrees that the retry does, slack
that the pair has slack for a retry, released that part of the item's frame has been released. -/
def execCipherBlockRelease (pair : Fin 72) (item : Nat) (agree retryAgrees slack released : Bool) (s : State) :
    Host.Outcome State Fault Refusal :=
  let p := pair.val
  match s.item item with
  | none => .next s
  | some i =>
    if i.pairs.contains p = false ∨ agree then .next s
    else
      let s := s.mismatch p retryAgrees
      if slack = false then .next (s.squash item 8 released)
      else if retryAgrees then .next s
      else
        let s := (s.cphCount 6 1).note Ev.cphRetryFail (beBytes 1 p)
        .next ((s.squash item 8 released).retireNow p)

/-- MISMATCH_WINDOW_END (R349). -/
def execMismatchWindowEnd (pair : Fin 72) (s : State) : Host.Outcome State Fault Refusal :=
  .next (s.modPair pair.val (fun x => { x with window := 0 }))

/-- BURST_WINDOW_END (R350). -/
def execBurstWindowEnd (s : State) : Host.Outcome State Fault Refusal :=
  .next { s with cph := { s.cph with burst := 0 } }

/-! ## Known-answer tests (R351, R352) -/

/-- SPARE_KAT_TICK (R352): every idle spare is tested. -/
def execSpareKatTick (s : State) : Host.Outcome State Fault Refusal :=
  .next ((List.range 72).foldl (fun s p => if (s.cpair p).st = 2 ∧ s.islandUp (9 + p / 18) then s.startKat p none else s) s)

/-- The host's pair command ends with CODE. -/
def State.pairEnd (s : State) (code : Nat) : State := s.result Reg.cphPairResult code

/-- A test on a pair that a vacancy, the spare tick or the host asked for ends (R351 to R354). -/
def State.katEnd (s : State) (p : Nat) (v : Option (Nat × Nat)) (pass : Bool) : State :=
  let host := s.cph.cmd = some p
  let s := { s with cph := { s.cph with testing := s.cph.testing.filter (fun t => t.1 != p), cmd := if host then none else s.cph.cmd } }
  let s := if pass then
      match v with
      | some (role, x) => (s.substitute p role x).note Ev.cphSubstituted (beBytes 1 p ++ beBytes 1 x)
      | none => s.modPair p (fun x => { x with st := 2, standsFor := 0x7F, cause := 0 })
    else
      let s := s.note Ev.cphKatFail (beBytes 1 p)
      let s := match v with | some w => { s with cph := { s.cph with vacant := w :: s.cph.vacant } } | none => s
      s.retirePair p 3
  let s := if host then s.pairEnd (if pass then 0 else 5) else s
  (s.fillVacant 72).recheck

/-- KAT_DONE (R351, R352, R375): a test of a pair ends; a serving pair is tested in Calibrate, Self-Test and Recovery. -/
def execKatDone (pair : Fin 72) (pass : Bool) (s : State) : Host.Outcome State Fault Refusal :=
  let p := pair.val
  match s.cph.testing.find? (fun t => t.1 == p) with
  | some (_, v) => .next ((s.cphCount 13 1).katEnd p v pass)
  | none =>
    let st := (s.cpair p).st
    if st = 0 ∨ st = 4 ∨ !(s.ctl.mode == .calibrate || s.ctl.mode == .selfTest || s.ctl.mode == .recovery) then .next s
    else if pass then .next (s.cphCount 13 1)
    else .next (((s.cphCount 13 1).note Ev.cphKatFail (beBytes 1 p)).retirePair p 3)

/-- WORK_ITEM_END (R358): the item's last block is released. A lookaside job's item ends with its computation. -/
def execWorkItemEnd (item : Nat) (s : State) : Host.Outcome State Fault Refusal := .next (s.endItem item)

/-- FALLOW_SQUASH (R360): an item still holds a snapshot of a slot 9 µs after it entered Fallow. -/
def execFallowSquash (item : Nat) (released : Bool) (s : State) : Host.Outcome State Fault Refusal :=
  match s.item item with
  | none => .next s
  | some i =>
    if i.slots.any (fun c => match s.slot c with | some k => k.st == .fallow | none => false) then
      .next (((s.squash item 9 released).cphCount 12 1).note Ev.cphFallowSquash (beBytes 1 (i.pairs.headD 0xFF)))
    else .next s

/-! ## Pair commands (R377) -/

/-- CPH_PAIR_CMD with OP on a pair. -/
def State.pairRun (s : State) (op p : Nat) : State :=
  let x := s.cpair p
  if op = 0 then s
  else if s.cph.cmd.isSome then s.pairEnd 1
  else if 72 ≤ p then s.pairEnd 2
  else if 3 ≤ op then s.pairEnd 3
  else if s.ctl.mode = .zeroized then s.pairEnd 6
  else if op = 1 then
    if x.st ≠ 1 ∧ x.st ≠ 2 then s.pairEnd 4
    else if x.st = 1 ∧ x.role ≤ 1 ∧ (s.serving x.role).all (· == p) then s.pairEnd 7
    else (s.retirePair p 4).pairEnd 0
  else if x.st ≠ 2 ∧ x.st ≠ 4 then s.pairEnd 4
  else
    let s := s.startKat p none
    { s with cph := { s.cph with cmd := some p } }

/-- The word that a pair command writes. -/
def pairWord (op p : Nat) : Word := BitVec.ofNat 32 (op * 256 + p)

/-- PAIR_RETIRE. -/
def execPairRetire (path : Path) (pair : Fin 128) (s : State) : Host.Outcome State Fault Refusal :=
  .next (s.hostWrite path Reg.cphPairCmd (pairWord 1 pair.val) (fun s => s.pairRun 1 pair.val))

/-- PAIR_KAT. -/
def execPairKat (path : Path) (pair : Fin 128) (s : State) : Host.Outcome State Fault Refusal :=
  .next (s.hostWrite path Reg.cphPairCmd (pairWord 2 pair.val) (fun s => s.pairRun 2 pair.val))

/-- PAIR_CMD_UNKNOWN: OP 3 to 15; OP 0 to 2 are other rows'. -/
def execPairCmdUnknown (path : Path) (op : Fin 16) (pair : Fin 128) (s : State) : Host.Outcome State Fault Refusal :=
  if op.val < 3 then .next s
  else .next (s.hostWrite path Reg.cphPairCmd (pairWord op.val pair.val) (fun s => s.pairRun op.val pair.val))

/-! ## Rings (R515, R517) -/

/-- Descriptors that wait in ring r of allotment n. -/
def State.ringWaiting (s : State) (n r : Nat) : Nat := (s.ringH n r + 65536 - s.ringM n r % 65536) % 65536

/-- Completion ring slots of allotment n that are reserved and not yet written. -/
def State.reservedSlots (s : State) (n : Nat) : Nat :=
  (s.hif.ringCmds.filter (fun c => c.allot == n)).length +
  (s.cph.jobs.filter (fun e => match e.2 with | some j => j.allot == n | none => false)).length +
  (s.sch.arrivals.filter (fun f => match f.inject with | some i => i.allot == n | none => false)).length +
  (s.sch.frames.filter (fun e => match e.2.bind (·.inject) with | some i => i.allot == n | none => false)).length

/-- The module may fetch the next descriptor of ring r of allotment n. -/
def State.mayFetch (s : State) (n r : Nat) : Bool :=
  s.hif.linkUp && s.ringOn n r && s.ringOn n 11 && (s.allotState n == .running) && decide (0 < s.ringWaiting n r) &&
  decide ((s.ringM n 11 + 65536 - s.ringH n 11) % 65536 + s.reservedSlots n < 2 ^ s.ringLog2 n 11 - 1)

/-- The next descriptor of a ring is fetched: its index, and the ring one further. -/
def State.fetchNext (s : State) (n r : Nat) : Nat × State :=
  let m := s.ringM n r
  (m, { s with hif := { s.hif with ringMod := SMap.set zeroOf s.hif.ringMod (n * 16 + r) ((m + 1) % 65536) } })

/-- LOOKASIDE_JOB (R366, R370): the next descriptor of a job ring is fetched and checked; a bad one completes with
BAD_DESCRIPTOR once the jobs before it have. -/
def execLookasideJob (allot : Fin 64) (ring : Fin 9) (desc : List Byte) (s : State) : Host.Outcome State Fault Refusal :=
  let n := allot.val
  let r := ring.val
  if r = 0 ∨ s.mayFetch n r = false then .next s
  else
    let (idx, s) := s.fetchNext n r
    let s := s.inc (Reg.hifCountLo 1)
    let ok := jobValid desc
    let k := s.cph.nextJob
    let s := s.setJob k (some ⟨n, r, idx, desc, none, 0xFF, 0, [], if ok then none else some (3, 0)⟩)
    let s := { s with cph := { s.cph with nextJob := k + 1 } }
    if ok then .next s
    else .next ((s.noteFor Ev.cphJobRefused n (beBytes 1 r)).flushRing n r (s.cph.jobs.length + 1))

/-! ## What a job computes (R367) -/

/-- A byte string in blocks of 16. -/
def blocks16 (b : List Byte) : List (List Byte) := (List.range ((b.length + 15) / 16)).map (fun i => (b.drop (16 * i)).take 16)

/-- CBC both ways. -/
def cbcEnc (k prev : List Byte) : List (List Byte) → List Byte
  | [] => []
  | b :: bs => let c := Config.aes k (xorBytes b prev); c ++ cbcEnc k c bs
def cbcDec (k prev : List Byte) : List (List Byte) → List Byte
  | [] => []
  | c :: cs => xorBytes (Config.aesDec k c) prev ++ cbcDec k c cs

/-- CFB128 both ways: the final segment is truncated. -/
def cfbEnc (k prev : List Byte) : List (List Byte) → List Byte
  | [] => []
  | b :: bs => let c := xorBytes b (Config.aes k prev); c ++ cfbEnc k c bs
def cfbDec (k prev : List Byte) : List (List Byte) → List Byte
  | [] => []
  | c :: cs => xorBytes c (Config.aes k prev) ++ cfbDec k c cs

/-- OFB. -/
def ofbRun (k prev : List Byte) : List (List Byte) → List Byte
  | [] => []
  | b :: bs => let o := Config.aes k prev; xorBytes b o ++ ofbRun k o bs

/-- PKCS#7 padding, and its removal. -/
def pkcsPad (b : List Byte) : List Byte :=
  let k := 16 - b.length % 16
  b ++ List.replicate k (BitVec.ofNat 8 k)
def pkcsUnpad (b : List Byte) : Option (List Byte) :=
  let v := (b.getLast?.getD 0).toNat
  if 1 ≤ v ∧ v ≤ 16 ∧ v ≤ b.length ∧ (b.drop (b.length - v)).all (fun x => x.toNat == v) then some (b.take (b.length - v)) else none

/-- The STATUS and the destination bytes of a job whose source is src: 1 for a failed tag or integrity check, 2 for failed
padding. -/
def jobResult (d : JobDesc) (k k2 src : List Byte) : Nat × List Byte :=
  let aad := src.take d.aad
  let text := (src.drop d.aad).take d.len
  let tag := (src.drop (d.aad + d.len)).take d.tagLen
  let bs := blocks16 text
  match d.mode with
  | 0 | 1 =>
    if d.decrypt then
      let p := Config.ctr k (d.iv ++ beBytes 4 2) text
      if (Config.gcmSeal k d.iv aad p).2.take d.tagLen = tag then (0, p) else (1, [])
    else let (c, t) := Config.gcmSeal k d.iv aad text; (0, c ++ t.take d.tagLen)
  | 2 => (0, Config.ctr k d.iv text)
  | 3 =>
    if d.decrypt then
      let p := cbcDec k d.iv bs
      if d.pad then (match pkcsUnpad p with | some x => (0, x) | none => (2, [])) else (0, p)
    else (0, cbcEnc k d.iv (blocks16 (if d.pad then pkcsPad text else text)))
  | 4 => (0, if d.decrypt then cfbDec k d.iv bs else cfbEnc k d.iv bs)
  | 5 => (0, ofbRun k d.iv bs)
  | 6 => (0, if d.decrypt then Config.xtsDec (k ++ k2) d.iv text else Config.xtsEnc (k ++ k2) d.iv text)
  | 7 =>
    let t := (Config.cmac k text).take d.tagLen
    if d.decrypt then (if t = tag then (0, []) else (1, [])) else (0, t)
  | 8 => if d.decrypt then (match Config.kwUnwrap k text with | some x => (0, x) | none => (1, [])) else (0, Config.kwWrap k text)
  | _ => if d.decrypt then (match Config.kwpUnwrap k text with | some x => (0, x) | none => (1, [])) else (0, Config.kwpWrap k text)

/-- AES blocks of a job (R365, R389). -/
def JobDesc.blocks (d : JobDesc) : Nat :=
  let n := (d.len + 15) / 16
  match d.mode with
  | 0 => n + 1
  | 1 => 1
  | 3 => if d.pad ∧ d.decrypt = false then d.len / 16 + 1 else n
  | 6 => n + 1
  | 7 => max 1 n
  | 8 => 6 * (d.len / 8 - (if d.decrypt then 1 else 0))
  | 9 => let m := (d.len + 7) / 8 - (if d.decrypt then 1 else 0); if m ≤ 1 then 1 else 6 * m
  | _ => n

/-! ## Scratch windows (R290, R294) -/

/-- The lines that a byte range of a window meets. -/
def linesOf (off len : Nat) : List Nat := if len = 0 then [] else (List.range ((off + len - 1) / 64 + 1 - off / 64)).map (· + off / 64)

/-- A scratch request of allotment n for the line at an address: its domain, or none where it ends with BUSY or ERROR (R280, R300). -/
def State.scratchGate (s : State) (n addr : Nat) : State × Option Domain :=
  if s.guardUp = false then (s, none)
  else
    let s := s.retillSweep
    match s.queueDomain n with
    | some d =>
      if addr < d.size then (if s.mgd.winInit.contains n then (s, none) else (s, some d))
      else ((s.mgdCount 14 1).note Ev.mgdRangeRefused (beBytes 1 n ++ beBytes 8 (d.base + addr)), none)
    | none => ((s.mgdCount 14 1).note Ev.mgdRangeRefused (beBytes 1 n ++ beBytes 8 addr), none)

/-- One line of a scratch read: STATUS 0, 5 for POISON, 7 for ERROR, and its bytes; a read ends at the first line that fails. -/
def State.scratchReadLine (n : Nat) (a : State × Nat × List Byte × MemOutcome) (i : Nat) : State × Nat × List Byte × MemOutcome :=
  let (s, st, bs, x) := a
  if st ≠ 0 then a
  else
    match s.scratchGate n (64 * i) with
    | (s, none) => (s, 7, [], x)
    | (s, some d) =>
      let l := d.line (d.base + 64 * i)
      let (s, r) := (s.mgdCount 0 1).verify d l n x
      (s, if r = 1 then 5 else if r = 2 then 7 else 0, bs ++ (s.gline l).data, .good)

/-- A byte range of allotment n's window is read; seen is what the first line's read shows. -/
def State.scratchRead (s : State) (n off len : Nat) (seen : MemOutcome) : State × Nat × List Byte :=
  let (s, st, bs, _) := (linesOf off len).foldl (State.scratchReadLine n) (s, 0, [], seen)
  (s, st, slice bs (off % 64) len)

/-- One line of a scratch write: STATUS 6 where a partial write meets a poisoned line, which stays poisoned; 7 for ERROR. Every
other line is still written (R294, R373). -/
def State.scratchWriteLine (n off : Nat) (data : List Byte) (a : State × Nat × MemOutcome) (i : Nat) : State × Nat × MemOutcome :=
  let (s, st, x) := a
  match s.scratchGate n (64 * i) with
  | (s, none) => (s, 7, x)
  | (s, some d) =>
    let l := d.line (d.base + 64 * i)
    let part := if 64 * i < off then data.take (64 * i + 64 - off) else (data.drop (64 * i - off)).take 64
    if part.length = 64 then
      let (s, r) := s.writeLine d l part .good n
      (s, if r = 0 then st else 7, x)
    else
      let (s, r) := (s.mgdCount 2 1).verify d l n x
      if r = 0 then
        let (s, r) := s.writeLine d l (patch (s.gline l).data (off - 64 * i) part) .good n
        (s, if r = 0 then st else 7, .good)
      else if r = 1 then
        let s := ((s.mgdCount 6 1).poisonLines d l 1).note Ev.mgdPoisonWrite (beBytes 1 n ++ beBytes 8 (d.base + 64 * i))
        (s, if st = 7 then 7 else 6, .good)
      else (s, 7, .good)

/-- A byte range of allotment n's window is written; seen is what the first partial line's read shows. -/
def State.scratchWrite (s : State) (n off : Nat) (data : List Byte) (seen : MemOutcome) : State × Nat :=
  let (s, st, _) := (linesOf off data.length).foldl (State.scratchWriteLine n off data) (s, 0, seen)
  (s, st)

/-! ## Admission and completion (R368, R370, R371) -/

/-- A waiting job may start as far as its ring goes: every earlier job of the ring has started or ended. -/
def State.jobFirst (s : State) (n : Nat) (j : Job) : Bool :=
  j.item.isNone && j.fin.isNone && s.cph.jobs.all (fun e => match e.2 with
    | some x => !(x.allot == j.allot && x.ring == j.ring && decide (e.1 < n)) || x.item.isSome || x.fin.isSome
    | none => true)

/-- The job that an allotment's rings offer next, round-robin (R370). -/
def State.nextJobOf (s : State) (allot : Nat) : Option (Nat × Job) :=
  let last := SMap.get zeroOf s.cph.lastRing allot
  let ready := s.cph.jobs.filterMap (fun e => e.2.bind (fun j => if j.allot = allot ∧ s.jobFirst e.1 j then some (e.1, j) else none))
  match ready.find? (fun x => last < x.2.ring) with
  | some x => some x
  | none => ready.head?

/-- The job that DWRR over allotments picks, with the deficits after it. -/
def State.chooseJob (s : State) : Option (Nat × Job × SMap Nat) :=
  let cs := (List.range 64).filterMap (fun a =>
    if s.allotState a != .running then none
    else (s.nextJobOf a).map (fun x => Child.mk a (max 1 (s.fld (Reg.cphAllotWeight a) 9 0) * 4096) (JobDesc.of x.2.desc).bytes))
  match dwrr s.cph.deficit s.cph.turn cs with
  | (d, some c) => (s.nextJobOf c.key).map (fun x => (x.1, x.2, SMap.set zeroOf d c.key (SMap.get zeroOf d c.key - c.len)))
  | _ => none

/-- Staging of a pair that jobs use, of 2 MiB. -/
def State.stagingUsed (s : State) (p : Nat) : Nat :=
  (s.cph.jobs.map (fun e => match e.2 with
    | some j => if j.item.isSome ∧ j.fin.isNone ∧ j.pair = p then (JobDesc.of j.desc).srcLen + j.output.length else 0
    | none => 0)).sum

/-- A lookaside pair that can hold a job. -/
def State.jobPair (s : State) (d : JobDesc) : Option Nat :=
  (s.serving 4).find? (fun p => decide (s.pairLoad p < 16) && decide (s.stagingUsed p + 2 * d.srcLen + 64 ≤ 2 * mib))

/-- The slots that a job names. -/
def JobDesc.slots (d : JobDesc) : List Nat :=
  (match slotOfWord d.key with | some c => [c] | none => []) ++
  (if d.mode = 6 then (match slotOfWord d.key2 with | some c => [c] | none => []) else [])

/-- R368 for one slot. -/
def State.jobSlotOk (s : State) (allot : Nat) (d : JobDesc) (c : Nat) : Bool :=
  match s.slot c with
  | some k => s.mayStart c && s.slotOwner c == allot && bit k.attr (if d.decrypt then 11 else 12)
  | none => false

/-- SIZE of a slot's ATTR. -/
def State.slotSize (s : State) (c : Nat) : Bool := match s.slot c with | some k => attrSize k.attr | none => false

/-- A job starts on pair p with its source staged, or ends where it may not. -/
def State.startJob (s : State) (n : Nat) (j : Job) (p : Nat) (src : List Byte) (badCheck : Bool) : State :=
  let d := JobDesc.of j.desc
  let cs := d.slots
  let k := fun i => s.keyOf (cs.getD i 0)
  if cs.all (s.jobSlotOk j.allot d) = false then s.endJob n 4 0
  else if badCheck then (s.slotCheckFail (cs.getD 0 0)).endJob n 4 0
  else if d.mode = 6 ∧ s.slotSize (cs.getD 0 0) ≠ s.slotSize (cs.getD 1 0) then (s.noteFor Ev.cphJobRefused j.allot (beBytes 1 j.ring)).endJob n 3 0
  else
    let (st, out) := jobResult d (k 0) (k 1) src
    let (id, s) := s.startItem (.job n) cs d.blocks [p]
    (s.cphCount 4 d.blocks).setJob n (some { j with item := some id, pair := p, status := st, output := out })

/-- LOOKASIDE_ADMIT (R368, R370, R371): the next job of DWRR is admitted to a pair. src is a host source, fetched tells that
its transfer succeeded (R508), seen what the first scratch line shows, badCheck that a slot fails its check value. -/
def execLookasideAdmit (src : List Byte) (fetched : Bool) (seen : MemOutcome) (badCheck : Bool) (s : State) :
    Host.Outcome State Fault Refusal :=
  let s := s.flushAll
  match s.chooseJob with
  | none => .next s
  | some (n, j, deficit) =>
    let d := JobDesc.of j.desc
    match s.jobPair d with
    | none => .next s
    | some p =>
      if (d.srcScratch || d.dstScratch) && s.mgd.winInit.contains j.allot then .next s
      else
        let s := { s with cph := { s.cph with
          deficit := deficit, turn := some j.allot, lastRing := SMap.set zeroOf s.cph.lastRing j.allot j.ring } }
        if d.srcScratch then
          let (s, st, b) := s.scratchRead j.allot d.src d.srcLen seen
          if st = 0 then .next (s.startJob n j p b badCheck) else .next (s.endJob n st 0)
        else if fetched = false then
          .next (((s.inc (Reg.hifCountLo 5)).noteFor Ev.hifDmaError j.allot).endJob n 7 0)
        else .next (s.startJob n j p (slice src 0 d.srcLen) badCheck)

/-- LOOKASIDE_COMPLETE (R371 to R373): a job's computation is done; a good one writes its destination. written tells that
the host took the output, seen what a partial scratch line's read shows. -/
def execLookasideComplete (job : Nat) (written : Bool) (seen : MemOutcome) (s : State) : Host.Outcome State Fault Refusal :=
  match s.job job with
  | none => .next s
  | some j =>
    let d := JobDesc.of j.desc
    if j.item.isNone ∨ j.fin.isSome then .next s
    else if j.status ≠ 0 then .next (s.endJob job j.status 0)
    else if d.dstScratch then
      let (s, st) := s.scratchWrite j.allot d.dst j.output seen
      .next (s.endJob job st (if st = 0 then j.output.length else 0))
    else if written = false then
      .next (((s.inc (Reg.hifCountLo 5)).noteFor Ev.hifDmaError j.allot).endJob job 7 0)
    else
      let s := if j.output = [] then s else s.dma j.allot true d.dst j.output
      .next (s.endJob job 0 j.output.length)

end Sys2Proof.Machine
end

