-- ==== Sys2Proof/Machine/Vault.lean ====
section
/-! DEFINITION. The Key Vault's commands (chapter 12): loads and erasure, provisioning, identity, life-cycle transitions,
re-seeding, masks, the generator, sealing and unsealing. -/

namespace Sys2Proof.Machine

open Sys2Proof

/-! ## Derivations (R379 to R381, R384) -/

/-- The KDF context of R380: serial number and life-cycle code. -/
def State.rootContext (s : State) : List Byte := beBytes 8 Config.serial.toNat ++ beBytes 1 s.boot.otpLife.code

/-- A derivation by label from the root of the present state. -/
def State.derive (s : State) (label : String) (n : Nat) : List Byte :=
  Config.kdf (s.presentRoot.getD []) (ascii label) s.rootContext n

/-- The 384 bits of the generator that a root is made of (R482), and a root. -/
def rootOf (k : Nat) : List Byte := (Config.sha384 (Config.freeBytes k 48)).take 32

/-- Identity signatures over a digest (R384). -/
def State.signEc (s : State) (digest : List Byte) : List Byte := slice (Config.ecdsaSign (s.derive "LM3216 IDEC" 448) digest) 0 96
def State.signMl (s : State) (ctx : String) (digest : List Byte) : List Byte :=
  slice (Config.mldsaSign (s.derive "LM3216 IDMD" 256) (ascii ctx) digest) 0 3309

/-! ## Window registers -/

/-- Counter c of the Key Vault. -/
def State.kvtCount (s : State) (c : Nat) : State := s.inc (Reg.kvtCountLo c)

/-- The 48 bytes of KVT_CMD_DATA, SLOT word, ATTR, ARG of window n. -/
def State.kvtData (s : State) (n : Nat) : List Byte :=
  (List.range 12).flatMap (fun w => beBytes 4 (s.rd (privKey n (Reg.kvtCmdData w))).toNat)
def State.kvtSlotWord (s : State) (n : Nat) : Nat := (s.rd (privKey n Reg.kvtCmdSlot)).toNat
def State.kvtAttr (s : State) (n : Nat) : Word := s.rd (privKey n Reg.kvtCmdAttr)
def State.kvtArg (s : State) (n hi lo : Nat) : Nat := s.fld (privKey n Reg.kvtCmdArg) hi lo

/-- k bytes of KVT_XFER from offset o. -/
def State.xfer (s : State) (o k : Nat) : List Byte :=
  let ws := (List.range (k / 4 + 2)).flatMap (fun i => beBytes 4 (s.rd (Reg.kvtXfer (o / 4 + i))).toNat)
  (ws.drop (o % 4)).take k

/-- Bytes written to KVT_XFER from offset 0. -/
def State.putXfer (s : State) (b : List Byte) : State :=
  (List.range ((b.length + 3) / 4)).foldl (fun s i => s.wr (Reg.kvtXfer i) (BitVec.ofNat 32 (ofBe (slice b (4 * i) 4)))) s

/-- KVT_XFER is cleared. -/
def State.clearXfer (s : State) : State := s.clearRegs (Reg.kvtXfer 0) (Reg.kvtXfer 4096)

/-- A command of window n ends: DATA is cleared, a refusal raises KVT_CMD_REFUSED. A busy refusal leaves the running
command alone (R572). -/
def State.kvtEnd (s : State) (n code : Nat) : State :=
  let w := s.kvtSlotWord n
  let s := if code = 1 then s.result (privKey n Reg.kvtCmdResult) 1
    else (s.clearRegs (privKey n (Reg.kvtCmdData 0)) (privKey n (Reg.kvtCmdData 12))).cmdEnd 10 n Reg.kvtCmdResult code
  let s := if code = 8 then s.followerRefusal else s
  if code = 0 then s else s.noteFor Ev.kvtCmdRefused n (beBytes 1 code ++ beBytes 4 w)

/-- Stores outstanding for a waiting command. -/
def State.storesOf (s : State) (who : Waiter) : Nat :=
  (s.st.queue.filter (fun r => r.who == who)).length +
  (match s.st.mram with | some r => if r.who = who then 1 else 0 | none => 0) +
  (match s.st.nor with | some r => if r.who = who then 1 else 0 | none => 0)

/-- A command of window n ends once its stores are durable: at once when it asked for none; with CODE 17 when one was
refused (R393). -/
def State.kvtAwait (s : State) (n op arg : Nat) (ok : Bool) : State :=
  let k := s.storesOf (.unit 10 n)
  if ok = false then s.kvtEnd n 17 else if k = 0 then s.kvtEnd n 0 else s.startRun 10 n op k 0 arg

/-! ## Loads (R388, R391, R393, R402, R410) -/

/-- ATTR breaks R387, R388 or R410 for slot c. -/
def State.attrBad (s : State) (c : Nat) (a : Word) : Bool :=
  bit a 8 || bits a 6 2 != 0 ||
  (if c < vaultBase then
    bits a 12 9 != 0 || bits a 15 13 == 0 || (s.ctl.mode == .yokeLead && !attrYoke a) ||
    (match s.ctx (c / 2) with
     | some x => attrOwner a != x.owner || attrPersist a != x.persist ||
         (if x.kind = 1 then attrSize a != x.key256 || bit a 13 else !attrSize a || bits a 15 14 != 0)
     | none => true)
   else bits a 15 13 != 0 || bits a 12 9 == 0 || attrOwner a != SMap.get zeroOf s.kvt.grants c || attrAn a != 0)

/-- AN of ATTR equals that of the association's other slot while that is Loaded, Active or Fallow. -/
def State.anConflict (s : State) (c : Nat) (a : Word) : Bool :=
  decide (c < vaultBase) && s.slotBound (c / 2 * 2 + (1 - c % 2)) &&
  (match s.ctx (c / 2) with | some x => x.an (1 - c % 2) == attrAn a | none => false)

/-- The slot word names a slot that commands of window n reach: the code, or the CODE of the refusal. Vault slots 252 to
255 are not host software's. -/
def State.reachSlot (s : State) (n w : Nat) : Except Nat Nat :=
  match slotOfWord w with
  | none => .error 4
  | some c =>
    if vaultBase + 252 ≤ c then .error 2
    else if n ≠ 0 ∧ s.slotOwner c ≠ n then .error 2
    else .ok c

/-- What a load of window n into slot c with ATTR is refused with; 0 if it may commit. -/
def State.loadCode (s : State) (c : Nat) (a : Word) : Nat :=
  if c < vaultBase ∧ (s.ctx (c / 2)).isNone then 3
  else if (match s.slot c with | some k => k.st == .fallow | none => false) = true then 3
  else if s.attrBad c a then 4
  else if s.anConflict c a then 7
  else 0

/-- The slot commit of a load: key under its mask, ATTR, CHECK, usage 0, fingerprint, the context's AN (R386, R391, R393, R394);
every cached copy takes the key first (R395). -/
def State.installKey (s : State) (c : Nat) (key : List Byte) (a : Word) : State :=
  let inflight := match s.slot c with | some k => k.inflight | none => 0
  let key := slice key 0 (attrBytes a)
  let s := (s.updateCopies c key).setSlot c
    (some ⟨.loaded, maskedKey s.storeMask c key, a &&& attrMask, s.slotCheck c key a, s.kvt.generation, 0, keyFp key, inflight, false, false⟩)
  if c < vaultBase then
    s.modCtx (c / 2) (fun x =>
      let x := if c % 2 = 0 then { x with an0 := attrAn a } else { x with an1 := attrAn a }
      if c % 2 = x.txSlot then x else { x with holdLeft := 0 })
  else s

/-- The store of a slot's sealed record, or the clearing of one that a key without PERSIST replaces (R402). -/
def State.sealSlot (s : State) (c : Nat) (key : List Byte) (a : Word) (who : Waiter) : State × Bool :=
  if attrPersist a then
    let (r, s) := s.sealRec 1 (slotWord c) (setBits (a &&& attrMask) 31 29 1) (slice key 0 32)
    s.storeSealed (.slotRec c (some r)) who
  else if s.slotRecUsed c then s.storeSealed (.slotRec c none) who
  else (s, true)

/-- The stores that a key in a data slot starts: the transmit SA, the receive state (R320, R321). -/
def State.startSas (s : State) (c : Nat) (who : Waiter) : State × Bool :=
  match s.ctx (c / 2) with
  | none => (s, true)
  | some x =>
    if decide (c < vaultBase) && x.kind == 1 then
      let (s, ok) := if x.txSlot = c % 2 then s.startTxSa (c / 2) (c % 2) who else (s, true)
      let (s, ok') := s.startRxSa (c / 2) (c % 2) who
      (s, ok && ok')
    else (s, true)

/-- A load of window n's command OP commits and its stores follow (R393). -/
def State.commitLoad (s : State) (n op c : Nat) (key : List Byte) (a : Word) : State :=
  let s := ((s.installKey c key a).kvtCount 0).conveySlot c 1
  let (s, ok) := s.startSas c (.unit 10 n)
  let (s, ok') := s.sealSlot c (slice key 0 (attrBytes a)) a (.unit 10 n)
  s.kvtAwait n op c (ok && ok')

/-- A load of window n with a key. -/
def State.load (s : State) (n op c : Nat) (key : List Byte) (a : Word) : State :=
  let code := s.loadCode c a
  if code = 0 then s.commitLoad n op c key a else s.kvtEnd n code

/-- A slot that serves as a key for the vault's own work: its use bit, and window n's ownership. -/
def State.useSlot (s : State) (n v use : Nat) : Nat :=
  if 256 ≤ v then 4
  else
    let c := vaultBase + v
    if n ≠ 0 ∧ s.slotOwner c ≠ n then 2
    else match s.slot c with
      | some k => if k.usable = false then 3 else if bit k.attr use then 0 else 2
      | none => 3

/-- LOAD. -/
def State.kvtLoad (s : State) (n : Nat) : State :=
  match s.reachSlot n (s.kvtSlotWord n) with
  | .error e => s.kvtEnd n e
  | .ok c => s.load n 1 c (s.kvtData n) (s.kvtAttr n)

/-- IMPORT_KW. -/
def State.kvtImport (s : State) (n : Nat) : State :=
  match s.reachSlot n (s.kvtSlotWord n) with
  | .error e => s.kvtEnd n e
  | .ok c =>
    let v := s.kvtArg n 8 0
    let a := s.kvtAttr n
    let e := s.useSlot n v 10
    if e ≠ 0 then s.kvtEnd n e
    else
      match Config.kwUnwrap (s.keyOf (vaultBase + v)) ((s.kvtData n).take (attrBytes a + 8)) with
      | none => ((s.kvtCount 1).noteFor Ev.kvtImportFail n (beBytes 4 (slotWord c))).kvtEnd n 6
      | some key => s.load n 2 c key a

/-- A command waits for the generator (R383). -/
def State.awaitBits (s : State) (n op : Nat) : State := s.startRun 10 n op 0 15 0

/-- GENERATE. -/
def State.kvtGenerate (s : State) (n : Nat) : State :=
  match s.reachSlot n (s.kvtSlotWord n) with
  | .error e => s.kvtEnd n e
  | .ok c =>
    if c < vaultBase then s.kvtEnd n 4
    else if s.kvt.rbgHealthy = false then s.awaitBits n 3
    else
      let (k, s) := s.rbgTake 1
      s.load n 3 c (Config.freeBytes k 32) (s.kvtAttr n)

/-- DERIVE (R381). -/
def State.kvtDerive (s : State) (n : Nat) : State :=
  match s.reachSlot n (s.kvtSlotWord n) with
  | .error e => s.kvtEnd n e
  | .ok c =>
    let len := s.kvtArg n 23 16
    let v := s.kvtArg n 8 0
    let a := s.kvtAttr n
    let e := s.useSlot n v 9
    if c < vaultBase ∨ len = 0 ∨ 48 < len then s.kvtEnd n 4
    else if e ≠ 0 then s.kvtEnd n e
    else s.load n 4 c (Config.kdf (s.keyOf (vaultBase + v)) ((s.kvtData n).take len) (beBytes 4 (slotWord c)) (8 * attrBytes a)) a

/-- ERASE (R391, R402). -/
def State.kvtErase (s : State) (n : Nat) : State :=
  match s.reachSlot n (s.kvtSlotWord n) with
  | .error e => s.kvtEnd n e
  | .ok c =>
    if s.slotUsable c then
      let (s, ok) := s.eraseSlot c (.unit 10 n)
      s.kvtAwait n 5 c ok
    else s.kvtEnd n 0

/-- READ_ATTR. -/
def State.kvtReadAttr (s : State) (n : Nat) : State :=
  match slotOfWord (s.kvtSlotWord n) with
  | none => s.kvtEnd n 4
  | some c =>
    if n ≠ 0 ∧ s.slotOwner c ≠ n then s.kvtEnd n 2
    else
      let (a, u, f) := match s.slot c with | some k => (k.fullAttr, k.usage, k.fp) | none => (0, 0, 0)
      let put := fun (s : State) (r : Nat) (v : Nat) => s.wr (privKey n r) (BitVec.ofNat 32 v)
      let s := s.wr (privKey n Reg.kvtCmdAttr) a
      (put (put (put (put s Reg.kvtCmdUsageLo u) Reg.kvtCmdUsageHi (u / 2 ^ 32)) Reg.kvtCmdFpLo f) Reg.kvtCmdFpHi (f / 2 ^ 32)).kvtEnd n 0

/-- GRANT (R388, R577). -/
def State.kvtGrant (s : State) (n : Nat) : State :=
  match s.reachSlot n (s.kvtSlotWord n) with
  | .error e => s.kvtEnd n e
  | .ok c =>
    let o := s.kvtArg n 5 0
    if c < vaultBase then s.kvtEnd n 4
    else if s.allotExists o = false then (s.note Ev.structureBound (beBytes 4 Reg.kvtCmd)).kvtEnd n 4
    else if s.slotBound c then s.kvtEnd n 3
    else ({ s with kvt := { s.kvt with grants := SMap.set zeroOf s.kvt.grants c o } }).kvtEnd n 0

/-! ## Provisioning (R398 to R400) -/

/-- The session ends. -/
def State.closeSession (s : State) : State :=
  ({ s with kvt := { s.kvt with session := none } }).note Ev.provSession (beBytes 1 1)

/-- PROV_OPEN. -/
def State.provOpen (s : State) (n : Nat) : State :=
  if s.kvt.session.isSome then s.kvtEnd n 11
  else if s.kvt.rbgHealthy = false then s.awaitBits n 8
  else
    let (k, s) := s.rbgTake 3
    let nonce := Config.freeBytes k 32
    let ec := Config.freeBytes (k + 1) 48
    let kem := Config.freeBytes (k + 2) 64
    let head := ascii "SLPQ" ++ beBytes 8 Config.serial.toNat ++ beBytes 1 s.boot.otpLife.code ++ zeroBytes 3 ++ slice nonce 0 32 ++
      slice (Config.ecdhPublic ec) 0 97 ++ zeroBytes 3 ++ slice (Config.mlkemPublic kem) 0 1568
    let d := Config.sha384 head
    let req := head ++ s.signEc d ++ s.signMl "LM3216-PQ" d ++ zeroBytes 3
    let s := { s with kvt := { s.kvt with session := some ⟨nonce, ec, kem, req, false, [], []⟩ } }
    ((s.putXfer req).note Ev.provSession (beBytes 1 0)).kvtEnd n 0

/-- Anchor k, programmed and not revoked, holds the hash of two public keys, and both signatures over a digest verify
(R399). -/
def State.anchorAccepts (s : State) (k : Nat) (ec ml digest ecSig mlSig : List Byte) (ctx : String) : Bool :=
  match s.kvt.anchors[k]? with
  | some a =>
    let e := Config.ecdsaVerify ec digest ecSig
    let m := Config.mldsaVerify ml (ascii ctx) digest mlSig
    a.hash == some (Config.sha384 (ec ++ ml)) && !a.revoked && e && m
  | none => false

/-- The session key of R399. -/
def sessionKey (zE zK th : List Byte) : List Byte :=
  (Config.sha384 (beBytes 4 1 ++ zE ++ zK ++ ascii "LM3216-PROV" ++ th)).take 32

/-- ATTR of a 256-bit key that host software cannot use: the session key, the pair key. -/
def innerAttr : Word := 0x10000000#32

/-- PROV_ACCEPT. -/
def State.provAccept (s : State) (n : Nat) : State :=
  match s.kvt.session with
  | none => s.kvtEnd n 11
  | some x =>
    if x.accepted then s.kvtEnd n 11
    else
      let r := s.xfer 0 7200
      let at_ := fun o k => slice r o k
      let count := ofBe (at_ 6 2)
      let ok := at_ 0 4 == ascii "SLPS" && decide (1 ≤ count) && decide (count ≤ 64) && at_ 40 32 == x.nonce &&
        s.anchorAccepts (ofBe (at_ 4 2)) (at_ 1740 97) (at_ 1840 1952) (Config.sha384 (at_ 0 3792)) (at_ 3792 96) (at_ 3888 3309)
          "LM3216-PS"
      match (if ok then Config.ecdh x.ecdhSeed (at_ 72 97) else none) with
      | none => ((s.note Ev.provAuthFail).closeSession).kvtEnd n 10
      | some zE =>
        let zK := Config.mlkemDecap x.kemSeed (at_ 172 1568)
        let key := sessionKey (slice zE 0 48) (slice zK 0 32) (Config.sha384 (slice x.request 0 5124 ++ r))
        let x := { x with ecdhSeed := [], kemSeed := [], accepted := true, records := s.xfer 7200 (64 * count) }
        (({ s with kvt := { s.kvt with session := some x } }).installKey sessionSlot key innerAttr).kvtEnd n 0

/-- IMPORT_PROV (R400). -/
def State.provImport (s : State) (n : Nat) : State :=
  match s.kvt.session with
  | none => s.kvtEnd n 11
  | some x =>
    let i := s.kvtArg n 5 0
    let r := slice x.records (64 * i) 64
    let fail := fun (s : State) => ((s.kvtCount 1).note Ev.kvtImportFail (beBytes 1 i)).kvtEnd n 6
    if x.accepted = false ∨ x.imported.contains i then s.kvtEnd n 11
    else if x.records.length < 64 * (i + 1) ∨ ofBe (slice r 8 4) ≠ i then fail s
    else
      match Config.gcmOpen (s.keyOf sessionSlot) (zeroBytes 8 ++ slice r 8 4) (slice r 0 16) (slice r 16 32) (slice r 48 16) with
      | none => fail s
      | some key =>
        match s.reachSlot n (ofBe (slice r 0 4)) with
        | .error e => s.kvtEnd n e
        | .ok c =>
          let a := BitVec.ofNat 32 (ofBe (slice r 4 4))
          let code := s.loadCode c a
          if code ≠ 0 then s.kvtEnd n code
          else
            ({ s with kvt := { s.kvt with session := some { x with imported := i :: x.imported } } }).commitLoad n 10 c key a

/-- PROV_CLOSE: slot 254 is erased and the session ends. -/
def State.provClose (s : State) (n : Nat) : State :=
  if s.kvt.session.isNone then s.kvtEnd n 11
  else ((s.enterFallow sessionSlot).clearXfer.closeSession).kvtEnd n 0

/-! ## Identity (R384, R385, R397) -/

/-- Two certificates, each after its length. -/
def certBytes (page : List Byte) : List Byte := if page = [] then zeroBytes 8 else page

/-- ID_EXPORT. -/
def State.idExport (s : State) (n : Nat) : State :=
  (s.putXfer (slice s.kvt.pubEc 0 97 ++ slice s.kvt.pubMl 0 1952 ++ certBytes s.mram.idPage)).kvtEnd n 0

/-- CERT_WRITE (R385): each certificate's subject public key must be the module's. -/
def State.certWrite (s : State) (n : Nat) : State :=
  let l0 := ofBe (s.xfer 0 4)
  let c0 := s.xfer 4 l0
  let l1 := ofBe (s.xfer (4 + l0) 4)
  let c1 := s.xfer (8 + l0) l1
  if 7000 < l0 ∨ 7000 < l1 ∨ Config.certKey c0 ≠ s.kvt.pubEc ∨ Config.certKey c1 ≠ s.kvt.pubMl then s.kvtEnd n 10
  else
    let page := beBytes 4 l0 ++ c0 ++ beBytes 4 l1 ++ c1
    let (s, ok) := s.requestStore ⟨.sealedRec, costPage, .idPage page, .unit 10 n, false⟩
    s.kvtAwait n 13 0 ok

/-- Anchor slot k changed. -/
def State.setAnchor (s : State) (k : Nat) (f : Anchor → Anchor) : State :=
  ({ s with kvt := { s.kvt with anchors := modAt f s.kvt.anchors k } }).note Ev.anchorChanged (beBytes 1 k)

/-- ANCHOR_ADD and ANCHOR_REVOKE (R577). -/
def State.anchorAdd (s : State) (n : Nat) : State :=
  let k := s.kvtArg n 1 0
  match s.kvt.anchors[k]? with
  | some ⟨none, _⟩ => (s.setAnchor k (fun a => { a with hash := some (s.kvtData n) })).kvtEnd n 0
  | _ => s.kvtEnd n 3
def State.anchorRevoke (s : State) (n : Nat) : State :=
  let k := s.kvtArg n 1 0
  match s.kvt.anchors[k]? with
  | some ⟨some _, false⟩ => (s.setAnchor k (fun a => { a with revoked := true })).kvtEnd n 0
  | some ⟨some _, true⟩ => s.kvtEnd n 0
  | _ => s.kvtEnd n 3

/-! ## Life-cycle (R405 to R408) -/

/-- The state that five fuses MFG, DEV, PROD, RET, SCRAP decode to (R405). -/
def lifeOf (f : Nat) : LifeCycle :=
  if f.testBit 4 ∨ (f.testBit 1 ∧ f.testBit 2) then .scrapped
  else if f.testBit 3 then .returned
  else if f.testBit 2 then .production
  else if f.testBit 1 then .development
  else if f.testBit 0 then .manufacture
  else .raw

/-- The fuse of a target, and the state that a target code names. -/
def fuseOf : LifeCycle → Nat
  | .raw => 0 | .manufacture => 0 | .development => 1 | .production => 2 | .returned => 3 | .scrapped => 4
def lifeOfCode (k : Nat) : Option LifeCycle :=
  match k with
  | 1 => some .manufacture | 2 => some .development | 3 => some .production | 4 => some .returned | 5 => some .scrapped
  | _ => none

/-- The permitted transitions (R406). -/
def lifeMay : LifeCycle → LifeCycle → Bool
  | .raw, .manufacture => true
  | .manufacture, .development => true
  | .manufacture, .production => true
  | .production, .returned => true
  | .manufacture, .scrapped => true
  | .development, .scrapped => true
  | .production, .scrapped => true
  | .returned, .scrapped => true
  | _, _ => false

/-- The return token of R406 is good. -/
def State.tokenGood (s : State) (target : LifeCycle) : Bool :=
  let t := s.xfer 0 5473
  slice t 0 4 == ascii "SLLC" && ofBe (slice t 4 8) == Config.serial.toNat && ofBe (slice t 12 1) == target.code &&
  s.anchorAccepts (ofBe (slice t 13 1)) (slice t 16 97) (slice t 116 1952) (Config.sha384 (slice t 0 2068)) (slice t 2068 96)
    (slice t 2164 3309) "LM3216-LC"

/-- The Steward overwrites the records in use, and when none is left the identity page, whose store ends the wait (R407 step 2). -/
def State.wipeOn (s : State) : State :=
  if s.kvt.life.isNone then s
  else if s.mram.slots ≠ [] ∨ s.mram.assocs ≠ [] then s.overwriteLeft
  else if storeCap ≤ s.st.queue.length ∨ s.st.has (.idPage []) then s
  else (s.pushStore ⟨.sealedRec, costPage, .idPage [], .unit 10 0, false⟩).1

/-- Evidence of a life-cycle event (R499, R500). -/
def State.lifeEvid (s : State) (k : EvKind) (detail : List Byte) : State :=
  s.evidMain ⟨k.code, k.level, 0xFF, 0, detail, false, s.hdg.hcount⟩

/-- The Hedge at the transition from Raw to Manufacture: HCOUNT starts, the evidence log has its header (R479, R498). -/
def Hedge.begin (h : Hedge) : Hedge := { h with hcount := 0, hcountFrac := 0, header := true, head := chainStart }

/-- Steps 3 to 6 of R407: the new root, but for Scrapped, fuse, roots, evidence, reset. -/
def State.finishAdvance (s : State) (target : LifeCycle) : State :=
  let old := s.boot.otpLife
  let (root, s) := match rootIndex target with
    | some _ => let (k, s) := s.rbgTake 1; (some (rootOf k), s)
    | none => (none, s)
  let fuses := s.kvt.fuses ||| 2 ^ fuseOf target
  let roots := (List.replicate 4 none).set ((rootIndex target).getD 4) root
  let h := if old = .raw then s.hdg.begin else s.hdg
  let s := { s with
    kvt := { s.kvt with fuses := fuses, life := none }
    boot := { s.boot with otpLife := lifeOf fuses }
    hdg := { h with roots := roots, pendingRoot := none } }
  let d := beBytes 1 old.code ++ beBytes 1 s.boot.otpLife.code
  ((s.lifeEvid Ev.lifecycleChange d).note Ev.lifecycleChange d).moduleReset 1

/-- Steps 4 and 5 of R408. -/
def State.finishReseed (s : State) : State :=
  let s := { s with kvt := { s.kvt with life := none } }
  ((s.lifeEvid Ev.reseeded []).note Ev.reseeded).moduleReset 5

/-- The stores of a life-cycle command are durable. -/
def State.finishLife (s : State) : State :=
  match s.kvt.life with
  | none => s
  | some (.advance t) => s.finishAdvance t
  | some .reseed => s.finishReseed

/-- LC_ADVANCE (R406, R407). -/
def State.lcAdvance (s : State) (n : Nat) : State :=
  match lifeOfCode (s.kvtArg n 2 0) with
  | none => s.kvtEnd n 14
  | some t =>
    if !(s.ctl.mode == .ready || (s.ctl.mode == .zeroized && t == .scrapped)) || !lifeMay s.boot.otpLife t then s.kvtEnd n 14
    else if t = .returned ∧ s.tokenGood t = false then (s.note Ev.provAuthFail).kvtEnd n 10
    else if s.kvt.rbgHealthy = false ∧ t ≠ .scrapped then s.awaitBits n 16
    else
      let s := s.eraseWorking
      (({ s with kvt := { s.kvt with life := some (.advance t) } }).startRun 10 n 16 1 0 0).wipeOn

/-- ZEROIZE_ALL (R404): HOST_ZEROIZE at level 5. -/
def State.zeroizeAll (s : State) (n : Nat) : State := (s.kvtEnd n 0).raise Ev.hostZeroize

/-- RESEED (R408). -/
def State.reseed (s : State) (n : Nat) : State :=
  let quiet := s.hdg.sensors.all (fun (x : Sensor) => !x.tripped && !x.raw)
  match rootIndex s.boot.otpLife with
  | none => s.kvtEnd n 14
  | some i =>
    if s.ctl.mode ≠ .zeroized ∨ s.hdg.live = false ∨ quiet = false ∨ 32 ≤ s.kvt.reseeds then s.kvtEnd n 14
    else if s.kvt.rbgHealthy = false then s.awaitBits n 18
    else
      let (k, s) := s.rbgTake 1
      let s := { s with
        kvt := { s.kvt with reseeds := s.kvt.reseeds + 1, life := some .reseed }
        hdg := { s.hdg with roots := s.hdg.roots.set i (some (rootOf k)), zeroized := false } }
      (s.startRun 10 n 18 1 0 0).wipeOn

/-! ## Dispatch of KVT_CMD (R397, R577) -/

/-- Commands for allotment 0 alone; armed commands; those that Degrade and a follower refuse. -/
def kvtZeroOnly (op : Nat) : Bool := decide (7 ≤ op)
def kvtArmed (op : Nat) : Bool := decide (13 ≤ op)
def kvtDegraded (op : Nat) : Bool := [1, 2, 3, 4, 7, 8, 9, 10, 13, 14].contains op
def kvtFollower (op : Nat) : Bool := [1, 2, 3, 4, 5, 7, 10].contains op

/-- The command's own checks and effect. -/
def State.kvtDo (s : State) (n op : Nat) : State :=
  match op with
  | 1 => s.kvtLoad n
  | 2 => s.kvtImport n
  | 3 => s.kvtGenerate n
  | 4 => s.kvtDerive n
  | 5 => s.kvtErase n
  | 6 => s.kvtReadAttr n
  | 7 => s.kvtGrant n
  | 8 => s.provOpen n
  | 9 => s.provAccept n
  | 10 => s.provImport n
  | 11 => s.provClose n
  | 12 => s.idExport n
  | 13 => s.certWrite n
  | 14 => s.anchorAdd n
  | 15 => s.anchorRevoke n
  | 16 => s.lcAdvance n
  | 17 => s.zeroizeAll n
  | _ => s.reseed n

/-- The command OP of window n, with the order of refusals of R577. -/
def State.kvtRun (s : State) (n op : Nat) : State :=
  if op = 0 then s
  else if s.unitBusy 10 n then s.kvtEnd n 1
  else if 18 < op then s.kvtEnd n 16
  else if (kvtZeroOnly op && n != 0) || (op == 1 && s.flg Reg.kvtPolicy 8) then s.kvtEnd n 2
  else if kvtArmed op && !s.isArmed 10 then s.kvtEnd n 9
  else if s.ctl.mode = .zeroized ∧ ([6, 16, 18].contains op) = false then s.kvtEnd n 14
  else if s.boot.otpLife = .raw ∧ ([6, 16].contains op) = false then s.kvtEnd n 14
  else if s.ctl.degraded ∧ kvtDegraded op then s.kvtEnd n 5
  else if s.isFollower ∧ kvtFollower op then s.kvtEnd n 8
  else s.kvtDo n op

/-- KVT_CMD is written with an OP through a path. -/
def State.kvtWrite (s : State) (i : Instr) (path : Path) (op : Nat) : State :=
  s.cmdWrite i path Reg.kvtCmd (fun n s => s.kvtRun n op)

/-- LOAD (R391, R393). -/
def execKvtLoad (path : Path) (s : State) : Host.Outcome State Fault Refusal := .next (s.kvtWrite (.kvtLoad path) path 1)
/-- IMPORT_KW. -/
def execImportKw (path : Path) (s : State) : Host.Outcome State Fault Refusal := .next (s.kvtWrite (.importKw path) path 2)
/-- GENERATE. -/
def execKvtGenerate (path : Path) (s : State) : Host.Outcome State Fault Refusal := .next (s.kvtWrite (.kvtGenerate path) path 3)
/-- DERIVE. -/
def execKvtDerive (path : Path) (s : State) : Host.Outcome State Fault Refusal := .next (s.kvtWrite (.kvtDerive path) path 4)
/-- ERASE. -/
def execKvtErase (path : Path) (s : State) : Host.Outcome State Fault Refusal := .next (s.kvtWrite (.kvtErase path) path 5)
/-- READ_ATTR. -/
def execReadAttr (path : Path) (s : State) : Host.Outcome State Fault Refusal := .next (s.kvtWrite (.readAttr path) path 6)
/-- GRANT. -/
def execKvtGrant (path : Path) (s : State) : Host.Outcome State Fault Refusal := .next (s.kvtWrite (.kvtGrant path) path 7)
/-- PROV_OPEN. -/
def execProvOpen (path : Path) (s : State) : Host.Outcome State Fault Refusal := .next (s.kvtWrite (.provOpen path) path 8)
/-- PROV_ACCEPT. -/
def execProvAccept (path : Path) (s : State) : Host.Outcome State Fault Refusal := .next (s.kvtWrite (.provAccept path) path 9)
/-- IMPORT_PROV. -/
def execImportProv (path : Path) (s : State) : Host.Outcome State Fault Refusal := .next (s.kvtWrite (.importProv path) path 10)
/-- PROV_CLOSE. -/
def execProvClose (path : Path) (s : State) : Host.Outcome State Fault Refusal := .next (s.kvtWrite (.provClose path) path 11)

/-- PROV_SESSION_TIMEOUT (R398): 60 s without PROV_ACCEPT; KVT_XFER is cleared. -/
def execProvSessionTimeout (s : State) : Host.Outcome State Fault Refusal :=
  match s.kvt.session with
  | none => .next s
  | some x => .next (if x.accepted then s else s.clearXfer.closeSession)

/-- ID_EXPORT. -/
def execIdExport (path : Path) (s : State) : Host.Outcome State Fault Refusal := .next (s.kvtWrite (.idExport path) path 12)
/-- CERT_WRITE. -/
def execCertWrite (path : Path) (s : State) : Host.Outcome State Fault Refusal := .next (s.kvtWrite (.certWrite path) path 13)
/-- ANCHOR_ADD. -/
def execAnchorAdd (path : Path) (s : State) : Host.Outcome State Fault Refusal := .next (s.kvtWrite (.anchorAdd path) path 14)
/-- ANCHOR_REVOKE. -/
def execAnchorRevoke (path : Path) (s : State) : Host.Outcome State Fault Refusal := .next (s.kvtWrite (.anchorRevoke path) path 15)
/-- LC_ADVANCE. -/
def execLcAdvance (path : Path) (s : State) : Host.Outcome State Fault Refusal := .next (s.kvtWrite (.lcAdvance path) path 16)
/-- ZEROIZE_ALL. -/
def execZeroizeAll (path : Path) (s : State) : Host.Outcome State Fault Refusal := .next (s.kvtWrite (.zeroizeAll path) path 17)
/-- RESEED. -/
def execReseed (path : Path) (s : State) : Host.Outcome State Fault Refusal := .next (s.kvtWrite (.reseed path) path 18)

/-- KVT_CMD_UNKNOWN: OP 19 to 31; a lower OP is another row's. -/
def execKvtCmdUnknown (path : Path) (op : Fin 32) (s : State) : Host.Outcome State Fault Refusal :=
  if op.val < 19 then .next s else .next (s.kvtWrite (.kvtCmdUnknown path op) path op.val)

/-! ## Time and the generator -/

/-- The running command of the Key Vault in window n. -/
def State.kvtRunning (s : State) (n : Nat) : Option RunCmd := s.kvt.runs.find? (fun r => r.unit == 10 && r.win == n)

/-- LOAD_STORE_TIMEOUT (R393): a load's store has been deferred for more than 1 s; the key stays committed, the store
queued. -/
def execLoadStoreTimeout (allot : Fin 64) (s : State) : Host.Outcome State Fault Refusal :=
  match s.kvtRunning allot.val with
  | some r =>
    .next (if [1, 2, 3, 4, 10].contains r.op ∧ 0 < r.waits then
      ((s.endRun 10 allot.val).orphanStores (.unit 10 allot.val)).kvtEnd allot.val 13
    else s)
  | none => .next s

/-- SLOT_ERASED (R391): the in-flight count of a Fallow slot is 0. -/
def execSlotErased (vault : Bool) (slot : Fin 131072) (s : State) : Host.Outcome State Fault Refusal :=
  let c := if vault then vaultBase + slot.val % 256 else slot.val
  match s.slot c with
  | some k =>
    if k.st = .fallow ∧ k.inflight = 0 then .next ((s.setSlot c (some { k with st := .erased, key := [], fp := 0 })).kvtCount 2)
    else .next s
  | none => .next s

/-- A slot that holds a key is re-masked under a new mask key (R394); every slot takes the new generation. -/
def State.remask (s : State) (mk : List Byte) (e : Nat × Option KeySlot) : Nat × Option KeySlot :=
  (e.1, e.2.map (fun (x : KeySlot) =>
    if x.usable || x.st == .fallow then { x with key := maskedKey mk e.1 (s.keyOf e.1), mgen := !s.kvt.generation }
    else { x with mgen := !s.kvt.generation }))

/-- REMASK_WALK (R394, R396): a new mask key is drawn and every slot re-masked; bad names slots that fail their check value. -/
def execRemaskWalk (bad : List Nat) (s : State) : Host.Outcome State Fault Refusal :=
  if s.kvt.rbgHealthy = false ∨ s.kvt.rbgUp = false then .next s
  else
    let (k, s) := s.rbgTake 1
    let mk := Config.freeBytes k 32
    let s := { s with kvt := { s.kvt with
      maskKey := some mk, generation := !s.kvt.generation, slots := s.kvt.slots.map (s.remask mk) } }
    .next ((bad.foldl (fun s c => if (s.slot c).isSome then s.slotCheckFail c else s) s).kvtCount 6)

/-- Commands that wait for the generator go on. -/
def State.resumeBits (s : State) : State :=
  let ws := s.kvt.runs.filter (fun r => r.unit == 10 && r.waits == 0 && r.code == 15)
  ws.foldl (fun s r => (s.endRun 10 r.win).kvtDo r.win r.op) s

/-- RBG_RESEED (R382, R383): passed tells that 1,024 consecutive samples have passed since a health failure. -/
def execRbgReseed (passed : Bool) (s : State) : Host.Outcome State Fault Refusal :=
  let s := { s with free := s.free + 1, kvt := { s.kvt with rbgCount := 0 } }
  if s.kvt.rbgHealthy = false ∧ passed then
    let s := { s with kvt := { s.kvt with rbgHealthy := true } }
    .next (s.endLevel2 Ev.rbgHealthFail.code).resumeBits
  else .next s

/-- RBG_HEALTH_FAIL (R383). -/
def execRbgHealthFail (s : State) : Host.Outcome State Fault Refusal :=
  let s := { s with kvt := { s.kvt with rbgHealthy := false } }
  let s := s.setFld Reg.kvtRbg 15 0 (satAdd 65535 (s.fld Reg.kvtRbg 15 0) 1)
  .next ((s.beginLevel2 Ev.rbgHealthFail.code).raise Ev.rbgHealthFail)

/-- RBG_REQUEST_TIMEOUT (R383): a request could not be served within 1 ms. -/
def execRbgRequestTimeout (allot : Fin 64) (s : State) : Host.Outcome State Fault Refusal :=
  match s.kvtRunning allot.val with
  | some r => .next (if r.waits = 0 ∧ r.code = 15 then (s.endRun 10 allot.val).kvtEnd allot.val 15 else s)
  | none => .next s

/-! ## Unsealing (R322, R403) -/

/-- The plaintext of a sealed record. -/
def State.openSealed (s : State) (kind : Nat) (r : SealedRec) : Option (List Byte) :=
  let aad := ascii (if kind = 0 then "SLKA" else "SLKS") ++ beBytes 4 r.id ++ beBytes 4 r.attr.toNat ++ zeroBytes 4
  Config.gcmOpen (s.kvt.kSeal.getD []) r.iv aad r.ct r.tag

/-- A sealed record fails. -/
def State.unsealFail (s : State) (id : Nat) : State := s.note Ev.kvtUnsealFail (beBytes 4 id)

/-- An association record is unsealed into its context and the SCI index. -/
def State.unsealAssoc (s : State) (k : Nat) (r : SealedRec) : State :=
  match s.openSealed 0 r with
  | none => s.unsealFail r.id
  | some b =>
    let c := Ctx.create b 0
    let s := s.setCtx r.id (some c)
    let s := { s with asc := { s.asc with recOf := SMap.set noneOf s.asc.recOf r.id (some k) } }
    if c.kind = 1 then (s.sciInsert (c.sciKey r.id)).1 else s

/-- A slot record is unsealed into its slot, unless its association's record failed. -/
def State.unsealSlot (s : State) (c : Nat) (r : SealedRec) : State :=
  match s.openSealed 1 r with
  | none => s.unsealFail r.id
  | some key =>
    if c < vaultBase ∧ (s.ctx (c / 2)).isNone then s.unsealFail r.id
    else
      let s := s.installKey c key r.attr
      if c < vaultBase then s
      else { s with kvt := { s.kvt with grants := SMap.set zeroOf s.kvt.grants c (attrOwner r.attr) } }

/-- B9 (R384, R403): the sealing key and the public identity keys are derived, records unsealed, associations rebuilt. -/
def State.unseal (s : State) : State :=
  if s.presentRoot.isNone then { s with kvt := { s.kvt with unsealDone := true } }
  else
    let s := { s with kvt := { s.kvt with
      kSeal := some (s.derive "LM3216 SEAL" 256), pubEc := slice (Config.ecdsaPublic (s.derive "LM3216 IDEC" 448)) 0 97
      pubMl := slice (Config.mldsaPublic (s.derive "LM3216 IDMD" 256)) 0 1952 } }
    let s := s.mram.assocs.foldl (fun s e => match e.2 with | some r => s.unsealAssoc e.1 r | none => s) s
    let s := s.mram.slots.foldl (fun s e => match e.2 with | some r => s.unsealSlot e.1 r | none => s) s
    let as := s.asc.ctxs.map (·.1)
    let s := as.foldl State.rebuild s
    let s := s.note Ev.persistRebuilt (beBytes 4 as.length)
    let bound := (s.kvt.slots.filter (fun e => e.2.isSome)).length
    let failed := (s.mram.assocs.filter (fun e => e.2.isSome)).length + (s.mram.slots.filter (fun e => e.2.isSome)).length - as.length - bound
    ({ s with kvt := { s.kvt with unsealDone := true } }).note Ev.kvtUnsealDone
      (beBytes 4 as.length ++ beBytes 4 bound ++ beBytes 4 failed)

end Sys2Proof.Machine
end

