-- ==== Sys2Proof/Machine/Images.lean ====
section
/-! DEFINITION. Structure Images (R63 to R78): reading an image from NOR, the checks of Boot steps B4 to B7, and the
quantities it fixes. -/

namespace Sys2Proof.Machine

open Sys2Proof

/-! ## NOR content -/

/-- What an unwritten NOR word reads as. -/
def norErased (_ : Nat) : Word := 0xFFFFFFFF#32

/-- The key of word w of a sector of a slot. -/
def norKey (slot sector w : Nat) : Nat := slot * 0x1000000 + sector * 0x4000 + w

/-- Device and first sector of a slot: A, B, golden. -/
def slotDevice (slot : Nat) : Nat := if slot = 0 then 0 else 1
def slotFirst (slot : Nat) : Nat := if slot = 2 then 768 else 0

/-- The sectors of a slot that are not retired, in slot order (R81), counted from the slot's first. -/
def State.goodSectors (s : State) (slot : Nat) : List Nat :=
  (List.range 768).filter (fun k => !s.boot.retired.contains (slotDevice slot, slotFirst slot + k))

/-- Bytes of a slot's image: chunk n lies in the n-th good sector, byte 4w in bits [7:0] of word w. -/
def State.slotBytes (s : State) (slot off len : Nat) : List Byte :=
  let gs := s.goodSectors slot
  (List.range len).map (fun i =>
    let o := off + i
    match gs[o / 65536]? with
    | some g => BitVec.ofNat 8 ((SMap.get norErased s.boot.nor (norKey slot g (o % 65536 / 4))).toNat / 256 ^ (o % 4))
    | none => 0xFF#8)

/-! ## The header and the section table (R64 to R66) -/

/-- A little-endian field of an image. -/
def leAt (b : List Byte) (o k : Nat) : Nat := ofLe (slice b o k)

/-- PLAN_NAME is ASCII, padded with 0x00 (R64). -/
def planNameGood (b : List Byte) : Bool := (b.dropWhile (fun x => x != 0 && decide (x.toNat < 128))).all (· == 0)

/-- The header's own checks (R64). -/
def headerGood (h : List Byte) : Bool :=
  slice h 0 4 == ascii "SLSI" && leAt h 4 2 == 1 && leAt h 6 2 == 0x3216 && leAt h 8 4 == 256 &&
  decide (leAt h 12 4 ≤ 41943040) && leAt h 16 4 % 64 == 0 && leAt h 16 4 + 5472 == leAt h 12 4 &&
  decide (leAt h 20 4 ≤ 128) && decide (leAt h 32 4 ≤ 1) && decide (8 ≤ leAt h 36 2) && decide (leAt h 36 2 ≤ 32) &&
  decide (leAt h 38 2 ≤ 1) && decide (leAt h 40 4 < 32) && planNameGood (slice h 56 32) && (slice h 88 160).all (· == 0) && leAt h 248 4 == 256 &&
  leAt h 252 4 == crc32 (slice h 0 252)

/-- Life-cycle and stepping (R78): the die stepping is the identity block's. -/
def State.headerPermitted (s : State) (h : List Byte) : Bool :=
  (leAt h 40 4).testBit s.boot.otpLife.code && decide (leAt h 44 4 ≤ 0x100)

/-- ROLLBACK against the floor (R78). -/
def State.headerRollback (s : State) (h : List Byte) : Bool := decide (s.boot.floor ≤ leAt h 20 4)

/-- One section table entry (R65). -/
structure SectionRow where
  type : Nat
  version : Nat
  off : Nat
  size : Nat
  crc : Nat
  deriving DecidableEq, Repr

/-- The section table of an image. -/
def sectionTable (b : List Byte) : List SectionRow :=
  (List.range (leAt b 36 2)).map (fun i =>
    let o := 256 + 16 * i
    ⟨leAt b o 2, leAt b (o + 2) 2, leAt b (o + 4) 4, leAt b (o + 8) 4, leAt b (o + 12) 4⟩)

/-- A section type the module knows. -/
def knownSection (t : Nat) : Bool := (decide (1 ≤ t) && decide (t ≤ 8)) || t == 0xF0

/-- Two sections share no byte. -/
def SectionRow.apart (x y : SectionRow) : Bool := decide (x.off + x.size ≤ y.off) || decide (y.off + y.size ≤ x.off)

/-- Every pair of entries of a list passes. -/
def allPairs {α : Type} (p : α → α → Bool) : List α → Bool
  | [] => true
  | x :: xs => xs.all (p x) && allPairs p xs

/-- The table's own checks (R65, R66). -/
def tableGood (b : List Byte) : Bool :=
  let t := sectionTable b
  let first := 256 + 16 * leAt b 36 2
  let last := leAt b 16 4
  t.all (fun r => knownSection r.type && r.version == 1 && r.off % 64 == 0 && decide (first ≤ r.off) && decide (r.off + r.size ≤ last)) &&
  allPairs (fun x y => x.type != y.type && x.apart y) t &&
  [1, 2, 3, 4, 5, 6, 7, 8].all (fun k => t.any (fun r => r.type == k)) &&
  (List.range (last - first)).all (fun i =>
    let o := first + i
    t.any (fun r => decide (r.off ≤ o) && decide (o < r.off + r.size)) || b.getD o 0 == 0)

/-- The index of the first section whose CRC is wrong. -/
def badSection (b : List Byte) : Option Nat :=
  let t := sectionTable b
  (List.range t.length).find? (fun i => match t[i]? with
    | some r => r.crc != crc32 (slice b r.off r.size)
    | none => false)

/-- The bytes of the section of a type; empty when absent. -/
def sectionOf (b : List Byte) (t : Nat) : List Byte :=
  match (sectionTable b).find? (fun r => r.type == t) with
  | some r => slice b r.off r.size
  | none => []

/-- The image digest D. -/
def imageDigest (b : List Byte) : List Byte := Config.sha384 (slice b 0 (leAt b 16 4))

/-! ## The signature block (R76, R77) -/

/-- The block's own form. -/
def sigForm (g : List Byte) : Bool :=
  slice g 0 4 == ascii "SLSG" && (slice g 6 2 ++ slice g 105 3 ++ slice g 5465 3).all (· == 0) && leAt g 5468 4 == crc32 (slice g 0 5468)

/-- The image verifies (R77). Both signatures are evaluated. A malformed signature block counts as a signature failure (DESIGN
CHOICE, log entry 94). -/
def State.sigGood (s : State) (b : List Byte) : Bool :=
  let g := slice b (leAt b 16 4) 5472
  let d := imageDigest b
  let ec := Config.ecdsaVerify (slice g 8 97) d (slice g 2060 96)
  let ml := Config.mldsaVerify (slice g 108 1952) (ascii "LM3216-SI") d (slice g 2156 3309)
  sigForm g && ec && ml && (match s.boot.auth[leAt g 4 2]? with
    | some a => a.programmed && !a.revoked && a.mask.testBit s.boot.otpLife.code &&
        a.hash == Config.sha384 (slice g 8 97 ++ slice g 108 1952)
    | none => false)

/-! ## Sections (R67 to R75) -/

/-- CROSSBAR. -/
def parseXbar (b : List Byte) : List XbarEntry :=
  (List.range 32).map (fun i => ⟨leAt b (8 * i) 1, leAt b (8 * i + 1) 1, leAt b (8 * i + 2) 2⟩)

/-- A run of 1, 2, 4 or 8 adjacent lanes that starts at a multiple of its length. -/
def laneRun (m : Nat) : Bool :=
  [1, 2, 4, 8].any (fun w => (List.range (16 / w)).any (fun k => m == (2 ^ w - 1) * 2 ^ (k * w)))

/-- Quads that a mask touches. -/
def quadsOf (m : Nat) : List Nat := (List.range 4).filter (fun q => (m / 2 ^ (4 * q)) % 16 != 0)

/-- One side of the crossbar: kinds, rates, lane runs, disjoint masks, one rate per quad (R67); Glafold runs at rate 0
(R136). -/
def xbarSideGood (line : Bool) (es : List XbarEntry) : Bool :=
  let used := es.filter (fun e => e.kind != 0)
  used.all (fun e => decide (e.kind ≤ (if line then 2 else 1)) && decide (e.rate ≤ 2) && laneRun e.mask && (e.kind == 1 || e.rate == 0)) &&
  allPairs (fun x y => x.mask &&& y.mask == 0 && (x.rate == y.rate || !(quadsOf x.mask).any (fun q => (quadsOf y.mask).contains q))) used

/-- The crossbar section is sound. -/
def xbarGood (b : List Byte) : Bool :=
  let es := parseXbar b
  b.length == 256 && xbarSideGood false (es.take 16) && xbarSideGood true (es.drop 16) &&
  (List.range 32).all (fun i => (slice b (8 * i + 4) 4).all (· == 0))

/-- CIPHER_SPLIT is sound for a crossbar (R68). -/
def splitGood (glafold : Bool) (roles : List Nat) : Bool :=
  let n := fun (r : Nat) => (roles.filter (· == r)).length
  roles.length == 72 && roles.all (fun r => decide (r ≤ 5)) && n 0 != 0 && n 1 != 0 && n 5 != 0 && n 2 == n 3 && (!glafold || n 2 != 0)

/-- SRAM_PARTITION is sound (R69). -/
def sramGood (b : List Byte) : Bool :=
  let e := leAt b 0 4
  let d := leAt b 4 4
  b.length == 16 && decide (16384 ≤ e) && decide (16384 ≤ d) && decide (e + d ≤ 262144) && [1024, 2048, 4096, 8192].contains (leAt b 8 2) &&
  (slice b 10 6).all (· == 0)

/-- HBM_REGIONS. -/
def parseRegions (b : List Byte) : List HbmRegion :=
  (List.range (leAt b 0 4)).map (fun i =>
    let o := 4 + 16 * i
    ⟨leAt b o 8, leAt b (o + 8) 4, leAt b (o + 12) 1, leAt b (o + 13) 1⟩)

/-- HBM_REGIONS is sound (R70, R278, R285). -/
def regionsGood (expanse : Bool) (b : List Byte) : Bool :=
  let n := leAt b 0 4
  let rs := parseRegions b
  let guard := (49152 - (if expanse then 5300 else 1060)) * mib
  let count := fun (p : Nat) => (rs.filter (fun r => r.purpose == p)).length
  decide (2 ≤ n) && decide (n ≤ 16) && b.length == 4 + 16 * n &&
  rs.all (fun r => r.base % (2 * mib) == 0 && decide (r.base < 49152 * mib) && decide (2 ≤ r.sizeMib) && decide (r.purpose ≤ 3) &&
    decide (r.keyIdx ≤ 63) && decide (r.base + r.sizeMib * mib ≤ guard) && (r.purpose != 0 || r.sizeMib == 32) && (r.purpose != 1 || r.sizeMib == 128)) &&
  allPairs (fun x y => decide (x.base + x.sizeMib * mib ≤ y.base) || decide (y.base + y.sizeMib * mib ≤ x.base)) rs &&
  count 0 == 1 && count 1 == 1 && decide (count 3 ≤ 1) && decide ((rs.map (·.sizeMib)).sum ≤ (if expanse then 40960 else 8192)) &&
  (List.range n).all (fun i => leAt b (4 + 16 * i + 14) 2 == 0)

/-- ALLOTMENTS is sound (R71). -/
def allotsGood (b : List Byte) : Bool :=
  b.length == 4 && decide (1 ≤ leAt b 0 1) && decide (leAt b 0 1 ≤ 64) && decide (1 ≤ leAt b 1 1) && decide (leAt b 1 1 ≤ 8) && leAt b 2 2 == 0

/-- TIME_MAP and its soundness (R72). -/
def parseTimeMap (b : List Byte) : List (Nat × Nat) := (List.range 16).map (fun i => (leAt b (4 * i) 1, leAt b (4 * i + 1) 1))
def timeMapGood (count : Nat) (b : List Byte) : Bool :=
  b.length == 64 && (List.range 16).all (fun i =>
    let src := leAt b (4 * i) 1
    decide (src ≤ (if i < 12 then 4 else 1)) && decide (leAt b (4 * i + 1) 1 < count) && leAt b (4 * i + 2) 2 == 0)

/-- HEDGE_FLOORS and its soundness (R73). -/
def parseFloors (b : List Byte) : List FloorEntry :=
  (List.range 16).map (fun i => ⟨leAt b (8 * i) 1, leAt b (8 * i + 1) 1, leAt b (8 * i + 2) 2, leAt b (8 * i + 4) 4⟩)
def floorsGood (b : List Byte) : Bool := b.length == 128 && (parseFloors b).all (fun f => decide (f.minLevel ≤ 5))

/-- UNIT_ENABLE is sound: units 0, 1, 3, 6 to 10 and 13 are enabled (R74). -/
def unitsGood (b : List Byte) : Bool := b.length == 4 && leAt b 0 4 &&& 0x27CB == 0x27CB

/-- PRESET (R75). -/
def parsePresets (b : List Byte) : List PresetEntry :=
  (List.range (b.length / 12)).map (fun i => ⟨leAt b (12 * i) 4, BitVec.ofNat 32 (leAt b (12 * i + 4) 4), BitVec.ofNat 32 (leAt b (12 * i + 8) 4)⟩)

/-- Bits no mask of an offset may cover: all of an undefined offset, and the read-only configuration of sensors 11 to 15
(R488). -/
def presetClosed (off : Nat) : Word :=
  match regRowAt off with
  | none => 0xFFFFFFFF#32
  | some r =>
    if (r.base = Reg.hdgSensorCfg 0 ∨ r.base = Reg.hdgSensorWin 0) ∧ 11 ≤ r.index off then 0xFFFFFFFF#32
    else presetForbidden r.fields

/-- PRESET is sound. -/
def presetsGood (b : List Byte) : Bool :=
  b.length % 12 == 0 && (parsePresets b).all (fun e => e.offset % 4 == 0 && decide (e.offset < 0x1000000) && e.mask &&& presetClosed e.offset == 0)

/-- Every section meets its constraints (B7). -/
def sectionsGood (b : List Byte) : Bool :=
  let xb := sectionOf b 1
  let glafold := ((parseXbar xb).drop 16).any (fun e => e.kind == 2)
  xbarGood xb && splitGood glafold ((sectionOf b 2).map (·.toNat)) && sramGood (sectionOf b 3) &&
  regionsGood (leAt b 32 4 == 1) (sectionOf b 4) && allotsGood (sectionOf b 5) && timeMapGood (leAt (sectionOf b 5) 0 1) (sectionOf b 6) &&
  floorsGood (sectionOf b 7) && unitsGood (sectionOf b 8) && presetsGood (sectionOf b 0xF0)

/-- What the image fixes. -/
def structureOf (b : List Byte) : Structure :=
  { rollback := leAt b 20 4, buildId := leAt b 24 8, expanse := leAt b 32 4 == 1, golden := leAt b 38 2 % 2 == 1
    yokeClass := leAt b 48 8, digest := imageDigest b, authSlot := leAt b (leAt b 16 4 + 4) 2
    xbar := parseXbar (sectionOf b 1), cipherSplit := (sectionOf b 2).map (·.toNat)
    cellsEnc := leAt (sectionOf b 3) 0 4, cellsDec := leAt (sectionOf b 3) 4 4, ctxCache := leAt (sectionOf b 3) 8 2
    regions := parseRegions (sectionOf b 4), allotCount := leAt (sectionOf b 5) 0 1, rings := leAt (sectionOf b 5) 1 1
    timeMap := parseTimeMap (sectionOf b 6), floors := parseFloors (sectionOf b 7), unitEnable := leAt (sectionOf b 8) 0 4
    presets := parsePresets (sectionOf b 0xF0) }

/-! ## The checks together -/

/-- What a check of B4 to B6 finds: nothing, or the event, the CODE of STW_IMAGE_RESULT and the failing section. -/
inductive ImageCheck where
  | good
  | bad (ev : EvKind) (code detail : Nat)
  deriving DecidableEq, Repr

/-- B4 to B6 on a slot's bytes; readOk is false on a NOR read error (R86). -/
def State.checkImage (s : State) (slot : Nat) (readOk : Bool) : ImageCheck :=
  let h := s.slotBytes slot 0 256
  if readOk = false then .bad Ev.imageCrcFail 11 0
  else if headerGood h = false then .bad Ev.imageCrcFail 6 0
  else if s.headerPermitted h = false then .bad Ev.imageNotPermitted 10 0
  else if s.headerRollback h = false then .bad Ev.imageRollback 9 0
  else
    let b := s.slotBytes slot 0 (leAt h 12 4)
    if tableGood b = false then .bad Ev.imageCrcFail 6 0
    else match badSection b with
      | some i => .bad Ev.imageCrcFail 7 i
      | none => if s.sigGood b then .good else .bad Ev.imageSigFail 8 0

/-- The whole image of a slot whose header is sound. -/
def State.imageOf (s : State) (slot : Nat) : List Byte := s.slotBytes slot 0 (leAt (s.slotBytes slot 0 256) 12 4)

end Sys2Proof.Machine
end

