-- ==== Sys2Proof/Machine/Boot.lean ====
section
/-! DEFINITION. Boot (R82 to R88) with the Hedge query of R505, and the image commands with their NOR stores (R80, R81,
R89 to R93). -/

namespace Sys2Proof.Machine

open Sys2Proof

/-! ## Slot-state metadata (R80, R81) -/

/-- The record before any is written: both slots empty, TRIAL_MAX 3. -/
def SlotMeta.blank : SlotMeta := ⟨0, .empty, .empty, .empty, 0, 3, 0, 0, 0, 0, 0, 0, 0⟩

/-- State of a slot: 0 A, 1 B, 2 golden. -/
def SlotMeta.st (m : SlotMeta) (k : Nat) : SlotState := if k = 0 then m.stA else if k = 1 then m.stB else m.stG

/-- A slot state as a record codes it. -/
def slotStateOf (k : Nat) : SlotState :=
  match k with
  | 0 => .empty | 1 => .writing | 2 => .written | 3 => .trial | 4 => .good | _ => .bad

/-- The 64 bytes of a metadata record (R80): type is TYPE, and alt the bytes 9 to 11 of a retirement record. -/
def SlotMeta.bytes (m : SlotMeta) (type : Nat) (alt : Option (List Byte)) : List Byte :=
  let head := alt.getD (beBytes 1 m.prefer ++ beBytes 1 m.stA.code ++ beBytes 1 m.stB.code)
  let b := ascii "SLMD" ++ leBytes 4 m.seq ++ beBytes 1 type ++ slice head 0 3 ++ beBytes 1 m.stG.code ++ beBytes 1 m.tries ++
    beBytes 1 m.trialMax ++ [0] ++ beBytes 8 m.digA ++ beBytes 8 m.digB ++ beBytes 8 m.digG ++ beBytes 1 m.rbA ++ beBytes 1 m.rbB ++
    beBytes 1 m.rbG ++ zeroBytes 17
  b ++ leBytes 4 (crc32 b)

/-- A record read back: the slot-state record it holds, if MAGIC, TYPE and CRC are those of one (R80). -/
def SlotMeta.ofBytes (b : List Byte) : Option SlotMeta :=
  let f := fun (o k : Nat) => ofBe (slice b o k)
  if slice b 0 4 = ascii "SLMD" ∧ f 8 1 = 1 ∧ ofLe (slice b 60 4) = crc32 (slice b 0 60) then
    some { prefer := f 9 1, stA := slotStateOf (f 10 1), stB := slotStateOf (f 11 1), stG := slotStateOf (f 12 1), tries := f 13 1
           trialMax := f 14 1, digA := f 16 8, digB := f 24 8, digG := f 32 8, rbA := f 40 1, rbB := f 41 1, rbG := f 42 1
           seq := ofLe (slice b 4 4) }
  else none

/-- The valid slot-state record with the highest SEQ of both copies (R80). -/
def Boot.newest (b : Boot) : Option SlotMeta :=
  b.metaRecs.foldl (fun (best : Option SlotMeta) (e : Nat × List Byte) =>
    match SlotMeta.ofBytes e.2, best with
    | some m, some x => if x.seq < m.seq then some m else some x
    | some m, none => some m
    | none, x => x) none

/-- The slot-state record of a store. -/
def metaPayload (r : StoreReq) : Option SlotMeta :=
  match r.pay with
  | .norMeta _ _ _ m => some m
  | _ => none

/-- The slot-state record as last requested. -/
def State.slotMeta (s : State) : SlotMeta :=
  match s.st.queue.reverse.findSome? metaPayload with
  | some m => m
  | none =>
    match s.st.nor.bind metaPayload with
    | some m => m
    | none => s.boot.slotMeta.getD SlotMeta.blank

/-- The record with the state of a slot changed. -/
def SlotMeta.setSt (m : SlotMeta) (k : Nat) (x : SlotState) : SlotMeta :=
  if k = 0 then { m with stA := x } else if k = 1 then { m with stB := x } else { m with stG := x }

/-- DIGEST and ROLLBACK of a slot. -/
def SlotMeta.setImage (m : SlotMeta) (k dig rb : Nat) : SlotMeta :=
  if k = 0 then { m with digA := dig, rbA := rb } else if k = 1 then { m with digB := dig, rbB := rb } else { m with digG := dig, rbG := rb }

/-- A NOR store. -/
def norStore (cost : Nat) (p : Payload) (who : Waiter) : StoreReq := ⟨.nor, cost, p, who, false⟩

/-- Device and first sector of a metadata copy. -/
def metaDevice (copy : Nat) : Nat := copy
def metaFirst (copy : Nat) : Nat := if copy = 0 then 768 else 1536

/-- The sector of a copy is retired. -/
def State.metaRetired (s : State) (copy g : Nat) : Bool := s.boot.retired.contains (metaDevice copy, metaFirst copy + g)

/-- The free sector of a copy with the lowest erase count (R81): neither retired nor cur; of equals the one with the lowest
number. -/
def State.freeMeta (s : State) (copy cur : Nat) : Option Nat :=
  let wear := fun (g : Nat) => SMap.get zeroOf s.boot.metaWear (copy * 256 + g)
  (List.range 256).foldl (fun (best : Option Nat) g =>
    if g = cur ∨ s.metaRetired copy g then best
    else match best with
      | none => some g
      | some b => if wear g < wear b then some g else some b) none

/-- A copy's next record is placed: in the sector in use, or, once it is full or retired, in a free one that is erased first. -/
def State.placeRecord (s : State) (copy : Nat) (mk : Nat → Nat → Payload) (who : Waiter) : State × List StoreReq :=
  let (g, i) := s.boot.metaPos.getD copy (0, 0)
  let stay := decide (i < 1024) && !s.metaRetired copy g
  let g' := if stay then g else (s.freeMeta copy g).getD g
  let i' := if stay then i else 0
  let erase := if stay then [] else [norStore costErase (.norErase (3 + copy) g') .nobody]
  ({ s with boot := { s.boot with metaPos := s.boot.metaPos.set copy (g', i' + 1) } }, erase ++ [norStore costProgram (mk g' i') who])

/-- The stores of one metadata record: copy 0, then copy 1 (R80). -/
def State.placeCopies (s : State) (mk : Nat → Nat → Nat → Payload) (who : Waiter) : State × List StoreReq :=
  let (s, a) := s.placeRecord 0 (mk 0) .nobody
  let (s, b) := s.placeRecord 1 (mk 1) who
  (s, a ++ b)

/-- Several stores of one requester are requested together; the flag is false, and none is queued, when the queue has no
room for all of them (R124). -/
def State.requestAll (s : State) (rs : List StoreReq) : State × Bool :=
  if storeCap < s.st.queue.length + rs.length then ((({ s with st := { s.st with refused := true } }).reportRefused), false)
  else (rs.foldl (fun s r => (s.pushStore r).1) s, true)

/-- A metadata record is requested in both copies; without room for all its stores nothing changes (R124). -/
def State.storeRecord (s : State) (mk : Nat → Nat → Nat → Payload) (who : Waiter) : State × Bool :=
  let (t, rs) := s.placeCopies mk who
  if storeCap < s.st.queue.length + rs.length then s.requestAll rs
  else ({ t with boot := { t.boot with metaSeq := t.boot.metaSeq + 1 } }).requestAll rs

/-- A slot-state record is stored in both copies. -/
def State.storeMeta (s : State) (m : SlotMeta) (who : Waiter) : State × Bool :=
  let seq := s.boot.metaSeq
  s.storeRecord (fun c g i => .norMeta c g i { m with seq := seq }) who

/-! ## Candidates (R82, R83) -/

/-- The candidates of R82 in order. -/
def SlotMeta.candidates (m : SlotMeta) : List Nat :=
  let p := m.prefer
  let o := 1 - p
  (if m.st p = .trial ∨ m.st p = .good then [p] else []) ++ (if m.st o = .good then [o] else []) ++ (if m.stG = .good then [2] else [])

/-- Boot holds with a reason. -/
def State.bootHold (s : State) (reason : Nat) : State := { s with boot := { s.boot with phase := 11, hold := reason } }

/-- The next candidate is taken: a Trial slot at its limit is Bad, else its TRIES is stored; without any, Boot holds. -/
def State.nextCandidate (s : State) : List Nat → State
  | [] => ({ s with boot := { s.boot with cands := [] } }.bootHold 1).raise Ev.noValidImage
  | k :: ks =>
    let m := s.slotMeta
    if s.boot.metaLost = false ∧ m.st k = .trial ∧ m.trialMax ≤ m.tries then
      let s := s.note Ev.imageTrialExpired (beBytes 1 k)
      State.nextCandidate (s.storeMeta (m.setSt k .bad) .nobody).1 ks
    else
      let (s, ok) := if s.boot.metaLost = false ∧ m.st k = .trial then s.storeMeta { m with tries := m.tries + 1 } .nobody else (s, true)
      { s with boot := { s.boot with cands := k :: ks, tried := s.boot.tried + 1, phase := 4, metaDue := !ok } }

/-- B3: metadata is read and a candidate chosen; without metaGood neither copy can be read. -/
def State.bootB3 (s : State) (metaGood : Bool) : State :=
  let s := { s with boot := { s.boot with phase := 3, slotMeta := if metaGood then s.boot.newest else none } }
  if s.boot.slotMeta.isNone then
    let s := { s with boot := { s.boot with metaLost := true } }.note Ev.norMetaLost
    s.nextCandidate [0, 1, 2]
  else s.nextCandidate s.slotMeta.candidates

/-! ## The Hedge query (R505) -/

/-- A record that B2 appends for an earlier event: ON_CELL and LATE 1, with the POWERUPS of its event; a store like every other on
main power (R17, R503). -/
def State.lateRecord (s : State) (a : EvidArgs) (powerups : Nat) : State :=
  let p := s.hdg.powerups
  let s := ({ s with hdg := { s.hdg with powerups := powerups } }).evidPass { a with late := true } true
  { s with hdg := { s.hdg with powerups := p } }

/-- Order 1: a pending root becomes current if the present state's word is empty; every other root is erased (R407). The
flag tells that it acted. -/
def State.queryRoots (s : State) : State × Bool :=
  let i := rootIndex s.boot.otpLife
  let others := (List.range 4).any (fun k => i != some k && (s.hdg.roots.getD k none).isSome)
  if s.hdg.pendingRoot.isNone ∧ others = false then (s, false)
  else
    let mine := match i with | some k => s.hdg.roots.getD k none | none => none
    let adopt := mine.isNone && s.hdg.pendingRoot.isSome && i.isSome
    let root := if adopt then s.hdg.pendingRoot else mine
    let roots := match i with | some k => (List.replicate 4 (none : Option (List Byte))).set k root | none => List.replicate 4 none
    let s := { s with hdg := { s.hdg with roots := roots, pendingRoot := none } }
    let last := SMap.get noneOf s.hdg.log (s.hdg.next - 1)
    let missing := adopt && (match last with | some r => r.type != Ev.lifecycleChange.code | none => true)
    (if missing then s.lifeEvid Ev.lifecycleChange (beBytes 1 s.boot.otpLife.code ++ beBytes 1 s.boot.otpLife.code) else s, true)

/-- Order 2: NOTES are reported and cleared. -/
def State.queryNotes (s : State) : State :=
  (List.range 13).foldl (fun (s : State) k =>
    let n := (s.sensor k).notes
    let s := s.setSensor k (fun x => { x with notes := 0, notesReported := min 65535 n })
    if n = 0 then s else s.note Ev.cellNote (beBytes 1 k ++ beBytes 4 (min 65535 n))) s

/-- Order 3: pending records are appended, then every record appended on the cell is reported (R503). -/
def State.queryReplay (s : State) : State :=
  let ps := s.hdg.pend
  let s := { s with hdg := { s.hdg with pend := [] } }
  let s := ps.foldl (fun (s : State) (r : EvidRec) =>
    let q := s.hdg.next
    let s := s.lateRecord ⟨r.type, r.level, r.sensor, r.fill, r.detail, true, r.hcount⟩ r.powerups
    if s.hdg.next = q then s else { s with hdg := { s.hdg with replay := s.hdg.replay ++ [q] } }) s
  let s := s.hdg.replay.foldl (fun (s : State) q => s.note Ev.evidenceReplay (beBytes 4 q)) s
  ({ s with hdg := { s.hdg with replay := [] } }).evidFullCheck

/-- Order 4: the unlogged-tamper latch becomes a record (R496). -/
def State.queryLatch (s : State) : State × Bool :=
  match s.hdg.latch with
  | none => (s, false)
  | some l =>
    let s := s.lateRecord ⟨Ev.hedgeAlarm.code, 5, l.sensor, 0, beBytes 8 s.hdg.hcount ++ beBytes 2 l.more, true, l.hcount⟩ (s.hdg.powerups - 1)
    let s := { s with hdg := { s.hdg with latch := none, replay := [], latchSensor := l.sensor } }
    let s := s.wr Reg.hdgLatch (BitVec.ofNat 32 (2 ^ 31 + l.sensor))
    ((s.note Ev.unloggedTamper (beBytes 1 l.sensor)).evidFullCheck, true)

/-- HDG_ROOT_CAUSE. -/
def State.rootCause (s : State) (c : Nat) : State := { s with hdg := { s.hdg with rootCause := c } }

/-- T5: the module enters Zeroized and overwrites the sealed records still in use (R109). -/
def State.bootZeroized (s : State) : State :=
  (({ s with hdg := { s.hdg with zeroized := true } }).setMode .zeroized).overwriteLeft

/-- The latest evidence record was written with the roots erased. -/
def State.erasureRecorded (s : State) : Bool :=
  match s.hdg.inFlight.getLast? with
  | some r => r.rootsErased
  | none => match SMap.get noneOf s.hdg.log (s.hdg.next - 1) with
    | some r => decide (0 < s.hdg.next) && r.rootsErased
    | none => false

/-- B2: the Hedge reports its state, and Boot goes on to B3, holds, or ends in Zeroized (R505). -/
def State.bootB2 (s : State) (metaGood : Bool) : State :=
  let s := { s with boot := { s.boot with phase := 2 } }
  let (s, moved) := s.queryRoots
  let (s, latched) := s.queryNotes.queryReplay.queryLatch
  match s.boot.otpLife with
  | .scrapped => (s.rootCause 5).bootHold 3
  | .raw => (s.rootCause (if latched then 2 else 0)).bootB3 metaGood
  | _ =>
    if s.presentRoot.isSome ∧ s.hdg.rootCheckOk then
      let s := { s with hdg := { s.hdg with evidKey := some (s.derive "LM3216 EVID" 256) } }
      (s.rootCause (if moved then 4 else 0)).bootB3 metaGood
    else if latched then (s.rootCause 2).bootZeroized
    else if s.hdg.zeroized ∨ s.erasureRecorded then (s.rootCause 1).bootZeroized
    else
      let s := (s.rootCause 3).note Ev.rootsLost
      (s.lifeEvid Ev.rootsLost []).bootZeroized

/-- B1: OTP is read, the Host Interface leaves reset, the generator starts and the Key Vault draws its mask key, check key and row
permutation, and the mask keys of the key caches (R382, R394, R395), the power-fail summary of the last power-down is loaded (R573), and stores
that a module reset found waiting start (R124). -/
def State.bootB1 (s : State) : State :=
  let rise := s.ctl.mode == .powerRise
  let s := { s with
    pow := { s.pow with riseMs := if rise then s.now / 1000000 else s.pow.riseMs, bootAt := s.now }
    boot := { s.boot with phase := 1 }
    fab := { s.fab with live := [18, 19, 20], inReset := allIslands.filter (fun i => !([18, 20].contains i || (i == 19 && s.pow.perstHigh))) }
    kvt := { s.kvt with rbgUp := true, rbgHealthy := true } }
  let (k, s) := s.rbgTake 7
  let s := { s with
    kvt := { s.kvt with maskKey := some (Config.freeBytes k 32), checkKey := some (Config.freeBytes (k + 1) 32), rowKey := some (Config.freeBytes (k + 2) 32) }
    cph := { s.cph with caches := freshCaches (k + 3) } }
  let s := s.startStores
  match s.mram.pfail with
  | some r =>
    if r.powerups + 1 = s.hdg.powerups then
      let v := min 65535 r.holdMs * 65536 + min 255 r.done * 256 + min 255 r.deferred
      (s.wr Reg.stwPfailLog (BitVec.ofNat 32 v)).setFlg Reg.stwFeedStatus 6 true
    else s
  | none => s

/-- BOOT_ENTRY (T3, R84): at the end of Power Rise, or after a module reset. -/
def execBootEntry (metaGood : Bool) (s : State) : Host.Outcome State Fault Refusal :=
  if s.ctl.mode = .powerRise ∧ s.pow.dataRails then .next (((s.bootB1).setMode .boot).bootB2 metaGood).reportRefused
  else if s.ctl.mode = .boot ∧ s.boot.phase = 0 then .next (s.bootB1.bootB2 metaGood).reportRefused
  else .next s

/-! ## B8 to B10 and Calibrate -/

/-- A slot-state record is being stored: TRIES counts as stored once both copies are (R82). -/
def State.metaOut (s : State) : Bool :=
  s.st.queue.any (fun r => (metaPayload r).isSome) || (match s.st.nor with | some r => (metaPayload r).isSome | none => false)

/-- MGD_INIT_DONE (R299): at B8, or at V6 of a Recovery that erased the memory keys (R300). B8 completes only once the scan of
the log has ended (R549): until then the command is held. -/
def execMgdInitDone (passed : Bool) (s : State) : Host.Outcome State Fault Refusal :=
  if s.ctl.mode = .boot ∧ s.boot.phase = 8 then
    if passed && !s.led.scanned then .next { s with held := s.held ++ [.mgdInitDone passed] }
    else if passed then .next (({ s with boot := { s.boot with phase := 9 } }).mgdInit.note Ev.mgdInitDone)
    else .next ((s.bootHold 2).raise Ev.mgdInitFail)
  else if s.ctl.mode = .recovery ∧ s.ctl.recStep = 6 ∧ s.mgd.initDone = false then
    if passed then .next (s.mgdInit.note Ev.mgdInitDone) else .next (s.raise Ev.mgdInitFail)
  else .next s

/-- Calibrate begins: the calibration page is checked (R566), Glafold lanes hunt for their marker (R161). -/
def State.beginCalibrate (s : State) : State :=
  let w := fun (i : Nat) => s.calWord i
  let good := [0, 1, 4, 5, 16383].all (fun i => if i = 1 then bits (w 1) 31 16 == 1 else !calWordBad w i)
  let s := { s with led := { s.led with calValid := good } }
  let s := if good then s else s.note Ev.calInvalid
  (List.range 16).foldl (fun (s : State) g =>
    if s.isGlafold g then
      let old := s.groupFlags g
      ((s.groupLaneIds g).foldl (fun (s : State) n => s.touchLane n (fun l => { l with loa := true })) s).refreshGroup g old
    else s) s

/-- KVT_UNSEAL_DONE (R403, R322, B9 and B10): unsealing, IMAGE_DIGEST, the sheaf number resumes, Calibrate. Boot reaches B9 only
once every queued store has started (R124): until then the command is held. -/
def execKvtUnsealDone (s : State) : Host.Outcome State Fault Refusal :=
  if s.ctl.mode ≠ .boot ∨ s.boot.phase ≠ 9 then .next s
  else if s.st.queue ≠ [] then .next { s with held := s.held ++ [.kvtUnsealDone] }
  else
    let s := s.unseal
    let d := match s.boot.image with | some im => ofBe (slice im.digest 0 4) | none => 0
    let s := (s.wr Reg.imageDigest (BitVec.ofNat 32 d)).resumeSheaf
    let s := if s.mram.stale then s.note Ev.yokeStale else s
    let s := { s with boot := { s.boot with phase := 10 }, pow := { s.pow with bootMs := min 65535 ((s.now - s.pow.bootAt) / 1000000) } }
    .next (s.setMode .calibrate).beginCalibrate

/-! ## Image commands (R89 to R93) -/

/-- An image command ends: CODE, DETAIL, DEVICE and DONE. -/
def State.imageEnd (s : State) (code detail device : Nat) : State :=
  let s := { s with boot := { s.boot with job := none } }
  s.wr Reg.stwImageResult (BitVec.ofNat 32 (device * 2 ^ 31 + detail * 2 ^ 20 + 2 ^ 16 + code))

/-- A command ends once its slot-state record is in both copies. -/
def State.imageMeta (s : State) (m : SlotMeta) (code detail : Nat) : State :=
  let (s, ok) := s.storeMeta m (.unit 1 0)
  if ok then { s with boot := { s.boot with job := some (.metaStore code detail) } } else s.imageEnd 11 0 0

/-- Stores of a running command are requested; the job goes on, or ends with CODE 11. -/
def State.imageStores (s : State) (rs : List StoreReq) (job : ImageJob) : State :=
  let (s, ok) := s.requestAll rs
  if ok then { s with boot := { s.boot with job := some job } } else s.imageEnd 11 0 0

/-- The erase of a slot's sector, and the 16 programs of a chunk from a source of words. -/
def eraseStore (slot g : Nat) : StoreReq := norStore costErase (.norErase slot g) (.unit 1 0)
def programStores (slot g : Nat) (w : Nat → Word) : List StoreReq :=
  (List.range 16).map (fun p => norStore costProgram
    (.norProgram slot g p ((List.range 1024).foldl (fun (m : SMap Word) i => SMap.set norErased m i (w (1024 * p + i))) [])) (.unit 1 0))

/-- Words of a chunk: the staging window, or a slot's sector. -/
def State.stageWord (s : State) (i : Nat) : Word := s.rd (Reg.stwStage i)
def State.sectorWord (s : State) (slot g i : Nat) : Word := SMap.get norErased s.boot.nor (norKey slot g i)

/-- The number of chunks of a slot's image. -/
def State.chunksOf (s : State) (slot : Nat) : Nat := (leAt (s.slotBytes slot 0 16) 12 4 + 65535) / 65536

/-- A copy has written its last chunk: the golden slot is verified (R92); a failed check raises its event of R86 (DESIGN CHOICE,
log entry 95). -/
def State.copyVerify (s : State) : State :=
  match s.checkImage 2 true with
  | .bad ev code detail => (s.note ev (beBytes 1 2)).imageEnd code detail 0
  | .good =>
    let dig := ofBe (slice (imageDigest (s.imageOf 2)) 0 8)
    s.imageMeta ((s.slotMeta.setSt 2 .good).setImage 2 dig (leAt (s.slotBytes 2 0 256) 20 4)) 0 0

/-- One chunk of a slot continues: its programs after its erase, then its end. -/
def State.chunkNext (s : State) (slot n left : Nat) (job : Nat → ImageJob) (w : State → Nat → Word) (fin : State → State) : State :=
  match (s.goodSectors slot)[n]? with
  | none => s.imageEnd 11 0 0
  | some g =>
    if left = 17 then s.imageStores (programStores slot g (w s)) (job 16)
    else if 1 < left then { s with boot := { s.boot with job := some (job (left - 1)) } }
    else fin s

/-- A store of the running image command is durable: its job goes on. -/
def State.imageProgress (s : State) : State :=
  match s.boot.job with
  | none => s
  | some (.metaStore code detail) => s.imageEnd code detail 0
  | some (.erase slot left) =>
    match left with
    | [] => s.imageEnd 0 0 0
    | g :: gs => s.imageStores [eraseStore slot g] (.erase slot gs)
  | some (.chunk slot n left) =>
    s.chunkNext slot n left (fun k => .chunk slot n k) (fun s i => s.stageWord i) (fun s => s.imageEnd 0 0 0)
  | some (.copy src n left) =>
    s.chunkNext 2 n left (fun k => .copy src n k)
      (fun s i => match (s.goodSectors src)[n]? with | some g => s.sectorWord src g i | none => norErased i)
      (fun s =>
        if n + 1 < s.chunksOf src then
          match (s.goodSectors 2)[n + 1]? with
          | some g => s.imageStores [eraseStore 2 g] (.copy src (n + 1) 17)
          | none => s.imageEnd 11 0 0
        else s.copyVerify)

/-- The modes in which image commands are accepted, and those accepted while Boot holds and in Zeroized (R88, R409). -/
def State.imageModeOk (s : State) (op : Nat) : Bool :=
  if (s.ctl.mode = .boot ∧ s.boot.phase = 11) ∨ s.ctl.mode = .zeroized then [1, 2, 3, 4, 7, 9].contains op
  else s.ctl.mode == .ready || s.ctl.mode == .service || s.ctl.mode.isYoke

/-- An image command's common refusals, in order, then its own act (R79, R88 to R90, R93). SLOT above 2 ends with CODE 2 (DESIGN
CHOICE, log entry 96). -/
def State.imageRun (s : State) (op slot : Nat) (armed : Bool) (act : State → State) : State :=
  if s.boot.job.isSome then s.note Ev.imageCmdRefused
  else if 13 ≤ op then s.imageEnd 14 0 0
  else if s.boot.otpLife = .scrapped ∨ s.imageModeOk op = false then s.imageEnd 4 0 0
  else if [1, 2, 3, 4, 8, 9].contains op ∧ 2 < slot then s.imageEnd 2 0 0
  else if [1, 2, 9].contains op ∧ (slot = 2 ∨ slot = s.boot.booted) then s.imageEnd 3 0 0
  else if (op = 10 ∨ op = 11) ∧ armed = false then s.imageEnd 13 0 0
  else act s

/-- A write of STW_IMAGE_CMD. Any command clears the arm. -/
def State.imageWrite (s : State) (path : Path) (op slot arg : Nat) (act : State → State) : State :=
  let armed := s.isArmed 1
  s.hostWrite path Reg.stwImageCmd (BitVec.ofNat 32 (arg * 256 + slot * 16 + op)) (fun s => s.imageRun op slot armed act)

/-- WRITE_OPEN (R90). -/
def execWriteOpen (path : Path) (slot : Fin 16) (s : State) : Host.Outcome State Fault Refusal :=
  .next (s.imageWrite path 1 slot.val 0 (fun s => s.imageMeta ((s.slotMeta.setSt slot.val .writing).setImage slot.val 0 0) 0 0))

/-- WRITE_CHUNK (R90): the slot must be Writing and have an n-th good sector; without one it ends with CODE 2 (DESIGN CHOICE, log
entry 96). -/
def execWriteChunk (path : Path) (slot : Fin 16) (n : Fin 4096) (s : State) : Host.Outcome State Fault Refusal :=
  .next (s.imageWrite path 2 slot.val n.val (fun s =>
    match (s.goodSectors slot.val)[n.val]? with
    | some g => if s.slotMeta.st slot.val = .writing then s.imageStores [eraseStore slot.val g] (.chunk slot.val n.val 17) else s.imageEnd 2 0 0
    | none => s.imageEnd 2 0 0))

/-- CHUNK_ENERGY_TIMEOUT (R90): the erase has waited 1 s for its energy check; nothing of the chunk is written. -/
def execChunkEnergyTimeout (s : State) : Host.Outcome State Fault Refusal :=
  match s.boot.job with
  | some (.chunk slot n 17) =>
    match (s.goodSectors slot)[n]? with
    | some g =>
      if s.st.queue.any (fun r => r.pay == (eraseStore slot g).pay) then
        .next (({ s with st := { s.st with queue := s.st.queue.filter (fun r => r.pay != (eraseStore slot g).pay) } }).imageEnd 5 0 0)
      else .next s
    | none => .next s
  | _ => .next s

/-- WRITE_CLOSE (R90): B4 to B6 on the written image; a failed check raises its event of R86 (DESIGN CHOICE, log entry 95). -/
def execWriteClose (path : Path) (slot : Fin 16) (readOk : Bool) (s : State) : Host.Outcome State Fault Refusal :=
  let k := slot.val
  .next (s.imageWrite path 3 k 0 (fun s =>
    if s.slotMeta.st k ≠ .writing then s.imageEnd 2 0 0
    else match s.checkImage k readOk with
      | .bad ev code detail => (s.note ev (beBytes 1 k)).imageMeta (s.slotMeta.setSt k .bad) code detail
      | .good =>
        let dig := ofBe (slice (imageDigest (s.imageOf k)) 0 8)
        s.imageMeta ((s.slotMeta.setSt k .written).setImage k dig (leAt (s.slotBytes k 0 256) 20 4)) 0 0))

/-- ACTIVATE (R91). The golden slot has no PREFER value and is never a Trial. -/
def execActivate (path : Path) (slot : Fin 16) (s : State) : Host.Outcome State Fault Refusal :=
  let k := slot.val
  .next (s.imageWrite path 4 k 0 (fun s =>
    let m := s.slotMeta
    if k = 2 then s.imageEnd 3 0 0
    else if m.st k = .written ∨ m.st k = .good then s.imageMeta { m.setSt k .trial with prefer := k, tries := 0 } 0 0
    else s.imageEnd 2 0 0))

/-- CONFIRM (R91): the running Trial slot becomes Good. -/
def execConfirm (path : Path) (s : State) : Host.Outcome State Fault Refusal :=
  .next (s.imageWrite path 5 0 0 (fun s =>
    let m := s.slotMeta
    let k := s.boot.booted
    if k < 3 ∧ m.st k = .trial then (s.note Ev.imageConfirmed (beBytes 1 k)).imageMeta (m.setSt k .good) 0 0 else s.imageEnd 2 0 0))

/-- REVERT (R91). -/
def execRevert (path : Path) (s : State) : Host.Outcome State Fault Refusal :=
  .next (s.imageWrite path 6 0 0 (fun s =>
    let m := s.slotMeta
    if m.st (1 - m.prefer) = .good then s.imageMeta { m with prefer := 1 - m.prefer } 0 0 else s.imageEnd 2 0 0))

/-- REBOOT (R126): the module resets and leaves no result. -/
def execReboot (path : Path) (s : State) : Host.Outcome State Fault Refusal :=
  .next (s.imageWrite path 7 0 0 (fun s => s.moduleReset 1))

/-- COPY_GOLDEN (R92): a Good slot whose image has GOLDEN_CAPABLE. -/
def execCopyGolden (path : Path) (slot : Fin 16) (s : State) : Host.Outcome State Fault Refusal :=
  let k := slot.val
  .next (s.imageWrite path 8 k 0 (fun s =>
    let m := s.slotMeta
    if k = 2 ∨ m.st k ≠ .good ∨ leAt (s.slotBytes k 0 256) 38 2 % 2 = 0 then s.imageEnd 2 0 0
    else
      let (t, ok) := s.storeMeta ((m.setSt 2 .empty).setImage 2 0 0) .nobody
      match ok, (t.goodSectors 2)[0]? with
      | true, some g => t.imageStores [eraseStore 2 g] (.copy k 0 17)
      | _, _ => t.imageEnd 11 0 0))

/-- ERASE (R90): every sector that is not retired, in sector order; the slot is Empty from the first. -/
def execImageErase (path : Path) (slot : Fin 16) (s : State) : Host.Outcome State Fault Refusal :=
  let k := slot.val
  .next (s.imageWrite path 9 k 0 (fun s =>
    let (t, ok) := s.storeMeta ((s.slotMeta.setSt k .empty).setImage k 0 0) .nobody
    match ok, t.goodSectors k with
    | true, g :: gs => t.imageStores [eraseStore k g] (.erase k gs)
    | true, [] => t.imageEnd 0 0 0
    | false, _ => t.imageEnd 11 0 0))

/-- RAISE_FLOOR n (R93). -/
def execRaiseFloor (path : Path) (n : Fin 4096) (s : State) : Host.Outcome State Fault Refusal :=
  let n := n.val
  .next (s.imageWrite path 10 0 n (fun s =>
    let m := s.slotMeta
    let k := s.boot.booted
    let own := match s.boot.image with | some im => im.rollback | none => 0
    if n = 0 ∨ 128 < n ∨ 2 < k ∨ m.st k ≠ .good ∨ own < n ∨ m.stG ≠ .good ∨ m.rbG < n then s.imageEnd 12 0 0
    else if n ≤ s.boot.floor then s.imageEnd 0 0 0
    else (({ s with boot := { s.boot with floor := n } }).note Ev.floorRaised).imageEnd 0 0 0))

/-- REVOKE_AUTH k (R93); k above 3 ends with CODE 12 (DESIGN CHOICE, log entry 96). -/
def execRevokeAuth (path : Path) (k : Fin 4096) (s : State) : Host.Outcome State Fault Refusal :=
  let k := k.val
  .next (s.imageWrite path 11 0 k (fun s =>
    match s.boot.image with
    | none => s.imageEnd 12 0 0
    | some im =>
      if 3 < k ∨ im.authSlot = k then s.imageEnd 12 0 0
      else
        let s := { s with boot := { s.boot with auth := modAt (fun (a : AuthSlot) => { a with revoked := true }) s.boot.auth k } }
        (s.note Ev.authRevoked).imageEnd 0 0 0))

/-- SET_TRIAL_MAX (R80): 1 to 15; another value ends with CODE 2 (DESIGN CHOICE, log entry 96). -/
def execSetTrialMax (path : Path) (n : Fin 4096) (s : State) : Host.Outcome State Fault Refusal :=
  let n := n.val
  .next (s.imageWrite path 12 0 n (fun s =>
    if n = 0 ∨ 15 < n then s.imageEnd 2 0 0 else s.imageMeta { s.slotMeta with trialMax := n } 0 0))

/-- IMAGE_CMD_UNKNOWN (R89): OP 13 to 15; OP 0 does nothing, while BUSY is 1 as well (DESIGN CHOICE, log entry 97), and a lower OP
is another row's. -/
def execImageCmdUnknown (path : Path) (op : Fin 16) (s : State) : Host.Outcome State Fault Refusal :=
  if op.val = 0 then .next (s.hostWrite path Reg.stwImageCmd 0 id)
  else if op.val < 13 then .next s else .next (s.imageWrite path op.val 0 0 id)

/-! ## NOR stores as they complete -/

/-- The key of a metadata record. -/
def recKey (copy g i : Nat) : Nat := copy * 262144 + g * 1024 + i

/-- A programmed metadata record. -/
def noBytes (_ : Nat) : List Byte := []
def State.putRecord (s : State) (copy g i : Nat) (b : List Byte) : State :=
  { s with boot := { s.boot with metaRecs := SMap.set noBytes s.boot.metaRecs (recKey copy g i) b } }

/-- What a durable NOR store leaves. -/
def State.norDurable (s : State) (p : Payload) : State :=
  let b := s.boot
  match p with
  | .norErase slot g =>
    if slot < 3 then { s with boot := { b with nor := SMap.dropRange b.nor (norKey slot g 0) (norKey slot g 0x4000) } }
    else
      let c := slot - 3
      { s with boot := { b with
        metaRecs := SMap.dropRange b.metaRecs (recKey c g 0) (recKey c g 1024)
        metaWear := SMap.set zeroOf b.metaWear (c * 256 + g) (SMap.get zeroOf b.metaWear (c * 256 + g) + 1) } }
  | .norProgram slot g page ws =>
    { s with boot := { b with nor := (List.range 1024).foldl (fun (m : SMap Word) i =>
        SMap.set norErased m (norKey slot g (1024 * page + i)) (SMap.get norErased ws i)) b.nor } }
  | .norMeta c g i m => ({ s with boot := { b with slotMeta := some m } }).putRecord c g i (m.bytes 1 none)
  | .norRetire c g i m dev bad => s.putRecord c g i (m.bytes 2 (some (beBytes 1 dev ++ leBytes 2 bad)))
  | _ => s

/-- Device and sector of a NOR store: metadata copy 0 lies from sector 768 of NOR 0, copy 1 from 1,536 of NOR 1. -/
def norPlace (p : Payload) : Nat × Nat :=
  match p with
  | .norErase slot g => if slot < 3 then (slotDevice slot, slotFirst slot + g) else (metaDevice (slot - 3), metaFirst (slot - 3) + g)
  | .norProgram slot g _ _ => (slotDevice slot, slotFirst slot + g)
  | .norMeta c g _ _ => (metaDevice c, metaFirst c + g)
  | .norRetire c g _ _ _ _ => (metaDevice c, metaFirst c + g)
  | _ => (0, 0)

/-- A metadata record that lay in a retired sector is placed anew. -/
def State.replace (s : State) (r : StoreReq) : State × List StoreReq :=
  match r.pay with
  | .norMeta c _ _ m => s.placeRecord c (fun g i => .norMeta c g i m) r.who
  | .norRetire c _ _ m dev bad => s.placeRecord c (fun g i => .norRetire c g i m dev bad) r.who
  | _ => (s, [])

/-- The records of a list are placed anew, in order. -/
def State.replaceAll (s : State) : List StoreReq → State × List StoreReq
  | [] => (s, [])
  | r :: rs =>
    let (s, a) := s.replace r
    let (s, b) := s.replaceAll rs
    (s, a ++ b)

/-- A NOR store fails its read-back (R81): the sector is retired, which is recorded in both copies; a command of the host ends with
CODE 11 and its further stores are dropped; metadata records bound for the sector go to another one. -/
def State.norFault (s : State) (r : StoreReq) : State :=
  let (dev, sec) := norPlace r.pay
  let s := { s with boot := { s.boot with
    retired := if s.boot.retired.contains (dev, sec) then s.boot.retired else s.boot.retired ++ [(dev, sec)] } }
  let host := decide (r.who = .unit 1 0) && (metaPayload r).isNone
  let goes := fun (x : StoreReq) => x.cls == .nor && (norPlace x.pay == (dev, sec) || (host && x.who == .unit 1 0))
  let moved := r :: s.st.queue.filter goes
  let s := { s with st := { s.st with queue := s.st.queue.filter (fun x => !goes x) } }
  let (t, again) := s.replaceAll moved
  let (s, ok) := if storeCap < s.st.queue.length + again.length then s.requestAll again else t.requestAll again
  let s := if ok then s else { s with boot := { s.boot with metaDue := true } }
  let m := { s.slotMeta with seq := s.boot.metaSeq }
  let s := (s.storeRecord (fun c g i => .norRetire c g i m dev sec) .nobody).1
  let s := s.note Ev.norSectorRetired (beBytes 1 dev ++ beBytes 2 sec)
  if host then s.imageEnd 11 sec dev else s

end Sys2Proof.Machine
end

