-- ==== Sys2Proof/Machine/Fabric.lean ====
section
/-! DEFINITION. Crossings, internal links and the bus integrity code (chapter 01). -/

namespace Sys2Proof.Machine

open Sys2Proof

/-! ## Crossings (R23, R24) -/

/-- The key of a crossing or a link. -/
def linkKey (src dst : Nat) : Nat := src * 32 + dst

/-- A crossing that has carried nothing. -/
def Crossing.idle : Crossing := ⟨0, false, false, false⟩

/-- The crossing from src to dst. -/
def State.crossing (s : State) (src dst : Nat) : Crossing :=
  (SMap.get noneOf s.fab.cross (linkKey src dst)).getD Crossing.idle

/-- The crossing from src to dst is replaced. -/
def State.setCrossing (s : State) (src dst : Nat) (c : Crossing) : State :=
  { s with fab := { s.fab with cross := SMap.set noneOf s.fab.cross (linkKey src dst) (some c) } }

/-- A value waits for its acknowledge. -/
def Crossing.waits (c : Crossing) : Bool := c.req != c.ack

/-- The receiver takes what waits and acknowledges. -/
def Crossing.take (c : Crossing) : Crossing := { c with ack := c.req }

/-- A value is offered: it is held stable and the request toggles. -/
def Crossing.offer (c : Crossing) (value : Nat) (probe : Bool) : Crossing :=
  { c with value := value, probe := probe, req := !c.req }

/-- An offer (R23): what waits is never changed before its acknowledge; taken tells that the receiver's clock runs and
it acknowledges. Neither side of a crossing held in reset takes part. -/
def State.offerOn (s : State) (src dst value : Nat) (probe taken : Bool) : State :=
  if s.islandUp src = false then s
  else
    let takes := taken && s.islandUp dst
    let c := s.crossing src dst
    let c := if takes then c.take else c
    if c.waits then s
    else
      let c := c.offer value probe
      s.setCrossing src dst (if takes then c.take else c)

/-- CROSSING_OFFER (R23). -/
def execCrossingOffer (src dst : Fin 21) (value : Nat) (taken : Bool) (s : State) : Host.Outcome State Fault Refusal :=
  .next (s.offerOn src.val dst.val value false taken)

/-- IDLE_PROBE (R24): the port has offered nothing for 4,096 live-side cycles. -/
def execIdleProbe (src dst : Fin 21) (taken : Bool) (s : State) : Host.Outcome State Fault Refusal :=
  .next (s.offerOn src.val dst.val 0 true taken)

/-- CROSS_TIMEOUT (R24, R32, R33): what waits is discarded, the unit that offered it gets an error status, and the event
takes level 3 where the stopped island hosts a unit of the minimal service set. An offer that has been acknowledged
times nothing out. -/
def execCrossTimeout (live stopped : Fin 21) (s : State) : Host.Outcome State Fault Refusal :=
  let c := s.crossing live.val stopped.val
  if c.waits = false ∨ s.islandUp live.val = false then .next s
  else
    let s := s.setCrossing live.val stopped.val { c with value := 0, req := c.ack, probe := false }
    let s := if c.probe then s else s.emit (.offerError live.val stopped.val)
    let s := { s with fab := { s.fab with live := s.fab.live.filter (· != stopped.val) } }
    let s := s.setFlg (Reg.islandState stopped.val) 2 true
    let s := s.wr Reg.crossLast (BitVec.ofNat 32 (live.val * 65536 + stopped.val * 256 + 1))
    let lvl := if serviceIsland stopped.val then 3 else 1
    .next ((s.raiseFull (Ev.crossTimeout.atLevel lvl) 0xFF [] [] [stopped.val] none).recheck)

/-! ## Internal cells (R26, R27) -/

/-- A link that has carried nothing. -/
def ILink.idle : ILink := ⟨[], 0, 0, false, 0⟩

/-- The link from src to dst. -/
def State.ilink (s : State) (src dst : Nat) : ILink :=
  (SMap.get noneOf s.fab.links (linkKey src dst)).getD ILink.idle

/-- The link from src to dst is replaced. -/
def State.setIlink (s : State) (src dst : Nat) (l : ILink) : State :=
  { s with fab := { s.fab with links := SMap.set noneOf s.fab.links (linkKey src dst) (some l) } }

/-- Cells a sender may have unacknowledged. -/
def cellWindow : Nat := 64

/-- A cell the sender had not sent before joins its unacknowledged cells. -/
def ILink.sent (l : ILink) (c : ICell) : ILink :=
  if c.seq = l.nextSeq ∧ l.unacked.length < cellWindow then
    { l with unacked := l.unacked ++ [c], nextSeq := (l.nextSeq + 1) % 256 }
  else l

/-- Cumulative acknowledgement: cells up to and including SEQ leave, if SEQ is outstanding. -/
def ILink.acked (l : ILink) (seq : Nat) : ILink :=
  if l.unacked.any (fun c => c.seq == seq) then
    { l with unacked := (l.unacked.dropWhile (fun c => c.seq != seq)).drop 1, fails := 0 }
  else l

/-- CELL_RECEIVE (R26): the expected cell is taken and acknowledged; one that fails its CRC is discarded with every later
one and answered by a negative acknowledge, again each time the cell that is awaited fails. crcGood is the outcome of the cell's CRC-32. -/
def execCellReceive (src dst : Fin 21) (seq len : Fin 256) (last : Bool) (payload : List Byte) (crcGood : Bool)
    (s : State) : Host.Outcome State Fault Refusal :=
  let l := (s.ilink src.val dst.val).sent ⟨seq.val, src.val, dst.val, len.val, last, slice payload 0 256⟩
  if s.islandUp dst.val = false then .next { s with fab := { s.fab with discarded := s.fab.discarded + 1 } }
  else if crcGood = false then
    if l.discarding ∧ seq.val ≠ l.expect then .next (s.setIlink src.val dst.val l)
    else .next ((s.setIlink src.val dst.val { l with discarding := true }).emit (.cellNak src.val dst.val seq.val))
  else if seq.val = l.expect then
    let l := { l.acked seq.val with expect := (seq.val + 1) % 256, discarding := false }
    .next ((s.setIlink src.val dst.val l).emit (.cellAck src.val dst.val seq.val))
  else .next (s.setIlink src.val dst.val l)

/-- CELL_NAK_RECEIVED (R26, R27): every cell from the failed one onwards is sent again and counted; at its fourth
consecutive failure the link's two ends need a joint reset instead. -/
def execCellNakReceived (src dst : Fin 21) (seq : Fin 256) (s : State) : Host.Outcome State Fault Refusal :=
  let l := s.ilink src.val dst.val
  if (l.unacked.any (fun c => c.seq == seq.val)) = false then .next s
  else
    let again := l.unacked.dropWhile (fun c => c.seq != seq.val)
    let fails := if again.length = l.unacked.length then l.fails + 1 else 1
    let s := s.setIlink src.val dst.val { l with unacked := again, fails := fails }
    if 4 ≤ fails then
      .next (s.raiseFull Ev.cellResendExhausted 0xFF [] []
        [src.val, dst.val] none)
    else
      let s := again.foldl (fun (s : State) c => s.emit (.cellSent c)) s
      .next (s.wr Reg.cellResends (sat32 ((s.rd Reg.cellResends).toNat + again.length)))

/-! ## Bus integrity (R28, R29) -/

/-- The code of a transaction: over the source island id, the address, the command and the data, in that order. -/
def busCode (src : Nat) (address command data : List Byte) : Nat := crc16 (beBytes 1 src ++ address ++ command ++ data)

/-- BUS_TRANSACTION (R28, R29, R555): a transaction of class cls (0 read, 1 write, 2 command or other) arrives at a unit. If
its code fails it is discarded, counted and reported to the Hedge; a read is answered with error status, a host read with
Completer Abort. A sound one is counted by the filter units that pass it; its effect is the row of its register, table or
memory. -/
def execBusTransaction (src : Fin 21) (unit : Fin 16) (allot : Fin 64) (cls : Fin 3) (address command data : List Byte)
    (code : BitVec 16) (host : Bool) (s : State) : Host.Outcome State Fault Refusal :=
  if code.toNat = busCode src.val address command data then
    let addr := if unit.val = 7 then ofBe address else ofBe address % 0x100000
    .next (s.observeBus allot.val unit.val src.val addr cls.val data.length)
  else
    let s := s.wr Reg.busCodeFails (sat32 ((s.rd Reg.busCodeFails).toNat + 1))
    let s := if cls.val = 0 then s.emit (if host then .completerAbort else .transactionError) else s
    .next (s.busFailure Ev.busCodeFail 0xFF [] [])

end Sys2Proof.Machine
end

