-- ==== Sys2Proof/Machine/YokeOps.lean ====
section
/-! DEFINITION. What the mode commands and the Yoke share: STALE (R440), entering Yoke Lead and Yoke Resync (R417, R445,
R449), pairing (R413 to R417), the state reports of the reverse stream. -/

namespace Sys2Proof.Machine

open Sys2Proof

/-! ## Lag and STALE -/

/-- LAG_B of R422: SKEW_NS and 300 ns in blocks of 0.32 ns, rounded up. -/
def State.lagBlocks (s : State) : Nat := ((clamp 1000 40000 (s.fld Reg.yokCfg 15 0) + 300) * 25 + 7) / 8

/-- The store of the STALE flag is requested; while the flag stands already nothing is stored. -/
def State.storeStale (s : State) (b : Bool) : State :=
  if s.mram.stale = b ∧ s.st.queue.all (fun r => r.cls != .stale) then s
  else (s.requestStore (recordStore .stale (.stale b))).1

/-- The twin reports its state. -/
def State.reportState (s : State) : State := s.reportMode s.ctl.mode

/-! ## Entering the Yoke modes -/

/-- A stream starts: records are numbered from 0, nothing waits to match, digests begin with the present interval. -/
def State.startStream (s : State) : State :=
  { s with yok := { s.yok with
      heardAt := s.now, epoch := s.blockNo / 64, recNo := [], buffers := [], marks := [], past := [], cur := ⟨s.line.sheaf / 8, [], []⟩
      clean := 0, repair := none, bMute := none, bHand := none, suspect := 0 } }

/-- The module becomes lead (R417, R440): intake is open, STALE is cleared, outputs are its own again. -/
def State.becomeLead (s : State) : State :=
  let s := s.setMode .yokeLead
  let s := { s with ctl := { s.ctl with intake := true }
                    yok := { s.yok with muted := false, twinLost := false, step := 0, locked := false, bMute := none, bHand := none } }
  (s.storeStale false).holdYoke false

/-- Y1 of R449: the twin mutes, drops what it holds, and its channels wait for the lead's maps. -/
def State.beginResync (s : State) : State :=
  let s := s.discardFrames.startStream
  let s := { s with yok := { s.yok with
    step := 1, resyncAt := s.now, copied := [], muted := true, twinLost := false } }
  let s := ((s.storeStale true).holdYoke true).inc (Reg.yokCountLo 10)
  (s.note Ev.yokeResyncStart).reportState

/-- The module becomes the resyncing twin. -/
def State.enterResync (s : State) : State :=
  let s := s.setMode .yokeResync
  ({ s with ctl := { s.ctl with intake := false } }).beginResync

/-- T12 and T19: resync starts at once with AUTO_RESYNC 1; else the muted twin waits for RESYNC (YOK_CFG). -/
def State.divertResync (s : State) : State :=
  if s.flg Reg.yokCfg 17 then s.enterResync
  else
    let s := (s.setMode .yokeResync).discardFrames.startStream
    let s := { s with ctl := { s.ctl with intake := false }, yok := { s.yok with step := 0, muted := true, twinLost := false } }
    ((s.storeStale true).holdYoke true).reportState

/-! ## Pairing (R413 to R416) -/

/-- The identity hash expected of the twin: YOK_PEER_HASH. -/
def State.peerHash (s : State) : List Byte := (List.range 12).flatMap (fun n => beBytes 4 (s.rd (Reg.yokPeerHash n)).toNat)

/-- YOKE_CLASS of the running image. -/
def State.yokeClass (s : State) : Nat := match s.boot.image with | some im => im.yokeClass | none => 0

/-- Bytes 0 to 3,775 of a pairing message (R414). -/
def State.pairBody (s : State) (role : Nat) (nonce ecdh kem : List Byte) : List Byte :=
  ascii "SLYK" ++ beBytes 1 role ++ beBytes 1 s.ctl.mode.code ++ beBytes 2 (s.fld Reg.yokCfg 15 0) ++
  beBytes 8 Config.serial.toNat ++ beBytes 8 s.yokeClass ++ slice nonce 0 32 ++ slice (Config.ecdhPublic ecdh) 0 97 ++ zeroBytes 3 ++
  slice kem 0 1568 ++ slice s.kvt.pubEc 0 97 ++ zeroBytes 3 ++ slice s.kvt.pubMl 0 1952

/-- A whole pairing message: its body, both signatures over its digest. -/
def State.pairMessage (s : State) (body digest : List Byte) : List Byte :=
  body ++ s.signEc digest ++ s.signMl "LM3216-YK" digest ++ zeroBytes 3

/-- A lead carries traffic alone and takes a twin (R413). -/
def State.loneLead (s : State) : Bool := s.ctl.mode == .yokeLead && s.yok.twinLost

/-- Pairing starts: ephemeral secrets are drawn; the initiator, at position 0, sends its message. -/
def State.startPairing (s : State) : State :=
  let (k, s) := s.rbgTake 3
  let ec := Config.freeBytes (k + 1) 48
  let kem := Config.freeBytes (k + 2) 64
  if s.pow.yokePos then { s with yok := { s.yok with pairing := some ⟨false, ec, kem, [], [], [], []⟩ } }
  else
    let body := s.pairBody 0 (Config.freeBytes k 32) ec (Config.mlkemPublic kem)
    let msg := s.pairMessage body (Config.sha384 body)
    ({ s with yok := { s.yok with pairing := some ⟨true, ec, kem, msg, [], [], []⟩ } }).sendDithal 2 msg

/-- Pairing ends without success (R415): PAIR_CODE, YOKE_PAIR_FAIL; a running GO_YOKE ends with CODE 5. -/
def State.pairFail (s : State) (code : Nat) : State :=
  let s := { s with yok := { s.yok with pairing := none, pairCode := code } }
  let s := s.note Ev.yokePairFail (beBytes 1 code)
  if s.ctl.cmd = some .goYoke then s.endModeCmd 5 else s

/-- What a twin refuses its peer's message with, in the order of R415; 0 if it accepts. Both signatures are evaluated. -/
def State.peerCode (s : State) (x : Pairing) (m : List Byte) : Nat :=
  let body := slice m 0 3776
  let d := Config.sha384 (if x.initiator then slice x.own 0 3776 ++ body else body)
  let e := Config.ecdsaVerify (slice m 1724 97) d (slice m 3776 96)
  let g := Config.mldsaVerify (slice m 1824 1952) (ascii "LM3216-YK") d (slice m 3872 3309)
  if slice m 0 4 ≠ ascii "SLYK" ∨ ofBe (slice m 4 1) ≠ flag x.initiator then 6
  else if ofBe (slice m 16 8) ≠ s.yokeClass then 3
  else if ofBe (slice m 6 2) ≠ s.fld Reg.yokCfg 15 0 then 8
  else if Config.sha384 (slice m 1724 97 ++ slice m 1824 1952) ≠ s.peerHash then 4
  else if e && g then 0 else 5

/-- The pair key of R416. -/
def pairKeyOf (zE zK hr : List Byte) : List Byte :=
  (Config.sha384 (beBytes 4 1 ++ zE ++ zK ++ ascii "LM3216-YOKE" ++ hr)).take 32

/-- CONFIRM of a role (R416). -/
def confirmOf (key : List Byte) (role : Nat) : List Byte := slice (Config.cmac key (ascii "LM3216-YC" ++ beBytes 1 role)) 0 16

/-- ATTR of slot 255: a 256-bit key, KEY_WRAP its only use, owner 0. -/
def pairAttr : Word := 0x10000400#32

/-- The pair key is loaded, the ephemeral secrets are erased, CONFIRM is sent. -/
def State.pairKeyed (s : State) (x : Pairing) (key : List Byte) : State :=
  let s := { s with yok := { s.yok with
    pairing := some { x with key := key, ecdhSeed := [], kemSeed := [] }, twinMode := ofBe (slice x.peer 5 1) } }
  (s.installKey pairKeySlot key pairAttr).sendDithal 2 (confirmOf key (flag (!x.initiator)))

/-- The peer's message has been accepted: the responder answers, and each twin derives the pair key. -/
def State.pairAccept (s : State) (x : Pairing) (m : List Byte) : State :=
  match Config.ecdh x.ecdhSeed (slice m 56 97) with
  | none => s.pairFail 5
  | some zE =>
    if x.initiator then
      let hr := Config.sha384 (slice x.own 0 3776 ++ slice m 0 3776)
      let zK := Config.mlkemDecap x.kemSeed (slice m 156 1568)
      s.pairKeyed { x with peer := m, hr := hr } (pairKeyOf (slice zE 0 48) (slice zK 0 32) hr)
    else
      let (ct, zK) := Config.mlkemEncap (slice m 156 1568) x.kemSeed
      let (k, s) := s.rbgTake 1
      let body := s.pairBody 1 (Config.freeBytes k 32) x.ecdhSeed ct
      let hr := Config.sha384 (slice m 0 3776 ++ body)
      let own := s.pairMessage body hr
      (s.sendDithal 2 own).pairKeyed { x with own := own, peer := m, hr := hr } (pairKeyOf (slice zE 0 48) (slice zK 0 32) hr)

/-- PAIRING_MESSAGE on a twin that pairs. -/
def State.takePairMessage (s : State) (x : Pairing) (m : List Byte) : State :=
  let code := s.peerCode x m
  if code = 0 then s.pairAccept x m else s.pairFail code

/-! ## Roles (R417) -/

/-- The roles of R417. -/
inductive YokeRole where
  | lead | resync | stay | conflict
  deriving DecidableEq, Repr

/-- The role of this module beside a twin in a mode; position 1 is pos. -/
def roleOf (me : Mode) (twin : Nat) (pos : Bool) : YokeRole :=
  match me with
  | .yokeLead => .stay
  | .service => if twin = 4 then .lead else if twin = 6 then .resync else .conflict
  | .ready => if twin = 5 ∨ twin = 6 then .resync else if twin = 4 then (if pos then .resync else .lead) else .conflict
  | _ => .conflict

/-- GO_YOKE, or the automatic attempt, has succeeded. -/
def State.yokeJoined (s : State) : State :=
  let s := { s with ctl := { s.ctl with autoOn := false } }
  if s.ctl.cmd = some .goYoke then s.endModeCmd 0 else s

/-- Pairing is complete: YOKE_PAIRED, the role, the end of GO_YOKE. -/
def State.pairDone (s : State) : State :=
  match roleOf s.ctl.mode s.yok.twinMode s.pow.yokePos with
  | .conflict => s.pairFail 2
  | r =>
    let s := { s with yok := { s.yok with pairing := none, pairCode := 1, paired := true } }
    let s := s.note Ev.yokePaired (beBytes 1 (if r = .resync then Mode.code .yokeResync else Mode.code .yokeLead))
    let s := match r with
      | .resync => s.enterResync
      | .lead => s.becomeLead.startStream
      | _ => ({ s with yok := { s.yok with twinLost := false } }).startStream
    s.yokeJoined

/-! ## Marks without the twin -/

/-- A mark whose own store is durable takes effect. -/
def State.applyMark (s : State) (w : MarkWait) : State :=
  if w.kind = 3 then s.sheafMarkInForce w.mark
  else match SMap.get noneOf s.mram.pn w.assoc with
    | some r => if w.kind = 1 then s.txDurable w.assoc r else s.rxDurable w.assoc r
    | none => s

/-- The twin's acknowledgements are no longer awaited: the lead counts its own store alone (R438). -/
def State.settleMarks (s : State) : State :=
  let ws := s.yok.marks.filter (fun w => w.stored)
  ws.foldl State.applyMark { s with yok := { s.yok with
    marks := (s.yok.marks.filter (fun w => !w.stored)).map (fun w => { w with acked := true }) } }

/-- The lead has no follower any more: YOKE_TWIN_LOST (R101). -/
def State.twinGone (s : State) : State :=
  if s.ctl.mode ≠ .yokeLead ∨ s.yok.twinLost then s
  else (({ s with yok := { s.yok with twinLost := true, twinMode := 0 } }).settleMarks).note Ev.yokeTwinLost

/-- A Yoke mode is left for Ready or Service: the stream stops. -/
def State.leaveYoke (s : State) (m : Mode) : State :=
  if s.ctl.mode.isYoke = false then s.setMode m
  else
    let s := (s.settleMarks).startStream.setMode m
    { s with yok := { s.yok with step := 0, muted := false, locked := false, twinLost := false, pairing := none } }

/-! ## The end of leading, promotion (R445, R446) -/

/-- Frames that are still unmatched join the frames that await admission, in arrival order (R446). -/
def insertArrival (f : Frame) : List Frame → List Frame
  | [] => [f]
  | x :: xs => if f.arrival < x.arrival then f :: x :: xs else x :: insertArrival f xs

/-- The unmatched frames of every buffer in arrival order. -/
def State.unmatched (s : State) : List Frame :=
  (s.yok.buffers.flatMap (·.2)).foldl (fun acc f => insertArrival f acc) []

/-- T10: the follower becomes lead; unmatched frames are admitted first. -/
def State.promote (s : State) : State :=
  let fs := s.unmatched
  let s := (s.becomeLead.startStream).inc (Reg.yokCountLo 9)
  ({ s with sch := { s.sch with arrivals := fs ++ s.sch.arrivals } }).note Ev.yokePromoted

end Sys2Proof.Machine
end

