-- ==== Sys2Proof/Machine/Modes.lean ====
section
/-! DEFINITION. Modes (chapter 04): mode commands, Self-Test, the Recovery sequence from V5 on, the Steward watchdog, and
stores as they complete. -/

namespace Sys2Proof.Machine

open Sys2Proof

/-! ## Guards (R575) -/

/-- The mode lets an OP run (R99, R115). -/
def State.modeAllows (s : State) (op : Nat) : Bool :=
  match op with
  | 1 => s.ctl.mode == .ready
  | 2 => s.ctl.mode == .ready || s.ctl.mode == .service
  | 3 => s.ctl.mode == .service || s.ctl.mode.isYoke
  | 4 => s.ctl.mode == .ready
  | 5 => s.ctl.mode == .yokeLead
  | 7 => !s.ctl.stuck
  | _ => true

/-- The CODE of the first guard that fails, in the order of R575; 0 if none does. -/
def State.modeGuard (s : State) (op : Nat) : Nat :=
  if 7 < op then 7
  else if s.modeAllows op = false then 1
  else if (op = 1 ∨ op = 2) ∧ s.boot.otpLife = .raw then 4
  else if op = 7 ∧ s.ctl.level2 ≠ [] then 6
  else if op = 4 ∧ s.now < s.ctl.responseEnds then 8
  else if (op = 1 ∨ op = 2) ∧ s.setComplete = false then 2
  else if op = 2 ∧ s.yok.lanes ≠ 15 then 5
  else 0

/-- A mode command: it ends the automatic attempts (R574); ignored while another runs (R102); refused by its first failing
guard. -/
def State.modeRun (s : State) (op : Nat) (act : State → State) : State :=
  let s := s.endAuto
  if s.ctl.cmd.isSome then s.note Ev.modeCmdRefused
  else if s.modeGuard op = 0 then act s
  else (s.result Reg.stwModeResult (s.modeGuard op)).note Ev.modeCmdRefused

/-- A write of STW_MODE_CMD. -/
def State.modeWrite (s : State) (path : Path) (op arg : Nat) (act : State → State) : State :=
  s.hostWrite path Reg.stwModeCmd (BitVec.ofNat 32 (arg * 256 + op)) (fun s => s.modeRun op act)

/-- A mode command runs. -/
def State.startMode (s : State) (c : ModeCmd) : State := { s with ctl := { s.ctl with cmd := some c, cmdStart := s.now } }

/-! ## Ready to Service and back -/

/-- T7: intake opens. -/
def State.goService (s : State) : State :=
  let s := s.recheck
  ({ s with ctl := { s.ctl with intake := true } }).setMode .service

/-- The twin has made its request in the pairing that runs. -/
def State.twinHeard (s : State) : Bool := match s.yok.pairing with | some x => x.peer != [] | none => false

/-- An automatic attempt at T7 or T8 (R574); a pairing in which the twin has answered goes on. -/
def State.autoAttempt (s : State) : State :=
  let target := s.fld Reg.stwModeCfg 1 0
  if target = 1 ∧ s.modeGuard 1 = 0 then ({ s with ctl := { s.ctl with autoOn := false } }).goService
  else if target = 2 ∧ s.modeGuard 2 = 0 ∧ s.twinHeard = false then s.startPairing
  else s

/-- CALIBRATE_END (T6, R574). -/
def execCalibrateEnd (s : State) : Host.Outcome State Fault Refusal :=
  if s.ctl.mode ≠ .calibrate then .next s
  else
    let s := s.setMode .ready
    let t := s.fld Reg.stwModeCfg 1 0
    .next (if t = 1 ∨ t = 2 then ({ s with ctl := { s.ctl with autoOn := true } }).autoAttempt else s)

/-- AUTO_SERVICE_ATTEMPT (R574): the next attempt, 1 s after the last. -/
def execAutoServiceAttempt (s : State) : Host.Outcome State Fault Refusal :=
  .next (if s.ctl.mode = .ready ∧ s.ctl.autoOn then s.autoAttempt else s)

/-- GO_SERVICE (T7). -/
def execGoService (path : Path) (s : State) : Host.Outcome State Fault Refusal :=
  .next (s.modeWrite path 1 0 (fun s => s.goService.result Reg.stwModeResult 0))

/-- GO_YOKE (T8): pairing starts; the command runs until pairing ends. -/
def execGoYoke (path : Path) (s : State) : Host.Outcome State Fault Refusal :=
  .next (s.modeWrite path 2 0 (fun s => (s.startMode .goYoke).startPairing))

/-- GO_YOKE_TIMEOUT (R576): the twin has made no request within 1 s. -/
def execGoYokeTimeout (s : State) : Host.Outcome State Fault Refusal :=
  .next (if s.ctl.cmd = some .goYoke ∧ s.twinHeard = false ∧ s.ctl.cmdStart + 1000000000 ≤ s.now then s.endModeCmd 5 else s)

/-- STOP (T14): intake closes, queued frames drain; a lead yields (R445). -/
def execModeStop (path : Path) (s : State) : Host.Outcome State Fault Refusal :=
  .next (s.modeWrite path 3 0 (fun s =>
    let s := (s.yield 4).startMode .stop
    { s with ctl := { s.ctl with intake := false } }))

/-- STOP_DRAIN_END (T14, R576): every queued frame has left, or 1 ms has passed; remaining frames are discarded and counted. -/
def execStopDrainEnd (s : State) : Host.Outcome State Fault Refusal :=
  .next (if s.ctl.cmd = some .stop ∧ (s.sch.frames = [] ∨ s.ctl.cmdStart + 1000000 ≤ s.now) then (s.discardFrames.leaveYoke .ready).endModeCmd 0 else s)

/-- UNYOKE (T13): the decision stream stops. -/
def execUnyoke (path : Path) (s : State) : Host.Outcome State Fault Refusal :=
  .next (s.modeWrite path 5 0 (fun s => ((s.yield 5).leaveYoke .service).result Reg.stwModeResult 0))

/-! ## Self-Test, module reset, Degrade -/

/-- SELF_TEST (T15) with the mask of tests. -/
def execSelfTest (path : Path) (mask : BitVec 8) (s : State) : Host.Outcome State Fault Refusal :=
  .next (s.modeWrite path 4 mask.toNat (fun s =>
    let s := { s with ctl := { s.ctl with selfTestMask := mask.toNat % 64 } }
    ((s.setFld Reg.stwSelftest 13 0 0).setMode .selfTest).result Reg.stwModeResult 0))

/-- SELF_TEST_END (T16): fail names the tests that failed, among those asked for. -/
def execSelfTestEnd (fail : BitVec 6) (s : State) : Host.Outcome State Fault Refusal :=
  if s.ctl.mode ≠ .selfTest then .next s
  else
    let ran := s.ctl.selfTestMask
    let bad := fail.toNat &&& ran
    let s := if bad = 0 then s else s.raise Ev.selftestFail
    .next ((s.wr Reg.stwSelftest (BitVec.ofNat 32 (2 ^ 31 + bad * 256 + ran))).setMode .ready)

/-- MODULE_RESET (R126): it leaves no result (R128). -/
def execModuleReset (path : Path) (s : State) : Host.Outcome State Fault Refusal :=
  .next (s.modeWrite path 6 0 (fun s => s.moduleReset 2))

/-- CLEAR_DEGRADE (R110). -/
def execClearDegrade (path : Path) (s : State) : Host.Outcome State Fault Refusal :=
  .next (s.modeWrite path 7 0 (fun s =>
    ({ s with ctl := { s.ctl with degraded := false } }).result Reg.stwModeResult 0))

/-- MODE_CMD_UNKNOWN: OP 8 to 15 end with CODE 7. OP 0 is no command, but its write while BUSY is refused like any other (R102);
a lower OP is another row's. -/
def execModeCmdUnknown (path : Path) (op : Fin 16) (s : State) : Host.Outcome State Fault Refusal :=
  if op.val = 0 then .next (s.hostWrite path Reg.stwModeCmd 0 (fun s => if s.ctl.cmd.isSome then s.note Ev.modeCmdRefused else s))
  else if op.val < 8 then .next s
  else .next (s.modeWrite path op.val 0 id)

/-! ## Recovery (R111 to R115) -/

/-- Commands that the reset of their island cut short before their commit complete with NOT_STARTED (R116, R308). -/
def State.cutShort (s : State) : State :=
  if s.ctl.recIslands.contains 15 then
    (s.kvt.runs.filter (fun r => r.unit == 8 && r.op == 5)).foldl (fun (s : State) r =>
      ((s.modCtx r.arg (fun c => { c with rotating := none })).endRun 8 r.win).ascEnd r.win 12) s
  else s

/-- A context after V5 (R340): the transmit SA stands at its mark, each receive SA at its limit with every bit set. -/
def State.resumeCtx (s : State) (a : Nat) : State :=
  match s.ctx a with
  | none => s
  | some c =>
    if c.kind ≠ 1 then s
    else
      let h0 := max c.rxHigh0 (s.rxLimit c 0)
      let h1 := max c.rxHigh1 (s.rxLimit c 1)
      let s := s.setCtx a (some { c with
        txNext := c.txMark, rxHigh0 := h0, rxHigh1 := h1, seen := allSeen, smallMap := 2 ^ 64 - 1 })
      (s.askMark a).askRxMark a

/-- V5: packet numbers and the sheaf number resume from their marks; the cache is written back and emptied (R340, R152). -/
def State.resumeNumbers (s : State) : State :=
  let s := s.asc.cache.foldl State.writeBack s
  let s := (s.asc.ctxs.map (·.1)).foldl State.resumeCtx s
  ({ s with asc := { s.asc with cache := [] } }).resumeSheaf

/-- V5: reset islands are released. -/
def State.releaseIslands (s : State) : State :=
  let is := s.ctl.recIslands
  let s := { s with fab := { s.fab with
    live := (s.fab.live ++ is).eraseDups, inReset := s.fab.inReset.filter (fun i => !is.contains i) } }
  let s := s.wr Reg.stwRecoveryIslands (BitVec.ofNat 32 ((is.map (fun i => 2 ^ i)).sum))
  let s := if is.contains 14 then s.clsScan else s
  s.cutShort

/-- RECOVERY_ISLANDS_RELEASED (R111 step V5): scanGood is false when a table fails its scan (R112). -/
def execRecoveryIslandsReleased (scanGood : Bool) (s : State) : Host.Outcome State Fault Refusal :=
  if s.ctl.mode ≠ .recovery ∨ s.ctl.recStep ≠ 4 ∨ s.ctl.stuck then .next s
  else if scanGood = false then .next (s.escalate false)
  else
    let s := s.releaseIslands.resumeNumbers
    let s := (List.range 16).foldl (fun (s : State) g => s.refreshGroup g (s.groupFlags g)) s
    .next { s with ctl := { s.ctl with recStep := 6 } }

/-- T18 and T19. -/
def State.resumeMode (s : State) : State :=
  match s.ctl.modeBefore with
  | .service => ({ s with ctl := { s.ctl with intake := true } }).setMode .service
  | .yokeLead | .yokeFollower | .yokeResync => s.divertResync
  | .calibrate => (s.setMode .calibrate).beginCalibrate
  | .selfTest => (s.setFlg Reg.stwSelftest 31 true).setMode .ready
  | _ => s.setMode .ready

/-- RECOVERY_CAUSE_CLEARED (R111 steps V6 and V7, R113, R114): while the Memory Guard initialises anew, V6 waits (R300). -/
def execRecoveryCauseCleared (s : State) : Host.Outcome State Fault Refusal :=
  if s.ctl.mode ≠ .recovery ∨ s.ctl.recStep ≠ 6 ∨ s.ctl.stuck ∨ s.mgd.initDone = false then .next s
  else if s.ctl.partsBefore - (s.ctl.partsBefore &&& s.partsNow) ≠ 0 then .next (s.escalate false)
  else
    let s := { s with ctl := { s.ctl with halted := false, recStep := 0, outcome := 1, parts := s.partsNow } }
    .next (s.restartAps.resumeMode.note Ev.recoveryDone)

/-- ESCALATION_WINDOW_EXPIRY (R115). -/
def execEscalationWindowExpiry (s : State) : Host.Outcome State Fault Refusal :=
  .next { s with ctl := { s.ctl with escalations := 0 } }

/-- STEWARD_WATCHDOG (R127): 100 ms have passed without a Steward service; the Hedge forces a module reset. -/
def execStewardWatchdog (s : State) : Host.Outcome State Fault Refusal :=
  if s.ctl.mode = .sentry then .next s
  else
    .next ((s.answer [Fired.plain Ev.stewardWatchdog] 3 (decide (4 ≤ s.ctl.mode.effLevel 3)) none).moduleReset 4)

/-! ## Stores (R121, R124) -/

/-- The class of a code 0 to 7, in the order of R125, NOR last. -/
def storeClassOf (k : Nat) : StoreClass :=
  match k with
  | 0 => .stale | 1 => .reservation | 2 => .evidence | 3 => .sealedRec | 4 => .otherRec | 5 => .logBatch | 6 => .calibration
  | _ => .nor

/-- STORE_REQUEST (R121, R124): a unit's store of a class and declared cost whose content no other row interprets. -/
def execStoreRequest (cls : Fin 8) (cost : Nat) (s : State) : Host.Outcome State Fault Refusal :=
  .next (s.requestStore ⟨storeClassOf cls.val, cost, .other, .nobody, false⟩).1

/-- STORE_RETRY_CHECK (R121): every 1 ms a deferred store's check is tried again. -/
def execStoreRetryCheck (s : State) : Host.Outcome State Fault Refusal := .next s.startStores

/-- An association record cleared: the association it stood for has none (R402). -/
def State.dropRecOf (s : State) (k : Nat) : State :=
  let keep := fun (e : Nat × Option Nat) =>
    e.2 != some k || (match s.ctx e.1 with | some c => c.persist | none => false)
  { s with asc := { s.asc with recOf := s.asc.recOf.filter keep } }

/-- What a durable store leaves. -/
def State.storeDurable (s : State) (p : Payload) : State :=
  match p with
  | .pnRec a r => s.pnDurable a r
  | .sheafMark m => s.sheafMarkDurable m
  | .stale b => { s with mram := { s.mram with stale := b } }
  | .evidence r =>
    ({ s with hdg := { s.hdg with
      log := SMap.set noneOf s.hdg.log r.seq (some r), inFlight := s.hdg.inFlight.filter (fun x => x.seq != r.seq) } }).note
      Ev.evidenceAppended (beBytes 4 r.seq)
  | .slotRec c r => { s with mram := { s.mram with slots := SMap.set noneOf s.mram.slots c r } }
  | .assocRec k r =>
    let s := { s with mram := { s.mram with assocs := SMap.set noneOf s.mram.assocs k r } }
    if r.isNone then s.dropRecOf k else s
  | .idPage bs => { s with mram := { s.mram with idPage := bs } }
  | .releaseMark n => { s with led := { s.led with mark := some n } }
  | .logBatch rs => s.appendBatch rs
  | .calPage page => { s with led := { s.led with cal := page } }
  | .norErase _ _ | .norProgram _ _ _ _ | .norMeta _ _ _ _ | .norRetire _ _ _ _ _ _ => s.norDurable p
  | .other => s

/-- A command of LOG_CMD ends as its store is durable. -/
def State.logServed (s : State) : State :=
  match s.led.cmd with
  | some 5 =>
    let s := { s with led := { s.led with cmd := none } }
    let s := s.note Ev.calWritten (beBytes 1 (bits (s.calWord 1) 15 8) ++ beBytes 4 (s.calWord 2).toNat)
    s.result Reg.logResult 0
  | some _ => ({ s with led := { s.led with cmd := none } }).result Reg.logResult 0
  | none => s

/-- A waiting command has all its stores. -/
def State.finishRun (s : State) (r : RunCmd) : State :=
  let s := s.endRun r.unit r.win
  if r.unit = 8 then s.ascEnd r.win r.code
  else if r.op = 16 ∨ r.op = 18 then s.finishLife
  else if r.op = 13 then (s.note Ev.certWritten).kvtEnd r.win 0
  else s.kvtEnd r.win r.code

/-- One store of a waiting command is durable. -/
def State.storeServed (s : State) (who : Waiter) : State :=
  match who with
  | .nobody => s
  | .unit 1 _ => s.imageProgress
  | .unit 14 _ => s.logServed
  | .unit u w =>
    match s.kvt.runs.find? (fun r => r.unit == u && r.win == w && decide (0 < r.waits)) with
    | none => s
    | some r =>
      if r.waits = 1 then s.finishRun r
      else { s with kvt := { s.kvt with runs := s.kvt.runs.map (fun x => if x = r then { x with waits := x.waits - 1 } else x) } }

/-- The waiting command's store has failed: KVT ends with CODE 17, ASC with 10, LOG with 9 (R393). -/
def State.storeDenied (s : State) (who : Waiter) : State :=
  match who with
  | .unit 14 _ => if s.led.cmd.isSome then ({ s with led := { s.led with cmd := none } }).result Reg.logResult 9 else s
  | .unit u w =>
    match s.kvt.runs.find? (fun r => r.unit == u && r.win == w && decide (0 < r.waits)) with
    | none => s
    | some _ =>
      let s := (s.endRun u w).orphanStores who
      if u = 8 then s.ascEnd w 10 else ({ s with kvt := { s.kvt with life := none } }).kvtEnd w 17
  | .nobody => s

/-- An evidence record that the log has no place for leaves the Hedge. -/
def State.dropEvid (s : State) (r : EvidRec) : State :=
  { s with hdg := { s.hdg with inFlight := s.hdg.inFlight.filter (fun x => x.seq != r.seq) } }

/-- An evidence record that failed its read-back goes to the next slot, once (R503); where there is none it is counted (R502). -/
def State.retryEvid (s : State) (r : EvidRec) : State :=
  if s.evidRoom r.type r.level then
    let r' := { r with seq := s.hdg.next, mac := r.mac.bind (fun _ => s.hdg.evidKey.map (fun _ => [])) }
    let r' := { r' with chain := Config.sha256 (s.hdg.head ++ r'.head) }
    let r' := match r'.mac, s.hdg.evidKey with
      | some _, some k => { r' with mac := some (Config.cmac k r'.sealed) }
      | _, _ => r'
    let s := { s with hdg := { s.hdg with
      next := s.hdg.next + 1, head := r'.chain, inFlight := s.hdg.inFlight.map (fun x => if x = r then r' else x) } }
    (s.pushStore (recordStore .evidence (.evidence r') (.unit 13 0))).1.evidFullCheck
  else (s.dropEvid r).evidOverflow

/-- What the requester of a failed store takes back. -/
def State.takeBack (s : State) (p : Payload) : State :=
  match p with
  | .pnRec a r => s.modCtx a (fun c =>
      { c with markAsked := false, rxAsked := false, rotating := if s.rotationRecord a c r then none else c.rotating })
  | .sheafMark m => { s with line := { s.line with markAsked := if s.line.markAsked = some m then none else s.line.markAsked } }
  | .logBatch rs => s.batchFailed rs
  | _ => s

/-- A store fails its read-back (R81, R129, R503, R553). -/
def State.storeFailed (s : State) (r : StoreReq) : State :=
  match r.cls, r.pay with
  | .nor, _ => s.norFault r
  | _, .evidence e =>
    let s := s.note Ev.evidenceFail
    if r.who = .unit 13 0 then { s with hdg := { s.hdg with givenUp := e.seq :: s.hdg.givenUp } } else s.retryEvid e
  | _, p => ((s.takeBack p).raise Ev.storeVerifyFail).storeDenied r.who

/-- Once a store has ended, the queue has room: an evidence record whose store was refused is passed again (R503), and a Zeroized
module goes on overwriting (R109), as a life-cycle command does (R407). -/
def State.askAgain (s : State) : State :=
  let s := s.hdg.inFlight.foldl (fun (s : State) (r : EvidRec) =>
    if storeCap ≤ s.st.queue.length ∨ s.st.has (.evidence r) ∨ s.hdg.givenUp.contains r.seq then s else (s.pushStore (recordStore .evidence (.evidence r))).1) s
  let s := if s.ctl.mode = .zeroized ∧ s.pow.pfStep = 0 then s.overwriteLeft else s
  s.wipeOn

/-- The store on a port ends. -/
def State.endStore (s : State) (r : StoreReq) (good : Bool) : State :=
  let s := if s.pow.pfStep = 5 then { s with pow := { s.pow with pfDone := s.pow.pfDone + 1 } } else s
  let s := if good then (s.storeDurable r.pay).storeServed r.who else s.storeFailed r
  s.freeRecords.askAgain.startStores.reportRefused

/-- STORE_COMPLETE (R121): the store in progress on the NOR or the MRAM port is read back, good or not. -/
def execStoreComplete (nor good : Bool) (s : State) : Host.Outcome State Fault Refusal :=
  match (if nor then s.st.nor else s.st.mram) with
  | none => .next s
  | some r =>
    let st := if nor then { s.st with nor := none } else { s.st with mram := none }
    .next (({ s with st := st }).endStore r good)

/-- The store of a waiting command has been deferred too long: it ends with its deferral CODE (R402, R549, R565). -/
def State.runDeferred (s : State) (u w : Nat) (ops : List Nat) : State :=
  match s.kvt.runs.find? (fun r => r.unit == u && r.win == w && decide (0 < r.waits)) with
  | none => s
  | some r =>
    if ops.contains r.op ∧ 0 < s.storesOf (.unit u w) then
      let s := (s.endRun u w).orphanStores (.unit u w)
      if u = 8 then s.ascEnd w 10 else s.kvtEnd w 13
    else s

/-- STORE_DEFERRAL_EXCEEDED: unit 8 (CREATE, WRITE, ROTATE), 10 (loads, ERASE, CERT_WRITE), 14 (RELEASE, whose store stays
queued, and CAL_WRITE, which stores nothing). -/
def execStoreDeferralExceeded (unit : Fin 16) (allot : Fin 64) (s : State) : Host.Outcome State Fault Refusal :=
  if unit.val = 8 then .next (s.runDeferred 8 allot.val [2, 3, 5])
  else if unit.val = 10 then .next (s.runDeferred 10 allot.val [1, 2, 3, 4, 5, 10, 13])
  else if unit.val = 14 ∧ s.led.cmd.isSome ∧ s.st.queue.any (fun r => r.who == Waiter.unit 14 0) then
    let cal := s.led.cmd == some 5
    let s := { s with
      led := { s.led with cmd := none }
      st := { s.st with queue := if cal then s.st.queue.filter (fun r => r.who != Waiter.unit 14 0) else s.st.queue } }
    .next ((s.orphanStores (.unit 14 0)).result Reg.logResult 6)
  else .next s

/-! ## The supply (R47, R49) -/

/-- A store that was in progress when the store domain dropped: whether it is durable is a free value (R47). -/
def State.storeCut (s : State) (r : Option StoreReq) : State :=
  match r with
  | none => s
  | some r =>
    let (k, s) := s.draw
    if Config.freeNat k % 2 = 1 then s.storeDurable r.pay else s

/-- The bank has reached its floor in a power-fail sequence, and the store domain drops at once (R47): queued stores are lost, and
the Hedge, on the cell, keeps or appends the records that are not durable (R503); what its reserve test reads is free. -/
def State.domainDrops (s : State) : State :=
  let s := (s.storeCut s.st.mram).storeCut s.st.nor
  let (k, s) := s.draw
  (s.evidRelease (Config.freeNat k)).powerReset

/-- The floor of the store domain in units of 10 mV (R47). -/
def floor10 : Nat := 2370

/-- SUPPLY_SAMPLE (R49): every 1 ms feed voltages (10 mV) and currents (mA), input power (0.1 W) and the bank voltage
(10 mV) are taken; stores that failed their check are tried again (R121). In steps 4 to 6 of a power-fail sequence the floor of the
bank ends the store domain. -/
def execSupplySample (va vb ia ib power bankV : BitVec 16) (s : State) : Host.Outcome State Fault Refusal :=
  if s.ctl.mode = .sentry then .next s
  else
    let s := s.wr (Reg.stwVin 0) (BitVec.ofNat 32 (ia.toNat * 65536 + va.toNat))
    let s := s.wr (Reg.stwVin 1) (BitVec.ofNat 32 (ib.toNat * 65536 + vb.toNat))
    let peak := max (s.fld Reg.stwInputPower 31 16) power.toNat
    let s := s.wr Reg.stwInputPower (BitVec.ofNat 32 (peak * 65536 + power.toNat))
    let s := { s with pow := { s.pow with
      inputMv := max va.toNat vb.toNat * 10, aOk := decide (feedLost10 ≤ va.toNat), bOk := decide (feedLost10 ≤ vb.toNat)
      bankV := bankV.toNat, eAvail := energyMj s.pow.capUf bankV.toNat } }
    if 0 < s.pow.pfStep ∧ bankV.toNat ≤ floor10 then .next s.domainDrops else .next s.startStores.recheck

end Sys2Proof.Machine
end

