-- ==== Sys2Proof/Machine/View.lean ====
section
/-! DEFINITION. What a register reads as: the stored word, the read-only fields that show state held elsewhere, the shadow
copies of R7, the fields that a read clears (R8). -/

namespace Sys2Proof.Machine

open Sys2Proof

/-! ## Fields that show state

Each view lists high bit, low bit and value of the fields it shows; d is the distance in bytes from the row's base, i the
index of the row's first dimension. -/

/-- A field: its high and low bit, its value. -/
abbrev FieldVal := Nat × Nat × Nat

/-- The number of entries of a table that pass. -/
def countOf {α : Type} (m : SMap (Option α)) (p : Nat → α → Bool) : Nat :=
  (m.filter (fun e => match e.2 with | some x => p e.1 x | none => false)).length

/-- Word w of bytes, byte 4w in bits [31:24]. -/
def byteWord (b : List Byte) (w : Nat) : Nat := ofBe (slice b (4 * w) 4)

/-- The low and the high word of a wide value, by whether the distance from the low word's register names the high one. -/
def wideWord (hi : Bool) (v : Nat) : List FieldVal := [(31, 0, if hi then v / 2 ^ 32 else v)]

/-- Unit 0: identity, directory, islands. -/
def State.viewId (s : State) (base i : Nat) : List FieldVal :=
  if base = Reg.serialLo then [(31, 0, Config.serial.toNat)]
  else if base = Reg.serialHi then [(31, 0, Config.serial.toNat / 2 ^ 32)]
  else if base = Reg.dirEntry 0 then [(31, 24, i), (1, 1, flag (i == 0 || s.unitEnabled i))]
  else if base = Reg.islandState 0 then
    [(1, 1, flag (s.fab.inReset.contains i)), (0, 0, flag (s.fab.live.contains i))]
  else []

/-- A slot's value where the slot is not Empty. -/
def State.slotField (s : State) (k : Nat) (v : SlotMeta → Nat) : Nat :=
  match s.boot.slotMeta with
  | some m => if m.st k = .empty then 0 else v m
  | none => 0

/-- Unit 1: power, boot, modes, stores. -/
def State.viewPower (s : State) (base : Nat) : List FieldVal :=
  if base = Reg.stwFeedStatus then [(1, 1, flag s.pow.bOk), (0, 0, flag s.pow.aOk)]
  else if base = Reg.stwHoldupV then [(18, 16, s.pow.bank.code), (15, 0, s.pow.bankV)]
  else if base = Reg.stwHoldupCap then [(15, 0, min 65535 s.pow.capUf)]
  else if base = Reg.stwHoldupEnergy then [(15, 0, min 65535 s.pow.eAvail)]
  else if base = Reg.stwPins then
    let mute := s.pow.svcMute || s.ctl.halted || decide (0 < s.pow.pfStep) || s.yok.muted ||
      (match s.ctl.mode with | .yokeResync | .selfTest | .recovery => true | _ => false)
    [(3, 3, flag mute), (2, 2, flag s.pow.svcMute), (1, 1, flag s.pow.yokePos), (0, 0, flag (s.pow.bleedA && s.pow.bleedB))]
  else []

def State.viewBoot (s : State) (base i : Nat) : List FieldVal :=
  let build := s.slotField i (fun _ => leAt (s.slotBytes i 0 256) 24 8)
  let im := fun (f : Structure → Nat) => match s.boot.image with | some x => f x | none => 0
  let m := fun (f : SlotMeta → Nat) => match s.boot.slotMeta with | some x => f x | none => 0
  if base = Reg.stwBootStatus then
    [(31, 28, s.boot.phase), (27, 24, s.boot.hold), (13, 12, s.boot.booted), (11, 8, s.boot.tried)]
  else if base = Reg.stwBootTime then [(31, 16, min 65535 s.pow.riseMs), (15, 0, min 65535 s.pow.bootMs)]
  else if base = Reg.stwSlotState then
    [(23, 20, m (·.trialMax)), (19, 16, m (·.tries)), (12, 12, m (·.prefer)), (10, 8, m (fun x => x.stG.code)),
     (6, 4, m (fun x => x.stB.code)), (2, 0, m (fun x => x.stA.code))]
  else if base = Reg.stwSlotBuildLo 0 then wideWord false build
  else if base = Reg.stwSlotBuildHi 0 then wideWord true build
  else if base = Reg.stwSlotRollback then
    [(31, 24, s.boot.floor), (23, 16, s.slotField 2 (·.rbG)), (15, 8, s.slotField 1 (·.rbB)), (7, 0, s.slotField 0 (·.rbA))]
  else if base = Reg.stwImageInfo then
    [(17, 16, im (·.authSlot)), (15, 9, im (·.allotCount)), (8, 8, im (fun x => flag x.expanse)), (7, 0, im (·.rollback))]
  else if base = Reg.stwYokeClassLo then wideWord false (im (·.yokeClass))
  else if base = Reg.stwYokeClassHi then wideWord true (im (·.yokeClass))
  else if base = Reg.stwAuthState then
    let sum := fun (f : AuthSlot → Bool) => ((List.range 4).map (fun k => flag (match s.boot.auth[k]? with | some a => f a | none => false) * 2 ^ k)).sum
    [(7, 4, sum (·.revoked)), (3, 0, sum (·.programmed))]
  else if base = Reg.stwImageCmd then [(31, 31, flag s.boot.job.isSome)]
  else if base = Reg.stwNorWear then
    [(31, 16, s.boot.retired.length), (15, 0, s.boot.metaWear.foldl (fun (m : Nat) (e : Nat × Nat) => max m e.2) 0 / 100)]
  else []

def State.viewMode (s : State) (base : Nat) : List FieldVal :=
  if base = Reg.stwMode then
    [(23, 16, s.ctl.recoveries), (10, 8, if s.boot.phase = 0 ∧ s.ctl.mode = .boot then 0 else s.boot.otpLife.code),
     (7, 4, s.ctl.prevMode.code), (3, 0, s.ctl.mode.code)]
  else if base = Reg.stwModeCmd then [(31, 31, flag s.ctl.cmd.isSome)]
  else if base = Reg.stwServiceSet then [(31, 31, flag s.setComplete), (10, 0, s.partsNow)]
  else if base = Reg.stwResponse then
    [(31, 16, s.ctl.lastCode), (10, 8, s.ctl.lastLevel), (1, 1, flag s.ctl.halted), (0, 0, flag s.ctl.degraded)]
  else if base = Reg.stwRecovery then
    [(31, 24, min 255 s.ctl.escalations), (17, 16, s.ctl.outcome), (4, 4, flag s.ctl.stuck), (3, 0, s.ctl.recStep)]
  else if base = Reg.stwRecoveryIslands then [(20, 0, (s.ctl.recIslands.eraseDups.map (2 ^ ·)).sum)]
  else if base = Reg.stwResetCause then [(3, 0, s.ctl.resetCause)]
  else if base = Reg.stwStoreStatus then [(16, 16, flag (s.st.mram.isSome || s.st.nor.isSome)), (8, 0, s.st.queue.length)]
  else []

def State.viewStw (s : State) (base i : Nat) : List FieldVal := s.viewPower base ++ s.viewBoot base i ++ s.viewMode base

/-- Unit 2: the host interface. -/
def State.viewHif (s : State) (n base i : Nat) : List FieldVal :=
  if base = Reg.hifLinkStatus then [(31, 31, flag s.hif.linkUp), (27, 24, s.hif.speed), (19, 16, s.hif.width), (5, 0, s.hif.ltssm)]
  else if base = Reg.hifAllotCmd then [(31, 31, flag s.hif.cmd.isSome)]
  else if base = Reg.hifI3cStatus then
    [(31, 31, flag s.hif.dynAddr.isSome), (30, 30, flag s.hif.ibiEn), (29, 29, flag s.hif.hjEn), (22, 16, s.hif.dynAddr.getD 0),
     (6, 0, 0x58 + flag s.pow.yokePos)]
  else if base = Reg.hifAllotState then [(30, 28, (s.allotState n).code)]
  else if base = Reg.hifRingIndex 0 then [(31, 16, s.ringM n i), (15, 0, s.ringH n i)]
  else if base = Reg.hifAllotCtrl 0 then [(30, 28, (s.allotState i).code)]
  else []

/-- ALIGN of a lane. -/
def alignCode : Align → Nat
  | .hunt => 0 | .presync _ => 1 | .sync _ => 2 | .notGlafold => 3

/-- Unit 3: lanes, groups, ports. -/
def State.viewLnf (s : State) (base i : Nat) : List FieldVal :=
  if base = Reg.lnfSheafLo then wideWord false s.line.sheaf
  else if base = Reg.lnfSheafHi then wideWord true s.line.sheaf
  else if base = Reg.lnfMarkLo then wideWord false s.line.mark
  else if base = Reg.lnfMarkHi then wideWord true s.line.mark
  else if base = Reg.lnfLaneStatus 0 then
    let l := s.lane i
    [(31, 24, l.snr), (10, 9, alignCode l.align), (8, 8, flag l.prbsLock), (7, 7, flag l.cwLock), (6, 6, flag l.cdrLock), (5, 5, flag l.signal)]
  else if base = Reg.lnfGrpStatus 0 then
    let g := s.group i
    let ids := s.groupLaneIds i
    let sync := (List.range ids.length).map (fun k =>
      match (s.lane (ids.getD k 0)).align with | .sync _ => 2 ^ k | _ => 0)
    let exc := ids.any (fun n => (s.lane n).exc)
    [(15, 8, sync.sum), (7, 7, flag g.aligned), (6, 6, flag exc), (5, 5, flag g.rdiRx), (4, 4, flag g.tim), (3, 3, flag g.loga),
     (2, 2, flag g.sd), (1, 1, flag g.sf), (0, 0, flag (s.groupUp i))]
  else if base = Reg.lnfGrpRxSheafLo 0 then wideWord false (s.group i).rxSheaf
  else if base = Reg.lnfGrpRxSheafHi 0 then wideWord true (s.group i).rxSheaf
  else if base = Reg.lnfGrpSkew 0 then [(11, 0, min 4095 (s.group i).spreadNs)]
  else if base = Reg.lnfEthStatus 0 then
    let e := s.ethPort i
    [(4, 4, flag e.remoteFault), (3, 3, flag e.localFault), (2, 2, flag e.hiBer), (1, 1, flag e.aligned), (0, 0, flag e.up)]
  else []

/-- Unit 4: pages and protection pairs. -/
def State.viewRix (s : State) (base i : Nat) : List FieldVal :=
  if base = Reg.rixSwapCmd then [(31, 31, flag s.swapBusy)]
  else if base = Reg.rixGrpPage 0 then
    let p := s.gpages (s.pageGroup i)
    let b := s.pageByte i s.line.sheaf
    let rx := match p.rxSwap with | some t => t - (s.group i).rxSheaf | none => 0
    [(23, 23, flag (s.gpages i).mismatch), (19, 16, rx), (15, 15, if p.rxSwap.isSome then 1 - p.rxActive else p.rxActive), (14, 14, p.rxActive),
     (11, 8, b % 16), (7, 7, b / 64 % 2), (6, 6, p.txActive)]
  else if base = Reg.rixGrpCrc 0 then
    let g := s.pageGroup i
    let a := (s.gpages g).txActive
    [(31, 16, s.txMapCrc a g), (15, 0, s.txMapCrc (1 - a) g)]
  else if base = Reg.rixGrpRxCrc 0 then
    let g := s.pageGroup i
    let a := (s.gpages g).rxActive
    [(31, 16, s.rxMapCrc a g), (15, 0, s.rxMapCrc (1 - a) g)]
  else if base = Reg.rixApsStatus 0 then
    let p := s.pair i
    [(31, 28, p.local_), (27, 24, p.far.req), (23, 20, p.sent), (19, 19, p.selector), (18, 18, p.bridge), (17, 17, p.far.sig),
     (16, 16, p.far.bridged), (15, 15, flag p.wtr), (14, 14, flag p.holdRun), (13, 13, flag p.mismatch), (12, 12, flag p.skewExcess),
     (11, 9, p.cmd)]
  else []

/-- The unit is enabled and every island of a list runs. -/
def State.unitLive (s : State) (u : Nat) (is : List Nat) : Bool := s.unitEnabled u && is.all s.islandUp

/-- Unit 5: the classifier. -/
def State.viewCls (s : State) (n base i : Nat) : List FieldVal :=
  if base = Reg.clsStatus then
    [(31, 31, flag (s.unitLive 5 [14])), (30, 30, flag (s.cls.bypass || (s.boot.image.isSome && !s.unitEnabled 5))), (18, 0, (s.cls.alt.filter (fun e => e.2.isSome)).length)]
  else if base = Reg.clsReaperStatus then [(31, 16, s.cls.sweep), (15, 0, s.cls.bucket)]
  else if base = Reg.clsLearnQueue then [(12, 0, s.cls.learnQ.length)]
  else if base = Reg.clsCmd then [(31, 31, flag (s.clsBusy n))]
  else if base = Reg.clsPortLearned 0 then [(31, 31, flag (s.atQuota i)), (18, 0, s.learnedCount i)]
  else if base = Reg.clsCountLo 0 then wideWord false (s.count (Reg.clsCountLo i))
  else if base = Reg.clsCountHi 0 then wideWord true (s.count (Reg.clsCountLo i))
  else []

/-- Unit 6: the Scheduler. -/
def State.viewSch (s : State) (base i : Nat) : List FieldVal :=
  if base = Reg.schStatus then
    [(31, 31, flag (s.unitLive 6 [15])), (30, 30, flag s.sch.spillEnc), (29, 29, flag s.sch.spillDec)]
  else if base = Reg.schFreeEnc then [(18, 0, s.freeCells true)]
  else if base = Reg.schFreeDec then [(18, 0, s.freeCells false)]
  else if base = Reg.schSpillUsed then [(27, 0, s.sch.spillUsed)]
  else if base = Reg.schCountLo 0 then wideWord false (s.count (Reg.schCountLo i))
  else if base = Reg.schCountHi 0 then wideWord true (s.count (Reg.schCountLo i))
  else if base = Reg.schGateCfg 0 then [(30, 30, (s.gate i).active), (29, 29, flag (s.gate i).pending.isSome)]
  else if base = Reg.schGateStatus 0 then
    [(31, 31, flag (s.gate i).running), (23, 16, s.gatesNow i), (10, 0, (s.gate i).entry)]
  else if base = Reg.schCqDepth 0 then
    let kids := (s.sch.queues.map (·.1)).filter (fun a => decide (a < 65536) && s.attachedTo a == i)
    [(27, 0, s.depth (directKey i) + (kids.map s.depth).sum)]
  else []

/-- STATE of a memory queue. -/
def State.queueCode (s : State) (q : Nat) : Nat :=
  match s.queueDomain q with
  | none => 0
  | some d =>
    if s.mgd.initDone = false ∨ (q < 64 ∧ s.mgd.winInit.contains q) then 1
    else if s.mgd.refused.contains d.id then 3 else 2

/-- Unit 7: the Memory Guard. -/
def State.viewMgd (s : State) (base i : Nat) : List FieldVal :=
  let region := fun (f : HbmRegion → List FieldVal) => match s.regions[i]? with | some r => f r | none => []
  if base = Reg.mgdStatus then
    [(31, 31, flag (s.unitLive 7 [13, 16])), (30, 30, flag s.mgd.initDone), (29, 29, flag s.expanse), (28, 28, flag s.mgd.retill.isSome),
     (27, 27, flag (s.flg Reg.mgdHarrowCfg 31 && s.mgd.initDone)), (4, 0, s.regions.length)]
  else if base = Reg.mgdGuard then
    (match s.boot.image with | some _ => [(31, 16, s.guardGb / mib), (15, 0, s.guardMib)] | none => [])
  else if base = Reg.mgdHarrowStatus then
    [(31, 16, s.mgd.passes), (6, 0, if s.harrowTotal = 0 then 0 else s.mgd.harrowAt * 100 / s.harrowTotal)]
  else if base = Reg.mgdRetillCmd then [(31, 31, flag s.mgd.retill.isSome)]
  else if base = Reg.mgdRetillStatus then (match s.mgd.retill with | some r => [(15, 8, s.retillPercent r)] | none => [])
  else if base = Reg.mgdCountLo 0 then wideWord false (s.count (Reg.mgdCountLo i))
  else if base = Reg.mgdCountHi 0 then wideWord true (s.count (Reg.mgdCountLo i))
  else if base = Reg.mgdQueueCfg 0 then
    let due := match s.queueDomain i with | some d => s.mgd.due.contains d.key | none => false
    let key := if i < 64 then [] else match s.queueDomain i with | some d => [(21, 16, d.key)] | none => []
    key ++ [(4, 4, flag due), (1, 0, s.queueCode i)]
  else if base = Reg.mgdRegion 0 then region (fun r => [(31, 16, r.sizeMib), (15, 0, r.base / mib)])
  else if base = Reg.mgdRegionInfo 0 then
    region (fun r => [(17, 17, flag (s.mgd.refused.contains i)), (16, 16, flag (s.mgd.due.contains r.keyIdx)), (13, 8, r.keyIdx), (3, 0, r.purpose)])
  else if base = Reg.mgdRegionProt 0 then region (fun _ => [(15, 0, s.protStart i / mib)])
  else []

/-- Unit 8: the Association Engine. -/
def State.viewAsc (s : State) (n base i : Nat) : List FieldVal :=
  if base = Reg.ascStatus then
    [(31, 31, flag (s.unitLive 8 [17])), (13, 0, match s.boot.image with | some im => im.ctxCache | none => 0)]
  else if base = Reg.ascSciStatus then [(16, 0, s.asc.sci.length)]
  else if base = Reg.ascPersistStatus then [(14, 0, countOf s.asc.ctxs (fun _ c => c.persist))]
  else if base = Reg.ascCmd then [(31, 31, flag (s.unitBusy 8 n))]
  else if base = Reg.ascCountLo 0 then wideWord false (s.count (Reg.ascCountLo i))
  else if base = Reg.ascCountHi 0 then wideWord true (s.count (Reg.ascCountLo i))
  else if base = Reg.ascFlipStatus 0 then
    (match (s.gpages i).flip with
     | some (t, f) => [(31, 31, 1), (24, 16, t), (7, 0, f - s.line.sheaf)]
     | none => [])
  else []

/-- Unit 9: the Cipher Array. -/
def State.viewCph (s : State) (n base i : Nat) : List FieldVal :=
  let cnt := fun (p : CPair → Bool) => (s.cph.pairs.filter p).length
  let role := fun (r : Nat) => (s.serving r).length
  let mine := fun (j : Job) => n == 0 || j.allot == n
  if base = Reg.cphStatus then
    [(31, 31, flag (s.unitLive 9 [9, 10, 11, 12])), (30, 30, flag (!s.cph.vacant.isEmpty || s.asc.shortEp)),
     (29, 29, flag (s.cph.pairs.any (fun p => p.imageRole == 4 && p.st == 1 && p.role != 4))), (6, 0, cnt (fun p => p.st != 4))]
  else if base = Reg.cphRoleCount then [(31, 24, role 3), (23, 16, role 2), (15, 8, role 1), (7, 0, role 0)]
  else if base = Reg.cphPoolCount then [(23, 16, cnt (fun p => p.st == 4)), (15, 8, cnt (fun p => p.st == 2)), (7, 0, role 4)]
  else if base = Reg.cphPairCmd then [(31, 31, flag s.cph.cmd.isSome)]
  else if base = Reg.cphCountLo 0 then wideWord false (s.count (Reg.cphCountLo i))
  else if base = Reg.cphCountHi 0 then wideWord true (s.count (Reg.cphCountLo i))
  else if base = Reg.cphJobStatus then
    [(30, 24, countOf s.cph.jobs (fun _ j => mine j && j.item.isSome && j.fin.isNone)), (23, 0, s.count (privKey n Reg.cphJobStatus))]
  else if base = Reg.cphPairState 0 then
    let p := s.cph.pairs.getD i CPair.reset
    [(31, 29, p.st), (28, 26, p.role), (25, 23, p.imageRole), (22, 16, p.standsFor), (14, 12, p.cause), (7, 0, p.mismatches)]
  else []

/-- Unit 10: the Key Vault. -/
def State.viewKvt (s : State) (n base i : Nat) : List FieldVal :=
  let anchors := fun (f : Anchor → Bool) =>
    ((List.range 4).map (fun k => flag (match s.kvt.anchors[k]? with | some a => f a | none => false) * 2 ^ k)).sum
  if base = Reg.kvtStatus then
    [(31, 31, flag (s.unitLive 10 [17])), (30, 30, flag (s.kvt.rbgUp && s.kvt.rbgHealthy)), (29, 29, flag s.kvt.unsealDone),
     (28, 28, flag s.kvt.session.isSome)]
  else if base = Reg.kvtDataLive then [(17, 0, countOf s.kvt.slots (fun c k => decide (c < vaultBase) && k.usable))]
  else if base = Reg.kvtVaultLive then [(8, 0, countOf s.kvt.slots (fun c k => decide (vaultBase ≤ c) && k.usable))]
  else if base = Reg.kvtSealed then
    [(31, 16, countOf s.mram.slots (fun _ _ => true)), (14, 0, countOf s.mram.assocs (fun _ _ => true))]
  else if base = Reg.kvtRbg then [(31, 31, flag (s.kvt.rbgUp && s.kvt.rbgHealthy))]
  else if base = Reg.kvtLc then
    [(20, 16, s.kvt.fuses), (13, 8, s.kvt.reseeds), (7, 4, anchors (·.revoked)), (3, 0, anchors (·.hash.isSome))]
  else if base = Reg.kvtCmd then [(31, 31, flag (s.unitBusy 10 n))]
  else if base = Reg.kvtCountLo 0 then wideWord false (s.count (Reg.kvtCountLo i))
  else if base = Reg.kvtCountHi 0 then wideWord true (s.count (Reg.kvtCountLo i))
  else []

/-- Unit 11: the Yoke. -/
def State.viewYok (s : State) (base i : Nat) : List FieldVal :=
  if base = Reg.yokStatus then
    [(31, 31, flag (s.unitLive 11 [8])), (30, 30, flag (s.yok.lanes == 15)), (29, 29, flag s.yok.paired), (28, 28, flag s.yok.locked),
     (27, 27, flag (s.ctl.mode == .yokeLead)), (26, 26, flag s.yok.twinLost), (25, 25, flag s.mram.stale),
     (24, 24, flag (decide (0 < s.yok.suspect))), (23, 20, s.yok.step), (19, 16, s.yok.pairCode)]
  else if base = Reg.yokLag then [(16, 0, s.lagBlocks)]
  else if base = Reg.yokCmd then [(31, 31, flag s.yok.cmd.isSome)]
  else if base = Reg.yokLink then [(31, 28, s.yok.lanes), (15, 0, min 65535 s.yok.oneWay)]
  else if base = Reg.yokCountLo 0 then wideWord false (s.count (Reg.yokCountLo i))
  else if base = Reg.yokCountHi 0 then wideWord true (s.count (Reg.yokCountLo i))
  else []

/-- Word w of a channel's time as TIM_CH_T lays it out: fraction, nanoseconds, seconds. -/
def State.channelWord (s : State) (c w : Nat) : Nat :=
  let v := s.chanValue c
  let ns := nsOf v
  match w with
  | 0 => v / 2 ^ 24 % 65536
  | 1 => ns % 1000000000
  | 2 => ns / 1000000000
  | _ => ns / 1000000000 / 2 ^ 32 % 65536

/-- A signed count of 2^-40 ns in ns, saturating to 32 bits. -/
def slewNs (x : Int) : Nat :=
  let v := x.tdiv (2 ^ 40)
  unsigned32 (if v < -2147483648 then -2147483648 else if 2147483647 < v then 2147483647 else v)

/-- Unit 12: Time. -/
def State.viewTim (s : State) (base d i : Nat) : List FieldVal :=
  if base = Reg.timStatus then
    [(31, 31, flag (s.unitLive 12 [17])), (15, 0, ((List.range 16).map (fun c => if (s.chan c).st = .stopped then 0 else 2 ^ c)).sum)]
  else if base = Reg.timCountLo 0 then wideWord false (s.count (Reg.timCountLo i))
  else if base = Reg.timCountHi 0 then wideWord true (s.count (Reg.timCountLo i))
  else if base = Reg.timChCtrl 0 then
    let c := s.chan i
    [(31, 29, c.st.code), (28, 26, c.source), (25, 20, c.owner), (19, 16, c.parent), (15, 6, c.slewPpm)]
  else if base = Reg.timChAdj 0 then [(31, 0, unsigned32 (s.chan i).freq)]
  else if base = Reg.timChT 0 0 then [(31, 0, s.channelWord i (d % 0x40 / 4))]
  else if base = Reg.timChSlewLeft 0 then [(31, 0, slewNs (s.chan i).slew)]
  else []

/-- Unit 13: the Hedge. -/
def State.viewHdg (s : State) (base i : Nat) : List FieldVal :=
  let h := s.hdg
  if base = Reg.hdgStatus then
    [(31, 31, flag h.live), (30, 30, flag s.hedgeIntact), (29, 29, flag (h.sensors.any (·.tripped))), (28, 28, flag (decide (evidCap ≤ h.next))),
     (27, 24, ((List.range 4).map (fun k => flag ((h.roots.getD k none).isSome) * 2 ^ k)).sum), (23, 23, flag h.pendingRoot.isSome)]
  else if base = Reg.hdgCell then [(31, 31, flag h.reserveOk), (27, 16, min 4095 h.loadedMv), (11, 0, min 4095 h.cellMv)]
  else if base = Reg.hdgHcountLo then wideWord false h.hcount
  else if base = Reg.hdgHcountHi then wideWord true h.hcount
  else if base = Reg.hdgPowerups then [(31, 0, h.powerups)]
  else if base = Reg.hdgRootCause then [(3, 0, h.rootCause)]
  else if base = Reg.hdgLogStatus then
    [(31, 31, flag (decide (evidCap ≤ h.next))), (30, 30, flag (decide (evidTail ≤ h.next))), (29, 16, min 16383 h.overflow), (12, 0, h.next)]
  else if base = Reg.hdgLogHead 0 then [(31, 0, byteWord h.head i)]
  else if base = Reg.hdgSensorStatus 0 then
    (match h.sensors[i]? with
     | some x => [(31, 31, flag x.tripped), (30, 30, flag x.raw), (23, 16, min 255 x.fill), (15, 0, min 65535 x.alarms)]
     | none => [])
  else if base = Reg.hdgSensorCell 0 then
    (match h.sensors[i]? with | some x => [(15, 0, min 65535 x.notesReported)] | none => [])
  else []

/-- Unit 14: the Ledger. -/
def State.viewLog (s : State) (base : Nat) : List FieldVal :=
  let l := s.led
  if base = Reg.logStatus then
    [(31, 31, flag (l.scanned && !l.unhealthy)), (30, 30, flag l.frozen), (29, 16, l.opened.length), (10, 0, l.staged.length)]
  else if base = Reg.logCmd then [(31, 31, flag l.cmd.isSome)]
  else if base = Reg.logSeq then [(31, 0, l.seq)]
  else if base = Reg.logOldest then
    let seqs := l.log.filterMap (fun e => e.2.map (·.seq))
    [(31, 0, match seqs with | [] => 0 | x :: t => t.foldl min x)]
  else if base = Reg.logCalInfo then 
    [(31, 31, flag l.calValid), (16, 16, bits (SMap.get zeroWord l.cal 1) 15 8), (15, 0, bits (SMap.get zeroWord l.cal 2) 15 0)]
  else []

/-- Unit 15: performance counters. -/
def State.viewPmc (s : State) (base i : Nat) : List FieldVal :=
  let fu := fun (k : Nat) => SMap.get zeroOf s.led.fu k
  if base = Reg.pmcDumpIndex then [(31, 16, s.count Reg.pmcDumpIndex)]
  else if base = Reg.pmcTagNext then [(31, 0, s.led.tagNext)]
  else if base = Reg.pmcStreamIndex 0 then [(31, 16, s.count (Reg.pmcStreamIndex i))]
  else if base = Reg.pmcFuCountLo 0 then wideWord false (fu (2 * i))
  else if base = Reg.pmcFuCountHi 0 then wideWord true (fu (2 * i))
  else if base = Reg.pmcFuBytesLo 0 then wideWord false (fu (2 * i + 1))
  else if base = Reg.pmcFuBytesHi 0 then wideWord true (fu (2 * i + 1))
  else if base = Reg.pmcEvcLo 0 then wideWord false (SMap.get zeroOf s.led.evc i)
  else if base = Reg.pmcEvcHi 0 then wideWord true (SMap.get zeroOf s.led.evc i)
  else []

/-- The fields of a register that show state, in allotment n's copy. -/
def State.viewOf (s : State) (n : Nat) (r : RegRow) (off : Nat) : List FieldVal :=
  let i := r.index off
  match off / 0x100000 with
  | 0 => s.viewId r.base i
  | 1 => s.viewStw r.base i
  | 2 => s.viewHif n r.base i
  | 3 => s.viewLnf r.base i
  | 4 => s.viewRix r.base i
  | 5 => s.viewCls n r.base i
  | 6 => s.viewSch r.base i
  | 7 => s.viewMgd r.base i
  | 8 => s.viewAsc n r.base i
  | 9 => s.viewCph n r.base i
  | 10 => s.viewKvt n r.base i
  | 11 => s.viewYok r.base i
  | 12 => s.viewTim r.base (off - r.base) i
  | 13 => s.viewHdg r.base i
  | 14 => s.viewLog r.base
  | 15 => s.viewPmc r.base i
  | _ => []

/-! ## Reading -/

/-- The MSI-X table and the pending bit array (R510): a word at an offset of the HIF block. -/
def State.msixWord (s : State) (o : Nat) : Option Word :=
  if 0x8000 ≤ o ∧ o < 0x10000 then some (BitVec.ofNat 32 (SMap.get msixDefault s.hif.msix ((o - 0x8000) / 4)))
  else if 0x10000 ≤ o ∧ o < 0x10100 then
    some (BitVec.ofNat 32 ((List.range 32).map (fun b => if s.hif.pba.contains ((o - 0x10000) / 4 * 32 + b) then 2 ^ b else 0)).sum)
  else none

/-- The register at a Device Window offset in allotment n's copy as it stands, without shadows; an undefined offset reads
as 0 (R6), and so does a WO field (R8). -/
def State.readReg (s : State) (n off : Nat) : Word :=
  match regRowAt off with
  | none => if off / 0x100000 = 2 then (s.msixWord (off % 0x100000)).getD 0 else 0
  | some r =>
    let raw := s.rd (if r.priv then privKey n off else off)
    let w := (s.viewOf n r off).foldl (fun w (f : FieldVal) => setBits w f.1 f.2.1 f.2.2) raw
    w &&& ~~~(woMask r.fields)

/-- Registers of the lowest words of the wide values of R7, with the number of words. -/
def wideRows : List (Nat × Nat) :=
  [Reg.serialLo, Reg.stwSlotBuildLo 0, Reg.stwYokeClassLo, Reg.lnfSheafLo, Reg.lnfMarkLo, Reg.lnfGrpRxSheafLo 0, Reg.rixSwapSheafLo,
   Reg.clsCountLo 0, Reg.clsDigestLo 0, Reg.schCountLo 0, Reg.schGateBaseLo 0, Reg.mgdFailAddrLo, Reg.mgdCountLo 0, Reg.ascCountLo 0,
   Reg.cphCountLo 0, Reg.kvtCmdUsageLo, Reg.kvtCmdFpLo, Reg.kvtCountLo 0, Reg.yokCountLo 0, Reg.timCountLo 0, Reg.hdgHcountLo,
   Reg.hifRingBaseLo 0, Reg.hifCountLo 0, Reg.logHostLo, Reg.pmcDumpBaseLo, Reg.pmcStreamBaseLo 0, Reg.pmcFuCountLo 0,
   Reg.pmcFuBytesLo 0, Reg.pmcEvcLo 0].map (fun b => (b, 2)) ++
  [(Reg.timChT 0 0, 4), (Reg.timChArg 0 0, 4)]

/-- The words of the wide value whose lowest word stands at an offset; 0 for no such offset. -/
def wideAt (off : Nat) : Nat :=
  match regRowAt off with
  | none => 0
  | some r =>
    match wideRows.find? (fun x => x.1 == r.base) with
    | some (b, k) => if k = 4 ∧ (off - b) % 0x40 ≠ 0 then 0 else k
    | none => 0

/-- The register holds a higher word of a wide value. -/
def isHighWord (off : Nat) : Bool := (List.range 3).any (fun k => decide (4 * (k + 1) ≤ off) && decide (k + 1 < wideAt (off - 4 * (k + 1))))

/-- The access path as R7 counts shadow copies: the Device Window and window 0, each other window, the I3C bus. -/
def shadowPath (p : Path) : Nat := match p with | .i3c => 64 | _ => p.allot

/-- The key of a shadow copy. -/
def shadowKey (p : Path) (off : Nat) : Nat := shadowPath p * 2 ^ 32 + off

/-- The register read through a path: its value, and the state with shadows latched (R7) and RC fields cleared (R8). -/
def State.readAt (s : State) (p : Path) (off : Nat) : Word × State :=
  if isHighWord off then (SMap.get zeroWord s.shadow (shadowKey p off), s)
  else
    let n := p.allot
    let v := s.readReg n off
    let latch := fun (m : SMap Word) (k : Nat) =>
      SMap.set zeroWord m (shadowKey p (off + 4 * (k + 1))) (s.readReg n (off + 4 * (k + 1)))
    let s := { s with shadow := (List.range (wideAt off - 1)).foldl latch s.shadow }
    match regRowAt off with
    | none => (v, s)
    | some r => (v, if rcMask r.fields = 0 then s else
        let k := if r.priv then privKey n off else off
        s.wr k (s.rd k &&& ~~~(rcMask r.fields)))

/-- The register that an offset names through a path: a Device Window offset, or through an allotment window the register
with a private copy in that slice (R510, R511). -/
def resolveOff (p : Path) (off : Nat) : Option Nat :=
  match p with
  | .window _ =>
    if 0x10000 ≤ off then none
    else
      let at_ := fun (k : Nat) => off / 0x1000 * 0x100000 + k * 0x1000 + off % 0x1000
      (([0, 1].map at_).find? (fun o => match regRowAt o with | some r => r.priv | none => false))
  | _ => some off

/-- The blocks a read reaches through a path: those that respond, for an allotment that exists (R511, R570). -/
def State.readable (s : State) (p : Path) (off : Nat) : Bool :=
  s.unitResponds (off / 0x100000) &&
  (match p with
   | .window n => n.val == 0 || (s.allotExists n.val && s.ctl.mode != Mode.zeroized)
   | _ => true)

/-- A read through the Device Window or an allotment window answers; it reads 0 where nothing responds or is defined. -/
def State.hostRead (s : State) (p : Path) (off : Nat) : State :=
  match resolveOff p off with
  | none => s.emit (.readValue 0)
  | some o =>
    if s.readable p o = false then s.emit (.readValue 0)
    else
      let (v, s) := s.readAt p o
      s.emit (.readValue v)

/-! ## Writing -/

/-- A write of the MSI-X table (R510, R527): a pending vector whose mask bit is cleared fires. -/
def State.msixWrite (s : State) (w : Nat) (val : Word) : State :=
  let s := { s with hif := { s.hif with msix := SMap.set msixDefault s.hif.msix w val.toNat } }
  let v := w / 4
  if w % 4 = 3 ∧ bit val 0 = false ∧ s.hif.pba.contains v then
    ({ s with hif := { s.hif with pba := s.hif.pba.filter (· != v) } }).emit (.msix v)
  else s

/-- The write i of a register through a path: it reaches the register the offset names there, in the path's copy where there
are copies (R510 to R512); an undefined offset ignores it (R6). -/
def State.writeReg (s : State) (i : Instr) (p : Path) (off : Nat) (val : Word) : State :=
  match resolveOff p off with
  | none => s
  | some o =>
    let x := o % 0x100000
    match regRowAt o with
    | none =>
      s.hostWrite p o val (fun s => if o / 0x100000 = 2 ∧ 0x8000 ≤ x ∧ x < 0x10000 then s.msixWrite ((x - 0x8000) / 4) val else s)
    | some r =>
      if r.priv then s.privWrite i p o (o / 0x100000 != 2 && o / 0x100000 != 9) (fun n s => s.regEffect n o val)
      else s.hostWrite p o val (fun s => s.regEffect 0 o val)

end Sys2Proof.Machine
end

