-- ==== Sys2Proof/Machine/HostOps.lean ====
section
/-! DEFINITION. What the commands of the host interface share: the steps of allotment reset and freeze (R528 to R531), ring
commands (R518 to R520), migration blobs (R532 to R535), the management bus (R536 to R538). -/

namespace Sys2Proof.Machine

open Sys2Proof

/-- What the PCIe function says of itself (R507): identity, BAR sizes in bytes, MSI-X vectors, PASID bits, and the serial number
of its Device Serial Number capability. -/
structure PcieIdentity where
  vendor : Nat
  device : Nat
  classCode : Nat
  bar0 : Nat
  bar2 : Nat
  vectors : Nat
  pasidBits : Nat
  serial : BitVec 64
  deriving DecidableEq, Repr

/-- The module's one PCIe function (R507). -/
def pcieIdentity : PcieIdentity := ⟨0x5AE1, 0x3216, 0x108000, 0x2000000, 0x400000, 2048, 20, Config.serial⟩

/-- A write of an ARM register: the magic value arms the unit's next command (R571). -/
def State.armWrite (s : State) (p : Path) (off : Nat) (val : Word) (magic : Nat) : State :=
  s.hostWrite p off val (fun s =>
    if val.toNat = magic then { s with armed := off / 0x100000 :: s.armed.filter (· != off / 0x100000) } else s)

/-! ## Doorbells (R515) -/

/-- The new host index of a ring is one that R515 accepts: a producer neither behind its previous value nor more than 2^S − 1
ahead, a consumer neither behind its previous value nor past the producer. -/
def State.doorbellOk (s : State) (n r idx : Nat) : Bool :=
  let m := s.ringM n r % 65536
  let h := s.ringH n r
  if r ≤ 10 then
    let out := (idx + 65536 - m) % 65536
    decide (out ≤ 2 ^ s.ringLog2 n r - 1) && decide ((h + 65536 - m) % 65536 ≤ out)
  else decide ((m + 65536 - idx) % 65536 ≤ (m + 65536 - h) % 65536)

/-- The ring is disabled with RING_ERROR. -/
def State.ringError (s : State) (n r : Nat) : State :=
  ((s.setFlg (privKey n (Reg.hifRingCfg r)) 31 false).allotRuns n).noteFor Ev.ringError n (beBytes 1 r)

/-- A doorbell of allotment n. -/
def State.ringBell (s : State) (n r idx : Nat) : State :=
  if 13 ≤ r ∨ s.ringExists r = false ∨ s.ringOn n r = false then s
  else if s.doorbellOk n r idx then
    ({ s with hif := { s.hif with ringHost := SMap.set zeroOf s.hif.ringHost (n * 16 + r) idx } }).inc (Reg.hifCountLo 0)
  else s.ringError n r

/-! ## Allotment reset and freeze (R528, R529, R531) -/

/-- The allotment's state changes under a reset or for migration: its vector 2 fires (R526). -/
def State.setAllot (s : State) (n : Nat) (st : AllotState) : State :=
  if s.allotState n = st then s
  else ({ s with hif := { s.hif with allots := s.hif.allots.set n st } }).fire (32 * n + 2)

/-- A job of allotment n. -/
def Job.of (j : Job) (n : Nat) : Bool := j.allot == n

/-- Ended jobs of every ring of n complete. -/
def State.flushAllot (s : State) (n : Nat) : State :=
  (List.range 9).foldl (fun s r => s.flushRing n r (s.cph.jobs.length + 1)) s

/-- Step A2: fetched descriptors that have not started complete with NOT_STARTED. -/
def State.dropWaiting (s : State) (n : Nat) : State :=
  let stop := fun (e : Nat × Option Job) =>
    (e.1, e.2.map (fun (j : Job) => if j.of n && j.item.isNone && j.fin.isNone then { j with fin := some (10, 0) } else j))
  (({ s with cph := { s.cph with jobs := s.cph.jobs.map stop } }).dropInjected n).flushAllot n

/-- Step A3 in squash mode: started jobs end under R374; a command before its commit point completes with NOT_STARTED. -/
def State.squashAllot (s : State) (n : Nat) : State :=
  let s := s.squashItems (fun _ i => match i.kind with
    | .job k => (match s.job k with | some j => j.of n | none => false)
    | _ => false) 9
  let s := s.flushAllot n
  if s.kvt.runs.any (fun r => r.unit == 10 && r.win == n && r.waits == 0 && r.code == 15) then (s.endRun 10 n).kvtEnd n 12 else s

/-- Nothing that allotment n started still runs. -/
def State.drained (s : State) (n : Nat) : Bool :=
  s.cph.jobs.all (fun e => match e.2 with | some j => !j.of n | none => true) &&
  s.hif.ringCmds.all (fun c => c.allot != n) && s.kvt.runs.all (fun r => r.win != n) &&
  s.sch.frames.all (fun e => match e.2.bind (·.inject) with | some i => i.allot != n | none => true)

/-- Step A4: the slots that n owns are erased through Fallow, and the clearing of their sealed records is queued. -/
def State.eraseOwned (s : State) (n : Nat) : State :=
  s.kvt.slots.foldl (fun (s : State) e => if s.slotOwner e.1 = n ∧ s.slotUsable e.1 then (s.eraseSlot e.1 .nobody).1 else s) s

/-- Steps A4 and A5 begin. -/
def State.beginErase (s : State) (n : Nat) : State :=
  let s := s.eraseOwned n
  let s := if (s.queueDomain n).isSome then s.startWindowInit n else s
  { s with hif := { s.hif with resets := s.hif.resets.map (fun r => if r.allot = n then { r with erased := true } else r) } }

/-- Steps A6 and A7. -/
def State.endReset (s : State) (r : AllotReset) : State :=
  let n := r.allot
  let code := if r.late then 5 else 0
  let s := { s with hif := { s.hif with resets := s.hif.resets.filter (fun x => x.allot != n)
                                        cmd := if r.byCommand then none else s.hif.cmd } }
  let s := ((s.clearRings n).setAllot n .idle).result Reg.hifAllotResult code
  (s.noteFor Ev.allotResetDone n (beBytes 1 n ++ beBytes 1 code)).fire 2

/-- A reset of allotment n goes on as far as it can. -/
def State.stepReset (s : State) (n : Nat) : State :=
  match s.hif.resets.find? (fun r => r.allot == n) with
  | none => s
  | some r =>
    if r.erased = false ∧ s.drained n = false then s
    else
      let s := if r.erased then s else s.beginErase n
      if s.mgd.winInit.contains n then s else s.endReset r

/-- FREEZE of allotment n is complete, with a CODE. -/
def State.endFreeze (s : State) (n code : Nat) : State :=
  let s := ({ s with hif := { s.hif with cmd := none } }).setAllot n .frozen
  (s.result Reg.hifAllotResult code).noteFor Ev.allotFrozen n

/-- A freeze of allotment n is complete once it has drained. -/
def State.stepFreeze (s : State) (n : Nat) : State :=
  if s.allotState n = .freezing ∧ s.drained n then s.endFreeze n 0 else s

/-- Every reset and freeze in progress goes on. -/
def State.stepAllots (s : State) : State :=
  (List.range 64).foldl (fun s n => (s.stepReset n).stepFreeze n) s

/-- The window whose command, held while its allotment is frozen, a command is. -/
def heldWindow : Instr → Option Nat
  | .ctxRead p | .ctxCreate p _ | .ctxWrite p | .ctxDelete p | .ascRotate p | .ascFlip p _ | .ascCmdUnknown p _ => some p.allot
  | .clsSearch p | .searchNext p | .clsInsert p _ _ | .clsDelete p | .flushByPort p _ _ | .digestSnap p | .clsCmdUnknown p _ => some p.allot
  | .schTblRead p _ | .schTblWrite p _ | .schTblUnknown p _ _ => some p.allot
  | .channelSet p _ | .channelStep p _ | .channelSlew p _ | .channelStop p _ | .timCmdUnknown p _ _ => some p.allot
  | .kvtLoad p | .importKw p | .kvtGenerate p | .kvtDerive p | .kvtErase p | .readAttr p | .kvtGrant p | .provOpen p => some p.allot
  | .registerWrite p _ _ _ => some p.allot
  | _ => none

/-- A reset of allotment n begins (step A1): commands that a freeze held are ignored like every window write. -/
def State.beginReset (s : State) (n : Nat) (squash byCmd : Bool) : State :=
  let s := s.setAllot n .resetting
  let s := { s with
    held := s.held.filter (fun i => heldWindow i != some n)
    hif := { s.hif with
      resets := s.hif.resets ++ [AllotReset.mk n squash false false byCmd s.now]
      cmd := if byCmd then some (if squash then 2 else 1, n) else s.hif.cmd } }
  let s := s.dropWaiting n
  (if squash then s.squashAllot n else s).stepReset n

/-- FREEZE of allotment n begins. -/
def State.beginFreeze (s : State) (n : Nat) : State :=
  let s := s.setAllot n .freezing
  (({ s with hif := { s.hif with cmd := some (3, n), freezeAt := s.now } }).dropWaiting n).stepFreeze n

/-- THAW of allotment n. -/
def State.thawAllot (s : State) (n : Nat) : State :=
  let on := (List.range 13).any (fun r => s.ringOn n r)
  ((s.setAllot n (if on then .running else .idle)).result Reg.hifAllotResult 0).noteFor Ev.allotThawed n

/-- The allotment command OP on allotment n: busy, unknown OP, absent or 0, yoke mode, wrong STATE, in this order. -/
def State.allotCmd (s : State) (op n : Nat) (act : State → State) : State :=
  let refuse := fun (code : Nat) => s.result Reg.hifAllotResult code
  let st := s.allotState n
  if s.hif.cmd.isSome then refuse 1
  else if op = 0 ∨ 4 < op then refuse 6
  else if n = 0 ∨ s.allotExists n = false then refuse 2
  else if 3 ≤ op ∧ s.ctl.mode.isYoke then refuse 4
  else if op = 4 then (if st = .frozen then act s else refuse 3)
  else if st = .idle ∨ st = .running ∨ (op ≤ 2 ∧ st = .frozen) then act s
  else refuse 3

/-- A write of HIF_ALLOT_CMD. -/
def State.allotWrite (s : State) (p : Path) (op n : Nat) (act : State → State) : State :=
  s.hostWrite p Reg.hifAllotCmd (BitVec.ofNat 32 (n * 65536 + op)) (fun s => s.allotCmd op n act)

/-! ## Ring commands (R518 to R520) -/

/-- A command descriptor (R518): UNIT, OP, TAG, parameter words, IN_LEN, OUT_MAX, OUT_ADDR. -/
structure CmdDesc where
  unit : Nat
  op : Nat
  tag : Nat
  w : List Word
  inLen : Nat
  outMax : Nat
  outAddr : Nat
  deriving DecidableEq, Repr

def CmdDesc.of (b : List Byte) : CmdDesc :=
  { unit := leAt b 0 1, op := leAt b 1 1, tag := leAt b 4 4, w := (List.range 8).map (fun i => BitVec.ofNat 32 (leAt b (8 + 4 * i) 4))
    inLen := leAt b 48 4, outMax := leAt b 52 4, outAddr := leAt b 56 8 }

/-- Parameter word i. -/
def CmdDesc.word (d : CmdDesc) (i : Nat) : Word := d.w.getD i 0

/-- The OP is served on rings: the values of the unit's OP field but 0, and KVT only to 7 (R519). -/
def ringServes (unit op : Nat) : Bool :=
  decide (1 ≤ op) && (match unit with
    | 5 => decide (op ≤ 15)
    | 6 => decide (op ≤ 3)
    | 8 => decide (op ≤ 15)
    | 10 => decide (op ≤ 7) || (decide (19 ≤ op) && decide (op ≤ 31))
    | 12 => decide (op ≤ 7)
    | _ => false)

/-- Input bytes that a command needs, and output bytes that it returns. -/
def CmdDesc.needs (d : CmdDesc) : Nat × Nat :=
  match d.unit, d.op with
  | 5, 1 => (32, 36) | 5, 2 => (0, 36) | 5, 3 => (32, 36) | 5, 4 => (32, 36)
  | 6, 1 => (0, 16)
  | 8, 1 => (0, 512) | 8, 2 => (512, 0) | 8, 3 => (512, 0)
  | 10, 1 => (attrBytes (d.word 1), 0) | 10, 2 => (attrBytes (d.word 1) + 8, 0) | 10, 6 => (0, 20)
  | _, _ => (0, 0)

/-- Words of bytes written into k registers. -/
def State.putWords (s : State) (f : Nat → Nat) (k : Nat) (b : List Byte) : State :=
  (List.range k).foldl (fun s w => s.wr (f w) (BitVec.ofNat 32 (be32 b (4 * w)))) s

/-- The unit's command registers in n's window take the descriptor's words and input (R519). -/
def State.loadWindow (s : State) (n : Nat) (d : CmdDesc) (input : List Byte) : State :=
  let k := privKey n
  match d.unit with
  | 5 =>
    let s := (s.wr (k Reg.clsCmdIndex) (d.word 1)).wr (k Reg.clsCmdFilter) (d.word 2)
    if input = [] then s else s.putWords (fun w => k (Reg.clsCmdEntry w)) 8 input
  | 6 =>
    (List.range 4).foldl (fun s w => s.wr (k (Reg.schTblData w)) (d.word (2 + w))) (s.wr (k Reg.schTblIndex) (d.word 1))
  | 8 =>
    let s := s.setFld (k Reg.ascCmdAssoc) 15 0 (bits (d.word 1) 15 0)
    if input = [] then s else s.putAscData n input
  | 10 =>
    let s := ((s.wr (k Reg.kvtCmdSlot) (d.word 0)).wr (k Reg.kvtCmdAttr) (d.word 1)).wr (k Reg.kvtCmdArg) (d.word 2)
    s.putWords (fun w => k (Reg.kvtCmdData w)) 12 input
  | 12 =>
    let c := (d.word 0).toNat % 16
    (List.range 4).foldl (fun s w => s.wr (k (Reg.timChArg c w)) (d.word (1 + w))) s
  | _ => s

/-- OP is written: the unit's command runs in n's window. -/
def State.ringRun (s : State) (n : Nat) (d : CmdDesc) : State :=
  match d.unit with
  | 5 => s.clsRun n d.op (d.word 0)
  | 6 => s.schRun n ((d.word 0).toNat % 4) d.op
  | 8 => s.ascRun n d.op ((d.word 0).toNat % 16)
  | 10 => s.kvtRun n d.op
  | 12 => s.timRun n ((d.word 0).toNat % 16) d.op
  | _ => s

/-- The unit's CODE for a busy engine of window n, if it is busy. -/
def State.ringBusy (s : State) (n unit : Nat) : Option Nat :=
  match unit with
  | 5 => if s.clsBusy n then some 7 else none
  | 8 => if s.unitBusy 8 n then some 1 else none
  | 10 => if s.unitBusy 10 n then some 1 else none
  | _ => none

/-- A DMA request of allotment n fails (R508). -/
def State.dmaError (s : State) (n : Nat) : State := (s.inc (Reg.hifCountLo 5)).noteFor Ev.hifDmaError n

/-- The fetched command descriptor of ring 0 runs. A busy engine refuses it as it refuses the register write (R519, R572), and the
arm clears all the same (R571). -/
def State.runDescriptor (s : State) (n idx : Nat) (d : CmdDesc) (input : List Byte) (fetched written : Bool) : State :=
  let fin := fun (s : State) (code : Nat) => s.complete n d.tag code d.unit 0 0 idx 0
  if ([5, 6, 8, 10, 12].contains d.unit) = false ∨ s.unitResponds d.unit = false then fin s (if d.unit = 2 then 0xF1 else 0xF0)
  else if ringServes d.unit d.op = false then fin s 0xF1
  else if d.inLen < d.needs.1 ∨ d.outMax < d.needs.2 then fin s 0xF3
  else if 0 < d.inLen ∧ fetched = false then fin (s.dmaError n) 0xF2
  else
    match s.ringBusy n d.unit with
    | some code => fin (((s.loadWindow n d (input.take d.inLen)).ringRun n d).disarm d.unit) code
    | none =>
      let c : RingCmd := ⟨n, d.unit, d.op, idx, d.tag, d.outAddr, d.outMax, written⟩
      let s := s.loadWindow n d (input.take d.inLen)
      (({ s with hif := { s.hif with ringCmds := s.hif.ringCmds ++ [c] } }).ringRun n d).disarm d.unit

/-- Ring commands of n may start: a descriptor can be fetched, none runs, and no Recovery holds them (R111, R517, R520). -/
def State.ringReady (s : State) (n : Nat) : Bool :=
  s.mayFetch n 0 && s.hif.ringCmds.all (fun c => c.allot != n) && s.ctl.mode != Mode.recovery

/-! ## Injection (R522, R523) -/

/-- An inject descriptor. -/
structure InjDesc where
  tag : Nat
  output : Nat
  cls : Nat
  launch : Bool
  oneStep : Bool
  twoStep : Bool
  len : Nat
  launchAt : Nat
  deriving DecidableEq, Repr

def InjDesc.of (b : List Byte) : InjDesc :=
  let f := leAt b 7 1
  { tag := leAt b 0 4, output := leAt b 4 2, cls := leAt b 6 1, launch := f.testBit 7, oneStep := f.testBit 6, twoStep := f.testBit 5
    len := leAt b 8 2, launchAt := leAt b 12 4 }

/-- The descriptor b satisfies R522 and R523. -/
def State.injValid (s : State) (b : List Byte) : Bool :=
  let d := InjDesc.of b
  decide (d.output < 544) && decide (d.cls < 8) && leAt b 7 1 % 32 == 0 && leAt b 10 2 == 0 && leAt b 24 8 == 0 &&
  decide (64 ≤ d.len) && decide (d.len ≤ 9216) && !(d.oneStep && d.twoStep) && (!d.launch || s.isLaunch (8 * d.output + d.cls))

/-- Allotment n may inject on output o. -/
def State.mayInject (s : State) (n o : Nat) : Bool :=
  n == 0 || (decide (o < 16) && s.portOwner o == n) || s.fld (Reg.ascInputCfg o) 27 22 == n

/-- An injected frame of bytes b, FCS included, on output o in class c. -/
def State.injFrame (s : State) (b : List Byte) (o c : Nat) (launch : Option Nat) (inj : Option Inject) : Frame :=
  { newFrame s b 544 true 0xFFFF o c true with whole := true, launch := launch, inject := inj }

/-! ## Migration (R531 to R535) -/

/-- The MAC key of a blob: the PRF of R381 keyed by the wrap slot. -/
def migKey (wrap : List Byte) (allot : Nat) : List Byte := Config.kdf wrap (ascii "LM3216 MIGR") (beBytes 4 allot) 256

/-- The vault slot that a slot code names as a wrap slot: owned by allotment 0, with KEY_WRAP, usable (R411, R532). -/
def State.wrapSlot (s : State) (w : Nat) : Option Nat :=
  match slotOfWord w with
  | some c => if vaultBase ≤ c ∧ s.slotOwner c = 0 ∧ s.useSlot 0 (c - vaultBase) 10 = 0 then some c else none
  | none => none

/-- Associations that allotment n owns, ascending. -/
def State.assocsOf (s : State) (n : Nat) : List (Nat × Ctx) :=
  s.asc.ctxs.filterMap (fun e => match e.2 with | some c => if c.owner = n then some (e.1, c) else none | none => none)

/-- Slots with MIGRATABLE 1 that allotment n owns. -/
def State.migSlots (s : State) (n : Nat) : List (Nat × KeySlot) :=
  s.kvt.slots.filterMap (fun e => match e.2 with
    | some k => if k.usable && attrMigratable k.attr && s.slotOwner e.1 == n then some (e.1, k) else none
    | none => none)

/-- ALT entries that allotment n owns. -/
def State.altOf (s : State) (n : Nat) : List AltEntry :=
  s.cls.alt.filterMap (fun e => match e.2 with | some x => if x.owner = n then some x else none | none => none)

/-- The four sections of a blob. -/
def State.migAssoc (s : State) (e : Nat × Ctx) : List Byte := beBytes 2 e.1 ++ zeroBytes 14 ++ s.ctxBytes e.2
def State.migSlot (s : State) (wrap : Nat) (e : Nat × KeySlot) : List Byte :=
  beBytes 4 (slotWord e.1) ++ zeroBytes 4 ++
  slice (Config.kwpWrap (s.keyOf wrap) (slice (s.keyOf e.1) 0 32 ++ beBytes 4 e.2.attr.toNat)) 0 48
def State.migQueue (s : State) (a : Nat) : List Byte :=
  let q := s.aqWords a
  let p := s.polWords a
  beBytes 2 a ++ zeroBytes 2 ++ [q.w0, q.w1, q.w2, p.w0, p.w1].flatMap (fun w => beBytes 4 w.toNat)

/-- The blob of R532 for allotment n under wrap slot wrap, with its four counts. -/
def State.migBlob (s : State) (n wrap m : Nat) : List Byte × List Nat :=
  let as := s.assocsOf n
  let ks := s.migSlots n
  let es := s.altOf n
  let counts := [as.length, ks.length, es.length, as.length]
  let head := ascii "SLMB" ++ beBytes 2 1 ++ beBytes 1 n ++ beBytes 1 m ++ beBytes 8 Config.serial.toNat ++
    counts.flatMap (fun c => beBytes 4 c) ++ beBytes 6 (s.fpOf wrap) ++ zeroBytes 26
  let body := head ++ as.flatMap s.migAssoc ++ ks.flatMap (s.migSlot wrap) ++ es.flatMap AltEntry.bytes ++ as.flatMap (fun e => s.migQueue e.1)
  (body ++ slice (Config.cmac (migKey (s.keyOf wrap) n) body) 0 16, counts)

/-- The transmit SA of every association of n is capped at N + 2^M − 1 (R533). -/
def State.capAssocs (s : State) (n m : Nat) : State :=
  (s.assocsOf n).foldl (fun s e => s.modCtx e.1 (fun c => { c with cap := some (c.txNext + 2 ^ m - 1) })) s

/-- k records of size w from offset o. -/
def recordsAt (b : List Byte) (o w k : Nat) : List (List Byte) := (List.range k).map (fun i => slice b (o + w * i) w)

/-- A blob taken apart. -/
structure MigBlob where
  allot : Nat
  m : Nat
  wrapFp : Nat
  assocs : List (List Byte)
  slots : List (List Byte)
  alts : List (List Byte)
  queues : List (List Byte)
  deriving DecidableEq, Repr

/-- The blob, if its FORMAT and its lengths are right. -/
def MigBlob.of (b : List Byte) : Option MigBlob :=
  let n := fun o => ofBe (slice b o 4)
  let o1 := 64 + 528 * n 16
  let o2 := o1 + 56 * n 20
  let o3 := o2 + 32 * n 24
  if slice b 0 4 ≠ ascii "SLMB" ∨ ofBe (slice b 4 2) ≠ 1 ∨ b.length ≠ o3 + 24 * n 28 + 16 then none
  else some {
    allot := ofBe (slice b 6 1), m := ofBe (slice b 7 1), wrapFp := ofBe (slice b 32 6)
    assocs := recordsAt b 64 528 (n 16), slots := recordsAt b o1 56 (n 20), alts := recordsAt b o2 32 (n 24)
    queues := recordsAt b o3 24 (n 28) }

/-- A slot record opened with the wrap key: slot code, key and ATTR. -/
def openSlot (wrap : List Byte) (r : List Byte) : Option (Nat × List Byte × Word) :=
  match slotOfWord (ofBe (slice r 0 4)), Config.kwpUnwrap wrap (slice r 8 48) with
  | some c, some p => some (c, slice p 0 32, BitVec.ofNat 32 (ofBe (slice p 32 4)))
  | _, _ => none

/-- The context of an association record, as CREATE would make it, for owner n. -/
def migCtx (r : List Byte) (n : Nat) : Nat × Ctx :=
  let b := slice r 16 512
  let st := ofBe (slice b 208 4)
  (ofBe (slice r 0 2), { Ctx.create b (st / 2 ^ 28 % 2) with owner := n, rxPrimary := st / 2 ^ 27 % 2 })

/-- The SCI keys of a blob's contexts are free and find places; the state answered holds them. -/
def State.migSci (s : State) : List (Nat × Ctx) → Option State
  | [] => some s
  | (a, c) :: rest =>
    if c.kind = 1 then
      match s.sciInsert (c.sciKey a) with
      | (t, true) => State.migSci t rest
      | (_, false) => none
    else State.migSci s rest

/-- What RESTORE is refused with (R534); 0 if it commits. Lengths and wrap slot come first, since the TAG is checked with
them. -/
def State.migCode (s : State) (n : Nat) (b : List Byte) (x : MigBlob) (wrap : Nat) : Nat :=
  let key := s.keyOf wrap
  let tag := slice (Config.cmac (migKey key x.allot) (b.take (b.length - 16))) 0 16
  let cs := x.assocs.map (fun r => migCtx r n)
  let ids := cs.map (·.1)
  let slotFor := fun (c : Nat) (w : Word) => if c < vaultBase then ids.contains (c / 2) else attrOwner w == x.allot
  let ks := x.slots.map (openSlot key)
  let altOk := fun (r : List Byte) =>
    let e : AltEntry := { AltEntry.ofBytes r with owner := n }
    ids.contains e.assoc && (!e.portValid || s.portOwner e.port == n) && (decide (16 ≤ e.output) || s.portOwner e.output == n)
  if x.wrapFp ≠ s.fpOf wrap ∨ tag ≠ b.drop (b.length - 16) ∨ ks.any (·.isNone) then 2
  else if ids.any (fun a => (s.ctx a).isSome) then 3
  else if cs.any (fun e => !s.ctxReaches n e.2) ∨ (x.alts.all altOk) = false ∨
      ks.any (fun k => match k with | some (c, _, w) => !slotFor c w | none => false) ∨
      x.queues.any (fun r => !ids.contains (ofBe (slice r 0 2))) then 4
  else if (s.migSci cs).isNone then 6
  else 0

/-- Steps 1 to 5 of R535 for one association: context, slots, reservation record, the SAs; counters return last. -/
def State.restoreAssoc (s : State) (m : Nat) (r : List Byte) (c : Ctx) (a : Nat) (ks : List (Nat × List Byte × Word)) : State :=
  let b := slice r 16 512
  let n := fun o w => ofBe (slice b o w)
  let st := n 208 4
  let s := (s.setCtx a (some c)).commitCtx a
  let s := ks.foldl (fun (s : State) k =>
    let s := (s.installKey k.1 k.2.1 k.2.2).kvtCount 0
    (s.sealSlot k.1 (slice k.2.1 0 (attrBytes k.2.2)) k.2.2 .nobody).1) s
  let fresh := if c.rxPrimary = 0 then st.testBit 26 else st.testBit 25
  let p : PnRec := ⟨s.fpOf (slotOf a c.txSlot), n 128 8 + 2 ^ m, s.fpOf (slotOf a c.rxPrimary), n 160 8, c.txSlot == 1, c.rxPrimary == 1, fresh⟩
  let (s, ok) := s.storePn a p .nobody
  let s := if ok then s.rebuild a else s.modCtx a (fun c => { c with txWait := true, dead0 := true, dead1 := true })
  s.modCtx a (fun c => { c with counters := (List.range 16).map (fun i => n (256 + 8 * i) 8) })

/-- Step 6: a queue record. -/
def State.restoreQueue (s : State) (r : List Byte) : State :=
  let a := ofBe (slice r 0 2)
  let w := fun k => BitVec.ofNat 32 (ofBe (slice r (4 + 4 * k) 4))
  (s.tblWrite 0 a [w 0, w 1, w 2]).tblWrite 1 a [w 3, w 4]

/-- Step 7: ALT entries are inserted with NO_EVICT; the number that found no place is counted. -/
def State.restoreAlts (s : State) (n : Nat) : List (List Byte) → Nat × State
  | [] => (0, s)
  | r :: rest =>
    let e : AltEntry := { AltEntry.ofBytes r with owner := n }
    let (placed, s) := if (s.altFind e.toKey).isSome then (false, s) else
      let (t, d) := s.place e true false
      (d.code == 0, t)
    let (k, s) := State.restoreAlts s n rest
    ((if placed then k else k + 1), s)

/-- RESTORE applies a validated blob to allotment n (R535); the number of ALT entries without a place. -/
def State.applyBlob (s : State) (n wrap : Nat) (x : MigBlob) : Nat × State :=
  let cs := x.assocs.map (fun r => (r, migCtx r n))
  let key := s.keyOf wrap
  let ks := x.slots.filterMap (openSlot key)
  let s := (s.migSci (cs.map (·.2))).getD s
  let s := cs.foldl (fun (s : State) e =>
    s.restoreAssoc x.m e.1 e.2.2 e.2.1 (ks.filter (fun k => decide (k.1 < vaultBase) && k.1 / 2 == e.2.1))) s
  let s := (ks.filter (fun k => decide (vaultBase ≤ k.1))).foldl (fun (s : State) k =>
    (s.installKey k.1 k.2.1 (setBits k.2.2 27 22 n)).kvtCount 0) s
  let s := x.queues.foldl State.restoreQueue s
  let (left, s) := s.restoreAlts n x.alts
  (left, s.note Ev.migRestored)

/-! ## The management bus (R536 to R538) -/

/-- The bus is served: main power is present. -/
def State.i3cServes (s : State) : Bool := s.ctl.mode != Mode.sentry && s.ctl.mode != Mode.powerRise

/-- The static address. -/
def State.staticAddr (s : State) : Nat := 0x58 + flag s.pow.yokePos

/-- A command that a target with a dynamic address serves; without one it is not acknowledged (R537). -/
def State.i3cServe (s : State) (act : State → State) : State :=
  if s.i3cServes && s.hif.dynAddr.isSome then act (s.inc (Reg.hifCountLo 7)) else s.emit .i3cNack

/-- Bytes returned on the bus. -/
def State.i3cAnswer (s : State) (b : List Byte) : State := s.emit (.i3c b)

/-- The Provisional ID (R536). -/
def State.provisionalId (s : State) : Nat :=
  0x2D61 * 2 ^ 33 + 0x3216 * 2 ^ 16 + flag s.pow.yokePos * 2 ^ 12 + Config.serial.toNat % 4096

/-- Registers that private transactions at the static address read. -/
def staticRegs : List Nat :=
  [Reg.vendorPart, Reg.serialLo, Reg.serialHi, Reg.stwMode, Reg.stwBootStatus, Reg.stwFeedStatus, Reg.stwTemp, Reg.hdgStatus]

/-- Whether a private transaction to an address is served: with the dynamic address held, or at the static one without. -/
def State.i3cHits (s : State) (addr : Nat) : Bool :=
  s.i3cServes && (match s.hif.dynAddr with | some a => a == addr | none => addr == s.staticAddr)

/-- A READ32 of an offset reaches its register. -/
def State.i3cReads (s : State) (off : Nat) : Bool :=
  off % 4 == 0 && (match s.hif.dynAddr with
    | some _ => [0, 1, 13, 14, 15].contains (off / 0x100000)
    | none => staticRegs.contains off)

/-- A WRITE32 of an offset reaches its register. -/
def State.i3cWrites (s : State) (off : Nat) : Bool :=
  s.hif.dynAddr.isSome && off % 4 == 0 && [1, 13].contains (off / 0x100000)

/-- The effect of a command that an I3C write of a mode or image command register spells. -/
def State.i3cCommand (s : State) (off : Nat) (val : Word) : Option (Host.Outcome State Fault Refusal) :=
  let slot : Fin 16 := ⟨bits val 7 4 % 16, Nat.mod_lt _ (by decide)⟩
  let arg : Fin 4096 := ⟨bits val 19 8 % 4096, Nat.mod_lt _ (by decide)⟩
  let op : Fin 16 := ⟨bits val 3 0 % 16, Nat.mod_lt _ (by decide)⟩
  if off = Reg.stwModeCmd then
    some (match op.val with
      | 0 => execModeCmdUnknown .i3c 0 s | 1 => execGoService .i3c s | 2 => execGoYoke .i3c s | 3 => execModeStop .i3c s
      | 4 => execSelfTest .i3c (BitVec.ofNat 8 (bits val 15 8)) s | 5 => execUnyoke .i3c s | 6 => execModuleReset .i3c s
      | 7 => execClearDegrade .i3c s | _ => execModeCmdUnknown .i3c op s)
  else if off = Reg.stwImageCmd then
    some (match op.val with
      | 0 => execImageCmdUnknown .i3c 0 s | 1 => execWriteOpen .i3c slot s | 2 => execWriteChunk .i3c slot arg s
      | 3 => let (k, s) := s.draw; execWriteClose .i3c slot (Config.freeBool k) s
      | 4 => execActivate .i3c slot s | 5 => execConfirm .i3c s | 6 => execRevert .i3c s | 7 => execReboot .i3c s
      | 8 => execCopyGolden .i3c slot s | 9 => execImageErase .i3c slot s | 10 => execRaiseFloor .i3c arg s
      | 11 => execRevokeAuth .i3c arg s | 12 => execSetTrialMax .i3c arg s | _ => execImageCmdUnknown .i3c op s)
  else if off = Reg.stwImageArm then some (.next (s.armWrite .i3c off val 0x464C4F52))
  else none

end Sys2Proof.Machine
end

