-- ==== Sys2Proof/Machine/Host.lean ====
section
/-! DEFINITION. The commands of the host interface: rings, allotment commands, migration, the PCIe link and the I3C management
bus (chapter 16). -/

namespace Sys2Proof.Machine

open Sys2Proof

/-! ## Rings (R515 to R527) -/

/-- DOORBELL (R515): a ring takes its new host index. -/
def execDoorbell (path : Path) (ring : Fin 16) (index : BitVec 16) (s : State) : Host.Outcome State Fault Refusal :=
  .next (s.privWrite (.doorbell path ring index) path Reg.hifDoorbell false (fun n s => s.ringBell n ring.val index.toNat))

/-- COMMAND_DESCRIPTOR (R517 to R520): the next descriptor of the command ring is fetched and runs as a command of the unit it
names. On the ring of allotment 0 a descriptor for the HIF is another row's. -/
def execCommandDescriptor (allot : Fin 64) (desc input : List Byte) (fetched written : Bool) (s : State) :
    Host.Outcome State Fault Refusal :=
  let n := allot.val
  let d := CmdDesc.of desc
  if s.ringReady n = false ∨ (d.unit = 2 ∧ n = 0) then .next s
  else
    let (idx, s) := s.fetchNext n 0
    .next ((s.inc (Reg.hifCountLo 1)).runDescriptor n idx d input fetched written)

/-- An inject descriptor that is valid, permitted and fetched: the frame arrives for its direct FIFO, and a lead conveys it
(R431). -/
def State.injectFrame (s : State) (n idx : Nat) (d : InjDesc) (frame : List Byte) : State :=
  let body := slice frame 0 (d.len - 4)
  let bytes := body ++ fcsOf body
  let launch := if d.launch then some d.launchAt else none
  let f := s.injFrame bytes d.output d.cls launch (some ⟨n, idx, d.tag, d.oneStep, d.twoStep⟩)
  let s := { s with sch := { s.sch with arrivals := s.sch.arrivals ++ [f] } }
  s.convey 0x0E (beBytes 2 d.output ++ beBytes 2 d.len ++ beBytes 4 (launch.getD 0) ++ bytes)

/-- INJECT_DESCRIPTOR (R522, R523, R431): a host frame joins the direct FIFO of its class queue, or completes at once. -/
def execInjectDescriptor (allot : Fin 64) (desc frame : List Byte) (fetched : Bool) (s : State) : Host.Outcome State Fault Refusal :=
  let n := allot.val
  if s.mayFetch n 9 = false ∨ s.ctl.mode = .recovery then .next s
  else
    let (idx, s) := s.fetchNext n 9
    let s := s.inc (Reg.hifCountLo 1)
    let d := InjDesc.of desc
    let fin := fun (s : State) (code : Nat) => s.complete n d.tag code 0xFF 0 0 idx 9
    .next (
      if s.injValid desc = false then fin s 3
      else if s.mayInject n d.output = false ∨ s.isFollower = true then fin s 4
      else if fetched = false then fin (s.dmaError n) 7
      else s.injectFrame n idx d frame)

/-- PUNT_DELIVERY (R524): the next receive buffer is posted and takes the oldest waiting punt. -/
def execPuntDelivery (allot : Fin 64) (entry : List Byte) (s : State) : Host.Outcome State Fault Refusal :=
  let n := allot.val
  if s.hif.linkUp = false ∨ s.ringOn n 10 = false ∨ s.allotState n ≠ .running ∨ s.ringWaiting n 10 = 0 then .next s
  else
    let (idx, s) := s.fetchNext n 10
    let len := leAt entry 8 4
    if len < 256 ∨ 16384 < len ∨ len % 64 ≠ 0 then .next s
    else
      let bufs := SMap.get (fun _ => []) s.hif.bufs n ++ [(leAt entry 0 8, len, leAt entry 12 4, idx)]
      .next (({ s with hif := { s.hif with bufs := SMap.set (fun _ => []) s.hif.bufs n bufs } }).drainPunts n 256)

/-- IRQ_COALESCE_TIMER (R527): USEC has passed since the first unsignalled record of vector 0 or 1. -/
def execIrqCoalesceTimer (allot : Fin 64) (vector : Fin 2) (s : State) : Host.Outcome State Fault Refusal :=
  let k := allot.val * 2 + vector.val
  if SMap.get zeroOf s.hif.unsig k = 0 ∨
      s.now < SMap.get zeroOf s.hif.unsigAt k + s.fld (privKey allot.val Reg.hifIrqCfg) 9 0 * 1000 then .next s
  else .next (({ s with hif := { s.hif with unsig := SMap.set zeroOf s.hif.unsig k 0 } }).fire (32 * allot.val + vector.val))

/-! ## Allotment commands (R528 to R531) -/

/-- RESET_DRAIN (R528). -/
def execResetDrain (path : Path) (allot : Fin 64) (s : State) : Host.Outcome State Fault Refusal :=
  .next (s.allotWrite path 1 allot.val (fun s => s.beginReset allot.val false true))

/-- RESET_SQUASH (R528). -/
def execResetSquash (path : Path) (allot : Fin 64) (s : State) : Host.Outcome State Fault Refusal :=
  .next (s.allotWrite path 2 allot.val (fun s => s.beginReset allot.val true true))

/-- FREEZE of an allotment (R531). -/
def execAllotFreeze (path : Path) (allot : Fin 64) (s : State) : Host.Outcome State Fault Refusal :=
  .next (s.allotWrite path 3 allot.val (fun s => s.beginFreeze allot.val))

/-- THAW of an allotment (R531). -/
def execAllotThaw (path : Path) (allot : Fin 64) (s : State) : Host.Outcome State Fault Refusal :=
  .next (s.allotWrite path 4 allot.val (fun s => s.thawAllot allot.val))

/-- ALLOT_CMD_UNKNOWN: an OP that HIF_ALLOT_CMD does not define completes with CODE 6; OPs 1 to 4 are other rows'. -/
def execAllotCmdUnknown (path : Path) (op : Fin 16) (allot : Fin 64) (s : State) : Host.Outcome State Fault Refusal :=
  if 1 ≤ op.val ∧ op.val ≤ 4 then .next s
  else .next (s.allotWrite path op.val allot.val id)

/-- SELF_RESET (R528, HIF_ALLOT_STATE): an allotment resets itself through its window; window 0 ignores it. -/
def execSelfReset (path : Path) (squash : Bool) (s : State) : Host.Outcome State Fault Refusal :=
  .next (s.privWrite (.selfReset path squash) path Reg.hifAllotState false (fun n s =>
    let st := s.allotState n
    if n ≠ 0 ∧ (st = .idle ∨ st = .running ∨ st = .frozen) then s.beginReset n squash false else s))

/-- LIMIT_MS has passed since a drain began. -/
def State.drainOver (s : State) (since : Nat) : Bool := decide (since + clamp 1 1000 (s.fld Reg.hifDrainCfg 15 0) * 1000000 ≤ s.now)

/-- DRAIN_TIMEOUT (R529): a drain has not ended within LIMIT_MS, so it goes on as a squash and ends with CODE 5. -/
def execDrainTimeout (allot : Fin 64) (s : State) : Host.Outcome State Fault Refusal :=
  let n := allot.val
  let late := fun (s : State) => (s.noteFor Ev.drainTimeout n).squashAllot n
  if s.hif.resets.any (fun r => r.allot == n && !r.squash && !r.erased && s.drainOver r.since) then
    let s := { s with hif := { s.hif with resets := s.hif.resets.map (fun r => if r.allot = n then { r with squash := true, late := true } else r) } }
    .next ((late s).stepReset n)
  else if s.allotState n = .freezing ∧ s.drainOver s.hif.freezeAt then .next ((late s).endFreeze n 5)
  else .next s

/-! ## Migration (R532 to R535) -/

/-- What SAVE of allotment n with wrap slot code w, margin m and room is refused with; 0 if it goes on. -/
def State.saveCode (s : State) (n w m room : Nat) : Nat :=
  if s.ctl.mode.isYoke then 4
  else if n = 0 ∨ s.allotExists n = false then 2
  else if s.allotState n ≠ .frozen then 3
  else match s.wrapSlot w with
    | none => 5
    | some k => if m < 20 ∨ 40 < m then 9 else if room < (s.migBlob n k m).1.length then 0xF3 else 0

/-- MIG_SAVE (R532, R533): the blob of a frozen allotment leaves for OUT_ADDR, and its associations are capped. -/
def execMigSave (desc : List Byte) (written : Bool) (s : State) : Host.Outcome State Fault Refusal :=
  let d := CmdDesc.of desc
  if s.ringReady 0 = false ∨ d.unit ≠ 2 then .next s
  else
    let (idx, s) := s.fetchNext 0 0
    let s := s.inc (Reg.hifCountLo 1)
    let n := (d.word 0).toNat
    let m := (d.word 2).toNat
    let code := s.saveCode n (d.word 1).toNat m d.outMax
    if code ≠ 0 then .next (s.complete 0 d.tag code d.unit 0 0 idx 0)
    else if written = false then .next ((s.dmaError 0).complete 0 d.tag 0xF2 d.unit 0 0 idx 0)
    else
      let (blob, counts) := s.migBlob n ((s.wrapSlot (d.word 1).toNat).getD 0) m
      let s := (s.dma 0 true d.outAddr blob).capAssocs n m
      .next ((s.noteFor Ev.migSaved n (counts.flatMap (beBytes 4))).complete 0 d.tag 0 d.unit 0 blob.length idx 0)

/-- What RESTORE to allotment n is refused with before its blob is looked into; 0 if it goes on. -/
def State.restoreCode (s : State) (n w : Nat) (blob : Option MigBlob) (fetched : Bool) : Nat :=
  if s.ctl.mode.isYoke then 4
  else if n = 0 ∨ s.allotExists n = false then 2
  else if s.allotState n ≠ .frozen then 3
  else if fetched = false then 0xF2
  else if blob = none then 9
  else if s.wrapSlot w = none then 5
  else 0

/-- MIG_RESTORE (R534, R535): a blob is validated whole and applied to a frozen allotment. -/
def execMigRestore (desc blob : List Byte) (fetched : Bool) (s : State) : Host.Outcome State Fault Refusal :=
  let d := CmdDesc.of desc
  if s.ringReady 0 = false ∨ d.unit ≠ 2 then .next s
  else
    let (idx, s) := s.fetchNext 0 0
    let s := s.inc (Reg.hifCountLo 1)
    let n := (d.word 0).toNat
    let fin := fun (s : State) (code left : Nat) => s.complete 0 d.tag code d.unit 0 left idx 0
    let b := blob.take d.inLen
    let code := s.restoreCode n (d.word 1).toNat (MigBlob.of b) fetched
    if code = 0xF2 then .next (fin (s.dmaError 0) code 0)
    else if code ≠ 0 then .next (fin s code 0)
    else
      match MigBlob.of b, s.wrapSlot (d.word 1).toNat with
      | some x, some k =>
        let code := s.migCode n b x k
        if code ≠ 0 then .next (fin s code 0)
        else
          let (left, s) := s.applyBlob n k x
          .next (fin s 0 left)
      | _, _ => .next s

/-- ALLOT_CTRL_WRITE (R513): an allotment is bound to a PASID. -/
def execAllotCtrlWrite (path : Path) (allot : Fin 64) (val : Word) (s : State) : Host.Outcome State Fault Refusal :=
  .next (s.hostWrite path (Reg.hifAllotCtrl allot.val) val (fun s => s.allotCtrlEffect allot.val val))

/-! ## The PCIe link (R39, R530) -/

/-- PCIE_LINK_DOWN (R530): every allotment is quiesced. -/
def execPcieLinkDown (s : State) : Host.Outcome State Fault Refusal := .next s.linkDown

/-- PCIE_LINK_UP: the link reaches L0 at a rate of at most MAX_SPEED and a width of 1, 2 or 4 lanes. -/
def execPcieLinkUp (speed width : Fin 8) (s : State) : Host.Outcome State Fault Refusal :=
  let top := clamp 1 5 (s.fld Reg.hifLinkCfg 3 0)
  if s.pow.perstHigh = false ∨ s.islandUp 19 = false ∨ s.hif.linkUp ∨ speed.val = 0 ∨ top < speed.val ∨
      ([1, 2, 4].contains width.val) = false then .next s
  else
    let (k, s) := s.draw
    .next (({ s with hif := { s.hif with
      linkUp := true, speed := speed.val, width := width.val, ltssm := Config.freeNat k % 64 } }).note Ev.hifLinkUp)

/-! ## The management bus (R536 to R540) -/

/-- ENTDAA (R537): a module without a dynamic address takes one. -/
def execEntdaa (addr : Fin 128) (s : State) : Host.Outcome State Fault Refusal :=
  if s.i3cServes = false ∨ s.hif.dynAddr.isSome then .next (s.emit .i3cNack)
  else .next ((({ s with hif := { s.hif with dynAddr := some addr.val, hotJoinDue := false } }).inc (Reg.hifCountLo 7)).note Ev.i3cAddr)

/-- SETDASA at the static address (R537). -/
def execSetdasa (target addr : Fin 128) (s : State) : Host.Outcome State Fault Refusal :=
  if s.i3cServes = false ∨ s.hif.dynAddr.isSome ∨ target.val ≠ s.staticAddr then .next (s.emit .i3cNack)
  else .next (((s.inc (Reg.hifCountLo 7)).note Ev.i3cAddr) |> fun s =>
    { s with hif := { s.hif with dynAddr := some addr.val, hotJoinDue := false } })

/-- RSTDAA (R537): the dynamic address is dropped. -/
def execRstdaa (s : State) : Host.Outcome State Fault Refusal :=
  if s.i3cServes = false then .next (s.emit .i3cNack)
  else
    let s := s.inc (Reg.hifCountLo 7)
    if s.hif.dynAddr.isSome then .next (({ s with hif := { s.hif with dynAddr := none } }).note Ev.i3cAddr) else .next s

/-- RSTACT (R537): the reset action is recorded. -/
def execRstact (action : BitVec 8) (s : State) : Host.Outcome State Fault Refusal :=
  if s.i3cServes = false then .next (s.emit .i3cNack)
  else .next ({ s with hif := { s.hif with rstAction := action.toNat } }.inc (Reg.hifCountLo 7))

/-- GETPID (R536, R537): the Provisional ID, most significant byte first. -/
def execGetpid (s : State) : Host.Outcome State Fault Refusal := .next (s.i3cServe (fun s => s.i3cAnswer (beBytes 6 s.provisionalId)))

/-- GETBCR (R536, R537). -/
def execGetbcr (s : State) : Host.Outcome State Fault Refusal := .next (s.i3cServe (fun s => s.i3cAnswer [0x06]))

/-- GETDCR (R536, R537). -/
def execGetdcr (s : State) : Host.Outcome State Fault Refusal := .next (s.i3cServe (fun s => s.i3cAnswer [0x00]))

/-- GETSTATUS (R537): two bytes that the spec does not state. -/
def execGetstatus (s : State) : Host.Outcome State Fault Refusal :=
  .next (s.i3cServe (fun s =>
    let (k, s) := s.draw
    s.i3cAnswer (slice (Config.freeBytes k 2) 0 2)))

/-- GETMXDS (R537): maximum write and read speed, each the full 12.5 MHz of R536, coded 0 (PRESUMED). -/
def execGetmxds (s : State) : Host.Outcome State Fault Refusal := .next (s.i3cServe (fun s => s.i3cAnswer [0, 0]))

/-- GETMWL (R537): the maximum write length. -/
def execGetmwl (s : State) : Host.Outcome State Fault Refusal := .next (s.i3cServe (fun s => s.i3cAnswer (beBytes 2 s.hif.mwl)))

/-- GETMRL (R537, R540): the maximum read length and the 3 bytes of an IBI. -/
def execGetmrl (s : State) : Host.Outcome State Fault Refusal := .next (s.i3cServe (fun s => s.i3cAnswer (beBytes 2 s.hif.mrl ++ [3])))

/-- SETMWL (R537). -/
def execSetmwl (len : BitVec 16) (s : State) : Host.Outcome State Fault Refusal :=
  .next (s.i3cServe (fun s => { s with hif := { s.hif with mwl := len.toNat } }))

/-- SETMRL (R537). -/
def execSetmrl (len : BitVec 16) (s : State) : Host.Outcome State Fault Refusal :=
  .next (s.i3cServe (fun s => { s with hif := { s.hif with mrl := len.toNat } }))

/-- ENEC (R537, R540): bit 0 enables in-band interrupts, bit 3 Hot-Join (PRESUMED). -/
def execEnec (events : BitVec 8) (s : State) : Host.Outcome State Fault Refusal :=
  .next (s.i3cServe (fun s => { s with hif := { s.hif with
    ibiEn := s.hif.ibiEn || events.getLsbD 0, hjEn := s.hif.hjEn || events.getLsbD 3 } }))

/-- DISEC (R537, R540): bit 0 disables in-band interrupts, bit 3 Hot-Join (PRESUMED). -/
def execDisec (events : BitVec 8) (s : State) : Host.Outcome State Fault Refusal :=
  .next (s.i3cServe (fun s => { s with hif := { s.hif with
    ibiEn := s.hif.ibiEn && !events.getLsbD 0, hjEn := s.hif.hjEn && !events.getLsbD 3 } }))

/-- READ32 (R538): a private write selects the register that the next private read returns. -/
def execRead32 (addr : Fin 128) (off : BitVec 32) (s : State) : Host.Outcome State Fault Refusal :=
  if s.i3cHits addr.val = false then .next (s.emit .i3cNack)
  else
    let ok := s.i3cReads off.toNat
    let s := ({ s with hif := { s.hif with read32 := some (off.toNat, ok) } }).inc (Reg.hifCountLo 7)
    .next (if ok then s else s.note Ev.i3cRefused)

/-- WRITE32 (R538): a private write to a register of the STW and HDG blocks, as allotment 0. -/
def execWrite32 (addr : Fin 128) (off val : BitVec 32) (s : State) : Host.Outcome State Fault Refusal :=
  if s.i3cHits addr.val = false then .next (s.emit .i3cNack)
  else
    let s := s.inc (Reg.hifCountLo 7)
    if s.i3cWrites off.toNat = false then .next (s.note Ev.i3cRefused)
    else
      match s.i3cCommand off.toNat val with
      | some o => o
      | none => .next (s.writeReg (.write32 addr off val) .i3c off.toNat val)

/-- I3C_PRIVATE_READ (R538): a status byte, then the value least significant byte first. -/
def execI3cPrivateRead (addr : Fin 128) (s : State) : Host.Outcome State Fault Refusal :=
  if s.i3cHits addr.val = false then .next (s.emit .i3cNack)
  else
    let s := s.inc (Reg.hifCountLo 7)
    match s.hif.read32 with
    | none => .next (s.i3cAnswer [2, 0, 0, 0, 0])
    | some (off, ok) =>
      let s := { s with hif := { s.hif with read32 := none } }
      if ok = false then .next (s.i3cAnswer [1, 0, 0, 0, 0])
      else if s.readable .i3c off = false then .next (s.i3cAnswer [0, 0, 0, 0, 0])
      else
        let (v, s) := s.readAt .i3c off
        .next (s.i3cAnswer (0 :: leBytes 4 v.toNat))

/-- HOT_JOIN_REQUEST (R537): after a reset, once the bus is idle, unless Hot-Join is disabled. -/
def execHotJoinRequest (s : State) : Host.Outcome State Fault Refusal :=
  if s.i3cServes ∧ s.hif.hotJoinDue ∧ s.hif.hjEn ∧ s.hif.dynAddr = none then
    .next (({ s with hif := { s.hif with hotJoinDue := false } }).emit .hotJoin)
  else .next s

end Sys2Proof.Machine
end

