-- ==== Sys2Proof/Machine/Commands.lean ====
section
/-! DEFINITION. The commands that writes of the command registers are: which row of the table a word written to one of them
through the Device Window spells (R89, R99, R198, R222, R308, R397, R460 and the OP fields of the other units). -/

namespace Sys2Proof.Machine

open Sys2Proof

/-- A number as an operand. -/
def opnd (n : Nat) [NeZero n] (k : Nat) : Fin n := Fin.ofNat n k

/-- STW_MODE_CMD (R99); arg is its ARG. -/
def modeCommand (op arg : Nat) : Option Instr :=
  match op with
  | 1 => some (.goService .device)
  | 2 => some (.goYoke .device)
  | 3 => some (.modeStop .device)
  | 4 => some (.selfTest .device (BitVec.ofNat 8 arg))
  | 5 => some (.unyoke .device)
  | 6 => some (.moduleReset .device)
  | 7 => some (.clearDegrade .device)
  | _ => some (.modeCmdUnknown .device (opnd 16 op))

/-- STW_IMAGE_CMD (R89 to R93). -/
def imageCommand (op slot arg : Nat) : Option Instr :=
  match op with
  | 1 => some (.writeOpen .device (opnd 16 slot))
  | 2 => some (.writeChunk .device (opnd 16 slot) (opnd 4096 arg))
  | 3 => some (.writeClose .device (opnd 16 slot) true)
  | 4 => some (.activate .device (opnd 16 slot))
  | 5 => some (.confirm .device)
  | 6 => some (.revert .device)
  | 7 => some (.reboot .device)
  | 8 => some (.copyGolden .device (opnd 16 slot))
  | 9 => some (.imageErase .device (opnd 16 slot))
  | 10 => some (.raiseFloor .device (opnd 4096 arg))
  | 11 => some (.revokeAuth .device (opnd 4096 arg))
  | 12 => some (.setTrialMax .device (opnd 4096 arg))
  | _ => some (.imageCmdUnknown .device (opnd 16 op))

/-- RIX_APS_CMD[k] (R198); OP 0 is none. -/
def apsCommandOf (k op : Nat) : Option Instr :=
  match op with
  | 0 => some (.apsCmdUnknown .device (opnd 8 k) 0)
  | 1 => some (.apsClear .device (opnd 8 k))
  | 2 => some (.apsLockout .device (opnd 8 k))
  | 3 => some (.apsForced .device (opnd 8 k))
  | 4 => some (.apsManualP .device (opnd 8 k))
  | 5 => some (.apsManualW .device (opnd 8 k))
  | _ => some (.apsCmdUnknown .device (opnd 8 k) (opnd 16 op))

/-- CLS_CMD (R222). -/
def clsCommandOf (op : Nat) (w : Word) : Option Instr :=
  match op with
  | 1 => some (.clsSearch .device)
  | 2 => some (.searchNext .device)
  | 3 => some (.clsInsert .device (bit w 22) (bit w 23))
  | 4 => some (.clsDelete .device)
  | 5 => some (.flushByPort .device (opnd 16 (bits w 11 8)) (bit w 21))
  | 6 => some (.digestSnap .device)
  | _ => some (.clsCmdUnknown .device (opnd 16 op))

/-- ASC_CMD (R308). -/
def ascCommandOf (op arg : Nat) : Option Instr :=
  match op with
  | 1 => some (.ctxRead .device)
  | 2 => some (.ctxCreate .device (opnd 16 arg))
  | 3 => some (.ctxWrite .device)
  | 4 => some (.ctxDelete .device)
  | 5 => some (.ascRotate .device)
  | 6 => some (.ascFlip .device (opnd 16 arg))
  | _ => some (.ascCmdUnknown .device (opnd 16 op))

/-- KVT_CMD (R397). -/
def kvtCommandOf (op : Nat) : Option Instr :=
  match op with
  | 1 => some (.kvtLoad .device)
  | 2 => some (.importKw .device)
  | 3 => some (.kvtGenerate .device)
  | 4 => some (.kvtDerive .device)
  | 5 => some (.kvtErase .device)
  | 6 => some (.readAttr .device)
  | 7 => some (.kvtGrant .device)
  | 8 => some (.provOpen .device)
  | 9 => some (.provAccept .device)
  | 10 => some (.importProv .device)
  | 11 => some (.provClose .device)
  | 12 => some (.idExport .device)
  | 13 => some (.certWrite .device)
  | 14 => some (.anchorAdd .device)
  | 15 => some (.anchorRevoke .device)
  | 16 => some (.lcAdvance .device)
  | 17 => some (.zeroizeAll .device)
  | 18 => some (.reseed .device)
  | _ => some (.kvtCmdUnknown .device (opnd 32 op))

/-- TIM_CH_CMD[ch] (R460). -/
def timCommandOf (ch op : Nat) : Option Instr :=
  match op with
  | 1 => some (.channelSet .device (opnd 16 ch))
  | 2 => some (.channelStep .device (opnd 16 ch))
  | 3 => some (.channelSlew .device (opnd 16 ch))
  | 4 => some (.channelStop .device (opnd 16 ch))
  | _ => some (.timCmdUnknown .device (opnd 16 ch) (opnd 8 op))

/-- YOK_CMD. -/
def yokCommandOf (op : Nat) : Option Instr :=
  match op with
  | 1 => some (.yokHandover .device)
  | 2 => some (.yokPromote .device)
  | 3 => some (.yokResync .device)
  | _ => some (.yokCmdUnknown .device (opnd 16 op))

/-- LOG_CMD; the host bus takes what COPY_OUT writes. -/
def logCommandOf (op : Nat) : Option Instr :=
  match op with
  | 1 => some (.logFreeze .device)
  | 2 => some (.logThaw .device)
  | 3 => some (.logRelease .device)
  | 4 => some (.copyOut .device true)
  | 5 => some (.calWrite .device)
  | 6 => some (.calRead .device)
  | _ => some (.logCmdUnknown .device (opnd 16 op))

/-- HIF_ALLOT_CMD. -/
def allotCommandOf (op a : Nat) : Option Instr :=
  match op with
  | 1 => some (.resetDrain .device (opnd 64 a))
  | 2 => some (.resetSquash .device (opnd 64 a))
  | 3 => some (.allotFreeze .device (opnd 64 a))
  | 4 => some (.allotThaw .device (opnd 64 a))
  | _ => some (.allotCmdUnknown .device (opnd 16 op) (opnd 64 a))

/-- SCH_TBL_CMD. -/
def tblCommandOf (op table : Nat) : Option Instr :=
  if 2 < table then some (.schTblUnknown .device (opnd 4 table) (opnd 4 op))
  else match op with
    | 1 => some (.schTblRead .device (opnd 3 table))
    | 2 => some (.schTblWrite .device (opnd 3 table))
    | _ => some (.schTblUnknown .device (opnd 4 table) (opnd 4 op))

/-- CPH_PAIR_CMD (R377). -/
def pairCommandOf (op p : Nat) : Option Instr :=
  match op with
  | 1 => some (.pairRetire .device (opnd 128 p))
  | 2 => some (.pairKat .device (opnd 128 p))
  | _ => some (.pairCmdUnknown .device (opnd 16 op) (opnd 128 p))

/-- The command that a word written to the register at a Device Window offset is, if the register is a command or an arming
register. -/
def commandOf (off : Nat) (w : Word) : Option Instr :=
  if off = Reg.stwModeCmd then modeCommand (bits w 3 0) (bits w 15 8)
  else if off = Reg.stwImageCmd then imageCommand (bits w 3 0) (bits w 7 4) (bits w 19 8)
  else if off = Reg.stwImageArm then some (.imageArmWrite .device w)
  else if off = Reg.rixSwapCmd then some (.swapCmd .device w)
  else if Reg.rixApsCmd 0 ≤ off ∧ off < Reg.rixApsCmd 8 ∧ (off - Reg.rixApsCmd 0) % 0x20 = 0 then
    apsCommandOf ((off - Reg.rixApsCmd 0) / 0x20) (bits w 3 0)
  else if off = Reg.clsCmd then clsCommandOf (bits w 3 0) w
  else if off = Reg.schTblCmd then tblCommandOf (bits w 1 0) (bits w 5 4)
  else if off = Reg.mgdRetillCmd then some (.retillCmd .device (opnd 64 (bits w 5 0)))
  else if off = Reg.ascCmd then ascCommandOf (bits w 3 0) (bits w 11 8)
  else if off = Reg.cphPairCmd then pairCommandOf (bits w 11 8) (bits w 6 0)
  else if off = Reg.kvtCmd then kvtCommandOf (bits w 4 0)
  else if off = Reg.kvtArm then some (.kvtArmWrite .device w)
  else if off = Reg.yokCmd then yokCommandOf (bits w 3 0)
  else if off = Reg.yokArm then some (.yokeArmWrite .device w)
  else if Reg.timChCmd 0 ≤ off ∧ off < Reg.timChCmd 16 ∧ (off - Reg.timChCmd 0) % 0x40 = 0 then
    timCommandOf ((off - Reg.timChCmd 0) / 0x40) (bits w 2 0)
  else if off = Reg.hifAllotCmd then allotCommandOf (bits w 3 0) (bits w 21 16)
  else if off = Reg.hifDoorbell then some (.doorbell .device (opnd 16 (bits w 31 28)) (BitVec.ofNat 16 (bits w 15 0)))
  else if off = Reg.logCmd then logCommandOf (bits w 3 0)
  else if off = Reg.logCalArm then some (.calArmWrite .device w)
  else none

end Sys2Proof.Machine
end

