-- ==== Sys2Proof/Machine/Presets.lean ====
section
/-! DEFINITION. Boot step B7 (R84): applying the sections of an image, PRESET last (R75), and the end of a candidate's load
(R82, R83). -/

namespace Sys2Proof.Machine

open Sys2Proof

/-- Each sensor takes its default, made at least as strict as its floor (R488). -/
def State.applySensors (s : State) : State :=
  (List.range 13).foldl (fun (s : State) k =>
    let (l, c, w) := sensorDefaults.getD k (0, 1, 1)
    let (fl, fc, fw) := s.floorOf k
    (s.wr (Reg.hdgSensorCfg k) (BitVec.ofNat 32 (max l fl * 65536 + min c fc))).wr (Reg.hdgSensorWin k) (BitVec.ofNat 32 (max w fw))) s

/-- Cipher pairs take their image roles (R345); a spare is not serving. -/
def pairsOf (roles : List Nat) : List CPair :=
  (List.range 72).map (fun p =>
    let r := roles.getD p 5
    { CPair.reset with st := if r = 5 then 2 else 1, role := r, imageRole := r })

/-- Equal allotment windows, each rounded down to 2 MiB (R280); KEY_IDX of their queues keeps its reset value (R279). -/
def State.applyWindows (s : State) (im : Structure) : State :=
  match im.regions.find? (fun r => r.purpose == 3) with
  | none => s
  | some r =>
    let span := r.sizeMib / im.allotCount / 2
    (List.range im.allotCount).foldl (fun (s : State) n =>
      s.wr (Reg.mgdAllotWin n) (BitVec.ofNat 32 (n * span * 65536 + span))) s

/-- One PRESET entry is applied as a read-modify-write of what the register reads as; a disabled unit ignores it (R74, R75). A
write that is a command joins the commands that wait to run, behind those of earlier entries (DESIGN CHOICE, log entry 98). -/
def State.applyPreset (s : State) (e : PresetEntry) : State :=
  let u := e.offset / 0x100000
  let w := (s.readReg 0 e.offset &&& ~~~e.mask) ||| (e.value &&& e.mask)
  if u = 0 ∨ s.unitEnabled u then
    match commandOf e.offset w with
    | some c => { s with held := s.held ++ [c] }
    | none => s.regEffect 0 e.offset w
  else s

/-- The sections are applied in type order, PRESET last, and the islands leave reset (B7). -/
def State.applyStructure (s : State) (slot : Nat) (im : Structure) : State :=
  let s := { s with
    boot := { s.boot with image := some im, booted := slot, phase := 7 }
    cph := { s.cph with pairs := pairsOf im.cipherSplit }
    hif := { s.hif with allots := (List.range 64).map (fun n => if n < im.allotCount then .idle else .absent) }
    tim := { s.tim with chans := (List.range 16).map (fun c =>
      { Channel.idle with source := (im.timeMap.getD c (0, 0)).1, owner := (im.timeMap.getD c (0, 0)).2 }) }
    fab := { s.fab with live := allIslands, inReset := if s.pow.perstHigh then [] else [19] } }
  im.presets.foldl State.applyPreset (s.applyWindows im).applySensors

/-- The record that Boot writes once slot k has loaded and metadata was lost (R83): order are the slots tried before it. -/
def State.freshMeta (s : State) (k : Nat) : SlotMeta :=
  let m := { SlotMeta.blank with prefer := if k = 1 then 1 else 0 }
  (List.range 3).foldl (fun (m : SlotMeta) j =>
    let h := s.slotBytes j 0 256
    let sound := headerGood h && s.headerPermitted h && s.headerRollback h
    let m := m.setSt j (if j = k then .good else if j < k then .bad else if sound then (if j = 2 then .good else .written) else .empty)
    if sound then m.setImage j (ofBe (slice (imageDigest (s.imageOf j)) 0 8)) (leAt h 20 4) else m) m

/-- A candidate has loaded: PREFER follows, a golden image is reported, Boot goes on to B8. -/
def State.candidateLoaded (s : State) (k : Nat) : State :=
  let m := s.slotMeta
  let s :=
    if s.boot.metaLost then (s.storeMeta (s.freshMeta k) .nobody).1
    else if k ≠ m.prefer ∧ k ≠ 2 then (s.storeMeta { m with prefer := k } .nobody).1
    else s
  let s := if k = 2 then s.note Ev.goldenBoot else s
  { s with boot := { s.boot with phase := 8, cands := [] } }

/-- A candidate fails: its event, its slot Bad, the next candidate (R86). -/
def State.candidateFailed (s : State) (k : Nat) (ks : List Nat) (ev : EvKind) : State :=
  let s := s.note ev (beBytes 1 k)
  let s := if s.boot.metaLost then s else (s.storeMeta (s.slotMeta.setSt k .bad) .nobody).1
  s.nextCandidate ks

/-- IMAGE_CANDIDATE_READ (R82, B4 to B7): readOk is false on a NOR read error. The image of a Trial
slot is read once TRIES is stored; while the queue has refused that store, it is asked for again (R124). -/
def execImageCandidateRead (readOk : Bool) (s : State) : Host.Outcome State Fault Refusal :=
  match s.boot.cands with
  | [] => .next s
  | k :: ks =>
    if s.ctl.mode ≠ .boot ∨ s.boot.phase ≠ 4 then .next s
    else if s.slotMeta.st k = .trial ∧ s.boot.metaDue then
      let (s, ok) := s.storeMeta { s.slotMeta with tries := s.slotMeta.tries + 1 } .nobody
      .next { s with boot := { s.boot with metaDue := !ok }, held := s.held ++ [.imageCandidateRead readOk] }
    else if s.slotMeta.st k = .trial ∧ s.metaOut then .next { s with held := s.held ++ [.imageCandidateRead readOk] }
    else match s.checkImage k readOk with
      | .bad ev _ _ => .next (s.candidateFailed k ks ev)
      | .good =>
        let b := s.imageOf k
        if sectionsGood b then .next ((s.applyStructure k (structureOf b)).candidateLoaded k)
        else .next (s.candidateFailed k ks Ev.imageSectionInvalid)

end Sys2Proof.Machine
end

