-- ==== Sys2Proof/Machine/Registers.lean ====
section
/-! DEFINITION. Register accesses of the host: plain writes by access type (R8), reads with their shadow copies and clears
(R7, R8), arming writes (R571). -/

namespace Sys2Proof.Machine

open Sys2Proof

/-- REGISTER_WRITE (R4, R6, R8): a narrow or unaligned access completes with Unsupported Request and changes nothing. -/
def execRegisterWrite (path : Path) (off : BitVec 25) (size : Fin 5) (val : Word) (s : State) : Host.Outcome State Fault Refusal :=
  if size.val ≠ 4 ∨ off.toNat % 4 ≠ 0 then .next (s.emit (.unsupported off.toNat))
  else .next (s.writeReg (.registerWrite path off size val) path off.toNat val)

/-- A read of size bytes (R4): a narrow or unaligned one completes with Unsupported Request, and latches and clears nothing. -/
def State.sizedRead (s : State) (path : Path) (off size : Nat) : State :=
  if size ≠ 4 ∨ off % 4 ≠ 0 then s.emit (.unsupported off) else s.hostRead path off

/-- WIDE_VALUE_LOW_READ (R7): the read returns the lowest word and latches the higher ones into the path's shadow copy. -/
def execWideValueLowRead (path : Path) (off : BitVec 25) (size : Fin 5) (s : State) : Host.Outcome State Fault Refusal :=
  .next (s.sizedRead path off.toNat size.val)

/-- RC_FIELD_READ (R8, R11): the read returns the field and clears it. -/
def execRcFieldRead (path : Path) (off : BitVec 25) (size : Fin 5) (s : State) : Host.Outcome State Fault Refusal :=
  .next (s.sizedRead path off.toNat size.val)

/-- KVT_ARM_WRITE (R397): 0x4B45_5953 arms the next Key Vault command. -/
def execKvtArmWrite (path : Path) (val : Word) (s : State) : Host.Outcome State Fault Refusal :=
  .next (s.armWrite path Reg.kvtArm val 0x4B455953)

/-- CAL_ARM_WRITE (R565): 0x4341_4C57 arms the next Ledger command. -/
def execCalArmWrite (path : Path) (val : Word) (s : State) : Host.Outcome State Fault Refusal :=
  .next (s.armWrite path Reg.logCalArm val 0x43414C57)

/-- YOKE_ARM_WRITE (YOK_ARM): 0x5052_4F4D arms the next Yoke command. -/
def execYokeArmWrite (path : Path) (val : Word) (s : State) : Host.Outcome State Fault Refusal :=
  .next (s.armWrite path Reg.yokArm val 0x50524F4D)

/-- IMAGE_ARM_WRITE (R93): 0x464C_4F52 arms the next image command. -/
def execImageArmWrite (path : Path) (val : Word) (s : State) : Host.Outcome State Fault Refusal :=
  .next (s.armWrite path Reg.stwImageArm val 0x464C4F52)

end Sys2Proof.Machine
end

