-- ==== Sys2Proof/Machine/YokeItems.lean ====
section
/-! DEFINITION. Items of the decision stream and of the reverse stream as they take effect (R426 to R439, R450). A command of
this file is an item that has been delivered and whose epoch has come. -/

namespace Sys2Proof.Machine

open Sys2Proof

/-! ## Items (R426, R428) -/

/-- The field of k bytes at an offset of an item. -/
def itemAt (item : List Byte) (o k : Nat) : Nat := ofBe (slice item o k)

/-- An item has the header of its TYPE and the LENGTH of the table. -/
def itemOk (type len : Nat) (item : List Byte) : Bool :=
  item.length == len && slice item 0 4 == beBytes 1 (128 + type) ++ [0] ++ beBytes 2 len

/-- An item of a TYPE whose LENGTH is 12 + n. -/
def itemVar (type : Nat) (item : List Byte) : Bool :=
  decide (12 ≤ item.length) && decide (item.length ≤ 65534) && item.length % 2 == 0 && itemOk type item.length item

/-- YOK_DIVERGE holds a divergence; entry is 0xFFFF for none. -/
def State.recordDivergence (s : State) (entry cls : Nat) (lead : Bool) : State :=
  (s.wr Reg.yokDiverge (BitVec.ofNat 32 ((if entry < 560 then entry else 0) * 65536 + cls * 256 + flag lead * 2 + 1))).inc
    (Reg.yokCountLo 8)

/-- A follower declares a divergence of class 3 to 6 (R443, R444): it takes T12. A resyncing twin, muted already, only counts
its clean intervals anew. -/
def State.declareClass (s : State) (cls : Nat) : State :=
  let s := s.recordDivergence 0xFFFF cls false
  let s := if cls = 3 then (s.inc (Reg.yokCountLo 11)).note Ev.yokeStreamLate else s
  if s.ctl.mode = .yokeFollower then (s.note Ev.yokeDiverged).divertResync
  else { s with yok := { s.yok with clean := 0 } }

/-- An item of the decision stream takes effect on a follower or a resyncing twin; ok is false where its TYPE or LENGTH is
outside R428, which makes the stream malformed (R443 class 5). -/
def State.decision (s : State) (ok : Bool) (act : State → State) : State :=
  if s.isFollower = false then s
  else if ok then act (s.inc (Reg.yokCountLo 4)) else s.declareClass 5

/-- An item of the reverse stream reaches the lead. -/
def State.reverse (s : State) (ok : Bool) (act : State → State) : State :=
  if s.ctl.mode = .yokeLead ∧ ok then act (s.inc (Reg.yokCountLo 4)) else s

/-- An item that changes entry i of a static table applies: during step Y2 only below the table's copy pointer (R450). -/
def State.applies (s : State) (table i : Nat) : Bool :=
  s.ctl.mode != Mode.yokeResync || decide (2 < s.yok.step) || decide (i < SMap.get zeroOf s.yok.copied table)

/-! ## EPOCH (R424, R443, R447, R449) -/

/-- The block counter of a follower is set to b. -/
def State.setBlock (s : State) (b : Nat) : State :=
  { s with line := { s.line with sheaf := b / 20500, sheafAt := s.now - b % 20500 * 8 / 25 } }

/-- The next step of a resync, reported to the lead. -/
def State.resyncStep (s : State) (k : Nat) : State := ({ s with yok := { s.yok with step := k } }).reportState

/-- A phantom of SNAP stands for a frame that the lead had queued at the cut-in; it is of no input. -/
def Frame.ofCutIn (f : Frame) : Bool := f.phantom && f.input == 544

/-- Y6 ends once every frame queued at the cut-in has left: the intervals of Y7 are counted from here. -/
def State.queueDrained (s : State) : State :=
  if s.yok.step = 6 ∧ s.sch.frames.all (fun e => match e.2 with | some f => !f.ofCutIn | none => true) then
    ({ s with yok := { s.yok with clean := 0 } }).resyncStep 7
  else s

/-- Epoch k begins. -/
def State.epochItem (s : State) (k : Nat) : State :=
  if s.ctl.mode = .yokeFollower then
    if s.yok.twinLost ∨ 64 * k + 3 < s.blockNo then s.declareClass 3
    else { s with yok := { s.yok with epoch := k } }
  else
    let s := { s with yok := { s.yok with epoch := k } }
    if s.yok.step = 1 ∧ s.yok.locked then (s.setBlock (64 * k)).resyncStep 2
    else if s.yok.step = 5 then (s.resyncStep 6).queueDrained
    else s.queueDrained

/-- EPOCH (R426). -/
def execStreamEpoch (item : List Byte) (s : State) : Host.Outcome State Fault Refusal :=
  .next (s.decision (itemOk 0x01 12 item) (fun s =>
    ({ s with yok := { s.yok with heardAt := s.now } }).epochItem (itemAt item 4 8)))

/-! ## Frame records (R427, R432, R433) -/

/-- A free association, where the spec does not say which one a phantom stands for. -/
def State.freeAssoc (s : State) : Nat × State :=
  let (k, s) := s.draw
  (Config.freeNat k % 65536, s)

/-- A phantom of len bytes on input i: no frame has been seen, so its association is the input's where that is fixed, and else
free, as its PN is. -/
def State.phantomOf (s : State) (i len : Nat) : Frame × State :=
  let (a, s) := s.freeAssoc
  let (k, s) := s.draw
  let b := zeroBytes len
  if i < 16 then
    let f := match s.ctx a with
      | some c => newFrame s b i true a c.encOut c.encClass false
      | none => newFrame s b i true a (Config.freeNat k % 544) (Config.freeNat k / 544 % 8) true
    ({ f with phantom := true }, s)
  else
    let a := if s.flg (Reg.ascInputCfg i) 31 then s.fld (Reg.ascInputCfg i) 15 0 else a
    let f := match s.ctx a with
      | some c => { newFrame s b i false a c.decOut c.decClass true with slot := slotOf a c.rxPrimary, hold := c.verifyFirst }
      | none => { newFrame s b i false a (Config.freeNat k % 544) (Config.freeNat k / 544 % 8) true with slot := slotOf a 0 }
    ({ f with phantom := true, id := s.sch.nextId, pn := 1 + Config.freeNat k % (2 ^ 64 - 1) },
      { s with sch := { s.sch with nextId := s.sch.nextId + 1 } })

/-- A phantom is accounted (R433). -/
def State.admitPhantom (s : State) (f : Frame) : State :=
  let s := ((s.admitFrame { f with phantom := true } true).inc (Reg.yokCountLo 1)).excuse f.output
  s.noteFor Ev.yokePhantom (s.assocOwner f.assoc) (beBytes 2 f.input)

/-- The input is enabled: a client port, an Ethernet group, a tributary that the receive pages map. -/
def State.inputOn (s : State) (i : Nat) : Bool :=
  if i < 16 then s.portEnabled i
  else if i < 32 then s.groupKind (i - 16) == 1 && s.groupEnabled (i - 16)
  else decide (i < 544) && decide (0 < s.rxTribRows (i - 32))

/-- Frames that are discarded from an input's buffer: only the follower saw them. -/
def State.discardUnmatched (s : State) (fs : List Frame) : State :=
  (fs.foldl (fun (s : State) f => s.notAdmitted f 10) s).incBy (Reg.yokCountLo 2) fs.length

/-- The arrival difference of a matched frame (YOK_SKEW): at is the record's nominal arrival in the follower's time. -/
def State.noteSkew (s : State) (own at_ : Nat) : State :=
  let d : Int := (own : Int) + s.lagBlocks * 8 / 25 - at_
  if s.yok.skewNs < d.natAbs then { s with yok := { s.yok with skewNs := d.natAbs, skewLater := decide (0 < d) } } else s

/-- The first of the first 8 frames of a buffer whose LEN and MATCH equal a record's: the frames ahead, it, those after. -/
def matchFrame (b : List Frame) (len m : Nat) : Option (List Frame × Frame × List Frame) :=
  match (b.take 8).findIdx? (fun f => f.rxLen == len && f.rxMatch == m) with
  | some j => (b[j]?).map (fun f => (b.take j, f, b.drop (j + 1)))
  | none => none

/-- A frame record takes effect (R425, R432, R433): input, LEN, MATCH, FIRST_OFS. Before the cut-in it is only numbered; up to
step Y5 every frame is a phantom (R449). -/
def State.frameRecordItem (s : State) (i len m ofs : Nat) : State :=
  let s := s.inc (Reg.yokCountLo 0)
  if s.inputOn i = false then s.declareClass 5
  else if s.ctl.mode = .yokeResync ∧ s.yok.step < 4 then
    let (f, s) := s.phantomOf i len
    (s.takeRecNo f).2
  else
    let nominal := s.now - ofs * 64 / 25
    let buf := SMap.get (fun _ => []) s.yok.buffers i
    match (if s.ctl.mode = .yokeResync ∧ s.yok.step < 6 then none else matchFrame buf len m) with
    | some (ahead, f, rest) =>
      let s := { s with yok := { s.yok with buffers := SMap.set (fun _ => []) s.yok.buffers i rest } }
      let s := (s.discardUnmatched ahead).noteSkew f.arrival nominal
      let f := { f with arrival := nominal }
      if s.freeCells f.encrypt + s.freeSpill < s.reserveFor f then s.admitPhantom f else s.admitFrame f true
    | none =>
      let (f, s) := s.phantomOf i len
      s.admitPhantom { f with arrival := nominal }

/-- FRAME_RECORD (R427, R432): bit 47 is 0 in every frame record. -/
def execFrameRecord (record : BitVec 48) (s : State) : Host.Outcome State Fault Refusal :=
  let r := record.toNat
  if s.isFollower = false then .next s
  else if 2 ^ 47 ≤ r then .next (s.declareClass 5)
  else .next (s.frameRecordItem (r / 2 ^ 37 % 1024) (r / 2 ^ 23 % 16384) (r / 2 ^ 7 % 65536) (r % 128))

/-- UNMATCHED_DISCARD (R434): the oldest frame of an input's buffer has stayed unmatched for 2 × LAG_B blocks. -/
def execUnmatchedDiscard (input : Fin 544) (s : State) : Host.Outcome State Fault Refusal :=
  match SMap.get (fun _ => []) s.yok.buffers input.val with
  | [] => .next s
  | f :: rest =>
    if s.now < f.arrival + 2 * s.lagBlocks * 8 / 25 then .next s
    else
      let s := { s with yok := { s.yok with buffers := SMap.set (fun _ => []) s.yok.buffers input.val rest } }
      .next (s.discardUnmatched [f])

/-! ## Verdicts (R428, R435) -/

/-- The admitted frame that a record number of an input names. -/
def State.recFrame (s : State) (i no : Nat) : Option Frame :=
  s.sch.frames.findSome? (fun e => match e.2 with
    | some f => if f.input = i ∧ f.recNo = no ∧ f.inject.isNone then some f else none
    | none => none)

/-- A frame is handled as the lead handled it. -/
def State.verdictItem (s : State) (i code no : Nat) : State :=
  let s := s.inc (Reg.yokCountLo 3)
  match s.recFrame i no with
  | none => s
  | some f =>
    if f.encrypt ∨ f.verdict.isSome then s.setVerdict f.id false
    else if code = 1 ∨ code = 2 then s.icvFail { f with rxFault := code }
    else if code = 3 then s.rejectFrame f 7 4 3
    else if code = 5 then (s.setVerdict f.id false).modFrame f.id (fun x => { x with whole := true })
    else s.setVerdict f.id false

/-- VERDICT (R435). -/
def execStreamVerdict (item : List Byte) (s : State) : Host.Outcome State Fault Refusal :=
  .next (s.decision (itemOk 0x02 12 item) (fun s => s.verdictItem (itemAt item 4 2) (itemAt item 6 1) (itemAt item 8 4)))

/-- A received sheaf is handled as the lead handled it; FE_TAG_FAILS and FE_LAST_TRIB follow the lead's items. -/
def State.sheafVerdictItem (s : State) (t n code : Nat) : State :=
  let s := s.inc (Reg.yokCountLo 3)
  match s.cloakOf t with
  | none => s
  | some (a, c) =>
    let s :=
      if code = 1 ∨ code = 4 then (s.cloakTagFailed a t).noteTagFail t n
      else if code = 2 then (s.modCtx a (fun c => c.bump 15 1)).noteFor Ev.cloakKeyUnknown c.owner (beBytes 2 t)
      else if code = 3 then s.rxCount a 14 12
      else s
    match SMap.get noneOf s.asc.rxSheaf t with
    | some (n', _, _) =>
      if n' = n then
        let s := { s with asc := { s.asc with rxSheaf := SMap.set noneOf s.asc.rxSheaf t none } }
        ((s.endCloakItem t).settleBare t false).tribLost t
      else s
    | none => s

/-- SHEAF_VERDICT (R435). -/
def execSheafVerdict (item : List Byte) (s : State) : Host.Outcome State Fault Refusal :=
  .next (s.decision (itemOk 0x03 16 item) (fun s => s.sheafVerdictItem (itemAt item 4 2) (itemAt item 6 6) (itemAt item 12 1)))

/-! ## Commits -/

/-- The ALT entry of 32 bytes; KIND 0 is no entry. -/
def altOfItem (b : List Byte) : Option AltEntry := if (AltEntry.ofBytes b).kind = 0 then none else some (AltEntry.ofBytes b)

/-- An ALT entry as the lead conveys it. -/
def State.takeAlt (s : State) (i : Nat) (b : List Byte) : State := { s with cls := { s.cls with alt := SMap.set noneOf s.cls.alt i (altOfItem b) } }.quotaSettle

/-- CLS_COMMIT (R239, R437): the repair of an entry is one too. -/
def execClsCommit (item : List Byte) (s : State) : Host.Outcome State Fault Refusal :=
  .next (s.decision (itemOk 0x04 40 item) (fun s =>
    let i := itemAt item 4 4
    let s := if s.yok.repair = some i then { s with yok := { s.yok with repair := none } } else s
    if s.applies 1 i ∧ i < 262144 then s.takeAlt i (slice item 8 32) else s))

/-- The SCI index slot of 12 bytes: VALID and domain, 0, SCI, association. -/
def sciOfItem (b : List Byte) : Option SciKey :=
  let v := ofBe (slice b 0 1)
  if v < 128 then none else some ⟨v % 16, slice b 2 8, ofBe (slice b 10 2)⟩

/-- An SCI index slot as the lead conveys it. -/
def State.takeSci (s : State) (i : Nat) (b : List Byte) : State := { s with asc := { s.asc with sci := SMap.set noneOf s.asc.sci i (sciOfItem b) } }

/-- SCI_COMMIT (R339). -/
def execSciCommit (item : List Byte) (s : State) : Host.Outcome State Fault Refusal :=
  .next (s.decision (itemOk 0x05 20 item) (fun s =>
    let i := itemAt item 4 4
    if s.applies 3 i ∧ i < 131072 then s.takeSci i (slice item 8 12) else s))

/-- The sealed record of an association with PERSIST follows its commit on a follower too (R310). -/
def State.persistOwn (s : State) (a : Nat) (c : Ctx) : State :=
  if c.persist then
    let k := (SMap.get noneOf s.asc.recOf a).getD s.freeAssocRec
    let (r, s) := s.sealRec 0 a 0 c.head
    let (s, ok) := s.storeSealed (.assocRec k (some r)) .nobody
    if ok then { s with asc := { s.asc with recOf := SMap.set noneOf s.asc.recOf a (some k) } } else s
  else s.freeRecords

/-- A context command of the lead: OP 2 CREATE, 3 WRITE, 4 DELETE; b holds context bytes 0 to 127. -/
def State.ascCommitItem (s : State) (a op arg : Nat) (b : List Byte) : State :=
  let x := Ctx.create (b ++ zeroBytes 384) (arg % 2)
  match op, s.ctx a with
  | 2, _ => ((s.setCtx a (some x)).commitCtx a).persistOwn a x
  | 3, some c =>
    let y := { c.rewrite (b ++ zeroBytes 384) with hostData := c.hostData }
    let s := s.setCtx a (some y)
    let s := if c.poisoned then s.rebuild a else s
    (s.commitCtx a).persistOwn a y
  | 4, some c =>
    let s := s.setCtx a none
    let gone := SMap.set noneOf s.asc.gone a (some { c with kind := 0 })
    ({ s with asc := { s.asc with gone := gone, cache := s.asc.cache.filter (· != a) } }).freeRecords
  | _, _ => s

/-- ASC_COMMIT (R339). -/
def execAscCommit (item : List Byte) (s : State) : Host.Outcome State Fault Refusal :=
  .next (s.decision (itemOk 0x06 136 item) (fun s =>
    let a := itemAt item 4 2
    if s.applies 4 a then s.ascCommitItem a (itemAt item 6 1) (itemAt item 7 1) (slice item 8 128) else s))

/-- KIND 1 of ASC_EVENT: transmission switches to slot k with the PN that the lead's mark reserves (R335, R339). -/
def State.rotateItem (s : State) (a k : Nat) (c : Ctx) : State :=
  let r := s.pnRec a
  let c := ({ c with txSlot := k, rotating := none, txNext := r.txMark - 2 ^ s.reserveExp, txMark := r.txMark, exhausted := false
                     softSeen := false, stalled := false, markAsked := false }).bump 11 1
  let s := (s.setCtx a (some c)).startHold a
  let s := (s.storePn a { r with txFp := s.fpOf (slotOf a k), txSlot := k == 1 } .nobody).1
  s.noteFor Ev.rotated c.owner (beBytes 2 a ++ beBytes 1 k)

/-- An ASC_EVENT of association a with slot k. -/
def State.ascEventItem (s : State) (a kind k : Nat) : State :=
  match s.ctx a with
  | none => s
  | some c =>
    match kind with
    | 1 => s.rotateItem a k c
    | 2 => s.primarySwitch a k
    | 3 =>
      let s := (s.setCtx a (some { c with holdLeft := 0 }))
      ((s.eraseSlot (slotOf a k) .nobody).1).noteFor Ev.oldSlotRetired c.owner (beBytes 2 a ++ beBytes 1 k)
    | 4 =>
      let n := s.firstPn a (s.fpOf (slotOf a k)) c
      s.setCtx a (some { c with txSlot := k, txNext := n, txMark := n, txWait := true, exhausted := false, softSeen := false
                                stalled := false, markAsked := true, cap := none, held := false })
    | 5 => s.setCtx a (some { c with txWait := false, txMark := max c.txMark (s.pnRec a).txMark })
    | _ => s

/-- ASC_EVENT (R339). -/
def execAscEvent (item : List Byte) (s : State) : Host.Outcome State Fault Refusal :=
  .next (s.decision (itemOk 0x07 12 item) (fun s => s.ascEventItem (itemAt item 4 2) (itemAt item 6 1) (itemAt item 7 1 % 2)))

/-- FLIP (R338, R339): a cloak flip is announced for a sheaf. -/
def execFlipItem (item : List Byte) (s : State) : Host.Outcome State Fault Refusal :=
  .next (s.decision (itemOk 0x08 16 item) (fun s =>
    let t := itemAt item 4 2
    let n := itemAt item 8 6
    match s.cloakOf t, s.groupOfTrib t with
    | some (a, c), some g =>
      let s := s.setCtx a (some { c with flipPending := true, flipIndex := itemAt item 6 1 % 4, flipSheaf := n })
      s.setPages g (fun p => { p with flip := some (t, n) })
    | _, _ => s))

/-- A slot commit of the lead: OP 1 with the wrapped key, OP 2 through Fallow. -/
def State.kvtCommitItem (s : State) (c op : Nat) (attr : Word) (wrapped : List Byte) : State :=
  if op = 2 then (s.eraseSlot c .nobody).1
  else
    match Config.kwUnwrap (s.keyOf pairKeySlot) wrapped with
    | none => s.declareClass 5
    | some key =>
      let s := (s.installKey c key attr).kvtCount 0
      let s := match s.ctx (c / 2) with
        | some x => if x.kind = 1 ∧ c < vaultBase then (s.startRxSa (c / 2) (c % 2) .nobody).1 else s
        | none => s
      (s.sealSlot c (slice key 0 (attrBytes attr)) attr .nobody).1

/-- KVT_COMMIT (R410). -/
def execKvtCommit (item : List Byte) (s : State) : Host.Outcome State Fault Refusal :=
  .next (s.decision (itemOk 0x09 56 item) (fun s =>
    match slotOfWord (itemAt item 4 4) with
    | none => s
    | some c =>
      if s.applies 5 c then s.kvtCommitItem c (itemAt item 12 1) (BitVec.ofNat 32 (itemAt item 8 4)) (slice item 16 40) else s))

/-- REG_WRITE (R430): a committed host write of the lead. -/
def execRegWrite (item : List Byte) (s : State) : Host.Outcome State Fault Refusal :=
  .next (s.decision (itemOk 0x0A 12 item) (fun s =>
    let off := itemAt item 4 4
    if conveyed off ∧ s.applies 6 off then s.regEffect 0 off (BitVec.ofNat 32 (itemAt item 8 4)) else s))

/-- The place of a Scheduler table word among the words of TABLE 6 of R450: the spec gives registers alone an offset. -/
def tblOffset (table i w : Nat) : Nat := 2 ^ 31 + table * 2 ^ 28 + i * 16 + w * 4

/-- SCH_COMMIT (R430). -/
def execSchCommit (item : List Byte) (s : State) : Host.Outcome State Fault Refusal :=
  .next (s.decision (itemOk 0x0B 24 item) (fun s =>
    let t := itemAt item 4 1
    let i := itemAt item 5 3
    if t < 3 ∧ s.applies 6 (tblOffset t i 0) then
      s.tblWrite t i ((List.range 4).map (fun w => BitVec.ofNat 32 (itemAt item (8 + 4 * w) 4)))
    else s))

/-- TIMEMAP (R429): the map of a channel for a sheaf, in 2^-32 ns. -/
def execTimemap (item : List Byte) (s : State) : Host.Outcome State Fault Refusal :=
  .next (s.decision (itemOk 0x0C 28 item) (fun s =>
    let n := itemAt item 6 6
    let t := (itemAt item 12 6 * 1000000000 + itemAt item 18 4) * 2 ^ 32 + itemAt item 22 2 * 65536
    s.setChan (itemAt item 4 1) (fun c => { c with maps := ((n, t, itemAt item 24 4) :: c.maps).take 5 })))

/-- The APS state of a pair as the lead conveys it, from the sheaf that the item names; a sheaf that has begun already takes it at
once. -/
def State.apsItem (s : State) (k sel bridge sheaf : Nat) (aps : List Byte) : State :=
  let x : ApsState := ⟨sheaf, sel, bridge, ofBe (slice aps 0 1) / 16, ofBe (slice aps 1 1)⟩
  (s.setPair k (fun p => { p with ahead := p.ahead ++ [x] })).apsDue k

/-- A RIX item: KIND 1 APS state, 2 a transmit swap, 3 a receive swap, announced for a sheaf. -/
def State.rixItem (s : State) (kind k v sheaf : Nat) (aps : List Byte) : State :=
  match kind with
  | 1 => if k < 8 then s.apsItem k (v / 2 % 2) (v % 2) sheaf aps else s
  | 2 => if (s.gpages k).txActive = v % 2 then s else s.setPages k (fun p => { p with txSwap := some sheaf })
  | 3 => if (s.gpages k).rxActive = v % 2 then s else s.setPages k (fun p => { p with rxSwap := some sheaf })
  | _ => s

/-- RIX (R200). -/
def execRixItem (item : List Byte) (s : State) : Host.Outcome State Fault Refusal :=
  .next (s.decision (itemOk 0x0D 16 item) (fun s =>
    s.rixItem (itemAt item 4 1) (itemAt item 5 1 % 16) (itemAt item 6 1) (itemAt item 10 6) (slice item 7 3)))

/-- INJECT (R431): the frame that software injected on the lead is admitted here too. The item carries no class. -/
def execStreamInject (item : List Byte) (s : State) : Host.Outcome State Fault Refusal :=
  let len := itemAt item 6 2
  .next (s.decision (itemVar 0x0E item && item.length == 12 + len + len % 2) (fun s =>
    let (k, s) := s.draw
    let l := itemAt item 8 4
    let f := newFrame s (slice item 12 len) 544 true 0xFFFF (itemAt item 4 2 % 1024) (Config.freeNat k % 8) true
    if f.output < 544 then s.admitFrame { f with whole := true, launch := if l = 0 then none else some l } true else s))

/-! ## Divergence, yielding, handover -/

/-- DIVERGE (R443, R444): the lead names the entry, the class and the twin that mutes. -/
def execStreamDiverge (item : List Byte) (s : State) : Host.Outcome State Fault Refusal :=
  .next (s.decision (itemOk 0x0F 12 item) (fun s =>
    let lead := itemAt item 11 1 == 1
    let s := s.recordDivergence (itemAt item 8 2) (itemAt item 10 1) lead
    let s := { s with yok := { s.yok with clean := 0 } }
    if lead = false ∧ s.ctl.mode = .yokeFollower then (s.note Ev.yokeDiverged).divertResync else s))

/-- YIELD (R445): the lead's transmitters stop at B_MUTE. -/
def execStreamYield (item : List Byte) (s : State) : Host.Outcome State Fault Refusal :=
  .next (s.decision (itemOk 0x10 16 item) (fun s => { s with yok := { s.yok with bMute := some (itemAt item 4 8) } }))

/-- HANDOVER (R448): the lead hands over at B_H. -/
def execHandoverItem (item : List Byte) (s : State) : Host.Outcome State Fault Refusal :=
  .next (s.decision (itemOk 0x11 12 item) (fun s => { s with yok := { s.yok with bHand := some (itemAt item 4 8) } }))

/-! ## Marks (R438) -/

/-- A follower stores the lead's mark; its ACK_MARK follows when the store is durable. -/
def State.markItem (s : State) (kind a m : Nat) : State :=
  let s := { s with yok := { s.yok with marks := s.yok.marks ++ [MarkWait.mk kind a m false true] } }
  if kind = 3 then s.storeSheafMark m
  else
    match s.ctx a with
    | none => s
    | some c =>
      let r := s.pnRec a
      let r := if kind = 1 then { r with txMark := m, txFp := s.fpOf (slotOf a c.txSlot), txSlot := c.txSlot == 1 }
               else { r with rxMark := m, rxFp := s.fpOf (slotOf a c.rxPrimary), rxSlot := c.rxPrimary == 1 }
      (s.storePn a r .nobody).1

/-- MARK (R438). -/
def execStreamMark (item : List Byte) (s : State) : Host.Outcome State Fault Refusal :=
  .next (s.decision (itemOk 0x14 16 item) (fun s =>
    let k := itemAt item 4 1
    if 1 ≤ k ∧ k ≤ 3 then s.markItem k (if k = 3 then 0 else itemAt item 6 2) (itemAt item 8 8) else s))

/-- The twin has a mark durable: those that are durable here too take effect. -/
def State.ackMark (s : State) (kind a m : Nat) : State :=
  let hit := fun (w : MarkWait) => w.kind == kind && w.assoc == a && decide (w.mark ≤ m) && !w.acked
  let due := s.yok.marks.filter (fun w => hit w && w.stored)
  let s := { s with yok := { s.yok with marks := s.yok.marks.map (fun w => if hit w then { w with acked := true } else w) } }
  (due.foldl State.applyMark s).dropMarks

/-- ACK_MARK (R438). -/
def execAckMark (item : List Byte) (s : State) : Host.Outcome State Fault Refusal :=
  .next (s.reverse (itemOk 0x20 16 item) (fun s => s.ackMark (itemAt item 4 1) (itemAt item 6 2) (itemAt item 8 8)))

/-! ## The reverse stream -/

/-- The follower's defects (R439): the lead evaluates R195 over both twins' at the next sheaf boundary (R199, R200), and a defect that
only the twin has starts the hold-off too. -/
def State.takeDefects (s : State) (sf sd : Nat) : State :=
  let was := (List.range 16).map (fun g => (g, s.apsSf g, s.apsSd g))
  let s := { s with rows := { s.rows with twinSf := sf, twinSd := sd } }
  was.foldl (fun (s : State) (x : Nat × Bool × Bool) => s.holdoffFollows x.1 x.2.1 x.2.2) s

/-- DEFECTS (R439): the lead evaluates its pairs over both twins' defects. -/
def execStreamDefects (item : List Byte) (s : State) : Host.Outcome State Fault Refusal :=
  .next (s.reverse (itemOk 0x21 12 item) (fun s =>
    s.takeDefects (itemAt item 4 2) (itemAt item 6 2)))

/-- The lead declares a divergence and conveys it; a muted lead raises YOKE_LEAD_DIVERGED (R443, R444). -/
def State.leadDeclares (s : State) (interval entry cls : Nat) (lead : Bool) : State :=
  let s := s.recordDivergence entry cls lead
  let s := s.convey 0x0F (beBytes 4 interval ++ beBytes 2 entry ++ beBytes 1 cls ++ beBytes 1 (flag lead))
  if lead then s.raise Ev.yokeLeadDiverged else s

/-- The twin's digests of an interval meet the lead's (R442, R443 class 1). -/
def State.compareDigests (s : State) (x : Interval) (item : List Byte) : State :=
  let differs := (List.range 560).filter (fun e => SMap.get zeroOf x.digest e != itemAt item (78 + 8 * e) 8)
  let excused := fun (e : Nat) => x.excused.contains e || (itemAt item (8 + e / 8) 1).testBit (e % 8)
  let s := { s with yok := { s.yok with past := s.yok.past.filter (fun y => y.no != x.no) } }
  let s := s.incBy (Reg.yokCountLo 7) (differs.filter excused).length
  match differs.filter (fun e => !excused e) with
  | [] => s
  | e :: _ => s.leadDeclares (x.no % 2 ^ 32) e 1 (decide (0 < s.yok.suspect))

/-- DIGEST (R442). -/
def execStreamDigest (item : List Byte) (s : State) : Host.Outcome State Fault Refusal :=
  .next (s.reverse (itemOk 0x22 4558 item) (fun s =>
    match s.yok.past.find? (fun x => x.no % 2 ^ 32 == itemAt item 4 4) with
    | some x => s.compareDigests x item
    | none => s))

/-- REPAIR_REQ (R437): the lead conveys the entry. -/
def execRepairReq (item : List Byte) (s : State) : Host.Outcome State Fault Refusal :=
  .next (s.reverse (itemOk 0x23 8 item) (fun s =>
    let i := itemAt item 4 4
    if i < 262144 then s.altWrite i (s.altAt i) else s))

end Sys2Proof.Machine
end

