-- ==== Sys2Proof/Machine/YokeCopy.lean ====
section
/-! DEFINITION. Resync copies (R449, R450): what a lead sends as COPY and SNAP, and how a resyncing twin installs it. -/

namespace Sys2Proof.Machine

open Sys2Proof

/-! ## Sending -/

/-- A COPY or SNAP item. -/
def copyBytes (table first : Nat) (b : List Byte) : List Byte := beBytes 1 table ++ zeroBytes 3 ++ beBytes 4 first ++ b

/-- Entries of w bytes of a table, as many to an item as LENGTH holds. -/
def State.sendTable (s : State) (type table w : Nat) (es : List (List Byte)) : State :=
  let n := 65520 / w
  (List.range ((es.length + n - 1) / n)).foldl (fun (s : State) i =>
    s.convey type (copyBytes table (n * i) ((es.drop (n * i)).take n).flatten)) s

/-- The Device Window offsets of a register row. -/
def dimOffsets : Nat → List Dim → List Nat
  | o, [] => [o]
  | o, d :: ds => (List.range (d.stop - d.first)).flatMap (fun i => dimOffsets (o + i * d.stride) ds)

/-- The registers of R430. -/
def conveyedOffsets : List Nat :=
  ([3, 4, 5, 6, 8].flatMap regRowsOf).flatMap (fun r => (dimOffsets r.base r.dims).filter conveyed)

/-- A word of TABLE 6: its offset and value. -/
def copyWord (off : Nat) (v : Word) : List Byte := beBytes 4 off ++ beBytes 4 v.toNat

/-- The words of a Scheduler table that host software writes. -/
def State.tblWords (s : State) (table size k : Nat) : List (List Byte) :=
  (List.range size).flatMap (fun i => (List.range k).map (fun w => copyWord (tblOffset table i w) ((s.tblRead table i).getD w 0)))

/-- The 12 bytes of an SCI index slot (SCI_COMMIT bytes 8 to 19). -/
def sciBytes (e : Option SciKey) : List Byte :=
  match e with
  | some x => beBytes 1 (128 + x.domain) ++ beBytes 1 0 ++ slice x.sci 0 8 ++ beBytes 2 x.assoc
  | none => zeroBytes 12

/-- The lead sends COPY of the static tables in table order. Hash seeds stand before the first ALT entry. -/
def State.sendCopy (s : State) : State :=
  let alt := (List.range 262144).map (fun i => match s.altAt i with | some e => e.bytes | none => zeroBytes 32)
  let seeds := beBytes 4 (s.rd Reg.clsHashSeed0).toNat ++ beBytes 4 (s.rd Reg.clsHashSeed1).toNat
  let s := s.convey 0x12 (copyBytes 1 0 seeds)
  let s := s.sendTable 0x12 1 32 alt
  let s := s.sendTable 0x12 2 4 ((List.range 4096).map (fun i => beBytes 4 (s.rd (Reg.clsFlood 0 i)).toNat))
  let s := s.sendTable 0x12 3 16 ((List.range 131072).map (fun i => beBytes 4 i ++ sciBytes (s.sciAt i)))
  let s := s.sendTable 0x12 4 128 ((List.range 65536).map (fun a => match s.ctx a with | some c => slice c.head 0 128 | none => zeroBytes 128))
  let s := s.sendTable 0x12 5 48 (s.kvt.slots.filterMap (fun e => match e.2 with
    | some k => if e.1 < vaultBase ∧ attrYoke k.attr ∧ k.usable then
        some (beBytes 4 (slotWord e.1) ++ beBytes 4 k.attr.toNat ++ slice (Config.kwWrap (s.keyOf pairKeySlot) (slice (s.keyOf e.1) 0 32)) 0 40)
      else none
    | none => none))
  s.sendTable 0x12 6 8 (conveyedOffsets.map (fun o => copyWord o (s.rd o)) ++ s.tblWords 0 65536 3 ++ s.tblWords 1 65536 2 ++
    s.tblWords 2 1114112 2)

/-- TABLE 17: 1 B KIND (0 bucket, 1 deficit, 2 gate), 3 B key, 12 B: what a bucket lacks, a deficit, or the entry and the
start of the cycle of a gate list. -/
def State.snapBuckets (s : State) : List (List Byte) :=
  s.sch.buckets.map (fun e => beBytes 1 0 ++ beBytes 3 e.1 ++ beBytes 12 (match e.2 with | some b => b.below | none => 0)) ++
  s.sch.deficit.map (fun e => beBytes 1 1 ++ beBytes 3 e.1 ++ beBytes 12 e.2) ++
  s.sch.gates.map (fun e => beBytes 1 2 ++ beBytes 3 e.1 ++ (match e.2 with
    | some g => beBytes 4 g.entry ++ beBytes 8 g.cycleAt
    | none => zeroBytes 12))

/-- What is left until due, in units of 100 ms, rounded up. -/
def leftOf (due now : Nat) : Nat := (due - now + 99999999) / 100000000

/-- TABLE 19: 1 B KIND (0 pair, 1 group, 2 sheaf mark), 1 B number, 14 B; a pair's last three hold what is left of its hold-off and of
its WTR time. -/
def State.snapRows (s : State) : List (List Byte) :=
  (List.range 8).map (fun k =>
    let p := s.pair k
    beBytes 1 0 ++ beBytes 1 k ++ [p.cmd, p.local_, p.sent, p.sentSig, p.position, p.bridge, p.selector, flag p.holdRun, flag p.holdDone,
      flag p.wtr, flag p.mismatch, leftOf p.holdDue s.now].flatMap (beBytes 1) ++ beBytes 2 (leftOf p.wtrDue s.now)) ++
  (List.range 16).map (fun g =>
    let p := s.gpages g
    let when_ := fun (x : Option Nat) => match x with | some n => beBytes 6 n | none => beBytes 6 (2 ^ 48 - 1)
    beBytes 1 1 ++ beBytes 1 g ++ beBytes 1 p.txActive ++ beBytes 1 p.rxActive ++ when_ p.txSwap ++ when_ p.rxSwap) ++
  [beBytes 1 2 ++ beBytes 1 0 ++ beBytes 8 s.line.mark ++ zeroBytes 6]

/-- The lead sends SNAP of its dynamic state at the cut-in. -/
def State.sendSnap (s : State) : State :=
  let s := s.sendTable 0x13 16 128 ((List.range 65536).map (fun a => match s.ctx a with
    | some c => slice (s.ctxTail c) 0 128
    | none => zeroBytes 128))
  let s := s.sendTable 0x13 17 16 s.snapBuckets
  let s := s.sch.queues.foldl (fun (s : State) e =>
    let ls := e.2.map (fun q => match s.frame? q.frame with | some f => f.bytes.length | none => 0)
    let n := 32000
    (List.range ((ls.length + n - 1) / n)).foldl (fun (s : State) i =>
      s.convey 0x13 (copyBytes 18 (n * i) (beBytes 4 e.1 ++ ((ls.drop (n * i)).take n).flatMap (beBytes 2)))) s) s
  s.sendTable 0x13 19 16 s.snapRows

/-! ## Installing -/

/-- The records of w bytes of an item's entries. -/
def entriesOf (w : Nat) (b : List Byte) : List (List Byte) := (List.range (b.length / w)).map (fun i => slice b (w * i) w)

/-- Entries with their index in the table. -/
def indexed (first : Nat) (es : List (List Byte)) : List (Nat × List Byte) := (List.range es.length).map (fun i => (first + i, es.getD i []))

/-- A context of which bytes 0 to 127 are the lead's; STALE holds it no longer (R440). -/
def State.copyCtx (s : State) (a : Nat) (b : List Byte) : State :=
  if ofBe (slice b 0 1) = 0 then s.setCtx a none else s.setCtx a (some (Ctx.create (b ++ zeroBytes 384) 0))

/-- A register of R430 as the lead holds it: enabled ports come up, shapers and quotas follow; connection memories stand whatever page
is active. -/
def State.copyReg (s : State) (off : Nat) (v : Word) : State :=
  match regRowAt off with
  | none => s
  | some r =>
    let i := r.index off
    if r.base = Reg.lnfGrpCtrl 0 then s.portEnableEffect true i v
    else if r.base = Reg.lnfEthCtrl 0 then s.portEnableEffect false i v
    else if r.base = Reg.rixPairCfg 0 then (s.wr off v).setPair i (fun _ => Pair.reset)
    else if r.base = Reg.schGateCfg 0 then s.writeGateCfg i v
    else
      match shapedBy r.base i with
      | some b => s.reshape b (fun s => s.wr off v)
      | none => (s.wr off v).afterWrite 0 r.base (s.rd off) v

/-- A word of TABLE 6. -/
def State.copyOne (s : State) (b : List Byte) : State :=
  let off := ofBe (slice b 0 4)
  let v := BitVec.ofNat 32 (ofBe (slice b 4 4))
  if off < 2 ^ 31 then (if conveyed off then s.copyReg off v else s)
  else
    let t := (off - 2 ^ 31) / 2 ^ 28
    let i := off % 2 ^ 28 / 16
    let w := off % 16 / 4
    if t < 3 then s.tblWrite t i ((s.tblRead t i).set w v) else s

/-- A COPY item is installed; its table's pointer moves past it. -/
def State.copyItem (s : State) (table first : Nat) (b : List Byte) : State :=
  let to_ := fun (s : State) (n : Nat) => { s with yok := { s.yok with copied := SMap.set zeroOf s.yok.copied table n } }
  match table with
  | 1 =>
    if b.length = 8 then
      (s.wr Reg.clsHashSeed0 (BitVec.ofNat 32 (ofBe (slice b 0 4)))).wr Reg.clsHashSeed1 (BitVec.ofNat 32 (ofBe (slice b 4 4)))
    else
      let es := indexed first (entriesOf 32 b)
      to_ (es.foldl (fun (s : State) e => s.takeAlt e.1 e.2) s) (first + es.length)
  | 2 =>
    let es := indexed first (entriesOf 4 b)
    to_ (es.foldl (fun (s : State) e => s.wr (Reg.clsFlood 0 e.1) (BitVec.ofNat 32 (ofBe e.2))) s) (first + es.length)
  | 3 =>
    let es := indexed first (entriesOf 16 b)
    to_ (es.foldl (fun (s : State) e => s.takeSci (ofBe (slice e.2 0 4)) (slice e.2 4 12)) s) (first + es.length)
  | 4 =>
    let es := indexed first (entriesOf 128 b)
    to_ (es.foldl (fun (s : State) e => s.copyCtx e.1 e.2) s) (first + es.length)
  | 5 =>
    let es := entriesOf 48 b
    let last := match es.getLast? with | some e => (slotOfWord (ofBe (slice e 0 4))).getD 0 + 1 | none => first
    to_ (es.foldl (fun (s : State) e => match slotOfWord (ofBe (slice e 0 4)) with
      | some c => s.kvtCommitItem c 1 (BitVec.ofNat 32 (ofBe (slice e 4 4))) (slice e 8 40)
      | none => s) s) last
  | 6 =>
    let es := entriesOf 8 b
    let last := match es.getLast? with | some e => ofBe (slice e 0 4) + 1 | none => first
    to_ (es.foldl State.copyOne s) last
  | _ => s

/-- COPY (R450), in step Y2. -/
def execStreamCopy (item : List Byte) (s : State) : Host.Outcome State Fault Refusal :=
  .next (s.decision (itemVar 0x12 item) (fun s =>
    if s.ctl.mode = .yokeResync ∧ s.yok.step = 2 then s.copyItem (itemAt item 4 1) (itemAt item 8 4) (item.drop 12) else s))

/-- Bytes 128 to 255 of a context are the lead's; every PN at or below each slot's highest counts as seen; the marks are
stored here too (R449 step Y4, R450). -/
def State.snapCtx (s : State) (a : Nat) (b : List Byte) : State :=
  match s.ctx a with
  | none => s
  | some c =>
    let n := fun (o : Nat) => ofBe (slice b o 8)
    let st := ofBe (slice b 80 4)
    let flip := n 72
    let c := { c with
      txNext := n 0, txMark := n 8, rxHigh0 := n 16, rxHigh1 := n 24, rxMark := n 32, rxOldMark := n 40, smallMap := 2 ^ 64 - 1
      sheafTop := n 56, sheafMap := n 64, flipPending := flip.testBit 63, flipIndex := flip / 2 ^ 48 % 4, flipSheaf := flip % 2 ^ 48
      poisoned := st.testBit 31, softSeen := st.testBit 30, exhausted := st.testBit 29, txSlot := st / 2 ^ 28 % 2
      rxPrimary := st / 2 ^ 27 % 2, fresh1 := st.testBit 26, fresh0 := st.testBit 25, txWait := st.testBit 24
      holdLeft := if st % 65536 = 0 then 0 else s.now + st % 65536 * 1000000, seen := allSeen, held := false }
    let s := s.setCtx a (some c)
    if c.kind = 1 then (s.markItem 1 a c.txMark).markItem 2 a c.rxMark else s

/-- A bucket, deficit or gate position. -/
def State.snapBucket (s : State) (b : List Byte) : State :=
  let k := ofBe (slice b 1 3)
  match ofBe (slice b 0 1) with
  | 0 => s.setBelow k (ofBe (slice b 4 12)) 0
  | 1 => { s with sch := { s.sch with deficit := SMap.set zeroOf s.sch.deficit k (ofBe (slice b 4 12)) } }
  | 2 =>
    let e := ofBe (slice b 4 4)
    let at_ := ofBe (slice b 8 8)
    let ends := at_ + (((s.spans k).take (e + 1)).map (·.2)).sum
    s.setGate k { s.gate k with entry := e, cycleAt := at_, endsAt := ends, running := true }
  | _ => s

/-- A phantom of len bytes stands in queue k. A direct FIFO does not tell its frames' associations, which are free. -/
def State.snapFrame (s : State) (k len : Nat) : State :=
  let id := s.sch.nextId
  let b := zeroBytes len
  let (a, s) := if k < 65536 then (k, s) else s.freeAssoc
  let o := (k - 65536) / 8
  let (out, cls) := if k < 65536 then (match s.ctx a with | some c => (c.encOut, c.encClass) | none => (0, 0)) else (o, (k - 65536) % 8)
  let enc := decide (k < 65536) || decide (16 ≤ o)
  let f := { newFrame s b 544 enc a out cls (decide (65536 ≤ k)) with
    id := id, phantom := true, whole := true, cells := cellsOf len, refs := 1, verdict := some true }
  let s := { s with sch := { s.sch with nextId := id + 1 } }
  (((s.setFrame id (some f)).addCells enc (cellsOf len) 0).setQueue k (s.queue k ++ [⟨id, a, s.arrivalOn out f⟩]))

/-- A pair, a group, or the sheaf mark, which is the last entry: Y4 ends with it. -/
def State.snapRow (s : State) (b : List Byte) : State :=
  let k := ofBe (slice b 1 1)
  let n := fun (i : Nat) => ofBe (slice b (2 + i) 1)
  match ofBe (slice b 0 1) with
  | 0 => s.setPair k (fun p => { p with
      cmd := n 0, local_ := n 1, sent := n 2, sentSig := n 3, position := n 4, bridge := n 5, selector := n 6, holdRun := n 7 == 1
      holdDone := n 8 == 1, wtr := n 9 == 1, mismatch := n 10 == 1
      holdDue := s.now + n 11 * 100000000, wtrDue := s.now + ofBe (slice b 14 2) * 100000000 })
  | 1 =>
    let when_ := fun (v : Nat) => if v = 2 ^ 48 - 1 then none else some v
    s.setPages k (fun p => { p with
      txActive := n 0, rxActive := n 1, txSwap := when_ (ofBe (slice b 4 6)), rxSwap := when_ (ofBe (slice b 10 6)) })
  | 2 => (s.markItem 3 0 (ofBe (slice b 2 8))).resyncStep 5
  | _ => s

/-- A SNAP item is installed. -/
def State.snapItem (s : State) (table first : Nat) (b : List Byte) : State :=
  match table with
  | 16 => (indexed first (entriesOf 128 b)).foldl (fun (s : State) e => s.snapCtx e.1 e.2) s
  | 17 => (entriesOf 16 b).foldl State.snapBucket s
  | 18 => (entriesOf 2 (b.drop 4)).foldl (fun (s : State) l => s.snapFrame (ofBe (slice b 0 4)) (ofBe l)) s
  | 19 => (entriesOf 16 b).foldl State.snapRow s
  | _ => s

/-- SNAP (R450), in step Y4. -/
def execStreamSnap (item : List Byte) (s : State) : Host.Outcome State Fault Refusal :=
  .next (s.decision (itemVar 0x13 item) (fun s =>
    if s.ctl.mode = .yokeResync ∧ s.yok.step = 4 then s.snapItem (itemAt item 4 1) (itemAt item 8 4) (item.drop 12) else s))

end Sys2Proof.Machine
end

