-- ==== Sys2Proof/Machine/Yoke.lean ====
section
/-! DEFINITION. The Yoke's link, pairing, digest intervals, promotion, handover and resync (chapter 13). -/

namespace Sys2Proof.Machine

open Sys2Proof

/-! ## Pairing (R413 to R417) -/

/-- PAIRING_MESSAGE (R413 to R415): a twin that pairs takes it; a lead whose twin is lost pairs on its twin's request; else the
newest message waits for this module's own request. -/
def execPairingMessage (msg : List Byte) (s : State) : Host.Outcome State Fault Refusal :=
  match s.yok.pairing with
  | some x => .next (s.takePairMessage x msg)
  | none =>
    if s.loneLead then
      let s := s.startPairing
      match s.yok.pairing with
      | some x => .next (s.takePairMessage x msg)
      | none => .next s
    else
      let old := fun (i : Instr) => match i with | .pairingMessage _ => true | _ => false
      .next { s with held := s.held.filter (fun i => !old i) ++ [.pairingMessage msg] }

/-- PAIR_CONFIRM (R416, R417): CONFIRM of the peer's role under the pair key. -/
def execPairConfirm (confirm : List Byte) (s : State) : Host.Outcome State Fault Refusal :=
  match s.yok.pairing with
  | none => .next s
  | some x =>
    if x.key = [] then .next s
    else if confirm = confirmOf x.key (flag x.initiator) then .next s.pairDone
    else .next ((s.eraseSlot pairKeySlot .nobody).1.pairFail 7)

/-! ## The Dithal link (R418 to R420) -/

/-- A cell of R419 taken apart. -/
structure DithalIn where
  good : Bool
  kind : Nat
  seq : Nat
  ack : Nat
  nak : Bool
  deriving DecidableEq, Repr

def DithalIn.of (b : List Byte) : DithalIn :=
  let k := itemAt b 2 1
  { good := b.length == 272 && slice b 0 2 == [0xD1#8, 0x7A#8] && slice b 268 4 == beBytes 4 (crc32 (slice b 0 268)) &&
      decide (k / 64 < 2) && decide (k / 16 % 4 < 3)
    kind := k / 64, seq := itemAt b 4 3, ack := itemAt b 7 3, nak := (itemAt b 10 1).testBit 7 }

/-- A lane gains lock after 3 good cells in a row and loses it after 4 bad ones (R418). -/
def State.laneCell (s : State) (n : Nat) (good : Bool) : State :=
  let y := s.yok
  let run := SMap.get zeroOf y.laneRun n + 1
  let put := fun (lanes r : Nat) => { s with yok := { y with lanes := lanes, laneRun := SMap.set zeroOf y.laneRun n r } }
  if y.lanes.testBit n then
    if good then put y.lanes 0 else if 4 ≤ run then put (y.lanes - 2 ^ n) 0 else put y.lanes run
  else if good then (if 3 ≤ run then put (y.lanes + 2 ^ n) 0 else put y.lanes run)
  else put y.lanes 0

/-- The lead is silent (R447); one that has yielded only where yielded is true. -/
def State.leadSilent (s : State) (yielded : Bool) : State :=
  if s.ctl.mode = .yokeFollower ∧ s.yok.twinLost = false ∧ (s.yok.bMute = none ∨ yielded) then
    (({ s with yok := { s.yok with twinLost := true, muted := true } }).note Ev.yokeLeadSilent).reportState
  else s

/-- The link goes down: DITHAL_DOWN; nothing of either stream is kept. A lead has lost its twin, a follower its lead. -/
def State.dithalDown (s : State) : State :=
  let s := { s with yok := { s.yok with unacked := [], txWait := [], nextSeq := 0, expect := 0, discarding := false } }
  ((s.note Ev.dithalDown).twinGone).leadSilent false

/-- The link comes up: a lead whose twin is lost and that initiates asks for a new pairing. -/
def State.dithalUp (s : State) : State :=
  let s := s.note Ev.dithalUp
  if s.loneLead ∧ s.pow.yokePos = false then s.startPairing else s

/-- An idle cell leaves: it carries ACK and NAK. -/
def State.idleCell (s : State) : State := s.emitCell 0 ⟨s.yok.nextSeq, 0, [], 0, 0⟩

/-- Cells up to ACK are acknowledged; half the round trip of the newest that was sent once. -/
def State.takeAck (s : State) (ack : Nat) : State :=
  let hit := fun (c : DCell) => decide ((ack + 0x1000000 - c.seq) % 0x1000000 < 0x800000)
  let one := match (s.yok.unacked.filter (fun c => hit c && c.sends == 1)).getLast? with
    | some c => (s.now - c.sentAt) / 2
    | none => s.yok.oneWay
  { s with yok := { s.yok with unacked := s.yok.unacked.filter (fun c => !hit c), oneWay := one } }

/-- Every unacknowledged cell is sent again. -/
def State.resend (s : State) : State :=
  let cs := s.yok.unacked.map (fun c => { c with sends := c.sends + 1, sentAt := s.now })
  let s := { s with yok := { s.yok with unacked := cs } }
  (cs.foldl (fun (s : State) c => s.emitCell 1 c) s).incBy (Reg.yokCountLo 5) cs.length

/-- A cell was sent 4 times without acknowledgement: the lanes are retrained. -/
def State.retrain (s : State) : State := ({ s with yok := { s.yok with lanes := 0, laneRun := [] } }).dithalDown

/-- NAK or the 2 µs limit: the cells go again, unless one has been sent 4 times. -/
def State.resendOrDown (s : State) : State :=
  if s.yok.unacked.any (fun c => decide (4 ≤ c.sends)) then s.retrain else s.resend

/-- A cell on a link that is up (R420). -/
def State.linkCell (s : State) (c : DithalIn) : State :=
  if c.good = false then ({ s with yok := { s.yok with discarding := true } }).idleCell
  else
    let s := s.takeAck c.ack
    let s := if c.nak ∧ s.yok.unacked ≠ [] then s.resendOrDown else s
    let s :=
      if c.kind = 1 then
        if c.seq = s.yok.expect then ({ s with yok := { s.yok with expect := (c.seq + 1) % 0x1000000, discarding := false } }).idleCell
        else ({ s with yok := { s.yok with discarding := true } }).idleCell
      else s
    s.fillCells 512

/-- DITHAL_CELL_RECEIVE (R418 to R420): lanes that are not in use take nothing (R88). -/
def execDithalCellReceive (lane : Fin 4) (cell : List Byte) (s : State) : Host.Outcome State Fault Refusal :=
  if s.dithalOn = false then .next s else
  let c := DithalIn.of cell
  let was := s.yok.lanes
  let s := s.laneCell lane.val c.good
  if was ≠ 15 ∧ s.yok.lanes = 15 then .next s.dithalUp
  else if was = 15 ∧ s.yok.lanes ≠ 15 then .next s.dithalDown
  else if s.yok.lanes = 15 then .next (s.linkCell c)
  else .next s

/-- DITHAL_RESEND_TIMEOUT (R420): the oldest unacknowledged cell is 2 µs old. -/
def execDithalResendTimeout (s : State) : Host.Outcome State Fault Refusal :=
  .next (match s.yok.unacked with
    | [] => s
    | c :: _ => if s.now < c.sentAt + 2000 then s else s.resendOrDown)

/-! ## State of the twin (R428, R438, R449) -/

/-- The twin is in a mode with a resync step. -/
def State.twinState (s : State) (m step : Nat) : State :=
  let was := s.yok.twinMode
  let s := { s with yok := { s.yok with twinMode := m } }
  if m ≠ 7 ∧ m ≠ 8 then s.twinGone
  else
    let s := if was = 7 ∧ m = 8 then s.settleMarks else s
    if m = 8 ∧ step = 2 then s.sendCopy else s

/-- STATE (R428). -/
def execStateItem (item : List Byte) (s : State) : Host.Outcome State Fault Refusal :=
  .next (s.reverse (itemOk 0x24 12 item) (fun s => s.twinState (itemAt item 4 1) (itemAt item 8 4)))

/-! ## Digest intervals (R441 to R443, R448, R449) -/

/-- The DIGEST item of an interval. -/
def digestBytes (x : Interval) : List Byte :=
  let byte := fun (i : Nat) => ((List.range 8).map (fun b => if x.excused.contains (8 * i + b) then 2 ^ b else 0)).sum
  beBytes 4 x.no ++ (List.range 70).flatMap (fun i => beBytes 1 (byte i)) ++ (List.range 560).flatMap (fun e => beBytes 8 (SMap.get zeroOf x.digest e))

/-- T9: resync is complete. -/
def State.resyncDone (s : State) : State :=
  let s := s.setMode .yokeFollower
  let s := { s with yok := { s.yok with step := 0, muted := false } }
  (s.note Ev.yokeResyncDone).reportState

/-- A follower's intervals end: digests and defects are sent, clean intervals counted; two of them end a resync or a handover. -/
def State.followerInterval (s : State) : State :=
  let xs := s.yok.past
  let counts := decide (s.yok.step = 7) || s.ctl.mode == .yokeFollower
  let clean := if counts then xs.foldl (fun n x => if x.excused = [] then n + 1 else 0) s.yok.clean else 0
  let s := { s with yok := { s.yok with past := [], clean := clean } }
  let s := if counts then xs.foldl (fun (s : State) x => s.report 0x22 (digestBytes x)) s else s
  let s := s.reportDefects.queueDrained
  if s.yok.clean < 2 then s
  else if s.ctl.mode = .yokeResync ∧ s.yok.step = 7 then s.resyncDone
  else if s.ctl.mode = .yokeFollower ∧ s.yok.muted ∧ s.yok.twinLost = false then
    ({ s with yok := { s.yok with muted := false } }).reportState
  else s

/-- A lead's interval ends: a digest that has not come within 4 intervals is a class 2 divergence of a follower. -/
def State.leadInterval (s : State) : State :=
  let late := s.yok.past.filter (fun x => decide (x.no + 4 < s.yok.cur.no))
  let s := { s with yok := { s.yok with past := s.yok.past.filter (fun x => decide (s.yok.cur.no ≤ x.no + 4)) } }
  match late with
  | x :: _ => if s.yok.twinMode = 7 ∧ s.yok.twinLost = false then s.leadDeclares (x.no % 2 ^ 32) 0xFFFF 2 false else s
  | [] => s

/-- DIGEST_INTERVAL_END (R441 to R443). -/
def execDigestIntervalEnd (s : State) : Host.Outcome State Fault Refusal :=
  if s.ctl.mode.isYoke = false then .next s
  else
    let s := (s.inc (Reg.yokCountLo 6))
    let s := { s with yok := { s.yok with suspect := s.yok.suspect - 1 } }
    .next (if s.ctl.mode = .yokeLead then s.leadInterval else s.followerInterval)

/-- REPAIR_TIMEOUT (R443 class 6). -/
def execRepairTimeout (s : State) : Host.Outcome State Fault Refusal :=
  .next (if s.isFollower ∧ s.yok.repair.isSome then ({ s with yok := { s.yok with repair := none } }).declareClass 6 else s)

/-- YOKE_LOCK_LOST (R423, R443 class 4). -/
def execYokeLockLost (s : State) : Host.Outcome State Fault Refusal :=
  if s.isFollower ∧ s.yok.locked then
    let s := ({ s with yok := { s.yok with locked := false } }).note Ev.yokeLockLost
    .next (if s.ctl.mode = .yokeFollower then s.declareClass 4 else s)
  else .next s

/-- YOKE_FREQ_LOCKED (R423). -/
def execYokeFreqLocked (s : State) : Host.Outcome State Fault Refusal :=
  .next (if s.isFollower then { s with yok := { s.yok with locked := true } } else s)

/-! ## Promotion and handover (R445 to R448) -/

/-- LEAD_SILENT (R447): no EPOCH item for LOSS_US. A follower that promotes itself at B_MUTE waits for no more items (DEDUCED, log
entry 126). -/
def execLeadSilent (s : State) : Host.Outcome State Fault Refusal :=
  .next (if s.yok.heardAt + max 1 (s.fld Reg.yokCfg 27 24) * 1000 ≤ s.now then s.leadSilent (!s.flg Reg.yokCfg 16) else s)

/-- PROMOTION (R445): the follower reaches B_MUTE, and AUTO_PROMOTE is 1. -/
def execPromotion (s : State) : Host.Outcome State Fault Refusal :=
  .next (match s.yok.bMute with
    | some b => if s.ctl.mode = .yokeFollower ∧ s.flg Reg.yokCfg 16 ∧ b ≤ s.blockNo then s.promote else s
    | none => s)

/-- A command of YOK_CMD ends. -/
def State.yokEnd (s : State) (code : Nat) : State := s.result Reg.yokCmdResult code

/-- A write of YOK_CMD: busy first, then what the OP needs; code is evaluated on the state before the write. Any command clears
the arm. -/
def State.yokWrite (s : State) (path : Path) (op : Nat) (code : State → Nat) (act : State → State) : State :=
  let armed := s
  s.hostWrite path Reg.yokCmd (BitVec.ofNat 32 op) (fun s =>
    if s.yok.cmd.isSome then s.yokEnd 1
    else if code armed ≠ 0 then s.yokEnd (code armed) else act s)

/-- The first sheaf boundary at least 100 µs ahead, as a block. -/
def State.handoverBlock (s : State) : Nat := (s.blockNo + 312500 + 20499) / 20500 * 20500

/-- HANDOVER (R448): it ends at B_H. -/
def execYokHandover (path : Path) (s : State) : Host.Outcome State Fault Refusal :=
  .next (s.yokWrite path 1
    (fun s =>
      if s.ctl.mode ≠ .yokeLead then 2
      else if s.yok.lanes ≠ 15 then 4
      else if s.yok.twinMode ≠ 7 ∨ s.yok.twinLost then 5
      else 0)
    (fun s =>
      let b := s.handoverBlock
      let s := { s with yok := { s.yok with bHand := some b, cmd := some 1 } }
      s.convey 0x11 (beBytes 8 b)))

/-- T11: the lead becomes follower, muted, its block counter 2 × LAG_B back. -/
def State.handDown (s : State) : State :=
  let s := s.settleMarks
  let s := (s.setBlock (s.blockNo - 2 * s.lagBlocks)).startStream.setMode .yokeFollower
  let s := { s with yok := { s.yok with muted := true, locked := false, twinMode := 6, bHand := none, cmd := none } }
  let s := (s.storeStale true).yokEnd 0
  (s.note Ev.yokeHandover).reportState

/-- HANDOVER_TAKE_EFFECT (R448): block B_H is reached. -/
def execHandoverTakeEffect (s : State) : Host.Outcome State Fault Refusal :=
  .next (match s.yok.bHand with
    | none => s
    | some b =>
      if s.blockNo < b then s
      else if s.ctl.mode = .yokeLead then s.handDown
      else if s.ctl.mode = .yokeFollower then s.promote.note Ev.yokeHandover
      else { s with yok := { s.yok with bHand := none } })

/-- Transmit SAs resume at their durable marks (R447). -/
def State.resumeTx (s : State) : State :=
  let put := fun (e : Nat × Option Ctx) => (e.1, e.2.map (fun (c : Ctx) => if c.kind = 1 then { c with txNext := c.txMark } else c))
  let s := { s with asc := { s.asc with ctxs := s.asc.ctxs.map put } }
  (s.asc.ctxs.map (·.1)).foldl State.askMark s

/-- PROMOTE (R447), armed, on a follower whose lead is silent. -/
def execYokPromote (path : Path) (s : State) : Host.Outcome State Fault Refusal :=
  .next (s.yokWrite path 2
    (fun s =>
      if s.ctl.mode ≠ .yokeFollower then 2
      else if s.isArmed 11 = false then 3
      else if s.yok.twinLost = false then 6
      else 0)
    (fun s => (((s.discardFrames.promote).resumeSheaf).resumeTx).yokEnd 0))

/-! ## Resync (R449) -/

/-- RESYNC: on a muted twin. -/
def execYokResync (path : Path) (s : State) : Host.Outcome State Fault Refusal :=
  .next (s.yokWrite path 3
    (fun s =>
      if s.isFollower = false ∨ s.yok.muted = false then 2
      else if s.yok.lanes ≠ 15 then 4
      else 0)
    (fun s => (if s.ctl.mode = .yokeFollower then s.enterResync else s.beginResync).yokEnd 0))

/-- YOK_CMD_UNKNOWN: OP 4 to 15 end with CODE 7. OP 0 is no command, and a lower OP is another row's. -/
def execYokCmdUnknown (path : Path) (op : Fin 16) (s : State) : Host.Outcome State Fault Refusal :=
  if op.val = 0 then .next (s.hostWrite path Reg.yokCmd 0 id)
  else if op.val < 4 then .next s
  else .next (s.yokWrite path op.val (fun _ => 7) id)

/-- RESYNC_CUT_IN (R449 step Y3): the twin cuts in at a sheaf; the lead captures its state and sends SNAP. -/
def execResyncCutIn (s : State) : Host.Outcome State Fault Refusal :=
  if s.ctl.mode = .yokeResync ∧ s.yok.step = 2 then
    .next (s.resyncStep 4)
  else if s.ctl.mode = .yokeLead ∧ s.yok.twinMode = 8 then .next s.sendSnap
  else .next s

/-- RESYNC_S of YOK_CFG in ns; 0 acts as 1. -/
def State.resyncLimit (s : State) : Nat := max 1 (s.fld Reg.yokCfg 23 18) * 1000000000

/-- RESYNC_TIMEOUT (R449): RESYNC_S has passed before Y7. -/
def execResyncTimeout (s : State) : Host.Outcome State Fault Refusal :=
  .next (if s.ctl.mode = .yokeResync ∧ 0 < s.yok.step ∧ s.yok.resyncAt + s.resyncLimit ≤ s.now then
      ({ s with yok := { s.yok with resyncAt := s.now } }).note Ev.yokeResyncFail |>.resyncStep 0
    else s)

/-- RESYNC_RESTART (R449): 1 s after a failure, with AUTO_RESYNC 1. -/
def execResyncRestart (s : State) : Host.Outcome State Fault Refusal :=
  .next (if s.ctl.mode = .yokeResync ∧ s.yok.step = 0 ∧ s.flg Reg.yokCfg 17 ∧ s.yok.resyncAt + 1000000000 ≤ s.now then
      s.beginResync
    else s)

end Sys2Proof.Machine
end

