-- ==== Sys2Proof/Machine/Dispatch.lean ====
section
/-! DEFINITION. The meaning of each command: one arm per constructor. -/

namespace Sys2Proof.Machine

open Sys2Proof

def exec (i : Instr) (s : State) : Host.Outcome State Fault Refusal :=
  match i with
  | .registerWrite path off size val => Sys2Proof.Machine.execRegisterWrite path off size val s
  | .wideValueLowRead path off size => Sys2Proof.Machine.execWideValueLowRead path off size s
  | .rcFieldRead path off size => Sys2Proof.Machine.execRcFieldRead path off size s
  | .imageArmWrite path val => Sys2Proof.Machine.execImageArmWrite path val s
  | .kvtArmWrite path val => Sys2Proof.Machine.execKvtArmWrite path val s
  | .calArmWrite path val => Sys2Proof.Machine.execCalArmWrite path val s
  | .yokeArmWrite path val => Sys2Proof.Machine.execYokeArmWrite path val s
  | .bootEntry metaGood => Sys2Proof.Machine.execBootEntry metaGood s
  | .imageCandidateRead readOk => Sys2Proof.Machine.execImageCandidateRead readOk s
  | .mgdInitDone passed => Sys2Proof.Machine.execMgdInitDone passed s
  | .kvtUnsealDone => Sys2Proof.Machine.execKvtUnsealDone s
  | .calibrateEnd => Sys2Proof.Machine.execCalibrateEnd s
  | .autoServiceAttempt => Sys2Proof.Machine.execAutoServiceAttempt s
  | .writeOpen path slot => Sys2Proof.Machine.execWriteOpen path slot s
  | .writeChunk path slot n => Sys2Proof.Machine.execWriteChunk path slot n s
  | .chunkEnergyTimeout => Sys2Proof.Machine.execChunkEnergyTimeout s
  | .writeClose path slot readOk => Sys2Proof.Machine.execWriteClose path slot readOk s
  | .activate path slot => Sys2Proof.Machine.execActivate path slot s
  | .confirm path => Sys2Proof.Machine.execConfirm path s
  | .revert path => Sys2Proof.Machine.execRevert path s
  | .reboot path => Sys2Proof.Machine.execReboot path s
  | .copyGolden path slot => Sys2Proof.Machine.execCopyGolden path slot s
  | .imageErase path slot => Sys2Proof.Machine.execImageErase path slot s
  | .raiseFloor path n => Sys2Proof.Machine.execRaiseFloor path n s
  | .revokeAuth path k => Sys2Proof.Machine.execRevokeAuth path k s
  | .setTrialMax path n => Sys2Proof.Machine.execSetTrialMax path n s
  | .imageCmdUnknown path op => Sys2Proof.Machine.execImageCmdUnknown path op s
  | .goService path => Sys2Proof.Machine.execGoService path s
  | .goYoke path => Sys2Proof.Machine.execGoYoke path s
  | .goYokeTimeout => Sys2Proof.Machine.execGoYokeTimeout s
  | .modeStop path => Sys2Proof.Machine.execModeStop path s
  | .stopDrainEnd => Sys2Proof.Machine.execStopDrainEnd s
  | .selfTest path mask => Sys2Proof.Machine.execSelfTest path mask s
  | .selfTestEnd fail => Sys2Proof.Machine.execSelfTestEnd fail s
  | .unyoke path => Sys2Proof.Machine.execUnyoke path s
  | .moduleReset path => Sys2Proof.Machine.execModuleReset path s
  | .clearDegrade path => Sys2Proof.Machine.execClearDegrade path s
  | .modeCmdUnknown path op => Sys2Proof.Machine.execModeCmdUnknown path op s
  | .recoveryIslandsReleased scanGood => Sys2Proof.Machine.execRecoveryIslandsReleased scanGood s
  | .recoveryCauseCleared => Sys2Proof.Machine.execRecoveryCauseCleared s
  | .escalationWindowExpiry => Sys2Proof.Machine.execEscalationWindowExpiry s
  | .stewardWatchdog => Sys2Proof.Machine.execStewardWatchdog s
  | .storeRequest cls cost => Sys2Proof.Machine.execStoreRequest cls cost s
  | .storeRetryCheck => Sys2Proof.Machine.execStoreRetryCheck s
  | .storeComplete nor good => Sys2Proof.Machine.execStoreComplete nor good s
  | .clientFrameLookup port frame bad fixed => Sys2Proof.Machine.execClientFrameLookup port frame bad fixed s
  | .learnProbe bad fixed => Sys2Proof.Machine.execLearnProbe bad fixed s
  | .learnInsert bad fixed => Sys2Proof.Machine.execLearnInsert bad fixed s
  | .clsSearch path => Sys2Proof.Machine.execClsSearch path s
  | .searchNext path => Sys2Proof.Machine.execSearchNext path s
  | .clsInsert path replace noEvict => Sys2Proof.Machine.execClsInsert path replace noEvict s
  | .clsDelete path => Sys2Proof.Machine.execClsDelete path s
  | .flushByPort path port statics => Sys2Proof.Machine.execFlushByPort path port statics s
  | .flushDone => Sys2Proof.Machine.execFlushDone s
  | .digestSnap path => Sys2Proof.Machine.execDigestSnap path s
  | .clsCmdUnknown path op => Sys2Proof.Machine.execClsCmdUnknown path op s
  | .hashSeedWrite path one val => Sys2Proof.Machine.execHashSeedWrite path one val s
  | .reaperVisit bad fixed => Sys2Proof.Machine.execReaperVisit bad fixed s
  | .defaultBypass => Sys2Proof.Machine.execDefaultBypass s
  | .frameAdmit => Sys2Proof.Machine.execFrameAdmit s
  | .frameLastCell frame kept => Sys2Proof.Machine.execFrameLastCell frame kept s
  | .schPick output seen badCheck => Sys2Proof.Machine.execSchPick output seen badCheck s
  | .pickedFrameEnd output seen => Sys2Proof.Machine.execPickedFrameEnd output seen s
  | .gateChange path output val => Sys2Proof.Machine.execGateChange path output val s
  | .gateListTakeEffect output => Sys2Proof.Machine.execGateListTakeEffect output s
  | .gateEntryAdvance output => Sys2Proof.Machine.execGateEntryAdvance output s
  | .launchLate cq assoc => Sys2Proof.Machine.execLaunchLate cq assoc s
  | .schTblRead path table => Sys2Proof.Machine.execSchTblRead path table s
  | .schTblWrite path table => Sys2Proof.Machine.execSchTblWrite path table s
  | .schTblUnknown path table op => Sys2Proof.Machine.execSchTblUnknown path table op s
  | .mgdRead queue addr seen => Sys2Proof.Machine.execMgdRead queue addr seen s
  | .mgdWrite queue addr data seen sent => Sys2Proof.Machine.execMgdWrite queue addr data seen sent s
  | .spillLineVerdict frame addr seen => Sys2Proof.Machine.execSpillLineVerdict frame addr seen s
  | .verdictTimeout frame => Sys2Proof.Machine.execVerdictTimeout frame s
  | .tagBurstWindowEnd => Sys2Proof.Machine.execTagBurstWindowEnd s
  | .retillCmd path idx => Sys2Proof.Machine.execRetillCmd path idx s
  | .retillDone => Sys2Proof.Machine.execRetillDone s
  | .harrowStep seen => Sys2Proof.Machine.execHarrowStep seen s
  | .allotWindowWrite path allot keyIdx val => Sys2Proof.Machine.execAllotWindowWrite path allot keyIdx val s
  | .windowInitDone allot => Sys2Proof.Machine.execWindowInitDone allot s
  | .ctxRead path => Sys2Proof.Machine.execCtxRead path s
  | .ctxCreate path arg => Sys2Proof.Machine.execCtxCreate path arg s
  | .ctxWrite path => Sys2Proof.Machine.execCtxWrite path s
  | .ctxDelete path => Sys2Proof.Machine.execCtxDelete path s
  | .ascRotate path => Sys2Proof.Machine.execAscRotate path s
  | .ascFlip path arg => Sys2Proof.Machine.execAscFlip path arg s
  | .ascCmdUnknown path op => Sys2Proof.Machine.execAscCmdUnknown path op s
  | .lineFrameReceive input frame badCheck => Sys2Proof.Machine.execLineFrameReceive input frame badCheck s
  | .decryptFinalCheck frame => Sys2Proof.Machine.execDecryptFinalCheck frame s
  | .ctxWriteback assoc => Sys2Proof.Machine.execCtxWriteback assoc s
  | .oldHoldExpiry assoc => Sys2Proof.Machine.execOldHoldExpiry assoc s
  | .cloakSheafReceive trib sheaf data tag badCheck => Sys2Proof.Machine.execCloakSheafReceive trib sheaf data tag badCheck s
  | .cloakTagCheck trib => Sys2Proof.Machine.execCloakTagCheck trib s
  | .cipherBlockRelease pair item agree retryAgrees slack released => Sys2Proof.Machine.execCipherBlockRelease pair item agree retryAgrees slack released s
  | .mismatchWindowEnd pair => Sys2Proof.Machine.execMismatchWindowEnd pair s
  | .burstWindowEnd => Sys2Proof.Machine.execBurstWindowEnd s
  | .spareKatTick => Sys2Proof.Machine.execSpareKatTick s
  | .katDone pair pass => Sys2Proof.Machine.execKatDone pair pass s
  | .workItemEnd item => Sys2Proof.Machine.execWorkItemEnd item s
  | .fallowSquash item released => Sys2Proof.Machine.execFallowSquash item released s
  | .pairRetire path pair => Sys2Proof.Machine.execPairRetire path pair s
  | .pairKat path pair => Sys2Proof.Machine.execPairKat path pair s
  | .pairCmdUnknown path op pair => Sys2Proof.Machine.execPairCmdUnknown path op pair s
  | .lookasideJob allot ring desc => Sys2Proof.Machine.execLookasideJob allot ring desc s
  | .lookasideAdmit src fetched seen badCheck => Sys2Proof.Machine.execLookasideAdmit src fetched seen badCheck s
  | .lookasideComplete job written seen => Sys2Proof.Machine.execLookasideComplete job written seen s
  | .kvtLoad path => Sys2Proof.Machine.execKvtLoad path s
  | .importKw path => Sys2Proof.Machine.execImportKw path s
  | .kvtGenerate path => Sys2Proof.Machine.execKvtGenerate path s
  | .kvtDerive path => Sys2Proof.Machine.execKvtDerive path s
  | .kvtErase path => Sys2Proof.Machine.execKvtErase path s
  | .readAttr path => Sys2Proof.Machine.execReadAttr path s
  | .kvtGrant path => Sys2Proof.Machine.execKvtGrant path s
  | .provOpen path => Sys2Proof.Machine.execProvOpen path s
  | .provAccept path => Sys2Proof.Machine.execProvAccept path s
  | .importProv path => Sys2Proof.Machine.execImportProv path s
  | .provClose path => Sys2Proof.Machine.execProvClose path s
  | .provSessionTimeout => Sys2Proof.Machine.execProvSessionTimeout s
  | .idExport path => Sys2Proof.Machine.execIdExport path s
  | .certWrite path => Sys2Proof.Machine.execCertWrite path s
  | .anchorAdd path => Sys2Proof.Machine.execAnchorAdd path s
  | .anchorRevoke path => Sys2Proof.Machine.execAnchorRevoke path s
  | .lcAdvance path => Sys2Proof.Machine.execLcAdvance path s
  | .zeroizeAll path => Sys2Proof.Machine.execZeroizeAll path s
  | .reseed path => Sys2Proof.Machine.execReseed path s
  | .kvtCmdUnknown path op => Sys2Proof.Machine.execKvtCmdUnknown path op s
  | .loadStoreTimeout allot => Sys2Proof.Machine.execLoadStoreTimeout allot s
  | .slotErased vault slot => Sys2Proof.Machine.execSlotErased vault slot s
  | .remaskWalk bad => Sys2Proof.Machine.execRemaskWalk bad s
  | .rbgReseed passed => Sys2Proof.Machine.execRbgReseed passed s
  | .rbgHealthFail => Sys2Proof.Machine.execRbgHealthFail s
  | .pairingMessage msg => Sys2Proof.Machine.execPairingMessage msg s
  | .pairConfirm confirm => Sys2Proof.Machine.execPairConfirm confirm s
  | .dithalCellReceive lane cell => Sys2Proof.Machine.execDithalCellReceive lane cell s
  | .dithalResendTimeout => Sys2Proof.Machine.execDithalResendTimeout s
  | .frameRecord record => Sys2Proof.Machine.execFrameRecord record s
  | .unmatchedDiscard input => Sys2Proof.Machine.execUnmatchedDiscard input s
  | .streamEpoch item => Sys2Proof.Machine.execStreamEpoch item s
  | .streamVerdict item => Sys2Proof.Machine.execStreamVerdict item s
  | .sheafVerdict item => Sys2Proof.Machine.execSheafVerdict item s
  | .clsCommit item => Sys2Proof.Machine.execClsCommit item s
  | .sciCommit item => Sys2Proof.Machine.execSciCommit item s
  | .ascCommit item => Sys2Proof.Machine.execAscCommit item s
  | .ascEvent item => Sys2Proof.Machine.execAscEvent item s
  | .flipItem item => Sys2Proof.Machine.execFlipItem item s
  | .kvtCommit item => Sys2Proof.Machine.execKvtCommit item s
  | .regWrite item => Sys2Proof.Machine.execRegWrite item s
  | .schCommit item => Sys2Proof.Machine.execSchCommit item s
  | .timemap item => Sys2Proof.Machine.execTimemap item s
  | .rixItem item => Sys2Proof.Machine.execRixItem item s
  | .streamInject item => Sys2Proof.Machine.execStreamInject item s
  | .streamDiverge item => Sys2Proof.Machine.execStreamDiverge item s
  | .streamYield item => Sys2Proof.Machine.execStreamYield item s
  | .handoverItem item => Sys2Proof.Machine.execHandoverItem item s
  | .streamCopy item => Sys2Proof.Machine.execStreamCopy item s
  | .streamSnap item => Sys2Proof.Machine.execStreamSnap item s
  | .streamMark item => Sys2Proof.Machine.execStreamMark item s
  | .ackMark item => Sys2Proof.Machine.execAckMark item s
  | .streamDefects item => Sys2Proof.Machine.execStreamDefects item s
  | .streamDigest item => Sys2Proof.Machine.execStreamDigest item s
  | .repairReq item => Sys2Proof.Machine.execRepairReq item s
  | .stateItem item => Sys2Proof.Machine.execStateItem item s
  | .digestIntervalEnd => Sys2Proof.Machine.execDigestIntervalEnd s
  | .repairTimeout => Sys2Proof.Machine.execRepairTimeout s
  | .yokeLockLost => Sys2Proof.Machine.execYokeLockLost s
  | .leadSilent => Sys2Proof.Machine.execLeadSilent s
  | .promotion => Sys2Proof.Machine.execPromotion s
  | .yokHandover path => Sys2Proof.Machine.execYokHandover path s
  | .handoverTakeEffect => Sys2Proof.Machine.execHandoverTakeEffect s
  | .yokPromote path => Sys2Proof.Machine.execYokPromote path s
  | .yokResync path => Sys2Proof.Machine.execYokResync path s
  | .yokCmdUnknown path op => Sys2Proof.Machine.execYokCmdUnknown path op s
  | .resyncCutIn => Sys2Proof.Machine.execResyncCutIn s
  | .resyncTimeout => Sys2Proof.Machine.execResyncTimeout s
  | .resyncRestart => Sys2Proof.Machine.execResyncRestart s
  | .channelSet path ch => Sys2Proof.Machine.execChannelSet path ch s
  | .channelStep path ch => Sys2Proof.Machine.execChannelStep path ch s
  | .channelSlew path ch => Sys2Proof.Machine.execChannelSlew path ch s
  | .channelStop path ch => Sys2Proof.Machine.execChannelStop path ch s
  | .timCmdUnknown path ch op => Sys2Proof.Machine.execTimCmdUnknown path ch op s
  | .slewDone ch => Sys2Proof.Machine.execSlewDone ch s
  | .freqWrite path ch val => Sys2Proof.Machine.execFreqWrite path ch val s
  | .parentWrite path ch val => Sys2Proof.Machine.execParentWrite path ch val s
  | .ppsInEdge widthNs eighths => Sys2Proof.Machine.execPpsInEdge widthNs eighths s
  | .ppsEdgeMissed => Sys2Proof.Machine.execPpsEdgeMissed s
  | .todMessage msg startAgo => Sys2Proof.Machine.execTodMessage msg startAgo s
  | .ppsOutEdge => Sys2Proof.Machine.execPpsOutEdge s
  | .todOutSend => Sys2Proof.Machine.execTodOutSend s
  | .doorbell path ring index => Sys2Proof.Machine.execDoorbell path ring index s
  | .commandDescriptor allot desc input fetched written => Sys2Proof.Machine.execCommandDescriptor allot desc input fetched written s
  | .injectDescriptor allot desc frame fetched => Sys2Proof.Machine.execInjectDescriptor allot desc frame fetched s
  | .puntDelivery allot entry => Sys2Proof.Machine.execPuntDelivery allot entry s
  | .irqCoalesceTimer allot vector => Sys2Proof.Machine.execIrqCoalesceTimer allot vector s
  | .resetDrain path allot => Sys2Proof.Machine.execResetDrain path allot s
  | .resetSquash path allot => Sys2Proof.Machine.execResetSquash path allot s
  | .selfReset path squash => Sys2Proof.Machine.execSelfReset path squash s
  | .drainTimeout allot => Sys2Proof.Machine.execDrainTimeout allot s
  | .allotFreeze path allot => Sys2Proof.Machine.execAllotFreeze path allot s
  | .allotThaw path allot => Sys2Proof.Machine.execAllotThaw path allot s
  | .allotCmdUnknown path op allot => Sys2Proof.Machine.execAllotCmdUnknown path op allot s
  | .migSave desc written => Sys2Proof.Machine.execMigSave desc written s
  | .migRestore desc blob fetched => Sys2Proof.Machine.execMigRestore desc blob fetched s
  | .allotCtrlWrite path allot val => Sys2Proof.Machine.execAllotCtrlWrite path allot val s
  | .pcieLinkDown => Sys2Proof.Machine.execPcieLinkDown s
  | .pcieLinkUp speed width => Sys2Proof.Machine.execPcieLinkUp speed width s
  | .entdaa addr => Sys2Proof.Machine.execEntdaa addr s
  | .setdasa target addr => Sys2Proof.Machine.execSetdasa target addr s
  | .rstdaa => Sys2Proof.Machine.execRstdaa s
  | .rstact action => Sys2Proof.Machine.execRstact action s
  | .getpid => Sys2Proof.Machine.execGetpid s
  | .getbcr => Sys2Proof.Machine.execGetbcr s
  | .getdcr => Sys2Proof.Machine.execGetdcr s
  | .getstatus => Sys2Proof.Machine.execGetstatus s
  | .getmxds => Sys2Proof.Machine.execGetmxds s
  | .getmwl => Sys2Proof.Machine.execGetmwl s
  | .getmrl => Sys2Proof.Machine.execGetmrl s
  | .setmwl len => Sys2Proof.Machine.execSetmwl len s
  | .setmrl len => Sys2Proof.Machine.execSetmrl len s
  | .enec events => Sys2Proof.Machine.execEnec events s
  | .disec events => Sys2Proof.Machine.execDisec events s
  | .read32 addr off => Sys2Proof.Machine.execRead32 addr off s
  | .write32 addr off val => Sys2Proof.Machine.execWrite32 addr off val s
  | .i3cPrivateRead addr => Sys2Proof.Machine.execI3cPrivateRead addr s
  | .hotJoinRequest => Sys2Proof.Machine.execHotJoinRequest s
  | .foldClose => Sys2Proof.Machine.execFoldClose s
  | .batchOffer => Sys2Proof.Machine.execBatchOffer s
  | .logScan good => Sys2Proof.Machine.execLogScan good s
  | .logFreeze path => Sys2Proof.Machine.execLogFreeze path s
  | .logThaw path => Sys2Proof.Machine.execLogThaw path s
  | .freezeExpiry => Sys2Proof.Machine.execFreezeExpiry s
  | .logRelease path => Sys2Proof.Machine.execLogRelease path s
  | .copyOut path dmaOk => Sys2Proof.Machine.execCopyOut path dmaOk s
  | .calWrite path => Sys2Proof.Machine.execCalWrite path s
  | .calRead path => Sys2Proof.Machine.execCalRead path s
  | .logCmdUnknown path op => Sys2Proof.Machine.execLogCmdUnknown path op s
  | .logReadIndexWrite path val => Sys2Proof.Machine.execLogReadIndexWrite path val s
  | .counterSnap path val => Sys2Proof.Machine.execCounterSnap path val s
  | .periodicSnap => Sys2Proof.Machine.execPeriodicSnap s
  | .fuCfgWrite path unit val => Sys2Proof.Machine.execFuCfgWrite path unit val s
  | .yokeFreqLocked => Sys2Proof.Machine.execYokeFreqLocked s
  | .storeDeferralExceeded unit allot => Sys2Proof.Machine.execStoreDeferralExceeded unit allot s
  | .rbgRequestTimeout allot => Sys2Proof.Machine.execRbgRequestTimeout allot s
  | .crossingOffer src dst value taken => Sys2Proof.Machine.execCrossingOffer src dst value taken s
  | .idleProbe src dst taken => Sys2Proof.Machine.execIdleProbe src dst taken s
  | .crossTimeout live stopped => Sys2Proof.Machine.execCrossTimeout live stopped s
  | .cellReceive src dst seq len last payload crcGood => Sys2Proof.Machine.execCellReceive src dst seq len last payload crcGood s
  | .cellNakReceived src dst seq => Sys2Proof.Machine.execCellNakReceived src dst seq s
  | .busTransaction src unit allot cls address command data code host => Sys2Proof.Machine.execBusTransaction src unit allot cls address command data code host s
  | .perstAssert => Sys2Proof.Machine.execPerstAssert s
  | .lidOvertemp reading => Sys2Proof.Machine.execLidOvertemp reading s
  | .dieOvertemp reading => Sys2Proof.Machine.execDieOvertemp reading s
  | .dieThermalShutdown => Sys2Proof.Machine.execDieThermalShutdown s
  | .inputOvervoltage mv => Sys2Proof.Machine.execInputOvervoltage mv s
  | .feedLost feedB => Sys2Proof.Machine.execFeedLost feedB s
  | .feedRestored feedB => Sys2Proof.Machine.execFeedRestored feedB s
  | .supplySample va vb ia ib power bankV => Sys2Proof.Machine.execSupplySample va vb ia ib power bankV s
  | .powerRise mv yokePos bleedA bleedB => Sys2Proof.Machine.execPowerRise mv yokePos bleedA bleedB s
  | .holdupCapMeasure uf bankV above30 => Sys2Proof.Machine.execHoldupCapMeasure uf bankV above30 s
  | .powerFail => Sys2Proof.Machine.execPowerFail s
  | .pfailSummary => Sys2Proof.Machine.execPfailSummary s
  | .storeDomainRelease loadedMv mv yokePos bleedA bleedB => Sys2Proof.Machine.execStoreDomainRelease loadedMv mv yokePos bleedA bleedB s
  | .powerReturnDuringBleed mv yokePos bleedA bleedB => Sys2Proof.Machine.execPowerReturnDuringBleed mv yokePos bleedA bleedB s
  | .svcMuteAssert => Sys2Proof.Machine.execSvcMuteAssert s
  | .svcMuteRelease => Sys2Proof.Machine.execSvcMuteRelease s
  | .yokeIdChanged => Sys2Proof.Machine.execYokeIdChanged s
  | .zeroPinRequest loadedMv => Sys2Proof.Machine.execZeroPinRequest loadedMv s
  | .laneLos lane => Sys2Proof.Machine.execLaneLos lane s
  | .laneLol lane => Sys2Proof.Machine.execLaneLol lane s
  | .laneClear lane lol => Sys2Proof.Machine.execLaneClear lane lol s
  | .fecWindowEnd lane symCorr cwCorr cwUncorr => Sys2Proof.Machine.execFecWindowEnd lane symCorr cwCorr cwUncorr s
  | .pcsStateChange port aligned hiBer localFault remoteFault => Sys2Proof.Machine.execPcsStateChange port aligned hiBer localFault remoteFault s
  | .markerFound lane marker sheafNo => Sys2Proof.Machine.execMarkerFound lane marker sheafNo s
  | .headlandReceive lane headland => Sys2Proof.Machine.execHeadlandReceive lane headland s
  | .groupAlignmentCheck group => Sys2Proof.Machine.execGroupAlignmentCheck group s
  | .sheafStart fecUnc => Sys2Proof.Machine.execSheafStart fecUnc s
  | .secondLatch => Sys2Proof.Machine.execSecondLatch s
  | .tribHeader trib hdr firstGood atFirst => Sys2Proof.Machine.execTribHeader trib hdr firstGood atFirst s
  | .laneCtrlWrite path lane val => Sys2Proof.Machine.execLaneCtrlWrite path lane val s
  | .portEnableWrite path group idx val => Sys2Proof.Machine.execPortEnableWrite path group idx val s
  | .ethFrameReceive port frame => Sys2Proof.Machine.execEthFrameReceive port frame s
  | .swapCmd path val => Sys2Proof.Machine.execSwapCmd path val s
  | .connectionMemoryWrite path receive page row val => Sys2Proof.Machine.execConnectionMemoryWrite path receive page row val s
  | .pairCfgWrite path pair val => Sys2Proof.Machine.execPairCfgWrite path pair val s
  | .apsClear path pair => Sys2Proof.Machine.execApsClear path pair s
  | .apsLockout path pair => Sys2Proof.Machine.execApsLockout path pair s
  | .apsForced path pair => Sys2Proof.Machine.execApsForced path pair s
  | .apsManualP path pair => Sys2Proof.Machine.execApsManualP path pair s
  | .apsManualW path pair => Sys2Proof.Machine.execApsManualW path pair s
  | .apsCmdUnknown path pair op => Sys2Proof.Machine.execApsCmdUnknown path pair op s
  | .holdoffExpiry pair => Sys2Proof.Machine.execHoldoffExpiry pair s
  | .wtrExpiry pair => Sys2Proof.Machine.execWtrExpiry pair s
  | .sensorDetection sensor measured loadedMv => Sys2Proof.Machine.execSensorDetection sensor measured loadedMv s
  | .sensorWindowClose sensor present => Sys2Proof.Machine.execSensorWindowClose sensor present s
  | .sensorTripClear sensor => Sys2Proof.Machine.execSensorTripClear sensor s
  | .sensorCfgWrite path sensor win val => Sys2Proof.Machine.execSensorCfgWrite path sensor win val s
  | .rootRefresh => Sys2Proof.Machine.execRootRefresh s
  | .reserveTest loadedMv => Sys2Proof.Machine.execReserveTest loadedMv s
  | .hdgLogIndexWrite path val => Sys2Proof.Machine.execHdgLogIndexWrite path val s
  | .perstRelease => Sys2Proof.Machine.execPerstRelease s
  | .overvoltageRelease mv yokePos bleedA bleedB => Sys2Proof.Machine.execOvervoltageRelease mv yokePos bleedA bleedB s
  | .cellExhausted => Sys2Proof.Machine.execCellExhausted s

end Sys2Proof.Machine
end

