-- ==== Sys2Proof/Machine/Tick.lean ====
section
/-! DEFINITION. What the clock does while no command waits: one nanosecond passes; and which held command is free to run. -/

namespace Sys2Proof.Machine

open Sys2Proof

/-- HCOUNT counts periods of the 32.768 kHz crystal from the life cycle Manufacture on (R479), on both supplies. -/
def Hedge.count (h : Hedge) : Hedge :=
  let f := h.hcountFrac + 32768
  if f < 1000000000 then { h with hcountFrac := f }
  else { h with hcountFrac := f - 1000000000, hcount := (h.hcount + 1) % 2 ^ 48 }

/-- The lead sends EPOCH once per epoch of 64 blocks (R424, R426). -/
def State.sendEpoch (s : State) : State :=
  let k := s.blockNo / 64
  if s.ctl.mode = .yokeLead ∧ s.yok.epoch < k then
    ({ s with yok := { s.yok with epoch := k } }).convey 0x01 (beBytes 8 k)
  else s

/-- HCOUNT after one nanosecond: it starts at the transition from Raw to Manufacture and runs on both supplies (R18, R479). -/
def State.countHedge (s : State) : State :=
  if s.boot.otpLife = .raw then s else { s with hdg := s.hdg.count }

/-- One nanosecond of Time's own clock passes (DESIGN CHOICE, log entry 2): clocks count (R455, R479), a pulse of PPS_OUT
ends (R463), the lead's next EPOCH leaves, and resets and freezes of allotments go on as far as they can (R528, R531). -/
def State.tick (s : State) : State :=
  (((({ s with now := s.now + 1 }).advanceTime 1).ppsDown).countHedge.sendEpoch).stepAllots

/-- The reason for which a command was held is gone: its allotment has thawed (R531), the trial count of a candidate is
stored (R82), queued stores have started (R124), the log is scanned (R549), a cipher pair has room (R365), a pairing has begun (R413). -/
def State.releasable (s : State) (i : Instr) : Bool :=
  match i with
  | .imageCandidateRead _ => !s.metaOut && (!s.boot.metaDue || decide (s.st.queue.length + 4 ≤ storeCap))
  | .kvtUnsealDone => s.st.queue.isEmpty
  | .mgdInitDone _ => s.led.scanned
  | .lineFrameReceive _ _ _ => (s.freePair 1).isSome
  | .pairingMessage _ => s.yok.pairing.isSome
  | _ =>
    match heldWindow i with
    | some n => s.allotState n != .frozen && s.allotState n != .freezing
    | none => true

/-- The first held command that may run now, and those that stay held, in their order. -/
def State.release (s : State) : Option (Instr × State) :=
  match s.held.find? s.releasable with
  | none => none
  | some i => some (i, { s with held := s.held.erase i })

end Sys2Proof.Machine
end

