-- ==== Sys2Proof/Machine/Step.lean ====
section
/-! DEFINITION. One step of the block: the command at the front of the queue runs; on an empty queue the block idles. -/

namespace Sys2Proof.Machine

open Sys2Proof

/-- The idle block (DESIGN CHOICE, log entry 2): a held command that may run now runs; else one nanosecond passes. -/
def State.idle (s : State) : Host.Outcome State Fault Refusal :=
  match s.release with
  | some (i, t) => exec i t
  | none => .next s.tick

/-- One step: the command at the front of the queue, first in first out, with the queue's rest; the idle block on an empty
queue. -/
def step (s : State) : Host.Outcome State Fault Refusal :=
  match s.pending with
  | [] => s.idle
  | c :: rest => exec c { s with pending := rest }

/-- The command that a table word spells, put at the front of the queue. The table gives no row bits, so no word spells a
command, and the state stays. -/
def State.withFetchWord (s : State) (nbits w : Nat) : State :=
  match decodeTableWord nbits w with
  | some i => { s with pending := i :: s.pending }
  | none => s

end Sys2Proof.Machine
end

