-- ==== Sys2Proof/Safety.lean ====
section
/-! DEFINITION. What claims about a run are stated in: which fields an operation may touch, the canonical form of the
sparse tables, which accesses a register heeds,
what the statements assume of a state and say of the next. -/

namespace Sys2Proof.Machine

open Sys2Proof

/-- The fields of State. -/
inductive Part where
  | regs | shadow | cnt | armed | now | ctl | pow | boot | led | hdg | hif | tim | mram | st | fab | line | rows | cls | sch | mgd | asc | cph | kvt | yok | held | out | free | pending
  deriving DecidableEq, Repr

/-- Every field but the command queue. -/
def Part.all : List Part :=
  [.regs, .shadow, .cnt, .armed, .now, .ctl, .pow, .boot, .led, .hdg, .hif, .tim, .mram, .st,
    .fab, .line, .rows, .cls, .sch, .mgd, .asc, .cph, .kvt, .yok, .held, .out, .free]

/-- What any operation but the end of a store may touch: all but the MRAM. -/
def Part.main : List Part :=
  [.regs, .shadow, .cnt, .armed, .now, .ctl, .pow, .boot, .led, .hdg, .hif, .tim, .st,
    .fab, .line, .rows, .cls, .sch, .mgd, .asc, .cph, .kvt, .yok, .held, .out, .free]

/-- What recording an event may touch. -/
def Part.note : List Part := [.regs, .cnt, .pow, .led, .hif, .yok, .out]

/-- The sparse tables that stand for addressed storage are in canonical form, keys strictly rising and no entry equal to
what an unlisted key reads as: the register file, the unit counters, the NOR's image content and metadata records, the log slots of
the MRAM, the lines of HBM. -/
structure State.Canon (s : State) : Prop where
  regs : SMap.wf regDefault s.regs = true
  cnt : SMap.wf zeroOf s.cnt = true
  nor : SMap.wf norErased s.boot.nor = true
  recs : SMap.wf noBytes s.boot.metaRecs = true
  log : SMap.wf noneOf s.led.log = true
  lines : SMap.wf noneOf s.mgd.lines = true

/-- From s to t only the fields in m may have changed, and canonical form is kept. -/
structure Touches (m : List Part) (s t : State) : Prop where
  regs : Part.regs ∉ m → t.regs = s.regs
  shadow : Part.shadow ∉ m → t.shadow = s.shadow
  cnt : Part.cnt ∉ m → t.cnt = s.cnt
  armed : Part.armed ∉ m → t.armed = s.armed
  now : Part.now ∉ m → t.now = s.now
  ctl : Part.ctl ∉ m → t.ctl = s.ctl
  pow : Part.pow ∉ m → t.pow = s.pow
  boot : Part.boot ∉ m → t.boot = s.boot
  led : Part.led ∉ m → t.led = s.led
  hdg : Part.hdg ∉ m → t.hdg = s.hdg
  hif : Part.hif ∉ m → t.hif = s.hif
  tim : Part.tim ∉ m → t.tim = s.tim
  mram : Part.mram ∉ m → t.mram = s.mram
  st : Part.st ∉ m → t.st = s.st
  fab : Part.fab ∉ m → t.fab = s.fab
  line : Part.line ∉ m → t.line = s.line
  rows : Part.rows ∉ m → t.rows = s.rows
  cls : Part.cls ∉ m → t.cls = s.cls
  sch : Part.sch ∉ m → t.sch = s.sch
  mgd : Part.mgd ∉ m → t.mgd = s.mgd
  asc : Part.asc ∉ m → t.asc = s.asc
  cph : Part.cph ∉ m → t.cph = s.cph
  kvt : Part.kvt ∉ m → t.kvt = s.kvt
  yok : Part.yok ∉ m → t.yok = s.yok
  held : Part.held ∉ m → t.held = s.held
  out : Part.out ∉ m → t.out = s.out
  free : Part.free ∉ m → t.free = s.free
  pending : Part.pending ∉ m → t.pending = s.pending
  canon : s.Canon → t.Canon

/-- What an outcome's next state may have touched. -/
def OutTouches (m : List Part) (s : State) : Host.Outcome State Fault Refusal → Prop
  | .next t => Touches m s t
  | _ => True

/-- What the state in an option may have touched. -/
def OptTouches (m : List Part) (s : State) : Option State → Prop
  | some t => Touches m s t
  | none => True

/-! ## What the statements assume of a state and say of the next -/

/-- How often an event has been counted (R545, R554). -/
def State.events (s : State) (k : EvKind) : Nat := SMap.get zeroOf s.led.evc k.code

/-- A host write at off through path p reaches a register without private copies: through the Device Window, or over the I3C
bus where the register is the Steward's or the Hedge's, while its block responds (R511, R538, R570), and no follower refuses
it (R430). -/
abbrev State.Reaches (s : State) (p : Path) (off : Nat) : Prop :=
  (p = .device ∨ (p = .i3c ∧ (off / 0x100000 = 1 ∨ off / 0x100000 = 13))) ∧ s.unitResponds (off / 0x100000) = true ∧
    ¬(s.isFollower = true ∧ conveyed off = true)

/-- A command written at off through path p is taken: not from the I3C bus, the block responds, and the window's allotment
exists and is neither frozen nor in a reset (R409, R511, R528, R531). -/
abbrev State.Takes (s : State) (p : Path) (off : Nat) : Prop :=
  p ≠ .i3c ∧ (p.allot ≠ 0 → s.ctl.mode ≠ .zeroized ∧ s.allotExists p.allot = true) ∧
    s.unitResponds (off / 0x100000) = true ∧ s.allotState p.allot ≠ .resetting ∧ s.allotState p.allot ≠ .frozen ∧
    s.allotState p.allot ≠ .freezing

/-- A result register reads DONE with a CODE (R572). -/
abbrev State.Ended (s : State) (k code : Nat) : Prop := bits (s.rd k) 7 0 = code ∧ bit (s.rd k) 16 = true

/-- An image command is taken: its register is reached, none runs, and the mode and the life cycle allow it (R79, R88, R89). -/
abbrev State.TakesImage (s : State) (p : Path) (op : Nat) : Prop :=
  s.Reaches p Reg.stwImageCmd ∧ s.boot.job = none ∧ s.boot.otpLife ≠ .scrapped ∧ s.imageModeOk op = true

/-- A mode in which events are recorded and the loss of a service part is answered by nothing (R104): not Sentry, Service or a Yoke
mode. -/
abbrev State.Calm (s : State) : Prop := s.ctl.mode ≠ .sentry ∧ s.ctl.mode ≠ .service ∧ s.ctl.mode.isYoke = false

/-- HBM takes a context's lines without a page refresh or a refusal (R294, R296). -/
abbrev State.HbmRoom (s : State) : Prop :=
  s.mgd.refused = [] ∧ ∀ e ∈ s.mgd.lines, (e.2.map (·.minor)).getD 0 < 128

/-- The store queue takes n requests, and one for every sealed association record (R124, R402). -/
abbrev State.StoreRoom (s : State) (n : Nat) : Prop := s.st.queue.length + s.asc.recOf.length + n ≤ storeCap

/-- Slot c of t holds the key that a load of window n put there; the other slots are as in s, and the command has ended with CODE 0 or waits for its stores
(R391, R393). -/
abbrev State.Loads (s t : State) (n c : Nat) (key : List Byte) (a : Word) : Prop :=
  t.slot c = some ⟨.loaded, maskedKey s.storeMask c (slice key 0 (attrBytes a)), a &&& attrMask,
    s.slotCheck c (slice key 0 (attrBytes a)) a, s.kvt.generation, 0, keyFp (slice key 0 (attrBytes a)),
    (match s.slot c with | some k => k.inflight | none => 0), false, false⟩ ∧
  (∀ d, d ≠ c → t.slot d = s.slot d) ∧ (t.Ended (privKey n Reg.kvtCmdResult) 0 ∨ t.unitBusy 10 n = true)

/-- A Key Vault command of window n passes the checks of R577 that do not depend on its operands: none runs, the vault is usable and the module
neither degraded nor a follower. -/
abbrev State.VaultOpen (s : State) (n : Nat) : Prop :=
  s.unitBusy 10 n = false ∧ s.ctl.mode ≠ .zeroized ∧ s.ctl.mode ≠ .sentry ∧ s.boot.otpLife ≠ .raw ∧ s.ctl.degraded = false ∧ s.isFollower = false ∧
    s.storesOf (.unit 10 n) = 0

/-- The store queue takes the overwriting of every sealed record in use and one request more (R109, R124). -/
abbrev State.WipeRoom (s : State) : Prop := s.st.queue.length + s.mram.slots.length + s.mram.assocs.length + 1 ≤ storeCap

/-- t has one completion record of allotment n more than s in its completion ring, at the next slot and with its PHASE (R516, R520, R521). -/
abbrev State.Completes (s t : State) (n tag status pair b67 len idx ring : Nat) : Prop :=
  .hostWrite (s.dmaTag n false) (s.ringBase n 11 + s.ringM n 11 % 2 ^ s.ringLog2 n 11 * 16)
    ((completion tag status pair b67 len idx ring).take 12 ++ leBytes 4 (idx % 65536 * 256 + ring + s.ringPhase n 11 * 2 ^ 31)) ∈ t.out ∧
  t.ringM n 11 = (s.ringM n 11 + 1) % 131072

/-- Nothing that allotment n started runs or waits, and no reset of it is in progress (R528, steps A2 and A3). -/
abbrev State.Quiet (s : State) (n : Nat) : Prop :=
  s.drained n = true ∧ (∀ f ∈ s.sch.arrivals, f.inject.map (·.allot) ≠ some n) ∧ (∀ r ∈ s.hif.resets, r.allot ≠ n) ∧ n ∉ s.mgd.winInit

/-- t is s after a reset of allotment n that had nothing to wait for: n is idle with its rings cleared, unless its memory window is still to be
initialised; no slot of n holds a key, and every other slot is as before (R528). -/
abbrev State.WasReset (s t : State) (n : Nat) : Prop :=
  (∀ c, s.slotOwner c = n → t.slotUsable c = false) ∧ (∀ c, s.slotOwner c ≠ n → t.slot c = s.slot c) ∧
  if (s.queueDomain n).isSome = true then t.allotState n = .resetting ∧ n ∈ t.mgd.winInit
  else t.allotState n = .idle ∧ (∀ r < 13, t.ringOn n r = false ∧ t.ringM n r = 0 ∧ t.ringH n r = 0) ∧ t.Ended Reg.hifAllotResult 0 ∧
    t.events Ev.allotResetDone = satAdd (2 ^ 48 - 1) (s.events Ev.allotResetDone) 1

/-- t is s after one snapshot: every filter unit has one sample more and keeps its counts; while dumps are on, one dump is written into the next
free slot of the dump ring, or one more is dropped where none is free (R558, R559). -/
abbrev State.Snapped (s t : State) : Prop :=
  (∀ k < 256, SMap.get zeroOf t.led.fuSample k = (SMap.get zeroOf s.led.fuSample k + 1) % 2 ^ 32) ∧ t.led.fu = s.led.fu ∧
  (s.flg Reg.pmcDumpCfg 31 = false → t.led.dumpSeq = s.led.dumpSeq ∧ t.count Reg.pmcDumpIndex = s.count Reg.pmcDumpIndex) ∧
  (s.flg Reg.pmcDumpCfg 31 = true → s.hif.linkUp = true → s.dumpLevel < s.dumpSlots → t.led.dumpSeq = s.led.dumpSeq + 1 ∧
    t.count Reg.pmcDumpIndex = s.count Reg.pmcDumpIndex + 1 ∧
    .hostWrite (s.dmaTag 0 false) ((s.rd Reg.pmcDumpBaseLo).toNat / 32768 * 32768 + (s.rd Reg.pmcDumpBaseHi).toNat * 2 ^ 32 +
      s.count Reg.pmcDumpIndex % s.dumpSlots * 32768 + 4) (beBytes 4 s.led.dumpSeq) ∈ t.out) ∧
  (s.flg Reg.pmcDumpCfg 31 = true → s.dumpSlots ≤ s.dumpLevel → t.led.dumpSeq = s.led.dumpSeq ∧
    t.rd Reg.pmcDrops = sat32 ((s.rd Reg.pmcDrops).toNat + 1) ∧ t.events Ev.dumpDropped = satAdd (2 ^ 48 - 1) (s.events Ev.dumpDropped) 1)

end Sys2Proof.Machine
end

