-- ==== Sys2Proof/Certificates/Slice0/Obligations.lean ====
section
/-! DEFINITION. The statements for the provers, from the numbered rules of the spec. -/

open Sys2Proof Sys2Proof.Machine

/-- A step with a command in front is that command's effect on the state with the queue's rest. (opcode_table.json, 00_scope.md.) -/
def Obligations.FrontCommandRuns : Prop :=
  ∀ (c : Instr) (rest : List Instr) (s : State), s.pending = c :: rest → step s = exec c { s with pending := rest }

/-- With an empty queue and no command held, a step is one tick of the clock and puts nothing into the queue. (14_time.md, 15_hedge.md.) -/
def Obligations.EmptyQueueIdles : Prop :=
  ∀ s : State, s.pending = [] → s.held = [] →
    step s = .next s.tick ∧ s.tick.pending = []

/-- Right after reset the module is in Boot, entered from Power Rise, every island in reset and no command waiting. (R96, R126, R84.) -/
def Obligations.ResetIsBootBeforeB1 : Prop :=
  State.reset.ctl.mode = .boot ∧ State.reset.ctl.prevMode = .powerRise ∧ State.reset.boot.image = none ∧
    (∀ i < 21, i ∈ State.reset.fab.inReset) ∧ State.reset.pending = [] ∧ State.reset.held = [] ∧
    (∀ k, State.reset.rd k = regDefault k) ∧ State.reset.readReg 0 Reg.stwMode = 0x12#32

/-- Every sparse table of the reset state is in canonical form. (R4, R5, R545.) -/
def Obligations.ResetIsCanonical : Prop :=
  State.reset.Canon

/-- Every step keeps the register file, the counters, NOR, the log and the HBM lines in canonical form. (R4, R5, R545.) -/
def Obligations.EveryStepKeepsCanonicalForm : Prop :=
  ∀ s t : State, s.Canon → step s = .next t → t.Canon

/-- Every step takes exactly the front command: no command adds to, drops from or reorders the queue. (opcode_table.json.) -/
def Obligations.CommandsLeaveTheQueueAlone : Prop :=
  ∀ s t : State, step s = .next t → t.pending = s.pending.tail

/-- Every command in every state answers a next state. (R6, R8, R89, R572.) -/
def Obligations.NoCommandEndsInAFault : Prop :=
  ∀ (c : Instr) (s : State), ∃ t, exec c s = .next t

/-- A write of the magic value to an ARM register arms the unit's next command; any other value leaves it not armed. Nothing else changes.
(R571, R93, R397, R565.) A write of an unlocked configuration register with a clamped field takes the field, clamped, and changes no other
register; a set LOCK bit keeps the field and its own value, and LOCK_WRITE_IGNORED is recorded. (R8, R12, and the headings of
MGD_HARROW_CFG, LOG_FREEZE_MS, HIF_DRAIN_CFG, LNF_SHEAF_CFG, ASC_PN_CFG and LOG_CFG.) -/
def Obligations.ArmAndConfigurationWrites : Prop :=
  (∀ p v s, s.Reaches p Reg.stwImageArm → ∃ t, exec (.imageArmWrite p v) s = .next t ∧
    (1 ∈ t.armed ↔ v = 0x464C4F52#32) ∧ (∀ u, u ≠ 1 → (u ∈ t.armed ↔ u ∈ s.armed)) ∧ t = { s with armed := t.armed }) ∧
  (∀ p v s, s.Reaches p Reg.kvtArm → ∃ t, exec (.kvtArmWrite p v) s = .next t ∧
    (10 ∈ t.armed ↔ v = 0x4B455953#32) ∧ (∀ u, u ≠ 10 → (u ∈ t.armed ↔ u ∈ s.armed)) ∧ t = { s with armed := t.armed }) ∧
  (∀ p v s, s.Reaches p Reg.logCalArm → ∃ t, exec (.calArmWrite p v) s = .next t ∧
    (14 ∈ t.armed ↔ v = 0x43414C57#32) ∧ (∀ u, u ≠ 14 → (u ∈ t.armed ↔ u ∈ s.armed)) ∧ t = { s with armed := t.armed }) ∧
  (∀ p v s, s.Reaches p Reg.yokArm → ∃ t, exec (.yokeArmWrite p v) s = .next t ∧
    (11 ∈ t.armed ↔ v = 0x50524F4D#32) ∧ (∀ u, u ≠ 11 → (u ∈ t.armed ↔ u ∈ s.armed)) ∧ t = { s with armed := t.armed }) ∧
  (∀ s v off hi lo a b, (off, hi, lo, a, b) ∈ [(Reg.mgdHarrowCfg, 7, 0, 1, 168), (Reg.logFreezeMs, 15, 0, 1, 10000),
      (Reg.hifDrainCfg, 15, 0, 1, 1000)] → s.Reaches .device off →
    ∃ t, exec (.registerWrite .device (BitVec.ofNat 25 off) 4 v) s = .next t ∧ t.fld off hi lo = clamp a b (bits v hi lo) ∧
      (∀ k, k ≠ off → t.rd k = s.rd k) ∧ t = { s with regs := t.regs, armed := t.armed }) ∧
  (∀ s v off hi lo a b, (off, hi, lo, a, b) ∈ [(Reg.lnfSheafCfg, 4, 0, 20, 28), (Reg.ascPnCfg, 4, 0, 16, 24),
      (Reg.logCfg, 15, 0, 1, 10000)] → s.Reaches .device off →
    (s.flg off 31 = false → ∃ t, exec (.registerWrite .device (BitVec.ofNat 25 off) 4 v) s = .next t ∧
      t.fld off hi lo = clamp a b (bits v hi lo) ∧ t.flg off 31 = bit v 31 ∧ (∀ k, k ≠ off → t.rd k = s.rd k) ∧
      t = { s with regs := t.regs, armed := t.armed }) ∧
    (s.flg off 31 = true → s.fld off hi lo = clamp a b (s.fld off hi lo) →
      ∃ t, exec (.registerWrite .device (BitVec.ofNat 25 off) 4 v) s = .next t ∧
      t.fld off hi lo = s.fld off hi lo ∧ t.flg off 31 = true ∧
      t.events Ev.lockWriteIgnored = satAdd (2 ^ 48 - 1) (s.events Ev.lockWriteIgnored) 1))

/-- A read through any path answers the register as it stands and latches the higher words of a wide value into that path's shadow copies; a
read of a higher word answers the shadow copy and changes nothing. (R7.) A read of a register with RC fields answers its value and clears
those fields and no other register. (R8.) An access narrower than 32 bits or not aligned completes with Unsupported Request and changes
nothing. (R4.) -/
def Obligations.ReadsLatchClearAndNarrow : Prop :=
  (∀ (p : Path) (off : BitVec 25) (o : Nat) (s : State), off.toNat % 4 = 0 → resolveOff p off.toNat = some o → s.readable p o = true →
    (isHighWord o = false → ∃ t, exec (.wideValueLowRead p off 4) s = .next t ∧
      t.out = s.out ++ [.readValue (s.readReg p.allot o)] ∧
      (∀ k, k + 1 < wideAt o → SMap.get zeroWord t.shadow (shadowKey p (o + 4 * (k + 1))) = s.readReg p.allot (o + 4 * (k + 1))) ∧
      (∀ x, (∀ k, k + 1 < wideAt o → x ≠ shadowKey p (o + 4 * (k + 1))) → SMap.get zeroWord t.shadow x = SMap.get zeroWord s.shadow x)) ∧
    (isHighWord o = true → exec (.wideValueLowRead p off 4) s =
      .next { s with out := s.out ++ [.readValue (SMap.get zeroWord s.shadow (shadowKey p o))] })) ∧
  (∀ (p : Path) (off : BitVec 25) (o : Nat) (r : RegRow) (s : State), off.toNat % 4 = 0 → resolveOff p off.toNat = some o →
    s.readable p o = true → isHighWord o = false → regRowAt o = some r →
    ∃ t, exec (.rcFieldRead p off 4) s = .next t ∧ t.out = s.out ++ [.readValue (s.readReg p.allot o)] ∧
      t.rd (if r.priv then privKey p.allot o else o) = s.rd (if r.priv then privKey p.allot o else o) &&& ~~~rcMask r.fields ∧
      ∀ k, k ≠ (if r.priv then privKey p.allot o else o) → t.rd k = s.rd k) ∧
  (∀ p (off : BitVec 25) (size : Fin 5) v s, size.val ≠ 4 ∨ off.toNat % 4 ≠ 0 →
    exec (.registerWrite p off size v) s = .next { s with out := s.out ++ [.unsupported off.toNat] }) ∧
  (∀ p (off : BitVec 25) (size : Fin 5) s, size.val ≠ 4 ∨ off.toNat % 4 ≠ 0 →
    exec (.wideValueLowRead p off size) s = .next { s with out := s.out ++ [.unsupported off.toNat] } ∧
    exec (.rcFieldRead p off size) s = .next { s with out := s.out ++ [.unsupported off.toNat] })

/-- A crossing whose value waits for its acknowledge keeps it: no further offer changes it. On a free crossing out of reset an offer or an
idle probe is held with its request toggled, and is acknowledged at once where the receiver takes it. No other crossing changes. (R23, R24.)
An unacknowledged offer that times out towards an island outside the minimal service set is discarded with an error to its sender, the
stopped island is marked, CROSS_LAST names the pair and CROSS_TIMEOUT is recorded, whatever CROSS_LAST held. (R24, R32, R33; outside the
modes in which the service set answers, R104.) A bus transaction whose integrity code fails is counted in BUS_CODE_FAILS and in its event, a
read is answered with an error status, a host read with Completer Abort; below COUNT of sensor 10 nothing more follows. A sound one is only
observed: nothing but the filter units of the Ledger may change. (R28, R29, R490, R555.) -/
def Obligations.CrossingsAndBusCodes : Prop :=
  (∀ (src dst : Fin 21) v s, (s.crossing src dst).waits = true →
    exec (.crossingOffer src dst v false) s = .next s ∧ exec (.idleProbe src dst false) s = .next s) ∧
  (∀ (src dst : Fin 21) v taken s, s.islandUp src = true → (s.crossing src dst).waits = false →
    (∃ t, exec (.crossingOffer src dst v taken) s = .next t ∧ (t.crossing src dst).value = v ∧
      (t.crossing src dst).probe = false ∧ (t.crossing src dst).req ≠ (s.crossing src dst).req ∧
      (t.crossing src dst).waits = !(taken && s.islandUp dst) ∧
      (∀ a b : Fin 21, (a, b) ≠ (src, dst) → t.crossing a b = s.crossing a b) ∧
      t = { s with fab := { s.fab with cross := t.fab.cross } }) ∧
    (∃ t, exec (.idleProbe src dst taken) s = .next t ∧ (t.crossing src dst).probe = true ∧
      (t.crossing src dst).waits = !(taken && s.islandUp dst) ∧
      (∀ a b : Fin 21, (a, b) ≠ (src, dst) → t.crossing a b = s.crossing a b) ∧
      t = { s with fab := { s.fab with cross := t.fab.cross } })) ∧
  (∀ (live stopped : Fin 21) s, (s.crossing live stopped).waits = true → s.islandUp live = true → serviceIsland stopped = false →
    s.ctl.mode ≠ .sentry → s.ctl.mode ≠ .service → s.ctl.mode.isYoke = false →
    ∃ t, exec (.crossTimeout live stopped) s = .next t ∧ (t.crossing live stopped).waits = false ∧ stopped.val ∉ t.fab.live ∧
      ((s.crossing live stopped).probe = false → .offerError live stopped ∈ t.out) ∧
      t.rd Reg.crossLast = BitVec.ofNat 32 (live * 65536 + stopped * 256 + 1) ∧ t.flg (Reg.islandState stopped) 2 = true ∧
      t.events Ev.crossTimeout = satAdd (2 ^ 48 - 1) (s.events Ev.crossTimeout) 1 ∧ t.ctl.mode = s.ctl.mode) ∧
  (∀ (src : Fin 21) (unit : Fin 16) (allot : Fin 64) (cls : Fin 3) address command data (code : BitVec 16) host s,
    code.toNat = busCode src address command data →
    ∃ t, exec (.busTransaction src unit allot cls address command data code host) s = .next t ∧ t = { s with led := t.led } ∧
      t.led.evc = s.led.evc) ∧
  (∀ (src : Fin 21) (unit : Fin 16) (allot : Fin 64) (cls : Fin 3) address command data (code : BitVec 16) host s,
    code.toNat ≠ busCode src address command data → s.ctl.mode ≠ .sentry → (s.sensor 10).fill + 1 < s.sensorCount 10 →
    ∃ t, exec (.busTransaction src unit allot cls address command data code host) s = .next t ∧
      t.rd Reg.busCodeFails = sat32 ((s.rd Reg.busCodeFails).toNat + 1) ∧
      t.events Ev.busCodeFail = satAdd (2 ^ 48 - 1) (s.events Ev.busCodeFail) 1 ∧
      (cls = 0 → (if host then Output.completerAbort else .transactionError) ∈ t.out) ∧ t.ctl = s.ctl)

/-- An internal cell with the expected SEQ and a good CRC is taken and acknowledged by its SEQ; the first cell that fails its CRC is
answered with a negative acknowledge that carries its SEQ, and every later one is discarded without an answer until the failed one arrives.
(R26.) After a negative acknowledge of an unacknowledged cell the sender sends it and every later one again, in order, and counts them,
until the same cell has failed for the fourth time in a row. (R26, R27.) -/
def Obligations.InternalLinksDeliverInOrder : Prop :=
  (∀ (src dst : Fin 21) (seq len : Fin 256) last payload s, s.islandUp dst = true →
    (seq.val = (s.ilink src dst).expect → ∃ t, exec (.cellReceive src dst seq len last payload true) s = .next t ∧
      t.out = s.out ++ [.cellAck src dst seq] ∧ (t.ilink src dst).expect = (seq.val + 1) % 256 ∧ (t.ilink src dst).discarding = false) ∧
    ((s.ilink src dst).discarding = false → ∃ t, exec (.cellReceive src dst seq len last payload false) s = .next t ∧
      t.out = s.out ++ [.cellNak src dst seq] ∧ (t.ilink src dst).expect = (s.ilink src dst).expect ∧ (t.ilink src dst).discarding = true) ∧
    (seq.val ≠ (s.ilink src dst).expect → ∃ t, exec (.cellReceive src dst seq len last payload true) s = .next t ∧
      t.out = s.out ∧ (t.ilink src dst).expect = (s.ilink src dst).expect ∧ (t.ilink src dst).discarding = (s.ilink src dst).discarding)) ∧
  (∀ (src dst : Fin 21) (seq : Fin 256) s, (∃ c ∈ (s.ilink src dst).unacked, c.seq = seq.val) → (s.ilink src dst).fails < 3 →
    ∃ t, exec (.cellNakReceived src dst seq) s = .next t ∧
      t.out = s.out ++ ((s.ilink src dst).unacked.dropWhile (fun c => c.seq != seq.val)).map .cellSent ∧
      t.rd Reg.cellResends = sat32 ((s.rd Reg.cellResends).toNat + ((s.ilink src dst).unacked.dropWhile (fun c => c.seq != seq.val)).length) ∧
      (∀ k, k ≠ Reg.cellResends → t.rd k = s.rd k) ∧
      (t.ilink src dst).unacked = (s.ilink src dst).unacked.dropWhile (fun c => c.seq != seq.val))

/-- Each cause of a power-fail sequence switches the data-path rails off and leaves only the store domain running on the hold-up bank; step
1 asserts ALERT_N. While a sequence runs, or in Sentry, none starts another; an over-voltage then still holds Power Rise off. (R35, R44,
R52, R58.) Step 5 ends with the summary record: how long it took, the stores done, and those left, staged records included; it is written
without an energy check once both ports are idle and no queued MRAM store could still start, and PFAIL_SUMMARY is recorded. (R125, R129,
R573.) After step 6 the store domain is released: Sentry is entered and the bank bleeds unless the input is above turn-on, which starts
Power Rise at once; what waited in the store queue and in staging is gone either way. (R52, R53, T1, R124.) -/
def Obligations.PowerFailSequence : Prop :=
  (∀ s, s.ctl.mode ≠ .sentry → s.pow.pfStep = 0 →
    (∃ t, exec .powerFail s = .next t ∧ t.pow.dataRails = false ∧ t.pow.bank = .holding ∧ t.fab.live = [18, 20] ∧
      t.ctl.intake = false ∧ t.pow.alertN = true ∧ t.events Ev.powerFail = satAdd (2 ^ 48 - 1) (s.events Ev.powerFail) 1) ∧
    (∃ t, exec .dieThermalShutdown s = .next t ∧ t.pow.dataRails = false ∧ t.pow.bank = .holding ∧ t.fab.live = [18, 20] ∧
      t.pow.pfStep = 5 ∧ t.ctl.intake = false ∧ t.ctl.mode = s.ctl.mode) ∧
    (∀ mv, 74000 < mv → ∃ t, exec (.inputOvervoltage mv) s = .next t ∧ t.pow.dataRails = false ∧ t.pow.bank = .holding ∧
      t.fab.live = [18, 20] ∧ t.ctl.intake = false ∧ t.pow.overvoltHold = true)) ∧
  (∀ s, 0 < s.pow.pfStep ∨ s.ctl.mode = .sentry → exec .powerFail s = .next s ∧ exec .dieThermalShutdown s = .next s) ∧
  (∀ s mv, 74000 < mv → s.ctl.mode ≠ .sentry → 0 < s.pow.pfStep → ∃ t, exec (.inputOvervoltage mv) s = .next t ∧
    t.pow.overvoltHold = true ∧ t.pow.converters = false ∧ t.pow.pfStep = s.pow.pfStep ∧ t.fab.live = s.fab.live) ∧
  (∀ s mv, mv ≤ 74000 ∨ s.ctl.mode = .sentry → exec (.inputOvervoltage mv) s = .next s) ∧
  (∀ s, s.pow.pfStep = 5 → s.st.mram = none → s.st.nor = none → (∀ r ∈ s.st.queue, r.cls = .nor ∨ s.energyOk r.cost 0 = false) →
    ∃ t, exec .pfailSummary s = .next t ∧
      t.mram.pfail = some ⟨(s.now - s.pow.pfStart) / 1000000, s.pow.pfDone, s.st.queue.length + s.led.staged.length, s.hdg.powerups⟩ ∧
      t.mram = { s.mram with pfail := t.mram.pfail } ∧ t.pow = { s.pow with pfStep := 6, alertN := t.pow.alertN } ∧
      t.st = { s.st with lost := t.st.lost } ∧ t.ctl = s.ctl ∧ t.boot = s.boot ∧ t.kvt = s.kvt ∧ t.fab = s.fab ∧
      (s.ctl.mode ≠ .sentry → t.events Ev.pfailSummary = satAdd (2 ^ 48 - 1) (s.events Ev.pfailSummary) 1)) ∧
  (∀ s loaded mv pos a b, s.pow.pfStep = 6 → s.st.mram = none → s.st.nor = none →
    (mv < 34000 → ∃ t, exec (.storeDomainRelease loaded mv pos a b) s = .next t ∧ t.ctl.mode = .sentry ∧ t.pow.bank = .bleeding ∧
      t.pow.pfStep = 0 ∧ t.pow.converters = false ∧ t.hdg.live = false ∧ t.hdg.evidKey = none ∧ t.st.queue = [] ∧ t.led.staged = []) ∧
    (34000 ≤ mv → mv ≤ 72000 → ∃ t, exec (.storeDomainRelease loaded mv pos a b) s = .next t ∧ t.ctl.mode = .powerRise ∧
      t.ctl.prevMode = .sentry ∧ t.pow.bank = .charging ∧ t.pow.converters = true ∧ t.hdg.live = true ∧ t.st.queue = []))

/-- PERST# low holds the Host Interface island in reset and takes its link down; it leaves the mode, the supplies but the pin, the stores
and the classifier as they are. PERST# high releases the island where its clock runs and changes nothing else. (R39.) Power Rise starts from
Sentry when the input is above turn-on (after an over-voltage shutdown only at 72 V or below): the Hedge moves to main power and counts the
power-up, YOKE_ID is sampled, the bank charges, only the store domain is out of reset. POWER_RISE, a return of power while the bank bleeds
and the release of the over-voltage hold agree in this. (R44, R53, R84, T1.) -/
def Obligations.PerstAndPowerRise : Prop :=
  (∀ s, ∃ t, exec .perstAssert s = .next t ∧ t.pow = { s.pow with perstHigh := false } ∧ 19 ∈ t.fab.inReset ∧
    t.fab.live = s.fab.live ∧ t.ctl = s.ctl ∧ t.boot = s.boot ∧ t.hdg = s.hdg ∧ t.mram = s.mram ∧ t.st = s.st ∧ t.cls = s.cls ∧
    t.mgd = s.mgd) ∧
  (∀ s, ∃ t, exec .perstRelease s = .next t ∧ t.pow = { s.pow with perstHigh := true } ∧
    (19 ∈ s.fab.live → 19 ∉ t.fab.inReset) ∧ (∀ i, i ≠ 19 → (i ∈ t.fab.inReset ↔ i ∈ s.fab.inReset)) ∧
    t = { s with pow := t.pow, fab := { s.fab with inReset := t.fab.inReset } }) ∧
  (∀ s mv pos a b, s.ctl.mode = .sentry → 34000 ≤ mv → mv ≤ 72000 →
    ∀ c ok, (c, ok) ∈ [(Instr.powerRise mv pos a b, true), (.powerReturnDuringBleed mv pos a b, s.pow.bank == BankState.bleeding),
        (.overvoltageRelease mv pos a b, s.pow.overvoltHold)] → ok = true →
      ∃ t, exec c s = .next t ∧ t.ctl.mode = .powerRise ∧ t.ctl.prevMode = .sentry ∧ t.now = 0 ∧ t.pow.inputMv = mv ∧
        t.pow.converters = true ∧ t.pow.bank = .charging ∧ t.pow.yokePos = pos ∧ t.pow.overvoltHold = false ∧ t.hdg.live = true ∧
        t.hdg.powerups = s.hdg.powerups + 1 ∧ t.fab.live = [18, 20] ∧ (∀ i ∈ allIslands, i ∈ t.fab.inReset ↔ i ≠ 18 ∧ i ≠ 20) ∧
        (t.events Ev.bleedFault = if a && b then s.events Ev.bleedFault else satAdd (2 ^ 48 - 1) (s.events Ev.bleedFault) 1) ∧
        t.mram = s.mram ∧ t.kvt = s.kvt)

/-- The bank's measured capacitance gives the available energy 0.5 × C × (V² − 23.7²); a bank of at least 4,500 µF raises the data-path
rails and nothing else happens to the mode. It is measured once. (R48, R49, R50.) Each millisecond the feeds' voltages and currents, the
input power with its peak, the bank voltage and the available energy are taken. (R49; outside the modes in which the service set answers,
R104, and with no store waiting.) In a power-fail sequence a bank at the floor of 23.7 V ends the store domain at once: Sentry, the queue
and the staged records gone. (R47.) A lost feed is marked, sticks in STW_FEED_STATUS and is recorded; restored, it is no longer lost and
FEED_RESTORED is recorded; restoring a feed that was not lost does nothing. (R42, R52, R61.) A lid or die reading is kept in STW_TEMP;
LID_OVERTEMP is recorded above 75 °C and at no lower reading, and a die reading of at most 110 °C has no other effect. Above 110 °C an
operating module outside a power-fail sequence goes to Recovery for a condition, which resets no island, with DIE_OVERTEMP as its last
alarm. (R35, R113, T17.) SVC_MUTE_N mutes and its release ends only that cause: the module is muted afterwards exactly if another cause
remains. Each is recorded. A change of YOKE_ID is recorded and has no other effect on the mode, the supplies or the sampled position. (R55,
R57, R59.) -/
def Obligations.SupplyFeedsHeatAndMute : Prop :=
  (∀ s uf v, s.ctl.mode ≠ .sentry → s.pow.capUf = 0 → 4500 ≤ uf → ∃ t, exec (.holdupCapMeasure uf v false) s = .next t ∧
    t.pow.capUf = uf ∧ t.pow.bank = .full ∧ t.pow.bankV = v ∧ t.pow.dataRails = true ∧
    t.pow.eAvail = uf * (v * v - 2370 * 2370) / 20000000 ∧ t.ctl.mode = s.ctl.mode ∧ Ev.holdupLowCap.code ∉ t.ctl.level2) ∧
  (∀ s uf v above, 0 < s.pow.capUf → exec (.holdupCapMeasure uf v above) s = .next s) ∧
  (∀ s (va vb ia ib p v : BitVec 16), s.ctl.mode ≠ .sentry → s.ctl.mode ≠ .service → s.ctl.mode.isYoke = false → s.st.queue = [] →
    (0 < s.pow.pfStep → 2370 < v.toNat) →
    ∃ t, exec (.supplySample va vb ia ib p v) s = .next t ∧ t.pow.bankV = v.toNat ∧
      t.pow.eAvail = s.pow.capUf * (v.toNat * v.toNat - 2370 * 2370) / 20000000 ∧ t.pow.inputMv = max va.toNat vb.toNat * 10 ∧
      (t.pow.aOk = true ↔ 3300 ≤ va.toNat) ∧ (t.pow.bOk = true ↔ 3300 ≤ vb.toNat) ∧
      t.fld (Reg.stwVin 0) 15 0 = va.toNat ∧ t.fld (Reg.stwVin 0) 31 16 = ia.toNat ∧ t.fld (Reg.stwVin 1) 15 0 = vb.toNat ∧
      t.fld (Reg.stwVin 1) 31 16 = ib.toNat ∧ t.fld Reg.stwInputPower 15 0 = p.toNat ∧
      t.fld Reg.stwInputPower 31 16 = max (s.fld Reg.stwInputPower 31 16) p.toNat) ∧
  (∀ s (va vb ia ib p v : BitVec 16), s.ctl.mode ≠ .sentry → 0 < s.pow.pfStep → v.toNat ≤ 2370 →
    ∃ t, exec (.supplySample va vb ia ib p v) s = .next t ∧ t.ctl.mode = .sentry ∧ t.pow.pfStep = 0 ∧ t.pow.bank = .bleeding ∧
      t.pow.alertN = false ∧ t.hdg.live = false ∧ t.st.queue = [] ∧ t.st.mram = none ∧ t.st.nor = none ∧ t.led.staged = []) ∧
  (∀ s b, s.ctl.mode ≠ .sentry → ∃ t, exec (.feedLost b) s = .next t ∧ (if b then t.pow.bLost else t.pow.aLost) = true ∧
    (if b then t.pow.bOk else t.pow.aOk) = false ∧ (if b then t.pow.aLost else t.pow.bLost) = (if b then s.pow.aLost else s.pow.bLost) ∧
    t.flg Reg.stwFeedStatus (if b then 5 else 4) = true ∧ t.events Ev.feedLost = satAdd (2 ^ 48 - 1) (s.events Ev.feedLost) 1 ∧
    t.ctl = s.ctl) ∧
  (∀ s b, s.ctl.mode ≠ .sentry → (if b then s.pow.bLost else s.pow.aLost) = true → ∃ t, exec (.feedRestored b) s = .next t ∧
    (if b then t.pow.bLost else t.pow.aLost) = false ∧ (if b then t.pow.bOk else t.pow.aOk) = true ∧
    t.events Ev.feedRestored = satAdd (2 ^ 48 - 1) (s.events Ev.feedRestored) 1 ∧ t.ctl = s.ctl) ∧
  (∀ s b, (if b then s.pow.bLost else s.pow.aLost) = false → exec (.feedRestored b) s = .next s) ∧
  (∀ (r : BitVec 16) s, s.ctl.mode ≠ .sentry → ∃ t, exec (.lidOvertemp r) s = .next t ∧ t.fld Reg.stwTemp 15 0 = r.toNat ∧
    t.fld Reg.stwTemp 31 16 = s.fld Reg.stwTemp 31 16 ∧
    t.events Ev.lidOvertemp = (if 1200 < r.toInt then satAdd (2 ^ 48 - 1) (s.events Ev.lidOvertemp) 1 else s.events Ev.lidOvertemp) ∧
    t.ctl = s.ctl) ∧
  (∀ (r : BitVec 16) s, r.toInt ≤ 1760 → ∃ t, exec (.dieOvertemp r) s = .next t ∧ t.fld Reg.stwTemp 31 16 = r.toNat ∧
    t.fld Reg.stwTemp 15 0 = s.fld Reg.stwTemp 15 0 ∧ t = { s with regs := t.regs }) ∧
  (∀ (r : BitVec 16) s, 1760 < r.toInt → s.ctl.mode.recovers = true → s.pow.pfStep = 0 →
    ∃ t, exec (.dieOvertemp r) s = .next t ∧ t.ctl.mode = .recovery ∧ t.ctl.prevMode = s.ctl.mode ∧ t.ctl.modeBefore = s.ctl.mode ∧
      t.ctl.lastCode = 0x0146 ∧ t.ctl.halted = true ∧ t.ctl.intake = false ∧ t.fab.inReset = s.fab.inReset) ∧
  (∀ s, s.ctl.mode ≠ .sentry → s.pow.svcMute = false → ∃ t, exec .svcMuteAssert s = .next t ∧ t.muted = true ∧
    t.pow = { s.pow with svcMute := true } ∧ t.ctl = s.ctl) ∧
  (∀ s, s.ctl.mode ≠ .sentry → s.pow.svcMute = true → ∃ t, exec .svcMuteRelease s = .next t ∧
    t.muted = State.muted { s with pow := { s.pow with svcMute := false } } ∧ t.pow = { s.pow with svcMute := false } ∧ t.ctl = s.ctl ∧
    t.events Ev.svcMute = satAdd (2 ^ 48 - 1) (s.events Ev.svcMute) 1) ∧
  (∀ s, s.ctl.mode ≠ .sentry → ∃ t, exec .yokeIdChanged s = .next t ∧ t.pow = s.pow ∧ t.ctl = s.ctl ∧ t.line = s.line ∧ t.hdg = s.hdg ∧
    t.events Ev.yokeIdChanged = satAdd (2 ^ 48 - 1) (s.events Ev.yokeIdChanged) 1)

/-- While an image command runs a further one is ignored and raises IMAGE_CMD_REFUSED. OP 13 to 15 ends at once with CODE 14 and changes
nothing else; OP 0 does nothing. (R89; every command clears its arm, R571.) -/
def Obligations.ImageCommandsRunOneAtATime : Prop :=
  ∀ p s, s.Reaches p Reg.stwImageCmd →
    (s.boot.job.isSome = true → ∀ (k : Fin 16) (n : Fin 4096) (r : Bool), ∀ c ∈ [Instr.writeOpen p k, .writeChunk p k n, .writeClose p k r,
        .activate p k, .confirm p, .revert p, .reboot p, .copyGolden p k, .imageErase p k, .raiseFloor p n, .revokeAuth p n,
        .setTrialMax p n, .imageCmdUnknown p 13], ∃ t, exec c s = .next t ∧ t.boot = s.boot ∧ t.st = s.st ∧ t.ctl = s.ctl ∧
      t.rd Reg.stwImageResult = s.rd Reg.stwImageResult ∧
      t.events Ev.imageCmdRefused = satAdd (2 ^ 48 - 1) (s.events Ev.imageCmdRefused) 1) ∧
    (s.boot.job = none → ∀ op : Fin 16, 13 ≤ op.val → ∃ t, exec (.imageCmdUnknown p op) s = .next t ∧ t.Ended Reg.stwImageResult 14 ∧
      t = { s with regs := t.regs, armed := t.armed } ∧ ∀ x, x ≠ Reg.stwImageResult → t.rd x = s.rd x) ∧
    (∃ t, exec (.imageCmdUnknown p 0) s = .next t ∧ t = { s with armed := t.armed }) ∧
    (∀ v : Word, bits v 3 0 = 0 → ∃ t, exec (.registerWrite p (BitVec.ofNat 25 Reg.stwImageCmd) 4 v) s = .next t ∧
      t = { s with armed := t.armed })

/-- ACTIVATE makes a Written or Good slot the Trial slot with PREFER to it and TRIES 0, and it is then the first candidate of the next Boot;
CONFIRM makes the running Trial slot Good, in Ready, Service or a Yoke mode only; REVERT sets PREFER to the other slot if that one is Good.
Each ends with CODE 0 once both copies of the slot-state record are stored. (R91; slots A and B, a store queue with room.) -/
def Obligations.ActivateConfirmRevert : Prop :=
  ∀ p s, s.Reaches p Reg.stwImageCmd → s.boot.job = none → s.boot.otpLife ≠ .scrapped → s.st.queue.length ≤ 252 →
    (∀ k : Fin 16, k.val < 2 → s.imageModeOk 4 = true → (s.slotMeta.st k = .written ∨ s.slotMeta.st k = .good →
        ∃ t, exec (.activate p k) s = .next t ∧ t.boot.job = some (.metaStore 0 0) ∧ t.slotMeta.candidates.head? = some k.val ∧
          t.slotMeta = { (s.slotMeta.setSt k .trial) with prefer := k, tries := 0, seq := s.boot.metaSeq }) ∧
      (s.slotMeta.st k ≠ .written → s.slotMeta.st k ≠ .good → ∃ t, exec (.activate p k) s = .next t ∧ t.boot = s.boot ∧ t.st = s.st ∧
        t.Ended Reg.stwImageResult 2)) ∧
    (s.ctl.mode = .ready ∨ s.ctl.mode = .service ∨ s.ctl.mode.isYoke = true → s.boot.booted < 3 → s.slotMeta.st s.boot.booted = .trial →
      ∃ t, exec (.confirm p) s = .next t ∧ t.boot.job = some (.metaStore 0 0) ∧
        t.slotMeta = { (s.slotMeta.setSt s.boot.booted .good) with seq := s.boot.metaSeq } ∧
        t.events Ev.imageConfirmed = satAdd (2 ^ 48 - 1) (s.events Ev.imageConfirmed) 1) ∧
    (s.ctl.mode ≠ .ready → s.ctl.mode ≠ .service → s.ctl.mode.isYoke = false → ∃ t, exec (.confirm p) s = .next t ∧ t.boot = s.boot ∧
      t.st = s.st ∧ t.Ended Reg.stwImageResult 4) ∧
    (s.imageModeOk 6 = true → s.slotMeta.st (1 - s.slotMeta.prefer) = .good → ∃ t, exec (.revert p) s = .next t ∧
      t.boot.job = some (.metaStore 0 0) ∧ t.slotMeta = { s.slotMeta with prefer := 1 - s.slotMeta.prefer, seq := s.boot.metaSeq }) ∧
    (s.imageModeOk 6 = true → s.slotMeta.st (1 - s.slotMeta.prefer) ≠ .good → ∃ t, exec (.revert p) s = .next t ∧ t.boot = s.boot ∧
      t.st = s.st ∧ t.Ended Reg.stwImageResult 2)

/-- The slot commands: WRITE_OPEN makes a slot Writing; WRITE_CHUNK starts with the erase of the slot's n-th good sector; WRITE_CLOSE makes
it Written, or Bad with the CODE of the failed check; SET_TRIAL_MAX stores 1 to 15; ERASE and COPY_GOLDEN leave their slot Empty and start
with its first sector. None is taken on the running or the golden slot. (R80, R81, R90, R92; a store queue with room.) A slot-state record
in both copies ends its command, and is the record in force; the copy's log holds its 64 bytes at their place. (R80, R81, R89.) -/
def Obligations.SlotCommandsWriteTheSlot : Prop :=
  (∀ p (k : Fin 16) s, s.TakesImage p 1 → s.st.queue.length ≤ 252 → k.val < 2 → k.val ≠ s.boot.booted → ∃ t, exec (.writeOpen p k) s = .next t ∧
    t.boot.job = some (.metaStore 0 0) ∧ t.slotMeta = { ((s.slotMeta.setSt k .writing).setImage k 0 0) with seq := s.boot.metaSeq }) ∧
  (∀ p (k : Fin 16) (n : Fin 4096) g s, s.TakesImage p 2 → k.val < 2 → k.val ≠ s.boot.booted → s.slotMeta.st k = .writing →
    (s.goodSectors k)[n.val]? = some g → s.st.queue = [] → s.st.nor = none → s.pow.pfStep = 0 → s.energyOk costErase (costOf s.st.mram) = true →
    ∃ t, exec (.writeChunk p k n) s = .next t ∧ t.boot = { s.boot with job := some (.chunk k n 17) } ∧
      t.st = { s.st with nor := some (eraseStore k g) } ∧ t = { s with boot := t.boot, st := t.st, armed := t.armed }) ∧
  (∀ k n g s, s.boot.job = some (.chunk k n 17) → (s.goodSectors k)[n]? = some g → eraseStore k g ∈ s.st.queue →
    ∃ t, exec .chunkEnergyTimeout s = .next t ∧ t.boot = { s.boot with job := none } ∧ t.Ended Reg.stwImageResult 5 ∧
      t.st = { s.st with queue := s.st.queue.filter (fun r => r.pay != (eraseStore k g).pay) }) ∧
  (∀ p (k : Fin 16) readOk s, s.TakesImage p 3 → s.st.queue.length ≤ 252 → k.val < 3 → s.slotMeta.st k = .writing →
    ∃ t, exec (.writeClose p k readOk) s = .next t ∧
      (s.checkImage k readOk = .good → t.boot.job = some (.metaStore 0 0) ∧ t.slotMeta.st k = .written) ∧
      (∀ ev code detail, s.checkImage k readOk = .bad ev code detail → t.boot.job = some (.metaStore code detail) ∧ t.slotMeta.st k = .bad)) ∧
  (∀ p (n : Fin 4096) s, s.TakesImage p 12 → s.st.queue.length ≤ 252 → 1 ≤ n.val → n.val ≤ 15 → ∃ t, exec (.setTrialMax p n) s = .next t ∧
    t.boot.job = some (.metaStore 0 0) ∧ t.slotMeta = { s.slotMeta with trialMax := n, seq := s.boot.metaSeq }) ∧
  (∀ p (k : Fin 16) s g gs, s.goodSectors k = g :: gs → s.TakesImage p 9 → s.st.queue.length ≤ 240 → k.val < 2 → k.val ≠ s.boot.booted →
    ∃ t, exec (.imageErase p k) s = .next t ∧ t.boot.job = some (.erase k gs) ∧ t.slotMeta.st k = .empty ∧ t.boot.nor = s.boot.nor) ∧
  (∀ p (k : Fin 16) s, s.TakesImage p 8 → s.st.queue.length ≤ 240 → k.val < 2 → s.slotMeta.st k = .good →
    leAt (s.slotBytes k 0 256) 38 2 % 2 = 1 → s.goodSectors 2 ≠ [] → ∃ t, exec (.copyGolden p k) s = .next t ∧
      t.boot.job = some (.copy k 0 17) ∧ t.slotMeta.stG = .empty) ∧
  (∀ p (k : Fin 16) (n : Fin 4096) s, s.Reaches p Reg.stwImageCmd → s.boot.job = none → s.boot.otpLife ≠ .scrapped →
    (k.val = 2 ∨ k.val = s.boot.booted ∧ k.val < 3) → ∀ c op, (c, op) ∈ [(Instr.writeOpen p k, 1), (.writeChunk p k n, 2), (.imageErase p k, 9)] →
    s.imageModeOk op = true → ∃ t, exec c s = .next t ∧ t.Ended Reg.stwImageResult 3 ∧ t.boot = s.boot ∧ t.st = s.st) ∧
  (∀ m g i code cost d s, s.st.nor = some ⟨.nor, cost, .norMeta 1 g i m, .unit 1 0, d⟩ → s.st.queue = [] → s.boot.job = some (.metaStore code 0) →
    code < 256 → s.asc.recOf = [] → ∃ t, exec (.storeComplete true true) s = .next t ∧ t.boot.slotMeta = some m ∧ t.boot.job = none ∧
      SMap.get noBytes t.boot.metaRecs (recKey 1 g i) = m.bytes 1 none ∧ t.st.nor = none ∧ t.Ended Reg.stwImageResult code ∧
      t.boot.nor = s.boot.nor)

/-- RAISE_FLOOR n burns the floor up to n and REVOKE_AUTH k burns the fuse of slot k and of no other, each with CODE 0. Either ends with
CODE 13 unless armed. RAISE_FLOOR with n 0 or above 128, with a running image that is not confirmed, or with the running or the golden image
below n ends with CODE 12 and burns nothing; at or below the present floor it ends with CODE 0 and burns nothing. REVOKE_AUTH of the slot
that signed the running image burns nothing. (R93.) -/
def Obligations.ArmedCommandsBurnOtp : Prop :=
  ∀ p s im, s.Reaches p Reg.stwImageCmd → s.boot.job = none → s.boot.otpLife ≠ .scrapped → s.boot.image = some im → s.boot.booted < 3 →
    (∀ n : Fin 4096, s.imageModeOk 10 = true → 1 ∈ s.armed → n.val ≤ 128 → s.slotMeta.st s.boot.booted = .good → n.val ≤ im.rollback →
      s.slotMeta.stG = .good → n.val ≤ s.slotMeta.rbG →
      (s.boot.floor < n.val → ∃ t, exec (.raiseFloor p n) s = .next t ∧ t.boot = { s.boot with floor := n } ∧
        t.Ended Reg.stwImageResult 0 ∧ t.events Ev.floorRaised = satAdd (2 ^ 48 - 1) (s.events Ev.floorRaised) 1) ∧
      (1 ≤ n.val → n.val ≤ s.boot.floor → ∃ t, exec (.raiseFloor p n) s = .next t ∧ t.Ended Reg.stwImageResult 0 ∧
        t = { s with regs := t.regs, armed := t.armed })) ∧
    (∀ n : Fin 4096, s.imageModeOk 10 = true → 1 ∈ s.armed → (n.val = 0 ∨ 128 < n.val ∨ s.slotMeta.st s.boot.booted ≠ .good ∨
      im.rollback < n.val ∨ s.slotMeta.rbG < n.val) → ∃ t, exec (.raiseFloor p n) s = .next t ∧
        t.Ended Reg.stwImageResult 12 ∧ t = { s with regs := t.regs, armed := t.armed }) ∧
    (∀ k : Fin 4096, s.imageModeOk 11 = true → 1 ∈ s.armed → k.val < 4 → im.authSlot ≠ k.val → ∃ t, exec (.revokeAuth p k) s = .next t ∧
      t.Ended Reg.stwImageResult 0 ∧ (∀ a, s.boot.auth[k.val]? = some a → t.boot.auth[k.val]? = some { a with revoked := true }) ∧
      (∀ j, j ≠ k.val → t.boot.auth[j]? = s.boot.auth[j]?) ∧ t.boot = { s.boot with auth := t.boot.auth }) ∧
    (∀ k : Fin 4096, s.imageModeOk 11 = true → 1 ∈ s.armed → im.authSlot = k.val → ∃ t, exec (.revokeAuth p k) s = .next t ∧
      t.Ended Reg.stwImageResult 12 ∧ t.boot = s.boot) ∧
    (∀ n : Fin 4096, 1 ∉ s.armed → (s.imageModeOk 10 = true → ∃ t, exec (.raiseFloor p n) s = .next t ∧ t.Ended Reg.stwImageResult 13 ∧
        t.boot = s.boot) ∧
      (s.imageModeOk 11 = true → ∃ t, exec (.revokeAuth p n) s = .next t ∧ t.Ended Reg.stwImageResult 13 ∧ t.boot = s.boot))

/-- Boot: at B1 only the Host Interface, Steward and Hedge clocks run; a Scrapped module holds with reason 3, erased roots lead to Zeroized,
else B3 takes the first candidate of R82 and counts the try of a Trial slot. A candidate that passes every check has its sections applied;
one that cannot be read is reported, and without another Boot holds with reason 1. The Memory Guard's start-up ends B8, once the scan of the
log has ended, or holds Boot with reason 2; the unsealing ends B9, once every queued store has started, and B10 enters Calibrate with
LOG_CAL_INFO.VALID as R566 says. (R80, R82 to R86, R124, R300, R505, R549, R566; an image without presets.) -/
def Obligations.BootRunsToCalibrate : Prop :=
  (∀ good s, (s.ctl.mode = .powerRise ∧ s.pow.dataRails = true ∨ s.ctl.mode = .boot ∧ s.boot.phase = 0) → ∃ t, exec (.bootEntry good) s = .next t ∧
    t.fab.live = [18, 19, 20] ∧ (∀ i, i ∈ t.fab.inReset ↔ i ∈ allIslands ∧ i ≠ 18 ∧ i ≠ 20 ∧ (i = 19 → s.pow.perstHigh = false)) ∧
    (s.boot.otpLife = .scrapped → t.ctl.mode = .boot ∧ t.boot.phase = 11 ∧ t.boot.hold = 3 ∧ t.hdg.rootCause = 5) ∧
    (s.boot.otpLife = .production → s.hdg.roots = List.replicate 4 none → s.hdg.pendingRoot = none → s.hdg.latch = none →
      s.hdg.zeroized = true → t.ctl.mode = .zeroized ∧ t.ctl.prevMode = .boot ∧ t.hdg.rootCause = 1) ∧
    (s.boot.otpLife = .raw ∨ s.boot.otpLife ≠ .scrapped ∧ s.presentRoot.isSome = true ∧ s.hdg.rootCheckOk = true →
      s.hdg.pendingRoot = none → s.hdg.latch = none → s.hdg.pend = [] → s.boot.metaLost = false → good = true → s.metaOut = false →
      ∀ m k ks, s.boot.newest = some m → m.candidates = k :: ks → s.st.queue.length ≤ 252 → m.tries < m.trialMax →
      t.ctl.mode = .boot ∧ t.boot.phase = 4 ∧ t.boot.cands = k :: ks ∧
      t.slotMeta = (if m.st k = .trial then { m with tries := m.tries + 1, seq := s.boot.metaSeq } else m))) ∧
  (∀ readOk k ks s, s.ctl.mode = .boot → s.boot.phase = 4 → s.boot.cands = k :: ks → k < 3 → s.boot.metaLost = false → s.st.queue.length ≤ 248 →
    s.slotMeta.st k = .good → ∃ t, exec (.imageCandidateRead readOk) s = .next t ∧
      (s.checkImage k readOk = .good → sectionsGood (s.imageOf k) = true → (structureOf (s.imageOf k)).presets = [] →
        t.boot.image = some (structureOf (s.imageOf k)) ∧ t.boot.booted = k ∧ t.boot.phase = 8 ∧ t.boot.cands = [] ∧ t.ctl.mode = .boot ∧
        t.fab.live = allIslands) ∧
      (readOk = false → t.events Ev.imageCrcFail = satAdd (2 ^ 48 - 1) (s.events Ev.imageCrcFail) 1 ∧ t.slotMeta.st k = .bad ∧
        t.ctl.mode = .boot ∧ (ks = [] → t.boot.phase = 11 ∧ t.boot.hold = 1) ∧
        (∀ j js, ks = j :: js → j ≠ k → j < 3 → s.slotMeta.st j = .good → t.boot.phase = 4 ∧ t.boot.cands = ks))) ∧
  (∀ s, s.ctl.mode = .boot → s.boot.phase = 8 →
    (s.led.scanned = true → ∃ t, exec (.mgdInitDone true) s = .next t ∧ t.ctl.mode = .boot ∧ t.boot = { s.boot with phase := 9 } ∧ t.mgd.initDone = true ∧
      t.mgd.lines = [] ∧ t.mgd.kg.isSome = true) ∧
    (s.led.scanned = false → exec (.mgdInitDone true) s = .next { s with held := s.held ++ [.mgdInitDone true] }) ∧
    (∃ t, exec (.mgdInitDone false) s = .next t ∧ t.ctl.mode = .boot ∧ t.boot = { s.boot with phase := 11, hold := 2 } ∧
      t.ctl.lastCode = Ev.mgdInitFail.code)) ∧
  (∀ s, s.ctl.mode = .boot → s.boot.phase = 9 → s.st.queue ≠ [] → exec .kvtUnsealDone s = .next { s with held := s.held ++ [.kvtUnsealDone] }) ∧
  (∀ s, s.ctl.mode = .boot → s.boot.phase = 9 → s.st.queue = [] → ∃ t, exec .kvtUnsealDone s = .next t ∧ t.ctl.mode = .calibrate ∧ t.ctl.prevMode = .boot ∧
    t.boot = { s.boot with phase := 10 } ∧ t.kvt.unsealDone = true ∧ 
    (t.led.calValid = true ↔ bits (s.calWord 1) 31 16 = 1 ∧ ∀ i ∈ [0, 4, 5, 16383], calWordBad (fun i => s.calWord i) i = false) ∧
    ∀ im, s.boot.image = some im → t.rd Reg.imageDigest = BitVec.ofNat 32 (ofBe (slice im.digest 0 4)))

/-- A mode command whose guards hold has its effect with CODE 0: GO_SERVICE takes Ready to Service with intake open, SELF_TEST takes Ready
to Self-Test with the tests asked for, UNYOKE takes Yoke Lead to Service, CLEAR_DEGRADE ends Degrade. Each ends the automatic attempts.
(R99, R102, R110, R574, R575.) -/
def Obligations.ModeCommandsComplete : Prop :=
  ∀ p s, s.Reaches p Reg.stwModeCmd → s.ctl.cmd = none →
    (s.ctl.mode = .ready → s.boot.otpLife ≠ .raw → s.setComplete = true → ∃ t, exec (.goService p) s = .next t ∧
      t.ctl.mode = .service ∧ t.ctl.prevMode = .ready ∧ t.ctl.intake = true ∧ t.ctl.autoOn = false ∧ t.Ended Reg.stwModeResult 0) ∧
    (∀ mask : BitVec 8, s.ctl.mode = .ready → s.ctl.responseEnds ≤ s.now → ∃ t, exec (.selfTest p mask) s = .next t ∧
      t.ctl.mode = .selfTest ∧ t.ctl.selfTestMask = mask.toNat % 64 ∧ t.fld Reg.stwSelftest 13 0 = 0 ∧ t.ctl.autoOn = false ∧
      t.muted = true ∧ t.Ended Reg.stwModeResult 0) ∧
    (s.ctl.mode = .yokeLead → ∃ t, exec (.unyoke p) s = .next t ∧ t.ctl.mode = .service ∧ t.ctl.prevMode = .yokeLead ∧
      t.yok.step = 0 ∧ t.yok.muted = false ∧ t.Ended Reg.stwModeResult 0) ∧
    (s.ctl.level2 = [] → s.ctl.stuck = false → ∃ t, exec (.clearDegrade p) s = .next t ∧ t.ctl.degraded = false ∧
      t.ctl.mode = s.ctl.mode ∧ t.ctl.halted = s.ctl.halted ∧ t.Ended Reg.stwModeResult 0)

/-- GO_YOKE and STOP run until they end: GO_YOKE starts pairing and ends with CODE 5 if the twin has made no request within 1 s; STOP closes
intake and ends in Ready with CODE 0 once every frame has left or 1 ms has passed. While one runs a further write is ignored and raises
MODE_CMD_REFUSED, and the running one goes on. (R99, R102, R572, R576, T8, T14.) -/
def Obligations.RunningModeCommands : Prop :=
  (∀ p s, s.Reaches p Reg.stwModeCmd → s.ctl.cmd = none → s.ctl.mode = .ready → s.boot.otpLife ≠ .raw → s.setComplete = true →
    s.yok.lanes = 15 → ∃ t, exec (.goYoke p) s = .next t ∧ t.ctl.cmd = some .goYoke ∧ t.ctl.cmdStart = s.now ∧
      t.yok.pairing.isSome = true ∧ t.ctl.mode = .ready) ∧
  (∀ s, s.ctl.cmd = some .goYoke → s.twinHeard = false → s.ctl.cmdStart + 1000000000 ≤ s.now → ∃ t, exec .goYokeTimeout s = .next t ∧
    t.ctl.cmd = none ∧ t.yok.pairing = none ∧ t.ctl.mode = s.ctl.mode ∧ t.Ended Reg.stwModeResult 5) ∧
  (∀ s, s.ctl.cmd ≠ some .goYoke ∨ s.twinHeard = true ∨ s.now < s.ctl.cmdStart + 1000000000 → exec .goYokeTimeout s = .next s) ∧
  (∀ p s, s.Reaches p Reg.stwModeCmd → s.ctl.cmd = none → (s.ctl.mode = .service ∨ s.ctl.mode.isYoke = true) →
    ∃ t, exec (.modeStop p) s = .next t ∧ t.ctl.cmd = some .stop ∧ t.ctl.intake = false ∧ t.ctl.mode = s.ctl.mode) ∧
  (∀ s, s.ctl.cmd = some .stop → s.ctl.mode = .service → s.sch.frames = [] ∨ s.ctl.cmdStart + 1000000 ≤ s.now →
    ∃ t, exec .stopDrainEnd s = .next t ∧ t.ctl.mode = .ready ∧ t.ctl.prevMode = .service ∧ t.ctl.cmd = none ∧ t.sch.frames = [] ∧
      t.Ended Reg.stwModeResult 0) ∧
  (∀ s, s.ctl.cmd ≠ some .stop ∨ s.sch.frames ≠ [] ∧ s.now < s.ctl.cmdStart + 1000000 → exec .stopDrainEnd s = .next s) ∧
  (∀ p s, s.Reaches p Reg.stwModeCmd → s.ctl.cmd.isSome = true →
    ∀ c ∈ [Instr.goService p, .goYoke p, .modeStop p, .selfTest p 0, .unyoke p, .moduleReset p, .clearDegrade p, .modeCmdUnknown p 8],
      ∃ t, exec c s = .next t ∧ t.ctl = { s.ctl with autoOn := false } ∧ t.rd Reg.stwModeResult = s.rd Reg.stwModeResult ∧
        t.events Ev.modeCmdRefused = satAdd (2 ^ 48 - 1) (s.events Ev.modeCmdRefused) 1)

/-- The guards of a mode command are checked in the order of R575, and the first that fails gives the CODE: unknown OP 7, wrong mode 1, life
cycle Raw 4, a level 2 condition for CLEAR_DEGRADE 6, a response still running for SELF_TEST 8, an incomplete service set 2, the Dithal link
down for GO_YOKE 5. A refused command leaves the mode and raises MODE_CMD_REFUSED. (R575.) -/
def Obligations.FirstFailingGuardGivesTheCode : Prop :=
  ∀ p s, s.Reaches p Reg.stwModeCmd → s.ctl.cmd = none → ∀ m (op : Fin 16) c ok k, (c, ok, k) ∈
      [(Instr.modeCmdUnknown p op, decide (8 ≤ op.val), 7),
       (.goService p, decide (s.ctl.mode ≠ .ready), 1),
       (.goService p, decide (s.ctl.mode = .ready ∧ s.boot.otpLife = .raw), 4),
       (.goService p, decide (s.ctl.mode = .ready ∧ s.boot.otpLife ≠ .raw ∧ s.setComplete = false), 2),
       (.goYoke p, decide (s.ctl.mode ≠ .ready ∧ s.ctl.mode ≠ .service), 1),
       (.goYoke p, decide (s.ctl.mode = .ready ∧ s.boot.otpLife ≠ .raw ∧ s.setComplete = true ∧ s.yok.lanes ≠ 15), 5),
       (.modeStop p, decide (s.ctl.mode = .ready), 1),
       (.selfTest p m, decide (s.ctl.mode = .service), 1),
       (.selfTest p m, decide (s.ctl.mode = .ready ∧ s.now < s.ctl.responseEnds), 8),
       (.unyoke p, decide (s.ctl.mode ≠ .yokeLead), 1),
       (.clearDegrade p, decide (s.ctl.stuck = false ∧ s.ctl.level2 ≠ []), 6)] → ok = true →
    ∃ t, exec c s = .next t ∧ t.Ended Reg.stwModeResult k ∧ t.ctl = { s.ctl with autoOn := false } ∧
      t.events Ev.modeCmdRefused = satAdd (2 ^ 48 - 1) (s.events Ev.modeCmdRefused) 1

/-- A module reset enters Boot before its first step with every register at its reset value but the Hedge's, which stay without HDG_CFG,
every working key gone and its cause kept, and leaves the Hedge's roots and evidence, OTP, MRAM, NOR, the store queue and ports, the event
counters' codes and the supplies: MODULE_RESET with cause 2, REBOOT with cause 1 where image commands are accepted, the Steward watchdog
with cause 4. (R110, R124, R126, R127, R128.) -/
def Obligations.ModuleResetEntersBoot : Prop :=
  ∀ p s, s.ctl.mode ≠ .sentry → ∀ c ok k, (c, ok, k) ∈
      [(Instr.moduleReset p, decide (s.Reaches p Reg.stwModeCmd ∧ s.ctl.cmd = none), 2),
       (.reboot p, decide (s.Reaches p Reg.stwImageCmd ∧ s.boot.job = none ∧ s.boot.otpLife ≠ .scrapped ∧ s.imageModeOk 7 = true), 1),
       (.stewardWatchdog, true, 4)] → ok = true →
    ∃ t, exec c s = .next t ∧ t.ctl.mode = .boot ∧ t.ctl.resetCause = k ∧ t.boot.phase = 0 ∧ t.boot.image = none ∧ t.boot.job = none ∧
      t.kvt.slots = [] ∧ t.st = s.st ∧ t.mram = s.mram ∧ t.boot.nor = s.boot.nor ∧ t.boot.floor = s.boot.floor ∧
      t.hdg.roots = s.hdg.roots ∧ t.hdg.log = s.hdg.log ∧ t.hdg.evidKey = s.hdg.evidKey ∧ t.pow = { s.pow with alertN := t.pow.alertN } ∧ t.ctl.cmd = none ∧
      (∀ i ∈ allIslands, i ∈ t.fab.inReset) ∧ t.held = [] ∧ (s.ctl.degraded = true → t.ctl.degraded = true) ∧
      (∀ x, x ≠ Reg.stwAlert → x ≠ Reg.logLost → t.rd x =
        (if 0xD00000 ≤ x ∧ x < 0xE00000 ∧ x ≠ Reg.hdgCfg then s.rd x else regDefault x))

/-- Self-Test ends with the tests that ran and those of them that failed in STW_SELFTEST, and Ready is entered. (R99, T16.) Calibrate ends
in Ready; with AUTO_TARGET 0 nothing follows. An automatic attempt with AUTO_TARGET 1 and every guard of T7 met enters Service and ends the
attempts; where a guard fails it changes nothing, and neither does an attempt in another mode or with none running. (R98, R574, T6.) -/
def Obligations.SelfTestAndAutomaticAttempts : Prop :=
  (∀ (fail : BitVec 6) s, s.ctl.mode = .selfTest → s.ctl.selfTestMask < 64 → ∃ t, exec (.selfTestEnd fail) s = .next t ∧
    t.ctl.mode = .ready ∧ t.ctl.prevMode = .selfTest ∧ t.fld Reg.stwSelftest 5 0 = s.ctl.selfTestMask ∧
    t.fld Reg.stwSelftest 13 8 = fail.toNat &&& s.ctl.selfTestMask ∧ t.flg Reg.stwSelftest 31 = true ∧
    (fail.toNat &&& s.ctl.selfTestMask ≠ 0 → t.ctl.degraded = true)) ∧
  (∀ s, s.ctl.mode = .calibrate → s.fld Reg.stwModeCfg 1 0 ≠ 1 → s.fld Reg.stwModeCfg 1 0 ≠ 2 → ∃ t, exec .calibrateEnd s = .next t ∧
    t.ctl.mode = .ready ∧ t.ctl.prevMode = .calibrate ∧ t.ctl.autoOn = s.ctl.autoOn) ∧
  (∀ s, s.ctl.mode = .ready → s.ctl.autoOn = true → s.fld Reg.stwModeCfg 1 0 = 1 → s.modeGuard 1 = 0 →
    ∃ t, exec .autoServiceAttempt s = .next t ∧ t.ctl.mode = .service ∧ t.ctl.intake = true ∧ t.ctl.autoOn = false ∧
      t.rd Reg.stwModeResult = s.rd Reg.stwModeResult) ∧
  (∀ s, s.ctl.mode = .ready → s.ctl.autoOn = true → s.fld Reg.stwModeCfg 1 0 = 1 → s.modeGuard 1 ≠ 0 →
    exec .autoServiceAttempt s = .next s) ∧
  (∀ s, s.ctl.mode ≠ .ready ∨ s.ctl.autoOn = false → exec .autoServiceAttempt s = .next s)

/-- Recovery: at V5 the reset islands are released and V6 follows, a table that fails its scan escalates to a module reset, or to the stuck
state once RECOVERY_LIMIT would be exceeded; at V6 with the cause cleared and no service part lost, the module resumes Service with intake
open, or Ready. The escalation window's end restarts its count and does nothing else. (R111 to R115, T18; V5 is stated for a module without
contexts and line groups.) -/
def Obligations.RecoveryReleasesAndResumes : Prop :=
  (∀ s, s.ctl.mode = .recovery → s.ctl.recStep = 4 → s.ctl.stuck = false → s.asc.ctxs = [] → s.asc.cache = [] →
    (∀ i ∈ s.ctl.recIslands, i ≠ 14 ∧ i ≠ 15) → (∀ g < 16, s.groupKind g = 0) →
    ∃ t, exec (.recoveryIslandsReleased true) s = .next t ∧ t.ctl.recStep = 6 ∧
      ∀ i ∈ s.ctl.recIslands, i ∈ t.fab.live ∧ i ∉ t.fab.inReset) ∧
  (∀ s, s.ctl.mode = .recovery → s.ctl.recStep = 4 → s.ctl.stuck = false → s.ctl.escalations + 1 ≤ s.recoveryLimit →
    ∃ t, exec (.recoveryIslandsReleased false) s = .next t ∧ t.ctl.mode = .boot ∧ t.ctl.resetCause = 3 ∧
      t.ctl.escalations = s.ctl.escalations + 1) ∧
  (∀ s, s.ctl.mode = .recovery → s.ctl.recStep = 4 → s.ctl.stuck = false → s.recoveryLimit < s.ctl.escalations + 1 →
    ∃ t, exec (.recoveryIslandsReleased false) s = .next t ∧ t.ctl.mode = .recovery ∧ t.ctl.stuck = true ∧
      t.ctl.escalations = s.ctl.escalations) ∧
  (∀ s, s.ctl.mode = .recovery → s.ctl.recStep = 6 → s.ctl.stuck = false → s.mgd.initDone = true →
    s.ctl.partsBefore &&& s.partsNow = s.ctl.partsBefore →
    (s.ctl.modeBefore = .service → ∃ t, exec .recoveryCauseCleared s = .next t ∧ t.ctl.mode = .service ∧ t.ctl.intake = true ∧
      t.ctl.halted = false ∧ t.ctl.recStep = 0 ∧ t.ctl.outcome = 1) ∧
    (s.ctl.modeBefore = .ready → ∃ t, exec .recoveryCauseCleared s = .next t ∧ t.ctl.mode = .ready ∧ t.ctl.halted = false ∧
      t.ctl.recStep = 0 ∧ t.ctl.outcome = 1)) ∧
  (∀ s, exec .escalationWindowExpiry s = .next { s with ctl := { s.ctl with escalations := 0 } })

/-- A store starts exactly if its port is idle and its cost, the reserve and the cost on the other port are covered by the available energy;
else it waits, is marked deferred once and counted. A full queue refuses it with STORE_QUEUE_FULL. A retry starts a deferred store once the
energy is there. A completed store is durable and frees its port. (R121, R122, R124; single stores of MRAM, outside a power-fail sequence.)
A Ledger command whose store has waited too long ends with its deferral CODE 6; RELEASE keeps its store queued and CAL_WRITE stores nothing.
(R549, R565.) -/
def Obligations.StoresStartUnderTheEnergyCheck : Prop :=
  (∀ (cls : Fin 8) cost s, cls.val ≠ 7 → s.st.queue = [] → s.st.mram = none → s.pow.pfStep = 0 →
    (cost + s.reserveMj + costOf s.st.nor ≤ s.pow.eAvail → ∃ t, exec (.storeRequest cls cost) s = .next t ∧
      t.st.mram = some ⟨storeClassOf cls, cost, .other, .nobody, false⟩ ∧ t.st.queue = [] ∧ t = { s with st := t.st }) ∧
    (s.pow.eAvail < cost + s.reserveMj + costOf s.st.nor → ∃ t, exec (.storeRequest cls cost) s = .next t ∧ t.st.mram = none ∧
      t.st.queue = [⟨storeClassOf cls, cost, .other, .nobody, true⟩] ∧
      t.rd Reg.stwStoreDeferrals = sat32 ((s.rd Reg.stwStoreDeferrals).toNat + 1))) ∧
  (∀ (cls : Fin 8) cost s, 256 ≤ s.st.queue.length → s.ctl.mode ≠ .sentry → s.ctl.mode.erases = false → ∃ t, exec (.storeRequest cls cost) s = .next t ∧
    t.st = s.st ∧ t.ctl.lastCode = 0x0121 ∧ t.ctl.degraded = true ∧ t.events Ev.storeQueueFull = satAdd (2 ^ 48 - 1) (s.events Ev.storeQueueFull) 1) ∧
  (∀ r s, s.st.queue = [r] → r.cls ≠ .nor → s.st.mram = none → s.pow.pfStep = 0 → r.cost + s.reserveMj + costOf s.st.nor ≤ s.pow.eAvail →
    ∃ t, exec .storeRetryCheck s = .next t ∧ t.st.mram = some r ∧ t.st.queue = [] ∧ t = { s with st := t.st }) ∧
  (∀ b cost d s, s.st.mram = some ⟨.stale, cost, .stale b, .nobody, d⟩ → s.st.queue = [] → s.asc.recOf = [] →
    ∃ t, exec (.storeComplete false true) s = .next t ∧ t.mram.stale = b ∧ t.st.mram = none ∧ t.st.queue = [] ∧ t.st.nor = s.st.nor) ∧
  (∀ s, s.st.mram = none → exec (.storeComplete false true) s = .next s ∧ exec (.storeComplete false false) s = .next s) ∧
  (∀ s, (∃ r, r ∈ s.st.queue ∧ r.who = .unit 14 0) →
    (∀ k, s.led.cmd = some k → k ≠ 5 → ∃ t, exec (.storeDeferralExceeded 14 0) s = .next t ∧ t.led.cmd = none ∧ t.Ended Reg.logResult 6 ∧
      t.st.queue.length = s.st.queue.length ∧ ∀ r ∈ t.st.queue, r.who ≠ .unit 14 0) ∧
    (s.led.cmd = some 5 → ∃ t, exec (.storeDeferralExceeded 14 0) s = .next t ∧ t.led.cmd = none ∧ t.Ended Reg.logResult 6 ∧
      t.st.queue = s.st.queue.filter (fun r => r.who != .unit 14 0)))

/-- Lane and port conditions outside Service and the Yoke modes: a newly absent signal or lock declares LOS or LOL once, sets its STATUS bit
and is recorded; its return clears it; a window's counts declare and clear SD and EXC by the bounds of the lane's group (on a client lane by
the model's bounds, log entry 100) once the lane's windows run, FEC mode 1 correcting nothing; the PCS state sets UP, recorded at each
change, and a client port with PCS_DOWN sends remote fault; a received frame counts as dropped, good or bad, or under SF as discarded. No
other lane or port changes. (R132, R133, R166 to R169.) The one-second tick copies every lane, group and port count to its latched register,
restarts the counts but for the defects that hold on, and counts itself in LNF_SECOND with SOURCE. (R170, R172.) A lane test value is taken
where R173 permits it, else the whole write is refused with LANE_CTRL_REFUSED; a port or group with a lane in test has PCS_DOWN or SF.
Enabling a port or group sets its ENABLE and returns PRBS and LOOPBACK of its lanes to 0; enabling an entry that the image leaves unused
changes nothing and raises STRUCTURE_BOUND. (R63, R133, R169, R173; outside Service and the Yoke modes.) -/
def Obligations.LanesPortsAndSeconds : Prop :=
  (∀ (n : Fin 32) s, s.Calm → (s.lane n).los = false → ∃ t, exec (.laneLos n) s = .next t ∧
    t.line.lanes = (s.touchLane n (fun l => { l with los := true, signal := false })).line.lanes ∧ t.flg (Reg.lnfLaneStatus n) 3 = true ∧
    t.events Ev.laneLos = satAdd (2 ^ 48 - 1) (s.events Ev.laneLos) 1 ∧ t.ctl.mode = s.ctl.mode) ∧
  (∀ (n : Fin 32) s, s.Calm → (s.lane n).lol = false → ∃ t, exec (.laneLol n) s = .next t ∧
    t.line.lanes = (s.touchLane n (fun l => { l with lol := true, cdrLock := false, cwLock := false })).line.lanes ∧
    t.flg (Reg.lnfLaneStatus n) 2 = true ∧ t.events Ev.laneLol = satAdd (2 ^ 48 - 1) (s.events Ev.laneLol) 1 ∧ t.ctl.mode = s.ctl.mode) ∧
  (∀ (n : Fin 32) s, ((s.lane n).los = true → exec (.laneLos n) s = .next (s.setLane n (fun l => { l with signal := false }))) ∧
    ((s.lane n).lol = true → exec (.laneLol n) s = .next (s.setLane n (fun l => { l with cdrLock := false })))) ∧
  (∀ (n : Fin 32) s, s.Calm →
    ((s.lane n).los = true → ∃ t, exec (.laneClear n false) s = .next t ∧
      t.line.lanes = (s.touchLane n (fun l => { l with los := false, signal := true })).line.lanes ∧
      t.events Ev.laneClear = satAdd (2 ^ 48 - 1) (s.events Ev.laneClear) 1) ∧
    ((s.lane n).lol = true → ∃ t, exec (.laneClear n true) s = .next t ∧
      t.line.lanes = (s.touchLane n (fun l => { l with lol := false, cdrLock := true })).line.lanes ∧
      t.events Ev.laneClear = satAdd (2 ^ 48 - 1) (s.events Ev.laneClear) 1)) ∧
  (∀ (n : Fin 32) sym cw unc s, (s.lane n).windows = false → ∃ t, exec (.fecWindowEnd n sym cw unc) s = .next t ∧
    t.line.lanes = (s.setLane n (fun l => { l with
      sec := secAdd (secAdd (secAdd l.sec 0 (if s.fecMode n = 1 then 0 else cw)) 1 unc) 2 (if s.fecMode n = 1 then 0 else sym) })).line.lanes ∧
    t.flg (Reg.lnfLaneStatus n) 0 = (decide (0 < unc) || s.flg (Reg.lnfLaneStatus n) 0) ∧
    t = { s with regs := t.regs, line := { s.line with lanes := t.line.lanes } }) ∧
  (∀ (n : Fin 32) sym cw unc s, s.Calm → (s.lane n).windows = true → ∃ t, exec (.fecWindowEnd n sym cw unc) s = .next t ∧
    (t.line.lanes[n.val]?).map (·.sd) = (s.line.lanes[n.val]?).map (fun l => decide ((s.fecBounds n).1 < if s.fecMode n = 1 then 0 else sym) ||
      (l.sd && !decide ((s.fecBounds n).2.2.2 ≤ (if (if s.fecMode n = 1 then 0 else sym) ≤ (s.fecBounds n).2.1 then l.sdQuiet + 1 else 0)))) ∧
    (t.line.lanes[n.val]?).map (·.exc) = (s.line.lanes[n.val]?).map (fun l => decide ((s.fecBounds n).2.2.1 ≤ unc) ||
      (l.exc && !decide ((s.fecBounds n).2.2.2 ≤ (if unc < (s.fecBounds n).2.2.1 then l.excQuiet + 1 else 0)))) ∧
    (∀ m, m ≠ n.val → t.line.lanes[m]? = s.line.lanes[m]?) ∧ t.flg (Reg.lnfLaneStatus n) 0 = (decide (0 < unc) || s.flg (Reg.lnfLaneStatus n) 0)) ∧
  (∀ (p : Fin 32) al hb lf rf s, s.Calm → ∀ down, down = (!al || hb || lf || (s.entryLanes p).any s.inTest) →
    ∃ t, exec (.pcsStateChange p al hb lf rf) s = .next t ∧
    t.line.eth[p.val]? = (s.line.eth[p.val]?).map (fun x => { x with
      aligned := al, hiBer := hb, localFault := lf, remoteFault := rf, up := s.ethEnabled p && !down
      faultSent := decide (p.val < 16) && s.portEnabled p && down }) ∧
    (∀ m, m ≠ p.val → t.line.eth[m]? = s.line.eth[m]?) ∧
    (∀ n ∈ s.entryLanes p, (t.line.lanes[n]?).map (·.windows) = (s.line.lanes[n]?).map (fun l => l.windows || al)) ∧
    (∀ x, s.line.eth[p.val]? = some x → (decide (p.val < 16) && s.portEnabled p && down) ≠ x.faultSent →
      .remoteFault p (decide (p.val < 16) && s.portEnabled p && down) ∈ t.out) ∧
    t.events Ev.ethLinkDown = (if (s.ethPort p).up && !(s.ethEnabled p && !down) then satAdd (2 ^ 48 - 1) (s.events Ev.ethLinkDown) 1
      else s.events Ev.ethLinkDown) ∧
    t.events Ev.ethLinkUp = (if (s.line.eth[p.val]?).isSome && !(s.ethPort p).up && (s.ethEnabled p && !down) then
      satAdd (2 ^ 48 - 1) (s.events Ev.ethLinkUp) 1 else s.events Ev.ethLinkUp)) ∧
  (∀ (p : Fin 32) f s, (s.ethEnabled p = false → exec (.ethFrameReceive p f) s = .next s) ∧
    (s.ethEnabled p = true → 16 ≤ p.val → (s.group (p - 16)).sf = true → exec (.ethFrameReceive p f) s = .next (s.tally (tallySf (p - 16)))) ∧
    (s.ethEnabled p = true → (16 ≤ p.val → (s.group (p - 16)).sf = false) → exec (.ethFrameReceive p f) s = .next (s.ethCount p
      (if f.length < 64 ∨ s.fld (Reg.lnfEthCtrl p) 17 4 < f.length ∨ etherType f = 0x8808 then 2 else if fcsGood f then 0 else 1) 1))) ∧
  (∀ s, ∃ t, exec .secondLatch s = .next t ∧ t.line = s.line.nextSecond ∧
    (∀ n < 32, ∀ c < 6, ∀ v, (s.lane n).latched[c]? = some v → t.rd (Reg.lnfLaneSec n c) = sat32 v) ∧
    (∀ g < 16, ∀ c < 4, ∀ v, (s.group g).latched[c]? = some v → t.rd (Reg.lnfGrpSec g c) = sat32 v) ∧
    (∀ p < 32, ∀ c < 6, ∀ v, (s.ethPort p).sec[c]? = some v → t.rd (Reg.lnfEthSec p c) = sat32 v) ∧
    t.fld Reg.lnfSecond 31 16 = (s.fld Reg.lnfSecond 31 16 + 1) % 65536 ∧ t.flg Reg.lnfSecond 0 = true ∧ t.ctl = s.ctl) ∧
  (∀ p (n : Fin 32) v s, s.Reaches p (Reg.lnfLaneCtrl n) →
    (s.Calm → (prbsOf v = 0 ∧ loopOf v = 0 ∨ s.testAllowed n = true) → ∃ t, exec (.laneCtrlWrite p n v) s = .next t ∧
      t.fld (Reg.lnfLaneCtrl n) 8 6 = prbsOf v ∧ t.fld (Reg.lnfLaneCtrl n) 5 4 = loopOf v ∧ t.flg (Reg.lnfLaneCtrl n) 9 = bit v 9 ∧
      t.flg (Reg.lnfLaneCtrl n) 0 = bit v 0 ∧ (∀ m < 32, m ≠ n.val → t.rd (Reg.lnfLaneCtrl m) = s.rd (Reg.lnfLaneCtrl m)) ∧
      t.line.lanes = s.line.lanes ∧
      (∀ e < 16, s.entryOfLane n = some e → (t.line.eth[e]?).map (·.up) = (s.line.eth[e]?).map (fun _ => s.portEnabled e && !t.pcsDown e) ∧
        ((prbsOf v ≠ 0 ∨ loopOf v ≠ 0) → n.val ∈ s.entryLanes e → t.pcsDown e = true)) ∧
      (∀ g < 16, s.groupOfLane n = some g → s.groupKind g ≠ 0 → (t.line.groups[g]?).map (·.sf) = (s.line.groups[g]?).map (fun _ => t.groupSf g) ∧
        ((prbsOf v ≠ 0 ∨ loopOf v ≠ 0) → n.val ∈ s.groupLaneIds g → t.groupSf g = true))) ∧
    ((prbsOf v ≠ 0 ∨ loopOf v ≠ 0) → s.testAllowed n = false → ∃ t, exec (.laneCtrlWrite p n v) s = .next t ∧
      t.rd (Reg.lnfLaneCtrl n) = s.rd (Reg.lnfLaneCtrl n) ∧ t.line = s.line ∧
      t.events Ev.laneCtrlRefused = satAdd (2 ^ 48 - 1) (s.events Ev.laneCtrlRefused) 1)) ∧
  (∀ p (i : Fin 32) v s, s.Calm → s.Reaches p (Reg.lnfEthCtrl i) →
    ((s.xbar i).kind ≠ 0 ∨ bit v 0 = false → ∃ t, exec (.portEnableWrite p false i v) s = .next t ∧ t.flg (Reg.lnfEthCtrl i) 0 = bit v 0 ∧
      t.fld (Reg.lnfEthCtrl i) 17 4 = clamp 1518 (if i.val < 16 then 9216 else 9248) (bits v 17 4) ∧
      (16 ≤ i.val → t.flg (Reg.lnfGrpCtrl (i - 16)) 0 = bit v 0) ∧
      (∀ n ∈ s.entryLanes i, t.fld (Reg.lnfLaneCtrl n) 8 4 = if bit v 0 then 0 else s.fld (Reg.lnfLaneCtrl n) 8 4) ∧
      (i.val < 16 → (t.line.eth[i.val]?).map (·.up) = (s.line.eth[i.val]?).map (fun _ => bit v 0 && !(s.ethPort i).pcsDown))) ∧
    ((s.xbar i).kind = 0 → bit v 0 = true → ∃ t, exec (.portEnableWrite p false i v) s = .next t ∧ t.rd (Reg.lnfEthCtrl i) = s.rd (Reg.lnfEthCtrl i) ∧
      t.line = s.line ∧ t.events Ev.structureBound = satAdd (2 ^ 48 - 1) (s.events Ev.structureBound) 1)) ∧
  (∀ p (i : Fin 32) v s, s.Calm → i.val < 16 → s.Reaches p (Reg.lnfGrpCtrl i) →
    (s.groupKind i ≠ 0 ∨ bit v 0 = false → ∃ t, exec (.portEnableWrite p true i v) s = .next t ∧ t.rd (Reg.lnfGrpCtrl i) = v &&& 0x7F#32 ∧
      (∀ n ∈ s.entryLanes (16 + i), t.fld (Reg.lnfLaneCtrl n) 8 4 = if bit v 0 then 0 else s.fld (Reg.lnfLaneCtrl n) 8 4)) ∧
    (s.groupKind i = 0 → bit v 0 = true → ∃ t, exec (.portEnableWrite p true i v) s = .next t ∧ t.rd (Reg.lnfGrpCtrl i) = s.rd (Reg.lnfGrpCtrl i) ∧
      t.line = s.line))

/-- Alignment of a Glafold lane: a marker found in HUNT leads to PRESYNC; the third good headland in a row to SYNC with LOA cleared, one
that is not good back to HUNT; in SYNC a good headland with the next number is followed, one with a bad HL_CRC keeps the fields of the last
good one, and the fourth missed marker in a row declares LOA. The marker gives the codeword phase. A group is aligned exactly when R165 says
so, else it has LOGA. (R140, R145, R162 to R165; outside Service and the Yoke modes.) -/
def Obligations.GlafoldLanesAlign : Prop :=
  (∀ (n : Fin 32) m (no : BitVec 48) g s, s.groupOfLane n = some g → s.isGlafold g = true →
    ((s.lane n).align = .hunt → markerMatches m = true → ∃ t, exec (.markerFound n m no) s = .next t ∧
      t = { s with line := { s.line with lanes := t.line.lanes } } ∧ (∀ j, j ≠ n.val → t.line.lanes[j]? = s.line.lanes[j]?) ∧
      t.line.lanes[n.val]? = (s.line.lanes[n.val]?).map (fun l => { l with
        align := .presync 1, cwLock := true, codePhase := quarterPhase (m.getD 6 0), prevSheaf := no.toNat
        tagIdx := (m.getD 7 0).toNat / 32, arrive := s.now, echoSheaf := no.toNat, echo := s.headTime })) ∧
    ((s.lane n).align ≠ .hunt ∨ markerMatches m = false → exec (.markerFound n m no) s = .next s)) ∧
  (∀ (n : Fin 32) h g c s, s.Calm → s.groupOfLane n = some g → s.isGlafold g = true → (s.lane n).align = .presync c →
    ∃ t, exec (.headlandReceive n h) s = .next t ∧ (∀ j, j ≠ n.val → t.line.lanes[j]? = s.line.lanes[j]?) ∧
      (t.line.lanes[n.val]?).map (·.align) = (s.line.lanes[n.val]?).map (fun _ =>
        if markerMatches (h.take 8) = true ∧ headGood h = true ∧ ofBe (slice h 8 6) = (s.lane n).prevSheaf + 1 then
          (if 2 ≤ c then .sync 0 else .presync (c + 1)) else .hunt)) ∧
  (∀ (n : Fin 32) h g m s, s.Calm → s.groupOfLane n = some g → s.isGlafold g = true → (s.lane n).align = .sync m →
    ∃ t, exec (.headlandReceive n h) s = .next t ∧ (∀ j, j ≠ n.val → t.line.lanes[j]? = s.line.lanes[j]?) ∧
      (markerMatches (h.take 8) = true → headGood h = true → ofBe (slice h 8 6) = (s.lane n).prevSheaf + 1 →
        t.line.lanes[n.val]? = (s.line.lanes[n.val]?).map (fun l => takeTags h { l with
          align := .sync 0, arrive := s.now, codePhase := quarterPhase (h.getD 6 0), echoSheaf := l.prevSheaf + 1, echo := s.headTime
          prevSheaf := l.prevSheaf + 1, jump := none, dropRows := false, cloakCur := ofBe (slice h 32 8), cloakNext := ofBe (slice h 40 8)
          flipAt := if ofBe (slice h 48 1) = 0 then none else some (l.prevSheaf + 1 + ofBe (slice h 48 1)) })) ∧
      (markerMatches (h.take 8) = true → headGood h = false →
        (t.line.lanes[n.val]?).map (fun l => (l.align, l.prevSheaf, l.cloakCur, l.cloakNext, l.flipAt)) =
          (s.line.lanes[n.val]?).map (fun l => (.sync 0, l.prevSheaf + 1, l.cloakCur, l.cloakNext, l.flipAt))) ∧
      (markerMatches (h.take 8) = false →
        (t.line.lanes[n.val]?).map (fun l => (l.align, l.dropRows)) = (s.line.lanes[n.val]?).map (fun _ =>
          (if 3 ≤ m then Align.hunt else .sync (m + 1), true)) ∧
        t.events Ev.laneLoa = (if 3 ≤ m then satAdd (2 ^ 48 - 1) (s.events Ev.laneLoa) 1 else s.events Ev.laneLoa))) ∧
  (∀ (g : Fin 16) s, (s.isGlafold g = false → exec (.groupAlignmentCheck g) s = .next s) ∧
    (s.Calm → s.isGlafold g = true → ∃ t, exec (.groupAlignmentCheck g) s = .next t ∧
      (t.line.groups[g.val]?).map (fun x => (x.aligned, x.loga)) = (s.line.groups[g.val]?).map (fun _ => (s.alignedNow g, !s.alignedNow g)) ∧
      t.events Ev.groupLoga = (if !s.alignedNow g && !(s.group g).loga then satAdd (2 ^ 48 - 1) (s.events Ev.groupLoga) 1
        else s.events Ev.groupLoga)))

/-- A sheaf timer tick starts the sheaf with the next number while its number lies below the durable mark; at the mark it stalls and raises
SHEAF_MARK_STALL, and no sheaf starts. A sheaf that ends leaves on every lane that sent its headland; blocks 0 to 19 are the headland, block
20 + 32j + r is block j of row r, 0x00 where no tributary uses the row, and the scrambler is its own inverse. A tributary receiver follows a
header with a good HEC and a permitted length, loses delineation with a record at any other, and hunts while its rows are not carried.
(R138, R139, R141, R151 to R154, R156, R158, R161.) -/
def Obligations.SheavesAndTributaries : Prop :=
  (∀ unc s, s.sheafTimer = false → exec (.sheafStart unc) s = .next s) ∧
  (∀ unc s, s.sheafTimer = true → s.line.stalled = false → s.isFollower = true ∨ s.line.sheaf < s.line.mark →
    ∃ t, exec (.sheafStart unc) s = .next t ∧ t.line.sheaf = s.line.sheaf + 1 ∧ t.line.sheafAt = s.now ∧ t.line.sending = true) ∧
  (∀ unc s, s.sheafTimer = true → s.line.stalled = false → s.isFollower = false → s.line.mark ≤ s.line.sheaf → s.line.sending = false →
    ∃ t, exec (.sheafStart unc) s = .next t ∧ t.line.sheaf = s.line.sheaf ∧ t.line.stalled = true ∧
      t.events Ev.sheafMarkStall = satAdd (2 ^ 48 - 1) (s.events Ev.sheafMarkStall) 1) ∧
  (∀ unc s, s.sheafTimer = true → s.line.stalled = true → s.line.sending = false → s.line.markAsked.isSome = true →
    exec (.sheafStart unc) s = .next s) ∧
  (∀ (k : Fin 512) (hdr : BitVec 32) first at_ s, s.tribCarried k = true → (s.tribRx k).following = true ∨ (first && at_) = true →
    ((s.tribRx k).following && first && !at_) = false →
    (hdr.toNat % 65536 = crc16 (beBytes 2 (hdr.toNat / 65536)) → hdr.toNat / 65536 = 0 ∨ 64 ≤ hdr.toNat / 65536 ∧ hdr.toNat / 65536 ≤ 9248 →
      ∃ t, exec (.tribHeader k hdr first at_) s = .next t ∧ t.tribRx k = ⟨true, hdr.toNat / 65536⟩ ∧
        t = { s with line := { s.line with tribs := t.line.tribs } }) ∧
    (s.ctl.mode ≠ .sentry → hdr.toNat % 65536 ≠ crc16 (beBytes 2 (hdr.toNat / 65536)) → ∃ t, exec (.tribHeader k hdr first at_) s = .next t ∧
      t.tribRx k = ⟨false, 0⟩ ∧ t.events Ev.tribDelineationLost = satAdd (2 ^ 48 - 1) (s.events Ev.tribDelineationLost) 1)) ∧
  (∀ (k : Fin 512) (hdr : BitVec 32) first at_ s, s.tribCarried k = false → ∃ t, exec (.tribHeader k hdr first at_) s = .next t ∧ t.tribRx k = ⟨false, 0⟩) ∧
  (∀ unc s g i h, s.sheafTimer = true → s.line.sending = true → s.lineOff = false → (g, i, h) ∈ s.line.heads →
    ∃ t, exec (.sheafStart unc) s = .next t ∧ ∃ x, .lane x ∈ t.out ∧ x.lane = (s.groupLanes g).getD i 0 ∧ x.idx = i ∧ x.no = s.line.sheaf ∧
      x.precode = s.flg (Reg.lnfLaneCtrl (16 + x.lane)) 9 ∧ x.head = h) ∧
  (∀ st l, scramble st (scramble st l) = l) ∧
  (∀ (x : LaneSheaf), (∀ n < 20, x.block n = slice x.head (8 * n) 8) ∧ (∀ r < 32, ∀ j, x.block (20 + 32 * j + r) = x.rowBlock r j) ∧
    (∀ r j, (∀ y ∈ x.tribs, ∀ p ∈ y.rows, p.1 ≠ r) → x.rowBlock r j = zeroBytes 8))

/-- A swap command is announced for sheaf S + 1 + LEAD, one later where it would meet an announced flip; each failing check ends it with its
CODE and no announcement. A connection memory entry is written only on the standby page of a Glafold group without an announced swap, else
refused with RIX_WRITE_REFUSED. A pair is enabled only under R187, else PAIR_REFUSED leaves ENABLE at 0. (R179, R180, R183, R187; a module
outside the Yoke modes.) -/
def Obligations.PagesSwapAndPairsAreChecked : Prop :=
  (∀ p v s, s.Reaches p Reg.rixSwapCmd → s.ctl.mode.isYoke = false →
    (s.swapCode (swapGroup v) = 0 → ∃ t, exec (.swapCmd p v) s = .next t ∧
      t.rows.pages[swapGroup v]? = (s.rows.pages[swapGroup v]?).map (fun x => { x with txSwap := some (s.swapSheaf (swapGroup v) (swapLead v)) }) ∧
      (∀ g, g ≠ swapGroup v → t.rows.pages[g]? = s.rows.pages[g]?) ∧
      t.rd Reg.rixSwapSheafLo = BitVec.ofNat 32 (s.swapSheaf (swapGroup v) (swapLead v)) ∧
      t = { s with regs := t.regs, armed := t.armed, rows := { s.rows with pages := t.rows.pages } }) ∧
    (s.swapCode (swapGroup v) ≠ 0 → ∃ t, exec (.swapCmd p v) s = .next t ∧ t.Ended Reg.rixSwapResult (s.swapCode (swapGroup v)) ∧ t.rows = s.rows ∧
      t = { s with regs := t.regs, armed := t.armed })) ∧
  (∀ p rx (page : Fin 2) (row : Fin 512) v s, s.Reaches p (if rx then Reg.rixRcm page row else Reg.rixTcm page row) → s.ctl.mode.isYoke = false →
    (∀ g, s.groupOfLane (16 + row / 32) = some g → s.isGlafold g = true →
      (if rx then page.val ≠ (s.gpages g).rxActive ∧ (s.gpages g).rxSwap = none else page.val ≠ (s.gpages g).txActive ∧ (s.gpages g).txSwap = none) →
      ∃ t, exec (.connectionMemoryWrite p rx page row v) s = .next t ∧
        t.rd (if rx then Reg.rixRcm page row else Reg.rixTcm page row) = (if bit v 15 then v &&& 0x81FF#32 else 0) ∧
        (∀ k, k ≠ (if rx then Reg.rixRcm page row else Reg.rixTcm page row) → t.rd k = s.rd k) ∧ t = { s with regs := t.regs, armed := t.armed }) ∧
    (s.groupOfLane (16 + row / 32) = none → ∃ t, exec (.connectionMemoryWrite p rx page row v) s = .next t ∧
      t.rd (if rx then Reg.rixRcm page row else Reg.rixTcm page row) = s.rd (if rx then Reg.rixRcm page row else Reg.rixTcm page row) ∧
      t.events Ev.rixWriteRefused = satAdd (2 ^ 48 - 1) (s.events Ev.rixWriteRefused) 1)) ∧
  (∀ p (k : Fin 8) v s, s.Reaches p (Reg.rixPairCfg k) → s.ctl.mode.isYoke = false → s.pairEnabled k = false → bit v 0 = true →
    (s.pairAllowed k (v &&& 0xFFFF#32) = true → (s.group (bits v 7 4)).sf = false → (s.group (bits v 7 4)).sd = false →
      ∃ t, exec (.pairCfgWrite p k v) s = .next t ∧ t.rd (Reg.rixPairCfg k) = v &&& 0xFFFF#32 ∧
        t.rows.pairs[k.val]? = (s.rows.pairs[k.val]?).map (fun _ => Pair.reset) ∧ (∀ j, j ≠ k.val → t.rows.pairs[j]? = s.rows.pairs[j]?) ∧
        t = { s with regs := t.regs, armed := t.armed, rows := { s.rows with pairs := t.rows.pairs } }) ∧
    (s.pairAllowed k (v &&& 0xFFFF#32) = false → ∃ t, exec (.pairCfgWrite p k v) s = .next t ∧ t.flg (Reg.rixPairCfg k) 0 = false ∧ t.rows = s.rows ∧
      t.events Ev.pairRefused = satAdd (2 ^ 48 - 1) (s.events Ev.pairRefused) 1))

/-- APS commands on an enabled pair end with CMD_CODE 0: CLEAR removes LO, FS and MS, LOCKOUT holds LO, FORCED holds FS unless LO or SF_P is
in force, MANUAL_P and MANUAL_W hold MS unless a higher request is; each ends WTR. A pair that is not enabled answers 2, a lower priority 1,
OP 6 to 15 4, each with APS_CMD_REFUSED and the pair unchanged. The hold-off's expiry, at its due time, makes the request count; the
wait-to-restore's makes it NR and turns to working. (R195 to R198; a module outside the Yoke modes.) -/
def Obligations.ApsCommandsAndTimers : Prop :=
  (∀ p (k : Fin 8) s, s.Reaches p (Reg.rixApsCmd k) → s.ctl.mode.isYoke = false → s.pairEnabled k = true → ∀ c ok n,
    (c, ok, n) ∈ [(Instr.apsClear p k, true, 0), (.apsLockout p k, true, 1), (.apsForced p k, s.forcedAllowed k, 2),
      (.apsManualP p k, s.manualAllowed k, 3), (.apsManualW p k, s.manualAllowed k, 4)] → ok = true →
    ∃ t, exec c s = .next t ∧ t.rows.pairs[k.val]? = (s.rows.pairs[k.val]?).map (fun x => { x with cmd := n, wtr := false }) ∧
      (∀ j, j ≠ k.val → t.rows.pairs[j]? = s.rows.pairs[j]?) ∧ t.fld (Reg.rixApsStatus k) 3 0 = 0 ∧ t.flg (Reg.rixApsStatus k) 8 = true ∧
      t = { s with regs := t.regs, armed := t.armed, rows := { s.rows with pairs := t.rows.pairs } }) ∧
  (∀ p (k : Fin 8) (op : Fin 16) s, s.Reaches p (Reg.rixApsCmd k) → s.ctl.mode.isYoke = false → ∀ c ok n,
    (c, ok, n) ∈ [(Instr.apsClear p k, !s.pairEnabled k, 2), (.apsLockout p k, !s.pairEnabled k, 2), (.apsForced p k, !s.pairEnabled k, 2),
      (.apsManualP p k, !s.pairEnabled k, 2), (.apsManualW p k, !s.pairEnabled k, 2),
      (.apsForced p k, s.pairEnabled k && !s.forcedAllowed k, 1), (.apsManualP p k, s.pairEnabled k && !s.manualAllowed k, 1),
      (.apsManualW p k, s.pairEnabled k && !s.manualAllowed k, 1), (.apsCmdUnknown p k op, decide (6 ≤ op.val), 4)] → ok = true →
    ∃ t, exec c s = .next t ∧ t.rows = s.rows ∧ t.fld (Reg.rixApsStatus k) 3 0 = n ∧ t.flg (Reg.rixApsStatus k) 8 = true ∧
      t.events Ev.apsCmdRefused = satAdd (2 ^ 48 - 1) (s.events Ev.apsCmdRefused) 1) ∧
  (∀ (k : Fin 8) s,
    exec (.holdoffExpiry k) s = .next (if (s.pair k).holdRun ∧ (s.pair k).holdDue ≤ s.now
      then s.setPair k (fun x => { x with holdRun := false, holdDone := true }) else s) ∧
    exec (.wtrExpiry k) s = .next (if (s.pair k).wtr ∧ (s.pair k).wtrDue ≤ s.now
      then s.setPair k (fun x => { x with wtr := false, local_ := 0, position := 0 }) else s))

/-- Table commands of a window, one at a time: SEARCH answers the reachable entry that matches, NEXT the first that passes the filter,
INSERT puts a valid new entry into the first empty candidate slot or replaces a present one, DELETE removes the match, FLUSH_BY_PORT removes
entries of the port one by one, the last by FLUSH_DONE, DIGEST_SNAP latches every stripe digest at one instant. (R217, R222, R224 to R228,
R237, R238.) A hash seed is written only while the table is empty. A reaper visit that is due clears HIT and dates the entries of its
bucket, removes silent learned ones, and goes on to the next bucket. Losing the classifier's island starts bypass, recorded once. (R211,
R216, R235, R236; the last outside Service and the Yoke modes.) -/
def Obligations.ClassifierCommandsAndSeeds : Prop :=
  (∀ p s, s.Takes p Reg.clsCmd → s.clsBusy p.allot = false →
    (∀ i e, s.altFind (AltEntry.ofBytes (s.cmdEntry p.allot)).toKey = some i → s.altAt i = some e → reaches p.allot e.owner = true →
      ∃ t, exec (.clsSearch p) s = .next t ∧ t.cls = s.cls ∧ t.Ended (privKey p.allot Reg.clsCmdResult) 0 ∧
        t.fld (privKey p.allot Reg.clsCmdIndex) 17 0 = i ∧
        ∀ w < 8, t.rd (privKey p.allot (Reg.clsCmdEntry w)) = BitVec.ofNat 32 (be32 e.bytes (4 * w))) ∧
    (s.altFind (AltEntry.ofBytes (s.cmdEntry p.allot)).toKey = none → ∃ t, exec (.clsSearch p) s = .next t ∧ t.cls = s.cls ∧
      t.Ended (privKey p.allot Reg.clsCmdResult) 1) ∧
    (∀ i e, s.cls.alt.find? (fun x => decide (s.fld (privKey p.allot Reg.clsCmdIndex) 17 0 ≤ x.1) && (match x.2 with
        | some e => reaches p.allot e.owner && passesFilter (s.rd (privKey p.allot Reg.clsCmdFilter)) e
        | none => false)) = some (i, some e) → ∃ t, exec (.searchNext p) s = .next t ∧ t.cls = s.cls ∧
      t.Ended (privKey p.allot Reg.clsCmdResult) 0 ∧ t.fld (privKey p.allot Reg.clsCmdIndex) 17 0 = i % 2 ^ 18 ∧
      ∀ w < 8, t.rd (privKey p.allot (Reg.clsCmdEntry w)) = BitVec.ofNat 32 (be32 e.bytes (4 * w))) ∧
    (s.cls.alt = [] → ∃ t, exec (.searchNext p) s = .next t ∧ t.cls = s.cls ∧ t.Ended (privKey p.allot Reg.clsCmdResult) 10) ∧
    (∀ rep noEv i, s.isFollower = false → altInvalid (s.cmdEntry p.allot) = false →
      s.mayInsert p.allot (AltEntry.ofBytes (s.cmdEntry p.allot)) = true → s.altFind (AltEntry.ofBytes (s.cmdEntry p.allot)).toKey = none →
      (s.candidates (AltEntry.ofBytes (s.cmdEntry p.allot)).toKey).find? (fun j => (s.altAt j).isNone) = some i →
      ∃ t, exec (.clsInsert p rep noEv) s = .next t ∧ t.Ended (privKey p.allot Reg.clsCmdResult) 0 ∧
        t.fld (privKey p.allot Reg.clsCmdIndex) 17 0 = i ∧ t.fld (privKey p.allot Reg.clsCmdResult) 11 8 = 0 ∧
        t.altAt i = some { AltEntry.ofBytes (s.cmdEntry p.allot) with hit := false, age := s.cls.sweep } ∧ ∀ j, j ≠ i → t.altAt j = s.altAt j) ∧
    (∀ rep noEv i o, s.isFollower = false → altInvalid (s.cmdEntry p.allot) = false →
      s.mayInsert p.allot (AltEntry.ofBytes (s.cmdEntry p.allot)) = true → s.altFind (AltEntry.ofBytes (s.cmdEntry p.allot)).toKey = some i →
      s.altAt i = some o →
      (rep = false → ∃ t, exec (.clsInsert p rep noEv) s = .next t ∧ t.Ended (privKey p.allot Reg.clsCmdResult) 2 ∧ t.cls = s.cls) ∧
      (rep = true → reaches p.allot o.owner = true → ∃ t, exec (.clsInsert p rep noEv) s = .next t ∧
        t.Ended (privKey p.allot Reg.clsCmdResult) 0 ∧ (∀ j, j ≠ i → t.altAt j = s.altAt j) ∧
        t.altAt i = some { AltEntry.ofBytes (s.cmdEntry p.allot) with hit := o.hit, age := o.age })) ∧
    (∀ i e, s.isFollower = false → s.altFind (AltEntry.ofBytes (s.cmdEntry p.allot)).toKey = some i → s.altAt i = some e →
      reaches p.allot e.owner = true → ∃ t, exec (.clsDelete p) s = .next t ∧ t.Ended (privKey p.allot Reg.clsCmdResult) 0 ∧ t.altAt i = none ∧
        ∀ j, j ≠ i → t.altAt j = s.altAt j) ∧
    (∀ (port : Fin 16) st, s.isFollower = false → (p.allot = 0 ∨ s.portOwner port = p.allot) → ∃ t, exec (.flushByPort p port st) s = .next t ∧
      (∃ k ≤ (s.flushSet p.allot port st).length, t.cls.flushes = s.cls.flushes ++ [⟨p.allot, port, st, k⟩] ∧
        (∀ i ∈ (s.flushSet p.allot port st).take k, t.altAt i = none) ∧ ∀ i, i ∉ (s.flushSet p.allot port st).take k → t.altAt i = s.altAt i)) ∧
    (p.allot = 0 → ∃ t, exec (.digestSnap p) s = .next t ∧ t.cls = s.cls ∧ t.Ended Reg.clsCmdResult 0 ∧ t.flg Reg.clsDigestCtrl 31 = true ∧
      ∀ j < 256, t.rd (Reg.clsDigestLo j) = s.cls.alt.foldl (fun (x : Word) y => match y.2 with
        | some e => if s.flg Reg.clsDigestCtrl 0 && !e.stat || y.1 / 1024 != j then x else x ^^^ BitVec.ofNat 32 (entryDigest y.1 e)
        | none => x) 0) ∧
    (∀ op : Fin 16, 7 ≤ op.val → ∃ t, exec (.clsCmdUnknown p op) s = .next t ∧ t.cls = s.cls ∧
      t.Ended (privKey p.allot Reg.clsCmdResult) 9 ∧ t.events Ev.clsCmdRefused = satAdd (2 ^ 48 - 1) (s.events Ev.clsCmdRefused) 1)) ∧
  (∀ s f rest, s.cls.flushes = f :: rest → s.ctl.mode ≠ .sentry → ∃ t, exec .flushDone s = .next t ∧ t.cls.flushes = rest ∧
    (∀ i ∈ s.flushSet f.win f.port f.statics, t.altAt i = none) ∧ (∀ i, i ∉ s.flushSet f.win f.port f.statics → t.altAt i = s.altAt i) ∧
    t.Ended (privKey f.win Reg.clsCmdResult) 0 ∧ t.events Ev.flushDone = satAdd (2 ^ 48 - 1) (s.events Ev.flushDone) 1) ∧
  (∀ p one v s, s.Reaches p (if one then Reg.clsHashSeed1 else Reg.clsHashSeed0) →
    (s.cls.alt = [] → ∃ t, exec (.hashSeedWrite p one v) s = .next t ∧ t.rd (if one then Reg.clsHashSeed1 else Reg.clsHashSeed0) = v ∧
      (∀ k, k ≠ (if one then Reg.clsHashSeed1 else Reg.clsHashSeed0) → t.rd k = s.rd k) ∧ t = { s with regs := t.regs, armed := t.armed }) ∧
    (s.cls.alt ≠ [] → ∃ t, exec (.hashSeedWrite p one v) s = .next t ∧
      t.rd (if one then Reg.clsHashSeed1 else Reg.clsHashSeed0) = s.rd (if one then Reg.clsHashSeed1 else Reg.clsHashSeed0) ∧ t.cls = s.cls ∧
      t.events Ev.clsCmdRefused = satAdd (2 ^ 48 - 1) (s.events Ev.clsCmdRefused) 1)) ∧
  (∀ s, s.flg Reg.clsCtrl 2 = true → s.isFollower = false → s.clsLive = true → s.cls.visitAt ≤ s.now → ∀ fixed, ∃ t, exec (.reaperVisit [] fixed) s = .next t ∧
    (s.cls.bucket < 65535 → t.cls.bucket = s.cls.bucket + 1 ∧ t.cls.sweep = s.cls.sweep) ∧
    (s.cls.bucket = 65535 → t.cls.bucket = 0 ∧ t.cls.sweep = (s.cls.sweep + 1) % 65536) ∧
    t.cls.visitAt = s.now + max 1 (s.fld Reg.clsAgeCfg 15 0) * 1000000000 / 65536 ∧ (∀ i, i / 4 ≠ s.cls.bucket → t.altAt i = s.altAt i) ∧
    (∀ i e, i / 4 = s.cls.bucket → s.altAt i = some e → t.altAt i = if e.hit then some { e with hit := false, age := s.cls.sweep }
      else if e.stat = false ∧ e.portValid = true then none else some e)) ∧
  (∀ s bad fixed, s.flg Reg.clsCtrl 2 = false ∨ s.isFollower = true ∨ s.clsLive = false ∨ s.now < s.cls.visitAt → exec (.reaperVisit bad fixed) s = .next s) ∧
  (∀ s, s.Calm → ∃ t, exec .defaultBypass s = .next t ∧ 14 ∉ t.fab.live ∧ (∀ i, i ≠ 14 → (i ∈ t.fab.live ↔ i ∈ s.fab.live)) ∧
    t.cls = { s.cls with bypass := true, probeWait := [] } ∧
    t.events Ev.defaultBypass = (if s.cls.bypass then s.events Ev.defaultBypass else satAdd (2 ^ 48 - 1) (s.events Ev.defaultBypass) 1))

/-- A client frame whose key is found waits for admission with the entry's association and output, or the association's own, and sets HIT;
one that misses without a default, a punt or a flood list is dropped and counted. A learn probe sets HIT on a match, and on a miss queues
its request where learning is permitted; the next probe that waits for a place then enters and its frame may leave; the engine then inserts
a learned entry into the first empty candidate slot. (R203, R212 to R215, R229 to R232.) -/
def Obligations.FramesLookUpAndLearn : Prop :=
  (∀ (p : Fin 16) f fixed k i e c s, s.portUp p = true → s.clsLive = true → s.frameKey p f = some (some k) → s.altFind k = some i → s.altAt i = some e →
    s.ctx e.assoc = some c → ∃ t, exec (.clientFrameLookup p f [] fixed) s = .next t ∧ ∃ x, t.sch.arrivals = s.sch.arrivals ++ [x] ∧ x.bytes = f ∧
      x.assoc = e.assoc ∧ x.output = (if e.output = 0x3FF then c.encOut else e.output) ∧ x.cls = (if e.classEn then e.cls else c.encClass) ∧
      x.input = p.val ∧ x.encrypt = true ∧ t.altAt i = some { e with hit := true } ∧ (∀ j, j ≠ i → t.altAt j = s.altAt j)) ∧
  (∀ (p : Fin 16) f fixed k s, s.portUp p = true → s.clsLive = true → s.frameKey p f = some (some k) → s.altFind k = none →
    (f.getD 0 0).toNat % 2 = 0 → s.flg (Reg.clsPortMiss p) 31 = false → s.flg (Reg.clsPortCfg p) 1 = false →
    ∃ t, exec (.clientFrameLookup p f [] fixed) s = .next t ∧ t.sch = s.sch ∧ t.cls = s.cls ∧ t.count (Reg.clsCountLo 5) = s.count (Reg.clsCountLo 5) + 1) ∧
  (∀ (p : Fin 16) f fixed s, s.portUp p = false → ∃ t, exec (.clientFrameLookup p f [] fixed) s = .next t ∧ t.sch = s.sch ∧ t.cls = s.cls) ∧
  (∀ fixed s r rest, s.cls.probes = r :: rest → s.cls.probeWait = [] → s.clsLive = true →
    (s.altFind ⟨1, r.domain, r.key⟩ = none → s.mayLearn r.port = true → s.flushing r.port = false → s.atQuota r.port = false →
      s.cls.learnQ.length < 4096 → ∃ t, exec (.learnProbe [] fixed) s = .next t ∧ t.cls = { s.cls with probes := rest, learnQ := s.cls.learnQ ++ [r] } ∧
        t = { s with cls := t.cls, cnt := t.cnt }) ∧
    (∀ i e, s.altFind ⟨1, r.domain, r.key⟩ = some i → s.altAt i = some e → e.assoc = r.assoc → ∃ t, exec (.learnProbe [] fixed) s = .next t ∧
      t.altAt i = some { e with hit := true } ∧ (∀ j, j ≠ i → t.altAt j = s.altAt j) ∧ t.cls.probes = rest ∧ t.cls.learnQ = s.cls.learnQ ∧
      t = { s with cls := t.cls, cnt := t.cnt })) ∧
  (∀ fixed s r rest, s.cls.learnQ = r :: rest → ∀ i, s.altFind ⟨1, r.domain, r.key⟩ = none → s.flushing r.port = false → s.mayLearn r.port = true →
    s.atQuota r.port = false → (s.candidates ⟨1, r.domain, r.key⟩).find? (fun j => (s.altAt j).isNone) = some i →
    ∃ t, exec (.learnInsert [] fixed) s = .next t ∧ t.cls.learnQ = rest ∧ t.altAt i = some { s.learned r with age := s.cls.sweep } ∧
      (∀ j, j ≠ i → t.altAt j = s.altAt j) ∧ t.count (Reg.clsCountLo 8) = s.count (Reg.clsCountLo 8) + 1) ∧
  (∀ s r rest, s.cls.learnQ = r :: rest → (s.altFind ⟨1, r.domain, r.key⟩).isSome = true →
    exec (.learnInsert [] 0) s = .next ({ s with cls := { s.cls with learnQ := rest } }.incBy (Reg.clsCountLo 15) 0)) ∧
  (∀ s r rest, s.cls.probes = r :: rest → ∀ w more, s.cls.probeWait = w :: more → s.clsLive = false → ∃ t, exec (.learnProbe [] 0) s = .next t ∧
    t.cls = { s.cls with probes := rest ++ [w.1], probeWait := more } ∧ t.frame? w.2 = (s.frame? w.2).map (fun x => { x with verdict := some true }))

/-- A table command of a window: READ answers the four words of an entry the window reaches, WRITE takes words 0 to 3 in one commit and
leaves every other entry, an undefined TABLE or OP ends with CODE 4 and SCH_TBL_REFUSED. The words an entry keeps are those of R274. CHANGE
1 announces the standby list for the first cycle start at least 20 µs ahead; a list of 0 or more than 1,024 entries is refused with
GATE_CHANGE_REFUSED. At T_c, and not before, the new list governs from entry 0; entries and cycles follow each other when their lengths have
passed on the output's channel. A head past its late limit leaves its launch-time queue. (R264, R265, R268, R270; a module outside Sentry
and the Yoke modes.) -/
def Obligations.SchedulerTablesGatesAndLaunches : Prop :=
  (∀ p (tb : Fin 3) s, s.Takes p Reg.schTblCmd →
    s.fld (privKey p.allot Reg.schTblIndex) 20 0 < (if tb.val = 2 then 544 * 2048 else 65536) →
    (p.allot = 0 ∨ (tb.val ≠ 2 ∧ s.assocOwner (s.fld (privKey p.allot Reg.schTblIndex) 20 0) = p.allot)) →
    (∃ t, exec (.schTblRead p tb) s = .next t ∧ t.sch = s.sch ∧ t.Ended (privKey p.allot Reg.schTblResult) 0 ∧
      ∀ k < 4, t.rd (privKey p.allot (Reg.schTblData k)) = (s.tblRead tb (s.fld (privKey p.allot Reg.schTblIndex) 20 0)).getD k 0) ∧
    (s.isFollower = false → (tb.val = 2 → s.gateHeld (s.fld (privKey p.allot Reg.schTblIndex) 20 0) = false) →
      ∃ t, exec (.schTblWrite p tb) s = .next t ∧ t.Ended (privKey p.allot Reg.schTblResult) 0 ∧
        (∀ i, t.aqWords i = if tb.val = 0 ∧ i = s.fld (privKey p.allot Reg.schTblIndex) 20 0 then
            ⟨weightOne (s.rd (privKey p.allot (Reg.schTblData 0)) &&& 0xC3FFFFFF#32), s.rd (privKey p.allot (Reg.schTblData 1)),
              s.rd (privKey p.allot (Reg.schTblData 2)) &&& 0xFFFFFF#32⟩ else s.aqWords i) ∧
        (∀ i, t.polWords i = if tb.val = 1 ∧ i = s.fld (privKey p.allot Reg.schTblIndex) 20 0 then
            ⟨s.rd (privKey p.allot (Reg.schTblData 0)) &&& 0x80FFFFFF#32, s.rd (privKey p.allot (Reg.schTblData 1)), (s.polWords i).w2⟩ else s.polWords i) ∧
        (∀ i, SMap.get gateTblDefault t.sch.gateTbl i = if tb.val = 2 ∧ i = s.fld (privKey p.allot Reg.schTblIndex) 20 0 then
            (s.fld (privKey p.allot (Reg.schTblData 0)) 7 0, (s.rd (privKey p.allot (Reg.schTblData 1))).toNat) else SMap.get gateTblDefault s.sch.gateTbl i) ∧
        t.sch.queues = s.sch.queues ∧ t.sch.frames = s.sch.frames ∧ t.sch.gates = s.sch.gates)) ∧
  (∀ p (tb op : Fin 4) s, s.Takes p Reg.schTblCmd → op.val ≠ 0 → (3 ≤ tb.val ∨ 3 ≤ op.val) → s.ctl.mode ≠ .sentry →
    ∃ t, exec (.schTblUnknown p tb op) s = .next t ∧ t.sch = s.sch ∧ t.Ended (privKey p.allot Reg.schTblResult) 4 ∧
      t.events Ev.schTblRefused = satAdd (2 ^ 48 - 1) (s.events Ev.schTblRefused) 1) ∧
  (∀ p (o : Fin 544) v s, s.Reaches p (Reg.schGateCfg o) → s.ctl.mode.isYoke = false → s.ctl.mode ≠ .sentry → bit v 28 = true →
    (s.gate o).pending = none →
    (bit v 31 = true → 1 ≤ bits v 10 0 → bits v 10 0 ≤ 1024 → s.intervalsOk o (bits v 10 0) = true →
      ∀ base, base = (s.rd (Reg.schGateBaseLo o)).toNat + (s.rd (Reg.schGateBaseHi o)).toNat * 2 ^ 32 →
      ∀ cyc, cyc = clamp 1 1000000000 (s.fld (Reg.schGateCycle o) 29 0) → ∀ soon, soon = (s.writeGateCfg o v).gateNow o + 20000 →
      ∃ t, exec (.gateChange p o v) s = .next t ∧
        (t.gate o).pending = some (if soon ≤ base then base else base + (soon - base + cyc - 1) / cyc * cyc, base, cyc, bits v 10 0) ∧
        (t.gate o).active = (s.gate o).active ∧ (∀ k, k ≠ o.val → t.gate k = s.gate k) ∧ t.fld (Reg.schGateCfg o) 10 0 = bits v 10 0) ∧
    (bits v 10 0 = 0 ∨ 1024 < bits v 10 0 → ∃ t, exec (.gateChange p o v) s = .next t ∧ (t.gate o).pending = none ∧
      t.flg (Reg.schGateStatus o) 30 = true ∧ t.events Ev.gateChangeRefused = satAdd (2 ^ 48 - 1) (s.events Ev.gateChangeRefused) 1)) ∧
  (∀ (o : Fin 544) s, ((s.gate o).pending = none → exec (.gateListTakeEffect o) s = .next s) ∧
    ∀ tc base cyc len, (s.gate o).pending = some (tc, base, cyc, len) →
      (s.gateNow o < tc → exec (.gateListTakeEffect o) s = .next s) ∧
      (tc ≤ s.gateNow o → s.ctl.mode ≠ .sentry → ∃ t, exec (.gateListTakeEffect o) s = .next t ∧
        (t.gate o).active = 1 - (s.gate o).active ∧ (t.gate o).base = base ∧
        (t.gate o).cycle = cyc ∧ (t.gate o).len = len ∧ (t.gate o).entry = 0 ∧ (t.gate o).cycleAt = tc ∧ (t.gate o).pending = none ∧
        (∀ k, k ≠ o.val → t.gate k = s.gate k) ∧
        t.events Ev.gateListChange = satAdd (2 ^ 48 - 1) (s.events Ev.gateListChange) 1)) ∧
  (∀ (o : Fin 544) s,
    (s.gateMay o = false ∨ (s.gate o).running = false → exec (.gateEntryAdvance o) s = .next (s.gateResume o)) ∧
    (s.gateMay o = true → (s.gate o).running = true →
      (s.gateNow o < (s.gate o).endsAt → exec (.gateEntryAdvance o) s = .next s) ∧
      ((s.gate o).endsAt ≤ s.gateNow o → (s.gate o).entry + 1 < (s.spans o).length → exec (.gateEntryAdvance o) s = .next (s.setGate o { s.gate o with
        entry := (s.gate o).entry + 1, endsAt := (s.gate o).endsAt + ((s.spans o).getD ((s.gate o).entry + 1) (0, 0)).2 })) ∧
      ((s.gate o).endsAt ≤ s.gateNow o → (s.spans o).length ≤ (s.gate o).entry + 1 → exec (.gateEntryAdvance o) s = .next (s.setGate o { s.gate o with
        entry := 0, cycleAt := (s.gate o).cycleAt + (s.gate o).cycle,
        endsAt := (s.gate o).cycleAt + (s.gate o).cycle + ((s.spans o).getD 0 (0, 0)).2 })))) ∧
  (∀ (q : Fin 4352) (a : Option (Fin 65536)) s k, k = (match a with | some a => a.val | none => directKey q) →
    ∀ e f, s.head k = some (e, f) → k ∈ s.children q →
    (s.tooLate q e f = true → s.ctl.mode ≠ .sentry → ∃ t, exec (.launchLate q a) s = .next t ∧ t.queue k = (s.queue k).drop 1 ∧
      (∀ j, j ≠ k → t.queue j = s.queue j) ∧
      t.frame? e.frame = (if 1 < f.refs then some { f with refs := f.refs - 1 } else if f.whole then none else some { f with refs := 0, reserved := 0 }) ∧
      (∀ i, i ≠ e.frame → t.frame? i = s.frame? i) ∧
      (SMap.get noneOf s.sch.lateAt q = none → t.events Ev.launchLate = satAdd (2 ^ 48 - 1) (s.events Ev.launchLate) 1)) ∧
    (s.tooLate q e f = false → exec (.launchLate q a) s = .next s))

/-- A classified frame that its policer, its queue limit and the free cells allow is admitted to its queue with a reservation; while intake
is closed it is dropped. At its last cell it is whole, its policer is charged and its unused reservation goes. A pick takes the chosen head
off its queue and begins to send it; at its end its output sends nothing any more and the last reference to it is freed. (R247, R248, R253
to R257, R260, R272.) -/
def Obligations.FramesAreAdmittedPickedAndSent : Prop :=
  (∀ s f rest, s.sch.arrivals = f :: rest → s.isFollower = false →
    (s.ctl.intake = true → s.ctl.mode.carries = true → s.yielded = false → f.encrypt = true → f.flood = [] →
      s.tokens (300000 + f.assoc) = true → (s.queueLimit f.key = 0 ∨ s.depth f.key < s.queueLimit f.key) →
      s.reserveFor f ≤ s.freeCells true + s.freeSpill → f.assoc ∈ s.asc.cache →
      ∃ t, exec .frameAdmit s = .next t ∧ ∃ g, t.frame? s.sch.nextId = some g ∧ t.sch.arrivals = rest ∧ t.sch.nextId = s.sch.nextId + 1 ∧
        t.queue f.key = s.queue f.key ++ [⟨s.sch.nextId, f.assoc, s.arrivalOn (s.copyOutput (s.timed f) (f.key, f.assoc)) (s.timed f)⟩] ∧ (∀ k, k ≠ f.key → t.queue k = s.queue k) ∧
        g.bytes = f.bytes ∧ g.reserved = s.reserveFor f ∧ g.refs = 1 ∧
        (∀ i, i ≠ s.sch.nextId → t.frame? i = s.frame? i) ∧ t.sch.resEnc = s.sch.resEnc + s.reserveFor f ∧ t.sch.usedEnc = s.sch.usedEnc) ∧
    (s.ctl.intake = false → f.encrypt = true → ∃ t, exec .frameAdmit s = .next t ∧ t.sch = { s.sch with arrivals := rest })) ∧
  (∀ id kept s f, s.frame? id = some f →
    (f.whole = false → f.refs ≠ 0 → ∀ n, n = (s.addCells f.encrypt 0 (-(f.reserved : Int))).spillCount f (cellsOf f.bytes.length) kept →
      ∃ t, exec (.frameLastCell id kept) s = .next t ∧ (∃ g, t.frame? id = some g ∧ g.spillAt.length = n ∧
        g = { f with id := id, whole := true, cells := cellsOf f.bytes.length, spilled := n, reserved := 0, spillAt := g.spillAt, spillLost := g.spillLost }) ∧
      (∀ i, i ≠ id → t.frame? i = s.frame? i) ∧ t.sch.queues = s.sch.queues ∧ t.sch.spillUsed = s.sch.spillUsed + n ∧
      (f.policed = true → f.flood = [] → t.sch.buckets = (s.charge (300000 + f.assoc) f.bytes.length).sch.buckets)) ∧
    (f.whole = false → f.refs = 0 → ∃ t, exec (.frameLastCell id kept) s = .next t ∧ t.frame? id = none ∧ t.sch.queues = s.sch.queues ∧
      ∀ i, i ≠ id → t.frame? i = s.frame? i) ∧
    (f.whole = true → exec (.frameLastCell id kept) s = .next s)) ∧
  (∀ (o : Fin 544) bad s,
    (s.picks = false ∨ s.outputFree o = false → exec (.schPick o bad false) s = .next s) ∧
    (s.picks = true → s.outputFree o = true → ∀ x, s.chooseFrame o ((s.sch.queues.map (fun e => e.2.length)).sum + 1) = (s, some x) →
      ∀ e f, s.head x.child.key = some (e, f) →
      (f.encrypt = false → f.pn ≠ 0 → f.inject = none → f.spillAt = [] → ∃ t, exec (.schPick o bad false) s = .next t ∧ ∃ y, SMap.get noneOf t.sch.sending o = some y ∧ y.entry = e ∧ y.bytes = f.bytes ∧ y.counted = x.child.len ∧
        t.queue x.child.key = (s.queue x.child.key).drop 1 ∧ ∀ k, k ≠ x.child.key → t.queue k = s.queue k) ∧
      (s.bare f e.assoc = false → f.spillAt = [] → ∀ c, s.ctx e.assoc = some c → ∀ d, s.freePair 0 = some d → c.markAsked = true → c.autoRotate = false → ∃ t, exec (.schPick o bad false) s = .next t ∧ ∃ y, SMap.get noneOf t.sch.sending o = some y ∧ y.entry = e ∧ y.item.isSome = true ∧
        y.bytes = c.protect (s.keyOf (slotOf e.assoc c.txSlot)) (s.vlanTags f.bytes) c.txSlot c.txNext f.bytes ∧
        t.queue x.child.key = (s.queue x.child.key).drop 1 ∧ ∀ k, k ≠ x.child.key → t.queue k = s.queue k))) ∧
  (∀ (o : Fin 544) bad s x, SMap.get noneOf s.sch.sending o = some x → ∀ f, s.frame? x.entry.frame = some f →
    (f.sendable = true → f.spillAt.length ≤ 1 → ∃ t, exec (.pickedFrameEnd o bad) s = .next t ∧ SMap.get noneOf t.sch.sending o = none ∧
      (∀ i, i ≠ o.val → SMap.get noneOf t.sch.sending i = SMap.get noneOf s.sch.sending i) ∧ t.sch.queues = s.sch.queues ∧
      t.frame? x.entry.frame = (if 1 < f.refs then some { f with refs := f.refs - 1 } else none) ∧
      (∀ i, i ≠ x.entry.frame → t.frame? i = s.frame? i) ∧
      (f.phantom = false → f.stompAtEnd x = false → x.drop = false → x.off = false → 16 ≤ o.val → o.val < 32 → s.muted = false → s.yok.muted = false →
        Output.frame o x.bytes ∈ t.out)) ∧
    (f.sendable = false → s.lacking f = false → exec (.pickedFrameEnd o bad) s = .next s))

/-- A request inside its queue's domain is answered with the line; a poisoned line with POISON; a failing line tag poisons the line and
names itself in MGD_FAIL_INFO; a spill queue of Expanse gets the line before its verdict. A write takes the next MINOR and clears POISON; a
partial one merges. A re-till that runs meanwhile changes no data. A request outside the domain is refused and recorded; without keys it
ends with ERROR, while the guard's islands are down it does not start. (R279, R283, R288, R290, R292, R294, R297, R300.) A good verdict of a
spilled line is awaited no longer; a failing one, or none in time, stomps its frame late, the last with the line's address and kind 5 in
MGD_FAIL_INFO. The burst window's end clears its count. (R288, R289, R292.) -/
def Obligations.MemoryRequestsAreAnswered : Prop :=
  (∀ (q : Fin 80) addr s, s.guardUp = true → ∀ d, s.queueDomain q = some d → d.base ≤ addr → addr < d.base + d.size → q.val ∉ s.mgd.winInit →
    ((s.gline (d.line addr)).poison = false ∨ (s.expanse = true ∧ 66 ≤ q.val) → ∃ t, exec (.mgdRead q addr .good) s = .next t ∧
      t.out.getLast? = some (.memAnswer q addr 0 (s.gline (d.line addr)).data) ∧ (∀ l, (t.gline l).data = (s.gline l).data ∧ (t.gline l).poison = (s.gline l).poison) ∧
      (s.mgd.retill = none → t = { s with cnt := t.cnt, out := t.out })) ∧
    ((s.gline (d.line addr)).poison = true → q.val ≠ 64 → q.val ≠ 65 → s.expanse = false ∨ q.val < 66 → ∃ t, exec (.mgdRead q addr .good) s = .next t ∧
      t.out.getLast? = some (.memAnswer q addr 1 []) ∧ (∀ l, (t.gline l).data = (s.gline l).data ∧ (t.gline l).poison = (s.gline l).poison) ∧
      (s.mgd.retill = none → t = { s with cnt := t.cnt, out := t.out })) ∧
    (s.mgd.burst + 1 ≠ max 1 (s.fld Reg.mgdTagCfg 15 8) → q.val ≠ 64 → q.val ≠ 65 → s.expanse = false ∨ q.val < 66 → ∃ t, exec (.mgdRead q addr .lineTag) s = .next t ∧
      (t.gline (d.line addr)).poison = true ∧ (∀ l, l ≠ d.line addr → (t.gline l).data = (s.gline l).data ∧ (t.gline l).poison = (s.gline l).poison) ∧
      t.rd Reg.mgdFailInfo = BitVec.ofNat 32 (q.val * 65536 + 1) ∧ t.mgd.burst = s.mgd.burst + 1 ∧ t.out.getLast? = some (.memAnswer q addr 1 [])) ∧
    (∀ data seen, addr % 64 = 0 → 64 ≤ data.length → d.id ∉ s.mgd.refused → (s.gline (d.line addr)).minor < 255 → ∃ t, exec (.mgdWrite q addr data seen .good) s = .next t ∧
      (t.gline (d.line addr)).data = data.take 64 ∧ (t.gline (d.line addr)).poison = false ∧
      (∀ l, l ≠ d.line addr → (t.gline l).data = (s.gline l).data ∧ (t.gline l).poison = (s.gline l).poison) ∧ t.out.getLast? = some (.memAnswer q addr 0 []) ∧
      (s.mgd.retill = none → (t.gline (d.line addr)).minor = (s.gline (d.line addr)).minor + 1 ∧ (∀ l, l ≠ d.line addr → t.gline l = s.gline l) ∧
        t.mgd.majors = s.mgd.majors ∧ t = { s with mgd := t.mgd, cnt := t.cnt, out := t.out })) ∧
    (∀ data, data.length < 64 → d.id ∉ s.mgd.refused → (s.gline (d.line addr)).minor < 255 → (s.gline (d.line addr)).poison = false →
      ∃ t, exec (.mgdWrite q addr data .good .good) s = .next t ∧
      (t.gline (d.line addr)).data = patch (s.gline (d.line addr)).data (addr % 64) (data.take (64 - addr % 64)) ∧
      (∀ l, l ≠ d.line addr → (t.gline l).data = (s.gline l).data) ∧ t.out.getLast? = some (.memAnswer q addr 0 []) ∧
      (s.mgd.retill = none → t = { s with mgd := t.mgd, cnt := t.cnt, out := t.out }))) ∧
  (∀ (q : Fin 80) addr data seen sent s, ∀ c, c ∈ [Instr.mgdRead q addr seen, .mgdWrite q addr data seen sent] →
    (s.islandUp 13 = false ∨ s.islandUp 16 = false → exec c s = .next (s.emit (.memAnswer q addr 4 []))) ∧
    (s.islandUp 13 = true → s.islandUp 16 = true → s.mgd.initDone = false → exec c s = .next (s.emit (.memAnswer q addr 2 []))) ∧
    (s.guardUp = true → s.ctl.mode ≠ .sentry → (∀ d, s.queueDomain q = some d → addr < d.base ∨ d.base + d.size ≤ addr) → ∃ t, exec c s = .next t ∧
      (∀ l, (t.gline l).data = (s.gline l).data ∧ (t.gline l).poison = (s.gline l).poison) ∧
      t.events Ev.mgdRangeRefused = satAdd (2 ^ 48 - 1) (s.events Ev.mgdRangeRefused) 1 ∧ t.out.getLast? = some (.memAnswer q addr 2 []))) ∧
  (∀ id addr s q d, s.spillDomain addr = some (q, d) →
    id ∉ s.mgd.late → ∀ f, s.frame? id = some f → addr / 64 * 64 ∈ f.linesWait → f.lineBad = false →
    ((s.gline (d.line addr)).poison = false → ∃ t, exec (.spillLineVerdict id addr .good) s = .next t ∧
      t.frame? id = some { f with linesWait := f.linesWait.filter (· != addr / 64 * 64) } ∧ (∀ i, i ≠ id → t.frame? i = s.frame? i) ∧ t.mgd = s.mgd) ∧
    (∃ t, exec (.spillLineVerdict id addr .uncorrected) s = .next t ∧ t.frame? id = some { f with lineBad := true } ∧
      (∀ i, i ≠ id → t.frame? i = s.frame? i) ∧ (t.gline (d.line addr)).poison = true ∧ ∀ l, l ≠ d.line addr → t.gline l = s.gline l)) ∧
  (∀ id s f, s.frame? id = some f → ∀ a rest, f.linesWait = a :: rest → f.lineBad = false → ∃ t, exec (.verdictTimeout id) s = .next t ∧
    t.frame? id = some { f with lineBad := true } ∧ (∀ i, i ≠ id → t.frame? i = s.frame? i) ∧ t.mgd.late = id :: s.mgd.late ∧
    t.mgd.lines = s.mgd.lines ∧ t.rd Reg.mgdFailAddrLo = BitVec.ofNat 32 a ∧
    ∀ q d, s.spillDomain a = some (q, d) → t.rd Reg.mgdFailInfo = BitVec.ofNat 32 (q * 65536 + 5 * 256 + 1)) ∧
  (∀ s, exec .tagBurstWindowEnd s = .next { s with mgd := { s.mgd with burst := 0 } })

/-- A re-till of a key index that a domain uses starts with fresh keys, one at a time; at its end they replace the old set and every line
keeps its data and POISON. The harrow visits one line after the other. A window write in bounds starts the window's initialisation, which
leaves zero lines. (R63, R280, R297, R298.) -/
def Obligations.MemoryIsMaintained : Prop :=
  (∀ p (i : Fin 64) s, s.Reaches p Reg.mgdRetillCmd →
    (s.mgd.retill = none → s.mgd.initDone = true → (∃ d ∈ s.domains, d.key = i.val) → s.ctl.degraded = false →
      ∃ t, exec (.retillCmd p i) s = .next t ∧ ∃ r, t.mgd.retill = some r ∧ t.mgd = { s.mgd with retill := some r } ∧ r.idx = i.val ∧ r.swept = 0) ∧
    (∀ n ok, (n, ok) ∈ [(1, s.mgd.retill.isSome), (4, s.mgd.retill.isNone && !s.mgd.initDone),
        (2, s.mgd.retill.isNone && s.mgd.initDone && decide (∀ d ∈ s.domains, d.key ≠ i.val)),
        (3, s.mgd.retill.isNone && s.mgd.initDone && decide (∃ d ∈ s.domains, d.key = i.val) && s.ctl.degraded)] → ok = true →
      ∃ t, exec (.retillCmd p i) s = .next t ∧ t.mgd = s.mgd ∧ t.Ended Reg.mgdRetillStatus n)) ∧
  (∀ s, (s.mgd.retill = none → exec .retillDone s = .next s) ∧ ∀ r, s.mgd.retill = some r → s.Calm → ∃ t, exec .retillDone s = .next t ∧
    t.mgd.retill = none ∧ t.mgd.keys = s.mgd.keys.set r.idx (some r.fresh) ∧ t.mgd.due = s.mgd.due.filter (· != r.idx) ∧
    (∀ l, (t.gline l).data = (s.gline l).data ∧ (t.gline l).poison = (s.gline l).poison) ∧ t.Ended Reg.mgdRetillStatus 0 ∧
    t.events Ev.retillDone = satAdd (2 ^ 48 - 1) (s.events Ev.retillDone) 1) ∧
  (∀ s, (s.flg Reg.mgdHarrowCfg 31 = false ∨ s.guardUp = false → exec (.harrowStep .good) s = .next s) ∧
    (s.flg Reg.mgdHarrowCfg 31 = true → s.guardUp = true → s.ctl.mode ≠ .sentry →
      (∀ x, s.harrowLine s.mgd.harrowAt = some x → x.2 ∉ s.mgd.rewrite) → ∃ t, exec (.harrowStep .good) s = .next t ∧
        (∀ l, (t.gline l).data = (s.gline l).data ∧ (t.gline l).poison = (s.gline l).poison) ∧
        (s.mgd.retill = none → t.mgd.lines = s.mgd.lines ∧ t.mgd.majors = s.mgd.majors) ∧
        t.count (Reg.mgdCountLo 12) = s.count (Reg.mgdCountLo 12) + 1 ∧
        (s.mgd.harrowAt + 1 < s.harrowTotal → t.mgd.harrowAt = s.mgd.harrowAt + 1 ∧ t.mgd.passes = s.mgd.passes) ∧
        (s.harrowTotal ≤ s.mgd.harrowAt + 1 → t.mgd.harrowAt = 0 ∧ t.mgd.passes = satAdd 65535 s.mgd.passes 1 ∧
          t.events Ev.harrowPass = satAdd (2 ^ 48 - 1) (s.events Ev.harrowPass) 1))) ∧
  (∀ p (n : Fin 64) v s,
    (s.Reaches p (Reg.mgdAllotWin n) → s.windowFits n v = true → ∃ t, exec (.allotWindowWrite p n false v) s = .next t ∧ t.rd (Reg.mgdAllotWin n) = v ∧
      (∀ k, k ≠ Reg.mgdAllotWin n → t.rd k = s.rd k) ∧ n.val ∈ t.mgd.winInit ∧ (∀ m, m ≠ n.val → (m ∈ t.mgd.winInit ↔ m ∈ s.mgd.winInit)) ∧ t.mgd.lines = s.mgd.lines) ∧
    (∀ key, s.Reaches p (if key then Reg.mgdQueueCfg n else Reg.mgdAllotWin n) → (if key then s.allotExists n else s.windowFits n v) = false → s.ctl.mode ≠ .sentry →
      ∃ t, exec (.allotWindowWrite p n key v) s = .next t ∧
      t.rd (if key then Reg.mgdQueueCfg n else Reg.mgdAllotWin n) = s.rd (if key then Reg.mgdQueueCfg n else Reg.mgdAllotWin n) ∧ t.mgd = s.mgd ∧
      t.events Ev.structureBound = satAdd (2 ^ 48 - 1) (s.events Ev.structureBound) 1) ∧
    (s.Reaches p (Reg.mgdQueueCfg n) → s.allotExists n = true → ∃ t, exec (.allotWindowWrite p n true v) s = .next t ∧ t.rd (Reg.mgdQueueCfg n) = v &&& 0x3F0000#32 ∧ n.val ∈ t.mgd.winInit)) ∧
  (∀ (n : Fin 64) s, n.val ∈ s.mgd.winInit → s.ctl.mode ≠ .sentry → ∃ t, exec (.windowInitDone n) s = .next t ∧ n.val ∉ t.mgd.winInit ∧
    t.events Ev.windowInitDone = satAdd (2 ^ 48 - 1) (s.events Ev.windowInitDone) 1 ∧
    ∀ d, s.queueDomain n = some d → ∀ l, t.gline l = if d.prot / 64 ≤ l ∧ l < (d.prot + d.size) / 64 then GLine.zero else s.gline l)

/-- A window's context commands: READ copies the context, CREATE makes a valid one under its key, WRITE rewrites it, DELETE removes it and
its key, ROTATE prepares the other slot, FLIP announces its sheaf, an undefined OP ends with CODE 11 and ASC_CMD_REFUSED. (R304, R308, R309,
R335, R338, R577; outside a follower, without PERSIST, with room in HBM and the store queue.) -/
def Obligations.ContextCommands : Prop :=
  ∀ p s, s.Takes p Reg.ascCmd → ∀ n, n = p.allot → ∀ a, a = s.fld (privKey n Reg.ascCmdAssoc) 15 0 → s.unitBusy 8 n = false → s.ctl.mode ≠ .sentry → s.isFollower = false →
    s.HbmRoom → s.StoreRoom 1 →
    (∀ c, s.ctx a = some c → (n = 0 ∨ s.assocOwner a = n) → ∃ t, exec (.ctxRead p) s = .next t ∧ t.asc = s.asc ∧ t.Ended (privKey n Reg.ascCmdResult) 0 ∧
      ∀ w < 128, t.rd (privKey n (Reg.ascCmdData w)) = BitVec.ofNat 32 (be32 (s.ctxBytes c) (4 * w))) ∧
    (∀ (arg : Fin 16), s.ctx a = none → ∀ c, c = Ctx.create (s.ascData n) (arg % 2) → s.ctxInvalid c (s.ascData n) = false → s.ctxReaches n c = true → c.persist = false →
      s.sciFind (c.sciKey a) = none → ∀ i, (s.sciCandidates (c.sciKey a)).find? (fun j => (s.sciAt j).isNone) = some i →
      ∃ t, exec (.ctxCreate p arg) s = .next t ∧ t.ctx a = some c ∧ (∀ b, b ≠ a → t.ctx b = s.ctx b) ∧ t.Ended (privKey n Reg.ascCmdResult) 0 ∧
        t.sciAt i = (if c.kind = 1 then some (c.sciKey a) else s.sciAt i) ∧ ∀ j, j ≠ i → t.sciAt j = s.sciAt j) ∧
    (∀ c, s.ctx a = some c → (n = 0 ∨ s.assocOwner a = n) →
      (∀ x, x = c.rewrite (s.ascData n) → s.ctxInvalid x (s.ascData n) = false → s.ctxReaches n x = true → x.persist = false → x.an0 = c.an0 → x.an1 = c.an1 →
        (x.sciKey a).same (c.sciKey a) = true → c.poisoned = false → ∃ t, exec (.ctxWrite p) s = .next t ∧ t.ctx a = some x ∧ (∀ b, b ≠ a → t.ctx b = s.ctx b) ∧
          t.asc.sci = s.asc.sci ∧ t.Ended (privKey n Reg.ascCmdResult) 0) ∧
      (s.slotBound (slotOf a 0) = false → s.slotBound (slotOf a 1) = false → ∃ t, exec (.ctxDelete p) s = .next t ∧ t.ctx a = none ∧
        (∀ b, b ≠ a → t.ctx b = s.ctx b) ∧ a ∉ t.asc.cache ∧ (c.kind = 1 → ∀ i, s.sciFind (c.sciKey a) = some i → t.sciAt i = none) ∧
        t.Ended (privKey n Reg.ascCmdResult) 0) ∧
      (c.kind = 1 → s.rotatable a c = true → ∃ t, exec (.ascRotate p) s = .next t ∧ t.ctx a = some { c with rotating := some (1 - c.txSlot, false) } ∧
        (∀ b, b ≠ a → t.ctx b = s.ctx b) ∧ t.unitBusy 8 n = true) ∧
      (∀ (arg : Fin 16), c.kind = 2 → ∀ g, s.groupOfTrib c.trib = some g → c.cloakTx = true → s.slotUsable (slotOf a (1 - c.txSlot)) = true →
        c.an (1 - c.txSlot) = (c.an c.txSlot + 1) % 4 → (s.gpages g).flip = none →
        ∀ at_, at_ = s.line.sheaf + 1 + max 2 arg.val + (if (s.gpages g).txSwap = some (s.line.sheaf + 1 + max 2 arg.val) then 1 else 0) →
        ∃ t, exec (.ascFlip p arg) s = .next t ∧ t.ctx a = some { c with flipPending := true, flipIndex := c.an (1 - c.txSlot), flipSheaf := at_ } ∧
          t.rows.pages[g]? = (s.rows.pages[g]?).map (fun x => { x with flip := some (c.trib, at_) }) ∧ (∀ h, h ≠ g → t.rows.pages[h]? = s.rows.pages[h]?) ∧
          t.unitBusy 8 n = true)) ∧
    (∀ op : Fin 16, 7 ≤ op.val → ∃ t, exec (.ascCmdUnknown p op) s = .next t ∧ t.asc = s.asc ∧ t.Ended (privKey n Reg.ascCmdResult) 11 ∧
      t.events Ev.ascCmdRefused = satAdd (2 ^ 48 - 1) (s.events Ev.ascCmdRefused) 1)

/-- A MACsec frame of a known association, slot and packet number waits for admission with its recovered bytes and the association's decrypt
output; one without an association is dropped and counted. At the final check a frame in the window is accepted and moves the winnow state,
its release held while the probe queue is full, a late or failing one is discarded. (R161, R215, R313, R324, R363; seed tags off.) -/
def Obligations.ReceivedFramesAreChecked : Prop :=
  (∀ (i : Fin 544) f s, s.flg Reg.pmcTagCfg 31 = false → s.lineInput i = true → (32 ≤ i.val → (s.tribRx (i - 32)).left = f.length) → be16 f (12 + 4 * s.inputTags i) = 0x88E5 →
    (∀ a, s.rxAssoc i (parseTag (s.inputTags i) f) = some a → ∀ c, s.ctx a = some c → c.kind = 1 → tagValid (s.inputTags i) f = true → a ∈ s.asc.cache →
      ∀ k, s.rxSlot a c (parseTag (s.inputTags i) f).an = some k → s.allotState c.owner ≠ .frozen → c.poisoned = false → c.dead k = false → s.mayStart (slotOf a k) = true →
      s.preCheck a k (c.rxPn k (parseTag (s.inputTags i) f).pn) c = none → ∀ d, s.freePair 1 = some d → c.autoRotate = false →
      ∃ t, exec (.lineFrameReceive i f false) s = .next t ∧ ∃ x, t.sch.arrivals = s.sch.arrivals ++ [x] ∧ x.encrypt = false ∧ x.assoc = a ∧ x.output = c.decOut ∧
        x.cls = c.decClass ∧ x.slot = slotOf a k ∧ x.pn = c.rxPn k (parseTag (s.inputTags i) f).pn ∧ x.verdict = none ∧
        x.bytes = (c.unprotect (s.keyOf (slotOf a k)) (s.inputTags i) k x.pn f).1 ∧ t.sch.frames = s.sch.frames ∧ t.sch.queues = s.sch.queues) ∧
    (s.rxAssoc i (parseTag (s.inputTags i) f) = none → ∃ t, exec (.lineFrameReceive i f false) s = .next t ∧ t.sch = s.sch ∧ t.asc = s.asc ∧
      t.count (Reg.ascCountLo 5) = s.count (Reg.ascCountLo 5) + 1)) ∧
  (∀ (i : Fin 544) f b s, (s.lineInput i = false → exec (.lineFrameReceive i f b) s = .next (s.inputLost i)) ∧
    (s.lineInput i = true → 32 ≤ i.val → (s.tribRx (i - 32)).left ≠ f.length → exec (.lineFrameReceive i f b) s = .next s)) ∧
  (∀ id s f, s.frame? id = some f → f.id = id → f.encrypt = false → f.pn ≠ 0 → f.verdict = none → ∀ c, s.ctx f.assoc = some c → c.fresh (f.slot % 2) = false →
    (∀ w ∈ s.cls.probeWait, w.2 ≠ id) → s.isFollower = false → s.ctl.mode ≠ .sentry →
    (f.rxFault = 0 → c.late (f.slot % 2) f.pn = false → c.rxAsked = true → ∃ t, exec (.decryptFinalCheck id) s = .next t ∧
      (s.clsLive = false ∨ s.cls.probes.length < 1024 → t.frame? id = some { f with verdict := some true }) ∧
      (s.clsLive = true → 1024 ≤ s.cls.probes.length → t.frame? id = some f ∧ t.cls.probeWait = s.cls.probeWait ++ [(s.probeOf f, id)]) ∧ t.ctx f.assoc = some (((c.accept (f.slot % 2) f.pn).bump 3 1).bump 4 f.bytes.length) ∧
      (∀ b, b ≠ f.assoc → t.ctx b = s.ctx b) ∧ ∀ j, j ≠ id → t.frame? j = s.frame? j) ∧
    (f.rxFault = 0 → c.late (f.slot % 2) f.pn = true → ∃ t, exec (.decryptFinalCheck id) s = .next t ∧
      t.frame? id = some { f with verdict := some false } ∧ t.ctx f.assoc = some (c.bump 7 1) ∧ ∀ j, j ≠ id → t.frame? j = s.frame? j) ∧
    (f.rxFault ≠ 0 → s.leaving f = false → ∃ t, exec (.decryptFinalCheck id) s = .next t ∧ t.frame? id = some { f with verdict := some false } ∧
      t.ctx f.assoc = some (c.bump 5 1) ∧ t.events Ev.rxIcvFail = satAdd (2 ^ 48 - 1) (s.events Ev.rxIcvFail) 1))

/-- A received sheaf of a cloaked tributary waits for its tag under the slot that its received key index names; at its end a good tag sets
its bit, a bad one is counted. A cached context is written to HBM; at the end of OLD_HOLD the other slot retires. (R147, R306, R330, R331,
R333, R337; the last outside Service and the Yoke modes.) -/
def Obligations.CloakWritebackAndRetirement : Prop :=
  (∀ (tr : Fin 512) (n : BitVec 48) data tag s, (s.cloakRx tr = false → exec (.cloakSheafReceive tr n data tag false) s = .next s) ∧
    ∀ a c, s.cloakOf tr = some (a, c) → c.cloakRx = true → s.tribCarried tr = true → c.sheafLate n.toNat = false → ∀ k, s.cloakSlot a c (s.rxKeyIndex tr n.toNat) = some k →
      s.rxPairsOf tr ≠ [] → c.autoRotate = false → ∃ t, exec (.cloakSheafReceive tr n data tag false) s = .next t ∧
      SMap.get noneOf t.asc.rxSheaf tr = some (n.toNat, slotOf a k, decide (slice tag 0 16 = cloakTag (s.keyOf (slotOf a k)) (!c.cloakEnd) tr n.toNat data)) ∧
      (∀ i, i ≠ tr.val → SMap.get noneOf t.asc.rxSheaf i = SMap.get noneOf s.asc.rxSheaf i) ∧ t.asc.ctxs = s.asc.ctxs) ∧
  (∀ (tr : Fin 512) s, (SMap.get noneOf s.asc.rxSheaf tr = none → exec (.cloakTagCheck tr) s = .next s) ∧
    ∀ n code ok, SMap.get noneOf s.asc.rxSheaf tr = some (n, code, ok) → ∀ c, s.ctx (code / 2) = some c →
      (ok = true → ∃ t, exec (.cloakTagCheck tr) s = .next t ∧ SMap.get noneOf t.asc.rxSheaf tr = none ∧
        t.ctx (code / 2) = some ((c.sheafSeen n).bump 12 1) ∧ ∀ b, b ≠ code / 2 → t.ctx b = s.ctx b) ∧
      (ok = false → s.isFollower = false → c.tagFailAt = none → s.ctl.mode ≠ .sentry →
        ∃ t, exec (.cloakTagCheck tr) s = .next t ∧ SMap.get noneOf t.asc.rxSheaf tr = none ∧
        t.ctx (code / 2) = some { c.bump 13 1 with tagFailAt := some s.now } ∧ t.events Ev.cloakTagFail = satAdd (2 ^ 48 - 1) (s.events Ev.cloakTagFail) 1)) ∧
  (∀ (a : Fin 65536) s, (a.val ∉ s.asc.cache → exec (.ctxWriteback a) s = .next s) ∧
    (a.val ∈ s.asc.cache → ∀ c, s.ctx a = some c → ∀ d, s.queueDomain 64 = some d → s.mgd.initDone = true → s.islandUp 16 = true → 512 * (a.val + 1) ≤ d.size → s.HbmRoom →
      ∃ t, exec (.ctxWriteback a) s = .next t ∧ t.asc = s.asc ∧
        ∀ i < 8, (t.gline (d.line (d.base + 512 * a + 64 * i))).data = slice (s.ctxBytes c) (64 * i) 64)) ∧
  (∀ (a : Fin 65536) s c, s.ctx a = some c →
    (c.holdLeft = 0 ∨ s.now < c.holdLeft ∨ s.isFollower = true → exec (.oldHoldExpiry a) s = .next s) ∧
    (c.holdLeft ≠ 0 → c.holdLeft ≤ s.now → s.Calm → s.slotRecUsed (slotOf a (1 - c.txSlot)) = false → ∃ t, exec (.oldHoldExpiry a) s = .next t ∧
      t.ctx a = some { c with holdLeft := 0 } ∧ (∀ b, b ≠ a.val → t.ctx b = s.ctx b) ∧ t.slotUsable (slotOf a (1 - c.txSlot)) = false ∧
      t.events Ev.oldSlotRetired = satAdd (2 ^ 48 - 1) (s.events Ev.oldSlotRetired) 1))

/-- Agreeing results change nothing. A mismatch counts for its pair and its window; its item goes on if the retry agrees within slack, else
it is squashed. The windows' ends clear their counts; an item ends or, held on a Fallow slot too long, is squashed. (R346 to R350, R358,
R360.) Every idle spare of a running island is tested. A passed test gives its pair the vacant role or makes it a spare, a failed one
retires it. RETIRE and KAT act on a pair of the right state and end with CODE 0, or with the CODE of R377. (R351 to R354, R377; a module
outside Service and the Yoke modes, without other vacancies.) -/
def Obligations.CipherPairsAreComparedAndTested : Prop :=
  (∀ (p : Fin 72) id again slack rel s, exec (.cipherBlockRelease p id true again slack rel) s = .next s) ∧
  (∀ (p : Fin 72) id agree again slack rel s, (∀ i, s.item id = some i → p.val ∉ i.pairs) → exec (.cipherBlockRelease p id agree again slack rel) s = .next s) ∧
  (∀ (p : Fin 72) id rel s i, s.item id = some i → p.val ∈ i.pairs → s.ctl.mode ≠ .sentry → s.cph.burst + 1 ≠ max 1 (s.fld Reg.cphCfg 23 16) →
    (s.cpair p).window + 1 ≠ max 1 (s.fld Reg.cphCfg 7 0) → p.val < s.cph.pairs.length →
    (∃ t, exec (.cipherBlockRelease p id false true true rel) s = .next t ∧
      t.cph = { s.cph with burst := s.cph.burst + 1, pairs := modAt (fun x => { x with mismatches := satAdd 255 x.mismatches 1, window := x.window + 1 }) s.cph.pairs p } ∧
      t.kvt = s.kvt ∧ t.sch = s.sch ∧ t.events Ev.cphMismatch = satAdd (2 ^ 48 - 1) (s.events Ev.cphMismatch) 1) ∧
    (∀ again, ∃ t, exec (.cipherBlockRelease p id false again false rel) s = .next t ∧ t.item id = none ∧ (∀ j, j ≠ id → t.item j = s.item j) ∧
      t.events Ev.cphMismatch = satAdd (2 ^ 48 - 1) (s.events Ev.cphMismatch) 1)) ∧
  (∀ (p : Fin 72) s, exec (.mismatchWindowEnd p) s = .next { s with cph := { s.cph with pairs := modAt (fun x => { x with window := 0 }) s.cph.pairs p } }) ∧
  (∀ s, exec .burstWindowEnd s = .next { s with cph := { s.cph with burst := 0 } }) ∧
  (∀ id s, ∃ t, exec (.workItemEnd id) s = .next t ∧ t.item id = none ∧ (∀ j, j ≠ id → t.item j = s.item j) ∧ t.cph.pairs = s.cph.pairs ∧
    t = { s with cph := t.cph, kvt := { s.kvt with slots := t.kvt.slots } }) ∧
  (∀ id rel s i, s.item id = some i →
    ((∃ c ∈ i.slots, ∃ k, s.slot c = some k ∧ k.st = .fallow) → s.ctl.mode ≠ .sentry → ∃ t, exec (.fallowSquash id rel) s = .next t ∧ t.item id = none ∧
      (∀ j, j ≠ id → t.item j = s.item j) ∧ t.count (Reg.cphCountLo 12) = s.count (Reg.cphCountLo 12) + 1 ∧
      t.events Ev.cphFallowSquash = satAdd (2 ^ 48 - 1) (s.events Ev.cphFallowSquash) 1) ∧
    ((∀ c ∈ i.slots, ∀ k, s.slot c = some k → k.st ≠ .fallow) → exec (.fallowSquash id rel) s = .next s)) ∧
  (∀ s, ∃ t, exec .spareKatTick s = .next t ∧ t = { s with cph := { s.cph with pairs := t.cph.pairs, testing := t.cph.testing } } ∧
    ∀ p < 72, t.cph.pairs[p]? = (s.cph.pairs[p]?).map (fun x => if x.st = 2 ∧ s.islandUp (9 + p / 18) = true then { x with st := 3 } else x)) ∧
  (∀ (p : Fin 72) s v, s.cph.testing.find? (fun e => e.1 == p.val) = some (p.val, v) → s.Calm → s.cph.vacant = [] → s.cph.cmd ≠ some p.val → (s.cpair p).st ≠ 1 →
    (∀ role x, v = some (role, x) → ∃ t, exec (.katDone p true) s = .next t ∧
      t.cph.pairs = modAt (fun y => { y with st := 1, role := role, standsFor := x }) s.cph.pairs p ∧ t.cph.testing = s.cph.testing.filter (fun e => e.1 != p.val) ∧
      t.events Ev.cphSubstituted = satAdd (2 ^ 48 - 1) (s.events Ev.cphSubstituted) 1) ∧
    (v = none → (∃ t, exec (.katDone p true) s = .next t ∧ t.cph.pairs = modAt (fun y => { y with st := 2, standsFor := 0x7F, cause := 0 }) s.cph.pairs p ∧
        t.cph.testing = s.cph.testing.filter (fun e => e.1 != p.val)) ∧
      ∃ t, exec (.katDone p false) s = .next t ∧ t.cph.pairs = modAt (fun y => { y with st := 4, cause := 3, standsFor := 0x7F }) s.cph.pairs p ∧
        t.events Ev.cphKatFail = satAdd (2 ^ 48 - 1) (s.events Ev.cphKatFail) 1)) ∧
  (∀ q (p : Fin 128) s, s.Reaches q Reg.cphPairCmd → s.cph.cmd = none →
    (p.val < 72 → s.ctl.mode ≠ .zeroized →
      ((s.cpair p).st = 2 → s.Calm → s.cph.vacant = [] → ∃ t, exec (.pairRetire q p) s = .next t ∧ t.Ended Reg.cphPairResult 0 ∧
        t.cph.pairs = modAt (fun y => { y with st := 4, cause := 4, standsFor := 0x7F }) s.cph.pairs p ∧
        t.events Ev.cphPairRetired = satAdd (2 ^ 48 - 1) (s.events Ev.cphPairRetired) 1) ∧
      ((s.cpair p).st = 2 ∨ (s.cpair p).st = 4 → ∃ t, exec (.pairKat q p) s = .next t ∧ t.cph.cmd = some p.val ∧
        t.cph.pairs = modAt (fun y => { y with st := 3 }) s.cph.pairs p ∧ t.cph.testing = s.cph.testing ++ [(p.val, none)] ∧
        t = { s with cph := t.cph, armed := t.armed }) ∧
      ((s.cpair p).st = 0 ∨ (s.cpair p).st = 3 → ∀ c ∈ [Instr.pairRetire q p, .pairKat q p], ∃ t, exec c s = .next t ∧ t.Ended Reg.cphPairResult 4 ∧ t.cph = s.cph) ∧
      (∀ op : Fin 16, 3 ≤ op.val → ∃ t, exec (.pairCmdUnknown q op p) s = .next t ∧ t.Ended Reg.cphPairResult 3 ∧ t.cph = s.cph ∧
        t = { s with regs := t.regs, armed := t.armed })) ∧
    (72 ≤ p.val → ∀ c ∈ [Instr.pairRetire q p, .pairKat q p, .pairCmdUnknown q 3 p], ∃ t, exec c s = .next t ∧ t.Ended Reg.cphPairResult 2 ∧ t.cph = s.cph))

/-- A job ring's next descriptor is fetched and waits as a job, a bad one is refused with CPH_JOB_REFUSED. The job that DWRR picks starts on
a pair with the result of R367 under its slots' keys; when it is done its output is written and it ends with STATUS 0. (R366 to R368, R370
to R372.) -/
def Obligations.LookasideJobs : Prop :=
  (∀ (n : Fin 64) (r : Fin 9) d s, r.val ≠ 0 → s.mayFetch n r = true →
    (jobValid d = true → ∃ t, exec (.lookasideJob n r d) s = .next t ∧ t.job s.cph.nextJob = some ⟨n, r, s.ringM n r, d, none, 0xFF, 0, [], none⟩ ∧
      t.cph.nextJob = s.cph.nextJob + 1 ∧ (∀ j, j ≠ s.cph.nextJob → t.job j = s.job j) ∧ t.ringM n r = (s.ringM n r + 1) % 65536 ∧ t.cph.items = s.cph.items) ∧
    (jobValid d = false → s.ctl.mode ≠ .sentry → ∃ t, exec (.lookasideJob n r d) s = .next t ∧ t.cph.nextJob = s.cph.nextJob + 1 ∧ t.ringM n r = (s.ringM n r + 1) % 65536 ∧
      t.cph.items = s.cph.items ∧ t.events Ev.cphJobRefused = satAdd (2 ^ 48 - 1) (s.events Ev.cphJobRefused) 1)) ∧
  (∀ (n : Fin 64) (r : Fin 9) d s, r.val = 0 ∨ s.mayFetch n r = false → exec (.lookasideJob n r d) s = .next s) ∧
  (∀ src seen s, s.flushAll = s →
    (s.chooseJob = none → exec (.lookasideAdmit src true seen false) s = .next s) ∧
    ∀ n j def_, s.chooseJob = some (n, j, def_) → ∀ d, d = JobDesc.of j.desc → ∀ p, s.jobPair d = some p → d.srcScratch = false → d.mode ≠ 6 →
      (d.dstScratch = false ∨ j.allot ∉ s.mgd.winInit) →
      (∀ c ∈ d.slots, s.jobSlotOk j.allot d c = true ∧ vaultBase ≤ c) →
      ∃ t, exec (.lookasideAdmit src true seen false) s = .next t ∧ t.job n = some { j with
          item := some s.cph.nextItem, pair := p, status := (jobResult d (s.keyOf (d.slots.getD 0 0)) (s.keyOf (d.slots.getD 1 0)) (slice src 0 d.srcLen)).1
          output := (jobResult d (s.keyOf (d.slots.getD 0 0)) (s.keyOf (d.slots.getD 1 0)) (slice src 0 d.srcLen)).2 } ∧
        (∀ m, m ≠ n → t.job m = s.job m) ∧ (t.item s.cph.nextItem).map (fun x => (x.kind, x.slots, x.pairs)) = some (.job n, d.slots, [p]) ∧ t.cph.turn = some j.allot) ∧
  (∀ n seen s j, s.job n = some j → ∀ i, j.item = some i → j.fin = none → j.status = 0 → (JobDesc.of j.desc).dstScratch = false → j.output ≠ [] →
    ∃ t, exec (.lookasideComplete n true seen) s = .next t ∧ Output.hostWrite (s.dmaTag j.allot true) (JobDesc.of j.desc).dst j.output ∈ t.out ∧ t.item i = none ∧
      (t.job n = none ∨ t.job n = some { j with fin := some (0, j.output.length) })) ∧
  (∀ n seen s, s.job n = none → exec (.lookasideComplete n true seen) s = .next s)

/-- A load puts a key into a reachable slot whose ATTR is permitted: LOAD from DATA, IMPORT_KW what unwraps, GENERATE what the generator
gives, DERIVE what the KDF gives. ERASE takes a slot through Fallow and SLOT_ERASED ends it; READ_ATTR shows a slot without its key; GRANT
gives a vault slot an owner. (R381, R387, R388, R391, R393; IMPORT_KW, GENERATE and DERIVE as R577 checks them, ERASE outside Service and
the Yoke modes.) -/
def Obligations.KeysAreLoadedAndErased : Prop :=
  (∀ p s, s.Takes p Reg.kvtCmd → ∀ n, n = p.allot → s.VaultOpen n → ∀ c, s.reachSlot n (s.kvtSlotWord n) = .ok c →
    (s.StoreRoom 4 → s.loadCode c (s.kvtAttr n) = 0 →
      (s.flg Reg.kvtPolicy 8 = false → ∃ t, exec (.kvtLoad p) s = .next t ∧ s.Loads t n c (s.kvtData n) (s.kvtAttr n)) ∧
      (vaultBase ≤ c → s.kvt.rbgHealthy = true → ∃ t, exec (.kvtGenerate p) s = .next t ∧ s.Loads t n c (Config.freeBytes s.free 32) (s.kvtAttr n)) ∧
      (vaultBase ≤ c → 1 ≤ s.kvtArg n 23 16 → s.kvtArg n 23 16 ≤ 48 → s.useSlot n (s.kvtArg n 8 0) 9 = 0 → ∃ t, exec (.kvtDerive p) s = .next t ∧
        s.Loads t n c (Config.kdf (s.keyOf (vaultBase + s.kvtArg n 8 0)) ((s.kvtData n).take (s.kvtArg n 23 16)) (beBytes 4 (slotWord c)) (8 * attrBytes (s.kvtAttr n))) (s.kvtAttr n)) ∧
      (s.useSlot n (s.kvtArg n 8 0) 10 = 0 → ∃ t, exec (.importKw p) s = .next t ∧
        (∀ key, Config.kwUnwrap (s.keyOf (vaultBase + s.kvtArg n 8 0)) ((s.kvtData n).take (attrBytes (s.kvtAttr n) + 8)) = some key → s.Loads t n c key (s.kvtAttr n)) ∧
        (Config.kwUnwrap (s.keyOf (vaultBase + s.kvtArg n 8 0)) ((s.kvtData n).take (attrBytes (s.kvtAttr n) + 8)) = none →
          t.Ended (privKey n Reg.kvtCmdResult) 6 ∧ (∀ d, t.slot d = s.slot d) ∧ t.events Ev.kvtImportFail = satAdd (2 ^ 48 - 1) (s.events Ev.kvtImportFail) 1))) ∧
    (vaultBase ≤ c → s.kvt.rbgHealthy = false → ∃ t, exec (.kvtGenerate p) s = .next t ∧ t.unitBusy 10 n = true ∧ ∀ d, t.slot d = s.slot d) ∧
    (s.slotUsable c = true → s.slotRecUsed c = false → s.Calm → ∃ t, exec (.kvtErase p) s = .next t ∧ (t.slot c).map (·.st) = some .fallow ∧
      (∀ d, d ≠ c → t.slot d = s.slot d) ∧ t.Ended (privKey n Reg.kvtCmdResult) 0) ∧
    (∀ k, s.slot c = some k → ∃ t, exec (.readAttr p) s = .next t ∧ t.kvt = s.kvt ∧ t.rd (privKey n Reg.kvtCmdAttr) = k.fullAttr ∧
      t.rd (privKey n Reg.kvtCmdUsageLo) = BitVec.ofNat 32 k.usage ∧ t.rd (privKey n Reg.kvtCmdFpLo) = BitVec.ofNat 32 k.fp ∧ t.Ended (privKey n Reg.kvtCmdResult) 0) ∧
    (n = 0 → vaultBase ≤ c → s.allotExists (s.kvtArg n 5 0) = true → s.slotBound c = false → ∃ t, exec (.kvtGrant p) s = .next t ∧
      SMap.get zeroOf t.kvt.grants c = s.kvtArg n 5 0 ∧ (∀ d, d ≠ c → SMap.get zeroOf t.kvt.grants d = SMap.get zeroOf s.kvt.grants d) ∧
      t.kvt.slots = s.kvt.slots ∧ t.Ended Reg.kvtCmdResult 0)) ∧
  (∀ (v : Bool) (sl : Fin 131072) s c, c = (if v then vaultBase + sl % 256 else sl.val) → ∀ k, s.slot c = some k →
    (k.st = .fallow → k.inflight = 0 → ∃ t, exec (.slotErased v sl) s = .next t ∧ t.slot c = some { k with st := .erased, key := [], fp := 0 } ∧
      (∀ d, d ≠ c → t.slot d = s.slot d) ∧ t.count (Reg.kvtCountLo 2) = s.count (Reg.kvtCountLo 2) + 1) ∧
    (k.st ≠ .fallow ∨ k.inflight ≠ 0 → exec (.slotErased v sl) s = .next s))

/-- PROV_OPEN opens the one session with fresh values; PROV_ACCEPT takes a signed response that names its nonce, else ends the session;
IMPORT_PROV loads one of its records once; PROV_CLOSE and the time-out clear KVT_XFER. ID_EXPORT shows the identity, CERT_WRITE stores
certificates of the module's keys, ANCHOR_ADD and ANCHOR_REVOKE change one anchor. (R384, R385, R397 to R400, R577; allotment 0.) -/
def Obligations.ProvisioningAndIdentity : Prop :=
  (∀ p s, s.Takes p Reg.kvtCmd → p.allot = 0 → s.VaultOpen 0 →
    (s.kvt.session = none → s.kvt.rbgHealthy = true → ∃ t, exec (.provOpen p) s = .next t ∧ ∃ x, t.kvt.session = some x ∧ x.accepted = false ∧
      x.nonce = Config.freeBytes s.free 32 ∧ x.imported = [] ∧ t.free = s.free + 3 ∧ t.kvt.slots = s.kvt.slots ∧ t.Ended Reg.kvtCmdResult 0 ∧
      t.events Ev.provSession = satAdd (2 ^ 48 - 1) (s.events Ev.provSession) 1) ∧
    (∀ x, s.kvt.session = some x → x.accepted = false → ∃ t, exec (.provAccept p) s = .next t ∧
      if (slice (s.xfer 0 7200) 0 4 == ascii "SLPS" && decide (1 ≤ ofBe (slice (s.xfer 0 7200) 6 2)) && decide (ofBe (slice (s.xfer 0 7200) 6 2) ≤ 64) && slice (s.xfer 0 7200) 40 32 == x.nonce &&
          s.anchorAccepts (ofBe (slice (s.xfer 0 7200) 4 2)) (slice (s.xfer 0 7200) 1740 97) (slice (s.xfer 0 7200) 1840 1952) (Config.sha384 (slice (s.xfer 0 7200) 0 3792))
            (slice (s.xfer 0 7200) 3792 96) (slice (s.xfer 0 7200) 3888 3309) "LM3216-PS" &&
          (Config.ecdh x.ecdhSeed (slice (s.xfer 0 7200) 72 97)).isSome) = true then
        (∃ y, t.kvt.session = some y ∧ y.accepted = true ∧ y.ecdhSeed = [] ∧ y.kemSeed = [] ∧ y.imported = x.imported) ∧ t.slotUsable sessionSlot = true ∧ t.Ended Reg.kvtCmdResult 0
      else t.kvt.session = none ∧ t.kvt.slots = s.kvt.slots ∧ t.Ended Reg.kvtCmdResult 10 ∧ t.events Ev.provAuthFail = satAdd (2 ^ 48 - 1) (s.events Ev.provAuthFail) 1) ∧
    (∀ x, s.kvt.session = some x → x.accepted = true → ∀ i, i = s.kvtArg 0 5 0 → i ∉ x.imported → ∀ r, r = slice x.records (64 * i) 64 → 64 * (i + 1) ≤ x.records.length →
      ofBe (slice r 8 4) = i → ∀ c, s.reachSlot 0 (ofBe (slice r 0 4)) = .ok c → s.loadCode c (BitVec.ofNat 32 (ofBe (slice r 4 4))) = 0 → s.StoreRoom 4 →
      ∃ t, exec (.importProv p) s = .next t ∧
        (∀ key, Config.gcmOpen (s.keyOf sessionSlot) (zeroBytes 8 ++ slice r 8 4) (slice r 0 16) (slice r 16 32) (slice r 48 16) = some key →
          s.Loads t 0 c key (BitVec.ofNat 32 (ofBe (slice r 4 4))) ∧ t.kvt.session = some { x with imported := i :: x.imported }) ∧
        (Config.gcmOpen (s.keyOf sessionSlot) (zeroBytes 8 ++ slice r 8 4) (slice r 0 16) (slice r 16 32) (slice r 48 16) = none →
          t.Ended Reg.kvtCmdResult 6 ∧ t.kvt = s.kvt ∧ t.events Ev.kvtImportFail = satAdd (2 ^ 48 - 1) (s.events Ev.kvtImportFail) 1)) ∧
    (s.kvt.session.isSome = true → ∃ t, exec (.provClose p) s = .next t ∧ t.kvt.session = none ∧ t.slotUsable sessionSlot = false ∧
      (∀ i < 4096, t.rd (Reg.kvtXfer i) = regDefault (Reg.kvtXfer i)) ∧ (∀ d, d ≠ sessionSlot → t.slot d = s.slot d) ∧ t.Ended Reg.kvtCmdResult 0) ∧
    (∃ t, exec (.idExport p) s = .next t ∧ t.kvt = s.kvt ∧ t.Ended Reg.kvtCmdResult 0 ∧ ∀ b, b = slice s.kvt.pubEc 0 97 ++ slice s.kvt.pubMl 0 1952 ++ certBytes s.mram.idPage →
      ∀ i, i < (b.length + 3) / 4 → i < 4096 → t.rd (Reg.kvtXfer i) = BitVec.ofNat 32 (ofBe (slice b (4 * i) 4))) ∧
    (s.isArmed 10 = true →
      (∀ a, a = ofBe (s.xfer 0 4) → ∀ c0, c0 = s.xfer 4 a → ∀ b, b = ofBe (s.xfer (4 + a) 4) → ∀ c1, c1 = s.xfer (8 + a) b → a ≤ 7000 → b ≤ 7000 → s.StoreRoom 1 →
        ∃ t, exec (.certWrite p) s = .next t ∧ t.kvt.slots = s.kvt.slots ∧
          if Config.certKey c0 = s.kvt.pubEc ∧ Config.certKey c1 = s.kvt.pubMl then t.unitBusy 10 0 = true ∧
            ∃ x, (x ∈ t.st.queue ∨ t.st.mram = some x ∨ t.st.nor = some x) ∧ x.pay = .idPage (beBytes 4 a ++ c0 ++ beBytes 4 b ++ c1)
          else t.Ended Reg.kvtCmdResult 10) ∧
      (∀ a r, s.kvt.anchors[s.kvtArg 0 1 0]? = some ⟨a, r⟩ →
        (a = none → ∃ t, exec (.anchorAdd p) s = .next t ∧ t.kvt = { s.kvt with anchors := modAt (fun x => { x with hash := some (s.kvtData 0) }) s.kvt.anchors (s.kvtArg 0 1 0) } ∧
          t.Ended Reg.kvtCmdResult 0 ∧ t.events Ev.anchorChanged = satAdd (2 ^ 48 - 1) (s.events Ev.anchorChanged) 1) ∧
        (a.isSome = true → ∃ t, exec (.anchorRevoke p) s = .next t ∧ t.kvt.anchors = (if r then s.kvt.anchors else modAt (fun x => { x with revoked := true }) s.kvt.anchors (s.kvtArg 0 1 0)) ∧
          t.kvt.slots = s.kvt.slots ∧ t.Ended Reg.kvtCmdResult 0)))) ∧
  (∀ s, s.kvt.session = none → exec .provSessionTimeout s = .next s) ∧
  (∀ s x, s.kvt.session = some x → (x.accepted = true → exec .provSessionTimeout s = .next s) ∧
    (x.accepted = false → ∃ t, exec .provSessionTimeout s = .next t ∧ t.kvt = { s.kvt with session := none } ∧ ∀ i < 4096, t.rd (Reg.kvtXfer i) = regDefault (Reg.kvtXfer i)))

/-- An armed LC_ADVANCE to a permitted state in Ready erases every key and waits for the stores to be overwritten; ZEROIZE_ALL goes to
Zeroized with no root and no key; RESEED in Zeroized with every sensor quiet and a healthy generator draws the present state's root anew. An
undefined OP ends with CODE 16 and KVT_CMD_REFUSED. (R404, R406 to R408, R577; allotment 0.) A load whose store is deferred for 1 s ends
with CODE 13, a request without bits for 1 ms with CODE 15, each with its key slots unchanged. The re-mask walk changes every slot's mask
generation and no key. A re-seed of the generator clears its count and, once samples pass, its failure; a health failure is counted,
recorded and lasts at level 2. (R110, R382, R383, R393, R394; the last outside modes that erase.) -/
def Obligations.LifeCycleCommandsAndVaultTimers : Prop :=
  (∀ p s, s.Takes p Reg.kvtCmd → s.unitBusy 10 p.allot = false →
    (p.allot = 0 → s.isArmed 10 = true →
      (s.ctl.mode = .ready → ∀ g, lifeOfCode (s.kvtArg 0 2 0) = some g → g ≠ .returned → lifeMay s.boot.otpLife g = true → (s.kvt.rbgHealthy = true ∨ g = .scrapped) → s.WipeRoom →
        ∃ t, exec (.lcAdvance p) s = .next t ∧ t.kvt.life = some (.advance g) ∧ t.unitBusy 10 0 = true ∧ (∀ c, t.slotUsable c = false) ∧ t.boot.otpLife = s.boot.otpLife ∧
          t.hdg = s.hdg ∧ t.ctl.mode = .ready) ∧
      (s.ctl.mode ≠ .zeroized → s.ctl.mode ≠ .sentry → s.boot.otpLife ≠ .raw → ∃ t, exec (.zeroizeAll p) s = .next t ∧ t.ctl.mode = .zeroized ∧ t.ctl.degraded = true ∧
        t.hdg.roots = List.replicate 4 none ∧ t.hdg.evidKey = none ∧ (∀ c, t.slotUsable c = false) ∧ t.boot = s.boot ∧
        t.events Ev.hostZeroize = satAdd (2 ^ 48 - 1) (s.events Ev.hostZeroize) 1) ∧
      (s.ctl.mode = .zeroized → ∀ i, rootIndex s.boot.otpLife = some i → s.hdg.live = true → (∀ x ∈ s.hdg.sensors, x.tripped = false ∧ x.raw = false) → s.kvt.reseeds < 32 → s.kvt.rbgHealthy = true → s.WipeRoom →
        ∃ t, exec (.reseed p) s = .next t ∧ t.hdg = { s.hdg with roots := s.hdg.roots.set i (some (rootOf s.free)), zeroized := false } ∧ t.kvt.reseeds = s.kvt.reseeds + 1 ∧
          t.kvt.life = some .reseed ∧ t.unitBusy 10 0 = true ∧ t.ctl.mode = .zeroized)) ∧
    (∀ op : Fin 32, 19 ≤ op.val → s.ctl.mode ≠ .sentry → ∃ t, exec (.kvtCmdUnknown p op) s = .next t ∧ t.kvt = s.kvt ∧ t.Ended (privKey p.allot Reg.kvtCmdResult) 16 ∧
      t.events Ev.kvtCmdRefused = satAdd (2 ^ 48 - 1) (s.events Ev.kvtCmdRefused) 1)) ∧
  (∀ (n : Fin 64) s r, s.kvtRunning n = some r →
    (r.op ∈ [1, 2, 3, 4, 10] → 0 < r.waits → ∃ t, exec (.loadStoreTimeout n) s = .next t ∧ t.Ended (privKey n Reg.kvtCmdResult) 13 ∧ t.unitBusy 10 n = false ∧
      t.kvt.slots = s.kvt.slots ∧ t.st.queue.length = s.st.queue.length) ∧
    (r.waits = 0 → r.code = 15 → ∃ t, exec (.rbgRequestTimeout n) s = .next t ∧ t.Ended (privKey n Reg.kvtCmdResult) 15 ∧ t.unitBusy 10 n = false ∧ t.kvt.slots = s.kvt.slots)) ∧
  (∀ (n : Fin 64) s, s.kvtRunning n = none → exec (.loadStoreTimeout n) s = .next s ∧ exec (.rbgRequestTimeout n) s = .next s) ∧
  (∀ s, (s.kvt.rbgHealthy = true → s.kvt.rbgUp = true → ∃ t, exec (.remaskWalk []) s = .next t ∧ t.kvt.generation = !s.kvt.generation ∧
      (∀ c, t.slot c = (s.slot c).map (fun k => { k with mgen := !s.kvt.generation })) ∧ t.kvt.maskKey = some (Config.freeBytes s.free 32) ∧ t.free = s.free + 1) ∧
    (s.kvt.rbgHealthy = false ∨ s.kvt.rbgUp = false → ∀ bad, exec (.remaskWalk bad) s = .next s)) ∧
  (∀ s, exec (.rbgReseed false) s = .next { s with free := s.free + 1, kvt := { s.kvt with rbgCount := 0 } }) ∧
  (∀ s, s.kvt.rbgHealthy = false → s.kvt.runs = [] → ∃ t, exec (.rbgReseed true) s = .next t ∧ t.kvt = { s.kvt with rbgCount := 0, rbgHealthy := true } ∧
    t.ctl = { s.ctl with level2 := s.ctl.level2.filter (· != Ev.rbgHealthFail.code) }) ∧
  (∀ s, s.ctl.mode.erases = false → s.ctl.mode ≠ .sentry → ∃ t, exec .rbgHealthFail s = .next t ∧ t.kvt.rbgHealthy = false ∧ t.kvt.slots = s.kvt.slots ∧
    t.fld Reg.kvtRbg 15 0 = satAdd 65535 (s.fld Reg.kvtRbg 15 0) 1 ∧ Ev.rbgHealthFail.code ∈ t.ctl.level2 ∧ t.ctl.degraded = true ∧ t.ctl.mode = s.ctl.mode ∧
    t.events Ev.rbgHealthFail = satAdd (2 ^ 48 - 1) (s.events Ev.rbgHealthFail) 1)

/-- A pairing message that R415 accepts gives the pair key in vault slot 255, any other ends pairing with its code; without a request it
waits (the model's choice, log entry 31). The right CONFIRM pairs the twins. A lane gains lock after 3 good cells in a row; acknowledged
cells go, the others are sent again after 2 µs. YOKE_FREQ_LOCKED and YOKE_LOCK_LOST set LOCKED. (R413 to R420, R423.) -/
def Obligations.TwinsPairAndLink : Prop :=
  (∀ m s, s.yok.pairing = none → s.loneLead = false → ∃ t, exec (.pairingMessage m) s = .next t ∧ Instr.pairingMessage m ∈ t.held ∧ t = { s with held := t.held }) ∧
  (∀ m s x, s.yok.pairing = some x → x.initiator = true → s.ctl.mode ≠ .sentry → ∃ t, exec (.pairingMessage m) s = .next t ∧
    (s.peerCode x m ≠ 0 → t.yok.pairing = none ∧ t.yok.pairCode = s.peerCode x m ∧ t.kvt.slots = s.kvt.slots ∧
      t.events Ev.yokePairFail = satAdd (2 ^ 48 - 1) (s.events Ev.yokePairFail) 1) ∧
    (s.peerCode x m = 0 → ∀ z, Config.ecdh x.ecdhSeed (slice m 56 97) = some z → t.slotUsable pairKeySlot = true ∧ (∀ c, c ≠ pairKeySlot → t.slot c = s.slot c) ∧
      t.yok.twinMode = ofBe (slice m 5 1) ∧ ∃ y, t.yok.pairing = some y ∧ y.peer = m ∧ y.ecdhSeed = [] ∧ y.kemSeed = [] ∧
        y.key = pairKeyOf (slice z 0 48) (slice (Config.mlkemDecap x.kemSeed (slice m 156 1568)) 0 32) (Config.sha384 (slice x.own 0 3776 ++ slice m 0 3776)))) ∧
  (∀ s x, s.yok.pairing = some x →
    (x.key ≠ [] → s.ctl.cmd = none → s.ctl.mode = .yokeLead → ∃ t, exec (.pairConfirm (confirmOf x.key (flag x.initiator))) s = .next t ∧ t.yok.paired = true ∧
      t.yok.pairing = none ∧ t.yok.pairCode = 1 ∧ t.yok.twinLost = false ∧ t.ctl.mode = .yokeLead ∧ t.events Ev.yokePaired = satAdd (2 ^ 48 - 1) (s.events Ev.yokePaired) 1) ∧
    (x.key ≠ [] → s.ctl.cmd = none → s.ctl.mode = .service → s.yok.twinMode = 4 → s.StoreRoom 1 → ∃ t, exec (.pairConfirm (confirmOf x.key (flag x.initiator))) s = .next t ∧
      t.yok.paired = true ∧ t.yok.pairing = none ∧ t.ctl.mode = .yokeLead ∧ t.ctl.prevMode = .service ∧ t.ctl.intake = true) ∧
    (x.key = [] → ∀ c, exec (.pairConfirm c) s = .next s)) ∧
  (∀ (n : Fin 4) b s, s.dithalOn = false → exec (.dithalCellReceive n b) s = .next s) ∧
  (∀ (n : Fin 4) b s, s.dithalOn = true → (DithalIn.of b).good = true →
    (s.yok.lanes.testBit n = false → SMap.get zeroOf s.yok.laneRun n + 1 < 3 → s.yok.lanes ≠ 15 → ∃ t, exec (.dithalCellReceive n b) s = .next t ∧
      SMap.get zeroOf t.yok.laneRun n = SMap.get zeroOf s.yok.laneRun n + 1 ∧ t.yok.lanes = s.yok.lanes ∧ t = { s with yok := { s.yok with laneRun := t.yok.laneRun } }) ∧
    (s.yok.lanes.testBit n = false → SMap.get zeroOf s.yok.laneRun n + 1 = 3 → s.yok.lanes + 2 ^ n.val < 15 → ∃ t, exec (.dithalCellReceive n b) s = .next t ∧
      t.yok.lanes = s.yok.lanes + 2 ^ n.val ∧ SMap.get zeroOf t.yok.laneRun n = 0 ∧ t.yok.unacked = s.yok.unacked) ∧
    (s.yok.lanes = 15 → (DithalIn.of b).kind = 0 → (DithalIn.of b).nak = false → s.yok.txWait = [] → ∃ t, exec (.dithalCellReceive n b) s = .next t ∧ t.yok.lanes = 15 ∧
      t.yok.unacked = s.yok.unacked.filter (fun c => decide (0x800000 ≤ ((DithalIn.of b).ack + 0x1000000 - c.seq) % 0x1000000)) ∧ t.out = s.out)) ∧
  (∀ s, ((∀ c, s.yok.unacked.head? = some c → s.now < c.sentAt + 2000) → exec .dithalResendTimeout s = .next s) ∧
    (s.yok.unacked ≠ [] → (∀ c, s.yok.unacked.head? = some c → c.sentAt + 2000 ≤ s.now) → (∀ c ∈ s.yok.unacked, c.sends < 4) → ∃ t, exec .dithalResendTimeout s = .next t ∧
      t.yok.unacked = s.yok.unacked.map (fun c => { c with sends := c.sends + 1, sentAt := s.now }) ∧
      t.count (Reg.yokCountLo 5) = s.count (Reg.yokCountLo 5) + s.yok.unacked.length ∧ t.yok.lanes = s.yok.lanes)) ∧
  (∀ s, exec .yokeFreqLocked s = .next (if s.isFollower then { s with yok := { s.yok with locked := true } } else s)) ∧
  (∀ s, (s.isFollower = false ∨ s.yok.locked = false → exec .yokeLockLost s = .next s) ∧
    (s.ctl.mode = .yokeResync → s.yok.locked = true → ∃ t, exec .yokeLockLost s = .next t ∧ t.yok.locked = false ∧ t.ctl = s.ctl ∧
      t.events Ev.yokeLockLost = satAdd (2 ^ 48 - 1) (s.events Ev.yokeLockLost) 1))

/-- A well-formed item of the decision stream counts and takes effect on a follower: an epoch, a classifier, SCI, context, slot, register,
Scheduler, time map or row item does there what it did on the lead; YIELD and HANDOVER set their blocks. A module that follows no lead is
unchanged. (R200, R239, R338, R339, R410, R426, R428 to R430, R445, R448.) -/
def Obligations.DecisionItemsApply : Prop :=
  (∀ b s, s.isFollower = false → ∀ c ∈ [Instr.streamEpoch b, .clsCommit b, .sciCommit b, .ascCommit b, .ascEvent b, .flipItem b, .kvtCommit b, .regWrite b, .schCommit b, .timemap b,
    .rixItem b, .streamYield b, .handoverItem b, .streamVerdict b, .sheafVerdict b, .streamInject b, .streamDiverge b, .streamCopy b, .streamSnap b, .streamMark b], exec c s = .next s) ∧
  (∀ b s, s.ctl.mode = .yokeFollower →
    (itemOk 0x01 12 b = true → s.yok.twinLost = false → s.blockNo ≤ 64 * itemAt b 4 8 + 3 →
      exec (.streamEpoch b) s = .next { s.inc (Reg.yokCountLo 4) with yok := { s.yok with heardAt := s.now, epoch := itemAt b 4 8 } }) ∧
    (itemOk 0x04 40 b = true → itemAt b 4 4 < 262144 → ∃ t, exec (.clsCommit b) s = .next t ∧ t.altAt (itemAt b 4 4) = altOfItem (slice b 8 32) ∧
      (∀ i, i ≠ itemAt b 4 4 → t.altAt i = s.altAt i) ∧ t.yok.repair = (if s.yok.repair = some (itemAt b 4 4) then none else s.yok.repair)) ∧
    (itemOk 0x05 20 b = true → itemAt b 4 4 < 131072 → ∃ t, exec (.sciCommit b) s = .next t ∧ t.sciAt (itemAt b 4 4) = sciOfItem (slice b 8 12) ∧
      ∀ i, i ≠ itemAt b 4 4 → t.sciAt i = s.sciAt i) ∧
    (itemOk 0x06 136 b = true → s.HbmRoom → s.StoreRoom 0 → (itemAt b 6 1 = 2 → ∀ c, c = Ctx.create (slice b 8 128 ++ zeroBytes 384) (itemAt b 7 1 % 2) → c.persist = false →
        ∃ t, exec (.ascCommit b) s = .next t ∧ t.ctx (itemAt b 4 2) = some c ∧ ∀ a, a ≠ itemAt b 4 2 → t.ctx a = s.ctx a) ∧
      (itemAt b 6 1 = 4 → ∀ c, s.ctx (itemAt b 4 2) = some c → ∃ t, exec (.ascCommit b) s = .next t ∧ t.ctx (itemAt b 4 2) = none ∧ ∀ a, a ≠ itemAt b 4 2 → t.ctx a = s.ctx a)) ∧
    (itemOk 0x07 12 b = true → ∀ c, s.ctx (itemAt b 4 2) = some c → itemAt b 6 1 = 5 → ∃ t, exec (.ascEvent b) s = .next t ∧
      t.ctx (itemAt b 4 2) = some { c with txWait := false, txMark := max c.txMark (s.pnRec (itemAt b 4 2)).txMark } ∧ ∀ a, a ≠ itemAt b 4 2 → t.ctx a = s.ctx a) ∧
    (itemOk 0x08 16 b = true → ∀ a c, s.cloakOf (itemAt b 4 2) = some (a, c) → ∀ g, s.groupOfTrib (itemAt b 4 2) = some g → ∃ t, exec (.flipItem b) s = .next t ∧
      t.ctx a = some { c with flipPending := true, flipIndex := itemAt b 6 1 % 4, flipSheaf := itemAt b 8 6 } ∧
      t.rows.pages[g]? = (s.rows.pages[g]?).map (fun x => { x with flip := some (itemAt b 4 2, itemAt b 8 6) }) ∧ ∀ h, h ≠ g → t.rows.pages[h]? = s.rows.pages[h]?) ∧
    (itemOk 0x09 56 b = true → ∀ c, slotOfWord (itemAt b 4 4) = some c → itemAt b 12 1 = 1 → s.StoreRoom 4 → ∃ t, exec (.kvtCommit b) s = .next t ∧
      (∀ key, Config.kwUnwrap (s.keyOf pairKeySlot) (slice b 16 40) = some key → (t.slot c).map (·.key) = some (maskedKey s.storeMask c (slice key 0 (attrBytes (BitVec.ofNat 32 (itemAt b 8 4))))) ∧ t.slotUsable c = true ∧ ∀ d, d ≠ c → t.slot d = s.slot d) ∧
      (Config.kwUnwrap (s.keyOf pairKeySlot) (slice b 16 40) = none → t.ctl.mode = .yokeResync ∧ t.yok.muted = true)) ∧
    (itemOk 0x0A 12 b = true → conveyed (itemAt b 4 4) = true →
      exec (.regWrite b) s = .next ((s.inc (Reg.yokCountLo 4)).regEffect 0 (itemAt b 4 4) (BitVec.ofNat 32 (itemAt b 8 4)))) ∧
    (itemOk 0x0B 24 b = true → itemAt b 4 1 < 3 → exec (.schCommit b) s = .next ((s.inc (Reg.yokCountLo 4)).tblWrite (itemAt b 4 1) (itemAt b 5 3)
      ((List.range 4).map (fun w => BitVec.ofNat 32 (itemAt b (8 + 4 * w) 4))))) ∧
    (itemOk 0x0C 28 b = true → exec (.timemap b) s = .next ((s.inc (Reg.yokCountLo 4)).setChan (itemAt b 4 1) (fun c => { c with maps :=
      ((itemAt b 6 6, (itemAt b 12 6 * 1000000000 + itemAt b 18 4) * 2 ^ 32 + itemAt b 22 2 * 65536, itemAt b 24 4) :: c.maps).take 5 }))) ∧
    (itemOk 0x0D 16 b = true → (itemAt b 4 1 = 1 → itemAt b 5 1 < 8 → (s.pair (itemAt b 5 1)).ahead = [] → ∃ t, exec (.rixItem b) s = .next t ∧ (∀ k, k ≠ itemAt b 5 1 → t.rows.pairs[k]? = s.rows.pairs[k]?) ∧
        (itemAt b 10 6 ≤ s.line.sheaf → (t.rows.pairs[itemAt b 5 1]?).map (fun p => (p.selector, p.bridge, p.sent, p.sentSig, p.ahead)) =
          (s.rows.pairs[itemAt b 5 1]?).map (fun _ => (itemAt b 6 1 / 2 % 2, itemAt b 6 1 % 2, ofBe (slice (slice b 7 3) 0 1) / 16, ofBe (slice (slice b 7 3) 1 1), []))) ∧
        (s.line.sheaf < itemAt b 10 6 → t.rows.pairs[itemAt b 5 1]? = (s.rows.pairs[itemAt b 5 1]?).map (fun p => { p with ahead :=
          [⟨itemAt b 10 6, itemAt b 6 1 / 2 % 2, itemAt b 6 1 % 2, ofBe (slice (slice b 7 3) 0 1) / 16, ofBe (slice (slice b 7 3) 1 1)⟩] }))) ∧
      (itemAt b 4 1 = 2 → (s.gpages (itemAt b 5 1 % 16)).txActive ≠ itemAt b 6 1 % 2 → ∃ t, exec (.rixItem b) s = .next t ∧
        t.rows.pages[itemAt b 5 1 % 16]? = (s.rows.pages[itemAt b 5 1 % 16]?).map (fun p => { p with txSwap := some (itemAt b 10 6) }) ∧
        ∀ k, k ≠ itemAt b 5 1 % 16 → t.rows.pages[k]? = s.rows.pages[k]?)) ∧
    (itemOk 0x10 16 b = true → exec (.streamYield b) s = .next { s.inc (Reg.yokCountLo 4) with yok := { s.yok with bMute := some (itemAt b 4 8) } }) ∧
    (itemOk 0x11 12 b = true → exec (.handoverItem b) s = .next { s.inc (Reg.yokCountLo 4) with yok := { s.yok with bHand := some (itemAt b 4 8) } }))

/-- A record admits the frame it matches; a frame only the follower saw is discarded after 2 × LAG_B. VERDICT and SHEAF_VERDICT make the
follower handle a frame or sheaf as the lead did; INJECT admits the lead's frame; COPY and SNAP install the lead's entries in their steps; a
MARK waits for both stores. (R425, R427, R431 to R435, R438, R449, R450.) -/
def Obligations.FollowerTakesTheLeadsFrames : Prop :=
  (∀ (r : BitVec 48) s, s.ctl.mode = .yokeFollower → r.toNat < 2 ^ 47 → ∀ i, i = r.toNat / 2 ^ 37 % 1024 → s.inputOn i = true → ∀ f rest,
    matchFrame (SMap.get (fun _ => []) s.yok.buffers i) (r.toNat / 2 ^ 23 % 16384) (r.toNat / 2 ^ 7 % 65536) = some ([], f, rest) →
    f.encrypt = true → f.flood = [] → f.assoc ∈ s.asc.cache → s.reserveFor f ≤ s.freeCells true + s.freeSpill →
    ∃ t, exec (.frameRecord r) s = .next t ∧ SMap.get (fun _ => []) t.yok.buffers i = rest ∧ (t.queue f.key).map (fun e => (e.frame, e.assoc)) = (s.queue f.key).map (fun e => (e.frame, e.assoc)) ++ [(s.sch.nextId, f.assoc)] ∧
      (∀ k, k ≠ f.key → t.queue k = s.queue k) ∧ t.sch.nextId = s.sch.nextId + 1 ∧ t.count (Reg.yokCountLo 0) = s.count (Reg.yokCountLo 0) + 1) ∧
  (∀ (i : Fin 544) s, (SMap.get (fun _ => []) s.yok.buffers i = [] → exec (.unmatchedDiscard i) s = .next s) ∧
    ∀ f rest, SMap.get (fun _ => []) s.yok.buffers i = f :: rest → (s.now < f.arrival + 2 * s.lagBlocks * 8 / 25 → exec (.unmatchedDiscard i) s = .next s) ∧
      (f.arrival + 2 * s.lagBlocks * 8 / 25 ≤ s.now → ∃ t, exec (.unmatchedDiscard i) s = .next t ∧ SMap.get (fun _ => []) t.yok.buffers i = rest ∧
      t.sch = s.sch ∧ t.count (Reg.yokCountLo 2) = s.count (Reg.yokCountLo 2) + 1)) ∧
  (∀ b s, s.ctl.mode = .yokeFollower → itemOk 0x02 12 b = true → ∀ f, s.recFrame (itemAt b 4 2) (itemAt b 8 4) = some f → s.frame? f.id = some f → f.encrypt = false → f.verdict = none →
    ∀ c, s.ctx f.assoc = some c → s.leaving f = false → itemAt b 6 1 = 1 ∨ itemAt b 6 1 = 2 → ∃ t, exec (.streamVerdict b) s = .next t ∧ t.frame? f.id = some { f with verdict := some false } ∧
      t.ctx f.assoc = some (c.bump 5 1) ∧ (∀ j, j ≠ f.id → t.frame? j = s.frame? j) ∧ t.events Ev.rxIcvFail = satAdd (2 ^ 48 - 1) (s.events Ev.rxIcvFail) 1) ∧
  (∀ b s, s.ctl.mode = .yokeFollower → itemOk 0x03 16 b = true → ∀ a c, s.cloakOf (itemAt b 4 2) = some (a, c) → SMap.get noneOf s.asc.rxSheaf (itemAt b 4 2) = none → itemAt b 12 1 = 3 →
    ∃ t, exec (.sheafVerdict b) s = .next t ∧ t.ctx a = some (c.bump 14 1) ∧ (∀ j, j ≠ a → t.ctx j = s.ctx j) ∧ t.count (Reg.yokCountLo 3) = s.count (Reg.yokCountLo 3) + 1) ∧
  (∀ b s, s.ctl.mode = .yokeFollower → ∀ n, n = itemAt b 6 2 → itemVar 0x0E b = true → b.length = 12 + n + n % 2 → itemAt b 4 2 % 1024 < 544 → s.ctx 0xFFFF = none →
    ∃ t, exec (.streamInject b) s = .next t ∧ ∃ g, t.frame? s.sch.nextId = some g ∧ g.bytes = slice b 12 n ∧ g.whole = true ∧ g.output = itemAt b 4 2 % 1024 ∧ g.encrypt = true ∧
      t.sch.nextId = s.sch.nextId + 1 ∧ t.free = s.free + 1 ∧ (t.queue g.key).map (fun e => (e.frame, e.assoc)) = (s.queue g.key).map (fun e => (e.frame, e.assoc)) ++ [(s.sch.nextId, 0xFFFF)]) ∧
  (∀ b s, s.ctl.mode = .yokeResync →
    (itemVar 0x12 b = true → s.yok.step = 2 → itemAt b 4 1 = 1 → b.length = 44 → ∃ t, exec (.streamCopy b) s = .next t ∧ t.altAt (itemAt b 8 4) = altOfItem (slice (b.drop 12) 0 32) ∧
      (∀ i, i ≠ itemAt b 8 4 → t.altAt i = s.altAt i) ∧ SMap.get zeroOf t.yok.copied 1 = itemAt b 8 4 + 1) ∧
    (itemVar 0x13 b = true → s.yok.step = 4 → itemAt b 4 1 = 17 → b.length = 28 → ofBe (slice (slice (b.drop 12) 0 16) 0 1) = 1 → ∃ t, exec (.streamSnap b) s = .next t ∧
      t.sch = { s.sch with deficit := SMap.set zeroOf s.sch.deficit (ofBe (slice (slice (b.drop 12) 0 16) 1 3)) (ofBe (slice (slice (b.drop 12) 0 16) 4 12)) }) ∧
    (itemVar 0x12 b = true → s.yok.step ≠ 2 → exec (.streamCopy b) s = .next (s.inc (Reg.yokCountLo 4))) ∧
    (itemVar 0x13 b = true → s.yok.step ≠ 4 → exec (.streamSnap b) s = .next (s.inc (Reg.yokCountLo 4)))) ∧
  (∀ b s, s.isFollower = true → itemOk 0x14 16 b = true → 1 ≤ itemAt b 4 1 → itemAt b 4 1 ≤ 3 → s.StoreRoom 1 → ∃ t, exec (.streamMark b) s = .next t ∧
    t.yok.marks = s.yok.marks ++ [⟨itemAt b 4 1, if itemAt b 4 1 = 3 then 0 else itemAt b 6 2, itemAt b 8 8, false, true⟩])

/-- The lead takes the reverse stream: an acknowledged mark no longer waits for the twin, the twin's defects are kept, an interval whose
digests agree is done, a repair request changes no entry, and the twin's mode is kept. An interval's end counts; a repair that times out
leaves a resyncing twin unclean. (R428, R437 to R439, R441 to R443, R449.) -/
def Obligations.LeadTakesTheReverseStream : Prop :=
  (∀ b s, s.ctl.mode ≠ .yokeLead → ∀ c ∈ [Instr.ackMark b, .streamDefects b, .streamDigest b, .repairReq b, .stateItem b], exec c s = .next s) ∧
  (∀ b s, s.ctl.mode = .yokeLead →
    (itemOk 0x20 16 b = true → (∀ w ∈ s.yok.marks, w.stored = false) → ∃ t, exec (.ackMark b) s = .next t ∧ t.yok.marks = s.yok.marks.map (fun w =>
      if w.kind = itemAt b 4 1 ∧ w.assoc = itemAt b 6 2 ∧ w.mark ≤ itemAt b 8 8 then { w with acked := true } else w)) ∧
    (itemOk 0x21 12 b = true → ∃ t, exec (.streamDefects b) s = .next t ∧ t.rows.twinSf = itemAt b 4 2 ∧ t.rows.twinSd = itemAt b 6 2 ∧ t.rows.pages = s.rows.pages) ∧
    (itemOk 0x22 4558 b = true → ∀ x, s.yok.past.find? (fun x => x.no % 2 ^ 32 == itemAt b 4 4) = some x →
      (∀ e < 560, SMap.get zeroOf x.digest e = itemAt b (78 + 8 * e) 8) → ∃ t, exec (.streamDigest b) s = .next t ∧ t.yok.past = s.yok.past.filter (fun y => y.no != x.no) ∧
      t.regs = s.regs ∧ t.ctl = s.ctl) ∧
    (itemOk 0x23 8 b = true → ∃ t, exec (.repairReq b) s = .next t ∧ (∀ i, t.altAt i = s.altAt i) ∧ t = { s with cls := t.cls, yok := t.yok, cnt := t.cnt, out := t.out }) ∧
    (itemOk 0x24 12 b = true → itemAt b 4 1 = 7 → exec (.stateItem b) s = .next { s.inc (Reg.yokCountLo 4) with yok := { s.yok with twinMode := 7 } }) ∧
    (itemOk 0x24 12 b = true → itemAt b 4 1 ≠ 7 → itemAt b 4 1 ≠ 8 → s.yok.twinLost = false → ∃ t, exec (.stateItem b) s = .next t ∧ t.yok.twinLost = true ∧ t.yok.twinMode = 0 ∧
      t.events Ev.yokeTwinLost = satAdd (2 ^ 48 - 1) (s.events Ev.yokeTwinLost) 1)) ∧
  (∀ s, (s.ctl.mode.isYoke = false → exec .digestIntervalEnd s = .next s) ∧
    (s.ctl.mode = .yokeLead → (∀ x ∈ s.yok.past, s.yok.cur.no ≤ x.no + 4) → ∃ t, exec .digestIntervalEnd s = .next t ∧ t.yok = { s.yok with suspect := s.yok.suspect - 1 } ∧
      t.count (Reg.yokCountLo 6) = s.count (Reg.yokCountLo 6) + 1)) ∧
  (∀ s, (s.isFollower = false ∨ s.yok.repair = none → exec .repairTimeout s = .next s) ∧
    (s.ctl.mode = .yokeResync → s.yok.repair.isSome = true → ∃ t, exec .repairTimeout s = .next t ∧ t.yok = { s.yok with repair := none, clean := 0 } ∧ t.ctl = s.ctl ∧
      t.fld Reg.yokDiverge 15 8 = 6 ∧ t.count (Reg.yokCountLo 8) = s.count (Reg.yokCountLo 8) + 1))

/-- A lead silent for LOSS_US mutes its follower; B_MUTE reached under AUTO_PROMOTE, and an armed PROMOTE under silence, make it lead.
HANDOVER announces a block, at which the lead follows, muted. RESYNC starts Y1 on a muted twin, the cut-in reaches Y4, a time-out ends it,
AUTO_RESYNC restarts it. DIVERGE mutes the twin it names. Undefined OPs end with CODE 7. (R443 to R449; room in the store queue.) -/
def Obligations.TwinsChangeRoles : Prop :=
  (∀ s l, l = s.yok.heardAt + max 1 (s.fld Reg.yokCfg 27 24) * 1000 →
    (s.ctl.mode = .yokeFollower → s.yok.twinLost = false → l ≤ s.now → s.yok.bMute = none ∨ s.flg Reg.yokCfg 16 = false → ∃ t, exec .leadSilent s = .next t ∧ t.yok.twinLost = true ∧ t.yok.muted = true ∧
      t.ctl = s.ctl ∧ t.events Ev.yokeLeadSilent = satAdd (2 ^ 48 - 1) (s.events Ev.yokeLeadSilent) 1) ∧
    (s.ctl.mode ≠ .yokeFollower ∨ s.yok.twinLost = true ∨ s.now < l ∨ (s.yok.bMute.isSome = true ∧ s.flg Reg.yokCfg 16 = true) → exec .leadSilent s = .next s)) ∧
  (∀ s, (s.ctl.mode = .yokeFollower → s.flg Reg.yokCfg 16 = true → ∀ b, s.yok.bMute = some b → b ≤ s.blockNo → s.StoreRoom 1 → ∃ t, exec .promotion s = .next t ∧ t.ctl.mode = .yokeLead ∧
      t.ctl.intake = true ∧ t.yok.muted = false ∧ t.yok.buffers = [] ∧ t.sch.arrivals = s.unmatched ++ s.sch.arrivals ∧ t.events Ev.yokePromoted = satAdd (2 ^ 48 - 1) (s.events Ev.yokePromoted) 1) ∧
    (s.ctl.mode ≠ .yokeFollower ∨ s.flg Reg.yokCfg 16 = false ∨ s.yok.bMute = none → exec .promotion s = .next s)) ∧
  (∀ p s, s.Reaches p Reg.yokCmd → s.yok.cmd = none →
    (s.ctl.mode = .yokeLead → s.yok.lanes = 15 → s.yok.twinMode = 7 → s.yok.twinLost = false → ∃ t, exec (.yokHandover p) s = .next t ∧ t.yok.bHand = some s.handoverBlock ∧
      t.yok.cmd = some 1 ∧ t.ctl = s.ctl) ∧
    (s.ctl.mode = .yokeFollower → s.isArmed 11 = true → s.yok.twinLost = true → s.st.queue.length + s.asc.ctxs.length + 3 ≤ storeCap → ∃ t, exec (.yokPromote p) s = .next t ∧
      t.ctl.mode = .yokeLead ∧ t.ctl.intake = true ∧ t.yok.muted = false ∧ t.sch.queues = [] ∧ t.Ended Reg.yokCmdResult 0) ∧
    (s.isFollower = true → s.yok.muted = true → s.yok.lanes = 15 → s.StoreRoom 1 → ∃ t, exec (.yokResync p) s = .next t ∧ t.ctl.mode = .yokeResync ∧ t.yok.step = 1 ∧ t.yok.muted = true ∧
      t.sch.queues = [] ∧ t.Ended Reg.yokCmdResult 0) ∧
    (∀ n ok, (n, ok) ∈ [(2, decide (s.ctl.mode ≠ .yokeLead)), (4, decide (s.ctl.mode = .yokeLead ∧ s.yok.lanes ≠ 15))] → ok = true → ∃ t, exec (.yokHandover p) s = .next t ∧ t.Ended Reg.yokCmdResult n ∧ t.yok = s.yok) ∧
    (∀ n ok, (n, ok) ∈ [(2, decide (s.ctl.mode ≠ .yokeFollower)), (3, decide (s.ctl.mode = .yokeFollower ∧ s.isArmed 11 = false))] → ok = true → ∃ t, exec (.yokPromote p) s = .next t ∧ t.Ended Reg.yokCmdResult n ∧ t.yok = s.yok) ∧
    (∀ op : Fin 16, 4 ≤ op.val → ∃ t, exec (.yokCmdUnknown p op) s = .next t ∧ t.Ended Reg.yokCmdResult 7 ∧ t.yok = s.yok ∧ t.ctl = s.ctl)) ∧
  (∀ s b, s.yok.bHand = some b → (s.blockNo < b → exec .handoverTakeEffect s = .next s) ∧
    (b ≤ s.blockNo → s.ctl.mode = .yokeLead → s.yok.marks = [] → s.StoreRoom 1 → ∃ t, exec .handoverTakeEffect s = .next t ∧ t.ctl.mode = .yokeFollower ∧ t.yok.muted = true ∧ t.yok.locked = false ∧
      t.yok.bHand = none ∧ t.yok.cmd = none ∧ t.Ended Reg.yokCmdResult 0)) ∧
  (∀ s, s.ctl.mode = .yokeResync → (s.yok.step = 2 → ∃ t, exec .resyncCutIn s = .next t ∧ t.yok.step = 4 ∧ t.ctl = s.ctl) ∧
    (0 < s.yok.step → s.yok.resyncAt + s.resyncLimit ≤ s.now → ∃ t, exec .resyncTimeout s = .next t ∧ t.yok.step = 0 ∧ t.ctl = s.ctl ∧ t.events Ev.yokeResyncFail = satAdd (2 ^ 48 - 1) (s.events Ev.yokeResyncFail) 1) ∧
    (s.yok.step = 0 → s.flg Reg.yokCfg 17 = true → s.yok.resyncAt + 1000000000 ≤ s.now → s.StoreRoom 1 → ∃ t, exec .resyncRestart s = .next t ∧ t.yok.step = 1 ∧ t.yok.muted = true ∧ t.sch.queues = [] ∧
      t.count (Reg.yokCountLo 10) = s.count (Reg.yokCountLo 10) + 1)) ∧
  (∀ s, (s.ctl.mode ≠ .yokeResync ∨ s.yok.step = 0 ∨ s.now < s.yok.resyncAt + s.resyncLimit → exec .resyncTimeout s = .next s) ∧
    (s.ctl.mode ≠ .yokeResync ∨ 0 < s.yok.step ∨ s.flg Reg.yokCfg 17 = false ∨ s.now < s.yok.resyncAt + 1000000000 → exec .resyncRestart s = .next s)) ∧
  (∀ b s, s.ctl.mode = .yokeFollower → itemOk 0x0F 12 b = true → s.StoreRoom 1 → ∃ t, exec (.streamDiverge b) s = .next t ∧ t.yok.clean = 0 ∧
    t.count (Reg.yokCountLo 8) = s.count (Reg.yokCountLo 8) + 1 ∧
    (itemAt b 11 1 = 1 → t.ctl = s.ctl ∧ t.yok = { s.yok with clean := 0 }) ∧ (itemAt b 11 1 ≠ 1 → t.ctl.mode = .yokeResync ∧ t.yok.muted = true ∧ t.ctl.intake = false))

/-- SET, STEP, SLEW and STOP of a channel that the window may command act on it alone and end with CODE 0; an undefined OP ends with CODE 5,
a channel of another owner with CODE 2, each with TIM_WRITE_REFUSED and no effect. SLEW_DONE adds what a slew has left if that falls within
the present ns; FREQ is clamped; a change of PARENT keeps the channel's value. (R454, R455, R457 to R460; a module that is not a follower.)
A pulse of at least 100 ns starts each stopped disciplined channel with its second; an edge that does not come counts, and the third in a
row takes a locked channel to holdover. A sound, valid and timely ToD message is kept for the next edge, any other is counted. PPS_OUT rises
with its width, 200 ms later TOD_OUT sends the message. (R454, R462 to R465.) -/
def Obligations.TimeIsSteeredAndAnnounced : Prop :=
  (∀ p (c : Fin 16) s n, s.Takes p (Reg.timChCmd c) → n = p.allot → s.mayTime n c = true → s.isFollower = false → s.ctl.mode ≠ .sentry →
    (∀ v, v = s.setArg n c → s.disciplined c = false → s.timArg n c 2 + s.timArg n c 3 % 65536 * 2 ^ 32 < 2 ^ 34 → ∃ t, exec (.channelSet p c) s = .next t ∧
      t.tim.chans[c.val]? = (s.tim.chans[c.val]?).map (fun x => if c.val < 12 then { x with value := v % chanWrap, slew := 0, st := if x.st = .stopped then .running else x.st }
        else { x with offO := (v : Int) - (s.chan (s.chan c).parent).value, offA := (s.chan (s.chan c).parent).value, slew := 0, st := if x.st = .stopped then .running else x.st }) ∧
      (∀ d, d ≠ c.val → t.tim.chans[d]? = s.tim.chans[d]?) ∧ t.Ended (privKey n (Reg.timChResult c)) 0 ∧ t.events Ev.timeSet = satAdd (2 ^ 48 - 1) (s.events Ev.timeSet) 1) ∧
    (s.steerable c = true → (∃ t, exec (.channelStep p c) s = .next t ∧ t.tim.chans[c.val]? = (s.tim.chans[c.val]?).map (fun x => if x.st = .stopped then x
        else if c.val < 12 then { x with value := (((x.value : Int) + s.offsetArg n c) % chanWrap).toNat, slew := 0 } else { x with offO := x.offO + s.offsetArg n c, slew := 0 }) ∧
        (∀ d, d ≠ c.val → t.tim.chans[d]? = s.tim.chans[d]?) ∧ t.Ended (privKey n (Reg.timChResult c)) 0) ∧
      ∃ t, exec (.channelSlew p c) s = .next t ∧ t.tim.chans[c.val]? = (s.tim.chans[c.val]?).map (fun x => if x.st = .stopped then x else { x with slew := s.offsetArg n c }) ∧
        (∀ d, d ≠ c.val → t.tim.chans[d]? = s.tim.chans[d]?) ∧ t.Ended (privKey n (Reg.timChResult c)) 0) ∧
    (∃ t, exec (.channelStop p c) s = .next t ∧ t.tim.chans[c.val]? = (s.tim.chans[c.val]?).map (fun x =>
        { x with st := .stopped, value := 0, offO := 0, offA := 0, slew := 0, good := 0, missed := 0, todSeen := false, mapC := none }) ∧
      (∀ d, d ≠ c.val → t.tim.chans[d]? = s.tim.chans[d]?) ∧ t.Ended (privKey n (Reg.timChResult c)) 0 ∧ t.events Ev.timeSet = satAdd (2 ^ 48 - 1) (s.events Ev.timeSet) 1) ∧
    (∀ op : Fin 8, 5 ≤ op.val → ∃ t, exec (.timCmdUnknown p c op) s = .next t ∧ t.tim = s.tim ∧ t.Ended (privKey n (Reg.timChResult c)) 5 ∧
      t.events Ev.timWriteRefused = satAdd (2 ^ 48 - 1) (s.events Ev.timWriteRefused) 1)) ∧
  (∀ p (c : Fin 16) s, s.Takes p (Reg.timChCmd c) → s.mayTime p.allot c = false → s.ctl.mode ≠ .sentry →
    ∀ i ∈ [Instr.channelSet p c, .channelStep p c, .channelSlew p c, .channelStop p c, .timCmdUnknown p c 5], ∃ t, exec i s = .next t ∧ t.tim = s.tim ∧
      t.Ended (privKey p.allot (Reg.timChResult c)) 2 ∧ t.events Ev.timWriteRefused = satAdd (2 ^ 48 - 1) (s.events Ev.timWriteRefused) 1) ∧
  (∀ (c : Fin 16) s, ∃ t, exec (.slewDone c) s = .next t ∧ t = { s with tim := { s.tim with chans := t.tim.chans } } ∧ (∀ d, d ≠ c.val → t.tim.chans[d]? = s.tim.chans[d]?) ∧
    t.tim.chans[c.val]? = (s.tim.chans[c.val]?).map (fun x => if x.st = .stopped then { x with slew := 0 } else if x.slewPart 1 ≠ x.slew then x
      else if c.val < 12 then { x with value := (((x.value : Int) + x.slew) % chanWrap).toNat, slew := 0 } else { x with offO := x.offO + x.slew, slew := 0 })) ∧
  (∀ p (c : Fin 16) v s, s.Takes p (Reg.timChAdj c) → s.mayTime p.allot c = true → s.isFollower = false → s.steerable c = true → ∃ t, exec (.freqWrite p c v) s = .next t ∧
    (∀ d, d ≠ c.val → t.tim.chans[d]? = s.tim.chans[d]?) ∧ (t.tim.chans[c.val]?).map (·.freq) = (s.tim.chans[c.val]?).map (fun _ => max (-1099511628) (min 1099511628 v.toInt)) ∧
    t = { s with tim := { s.tim with chans := t.tim.chans }, armed := t.armed }) ∧
  (∀ p (c : Fin 16) v s, s.Takes p (Reg.timChCtrl c) → s.mayTime p.allot c = true → s.tim.chans.length = 16 → ∃ t, exec (.parentWrite p c v) s = .next t ∧
    (t.chan c).slewPpm = clamp 1 1000 (bits v 15 6) ∧ (∀ d, d ≠ c.val → t.tim.chans[d]? = s.tim.chans[d]?) ∧ (12 ≤ c.val → (t.chan c).parent = parentOf v) ∧
    ((s.chan c).st ≠ .stopped → t.chanValue c = s.chanValue c)) ∧
  (∀ w (e : Fin 8) s, (w < 100 → exec (.ppsInEdge w e) s = .next s) ∧
    (100 ≤ w → s.tim.todPending = none → ∃ t, exec (.ppsInEdge w e) s = .next t ∧ (∀ c, s.disciplined c = false → t.tim.chans[c]? = s.tim.chans[c]?) ∧
      ∀ c, s.disciplined c = true → (s.chan c).st = .stopped → t.tim.chans[c]? = (s.tim.chans[c]?).map (fun x => { x with
        st := .acquiring, freq := 0, slew := 0, good := 1, missed := 0
        value := ((((e.val * 2 ^ 37 : Nat) : Int) + signed16 (s.fld Reg.timPpsDelay 15 0) * 2 ^ 40) % chanWrap).toNat }))) ∧
  (∀ s, ∃ t, exec .ppsEdgeMissed s = .next t ∧ t.tim.lastPps = s.tim.lastPps ∧ (∀ c, s.disciplined c = false → t.tim.chans[c]? = s.tim.chans[c]?) ∧
    ∀ c, s.disciplined c = true → t.tim.chans[c]? = (s.tim.chans[c]?).map (fun x => if x.st = .acquiring then { x with good := 0 } else if x.st ≠ .locked then x
      else if x.missed < 2 then { x with missed := x.missed + 1 } else { x with st := .holdover, missed := 0, good := 0 })) ∧
  (∀ s q, s.tim.lastPps = some q → ∀ m ago,
    (m.length = 16 → ofBe (slice m 0 3) = 0x535401 → ofBe (slice m 14 2) = crc16 (slice m 0 14) → (ofBe (slice m 3 1)).testBit 7 = true → q + 10000000 ≤ s.now - ago → s.now - ago ≤ q + 900000000 →
      ∃ t, exec (.todMessage m ago) s = .next t ∧ t.tim.todPending = some (ofBe (slice m 4 6)) ∧ t.count (Reg.timCountLo 5) = s.count (Reg.timCountLo 5) + 1 ∧
        (∀ w < 4, t.rd (Reg.timTodRx w) = BitVec.ofNat 32 (ofBe (slice m (4 * w) 4)))) ∧
    (m.length ≠ 16 ∨ ofBe (slice m 14 2) ≠ crc16 (slice m 0 14) ∨ s.now - ago < q + 10000000 ∨ q + 900000000 < s.now - ago → exec (.todMessage m ago) s = .next (s.inc (Reg.timCountLo 6)))) ∧
  (∀ c s, s.ppsChannel = some c →
    (s.flg Reg.timCfg 29 = true → s.atPpsOut c = true → exec .ppsOutEdge s = .next ({ s with tim := { s.tim with
      ppsRise := some s.now, ppsFall := some (s.now + clamp 1 500 (s.fld Reg.timPpsCfg 24 16) * 1000000) } }.emit (.ppsOut true))) ∧
    (s.flg Reg.timCfg 28 = true → s.atTodOut = true → exec .todOutSend s = .next ({ s with tim := { s.tim with ppsRise := none } }.emit
      (.todOut (if s.flg Reg.timCfg 27 = true then 9600 else 115200) (s.todMessage c)))) ∧
    (s.flg Reg.timCfg 29 = false ∨ s.atPpsOut c = false → exec .ppsOutEdge s = .next s) ∧ (s.flg Reg.timCfg 28 = false ∨ s.atTodOut = false → exec .todOutSend s = .next s)) ∧
  (∀ s, s.ppsChannel = none → exec .ppsOutEdge s = .next s ∧ exec .todOutSend s = .next s)

/-- A detection fills the filter by one, or opens a new window where the filter is empty or its window over. Below COUNT it raises nothing;
one that reaches COUNT empties the filter, trips a sensor that was not tripped and counts its alarm; a tripped sensor raises no further
alarm. A window that closes empties the filter; an absence of 1 s ends the trip; before that neither changes anything. (R484, R485, R486;
the alarm is stated for a level of 0 or 1, whose response is a record only; an open window keeps the WINDOW_MS of its opening, log entry
116.) A request on HEDGE_ZERO_N erases every root, puts a live module into Zeroized with sensor 11 named, and erases the evidence log key;
on the cell it sets ZEROIZED and clamps the roots. (R481, R491, R493, R494, R106, T21; with LEVEL 5 and COUNT 1 of sensor 11, as the spec
fixes them.) -/
def Obligations.SensorsTripAndZeroPinErases : Prop :=
  (∀ (k : Fin 16) m mv s n, n = (if (s.sensor k).fill = 0 ∨ (s.sensor k).closesAt ≤ s.now then 1 else (s.sensor k).fill + 1) → s.sensed k = true → (k : Nat) < s.hdg.sensors.length →
    (n < s.sensorCount k → ∃ t, exec (.sensorDetection k m mv) s = .next t ∧ (t.sensor k).fill = n ∧ (t.sensor k).raw = true ∧ (t.sensor k).clearAt = s.now + 1000000000 ∧
      (t.sensor k).closesAt = (if (s.sensor k).fill = 0 ∨ (s.sensor k).closesAt ≤ s.now then s.now + (s.rd (Reg.hdgSensorWin k)).toNat * 1000000 else (s.sensor k).closesAt) ∧
      (t.sensor k).tripped = (s.sensor k).tripped ∧ t.ctl = s.ctl ∧ t.led = s.led ∧ (∀ j : Fin 16, j ≠ k → t.sensor j = s.sensor j)) ∧
    (s.sensorCount k ≤ n → (s.sensor k).tripped = true → ∃ t, exec (.sensorDetection k m mv) s = .next t ∧ (t.sensor k).fill = 0 ∧ t.ctl = s.ctl ∧
      t.led = s.led ∧ (t.sensor k).alarms = (s.sensor k).alarms) ∧
    (s.sensorCount k ≤ n → (s.sensor k).tripped = false → s.hdg.live = true → s.sensorLevel k ≤ 1 → s.ctl.mode ≠ .sentry →
      ∃ t, exec (.sensorDetection k m mv) s = .next t ∧ (t.sensor k).fill = 0 ∧ (t.sensor k).tripped = true ∧
      (t.sensor k).alarms = satAdd 65535 (s.sensor k).alarms 1 ∧
      t.events Ev.hedgeAlarm = satAdd (2 ^ 48 - 1) (s.events Ev.hedgeAlarm) 1 ∧ t.ctl = s.ctl)) ∧
  (∀ (k : Fin 16) present s, (k : Nat) < s.hdg.sensors.length →
    ((s.sensor k).fill = 0 ∨ s.now < (s.sensor k).closesAt → exec (.sensorWindowClose k present) s = .next s) ∧
    ((s.sensor k).fill ≠ 0 → (s.sensor k).closesAt ≤ s.now → ∃ t, exec (.sensorWindowClose k present) s = .next t ∧
      t.sensor k = { s.sensor k with fill := 0, raw := present } ∧ (∀ j : Fin 16, j ≠ k → t.sensor j = s.sensor j) ∧
      t = { s with hdg := { s.hdg with sensors := t.hdg.sensors } })) ∧
  (∀ (k : Fin 16) s, (k : Nat) < s.hdg.sensors.length →
    ((s.sensor k).tripped = false ∨ s.now < (s.sensor k).clearAt → exec (.sensorTripClear k) s = .next s) ∧
    ((s.sensor k).tripped = true → (s.sensor k).clearAt ≤ s.now → ∃ t, exec (.sensorTripClear k) s = .next t ∧
      t.sensor k = { s.sensor k with tripped := false, raw := false } ∧ (∀ j : Fin 16, j ≠ k → t.sensor j = s.sensor j) ∧
      t = { s with hdg := { s.hdg with sensors := t.hdg.sensors, rootCheckOk := if k.val = 12 then true else s.hdg.rootCheckOk } })) ∧
  (∀ mv s, s.hdg.live = true → s.ctl.mode ≠ .sentry → s.sensorCount 11 = 1 → s.sensorLevel 11 = 5 → (s.sensor 11).tripped = false →
    ∃ t, exec (.zeroPinRequest mv) s = .next t ∧ t.ctl.mode = .zeroized ∧ t.hdg.roots = List.replicate 4 none ∧
      t.hdg.pendingRoot = none ∧ t.hdg.zeroized = true ∧ t.hdg.evidKey = none ∧ t.hdg.zeroizedBy = 11 ∧ t.ctl.halted = true) ∧
  (∀ mv s, s.hdg.live = false → s.sensorCount 11 = 1 → s.sensorLevel 11 = 5 → (s.sensor 11).tripped = false →
    ∃ t, exec (.zeroPinRequest mv) s = .next t ∧ t.hdg.roots = List.replicate 4 none ∧ t.hdg.pendingRoot = none ∧
      t.hdg.zeroized = true ∧ .eraseLine ∈ t.out ∧ t.ctl = s.ctl ∧ t.hdg.loadedMv = min mv 4095)

/-- A sensor's configuration is written only within its effective floor, while it is not locked: a value below it leaves the register and
raises STRUCTURE_BOUND, a locked write leaves it and raises LOCK_WRITE_IGNORED; sensors 11 to 15 ignore writes. (R487, R488, R63, R12.) -/
def Obligations.SensorFloorsBindWrites : Prop :=
  ∀ p (k : Fin 16) win v s, s.Reaches p (if win then Reg.hdgSensorWin k else Reg.hdgSensorCfg k) →
    (k.val < 11 → s.flg Reg.hdgCfg 31 = false → s.cfgAllowed k win v = true → ∃ t, exec (.sensorCfgWrite p k win v) s = .next t ∧
      t.rd (if win then Reg.hdgSensorWin k else Reg.hdgSensorCfg k) = (if win then v else v &&& 0x7FFFF#32) ∧
      (∀ x, x ≠ (if win then Reg.hdgSensorWin k else Reg.hdgSensorCfg k) → t.rd x = s.rd x) ∧ t.led = s.led) ∧
    (k.val < 11 → s.flg Reg.hdgCfg 31 = false → s.cfgAllowed k win v = false → ∃ t, exec (.sensorCfgWrite p k win v) s = .next t ∧
      t.rd (if win then Reg.hdgSensorWin k else Reg.hdgSensorCfg k) = s.rd (if win then Reg.hdgSensorWin k else Reg.hdgSensorCfg k) ∧
      t.events Ev.structureBound = satAdd (2 ^ 48 - 1) (s.events Ev.structureBound) 1) ∧
    (k.val < 11 → s.flg Reg.hdgCfg 31 = true → ∃ t, exec (.sensorCfgWrite p k win v) s = .next t ∧
      t.rd (if win then Reg.hdgSensorWin k else Reg.hdgSensorCfg k) = s.rd (if win then Reg.hdgSensorWin k else Reg.hdgSensorCfg k) ∧
      t.events Ev.lockWriteIgnored = satAdd (2 ^ 48 - 1) (s.events Ev.lockWriteIgnored) 1) ∧
    (11 ≤ k.val → ∃ t, exec (.sensorCfgWrite p k win v) s = .next t ∧ t = { s with armed := t.armed })

/-- The reserve test keeps the measured voltage and sets RESERVE_OK exactly at 2.50 V and above; it runs on the cell only. A root refresh
toggles the polarity in which the roots are held and nothing else. An exhausted cell loses the Hedge state, the roots and the latch
together, on the cell only. (R480, R495, R505.) A write to HDG_LOG_INDEX copies the whole record at that index into the 32 words of
HDG_LOG_DATA with VALID 1; an index at or above NEXT, or not yet appended, gives VALID 0 and zero data. (R504.) -/
def Obligations.CellServicesAndEvidence : Prop :=
  (∀ mv s, s.hdg.live = false → ∃ t, exec (.reserveTest mv) s = .next t ∧ (t.hdg.reserveOk = true ↔ 2500 ≤ mv) ∧
    t.hdg.loadedMv = min mv 4095 ∧ t = { s with hdg := { s.hdg with reserveOk := t.hdg.reserveOk, loadedMv := t.hdg.loadedMv } }) ∧
  (∀ s, exec .rootRefresh s = .next { s with hdg := { s.hdg with rootPolarity := !s.hdg.rootPolarity } }) ∧
  (∀ s, s.hdg.live = false → ∃ t, exec .cellExhausted s = .next t ∧ t.hdg.roots = List.replicate 4 none ∧ t.hdg.pendingRoot = none ∧
    t.hdg.zeroized = false ∧ t.hdg.latch = none ∧ t.hdg.pend = [] ∧ t.hdg.evidKey = none ∧ t.hdg.log = s.hdg.log ∧
    t.hdg.next = s.hdg.next ∧ t = { s with hdg := t.hdg, free := t.free }) ∧
  (∀ mv s, s.hdg.live = true → exec (.reserveTest mv) s = .next s ∧ exec .cellExhausted s = .next s) ∧
  (∀ p v s, s.Reaches p Reg.hdgLogIndex →
    (∀ r, SMap.get noneOf s.hdg.log (bits v 12 0) = some r → bits v 12 0 < s.hdg.next →
      ∃ t, exec (.hdgLogIndexWrite p v) s = .next t ∧ t.flg Reg.hdgLogIndex 31 = true ∧ t.fld Reg.hdgLogIndex 12 0 = bits v 12 0 ∧
        (∀ w < 32, t.rd (Reg.hdgLogData w) = BitVec.ofNat 32 (ofBe (slice r.bytes (4 * w) 4))) ∧ t.hdg = s.hdg) ∧
    (s.hdg.next ≤ bits v 12 0 ∨ SMap.get noneOf s.hdg.log (bits v 12 0) = none →
      ∃ t, exec (.hdgLogIndexWrite p v) s = .next t ∧ t.flg Reg.hdgLogIndex 31 = false ∧ t.fld Reg.hdgLogIndex 12 0 = bits v 12 0 ∧
        (∀ w < 32, t.rd (Reg.hdgLogData w) = 0) ∧ t.hdg = s.hdg))

/-- A doorbell gives a ring its host index, or disables the ring with RING_ERROR where R515 refuses the index. A ring command takes a
descriptor and completes with one record: a unit that has no ring commands with 0xF0 or 0xF1, TIM's STOP by stopping its channel. A valid
inject descriptor gives the frame to its direct FIFO, an invalid one completes with 3, a forbidden output with 4. A receive buffer waits for
punts and takes the oldest one. USEC after the first unsignalled record, not before, a coalescing time-out fires its vector, or leaves it
pending where masked. DMA writes of payload carry the PASID and the Relaxed Ordering of R509 and R513. (R515, R517 to R524, R527; what a
ring command of another unit does is that unit's command.) -/
def Obligations.RingsTakeDescriptors : Prop :=
  (∀ p n, n = p.allot → ∀ (r : Fin 16) (i : BitVec 16) s, s.Takes p Reg.hifDoorbell → r.val < 13 → s.ringExists r = true → s.ringOn n r = true →
    (s.doorbellOk n r i.toNat = true → ∃ t, exec (.doorbell p r i) s = .next t ∧ t.ringH n r = i.toNat ∧ (∀ m q, m * 16 + q ≠ n * 16 + r.val → t.ringH m q = s.ringH m q) ∧
      t.count (Reg.hifCountLo 0) = s.count (Reg.hifCountLo 0) + 1 ∧ t = { s with hif := { s.hif with ringHost := t.hif.ringHost }, cnt := t.cnt, armed := t.armed }) ∧
    (s.doorbellOk n r i.toNat = false → ∃ t, exec (.doorbell p r i) s = .next t ∧ t.ringOn n r = false ∧ t.hif.ringHost = s.hif.ringHost ∧
      t.events Ev.ringError = satAdd (2 ^ 48 - 1) (s.events Ev.ringError) 1)) ∧
  (∀ desc d, d = CmdDesc.of desc → ∀ (n : Fin 64) input f w s, s.ringReady n = true → (d.unit = 2 → n.val ≠ 0) →
    (d.unit ∉ [5, 6, 8, 10, 12] → ∃ t, exec (.commandDescriptor n desc input f w) s = .next t ∧ s.Completes t n d.tag (if d.unit = 2 then 0xF1 else 0xF0) d.unit 0 0 (s.ringM n 0) 0 ∧
      t.ringM n 0 = (s.ringM n 0 + 1) % 65536 ∧ t.count (Reg.hifCountLo 1) = s.count (Reg.hifCountLo 1) + 1 ∧ t = { s with hif := t.hif, cnt := t.cnt, out := t.out }) ∧
    (∀ c, c = (d.word 0).toNat % 16 → d.unit = 12 → d.op = 4 → d.inLen = 0 → s.unitResponds 12 = true → s.mayTime n c = true → s.isFollower = false →
      ∃ t, exec (.commandDescriptor n desc input f w) s = .next t ∧ t.ringM n 0 = (s.ringM n 0 + 1) % 65536 ∧ s.Completes t n d.tag 0 12 0 0 (s.ringM n 0) 0 ∧
        (t.tim.chans[c]?).map (fun x => (x.st, x.value)) = (s.tim.chans[c]?).map (fun _ => (.stopped, 0)) ∧ (∀ e, e ≠ c → t.tim.chans[e]? = s.tim.chans[e]?) ∧
        t.Ended (privKey n (Reg.timChResult c)) 0 ∧ t.kvt = s.kvt ∧ t.asc = s.asc)) ∧
  (∀ (n : Fin 64) desc input f w s, s.ringReady n = false → exec (.commandDescriptor n desc input f w) s = .next s) ∧
  (∀ desc d, d = InjDesc.of desc → ∀ (n : Fin 64) frame s, s.mayFetch n 9 = true → s.ctl.mode ≠ .recovery →
    (∀ f, s.injValid desc = false → ∃ t, exec (.injectDescriptor n desc frame f) s = .next t ∧ s.Completes t n d.tag 3 0xFF 0 0 (s.ringM n 9) 9 ∧ t.sch = s.sch) ∧
    (∀ f, s.injValid desc = true → s.mayInject n d.output = false ∨ s.isFollower = true → ∃ t, exec (.injectDescriptor n desc frame f) s = .next t ∧
      s.Completes t n d.tag 4 0xFF 0 0 (s.ringM n 9) 9 ∧ t.sch = s.sch) ∧
    (s.injValid desc = true → s.mayInject n d.output = true → s.isFollower = false →
      (∃ t, exec (.injectDescriptor n desc frame false) s = .next t ∧ s.Completes t n d.tag 7 0xFF 0 0 (s.ringM n 9) 9 ∧ t.sch = s.sch) ∧
      ∃ t, exec (.injectDescriptor n desc frame true) s = .next t ∧ ∃ f, t.sch.arrivals = s.sch.arrivals ++ [f] ∧ t.sch = { s.sch with arrivals := t.sch.arrivals } ∧ t.ringM n 9 = (s.ringM n 9 + 1) % 65536 ∧
        f.bytes = slice frame 0 (d.len - 4) ++ fcsOf (slice frame 0 (d.len - 4)) ∧ f.output = d.output ∧ f.cls = d.cls ∧ f.direct = true ∧
        f.launch = (if d.launch then some d.launchAt else none) ∧ f.inject = some ⟨n, s.ringM n 9, d.tag, d.oneStep, d.twoStep⟩)) ∧
  (∀ entry l, l = leAt entry 8 4 → ∀ (n : Fin 64) s, s.hif.linkUp = true → s.ringOn n 10 = true → s.allotState n = .running → s.ringWaiting n 10 ≠ 0 → 256 ≤ l → l ≤ 16384 → l % 64 = 0 →
    ((∀ x ∈ s.asc.punts, x.1 ≠ n.val) → ∃ t, exec (.puntDelivery n entry) s = .next t ∧ t.ringM n 10 = (s.ringM n 10 + 1) % 65536 ∧
      SMap.get (fun _ => []) t.hif.bufs n = SMap.get (fun _ => []) s.hif.bufs n ++ [(leAt entry 0 8, l, leAt entry 12 4, s.ringM n 10)] ∧ t = { s with hif := t.hif }) ∧
    (∀ x, s.asc.punts = [(n.val, x)] → SMap.get (fun _ => []) s.hif.bufs n = [] → s.ringOn n 11 = true → ∃ t, exec (.puntDelivery n entry) s = .next t ∧
      .hostWrite (s.dmaTag n true) (leAt entry 0 8) (x.2.take l) ∈ t.out ∧ s.Completes t n (leAt entry 12 4) (if l < x.2.length then 8 else 0) 0xFF x.1 x.2.length (s.ringM n 10) 10 ∧
      t.asc = { s.asc with punts := [] })) ∧
  (∀ (n : Fin 64) (v : Fin 2) k, k = n.val * 2 + v.val → ∀ s d, d = SMap.get zeroOf s.hif.unsigAt k + s.fld (privKey n Reg.hifIrqCfg) 9 0 * 1000 →
    (SMap.get zeroOf s.hif.unsig k = 0 ∨ s.now < d → exec (.irqCoalesceTimer n v) s = .next s) ∧
    (SMap.get zeroOf s.hif.unsig k ≠ 0 → d ≤ s.now → ∃ t, exec (.irqCoalesceTimer n v) s = .next t ∧ SMap.get zeroOf t.hif.unsig k = 0 ∧ t = { s with hif := t.hif, out := t.out } ∧
      if s.vectorMasked (32 * n + v) = true then 32 * n.val + v.val ∈ t.hif.pba ∧ t.out = s.out else t.out = s.out ++ [.msix (32 * n + v)] ∧ t.hif.pba = s.hif.pba))

/-- A reset of an allotment with nothing under way erases its slots and leaves it idle with its rings cleared; FREEZE leaves it frozen, THAW
running or idle. A freeze that has not ended in time ends with CODE 5 and DRAIN_TIMEOUT. The codes of HIF_ALLOT_CMD: 1 busy, 6 an unknown
OP, 2 allotment 0 or absent, 4 in a Yoke mode, 3 another STATE. HIF_ALLOT_CTRL takes a PASID that is free while no ring is on. (R409, R513,
R528, R529, R531, R575; a module in a mode that answers no loss of service, a store queue with room.) -/
def Obligations.AllotmentsResetAndFreeze : Prop :=
  (∀ p (n : Fin 64) s, s.Reaches p Reg.hifAllotCmd → s.hif.cmd = none → n.val ≠ 0 → s.allotExists n = true → s.Quiet n →
    (s.Calm → s.WipeRoom → s.allotState n = .idle ∨ s.allotState n = .running ∨ s.allotState n = .frozen → ∀ i ∈ [Instr.resetDrain p n, .resetSquash p n],
      ∃ t, exec i s = .next t ∧ s.WasReset t n ∧ t.asc = s.asc ∧ t.boot = s.boot ∧ ∀ m, m ≠ n.val → m < 64 → t.allotState m = s.allotState m) ∧
    (s.ctl.mode.isYoke = false → s.allotState n = .idle ∨ s.allotState n = .running → ∃ t, exec (.allotFreeze p n) s = .next t ∧ t.allotState n = .frozen ∧
      (∀ m, m ≠ n.val → t.allotState m = s.allotState m) ∧ t.Ended Reg.hifAllotResult 0 ∧ t.kvt = s.kvt ∧ t.sch = s.sch ∧ t.asc = s.asc ∧
      t.events Ev.allotFrozen = satAdd (2 ^ 48 - 1) (s.events Ev.allotFrozen) 1) ∧
    (s.ctl.mode.isYoke = false → s.allotState n = .frozen → ∃ t, exec (.allotThaw p n) s = .next t ∧
      t.allotState n = (if (List.range 13).any (fun r => s.ringOn n r) then .running else .idle) ∧ t.held = s.held ∧
      (∀ m, m ≠ n.val → t.allotState m = s.allotState m) ∧ t.Ended Reg.hifAllotResult 0 ∧ t.kvt = s.kvt ∧ t.sch = s.sch ∧ t.asc = s.asc ∧
      t.events Ev.allotThawed = satAdd (2 ^ 48 - 1) (s.events Ev.allotThawed) 1)) ∧
  (∀ p (n : Fin 64) s, s.Reaches p Reg.hifAllotCmd → ∀ i k, (i, k) ∈ [(Instr.resetDrain p n, 1), (.resetSquash p n, 2), (.allotFreeze p n, 3), (.allotThaw p n, 4)] →
    ∃ t, exec i s = .next t ∧ ((s.hif.cmd.isSome = true → t.Ended Reg.hifAllotResult 1 ∧ t = { s with regs := t.regs, armed := t.armed }) ∧
      (s.hif.cmd = none → n.val = 0 ∨ s.allotExists n = false → t.Ended Reg.hifAllotResult 2 ∧ t = { s with regs := t.regs, armed := t.armed }) ∧
      (s.hif.cmd = none → n.val ≠ 0 → s.allotExists n = true → 3 ≤ k → s.ctl.mode.isYoke = true → t.Ended Reg.hifAllotResult 4 ∧ t = { s with regs := t.regs, armed := t.armed }) ∧
      (s.hif.cmd = none → n.val ≠ 0 → s.allotExists n = true → s.ctl.mode.isYoke = false → s.allotState n = .resetting ∨ (k = 3 ∧ s.allotState n = .frozen) ∨ (k = 4 ∧ s.allotState n ≠ .frozen) →
        t.Ended Reg.hifAllotResult 3 ∧ t = { s with regs := t.regs, armed := t.armed }))) ∧
  (∀ p (n : Fin 64) (op : Fin 16) s, s.Reaches p Reg.hifAllotCmd → s.hif.cmd = none → (op.val = 0 ∨ 4 < op.val → ∃ t, exec (.allotCmdUnknown p op n) s = .next t ∧
      t.Ended Reg.hifAllotResult 6 ∧ t = { s with regs := t.regs, armed := t.armed }) ∧ (1 ≤ op.val → op.val ≤ 4 → exec (.allotCmdUnknown p op n) s = .next s)) ∧
  (∀ p n, n = p.allot → ∀ q s, s.Takes p Reg.hifAllotState → n ≠ 0 → s.Quiet n → s.Calm → s.WipeRoom → s.allotState n = .idle ∨ s.allotState n = .running →
    ∃ t, exec (.selfReset p q) s = .next t ∧ s.WasReset t n ∧ t.asc = s.asc) ∧
  (∀ (n : Fin 64) s, (∀ r ∈ s.hif.resets, r.allot ≠ n.val) →
    (s.allotState n ≠ .freezing ∨ s.drainOver s.hif.freezeAt = false → exec (.drainTimeout n) s = .next s) ∧
    (s.allotState n = .freezing → s.drainOver s.hif.freezeAt = true → s.ctl.mode ≠ .sentry → ∃ t, exec (.drainTimeout n) s = .next t ∧ t.allotState n = .frozen ∧ t.hif.cmd = none ∧ t.Ended Reg.hifAllotResult 5 ∧
      t.events Ev.drainTimeout = satAdd (2 ^ 48 - 1) (s.events Ev.drainTimeout) 1 ∧ t.events Ev.allotFrozen = satAdd (2 ^ 48 - 1) (s.events Ev.allotFrozen) 1)) ∧
  (∀ p (n : Fin 64) v s, s.Reaches p (Reg.hifAllotCtrl n) →
    (s.allotExists n = true → (∀ r < 13, s.ringOn n r = false) → s.pasidTaken n v = false → ∃ t, exec (.allotCtrlWrite p n v) s = .next t ∧
      t.flg (Reg.hifAllotCtrl n) 31 = bit v 31 ∧ t.fld (Reg.hifAllotCtrl n) 19 0 = bits v 19 0 ∧ (∀ k, k ≠ Reg.hifAllotCtrl n → t.rd k = s.rd k) ∧
      t = { s with regs := t.regs, armed := t.armed }) ∧
    (s.allotExists n = true → s.pasidTaken n v = true → ∃ t, exec (.allotCtrlWrite p n v) s = .next t ∧ t.rd (Reg.hifAllotCtrl n) = s.rd (Reg.hifAllotCtrl n) ∧
      t.events Ev.pasidRefused = satAdd (2 ^ 48 - 1) (s.events Ev.pasidRefused) 1))

/-- SAVE of a frozen allotment under a wrap slot writes its blob to OUT_ADDR and caps the transmit SA of each of its associations; a refusal
leaves keys, contexts and queues alone. RESTORE refuses a blob that fails a check with nothing changed; else every association of the blob
is the allotment's. Each ends in one completion record. (R531 to R535.) -/
def Obligations.AllotmentsMigrate : Prop :=
  (∀ desc d, d = CmdDesc.of desc → ∀ n, n = (d.word 0).toNat → ∀ m, m = (d.word 2).toNat → ∀ s, s.ringReady 0 = true → d.unit = 2 → ∀ code, code = s.saveCode n (d.word 1).toNat m d.outMax → ∀ w,
    (code ≠ 0 → ∃ t, exec (.migSave desc w) s = .next t ∧ s.Completes t 0 d.tag code 2 0 0 (s.ringM 0 0) 0 ∧ t.asc = s.asc ∧ t.kvt = s.kvt ∧ t.sch = s.sch) ∧
    (code = 0 → ∃ t, exec (.migSave desc false) s = .next t ∧ s.Completes t 0 d.tag 0xF2 2 0 0 (s.ringM 0 0) 0 ∧ t.asc = s.asc ∧ t.kvt = s.kvt ∧ t.sch = s.sch) ∧
    (∀ k, s.wrapSlot (d.word 1).toNat = some k → ∀ b, b = (s.migBlob n k m).1 → code = 0 → SMap.wf noneOf s.asc.ctxs = true →
      ∃ t, exec (.migSave desc true) s = .next t ∧ .hostWrite (s.dmaTag 0 true) d.outAddr b ∈ t.out ∧ s.Completes t 0 d.tag 0 2 0 b.length (s.ringM 0 0) 0 ∧ t.ringM 0 0 = (s.ringM 0 0 + 1) % 65536 ∧
        (∀ a, t.ctx a = (s.ctx a).map (fun c => if c.owner = n then { c with cap := some (c.txNext + 2 ^ m - 1) } else c)) ∧ t.kvt = s.kvt ∧ t.sch = s.sch ∧
        (s.ctl.mode ≠ .sentry → t.events Ev.migSaved = satAdd (2 ^ 48 - 1) (s.events Ev.migSaved) 1))) ∧
  (∀ desc d, d = CmdDesc.of desc → ∀ n, n = (d.word 0).toNat → ∀ blob b, b = blob.take d.inLen → ∀ f s, s.ringReady 0 = true → d.unit = 2 →
    ∀ code, code = s.restoreCode n (d.word 1).toNat (MigBlob.of b) f →
    (code ≠ 0 → ∃ t, exec (.migRestore desc blob f) s = .next t ∧ s.Completes t 0 d.tag code 2 0 0 (s.ringM 0 0) 0 ∧ t.asc = s.asc ∧ t.kvt = s.kvt ∧ t.sch = s.sch ∧ t.cls = s.cls) ∧
    (∀ x, MigBlob.of b = some x → ∀ k, s.wrapSlot (d.word 1).toNat = some k → code = 0 → s.Calm → s.HbmRoom → s.StoreRoom (4 * (x.assocs.length + x.slots.length)) →
      ∃ t, exec (.migRestore desc blob f) s = .next t ∧ t.ringM 0 0 = (s.ringM 0 0 + 1) % 65536 ∧
        if s.migCode n b x k = 0 then (∀ r ∈ x.assocs, (t.ctx (migCtx r n).1).map (·.owner) = some n) ∧ t.events Ev.migRestored = satAdd (2 ^ 48 - 1) (s.events Ev.migRestored) 1 ∧
          ∃ l, s.Completes t 0 d.tag 0 2 0 l (s.ringM 0 0) 0
        else s.Completes t 0 d.tag (s.migCode n b x k) 2 0 0 (s.ringM 0 0) 0 ∧ t.asc = s.asc ∧ t.kvt = s.kvt ∧ t.sch = s.sch ∧ t.cls = s.cls))

/-- The PCIe link comes up at an accepted speed and width; when it goes down every ring is off, every job gone, and no slot has lost its
key. On the I3C bus a target without an address takes one by ENTDAA, or by SETDASA at its static address, and drops it by RSTDAA; with one
it answers the GET commands, takes the SET, ENEC and DISEC commands, selects a register by READ32, returns it at the private read, and
writes one by WRITE32; what it does not serve it does not acknowledge. (R530, R536 to R538; what speed and width the link reaches is the
environment's, log entry 6.) -/
def Obligations.LinkAndManagementBus : Prop :=
  (∀ s, s.hif.linkUp = false → exec .pcieLinkDown s = .next s) ∧
  (∀ s, s.hif.linkUp = true → s.ctl.mode ≠ .sentry → ∃ t, exec .pcieLinkDown s = .next t ∧ t.hif.linkUp = false ∧ t.hif.ringCmds = [] ∧ t.cph.jobs = [] ∧
    (∀ n < 64, ∀ r < 13, t.ringOn n r = false ∧ t.ringM n r = 0) ∧ (∀ c, (t.slot c).map (fun k => (k.st, k.key)) = (s.slot c).map (fun k => (k.st, k.key))) ∧ t.mgd = s.mgd ∧ t.sch.queues = s.sch.queues ∧
    t.events Ev.hifLinkDown = satAdd (2 ^ 48 - 1) (s.events Ev.hifLinkDown) 1 ∧ t.events Ev.hifLinkQuiesce = satAdd (2 ^ 48 - 1) (s.events Ev.hifLinkQuiesce) 1) ∧
  (∀ (v w : Fin 8) s, s.pow.perstHigh = true → s.islandUp 19 = true → s.hif.linkUp = false → s.ctl.mode ≠ .sentry → 1 ≤ v.val → v.val ≤ clamp 1 5 (s.fld Reg.hifLinkCfg 3 0) →
    w.val ∈ [1, 2, 4] → ∃ t, exec (.pcieLinkUp v w) s = .next t ∧ t.hif.linkUp = true ∧ t.hif.speed = v.val ∧ t.hif.width = w.val ∧ t.hif.ltssm = Config.freeNat s.free % 64 ∧
      t.free = s.free + 1 ∧ t.events Ev.hifLinkUp = satAdd (2 ^ 48 - 1) (s.events Ev.hifLinkUp) 1 ∧ t.kvt = s.kvt ∧ t.asc = s.asc) ∧
  (∀ s, (s.i3cServes = false ∨ s.hif.dynAddr = none → ∀ i ∈ [Instr.getpid, .getbcr, .getdcr, .getstatus, .getmxds, .getmwl, .getmrl, .setmwl 8, .setmrl 8, .enec 1, .disec 1],
      exec i s = .next (s.emit .i3cNack)) ∧
    (∀ a, s.i3cServes = true → s.hif.dynAddr = some a → ∀ u, u = s.inc (Reg.hifCountLo 7) →
      exec .getpid s = .next (u.emit (.i3c (beBytes 6 (0x2D61 * 2 ^ 33 + 0x3216 * 2 ^ 16 + flag s.pow.yokePos * 2 ^ 12 + Config.serial.toNat % 4096)))) ∧
      exec .getbcr s = .next (u.emit (.i3c [0x06])) ∧ exec .getdcr s = .next (u.emit (.i3c [0x00])) ∧ exec .getmxds s = .next (u.emit (.i3c [0, 0])) ∧
      (∃ t, exec .getstatus s = .next t ∧ t.out = s.out ++ [.i3c (slice (Config.freeBytes s.free 2) 0 2)] ∧ t.free = s.free + 1) ∧
      exec .getmwl s = .next (u.emit (.i3c (beBytes 2 s.hif.mwl))) ∧ exec .getmrl s = .next (u.emit (.i3c (beBytes 2 s.hif.mrl ++ [3]))) ∧
      (∀ l : BitVec 16, exec (.setmwl l) s = .next { u with hif := { s.hif with mwl := l.toNat } } ∧ exec (.setmrl l) s = .next { u with hif := { s.hif with mrl := l.toNat } }) ∧
      (∀ e : BitVec 8, exec (.enec e) s = .next { u with hif := { s.hif with ibiEn := s.hif.ibiEn || e.getLsbD 0, hjEn := s.hif.hjEn || e.getLsbD 3 } } ∧
        exec (.disec e) s = .next { u with hif := { s.hif with ibiEn := s.hif.ibiEn && !e.getLsbD 0, hjEn := s.hif.hjEn && !e.getLsbD 3 } }) ∧
      (∃ t, exec .rstdaa s = .next t ∧ t.hif.dynAddr = none ∧ t.events Ev.i3cAddr = satAdd (2 ^ 48 - 1) (s.events Ev.i3cAddr) 1) ∧
      ∀ b, exec (.entdaa b) s = .next (s.emit .i3cNack)) ∧
    (s.i3cServes = false → ∀ b x, exec (.entdaa b) s = .next (s.emit .i3cNack) ∧ exec .rstdaa s = .next (s.emit .i3cNack) ∧ exec (.rstact x) s = .next (s.emit .i3cNack)) ∧
    (s.i3cServes = true → ∀ x : BitVec 8, exec (.rstact x) s = .next ({ s with hif := { s.hif with rstAction := x.toNat } }.inc (Reg.hifCountLo 7))) ∧
    (s.i3cServes = true → s.hif.dynAddr = none → ∀ v b : Fin 128, v.val = 0x58 + flag s.pow.yokePos → ∀ i ∈ [Instr.entdaa b, .setdasa v b], ∃ t, exec i s = .next t ∧ t.hif.dynAddr = some b.val ∧
      t.hif.hotJoinDue = false ∧ t.count (Reg.hifCountLo 7) = s.count (Reg.hifCountLo 7) + 1 ∧ t.events Ev.i3cAddr = satAdd (2 ^ 48 - 1) (s.events Ev.i3cAddr) 1) ∧
    (∀ v b : Fin 128, v.val ≠ 0x58 + flag s.pow.yokePos → exec (.setdasa v b) s = .next (s.emit .i3cNack)) ∧
    (s.i3cServes = true → s.hif.hotJoinDue = true → s.hif.hjEn = true → s.hif.dynAddr = none → exec .hotJoinRequest s = .next ({ s with hif := { s.hif with hotJoinDue := false } }.emit .hotJoin)) ∧
    (s.hif.hotJoinDue = false ∨ s.hif.hjEn = false → exec .hotJoinRequest s = .next s)) ∧
  (∀ (a : Fin 128) (o v : BitVec 32) s, (s.i3cHits a = false → ∀ i ∈ [Instr.read32 a o, .write32 a o v, .i3cPrivateRead a], exec i s = .next (s.emit .i3cNack)) ∧
    (s.i3cHits a = true → ∀ u, u = s.inc (Reg.hifCountLo 7) →
      (s.i3cReads o.toNat = true → exec (.read32 a o) s = .next { u with hif := { s.hif with read32 := some (o.toNat, true) } }) ∧
      (s.i3cReads o.toNat = false → ∃ t, exec (.read32 a o) s = .next t ∧ t.hif.read32 = some (o.toNat, false) ∧ t.events Ev.i3cRefused = satAdd (2 ^ 48 - 1) (s.events Ev.i3cRefused) 1) ∧
      (s.hif.read32 = none → exec (.i3cPrivateRead a) s = .next (u.emit (.i3c [2, 0, 0, 0, 0]))) ∧
      (∀ x, s.hif.read32 = some (x, false) → exec (.i3cPrivateRead a) s = .next ({ u with hif := { s.hif with read32 := none } }.emit (.i3c [1, 0, 0, 0, 0]))) ∧
      (∀ x, s.hif.read32 = some (x, true) → ∀ w, w = { u with hif := { s.hif with read32 := none } } → s.unitResponds (x / 0x100000) = true → ∃ t, exec (.i3cPrivateRead a) s = .next t ∧
        t.out = s.out ++ [.i3c (0 :: leBytes 4 (w.readAt .i3c x).1.toNat)] ∧ t.hif = w.hif) ∧
      (s.i3cWrites o.toNat = false → ∃ t, exec (.write32 a o v) s = .next t ∧ (∀ k, k ≠ Reg.stwAlert → k ≠ Reg.logLost → t.rd k = s.rd k) ∧
        t.events Ev.i3cRefused = satAdd (2 ^ 48 - 1) (s.events Ev.i3cRefused) 1) ∧
      (s.i3cWrites o.toNat = true → o.toNat ∉ [Reg.stwModeCmd, Reg.stwImageCmd, Reg.stwImageArm] → exec (.write32 a o v) s = .next (u.writeReg (.write32 a o v) .i3c o.toNat v)) ∧
      (s.i3cWrites o.toNat = true → o.toNat = Reg.stwImageArm → s.unitResponds 1 = true → s.isFollower = false → v.toNat = 0x464C4F52 → ∃ t, exec (.write32 a o v) s = .next t ∧ t.isArmed 1 = true ∧
        t = { u with armed := t.armed })))

/-- A record is staged once FOLD_MS has passed since its first occurrence, while there is room. A due batch, the at most 64 staged records
of lowest SEQ, is offered as one store while the log takes one. The scan finds the block of the highest SEQ and the place after its last
record (one scan a Boot, the model's choice, log entry 127). A freeze keeps batches from starting and is ended by THAW or, after FREEZE_MS,
by its expiry. RELEASE stores its mark. COPY_OUT writes every slot to the host, or ends with CODE 7 and HIF_DMA_ERROR. CAL_WRITE stores a
valid page in Ready when armed, CAL_READ shows the stored one. A busy Ledger ends a command with CODE 1, an undefined OP ends with CODE 8. A
read index copies its slot. (R544, R547, R549, R550, R552, R565, R571; a blank slot reads as zeroes.) -/
def Obligations.LogIsStagedStoredAndCommanded : Prop :=
  (∀ s, s.led.opened = [] → exec .foldClose s = .next s) ∧
  (∀ s o os, s.led.opened = o :: os → s.now < o.first + s.foldNs → exec .foldClose s = .next s) ∧
  (∀ s o os, s.led.opened = o :: os → o.first + s.foldNs ≤ s.now →
    (o.keep = false ∨ s.led.unhealthy = true → exec .foldClose s = .next { s with led := { s.led with opened := os } }) ∧
    (o.keep = true → s.led.unhealthy = false → s.led.staged.length < stageCap →
      exec .foldClose s = .next { s with led := { s.led with opened := os, staged := s.led.staged ++ [⟨s.now, o.rcd⟩] } }) ∧
    (o.keep = true → s.led.unhealthy = false → stageCap ≤ s.led.staged.length → s.led.stageReportDue s.now = false → ∃ t, exec .foldClose s = .next t ∧ t.led.opened = os ∧
      t.led.staged = (match dropOldestBelow o.rcd.level s.led.staged with | some l => l ++ [⟨s.now, o.rcd⟩] | none => s.led.staged) ∧
      t.fld Reg.logLost 31 16 = satAdd 65535 (s.fld Reg.logLost 31 16) 1 ∧ t = { s with led := t.led, regs := t.regs })) ∧
  (∀ s, (s.led.scanned = false ∨ s.led.frozen = true ∨ s.led.unhealthy = true ∨ s.batchOut = true ∨ s.led.batchDue s.now = false → exec .batchOffer s = .next s) ∧
    (∀ b, b = s.led.batch → s.led.scanned = true → s.led.frozen = false → s.led.unhealthy = false → s.batchOut = false → s.led.batchDue s.now = true → s.st.queue = [] → s.st.mram = none → s.pow.pfStep = 0 →
      s.energyOk costLogBatch (costOf s.st.nor) = true → exec .batchOffer s = .next { s with
        led := { s.led with staged := s.led.staged.filter (fun x => !b.contains x) }
        st := { s.st with mram := some ⟨.logBatch, costLogBatch, .logBatch (b.map (·.rcd)), .nobody, false⟩ } })) ∧
  (∀ g s, s.led.scanned = true → exec (.logScan g) s = .next s) ∧
  (∀ g s, s.led.scanned = false → ∃ t, exec (.logScan g) s = .next t ∧ t = { s with led := t.led } ∧ t.led.scanned = true ∧ t.led.log = s.led.log ∧ t.led.staged = s.led.staged ∧
    t.led.unhealthy = (s.led.unhealthy && !(s.ctl.resetCause == 0 && g)) ∧ (s.led.log = [] → t.led.block = 0 ∧ t.led.fill = 0) ∧
    (∀ k r, (k, some r) ∈ s.led.log → (∀ j q, (j, some q) ∈ s.led.log → j ≠ k → q.seq < r.seq) → (∀ q, (k, some q) ∈ s.led.log → q = r) → t.led.block = k / 64 ∧
      (∀ e ∈ s.led.log, e.1 / 64 = k / 64 → e.2.isSome = true → e.1 % 64 < t.led.fill) ∧ ∃ e, e ∈ s.led.log ∧ e.1 / 64 = k / 64 ∧ e.2.isSome = true ∧ t.led.fill = e.1 % 64 + 1)) ∧
  (∀ s d, d = s.led.freezeStart + clamp 1 10000 (s.fld Reg.logFreezeMs 15 0) * 1000000 → (s.led.frozen = false ∨ s.now < d → exec .freezeExpiry s = .next s) ∧
    (s.led.frozen = true → d ≤ s.now → s.ctl.mode ≠ .sentry → ∃ t, exec .freezeExpiry s = .next t ∧ t.led.frozen = false ∧ t.st = s.st ∧
    t.led.log = s.led.log ∧ t.events Ev.logThawed = satAdd (2 ^ 48 - 1) (s.events Ev.logThawed) 1)) ∧
  (∀ p s, s.Reaches p Reg.logCmd →
    (s.led.cmd.isSome = true → ∀ d, ∀ i ∈ [Instr.logFreeze p, .logThaw p, .logRelease p, .copyOut p d, .calWrite p, .calRead p, .logCmdUnknown p 7], ∃ t, exec i s = .next t ∧
      t.Ended Reg.logResult 1 ∧ t = { s with regs := t.regs, armed := t.armed } ∧ t.isArmed 14 = false) ∧
    (s.led.cmd = none →
      (s.led.frozen = true → ∃ t, exec (.logFreeze p) s = .next t ∧ t.Ended Reg.logResult 2 ∧ t = { s with regs := t.regs, armed := t.armed }) ∧
      (∀ b, b = s.st.queue.flatMap (fun (r : StoreReq) => match r.pay with | .logBatch rs => rs | _ => []) → s.led.frozen = false → b.length + s.led.staged.length + 4 ≤ stageCap → ∃ t,
        exec (.logFreeze p) s = .next t ∧ t.led.frozen = true ∧ t.led.freezeStart = s.now ∧ (restaged b ++ s.led.staged) <+: t.led.staged ∧ (∀ r ∈ t.st.queue, r.cls ≠ .logBatch) ∧
        t.st.mram = s.st.mram ∧ t.Ended Reg.logResult 0 ∧ t.events Ev.logFrozen = satAdd (2 ^ 48 - 1) (s.events Ev.logFrozen) 1) ∧
      (s.led.frozen = true → ∃ t, exec (.logThaw p) s = .next t ∧ t.led.frozen = false ∧ t.st = s.st ∧ t.led.log = s.led.log ∧ t.Ended Reg.logResult 0 ∧
        t.events Ev.logThawed = satAdd (2 ^ 48 - 1) (s.events Ev.logThawed) 1) ∧
      (s.led.frozen = false → ∃ t, exec (.logThaw p) s = .next t ∧ t.Ended Reg.logResult 2 ∧ t = { s with regs := t.regs, armed := t.armed }) ∧
      (∀ n, n = min (s.rd Reg.logArg).toNat (s.led.seq - 1) →
        (s.led.seq = 0 ∨ (∃ m, s.led.mark = some m ∧ n ≤ m) → ∃ t, exec (.logRelease p) s = .next t ∧ t.Ended Reg.logResult 0 ∧ t = { s with regs := t.regs, armed := t.armed }) ∧
        (s.led.seq ≠ 0 → (∀ m, s.led.mark = some m → m < n) → s.st.queue.length < storeCap → ∃ t, exec (.logRelease p) s = .next t ∧ t.led.cmd = some 3 ∧ t.led.mark = s.led.mark ∧
          ∃ x, (x ∈ t.st.queue ∨ t.st.mram = some x ∨ t.st.nor = some x) ∧ x.pay = .releaseMark n ∧ x.who = .unit 14 0)) ∧
      (s.hif.linkUp = true → ∃ t, exec (.copyOut p true) s = .next t ∧ t.Ended Reg.logResult 0 ∧ t = { s with regs := t.regs, armed := t.armed, out := t.out } ∧
        t.out = s.out ++ [.hostWrite (s.dmaTag 0 true) ((s.rd Reg.logHostLo).toNat / 4096 * 4096 + (s.rd Reg.logHostHi).toNat * 2 ^ 32) ((List.range logSlots).flatMap s.led.slotBytes)]) ∧
      (∀ d, d = false ∨ s.hif.linkUp = false → ∃ t, exec (.copyOut p d) s = .next t ∧ t.Ended Reg.logResult 7 ∧ t.led.log = s.led.log ∧
        t.count (Reg.hifCountLo 5) = s.count (Reg.hifCountLo 5) + 1 ∧ t.events Ev.hifDmaError = satAdd (2 ^ 48 - 1) (s.events Ev.hifDmaError) 1) ∧
      (∃ t, exec (.calWrite p) s = .next t ∧ t.led.cal = s.led.cal ∧ (s.ctl.mode ≠ .ready → t.Ended Reg.logResult 4 ∧ t.st = s.st) ∧
        (s.ctl.mode = .ready → s.isArmed 14 = false → t.Ended Reg.logResult 3 ∧ t.st = s.st) ∧
        (s.ctl.mode = .ready → s.isArmed 14 = true → s.st.queue.length < storeCap →
          (∀ i, calFirstBad s.calStage = some i → t.Ended Reg.logResult 5 ∧ t.fld Reg.logResult 31 18 = i ∧ t.st = s.st) ∧
          (calFirstBad s.calStage = none → t.led.cmd = some 5 ∧ ∃ x, (x ∈ t.st.queue ∨ t.st.mram = some x ∨ t.st.nor = some x) ∧ x.pay = .calPage s.calToStore))) ∧
      (SMap.wf zeroWord s.led.cal = true → (∀ e ∈ s.led.cal, e.1 < 16384) → ∃ t, exec (.calRead p) s = .next t ∧ (∀ i < 16384, t.rd (Reg.logCalStage i) = s.calWord i) ∧
        t.Ended Reg.logResult 0 ∧ t = { s with regs := t.regs, armed := t.armed }) ∧
      (∀ op : Fin 16, (7 ≤ op.val → ∃ t, exec (.logCmdUnknown p op) s = .next t ∧ t.Ended Reg.logResult 8 ∧ t = { s with regs := t.regs, armed := t.armed }) ∧
        (op.val < 7 → ∃ t, exec (.logCmdUnknown p op) s = .next t ∧ t = { s with armed := t.armed })))) ∧
  (∀ p v s k, s.Reaches p Reg.logReadIndex → k = bits v 17 0 → ∃ t, exec (.logReadIndexWrite p v) s = .next t ∧ t = { s with regs := t.regs, armed := t.armed } ∧
    (k < logSlots → t.rd Reg.logReadIndex = BitVec.ofNat 32 (2 ^ 31 + k) ∧ ∀ w < 16, t.rd (Reg.logReadData w) = BitVec.ofNat 32 (ofBe (slice (s.led.slotBytes k) (4 * w) 4))) ∧
    (logSlots ≤ k → t.rd Reg.logReadIndex = BitVec.ofNat 32 k ∧ ∀ w < 16, t.rd (Reg.logReadData w) = s.rd (Reg.logReadData w)))

/-- A write of PMC_SNAP_CFG with SNAP, and a period that ends while periodic snapshots are on, take one snapshot: one sample of each filter
unit, and while dumps are on one dump into the next free slot of the dump ring, or one more in PMC_DROPS with DUMP_DROPPED where none is
free. Without SNAP the write only sets the clamped period. A write of a filter unit's configuration clears its two counts and no other's.
(R555, R558, R559, R562.) -/
def Obligations.CountersAreSnapped : Prop :=
  (∀ p v s, s.Reaches p Reg.pmcSnapCfg → ∃ t, exec (.counterSnap p v) s = .next t ∧ t.fld Reg.pmcSnapCfg 15 0 = clamp 10 60000 (bits v 15 0) ∧ t.flg Reg.pmcSnapCfg 31 = bit v 31 ∧
    t.flg Reg.pmcSnapCfg 30 = bit v 30 ∧ (bit v 29 = false → t = { s with regs := t.regs, armed := t.armed, led := { s.led with snapAt := if s.flg Reg.pmcSnapCfg 31 = true then s.led.snapAt else s.now } })) ∧
  (∀ s d, d = s.led.snapAt + clamp 10 60000 (s.fld Reg.pmcSnapCfg 15 0) * 1000000 → (s.flg Reg.pmcSnapCfg 31 = false ∨ s.now < d → exec .periodicSnap s = .next s) ∧
    (s.flg Reg.pmcSnapCfg 31 = true → d ≤ s.now → s.ctl.mode ≠ .sentry → ∃ t, exec .periodicSnap s = .next t ∧ s.Snapped t ∧ t.led.snapAt = d)) ∧
  (∀ p v s, s.Reaches p Reg.pmcSnapCfg → bit v 29 = true → ∃ t, exec (.counterSnap p v) s = .next t ∧ s.Snapped t) ∧
  (∀ p (k : Fin 256) v s, s.Reaches p (Reg.pmcFuCfg k) → ∃ t, exec (.fuCfgWrite p k v) s = .next t ∧ t.rd (Reg.pmcFuCfg k) = v &&& 0xFFFFFF0F#32 ∧
    (∀ x, x ≠ Reg.pmcFuCfg k → t.rd x = s.rd x) ∧ SMap.get zeroOf t.led.fu (2 * k) = 0 ∧ SMap.get zeroOf t.led.fu (2 * k + 1) = 0 ∧
    (∀ j, j ≠ 2 * k.val → j ≠ 2 * k.val + 1 → SMap.get zeroOf t.led.fu j = SMap.get zeroOf s.led.fu j) ∧ t = { s with regs := t.regs, led := { s.led with fu := t.led.fu }, armed := t.armed })
end

