-- ==== Sys2Proof/Laws/SMap.lean ====
section
/-! SUPPORT. The laws of sparse maps: a read after a write, and that every operation keeps the canonical form. -/

namespace Sys2Proof.Machine

open Sys2Proof

variable {β : Type}

/-! ## Reading after writing -/

theorem lookup_filter_ne (m : SMap β) (k j : Nat) (h : j ≠ k) :
    List.lookup j (m.filter (fun p => p.1 != k)) = List.lookup j m := by
  induction m with
  | nil => rfl
  | cons p t ih =>
    obtain ⟨a, v⟩ := p
    by_cases hk : a = k
    · subst hk
      have : (j == a) = false := by simpa using h
      simp [List.lookup_cons, this, ih]
    · simp only [List.filter_cons, bne_iff_ne, ne_eq, hk, not_false_eq_true, ↓reduceIte, List.lookup_cons]
      rw [ih]

theorem lookup_filter_self (m : SMap β) (k : Nat) : List.lookup k (m.filter (fun p => p.1 != k)) = none := by
  induction m with
  | nil => rfl
  | cons p t ih =>
    obtain ⟨a, v⟩ := p
    by_cases hk : a = k
    · subst hk; simpa using ih
    · have : (k == a) = false := by simpa using fun e => hk e.symm
      simp [hk, List.lookup_cons, this, ih]

theorem lookup_put_self (m : SMap β) (k : Nat) (v : β) : List.lookup k (SMap.put k v m) = some v ∨ ∃ w, (k, w) ∈ m := by
  induction m with
  | nil => left; simp [SMap.put]
  | cons p t ih =>
    obtain ⟨a, w⟩ := p
    simp only [SMap.put]
    split
    · left; simp
    · by_cases hk : a = k
      · right; exact ⟨w, by simp [hk]⟩
      · have : (k == a) = false := by simpa using fun e => hk e.symm
        rcases ih with h | ⟨x, h⟩
        · left; simp [List.lookup_cons, this, h]
        · right; exact ⟨x, List.mem_cons_of_mem _ h⟩

theorem lookup_put_ne (m : SMap β) (k j : Nat) (v : β) (h : j ≠ k) :
    List.lookup j (SMap.put k v m) = List.lookup j m := by
  have hj : (j == k) = false := by simpa using h
  induction m with
  | nil => simp [SMap.put, List.lookup_cons, hj]
  | cons p t ih =>
    obtain ⟨a, w⟩ := p
    simp only [SMap.put]
    split
    · simp [List.lookup_cons, hj]
    · simp only [List.lookup_cons, ih]

/-- A read after a write to the same key gives what was written. -/
@[simp] theorem SMap.get_set_self [DecidableEq β] (d : Nat → β) (m : SMap β) (k : Nat) (v : β) :
    SMap.get d (SMap.set d m k v) k = v := by
  by_cases h : v = d k
  · rw [SMap.set, if_pos h, SMap.get, SMap.erase, lookup_filter_self, h]
  · rw [SMap.set, if_neg h, SMap.get, SMap.erase]
    rcases lookup_put_self (m.filter (fun p => p.1 != k)) k v with h | ⟨w, h⟩
    · rw [h]
    · simp at h

/-- A write leaves every other key alone. -/
theorem SMap.get_set_ne [DecidableEq β] (d : Nat → β) (m : SMap β) (k j : Nat) (v : β) (h : j ≠ k) :
    SMap.get d (SMap.set d m k v) j = SMap.get d m j := by
  by_cases hv : v = d k
  · rw [SMap.set, if_pos hv, SMap.get, SMap.erase, lookup_filter_ne _ _ _ h, SMap.get]
  · rw [SMap.set, if_neg hv, SMap.get, SMap.erase, lookup_put_ne _ _ _ _ h, lookup_filter_ne _ _ _ h, SMap.get]

/-- What a read gives after a write. -/
theorem SMap.get_set [DecidableEq β] (d : Nat → β) (m : SMap β) (k j : Nat) (v : β) :
    SMap.get d (SMap.set d m k v) j = if j = k then v else SMap.get d m j := by
  split
  · next h => subst h; exact SMap.get_set_self d m j v
  · next h => exact SMap.get_set_ne d m k j v h

/-! ## The canonical form -/

/-- The canonical form as a sorted list: keys strictly rising and no default listed. -/
theorem SMap.wf_iff [DecidableEq β] (d : Nat → β) (m : SMap β) :
    SMap.wf d m = true ↔ m.Pairwise (fun p q => p.1 < q.1) ∧ ∀ p ∈ m, p.2 ≠ d p.1 := by
  induction m with
  | nil => simp [SMap.wf]
  | cons p t ih =>
    obtain ⟨k, v⟩ := p
    cases t with
    | nil => simp [SMap.wf]
    | cons q u =>
      obtain ⟨j, w⟩ := q
      simp only [SMap.wf, Bool.and_eq_true, decide_eq_true_eq, ih, List.pairwise_cons, List.mem_cons, forall_eq_or_imp]
      constructor
      · rintro ⟨⟨h1, h2⟩, ⟨h3, h4⟩, h5, h6⟩
        exact ⟨⟨⟨h2, fun a ha => Nat.lt_trans h2 (h3 a ha)⟩, h3, h4⟩, h1, h5, h6⟩
      · rintro ⟨⟨⟨h2, _⟩, h3, h4⟩, h1, h5, h6⟩
        exact ⟨⟨h1, h2⟩, ⟨h3, h4⟩, h5, h6⟩

/-- Leaving entries out keeps the canonical form. -/
theorem SMap.wf_filter [DecidableEq β] (d : Nat → β) (m : SMap β) (p : Nat × β → Bool) (h : SMap.wf d m = true) :
    SMap.wf d (m.filter p) = true := by
  rw [SMap.wf_iff] at h ⊢
  exact ⟨h.1.filter p, fun x hx => h.2 x (List.mem_filter.mp hx).1⟩

theorem SMap.wf_erase [DecidableEq β] (d : Nat → β) (m : SMap β) (k : Nat) (h : SMap.wf d m = true) :
    SMap.wf d (SMap.erase m k) = true := SMap.wf_filter d m _ h

theorem SMap.wf_dropRange [DecidableEq β] (d : Nat → β) (m : SMap β) (lo hi : Nat) (h : SMap.wf d m = true) :
    SMap.wf d (SMap.dropRange m lo hi) = true := SMap.wf_filter d m _ h

theorem SMap.wf_keep [DecidableEq β] (d : Nat → β) (m : SMap β) (p : Nat → β → Bool) (h : SMap.wf d m = true) :
    SMap.wf d (SMap.keep m p) = true := SMap.wf_filter d m _ h

theorem mem_put (m : SMap β) (k : Nat) (v : β) (x : Nat × β) : x ∈ SMap.put k v m ↔ x = (k, v) ∨ x ∈ m := by
  induction m with
  | nil => simp [SMap.put]
  | cons p t ih =>
    obtain ⟨a, w⟩ := p
    simp only [SMap.put]
    split
    · simp
    · simp only [List.mem_cons, ih]
      constructor
      · rintro (h | h | h) <;> simp [h]
      · rintro (h | h | h) <;> simp [h]

theorem pairwise_put (m : SMap β) (k : Nat) (v : β) (h : m.Pairwise (fun p q => p.1 < q.1)) (n : ∀ p ∈ m, p.1 ≠ k) :
    (SMap.put k v m).Pairwise (fun p q => p.1 < q.1) := by
  induction m with
  | nil => simp [SMap.put]
  | cons p t ih =>
    obtain ⟨a, w⟩ := p
    rw [List.pairwise_cons] at h
    simp only [SMap.put]
    split
    · next hk =>
      refine List.pairwise_cons.mpr ⟨?_, List.pairwise_cons.mpr h⟩
      intro q hq
      rcases List.mem_cons.mp hq with rfl | hq
      · exact hk
      · exact Nat.lt_trans hk (h.1 q hq)
    · next hk =>
      refine List.pairwise_cons.mpr ⟨?_, ih h.2 (fun q hq => n q (List.mem_cons_of_mem _ hq))⟩
      intro q hq
      rcases (mem_put t k v q).mp hq with rfl | hq
      · have := n (a, w) List.mem_cons_self
        simp only at this ⊢
        omega
      · exact h.1 q hq

/-- A write keeps the canonical form: the default value is not listed, any other is listed once, in order. -/
theorem SMap.wf_set [DecidableEq β] (d : Nat → β) (m : SMap β) (k : Nat) (v : β) (h : SMap.wf d m = true) :
    SMap.wf d (SMap.set d m k v) = true := by
  unfold SMap.set
  split
  · exact SMap.wf_erase d m k h
  · next hv =>
    have he := SMap.wf_erase d m k h
    rw [SMap.wf_iff] at he ⊢
    refine ⟨pairwise_put _ k v he.1 ?_, ?_⟩
    · intro p hp
      have := (List.mem_filter.mp hp).2
      simpa using this
    · intro p hp
      rcases (mem_put _ k v p).mp hp with rfl | hp
      · exact hv
      · exact he.2 p hp

end Sys2Proof.Machine
end

