-- ==== Sys2Proof/Laws/Touch.lean ====
section
/-! SUPPORT. What an operation may touch: a relation between the state before and after it, its algebra, and one lemma for
each record update of State. -/

namespace Sys2Proof.Machine

open Sys2Proof

namespace Touches

theorem rfl' (m : List Part) (s : State) : Touches m s s := by constructor <;> intros <;> first | rfl | assumption

theorem trans {m : List Part} {s t u : State} (h : Touches m s t) (k : Touches m t u) : Touches m s u := by
  constructor
  · exact fun n => (k.regs n).trans (h.regs n)
  · exact fun n => (k.shadow n).trans (h.shadow n)
  · exact fun n => (k.cnt n).trans (h.cnt n)
  · exact fun n => (k.armed n).trans (h.armed n)
  · exact fun n => (k.now n).trans (h.now n)
  · exact fun n => (k.ctl n).trans (h.ctl n)
  · exact fun n => (k.pow n).trans (h.pow n)
  · exact fun n => (k.boot n).trans (h.boot n)
  · exact fun n => (k.led n).trans (h.led n)
  · exact fun n => (k.hdg n).trans (h.hdg n)
  · exact fun n => (k.hif n).trans (h.hif n)
  · exact fun n => (k.tim n).trans (h.tim n)
  · exact fun n => (k.mram n).trans (h.mram n)
  · exact fun n => (k.st n).trans (h.st n)
  · exact fun n => (k.fab n).trans (h.fab n)
  · exact fun n => (k.line n).trans (h.line n)
  · exact fun n => (k.rows n).trans (h.rows n)
  · exact fun n => (k.cls n).trans (h.cls n)
  · exact fun n => (k.sch n).trans (h.sch n)
  · exact fun n => (k.mgd n).trans (h.mgd n)
  · exact fun n => (k.asc n).trans (h.asc n)
  · exact fun n => (k.cph n).trans (h.cph n)
  · exact fun n => (k.kvt n).trans (h.kvt n)
  · exact fun n => (k.yok n).trans (h.yok n)
  · exact fun n => (k.held n).trans (h.held n)
  · exact fun n => (k.out n).trans (h.out n)
  · exact fun n => (k.free n).trans (h.free n)
  · exact fun n => (k.pending n).trans (h.pending n)
  · exact fun c => k.canon (h.canon c)

theorem mono {m n : List Part} {s t : State} (h : Touches m s t) (sub : m ⊆ n) : Touches n s t := by
  constructor
  · exact fun x => h.regs (fun y => x (sub y))
  · exact fun x => h.shadow (fun y => x (sub y))
  · exact fun x => h.cnt (fun y => x (sub y))
  · exact fun x => h.armed (fun y => x (sub y))
  · exact fun x => h.now (fun y => x (sub y))
  · exact fun x => h.ctl (fun y => x (sub y))
  · exact fun x => h.pow (fun y => x (sub y))
  · exact fun x => h.boot (fun y => x (sub y))
  · exact fun x => h.led (fun y => x (sub y))
  · exact fun x => h.hdg (fun y => x (sub y))
  · exact fun x => h.hif (fun y => x (sub y))
  · exact fun x => h.tim (fun y => x (sub y))
  · exact fun x => h.mram (fun y => x (sub y))
  · exact fun x => h.st (fun y => x (sub y))
  · exact fun x => h.fab (fun y => x (sub y))
  · exact fun x => h.line (fun y => x (sub y))
  · exact fun x => h.rows (fun y => x (sub y))
  · exact fun x => h.cls (fun y => x (sub y))
  · exact fun x => h.sch (fun y => x (sub y))
  · exact fun x => h.mgd (fun y => x (sub y))
  · exact fun x => h.asc (fun y => x (sub y))
  · exact fun x => h.cph (fun y => x (sub y))
  · exact fun x => h.kvt (fun y => x (sub y))
  · exact fun x => h.yok (fun y => x (sub y))
  · exact fun x => h.held (fun y => x (sub y))
  · exact fun x => h.out (fun y => x (sub y))
  · exact fun x => h.free (fun y => x (sub y))
  · exact fun x => h.pending (fun y => x (sub y))
  · exact h.canon

/-- One more operation after an expression already treated. -/
theorem chain {m n : List Part} {s t u : State} (k : Touches m t u) (sub : m ⊆ n) (h : Touches n s t) : Touches n s u :=
  h.trans (k.mono sub)

theorem ite {m : List Part} {s a b : State} {c : Prop} [Decidable c] (h : Touches m s a) (k : Touches m s b) :
    Touches m s (if c then a else b) := by split <;> assumption

theorem ite1 {β : Type} {m : List Part} {s : State} {a b : State × β} {c : Prop} [Decidable c] (h : Touches m s a.1)
    (k : Touches m s b.1) : Touches m s (if c then a else b).1 := by split <;> assumption

theorem ite2 {β : Type} {m : List Part} {s : State} {a b : β × State} {c : Prop} [Decidable c] (h : Touches m s a.2)
    (k : Touches m s b.2) : Touches m s (if c then a else b).2 := by split <;> assumption

theorem mk1 {β : Type} {m : List Part} {s a : State} {b : β} (h : Touches m s a) : Touches m s (a, b).1 := h
theorem mk2 {β : Type} {m : List Part} {s a : State} {b : β} (h : Touches m s a) : Touches m s (b, a).2 := h

theorem ofFst {β : Type} {m : List Part} {s a : State} {b : β} {p : State × β} (e : p = (a, b)) (h : Touches m s p.1) :
    Touches m s a := by subst e; exact h
theorem ofSnd {β : Type} {m : List Part} {s a : State} {b : β} {p : β × State} (e : p = (b, a)) (h : Touches m s p.2) :
    Touches m s a := by subst e; exact h

theorem foldl {α : Type} {m : List Part} {s : State} {f : State → α → State} (l : List α) (init : State)
    (h : Touches m s init) (k : ∀ x a, Touches m s x → Touches m s (f x a)) : Touches m s (l.foldl f init) := by
  induction l generalizing init with
  | nil => exact h
  | cons a l ih => exact ih (f init a) (k init a h)

theorem foldl1 {α β : Type} {m : List Part} {s : State} {f : State × β → α → State × β} (l : List α) (init : State × β)
    (h : Touches m s init.1) (k : ∀ x a, Touches m s x.1 → Touches m s (f x a).1) : Touches m s (l.foldl f init).1 := by
  induction l generalizing init with
  | nil => exact h
  | cons a l ih => exact ih (f init a) (k init a h)

theorem foldl2 {α β : Type} {m : List Part} {s : State} {f : β × State → α → β × State} (l : List α) (init : β × State)
    (h : Touches m s init.2) (k : ∀ x a, Touches m s x.2 → Touches m s (f x a).2) : Touches m s (l.foldl f init).2 := by
  induction l generalizing init with
  | nil => exact h
  | cons a l ih => exact ih (f init a) (k init a h)

theorem set_shadow {m : List Part} {s x : State} {e} (h : Touches m s x) (i : Part.shadow ∈ m) :
    Touches m s { x with shadow := e } :=
  h.trans ⟨fun _ => rfl, fun n => absurd i n, fun _ => rfl, fun _ => rfl, fun _ => rfl, fun _ => rfl, fun _ => rfl, fun _ => rfl, fun _ => rfl, fun _ => rfl, fun _ => rfl, fun _ => rfl, fun _ => rfl, fun _ => rfl, fun _ => rfl, fun _ => rfl, fun _ => rfl, fun _ => rfl, fun _ => rfl, fun _ => rfl, fun _ => rfl, fun _ => rfl, fun _ => rfl, fun _ => rfl, fun _ => rfl, fun _ => rfl, fun _ => rfl, fun _ => rfl, fun c => ⟨c.regs, c.cnt, c.nor, c.recs, c.log, c.lines⟩⟩
theorem set_armed {m : List Part} {s x : State} {e} (h : Touches m s x) (i : Part.armed ∈ m) :
    Touches m s { x with armed := e } :=
  h.trans ⟨fun _ => rfl, fun _ => rfl, fun _ => rfl, fun n => absurd i n, fun _ => rfl, fun _ => rfl, fun _ => rfl, fun _ => rfl, fun _ => rfl, fun _ => rfl, fun _ => rfl, fun _ => rfl, fun _ => rfl, fun _ => rfl, fun _ => rfl, fun _ => rfl, fun _ => rfl, fun _ => rfl, fun _ => rfl, fun _ => rfl, fun _ => rfl, fun _ => rfl, fun _ => rfl, fun _ => rfl, fun _ => rfl, fun _ => rfl, fun _ => rfl, fun _ => rfl, fun c => ⟨c.regs, c.cnt, c.nor, c.recs, c.log, c.lines⟩⟩
theorem set_now {m : List Part} {s x : State} {e} (h : Touches m s x) (i : Part.now ∈ m) :
    Touches m s { x with now := e } :=
  h.trans ⟨fun _ => rfl, fun _ => rfl, fun _ => rfl, fun _ => rfl, fun n => absurd i n, fun _ => rfl, fun _ => rfl, fun _ => rfl, fun _ => rfl, fun _ => rfl, fun _ => rfl, fun _ => rfl, fun _ => rfl, fun _ => rfl, fun _ => rfl, fun _ => rfl, fun _ => rfl, fun _ => rfl, fun _ => rfl, fun _ => rfl, fun _ => rfl, fun _ => rfl, fun _ => rfl, fun _ => rfl, fun _ => rfl, fun _ => rfl, fun _ => rfl, fun _ => rfl, fun c => ⟨c.regs, c.cnt, c.nor, c.recs, c.log, c.lines⟩⟩
theorem set_ctl {m : List Part} {s x : State} {e} (h : Touches m s x) (i : Part.ctl ∈ m) :
    Touches m s { x with ctl := e } :=
  h.trans ⟨fun _ => rfl, fun _ => rfl, fun _ => rfl, fun _ => rfl, fun _ => rfl, fun n => absurd i n, fun _ => rfl, fun _ => rfl, fun _ => rfl, fun _ => rfl, fun _ => rfl, fun _ => rfl, fun _ => rfl, fun _ => rfl, fun _ => rfl, fun _ => rfl, fun _ => rfl, fun _ => rfl, fun _ => rfl, fun _ => rfl, fun _ => rfl, fun _ => rfl, fun _ => rfl, fun _ => rfl, fun _ => rfl, fun _ => rfl, fun _ => rfl, fun _ => rfl, fun c => ⟨c.regs, c.cnt, c.nor, c.recs, c.log, c.lines⟩⟩
theorem set_pow {m : List Part} {s x : State} {e} (h : Touches m s x) (i : Part.pow ∈ m) :
    Touches m s { x with pow := e } :=
  h.trans ⟨fun _ => rfl, fun _ => rfl, fun _ => rfl, fun _ => rfl, fun _ => rfl, fun _ => rfl, fun n => absurd i n, fun _ => rfl, fun _ => rfl, fun _ => rfl, fun _ => rfl, fun _ => rfl, fun _ => rfl, fun _ => rfl, fun _ => rfl, fun _ => rfl, fun _ => rfl, fun _ => rfl, fun _ => rfl, fun _ => rfl, fun _ => rfl, fun _ => rfl, fun _ => rfl, fun _ => rfl, fun _ => rfl, fun _ => rfl, fun _ => rfl, fun _ => rfl, fun c => ⟨c.regs, c.cnt, c.nor, c.recs, c.log, c.lines⟩⟩
theorem set_hdg {m : List Part} {s x : State} {e} (h : Touches m s x) (i : Part.hdg ∈ m) :
    Touches m s { x with hdg := e } :=
  h.trans ⟨fun _ => rfl, fun _ => rfl, fun _ => rfl, fun _ => rfl, fun _ => rfl, fun _ => rfl, fun _ => rfl, fun _ => rfl, fun _ => rfl, fun n => absurd i n, fun _ => rfl, fun _ => rfl, fun _ => rfl, fun _ => rfl, fun _ => rfl, fun _ => rfl, fun _ => rfl, fun _ => rfl, fun _ => rfl, fun _ => rfl, fun _ => rfl, fun _ => rfl, fun _ => rfl, fun _ => rfl, fun _ => rfl, fun _ => rfl, fun _ => rfl, fun _ => rfl, fun c => ⟨c.regs, c.cnt, c.nor, c.recs, c.log, c.lines⟩⟩
theorem set_hif {m : List Part} {s x : State} {e} (h : Touches m s x) (i : Part.hif ∈ m) :
    Touches m s { x with hif := e } :=
  h.trans ⟨fun _ => rfl, fun _ => rfl, fun _ => rfl, fun _ => rfl, fun _ => rfl, fun _ => rfl, fun _ => rfl, fun _ => rfl, fun _ => rfl, fun _ => rfl, fun n => absurd i n, fun _ => rfl, fun _ => rfl, fun _ => rfl, fun _ => rfl, fun _ => rfl, fun _ => rfl, fun _ => rfl, fun _ => rfl, fun _ => rfl, fun _ => rfl, fun _ => rfl, fun _ => rfl, fun _ => rfl, fun _ => rfl, fun _ => rfl, fun _ => rfl, fun _ => rfl, fun c => ⟨c.regs, c.cnt, c.nor, c.recs, c.log, c.lines⟩⟩
theorem set_tim {m : List Part} {s x : State} {e} (h : Touches m s x) (i : Part.tim ∈ m) :
    Touches m s { x with tim := e } :=
  h.trans ⟨fun _ => rfl, fun _ => rfl, fun _ => rfl, fun _ => rfl, fun _ => rfl, fun _ => rfl, fun _ => rfl, fun _ => rfl, fun _ => rfl, fun _ => rfl, fun _ => rfl, fun n => absurd i n, fun _ => rfl, fun _ => rfl, fun _ => rfl, fun _ => rfl, fun _ => rfl, fun _ => rfl, fun _ => rfl, fun _ => rfl, fun _ => rfl, fun _ => rfl, fun _ => rfl, fun _ => rfl, fun _ => rfl, fun _ => rfl, fun _ => rfl, fun _ => rfl, fun c => ⟨c.regs, c.cnt, c.nor, c.recs, c.log, c.lines⟩⟩
theorem set_mram {m : List Part} {s x : State} {e} (h : Touches m s x) (i : Part.mram ∈ m) :
    Touches m s { x with mram := e } :=
  h.trans ⟨fun _ => rfl, fun _ => rfl, fun _ => rfl, fun _ => rfl, fun _ => rfl, fun _ => rfl, fun _ => rfl, fun _ => rfl, fun _ => rfl, fun _ => rfl, fun _ => rfl, fun _ => rfl, fun n => absurd i n, fun _ => rfl, fun _ => rfl, fun _ => rfl, fun _ => rfl, fun _ => rfl, fun _ => rfl, fun _ => rfl, fun _ => rfl, fun _ => rfl, fun _ => rfl, fun _ => rfl, fun _ => rfl, fun _ => rfl, fun _ => rfl, fun _ => rfl, fun c => ⟨c.regs, c.cnt, c.nor, c.recs, c.log, c.lines⟩⟩
theorem set_st {m : List Part} {s x : State} {e} (h : Touches m s x) (i : Part.st ∈ m) :
    Touches m s { x with st := e } :=
  h.trans ⟨fun _ => rfl, fun _ => rfl, fun _ => rfl, fun _ => rfl, fun _ => rfl, fun _ => rfl, fun _ => rfl, fun _ => rfl, fun _ => rfl, fun _ => rfl, fun _ => rfl, fun _ => rfl, fun _ => rfl, fun n => absurd i n, fun _ => rfl, fun _ => rfl, fun _ => rfl, fun _ => rfl, fun _ => rfl, fun _ => rfl, fun _ => rfl, fun _ => rfl, fun _ => rfl, fun _ => rfl, fun _ => rfl, fun _ => rfl, fun _ => rfl, fun _ => rfl, fun c => ⟨c.regs, c.cnt, c.nor, c.recs, c.log, c.lines⟩⟩
theorem set_fab {m : List Part} {s x : State} {e} (h : Touches m s x) (i : Part.fab ∈ m) :
    Touches m s { x with fab := e } :=
  h.trans ⟨fun _ => rfl, fun _ => rfl, fun _ => rfl, fun _ => rfl, fun _ => rfl, fun _ => rfl, fun _ => rfl, fun _ => rfl, fun _ => rfl, fun _ => rfl, fun _ => rfl, fun _ => rfl, fun _ => rfl, fun _ => rfl, fun n => absurd i n, fun _ => rfl, fun _ => rfl, fun _ => rfl, fun _ => rfl, fun _ => rfl, fun _ => rfl, fun _ => rfl, fun _ => rfl, fun _ => rfl, fun _ => rfl, fun _ => rfl, fun _ => rfl, fun _ => rfl, fun c => ⟨c.regs, c.cnt, c.nor, c.recs, c.log, c.lines⟩⟩
theorem set_line {m : List Part} {s x : State} {e} (h : Touches m s x) (i : Part.line ∈ m) :
    Touches m s { x with line := e } :=
  h.trans ⟨fun _ => rfl, fun _ => rfl, fun _ => rfl, fun _ => rfl, fun _ => rfl, fun _ => rfl, fun _ => rfl, fun _ => rfl, fun _ => rfl, fun _ => rfl, fun _ => rfl, fun _ => rfl, fun _ => rfl, fun _ => rfl, fun _ => rfl, fun n => absurd i n, fun _ => rfl, fun _ => rfl, fun _ => rfl, fun _ => rfl, fun _ => rfl, fun _ => rfl, fun _ => rfl, fun _ => rfl, fun _ => rfl, fun _ => rfl, fun _ => rfl, fun _ => rfl, fun c => ⟨c.regs, c.cnt, c.nor, c.recs, c.log, c.lines⟩⟩
theorem set_rows {m : List Part} {s x : State} {e} (h : Touches m s x) (i : Part.rows ∈ m) :
    Touches m s { x with rows := e } :=
  h.trans ⟨fun _ => rfl, fun _ => rfl, fun _ => rfl, fun _ => rfl, fun _ => rfl, fun _ => rfl, fun _ => rfl, fun _ => rfl, fun _ => rfl, fun _ => rfl, fun _ => rfl, fun _ => rfl, fun _ => rfl, fun _ => rfl, fun _ => rfl, fun _ => rfl, fun n => absurd i n, fun _ => rfl, fun _ => rfl, fun _ => rfl, fun _ => rfl, fun _ => rfl, fun _ => rfl, fun _ => rfl, fun _ => rfl, fun _ => rfl, fun _ => rfl, fun _ => rfl, fun c => ⟨c.regs, c.cnt, c.nor, c.recs, c.log, c.lines⟩⟩
theorem set_cls {m : List Part} {s x : State} {e} (h : Touches m s x) (i : Part.cls ∈ m) :
    Touches m s { x with cls := e } :=
  h.trans ⟨fun _ => rfl, fun _ => rfl, fun _ => rfl, fun _ => rfl, fun _ => rfl, fun _ => rfl, fun _ => rfl, fun _ => rfl, fun _ => rfl, fun _ => rfl, fun _ => rfl, fun _ => rfl, fun _ => rfl, fun _ => rfl, fun _ => rfl, fun _ => rfl, fun _ => rfl, fun n => absurd i n, fun _ => rfl, fun _ => rfl, fun _ => rfl, fun _ => rfl, fun _ => rfl, fun _ => rfl, fun _ => rfl, fun _ => rfl, fun _ => rfl, fun _ => rfl, fun c => ⟨c.regs, c.cnt, c.nor, c.recs, c.log, c.lines⟩⟩
theorem set_sch {m : List Part} {s x : State} {e} (h : Touches m s x) (i : Part.sch ∈ m) :
    Touches m s { x with sch := e } :=
  h.trans ⟨fun _ => rfl, fun _ => rfl, fun _ => rfl, fun _ => rfl, fun _ => rfl, fun _ => rfl, fun _ => rfl, fun _ => rfl, fun _ => rfl, fun _ => rfl, fun _ => rfl, fun _ => rfl, fun _ => rfl, fun _ => rfl, fun _ => rfl, fun _ => rfl, fun _ => rfl, fun _ => rfl, fun n => absurd i n, fun _ => rfl, fun _ => rfl, fun _ => rfl, fun _ => rfl, fun _ => rfl, fun _ => rfl, fun _ => rfl, fun _ => rfl, fun _ => rfl, fun c => ⟨c.regs, c.cnt, c.nor, c.recs, c.log, c.lines⟩⟩
theorem set_asc {m : List Part} {s x : State} {e} (h : Touches m s x) (i : Part.asc ∈ m) :
    Touches m s { x with asc := e } :=
  h.trans ⟨fun _ => rfl, fun _ => rfl, fun _ => rfl, fun _ => rfl, fun _ => rfl, fun _ => rfl, fun _ => rfl, fun _ => rfl, fun _ => rfl, fun _ => rfl, fun _ => rfl, fun _ => rfl, fun _ => rfl, fun _ => rfl, fun _ => rfl, fun _ => rfl, fun _ => rfl, fun _ => rfl, fun _ => rfl, fun _ => rfl, fun n => absurd i n, fun _ => rfl, fun _ => rfl, fun _ => rfl, fun _ => rfl, fun _ => rfl, fun _ => rfl, fun _ => rfl, fun c => ⟨c.regs, c.cnt, c.nor, c.recs, c.log, c.lines⟩⟩
theorem set_cph {m : List Part} {s x : State} {e} (h : Touches m s x) (i : Part.cph ∈ m) :
    Touches m s { x with cph := e } :=
  h.trans ⟨fun _ => rfl, fun _ => rfl, fun _ => rfl, fun _ => rfl, fun _ => rfl, fun _ => rfl, fun _ => rfl, fun _ => rfl, fun _ => rfl, fun _ => rfl, fun _ => rfl, fun _ => rfl, fun _ => rfl, fun _ => rfl, fun _ => rfl, fun _ => rfl, fun _ => rfl, fun _ => rfl, fun _ => rfl, fun _ => rfl, fun _ => rfl, fun n => absurd i n, fun _ => rfl, fun _ => rfl, fun _ => rfl, fun _ => rfl, fun _ => rfl, fun _ => rfl, fun c => ⟨c.regs, c.cnt, c.nor, c.recs, c.log, c.lines⟩⟩
theorem set_kvt {m : List Part} {s x : State} {e} (h : Touches m s x) (i : Part.kvt ∈ m) :
    Touches m s { x with kvt := e } :=
  h.trans ⟨fun _ => rfl, fun _ => rfl, fun _ => rfl, fun _ => rfl, fun _ => rfl, fun _ => rfl, fun _ => rfl, fun _ => rfl, fun _ => rfl, fun _ => rfl, fun _ => rfl, fun _ => rfl, fun _ => rfl, fun _ => rfl, fun _ => rfl, fun _ => rfl, fun _ => rfl, fun _ => rfl, fun _ => rfl, fun _ => rfl, fun _ => rfl, fun _ => rfl, fun n => absurd i n, fun _ => rfl, fun _ => rfl, fun _ => rfl, fun _ => rfl, fun _ => rfl, fun c => ⟨c.regs, c.cnt, c.nor, c.recs, c.log, c.lines⟩⟩
theorem set_yok {m : List Part} {s x : State} {e} (h : Touches m s x) (i : Part.yok ∈ m) :
    Touches m s { x with yok := e } :=
  h.trans ⟨fun _ => rfl, fun _ => rfl, fun _ => rfl, fun _ => rfl, fun _ => rfl, fun _ => rfl, fun _ => rfl, fun _ => rfl, fun _ => rfl, fun _ => rfl, fun _ => rfl, fun _ => rfl, fun _ => rfl, fun _ => rfl, fun _ => rfl, fun _ => rfl, fun _ => rfl, fun _ => rfl, fun _ => rfl, fun _ => rfl, fun _ => rfl, fun _ => rfl, fun _ => rfl, fun n => absurd i n, fun _ => rfl, fun _ => rfl, fun _ => rfl, fun _ => rfl, fun c => ⟨c.regs, c.cnt, c.nor, c.recs, c.log, c.lines⟩⟩
theorem set_held {m : List Part} {s x : State} {e} (h : Touches m s x) (i : Part.held ∈ m) :
    Touches m s { x with held := e } :=
  h.trans ⟨fun _ => rfl, fun _ => rfl, fun _ => rfl, fun _ => rfl, fun _ => rfl, fun _ => rfl, fun _ => rfl, fun _ => rfl, fun _ => rfl, fun _ => rfl, fun _ => rfl, fun _ => rfl, fun _ => rfl, fun _ => rfl, fun _ => rfl, fun _ => rfl, fun _ => rfl, fun _ => rfl, fun _ => rfl, fun _ => rfl, fun _ => rfl, fun _ => rfl, fun _ => rfl, fun _ => rfl, fun n => absurd i n, fun _ => rfl, fun _ => rfl, fun _ => rfl, fun c => ⟨c.regs, c.cnt, c.nor, c.recs, c.log, c.lines⟩⟩
theorem set_out {m : List Part} {s x : State} {e} (h : Touches m s x) (i : Part.out ∈ m) :
    Touches m s { x with out := e } :=
  h.trans ⟨fun _ => rfl, fun _ => rfl, fun _ => rfl, fun _ => rfl, fun _ => rfl, fun _ => rfl, fun _ => rfl, fun _ => rfl, fun _ => rfl, fun _ => rfl, fun _ => rfl, fun _ => rfl, fun _ => rfl, fun _ => rfl, fun _ => rfl, fun _ => rfl, fun _ => rfl, fun _ => rfl, fun _ => rfl, fun _ => rfl, fun _ => rfl, fun _ => rfl, fun _ => rfl, fun _ => rfl, fun _ => rfl, fun n => absurd i n, fun _ => rfl, fun _ => rfl, fun c => ⟨c.regs, c.cnt, c.nor, c.recs, c.log, c.lines⟩⟩
theorem set_free {m : List Part} {s x : State} {e} (h : Touches m s x) (i : Part.free ∈ m) :
    Touches m s { x with free := e } :=
  h.trans ⟨fun _ => rfl, fun _ => rfl, fun _ => rfl, fun _ => rfl, fun _ => rfl, fun _ => rfl, fun _ => rfl, fun _ => rfl, fun _ => rfl, fun _ => rfl, fun _ => rfl, fun _ => rfl, fun _ => rfl, fun _ => rfl, fun _ => rfl, fun _ => rfl, fun _ => rfl, fun _ => rfl, fun _ => rfl, fun _ => rfl, fun _ => rfl, fun _ => rfl, fun _ => rfl, fun _ => rfl, fun _ => rfl, fun _ => rfl, fun n => absurd i n, fun _ => rfl, fun c => ⟨c.regs, c.cnt, c.nor, c.recs, c.log, c.lines⟩⟩
theorem set_pending {m : List Part} {s x : State} {e} (h : Touches m s x) (i : Part.pending ∈ m) :
    Touches m s { x with pending := e } :=
  h.trans ⟨fun _ => rfl, fun _ => rfl, fun _ => rfl, fun _ => rfl, fun _ => rfl, fun _ => rfl, fun _ => rfl, fun _ => rfl, fun _ => rfl, fun _ => rfl, fun _ => rfl, fun _ => rfl, fun _ => rfl, fun _ => rfl, fun _ => rfl, fun _ => rfl, fun _ => rfl, fun _ => rfl, fun _ => rfl, fun _ => rfl, fun _ => rfl, fun _ => rfl, fun _ => rfl, fun _ => rfl, fun _ => rfl, fun _ => rfl, fun _ => rfl, fun n => absurd i n, fun c => ⟨c.regs, c.cnt, c.nor, c.recs, c.log, c.lines⟩⟩
theorem set_regs {m : List Part} {s x : State} {e} (h : Touches m s x) (i : Part.regs ∈ m)
    (w : SMap.wf regDefault x.regs = true → SMap.wf regDefault (e) = true) : Touches m s { x with regs := e } :=
  h.trans ⟨fun n => absurd i n, fun _ => rfl, fun _ => rfl, fun _ => rfl, fun _ => rfl, fun _ => rfl, fun _ => rfl, fun _ => rfl, fun _ => rfl, fun _ => rfl, fun _ => rfl, fun _ => rfl, fun _ => rfl, fun _ => rfl, fun _ => rfl, fun _ => rfl, fun _ => rfl, fun _ => rfl, fun _ => rfl, fun _ => rfl, fun _ => rfl, fun _ => rfl, fun _ => rfl, fun _ => rfl, fun _ => rfl, fun _ => rfl, fun _ => rfl, fun _ => rfl, fun c => ⟨w c.regs, c.cnt, c.nor, c.recs, c.log, c.lines⟩⟩
theorem set_cnt {m : List Part} {s x : State} {e} (h : Touches m s x) (i : Part.cnt ∈ m)
    (w : SMap.wf zeroOf x.cnt = true → SMap.wf zeroOf (e) = true) : Touches m s { x with cnt := e } :=
  h.trans ⟨fun _ => rfl, fun _ => rfl, fun n => absurd i n, fun _ => rfl, fun _ => rfl, fun _ => rfl, fun _ => rfl, fun _ => rfl, fun _ => rfl, fun _ => rfl, fun _ => rfl, fun _ => rfl, fun _ => rfl, fun _ => rfl, fun _ => rfl, fun _ => rfl, fun _ => rfl, fun _ => rfl, fun _ => rfl, fun _ => rfl, fun _ => rfl, fun _ => rfl, fun _ => rfl, fun _ => rfl, fun _ => rfl, fun _ => rfl, fun _ => rfl, fun _ => rfl, fun c => ⟨c.regs, w c.cnt, c.nor, c.recs, c.log, c.lines⟩⟩
theorem set_boot {m : List Part} {s x : State} {e} (h : Touches m s x) (i : Part.boot ∈ m)
    (w : SMap.wf norErased x.boot.nor = true → SMap.wf norErased (e.nor) = true)
    (w2 : SMap.wf noBytes x.boot.metaRecs = true → SMap.wf noBytes (e.metaRecs) = true) : Touches m s { x with boot := e } :=
  h.trans ⟨fun _ => rfl, fun _ => rfl, fun _ => rfl, fun _ => rfl, fun _ => rfl, fun _ => rfl, fun _ => rfl, fun n => absurd i n, fun _ => rfl, fun _ => rfl, fun _ => rfl, fun _ => rfl, fun _ => rfl, fun _ => rfl, fun _ => rfl, fun _ => rfl, fun _ => rfl, fun _ => rfl, fun _ => rfl, fun _ => rfl, fun _ => rfl, fun _ => rfl, fun _ => rfl, fun _ => rfl, fun _ => rfl, fun _ => rfl, fun _ => rfl, fun _ => rfl, fun c => ⟨c.regs, c.cnt, w c.nor, w2 c.recs, c.log, c.lines⟩⟩
theorem set_led {m : List Part} {s x : State} {e} (h : Touches m s x) (i : Part.led ∈ m)
    (w : SMap.wf noneOf x.led.log = true → SMap.wf noneOf (e.log) = true) : Touches m s { x with led := e } :=
  h.trans ⟨fun _ => rfl, fun _ => rfl, fun _ => rfl, fun _ => rfl, fun _ => rfl, fun _ => rfl, fun _ => rfl, fun _ => rfl, fun n => absurd i n, fun _ => rfl, fun _ => rfl, fun _ => rfl, fun _ => rfl, fun _ => rfl, fun _ => rfl, fun _ => rfl, fun _ => rfl, fun _ => rfl, fun _ => rfl, fun _ => rfl, fun _ => rfl, fun _ => rfl, fun _ => rfl, fun _ => rfl, fun _ => rfl, fun _ => rfl, fun _ => rfl, fun _ => rfl, fun c => ⟨c.regs, c.cnt, c.nor, c.recs, w c.log, c.lines⟩⟩
theorem set_mgd {m : List Part} {s x : State} {e} (h : Touches m s x) (i : Part.mgd ∈ m)
    (w : SMap.wf noneOf x.mgd.lines = true → SMap.wf noneOf (e.lines) = true) : Touches m s { x with mgd := e } :=
  h.trans ⟨fun _ => rfl, fun _ => rfl, fun _ => rfl, fun _ => rfl, fun _ => rfl, fun _ => rfl, fun _ => rfl, fun _ => rfl, fun _ => rfl, fun _ => rfl, fun _ => rfl, fun _ => rfl, fun _ => rfl, fun _ => rfl, fun _ => rfl, fun _ => rfl, fun _ => rfl, fun _ => rfl, fun _ => rfl, fun n => absurd i n, fun _ => rfl, fun _ => rfl, fun _ => rfl, fun _ => rfl, fun _ => rfl, fun _ => rfl, fun _ => rfl, fun _ => rfl, fun c => ⟨c.regs, c.cnt, c.nor, c.recs, c.log, w c.lines⟩⟩
theorem put {m : List Part} {s x : State} {f_regs f_shadow f_cnt f_armed f_now f_ctl f_pow f_boot f_led f_hdg f_hif f_tim f_mram f_st f_fab f_line f_rows f_cls f_sch f_mgd f_asc f_cph f_kvt f_yok f_held f_out f_free f_pending}
    (c : (f_regs = x.regs ∨ Part.regs ∈ m) ∧
      (f_shadow = x.shadow ∨ Part.shadow ∈ m) ∧
      (f_cnt = x.cnt ∨ Part.cnt ∈ m) ∧
      (f_armed = x.armed ∨ Part.armed ∈ m) ∧
      (f_now = x.now ∨ Part.now ∈ m) ∧
      (f_ctl = x.ctl ∨ Part.ctl ∈ m) ∧
      (f_pow = x.pow ∨ Part.pow ∈ m) ∧
      (f_boot = x.boot ∨ Part.boot ∈ m) ∧
      (f_led = x.led ∨ Part.led ∈ m) ∧
      (f_hdg = x.hdg ∨ Part.hdg ∈ m) ∧
      (f_hif = x.hif ∨ Part.hif ∈ m) ∧
      (f_tim = x.tim ∨ Part.tim ∈ m) ∧
      (f_mram = x.mram ∨ Part.mram ∈ m) ∧
      (f_st = x.st ∨ Part.st ∈ m) ∧
      (f_fab = x.fab ∨ Part.fab ∈ m) ∧
      (f_line = x.line ∨ Part.line ∈ m) ∧
      (f_rows = x.rows ∨ Part.rows ∈ m) ∧
      (f_cls = x.cls ∨ Part.cls ∈ m) ∧
      (f_sch = x.sch ∨ Part.sch ∈ m) ∧
      (f_mgd = x.mgd ∨ Part.mgd ∈ m) ∧
      (f_asc = x.asc ∨ Part.asc ∈ m) ∧
      (f_cph = x.cph ∨ Part.cph ∈ m) ∧
      (f_kvt = x.kvt ∨ Part.kvt ∈ m) ∧
      (f_yok = x.yok ∨ Part.yok ∈ m) ∧
      (f_held = x.held ∨ Part.held ∈ m) ∧
      (f_out = x.out ∨ Part.out ∈ m) ∧
      (f_free = x.free ∨ Part.free ∈ m) ∧
      (f_pending = x.pending ∨ Part.pending ∈ m) ∧
      (SMap.wf regDefault x.regs = true → SMap.wf regDefault f_regs = true) ∧
      (SMap.wf zeroOf x.cnt = true → SMap.wf zeroOf f_cnt = true) ∧
      (SMap.wf norErased x.boot.nor = true → SMap.wf norErased f_boot.nor = true) ∧
      (SMap.wf noBytes x.boot.metaRecs = true → SMap.wf noBytes f_boot.metaRecs = true) ∧
      (SMap.wf noneOf x.led.log = true → SMap.wf noneOf f_led.log = true) ∧
      (SMap.wf noneOf x.mgd.lines = true → SMap.wf noneOf f_mgd.lines = true))
    (h : Touches m s x) : Touches m s ⟨f_regs, f_shadow, f_cnt, f_armed, f_now, f_ctl, f_pow, f_boot, f_led, f_hdg, f_hif, f_tim, f_mram, f_st, f_fab, f_line, f_rows, f_cls, f_sch, f_mgd, f_asc, f_cph, f_kvt, f_yok, f_held, f_out, f_free, f_pending⟩ := by
  obtain ⟨c_regs, c_shadow, c_cnt, c_armed, c_now, c_ctl, c_pow, c_boot, c_led, c_hdg, c_hif, c_tim, c_mram, c_st, c_fab, c_line, c_rows, c_cls, c_sch, c_mgd, c_asc, c_cph, c_kvt, c_yok, c_held, c_out, c_free, c_pending, w_regs, w_cnt, w_boot, w_recs, w_led, w_mgd⟩ := c
  refine h.trans ⟨fun n => c_regs.resolve_right n, fun n => c_shadow.resolve_right n, fun n => c_cnt.resolve_right n, fun n => c_armed.resolve_right n, fun n => c_now.resolve_right n, fun n => c_ctl.resolve_right n, fun n => c_pow.resolve_right n, fun n => c_boot.resolve_right n, fun n => c_led.resolve_right n, fun n => c_hdg.resolve_right n, fun n => c_hif.resolve_right n, fun n => c_tim.resolve_right n, fun n => c_mram.resolve_right n, fun n => c_st.resolve_right n, fun n => c_fab.resolve_right n, fun n => c_line.resolve_right n, fun n => c_rows.resolve_right n, fun n => c_cls.resolve_right n, fun n => c_sch.resolve_right n, fun n => c_mgd.resolve_right n, fun n => c_asc.resolve_right n, fun n => c_cph.resolve_right n, fun n => c_kvt.resolve_right n, fun n => c_yok.resolve_right n, fun n => c_held.resolve_right n, fun n => c_out.resolve_right n, fun n => c_free.resolve_right n, fun n => c_pending.resolve_right n, fun k => ⟨w_regs k.regs, w_cnt k.cnt, w_boot k.nor, w_recs k.recs, w_led k.log, w_mgd k.lines⟩⟩

end Touches

/-! Closing records leaves the stored log alone. -/

@[simp] theorem Ledger.close_log (l : Ledger) (t : Nat) (k : Bool) (r : EvRec) : (l.close t k r).1.log = l.log := by
  unfold Ledger.close
  split
  · rfl
  · split
    · rfl
    · split <;> rfl

@[simp] theorem Ledger.closeOldest_log (l : Ledger) (t : Nat) : (l.closeOldest t).1.log = l.log := by
  unfold Ledger.closeOldest
  split
  · rfl
  · rw [Ledger.close_log]

@[simp] theorem Ledger.closeAll_log (l : Ledger) (n : Nat) : (l.closeAll n).log = l.log := by
  induction n generalizing l with
  | zero => rfl
  | succ n ih => rw [Ledger.closeAll, ih, Ledger.closeOldest_log]

@[simp] theorem Ledger.reset_log (l : Ledger) : l.reset.log = l.log := Ledger.closeAll_log l _

theorem Ledger.place_wf (l : Ledger) (k : Nat) (r : EvRec) (h : SMap.wf noneOf l.log = true) :
    SMap.wf noneOf (l.place k r).log = true := SMap.wf_set noneOf l.log k (some r) h

/-- Setting one key after another keeps canonical form. -/
theorem foldl_set_wf {α β : Type} [DecidableEq β] (d : Nat → β) (key : α → Nat) (v : α → β) (l : List α) (m : SMap β)
    (h : SMap.wf d m = true) : SMap.wf d (l.foldl (fun n i => SMap.set d n (key i) (v i)) m) = true := by
  induction l generalizing m with
  | nil => exact h
  | cons a l ih => exact ih _ (SMap.wf_set d m _ _ h)

theorem OutTouches.ite {m : List Part} {s : State} {a b : Host.Outcome State Fault Refusal} {c : Prop} [Decidable c]
    (h : OutTouches m s a) (k : OutTouches m s b) : OutTouches m s (if c then a else b) := by split <;> assumption

theorem OptTouches.ofSome {m : List Part} {s a : State} {p : Option State} (e : p = some a) (h : OptTouches m s p) :
    Touches m s a := by subst e; exact h

theorem OutTouches.ofNext {m : List Part} {s a : State} {p : Host.Outcome State Fault Refusal} (e : p = .next a)
    (h : OutTouches m s p) : Touches m s a := by subst e; exact h

theorem OutTouches.chain {m n : List Part} {s t : State} {o : Host.Outcome State Fault Refusal} (k : OutTouches m t o)
    (sub : m ⊆ n) (h : Touches n s t) : OutTouches n s o := by
  cases o <;> first | exact Touches.chain k sub h | exact trivial

theorem OutTouches.mono {m n : List Part} {s : State} {o : Host.Outcome State Fault Refusal} (k : OutTouches m s o)
    (sub : m ⊆ n) : OutTouches n s o := k.chain sub (Touches.rfl' n s)

theorem OptTouches.chain {m n : List Part} {s t : State} {o : Option State} (k : OptTouches m t o) (sub : m ⊆ n)
    (h : Touches n s t) : OptTouches n s o := by
  cases o <;> first | exact Touches.chain k sub h | exact trivial

theorem OptTouches.ite {m : List Part} {s : State} {a b : Option State} {c : Prop} [Decidable c]
    (h : OptTouches m s a) (k : OptTouches m s b) : OptTouches m s (if c then a else b) := by split <;> assumption

theorem OptTouches.getD {m : List Part} {s d : State} {o : Option State} (h : OptTouches m s o) (k : Touches m s d) :
    Touches m s (o.getD d) := by
  cases o <;> assumption

end Sys2Proof.Machine
end

