-- ==== Sys2Proof/Laws/TouchRegs.lean ====
section
/-! SUPPORT. What each operation of Machine/Regs.lean may touch. -/

namespace Sys2Proof.Machine

open Sys2Proof

set_option linter.unusedTactic false
set_option linter.unreachableTactic false

theorem State.wr_touches (s : State) (p1 : ℕ) (p2 : Word) :
    Touches [.regs] s (State.wr s p1 p2) := by
  unfold State.wr
  refine Touches.set_regs (x := s) ?_ (by decide) (SMap.wf_set _ _ _ _)
  exact (Touches.rfl' _ s)

theorem State.setFld_touches (s : State) (p1 : ℕ) (p2 : ℕ) (p3 : ℕ) (p4 : ℕ) :
    Touches [.regs] s (State.setFld s p1 p2 p3 p4) := by
  unfold State.setFld
  exact Touches.chain (State.wr_touches ..) (by decide) (Touches.rfl' _ s)

theorem State.setFlg_touches (s : State) (p1 : ℕ) (p2 : ℕ) (p3 : Bool) :
    Touches [.regs] s (State.setFlg s p1 p2 p3) := by
  unfold State.setFlg
  exact Touches.chain (State.setFld_touches ..) (by decide) (Touches.rfl' _ s)

theorem State.clearRegs_touches (s : State) (p1 : ℕ) (p2 : ℕ) :
    Touches [.regs] s (State.clearRegs s p1 p2) := by
  unfold State.clearRegs
  refine Touches.set_regs (x := s) ?_ (by decide) (SMap.wf_dropRange _ _ _ _)
  exact (Touches.rfl' _ s)

theorem State.result_touches (s : State) (p1 : ℕ) (p2 : ℕ) :
    Touches [.regs] s (State.result s p1 p2) := by
  unfold State.result
  exact Touches.chain (State.wr_touches ..) (by decide) (Touches.rfl' _ s)

theorem State.incBy_touches (s : State) (p1 : ℕ) (p2 : ℕ) :
    Touches [.cnt] s (State.incBy s p1 p2) := by
  unfold State.incBy
  refine Touches.set_cnt (x := s) ?_ (by decide) (SMap.wf_set _ _ _ _)
  exact (Touches.rfl' _ s)

theorem State.inc_touches (s : State) (p1 : ℕ) :
    Touches [.cnt] s (State.inc s p1) := by
  unfold State.inc
  exact Touches.chain (State.incBy_touches ..) (by decide) (Touches.rfl' _ s)

theorem State.disarm_touches (s : State) (p1 : ℕ) :
    Touches [.armed] s (State.disarm s p1) := by
  unfold State.disarm
  refine Touches.set_armed (x := s) ?_ (by decide)
  exact (Touches.rfl' _ s)

theorem State.draw_touches (s : State) :
    Touches [.free] s (State.draw s).2 := by
  unfold State.draw
  refine Touches.mk2 ?_
  refine Touches.set_free (x := s) ?_ (by decide)
  exact (Touches.rfl' _ s)

theorem State.rbgTake_touches (s : State) (p1 : ℕ) :
    Touches [.kvt, .free] s (State.rbgTake s p1).2 := by
  unfold State.rbgTake
  extract_lets -merge -underBinder +onlyGivenNames x0
  clear_value x0
  refine Touches.mk2 ?_
  apply Touches.put (x := s)
  · and_intros <;> first | exact .inr (by decide) | exact .inl rfl | exact SMap.wf_set _ _ _ _ | exact SMap.wf_dropRange _ _ _ _ | exact SMap.wf_filter _ _ _ | exact fun h => by rw [Ledger.reset_log]; exact h | exact id | exact fun _ => rfl
  · exact (Touches.rfl' _ s)

theorem State.emit_touches (s : State) (p1 : Output) :
    Touches [.out] s (State.emit s p1) := by
  unfold State.emit
  refine Touches.set_out (x := s) ?_ (by decide)
  exact (Touches.rfl' _ s)

theorem State.dma_touches (s : State) (p1 : ℕ) (p2 : Bool) (p3 : ℕ) (p4 : List Byte) :
    Touches [.out] s (State.dma s p1 p2 p3 p4) := by
  unfold State.dma
  exact Touches.chain (State.emit_touches ..) (by decide) (Touches.rfl' _ s)

theorem State.emitCell_touches (s : State) (p1 : ℕ) (p2 : DCell) :
    Touches [.out] s (State.emitCell s p1 p2) := by
  unfold State.emitCell
  refine Touches.ite ?_ ?_
  · exact (Touches.rfl' _ s)
  · exact Touches.chain (State.emit_touches ..) (by decide) (Touches.rfl' _ s)

theorem State.fillCells_touches (s : State) (p1 : ℕ) :
    Touches [.yok, .out] s (State.fillCells s p1) := by
  unfold State.fillCells
  split
  · exact (Touches.rfl' _ s)
  · refine Touches.ite ?_ ?_
    · exact (Touches.rfl' _ s)
    · split
      · exact (Touches.rfl' _ s)
      · extract_lets -merge -underBinder +onlyGivenNames x0
        clear_value x0
        refine Touches.chain (State.fillCells_touches ..) (by decide) ?_
        refine Touches.chain (State.emitCell_touches ..) (by decide) ?_
        refine Touches.set_yok (x := s) ?_ (by decide)
        exact (Touches.rfl' _ s)

theorem State.sendDithal_touches (s : State) (p1 : ℕ) (p2 : List Byte) :
    Touches [.yok, .out] s (State.sendDithal s p1 p2) := by
  unfold State.sendDithal
  refine Touches.ite ?_ ?_
  · extract_lets -merge -underBinder +onlyGivenNames x0
    extract_lets -merge -underBinder +onlyGivenNames x1
    have hx1 : Touches [.yok, .out] s x1 := by
      unfold x1
      exact Touches.chain (State.emit_touches ..) (by decide) (Touches.rfl' _ s)
    clear_value x1
    refine Touches.chain (State.fillCells_touches ..) (by decide) ?_
    refine Touches.set_yok (x := x1) ?_ (by decide)
    exact hx1
  · exact (Touches.rfl' _ s)

theorem State.convey_touches (s : State) (p1 : ℕ) (p2 : List Byte) :
    Touches [.yok, .out] s (State.convey s p1 p2) := by
  unfold State.convey
  refine Touches.ite ?_ ?_
  · exact Touches.chain (State.sendDithal_touches ..) (by decide) (Touches.rfl' _ s)
  · exact (Touches.rfl' _ s)

theorem State.report_touches (s : State) (p1 : ℕ) (p2 : List Byte) :
    Touches [.yok, .out] s (State.report s p1 p2) := by
  unfold State.report
  refine Touches.ite ?_ ?_
  · exact Touches.chain (State.sendDithal_touches ..) (by decide) (Touches.rfl' _ s)
  · exact (Touches.rfl' _ s)

end Sys2Proof.Machine
end

