-- ==== Sys2Proof/Laws/TouchNote.lean ====
section
/-! SUPPORT. What each operation of Machine/Note.lean may touch. -/

namespace Sys2Proof.Machine

open Sys2Proof

set_option linter.unusedTactic false
set_option linter.unreachableTactic false

theorem State.fire_touches (s : State) (p1 : ℕ) :
    Touches [.hif, .out] s (State.fire s p1) := by
  unfold State.fire
  refine Touches.ite ?_ ?_
  · refine Touches.set_hif (x := s) ?_ (by decide)
    exact (Touches.rfl' _ s)
  · exact Touches.chain (State.emit_touches ..) (by decide) (Touches.rfl' _ s)

theorem State.signal_touches (s : State) (p1 : ℕ) (p2 : ℕ) :
    Touches [.hif, .out] s (State.signal s p1 p2) := by
  unfold State.signal
  extract_lets -merge -underBinder +onlyGivenNames x0 x1 x2
  clear_value x0 x1 x2
  refine Touches.ite ?_ ?_
  · refine Touches.chain (State.fire_touches ..) (by decide) ?_
    refine Touches.set_hif (x := s) ?_ (by decide)
    exact (Touches.rfl' _ s)
  · refine Touches.set_hif (x := s) ?_ (by decide)
    exact (Touches.rfl' _ s)

theorem State.ringPut_touches (s : State) (p1 : ℕ) (p2 : ℕ) (p3 : ℕ) (p4 : List Byte) :
    Touches [.hif, .out] s (State.ringPut s p1 p2 p3 p4) := by
  unfold State.ringPut
  extract_lets -merge -underBinder +onlyGivenNames x0 x1
  clear_value x0 x1
  extract_lets -merge -underBinder +onlyGivenNames x2
  have hx2 : Touches [.hif, .out] s x2 := by
    unfold x2
    exact Touches.chain (State.dma_touches ..) (by decide) (Touches.rfl' _ s)
  clear_value x2
  refine Touches.set_hif (x := x2) ?_ (by decide)
  exact hx2

theorem State.stageLost_touches (s : State) :
    Touches [.regs] s (State.stageLost s) := by
  unfold State.stageLost
  exact Touches.chain (State.setFld_touches ..) (by decide) (Touches.rfl' _ s)

theorem State.driveAlert_touches (s : State) :
    Touches [.pow, .out] s (State.driveAlert s) := by
  unfold State.driveAlert
  extract_lets -merge -underBinder +onlyGivenNames x0
  clear_value x0
  refine Touches.ite ?_ ?_
  · exact (Touches.rfl' _ s)
  · refine Touches.chain (State.emit_touches ..) (by decide) ?_
    refine Touches.set_pow (x := s) ?_ (by decide)
    exact (Touches.rfl' _ s)

theorem State.alert_touches (s : State) (p1 : ℕ) :
    Touches [.regs, .pow, .hif, .out] s (State.alert s p1) := by
  unfold State.alert
  extract_lets -merge -underBinder +onlyGivenNames x0
  clear_value x0
  refine Touches.ite ?_ ?_
  · exact (Touches.rfl' _ s)
  · refine Touches.ite ?_ ?_
    · exact (Touches.rfl' _ s)
    · extract_lets -merge -underBinder +onlyGivenNames x1
      have hx1 : Touches [.regs, .pow, .hif, .out] s x1 := by
        unfold x1
        refine Touches.chain (State.fire_touches ..) (by decide) ?_
        refine Touches.chain (State.driveAlert_touches ..) (by decide) ?_
        exact Touches.chain (State.setFlg_touches ..) (by decide) (Touches.rfl' _ s)
      clear_value x1
      refine Touches.ite ?_ ?_
      · exact Touches.chain (State.emit_touches ..) (by decide) hx1
      · exact hx1

theorem State.postTo_touches (s : State) (p1 : ℕ) (p2 : EvRec) :
    Touches [.cnt, .hif, .out] s (State.postTo s p1 p2).1 := by
  unfold State.postTo
  refine Touches.ite1 ?_ ?_
  · refine Touches.mk1 ?_
    exact (Touches.rfl' _ s)
  · refine Touches.ite1 ?_ ?_
    · extract_lets -merge -underBinder +onlyGivenNames x0
      clear_value x0
      extract_lets -merge -underBinder +onlyGivenNames x1
      clear_value x1
      refine Touches.mk1 ?_
      refine Touches.chain (State.inc_touches ..) (by decide) ?_
      refine Touches.set_hif (x := s) ?_ (by decide)
      exact (Touches.rfl' _ s)
    · extract_lets -merge -underBinder +onlyGivenNames x2
      have hx2 : Touches [.cnt, .hif, .out] s x2 := by
        unfold x2
        exact Touches.chain (State.ringPut_touches ..) (by decide) (Touches.rfl' _ s)
      clear_value x2
      extract_lets -merge -underBinder +onlyGivenNames x3
      clear_value x3
      extract_lets -merge -underBinder +onlyGivenNames x4
      have hx4 : Touches [.cnt, .hif, .out] s x4 := by
        unfold x4
        refine Touches.set_hif (x := x2) ?_ (by decide)
        exact hx2
      clear_value x4
      refine Touches.mk1 ?_
      refine Touches.chain (State.signal_touches ..) (by decide) ?_
      exact Touches.chain (State.inc_touches ..) (by decide) hx4

theorem State.postAll_touches (s : State) (p1 : EvRec) (p2 : List ℕ) :
    Touches [.cnt, .hif, .out] s (State.postAll s p1 p2).1 := by
  unfold State.postAll
  split
  · refine Touches.mk1 ?_
    exact (Touches.rfl' _ s)
  · split
    rename_i v0 v1 v2 e3
    have hv1 : Touches [.cnt, .hif, .out] s v1 := by
      refine Touches.ofFst e3 ?_
      exact Touches.chain (State.postTo_touches ..) (by decide) (Touches.rfl' _ s)
    split
    rename_i v4 v5 v6 e7
    have hv5 : Touches [.cnt, .hif, .out] s v5 := by
      refine Touches.ofFst e7 ?_
      refine Touches.chain (State.postAll_touches ..) (by decide) ?_
      exact hv1
    exact hv5

theorem State.noteCore_touches (s : State) (p1 : ℕ × ℕ × Bool) (p2 : ℕ) (p3 : ℕ) (p4 : ℕ) (p5 : List ℕ) (p6 : List Byte) :
    Touches [.regs, .cnt, .pow, .led, .hif, .out] s (State.noteCore s p1 p2 p3 p4 p5 p6).1 := by
  unfold State.noteCore
  refine Touches.ite1 ?_ ?_
  · refine Touches.mk1 ?_
    exact (Touches.rfl' _ s)
  · extract_lets -merge -underBinder +onlyGivenNames x0
    extract_lets -merge -underBinder +onlyGivenNames x1
    clear_value x1
    split
    · refine Touches.mk1 ?_
      refine Touches.set_led (x := s) ?_ (by decide) id
      exact (Touches.rfl' _ s)
    · split
      extract_lets -merge -underBinder +onlyGivenNames x2 x3
      clear_value x2 x3
      extract_lets -merge -underBinder +onlyGivenNames x4
      extract_lets -merge -underBinder +onlyGivenNames x5
      clear_value x5
      split
      extract_lets -merge -underBinder +onlyGivenNames x6
      have hx6 : Touches [.regs, .cnt, .pow, .led, .hif, .out] s x6 := by
        unfold x6
        refine Touches.set_led (x := s) ?_ (by decide) (by intro h; rename_i e; have q := congrArg (fun p : Ledger × Bool => p.1.log) e; dsimp only at q; rw [← q]; (repeat' split); all_goals first | exact h | (rw [Ledger.close_log]; exact h) | (show SMap.wf noneOf (Ledger.closeOldest _ _).1.log = true; rw [Ledger.closeOldest_log]; exact h))
        exact (Touches.rfl' _ s)
      clear_value x6
      extract_lets -merge -underBinder +onlyGivenNames x7
      have hx7 : Touches [.regs, .cnt, .pow, .led, .hif, .out] s x7 := by
        unfold x7
        refine Touches.ite ?_ ?_
        · exact Touches.chain (State.stageLost_touches ..) (by decide) hx6
        · exact hx6
      clear_value x7
      split
      rename_i v8 v9 v10 e11
      have hv9 : Touches [.regs, .cnt, .pow, .led, .hif, .out] s v9 := by
        refine Touches.ofFst e11 ?_
        refine Touches.ite1 ?_ ?_
        · exact Touches.chain (State.postAll_touches ..) (by decide) hx7
        · exact hx7
      refine Touches.mk1 ?_
      exact Touches.chain (State.alert_touches ..) (by decide) hv9

theorem State.suspectAfter_touches (s : State) (p1 : ℕ) (p2 : ℕ) :
    Touches [.yok] s (State.suspectAfter s p1 p2) := by
  unfold State.suspectAfter
  refine Touches.ite ?_ ?_
  · refine Touches.set_yok (x := s) ?_ (by decide)
    exact (Touches.rfl' _ s)
  · exact (Touches.rfl' _ s)

theorem State.noteAt_touches (s : State) (p1 : ℕ × ℕ × Bool) (p2 : ℕ) (p3 : ℕ) (p4 : ℕ) (p5 : List ℕ) (p6 : List Byte) :
    Touches Part.note s (State.noteAt s p1 p2 p3 p4 p5 p6) := by
  unfold State.noteAt
  extract_lets -merge -underBinder +onlyGivenNames x0
  have hx0 : Touches Part.note s x0 := by
    unfold x0
    exact Touches.chain (State.suspectAfter_touches ..) (by decide) (Touches.rfl' _ s)
  clear_value x0
  extract_lets -merge -underBinder +onlyGivenNames x1
  clear_value x1
  split
  rename_i v2 v3 v4 v5 e6
  have hv3 : Touches Part.note s v3 := by
    refine Touches.ofFst e6 ?_
    exact Touches.chain (State.noteCore_touches ..) (by decide) hx0
  extract_lets -merge -underBinder +onlyGivenNames x7
  have hx7 : Touches Part.note s x7 := by
    unfold x7
    refine Touches.ite ?_ ?_
    · exact Touches.chain (State.noteCore_touches ..) (by decide) hv3
    · exact hv3
  clear_value x7
  refine Touches.ite ?_ ?_
  · extract_lets -merge -underBinder +onlyGivenNames x8
    extract_lets -merge -underBinder +onlyGivenNames x9
    have hx9 : Touches Part.note s x9 := by
      unfold x9
      refine Touches.set_led (x := x7) ?_ (by decide) id
      exact hx7
    clear_value x9
    exact Touches.chain (State.noteCore_touches ..) (by decide) hx9
  · exact hx7

theorem State.noteAs_touches (s : State) (p1 : ℕ) (p2 : ℕ) (p3 : ℕ) (p4 : List ℕ) (p5 : List Byte) :
    Touches Part.note s (State.noteAs s p1 p2 p3 p4 p5) := by
  unfold State.noteAs
  exact Touches.chain (State.noteAt_touches ..) (by decide) (Touches.rfl' _ s)

theorem State.note_touches (s : State) (p1 : EvKind) (p2 : List Byte) :
    Touches Part.note s (State.note s p1 p2) := by
  unfold State.note
  exact Touches.chain (State.noteAs_touches ..) (by decide) (Touches.rfl' _ s)

theorem State.noteFor_touches (s : State) (p1 : EvKind) (p2 : ℕ) (p3 : List Byte) :
    Touches Part.note s (State.noteFor s p1 p2 p3) := by
  unfold State.noteFor
  exact Touches.chain (State.noteAs_touches ..) (by decide) (Touches.rfl' _ s)

theorem State.reportMode_touches (s : State) (p1 : Mode) :
    Touches [.yok, .out] s (State.reportMode s p1) := by
  unfold State.reportMode
  exact Touches.chain (State.report_touches ..) (by decide) (Touches.rfl' _ s)

theorem State.setMode_touches (s : State) (p1 : Mode) :
    Touches [.regs, .cnt, .ctl, .pow, .led, .hif, .yok, .out] s (State.setMode s p1) := by
  unfold State.setMode
  extract_lets -merge -underBinder +onlyGivenNames x0
  clear_value x0
  refine Touches.ite ?_ ?_
  · exact (Touches.rfl' _ s)
  · extract_lets -merge -underBinder +onlyGivenNames x1
    have hx1 : Touches [.regs, .cnt, .ctl, .pow, .led, .hif, .yok, .out] s x1 := by
      unfold x1
      refine Touches.ite ?_ ?_
      · exact (Touches.rfl' _ s)
      · exact Touches.chain (State.reportMode_touches ..) (by decide) (Touches.rfl' _ s)
    clear_value x1
    extract_lets -merge -underBinder +onlyGivenNames x2
    clear_value x2
    extract_lets -merge -underBinder +onlyGivenNames x3
    have hx3 : Touches [.regs, .cnt, .ctl, .pow, .led, .hif, .yok, .out] s x3 := by
      unfold x3
      refine Touches.set_ctl (x := x1) ?_ (by decide)
      exact hx1
    clear_value x3
    exact Touches.chain (State.note_touches ..) (by decide) hx3

end Sys2Proof.Machine
end

