-- ==== Sys2Proof/Laws/Writes.lean ====
section
/-! SUPPORT. Reads after register writes; what recording an event leaves in the registers and the event counts; the gates of
host writes and commands passed. -/

namespace Sys2Proof.Machine
open Sys2Proof

@[simp] theorem rd_wr_self (s : State) (k : Nat) (v : Word) : (s.wr k v).rd k = v := SMap.get_set_self ..
theorem rd_wr_ne (s : State) (k j : Nat) (v : Word) (h : j ≠ k) : (s.wr k v).rd j = s.rd j := SMap.get_set_ne _ _ _ _ _ h

theorem rd_of_regs {s t : State} (h : t.regs = s.regs) (k : Nat) : t.rd k = s.rd k := by unfold State.rd; rw [h]

theorem rd_setFld_ne (s : State) (k hi lo v j : Nat) (h : j ≠ k) : (s.setFld k hi lo v).rd j = s.rd j := rd_wr_ne _ _ _ _ h
theorem rd_setFlg_ne (s : State) (k b : Nat) (v : Bool) (j : Nat) (h : j ≠ k) : (s.setFlg k b v).rd j = s.rd j := rd_wr_ne _ _ _ _ h

theorem alert_rd (s : State) (l k : Nat) (h : k ≠ Reg.stwAlert) : (s.alert l).rd k = s.rd k := by
  unfold State.alert
  extract_lets m
  split
  · rfl
  split
  · rfl
  have a : (((s.setFlg Reg.stwAlert 8 true).driveAlert).fire 3).rd k = s.rd k := by
    rw [rd_of_regs ((State.fire_touches ..).regs (by decide)), rd_of_regs ((State.driveAlert_touches ..).regs (by decide)),
      rd_setFlg_ne _ _ _ _ _ h]
  split
  · exact (rd_of_regs ((State.emit_touches ..).regs (by decide)) k).trans a
  · exact a

/-- The record formed anew for an event that occurred at time t. -/
def rcdOf (s : State) (t : Nat × Nat × Bool) (c l a : Nat) (p : List Byte) : EvRec :=
  ⟨c, l, (s.led.bump c).seq, t.1, t.2.1, t.2.2, 0, 0, a, s.ctl.mode.code, p⟩

/-- The Ledger of a record formed anew, and whether staging lost one. -/
def formed (s : State) (t : Nat × Nat × Bool) (c l a : Nat) (p : List Byte) : Ledger × Bool :=
  let led := s.led.bump c
  let keep := decide (clamp 0 5 (s.fld Reg.logCfg 26 24) ≤ l)
  let led := { led with seq := led.seq + 1 }
  if decide (l ≤ 2) && s.flg Reg.logCfg 30 then
    let x := if led.opened.length < openCap then (led, false) else led.closeOldest s.now
    ({ x.1 with opened := x.1.opened ++ [⟨s.now, keep, rcdOf s t c l a p⟩] }, x.2)
  else led.close s.now keep (rcdOf s t c l a p)

theorem noteCore_cases (s : State) (t : Nat × Nat × Bool) (c l a : Nat) (o : List Nat) (p : List Byte) (h : s.ctl.mode ≠ .sentry) :
    (∃ os, (s.noteCore t c l a o p) = ({ s with led := { s.led.bump c with opened := os } }, false, false)) ∨
    ∃ x : State, x = { s with led := (formed s t c l a p).1 } ∧
      (s.noteCore t c l a o p).1 =
        State.alert (if 1 ≤ l then (if (formed s t c l a p).2 then x.stageLost else x).postAll
          (rcdOf s t c l a p) (0 :: o.filter (· != 0))
          else ((if (formed s t c l a p).2 then x.stageLost else x), false)).1 l := by
  unfold State.noteCore
  rw [if_neg h]
  extract_lets led folds
  split
  · rename_i os e
    exact .inl ⟨os, rfl⟩
  · right
    exact ⟨_, rfl, rfl⟩

@[simp] theorem close_evc (l : Ledger) (n : Nat) (k : Bool) (r : EvRec) : (l.close n k r).1.evc = l.evc := by
  unfold Ledger.close; split
  · rfl
  · split
    · rfl
    · split <;> rfl

@[simp] theorem closeOldest_evc (l : Ledger) (n : Nat) : (l.closeOldest n).1.evc = l.evc := by
  unfold Ledger.closeOldest; split
  · rfl
  · rw [close_evc]

theorem formed_evc (s : State) (t : Nat × Nat × Bool) (c l a : Nat) (p : List Byte) :
    (formed s t c l a p).1.evc = (s.led.bump c).evc := by
  unfold formed
  dsimp only
  split
  · split
    · rfl
    · exact closeOldest_evc _ _
  · exact close_evc _ _ _ _

theorem stageLost_rd (s : State) (k : Nat) (h : k ≠ Reg.logLost) : s.stageLost.rd k = s.rd k := rd_setFld_ne _ _ _ _ _ _ h

theorem ifpost (c : Prop) [Decidable c] (x : State) (r : EvRec) (o : List Nat) :
    Touches [.cnt, .hif, .out] x (if c then x.postAll r o else (x, false)).1 := by
  split
  · exact State.postAll_touches ..
  · exact Touches.rfl' _ _

theorem noteCore_rd (s : State) (t : Nat × Nat × Bool) (c l a : Nat) (o : List Nat) (p : List Byte) (k : Nat)
    (h1 : k ≠ Reg.stwAlert) (h2 : k ≠ Reg.logLost) : (s.noteCore t c l a o p).1.rd k = s.rd k := by
  by_cases h : s.ctl.mode = .sentry
  · unfold State.noteCore; rw [if_pos h]
  · obtain ⟨os, e⟩ | ⟨x, hx, e⟩ := noteCore_cases s t c l a o p h
    · rw [e]; rfl
    · rw [e, alert_rd _ _ _ h1, rd_of_regs ((ifpost _ _ _ _).regs (by decide))]
      split
      · rw [stageLost_rd _ _ h2, hx]; rfl
      · rw [hx]; rfl

theorem noteCore_evc (s : State) (t : Nat × Nat × Bool) (c l a : Nat) (o : List Nat) (p : List Byte) (h : s.ctl.mode ≠ .sentry) :
    (s.noteCore t c l a o p).1.led.evc = (s.led.bump c).evc := by
  obtain ⟨os, e⟩ | ⟨x, hx, e⟩ := noteCore_cases s t c l a o p h
  · rw [e]
  · rw [e, (State.alert_touches ..).led (by decide), (ifpost _ _ _ _).led (by decide)]
    split
    · show x.led.evc = _; rw [hx, formed_evc]
    · rw [hx, formed_evc]

theorem noteCore_mode (s : State) (t : Nat × Nat × Bool) (c l a : Nat) (o : List Nat) (p : List Byte) :
    (s.noteCore t c l a o p).1.ctl = s.ctl :=
  (State.noteCore_touches ..).ctl (by decide)

theorem get_bump (l : Ledger) (c k : Nat) :
    SMap.get zeroOf (l.bump c).evc k = if k = c then satAdd (2 ^ 48 - 1) (SMap.get zeroOf l.evc c) 1 else SMap.get zeroOf l.evc k := by
  exact SMap.get_set ..

theorem suspect_rd (s : State) (c l k : Nat) : (s.suspectAfter c l).rd k = s.rd k :=
  rd_of_regs ((State.suspectAfter_touches ..).regs (by decide)) k

theorem noteAs_rd (s : State) (c l a : Nat) (o : List Nat) (p : List Byte) (k : Nat) (h1 : k ≠ Reg.stwAlert) (h2 : k ≠ Reg.logLost) :
    (s.noteAs c l a o p).rd k = s.rd k := by
  unfold State.noteAs
  generalize s.logTime = t
  unfold State.noteAt
  extract_lets s1 p1
  have e : (s1.noteCore t c l a o p1).1.rd k = s.rd k := by rw [noteCore_rd _ _ _ _ _ _ _ _ h1 h2]; exact suspect_rd ..
  generalize s1.noteCore t c l a o p1 = x at e ⊢
  obtain ⟨s2, lost, dropped⟩ := x
  dsimp only at e ⊢
  have e3 : (if dropped = true then (s2.noteCore t Ev.eventRingOverflow.code 0 255 [] []).1 else s2).rd k = s.rd k := by
    split
    · rw [noteCore_rd _ _ _ _ _ _ _ _ h1 h2, e]
    · exact e
  generalize (if dropped = true then (s2.noteCore t Ev.eventRingOverflow.code 0 255 [] []).1 else s2) = s3 at e3 ⊢
  split
  · rw [noteCore_rd _ _ _ _ _ _ _ _ h1 h2]; exact e3
  · exact e3

theorem noteAs_evc (s : State) (c l a : Nat) (o : List Nat) (p : List Byte) (k : Nat) (h : s.ctl.mode ≠ .sentry)
    (h1 : k ≠ Ev.eventRingOverflow.code) (h2 : k ≠ Ev.logStageLost.code) :
    SMap.get zeroOf (s.noteAs c l a o p).led.evc k = SMap.get zeroOf (s.led.bump c).evc k := by
  unfold State.noteAs
  generalize s.logTime = t
  unfold State.noteAt
  extract_lets s1 p1
  have hm : s1.ctl = s.ctl := (State.suspectAfter_touches ..).ctl (by decide)
  have hl : s1.led = s.led := (State.suspectAfter_touches ..).led (by decide)
  have e := noteCore_evc s1 t c l a o p1 (by rw [hm]; exact h)
  have em := noteCore_mode s1 t c l a o p1
  rw [hl] at e; rw [hm] at em
  generalize s1.noteCore t c l a o p1 = x at e em ⊢
  obtain ⟨s2, lost, dropped⟩ := x
  dsimp only at e em ⊢
  have e3 : SMap.get zeroOf (if dropped = true then (s2.noteCore t Ev.eventRingOverflow.code 0 255 [] []).1 else s2).led.evc k =
      SMap.get zeroOf (s.led.bump c).evc k := by
    split
    · rw [noteCore_evc _ _ _ _ _ _ _ (by rw [em]; exact h), get_bump, if_neg h1, e]
    · rw [e]
  have m3 : (if dropped = true then (s2.noteCore t Ev.eventRingOverflow.code 0 255 [] []).1 else s2).ctl = s.ctl := by
    split
    · rw [noteCore_mode, em]
    · exact em
  generalize (if dropped = true then (s2.noteCore t Ev.eventRingOverflow.code 0 255 [] []).1 else s2) = s3 at e3 m3 ⊢
  split
  · rw [noteCore_evc _ _ _ _ _ _ _ (by show s3.ctl.mode ≠ _; rw [m3]; exact h), get_bump, if_neg h2]; exact e3
  · exact e3

/-- An event counts once in its own counter and in no other, but for the two reports that recording itself gives rise to. -/
theorem noteAs_events (s : State) (c l a : Nat) (o : List Nat) (p : List Byte) (k : EvKind) (h : s.ctl.mode ≠ .sentry)
    (h1 : k.code ≠ Ev.eventRingOverflow.code) (h2 : k.code ≠ Ev.logStageLost.code) :
    (s.noteAs c l a o p).events k = if k.code = c then satAdd (2 ^ 48 - 1) (s.events k) 1 else s.events k := by
  unfold State.events
  rw [noteAs_evc s c l a o p k.code h h1 h2, get_bump]
  split
  · next e => rw [e]
  · rfl

theorem note_events (s : State) (e : EvKind) (p : List Byte) (k : EvKind) (h : s.ctl.mode ≠ .sentry)
    (h1 : k.code ≠ Ev.eventRingOverflow.code) (h2 : k.code ≠ Ev.logStageLost.code) :
    (s.note e p).events k = if k.code = e.code then satAdd (2 ^ 48 - 1) (s.events k) 1 else s.events k :=
  noteAs_events _ _ _ _ _ _ _ h h1 h2
theorem noteFor_events (s : State) (e : EvKind) (ow : Nat) (p : List Byte) (k : EvKind) (h : s.ctl.mode ≠ .sentry)
    (h1 : k.code ≠ Ev.eventRingOverflow.code) (h2 : k.code ≠ Ev.logStageLost.code) :
    (s.noteFor e ow p).events k = if k.code = e.code then satAdd (2 ^ 48 - 1) (s.events k) 1 else s.events k :=
  noteAs_events _ _ _ _ _ _ _ h h1 h2
theorem note_rd (s : State) (e : EvKind) (p : List Byte) (k : Nat) (h1 : k ≠ Reg.stwAlert) (h2 : k ≠ Reg.logLost) :
    (s.note e p).rd k = s.rd k := noteAs_rd _ _ _ _ _ _ _ h1 h2
theorem noteFor_rd (s : State) (e : EvKind) (ow : Nat) (p : List Byte) (k : Nat) (h1 : k ≠ Reg.stwAlert) (h2 : k ≠ Reg.logLost) :
    (s.noteFor e ow p).rd k = s.rd k := noteAs_rd _ _ _ _ _ _ _ h1 h2

theorem events_of_led {s t : State} (h : t.led = s.led) (k : EvKind) : t.events k = s.events k := by unfold State.events; rw [h]

/-! ## Gates -/

theorem ite_same {α : Sort*} {c : Prop} [Decidable c] {a b x : α} (h1 : a = x) (h2 : b = x) : (if c then a else b) = x := by
  split <;> assumption


theorem hostWrite_of_reaches {s : State} {p : Path} {off : Nat} (v : Word) (act : State → State) (h : s.Reaches p off)
    (c : conveyed off = false) : s.hostWrite p off v act = act (s.disarm (off / 0x100000)) := by
  obtain ⟨h1, h2, h3⟩ := h
  have h1' : ¬(p = .i3c ∧ off / 0x100000 ≠ 1 ∧ off / 0x100000 ≠ 13) := by
    rintro ⟨rfl, a, b⟩
    obtain h | ⟨_, h | h⟩ := h1
    · cases h
    · exact a h
    · exact b h
  unfold State.hostWrite
  rcases h1 with rfl | ⟨rfl, _⟩ <;> simp [h2, c, State.touchArm] <;> simp_all

/-- The same for a conveyed register on a module that is not a lead. -/
theorem hostWrite_of_reaches' {s : State} {p : Path} {off : Nat} (v : Word) (act : State → State) (h : s.Reaches p off)
    (c : (act (s.disarm (off / 0x100000))).ctl.mode ≠ .yokeLead) : s.hostWrite p off v act = act (s.disarm (off / 0x100000)) := by
  obtain ⟨h1, h2, h3⟩ := h
  have hc : ∀ (t : State) (a : Nat) (b : List Byte), t.ctl.mode ≠ .yokeLead → t.convey a b = t := by
    intro t a b h; unfold State.convey; rw [if_neg h]
  have hf : ¬((s.disarm (off / 0x100000)).isFollower = true ∧ conveyed off = true) := h3
  unfold State.hostWrite
  rcases h1 with rfl | ⟨rfl, h1⟩
  · simp only [reduceCtorEq, false_and, if_false, h2, Bool.true_eq_false]
    refine (if_neg hf).trans ?_
    exact ite_same (hc _ _ _ c) rfl
  · have h1' : ¬(off / 0x100000 ≠ 1 ∧ off / 0x100000 ≠ 13) := by omega
    simp only [true_and, h1', if_false, h2, Bool.true_eq_false]
    refine (if_neg hf).trans ?_
    exact ite_same (hc _ _ _ c) rfl

theorem cmdWrite_of_takes {s : State} {p : Path} {off : Nat} (i : Instr) (act : Nat → State → State) (h : s.Takes p off) :
    s.cmdWrite i p off act = (act p.allot s).disarm (off / 0x100000) := by
  obtain ⟨h1, h2, h3, h4, h5, h6⟩ := h
  unfold State.cmdWrite
  have : ¬(p.allot ≠ 0 ∧ (s.ctl.mode = .zeroized ∨ s.allotExists p.allot = false)) := by
    rintro ⟨a, b⟩
    obtain ⟨c, d⟩ := h2 a
    rcases b with b | b
    · exact c b
    · rw [d] at b; cases b
  simp only [h1, if_false, this, h3, Bool.true_eq_false]
end Sys2Proof.Machine
end

