-- ==== Sys2Proof/Laws/Bits.lean ====
section
/-! SUPPORT. Fields of a word after a field is set; a plain register write past its gates. -/

namespace Sys2Proof.Machine

open Sys2Proof

theorem resp_mode {s : State} {u : Nat} (h : s.unitResponds u = true) : s.ctl.mode ≠ .sentry := by
  intro e; unfold State.unitResponds at h; rw [e] at h; cases h

theorem bits_setBits (w : Word) (hi lo v : Nat) (h : hi < 32) (hl : lo ≤ hi) (hv : v < 2 ^ (hi + 1 - lo)) : bits (setBits w hi lo v) hi lo = v := by
  unfold bits setBits maskBits
  rw [Nat.mod_eq_of_lt hv]
  have e : ∀ i, i < hi + 1 - lo → (((w &&& ~~~BitVec.ofNat 32 ((2 ^ (hi + 1 - lo) - 1) * 2 ^ lo)) ||| BitVec.ofNat 32 (v * 2 ^ lo)).toNat / 2 ^ lo).testBit i = v.testBit i := by
    intro i hi'
    rw [Nat.testBit_div_two_pow, BitVec.testBit_toNat, BitVec.getLsbD_or, BitVec.getLsbD_and, BitVec.getLsbD_not, BitVec.getLsbD_ofNat, BitVec.getLsbD_ofNat,
      Nat.testBit_mul_two_pow, Nat.testBit_mul_two_pow, Nat.testBit_two_pow_sub_one]
    have : i + lo < 32 := by omega
    simp [this, hi']
  apply Nat.eq_of_testBit_eq
  intro i
  rw [Nat.testBit_mod_two_pow]
  by_cases hi' : i < hi + 1 - lo
  · simp only [hi', decide_true, Bool.true_and]; exact e i hi'
  · simp only [hi', decide_false, Bool.false_and]
    exact (Nat.testBit_lt_two_pow (lt_of_lt_of_le hv (Nat.pow_le_pow_right (by omega) (by omega)))).symm

theorem bit_setBits_out (w : Word) (hi lo v k : Nat) (h : hi < k ∨ k < lo) (hk : k < 32) : bit (setBits w hi lo v) k = bit w k := by
  unfold bit setBits maskBits
  rw [BitVec.getLsbD_or, BitVec.getLsbD_and, BitVec.getLsbD_not, BitVec.getLsbD_ofNat, BitVec.getLsbD_ofNat,
      Nat.testBit_mul_two_pow, Nat.testBit_mul_two_pow, Nat.testBit_two_pow_sub_one, Nat.testBit_mod_two_pow]
  rcases h with h | h
  · have : ¬ (k - lo < hi + 1 - lo) := by omega
    simp [hk, this]
  · have : ¬ (lo ≤ k) := by omega
    simp [hk, this]

theorem bits_setBits_out (w : Word) (hi lo v h l : Nat) (o : h < lo ∨ hi < l) (hh : h < 32) : bits (setBits w hi lo v) h l = bits w h l := by
  unfold bits
  apply Nat.eq_of_testBit_eq
  intro i
  rw [Nat.testBit_mod_two_pow, Nat.testBit_mod_two_pow, Nat.testBit_div_two_pow, Nat.testBit_div_two_pow]
  by_cases hi' : i < h + 1 - l
  · simp only [hi', decide_true, Bool.true_and]
    have := bit_setBits_out w hi lo v (i + l) (by omega) (by omega)
    unfold bit at this
    rwa [← BitVec.testBit_toNat, ← BitVec.testBit_toNat] at this
  · simp [hi']

theorem bits_lt (w : Word) (hi lo : Nat) : bits w hi lo < 2 ^ (hi + 1 - lo) := Nat.mod_lt _ (Nat.two_pow_pos _)
theorem bit_setBits_self (w : Word) (k v : Nat) (hk : k < 32) (hv : v < 2) : bit (setBits w k k v) k = (v == 1) := by
  have := bits_setBits w k k v hk (le_refl _) (by simpa using hv)
  have e : bits (setBits w k k v) k k = flag (bit (setBits w k k v) k) := by
    unfold bits bit flag
    rw [← BitVec.testBit_toNat, Nat.testBit_eq_decide_div_mod_eq]
    rw [show k + 1 - k = 1 by omega]
    have := Nat.mod_lt ((setBits w k k v).toNat / 2 ^ k) (show 0 < 2 by omega)
    split <;> simp_all
  rw [e] at this
  unfold flag at this
  split at this <;> simp_all
  subst this; decide

theorem regWrite_eq (s : State) (v : Word) (off : Nat) (r : RegRow) (ho : (BitVec.ofNat 25 off).toNat = off) (ha : off % 4 = 0)
    (hr : regRowAt off = some r) (hp : r.priv = false) (hc : isCommandReg r.base = false) (hcv : conveyed off = false)
    (hown : ∀ t : State, t.ownEffect 0 r.base (off - r.base) off v = none) (h : s.Reaches .device off) :
    exec (.registerWrite .device (BitVec.ofNat 25 off) 4 v) s = .next ((s.disarm (off / 0x100000)).plainWrite r 0 (r.index off) off v) := by
  show execRegisterWrite _ _ _ _ s = _
  unfold execRegisterWrite
  rw [ho, if_neg (by simp [ha])]
  unfold State.writeReg
  simp only [resolveOff, hr, hp, Bool.false_eq_true, if_false]
  rw [hostWrite_of_reaches _ _ h hcv]
  unfold State.regEffect
  simp only [hr, hc, Bool.false_eq_true, if_false, hown]

theorem clamp_lt (a b v w : Nat) (h : b < w) (hv : v < w) (h' : a ≤ b): clamp a b v < w := by unfold clamp; split <;> (try split) <;> omega

/-- a plain write of a register that has nothing but a clamp -/
theorem plain_eq (s : State) (v : Word) (off : Nat) (r : RegRow) (hb : r.base = off) (hp : r.priv = false) (i : Nat)
    (h1 : ∀ t : State, t.outOfBounds off i v = false) (h2 : ∀ t : State, t.writeIgnored 0 off i v = some v)
    (h3 : off ≠ Reg.yokCfg) (h4 : shapedBy off i = none)
    (h5 : ∀ (t : State) o n, t.afterWrite 0 off o n = t) (lk : Bool)
    (hl : (match lockRegOf (off / 0x100000) with | some l => s.flg l 31 | none => false) = lk) :
    s.plainWrite r 0 i off v =
      ((if lockHit r.fields lk then s.lockIgnored off else s).wr off (regClamp off (mergeWrite r.fields
        ((if lockHit r.fields lk then s.lockIgnored off else s).rd off) v lk))) := by
  have sk : ∀ (t : State) (l : Bool), (if l = true then (t, v) else t.skewRefused off v) = (t, v) := by
    intro t l; split
    · rfl
    · unfold State.skewRefused; simp [h3]
  subst hl
  unfold State.plainWrite
  simp only [hb, h1, h2, hp, Bool.false_eq_true, if_false, h4]
  split <;> (rename_i e; simp only [e, sk, h5])

end Sys2Proof.Machine
end

