-- ==== Sys2Proof/Laws/TouchComplete.lean ====
section
/-! SUPPORT. What each operation of Machine/Complete.lean may touch. -/

namespace Sys2Proof.Machine

open Sys2Proof

theorem State.complete_touches (s : State) (p1 : ℕ) (p2 : ℕ) (p3 : ℕ) (p4 : ℕ) (p5 : ℕ) (p6 : ℕ) (p7 : ℕ) (p8 : ℕ) :
    Touches [.cnt, .hif, .out] s (State.complete s p1 p2 p3 p4 p5 p6 p7 p8) := by
  unfold State.complete
  refine Touches.ite ?_ ?_
  · exact (Touches.rfl' _ s)
  · extract_lets -merge -underBinder +onlyGivenNames x0
    clear_value x0
    refine Touches.chain (State.signal_touches ..) (by decide) ?_
    refine Touches.chain (State.inc_touches ..) (by decide) ?_
    exact Touches.chain (State.ringPut_touches ..) (by decide) (Touches.rfl' _ s)

theorem State.cmdEnd_touches (s : State) (p1 : ℕ) (p2 : ℕ) (p3 : ℕ) (p4 : ℕ) :
    Touches Part.note s (State.cmdEnd s p1 p2 p3 p4) := by
  unfold State.cmdEnd
  extract_lets -merge -underBinder +onlyGivenNames x0
  have hx0 : Touches Part.note s x0 := by
    unfold x0
    exact Touches.chain (State.result_touches ..) (by decide) (Touches.rfl' _ s)
  clear_value x0
  split
  · exact hx0
  · extract_lets -merge -underBinder +onlyGivenNames x1
    clear_value x1
    extract_lets -merge -underBinder +onlyGivenNames x2
    have hx2 : Touches Part.note s x2 := by
      unfold x2
      refine Touches.set_hif (x := x0) ?_ (by decide)
      exact hx0
    clear_value x2
    extract_lets -merge -underBinder +onlyGivenNames x3
    clear_value x3
    refine Touches.ite ?_ ?_
    · exact Touches.chain (State.complete_touches ..) (by decide) hx2
    · refine Touches.ite ?_ ?_
      · refine Touches.chain (State.complete_touches ..) (by decide) ?_
        exact Touches.chain (State.dma_touches ..) (by decide) hx2
      · refine Touches.chain (State.complete_touches ..) (by decide) ?_
        refine Touches.chain (State.noteFor_touches ..) (by decide) ?_
        exact Touches.chain (State.inc_touches ..) (by decide) hx2

theorem State.setJob_touches (s : State) (p1 : ℕ) (p2 : Option Job) :
    Touches [.cph] s (State.setJob s p1 p2) := by
  unfold State.setJob
  refine Touches.set_cph (x := s) ?_ (by decide)
  exact (Touches.rfl' _ s)

theorem State.postJob_touches (s : State) (p1 : Job) (p2 : ℕ) (p3 : ℕ) :
    Touches [.cnt, .hif, .out] s (State.postJob s p1 p2 p3) := by
  unfold State.postJob
  extract_lets -merge -underBinder +onlyGivenNames x0
  have hx0 : Touches [.cnt, .hif, .out] s x0 := by
    unfold x0
    split
    · exact Touches.chain (State.inc_touches ..) (by decide) (Touches.rfl' _ s)
    · exact (Touches.rfl' _ s)
  clear_value x0
  extract_lets -merge -underBinder +onlyGivenNames x1
  have hx1 : Touches [.cnt, .hif, .out] s x1 := by
    unfold x1
    exact Touches.chain (State.inc_touches ..) (by decide) hx0
  clear_value x1
  extract_lets -merge -underBinder +onlyGivenNames x2
  have hx2 : Touches [.cnt, .hif, .out] s x2 := by
    unfold x2
    refine Touches.ite ?_ ?_
    · exact hx1
    · exact Touches.chain (State.inc_touches ..) (by decide) hx1
  clear_value x2
  exact Touches.chain (State.complete_touches ..) (by decide) hx2

theorem State.flushRing_touches (s : State) (p1 : ℕ) (p2 : ℕ) (p3 : ℕ) :
    Touches [.cnt, .hif, .cph, .out] s (State.flushRing s p1 p2 p3) := by
  unfold State.flushRing
  split
  · exact (Touches.rfl' _ s)
  · split
    · split
      · refine Touches.chain (State.flushRing_touches ..) (by decide) ?_
        refine Touches.chain (State.postJob_touches ..) (by decide) ?_
        exact Touches.chain (State.setJob_touches ..) (by decide) (Touches.rfl' _ s)
      · exact (Touches.rfl' _ s)
    · exact (Touches.rfl' _ s)

theorem State.flushAll_touches (s : State) :
    Touches [.cnt, .hif, .cph, .out] s (State.flushAll s) := by
  unfold State.flushAll
  extract_lets -merge -underBinder +onlyGivenNames x0
  refine Touches.foldl _ _ ?_ (fun y1 a1 hy1 => ?_)
  · exact (Touches.rfl' _ s)
  · exact Touches.chain (State.flushRing_touches ..) (by decide) hy1

end Sys2Proof.Machine
end

