-- ==== Sys2Proof/Laws/TouchStoreOps.lean ====
section
/-! SUPPORT. What each operation of Machine/StoreOps.lean may touch. -/

namespace Sys2Proof.Machine

open Sys2Proof

theorem State.defer_touches (s : State) (p1 : StoreReq) :
    Touches [.regs, .cnt, .pow, .led, .hif, .st, .yok, .out] s (State.defer s p1) := by
  unfold State.defer
  refine Touches.ite ?_ ?_
  · exact (Touches.rfl' _ s)
  · extract_lets -merge -underBinder +onlyGivenNames x0
    clear_value x0
    extract_lets -merge -underBinder +onlyGivenNames x1
    have hx1 : Touches [.regs, .cnt, .pow, .led, .hif, .st, .yok, .out] s x1 := by
      unfold x1
      refine Touches.set_st (x := s) ?_ (by decide)
      exact (Touches.rfl' _ s)
    clear_value x1
    extract_lets -merge -underBinder +onlyGivenNames x2
    have hx2 : Touches [.regs, .cnt, .pow, .led, .hif, .st, .yok, .out] s x2 := by
      unfold x2
      exact Touches.chain (State.wr_touches ..) (by decide) hx1
    clear_value x2
    exact Touches.chain (State.note_touches ..) (by decide) hx2

theorem State.tryMram_touches (s : State) (p1 : StoreReq) :
    Touches [.regs, .cnt, .pow, .led, .hif, .st, .yok, .out] s (State.tryMram s p1) := by
  unfold State.tryMram
  split
  · exact (Touches.rfl' _ s)
  · refine Touches.ite ?_ ?_
    · refine Touches.set_st (x := s) ?_ (by decide)
      exact (Touches.rfl' _ s)
    · exact Touches.chain (State.defer_touches ..) (by decide) (Touches.rfl' _ s)

theorem State.startMram_touches (s : State) :
    Touches [.regs, .cnt, .pow, .led, .hif, .st, .yok, .out] s (State.startMram s) := by
  unfold State.startMram
  refine Touches.ite ?_ ?_
  · exact (Touches.rfl' _ s)
  · refine Touches.ite ?_ ?_
    · refine Touches.foldl _ _ ?_ (fun y0 a0 hy0 => ?_)
      · exact (Touches.rfl' _ s)
      · exact Touches.chain (State.tryMram_touches ..) (by decide) hy0
    · split
      · exact (Touches.rfl' _ s)
      · exact Touches.chain (State.tryMram_touches ..) (by decide) (Touches.rfl' _ s)

theorem State.startNor_touches (s : State) :
    Touches [.regs, .cnt, .pow, .led, .hif, .st, .yok, .out] s (State.startNor s) := by
  unfold State.startNor
  split
  · exact (Touches.rfl' _ s)
  · split
    · exact (Touches.rfl' _ s)
    · refine Touches.ite ?_ ?_
      · refine Touches.set_st (x := s) ?_ (by decide)
        exact (Touches.rfl' _ s)
      · exact Touches.chain (State.defer_touches ..) (by decide) (Touches.rfl' _ s)

theorem State.startStores_touches (s : State) :
    Touches [.regs, .cnt, .pow, .led, .hif, .st, .yok, .out] s (State.startStores s) := by
  unfold State.startStores
  refine Touches.chain (State.startNor_touches ..) (by decide) ?_
  exact Touches.chain (State.startMram_touches ..) (by decide) (Touches.rfl' _ s)

theorem State.pushStore_touches (s : State) (p1 : StoreReq) :
    Touches [.regs, .cnt, .pow, .led, .hif, .st, .yok, .out] s (State.pushStore s p1).1 := by
  unfold State.pushStore
  refine Touches.ite1 ?_ ?_
  · refine Touches.mk1 ?_
    refine Touches.set_st (x := s) ?_ (by decide)
    exact (Touches.rfl' _ s)
  · refine Touches.mk1 ?_
    refine Touches.chain (State.startStores_touches ..) (by decide) ?_
    refine Touches.set_st (x := s) ?_ (by decide)
    exact (Touches.rfl' _ s)

end Sys2Proof.Machine
end

