-- ==== Sys2Proof/Laws/TouchResets.lean ====
section
/-! SUPPORT. What each operation of Machine/Resets.lean may touch. -/

namespace Sys2Proof.Machine

open Sys2Proof

set_option linter.unusedTactic false
set_option linter.unreachableTactic false

theorem State.squashItems_touches (s : State) (p1 : ℕ → Item → Bool) (p2 : ℕ) :
    Touches [.cnt, .hif, .sch, .asc, .cph, .kvt, .yok, .out] s (State.squashItems s p1 p2) := by
  unfold State.squashItems
  extract_lets -merge -underBinder +onlyGivenNames x0
  extract_lets -merge -underBinder +onlyGivenNames x1 x2 x3 x4 x5 x6 x7
  clear_value x1 x2 x3 x4 x5 x6 x7
  extract_lets -merge -underBinder +onlyGivenNames x8
  extract_lets -merge -underBinder +onlyGivenNames x9
  extract_lets -merge -underBinder +onlyGivenNames x10
  extract_lets -merge -underBinder +onlyGivenNames x11
  extract_lets -merge -underBinder +onlyGivenNames x12
  extract_lets -merge -underBinder +onlyGivenNames x13 x14 x15 x16 x17
  clear_value x13 x14 x15 x16 x17
  extract_lets -merge -underBinder +onlyGivenNames x18
  have hx18 : Touches [.cnt, .hif, .sch, .asc, .cph, .kvt, .yok, .out] s x18 := by
    unfold x18
    apply Touches.put (x := s)
    · and_intros <;> first | exact .inr (by decide) | exact .inl rfl | exact SMap.wf_set _ _ _ _ | exact SMap.wf_dropRange _ _ _ _ | exact SMap.wf_filter _ _ _ | exact fun h => by rw [Ledger.reset_log]; exact h | exact id | exact fun _ => rfl
    · exact (Touches.rfl' _ s)
  clear_value x18
  extract_lets -merge -underBinder +onlyGivenNames x19
  have hx19 : Touches [.cnt, .hif, .sch, .asc, .cph, .kvt, .yok, .out] s x19 := by
    unfold x19
    exact Touches.chain (State.incBy_touches ..) (by decide) hx18
  clear_value x19
  refine Touches.ite ?_ ?_
  · exact Touches.chain (State.flushAll_touches ..) (by decide) hx19
  · exact hx19

theorem State.discardFrames_touches (s : State) :
    Touches [.cnt, .hif, .sch, .asc, .cph, .kvt, .yok, .out] s (State.discardFrames s) := by
  unfold State.discardFrames
  extract_lets -merge -underBinder +onlyGivenNames x0
  clear_value x0
  extract_lets -merge -underBinder +onlyGivenNames x1
  have hx1 : Touches [.cnt, .hif, .sch, .asc, .cph, .kvt, .yok, .out] s x1 := by
    unfold x1
    refine Touches.foldl _ _ ?_ (fun y2 a2 hy2 => ?_)
    · exact (Touches.rfl' _ s)
    · split
      · exact Touches.chain (State.complete_touches ..) (by decide) hy2
      · exact hy2
  clear_value x1
  extract_lets -merge -underBinder +onlyGivenNames x3
  have hx3 : Touches [.cnt, .hif, .sch, .asc, .cph, .kvt, .yok, .out] s x3 := by
    unfold x3
    exact Touches.chain (State.squashItems_touches ..) (by decide) hx1
  clear_value x3
  extract_lets -merge -underBinder +onlyGivenNames x4
  have hx4 : Touches [.cnt, .hif, .sch, .asc, .cph, .kvt, .yok, .out] s x4 := by
    unfold x4
    exact Touches.chain (State.incBy_touches ..) (by decide) hx3
  clear_value x4
  refine Touches.set_sch (x := x4) ?_ (by decide)
  exact hx4

theorem State.clearRings_touches (s : State) (p1 : ℕ) :
    Touches [.regs, .hif] s (State.clearRings s p1) := by
  unfold State.clearRings
  extract_lets -merge -underBinder +onlyGivenNames x0
  have hx0 : Touches [.regs, .hif] s x0 := by
    unfold x0
    exact Touches.chain (State.clearRegs_touches ..) (by decide) (Touches.rfl' _ s)
  clear_value x0
  refine Touches.set_hif (x := x0) ?_ (by decide)
  exact hx0

theorem State.quiesceAll_touches (s : State) :
    Touches [.regs, .cnt, .hif, .sch, .asc, .cph, .kvt, .yok, .out] s (State.quiesceAll s) := by
  unfold State.quiesceAll
  extract_lets -merge -underBinder +onlyGivenNames x0
  clear_value x0
  extract_lets -merge -underBinder +onlyGivenNames x1
  have hx1 : Touches [.regs, .cnt, .hif, .sch, .asc, .cph, .kvt, .yok, .out] s x1 := by
    unfold x1
    refine Touches.set_hif (x := s) ?_ (by decide)
    exact (Touches.rfl' _ s)
  clear_value x1
  extract_lets -merge -underBinder +onlyGivenNames x2
  have hx2 : Touches [.regs, .cnt, .hif, .sch, .asc, .cph, .kvt, .yok, .out] s x2 := by
    unfold x2
    exact Touches.chain (State.squashItems_touches ..) (by decide) hx1
  clear_value x2
  extract_lets -merge -underBinder +onlyGivenNames x3 x4
  clear_value x3 x4
  extract_lets -merge -underBinder +onlyGivenNames x5
  have hx5 : Touches [.regs, .cnt, .hif, .sch, .asc, .cph, .kvt, .yok, .out] s x5 := by
    unfold x5
    apply Touches.put (x := x2)
    · and_intros <;> first | exact .inr (by decide) | exact .inl rfl | exact SMap.wf_set _ _ _ _ | exact SMap.wf_dropRange _ _ _ _ | exact SMap.wf_filter _ _ _ | exact fun h => by rw [Ledger.reset_log]; exact h | exact id | exact fun _ => rfl
    · exact hx2
  clear_value x5
  refine Touches.foldl _ _ ?_ (fun y6 a6 hy6 => ?_)
  · exact hx5
  · exact Touches.chain (State.clearRings_touches ..) (by decide) hy6

theorem State.linkLost_touches (s : State) :
    Touches [.regs, .cnt, .pow, .led, .hif, .sch, .asc, .cph, .kvt, .yok, .out] s (State.linkLost s) := by
  unfold State.linkLost
  refine Touches.ite ?_ ?_
  · refine Touches.chain (State.note_touches ..) (by decide) ?_
    refine Touches.chain (State.note_touches ..) (by decide) ?_
    exact Touches.chain (State.quiesceAll_touches ..) (by decide) (Touches.rfl' _ s)
  · exact (Touches.rfl' _ s)

theorem State.portsLost_touches (s : State) (p1 : List ℕ) :
    Touches Part.note s (State.portsLost s p1) := by
  unfold State.portsLost
  refine Touches.foldl _ _ ?_ (fun y0 a0 hy0 => ?_)
  · exact (Touches.rfl' _ s)
  · refine Touches.ite ?_ ?_
    · refine Touches.chain (State.noteFor_touches ..) (by decide) ?_
      exact Touches.chain (State.setFlg_touches ..) (by decide) hy0
    · exact hy0

theorem State.stopChannels_touches (s : State) :
    Touches [.regs, .cnt, .pow, .led, .hif, .tim, .sch, .yok, .out] s (State.stopChannels s) := by
  unfold State.stopChannels
  extract_lets -merge -underBinder +onlyGivenNames x0
  have hx0 : Touches [.regs, .cnt, .pow, .led, .hif, .tim, .sch, .yok, .out] s x0 := by
    unfold x0
    refine Touches.foldl _ _ ?_ (fun y1 a1 hy1 => ?_)
    · exact (Touches.rfl' _ s)
    · split
      · refine Touches.ite ?_ ?_
        · exact Touches.chain (State.noteAs_touches ..) (by decide) hy1
        · exact hy1
      · exact hy1
  clear_value x0
  apply Touches.put (x := x0)
  · and_intros <;> first | exact .inr (by decide) | exact .inl rfl | exact SMap.wf_set _ _ _ _ | exact SMap.wf_dropRange _ _ _ _ | exact SMap.wf_filter _ _ _ | exact fun h => by rw [Ledger.reset_log]; exact h | exact id | exact fun _ => rfl
  · exact hx0

theorem State.suppress_touches (s : State) :
    Touches [.sch] s (State.suppress s) := by
  unfold State.suppress
  refine Touches.set_sch (x := s) ?_ (by decide)
  exact (Touches.rfl' _ s)

theorem State.eraseWorking_touches (s : State) :
    Touches [.regs, .cnt, .pow, .led, .hif, .tim, .sch, .mgd, .asc, .cph, .kvt, .yok, .out, .free] s (State.eraseWorking s) := by
  unfold State.eraseWorking
  extract_lets -merge -underBinder +onlyGivenNames x0
  have hx0 : Touches [.regs, .cnt, .pow, .led, .hif, .tim, .sch, .mgd, .asc, .cph, .kvt, .yok, .out, .free] s x0 := by
    unfold x0
    refine Touches.chain (State.squashItems_touches ..) (by decide) ?_
    exact Touches.chain (State.suppress_touches ..) (by decide) (Touches.rfl' _ s)
  clear_value x0
  extract_lets -merge -underBinder +onlyGivenNames x1
  have hx1 : Touches [.regs, .cnt, .pow, .led, .hif, .tim, .sch, .mgd, .asc, .cph, .kvt, .yok, .out, .free] s x1 := by
    unfold x1
    refine Touches.ite ?_ ?_
    · exact Touches.chain (State.result_touches ..) (by decide) hx0
    · exact hx0
  clear_value x1
  extract_lets -merge -underBinder +onlyGivenNames x2 x3
  clear_value x2 x3
  extract_lets -merge -underBinder +onlyGivenNames x4
  extract_lets -merge -underBinder +onlyGivenNames x5 x6 x7
  clear_value x5 x6 x7
  extract_lets -merge -underBinder +onlyGivenNames x8
  have hx8 : Touches [.regs, .cnt, .pow, .led, .hif, .tim, .sch, .mgd, .asc, .cph, .kvt, .yok, .out, .free] s x8 := by
    unfold x8
    apply Touches.put (x := x1)
    · and_intros <;> first | exact .inr (by decide) | exact .inl rfl | exact SMap.wf_set _ _ _ _ | exact SMap.wf_dropRange _ _ _ _ | exact SMap.wf_filter _ _ _ | exact fun h => by rw [Ledger.reset_log]; exact h | exact id | exact fun _ => rfl
    · exact hx1
  clear_value x8
  refine Touches.chain (State.stopChannels_touches ..) (by decide) ?_
  exact Touches.chain (State.setFlg_touches ..) (by decide) hx8

theorem State.resetQuad_touches (s : State) (p1 : ℕ) :
    Touches [.regs, .cnt, .pow, .led, .hif, .line, .yok, .out] s (State.resetQuad s p1) := by
  unfold State.resetQuad
  extract_lets -merge -underBinder +onlyGivenNames x0 x1 x2 x3
  clear_value x0 x1 x2 x3
  extract_lets -merge -underBinder +onlyGivenNames x4
  have hx4 : Touches [.regs, .cnt, .pow, .led, .hif, .line, .yok, .out] s x4 := by
    unfold x4
    exact Touches.chain (State.portsLost_touches ..) (by decide) (Touches.rfl' _ s)
  clear_value x4
  refine Touches.set_line (x := x4) ?_ (by decide)
  exact hx4

theorem State.beginBypass_touches (s : State) :
    Touches [.regs, .cnt, .pow, .led, .hif, .cls, .yok, .out] s (State.beginBypass s) := by
  unfold State.beginBypass
  refine Touches.ite ?_ ?_
  · exact (Touches.rfl' _ s)
  · refine Touches.chain (State.note_touches ..) (by decide) ?_
    refine Touches.set_cls (x := s) ?_ (by decide)
    exact (Touches.rfl' _ s)

theorem State.islandLoses_touches (s : State) (p1 : ℕ) :
    Touches [.regs, .cnt, .pow, .led, .hif, .tim, .line, .rows, .cls, .sch, .asc, .cph, .kvt, .yok, .out] s (State.islandLoses s p1) := by
  unfold State.islandLoses
  refine Touches.ite ?_ ?_
  · exact Touches.chain (State.resetQuad_touches ..) (by decide) (Touches.rfl' _ s)
  · refine Touches.ite ?_ ?_
    · refine Touches.set_yok (x := s) ?_ (by decide)
      exact (Touches.rfl' _ s)
    · refine Touches.ite ?_ ?_
      · exact Touches.chain (State.squashItems_touches ..) (by decide) (Touches.rfl' _ s)
      · refine Touches.ite ?_ ?_
        · exact Touches.chain (State.beginBypass_touches ..) (by decide) (Touches.rfl' _ s)
        · refine Touches.ite ?_ ?_
          · extract_lets -merge -underBinder +onlyGivenNames x0
            have hx0 : Touches [.regs, .cnt, .pow, .led, .hif, .tim, .line, .rows, .cls, .sch, .asc, .cph, .kvt, .yok, .out] s x0 := by
              unfold x0
              exact Touches.chain (State.discardFrames_touches ..) (by decide) (Touches.rfl' _ s)
            clear_value x0
            refine Touches.set_sch (x := x0) ?_ (by decide)
            exact hx0
          · refine Touches.ite ?_ ?_
            · extract_lets -merge -underBinder +onlyGivenNames x1
              have hx1 : Touches [.regs, .cnt, .pow, .led, .hif, .tim, .line, .rows, .cls, .sch, .asc, .cph, .kvt, .yok, .out] s x1 := by
                unfold x1
                exact Touches.chain (State.stopChannels_touches ..) (by decide) (Touches.rfl' _ s)
              clear_value x1
              apply Touches.put (x := x1)
              · and_intros <;> first | exact .inr (by decide) | exact .inl rfl | exact SMap.wf_set _ _ _ _ | exact SMap.wf_dropRange _ _ _ _ | exact SMap.wf_filter _ _ _ | exact fun h => by rw [Ledger.reset_log]; exact h | exact id | exact fun _ => rfl
              · exact hx1
            · refine Touches.ite ?_ ?_
              · exact Touches.chain (State.linkLost_touches ..) (by decide) (Touches.rfl' _ s)
              · exact (Touches.rfl' _ s)

theorem State.jointReset_touches (s : State) (p1 : ℕ) :
    Touches [.regs, .cnt, .pow, .led, .hif, .tim, .fab, .line, .rows, .cls, .sch, .asc, .cph, .kvt, .yok, .out] s (State.jointReset s p1) := by
  unfold State.jointReset
  refine Touches.chain (State.islandLoses_touches ..) (by decide) ?_
  refine Touches.set_fab (x := s) ?_ (by decide)
  exact (Touches.rfl' _ s)

theorem State.jointResets_touches (s : State) (p1 : List ℕ) :
    Touches [.regs, .cnt, .pow, .led, .hif, .tim, .fab, .line, .rows, .cls, .sch, .asc, .cph, .kvt, .yok, .out] s (State.jointResets s p1) := by
  unfold State.jointResets
  refine Touches.foldl _ _ ?_ (fun y0 a0 hy0 => ?_)
  · exact (Touches.rfl' _ s)
  · exact Touches.chain (State.jointReset_touches ..) (by decide) hy0

theorem State.resetCore_touches (s : State) (p1 : ℕ) :
    Touches [.regs, .shadow, .cnt, .armed, .now, .ctl, .boot, .led, .hdg, .hif, .tim, .fab, .line, .rows, .cls, .sch, .mgd, .asc, .cph, .kvt, .yok, .held] s (State.resetCore s p1) := by
  unfold State.resetCore
  apply Touches.put (x := s)
  · and_intros <;> first | exact .inr (by decide) | exact .inl rfl | exact SMap.wf_set _ _ _ _ | exact SMap.wf_dropRange _ _ _ _ | exact SMap.wf_filter _ _ _ | exact fun h => by rw [Ledger.reset_log]; exact h | exact id | exact fun _ => rfl
  · exact (Touches.rfl' _ s)

end Sys2Proof.Machine
end

