-- ==== Sys2Proof/Laws/TouchService.lean ====
section
/-! SUPPORT. What each operation of Machine/Service.lean may touch. -/

namespace Sys2Proof.Machine

open Sys2Proof

theorem State.setLane_touches (s : State) (p1 : ℕ) (p2 : Lane → Lane) :
    Touches [.line] s (State.setLane s p1 p2) := by
  unfold State.setLane
  refine Touches.set_line (x := s) ?_ (by decide)
  exact (Touches.rfl' _ s)

theorem State.setGroup_touches (s : State) (p1 : ℕ) (p2 : Group → Group) :
    Touches [.line] s (State.setGroup s p1 p2) := by
  unfold State.setGroup
  refine Touches.set_line (x := s) ?_ (by decide)
  exact (Touches.rfl' _ s)

theorem State.setEth_touches (s : State) (p1 : ℕ) (p2 : EthPort → EthPort) :
    Touches [.line] s (State.setEth s p1 p2) := by
  unfold State.setEth
  refine Touches.set_line (x := s) ?_ (by decide)
  exact (Touches.rfl' _ s)

theorem State.setPages_touches (s : State) (p1 : ℕ) (p2 : GroupPages → GroupPages) :
    Touches [.rows] s (State.setPages s p1 p2) := by
  unfold State.setPages
  refine Touches.set_rows (x := s) ?_ (by decide)
  exact (Touches.rfl' _ s)

theorem State.setPair_touches (s : State) (p1 : ℕ) (p2 : Pair → Pair) :
    Touches [.rows] s (State.setPair s p1 p2) := by
  unfold State.setPair
  refine Touches.set_rows (x := s) ?_ (by decide)
  exact (Touches.rfl' _ s)

end Sys2Proof.Machine
end

