-- ==== Sys2Proof/Laws/TouchOps.lean ====
section
/-! SUPPORT. What each operation of Machine/Ops.lean may touch. -/

namespace Sys2Proof.Machine

open Sys2Proof

set_option linter.unusedTactic false
set_option linter.unreachableTactic false

theorem State.evidFullCheck_touches (s : State) :
    Touches [.regs, .cnt, .pow, .led, .hdg, .hif, .yok, .out] s (State.evidFullCheck s) := by
  unfold State.evidFullCheck
  refine Touches.ite ?_ ?_
  · refine Touches.chain (State.note_touches ..) (by decide) ?_
    refine Touches.set_hdg (x := s) ?_ (by decide)
    exact (Touches.rfl' _ s)
  · exact (Touches.rfl' _ s)

theorem State.evidOverflow_touches (s : State) :
    Touches [.hdg] s (State.evidOverflow s) := by
  unfold State.evidOverflow
  refine Touches.set_hdg (x := s) ?_ (by decide)
  exact (Touches.rfl' _ s)

theorem State.evidPass_touches (s : State) (p1 : EvidArgs) (p2 : Bool) :
    Touches [.regs, .cnt, .pow, .led, .hdg, .hif, .st, .yok, .out] s (State.evidPass s p1 p2) := by
  unfold State.evidPass
  refine Touches.ite ?_ ?_
  · extract_lets -merge -underBinder +onlyGivenNames x0
    clear_value x0
    extract_lets -merge -underBinder +onlyGivenNames x1
    clear_value x1
    extract_lets -merge -underBinder +onlyGivenNames x2
    have hx2 : Touches [.regs, .cnt, .pow, .led, .hdg, .hif, .st, .yok, .out] s x2 := by
      unfold x2
      refine Touches.set_hdg (x := s) ?_ (by decide)
      exact (Touches.rfl' _ s)
    clear_value x2
    refine Touches.chain (State.evidFullCheck_touches ..) (by decide) ?_
    exact Touches.chain (State.pushStore_touches ..) (by decide) hx2
  · exact Touches.chain (State.evidOverflow_touches ..) (by decide) (Touches.rfl' _ s)

theorem State.evidMain_touches (s : State) (p1 : EvidArgs) :
    Touches [.regs, .cnt, .pow, .led, .hdg, .hif, .st, .yok, .out] s (State.evidMain s p1) := by
  unfold State.evidMain
  exact Touches.chain (State.evidPass_touches ..) (by decide) (Touches.rfl' _ s)

theorem State.evidCellAppend_touches (s : State) (p1 : EvidArgs) :
    Touches [.hdg] s (State.evidCellAppend s p1) := by
  unfold State.evidCellAppend
  refine Touches.ite ?_ ?_
  · extract_lets -merge -underBinder +onlyGivenNames x0
    clear_value x0
    refine Touches.set_hdg (x := s) ?_ (by decide)
    exact (Touches.rfl' _ s)
  · exact Touches.chain (State.evidOverflow_touches ..) (by decide) (Touches.rfl' _ s)

theorem State.moduleReset_touches (s : State) (p1 : ℕ) :
    Touches [.regs, .shadow, .cnt, .armed, .now, .ctl, .pow, .boot, .led, .hdg, .hif, .tim, .fab, .line, .rows, .cls, .sch, .mgd, .asc, .cph, .kvt, .yok, .held, .out] s (State.moduleReset s p1) := by
  unfold State.moduleReset
  extract_lets -merge -underBinder +onlyGivenNames x0
  have hx0 : Touches [.regs, .shadow, .cnt, .armed, .now, .ctl, .pow, .boot, .led, .hdg, .hif, .tim, .fab, .line, .rows, .cls, .sch, .mgd, .asc, .cph, .kvt, .yok, .held, .out] s x0 := by
    unfold x0
    exact Touches.chain (State.portsLost_touches ..) (by decide) (Touches.rfl' _ s)
  clear_value x0
  extract_lets -merge -underBinder +onlyGivenNames x1
  clear_value x1
  extract_lets -merge -underBinder +onlyGivenNames x2
  have hx2 : Touches [.regs, .shadow, .cnt, .armed, .now, .ctl, .pow, .boot, .led, .hdg, .hif, .tim, .fab, .line, .rows, .cls, .sch, .mgd, .asc, .cph, .kvt, .yok, .held, .out] s x2 := by
    unfold x2
    refine Touches.ite ?_ ?_
    · refine Touches.chain (State.note_touches ..) (by decide) ?_
      refine Touches.set_hif (x := x0) ?_ (by decide)
      exact hx0
    · exact hx0
  clear_value x2
  extract_lets -merge -underBinder +onlyGivenNames x3
  have hx3 : Touches [.regs, .shadow, .cnt, .armed, .now, .ctl, .pow, .boot, .led, .hdg, .hif, .tim, .fab, .line, .rows, .cls, .sch, .mgd, .asc, .cph, .kvt, .yok, .held, .out] s x3 := by
    unfold x3
    refine Touches.chain (State.driveAlert_touches ..) (by decide) ?_
    exact Touches.chain (State.resetCore_touches ..) (by decide) hx2
  clear_value x3
  extract_lets -merge -underBinder +onlyGivenNames x4
  have hx4 : Touches [.regs, .shadow, .cnt, .armed, .now, .ctl, .pow, .boot, .led, .hdg, .hif, .tim, .fab, .line, .rows, .cls, .sch, .mgd, .asc, .cph, .kvt, .yok, .held, .out] s x4 := by
    unfold x4
    exact Touches.chain (State.note_touches ..) (by decide) hx3
  clear_value x4
  exact Touches.chain (State.setMode_touches ..) (by decide) hx4

theorem State.endModeCmd_touches (s : State) (p1 : ℕ) :
    Touches [.regs, .ctl, .yok] s (State.endModeCmd s p1) := by
  unfold State.endModeCmd
  split
  · exact (Touches.rfl' _ s)
  · extract_lets -merge -underBinder +onlyGivenNames x0
    clear_value x0
    extract_lets -merge -underBinder +onlyGivenNames x1
    have hx1 : Touches [.regs, .ctl, .yok] s x1 := by
      unfold x1
      refine Touches.ite ?_ ?_
      · refine Touches.set_yok (x := s) ?_ (by decide)
        exact (Touches.rfl' _ s)
      · exact (Touches.rfl' _ s)
    clear_value x1
    refine Touches.chain (State.result_touches ..) (by decide) ?_
    refine Touches.set_ctl (x := x1) ?_ (by decide)
    exact hx1

theorem State.beginResponse_touches (s : State) (p1 : ℕ) (p2 : ℕ) (p3 : ℕ) :
    Touches [.regs, .cnt, .ctl, .pow, .led, .hif, .kvt, .yok, .out] s (State.beginResponse s p1 p2 p3) := by
  unfold State.beginResponse
  extract_lets -merge -underBinder +onlyGivenNames x0
  clear_value x0
  extract_lets -merge -underBinder +onlyGivenNames x1
  have hx1 : Touches [.regs, .cnt, .ctl, .pow, .led, .hif, .kvt, .yok, .out] s x1 := by
    unfold x1
    refine Touches.set_ctl (x := s) ?_ (by decide)
    exact (Touches.rfl' _ s)
  clear_value x1
  extract_lets -merge -underBinder +onlyGivenNames x2
  have hx2 : Touches [.regs, .cnt, .ctl, .pow, .led, .hif, .kvt, .yok, .out] s x2 := by
    unfold x2
    exact Touches.chain (State.endModeCmd_touches ..) (by decide) hx1
  clear_value x2
  refine Touches.ite ?_ ?_
  · refine Touches.chain (State.note_touches ..) (by decide) ?_
    refine Touches.set_kvt (x := x2) ?_ (by decide)
    exact hx2
  · exact hx2

theorem State.perform_touches (s : State) (p1 : ℕ) (p2 : Bool) (p3 : Option EvidArgs) :
    Touches [.regs, .cnt, .ctl, .pow, .led, .hdg, .hif, .tim, .st, .sch, .mgd, .asc, .cph, .kvt, .yok, .out, .free] s (State.perform s p1 p2 p3) := by
  unfold State.perform
  extract_lets -merge -underBinder +onlyGivenNames x0
  clear_value x0
  extract_lets -merge -underBinder +onlyGivenNames x1
  have hx1 : Touches [.regs, .cnt, .ctl, .pow, .led, .hdg, .hif, .tim, .st, .sch, .mgd, .asc, .cph, .kvt, .yok, .out, .free] s x1 := by
    unfold x1
    refine Touches.ite ?_ ?_
    · refine Touches.set_hdg (x := s) ?_ (by decide)
      exact (Touches.rfl' _ s)
    · exact (Touches.rfl' _ s)
  clear_value x1
  extract_lets -merge -underBinder +onlyGivenNames x2
  have hx2 : Touches [.regs, .cnt, .ctl, .pow, .led, .hdg, .hif, .tim, .st, .sch, .mgd, .asc, .cph, .kvt, .yok, .out, .free] s x2 := by
    unfold x2
    split
    · exact Touches.chain (State.evidMain_touches ..) (by decide) hx1
    · exact hx1
  clear_value x2
  extract_lets -merge -underBinder +onlyGivenNames x3
  clear_value x3
  extract_lets -merge -underBinder +onlyGivenNames x4
  have hx4 : Touches [.regs, .cnt, .ctl, .pow, .led, .hdg, .hif, .tim, .st, .sch, .mgd, .asc, .cph, .kvt, .yok, .out, .free] s x4 := by
    unfold x4
    refine Touches.ite ?_ ?_
    · refine Touches.set_hdg (x := x2) ?_ (by decide)
      exact hx2
    · exact hx2
  clear_value x4
  extract_lets -merge -underBinder +onlyGivenNames x5
  have hx5 : Touches [.regs, .cnt, .ctl, .pow, .led, .hdg, .hif, .tim, .st, .sch, .mgd, .asc, .cph, .kvt, .yok, .out, .free] s x5 := by
    unfold x5
    refine Touches.ite ?_ ?_
    · exact Touches.chain (State.emit_touches ..) (by decide) hx4
    · exact hx4
  clear_value x5
  extract_lets -merge -underBinder +onlyGivenNames x6
  have hx6 : Touches [.regs, .cnt, .ctl, .pow, .led, .hdg, .hif, .tim, .st, .sch, .mgd, .asc, .cph, .kvt, .yok, .out, .free] s x6 := by
    unfold x6
    refine Touches.ite ?_ ?_
    · exact Touches.chain (State.eraseWorking_touches ..) (by decide) hx5
    · exact hx5
  clear_value x6
  extract_lets -merge -underBinder +onlyGivenNames x7
  have hx7 : Touches [.regs, .cnt, .ctl, .pow, .led, .hdg, .hif, .tim, .st, .sch, .mgd, .asc, .cph, .kvt, .yok, .out, .free] s x7 := by
    unfold x7
    refine Touches.ite ?_ ?_
    · exact Touches.chain (State.emit_touches ..) (by decide) hx6
    · exact hx6
  clear_value x7
  refine Touches.set_ctl (x := x7) ?_ (by decide)
  exact hx7

theorem State.recordAll_touches (s : State) (p1 : ℕ × ℕ × Bool) (p2 : List Fired) (p3 : ℕ) (p4 : Bool) :
    Touches Part.note s (State.recordAll s p1 p2 p3 p4) := by
  unfold State.recordAll
  extract_lets -merge -underBinder +onlyGivenNames x0
  have hx0 : Touches Part.note s x0 := by
    unfold x0
    refine Touches.foldl _ _ ?_ (fun y1 a1 hy1 => ?_)
    · exact (Touches.rfl' _ s)
    · exact Touches.chain (State.noteAt_touches ..) (by decide) hy1
  clear_value x0
  extract_lets -merge -underBinder +onlyGivenNames x2
  have hx2 : Touches Part.note s x2 := by
    unfold x2
    refine Touches.ite ?_ ?_
    · exact Touches.chain (State.note_touches ..) (by decide) hx0
    · exact hx0
  clear_value x2
  refine Touches.ite ?_ ?_
  · exact Touches.chain (State.note_touches ..) (by decide) hx2
  · exact hx2

theorem State.answer_touches (s : State) (p1 : List Fired) (p2 : ℕ) (p3 : Bool) (p4 : Option EvidArgs) :
    Touches [.regs, .cnt, .ctl, .pow, .led, .hdg, .hif, .tim, .st, .sch, .mgd, .asc, .cph, .kvt, .yok, .out, .free] s (State.answer s p1 p2 p3 p4) := by
  unfold State.answer
  extract_lets -merge -underBinder +onlyGivenNames x0
  clear_value x0
  extract_lets -merge -underBinder +onlyGivenNames x1
  have hx1 : Touches [.regs, .cnt, .ctl, .pow, .led, .hdg, .hif, .tim, .st, .sch, .mgd, .asc, .cph, .kvt, .yok, .out, .free] s x1 := by
    unfold x1
    exact Touches.chain (State.beginResponse_touches ..) (by decide) (Touches.rfl' _ s)
  clear_value x1
  refine Touches.chain (State.recordAll_touches ..) (by decide) ?_
  exact Touches.chain (State.perform_touches ..) (by decide) hx1

theorem State.escalate_touches (s : State) (p1 : Bool) :
    Touches Part.main s (State.escalate s p1) := by
  unfold State.escalate
  refine Touches.ite ?_ ?_
  · extract_lets -merge -underBinder +onlyGivenNames x0
    clear_value x0
    extract_lets -merge -underBinder +onlyGivenNames x1
    have hx1 : Touches Part.main s x1 := by
      unfold x1
      refine Touches.set_ctl (x := s) ?_ (by decide)
      exact (Touches.rfl' _ s)
    clear_value x1
    exact Touches.chain (State.answer_touches ..) (by decide) hx1
  · extract_lets -merge -underBinder +onlyGivenNames x2
    clear_value x2
    extract_lets -merge -underBinder +onlyGivenNames x3
    have hx3 : Touches Part.main s x3 := by
      unfold x3
      refine Touches.set_ctl (x := s) ?_ (by decide)
      exact (Touches.rfl' _ s)
    clear_value x3
    refine Touches.chain (State.moduleReset_touches ..) (by decide) ?_
    exact Touches.chain (State.note_touches ..) (by decide) hx3

theorem State.holdYoke_touches (s : State) (p1 : Bool) :
    Touches [.asc] s (State.holdYoke s p1) := by
  unfold State.holdYoke
  extract_lets -merge -underBinder +onlyGivenNames x0 x1
  clear_value x0 x1
  refine Touches.set_asc (x := s) ?_ (by decide)
  exact (Touches.rfl' _ s)

theorem State.yieldNow_touches (s : State) (p1 : ℕ) :
    Touches [.regs, .cnt, .pow, .led, .hif, .st, .asc, .yok, .out] s (State.yieldNow s p1) := by
  unfold State.yieldNow
  refine Touches.ite ?_ ?_
  · extract_lets -merge -underBinder +onlyGivenNames x0
    clear_value x0
    extract_lets -merge -underBinder +onlyGivenNames x1
    have hx1 : Touches [.regs, .cnt, .pow, .led, .hif, .st, .asc, .yok, .out] s x1 := by
      unfold x1
      exact Touches.chain (State.convey_touches ..) (by decide) (Touches.rfl' _ s)
    clear_value x1
    extract_lets -merge -underBinder +onlyGivenNames x2
    clear_value x2
    extract_lets -merge -underBinder +onlyGivenNames x3
    have hx3 : Touches [.regs, .cnt, .pow, .led, .hif, .st, .asc, .yok, .out] s x3 := by
      unfold x3
      refine Touches.set_yok (x := x1) ?_ (by decide)
      exact hx1
    clear_value x3
    refine Touches.chain (State.holdYoke_touches ..) (by decide) ?_
    exact Touches.chain (State.pushStore_touches ..) (by decide) hx3
  · exact (Touches.rfl' _ s)

theorem State.enterRecovery_touches (s : State) (p1 : Bool) (p2 : Bool) (p3 : List ℕ) :
    Touches Part.main s (State.enterRecovery s p1 p2 p3) := by
  unfold State.enterRecovery
  extract_lets -merge -underBinder +onlyGivenNames x0
  have hx0 : Touches Part.main s x0 := by
    unfold x0
    exact Touches.chain (State.yieldNow_touches ..) (by decide) (Touches.rfl' _ s)
  clear_value x0
  extract_lets -merge -underBinder +onlyGivenNames x1
  clear_value x1
  extract_lets -merge -underBinder +onlyGivenNames x2
  have hx2 : Touches Part.main s x2 := by
    unfold x2
    refine Touches.set_ctl (x := x0) ?_ (by decide)
    exact hx0
  clear_value x2
  extract_lets -merge -underBinder +onlyGivenNames x3
  have hx3 : Touches Part.main s x3 := by
    unfold x3
    exact Touches.chain (State.squashItems_touches ..) (by decide) hx2
  clear_value x3
  extract_lets -merge -underBinder +onlyGivenNames x4
  have hx4 : Touches Part.main s x4 := by
    unfold x4
    exact Touches.chain (State.setMode_touches ..) (by decide) hx3
  clear_value x4
  refine Touches.ite ?_ ?_
  · exact hx4
  · extract_lets -merge -underBinder +onlyGivenNames x5
    clear_value x5
    refine Touches.ite ?_ ?_
    · exact Touches.chain (State.escalate_touches ..) (by decide) hx4
    · beta_reduce
      refine Touches.set_ctl ?_ (by decide)
      refine Touches.chain (State.wr_touches ..) (by decide) ?_
      exact Touches.chain (State.jointResets_touches ..) (by decide) hx4

theorem State.halt_touches (s : State) (p1 : ℕ) (p2 : Bool) (p3 : List ℕ) :
    Touches Part.main s (State.halt s p1 p2 p3) := by
  unfold State.halt
  refine Touches.ite ?_ ?_
  · refine Touches.set_ctl (x := s) ?_ (by decide)
    exact (Touches.rfl' _ s)
  · split
    · refine Touches.ite ?_ ?_
      · exact (Touches.rfl' _ s)
      · exact Touches.chain (State.escalate_touches ..) (by decide) (Touches.rfl' _ s)
    · refine Touches.ite ?_ ?_
      · exact (Touches.rfl' _ s)
      · refine Touches.chain (State.escalate_touches ..) (by decide) ?_
        exact Touches.chain (State.enterRecovery_touches ..) (by decide) (Touches.rfl' _ s)
    · refine Touches.ite ?_ ?_
      · exact (Touches.rfl' _ s)
      · refine Touches.chain (State.escalate_touches ..) (by decide) ?_
        exact Touches.chain (State.enterRecovery_touches ..) (by decide) (Touches.rfl' _ s)
    · refine Touches.ite ?_ ?_
      · exact Touches.chain (State.enterRecovery_touches ..) (by decide) (Touches.rfl' _ s)
      · exact (Touches.rfl' _ s)

theorem State.overwriteOne_touches (s : State) (p1 : Payload) :
    Touches [.regs, .cnt, .pow, .led, .hif, .st, .yok, .out] s (State.overwriteOne s p1) := by
  unfold State.overwriteOne
  refine Touches.ite ?_ ?_
  · exact (Touches.rfl' _ s)
  · exact Touches.chain (State.pushStore_touches ..) (by decide) (Touches.rfl' _ s)

theorem State.overwriteLeft_touches (s : State) :
    Touches [.regs, .cnt, .pow, .led, .hif, .st, .yok, .out] s (State.overwriteLeft s) := by
  unfold State.overwriteLeft
  extract_lets -merge -underBinder +onlyGivenNames x0
  have hx0 : Touches [.regs, .cnt, .pow, .led, .hif, .st, .yok, .out] s x0 := by
    unfold x0
    refine Touches.foldl _ _ ?_ (fun y1 a1 hy1 => ?_)
    · exact (Touches.rfl' _ s)
    · exact Touches.chain (State.overwriteOne_touches ..) (by decide) hy1
  clear_value x0
  refine Touches.foldl _ _ ?_ (fun y2 a2 hy2 => ?_)
  · exact hx0
  · exact Touches.chain (State.overwriteOne_touches ..) (by decide) hy2

theorem State.enterZeroized_touches (s : State) :
    Touches [.regs, .cnt, .ctl, .pow, .led, .hif, .st, .yok, .out] s (State.enterZeroized s) := by
  unfold State.enterZeroized
  extract_lets -merge -underBinder +onlyGivenNames x0
  extract_lets -merge -underBinder +onlyGivenNames x1
  have hx1 : Touches [.regs, .cnt, .ctl, .pow, .led, .hif, .st, .yok, .out] s x1 := by
    unfold x1
    refine Touches.set_ctl (x := s) ?_ (by decide)
    exact (Touches.rfl' _ s)
  extract_lets -merge -underBinder +onlyGivenNames x2
  have hx2 : Touches [.regs, .cnt, .ctl, .pow, .led, .hif, .st, .yok, .out] s x2 := by
    unfold x2
    refine Touches.ite ?_ ?_
    · exact hx1
    · exact Touches.chain (State.setMode_touches ..) (by decide) hx1
  refine Touches.ite ?_ ?_
  · refine Touches.set_pow (x := x2) ?_ (by decide)
    exact hx2
  · exact Touches.chain (State.overwriteLeft_touches ..) (by decide) hx2

theorem State.raiseAll_touches (s : State) (p1 : List Fired) (p2 : List ℕ) (p3 : Option EvidArgs) :
    Touches Part.main s (State.raiseAll s p1 p2 p3) := by
  unfold State.raiseAll
  extract_lets -merge -underBinder +onlyGivenNames x0
  clear_value x0
  refine Touches.ite ?_ ?_
  · refine Touches.foldl _ _ ?_ (fun y1 a1 hy1 => ?_)
    · exact (Touches.rfl' _ s)
    · exact Touches.chain (State.noteAs_touches ..) (by decide) hy1
  · refine Touches.ite ?_ ?_
    · exact (Touches.rfl' _ s)
    · extract_lets -merge -underBinder +onlyGivenNames x2
      clear_value x2
      extract_lets -merge -underBinder +onlyGivenNames x3
      have hx3 : Touches Part.main s x3 := by
        unfold x3
        exact Touches.chain (State.answer_touches ..) (by decide) (Touches.rfl' _ s)
      clear_value x3
      refine Touches.ite ?_ ?_
      · exact Touches.chain (State.enterZeroized_touches ..) (by decide) hx3
      · refine Touches.ite ?_ ?_
        · exact Touches.chain (State.halt_touches ..) (by decide) hx3
        · exact hx3

theorem State.settleParts_touches (s : State) :
    Touches [.ctl] s (State.settleParts s) := by
  unfold State.settleParts
  refine Touches.set_ctl (x := s) ?_ (by decide)
  exact (Touches.rfl' _ s)

theorem State.reportRefused_touches (s : State) :
    Touches Part.main s (State.reportRefused s) := by
  unfold State.reportRefused
  refine Touches.ite ?_ ?_
  · extract_lets -merge -underBinder +onlyGivenNames x0
    clear_value x0
    extract_lets -merge -underBinder +onlyGivenNames x1
    have hx1 : Touches Part.main s x1 := by
      unfold x1
      refine Touches.chain (State.raiseAll_touches ..) (by decide) ?_
      refine Touches.set_st (x := s) ?_ (by decide)
      exact (Touches.rfl' _ s)
    clear_value x1
    refine Touches.set_st (x := x1) ?_ (by decide)
    exact hx1
  · exact (Touches.rfl' _ s)

theorem State.raiseFull_touches (s : State) (p1 : EvKind) (p2 : ℕ) (p3 : List ℕ) (p4 : List Byte) (p5 : List ℕ) (p6 : Option EvidArgs) (p7 : List Fired) :
    Touches Part.main s (State.raiseFull s p1 p2 p3 p4 p5 p6 p7) := by
  unfold State.raiseFull
  extract_lets -merge -underBinder +onlyGivenNames x0
  clear_value x0
  refine Touches.ite ?_ ?_
  · exact Touches.chain (State.raiseAll_touches ..) (by decide) (Touches.rfl' _ s)
  · refine Touches.chain (State.reportRefused_touches ..) (by decide) ?_
    refine Touches.chain (State.settleParts_touches ..) (by decide) ?_
    exact Touches.chain (State.raiseAll_touches ..) (by decide) (Touches.rfl' _ s)

theorem State.recheck_touches (s : State) :
    Touches Part.main s (State.recheck s) := by
  unfold State.recheck
  refine Touches.chain (State.reportRefused_touches ..) (by decide) ?_
  refine Touches.chain (State.settleParts_touches ..) (by decide) ?_
  refine Touches.ite ?_ ?_
  · exact (Touches.rfl' _ s)
  · exact Touches.chain (State.raiseAll_touches ..) (by decide) (Touches.rfl' _ s)

theorem State.raise_touches (s : State) (p1 : EvKind) (p2 : List Byte) :
    Touches Part.main s (State.raise s p1 p2) := by
  unfold State.raise
  exact Touches.chain (State.raiseFull_touches ..) (by decide) (Touches.rfl' _ s)

theorem State.raiseFor_touches (s : State) (p1 : EvKind) (p2 : ℕ) (p3 : List Byte) :
    Touches Part.main s (State.raiseFor s p1 p2 p3) := by
  unfold State.raiseFor
  exact Touches.chain (State.raiseFull_touches ..) (by decide) (Touches.rfl' _ s)

theorem State.beginLevel2_touches (s : State) (p1 : ℕ) :
    Touches [.ctl] s (State.beginLevel2 s p1) := by
  unfold State.beginLevel2
  refine Touches.set_ctl (x := s) ?_ (by decide)
  exact (Touches.rfl' _ s)

theorem State.endLevel2_touches (s : State) (p1 : ℕ) :
    Touches [.ctl] s (State.endLevel2 s p1) := by
  unfold State.endLevel2
  refine Touches.set_ctl (x := s) ?_ (by decide)
  exact (Touches.rfl' _ s)

theorem State.requestStore_touches (s : State) (p1 : StoreReq) :
    Touches Part.main s (State.requestStore s p1).1 := by
  unfold State.requestStore
  split
  rename_i v0 v1 v2 e3
  have hv1 : Touches Part.main s v1 := by
    refine Touches.ofFst e3 ?_
    exact Touches.chain (State.pushStore_touches ..) (by decide) (Touches.rfl' _ s)
  refine Touches.ite1 ?_ ?_
  · exact hv1
  · refine Touches.mk1 ?_
    exact Touches.chain (State.reportRefused_touches ..) (by decide) hv1

theorem State.yield_touches (s : State) (p1 : ℕ) :
    Touches Part.main s (State.yield s p1) := by
  unfold State.yield
  refine Touches.chain (State.reportRefused_touches ..) (by decide) ?_
  exact Touches.chain (State.yieldNow_touches ..) (by decide) (Touches.rfl' _ s)

theorem State.endAuto_touches (s : State) :
    Touches [.ctl, .yok] s (State.endAuto s) := by
  unfold State.endAuto
  apply Touches.put (x := s)
  · and_intros <;> first | exact .inr (by decide) | exact .inl rfl | exact SMap.wf_set _ _ _ _ | exact SMap.wf_dropRange _ _ _ _ | exact SMap.wf_filter _ _ _ | exact fun h => by rw [Ledger.reset_log]; exact h | exact id | exact fun _ => rfl
  · exact (Touches.rfl' _ s)

end Sys2Proof.Machine
end

