-- ==== Sys2Proof/Laws/TouchLineOps.lean ====
section
/-! SUPPORT. What each operation of Machine/LineOps.lean may touch. -/

namespace Sys2Proof.Machine

open Sys2Proof

theorem State.tally_touches (s : State) (p1 : ℕ) :
    Touches [.line] s (State.tally s p1) := by
  unfold State.tally
  refine Touches.set_line (x := s) ?_ (by decide)
  exact (Touches.rfl' _ s)

theorem State.startHoldoff_touches (s : State) (p1 : ℕ) :
    Touches [.rows] s (State.startHoldoff s p1) := by
  unfold State.startHoldoff
  split
  · exact (Touches.rfl' _ s)
  · refine Touches.ite ?_ ?_
    · exact Touches.chain (State.setPair_touches ..) (by decide) (Touches.rfl' _ s)
    · exact Touches.chain (State.setPair_touches ..) (by decide) (Touches.rfl' _ s)

theorem State.stopHoldoff_touches (s : State) (p1 : ℕ) :
    Touches [.rows] s (State.stopHoldoff s p1) := by
  unfold State.stopHoldoff
  split
  · exact (Touches.rfl' _ s)
  · exact Touches.chain (State.setPair_touches ..) (by decide) (Touches.rfl' _ s)

theorem State.refreshPort_touches (s : State) (p1 : ℕ) :
    Touches [.regs, .cnt, .pow, .led, .hif, .line, .yok, .out] s (State.refreshPort s p1) := by
  unfold State.refreshPort
  extract_lets -merge -underBinder +onlyGivenNames x0 x1 x2
  clear_value x0 x1 x2
  extract_lets -merge -underBinder +onlyGivenNames x3
  have hx3 : Touches [.regs, .cnt, .pow, .led, .hif, .line, .yok, .out] s x3 := by
    unfold x3
    exact Touches.chain (State.setEth_touches ..) (by decide) (Touches.rfl' _ s)
  clear_value x3
  extract_lets -merge -underBinder +onlyGivenNames x4
  have hx4 : Touches [.regs, .cnt, .pow, .led, .hif, .line, .yok, .out] s x4 := by
    unfold x4
    refine Touches.ite ?_ ?_
    · exact hx3
    · exact Touches.chain (State.emit_touches ..) (by decide) hx3
  clear_value x4
  refine Touches.ite ?_ ?_
  · refine Touches.chain (State.noteFor_touches ..) (by decide) ?_
    exact Touches.chain (State.setFlg_touches ..) (by decide) hx4
  · refine Touches.ite ?_ ?_
    · exact Touches.chain (State.noteFor_touches ..) (by decide) hx4
    · exact hx4

theorem State.groupSeen_touches (s : State) (p1 : ℕ) (p2 : ℕ) :
    Touches [.regs, .line] s (State.groupSeen s p1 p2) := by
  unfold State.groupSeen
  extract_lets -merge -underBinder +onlyGivenNames x0 x1
  clear_value x0 x1
  extract_lets -merge -underBinder +onlyGivenNames x2
  have hx2 : Touches [.regs, .line] s x2 := by
    unfold x2
    exact Touches.chain (State.wr_touches ..) (by decide) (Touches.rfl' _ s)
  clear_value x2
  exact Touches.chain (State.setGroup_touches ..) (by decide) hx2

theorem State.holdoffFollows_touches (s : State) (p1 : ℕ) (p2 : Bool) (p3 : Bool) :
    Touches [.rows] s (State.holdoffFollows s p1 p2 p3) := by
  unfold State.holdoffFollows
  refine Touches.ite ?_ ?_
  · exact Touches.chain (State.startHoldoff_touches ..) (by decide) (Touches.rfl' _ s)
  · refine Touches.ite ?_ ?_
    · exact Touches.chain (State.stopHoldoff_touches ..) (by decide) (Touches.rfl' _ s)
    · exact (Touches.rfl' _ s)

theorem State.reportDefects_touches (s : State) :
    Touches [.yok, .out] s (State.reportDefects s) := by
  unfold State.reportDefects
  exact Touches.chain (State.report_touches ..) (by decide) (Touches.rfl' _ s)

theorem State.refreshGroup_touches (s : State) (p1 : ℕ) (p2 : ℕ) :
    Touches Part.main s (State.refreshGroup s p1 p2) := by
  unfold State.refreshGroup
  refine Touches.ite ?_ ?_
  · exact (Touches.rfl' _ s)
  · extract_lets -merge -underBinder +onlyGivenNames x0
    clear_value x0
    extract_lets -merge -underBinder +onlyGivenNames x1 x2
    clear_value x1 x2
    split
    extract_lets -merge -underBinder +onlyGivenNames x3
    have hx3 : Touches Part.main s x3 := by
      unfold x3
      exact Touches.chain (State.setGroup_touches ..) (by decide) (Touches.rfl' _ s)
    clear_value x3
    extract_lets -merge -underBinder +onlyGivenNames x4
    have hx4 : Touches Part.main s x4 := by
      unfold x4
      refine Touches.chain (State.holdoffFollows_touches ..) (by decide) ?_
      exact Touches.chain (State.groupSeen_touches ..) (by decide) hx3
    clear_value x4
    extract_lets -merge -underBinder +onlyGivenNames x5
    clear_value x5
    extract_lets -merge -underBinder +onlyGivenNames x6
    have hx6 : Touches Part.main s x6 := by
      unfold x6
      refine Touches.ite ?_ ?_
      · exact Touches.chain (State.noteFor_touches ..) (by decide) hx4
      · refine Touches.ite ?_ ?_
        · exact Touches.chain (State.noteFor_touches ..) (by decide) hx4
        · exact hx4
    clear_value x6
    extract_lets -merge -underBinder +onlyGivenNames x7
    have hx7 : Touches Part.main s x7 := by
      unfold x7
      refine Touches.ite ?_ ?_
      · exact Touches.chain (State.noteFor_touches ..) (by decide) hx6
      · refine Touches.ite ?_ ?_
        · exact Touches.chain (State.noteFor_touches ..) (by decide) hx6
        · exact hx6
    clear_value x7
    extract_lets -merge -underBinder +onlyGivenNames x8
    have hx8 : Touches Part.main s x8 := by
      unfold x8
      refine Touches.ite ?_ ?_
      · exact hx7
      · exact Touches.chain (State.reportDefects_touches ..) (by decide) hx7
    clear_value x8
    exact Touches.chain (State.recheck_touches ..) (by decide) hx8

theorem State.laneChanged_touches (s : State) (p1 : ℕ) (p2 : ℕ) :
    Touches Part.main s (State.laneChanged s p1 p2) := by
  unfold State.laneChanged
  split
  · exact Touches.chain (State.refreshGroup_touches ..) (by decide) (Touches.rfl' _ s)
  · exact Touches.chain (State.recheck_touches ..) (by decide) (Touches.rfl' _ s)

theorem State.touchLane_touches (s : State) (p1 : ℕ) (p2 : Lane → Lane) :
    Touches [.line] s (State.touchLane s p1 p2) := by
  unfold State.touchLane
  exact Touches.chain (State.setLane_touches ..) (by decide) (Touches.rfl' _ s)

theorem State.ethCount_touches (s : State) (p1 : ℕ) (p2 : ℕ) (p3 : ℕ) :
    Touches [.line] s (State.ethCount s p1 p2 p3) := by
  unfold State.ethCount
  exact Touches.chain (State.setEth_touches ..) (by decide) (Touches.rfl' _ s)

end Sys2Proof.Machine
end

