-- ==== Sys2Proof/Laws/TouchAccess.lean ====
section
/-! SUPPORT. What each operation of Machine/Access.lean may touch. -/

namespace Sys2Proof.Machine

open Sys2Proof

theorem State.touchArm_touches (s : State) (p1 : Path) (p2 : ℕ) :
    Touches [.armed] s (State.touchArm s p1 p2) := by
  unfold State.touchArm
  split
  · refine Touches.ite ?_ ?_
    · exact Touches.chain (State.disarm_touches ..) (by decide) (Touches.rfl' _ s)
    · exact (Touches.rfl' _ s)
  · exact Touches.chain (State.disarm_touches ..) (by decide) (Touches.rfl' _ s)

theorem State.hostWrite_touches {m : List Part} {s : State} {x : State} {p1 : Path} {p2 : ℕ} {p3 : Word} {p4 : State → State} (hm : [.regs, .cnt, .armed, .pow, .led, .hif, .yok, .out] ⊆ m) (hx : Touches m s x) (k4 : ∀ z0, Touches m s z0 → Touches m s (p4 z0)) :
    Touches m s (State.hostWrite x p1 p2 p3 p4) := by
  unfold State.hostWrite
  extract_lets -merge -underBinder +onlyGivenNames x0
  clear_value x0
  split
  · exact hx
  · refine Touches.ite ?_ ?_
    · exact Touches.chain (State.note_touches ..) (List.Subset.trans (by decide) hm) hx
    · refine Touches.ite ?_ ?_
      · exact hx
      · extract_lets -merge -underBinder +onlyGivenNames x1
        have hx1 : Touches m s x1 := by
          unfold x1
          exact Touches.chain (State.touchArm_touches ..) (List.Subset.trans (by decide) hm) hx
        clear_value x1
        refine Touches.ite ?_ ?_
        · exact Touches.chain (State.note_touches ..) (List.Subset.trans (by decide) hm) hx1
        · extract_lets -merge -underBinder +onlyGivenNames x2
          have hx2 : Touches m s x2 := by
            unfold x2
            refine k4 _ ?_
            exact hx1
          clear_value x2
          refine Touches.ite ?_ ?_
          · exact Touches.chain (State.convey_touches ..) (List.Subset.trans (by decide) hm) hx2
          · exact hx2

theorem State.cmdWrite_touches {m : List Part} {s : State} {x : State} {p1 : Instr} {p2 : Path} {p3 : ℕ} {p4 : ℕ → State → State} (hm : [.regs, .cnt, .armed, .pow, .led, .hif, .yok, .held, .out] ⊆ m) (hx : Touches m s x) (k4 : ∀ z0 z1, Touches m s z1 → Touches m s (p4 z0 z1)) :
    Touches m s (State.cmdWrite x p1 p2 p3 p4) := by
  unfold State.cmdWrite
  extract_lets -merge -underBinder +onlyGivenNames x0 x1
  clear_value x0 x1
  refine Touches.ite ?_ ?_
  · exact Touches.chain (State.note_touches ..) (List.Subset.trans (by decide) hm) hx
  · refine Touches.ite ?_ ?_
    · exact hx
    · refine Touches.ite ?_ ?_
      · exact hx
      · split
        · exact hx
        · refine Touches.set_held (x := x) ?_ (hm (by decide))
          exact hx
        · refine Touches.set_held (x := x) ?_ (hm (by decide))
          exact hx
        · refine Touches.chain (State.disarm_touches ..) (List.Subset.trans (by decide) hm) ?_
          refine k4 _ _ ?_
          exact hx

theorem State.privWrite_touches {m : List Part} {s : State} {x : State} {p1 : Instr} {p2 : Path} {p3 : ℕ} {p4 : Bool} {p5 : ℕ → State → State} (hm : [.regs, .cnt, .armed, .pow, .led, .hif, .yok, .held, .out] ⊆ m) (hx : Touches m s x) (k5 : ∀ z0 z1, Touches m s z1 → Touches m s (p5 z0 z1)) :
    Touches m s (State.privWrite x p1 p2 p3 p4 p5) := by
  unfold State.privWrite
  extract_lets -merge -underBinder +onlyGivenNames x0 x1
  clear_value x0 x1
  refine Touches.ite ?_ ?_
  · exact Touches.chain (State.note_touches ..) (List.Subset.trans (by decide) hm) hx
  · refine Touches.ite ?_ ?_
    · exact hx
    · refine Touches.ite ?_ ?_
      · exact hx
      · split
        · exact hx
        · refine Touches.ite ?_ ?_
          · refine Touches.set_held (x := x) ?_ (hm (by decide))
            exact hx
          · refine k5 _ _ ?_
            exact Touches.chain (State.touchArm_touches ..) (List.Subset.trans (by decide) hm) hx
        · refine Touches.ite ?_ ?_
          · refine Touches.set_held (x := x) ?_ (hm (by decide))
            exact hx
          · refine k5 _ _ ?_
            exact Touches.chain (State.touchArm_touches ..) (List.Subset.trans (by decide) hm) hx
        · refine k5 _ _ ?_
          exact Touches.chain (State.touchArm_touches ..) (List.Subset.trans (by decide) hm) hx

theorem State.followerRefusal_touches (s : State) :
    Touches Part.note s (State.followerRefusal s) := by
  unfold State.followerRefusal
  exact Touches.chain (State.note_touches ..) (by decide) (Touches.rfl' _ s)

end Sys2Proof.Machine
end

