-- ==== Sys2Proof/Laws/TouchObserve.lean ====
section
/-! SUPPORT. What each operation of Machine/Observe.lean may touch. -/

namespace Sys2Proof.Machine

open Sys2Proof

theorem State.setCtx_touches (s : State) (p1 : ℕ) (p2 : Option Ctx) :
    Touches [.asc] s (State.setCtx s p1 p2) := by
  unfold State.setCtx
  refine Touches.set_asc (x := s) ?_ (by decide)
  exact (Touches.rfl' _ s)

theorem State.modCtx_touches (s : State) (p1 : ℕ) (p2 : Ctx → Ctx) :
    Touches [.asc] s (State.modCtx s p1 p2) := by
  unfold State.modCtx
  split
  · exact Touches.chain (State.setCtx_touches ..) (by decide) (Touches.rfl' _ s)
  · exact (Touches.rfl' _ s)

theorem State.streamPut_touches (s : State) (p1 : ℕ) (p2 : List Byte) :
    Touches Part.note s (State.streamPut s p1 p2) := by
  unfold State.streamPut
  refine Touches.ite ?_ ?_
  · exact (Touches.rfl' _ s)
  · refine Touches.ite ?_ ?_
    · refine Touches.chain (State.note_touches ..) (by decide) ?_
      exact Touches.chain (State.wr_touches ..) (by decide) (Touches.rfl' _ s)
    · extract_lets -merge -underBinder +onlyGivenNames x0
      clear_value x0
      extract_lets -merge -underBinder +onlyGivenNames x1 x2 x3 x4
      clear_value x1 x2 x3 x4
      refine Touches.chain (State.inc_touches ..) (by decide) ?_
      exact Touches.chain (State.dma_touches ..) (by decide) (Touches.rfl' _ s)

theorem State.streamAll_touches (s : State) (p1 : Word → Bool) (p2 : List Byte) :
    Touches Part.note s (State.streamAll s p1 p2) := by
  unfold State.streamAll
  refine Touches.foldl _ _ ?_ (fun y0 a0 hy0 => ?_)
  · exact (Touches.rfl' _ s)
  · extract_lets -merge -underBinder +onlyGivenNames x1
    clear_value x1
    refine Touches.ite ?_ ?_
    · exact Touches.chain (State.streamPut_touches ..) (by decide) hy0
    · exact hy0

theorem State.fuCount_touches (s : State) (p1 : ℕ) (p2 : ℕ) :
    Touches [.led] s (State.fuCount s p1 p2) := by
  unfold State.fuCount
  extract_lets -merge -underBinder +onlyGivenNames x0
  clear_value x0
  extract_lets -merge -underBinder +onlyGivenNames x1
  refine Touches.set_led (x := s) ?_ (by decide) id
  exact (Touches.rfl' _ s)

theorem State.observeBus_touches (s : State) (p1 : ℕ) (p2 : ℕ) (p3 : ℕ) (p4 : ℕ) (p5 : ℕ) (p6 : ℕ) :
    Touches [.led] s (State.observeBus s p1 p2 p3 p4 p5 p6) := by
  unfold State.observeBus
  refine Touches.foldl _ _ ?_ (fun y0 a0 hy0 => ?_)
  · exact (Touches.rfl' _ s)
  · refine Touches.ite ?_ ?_
    · exact Touches.chain (State.fuCount_touches ..) (by decide) hy0
    · exact hy0

theorem State.observe_touches (s : State) (p1 : ℕ) (p2 : Option ℕ) (p3 : Sight) (p4 : Bool) (p5 : Bool) :
    Touches Part.note s (State.observe s p1 p2 p3 p4 p5) := by
  unfold State.observe
  extract_lets -merge -underBinder +onlyGivenNames x0
  have hx0 : Touches Part.note s x0 := by
    unfold x0
    refine Touches.foldl _ _ ?_ (fun y1 a1 hy1 => ?_)
    · exact (Touches.rfl' _ s)
    · refine Touches.ite ?_ ?_
      · exact Touches.chain (State.fuCount_touches ..) (by decide) hy1
      · exact hy1
  clear_value x0
  split
  · exact hx0
  · refine Touches.ite ?_ ?_
    · exact Touches.chain (State.streamAll_touches ..) (by decide) hx0
    · exact hx0

theorem State.drawTag_touches (s : State) :
    Touches [.led, .free] s (State.drawTag s).2 := by
  unfold State.drawTag
  refine Touches.ite2 ?_ ?_
  · split
    rename_i v0 v1 v2 e3
    have hv2 : Touches [.led, .free] s v2 := by
      refine Touches.ofSnd e3 ?_
      exact Touches.chain (State.draw_touches ..) (by decide) (Touches.rfl' _ s)
    refine Touches.ite2 ?_ ?_
    · refine Touches.mk2 ?_
      refine Touches.set_led (x := v2) ?_ (by decide) id
      exact hv2
    · exact hv2
  · refine Touches.mk2 ?_
    exact (Touches.rfl' _ s)

end Sys2Proof.Machine
end

