-- ==== Sys2Proof/Laws/TouchSnap.lean ====
section
/-! SUPPORT. What each operation of Machine/Snap.lean may touch. -/

namespace Sys2Proof.Machine

open Sys2Proof

theorem State.sampleUnit_touches (s : State) (p1 : ℕ) :
    Touches Part.note s (State.sampleUnit s p1) := by
  unfold State.sampleUnit
  extract_lets -merge -underBinder +onlyGivenNames x0 x1
  clear_value x0 x1
  extract_lets -merge -underBinder +onlyGivenNames x2
  have hx2 : Touches Part.note s x2 := by
    unfold x2
    exact Touches.chain (State.streamAll_touches ..) (by decide) (Touches.rfl' _ s)
  clear_value x2
  refine Touches.set_led (x := x2) ?_ (by decide) id
  exact hx2

theorem State.dump_touches (s : State) (p1 : Bool) :
    Touches Part.note s (State.dump s p1) := by
  unfold State.dump
  refine Touches.ite ?_ ?_
  · refine Touches.chain (State.note_touches ..) (by decide) ?_
    exact Touches.chain (State.wr_touches ..) (by decide) (Touches.rfl' _ s)
  · extract_lets -merge -underBinder +onlyGivenNames x0
    clear_value x0
    extract_lets -merge -underBinder +onlyGivenNames x1 x2
    clear_value x1 x2
    extract_lets -merge -underBinder +onlyGivenNames x3
    have hx3 : Touches Part.note s x3 := by
      unfold x3
      exact Touches.chain (State.dma_touches ..) (by decide) (Touches.rfl' _ s)
    clear_value x3
    extract_lets -merge -underBinder +onlyGivenNames x4
    have hx4 : Touches Part.note s x4 := by
      unfold x4
      exact Touches.chain (State.dma_touches ..) (by decide) hx3
    clear_value x4
    extract_lets -merge -underBinder +onlyGivenNames x5
    have hx5 : Touches Part.note s x5 := by
      unfold x5
      exact Touches.chain (State.dma_touches ..) (by decide) hx4
    clear_value x5
    refine Touches.chain (State.inc_touches ..) (by decide) ?_
    refine Touches.set_led (x := x5) ?_ (by decide) id
    exact hx5

theorem State.snapshot_touches (s : State) (p1 : Bool) :
    Touches Part.note s (State.snapshot s p1) := by
  unfold State.snapshot
  extract_lets -merge -underBinder +onlyGivenNames x0
  have hx0 : Touches Part.note s x0 := by
    unfold x0
    refine Touches.ite ?_ ?_
    · exact Touches.chain (State.dump_touches ..) (by decide) (Touches.rfl' _ s)
    · exact (Touches.rfl' _ s)
  clear_value x0
  refine Touches.foldl _ _ ?_ (fun y1 a1 hy1 => ?_)
  · exact hx0
  · exact Touches.chain (State.sampleUnit_touches ..) (by decide) hy1

theorem State.latchSkew_touches (s : State) :
    Touches [.regs, .yok] s (State.latchSkew s) := by
  unfold State.latchSkew
  extract_lets -merge -underBinder +onlyGivenNames x0
  clear_value x0
  extract_lets -merge -underBinder +onlyGivenNames x1
  have hx1 : Touches [.regs, .yok] s x1 := by
    unfold x1
    exact Touches.chain (State.wr_touches ..) (by decide) (Touches.rfl' _ s)
  clear_value x1
  refine Touches.set_yok (x := x1) ?_ (by decide)
  exact hx1

end Sys2Proof.Machine
end

