-- ==== Sys2Proof/Laws/TouchLanes.lean ====
section
/-! SUPPORT. What each operation of Machine/Lanes.lean may touch. -/

namespace Sys2Proof.Machine

open Sys2Proof

theorem execLaneLos_touches (p0 : Fin 32) (s : State) :
    OutTouches Part.main s (execLaneLos p0 s) := by
  unfold execLaneLos
  extract_lets -merge -underBinder +onlyGivenNames x0 x1
  clear_value x0 x1
  refine OutTouches.ite ?_ ?_
  · show Touches _ _ _
    exact Touches.chain (State.setLane_touches ..) (by decide) (Touches.rfl' _ s)
  · extract_lets -merge -underBinder +onlyGivenNames x2
    have hx2 : Touches Part.main s x2 := by
      unfold x2
      exact Touches.chain (State.touchLane_touches ..) (by decide) (Touches.rfl' _ s)
    clear_value x2
    extract_lets -merge -underBinder +onlyGivenNames x3
    have hx3 : Touches Part.main s x3 := by
      unfold x3
      exact Touches.chain (State.setFlg_touches ..) (by decide) hx2
    clear_value x3
    extract_lets -merge -underBinder +onlyGivenNames x4
    have hx4 : Touches Part.main s x4 := by
      unfold x4
      exact Touches.chain (State.noteFor_touches ..) (by decide) hx3
    clear_value x4
    show Touches _ _ _
    exact Touches.chain (State.laneChanged_touches ..) (by decide) hx4

theorem execLaneLol_touches (p0 : Fin 32) (s : State) :
    OutTouches Part.main s (execLaneLol p0 s) := by
  unfold execLaneLol
  extract_lets -merge -underBinder +onlyGivenNames x0 x1
  clear_value x0 x1
  refine OutTouches.ite ?_ ?_
  · show Touches _ _ _
    exact Touches.chain (State.setLane_touches ..) (by decide) (Touches.rfl' _ s)
  · extract_lets -merge -underBinder +onlyGivenNames x2
    have hx2 : Touches Part.main s x2 := by
      unfold x2
      exact Touches.chain (State.touchLane_touches ..) (by decide) (Touches.rfl' _ s)
    clear_value x2
    extract_lets -merge -underBinder +onlyGivenNames x3
    have hx3 : Touches Part.main s x3 := by
      unfold x3
      exact Touches.chain (State.setFlg_touches ..) (by decide) hx2
    clear_value x3
    extract_lets -merge -underBinder +onlyGivenNames x4
    have hx4 : Touches Part.main s x4 := by
      unfold x4
      exact Touches.chain (State.noteFor_touches ..) (by decide) hx3
    clear_value x4
    show Touches _ _ _
    exact Touches.chain (State.laneChanged_touches ..) (by decide) hx4

theorem execLaneClear_touches (p0 : Fin 32) (p1 : Bool) (s : State) :
    OutTouches Part.main s (execLaneClear p0 p1 s) := by
  unfold execLaneClear
  extract_lets -merge -underBinder +onlyGivenNames x0 x1 x2
  clear_value x0 x1 x2
  refine OutTouches.ite ?_ ?_
  · extract_lets -merge -underBinder +onlyGivenNames x3
    have hx3 : Touches Part.main s x3 := by
      unfold x3
      refine Touches.ite ?_ ?_
      · exact Touches.chain (State.touchLane_touches ..) (by decide) (Touches.rfl' _ s)
      · exact Touches.chain (State.touchLane_touches ..) (by decide) (Touches.rfl' _ s)
    clear_value x3
    extract_lets -merge -underBinder +onlyGivenNames x4
    have hx4 : Touches Part.main s x4 := by
      unfold x4
      exact Touches.chain (State.noteFor_touches ..) (by decide) hx3
    clear_value x4
    show Touches _ _ _
    exact Touches.chain (State.laneChanged_touches ..) (by decide) hx4
  · show Touches _ _ _
    refine Touches.ite ?_ ?_
    · exact Touches.chain (State.setLane_touches ..) (by decide) (Touches.rfl' _ s)
    · exact Touches.chain (State.setLane_touches ..) (by decide) (Touches.rfl' _ s)

theorem execFecWindowEnd_touches (p0 : Fin 32) (p1 : ℕ) (p2 : ℕ) (p3 : ℕ) (s : State) :
    OutTouches Part.main s (execFecWindowEnd p0 p1 p2 p3 s) := by
  unfold execFecWindowEnd
  extract_lets -merge -underBinder +onlyGivenNames x0 x1 x2 x3
  clear_value x0 x1 x2 x3
  extract_lets -merge -underBinder +onlyGivenNames x4
  have hx4 : Touches Part.main s x4 := by
    unfold x4
    exact Touches.chain (State.setLane_touches ..) (by decide) (Touches.rfl' _ s)
  clear_value x4
  extract_lets -merge -underBinder +onlyGivenNames x5
  have hx5 : Touches Part.main s x5 := by
    unfold x5
    refine Touches.ite ?_ ?_
    · exact Touches.chain (State.setFlg_touches ..) (by decide) hx4
    · exact hx4
  clear_value x5
  refine OutTouches.ite ?_ ?_
  · show Touches _ _ _
    exact hx5
  · split
    extract_lets -merge -underBinder +onlyGivenNames x6
    have hx6 : Touches Part.main s x6 := by
      unfold x6
      exact Touches.chain (State.touchLane_touches ..) (by decide) hx5
    clear_value x6
    extract_lets -merge -underBinder +onlyGivenNames x7
    clear_value x7
    extract_lets -merge -underBinder +onlyGivenNames x8
    have hx8 : Touches Part.main s x8 := by
      unfold x8
      refine Touches.ite ?_ ?_
      · exact Touches.chain (State.noteFor_touches ..) (by decide) hx6
      · exact hx6
    clear_value x8
    extract_lets -merge -underBinder +onlyGivenNames x9
    have hx9 : Touches Part.main s x9 := by
      unfold x9
      refine Touches.ite ?_ ?_
      · exact Touches.chain (State.noteFor_touches ..) (by decide) hx8
      · exact hx8
    clear_value x9
    show Touches _ _ _
    exact Touches.chain (State.laneChanged_touches ..) (by decide) hx9

theorem execPcsStateChange_touches (p0 : Fin 32) (p1 : Bool) (p2 : Bool) (p3 : Bool) (p4 : Bool) (s : State) :
    OutTouches Part.main s (execPcsStateChange p0 p1 p2 p3 p4 s) := by
  unfold execPcsStateChange
  extract_lets -merge -underBinder +onlyGivenNames x0 x1 x2 x3
  clear_value x0 x1 x2 x3
  extract_lets -merge -underBinder +onlyGivenNames x4
  have hx4 : Touches Part.main s x4 := by
    unfold x4
    exact Touches.chain (State.setEth_touches ..) (by decide) (Touches.rfl' _ s)
  clear_value x4
  extract_lets -merge -underBinder +onlyGivenNames x5
  have hx5 : Touches Part.main s x5 := by
    unfold x5
    exact Touches.chain (State.wr_touches ..) (by decide) hx4
  clear_value x5
  extract_lets -merge -underBinder +onlyGivenNames x6
  have hx6 : Touches Part.main s x6 := by
    unfold x6
    exact Touches.chain (State.refreshPort_touches ..) (by decide) hx5
  clear_value x6
  extract_lets -merge -underBinder +onlyGivenNames x7
  have hx7 : Touches Part.main s x7 := by
    unfold x7
    refine Touches.ite ?_ ?_
    · refine Touches.foldl _ _ ?_ (fun y8 a8 hy8 => ?_)
      · exact hx6
      · exact Touches.chain (State.setLane_touches ..) (by decide) hy8
    · exact hx6
  clear_value x7
  show Touches _ _ _
  refine Touches.ite ?_ ?_
  · exact Touches.chain (State.refreshGroup_touches ..) (by decide) hx7
  · exact Touches.chain (State.recheck_touches ..) (by decide) hx7

theorem execMarkerFound_touches (p0 : Fin 32) (p1 : List Byte) (p2 : BitVec 48) (s : State) :
    OutTouches [.line] s (execMarkerFound p0 p1 p2 s) := by
  unfold execMarkerFound
  extract_lets -merge -underBinder +onlyGivenNames x0
  clear_value x0
  split
  · show Touches _ _ _
    exact (Touches.rfl' _ s)
  · refine OutTouches.ite ?_ ?_
    · show Touches _ _ _
      exact Touches.chain (State.setLane_touches ..) (by decide) (Touches.rfl' _ s)
    · show Touches _ _ _
      exact (Touches.rfl' _ s)

theorem execGroupAlignmentCheck_touches (p0 : Fin 16) (s : State) :
    OutTouches Part.main s (execGroupAlignmentCheck p0 s) := by
  unfold execGroupAlignmentCheck
  extract_lets -merge -underBinder +onlyGivenNames x0
  clear_value x0
  refine OutTouches.ite ?_ ?_
  · show Touches _ _ _
    exact (Touches.rfl' _ s)
  · extract_lets -merge -underBinder +onlyGivenNames x1
    clear_value x1
    extract_lets -merge -underBinder +onlyGivenNames x2 x3 x4 x5 x6
    clear_value x2 x3 x4 x5 x6
    extract_lets -merge -underBinder +onlyGivenNames x7
    have hx7 : Touches Part.main s x7 := by
      unfold x7
      exact Touches.chain (State.setGroup_touches ..) (by decide) (Touches.rfl' _ s)
    clear_value x7
    extract_lets -merge -underBinder +onlyGivenNames x8
    have hx8 : Touches Part.main s x8 := by
      unfold x8
      refine Touches.foldl _ _ ?_ (fun y9 a9 hy9 => ?_)
      · exact hx7
      · exact Touches.chain (State.wr_touches ..) (by decide) hy9
    clear_value x8
    extract_lets -merge -underBinder +onlyGivenNames x10
    have hx10 : Touches Part.main s x10 := by
      unfold x10
      refine Touches.ite ?_ ?_
      · exact Touches.chain (State.noteFor_touches ..) (by decide) hx8
      · exact hx8
    clear_value x10
    show Touches _ _ _
    exact Touches.chain (State.refreshGroup_touches ..) (by decide) hx10

theorem State.wrList_touches (s : State) (p1 : ℕ) (p2 : List ℕ) :
    Touches [.regs] s (State.wrList s p1 p2) := by
  unfold State.wrList
  split
  · exact (Touches.rfl' _ s)
  · refine Touches.chain (State.wrList_touches ..) (by decide) ?_
    exact Touches.chain (State.wr_touches ..) (by decide) (Touches.rfl' _ s)

theorem execSecondLatch_touches (s : State) :
    OutTouches [.regs, .cnt, .pow, .led, .hif, .line, .yok, .out] s (execSecondLatch s) := by
  unfold execSecondLatch
  extract_lets -merge -underBinder +onlyGivenNames x0
  have hx0 : Touches [.regs, .cnt, .pow, .led, .hif, .line, .yok, .out] s x0 := by
    unfold x0
    refine Touches.ite ?_ ?_
    · exact Touches.chain (State.snapshot_touches ..) (by decide) (Touches.rfl' _ s)
    · exact (Touches.rfl' _ s)
  clear_value x0
  extract_lets -merge -underBinder +onlyGivenNames x1
  have hx1 : Touches [.regs, .cnt, .pow, .led, .hif, .line, .yok, .out] s x1 := by
    unfold x1
    exact Touches.chain (State.latchSkew_touches ..) (by decide) hx0
  clear_value x1
  extract_lets -merge -underBinder +onlyGivenNames x2
  clear_value x2
  extract_lets -merge -underBinder +onlyGivenNames x3
  have hx3 : Touches [.regs, .cnt, .pow, .led, .hif, .line, .yok, .out] s x3 := by
    unfold x3
    refine Touches.foldl _ _ ?_ (fun y4 a4 hy4 => ?_)
    · exact hx1
    · exact Touches.chain (State.wrList_touches ..) (by decide) hy4
  clear_value x3
  extract_lets -merge -underBinder +onlyGivenNames x5
  have hx5 : Touches [.regs, .cnt, .pow, .led, .hif, .line, .yok, .out] s x5 := by
    unfold x5
    refine Touches.foldl _ _ ?_ (fun y6 a6 hy6 => ?_)
    · exact hx3
    · exact Touches.chain (State.wrList_touches ..) (by decide) hy6
  clear_value x5
  extract_lets -merge -underBinder +onlyGivenNames x7
  have hx7 : Touches [.regs, .cnt, .pow, .led, .hif, .line, .yok, .out] s x7 := by
    unfold x7
    refine Touches.foldl _ _ ?_ (fun y8 a8 hy8 => ?_)
    · exact hx5
    · exact Touches.chain (State.wrList_touches ..) (by decide) hy8
  clear_value x7
  extract_lets -merge -underBinder +onlyGivenNames x9
  have hx9 : Touches [.regs, .cnt, .pow, .led, .hif, .line, .yok, .out] s x9 := by
    unfold x9
    refine Touches.set_line (x := x7) ?_ (by decide)
    exact hx7
  clear_value x9
  extract_lets -merge -underBinder +onlyGivenNames x10
  clear_value x10
  show Touches _ _ _
  exact Touches.chain (State.wr_touches ..) (by decide) hx9

theorem State.laneCtrlEffect_touches (s : State) (p1 : ℕ) (p2 : Word) :
    Touches Part.main s (State.laneCtrlEffect s p1 p2) := by
  unfold State.laneCtrlEffect
  refine Touches.ite ?_ ?_
  · exact Touches.chain (State.noteFor_touches ..) (by decide) (Touches.rfl' _ s)
  · extract_lets -merge -underBinder +onlyGivenNames x0
    clear_value x0
    extract_lets -merge -underBinder +onlyGivenNames x1
    clear_value x1
    extract_lets -merge -underBinder +onlyGivenNames x2
    have hx2 : Touches Part.main s x2 := by
      unfold x2
      exact Touches.chain (State.wr_touches ..) (by decide) (Touches.rfl' _ s)
    clear_value x2
    split
    · exact hx2
    · extract_lets -merge -underBinder +onlyGivenNames x3
      have hx3 : Touches Part.main s x3 := by
        unfold x3
        refine Touches.ite ?_ ?_
        · exact Touches.chain (State.refreshPort_touches ..) (by decide) hx2
        · exact hx2
      clear_value x3
      exact Touches.chain (State.laneChanged_touches ..) (by decide) hx3

theorem execLaneCtrlWrite_touches (p0 : Path) (p1 : Fin 32) (p2 : Word) (s : State) :
    OutTouches Part.main s (execLaneCtrlWrite p0 p1 p2 s) := by
  unfold execLaneCtrlWrite
  extract_lets -merge -underBinder +onlyGivenNames x0
  clear_value x0
  show Touches _ _ _
  refine State.hostWrite_touches (by decide) ?_ (fun z1 hz1 => ?_)
  · exact (Touches.rfl' _ s)
  · exact Touches.chain (State.laneCtrlEffect_touches ..) (by decide) hz1

theorem State.clearTests_touches (s : State) (p1 : ℕ) :
    Touches [.regs] s (State.clearTests s p1) := by
  unfold State.clearTests
  refine Touches.foldl _ _ ?_ (fun y0 a0 hy0 => ?_)
  · exact (Touches.rfl' _ s)
  · exact Touches.chain (State.setFld_touches ..) (by decide) hy0

theorem State.portEnableEffect_touches (s : State) (p1 : Bool) (p2 : ℕ) (p3 : Word) :
    Touches Part.main s (State.portEnableEffect s p1 p2 p3) := by
  unfold State.portEnableEffect
  extract_lets -merge -underBinder +onlyGivenNames x0 x1 x2
  clear_value x0 x1 x2
  refine Touches.ite ?_ ?_
  · exact Touches.chain (State.note_touches ..) (by decide) (Touches.rfl' _ s)
  · extract_lets -merge -underBinder +onlyGivenNames x3
    clear_value x3
    extract_lets -merge -underBinder +onlyGivenNames x4
    have hx4 : Touches Part.main s x4 := by
      unfold x4
      refine Touches.ite ?_ ?_
      · exact Touches.chain (State.wr_touches ..) (by decide) (Touches.rfl' _ s)
      · exact Touches.chain (State.wr_touches ..) (by decide) (Touches.rfl' _ s)
    clear_value x4
    extract_lets -merge -underBinder +onlyGivenNames x5
    have hx5 : Touches Part.main s x5 := by
      unfold x5
      refine Touches.ite ?_ ?_
      · exact Touches.chain (State.setFlg_touches ..) (by decide) hx4
      · refine Touches.ite ?_ ?_
        · exact Touches.chain (State.setFlg_touches ..) (by decide) hx4
        · exact hx4
    clear_value x5
    extract_lets -merge -underBinder +onlyGivenNames x6
    have hx6 : Touches Part.main s x6 := by
      unfold x6
      refine Touches.ite ?_ ?_
      · exact Touches.chain (State.clearTests_touches ..) (by decide) hx5
      · exact hx5
    clear_value x6
    extract_lets -merge -underBinder +onlyGivenNames x7
    have hx7 : Touches Part.main s x7 := by
      unfold x7
      refine Touches.ite ?_ ?_
      · exact Touches.chain (State.refreshPort_touches ..) (by decide) hx6
      · exact hx6
    clear_value x7
    refine Touches.ite ?_ ?_
    · exact Touches.chain (State.refreshGroup_touches ..) (by decide) hx7
    · exact Touches.chain (State.recheck_touches ..) (by decide) hx7

theorem execPortEnableWrite_touches (p0 : Path) (p1 : Bool) (p2 : Fin 32) (p3 : Word) (s : State) :
    OutTouches Part.main s (execPortEnableWrite p0 p1 p2 p3 s) := by
  unfold execPortEnableWrite
  extract_lets -merge -underBinder +onlyGivenNames x0
  clear_value x0
  refine OutTouches.ite ?_ ?_
  · show Touches _ _ _
    exact (Touches.rfl' _ s)
  · extract_lets -merge -underBinder +onlyGivenNames x1
    clear_value x1
    show Touches _ _ _
    refine State.hostWrite_touches (by decide) ?_ (fun z2 hz2 => ?_)
    · exact (Touches.rfl' _ s)
    · exact Touches.chain (State.portEnableEffect_touches ..) (by decide) hz2

theorem execEthFrameReceive_touches (p0 : Fin 32) (p1 : List Byte) (s : State) :
    OutTouches [.line] s (execEthFrameReceive p0 p1 s) := by
  unfold execEthFrameReceive
  extract_lets -merge -underBinder +onlyGivenNames x0
  clear_value x0
  refine OutTouches.ite ?_ ?_
  · show Touches _ _ _
    exact (Touches.rfl' _ s)
  · refine OutTouches.ite ?_ ?_
    · show Touches _ _ _
      exact Touches.chain (State.tally_touches ..) (by decide) (Touches.rfl' _ s)
    · refine OutTouches.ite ?_ ?_
      · show Touches _ _ _
        exact Touches.chain (State.ethCount_touches ..) (by decide) (Touches.rfl' _ s)
      · refine OutTouches.ite ?_ ?_
        · show Touches _ _ _
          exact Touches.chain (State.ethCount_touches ..) (by decide) (Touches.rfl' _ s)
        · show Touches _ _ _
          exact Touches.chain (State.ethCount_touches ..) (by decide) (Touches.rfl' _ s)

end Sys2Proof.Machine
end

