-- ==== Sys2Proof/Laws/TouchRows.lean ====
section
/-! SUPPORT. What each operation of Machine/Rows.lean may touch. -/

namespace Sys2Proof.Machine

open Sys2Proof

theorem State.swapRefuse_touches (s : State) (p1 : ℕ) (p2 : ℕ) :
    Touches [.regs] s (State.swapRefuse s p1 p2) := by
  unfold State.swapRefuse
  refine Touches.chain (State.result_touches ..) (by decide) ?_
  exact Touches.chain (State.setFld_touches ..) (by decide) (Touches.rfl' _ s)

theorem execSwapCmd_touches (p0 : Path) (p1 : Word) (s : State) :
    OutTouches [.regs, .cnt, .armed, .pow, .led, .hif, .rows, .yok, .out] s (execSwapCmd p0 p1 s) := by
  unfold execSwapCmd
  show Touches _ _ _
  refine State.hostWrite_touches (by decide) ?_ (fun z0 hz0 => ?_)
  · exact (Touches.rfl' _ s)
  · extract_lets -merge -underBinder +onlyGivenNames x1
    clear_value x1
    extract_lets -merge -underBinder +onlyGivenNames x2
    clear_value x2
    refine Touches.ite ?_ ?_
    · extract_lets -merge -underBinder +onlyGivenNames x3
      clear_value x3
      extract_lets -merge -underBinder +onlyGivenNames x4
      have hx4 : Touches [.regs, .cnt, .armed, .pow, .led, .hif, .rows, .yok, .out] s x4 := by
        unfold x4
        exact Touches.chain (State.setPages_touches ..) (by decide) hz0
      clear_value x4
      extract_lets -merge -underBinder +onlyGivenNames x5
      have hx5 : Touches [.regs, .cnt, .armed, .pow, .led, .hif, .rows, .yok, .out] s x5 := by
        unfold x5
        refine Touches.chain (State.wr_touches ..) (by decide) ?_
        exact Touches.chain (State.wr_touches ..) (by decide) hx4
      clear_value x5
      exact Touches.chain (State.convey_touches ..) (by decide) hx5
    · refine Touches.ite ?_ ?_
      · refine Touches.chain (State.followerRefusal_touches ..) (by decide) ?_
        exact Touches.chain (State.swapRefuse_touches ..) (by decide) hz0
      · exact Touches.chain (State.swapRefuse_touches ..) (by decide) hz0

theorem State.pageSwap_touches (s : State) (p1 : ℕ) (p2 : ℕ) :
    Touches [.regs, .cnt, .pow, .led, .hif, .rows, .yok, .out] s (State.pageSwap s p1 p2) := by
  unfold State.pageSwap
  extract_lets -merge -underBinder +onlyGivenNames x0
  have hx0 : Touches [.regs, .cnt, .pow, .led, .hif, .rows, .yok, .out] s x0 := by
    unfold x0
    exact Touches.chain (State.setPages_touches ..) (by decide) (Touches.rfl' _ s)
  clear_value x0
  exact Touches.chain (State.note_touches ..) (by decide) hx0

theorem State.swapsDue_touches (s : State) (p1 : ℕ) :
    Touches [.regs, .cnt, .pow, .led, .hif, .rows, .yok, .out] s (State.swapsDue s p1) := by
  unfold State.swapsDue
  refine Touches.foldl _ _ ?_ (fun y0 a0 hy0 => ?_)
  · exact (Touches.rfl' _ s)
  · split
    · refine Touches.ite ?_ ?_
      · extract_lets -merge -underBinder +onlyGivenNames x1
        have hx1 : Touches [.regs, .cnt, .pow, .led, .hif, .rows, .yok, .out] s x1 := by
          unfold x1
          exact Touches.chain (State.pageSwap_touches ..) (by decide) hy0
        clear_value x1
        refine Touches.ite ?_ ?_
        · exact hx1
        · refine Touches.chain (State.result_touches ..) (by decide) ?_
          exact Touches.chain (State.setFld_touches ..) (by decide) hx1
      · exact hy0
    · exact hy0

theorem State.cmEffect_touches (s : State) (p1 : Bool) (p2 : ℕ) (p3 : ℕ) (p4 : Word) :
    Touches Part.note s (State.cmEffect s p1 p2 p3 p4) := by
  unfold State.cmEffect
  extract_lets -merge -underBinder +onlyGivenNames x0
  clear_value x0
  split
  · exact Touches.chain (State.note_touches ..) (by decide) (Touches.rfl' _ s)
  · extract_lets -merge -underBinder +onlyGivenNames x1
    clear_value x1
    extract_lets -merge -underBinder +onlyGivenNames x2
    clear_value x2
    refine Touches.ite ?_ ?_
    · exact Touches.chain (State.wr_touches ..) (by decide) (Touches.rfl' _ s)
    · exact Touches.chain (State.note_touches ..) (by decide) (Touches.rfl' _ s)

theorem execConnectionMemoryWrite_touches (p0 : Path) (p1 : Bool) (p2 : Fin 2) (p3 : Fin 512) (p4 : Word) (s : State) :
    OutTouches [.regs, .cnt, .armed, .pow, .led, .hif, .yok, .out] s (execConnectionMemoryWrite p0 p1 p2 p3 p4 s) := by
  unfold execConnectionMemoryWrite
  extract_lets -merge -underBinder +onlyGivenNames x0
  clear_value x0
  show Touches _ _ _
  refine State.hostWrite_touches (by decide) ?_ (fun z1 hz1 => ?_)
  · exact (Touches.rfl' _ s)
  · exact Touches.chain (State.cmEffect_touches ..) (by decide) hz1

theorem State.pairCfgEffect_touches (s : State) (p1 : ℕ) (p2 : Word) :
    Touches [.regs, .cnt, .pow, .led, .hif, .rows, .yok, .out] s (State.pairCfgEffect s p1 p2) := by
  unfold State.pairCfgEffect
  extract_lets -merge -underBinder +onlyGivenNames x0 x1
  clear_value x0 x1
  refine Touches.ite ?_ ?_
  · extract_lets -merge -underBinder +onlyGivenNames x2
    have hx2 : Touches [.regs, .cnt, .pow, .led, .hif, .rows, .yok, .out] s x2 := by
      unfold x2
      refine Touches.ite ?_ ?_
      · exact Touches.chain (State.note_touches ..) (by decide) (Touches.rfl' _ s)
      · exact (Touches.rfl' _ s)
    clear_value x2
    refine Touches.ite ?_ ?_
    · exact hx2
    · refine Touches.chain (State.setPair_touches ..) (by decide) ?_
      exact Touches.chain (State.setFlg_touches ..) (by decide) hx2
  · refine Touches.ite ?_ ?_
    · exact Touches.chain (State.wr_touches ..) (by decide) (Touches.rfl' _ s)
    · refine Touches.ite ?_ ?_
      · extract_lets -merge -underBinder +onlyGivenNames x3
        have hx3 : Touches [.regs, .cnt, .pow, .led, .hif, .rows, .yok, .out] s x3 := by
          unfold x3
          refine Touches.chain (State.setPair_touches ..) (by decide) ?_
          exact Touches.chain (State.wr_touches ..) (by decide) (Touches.rfl' _ s)
        clear_value x3
        extract_lets -merge -underBinder +onlyGivenNames x4
        clear_value x4
        refine Touches.ite ?_ ?_
        · exact Touches.chain (State.startHoldoff_touches ..) (by decide) hx3
        · exact hx3
      · refine Touches.chain (State.note_touches ..) (by decide) ?_
        exact Touches.chain (State.wr_touches ..) (by decide) (Touches.rfl' _ s)

theorem execPairCfgWrite_touches (p0 : Path) (p1 : Fin 8) (p2 : Word) (s : State) :
    OutTouches [.regs, .cnt, .armed, .pow, .led, .hif, .rows, .yok, .out] s (execPairCfgWrite p0 p1 p2 s) := by
  unfold execPairCfgWrite
  extract_lets -merge -underBinder +onlyGivenNames x0 x1
  clear_value x0 x1
  show Touches _ _ _
  refine State.hostWrite_touches (by decide) ?_ (fun z2 hz2 => ?_)
  · exact (Touches.rfl' _ s)
  · exact Touches.chain (State.pairCfgEffect_touches ..) (by decide) hz2

theorem State.switchSelector_touches (s : State) (p1 : ℕ) (p2 : ℕ) (p3 : ℕ) :
    Touches [.regs, .cnt, .pow, .led, .hif, .line, .rows, .yok, .out] s (State.switchSelector s p1 p2 p3) := by
  unfold State.switchSelector
  extract_lets -merge -underBinder +onlyGivenNames x0
  clear_value x0
  refine Touches.ite ?_ ?_
  · exact (Touches.rfl' _ s)
  · extract_lets -merge -underBinder +onlyGivenNames x1
    clear_value x1
    extract_lets -merge -underBinder +onlyGivenNames x2
    have hx2 : Touches [.regs, .cnt, .pow, .led, .hif, .line, .rows, .yok, .out] s x2 := by
      unfold x2
      exact Touches.chain (State.setPair_touches ..) (by decide) (Touches.rfl' _ s)
    clear_value x2
    extract_lets -merge -underBinder +onlyGivenNames x3 x4
    clear_value x3 x4
    extract_lets -merge -underBinder +onlyGivenNames x5
    have hx5 : Touches [.regs, .cnt, .pow, .led, .hif, .line, .rows, .yok, .out] s x5 := by
      unfold x5
      refine Touches.set_line (x := x2) ?_ (by decide)
      exact hx2
    clear_value x5
    extract_lets -merge -underBinder +onlyGivenNames x6
    have hx6 : Touches [.regs, .cnt, .pow, .led, .hif, .line, .rows, .yok, .out] s x6 := by
      unfold x6
      exact Touches.chain (State.wr_touches ..) (by decide) hx5
    clear_value x6
    exact Touches.chain (State.note_touches ..) (by decide) hx6

theorem State.evalPair_touches (s : State) (p1 : ℕ) :
    Touches [.regs, .cnt, .pow, .led, .hif, .line, .rows, .yok, .out] s (State.evalPair s p1) := by
  unfold State.evalPair
  extract_lets -merge -underBinder +onlyGivenNames x0 x1 x2 x3 x4 x5 x6 x7 x8 x9
  clear_value x0 x1 x2 x3 x4 x5 x6 x7 x8 x9
  extract_lets -merge -underBinder +onlyGivenNames x10
  extract_lets -merge -underBinder +onlyGivenNames x11
  have hx11 : Touches [.regs, .cnt, .pow, .led, .hif, .line, .rows, .yok, .out] s x11 := by
    unfold x11
    exact Touches.chain (State.setPair_touches ..) (by decide) (Touches.rfl' _ s)
  clear_value x11
  extract_lets -merge -underBinder +onlyGivenNames x12
  have hx12 : Touches [.regs, .cnt, .pow, .led, .hif, .line, .rows, .yok, .out] s x12 := by
    unfold x12
    exact Touches.chain (State.switchSelector_touches ..) (by decide) hx11
  clear_value x12
  refine Touches.ite ?_ ?_
  · exact Touches.chain (State.convey_touches ..) (by decide) hx12
  · exact hx12

theorem State.apsDue_touches (s : State) (p1 : ℕ) :
    Touches [.regs, .cnt, .pow, .led, .hif, .line, .rows, .yok, .out] s (State.apsDue s p1) := by
  unfold State.apsDue
  extract_lets -merge -underBinder +onlyGivenNames x0
  clear_value x0
  extract_lets -merge -underBinder +onlyGivenNames x1
  have hx1 : Touches [.regs, .cnt, .pow, .led, .hif, .line, .rows, .yok, .out] s x1 := by
    unfold x1
    exact Touches.chain (State.setPair_touches ..) (by decide) (Touches.rfl' _ s)
  clear_value x1
  refine Touches.foldl _ _ ?_ (fun y2 a2 hy2 => ?_)
  · exact hx1
  · refine Touches.chain (State.switchSelector_touches ..) (by decide) ?_
    exact Touches.chain (State.setPair_touches ..) (by decide) hy2

theorem State.evalPairs_touches (s : State) :
    Touches [.regs, .cnt, .pow, .led, .hif, .line, .rows, .yok, .out] s (State.evalPairs s) := by
  unfold State.evalPairs
  refine Touches.ite ?_ ?_
  · refine Touches.foldl _ _ ?_ (fun y0 a0 hy0 => ?_)
    · exact (Touches.rfl' _ s)
    · exact Touches.chain (State.apsDue_touches ..) (by decide) hy0
  · refine Touches.foldl _ _ ?_ (fun y1 a1 hy1 => ?_)
    · exact (Touches.rfl' _ s)
    · refine Touches.ite ?_ ?_
      · exact Touches.chain (State.evalPair_touches ..) (by decide) hy1
      · exact hy1

theorem State.apsEnd_touches (s : State) (p1 : ℕ) (p2 : ℕ) :
    Touches Part.note s (State.apsEnd s p1 p2) := by
  unfold State.apsEnd
  extract_lets -merge -underBinder +onlyGivenNames x0
  have hx0 : Touches Part.note s x0 := by
    unfold x0
    exact Touches.chain (State.wr_touches ..) (by decide) (Touches.rfl' _ s)
  clear_value x0
  refine Touches.ite ?_ ?_
  · exact hx0
  · exact Touches.chain (State.note_touches ..) (by decide) hx0

theorem State.apsCommand_touches (s : State) (p1 : Path) (p2 : ℕ) (p3 : ℕ) (p4 : State → Bool) (p5 : Pair → Pair) :
    Touches [.regs, .cnt, .armed, .pow, .led, .hif, .rows, .yok, .out] s (State.apsCommand s p1 p2 p3 p4 p5) := by
  unfold State.apsCommand
  refine State.hostWrite_touches (by decide) ?_ (fun z0 hz0 => ?_)
  · exact (Touches.rfl' _ s)
  · refine Touches.ite ?_ ?_
    · refine Touches.chain (State.followerRefusal_touches ..) (by decide) ?_
      exact Touches.chain (State.apsEnd_touches ..) (by decide) hz0
    · refine Touches.ite ?_ ?_
      · exact Touches.chain (State.apsEnd_touches ..) (by decide) hz0
      · refine Touches.ite ?_ ?_
        · exact Touches.chain (State.apsEnd_touches ..) (by decide) hz0
        · refine Touches.chain (State.apsEnd_touches ..) (by decide) ?_
          exact Touches.chain (State.setPair_touches ..) (by decide) hz0

theorem execApsClear_touches (p0 : Path) (p1 : Fin 8) (s : State) :
    OutTouches [.regs, .cnt, .armed, .pow, .led, .hif, .rows, .yok, .out] s (execApsClear p0 p1 s) := by
  unfold execApsClear
  show Touches _ _ _
  exact Touches.chain (State.apsCommand_touches ..) (by decide) (Touches.rfl' _ s)

theorem execApsLockout_touches (p0 : Path) (p1 : Fin 8) (s : State) :
    OutTouches [.regs, .cnt, .armed, .pow, .led, .hif, .rows, .yok, .out] s (execApsLockout p0 p1 s) := by
  unfold execApsLockout
  show Touches _ _ _
  exact Touches.chain (State.apsCommand_touches ..) (by decide) (Touches.rfl' _ s)

theorem execApsForced_touches (p0 : Path) (p1 : Fin 8) (s : State) :
    OutTouches [.regs, .cnt, .armed, .pow, .led, .hif, .rows, .yok, .out] s (execApsForced p0 p1 s) := by
  unfold execApsForced
  show Touches _ _ _
  exact Touches.chain (State.apsCommand_touches ..) (by decide) (Touches.rfl' _ s)

theorem execApsManualP_touches (p0 : Path) (p1 : Fin 8) (s : State) :
    OutTouches [.regs, .cnt, .armed, .pow, .led, .hif, .rows, .yok, .out] s (execApsManualP p0 p1 s) := by
  unfold execApsManualP
  show Touches _ _ _
  exact Touches.chain (State.apsCommand_touches ..) (by decide) (Touches.rfl' _ s)

theorem execApsManualW_touches (p0 : Path) (p1 : Fin 8) (s : State) :
    OutTouches [.regs, .cnt, .armed, .pow, .led, .hif, .rows, .yok, .out] s (execApsManualW p0 p1 s) := by
  unfold execApsManualW
  show Touches _ _ _
  exact Touches.chain (State.apsCommand_touches ..) (by decide) (Touches.rfl' _ s)

theorem execApsCmdUnknown_touches (p0 : Path) (p1 : Fin 8) (p2 : Fin 16) (s : State) :
    OutTouches [.regs, .cnt, .armed, .pow, .led, .hif, .yok, .out] s (execApsCmdUnknown p0 p1 p2 s) := by
  unfold execApsCmdUnknown
  extract_lets -merge -underBinder +onlyGivenNames x0
  clear_value x0
  refine OutTouches.ite ?_ ?_
  · show Touches _ _ _
    exact (Touches.rfl' _ s)
  · show Touches _ _ _
    refine State.hostWrite_touches (by decide) ?_ (fun z1 hz1 => ?_)
    · exact (Touches.rfl' _ s)
    · exact Touches.chain (State.apsEnd_touches ..) (by decide) hz1

theorem State.restartAps_touches (s : State) :
    Touches [.rows] s (State.restartAps s) := by
  unfold State.restartAps
  refine Touches.set_rows (x := s) ?_ (by decide)
  exact (Touches.rfl' _ s)

theorem execHoldoffExpiry_touches (p0 : Fin 8) (s : State) :
    OutTouches [.rows] s (execHoldoffExpiry p0 s) := by
  unfold execHoldoffExpiry
  refine OutTouches.ite ?_ ?_
  · show Touches _ _ _
    exact Touches.chain (State.setPair_touches ..) (by decide) (Touches.rfl' _ s)
  · show Touches _ _ _
    exact (Touches.rfl' _ s)

theorem execWtrExpiry_touches (p0 : Fin 8) (s : State) :
    OutTouches [.rows] s (execWtrExpiry p0 s) := by
  unfold execWtrExpiry
  refine OutTouches.ite ?_ ?_
  · show Touches _ _ _
    exact Touches.chain (State.setPair_touches ..) (by decide) (Touches.rfl' _ s)
  · show Touches _ _ _
    exact (Touches.rfl' _ s)

end Sys2Proof.Machine
end

