-- ==== Sys2Proof/Laws/TouchClassifier.lean ====
section
/-! SUPPORT. What each operation of Machine/Classifier.lean may touch. -/

namespace Sys2Proof.Machine

open Sys2Proof

set_option linter.unusedTactic false
set_option linter.unreachableTactic false

theorem State.putEntry_touches (s : State) (p1 : ℕ) (p2 : List Byte) :
    Touches [.regs] s (State.putEntry s p1 p2) := by
  unfold State.putEntry
  refine Touches.foldl _ _ ?_ (fun y0 a0 hy0 => ?_)
  · exact (Touches.rfl' _ s)
  · exact Touches.chain (State.wr_touches ..) (by decide) hy0

theorem State.altWrite_touches (s : State) (p1 : ℕ) (p2 : Option AltEntry) :
    Touches [.cls, .yok, .out] s (State.altWrite s p1 p2) := by
  unfold State.altWrite
  extract_lets -merge -underBinder +onlyGivenNames x0
  clear_value x0
  extract_lets -merge -underBinder +onlyGivenNames x1
  have hx1 : Touches [.cls, .yok, .out] s x1 := by
    unfold x1
    refine Touches.set_cls (x := s) ?_ (by decide)
    exact (Touches.rfl' _ s)
  clear_value x1
  exact Touches.chain (State.convey_touches ..) (by decide) hx1

theorem State.altHit_touches (s : State) (p1 : ℕ) :
    Touches [.cls] s (State.altHit s p1) := by
  unfold State.altHit
  split
  · refine Touches.set_cls (x := s) ?_ (by decide)
    exact (Touches.rfl' _ s)
  · exact (Touches.rfl' _ s)

theorem State.quotaCheck_touches (s : State) (p1 : ℕ) :
    Touches [.regs, .cnt, .pow, .led, .hif, .cls, .yok, .out] s (State.quotaCheck s p1) := by
  unfold State.quotaCheck
  refine Touches.ite ?_ ?_
  · refine Touches.ite ?_ ?_
    · exact (Touches.rfl' _ s)
    · refine Touches.chain (State.noteFor_touches ..) (by decide) ?_
      refine Touches.set_cls (x := s) ?_ (by decide)
      exact (Touches.rfl' _ s)
  · refine Touches.set_cls (x := s) ?_ (by decide)
    exact (Touches.rfl' _ s)

theorem State.quotaSettle_touches (s : State) :
    Touches [.cls] s (State.quotaSettle s) := by
  unfold State.quotaSettle
  refine Touches.set_cls (x := s) ?_ (by decide)
  exact (Touches.rfl' _ s)

theorem State.altPut_touches (s : State) (p1 : ℕ) (p2 : Option AltEntry) :
    Touches [.regs, .cnt, .pow, .led, .hif, .cls, .yok, .out] s (State.altPut s p1 p2) := by
  unfold State.altPut
  extract_lets -merge -underBinder +onlyGivenNames x0
  clear_value x0
  refine Touches.foldl _ _ ?_ (fun y1 a1 hy1 => ?_)
  · exact Touches.chain (State.altWrite_touches ..) (by decide) (Touches.rfl' _ s)
  · exact Touches.chain (State.quotaCheck_touches ..) (by decide) hy1

theorem State.altEcc_touches (s : State) (p1 : ℕ) :
    Touches Part.main s (State.altEcc s p1) := by
  unfold State.altEcc
  split
  · exact (Touches.rfl' _ s)
  · extract_lets -merge -underBinder +onlyGivenNames x0
    clear_value x0
    extract_lets -merge -underBinder +onlyGivenNames x1
    have hx1 : Touches Part.main s x1 := by
      unfold x1
      refine Touches.ite ?_ ?_
      · refine Touches.chain (State.report_touches ..) (by decide) ?_
        refine Touches.set_yok (x := s) ?_ (by decide)
        exact (Touches.rfl' _ s)
      · refine Touches.ite ?_ ?_
        · exact (Touches.rfl' _ s)
        · exact Touches.chain (State.altPut_touches ..) (by decide) (Touches.rfl' _ s)
    clear_value x1
    exact Touches.chain (State.raiseFull_touches ..) (by decide) hx1

theorem State.altErrors_touches (s : State) (p1 : List ℕ) (p2 : ℕ) :
    Touches Part.main s (State.altErrors s p1 p2) := by
  unfold State.altErrors
  refine Touches.foldl _ _ ?_ (fun y0 a0 hy0 => ?_)
  · exact Touches.chain (State.incBy_touches ..) (by decide) (Touches.rfl' _ s)
  · exact Touches.chain (State.altEcc_touches ..) (by decide) hy0

theorem State.rand_touches (s : State) (p1 : ℕ) :
    Touches [.kvt, .free] s (State.rand s p1).2 := by
  unfold State.rand
  split
  rename_i v0 v1 v2 e3
  have hv2 : Touches [.kvt, .free] s v2 := by
    refine Touches.ofSnd e3 ?_
    exact Touches.chain (State.rbgTake_touches ..) (by decide) (Touches.rfl' _ s)
  exact hv2

theorem State.chain_touches (s : State) (p1 : ℕ) (p2 : List ℕ) (p3 : ℕ) :
    Touches [.kvt, .free] s (State.chain s p1 p2 p3).2 := by
  unfold State.chain
  split
  · refine Touches.mk2 ?_
    exact (Touches.rfl' _ s)
  · split
    · refine Touches.mk2 ?_
      exact (Touches.rfl' _ s)
    · extract_lets -merge -underBinder +onlyGivenNames x0
      clear_value x0
      extract_lets -merge -underBinder +onlyGivenNames x1
      clear_value x1
      split
      · refine Touches.mk2 ?_
        exact (Touches.rfl' _ s)
      · split
        rename_i v2 v3 v4 e5
        have hv4 : Touches [.kvt, .free] s v4 := by
          refine Touches.ofSnd e5 ?_
          exact Touches.chain (State.rand_touches ..) (by decide) (Touches.rfl' _ s)
        split
        · refine Touches.chain (State.chain_touches ..) (by decide) ?_
          exact hv4
        · exact hv4

theorem State.shift_touches (s : State) (p1 : List ℕ) (p2 : ℕ) :
    Touches [.cls, .yok, .out] s (State.shift s p1 p2) := by
  unfold State.shift
  split
  · exact (Touches.rfl' _ s)
  · extract_lets -merge -underBinder +onlyGivenNames x0
    clear_value x0
    extract_lets -merge -underBinder +onlyGivenNames x1
    have hx1 : Touches [.cls, .yok, .out] s x1 := by
      unfold x1
      refine Touches.chain (State.shift_touches ..) (by decide) ?_
      exact (Touches.rfl' _ s)
    clear_value x1
    exact Touches.chain (State.altWrite_touches ..) (by decide) hx1

theorem State.noPlace_touches (s : State) (p1 : AltEntry) :
    Touches Part.note s (State.noPlace s p1).1 := by
  unfold State.noPlace
  refine Touches.mk1 ?_
  exact Touches.chain (State.noteFor_touches ..) (by decide) (Touches.rfl' _ s)

theorem State.evict_touches (s : State) (p1 : AltEntry) (p2 : Bool) (p3 : Bool) :
    Touches [.regs, .cnt, .pow, .led, .hif, .cls, .kvt, .yok, .out, .free] s (State.evict s p1 p2 p3).1 := by
  unfold State.evict
  extract_lets -merge -underBinder +onlyGivenNames x0 x1
  clear_value x0 x1
  refine Touches.ite1 ?_ ?_
  · exact Touches.chain (State.noPlace_touches ..) (by decide) (Touches.rfl' _ s)
  · split
    rename_i v2 v3 v4 e5
    have hv4 : Touches [.regs, .cnt, .pow, .led, .hif, .cls, .kvt, .yok, .out, .free] s v4 := by
      refine Touches.ofSnd e5 ?_
      refine Touches.ite2 ?_ ?_
      · split
        rename_i v6 v7 v8 e9
        have hv8 : Touches [.regs, .cnt, .pow, .led, .hif, .cls, .kvt, .yok, .out, .free] s v8 := by
          refine Touches.ofSnd e9 ?_
          exact Touches.chain (State.rand_touches ..) (by decide) (Touches.rfl' _ s)
        exact hv8
      · refine Touches.mk2 ?_
        exact (Touches.rfl' _ s)
    split
    · exact Touches.chain (State.noPlace_touches ..) (by decide) hv4
    · extract_lets -merge -underBinder +onlyGivenNames x10
      have hx10 : Touches [.regs, .cnt, .pow, .led, .hif, .cls, .kvt, .yok, .out, .free] s x10 := by
        unfold x10
        refine Touches.chain (State.inc_touches ..) (by decide) ?_
        exact Touches.chain (State.altPut_touches ..) (by decide) hv4
      clear_value x10
      refine Touches.mk1 ?_
      exact Touches.chain (State.noteFor_touches ..) (by decide) hx10

theorem State.place_touches (s : State) (p1 : AltEntry) (p2 : Bool) (p3 : Bool) :
    Touches [.regs, .cnt, .pow, .led, .hif, .cls, .kvt, .yok, .out, .free] s (State.place s p1 p2 p3).1 := by
  unfold State.place
  extract_lets -merge -underBinder +onlyGivenNames x0 x1
  clear_value x0 x1
  split
  · refine Touches.mk1 ?_
    exact Touches.chain (State.altPut_touches ..) (by decide) (Touches.rfl' _ s)
  · refine Touches.ite1 ?_ ?_
    · exact Touches.chain (State.noPlace_touches ..) (by decide) (Touches.rfl' _ s)
    · split
      rename_i v2 v3 v4 e5
      have hv4 : Touches [.regs, .cnt, .pow, .led, .hif, .cls, .kvt, .yok, .out, .free] s v4 := by
        refine Touches.ofSnd e5 ?_
        exact Touches.chain (State.rand_touches ..) (by decide) (Touches.rfl' _ s)
      split
      rename_i v6 v7 v8 e9
      have hv8 : Touches [.regs, .cnt, .pow, .led, .hif, .cls, .kvt, .yok, .out, .free] s v8 := by
        refine Touches.ofSnd e9 ?_
        exact Touches.chain (State.chain_touches ..) (by decide) hv4
      split
      · extract_lets -merge -underBinder +onlyGivenNames x10
        have hx10 : Touches [.regs, .cnt, .pow, .led, .hif, .cls, .kvt, .yok, .out, .free] s x10 := by
          unfold x10
          refine Touches.chain (State.altPut_touches ..) (by decide) ?_
          exact Touches.chain (State.shift_touches ..) (by decide) hv8
        clear_value x10
        refine Touches.mk1 ?_
        exact Touches.chain (State.incBy_touches ..) (by decide) hx10
      · exact Touches.chain (State.evict_touches ..) (by decide) hv8

theorem State.classified_touches (s : State) (p1 : List Byte) (p2 : ℕ) (p3 : ℕ) (p4 : Option ℕ) (p5 : Option ℕ) (p6 : List ℕ) :
    Touches [.cnt, .sch] s (State.classified s p1 p2 p3 p4 p5 p6) := by
  unfold State.classified
  split
  · split
    · exact Touches.chain (State.inc_touches ..) (by decide) (Touches.rfl' _ s)
    · refine Touches.set_sch (x := s) ?_ (by decide)
      exact (Touches.rfl' _ s)
  · extract_lets -merge -underBinder +onlyGivenNames x0
    clear_value x0
    extract_lets -merge -underBinder +onlyGivenNames x1 x2
    clear_value x1 x2
    refine Touches.set_sch (x := s) ?_ (by decide)
    exact (Touches.rfl' _ s)

theorem State.floodFrame_touches (s : State) (p1 : List Byte) (p2 : ℕ) (p3 : ℕ) :
    Touches [.cnt, .sch] s (State.floodFrame s p1 p2 p3) := by
  unfold State.floodFrame
  extract_lets -merge -underBinder +onlyGivenNames x0
  clear_value x0
  refine Touches.ite ?_ ?_
  · exact Touches.chain (State.inc_touches ..) (by decide) (Touches.rfl' _ s)
  · extract_lets -merge -underBinder +onlyGivenNames x1
    have hx1 : Touches [.cnt, .sch] s x1 := by
      unfold x1
      exact Touches.chain (State.inc_touches ..) (by decide) (Touches.rfl' _ s)
    clear_value x1
    split
    · exact Touches.chain (State.inc_touches ..) (by decide) hx1
    · exact Touches.chain (State.classified_touches ..) (by decide) hx1

theorem State.missPath_touches (s : State) (p1 : List Byte) (p2 : ℕ) :
    Touches [.cnt, .sch] s (State.missPath s p1 p2) := by
  unfold State.missPath
  extract_lets -merge -underBinder +onlyGivenNames x0 x1 x2
  clear_value x0 x1 x2
  refine Touches.ite ?_ ?_
  · exact Touches.chain (State.floodFrame_touches ..) (by decide) (Touches.rfl' _ s)
  · refine Touches.ite ?_ ?_
    · exact Touches.chain (State.inc_touches ..) (by decide) (Touches.rfl' _ s)
    · refine Touches.ite ?_ ?_
      · refine Touches.chain (State.classified_touches ..) (by decide) ?_
        exact Touches.chain (State.inc_touches ..) (by decide) (Touches.rfl' _ s)
      · refine Touches.ite ?_ ?_
        · exact Touches.chain (State.floodFrame_touches ..) (by decide) (Touches.rfl' _ s)
        · exact Touches.chain (State.inc_touches ..) (by decide) (Touches.rfl' _ s)

theorem State.lookup_touches (s : State) (p1 : ℕ) (p2 : List Byte) (p3 : List (Fin 8)) (p4 : ℕ) :
    Touches Part.main s (State.lookup s p1 p2 p3 p4) := by
  unfold State.lookup
  refine Touches.ite ?_ ?_
  · extract_lets -merge -underBinder +onlyGivenNames x0
    clear_value x0
    refine Touches.ite ?_ ?_
    · refine Touches.chain (State.classified_touches ..) (by decide) ?_
      exact Touches.chain (State.inc_touches ..) (by decide) (Touches.rfl' _ s)
    · exact Touches.chain (State.inc_touches ..) (by decide) (Touches.rfl' _ s)
  · split
    · exact Touches.chain (State.missPath_touches ..) (by decide) (Touches.rfl' _ s)
    · refine Touches.chain (State.missPath_touches ..) (by decide) ?_
      exact Touches.chain (State.inc_touches ..) (by decide) (Touches.rfl' _ s)
    · extract_lets -merge -underBinder +onlyGivenNames x1
      clear_value x1
      extract_lets -merge -underBinder +onlyGivenNames x2
      have hx2 : Touches Part.main s x2 := by
        unfold x2
        exact Touches.chain (State.inc_touches ..) (by decide) (Touches.rfl' _ s)
      clear_value x2
      extract_lets -merge -underBinder +onlyGivenNames x3 x4
      clear_value x3 x4
      extract_lets -merge -underBinder +onlyGivenNames x5
      have hx5 : Touches Part.main s x5 := by
        unfold x5
        exact Touches.chain (State.altErrors_touches ..) (by decide) hx2
      clear_value x5
      split
      · refine Touches.ite ?_ ?_
        · exact hx5
        · refine Touches.chain (State.missPath_touches ..) (by decide) ?_
          exact Touches.chain (State.inc_touches ..) (by decide) hx5
      · split
        · refine Touches.chain (State.missPath_touches ..) (by decide) ?_
          exact Touches.chain (State.inc_touches ..) (by decide) hx5
        · extract_lets -merge -underBinder +onlyGivenNames x6
          have hx6 : Touches Part.main s x6 := by
            unfold x6
            refine Touches.chain (State.altHit_touches ..) (by decide) ?_
            exact Touches.chain (State.inc_touches ..) (by decide) hx5
          clear_value x6
          exact Touches.chain (State.classified_touches ..) (by decide) hx6

theorem State.sawClassified_touches (s : State) (p1 : Option ℕ) (p2 : Sight) (p3 : ℕ) :
    Touches [.regs, .cnt, .pow, .led, .hif, .sch, .yok, .out] s (State.sawClassified s p1 p2 p3) := by
  unfold State.sawClassified
  split
  · exact Touches.chain (State.observe_touches ..) (by decide) (Touches.rfl' _ s)
  · extract_lets -merge -underBinder +onlyGivenNames x0
    clear_value x0
    extract_lets -merge -underBinder +onlyGivenNames x1
    clear_value x1
    extract_lets -merge -underBinder +onlyGivenNames x2
    have hx2 : Touches [.regs, .cnt, .pow, .led, .hif, .sch, .yok, .out] s x2 := by
      unfold x2
      refine Touches.set_sch (x := s) ?_ (by decide)
      exact (Touches.rfl' _ s)
    clear_value x2
    exact Touches.chain (State.observe_touches ..) (by decide) hx2

theorem execClientFrameLookup_touches (p0 : Fin 16) (p1 : List Byte) (p2 : List (Fin 8)) (p3 : Fin 9) (s : State) :
    OutTouches Part.main s (execClientFrameLookup p0 p1 p2 p3 s) := by
  unfold execClientFrameLookup
  extract_lets -merge -underBinder +onlyGivenNames x0
  clear_value x0
  split
  rename_i v1 v2 v3 e4
  have hv3 : Touches Part.main s v3 := by
    refine Touches.ofSnd e4 ?_
    exact Touches.chain (State.drawTag_touches ..) (by decide) (Touches.rfl' _ s)
  extract_lets -merge -underBinder +onlyGivenNames x5
  clear_value x5
  extract_lets -merge -underBinder +onlyGivenNames x6
  have hx6 : Touches Part.main s x6 := by
    unfold x6
    exact Touches.chain (State.observe_touches ..) (by decide) hv3
  clear_value x6
  refine OutTouches.ite ?_ ?_
  · show Touches _ _ _
    exact hx6
  · show Touches _ _ _
    refine Touches.chain (State.sawClassified_touches ..) (by decide) ?_
    exact Touches.chain (State.lookup_touches ..) (by decide) hx6

theorem State.setFrame_touches (s : State) (p1 : ℕ) (p2 : Option Frame) :
    Touches [.sch] s (State.setFrame s p1 p2) := by
  unfold State.setFrame
  refine Touches.set_sch (x := s) ?_ (by decide)
  exact (Touches.rfl' _ s)

theorem State.modFrame_touches (s : State) (p1 : ℕ) (p2 : Frame → Frame) :
    Touches [.sch] s (State.modFrame s p1 p2) := by
  unfold State.modFrame
  split
  · exact Touches.chain (State.setFrame_touches ..) (by decide) (Touches.rfl' _ s)
  · exact (Touches.rfl' _ s)

theorem State.setVerdict_touches (s : State) (p1 : ℕ) (p2 : Bool) :
    Touches [.sch, .yok] s (State.setVerdict s p1 p2) := by
  unfold State.setVerdict
  split
  · exact Touches.chain (State.setFrame_touches ..) (by decide) (Touches.rfl' _ s)
  · extract_lets -merge -underBinder +onlyGivenNames x0
    clear_value x0
    apply Touches.put (x := s)
    · and_intros <;> first | exact .inr (by decide) | exact .inl rfl | exact SMap.wf_set _ _ _ _ | exact SMap.wf_dropRange _ _ _ _ | exact SMap.wf_filter _ _ _ | exact fun h => by rw [Ledger.reset_log]; exact h | exact id | exact fun _ => rfl
    · exact (Touches.rfl' _ s)

theorem State.stationMove_touches (s : State) (p1 : ℕ) (p2 : AltEntry) (p3 : LearnReq) :
    Touches [.regs, .cnt, .pow, .led, .hif, .cls, .yok, .out] s (State.stationMove s p1 p2 p3) := by
  unfold State.stationMove
  refine Touches.ite ?_ ?_
  · exact (Touches.rfl' _ s)
  · refine Touches.ite ?_ ?_
    · exact Touches.chain (State.noteFor_touches ..) (by decide) (Touches.rfl' _ s)
    · refine Touches.ite ?_ ?_
      · refine Touches.chain (State.noteFor_touches ..) (by decide) ?_
        refine Touches.chain (State.inc_touches ..) (by decide) ?_
        exact Touches.chain (State.altPut_touches ..) (by decide) (Touches.rfl' _ s)
      · refine Touches.ite ?_ ?_
        · exact Touches.chain (State.inc_touches ..) (by decide) (Touches.rfl' _ s)
        · extract_lets -merge -underBinder +onlyGivenNames x0
          clear_value x0
          refine Touches.chain (State.noteFor_touches ..) (by decide) ?_
          refine Touches.chain (State.inc_touches ..) (by decide) ?_
          exact Touches.chain (State.altPut_touches ..) (by decide) (Touches.rfl' _ s)

theorem State.nextProbe_touches (s : State) :
    Touches [.cls, .sch, .yok] s (State.nextProbe s) := by
  unfold State.nextProbe
  split
  · exact (Touches.rfl' _ s)
  · refine Touches.chain (State.setVerdict_touches ..) (by decide) ?_
    refine Touches.set_cls (x := s) ?_ (by decide)
    exact (Touches.rfl' _ s)

theorem execLearnProbe_touches (p0 : List (Fin 8)) (p1 : Fin 9) (s : State) :
    OutTouches Part.main s (execLearnProbe p0 p1 s) := by
  unfold execLearnProbe
  split
  · show Touches _ _ _
    exact (Touches.rfl' _ s)
  · extract_lets -merge -underBinder +onlyGivenNames x0
    clear_value x0
    extract_lets -merge -underBinder +onlyGivenNames x1
    have hx1 : Touches Part.main s x1 := by
      unfold x1
      refine Touches.chain (State.nextProbe_touches ..) (by decide) ?_
      refine Touches.set_cls (x := s) ?_ (by decide)
      exact (Touches.rfl' _ s)
    clear_value x1
    refine OutTouches.ite ?_ ?_
    · show Touches _ _ _
      exact hx1
    · extract_lets -merge -underBinder +onlyGivenNames x2
      have hx2 : Touches Part.main s x2 := by
        unfold x2
        exact Touches.chain (State.inc_touches ..) (by decide) hx1
      clear_value x2
      extract_lets -merge -underBinder +onlyGivenNames x3 x4 x5
      clear_value x3 x4 x5
      extract_lets -merge -underBinder +onlyGivenNames x6
      have hx6 : Touches Part.main s x6 := by
        unfold x6
        exact Touches.chain (State.altErrors_touches ..) (by decide) hx2
      clear_value x6
      split
      · extract_lets -merge -underBinder +onlyGivenNames x7
        have hx7 : Touches Part.main s x7 := by
          unfold x7
          exact Touches.chain (State.altHit_touches ..) (by decide) hx6
        clear_value x7
        split
        · show Touches _ _ _
          exact hx7
        · show Touches _ _ _
          refine Touches.ite ?_ ?_
          · exact Touches.chain (State.stationMove_touches ..) (by decide) hx7
          · exact hx7
      · refine OutTouches.ite ?_ ?_
        · show Touches _ _ _
          exact hx6
        · refine OutTouches.ite ?_ ?_
          · show Touches _ _ _
            exact Touches.chain (State.inc_touches ..) (by decide) hx6
          · refine OutTouches.ite ?_ ?_
            · show Touches _ _ _
              exact Touches.chain (State.inc_touches ..) (by decide) hx6
            · refine OutTouches.ite ?_ ?_
              · show Touches _ _ _
                refine Touches.chain (State.note_touches ..) (by decide) ?_
                exact Touches.chain (State.inc_touches ..) (by decide) hx6
              · show Touches _ _ _
                refine Touches.set_cls (x := x6) ?_ (by decide)
                exact hx6

theorem execLearnInsert_touches (p0 : List (Fin 8)) (p1 : Fin 9) (s : State) :
    OutTouches Part.main s (execLearnInsert p0 p1 s) := by
  unfold execLearnInsert
  split
  · show Touches _ _ _
    exact (Touches.rfl' _ s)
  · extract_lets -merge -underBinder +onlyGivenNames x0
    clear_value x0
    extract_lets -merge -underBinder +onlyGivenNames x1
    have hx1 : Touches Part.main s x1 := by
      unfold x1
      refine Touches.set_cls (x := s) ?_ (by decide)
      exact (Touches.rfl' _ s)
    clear_value x1
    extract_lets -merge -underBinder +onlyGivenNames x2
    clear_value x2
    extract_lets -merge -underBinder +onlyGivenNames x3
    have hx3 : Touches Part.main s x3 := by
      unfold x3
      exact Touches.chain (State.altErrors_touches ..) (by decide) hx1
    clear_value x3
    refine OutTouches.ite ?_ ?_
    · show Touches _ _ _
      exact hx3
    · refine OutTouches.ite ?_ ?_
      · show Touches _ _ _
        exact Touches.chain (State.inc_touches ..) (by decide) hx3
      · refine OutTouches.ite ?_ ?_
        · show Touches _ _ _
          exact Touches.chain (State.inc_touches ..) (by decide) hx3
        · split
          rename_i v4 v5 v6 e7
          have hv5 : Touches Part.main s v5 := by
            refine Touches.ofFst e7 ?_
            exact Touches.chain (State.place_touches ..) (by decide) hx3
          refine OutTouches.ite ?_ ?_
          · show Touches _ _ _
            exact Touches.chain (State.inc_touches ..) (by decide) hv5
          · show Touches _ _ _
            exact Touches.chain (State.inc_touches ..) (by decide) hv5

theorem State.clsEnd_touches (s : State) (p1 : ℕ) (p2 : ℕ) :
    Touches Part.note s (State.clsEnd s p1 p2) := by
  unfold State.clsEnd
  extract_lets -merge -underBinder +onlyGivenNames x0
  have hx0 : Touches Part.note s x0 := by
    unfold x0
    refine Touches.ite ?_ ?_
    · exact Touches.chain (State.result_touches ..) (by decide) (Touches.rfl' _ s)
    · exact Touches.chain (State.cmdEnd_touches ..) (by decide) (Touches.rfl' _ s)
  clear_value x0
  extract_lets -merge -underBinder +onlyGivenNames x1
  have hx1 : Touches Part.note s x1 := by
    unfold x1
    refine Touches.ite ?_ ?_
    · exact Touches.chain (State.followerRefusal_touches ..) (by decide) hx0
    · exact hx0
  clear_value x1
  refine Touches.ite ?_ ?_
  · exact Touches.chain (State.noteFor_touches ..) (by decide) hx1
  · exact hx1

theorem State.clsSearch_touches (s : State) (p1 : ℕ) :
    Touches Part.note s (State.clsSearch s p1) := by
  unfold State.clsSearch
  refine Touches.ite ?_ ?_
  · exact Touches.chain (State.clsEnd_touches ..) (by decide) (Touches.rfl' _ s)
  · split
    · exact Touches.chain (State.clsEnd_touches ..) (by decide) (Touches.rfl' _ s)
    · split
      · exact Touches.chain (State.clsEnd_touches ..) (by decide) (Touches.rfl' _ s)
      · refine Touches.ite ?_ ?_
        · refine Touches.chain (State.clsEnd_touches ..) (by decide) ?_
          refine Touches.chain (State.setFld_touches ..) (by decide) ?_
          exact Touches.chain (State.putEntry_touches ..) (by decide) (Touches.rfl' _ s)
        · exact Touches.chain (State.clsEnd_touches ..) (by decide) (Touches.rfl' _ s)

theorem State.clsNext_touches (s : State) (p1 : ℕ) :
    Touches Part.note s (State.clsNext s p1) := by
  unfold State.clsNext
  refine Touches.ite ?_ ?_
  · exact Touches.chain (State.clsEnd_touches ..) (by decide) (Touches.rfl' _ s)
  · extract_lets -merge -underBinder +onlyGivenNames x0
    clear_value x0
    extract_lets -merge -underBinder +onlyGivenNames x1
    clear_value x1
    split
    · refine Touches.chain (State.clsEnd_touches ..) (by decide) ?_
      refine Touches.chain (State.setFld_touches ..) (by decide) ?_
      exact Touches.chain (State.putEntry_touches ..) (by decide) (Touches.rfl' _ s)
    · exact Touches.chain (State.clsEnd_touches ..) (by decide) (Touches.rfl' _ s)

theorem State.clsInsert_touches (s : State) (p1 : ℕ) (p2 : Bool) (p3 : Bool) :
    Touches [.regs, .cnt, .pow, .led, .hif, .cls, .kvt, .yok, .out, .free] s (State.clsInsert s p1 p2 p3) := by
  unfold State.clsInsert
  extract_lets -merge -underBinder +onlyGivenNames x0 x1
  clear_value x0 x1
  refine Touches.ite ?_ ?_
  · exact Touches.chain (State.clsEnd_touches ..) (by decide) (Touches.rfl' _ s)
  · extract_lets -merge -underBinder +onlyGivenNames x2
    have hx2 : Touches [.regs, .cnt, .pow, .led, .hif, .cls, .kvt, .yok, .out, .free] s x2 := by
      unfold x2
      exact Touches.chain (State.setFld_touches ..) (by decide) (Touches.rfl' _ s)
    clear_value x2
    refine Touches.ite ?_ ?_
    · exact Touches.chain (State.clsEnd_touches ..) (by decide) hx2
    · refine Touches.ite ?_ ?_
      · exact Touches.chain (State.clsEnd_touches ..) (by decide) hx2
      · refine Touches.ite ?_ ?_
        · exact Touches.chain (State.clsEnd_touches ..) (by decide) hx2
        · extract_lets -merge -underBinder +onlyGivenNames x3
          have hx3 : ∀ z4 z5, Touches [.regs, .cnt, .pow, .led, .hif, .cls, .kvt, .yok, .out, .free] s z4 → Touches [.regs, .cnt, .pow, .led, .hif, .cls, .kvt, .yok, .out, .free] s (x3 z4 z5) := by
            intro z4 z5 hz4
            unfold x3
            beta_reduce
            refine Touches.chain (State.clsEnd_touches ..) (by decide) ?_
            refine Touches.chain (State.setFld_touches ..) (by decide) ?_
            exact Touches.chain (State.setFld_touches ..) (by decide) hz4
          clear_value x3
          split
          · split
            · exact Touches.chain (State.clsEnd_touches ..) (by decide) hx2
            · refine Touches.ite ?_ ?_
              · exact Touches.chain (State.clsEnd_touches ..) (by decide) hx2
              · refine Touches.ite ?_ ?_
                · exact Touches.chain (State.clsEnd_touches ..) (by decide) hx2
                · refine hx3 _ _ ?_
                  exact Touches.chain (State.altPut_touches ..) (by decide) hx2
          · split
            rename_i v6 v7 v8 e9
            have hv7 : Touches [.regs, .cnt, .pow, .led, .hif, .cls, .kvt, .yok, .out, .free] s v7 := by
              refine Touches.ofFst e9 ?_
              exact Touches.chain (State.place_touches ..) (by decide) hx2
            refine Touches.ite ?_ ?_
            · exact Touches.chain (State.clsEnd_touches ..) (by decide) hv7
            · refine hx3 _ _ ?_
              exact hv7

theorem State.clsDelete_touches (s : State) (p1 : ℕ) :
    Touches [.regs, .cnt, .pow, .led, .hif, .cls, .yok, .out] s (State.clsDelete s p1) := by
  unfold State.clsDelete
  refine Touches.ite ?_ ?_
  · exact Touches.chain (State.clsEnd_touches ..) (by decide) (Touches.rfl' _ s)
  · refine Touches.ite ?_ ?_
    · exact Touches.chain (State.clsEnd_touches ..) (by decide) (Touches.rfl' _ s)
    · split
      · exact Touches.chain (State.clsEnd_touches ..) (by decide) (Touches.rfl' _ s)
      · split
        · exact Touches.chain (State.clsEnd_touches ..) (by decide) (Touches.rfl' _ s)
        · refine Touches.ite ?_ ?_
          · refine Touches.chain (State.clsEnd_touches ..) (by decide) ?_
            refine Touches.chain (State.setFld_touches ..) (by decide) ?_
            exact Touches.chain (State.altPut_touches ..) (by decide) (Touches.rfl' _ s)
          · exact Touches.chain (State.clsEnd_touches ..) (by decide) (Touches.rfl' _ s)

theorem State.altRemove_touches (s : State) (p1 : List ℕ) :
    Touches [.regs, .cnt, .pow, .led, .hif, .cls, .yok, .out] s (State.altRemove s p1) := by
  unfold State.altRemove
  refine Touches.foldl _ _ ?_ (fun y0 a0 hy0 => ?_)
  · exact (Touches.rfl' _ s)
  · exact Touches.chain (State.altPut_touches ..) (by decide) hy0

theorem State.clsFlush_touches (s : State) (p1 : ℕ) (p2 : ℕ) (p3 : Bool) :
    Touches [.regs, .cnt, .pow, .led, .hif, .cls, .yok, .out, .free] s (State.clsFlush s p1 p2 p3) := by
  unfold State.clsFlush
  refine Touches.ite ?_ ?_
  · exact Touches.chain (State.clsEnd_touches ..) (by decide) (Touches.rfl' _ s)
  · refine Touches.ite ?_ ?_
    · exact Touches.chain (State.clsEnd_touches ..) (by decide) (Touches.rfl' _ s)
    · refine Touches.ite ?_ ?_
      · exact Touches.chain (State.clsEnd_touches ..) (by decide) (Touches.rfl' _ s)
      · extract_lets -merge -underBinder +onlyGivenNames x0
        clear_value x0
        split
        rename_i v1 v2 v3 e4
        have hv3 : Touches [.regs, .cnt, .pow, .led, .hif, .cls, .yok, .out, .free] s v3 := by
          refine Touches.ofSnd e4 ?_
          exact Touches.chain (State.draw_touches ..) (by decide) (Touches.rfl' _ s)
        extract_lets -merge -underBinder +onlyGivenNames x5
        clear_value x5
        refine Touches.chain (State.altRemove_touches ..) (by decide) ?_
        refine Touches.set_cls (x := v3) ?_ (by decide)
        exact hv3

theorem State.digestIn_touches (s : State) (p1 : ℕ) (p2 : AltEntry) :
    Touches [.regs] s (State.digestIn s p1 p2) := by
  unfold State.digestIn
  extract_lets -merge -underBinder +onlyGivenNames x0 x1
  clear_value x0 x1
  extract_lets -merge -underBinder +onlyGivenNames x2
  have hx2 : Touches [.regs] s x2 := by
    unfold x2
    exact Touches.chain (State.wr_touches ..) (by decide) (Touches.rfl' _ s)
  clear_value x2
  exact Touches.chain (State.wr_touches ..) (by decide) hx2

theorem State.clsSnap_touches (s : State) (p1 : ℕ) :
    Touches Part.note s (State.clsSnap s p1) := by
  unfold State.clsSnap
  refine Touches.ite ?_ ?_
  · exact Touches.chain (State.clsEnd_touches ..) (by decide) (Touches.rfl' _ s)
  · refine Touches.ite ?_ ?_
    · exact Touches.chain (State.clsEnd_touches ..) (by decide) (Touches.rfl' _ s)
    · extract_lets -merge -underBinder +onlyGivenNames x0
      clear_value x0
      extract_lets -merge -underBinder +onlyGivenNames x1
      have hx1 : Touches Part.note s x1 := by
        unfold x1
        exact Touches.chain (State.clearRegs_touches ..) (by decide) (Touches.rfl' _ s)
      clear_value x1
      extract_lets -merge -underBinder +onlyGivenNames x2
      have hx2 : Touches Part.note s x2 := by
        unfold x2
        refine Touches.foldl _ _ ?_ (fun y3 a3 hy3 => ?_)
        · exact hx1
        · split
          · refine Touches.ite ?_ ?_
            · exact hy3
            · exact Touches.chain (State.digestIn_touches ..) (by decide) hy3
          · exact hy3
      clear_value x2
      refine Touches.chain (State.clsEnd_touches ..) (by decide) ?_
      exact Touches.chain (State.setFlg_touches ..) (by decide) hx2

theorem State.clsRun_touches (s : State) (p1 : ℕ) (p2 : ℕ) (p3 : Word) :
    Touches [.regs, .cnt, .pow, .led, .hif, .cls, .kvt, .yok, .out, .free] s (State.clsRun s p1 p2 p3) := by
  unfold State.clsRun
  split
  · refine Touches.ite ?_ ?_
    · exact Touches.chain (State.clsEnd_touches ..) (by decide) (Touches.rfl' _ s)
    · exact (Touches.rfl' _ s)
  · exact Touches.chain (State.clsSearch_touches ..) (by decide) (Touches.rfl' _ s)
  · exact Touches.chain (State.clsNext_touches ..) (by decide) (Touches.rfl' _ s)
  · exact Touches.chain (State.clsInsert_touches ..) (by decide) (Touches.rfl' _ s)
  · exact Touches.chain (State.clsDelete_touches ..) (by decide) (Touches.rfl' _ s)
  · exact Touches.chain (State.clsFlush_touches ..) (by decide) (Touches.rfl' _ s)
  · exact Touches.chain (State.clsSnap_touches ..) (by decide) (Touches.rfl' _ s)
  · refine Touches.ite ?_ ?_
    · exact Touches.chain (State.clsEnd_touches ..) (by decide) (Touches.rfl' _ s)
    · exact Touches.chain (State.clsEnd_touches ..) (by decide) (Touches.rfl' _ s)

theorem execClsSearch_touches (p0 : Path) (s : State) :
    OutTouches [.regs, .cnt, .armed, .pow, .led, .hif, .yok, .held, .out] s (execClsSearch p0 s) := by
  unfold execClsSearch
  show Touches _ _ _
  refine State.cmdWrite_touches (by decide) ?_ (fun z0 z1 hz1 => ?_)
  · exact (Touches.rfl' _ s)
  · exact Touches.chain (State.clsSearch_touches ..) (by decide) hz1

theorem execSearchNext_touches (p0 : Path) (s : State) :
    OutTouches [.regs, .cnt, .armed, .pow, .led, .hif, .yok, .held, .out] s (execSearchNext p0 s) := by
  unfold execSearchNext
  show Touches _ _ _
  refine State.cmdWrite_touches (by decide) ?_ (fun z0 z1 hz1 => ?_)
  · exact (Touches.rfl' _ s)
  · exact Touches.chain (State.clsNext_touches ..) (by decide) hz1

theorem execClsInsert_touches (p0 : Path) (p1 : Bool) (p2 : Bool) (s : State) :
    OutTouches [.regs, .cnt, .armed, .pow, .led, .hif, .cls, .kvt, .yok, .held, .out, .free] s (execClsInsert p0 p1 p2 s) := by
  unfold execClsInsert
  show Touches _ _ _
  refine State.cmdWrite_touches (by decide) ?_ (fun z0 z1 hz1 => ?_)
  · exact (Touches.rfl' _ s)
  · exact Touches.chain (State.clsInsert_touches ..) (by decide) hz1

theorem execClsDelete_touches (p0 : Path) (s : State) :
    OutTouches [.regs, .cnt, .armed, .pow, .led, .hif, .cls, .yok, .held, .out] s (execClsDelete p0 s) := by
  unfold execClsDelete
  show Touches _ _ _
  refine State.cmdWrite_touches (by decide) ?_ (fun z0 z1 hz1 => ?_)
  · exact (Touches.rfl' _ s)
  · exact Touches.chain (State.clsDelete_touches ..) (by decide) hz1

theorem execFlushByPort_touches (p0 : Path) (p1 : Fin 16) (p2 : Bool) (s : State) :
    OutTouches [.regs, .cnt, .armed, .pow, .led, .hif, .cls, .yok, .held, .out, .free] s (execFlushByPort p0 p1 p2 s) := by
  unfold execFlushByPort
  show Touches _ _ _
  refine State.cmdWrite_touches (by decide) ?_ (fun z0 z1 hz1 => ?_)
  · exact (Touches.rfl' _ s)
  · exact Touches.chain (State.clsFlush_touches ..) (by decide) hz1

theorem execFlushDone_touches (s : State) :
    OutTouches [.regs, .cnt, .pow, .led, .hif, .cls, .yok, .out] s (execFlushDone s) := by
  unfold execFlushDone
  split
  · show Touches _ _ _
    exact (Touches.rfl' _ s)
  · extract_lets -merge -underBinder +onlyGivenNames x0
    clear_value x0
    extract_lets -merge -underBinder +onlyGivenNames x1
    have hx1 : Touches [.regs, .cnt, .pow, .led, .hif, .cls, .yok, .out] s x1 := by
      unfold x1
      exact Touches.chain (State.altRemove_touches ..) (by decide) (Touches.rfl' _ s)
    clear_value x1
    extract_lets -merge -underBinder +onlyGivenNames x2
    clear_value x2
    extract_lets -merge -underBinder +onlyGivenNames x3
    have hx3 : Touches [.regs, .cnt, .pow, .led, .hif, .cls, .yok, .out] s x3 := by
      unfold x3
      refine Touches.set_cls (x := x1) ?_ (by decide)
      exact hx1
    clear_value x3
    show Touches _ _ _
    refine Touches.chain (State.noteFor_touches ..) (by decide) ?_
    exact Touches.chain (State.clsEnd_touches ..) (by decide) hx3

theorem execDigestSnap_touches (p0 : Path) (s : State) :
    OutTouches [.regs, .cnt, .armed, .pow, .led, .hif, .yok, .held, .out] s (execDigestSnap p0 s) := by
  unfold execDigestSnap
  show Touches _ _ _
  refine State.cmdWrite_touches (by decide) ?_ (fun z0 z1 hz1 => ?_)
  · exact (Touches.rfl' _ s)
  · exact Touches.chain (State.clsSnap_touches ..) (by decide) hz1

theorem execClsCmdUnknown_touches (p0 : Path) (p1 : Fin 16) (s : State) :
    OutTouches [.regs, .cnt, .armed, .pow, .led, .hif, .cls, .kvt, .yok, .held, .out, .free] s (execClsCmdUnknown p0 p1 s) := by
  unfold execClsCmdUnknown
  refine OutTouches.ite ?_ ?_
  · show Touches _ _ _
    exact (Touches.rfl' _ s)
  · show Touches _ _ _
    refine State.cmdWrite_touches (by decide) ?_ (fun z0 z1 hz1 => ?_)
    · exact (Touches.rfl' _ s)
    · exact Touches.chain (State.clsRun_touches ..) (by decide) hz1

theorem State.hashSeedEffect_touches (s : State) (p1 : ℕ) (p2 : Word) :
    Touches Part.note s (State.hashSeedEffect s p1 p2) := by
  unfold State.hashSeedEffect
  refine Touches.ite ?_ ?_
  · exact Touches.chain (State.wr_touches ..) (by decide) (Touches.rfl' _ s)
  · exact Touches.chain (State.note_touches ..) (by decide) (Touches.rfl' _ s)

theorem execHashSeedWrite_touches (p0 : Path) (p1 : Bool) (p2 : Word) (s : State) :
    OutTouches [.regs, .cnt, .armed, .pow, .led, .hif, .yok, .out] s (execHashSeedWrite p0 p1 p2 s) := by
  unfold execHashSeedWrite
  extract_lets -merge -underBinder +onlyGivenNames x0
  clear_value x0
  show Touches _ _ _
  refine State.hostWrite_touches (by decide) ?_ (fun z1 hz1 => ?_)
  · exact (Touches.rfl' _ s)
  · exact Touches.chain (State.hashSeedEffect_touches ..) (by decide) hz1

theorem State.reapSlot_touches (s : State) (p1 : ℕ) :
    Touches [.regs, .cnt, .pow, .led, .hif, .cls, .yok, .out] s (State.reapSlot s p1) := by
  unfold State.reapSlot
  split
  · exact (Touches.rfl' _ s)
  · refine Touches.ite ?_ ?_
    · refine Touches.set_cls (x := s) ?_ (by decide)
      exact (Touches.rfl' _ s)
    · refine Touches.ite ?_ ?_
      · refine Touches.chain (State.inc_touches ..) (by decide) ?_
        exact Touches.chain (State.altPut_touches ..) (by decide) (Touches.rfl' _ s)
      · exact (Touches.rfl' _ s)

theorem execReaperVisit_touches (p0 : List (Fin 4)) (p1 : Fin 5) (s : State) :
    OutTouches Part.main s (execReaperVisit p0 p1 s) := by
  unfold execReaperVisit
  refine OutTouches.ite ?_ ?_
  · show Touches _ _ _
    exact (Touches.rfl' _ s)
  · extract_lets -merge -underBinder +onlyGivenNames x0
    clear_value x0
    extract_lets -merge -underBinder +onlyGivenNames x1
    have hx1 : Touches Part.main s x1 := by
      unfold x1
      refine Touches.set_cls (x := s) ?_ (by decide)
      exact (Touches.rfl' _ s)
    clear_value x1
    extract_lets -merge -underBinder +onlyGivenNames x2 x3
    clear_value x2 x3
    extract_lets -merge -underBinder +onlyGivenNames x4
    have hx4 : Touches Part.main s x4 := by
      unfold x4
      exact Touches.chain (State.altErrors_touches ..) (by decide) hx1
    clear_value x4
    extract_lets -merge -underBinder +onlyGivenNames x5
    have hx5 : Touches Part.main s x5 := by
      unfold x5
      refine Touches.foldl _ _ ?_ (fun y6 a6 hy6 => ?_)
      · exact hx4
      · refine Touches.ite ?_ ?_
        · exact hy6
        · exact Touches.chain (State.reapSlot_touches ..) (by decide) hy6
    clear_value x5
    refine OutTouches.ite ?_ ?_
    · show Touches _ _ _
      refine Touches.set_cls (x := x5) ?_ (by decide)
      exact hx5
    · show Touches _ _ _
      refine Touches.set_cls (x := x5) ?_ (by decide)
      exact hx5

theorem State.freeProbes_touches (s : State) :
    Touches [.cls, .sch, .yok] s (State.freeProbes s) := by
  unfold State.freeProbes
  refine Touches.foldl _ _ ?_ (fun y0 a0 hy0 => ?_)
  · refine Touches.set_cls (x := s) ?_ (by decide)
    exact (Touches.rfl' _ s)
  · exact Touches.chain (State.setVerdict_touches ..) (by decide) hy0

theorem execDefaultBypass_touches (s : State) :
    OutTouches Part.main s (execDefaultBypass s) := by
  unfold execDefaultBypass
  extract_lets -merge -underBinder +onlyGivenNames x0
  clear_value x0
  extract_lets -merge -underBinder +onlyGivenNames x1
  have hx1 : Touches Part.main s x1 := by
    unfold x1
    refine Touches.set_fab (x := s) ?_ (by decide)
    exact (Touches.rfl' _ s)
  clear_value x1
  show Touches _ _ _
  refine Touches.chain (State.recheck_touches ..) (by decide) ?_
  refine Touches.chain (State.freeProbes_touches ..) (by decide) ?_
  exact Touches.chain (State.beginBypass_touches ..) (by decide) hx1

theorem State.clsScan_touches (s : State) :
    Touches [.regs, .cnt, .pow, .led, .hif, .cls, .sch, .yok, .out] s (State.clsScan s) := by
  unfold State.clsScan
  extract_lets -merge -underBinder +onlyGivenNames x0
  have hx0 : Touches [.regs, .cnt, .pow, .led, .hif, .cls, .sch, .yok, .out] s x0 := by
    unfold x0
    refine Touches.foldl _ _ ?_ (fun y1 a1 hy1 => ?_)
    · exact Touches.chain (State.freeProbes_touches ..) (by decide) (Touches.rfl' _ s)
    · exact Touches.chain (State.clsEnd_touches ..) (by decide) hy1
  clear_value x0
  extract_lets -merge -underBinder +onlyGivenNames x2
  clear_value x2
  extract_lets -merge -underBinder +onlyGivenNames x3
  have hx3 : Touches [.regs, .cnt, .pow, .led, .hif, .cls, .sch, .yok, .out] s x3 := by
    unfold x3
    refine Touches.set_cls (x := x0) ?_ (by decide)
    exact hx0
  clear_value x3
  refine Touches.foldl _ _ ?_ (fun y4 a4 hy4 => ?_)
  · exact hx3
  · split
    · split
      · refine Touches.ite ?_ ?_
        · refine Touches.chain (State.noteFor_touches ..) (by decide) ?_
          exact Touches.chain (State.altPut_touches ..) (by decide) hy4
        · exact hy4
      · exact hy4
    · exact hy4

end Sys2Proof.Machine
end

