-- ==== Sys2Proof/Laws/TouchSensors.lean ====
section
/-! SUPPORT. What each operation of Machine/Sensors.lean may touch. -/

namespace Sys2Proof.Machine

open Sys2Proof

set_option linter.unusedTactic false
set_option linter.unreachableTactic false

theorem State.setSensor_touches (s : State) (p1 : ℕ) (p2 : Sensor → Sensor) :
    Touches [.hdg] s (State.setSensor s p1 p2) := by
  unfold State.setSensor
  refine Touches.set_hdg (x := s) ?_ (by decide)
  exact (Touches.rfl' _ s)

theorem State.measure_touches (s : State) (p1 : ℕ) (p2 : ℕ) :
    Touches [.regs, .hdg] s (State.measure s p1 p2) := by
  unfold State.measure
  refine Touches.ite ?_ ?_
  · exact Touches.chain (State.wr_touches ..) (by decide) (Touches.rfl' _ s)
  · refine Touches.ite ?_ ?_
    · refine Touches.set_hdg (x := s) ?_ (by decide)
      exact (Touches.rfl' _ s)
    · refine Touches.ite ?_ ?_
      · refine Touches.set_hdg (x := s) ?_ (by decide)
        exact (Touches.rfl' _ s)
      · exact (Touches.rfl' _ s)

theorem State.fillUp_touches (s : State) (p1 : ℕ) (p2 : ℕ) :
    Touches [.regs, .hdg] s (State.fillUp s p1 p2).1 := by
  unfold State.fillUp
  extract_lets -merge -underBinder +onlyGivenNames x0 x1 x2 x3 x4
  clear_value x0 x1 x2 x3 x4
  extract_lets -merge -underBinder +onlyGivenNames x5
  have hx5 : Touches [.regs, .hdg] s x5 := by
    unfold x5
    refine Touches.chain (State.measure_touches ..) (by decide) ?_
    exact Touches.chain (State.setFlg_touches ..) (by decide) (Touches.rfl' _ s)
  clear_value x5
  extract_lets -merge -underBinder +onlyGivenNames x6
  have hx6 : Touches [.regs, .hdg] s x6 := by
    unfold x6
    exact Touches.chain (State.setSensor_touches ..) (by decide) hx5
  clear_value x6
  exact hx6

theorem State.detect_touches (s : State) (p1 : ℕ) (p2 : ℕ) :
    Touches [.regs, .hdg] s (State.detect s p1 p2).1 := by
  unfold State.detect
  extract_lets -merge -underBinder +onlyGivenNames x0
  clear_value x0
  split
  rename_i v1 v2 v3 v4 e5
  have hv2 : Touches [.regs, .hdg] s v2 := by
    refine Touches.ofFst e5 ?_
    exact Touches.chain (State.fillUp_touches ..) (by decide) (Touches.rfl' _ s)
  exact hv2

theorem State.trip_touches (s : State) (p1 : ℕ) :
    Touches [.hdg] s (State.trip s p1) := by
  unfold State.trip
  exact Touches.chain (State.setSensor_touches ..) (by decide) (Touches.rfl' _ s)

theorem State.mainAlarm_touches (s : State) (p1 : ℕ) (p2 : ℕ) (p3 : List Fired) :
    Touches Part.main s (State.mainAlarm s p1 p2 p3) := by
  unfold State.mainAlarm
  extract_lets -merge -underBinder +onlyGivenNames x0 x1
  clear_value x0 x1
  extract_lets -merge -underBinder +onlyGivenNames x2
  have hx2 : Touches Part.main s x2 := by
    unfold x2
    exact Touches.chain (State.trip_touches ..) (by decide) (Touches.rfl' _ s)
  clear_value x2
  extract_lets -merge -underBinder +onlyGivenNames x3
  clear_value x3
  extract_lets -merge -underBinder +onlyGivenNames x4
  have hx4 : Touches Part.main s x4 := by
    unfold x4
    refine Touches.ite ?_ ?_
    · refine Touches.set_hdg (x := x2) ?_ (by decide)
      exact hx2
    · exact hx2
  clear_value x4
  exact Touches.chain (State.raiseFull_touches ..) (by decide) hx4

theorem State.reserveTest_touches (s : State) (p1 : ℕ) :
    Touches [.hdg] s (State.reserveTest s p1) := by
  unfold State.reserveTest
  refine Touches.set_hdg (x := s) ?_ (by decide)
  exact (Touches.rfl' _ s)

theorem State.cellAlarm_touches (s : State) (p1 : ℕ) (p2 : ℕ) (p3 : ℕ) :
    Touches [.hdg, .out] s (State.cellAlarm s p1 p2 p3) := by
  unfold State.cellAlarm
  refine Touches.ite ?_ ?_
  · exact Touches.chain (State.setSensor_touches ..) (by decide) (Touches.rfl' _ s)
  · extract_lets -merge -underBinder +onlyGivenNames x0
    clear_value x0
    extract_lets -merge -underBinder +onlyGivenNames x1
    have hx1 : Touches [.hdg, .out] s x1 := by
      unfold x1
      exact Touches.chain (State.trip_touches ..) (by decide) (Touches.rfl' _ s)
    clear_value x1
    extract_lets -merge -underBinder +onlyGivenNames x2
    clear_value x2
    extract_lets -merge -underBinder +onlyGivenNames x3
    have hx3 : Touches [.hdg, .out] s x3 := by
      unfold x3
      refine Touches.set_hdg (x := x1) ?_ (by decide)
      exact hx1
    clear_value x3
    extract_lets -merge -underBinder +onlyGivenNames x4
    have hx4 : Touches [.hdg, .out] s x4 := by
      unfold x4
      exact Touches.chain (State.emit_touches ..) (by decide) hx3
    clear_value x4
    extract_lets -merge -underBinder +onlyGivenNames x5
    have hx5 : Touches [.hdg, .out] s x5 := by
      unfold x5
      exact Touches.chain (State.reserveTest_touches ..) (by decide) hx4
    clear_value x5
    refine Touches.ite ?_ ?_
    · exact Touches.chain (State.evidCellAppend_touches ..) (by decide) hx5
    · refine Touches.set_hdg (x := x5) ?_ (by decide)
      exact hx5

theorem State.hedgeAlarm_touches (s : State) (p1 : ℕ) (p2 : ℕ) (p3 : ℕ) :
    Touches Part.main s (State.hedgeAlarm s p1 p2 p3) := by
  unfold State.hedgeAlarm
  refine Touches.ite ?_ ?_
  · exact Touches.chain (State.mainAlarm_touches ..) (by decide) (Touches.rfl' _ s)
  · exact Touches.chain (State.cellAlarm_touches ..) (by decide) (Touches.rfl' _ s)

theorem State.busFailure_touches (s : State) (p1 : EvKind) (p2 : ℕ) (p3 : List ℕ) (p4 : List Byte) :
    Touches Part.main s (State.busFailure s p1 p2 p3 p4) := by
  unfold State.busFailure
  extract_lets -merge -underBinder +onlyGivenNames x0
  clear_value x0
  split
  rename_i v1 v2 v3 v4 e5
  have hv2 : Touches Part.main s v2 := by
    refine Touches.ofFst e5 ?_
    exact Touches.chain (State.fillUp_touches ..) (by decide) (Touches.rfl' _ s)
  extract_lets -merge -underBinder +onlyGivenNames x6
  clear_value x6
  refine Touches.ite ?_ ?_
  · exact Touches.chain (State.noteAs_touches ..) (by decide) hv2
  · refine Touches.ite ?_ ?_
    · exact Touches.chain (State.raiseFull_touches ..) (by decide) hv2
    · exact Touches.chain (State.mainAlarm_touches ..) (by decide) hv2

theorem execSensorDetection_touches (p0 : Fin 16) (p1 : Word) (p2 : ℕ) (s : State) :
    OutTouches Part.main s (execSensorDetection p0 p1 p2 s) := by
  unfold execSensorDetection
  extract_lets -merge -underBinder +onlyGivenNames x0
  clear_value x0
  refine OutTouches.ite ?_ ?_
  · show Touches _ _ _
    exact (Touches.rfl' _ s)
  · split
    rename_i v1 v2 v3 v4 e5
    have hv2 : Touches Part.main s v2 := by
      refine Touches.ofFst e5 ?_
      exact Touches.chain (State.detect_touches ..) (by decide) (Touches.rfl' _ s)
    refine OutTouches.ite ?_ ?_
    · show Touches _ _ _
      exact Touches.chain (State.hedgeAlarm_touches ..) (by decide) hv2
    · show Touches _ _ _
      exact hv2

theorem execSensorWindowClose_touches (p0 : Fin 16) (p1 : Bool) (s : State) :
    OutTouches [.hdg] s (execSensorWindowClose p0 p1 s) := by
  unfold execSensorWindowClose
  extract_lets -merge -underBinder +onlyGivenNames x0
  clear_value x0
  show Touches _ _ _
  refine Touches.ite ?_ ?_
  · exact (Touches.rfl' _ s)
  · exact Touches.chain (State.setSensor_touches ..) (by decide) (Touches.rfl' _ s)

theorem execSensorTripClear_touches (p0 : Fin 16) (s : State) :
    OutTouches [.hdg] s (execSensorTripClear p0 s) := by
  unfold execSensorTripClear
  extract_lets -merge -underBinder +onlyGivenNames x0
  clear_value x0
  refine OutTouches.ite ?_ ?_
  · show Touches _ _ _
    exact (Touches.rfl' _ s)
  · extract_lets -merge -underBinder +onlyGivenNames x1
    clear_value x1
    extract_lets -merge -underBinder +onlyGivenNames x2
    have hx2 : Touches [.hdg] s x2 := by
      unfold x2
      refine Touches.ite ?_ ?_
      · refine Touches.set_hdg (x := s) ?_ (by decide)
        exact (Touches.rfl' _ s)
      · exact (Touches.rfl' _ s)
    clear_value x2
    show Touches _ _ _
    exact Touches.chain (State.setSensor_touches ..) (by decide) hx2

theorem State.lockIgnored_touches (s : State) (p1 : ℕ) :
    Touches Part.note s (State.lockIgnored s p1) := by
  unfold State.lockIgnored
  exact Touches.chain (State.note_touches ..) (by decide) (Touches.rfl' _ s)

theorem State.sensorCfgEffect_touches (s : State) (p1 : ℕ) (p2 : Bool) (p3 : Word) :
    Touches Part.note s (State.sensorCfgEffect s p1 p2 p3) := by
  unfold State.sensorCfgEffect
  extract_lets -merge -underBinder +onlyGivenNames x0
  clear_value x0
  refine Touches.ite ?_ ?_
  · exact (Touches.rfl' _ s)
  · refine Touches.ite ?_ ?_
    · exact Touches.chain (State.lockIgnored_touches ..) (by decide) (Touches.rfl' _ s)
    · refine Touches.ite ?_ ?_
      · exact Touches.chain (State.note_touches ..) (by decide) (Touches.rfl' _ s)
      · exact Touches.chain (State.wr_touches ..) (by decide) (Touches.rfl' _ s)

theorem execSensorCfgWrite_touches (p0 : Path) (p1 : Fin 16) (p2 : Bool) (p3 : Word) (s : State) :
    OutTouches [.regs, .cnt, .armed, .pow, .led, .hif, .yok, .out] s (execSensorCfgWrite p0 p1 p2 p3 s) := by
  unfold execSensorCfgWrite
  extract_lets -merge -underBinder +onlyGivenNames x0 x1
  clear_value x0 x1
  show Touches _ _ _
  refine State.hostWrite_touches (by decide) ?_ (fun z2 hz2 => ?_)
  · exact (Touches.rfl' _ s)
  · exact Touches.chain (State.sensorCfgEffect_touches ..) (by decide) hz2

theorem execRootRefresh_touches (s : State) :
    OutTouches [.hdg] s (execRootRefresh s) := by
  unfold execRootRefresh
  show Touches _ _ _
  refine Touches.set_hdg (x := s) ?_ (by decide)
  exact (Touches.rfl' _ s)

theorem execReserveTest_touches (p0 : ℕ) (s : State) :
    OutTouches [.hdg] s (execReserveTest p0 s) := by
  unfold execReserveTest
  refine OutTouches.ite ?_ ?_
  · show Touches _ _ _
    exact (Touches.rfl' _ s)
  · show Touches _ _ _
    exact Touches.chain (State.reserveTest_touches ..) (by decide) (Touches.rfl' _ s)

theorem execZeroPinRequest_touches (p0 : ℕ) (s : State) :
    OutTouches Part.main s (execZeroPinRequest p0 s) := by
  unfold execZeroPinRequest
  split
  rename_i v0 v1 v2 v3 e4
  have hv1 : Touches Part.main s v1 := by
    refine Touches.ofFst e4 ?_
    exact Touches.chain (State.detect_touches ..) (by decide) (Touches.rfl' _ s)
  refine OutTouches.ite ?_ ?_
  · show Touches _ _ _
    exact Touches.chain (State.hedgeAlarm_touches ..) (by decide) hv1
  · show Touches _ _ _
    exact hv1

theorem State.putEvidence_touches (s : State) (p1 : List Byte) :
    Touches [.regs] s (State.putEvidence s p1) := by
  unfold State.putEvidence
  refine Touches.foldl _ _ ?_ (fun y0 a0 hy0 => ?_)
  · exact (Touches.rfl' _ s)
  · exact Touches.chain (State.wr_touches ..) (by decide) hy0

theorem State.hdgIndexEffect_touches (s : State) (p1 : Word) :
    Touches [.regs] s (State.hdgIndexEffect s p1) := by
  unfold State.hdgIndexEffect
  extract_lets -merge -underBinder +onlyGivenNames x0
  clear_value x0
  split
  · refine Touches.chain (State.wr_touches ..) (by decide) ?_
    exact Touches.chain (State.putEvidence_touches ..) (by decide) (Touches.rfl' _ s)
  · refine Touches.chain (State.wr_touches ..) (by decide) ?_
    exact Touches.chain (State.putEvidence_touches ..) (by decide) (Touches.rfl' _ s)

theorem execHdgLogIndexWrite_touches (p0 : Path) (p1 : Word) (s : State) :
    OutTouches [.regs, .cnt, .armed, .pow, .led, .hif, .yok, .out] s (execHdgLogIndexWrite p0 p1 s) := by
  unfold execHdgLogIndexWrite
  show Touches _ _ _
  refine State.hostWrite_touches (by decide) ?_ (fun z0 hz0 => ?_)
  · exact (Touches.rfl' _ s)
  · exact Touches.chain (State.hdgIndexEffect_touches ..) (by decide) hz0

theorem execCellExhausted_touches (s : State) :
    OutTouches [.hdg, .free] s (execCellExhausted s) := by
  unfold execCellExhausted
  refine OutTouches.ite ?_ ?_
  · show Touches _ _ _
    exact (Touches.rfl' _ s)
  · extract_lets -merge -underBinder +onlyGivenNames x0
    clear_value x0
    show Touches _ _ _
    apply Touches.put (x := s)
    · and_intros <;> first | exact .inr (by decide) | exact .inl rfl | exact SMap.wf_set _ _ _ _ | exact SMap.wf_dropRange _ _ _ _ | exact SMap.wf_filter _ _ _ | exact fun h => by rw [Ledger.reset_log]; exact h | exact id | exact fun _ => rfl
    · exact (Touches.rfl' _ s)

end Sys2Proof.Machine
end

