-- ==== Sys2Proof/Laws/TouchKeyOps.lean ====
section
/-! SUPPORT. What each operation of Machine/KeyOps.lean may touch. -/

namespace Sys2Proof.Machine

open Sys2Proof

theorem State.setSlot_touches (s : State) (p1 : ℕ) (p2 : Option KeySlot) :
    Touches [.kvt] s (State.setSlot s p1 p2) := by
  unfold State.setSlot
  refine Touches.set_kvt (x := s) ?_ (by decide)
  exact (Touches.rfl' _ s)

theorem State.modSlot_touches (s : State) (p1 : ℕ) (p2 : KeySlot → KeySlot) :
    Touches [.kvt] s (State.modSlot s p1 p2) := by
  unfold State.modSlot
  split
  · exact Touches.chain (State.setSlot_touches ..) (by decide) (Touches.rfl' _ s)
  · exact (Touches.rfl' _ s)

theorem State.conveySlot_touches (s : State) (p1 : ℕ) (p2 : ℕ) :
    Touches [.yok, .out] s (State.conveySlot s p1 p2) := by
  unfold State.conveySlot
  split
  · exact (Touches.rfl' _ s)
  · refine Touches.ite ?_ ?_
    · exact Touches.chain (State.convey_touches ..) (by decide) (Touches.rfl' _ s)
    · exact (Touches.rfl' _ s)

theorem State.dropCopies_touches (s : State) (p1 : ℕ) :
    Touches [.cph] s (State.dropCopies s p1) := by
  unfold State.dropCopies
  refine Touches.set_cph (x := s) ?_ (by decide)
  exact (Touches.rfl' _ s)

theorem State.updateCopies_touches (s : State) (p1 : ℕ) (p2 : List Byte) :
    Touches [.cph] s (State.updateCopies s p1 p2) := by
  unfold State.updateCopies
  refine Touches.set_cph (x := s) ?_ (by decide)
  exact (Touches.rfl' _ s)

theorem State.stageSlot_touches (s : State) (p1 : ℕ) :
    Touches [.cph] s (State.stageSlot s p1) := by
  unfold State.stageSlot
  refine Touches.ite ?_ ?_
  · extract_lets -merge -underBinder +onlyGivenNames x0
    clear_value x0
    refine Touches.set_cph (x := s) ?_ (by decide)
    exact (Touches.rfl' _ s)
  · exact (Touches.rfl' _ s)

theorem State.enterFallow_touches (s : State) (p1 : ℕ) :
    Touches [.cnt, .cph, .kvt, .yok, .out] s (State.enterFallow s p1) := by
  unfold State.enterFallow
  refine Touches.ite ?_ ?_
  · refine Touches.chain (State.conveySlot_touches ..) (by decide) ?_
    refine Touches.chain (State.inc_touches ..) (by decide) ?_
    refine Touches.chain (State.modSlot_touches ..) (by decide) ?_
    exact Touches.chain (State.dropCopies_touches ..) (by decide) (Touches.rfl' _ s)
  · exact (Touches.rfl' _ s)

theorem State.slotCheckFail_touches (s : State) (p1 : ℕ) :
    Touches Part.main s (State.slotCheckFail s p1) := by
  unfold State.slotCheckFail
  refine Touches.chain (State.busFailure_touches ..) (by decide) ?_
  refine Touches.chain (State.inc_touches ..) (by decide) ?_
  exact Touches.chain (State.enterFallow_touches ..) (by decide) (Touches.rfl' _ s)

theorem State.conveyMark_touches (s : State) (p1 : ℕ) (p2 : ℕ) (p3 : ℕ) :
    Touches [.yok, .out] s (State.conveyMark s p1 p2 p3) := by
  unfold State.conveyMark
  refine Touches.ite ?_ ?_
  · extract_lets -merge -underBinder +onlyGivenNames x0
    clear_value x0
    extract_lets -merge -underBinder +onlyGivenNames x1
    have hx1 : Touches [.yok, .out] s x1 := by
      unfold x1
      refine Touches.ite ?_ ?_
      · refine Touches.set_yok (x := s) ?_ (by decide)
        exact (Touches.rfl' _ s)
      · exact (Touches.rfl' _ s)
    clear_value x1
    exact Touches.chain (State.convey_touches ..) (by decide) hx1
  · exact (Touches.rfl' _ s)

theorem State.storePn_touches (s : State) (p1 : ℕ) (p2 : PnRec) (p3 : Waiter) :
    Touches Part.main s (State.storePn s p1 p2 p3).1 := by
  unfold State.storePn
  extract_lets -merge -underBinder +onlyGivenNames x0
  clear_value x0
  split
  rename_i v1 v2 v3 e4
  have hv2 : Touches Part.main s v2 := by
    refine Touches.ofFst e4 ?_
    exact Touches.chain (State.requestStore_touches ..) (by decide) (Touches.rfl' _ s)
  refine Touches.ite1 ?_ ?_
  · extract_lets -merge -underBinder +onlyGivenNames x5
    have hx5 : Touches Part.main s x5 := by
      unfold x5
      refine Touches.ite ?_ ?_
      · exact Touches.chain (State.conveyMark_touches ..) (by decide) hv2
      · exact hv2
    clear_value x5
    refine Touches.mk1 ?_
    refine Touches.ite ?_ ?_
    · exact Touches.chain (State.conveyMark_touches ..) (by decide) hx5
    · exact hx5
  · exact hv2

theorem State.startTxSa_touches (s : State) (p1 : ℕ) (p2 : ℕ) (p3 : Waiter) :
    Touches Part.main s (State.startTxSa s p1 p2 p3).1 := by
  unfold State.startTxSa
  split
  · refine Touches.mk1 ?_
    exact (Touches.rfl' _ s)
  · extract_lets -merge -underBinder +onlyGivenNames x0
    clear_value x0
    extract_lets -merge -underBinder +onlyGivenNames x1
    clear_value x1
    extract_lets -merge -underBinder +onlyGivenNames x2
    have hx2 : Touches Part.main s x2 := by
      unfold x2
      exact Touches.chain (State.setCtx_touches ..) (by decide) (Touches.rfl' _ s)
    clear_value x2
    extract_lets -merge -underBinder +onlyGivenNames x3
    have hx3 : Touches Part.main s x3 := by
      unfold x3
      exact Touches.chain (State.convey_touches ..) (by decide) hx2
    clear_value x3
    exact Touches.chain (State.storePn_touches ..) (by decide) hx3

theorem State.prepareRotate_touches (s : State) (p1 : ℕ) (p2 : Waiter) :
    Touches Part.main s (State.prepareRotate s p1 p2).1 := by
  unfold State.prepareRotate
  split
  · refine Touches.mk1 ?_
    exact (Touches.rfl' _ s)
  · extract_lets -merge -underBinder +onlyGivenNames x0
    clear_value x0
    extract_lets -merge -underBinder +onlyGivenNames x1 x2
    clear_value x1 x2
    extract_lets -merge -underBinder +onlyGivenNames x3
    have hx3 : Touches Part.main s x3 := by
      unfold x3
      exact Touches.chain (State.setCtx_touches ..) (by decide) (Touches.rfl' _ s)
    clear_value x3
    split
    rename_i v4 v5 v6 e7
    have hv5 : Touches Part.main s v5 := by
      refine Touches.ofFst e7 ?_
      exact Touches.chain (State.storePn_touches ..) (by decide) hx3
    refine Touches.mk1 ?_
    refine Touches.ite ?_ ?_
    · exact hv5
    · exact Touches.chain (State.modCtx_touches ..) (by decide) hv5

theorem State.startHold_touches (s : State) (p1 : ℕ) :
    Touches [.asc] s (State.startHold s p1) := by
  unfold State.startHold
  exact Touches.chain (State.modCtx_touches ..) (by decide) (Touches.rfl' _ s)

theorem State.commitRotate_touches (s : State) (p1 : ℕ) :
    Touches [.regs, .cnt, .pow, .led, .hif, .asc, .yok, .out] s (State.commitRotate s p1) := by
  unfold State.commitRotate
  split
  · exact (Touches.rfl' _ s)
  · split
    · exact (Touches.rfl' _ s)
    · extract_lets -merge -underBinder +onlyGivenNames x0
      clear_value x0
      extract_lets -merge -underBinder +onlyGivenNames x1 x2
      clear_value x1 x2
      extract_lets -merge -underBinder +onlyGivenNames x3
      have hx3 : Touches [.regs, .cnt, .pow, .led, .hif, .asc, .yok, .out] s x3 := by
        unfold x3
        refine Touches.chain (State.startHold_touches ..) (by decide) ?_
        exact Touches.chain (State.setCtx_touches ..) (by decide) (Touches.rfl' _ s)
      clear_value x3
      extract_lets -merge -underBinder +onlyGivenNames x4
      have hx4 : Touches [.regs, .cnt, .pow, .led, .hif, .asc, .yok, .out] s x4 := by
        unfold x4
        exact Touches.chain (State.convey_touches ..) (by decide) hx3
      clear_value x4
      exact Touches.chain (State.noteFor_touches ..) (by decide) hx4

theorem State.askRotation_touches (s : State) (p1 : ℕ) :
    Touches Part.main s (State.askRotation s p1) := by
  unfold State.askRotation
  split
  · exact (Touches.rfl' _ s)
  · extract_lets -merge -underBinder +onlyGivenNames x0
    have hx0 : Touches Part.main s x0 := by
      unfold x0
      exact Touches.chain (State.noteFor_touches ..) (by decide) (Touches.rfl' _ s)
    clear_value x0
    refine Touches.ite ?_ ?_
    · exact Touches.chain (State.prepareRotate_touches ..) (by decide) hx0
    · exact hx0

theorem State.addUsage_touches (s : State) (p1 : ℕ) (p2 : ℕ) :
    Touches Part.main s (State.addUsage s p1 p2) := by
  unfold State.addUsage
  split
  · exact (Touches.rfl' _ s)
  · extract_lets -merge -underBinder +onlyGivenNames x0
    clear_value x0
    extract_lets -merge -underBinder +onlyGivenNames x1 x2
    clear_value x1 x2
    extract_lets -merge -underBinder +onlyGivenNames x3
    have hx3 : Touches Part.main s x3 := by
      unfold x3
      exact Touches.chain (State.setSlot_touches ..) (by decide) (Touches.rfl' _ s)
    clear_value x3
    extract_lets -merge -underBinder +onlyGivenNames x4
    have hx4 : Touches Part.main s x4 := by
      unfold x4
      refine Touches.ite ?_ ?_
      · refine Touches.ite ?_ ?_
        · exact Touches.chain (State.askRotation_touches ..) (by decide) hx3
        · exact Touches.chain (State.noteFor_touches ..) (by decide) hx3
      · exact hx3
    clear_value x4
    refine Touches.ite ?_ ?_
    · exact Touches.chain (State.noteFor_touches ..) (by decide) hx4
    · exact hx4

theorem State.askMark_touches (s : State) (p1 : ℕ) :
    Touches Part.main s (State.askMark s p1) := by
  unfold State.askMark
  split
  · exact (Touches.rfl' _ s)
  · refine Touches.ite ?_ ?_
    · exact (Touches.rfl' _ s)
    · extract_lets -merge -underBinder +onlyGivenNames x0
      have hx0 : Touches Part.main s x0 := by
        unfold x0
        exact Touches.chain (State.setCtx_touches ..) (by decide) (Touches.rfl' _ s)
      clear_value x0
      split
      rename_i v1 v2 v3 e4
      have hv2 : Touches Part.main s v2 := by
        refine Touches.ofFst e4 ?_
        exact Touches.chain (State.storePn_touches ..) (by decide) hx0
      refine Touches.ite ?_ ?_
      · exact hv2
      · exact Touches.chain (State.modCtx_touches ..) (by decide) hv2

theorem State.takePn_touches (s : State) (p1 : ℕ) :
    Touches Part.main s (State.takePn s p1).2 := by
  unfold State.takePn
  split
  · refine Touches.mk2 ?_
    exact (Touches.rfl' _ s)
  · extract_lets -merge -underBinder +onlyGivenNames x0
    clear_value x0
    extract_lets -merge -underBinder +onlyGivenNames x1
    have hx1 : Touches Part.main s x1 := by
      unfold x1
      exact Touches.chain (State.setCtx_touches ..) (by decide) (Touches.rfl' _ s)
    clear_value x1
    extract_lets -merge -underBinder +onlyGivenNames x2
    have hx2 : Touches Part.main s x2 := by
      unfold x2
      exact Touches.chain (State.askMark_touches ..) (by decide) hx1
    clear_value x2
    refine Touches.mk2 ?_
    refine Touches.ite ?_ ?_
    · exact Touches.chain (State.askRotation_touches ..) (by decide) hx2
    · exact hx2

theorem State.askRxMark_touches (s : State) (p1 : ℕ) :
    Touches Part.main s (State.askRxMark s p1) := by
  unfold State.askRxMark
  split
  · exact (Touches.rfl' _ s)
  · refine Touches.ite ?_ ?_
    · exact (Touches.rfl' _ s)
    · extract_lets -merge -underBinder +onlyGivenNames x0
      have hx0 : Touches Part.main s x0 := by
        unfold x0
        exact Touches.chain (State.setCtx_touches ..) (by decide) (Touches.rfl' _ s)
      clear_value x0
      split
      rename_i v1 v2 v3 e4
      have hv2 : Touches Part.main s v2 := by
        refine Touches.ofFst e4 ?_
        exact Touches.chain (State.storePn_touches ..) (by decide) hx0
      refine Touches.ite ?_ ?_
      · exact hv2
      · exact Touches.chain (State.modCtx_touches ..) (by decide) hv2

theorem State.primarySwitch_touches (s : State) (p1 : ℕ) (p2 : ℕ) :
    Touches Part.main s (State.primarySwitch s p1 p2) := by
  unfold State.primarySwitch
  split
  · exact (Touches.rfl' _ s)
  · extract_lets -merge -underBinder +onlyGivenNames x0
    clear_value x0
    extract_lets -merge -underBinder +onlyGivenNames x1 x2 x3
    clear_value x1 x2 x3
    extract_lets -merge -underBinder +onlyGivenNames x4
    have hx4 : Touches Part.main s x4 := by
      unfold x4
      exact Touches.chain (State.setCtx_touches ..) (by decide) (Touches.rfl' _ s)
    clear_value x4
    split
    rename_i v5 v6 v7 e8
    have hv6 : Touches Part.main s v6 := by
      refine Touches.ofFst e8 ?_
      exact Touches.chain (State.storePn_touches ..) (by decide) hx4
    extract_lets -merge -underBinder +onlyGivenNames x9
    have hx9 : Touches Part.main s x9 := by
      unfold x9
      exact Touches.chain (State.convey_touches ..) (by decide) hv6
    clear_value x9
    refine Touches.chain (State.noteFor_touches ..) (by decide) ?_
    exact Touches.chain (State.startHold_touches ..) (by decide) hx9

theorem State.startRxSa_touches (s : State) (p1 : ℕ) (p2 : ℕ) (p3 : Waiter) :
    Touches Part.main s (State.startRxSa s p1 p2 p3).1 := by
  unfold State.startRxSa
  split
  · refine Touches.mk1 ?_
    exact (Touches.rfl' _ s)
  · extract_lets -merge -underBinder +onlyGivenNames x0
    clear_value x0
    extract_lets -merge -underBinder +onlyGivenNames x1
    clear_value x1
    refine Touches.ite1 ?_ ?_
    · refine Touches.ite1 ?_ ?_
      · extract_lets -merge -underBinder +onlyGivenNames x2
        clear_value x2
        extract_lets -merge -underBinder +onlyGivenNames x3 x4
        clear_value x3 x4
        refine Touches.mk1 ?_
        refine Touches.chain (State.askRxMark_touches ..) (by decide) ?_
        exact Touches.chain (State.setCtx_touches ..) (by decide) (Touches.rfl' _ s)
      · extract_lets -merge -underBinder +onlyGivenNames x5
        clear_value x5
        extract_lets -merge -underBinder +onlyGivenNames x6 x7
        clear_value x6 x7
        refine Touches.chain (State.storePn_touches ..) (by decide) ?_
        exact Touches.chain (State.setCtx_touches ..) (by decide) (Touches.rfl' _ s)
    · extract_lets -merge -underBinder +onlyGivenNames x8
      clear_value x8
      extract_lets -merge -underBinder +onlyGivenNames x9
      clear_value x9
      refine Touches.chain (State.storePn_touches ..) (by decide) ?_
      exact Touches.chain (State.setCtx_touches ..) (by decide) (Touches.rfl' _ s)

theorem State.txDurable_touches (s : State) (p1 : ℕ) (p2 : PnRec) :
    Touches [.regs, .cnt, .pow, .led, .hif, .asc, .yok, .out] s (State.txDurable s p1 p2) := by
  unfold State.txDurable
  split
  · exact (Touches.rfl' _ s)
  · refine Touches.ite ?_ ?_
    · extract_lets -merge -underBinder +onlyGivenNames x0
      have hx0 : Touches [.regs, .cnt, .pow, .led, .hif, .asc, .yok, .out] s x0 := by
        unfold x0
        exact Touches.chain (State.setCtx_touches ..) (by decide) (Touches.rfl' _ s)
      clear_value x0
      refine Touches.ite ?_ ?_
      · exact Touches.chain (State.commitRotate_touches ..) (by decide) hx0
      · exact hx0
    · refine Touches.ite ?_ ?_
      · extract_lets -merge -underBinder +onlyGivenNames x1
        have hx1 : Touches [.regs, .cnt, .pow, .led, .hif, .asc, .yok, .out] s x1 := by
          unfold x1
          exact Touches.chain (State.setCtx_touches ..) (by decide) (Touches.rfl' _ s)
        clear_value x1
        refine Touches.ite ?_ ?_
        · exact Touches.chain (State.convey_touches ..) (by decide) hx1
        · exact hx1
      · exact (Touches.rfl' _ s)

theorem State.rxDurable_touches (s : State) (p1 : ℕ) (p2 : PnRec) :
    Touches [.asc] s (State.rxDurable s p1 p2) := by
  unfold State.rxDurable
  exact Touches.chain (State.modCtx_touches ..) (by decide) (Touches.rfl' _ s)

theorem State.dropMarks_touches (s : State) :
    Touches [.yok, .out] s (State.dropMarks s) := by
  unfold State.dropMarks
  extract_lets -merge -underBinder +onlyGivenNames x0
  clear_value x0
  extract_lets -merge -underBinder +onlyGivenNames x1
  have hx1 : Touches [.yok, .out] s x1 := by
    unfold x1
    refine Touches.foldl _ _ ?_ (fun y2 a2 hy2 => ?_)
    · exact (Touches.rfl' _ s)
    · exact Touches.chain (State.report_touches ..) (by decide) hy2
  clear_value x1
  refine Touches.set_yok (x := x1) ?_ (by decide)
  exact hx1

theorem State.pnDurable_touches (s : State) (p1 : ℕ) (p2 : PnRec) :
    Touches [.regs, .cnt, .pow, .led, .hif, .mram, .asc, .yok, .out] s (State.pnDurable s p1 p2) := by
  unfold State.pnDurable
  extract_lets -merge -underBinder +onlyGivenNames x0 x1
  clear_value x0 x1
  extract_lets -merge -underBinder +onlyGivenNames x2
  have hx2 : Touches [.regs, .cnt, .pow, .led, .hif, .mram, .asc, .yok, .out] s x2 := by
    unfold x2
    refine Touches.set_yok (x := s) ?_ (by decide)
    exact (Touches.rfl' _ s)
  clear_value x2
  extract_lets -merge -underBinder +onlyGivenNames x3
  clear_value x3
  extract_lets -merge -underBinder +onlyGivenNames x4
  have hx4 : Touches [.regs, .cnt, .pow, .led, .hif, .mram, .asc, .yok, .out] s x4 := by
    unfold x4
    refine Touches.set_mram (x := x2) ?_ (by decide)
    exact hx2
  clear_value x4
  extract_lets -merge -underBinder +onlyGivenNames x5
  have hx5 : Touches [.regs, .cnt, .pow, .led, .hif, .mram, .asc, .yok, .out] s x5 := by
    unfold x5
    refine Touches.ite ?_ ?_
    · exact hx4
    · exact Touches.chain (State.txDurable_touches ..) (by decide) hx4
  clear_value x5
  refine Touches.chain (State.dropMarks_touches ..) (by decide) ?_
  refine Touches.ite ?_ ?_
  · exact hx5
  · exact Touches.chain (State.rxDurable_touches ..) (by decide) hx5

theorem State.startItem_touches (s : State) (p1 : ItemKind) (p2 : List ℕ) (p3 : ℕ) (p4 : List ℕ) :
    Touches Part.main s (State.startItem s p1 p2 p3 p4).2 := by
  unfold State.startItem
  extract_lets -merge -underBinder +onlyGivenNames x0
  clear_value x0
  extract_lets -merge -underBinder +onlyGivenNames x1
  have hx1 : Touches Part.main s x1 := by
    unfold x1
    refine Touches.foldl _ _ ?_ (fun y2 a2 hy2 => ?_)
    · exact (Touches.rfl' _ s)
    · exact Touches.chain (State.stageSlot_touches ..) (by decide) hy2
  clear_value x1
  extract_lets -merge -underBinder +onlyGivenNames x3 x4
  clear_value x3 x4
  extract_lets -merge -underBinder +onlyGivenNames x5
  have hx5 : Touches Part.main s x5 := by
    unfold x5
    refine Touches.set_cph (x := x1) ?_ (by decide)
    exact hx1
  clear_value x5
  extract_lets -merge -underBinder +onlyGivenNames x6
  have hx6 : Touches Part.main s x6 := by
    unfold x6
    refine Touches.foldl _ _ ?_ (fun y7 a7 hy7 => ?_)
    · exact hx5
    · refine Touches.chain (State.addUsage_touches ..) (by decide) ?_
      refine Touches.chain (State.inc_touches ..) (by decide) ?_
      exact Touches.chain (State.modSlot_touches ..) (by decide) hy7
  clear_value x6
  exact hx6

theorem State.endItem_touches (s : State) (p1 : ℕ) :
    Touches [.cph, .kvt] s (State.endItem s p1) := by
  unfold State.endItem
  split
  · exact (Touches.rfl' _ s)
  · extract_lets -merge -underBinder +onlyGivenNames x0
    clear_value x0
    extract_lets -merge -underBinder +onlyGivenNames x1
    have hx1 : Touches [.cph, .kvt] s x1 := by
      unfold x1
      refine Touches.set_cph (x := s) ?_ (by decide)
      exact (Touches.rfl' _ s)
    clear_value x1
    refine Touches.foldl _ _ ?_ (fun y2 a2 hy2 => ?_)
    · exact hx1
    · exact Touches.chain (State.modSlot_touches ..) (by decide) hy2

end Sys2Proof.Machine
end

