-- ==== Sys2Proof/Laws/TouchSchOps.lean ====
section
/-! SUPPORT. What each operation of Machine/SchOps.lean may touch. -/

namespace Sys2Proof.Machine

open Sys2Proof

set_option linter.unusedTactic false
set_option linter.unreachableTactic false

theorem State.schCount_touches (s : State) (p1 : ℕ) (p2 : ℕ) :
    Touches [.cnt] s (State.schCount s p1 p2) := by
  unfold State.schCount
  exact Touches.chain (State.incBy_touches ..) (by decide) (Touches.rfl' _ s)

theorem State.addCells_touches (s : State) (p1 : Bool) (p2 : ℤ) (p3 : ℤ) :
    Touches [.sch] s (State.addCells s p1 p2 p3) := by
  unfold State.addCells
  extract_lets -merge -underBinder +onlyGivenNames x0
  clear_value x0
  refine Touches.ite ?_ ?_
  · refine Touches.set_sch (x := s) ?_ (by decide)
    exact (Touches.rfl' _ s)
  · refine Touches.set_sch (x := s) ?_ (by decide)
    exact (Touches.rfl' _ s)

theorem State.spillCheck_touches (s : State) (p1 : Bool) :
    Touches [.regs, .cnt, .pow, .led, .hif, .sch, .yok, .out] s (State.spillCheck s p1) := by
  unfold State.spillCheck
  extract_lets -merge -underBinder +onlyGivenNames x0 x1 x2 x3 x4
  clear_value x0 x1 x2 x3 x4
  extract_lets -merge -underBinder +onlyGivenNames x5
  have hx5 : ∀ z6 z7, Touches [.regs, .cnt, .pow, .led, .hif, .sch, .yok, .out] s z6 → Touches [.regs, .cnt, .pow, .led, .hif, .sch, .yok, .out] s (x5 z6 z7) := by
    intro z6 z7 hz6
    unfold x5
    beta_reduce
    refine Touches.ite ?_ ?_
    · refine Touches.set_sch (x := z6) ?_ (by decide)
      exact hz6
    · refine Touches.set_sch (x := z6) ?_ (by decide)
      exact hz6
  clear_value x5
  extract_lets -merge -underBinder +onlyGivenNames x8
  clear_value x8
  refine Touches.ite ?_ ?_
  · refine Touches.ite ?_ ?_
    · refine Touches.chain (State.note_touches ..) (by decide) ?_
      refine hx5 _ _ ?_
      exact (Touches.rfl' _ s)
    · exact (Touches.rfl' _ s)
  · refine Touches.ite ?_ ?_
    · refine Touches.chain (State.note_touches ..) (by decide) ?_
      refine hx5 _ _ ?_
      exact (Touches.rfl' _ s)
    · exact (Touches.rfl' _ s)

theorem State.setQueue_touches (s : State) (p1 : ℕ) (p2 : List QEntry) :
    Touches [.sch] s (State.setQueue s p1 p2) := by
  unfold State.setQueue
  refine Touches.set_sch (x := s) ?_ (by decide)
  exact (Touches.rfl' _ s)

theorem State.setBelow_touches (s : State) (p1 : ℕ) (p2 : ℕ) (p3 : ℕ) :
    Touches [.sch] s (State.setBelow s p1 p2 p3) := by
  unfold State.setBelow
  refine Touches.set_sch (x := s) ?_ (by decide)
  exact (Touches.rfl' _ s)

theorem State.charge_touches (s : State) (p1 : ℕ) (p2 : ℕ) :
    Touches [.sch] s (State.charge s p1 p2) := by
  unfold State.charge
  split
  refine Touches.ite ?_ ?_
  · exact Touches.chain (State.setBelow_touches ..) (by decide) (Touches.rfl' _ s)
  · exact (Touches.rfl' _ s)

theorem State.reshape_touches {m : List Part} {s : State} {x : State} {p1 : Nat} {p2 : State → State} (hm : [.sch] ⊆ m) (hx : Touches m s x) (k2 : ∀ z0, Touches m s z0 → Touches m s (p2 z0)) :
    Touches m s (State.reshape x p1 p2) := by
  unfold State.reshape
  split
  extract_lets -merge -underBinder +onlyGivenNames x0 x1
  clear_value x0 x1
  extract_lets -merge -underBinder +onlyGivenNames x2
  have hx2 : Touches m s x2 := by
    unfold x2
    refine k2 _ ?_
    exact hx
  clear_value x2
  split
  exact Touches.chain (State.setBelow_touches ..) (List.Subset.trans (by decide) hm) hx2

theorem State.setGate_touches (s : State) (p1 : ℕ) (p2 : GateSt) :
    Touches [.sch] s (State.setGate s p1 p2) := by
  unfold State.setGate
  refine Touches.set_sch (x := s) ?_ (by decide)
  exact (Touches.rfl' _ s)

theorem State.placeGate_touches (s : State) (p1 : ℕ) :
    Touches [.sch] s (State.placeGate s p1) := by
  unfold State.placeGate
  extract_lets -merge -underBinder +onlyGivenNames x0 x1 x2
  clear_value x0 x1 x2
  split
  exact Touches.chain (State.setGate_touches ..) (by decide) (Touches.rfl' _ s)

theorem State.gateResume_touches (s : State) (p1 : ℕ) :
    Touches [.sch] s (State.gateResume s p1) := by
  unfold State.gateResume
  refine Touches.ite ?_ ?_
  · refine Touches.ite ?_ ?_
    · exact (Touches.rfl' _ s)
    · exact Touches.chain (State.placeGate_touches ..) (by decide) (Touches.rfl' _ s)
  · refine Touches.ite ?_ ?_
    · exact Touches.chain (State.setGate_touches ..) (by decide) (Touches.rfl' _ s)
    · exact (Touches.rfl' _ s)

theorem State.gatesLost_touches (s : State) (p1 : ℕ) :
    Touches [.regs, .cnt, .pow, .led, .hif, .sch, .yok, .out] s (State.gatesLost s p1) := by
  unfold State.gatesLost
  refine Touches.foldl _ _ ?_ (fun y0 a0 hy0 => ?_)
  · exact (Touches.rfl' _ s)
  · refine Touches.ite ?_ ?_
    · refine Touches.chain (State.noteFor_touches ..) (by decide) ?_
      exact Touches.chain (State.setGate_touches ..) (by decide) hy0
    · exact hy0

theorem State.gatesResume_touches (s : State) (p1 : ℕ) :
    Touches [.sch] s (State.gatesResume s p1) := by
  unfold State.gatesResume
  refine Touches.foldl _ _ ?_ (fun y0 a0 hy0 => ?_)
  · exact (Touches.rfl' _ s)
  · refine Touches.ite ?_ ?_
    · exact Touches.chain (State.gateResume_touches ..) (by decide) hy0
    · exact hy0

theorem State.dropRef_touches (s : State) (p1 : ℕ) :
    Touches [.regs, .cnt, .pow, .led, .hif, .sch, .yok, .out] s (State.dropRef s p1) := by
  unfold State.dropRef
  split
  · exact (Touches.rfl' _ s)
  · refine Touches.ite ?_ ?_
    · exact Touches.chain (State.setFrame_touches ..) (by decide) (Touches.rfl' _ s)
    · extract_lets -merge -underBinder +onlyGivenNames x0
      have hx0 : Touches [.regs, .cnt, .pow, .led, .hif, .sch, .yok, .out] s x0 := by
        unfold x0
        exact Touches.chain (State.setFrame_touches ..) (by decide) (Touches.rfl' _ s)
      clear_value x0
      extract_lets -merge -underBinder +onlyGivenNames x1
      clear_value x1
      extract_lets -merge -underBinder +onlyGivenNames x2
      have hx2 : Touches [.regs, .cnt, .pow, .led, .hif, .sch, .yok, .out] s x2 := by
        unfold x2
        refine Touches.set_sch (x := x0) ?_ (by decide)
        exact hx0
      clear_value x2
      refine Touches.chain (State.spillCheck_touches ..) (by decide) ?_
      exact Touches.chain (State.addCells_touches ..) (by decide) hx2

theorem State.zeroDeficit_touches (s : State) (p1 : ℕ) (p2 : Bool) :
    Touches [.sch] s (State.zeroDeficit s p1 p2) := by
  unfold State.zeroDeficit
  refine Touches.ite ?_ ?_
  · refine Touches.set_sch (x := s) ?_ (by decide)
    exact (Touches.rfl' _ s)
  · exact (Touches.rfl' _ s)

theorem State.popQueue_touches (s : State) (p1 : ℕ) :
    Touches [.sch] s (State.popQueue s p1) := by
  unfold State.popQueue
  extract_lets -merge -underBinder +onlyGivenNames x0
  clear_value x0
  extract_lets -merge -underBinder +onlyGivenNames x1
  have hx1 : Touches [.sch] s x1 := by
    unfold x1
    exact Touches.chain (State.setQueue_touches ..) (by decide) (Touches.rfl' _ s)
  clear_value x1
  refine Touches.chain (State.zeroDeficit_touches ..) (by decide) ?_
  exact Touches.chain (State.zeroDeficit_touches ..) (by decide) hx1

theorem State.injectDone_touches (s : State) (p1 : Frame) (p2 : ℕ) (p3 : ℕ) :
    Touches [.cnt, .hif, .out] s (State.injectDone s p1 p2 p3) := by
  unfold State.injectDone
  split
  · exact Touches.chain (State.complete_touches ..) (by decide) (Touches.rfl' _ s)
  · exact (Touches.rfl' _ s)

theorem State.dropHead_touches (s : State) (p1 : ℕ) (p2 : ℕ) :
    Touches [.regs, .cnt, .pow, .led, .hif, .sch, .yok, .out] s (State.dropHead s p1 p2) := by
  unfold State.dropHead
  split
  · exact (Touches.rfl' _ s)
  · split
    · exact Touches.chain (State.popQueue_touches ..) (by decide) (Touches.rfl' _ s)
    · extract_lets -merge -underBinder +onlyGivenNames x0
      have hx0 : Touches [.regs, .cnt, .pow, .led, .hif, .sch, .yok, .out] s x0 := by
        unfold x0
        exact Touches.chain (State.observe_touches ..) (by decide) (Touches.rfl' _ s)
      clear_value x0
      refine Touches.chain (State.dropRef_touches ..) (by decide) ?_
      refine Touches.chain (State.injectDone_touches ..) (by decide) ?_
      exact Touches.chain (State.popQueue_touches ..) (by decide) hx0

theorem State.dropInjected_touches (s : State) (p1 : ℕ) :
    Touches [.regs, .cnt, .pow, .led, .hif, .sch, .yok, .out] s (State.dropInjected s p1) := by
  unfold State.dropInjected
  extract_lets -merge -underBinder +onlyGivenNames x0 x1
  clear_value x0 x1
  extract_lets -merge -underBinder +onlyGivenNames x2
  have hx2 : Touches [.regs, .cnt, .pow, .led, .hif, .sch, .yok, .out] s x2 := by
    unfold x2
    refine Touches.foldl _ _ ?_ (fun y3 a3 hy3 => ?_)
    · exact (Touches.rfl' _ s)
    · exact Touches.chain (State.injectDone_touches ..) (by decide) hy3
  clear_value x2
  extract_lets -merge -underBinder +onlyGivenNames x4
  clear_value x4
  extract_lets -merge -underBinder +onlyGivenNames x5
  have hx5 : Touches [.regs, .cnt, .pow, .led, .hif, .sch, .yok, .out] s x5 := by
    unfold x5
    refine Touches.set_sch (x := x2) ?_ (by decide)
    exact hx2
  clear_value x5
  refine Touches.foldl _ _ ?_ (fun y6 a6 hy6 => ?_)
  · exact hx5
  · split
    · refine Touches.ite ?_ ?_
      · refine Touches.chain (State.dropRef_touches ..) (by decide) ?_
        refine Touches.chain (State.injectDone_touches ..) (by decide) ?_
        exact Touches.chain (State.setQueue_touches ..) (by decide) hy6
      · exact hy6
    · exact hy6

theorem State.linkDown_touches (s : State) :
    Touches [.regs, .cnt, .pow, .led, .hif, .sch, .asc, .cph, .kvt, .yok, .out] s (State.linkDown s) := by
  unfold State.linkDown
  refine Touches.ite ?_ ?_
  · refine Touches.foldl _ _ ?_ (fun y0 a0 hy0 => ?_)
    · exact Touches.chain (State.linkLost_touches ..) (by decide) (Touches.rfl' _ s)
    · exact Touches.chain (State.dropInjected_touches ..) (by decide) hy0
  · exact (Touches.rfl' _ s)

theorem State.digest_touches (s : State) (p1 : ℕ) (p2 : List Byte) :
    Touches [.yok] s (State.digest s p1 p2) := by
  unfold State.digest
  refine Touches.ite ?_ ?_
  · extract_lets -merge -underBinder +onlyGivenNames x0
    clear_value x0
    extract_lets -merge -underBinder +onlyGivenNames x1
    refine Touches.set_yok (x := s) ?_ (by decide)
    exact (Touches.rfl' _ s)
  · exact (Touches.rfl' _ s)

theorem State.excuse_touches (s : State) (p1 : ℕ) :
    Touches [.yok] s (State.excuse s p1) := by
  unfold State.excuse
  refine Touches.ite ?_ ?_
  · refine Touches.set_yok (x := s) ?_ (by decide)
    exact (Touches.rfl' _ s)
  · exact (Touches.rfl' _ s)

end Sys2Proof.Machine
end

