-- ==== Sys2Proof/Laws/TouchGuard.lean ====
section
/-! SUPPORT. What each operation of Machine/Guard.lean may touch. -/

namespace Sys2Proof.Machine

open Sys2Proof

theorem State.mgdCount_touches (s : State) (p1 : ℕ) (p2 : ℕ) :
    Touches [.cnt] s (State.mgdCount s p1 p2) := by
  unfold State.mgdCount
  exact Touches.chain (State.incBy_touches ..) (by decide) (Touches.rfl' _ s)

theorem State.setLine_touches (s : State) (p1 : ℕ) (p2 : GLine) :
    Touches [.mgd] s (State.setLine s p1 p2) := by
  unfold State.setLine
  refine Touches.set_mgd (x := s) ?_ (by decide) (SMap.wf_set _ _ _ _)
  exact (Touches.rfl' _ s)

theorem State.setMajor_touches (s : State) (p1 : ℕ) (p2 : ℕ) :
    Touches [.mgd] s (State.setMajor s p1 p2) := by
  unfold State.setMajor
  refine Touches.set_mgd (x := s) ?_ (by decide) id
  exact (Touches.rfl' _ s)

theorem State.toHbm_touches (s : State) (p1 : ℕ) (p2 : List Byte) :
    Touches [.out] s (State.toHbm s p1 p2) := by
  unfold State.toHbm
  exact Touches.chain (State.emit_touches ..) (by decide) (Touches.rfl' _ s)

theorem State.emitLine_touches (s : State) (p1 : Domain) (p2 : ℕ) :
    Touches [.out] s (State.emitLine s p1 p2) := by
  unfold State.emitLine
  extract_lets -merge -underBinder +onlyGivenNames x0 x1 x2 x3 x4 x5 x6 x7 x8 x9
  clear_value x0 x1 x2 x3 x4 x5 x6 x7 x8 x9
  extract_lets -merge -underBinder +onlyGivenNames x10
  have hx10 : Touches [.out] s x10 := by
    unfold x10
    refine Touches.chain (State.toHbm_touches ..) (by decide) ?_
    exact Touches.chain (State.toHbm_touches ..) (by decide) (Touches.rfl' _ s)
  clear_value x10
  extract_lets -merge -underBinder +onlyGivenNames x11
  have hx11 : Touches [.out] s x11 := by
    unfold x11
    exact Touches.chain (State.toHbm_touches ..) (by decide) hx10
  clear_value x11
  exact Touches.chain (State.toHbm_touches ..) (by decide) hx11

theorem State.bumpRoot_touches (s : State) (p1 : ℕ) :
    Touches [.mgd] s (State.bumpRoot s p1) := by
  unfold State.bumpRoot
  extract_lets -merge -underBinder +onlyGivenNames x0
  clear_value x0
  refine Touches.ite ?_ ?_
  · refine Touches.set_mgd (x := s) ?_ (by decide) id
    exact (Touches.rfl' _ s)
  · extract_lets -merge -underBinder +onlyGivenNames x1
    clear_value x1
    refine Touches.set_mgd (x := s) ?_ (by decide) id
    exact (Touches.rfl' _ s)

theorem State.failInfo_touches (s : State) (p1 : ℕ) (p2 : ℕ) (p3 : ℕ) :
    Touches [.regs] s (State.failInfo s p1 p2 p3) := by
  unfold State.failInfo
  refine Touches.chain (State.wr_touches ..) (by decide) ?_
  refine Touches.chain (State.wr_touches ..) (by decide) ?_
  exact Touches.chain (State.wr_touches ..) (by decide) (Touches.rfl' _ s)

theorem State.poisonLines_touches (s : State) (p1 : Domain) (p2 : ℕ) (p3 : ℕ) :
    Touches [.mgd, .out] s (State.poisonLines s p1 p2 p3) := by
  unfold State.poisonLines
  extract_lets -merge -underBinder +onlyGivenNames x0
  have hx0 : Touches [.mgd, .out] s x0 := by
    unfold x0
    refine Touches.foldl _ _ ?_ (fun y1 a1 hy1 => ?_)
    · exact (Touches.rfl' _ s)
    · exact Touches.chain (State.setLine_touches ..) (by decide) hy1
  clear_value x0
  refine Touches.foldl _ _ ?_ (fun y2 a2 hy2 => ?_)
  · exact hx0
  · exact Touches.chain (State.emitLine_touches ..) (by decide) hy2

theorem State.linkFailed_touches (s : State) (p1 : ℕ) (p2 : ℕ) :
    Touches Part.note s (State.linkFailed s p1 p2) := by
  unfold State.linkFailed
  refine Touches.chain (State.note_touches ..) (by decide) ?_
  refine Touches.chain (State.failInfo_touches ..) (by decide) ?_
  exact Touches.chain (State.mgdCount_touches ..) (by decide) (Touches.rfl' _ s)

theorem State.refound_touches (s : State) (p1 : Domain) (p2 : ℕ) :
    Touches [.mgd, .out] s (State.refound s p1 p2) := by
  unfold State.refound
  extract_lets -merge -underBinder +onlyGivenNames x0
  clear_value x0
  extract_lets -merge -underBinder +onlyGivenNames x1
  have hx1 : Touches [.mgd, .out] s x1 := by
    unfold x1
    refine Touches.foldl _ _ ?_ (fun y2 a2 hy2 => ?_)
    · exact (Touches.rfl' _ s)
    · exact Touches.chain (State.setMajor_touches ..) (by decide) hy2
  clear_value x1
  extract_lets -merge -underBinder +onlyGivenNames x3
  have hx3 : Touches [.mgd, .out] s x3 := by
    unfold x3
    refine Touches.chain (State.bumpRoot_touches ..) (by decide) ?_
    refine Touches.foldl _ _ ?_ (fun y4 a4 hy4 => ?_)
    · exact hx1
    · exact Touches.chain (State.setLine_touches ..) (by decide) hy4
  clear_value x3
  exact Touches.chain (State.poisonLines_touches ..) (by decide) hx3

theorem State.tagFailure_touches (s : State) (p1 : Domain) (p2 : ℕ) (p3 : ℕ) (p4 : ℕ) :
    Touches Part.main s (State.tagFailure s p1 p2 p3 p4) := by
  unfold State.tagFailure
  extract_lets -merge -underBinder +onlyGivenNames x0
  extract_lets -merge -underBinder +onlyGivenNames x1
  have hx1 : Touches Part.main s x1 := by
    unfold x1
    refine Touches.chain (State.failInfo_touches ..) (by decide) ?_
    exact Touches.chain (State.mgdCount_touches ..) (by decide) (Touches.rfl' _ s)
  extract_lets -merge -underBinder +onlyGivenNames x2
  have hx2 : Touches Part.main s x2 := by
    unfold x2
    split
    · exact Touches.chain (State.poisonLines_touches ..) (by decide) hx1
    · exact Touches.chain (State.poisonLines_touches ..) (by decide) hx1
    · exact Touches.chain (State.refound_touches ..) (by decide) hx1
  extract_lets -merge -underBinder +onlyGivenNames x3
  have hx3 : Touches Part.main s x3 := by
    unfold x3
    exact Touches.chain (State.note_touches ..) (by decide) hx2
  extract_lets -merge -underBinder +onlyGivenNames x4
  extract_lets -merge -underBinder +onlyGivenNames x5
  extract_lets -merge -underBinder +onlyGivenNames x6
  have hx6 : Touches Part.main s x6 := by
    unfold x6
    refine Touches.set_mgd (x := x3) ?_ (by decide) id
    exact hx3
  refine Touches.ite ?_ ?_
  · exact Touches.chain (State.raise_touches ..) (by decide) hx6
  · exact hx6

theorem State.poisoned_touches (s : State) :
    Touches [.cnt] s (State.poisoned s).1 := by
  unfold State.poisoned
  refine Touches.mk1 ?_
  exact Touches.chain (State.mgdCount_touches ..) (by decide) (Touches.rfl' _ s)

theorem State.cacheLook_touches (s : State) (p1 : ℕ) :
    Touches [.cnt] s (State.cacheLook s p1) := by
  unfold State.cacheLook
  exact Touches.chain (State.mgdCount_touches ..) (by decide) (Touches.rfl' _ s)

theorem State.verify_touches (s : State) (p1 : Domain) (p2 : ℕ) (p3 : ℕ) (p4 : MemOutcome) :
    Touches Part.main s (State.verify s p1 p2 p3 p4).1 := by
  unfold State.verify
  extract_lets -merge -underBinder +onlyGivenNames x0
  clear_value x0
  extract_lets -merge -underBinder +onlyGivenNames x1
  have hx1 : Touches Part.main s x1 := by
    unfold x1
    exact Touches.chain (State.cacheLook_touches ..) (by decide) (Touches.rfl' _ s)
  clear_value x1
  extract_lets -merge -underBinder +onlyGivenNames x2
  have hx2 : ∀ z3, Touches Part.main s z3 → Touches Part.main s (x2 z3).1 := by
    intro z3 hz3
    unfold x2
    beta_reduce
    refine Touches.ite1 ?_ ?_
    · exact Touches.chain (State.poisoned_touches ..) (by decide) hz3
    · exact hz3
  clear_value x2
  split
  · refine hx2 _ ?_
    exact hx1
  · extract_lets -merge -underBinder +onlyGivenNames x4
    clear_value x4
    refine hx2 _ ?_
    refine Touches.chain (State.mgdCount_touches ..) (by decide) ?_
    refine Touches.set_mgd (x := x1) ?_ (by decide) id
    exact hx1
  · refine hx2 _ ?_
    exact Touches.chain (State.mgdCount_touches ..) (by decide) hx1
  · refine Touches.chain (State.poisoned_touches ..) (by decide) ?_
    exact Touches.chain (State.tagFailure_touches ..) (by decide) hx1
  · refine Touches.chain (State.poisoned_touches ..) (by decide) ?_
    exact Touches.chain (State.tagFailure_touches ..) (by decide) hx1
  · refine Touches.chain (State.poisoned_touches ..) (by decide) ?_
    exact Touches.chain (State.tagFailure_touches ..) (by decide) hx1
  · refine Touches.chain (State.poisoned_touches ..) (by decide) ?_
    refine Touches.chain (State.note_touches ..) (by decide) ?_
    refine Touches.chain (State.poisonLines_touches ..) (by decide) ?_
    refine Touches.chain (State.failInfo_touches ..) (by decide) ?_
    exact Touches.chain (State.mgdCount_touches ..) (by decide) hx1
  · refine Touches.mk1 ?_
    exact Touches.chain (State.linkFailed_touches ..) (by decide) hx1

theorem State.restartPages_touches (s : State) (p1 : ℕ) (p2 : ℕ) :
    Touches [.mgd] s (State.restartPages s p1 p2) := by
  unfold State.restartPages
  extract_lets -merge -underBinder +onlyGivenNames x0
  extract_lets -merge -underBinder +onlyGivenNames x1
  extract_lets -merge -underBinder +onlyGivenNames x2
  have hx2 : Touches [.mgd] s x2 := by
    unfold x2
    refine Touches.set_mgd (x := s) ?_ (by decide) id
    exact (Touches.rfl' _ s)
  clear_value x2
  refine Touches.foldl _ _ ?_ (fun y3 a3 hy3 => ?_)
  · exact hx2
  · exact Touches.chain (State.setLine_touches ..) (by decide) hy3

theorem State.restartSpan_touches (s : State) (p1 : ℕ) (p2 : ℕ) (p3 : List Domain) :
    Touches [.mgd] s (State.restartSpan s p1 p2 p3) := by
  unfold State.restartSpan
  split
  · exact (Touches.rfl' _ s)
  · extract_lets -merge -underBinder +onlyGivenNames x0
    clear_value x0
    extract_lets -merge -underBinder +onlyGivenNames x1
    clear_value x1
    refine Touches.chain (State.restartSpan_touches ..) (by decide) ?_
    exact Touches.chain (State.restartPages_touches ..) (by decide) (Touches.rfl' _ s)

theorem State.sweepTo_touches (s : State) (p1 : Retill) (p2 : ℕ) :
    Touches [.mgd] s (State.sweepTo s p1 p2) := by
  unfold State.sweepTo
  extract_lets -merge -underBinder +onlyGivenNames x0
  have hx0 : Touches [.mgd] s x0 := by
    unfold x0
    exact Touches.chain (State.restartSpan_touches ..) (by decide) (Touches.rfl' _ s)
  clear_value x0
  refine Touches.set_mgd (x := x0) ?_ (by decide) id
  exact hx0

theorem State.retillSweep_touches (s : State) :
    Touches [.mgd, .free] s (State.retillSweep s) := by
  unfold State.retillSweep
  split
  · exact (Touches.rfl' _ s)
  · split
    rename_i v0 v1 v2 e3
    have hv2 : Touches [.mgd, .free] s v2 := by
      refine Touches.ofSnd e3 ?_
      exact Touches.chain (State.draw_touches ..) (by decide) (Touches.rfl' _ s)
    exact Touches.chain (State.sweepTo_touches ..) (by decide) hv2

theorem State.mgdGate_touches (s : State) (p1 : ℕ) (p2 : ℕ) :
    Touches [.regs, .cnt, .pow, .led, .hif, .mgd, .yok, .out, .free] s (State.mgdGate s p1 p2).1 := by
  unfold State.mgdGate
  extract_lets -merge -underBinder +onlyGivenNames x0
  have hx0 : ∀ z1 z2, Touches [.regs, .cnt, .pow, .led, .hif, .mgd, .yok, .out, .free] s z1 → Touches [.regs, .cnt, .pow, .led, .hif, .mgd, .yok, .out, .free] s (x0 z1 z2).1 := by
    intro z1 z2 hz1
    unfold x0
    beta_reduce
    refine Touches.mk1 ?_
    exact Touches.chain (State.emit_touches ..) (by decide) hz1
  clear_value x0
  refine Touches.ite1 ?_ ?_
  · refine hx0 _ _ ?_
    exact (Touches.rfl' _ s)
  · refine Touches.ite1 ?_ ?_
    · refine hx0 _ _ ?_
      exact (Touches.rfl' _ s)
    · extract_lets -merge -underBinder +onlyGivenNames x3
      have hx3 : Touches [.regs, .cnt, .pow, .led, .hif, .mgd, .yok, .out, .free] s x3 := by
        unfold x3
        exact Touches.chain (State.retillSweep_touches ..) (by decide) (Touches.rfl' _ s)
      clear_value x3
      split
      · refine Touches.ite1 ?_ ?_
        · refine Touches.ite1 ?_ ?_
          · refine hx0 _ _ ?_
            exact hx3
          · exact hx3
        · refine hx0 _ _ ?_
          refine Touches.chain (State.note_touches ..) (by decide) ?_
          exact Touches.chain (State.mgdCount_touches ..) (by decide) hx3
      · refine hx0 _ _ ?_
        refine Touches.chain (State.note_touches ..) (by decide) ?_
        exact Touches.chain (State.mgdCount_touches ..) (by decide) hx3

theorem State.ctxPoison_touches (s : State) (p1 : ℕ) :
    Touches [.regs, .cnt, .pow, .led, .hif, .asc, .yok, .out] s (State.ctxPoison s p1) := by
  unfold State.ctxPoison
  split
  · exact (Touches.rfl' _ s)
  · refine Touches.ite ?_ ?_
    · exact (Touches.rfl' _ s)
    · refine Touches.chain (State.noteFor_touches ..) (by decide) ?_
      exact Touches.chain (State.setCtx_touches ..) (by decide) (Touches.rfl' _ s)

theorem execMgdRead_touches (p0 : Fin 80) (p1 : ℕ) (p2 : MemOutcome) (s : State) :
    OutTouches Part.main s (execMgdRead p0 p1 p2 s) := by
  unfold execMgdRead
  extract_lets -merge -underBinder +onlyGivenNames x0
  clear_value x0
  split
  · rename_i v1 v2 e3
    have hv2 : Touches Part.main s v2 := by
      refine Touches.ofFst e3 ?_
      exact Touches.chain (State.mgdGate_touches ..) (by decide) (Touches.rfl' _ s)
    show Touches _ _ _
    exact hv2
  · rename_i v4 v5 v6 e7
    have hv5 : Touches Part.main s v5 := by
      refine Touches.ofFst e7 ?_
      exact Touches.chain (State.mgdGate_touches ..) (by decide) (Touches.rfl' _ s)
    extract_lets -merge -underBinder +onlyGivenNames x8
    clear_value x8
    refine OutTouches.ite ?_ ?_
    · show Touches _ _ _
      exact Touches.chain (State.emit_touches ..) (by decide) hv5
    · split
      rename_i v9 v10 v11 e12
      have hv10 : Touches Part.main s v10 := by
        refine Touches.ofFst e12 ?_
        refine Touches.chain (State.verify_touches ..) (by decide) ?_
        exact Touches.chain (State.mgdCount_touches ..) (by decide) hv5
      extract_lets -merge -underBinder +onlyGivenNames x13
      have hx13 : Touches Part.main s x13 := by
        unfold x13
        refine Touches.ite ?_ ?_
        · exact hv10
        · refine Touches.ite ?_ ?_
          · exact Touches.chain (State.ctxPoison_touches ..) (by decide) hv10
          · refine Touches.ite ?_ ?_
            · exact Touches.chain (State.ctxPoison_touches ..) (by decide) hv10
            · exact hv10
      clear_value x13
      show Touches _ _ _
      exact Touches.chain (State.emit_touches ..) (by decide) hx13

theorem State.retillDue_touches (s : State) (p1 : ℕ) :
    Touches [.regs, .cnt, .pow, .led, .hif, .mgd, .kvt, .yok, .out, .free] s (State.retillDue s p1) := by
  unfold State.retillDue
  refine Touches.ite ?_ ?_
  · exact (Touches.rfl' _ s)
  · extract_lets -merge -underBinder +onlyGivenNames x0
    extract_lets -merge -underBinder +onlyGivenNames x1
    have hx1 : Touches [.regs, .cnt, .pow, .led, .hif, .mgd, .kvt, .yok, .out, .free] s x1 := by
      unfold x1
      refine Touches.chain (State.note_touches ..) (by decide) ?_
      refine Touches.set_mgd (x := s) ?_ (by decide) id
      exact (Touches.rfl' _ s)
    refine Touches.ite ?_ ?_
    · split
      rename_i v2 v3 v4 e5
      have hv4 : Touches [.regs, .cnt, .pow, .led, .hif, .mgd, .kvt, .yok, .out, .free] s v4 := by
        refine Touches.ofSnd e5 ?_
        exact Touches.chain (State.rbgTake_touches ..) (by decide) hx1
      refine Touches.set_mgd (x := v4) ?_ (by decide) id
      exact hv4
    · exact hx1

theorem State.refreshPage_touches (s : State) (p1 : Domain) (p2 : ℕ) (p3 : List Byte) :
    Touches [.regs, .cnt, .pow, .led, .hif, .mgd, .kvt, .yok, .out, .free] s (State.refreshPage s p1 p2 p3) := by
  unfold State.refreshPage
  extract_lets -merge -underBinder +onlyGivenNames x0 x1
  clear_value x0 x1
  extract_lets -merge -underBinder +onlyGivenNames x2
  have hx2 : Touches [.regs, .cnt, .pow, .led, .hif, .mgd, .kvt, .yok, .out, .free] s x2 := by
    unfold x2
    refine Touches.chain (State.setMajor_touches ..) (by decide) ?_
    exact Touches.chain (State.mgdCount_touches ..) (by decide) (Touches.rfl' _ s)
  clear_value x2
  extract_lets -merge -underBinder +onlyGivenNames x3
  have hx3 : Touches [.regs, .cnt, .pow, .led, .hif, .mgd, .kvt, .yok, .out, .free] s x3 := by
    unfold x3
    refine Touches.foldl _ _ ?_ (fun y4 a4 hy4 => ?_)
    · exact hx2
    · exact Touches.chain (State.setLine_touches ..) (by decide) hy4
  clear_value x3
  extract_lets -merge -underBinder +onlyGivenNames x5
  have hx5 : Touches [.regs, .cnt, .pow, .led, .hif, .mgd, .kvt, .yok, .out, .free] s x5 := by
    unfold x5
    refine Touches.chain (State.bumpRoot_touches ..) (by decide) ?_
    exact Touches.chain (State.setLine_touches ..) (by decide) hx3
  clear_value x5
  extract_lets -merge -underBinder +onlyGivenNames x6
  have hx6 : Touches [.regs, .cnt, .pow, .led, .hif, .mgd, .kvt, .yok, .out, .free] s x6 := by
    unfold x6
    refine Touches.foldl _ _ ?_ (fun y7 a7 hy7 => ?_)
    · exact hx5
    · exact Touches.chain (State.emitLine_touches ..) (by decide) hy7
  clear_value x6
  refine Touches.ite ?_ ?_
  · exact Touches.chain (State.retillDue_touches ..) (by decide) hx6
  · exact hx6

theorem State.writeFailed_touches (s : State) (p1 : Domain) (p2 : ℕ) (p3 : ℕ) :
    Touches [.regs, .cnt, .pow, .led, .hif, .mgd, .yok, .out, .free] s (State.writeFailed s p1 p2 p3) := by
  unfold State.writeFailed
  split
  rename_i v0 v1 v2 e3
  have hv2 : Touches [.regs, .cnt, .pow, .led, .hif, .mgd, .yok, .out, .free] s v2 := by
    refine Touches.ofSnd e3 ?_
    exact Touches.chain (State.draw_touches ..) (by decide) (Touches.rfl' _ s)
  extract_lets -merge -underBinder +onlyGivenNames x4
  clear_value x4
  extract_lets -merge -underBinder +onlyGivenNames x5
  have hx5 : Touches [.regs, .cnt, .pow, .led, .hif, .mgd, .yok, .out, .free] s x5 := by
    unfold x5
    refine Touches.chain (State.bumpRoot_touches ..) (by decide) ?_
    exact Touches.chain (State.setLine_touches ..) (by decide) hv2
  clear_value x5
  exact Touches.chain (State.linkFailed_touches ..) (by decide) hx5

theorem State.writeLine_touches (s : State) (p1 : Domain) (p2 : ℕ) (p3 : List Byte) (p4 : MemOutcome) (p5 : ℕ) :
    Touches Part.main s (State.writeLine s p1 p2 p3 p4 p5).1 := by
  unfold State.writeLine
  extract_lets -merge -underBinder +onlyGivenNames x0
  have hx0 : Touches Part.main s x0 := by
    unfold x0
    split
    · exact Touches.chain (State.mgdCount_touches ..) (by decide) (Touches.rfl' _ s)
    · exact (Touches.rfl' _ s)
  clear_value x0
  extract_lets -merge -underBinder +onlyGivenNames x1
  clear_value x1
  refine Touches.ite1 ?_ ?_
  · refine Touches.mk1 ?_
    exact Touches.chain (State.mgdCount_touches ..) (by decide) hx0
  · refine Touches.ite1 ?_ ?_
    · refine Touches.ite1 ?_ ?_
      · refine Touches.mk1 ?_
        exact Touches.chain (State.writeFailed_touches ..) (by decide) hx0
      · extract_lets -merge -underBinder +onlyGivenNames x2
        have hx2 : Touches Part.main s x2 := by
          unfold x2
          refine Touches.chain (State.mgdCount_touches ..) (by decide) ?_
          refine Touches.chain (State.bumpRoot_touches ..) (by decide) ?_
          exact Touches.chain (State.setLine_touches ..) (by decide) hx0
        clear_value x2
        refine Touches.mk1 ?_
        exact Touches.chain (State.emitLine_touches ..) (by decide) hx2
    · refine Touches.ite1 ?_ ?_
      · extract_lets -merge -underBinder +onlyGivenNames x3
        extract_lets -merge -underBinder +onlyGivenNames x4
        have hx4 : Touches Part.main s x4 := by
          unfold x4
          refine Touches.chain (State.mgdCount_touches ..) (by decide) ?_
          refine Touches.set_mgd (x := x0) ?_ (by decide) id
          exact hx0
        clear_value x4
        refine Touches.mk1 ?_
        refine Touches.chain (State.recheck_touches ..) (by decide) ?_
        refine Touches.chain (State.raise_touches ..) (by decide) ?_
        exact Touches.chain (State.beginLevel2_touches ..) (by decide) hx4
      · refine Touches.mk1 ?_
        refine Touches.chain (State.mgdCount_touches ..) (by decide) ?_
        exact Touches.chain (State.refreshPage_touches ..) (by decide) hx0

theorem execMgdWrite_touches (p0 : Fin 80) (p1 : ℕ) (p2 : List Byte) (p3 : MemOutcome) (p4 : MemOutcome) (s : State) :
    OutTouches Part.main s (execMgdWrite p0 p1 p2 p3 p4 s) := by
  unfold execMgdWrite
  extract_lets -merge -underBinder +onlyGivenNames x0
  clear_value x0
  split
  · rename_i v1 v2 e3
    have hv2 : Touches Part.main s v2 := by
      refine Touches.ofFst e3 ?_
      exact Touches.chain (State.mgdGate_touches ..) (by decide) (Touches.rfl' _ s)
    show Touches _ _ _
    exact hv2
  · rename_i v4 v5 v6 e7
    have hv5 : Touches Part.main s v5 := by
      refine Touches.ofFst e7 ?_
      exact Touches.chain (State.mgdGate_touches ..) (by decide) (Touches.rfl' _ s)
    extract_lets -merge -underBinder +onlyGivenNames x8 x9
    clear_value x8 x9
    extract_lets -merge -underBinder +onlyGivenNames x10
    have hx10 : ∀ z11 z12, Touches Part.main s z11 → OutTouches Part.main s (x10 z11 z12) := by
      intro z11 z12 hz11
      unfold x10
      beta_reduce
      show Touches _ _ _
      exact Touches.chain (State.emit_touches ..) (by decide) hz11
    clear_value x10
    refine OutTouches.ite ?_ ?_
    · split
      rename_i v13 v14 v15 e16
      have hv14 : Touches Part.main s v14 := by
        refine Touches.ofFst e16 ?_
        exact Touches.chain (State.writeLine_touches ..) (by decide) hv5
      refine hx10 _ _ ?_
      exact hv14
    · split
      rename_i v17 v18 v19 e20
      have hv18 : Touches Part.main s v18 := by
        refine Touches.ofFst e20 ?_
        refine Touches.chain (State.verify_touches ..) (by decide) ?_
        exact Touches.chain (State.mgdCount_touches ..) (by decide) hv5
      refine OutTouches.ite ?_ ?_
      · split
        rename_i v21 v22 v23 e24
        have hv22 : Touches Part.main s v22 := by
          refine Touches.ofFst e24 ?_
          exact Touches.chain (State.writeLine_touches ..) (by decide) hv18
        refine hx10 _ _ ?_
        exact hv22
      · refine OutTouches.ite ?_ ?_
        · extract_lets -merge -underBinder +onlyGivenNames x25
          have hx25 : Touches Part.main s x25 := by
            unfold x25
            refine Touches.chain (State.poisonLines_touches ..) (by decide) ?_
            exact Touches.chain (State.mgdCount_touches ..) (by decide) hv18
          clear_value x25
          extract_lets -merge -underBinder +onlyGivenNames x26
          have hx26 : Touches Part.main s x26 := by
            unfold x26
            exact Touches.chain (State.note_touches ..) (by decide) hx25
          clear_value x26
          refine hx10 _ _ ?_
          refine Touches.ite ?_ ?_
          · exact Touches.chain (State.ctxPoison_touches ..) (by decide) hx26
          · refine Touches.ite ?_ ?_
            · exact Touches.chain (State.ctxPoison_touches ..) (by decide) hx26
            · exact hx26
        · refine hx10 _ _ ?_
          exact hv18

theorem State.spillWrite_touches (s : State) (p1 : ℕ) (p2 : List Byte) :
    Touches Part.main s (State.spillWrite s p1 p2).1 := by
  unfold State.spillWrite
  split
  · refine Touches.mk1 ?_
    exact (Touches.rfl' _ s)
  · refine Touches.ite1 ?_ ?_
    · refine Touches.mk1 ?_
      exact (Touches.rfl' _ s)
    · refine Touches.foldl1 _ _ ?_ (fun y0 a0 hy0 => ?_)
      · refine Touches.mk1 ?_
        exact (Touches.rfl' _ s)
      · split
        rename_i v1 v2 v3 e4
        have hv2 : Touches Part.main s v2 := by
          refine Touches.ofFst e4 ?_
          exact Touches.chain (State.writeLine_touches ..) (by decide) hy0
        exact hv2

theorem State.spillRead_touches (s : State) (p1 : ℕ) (p2 : MemOutcome) :
    Touches Part.main s (State.spillRead s p1 p2).1 := by
  unfold State.spillRead
  split
  · refine Touches.mk1 ?_
    exact (Touches.rfl' _ s)
  · refine Touches.ite1 ?_ ?_
    · refine Touches.mk1 ?_
      exact (Touches.rfl' _ s)
    · refine Touches.ite1 ?_ ?_
      · refine Touches.ite1 ?_ ?_
        · refine Touches.mk1 ?_
          exact Touches.chain (State.verify_touches ..) (by decide) (Touches.rfl' _ s)
        · refine Touches.mk1 ?_
          exact (Touches.rfl' _ s)
      · refine Touches.foldl1 _ _ ?_ (fun y0 a0 hy0 => ?_)
        · refine Touches.mk1 ?_
          exact (Touches.rfl' _ s)
        · split
          rename_i v1 v2 v3 e4
          have hv2 : Touches Part.main s v2 := by
            refine Touches.ofFst e4 ?_
            refine Touches.chain (State.verify_touches ..) (by decide) ?_
            exact Touches.chain (State.mgdCount_touches ..) (by decide) hy0
          exact hv2

theorem State.lateStomp_touches (s : State) (p1 : ℕ) :
    Touches [.regs, .cnt, .pow, .led, .hif, .sch, .mgd, .yok, .out] s (State.lateStomp s p1) := by
  unfold State.lateStomp
  extract_lets -merge -underBinder +onlyGivenNames x0
  have hx0 : Touches [.regs, .cnt, .pow, .led, .hif, .sch, .mgd, .yok, .out] s x0 := by
    unfold x0
    refine Touches.chain (State.mgdCount_touches ..) (by decide) ?_
    exact Touches.chain (State.modFrame_touches ..) (by decide) (Touches.rfl' _ s)
  clear_value x0
  extract_lets -merge -underBinder +onlyGivenNames x1
  clear_value x1
  refine Touches.ite ?_ ?_
  · refine Touches.chain (State.note_touches ..) (by decide) ?_
    refine Touches.set_mgd (x := x0) ?_ (by decide) id
    exact hx0
  · exact hx0

theorem execSpillLineVerdict_touches (p0 : ℕ) (p1 : ℕ) (p2 : MemOutcome) (s : State) :
    OutTouches Part.main s (execSpillLineVerdict p0 p1 p2 s) := by
  unfold execSpillLineVerdict
  split
  · show Touches _ _ _
    exact (Touches.rfl' _ s)
  · split
    rename_i v0 v1 v2 e3
    have hv1 : Touches Part.main s v1 := by
      refine Touches.ofFst e3 ?_
      refine Touches.chain (State.verify_touches ..) (by decide) ?_
      exact Touches.chain (State.mgdCount_touches ..) (by decide) (Touches.rfl' _ s)
    refine OutTouches.ite ?_ ?_
    · show Touches _ _ _
      refine Touches.ite ?_ ?_
      · refine Touches.chain (State.mgdCount_touches ..) (by decide) ?_
        refine Touches.set_mgd (x := v1) ?_ (by decide) id
        exact hv1
      · exact hv1
    · split
      · show Touches _ _ _
        exact hv1
      · refine OutTouches.ite ?_ ?_
        · show Touches _ _ _
          exact hv1
        · refine OutTouches.ite ?_ ?_
          · show Touches _ _ _
            exact Touches.chain (State.modFrame_touches ..) (by decide) hv1
          · show Touches _ _ _
            exact Touches.chain (State.lateStomp_touches ..) (by decide) hv1

theorem execVerdictTimeout_touches (p0 : ℕ) (s : State) :
    OutTouches [.regs, .cnt, .pow, .led, .hif, .sch, .mgd, .yok, .out] s (execVerdictTimeout p0 s) := by
  unfold execVerdictTimeout
  split
  · show Touches _ _ _
    exact (Touches.rfl' _ s)
  · split
    · show Touches _ _ _
      exact (Touches.rfl' _ s)
    · refine OutTouches.ite ?_ ?_
      · show Touches _ _ _
        exact (Touches.rfl' _ s)
      · extract_lets -merge -underBinder +onlyGivenNames x0
        extract_lets -merge -underBinder +onlyGivenNames x1
        have hx1 : Touches [.regs, .cnt, .pow, .led, .hif, .sch, .mgd, .yok, .out] s x1 := by
          unfold x1
          refine Touches.set_mgd (x := s) ?_ (by decide) id
          exact (Touches.rfl' _ s)
        clear_value x1
        show Touches _ _ _
        refine Touches.chain (State.failInfo_touches ..) (by decide) ?_
        exact Touches.chain (State.lateStomp_touches ..) (by decide) hx1

theorem execTagBurstWindowEnd_touches (s : State) :
    OutTouches [.mgd] s (execTagBurstWindowEnd s) := by
  unfold execTagBurstWindowEnd
  show Touches _ _ _
  refine Touches.set_mgd (x := s) ?_ (by decide) id
  exact (Touches.rfl' _ s)

theorem State.retillEnd_touches (s : State) (p1 : ℕ) :
    Touches [.regs] s (State.retillEnd s p1) := by
  unfold State.retillEnd
  exact Touches.chain (State.result_touches ..) (by decide) (Touches.rfl' _ s)

theorem execRetillCmd_touches (p0 : Path) (p1 : Fin 64) (s : State) :
    OutTouches [.regs, .cnt, .armed, .pow, .led, .hif, .mgd, .kvt, .yok, .out, .free] s (execRetillCmd p0 p1 s) := by
  unfold execRetillCmd
  show Touches _ _ _
  refine State.hostWrite_touches (by decide) ?_ (fun z0 hz0 => ?_)
  · exact (Touches.rfl' _ s)
  · refine Touches.ite ?_ ?_
    · exact Touches.chain (State.retillEnd_touches ..) (by decide) hz0
    · refine Touches.ite ?_ ?_
      · exact Touches.chain (State.retillEnd_touches ..) (by decide) hz0
      · refine Touches.ite ?_ ?_
        · exact Touches.chain (State.retillEnd_touches ..) (by decide) hz0
        · refine Touches.ite ?_ ?_
          · exact Touches.chain (State.retillEnd_touches ..) (by decide) hz0
          · split
            rename_i v1 v2 v3 e4
            have hv3 : Touches [.regs, .cnt, .armed, .pow, .led, .hif, .mgd, .kvt, .yok, .out, .free] s v3 := by
              refine Touches.ofSnd e4 ?_
              exact Touches.chain (State.rbgTake_touches ..) (by decide) hz0
            refine Touches.set_mgd (x := v3) ?_ (by decide) id
            exact hv3

theorem execRetillDone_touches (s : State) :
    OutTouches Part.main s (execRetillDone s) := by
  unfold execRetillDone
  split
  · show Touches _ _ _
    exact (Touches.rfl' _ s)
  · extract_lets -merge -underBinder +onlyGivenNames x0
    extract_lets -merge -underBinder +onlyGivenNames x1
    have hx1 : Touches Part.main s x1 := by
      unfold x1
      exact Touches.chain (State.sweepTo_touches ..) (by decide) (Touches.rfl' _ s)
    extract_lets -merge -underBinder +onlyGivenNames x2
    extract_lets -merge -underBinder +onlyGivenNames x3
    have hx3 : Touches Part.main s x3 := by
      unfold x3
      refine Touches.set_mgd (x := x1) ?_ (by decide) id
      exact hx1
    extract_lets -merge -underBinder +onlyGivenNames x4
    have hx4 : Touches Part.main s x4 := by
      unfold x4
      refine Touches.ite ?_ ?_
      · exact Touches.chain (State.endLevel2_touches ..) (by decide) hx3
      · exact hx3
    clear_value x4
    extract_lets -merge -underBinder +onlyGivenNames x5
    have hx5 : Touches Part.main s x5 := by
      unfold x5
      exact Touches.chain (State.note_touches ..) (by decide) hx4
    clear_value x5
    show Touches _ _ _
    refine Touches.chain (State.recheck_touches ..) (by decide) ?_
    exact Touches.chain (State.retillEnd_touches ..) (by decide) hx5

theorem State.harrowVisit_touches (s : State) (p1 : Domain) (p2 : ℕ) (p3 : MemOutcome) :
    Touches Part.main s (State.harrowVisit s p1 p2 p3) := by
  unfold State.harrowVisit
  extract_lets -merge -underBinder +onlyGivenNames x0
  clear_value x0
  split
  rename_i v1 v2 v3 e4
  have hv2 : Touches Part.main s v2 := by
    refine Touches.ofFst e4 ?_
    exact Touches.chain (State.verify_touches ..) (by decide) (Touches.rfl' _ s)
  extract_lets -merge -underBinder +onlyGivenNames x5
  extract_lets -merge -underBinder +onlyGivenNames x6
  have hx6 : Touches Part.main s x6 := by
    unfold x6
    refine Touches.set_mgd (x := v2) ?_ (by decide) id
    exact hv2
  clear_value x6
  refine Touches.ite ?_ ?_
  · exact Touches.chain (State.writeLine_touches ..) (by decide) hx6
  · exact hx6

theorem execHarrowStep_touches (p0 : MemOutcome) (s : State) :
    OutTouches Part.main s (execHarrowStep p0 s) := by
  unfold execHarrowStep
  refine OutTouches.ite ?_ ?_
  · show Touches _ _ _
    exact (Touches.rfl' _ s)
  · extract_lets -merge -underBinder +onlyGivenNames x0
    clear_value x0
    extract_lets -merge -underBinder +onlyGivenNames x1
    have hx1 : Touches Part.main s x1 := by
      unfold x1
      refine Touches.chain (State.mgdCount_touches ..) (by decide) ?_
      exact Touches.chain (State.retillSweep_touches ..) (by decide) (Touches.rfl' _ s)
    clear_value x1
    extract_lets -merge -underBinder +onlyGivenNames x2
    have hx2 : Touches Part.main s x2 := by
      unfold x2
      split
      · exact Touches.chain (State.harrowVisit_touches ..) (by decide) hx1
      · exact hx1
    clear_value x2
    refine OutTouches.ite ?_ ?_
    · show Touches _ _ _
      refine Touches.chain (State.note_touches ..) (by decide) ?_
      refine Touches.set_mgd (x := x2) ?_ (by decide) id
      exact hx2
    · show Touches _ _ _
      refine Touches.set_mgd (x := x2) ?_ (by decide) id
      exact hx2

theorem State.startWindowInit_touches (s : State) (p1 : ℕ) :
    Touches [.mgd] s (State.startWindowInit s p1) := by
  unfold State.startWindowInit
  refine Touches.set_mgd (x := s) ?_ (by decide) id
  exact (Touches.rfl' _ s)

theorem State.allotWindowEffect_touches (s : State) (p1 : ℕ) (p2 : Bool) (p3 : Word) :
    Touches [.regs, .cnt, .pow, .led, .hif, .mgd, .yok, .out] s (State.allotWindowEffect s p1 p2 p3) := by
  unfold State.allotWindowEffect
  extract_lets -merge -underBinder +onlyGivenNames x0
  clear_value x0
  refine Touches.ite ?_ ?_
  · refine Touches.ite ?_ ?_
    · refine Touches.chain (State.startWindowInit_touches ..) (by decide) ?_
      exact Touches.chain (State.wr_touches ..) (by decide) (Touches.rfl' _ s)
    · exact Touches.chain (State.note_touches ..) (by decide) (Touches.rfl' _ s)
  · refine Touches.ite ?_ ?_
    · refine Touches.chain (State.startWindowInit_touches ..) (by decide) ?_
      exact Touches.chain (State.wr_touches ..) (by decide) (Touches.rfl' _ s)
    · exact Touches.chain (State.note_touches ..) (by decide) (Touches.rfl' _ s)

theorem execAllotWindowWrite_touches (p0 : Path) (p1 : Fin 64) (p2 : Bool) (p3 : Word) (s : State) :
    OutTouches [.regs, .cnt, .armed, .pow, .led, .hif, .mgd, .yok, .out] s (execAllotWindowWrite p0 p1 p2 p3 s) := by
  unfold execAllotWindowWrite
  extract_lets -merge -underBinder +onlyGivenNames x0 x1
  clear_value x0 x1
  show Touches _ _ _
  refine State.hostWrite_touches (by decide) ?_ (fun z2 hz2 => ?_)
  · exact (Touches.rfl' _ s)
  · exact Touches.chain (State.allotWindowEffect_touches ..) (by decide) hz2

theorem execWindowInitDone_touches (p0 : Fin 64) (s : State) :
    OutTouches [.regs, .cnt, .pow, .led, .hif, .mgd, .yok, .out] s (execWindowInitDone p0 s) := by
  unfold execWindowInitDone
  extract_lets -merge -underBinder +onlyGivenNames x0
  clear_value x0
  refine OutTouches.ite ?_ ?_
  · show Touches _ _ _
    exact (Touches.rfl' _ s)
  · extract_lets -merge -underBinder +onlyGivenNames x1
    extract_lets -merge -underBinder +onlyGivenNames x2
    have hx2 : Touches [.regs, .cnt, .pow, .led, .hif, .mgd, .yok, .out] s x2 := by
      unfold x2
      refine Touches.set_mgd (x := s) ?_ (by decide) id
      exact (Touches.rfl' _ s)
    clear_value x2
    extract_lets -merge -underBinder +onlyGivenNames x3
    have hx3 : Touches [.regs, .cnt, .pow, .led, .hif, .mgd, .yok, .out] s x3 := by
      unfold x3
      split
      · extract_lets -merge -underBinder +onlyGivenNames x4
        clear_value x4
        extract_lets -merge -underBinder +onlyGivenNames x5
        clear_value x5
        refine Touches.set_mgd (x := x2) ?_ (by decide) (SMap.wf_dropRange _ _ _ _)
        exact hx2
      · exact hx2
    clear_value x3
    show Touches _ _ _
    exact Touches.chain (State.noteFor_touches ..) (by decide) hx3

theorem State.mgdInit_touches (s : State) :
    Touches [.mgd, .kvt, .free] s (State.mgdInit s) := by
  unfold State.mgdInit
  split
  rename_i v0 v1 v2 e3
  have hv2 : Touches [.mgd, .kvt, .free] s v2 := by
    refine Touches.ofSnd e3 ?_
    exact Touches.chain (State.rbgTake_touches ..) (by decide) (Touches.rfl' _ s)
  extract_lets -merge -underBinder +onlyGivenNames x4
  clear_value x4
  refine Touches.set_mgd (x := v2) ?_ (by decide) (fun _ => rfl)
  exact hv2

theorem State.mgdErase_touches (s : State) :
    Touches [.mgd] s (State.mgdErase s) := by
  unfold State.mgdErase
  refine Touches.set_mgd (x := s) ?_ (by decide) id
  exact (Touches.rfl' _ s)

end Sys2Proof.Machine
end

