-- ==== Sys2Proof/Laws/TouchCtxOps.lean ====
section
/-! SUPPORT. What each operation of Machine/CtxOps.lean may touch. -/

namespace Sys2Proof.Machine

open Sys2Proof

theorem State.writeBack_touches (s : State) (p1 : ℕ) :
    Touches Part.main s (State.writeBack s p1) := by
  unfold State.writeBack
  split
  · refine Touches.ite ?_ ?_
    · exact (Touches.rfl' _ s)
    · extract_lets -merge -underBinder +onlyGivenNames x0
      clear_value x0
      refine Touches.foldl _ _ ?_ (fun y1 a1 hy1 => ?_)
      · exact (Touches.rfl' _ s)
      · exact Touches.chain (State.writeLine_touches ..) (by decide) hy1
  · exact (Touches.rfl' _ s)

theorem State.cachePut_touches (s : State) (p1 : ℕ) :
    Touches Part.main s (State.cachePut s p1) := by
  unfold State.cachePut
  extract_lets -merge -underBinder +onlyGivenNames x0 x1
  clear_value x0 x1
  refine Touches.ite ?_ ?_
  · refine Touches.set_asc (x := s) ?_ (by decide)
    exact (Touches.rfl' _ s)
  · extract_lets -merge -underBinder +onlyGivenNames x2
    have hx2 : Touches Part.main s x2 := by
      unfold x2
      refine Touches.ite ?_ ?_
      · split
        · exact Touches.chain (State.writeBack_touches ..) (by decide) (Touches.rfl' _ s)
        · exact (Touches.rfl' _ s)
      · exact (Touches.rfl' _ s)
    clear_value x2
    refine Touches.set_asc (x := x2) ?_ (by decide)
    exact hx2

theorem State.touchCtx_touches (s : State) (p1 : ℕ) :
    Touches Part.main s (State.touchCtx s p1) := by
  unfold State.touchCtx
  refine Touches.ite ?_ ?_
  · exact (Touches.rfl' _ s)
  · refine Touches.ite ?_ ?_
    · exact Touches.chain (State.cachePut_touches ..) (by decide) (Touches.rfl' _ s)
    · refine Touches.chain (State.stageSlot_touches ..) (by decide) ?_
      refine Touches.chain (State.stageSlot_touches ..) (by decide) ?_
      refine Touches.chain (State.cachePut_touches ..) (by decide) ?_
      exact Touches.chain (State.inc_touches ..) (by decide) (Touches.rfl' _ s)

theorem State.commitCtx_touches (s : State) (p1 : ℕ) :
    Touches Part.main s (State.commitCtx s p1) := by
  unfold State.commitCtx
  refine Touches.chain (State.writeBack_touches ..) (by decide) ?_
  exact Touches.chain (State.cachePut_touches ..) (by decide) (Touches.rfl' _ s)

theorem State.sealRec_touches (s : State) (p1 : ℕ) (p2 : ℕ) (p3 : Word) (p4 : List Byte) :
    Touches [.kvt, .free] s (State.sealRec s p1 p2 p3 p4).2 := by
  unfold State.sealRec
  split
  rename_i v0 v1 v2 e3
  have hv2 : Touches [.kvt, .free] s v2 := by
    refine Touches.ofSnd e3 ?_
    exact Touches.chain (State.rbgTake_touches ..) (by decide) (Touches.rfl' _ s)
  extract_lets -merge -underBinder +onlyGivenNames x4 x5 x6
  clear_value x4 x5 x6
  split
  exact hv2

theorem State.storeSealed_touches (s : State) (p1 : Payload) (p2 : Waiter) :
    Touches Part.main s (State.storeSealed s p1 p2).1 := by
  unfold State.storeSealed
  split
  rename_i v0 v1 v2 e3
  have hv1 : Touches Part.main s v1 := by
    refine Touches.ofFst e3 ?_
    exact Touches.chain (State.requestStore_touches ..) (by decide) (Touches.rfl' _ s)
  refine Touches.mk1 ?_
  refine Touches.ite ?_ ?_
  · exact Touches.chain (State.inc_touches ..) (by decide) hv1
  · exact hv1

theorem State.freeRecords_touches (s : State) :
    Touches Part.main s (State.freeRecords s) := by
  unfold State.freeRecords
  refine Touches.foldl _ _ ?_ (fun y0 a0 hy0 => ?_)
  · exact (Touches.rfl' _ s)
  · split
    · exact hy0
    · extract_lets -merge -underBinder +onlyGivenNames x1
      clear_value x1
      extract_lets -merge -underBinder +onlyGivenNames x2
      clear_value x2
      refine Touches.ite ?_ ?_
      · exact hy0
      · exact Touches.chain (State.storeSealed_touches ..) (by decide) hy0

theorem State.eraseSlot_touches (s : State) (p1 : ℕ) (p2 : Waiter) :
    Touches Part.main s (State.eraseSlot s p1 p2).1 := by
  unfold State.eraseSlot
  extract_lets -merge -underBinder +onlyGivenNames x0
  have hx0 : Touches Part.main s x0 := by
    unfold x0
    refine Touches.chain (State.recheck_touches ..) (by decide) ?_
    exact Touches.chain (State.enterFallow_touches ..) (by decide) (Touches.rfl' _ s)
  clear_value x0
  refine Touches.ite1 ?_ ?_
  · exact Touches.chain (State.storeSealed_touches ..) (by decide) hx0
  · exact hx0

theorem State.startRun_touches (s : State) (p1 : ℕ) (p2 : ℕ) (p3 : ℕ) (p4 : ℕ) (p5 : ℕ) (p6 : ℕ) :
    Touches [.kvt] s (State.startRun s p1 p2 p3 p4 p5 p6) := by
  unfold State.startRun
  refine Touches.set_kvt (x := s) ?_ (by decide)
  exact (Touches.rfl' _ s)

theorem State.endRun_touches (s : State) (p1 : ℕ) (p2 : ℕ) :
    Touches [.kvt] s (State.endRun s p1 p2) := by
  unfold State.endRun
  refine Touches.set_kvt (x := s) ?_ (by decide)
  exact (Touches.rfl' _ s)

theorem State.orphanStores_touches (s : State) (p1 : Waiter) :
    Touches [.st] s (State.orphanStores s p1) := by
  unfold State.orphanStores
  extract_lets -merge -underBinder +onlyGivenNames x0
  clear_value x0
  refine Touches.set_st (x := s) ?_ (by decide)
  exact (Touches.rfl' _ s)

end Sys2Proof.Machine
end

