-- ==== Sys2Proof/Laws/TouchScheduler.lean ====
section
/-! SUPPORT. What each operation of Machine/Scheduler.lean may touch. -/

namespace Sys2Proof.Machine

open Sys2Proof

set_option linter.unusedTactic false
set_option linter.unreachableTactic false

theorem State.sendRecord_touches (s : State) (p1 : Frame) :
    Touches [.yok, .out] s (State.sendRecord s p1) := by
  unfold State.sendRecord
  refine Touches.ite ?_ ?_
  · exact Touches.chain (State.sendDithal_touches ..) (by decide) (Touches.rfl' _ s)
  · exact (Touches.rfl' _ s)

theorem State.takeRecNo_touches (s : State) (p1 : Frame) :
    Touches [.yok] s (State.takeRecNo s p1).2 := by
  unfold State.takeRecNo
  extract_lets -merge -underBinder +onlyGivenNames x0
  clear_value x0
  refine Touches.ite2 ?_ ?_
  · refine Touches.mk2 ?_
    refine Touches.set_yok (x := s) ?_ (by decide)
    exact (Touches.rfl' _ s)
  · refine Touches.mk2 ?_
    exact (Touches.rfl' _ s)

theorem State.enqueue_touches (s : State) (p1 : Frame) (p2 : ℕ) (p3 : ℕ × ℕ) :
    Touches [.sch] s (State.enqueue s p1 p2 p3) := by
  unfold State.enqueue
  exact Touches.chain (State.setQueue_touches ..) (by decide) (Touches.rfl' _ s)

theorem State.notAdmitted_touches (s : State) (p1 : Frame) (p2 : ℕ) :
    Touches [.regs, .cnt, .pow, .led, .hif, .cph, .kvt, .yok, .out] s (State.notAdmitted s p1 p2) := by
  unfold State.notAdmitted
  extract_lets -merge -underBinder +onlyGivenNames x0
  have hx0 : Touches [.regs, .cnt, .pow, .led, .hif, .cph, .kvt, .yok, .out] s x0 := by
    unfold x0
    exact Touches.chain (State.observe_touches ..) (by decide) (Touches.rfl' _ s)
  clear_value x0
  extract_lets -merge -underBinder +onlyGivenNames x1
  have hx1 : Touches [.regs, .cnt, .pow, .led, .hif, .cph, .kvt, .yok, .out] s x1 := by
    unfold x1
    exact Touches.chain (State.injectDone_touches ..) (by decide) hx0
  clear_value x1
  split
  · refine Touches.ite ?_ ?_
    · exact hx1
    · exact Touches.chain (State.endItem_touches ..) (by decide) hx1
  · exact hx1

theorem State.admitCopies_touches (s : State) (p1 : Frame) (p2 : List (ℕ × ℕ)) (p3 : ℕ) :
    Touches Part.main s (State.admitCopies s p1 p2 p3) := by
  unfold State.admitCopies
  split
  rename_i v0 v1 v2 e3
  have hv2 : Touches Part.main s v2 := by
    refine Touches.ofSnd e3 ?_
    refine Touches.ite2 ?_ ?_
    · refine Touches.mk2 ?_
      refine Touches.set_sch (x := s) ?_ (by decide)
      exact (Touches.rfl' _ s)
    · refine Touches.mk2 ?_
      exact (Touches.rfl' _ s)
  split
  rename_i v4 v5 v6 e7
  have hv6 : Touches Part.main s v6 := by
    refine Touches.ofSnd e7 ?_
    exact Touches.chain (State.takeRecNo_touches ..) (by decide) hv2
  extract_lets -merge -underBinder +onlyGivenNames x8 x9
  clear_value x8 x9
  extract_lets -merge -underBinder +onlyGivenNames x10
  have hx10 : Touches Part.main s x10 := by
    unfold x10
    refine Touches.foldl _ _ ?_ (fun y11 a11 hy11 => ?_)
    · exact hv6
    · exact Touches.chain (State.touchCtx_touches ..) (by decide) hy11
  clear_value x10
  extract_lets -merge -underBinder +onlyGivenNames x12
  have hx12 : Touches Part.main s x12 := by
    unfold x12
    refine Touches.chain (State.addCells_touches ..) (by decide) ?_
    exact Touches.chain (State.setFrame_touches ..) (by decide) hx10
  clear_value x12
  extract_lets -merge -underBinder +onlyGivenNames x13
  have hx13 : Touches Part.main s x13 := by
    unfold x13
    refine Touches.foldl _ _ ?_ (fun y14 a14 hy14 => ?_)
    · exact hx12
    · exact Touches.chain (State.enqueue_touches ..) (by decide) hy14
  clear_value x13
  extract_lets -merge -underBinder +onlyGivenNames x15
  have hx15 : Touches Part.main s x15 := by
    unfold x15
    refine Touches.chain (State.schCount_touches ..) (by decide) ?_
    exact Touches.chain (State.schCount_touches ..) (by decide) hx13
  clear_value x15
  extract_lets -merge -underBinder +onlyGivenNames x16
  have hx16 : Touches Part.main s x16 := by
    unfold x16
    refine Touches.ite ?_ ?_
    · exact Touches.chain (State.schCount_touches ..) (by decide) hx15
    · exact hx15
  clear_value x16
  extract_lets -merge -underBinder +onlyGivenNames x17
  have hx17 : Touches Part.main s x17 := by
    unfold x17
    exact Touches.chain (State.sendRecord_touches ..) (by decide) hx16
  clear_value x17
  refine Touches.chain (State.spillCheck_touches ..) (by decide) ?_
  exact Touches.chain (State.observe_touches ..) (by decide) hx17

theorem State.admitFrame_touches (s : State) (p1 : Frame) (p2 : Bool) :
    Touches Part.main s (State.admitFrame s p1 p2) := by
  unfold State.admitFrame
  extract_lets -merge -underBinder +onlyGivenNames x0
  clear_value x0
  extract_lets -merge -underBinder +onlyGivenNames x1
  extract_lets -merge -underBinder +onlyGivenNames x2
  refine Touches.ite ?_ ?_
  · exact Touches.chain (State.admitCopies_touches ..) (by decide) (Touches.rfl' _ s)
  · extract_lets -merge -underBinder +onlyGivenNames x3
    extract_lets -merge -underBinder +onlyGivenNames x4
    have hx4 : Touches Part.main s x4 := by
      unfold x4
      refine Touches.foldl _ _ ?_ (fun y5 a5 hy5 => ?_)
      · exact (Touches.rfl' _ s)
      · extract_lets -merge -underBinder +onlyGivenNames x6
        clear_value x6
        refine Touches.set_sch (x := y5) ?_ (by decide)
        exact hy5
    clear_value x4
    extract_lets -merge -underBinder +onlyGivenNames x7
    have hx7 : Touches Part.main s x7 := by
      unfold x7
      refine Touches.chain (State.schCount_touches ..) (by decide) ?_
      exact Touches.chain (State.schCount_touches ..) (by decide) hx4
    clear_value x7
    refine Touches.ite ?_ ?_
    · exact Touches.chain (State.notAdmitted_touches ..) (by decide) hx7
    · refine Touches.ite ?_ ?_
      · refine Touches.chain (State.notAdmitted_touches ..) (by decide) ?_
        refine Touches.chain (State.noteFor_touches ..) (by decide) ?_
        exact Touches.chain (State.schCount_touches ..) (by decide) hx7
      · exact Touches.chain (State.admitCopies_touches ..) (by decide) hx7

theorem execFrameAdmit_touches (s : State) :
    OutTouches Part.main s (execFrameAdmit s) := by
  unfold execFrameAdmit
  split
  · show Touches _ _ _
    exact (Touches.rfl' _ s)
  · extract_lets -merge -underBinder +onlyGivenNames x0
    clear_value x0
    extract_lets -merge -underBinder +onlyGivenNames x1
    have hx1 : Touches Part.main s x1 := by
      unfold x1
      refine Touches.set_sch (x := s) ?_ (by decide)
      exact (Touches.rfl' _ s)
    clear_value x1
    refine OutTouches.ite ?_ ?_
    · extract_lets -merge -underBinder +onlyGivenNames x2
      clear_value x2
      show Touches _ _ _
      refine Touches.set_yok (x := x1) ?_ (by decide)
      exact hx1
    · refine OutTouches.ite ?_ ?_
      · show Touches _ _ _
        exact Touches.chain (State.notAdmitted_touches ..) (by decide) hx1
      · show Touches _ _ _
        exact Touches.chain (State.admitFrame_touches ..) (by decide) hx1

theorem State.conveyVerdict_touches (s : State) (p1 : Frame) (p2 : ℕ) :
    Touches [.yok, .out] s (State.conveyVerdict s p1 p2) := by
  unfold State.conveyVerdict
  exact Touches.chain (State.convey_touches ..) (by decide) (Touches.rfl' _ s)

theorem State.placeCells_touches (s : State) (p1 : Frame) (p2 : ℕ) (p3 : ℕ) :
    Touches Part.main s (State.placeCells s p1 p2 p3) := by
  unfold State.placeCells
  extract_lets -merge -underBinder +onlyGivenNames x0
  clear_value x0
  split
  rename_i v1 v2 v3 e4
  have hv2 : Touches Part.main s v2 := by
    refine Touches.ofFst e4 ?_
    refine Touches.foldl1 _ _ ?_ (fun y5 a5 hy5 => ?_)
    · refine Touches.mk1 ?_
      exact (Touches.rfl' _ s)
    · split
      rename_i v6 v7 v8 e9
      have hv7 : Touches Part.main s v7 := by
        refine Touches.ofFst e9 ?_
        exact Touches.chain (State.spillWrite_touches ..) (by decide) hy5
      exact hv7
  extract_lets -merge -underBinder +onlyGivenNames x10
  have hx10 : Touches Part.main s x10 := by
    unfold x10
    exact Touches.chain (State.setFrame_touches ..) (by decide) hv2
  clear_value x10
  extract_lets -merge -underBinder +onlyGivenNames x11
  clear_value x11
  extract_lets -merge -underBinder +onlyGivenNames x12
  have hx12 : Touches Part.main s x12 := by
    unfold x12
    refine Touches.set_sch (x := x10) ?_ (by decide)
    exact hx10
  clear_value x12
  refine Touches.chain (State.schCount_touches ..) (by decide) ?_
  exact Touches.chain (State.addCells_touches ..) (by decide) hx12

theorem execFrameLastCell_touches (p0 : ℕ) (p1 : ℕ) (s : State) :
    OutTouches Part.main s (execFrameLastCell p0 p1 s) := by
  unfold execFrameLastCell
  split
  · show Touches _ _ _
    exact (Touches.rfl' _ s)
  · refine OutTouches.ite ?_ ?_
    · show Touches _ _ _
      exact (Touches.rfl' _ s)
    · extract_lets -merge -underBinder +onlyGivenNames x0
      have hx0 : Touches Part.main s x0 := by
        unfold x0
        refine Touches.ite ?_ ?_
        · refine Touches.foldl _ _ ?_ (fun y1 a1 hy1 => ?_)
          · exact (Touches.rfl' _ s)
          · exact Touches.chain (State.charge_touches ..) (by decide) hy1
        · exact (Touches.rfl' _ s)
      clear_value x0
      refine OutTouches.ite ?_ ?_
      · show Touches _ _ _
        exact Touches.chain (State.setFrame_touches ..) (by decide) hx0
      · extract_lets -merge -underBinder +onlyGivenNames x2
        clear_value x2
        extract_lets -merge -underBinder +onlyGivenNames x3
        have hx3 : Touches Part.main s x3 := by
          unfold x3
          exact Touches.chain (State.addCells_touches ..) (by decide) hx0
        clear_value x3
        extract_lets -merge -underBinder +onlyGivenNames x4
        clear_value x4
        extract_lets -merge -underBinder +onlyGivenNames x5
        have hx5 : Touches Part.main s x5 := by
          unfold x5
          exact Touches.chain (State.placeCells_touches ..) (by decide) hx3
        clear_value x5
        extract_lets -merge -underBinder +onlyGivenNames x6
        have hx6 : Touches Part.main s x6 := by
          unfold x6
          refine Touches.ite ?_ ?_
          · exact Touches.chain (State.conveyVerdict_touches ..) (by decide) hx5
          · exact hx5
        clear_value x6
        extract_lets -merge -underBinder +onlyGivenNames x7
        have hx7 : Touches Part.main s x7 := by
          unfold x7
          refine Touches.ite ?_ ?_
          · exact Touches.chain (State.observe_touches ..) (by decide) hx6
          · exact hx6
        clear_value x7
        show Touches _ _ _
        exact Touches.chain (State.spillCheck_touches ..) (by decide) hx7

theorem State.settleChoice_touches (s : State) (p1 : ℕ) (p2 : Choice) :
    Touches [.sch] s (State.settleChoice s p1 p2) := by
  unfold State.settleChoice
  extract_lets -merge -underBinder +onlyGivenNames x0
  clear_value x0
  extract_lets -merge -underBinder +onlyGivenNames x1
  extract_lets -merge -underBinder +onlyGivenNames x2
  extract_lets -merge -underBinder +onlyGivenNames x3
  extract_lets -merge -underBinder +onlyGivenNames x4
  refine Touches.set_sch (x := s) ?_ (by decide)
  exact (Touches.rfl' _ s)

theorem State.dropOversize_touches (s : State) (p1 : ℕ) (p2 : ℕ) :
    Touches [.regs, .cnt, .pow, .led, .hif, .sch, .yok, .out] s (State.dropOversize s p1 p2) := by
  unfold State.dropOversize
  extract_lets -merge -underBinder +onlyGivenNames x0
  have hx0 : Touches [.regs, .cnt, .pow, .led, .hif, .sch, .yok, .out] s x0 := by
    unfold x0
    refine Touches.chain (State.dropHead_touches ..) (by decide) ?_
    exact Touches.chain (State.schCount_touches ..) (by decide) (Touches.rfl' _ s)
  clear_value x0
  refine Touches.ite ?_ ?_
  · exact hx0
  · refine Touches.chain (State.noteFor_touches ..) (by decide) ?_
    exact Touches.chain (State.setGate_touches ..) (by decide) hx0

theorem State.pnDrop_touches (s : State) (p1 : ℕ) :
    Touches [.cnt, .asc] s (State.pnDrop s p1) := by
  unfold State.pnDrop
  refine Touches.chain (State.inc_touches ..) (by decide) ?_
  exact Touches.chain (State.modCtx_touches ..) (by decide) (Touches.rfl' _ s)

theorem State.exhaust_touches (s : State) (p1 : ℕ) :
    Touches [.regs, .cnt, .pow, .led, .hif, .asc, .yok, .out] s (State.exhaust s p1) := by
  unfold State.exhaust
  split
  · exact (Touches.rfl' _ s)
  · extract_lets -merge -underBinder +onlyGivenNames x0
    have hx0 : Touches [.regs, .cnt, .pow, .led, .hif, .asc, .yok, .out] s x0 := by
      unfold x0
      exact Touches.chain (State.pnDrop_touches ..) (by decide) (Touches.rfl' _ s)
    clear_value x0
    refine Touches.ite ?_ ?_
    · exact hx0
    · refine Touches.chain (State.noteFor_touches ..) (by decide) ?_
      exact Touches.chain (State.modCtx_touches ..) (by decide) hx0

theorem State.stall_touches (s : State) (p1 : ℕ) :
    Touches Part.main s (State.stall s p1) := by
  unfold State.stall
  split
  · exact (Touches.rfl' _ s)
  · extract_lets -merge -underBinder +onlyGivenNames x0
    have hx0 : Touches Part.main s x0 := by
      unfold x0
      refine Touches.chain (State.askMark_touches ..) (by decide) ?_
      exact Touches.chain (State.pnDrop_touches ..) (by decide) (Touches.rfl' _ s)
    clear_value x0
    refine Touches.ite ?_ ?_
    · exact hx0
    · refine Touches.chain (State.noteFor_touches ..) (by decide) ?_
      exact Touches.chain (State.modCtx_touches ..) (by decide) hx0

theorem State.dropWhy_touches {s : State} {f : Frame} {a : Nat} {act : State → State}
    (h : s.dropWhy f a = some act) (x : State) : Touches Part.all x (act x) := by
  unfold State.dropWhy at h
  repeat' split at h
  all_goals first
    | (cases h; done)
    | (cases h; beta_reduce; exact Touches.rfl' _ x)
    | (cases h; beta_reduce; exact Touches.chain (State.inc_touches ..) (by decide) (Touches.rfl' _ x))
    | (cases h; beta_reduce; exact Touches.chain (State.pnDrop_touches ..) (by decide) (Touches.rfl' _ x))
    | (cases h; beta_reduce; exact Touches.chain (State.exhaust_touches ..) (by decide) (Touches.rfl' _ x))
    | (cases h; beta_reduce; exact Touches.chain (State.stall_touches ..) (by decide) (Touches.rfl' _ x))

theorem State.commitAtPick_touches (s : State) (p1 : Frame) (p2 : ℕ) :
    Touches [.regs, .cnt, .pow, .led, .hif, .asc, .yok, .out] s (State.commitAtPick s p1 p2) := by
  unfold State.commitAtPick
  refine Touches.ite ?_ ?_
  · exact (Touches.rfl' _ s)
  · split
    · split
      · exact Touches.chain (State.commitRotate_touches ..) (by decide) (Touches.rfl' _ s)
      · exact (Touches.rfl' _ s)
    · exact (Touches.rfl' _ s)

theorem State.chooseFrame_touches (s : State) (p1 : Nat) (p2 : Nat) :
    Touches Part.all s (State.chooseFrame s p1 p2).1 := by
  unfold State.chooseFrame
  split
  · refine Touches.mk1 ?_
    exact (Touches.rfl' _ s)
  · split
    · refine Touches.trans ?_ (State.chooseFrame_touches ..)
      exact Touches.chain (State.dropOversize_touches ..) (by decide) (Touches.rfl' _ s)
    · split
      · refine Touches.mk1 ?_
        exact (Touches.rfl' _ s)
      · split
        · refine Touches.mk1 ?_
          exact (Touches.rfl' _ s)
        · extract_lets -merge -underBinder +onlyGivenNames x9
          have hx9 : Touches Part.all s x9 := by
            unfold x9
            exact Touches.chain (State.commitAtPick_touches ..) (by decide) (Touches.rfl' _ s)
          try clear_value x9
          split
          · refine Touches.trans ?_ (State.chooseFrame_touches ..)
            refine Touches.chain (State.dropWhy_touches (by assumption) _) (by decide) ?_
            exact Touches.chain (State.dropHead_touches ..) (by decide) hx9
          · refine Touches.mk1 ?_
            exact hx9

theorem State.countBare_touches (s : State) (p1 : Frame) :
    Touches [.cnt] s (State.countBare s p1) := by
  unfold State.countBare
  split
  · refine Touches.ite ?_ ?_
    · exact Touches.chain (State.inc_touches ..) (by decide) (Touches.rfl' _ s)
    · refine Touches.ite ?_ ?_
      · exact Touches.chain (State.inc_touches ..) (by decide) (Touches.rfl' _ s)
      · exact (Touches.rfl' _ s)
  · refine Touches.ite ?_ ?_
    · exact Touches.chain (State.inc_touches ..) (by decide) (Touches.rfl' _ s)
    · exact (Touches.rfl' _ s)

theorem State.beginSend_touches (s : State) (p1 : ℕ) (p2 : Sending) :
    Touches [.sch] s (State.beginSend s p1 p2) := by
  unfold State.beginSend
  refine Touches.set_sch (x := s) ?_ (by decide)
  exact (Touches.rfl' _ s)

theorem State.fetchSpilled_touches (s : State) (p1 : Frame) (p2 : MemOutcome) :
    Touches Part.main s (State.fetchSpilled s p1 p2).1 := by
  unfold State.fetchSpilled
  split
  · refine Touches.mk1 ?_
    exact (Touches.rfl' _ s)
  · split
    rename_i v0 v1 v2 e3
    have hv1 : Touches Part.main s v1 := by
      refine Touches.ofFst e3 ?_
      refine Touches.chain (State.spillRead_touches ..) (by decide) ?_
      exact Touches.chain (State.schCount_touches ..) (by decide) (Touches.rfl' _ s)
    extract_lets -merge -underBinder +onlyGivenNames x4
    clear_value x4
    refine Touches.mk1 ?_
    refine Touches.ite ?_ ?_
    · exact Touches.chain (State.modFrame_touches ..) (by decide) hv1
    · exact hv1

theorem State.fetchRest_touches (s : State) (p1 : Frame) (p2 : MemOutcome) :
    Touches Part.main s (State.fetchRest s p1 p2).1 := by
  unfold State.fetchRest
  refine Touches.foldl1 _ _ ?_ (fun y0 a0 hy0 => ?_)
  · refine Touches.mk1 ?_
    exact (Touches.rfl' _ s)
  · split
    rename_i v1 v2 v3 e4
    have hv2 : Touches Part.main s v2 := by
      refine Touches.ofFst e4 ?_
      exact Touches.chain (State.spillRead_touches ..) (by decide) hy0
    exact hv2

theorem State.dispatch_touches (s : State) (p1 : ℕ) (p2 : QEntry) (p3 : Frame) (p4 : Choice) (p5 : Bool) :
    Touches Part.main s (State.dispatch s p1 p2 p3 p4 p5) := by
  unfold State.dispatch
  extract_lets -merge -underBinder +onlyGivenNames x0
  clear_value x0
  split
  · exact Touches.chain (State.dropRef_touches ..) (by decide) (Touches.rfl' _ s)
  · extract_lets -merge -underBinder +onlyGivenNames x1
    clear_value x1
    split
    rename_i v2 v3 v4 e5
    have hv4 : Touches Part.main s v4 := by
      refine Touches.ofSnd e5 ?_
      exact Touches.chain (State.takePn_touches ..) (by decide) (Touches.rfl' _ s)
    extract_lets -merge -underBinder +onlyGivenNames x6
    have hx6 : ∀ z7, Touches Part.main s z7 → Touches Part.main s (x6 z7) := by
      intro z7 hz7
      unfold x6
      beta_reduce
      exact Touches.chain (State.dropRef_touches ..) (by decide) hz7
    clear_value x6
    refine Touches.ite ?_ ?_
    · refine hx6 _ ?_
      exact Touches.chain (State.slotCheckFail_touches ..) (by decide) hv4
    · split
      · refine hx6 _ ?_
        refine Touches.chain (State.addUsage_touches ..) (by decide) ?_
        refine Touches.chain (State.excuse_touches ..) (by decide) ?_
        exact Touches.chain (State.inc_touches ..) (by decide) hv4
      · extract_lets -merge -underBinder +onlyGivenNames x8
        clear_value x8
        split
        rename_i v9 v10 v11 e12
        have hv11 : Touches Part.main s v11 := by
          refine Touches.ofSnd e12 ?_
          exact Touches.chain (State.startItem_touches ..) (by decide) hv4
        extract_lets -merge -underBinder +onlyGivenNames x13
        have hx13 : Touches Part.main s x13 := by
          unfold x13
          exact Touches.chain (State.incBy_touches ..) (by decide) hv11
        clear_value x13
        extract_lets -merge -underBinder +onlyGivenNames x14
        have hx14 : Touches Part.main s x14 := by
          unfold x14
          refine Touches.chain (State.inc_touches ..) (by decide) ?_
          exact Touches.chain (State.modCtx_touches ..) (by decide) hx13
        clear_value x14
        exact Touches.chain (State.beginSend_touches ..) (by decide) hx14

theorem execSchPick_touches (p0 : Fin 544) (p1 : MemOutcome) (p2 : Bool) (s : State) :
    OutTouches Part.all s (execSchPick p0 p1 p2 s) := by
  unfold execSchPick
  extract_lets -merge -underBinder +onlyGivenNames x0
  clear_value x0
  refine OutTouches.ite ?_ ?_
  · show Touches _ _ _
    exact (Touches.rfl' _ s)
  · extract_lets -merge -underBinder +onlyGivenNames x1
    clear_value x1
    split
    · rename_i v2 v3 e4
      have hv3 : Touches Part.all s v3 := by
        refine Touches.ofFst e4 ?_
        exact Touches.chain (State.chooseFrame_touches ..) (by decide) (Touches.rfl' _ s)
      show Touches _ _ _
      exact hv3
    · rename_i v5 v6 v7 e8
      have hv6 : Touches Part.all s v6 := by
        refine Touches.ofFst e8 ?_
        exact Touches.chain (State.chooseFrame_touches ..) (by decide) (Touches.rfl' _ s)
      split
      · show Touches _ _ _
        exact hv6
      · extract_lets -merge -underBinder +onlyGivenNames x9
        clear_value x9
        refine OutTouches.ite ?_ ?_
        · show Touches _ _ _
          exact hv6
        · extract_lets -merge -underBinder +onlyGivenNames x10
          have hx10 : Touches Part.all s x10 := by
            unfold x10
            exact Touches.chain (State.observe_touches ..) (by decide) hv6
          clear_value x10
          split
          rename_i v11 v12 v13 e14
          have hv12 : Touches Part.all s v12 := by
            refine Touches.ofFst e14 ?_
            refine Touches.chain (State.fetchSpilled_touches ..) (by decide) ?_
            refine Touches.chain (State.schCount_touches ..) (by decide) ?_
            refine Touches.chain (State.popQueue_touches ..) (by decide) ?_
            exact Touches.chain (State.settleChoice_touches ..) (by decide) hx10
          refine OutTouches.ite ?_ ?_
          · extract_lets -merge -underBinder +onlyGivenNames x15
            have hx15 : Touches Part.all s x15 := by
              unfold x15
              refine Touches.ite ?_ ?_
              · exact hv12
              · exact Touches.chain (State.takePn_touches ..) (by decide) hv12
            clear_value x15
            show Touches _ _ _
            refine Touches.chain (State.dropRef_touches ..) (by decide) ?_
            refine Touches.chain (State.injectDone_touches ..) (by decide) ?_
            refine Touches.chain (State.excuse_touches ..) (by decide) ?_
            exact Touches.chain (State.tally_touches ..) (by decide) hx15
          · refine OutTouches.ite ?_ ?_
            · extract_lets -merge -underBinder +onlyGivenNames x16
              clear_value x16
              show Touches _ _ _
              refine Touches.chain (State.beginSend_touches ..) (by decide) ?_
              exact Touches.chain (State.countBare_touches ..) (by decide) hv12
            · show Touches _ _ _
              exact Touches.chain (State.dispatch_touches ..) (by decide) hv12

theorem State.pushItem_touches (s : State) (p1 : ℕ) (p2 : Bool) (p3 : List Byte) :
    Touches [.asc] s (State.pushItem s p1 p2 p3) := by
  unfold State.pushItem
  extract_lets -merge -underBinder +onlyGivenNames x0
  extract_lets -merge -underBinder +onlyGivenNames x1
  refine Touches.set_asc (x := s) ?_ (by decide)
  exact (Touches.rfl' _ s)

theorem State.leaveHole_touches (s : State) (p1 : ℕ) (p2 : List Byte) :
    Touches [.asc, .yok] s (State.leaveHole s p1 p2) := by
  unfold State.leaveHole
  refine Touches.chain (State.excuse_touches ..) (by decide) ?_
  refine Touches.ite ?_ ?_
  · exact Touches.chain (State.pushItem_touches ..) (by decide) (Touches.rfl' _ s)
  · exact (Touches.rfl' _ s)

theorem State.leave_touches (s : State) (p1 : ℕ) (p2 : List Byte) (p3 : Bool) (p4 : Bool) (p5 : ℕ) :
    Touches [.cnt, .line, .asc, .yok, .out] s (State.leave s p1 p2 p3 p4 p5) := by
  unfold State.leave
  refine Touches.ite ?_ ?_
  · extract_lets -merge -underBinder +onlyGivenNames x0
    clear_value x0
    extract_lets -merge -underBinder +onlyGivenNames x1
    have hx1 : Touches [.cnt, .line, .asc, .yok, .out] s x1 := by
      unfold x1
      exact Touches.chain (State.pushItem_touches ..) (by decide) (Touches.rfl' _ s)
    clear_value x1
    refine Touches.ite ?_ ?_
    · refine Touches.chain (State.excuse_touches ..) (by decide) ?_
      exact Touches.chain (State.tally_touches ..) (by decide) hx1
    · exact hx1
  · refine Touches.ite ?_ ?_
    · refine Touches.chain (State.excuse_touches ..) (by decide) ?_
      refine Touches.ite ?_ ?_
      · exact Touches.chain (State.schCount_touches ..) (by decide) (Touches.rfl' _ s)
      · exact Touches.chain (State.ethCount_touches ..) (by decide) (Touches.rfl' _ s)
    · refine Touches.ite ?_ ?_
      · refine Touches.chain (State.excuse_touches ..) (by decide) ?_
        exact Touches.chain (State.tally_touches ..) (by decide) (Touches.rfl' _ s)
      · extract_lets -merge -underBinder +onlyGivenNames x2
        have hx2 : Touches [.cnt, .line, .asc, .yok, .out] s x2 := by
          unfold x2
          refine Touches.chain (State.emit_touches ..) (by decide) ?_
          exact Touches.chain (State.ethCount_touches ..) (by decide) (Touches.rfl' _ s)
        clear_value x2
        refine Touches.ite ?_ ?_
        · refine Touches.chain (State.excuse_touches ..) (by decide) ?_
          refine Touches.chain (State.emit_touches ..) (by decide) ?_
          exact Touches.chain (State.ethCount_touches ..) (by decide) hx2
        · exact Touches.chain (State.digest_touches ..) (by decide) hx2

theorem State.chargeShapers_touches (s : State) (p1 : ℕ) (p2 : Sending) :
    Touches [.sch] s (State.chargeShapers s p1 p2) := by
  unfold State.chargeShapers
  extract_lets -merge -underBinder +onlyGivenNames x0
  have hx0 : Touches [.sch] s x0 := by
    unfold x0
    refine Touches.ite ?_ ?_
    · exact Touches.chain (State.charge_touches ..) (by decide) (Touches.rfl' _ s)
    · exact (Touches.rfl' _ s)
  clear_value x0
  refine Touches.chain (State.charge_touches ..) (by decide) ?_
  exact Touches.chain (State.charge_touches ..) (by decide) hx0

theorem State.endBytes_touches (s : State) (p1 : ℕ) (p2 : List Byte) (p3 : Bool) (p4 : Bool) :
    Touches [.free] s (State.endBytes s p1 p2 p3 p4).2 := by
  unfold State.endBytes
  refine Touches.ite2 ?_ ?_
  · split
    rename_i v0 v1 v2 e3
    have hv2 : Touches [.free] s v2 := by
      refine Touches.ofSnd e3 ?_
      exact Touches.chain (State.draw_touches ..) (by decide) (Touches.rfl' _ s)
    exact hv2
  · refine Touches.mk2 ?_
    exact (Touches.rfl' _ s)

theorem execPickedFrameEnd_touches (p0 : Fin 544) (p1 : MemOutcome) (s : State) :
    OutTouches Part.main s (execPickedFrameEnd p0 p1 s) := by
  unfold execPickedFrameEnd
  extract_lets -merge -underBinder +onlyGivenNames x0
  clear_value x0
  split
  · show Touches _ _ _
    exact (Touches.rfl' _ s)
  · split
    · show Touches _ _ _
      refine Touches.set_sch (x := s) ?_ (by decide)
      exact (Touches.rfl' _ s)
    · refine OutTouches.ite ?_ ?_
      · show Touches _ _ _
        exact (Touches.rfl' _ s)
      · extract_lets -merge -underBinder +onlyGivenNames x1
        clear_value x1
        split
        rename_i v2 v3 v4 e5
        have hv3 : Touches Part.main s v3 := by
          refine Touches.ofFst e5 ?_
          refine Touches.chain (State.fetchRest_touches ..) (by decide) ?_
          refine Touches.set_sch (x := s) ?_ (by decide)
          exact (Touches.rfl' _ s)
        extract_lets -merge -underBinder +onlyGivenNames x6
        have hx6 : Touches Part.main s x6 := by
          unfold x6
          refine Touches.ite ?_ ?_
          · exact Touches.chain (State.tally_touches ..) (by decide) hv3
          · exact hv3
        clear_value x6
        extract_lets -merge -underBinder +onlyGivenNames x7 x8 x9
        clear_value x7 x8 x9
        extract_lets -merge -underBinder +onlyGivenNames x10
        have hx10 : Touches Part.main s x10 := by
          unfold x10
          refine Touches.ite ?_ ?_
          · exact Touches.chain (State.observe_touches ..) (by decide) hx6
          · exact hx6
        clear_value x10
        split
        rename_i v11 v12 v13 e14
        have hv13 : Touches Part.main s v13 := by
          refine Touches.ofSnd e14 ?_
          exact Touches.chain (State.endBytes_touches ..) (by decide) hx10
        extract_lets -merge -underBinder +onlyGivenNames x15
        have hx15 : Touches Part.main s x15 := by
          unfold x15
          refine Touches.ite ?_ ?_
          · exact Touches.chain (State.leaveHole_touches ..) (by decide) hv13
          · refine Touches.ite ?_ ?_
            · exact Touches.chain (State.excuse_touches ..) (by decide) hv13
            · refine Touches.chain (State.observe_touches ..) (by decide) ?_
              exact Touches.chain (State.leave_touches ..) (by decide) hv13
        clear_value x15
        extract_lets -merge -underBinder +onlyGivenNames x16
        have hx16 : Touches Part.main s x16 := by
          unfold x16
          refine Touches.chain (State.injectDone_touches ..) (by decide) ?_
          exact Touches.chain (State.chargeShapers_touches ..) (by decide) hx15
        clear_value x16
        extract_lets -merge -underBinder +onlyGivenNames x17
        have hx17 : Touches Part.main s x17 := by
          unfold x17
          split
          · exact Touches.chain (State.endItem_touches ..) (by decide) hx16
          · exact hx16
        clear_value x17
        show Touches _ _ _
        exact Touches.chain (State.dropRef_touches ..) (by decide) hx17

theorem State.writeGateCfg_touches (s : State) (p1 : ℕ) (p2 : Word) :
    Touches [.regs, .sch] s (State.writeGateCfg s p1 p2) := by
  unfold State.writeGateCfg
  extract_lets -merge -underBinder +onlyGivenNames x0 x1 x2
  clear_value x0 x1 x2
  extract_lets -merge -underBinder +onlyGivenNames x3
  have hx3 : Touches [.regs, .sch] s x3 := by
    unfold x3
    refine Touches.chain (State.gateResume_touches ..) (by decide) ?_
    exact Touches.chain (State.wr_touches ..) (by decide) (Touches.rfl' _ s)
  clear_value x3
  refine Touches.ite ?_ ?_
  · exact Touches.chain (State.placeGate_touches ..) (by decide) hx3
  · exact hx3

theorem State.gateCfgEffect_touches (s : State) (p1 : ℕ) (p2 : Word) :
    Touches [.regs, .cnt, .pow, .led, .hif, .sch, .yok, .out] s (State.gateCfgEffect s p1 p2) := by
  unfold State.gateCfgEffect
  extract_lets -merge -underBinder +onlyGivenNames x0
  have hx0 : Touches [.regs, .cnt, .pow, .led, .hif, .sch, .yok, .out] s x0 := by
    unfold x0
    exact Touches.chain (State.writeGateCfg_touches ..) (by decide) (Touches.rfl' _ s)
  clear_value x0
  refine Touches.ite ?_ ?_
  · exact hx0
  · extract_lets -merge -underBinder +onlyGivenNames x1
    clear_value x1
    extract_lets -merge -underBinder +onlyGivenNames x2
    clear_value x2
    refine Touches.ite ?_ ?_
    · refine Touches.chain (State.noteFor_touches ..) (by decide) ?_
      exact Touches.chain (State.setFlg_touches ..) (by decide) hx0
    · extract_lets -merge -underBinder +onlyGivenNames x3
      clear_value x3
      extract_lets -merge -underBinder +onlyGivenNames x4 x5 x6
      clear_value x4 x5 x6
      exact Touches.chain (State.setGate_touches ..) (by decide) hx0

theorem execGateChange_touches (p0 : Path) (p1 : Fin 544) (p2 : Word) (s : State) :
    OutTouches [.regs, .cnt, .armed, .pow, .led, .hif, .sch, .yok, .out] s (execGateChange p0 p1 p2 s) := by
  unfold execGateChange
  refine OutTouches.ite ?_ ?_
  · show Touches _ _ _
    exact (Touches.rfl' _ s)
  · show Touches _ _ _
    refine State.hostWrite_touches (by decide) ?_ (fun z0 hz0 => ?_)
    · exact (Touches.rfl' _ s)
    · exact Touches.chain (State.gateCfgEffect_touches ..) (by decide) hz0

theorem execGateListTakeEffect_touches (p0 : Fin 544) (s : State) :
    OutTouches [.regs, .cnt, .pow, .led, .hif, .sch, .yok, .out] s (execGateListTakeEffect p0 s) := by
  unfold execGateListTakeEffect
  extract_lets -merge -underBinder +onlyGivenNames x0 x1
  clear_value x0 x1
  split
  · show Touches _ _ _
    exact (Touches.rfl' _ s)
  · refine OutTouches.ite ?_ ?_
    · show Touches _ _ _
      exact (Touches.rfl' _ s)
    · extract_lets -merge -underBinder +onlyGivenNames x2
      have hx2 : Touches [.regs, .cnt, .pow, .led, .hif, .sch, .yok, .out] s x2 := by
        unfold x2
        exact Touches.chain (State.setGate_touches ..) (by decide) (Touches.rfl' _ s)
      clear_value x2
      extract_lets -merge -underBinder +onlyGivenNames x3
      clear_value x3
      extract_lets -merge -underBinder +onlyGivenNames x4
      have hx4 : Touches [.regs, .cnt, .pow, .led, .hif, .sch, .yok, .out] s x4 := by
        unfold x4
        refine Touches.ite ?_ ?_
        · exact Touches.chain (State.setGate_touches ..) (by decide) hx2
        · exact hx2
      clear_value x4
      show Touches _ _ _
      exact Touches.chain (State.noteFor_touches ..) (by decide) hx4

theorem execGateEntryAdvance_touches (p0 : Fin 544) (s : State) :
    OutTouches [.sch] s (execGateEntryAdvance p0 s) := by
  unfold execGateEntryAdvance
  extract_lets -merge -underBinder +onlyGivenNames x0 x1
  clear_value x0 x1
  refine OutTouches.ite ?_ ?_
  · show Touches _ _ _
    exact Touches.chain (State.gateResume_touches ..) (by decide) (Touches.rfl' _ s)
  · refine OutTouches.ite ?_ ?_
    · show Touches _ _ _
      exact (Touches.rfl' _ s)
    · extract_lets -merge -underBinder +onlyGivenNames x2
      refine OutTouches.ite ?_ ?_
      · show Touches _ _ _
        exact Touches.chain (State.setGate_touches ..) (by decide) (Touches.rfl' _ s)
      · extract_lets -merge -underBinder +onlyGivenNames x3
        clear_value x3
        show Touches _ _ _
        exact Touches.chain (State.setGate_touches ..) (by decide) (Touches.rfl' _ s)

theorem execLaunchLate_touches (p0 : Fin 4352) (p1 : Option (Fin 65536)) (s : State) :
    OutTouches [.regs, .cnt, .pow, .led, .hif, .sch, .yok, .out] s (execLaunchLate p0 p1 s) := by
  unfold execLaunchLate
  extract_lets -merge -underBinder +onlyGivenNames x0 x1
  clear_value x0 x1
  split
  · show Touches _ _ _
    exact (Touches.rfl' _ s)
  · refine OutTouches.ite ?_ ?_
    · show Touches _ _ _
      exact (Touches.rfl' _ s)
    · extract_lets -merge -underBinder +onlyGivenNames x2
      have hx2 : Touches [.regs, .cnt, .pow, .led, .hif, .sch, .yok, .out] s x2 := by
        unfold x2
        refine Touches.chain (State.dropHead_touches ..) (by decide) ?_
        exact Touches.chain (State.schCount_touches ..) (by decide) (Touches.rfl' _ s)
      clear_value x2
      extract_lets -merge -underBinder +onlyGivenNames x3
      clear_value x3
      refine OutTouches.ite ?_ ?_
      · extract_lets -merge -underBinder +onlyGivenNames x4
        clear_value x4
        extract_lets -merge -underBinder +onlyGivenNames x5
        have hx5 : Touches [.regs, .cnt, .pow, .led, .hif, .sch, .yok, .out] s x5 := by
          unfold x5
          refine Touches.set_sch (x := x2) ?_ (by decide)
          exact hx2
        clear_value x5
        show Touches _ _ _
        exact Touches.chain (State.noteFor_touches ..) (by decide) hx5
      · show Touches _ _ _
        exact hx2

theorem State.schEnd_touches (s : State) (p1 : ℕ) (p2 : ℕ) :
    Touches Part.note s (State.schEnd s p1 p2) := by
  unfold State.schEnd
  extract_lets -merge -underBinder +onlyGivenNames x0
  have hx0 : Touches Part.note s x0 := by
    unfold x0
    exact Touches.chain (State.cmdEnd_touches ..) (by decide) (Touches.rfl' _ s)
  clear_value x0
  extract_lets -merge -underBinder +onlyGivenNames x1
  have hx1 : Touches Part.note s x1 := by
    unfold x1
    refine Touches.ite ?_ ?_
    · exact Touches.chain (State.followerRefusal_touches ..) (by decide) hx0
    · exact hx0
  clear_value x1
  refine Touches.ite ?_ ?_
  · exact hx1
  · exact Touches.chain (State.noteFor_touches ..) (by decide) hx1

theorem State.tblWrite_touches (s : State) (p1 : ℕ) (p2 : ℕ) (p3 : List Word) :
    Touches [.sch] s (State.tblWrite s p1 p2 p3) := by
  unfold State.tblWrite
  extract_lets -merge -underBinder +onlyGivenNames x0
  clear_value x0
  split
  · refine State.reshape_touches (by decide) ?_ (fun z1 hz1 => ?_)
    · exact (Touches.rfl' _ s)
    · refine Touches.set_sch (x := z1) ?_ (by decide)
      exact hz1
  · refine State.reshape_touches (by decide) ?_ (fun z2 hz2 => ?_)
    · exact (Touches.rfl' _ s)
    · refine Touches.set_sch (x := z2) ?_ (by decide)
      exact hz2
  · refine Touches.set_sch (x := s) ?_ (by decide)
    exact (Touches.rfl' _ s)

theorem State.schRun_touches (s : State) (p1 : ℕ) (p2 : ℕ) (p3 : ℕ) :
    Touches [.regs, .cnt, .pow, .led, .hif, .sch, .yok, .out] s (State.schRun s p1 p2 p3) := by
  unfold State.schRun
  extract_lets -merge -underBinder +onlyGivenNames x0
  clear_value x0
  refine Touches.ite ?_ ?_
  · exact (Touches.rfl' _ s)
  · refine Touches.ite ?_ ?_
    · exact Touches.chain (State.schEnd_touches ..) (by decide) (Touches.rfl' _ s)
    · refine Touches.ite ?_ ?_
      · exact Touches.chain (State.schEnd_touches ..) (by decide) (Touches.rfl' _ s)
      · refine Touches.ite ?_ ?_
        · exact Touches.chain (State.schEnd_touches ..) (by decide) (Touches.rfl' _ s)
        · refine Touches.ite ?_ ?_
          · exact Touches.chain (State.schEnd_touches ..) (by decide) (Touches.rfl' _ s)
          · refine Touches.ite ?_ ?_
            · extract_lets -merge -underBinder +onlyGivenNames x1
              clear_value x1
              refine Touches.chain (State.schEnd_touches ..) (by decide) ?_
              refine Touches.foldl _ _ ?_ (fun y2 a2 hy2 => ?_)
              · exact (Touches.rfl' _ s)
              · exact Touches.chain (State.wr_touches ..) (by decide) hy2
            · refine Touches.ite ?_ ?_
              · exact Touches.chain (State.schEnd_touches ..) (by decide) (Touches.rfl' _ s)
              · refine Touches.ite ?_ ?_
                · exact Touches.chain (State.schEnd_touches ..) (by decide) (Touches.rfl' _ s)
                · extract_lets -merge -underBinder +onlyGivenNames x3
                  clear_value x3
                  refine Touches.chain (State.schEnd_touches ..) (by decide) ?_
                  refine Touches.chain (State.convey_touches ..) (by decide) ?_
                  exact Touches.chain (State.tblWrite_touches ..) (by decide) (Touches.rfl' _ s)

theorem execSchTblRead_touches (p0 : Path) (p1 : Fin 3) (s : State) :
    OutTouches [.regs, .cnt, .armed, .pow, .led, .hif, .sch, .yok, .held, .out] s (execSchTblRead p0 p1 s) := by
  unfold execSchTblRead
  show Touches _ _ _
  refine State.cmdWrite_touches (by decide) ?_ (fun z0 z1 hz1 => ?_)
  · exact (Touches.rfl' _ s)
  · exact Touches.chain (State.schRun_touches ..) (by decide) hz1

theorem execSchTblWrite_touches (p0 : Path) (p1 : Fin 3) (s : State) :
    OutTouches [.regs, .cnt, .armed, .pow, .led, .hif, .sch, .yok, .held, .out] s (execSchTblWrite p0 p1 s) := by
  unfold execSchTblWrite
  show Touches _ _ _
  refine State.cmdWrite_touches (by decide) ?_ (fun z0 z1 hz1 => ?_)
  · exact (Touches.rfl' _ s)
  · exact Touches.chain (State.schRun_touches ..) (by decide) hz1

theorem execSchTblUnknown_touches (p0 : Path) (p1 : Fin 4) (p2 : Fin 4) (s : State) :
    OutTouches [.regs, .cnt, .armed, .pow, .led, .hif, .sch, .yok, .held, .out] s (execSchTblUnknown p0 p1 p2 s) := by
  unfold execSchTblUnknown
  refine OutTouches.ite ?_ ?_
  · show Touches _ _ _
    exact (Touches.rfl' _ s)
  · show Touches _ _ _
    refine State.cmdWrite_touches (by decide) ?_ (fun z0 z1 hz1 => ?_)
    · exact (Touches.rfl' _ s)
    · exact Touches.chain (State.schRun_touches ..) (by decide) hz1

end Sys2Proof.Machine
end

