-- ==== Sys2Proof/Laws/TouchAssoc.lean ====
section
/-! SUPPORT. What each operation of Machine/Assoc.lean may touch. -/

namespace Sys2Proof.Machine

open Sys2Proof

set_option linter.unusedTactic false
set_option linter.unreachableTactic false

theorem State.sciPut_touches (s : State) (p1 : ℕ) (p2 : Option SciKey) :
    Touches [.asc, .yok, .out] s (State.sciPut s p1 p2) := by
  unfold State.sciPut
  extract_lets -merge -underBinder +onlyGivenNames x0
  clear_value x0
  extract_lets -merge -underBinder +onlyGivenNames x1
  have hx1 : Touches [.asc, .yok, .out] s x1 := by
    unfold x1
    refine Touches.set_asc (x := s) ?_ (by decide)
    exact (Touches.rfl' _ s)
  clear_value x1
  exact Touches.chain (State.convey_touches ..) (by decide) hx1

theorem State.sciChain_touches (s : State) (p1 : ℕ) (p2 : List ℕ) (p3 : ℕ) :
    Touches [.kvt, .free] s (State.sciChain s p1 p2 p3).2 := by
  unfold State.sciChain
  split
  · refine Touches.mk2 ?_
    exact (Touches.rfl' _ s)
  · split
    · refine Touches.mk2 ?_
      exact (Touches.rfl' _ s)
    · extract_lets -merge -underBinder +onlyGivenNames x0
      clear_value x0
      extract_lets -merge -underBinder +onlyGivenNames x1
      clear_value x1
      split
      · refine Touches.mk2 ?_
        exact (Touches.rfl' _ s)
      · split
        rename_i v2 v3 v4 e5
        have hv4 : Touches [.kvt, .free] s v4 := by
          refine Touches.ofSnd e5 ?_
          exact Touches.chain (State.rand_touches ..) (by decide) (Touches.rfl' _ s)
        split
        · refine Touches.chain (State.sciChain_touches ..) (by decide) ?_
          exact hv4
        · exact hv4

theorem State.sciShift_touches (s : State) (p1 : List ℕ) (p2 : ℕ) :
    Touches [.asc, .yok, .out] s (State.sciShift s p1 p2) := by
  unfold State.sciShift
  split
  · exact (Touches.rfl' _ s)
  · extract_lets -merge -underBinder +onlyGivenNames x0
    clear_value x0
    extract_lets -merge -underBinder +onlyGivenNames x1
    have hx1 : Touches [.asc, .yok, .out] s x1 := by
      unfold x1
      refine Touches.chain (State.sciShift_touches ..) (by decide) ?_
      exact (Touches.rfl' _ s)
    clear_value x1
    exact Touches.chain (State.sciPut_touches ..) (by decide) hx1

theorem State.sciInsert_touches (s : State) (p1 : SciKey) :
    Touches [.asc, .kvt, .yok, .out, .free] s (State.sciInsert s p1).1 := by
  unfold State.sciInsert
  split
  · refine Touches.mk1 ?_
    exact (Touches.rfl' _ s)
  · extract_lets -merge -underBinder +onlyGivenNames x0
    clear_value x0
    split
    · refine Touches.mk1 ?_
      exact Touches.chain (State.sciPut_touches ..) (by decide) (Touches.rfl' _ s)
    · split
      rename_i v1 v2 v3 e4
      have hv3 : Touches [.asc, .kvt, .yok, .out, .free] s v3 := by
        refine Touches.ofSnd e4 ?_
        exact Touches.chain (State.rand_touches ..) (by decide) (Touches.rfl' _ s)
      split
      · rename_i v5 v6 v7 v8 e9
        have hv8 : Touches [.asc, .kvt, .yok, .out, .free] s v8 := by
          refine Touches.ofSnd e9 ?_
          exact Touches.chain (State.sciChain_touches ..) (by decide) hv3
        refine Touches.mk1 ?_
        refine Touches.chain (State.sciPut_touches ..) (by decide) ?_
        exact Touches.chain (State.sciShift_touches ..) (by decide) hv8
      · rename_i v10 v11 e12
        have hv11 : Touches [.asc, .kvt, .yok, .out, .free] s v11 := by
          refine Touches.ofSnd e12 ?_
          exact Touches.chain (State.sciChain_touches ..) (by decide) hv3
        exact hv11

theorem State.sciRemove_touches (s : State) (p1 : SciKey) :
    Touches [.asc, .yok, .out] s (State.sciRemove s p1) := by
  unfold State.sciRemove
  split
  · exact Touches.chain (State.sciPut_touches ..) (by decide) (Touches.rfl' _ s)
  · exact (Touches.rfl' _ s)

theorem State.putAscData_touches (s : State) (p1 : ℕ) (p2 : List Byte) :
    Touches [.regs] s (State.putAscData s p1 p2) := by
  unfold State.putAscData
  refine Touches.foldl _ _ ?_ (fun y0 a0 hy0 => ?_)
  · exact (Touches.rfl' _ s)
  · exact Touches.chain (State.wr_touches ..) (by decide) hy0

theorem State.ascEnd_touches (s : State) (p1 : ℕ) (p2 : ℕ) :
    Touches Part.note s (State.ascEnd s p1 p2) := by
  unfold State.ascEnd
  extract_lets -merge -underBinder +onlyGivenNames x0
  clear_value x0
  extract_lets -merge -underBinder +onlyGivenNames x1
  have hx1 : Touches Part.note s x1 := by
    unfold x1
    refine Touches.ite ?_ ?_
    · exact Touches.chain (State.result_touches ..) (by decide) (Touches.rfl' _ s)
    · exact Touches.chain (State.cmdEnd_touches ..) (by decide) (Touches.rfl' _ s)
  clear_value x1
  extract_lets -merge -underBinder +onlyGivenNames x2
  have hx2 : Touches Part.note s x2 := by
    unfold x2
    refine Touches.ite ?_ ?_
    · exact Touches.chain (State.followerRefusal_touches ..) (by decide) hx1
    · exact hx1
  clear_value x2
  refine Touches.ite ?_ ?_
  · exact hx2
  · exact Touches.chain (State.noteFor_touches ..) (by decide) hx2

theorem State.persistStore_touches (s : State) (p1 : ℕ) (p2 : ℕ) (p3 : List Byte) :
    Touches Part.main s (State.persistStore s p1 p2 p3).1 := by
  unfold State.persistStore
  extract_lets -merge -underBinder +onlyGivenNames x0
  clear_value x0
  split
  rename_i v1 v2 v3 e4
  have hv3 : Touches Part.main s v3 := by
    refine Touches.ofSnd e4 ?_
    exact Touches.chain (State.sealRec_touches ..) (by decide) (Touches.rfl' _ s)
  split
  rename_i v5 v6 v7 e8
  have hv6 : Touches Part.main s v6 := by
    refine Touches.ofFst e8 ?_
    exact Touches.chain (State.storeSealed_touches ..) (by decide) hv3
  refine Touches.mk1 ?_
  refine Touches.ite ?_ ?_
  · refine Touches.set_asc (x := v6) ?_ (by decide)
    exact hv6
  · exact hv6

theorem State.ascFinish_touches (s : State) (p1 : ℕ) (p2 : ℕ) (p3 : ℕ) (p4 : Ctx) :
    Touches Part.main s (State.ascFinish s p1 p2 p3 p4) := by
  unfold State.ascFinish
  refine Touches.ite ?_ ?_
  · exact Touches.chain (State.startRun_touches ..) (by decide) (Touches.rfl' _ s)
  · refine Touches.chain (State.ascEnd_touches ..) (by decide) ?_
    exact Touches.chain (State.freeRecords_touches ..) (by decide) (Touches.rfl' _ s)

theorem State.ascReserve_touches (s : State) (p1 : ℕ) (p2 : ℕ) (p3 : Ctx) (p4 : Option SciKey) :
    Touches Part.main s (State.ascReserve s p1 p2 p3 p4).1 := by
  unfold State.ascReserve
  split
  rename_i v0 v1 v2 e3
  have hv1 : Touches Part.main s v1 := by
    refine Touches.ofFst e3 ?_
    split
    · exact Touches.chain (State.sciInsert_touches ..) (by decide) (Touches.rfl' _ s)
    · refine Touches.mk1 ?_
      exact (Touches.rfl' _ s)
  refine Touches.ite1 ?_ ?_
  · exact hv1
  · refine Touches.ite1 ?_ ?_
    · exact hv1
    · split
      rename_i v4 v5 v6 e7
      have hv5 : Touches Part.main s v5 := by
        refine Touches.ofFst e7 ?_
        exact Touches.chain (State.persistStore_touches ..) (by decide) hv1
      refine Touches.ite1 ?_ ?_
      · exact hv5
      · refine Touches.mk1 ?_
        split
        · exact Touches.chain (State.sciRemove_touches ..) (by decide) hv5
        · exact hv5

theorem State.conveyCtx_touches (s : State) (p1 : ℕ) (p2 : ℕ) (p3 : ℕ) (p4 : List Byte) :
    Touches [.yok, .out] s (State.conveyCtx s p1 p2 p3 p4) := by
  unfold State.conveyCtx
  exact Touches.chain (State.convey_touches ..) (by decide) (Touches.rfl' _ s)

theorem State.ascCreate_touches (s : State) (p1 : ℕ) (p2 : ℕ) (p3 : ℕ) :
    Touches Part.main s (State.ascCreate s p1 p2 p3) := by
  unfold State.ascCreate
  refine Touches.ite ?_ ?_
  · exact Touches.chain (State.ascEnd_touches ..) (by decide) (Touches.rfl' _ s)
  · extract_lets -merge -underBinder +onlyGivenNames x0
    clear_value x0
    extract_lets -merge -underBinder +onlyGivenNames x1
    clear_value x1
    refine Touches.ite ?_ ?_
    · exact Touches.chain (State.ascEnd_touches ..) (by decide) (Touches.rfl' _ s)
    · refine Touches.ite ?_ ?_
      · exact Touches.chain (State.ascEnd_touches ..) (by decide) (Touches.rfl' _ s)
      · refine Touches.ite ?_ ?_
        · exact Touches.chain (State.ascEnd_touches ..) (by decide) (Touches.rfl' _ s)
        · split
          rename_i v2 v3 v4 e5
          have hv3 : Touches Part.main s v3 := by
            refine Touches.ofFst e5 ?_
            exact Touches.chain (State.ascReserve_touches ..) (by decide) (Touches.rfl' _ s)
          refine Touches.ite ?_ ?_
          · exact Touches.chain (State.ascEnd_touches ..) (by decide) hv3
          · extract_lets -merge -underBinder +onlyGivenNames x6
            clear_value x6
            extract_lets -merge -underBinder +onlyGivenNames x7
            have hx7 : Touches Part.main s x7 := by
              unfold x7
              refine Touches.set_asc (x := v3) ?_ (by decide)
              exact hv3
            clear_value x7
            extract_lets -merge -underBinder +onlyGivenNames x8
            have hx8 : Touches Part.main s x8 := by
              unfold x8
              refine Touches.chain (State.conveyCtx_touches ..) (by decide) ?_
              refine Touches.chain (State.commitCtx_touches ..) (by decide) ?_
              exact Touches.chain (State.setCtx_touches ..) (by decide) hx7
            clear_value x8
            exact Touches.chain (State.ascFinish_touches ..) (by decide) hx8

theorem State.rebuild_touches (s : State) (p1 : ℕ) :
    Touches Part.main s (State.rebuild s p1) := by
  unfold State.rebuild
  split
  · exact (Touches.rfl' _ s)
  · extract_lets -merge -underBinder +onlyGivenNames x0
    clear_value x0
    extract_lets -merge -underBinder +onlyGivenNames x1 x2 x3 x4 x5
    clear_value x1 x2 x3 x4 x5
    extract_lets -merge -underBinder +onlyGivenNames x6
    have hx6 : Touches Part.main s x6 := by
      unfold x6
      exact Touches.chain (State.setCtx_touches ..) (by decide) (Touches.rfl' _ s)
    clear_value x6
    extract_lets -merge -underBinder +onlyGivenNames x7
    have hx7 : Touches Part.main s x7 := by
      unfold x7
      refine Touches.ite ?_ ?_
      · exact Touches.chain (State.startRxSa_touches ..) (by decide) hx6
      · exact hx6
    clear_value x7
    refine Touches.ite ?_ ?_
    · refine Touches.ite ?_ ?_
      · exact Touches.chain (State.modCtx_touches ..) (by decide) hx7
      · exact Touches.chain (State.startTxSa_touches ..) (by decide) hx7
    · exact hx7

theorem State.ascWrite_touches (s : State) (p1 : ℕ) (p2 : ℕ) :
    Touches Part.main s (State.ascWrite s p1 p2) := by
  unfold State.ascWrite
  split
  · exact Touches.chain (State.ascEnd_touches ..) (by decide) (Touches.rfl' _ s)
  · extract_lets -merge -underBinder +onlyGivenNames x0
    clear_value x0
    extract_lets -merge -underBinder +onlyGivenNames x1
    clear_value x1
    refine Touches.ite ?_ ?_
    · exact Touches.chain (State.ascEnd_touches ..) (by decide) (Touches.rfl' _ s)
    · refine Touches.ite ?_ ?_
      · exact Touches.chain (State.ascEnd_touches ..) (by decide) (Touches.rfl' _ s)
      · refine Touches.ite ?_ ?_
        · exact Touches.chain (State.ascEnd_touches ..) (by decide) (Touches.rfl' _ s)
        · refine Touches.ite ?_ ?_
          · exact Touches.chain (State.ascEnd_touches ..) (by decide) (Touches.rfl' _ s)
          · extract_lets -merge -underBinder +onlyGivenNames x2
            clear_value x2
            split
            rename_i v3 v4 v5 e6
            have hv4 : Touches Part.main s v4 := by
              refine Touches.ofFst e6 ?_
              exact Touches.chain (State.ascReserve_touches ..) (by decide) (Touches.rfl' _ s)
            refine Touches.ite ?_ ?_
            · exact Touches.chain (State.ascEnd_touches ..) (by decide) hv4
            · extract_lets -merge -underBinder +onlyGivenNames x7
              have hx7 : Touches Part.main s x7 := by
                unfold x7
                refine Touches.ite ?_ ?_
                · exact Touches.chain (State.sciRemove_touches ..) (by decide) hv4
                · exact hv4
              clear_value x7
              extract_lets -merge -underBinder +onlyGivenNames x8
              have hx8 : Touches Part.main s x8 := by
                unfold x8
                exact Touches.chain (State.setCtx_touches ..) (by decide) hx7
              clear_value x8
              extract_lets -merge -underBinder +onlyGivenNames x9
              have hx9 : Touches Part.main s x9 := by
                unfold x9
                refine Touches.ite ?_ ?_
                · exact Touches.chain (State.rebuild_touches ..) (by decide) hx8
                · exact hx8
              clear_value x9
              extract_lets -merge -underBinder +onlyGivenNames x10
              have hx10 : Touches Part.main s x10 := by
                unfold x10
                refine Touches.chain (State.conveyCtx_touches ..) (by decide) ?_
                exact Touches.chain (State.commitCtx_touches ..) (by decide) hx9
              clear_value x10
              exact Touches.chain (State.ascFinish_touches ..) (by decide) hx10

theorem State.ascDelete_touches (s : State) (p1 : ℕ) (p2 : ℕ) :
    Touches Part.main s (State.ascDelete s p1 p2) := by
  unfold State.ascDelete
  split
  · exact Touches.chain (State.ascEnd_touches ..) (by decide) (Touches.rfl' _ s)
  · refine Touches.ite ?_ ?_
    · exact Touches.chain (State.ascEnd_touches ..) (by decide) (Touches.rfl' _ s)
    · extract_lets -merge -underBinder +onlyGivenNames x0
      have hx0 : Touches Part.main s x0 := by
        unfold x0
        refine Touches.ite ?_ ?_
        · exact Touches.chain (State.sciRemove_touches ..) (by decide) (Touches.rfl' _ s)
        · exact (Touches.rfl' _ s)
      clear_value x0
      extract_lets -merge -underBinder +onlyGivenNames x1
      have hx1 : Touches Part.main s x1 := by
        unfold x1
        exact Touches.chain (State.setCtx_touches ..) (by decide) hx0
      clear_value x1
      extract_lets -merge -underBinder +onlyGivenNames x2
      extract_lets -merge -underBinder +onlyGivenNames x3
      clear_value x3
      extract_lets -merge -underBinder +onlyGivenNames x4
      have hx4 : Touches Part.main s x4 := by
        unfold x4
        refine Touches.set_asc (x := x1) ?_ (by decide)
        exact hx1
      clear_value x4
      refine Touches.chain (State.ascEnd_touches ..) (by decide) ?_
      refine Touches.chain (State.freeRecords_touches ..) (by decide) ?_
      exact Touches.chain (State.conveyCtx_touches ..) (by decide) hx4

theorem State.ascRead_touches (s : State) (p1 : ℕ) (p2 : ℕ) :
    Touches Part.note s (State.ascRead s p1 p2) := by
  unfold State.ascRead
  extract_lets -merge -underBinder +onlyGivenNames x0
  clear_value x0
  refine Touches.chain (State.ascEnd_touches ..) (by decide) ?_
  exact Touches.chain (State.putAscData_touches ..) (by decide) (Touches.rfl' _ s)

theorem State.rotateCmd_touches (s : State) (p1 : ℕ) (p2 : ℕ) :
    Touches Part.main s (State.rotateCmd s p1 p2) := by
  unfold State.rotateCmd
  split
  · exact Touches.chain (State.ascEnd_touches ..) (by decide) (Touches.rfl' _ s)
  · refine Touches.ite ?_ ?_
    · exact Touches.chain (State.ascEnd_touches ..) (by decide) (Touches.rfl' _ s)
    · refine Touches.ite ?_ ?_
      · exact Touches.chain (State.ascEnd_touches ..) (by decide) (Touches.rfl' _ s)
      · split
        rename_i v0 v1 v2 e3
        have hv1 : Touches Part.main s v1 := by
          refine Touches.ofFst e3 ?_
          exact Touches.chain (State.prepareRotate_touches ..) (by decide) (Touches.rfl' _ s)
        refine Touches.ite ?_ ?_
        · exact Touches.chain (State.startRun_touches ..) (by decide) hv1
        · exact Touches.chain (State.ascEnd_touches ..) (by decide) hv1

theorem State.flipCmd_touches (s : State) (p1 : ℕ) (p2 : ℕ) (p3 : ℕ) :
    Touches [.regs, .cnt, .pow, .led, .hif, .rows, .asc, .kvt, .yok, .out] s (State.flipCmd s p1 p2 p3) := by
  unfold State.flipCmd
  split
  · exact Touches.chain (State.ascEnd_touches ..) (by decide) (Touches.rfl' _ s)
  · extract_lets -merge -underBinder +onlyGivenNames x0
    clear_value x0
    refine Touches.ite ?_ ?_
    · exact Touches.chain (State.ascEnd_touches ..) (by decide) (Touches.rfl' _ s)
    · split
      · exact Touches.chain (State.ascEnd_touches ..) (by decide) (Touches.rfl' _ s)
      · refine Touches.ite ?_ ?_
        · exact Touches.chain (State.ascEnd_touches ..) (by decide) (Touches.rfl' _ s)
        · refine Touches.ite ?_ ?_
          · exact Touches.chain (State.ascEnd_touches ..) (by decide) (Touches.rfl' _ s)
          · extract_lets -merge -underBinder +onlyGivenNames x1
            clear_value x1
            extract_lets -merge -underBinder +onlyGivenNames x2
            clear_value x2
            extract_lets -merge -underBinder +onlyGivenNames x3
            have hx3 : Touches [.regs, .cnt, .pow, .led, .hif, .rows, .asc, .kvt, .yok, .out] s x3 := by
              unfold x3
              exact Touches.chain (State.setCtx_touches ..) (by decide) (Touches.rfl' _ s)
            clear_value x3
            extract_lets -merge -underBinder +onlyGivenNames x4
            have hx4 : Touches [.regs, .cnt, .pow, .led, .hif, .rows, .asc, .kvt, .yok, .out] s x4 := by
              unfold x4
              exact Touches.chain (State.setPages_touches ..) (by decide) hx3
            clear_value x4
            extract_lets -merge -underBinder +onlyGivenNames x5
            have hx5 : Touches [.regs, .cnt, .pow, .led, .hif, .rows, .asc, .kvt, .yok, .out] s x5 := by
              unfold x5
              exact Touches.chain (State.convey_touches ..) (by decide) hx4
            clear_value x5
            exact Touches.chain (State.startRun_touches ..) (by decide) hx5

theorem State.ascRun_touches (s : State) (p1 : ℕ) (p2 : ℕ) (p3 : ℕ) :
    Touches Part.main s (State.ascRun s p1 p2 p3) := by
  unfold State.ascRun
  extract_lets -merge -underBinder +onlyGivenNames x0
  clear_value x0
  refine Touches.ite ?_ ?_
  · exact (Touches.rfl' _ s)
  · refine Touches.ite ?_ ?_
    · exact Touches.chain (State.ascEnd_touches ..) (by decide) (Touches.rfl' _ s)
    · refine Touches.ite ?_ ?_
      · exact Touches.chain (State.ascEnd_touches ..) (by decide) (Touches.rfl' _ s)
      · refine Touches.ite ?_ ?_
        · exact Touches.chain (State.ascEnd_touches ..) (by decide) (Touches.rfl' _ s)
        · refine Touches.ite ?_ ?_
          · exact Touches.chain (State.ascEnd_touches ..) (by decide) (Touches.rfl' _ s)
          · split
            · exact Touches.chain (State.ascRead_touches ..) (by decide) (Touches.rfl' _ s)
            · exact Touches.chain (State.ascCreate_touches ..) (by decide) (Touches.rfl' _ s)
            · exact Touches.chain (State.ascWrite_touches ..) (by decide) (Touches.rfl' _ s)
            · exact Touches.chain (State.ascDelete_touches ..) (by decide) (Touches.rfl' _ s)
            · exact Touches.chain (State.rotateCmd_touches ..) (by decide) (Touches.rfl' _ s)
            · exact Touches.chain (State.flipCmd_touches ..) (by decide) (Touches.rfl' _ s)

theorem execCtxRead_touches (p0 : Path) (s : State) :
    OutTouches Part.main s (execCtxRead p0 s) := by
  unfold execCtxRead
  show Touches _ _ _
  refine State.cmdWrite_touches (by decide) ?_ (fun z0 z1 hz1 => ?_)
  · exact (Touches.rfl' _ s)
  · exact Touches.chain (State.ascRun_touches ..) (by decide) hz1

theorem execCtxCreate_touches (p0 : Path) (p1 : Fin 16) (s : State) :
    OutTouches Part.main s (execCtxCreate p0 p1 s) := by
  unfold execCtxCreate
  show Touches _ _ _
  refine State.cmdWrite_touches (by decide) ?_ (fun z0 z1 hz1 => ?_)
  · exact (Touches.rfl' _ s)
  · exact Touches.chain (State.ascRun_touches ..) (by decide) hz1

theorem execCtxWrite_touches (p0 : Path) (s : State) :
    OutTouches Part.main s (execCtxWrite p0 s) := by
  unfold execCtxWrite
  show Touches _ _ _
  refine State.cmdWrite_touches (by decide) ?_ (fun z0 z1 hz1 => ?_)
  · exact (Touches.rfl' _ s)
  · exact Touches.chain (State.ascRun_touches ..) (by decide) hz1

theorem execCtxDelete_touches (p0 : Path) (s : State) :
    OutTouches Part.main s (execCtxDelete p0 s) := by
  unfold execCtxDelete
  show Touches _ _ _
  refine State.cmdWrite_touches (by decide) ?_ (fun z0 z1 hz1 => ?_)
  · exact (Touches.rfl' _ s)
  · exact Touches.chain (State.ascRun_touches ..) (by decide) hz1

theorem execAscRotate_touches (p0 : Path) (s : State) :
    OutTouches Part.main s (execAscRotate p0 s) := by
  unfold execAscRotate
  show Touches _ _ _
  refine State.cmdWrite_touches (by decide) ?_ (fun z0 z1 hz1 => ?_)
  · exact (Touches.rfl' _ s)
  · exact Touches.chain (State.ascRun_touches ..) (by decide) hz1

theorem execAscFlip_touches (p0 : Path) (p1 : Fin 16) (s : State) :
    OutTouches Part.main s (execAscFlip p0 p1 s) := by
  unfold execAscFlip
  show Touches _ _ _
  refine State.cmdWrite_touches (by decide) ?_ (fun z0 z1 hz1 => ?_)
  · exact (Touches.rfl' _ s)
  · exact Touches.chain (State.ascRun_touches ..) (by decide) hz1

theorem execAscCmdUnknown_touches (p0 : Path) (p1 : Fin 16) (s : State) :
    OutTouches Part.main s (execAscCmdUnknown p0 p1 s) := by
  unfold execAscCmdUnknown
  refine OutTouches.ite ?_ ?_
  · show Touches _ _ _
    exact (Touches.rfl' _ s)
  · show Touches _ _ _
    refine State.cmdWrite_touches (by decide) ?_ (fun z0 z1 hz1 => ?_)
    · exact (Touches.rfl' _ s)
    · exact Touches.chain (State.ascRun_touches ..) (by decide) hz1

theorem State.deliverPunt_touches (s : State) (p1 : ℕ) (p2 : ℕ) (p3 : List Byte) :
    Touches [.cnt, .hif, .out] s (State.deliverPunt s p1 p2 p3) := by
  unfold State.deliverPunt
  split
  · exact (Touches.rfl' _ s)
  · extract_lets -merge -underBinder +onlyGivenNames x0
    clear_value x0
    extract_lets -merge -underBinder +onlyGivenNames x1
    have hx1 : Touches [.cnt, .hif, .out] s x1 := by
      unfold x1
      refine Touches.set_hif (x := s) ?_ (by decide)
      exact (Touches.rfl' _ s)
    clear_value x1
    extract_lets -merge -underBinder +onlyGivenNames x2
    have hx2 : Touches [.cnt, .hif, .out] s x2 := by
      unfold x2
      exact Touches.chain (State.dma_touches ..) (by decide) hx1
    clear_value x2
    exact Touches.chain (State.complete_touches ..) (by decide) hx2

theorem State.drainPunts_touches (s : State) (p1 : ℕ) (p2 : ℕ) :
    Touches [.cnt, .hif, .asc, .out] s (State.drainPunts s p1 p2) := by
  unfold State.drainPunts
  split
  · exact (Touches.rfl' _ s)
  · refine Touches.ite ?_ ?_
    · split
      · exact (Touches.rfl' _ s)
      · extract_lets -merge -underBinder +onlyGivenNames x0
        clear_value x0
        extract_lets -merge -underBinder +onlyGivenNames x1
        have hx1 : Touches [.cnt, .hif, .asc, .out] s x1 := by
          unfold x1
          refine Touches.set_asc (x := s) ?_ (by decide)
          exact (Touches.rfl' _ s)
        clear_value x1
        refine Touches.chain (State.drainPunts_touches ..) (by decide) ?_
        exact Touches.chain (State.deliverPunt_touches ..) (by decide) hx1
    · exact (Touches.rfl' _ s)

theorem State.puntFrame_touches (s : State) (p1 : ℕ) (p2 : ℕ) (p3 : List Byte) :
    Touches [.regs, .cnt, .pow, .led, .hif, .asc, .yok, .out] s (State.puntFrame s p1 p2 p3) := by
  unfold State.puntFrame
  refine Touches.ite ?_ ?_
  · refine Touches.chain (State.noteFor_touches ..) (by decide) ?_
    exact Touches.chain (State.inc_touches ..) (by decide) (Touches.rfl' _ s)
  · extract_lets -merge -underBinder +onlyGivenNames x0
    clear_value x0
    extract_lets -merge -underBinder +onlyGivenNames x1
    have hx1 : Touches [.regs, .cnt, .pow, .led, .hif, .asc, .yok, .out] s x1 := by
      unfold x1
      refine Touches.set_asc (x := s) ?_ (by decide)
      exact (Touches.rfl' _ s)
    clear_value x1
    refine Touches.chain (State.drainPunts_touches ..) (by decide) ?_
    exact Touches.chain (State.inc_touches ..) (by decide) hx1

theorem State.rxCount_touches (s : State) (p1 : ℕ) (p2 : ℕ) (p3 : ℕ) :
    Touches [.cnt, .asc] s (State.rxCount s p1 p2 p3) := by
  unfold State.rxCount
  refine Touches.chain (State.inc_touches ..) (by decide) ?_
  exact Touches.chain (State.modCtx_touches ..) (by decide) (Touches.rfl' _ s)

theorem State.rxArrive_touches (s : State) (p1 : Frame) :
    Touches [.sch] s (State.rxArrive s p1) := by
  unfold State.rxArrive
  refine Touches.set_sch (x := s) ?_ (by decide)
  exact (Touches.rfl' _ s)

theorem State.rxDispatch_touches (s : State) (p1 : ℕ) (p2 : ℕ) (p3 : ℕ) (p4 : ℕ) (p5 : ℕ) (p6 : Ctx) (p7 : Option ℕ) (p8 : List Byte) :
    Touches Part.main s (State.rxDispatch s p1 p2 p3 p4 p5 p6 p7 p8) := by
  unfold State.rxDispatch
  extract_lets -merge -underBinder +onlyGivenNames x0 x1
  clear_value x0 x1
  split
  extract_lets -merge -underBinder +onlyGivenNames x2 x3
  clear_value x2 x3
  extract_lets -merge -underBinder +onlyGivenNames x4
  have hx4 : Touches Part.main s x4 := by
    unfold x4
    exact Touches.chain (State.startItem_touches ..) (by decide) (Touches.rfl' _ s)
  clear_value x4
  extract_lets -merge -underBinder +onlyGivenNames x5
  have hx5 : Touches Part.main s x5 := by
    unfold x5
    exact Touches.chain (State.incBy_touches ..) (by decide) hx4
  clear_value x5
  extract_lets -merge -underBinder +onlyGivenNames x6 x7 x8
  clear_value x6 x7 x8
  exact Touches.chain (State.rxArrive_touches ..) (by decide) hx5

theorem State.preCheck_touches {s : State} {a k pn : Nat} {c : Ctx} {act : State → State}
    (h : s.preCheck a k pn c = some act) (x : State) : Touches [.regs, .cnt, .pow, .led, .hif, .asc, .yok, .out] x (act x) := by
  unfold State.preCheck at h
  split at h
  · cases h; exact Touches.chain (State.rxCount_touches ..) (by decide) (Touches.rfl' _ x)
  · split at h
    · cases h
      beta_reduce
      extract_lets -merge -underBinder +onlyGivenNames x0
      have hx0 : Touches [.regs, .cnt, .pow, .led, .hif, .asc, .yok, .out] x x0 := by
        unfold x0
        exact Touches.chain (State.rxCount_touches ..) (by decide) (Touches.rfl' _ x)
      refine Touches.ite hx0 ?_
      refine Touches.chain (State.noteFor_touches ..) (by decide) ?_
      exact Touches.chain (State.modCtx_touches ..) (by decide) hx0
    · split at h
      · cases h; exact Touches.chain (State.rxCount_touches ..) (by decide) (Touches.rfl' _ x)
      · cases h

theorem State.rxMacsec_touches (s : State) (p1 : Instr) (p2 : Nat) (p3 : Option Nat) (p4 : Sight) (p5 : List Byte) (p6 : Bool) :
    Touches Part.all s (State.rxMacsec s p1 p2 p3 p4 p5 p6) := by
  unfold State.rxMacsec
  extract_lets -merge -underBinder +onlyGivenNames x0
  subst x0
  try beta_reduce
  try extract_lets -merge -underBinder +onlyGivenNames x1
  try clear_value x1
  try extract_lets -merge -underBinder +onlyGivenNames x2
  try clear_value x2
  split
  · refine Touches.chain (State.observe_touches ..) (by decide) ?_
    exact Touches.chain (State.inc_touches ..) (by decide) (Touches.rfl' _ s)
  · split
    · refine Touches.chain (State.observe_touches ..) (by decide) ?_
      exact Touches.chain (State.inc_touches ..) (by decide) (Touches.rfl' _ s)
    · extract_lets -merge -underBinder +onlyGivenNames x7
      have hx7 : Touches Part.all s x7 := by
        unfold x7
        exact Touches.chain (State.touchCtx_touches ..) (by decide) (Touches.rfl' _ s)
      try clear_value x7
      refine Touches.ite ?_ ?_
      · refine Touches.chain (State.observe_touches ..) (by decide) ?_
        exact Touches.chain (State.inc_touches ..) (by decide) (Touches.rfl' _ s)
      · refine Touches.ite ?_ ?_
        · refine Touches.chain (State.observe_touches ..) (by decide) ?_
          exact Touches.chain (State.rxCount_touches ..) (by decide) (Touches.rfl' _ s)
        · split
          · refine Touches.chain (State.observe_touches ..) (by decide) ?_
            exact Touches.chain (State.rxCount_touches ..) (by decide) hx7
          · try extract_lets -merge -underBinder +onlyGivenNames x10
            try clear_value x10
            refine Touches.ite ?_ ?_
            · refine Touches.chain (State.observe_touches ..) (by decide) ?_
              exact Touches.chain (State.inc_touches ..) (by decide) hx7
            · refine Touches.ite ?_ ?_
              · refine Touches.chain (State.observe_touches ..) (by decide) ?_
                exact Touches.chain (State.inc_touches ..) (by decide) hx7
              · refine Touches.ite ?_ ?_
                · refine Touches.chain (State.observe_touches ..) (by decide) ?_
                  exact Touches.chain (State.rxCount_touches ..) (by decide) hx7
                · refine Touches.ite ?_ ?_
                  · refine Touches.chain (State.observe_touches ..) (by decide) ?_
                    refine Touches.chain (State.rxCount_touches ..) (by decide) ?_
                    exact Touches.chain (State.slotCheckFail_touches ..) (by decide) hx7
                  · split
                    · refine Touches.chain (State.observe_touches ..) (by decide) ?_
                      exact Touches.chain (State.preCheck_touches (by assumption) _) (by decide) hx7
                    · split
                      · refine Touches.ite ?_ ?_
                        · refine Touches.chain (State.observe_touches ..) (by decide) ?_
                          refine Touches.chain (State.excuse_touches ..) (by decide) ?_
                          exact Touches.chain (State.inc_touches ..) (by decide) hx7
                        · refine (Touches.set_held (x := x7) ?_ (by decide))
                          exact hx7
                      · refine Touches.chain (State.observe_touches ..) (by decide) ?_
                        exact Touches.chain (State.rxDispatch_touches ..) (by decide) hx7

theorem State.rxPtp_touches (s : State) (p1 : ℕ) (p2 : Option ℕ) (p3 : List Byte) :
    Touches [.cnt, .sch] s (State.rxPtp s p1 p2 p3) := by
  unfold State.rxPtp
  extract_lets -merge -underBinder +onlyGivenNames x0
  clear_value x0
  split
  · exact Touches.chain (State.inc_touches ..) (by decide) (Touches.rfl' _ s)
  · refine Touches.ite ?_ ?_
    · extract_lets -merge -underBinder +onlyGivenNames x1
      clear_value x1
      exact Touches.chain (State.rxArrive_touches ..) (by decide) (Touches.rfl' _ s)
    · exact Touches.chain (State.inc_touches ..) (by decide) (Touches.rfl' _ s)

theorem State.rxEapol_touches (s : State) (p1 : ℕ) (p2 : List Byte) :
    Touches [.regs, .cnt, .pow, .led, .hif, .asc, .yok, .out] s (State.rxEapol s p1 p2) := by
  unfold State.rxEapol
  extract_lets -merge -underBinder +onlyGivenNames x0 x1
  clear_value x0 x1
  refine Touches.ite ?_ ?_
  · refine Touches.chain (State.noteFor_touches ..) (by decide) ?_
    exact Touches.chain (State.inc_touches ..) (by decide) (Touches.rfl' _ s)
  · refine Touches.ite ?_ ?_
    · refine Touches.set_asc (x := s) ?_ (by decide)
      exact (Touches.rfl' _ s)
    · exact Touches.chain (State.puntFrame_touches ..) (by decide) (Touches.rfl' _ s)

theorem State.setTribRx_touches (s : State) (p1 : ℕ) (p2 : TribRx) :
    Touches [.line] s (State.setTribRx s p1 p2) := by
  unfold State.setTribRx
  refine Touches.set_line (x := s) ?_ (by decide)
  exact (Touches.rfl' _ s)

theorem State.countLost_touches (s : State) (p1 : ℕ) :
    Touches [.line] s (State.countLost s p1) := by
  unfold State.countLost
  refine Touches.ite ?_ ?_
  · exact Touches.chain (State.tally_touches ..) (by decide) (Touches.rfl' _ s)
  · refine Touches.ite ?_ ?_
    · exact Touches.chain (State.tally_touches ..) (by decide) (Touches.rfl' _ s)
    · exact (Touches.rfl' _ s)

theorem State.inputLost_touches (s : State) (p1 : ℕ) :
    Touches [.line] s (State.inputLost s p1) := by
  unfold State.inputLost
  refine Touches.ite ?_ ?_
  · exact (Touches.rfl' _ s)
  · refine Touches.ite ?_ ?_
    · exact Touches.chain (State.countLost_touches ..) (by decide) (Touches.rfl' _ s)
    · split
      · exact Touches.chain (State.countLost_touches ..) (by decide) (Touches.rfl' _ s)
      · exact (Touches.rfl' _ s)

theorem execLineFrameReceive_touches (p0 : Fin 544) (p1 : List Byte) (p2 : Bool) (s : State) :
    OutTouches Part.all s (execLineFrameReceive p0 p1 p2 s) := by
  unfold execLineFrameReceive
  extract_lets -merge -underBinder +onlyGivenNames x0
  clear_value x0
  refine OutTouches.ite ?_ ?_
  · show Touches _ _ _
    exact Touches.chain (State.inputLost_touches ..) (by decide) (Touches.rfl' _ s)
  · refine OutTouches.ite ?_ ?_
    · show Touches _ _ _
      exact (Touches.rfl' _ s)
    · extract_lets -merge -underBinder +onlyGivenNames x1
      have hx1 : Touches Part.all s x1 := by
        unfold x1
        refine Touches.ite ?_ ?_
        · exact Touches.chain (State.setTribRx_touches ..) (by decide) (Touches.rfl' _ s)
        · exact (Touches.rfl' _ s)
      clear_value x1
      split
      rename_i v2 v3 v4 e5
      have hv4 : Touches Part.all s v4 := by
        refine Touches.ofSnd e5 ?_
        exact Touches.chain (State.drawTag_touches ..) (by decide) hx1
      extract_lets -merge -underBinder +onlyGivenNames x6
      clear_value x6
      extract_lets -merge -underBinder +onlyGivenNames x7
      have hx7 : Touches Part.all s x7 := by
        unfold x7
        exact Touches.chain (State.observe_touches ..) (by decide) hv4
      clear_value x7
      extract_lets -merge -underBinder +onlyGivenNames x8
      clear_value x8
      show Touches _ _ _
      refine Touches.ite ?_ ?_
      · exact Touches.chain (State.rxMacsec_touches ..) (by decide) hx7
      · refine Touches.ite ?_ ?_
        · exact Touches.chain (State.rxEapol_touches ..) (by decide) hx7
        · refine Touches.ite ?_ ?_
          · exact Touches.chain (State.rxPtp_touches ..) (by decide) hx7
          · exact Touches.chain (State.inc_touches ..) (by decide) hx7

theorem State.endDecItem_touches (s : State) (p1 : ℕ) :
    Touches [.cph, .kvt] s (State.endDecItem s p1) := by
  unfold State.endDecItem
  split
  · exact Touches.chain (State.endItem_touches ..) (by decide) (Touches.rfl' _ s)
  · exact (Touches.rfl' _ s)

theorem State.acceptFrame_touches (s : State) (p1 : Frame) (p2 : ℕ) :
    Touches Part.main s (State.acceptFrame s p1 p2) := by
  unfold State.acceptFrame
  extract_lets -merge -underBinder +onlyGivenNames x0
  have hx0 : Touches Part.main s x0 := by
    unfold x0
    exact Touches.chain (State.modCtx_touches ..) (by decide) (Touches.rfl' _ s)
  clear_value x0
  refine Touches.chain (State.askRxMark_touches ..) (by decide) ?_
  exact Touches.chain (State.inc_touches ..) (by decide) hx0

theorem State.releaseFrame_touches (s : State) (p1 : Frame) :
    Touches [.cls, .sch, .yok] s (State.releaseFrame s p1) := by
  unfold State.releaseFrame
  refine Touches.ite ?_ ?_
  · exact Touches.chain (State.setVerdict_touches ..) (by decide) (Touches.rfl' _ s)
  · refine Touches.ite ?_ ?_
    · refine Touches.chain (State.setVerdict_touches ..) (by decide) ?_
      refine Touches.set_cls (x := s) ?_ (by decide)
      exact (Touches.rfl' _ s)
    · refine Touches.set_cls (x := s) ?_ (by decide)
      exact (Touches.rfl' _ s)

theorem State.rejectFrame_touches (s : State) (p1 : Frame) (p2 : ℕ) (p3 : ℕ) (p4 : ℕ) :
    Touches [.regs, .cnt, .pow, .led, .hif, .sch, .asc, .yok, .out] s (State.rejectFrame s p1 p2 p3 p4) := by
  unfold State.rejectFrame
  extract_lets -merge -underBinder +onlyGivenNames x0
  have hx0 : Touches [.regs, .cnt, .pow, .led, .hif, .sch, .asc, .yok, .out] s x0 := by
    unfold x0
    refine Touches.chain (State.modCtx_touches ..) (by decide) ?_
    exact Touches.chain (State.setVerdict_touches ..) (by decide) (Touches.rfl' _ s)
  clear_value x0
  extract_lets -merge -underBinder +onlyGivenNames x1
  have hx1 : Touches [.regs, .cnt, .pow, .led, .hif, .sch, .asc, .yok, .out] s x1 := by
    unfold x1
    refine Touches.chain (State.conveyVerdict_touches ..) (by decide) ?_
    exact Touches.chain (State.inc_touches ..) (by decide) hx0
  clear_value x1
  extract_lets -merge -underBinder +onlyGivenNames x2
  clear_value x2
  extract_lets -merge -underBinder +onlyGivenNames x3
  have hx3 : Touches [.regs, .cnt, .pow, .led, .hif, .sch, .asc, .yok, .out] s x3 := by
    unfold x3
    refine Touches.ite ?_ ?_
    · exact Touches.chain (State.noteFor_touches ..) (by decide) hx1
    · exact hx1
  clear_value x3
  exact Touches.chain (State.observe_touches ..) (by decide) hx3

theorem State.icvFail_touches (s : State) (p1 : Frame) :
    Touches [.regs, .cnt, .pow, .led, .hif, .sch, .asc, .yok, .out] s (State.icvFail s p1) := by
  unfold State.icvFail
  extract_lets -merge -underBinder +onlyGivenNames x0
  have hx0 : Touches [.regs, .cnt, .pow, .led, .hif, .sch, .asc, .yok, .out] s x0 := by
    unfold x0
    exact Touches.chain (State.noteFor_touches ..) (by decide) (Touches.rfl' _ s)
  clear_value x0
  extract_lets -merge -underBinder +onlyGivenNames x1
  have hx1 : Touches [.regs, .cnt, .pow, .led, .hif, .sch, .asc, .yok, .out] s x1 := by
    unfold x1
    exact Touches.chain (State.inc_touches ..) (by decide) hx0
  clear_value x1
  refine Touches.ite ?_ ?_
  · exact Touches.chain (State.rejectFrame_touches ..) (by decide) hx1
  · exact Touches.chain (State.rejectFrame_touches ..) (by decide) hx1

theorem State.finalCheck_touches (s : State) (p1 : Frame) :
    Touches Part.main s (State.finalCheck s p1) := by
  unfold State.finalCheck
  extract_lets -merge -underBinder +onlyGivenNames x0
  clear_value x0
  split
  · exact Touches.chain (State.setVerdict_touches ..) (by decide) (Touches.rfl' _ s)
  · extract_lets -merge -underBinder +onlyGivenNames x1
    have hx1 : Touches Part.main s x1 := by
      unfold x1
      refine Touches.ite ?_ ?_
      · exact Touches.chain (State.primarySwitch_touches ..) (by decide) (Touches.rfl' _ s)
      · exact (Touches.rfl' _ s)
    clear_value x1
    split
    · exact hx1
    · refine Touches.ite ?_ ?_
      · refine Touches.ite ?_ ?_
        · refine Touches.chain (State.excuse_touches ..) (by decide) ?_
          exact Touches.chain (State.setVerdict_touches ..) (by decide) hx1
        · exact Touches.chain (State.rejectFrame_touches ..) (by decide) hx1
      · extract_lets -merge -underBinder +onlyGivenNames x2
        have hx2 : Touches Part.main s x2 := by
          unfold x2
          refine Touches.chain (State.releaseFrame_touches ..) (by decide) ?_
          exact Touches.chain (State.acceptFrame_touches ..) (by decide) hx1
        clear_value x2
        exact Touches.chain (State.observe_touches ..) (by decide) hx2

theorem State.localException_touches (s : State) (p1 : Frame) :
    Touches Part.main s (State.localException s p1) := by
  unfold State.localException
  extract_lets -merge -underBinder +onlyGivenNames x0
  have hx0 : Touches Part.main s x0 := by
    unfold x0
    refine Touches.chain (State.tally_touches ..) (by decide) ?_
    refine Touches.chain (State.excuse_touches ..) (by decide) ?_
    exact Touches.chain (State.setVerdict_touches ..) (by decide) (Touches.rfl' _ s)
  clear_value x0
  split
  · exact hx0
  · refine Touches.ite ?_ ?_
    · exact hx0
    · exact Touches.chain (State.acceptFrame_touches ..) (by decide) hx0

theorem execDecryptFinalCheck_touches (p0 : ℕ) (s : State) :
    OutTouches Part.main s (execDecryptFinalCheck p0 s) := by
  unfold execDecryptFinalCheck
  split
  · show Touches _ _ _
    exact Touches.chain (State.endDecItem_touches ..) (by decide) (Touches.rfl' _ s)
  · refine OutTouches.ite ?_ ?_
    · show Touches _ _ _
      exact (Touches.rfl' _ s)
    · extract_lets -merge -underBinder +onlyGivenNames x0
      have hx0 : Touches Part.main s x0 := by
        unfold x0
        exact Touches.chain (State.endDecItem_touches ..) (by decide) (Touches.rfl' _ s)
      clear_value x0
      refine OutTouches.ite ?_ ?_
      · show Touches _ _ _
        exact hx0
      · refine OutTouches.ite ?_ ?_
        · show Touches _ _ _
          exact Touches.chain (State.finalCheck_touches ..) (by decide) hx0
        · refine OutTouches.ite ?_ ?_
          · show Touches _ _ _
            exact Touches.chain (State.localException_touches ..) (by decide) hx0
          · show Touches _ _ _
            exact Touches.chain (State.icvFail_touches ..) (by decide) hx0

theorem State.discardPartial_touches (s : State) (p1 : ℕ) :
    Touches Part.main s (State.discardPartial s p1) := by
  unfold State.discardPartial
  split
  · exact (Touches.rfl' _ s)
  · extract_lets -merge -underBinder +onlyGivenNames x0
    have hx0 : Touches Part.main s x0 := by
      unfold x0
      exact Touches.chain (State.endDecItem_touches ..) (by decide) (Touches.rfl' _ s)
    clear_value x0
    refine Touches.ite ?_ ?_
    · exact Touches.chain (State.localException_touches ..) (by decide) hx0
    · refine Touches.ite ?_ ?_
      · refine Touches.chain (State.notAdmitted_touches ..) (by decide) ?_
        refine Touches.set_sch (x := x0) ?_ (by decide)
        exact hx0
      · refine Touches.chain (State.conveyVerdict_touches ..) (by decide) ?_
        refine Touches.chain (State.modFrame_touches ..) (by decide) ?_
        exact Touches.chain (State.setVerdict_touches ..) (by decide) hx0

theorem State.headerError_touches (s : State) (p1 : ℕ) :
    Touches [.line] s (State.headerError s p1) := by
  unfold State.headerError
  split
  · exact Touches.chain (State.setGroup_touches ..) (by decide) (Touches.rfl' _ s)
  · exact (Touches.rfl' _ s)

theorem State.tribHunt_touches (s : State) (p1 : ℕ) :
    Touches Part.main s (State.tribHunt s p1) := by
  unfold State.tribHunt
  refine Touches.chain (State.setTribRx_touches ..) (by decide) ?_
  exact Touches.chain (State.discardPartial_touches ..) (by decide) (Touches.rfl' _ s)

theorem State.tribLost_touches (s : State) (p1 : ℕ) :
    Touches Part.main s (State.tribLost s p1) := by
  unfold State.tribLost
  refine Touches.chain (State.noteFor_touches ..) (by decide) ?_
  exact Touches.chain (State.tribHunt_touches ..) (by decide) (Touches.rfl' _ s)

theorem execTribHeader_touches (p0 : Fin 512) (p1 : BitVec 32) (p2 : Bool) (p3 : Bool) (s : State) :
    OutTouches Part.main s (execTribHeader p0 p1 p2 p3 s) := by
  unfold execTribHeader
  extract_lets -merge -underBinder +onlyGivenNames x0 x1 x2 x3
  clear_value x0 x1 x2 x3
  refine OutTouches.ite ?_ ?_
  · show Touches _ _ _
    refine Touches.chain (State.tribHunt_touches ..) (by decide) ?_
    exact Touches.chain (State.inputLost_touches ..) (by decide) (Touches.rfl' _ s)
  · refine OutTouches.ite ?_ ?_
    · show Touches _ _ _
      exact (Touches.rfl' _ s)
    · refine OutTouches.ite ?_ ?_
      · show Touches _ _ _
        refine Touches.chain (State.setTribRx_touches ..) (by decide) ?_
        refine Touches.chain (State.tribLost_touches ..) (by decide) ?_
        exact Touches.chain (State.headerError_touches ..) (by decide) (Touches.rfl' _ s)
      · refine OutTouches.ite ?_ ?_
        · refine OutTouches.ite ?_ ?_
          · show Touches _ _ _
            exact Touches.chain (State.setTribRx_touches ..) (by decide) (Touches.rfl' _ s)
          · refine OutTouches.ite ?_ ?_
            · show Touches _ _ _
              exact Touches.chain (State.setTribRx_touches ..) (by decide) (Touches.rfl' _ s)
            · show Touches _ _ _
              refine Touches.chain (State.tribLost_touches ..) (by decide) ?_
              exact Touches.chain (State.headerError_touches ..) (by decide) (Touches.rfl' _ s)
        · show Touches _ _ _
          refine Touches.chain (State.tribLost_touches ..) (by decide) ?_
          exact Touches.chain (State.headerError_touches ..) (by decide) (Touches.rfl' _ s)

theorem execCtxWriteback_touches (p0 : Fin 65536) (s : State) :
    OutTouches Part.main s (execCtxWriteback p0 s) := by
  unfold execCtxWriteback
  show Touches _ _ _
  refine Touches.ite ?_ ?_
  · exact Touches.chain (State.writeBack_touches ..) (by decide) (Touches.rfl' _ s)
  · exact (Touches.rfl' _ s)

theorem execOldHoldExpiry_touches (p0 : Fin 65536) (s : State) :
    OutTouches Part.main s (execOldHoldExpiry p0 s) := by
  unfold execOldHoldExpiry
  extract_lets -merge -underBinder +onlyGivenNames x0
  clear_value x0
  split
  · show Touches _ _ _
    exact (Touches.rfl' _ s)
  · refine OutTouches.ite ?_ ?_
    · show Touches _ _ _
      exact (Touches.rfl' _ s)
    · extract_lets -merge -underBinder +onlyGivenNames x1
      clear_value x1
      extract_lets -merge -underBinder +onlyGivenNames x2
      have hx2 : Touches Part.main s x2 := by
        unfold x2
        exact Touches.chain (State.setCtx_touches ..) (by decide) (Touches.rfl' _ s)
      clear_value x2
      extract_lets -merge -underBinder +onlyGivenNames x3
      have hx3 : Touches Part.main s x3 := by
        unfold x3
        exact Touches.chain (State.eraseSlot_touches ..) (by decide) hx2
      clear_value x3
      extract_lets -merge -underBinder +onlyGivenNames x4
      have hx4 : Touches Part.main s x4 := by
        unfold x4
        exact Touches.chain (State.convey_touches ..) (by decide) hx3
      clear_value x4
      show Touches _ _ _
      exact Touches.chain (State.noteFor_touches ..) (by decide) hx4

theorem State.noteTagFail_touches (s : State) (p1 : ℕ) (p2 : ℕ) :
    Touches [.asc] s (State.noteTagFail s p1 p2) := by
  unfold State.noteTagFail
  split
  · exact (Touches.rfl' _ s)
  · refine Touches.set_asc (x := s) ?_ (by decide)
    exact (Touches.rfl' _ s)

theorem State.conveySheaf_touches (s : State) (p1 : ℕ) (p2 : ℕ) (p3 : ℕ) :
    Touches [.yok, .out] s (State.conveySheaf s p1 p2 p3) := by
  unfold State.conveySheaf
  exact Touches.chain (State.convey_touches ..) (by decide) (Touches.rfl' _ s)

theorem State.cloakTagFailed_touches (s : State) (p1 : ℕ) (p2 : ℕ) :
    Touches [.regs, .cnt, .pow, .led, .hif, .asc, .yok, .out] s (State.cloakTagFailed s p1 p2) := by
  unfold State.cloakTagFailed
  split
  · exact (Touches.rfl' _ s)
  · extract_lets -merge -underBinder +onlyGivenNames x0
    have hx0 : Touches [.regs, .cnt, .pow, .led, .hif, .asc, .yok, .out] s x0 := by
      unfold x0
      exact Touches.chain (State.rxCount_touches ..) (by decide) (Touches.rfl' _ s)
    clear_value x0
    extract_lets -merge -underBinder +onlyGivenNames x1
    clear_value x1
    refine Touches.ite ?_ ?_
    · refine Touches.chain (State.noteFor_touches ..) (by decide) ?_
      exact Touches.chain (State.modCtx_touches ..) (by decide) hx0
    · exact hx0

theorem State.sheafUnserved_touches (s : State) (p1 : ℕ) (p2 : ℕ) (p3 : ℕ) :
    Touches Part.main s (State.sheafUnserved s p1 p2 p3) := by
  unfold State.sheafUnserved
  refine Touches.ite ?_ ?_
  · refine Touches.chain (State.tally_touches ..) (by decide) ?_
    refine Touches.chain (State.tribLost_touches ..) (by decide) ?_
    exact Touches.chain (State.modCtx_touches ..) (by decide) (Touches.rfl' _ s)
  · refine Touches.chain (State.tribLost_touches ..) (by decide) ?_
    refine Touches.chain (State.conveySheaf_touches ..) (by decide) ?_
    refine Touches.chain (State.noteTagFail_touches ..) (by decide) ?_
    exact Touches.chain (State.cloakTagFailed_touches ..) (by decide) (Touches.rfl' _ s)

theorem execCloakSheafReceive_touches (p0 : Fin 512) (p1 : BitVec 48) (p2 : List Byte) (p3 : List Byte) (p4 : Bool) (s : State) :
    OutTouches Part.main s (execCloakSheafReceive p0 p1 p2 p3 p4 s) := by
  unfold execCloakSheafReceive
  extract_lets -merge -underBinder +onlyGivenNames x0 x1
  clear_value x0 x1
  split
  · show Touches _ _ _
    exact (Touches.rfl' _ s)
  · refine OutTouches.ite ?_ ?_
    · show Touches _ _ _
      exact (Touches.rfl' _ s)
    · refine OutTouches.ite ?_ ?_
      · show Touches _ _ _
        refine Touches.chain (State.tribHunt_touches ..) (by decide) ?_
        exact Touches.chain (State.inputLost_touches ..) (by decide) (Touches.rfl' _ s)
      · refine OutTouches.ite ?_ ?_
        · show Touches _ _ _
          refine Touches.chain (State.tribHunt_touches ..) (by decide) ?_
          refine Touches.chain (State.conveySheaf_touches ..) (by decide) ?_
          exact Touches.chain (State.rxCount_touches ..) (by decide) (Touches.rfl' _ s)
        · split
          · extract_lets -merge -underBinder +onlyGivenNames x2
            have hx2 : Touches Part.main s x2 := by
              unfold x2
              refine Touches.chain (State.noteFor_touches ..) (by decide) ?_
              refine Touches.chain (State.conveySheaf_touches ..) (by decide) ?_
              exact Touches.chain (State.modCtx_touches ..) (by decide) (Touches.rfl' _ s)
            clear_value x2
            show Touches _ _ _
            exact Touches.chain (State.tribHunt_touches ..) (by decide) hx2
          · extract_lets -merge -underBinder +onlyGivenNames x3
            clear_value x3
            refine OutTouches.ite ?_ ?_
            · show Touches _ _ _
              refine Touches.chain (State.tribHunt_touches ..) (by decide) ?_
              refine Touches.chain (State.conveySheaf_touches ..) (by decide) ?_
              refine Touches.chain (State.modCtx_touches ..) (by decide) ?_
              exact Touches.chain (State.slotCheckFail_touches ..) (by decide) (Touches.rfl' _ s)
            · extract_lets -merge -underBinder +onlyGivenNames x4
              clear_value x4
              refine OutTouches.ite ?_ ?_
              · show Touches _ _ _
                exact Touches.chain (State.sheafUnserved_touches ..) (by decide) (Touches.rfl' _ s)
              · extract_lets -merge -underBinder +onlyGivenNames x5
                clear_value x5
                extract_lets -merge -underBinder +onlyGivenNames x6
                clear_value x6
                extract_lets -merge -underBinder +onlyGivenNames x7
                have hx7 : Touches Part.main s x7 := by
                  unfold x7
                  exact Touches.chain (State.startItem_touches ..) (by decide) (Touches.rfl' _ s)
                clear_value x7
                extract_lets -merge -underBinder +onlyGivenNames x8
                have hx8 : Touches Part.main s x8 := by
                  unfold x8
                  exact Touches.chain (State.incBy_touches ..) (by decide) hx7
                clear_value x8
                show Touches _ _ _
                refine Touches.set_asc (x := x8) ?_ (by decide)
                exact hx8

theorem State.settleBare_touches (s : State) (p1 : ℕ) (p2 : Bool) :
    Touches [.regs, .cnt, .pow, .led, .hif, .sch, .asc, .yok, .out] s (State.settleBare s p1 p2) := by
  unfold State.settleBare
  extract_lets -merge -underBinder +onlyGivenNames x0 x1 x2
  clear_value x0 x1 x2
  extract_lets -merge -underBinder +onlyGivenNames x3
  have hx3 : Touches [.regs, .cnt, .pow, .led, .hif, .sch, .asc, .yok, .out] s x3 := by
    unfold x3
    refine Touches.set_sch (x := s) ?_ (by decide)
    exact (Touches.rfl' _ s)
  clear_value x3
  extract_lets -merge -underBinder +onlyGivenNames x4
  extract_lets -merge -underBinder +onlyGivenNames x5
  clear_value x5
  extract_lets -merge -underBinder +onlyGivenNames x6
  have hx6 : Touches [.regs, .cnt, .pow, .led, .hif, .sch, .asc, .yok, .out] s x6 := by
    unfold x6
    refine Touches.set_asc (x := x3) ?_ (by decide)
    exact hx3
  clear_value x6
  refine Touches.ite ?_ ?_
  · refine Touches.foldl _ _ ?_ (fun y7 a7 hy7 => ?_)
    · exact hx6
    · exact Touches.chain (State.puntFrame_touches ..) (by decide) hy7
  · exact hx6

theorem State.endCloakItem_touches (s : State) (p1 : ℕ) :
    Touches [.cph, .kvt] s (State.endCloakItem s p1) := by
  unfold State.endCloakItem
  split
  · exact Touches.chain (State.endItem_touches ..) (by decide) (Touches.rfl' _ s)
  · exact (Touches.rfl' _ s)

theorem State.sheafFail_touches (s : State) (p1 : ℕ) (p2 : ℕ) (p3 : ℕ) :
    Touches Part.main s (State.sheafFail s p1 p2 p3) := by
  unfold State.sheafFail
  extract_lets -merge -underBinder +onlyGivenNames x0
  have hx0 : Touches Part.main s x0 := by
    unfold x0
    refine Touches.chain (State.tribLost_touches ..) (by decide) ?_
    exact Touches.chain (State.settleBare_touches ..) (by decide) (Touches.rfl' _ s)
  clear_value x0
  refine Touches.ite ?_ ?_
  · refine Touches.chain (State.tally_touches ..) (by decide) ?_
    exact Touches.chain (State.modCtx_touches ..) (by decide) hx0
  · refine Touches.chain (State.conveySheaf_touches ..) (by decide) ?_
    refine Touches.chain (State.noteTagFail_touches ..) (by decide) ?_
    exact Touches.chain (State.cloakTagFailed_touches ..) (by decide) hx0

theorem execCloakTagCheck_touches (p0 : Fin 512) (s : State) :
    OutTouches Part.main s (execCloakTagCheck p0 s) := by
  unfold execCloakTagCheck
  extract_lets -merge -underBinder +onlyGivenNames x0
  clear_value x0
  split
  · show Touches _ _ _
    exact (Touches.rfl' _ s)
  · extract_lets -merge -underBinder +onlyGivenNames x1
    clear_value x1
    extract_lets -merge -underBinder +onlyGivenNames x2
    clear_value x2
    extract_lets -merge -underBinder +onlyGivenNames x3
    have hx3 : Touches Part.main s x3 := by
      unfold x3
      refine Touches.set_asc (x := s) ?_ (by decide)
      exact (Touches.rfl' _ s)
    clear_value x3
    extract_lets -merge -underBinder +onlyGivenNames x4
    have hx4 : Touches Part.main s x4 := by
      unfold x4
      exact Touches.chain (State.endCloakItem_touches ..) (by decide) hx3
    clear_value x4
    refine OutTouches.ite ?_ ?_
    · show Touches _ _ _
      refine Touches.chain (State.settleBare_touches ..) (by decide) ?_
      exact Touches.chain (State.modCtx_touches ..) (by decide) hx4
    · show Touches _ _ _
      exact Touches.chain (State.sheafFail_touches ..) (by decide) hx4

end Sys2Proof.Machine
end

