-- ==== Sys2Proof/Laws/TouchTimeOps.lean ====
section
/-! SUPPORT. What each operation of Machine/TimeOps.lean may touch. -/

namespace Sys2Proof.Machine

open Sys2Proof

theorem State.setChan_touches (s : State) (p1 : ℕ) (p2 : Channel → Channel) :
    Touches [.tim] s (State.setChan s p1 p2) := by
  unfold State.setChan
  refine Touches.set_tim (x := s) ?_ (by decide)
  exact (Touches.rfl' _ s)

theorem State.advanceTime_touches (s : State) (p1 : ℕ) :
    Touches [.tim] s (State.advanceTime s p1) := by
  unfold State.advanceTime
  extract_lets -merge -underBinder +onlyGivenNames x0
  clear_value x0
  refine Touches.set_tim (x := s) ?_ (by decide)
  exact (Touches.rfl' _ s)

theorem State.takeMap_touches (s : State) (p1 : ℕ) (p2 : ℕ) :
    Touches [.regs, .cnt, .pow, .led, .hif, .tim, .sch, .yok, .out] s (State.takeMap s p1 p2) := by
  unfold State.takeMap
  extract_lets -merge -underBinder +onlyGivenNames x0 x1
  clear_value x0 x1
  extract_lets -merge -underBinder +onlyGivenNames x2
  have hx2 : Touches [.regs, .cnt, .pow, .led, .hif, .tim, .sch, .yok, .out] s x2 := by
    unfold x2
    exact Touches.chain (State.setChan_touches ..) (by decide) (Touches.rfl' _ s)
  clear_value x2
  refine Touches.ite ?_ ?_
  · refine Touches.ite ?_ ?_
    · exact hx2
    · exact Touches.chain (State.gatesResume_touches ..) (by decide) hx2
  · refine Touches.ite ?_ ?_
    · refine Touches.chain (State.gatesResume_touches ..) (by decide) ?_
      exact Touches.chain (State.gatesLost_touches ..) (by decide) hx2
    · exact hx2

theorem State.blockMaps_touches (s : State) (p1 : ℕ) :
    Touches [.regs, .cnt, .pow, .led, .hif, .tim, .sch, .yok, .out] s (State.blockMaps s p1) := by
  unfold State.blockMaps
  refine Touches.foldl _ _ ?_ (fun y0 a0 hy0 => ?_)
  · exact (Touches.rfl' _ s)
  · refine Touches.ite ?_ ?_
    · exact Touches.chain (State.takeMap_touches ..) (by decide) hy0
    · refine Touches.ite ?_ ?_
      · exact hy0
      · refine Touches.ite ?_ ?_
        · exact Touches.chain (State.setChan_touches ..) (by decide) hy0
        · extract_lets -merge -underBinder +onlyGivenNames x1
          have hx1 : Touches [.regs, .cnt, .pow, .led, .hif, .tim, .sch, .yok, .out] s x1 := by
            unfold x1
            exact Touches.chain (State.setChan_touches ..) (by decide) hy0
          clear_value x1
          split
          · refine Touches.ite ?_ ?_
            · exact Touches.chain (State.convey_touches ..) (by decide) hx1
            · exact hx1
          · exact hx1

end Sys2Proof.Machine
end

