-- ==== Sys2Proof/Laws/TouchFramer.lean ====
section
/-! SUPPORT. What each operation of Machine/Framer.lean may touch. -/

namespace Sys2Proof.Machine

open Sys2Proof

set_option linter.unusedTactic false
set_option linter.unreachableTactic false

theorem State.sheafStall_touches (s : State) :
    Touches Part.main s (State.sheafStall s) := by
  unfold State.sheafStall
  refine Touches.ite ?_ ?_
  · exact (Touches.rfl' _ s)
  · refine Touches.chain (State.raise_touches ..) (by decide) ?_
    refine Touches.set_line (x := s) ?_ (by decide)
    exact (Touches.rfl' _ s)

theorem State.storeSheafMark_touches (s : State) (p1 : ℕ) :
    Touches Part.main s (State.storeSheafMark s p1) := by
  unfold State.storeSheafMark
  refine Touches.ite ?_ ?_
  · exact Touches.chain (State.sheafStall_touches ..) (by decide) (Touches.rfl' _ s)
  · split
    rename_i v0 v1 v2 e3
    have hv1 : Touches Part.main s v1 := by
      refine Touches.ofFst e3 ?_
      exact Touches.chain (State.requestStore_touches ..) (by decide) (Touches.rfl' _ s)
    refine Touches.ite ?_ ?_
    · refine Touches.chain (State.conveyMark_touches ..) (by decide) ?_
      refine Touches.set_line (x := v1) ?_ (by decide)
      exact hv1
    · exact hv1

theorem State.askSheafMark_touches (s : State) :
    Touches Part.main s (State.askSheafMark s) := by
  unfold State.askSheafMark
  extract_lets -merge -underBinder +onlyGivenNames x0
  clear_value x0
  refine Touches.ite ?_ ?_
  · exact (Touches.rfl' _ s)
  · exact Touches.chain (State.storeSheafMark_touches ..) (by decide) (Touches.rfl' _ s)

theorem State.sheafMarkInForce_touches (s : State) (p1 : ℕ) :
    Touches [.line] s (State.sheafMarkInForce s p1) := by
  unfold State.sheafMarkInForce
  extract_lets -merge -underBinder +onlyGivenNames x0 x1
  clear_value x0 x1
  refine Touches.set_line (x := s) ?_ (by decide)
  exact (Touches.rfl' _ s)

theorem State.sheafMarkDurable_touches (s : State) (p1 : ℕ) :
    Touches [.mram, .line, .yok, .out] s (State.sheafMarkDurable s p1) := by
  unfold State.sheafMarkDurable
  extract_lets -merge -underBinder +onlyGivenNames x0 x1 x2
  clear_value x0 x1 x2
  extract_lets -merge -underBinder +onlyGivenNames x3
  have hx3 : Touches [.mram, .line, .yok, .out] s x3 := by
    unfold x3
    apply Touches.put (x := s)
    · and_intros <;> first | exact .inr (by decide) | exact .inl rfl | exact SMap.wf_set _ _ _ _ | exact SMap.wf_dropRange _ _ _ _ | exact SMap.wf_filter _ _ _ | exact fun h => by rw [Ledger.reset_log]; exact h | exact id | exact fun _ => rfl
    · exact (Touches.rfl' _ s)
  clear_value x3
  refine Touches.chain (State.dropMarks_touches ..) (by decide) ?_
  refine Touches.ite ?_ ?_
  · exact hx3
  · exact Touches.chain (State.sheafMarkInForce_touches ..) (by decide) hx3

theorem State.resumeSheaf_touches (s : State) :
    Touches Part.main s (State.resumeSheaf s) := by
  unfold State.resumeSheaf
  extract_lets -merge -underBinder +onlyGivenNames x0 x1 x2
  clear_value x0 x1 x2
  extract_lets -merge -underBinder +onlyGivenNames x3
  have hx3 : Touches Part.main s x3 := by
    unfold x3
    refine Touches.set_line (x := s) ?_ (by decide)
    exact (Touches.rfl' _ s)
  clear_value x3
  refine Touches.ite ?_ ?_
  · exact hx3
  · exact Touches.chain (State.storeSheafMark_touches ..) (by decide) hx3

theorem State.sendTrib_touches (s : State) (p1 : ℕ) (p2 : ℕ) :
    Touches [.asc, .cph, .kvt, .yok, .out] s (State.sendTrib s p1 p2) := by
  unfold State.sendTrib
  split
  extract_lets -merge -underBinder +onlyGivenNames x0
  extract_lets -merge -underBinder +onlyGivenNames x1
  have hx1 : Touches [.asc, .cph, .kvt, .yok, .out] s x1 := by
    unfold x1
    refine Touches.set_asc (x := s) ?_ (by decide)
    exact (Touches.rfl' _ s)
  extract_lets -merge -underBinder +onlyGivenNames x2
  have hx2 : Touches [.asc, .cph, .kvt, .yok, .out] s x2 := by
    unfold x2
    split
    · exact Touches.chain (State.endItem_touches ..) (by decide) hx1
    · exact hx1
  refine Touches.ite ?_ ?_
  · exact Touches.chain (State.excuse_touches ..) (by decide) hx2
  · extract_lets -merge -underBinder +onlyGivenNames x3
    have hx3 : Touches [.asc, .cph, .kvt, .yok, .out] s x3 := by
      unfold x3
      refine Touches.ite ?_ ?_
      · exact Touches.chain (State.emit_touches ..) (by decide) hx2
      · exact hx2
    clear_value x3
    extract_lets -merge -underBinder +onlyGivenNames x4
    have hx4 : Touches [.asc, .cph, .kvt, .yok, .out] s x4 := by
      unfold x4
      split
      · extract_lets -merge -underBinder +onlyGivenNames x5
        clear_value x5
        refine Touches.ite ?_ ?_
        · exact Touches.chain (State.emit_touches ..) (by decide) hx3
        · exact hx3
      · exact hx3
    clear_value x4
    refine Touches.ite ?_ ?_
    · exact Touches.chain (State.digest_touches ..) (by decide) hx4
    · exact Touches.chain (State.excuse_touches ..) (by decide) hx4

theorem State.endSheaf_touches (s : State) :
    Touches [.line, .asc, .cph, .kvt, .yok, .out] s (State.endSheaf s) := by
  unfold State.endSheaf
  refine Touches.ite ?_ ?_
  · exact (Touches.rfl' _ s)
  · extract_lets -merge -underBinder +onlyGivenNames x0
    clear_value x0
    extract_lets -merge -underBinder +onlyGivenNames x1
    have hx1 : Touches [.line, .asc, .cph, .kvt, .yok, .out] s x1 := by
      unfold x1
      refine Touches.foldl _ _ ?_ (fun y2 a2 hy2 => ?_)
      · exact (Touches.rfl' _ s)
      · refine Touches.foldl _ _ ?_ (fun y3 a3 hy3 => ?_)
        · exact hy2
        · exact Touches.chain (State.sendTrib_touches ..) (by decide) hy3
    clear_value x1
    extract_lets -merge -underBinder +onlyGivenNames x4
    clear_value x4
    extract_lets -merge -underBinder +onlyGivenNames x5
    have hx5 : Touches [.line, .asc, .cph, .kvt, .yok, .out] s x5 := by
      unfold x5
      refine Touches.ite ?_ ?_
      · exact hx1
      · refine Touches.foldl _ _ ?_ (fun y6 a6 hy6 => ?_)
        · exact hx1
        · exact Touches.chain (State.emit_touches ..) (by decide) hy6
    clear_value x5
    apply Touches.put (x := x5)
    · and_intros <;> first | exact .inr (by decide) | exact .inl rfl | exact SMap.wf_set _ _ _ _ | exact SMap.wf_dropRange _ _ _ _ | exact SMap.wf_filter _ _ _ | exact fun h => by rw [Ledger.reset_log]; exact h | exact id | exact fun _ => rfl
    · exact hx5

theorem State.dropTribs_touches (s : State) (p1 : List ℕ) :
    Touches [.line, .sch, .asc, .yok, .out] s (State.dropTribs s p1) := by
  unfold State.dropTribs
  refine Touches.foldl _ _ ?_ (fun y0 a0 hy0 => ?_)
  · exact (Touches.rfl' _ s)
  · extract_lets -merge -underBinder +onlyGivenNames x1
    clear_value x1
    extract_lets -merge -underBinder +onlyGivenNames x2
    have hx2 : Touches [.line, .sch, .asc, .yok, .out] s x2 := by
      unfold x2
      refine Touches.ite ?_ ?_
      · exact hy0
      · refine Touches.chain (State.excuse_touches ..) (by decide) ?_
        refine Touches.chain (State.tally_touches ..) (by decide) ?_
        exact Touches.chain (State.emit_touches ..) (by decide) hy0
    clear_value x2
    extract_lets -merge -underBinder +onlyGivenNames x3
    have hx3 : Touches [.line, .sch, .asc, .yok, .out] s x3 := by
      unfold x3
      split
      · refine Touches.set_sch (x := x2) ?_ (by decide)
        exact hx2
      · exact hx2
    clear_value x3
    refine Touches.set_asc (x := x3) ?_ (by decide)
    exact hx3

theorem State.sheafSwaps_touches (s : State) (p1 : ℕ) :
    Touches [.regs, .cnt, .pow, .led, .hif, .line, .rows, .sch, .asc, .yok, .out] s (State.sheafSwaps s p1) := by
  unfold State.sheafSwaps
  extract_lets -merge -underBinder +onlyGivenNames x0
  clear_value x0
  extract_lets -merge -underBinder +onlyGivenNames x1
  have hx1 : Touches [.regs, .cnt, .pow, .led, .hif, .line, .rows, .sch, .asc, .yok, .out] s x1 := by
    unfold x1
    exact Touches.chain (State.swapsDue_touches ..) (by decide) (Touches.rfl' _ s)
  clear_value x1
  extract_lets -merge -underBinder +onlyGivenNames x2
  clear_value x2
  exact Touches.chain (State.dropTribs_touches ..) (by decide) hx1

theorem State.flipNow_touches (s : State) (p1 : ℕ) (p2 : ℕ) (p3 : ℕ) :
    Touches [.regs, .cnt, .pow, .led, .hif, .rows, .asc, .kvt, .yok, .out] s (State.flipNow s p1 p2 p3) := by
  unfold State.flipNow
  extract_lets -merge -underBinder +onlyGivenNames x0
  have hx0 : Touches [.regs, .cnt, .pow, .led, .hif, .rows, .asc, .kvt, .yok, .out] s x0 := by
    unfold x0
    exact Touches.chain (State.setPages_touches ..) (by decide) (Touches.rfl' _ s)
  clear_value x0
  extract_lets -merge -underBinder +onlyGivenNames x1
  have hx1 : Touches [.regs, .cnt, .pow, .led, .hif, .rows, .asc, .kvt, .yok, .out] s x1 := by
    unfold x1
    split
    · refine Touches.chain (State.noteFor_touches ..) (by decide) ?_
      exact Touches.chain (State.setCtx_touches ..) (by decide) hx0
    · exact hx0
  clear_value x1
  split
  · refine Touches.chain (State.ascEnd_touches ..) (by decide) ?_
    exact Touches.chain (State.endRun_touches ..) (by decide) hx1
  · exact hx1

theorem State.sheafFlips_touches (s : State) (p1 : ℕ) (p2 : List ℕ) :
    Touches [.regs, .cnt, .pow, .led, .hif, .rows, .asc, .kvt, .yok, .out] s (State.sheafFlips s p1 p2) := by
  unfold State.sheafFlips
  refine Touches.foldl _ _ ?_ (fun y0 a0 hy0 => ?_)
  · exact (Touches.rfl' _ s)
  · split
    · refine Touches.ite ?_ ?_
      · exact Touches.chain (State.flipNow_touches ..) (by decide) hy0
      · exact hy0
    · exact hy0

theorem State.cloakAssign_touches (s : State) :
    Touches Part.main s (State.cloakAssign s) := by
  unfold State.cloakAssign
  extract_lets -merge -underBinder +onlyGivenNames x0
  extract_lets -merge -underBinder +onlyGivenNames x1 x2 x3 x4 x5
  clear_value x1 x2 x3 x4 x5
  extract_lets -merge -underBinder +onlyGivenNames x6
  have hx6 : Touches Part.main s x6 := by
    unfold x6
    refine Touches.set_asc (x := s) ?_ (by decide)
    exact (Touches.rfl' _ s)
  clear_value x6
  refine Touches.ite ?_ ?_
  · exact Touches.chain (State.raise_touches ..) (by decide) hx6
  · exact hx6

theorem State.startCloak_touches (s : State) (p1 : ℕ × List ℕ) (p2 : ℕ) :
    Touches Part.main s (State.startCloak s p1 p2) := by
  unfold State.startCloak
  split
  · extract_lets -merge -underBinder +onlyGivenNames x0
    clear_value x0
    refine Touches.ite ?_ ?_
    · refine Touches.chain (State.incBy_touches ..) (by decide) ?_
      exact Touches.chain (State.startItem_touches ..) (by decide) (Touches.rfl' _ s)
    · refine Touches.set_yok (x := s) ?_ (by decide)
      exact (Touches.rfl' _ s)
  · exact (Touches.rfl' _ s)

theorem State.startCloaks_touches (s : State) :
    Touches Part.main s (State.startCloaks s) := by
  unfold State.startCloaks
  refine Touches.foldl _ _ ?_ (fun y0 a0 hy0 => ?_)
  · exact (Touches.rfl' _ s)
  · refine Touches.ite ?_ ?_
    · exact Touches.chain (State.excuse_touches ..) (by decide) hy0
    · exact Touches.chain (State.startCloak_touches ..) (by decide) hy0

theorem State.keepTimeTx_touches (s : State) (p1 : ℕ) :
    Touches [.tim] s (State.keepTimeTx s p1) := by
  unfold State.keepTimeTx
  refine Touches.ite ?_ ?_
  · extract_lets -merge -underBinder +onlyGivenNames x0
    refine Touches.set_tim (x := s) ?_ (by decide)
    exact (Touches.rfl' _ s)
  · exact (Touches.rfl' _ s)

theorem State.sendHeadlands_touches (s : State) (p1 : List ℕ) (p2 : ℕ) :
    Touches [.tim, .line, .yok, .out] s (State.sendHeadlands s p1 p2) := by
  unfold State.sendHeadlands
  extract_lets -merge -underBinder +onlyGivenNames x0
  clear_value x0
  extract_lets -merge -underBinder +onlyGivenNames x1
  have hx1 : Touches [.tim, .line, .yok, .out] s x1 := by
    unfold x1
    exact Touches.chain (State.keepTimeTx_touches ..) (by decide) (Touches.rfl' _ s)
  clear_value x1
  refine Touches.ite ?_ ?_
  · exact Touches.chain (State.excuse_touches ..) (by decide) hx1
  · extract_lets -merge -underBinder +onlyGivenNames x2
    have hx2 : Touches [.tim, .line, .yok, .out] s x2 := by
      unfold x2
      refine Touches.foldl _ _ ?_ (fun y3 a3 hy3 => ?_)
      · exact hx1
      · refine Touches.chain (State.emit_touches ..) (by decide) ?_
        refine Touches.set_line (x := y3) ?_ (by decide)
        exact hy3
    clear_value x2
    exact Touches.chain (State.digest_touches ..) (by decide) hx2

theorem State.nextInterval_touches (s : State) (p1 : ℕ) :
    Touches [.yok] s (State.nextInterval s p1) := by
  unfold State.nextInterval
  refine Touches.ite ?_ ?_
  · refine Touches.set_yok (x := s) ?_ (by decide)
    exact (Touches.rfl' _ s)
  · exact (Touches.rfl' _ s)

theorem State.beginSheaf_touches (s : State) (p1 : ℕ) (p2 : List ℕ) :
    Touches Part.main s (State.beginSheaf s p1 p2) := by
  unfold State.beginSheaf
  extract_lets -merge -underBinder +onlyGivenNames x0
  clear_value x0
  extract_lets -merge -underBinder +onlyGivenNames x1
  have hx1 : Touches Part.main s x1 := by
    unfold x1
    refine Touches.set_line (x := s) ?_ (by decide)
    exact (Touches.rfl' _ s)
  clear_value x1
  extract_lets -merge -underBinder +onlyGivenNames x2
  have hx2 : Touches Part.main s x2 := by
    unfold x2
    exact Touches.chain (State.nextInterval_touches ..) (by decide) hx1
  clear_value x2
  extract_lets -merge -underBinder +onlyGivenNames x3
  clear_value x3
  extract_lets -merge -underBinder +onlyGivenNames x4
  have hx4 : Touches Part.main s x4 := by
    unfold x4
    refine Touches.chain (State.sheafFlips_touches ..) (by decide) ?_
    exact Touches.chain (State.sheafSwaps_touches ..) (by decide) hx2
  clear_value x4
  extract_lets -merge -underBinder +onlyGivenNames x5
  have hx5 : Touches Part.main s x5 := by
    unfold x5
    refine Touches.chain (State.startCloaks_touches ..) (by decide) ?_
    refine Touches.chain (State.cloakAssign_touches ..) (by decide) ?_
    refine Touches.chain (State.blockMaps_touches ..) (by decide) ?_
    exact Touches.chain (State.evalPairs_touches ..) (by decide) hx4
  clear_value x5
  extract_lets -merge -underBinder +onlyGivenNames x6
  have hx6 : Touches Part.main s x6 := by
    unfold x6
    refine Touches.foldl _ _ ?_ (fun y7 a7 hy7 => ?_)
    · exact hx5
    · exact Touches.chain (State.sendHeadlands_touches ..) (by decide) hy7
  clear_value x6
  exact Touches.chain (State.askSheafMark_touches ..) (by decide) hx6

theorem execSheafStart_touches (p0 : List ℕ) (s : State) :
    OutTouches Part.main s (execSheafStart p0 s) := by
  unfold execSheafStart
  refine OutTouches.ite ?_ ?_
  · show Touches _ _ _
    exact (Touches.rfl' _ s)
  · extract_lets -merge -underBinder +onlyGivenNames x0
    have hx0 : Touches Part.main s x0 := by
      unfold x0
      exact Touches.chain (State.endSheaf_touches ..) (by decide) (Touches.rfl' _ s)
    clear_value x0
    refine OutTouches.ite ?_ ?_
    · show Touches _ _ _
      refine Touches.ite ?_ ?_
      · exact hx0
      · exact Touches.chain (State.storeSheafMark_touches ..) (by decide) hx0
    · refine OutTouches.ite ?_ ?_
      · show Touches _ _ _
        exact Touches.chain (State.sheafStall_touches ..) (by decide) hx0
      · show Touches _ _ _
        exact Touches.chain (State.beginSheaf_touches ..) (by decide) hx0

theorem State.declareLoa_touches (s : State) (p1 : ℕ) :
    Touches [.regs, .cnt, .pow, .led, .hif, .line, .yok, .out] s (State.declareLoa s p1) := by
  unfold State.declareLoa
  extract_lets -merge -underBinder +onlyGivenNames x0
  have hx0 : Touches [.regs, .cnt, .pow, .led, .hif, .line, .yok, .out] s x0 := by
    unfold x0
    exact Touches.chain (State.touchLane_touches ..) (by decide) (Touches.rfl' _ s)
  clear_value x0
  refine Touches.chain (State.noteFor_touches ..) (by decide) ?_
  exact Touches.chain (State.setFlg_touches ..) (by decide) hx0

theorem State.reachSync_touches (s : State) (p1 : ℕ) :
    Touches [.regs, .cnt, .pow, .led, .hif, .line, .yok, .out] s (State.reachSync s p1) := by
  unfold State.reachSync
  extract_lets -merge -underBinder +onlyGivenNames x0
  clear_value x0
  extract_lets -merge -underBinder +onlyGivenNames x1
  have hx1 : Touches [.regs, .cnt, .pow, .led, .hif, .line, .yok, .out] s x1 := by
    unfold x1
    exact Touches.chain (State.setLane_touches ..) (by decide) (Touches.rfl' _ s)
  clear_value x1
  refine Touches.ite ?_ ?_
  · exact Touches.chain (State.noteFor_touches ..) (by decide) hx1
  · exact hx1

theorem State.presyncHead_touches (s : State) (p1 : ℕ) (p2 : ℕ) (p3 : List Byte) :
    Touches [.regs, .cnt, .pow, .led, .hif, .line, .yok, .out] s (State.presyncHead s p1 p2 p3) := by
  unfold State.presyncHead
  extract_lets -merge -underBinder +onlyGivenNames x0
  clear_value x0
  refine Touches.ite ?_ ?_
  · extract_lets -merge -underBinder +onlyGivenNames x1
    have hx1 : Touches [.regs, .cnt, .pow, .led, .hif, .line, .yok, .out] s x1 := by
      unfold x1
      exact Touches.chain (State.setLane_touches ..) (by decide) (Touches.rfl' _ s)
    clear_value x1
    refine Touches.ite ?_ ?_
    · exact Touches.chain (State.reachSync_touches ..) (by decide) hx1
    · exact hx1
  · exact Touches.chain (State.setLane_touches ..) (by decide) (Touches.rfl' _ s)

theorem State.followNumber_touches (s : State) (p1 : ℕ) (p2 : ℕ) :
    Touches [.regs, .cnt, .pow, .led, .hif, .line, .yok, .out] s (State.followNumber s p1 p2) := by
  unfold State.followNumber
  extract_lets -merge -underBinder +onlyGivenNames x0
  clear_value x0
  refine Touches.ite ?_ ?_
  · exact Touches.chain (State.setLane_touches ..) (by decide) (Touches.rfl' _ s)
  · refine Touches.chain (State.noteFor_touches ..) (by decide) ?_
    exact Touches.chain (State.setLane_touches ..) (by decide) (Touches.rfl' _ s)

theorem State.headTrace_touches (s : State) (p1 : ℕ) (p2 : List Byte) :
    Touches [.regs, .cnt, .pow, .led, .hif, .line, .yok, .out] s (State.headTrace s p1 p2) := by
  unfold State.headTrace
  extract_lets -merge -underBinder +onlyGivenNames x0 x1 x2 x3 x4 x5 x6 x7 x8 x9
  clear_value x0 x1 x2 x3 x4 x5 x6 x7 x8 x9
  extract_lets -merge -underBinder +onlyGivenNames x10
  have hx10 : Touches [.regs, .cnt, .pow, .led, .hif, .line, .yok, .out] s x10 := by
    unfold x10
    exact Touches.chain (State.wr_touches ..) (by decide) (Touches.rfl' _ s)
  clear_value x10
  extract_lets -merge -underBinder +onlyGivenNames x11
  have hx11 : Touches [.regs, .cnt, .pow, .led, .hif, .line, .yok, .out] s x11 := by
    unfold x11
    exact Touches.chain (State.setGroup_touches ..) (by decide) hx10
  clear_value x11
  extract_lets -merge -underBinder +onlyGivenNames x12
  clear_value x12
  extract_lets -merge -underBinder +onlyGivenNames x13
  have hx13 : Touches [.regs, .cnt, .pow, .led, .hif, .line, .yok, .out] s x13 := by
    unfold x13
    refine Touches.ite ?_ ?_
    · exact Touches.chain (State.noteFor_touches ..) (by decide) hx11
    · exact hx11
  clear_value x13
  refine Touches.ite ?_ ?_
  · exact Touches.chain (State.noteFor_touches ..) (by decide) hx13
  · exact hx13

theorem State.headFarEnd_touches (s : State) (p1 : ℕ) (p2 : ℕ) (p3 : List Byte) :
    Touches [.line] s (State.headFarEnd s p1 p2 p3) := by
  unfold State.headFarEnd
  extract_lets -merge -underBinder +onlyGivenNames x0
  have hx0 : Touches [.line] s x0 := by
    unfold x0
    exact Touches.chain (State.setGroup_touches ..) (by decide) (Touches.rfl' _ s)
  clear_value x0
  refine Touches.ite ?_ ?_
  · exact Touches.chain (State.setGroup_touches ..) (by decide) hx0
  · exact hx0

theorem State.headCloak_touches (s : State) (p1 : ℕ) (p2 : ℕ) (p3 : ℕ) (p4 : List Byte) :
    Touches [.line] s (State.headCloak s p1 p2 p3 p4) := by
  unfold State.headCloak
  extract_lets -merge -underBinder +onlyGivenNames x0
  clear_value x0
  extract_lets -merge -underBinder +onlyGivenNames x1
  have hx1 : Touches [.line] s x1 := by
    unfold x1
    exact Touches.chain (State.setLane_touches ..) (by decide) (Touches.rfl' _ s)
  clear_value x1
  exact Touches.chain (State.setGroup_touches ..) (by decide) hx1

theorem State.checkIndices_touches (s : State) (p1 : ℕ) :
    Touches Part.note s (State.checkIndices s p1) := by
  unfold State.checkIndices
  extract_lets -merge -underBinder +onlyGivenNames x0
  clear_value x0
  refine Touches.ite ?_ ?_
  · exact (Touches.rfl' _ s)
  · extract_lets -merge -underBinder +onlyGivenNames x1
    clear_value x1
    extract_lets -merge -underBinder +onlyGivenNames x2
    extract_lets -merge -underBinder +onlyGivenNames x3
    clear_value x3
    refine Touches.foldl _ _ ?_ (fun y4 a4 hy4 => ?_)
    · exact (Touches.rfl' _ s)
    · exact Touches.chain (State.noteFor_touches ..) (by decide) hy4

theorem State.rxSwapNow_touches (s : State) (p1 : ℕ) (p2 : ℕ) :
    Touches [.regs, .cnt, .pow, .led, .hif, .rows, .yok, .out] s (State.rxSwapNow s p1 p2) := by
  unfold State.rxSwapNow
  extract_lets -merge -underBinder +onlyGivenNames x0
  have hx0 : Touches [.regs, .cnt, .pow, .led, .hif, .rows, .yok, .out] s x0 := by
    unfold x0
    exact Touches.chain (State.setPages_touches ..) (by decide) (Touches.rfl' _ s)
  clear_value x0
  extract_lets -merge -underBinder +onlyGivenNames x1
  have hx1 : Touches [.regs, .cnt, .pow, .led, .hif, .rows, .yok, .out] s x1 := by
    unfold x1
    exact Touches.chain (State.note_touches ..) (by decide) hx0
  clear_value x1
  exact Touches.chain (State.convey_touches ..) (by decide) hx1

theorem State.rxSwapDue_touches (s : State) (p1 : ℕ) (p2 : ℕ) :
    Touches [.regs, .cnt, .pow, .led, .hif, .rows, .yok, .out] s (State.rxSwapDue s p1 p2) := by
  unfold State.rxSwapDue
  extract_lets -merge -underBinder +onlyGivenNames x0
  clear_value x0
  split
  · refine Touches.ite ?_ ?_
    · exact Touches.chain (State.rxSwapNow_touches ..) (by decide) (Touches.rfl' _ s)
    · exact (Touches.rfl' _ s)
  · exact (Touches.rfl' _ s)

theorem State.headSwap_touches (s : State) (p1 : ℕ) (p2 : ℕ) (p3 : List Byte) :
    Touches [.regs, .cnt, .pow, .led, .hif, .rows, .yok, .out] s (State.headSwap s p1 p2 p3) := by
  unfold State.headSwap
  extract_lets -merge -underBinder +onlyGivenNames x0 x1
  clear_value x0 x1
  refine Touches.ite ?_ ?_
  · exact (Touches.rfl' _ s)
  · refine Touches.ite ?_ ?_
    · refine Touches.ite ?_ ?_
      · exact (Touches.rfl' _ s)
      · extract_lets -merge -underBinder +onlyGivenNames x2
        have hx2 : Touches [.regs, .cnt, .pow, .led, .hif, .rows, .yok, .out] s x2 := by
          unfold x2
          exact Touches.chain (State.setPages_touches ..) (by decide) (Touches.rfl' _ s)
        clear_value x2
        refine Touches.ite ?_ ?_
        · exact hx2
        · exact Touches.chain (State.noteFor_touches ..) (by decide) hx2
    · refine Touches.ite ?_ ?_
      · refine Touches.chain (State.noteFor_touches ..) (by decide) ?_
        exact Touches.chain (State.rxSwapNow_touches ..) (by decide) (Touches.rfl' _ s)
      · exact (Touches.rfl' _ s)

theorem State.headMap_touches (s : State) (p1 : ℕ) (p2 : List Byte) :
    Touches [.regs, .cnt, .pow, .led, .hif, .rows, .yok, .out] s (State.headMap s p1 p2) := by
  unfold State.headMap
  extract_lets -merge -underBinder +onlyGivenNames x0 x1 x2 x3 x4 x5
  clear_value x0 x1 x2 x3 x4 x5
  extract_lets -merge -underBinder +onlyGivenNames x6
  have hx6 : Touches [.regs, .cnt, .pow, .led, .hif, .rows, .yok, .out] s x6 := by
    unfold x6
    exact Touches.chain (State.setPages_touches ..) (by decide) (Touches.rfl' _ s)
  clear_value x6
  refine Touches.ite ?_ ?_
  · exact Touches.chain (State.noteFor_touches ..) (by decide) hx6
  · exact hx6

theorem State.apsAccept_touches (s : State) (p1 : ℕ) (p2 : ApsSet) (p3 : ℕ) :
    Touches [.regs, .cnt, .pow, .led, .hif, .rows, .yok, .out] s (State.apsAccept s p1 p2 p3) := by
  unfold State.apsAccept
  extract_lets -merge -underBinder +onlyGivenNames x0 x1
  clear_value x0 x1
  extract_lets -merge -underBinder +onlyGivenNames x2
  have hx2 : Touches [.regs, .cnt, .pow, .led, .hif, .rows, .yok, .out] s x2 := by
    unfold x2
    exact Touches.chain (State.setPair_touches ..) (by decide) (Touches.rfl' _ s)
  clear_value x2
  extract_lets -merge -underBinder +onlyGivenNames x3
  have hx3 : Touches [.regs, .cnt, .pow, .led, .hif, .rows, .yok, .out] s x3 := by
    unfold x3
    exact Touches.chain (State.wr_touches ..) (by decide) hx2
  clear_value x3
  refine Touches.ite ?_ ?_
  · exact Touches.chain (State.note_touches ..) (by decide) hx3
  · exact hx3

theorem State.headAps_touches (s : State) (p1 : ℕ) (p2 : List Byte) :
    Touches [.regs, .cnt, .pow, .led, .hif, .rows, .yok, .out] s (State.headAps s p1 p2) := by
  unfold State.headAps
  split
  · exact (Touches.rfl' _ s)
  · refine Touches.ite ?_ ?_
    · exact (Touches.rfl' _ s)
    · extract_lets -merge -underBinder +onlyGivenNames x0
      clear_value x0
      extract_lets -merge -underBinder +onlyGivenNames x1
      clear_value x1
      refine Touches.ite ?_ ?_
      · extract_lets -merge -underBinder +onlyGivenNames x2
        clear_value x2
        extract_lets -merge -underBinder +onlyGivenNames x3
        have hx3 : Touches [.regs, .cnt, .pow, .led, .hif, .rows, .yok, .out] s x3 := by
          unfold x3
          exact Touches.chain (State.setPair_touches ..) (by decide) (Touches.rfl' _ s)
        clear_value x3
        refine Touches.ite ?_ ?_
        · exact Touches.chain (State.apsAccept_touches ..) (by decide) hx3
        · exact hx3
      · extract_lets -merge -underBinder +onlyGivenNames x4
        have hx4 : Touches [.regs, .cnt, .pow, .led, .hif, .rows, .yok, .out] s x4 := by
          unfold x4
          exact Touches.chain (State.setPair_touches ..) (by decide) (Touches.rfl' _ s)
        clear_value x4
        refine Touches.ite ?_ ?_
        · exact hx4
        · exact Touches.chain (State.note_touches ..) (by decide) hx4

theorem State.headSkew_touches (s : State) (p1 : ℕ) :
    Touches [.regs, .cnt, .pow, .led, .hif, .rows, .yok, .out] s (State.headSkew s p1) := by
  unfold State.headSkew
  split
  · exact (Touches.rfl' _ s)
  · split
    · extract_lets -merge -underBinder +onlyGivenNames x0
      clear_value x0
      extract_lets -merge -underBinder +onlyGivenNames x1 x2 x3 x4
      clear_value x1 x2 x3 x4
      extract_lets -merge -underBinder +onlyGivenNames x5
      have hx5 : Touches [.regs, .cnt, .pow, .led, .hif, .rows, .yok, .out] s x5 := by
        unfold x5
        exact Touches.chain (State.setPair_touches ..) (by decide) (Touches.rfl' _ s)
      clear_value x5
      extract_lets -merge -underBinder +onlyGivenNames x6
      have hx6 : Touches [.regs, .cnt, .pow, .led, .hif, .rows, .yok, .out] s x6 := by
        unfold x6
        exact Touches.chain (State.wr_touches ..) (by decide) hx5
      clear_value x6
      refine Touches.ite ?_ ?_
      · exact Touches.chain (State.note_touches ..) (by decide) hx6
      · exact hx6
    · exact (Touches.rfl' _ s)

theorem State.badEcho_touches (s : State) (p1 : ℕ) :
    Touches [.regs, .tim] s (State.badEcho s p1) := by
  unfold State.badEcho
  extract_lets -merge -underBinder +onlyGivenNames x0 x1
  clear_value x0 x1
  extract_lets -merge -underBinder +onlyGivenNames x2
  have hx2 : Touches [.regs, .tim] s x2 := by
    unfold x2
    refine Touches.set_tim (x := s) ?_ (by decide)
    exact (Touches.rfl' _ s)
  clear_value x2
  refine Touches.ite ?_ ?_
  · exact Touches.chain (State.wr_touches ..) (by decide) hx2
  · exact hx2

theorem State.headDelay_touches (s : State) (p1 : ℕ) (p2 : ℕ) (p3 : List Byte) :
    Touches [.regs, .tim] s (State.headDelay s p1 p2 p3) := by
  unfold State.headDelay
  refine Touches.ite ?_ ?_
  · exact (Touches.rfl' _ s)
  · extract_lets -merge -underBinder +onlyGivenNames x0
    clear_value x0
    extract_lets -merge -underBinder +onlyGivenNames x1 x2
    clear_value x1 x2
    split
    · refine Touches.ite ?_ ?_
      · exact Touches.chain (State.badEcho_touches ..) (by decide) (Touches.rfl' _ s)
      · extract_lets -merge -underBinder +onlyGivenNames x3
        clear_value x3
        extract_lets -merge -underBinder +onlyGivenNames x4 x5 x6
        clear_value x4 x5 x6
        extract_lets -merge -underBinder +onlyGivenNames x7
        have hx7 : Touches [.regs, .tim] s x7 := by
          unfold x7
          refine Touches.set_tim (x := s) ?_ (by decide)
          exact (Touches.rfl' _ s)
        clear_value x7
        extract_lets -merge -underBinder +onlyGivenNames x8
        have hx8 : Touches [.regs, .tim] s x8 := by
          unfold x8
          exact Touches.chain (State.wr_touches ..) (by decide) hx7
        clear_value x8
        exact Touches.chain (State.wr_touches ..) (by decide) hx8
    · exact Touches.chain (State.badEcho_touches ..) (by decide) (Touches.rfl' _ s)

theorem State.actOnHead_touches (s : State) (p1 : ℕ) (p2 : ℕ) (p3 : ℕ) (p4 : List Byte) :
    Touches [.regs, .cnt, .pow, .led, .hif, .tim, .line, .rows, .yok, .out] s (State.actOnHead s p1 p2 p3 p4) := by
  unfold State.actOnHead
  extract_lets -merge -underBinder +onlyGivenNames x0
  clear_value x0
  extract_lets -merge -underBinder +onlyGivenNames x1
  have hx1 : Touches [.regs, .cnt, .pow, .led, .hif, .tim, .line, .rows, .yok, .out] s x1 := by
    unfold x1
    refine Touches.chain (State.headCloak_touches ..) (by decide) ?_
    exact Touches.chain (State.headFarEnd_touches ..) (by decide) (Touches.rfl' _ s)
  clear_value x1
  extract_lets -merge -underBinder +onlyGivenNames x2
  have hx2 : Touches [.regs, .cnt, .pow, .led, .hif, .tim, .line, .rows, .yok, .out] s x2 := by
    unfold x2
    exact Touches.chain (State.headDelay_touches ..) (by decide) hx1
  clear_value x2
  extract_lets -merge -underBinder +onlyGivenNames x3
  have hx3 : Touches [.regs, .cnt, .pow, .led, .hif, .tim, .line, .rows, .yok, .out] s x3 := by
    unfold x3
    exact Touches.chain (State.headTrace_touches ..) (by decide) hx2
  clear_value x3
  extract_lets -merge -underBinder +onlyGivenNames x4
  have hx4 : Touches [.regs, .cnt, .pow, .led, .hif, .tim, .line, .rows, .yok, .out] s x4 := by
    unfold x4
    refine Touches.ite ?_ ?_
    · refine Touches.chain (State.headSwap_touches ..) (by decide) ?_
      exact Touches.chain (State.rxSwapDue_touches ..) (by decide) hx3
    · exact hx3
  clear_value x4
  extract_lets -merge -underBinder +onlyGivenNames x5
  have hx5 : Touches [.regs, .cnt, .pow, .led, .hif, .tim, .line, .rows, .yok, .out] s x5 := by
    unfold x5
    exact Touches.chain (State.headMap_touches ..) (by decide) hx4
  clear_value x5
  extract_lets -merge -underBinder +onlyGivenNames x6
  have hx6 : Touches [.regs, .cnt, .pow, .led, .hif, .tim, .line, .rows, .yok, .out] s x6 := by
    unfold x6
    refine Touches.ite ?_ ?_
    · refine Touches.chain (State.headSkew_touches ..) (by decide) ?_
      exact Touches.chain (State.headAps_touches ..) (by decide) hx5
    · exact hx2
  clear_value x6
  exact Touches.chain (State.checkIndices_touches ..) (by decide) hx6

theorem State.syncHead_touches (s : State) (p1 : ℕ) (p2 : ℕ) (p3 : ℕ) (p4 : List Byte) :
    Touches [.regs, .cnt, .pow, .led, .hif, .tim, .line, .rows, .yok, .out] s (State.syncHead s p1 p2 p3 p4) := by
  unfold State.syncHead
  refine Touches.ite ?_ ?_
  · extract_lets -merge -underBinder +onlyGivenNames x0
    have hx0 : Touches [.regs, .cnt, .pow, .led, .hif, .tim, .line, .rows, .yok, .out] s x0 := by
      unfold x0
      exact Touches.chain (State.setLane_touches ..) (by decide) (Touches.rfl' _ s)
    clear_value x0
    refine Touches.ite ?_ ?_
    · exact Touches.chain (State.declareLoa_touches ..) (by decide) hx0
    · extract_lets -merge -underBinder +onlyGivenNames x1
      have hx1 : Touches [.regs, .cnt, .pow, .led, .hif, .tim, .line, .rows, .yok, .out] s x1 := by
        unfold x1
        exact Touches.chain (State.setLane_touches ..) (by decide) hx0
      clear_value x1
      refine Touches.ite ?_ ?_
      · exact Touches.chain (State.rxSwapDue_touches ..) (by decide) hx1
      · exact hx1
  · extract_lets -merge -underBinder +onlyGivenNames x2
    have hx2 : Touches [.regs, .cnt, .pow, .led, .hif, .tim, .line, .rows, .yok, .out] s x2 := by
      unfold x2
      exact Touches.chain (State.setLane_touches ..) (by decide) (Touches.rfl' _ s)
    clear_value x2
    refine Touches.ite ?_ ?_
    · extract_lets -merge -underBinder +onlyGivenNames x3
      clear_value x3
      refine Touches.chain (State.actOnHead_touches ..) (by decide) ?_
      refine Touches.chain (State.followNumber_touches ..) (by decide) ?_
      exact Touches.chain (State.setLane_touches ..) (by decide) hx2
    · extract_lets -merge -underBinder +onlyGivenNames x4
      have hx4 : Touches [.regs, .cnt, .pow, .led, .hif, .tim, .line, .rows, .yok, .out] s x4 := by
        unfold x4
        exact Touches.chain (State.setLane_touches ..) (by decide) hx2
      clear_value x4
      refine Touches.ite ?_ ?_
      · exact Touches.chain (State.rxSwapDue_touches ..) (by decide) hx4
      · exact hx4

theorem execHeadlandReceive_touches (p0 : Fin 32) (p1 : List Byte) (s : State) :
    OutTouches Part.main s (execHeadlandReceive p0 p1 s) := by
  unfold execHeadlandReceive
  extract_lets -merge -underBinder +onlyGivenNames x0
  clear_value x0
  split
  · show Touches _ _ _
    exact (Touches.rfl' _ s)
  · refine OutTouches.ite ?_ ?_
    · show Touches _ _ _
      exact (Touches.rfl' _ s)
    · extract_lets -merge -underBinder +onlyGivenNames x1
      clear_value x1
      split
      · show Touches _ _ _
        refine Touches.chain (State.laneChanged_touches ..) (by decide) ?_
        exact Touches.chain (State.presyncHead_touches ..) (by decide) (Touches.rfl' _ s)
      · show Touches _ _ _
        refine Touches.chain (State.laneChanged_touches ..) (by decide) ?_
        exact Touches.chain (State.syncHead_touches ..) (by decide) (Touches.rfl' _ s)
      · show Touches _ _ _
        exact (Touches.rfl' _ s)

end Sys2Proof.Machine
end

