-- ==== Sys2Proof/Laws/TouchLedger.lean ====
section
/-! SUPPORT. What each operation of Machine/Ledger.lean may touch. -/

namespace Sys2Proof.Machine

open Sys2Proof

set_option linter.unusedTactic false
set_option linter.unreachableTactic false

theorem execFoldClose_touches (s : State) :
    OutTouches Part.note s (execFoldClose s) := by
  unfold execFoldClose
  extract_lets -merge -underBinder +onlyGivenNames x0
  clear_value x0
  split
  extract_lets -merge -underBinder +onlyGivenNames x1
  have hx1 : Touches Part.note s x1 := by
    unfold x1
    refine Touches.set_led (x := s) ?_ (by decide) (by intro h; rename_i e; have q := congrArg (fun p : Ledger × Bool => p.1.log) e; dsimp only at q; rw [← q]; (repeat' split); all_goals first | exact h | (rw [Ledger.close_log]; exact h) | (show SMap.wf noneOf (Ledger.closeOldest _ _).1.log = true; rw [Ledger.closeOldest_log]; exact h))
    exact (Touches.rfl' _ s)
  clear_value x1
  refine OutTouches.ite ?_ ?_
  · extract_lets -merge -underBinder +onlyGivenNames x2
    have hx2 : Touches Part.note s x2 := by
      unfold x2
      exact Touches.chain (State.stageLost_touches ..) (by decide) hx1
    clear_value x2
    show Touches _ _ _
    refine Touches.ite ?_ ?_
    · refine Touches.chain (State.note_touches ..) (by decide) ?_
      refine Touches.set_led (x := x2) ?_ (by decide) id
      exact hx2
    · exact hx2
  · show Touches _ _ _
    exact hx1

theorem execBatchOffer_touches (s : State) :
    OutTouches Part.main s (execBatchOffer s) := by
  unfold execBatchOffer
  extract_lets -merge -underBinder +onlyGivenNames x0
  refine OutTouches.ite ?_ ?_
  · show Touches _ _ _
    exact (Touches.rfl' _ s)
  · extract_lets -merge -underBinder +onlyGivenNames x1
    clear_value x1
    split
    rename_i v2 v3 v4 e5
    have hv3 : Touches Part.main s v3 := by
      refine Touches.ofFst e5 ?_
      exact Touches.chain (State.requestStore_touches ..) (by decide) (Touches.rfl' _ s)
    show Touches _ _ _
    refine Touches.ite ?_ ?_
    · refine Touches.set_led (x := v3) ?_ (by decide) id
      exact hv3
    · exact hv3

theorem State.appendRec_touches (s : State) (p1 : EvRec) :
    Touches Part.note s (State.appendRec s p1) := by
  unfold State.appendRec
  extract_lets -merge -underBinder +onlyGivenNames x0
  refine Touches.ite ?_ ?_
  · refine Touches.set_led (x := s) ?_ (by decide) (Ledger.place_wf _ _ _)
    exact (Touches.rfl' _ s)
  · split
    · extract_lets -merge -underBinder +onlyGivenNames x1
      refine Touches.set_led (x := s) ?_ (by decide) (fun h => Ledger.place_wf _ _ _ (SMap.wf_dropRange _ _ _ _ h))
      exact (Touches.rfl' _ s)
    · extract_lets -merge -underBinder +onlyGivenNames x2
      have hx2 : Touches Part.note s x2 := by
        unfold x2
        exact Touches.chain (State.setFld_touches ..) (by decide) (Touches.rfl' _ s)
      clear_value x2
      extract_lets -merge -underBinder +onlyGivenNames x3
      clear_value x3
      refine Touches.ite ?_ ?_
      · refine Touches.chain (State.note_touches ..) (by decide) ?_
        refine Touches.set_led (x := x2) ?_ (by decide) id
        exact hx2
      · exact hx2

theorem State.appendBatch_touches (s : State) (p1 : List EvRec) :
    Touches Part.note s (State.appendBatch s p1) := by
  unfold State.appendBatch
  extract_lets -merge -underBinder +onlyGivenNames x0
  have hx0 : Touches Part.note s x0 := by
    unfold x0
    refine Touches.foldl _ _ ?_ (fun y1 a1 hy1 => ?_)
    · exact (Touches.rfl' _ s)
    · exact Touches.chain (State.appendRec_touches ..) (by decide) hy1
  clear_value x0
  refine Touches.set_led (x := x0) ?_ (by decide) id
  exact hx0

theorem State.batchFailed_touches (s : State) (p1 : List EvRec) :
    Touches Part.note s (State.batchFailed s p1) := by
  unfold State.batchFailed
  extract_lets -merge -underBinder +onlyGivenNames x0
  clear_value x0
  extract_lets -merge -underBinder +onlyGivenNames x1
  extract_lets -merge -underBinder +onlyGivenNames x2
  have hx2 : Touches Part.note s x2 := by
    unfold x2
    refine Touches.set_led (x := s) ?_ (by decide) id
    exact (Touches.rfl' _ s)
  clear_value x2
  refine Touches.ite ?_ ?_
  · refine Touches.chain (State.note_touches ..) (by decide) ?_
    refine Touches.set_led (x := x2) ?_ (by decide) id
    exact hx2
  · exact hx2

theorem execLogScan_touches (p0 : Bool) (s : State) :
    OutTouches [.led] s (execLogScan p0 s) := by
  unfold execLogScan
  extract_lets -merge -underBinder +onlyGivenNames x0 x1
  clear_value x0 x1
  show Touches _ _ _
  refine Touches.ite ?_ ?_
  · exact (Touches.rfl' _ s)
  · refine Touches.set_led (x := s) ?_ (by decide) id
    exact (Touches.rfl' _ s)

theorem State.logWrite_touches {m : List Part} {s : State} {x : State} {p1 : Path} {p2 : ℕ} {p3 : Bool → State → State} (hm : [.regs, .cnt, .armed, .pow, .led, .hif, .yok, .out] ⊆ m) (hx : Touches m s x) (k3 : ∀ z0 z1, Touches m s z1 → Touches m s (p3 z0 z1)) :
    Touches m s (State.logWrite x p1 p2 p3) := by
  unfold State.logWrite
  extract_lets -merge -underBinder +onlyGivenNames x0
  clear_value x0
  refine State.hostWrite_touches (List.Subset.trans (by decide) hm) ?_ (fun z1 hz1 => ?_)
  · exact hx
  · refine Touches.ite ?_ ?_
    · exact Touches.chain (State.result_touches ..) (List.Subset.trans (by decide) hm) hz1
    · refine k3 _ _ ?_
      exact hz1

theorem execLogFreeze_touches (p0 : Path) (s : State) :
    OutTouches [.regs, .cnt, .armed, .pow, .led, .hif, .st, .yok, .out] s (execLogFreeze p0 s) := by
  unfold execLogFreeze
  show Touches _ _ _
  refine State.logWrite_touches (by decide) ?_ (fun z0 z1 hz1 => ?_)
  · exact (Touches.rfl' _ s)
  · refine Touches.ite ?_ ?_
    · exact Touches.chain (State.result_touches ..) (by decide) hz1
    · extract_lets -merge -underBinder +onlyGivenNames x2
      clear_value x2
      extract_lets -merge -underBinder +onlyGivenNames x3
      extract_lets -merge -underBinder +onlyGivenNames x4
      clear_value x4
      extract_lets -merge -underBinder +onlyGivenNames x5
      have hx5 : Touches [.regs, .cnt, .armed, .pow, .led, .hif, .st, .yok, .out] s x5 := by
        unfold x5
        apply Touches.put (x := z1)
        · and_intros <;> first | exact .inr (by decide) | exact .inl rfl | exact SMap.wf_set _ _ _ _ | exact SMap.wf_dropRange _ _ _ _ | exact SMap.wf_filter _ _ _ | exact fun h => by rw [Ledger.reset_log]; exact h | exact id | exact fun _ => rfl
        · exact hz1
      clear_value x5
      refine Touches.chain (State.result_touches ..) (by decide) ?_
      exact Touches.chain (State.note_touches ..) (by decide) hx5

theorem State.thawLog_touches (s : State) (p1 : ℕ) :
    Touches Part.note s (State.thawLog s p1) := by
  unfold State.thawLog
  refine Touches.ite ?_ ?_
  · refine Touches.chain (State.note_touches ..) (by decide) ?_
    refine Touches.set_led (x := s) ?_ (by decide) id
    exact (Touches.rfl' _ s)
  · exact (Touches.rfl' _ s)

theorem execLogThaw_touches (p0 : Path) (s : State) :
    OutTouches [.regs, .cnt, .armed, .pow, .led, .hif, .yok, .out] s (execLogThaw p0 s) := by
  unfold execLogThaw
  show Touches _ _ _
  refine State.logWrite_touches (by decide) ?_ (fun z0 z1 hz1 => ?_)
  · exact (Touches.rfl' _ s)
  · refine Touches.ite ?_ ?_
    · refine Touches.chain (State.result_touches ..) (by decide) ?_
      exact Touches.chain (State.thawLog_touches ..) (by decide) hz1
    · exact Touches.chain (State.result_touches ..) (by decide) hz1

theorem execFreezeExpiry_touches (s : State) :
    OutTouches Part.note s (execFreezeExpiry s) := by
  unfold execFreezeExpiry
  show Touches _ _ _
  refine Touches.ite ?_ ?_
  · exact Touches.chain (State.thawLog_touches ..) (by decide) (Touches.rfl' _ s)
  · exact (Touches.rfl' _ s)

theorem execLogRelease_touches (p0 : Path) (s : State) :
    OutTouches Part.main s (execLogRelease p0 s) := by
  unfold execLogRelease
  show Touches _ _ _
  refine State.logWrite_touches (by decide) ?_ (fun z0 z1 hz1 => ?_)
  · exact (Touches.rfl' _ s)
  · extract_lets -merge -underBinder +onlyGivenNames x2
    clear_value x2
    refine Touches.ite ?_ ?_
    · exact Touches.chain (State.result_touches ..) (by decide) hz1
    · split
      rename_i v3 v4 v5 e6
      have hv4 : Touches Part.main s v4 := by
        refine Touches.ofFst e6 ?_
        exact Touches.chain (State.requestStore_touches ..) (by decide) hz1
      refine Touches.ite ?_ ?_
      · refine Touches.set_led (x := v4) ?_ (by decide) id
        exact hv4
      · exact Touches.chain (State.result_touches ..) (by decide) hv4

theorem execCopyOut_touches (p0 : Path) (p1 : Bool) (s : State) :
    OutTouches [.regs, .cnt, .armed, .pow, .led, .hif, .yok, .out] s (execCopyOut p0 p1 s) := by
  unfold execCopyOut
  show Touches _ _ _
  refine State.logWrite_touches (by decide) ?_ (fun z0 z1 hz1 => ?_)
  · exact (Touches.rfl' _ s)
  · refine Touches.ite ?_ ?_
    · extract_lets -merge -underBinder +onlyGivenNames x2
      clear_value x2
      refine Touches.chain (State.result_touches ..) (by decide) ?_
      exact Touches.chain (State.dma_touches ..) (by decide) hz1
    · refine Touches.chain (State.result_touches ..) (by decide) ?_
      refine Touches.chain (State.noteFor_touches ..) (by decide) ?_
      exact Touches.chain (State.inc_touches ..) (by decide) hz1

theorem execCalWrite_touches (p0 : Path) (s : State) :
    OutTouches Part.main s (execCalWrite p0 s) := by
  unfold execCalWrite
  show Touches _ _ _
  refine State.logWrite_touches (by decide) ?_ (fun z0 z1 hz1 => ?_)
  · exact (Touches.rfl' _ s)
  · refine Touches.ite ?_ ?_
    · exact Touches.chain (State.result_touches ..) (by decide) hz1
    · refine Touches.ite ?_ ?_
      · exact Touches.chain (State.result_touches ..) (by decide) hz1
      · split
        · refine Touches.chain (State.result_touches ..) (by decide) ?_
          exact Touches.chain (State.setFld_touches ..) (by decide) hz1
        · split
          rename_i v2 v3 v4 e5
          have hv3 : Touches Part.main s v3 := by
            refine Touches.ofFst e5 ?_
            exact Touches.chain (State.requestStore_touches ..) (by decide) hz1
          refine Touches.ite ?_ ?_
          · refine Touches.set_led (x := v3) ?_ (by decide) id
            exact hv3
          · exact Touches.chain (State.result_touches ..) (by decide) hv3

theorem execCalRead_touches (p0 : Path) (s : State) :
    OutTouches [.regs, .cnt, .armed, .pow, .led, .hif, .yok, .out] s (execCalRead p0 s) := by
  unfold execCalRead
  show Touches _ _ _
  refine State.logWrite_touches (by decide) ?_ (fun z0 z1 hz1 => ?_)
  · exact (Touches.rfl' _ s)
  · extract_lets -merge -underBinder +onlyGivenNames x2
    have hx2 : Touches [.regs, .cnt, .armed, .pow, .led, .hif, .yok, .out] s x2 := by
      unfold x2
      exact Touches.chain (State.clearRegs_touches ..) (by decide) hz1
    clear_value x2
    refine Touches.chain (State.result_touches ..) (by decide) ?_
    refine Touches.foldl _ _ ?_ (fun y3 a3 hy3 => ?_)
    · exact hx2
    · exact Touches.chain (State.wr_touches ..) (by decide) hy3

theorem execLogCmdUnknown_touches (p0 : Path) (p1 : Fin 16) (s : State) :
    OutTouches [.regs, .cnt, .armed, .pow, .led, .hif, .yok, .out] s (execLogCmdUnknown p0 p1 s) := by
  unfold execLogCmdUnknown
  show Touches _ _ _
  refine State.logWrite_touches (by decide) ?_ (fun z0 z1 hz1 => ?_)
  · exact (Touches.rfl' _ s)
  · refine Touches.ite ?_ ?_
    · exact Touches.chain (State.result_touches ..) (by decide) hz1
    · exact hz1

theorem State.logIndexEffect_touches (s : State) (p1 : Word) :
    Touches [.regs] s (State.logIndexEffect s p1) := by
  unfold State.logIndexEffect
  extract_lets -merge -underBinder +onlyGivenNames x0
  clear_value x0
  refine Touches.ite ?_ ?_
  · exact Touches.chain (State.wr_touches ..) (by decide) (Touches.rfl' _ s)
  · extract_lets -merge -underBinder +onlyGivenNames x1
    clear_value x1
    extract_lets -merge -underBinder +onlyGivenNames x2
    have hx2 : Touches [.regs] s x2 := by
      unfold x2
      refine Touches.foldl _ _ ?_ (fun y3 a3 hy3 => ?_)
      · exact (Touches.rfl' _ s)
      · exact Touches.chain (State.wr_touches ..) (by decide) hy3
    clear_value x2
    exact Touches.chain (State.wr_touches ..) (by decide) hx2

theorem execLogReadIndexWrite_touches (p0 : Path) (p1 : Word) (s : State) :
    OutTouches [.regs, .cnt, .armed, .pow, .led, .hif, .yok, .out] s (execLogReadIndexWrite p0 p1 s) := by
  unfold execLogReadIndexWrite
  show Touches _ _ _
  refine State.hostWrite_touches (by decide) ?_ (fun z0 hz0 => ?_)
  · exact (Touches.rfl' _ s)
  · exact Touches.chain (State.logIndexEffect_touches ..) (by decide) hz0

theorem State.snapCfgEffect_touches (s : State) (p1 : Word) :
    Touches Part.note s (State.snapCfgEffect s p1) := by
  unfold State.snapCfgEffect
  extract_lets -merge -underBinder +onlyGivenNames x0
  clear_value x0
  extract_lets -merge -underBinder +onlyGivenNames x1
  extract_lets -merge -underBinder +onlyGivenNames x2
  have hx2 : Touches Part.note s x2 := by
    unfold x2
    refine Touches.ite ?_ ?_
    · exact (Touches.rfl' _ s)
    · refine Touches.set_led (x := s) ?_ (by decide) id
      exact (Touches.rfl' _ s)
  clear_value x2
  extract_lets -merge -underBinder +onlyGivenNames x3
  have hx3 : Touches Part.note s x3 := by
    unfold x3
    exact Touches.chain (State.wr_touches ..) (by decide) hx2
  clear_value x3
  refine Touches.ite ?_ ?_
  · exact Touches.chain (State.snapshot_touches ..) (by decide) hx3
  · exact hx3

theorem execCounterSnap_touches (p0 : Path) (p1 : Word) (s : State) :
    OutTouches [.regs, .cnt, .armed, .pow, .led, .hif, .yok, .out] s (execCounterSnap p0 p1 s) := by
  unfold execCounterSnap
  show Touches _ _ _
  refine State.hostWrite_touches (by decide) ?_ (fun z0 hz0 => ?_)
  · exact (Touches.rfl' _ s)
  · exact Touches.chain (State.snapCfgEffect_touches ..) (by decide) hz0

theorem execPeriodicSnap_touches (s : State) :
    OutTouches Part.note s (execPeriodicSnap s) := by
  unfold execPeriodicSnap
  extract_lets -merge -underBinder +onlyGivenNames x0
  clear_value x0
  show Touches _ _ _
  refine Touches.ite ?_ ?_
  · refine Touches.chain (State.snapshot_touches ..) (by decide) ?_
    refine Touches.set_led (x := s) ?_ (by decide) id
    exact (Touches.rfl' _ s)
  · exact (Touches.rfl' _ s)

theorem State.fuCfgEffect_touches (s : State) (p1 : ℕ) (p2 : Word) :
    Touches [.regs, .led] s (State.fuCfgEffect s p1 p2) := by
  unfold State.fuCfgEffect
  extract_lets -merge -underBinder +onlyGivenNames x0
  have hx0 : Touches [.regs, .led] s x0 := by
    unfold x0
    exact Touches.chain (State.wr_touches ..) (by decide) (Touches.rfl' _ s)
  clear_value x0
  refine Touches.set_led (x := x0) ?_ (by decide) id
  exact hx0

theorem execFuCfgWrite_touches (p0 : Path) (p1 : Fin 256) (p2 : Word) (s : State) :
    OutTouches [.regs, .cnt, .armed, .pow, .led, .hif, .yok, .out] s (execFuCfgWrite p0 p1 p2 s) := by
  unfold execFuCfgWrite
  extract_lets -merge -underBinder +onlyGivenNames x0
  clear_value x0
  show Touches _ _ _
  refine State.hostWrite_touches (by decide) ?_ (fun z1 hz1 => ?_)
  · exact (Touches.rfl' _ s)
  · exact Touches.chain (State.fuCfgEffect_touches ..) (by decide) hz1

end Sys2Proof.Machine
end

