-- ==== Sys2Proof/Laws/TouchPower.lean ====
section
/-! SUPPORT. What each operation of Machine/Power.lean may touch. -/

namespace Sys2Proof.Machine

open Sys2Proof

set_option linter.unusedTactic false
set_option linter.unreachableTactic false

theorem execPerstAssert_touches (s : State) :
    OutTouches [.regs, .cnt, .pow, .led, .hif, .tim, .fab, .line, .rows, .cls, .sch, .asc, .cph, .kvt, .yok, .out] s (execPerstAssert s) := by
  unfold execPerstAssert
  extract_lets -merge -underBinder +onlyGivenNames x0
  clear_value x0
  extract_lets -merge -underBinder +onlyGivenNames x1
  have hx1 : Touches [.regs, .cnt, .pow, .led, .hif, .tim, .fab, .line, .rows, .cls, .sch, .asc, .cph, .kvt, .yok, .out] s x1 := by
    unfold x1
    refine Touches.set_pow (x := s) ?_ (by decide)
    exact (Touches.rfl' _ s)
  clear_value x1
  show Touches _ _ _
  refine Touches.chain (State.jointReset_touches ..) (by decide) ?_
  exact Touches.chain (State.linkDown_touches ..) (by decide) hx1

theorem execPerstRelease_touches (s : State) :
    OutTouches [.pow, .fab] s (execPerstRelease s) := by
  unfold execPerstRelease
  show Touches _ _ _
  apply Touches.put (x := s)
  · and_intros <;> first | exact .inr (by decide) | exact .inl rfl | exact SMap.wf_set _ _ _ _ | exact SMap.wf_dropRange _ _ _ _ | exact SMap.wf_filter _ _ _ | exact fun h => by rw [Ledger.reset_log]; exact h | exact id | exact fun _ => rfl
  · exact (Touches.rfl' _ s)

theorem execLidOvertemp_touches (p0 : BitVec 16) (s : State) :
    OutTouches Part.note s (execLidOvertemp p0 s) := by
  unfold execLidOvertemp
  extract_lets -merge -underBinder +onlyGivenNames x0
  have hx0 : Touches Part.note s x0 := by
    unfold x0
    exact Touches.chain (State.setFld_touches ..) (by decide) (Touches.rfl' _ s)
  clear_value x0
  show Touches _ _ _
  refine Touches.ite ?_ ?_
  · exact Touches.chain (State.note_touches ..) (by decide) hx0
  · exact hx0

theorem execDieOvertemp_touches (p0 : BitVec 16) (s : State) :
    OutTouches Part.main s (execDieOvertemp p0 s) := by
  unfold execDieOvertemp
  extract_lets -merge -underBinder +onlyGivenNames x0
  have hx0 : Touches Part.main s x0 := by
    unfold x0
    exact Touches.chain (State.setFld_touches ..) (by decide) (Touches.rfl' _ s)
  clear_value x0
  show Touches _ _ _
  refine Touches.ite ?_ ?_
  · exact Touches.chain (State.raise_touches ..) (by decide) hx0
  · exact hx0

theorem State.railsOff_touches (s : State) :
    Touches [.regs, .cnt, .ctl, .pow, .led, .hif, .st, .fab, .sch, .mgd, .asc, .cph, .kvt, .yok, .out] s (State.railsOff s) := by
  unfold State.railsOff
  extract_lets -merge -underBinder +onlyGivenNames x0
  clear_value x0
  extract_lets -merge -underBinder +onlyGivenNames x1
  have hx1 : Touches [.regs, .cnt, .ctl, .pow, .led, .hif, .st, .fab, .sch, .mgd, .asc, .cph, .kvt, .yok, .out] s x1 := by
    unfold x1
    refine Touches.set_ctl (x := s) ?_ (by decide)
    exact (Touches.rfl' _ s)
  clear_value x1
  extract_lets -merge -underBinder +onlyGivenNames x2
  have hx2 : Touches [.regs, .cnt, .ctl, .pow, .led, .hif, .st, .fab, .sch, .mgd, .asc, .cph, .kvt, .yok, .out] s x2 := by
    unfold x2
    refine Touches.chain (State.quiesceAll_touches ..) (by decide) ?_
    refine Touches.chain (State.discardFrames_touches ..) (by decide) ?_
    exact Touches.chain (State.thawLog_touches ..) (by decide) hx1
  clear_value x2
  refine Touches.chain (State.startStores_touches ..) (by decide) ?_
  apply Touches.put (x := x2)
  · and_intros <;> first | exact .inr (by decide) | exact .inl rfl | exact SMap.wf_set _ _ _ _ | exact SMap.wf_dropRange _ _ _ _ | exact SMap.wf_filter _ _ _ | exact fun h => by rw [Ledger.reset_log]; exact h | exact id | exact fun _ => rfl
  · exact hx2

theorem State.beginPfail_touches (s : State) (p1 : Bool) :
    Touches Part.main s (State.beginPfail s p1) := by
  unfold State.beginPfail
  extract_lets -merge -underBinder +onlyGivenNames x0
  have hx0 : Touches Part.main s x0 := by
    unfold x0
    exact Touches.chain (State.yield_touches ..) (by decide) (Touches.rfl' _ s)
  clear_value x0
  refine Touches.chain (State.driveAlert_touches ..) (by decide) ?_
  apply Touches.put (x := x0)
  · and_intros <;> first | exact .inr (by decide) | exact .inl rfl | exact SMap.wf_set _ _ _ _ | exact SMap.wf_dropRange _ _ _ _ | exact SMap.wf_filter _ _ _ | exact fun h => by rw [Ledger.reset_log]; exact h | exact id | exact fun _ => rfl
  · exact hx0

theorem execPowerFail_touches (s : State) :
    OutTouches Part.main s (execPowerFail s) := by
  unfold execPowerFail
  refine OutTouches.ite ?_ ?_
  · show Touches _ _ _
    exact (Touches.rfl' _ s)
  · show Touches _ _ _
    refine Touches.chain (State.railsOff_touches ..) (by decide) ?_
    refine Touches.chain (State.raise_touches ..) (by decide) ?_
    exact Touches.chain (State.beginPfail_touches ..) (by decide) (Touches.rfl' _ s)

theorem execDieThermalShutdown_touches (s : State) :
    OutTouches Part.main s (execDieThermalShutdown s) := by
  unfold execDieThermalShutdown
  refine OutTouches.ite ?_ ?_
  · show Touches _ _ _
    exact (Touches.rfl' _ s)
  · show Touches _ _ _
    refine Touches.chain (State.railsOff_touches ..) (by decide) ?_
    exact Touches.chain (State.beginPfail_touches ..) (by decide) (Touches.rfl' _ s)

theorem execInputOvervoltage_touches (p0 : ℕ) (s : State) :
    OutTouches Part.main s (execInputOvervoltage p0 s) := by
  unfold execInputOvervoltage
  refine OutTouches.ite ?_ ?_
  · show Touches _ _ _
    exact (Touches.rfl' _ s)
  · extract_lets -merge -underBinder +onlyGivenNames x0
    clear_value x0
    extract_lets -merge -underBinder +onlyGivenNames x1
    have hx1 : Touches Part.main s x1 := by
      unfold x1
      refine Touches.chain (State.setFlg_touches ..) (by decide) ?_
      refine Touches.ite ?_ ?_
      · exact (Touches.rfl' _ s)
      · exact Touches.chain (State.beginPfail_touches ..) (by decide) (Touches.rfl' _ s)
    clear_value x1
    extract_lets -merge -underBinder +onlyGivenNames x2
    clear_value x2
    extract_lets -merge -underBinder +onlyGivenNames x3
    have hx3 : Touches Part.main s x3 := by
      unfold x3
      refine Touches.set_pow (x := x1) ?_ (by decide)
      exact hx1
    clear_value x3
    extract_lets -merge -underBinder +onlyGivenNames x4
    have hx4 : Touches Part.main s x4 := by
      unfold x4
      exact Touches.chain (State.raise_touches ..) (by decide) hx3
    clear_value x4
    show Touches _ _ _
    refine Touches.ite ?_ ?_
    · exact hx4
    · exact Touches.chain (State.railsOff_touches ..) (by decide) hx4

theorem execPfailSummary_touches (s : State) :
    OutTouches [.regs, .cnt, .pow, .led, .hif, .mram, .st, .yok, .out] s (execPfailSummary s) := by
  unfold execPfailSummary
  refine OutTouches.ite ?_ ?_
  · show Touches _ _ _
    exact (Touches.rfl' _ s)
  · extract_lets -merge -underBinder +onlyGivenNames x0
    clear_value x0
    extract_lets -merge -underBinder +onlyGivenNames x1
    clear_value x1
    extract_lets -merge -underBinder +onlyGivenNames x2
    have hx2 : Touches [.regs, .cnt, .pow, .led, .hif, .mram, .st, .yok, .out] s x2 := by
      unfold x2
      exact Touches.chain (State.note_touches ..) (by decide) (Touches.rfl' _ s)
    clear_value x2
    show Touches _ _ _
    apply Touches.put (x := x2)
    · and_intros <;> first | exact .inr (by decide) | exact .inl rfl | exact SMap.wf_set _ _ _ _ | exact SMap.wf_dropRange _ _ _ _ | exact SMap.wf_filter _ _ _ | exact fun h => by rw [Ledger.reset_log]; exact h | exact id | exact fun _ => rfl
    · exact hx2

theorem State.evidOnCell_touches (s : State) (p1 : EvidRec) :
    Touches [.hdg] s (State.evidOnCell s p1) := by
  unfold State.evidOnCell
  refine Touches.ite ?_ ?_
  · exact Touches.chain (State.evidCellAppend_touches ..) (by decide) (Touches.rfl' _ s)
  · refine Touches.ite ?_ ?_
    · refine Touches.set_hdg (x := s) ?_ (by decide)
      exact (Touches.rfl' _ s)
    · refine Touches.set_hdg (x := s) ?_ (by decide)
      exact (Touches.rfl' _ s)

theorem State.evidRelease_touches (s : State) (p1 : ℕ) :
    Touches [.hdg] s (State.evidRelease s p1) := by
  unfold State.evidRelease
  refine Touches.ite ?_ ?_
  · exact (Touches.rfl' _ s)
  · refine Touches.foldl _ _ ?_ (fun y0 a0 hy0 => ?_)
    · refine Touches.chain (State.reserveTest_touches ..) (by decide) ?_
      refine Touches.set_hdg (x := s) ?_ (by decide)
      exact (Touches.rfl' _ s)
    · exact Touches.chain (State.evidOnCell_touches ..) (by decide) hy0

theorem State.powerReset_touches (s : State) :
    Touches [.regs, .shadow, .cnt, .armed, .now, .ctl, .pow, .boot, .led, .hdg, .hif, .tim, .st, .fab, .line, .rows, .cls, .sch, .mgd, .asc, .cph, .kvt, .yok, .held, .out] s (State.powerReset s) := by
  unfold State.powerReset
  extract_lets -merge -underBinder +onlyGivenNames x0 x1
  clear_value x0 x1
  extract_lets -merge -underBinder +onlyGivenNames x2
  have hx2 : Touches [.regs, .shadow, .cnt, .armed, .now, .ctl, .pow, .boot, .led, .hdg, .hif, .tim, .st, .fab, .line, .rows, .cls, .sch, .mgd, .asc, .cph, .kvt, .yok, .held, .out] s x2 := by
    unfold x2
    exact Touches.chain (State.resetCore_touches ..) (by decide) (Touches.rfl' _ s)
  clear_value x2
  extract_lets -merge -underBinder +onlyGivenNames x3
  have hx3 : Touches [.regs, .shadow, .cnt, .armed, .now, .ctl, .pow, .boot, .led, .hdg, .hif, .tim, .st, .fab, .line, .rows, .cls, .sch, .mgd, .asc, .cph, .kvt, .yok, .held, .out] s x3 := by
    unfold x3
    refine Touches.ite ?_ ?_
    · exact Touches.chain (State.emit_touches ..) (by decide) hx2
    · exact hx2
  clear_value x3
  apply Touches.put (x := x3)
  · and_intros <;> first | exact .inr (by decide) | exact .inl rfl | exact SMap.wf_set _ _ _ _ | exact SMap.wf_dropRange _ _ _ _ | exact SMap.wf_filter _ _ _ | exact fun h => by rw [Ledger.reset_log]; exact h | exact id | exact fun _ => rfl
  · exact hx3

theorem State.powerRise_touches (s : State) (p1 : ℕ) (p2 : Bool) (p3 : Bool) (p4 : Bool) :
    Touches [.regs, .cnt, .now, .ctl, .pow, .led, .hdg, .hif, .fab, .yok, .out] s (State.powerRise s p1 p2 p3 p4) := by
  unfold State.powerRise
  extract_lets -merge -underBinder +onlyGivenNames x0
  clear_value x0
  extract_lets -merge -underBinder +onlyGivenNames x1
  extract_lets -merge -underBinder +onlyGivenNames x2 x3
  clear_value x2 x3
  extract_lets -merge -underBinder +onlyGivenNames x4
  have hx4 : Touches [.regs, .cnt, .now, .ctl, .pow, .led, .hdg, .hif, .fab, .yok, .out] s x4 := by
    unfold x4
    apply Touches.put (x := s)
    · and_intros <;> first | exact .inr (by decide) | exact .inl rfl | exact SMap.wf_set _ _ _ _ | exact SMap.wf_dropRange _ _ _ _ | exact SMap.wf_filter _ _ _ | exact fun h => by rw [Ledger.reset_log]; exact h | exact id | exact fun _ => rfl
    · exact (Touches.rfl' _ s)
  clear_value x4
  extract_lets -merge -underBinder +onlyGivenNames x5
  have hx5 : Touches [.regs, .cnt, .now, .ctl, .pow, .led, .hdg, .hif, .fab, .yok, .out] s x5 := by
    unfold x5
    exact Touches.chain (State.setMode_touches ..) (by decide) hx4
  clear_value x5
  refine Touches.ite ?_ ?_
  · exact hx5
  · exact Touches.chain (State.note_touches ..) (by decide) hx5

theorem execPowerRise_touches (p0 : ℕ) (p1 : Bool) (p2 : Bool) (p3 : Bool) (s : State) :
    OutTouches [.regs, .cnt, .now, .ctl, .pow, .led, .hdg, .hif, .fab, .yok, .out] s (execPowerRise p0 p1 p2 p3 s) := by
  unfold execPowerRise
  refine OutTouches.ite ?_ ?_
  · show Touches _ _ _
    exact (Touches.rfl' _ s)
  · show Touches _ _ _
    exact Touches.chain (State.powerRise_touches ..) (by decide) (Touches.rfl' _ s)

theorem execPowerReturnDuringBleed_touches (p0 : ℕ) (p1 : Bool) (p2 : Bool) (p3 : Bool) (s : State) :
    OutTouches [.regs, .cnt, .now, .ctl, .pow, .led, .hdg, .hif, .fab, .yok, .out] s (execPowerReturnDuringBleed p0 p1 p2 p3 s) := by
  unfold execPowerReturnDuringBleed
  refine OutTouches.ite ?_ ?_
  · show Touches _ _ _
    exact (Touches.rfl' _ s)
  · show Touches _ _ _
    exact Touches.chain (State.powerRise_touches ..) (by decide) (Touches.rfl' _ s)

theorem execOvervoltageRelease_touches (p0 : ℕ) (p1 : Bool) (p2 : Bool) (p3 : Bool) (s : State) :
    OutTouches [.regs, .cnt, .now, .ctl, .pow, .led, .hdg, .hif, .fab, .yok, .out] s (execOvervoltageRelease p0 p1 p2 p3 s) := by
  unfold execOvervoltageRelease
  refine OutTouches.ite ?_ ?_
  · show Touches _ _ _
    exact (Touches.rfl' _ s)
  · extract_lets -merge -underBinder +onlyGivenNames x0
    clear_value x0
    extract_lets -merge -underBinder +onlyGivenNames x1
    have hx1 : Touches [.regs, .cnt, .now, .ctl, .pow, .led, .hdg, .hif, .fab, .yok, .out] s x1 := by
      unfold x1
      refine Touches.set_pow (x := s) ?_ (by decide)
      exact (Touches.rfl' _ s)
    refine OutTouches.ite ?_ ?_
    · show Touches _ _ _
      exact Touches.chain (State.powerRise_touches ..) (by decide) hx1
    · show Touches _ _ _
      exact hx1

theorem execStoreDomainRelease_touches (p0 : ℕ) (p1 : ℕ) (p2 : Bool) (p3 : Bool) (p4 : Bool) (s : State) :
    OutTouches [.regs, .shadow, .cnt, .armed, .now, .ctl, .pow, .boot, .led, .hdg, .hif, .tim, .st, .fab, .line, .rows, .cls, .sch, .mgd, .asc, .cph, .kvt, .yok, .held, .out] s (execStoreDomainRelease p0 p1 p2 p3 p4 s) := by
  unfold execStoreDomainRelease
  refine OutTouches.ite ?_ ?_
  · show Touches _ _ _
    exact (Touches.rfl' _ s)
  · extract_lets -merge -underBinder +onlyGivenNames x0
    have hx0 : Touches [.regs, .shadow, .cnt, .armed, .now, .ctl, .pow, .boot, .led, .hdg, .hif, .tim, .st, .fab, .line, .rows, .cls, .sch, .mgd, .asc, .cph, .kvt, .yok, .held, .out] s x0 := by
      unfold x0
      refine Touches.chain (State.powerReset_touches ..) (by decide) ?_
      exact Touches.chain (State.evidRelease_touches ..) (by decide) (Touches.rfl' _ s)
    clear_value x0
    refine OutTouches.ite ?_ ?_
    · show Touches _ _ _
      exact Touches.chain (State.powerRise_touches ..) (by decide) hx0
    · show Touches _ _ _
      exact hx0

theorem execHoldupCapMeasure_touches (p0 : ℕ) (p1 : ℕ) (p2 : Bool) (s : State) :
    OutTouches Part.main s (execHoldupCapMeasure p0 p1 p2 s) := by
  unfold execHoldupCapMeasure
  refine OutTouches.ite ?_ ?_
  · show Touches _ _ _
    exact (Touches.rfl' _ s)
  · extract_lets -merge -underBinder +onlyGivenNames x0
    clear_value x0
    extract_lets -merge -underBinder +onlyGivenNames x1 x2
    clear_value x1 x2
    extract_lets -merge -underBinder +onlyGivenNames x3
    have hx3 : Touches Part.main s x3 := by
      unfold x3
      refine Touches.set_pow (x := s) ?_ (by decide)
      exact (Touches.rfl' _ s)
    clear_value x3
    extract_lets -merge -underBinder +onlyGivenNames x4
    clear_value x4
    extract_lets -merge -underBinder +onlyGivenNames x5
    have hx5 : Touches Part.main s x5 := by
      unfold x5
      refine Touches.ite ?_ ?_
      · refine Touches.chain (State.raise_touches ..) (by decide) ?_
        exact Touches.chain (State.beginLevel2_touches ..) (by decide) hx3
      · exact Touches.chain (State.endLevel2_touches ..) (by decide) hx3
    clear_value x5
    show Touches _ _ _
    exact Touches.chain (State.startStores_touches ..) (by decide) hx5

theorem execFeedLost_touches (p0 : Bool) (s : State) :
    OutTouches Part.note s (execFeedLost p0 s) := by
  unfold execFeedLost
  extract_lets -merge -underBinder +onlyGivenNames x0 x1
  clear_value x0 x1
  extract_lets -merge -underBinder +onlyGivenNames x2
  have hx2 : Touches Part.note s x2 := by
    unfold x2
    refine Touches.set_pow (x := s) ?_ (by decide)
    exact (Touches.rfl' _ s)
  clear_value x2
  show Touches _ _ _
  refine Touches.chain (State.note_touches ..) (by decide) ?_
  exact Touches.chain (State.setFlg_touches ..) (by decide) hx2

theorem execFeedRestored_touches (p0 : Bool) (s : State) :
    OutTouches Part.note s (execFeedRestored p0 s) := by
  unfold execFeedRestored
  refine OutTouches.ite ?_ ?_
  · extract_lets -merge -underBinder +onlyGivenNames x0
    clear_value x0
    extract_lets -merge -underBinder +onlyGivenNames x1
    clear_value x1
    extract_lets -merge -underBinder +onlyGivenNames x2
    have hx2 : Touches Part.note s x2 := by
      unfold x2
      refine Touches.set_pow (x := s) ?_ (by decide)
      exact (Touches.rfl' _ s)
    clear_value x2
    show Touches _ _ _
    exact Touches.chain (State.note_touches ..) (by decide) hx2
  · show Touches _ _ _
    exact (Touches.rfl' _ s)

theorem execSvcMuteAssert_touches (s : State) :
    OutTouches Part.main s (execSvcMuteAssert s) := by
  unfold execSvcMuteAssert
  refine OutTouches.ite ?_ ?_
  · show Touches _ _ _
    exact (Touches.rfl' _ s)
  · show Touches _ _ _
    refine Touches.chain (State.yield_touches ..) (by decide) ?_
    refine Touches.chain (State.note_touches ..) (by decide) ?_
    refine Touches.set_pow (x := s) ?_ (by decide)
    exact (Touches.rfl' _ s)

theorem execSvcMuteRelease_touches (s : State) :
    OutTouches Part.note s (execSvcMuteRelease s) := by
  unfold execSvcMuteRelease
  refine OutTouches.ite ?_ ?_
  · show Touches _ _ _
    refine Touches.chain (State.note_touches ..) (by decide) ?_
    refine Touches.set_pow (x := s) ?_ (by decide)
    exact (Touches.rfl' _ s)
  · show Touches _ _ _
    exact (Touches.rfl' _ s)

theorem execYokeIdChanged_touches (s : State) :
    OutTouches Part.note s (execYokeIdChanged s) := by
  unfold execYokeIdChanged
  show Touches _ _ _
  exact Touches.chain (State.note_touches ..) (by decide) (Touches.rfl' _ s)

end Sys2Proof.Machine
end

