-- ==== Sys2Proof/Laws/TouchTime.lean ====
section
/-! SUPPORT. What each operation of Machine/Time.lean may touch. -/

namespace Sys2Proof.Machine

open Sys2Proof

theorem State.timEnd_touches (s : State) (p1 : ℕ) (p2 : ℕ) (p3 : ℕ) :
    Touches Part.note s (State.timEnd s p1 p2 p3) := by
  unfold State.timEnd
  extract_lets -merge -underBinder +onlyGivenNames x0
  have hx0 : Touches Part.note s x0 := by
    unfold x0
    exact Touches.chain (State.cmdEnd_touches ..) (by decide) (Touches.rfl' _ s)
  clear_value x0
  refine Touches.ite ?_ ?_
  · exact hx0
  · exact Touches.chain (State.note_touches ..) (by decide) hx0

theorem State.movedBy_touches (s : State) (p1 : ℕ) (p2 : ℤ) (p3 : Bool) :
    Touches [.regs, .cnt, .pow, .led, .hif, .tim, .sch, .yok, .out] s (State.movedBy s p1 p2 p3) := by
  unfold State.movedBy
  refine Touches.ite ?_ ?_
  · extract_lets -merge -underBinder +onlyGivenNames x0
    have hx0 : Touches [.regs, .cnt, .pow, .led, .hif, .tim, .sch, .yok, .out] s x0 := by
      unfold x0
      exact Touches.chain (State.inc_touches ..) (by decide) (Touches.rfl' _ s)
    clear_value x0
    extract_lets -merge -underBinder +onlyGivenNames x1
    have hx1 : Touches [.regs, .cnt, .pow, .led, .hif, .tim, .sch, .yok, .out] s x1 := by
      unfold x1
      refine Touches.ite ?_ ?_
      · exact Touches.chain (State.note_touches ..) (by decide) hx0
      · exact hx0
    clear_value x1
    refine Touches.chain (State.gatesResume_touches ..) (by decide) ?_
    refine Touches.chain (State.gatesLost_touches ..) (by decide) ?_
    exact Touches.chain (State.setChan_touches ..) (by decide) hx1
  · exact (Touches.rfl' _ s)

theorem State.putTime_touches (s : State) (p1 : ℕ) (p2 : ℕ) :
    Touches [.tim] s (State.putTime s p1 p2) := by
  unfold State.putTime
  refine Touches.ite ?_ ?_
  · exact Touches.chain (State.setChan_touches ..) (by decide) (Touches.rfl' _ s)
  · extract_lets -merge -underBinder +onlyGivenNames x0
    clear_value x0
    exact Touches.chain (State.setChan_touches ..) (by decide) (Touches.rfl' _ s)

theorem State.setTime_touches (s : State) (p1 : ℕ) (p2 : ℕ) :
    Touches [.regs, .cnt, .pow, .led, .hif, .tim, .sch, .yok, .out] s (State.setTime s p1 p2) := by
  unfold State.setTime
  extract_lets -merge -underBinder +onlyGivenNames x0 x1
  clear_value x0 x1
  extract_lets -merge -underBinder +onlyGivenNames x2
  have hx2 : Touches [.regs, .cnt, .pow, .led, .hif, .tim, .sch, .yok, .out] s x2 := by
    unfold x2
    refine Touches.chain (State.setChan_touches ..) (by decide) ?_
    exact Touches.chain (State.putTime_touches ..) (by decide) (Touches.rfl' _ s)
  clear_value x2
  extract_lets -merge -underBinder +onlyGivenNames x3
  have hx3 : Touches [.regs, .cnt, .pow, .led, .hif, .tim, .sch, .yok, .out] s x3 := by
    unfold x3
    exact Touches.chain (State.note_touches ..) (by decide) hx2
  clear_value x3
  refine Touches.ite ?_ ?_
  · exact Touches.chain (State.gatesResume_touches ..) (by decide) hx3
  · exact Touches.chain (State.movedBy_touches ..) (by decide) hx3

theorem State.runSet_touches (s : State) (p1 : ℕ) (p2 : ℕ) :
    Touches [.regs, .cnt, .pow, .led, .hif, .tim, .sch, .yok, .out] s (State.runSet s p1 p2) := by
  unfold State.runSet
  extract_lets -merge -underBinder +onlyGivenNames x0
  clear_value x0
  refine Touches.ite ?_ ?_
  · exact Touches.chain (State.timEnd_touches ..) (by decide) (Touches.rfl' _ s)
  · extract_lets -merge -underBinder +onlyGivenNames x1
    clear_value x1
    extract_lets -merge -underBinder +onlyGivenNames x2
    clear_value x2
    refine Touches.ite ?_ ?_
    · exact Touches.chain (State.timEnd_touches ..) (by decide) (Touches.rfl' _ s)
    · extract_lets -merge -underBinder +onlyGivenNames x3
      clear_value x3
      refine Touches.chain (State.timEnd_touches ..) (by decide) ?_
      exact Touches.chain (State.setTime_touches ..) (by decide) (Touches.rfl' _ s)

theorem State.runStep_touches (s : State) (p1 : ℕ) (p2 : ℕ) :
    Touches [.regs, .cnt, .pow, .led, .hif, .tim, .sch, .yok, .out] s (State.runStep s p1 p2) := by
  unfold State.runStep
  extract_lets -merge -underBinder +onlyGivenNames x0
  clear_value x0
  refine Touches.ite ?_ ?_
  · exact Touches.chain (State.timEnd_touches ..) (by decide) (Touches.rfl' _ s)
  · extract_lets -merge -underBinder +onlyGivenNames x1
    clear_value x1
    extract_lets -merge -underBinder +onlyGivenNames x2
    have hx2 : Touches [.regs, .cnt, .pow, .led, .hif, .tim, .sch, .yok, .out] s x2 := by
      unfold x2
      exact Touches.chain (State.setChan_touches ..) (by decide) (Touches.rfl' _ s)
    clear_value x2
    extract_lets -merge -underBinder +onlyGivenNames x3
    have hx3 : Touches [.regs, .cnt, .pow, .led, .hif, .tim, .sch, .yok, .out] s x3 := by
      unfold x3
      refine Touches.ite ?_ ?_
      · exact hx2
      · exact Touches.chain (State.movedBy_touches ..) (by decide) hx2
    clear_value x3
    exact Touches.chain (State.timEnd_touches ..) (by decide) hx3

theorem State.runSlew_touches (s : State) (p1 : ℕ) (p2 : ℕ) :
    Touches [.regs, .cnt, .pow, .led, .hif, .tim, .yok, .out] s (State.runSlew s p1 p2) := by
  unfold State.runSlew
  extract_lets -merge -underBinder +onlyGivenNames x0
  clear_value x0
  refine Touches.ite ?_ ?_
  · exact Touches.chain (State.timEnd_touches ..) (by decide) (Touches.rfl' _ s)
  · extract_lets -merge -underBinder +onlyGivenNames x1
    clear_value x1
    refine Touches.chain (State.timEnd_touches ..) (by decide) ?_
    exact Touches.chain (State.setChan_touches ..) (by decide) (Touches.rfl' _ s)

theorem State.runStop_touches (s : State) (p1 : ℕ) (p2 : ℕ) :
    Touches [.regs, .cnt, .pow, .led, .hif, .tim, .sch, .yok, .out] s (State.runStop s p1 p2) := by
  unfold State.runStop
  extract_lets -merge -underBinder +onlyGivenNames x0
  clear_value x0
  refine Touches.ite ?_ ?_
  · exact Touches.chain (State.timEnd_touches ..) (by decide) (Touches.rfl' _ s)
  · extract_lets -merge -underBinder +onlyGivenNames x1
    have hx1 : Touches [.regs, .cnt, .pow, .led, .hif, .tim, .sch, .yok, .out] s x1 := by
      unfold x1
      exact Touches.chain (State.setChan_touches ..) (by decide) (Touches.rfl' _ s)
    clear_value x1
    extract_lets -merge -underBinder +onlyGivenNames x2
    have hx2 : Touches [.regs, .cnt, .pow, .led, .hif, .tim, .sch, .yok, .out] s x2 := by
      unfold x2
      exact Touches.chain (State.note_touches ..) (by decide) hx1
    clear_value x2
    refine Touches.chain (State.timEnd_touches ..) (by decide) ?_
    refine Touches.ite ?_ ?_
    · exact Touches.chain (State.gatesLost_touches ..) (by decide) hx2
    · exact hx2

theorem State.timRun_touches (s : State) (p1 : ℕ) (p2 : ℕ) (p3 : ℕ) :
    Touches [.regs, .cnt, .pow, .led, .hif, .tim, .sch, .yok, .out] s (State.timRun s p1 p2 p3) := by
  unfold State.timRun
  split
  · exact (Touches.rfl' _ s)
  · exact Touches.chain (State.runSet_touches ..) (by decide) (Touches.rfl' _ s)
  · exact Touches.chain (State.runStep_touches ..) (by decide) (Touches.rfl' _ s)
  · exact Touches.chain (State.runSlew_touches ..) (by decide) (Touches.rfl' _ s)
  · exact Touches.chain (State.runStop_touches ..) (by decide) (Touches.rfl' _ s)
  · exact Touches.chain (State.timEnd_touches ..) (by decide) (Touches.rfl' _ s)

theorem execChannelSet_touches (p0 : Path) (p1 : Fin 16) (s : State) :
    OutTouches [.regs, .cnt, .armed, .pow, .led, .hif, .tim, .sch, .yok, .held, .out] s (execChannelSet p0 p1 s) := by
  unfold execChannelSet
  show Touches _ _ _
  refine State.cmdWrite_touches (by decide) ?_ (fun z0 z1 hz1 => ?_)
  · exact (Touches.rfl' _ s)
  · exact Touches.chain (State.timRun_touches ..) (by decide) hz1

theorem execChannelStep_touches (p0 : Path) (p1 : Fin 16) (s : State) :
    OutTouches [.regs, .cnt, .armed, .pow, .led, .hif, .tim, .sch, .yok, .held, .out] s (execChannelStep p0 p1 s) := by
  unfold execChannelStep
  show Touches _ _ _
  refine State.cmdWrite_touches (by decide) ?_ (fun z0 z1 hz1 => ?_)
  · exact (Touches.rfl' _ s)
  · exact Touches.chain (State.timRun_touches ..) (by decide) hz1

theorem execChannelSlew_touches (p0 : Path) (p1 : Fin 16) (s : State) :
    OutTouches [.regs, .cnt, .armed, .pow, .led, .hif, .tim, .sch, .yok, .held, .out] s (execChannelSlew p0 p1 s) := by
  unfold execChannelSlew
  show Touches _ _ _
  refine State.cmdWrite_touches (by decide) ?_ (fun z0 z1 hz1 => ?_)
  · exact (Touches.rfl' _ s)
  · exact Touches.chain (State.timRun_touches ..) (by decide) hz1

theorem execChannelStop_touches (p0 : Path) (p1 : Fin 16) (s : State) :
    OutTouches [.regs, .cnt, .armed, .pow, .led, .hif, .tim, .sch, .yok, .held, .out] s (execChannelStop p0 p1 s) := by
  unfold execChannelStop
  show Touches _ _ _
  refine State.cmdWrite_touches (by decide) ?_ (fun z0 z1 hz1 => ?_)
  · exact (Touches.rfl' _ s)
  · exact Touches.chain (State.timRun_touches ..) (by decide) hz1

theorem execTimCmdUnknown_touches (p0 : Path) (p1 : Fin 16) (p2 : Fin 8) (s : State) :
    OutTouches [.regs, .cnt, .armed, .pow, .led, .hif, .tim, .sch, .yok, .held, .out] s (execTimCmdUnknown p0 p1 p2 s) := by
  unfold execTimCmdUnknown
  refine OutTouches.ite ?_ ?_
  · show Touches _ _ _
    exact (Touches.rfl' _ s)
  · show Touches _ _ _
    refine State.cmdWrite_touches (by decide) ?_ (fun z0 z1 hz1 => ?_)
    · exact (Touches.rfl' _ s)
    · exact Touches.chain (State.timRun_touches ..) (by decide) hz1

theorem execSlewDone_touches (p0 : Fin 16) (s : State) :
    OutTouches [.tim] s (execSlewDone p0 s) := by
  unfold execSlewDone
  show Touches _ _ _
  exact Touches.chain (State.setChan_touches ..) (by decide) (Touches.rfl' _ s)

theorem State.freqWrite_touches (s : State) (p1 : ℕ) (p2 : ℕ) (p3 : Word) :
    Touches [.regs, .cnt, .pow, .led, .hif, .tim, .yok, .out] s (State.freqWrite s p1 p2 p3) := by
  unfold State.freqWrite
  refine Touches.ite ?_ ?_
  · refine Touches.chain (State.note_touches ..) (by decide) ?_
    exact Touches.chain (State.result_touches ..) (by decide) (Touches.rfl' _ s)
  · refine Touches.ite ?_ ?_
    · exact Touches.chain (State.note_touches ..) (by decide) (Touches.rfl' _ s)
    · extract_lets -merge -underBinder +onlyGivenNames x0
      clear_value x0
      extract_lets -merge -underBinder +onlyGivenNames x1
      clear_value x1
      exact Touches.chain (State.setChan_touches ..) (by decide) (Touches.rfl' _ s)

theorem execFreqWrite_touches (p0 : Path) (p1 : Fin 16) (p2 : Word) (s : State) :
    OutTouches [.regs, .cnt, .armed, .pow, .led, .hif, .tim, .yok, .held, .out] s (execFreqWrite p0 p1 p2 s) := by
  unfold execFreqWrite
  show Touches _ _ _
  refine State.privWrite_touches (by decide) ?_ (fun z0 z1 hz1 => ?_)
  · exact (Touches.rfl' _ s)
  · exact Touches.chain (State.freqWrite_touches ..) (by decide) hz1

theorem State.chCtrlWrite_touches (s : State) (p1 : ℕ) (p2 : ℕ) (p3 : Word) :
    Touches [.regs, .cnt, .pow, .led, .hif, .tim, .sch, .yok, .out] s (State.chCtrlWrite s p1 p2 p3) := by
  unfold State.chCtrlWrite
  refine Touches.ite ?_ ?_
  · exact Touches.chain (State.note_touches ..) (by decide) (Touches.rfl' _ s)
  · extract_lets -merge -underBinder +onlyGivenNames x0
    have hx0 : Touches [.regs, .cnt, .pow, .led, .hif, .tim, .sch, .yok, .out] s x0 := by
      unfold x0
      exact Touches.chain (State.setChan_touches ..) (by decide) (Touches.rfl' _ s)
    clear_value x0
    extract_lets -merge -underBinder +onlyGivenNames x1
    clear_value x1
    refine Touches.ite ?_ ?_
    · exact hx0
    · extract_lets -merge -underBinder +onlyGivenNames x2
      clear_value x2
      refine Touches.chain (State.setTime_touches ..) (by decide) ?_
      exact Touches.chain (State.setChan_touches ..) (by decide) hx0

theorem execParentWrite_touches (p0 : Path) (p1 : Fin 16) (p2 : Word) (s : State) :
    OutTouches [.regs, .cnt, .armed, .pow, .led, .hif, .tim, .sch, .yok, .held, .out] s (execParentWrite p0 p1 p2 s) := by
  unfold execParentWrite
  show Touches _ _ _
  refine State.privWrite_touches (by decide) ?_ (fun z0 z1 hz1 => ?_)
  · exact (Touches.rfl' _ s)
  · exact Touches.chain (State.chCtrlWrite_touches ..) (by decide) hz1

theorem State.loopFreq_touches (s : State) (p1 : ℕ) :
    Touches [.tim, .free] s (State.loopFreq s p1) := by
  unfold State.loopFreq
  split
  rename_i v0 v1 v2 e3
  have hv2 : Touches [.tim, .free] s v2 := by
    refine Touches.ofSnd e3 ?_
    exact Touches.chain (State.draw_touches ..) (by decide) (Touches.rfl' _ s)
  exact Touches.chain (State.setChan_touches ..) (by decide) hv2

theorem State.missEdge_touches (s : State) (p1 : ℕ) :
    Touches [.regs, .cnt, .pow, .led, .hif, .tim, .yok, .out] s (State.missEdge s p1) := by
  unfold State.missEdge
  extract_lets -merge -underBinder +onlyGivenNames x0
  clear_value x0
  refine Touches.ite ?_ ?_
  · exact Touches.chain (State.setChan_touches ..) (by decide) (Touches.rfl' _ s)
  · refine Touches.ite ?_ ?_
    · exact (Touches.rfl' _ s)
    · refine Touches.ite ?_ ?_
      · exact Touches.chain (State.setChan_touches ..) (by decide) (Touches.rfl' _ s)
      · refine Touches.chain (State.note_touches ..) (by decide) ?_
        exact Touches.chain (State.setChan_touches ..) (by decide) (Touches.rfl' _ s)

theorem State.takeTod_touches (s : State) (p1 : ℕ) (p2 : ℤ) :
    Touches [.regs, .cnt, .pow, .led, .hif, .tim, .sch, .yok, .out] s (State.takeTod s p1 p2) := by
  unfold State.takeTod
  split
  · exact (Touches.rfl' _ s)
  · refine Touches.ite ?_ ?_
    · exact (Touches.rfl' _ s)
    · extract_lets -merge -underBinder +onlyGivenNames x0
      clear_value x0
      extract_lets -merge -underBinder +onlyGivenNames x1
      clear_value x1
      refine Touches.ite ?_ ?_
      · exact (Touches.rfl' _ s)
      · extract_lets -merge -underBinder +onlyGivenNames x2
        clear_value x2
        extract_lets -merge -underBinder +onlyGivenNames x3
        have hx3 : Touches [.regs, .cnt, .pow, .led, .hif, .tim, .sch, .yok, .out] s x3 := by
          unfold x3
          exact Touches.chain (State.setChan_touches ..) (by decide) (Touches.rfl' _ s)
        clear_value x3
        refine Touches.chain (State.note_touches ..) (by decide) ?_
        exact Touches.chain (State.movedBy_touches ..) (by decide) hx3

theorem State.acquireStep_touches (s : State) (p1 : ℕ) (p2 : ℤ) :
    Touches [.regs, .cnt, .pow, .led, .hif, .tim, .yok, .out] s (State.acquireStep s p1 p2) := by
  unfold State.acquireStep
  extract_lets -merge -underBinder +onlyGivenNames x0 x1
  clear_value x0 x1
  refine Touches.ite ?_ ?_
  · refine Touches.chain (State.note_touches ..) (by decide) ?_
    exact Touches.chain (State.setChan_touches ..) (by decide) (Touches.rfl' _ s)
  · exact Touches.chain (State.setChan_touches ..) (by decide) (Touches.rfl' _ s)

theorem State.steer_touches (s : State) (p1 : ℕ) (p2 : ℤ) :
    Touches [.regs, .cnt, .pow, .led, .hif, .tim, .sch, .yok, .out, .free] s (State.steer s p1 p2) := by
  unfold State.steer
  extract_lets -merge -underBinder +onlyGivenNames x0 x1 x2
  clear_value x0 x1 x2
  refine Touches.ite ?_ ?_
  · refine Touches.chain (State.missEdge_touches ..) (by decide) ?_
    exact Touches.chain (State.inc_touches ..) (by decide) (Touches.rfl' _ s)
  · extract_lets -merge -underBinder +onlyGivenNames x3
    have hx3 : Touches [.regs, .cnt, .pow, .led, .hif, .tim, .sch, .yok, .out, .free] s x3 := by
      unfold x3
      refine Touches.chain (State.wr_touches ..) (by decide) ?_
      exact Touches.chain (State.inc_touches ..) (by decide) (Touches.rfl' _ s)
    clear_value x3
    extract_lets -merge -underBinder +onlyGivenNames x4
    clear_value x4
    extract_lets -merge -underBinder +onlyGivenNames x5
    have hx5 : Touches [.regs, .cnt, .pow, .led, .hif, .tim, .sch, .yok, .out, .free] s x5 := by
      unfold x5
      refine Touches.set_tim (x := x3) ?_ (by decide)
      exact hx3
    clear_value x5
    extract_lets -merge -underBinder +onlyGivenNames x6
    have hx6 : Touches [.regs, .cnt, .pow, .led, .hif, .tim, .sch, .yok, .out, .free] s x6 := by
      unfold x6
      exact Touches.chain (State.takeTod_touches ..) (by decide) hx5
    clear_value x6
    split
    · refine Touches.chain (State.loopFreq_touches ..) (by decide) ?_
      exact Touches.chain (State.setChan_touches ..) (by decide) hx6
    · extract_lets -merge -underBinder +onlyGivenNames x7
      have hx7 : Touches [.regs, .cnt, .pow, .led, .hif, .tim, .sch, .yok, .out, .free] s x7 := by
        unfold x7
        exact Touches.chain (State.setChan_touches ..) (by decide) hx6
      clear_value x7
      refine Touches.ite ?_ ?_
      · extract_lets -merge -underBinder +onlyGivenNames x8
        have hx8 : Touches [.regs, .cnt, .pow, .led, .hif, .tim, .sch, .yok, .out, .free] s x8 := by
          unfold x8
          exact Touches.chain (State.setChan_touches ..) (by decide) hx7
        clear_value x8
        refine Touches.ite ?_ ?_
        · exact Touches.chain (State.movedBy_touches ..) (by decide) hx8
        · refine Touches.chain (State.note_touches ..) (by decide) ?_
          exact Touches.chain (State.inc_touches ..) (by decide) hx8
      · refine Touches.chain (State.acquireStep_touches ..) (by decide) ?_
        refine Touches.chain (State.loopFreq_touches ..) (by decide) ?_
        exact Touches.chain (State.setChan_touches ..) (by decide) hx7

theorem State.firstEdge_touches (s : State) (p1 : ℕ) (p2 : ℤ) :
    Touches [.regs, .cnt, .pow, .led, .hif, .tim, .sch, .yok, .out] s (State.firstEdge s p1 p2) := by
  unfold State.firstEdge
  extract_lets -merge -underBinder +onlyGivenNames x0
  have hx0 : Touches [.regs, .cnt, .pow, .led, .hif, .tim, .sch, .yok, .out] s x0 := by
    unfold x0
    refine Touches.chain (State.setChan_touches ..) (by decide) ?_
    exact Touches.chain (State.inc_touches ..) (by decide) (Touches.rfl' _ s)
  clear_value x0
  extract_lets -merge -underBinder +onlyGivenNames x1
  clear_value x1
  extract_lets -merge -underBinder +onlyGivenNames x2
  have hx2 : Touches [.regs, .cnt, .pow, .led, .hif, .tim, .sch, .yok, .out] s x2 := by
    unfold x2
    refine Touches.chain (State.wr_touches ..) (by decide) ?_
    refine Touches.set_tim (x := x0) ?_ (by decide)
    exact hx0
  clear_value x2
  refine Touches.chain (State.gatesResume_touches ..) (by decide) ?_
  exact Touches.chain (State.takeTod_touches ..) (by decide) hx2

theorem execPpsInEdge_touches (p0 : ℕ) (p1 : Fin 8) (s : State) :
    OutTouches [.regs, .cnt, .pow, .led, .hif, .tim, .sch, .yok, .out, .free] s (execPpsInEdge p0 p1 s) := by
  unfold execPpsInEdge
  refine OutTouches.ite ?_ ?_
  · show Touches _ _ _
    exact (Touches.rfl' _ s)
  · extract_lets -merge -underBinder +onlyGivenNames x0
    clear_value x0
    extract_lets -merge -underBinder +onlyGivenNames x1
    clear_value x1
    extract_lets -merge -underBinder +onlyGivenNames x2
    have hx2 : Touches [.regs, .cnt, .pow, .led, .hif, .tim, .sch, .yok, .out, .free] s x2 := by
      unfold x2
      refine Touches.foldl _ _ ?_ (fun y3 a3 hy3 => ?_)
      · exact (Touches.rfl' _ s)
      · refine Touches.ite ?_ ?_
        · exact Touches.chain (State.firstEdge_touches ..) (by decide) hy3
        · exact Touches.chain (State.steer_touches ..) (by decide) hy3
    clear_value x2
    show Touches _ _ _
    refine Touches.ite ?_ ?_
    · refine Touches.set_tim (x := x2) ?_ (by decide)
      exact hx2
    · exact hx2

theorem execPpsEdgeMissed_touches (s : State) :
    OutTouches [.regs, .cnt, .pow, .led, .hif, .tim, .yok, .out] s (execPpsEdgeMissed s) := by
  unfold execPpsEdgeMissed
  show Touches _ _ _
  refine Touches.foldl _ _ ?_ (fun y0 a0 hy0 => ?_)
  · exact (Touches.rfl' _ s)
  · exact Touches.chain (State.missEdge_touches ..) (by decide) hy0

theorem execTodMessage_touches (p0 : List Byte) (p1 : ℕ) (s : State) :
    OutTouches [.regs, .cnt, .tim] s (execTodMessage p0 p1 s) := by
  unfold execTodMessage
  extract_lets -merge -underBinder +onlyGivenNames x0 x1 x2 x3
  clear_value x0 x1 x2 x3
  refine OutTouches.ite ?_ ?_
  · extract_lets -merge -underBinder +onlyGivenNames x4
    have hx4 : Touches [.regs, .cnt, .tim] s x4 := by
      unfold x4
      exact Touches.chain (State.inc_touches ..) (by decide) (Touches.rfl' _ s)
    clear_value x4
    extract_lets -merge -underBinder +onlyGivenNames x5
    have hx5 : Touches [.regs, .cnt, .tim] s x5 := by
      unfold x5
      refine Touches.foldl _ _ ?_ (fun y6 a6 hy6 => ?_)
      · exact hx4
      · exact Touches.chain (State.wr_touches ..) (by decide) hy6
    clear_value x5
    show Touches _ _ _
    refine Touches.set_tim (x := x5) ?_ (by decide)
    exact hx5
  · show Touches _ _ _
    exact Touches.chain (State.inc_touches ..) (by decide) (Touches.rfl' _ s)

theorem execPpsOutEdge_touches (s : State) :
    OutTouches [.tim, .out] s (execPpsOutEdge s) := by
  unfold execPpsOutEdge
  split
  · refine OutTouches.ite ?_ ?_
    · show Touches _ _ _
      refine Touches.chain (State.emit_touches ..) (by decide) ?_
      refine Touches.set_tim (x := s) ?_ (by decide)
      exact (Touches.rfl' _ s)
    · show Touches _ _ _
      exact (Touches.rfl' _ s)
  · show Touches _ _ _
    exact (Touches.rfl' _ s)

theorem State.ppsDown_touches (s : State) :
    Touches [.tim, .out] s (State.ppsDown s) := by
  unfold State.ppsDown
  split
  · refine Touches.ite ?_ ?_
    · refine Touches.chain (State.emit_touches ..) (by decide) ?_
      refine Touches.set_tim (x := s) ?_ (by decide)
      exact (Touches.rfl' _ s)
    · exact (Touches.rfl' _ s)
  · exact (Touches.rfl' _ s)

theorem execTodOutSend_touches (s : State) :
    OutTouches [.tim, .out] s (execTodOutSend s) := by
  unfold execTodOutSend
  split
  · refine OutTouches.ite ?_ ?_
    · show Touches _ _ _
      refine Touches.chain (State.emit_touches ..) (by decide) ?_
      refine Touches.set_tim (x := s) ?_ (by decide)
      exact (Touches.rfl' _ s)
    · show Touches _ _ _
      exact (Touches.rfl' _ s)
  · show Touches _ _ _
    exact (Touches.rfl' _ s)

end Sys2Proof.Machine
end

