-- ==== Sys2Proof/Laws/TouchRegOps.lean ====
section
/-! SUPPORT. What each operation of Machine/RegOps.lean may touch. -/

namespace Sys2Proof.Machine

open Sys2Proof

theorem State.allotRuns_touches (s : State) (p1 : ℕ) :
    Touches [.hif] s (State.allotRuns s p1) := by
  unfold State.allotRuns
  extract_lets -merge -underBinder +onlyGivenNames x0 x1 x2
  clear_value x0 x1 x2
  refine Touches.set_hif (x := s) ?_ (by decide)
  exact (Touches.rfl' _ s)

theorem State.afterWrite_touches (s : State) (p1 : ℕ) (p2 : ℕ) (p3 : Word) (p4 : Word) :
    Touches [.regs, .cnt, .ctl, .pow, .led, .hif, .st, .cls, .yok, .out] s (State.afterWrite s p1 p2 p3 p4) := by
  unfold State.afterWrite
  refine Touches.ite ?_ ?_
  · exact Touches.chain (State.startStores_touches ..) (by decide) (Touches.rfl' _ s)
  · refine Touches.ite ?_ ?_
    · refine Touches.ite ?_ ?_
      · exact (Touches.rfl' _ s)
      · exact Touches.chain (State.endAuto_touches ..) (by decide) (Touches.rfl' _ s)
    · refine Touches.ite ?_ ?_
      · exact Touches.chain (State.driveAlert_touches ..) (by decide) (Touches.rfl' _ s)
      · refine Touches.ite ?_ ?_
        · refine Touches.ite ?_ ?_
          · exact (Touches.rfl' _ s)
          · exact Touches.chain (State.setFlg_touches ..) (by decide) (Touches.rfl' _ s)
        · refine Touches.ite ?_ ?_
          · exact Touches.chain (State.allotRuns_touches ..) (by decide) (Touches.rfl' _ s)
          · refine Touches.ite ?_ ?_
            · exact Touches.chain (State.quotaSettle_touches ..) (by decide) (Touches.rfl' _ s)
            · exact (Touches.rfl' _ s)

theorem State.skewRefused_touches (s : State) (p1 : ℕ) (p2 : Word) :
    Touches Part.note s (State.skewRefused s p1 p2).1 := by
  unfold State.skewRefused
  extract_lets -merge -underBinder +onlyGivenNames x0
  clear_value x0
  refine Touches.ite1 ?_ ?_
  · refine Touches.mk1 ?_
    exact Touches.chain (State.note_touches ..) (by decide) (Touches.rfl' _ s)
  · refine Touches.mk1 ?_
    exact (Touches.rfl' _ s)

theorem State.plainWrite_touches (s : State) (p1 : RegRow) (p2 : ℕ) (p3 : ℕ) (p4 : ℕ) (p5 : Word) :
    Touches [.regs, .cnt, .ctl, .pow, .led, .hif, .st, .cls, .sch, .yok, .out] s (State.plainWrite s p1 p2 p3 p4 p5) := by
  unfold State.plainWrite
  refine Touches.ite ?_ ?_
  · exact Touches.chain (State.note_touches ..) (by decide) (Touches.rfl' _ s)
  · split
    · exact (Touches.rfl' _ s)
    · extract_lets -merge -underBinder +onlyGivenNames x0
      clear_value x0
      extract_lets -merge -underBinder +onlyGivenNames x1
      clear_value x1
      extract_lets -merge -underBinder +onlyGivenNames x2
      have hx2 : Touches [.regs, .cnt, .ctl, .pow, .led, .hif, .st, .cls, .sch, .yok, .out] s x2 := by
        unfold x2
        refine Touches.ite ?_ ?_
        · exact Touches.chain (State.lockIgnored_touches ..) (by decide) (Touches.rfl' _ s)
        · exact (Touches.rfl' _ s)
      clear_value x2
      split
      rename_i v3 v4 v5 e6
      have hv4 : Touches [.regs, .cnt, .ctl, .pow, .led, .hif, .st, .cls, .sch, .yok, .out] s v4 := by
        refine Touches.ofFst e6 ?_
        refine Touches.ite1 ?_ ?_
        · exact hx2
        · exact Touches.chain (State.skewRefused_touches ..) (by decide) hx2
      extract_lets -merge -underBinder +onlyGivenNames x7 x8
      clear_value x7 x8
      extract_lets -merge -underBinder +onlyGivenNames x9
      have hx9 : ∀ z10, Touches [.regs, .cnt, .ctl, .pow, .led, .hif, .st, .cls, .sch, .yok, .out] s z10 → Touches [.regs, .cnt, .ctl, .pow, .led, .hif, .st, .cls, .sch, .yok, .out] s (x9 z10) := by
        intro z10 hz10
        unfold x9
        beta_reduce
        refine Touches.chain (State.afterWrite_touches ..) (by decide) ?_
        exact Touches.chain (State.wr_touches ..) (by decide) hz10
      clear_value x9
      split
      · refine State.reshape_touches (by decide) ?_ (fun z11 hz11 => ?_)
        · exact hv4
        · refine hx9 _ ?_
          exact hz11
      · refine hx9 _ ?_
        exact hv4

theorem State.allotCtrlEffect_touches (s : State) (p1 : ℕ) (p2 : Word) :
    Touches Part.note s (State.allotCtrlEffect s p1 p2) := by
  unfold State.allotCtrlEffect
  extract_lets -merge -underBinder +onlyGivenNames x0 x1 x2
  clear_value x0 x1 x2
  refine Touches.ite ?_ ?_
  · exact Touches.chain (State.note_touches ..) (by decide) (Touches.rfl' _ s)
  · refine Touches.ite ?_ ?_
    · exact Touches.chain (State.note_touches ..) (by decide) (Touches.rfl' _ s)
    · exact Touches.chain (State.wr_touches ..) (by decide) (Touches.rfl' _ s)

theorem State.ownEffect_touches (s : State) (p1 : ℕ) (p2 : ℕ) (p3 : ℕ) (p4 : ℕ) (p5 : Word) :
    OptTouches Part.main s (State.ownEffect s p1 p2 p3 p4 p5) := by
  unfold State.ownEffect
  refine OptTouches.ite ?_ ?_
  · show Touches _ _ _
    exact Touches.chain (State.laneCtrlEffect_touches ..) (by decide) (Touches.rfl' _ s)
  · refine OptTouches.ite ?_ ?_
    · show Touches _ _ _
      exact Touches.chain (State.portEnableEffect_touches ..) (by decide) (Touches.rfl' _ s)
    · refine OptTouches.ite ?_ ?_
      · show Touches _ _ _
        exact Touches.chain (State.portEnableEffect_touches ..) (by decide) (Touches.rfl' _ s)
      · refine OptTouches.ite ?_ ?_
        · show Touches _ _ _
          exact Touches.chain (State.cmEffect_touches ..) (by decide) (Touches.rfl' _ s)
        · refine OptTouches.ite ?_ ?_
          · show Touches _ _ _
            exact Touches.chain (State.cmEffect_touches ..) (by decide) (Touches.rfl' _ s)
          · refine OptTouches.ite ?_ ?_
            · show Touches _ _ _
              exact Touches.chain (State.pairCfgEffect_touches ..) (by decide) (Touches.rfl' _ s)
            · refine OptTouches.ite ?_ ?_
              · show Touches _ _ _
                exact Touches.chain (State.hashSeedEffect_touches ..) (by decide) (Touches.rfl' _ s)
              · refine OptTouches.ite ?_ ?_
                · show Touches _ _ _
                  exact Touches.chain (State.gateCfgEffect_touches ..) (by decide) (Touches.rfl' _ s)
                · refine OptTouches.ite ?_ ?_
                  · show Touches _ _ _
                    exact Touches.chain (State.allotWindowEffect_touches ..) (by decide) (Touches.rfl' _ s)
                  · refine OptTouches.ite ?_ ?_
                    · show Touches _ _ _
                      refine Touches.ite ?_ ?_
                      · exact Touches.chain (State.allotWindowEffect_touches ..) (by decide) (Touches.rfl' _ s)
                      · exact (Touches.rfl' _ s)
                    · refine OptTouches.ite ?_ ?_
                      · show Touches _ _ _
                        exact Touches.chain (State.chCtrlWrite_touches ..) (by decide) (Touches.rfl' _ s)
                      · refine OptTouches.ite ?_ ?_
                        · show Touches _ _ _
                          exact Touches.chain (State.freqWrite_touches ..) (by decide) (Touches.rfl' _ s)
                        · refine OptTouches.ite ?_ ?_
                          · show Touches _ _ _
                            exact Touches.chain (State.sensorCfgEffect_touches ..) (by decide) (Touches.rfl' _ s)
                          · refine OptTouches.ite ?_ ?_
                            · show Touches _ _ _
                              exact Touches.chain (State.sensorCfgEffect_touches ..) (by decide) (Touches.rfl' _ s)
                            · refine OptTouches.ite ?_ ?_
                              · show Touches _ _ _
                                exact Touches.chain (State.hdgIndexEffect_touches ..) (by decide) (Touches.rfl' _ s)
                              · refine OptTouches.ite ?_ ?_
                                · show Touches _ _ _
                                  exact Touches.chain (State.logIndexEffect_touches ..) (by decide) (Touches.rfl' _ s)
                                · refine OptTouches.ite ?_ ?_
                                  · show Touches _ _ _
                                    exact Touches.chain (State.snapCfgEffect_touches ..) (by decide) (Touches.rfl' _ s)
                                  · refine OptTouches.ite ?_ ?_
                                    · show Touches _ _ _
                                      exact Touches.chain (State.fuCfgEffect_touches ..) (by decide) (Touches.rfl' _ s)
                                    · refine OptTouches.ite ?_ ?_
                                      · show Touches _ _ _
                                        exact Touches.chain (State.allotCtrlEffect_touches ..) (by decide) (Touches.rfl' _ s)
                                      · exact trivial

theorem State.regEffect_touches (s : State) (p1 : ℕ) (p2 : ℕ) (p3 : Word) :
    Touches Part.main s (State.regEffect s p1 p2 p3) := by
  unfold State.regEffect
  split
  · exact (Touches.rfl' _ s)
  · refine Touches.ite ?_ ?_
    · exact (Touches.rfl' _ s)
    · split
      · rename_i v0 v1 e2
        have hv1 : Touches Part.main s v1 := by
          refine OptTouches.ofSome e2 ?_
          exact OptTouches.chain (State.ownEffect_touches ..) (by decide) (Touches.rfl' _ s)
        exact hv1
      · rename_i v3 e4
        exact Touches.chain (State.plainWrite_touches ..) (by decide) (Touches.rfl' _ s)

end Sys2Proof.Machine
end

