-- ==== Sys2Proof/Laws/TouchCipher.lean ====
section
/-! SUPPORT. What each operation of Machine/Cipher.lean may touch. -/

namespace Sys2Proof.Machine

open Sys2Proof

theorem State.cphCount_touches (s : State) (p1 : ℕ) (p2 : ℕ) :
    Touches [.cnt] s (State.cphCount s p1 p2) := by
  unfold State.cphCount
  exact Touches.chain (State.incBy_touches ..) (by decide) (Touches.rfl' _ s)

theorem State.modPair_touches (s : State) (p1 : ℕ) (p2 : CPair → CPair) :
    Touches [.cph] s (State.modPair s p1 p2) := by
  unfold State.modPair
  refine Touches.set_cph (x := s) ?_ (by decide)
  exact (Touches.rfl' _ s)

theorem State.substitute_touches (s : State) (p1 : ℕ) (p2 : ℕ) (p3 : ℕ) :
    Touches [.cph] s (State.substitute s p1 p2 p3) := by
  unfold State.substitute
  exact Touches.chain (State.modPair_touches ..) (by decide) (Touches.rfl' _ s)

theorem State.startKat_touches (s : State) (p1 : ℕ) (p2 : Option (ℕ × ℕ)) :
    Touches [.cph] s (State.startKat s p1 p2) := by
  unfold State.startKat
  extract_lets -merge -underBinder +onlyGivenNames x0
  have hx0 : Touches [.cph] s x0 := by
    unfold x0
    exact Touches.chain (State.modPair_touches ..) (by decide) (Touches.rfl' _ s)
  clear_value x0
  refine Touches.set_cph (x := x0) ?_ (by decide)
  exact hx0

theorem State.fillOne_touches (s : State) (p1 : ℕ × ℕ) (p2 : List (ℕ × ℕ)) :
    Touches [.regs, .cnt, .pow, .led, .hif, .cph, .yok, .out] s (State.fillOne s p1 p2) := by
  unfold State.fillOne
  extract_lets -merge -underBinder +onlyGivenNames x0
  clear_value x0
  extract_lets -merge -underBinder +onlyGivenNames x1
  have hx1 : Touches [.regs, .cnt, .pow, .led, .hif, .cph, .yok, .out] s x1 := by
    unfold x1
    refine Touches.set_cph (x := s) ?_ (by decide)
    exact (Touches.rfl' _ s)
  clear_value x1
  split
  · exact Touches.chain (State.startKat_touches ..) (by decide) hx1
  · refine Touches.ite ?_ ?_
    · exact (Touches.rfl' _ s)
    · refine Touches.ite ?_ ?_
      · split
        · refine Touches.chain (State.note_touches ..) (by decide) ?_
          exact Touches.chain (State.substitute_touches ..) (by decide) hx1
        · exact (Touches.rfl' _ s)
      · refine Touches.ite ?_ ?_
        · exact (Touches.rfl' _ s)
        · refine Touches.chain (State.note_touches ..) (by decide) ?_
          refine Touches.chain (State.note_touches ..) (by decide) ?_
          refine Touches.set_cph (x := s) ?_ (by decide)
          exact (Touches.rfl' _ s)

theorem State.fillVacant_touches (s : State) (p1 : ℕ) :
    Touches [.regs, .cnt, .pow, .led, .hif, .cph, .yok, .out] s (State.fillVacant s p1) := by
  unfold State.fillVacant
  split
  · exact (Touches.rfl' _ s)
  · split
    · refine Touches.set_cph (x := s) ?_ (by decide)
      exact (Touches.rfl' _ s)
    · extract_lets -merge -underBinder +onlyGivenNames x0
      have hx0 : Touches [.regs, .cnt, .pow, .led, .hif, .cph, .yok, .out] s x0 := by
        unfold x0
        exact Touches.chain (State.fillOne_touches ..) (by decide) (Touches.rfl' _ s)
      clear_value x0
      refine Touches.ite ?_ ?_
      · refine Touches.chain (State.fillVacant_touches ..) (by decide) ?_
        exact hx0
      · exact hx0

theorem State.retirePair_touches (s : State) (p1 : ℕ) (p2 : ℕ) :
    Touches Part.main s (State.retirePair s p1 p2) := by
  unfold State.retirePair
  extract_lets -merge -underBinder +onlyGivenNames x0
  clear_value x0
  extract_lets -merge -underBinder +onlyGivenNames x1
  have hx1 : Touches Part.main s x1 := by
    unfold x1
    exact Touches.chain (State.modPair_touches ..) (by decide) (Touches.rfl' _ s)
  clear_value x1
  extract_lets -merge -underBinder +onlyGivenNames x2
  have hx2 : Touches Part.main s x2 := by
    unfold x2
    exact Touches.chain (State.note_touches ..) (by decide) hx1
  clear_value x2
  extract_lets -merge -underBinder +onlyGivenNames x3
  clear_value x3
  extract_lets -merge -underBinder +onlyGivenNames x4
  have hx4 : Touches Part.main s x4 := by
    unfold x4
    refine Touches.ite ?_ ?_
    · refine Touches.set_cph (x := x2) ?_ (by decide)
      exact hx2
    · exact hx2
  clear_value x4
  refine Touches.chain (State.recheck_touches ..) (by decide) ?_
  exact Touches.chain (State.fillVacant_touches ..) (by decide) hx4

theorem State.endJob_touches (s : State) (p1 : ℕ) (p2 : ℕ) (p3 : ℕ) :
    Touches [.regs, .cnt, .pow, .led, .hif, .cph, .kvt, .yok, .out] s (State.endJob s p1 p2 p3) := by
  unfold State.endJob
  split
  · exact (Touches.rfl' _ s)
  · extract_lets -merge -underBinder +onlyGivenNames x0
    have hx0 : Touches [.regs, .cnt, .pow, .led, .hif, .cph, .kvt, .yok, .out] s x0 := by
      unfold x0
      split
      · exact Touches.chain (State.endItem_touches ..) (by decide) (Touches.rfl' _ s)
      · exact (Touches.rfl' _ s)
    clear_value x0
    extract_lets -merge -underBinder +onlyGivenNames x1
    have hx1 : Touches [.regs, .cnt, .pow, .led, .hif, .cph, .kvt, .yok, .out] s x1 := by
      unfold x1
      exact Touches.chain (State.setJob_touches ..) (by decide) hx0
    clear_value x1
    refine Touches.chain (State.fillVacant_touches ..) (by decide) ?_
    exact Touches.chain (State.flushRing_touches ..) (by decide) hx1

theorem State.afterSquash_touches (s : State) (p1 : ItemKind) (p2 : Bool) :
    Touches Part.main s (State.afterSquash s p1 p2) := by
  unfold State.afterSquash
  split
  · extract_lets -merge -underBinder +onlyGivenNames x0
    have hx0 : Touches Part.main s x0 := by
      unfold x0
      exact Touches.chain (State.excuse_touches ..) (by decide) (Touches.rfl' _ s)
    clear_value x0
    refine Touches.ite ?_ ?_
    · exact hx0
    · split
      · exact Touches.chain (State.beginSend_touches ..) (by decide) hx0
      · exact hx0
  · split
    · exact (Touches.rfl' _ s)
    · refine Touches.ite ?_ ?_
      · exact Touches.chain (State.localException_touches ..) (by decide) (Touches.rfl' _ s)
      · exact Touches.chain (State.setVerdict_touches ..) (by decide) (Touches.rfl' _ s)
  · exact Touches.chain (State.excuse_touches ..) (by decide) (Touches.rfl' _ s)
  · exact (Touches.rfl' _ s)
  · exact (Touches.rfl' _ s)

theorem State.squash_touches (s : State) (p1 : ℕ) (p2 : ℕ) (p3 : Bool) :
    Touches Part.main s (State.squash s p1 p2 p3) := by
  unfold State.squash
  split
  · exact (Touches.rfl' _ s)
  · refine Touches.chain (State.afterSquash_touches ..) (by decide) ?_
    exact Touches.chain (State.squashItems_touches ..) (by decide) (Touches.rfl' _ s)

theorem State.mismatch_touches (s : State) (p1 : ℕ) (p2 : Bool) :
    Touches Part.main s (State.mismatch s p1 p2) := by
  unfold State.mismatch
  extract_lets -merge -underBinder +onlyGivenNames x0
  have hx0 : Touches Part.main s x0 := by
    unfold x0
    exact Touches.chain (State.modPair_touches ..) (by decide) (Touches.rfl' _ s)
  extract_lets -merge -underBinder +onlyGivenNames x1
  have hx1 : Touches Part.main s x1 := by
    unfold x1
    refine Touches.chain (State.note_touches ..) (by decide) ?_
    exact Touches.chain (State.cphCount_touches ..) (by decide) hx0
  extract_lets -merge -underBinder +onlyGivenNames x2
  extract_lets -merge -underBinder +onlyGivenNames x3
  have hx3 : Touches Part.main s x3 := by
    unfold x3
    refine Touches.set_cph (x := x1) ?_ (by decide)
    exact hx1
  extract_lets -merge -underBinder +onlyGivenNames x4
  have hx4 : Touches Part.main s x4 := by
    unfold x4
    refine Touches.ite ?_ ?_
    · exact Touches.chain (State.raise_touches ..) (by decide) hx3
    · exact hx3
  refine Touches.ite ?_ ?_
  · exact Touches.chain (State.retirePair_touches ..) (by decide) hx4
  · exact hx4

theorem State.retireNow_touches (s : State) (p1 : ℕ) :
    Touches Part.main s (State.retireNow s p1) := by
  unfold State.retireNow
  extract_lets -merge -underBinder +onlyGivenNames x0
  have hx0 : Touches Part.main s x0 := by
    unfold x0
    refine Touches.foldl _ _ ?_ (fun y1 a1 hy1 => ?_)
    · exact (Touches.rfl' _ s)
    · exact Touches.chain (State.squash_touches ..) (by decide) hy1
  clear_value x0
  refine Touches.ite ?_ ?_
  · exact hx0
  · exact Touches.chain (State.retirePair_touches ..) (by decide) hx0

theorem execCipherBlockRelease_touches (p0 : Fin 72) (p1 : ℕ) (p2 : Bool) (p3 : Bool) (p4 : Bool) (p5 : Bool) (s : State) :
    OutTouches Part.main s (execCipherBlockRelease p0 p1 p2 p3 p4 p5 s) := by
  unfold execCipherBlockRelease
  extract_lets -merge -underBinder +onlyGivenNames x0
  clear_value x0
  split
  · show Touches _ _ _
    exact (Touches.rfl' _ s)
  · refine OutTouches.ite ?_ ?_
    · show Touches _ _ _
      exact (Touches.rfl' _ s)
    · extract_lets -merge -underBinder +onlyGivenNames x1
      have hx1 : Touches Part.main s x1 := by
        unfold x1
        exact Touches.chain (State.mismatch_touches ..) (by decide) (Touches.rfl' _ s)
      clear_value x1
      refine OutTouches.ite ?_ ?_
      · show Touches _ _ _
        exact Touches.chain (State.squash_touches ..) (by decide) hx1
      · refine OutTouches.ite ?_ ?_
        · show Touches _ _ _
          exact hx1
        · extract_lets -merge -underBinder +onlyGivenNames x2
          have hx2 : Touches Part.main s x2 := by
            unfold x2
            refine Touches.chain (State.note_touches ..) (by decide) ?_
            exact Touches.chain (State.cphCount_touches ..) (by decide) hx1
          clear_value x2
          show Touches _ _ _
          refine Touches.chain (State.retireNow_touches ..) (by decide) ?_
          exact Touches.chain (State.squash_touches ..) (by decide) hx2

theorem execMismatchWindowEnd_touches (p0 : Fin 72) (s : State) :
    OutTouches [.cph] s (execMismatchWindowEnd p0 s) := by
  unfold execMismatchWindowEnd
  show Touches _ _ _
  exact Touches.chain (State.modPair_touches ..) (by decide) (Touches.rfl' _ s)

theorem execBurstWindowEnd_touches (s : State) :
    OutTouches [.cph] s (execBurstWindowEnd s) := by
  unfold execBurstWindowEnd
  show Touches _ _ _
  refine Touches.set_cph (x := s) ?_ (by decide)
  exact (Touches.rfl' _ s)

theorem execSpareKatTick_touches (s : State) :
    OutTouches [.cph] s (execSpareKatTick s) := by
  unfold execSpareKatTick
  show Touches _ _ _
  refine Touches.foldl _ _ ?_ (fun y0 a0 hy0 => ?_)
  · exact (Touches.rfl' _ s)
  · refine Touches.ite ?_ ?_
    · exact Touches.chain (State.startKat_touches ..) (by decide) hy0
    · exact hy0

theorem State.pairEnd_touches (s : State) (p1 : ℕ) :
    Touches [.regs] s (State.pairEnd s p1) := by
  unfold State.pairEnd
  exact Touches.chain (State.result_touches ..) (by decide) (Touches.rfl' _ s)

theorem State.katEnd_touches (s : State) (p1 : ℕ) (p2 : Option (ℕ × ℕ)) (p3 : Bool) :
    Touches Part.main s (State.katEnd s p1 p2 p3) := by
  unfold State.katEnd
  extract_lets -merge -underBinder +onlyGivenNames x0
  extract_lets -merge -underBinder +onlyGivenNames x1
  clear_value x1
  extract_lets -merge -underBinder +onlyGivenNames x2
  have hx2 : Touches Part.main s x2 := by
    unfold x2
    refine Touches.set_cph (x := s) ?_ (by decide)
    exact (Touches.rfl' _ s)
  clear_value x2
  extract_lets -merge -underBinder +onlyGivenNames x3
  have hx3 : Touches Part.main s x3 := by
    unfold x3
    exact Touches.chain (State.note_touches ..) (by decide) hx2
  clear_value x3
  extract_lets -merge -underBinder +onlyGivenNames x4
  have hx4 : Touches Part.main s x4 := by
    unfold x4
    split
    · refine Touches.set_cph (x := x3) ?_ (by decide)
      exact hx3
    · exact hx3
  clear_value x4
  extract_lets -merge -underBinder +onlyGivenNames x5
  have hx5 : Touches Part.main s x5 := by
    unfold x5
    refine Touches.ite ?_ ?_
    · split
      · refine Touches.chain (State.note_touches ..) (by decide) ?_
        exact Touches.chain (State.substitute_touches ..) (by decide) hx2
      · exact Touches.chain (State.modPair_touches ..) (by decide) hx2
    · exact Touches.chain (State.retirePair_touches ..) (by decide) hx4
  clear_value x5
  extract_lets -merge -underBinder +onlyGivenNames x6
  have hx6 : Touches Part.main s x6 := by
    unfold x6
    refine Touches.ite ?_ ?_
    · exact Touches.chain (State.pairEnd_touches ..) (by decide) hx5
    · exact hx5
  clear_value x6
  refine Touches.chain (State.recheck_touches ..) (by decide) ?_
  exact Touches.chain (State.fillVacant_touches ..) (by decide) hx6

theorem execKatDone_touches (p0 : Fin 72) (p1 : Bool) (s : State) :
    OutTouches Part.main s (execKatDone p0 p1 s) := by
  unfold execKatDone
  extract_lets -merge -underBinder +onlyGivenNames x0
  clear_value x0
  split
  · show Touches _ _ _
    refine Touches.chain (State.katEnd_touches ..) (by decide) ?_
    exact Touches.chain (State.cphCount_touches ..) (by decide) (Touches.rfl' _ s)
  · extract_lets -merge -underBinder +onlyGivenNames x1
    clear_value x1
    refine OutTouches.ite ?_ ?_
    · show Touches _ _ _
      exact (Touches.rfl' _ s)
    · refine OutTouches.ite ?_ ?_
      · show Touches _ _ _
        exact Touches.chain (State.cphCount_touches ..) (by decide) (Touches.rfl' _ s)
      · show Touches _ _ _
        refine Touches.chain (State.retirePair_touches ..) (by decide) ?_
        refine Touches.chain (State.note_touches ..) (by decide) ?_
        exact Touches.chain (State.cphCount_touches ..) (by decide) (Touches.rfl' _ s)

theorem execWorkItemEnd_touches (p0 : ℕ) (s : State) :
    OutTouches [.cph, .kvt] s (execWorkItemEnd p0 s) := by
  unfold execWorkItemEnd
  show Touches _ _ _
  exact Touches.chain (State.endItem_touches ..) (by decide) (Touches.rfl' _ s)

theorem execFallowSquash_touches (p0 : ℕ) (p1 : Bool) (s : State) :
    OutTouches Part.main s (execFallowSquash p0 p1 s) := by
  unfold execFallowSquash
  split
  · show Touches _ _ _
    exact (Touches.rfl' _ s)
  · refine OutTouches.ite ?_ ?_
    · show Touches _ _ _
      refine Touches.chain (State.note_touches ..) (by decide) ?_
      refine Touches.chain (State.cphCount_touches ..) (by decide) ?_
      exact Touches.chain (State.squash_touches ..) (by decide) (Touches.rfl' _ s)
    · show Touches _ _ _
      exact (Touches.rfl' _ s)

theorem State.pairRun_touches (s : State) (p1 : ℕ) (p2 : ℕ) :
    Touches Part.main s (State.pairRun s p1 p2) := by
  unfold State.pairRun
  extract_lets -merge -underBinder +onlyGivenNames x0
  clear_value x0
  refine Touches.ite ?_ ?_
  · exact (Touches.rfl' _ s)
  · refine Touches.ite ?_ ?_
    · exact Touches.chain (State.pairEnd_touches ..) (by decide) (Touches.rfl' _ s)
    · refine Touches.ite ?_ ?_
      · exact Touches.chain (State.pairEnd_touches ..) (by decide) (Touches.rfl' _ s)
      · refine Touches.ite ?_ ?_
        · exact Touches.chain (State.pairEnd_touches ..) (by decide) (Touches.rfl' _ s)
        · refine Touches.ite ?_ ?_
          · exact Touches.chain (State.pairEnd_touches ..) (by decide) (Touches.rfl' _ s)
          · refine Touches.ite ?_ ?_
            · refine Touches.ite ?_ ?_
              · exact Touches.chain (State.pairEnd_touches ..) (by decide) (Touches.rfl' _ s)
              · refine Touches.ite ?_ ?_
                · exact Touches.chain (State.pairEnd_touches ..) (by decide) (Touches.rfl' _ s)
                · refine Touches.chain (State.pairEnd_touches ..) (by decide) ?_
                  exact Touches.chain (State.retirePair_touches ..) (by decide) (Touches.rfl' _ s)
            · refine Touches.ite ?_ ?_
              · exact Touches.chain (State.pairEnd_touches ..) (by decide) (Touches.rfl' _ s)
              · extract_lets -merge -underBinder +onlyGivenNames x1
                have hx1 : Touches Part.main s x1 := by
                  unfold x1
                  exact Touches.chain (State.startKat_touches ..) (by decide) (Touches.rfl' _ s)
                clear_value x1
                refine Touches.set_cph (x := x1) ?_ (by decide)
                exact hx1

theorem execPairRetire_touches (p0 : Path) (p1 : Fin 128) (s : State) :
    OutTouches Part.main s (execPairRetire p0 p1 s) := by
  unfold execPairRetire
  show Touches _ _ _
  refine State.hostWrite_touches (by decide) ?_ (fun z0 hz0 => ?_)
  · exact (Touches.rfl' _ s)
  · exact Touches.chain (State.pairRun_touches ..) (by decide) hz0

theorem execPairKat_touches (p0 : Path) (p1 : Fin 128) (s : State) :
    OutTouches Part.main s (execPairKat p0 p1 s) := by
  unfold execPairKat
  show Touches _ _ _
  refine State.hostWrite_touches (by decide) ?_ (fun z0 hz0 => ?_)
  · exact (Touches.rfl' _ s)
  · exact Touches.chain (State.pairRun_touches ..) (by decide) hz0

theorem execPairCmdUnknown_touches (p0 : Path) (p1 : Fin 16) (p2 : Fin 128) (s : State) :
    OutTouches Part.main s (execPairCmdUnknown p0 p1 p2 s) := by
  unfold execPairCmdUnknown
  refine OutTouches.ite ?_ ?_
  · show Touches _ _ _
    exact (Touches.rfl' _ s)
  · show Touches _ _ _
    refine State.hostWrite_touches (by decide) ?_ (fun z0 hz0 => ?_)
    · exact (Touches.rfl' _ s)
    · exact Touches.chain (State.pairRun_touches ..) (by decide) hz0

theorem State.fetchNext_touches (s : State) (p1 : ℕ) (p2 : ℕ) :
    Touches [.hif] s (State.fetchNext s p1 p2).2 := by
  unfold State.fetchNext
  extract_lets -merge -underBinder +onlyGivenNames x0
  clear_value x0
  refine Touches.mk2 ?_
  refine Touches.set_hif (x := s) ?_ (by decide)
  exact (Touches.rfl' _ s)

theorem execLookasideJob_touches (p0 : Fin 64) (p1 : Fin 9) (p2 : List Byte) (s : State) :
    OutTouches [.regs, .cnt, .pow, .led, .hif, .cph, .yok, .out] s (execLookasideJob p0 p1 p2 s) := by
  unfold execLookasideJob
  extract_lets -merge -underBinder +onlyGivenNames x0 x1
  clear_value x0 x1
  refine OutTouches.ite ?_ ?_
  · show Touches _ _ _
    exact (Touches.rfl' _ s)
  · split
    rename_i v2 v3 v4 e5
    have hv4 : Touches [.regs, .cnt, .pow, .led, .hif, .cph, .yok, .out] s v4 := by
      refine Touches.ofSnd e5 ?_
      exact Touches.chain (State.fetchNext_touches ..) (by decide) (Touches.rfl' _ s)
    extract_lets -merge -underBinder +onlyGivenNames x6
    have hx6 : Touches [.regs, .cnt, .pow, .led, .hif, .cph, .yok, .out] s x6 := by
      unfold x6
      exact Touches.chain (State.inc_touches ..) (by decide) hv4
    clear_value x6
    extract_lets -merge -underBinder +onlyGivenNames x7 x8
    clear_value x7 x8
    extract_lets -merge -underBinder +onlyGivenNames x9
    have hx9 : Touches [.regs, .cnt, .pow, .led, .hif, .cph, .yok, .out] s x9 := by
      unfold x9
      exact Touches.chain (State.setJob_touches ..) (by decide) hx6
    clear_value x9
    extract_lets -merge -underBinder +onlyGivenNames x10
    clear_value x10
    extract_lets -merge -underBinder +onlyGivenNames x11
    have hx11 : Touches [.regs, .cnt, .pow, .led, .hif, .cph, .yok, .out] s x11 := by
      unfold x11
      refine Touches.set_cph (x := x9) ?_ (by decide)
      exact hx9
    clear_value x11
    refine OutTouches.ite ?_ ?_
    · show Touches _ _ _
      exact hx11
    · show Touches _ _ _
      refine Touches.chain (State.flushRing_touches ..) (by decide) ?_
      exact Touches.chain (State.noteFor_touches ..) (by decide) hx11

theorem State.scratchGate_touches (s : State) (p1 : ℕ) (p2 : ℕ) :
    Touches [.regs, .cnt, .pow, .led, .hif, .mgd, .yok, .out, .free] s (State.scratchGate s p1 p2).1 := by
  unfold State.scratchGate
  refine Touches.ite1 ?_ ?_
  · refine Touches.mk1 ?_
    exact (Touches.rfl' _ s)
  · extract_lets -merge -underBinder +onlyGivenNames x0
    have hx0 : Touches [.regs, .cnt, .pow, .led, .hif, .mgd, .yok, .out, .free] s x0 := by
      unfold x0
      exact Touches.chain (State.retillSweep_touches ..) (by decide) (Touches.rfl' _ s)
    clear_value x0
    split
    · refine Touches.ite1 ?_ ?_
      · refine Touches.ite1 ?_ ?_
        · exact hx0
        · exact hx0
      · refine Touches.mk1 ?_
        refine Touches.chain (State.note_touches ..) (by decide) ?_
        exact Touches.chain (State.mgdCount_touches ..) (by decide) hx0
    · refine Touches.mk1 ?_
      refine Touches.chain (State.note_touches ..) (by decide) ?_
      exact Touches.chain (State.mgdCount_touches ..) (by decide) hx0

theorem State.scratchReadLine_touches {m : List Part} {s : State} {n : Nat} {a : State × Nat × List Byte × MemOutcome} {i : Nat} (hm : Part.all ⊆ m) (hx : Touches m s a.1) :
    Touches m s (State.scratchReadLine n a i).1 := by
  unfold State.scratchReadLine
  split
  rename_i v st bs x
  replace hx : Touches m s v := hx
  refine Touches.ite1 hx ?_
  split
  · rename_i v1 e1
    exact Touches.ofFst e1 (Touches.chain (State.scratchGate_touches ..) (List.Subset.trans (by decide) hm) hx)
  · rename_i v1 d e1
    have hv1 : Touches m s v1 := Touches.ofFst e1 (Touches.chain (State.scratchGate_touches ..) (List.Subset.trans (by decide) hm) hx)
    extract_lets l
    split
    rename_i v2 r e2
    refine Touches.mk1 (Touches.ofFst e2 ?_)
    refine Touches.chain (State.verify_touches ..) (List.Subset.trans (by decide) hm) ?_
    exact Touches.chain (State.mgdCount_touches ..) (List.Subset.trans (by decide) hm) hv1

theorem State.scratchRead_touches (s : State) (p1 : ℕ) (p2 : ℕ) (p3 : ℕ) (p4 : MemOutcome) :
    Touches Part.all s (State.scratchRead s p1 p2 p3 p4).1 := by
  unfold State.scratchRead
  split
  rename_i v0 v1 v2 v3 v4 e5
  have hv1 : Touches Part.all s v1 := by
    refine Touches.ofFst e5 ?_
    refine Touches.foldl1 _ _ ?_ (fun y6 a6 hy6 => ?_)
    · refine Touches.mk1 ?_
      exact (Touches.rfl' _ s)
    · refine State.scratchReadLine_touches (by decide) ?_ 
      exact hy6
  exact hv1

theorem State.scratchWriteLine_touches {m : List Part} {s : State} {n off : Nat} {data : List Byte} {a : State × Nat × MemOutcome} {i : Nat} (hm : Part.all ⊆ m) (hx : Touches m s a.1) :
    Touches m s (State.scratchWriteLine n off data a i).1 := by
  unfold State.scratchWriteLine
  split
  rename_i v st x
  replace hx : Touches m s v := hx
  split
  · rename_i v1 e1
    exact Touches.ofFst e1 (Touches.chain (State.scratchGate_touches ..) (List.Subset.trans (by decide) hm) hx)
  · rename_i v1 d e1
    have hv1 : Touches m s v1 := Touches.ofFst e1 (Touches.chain (State.scratchGate_touches ..) (List.Subset.trans (by decide) hm) hx)
    extract_lets l part
    clear_value l part
    refine Touches.ite1 ?_ ?_
    · split
      rename_i v2 r e2
      exact Touches.mk1 (Touches.ofFst e2 (Touches.chain (State.writeLine_touches ..) (List.Subset.trans (by decide) hm) hv1))
    · split
      rename_i v2 r e2
      have hv2 : Touches m s v2 := by
        refine Touches.ofFst e2 ?_
        refine Touches.chain (State.verify_touches ..) (List.Subset.trans (by decide) hm) ?_
        exact Touches.chain (State.mgdCount_touches ..) (List.Subset.trans (by decide) hm) hv1
      refine Touches.ite1 ?_ ?_
      · split
        rename_i v3 r3 e3
        exact Touches.mk1 (Touches.ofFst e3 (Touches.chain (State.writeLine_touches ..) (List.Subset.trans (by decide) hm) hv2))
      · refine Touches.ite1 ?_ hv2
        refine Touches.mk1 ?_
        refine Touches.chain (State.note_touches ..) (List.Subset.trans (by decide) hm) ?_
        refine Touches.chain (State.poisonLines_touches ..) (List.Subset.trans (by decide) hm) ?_
        exact Touches.chain (State.mgdCount_touches ..) (List.Subset.trans (by decide) hm) hv2

theorem State.scratchWrite_touches (s : State) (p1 : ℕ) (p2 : ℕ) (p3 : List Byte) (p4 : MemOutcome) :
    Touches Part.all s (State.scratchWrite s p1 p2 p3 p4).1 := by
  unfold State.scratchWrite
  split
  rename_i v0 v1 v2 v3 e4
  have hv1 : Touches Part.all s v1 := by
    refine Touches.ofFst e4 ?_
    refine Touches.foldl1 _ _ ?_ (fun y5 a5 hy5 => ?_)
    · refine Touches.mk1 ?_
      exact (Touches.rfl' _ s)
    · refine State.scratchWriteLine_touches (by decide) ?_ 
      exact hy5
  exact hv1

theorem State.startJob_touches (s : State) (p1 : ℕ) (p2 : Job) (p3 : ℕ) (p4 : List Byte) (p5 : Bool) :
    Touches Part.main s (State.startJob s p1 p2 p3 p4 p5) := by
  unfold State.startJob
  extract_lets -merge -underBinder +onlyGivenNames x0 x1 x2
  clear_value x0 x1 x2
  refine Touches.ite ?_ ?_
  · exact Touches.chain (State.endJob_touches ..) (by decide) (Touches.rfl' _ s)
  · refine Touches.ite ?_ ?_
    · refine Touches.chain (State.endJob_touches ..) (by decide) ?_
      exact Touches.chain (State.slotCheckFail_touches ..) (by decide) (Touches.rfl' _ s)
    · refine Touches.ite ?_ ?_
      · refine Touches.chain (State.endJob_touches ..) (by decide) ?_
        exact Touches.chain (State.noteFor_touches ..) (by decide) (Touches.rfl' _ s)
      · split
        split
        rename_i v3 v4 v5 e6
        have hv5 : Touches Part.main s v5 := by
          refine Touches.ofSnd e6 ?_
          exact Touches.chain (State.startItem_touches ..) (by decide) (Touches.rfl' _ s)
        refine Touches.chain (State.setJob_touches ..) (by decide) ?_
        exact Touches.chain (State.cphCount_touches ..) (by decide) hv5

theorem execLookasideAdmit_touches (p0 : List Byte) (p1 : Bool) (p2 : MemOutcome) (p3 : Bool) (s : State) :
    OutTouches Part.all s (execLookasideAdmit p0 p1 p2 p3 s) := by
  unfold execLookasideAdmit
  extract_lets -merge -underBinder +onlyGivenNames x0
  have hx0 : Touches Part.all s x0 := by
    unfold x0
    exact Touches.chain (State.flushAll_touches ..) (by decide) (Touches.rfl' _ s)
  clear_value x0
  split
  · show Touches _ _ _
    exact hx0
  · extract_lets -merge -underBinder +onlyGivenNames x1
    clear_value x1
    split
    · show Touches _ _ _
      exact hx0
    · refine OutTouches.ite ?_ ?_
      · show Touches _ _ _
        exact hx0
      · extract_lets -merge -underBinder +onlyGivenNames x2
        clear_value x2
        extract_lets -merge -underBinder +onlyGivenNames x3
        have hx3 : Touches Part.all s x3 := by
          unfold x3
          refine Touches.set_cph (x := x0) ?_ (by decide)
          exact hx0
        clear_value x3
        refine OutTouches.ite ?_ ?_
        · split
          rename_i v4 v5 v6 v7 e8
          have hv5 : Touches Part.all s v5 := by
            refine Touches.ofFst e8 ?_
            exact Touches.chain (State.scratchRead_touches ..) (by decide) hx3
          refine OutTouches.ite ?_ ?_
          · show Touches _ _ _
            exact Touches.chain (State.startJob_touches ..) (by decide) hv5
          · show Touches _ _ _
            exact Touches.chain (State.endJob_touches ..) (by decide) hv5
        · refine OutTouches.ite ?_ ?_
          · show Touches _ _ _
            refine Touches.chain (State.endJob_touches ..) (by decide) ?_
            refine Touches.chain (State.noteFor_touches ..) (by decide) ?_
            exact Touches.chain (State.inc_touches ..) (by decide) hx3
          · show Touches _ _ _
            exact Touches.chain (State.startJob_touches ..) (by decide) hx3

theorem execLookasideComplete_touches (p0 : ℕ) (p1 : Bool) (p2 : MemOutcome) (s : State) :
    OutTouches Part.all s (execLookasideComplete p0 p1 p2 s) := by
  unfold execLookasideComplete
  split
  · show Touches _ _ _
    exact (Touches.rfl' _ s)
  · extract_lets -merge -underBinder +onlyGivenNames x0
    clear_value x0
    refine OutTouches.ite ?_ ?_
    · show Touches _ _ _
      exact (Touches.rfl' _ s)
    · refine OutTouches.ite ?_ ?_
      · show Touches _ _ _
        exact Touches.chain (State.endJob_touches ..) (by decide) (Touches.rfl' _ s)
      · refine OutTouches.ite ?_ ?_
        · split
          rename_i v1 v2 v3 e4
          have hv2 : Touches Part.all s v2 := by
            refine Touches.ofFst e4 ?_
            exact Touches.chain (State.scratchWrite_touches ..) (by decide) (Touches.rfl' _ s)
          show Touches _ _ _
          exact Touches.chain (State.endJob_touches ..) (by decide) hv2
        · refine OutTouches.ite ?_ ?_
          · show Touches _ _ _
            refine Touches.chain (State.endJob_touches ..) (by decide) ?_
            refine Touches.chain (State.noteFor_touches ..) (by decide) ?_
            exact Touches.chain (State.inc_touches ..) (by decide) (Touches.rfl' _ s)
          · extract_lets -merge -underBinder +onlyGivenNames x5
            have hx5 : Touches Part.all s x5 := by
              unfold x5
              refine Touches.ite ?_ ?_
              · exact (Touches.rfl' _ s)
              · exact Touches.chain (State.dma_touches ..) (by decide) (Touches.rfl' _ s)
            clear_value x5
            show Touches _ _ _
            exact Touches.chain (State.endJob_touches ..) (by decide) hx5

end Sys2Proof.Machine
end

