-- ==== Sys2Proof/Laws/TouchVault.lean ====
section
/-! SUPPORT. What each operation of Machine/Vault.lean may touch. -/

namespace Sys2Proof.Machine

open Sys2Proof

set_option linter.unusedTactic false
set_option linter.unreachableTactic false

theorem State.kvtCount_touches (s : State) (p1 : ℕ) :
    Touches [.cnt] s (State.kvtCount s p1) := by
  unfold State.kvtCount
  exact Touches.chain (State.inc_touches ..) (by decide) (Touches.rfl' _ s)

theorem State.putXfer_touches (s : State) (p1 : List Byte) :
    Touches [.regs] s (State.putXfer s p1) := by
  unfold State.putXfer
  refine Touches.foldl _ _ ?_ (fun y0 a0 hy0 => ?_)
  · exact (Touches.rfl' _ s)
  · exact Touches.chain (State.wr_touches ..) (by decide) hy0

theorem State.clearXfer_touches (s : State) :
    Touches [.regs] s (State.clearXfer s) := by
  unfold State.clearXfer
  exact Touches.chain (State.clearRegs_touches ..) (by decide) (Touches.rfl' _ s)

theorem State.kvtEnd_touches (s : State) (p1 : ℕ) (p2 : ℕ) :
    Touches Part.note s (State.kvtEnd s p1 p2) := by
  unfold State.kvtEnd
  extract_lets -merge -underBinder +onlyGivenNames x0
  clear_value x0
  extract_lets -merge -underBinder +onlyGivenNames x1
  have hx1 : Touches Part.note s x1 := by
    unfold x1
    refine Touches.ite ?_ ?_
    · exact Touches.chain (State.result_touches ..) (by decide) (Touches.rfl' _ s)
    · refine Touches.chain (State.cmdEnd_touches ..) (by decide) ?_
      exact Touches.chain (State.clearRegs_touches ..) (by decide) (Touches.rfl' _ s)
  clear_value x1
  extract_lets -merge -underBinder +onlyGivenNames x2
  have hx2 : Touches Part.note s x2 := by
    unfold x2
    refine Touches.ite ?_ ?_
    · exact Touches.chain (State.followerRefusal_touches ..) (by decide) hx1
    · exact hx1
  clear_value x2
  refine Touches.ite ?_ ?_
  · exact hx2
  · exact Touches.chain (State.noteFor_touches ..) (by decide) hx2

theorem State.kvtAwait_touches (s : State) (p1 : ℕ) (p2 : ℕ) (p3 : ℕ) (p4 : Bool) :
    Touches [.regs, .cnt, .pow, .led, .hif, .kvt, .yok, .out] s (State.kvtAwait s p1 p2 p3 p4) := by
  unfold State.kvtAwait
  extract_lets -merge -underBinder +onlyGivenNames x0
  clear_value x0
  refine Touches.ite ?_ ?_
  · exact Touches.chain (State.kvtEnd_touches ..) (by decide) (Touches.rfl' _ s)
  · refine Touches.ite ?_ ?_
    · exact Touches.chain (State.kvtEnd_touches ..) (by decide) (Touches.rfl' _ s)
    · exact Touches.chain (State.startRun_touches ..) (by decide) (Touches.rfl' _ s)

theorem State.installKey_touches (s : State) (p1 : ℕ) (p2 : List Byte) (p3 : Word) :
    Touches [.asc, .cph, .kvt] s (State.installKey s p1 p2 p3) := by
  unfold State.installKey
  extract_lets -merge -underBinder +onlyGivenNames x0 x1
  clear_value x0 x1
  extract_lets -merge -underBinder +onlyGivenNames x2
  have hx2 : Touches [.asc, .cph, .kvt] s x2 := by
    unfold x2
    refine Touches.chain (State.setSlot_touches ..) (by decide) ?_
    exact Touches.chain (State.updateCopies_touches ..) (by decide) (Touches.rfl' _ s)
  clear_value x2
  refine Touches.ite ?_ ?_
  · exact Touches.chain (State.modCtx_touches ..) (by decide) hx2
  · exact hx2

theorem State.sealSlot_touches (s : State) (p1 : ℕ) (p2 : List Byte) (p3 : Word) (p4 : Waiter) :
    Touches Part.main s (State.sealSlot s p1 p2 p3 p4).1 := by
  unfold State.sealSlot
  refine Touches.ite1 ?_ ?_
  · split
    rename_i v0 v1 v2 e3
    have hv2 : Touches Part.main s v2 := by
      refine Touches.ofSnd e3 ?_
      exact Touches.chain (State.sealRec_touches ..) (by decide) (Touches.rfl' _ s)
    exact Touches.chain (State.storeSealed_touches ..) (by decide) hv2
  · refine Touches.ite1 ?_ ?_
    · exact Touches.chain (State.storeSealed_touches ..) (by decide) (Touches.rfl' _ s)
    · refine Touches.mk1 ?_
      exact (Touches.rfl' _ s)

theorem State.startSas_touches (s : State) (p1 : ℕ) (p2 : Waiter) :
    Touches Part.main s (State.startSas s p1 p2).1 := by
  unfold State.startSas
  split
  · refine Touches.mk1 ?_
    exact (Touches.rfl' _ s)
  · refine Touches.ite1 ?_ ?_
    · split
      rename_i v0 v1 v2 e3
      have hv1 : Touches Part.main s v1 := by
        refine Touches.ofFst e3 ?_
        refine Touches.ite1 ?_ ?_
        · exact Touches.chain (State.startTxSa_touches ..) (by decide) (Touches.rfl' _ s)
        · refine Touches.mk1 ?_
          exact (Touches.rfl' _ s)
      split
      rename_i v4 v5 v6 e7
      have hv5 : Touches Part.main s v5 := by
        refine Touches.ofFst e7 ?_
        exact Touches.chain (State.startRxSa_touches ..) (by decide) hv1
      exact hv5
    · refine Touches.mk1 ?_
      exact (Touches.rfl' _ s)

theorem State.commitLoad_touches (s : State) (p1 : ℕ) (p2 : ℕ) (p3 : ℕ) (p4 : List Byte) (p5 : Word) :
    Touches Part.main s (State.commitLoad s p1 p2 p3 p4 p5) := by
  unfold State.commitLoad
  extract_lets -merge -underBinder +onlyGivenNames x0
  have hx0 : Touches Part.main s x0 := by
    unfold x0
    refine Touches.chain (State.conveySlot_touches ..) (by decide) ?_
    refine Touches.chain (State.kvtCount_touches ..) (by decide) ?_
    exact Touches.chain (State.installKey_touches ..) (by decide) (Touches.rfl' _ s)
  clear_value x0
  split
  rename_i v1 v2 v3 e4
  have hv2 : Touches Part.main s v2 := by
    refine Touches.ofFst e4 ?_
    exact Touches.chain (State.startSas_touches ..) (by decide) hx0
  split
  rename_i v5 v6 v7 e8
  have hv6 : Touches Part.main s v6 := by
    refine Touches.ofFst e8 ?_
    exact Touches.chain (State.sealSlot_touches ..) (by decide) hv2
  exact Touches.chain (State.kvtAwait_touches ..) (by decide) hv6

theorem State.load_touches (s : State) (p1 : ℕ) (p2 : ℕ) (p3 : ℕ) (p4 : List Byte) (p5 : Word) :
    Touches Part.main s (State.load s p1 p2 p3 p4 p5) := by
  unfold State.load
  extract_lets -merge -underBinder +onlyGivenNames x0
  clear_value x0
  refine Touches.ite ?_ ?_
  · exact Touches.chain (State.commitLoad_touches ..) (by decide) (Touches.rfl' _ s)
  · exact Touches.chain (State.kvtEnd_touches ..) (by decide) (Touches.rfl' _ s)

theorem State.kvtLoad_touches (s : State) (p1 : ℕ) :
    Touches Part.main s (State.kvtLoad s p1) := by
  unfold State.kvtLoad
  split
  · exact Touches.chain (State.kvtEnd_touches ..) (by decide) (Touches.rfl' _ s)
  · exact Touches.chain (State.load_touches ..) (by decide) (Touches.rfl' _ s)

theorem State.kvtImport_touches (s : State) (p1 : ℕ) :
    Touches Part.main s (State.kvtImport s p1) := by
  unfold State.kvtImport
  split
  · exact Touches.chain (State.kvtEnd_touches ..) (by decide) (Touches.rfl' _ s)
  · extract_lets -merge -underBinder +onlyGivenNames x0
    clear_value x0
    extract_lets -merge -underBinder +onlyGivenNames x1 x2
    clear_value x1 x2
    refine Touches.ite ?_ ?_
    · exact Touches.chain (State.kvtEnd_touches ..) (by decide) (Touches.rfl' _ s)
    · split
      · refine Touches.chain (State.kvtEnd_touches ..) (by decide) ?_
        refine Touches.chain (State.noteFor_touches ..) (by decide) ?_
        exact Touches.chain (State.kvtCount_touches ..) (by decide) (Touches.rfl' _ s)
      · exact Touches.chain (State.load_touches ..) (by decide) (Touches.rfl' _ s)

theorem State.awaitBits_touches (s : State) (p1 : ℕ) (p2 : ℕ) :
    Touches [.kvt] s (State.awaitBits s p1 p2) := by
  unfold State.awaitBits
  exact Touches.chain (State.startRun_touches ..) (by decide) (Touches.rfl' _ s)

theorem State.kvtGenerate_touches (s : State) (p1 : ℕ) :
    Touches Part.main s (State.kvtGenerate s p1) := by
  unfold State.kvtGenerate
  split
  · exact Touches.chain (State.kvtEnd_touches ..) (by decide) (Touches.rfl' _ s)
  · refine Touches.ite ?_ ?_
    · exact Touches.chain (State.kvtEnd_touches ..) (by decide) (Touches.rfl' _ s)
    · refine Touches.ite ?_ ?_
      · exact Touches.chain (State.awaitBits_touches ..) (by decide) (Touches.rfl' _ s)
      · split
        rename_i v0 v1 v2 e3
        have hv2 : Touches Part.main s v2 := by
          refine Touches.ofSnd e3 ?_
          exact Touches.chain (State.rbgTake_touches ..) (by decide) (Touches.rfl' _ s)
        exact Touches.chain (State.load_touches ..) (by decide) hv2

theorem State.kvtDerive_touches (s : State) (p1 : ℕ) :
    Touches Part.main s (State.kvtDerive s p1) := by
  unfold State.kvtDerive
  split
  · exact Touches.chain (State.kvtEnd_touches ..) (by decide) (Touches.rfl' _ s)
  · extract_lets -merge -underBinder +onlyGivenNames x0
    clear_value x0
    extract_lets -merge -underBinder +onlyGivenNames x1 x2 x3
    clear_value x1 x2 x3
    refine Touches.ite ?_ ?_
    · exact Touches.chain (State.kvtEnd_touches ..) (by decide) (Touches.rfl' _ s)
    · refine Touches.ite ?_ ?_
      · exact Touches.chain (State.kvtEnd_touches ..) (by decide) (Touches.rfl' _ s)
      · exact Touches.chain (State.load_touches ..) (by decide) (Touches.rfl' _ s)

theorem State.kvtErase_touches (s : State) (p1 : ℕ) :
    Touches Part.main s (State.kvtErase s p1) := by
  unfold State.kvtErase
  split
  · exact Touches.chain (State.kvtEnd_touches ..) (by decide) (Touches.rfl' _ s)
  · refine Touches.ite ?_ ?_
    · split
      rename_i v0 v1 v2 e3
      have hv1 : Touches Part.main s v1 := by
        refine Touches.ofFst e3 ?_
        exact Touches.chain (State.eraseSlot_touches ..) (by decide) (Touches.rfl' _ s)
      exact Touches.chain (State.kvtAwait_touches ..) (by decide) hv1
    · exact Touches.chain (State.kvtEnd_touches ..) (by decide) (Touches.rfl' _ s)

theorem State.kvtReadAttr_touches (s : State) (p1 : ℕ) :
    Touches Part.note s (State.kvtReadAttr s p1) := by
  unfold State.kvtReadAttr
  split
  · exact Touches.chain (State.kvtEnd_touches ..) (by decide) (Touches.rfl' _ s)
  · refine Touches.ite ?_ ?_
    · exact Touches.chain (State.kvtEnd_touches ..) (by decide) (Touches.rfl' _ s)
    · split
      extract_lets -merge -underBinder +onlyGivenNames x0
      have hx0 : ∀ z1 z2 z3, Touches Part.note s z1 → Touches Part.note s (x0 z1 z2 z3) := by
        intro z1 z2 z3 hz1
        unfold x0
        beta_reduce
        exact Touches.chain (State.wr_touches ..) (by decide) hz1
      clear_value x0
      extract_lets -merge -underBinder +onlyGivenNames x4
      have hx4 : Touches Part.note s x4 := by
        unfold x4
        exact Touches.chain (State.wr_touches ..) (by decide) (Touches.rfl' _ s)
      clear_value x4
      refine Touches.chain (State.kvtEnd_touches ..) (by decide) ?_
      refine hx0 _ _ _ ?_
      refine hx0 _ _ _ ?_
      refine hx0 _ _ _ ?_
      refine hx0 _ _ _ ?_
      exact hx4

theorem State.kvtGrant_touches (s : State) (p1 : ℕ) :
    Touches [.regs, .cnt, .pow, .led, .hif, .kvt, .yok, .out] s (State.kvtGrant s p1) := by
  unfold State.kvtGrant
  split
  · exact Touches.chain (State.kvtEnd_touches ..) (by decide) (Touches.rfl' _ s)
  · extract_lets -merge -underBinder +onlyGivenNames x0
    clear_value x0
    refine Touches.ite ?_ ?_
    · exact Touches.chain (State.kvtEnd_touches ..) (by decide) (Touches.rfl' _ s)
    · refine Touches.ite ?_ ?_
      · refine Touches.chain (State.kvtEnd_touches ..) (by decide) ?_
        exact Touches.chain (State.note_touches ..) (by decide) (Touches.rfl' _ s)
      · refine Touches.ite ?_ ?_
        · exact Touches.chain (State.kvtEnd_touches ..) (by decide) (Touches.rfl' _ s)
        · refine Touches.chain (State.kvtEnd_touches ..) (by decide) ?_
          refine Touches.set_kvt (x := s) ?_ (by decide)
          exact (Touches.rfl' _ s)

theorem State.closeSession_touches (s : State) :
    Touches [.regs, .cnt, .pow, .led, .hif, .kvt, .yok, .out] s (State.closeSession s) := by
  unfold State.closeSession
  refine Touches.chain (State.note_touches ..) (by decide) ?_
  refine Touches.set_kvt (x := s) ?_ (by decide)
  exact (Touches.rfl' _ s)

theorem State.provOpen_touches (s : State) (p1 : ℕ) :
    Touches [.regs, .cnt, .pow, .led, .hif, .kvt, .yok, .out, .free] s (State.provOpen s p1) := by
  unfold State.provOpen
  refine Touches.ite ?_ ?_
  · exact Touches.chain (State.kvtEnd_touches ..) (by decide) (Touches.rfl' _ s)
  · refine Touches.ite ?_ ?_
    · exact Touches.chain (State.awaitBits_touches ..) (by decide) (Touches.rfl' _ s)
    · split
      rename_i v0 v1 v2 e3
      have hv2 : Touches [.regs, .cnt, .pow, .led, .hif, .kvt, .yok, .out, .free] s v2 := by
        refine Touches.ofSnd e3 ?_
        exact Touches.chain (State.rbgTake_touches ..) (by decide) (Touches.rfl' _ s)
      extract_lets -merge -underBinder +onlyGivenNames x4 x5 x6 x7 x8 x9 x10
      clear_value x4 x5 x6 x7 x8 x9 x10
      extract_lets -merge -underBinder +onlyGivenNames x11
      have hx11 : Touches [.regs, .cnt, .pow, .led, .hif, .kvt, .yok, .out, .free] s x11 := by
        unfold x11
        refine Touches.set_kvt (x := v2) ?_ (by decide)
        exact hv2
      clear_value x11
      refine Touches.chain (State.kvtEnd_touches ..) (by decide) ?_
      refine Touches.chain (State.note_touches ..) (by decide) ?_
      exact Touches.chain (State.putXfer_touches ..) (by decide) hx11

theorem State.provAccept_touches (s : State) (p1 : ℕ) :
    Touches [.regs, .cnt, .pow, .led, .hif, .asc, .cph, .kvt, .yok, .out] s (State.provAccept s p1) := by
  unfold State.provAccept
  split
  · exact Touches.chain (State.kvtEnd_touches ..) (by decide) (Touches.rfl' _ s)
  · refine Touches.ite ?_ ?_
    · exact Touches.chain (State.kvtEnd_touches ..) (by decide) (Touches.rfl' _ s)
    · extract_lets -merge -underBinder +onlyGivenNames x0
      clear_value x0
      extract_lets -merge -underBinder +onlyGivenNames x1 x2 x3
      clear_value x1 x2 x3
      split
      · refine Touches.chain (State.kvtEnd_touches ..) (by decide) ?_
        refine Touches.chain (State.closeSession_touches ..) (by decide) ?_
        exact Touches.chain (State.note_touches ..) (by decide) (Touches.rfl' _ s)
      · extract_lets -merge -underBinder +onlyGivenNames x4
        clear_value x4
        extract_lets -merge -underBinder +onlyGivenNames x5 x6
        clear_value x5 x6
        refine Touches.chain (State.kvtEnd_touches ..) (by decide) ?_
        refine Touches.chain (State.installKey_touches ..) (by decide) ?_
        refine Touches.set_kvt (x := s) ?_ (by decide)
        exact (Touches.rfl' _ s)

theorem State.provImport_touches (s : State) (p1 : ℕ) :
    Touches Part.main s (State.provImport s p1) := by
  unfold State.provImport
  split
  · exact Touches.chain (State.kvtEnd_touches ..) (by decide) (Touches.rfl' _ s)
  · extract_lets -merge -underBinder +onlyGivenNames x0
    clear_value x0
    extract_lets -merge -underBinder +onlyGivenNames x1
    clear_value x1
    extract_lets -merge -underBinder +onlyGivenNames x2
    have hx2 : ∀ z3, Touches Part.main s z3 → Touches Part.main s (x2 z3) := by
      intro z3 hz3
      unfold x2
      beta_reduce
      refine Touches.chain (State.kvtEnd_touches ..) (by decide) ?_
      refine Touches.chain (State.note_touches ..) (by decide) ?_
      exact Touches.chain (State.kvtCount_touches ..) (by decide) hz3
    clear_value x2
    refine Touches.ite ?_ ?_
    · exact Touches.chain (State.kvtEnd_touches ..) (by decide) (Touches.rfl' _ s)
    · refine Touches.ite ?_ ?_
      · refine hx2 _ ?_
        exact (Touches.rfl' _ s)
      · split
        · refine hx2 _ ?_
          exact (Touches.rfl' _ s)
        · split
          · exact Touches.chain (State.kvtEnd_touches ..) (by decide) (Touches.rfl' _ s)
          · extract_lets -merge -underBinder +onlyGivenNames x4
            clear_value x4
            extract_lets -merge -underBinder +onlyGivenNames x5
            clear_value x5
            refine Touches.ite ?_ ?_
            · exact Touches.chain (State.kvtEnd_touches ..) (by decide) (Touches.rfl' _ s)
            · refine Touches.chain (State.commitLoad_touches ..) (by decide) ?_
              refine Touches.set_kvt (x := s) ?_ (by decide)
              exact (Touches.rfl' _ s)

theorem State.provClose_touches (s : State) (p1 : ℕ) :
    Touches [.regs, .cnt, .pow, .led, .hif, .cph, .kvt, .yok, .out] s (State.provClose s p1) := by
  unfold State.provClose
  refine Touches.ite ?_ ?_
  · exact Touches.chain (State.kvtEnd_touches ..) (by decide) (Touches.rfl' _ s)
  · refine Touches.chain (State.kvtEnd_touches ..) (by decide) ?_
    refine Touches.chain (State.closeSession_touches ..) (by decide) ?_
    refine Touches.chain (State.clearXfer_touches ..) (by decide) ?_
    exact Touches.chain (State.enterFallow_touches ..) (by decide) (Touches.rfl' _ s)

theorem State.idExport_touches (s : State) (p1 : ℕ) :
    Touches Part.note s (State.idExport s p1) := by
  unfold State.idExport
  refine Touches.chain (State.kvtEnd_touches ..) (by decide) ?_
  exact Touches.chain (State.putXfer_touches ..) (by decide) (Touches.rfl' _ s)

theorem State.certWrite_touches (s : State) (p1 : ℕ) :
    Touches Part.main s (State.certWrite s p1) := by
  unfold State.certWrite
  extract_lets -merge -underBinder +onlyGivenNames x0 x1 x2 x3
  clear_value x0 x1 x2 x3
  refine Touches.ite ?_ ?_
  · exact Touches.chain (State.kvtEnd_touches ..) (by decide) (Touches.rfl' _ s)
  · extract_lets -merge -underBinder +onlyGivenNames x4
    clear_value x4
    split
    rename_i v5 v6 v7 e8
    have hv6 : Touches Part.main s v6 := by
      refine Touches.ofFst e8 ?_
      exact Touches.chain (State.requestStore_touches ..) (by decide) (Touches.rfl' _ s)
    exact Touches.chain (State.kvtAwait_touches ..) (by decide) hv6

theorem State.setAnchor_touches (s : State) (p1 : ℕ) (p2 : Anchor → Anchor) :
    Touches [.regs, .cnt, .pow, .led, .hif, .kvt, .yok, .out] s (State.setAnchor s p1 p2) := by
  unfold State.setAnchor
  refine Touches.chain (State.note_touches ..) (by decide) ?_
  refine Touches.set_kvt (x := s) ?_ (by decide)
  exact (Touches.rfl' _ s)

theorem State.anchorAdd_touches (s : State) (p1 : ℕ) :
    Touches [.regs, .cnt, .pow, .led, .hif, .kvt, .yok, .out] s (State.anchorAdd s p1) := by
  unfold State.anchorAdd
  extract_lets -merge -underBinder +onlyGivenNames x0
  clear_value x0
  split
  · refine Touches.chain (State.kvtEnd_touches ..) (by decide) ?_
    exact Touches.chain (State.setAnchor_touches ..) (by decide) (Touches.rfl' _ s)
  · exact Touches.chain (State.kvtEnd_touches ..) (by decide) (Touches.rfl' _ s)

theorem State.anchorRevoke_touches (s : State) (p1 : ℕ) :
    Touches [.regs, .cnt, .pow, .led, .hif, .kvt, .yok, .out] s (State.anchorRevoke s p1) := by
  unfold State.anchorRevoke
  extract_lets -merge -underBinder +onlyGivenNames x0
  clear_value x0
  split
  · refine Touches.chain (State.kvtEnd_touches ..) (by decide) ?_
    exact Touches.chain (State.setAnchor_touches ..) (by decide) (Touches.rfl' _ s)
  · exact Touches.chain (State.kvtEnd_touches ..) (by decide) (Touches.rfl' _ s)
  · exact Touches.chain (State.kvtEnd_touches ..) (by decide) (Touches.rfl' _ s)

theorem State.wipeOn_touches (s : State) :
    Touches [.regs, .cnt, .pow, .led, .hif, .st, .yok, .out] s (State.wipeOn s) := by
  unfold State.wipeOn
  refine Touches.ite ?_ ?_
  · exact (Touches.rfl' _ s)
  · refine Touches.ite ?_ ?_
    · exact Touches.chain (State.overwriteLeft_touches ..) (by decide) (Touches.rfl' _ s)
    · refine Touches.ite ?_ ?_
      · exact (Touches.rfl' _ s)
      · exact Touches.chain (State.pushStore_touches ..) (by decide) (Touches.rfl' _ s)

theorem State.lifeEvid_touches (s : State) (p1 : EvKind) (p2 : List Byte) :
    Touches [.regs, .cnt, .pow, .led, .hdg, .hif, .st, .yok, .out] s (State.lifeEvid s p1 p2) := by
  unfold State.lifeEvid
  exact Touches.chain (State.evidMain_touches ..) (by decide) (Touches.rfl' _ s)

theorem State.finishAdvance_touches (s : State) (p1 : LifeCycle) :
    Touches Part.main s (State.finishAdvance s p1) := by
  unfold State.finishAdvance
  extract_lets -merge -underBinder +onlyGivenNames x0
  clear_value x0
  split
  rename_i v1 v2 v3 e4
  have hv3 : Touches Part.main s v3 := by
    refine Touches.ofSnd e4 ?_
    split
    · split
      rename_i v5 v6 v7 e8
      have hv7 : Touches Part.main s v7 := by
        refine Touches.ofSnd e8 ?_
        exact Touches.chain (State.rbgTake_touches ..) (by decide) (Touches.rfl' _ s)
      exact hv7
    · refine Touches.mk2 ?_
      exact (Touches.rfl' _ s)
  extract_lets -merge -underBinder +onlyGivenNames x9 x10 x11
  clear_value x9 x10 x11
  extract_lets -merge -underBinder +onlyGivenNames x12
  extract_lets -merge -underBinder +onlyGivenNames x13
  clear_value x13
  extract_lets -merge -underBinder +onlyGivenNames x14
  have hx14 : Touches Part.main s x14 := by
    unfold x14
    apply Touches.put (x := v3)
    · and_intros <;> first | exact .inr (by decide) | exact .inl rfl | exact SMap.wf_set _ _ _ _ | exact SMap.wf_dropRange _ _ _ _ | exact SMap.wf_filter _ _ _ | exact fun h => by rw [Ledger.reset_log]; exact h | exact id | exact fun _ => rfl
    · exact hv3
  clear_value x14
  extract_lets -merge -underBinder +onlyGivenNames x15
  clear_value x15
  refine Touches.chain (State.moduleReset_touches ..) (by decide) ?_
  refine Touches.chain (State.note_touches ..) (by decide) ?_
  exact Touches.chain (State.lifeEvid_touches ..) (by decide) hx14

theorem State.finishReseed_touches (s : State) :
    Touches [.regs, .shadow, .cnt, .armed, .now, .ctl, .pow, .boot, .led, .hdg, .hif, .tim, .st, .fab, .line, .rows, .cls, .sch, .mgd, .asc, .cph, .kvt, .yok, .held, .out] s (State.finishReseed s) := by
  unfold State.finishReseed
  extract_lets -merge -underBinder +onlyGivenNames x0
  clear_value x0
  extract_lets -merge -underBinder +onlyGivenNames x1
  have hx1 : Touches [.regs, .shadow, .cnt, .armed, .now, .ctl, .pow, .boot, .led, .hdg, .hif, .tim, .st, .fab, .line, .rows, .cls, .sch, .mgd, .asc, .cph, .kvt, .yok, .held, .out] s x1 := by
    unfold x1
    refine Touches.set_kvt (x := s) ?_ (by decide)
    exact (Touches.rfl' _ s)
  clear_value x1
  refine Touches.chain (State.moduleReset_touches ..) (by decide) ?_
  refine Touches.chain (State.note_touches ..) (by decide) ?_
  exact Touches.chain (State.lifeEvid_touches ..) (by decide) hx1

theorem State.finishLife_touches (s : State) :
    Touches Part.main s (State.finishLife s) := by
  unfold State.finishLife
  split
  · exact (Touches.rfl' _ s)
  · exact Touches.chain (State.finishAdvance_touches ..) (by decide) (Touches.rfl' _ s)
  · exact Touches.chain (State.finishReseed_touches ..) (by decide) (Touches.rfl' _ s)

theorem State.lcAdvance_touches (s : State) (p1 : ℕ) :
    Touches [.regs, .cnt, .pow, .led, .hif, .tim, .st, .sch, .mgd, .asc, .cph, .kvt, .yok, .out, .free] s (State.lcAdvance s p1) := by
  unfold State.lcAdvance
  split
  · exact Touches.chain (State.kvtEnd_touches ..) (by decide) (Touches.rfl' _ s)
  · refine Touches.ite ?_ ?_
    · exact Touches.chain (State.kvtEnd_touches ..) (by decide) (Touches.rfl' _ s)
    · refine Touches.ite ?_ ?_
      · refine Touches.chain (State.kvtEnd_touches ..) (by decide) ?_
        exact Touches.chain (State.note_touches ..) (by decide) (Touches.rfl' _ s)
      · refine Touches.ite ?_ ?_
        · exact Touches.chain (State.awaitBits_touches ..) (by decide) (Touches.rfl' _ s)
        · extract_lets -merge -underBinder +onlyGivenNames x0
          have hx0 : Touches [.regs, .cnt, .pow, .led, .hif, .tim, .st, .sch, .mgd, .asc, .cph, .kvt, .yok, .out, .free] s x0 := by
            unfold x0
            exact Touches.chain (State.eraseWorking_touches ..) (by decide) (Touches.rfl' _ s)
          clear_value x0
          refine Touches.chain (State.wipeOn_touches ..) (by decide) ?_
          refine Touches.chain (State.startRun_touches ..) (by decide) ?_
          refine Touches.set_kvt (x := x0) ?_ (by decide)
          exact hx0

theorem State.zeroizeAll_touches (s : State) (p1 : ℕ) :
    Touches Part.main s (State.zeroizeAll s p1) := by
  unfold State.zeroizeAll
  refine Touches.chain (State.raise_touches ..) (by decide) ?_
  exact Touches.chain (State.kvtEnd_touches ..) (by decide) (Touches.rfl' _ s)

theorem State.reseed_touches (s : State) (p1 : ℕ) :
    Touches [.regs, .cnt, .pow, .led, .hdg, .hif, .st, .kvt, .yok, .out, .free] s (State.reseed s p1) := by
  unfold State.reseed
  extract_lets -merge -underBinder +onlyGivenNames x0
  clear_value x0
  split
  · exact Touches.chain (State.kvtEnd_touches ..) (by decide) (Touches.rfl' _ s)
  · refine Touches.ite ?_ ?_
    · exact Touches.chain (State.kvtEnd_touches ..) (by decide) (Touches.rfl' _ s)
    · refine Touches.ite ?_ ?_
      · exact Touches.chain (State.awaitBits_touches ..) (by decide) (Touches.rfl' _ s)
      · split
        rename_i v1 v2 v3 e4
        have hv3 : Touches [.regs, .cnt, .pow, .led, .hdg, .hif, .st, .kvt, .yok, .out, .free] s v3 := by
          refine Touches.ofSnd e4 ?_
          exact Touches.chain (State.rbgTake_touches ..) (by decide) (Touches.rfl' _ s)
        extract_lets -merge -underBinder +onlyGivenNames x5 x6
        clear_value x5 x6
        extract_lets -merge -underBinder +onlyGivenNames x7
        have hx7 : Touches [.regs, .cnt, .pow, .led, .hdg, .hif, .st, .kvt, .yok, .out, .free] s x7 := by
          unfold x7
          apply Touches.put (x := v3)
          · and_intros <;> first | exact .inr (by decide) | exact .inl rfl | exact SMap.wf_set _ _ _ _ | exact SMap.wf_dropRange _ _ _ _ | exact SMap.wf_filter _ _ _ | exact fun h => by rw [Ledger.reset_log]; exact h | exact id | exact fun _ => rfl
          · exact hv3
        clear_value x7
        refine Touches.chain (State.wipeOn_touches ..) (by decide) ?_
        exact Touches.chain (State.startRun_touches ..) (by decide) hx7

theorem State.kvtDo_touches (s : State) (p1 : ℕ) (p2 : ℕ) :
    Touches Part.main s (State.kvtDo s p1 p2) := by
  unfold State.kvtDo
  split
  · exact Touches.chain (State.kvtLoad_touches ..) (by decide) (Touches.rfl' _ s)
  · exact Touches.chain (State.kvtImport_touches ..) (by decide) (Touches.rfl' _ s)
  · exact Touches.chain (State.kvtGenerate_touches ..) (by decide) (Touches.rfl' _ s)
  · exact Touches.chain (State.kvtDerive_touches ..) (by decide) (Touches.rfl' _ s)
  · exact Touches.chain (State.kvtErase_touches ..) (by decide) (Touches.rfl' _ s)
  · exact Touches.chain (State.kvtReadAttr_touches ..) (by decide) (Touches.rfl' _ s)
  · exact Touches.chain (State.kvtGrant_touches ..) (by decide) (Touches.rfl' _ s)
  · exact Touches.chain (State.provOpen_touches ..) (by decide) (Touches.rfl' _ s)
  · exact Touches.chain (State.provAccept_touches ..) (by decide) (Touches.rfl' _ s)
  · exact Touches.chain (State.provImport_touches ..) (by decide) (Touches.rfl' _ s)
  · exact Touches.chain (State.provClose_touches ..) (by decide) (Touches.rfl' _ s)
  · exact Touches.chain (State.idExport_touches ..) (by decide) (Touches.rfl' _ s)
  · exact Touches.chain (State.certWrite_touches ..) (by decide) (Touches.rfl' _ s)
  · exact Touches.chain (State.anchorAdd_touches ..) (by decide) (Touches.rfl' _ s)
  · exact Touches.chain (State.anchorRevoke_touches ..) (by decide) (Touches.rfl' _ s)
  · exact Touches.chain (State.lcAdvance_touches ..) (by decide) (Touches.rfl' _ s)
  · exact Touches.chain (State.zeroizeAll_touches ..) (by decide) (Touches.rfl' _ s)
  · exact Touches.chain (State.reseed_touches ..) (by decide) (Touches.rfl' _ s)

theorem State.kvtRun_touches (s : State) (p1 : ℕ) (p2 : ℕ) :
    Touches Part.main s (State.kvtRun s p1 p2) := by
  unfold State.kvtRun
  refine Touches.ite ?_ ?_
  · exact (Touches.rfl' _ s)
  · refine Touches.ite ?_ ?_
    · exact Touches.chain (State.kvtEnd_touches ..) (by decide) (Touches.rfl' _ s)
    · refine Touches.ite ?_ ?_
      · exact Touches.chain (State.kvtEnd_touches ..) (by decide) (Touches.rfl' _ s)
      · refine Touches.ite ?_ ?_
        · exact Touches.chain (State.kvtEnd_touches ..) (by decide) (Touches.rfl' _ s)
        · refine Touches.ite ?_ ?_
          · exact Touches.chain (State.kvtEnd_touches ..) (by decide) (Touches.rfl' _ s)
          · refine Touches.ite ?_ ?_
            · exact Touches.chain (State.kvtEnd_touches ..) (by decide) (Touches.rfl' _ s)
            · refine Touches.ite ?_ ?_
              · exact Touches.chain (State.kvtEnd_touches ..) (by decide) (Touches.rfl' _ s)
              · refine Touches.ite ?_ ?_
                · exact Touches.chain (State.kvtEnd_touches ..) (by decide) (Touches.rfl' _ s)
                · refine Touches.ite ?_ ?_
                  · exact Touches.chain (State.kvtEnd_touches ..) (by decide) (Touches.rfl' _ s)
                  · exact Touches.chain (State.kvtDo_touches ..) (by decide) (Touches.rfl' _ s)

theorem State.kvtWrite_touches (s : State) (p1 : Instr) (p2 : Path) (p3 : ℕ) :
    Touches Part.main s (State.kvtWrite s p1 p2 p3) := by
  unfold State.kvtWrite
  refine State.cmdWrite_touches (by decide) ?_ (fun z0 z1 hz1 => ?_)
  · exact (Touches.rfl' _ s)
  · exact Touches.chain (State.kvtRun_touches ..) (by decide) hz1

theorem execKvtLoad_touches (p0 : Path) (s : State) :
    OutTouches Part.main s (execKvtLoad p0 s) := by
  unfold execKvtLoad
  show Touches _ _ _
  exact Touches.chain (State.kvtWrite_touches ..) (by decide) (Touches.rfl' _ s)

theorem execImportKw_touches (p0 : Path) (s : State) :
    OutTouches Part.main s (execImportKw p0 s) := by
  unfold execImportKw
  show Touches _ _ _
  exact Touches.chain (State.kvtWrite_touches ..) (by decide) (Touches.rfl' _ s)

theorem execKvtGenerate_touches (p0 : Path) (s : State) :
    OutTouches Part.main s (execKvtGenerate p0 s) := by
  unfold execKvtGenerate
  show Touches _ _ _
  exact Touches.chain (State.kvtWrite_touches ..) (by decide) (Touches.rfl' _ s)

theorem execKvtDerive_touches (p0 : Path) (s : State) :
    OutTouches Part.main s (execKvtDerive p0 s) := by
  unfold execKvtDerive
  show Touches _ _ _
  exact Touches.chain (State.kvtWrite_touches ..) (by decide) (Touches.rfl' _ s)

theorem execKvtErase_touches (p0 : Path) (s : State) :
    OutTouches Part.main s (execKvtErase p0 s) := by
  unfold execKvtErase
  show Touches _ _ _
  exact Touches.chain (State.kvtWrite_touches ..) (by decide) (Touches.rfl' _ s)

theorem execReadAttr_touches (p0 : Path) (s : State) :
    OutTouches Part.main s (execReadAttr p0 s) := by
  unfold execReadAttr
  show Touches _ _ _
  exact Touches.chain (State.kvtWrite_touches ..) (by decide) (Touches.rfl' _ s)

theorem execKvtGrant_touches (p0 : Path) (s : State) :
    OutTouches Part.main s (execKvtGrant p0 s) := by
  unfold execKvtGrant
  show Touches _ _ _
  exact Touches.chain (State.kvtWrite_touches ..) (by decide) (Touches.rfl' _ s)

theorem execProvOpen_touches (p0 : Path) (s : State) :
    OutTouches Part.main s (execProvOpen p0 s) := by
  unfold execProvOpen
  show Touches _ _ _
  exact Touches.chain (State.kvtWrite_touches ..) (by decide) (Touches.rfl' _ s)

theorem execProvAccept_touches (p0 : Path) (s : State) :
    OutTouches Part.main s (execProvAccept p0 s) := by
  unfold execProvAccept
  show Touches _ _ _
  exact Touches.chain (State.kvtWrite_touches ..) (by decide) (Touches.rfl' _ s)

theorem execImportProv_touches (p0 : Path) (s : State) :
    OutTouches Part.main s (execImportProv p0 s) := by
  unfold execImportProv
  show Touches _ _ _
  exact Touches.chain (State.kvtWrite_touches ..) (by decide) (Touches.rfl' _ s)

theorem execProvClose_touches (p0 : Path) (s : State) :
    OutTouches Part.main s (execProvClose p0 s) := by
  unfold execProvClose
  show Touches _ _ _
  exact Touches.chain (State.kvtWrite_touches ..) (by decide) (Touches.rfl' _ s)

theorem execProvSessionTimeout_touches (s : State) :
    OutTouches [.regs, .cnt, .pow, .led, .hif, .kvt, .yok, .out] s (execProvSessionTimeout s) := by
  unfold execProvSessionTimeout
  split
  · show Touches _ _ _
    exact (Touches.rfl' _ s)
  · show Touches _ _ _
    refine Touches.ite ?_ ?_
    · exact (Touches.rfl' _ s)
    · refine Touches.chain (State.closeSession_touches ..) (by decide) ?_
      exact Touches.chain (State.clearXfer_touches ..) (by decide) (Touches.rfl' _ s)

theorem execIdExport_touches (p0 : Path) (s : State) :
    OutTouches Part.main s (execIdExport p0 s) := by
  unfold execIdExport
  show Touches _ _ _
  exact Touches.chain (State.kvtWrite_touches ..) (by decide) (Touches.rfl' _ s)

theorem execCertWrite_touches (p0 : Path) (s : State) :
    OutTouches Part.main s (execCertWrite p0 s) := by
  unfold execCertWrite
  show Touches _ _ _
  exact Touches.chain (State.kvtWrite_touches ..) (by decide) (Touches.rfl' _ s)

theorem execAnchorAdd_touches (p0 : Path) (s : State) :
    OutTouches Part.main s (execAnchorAdd p0 s) := by
  unfold execAnchorAdd
  show Touches _ _ _
  exact Touches.chain (State.kvtWrite_touches ..) (by decide) (Touches.rfl' _ s)

theorem execAnchorRevoke_touches (p0 : Path) (s : State) :
    OutTouches Part.main s (execAnchorRevoke p0 s) := by
  unfold execAnchorRevoke
  show Touches _ _ _
  exact Touches.chain (State.kvtWrite_touches ..) (by decide) (Touches.rfl' _ s)

theorem execLcAdvance_touches (p0 : Path) (s : State) :
    OutTouches Part.main s (execLcAdvance p0 s) := by
  unfold execLcAdvance
  show Touches _ _ _
  exact Touches.chain (State.kvtWrite_touches ..) (by decide) (Touches.rfl' _ s)

theorem execZeroizeAll_touches (p0 : Path) (s : State) :
    OutTouches Part.main s (execZeroizeAll p0 s) := by
  unfold execZeroizeAll
  show Touches _ _ _
  exact Touches.chain (State.kvtWrite_touches ..) (by decide) (Touches.rfl' _ s)

theorem execReseed_touches (p0 : Path) (s : State) :
    OutTouches Part.main s (execReseed p0 s) := by
  unfold execReseed
  show Touches _ _ _
  exact Touches.chain (State.kvtWrite_touches ..) (by decide) (Touches.rfl' _ s)

theorem execKvtCmdUnknown_touches (p0 : Path) (p1 : Fin 32) (s : State) :
    OutTouches Part.main s (execKvtCmdUnknown p0 p1 s) := by
  unfold execKvtCmdUnknown
  refine OutTouches.ite ?_ ?_
  · show Touches _ _ _
    exact (Touches.rfl' _ s)
  · show Touches _ _ _
    exact Touches.chain (State.kvtWrite_touches ..) (by decide) (Touches.rfl' _ s)

theorem execLoadStoreTimeout_touches (p0 : Fin 64) (s : State) :
    OutTouches [.regs, .cnt, .pow, .led, .hif, .st, .kvt, .yok, .out] s (execLoadStoreTimeout p0 s) := by
  unfold execLoadStoreTimeout
  split
  · show Touches _ _ _
    refine Touches.ite ?_ ?_
    · refine Touches.chain (State.kvtEnd_touches ..) (by decide) ?_
      refine Touches.chain (State.orphanStores_touches ..) (by decide) ?_
      exact Touches.chain (State.endRun_touches ..) (by decide) (Touches.rfl' _ s)
    · exact (Touches.rfl' _ s)
  · show Touches _ _ _
    exact (Touches.rfl' _ s)

theorem execSlotErased_touches (p0 : Bool) (p1 : Fin 131072) (s : State) :
    OutTouches [.cnt, .kvt] s (execSlotErased p0 p1 s) := by
  unfold execSlotErased
  extract_lets -merge -underBinder +onlyGivenNames x0
  clear_value x0
  split
  · refine OutTouches.ite ?_ ?_
    · show Touches _ _ _
      refine Touches.chain (State.kvtCount_touches ..) (by decide) ?_
      exact Touches.chain (State.setSlot_touches ..) (by decide) (Touches.rfl' _ s)
    · show Touches _ _ _
      exact (Touches.rfl' _ s)
  · show Touches _ _ _
    exact (Touches.rfl' _ s)

theorem execRemaskWalk_touches (p0 : List ℕ) (s : State) :
    OutTouches Part.main s (execRemaskWalk p0 s) := by
  unfold execRemaskWalk
  refine OutTouches.ite ?_ ?_
  · show Touches _ _ _
    exact (Touches.rfl' _ s)
  · split
    rename_i v0 v1 v2 e3
    have hv2 : Touches Part.main s v2 := by
      refine Touches.ofSnd e3 ?_
      exact Touches.chain (State.rbgTake_touches ..) (by decide) (Touches.rfl' _ s)
    extract_lets -merge -underBinder +onlyGivenNames x4 x5
    clear_value x4 x5
    extract_lets -merge -underBinder +onlyGivenNames x6
    have hx6 : Touches Part.main s x6 := by
      unfold x6
      refine Touches.set_kvt (x := v2) ?_ (by decide)
      exact hv2
    clear_value x6
    show Touches _ _ _
    refine Touches.chain (State.kvtCount_touches ..) (by decide) ?_
    refine Touches.foldl _ _ ?_ (fun y7 a7 hy7 => ?_)
    · exact hx6
    · refine Touches.ite ?_ ?_
      · exact Touches.chain (State.slotCheckFail_touches ..) (by decide) hy7
      · exact hy7

theorem State.resumeBits_touches (s : State) :
    Touches Part.main s (State.resumeBits s) := by
  unfold State.resumeBits
  extract_lets -merge -underBinder +onlyGivenNames x0
  clear_value x0
  refine Touches.foldl _ _ ?_ (fun y1 a1 hy1 => ?_)
  · exact (Touches.rfl' _ s)
  · refine Touches.chain (State.kvtDo_touches ..) (by decide) ?_
    exact Touches.chain (State.endRun_touches ..) (by decide) hy1

theorem execRbgReseed_touches (p0 : Bool) (s : State) :
    OutTouches Part.main s (execRbgReseed p0 s) := by
  unfold execRbgReseed
  extract_lets -merge -underBinder +onlyGivenNames x0
  clear_value x0
  extract_lets -merge -underBinder +onlyGivenNames x1
  have hx1 : Touches Part.main s x1 := by
    unfold x1
    apply Touches.put (x := s)
    · and_intros <;> first | exact .inr (by decide) | exact .inl rfl | exact SMap.wf_set _ _ _ _ | exact SMap.wf_dropRange _ _ _ _ | exact SMap.wf_filter _ _ _ | exact fun h => by rw [Ledger.reset_log]; exact h | exact id | exact fun _ => rfl
    · exact (Touches.rfl' _ s)
  clear_value x1
  refine OutTouches.ite ?_ ?_
  · extract_lets -merge -underBinder +onlyGivenNames x2
    clear_value x2
    extract_lets -merge -underBinder +onlyGivenNames x3
    have hx3 : Touches Part.main s x3 := by
      unfold x3
      refine Touches.set_kvt (x := x1) ?_ (by decide)
      exact hx1
    clear_value x3
    show Touches _ _ _
    refine Touches.chain (State.resumeBits_touches ..) (by decide) ?_
    exact Touches.chain (State.endLevel2_touches ..) (by decide) hx3
  · show Touches _ _ _
    exact hx1

theorem execRbgHealthFail_touches (s : State) :
    OutTouches Part.main s (execRbgHealthFail s) := by
  unfold execRbgHealthFail
  extract_lets -merge -underBinder +onlyGivenNames x0
  clear_value x0
  extract_lets -merge -underBinder +onlyGivenNames x1
  have hx1 : Touches Part.main s x1 := by
    unfold x1
    refine Touches.set_kvt (x := s) ?_ (by decide)
    exact (Touches.rfl' _ s)
  clear_value x1
  extract_lets -merge -underBinder +onlyGivenNames x2
  have hx2 : Touches Part.main s x2 := by
    unfold x2
    exact Touches.chain (State.setFld_touches ..) (by decide) hx1
  clear_value x2
  show Touches _ _ _
  refine Touches.chain (State.raise_touches ..) (by decide) ?_
  exact Touches.chain (State.beginLevel2_touches ..) (by decide) hx2

theorem execRbgRequestTimeout_touches (p0 : Fin 64) (s : State) :
    OutTouches [.regs, .cnt, .pow, .led, .hif, .kvt, .yok, .out] s (execRbgRequestTimeout p0 s) := by
  unfold execRbgRequestTimeout
  split
  · show Touches _ _ _
    refine Touches.ite ?_ ?_
    · refine Touches.chain (State.kvtEnd_touches ..) (by decide) ?_
      exact Touches.chain (State.endRun_touches ..) (by decide) (Touches.rfl' _ s)
    · exact (Touches.rfl' _ s)
  · show Touches _ _ _
    exact (Touches.rfl' _ s)

theorem State.unsealFail_touches (s : State) (p1 : ℕ) :
    Touches Part.note s (State.unsealFail s p1) := by
  unfold State.unsealFail
  exact Touches.chain (State.note_touches ..) (by decide) (Touches.rfl' _ s)

theorem State.unsealAssoc_touches (s : State) (p1 : ℕ) (p2 : SealedRec) :
    Touches [.regs, .cnt, .pow, .led, .hif, .asc, .kvt, .yok, .out, .free] s (State.unsealAssoc s p1 p2) := by
  unfold State.unsealAssoc
  split
  · exact Touches.chain (State.unsealFail_touches ..) (by decide) (Touches.rfl' _ s)
  · extract_lets -merge -underBinder +onlyGivenNames x0
    clear_value x0
    extract_lets -merge -underBinder +onlyGivenNames x1
    have hx1 : Touches [.regs, .cnt, .pow, .led, .hif, .asc, .kvt, .yok, .out, .free] s x1 := by
      unfold x1
      exact Touches.chain (State.setCtx_touches ..) (by decide) (Touches.rfl' _ s)
    clear_value x1
    extract_lets -merge -underBinder +onlyGivenNames x2
    clear_value x2
    extract_lets -merge -underBinder +onlyGivenNames x3
    have hx3 : Touches [.regs, .cnt, .pow, .led, .hif, .asc, .kvt, .yok, .out, .free] s x3 := by
      unfold x3
      refine Touches.set_asc (x := x1) ?_ (by decide)
      exact hx1
    clear_value x3
    refine Touches.ite ?_ ?_
    · exact Touches.chain (State.sciInsert_touches ..) (by decide) hx3
    · exact hx3

theorem State.unsealSlot_touches (s : State) (p1 : ℕ) (p2 : SealedRec) :
    Touches [.regs, .cnt, .pow, .led, .hif, .asc, .cph, .kvt, .yok, .out] s (State.unsealSlot s p1 p2) := by
  unfold State.unsealSlot
  split
  · exact Touches.chain (State.unsealFail_touches ..) (by decide) (Touches.rfl' _ s)
  · refine Touches.ite ?_ ?_
    · exact Touches.chain (State.unsealFail_touches ..) (by decide) (Touches.rfl' _ s)
    · extract_lets -merge -underBinder +onlyGivenNames x0
      have hx0 : Touches [.regs, .cnt, .pow, .led, .hif, .asc, .cph, .kvt, .yok, .out] s x0 := by
        unfold x0
        exact Touches.chain (State.installKey_touches ..) (by decide) (Touches.rfl' _ s)
      clear_value x0
      refine Touches.ite ?_ ?_
      · exact hx0
      · refine Touches.set_kvt (x := x0) ?_ (by decide)
        exact hx0

theorem State.unseal_touches (s : State) :
    Touches Part.main s (State.unseal s) := by
  unfold State.unseal
  refine Touches.ite ?_ ?_
  · refine Touches.set_kvt (x := s) ?_ (by decide)
    exact (Touches.rfl' _ s)
  · extract_lets -merge -underBinder +onlyGivenNames x0
    clear_value x0
    extract_lets -merge -underBinder +onlyGivenNames x1
    have hx1 : Touches Part.main s x1 := by
      unfold x1
      refine Touches.set_kvt (x := s) ?_ (by decide)
      exact (Touches.rfl' _ s)
    clear_value x1
    extract_lets -merge -underBinder +onlyGivenNames x2
    have hx2 : Touches Part.main s x2 := by
      unfold x2
      refine Touches.foldl _ _ ?_ (fun y3 a3 hy3 => ?_)
      · exact hx1
      · split
        · exact Touches.chain (State.unsealAssoc_touches ..) (by decide) hy3
        · exact hy3
    clear_value x2
    extract_lets -merge -underBinder +onlyGivenNames x4
    have hx4 : Touches Part.main s x4 := by
      unfold x4
      refine Touches.foldl _ _ ?_ (fun y5 a5 hy5 => ?_)
      · exact hx2
      · split
        · exact Touches.chain (State.unsealSlot_touches ..) (by decide) hy5
        · exact hy5
    clear_value x4
    extract_lets -merge -underBinder +onlyGivenNames x6
    clear_value x6
    extract_lets -merge -underBinder +onlyGivenNames x7
    have hx7 : Touches Part.main s x7 := by
      unfold x7
      refine Touches.foldl _ _ ?_ (fun y8 a8 hy8 => ?_)
      · exact hx4
      · exact Touches.chain (State.rebuild_touches ..) (by decide) hy8
    clear_value x7
    extract_lets -merge -underBinder +onlyGivenNames x9
    have hx9 : Touches Part.main s x9 := by
      unfold x9
      exact Touches.chain (State.note_touches ..) (by decide) hx7
    clear_value x9
    extract_lets -merge -underBinder +onlyGivenNames x10 x11
    clear_value x10 x11
    refine Touches.chain (State.note_touches ..) (by decide) ?_
    refine Touches.set_kvt (x := x9) ?_ (by decide)
    exact hx9

end Sys2Proof.Machine
end

