-- ==== Sys2Proof/Laws/TouchBoot.lean ====
section
/-! SUPPORT. What each operation of Machine/Boot.lean may touch. -/

namespace Sys2Proof.Machine

open Sys2Proof

set_option linter.unusedTactic false
set_option linter.unreachableTactic false

theorem State.placeRecord_touches (s : State) (p1 : ℕ) (p2 : ℕ → ℕ → Payload) (p3 : Waiter) :
    Touches [.boot] s (State.placeRecord s p1 p2 p3).1 := by
  unfold State.placeRecord
  split
  extract_lets -merge -underBinder +onlyGivenNames x0 x1 x2 x3
  clear_value x0 x1 x2 x3
  refine Touches.mk1 ?_
  refine Touches.set_boot (x := s) ?_ (by decide) id id
  exact (Touches.rfl' _ s)

theorem State.placeCopies_touches (s : State) (p1 : ℕ → ℕ → ℕ → Payload) (p2 : Waiter) :
    Touches [.boot] s (State.placeCopies s p1 p2).1 := by
  unfold State.placeCopies
  split
  rename_i v0 v1 v2 e3
  have hv1 : Touches [.boot] s v1 := by
    refine Touches.ofFst e3 ?_
    exact Touches.chain (State.placeRecord_touches ..) (by decide) (Touches.rfl' _ s)
  split
  rename_i v4 v5 v6 e7
  have hv5 : Touches [.boot] s v5 := by
    refine Touches.ofFst e7 ?_
    exact Touches.chain (State.placeRecord_touches ..) (by decide) hv1
  exact hv5

theorem State.requestAll_touches (s : State) (p1 : List StoreReq) :
    Touches Part.main s (State.requestAll s p1).1 := by
  unfold State.requestAll
  refine Touches.ite1 ?_ ?_
  · refine Touches.mk1 ?_
    refine Touches.chain (State.reportRefused_touches ..) (by decide) ?_
    refine Touches.set_st (x := s) ?_ (by decide)
    exact (Touches.rfl' _ s)
  · refine Touches.mk1 ?_
    refine Touches.foldl _ _ ?_ (fun y0 a0 hy0 => ?_)
    · exact (Touches.rfl' _ s)
    · exact Touches.chain (State.pushStore_touches ..) (by decide) hy0

theorem State.storeRecord_touches (s : State) (p1 : ℕ → ℕ → ℕ → Payload) (p2 : Waiter) :
    Touches Part.main s (State.storeRecord s p1 p2).1 := by
  unfold State.storeRecord
  split
  rename_i v0 v1 v2 e3
  have hv1 : Touches Part.main s v1 := by
    refine Touches.ofFst e3 ?_
    exact Touches.chain (State.placeCopies_touches ..) (by decide) (Touches.rfl' _ s)
  refine Touches.ite1 ?_ ?_
  · exact Touches.chain (State.requestAll_touches ..) (by decide) (Touches.rfl' _ s)
  · refine Touches.chain (State.requestAll_touches ..) (by decide) ?_
    refine Touches.set_boot (x := v1) ?_ (by decide) id id
    exact hv1

theorem State.storeMeta_touches (s : State) (p1 : SlotMeta) (p2 : Waiter) :
    Touches Part.main s (State.storeMeta s p1 p2).1 := by
  unfold State.storeMeta
  extract_lets -merge -underBinder +onlyGivenNames x0
  clear_value x0
  exact Touches.chain (State.storeRecord_touches ..) (by decide) (Touches.rfl' _ s)

theorem State.bootHold_touches (s : State) (p1 : ℕ) :
    Touches [.boot] s (State.bootHold s p1) := by
  unfold State.bootHold
  refine Touches.set_boot (x := s) ?_ (by decide) id id
  exact (Touches.rfl' _ s)

theorem State.nextCandidate_touches (s : State) (p1 : List ℕ) : Touches Part.main s (State.nextCandidate s p1) := by
  induction p1 generalizing s with
  | nil =>
    unfold State.nextCandidate
    refine Touches.chain (State.raise_touches ..) (by decide) ?_
    refine Touches.chain (State.bootHold_touches ..) (by decide) ?_
    exact Touches.set_boot (x := s) (Touches.rfl' _ s) (by decide) id id
  | cons k ks ih =>
    unfold State.nextCandidate
    extract_lets -merge -underBinder +onlyGivenNames x0
    clear_value x0
    refine Touches.ite ?_ ?_
    · exact Touches.chain (ih _) (by decide) (Touches.chain (State.storeMeta_touches ..) (by decide)
        (Touches.chain (State.note_touches ..) (by decide) (Touches.rfl' _ s)))
    · split
      rename_i v2 v3 v4 e5
      have hv3 : Touches Part.main s v3 := by
        refine Touches.ofFst e5 ?_
        refine Touches.ite1 ?_ ?_
        · exact Touches.chain (State.storeMeta_touches ..) (by decide) (Touches.rfl' _ s)
        · exact Touches.mk1 (Touches.rfl' _ s)
      exact Touches.set_boot (x := v3) hv3 (by decide) id id

theorem State.bootB3_touches (s : State) (p1 : Bool) :
    Touches Part.main s (State.bootB3 s p1) := by
  unfold State.bootB3
  extract_lets -merge -underBinder +onlyGivenNames x0
  extract_lets -merge -underBinder +onlyGivenNames x1
  have hx1 : Touches Part.main s x1 := by
    unfold x1
    refine Touches.set_boot (x := s) ?_ (by decide) id id
    exact (Touches.rfl' _ s)
  clear_value x1
  refine Touches.ite ?_ ?_
  · extract_lets -merge -underBinder +onlyGivenNames x2
    extract_lets -merge -underBinder +onlyGivenNames x3
    have hx3 : Touches Part.main s x3 := by
      unfold x3
      refine Touches.chain (State.note_touches ..) (by decide) ?_
      refine Touches.set_boot (x := x1) ?_ (by decide) id id
      exact hx1
    clear_value x3
    exact Touches.chain (State.nextCandidate_touches ..) (by decide) hx3
  · exact Touches.chain (State.nextCandidate_touches ..) (by decide) hx1

theorem State.lateRecord_touches (s : State) (p1 : EvidArgs) (p2 : ℕ) :
    Touches [.regs, .cnt, .pow, .led, .hdg, .hif, .st, .yok, .out] s (State.lateRecord s p1 p2) := by
  unfold State.lateRecord
  extract_lets -merge -underBinder +onlyGivenNames x0 x1
  clear_value x0 x1
  extract_lets -merge -underBinder +onlyGivenNames x2
  have hx2 : Touches [.regs, .cnt, .pow, .led, .hdg, .hif, .st, .yok, .out] s x2 := by
    unfold x2
    refine Touches.chain (State.evidPass_touches ..) (by decide) ?_
    refine Touches.set_hdg (x := s) ?_ (by decide)
    exact (Touches.rfl' _ s)
  clear_value x2
  refine Touches.set_hdg (x := x2) ?_ (by decide)
  exact hx2

theorem State.queryRoots_touches (s : State) :
    Touches [.regs, .cnt, .pow, .led, .hdg, .hif, .st, .yok, .out] s (State.queryRoots s).1 := by
  unfold State.queryRoots
  extract_lets -merge -underBinder +onlyGivenNames x0 x1
  clear_value x0 x1
  refine Touches.ite1 ?_ ?_
  · refine Touches.mk1 ?_
    exact (Touches.rfl' _ s)
  · extract_lets -merge -underBinder +onlyGivenNames x2
    clear_value x2
    extract_lets -merge -underBinder +onlyGivenNames x3 x4 x5 x6
    clear_value x3 x4 x5 x6
    extract_lets -merge -underBinder +onlyGivenNames x7
    have hx7 : Touches [.regs, .cnt, .pow, .led, .hdg, .hif, .st, .yok, .out] s x7 := by
      unfold x7
      refine Touches.set_hdg (x := s) ?_ (by decide)
      exact (Touches.rfl' _ s)
    clear_value x7
    extract_lets -merge -underBinder +onlyGivenNames x8 x9
    clear_value x8 x9
    refine Touches.mk1 ?_
    refine Touches.ite ?_ ?_
    · exact Touches.chain (State.lifeEvid_touches ..) (by decide) hx7
    · exact hx7

theorem State.queryNotes_touches (s : State) :
    Touches [.regs, .cnt, .pow, .led, .hdg, .hif, .yok, .out] s (State.queryNotes s) := by
  unfold State.queryNotes
  refine Touches.foldl _ _ ?_ (fun y0 a0 hy0 => ?_)
  · exact (Touches.rfl' _ s)
  · extract_lets -merge -underBinder +onlyGivenNames x1
    clear_value x1
    extract_lets -merge -underBinder +onlyGivenNames x2
    have hx2 : Touches [.regs, .cnt, .pow, .led, .hdg, .hif, .yok, .out] s x2 := by
      unfold x2
      exact Touches.chain (State.setSensor_touches ..) (by decide) hy0
    clear_value x2
    refine Touches.ite ?_ ?_
    · exact hx2
    · exact Touches.chain (State.note_touches ..) (by decide) hx2

theorem State.queryReplay_touches (s : State) :
    Touches [.regs, .cnt, .pow, .led, .hdg, .hif, .st, .yok, .out] s (State.queryReplay s) := by
  unfold State.queryReplay
  extract_lets -merge -underBinder +onlyGivenNames x0 x1
  clear_value x0 x1
  extract_lets -merge -underBinder +onlyGivenNames x2
  have hx2 : Touches [.regs, .cnt, .pow, .led, .hdg, .hif, .st, .yok, .out] s x2 := by
    unfold x2
    refine Touches.set_hdg (x := s) ?_ (by decide)
    exact (Touches.rfl' _ s)
  clear_value x2
  extract_lets -merge -underBinder +onlyGivenNames x3
  have hx3 : Touches [.regs, .cnt, .pow, .led, .hdg, .hif, .st, .yok, .out] s x3 := by
    unfold x3
    refine Touches.foldl _ _ ?_ (fun y4 a4 hy4 => ?_)
    · exact hx2
    · extract_lets -merge -underBinder +onlyGivenNames x5
      clear_value x5
      extract_lets -merge -underBinder +onlyGivenNames x6
      have hx6 : Touches [.regs, .cnt, .pow, .led, .hdg, .hif, .st, .yok, .out] s x6 := by
        unfold x6
        exact Touches.chain (State.lateRecord_touches ..) (by decide) hy4
      clear_value x6
      refine Touches.ite ?_ ?_
      · exact hx6
      · refine Touches.set_hdg (x := x6) ?_ (by decide)
        exact hx6
  clear_value x3
  extract_lets -merge -underBinder +onlyGivenNames x7
  have hx7 : Touches [.regs, .cnt, .pow, .led, .hdg, .hif, .st, .yok, .out] s x7 := by
    unfold x7
    refine Touches.foldl _ _ ?_ (fun y8 a8 hy8 => ?_)
    · exact hx3
    · exact Touches.chain (State.note_touches ..) (by decide) hy8
  clear_value x7
  refine Touches.chain (State.evidFullCheck_touches ..) (by decide) ?_
  refine Touches.set_hdg (x := x7) ?_ (by decide)
  exact hx7

theorem State.queryLatch_touches (s : State) :
    Touches [.regs, .cnt, .pow, .led, .hdg, .hif, .st, .yok, .out] s (State.queryLatch s).1 := by
  unfold State.queryLatch
  split
  · refine Touches.mk1 ?_
    exact (Touches.rfl' _ s)
  · extract_lets -merge -underBinder +onlyGivenNames x0
    have hx0 : Touches [.regs, .cnt, .pow, .led, .hdg, .hif, .st, .yok, .out] s x0 := by
      unfold x0
      exact Touches.chain (State.lateRecord_touches ..) (by decide) (Touches.rfl' _ s)
    clear_value x0
    extract_lets -merge -underBinder +onlyGivenNames x1
    clear_value x1
    extract_lets -merge -underBinder +onlyGivenNames x2
    have hx2 : Touches [.regs, .cnt, .pow, .led, .hdg, .hif, .st, .yok, .out] s x2 := by
      unfold x2
      refine Touches.set_hdg (x := x0) ?_ (by decide)
      exact hx0
    clear_value x2
    extract_lets -merge -underBinder +onlyGivenNames x3
    have hx3 : Touches [.regs, .cnt, .pow, .led, .hdg, .hif, .st, .yok, .out] s x3 := by
      unfold x3
      exact Touches.chain (State.wr_touches ..) (by decide) hx2
    clear_value x3
    refine Touches.mk1 ?_
    refine Touches.chain (State.evidFullCheck_touches ..) (by decide) ?_
    exact Touches.chain (State.note_touches ..) (by decide) hx3

theorem State.rootCause_touches (s : State) (p1 : ℕ) :
    Touches [.hdg] s (State.rootCause s p1) := by
  unfold State.rootCause
  refine Touches.set_hdg (x := s) ?_ (by decide)
  exact (Touches.rfl' _ s)

theorem State.bootZeroized_touches (s : State) :
    Touches [.regs, .cnt, .ctl, .pow, .led, .hdg, .hif, .st, .yok, .out] s (State.bootZeroized s) := by
  unfold State.bootZeroized
  refine Touches.chain (State.overwriteLeft_touches ..) (by decide) ?_
  refine Touches.chain (State.setMode_touches ..) (by decide) ?_
  refine Touches.set_hdg (x := s) ?_ (by decide)
  exact (Touches.rfl' _ s)

theorem State.bootB2_touches (s : State) (p1 : Bool) :
    Touches Part.main s (State.bootB2 s p1) := by
  unfold State.bootB2
  extract_lets -merge -underBinder +onlyGivenNames x0
  extract_lets -merge -underBinder +onlyGivenNames x1
  have hx1 : Touches Part.main s x1 := by
    unfold x1
    refine Touches.set_boot (x := s) ?_ (by decide) id id
    exact (Touches.rfl' _ s)
  clear_value x1
  split
  rename_i v2 v3 v4 e5
  have hv3 : Touches Part.main s v3 := by
    refine Touches.ofFst e5 ?_
    exact Touches.chain (State.queryRoots_touches ..) (by decide) hx1
  split
  rename_i v6 v7 v8 e9
  have hv7 : Touches Part.main s v7 := by
    refine Touches.ofFst e9 ?_
    refine Touches.chain (State.queryLatch_touches ..) (by decide) ?_
    refine Touches.chain (State.queryReplay_touches ..) (by decide) ?_
    exact Touches.chain (State.queryNotes_touches ..) (by decide) hv3
  split
  · refine Touches.chain (State.bootHold_touches ..) (by decide) ?_
    exact Touches.chain (State.rootCause_touches ..) (by decide) hv7
  · refine Touches.chain (State.bootB3_touches ..) (by decide) ?_
    exact Touches.chain (State.rootCause_touches ..) (by decide) hv7
  · refine Touches.ite ?_ ?_
    · extract_lets -merge -underBinder +onlyGivenNames x10
      clear_value x10
      extract_lets -merge -underBinder +onlyGivenNames x11
      have hx11 : Touches Part.main s x11 := by
        unfold x11
        refine Touches.set_hdg (x := v7) ?_ (by decide)
        exact hv7
      clear_value x11
      refine Touches.chain (State.bootB3_touches ..) (by decide) ?_
      exact Touches.chain (State.rootCause_touches ..) (by decide) hx11
    · refine Touches.ite ?_ ?_
      · refine Touches.chain (State.bootZeroized_touches ..) (by decide) ?_
        exact Touches.chain (State.rootCause_touches ..) (by decide) hv7
      · refine Touches.ite ?_ ?_
        · refine Touches.chain (State.bootZeroized_touches ..) (by decide) ?_
          exact Touches.chain (State.rootCause_touches ..) (by decide) hv7
        · extract_lets -merge -underBinder +onlyGivenNames x12
          have hx12 : Touches Part.main s x12 := by
            unfold x12
            refine Touches.chain (State.note_touches ..) (by decide) ?_
            exact Touches.chain (State.rootCause_touches ..) (by decide) hv7
          clear_value x12
          refine Touches.chain (State.bootZeroized_touches ..) (by decide) ?_
          exact Touches.chain (State.lifeEvid_touches ..) (by decide) hx12

theorem State.bootB1_touches (s : State) :
    Touches [.regs, .cnt, .pow, .boot, .led, .hif, .st, .fab, .cph, .kvt, .yok, .out, .free] s (State.bootB1 s) := by
  unfold State.bootB1
  extract_lets -merge -underBinder +onlyGivenNames x0 x1
  clear_value x0 x1
  extract_lets -merge -underBinder +onlyGivenNames x2
  extract_lets -merge -underBinder +onlyGivenNames x3 x4
  clear_value x3 x4
  extract_lets -merge -underBinder +onlyGivenNames x5
  have hx5 : Touches [.regs, .cnt, .pow, .boot, .led, .hif, .st, .fab, .cph, .kvt, .yok, .out, .free] s x5 := by
    unfold x5
    apply Touches.put (x := s)
    · and_intros <;> first | exact .inr (by decide) | exact .inl rfl | exact SMap.wf_set _ _ _ _ | exact SMap.wf_dropRange _ _ _ _ | exact SMap.wf_filter _ _ _ | exact fun h => by rw [Ledger.reset_log]; exact h | exact id | exact fun _ => rfl
    · exact (Touches.rfl' _ s)
  clear_value x5
  split
  rename_i v6 v7 v8 e9
  have hv8 : Touches [.regs, .cnt, .pow, .boot, .led, .hif, .st, .fab, .cph, .kvt, .yok, .out, .free] s v8 := by
    refine Touches.ofSnd e9 ?_
    exact Touches.chain (State.rbgTake_touches ..) (by decide) hx5
  extract_lets -merge -underBinder +onlyGivenNames x10 x11
  clear_value x10 x11
  extract_lets -merge -underBinder +onlyGivenNames x12
  have hx12 : Touches [.regs, .cnt, .pow, .boot, .led, .hif, .st, .fab, .cph, .kvt, .yok, .out, .free] s x12 := by
    unfold x12
    apply Touches.put (x := v8)
    · and_intros <;> first | exact .inr (by decide) | exact .inl rfl | exact SMap.wf_set _ _ _ _ | exact SMap.wf_dropRange _ _ _ _ | exact SMap.wf_filter _ _ _ | exact fun h => by rw [Ledger.reset_log]; exact h | exact id | exact fun _ => rfl
    · exact hv8
  clear_value x12
  extract_lets -merge -underBinder +onlyGivenNames x13
  have hx13 : Touches [.regs, .cnt, .pow, .boot, .led, .hif, .st, .fab, .cph, .kvt, .yok, .out, .free] s x13 := by
    unfold x13
    exact Touches.chain (State.startStores_touches ..) (by decide) hx12
  clear_value x13
  split
  · refine Touches.ite ?_ ?_
    · extract_lets -merge -underBinder +onlyGivenNames x14
      clear_value x14
      refine Touches.chain (State.setFlg_touches ..) (by decide) ?_
      exact Touches.chain (State.wr_touches ..) (by decide) hx13
    · exact hx13
  · exact hx13

theorem execBootEntry_touches (p0 : Bool) (s : State) :
    OutTouches Part.main s (execBootEntry p0 s) := by
  unfold execBootEntry
  refine OutTouches.ite ?_ ?_
  · show Touches _ _ _
    refine Touches.chain (State.reportRefused_touches ..) (by decide) ?_
    refine Touches.chain (State.bootB2_touches ..) (by decide) ?_
    refine Touches.chain (State.setMode_touches ..) (by decide) ?_
    exact Touches.chain (State.bootB1_touches ..) (by decide) (Touches.rfl' _ s)
  · refine OutTouches.ite ?_ ?_
    · show Touches _ _ _
      refine Touches.chain (State.reportRefused_touches ..) (by decide) ?_
      refine Touches.chain (State.bootB2_touches ..) (by decide) ?_
      exact Touches.chain (State.bootB1_touches ..) (by decide) (Touches.rfl' _ s)
    · show Touches _ _ _
      exact (Touches.rfl' _ s)

theorem execMgdInitDone_touches (p0 : Bool) (s : State) :
    OutTouches Part.main s (execMgdInitDone p0 s) := by
  unfold execMgdInitDone
  refine OutTouches.ite ?_ ?_
  · refine OutTouches.ite ?_ ?_
    · show Touches _ _ _
      refine Touches.set_held (x := s) ?_ (by decide)
      exact (Touches.rfl' _ s)
    · refine OutTouches.ite ?_ ?_
      · show Touches _ _ _
        refine Touches.chain (State.note_touches ..) (by decide) ?_
        refine Touches.chain (State.mgdInit_touches ..) (by decide) ?_
        refine Touches.set_boot (x := s) ?_ (by decide) id id
        exact (Touches.rfl' _ s)
      · show Touches _ _ _
        refine Touches.chain (State.raise_touches ..) (by decide) ?_
        exact Touches.chain (State.bootHold_touches ..) (by decide) (Touches.rfl' _ s)
  · refine OutTouches.ite ?_ ?_
    · refine OutTouches.ite ?_ ?_
      · show Touches _ _ _
        refine Touches.chain (State.note_touches ..) (by decide) ?_
        exact Touches.chain (State.mgdInit_touches ..) (by decide) (Touches.rfl' _ s)
      · show Touches _ _ _
        exact Touches.chain (State.raise_touches ..) (by decide) (Touches.rfl' _ s)
    · show Touches _ _ _
      exact (Touches.rfl' _ s)

theorem State.beginCalibrate_touches (s : State) :
    Touches Part.main s (State.beginCalibrate s) := by
  unfold State.beginCalibrate
  extract_lets -merge -underBinder +onlyGivenNames x0 x1
  clear_value x0 x1
  extract_lets -merge -underBinder +onlyGivenNames x2
  extract_lets -merge -underBinder +onlyGivenNames x3
  have hx3 : Touches Part.main s x3 := by
    unfold x3
    refine Touches.set_led (x := s) ?_ (by decide) id
    exact (Touches.rfl' _ s)
  clear_value x3
  extract_lets -merge -underBinder +onlyGivenNames x4
  have hx4 : Touches Part.main s x4 := by
    unfold x4
    refine Touches.ite ?_ ?_
    · exact hx3
    · exact Touches.chain (State.note_touches ..) (by decide) hx3
  clear_value x4
  refine Touches.foldl _ _ ?_ (fun y5 a5 hy5 => ?_)
  · exact hx4
  · refine Touches.ite ?_ ?_
    · extract_lets -merge -underBinder +onlyGivenNames x6
      clear_value x6
      refine Touches.chain (State.refreshGroup_touches ..) (by decide) ?_
      refine Touches.foldl _ _ ?_ (fun y7 a7 hy7 => ?_)
      · exact hy5
      · exact Touches.chain (State.touchLane_touches ..) (by decide) hy7
    · exact hy5

theorem execKvtUnsealDone_touches (s : State) :
    OutTouches Part.main s (execKvtUnsealDone s) := by
  unfold execKvtUnsealDone
  refine OutTouches.ite ?_ ?_
  · show Touches _ _ _
    exact (Touches.rfl' _ s)
  · refine OutTouches.ite ?_ ?_
    · show Touches _ _ _
      refine Touches.set_held (x := s) ?_ (by decide)
      exact (Touches.rfl' _ s)
    · extract_lets -merge -underBinder +onlyGivenNames x0
      have hx0 : Touches Part.main s x0 := by
        unfold x0
        exact Touches.chain (State.unseal_touches ..) (by decide) (Touches.rfl' _ s)
      clear_value x0
      extract_lets -merge -underBinder +onlyGivenNames x1
      clear_value x1
      extract_lets -merge -underBinder +onlyGivenNames x2
      have hx2 : Touches Part.main s x2 := by
        unfold x2
        refine Touches.chain (State.resumeSheaf_touches ..) (by decide) ?_
        exact Touches.chain (State.wr_touches ..) (by decide) hx0
      clear_value x2
      extract_lets -merge -underBinder +onlyGivenNames x3
      have hx3 : Touches Part.main s x3 := by
        unfold x3
        refine Touches.ite ?_ ?_
        · exact Touches.chain (State.note_touches ..) (by decide) hx2
        · exact hx2
      clear_value x3
      extract_lets -merge -underBinder +onlyGivenNames x4
      clear_value x4
      extract_lets -merge -underBinder +onlyGivenNames x5
      extract_lets -merge -underBinder +onlyGivenNames x6
      have hx6 : Touches Part.main s x6 := by
        unfold x6
        apply Touches.put (x := x3)
        · and_intros <;> first | exact .inr (by decide) | exact .inl rfl | exact SMap.wf_set _ _ _ _ | exact SMap.wf_dropRange _ _ _ _ | exact SMap.wf_filter _ _ _ | exact fun h => by rw [Ledger.reset_log]; exact h | exact id | exact fun _ => rfl
        · exact hx3
      clear_value x6
      show Touches _ _ _
      refine Touches.chain (State.beginCalibrate_touches ..) (by decide) ?_
      exact Touches.chain (State.setMode_touches ..) (by decide) hx6

theorem State.imageEnd_touches (s : State) (p1 : ℕ) (p2 : ℕ) (p3 : ℕ) :
    Touches [.regs, .boot] s (State.imageEnd s p1 p2 p3) := by
  unfold State.imageEnd
  extract_lets -merge -underBinder +onlyGivenNames x0
  extract_lets -merge -underBinder +onlyGivenNames x1
  have hx1 : Touches [.regs, .boot] s x1 := by
    unfold x1
    refine Touches.set_boot (x := s) ?_ (by decide) id id
    exact (Touches.rfl' _ s)
  clear_value x1
  exact Touches.chain (State.wr_touches ..) (by decide) hx1

theorem State.imageMeta_touches (s : State) (p1 : SlotMeta) (p2 : ℕ) (p3 : ℕ) :
    Touches Part.main s (State.imageMeta s p1 p2 p3) := by
  unfold State.imageMeta
  split
  rename_i v0 v1 v2 e3
  have hv1 : Touches Part.main s v1 := by
    refine Touches.ofFst e3 ?_
    exact Touches.chain (State.storeMeta_touches ..) (by decide) (Touches.rfl' _ s)
  refine Touches.ite ?_ ?_
  · refine Touches.set_boot (x := v1) ?_ (by decide) id id
    exact hv1
  · exact Touches.chain (State.imageEnd_touches ..) (by decide) hv1

theorem State.imageStores_touches (s : State) (p1 : List StoreReq) (p2 : ImageJob) :
    Touches Part.main s (State.imageStores s p1 p2) := by
  unfold State.imageStores
  split
  rename_i v0 v1 v2 e3
  have hv1 : Touches Part.main s v1 := by
    refine Touches.ofFst e3 ?_
    exact Touches.chain (State.requestAll_touches ..) (by decide) (Touches.rfl' _ s)
  refine Touches.ite ?_ ?_
  · refine Touches.set_boot (x := v1) ?_ (by decide) id id
    exact hv1
  · exact Touches.chain (State.imageEnd_touches ..) (by decide) hv1

theorem State.copyVerify_touches (s : State) :
    Touches Part.main s (State.copyVerify s) := by
  unfold State.copyVerify
  split
  · refine Touches.chain (State.imageEnd_touches ..) (by decide) ?_
    exact Touches.chain (State.note_touches ..) (by decide) (Touches.rfl' _ s)
  · extract_lets -merge -underBinder +onlyGivenNames x0
    clear_value x0
    exact Touches.chain (State.imageMeta_touches ..) (by decide) (Touches.rfl' _ s)

theorem State.chunkNext_touches {m : List Part} {s : State} {x : State} {p1 : ℕ} {p2 : ℕ} {p3 : ℕ} {p4 : ℕ → ImageJob} {p5 : State → ℕ → Word} {p6 : State → State} (hm : Part.main ⊆ m) (hx : Touches m s x) (k6 : ∀ z0, Touches m s z0 → Touches m s (p6 z0)) :
    Touches m s (State.chunkNext x p1 p2 p3 p4 p5 p6) := by
  unfold State.chunkNext
  split
  · exact Touches.chain (State.imageEnd_touches ..) (List.Subset.trans (by decide) hm) hx
  · refine Touches.ite ?_ ?_
    · exact Touches.chain (State.imageStores_touches ..) (List.Subset.trans (by decide) hm) hx
    · refine Touches.ite ?_ ?_
      · refine Touches.set_boot (x := x) ?_ (hm (by decide)) id id
        exact hx
      · refine k6 _ ?_
        exact hx

theorem State.imageProgress_touches (s : State) :
    Touches Part.main s (State.imageProgress s) := by
  unfold State.imageProgress
  split
  · exact (Touches.rfl' _ s)
  · exact Touches.chain (State.imageEnd_touches ..) (by decide) (Touches.rfl' _ s)
  · split
    · exact Touches.chain (State.imageEnd_touches ..) (by decide) (Touches.rfl' _ s)
    · exact Touches.chain (State.imageStores_touches ..) (by decide) (Touches.rfl' _ s)
  · refine State.chunkNext_touches (by decide) ?_ (fun z0 hz0 => ?_)
    · exact (Touches.rfl' _ s)
    · exact Touches.chain (State.imageEnd_touches ..) (by decide) hz0
  · refine State.chunkNext_touches (by decide) ?_ (fun z1 hz1 => ?_)
    · exact (Touches.rfl' _ s)
    · refine Touches.ite ?_ ?_
      · split
        · exact Touches.chain (State.imageStores_touches ..) (by decide) hz1
        · exact Touches.chain (State.imageEnd_touches ..) (by decide) hz1
      · exact Touches.chain (State.copyVerify_touches ..) (by decide) hz1

theorem State.imageRun_touches {m : List Part} {s : State} {x : State} {p1 : ℕ} {p2 : ℕ} {p3 : Bool} {p4 : State → State} (hm : [.regs, .cnt, .pow, .boot, .led, .hif, .yok, .out] ⊆ m) (hx : Touches m s x) (k4 : ∀ z0, Touches m s z0 → Touches m s (p4 z0)) :
    Touches m s (State.imageRun x p1 p2 p3 p4) := by
  unfold State.imageRun
  refine Touches.ite ?_ ?_
  · exact Touches.chain (State.note_touches ..) (List.Subset.trans (by decide) hm) hx
  · refine Touches.ite ?_ ?_
    · exact Touches.chain (State.imageEnd_touches ..) (List.Subset.trans (by decide) hm) hx
    · refine Touches.ite ?_ ?_
      · exact Touches.chain (State.imageEnd_touches ..) (List.Subset.trans (by decide) hm) hx
      · refine Touches.ite ?_ ?_
        · exact Touches.chain (State.imageEnd_touches ..) (List.Subset.trans (by decide) hm) hx
        · refine Touches.ite ?_ ?_
          · exact Touches.chain (State.imageEnd_touches ..) (List.Subset.trans (by decide) hm) hx
          · refine Touches.ite ?_ ?_
            · exact Touches.chain (State.imageEnd_touches ..) (List.Subset.trans (by decide) hm) hx
            · refine k4 _ ?_
              exact hx

theorem State.imageWrite_touches {m : List Part} {s : State} {x : State} {p1 : Path} {p2 : ℕ} {p3 : ℕ} {p4 : ℕ} {p5 : State → State} (hm : [.regs, .cnt, .armed, .pow, .boot, .led, .hif, .yok, .out] ⊆ m) (hx : Touches m s x) (k5 : ∀ z0, Touches m s z0 → Touches m s (p5 z0)) :
    Touches m s (State.imageWrite x p1 p2 p3 p4 p5) := by
  unfold State.imageWrite
  extract_lets -merge -underBinder +onlyGivenNames x0
  clear_value x0
  refine State.hostWrite_touches (List.Subset.trans (by decide) hm) ?_ (fun z1 hz1 => ?_)
  · exact hx
  · refine State.imageRun_touches (List.Subset.trans (by decide) hm) ?_ (fun z2 hz2 => ?_)
    · exact hz1
    · refine k5 _ ?_
      exact hz2

theorem execWriteOpen_touches (p0 : Path) (p1 : Fin 16) (s : State) :
    OutTouches Part.main s (execWriteOpen p0 p1 s) := by
  unfold execWriteOpen
  show Touches _ _ _
  refine State.imageWrite_touches (by decide) ?_ (fun z0 hz0 => ?_)
  · exact (Touches.rfl' _ s)
  · exact Touches.chain (State.imageMeta_touches ..) (by decide) hz0

theorem execWriteChunk_touches (p0 : Path) (p1 : Fin 16) (p2 : Fin 4096) (s : State) :
    OutTouches Part.main s (execWriteChunk p0 p1 p2 s) := by
  unfold execWriteChunk
  show Touches _ _ _
  refine State.imageWrite_touches (by decide) ?_ (fun z0 hz0 => ?_)
  · exact (Touches.rfl' _ s)
  · split
    · refine Touches.ite ?_ ?_
      · exact Touches.chain (State.imageStores_touches ..) (by decide) hz0
      · exact Touches.chain (State.imageEnd_touches ..) (by decide) hz0
    · exact Touches.chain (State.imageEnd_touches ..) (by decide) hz0

theorem execChunkEnergyTimeout_touches (s : State) :
    OutTouches [.regs, .boot, .st] s (execChunkEnergyTimeout s) := by
  unfold execChunkEnergyTimeout
  split
  · split
    · refine OutTouches.ite ?_ ?_
      · show Touches _ _ _
        refine Touches.chain (State.imageEnd_touches ..) (by decide) ?_
        refine Touches.set_st (x := s) ?_ (by decide)
        exact (Touches.rfl' _ s)
      · show Touches _ _ _
        exact (Touches.rfl' _ s)
    · show Touches _ _ _
      exact (Touches.rfl' _ s)
  · show Touches _ _ _
    exact (Touches.rfl' _ s)

theorem execWriteClose_touches (p0 : Path) (p1 : Fin 16) (p2 : Bool) (s : State) :
    OutTouches Part.main s (execWriteClose p0 p1 p2 s) := by
  unfold execWriteClose
  extract_lets -merge -underBinder +onlyGivenNames x0
  clear_value x0
  show Touches _ _ _
  refine State.imageWrite_touches (by decide) ?_ (fun z1 hz1 => ?_)
  · exact (Touches.rfl' _ s)
  · refine Touches.ite ?_ ?_
    · exact Touches.chain (State.imageEnd_touches ..) (by decide) hz1
    · split
      · refine Touches.chain (State.imageMeta_touches ..) (by decide) ?_
        exact Touches.chain (State.note_touches ..) (by decide) hz1
      · extract_lets -merge -underBinder +onlyGivenNames x2
        clear_value x2
        exact Touches.chain (State.imageMeta_touches ..) (by decide) hz1

theorem execActivate_touches (p0 : Path) (p1 : Fin 16) (s : State) :
    OutTouches Part.main s (execActivate p0 p1 s) := by
  unfold execActivate
  extract_lets -merge -underBinder +onlyGivenNames x0
  clear_value x0
  show Touches _ _ _
  refine State.imageWrite_touches (by decide) ?_ (fun z1 hz1 => ?_)
  · exact (Touches.rfl' _ s)
  · extract_lets -merge -underBinder +onlyGivenNames x2
    clear_value x2
    refine Touches.ite ?_ ?_
    · exact Touches.chain (State.imageEnd_touches ..) (by decide) hz1
    · refine Touches.ite ?_ ?_
      · exact Touches.chain (State.imageMeta_touches ..) (by decide) hz1
      · exact Touches.chain (State.imageEnd_touches ..) (by decide) hz1

theorem execConfirm_touches (p0 : Path) (s : State) :
    OutTouches Part.main s (execConfirm p0 s) := by
  unfold execConfirm
  show Touches _ _ _
  refine State.imageWrite_touches (by decide) ?_ (fun z0 hz0 => ?_)
  · exact (Touches.rfl' _ s)
  · extract_lets -merge -underBinder +onlyGivenNames x1
    clear_value x1
    extract_lets -merge -underBinder +onlyGivenNames x2
    clear_value x2
    refine Touches.ite ?_ ?_
    · refine Touches.chain (State.imageMeta_touches ..) (by decide) ?_
      exact Touches.chain (State.note_touches ..) (by decide) hz0
    · exact Touches.chain (State.imageEnd_touches ..) (by decide) hz0

theorem execRevert_touches (p0 : Path) (s : State) :
    OutTouches Part.main s (execRevert p0 s) := by
  unfold execRevert
  show Touches _ _ _
  refine State.imageWrite_touches (by decide) ?_ (fun z0 hz0 => ?_)
  · exact (Touches.rfl' _ s)
  · extract_lets -merge -underBinder +onlyGivenNames x1
    clear_value x1
    refine Touches.ite ?_ ?_
    · exact Touches.chain (State.imageMeta_touches ..) (by decide) hz0
    · exact Touches.chain (State.imageEnd_touches ..) (by decide) hz0

theorem execReboot_touches (p0 : Path) (s : State) :
    OutTouches [.regs, .shadow, .cnt, .armed, .now, .ctl, .pow, .boot, .led, .hdg, .hif, .tim, .fab, .line, .rows, .cls, .sch, .mgd, .asc, .cph, .kvt, .yok, .held, .out] s (execReboot p0 s) := by
  unfold execReboot
  show Touches _ _ _
  refine State.imageWrite_touches (by decide) ?_ (fun z0 hz0 => ?_)
  · exact (Touches.rfl' _ s)
  · exact Touches.chain (State.moduleReset_touches ..) (by decide) hz0

theorem execCopyGolden_touches (p0 : Path) (p1 : Fin 16) (s : State) :
    OutTouches Part.main s (execCopyGolden p0 p1 s) := by
  unfold execCopyGolden
  extract_lets -merge -underBinder +onlyGivenNames x0
  clear_value x0
  show Touches _ _ _
  refine State.imageWrite_touches (by decide) ?_ (fun z1 hz1 => ?_)
  · exact (Touches.rfl' _ s)
  · extract_lets -merge -underBinder +onlyGivenNames x2
    clear_value x2
    refine Touches.ite ?_ ?_
    · exact Touches.chain (State.imageEnd_touches ..) (by decide) hz1
    · split
      rename_i v3 v4 v5 e6
      have hv4 : Touches Part.main s v4 := by
        refine Touches.ofFst e6 ?_
        exact Touches.chain (State.storeMeta_touches ..) (by decide) hz1
      split
      · exact Touches.chain (State.imageStores_touches ..) (by decide) hv4
      · exact Touches.chain (State.imageEnd_touches ..) (by decide) hv4

theorem execImageErase_touches (p0 : Path) (p1 : Fin 16) (s : State) :
    OutTouches Part.main s (execImageErase p0 p1 s) := by
  unfold execImageErase
  extract_lets -merge -underBinder +onlyGivenNames x0
  clear_value x0
  show Touches _ _ _
  refine State.imageWrite_touches (by decide) ?_ (fun z1 hz1 => ?_)
  · exact (Touches.rfl' _ s)
  · split
    rename_i v2 v3 v4 e5
    have hv3 : Touches Part.main s v3 := by
      refine Touches.ofFst e5 ?_
      exact Touches.chain (State.storeMeta_touches ..) (by decide) hz1
    split
    · exact Touches.chain (State.imageStores_touches ..) (by decide) hv3
    · exact Touches.chain (State.imageEnd_touches ..) (by decide) hv3
    · exact Touches.chain (State.imageEnd_touches ..) (by decide) hv3

theorem execRaiseFloor_touches (p0 : Path) (p1 : Fin 4096) (s : State) :
    OutTouches [.regs, .cnt, .armed, .pow, .boot, .led, .hif, .yok, .out] s (execRaiseFloor p0 p1 s) := by
  unfold execRaiseFloor
  extract_lets -merge -underBinder +onlyGivenNames x0
  clear_value x0
  show Touches _ _ _
  refine State.imageWrite_touches (by decide) ?_ (fun z1 hz1 => ?_)
  · exact (Touches.rfl' _ s)
  · extract_lets -merge -underBinder +onlyGivenNames x2
    clear_value x2
    extract_lets -merge -underBinder +onlyGivenNames x3 x4
    clear_value x3 x4
    refine Touches.ite ?_ ?_
    · exact Touches.chain (State.imageEnd_touches ..) (by decide) hz1
    · refine Touches.ite ?_ ?_
      · exact Touches.chain (State.imageEnd_touches ..) (by decide) hz1
      · refine Touches.chain (State.imageEnd_touches ..) (by decide) ?_
        refine Touches.chain (State.note_touches ..) (by decide) ?_
        refine Touches.set_boot (x := z1) ?_ (by decide) id id
        exact hz1

theorem execRevokeAuth_touches (p0 : Path) (p1 : Fin 4096) (s : State) :
    OutTouches [.regs, .cnt, .armed, .pow, .boot, .led, .hif, .yok, .out] s (execRevokeAuth p0 p1 s) := by
  unfold execRevokeAuth
  extract_lets -merge -underBinder +onlyGivenNames x0
  clear_value x0
  show Touches _ _ _
  refine State.imageWrite_touches (by decide) ?_ (fun z1 hz1 => ?_)
  · exact (Touches.rfl' _ s)
  · split
    · exact Touches.chain (State.imageEnd_touches ..) (by decide) hz1
    · refine Touches.ite ?_ ?_
      · exact Touches.chain (State.imageEnd_touches ..) (by decide) hz1
      · extract_lets -merge -underBinder +onlyGivenNames x2
        extract_lets -merge -underBinder +onlyGivenNames x3
        have hx3 : Touches [.regs, .cnt, .armed, .pow, .boot, .led, .hif, .yok, .out] s x3 := by
          unfold x3
          refine Touches.set_boot (x := z1) ?_ (by decide) id id
          exact hz1
        clear_value x3
        refine Touches.chain (State.imageEnd_touches ..) (by decide) ?_
        exact Touches.chain (State.note_touches ..) (by decide) hx3

theorem execSetTrialMax_touches (p0 : Path) (p1 : Fin 4096) (s : State) :
    OutTouches Part.main s (execSetTrialMax p0 p1 s) := by
  unfold execSetTrialMax
  extract_lets -merge -underBinder +onlyGivenNames x0
  clear_value x0
  show Touches _ _ _
  refine State.imageWrite_touches (by decide) ?_ (fun z1 hz1 => ?_)
  · exact (Touches.rfl' _ s)
  · refine Touches.ite ?_ ?_
    · exact Touches.chain (State.imageEnd_touches ..) (by decide) hz1
    · exact Touches.chain (State.imageMeta_touches ..) (by decide) hz1

theorem execImageCmdUnknown_touches (p0 : Path) (p1 : Fin 16) (s : State) :
    OutTouches [.regs, .cnt, .armed, .pow, .boot, .led, .hif, .yok, .out] s (execImageCmdUnknown p0 p1 s) := by
  unfold execImageCmdUnknown
  refine OutTouches.ite ?_ ?_
  · show Touches _ _ _
    refine State.hostWrite_touches (by decide) ?_ (fun z0 hz0 => ?_)
    · exact (Touches.rfl' _ s)
    · exact hz0
  · refine OutTouches.ite ?_ ?_
    · show Touches _ _ _
      exact (Touches.rfl' _ s)
    · show Touches _ _ _
      refine State.imageWrite_touches (by decide) ?_ (fun z1 hz1 => ?_)
      · exact (Touches.rfl' _ s)
      · exact hz1

theorem State.putRecord_touches (s : State) (p1 : ℕ) (p2 : ℕ) (p3 : ℕ) (p4 : List Byte) :
    Touches [.boot] s (State.putRecord s p1 p2 p3 p4) := by
  unfold State.putRecord
  refine Touches.set_boot (x := s) ?_ (by decide) id (SMap.wf_set _ _ _ _)
  exact (Touches.rfl' _ s)

theorem State.norDurable_touches (s : State) (p1 : Payload) :
    Touches [.boot] s (State.norDurable s p1) := by
  unfold State.norDurable
  extract_lets -merge -underBinder +onlyGivenNames x0
  split
  · refine Touches.ite ?_ ?_
    · refine Touches.set_boot (x := s) ?_ (by decide) (SMap.wf_dropRange _ _ _ _) id
      exact (Touches.rfl' _ s)
    · extract_lets -merge -underBinder +onlyGivenNames x1
      clear_value x1
      refine Touches.set_boot (x := s) ?_ (by decide) id (SMap.wf_dropRange _ _ _ _)
      exact (Touches.rfl' _ s)
  · refine Touches.set_boot (x := s) ?_ (by decide) (fun h => by generalize List.range 1024 = l; exact foldl_set_wf _ _ _ _ _ h) id
    exact (Touches.rfl' _ s)
  · refine Touches.chain (State.putRecord_touches ..) (by decide) ?_
    refine Touches.set_boot (x := s) ?_ (by decide) id id
    exact (Touches.rfl' _ s)
  · exact Touches.chain (State.putRecord_touches ..) (by decide) (Touches.rfl' _ s)
  · exact (Touches.rfl' _ s)

theorem State.replace_touches (s : State) (p1 : StoreReq) :
    Touches [.boot] s (State.replace s p1).1 := by
  unfold State.replace
  split
  · exact Touches.chain (State.placeRecord_touches ..) (by decide) (Touches.rfl' _ s)
  · exact Touches.chain (State.placeRecord_touches ..) (by decide) (Touches.rfl' _ s)
  · refine Touches.mk1 ?_
    exact (Touches.rfl' _ s)

theorem State.replaceAll_touches (s : State) (p1 : List StoreReq) :
    Touches [.boot] s (State.replaceAll s p1).1 := by
  unfold State.replaceAll
  split
  · refine Touches.mk1 ?_
    exact (Touches.rfl' _ s)
  · split
    rename_i v0 v1 v2 e3
    have hv1 : Touches [.boot] s v1 := by
      refine Touches.ofFst e3 ?_
      exact Touches.chain (State.replace_touches ..) (by decide) (Touches.rfl' _ s)
    split
    rename_i v4 v5 v6 e7
    have hv5 : Touches [.boot] s v5 := by
      refine Touches.ofFst e7 ?_
      refine Touches.chain (State.replaceAll_touches ..) (by decide) ?_
      exact hv1
    exact hv5

theorem State.norFault_touches (s : State) (p1 : StoreReq) :
    Touches Part.main s (State.norFault s p1) := by
  unfold State.norFault
  split
  extract_lets -merge -underBinder +onlyGivenNames x0
  extract_lets -merge -underBinder +onlyGivenNames x1
  have hx1 : Touches Part.main s x1 := by
    unfold x1
    refine Touches.set_boot (x := s) ?_ (by decide) id id
    exact (Touches.rfl' _ s)
  clear_value x1
  extract_lets -merge -underBinder +onlyGivenNames x2 x3 x4 x5
  clear_value x2 x3 x4 x5
  extract_lets -merge -underBinder +onlyGivenNames x6
  have hx6 : Touches Part.main s x6 := by
    unfold x6
    refine Touches.set_st (x := x1) ?_ (by decide)
    exact hx1
  clear_value x6
  split
  rename_i v7 v8 v9 e10
  have hv8 : Touches Part.main s v8 := by
    refine Touches.ofFst e10 ?_
    exact Touches.chain (State.replaceAll_touches ..) (by decide) hx6
  split
  rename_i v11 v12 v13 e14
  have hv12 : Touches Part.main s v12 := by
    refine Touches.ofFst e14 ?_
    refine Touches.ite1 ?_ ?_
    · exact Touches.chain (State.requestAll_touches ..) (by decide) hx6
    · exact Touches.chain (State.requestAll_touches ..) (by decide) hv8
  extract_lets -merge -underBinder +onlyGivenNames x15
  extract_lets -merge -underBinder +onlyGivenNames x16
  have hx16 : Touches Part.main s x16 := by
    unfold x16
    refine Touches.ite ?_ ?_
    · exact hv12
    · refine Touches.set_boot (x := v12) ?_ (by decide) id id
      exact hv12
  clear_value x16
  extract_lets -merge -underBinder +onlyGivenNames x17 x18
  clear_value x17 x18
  extract_lets -merge -underBinder +onlyGivenNames x19
  have hx19 : Touches Part.main s x19 := by
    unfold x19
    exact Touches.chain (State.storeRecord_touches ..) (by decide) hx16
  clear_value x19
  extract_lets -merge -underBinder +onlyGivenNames x20
  have hx20 : Touches Part.main s x20 := by
    unfold x20
    exact Touches.chain (State.note_touches ..) (by decide) hx19
  clear_value x20
  refine Touches.ite ?_ ?_
  · exact Touches.chain (State.imageEnd_touches ..) (by decide) hx20
  · exact hx20

end Sys2Proof.Machine
end

