-- ==== Sys2Proof/Laws/TouchFabric.lean ====
section
/-! SUPPORT. What each operation of Machine/Fabric.lean may touch. -/

namespace Sys2Proof.Machine

open Sys2Proof

theorem State.setCrossing_touches (s : State) (p1 : ℕ) (p2 : ℕ) (p3 : Crossing) :
    Touches [.fab] s (State.setCrossing s p1 p2 p3) := by
  unfold State.setCrossing
  refine Touches.set_fab (x := s) ?_ (by decide)
  exact (Touches.rfl' _ s)

theorem State.offerOn_touches (s : State) (p1 : ℕ) (p2 : ℕ) (p3 : ℕ) (p4 : Bool) (p5 : Bool) :
    Touches [.fab] s (State.offerOn s p1 p2 p3 p4 p5) := by
  unfold State.offerOn
  refine Touches.ite ?_ ?_
  · exact (Touches.rfl' _ s)
  · extract_lets -merge -underBinder +onlyGivenNames x0
    clear_value x0
    extract_lets -merge -underBinder +onlyGivenNames x1 x2
    clear_value x1 x2
    refine Touches.ite ?_ ?_
    · exact (Touches.rfl' _ s)
    · extract_lets -merge -underBinder +onlyGivenNames x3
      clear_value x3
      exact Touches.chain (State.setCrossing_touches ..) (by decide) (Touches.rfl' _ s)

theorem execCrossingOffer_touches (p0 : Fin 21) (p1 : Fin 21) (p2 : ℕ) (p3 : Bool) (s : State) :
    OutTouches [.fab] s (execCrossingOffer p0 p1 p2 p3 s) := by
  unfold execCrossingOffer
  show Touches _ _ _
  exact Touches.chain (State.offerOn_touches ..) (by decide) (Touches.rfl' _ s)

theorem execIdleProbe_touches (p0 : Fin 21) (p1 : Fin 21) (p2 : Bool) (s : State) :
    OutTouches [.fab] s (execIdleProbe p0 p1 p2 s) := by
  unfold execIdleProbe
  show Touches _ _ _
  exact Touches.chain (State.offerOn_touches ..) (by decide) (Touches.rfl' _ s)

theorem execCrossTimeout_touches (p0 : Fin 21) (p1 : Fin 21) (s : State) :
    OutTouches Part.main s (execCrossTimeout p0 p1 s) := by
  unfold execCrossTimeout
  extract_lets -merge -underBinder +onlyGivenNames x0
  clear_value x0
  refine OutTouches.ite ?_ ?_
  · show Touches _ _ _
    exact (Touches.rfl' _ s)
  · extract_lets -merge -underBinder +onlyGivenNames x1
    have hx1 : Touches Part.main s x1 := by
      unfold x1
      exact Touches.chain (State.setCrossing_touches ..) (by decide) (Touches.rfl' _ s)
    clear_value x1
    extract_lets -merge -underBinder +onlyGivenNames x2
    have hx2 : Touches Part.main s x2 := by
      unfold x2
      refine Touches.ite ?_ ?_
      · exact hx1
      · exact Touches.chain (State.emit_touches ..) (by decide) hx1
    clear_value x2
    extract_lets -merge -underBinder +onlyGivenNames x3
    clear_value x3
    extract_lets -merge -underBinder +onlyGivenNames x4
    have hx4 : Touches Part.main s x4 := by
      unfold x4
      refine Touches.set_fab (x := x2) ?_ (by decide)
      exact hx2
    clear_value x4
    extract_lets -merge -underBinder +onlyGivenNames x5
    have hx5 : Touches Part.main s x5 := by
      unfold x5
      exact Touches.chain (State.setFlg_touches ..) (by decide) hx4
    clear_value x5
    extract_lets -merge -underBinder +onlyGivenNames x6
    have hx6 : Touches Part.main s x6 := by
      unfold x6
      exact Touches.chain (State.wr_touches ..) (by decide) hx5
    clear_value x6
    extract_lets -merge -underBinder +onlyGivenNames x7
    clear_value x7
    show Touches _ _ _
    refine Touches.chain (State.recheck_touches ..) (by decide) ?_
    exact Touches.chain (State.raiseFull_touches ..) (by decide) hx6

theorem State.setIlink_touches (s : State) (p1 : ℕ) (p2 : ℕ) (p3 : ILink) :
    Touches [.fab] s (State.setIlink s p1 p2 p3) := by
  unfold State.setIlink
  refine Touches.set_fab (x := s) ?_ (by decide)
  exact (Touches.rfl' _ s)

theorem execCellReceive_touches (p0 : Fin 21) (p1 : Fin 21) (p2 : Fin 256) (p3 : Fin 256) (p4 : Bool) (p5 : List Byte) (p6 : Bool) (s : State) :
    OutTouches [.fab, .out] s (execCellReceive p0 p1 p2 p3 p4 p5 p6 s) := by
  unfold execCellReceive
  extract_lets -merge -underBinder +onlyGivenNames x0
  clear_value x0
  refine OutTouches.ite ?_ ?_
  · show Touches _ _ _
    refine Touches.set_fab (x := s) ?_ (by decide)
    exact (Touches.rfl' _ s)
  · refine OutTouches.ite ?_ ?_
    · refine OutTouches.ite ?_ ?_
      · show Touches _ _ _
        exact Touches.chain (State.setIlink_touches ..) (by decide) (Touches.rfl' _ s)
      · show Touches _ _ _
        refine Touches.chain (State.emit_touches ..) (by decide) ?_
        exact Touches.chain (State.setIlink_touches ..) (by decide) (Touches.rfl' _ s)
    · refine OutTouches.ite ?_ ?_
      · extract_lets -merge -underBinder +onlyGivenNames x1
        clear_value x1
        extract_lets -merge -underBinder +onlyGivenNames x2
        clear_value x2
        show Touches _ _ _
        refine Touches.chain (State.emit_touches ..) (by decide) ?_
        exact Touches.chain (State.setIlink_touches ..) (by decide) (Touches.rfl' _ s)
      · show Touches _ _ _
        exact Touches.chain (State.setIlink_touches ..) (by decide) (Touches.rfl' _ s)

theorem execCellNakReceived_touches (p0 : Fin 21) (p1 : Fin 21) (p2 : Fin 256) (s : State) :
    OutTouches Part.main s (execCellNakReceived p0 p1 p2 s) := by
  unfold execCellNakReceived
  extract_lets -merge -underBinder +onlyGivenNames x0
  clear_value x0
  refine OutTouches.ite ?_ ?_
  · show Touches _ _ _
    exact (Touches.rfl' _ s)
  · extract_lets -merge -underBinder +onlyGivenNames x1
    clear_value x1
    extract_lets -merge -underBinder +onlyGivenNames x2
    clear_value x2
    extract_lets -merge -underBinder +onlyGivenNames x3
    have hx3 : Touches Part.main s x3 := by
      unfold x3
      exact Touches.chain (State.setIlink_touches ..) (by decide) (Touches.rfl' _ s)
    clear_value x3
    refine OutTouches.ite ?_ ?_
    · show Touches _ _ _
      exact Touches.chain (State.raiseFull_touches ..) (by decide) hx3
    · extract_lets -merge -underBinder +onlyGivenNames x4
      have hx4 : Touches Part.main s x4 := by
        unfold x4
        refine Touches.foldl _ _ ?_ (fun y5 a5 hy5 => ?_)
        · exact hx3
        · exact Touches.chain (State.emit_touches ..) (by decide) hy5
      clear_value x4
      show Touches _ _ _
      exact Touches.chain (State.wr_touches ..) (by decide) hx4

theorem execBusTransaction_touches (p0 : Fin 21) (p1 : Fin 16) (p2 : Fin 64) (p3 : Fin 3) (p4 : List Byte) (p5 : List Byte) (p6 : List Byte) (p7 : BitVec 16) (p8 : Bool) (s : State) :
    OutTouches Part.main s (execBusTransaction p0 p1 p2 p3 p4 p5 p6 p7 p8 s) := by
  unfold execBusTransaction
  refine OutTouches.ite ?_ ?_
  · extract_lets -merge -underBinder +onlyGivenNames x0
    clear_value x0
    show Touches _ _ _
    exact Touches.chain (State.observeBus_touches ..) (by decide) (Touches.rfl' _ s)
  · extract_lets -merge -underBinder +onlyGivenNames x1
    have hx1 : Touches Part.main s x1 := by
      unfold x1
      exact Touches.chain (State.wr_touches ..) (by decide) (Touches.rfl' _ s)
    clear_value x1
    extract_lets -merge -underBinder +onlyGivenNames x2
    have hx2 : Touches Part.main s x2 := by
      unfold x2
      refine Touches.ite ?_ ?_
      · exact Touches.chain (State.emit_touches ..) (by decide) hx1
      · exact hx1
    clear_value x2
    show Touches _ _ _
    exact Touches.chain (State.busFailure_touches ..) (by decide) hx2

end Sys2Proof.Machine
end

