-- ==== Sys2Proof/Laws/TouchYokeOps.lean ====
section
/-! SUPPORT. What each operation of Machine/YokeOps.lean may touch. -/

namespace Sys2Proof.Machine

open Sys2Proof

set_option linter.unusedTactic false
set_option linter.unreachableTactic false

theorem State.storeStale_touches (s : State) (p1 : Bool) :
    Touches Part.main s (State.storeStale s p1) := by
  unfold State.storeStale
  refine Touches.ite ?_ ?_
  · exact (Touches.rfl' _ s)
  · exact Touches.chain (State.requestStore_touches ..) (by decide) (Touches.rfl' _ s)

theorem State.reportState_touches (s : State) :
    Touches [.yok, .out] s (State.reportState s) := by
  unfold State.reportState
  exact Touches.chain (State.reportMode_touches ..) (by decide) (Touches.rfl' _ s)

theorem State.startStream_touches (s : State) :
    Touches [.yok] s (State.startStream s) := by
  unfold State.startStream
  refine Touches.set_yok (x := s) ?_ (by decide)
  exact (Touches.rfl' _ s)

theorem State.becomeLead_touches (s : State) :
    Touches Part.main s (State.becomeLead s) := by
  unfold State.becomeLead
  extract_lets -merge -underBinder +onlyGivenNames x0
  have hx0 : Touches Part.main s x0 := by
    unfold x0
    exact Touches.chain (State.setMode_touches ..) (by decide) (Touches.rfl' _ s)
  clear_value x0
  extract_lets -merge -underBinder +onlyGivenNames x1 x2
  clear_value x1 x2
  extract_lets -merge -underBinder +onlyGivenNames x3
  have hx3 : Touches Part.main s x3 := by
    unfold x3
    apply Touches.put (x := x0)
    · and_intros <;> first | exact .inr (by decide) | exact .inl rfl | exact SMap.wf_set _ _ _ _ | exact SMap.wf_dropRange _ _ _ _ | exact SMap.wf_filter _ _ _ | exact fun h => by rw [Ledger.reset_log]; exact h | exact id | exact fun _ => rfl
    · exact hx0
  clear_value x3
  refine Touches.chain (State.holdYoke_touches ..) (by decide) ?_
  exact Touches.chain (State.storeStale_touches ..) (by decide) hx3

theorem State.beginResync_touches (s : State) :
    Touches Part.main s (State.beginResync s) := by
  unfold State.beginResync
  extract_lets -merge -underBinder +onlyGivenNames x0
  have hx0 : Touches Part.main s x0 := by
    unfold x0
    refine Touches.chain (State.startStream_touches ..) (by decide) ?_
    exact Touches.chain (State.discardFrames_touches ..) (by decide) (Touches.rfl' _ s)
  clear_value x0
  extract_lets -merge -underBinder +onlyGivenNames x1
  clear_value x1
  extract_lets -merge -underBinder +onlyGivenNames x2
  have hx2 : Touches Part.main s x2 := by
    unfold x2
    refine Touches.set_yok (x := x0) ?_ (by decide)
    exact hx0
  clear_value x2
  extract_lets -merge -underBinder +onlyGivenNames x3
  have hx3 : Touches Part.main s x3 := by
    unfold x3
    refine Touches.chain (State.inc_touches ..) (by decide) ?_
    refine Touches.chain (State.holdYoke_touches ..) (by decide) ?_
    exact Touches.chain (State.storeStale_touches ..) (by decide) hx2
  clear_value x3
  refine Touches.chain (State.reportState_touches ..) (by decide) ?_
  exact Touches.chain (State.note_touches ..) (by decide) hx3

theorem State.enterResync_touches (s : State) :
    Touches Part.main s (State.enterResync s) := by
  unfold State.enterResync
  extract_lets -merge -underBinder +onlyGivenNames x0
  have hx0 : Touches Part.main s x0 := by
    unfold x0
    exact Touches.chain (State.setMode_touches ..) (by decide) (Touches.rfl' _ s)
  clear_value x0
  refine Touches.chain (State.beginResync_touches ..) (by decide) ?_
  refine Touches.set_ctl (x := x0) ?_ (by decide)
  exact hx0

theorem State.divertResync_touches (s : State) :
    Touches Part.main s (State.divertResync s) := by
  unfold State.divertResync
  refine Touches.ite ?_ ?_
  · exact Touches.chain (State.enterResync_touches ..) (by decide) (Touches.rfl' _ s)
  · extract_lets -merge -underBinder +onlyGivenNames x0
    have hx0 : Touches Part.main s x0 := by
      unfold x0
      refine Touches.chain (State.startStream_touches ..) (by decide) ?_
      refine Touches.chain (State.discardFrames_touches ..) (by decide) ?_
      exact Touches.chain (State.setMode_touches ..) (by decide) (Touches.rfl' _ s)
    clear_value x0
    extract_lets -merge -underBinder +onlyGivenNames x1 x2
    clear_value x1 x2
    extract_lets -merge -underBinder +onlyGivenNames x3
    have hx3 : Touches Part.main s x3 := by
      unfold x3
      apply Touches.put (x := x0)
      · and_intros <;> first | exact .inr (by decide) | exact .inl rfl | exact SMap.wf_set _ _ _ _ | exact SMap.wf_dropRange _ _ _ _ | exact SMap.wf_filter _ _ _ | exact fun h => by rw [Ledger.reset_log]; exact h | exact id | exact fun _ => rfl
      · exact hx0
    clear_value x3
    refine Touches.chain (State.reportState_touches ..) (by decide) ?_
    refine Touches.chain (State.holdYoke_touches ..) (by decide) ?_
    exact Touches.chain (State.storeStale_touches ..) (by decide) hx3

theorem State.startPairing_touches (s : State) :
    Touches [.kvt, .yok, .out, .free] s (State.startPairing s) := by
  unfold State.startPairing
  split
  rename_i v0 v1 v2 e3
  have hv2 : Touches [.kvt, .yok, .out, .free] s v2 := by
    refine Touches.ofSnd e3 ?_
    exact Touches.chain (State.rbgTake_touches ..) (by decide) (Touches.rfl' _ s)
  extract_lets -merge -underBinder +onlyGivenNames x4 x5
  clear_value x4 x5
  refine Touches.ite ?_ ?_
  · refine Touches.set_yok (x := v2) ?_ (by decide)
    exact hv2
  · extract_lets -merge -underBinder +onlyGivenNames x6
    clear_value x6
    extract_lets -merge -underBinder +onlyGivenNames x7
    clear_value x7
    refine Touches.chain (State.sendDithal_touches ..) (by decide) ?_
    refine Touches.set_yok (x := v2) ?_ (by decide)
    exact hv2

theorem State.pairFail_touches (s : State) (p1 : ℕ) :
    Touches [.regs, .cnt, .ctl, .pow, .led, .hif, .yok, .out] s (State.pairFail s p1) := by
  unfold State.pairFail
  extract_lets -merge -underBinder +onlyGivenNames x0
  extract_lets -merge -underBinder +onlyGivenNames x1
  have hx1 : Touches [.regs, .cnt, .ctl, .pow, .led, .hif, .yok, .out] s x1 := by
    unfold x1
    refine Touches.set_yok (x := s) ?_ (by decide)
    exact (Touches.rfl' _ s)
  extract_lets -merge -underBinder +onlyGivenNames x2
  have hx2 : Touches [.regs, .cnt, .ctl, .pow, .led, .hif, .yok, .out] s x2 := by
    unfold x2
    exact Touches.chain (State.note_touches ..) (by decide) hx1
  refine Touches.ite ?_ ?_
  · exact Touches.chain (State.endModeCmd_touches ..) (by decide) hx2
  · exact hx2

theorem State.pairKeyed_touches (s : State) (p1 : Pairing) (p2 : List Byte) :
    Touches [.asc, .cph, .kvt, .yok, .out] s (State.pairKeyed s p1 p2) := by
  unfold State.pairKeyed
  extract_lets -merge -underBinder +onlyGivenNames x0
  clear_value x0
  extract_lets -merge -underBinder +onlyGivenNames x1
  have hx1 : Touches [.asc, .cph, .kvt, .yok, .out] s x1 := by
    unfold x1
    refine Touches.set_yok (x := s) ?_ (by decide)
    exact (Touches.rfl' _ s)
  clear_value x1
  refine Touches.chain (State.sendDithal_touches ..) (by decide) ?_
  exact Touches.chain (State.installKey_touches ..) (by decide) hx1

theorem State.pairAccept_touches (s : State) (p1 : Pairing) (p2 : List Byte) :
    Touches [.regs, .cnt, .ctl, .pow, .led, .hif, .asc, .cph, .kvt, .yok, .out, .free] s (State.pairAccept s p1 p2) := by
  unfold State.pairAccept
  split
  · exact Touches.chain (State.pairFail_touches ..) (by decide) (Touches.rfl' _ s)
  · refine Touches.ite ?_ ?_
    · extract_lets -merge -underBinder +onlyGivenNames x0
      clear_value x0
      extract_lets -merge -underBinder +onlyGivenNames x1
      clear_value x1
      exact Touches.chain (State.pairKeyed_touches ..) (by decide) (Touches.rfl' _ s)
    · split
      split
      rename_i v2 v3 v4 e5
      have hv4 : Touches [.regs, .cnt, .ctl, .pow, .led, .hif, .asc, .cph, .kvt, .yok, .out, .free] s v4 := by
        refine Touches.ofSnd e5 ?_
        exact Touches.chain (State.rbgTake_touches ..) (by decide) (Touches.rfl' _ s)
      extract_lets -merge -underBinder +onlyGivenNames x6 x7 x8
      clear_value x6 x7 x8
      refine Touches.chain (State.pairKeyed_touches ..) (by decide) ?_
      exact Touches.chain (State.sendDithal_touches ..) (by decide) hv4

theorem State.takePairMessage_touches (s : State) (p1 : Pairing) (p2 : List Byte) :
    Touches [.regs, .cnt, .ctl, .pow, .led, .hif, .asc, .cph, .kvt, .yok, .out, .free] s (State.takePairMessage s p1 p2) := by
  unfold State.takePairMessage
  extract_lets -merge -underBinder +onlyGivenNames x0
  clear_value x0
  refine Touches.ite ?_ ?_
  · exact Touches.chain (State.pairAccept_touches ..) (by decide) (Touches.rfl' _ s)
  · exact Touches.chain (State.pairFail_touches ..) (by decide) (Touches.rfl' _ s)

theorem State.yokeJoined_touches (s : State) :
    Touches [.regs, .ctl, .yok] s (State.yokeJoined s) := by
  unfold State.yokeJoined
  extract_lets -merge -underBinder +onlyGivenNames x0
  extract_lets -merge -underBinder +onlyGivenNames x1
  have hx1 : Touches [.regs, .ctl, .yok] s x1 := by
    unfold x1
    refine Touches.set_ctl (x := s) ?_ (by decide)
    exact (Touches.rfl' _ s)
  refine Touches.ite ?_ ?_
  · exact Touches.chain (State.endModeCmd_touches ..) (by decide) hx1
  · exact hx1

theorem State.pairDone_touches (s : State) :
    Touches Part.main s (State.pairDone s) := by
  unfold State.pairDone
  split
  · exact Touches.chain (State.pairFail_touches ..) (by decide) (Touches.rfl' _ s)
  · extract_lets -merge -underBinder +onlyGivenNames x0
    clear_value x0
    extract_lets -merge -underBinder +onlyGivenNames x1
    have hx1 : Touches Part.main s x1 := by
      unfold x1
      refine Touches.set_yok (x := s) ?_ (by decide)
      exact (Touches.rfl' _ s)
    clear_value x1
    extract_lets -merge -underBinder +onlyGivenNames x2
    have hx2 : Touches Part.main s x2 := by
      unfold x2
      exact Touches.chain (State.note_touches ..) (by decide) hx1
    clear_value x2
    extract_lets -merge -underBinder +onlyGivenNames x3
    have hx3 : Touches Part.main s x3 := by
      unfold x3
      split
      · exact Touches.chain (State.enterResync_touches ..) (by decide) hx2
      · refine Touches.chain (State.startStream_touches ..) (by decide) ?_
        exact Touches.chain (State.becomeLead_touches ..) (by decide) hx2
      · refine Touches.chain (State.startStream_touches ..) (by decide) ?_
        refine Touches.set_yok (x := x2) ?_ (by decide)
        exact hx2
    clear_value x3
    exact Touches.chain (State.yokeJoined_touches ..) (by decide) hx3

theorem State.applyMark_touches (s : State) (p1 : MarkWait) :
    Touches [.regs, .cnt, .pow, .led, .hif, .line, .asc, .yok, .out] s (State.applyMark s p1) := by
  unfold State.applyMark
  refine Touches.ite ?_ ?_
  · exact Touches.chain (State.sheafMarkInForce_touches ..) (by decide) (Touches.rfl' _ s)
  · split
    · refine Touches.ite ?_ ?_
      · exact Touches.chain (State.txDurable_touches ..) (by decide) (Touches.rfl' _ s)
      · exact Touches.chain (State.rxDurable_touches ..) (by decide) (Touches.rfl' _ s)
    · exact (Touches.rfl' _ s)

theorem State.settleMarks_touches (s : State) :
    Touches [.regs, .cnt, .pow, .led, .hif, .line, .asc, .yok, .out] s (State.settleMarks s) := by
  unfold State.settleMarks
  extract_lets -merge -underBinder +onlyGivenNames x0
  clear_value x0
  refine Touches.foldl _ _ ?_ (fun y1 a1 hy1 => ?_)
  · refine Touches.set_yok (x := s) ?_ (by decide)
    exact (Touches.rfl' _ s)
  · exact Touches.chain (State.applyMark_touches ..) (by decide) hy1

theorem State.twinGone_touches (s : State) :
    Touches [.regs, .cnt, .pow, .led, .hif, .line, .asc, .yok, .out] s (State.twinGone s) := by
  unfold State.twinGone
  refine Touches.ite ?_ ?_
  · exact (Touches.rfl' _ s)
  · refine Touches.chain (State.note_touches ..) (by decide) ?_
    refine Touches.chain (State.settleMarks_touches ..) (by decide) ?_
    refine Touches.set_yok (x := s) ?_ (by decide)
    exact (Touches.rfl' _ s)

theorem State.leaveYoke_touches (s : State) (p1 : Mode) :
    Touches [.regs, .cnt, .ctl, .pow, .led, .hif, .line, .asc, .yok, .out] s (State.leaveYoke s p1) := by
  unfold State.leaveYoke
  refine Touches.ite ?_ ?_
  · exact Touches.chain (State.setMode_touches ..) (by decide) (Touches.rfl' _ s)
  · extract_lets -merge -underBinder +onlyGivenNames x0
    have hx0 : Touches [.regs, .cnt, .ctl, .pow, .led, .hif, .line, .asc, .yok, .out] s x0 := by
      unfold x0
      refine Touches.chain (State.setMode_touches ..) (by decide) ?_
      refine Touches.chain (State.startStream_touches ..) (by decide) ?_
      exact Touches.chain (State.settleMarks_touches ..) (by decide) (Touches.rfl' _ s)
    clear_value x0
    refine Touches.set_yok (x := x0) ?_ (by decide)
    exact hx0

theorem State.promote_touches (s : State) :
    Touches Part.main s (State.promote s) := by
  unfold State.promote
  extract_lets -merge -underBinder +onlyGivenNames x0
  clear_value x0
  extract_lets -merge -underBinder +onlyGivenNames x1
  have hx1 : Touches Part.main s x1 := by
    unfold x1
    refine Touches.chain (State.inc_touches ..) (by decide) ?_
    refine Touches.chain (State.startStream_touches ..) (by decide) ?_
    exact Touches.chain (State.becomeLead_touches ..) (by decide) (Touches.rfl' _ s)
  clear_value x1
  refine Touches.chain (State.note_touches ..) (by decide) ?_
  refine Touches.set_sch (x := x1) ?_ (by decide)
  exact hx1

end Sys2Proof.Machine
end

