-- ==== Sys2Proof/Laws/TouchModes.lean ====
section
/-! SUPPORT. What each operation of Machine/Modes.lean may touch. -/

namespace Sys2Proof.Machine

open Sys2Proof

set_option linter.unusedTactic false
set_option linter.unreachableTactic false

theorem State.modeRun_touches {m : List Part} {s : State} {x : State} {p1 : ℕ} {p2 : State → State} (hm : [.regs, .cnt, .ctl, .pow, .led, .hif, .yok, .out] ⊆ m) (hx : Touches m s x) (k2 : ∀ z0, Touches m s z0 → Touches m s (p2 z0)) :
    Touches m s (State.modeRun x p1 p2) := by
  unfold State.modeRun
  extract_lets -merge -underBinder +onlyGivenNames x0
  have hx0 : Touches m s x0 := by
    unfold x0
    exact Touches.chain (State.endAuto_touches ..) (List.Subset.trans (by decide) hm) hx
  clear_value x0
  refine Touches.ite ?_ ?_
  · exact Touches.chain (State.note_touches ..) (List.Subset.trans (by decide) hm) hx0
  · refine Touches.ite ?_ ?_
    · refine k2 _ ?_
      exact hx0
    · refine Touches.chain (State.note_touches ..) (List.Subset.trans (by decide) hm) ?_
      exact Touches.chain (State.result_touches ..) (List.Subset.trans (by decide) hm) hx0

theorem State.modeWrite_touches {m : List Part} {s : State} {x : State} {p1 : Path} {p2 : ℕ} {p3 : ℕ} {p4 : State → State} (hm : [.regs, .cnt, .armed, .ctl, .pow, .led, .hif, .yok, .out] ⊆ m) (hx : Touches m s x) (k4 : ∀ z0, Touches m s z0 → Touches m s (p4 z0)) :
    Touches m s (State.modeWrite x p1 p2 p3 p4) := by
  unfold State.modeWrite
  refine State.hostWrite_touches (List.Subset.trans (by decide) hm) ?_ (fun z0 hz0 => ?_)
  · exact hx
  · refine State.modeRun_touches (List.Subset.trans (by decide) hm) ?_ (fun z1 hz1 => ?_)
    · exact hz0
    · refine k4 _ ?_
      exact hz1

theorem State.startMode_touches (s : State) (p1 : ModeCmd) :
    Touches [.ctl] s (State.startMode s p1) := by
  unfold State.startMode
  refine Touches.set_ctl (x := s) ?_ (by decide)
  exact (Touches.rfl' _ s)

theorem State.goService_touches (s : State) :
    Touches Part.main s (State.goService s) := by
  unfold State.goService
  extract_lets -merge -underBinder +onlyGivenNames x0
  have hx0 : Touches Part.main s x0 := by
    unfold x0
    exact Touches.chain (State.recheck_touches ..) (by decide) (Touches.rfl' _ s)
  clear_value x0
  refine Touches.chain (State.setMode_touches ..) (by decide) ?_
  refine Touches.set_ctl (x := x0) ?_ (by decide)
  exact hx0

theorem State.autoAttempt_touches (s : State) :
    Touches Part.main s (State.autoAttempt s) := by
  unfold State.autoAttempt
  extract_lets -merge -underBinder +onlyGivenNames x0
  clear_value x0
  refine Touches.ite ?_ ?_
  · refine Touches.chain (State.goService_touches ..) (by decide) ?_
    refine Touches.set_ctl (x := s) ?_ (by decide)
    exact (Touches.rfl' _ s)
  · refine Touches.ite ?_ ?_
    · exact Touches.chain (State.startPairing_touches ..) (by decide) (Touches.rfl' _ s)
    · exact (Touches.rfl' _ s)

theorem execCalibrateEnd_touches (s : State) :
    OutTouches Part.main s (execCalibrateEnd s) := by
  unfold execCalibrateEnd
  refine OutTouches.ite ?_ ?_
  · show Touches _ _ _
    exact (Touches.rfl' _ s)
  · extract_lets -merge -underBinder +onlyGivenNames x0
    have hx0 : Touches Part.main s x0 := by
      unfold x0
      exact Touches.chain (State.setMode_touches ..) (by decide) (Touches.rfl' _ s)
    clear_value x0
    extract_lets -merge -underBinder +onlyGivenNames x1
    clear_value x1
    show Touches _ _ _
    refine Touches.ite ?_ ?_
    · refine Touches.chain (State.autoAttempt_touches ..) (by decide) ?_
      refine Touches.set_ctl (x := x0) ?_ (by decide)
      exact hx0
    · exact hx0

theorem execAutoServiceAttempt_touches (s : State) :
    OutTouches Part.main s (execAutoServiceAttempt s) := by
  unfold execAutoServiceAttempt
  show Touches _ _ _
  refine Touches.ite ?_ ?_
  · exact Touches.chain (State.autoAttempt_touches ..) (by decide) (Touches.rfl' _ s)
  · exact (Touches.rfl' _ s)

theorem execGoService_touches (p0 : Path) (s : State) :
    OutTouches Part.main s (execGoService p0 s) := by
  unfold execGoService
  show Touches _ _ _
  refine State.modeWrite_touches (by decide) ?_ (fun z0 hz0 => ?_)
  · exact (Touches.rfl' _ s)
  · refine Touches.chain (State.result_touches ..) (by decide) ?_
    exact Touches.chain (State.goService_touches ..) (by decide) hz0

theorem execGoYoke_touches (p0 : Path) (s : State) :
    OutTouches [.regs, .cnt, .armed, .ctl, .pow, .led, .hif, .kvt, .yok, .out, .free] s (execGoYoke p0 s) := by
  unfold execGoYoke
  show Touches _ _ _
  refine State.modeWrite_touches (by decide) ?_ (fun z0 hz0 => ?_)
  · exact (Touches.rfl' _ s)
  · refine Touches.chain (State.startPairing_touches ..) (by decide) ?_
    exact Touches.chain (State.startMode_touches ..) (by decide) hz0

theorem execGoYokeTimeout_touches (s : State) :
    OutTouches [.regs, .ctl, .yok] s (execGoYokeTimeout s) := by
  unfold execGoYokeTimeout
  show Touches _ _ _
  refine Touches.ite ?_ ?_
  · exact Touches.chain (State.endModeCmd_touches ..) (by decide) (Touches.rfl' _ s)
  · exact (Touches.rfl' _ s)

theorem execModeStop_touches (p0 : Path) (s : State) :
    OutTouches Part.main s (execModeStop p0 s) := by
  unfold execModeStop
  show Touches _ _ _
  refine State.modeWrite_touches (by decide) ?_ (fun z0 hz0 => ?_)
  · exact (Touches.rfl' _ s)
  · extract_lets -merge -underBinder +onlyGivenNames x1
    have hx1 : Touches Part.main s x1 := by
      unfold x1
      refine Touches.chain (State.startMode_touches ..) (by decide) ?_
      exact Touches.chain (State.yield_touches ..) (by decide) hz0
    clear_value x1
    refine Touches.set_ctl (x := x1) ?_ (by decide)
    exact hx1

theorem execStopDrainEnd_touches (s : State) :
    OutTouches [.regs, .cnt, .ctl, .pow, .led, .hif, .line, .sch, .asc, .cph, .kvt, .yok, .out] s (execStopDrainEnd s) := by
  unfold execStopDrainEnd
  show Touches _ _ _
  refine Touches.ite ?_ ?_
  · refine Touches.chain (State.endModeCmd_touches ..) (by decide) ?_
    refine Touches.chain (State.leaveYoke_touches ..) (by decide) ?_
    exact Touches.chain (State.discardFrames_touches ..) (by decide) (Touches.rfl' _ s)
  · exact (Touches.rfl' _ s)

theorem execUnyoke_touches (p0 : Path) (s : State) :
    OutTouches Part.main s (execUnyoke p0 s) := by
  unfold execUnyoke
  show Touches _ _ _
  refine State.modeWrite_touches (by decide) ?_ (fun z0 hz0 => ?_)
  · exact (Touches.rfl' _ s)
  · refine Touches.chain (State.result_touches ..) (by decide) ?_
    refine Touches.chain (State.leaveYoke_touches ..) (by decide) ?_
    exact Touches.chain (State.yield_touches ..) (by decide) hz0

theorem execSelfTest_touches (p0 : Path) (p1 : BitVec 8) (s : State) :
    OutTouches [.regs, .cnt, .armed, .ctl, .pow, .led, .hif, .yok, .out] s (execSelfTest p0 p1 s) := by
  unfold execSelfTest
  show Touches _ _ _
  refine State.modeWrite_touches (by decide) ?_ (fun z0 hz0 => ?_)
  · exact (Touches.rfl' _ s)
  · extract_lets -merge -underBinder +onlyGivenNames x1
    clear_value x1
    extract_lets -merge -underBinder +onlyGivenNames x2
    have hx2 : Touches [.regs, .cnt, .armed, .ctl, .pow, .led, .hif, .yok, .out] s x2 := by
      unfold x2
      refine Touches.set_ctl (x := z0) ?_ (by decide)
      exact hz0
    clear_value x2
    refine Touches.chain (State.result_touches ..) (by decide) ?_
    refine Touches.chain (State.setMode_touches ..) (by decide) ?_
    exact Touches.chain (State.setFld_touches ..) (by decide) hx2

theorem execSelfTestEnd_touches (p0 : BitVec 6) (s : State) :
    OutTouches Part.main s (execSelfTestEnd p0 s) := by
  unfold execSelfTestEnd
  refine OutTouches.ite ?_ ?_
  · show Touches _ _ _
    exact (Touches.rfl' _ s)
  · extract_lets -merge -underBinder +onlyGivenNames x0
    clear_value x0
    extract_lets -merge -underBinder +onlyGivenNames x1
    clear_value x1
    extract_lets -merge -underBinder +onlyGivenNames x2
    have hx2 : Touches Part.main s x2 := by
      unfold x2
      refine Touches.ite ?_ ?_
      · exact (Touches.rfl' _ s)
      · exact Touches.chain (State.raise_touches ..) (by decide) (Touches.rfl' _ s)
    clear_value x2
    show Touches _ _ _
    refine Touches.chain (State.setMode_touches ..) (by decide) ?_
    exact Touches.chain (State.wr_touches ..) (by decide) hx2

theorem execModuleReset_touches (p0 : Path) (s : State) :
    OutTouches [.regs, .shadow, .cnt, .armed, .now, .ctl, .pow, .boot, .led, .hdg, .hif, .tim, .fab, .line, .rows, .cls, .sch, .mgd, .asc, .cph, .kvt, .yok, .held, .out] s (execModuleReset p0 s) := by
  unfold execModuleReset
  show Touches _ _ _
  refine State.modeWrite_touches (by decide) ?_ (fun z0 hz0 => ?_)
  · exact (Touches.rfl' _ s)
  · exact Touches.chain (State.moduleReset_touches ..) (by decide) hz0

theorem execClearDegrade_touches (p0 : Path) (s : State) :
    OutTouches [.regs, .cnt, .armed, .ctl, .pow, .led, .hif, .yok, .out] s (execClearDegrade p0 s) := by
  unfold execClearDegrade
  show Touches _ _ _
  refine State.modeWrite_touches (by decide) ?_ (fun z0 hz0 => ?_)
  · exact (Touches.rfl' _ s)
  · refine Touches.chain (State.result_touches ..) (by decide) ?_
    refine Touches.set_ctl (x := z0) ?_ (by decide)
    exact hz0

theorem execModeCmdUnknown_touches (p0 : Path) (p1 : Fin 16) (s : State) :
    OutTouches [.regs, .cnt, .armed, .ctl, .pow, .led, .hif, .yok, .out] s (execModeCmdUnknown p0 p1 s) := by
  unfold execModeCmdUnknown
  refine OutTouches.ite ?_ ?_
  · show Touches _ _ _
    refine State.hostWrite_touches (by decide) ?_ (fun z0 hz0 => ?_)
    · exact (Touches.rfl' _ s)
    · refine Touches.ite ?_ ?_
      · exact Touches.chain (State.note_touches ..) (by decide) hz0
      · exact hz0
  · refine OutTouches.ite ?_ ?_
    · show Touches _ _ _
      exact (Touches.rfl' _ s)
    · show Touches _ _ _
      refine State.modeWrite_touches (by decide) ?_ (fun z1 hz1 => ?_)
      · exact (Touches.rfl' _ s)
      · exact hz1

theorem State.cutShort_touches (s : State) :
    Touches [.regs, .cnt, .pow, .led, .hif, .asc, .kvt, .yok, .out] s (State.cutShort s) := by
  unfold State.cutShort
  refine Touches.ite ?_ ?_
  · refine Touches.foldl _ _ ?_ (fun y0 a0 hy0 => ?_)
    · exact (Touches.rfl' _ s)
    · refine Touches.chain (State.ascEnd_touches ..) (by decide) ?_
      refine Touches.chain (State.endRun_touches ..) (by decide) ?_
      exact Touches.chain (State.modCtx_touches ..) (by decide) hy0
  · exact (Touches.rfl' _ s)

theorem State.resumeCtx_touches (s : State) (p1 : ℕ) :
    Touches Part.main s (State.resumeCtx s p1) := by
  unfold State.resumeCtx
  split
  · exact (Touches.rfl' _ s)
  · refine Touches.ite ?_ ?_
    · exact (Touches.rfl' _ s)
    · extract_lets -merge -underBinder +onlyGivenNames x0
      clear_value x0
      extract_lets -merge -underBinder +onlyGivenNames x1
      clear_value x1
      extract_lets -merge -underBinder +onlyGivenNames x2
      have hx2 : Touches Part.main s x2 := by
        unfold x2
        exact Touches.chain (State.setCtx_touches ..) (by decide) (Touches.rfl' _ s)
      clear_value x2
      refine Touches.chain (State.askRxMark_touches ..) (by decide) ?_
      exact Touches.chain (State.askMark_touches ..) (by decide) hx2

theorem State.resumeNumbers_touches (s : State) :
    Touches Part.main s (State.resumeNumbers s) := by
  unfold State.resumeNumbers
  extract_lets -merge -underBinder +onlyGivenNames x0
  have hx0 : Touches Part.main s x0 := by
    unfold x0
    refine Touches.foldl _ _ ?_ (fun y1 a1 hy1 => ?_)
    · exact (Touches.rfl' _ s)
    · exact Touches.chain (State.writeBack_touches ..) (by decide) hy1
  clear_value x0
  extract_lets -merge -underBinder +onlyGivenNames x2
  have hx2 : Touches Part.main s x2 := by
    unfold x2
    refine Touches.foldl _ _ ?_ (fun y3 a3 hy3 => ?_)
    · exact hx0
    · exact Touches.chain (State.resumeCtx_touches ..) (by decide) hy3
  clear_value x2
  refine Touches.chain (State.resumeSheaf_touches ..) (by decide) ?_
  refine Touches.set_asc (x := x2) ?_ (by decide)
  exact hx2

theorem State.releaseIslands_touches (s : State) :
    Touches [.regs, .cnt, .pow, .led, .hif, .fab, .cls, .sch, .asc, .kvt, .yok, .out] s (State.releaseIslands s) := by
  unfold State.releaseIslands
  extract_lets -merge -underBinder +onlyGivenNames x0 x1
  clear_value x0 x1
  extract_lets -merge -underBinder +onlyGivenNames x2
  have hx2 : Touches [.regs, .cnt, .pow, .led, .hif, .fab, .cls, .sch, .asc, .kvt, .yok, .out] s x2 := by
    unfold x2
    refine Touches.set_fab (x := s) ?_ (by decide)
    exact (Touches.rfl' _ s)
  clear_value x2
  extract_lets -merge -underBinder +onlyGivenNames x3
  have hx3 : Touches [.regs, .cnt, .pow, .led, .hif, .fab, .cls, .sch, .asc, .kvt, .yok, .out] s x3 := by
    unfold x3
    exact Touches.chain (State.wr_touches ..) (by decide) hx2
  clear_value x3
  extract_lets -merge -underBinder +onlyGivenNames x4
  have hx4 : Touches [.regs, .cnt, .pow, .led, .hif, .fab, .cls, .sch, .asc, .kvt, .yok, .out] s x4 := by
    unfold x4
    refine Touches.ite ?_ ?_
    · exact Touches.chain (State.clsScan_touches ..) (by decide) hx3
    · exact hx3
  clear_value x4
  exact Touches.chain (State.cutShort_touches ..) (by decide) hx4

theorem execRecoveryIslandsReleased_touches (p0 : Bool) (s : State) :
    OutTouches Part.main s (execRecoveryIslandsReleased p0 s) := by
  unfold execRecoveryIslandsReleased
  refine OutTouches.ite ?_ ?_
  · show Touches _ _ _
    exact (Touches.rfl' _ s)
  · refine OutTouches.ite ?_ ?_
    · show Touches _ _ _
      exact Touches.chain (State.escalate_touches ..) (by decide) (Touches.rfl' _ s)
    · extract_lets -merge -underBinder +onlyGivenNames x0
      have hx0 : Touches Part.main s x0 := by
        unfold x0
        refine Touches.chain (State.resumeNumbers_touches ..) (by decide) ?_
        exact Touches.chain (State.releaseIslands_touches ..) (by decide) (Touches.rfl' _ s)
      clear_value x0
      extract_lets -merge -underBinder +onlyGivenNames x1
      have hx1 : Touches Part.main s x1 := by
        unfold x1
        refine Touches.foldl _ _ ?_ (fun y2 a2 hy2 => ?_)
        · exact hx0
        · exact Touches.chain (State.refreshGroup_touches ..) (by decide) hy2
      clear_value x1
      show Touches _ _ _
      refine Touches.set_ctl (x := x1) ?_ (by decide)
      exact hx1

theorem State.resumeMode_touches (s : State) :
    Touches Part.main s (State.resumeMode s) := by
  unfold State.resumeMode
  split
  · refine Touches.chain (State.setMode_touches ..) (by decide) ?_
    refine Touches.set_ctl (x := s) ?_ (by decide)
    exact (Touches.rfl' _ s)
  · exact Touches.chain (State.divertResync_touches ..) (by decide) (Touches.rfl' _ s)
  · exact Touches.chain (State.divertResync_touches ..) (by decide) (Touches.rfl' _ s)
  · exact Touches.chain (State.divertResync_touches ..) (by decide) (Touches.rfl' _ s)
  · refine Touches.chain (State.beginCalibrate_touches ..) (by decide) ?_
    exact Touches.chain (State.setMode_touches ..) (by decide) (Touches.rfl' _ s)
  · refine Touches.chain (State.setMode_touches ..) (by decide) ?_
    exact Touches.chain (State.setFlg_touches ..) (by decide) (Touches.rfl' _ s)
  · exact Touches.chain (State.setMode_touches ..) (by decide) (Touches.rfl' _ s)

theorem execRecoveryCauseCleared_touches (s : State) :
    OutTouches Part.main s (execRecoveryCauseCleared s) := by
  unfold execRecoveryCauseCleared
  refine OutTouches.ite ?_ ?_
  · show Touches _ _ _
    exact (Touches.rfl' _ s)
  · refine OutTouches.ite ?_ ?_
    · show Touches _ _ _
      exact Touches.chain (State.escalate_touches ..) (by decide) (Touches.rfl' _ s)
    · extract_lets -merge -underBinder +onlyGivenNames x0
      clear_value x0
      extract_lets -merge -underBinder +onlyGivenNames x1
      have hx1 : Touches Part.main s x1 := by
        unfold x1
        refine Touches.set_ctl (x := s) ?_ (by decide)
        exact (Touches.rfl' _ s)
      clear_value x1
      show Touches _ _ _
      refine Touches.chain (State.note_touches ..) (by decide) ?_
      refine Touches.chain (State.resumeMode_touches ..) (by decide) ?_
      exact Touches.chain (State.restartAps_touches ..) (by decide) hx1

theorem execEscalationWindowExpiry_touches (s : State) :
    OutTouches [.ctl] s (execEscalationWindowExpiry s) := by
  unfold execEscalationWindowExpiry
  show Touches _ _ _
  refine Touches.set_ctl (x := s) ?_ (by decide)
  exact (Touches.rfl' _ s)

theorem execStewardWatchdog_touches (s : State) :
    OutTouches Part.main s (execStewardWatchdog s) := by
  unfold execStewardWatchdog
  refine OutTouches.ite ?_ ?_
  · show Touches _ _ _
    exact (Touches.rfl' _ s)
  · show Touches _ _ _
    refine Touches.chain (State.moduleReset_touches ..) (by decide) ?_
    exact Touches.chain (State.answer_touches ..) (by decide) (Touches.rfl' _ s)

theorem execStoreRequest_touches (p0 : Fin 8) (p1 : ℕ) (s : State) :
    OutTouches Part.main s (execStoreRequest p0 p1 s) := by
  unfold execStoreRequest
  show Touches _ _ _
  exact Touches.chain (State.requestStore_touches ..) (by decide) (Touches.rfl' _ s)

theorem execStoreRetryCheck_touches (s : State) :
    OutTouches [.regs, .cnt, .pow, .led, .hif, .st, .yok, .out] s (execStoreRetryCheck s) := by
  unfold execStoreRetryCheck
  show Touches _ _ _
  exact Touches.chain (State.startStores_touches ..) (by decide) (Touches.rfl' _ s)

theorem State.dropRecOf_touches (s : State) (p1 : ℕ) :
    Touches [.asc] s (State.dropRecOf s p1) := by
  unfold State.dropRecOf
  extract_lets -merge -underBinder +onlyGivenNames x0
  clear_value x0
  refine Touches.set_asc (x := s) ?_ (by decide)
  exact (Touches.rfl' _ s)

theorem State.storeDurable_touches (s : State) (p1 : Payload) :
    Touches [.regs, .cnt, .pow, .boot, .led, .hdg, .hif, .mram, .line, .asc, .yok, .out] s (State.storeDurable s p1) := by
  unfold State.storeDurable
  split
  · exact Touches.chain (State.pnDurable_touches ..) (by decide) (Touches.rfl' _ s)
  · exact Touches.chain (State.sheafMarkDurable_touches ..) (by decide) (Touches.rfl' _ s)
  · refine Touches.set_mram (x := s) ?_ (by decide)
    exact (Touches.rfl' _ s)
  · refine Touches.chain (State.note_touches ..) (by decide) ?_
    refine Touches.set_hdg (x := s) ?_ (by decide)
    exact (Touches.rfl' _ s)
  · refine Touches.set_mram (x := s) ?_ (by decide)
    exact (Touches.rfl' _ s)
  · extract_lets -merge -underBinder +onlyGivenNames x0
    clear_value x0
    extract_lets -merge -underBinder +onlyGivenNames x1
    have hx1 : Touches [.regs, .cnt, .pow, .boot, .led, .hdg, .hif, .mram, .line, .asc, .yok, .out] s x1 := by
      unfold x1
      refine Touches.set_mram (x := s) ?_ (by decide)
      exact (Touches.rfl' _ s)
    clear_value x1
    refine Touches.ite ?_ ?_
    · exact Touches.chain (State.dropRecOf_touches ..) (by decide) hx1
    · exact hx1
  · refine Touches.set_mram (x := s) ?_ (by decide)
    exact (Touches.rfl' _ s)
  · refine Touches.set_led (x := s) ?_ (by decide) id
    exact (Touches.rfl' _ s)
  · exact Touches.chain (State.appendBatch_touches ..) (by decide) (Touches.rfl' _ s)
  · refine Touches.set_led (x := s) ?_ (by decide) id
    exact (Touches.rfl' _ s)
  · exact Touches.chain (State.norDurable_touches ..) (by decide) (Touches.rfl' _ s)
  · exact Touches.chain (State.norDurable_touches ..) (by decide) (Touches.rfl' _ s)
  · exact Touches.chain (State.norDurable_touches ..) (by decide) (Touches.rfl' _ s)
  · exact Touches.chain (State.norDurable_touches ..) (by decide) (Touches.rfl' _ s)
  · exact (Touches.rfl' _ s)

theorem State.logServed_touches (s : State) :
    Touches Part.note s (State.logServed s) := by
  unfold State.logServed
  split
  · extract_lets -merge -underBinder +onlyGivenNames x0
    extract_lets -merge -underBinder +onlyGivenNames x1
    have hx1 : Touches Part.note s x1 := by
      unfold x1
      refine Touches.set_led (x := s) ?_ (by decide) id
      exact (Touches.rfl' _ s)
    clear_value x1
    extract_lets -merge -underBinder +onlyGivenNames x2
    have hx2 : Touches Part.note s x2 := by
      unfold x2
      exact Touches.chain (State.note_touches ..) (by decide) hx1
    clear_value x2
    exact Touches.chain (State.result_touches ..) (by decide) hx2
  · refine Touches.chain (State.result_touches ..) (by decide) ?_
    refine Touches.set_led (x := s) ?_ (by decide) id
    exact (Touches.rfl' _ s)
  · exact (Touches.rfl' _ s)

theorem State.finishRun_touches (s : State) (p1 : RunCmd) :
    Touches Part.main s (State.finishRun s p1) := by
  unfold State.finishRun
  extract_lets -merge -underBinder +onlyGivenNames x0
  have hx0 : Touches Part.main s x0 := by
    unfold x0
    exact Touches.chain (State.endRun_touches ..) (by decide) (Touches.rfl' _ s)
  clear_value x0
  refine Touches.ite ?_ ?_
  · exact Touches.chain (State.ascEnd_touches ..) (by decide) hx0
  · refine Touches.ite ?_ ?_
    · exact Touches.chain (State.finishLife_touches ..) (by decide) hx0
    · refine Touches.ite ?_ ?_
      · refine Touches.chain (State.kvtEnd_touches ..) (by decide) ?_
        exact Touches.chain (State.note_touches ..) (by decide) hx0
      · exact Touches.chain (State.kvtEnd_touches ..) (by decide) hx0

theorem State.storeServed_touches (s : State) (p1 : Waiter) :
    Touches Part.main s (State.storeServed s p1) := by
  unfold State.storeServed
  split
  · exact (Touches.rfl' _ s)
  · exact Touches.chain (State.imageProgress_touches ..) (by decide) (Touches.rfl' _ s)
  · exact Touches.chain (State.logServed_touches ..) (by decide) (Touches.rfl' _ s)
  · split
    · exact (Touches.rfl' _ s)
    · refine Touches.ite ?_ ?_
      · exact Touches.chain (State.finishRun_touches ..) (by decide) (Touches.rfl' _ s)
      · refine Touches.set_kvt (x := s) ?_ (by decide)
        exact (Touches.rfl' _ s)

theorem State.storeDenied_touches (s : State) (p1 : Waiter) :
    Touches [.regs, .cnt, .pow, .led, .hif, .st, .kvt, .yok, .out] s (State.storeDenied s p1) := by
  unfold State.storeDenied
  split
  · refine Touches.ite ?_ ?_
    · refine Touches.chain (State.result_touches ..) (by decide) ?_
      refine Touches.set_led (x := s) ?_ (by decide) id
      exact (Touches.rfl' _ s)
    · exact (Touches.rfl' _ s)
  · split
    · exact (Touches.rfl' _ s)
    · extract_lets -merge -underBinder +onlyGivenNames x0
      have hx0 : Touches [.regs, .cnt, .pow, .led, .hif, .st, .kvt, .yok, .out] s x0 := by
        unfold x0
        refine Touches.chain (State.orphanStores_touches ..) (by decide) ?_
        exact Touches.chain (State.endRun_touches ..) (by decide) (Touches.rfl' _ s)
      clear_value x0
      refine Touches.ite ?_ ?_
      · exact Touches.chain (State.ascEnd_touches ..) (by decide) hx0
      · refine Touches.chain (State.kvtEnd_touches ..) (by decide) ?_
        refine Touches.set_kvt (x := x0) ?_ (by decide)
        exact hx0
  · exact (Touches.rfl' _ s)

theorem State.dropEvid_touches (s : State) (p1 : EvidRec) :
    Touches [.hdg] s (State.dropEvid s p1) := by
  unfold State.dropEvid
  refine Touches.set_hdg (x := s) ?_ (by decide)
  exact (Touches.rfl' _ s)

theorem State.retryEvid_touches (s : State) (p1 : EvidRec) :
    Touches [.regs, .cnt, .pow, .led, .hdg, .hif, .st, .yok, .out] s (State.retryEvid s p1) := by
  unfold State.retryEvid
  refine Touches.ite ?_ ?_
  · extract_lets -merge -underBinder +onlyGivenNames x0
    clear_value x0
    extract_lets -merge -underBinder +onlyGivenNames x1 x2 x3
    clear_value x1 x2 x3
    extract_lets -merge -underBinder +onlyGivenNames x4
    have hx4 : Touches [.regs, .cnt, .pow, .led, .hdg, .hif, .st, .yok, .out] s x4 := by
      unfold x4
      refine Touches.set_hdg (x := s) ?_ (by decide)
      exact (Touches.rfl' _ s)
    clear_value x4
    refine Touches.chain (State.evidFullCheck_touches ..) (by decide) ?_
    exact Touches.chain (State.pushStore_touches ..) (by decide) hx4
  · refine Touches.chain (State.evidOverflow_touches ..) (by decide) ?_
    exact Touches.chain (State.dropEvid_touches ..) (by decide) (Touches.rfl' _ s)

theorem State.takeBack_touches (s : State) (p1 : Payload) :
    Touches [.regs, .cnt, .pow, .led, .hif, .line, .asc, .yok, .out] s (State.takeBack s p1) := by
  unfold State.takeBack
  split
  · exact Touches.chain (State.modCtx_touches ..) (by decide) (Touches.rfl' _ s)
  · refine Touches.set_line (x := s) ?_ (by decide)
    exact (Touches.rfl' _ s)
  · exact Touches.chain (State.batchFailed_touches ..) (by decide) (Touches.rfl' _ s)
  · exact (Touches.rfl' _ s)

theorem State.storeFailed_touches (s : State) (p1 : StoreReq) :
    Touches Part.main s (State.storeFailed s p1) := by
  unfold State.storeFailed
  split
  · exact Touches.chain (State.norFault_touches ..) (by decide) (Touches.rfl' _ s)
  · extract_lets -merge -underBinder +onlyGivenNames x0
    have hx0 : Touches Part.main s x0 := by
      unfold x0
      exact Touches.chain (State.note_touches ..) (by decide) (Touches.rfl' _ s)
    clear_value x0
    refine Touches.ite ?_ ?_
    · refine Touches.set_hdg (x := x0) ?_ (by decide)
      exact hx0
    · exact Touches.chain (State.retryEvid_touches ..) (by decide) hx0
  · refine Touches.chain (State.storeDenied_touches ..) (by decide) ?_
    refine Touches.chain (State.raise_touches ..) (by decide) ?_
    exact Touches.chain (State.takeBack_touches ..) (by decide) (Touches.rfl' _ s)

theorem State.askAgain_touches (s : State) :
    Touches [.regs, .cnt, .pow, .led, .hif, .st, .yok, .out] s (State.askAgain s) := by
  unfold State.askAgain
  extract_lets -merge -underBinder +onlyGivenNames x0
  have hx0 : Touches [.regs, .cnt, .pow, .led, .hif, .st, .yok, .out] s x0 := by
    unfold x0
    refine Touches.foldl _ _ ?_ (fun y1 a1 hy1 => ?_)
    · exact (Touches.rfl' _ s)
    · refine Touches.ite ?_ ?_
      · exact hy1
      · exact Touches.chain (State.pushStore_touches ..) (by decide) hy1
  clear_value x0
  extract_lets -merge -underBinder +onlyGivenNames x2
  have hx2 : Touches [.regs, .cnt, .pow, .led, .hif, .st, .yok, .out] s x2 := by
    unfold x2
    refine Touches.ite ?_ ?_
    · exact Touches.chain (State.overwriteLeft_touches ..) (by decide) hx0
    · exact hx0
  clear_value x2
  exact Touches.chain (State.wipeOn_touches ..) (by decide) hx2

theorem State.endStore_touches (s : State) (p1 : StoreReq) (p2 : Bool) :
    Touches Part.all s (State.endStore s p1 p2) := by
  unfold State.endStore
  extract_lets -merge -underBinder +onlyGivenNames x0
  clear_value x0
  extract_lets -merge -underBinder +onlyGivenNames x1
  have hx1 : Touches Part.all s x1 := by
    unfold x1
    refine Touches.ite ?_ ?_
    · refine Touches.set_pow (x := s) ?_ (by decide)
      exact (Touches.rfl' _ s)
    · exact (Touches.rfl' _ s)
  clear_value x1
  extract_lets -merge -underBinder +onlyGivenNames x2
  have hx2 : Touches Part.all s x2 := by
    unfold x2
    refine Touches.ite ?_ ?_
    · refine Touches.chain (State.storeServed_touches ..) (by decide) ?_
      exact Touches.chain (State.storeDurable_touches ..) (by decide) hx1
    · exact Touches.chain (State.storeFailed_touches ..) (by decide) hx1
  clear_value x2
  refine Touches.chain (State.reportRefused_touches ..) (by decide) ?_
  refine Touches.chain (State.startStores_touches ..) (by decide) ?_
  refine Touches.chain (State.askAgain_touches ..) (by decide) ?_
  exact Touches.chain (State.freeRecords_touches ..) (by decide) hx2

theorem execStoreComplete_touches (p0 : Bool) (p1 : Bool) (s : State) :
    OutTouches Part.all s (execStoreComplete p0 p1 s) := by
  unfold execStoreComplete
  split
  · show Touches _ _ _
    exact (Touches.rfl' _ s)
  · extract_lets -merge -underBinder +onlyGivenNames x0
    clear_value x0
    extract_lets -merge -underBinder +onlyGivenNames x1 x2
    clear_value x1 x2
    show Touches _ _ _
    refine Touches.chain (State.endStore_touches ..) (by decide) ?_
    refine Touches.set_st (x := s) ?_ (by decide)
    exact (Touches.rfl' _ s)

theorem State.runDeferred_touches (s : State) (p1 : ℕ) (p2 : ℕ) (p3 : List ℕ) :
    Touches [.regs, .cnt, .pow, .led, .hif, .st, .kvt, .yok, .out] s (State.runDeferred s p1 p2 p3) := by
  unfold State.runDeferred
  split
  · exact (Touches.rfl' _ s)
  · refine Touches.ite ?_ ?_
    · extract_lets -merge -underBinder +onlyGivenNames x0
      have hx0 : Touches [.regs, .cnt, .pow, .led, .hif, .st, .kvt, .yok, .out] s x0 := by
        unfold x0
        refine Touches.chain (State.orphanStores_touches ..) (by decide) ?_
        exact Touches.chain (State.endRun_touches ..) (by decide) (Touches.rfl' _ s)
      clear_value x0
      refine Touches.ite ?_ ?_
      · exact Touches.chain (State.ascEnd_touches ..) (by decide) hx0
      · exact Touches.chain (State.kvtEnd_touches ..) (by decide) hx0
    · exact (Touches.rfl' _ s)

theorem execStoreDeferralExceeded_touches (p0 : Fin 16) (p1 : Fin 64) (s : State) :
    OutTouches [.regs, .cnt, .pow, .led, .hif, .st, .kvt, .yok, .out] s (execStoreDeferralExceeded p0 p1 s) := by
  unfold execStoreDeferralExceeded
  refine OutTouches.ite ?_ ?_
  · show Touches _ _ _
    exact Touches.chain (State.runDeferred_touches ..) (by decide) (Touches.rfl' _ s)
  · refine OutTouches.ite ?_ ?_
    · show Touches _ _ _
      exact Touches.chain (State.runDeferred_touches ..) (by decide) (Touches.rfl' _ s)
    · refine OutTouches.ite ?_ ?_
      · extract_lets -merge -underBinder +onlyGivenNames x0
        clear_value x0
        extract_lets -merge -underBinder +onlyGivenNames x1
        extract_lets -merge -underBinder +onlyGivenNames x2
        clear_value x2
        extract_lets -merge -underBinder +onlyGivenNames x3
        have hx3 : Touches [.regs, .cnt, .pow, .led, .hif, .st, .kvt, .yok, .out] s x3 := by
          unfold x3
          apply Touches.put (x := s)
          · and_intros <;> first | exact .inr (by decide) | exact .inl rfl | exact SMap.wf_set _ _ _ _ | exact SMap.wf_dropRange _ _ _ _ | exact SMap.wf_filter _ _ _ | exact fun h => by rw [Ledger.reset_log]; exact h | exact id | exact fun _ => rfl
          · exact (Touches.rfl' _ s)
        clear_value x3
        show Touches _ _ _
        refine Touches.chain (State.result_touches ..) (by decide) ?_
        exact Touches.chain (State.orphanStores_touches ..) (by decide) hx3
      · show Touches _ _ _
        exact (Touches.rfl' _ s)

theorem State.storeCut_touches (s : State) (p1 : Option StoreReq) :
    Touches [.regs, .cnt, .pow, .boot, .led, .hdg, .hif, .mram, .line, .asc, .yok, .out, .free] s (State.storeCut s p1) := by
  unfold State.storeCut
  split
  · exact (Touches.rfl' _ s)
  · split
    rename_i v0 v1 v2 e3
    have hv2 : Touches [.regs, .cnt, .pow, .boot, .led, .hdg, .hif, .mram, .line, .asc, .yok, .out, .free] s v2 := by
      refine Touches.ofSnd e3 ?_
      exact Touches.chain (State.draw_touches ..) (by decide) (Touches.rfl' _ s)
    refine Touches.ite ?_ ?_
    · exact Touches.chain (State.storeDurable_touches ..) (by decide) hv2
    · exact hv2

theorem State.domainDrops_touches (s : State) :
    Touches Part.all s (State.domainDrops s) := by
  unfold State.domainDrops
  extract_lets -merge -underBinder +onlyGivenNames x0
  have hx0 : Touches Part.all s x0 := by
    unfold x0
    refine Touches.chain (State.storeCut_touches ..) (by decide) ?_
    exact Touches.chain (State.storeCut_touches ..) (by decide) (Touches.rfl' _ s)
  clear_value x0
  split
  rename_i v1 v2 v3 e4
  have hv3 : Touches Part.all s v3 := by
    refine Touches.ofSnd e4 ?_
    exact Touches.chain (State.draw_touches ..) (by decide) hx0
  refine Touches.chain (State.powerReset_touches ..) (by decide) ?_
  exact Touches.chain (State.evidRelease_touches ..) (by decide) hv3

theorem execSupplySample_touches (p0 : BitVec 16) (p1 : BitVec 16) (p2 : BitVec 16) (p3 : BitVec 16) (p4 : BitVec 16) (p5 : BitVec 16) (s : State) :
    OutTouches Part.all s (execSupplySample p0 p1 p2 p3 p4 p5 s) := by
  unfold execSupplySample
  refine OutTouches.ite ?_ ?_
  · show Touches _ _ _
    exact (Touches.rfl' _ s)
  · extract_lets -merge -underBinder +onlyGivenNames x0
    have hx0 : Touches Part.all s x0 := by
      unfold x0
      exact Touches.chain (State.wr_touches ..) (by decide) (Touches.rfl' _ s)
    extract_lets -merge -underBinder +onlyGivenNames x1
    have hx1 : Touches Part.all s x1 := by
      unfold x1
      exact Touches.chain (State.wr_touches ..) (by decide) hx0
    extract_lets -merge -underBinder +onlyGivenNames x2
    clear_value x2
    extract_lets -merge -underBinder +onlyGivenNames x3
    have hx3 : Touches Part.all s x3 := by
      unfold x3
      exact Touches.chain (State.wr_touches ..) (by decide) hx1
    extract_lets -merge -underBinder +onlyGivenNames x4
    extract_lets -merge -underBinder +onlyGivenNames x5
    have hx5 : Touches Part.all s x5 := by
      unfold x5
      refine Touches.set_pow (x := x3) ?_ (by decide)
      exact hx3
    refine OutTouches.ite ?_ ?_
    · show Touches _ _ _
      exact Touches.chain (State.domainDrops_touches ..) (by decide) hx5
    · show Touches _ _ _
      refine Touches.chain (State.recheck_touches ..) (by decide) ?_
      exact Touches.chain (State.startStores_touches ..) (by decide) hx5

end Sys2Proof.Machine
end

