-- ==== Sys2Proof/Laws/TouchView.lean ====
section
/-! SUPPORT. What each operation of Machine/View.lean may touch. -/

namespace Sys2Proof.Machine

open Sys2Proof

theorem State.readAt_touches (s : State) (p1 : Path) (p2 : ℕ) :
    Touches [.regs, .shadow] s (State.readAt s p1 p2).2 := by
  unfold State.readAt
  refine Touches.ite2 ?_ ?_
  · refine Touches.mk2 ?_
    exact (Touches.rfl' _ s)
  · extract_lets -merge -underBinder +onlyGivenNames x0
    clear_value x0
    extract_lets -merge -underBinder +onlyGivenNames x1 x2
    clear_value x1 x2
    extract_lets -merge -underBinder +onlyGivenNames x3
    have hx3 : Touches [.regs, .shadow] s x3 := by
      unfold x3
      refine Touches.set_shadow (x := s) ?_ (by decide)
      exact (Touches.rfl' _ s)
    clear_value x3
    split
    · exact hx3
    · refine Touches.mk2 ?_
      refine Touches.ite ?_ ?_
      · exact hx3
      · extract_lets -merge -underBinder +onlyGivenNames x4
        clear_value x4
        exact Touches.chain (State.wr_touches ..) (by decide) hx3

theorem State.hostRead_touches (s : State) (p1 : Path) (p2 : ℕ) :
    Touches [.regs, .shadow, .out] s (State.hostRead s p1 p2) := by
  unfold State.hostRead
  split
  · exact Touches.chain (State.emit_touches ..) (by decide) (Touches.rfl' _ s)
  · refine Touches.ite ?_ ?_
    · exact Touches.chain (State.emit_touches ..) (by decide) (Touches.rfl' _ s)
    · split
      rename_i v0 v1 v2 e3
      have hv2 : Touches [.regs, .shadow, .out] s v2 := by
        refine Touches.ofSnd e3 ?_
        exact Touches.chain (State.readAt_touches ..) (by decide) (Touches.rfl' _ s)
      exact Touches.chain (State.emit_touches ..) (by decide) hv2

theorem State.msixWrite_touches (s : State) (p1 : ℕ) (p2 : Word) :
    Touches [.hif, .out] s (State.msixWrite s p1 p2) := by
  unfold State.msixWrite
  extract_lets -merge -underBinder +onlyGivenNames x0
  extract_lets -merge -underBinder +onlyGivenNames x1
  have hx1 : Touches [.hif, .out] s x1 := by
    unfold x1
    refine Touches.set_hif (x := s) ?_ (by decide)
    exact (Touches.rfl' _ s)
  extract_lets -merge -underBinder +onlyGivenNames x2
  refine Touches.ite ?_ ?_
  · refine Touches.chain (State.emit_touches ..) (by decide) ?_
    refine Touches.set_hif (x := x1) ?_ (by decide)
    exact hx1
  · exact hx1

theorem State.writeReg_touches (s : State) (p1 : Instr) (p2 : Path) (p3 : ℕ) (p4 : Word) :
    Touches Part.main s (State.writeReg s p1 p2 p3 p4) := by
  unfold State.writeReg
  split
  · exact (Touches.rfl' _ s)
  · extract_lets -merge -underBinder +onlyGivenNames x0
    clear_value x0
    split
    · refine State.hostWrite_touches (by decide) ?_ (fun z1 hz1 => ?_)
      · exact (Touches.rfl' _ s)
      · refine Touches.ite ?_ ?_
        · exact Touches.chain (State.msixWrite_touches ..) (by decide) hz1
        · exact hz1
    · refine Touches.ite ?_ ?_
      · refine State.privWrite_touches (by decide) ?_ (fun z2 z3 hz3 => ?_)
        · exact (Touches.rfl' _ s)
        · exact Touches.chain (State.regEffect_touches ..) (by decide) hz3
      · refine State.hostWrite_touches (by decide) ?_ (fun z4 hz4 => ?_)
        · exact (Touches.rfl' _ s)
        · exact Touches.chain (State.regEffect_touches ..) (by decide) hz4

end Sys2Proof.Machine
end

