-- ==== Sys2Proof/Laws/TouchHostOps.lean ====
section
/-! SUPPORT. What each operation of Machine/HostOps.lean may touch. -/

namespace Sys2Proof.Machine

open Sys2Proof

set_option linter.unusedTactic false
set_option linter.unreachableTactic false

theorem State.armWrite_touches (s : State) (p1 : Path) (p2 : ℕ) (p3 : Word) (p4 : ℕ) :
    Touches [.regs, .cnt, .armed, .pow, .led, .hif, .yok, .out] s (State.armWrite s p1 p2 p3 p4) := by
  unfold State.armWrite
  refine State.hostWrite_touches (by decide) ?_ (fun z0 hz0 => ?_)
  · exact (Touches.rfl' _ s)
  · refine Touches.ite ?_ ?_
    · refine Touches.set_armed (x := z0) ?_ (by decide)
      exact hz0
    · exact hz0

theorem State.ringError_touches (s : State) (p1 : ℕ) (p2 : ℕ) :
    Touches Part.note s (State.ringError s p1 p2) := by
  unfold State.ringError
  refine Touches.chain (State.noteFor_touches ..) (by decide) ?_
  refine Touches.chain (State.allotRuns_touches ..) (by decide) ?_
  exact Touches.chain (State.setFlg_touches ..) (by decide) (Touches.rfl' _ s)

theorem State.ringBell_touches (s : State) (p1 : ℕ) (p2 : ℕ) (p3 : ℕ) :
    Touches Part.note s (State.ringBell s p1 p2 p3) := by
  unfold State.ringBell
  refine Touches.ite ?_ ?_
  · exact (Touches.rfl' _ s)
  · refine Touches.ite ?_ ?_
    · refine Touches.chain (State.inc_touches ..) (by decide) ?_
      refine Touches.set_hif (x := s) ?_ (by decide)
      exact (Touches.rfl' _ s)
    · exact Touches.chain (State.ringError_touches ..) (by decide) (Touches.rfl' _ s)

theorem State.setAllot_touches (s : State) (p1 : ℕ) (p2 : AllotState) :
    Touches [.hif, .out] s (State.setAllot s p1 p2) := by
  unfold State.setAllot
  refine Touches.ite ?_ ?_
  · exact (Touches.rfl' _ s)
  · refine Touches.chain (State.fire_touches ..) (by decide) ?_
    refine Touches.set_hif (x := s) ?_ (by decide)
    exact (Touches.rfl' _ s)

theorem State.flushAllot_touches (s : State) (p1 : ℕ) :
    Touches [.cnt, .hif, .cph, .out] s (State.flushAllot s p1) := by
  unfold State.flushAllot
  refine Touches.foldl _ _ ?_ (fun y0 a0 hy0 => ?_)
  · exact (Touches.rfl' _ s)
  · exact Touches.chain (State.flushRing_touches ..) (by decide) hy0

theorem State.dropWaiting_touches (s : State) (p1 : ℕ) :
    Touches [.regs, .cnt, .pow, .led, .hif, .sch, .cph, .yok, .out] s (State.dropWaiting s p1) := by
  unfold State.dropWaiting
  extract_lets -merge -underBinder +onlyGivenNames x0
  clear_value x0
  refine Touches.chain (State.flushAllot_touches ..) (by decide) ?_
  refine Touches.chain (State.dropInjected_touches ..) (by decide) ?_
  refine Touches.set_cph (x := s) ?_ (by decide)
  exact (Touches.rfl' _ s)

theorem State.squashAllot_touches (s : State) (p1 : ℕ) :
    Touches [.regs, .cnt, .pow, .led, .hif, .sch, .asc, .cph, .kvt, .yok, .out] s (State.squashAllot s p1) := by
  unfold State.squashAllot
  extract_lets -merge -underBinder +onlyGivenNames x0
  have hx0 : Touches [.regs, .cnt, .pow, .led, .hif, .sch, .asc, .cph, .kvt, .yok, .out] s x0 := by
    unfold x0
    exact Touches.chain (State.squashItems_touches ..) (by decide) (Touches.rfl' _ s)
  clear_value x0
  extract_lets -merge -underBinder +onlyGivenNames x1
  have hx1 : Touches [.regs, .cnt, .pow, .led, .hif, .sch, .asc, .cph, .kvt, .yok, .out] s x1 := by
    unfold x1
    exact Touches.chain (State.flushAllot_touches ..) (by decide) hx0
  clear_value x1
  refine Touches.ite ?_ ?_
  · refine Touches.chain (State.kvtEnd_touches ..) (by decide) ?_
    exact Touches.chain (State.endRun_touches ..) (by decide) hx1
  · exact hx1

theorem State.eraseOwned_touches (s : State) (p1 : ℕ) :
    Touches Part.main s (State.eraseOwned s p1) := by
  unfold State.eraseOwned
  refine Touches.foldl _ _ ?_ (fun y0 a0 hy0 => ?_)
  · exact (Touches.rfl' _ s)
  · refine Touches.ite ?_ ?_
    · exact Touches.chain (State.eraseSlot_touches ..) (by decide) hy0
    · exact hy0

theorem State.beginErase_touches (s : State) (p1 : ℕ) :
    Touches Part.main s (State.beginErase s p1) := by
  unfold State.beginErase
  extract_lets -merge -underBinder +onlyGivenNames x0
  have hx0 : Touches Part.main s x0 := by
    unfold x0
    exact Touches.chain (State.eraseOwned_touches ..) (by decide) (Touches.rfl' _ s)
  clear_value x0
  extract_lets -merge -underBinder +onlyGivenNames x1
  have hx1 : Touches Part.main s x1 := by
    unfold x1
    refine Touches.ite ?_ ?_
    · exact Touches.chain (State.startWindowInit_touches ..) (by decide) hx0
    · exact hx0
  clear_value x1
  refine Touches.set_hif (x := x1) ?_ (by decide)
  exact hx1

theorem State.endReset_touches (s : State) (p1 : AllotReset) :
    Touches Part.note s (State.endReset s p1) := by
  unfold State.endReset
  extract_lets -merge -underBinder +onlyGivenNames x0 x1 x2
  clear_value x0 x1 x2
  extract_lets -merge -underBinder +onlyGivenNames x3
  have hx3 : Touches Part.note s x3 := by
    unfold x3
    refine Touches.set_hif (x := s) ?_ (by decide)
    exact (Touches.rfl' _ s)
  clear_value x3
  extract_lets -merge -underBinder +onlyGivenNames x4
  have hx4 : Touches Part.note s x4 := by
    unfold x4
    refine Touches.chain (State.result_touches ..) (by decide) ?_
    refine Touches.chain (State.setAllot_touches ..) (by decide) ?_
    exact Touches.chain (State.clearRings_touches ..) (by decide) hx3
  clear_value x4
  refine Touches.chain (State.fire_touches ..) (by decide) ?_
  exact Touches.chain (State.noteFor_touches ..) (by decide) hx4

theorem State.stepReset_touches (s : State) (p1 : ℕ) :
    Touches Part.main s (State.stepReset s p1) := by
  unfold State.stepReset
  split
  · exact (Touches.rfl' _ s)
  · refine Touches.ite ?_ ?_
    · exact (Touches.rfl' _ s)
    · extract_lets -merge -underBinder +onlyGivenNames x0
      have hx0 : Touches Part.main s x0 := by
        unfold x0
        refine Touches.ite ?_ ?_
        · exact (Touches.rfl' _ s)
        · exact Touches.chain (State.beginErase_touches ..) (by decide) (Touches.rfl' _ s)
      clear_value x0
      refine Touches.ite ?_ ?_
      · exact hx0
      · exact Touches.chain (State.endReset_touches ..) (by decide) hx0

theorem State.endFreeze_touches (s : State) (p1 : ℕ) (p2 : ℕ) :
    Touches Part.note s (State.endFreeze s p1 p2) := by
  unfold State.endFreeze
  extract_lets -merge -underBinder +onlyGivenNames x0
  clear_value x0
  extract_lets -merge -underBinder +onlyGivenNames x1
  have hx1 : Touches Part.note s x1 := by
    unfold x1
    refine Touches.chain (State.setAllot_touches ..) (by decide) ?_
    refine Touches.set_hif (x := s) ?_ (by decide)
    exact (Touches.rfl' _ s)
  clear_value x1
  refine Touches.chain (State.noteFor_touches ..) (by decide) ?_
  exact Touches.chain (State.result_touches ..) (by decide) hx1

theorem State.stepFreeze_touches (s : State) (p1 : ℕ) :
    Touches Part.note s (State.stepFreeze s p1) := by
  unfold State.stepFreeze
  refine Touches.ite ?_ ?_
  · exact Touches.chain (State.endFreeze_touches ..) (by decide) (Touches.rfl' _ s)
  · exact (Touches.rfl' _ s)

theorem State.stepAllots_touches (s : State) :
    Touches Part.main s (State.stepAllots s) := by
  unfold State.stepAllots
  refine Touches.foldl _ _ ?_ (fun y0 a0 hy0 => ?_)
  · exact (Touches.rfl' _ s)
  · refine Touches.chain (State.stepFreeze_touches ..) (by decide) ?_
    exact Touches.chain (State.stepReset_touches ..) (by decide) hy0

theorem State.beginReset_touches (s : State) (p1 : ℕ) (p2 : Bool) (p3 : Bool) :
    Touches Part.main s (State.beginReset s p1 p2 p3) := by
  unfold State.beginReset
  extract_lets -merge -underBinder +onlyGivenNames x0
  have hx0 : Touches Part.main s x0 := by
    unfold x0
    exact Touches.chain (State.setAllot_touches ..) (by decide) (Touches.rfl' _ s)
  clear_value x0
  extract_lets -merge -underBinder +onlyGivenNames x1
  clear_value x1
  extract_lets -merge -underBinder +onlyGivenNames x2
  have hx2 : Touches Part.main s x2 := by
    unfold x2
    apply Touches.put (x := x0)
    · and_intros <;> first | exact .inr (by decide) | exact .inl rfl | exact SMap.wf_set _ _ _ _ | exact SMap.wf_dropRange _ _ _ _ | exact SMap.wf_filter _ _ _ | exact fun h => by rw [Ledger.reset_log]; exact h | exact id | exact fun _ => rfl
    · exact hx0
  clear_value x2
  extract_lets -merge -underBinder +onlyGivenNames x3
  have hx3 : Touches Part.main s x3 := by
    unfold x3
    exact Touches.chain (State.dropWaiting_touches ..) (by decide) hx2
  clear_value x3
  refine Touches.chain (State.stepReset_touches ..) (by decide) ?_
  refine Touches.ite ?_ ?_
  · exact Touches.chain (State.squashAllot_touches ..) (by decide) hx3
  · exact hx3

theorem State.beginFreeze_touches (s : State) (p1 : ℕ) :
    Touches [.regs, .cnt, .pow, .led, .hif, .sch, .cph, .yok, .out] s (State.beginFreeze s p1) := by
  unfold State.beginFreeze
  extract_lets -merge -underBinder +onlyGivenNames x0
  have hx0 : Touches [.regs, .cnt, .pow, .led, .hif, .sch, .cph, .yok, .out] s x0 := by
    unfold x0
    exact Touches.chain (State.setAllot_touches ..) (by decide) (Touches.rfl' _ s)
  clear_value x0
  refine Touches.chain (State.stepFreeze_touches ..) (by decide) ?_
  refine Touches.chain (State.dropWaiting_touches ..) (by decide) ?_
  refine Touches.set_hif (x := x0) ?_ (by decide)
  exact hx0

theorem State.thawAllot_touches (s : State) (p1 : ℕ) :
    Touches Part.note s (State.thawAllot s p1) := by
  unfold State.thawAllot
  extract_lets -merge -underBinder +onlyGivenNames x0
  clear_value x0
  refine Touches.chain (State.noteFor_touches ..) (by decide) ?_
  refine Touches.chain (State.result_touches ..) (by decide) ?_
  exact Touches.chain (State.setAllot_touches ..) (by decide) (Touches.rfl' _ s)

theorem State.allotCmd_touches {m : List Part} {s : State} {x : State} {p1 : ℕ} {p2 : ℕ} {p3 : State → State} (hm : [.regs] ⊆ m) (hx : Touches m s x) (k3 : ∀ z0, Touches m s z0 → Touches m s (p3 z0)) :
    Touches m s (State.allotCmd x p1 p2 p3) := by
  unfold State.allotCmd
  extract_lets -merge -underBinder +onlyGivenNames x0
  have hx0 : ∀ z1, Touches m s (x0 z1) := by
    intro z1
    unfold x0
    beta_reduce
    exact Touches.chain (State.result_touches ..) (List.Subset.trans (by decide) hm) hx
  clear_value x0
  extract_lets -merge -underBinder +onlyGivenNames x2
  clear_value x2
  refine Touches.ite ?_ ?_
  · refine hx0 _
  · refine Touches.ite ?_ ?_
    · refine hx0 _
    · refine Touches.ite ?_ ?_
      · refine hx0 _
      · refine Touches.ite ?_ ?_
        · refine hx0 _
        · refine Touches.ite ?_ ?_
          · refine Touches.ite ?_ ?_
            · refine k3 _ ?_
              exact hx
            · refine hx0 _
          · refine Touches.ite ?_ ?_
            · refine k3 _ ?_
              exact hx
            · refine hx0 _

theorem State.allotWrite_touches {m : List Part} {s : State} {x : State} {p1 : Path} {p2 : ℕ} {p3 : ℕ} {p4 : State → State} (hm : [.regs, .cnt, .armed, .pow, .led, .hif, .yok, .out] ⊆ m) (hx : Touches m s x) (k4 : ∀ z0, Touches m s z0 → Touches m s (p4 z0)) :
    Touches m s (State.allotWrite x p1 p2 p3 p4) := by
  unfold State.allotWrite
  refine State.hostWrite_touches (List.Subset.trans (by decide) hm) ?_ (fun z0 hz0 => ?_)
  · exact hx
  · refine State.allotCmd_touches (List.Subset.trans (by decide) hm) ?_ (fun z1 hz1 => ?_)
    · exact hz0
    · refine k4 _ ?_
      exact hz1

theorem State.putWords_touches (s : State) (p1 : ℕ → ℕ) (p2 : ℕ) (p3 : List Byte) :
    Touches [.regs] s (State.putWords s p1 p2 p3) := by
  unfold State.putWords
  refine Touches.foldl _ _ ?_ (fun y0 a0 hy0 => ?_)
  · exact (Touches.rfl' _ s)
  · exact Touches.chain (State.wr_touches ..) (by decide) hy0

theorem State.loadWindow_touches (s : State) (p1 : ℕ) (p2 : CmdDesc) (p3 : List Byte) :
    Touches [.regs] s (State.loadWindow s p1 p2 p3) := by
  unfold State.loadWindow
  extract_lets -merge -underBinder +onlyGivenNames x0
  clear_value x0
  split
  · extract_lets -merge -underBinder +onlyGivenNames x1
    have hx1 : Touches [.regs] s x1 := by
      unfold x1
      refine Touches.chain (State.wr_touches ..) (by decide) ?_
      exact Touches.chain (State.wr_touches ..) (by decide) (Touches.rfl' _ s)
    clear_value x1
    refine Touches.ite ?_ ?_
    · exact hx1
    · exact Touches.chain (State.putWords_touches ..) (by decide) hx1
  · refine Touches.foldl _ _ ?_ (fun y2 a2 hy2 => ?_)
    · exact Touches.chain (State.wr_touches ..) (by decide) (Touches.rfl' _ s)
    · exact Touches.chain (State.wr_touches ..) (by decide) hy2
  · extract_lets -merge -underBinder +onlyGivenNames x3
    have hx3 : Touches [.regs] s x3 := by
      unfold x3
      exact Touches.chain (State.setFld_touches ..) (by decide) (Touches.rfl' _ s)
    clear_value x3
    refine Touches.ite ?_ ?_
    · exact hx3
    · exact Touches.chain (State.putAscData_touches ..) (by decide) hx3
  · extract_lets -merge -underBinder +onlyGivenNames x4
    have hx4 : Touches [.regs] s x4 := by
      unfold x4
      refine Touches.chain (State.wr_touches ..) (by decide) ?_
      refine Touches.chain (State.wr_touches ..) (by decide) ?_
      exact Touches.chain (State.wr_touches ..) (by decide) (Touches.rfl' _ s)
    clear_value x4
    exact Touches.chain (State.putWords_touches ..) (by decide) hx4
  · extract_lets -merge -underBinder +onlyGivenNames x5
    clear_value x5
    refine Touches.foldl _ _ ?_ (fun y6 a6 hy6 => ?_)
    · exact (Touches.rfl' _ s)
    · exact Touches.chain (State.wr_touches ..) (by decide) hy6
  · exact (Touches.rfl' _ s)

theorem State.ringRun_touches (s : State) (p1 : ℕ) (p2 : CmdDesc) :
    Touches Part.main s (State.ringRun s p1 p2) := by
  unfold State.ringRun
  split
  · exact Touches.chain (State.clsRun_touches ..) (by decide) (Touches.rfl' _ s)
  · exact Touches.chain (State.schRun_touches ..) (by decide) (Touches.rfl' _ s)
  · exact Touches.chain (State.ascRun_touches ..) (by decide) (Touches.rfl' _ s)
  · exact Touches.chain (State.kvtRun_touches ..) (by decide) (Touches.rfl' _ s)
  · exact Touches.chain (State.timRun_touches ..) (by decide) (Touches.rfl' _ s)
  · exact (Touches.rfl' _ s)

theorem State.dmaError_touches (s : State) (p1 : ℕ) :
    Touches Part.note s (State.dmaError s p1) := by
  unfold State.dmaError
  refine Touches.chain (State.noteFor_touches ..) (by decide) ?_
  exact Touches.chain (State.inc_touches ..) (by decide) (Touches.rfl' _ s)

theorem State.runDescriptor_touches (s : State) (p1 : ℕ) (p2 : ℕ) (p3 : CmdDesc) (p4 : List Byte) (p5 : Bool) (p6 : Bool) :
    Touches Part.main s (State.runDescriptor s p1 p2 p3 p4 p5 p6) := by
  unfold State.runDescriptor
  extract_lets -merge -underBinder +onlyGivenNames x0
  have hx0 : ∀ z1 z2, Touches Part.main s z1 → Touches Part.main s (x0 z1 z2) := by
    intro z1 z2 hz1
    unfold x0
    beta_reduce
    exact Touches.chain (State.complete_touches ..) (by decide) hz1
  clear_value x0
  refine Touches.ite ?_ ?_
  · refine hx0 _ _ ?_
    exact (Touches.rfl' _ s)
  · refine Touches.ite ?_ ?_
    · refine hx0 _ _ ?_
      exact (Touches.rfl' _ s)
    · refine Touches.ite ?_ ?_
      · refine hx0 _ _ ?_
        exact (Touches.rfl' _ s)
      · refine Touches.ite ?_ ?_
        · refine hx0 _ _ ?_
          exact Touches.chain (State.dmaError_touches ..) (by decide) (Touches.rfl' _ s)
        · split
          · refine hx0 _ _ ?_
            refine Touches.chain (State.disarm_touches ..) (by decide) ?_
            refine Touches.chain (State.ringRun_touches ..) (by decide) ?_
            exact Touches.chain (State.loadWindow_touches ..) (by decide) (Touches.rfl' _ s)
          · extract_lets -merge -underBinder +onlyGivenNames x3
            clear_value x3
            extract_lets -merge -underBinder +onlyGivenNames x4
            have hx4 : Touches Part.main s x4 := by
              unfold x4
              exact Touches.chain (State.loadWindow_touches ..) (by decide) (Touches.rfl' _ s)
            clear_value x4
            refine Touches.chain (State.disarm_touches ..) (by decide) ?_
            refine Touches.chain (State.ringRun_touches ..) (by decide) ?_
            refine Touches.set_hif (x := x4) ?_ (by decide)
            exact hx4

theorem State.capAssocs_touches (s : State) (p1 : ℕ) (p2 : ℕ) :
    Touches [.asc] s (State.capAssocs s p1 p2) := by
  unfold State.capAssocs
  refine Touches.foldl _ _ ?_ (fun y0 a0 hy0 => ?_)
  · exact (Touches.rfl' _ s)
  · exact Touches.chain (State.modCtx_touches ..) (by decide) hy0

theorem State.migSci_touches (s : State) (p1 : List (ℕ × Ctx)) :
    OptTouches [.asc, .kvt, .yok, .out, .free] s (State.migSci s p1) := by
  unfold State.migSci
  split
  · show Touches _ _ _
    exact (Touches.rfl' _ s)
  · refine OptTouches.ite ?_ ?_
    · split
      · rename_i v0 v1 e2
        have hv1 : Touches [.asc, .kvt, .yok, .out, .free] s v1 := by
          refine Touches.ofFst e2 ?_
          exact Touches.chain (State.sciInsert_touches ..) (by decide) (Touches.rfl' _ s)
        refine OptTouches.chain (State.migSci_touches ..) (by decide) ?_
        exact hv1
      · rename_i v3 v4 e5
        have hv4 : Touches [.asc, .kvt, .yok, .out, .free] s v4 := by
          refine Touches.ofFst e5 ?_
          exact Touches.chain (State.sciInsert_touches ..) (by decide) (Touches.rfl' _ s)
        exact trivial
    · refine OptTouches.chain (State.migSci_touches ..) (by decide) ?_
      exact (Touches.rfl' _ s)

theorem State.restoreAssoc_touches (s : State) (p1 : ℕ) (p2 : List Byte) (p3 : Ctx) (p4 : ℕ) (p5 : List (ℕ × List Byte × Word)) :
    Touches Part.main s (State.restoreAssoc s p1 p2 p3 p4 p5) := by
  unfold State.restoreAssoc
  extract_lets -merge -underBinder +onlyGivenNames x0 x1 x2
  clear_value x0 x1 x2
  extract_lets -merge -underBinder +onlyGivenNames x3
  have hx3 : Touches Part.main s x3 := by
    unfold x3
    refine Touches.chain (State.commitCtx_touches ..) (by decide) ?_
    exact Touches.chain (State.setCtx_touches ..) (by decide) (Touches.rfl' _ s)
  clear_value x3
  extract_lets -merge -underBinder +onlyGivenNames x4
  have hx4 : Touches Part.main s x4 := by
    unfold x4
    refine Touches.foldl _ _ ?_ (fun y5 a5 hy5 => ?_)
    · exact hx3
    · extract_lets -merge -underBinder +onlyGivenNames x6
      have hx6 : Touches Part.main s x6 := by
        unfold x6
        refine Touches.chain (State.kvtCount_touches ..) (by decide) ?_
        exact Touches.chain (State.installKey_touches ..) (by decide) hy5
      clear_value x6
      exact Touches.chain (State.sealSlot_touches ..) (by decide) hx6
  clear_value x4
  extract_lets -merge -underBinder +onlyGivenNames x7 x8
  clear_value x7 x8
  split
  rename_i v9 v10 v11 e12
  have hv10 : Touches Part.main s v10 := by
    refine Touches.ofFst e12 ?_
    exact Touches.chain (State.storePn_touches ..) (by decide) hx4
  extract_lets -merge -underBinder +onlyGivenNames x13
  have hx13 : Touches Part.main s x13 := by
    unfold x13
    refine Touches.ite ?_ ?_
    · exact Touches.chain (State.rebuild_touches ..) (by decide) hv10
    · exact Touches.chain (State.modCtx_touches ..) (by decide) hv10
  clear_value x13
  exact Touches.chain (State.modCtx_touches ..) (by decide) hx13

theorem State.restoreQueue_touches (s : State) (p1 : List Byte) :
    Touches [.sch] s (State.restoreQueue s p1) := by
  unfold State.restoreQueue
  extract_lets -merge -underBinder +onlyGivenNames x0 x1
  clear_value x0 x1
  refine Touches.chain (State.tblWrite_touches ..) (by decide) ?_
  exact Touches.chain (State.tblWrite_touches ..) (by decide) (Touches.rfl' _ s)

theorem State.restoreAlts_touches (s : State) (p1 : ℕ) (p2 : List (List Byte)) :
    Touches [.regs, .cnt, .pow, .led, .hif, .cls, .kvt, .yok, .out, .free] s (State.restoreAlts s p1 p2).2 := by
  unfold State.restoreAlts
  split
  · refine Touches.mk2 ?_
    exact (Touches.rfl' _ s)
  · extract_lets -merge -underBinder +onlyGivenNames x0
    clear_value x0
    extract_lets -merge -underBinder +onlyGivenNames x1
    clear_value x1
    split
    rename_i v2 v3 v4 e5
    have hv4 : Touches [.regs, .cnt, .pow, .led, .hif, .cls, .kvt, .yok, .out, .free] s v4 := by
      refine Touches.ofSnd e5 ?_
      refine Touches.ite2 ?_ ?_
      · refine Touches.mk2 ?_
        exact (Touches.rfl' _ s)
      · split
        rename_i v6 v7 v8 e9
        have hv7 : Touches [.regs, .cnt, .pow, .led, .hif, .cls, .kvt, .yok, .out, .free] s v7 := by
          refine Touches.ofFst e9 ?_
          exact Touches.chain (State.place_touches ..) (by decide) (Touches.rfl' _ s)
        exact hv7
    split
    rename_i v10 v11 v12 e13
    have hv12 : Touches [.regs, .cnt, .pow, .led, .hif, .cls, .kvt, .yok, .out, .free] s v12 := by
      refine Touches.ofSnd e13 ?_
      refine Touches.chain (State.restoreAlts_touches ..) (by decide) ?_
      exact hv4
    exact hv12

theorem State.applyBlob_touches (s : State) (p1 : ℕ) (p2 : ℕ) (p3 : MigBlob) :
    Touches Part.main s (State.applyBlob s p1 p2 p3).2 := by
  unfold State.applyBlob
  extract_lets -merge -underBinder +onlyGivenNames x0
  extract_lets -merge -underBinder +onlyGivenNames x1
  clear_value x1
  extract_lets -merge -underBinder +onlyGivenNames x2
  extract_lets -merge -underBinder +onlyGivenNames x3
  have hx3 : Touches Part.main s x3 := by
    unfold x3
    refine OptTouches.getD ?_ ?_
    · exact OptTouches.chain (State.migSci_touches ..) (by decide) (Touches.rfl' _ s)
    · exact (Touches.rfl' _ s)
  clear_value x3
  extract_lets -merge -underBinder +onlyGivenNames x4
  have hx4 : Touches Part.main s x4 := by
    unfold x4
    refine Touches.foldl _ _ ?_ (fun y5 a5 hy5 => ?_)
    · exact hx3
    · exact Touches.chain (State.restoreAssoc_touches ..) (by decide) hy5
  clear_value x4
  extract_lets -merge -underBinder +onlyGivenNames x6
  have hx6 : Touches Part.main s x6 := by
    unfold x6
    refine Touches.foldl _ _ ?_ (fun y7 a7 hy7 => ?_)
    · exact hx4
    · refine Touches.chain (State.kvtCount_touches ..) (by decide) ?_
      exact Touches.chain (State.installKey_touches ..) (by decide) hy7
  clear_value x6
  extract_lets -merge -underBinder +onlyGivenNames x8
  have hx8 : Touches Part.main s x8 := by
    unfold x8
    refine Touches.foldl _ _ ?_ (fun y9 a9 hy9 => ?_)
    · exact hx6
    · exact Touches.chain (State.restoreQueue_touches ..) (by decide) hy9
  clear_value x8
  split
  rename_i v10 v11 v12 e13
  have hv12 : Touches Part.main s v12 := by
    refine Touches.ofSnd e13 ?_
    exact Touches.chain (State.restoreAlts_touches ..) (by decide) hx8
  refine Touches.mk2 ?_
  exact Touches.chain (State.note_touches ..) (by decide) hv12

theorem State.i3cServe_touches {m : List Part} {s : State} {x : State} {p1 : State → State} (hm : [.cnt, .out] ⊆ m) (hx : Touches m s x) (k1 : ∀ z0, Touches m s z0 → Touches m s (p1 z0)) :
    Touches m s (State.i3cServe x p1) := by
  unfold State.i3cServe
  refine Touches.ite ?_ ?_
  · refine k1 _ ?_
    exact Touches.chain (State.inc_touches ..) (List.Subset.trans (by decide) hm) hx
  · exact Touches.chain (State.emit_touches ..) (List.Subset.trans (by decide) hm) hx

theorem State.i3cAnswer_touches (s : State) (p1 : List Byte) :
    Touches [.out] s (State.i3cAnswer s p1) := by
  unfold State.i3cAnswer
  exact Touches.chain (State.emit_touches ..) (by decide) (Touches.rfl' _ s)

theorem State.i3cCommand_touches {s : State} {off : Nat} {val : Word} {o : Host.Outcome State Fault Refusal}
    (h : s.i3cCommand off val = some o) : OutTouches Part.all s o := by
  unfold State.i3cCommand at h
  extract_lets slot arg op at h
  split at h
  · cases h
    split
    · exact (execModeCmdUnknown_touches ..).mono (by decide)
    · exact (execGoService_touches ..).mono (by decide)
    · exact (execGoYoke_touches ..).mono (by decide)
    · exact (execModeStop_touches ..).mono (by decide)
    · exact (execSelfTest_touches ..).mono (by decide)
    · exact (execUnyoke_touches ..).mono (by decide)
    · exact (execModuleReset_touches ..).mono (by decide)
    · exact (execClearDegrade_touches ..).mono (by decide)
    · exact (execModeCmdUnknown_touches ..).mono (by decide)
  · split at h
    · cases h
      split
      · exact (execImageCmdUnknown_touches ..).mono (by decide)
      · exact (execWriteOpen_touches ..).mono (by decide)
      · exact (execWriteChunk_touches ..).mono (by decide)
      · split
        refine OutTouches.chain (execWriteClose_touches ..) (by decide) ?_
        exact Touches.ofSnd (by assumption) ((State.draw_touches ..).mono (by decide))
      · exact (execActivate_touches ..).mono (by decide)
      · exact (execConfirm_touches ..).mono (by decide)
      · exact (execRevert_touches ..).mono (by decide)
      · exact (execReboot_touches ..).mono (by decide)
      · exact (execCopyGolden_touches ..).mono (by decide)
      · exact (execImageErase_touches ..).mono (by decide)
      · exact (execRaiseFloor_touches ..).mono (by decide)
      · exact (execRevokeAuth_touches ..).mono (by decide)
      · exact (execSetTrialMax_touches ..).mono (by decide)
      · exact (execImageCmdUnknown_touches ..).mono (by decide)
    · split at h
      · cases h
        exact (State.armWrite_touches ..).mono (by decide)
      · cases h

end Sys2Proof.Machine
end

