-- ==== Sys2Proof/Laws/TouchHost.lean ====
section
/-! SUPPORT. What each operation of Machine/Host.lean may touch. -/

namespace Sys2Proof.Machine

open Sys2Proof

theorem execDoorbell_touches (p0 : Path) (p1 : Fin 16) (p2 : BitVec 16) (s : State) :
    OutTouches [.regs, .cnt, .armed, .pow, .led, .hif, .yok, .held, .out] s (execDoorbell p0 p1 p2 s) := by
  unfold execDoorbell
  show Touches _ _ _
  refine State.privWrite_touches (by decide) ?_ (fun z0 z1 hz1 => ?_)
  · exact (Touches.rfl' _ s)
  · exact Touches.chain (State.ringBell_touches ..) (by decide) hz1

theorem execCommandDescriptor_touches (p0 : Fin 64) (p1 : List Byte) (p2 : List Byte) (p3 : Bool) (p4 : Bool) (s : State) :
    OutTouches Part.main s (execCommandDescriptor p0 p1 p2 p3 p4 s) := by
  unfold execCommandDescriptor
  extract_lets -merge -underBinder +onlyGivenNames x0 x1
  clear_value x0 x1
  refine OutTouches.ite ?_ ?_
  · show Touches _ _ _
    exact (Touches.rfl' _ s)
  · split
    rename_i v2 v3 v4 e5
    have hv4 : Touches Part.main s v4 := by
      refine Touches.ofSnd e5 ?_
      exact Touches.chain (State.fetchNext_touches ..) (by decide) (Touches.rfl' _ s)
    show Touches _ _ _
    refine Touches.chain (State.runDescriptor_touches ..) (by decide) ?_
    exact Touches.chain (State.inc_touches ..) (by decide) hv4

theorem State.injectFrame_touches (s : State) (p1 : ℕ) (p2 : ℕ) (p3 : InjDesc) (p4 : List Byte) :
    Touches [.sch, .yok, .out] s (State.injectFrame s p1 p2 p3 p4) := by
  unfold State.injectFrame
  extract_lets -merge -underBinder +onlyGivenNames x0 x1 x2 x3 x4
  clear_value x0 x1 x2 x3 x4
  extract_lets -merge -underBinder +onlyGivenNames x5
  have hx5 : Touches [.sch, .yok, .out] s x5 := by
    unfold x5
    refine Touches.set_sch (x := s) ?_ (by decide)
    exact (Touches.rfl' _ s)
  clear_value x5
  exact Touches.chain (State.convey_touches ..) (by decide) hx5

theorem execInjectDescriptor_touches (p0 : Fin 64) (p1 : List Byte) (p2 : List Byte) (p3 : Bool) (s : State) :
    OutTouches [.regs, .cnt, .pow, .led, .hif, .sch, .yok, .out] s (execInjectDescriptor p0 p1 p2 p3 s) := by
  unfold execInjectDescriptor
  extract_lets -merge -underBinder +onlyGivenNames x0
  clear_value x0
  refine OutTouches.ite ?_ ?_
  · show Touches _ _ _
    exact (Touches.rfl' _ s)
  · split
    rename_i v1 v2 v3 e4
    have hv3 : Touches [.regs, .cnt, .pow, .led, .hif, .sch, .yok, .out] s v3 := by
      refine Touches.ofSnd e4 ?_
      exact Touches.chain (State.fetchNext_touches ..) (by decide) (Touches.rfl' _ s)
    extract_lets -merge -underBinder +onlyGivenNames x5
    have hx5 : Touches [.regs, .cnt, .pow, .led, .hif, .sch, .yok, .out] s x5 := by
      unfold x5
      exact Touches.chain (State.inc_touches ..) (by decide) hv3
    clear_value x5
    extract_lets -merge -underBinder +onlyGivenNames x6
    clear_value x6
    extract_lets -merge -underBinder +onlyGivenNames x7
    have hx7 : ∀ z8 z9, Touches [.regs, .cnt, .pow, .led, .hif, .sch, .yok, .out] s z8 → Touches [.regs, .cnt, .pow, .led, .hif, .sch, .yok, .out] s (x7 z8 z9) := by
      intro z8 z9 hz8
      unfold x7
      beta_reduce
      exact Touches.chain (State.complete_touches ..) (by decide) hz8
    clear_value x7
    show Touches _ _ _
    refine Touches.ite ?_ ?_
    · refine hx7 _ _ ?_
      exact hx5
    · refine Touches.ite ?_ ?_
      · refine hx7 _ _ ?_
        exact hx5
      · refine Touches.ite ?_ ?_
        · refine hx7 _ _ ?_
          exact Touches.chain (State.dmaError_touches ..) (by decide) hx5
        · exact Touches.chain (State.injectFrame_touches ..) (by decide) hx5

theorem execPuntDelivery_touches (p0 : Fin 64) (p1 : List Byte) (s : State) :
    OutTouches [.cnt, .hif, .asc, .out] s (execPuntDelivery p0 p1 s) := by
  unfold execPuntDelivery
  extract_lets -merge -underBinder +onlyGivenNames x0
  clear_value x0
  refine OutTouches.ite ?_ ?_
  · show Touches _ _ _
    exact (Touches.rfl' _ s)
  · split
    rename_i v1 v2 v3 e4
    have hv3 : Touches [.cnt, .hif, .asc, .out] s v3 := by
      refine Touches.ofSnd e4 ?_
      exact Touches.chain (State.fetchNext_touches ..) (by decide) (Touches.rfl' _ s)
    extract_lets -merge -underBinder +onlyGivenNames x5
    clear_value x5
    refine OutTouches.ite ?_ ?_
    · show Touches _ _ _
      exact hv3
    · extract_lets -merge -underBinder +onlyGivenNames x6
      show Touches _ _ _
      refine Touches.chain (State.drainPunts_touches ..) (by decide) ?_
      refine Touches.set_hif (x := v3) ?_ (by decide)
      exact hv3

theorem execIrqCoalesceTimer_touches (p0 : Fin 64) (p1 : Fin 2) (s : State) :
    OutTouches [.hif, .out] s (execIrqCoalesceTimer p0 p1 s) := by
  unfold execIrqCoalesceTimer
  extract_lets -merge -underBinder +onlyGivenNames x0
  clear_value x0
  refine OutTouches.ite ?_ ?_
  · show Touches _ _ _
    exact (Touches.rfl' _ s)
  · show Touches _ _ _
    refine Touches.chain (State.fire_touches ..) (by decide) ?_
    refine Touches.set_hif (x := s) ?_ (by decide)
    exact (Touches.rfl' _ s)

theorem execResetDrain_touches (p0 : Path) (p1 : Fin 64) (s : State) :
    OutTouches Part.main s (execResetDrain p0 p1 s) := by
  unfold execResetDrain
  show Touches _ _ _
  refine State.allotWrite_touches (by decide) ?_ (fun z0 hz0 => ?_)
  · exact (Touches.rfl' _ s)
  · exact Touches.chain (State.beginReset_touches ..) (by decide) hz0

theorem execResetSquash_touches (p0 : Path) (p1 : Fin 64) (s : State) :
    OutTouches Part.main s (execResetSquash p0 p1 s) := by
  unfold execResetSquash
  show Touches _ _ _
  refine State.allotWrite_touches (by decide) ?_ (fun z0 hz0 => ?_)
  · exact (Touches.rfl' _ s)
  · exact Touches.chain (State.beginReset_touches ..) (by decide) hz0

theorem execAllotFreeze_touches (p0 : Path) (p1 : Fin 64) (s : State) :
    OutTouches [.regs, .cnt, .armed, .pow, .led, .hif, .sch, .cph, .yok, .out] s (execAllotFreeze p0 p1 s) := by
  unfold execAllotFreeze
  show Touches _ _ _
  refine State.allotWrite_touches (by decide) ?_ (fun z0 hz0 => ?_)
  · exact (Touches.rfl' _ s)
  · exact Touches.chain (State.beginFreeze_touches ..) (by decide) hz0

theorem execAllotThaw_touches (p0 : Path) (p1 : Fin 64) (s : State) :
    OutTouches [.regs, .cnt, .armed, .pow, .led, .hif, .yok, .out] s (execAllotThaw p0 p1 s) := by
  unfold execAllotThaw
  show Touches _ _ _
  refine State.allotWrite_touches (by decide) ?_ (fun z0 hz0 => ?_)
  · exact (Touches.rfl' _ s)
  · exact Touches.chain (State.thawAllot_touches ..) (by decide) hz0

theorem execAllotCmdUnknown_touches (p0 : Path) (p1 : Fin 16) (p2 : Fin 64) (s : State) :
    OutTouches [.regs, .cnt, .armed, .pow, .led, .hif, .yok, .out] s (execAllotCmdUnknown p0 p1 p2 s) := by
  unfold execAllotCmdUnknown
  refine OutTouches.ite ?_ ?_
  · show Touches _ _ _
    exact (Touches.rfl' _ s)
  · show Touches _ _ _
    refine State.allotWrite_touches (by decide) ?_ (fun z0 hz0 => ?_)
    · exact (Touches.rfl' _ s)
    · exact hz0

theorem execSelfReset_touches (p0 : Path) (p1 : Bool) (s : State) :
    OutTouches Part.main s (execSelfReset p0 p1 s) := by
  unfold execSelfReset
  show Touches _ _ _
  refine State.privWrite_touches (by decide) ?_ (fun z0 z1 hz1 => ?_)
  · exact (Touches.rfl' _ s)
  · extract_lets -merge -underBinder +onlyGivenNames x2
    clear_value x2
    refine Touches.ite ?_ ?_
    · exact Touches.chain (State.beginReset_touches ..) (by decide) hz1
    · exact hz1

theorem execDrainTimeout_touches (p0 : Fin 64) (s : State) :
    OutTouches Part.main s (execDrainTimeout p0 s) := by
  unfold execDrainTimeout
  extract_lets -merge -underBinder +onlyGivenNames x0
  clear_value x0
  extract_lets -merge -underBinder +onlyGivenNames x1
  have hx1 : ∀ z2, Touches Part.main s z2 → Touches Part.main s (x1 z2) := by
    intro z2 hz2
    unfold x1
    beta_reduce
    refine Touches.chain (State.squashAllot_touches ..) (by decide) ?_
    exact Touches.chain (State.noteFor_touches ..) (by decide) hz2
  clear_value x1
  refine OutTouches.ite ?_ ?_
  · extract_lets -merge -underBinder +onlyGivenNames x3
    clear_value x3
    extract_lets -merge -underBinder +onlyGivenNames x4
    have hx4 : Touches Part.main s x4 := by
      unfold x4
      refine Touches.set_hif (x := s) ?_ (by decide)
      exact (Touches.rfl' _ s)
    clear_value x4
    show Touches _ _ _
    refine Touches.chain (State.stepReset_touches ..) (by decide) ?_
    refine hx1 _ ?_
    exact hx4
  · refine OutTouches.ite ?_ ?_
    · show Touches _ _ _
      refine Touches.chain (State.endFreeze_touches ..) (by decide) ?_
      refine hx1 _ ?_
      exact (Touches.rfl' _ s)
    · show Touches _ _ _
      exact (Touches.rfl' _ s)

theorem execMigSave_touches (p0 : List Byte) (p1 : Bool) (s : State) :
    OutTouches [.regs, .cnt, .pow, .led, .hif, .asc, .yok, .out] s (execMigSave p0 p1 s) := by
  unfold execMigSave
  extract_lets -merge -underBinder +onlyGivenNames x0
  clear_value x0
  refine OutTouches.ite ?_ ?_
  · show Touches _ _ _
    exact (Touches.rfl' _ s)
  · split
    rename_i v1 v2 v3 e4
    have hv3 : Touches [.regs, .cnt, .pow, .led, .hif, .asc, .yok, .out] s v3 := by
      refine Touches.ofSnd e4 ?_
      exact Touches.chain (State.fetchNext_touches ..) (by decide) (Touches.rfl' _ s)
    extract_lets -merge -underBinder +onlyGivenNames x5
    have hx5 : Touches [.regs, .cnt, .pow, .led, .hif, .asc, .yok, .out] s x5 := by
      unfold x5
      exact Touches.chain (State.inc_touches ..) (by decide) hv3
    clear_value x5
    extract_lets -merge -underBinder +onlyGivenNames x6 x7 x8
    clear_value x6 x7 x8
    refine OutTouches.ite ?_ ?_
    · show Touches _ _ _
      exact Touches.chain (State.complete_touches ..) (by decide) hx5
    · refine OutTouches.ite ?_ ?_
      · show Touches _ _ _
        refine Touches.chain (State.complete_touches ..) (by decide) ?_
        exact Touches.chain (State.dmaError_touches ..) (by decide) hx5
      · split
        extract_lets -merge -underBinder +onlyGivenNames x9
        have hx9 : Touches [.regs, .cnt, .pow, .led, .hif, .asc, .yok, .out] s x9 := by
          unfold x9
          refine Touches.chain (State.capAssocs_touches ..) (by decide) ?_
          exact Touches.chain (State.dma_touches ..) (by decide) hx5
        clear_value x9
        show Touches _ _ _
        refine Touches.chain (State.complete_touches ..) (by decide) ?_
        exact Touches.chain (State.noteFor_touches ..) (by decide) hx9

theorem execMigRestore_touches (p0 : List Byte) (p1 : List Byte) (p2 : Bool) (s : State) :
    OutTouches Part.main s (execMigRestore p0 p1 p2 s) := by
  unfold execMigRestore
  extract_lets -merge -underBinder +onlyGivenNames x0
  clear_value x0
  refine OutTouches.ite ?_ ?_
  · show Touches _ _ _
    exact (Touches.rfl' _ s)
  · split
    rename_i v1 v2 v3 e4
    have hv3 : Touches Part.main s v3 := by
      refine Touches.ofSnd e4 ?_
      exact Touches.chain (State.fetchNext_touches ..) (by decide) (Touches.rfl' _ s)
    extract_lets -merge -underBinder +onlyGivenNames x5
    have hx5 : Touches Part.main s x5 := by
      unfold x5
      exact Touches.chain (State.inc_touches ..) (by decide) hv3
    clear_value x5
    extract_lets -merge -underBinder +onlyGivenNames x6
    clear_value x6
    extract_lets -merge -underBinder +onlyGivenNames x7
    have hx7 : ∀ z8 z9 z10, Touches Part.main s z8 → Touches Part.main s (x7 z8 z9 z10) := by
      intro z8 z9 z10 hz8
      unfold x7
      beta_reduce
      exact Touches.chain (State.complete_touches ..) (by decide) hz8
    clear_value x7
    extract_lets -merge -underBinder +onlyGivenNames x11 x12
    clear_value x11 x12
    refine OutTouches.ite ?_ ?_
    · show Touches _ _ _
      refine hx7 _ _ _ ?_
      exact Touches.chain (State.dmaError_touches ..) (by decide) hx5
    · refine OutTouches.ite ?_ ?_
      · show Touches _ _ _
        refine hx7 _ _ _ ?_
        exact hx5
      · split
        · extract_lets -merge -underBinder +onlyGivenNames x13
          clear_value x13
          refine OutTouches.ite ?_ ?_
          · show Touches _ _ _
            refine hx7 _ _ _ ?_
            exact hx5
          · split
            rename_i v14 v15 v16 e17
            have hv16 : Touches Part.main s v16 := by
              refine Touches.ofSnd e17 ?_
              exact Touches.chain (State.applyBlob_touches ..) (by decide) hx5
            show Touches _ _ _
            refine hx7 _ _ _ ?_
            exact hv16
        · show Touches _ _ _
          exact hx5

theorem execAllotCtrlWrite_touches (p0 : Path) (p1 : Fin 64) (p2 : Word) (s : State) :
    OutTouches [.regs, .cnt, .armed, .pow, .led, .hif, .yok, .out] s (execAllotCtrlWrite p0 p1 p2 s) := by
  unfold execAllotCtrlWrite
  show Touches _ _ _
  refine State.hostWrite_touches (by decide) ?_ (fun z0 hz0 => ?_)
  · exact (Touches.rfl' _ s)
  · exact Touches.chain (State.allotCtrlEffect_touches ..) (by decide) hz0

theorem execPcieLinkDown_touches (s : State) :
    OutTouches [.regs, .cnt, .pow, .led, .hif, .sch, .asc, .cph, .kvt, .yok, .out] s (execPcieLinkDown s) := by
  unfold execPcieLinkDown
  show Touches _ _ _
  exact Touches.chain (State.linkDown_touches ..) (by decide) (Touches.rfl' _ s)

theorem execPcieLinkUp_touches (p0 : Fin 8) (p1 : Fin 8) (s : State) :
    OutTouches [.regs, .cnt, .pow, .led, .hif, .yok, .out, .free] s (execPcieLinkUp p0 p1 s) := by
  unfold execPcieLinkUp
  extract_lets -merge -underBinder +onlyGivenNames x0
  clear_value x0
  refine OutTouches.ite ?_ ?_
  · show Touches _ _ _
    exact (Touches.rfl' _ s)
  · split
    rename_i v1 v2 v3 e4
    have hv3 : Touches [.regs, .cnt, .pow, .led, .hif, .yok, .out, .free] s v3 := by
      refine Touches.ofSnd e4 ?_
      exact Touches.chain (State.draw_touches ..) (by decide) (Touches.rfl' _ s)
    show Touches _ _ _
    refine Touches.chain (State.note_touches ..) (by decide) ?_
    refine Touches.set_hif (x := v3) ?_ (by decide)
    exact hv3

theorem execEntdaa_touches (p0 : Fin 128) (s : State) :
    OutTouches Part.note s (execEntdaa p0 s) := by
  unfold execEntdaa
  refine OutTouches.ite ?_ ?_
  · show Touches _ _ _
    exact Touches.chain (State.emit_touches ..) (by decide) (Touches.rfl' _ s)
  · show Touches _ _ _
    refine Touches.chain (State.note_touches ..) (by decide) ?_
    refine Touches.chain (State.inc_touches ..) (by decide) ?_
    refine Touches.set_hif (x := s) ?_ (by decide)
    exact (Touches.rfl' _ s)

theorem execSetdasa_touches (p0 : Fin 128) (p1 : Fin 128) (s : State) :
    OutTouches Part.note s (execSetdasa p0 p1 s) := by
  unfold execSetdasa
  refine OutTouches.ite ?_ ?_
  · show Touches _ _ _
    exact Touches.chain (State.emit_touches ..) (by decide) (Touches.rfl' _ s)
  · show Touches _ _ _
    beta_reduce
    refine Touches.set_hif ?_ (by decide)
    refine Touches.chain (State.note_touches ..) (by decide) ?_
    exact Touches.chain (State.inc_touches ..) (by decide) (Touches.rfl' _ s)

theorem execRstdaa_touches (s : State) :
    OutTouches Part.note s (execRstdaa s) := by
  unfold execRstdaa
  refine OutTouches.ite ?_ ?_
  · show Touches _ _ _
    exact Touches.chain (State.emit_touches ..) (by decide) (Touches.rfl' _ s)
  · extract_lets -merge -underBinder +onlyGivenNames x0
    have hx0 : Touches Part.note s x0 := by
      unfold x0
      exact Touches.chain (State.inc_touches ..) (by decide) (Touches.rfl' _ s)
    clear_value x0
    refine OutTouches.ite ?_ ?_
    · show Touches _ _ _
      refine Touches.chain (State.note_touches ..) (by decide) ?_
      refine Touches.set_hif (x := x0) ?_ (by decide)
      exact hx0
    · show Touches _ _ _
      exact hx0

theorem execRstact_touches (p0 : BitVec 8) (s : State) :
    OutTouches [.cnt, .hif, .out] s (execRstact p0 s) := by
  unfold execRstact
  refine OutTouches.ite ?_ ?_
  · show Touches _ _ _
    exact Touches.chain (State.emit_touches ..) (by decide) (Touches.rfl' _ s)
  · show Touches _ _ _
    refine Touches.chain (State.inc_touches ..) (by decide) ?_
    refine Touches.set_hif (x := s) ?_ (by decide)
    exact (Touches.rfl' _ s)

theorem execGetpid_touches (s : State) :
    OutTouches [.cnt, .out] s (execGetpid s) := by
  unfold execGetpid
  show Touches _ _ _
  refine State.i3cServe_touches (by decide) ?_ (fun z0 hz0 => ?_)
  · exact (Touches.rfl' _ s)
  · exact Touches.chain (State.i3cAnswer_touches ..) (by decide) hz0

theorem execGetbcr_touches (s : State) :
    OutTouches [.cnt, .out] s (execGetbcr s) := by
  unfold execGetbcr
  show Touches _ _ _
  refine State.i3cServe_touches (by decide) ?_ (fun z0 hz0 => ?_)
  · exact (Touches.rfl' _ s)
  · exact Touches.chain (State.i3cAnswer_touches ..) (by decide) hz0

theorem execGetdcr_touches (s : State) :
    OutTouches [.cnt, .out] s (execGetdcr s) := by
  unfold execGetdcr
  show Touches _ _ _
  refine State.i3cServe_touches (by decide) ?_ (fun z0 hz0 => ?_)
  · exact (Touches.rfl' _ s)
  · exact Touches.chain (State.i3cAnswer_touches ..) (by decide) hz0

theorem execGetstatus_touches (s : State) :
    OutTouches [.cnt, .out, .free] s (execGetstatus s) := by
  unfold execGetstatus
  show Touches _ _ _
  refine State.i3cServe_touches (by decide) ?_ (fun z0 hz0 => ?_)
  · exact (Touches.rfl' _ s)
  · split
    rename_i v1 v2 v3 e4
    have hv3 : Touches [.cnt, .out, .free] s v3 := by
      refine Touches.ofSnd e4 ?_
      exact Touches.chain (State.draw_touches ..) (by decide) hz0
    exact Touches.chain (State.i3cAnswer_touches ..) (by decide) hv3

theorem execGetmxds_touches (s : State) :
    OutTouches [.cnt, .out] s (execGetmxds s) := by
  unfold execGetmxds
  show Touches _ _ _
  refine State.i3cServe_touches (by decide) ?_ (fun z0 hz0 => ?_)
  · exact (Touches.rfl' _ s)
  · exact Touches.chain (State.i3cAnswer_touches ..) (by decide) hz0

theorem execGetmwl_touches (s : State) :
    OutTouches [.cnt, .out] s (execGetmwl s) := by
  unfold execGetmwl
  show Touches _ _ _
  refine State.i3cServe_touches (by decide) ?_ (fun z0 hz0 => ?_)
  · exact (Touches.rfl' _ s)
  · exact Touches.chain (State.i3cAnswer_touches ..) (by decide) hz0

theorem execGetmrl_touches (s : State) :
    OutTouches [.cnt, .out] s (execGetmrl s) := by
  unfold execGetmrl
  show Touches _ _ _
  refine State.i3cServe_touches (by decide) ?_ (fun z0 hz0 => ?_)
  · exact (Touches.rfl' _ s)
  · exact Touches.chain (State.i3cAnswer_touches ..) (by decide) hz0

theorem execSetmwl_touches (p0 : BitVec 16) (s : State) :
    OutTouches [.cnt, .hif, .out] s (execSetmwl p0 s) := by
  unfold execSetmwl
  show Touches _ _ _
  refine State.i3cServe_touches (by decide) ?_ (fun z0 hz0 => ?_)
  · exact (Touches.rfl' _ s)
  · refine Touches.set_hif (x := z0) ?_ (by decide)
    exact hz0

theorem execSetmrl_touches (p0 : BitVec 16) (s : State) :
    OutTouches [.cnt, .hif, .out] s (execSetmrl p0 s) := by
  unfold execSetmrl
  show Touches _ _ _
  refine State.i3cServe_touches (by decide) ?_ (fun z0 hz0 => ?_)
  · exact (Touches.rfl' _ s)
  · refine Touches.set_hif (x := z0) ?_ (by decide)
    exact hz0

theorem execEnec_touches (p0 : BitVec 8) (s : State) :
    OutTouches [.cnt, .hif, .out] s (execEnec p0 s) := by
  unfold execEnec
  show Touches _ _ _
  refine State.i3cServe_touches (by decide) ?_ (fun z0 hz0 => ?_)
  · exact (Touches.rfl' _ s)
  · refine Touches.set_hif (x := z0) ?_ (by decide)
    exact hz0

theorem execDisec_touches (p0 : BitVec 8) (s : State) :
    OutTouches [.cnt, .hif, .out] s (execDisec p0 s) := by
  unfold execDisec
  show Touches _ _ _
  refine State.i3cServe_touches (by decide) ?_ (fun z0 hz0 => ?_)
  · exact (Touches.rfl' _ s)
  · refine Touches.set_hif (x := z0) ?_ (by decide)
    exact hz0

theorem execRead32_touches (p0 : Fin 128) (p1 : BitVec 32) (s : State) :
    OutTouches Part.note s (execRead32 p0 p1 s) := by
  unfold execRead32
  refine OutTouches.ite ?_ ?_
  · show Touches _ _ _
    exact Touches.chain (State.emit_touches ..) (by decide) (Touches.rfl' _ s)
  · extract_lets -merge -underBinder +onlyGivenNames x0
    clear_value x0
    extract_lets -merge -underBinder +onlyGivenNames x1
    clear_value x1
    extract_lets -merge -underBinder +onlyGivenNames x2
    have hx2 : Touches Part.note s x2 := by
      unfold x2
      refine Touches.chain (State.inc_touches ..) (by decide) ?_
      refine Touches.set_hif (x := s) ?_ (by decide)
      exact (Touches.rfl' _ s)
    clear_value x2
    show Touches _ _ _
    refine Touches.ite ?_ ?_
    · exact hx2
    · exact Touches.chain (State.note_touches ..) (by decide) hx2

theorem execWrite32_touches (p0 : Fin 128) (p1 : BitVec 32) (p2 : BitVec 32) (s : State) :
    OutTouches Part.all s (execWrite32 p0 p1 p2 s) := by
  unfold execWrite32
  extract_lets -merge -underBinder +onlyGivenNames x0
  have hx0 : Touches Part.all s x0 := by
    unfold x0
    exact Touches.chain (State.inc_touches ..) (by decide) (Touches.rfl' _ s)
  try clear_value x0
  refine OutTouches.ite ?_ ?_
  · show Touches _ _ _
    exact Touches.chain (State.emit_touches ..) (by decide) (Touches.rfl' _ s)
  · refine OutTouches.ite ?_ ?_
    · show Touches _ _ _
      exact Touches.chain (State.note_touches ..) (by decide) hx0
    · split
      · exact OutTouches.chain (State.i3cCommand_touches (by assumption)) (List.Subset.refl _) hx0
      · show Touches _ _ _
        exact Touches.chain (State.writeReg_touches ..) (by decide) hx0

theorem execI3cPrivateRead_touches (p0 : Fin 128) (s : State) :
    OutTouches [.regs, .shadow, .cnt, .hif, .out] s (execI3cPrivateRead p0 s) := by
  unfold execI3cPrivateRead
  refine OutTouches.ite ?_ ?_
  · show Touches _ _ _
    exact Touches.chain (State.emit_touches ..) (by decide) (Touches.rfl' _ s)
  · extract_lets -merge -underBinder +onlyGivenNames x0
    have hx0 : Touches [.regs, .shadow, .cnt, .hif, .out] s x0 := by
      unfold x0
      exact Touches.chain (State.inc_touches ..) (by decide) (Touches.rfl' _ s)
    clear_value x0
    split
    · show Touches _ _ _
      exact Touches.chain (State.i3cAnswer_touches ..) (by decide) hx0
    · extract_lets -merge -underBinder +onlyGivenNames x1
      clear_value x1
      extract_lets -merge -underBinder +onlyGivenNames x2
      have hx2 : Touches [.regs, .shadow, .cnt, .hif, .out] s x2 := by
        unfold x2
        refine Touches.set_hif (x := x0) ?_ (by decide)
        exact hx0
      clear_value x2
      refine OutTouches.ite ?_ ?_
      · show Touches _ _ _
        exact Touches.chain (State.i3cAnswer_touches ..) (by decide) hx2
      · refine OutTouches.ite ?_ ?_
        · show Touches _ _ _
          exact Touches.chain (State.i3cAnswer_touches ..) (by decide) hx2
        · split
          rename_i v3 v4 v5 e6
          have hv5 : Touches [.regs, .shadow, .cnt, .hif, .out] s v5 := by
            refine Touches.ofSnd e6 ?_
            exact Touches.chain (State.readAt_touches ..) (by decide) hx2
          show Touches _ _ _
          exact Touches.chain (State.i3cAnswer_touches ..) (by decide) hv5

theorem execHotJoinRequest_touches (s : State) :
    OutTouches [.hif, .out] s (execHotJoinRequest s) := by
  unfold execHotJoinRequest
  refine OutTouches.ite ?_ ?_
  · show Touches _ _ _
    refine Touches.chain (State.emit_touches ..) (by decide) ?_
    refine Touches.set_hif (x := s) ?_ (by decide)
    exact (Touches.rfl' _ s)
  · show Touches _ _ _
    exact (Touches.rfl' _ s)

end Sys2Proof.Machine
end

