-- ==== Sys2Proof/Laws/TouchPresets.lean ====
section
/-! SUPPORT. What each operation of Machine/Presets.lean may touch. -/

namespace Sys2Proof.Machine

open Sys2Proof

set_option linter.unusedTactic false
set_option linter.unreachableTactic false

theorem State.applySensors_touches (s : State) :
    Touches [.regs] s (State.applySensors s) := by
  unfold State.applySensors
  refine Touches.foldl _ _ ?_ (fun y0 a0 hy0 => ?_)
  · exact (Touches.rfl' _ s)
  · split
    split
    refine Touches.chain (State.wr_touches ..) (by decide) ?_
    exact Touches.chain (State.wr_touches ..) (by decide) hy0

theorem State.applyWindows_touches (s : State) (p1 : Structure) :
    Touches [.regs] s (State.applyWindows s p1) := by
  unfold State.applyWindows
  split
  · exact (Touches.rfl' _ s)
  · extract_lets -merge -underBinder +onlyGivenNames x0
    clear_value x0
    refine Touches.foldl _ _ ?_ (fun y1 a1 hy1 => ?_)
    · exact (Touches.rfl' _ s)
    · exact Touches.chain (State.wr_touches ..) (by decide) hy1

theorem State.applyPreset_touches (s : State) (p1 : PresetEntry) :
    Touches Part.main s (State.applyPreset s p1) := by
  unfold State.applyPreset
  extract_lets -merge -underBinder +onlyGivenNames x0 x1
  clear_value x0 x1
  refine Touches.ite ?_ ?_
  · split
    · refine Touches.set_held (x := s) ?_ (by decide)
      exact (Touches.rfl' _ s)
    · exact Touches.chain (State.regEffect_touches ..) (by decide) (Touches.rfl' _ s)
  · exact (Touches.rfl' _ s)

theorem State.applyStructure_touches (s : State) (p1 : ℕ) (p2 : Structure) :
    Touches Part.main s (State.applyStructure s p1 p2) := by
  unfold State.applyStructure
  extract_lets -merge -underBinder +onlyGivenNames x0
  extract_lets -merge -underBinder +onlyGivenNames x1 x2 x3 x4
  clear_value x1 x2 x3 x4
  extract_lets -merge -underBinder +onlyGivenNames x5
  have hx5 : Touches Part.main s x5 := by
    unfold x5
    apply Touches.put (x := s)
    · and_intros <;> first | exact .inr (by decide) | exact .inl rfl | exact SMap.wf_set _ _ _ _ | exact SMap.wf_dropRange _ _ _ _ | exact SMap.wf_filter _ _ _ | exact fun h => by rw [Ledger.reset_log]; exact h | exact id | exact fun _ => rfl
    · exact (Touches.rfl' _ s)
  clear_value x5
  refine Touches.foldl _ _ ?_ (fun y6 a6 hy6 => ?_)
  · refine Touches.chain (State.applySensors_touches ..) (by decide) ?_
    exact Touches.chain (State.applyWindows_touches ..) (by decide) hx5
  · exact Touches.chain (State.applyPreset_touches ..) (by decide) hy6

theorem State.candidateLoaded_touches (s : State) (p1 : ℕ) :
    Touches Part.main s (State.candidateLoaded s p1) := by
  unfold State.candidateLoaded
  extract_lets -merge -underBinder +onlyGivenNames x0
  clear_value x0
  extract_lets -merge -underBinder +onlyGivenNames x1
  have hx1 : Touches Part.main s x1 := by
    unfold x1
    refine Touches.ite ?_ ?_
    · exact Touches.chain (State.storeMeta_touches ..) (by decide) (Touches.rfl' _ s)
    · refine Touches.ite ?_ ?_
      · exact Touches.chain (State.storeMeta_touches ..) (by decide) (Touches.rfl' _ s)
      · exact (Touches.rfl' _ s)
  clear_value x1
  extract_lets -merge -underBinder +onlyGivenNames x2
  have hx2 : Touches Part.main s x2 := by
    unfold x2
    refine Touches.ite ?_ ?_
    · exact Touches.chain (State.note_touches ..) (by decide) hx1
    · exact hx1
  clear_value x2
  refine Touches.set_boot (x := x2) ?_ (by decide) id id
  exact hx2

theorem State.candidateFailed_touches (s : State) (p1 : ℕ) (p2 : List ℕ) (p3 : EvKind) :
    Touches Part.main s (State.candidateFailed s p1 p2 p3) := by
  unfold State.candidateFailed
  extract_lets -merge -underBinder +onlyGivenNames x0
  have hx0 : Touches Part.main s x0 := by
    unfold x0
    exact Touches.chain (State.note_touches ..) (by decide) (Touches.rfl' _ s)
  clear_value x0
  extract_lets -merge -underBinder +onlyGivenNames x1
  have hx1 : Touches Part.main s x1 := by
    unfold x1
    refine Touches.ite ?_ ?_
    · exact hx0
    · exact Touches.chain (State.storeMeta_touches ..) (by decide) hx0
  clear_value x1
  exact Touches.chain (State.nextCandidate_touches ..) (by decide) hx1

theorem execImageCandidateRead_touches (p0 : Bool) (s : State) :
    OutTouches Part.main s (execImageCandidateRead p0 s) := by
  unfold execImageCandidateRead
  split
  · show Touches _ _ _
    exact (Touches.rfl' _ s)
  · refine OutTouches.ite ?_ ?_
    · show Touches _ _ _
      exact (Touches.rfl' _ s)
    · refine OutTouches.ite ?_ ?_
      · split
        rename_i v0 v1 v2 e3
        have hv1 : Touches Part.main s v1 := by
          refine Touches.ofFst e3 ?_
          exact Touches.chain (State.storeMeta_touches ..) (by decide) (Touches.rfl' _ s)
        show Touches _ _ _
        apply Touches.put (x := v1)
        · and_intros <;> first | exact .inr (by decide) | exact .inl rfl | exact SMap.wf_set _ _ _ _ | exact SMap.wf_dropRange _ _ _ _ | exact SMap.wf_filter _ _ _ | exact fun h => by rw [Ledger.reset_log]; exact h | exact id | exact fun _ => rfl
        · exact hv1
      · refine OutTouches.ite ?_ ?_
        · show Touches _ _ _
          refine Touches.set_held (x := s) ?_ (by decide)
          exact (Touches.rfl' _ s)
        · split
          · show Touches _ _ _
            exact Touches.chain (State.candidateFailed_touches ..) (by decide) (Touches.rfl' _ s)
          · extract_lets -merge -underBinder +onlyGivenNames x4
            clear_value x4
            refine OutTouches.ite ?_ ?_
            · show Touches _ _ _
              refine Touches.chain (State.candidateLoaded_touches ..) (by decide) ?_
              exact Touches.chain (State.applyStructure_touches ..) (by decide) (Touches.rfl' _ s)
            · show Touches _ _ _
              exact Touches.chain (State.candidateFailed_touches ..) (by decide) (Touches.rfl' _ s)

end Sys2Proof.Machine
end

