-- ==== Sys2Proof/Laws/TouchRegisters.lean ====
section
/-! SUPPORT. What each operation of Machine/Registers.lean may touch. -/

namespace Sys2Proof.Machine

open Sys2Proof

theorem execRegisterWrite_touches (p0 : Path) (p1 : BitVec 25) (p2 : Fin 5) (p3 : Word) (s : State) :
    OutTouches Part.main s (execRegisterWrite p0 p1 p2 p3 s) := by
  unfold execRegisterWrite
  refine OutTouches.ite ?_ ?_
  · show Touches _ _ _
    exact Touches.chain (State.emit_touches ..) (by decide) (Touches.rfl' _ s)
  · show Touches _ _ _
    exact Touches.chain (State.writeReg_touches ..) (by decide) (Touches.rfl' _ s)

theorem State.sizedRead_touches (s : State) (p1 : Path) (p2 : ℕ) (p3 : ℕ) :
    Touches [.regs, .shadow, .out] s (State.sizedRead s p1 p2 p3) := by
  unfold State.sizedRead
  refine Touches.ite ?_ ?_
  · exact Touches.chain (State.emit_touches ..) (by decide) (Touches.rfl' _ s)
  · exact Touches.chain (State.hostRead_touches ..) (by decide) (Touches.rfl' _ s)

theorem execWideValueLowRead_touches (p0 : Path) (p1 : BitVec 25) (p2 : Fin 5) (s : State) :
    OutTouches [.regs, .shadow, .out] s (execWideValueLowRead p0 p1 p2 s) := by
  unfold execWideValueLowRead
  show Touches _ _ _
  exact Touches.chain (State.sizedRead_touches ..) (by decide) (Touches.rfl' _ s)

theorem execRcFieldRead_touches (p0 : Path) (p1 : BitVec 25) (p2 : Fin 5) (s : State) :
    OutTouches [.regs, .shadow, .out] s (execRcFieldRead p0 p1 p2 s) := by
  unfold execRcFieldRead
  show Touches _ _ _
  exact Touches.chain (State.sizedRead_touches ..) (by decide) (Touches.rfl' _ s)

theorem execKvtArmWrite_touches (p0 : Path) (p1 : Word) (s : State) :
    OutTouches [.regs, .cnt, .armed, .pow, .led, .hif, .yok, .out] s (execKvtArmWrite p0 p1 s) := by
  unfold execKvtArmWrite
  show Touches _ _ _
  exact Touches.chain (State.armWrite_touches ..) (by decide) (Touches.rfl' _ s)

theorem execCalArmWrite_touches (p0 : Path) (p1 : Word) (s : State) :
    OutTouches [.regs, .cnt, .armed, .pow, .led, .hif, .yok, .out] s (execCalArmWrite p0 p1 s) := by
  unfold execCalArmWrite
  show Touches _ _ _
  exact Touches.chain (State.armWrite_touches ..) (by decide) (Touches.rfl' _ s)

theorem execYokeArmWrite_touches (p0 : Path) (p1 : Word) (s : State) :
    OutTouches [.regs, .cnt, .armed, .pow, .led, .hif, .yok, .out] s (execYokeArmWrite p0 p1 s) := by
  unfold execYokeArmWrite
  show Touches _ _ _
  exact Touches.chain (State.armWrite_touches ..) (by decide) (Touches.rfl' _ s)

theorem execImageArmWrite_touches (p0 : Path) (p1 : Word) (s : State) :
    OutTouches [.regs, .cnt, .armed, .pow, .led, .hif, .yok, .out] s (execImageArmWrite p0 p1 s) := by
  unfold execImageArmWrite
  show Touches _ _ _
  exact Touches.chain (State.armWrite_touches ..) (by decide) (Touches.rfl' _ s)

end Sys2Proof.Machine
end

