-- ==== Sys2Proof/Laws/TouchTick.lean ====
section
/-! SUPPORT. What each operation of Machine/Tick.lean may touch. -/

namespace Sys2Proof.Machine

open Sys2Proof

theorem State.sendEpoch_touches (s : State) :
    Touches [.yok, .out] s (State.sendEpoch s) := by
  unfold State.sendEpoch
  extract_lets -merge -underBinder +onlyGivenNames x0
  clear_value x0
  refine Touches.ite ?_ ?_
  · refine Touches.chain (State.convey_touches ..) (by decide) ?_
    refine Touches.set_yok (x := s) ?_ (by decide)
    exact (Touches.rfl' _ s)
  · exact (Touches.rfl' _ s)

theorem State.countHedge_touches (s : State) :
    Touches [.hdg] s (State.countHedge s) := by
  unfold State.countHedge
  refine Touches.ite ?_ ?_
  · exact (Touches.rfl' _ s)
  · refine Touches.set_hdg (x := s) ?_ (by decide)
    exact (Touches.rfl' _ s)

theorem State.tick_touches (s : State) :
    Touches Part.main s (State.tick s) := by
  unfold State.tick
  refine Touches.chain (State.stepAllots_touches ..) (by decide) ?_
  refine Touches.chain (State.sendEpoch_touches ..) (by decide) ?_
  refine Touches.chain (State.countHedge_touches ..) (by decide) ?_
  refine Touches.chain (State.ppsDown_touches ..) (by decide) ?_
  refine Touches.chain (State.advanceTime_touches ..) (by decide) ?_
  refine Touches.set_now (x := s) ?_ (by decide)
  exact (Touches.rfl' _ s)

end Sys2Proof.Machine
end

