-- ==== Sys2Proof/Laws/TouchYokeItems.lean ====
section
/-! SUPPORT. What each operation of Machine/YokeItems.lean may touch. -/

namespace Sys2Proof.Machine

open Sys2Proof

theorem State.recordDivergence_touches (s : State) (p1 : ℕ) (p2 : ℕ) (p3 : Bool) :
    Touches [.regs, .cnt] s (State.recordDivergence s p1 p2 p3) := by
  unfold State.recordDivergence
  refine Touches.chain (State.inc_touches ..) (by decide) ?_
  exact Touches.chain (State.wr_touches ..) (by decide) (Touches.rfl' _ s)

theorem State.declareClass_touches (s : State) (p1 : ℕ) :
    Touches Part.main s (State.declareClass s p1) := by
  unfold State.declareClass
  extract_lets -merge -underBinder +onlyGivenNames x0
  have hx0 : Touches Part.main s x0 := by
    unfold x0
    exact Touches.chain (State.recordDivergence_touches ..) (by decide) (Touches.rfl' _ s)
  clear_value x0
  extract_lets -merge -underBinder +onlyGivenNames x1
  have hx1 : Touches Part.main s x1 := by
    unfold x1
    refine Touches.ite ?_ ?_
    · refine Touches.chain (State.note_touches ..) (by decide) ?_
      exact Touches.chain (State.inc_touches ..) (by decide) hx0
    · exact hx0
  clear_value x1
  refine Touches.ite ?_ ?_
  · refine Touches.chain (State.divertResync_touches ..) (by decide) ?_
    exact Touches.chain (State.note_touches ..) (by decide) hx1
  · refine Touches.set_yok (x := x1) ?_ (by decide)
    exact hx1

theorem State.decision_touches {m : List Part} {s : State} {x : State} {p1 : Bool} {p2 : State → State} (hm : Part.main ⊆ m) (hx : Touches m s x) (k2 : ∀ z0, Touches m s z0 → Touches m s (p2 z0)) :
    Touches m s (State.decision x p1 p2) := by
  unfold State.decision
  refine Touches.ite ?_ ?_
  · exact hx
  · refine Touches.ite ?_ ?_
    · refine k2 _ ?_
      exact Touches.chain (State.inc_touches ..) (List.Subset.trans (by decide) hm) hx
    · exact Touches.chain (State.declareClass_touches ..) (List.Subset.trans (by decide) hm) hx

theorem State.reverse_touches {m : List Part} {s : State} {x : State} {p1 : Bool} {p2 : State → State} (hm : [.cnt] ⊆ m) (hx : Touches m s x) (k2 : ∀ z0, Touches m s z0 → Touches m s (p2 z0)) :
    Touches m s (State.reverse x p1 p2) := by
  unfold State.reverse
  refine Touches.ite ?_ ?_
  · refine k2 _ ?_
    exact Touches.chain (State.inc_touches ..) (List.Subset.trans (by decide) hm) hx
  · exact hx

theorem State.setBlock_touches (s : State) (p1 : ℕ) :
    Touches [.line] s (State.setBlock s p1) := by
  unfold State.setBlock
  refine Touches.set_line (x := s) ?_ (by decide)
  exact (Touches.rfl' _ s)

theorem State.resyncStep_touches (s : State) (p1 : ℕ) :
    Touches [.yok, .out] s (State.resyncStep s p1) := by
  unfold State.resyncStep
  refine Touches.chain (State.reportState_touches ..) (by decide) ?_
  refine Touches.set_yok (x := s) ?_ (by decide)
  exact (Touches.rfl' _ s)

theorem State.queueDrained_touches (s : State) :
    Touches [.yok, .out] s (State.queueDrained s) := by
  unfold State.queueDrained
  refine Touches.ite ?_ ?_
  · refine Touches.chain (State.resyncStep_touches ..) (by decide) ?_
    refine Touches.set_yok (x := s) ?_ (by decide)
    exact (Touches.rfl' _ s)
  · exact (Touches.rfl' _ s)

theorem State.epochItem_touches (s : State) (p1 : ℕ) :
    Touches Part.main s (State.epochItem s p1) := by
  unfold State.epochItem
  refine Touches.ite ?_ ?_
  · refine Touches.ite ?_ ?_
    · exact Touches.chain (State.declareClass_touches ..) (by decide) (Touches.rfl' _ s)
    · refine Touches.set_yok (x := s) ?_ (by decide)
      exact (Touches.rfl' _ s)
  · extract_lets -merge -underBinder +onlyGivenNames x0
    extract_lets -merge -underBinder +onlyGivenNames x1
    have hx1 : Touches Part.main s x1 := by
      unfold x1
      refine Touches.set_yok (x := s) ?_ (by decide)
      exact (Touches.rfl' _ s)
    refine Touches.ite ?_ ?_
    · refine Touches.chain (State.resyncStep_touches ..) (by decide) ?_
      exact Touches.chain (State.setBlock_touches ..) (by decide) hx1
    · refine Touches.ite ?_ ?_
      · refine Touches.chain (State.queueDrained_touches ..) (by decide) ?_
        exact Touches.chain (State.resyncStep_touches ..) (by decide) hx1
      · exact Touches.chain (State.queueDrained_touches ..) (by decide) hx1

theorem execStreamEpoch_touches (p0 : List Byte) (s : State) :
    OutTouches Part.main s (execStreamEpoch p0 s) := by
  unfold execStreamEpoch
  show Touches _ _ _
  refine State.decision_touches (by decide) ?_ (fun z0 hz0 => ?_)
  · exact (Touches.rfl' _ s)
  · refine Touches.chain (State.epochItem_touches ..) (by decide) ?_
    refine Touches.set_yok (x := z0) ?_ (by decide)
    exact hz0

theorem State.freeAssoc_touches (s : State) :
    Touches [.free] s (State.freeAssoc s).2 := by
  unfold State.freeAssoc
  split
  rename_i v0 v1 v2 e3
  have hv2 : Touches [.free] s v2 := by
    refine Touches.ofSnd e3 ?_
    exact Touches.chain (State.draw_touches ..) (by decide) (Touches.rfl' _ s)
  exact hv2

theorem State.phantomOf_touches (s : State) (p1 : ℕ) (p2 : ℕ) :
    Touches [.sch, .free] s (State.phantomOf s p1 p2).2 := by
  unfold State.phantomOf
  split
  rename_i v0 v1 v2 e3
  have hv2 : Touches [.sch, .free] s v2 := by
    refine Touches.ofSnd e3 ?_
    exact Touches.chain (State.freeAssoc_touches ..) (by decide) (Touches.rfl' _ s)
  split
  rename_i v4 v5 v6 e7
  have hv6 : Touches [.sch, .free] s v6 := by
    refine Touches.ofSnd e7 ?_
    exact Touches.chain (State.draw_touches ..) (by decide) hv2
  extract_lets -merge -underBinder +onlyGivenNames x8
  clear_value x8
  refine Touches.ite2 ?_ ?_
  · extract_lets -merge -underBinder +onlyGivenNames x9
    clear_value x9
    exact hv6
  · extract_lets -merge -underBinder +onlyGivenNames x10
    clear_value x10
    extract_lets -merge -underBinder +onlyGivenNames x11
    clear_value x11
    refine Touches.mk2 ?_
    refine Touches.set_sch (x := v6) ?_ (by decide)
    exact hv6

theorem State.admitPhantom_touches (s : State) (p1 : Frame) :
    Touches Part.main s (State.admitPhantom s p1) := by
  unfold State.admitPhantom
  extract_lets -merge -underBinder +onlyGivenNames x0
  have hx0 : Touches Part.main s x0 := by
    unfold x0
    refine Touches.chain (State.excuse_touches ..) (by decide) ?_
    refine Touches.chain (State.inc_touches ..) (by decide) ?_
    exact Touches.chain (State.admitFrame_touches ..) (by decide) (Touches.rfl' _ s)
  clear_value x0
  exact Touches.chain (State.noteFor_touches ..) (by decide) hx0

theorem State.discardUnmatched_touches (s : State) (p1 : List Frame) :
    Touches [.regs, .cnt, .pow, .led, .hif, .cph, .kvt, .yok, .out] s (State.discardUnmatched s p1) := by
  unfold State.discardUnmatched
  refine Touches.chain (State.incBy_touches ..) (by decide) ?_
  refine Touches.foldl _ _ ?_ (fun y0 a0 hy0 => ?_)
  · exact (Touches.rfl' _ s)
  · exact Touches.chain (State.notAdmitted_touches ..) (by decide) hy0

theorem State.noteSkew_touches (s : State) (p1 : ℕ) (p2 : ℕ) :
    Touches [.yok] s (State.noteSkew s p1 p2) := by
  unfold State.noteSkew
  extract_lets -merge -underBinder +onlyGivenNames x0
  clear_value x0
  refine Touches.ite ?_ ?_
  · refine Touches.set_yok (x := s) ?_ (by decide)
    exact (Touches.rfl' _ s)
  · exact (Touches.rfl' _ s)

theorem State.frameRecordItem_touches (s : State) (p1 : ℕ) (p2 : ℕ) (p3 : ℕ) (p4 : ℕ) :
    Touches Part.main s (State.frameRecordItem s p1 p2 p3 p4) := by
  unfold State.frameRecordItem
  extract_lets -merge -underBinder +onlyGivenNames x0
  have hx0 : Touches Part.main s x0 := by
    unfold x0
    exact Touches.chain (State.inc_touches ..) (by decide) (Touches.rfl' _ s)
  refine Touches.ite ?_ ?_
  · exact Touches.chain (State.declareClass_touches ..) (by decide) hx0
  · refine Touches.ite ?_ ?_
    · split
      rename_i v1 v2 v3 e4
      have hv3 : Touches Part.main s v3 := by
        refine Touches.ofSnd e4 ?_
        exact Touches.chain (State.phantomOf_touches ..) (by decide) hx0
      exact Touches.chain (State.takeRecNo_touches ..) (by decide) hv3
    · extract_lets -merge -underBinder +onlyGivenNames x5
      extract_lets -merge -underBinder +onlyGivenNames x6
      clear_value x6
      split
      · extract_lets -merge -underBinder +onlyGivenNames x7
        extract_lets -merge -underBinder +onlyGivenNames x8
        have hx8 : Touches Part.main s x8 := by
          unfold x8
          refine Touches.set_yok (x := x0) ?_ (by decide)
          exact hx0
        extract_lets -merge -underBinder +onlyGivenNames x9
        have hx9 : Touches Part.main s x9 := by
          unfold x9
          refine Touches.chain (State.noteSkew_touches ..) (by decide) ?_
          exact Touches.chain (State.discardUnmatched_touches ..) (by decide) hx8
        extract_lets -merge -underBinder +onlyGivenNames x10
        refine Touches.ite ?_ ?_
        · exact Touches.chain (State.admitPhantom_touches ..) (by decide) hx9
        · exact Touches.chain (State.admitFrame_touches ..) (by decide) hx9
      · split
        rename_i v11 v12 v13 e14
        have hv13 : Touches Part.main s v13 := by
          refine Touches.ofSnd e14 ?_
          exact Touches.chain (State.phantomOf_touches ..) (by decide) hx0
        exact Touches.chain (State.admitPhantom_touches ..) (by decide) hv13

theorem execFrameRecord_touches (p0 : BitVec 48) (s : State) :
    OutTouches Part.main s (execFrameRecord p0 s) := by
  unfold execFrameRecord
  extract_lets -merge -underBinder +onlyGivenNames x0
  clear_value x0
  refine OutTouches.ite ?_ ?_
  · show Touches _ _ _
    exact (Touches.rfl' _ s)
  · refine OutTouches.ite ?_ ?_
    · show Touches _ _ _
      exact Touches.chain (State.declareClass_touches ..) (by decide) (Touches.rfl' _ s)
    · show Touches _ _ _
      exact Touches.chain (State.frameRecordItem_touches ..) (by decide) (Touches.rfl' _ s)

theorem execUnmatchedDiscard_touches (p0 : Fin 544) (s : State) :
    OutTouches [.regs, .cnt, .pow, .led, .hif, .cph, .kvt, .yok, .out] s (execUnmatchedDiscard p0 s) := by
  unfold execUnmatchedDiscard
  split
  · show Touches _ _ _
    exact (Touches.rfl' _ s)
  · refine OutTouches.ite ?_ ?_
    · show Touches _ _ _
      exact (Touches.rfl' _ s)
    · extract_lets -merge -underBinder +onlyGivenNames x0
      clear_value x0
      extract_lets -merge -underBinder +onlyGivenNames x1
      have hx1 : Touches [.regs, .cnt, .pow, .led, .hif, .cph, .kvt, .yok, .out] s x1 := by
        unfold x1
        refine Touches.set_yok (x := s) ?_ (by decide)
        exact (Touches.rfl' _ s)
      clear_value x1
      show Touches _ _ _
      exact Touches.chain (State.discardUnmatched_touches ..) (by decide) hx1

theorem State.verdictItem_touches (s : State) (p1 : ℕ) (p2 : ℕ) (p3 : ℕ) :
    Touches [.regs, .cnt, .pow, .led, .hif, .sch, .asc, .yok, .out] s (State.verdictItem s p1 p2 p3) := by
  unfold State.verdictItem
  extract_lets -merge -underBinder +onlyGivenNames x0
  have hx0 : Touches [.regs, .cnt, .pow, .led, .hif, .sch, .asc, .yok, .out] s x0 := by
    unfold x0
    exact Touches.chain (State.inc_touches ..) (by decide) (Touches.rfl' _ s)
  clear_value x0
  split
  · exact hx0
  · refine Touches.ite ?_ ?_
    · exact Touches.chain (State.setVerdict_touches ..) (by decide) hx0
    · refine Touches.ite ?_ ?_
      · exact Touches.chain (State.icvFail_touches ..) (by decide) hx0
      · refine Touches.ite ?_ ?_
        · exact Touches.chain (State.rejectFrame_touches ..) (by decide) hx0
        · refine Touches.ite ?_ ?_
          · refine Touches.chain (State.modFrame_touches ..) (by decide) ?_
            exact Touches.chain (State.setVerdict_touches ..) (by decide) hx0
          · exact Touches.chain (State.setVerdict_touches ..) (by decide) hx0

theorem execStreamVerdict_touches (p0 : List Byte) (s : State) :
    OutTouches Part.main s (execStreamVerdict p0 s) := by
  unfold execStreamVerdict
  show Touches _ _ _
  refine State.decision_touches (by decide) ?_ (fun z0 hz0 => ?_)
  · exact (Touches.rfl' _ s)
  · exact Touches.chain (State.verdictItem_touches ..) (by decide) hz0

theorem State.sheafVerdictItem_touches (s : State) (p1 : ℕ) (p2 : ℕ) (p3 : ℕ) :
    Touches Part.main s (State.sheafVerdictItem s p1 p2 p3) := by
  unfold State.sheafVerdictItem
  extract_lets -merge -underBinder +onlyGivenNames x0
  have hx0 : Touches Part.main s x0 := by
    unfold x0
    exact Touches.chain (State.inc_touches ..) (by decide) (Touches.rfl' _ s)
  clear_value x0
  split
  · exact hx0
  · extract_lets -merge -underBinder +onlyGivenNames x1
    have hx1 : Touches Part.main s x1 := by
      unfold x1
      refine Touches.ite ?_ ?_
      · refine Touches.chain (State.noteTagFail_touches ..) (by decide) ?_
        exact Touches.chain (State.cloakTagFailed_touches ..) (by decide) hx0
      · refine Touches.ite ?_ ?_
        · refine Touches.chain (State.noteFor_touches ..) (by decide) ?_
          exact Touches.chain (State.modCtx_touches ..) (by decide) hx0
        · refine Touches.ite ?_ ?_
          · exact Touches.chain (State.rxCount_touches ..) (by decide) hx0
          · exact hx0
    clear_value x1
    split
    · refine Touches.ite ?_ ?_
      · extract_lets -merge -underBinder +onlyGivenNames x2
        clear_value x2
        extract_lets -merge -underBinder +onlyGivenNames x3
        have hx3 : Touches Part.main s x3 := by
          unfold x3
          refine Touches.set_asc (x := x1) ?_ (by decide)
          exact hx1
        clear_value x3
        refine Touches.chain (State.tribLost_touches ..) (by decide) ?_
        refine Touches.chain (State.settleBare_touches ..) (by decide) ?_
        exact Touches.chain (State.endCloakItem_touches ..) (by decide) hx3
      · exact hx1
    · exact hx1

theorem execSheafVerdict_touches (p0 : List Byte) (s : State) :
    OutTouches Part.main s (execSheafVerdict p0 s) := by
  unfold execSheafVerdict
  show Touches _ _ _
  refine State.decision_touches (by decide) ?_ (fun z0 hz0 => ?_)
  · exact (Touches.rfl' _ s)
  · exact Touches.chain (State.sheafVerdictItem_touches ..) (by decide) hz0

theorem State.takeAlt_touches (s : State) (p1 : ℕ) (p2 : List Byte) :
    Touches [.cls] s (State.takeAlt s p1 p2) := by
  unfold State.takeAlt
  refine Touches.chain (State.quotaSettle_touches ..) (by decide) ?_
  refine Touches.set_cls (x := s) ?_ (by decide)
  exact (Touches.rfl' _ s)

theorem execClsCommit_touches (p0 : List Byte) (s : State) :
    OutTouches Part.main s (execClsCommit p0 s) := by
  unfold execClsCommit
  show Touches _ _ _
  refine State.decision_touches (by decide) ?_ (fun z0 hz0 => ?_)
  · exact (Touches.rfl' _ s)
  · extract_lets -merge -underBinder +onlyGivenNames x1
    clear_value x1
    extract_lets -merge -underBinder +onlyGivenNames x2
    clear_value x2
    extract_lets -merge -underBinder +onlyGivenNames x3
    have hx3 : Touches Part.main s x3 := by
      unfold x3
      refine Touches.ite ?_ ?_
      · refine Touches.set_yok (x := z0) ?_ (by decide)
        exact hz0
      · exact hz0
    clear_value x3
    refine Touches.ite ?_ ?_
    · exact Touches.chain (State.takeAlt_touches ..) (by decide) hx3
    · exact hx3

theorem State.takeSci_touches (s : State) (p1 : ℕ) (p2 : List Byte) :
    Touches [.asc] s (State.takeSci s p1 p2) := by
  unfold State.takeSci
  refine Touches.set_asc (x := s) ?_ (by decide)
  exact (Touches.rfl' _ s)

theorem execSciCommit_touches (p0 : List Byte) (s : State) :
    OutTouches Part.main s (execSciCommit p0 s) := by
  unfold execSciCommit
  show Touches _ _ _
  refine State.decision_touches (by decide) ?_ (fun z0 hz0 => ?_)
  · exact (Touches.rfl' _ s)
  · extract_lets -merge -underBinder +onlyGivenNames x1
    clear_value x1
    refine Touches.ite ?_ ?_
    · exact Touches.chain (State.takeSci_touches ..) (by decide) hz0
    · exact hz0

theorem State.persistOwn_touches (s : State) (p1 : ℕ) (p2 : Ctx) :
    Touches Part.main s (State.persistOwn s p1 p2) := by
  unfold State.persistOwn
  refine Touches.ite ?_ ?_
  · extract_lets -merge -underBinder +onlyGivenNames x0
    clear_value x0
    split
    rename_i v1 v2 v3 e4
    have hv3 : Touches Part.main s v3 := by
      refine Touches.ofSnd e4 ?_
      exact Touches.chain (State.sealRec_touches ..) (by decide) (Touches.rfl' _ s)
    split
    rename_i v5 v6 v7 e8
    have hv6 : Touches Part.main s v6 := by
      refine Touches.ofFst e8 ?_
      exact Touches.chain (State.storeSealed_touches ..) (by decide) hv3
    refine Touches.ite ?_ ?_
    · refine Touches.set_asc (x := v6) ?_ (by decide)
      exact hv6
    · exact hv6
  · exact Touches.chain (State.freeRecords_touches ..) (by decide) (Touches.rfl' _ s)

theorem State.ascCommitItem_touches (s : State) (p1 : ℕ) (p2 : ℕ) (p3 : ℕ) (p4 : List Byte) :
    Touches Part.main s (State.ascCommitItem s p1 p2 p3 p4) := by
  unfold State.ascCommitItem
  extract_lets -merge -underBinder +onlyGivenNames x0
  clear_value x0
  split
  · refine Touches.chain (State.persistOwn_touches ..) (by decide) ?_
    refine Touches.chain (State.commitCtx_touches ..) (by decide) ?_
    exact Touches.chain (State.setCtx_touches ..) (by decide) (Touches.rfl' _ s)
  · extract_lets -merge -underBinder +onlyGivenNames x1
    clear_value x1
    extract_lets -merge -underBinder +onlyGivenNames x2
    clear_value x2
    extract_lets -merge -underBinder +onlyGivenNames x3
    have hx3 : Touches Part.main s x3 := by
      unfold x3
      exact Touches.chain (State.setCtx_touches ..) (by decide) (Touches.rfl' _ s)
    clear_value x3
    extract_lets -merge -underBinder +onlyGivenNames x4
    have hx4 : Touches Part.main s x4 := by
      unfold x4
      refine Touches.ite ?_ ?_
      · exact Touches.chain (State.rebuild_touches ..) (by decide) hx3
      · exact hx3
    clear_value x4
    refine Touches.chain (State.persistOwn_touches ..) (by decide) ?_
    exact Touches.chain (State.commitCtx_touches ..) (by decide) hx4
  · extract_lets -merge -underBinder +onlyGivenNames x5
    have hx5 : Touches Part.main s x5 := by
      unfold x5
      exact Touches.chain (State.setCtx_touches ..) (by decide) (Touches.rfl' _ s)
    clear_value x5
    extract_lets -merge -underBinder +onlyGivenNames x6
    refine Touches.chain (State.freeRecords_touches ..) (by decide) ?_
    refine Touches.set_asc (x := x5) ?_ (by decide)
    exact hx5
  · exact (Touches.rfl' _ s)

theorem execAscCommit_touches (p0 : List Byte) (s : State) :
    OutTouches Part.main s (execAscCommit p0 s) := by
  unfold execAscCommit
  show Touches _ _ _
  refine State.decision_touches (by decide) ?_ (fun z0 hz0 => ?_)
  · exact (Touches.rfl' _ s)
  · extract_lets -merge -underBinder +onlyGivenNames x1
    clear_value x1
    refine Touches.ite ?_ ?_
    · exact Touches.chain (State.ascCommitItem_touches ..) (by decide) hz0
    · exact hz0

theorem State.rotateItem_touches (s : State) (p1 : ℕ) (p2 : ℕ) (p3 : Ctx) :
    Touches Part.main s (State.rotateItem s p1 p2 p3) := by
  unfold State.rotateItem
  extract_lets -merge -underBinder +onlyGivenNames x0 x1
  clear_value x0 x1
  extract_lets -merge -underBinder +onlyGivenNames x2
  have hx2 : Touches Part.main s x2 := by
    unfold x2
    refine Touches.chain (State.startHold_touches ..) (by decide) ?_
    exact Touches.chain (State.setCtx_touches ..) (by decide) (Touches.rfl' _ s)
  clear_value x2
  extract_lets -merge -underBinder +onlyGivenNames x3
  have hx3 : Touches Part.main s x3 := by
    unfold x3
    exact Touches.chain (State.storePn_touches ..) (by decide) hx2
  clear_value x3
  exact Touches.chain (State.noteFor_touches ..) (by decide) hx3

theorem State.ascEventItem_touches (s : State) (p1 : ℕ) (p2 : ℕ) (p3 : ℕ) :
    Touches Part.main s (State.ascEventItem s p1 p2 p3) := by
  unfold State.ascEventItem
  split
  · exact (Touches.rfl' _ s)
  · split
    · exact Touches.chain (State.rotateItem_touches ..) (by decide) (Touches.rfl' _ s)
    · exact Touches.chain (State.primarySwitch_touches ..) (by decide) (Touches.rfl' _ s)
    · extract_lets -merge -underBinder +onlyGivenNames x0
      have hx0 : Touches Part.main s x0 := by
        unfold x0
        exact Touches.chain (State.setCtx_touches ..) (by decide) (Touches.rfl' _ s)
      clear_value x0
      refine Touches.chain (State.noteFor_touches ..) (by decide) ?_
      exact Touches.chain (State.eraseSlot_touches ..) (by decide) hx0
    · extract_lets -merge -underBinder +onlyGivenNames x1
      clear_value x1
      exact Touches.chain (State.setCtx_touches ..) (by decide) (Touches.rfl' _ s)
    · exact Touches.chain (State.setCtx_touches ..) (by decide) (Touches.rfl' _ s)
    · exact (Touches.rfl' _ s)

theorem execAscEvent_touches (p0 : List Byte) (s : State) :
    OutTouches Part.main s (execAscEvent p0 s) := by
  unfold execAscEvent
  show Touches _ _ _
  refine State.decision_touches (by decide) ?_ (fun z0 hz0 => ?_)
  · exact (Touches.rfl' _ s)
  · exact Touches.chain (State.ascEventItem_touches ..) (by decide) hz0

theorem execFlipItem_touches (p0 : List Byte) (s : State) :
    OutTouches Part.main s (execFlipItem p0 s) := by
  unfold execFlipItem
  show Touches _ _ _
  refine State.decision_touches (by decide) ?_ (fun z0 hz0 => ?_)
  · exact (Touches.rfl' _ s)
  · extract_lets -merge -underBinder +onlyGivenNames x1
    clear_value x1
    extract_lets -merge -underBinder +onlyGivenNames x2
    clear_value x2
    split
    · extract_lets -merge -underBinder +onlyGivenNames x3
      have hx3 : Touches Part.main s x3 := by
        unfold x3
        exact Touches.chain (State.setCtx_touches ..) (by decide) hz0
      clear_value x3
      exact Touches.chain (State.setPages_touches ..) (by decide) hx3
    · exact hz0

theorem State.kvtCommitItem_touches (s : State) (p1 : ℕ) (p2 : ℕ) (p3 : Word) (p4 : List Byte) :
    Touches Part.main s (State.kvtCommitItem s p1 p2 p3 p4) := by
  unfold State.kvtCommitItem
  refine Touches.ite ?_ ?_
  · exact Touches.chain (State.eraseSlot_touches ..) (by decide) (Touches.rfl' _ s)
  · split
    · exact Touches.chain (State.declareClass_touches ..) (by decide) (Touches.rfl' _ s)
    · extract_lets -merge -underBinder +onlyGivenNames x0
      have hx0 : Touches Part.main s x0 := by
        unfold x0
        refine Touches.chain (State.kvtCount_touches ..) (by decide) ?_
        exact Touches.chain (State.installKey_touches ..) (by decide) (Touches.rfl' _ s)
      clear_value x0
      extract_lets -merge -underBinder +onlyGivenNames x1
      have hx1 : Touches Part.main s x1 := by
        unfold x1
        split
        · refine Touches.ite ?_ ?_
          · exact Touches.chain (State.startRxSa_touches ..) (by decide) hx0
          · exact hx0
        · exact hx0
      clear_value x1
      exact Touches.chain (State.sealSlot_touches ..) (by decide) hx1

theorem execKvtCommit_touches (p0 : List Byte) (s : State) :
    OutTouches Part.main s (execKvtCommit p0 s) := by
  unfold execKvtCommit
  show Touches _ _ _
  refine State.decision_touches (by decide) ?_ (fun z0 hz0 => ?_)
  · exact (Touches.rfl' _ s)
  · split
    · exact hz0
    · refine Touches.ite ?_ ?_
      · exact Touches.chain (State.kvtCommitItem_touches ..) (by decide) hz0
      · exact hz0

theorem execRegWrite_touches (p0 : List Byte) (s : State) :
    OutTouches Part.main s (execRegWrite p0 s) := by
  unfold execRegWrite
  show Touches _ _ _
  refine State.decision_touches (by decide) ?_ (fun z0 hz0 => ?_)
  · exact (Touches.rfl' _ s)
  · extract_lets -merge -underBinder +onlyGivenNames x1
    clear_value x1
    refine Touches.ite ?_ ?_
    · exact Touches.chain (State.regEffect_touches ..) (by decide) hz0
    · exact hz0

theorem execSchCommit_touches (p0 : List Byte) (s : State) :
    OutTouches Part.main s (execSchCommit p0 s) := by
  unfold execSchCommit
  show Touches _ _ _
  refine State.decision_touches (by decide) ?_ (fun z0 hz0 => ?_)
  · exact (Touches.rfl' _ s)
  · extract_lets -merge -underBinder +onlyGivenNames x1
    clear_value x1
    extract_lets -merge -underBinder +onlyGivenNames x2
    clear_value x2
    refine Touches.ite ?_ ?_
    · exact Touches.chain (State.tblWrite_touches ..) (by decide) hz0
    · exact hz0

theorem execTimemap_touches (p0 : List Byte) (s : State) :
    OutTouches Part.main s (execTimemap p0 s) := by
  unfold execTimemap
  show Touches _ _ _
  refine State.decision_touches (by decide) ?_ (fun z0 hz0 => ?_)
  · exact (Touches.rfl' _ s)
  · extract_lets -merge -underBinder +onlyGivenNames x1
    clear_value x1
    extract_lets -merge -underBinder +onlyGivenNames x2
    clear_value x2
    exact Touches.chain (State.setChan_touches ..) (by decide) hz0

theorem State.apsItem_touches (s : State) (p1 : ℕ) (p2 : ℕ) (p3 : ℕ) (p4 : ℕ) (p5 : List Byte) :
    Touches [.regs, .cnt, .pow, .led, .hif, .line, .rows, .yok, .out] s (State.apsItem s p1 p2 p3 p4 p5) := by
  unfold State.apsItem
  extract_lets -merge -underBinder +onlyGivenNames x0
  clear_value x0
  refine Touches.chain (State.apsDue_touches ..) (by decide) ?_
  exact Touches.chain (State.setPair_touches ..) (by decide) (Touches.rfl' _ s)

theorem State.rixItem_touches (s : State) (p1 : ℕ) (p2 : ℕ) (p3 : ℕ) (p4 : ℕ) (p5 : List Byte) :
    Touches [.regs, .cnt, .pow, .led, .hif, .line, .rows, .yok, .out] s (State.rixItem s p1 p2 p3 p4 p5) := by
  unfold State.rixItem
  split
  · refine Touches.ite ?_ ?_
    · exact Touches.chain (State.apsItem_touches ..) (by decide) (Touches.rfl' _ s)
    · exact (Touches.rfl' _ s)
  · refine Touches.ite ?_ ?_
    · exact (Touches.rfl' _ s)
    · exact Touches.chain (State.setPages_touches ..) (by decide) (Touches.rfl' _ s)
  · refine Touches.ite ?_ ?_
    · exact (Touches.rfl' _ s)
    · exact Touches.chain (State.setPages_touches ..) (by decide) (Touches.rfl' _ s)
  · exact (Touches.rfl' _ s)

theorem execRixItem_touches (p0 : List Byte) (s : State) :
    OutTouches Part.main s (execRixItem p0 s) := by
  unfold execRixItem
  show Touches _ _ _
  refine State.decision_touches (by decide) ?_ (fun z0 hz0 => ?_)
  · exact (Touches.rfl' _ s)
  · exact Touches.chain (State.rixItem_touches ..) (by decide) hz0

theorem execStreamInject_touches (p0 : List Byte) (s : State) :
    OutTouches Part.main s (execStreamInject p0 s) := by
  unfold execStreamInject
  extract_lets -merge -underBinder +onlyGivenNames x0
  clear_value x0
  show Touches _ _ _
  refine State.decision_touches (by decide) ?_ (fun z1 hz1 => ?_)
  · exact (Touches.rfl' _ s)
  · split
    rename_i v2 v3 v4 e5
    have hv4 : Touches Part.main s v4 := by
      refine Touches.ofSnd e5 ?_
      exact Touches.chain (State.draw_touches ..) (by decide) hz1
    extract_lets -merge -underBinder +onlyGivenNames x6 x7
    clear_value x6 x7
    refine Touches.ite ?_ ?_
    · exact Touches.chain (State.admitFrame_touches ..) (by decide) hv4
    · exact hv4

theorem execStreamDiverge_touches (p0 : List Byte) (s : State) :
    OutTouches Part.main s (execStreamDiverge p0 s) := by
  unfold execStreamDiverge
  show Touches _ _ _
  refine State.decision_touches (by decide) ?_ (fun z0 hz0 => ?_)
  · exact (Touches.rfl' _ s)
  · extract_lets -merge -underBinder +onlyGivenNames x1
    extract_lets -merge -underBinder +onlyGivenNames x2
    have hx2 : Touches Part.main s x2 := by
      unfold x2
      exact Touches.chain (State.recordDivergence_touches ..) (by decide) hz0
    extract_lets -merge -underBinder +onlyGivenNames x3
    clear_value x3
    extract_lets -merge -underBinder +onlyGivenNames x4
    have hx4 : Touches Part.main s x4 := by
      unfold x4
      refine Touches.set_yok (x := x2) ?_ (by decide)
      exact hx2
    refine Touches.ite ?_ ?_
    · refine Touches.chain (State.divertResync_touches ..) (by decide) ?_
      exact Touches.chain (State.note_touches ..) (by decide) hx4
    · exact hx4

theorem execStreamYield_touches (p0 : List Byte) (s : State) :
    OutTouches Part.main s (execStreamYield p0 s) := by
  unfold execStreamYield
  show Touches _ _ _
  refine State.decision_touches (by decide) ?_ (fun z0 hz0 => ?_)
  · exact (Touches.rfl' _ s)
  · refine Touches.set_yok (x := z0) ?_ (by decide)
    exact hz0

theorem execHandoverItem_touches (p0 : List Byte) (s : State) :
    OutTouches Part.main s (execHandoverItem p0 s) := by
  unfold execHandoverItem
  show Touches _ _ _
  refine State.decision_touches (by decide) ?_ (fun z0 hz0 => ?_)
  · exact (Touches.rfl' _ s)
  · refine Touches.set_yok (x := z0) ?_ (by decide)
    exact hz0

theorem State.markItem_touches (s : State) (p1 : ℕ) (p2 : ℕ) (p3 : ℕ) :
    Touches Part.main s (State.markItem s p1 p2 p3) := by
  unfold State.markItem
  extract_lets -merge -underBinder +onlyGivenNames x0
  clear_value x0
  extract_lets -merge -underBinder +onlyGivenNames x1
  have hx1 : Touches Part.main s x1 := by
    unfold x1
    refine Touches.set_yok (x := s) ?_ (by decide)
    exact (Touches.rfl' _ s)
  clear_value x1
  refine Touches.ite ?_ ?_
  · exact Touches.chain (State.storeSheafMark_touches ..) (by decide) hx1
  · split
    · exact hx1
    · extract_lets -merge -underBinder +onlyGivenNames x2
      clear_value x2
      extract_lets -merge -underBinder +onlyGivenNames x3
      clear_value x3
      exact Touches.chain (State.storePn_touches ..) (by decide) hx1

theorem execStreamMark_touches (p0 : List Byte) (s : State) :
    OutTouches Part.main s (execStreamMark p0 s) := by
  unfold execStreamMark
  show Touches _ _ _
  refine State.decision_touches (by decide) ?_ (fun z0 hz0 => ?_)
  · exact (Touches.rfl' _ s)
  · extract_lets -merge -underBinder +onlyGivenNames x1
    clear_value x1
    refine Touches.ite ?_ ?_
    · exact Touches.chain (State.markItem_touches ..) (by decide) hz0
    · exact hz0

theorem State.ackMark_touches (s : State) (p1 : ℕ) (p2 : ℕ) (p3 : ℕ) :
    Touches [.regs, .cnt, .pow, .led, .hif, .line, .asc, .yok, .out] s (State.ackMark s p1 p2 p3) := by
  unfold State.ackMark
  extract_lets -merge -underBinder +onlyGivenNames x0 x1 x2
  clear_value x0 x1 x2
  extract_lets -merge -underBinder +onlyGivenNames x3
  have hx3 : Touches [.regs, .cnt, .pow, .led, .hif, .line, .asc, .yok, .out] s x3 := by
    unfold x3
    refine Touches.set_yok (x := s) ?_ (by decide)
    exact (Touches.rfl' _ s)
  clear_value x3
  refine Touches.chain (State.dropMarks_touches ..) (by decide) ?_
  refine Touches.foldl _ _ ?_ (fun y4 a4 hy4 => ?_)
  · exact hx3
  · exact Touches.chain (State.applyMark_touches ..) (by decide) hy4

theorem execAckMark_touches (p0 : List Byte) (s : State) :
    OutTouches [.regs, .cnt, .pow, .led, .hif, .line, .asc, .yok, .out] s (execAckMark p0 s) := by
  unfold execAckMark
  show Touches _ _ _
  refine State.reverse_touches (by decide) ?_ (fun z0 hz0 => ?_)
  · exact (Touches.rfl' _ s)
  · exact Touches.chain (State.ackMark_touches ..) (by decide) hz0

theorem State.takeDefects_touches (s : State) (p1 : ℕ) (p2 : ℕ) :
    Touches [.rows] s (State.takeDefects s p1 p2) := by
  unfold State.takeDefects
  extract_lets -merge -underBinder +onlyGivenNames x0
  extract_lets -merge -underBinder +onlyGivenNames x1
  clear_value x1
  extract_lets -merge -underBinder +onlyGivenNames x2
  have hx2 : Touches [.rows] s x2 := by
    unfold x2
    refine Touches.set_rows (x := s) ?_ (by decide)
    exact (Touches.rfl' _ s)
  clear_value x2
  refine Touches.foldl _ _ ?_ (fun y3 a3 hy3 => ?_)
  · exact hx2
  · exact Touches.chain (State.holdoffFollows_touches ..) (by decide) hy3

theorem execStreamDefects_touches (p0 : List Byte) (s : State) :
    OutTouches [.cnt, .rows] s (execStreamDefects p0 s) := by
  unfold execStreamDefects
  show Touches _ _ _
  refine State.reverse_touches (by decide) ?_ (fun z0 hz0 => ?_)
  · exact (Touches.rfl' _ s)
  · exact Touches.chain (State.takeDefects_touches ..) (by decide) hz0

theorem State.leadDeclares_touches (s : State) (p1 : ℕ) (p2 : ℕ) (p3 : ℕ) (p4 : Bool) :
    Touches Part.main s (State.leadDeclares s p1 p2 p3 p4) := by
  unfold State.leadDeclares
  extract_lets -merge -underBinder +onlyGivenNames x0
  have hx0 : Touches Part.main s x0 := by
    unfold x0
    exact Touches.chain (State.recordDivergence_touches ..) (by decide) (Touches.rfl' _ s)
  clear_value x0
  extract_lets -merge -underBinder +onlyGivenNames x1
  have hx1 : Touches Part.main s x1 := by
    unfold x1
    exact Touches.chain (State.convey_touches ..) (by decide) hx0
  clear_value x1
  refine Touches.ite ?_ ?_
  · exact Touches.chain (State.raise_touches ..) (by decide) hx1
  · exact hx1

theorem State.compareDigests_touches (s : State) (p1 : Interval) (p2 : List Byte) :
    Touches Part.main s (State.compareDigests s p1 p2) := by
  unfold State.compareDigests
  extract_lets -merge -underBinder +onlyGivenNames x0 x1 x2
  clear_value x0 x1 x2
  extract_lets -merge -underBinder +onlyGivenNames x3
  have hx3 : Touches Part.main s x3 := by
    unfold x3
    refine Touches.set_yok (x := s) ?_ (by decide)
    exact (Touches.rfl' _ s)
  clear_value x3
  extract_lets -merge -underBinder +onlyGivenNames x4
  have hx4 : Touches Part.main s x4 := by
    unfold x4
    exact Touches.chain (State.incBy_touches ..) (by decide) hx3
  clear_value x4
  split
  · exact hx4
  · exact Touches.chain (State.leadDeclares_touches ..) (by decide) hx4

theorem execStreamDigest_touches (p0 : List Byte) (s : State) :
    OutTouches Part.main s (execStreamDigest p0 s) := by
  unfold execStreamDigest
  show Touches _ _ _
  refine State.reverse_touches (by decide) ?_ (fun z0 hz0 => ?_)
  · exact (Touches.rfl' _ s)
  · split
    · exact Touches.chain (State.compareDigests_touches ..) (by decide) hz0
    · exact hz0

theorem execRepairReq_touches (p0 : List Byte) (s : State) :
    OutTouches [.cnt, .cls, .yok, .out] s (execRepairReq p0 s) := by
  unfold execRepairReq
  show Touches _ _ _
  refine State.reverse_touches (by decide) ?_ (fun z0 hz0 => ?_)
  · exact (Touches.rfl' _ s)
  · extract_lets -merge -underBinder +onlyGivenNames x1
    clear_value x1
    refine Touches.ite ?_ ?_
    · exact Touches.chain (State.altWrite_touches ..) (by decide) hz0
    · exact hz0

end Sys2Proof.Machine
end

