-- ==== Sys2Proof/Laws/TouchYokeCopy.lean ====
section
/-! SUPPORT. What each operation of Machine/YokeCopy.lean may touch. -/

namespace Sys2Proof.Machine

open Sys2Proof

theorem State.sendTable_touches (s : State) (p1 : ℕ) (p2 : ℕ) (p3 : ℕ) (p4 : List (List Byte)) :
    Touches [.yok, .out] s (State.sendTable s p1 p2 p3 p4) := by
  unfold State.sendTable
  extract_lets -merge -underBinder +onlyGivenNames x0
  clear_value x0
  refine Touches.foldl _ _ ?_ (fun y1 a1 hy1 => ?_)
  · exact (Touches.rfl' _ s)
  · exact Touches.chain (State.convey_touches ..) (by decide) hy1

theorem State.sendCopy_touches (s : State) :
    Touches [.yok, .out] s (State.sendCopy s) := by
  unfold State.sendCopy
  extract_lets -merge -underBinder +onlyGivenNames x0 x1
  clear_value x0 x1
  extract_lets -merge -underBinder +onlyGivenNames x2
  have hx2 : Touches [.yok, .out] s x2 := by
    unfold x2
    exact Touches.chain (State.convey_touches ..) (by decide) (Touches.rfl' _ s)
  clear_value x2
  extract_lets -merge -underBinder +onlyGivenNames x3
  have hx3 : Touches [.yok, .out] s x3 := by
    unfold x3
    exact Touches.chain (State.sendTable_touches ..) (by decide) hx2
  clear_value x3
  extract_lets -merge -underBinder +onlyGivenNames x4
  have hx4 : Touches [.yok, .out] s x4 := by
    unfold x4
    exact Touches.chain (State.sendTable_touches ..) (by decide) hx3
  clear_value x4
  extract_lets -merge -underBinder +onlyGivenNames x5
  have hx5 : Touches [.yok, .out] s x5 := by
    unfold x5
    exact Touches.chain (State.sendTable_touches ..) (by decide) hx4
  clear_value x5
  extract_lets -merge -underBinder +onlyGivenNames x6
  have hx6 : Touches [.yok, .out] s x6 := by
    unfold x6
    exact Touches.chain (State.sendTable_touches ..) (by decide) hx5
  clear_value x6
  extract_lets -merge -underBinder +onlyGivenNames x7
  have hx7 : Touches [.yok, .out] s x7 := by
    unfold x7
    exact Touches.chain (State.sendTable_touches ..) (by decide) hx6
  clear_value x7
  exact Touches.chain (State.sendTable_touches ..) (by decide) hx7

theorem State.sendSnap_touches (s : State) :
    Touches [.yok, .out] s (State.sendSnap s) := by
  unfold State.sendSnap
  extract_lets -merge -underBinder +onlyGivenNames x0
  have hx0 : Touches [.yok, .out] s x0 := by
    unfold x0
    exact Touches.chain (State.sendTable_touches ..) (by decide) (Touches.rfl' _ s)
  clear_value x0
  extract_lets -merge -underBinder +onlyGivenNames x1
  have hx1 : Touches [.yok, .out] s x1 := by
    unfold x1
    exact Touches.chain (State.sendTable_touches ..) (by decide) hx0
  clear_value x1
  extract_lets -merge -underBinder +onlyGivenNames x2
  have hx2 : Touches [.yok, .out] s x2 := by
    unfold x2
    refine Touches.foldl _ _ ?_ (fun y3 a3 hy3 => ?_)
    · exact hx1
    · extract_lets -merge -underBinder +onlyGivenNames x4
      clear_value x4
      extract_lets -merge -underBinder +onlyGivenNames x5
      clear_value x5
      refine Touches.foldl _ _ ?_ (fun y6 a6 hy6 => ?_)
      · exact hy3
      · exact Touches.chain (State.convey_touches ..) (by decide) hy6
  clear_value x2
  exact Touches.chain (State.sendTable_touches ..) (by decide) hx2

theorem State.copyCtx_touches (s : State) (p1 : ℕ) (p2 : List Byte) :
    Touches [.asc] s (State.copyCtx s p1 p2) := by
  unfold State.copyCtx
  refine Touches.ite ?_ ?_
  · exact Touches.chain (State.setCtx_touches ..) (by decide) (Touches.rfl' _ s)
  · exact Touches.chain (State.setCtx_touches ..) (by decide) (Touches.rfl' _ s)

theorem State.copyReg_touches (s : State) (p1 : ℕ) (p2 : Word) :
    Touches Part.main s (State.copyReg s p1 p2) := by
  unfold State.copyReg
  split
  · exact (Touches.rfl' _ s)
  · extract_lets -merge -underBinder +onlyGivenNames x0
    clear_value x0
    refine Touches.ite ?_ ?_
    · exact Touches.chain (State.portEnableEffect_touches ..) (by decide) (Touches.rfl' _ s)
    · refine Touches.ite ?_ ?_
      · exact Touches.chain (State.portEnableEffect_touches ..) (by decide) (Touches.rfl' _ s)
      · refine Touches.ite ?_ ?_
        · refine Touches.chain (State.setPair_touches ..) (by decide) ?_
          exact Touches.chain (State.wr_touches ..) (by decide) (Touches.rfl' _ s)
        · refine Touches.ite ?_ ?_
          · exact Touches.chain (State.writeGateCfg_touches ..) (by decide) (Touches.rfl' _ s)
          · split
            · refine State.reshape_touches (by decide) ?_ (fun z1 hz1 => ?_)
              · exact (Touches.rfl' _ s)
              · exact Touches.chain (State.wr_touches ..) (by decide) hz1
            · refine Touches.chain (State.afterWrite_touches ..) (by decide) ?_
              exact Touches.chain (State.wr_touches ..) (by decide) (Touches.rfl' _ s)

theorem State.copyOne_touches (s : State) (p1 : List Byte) :
    Touches Part.main s (State.copyOne s p1) := by
  unfold State.copyOne
  extract_lets -merge -underBinder +onlyGivenNames x0 x1
  clear_value x0 x1
  refine Touches.ite ?_ ?_
  · refine Touches.ite ?_ ?_
    · exact Touches.chain (State.copyReg_touches ..) (by decide) (Touches.rfl' _ s)
    · exact (Touches.rfl' _ s)
  · extract_lets -merge -underBinder +onlyGivenNames x2
    clear_value x2
    extract_lets -merge -underBinder +onlyGivenNames x3 x4
    clear_value x3 x4
    refine Touches.ite ?_ ?_
    · exact Touches.chain (State.tblWrite_touches ..) (by decide) (Touches.rfl' _ s)
    · exact (Touches.rfl' _ s)

theorem State.copyItem_touches (s : State) (p1 : ℕ) (p2 : ℕ) (p3 : List Byte) :
    Touches Part.main s (State.copyItem s p1 p2 p3) := by
  unfold State.copyItem
  extract_lets -merge -underBinder +onlyGivenNames x0
  have hx0 : ∀ z1 z2, Touches Part.main s z1 → Touches Part.main s (x0 z1 z2) := by
    intro z1 z2 hz1
    unfold x0
    beta_reduce
    refine Touches.set_yok (x := z1) ?_ (by decide)
    exact hz1
  clear_value x0
  split
  · refine Touches.ite ?_ ?_
    · refine Touches.chain (State.wr_touches ..) (by decide) ?_
      exact Touches.chain (State.wr_touches ..) (by decide) (Touches.rfl' _ s)
    · extract_lets -merge -underBinder +onlyGivenNames x3
      refine hx0 _ _ ?_
      refine Touches.foldl _ _ ?_ (fun y4 a4 hy4 => ?_)
      · exact (Touches.rfl' _ s)
      · exact Touches.chain (State.takeAlt_touches ..) (by decide) hy4
  · extract_lets -merge -underBinder +onlyGivenNames x5
    refine hx0 _ _ ?_
    refine Touches.foldl _ _ ?_ (fun y6 a6 hy6 => ?_)
    · exact (Touches.rfl' _ s)
    · exact Touches.chain (State.wr_touches ..) (by decide) hy6
  · extract_lets -merge -underBinder +onlyGivenNames x7
    refine hx0 _ _ ?_
    refine Touches.foldl _ _ ?_ (fun y8 a8 hy8 => ?_)
    · exact (Touches.rfl' _ s)
    · exact Touches.chain (State.takeSci_touches ..) (by decide) hy8
  · extract_lets -merge -underBinder +onlyGivenNames x9
    refine hx0 _ _ ?_
    refine Touches.foldl _ _ ?_ (fun y10 a10 hy10 => ?_)
    · exact (Touches.rfl' _ s)
    · exact Touches.chain (State.copyCtx_touches ..) (by decide) hy10
  · extract_lets -merge -underBinder +onlyGivenNames x11
    clear_value x11
    extract_lets -merge -underBinder +onlyGivenNames x12
    clear_value x12
    refine hx0 _ _ ?_
    refine Touches.foldl _ _ ?_ (fun y13 a13 hy13 => ?_)
    · exact (Touches.rfl' _ s)
    · split
      · exact Touches.chain (State.kvtCommitItem_touches ..) (by decide) hy13
      · exact hy13
  · extract_lets -merge -underBinder +onlyGivenNames x14
    clear_value x14
    extract_lets -merge -underBinder +onlyGivenNames x15
    clear_value x15
    refine hx0 _ _ ?_
    refine Touches.foldl _ _ ?_ (fun y16 a16 hy16 => ?_)
    · exact (Touches.rfl' _ s)
    · exact Touches.chain (State.copyOne_touches ..) (by decide) hy16
  · exact (Touches.rfl' _ s)

theorem execStreamCopy_touches (p0 : List Byte) (s : State) :
    OutTouches Part.main s (execStreamCopy p0 s) := by
  unfold execStreamCopy
  show Touches _ _ _
  refine State.decision_touches (by decide) ?_ (fun z0 hz0 => ?_)
  · exact (Touches.rfl' _ s)
  · refine Touches.ite ?_ ?_
    · exact Touches.chain (State.copyItem_touches ..) (by decide) hz0
    · exact hz0

theorem State.snapCtx_touches (s : State) (p1 : ℕ) (p2 : List Byte) :
    Touches Part.main s (State.snapCtx s p1 p2) := by
  unfold State.snapCtx
  split
  · exact (Touches.rfl' _ s)
  · extract_lets -merge -underBinder +onlyGivenNames x0
    clear_value x0
    extract_lets -merge -underBinder +onlyGivenNames x1 x2 x3
    clear_value x1 x2 x3
    extract_lets -merge -underBinder +onlyGivenNames x4
    have hx4 : Touches Part.main s x4 := by
      unfold x4
      exact Touches.chain (State.setCtx_touches ..) (by decide) (Touches.rfl' _ s)
    clear_value x4
    refine Touches.ite ?_ ?_
    · refine Touches.chain (State.markItem_touches ..) (by decide) ?_
      exact Touches.chain (State.markItem_touches ..) (by decide) hx4
    · exact hx4

theorem State.snapBucket_touches (s : State) (p1 : List Byte) :
    Touches [.sch] s (State.snapBucket s p1) := by
  unfold State.snapBucket
  extract_lets -merge -underBinder +onlyGivenNames x0
  clear_value x0
  split
  · exact Touches.chain (State.setBelow_touches ..) (by decide) (Touches.rfl' _ s)
  · refine Touches.set_sch (x := s) ?_ (by decide)
    exact (Touches.rfl' _ s)
  · extract_lets -merge -underBinder +onlyGivenNames x1
    clear_value x1
    extract_lets -merge -underBinder +onlyGivenNames x2 x3
    clear_value x2 x3
    exact Touches.chain (State.setGate_touches ..) (by decide) (Touches.rfl' _ s)
  · exact (Touches.rfl' _ s)

theorem State.snapFrame_touches (s : State) (p1 : ℕ) (p2 : ℕ) :
    Touches [.sch, .free] s (State.snapFrame s p1 p2) := by
  unfold State.snapFrame
  extract_lets -merge -underBinder +onlyGivenNames x0 x1
  clear_value x0 x1
  split
  rename_i v2 v3 v4 e5
  have hv4 : Touches [.sch, .free] s v4 := by
    refine Touches.ofSnd e5 ?_
    refine Touches.ite2 ?_ ?_
    · refine Touches.mk2 ?_
      exact (Touches.rfl' _ s)
    · exact Touches.chain (State.freeAssoc_touches ..) (by decide) (Touches.rfl' _ s)
  extract_lets -merge -underBinder +onlyGivenNames x6
  clear_value x6
  split
  extract_lets -merge -underBinder +onlyGivenNames x7 x8 x9 x10
  clear_value x7 x8 x9 x10
  extract_lets -merge -underBinder +onlyGivenNames x11
  have hx11 : Touches [.sch, .free] s x11 := by
    unfold x11
    refine Touches.set_sch (x := v4) ?_ (by decide)
    exact hv4
  clear_value x11
  refine Touches.chain (State.setQueue_touches ..) (by decide) ?_
  refine Touches.chain (State.addCells_touches ..) (by decide) ?_
  exact Touches.chain (State.setFrame_touches ..) (by decide) hx11

theorem State.snapRow_touches (s : State) (p1 : List Byte) :
    Touches Part.main s (State.snapRow s p1) := by
  unfold State.snapRow
  extract_lets -merge -underBinder +onlyGivenNames x0 x1
  clear_value x0 x1
  split
  · exact Touches.chain (State.setPair_touches ..) (by decide) (Touches.rfl' _ s)
  · extract_lets -merge -underBinder +onlyGivenNames x2
    clear_value x2
    exact Touches.chain (State.setPages_touches ..) (by decide) (Touches.rfl' _ s)
  · refine Touches.chain (State.resyncStep_touches ..) (by decide) ?_
    exact Touches.chain (State.markItem_touches ..) (by decide) (Touches.rfl' _ s)
  · exact (Touches.rfl' _ s)

theorem State.snapItem_touches (s : State) (p1 : ℕ) (p2 : ℕ) (p3 : List Byte) :
    Touches Part.main s (State.snapItem s p1 p2 p3) := by
  unfold State.snapItem
  split
  · refine Touches.foldl _ _ ?_ (fun y0 a0 hy0 => ?_)
    · exact (Touches.rfl' _ s)
    · exact Touches.chain (State.snapCtx_touches ..) (by decide) hy0
  · refine Touches.foldl _ _ ?_ (fun y1 a1 hy1 => ?_)
    · exact (Touches.rfl' _ s)
    · exact Touches.chain (State.snapBucket_touches ..) (by decide) hy1
  · refine Touches.foldl _ _ ?_ (fun y2 a2 hy2 => ?_)
    · exact (Touches.rfl' _ s)
    · exact Touches.chain (State.snapFrame_touches ..) (by decide) hy2
  · refine Touches.foldl _ _ ?_ (fun y3 a3 hy3 => ?_)
    · exact (Touches.rfl' _ s)
    · exact Touches.chain (State.snapRow_touches ..) (by decide) hy3
  · exact (Touches.rfl' _ s)

theorem execStreamSnap_touches (p0 : List Byte) (s : State) :
    OutTouches Part.main s (execStreamSnap p0 s) := by
  unfold execStreamSnap
  show Touches _ _ _
  refine State.decision_touches (by decide) ?_ (fun z0 hz0 => ?_)
  · exact (Touches.rfl' _ s)
  · refine Touches.ite ?_ ?_
    · exact Touches.chain (State.snapItem_touches ..) (by decide) hz0
    · exact hz0

end Sys2Proof.Machine
end

