-- ==== Sys2Proof/Laws/TouchYoke.lean ====
section
/-! SUPPORT. What each operation of Machine/Yoke.lean may touch. -/

namespace Sys2Proof.Machine

open Sys2Proof

theorem execPairingMessage_touches (p0 : List Byte) (s : State) :
    OutTouches [.regs, .cnt, .ctl, .pow, .led, .hif, .asc, .cph, .kvt, .yok, .held, .out, .free] s (execPairingMessage p0 s) := by
  unfold execPairingMessage
  split
  · show Touches _ _ _
    exact Touches.chain (State.takePairMessage_touches ..) (by decide) (Touches.rfl' _ s)
  · refine OutTouches.ite ?_ ?_
    · extract_lets -merge -underBinder +onlyGivenNames x0
      have hx0 : Touches [.regs, .cnt, .ctl, .pow, .led, .hif, .asc, .cph, .kvt, .yok, .held, .out, .free] s x0 := by
        unfold x0
        exact Touches.chain (State.startPairing_touches ..) (by decide) (Touches.rfl' _ s)
      clear_value x0
      split
      · show Touches _ _ _
        exact Touches.chain (State.takePairMessage_touches ..) (by decide) hx0
      · show Touches _ _ _
        exact hx0
    · extract_lets -merge -underBinder +onlyGivenNames x1
      clear_value x1
      show Touches _ _ _
      refine Touches.set_held (x := s) ?_ (by decide)
      exact (Touches.rfl' _ s)

theorem execPairConfirm_touches (p0 : List Byte) (s : State) :
    OutTouches Part.main s (execPairConfirm p0 s) := by
  unfold execPairConfirm
  split
  · show Touches _ _ _
    exact (Touches.rfl' _ s)
  · refine OutTouches.ite ?_ ?_
    · show Touches _ _ _
      exact (Touches.rfl' _ s)
    · refine OutTouches.ite ?_ ?_
      · show Touches _ _ _
        exact Touches.chain (State.pairDone_touches ..) (by decide) (Touches.rfl' _ s)
      · show Touches _ _ _
        refine Touches.chain (State.pairFail_touches ..) (by decide) ?_
        exact Touches.chain (State.eraseSlot_touches ..) (by decide) (Touches.rfl' _ s)

theorem State.laneCell_touches (s : State) (p1 : ℕ) (p2 : Bool) :
    Touches [.yok] s (State.laneCell s p1 p2) := by
  unfold State.laneCell
  extract_lets -merge -underBinder +onlyGivenNames x0 x1
  clear_value x0 x1
  extract_lets -merge -underBinder +onlyGivenNames x2
  have hx2 : ∀ z3 z4, Touches [.yok] s (x2 z3 z4) := by
    intro z3 z4
    unfold x2
    beta_reduce
    refine Touches.set_yok (x := s) ?_ (by decide)
    exact (Touches.rfl' _ s)
  clear_value x2
  refine Touches.ite ?_ ?_
  · refine Touches.ite ?_ ?_
    · refine hx2 _ _
    · refine Touches.ite ?_ ?_
      · refine hx2 _ _
      · refine hx2 _ _
  · refine Touches.ite ?_ ?_
    · refine Touches.ite ?_ ?_
      · refine hx2 _ _
      · refine hx2 _ _
    · refine hx2 _ _

theorem State.leadSilent_touches (s : State) (p1 : Bool) :
    Touches Part.note s (State.leadSilent s p1) := by
  unfold State.leadSilent
  refine Touches.ite ?_ ?_
  · refine Touches.chain (State.reportState_touches ..) (by decide) ?_
    refine Touches.chain (State.note_touches ..) (by decide) ?_
    refine Touches.set_yok (x := s) ?_ (by decide)
    exact (Touches.rfl' _ s)
  · exact (Touches.rfl' _ s)

theorem State.dithalDown_touches (s : State) :
    Touches [.regs, .cnt, .pow, .led, .hif, .line, .asc, .yok, .out] s (State.dithalDown s) := by
  unfold State.dithalDown
  extract_lets -merge -underBinder +onlyGivenNames x0
  clear_value x0
  extract_lets -merge -underBinder +onlyGivenNames x1
  have hx1 : Touches [.regs, .cnt, .pow, .led, .hif, .line, .asc, .yok, .out] s x1 := by
    unfold x1
    refine Touches.set_yok (x := s) ?_ (by decide)
    exact (Touches.rfl' _ s)
  clear_value x1
  refine Touches.chain (State.leadSilent_touches ..) (by decide) ?_
  refine Touches.chain (State.twinGone_touches ..) (by decide) ?_
  exact Touches.chain (State.note_touches ..) (by decide) hx1

theorem State.dithalUp_touches (s : State) :
    Touches [.regs, .cnt, .pow, .led, .hif, .kvt, .yok, .out, .free] s (State.dithalUp s) := by
  unfold State.dithalUp
  extract_lets -merge -underBinder +onlyGivenNames x0
  have hx0 : Touches [.regs, .cnt, .pow, .led, .hif, .kvt, .yok, .out, .free] s x0 := by
    unfold x0
    exact Touches.chain (State.note_touches ..) (by decide) (Touches.rfl' _ s)
  clear_value x0
  refine Touches.ite ?_ ?_
  · exact Touches.chain (State.startPairing_touches ..) (by decide) hx0
  · exact hx0

theorem State.idleCell_touches (s : State) :
    Touches [.out] s (State.idleCell s) := by
  unfold State.idleCell
  exact Touches.chain (State.emitCell_touches ..) (by decide) (Touches.rfl' _ s)

theorem State.takeAck_touches (s : State) (p1 : ℕ) :
    Touches [.yok] s (State.takeAck s p1) := by
  unfold State.takeAck
  extract_lets -merge -underBinder +onlyGivenNames x0 x1
  clear_value x0 x1
  refine Touches.set_yok (x := s) ?_ (by decide)
  exact (Touches.rfl' _ s)

theorem State.resend_touches (s : State) :
    Touches [.cnt, .yok, .out] s (State.resend s) := by
  unfold State.resend
  extract_lets -merge -underBinder +onlyGivenNames x0 x1
  clear_value x0 x1
  extract_lets -merge -underBinder +onlyGivenNames x2
  have hx2 : Touches [.cnt, .yok, .out] s x2 := by
    unfold x2
    refine Touches.set_yok (x := s) ?_ (by decide)
    exact (Touches.rfl' _ s)
  clear_value x2
  refine Touches.chain (State.incBy_touches ..) (by decide) ?_
  refine Touches.foldl _ _ ?_ (fun y3 a3 hy3 => ?_)
  · exact hx2
  · exact Touches.chain (State.emitCell_touches ..) (by decide) hy3

theorem State.retrain_touches (s : State) :
    Touches [.regs, .cnt, .pow, .led, .hif, .line, .asc, .yok, .out] s (State.retrain s) := by
  unfold State.retrain
  refine Touches.chain (State.dithalDown_touches ..) (by decide) ?_
  refine Touches.set_yok (x := s) ?_ (by decide)
  exact (Touches.rfl' _ s)

theorem State.resendOrDown_touches (s : State) :
    Touches [.regs, .cnt, .pow, .led, .hif, .line, .asc, .yok, .out] s (State.resendOrDown s) := by
  unfold State.resendOrDown
  refine Touches.ite ?_ ?_
  · exact Touches.chain (State.retrain_touches ..) (by decide) (Touches.rfl' _ s)
  · exact Touches.chain (State.resend_touches ..) (by decide) (Touches.rfl' _ s)

theorem State.linkCell_touches (s : State) (p1 : DithalIn) :
    Touches [.regs, .cnt, .pow, .led, .hif, .line, .asc, .yok, .out] s (State.linkCell s p1) := by
  unfold State.linkCell
  refine Touches.ite ?_ ?_
  · refine Touches.chain (State.idleCell_touches ..) (by decide) ?_
    refine Touches.set_yok (x := s) ?_ (by decide)
    exact (Touches.rfl' _ s)
  · extract_lets -merge -underBinder +onlyGivenNames x0
    have hx0 : Touches [.regs, .cnt, .pow, .led, .hif, .line, .asc, .yok, .out] s x0 := by
      unfold x0
      exact Touches.chain (State.takeAck_touches ..) (by decide) (Touches.rfl' _ s)
    clear_value x0
    extract_lets -merge -underBinder +onlyGivenNames x1
    have hx1 : Touches [.regs, .cnt, .pow, .led, .hif, .line, .asc, .yok, .out] s x1 := by
      unfold x1
      refine Touches.ite ?_ ?_
      · exact Touches.chain (State.resendOrDown_touches ..) (by decide) hx0
      · exact hx0
    clear_value x1
    extract_lets -merge -underBinder +onlyGivenNames x2 x3
    clear_value x2 x3
    extract_lets -merge -underBinder +onlyGivenNames x4
    have hx4 : Touches [.regs, .cnt, .pow, .led, .hif, .line, .asc, .yok, .out] s x4 := by
      unfold x4
      refine Touches.ite ?_ ?_
      · refine Touches.ite ?_ ?_
        · refine Touches.chain (State.idleCell_touches ..) (by decide) ?_
          refine Touches.set_yok (x := x1) ?_ (by decide)
          exact hx1
        · refine Touches.chain (State.idleCell_touches ..) (by decide) ?_
          refine Touches.set_yok (x := x1) ?_ (by decide)
          exact hx1
      · exact hx1
    clear_value x4
    exact Touches.chain (State.fillCells_touches ..) (by decide) hx4

theorem execDithalCellReceive_touches (p0 : Fin 4) (p1 : List Byte) (s : State) :
    OutTouches [.regs, .cnt, .pow, .led, .hif, .line, .asc, .kvt, .yok, .out, .free] s (execDithalCellReceive p0 p1 s) := by
  unfold execDithalCellReceive
  refine OutTouches.ite ?_ ?_
  · show Touches _ _ _
    exact (Touches.rfl' _ s)
  · extract_lets -merge -underBinder +onlyGivenNames x0
    clear_value x0
    extract_lets -merge -underBinder +onlyGivenNames x1
    clear_value x1
    extract_lets -merge -underBinder +onlyGivenNames x2
    have hx2 : Touches [.regs, .cnt, .pow, .led, .hif, .line, .asc, .kvt, .yok, .out, .free] s x2 := by
      unfold x2
      exact Touches.chain (State.laneCell_touches ..) (by decide) (Touches.rfl' _ s)
    clear_value x2
    refine OutTouches.ite ?_ ?_
    · show Touches _ _ _
      exact Touches.chain (State.dithalUp_touches ..) (by decide) hx2
    · refine OutTouches.ite ?_ ?_
      · show Touches _ _ _
        exact Touches.chain (State.dithalDown_touches ..) (by decide) hx2
      · refine OutTouches.ite ?_ ?_
        · show Touches _ _ _
          exact Touches.chain (State.linkCell_touches ..) (by decide) hx2
        · show Touches _ _ _
          exact hx2

theorem execDithalResendTimeout_touches (s : State) :
    OutTouches [.regs, .cnt, .pow, .led, .hif, .line, .asc, .yok, .out] s (execDithalResendTimeout s) := by
  unfold execDithalResendTimeout
  show Touches _ _ _
  split
  · exact (Touches.rfl' _ s)
  · refine Touches.ite ?_ ?_
    · exact (Touches.rfl' _ s)
    · exact Touches.chain (State.resendOrDown_touches ..) (by decide) (Touches.rfl' _ s)

theorem State.twinState_touches (s : State) (p1 : ℕ) (p2 : ℕ) :
    Touches [.regs, .cnt, .pow, .led, .hif, .line, .asc, .yok, .out] s (State.twinState s p1 p2) := by
  unfold State.twinState
  extract_lets -merge -underBinder +onlyGivenNames x0 x1
  clear_value x0 x1
  extract_lets -merge -underBinder +onlyGivenNames x2
  have hx2 : Touches [.regs, .cnt, .pow, .led, .hif, .line, .asc, .yok, .out] s x2 := by
    unfold x2
    refine Touches.set_yok (x := s) ?_ (by decide)
    exact (Touches.rfl' _ s)
  clear_value x2
  refine Touches.ite ?_ ?_
  · exact Touches.chain (State.twinGone_touches ..) (by decide) hx2
  · extract_lets -merge -underBinder +onlyGivenNames x3
    have hx3 : Touches [.regs, .cnt, .pow, .led, .hif, .line, .asc, .yok, .out] s x3 := by
      unfold x3
      refine Touches.ite ?_ ?_
      · exact Touches.chain (State.settleMarks_touches ..) (by decide) hx2
      · exact hx2
    clear_value x3
    refine Touches.ite ?_ ?_
    · exact Touches.chain (State.sendCopy_touches ..) (by decide) hx3
    · exact hx3

theorem execStateItem_touches (p0 : List Byte) (s : State) :
    OutTouches [.regs, .cnt, .pow, .led, .hif, .line, .asc, .yok, .out] s (execStateItem p0 s) := by
  unfold execStateItem
  show Touches _ _ _
  refine State.reverse_touches (by decide) ?_ (fun z0 hz0 => ?_)
  · exact (Touches.rfl' _ s)
  · exact Touches.chain (State.twinState_touches ..) (by decide) hz0

theorem State.resyncDone_touches (s : State) :
    Touches [.regs, .cnt, .ctl, .pow, .led, .hif, .yok, .out] s (State.resyncDone s) := by
  unfold State.resyncDone
  extract_lets -merge -underBinder +onlyGivenNames x0
  have hx0 : Touches [.regs, .cnt, .ctl, .pow, .led, .hif, .yok, .out] s x0 := by
    unfold x0
    exact Touches.chain (State.setMode_touches ..) (by decide) (Touches.rfl' _ s)
  clear_value x0
  extract_lets -merge -underBinder +onlyGivenNames x1
  clear_value x1
  extract_lets -merge -underBinder +onlyGivenNames x2
  have hx2 : Touches [.regs, .cnt, .ctl, .pow, .led, .hif, .yok, .out] s x2 := by
    unfold x2
    refine Touches.set_yok (x := x0) ?_ (by decide)
    exact hx0
  clear_value x2
  refine Touches.chain (State.reportState_touches ..) (by decide) ?_
  exact Touches.chain (State.note_touches ..) (by decide) hx2

theorem State.followerInterval_touches (s : State) :
    Touches [.regs, .cnt, .ctl, .pow, .led, .hif, .yok, .out] s (State.followerInterval s) := by
  unfold State.followerInterval
  extract_lets -merge -underBinder +onlyGivenNames x0 x1 x2 x3
  clear_value x0 x1 x2 x3
  extract_lets -merge -underBinder +onlyGivenNames x4
  have hx4 : Touches [.regs, .cnt, .ctl, .pow, .led, .hif, .yok, .out] s x4 := by
    unfold x4
    refine Touches.set_yok (x := s) ?_ (by decide)
    exact (Touches.rfl' _ s)
  clear_value x4
  extract_lets -merge -underBinder +onlyGivenNames x5
  have hx5 : Touches [.regs, .cnt, .ctl, .pow, .led, .hif, .yok, .out] s x5 := by
    unfold x5
    refine Touches.ite ?_ ?_
    · refine Touches.foldl _ _ ?_ (fun y6 a6 hy6 => ?_)
      · exact hx4
      · exact Touches.chain (State.report_touches ..) (by decide) hy6
    · exact hx4
  clear_value x5
  extract_lets -merge -underBinder +onlyGivenNames x7
  have hx7 : Touches [.regs, .cnt, .ctl, .pow, .led, .hif, .yok, .out] s x7 := by
    unfold x7
    refine Touches.chain (State.queueDrained_touches ..) (by decide) ?_
    exact Touches.chain (State.reportDefects_touches ..) (by decide) hx5
  clear_value x7
  refine Touches.ite ?_ ?_
  · exact hx7
  · refine Touches.ite ?_ ?_
    · exact Touches.chain (State.resyncDone_touches ..) (by decide) hx7
    · refine Touches.ite ?_ ?_
      · refine Touches.chain (State.reportState_touches ..) (by decide) ?_
        refine Touches.set_yok (x := x7) ?_ (by decide)
        exact hx7
      · exact hx7

theorem State.leadInterval_touches (s : State) :
    Touches Part.main s (State.leadInterval s) := by
  unfold State.leadInterval
  extract_lets -merge -underBinder +onlyGivenNames x0 x1
  clear_value x0 x1
  extract_lets -merge -underBinder +onlyGivenNames x2
  have hx2 : Touches Part.main s x2 := by
    unfold x2
    refine Touches.set_yok (x := s) ?_ (by decide)
    exact (Touches.rfl' _ s)
  clear_value x2
  split
  · refine Touches.ite ?_ ?_
    · exact Touches.chain (State.leadDeclares_touches ..) (by decide) hx2
    · exact hx2
  · exact hx2

theorem execDigestIntervalEnd_touches (s : State) :
    OutTouches Part.main s (execDigestIntervalEnd s) := by
  unfold execDigestIntervalEnd
  refine OutTouches.ite ?_ ?_
  · show Touches _ _ _
    exact (Touches.rfl' _ s)
  · extract_lets -merge -underBinder +onlyGivenNames x0
    have hx0 : Touches Part.main s x0 := by
      unfold x0
      exact Touches.chain (State.inc_touches ..) (by decide) (Touches.rfl' _ s)
    extract_lets -merge -underBinder +onlyGivenNames x1
    clear_value x1
    extract_lets -merge -underBinder +onlyGivenNames x2
    have hx2 : Touches Part.main s x2 := by
      unfold x2
      refine Touches.set_yok (x := x0) ?_ (by decide)
      exact hx0
    show Touches _ _ _
    refine Touches.ite ?_ ?_
    · exact Touches.chain (State.leadInterval_touches ..) (by decide) hx2
    · exact Touches.chain (State.followerInterval_touches ..) (by decide) hx2

theorem execRepairTimeout_touches (s : State) :
    OutTouches Part.main s (execRepairTimeout s) := by
  unfold execRepairTimeout
  show Touches _ _ _
  refine Touches.ite ?_ ?_
  · refine Touches.chain (State.declareClass_touches ..) (by decide) ?_
    refine Touches.set_yok (x := s) ?_ (by decide)
    exact (Touches.rfl' _ s)
  · exact (Touches.rfl' _ s)

theorem execYokeLockLost_touches (s : State) :
    OutTouches Part.main s (execYokeLockLost s) := by
  unfold execYokeLockLost
  refine OutTouches.ite ?_ ?_
  · extract_lets -merge -underBinder +onlyGivenNames x0
    extract_lets -merge -underBinder +onlyGivenNames x1
    have hx1 : Touches Part.main s x1 := by
      unfold x1
      refine Touches.chain (State.note_touches ..) (by decide) ?_
      refine Touches.set_yok (x := s) ?_ (by decide)
      exact (Touches.rfl' _ s)
    show Touches _ _ _
    refine Touches.ite ?_ ?_
    · exact Touches.chain (State.declareClass_touches ..) (by decide) hx1
    · exact hx1
  · show Touches _ _ _
    exact (Touches.rfl' _ s)

theorem execYokeFreqLocked_touches (s : State) :
    OutTouches [.yok] s (execYokeFreqLocked s) := by
  unfold execYokeFreqLocked
  show Touches _ _ _
  refine Touches.ite ?_ ?_
  · refine Touches.set_yok (x := s) ?_ (by decide)
    exact (Touches.rfl' _ s)
  · exact (Touches.rfl' _ s)

theorem execLeadSilent_touches (s : State) :
    OutTouches Part.note s (execLeadSilent s) := by
  unfold execLeadSilent
  show Touches _ _ _
  refine Touches.ite ?_ ?_
  · exact Touches.chain (State.leadSilent_touches ..) (by decide) (Touches.rfl' _ s)
  · exact (Touches.rfl' _ s)

theorem execPromotion_touches (s : State) :
    OutTouches Part.main s (execPromotion s) := by
  unfold execPromotion
  show Touches _ _ _
  split
  · refine Touches.ite ?_ ?_
    · exact Touches.chain (State.promote_touches ..) (by decide) (Touches.rfl' _ s)
    · exact (Touches.rfl' _ s)
  · exact (Touches.rfl' _ s)

theorem State.yokEnd_touches (s : State) (p1 : ℕ) :
    Touches [.regs] s (State.yokEnd s p1) := by
  unfold State.yokEnd
  exact Touches.chain (State.result_touches ..) (by decide) (Touches.rfl' _ s)

theorem State.yokWrite_touches {m : List Part} {s : State} {x : State} {p1 : Path} {p2 : ℕ} {p3 : State → ℕ} {p4 : State → State} (hm : [.regs, .cnt, .armed, .pow, .led, .hif, .yok, .out] ⊆ m) (hx : Touches m s x) (k4 : ∀ z0, Touches m s z0 → Touches m s (p4 z0)) :
    Touches m s (State.yokWrite x p1 p2 p3 p4) := by
  unfold State.yokWrite
  extract_lets -merge -underBinder +onlyGivenNames x0
  have hx0 : Touches m s x0 := by
    unfold x0
    exact hx
  clear_value x0
  refine State.hostWrite_touches (List.Subset.trans (by decide) hm) ?_ (fun z1 hz1 => ?_)
  · exact hx
  · refine Touches.ite ?_ ?_
    · exact Touches.chain (State.yokEnd_touches ..) (List.Subset.trans (by decide) hm) hz1
    · refine Touches.ite ?_ ?_
      · exact Touches.chain (State.yokEnd_touches ..) (List.Subset.trans (by decide) hm) hz1
      · refine k4 _ ?_
        exact hz1

theorem execYokHandover_touches (p0 : Path) (s : State) :
    OutTouches [.regs, .cnt, .armed, .pow, .led, .hif, .yok, .out] s (execYokHandover p0 s) := by
  unfold execYokHandover
  show Touches _ _ _
  refine State.yokWrite_touches (by decide) ?_ (fun z0 hz0 => ?_)
  · exact (Touches.rfl' _ s)
  · extract_lets -merge -underBinder +onlyGivenNames x1
    clear_value x1
    extract_lets -merge -underBinder +onlyGivenNames x2
    clear_value x2
    extract_lets -merge -underBinder +onlyGivenNames x3
    have hx3 : Touches [.regs, .cnt, .armed, .pow, .led, .hif, .yok, .out] s x3 := by
      unfold x3
      refine Touches.set_yok (x := z0) ?_ (by decide)
      exact hz0
    clear_value x3
    exact Touches.chain (State.convey_touches ..) (by decide) hx3

theorem State.handDown_touches (s : State) :
    Touches Part.main s (State.handDown s) := by
  unfold State.handDown
  extract_lets -merge -underBinder +onlyGivenNames x0
  have hx0 : Touches Part.main s x0 := by
    unfold x0
    exact Touches.chain (State.settleMarks_touches ..) (by decide) (Touches.rfl' _ s)
  clear_value x0
  extract_lets -merge -underBinder +onlyGivenNames x1
  have hx1 : Touches Part.main s x1 := by
    unfold x1
    refine Touches.chain (State.setMode_touches ..) (by decide) ?_
    refine Touches.chain (State.startStream_touches ..) (by decide) ?_
    exact Touches.chain (State.setBlock_touches ..) (by decide) hx0
  clear_value x1
  extract_lets -merge -underBinder +onlyGivenNames x2
  clear_value x2
  extract_lets -merge -underBinder +onlyGivenNames x3
  have hx3 : Touches Part.main s x3 := by
    unfold x3
    refine Touches.set_yok (x := x1) ?_ (by decide)
    exact hx1
  clear_value x3
  extract_lets -merge -underBinder +onlyGivenNames x4
  have hx4 : Touches Part.main s x4 := by
    unfold x4
    refine Touches.chain (State.yokEnd_touches ..) (by decide) ?_
    exact Touches.chain (State.storeStale_touches ..) (by decide) hx3
  clear_value x4
  refine Touches.chain (State.reportState_touches ..) (by decide) ?_
  exact Touches.chain (State.note_touches ..) (by decide) hx4

theorem execHandoverTakeEffect_touches (s : State) :
    OutTouches Part.main s (execHandoverTakeEffect s) := by
  unfold execHandoverTakeEffect
  show Touches _ _ _
  split
  · exact (Touches.rfl' _ s)
  · refine Touches.ite ?_ ?_
    · exact (Touches.rfl' _ s)
    · refine Touches.ite ?_ ?_
      · exact Touches.chain (State.handDown_touches ..) (by decide) (Touches.rfl' _ s)
      · refine Touches.ite ?_ ?_
        · refine Touches.chain (State.note_touches ..) (by decide) ?_
          exact Touches.chain (State.promote_touches ..) (by decide) (Touches.rfl' _ s)
        · refine Touches.set_yok (x := s) ?_ (by decide)
          exact (Touches.rfl' _ s)

theorem State.resumeTx_touches (s : State) :
    Touches Part.main s (State.resumeTx s) := by
  unfold State.resumeTx
  extract_lets -merge -underBinder +onlyGivenNames x0 x1
  clear_value x0 x1
  extract_lets -merge -underBinder +onlyGivenNames x2
  have hx2 : Touches Part.main s x2 := by
    unfold x2
    refine Touches.set_asc (x := s) ?_ (by decide)
    exact (Touches.rfl' _ s)
  clear_value x2
  refine Touches.foldl _ _ ?_ (fun y3 a3 hy3 => ?_)
  · exact hx2
  · exact Touches.chain (State.askMark_touches ..) (by decide) hy3

theorem execYokPromote_touches (p0 : Path) (s : State) :
    OutTouches Part.main s (execYokPromote p0 s) := by
  unfold execYokPromote
  show Touches _ _ _
  refine State.yokWrite_touches (by decide) ?_ (fun z0 hz0 => ?_)
  · exact (Touches.rfl' _ s)
  · refine Touches.chain (State.yokEnd_touches ..) (by decide) ?_
    refine Touches.chain (State.resumeTx_touches ..) (by decide) ?_
    refine Touches.chain (State.resumeSheaf_touches ..) (by decide) ?_
    refine Touches.chain (State.promote_touches ..) (by decide) ?_
    exact Touches.chain (State.discardFrames_touches ..) (by decide) hz0

theorem execYokResync_touches (p0 : Path) (s : State) :
    OutTouches Part.main s (execYokResync p0 s) := by
  unfold execYokResync
  show Touches _ _ _
  refine State.yokWrite_touches (by decide) ?_ (fun z0 hz0 => ?_)
  · exact (Touches.rfl' _ s)
  · refine Touches.chain (State.yokEnd_touches ..) (by decide) ?_
    refine Touches.ite ?_ ?_
    · exact Touches.chain (State.enterResync_touches ..) (by decide) hz0
    · exact Touches.chain (State.beginResync_touches ..) (by decide) hz0

theorem execYokCmdUnknown_touches (p0 : Path) (p1 : Fin 16) (s : State) :
    OutTouches [.regs, .cnt, .armed, .pow, .led, .hif, .yok, .out] s (execYokCmdUnknown p0 p1 s) := by
  unfold execYokCmdUnknown
  refine OutTouches.ite ?_ ?_
  · show Touches _ _ _
    refine State.hostWrite_touches (by decide) ?_ (fun z0 hz0 => ?_)
    · exact (Touches.rfl' _ s)
    · exact hz0
  · refine OutTouches.ite ?_ ?_
    · show Touches _ _ _
      exact (Touches.rfl' _ s)
    · show Touches _ _ _
      refine State.yokWrite_touches (by decide) ?_ (fun z1 hz1 => ?_)
      · exact (Touches.rfl' _ s)
      · exact hz1

theorem execResyncCutIn_touches (s : State) :
    OutTouches [.yok, .out] s (execResyncCutIn s) := by
  unfold execResyncCutIn
  refine OutTouches.ite ?_ ?_
  · show Touches _ _ _
    exact Touches.chain (State.resyncStep_touches ..) (by decide) (Touches.rfl' _ s)
  · refine OutTouches.ite ?_ ?_
    · show Touches _ _ _
      exact Touches.chain (State.sendSnap_touches ..) (by decide) (Touches.rfl' _ s)
    · show Touches _ _ _
      exact (Touches.rfl' _ s)

theorem execResyncTimeout_touches (s : State) :
    OutTouches Part.note s (execResyncTimeout s) := by
  unfold execResyncTimeout
  show Touches _ _ _
  refine Touches.ite ?_ ?_
  · refine Touches.chain (State.resyncStep_touches ..) (by decide) ?_
    refine Touches.chain (State.note_touches ..) (by decide) ?_
    refine Touches.set_yok (x := s) ?_ (by decide)
    exact (Touches.rfl' _ s)
  · exact (Touches.rfl' _ s)

theorem execResyncRestart_touches (s : State) :
    OutTouches Part.main s (execResyncRestart s) := by
  unfold execResyncRestart
  show Touches _ _ _
  refine Touches.ite ?_ ?_
  · exact Touches.chain (State.beginResync_touches ..) (by decide) (Touches.rfl' _ s)
  · exact (Touches.rfl' _ s)

end Sys2Proof.Machine
end

