-- ==== Sys2Proof/WellFormed.lean ====
section
/-! DEFINITION. The commands whose operands a sender of the spec can present: operation codes that belong to the row, byte
formats of their one length. A command that is not well formed still has a meaning; the checks say what a row's operands are. -/

namespace Sys2Proof

/-- The header of a stream item names the TYPE of its row and the item's own length (R426, R428). -/
def itemHead (type : Nat) (item : List Byte) : Bool :=
  decide (8 ≤ item.length) && item.length % 2 == 0 &&
  item.take 4 == [BitVec.ofNat 8 (128 + type), 0, BitVec.ofNat 8 (item.length / 256), BitVec.ofNat 8 item.length]

/-- A command whose operands its sender can present. -/
def Instr.wf : Instr → Bool
  | .registerWrite _ _ size _ => decide (0 < size.val)
  | .wideValueLowRead _ _ size => decide (0 < size.val)
  | .rcFieldRead _ _ size => decide (0 < size.val)
  | .imageArmWrite _ _ => true
  | .kvtArmWrite _ _ => true
  | .calArmWrite _ _ => true
  | .yokeArmWrite _ _ => true
  | .bootEntry _ => true
  | .imageCandidateRead _ => true
  | .mgdInitDone _ => true
  | .kvtUnsealDone => true
  | .calibrateEnd => true
  | .autoServiceAttempt => true
  | .writeOpen _ _ => true
  | .writeChunk _ _ _ => true
  | .chunkEnergyTimeout => true
  | .writeClose _ _ _ => true
  | .activate _ _ => true
  | .confirm _ => true
  | .revert _ => true
  | .reboot _ => true
  | .copyGolden _ _ => true
  | .imageErase _ _ => true
  | .raiseFloor _ _ => true
  | .revokeAuth _ _ => true
  | .setTrialMax _ _ => true
  | .imageCmdUnknown _ op => decide (13 ≤ op.val)
  | .goService _ => true
  | .goYoke _ => true
  | .goYokeTimeout => true
  | .modeStop _ => true
  | .stopDrainEnd => true
  | .selfTest _ _ => true
  | .selfTestEnd _ => true
  | .unyoke _ => true
  | .moduleReset _ => true
  | .clearDegrade _ => true
  | .modeCmdUnknown _ op => decide (8 ≤ op.val)
  | .recoveryIslandsReleased _ => true
  | .recoveryCauseCleared => true
  | .escalationWindowExpiry => true
  | .stewardWatchdog => true
  | .storeRequest _ _ => true
  | .storeRetryCheck => true
  | .storeComplete _ _ => true
  | .clientFrameLookup _ frame _ _ => frame != []
  | .learnProbe _ _ => true
  | .learnInsert _ _ => true
  | .clsSearch _ => true
  | .searchNext _ => true
  | .clsInsert _ _ _ => true
  | .clsDelete _ => true
  | .flushByPort _ _ _ => true
  | .flushDone => true
  | .digestSnap _ => true
  | .clsCmdUnknown _ op => decide (7 ≤ op.val)
  | .hashSeedWrite _ _ _ => true
  | .reaperVisit _ _ => true
  | .defaultBypass => true
  | .frameAdmit => true
  | .frameLastCell _ _ => true
  | .schPick _ _ _ => true
  | .pickedFrameEnd _ _ => true
  | .gateChange _ _ _ => true
  | .gateListTakeEffect _ => true
  | .gateEntryAdvance _ => true
  | .launchLate _ _ => true
  | .schTblRead _ _ => true
  | .schTblWrite _ _ => true
  | .schTblUnknown _ table op => decide (table.val = 3 ∨ op.val = 3)
  | .mgdRead _ _ _ => true
  | .mgdWrite _ addr data _ _ => decide (0 < data.length) && decide (addr % 64 + data.length ≤ 64)
  | .spillLineVerdict _ _ _ => true
  | .verdictTimeout _ => true
  | .tagBurstWindowEnd => true
  | .retillCmd _ _ => true
  | .retillDone => true
  | .harrowStep _ => true
  | .allotWindowWrite _ _ _ _ => true
  | .windowInitDone _ => true
  | .ctxRead _ => true
  | .ctxCreate _ _ => true
  | .ctxWrite _ => true
  | .ctxDelete _ => true
  | .ascRotate _ => true
  | .ascFlip _ _ => true
  | .ascCmdUnknown _ op => decide (7 ≤ op.val)
  | .lineFrameReceive _ frame _ => frame != []
  | .decryptFinalCheck _ => true
  | .ctxWriteback _ => true
  | .oldHoldExpiry _ => true
  | .cloakSheafReceive _ _ _ tag _ => tag.length == 16
  | .cloakTagCheck _ => true
  | .cipherBlockRelease _ _ _ _ _ _ => true
  | .mismatchWindowEnd _ => true
  | .burstWindowEnd => true
  | .spareKatTick => true
  | .katDone _ _ => true
  | .workItemEnd _ => true
  | .fallowSquash _ _ => true
  | .pairRetire _ _ => true
  | .pairKat _ _ => true
  | .pairCmdUnknown _ op _ => decide (3 ≤ op.val)
  | .lookasideJob _ ring desc => decide (1 ≤ ring.val) && desc.length == 64
  | .lookasideAdmit _ _ _ _ => true
  | .lookasideComplete _ _ _ => true
  | .kvtLoad _ => true
  | .importKw _ => true
  | .kvtGenerate _ => true
  | .kvtDerive _ => true
  | .kvtErase _ => true
  | .readAttr _ => true
  | .kvtGrant _ => true
  | .provOpen _ => true
  | .provAccept _ => true
  | .importProv _ => true
  | .provClose _ => true
  | .provSessionTimeout => true
  | .idExport _ => true
  | .certWrite _ => true
  | .anchorAdd _ => true
  | .anchorRevoke _ => true
  | .lcAdvance _ => true
  | .zeroizeAll _ => true
  | .reseed _ => true
  | .kvtCmdUnknown _ op => decide (19 ≤ op.val)
  | .loadStoreTimeout _ => true
  | .slotErased _ _ => true
  | .remaskWalk _ => true
  | .rbgReseed _ => true
  | .rbgHealthFail => true
  | .pairingMessage msg => msg.length == 7184
  | .pairConfirm tag => tag.length == 16
  | .dithalCellReceive _ cell => cell.length == 272
  | .dithalResendTimeout => true
  | .frameRecord _ => true
  | .unmatchedDiscard _ => true
  | .streamEpoch item => itemHead 0x01 item
  | .streamVerdict item => itemHead 0x02 item
  | .sheafVerdict item => itemHead 0x03 item
  | .clsCommit item => itemHead 0x04 item
  | .sciCommit item => itemHead 0x05 item
  | .ascCommit item => itemHead 0x06 item
  | .ascEvent item => itemHead 0x07 item
  | .flipItem item => itemHead 0x08 item
  | .kvtCommit item => itemHead 0x09 item
  | .regWrite item => itemHead 0x0A item
  | .schCommit item => itemHead 0x0B item
  | .timemap item => itemHead 0x0C item
  | .rixItem item => itemHead 0x0D item
  | .streamInject item => itemHead 0x0E item
  | .streamDiverge item => itemHead 0x0F item
  | .streamYield item => itemHead 0x10 item
  | .handoverItem item => itemHead 0x11 item
  | .streamCopy item => itemHead 0x12 item
  | .streamSnap item => itemHead 0x13 item
  | .streamMark item => itemHead 0x14 item
  | .ackMark item => itemHead 0x20 item
  | .streamDefects item => itemHead 0x21 item
  | .streamDigest item => itemHead 0x22 item
  | .repairReq item => itemHead 0x23 item
  | .stateItem item => itemHead 0x24 item
  | .digestIntervalEnd => true
  | .repairTimeout => true
  | .yokeLockLost => true
  | .leadSilent => true
  | .promotion => true
  | .yokHandover _ => true
  | .handoverTakeEffect => true
  | .yokPromote _ => true
  | .yokResync _ => true
  | .yokCmdUnknown _ op => decide (4 ≤ op.val)
  | .resyncCutIn => true
  | .resyncTimeout => true
  | .resyncRestart => true
  | .channelSet _ _ => true
  | .channelStep _ _ => true
  | .channelSlew _ _ => true
  | .channelStop _ _ => true
  | .timCmdUnknown _ _ op => decide (5 ≤ op.val)
  | .slewDone _ => true
  | .freqWrite _ _ _ => true
  | .parentWrite _ _ _ => true
  | .ppsInEdge _ _ => true
  | .ppsEdgeMissed => true
  | .todMessage _ _ => true
  | .ppsOutEdge => true
  | .todOutSend => true
  | .doorbell _ _ _ => true
  | .commandDescriptor _ desc _ _ _ => desc.length == 64
  | .injectDescriptor _ desc _ _ => desc.length == 32
  | .puntDelivery _ entry => entry.length == 16
  | .irqCoalesceTimer _ _ => true
  | .resetDrain _ _ => true
  | .resetSquash _ _ => true
  | .selfReset _ _ => true
  | .drainTimeout _ => true
  | .allotFreeze _ _ => true
  | .allotThaw _ _ => true
  | .allotCmdUnknown _ op _ => decide (op.val = 0 ∨ 5 ≤ op.val)
  | .migSave desc _ => desc.length == 64
  | .migRestore desc _ _ => desc.length == 64
  | .allotCtrlWrite _ _ _ => true
  | .pcieLinkDown => true
  | .pcieLinkUp _ _ => true
  | .entdaa _ => true
  | .setdasa _ _ => true
  | .rstdaa => true
  | .rstact _ => true
  | .getpid => true
  | .getbcr => true
  | .getdcr => true
  | .getstatus => true
  | .getmxds => true
  | .getmwl => true
  | .getmrl => true
  | .setmwl _ => true
  | .setmrl _ => true
  | .enec _ => true
  | .disec _ => true
  | .read32 _ _ => true
  | .write32 _ _ _ => true
  | .i3cPrivateRead _ => true
  | .hotJoinRequest => true
  | .foldClose => true
  | .batchOffer => true
  | .logScan _ => true
  | .logFreeze _ => true
  | .logThaw _ => true
  | .freezeExpiry => true
  | .logRelease _ => true
  | .copyOut _ _ => true
  | .calWrite _ => true
  | .calRead _ => true
  | .logCmdUnknown _ op => decide (7 ≤ op.val)
  | .logReadIndexWrite _ _ => true
  | .counterSnap _ _ => true
  | .periodicSnap => true
  | .fuCfgWrite _ _ _ => true
  | .yokeFreqLocked => true
  | .storeDeferralExceeded _ _ => true
  | .rbgRequestTimeout _ => true
  | .crossingOffer src dst _ _ => src != dst
  | .idleProbe src dst _ => src != dst
  | .crossTimeout live stopped => live != stopped
  | .cellReceive src dst _ len _ payload _ => src != dst && payload.length == len.val
  | .cellNakReceived src dst _ => src != dst
  | .busTransaction _ _ _ _ _ _ _ _ _ => true
  | .perstAssert => true
  | .lidOvertemp _ => true
  | .dieOvertemp _ => true
  | .dieThermalShutdown => true
  | .inputOvervoltage _ => true
  | .feedLost _ => true
  | .feedRestored _ => true
  | .supplySample _ _ _ _ _ _ => true
  | .powerRise _ _ _ _ => true
  | .holdupCapMeasure _ _ _ => true
  | .powerFail => true
  | .pfailSummary => true
  | .storeDomainRelease _ _ _ _ _ => true
  | .powerReturnDuringBleed _ _ _ _ => true
  | .svcMuteAssert => true
  | .svcMuteRelease => true
  | .yokeIdChanged => true
  | .zeroPinRequest _ => true
  | .laneLos _ => true
  | .laneLol _ => true
  | .laneClear _ _ => true
  | .fecWindowEnd _ _ _ _ => true
  | .pcsStateChange _ _ _ _ _ => true
  | .markerFound _ marker _ => marker.length == 8
  | .headlandReceive _ headland => headland.length == 160
  | .groupAlignmentCheck _ => true
  | .sheafStart _ => true
  | .secondLatch => true
  | .tribHeader _ _ _ _ => true
  | .laneCtrlWrite _ _ _ => true
  | .portEnableWrite _ group idx _ => !group || decide (idx.val < 16)
  | .ethFrameReceive _ frame => frame != []
  | .swapCmd _ _ => true
  | .connectionMemoryWrite _ _ _ _ _ => true
  | .pairCfgWrite _ _ _ => true
  | .apsClear _ _ => true
  | .apsLockout _ _ => true
  | .apsForced _ _ => true
  | .apsManualP _ _ => true
  | .apsManualW _ _ => true
  | .apsCmdUnknown _ _ op => decide (6 ≤ op.val)
  | .holdoffExpiry _ => true
  | .wtrExpiry _ => true
  | .sensorDetection _ _ _ => true
  | .sensorWindowClose _ _ => true
  | .sensorTripClear _ => true
  | .sensorCfgWrite _ _ _ _ => true
  | .rootRefresh => true
  | .reserveTest _ => true
  | .hdgLogIndexWrite _ _ => true
  | .perstRelease => true
  | .overvoltageRelease _ _ _ _ => true
  | .cellExhausted => true

end Sys2Proof
end

