-- ==== Sys2Proof/Tests/Slice0.lean ====
section
/-! SUPPORT. Tests: a term that each check of WellFormed.lean refuses; single steps on small states; a witness for the
hypotheses of each statement. -/

namespace Sys2Proof.Tests

open Sys2Proof Sys2Proof.Machine

/-! ## An ill-formed term for each check of WellFormed.lean -/

theorem test_wf_register_size : (Instr.registerWrite .device 0 0 0).wf = false := by decide
theorem test_wf_wide_read_size : (Instr.wideValueLowRead .device 0 0).wf = false := by decide
theorem test_wf_rc_read_size : (Instr.rcFieldRead .device 0 0).wf = false := by decide
theorem test_wf_image_op : (Instr.imageCmdUnknown .device 12).wf = false := by decide
theorem test_wf_mode_op : (Instr.modeCmdUnknown .device 7).wf = false := by decide
theorem test_wf_client_frame : (Instr.clientFrameLookup 0 [] [] 0).wf = false := by decide
theorem test_wf_cls_op : (Instr.clsCmdUnknown .device 6).wf = false := by decide
theorem test_wf_sch_op : (Instr.schTblUnknown .device 2 2).wf = false := by decide
theorem test_wf_mgd_empty : (Instr.mgdWrite 0 0 [] .good .good).wf = false := by decide
theorem test_wf_mgd_across : (Instr.mgdWrite 0 63 [0, 0] .good .good).wf = false := by decide
theorem test_wf_asc_op : (Instr.ascCmdUnknown .device 6).wf = false := by decide
theorem test_wf_line_frame : (Instr.lineFrameReceive 0 [] false).wf = false := by decide
theorem test_wf_cloak_tag : (Instr.cloakSheafReceive 0 0 [] [0] false).wf = false := by decide
theorem test_wf_pair_op : (Instr.pairCmdUnknown .device 2 0).wf = false := by decide
theorem test_wf_job_ring : (Instr.lookasideJob 0 0 (List.replicate 64 0)).wf = false := by decide
theorem test_wf_job_length : (Instr.lookasideJob 0 1 (List.replicate 63 0)).wf = false := by decide
theorem test_wf_kvt_op : (Instr.kvtCmdUnknown .device 18).wf = false := by decide
theorem test_wf_pairing_length : (Instr.pairingMessage [0]).wf = false := by decide
theorem test_wf_confirm_length : (Instr.pairConfirm [0]).wf = false := by decide
theorem test_wf_cell_length : (Instr.dithalCellReceive 0 [0]).wf = false := by decide
theorem test_wf_epoch : (Instr.streamEpoch [0x81, 0, 0, 6, 0, 0]).wf = false := by decide
theorem test_wf_verdict : (Instr.streamVerdict [0x81, 0, 0, 8, 0, 0, 0, 0]).wf = false := by decide
theorem test_wf_sheaf_verdict : (Instr.sheafVerdict [0x83, 0, 0, 9, 0, 0, 0, 0]).wf = false := by decide
theorem test_wf_cls_commit : (Instr.clsCommit [0x83, 0, 0, 8, 0, 0, 0, 0]).wf = false := by decide
theorem test_wf_sci_commit : (Instr.sciCommit [0x84, 0, 0, 8, 0, 0, 0, 0]).wf = false := by decide
theorem test_wf_asc_commit : (Instr.ascCommit [0x85, 0, 0, 8, 0, 0, 0, 0]).wf = false := by decide
theorem test_wf_asc_event : (Instr.ascEvent [0x86, 0, 0, 8, 0, 0, 0, 0]).wf = false := by decide
theorem test_wf_flip_item : (Instr.flipItem [0x87, 0, 0, 8, 0, 0, 0, 0]).wf = false := by decide
theorem test_wf_kvt_commit : (Instr.kvtCommit [0x88, 0, 0, 8, 0, 0, 0, 0]).wf = false := by decide
theorem test_wf_reg_write : (Instr.regWrite [0x89, 0, 0, 8, 0, 0, 0, 0]).wf = false := by decide
theorem test_wf_sch_commit : (Instr.schCommit [0x8A, 0, 0, 8, 0, 0, 0, 0]).wf = false := by decide
theorem test_wf_timemap : (Instr.timemap [0x8B, 0, 0, 8, 0, 0, 0, 0]).wf = false := by decide
theorem test_wf_rix_item : (Instr.rixItem [0x8C, 0, 0, 8, 0, 0, 0, 0]).wf = false := by decide
theorem test_wf_inject_item : (Instr.streamInject [0x8D, 0, 0, 8, 0, 0, 0, 0]).wf = false := by decide
theorem test_wf_diverge : (Instr.streamDiverge [0x8E, 0, 0, 8, 0, 0, 0, 0]).wf = false := by decide
theorem test_wf_yield : (Instr.streamYield [0x8F, 0, 0, 8, 0, 0, 0, 0]).wf = false := by decide
theorem test_wf_handover : (Instr.handoverItem [0x90, 0, 0, 8, 0, 0, 0, 0]).wf = false := by decide
theorem test_wf_copy : (Instr.streamCopy [0x91, 0, 0, 8, 0, 0, 0, 0]).wf = false := by decide
theorem test_wf_snap : (Instr.streamSnap [0x92, 0, 0, 8, 0, 0, 0, 0]).wf = false := by decide
theorem test_wf_mark : (Instr.streamMark [0x93, 0, 0, 8, 0, 0, 0, 0]).wf = false := by decide
theorem test_wf_ack_mark : (Instr.ackMark [0x94, 0, 0, 8, 0, 0, 0, 0]).wf = false := by decide
theorem test_wf_defects : (Instr.streamDefects [0xA0, 0, 0, 8, 0, 0, 0, 0]).wf = false := by decide
theorem test_wf_digest : (Instr.streamDigest [0xA1, 0, 0, 8, 0, 0, 0, 0]).wf = false := by decide
theorem test_wf_repair : (Instr.repairReq [0xA2, 0, 0, 8, 0, 0, 0, 0]).wf = false := by decide
theorem test_wf_state_item : (Instr.stateItem [0xA3, 0, 0, 8, 0, 0, 0, 0]).wf = false := by decide
theorem test_wf_item_good : (Instr.streamEpoch [0x81, 0, 0, 12, 0, 0, 0, 0, 0, 0, 0, 1]).wf = true := by decide
theorem test_wf_yok_op : (Instr.yokCmdUnknown .device 3).wf = false := by decide
theorem test_wf_tim_op : (Instr.timCmdUnknown .device 0 4).wf = false := by decide
theorem test_wf_command_descriptor : (Instr.commandDescriptor 0 [] [] true true).wf = false := by decide
theorem test_wf_inject_descriptor : (Instr.injectDescriptor 0 [] [] true).wf = false := by decide
theorem test_wf_punt_entry : (Instr.puntDelivery 0 []).wf = false := by decide
theorem test_wf_allot_op : (Instr.allotCmdUnknown .device 4 0).wf = false := by decide
theorem test_wf_save : (Instr.migSave [] true).wf = false := by decide
theorem test_wf_restore : (Instr.migRestore [] [] true).wf = false := by decide
theorem test_wf_log_op : (Instr.logCmdUnknown .device 6).wf = false := by decide
theorem test_wf_offer_self : (Instr.crossingOffer 3 3 0 false).wf = false := by decide
theorem test_wf_probe_self : (Instr.idleProbe 3 3 false).wf = false := by decide
theorem test_wf_timeout_self : (Instr.crossTimeout 3 3).wf = false := by decide
theorem test_wf_cell_size : (Instr.cellReceive 1 2 0 2 false [0] true).wf = false := by decide
theorem test_wf_nak_self : (Instr.cellNakReceived 3 3 0).wf = false := by decide
theorem test_wf_marker : (Instr.markerFound 0 [] 0).wf = false := by decide
theorem test_wf_headland : (Instr.headlandReceive 0 []).wf = false := by decide
theorem test_wf_group_enable : (Instr.portEnableWrite .device true 16 0).wf = false := by decide
theorem test_wf_eth_frame : (Instr.ethFrameReceive 16 []).wf = false := by decide
theorem test_wf_aps_op : (Instr.apsCmdUnknown .device 0 5).wf = false := by decide

/-! ## Codes: the check values published for "123456789" -/

theorem test_crc16_check : crc16 [0x31, 0x32, 0x33, 0x34, 0x35, 0x36, 0x37, 0x38, 0x39] = 0x29B1 := by decide +kernel
theorem test_crc32_check : crc32 [0x31, 0x32, 0x33, 0x34, 0x35, 0x36, 0x37, 0x38, 0x39] = 0xCBF43926 := by decide +kernel

/-! ## Witnesses: for each statement with hypotheses, states and operands that meet them together, one conjunct for each
clause. -/

set_option Elab.async false

def slotM : SlotMeta := { prefer := 0, stA := .good, stB := .written, stG := .good, tries := 0, trialMax := 3, digA := 0, digB := 0, digG := 0, rbA := 5, rbB := 5, rbG := 5, seq := 1 }
/-- an image with every unit, 8 allotments, rings -/
def image : Structure := {
  rollback := 5, buildId := 1, expanse := true, golden := false, yokeClass := 7, digest := [], authSlot := 0
  xbar := [], cipherSplit := [], cellsEnc := 64, cellsDec := 64, ctxCache := 8
  regions := [⟨0, 1, 0, 0⟩, ⟨1048576, 1, 1, 1⟩, ⟨2097152, 2, 2, 2⟩, ⟨4194304, 64, 3, 3⟩]
  allotCount := 8, rings := 8, timeMap := [], floors := [], unitEnable := 0xFFFF, presets := [] }
def ready : State := let s := State.reset
  { s with
    ctl := { s.ctl with mode := .ready, prevMode := .calibrate }
    boot := { s.boot with phase := 12, booted := 0, image := some image, slotMeta := some slotM, metaSeq := 2, otpLife := .production }
    fab := { s.fab with live := allIslands, inReset := [] }
    hif := { s.hif with linkUp := true, allots := .idle :: List.replicate 7 .idle ++ List.replicate 56 .absent }
    pow := { s.pow with eAvail := 10000, aOk := true, bOk := true }
    mgd := { s.mgd with initDone := true, keys := List.replicate 64 (some ⟨[], [], []⟩) }
    kvt := { s.kvt with rbgUp := true, unsealDone := true }
    led := { s.led with scanned := true } }
/-- event ring of allotment 0 on and full, folding on, staging full of level 0 records -/
def noisy (s : State) : State :=
  let r : EvRec := ⟨1, 0, 0, 0, 0, false, 0, 0, 0xFF, 4, []⟩
  { (s.setFlg (Reg.hifRingCfg 12) 31 true).setFlg Reg.logCfg 30 true with
    hif := { s.hif with ringMod := SMap.set zeroOf s.hif.ringMod 12 15 }
    led := { s.led with staged := s.led.staged ++ List.replicate (1024 - s.led.staged.length) ⟨0, r⟩, opened := s.led.opened ++ List.replicate (64 - s.led.opened.length) ⟨0, true, r⟩ } }
def ringsOn (s : State) : State :=
  ((s.setFlg (Reg.hifRingCfg 12) 31 true).setFlg (privKey 3 (Reg.hifRingCfg 12)) 31 true).setFld Reg.logCfg 26 24 5
def m (s : State) (md : Mode) : State := { s with ctl := { s.ctl with mode := md } }
def spread (l : List State) : List State := l ++ l.map noisy ++ l.map ringsOn ++ l.map (m · .sentry) ++ l.map (m · .zeroized) ++ l.map (m · .selfTest) ++ l.map (m · .yokeLead)
def fimage : Structure := { image with xbar := (List.range 32).map (fun i => ⟨if i < 16 then 1 else if i < 24 then 2 else 1, 1, 2 ^ (i % 16)⟩) }
def slot0 (a : Word) : KeySlot := ⟨.loaded, zeroBytes 32, a, zeroBytes 4, false, 0, 7, 0, false, false⟩
/-- every part of the service set healthy, two associations with keys -/
def full : State :=
  let s := { ready with
    boot := { ready.boot with image := some fimage }
    hdg := { ready.hdg with roots := List.replicate 4 (some [1,2,3]) }
    asc := { ready.asc with ctxs := [(5, some { Ctx.create (zeroBytes 512) 0 with kind := 1 }), (6, some { Ctx.create (zeroBytes 512) 0 with kind := 1, owner := 3 })] }
    kvt := { ready.kvt with slots := [(10, some (slot0 0)), (11, some (slot0 0)), (12, some (slot0 0)), (vaultBase + 1, some (slot0 0))] }
    cph := { ready.cph with pairs := (List.range 72).map (fun p => ⟨1, if p % 18 < 8 then p % 18 % 4 else if p % 18 < 16 then 4 else 5, if p % 18 < 8 then p % 18 % 4 else if p % 18 < 16 then 4 else 5, 0x7F, 0, 0, 0⟩) }
    line := { ready.line with eth := List.replicate 32 ⟨true, false, false, false, true, false, List.replicate 6 0⟩ } }
  ((List.range 16).foldl (fun (s : State) k => (s.setFlg (Reg.lnfEthCtrl k) 0 true).setFlg (Reg.lnfGrpCtrl k) 0 true) s)

namespace G00


def s0 : State := ready
def s3 : State := { ready.setFlg Reg.logCfg 31 true with now := 5 }

theorem witness_ArmAndConfigurationWrites_ArmRegistersArm :
    (let p : Path := Path.device; let s := s0; decide (s.Reaches p Reg.stwImageArm)) = true ∧
    (let p : Path := Path.device; let s := s0; decide (s.Reaches p Reg.kvtArm)) = true ∧
    (let p : Path := Path.device; let s := s0; decide (s.Reaches p Reg.logCalArm)) = true ∧
    (let p : Path := Path.device; let s := s0; decide (s.Reaches p Reg.yokArm)) = true := by decide +kernel

theorem witness_ReadsLatchClearAndNarrow_LowReadLatchesHigherWords :
    (let p : Path := Path.device; let off : BitVec 25 := 0; let s := s0; decide (off.toNat % 4 = 0) && (match resolveOff p off.toNat with | some o => decide (s.readable p o = true) && decide (isHighWord o = false) | _ => false)) = true ∧
    (let p : Path := Path.device; let off : BitVec 25 := BitVec.ofNat 25 (Reg.hifCountLo 0 + 4); let s := s0; decide (off.toNat % 4 = 0) && (match resolveOff p off.toNat with | some o => decide (s.readable p o = true) && decide (isHighWord o = true) | _ => false)) = true := by decide +kernel

theorem witness_ReadsLatchClearAndNarrow_ReadClearsRcFields :
    (let p : Path := Path.device; let off : BitVec 25 := 0; let s := s0; decide (off.toNat % 4 = 0) && (match resolveOff p off.toNat with | some o => decide (s.readable p o = true) && decide (isHighWord o = false) && (match regRowAt o with | some _ => true | _ => false) | _ => false)) = true := by decide +kernel

theorem witness_ReadsLatchClearAndNarrow_NarrowAccessChangesNothing :
    (let off : BitVec 25 := 0; let size : Fin 5 := 0; decide (size.val ≠ 4 ∨ off.toNat % 4 ≠ 0)) = true := by decide +kernel

theorem witness_ArmAndConfigurationWrites_ConfigurationWritesClampAndLock :
    (let s := s0; ([(Reg.mgdHarrowCfg, 7, 0, 1, 168), (Reg.logFreezeMs, 15, 0, 1, 10000), (Reg.hifDrainCfg, 15, 0, 1, 1000)]).any (fun (off, _, _, _, _) => decide (s.Reaches .device off))) = true ∧
    (let s := s0; ([(Reg.lnfSheafCfg, 4, 0, 20, 28), (Reg.ascPnCfg, 4, 0, 16, 24), (Reg.logCfg, 15, 0, 1, 10000)]).any (fun (off, _, _, _, _) => decide (s.Reaches .device off) && decide (s.flg off 31 = false))) = true ∧
    (let s := s3; ([(Reg.lnfSheafCfg, 4, 0, 20, 28), (Reg.ascPnCfg, 4, 0, 16, 24), (Reg.logCfg, 15, 0, 1, 10000)]).any (fun (off, hi, lo, a, b) => decide (s.Reaches .device off) && decide (s.flg off 31 = true) && decide (s.fld off hi lo = clamp a b (s.fld off hi lo)))) = true := by decide +kernel

end G00

namespace G01

def cr (b : Bool) : State := { ready with fab := { ready.fab with cross := [(3 * 32 + 5, some ⟨7, true, false, b⟩), (3 * 32 + 8, some ⟨7, true, false, b⟩)] } }
def lk (f : Nat) (d : Bool) : State := { ready with fab := { ready.fab with links := [(3 * 32 + 5, some ⟨[⟨4, 3, 5, 8, true, []⟩, ⟨5, 3, 5, 8, true, []⟩], 6, 9, d, f⟩)] } }
def s0 : State := ready
def s1 : State := ready.wr (Reg.hdgSensorCfg 10) 5
def s2 : State := cr false
def s4 : State := lk 1 false

theorem witness_CrossingsAndBusCodes_CrossingHoldsUntilAcknowledged :
    (let src : Fin 21 := 3; let dst : Fin 21 := 5; let s := s2; decide ((s.crossing src dst).waits = true)) = true ∧
    (let src : Fin 21 := 3; let dst : Fin 21 := 3; let s := s0; decide (s.islandUp src = true) && decide ((s.crossing src dst).waits = false)) = true := by decide +kernel

theorem witness_CrossingsAndBusCodes_CrossTimeoutDiscardsTheOffer :
    (let live : Fin 21 := 3; let stopped : Fin 21 := 8; let s := s2; decide ((s.crossing live stopped).waits = true) && decide (s.islandUp live = true) && decide (serviceIsland stopped = false) && decide (s.ctl.mode ≠ .sentry) && decide (s.ctl.mode ≠ .service) && decide (s.ctl.mode.isYoke = false) && decide ((s.crossing live stopped).probe = false)) = true := by decide +kernel

theorem witness_InternalLinksDeliverInOrder_CellsAreAcknowledgedInOrder :
    (let src : Fin 21 := 3; let dst : Fin 21 := 5; let seq : Fin 256 := 9; let s := s4; decide (s.islandUp dst = true) && decide (seq.val = (s.ilink src dst).expect)) = true ∧
    (let src : Fin 21 := 3; let dst : Fin 21 := 3; let s := s0; decide (s.islandUp dst = true) && decide ((s.ilink src dst).discarding = false)) = true ∧
    (let src : Fin 21 := 3; let dst : Fin 21 := 3; let seq : Fin 256 := 4; let s := s0; decide (s.islandUp dst = true) && decide (seq.val ≠ (s.ilink src dst).expect)) = true := by decide +kernel

theorem witness_InternalLinksDeliverInOrder_GoBackNResends :
    (let src : Fin 21 := 3; let dst : Fin 21 := 5; let seq : Fin 256 := 4; let s := s4; (decide (∃ c ∈ (s.ilink src dst).unacked, c.seq = seq.val)) && decide ((s.ilink src dst).fails < 3)) = true := by decide +kernel

theorem witness_CrossingsAndBusCodes_BusCodeFailuresAreCounted :
    (let src : Fin 21 := 3; let address : List Byte := []; let command : List Byte := []; let data : List Byte := []; let code : BitVec 16 := BitVec.ofNat 16 (busCode 3 [] [] []); decide (code.toNat = busCode src address command data)) = true ∧
    (let src : Fin 21 := 3; let address : List Byte := []; let command : List Byte := []; let data : List Byte := []; let code : BitVec 16 := 0; let s := s1; decide (code.toNat ≠ busCode src address command data) && decide (s.ctl.mode ≠ .sentry) && decide ((s.sensor 10).fill + 1 < s.sensorCount 10)) = true := by decide +kernel

end G01

namespace G02


def s0 : State := ready
def s2 : State := m ready .sentry
def s6 : State := { ready with pow := { ready.pow with pfStep := 5, bleedA := true } }
def s7 : State := { ready with pow := { ready.pow with pfStep := 6 } }
def s8 : State := { ready with pow := { ready.pow with capUf := 5000, svcMute := true, aLost := true, bLost := true } }

theorem witness_PerstAndPowerRise_PerstResetsOnlyTheHostInterface :
    (let s := s0; decide (19 ∈ s.fab.live)) = true := by decide +kernel

theorem witness_SupplyFeedsHeatAndMute_TemperaturesAreReported :
    (let s := s0; decide (s.ctl.mode ≠ .sentry)) = true ∧
    (let r : BitVec 16 := 1200; decide (r.toInt ≤ 1760)) = true ∧
    (let r : BitVec 16 := 3300; let s := s0; decide (1760 < r.toInt) && decide (s.ctl.mode.recovers = true) && decide (s.pow.pfStep = 0)) = true := by decide +kernel

theorem witness_PowerFailSequence_PowerFailLeavesTheStoreDomain :
    (let s := s0; let mv : Nat := 74001; decide (s.ctl.mode ≠ .sentry) && decide (s.pow.pfStep = 0) && decide (74000 < mv)) = true ∧
    (let s := s2; decide (0 < s.pow.pfStep ∨ s.ctl.mode = .sentry)) = true ∧
    (let s := s6; let mv : Nat := 74001; decide (74000 < mv) && decide (s.ctl.mode ≠ .sentry) && decide (0 < s.pow.pfStep)) = true ∧
    (let s := s0; let mv : Nat := 0; decide (mv ≤ 74000 ∨ s.ctl.mode = .sentry)) = true := by decide +kernel

theorem witness_PowerFailSequence_PowerFailSummaryCountsWhatIsLeft :
    (let s := s6; decide (s.pow.pfStep = 5) && decide (s.st.mram = none) && decide (s.st.nor = none) && (decide (∀ r ∈ s.st.queue, r.cls = .nor ∨ s.energyOk r.cost 0 = false)) && decide (s.ctl.mode ≠ .sentry)) = true := by decide +kernel

theorem witness_PowerFailSequence_StoreDomainReleaseEntersSentry :
    (let s := s7; let mv : Nat := 0; decide (s.pow.pfStep = 6) && decide (s.st.mram = none) && decide (s.st.nor = none) && decide (mv < 34000)) = true ∧
    (let s := s7; let mv : Nat := 34000; decide (s.pow.pfStep = 6) && decide (s.st.mram = none) && decide (s.st.nor = none) && decide (34000 ≤ mv) && decide (mv ≤ 72000)) = true := by decide +kernel

theorem witness_PerstAndPowerRise_PowerRiseStartsFromSentry :
    (let s := s2; let mv : Nat := 34000; decide (s.ctl.mode = .sentry) && decide (34000 ≤ mv) && decide (mv ≤ 72000) && (true || s.pow.bank == BankState.bleeding || s.pow.overvoltHold)) = true := by decide +kernel

theorem witness_SupplyFeedsHeatAndMute_HoldupEnergyIsMeasured :
    (let s := s0; let uf : Nat := 4500; decide (s.ctl.mode ≠ .sentry) && decide (s.pow.capUf = 0) && decide (4500 ≤ uf)) = true ∧
    (let s := s8; decide (0 < s.pow.capUf)) = true := by decide +kernel

theorem witness_SupplyFeedsHeatAndMute_FeedsAreTracked :
    (let s := s8; let b : Bool := true; decide (s.ctl.mode ≠ .sentry) && decide ((if b then s.pow.bLost else s.pow.aLost) = true)) = true ∧
    (let s := s0; let b : Bool := true; decide ((if b then s.pow.bLost else s.pow.aLost) = false)) = true := by decide +kernel

theorem witness_SupplyFeedsHeatAndMute_SupplySampleUpdatesTheEnergy :
    (let s := s0; let v : BitVec 16 := 1200; decide (s.ctl.mode ≠ .sentry) && decide (s.ctl.mode ≠ .service) && decide (s.ctl.mode.isYoke = false) && decide (s.st.queue = []) && (decide (0 < s.pow.pfStep → 2370 < v.toNat))) = true ∧
    (let s := s6; let v : BitVec 16 := 1200; decide (s.ctl.mode ≠ .sentry) && decide (0 < s.pow.pfStep) && decide (v.toNat ≤ 2370)) = true := by decide +kernel

theorem witness_SupplyFeedsHeatAndMute_ServiceMuteIsOneCauseOfMuting :
    (let s := s0; decide (s.ctl.mode ≠ .sentry) && decide (s.pow.svcMute = false)) = true ∧
    (let s := s8; decide (s.ctl.mode ≠ .sentry) && decide (s.pow.svcMute = true)) = true := by decide +kernel

end G02

namespace G03

def jb (s : State) (j : ImageJob) : State := { s with boot := { s.boot with job := some j } }
def arm (s : State) (l : List Nat) : State := { s with armed := l }
def trial : State := { ready with boot := { ready.boot with slotMeta := some { slotM with stA := .trial, stB := .writing } } }
def stq (s : State) (q : List StoreReq) : State := { s with st := { s.st with queue := q } }
def copyable : State := { ready with boot := { ready.boot with slotMeta := some { slotM with stB := .good }, nor := [(0x1000000 + 9, 0xFFFFFFFF#32)] } }
def s0 : State := ready
def s1 : State := jb ready (.chunk 1 0 17)
def s2 : State := arm ready [1]
def s3 : State := trial
def s5 : State := arm copyable [1]
def s7 : State := jb (stq ready [eraseStore 1 0]) (.chunk 1 0 17)
def s8 : State := arm { ready with boot := {ready.boot with floor := 3}} [1]
def s9 : State := jb { ready with st := { ready.st with nor := some ⟨.nor, 0, .norMeta 1 0 5 slotM, .unit 1 0, false⟩ } } (.metaStore 7 0)
def s10 : State := m (arm ready [1]) .selfTest

theorem witness_ImageCommandsRunOneAtATime :
    (let p : Path := Path.device; let s := s1; let k : Fin 16 := 0; let n : Fin 4096 := 0; let r : Bool := true; decide (s.Reaches p Reg.stwImageCmd) && decide (s.boot.job.isSome = true) && ([Instr.writeOpen p k, .writeChunk p k n, .writeClose p k r, .activate p k, .confirm p, .revert p, .reboot p, .copyGolden p k, .imageErase p k, .raiseFloor p n, .revokeAuth p n, .setTrialMax p n, .imageCmdUnknown p 13]).any (fun c => true)) = true ∧
    (let p : Path := Path.device; let s := s0; let op : Fin 16 := 13; decide (s.Reaches p Reg.stwImageCmd) && decide (s.boot.job = none) && decide (13 ≤ op.val)) = true ∧
    (let p : Path := Path.device; let s := s0; let v : Word := 0; decide (s.Reaches p Reg.stwImageCmd) && decide (bits v 3 0 = 0)) = true := by decide +kernel

theorem witness_ActivateConfirmRevert :
    (let p : Path := Path.device; let s := s0; let k : Fin 16 := 0; decide (s.Reaches p Reg.stwImageCmd) && decide (s.boot.job = none) && decide (s.boot.otpLife ≠ .scrapped) && decide (s.st.queue.length ≤ 252) && decide (k.val < 2) && decide (s.imageModeOk 4 = true) && decide (s.slotMeta.st k = .written ∨ s.slotMeta.st k = .good)) = true ∧
    (let p : Path := Path.device; let s := s3; let k : Fin 16 := 0; decide (s.Reaches p Reg.stwImageCmd) && decide (s.boot.job = none) && decide (s.boot.otpLife ≠ .scrapped) && decide (s.st.queue.length ≤ 252) && decide (k.val < 2) && decide (s.imageModeOk 4 = true) && decide (s.slotMeta.st k ≠ .written) && decide (s.slotMeta.st k ≠ .good)) = true ∧
    (let p : Path := Path.device; let s := s3; decide (s.Reaches p Reg.stwImageCmd) && decide (s.boot.job = none) && decide (s.boot.otpLife ≠ .scrapped) && decide (s.st.queue.length ≤ 252) && decide (s.ctl.mode = .ready ∨ s.ctl.mode = .service ∨ s.ctl.mode.isYoke = true) && decide (s.boot.booted < 3) && decide (s.slotMeta.st s.boot.booted = .trial)) = true ∧
    (let p : Path := Path.device; let s := s10; decide (s.Reaches p Reg.stwImageCmd) && decide (s.boot.job = none) && decide (s.boot.otpLife ≠ .scrapped) && decide (s.st.queue.length ≤ 252) && decide (s.ctl.mode ≠ .ready) && decide (s.ctl.mode ≠ .service) && decide (s.ctl.mode.isYoke = false)) = true ∧
    (let p : Path := Path.device; let s := s5; decide (s.Reaches p Reg.stwImageCmd) && decide (s.boot.job = none) && decide (s.boot.otpLife ≠ .scrapped) && decide (s.st.queue.length ≤ 252) && decide (s.imageModeOk 6 = true) && decide (s.slotMeta.st (1 - s.slotMeta.prefer) = .good)) = true ∧
    (let p : Path := Path.device; let s := s0; decide (s.Reaches p Reg.stwImageCmd) && decide (s.boot.job = none) && decide (s.boot.otpLife ≠ .scrapped) && decide (s.st.queue.length ≤ 252) && decide (s.imageModeOk 6 = true) && decide (s.slotMeta.st (1 - s.slotMeta.prefer) ≠ .good)) = true := by decide +kernel

theorem witness_SlotCommandsWriteTheSlot_SlotCommandsWriteTheSlot_1 :
    (let p : Path := Path.device; let k : Fin 16 := 1; let s := s0; decide (s.TakesImage p 1) && decide (s.st.queue.length ≤ 252) && decide (k.val < 2) && decide (k.val ≠ s.boot.booted)) = true ∧
    (let p : Path := Path.device; let k : Fin 16 := 1; let n : Fin 4096 := 0; let s := s3; decide (s.TakesImage p 2) && decide (k.val < 2) && decide (k.val ≠ s.boot.booted) && decide (s.slotMeta.st k = .writing) && (match (s.goodSectors k)[n.val]? with | some _ => decide (s.st.queue = []) && decide (s.st.nor = none) && decide (s.pow.pfStep = 0) && decide (s.energyOk costErase (costOf s.st.mram) = true) | _ => false)) = true ∧
    (let s := s7; (match s.boot.job with | some (.chunk k n 17) => (match (s.goodSectors k)[n]? with | some g => decide (eraseStore k g ∈ s.st.queue) | _ => false) | _ => false)) = true ∧
    (let p : Path := Path.device; let n : Fin 4096 := 1; let s := s0; decide (s.TakesImage p 12) && decide (s.st.queue.length ≤ 252) && decide (1 ≤ n.val) && decide (n.val ≤ 15)) = true ∧
    (let p : Path := Path.device; let k : Fin 16 := 1; let s := s0; (match s.goodSectors k with | _ :: _ => decide (s.TakesImage p 9) && decide (s.st.queue.length ≤ 240) && decide (k.val < 2) && decide (k.val ≠ s.boot.booted) | _ => false)) = true ∧
    (let p : Path := Path.device; let k : Fin 16 := 0; let s := s0; decide (s.TakesImage p 8) && decide (s.st.queue.length ≤ 240) && decide (k.val < 2) && decide (s.slotMeta.st k = .good) && decide (leAt (s.slotBytes k 0 256) 38 2 % 2 = 1) && decide (s.goodSectors 2 ≠ [])) = true := by decide +kernel

theorem witness_SlotCommandsWriteTheSlot_SlotCommandsWriteTheSlot_2 :
    (let p : Path := Path.device; let k : Fin 16 := 0; let s := s0; decide (s.Reaches p Reg.stwImageCmd) && decide (s.boot.job = none) && decide (s.boot.otpLife ≠ .scrapped) && (decide (k.val = 2 ∨ k.val = s.boot.booted ∧ k.val < 3)) && ([1, 2, 9]).any (fun op => decide (s.imageModeOk op = true))) = true := by decide +kernel

theorem witness_SlotCommandsWriteTheSlot_SlotRecordEndsItsCommand :
    (let s := s9; (match s.st.nor with | some ⟨.nor, _, .norMeta 1 _ _ _, .unit 1 0, _⟩ => decide (s.st.queue = []) && (match s.boot.job with | some (.metaStore code 0) => decide (code < 256) && decide (s.asc.recOf = []) | _ => false) | _ => false)) = true := by decide +kernel

theorem witness_ArmedCommandsBurnOtp_1 :
    (let p : Path := Path.device; let s := s2; let n : Fin 4096 := 1; decide (s.Reaches p Reg.stwImageCmd) && decide (s.boot.job = none) && decide (s.boot.otpLife ≠ .scrapped) && (match s.boot.image with | some im => decide (s.boot.booted < 3) && decide (s.imageModeOk 10 = true) && decide (1 ∈ s.armed) && decide (n.val ≤ 128) && decide (s.slotMeta.st s.boot.booted = .good) && decide (n.val ≤ im.rollback) && decide (s.slotMeta.stG = .good) && decide (n.val ≤ s.slotMeta.rbG) && decide (s.boot.floor < n.val) | _ => false)) = true ∧
    (let p : Path := Path.device; let s := s8; let n : Fin 4096 := 1; decide (s.Reaches p Reg.stwImageCmd) && decide (s.boot.job = none) && decide (s.boot.otpLife ≠ .scrapped) && (match s.boot.image with | some im => decide (s.boot.booted < 3) && decide (s.imageModeOk 10 = true) && decide (1 ∈ s.armed) && decide (n.val ≤ 128) && decide (s.slotMeta.st s.boot.booted = .good) && decide (n.val ≤ im.rollback) && decide (s.slotMeta.stG = .good) && decide (n.val ≤ s.slotMeta.rbG) && decide (1 ≤ n.val) && decide (n.val ≤ s.boot.floor) | _ => false)) = true ∧
    (let p : Path := Path.device; let s := s2; let n : Fin 4096 := 0; decide (s.Reaches p Reg.stwImageCmd) && decide (s.boot.job = none) && decide (s.boot.otpLife ≠ .scrapped) && (match s.boot.image with | some im => decide (s.boot.booted < 3) && decide (s.imageModeOk 10 = true) && decide (1 ∈ s.armed) && (decide (n.val = 0 ∨ 128 < n.val ∨ s.slotMeta.st s.boot.booted ≠ .good ∨ im.rollback < n.val ∨ s.slotMeta.rbG < n.val)) | _ => false)) = true ∧
    (let p : Path := Path.device; let s := s2; let k : Fin 4096 := 1; decide (s.Reaches p Reg.stwImageCmd) && decide (s.boot.job = none) && decide (s.boot.otpLife ≠ .scrapped) && (match s.boot.image with | some im => decide (s.boot.booted < 3) && decide (s.imageModeOk 11 = true) && decide (1 ∈ s.armed) && decide (k.val < 4) && decide (im.authSlot ≠ k.val) | _ => false)) = true ∧
    (let p : Path := Path.device; let s := s2; let k : Fin 4096 := 0; decide (s.Reaches p Reg.stwImageCmd) && decide (s.boot.job = none) && decide (s.boot.otpLife ≠ .scrapped) && (match s.boot.image with | some im => decide (s.boot.booted < 3) && decide (s.imageModeOk 11 = true) && decide (1 ∈ s.armed) && decide (im.authSlot = k.val) | _ => false)) = true ∧
    (let p : Path := Path.device; let s := s0; decide (s.Reaches p Reg.stwImageCmd) && decide (s.boot.job = none) && decide (s.boot.otpLife ≠ .scrapped) && (match s.boot.image with | some _ => decide (s.boot.booted < 3) && decide (1 ∉ s.armed) && decide (s.imageModeOk 10 = true) | _ => false)) = true := by decide +kernel

theorem witness_ArmedCommandsBurnOtp_2 :
    (let p : Path := Path.device; let s := s0; decide (s.Reaches p Reg.stwImageCmd) && decide (s.boot.job = none) && decide (s.boot.otpLife ≠ .scrapped) && (match s.boot.image with | some _ => decide (s.boot.booted < 3) && decide (1 ∉ s.armed) && decide (s.imageModeOk 11 = true) | _ => false)) = true := by decide +kernel

end G03

namespace G03b

def withMeta (s : State) (m : SlotMeta) : State := { s with boot := { s.boot with slotMeta := some m, metaRecs := [(recKey 0 0 0, m.bytes 1 none)], metaPos := [(0,1),(0,1)] } }
def trial : State := withMeta ready { slotM with stA := .trial, stB := .writing }
def good : State := withMeta ready slotM
def bt (s : State) (ph : Nat) (l : LifeCycle) : State := { m s .boot with boot := { s.boot with phase := ph, otpLife := l, booted := 3, image := none } }
def roots (s : State) (z : Bool) (r : Option (List Byte)) : State := { s with hdg := { s.hdg with zeroized := z, roots := List.replicate 4 r } }
def s0 : State := bt ready 0 .scrapped
def s1 : State := roots (bt good 0 .production) true none
def s2 : State := roots (bt good 0 .production) false (some [1,2,3])
def s8 : State := { bt ready 4 .raw with boot := { (bt ready 4 .raw).boot with cands := [0] } }
def s9 : State := bt ready 8 .raw
def s10 : State := { bt ready 8 .raw with led := { ready.led with scanned := false } }
def s11 : State := { bt ready 9 .raw with st := { ready.st with queue := [⟨.sealedRec, 2, .other, .nobody, true⟩] } }
def s12 : State := { bt ready 9 .raw with boot := { (bt ready 9 .raw).boot with image := some image } }

theorem witness_BootRunsToCalibrate_1 :
    (let s := s0; (decide (s.ctl.mode = .powerRise ∧ s.pow.dataRails = true ∨ s.ctl.mode = .boot ∧ s.boot.phase = 0)) && decide (s.boot.otpLife = .scrapped)) = true ∧
    (let s := s1; (decide (s.ctl.mode = .powerRise ∧ s.pow.dataRails = true ∨ s.ctl.mode = .boot ∧ s.boot.phase = 0)) && decide (s.boot.otpLife = .production) && decide (s.hdg.roots = List.replicate 4 none) && decide (s.hdg.pendingRoot = none) && decide (s.hdg.latch = none) && decide (s.hdg.zeroized = true)) = true ∧
    (let s := s2; (decide (s.ctl.mode = .powerRise ∧ s.pow.dataRails = true ∨ s.ctl.mode = .boot ∧ s.boot.phase = 0)) && decide (s.boot.otpLife = .raw ∨ s.boot.otpLife ≠ .scrapped ∧ s.presentRoot.isSome = true ∧ s.hdg.rootCheckOk = true) && decide (s.hdg.pendingRoot = none) && decide (s.hdg.latch = none) && decide (s.hdg.pend = []) && decide (s.boot.metaLost = false) && decide (s.metaOut = false)) = true ∧
    (let s := s8; decide (s.ctl.mode = .boot) && decide (s.boot.phase = 4) && (match s.boot.cands with | k :: ks => decide (k < 3) && decide (s.boot.metaLost = false) && decide (s.st.queue.length ≤ 248) && decide (s.slotMeta.st k = .good) && decide (ks = []) | _ => false)) = true ∧
    (let s := s9; decide (s.ctl.mode = .boot) && decide (s.boot.phase = 8) && decide (s.led.scanned = true)) = true ∧
    (let s := s10; decide (s.ctl.mode = .boot) && decide (s.boot.phase = 8) && decide (s.led.scanned = false)) = true := by decide +kernel

theorem witness_BootRunsToCalibrate_2 :
    (let s := s11; decide (s.ctl.mode = .boot) && decide (s.boot.phase = 9) && decide (s.st.queue ≠ [])) = true ∧
    (let s := s12; decide (s.ctl.mode = .boot) && decide (s.boot.phase = 9) && decide (s.st.queue = [])) = true := by decide +kernel

end G03b

namespace G04

def late (s : State) : State := { s with now := 3000000000 }
def al (s : State) : State := { (s.setFld (Reg.hdgSensorCfg 3) 18 16 2).setFlg Reg.hdgCfg 31 true with pow := { s.pow with alertN := true } }
def cmd (s : State) (c : ModeCmd) : State := { s with ctl := { s.ctl with cmd := some c } }
def rcfg (s : State) (v : Nat) : State := s.setFld Reg.stwModeCfg 1 0 v
def rec (s : State) (st : Nat) (md : Mode) (e : Nat) : State := { m s .recovery with ctl := { (m s .recovery).ctl with recStep := st, modeBefore := md, escalations := e, recIslands := [0, 9], partsBefore := full.partsNow, halted := true } }
def noctx (s : State) : State := { s with asc := Asc.reset, boot := { s.boot with image := some image }, fab := { s.fab with live := s.fab.live.filter (fun i => i != 0 && i != 9), inReset := [0, 9] } }
def st0 : StoreReq := ⟨.sealedRec, 2, .other, .nobody, true⟩
def led (s : State) (k : Nat) : State := { s with led := { s.led with cmd := some k }, st := { s.st with queue := [⟨.otherRec, 2, .releaseMark 1, .unit 14 0, true⟩, st0] } }
def s0 : State := full
def s2 : State := late (cmd full .goYoke)
def s3 : State := late (cmd (m full .service) .stop)
def s5 : State := m full .service
def s6 : State := m full .yokeLead
def s7 : State := { full with yok := { full.yok with lanes := 15 } }
def s13 : State := { m full .selfTest with ctl := { (m full .selfTest).ctl with selfTestMask := 5 } }
def s14 : State := { full with ctl := { full.ctl with degraded := true } }
def s15 : State := m full .calibrate
def s16 : State := rcfg { full with ctl := { full.ctl with autoOn := true } } 1
def s17 : State := rcfg { ready with ctl := { ready.ctl with autoOn := true } } 1
def s18 : State := rec (noctx ready) 4 .ready 0
def s20 : State := rec full 4 .service 15
def s21 : State := rec full 6 .service 0
def s22 : State := rec full 6 .ready 0
def s24 : State := { full with st := { full.st with queue := List.replicate 256 st0, mram := some st0, nor := some st0 } }
def s25 : State := { full with st := { full.st with queue := [st0] } }
def s26 : State := { full with st := { full.st with mram := some ⟨.stale, 2, .stale true, .nobody, false⟩ } }
def s27 : State := led full 3
def s28 : State := led full 5

theorem witness_ModeCommandsComplete :
    (let p : Path := Path.device; let s := s0; decide (s.Reaches p Reg.stwModeCmd) && decide (s.ctl.cmd = none) && decide (s.ctl.mode = .ready) && decide (s.boot.otpLife ≠ .raw) && decide (s.setComplete = true)) = true ∧
    (let p : Path := Path.device; let s := s0; decide (s.Reaches p Reg.stwModeCmd) && decide (s.ctl.cmd = none) && decide (s.ctl.mode = .ready) && decide (s.ctl.responseEnds ≤ s.now)) = true ∧
    (let p : Path := Path.device; let s := s6; decide (s.Reaches p Reg.stwModeCmd) && decide (s.ctl.cmd = none) && decide (s.ctl.mode = .yokeLead)) = true ∧
    (let p : Path := Path.device; let s := s0; decide (s.Reaches p Reg.stwModeCmd) && decide (s.ctl.cmd = none) && decide (s.ctl.level2 = []) && decide (s.ctl.stuck = false)) = true := by decide +kernel

theorem witness_RunningModeCommands_1 :
    (let p : Path := Path.device; let s := s7; decide (s.Reaches p Reg.stwModeCmd) && decide (s.ctl.cmd = none) && decide (s.ctl.mode = .ready) && decide (s.boot.otpLife ≠ .raw) && decide (s.setComplete = true) && decide (s.yok.lanes = 15)) = true ∧
    (let s := s2; decide (s.ctl.cmd = some .goYoke) && decide (s.twinHeard = false) && decide (s.ctl.cmdStart + 1000000000 ≤ s.now)) = true ∧
    (let s := s0; decide (s.ctl.cmd ≠ some .goYoke ∨ s.twinHeard = true ∨ s.now < s.ctl.cmdStart + 1000000000)) = true ∧
    (let p : Path := Path.device; let s := s5; decide (s.Reaches p Reg.stwModeCmd) && decide (s.ctl.cmd = none) && (decide (s.ctl.mode = .service ∨ s.ctl.mode.isYoke = true))) = true ∧
    (let s := s3; decide (s.ctl.cmd = some .stop) && decide (s.ctl.mode = .service) && decide (s.sch.frames = [] ∨ s.ctl.cmdStart + 1000000 ≤ s.now)) = true ∧
    (let s := s0; decide (s.ctl.cmd ≠ some .stop ∨ s.sch.frames ≠ [] ∧ s.now < s.ctl.cmdStart + 1000000)) = true := by decide +kernel

theorem witness_RunningModeCommands_2 :
    (let p : Path := Path.device; let s := s2; decide (s.Reaches p Reg.stwModeCmd) && decide (s.ctl.cmd.isSome = true) && ([Instr.goService p, .goYoke p, .modeStop p, .selfTest p 0, .unyoke p, .moduleReset p, .clearDegrade p, .modeCmdUnknown p 8]).any (fun c => true)) = true := by decide +kernel

theorem witness_FirstFailingGuardGivesTheCode :
    (let p : Path := Path.device; let s := s0; let op : Fin 16 := 0; decide (s.Reaches p Reg.stwModeCmd) && decide (s.ctl.cmd = none) && (decide (8 ≤ op.val) || decide (s.ctl.mode ≠ .ready) || decide (s.ctl.mode = .ready ∧ s.boot.otpLife = .raw) || decide (s.ctl.mode = .ready ∧ s.boot.otpLife ≠ .raw ∧ s.setComplete = false) || decide (s.ctl.mode ≠ .ready ∧ s.ctl.mode ≠ .service) || decide (s.ctl.mode = .ready ∧ s.boot.otpLife ≠ .raw ∧ s.setComplete = true ∧ s.yok.lanes ≠ 15) || decide (s.ctl.mode = .ready) || decide (s.ctl.mode = .service) || decide (s.ctl.mode = .ready ∧ s.now < s.ctl.responseEnds) || decide (s.ctl.mode ≠ .yokeLead) || decide (s.ctl.stuck = false ∧ s.ctl.level2 ≠ []))) = true := by decide +kernel

theorem witness_SelfTestAndAutomaticAttempts_SelfTestReportsAndReturns :
    (let fail : BitVec 6 := 4; let s := s13; decide (s.ctl.mode = .selfTest) && decide (s.ctl.selfTestMask < 64) && decide (fail.toNat &&& s.ctl.selfTestMask ≠ 0)) = true := by decide +kernel

theorem witness_ModuleResetEntersBoot :
    (let p : Path := Path.device; let s := s14; decide (s.ctl.mode ≠ .sentry) && ([decide (s.Reaches p Reg.stwModeCmd ∧ s.ctl.cmd = none), decide (s.Reaches p Reg.stwImageCmd ∧ s.boot.job = none ∧ s.boot.otpLife ≠ .scrapped ∧ s.imageModeOk 7 = true), true]).any (fun ok => decide (ok = true) && decide (s.ctl.degraded = true))) = true := by decide +kernel

theorem witness_SelfTestAndAutomaticAttempts_AutomaticAttempts :
    (let s := s15; decide (s.ctl.mode = .calibrate) && decide (s.fld Reg.stwModeCfg 1 0 ≠ 1) && decide (s.fld Reg.stwModeCfg 1 0 ≠ 2)) = true ∧
    (let s := s16; decide (s.ctl.mode = .ready) && decide (s.ctl.autoOn = true) && decide (s.fld Reg.stwModeCfg 1 0 = 1) && decide (s.modeGuard 1 = 0)) = true ∧
    (let s := s17; decide (s.ctl.mode = .ready) && decide (s.ctl.autoOn = true) && decide (s.fld Reg.stwModeCfg 1 0 = 1) && decide (s.modeGuard 1 ≠ 0)) = true ∧
    (let s := s0; decide (s.ctl.mode ≠ .ready ∨ s.ctl.autoOn = false)) = true := by decide +kernel

theorem witness_RecoveryReleasesAndResumes :
    (let s := s18; decide (s.ctl.mode = .recovery) && decide (s.ctl.recStep = 4) && decide (s.ctl.stuck = false) && decide (s.asc.ctxs = []) && decide (s.asc.cache = []) && (decide (∀ i ∈ s.ctl.recIslands, i ≠ 14 ∧ i ≠ 15)) && ((List.range 16).all (fun g => decide (s.groupKind g = 0)))) = true ∧
    (let s := s18; decide (s.ctl.mode = .recovery) && decide (s.ctl.recStep = 4) && decide (s.ctl.stuck = false) && decide (s.ctl.escalations + 1 ≤ s.recoveryLimit)) = true ∧
    (let s := s20; decide (s.ctl.mode = .recovery) && decide (s.ctl.recStep = 4) && decide (s.ctl.stuck = false) && decide (s.recoveryLimit < s.ctl.escalations + 1)) = true ∧
    (let s := s21; decide (s.ctl.mode = .recovery) && decide (s.ctl.recStep = 6) && decide (s.ctl.stuck = false) && decide (s.mgd.initDone = true) && decide (s.ctl.partsBefore &&& s.partsNow = s.ctl.partsBefore) && decide (s.ctl.modeBefore = .service)) = true ∧
    (let s := s22; decide (s.ctl.mode = .recovery) && decide (s.ctl.recStep = 6) && decide (s.ctl.stuck = false) && decide (s.mgd.initDone = true) && decide (s.ctl.partsBefore &&& s.partsNow = s.ctl.partsBefore) && decide (s.ctl.modeBefore = .ready)) = true := by decide +kernel

theorem witness_StoresStartUnderTheEnergyCheck_StoresStartUnderTheEnergyCheck :
    (let cls : Fin 8 := 0; let cost : Nat := 0; let s := s0; decide (cls.val ≠ 7) && decide (s.st.queue = []) && decide (s.st.mram = none) && decide (s.pow.pfStep = 0) && decide (cost + s.reserveMj + costOf s.st.nor ≤ s.pow.eAvail)) = true ∧
    (let cls : Fin 8 := 0; let cost : Nat := Reg.hdgCfg; let s := s0; decide (cls.val ≠ 7) && decide (s.st.queue = []) && decide (s.st.mram = none) && decide (s.pow.pfStep = 0) && decide (s.pow.eAvail < cost + s.reserveMj + costOf s.st.nor)) = true ∧
    (let s := s24; decide (256 ≤ s.st.queue.length) && decide (s.ctl.mode ≠ .sentry) && decide (s.ctl.mode.erases = false)) = true ∧
    (let s := s25; (match s.st.queue with | [r] => decide (r.cls ≠ .nor) && decide (s.st.mram = none) && decide (s.pow.pfStep = 0) && decide (r.cost + s.reserveMj + costOf s.st.nor ≤ s.pow.eAvail) | _ => false)) = true ∧
    (let s := s26; (match s.st.mram with | some ⟨.stale, _, .stale _, .nobody, _⟩ => decide (s.st.queue = []) && decide (s.asc.recOf = []) | _ => false)) = true ∧
    (let s := s0; decide (s.st.mram = none)) = true := by decide +kernel

theorem witness_StoresStartUnderTheEnergyCheck_DeferredStoresEndTheirCommand :
    (let s := s27; (decide (∃ r, r ∈ s.st.queue ∧ r.who = .unit 14 0)) && (match s.led.cmd with | some k => decide (k ≠ 5) | _ => false)) = true ∧
    (let s := s28; (decide (∃ r, r ∈ s.st.queue ∧ r.who = .unit 14 0)) && decide (s.led.cmd = some 5)) = true := by decide +kernel

end G04

namespace G05

def bare (s : State) : State := { s with line := { s.line with lanes := [], groups := [], eth := [] }, rows := { s.rows with pages := [], pairs := [] } }
def lanesF (s : State) (f : Nat → Lane → Lane) : State := { s with line := { s.line with lanes := s.line.lanes.mapIdx f } }
def aligned : State := lanesF full (fun n l => if n ≥ 16 then { l with align := .sync 0, prevSheaf := 5, signal := true, cdrLock := true, cwLock := true, rxGroup := n - 16, tagIdx := 0 } else l)
def defect : State := lanesF full (fun _ l => { l with los := true, lol := true, sd := true, exc := true, sdQuiet := 5, excQuiet := 5, align := .presync 1, prevSheaf := 5 })
def pre2 : State := lanesF full (fun _ l => { l with loa := true, align := .presync 2, prevSheaf := 5 })
def syn3 : State := lanesF full (fun _ l => { l with align := .sync 3, prevSheaf := 5 })
def sheafy (sh mk : Nat) (st : Bool) (asked : Option Nat) (snd : Bool) : State := { full with line := { full.line with sheaf := sh, mark := mk, stalled := st, markAsked := asked, sending := snd } }
def trb : State := (((full.setFld (Reg.rixRcm 0 3) 15 15 1).setFld (Reg.rixRcm 0 3) 8 0 7))
def off (s : State) : State := (s.wr (Reg.lnfEthCtrl 3) 0).wr (Reg.lnfGrpCtrl 3) 0
def hd (no : Nat) (g i : Nat) : List Byte :=
  let body := beBytes 6 no ++ beBytes 1 (g * 16) ++ beBytes 1 (i * 32) ++ zeroBytes 140
  markerBytes ++ [quarterCodes.getD (no % 4) 0] ++ beBytes 1 (i*32+2) ++ body ++ beBytes 4 (crc32 body)
def s0 : State := full
def s2 : State := lanesF full (fun _ l => { l with windows := true, sd := true, exc := true, sdQuiet := 9, excQuiet := 9 })
def s6 : State := { (sheafy 5 10 false none true) with ctl := { full.ctl with mode := .service }, line := { (sheafy 5 10 false none true).line with heads := [(0, 0, [1,2]), (1,0,[3])] } }
def s7 : State := ready
def s8 : State := m full .sentry
def s9 : State := aligned
def s10 : State := defect
def s16 : State := sheafy 10 10 true (some 40) false
def s17 : State := trb
def s22 : State := { full with line := { full.line with groups := full.line.groups.map (fun g => { g with aligned := true, sf := true, loga := false }), eth := full.line.eth.map (fun e => { e with aligned := true, up := true }) } }

theorem witness_LanesPortsAndSeconds_LanesAndPortsFollowTheirDefects_1 :
    (let n : Fin 32 := 2; let s := s0; decide (s.Calm) && decide ((s.lane n).los = false)) = true ∧
    (let n : Fin 32 := 2; let s := s0; decide (s.Calm) && decide ((s.lane n).lol = false)) = true ∧
    (let n : Fin 32 := 2; let s := s10; decide ((s.lane n).los = true)) = true ∧
    (let n : Fin 32 := 2; let s := s10; decide ((s.lane n).lol = true)) = true ∧
    (let n : Fin 32 := 2; let s := s10; decide (s.Calm) && decide ((s.lane n).los = true)) = true ∧
    (let n : Fin 32 := 2; let s := s10; decide (s.Calm) && decide ((s.lane n).lol = true)) = true := by decide +kernel

theorem witness_LanesPortsAndSeconds_LanesAndPortsFollowTheirDefects_2 :
    (let n : Fin 32 := 2; let s := s0; decide ((s.lane n).windows = false)) = true ∧
    (let n : Fin 32 := 2; let s := s2; decide (s.Calm) && decide ((s.lane n).windows = true)) = true ∧
    (let s := s0; decide (s.Calm)) = true ∧
    (let p : Fin 32 := 2; let s := s7; decide (s.ethEnabled p = false)) = true ∧
    (let p : Fin 32 := 17; let s := s22; decide (s.ethEnabled p = true) && decide (16 ≤ p.val) && decide ((s.group (p - 16)).sf = true)) = true ∧
    (let p : Fin 32 := 2; let s := s0; decide (s.ethEnabled p = true) && (decide (16 ≤ p.val → (s.group (p - 16)).sf = false))) = true := by decide +kernel

theorem witness_GlafoldLanesAlign_1 :
    (let n : Fin 32 := 17; let m : List Byte := hd 6 1 0; let s := s0; (match s.groupOfLane n with | some g => decide (s.isGlafold g = true) && decide ((s.lane n).align = .hunt) && decide (markerMatches m = true) | _ => false)) = true ∧
    (let n : Fin 32 := 17; let m : List Byte := []; let s := s0; (match s.groupOfLane n with | some g => decide (s.isGlafold g = true) && decide ((s.lane n).align ≠ .hunt ∨ markerMatches m = false) | _ => false)) = true ∧
    (let n : Fin 32 := 17; let s := s10; decide (s.Calm) && (match s.groupOfLane n with | some g => decide (s.isGlafold g = true) && (match (s.lane n).align with | .presync _ => true | _ => false) | _ => false)) = true ∧
    (let n : Fin 32 := 17; let h : List Byte := []; let s := s9; decide (s.Calm) && (match s.groupOfLane n with | some g => decide (s.isGlafold g = true) && (match (s.lane n).align with | .sync _ => decide (markerMatches (h.take 8) = false) | _ => false) | _ => false)) = true ∧
    (let g : Fin 16 := 15; let s := s0; decide (s.isGlafold g = false)) = true ∧
    (let g : Fin 16 := 0; let s := s0; decide (s.Calm) && decide (s.isGlafold g = true)) = true := by decide +kernel

set_option maxRecDepth 100000 in
theorem witness_GlafoldLanesAlign_2 :
    (let n : Fin 32 := 17; let h : List Byte := hd 6 1 0; let s := s9; decide (s.Calm) && (match s.groupOfLane n with | some g => decide (s.isGlafold g = true) && (match (s.lane n).align with | .sync _ => decide (markerMatches (h.take 8) = true) && decide (headGood h = true) && decide (ofBe (slice h 8 6) = (s.lane n).prevSheaf + 1) | _ => false) | _ => false)) = true := by decide +kernel

set_option maxRecDepth 100000 in
theorem witness_GlafoldLanesAlign_3 :
    (let n : Fin 32 := 17; let h : List Byte := (hd 6 1 0).take 8; let s := s9; decide (s.Calm) && (match s.groupOfLane n with | some g => decide (s.isGlafold g = true) && (match (s.lane n).align with | .sync _ => decide (markerMatches (h.take 8) = true) && decide (headGood h = false) | _ => false) | _ => false)) = true := by decide +kernel

theorem witness_SheavesAndTributaries_1 :
    (let s := s8; decide (s.sheafTimer = false)) = true ∧
    (let s := s6; decide (s.sheafTimer = true) && decide (s.line.stalled = false) && decide (s.isFollower = true ∨ s.line.sheaf < s.line.mark)) = true ∧
    (let s := s0; decide (s.sheafTimer = true) && decide (s.line.stalled = false) && decide (s.isFollower = false) && decide (s.line.mark ≤ s.line.sheaf) && decide (s.line.sending = false)) = true ∧
    (let s := s16; decide (s.sheafTimer = true) && decide (s.line.stalled = true) && decide (s.line.sending = false) && decide (s.line.markAsked.isSome = true)) = true ∧
    (let k : Fin 512 := 7; let hdr : BitVec 32 := BitVec.ofNat 32 (100 * 65536 + crc16 (beBytes 2 100)); let first : Bool := true; let at_ : Bool := true; let s := s17; decide (s.tribCarried k = true) && decide ((s.tribRx k).following = true ∨ (first && at_) = true) && decide (((s.tribRx k).following && first && !at_) = false) && decide (hdr.toNat % 65536 = crc16 (beBytes 2 (hdr.toNat / 65536))) && decide (hdr.toNat / 65536 = 0 ∨ 64 ≤ hdr.toNat / 65536 ∧ hdr.toNat / 65536 ≤ 9248)) = true ∧
    (let k : Fin 512 := 7; let hdr : BitVec 32 := 0; let first : Bool := true; let at_ : Bool := true; let s := s17; decide (s.tribCarried k = true) && decide ((s.tribRx k).following = true ∨ (first && at_) = true) && decide (((s.tribRx k).following && first && !at_) = false) && decide (s.ctl.mode ≠ .sentry) && decide (hdr.toNat % 65536 ≠ crc16 (beBytes 2 (hdr.toNat / 65536)))) = true := by decide +kernel

theorem witness_SheavesAndTributaries_2 :
    (let k : Fin 512 := 7; let s := s0; decide (s.tribCarried k = false)) = true ∧
    (let s := s6; decide (s.sheafTimer = true) && decide (s.line.sending = true) && decide (s.lineOff = false)) = true ∧
    (let x : LaneSheaf := ⟨0,0,5,true,List.replicate 160 7,[⟨List.replicate 10240 3,2,[(3,0),(4,1)]⟩]⟩; let r : Nat := 0; (decide (∀ y ∈ x.tribs, ∀ p ∈ y.rows, p.1 ≠ r))) = true := by decide +kernel

theorem witness_LanesPortsAndSeconds_LaneTestsAndEnables_1 :
    (let p : Path := Path.device; let n : Fin 32 := 2; let v : Word := 0; let s := s0; decide (s.Reaches p (Reg.lnfLaneCtrl n)) && decide (s.Calm) && (decide (prbsOf v = 0 ∧ loopOf v = 0 ∨ s.testAllowed n = true))) = true ∧
    (let p : Path := Path.device; let n : Fin 32 := 2; let v : Word := 0x10; let s := s6; decide (s.Reaches p (Reg.lnfLaneCtrl n)) && (decide (prbsOf v ≠ 0 ∨ loopOf v ≠ 0)) && decide (s.testAllowed n = false)) = true ∧
    (let p : Path := Path.device; let i : Fin 32 := 17; let v : Word := 0; let s := s0; decide (s.Calm) && decide (s.Reaches p (Reg.lnfEthCtrl i)) && decide ((s.xbar i).kind ≠ 0 ∨ bit v 0 = false) && decide (16 ≤ i.val)) = true ∧
    (let p : Path := Path.device; let i : Fin 32 := 2; let v : Word := 0; let s := s0; decide (s.Calm) && decide (s.Reaches p (Reg.lnfEthCtrl i)) && decide ((s.xbar i).kind ≠ 0 ∨ bit v 0 = false) && decide (i.val < 16)) = true ∧
    (let p : Path := Path.device; let i : Fin 32 := 2; let v : Word := 0x301; let s := s7; decide (s.Calm) && decide (s.Reaches p (Reg.lnfEthCtrl i)) && decide ((s.xbar i).kind = 0) && decide (bit v 0 = true)) = true ∧
    (let p : Path := Path.device; let i : Fin 32 := 2; let v : Word := 0; let s := s0; decide (s.Calm) && decide (i.val < 16) && decide (s.Reaches p (Reg.lnfGrpCtrl i)) && decide (s.groupKind i ≠ 0 ∨ bit v 0 = false)) = true := by decide +kernel

theorem witness_LanesPortsAndSeconds_LaneTestsAndEnables_2 :
    (let p : Path := Path.device; let i : Fin 32 := 2; let v : Word := 0x301; let s := s7; decide (s.Calm) && decide (i.val < 16) && decide (s.Reaches p (Reg.lnfGrpCtrl i)) && decide (s.groupKind i = 0) && decide (bit v 0 = true)) = true := by decide +kernel

end G05

namespace G06

def paired : State := full.wr (Reg.rixPairCfg 1) (BitVec.ofNat 32 (1 + 2*16 + 3*256))
def pr (f : Pair → Pair) : State := { paired with rows := { paired.rows with pairs := paired.rows.pairs.map f } }
def page (s : State) : State := { s with rows := { s.rows with pages := s.rows.pages.map (fun p => { p with txSwap := some 30, rxSwap := some 9 }) } }
def s0 : State := full
def s1 : State := ready
def s2 : State := paired

theorem witness_PagesSwapAndPairsAreChecked :
    (let p : Path := Path.device; let v : Word := 0; let s := s0; decide (s.Reaches p Reg.rixSwapCmd) && decide (s.ctl.mode.isYoke = false) && decide (s.swapCode (swapGroup v) = 0)) = true ∧
    (let p : Path := Path.device; let v : Word := 0x2a; let s := s0; decide (s.Reaches p Reg.rixSwapCmd) && decide (s.ctl.mode.isYoke = false) && decide (s.swapCode (swapGroup v) ≠ 0)) = true ∧
    (let p : Path := Path.device; let rx : Bool := true; let page : Fin 2 := 1; let row : Fin 512 := 3; let s := s0; decide (s.Reaches p (if rx then Reg.rixRcm page row else Reg.rixTcm page row)) && decide (s.ctl.mode.isYoke = false) && (match s.groupOfLane (16 + row / 32) with | some g => decide (s.isGlafold g = true) && (decide (if rx then page.val ≠ (s.gpages g).rxActive ∧ (s.gpages g).rxSwap = none else page.val ≠ (s.gpages g).txActive ∧ (s.gpages g).txSwap = none)) | _ => false)) = true ∧
    (let p : Path := Path.device; let rx : Bool := true; let page : Fin 2 := 0; let row : Fin 512 := 3; let s := s1; decide (s.Reaches p (if rx then Reg.rixRcm page row else Reg.rixTcm page row)) && decide (s.ctl.mode.isYoke = false) && decide (s.groupOfLane (16 + row / 32) = none)) = true ∧
    (let p : Path := Path.device; let k : Fin 8 := 0; let v : Word := 0x21; let s := s0; decide (s.Reaches p (Reg.rixPairCfg k)) && decide (s.ctl.mode.isYoke = false) && decide (s.pairEnabled k = false) && decide (bit v 0 = true) && decide (s.pairAllowed k (v &&& 0xFFFF#32) = true) && decide ((s.group (bits v 7 4)).sf = false) && decide ((s.group (bits v 7 4)).sd = false)) = true ∧
    (let p : Path := Path.device; let k : Fin 8 := 0; let v : Word := 0x323; let s := s0; decide (s.Reaches p (Reg.rixPairCfg k)) && decide (s.ctl.mode.isYoke = false) && decide (s.pairEnabled k = false) && decide (bit v 0 = true) && decide (s.pairAllowed k (v &&& 0xFFFF#32) = false)) = true := by decide +kernel

theorem witness_ApsCommandsAndTimers :
    (let p : Path := Path.device; let k : Fin 8 := 1; let s := s2; decide (s.Reaches p (Reg.rixApsCmd k)) && decide (s.ctl.mode.isYoke = false) && decide (s.pairEnabled k = true) && (true || true || s.forcedAllowed k || s.manualAllowed k || s.manualAllowed k)) = true ∧
    (let p : Path := Path.device; let k : Fin 8 := 0; let op : Fin 16 := 0; let s := s0; decide (s.Reaches p (Reg.rixApsCmd k)) && decide (s.ctl.mode.isYoke = false) && (!s.pairEnabled k || !s.pairEnabled k || !s.pairEnabled k || !s.pairEnabled k || !s.pairEnabled k || s.pairEnabled k && !s.forcedAllowed k || s.pairEnabled k && !s.manualAllowed k || s.pairEnabled k && !s.manualAllowed k || decide (6 ≤ op.val))) = true := by decide +kernel

end G06

namespace G07

def e1 : AltEntry := ⟨1, false, true, 3, 0, beBytes 2 0xFFF ++ [2,2,3,4,5,6] ++ zeroBytes 4, 5, false, 0, 0x3FF, 0, true, 3⟩
def e2 : AltEntry := { e1 with stat := true, hit := false, owner := 0, key := beBytes 2 0xFFF ++ [4,2,3,4,5,6] ++ zeroBytes 4, assoc := 6, classEn := true, cls := 2, output := 5 }
def put (s : State) (e : AltEntry) : State := s.altPut ((s.candidates e.toKey).headD 0) (some e)
def cls : State :=
  let s := { (full.setFlg Reg.clsCtrl 1 true).setFlg Reg.clsCtrl 2 true with now := full.now }
  (List.range 16).foldl (fun s p => ((s.setFld (Reg.clsPortCfg p) 7 6 1).setFlg (Reg.clsPortCfg p) 4 true).setFld (Reg.clsPortQuota p) 18 0 100) s
def clsE : State := put (put cls e1) e2
def withCmd (s : State) (e : AltEntry) : State := let b := { e with hit := false, age := 0 }.bytes
  (s.putEntry 0 b).putEntry 3 b
def frame (d : Byte) : List Byte := [d,2,3,4,5,6, 2,9,9,9,9,9, 0x08, 0x06] ++ zeroBytes 50
def lr (e : AltEntry) : LearnReq := ⟨e.domain, e.key, 3, 5⟩
def qd (s : State) (l p : List LearnReq) (fl : List Flush) : State := { s with cls := { s.cls with learnQ := l, probes := p, flushes := fl } }
def own3 (s : State) : State := s
def s0 : State := full
def s1 : State := cls
def s2 : State := clsE
def s3 : State := withCmd clsE e1
def s5 : State := withCmd cls e1
def s7 : State := qd clsE [lr e1] [lr e1] [⟨0,3,false,2⟩]
def s8 : State := qd cls [lr e1, lr e2] [lr e2] []
def s12 : State := { clsE with cls := { clsE.cls with bucket := 65535, alt := [((clsE.candidates e1.toKey).headD 0, some {e1 with hit := false}), (262143, some {e1 with hit := false})] } }
def s15 : State := { clsE with cls := { clsE.cls with probes := [lr e1], probeWait := [(lr e2, 1)] }, fab := { clsE.fab with live := [] } }
def s17 : State := { full with line := { full.line with lanes := [], groups := [], eth := [] }, rows := { full.rows with pages := [], pairs := [] } }

theorem witness_ClassifierCommandsAndSeeds_ClassifierCommands_1 :
    (let p : Path := Path.device; let s := s3; decide (s.Takes p Reg.clsCmd) && decide (s.clsBusy p.allot = false) && (match s.altFind (AltEntry.ofBytes (s.cmdEntry p.allot)).toKey with | some i => (match s.altAt i with | some e => decide (reaches p.allot e.owner = true) | _ => false) | _ => false)) = true ∧
    (let p : Path := Path.device; let s := s0; decide (s.Takes p Reg.clsCmd) && decide (s.clsBusy p.allot = false) && decide (s.altFind (AltEntry.ofBytes (s.cmdEntry p.allot)).toKey = none)) = true ∧
    (let p : Path := Path.device; let s := s2; decide (s.Takes p Reg.clsCmd) && decide (s.clsBusy p.allot = false) && (match s.cls.alt.find? (fun x => decide (s.fld (privKey p.allot Reg.clsCmdIndex) 17 0 ≤ x.1) && (match x.2 with | some e => reaches p.allot e.owner && passesFilter (s.rd (privKey p.allot Reg.clsCmdFilter)) e | none => false)) with | some (_, some _) => true | _ => false)) = true ∧
    (let p : Path := Path.device; let s := s0; decide (s.Takes p Reg.clsCmd) && decide (s.clsBusy p.allot = false) && decide (s.cls.alt = [])) = true ∧
    (let p : Path := Path.device; let s := s5; decide (s.Takes p Reg.clsCmd) && decide (s.clsBusy p.allot = false) && decide (s.isFollower = false) && decide (altInvalid (s.cmdEntry p.allot) = false) && decide (s.mayInsert p.allot (AltEntry.ofBytes (s.cmdEntry p.allot)) = true) && decide (s.altFind (AltEntry.ofBytes (s.cmdEntry p.allot)).toKey = none) && (match (s.candidates (AltEntry.ofBytes (s.cmdEntry p.allot)).toKey).find? (fun j => (s.altAt j).isNone) with | some _ => true | _ => false)) = true ∧
    (let p : Path := Path.device; let s := s3; decide (s.Takes p Reg.clsCmd) && decide (s.clsBusy p.allot = false) && decide (s.isFollower = false) && decide (altInvalid (s.cmdEntry p.allot) = false) && decide (s.mayInsert p.allot (AltEntry.ofBytes (s.cmdEntry p.allot)) = true) && (match s.altFind (AltEntry.ofBytes (s.cmdEntry p.allot)).toKey with | some i => (match s.altAt i with | some _ => true | _ => false) | _ => false)) = true := by decide +kernel

theorem witness_ClassifierCommandsAndSeeds_ClassifierCommands_2 :
    (let p : Path := Path.device; let s := s3; decide (s.Takes p Reg.clsCmd) && decide (s.clsBusy p.allot = false) && decide (s.isFollower = false) && decide (altInvalid (s.cmdEntry p.allot) = false) && decide (s.mayInsert p.allot (AltEntry.ofBytes (s.cmdEntry p.allot)) = true) && (match s.altFind (AltEntry.ofBytes (s.cmdEntry p.allot)).toKey with | some i => (match s.altAt i with | some o => decide (reaches p.allot o.owner = true) | _ => false) | _ => false)) = true ∧
    (let p : Path := Path.device; let s := s3; decide (s.Takes p Reg.clsCmd) && decide (s.clsBusy p.allot = false) && decide (s.isFollower = false) && (match s.altFind (AltEntry.ofBytes (s.cmdEntry p.allot)).toKey with | some i => (match s.altAt i with | some e => decide (reaches p.allot e.owner = true) | _ => false) | _ => false)) = true ∧
    (let p : Path := Path.device; let s := s0; let port : Fin 16 := 3; decide (s.Takes p Reg.clsCmd) && decide (s.clsBusy p.allot = false) && decide (s.isFollower = false) && (decide (p.allot = 0 ∨ s.portOwner port = p.allot))) = true ∧
    (let p : Path := Path.device; let s := s0; decide (s.Takes p Reg.clsCmd) && decide (s.clsBusy p.allot = false) && decide (p.allot = 0)) = true ∧
    (let p : Path := Path.device; let s := s0; let op : Fin 16 := 7; decide (s.Takes p Reg.clsCmd) && decide (s.clsBusy p.allot = false) && decide (7 ≤ op.val)) = true ∧
    (let s := s7; (match s.cls.flushes with | _ :: _ => decide (s.ctl.mode ≠ .sentry) | _ => false)) = true := by decide +kernel

theorem witness_ClassifierCommandsAndSeeds_SeedsReaperAndBypass :
    (let p : Path := Path.device; let one : Bool := true; let s := s0; decide (s.Reaches p (if one then Reg.clsHashSeed1 else Reg.clsHashSeed0)) && decide (s.cls.alt = [])) = true ∧
    (let p : Path := Path.device; let one : Bool := true; let s := s2; decide (s.Reaches p (if one then Reg.clsHashSeed1 else Reg.clsHashSeed0)) && decide (s.cls.alt ≠ [])) = true ∧
    (let s := s0; decide (s.flg Reg.clsCtrl 2 = true) && decide (s.isFollower = false) && decide (s.clsLive = true) && decide (s.cls.visitAt ≤ s.now) && decide (s.cls.bucket < 65535)) = true ∧
    (let s := s12; decide (s.flg Reg.clsCtrl 2 = true) && decide (s.isFollower = false) && decide (s.clsLive = true) && decide (s.cls.visitAt ≤ s.now) && decide (s.cls.bucket = 65535)) = true ∧
    (let s := s15; decide (s.flg Reg.clsCtrl 2 = false ∨ s.isFollower = true ∨ s.clsLive = false ∨ s.now < s.cls.visitAt)) = true ∧
    (let s := s0; decide (s.Calm)) = true := by decide +kernel

theorem witness_FramesLookUpAndLearn_1 :
    (let p : Fin 16 := 3; let f : List Byte := frame 2; let s := s2; decide (s.portUp p = true) && decide (s.clsLive = true) && (match s.frameKey p f with | some (some k) => (match s.altFind k with | some i => (match s.altAt i with | some e => (match s.ctx e.assoc with | some _ => true | _ => false) | _ => false) | _ => false) | _ => false)) = true ∧
    (let p : Fin 16 := 3; let f : List Byte := frame 2; let s := s1; decide (s.portUp p = true) && decide (s.clsLive = true) && (match s.frameKey p f with | some (some k) => decide (s.altFind k = none) && decide ((f.getD 0 0).toNat % 2 = 0) && decide (s.flg (Reg.clsPortMiss p) 31 = false) && decide (s.flg (Reg.clsPortCfg p) 1 = false) | _ => false)) = true ∧
    (let p : Fin 16 := 3; let s := s17; decide (s.portUp p = false)) = true ∧
    (let s := s8; (match s.cls.probes with | r :: _ => decide (s.cls.probeWait = []) && decide (s.clsLive = true) && decide (s.altFind ⟨1, r.domain, r.key⟩ = none) && decide (s.mayLearn r.port = true) && decide (s.flushing r.port = false) && decide (s.atQuota r.port = false) && decide (s.cls.learnQ.length < 4096) | _ => false)) = true ∧
    (let s := s7; (match s.cls.probes with | r :: _ => decide (s.cls.probeWait = []) && decide (s.clsLive = true) && (match s.altFind ⟨1, r.domain, r.key⟩ with | some i => (match s.altAt i with | some e => decide (e.assoc = r.assoc) | _ => false) | _ => false) | _ => false)) = true ∧
    (let s := s8; (match s.cls.learnQ with | r :: _ => decide (s.altFind ⟨1, r.domain, r.key⟩ = none) && decide (s.flushing r.port = false) && decide (s.mayLearn r.port = true) && decide (s.atQuota r.port = false) && (match (s.candidates ⟨1, r.domain, r.key⟩).find? (fun j => (s.altAt j).isNone) with | some _ => true | _ => false) | _ => false)) = true := by decide +kernel

theorem witness_FramesLookUpAndLearn_2 :
    (let s := s7; (match s.cls.learnQ with | r :: _ => decide ((s.altFind ⟨1, r.domain, r.key⟩).isSome = true) | _ => false)) = true ∧
    (let s := s15; (match s.cls.probes with | _ :: _ => (match s.cls.probeWait with | _ :: _ => decide (s.clsLive = false) | _ => false) | _ => false)) = true := by decide +kernel

end G07

namespace G08

def txf : List Byte := let b := [2,2,3,4,5,6, 2,9,9,9,9,9, 0x08, 0x06] ++ zeroBytes 46; b ++ leBytes 4 (crc32 b)
def fr0 : Frame := { newFrame full txf 3 true 5 3 2 false with whole := true, cells := 1, refs := 1, id := 7 }
def frD : Frame := { fr0 with encrypt := false, pn := 9, verdict := some true, direct := true, id := 8 }
def ctx5 (c : Ctx → Ctx) (s : State) : State := s.modCtx 5 c
def svc : State := let s := m full .service
  let s := { s with ctl := { s.ctl with intake := true }, asc := { s.asc with cache := [5, 6] } }
  ctx5 (fun c => { c with encOut := 3, encClass := 2, txMark := 1000, markAsked := true }) s
def queued (s : State) (f : Frame) : State := { s with sch := { s.sch with frames := [(f.id, some f)], queues := [(f.key, [⟨f.id, 5, 0⟩])] } }
def arr (s : State) (f : Frame) : State := { s with sch := { s.sch with arrivals := [f] } }
def inj : Inject := ⟨3, 1, 1, false, true⟩
def sendIt (s : State) (o : Nat) (f : Frame) (it : Option Nat) : State := { queued s f with sch := { (queued s f).sch with sending := [(o, some ⟨⟨f.id, 5, 0⟩, f.key, 8*o+2, 64, txf, false, false, it, 0, 0, false⟩)] }, cph := { s.cph with items := [(4, some ⟨.encFrame 3, [10], [], [0]⟩)] } }
def gated (s : State) : State := (((s.setFld (Reg.schGateCycle 3) 29 0 1000000).setGate 3 { GateSt.idle with pending := some (5, 6, 1000, 2), running := true, len := 3, cycle := 900 }).setGate 17 { GateSt.idle with running := true, entry := 1, len := 3, cycle := 900, active := 0 })
def gtbl (s : State) : State := { s with sch := { s.sch with gateTbl := (List.range 4).map (fun i => (3*2048 + i, (255, 300))) ++ (List.range 4).map (fun i => (3*2048 + 1024 + i, (255, 300))) ++ (List.range 4).map (fun i => (17*2048 + i, (255, 300))) } }
def launch (s : State) : State := (queued { s with now := 5000000000 } { fr0 with direct := true, launch := some 4294867296 }).setFlg (Reg.schCqCfg 26) 29 true
def chanRun (s : State) : State := { s with tim := { s.tim with chans := s.tim.chans.map (fun c => { c with st := .running }) } }
def gated2 (s : State) : State := (s.setGate 3 { GateSt.idle with pending := some (0, 6, 1000, 2), running := true, len := 3, cycle := 900, endsAt := 0 }).setGate 17 { GateSt.idle with running := true, entry := 1, len := 3, cycle := 900, endsAt := 2 ^ 60 } |>.setFlg (Reg.schGateCfg 17) 31 true
def s0 : State := full
def s2 : State := arr svc fr0
def s4 : State := arr (m full .service) fr0
def s6 : State := queued svc fr0
def s7 : State := queued svc frD
def s8 : State := queued svc { fr0 with whole := false, cells := 0, reserved := 6}
def s10 : State := sendIt svc 17 fr0 (some 4)
def s12 : State := sendIt svc 40 { frD with verdict := none } none
def s14 : State := gtbl full
def s15 : State := gated full
def s16 : State := gtbl (chanRun (gated (full.setFlg (Reg.schGateCfg 17) 31 true)))
def s17 : State := gtbl (chanRun ((full.setFlg (Reg.schGateCfg 3) 31 true).setGate 3 { GateSt.idle with running := true, entry := 2, len := 3, cycle := 900 }))
def s18 : State := launch svc
def s20 : State := queued svc { fr0 with whole := false, cells := 0, reserved := 6, refs := 0 }
def s25 : State := gtbl (chanRun (gated2 full))

theorem witness_SchedulerTablesGatesAndLaunches_SchedulerTableCommands :
    (let p : Path := Path.device; let tb : Fin 3 := 0; let s := s0; decide (s.Takes p Reg.schTblCmd) && decide (s.fld (privKey p.allot Reg.schTblIndex) 20 0 < (if tb.val = 2 then 544 * 2048 else 65536)) && (decide (p.allot = 0 ∨ (tb.val ≠ 2 ∧ s.assocOwner (s.fld (privKey p.allot Reg.schTblIndex) 20 0) = p.allot))) && decide (s.isFollower = false) && (decide (tb.val = 2 → s.gateHeld (s.fld (privKey p.allot Reg.schTblIndex) 20 0) = false))) = true ∧
    (let p : Path := Path.device; let tb : Fin 4 := 3; let op : Fin 4 := 1; let s := s0; decide (s.Takes p Reg.schTblCmd) && decide (op.val ≠ 0) && (decide (3 ≤ tb.val ∨ 3 ≤ op.val)) && decide (s.ctl.mode ≠ .sentry)) = true := by decide +kernel

theorem witness_FramesAreAdmittedPickedAndSent_1 :
    (let s := s2; (match s.sch.arrivals with | f :: _ => decide (s.isFollower = false) && decide (s.ctl.intake = true) && decide (s.ctl.mode.carries = true) && decide (s.yielded = false) && decide (f.encrypt = true) && decide (f.flood = []) && decide (s.tokens (300000 + f.assoc) = true) && (decide (s.queueLimit f.key = 0 ∨ s.depth f.key < s.queueLimit f.key)) && decide (s.reserveFor f ≤ s.freeCells true + s.freeSpill) && decide (f.assoc ∈ s.asc.cache) | _ => false)) = true ∧
    (let s := s4; (match s.sch.arrivals with | f :: _ => decide (s.isFollower = false) && decide (s.ctl.intake = false) && decide (f.encrypt = true) | _ => false)) = true ∧
    (let id : Nat := 7; let s := s8; (match s.frame? id with | some f => decide (f.whole = false) && decide (f.refs ≠ 0) && decide (f.policed = true) && decide (f.flood = []) | _ => false)) = true ∧
    (let id : Nat := 7; let s := s20; (match s.frame? id with | some f => decide (f.whole = false) && decide (f.refs = 0) | _ => false)) = true ∧
    (let id : Nat := 7; let s := s6; (match s.frame? id with | some f => decide (f.whole = true) | _ => false)) = true ∧
    (let o : Fin 544 := 3; let s := s0; decide (s.picks = false ∨ s.outputFree o = false)) = true := by decide +kernel

theorem witness_FramesAreAdmittedPickedAndSent_2 :
    (let o : Fin 544 := 3; let s := s7; decide (s.picks = true) && decide (s.outputFree o = true) && (match s.chooseFrame o ((s.sch.queues.map (fun e => e.2.length)).sum + 1) with | (_, some x) => (match s.head x.child.key with | some (_, f) => decide (f.encrypt = false) && decide (f.pn ≠ 0) && decide (f.inject = none) && decide (f.spillAt = []) | _ => false) | _ => false)) = true ∧
    (let o : Fin 544 := 3; let s := s6; decide (s.picks = true) && decide (s.outputFree o = true) && (match s.chooseFrame o ((s.sch.queues.map (fun e => e.2.length)).sum + 1) with | (_, some x) => (match s.head x.child.key with | some (e, f) => decide (s.bare f e.assoc = false) && decide (f.spillAt = []) && (match s.ctx e.assoc with | some c => (match s.freePair 0 with | some _ => decide (c.markAsked = true) && decide (c.autoRotate = false) | _ => false) | _ => false) | _ => false) | _ => false)) = true ∧
    (let o : Fin 544 := 17; let s := s10; (match SMap.get noneOf s.sch.sending o with | some x => (match s.frame? x.entry.frame with | some f => decide (f.sendable = true) && decide (f.spillAt.length ≤ 1) && decide (f.phantom = false) && decide (f.stompAtEnd x = false) && decide (x.drop = false) && decide (x.off = false) && decide (16 ≤ o.val) && decide (o.val < 32) && decide (s.muted = false) && decide (s.yok.muted = false) | _ => false) | _ => false)) = true ∧
    (let o : Fin 544 := 40; let s := s12; (match SMap.get noneOf s.sch.sending o with | some x => (match s.frame? x.entry.frame with | some f => decide (f.sendable = false) && decide (s.lacking f = false) | _ => false) | _ => false)) = true := by decide +kernel

theorem witness_SchedulerTablesGatesAndLaunches_GateListsAndLaunchTimes_1 :
    (let p : Path := Path.device; let o : Fin 544 := 3; let v : Word := 0x90000003; let s := s14; decide (s.Reaches p (Reg.schGateCfg o)) && decide (s.ctl.mode.isYoke = false) && decide (s.ctl.mode ≠ .sentry) && decide (bit v 28 = true) && decide ((s.gate o).pending = none) && decide (bit v 31 = true) && decide (1 ≤ bits v 10 0) && decide (bits v 10 0 ≤ 1024) && decide (s.intervalsOk o (bits v 10 0) = true)) = true ∧
    (let p : Path := Path.device; let o : Fin 544 := 3; let v : Word := 0x90000000; let s := s0; decide (s.Reaches p (Reg.schGateCfg o)) && decide (s.ctl.mode.isYoke = false) && decide (s.ctl.mode ≠ .sentry) && decide (bit v 28 = true) && decide ((s.gate o).pending = none) && decide (bits v 10 0 = 0 ∨ 1024 < bits v 10 0)) = true ∧
    (let o : Fin 544 := 3; let s := s0; decide ((s.gate o).pending = none)) = true ∧
    (let o : Fin 544 := 3; let s := s15; (match (s.gate o).pending with | some (tc, _, _, _) => decide (s.gateNow o < tc) | _ => false)) = true ∧
    (let o : Fin 544 := 3; let s := s25; (match (s.gate o).pending with | some (tc, _, _, _) => decide (tc ≤ s.gateNow o) && decide (s.ctl.mode ≠ .sentry) | _ => false)) = true ∧
    (let o : Fin 544 := 3; let s := s0; decide (s.gateMay o = false ∨ (s.gate o).running = false)) = true := by decide +kernel

theorem witness_SchedulerTablesGatesAndLaunches_GateListsAndLaunchTimes_2 :
    (let o : Fin 544 := 17; let s := s25; decide (s.gateMay o = true) && decide ((s.gate o).running = true) && decide (s.gateNow o < (s.gate o).endsAt)) = true ∧
    (let o : Fin 544 := 17; let s := s16; decide (s.gateMay o = true) && decide ((s.gate o).running = true) && decide ((s.gate o).endsAt ≤ s.gateNow o) && decide ((s.gate o).entry + 1 < (s.spans o).length)) = true ∧
    (let o : Fin 544 := 3; let s := s17; decide (s.gateMay o = true) && decide ((s.gate o).running = true) && decide ((s.gate o).endsAt ≤ s.gateNow o) && decide ((s.spans o).length ≤ (s.gate o).entry + 1)) = true ∧
    (let q : Fin 4352 := 26; let a : Option (Fin 65536) := none; let s := s18; (let k := (match a with | some a => a.val | none => directKey q); (match s.head k with | some (e, f) => decide (k ∈ s.children q) && decide (s.tooLate q e f = true) && decide (s.ctl.mode ≠ .sentry) && decide (SMap.get noneOf s.sch.lateAt q = none) | _ => false))) = true ∧
    (let q : Fin 4352 := 26; let a : Option (Fin 65536) := some 5; let s := s6; (let k := (match a with | some a => a.val | none => directKey q); (match s.head k with | some (e, f) => decide (k ∈ s.children q) && decide (s.tooLate q e f = false) | _ => false))) = true := by decide +kernel

end G08

namespace G09

def gl (s : State) : State := { s with mgd := { s.mgd with lines := [(0, some ⟨zeroBytes 64, 3, true⟩), (1, some ⟨zeroBytes 63 ++ [5#8], 255, false⟩), (2, some ⟨zeroBytes 64, 7, false⟩), (32768, some ⟨[9], 1, true⟩)] } }
def win (s : State) : State := (s.wr (Reg.mgdAllotWin 3) 1).setFlg Reg.mgdHarrowCfg 31 true
def fs : Frame := { newFrame full [1] 3 true 5 3 2 false with whole := true, cells := 1, refs := 1, id := 7, linesWait := [4194304 - 2097152 + 0, 2097152, 2097152+64, 71303168+64], spilled := 1 }
def ret (s : State) (i : Nat) (b : Bool) : State := { s with mgd := { s.mgd with retill := some ⟨i, ⟨[1],[2],[3]⟩, if b then 20 else 0⟩, due := [i], refused := [0] } }
def reg2 : State := { full with boot := { full.boot with image := some { fimage with regions := [⟨0,1,0,0⟩,⟨1048576,1,1,1⟩,⟨2097152,2,2,2⟩,⟨4194304,64,3,3⟩,⟨71303168,1,2,4⟩] } } }
def spl (s : State) : State := { s with sch := { s.sch with frames := [(7, some fs)] } }
def s0 : State := full
def s2 : State := win full
def s4 : State := spl reg2
def s6 : State := ret (gl (win full)) 0 true
def s8 : State := { win full with mgd := { full.mgd with winInit := [3, 4] } }
def s10 : State := { full with mgd := { full.mgd with initDone := false } }
def s12 : State := { win full with mgd := { full.mgd with harrowAt := (win full).harrowTotal - 1 } }
def s14 : State := { gl (win reg2) with boot := { reg2.boot with image := reg2.boot.image.map (fun i => { i with expanse := false }) } }
def s16 : State := { full with fab := { full.fab with live := [] } }

theorem witness_MemoryRequestsAreAnswered_MemoryRequestsAreAnswered_1 :
    (let q : Fin 80 := 64; let addr : Nat := 0; let s := s0; decide (s.guardUp = true) && (match s.queueDomain q with | some d => decide (d.base ≤ addr) && decide (addr < d.base + d.size) && decide (q.val ∉ s.mgd.winInit) && decide ((s.gline (d.line addr)).poison = false ∨ (s.expanse = true ∧ 66 ≤ q.val)) && decide (s.mgd.retill = none) | _ => false)) = true ∧
    (let q : Fin 80 := 66; let addr : Nat := 2097152; let s := s14; decide (s.guardUp = true) && (match s.queueDomain q with | some d => decide (d.base ≤ addr) && decide (addr < d.base + d.size) && decide (q.val ∉ s.mgd.winInit) && decide ((s.gline (d.line addr)).poison = true) && decide (q.val ≠ 64) && decide (q.val ≠ 65) && decide (s.expanse = false ∨ q.val < 66) && decide (s.mgd.retill = none) | _ => false)) = true ∧
    (let q : Fin 80 := 3; let addr : Nat := 4194304; let s := s2; decide (s.guardUp = true) && (match s.queueDomain q with | some d => decide (d.base ≤ addr) && decide (addr < d.base + d.size) && decide (q.val ∉ s.mgd.winInit) && decide (s.mgd.burst + 1 ≠ max 1 (s.fld Reg.mgdTagCfg 15 8)) && decide (q.val ≠ 64) && decide (q.val ≠ 65) && decide (s.expanse = false ∨ q.val < 66) | _ => false)) = true ∧
    (let q : Fin 80 := 64; let addr : Nat := 0; let s := s0; let data : List Byte := zeroBytes 63 ++ [7,8]; decide (s.guardUp = true) && (match s.queueDomain q with | some d => decide (d.base ≤ addr) && decide (addr < d.base + d.size) && decide (q.val ∉ s.mgd.winInit) && decide (addr % 64 = 0) && decide (64 ≤ data.length) && decide (d.id ∉ s.mgd.refused) && decide ((s.gline (d.line addr)).minor < 255) && decide (s.mgd.retill = none) | _ => false)) = true ∧
    (let q : Fin 80 := 64; let addr : Nat := 0; let s := s0; let data : List Byte := []; decide (s.guardUp = true) && (match s.queueDomain q with | some d => decide (d.base ≤ addr) && decide (addr < d.base + d.size) && decide (q.val ∉ s.mgd.winInit) && decide (data.length < 64) && decide (d.id ∉ s.mgd.refused) && decide ((s.gline (d.line addr)).minor < 255) && decide ((s.gline (d.line addr)).poison = false) && decide (s.mgd.retill = none) | _ => false)) = true ∧
    (let q : Fin 80 := 0; let addr : Nat := 0; let data : List Byte := []; let seen : MemOutcome := .good; let sent : MemOutcome := .good; let s := s16; ([Instr.mgdRead q addr seen, .mgdWrite q addr data seen sent]).any (fun _ => decide (s.islandUp 13 = false ∨ s.islandUp 16 = false))) = true := by decide +kernel

theorem witness_MemoryRequestsAreAnswered_MemoryRequestsAreAnswered_2 :
    (let q : Fin 80 := 0; let addr : Nat := 0; let data : List Byte := []; let seen : MemOutcome := .good; let sent : MemOutcome := .good; let s := s10; ([Instr.mgdRead q addr seen, .mgdWrite q addr data seen sent]).any (fun _ => decide (s.islandUp 13 = true) && decide (s.islandUp 16 = true) && decide (s.mgd.initDone = false))) = true ∧
    (let q : Fin 80 := 0; let addr : Nat := 0; let data : List Byte := []; let seen : MemOutcome := .good; let sent : MemOutcome := .good; let s := s0; ([Instr.mgdRead q addr seen, .mgdWrite q addr data seen sent]).any (fun _ => decide (s.guardUp = true) && decide (s.ctl.mode ≠ .sentry) && ((s.queueDomain q).all (fun d => decide (addr < d.base ∨ d.base + d.size ≤ addr))))) = true := by decide +kernel

theorem witness_MemoryRequestsAreAnswered_SpilledLinesAreJudged :
    (let id : Nat := 7; let addr : Nat := 2097152; let s := s4; (match s.spillDomain addr with | some (_, d) => decide (id ∉ s.mgd.late) && (match s.frame? id with | some f => decide (addr / 64 * 64 ∈ f.linesWait) && decide (f.lineBad = false) && decide ((s.gline (d.line addr)).poison = false) | _ => false) | _ => false)) = true ∧
    (let id : Nat := 7; let s := s4; (match s.frame? id with | some f => (match f.linesWait with | _ :: _ => decide (f.lineBad = false) | _ => false) | _ => false)) = true := by decide +kernel

theorem witness_MemoryIsMaintained_1 :
    (let p : Path := Path.device; let i : Fin 64 := 0; let s := s0; decide (s.Reaches p Reg.mgdRetillCmd) && decide (s.mgd.retill = none) && decide (s.mgd.initDone = true) && (decide (∃ d ∈ s.domains, d.key = i.val)) && decide (s.ctl.degraded = false)) = true ∧
    (let p : Path := Path.device; let i : Fin 64 := 3; let s := s0; decide (s.Reaches p Reg.mgdRetillCmd) && ([(1, s.mgd.retill.isSome), (4, s.mgd.retill.isNone && !s.mgd.initDone), (2, s.mgd.retill.isNone && s.mgd.initDone && decide (∀ d ∈ s.domains, d.key ≠ i.val)), (3, s.mgd.retill.isNone && s.mgd.initDone && decide (∃ d ∈ s.domains, d.key = i.val) && s.ctl.degraded)]).any (fun (_, ok) => decide (ok = true))) = true ∧
    (let s := s0; decide (s.mgd.retill = none)) = true ∧
    (let s := s6; (match s.mgd.retill with | some _ => decide (s.Calm) | _ => false)) = true ∧
    (let s := s10; decide (s.flg Reg.mgdHarrowCfg 31 = false ∨ s.guardUp = false)) = true ∧
    (let s := s0; decide (s.flg Reg.mgdHarrowCfg 31 = true) && decide (s.guardUp = true) && decide (s.ctl.mode ≠ .sentry) && ((s.harrowLine s.mgd.harrowAt).all (fun x => decide (x.2 ∉ s.mgd.rewrite))) && decide (s.mgd.retill = none)) = true := by decide +kernel

theorem witness_MemoryIsMaintained_2 :
    (let s := s0; decide (s.flg Reg.mgdHarrowCfg 31 = true) && decide (s.guardUp = true) && decide (s.ctl.mode ≠ .sentry) && ((s.harrowLine s.mgd.harrowAt).all (fun x => decide (x.2 ∉ s.mgd.rewrite))) && decide (s.mgd.harrowAt + 1 < s.harrowTotal)) = true ∧
    (let s := s12; decide (s.flg Reg.mgdHarrowCfg 31 = true) && decide (s.guardUp = true) && decide (s.ctl.mode ≠ .sentry) && ((s.harrowLine s.mgd.harrowAt).all (fun x => decide (x.2 ∉ s.mgd.rewrite))) && decide (s.harrowTotal ≤ s.mgd.harrowAt + 1)) = true ∧
    (let p : Path := Path.device; let n : Fin 64 := 0; let v : Word := 0; let s := s0; decide (s.Reaches p (Reg.mgdAllotWin n)) && decide (s.windowFits n v = true)) = true ∧
    (let p : Path := Path.device; let n : Fin 64 := 9; let v : Word := 0; let s := s0; let key : Bool := true; decide (s.Reaches p (if key then Reg.mgdQueueCfg n else Reg.mgdAllotWin n)) && decide ((if key then s.allotExists n else s.windowFits n v) = false) && decide (s.ctl.mode ≠ .sentry)) = true ∧
    (let p : Path := Path.device; let n : Fin 64 := 0; let s := s0; decide (s.Reaches p (Reg.mgdQueueCfg n)) && decide (s.allotExists n = true)) = true ∧
    (let n : Fin 64 := 3; let s := s8; decide (n.val ∈ s.mgd.winInit) && decide (s.ctl.mode ≠ .sentry)) = true := by decide +kernel

end G09

namespace G10

def cx (f : Ctx → Ctx) (s : State) : State := s.modCtx 5 f
def base : State :=
  let s := { full with asc := { full.asc with cache := [5, 6] } }
  ((s.wr (Reg.ascInputCfg 24) 0x80000005).setFld (privKey 0 Reg.ascCmdAssoc) 15 0 5).setFld (privKey 3 Reg.ascCmdAssoc) 15 0 6
def cdat (kind owner : Nat) : List Byte := beBytes 1 kind ++ beBytes 1 owner ++ beBytes 2 0 ++ beBytes 2 20 ++ beBytes 1 1 ++ beBytes 1 1 ++ beBytes 2 3 ++ beBytes 1 2 ++ beBytes 1 4 ++ beBytes 2 0 ++ beBytes 2 64 ++ List.replicate 48 3 ++ zeroBytes 12 ++ zeroBytes 2 ++ zeroBytes 46 ++ zeroBytes 256 ++ List.replicate 128 9
def crt (s : State) (a : Nat) : State := ((s.putAscData 0 (cdat 1 0)).putAscData 3 (cdat 1 3)).setFld (privKey 0 Reg.ascCmdAssoc) 15 0 a |>.setFld (privKey 3 Reg.ascCmdAssoc) 15 0 a
def rxf (pn : Nat) : List Byte := let b := [2,2,3,4,5,6, 2,9,9,9,9,9, 0x88, 0xE5, 0x00, 0x00] ++ beBytes 4 pn ++ zeroBytes 64; b ++ leBytes 4 (crc32 b)
def live (s : State) : State := cx (fun c => { c with rxMark := 1000, an1 := 1, winnow := 64, seen := 0, decOut := 3 }) s
def dfr : Frame := { newFrame full txf0 24 false 5 3 2 false with whole := true, cells := 1, refs := 1, id := 7, pn := 4, slot := 10 } where txf0 := List.replicate 64 1
def dec (s : State) (f : Frame) : State := { s with sch := { s.sch with frames := [(7, some f)] }, cph := { s.cph with items := [(4, some ⟨.decFrame 7, [10], [], [0]⟩)] } }
def clk (s : State) : State :=
  let s := cx (fun c => { c with kind := 2, trib := 9, cloak := 96, an1 := 1 }) s
  let s := ((s.setFld (Reg.ascTribCloak 9) 15 0 5).setFlg (Reg.ascTribCloak 9) 31 true)
  let s := (List.range 2).foldl (fun s r => ((s.setFld (Reg.rixRcm 0 (32*1 + r)) 15 15 1).setFld (Reg.rixRcm 0 (32*1+r)) 8 0 9)) s
  let s := (List.range 2).foldl (fun s r => ((s.setFld (Reg.rixTcm 0 (32*1 + r)) 15 15 1).setFld (Reg.rixTcm 0 (32*1+r)) 8 0 9)) s
  { s with line := { s.line with groups := s.line.groups.map (fun g => { g with aligned := true }) } }
def rxs (s : State) (ok : Bool) : State := { s with asc := { s.asc with rxSheaf := [(9, some (50, 10, ok))] }, cph := { s.cph with items := [(4, some ⟨.cloakRx 9, [10], [], [0]⟩)] } }
def wr5 : State := let s := { crt base 5 with asc := { base.asc with ctxs := [(5, some (Ctx.create (cdat 1 0) 0)), (6, some (Ctx.create (cdat 1 3) 0))] } }
  let s := s.setFld (privKey 3 Reg.ascCmdAssoc) 15 0 6
  { (s.sciInsert ((Ctx.create (cdat 1 0) 0).sciKey 5)).1 with kvt := { base.kvt with slots := [] } }
def s0 : State := wr5
def s2 : State := live base
def s4 : State := dec (cx (fun c => { c with rxAsked := true }) (live base)) dfr
def s5 : State := dec (cx (fun c => { c with seen := 2^16384-1, rxHigh0 := 9, rxHigh1 := 9 }) (live base)) dfr
def s6 : State := dec (live base) { dfr with rxFault := 2 }
def s8 : State := { live (clk base) with now := 100, asc := { (live base).asc with ctxs := (cx (fun c => { c with holdLeft := 160 }) base).asc.ctxs } }
def s9 : State := { dec (cx (fun c => { c with rxAsked := true }) (live base)) dfr with cls := { full.cls with probes := List.replicate 1024 ⟨0, [], 0, 0⟩ } }
def s12 : State := { full with line := { full.line with lanes := [], groups := [], eth := [] }, rows := { full.rows with pages := [], pairs := [] } }
def s13 : State := clk base
def s14 : State := rxs (clk base) true
def s15 : State := rxs (clk base) false
def s16 : State := { live base with now := 100, asc := { (live base).asc with cache := [5,6], ctxs := (cx (fun c => { c with holdLeft := 60 }) base).asc.ctxs } }
def s17 : State := crt base 7

theorem witness_ContextCommands :
    (let p : Path := Path.device; let s := s17; let arg : Fin 16 := 0; decide (s.Takes p Reg.ascCmd) && (let n := p.allot; (let a := s.fld (privKey n Reg.ascCmdAssoc) 15 0; decide (s.unitBusy 8 n = false) && decide (s.ctl.mode ≠ .sentry) && decide (s.isFollower = false) && decide (s.HbmRoom) && decide (s.StoreRoom 1) && decide (s.ctx a = none) && (let c := Ctx.create (s.ascData n) (arg % 2); decide (s.ctxInvalid c (s.ascData n) = false) && decide (s.ctxReaches n c = true) && decide (c.persist = false) && decide (s.sciFind (c.sciKey a) = none) && (match (s.sciCandidates (c.sciKey a)).find? (fun j => (s.sciAt j).isNone) with | some _ => true | _ => false))))) = true ∧
    (let p : Path := Path.device; let s := s0; decide (s.Takes p Reg.ascCmd) && (let n := p.allot; (let a := s.fld (privKey n Reg.ascCmdAssoc) 15 0; decide (s.unitBusy 8 n = false) && decide (s.ctl.mode ≠ .sentry) && decide (s.isFollower = false) && decide (s.HbmRoom) && decide (s.StoreRoom 1) && (match s.ctx a with | some c => (decide (n = 0 ∨ s.assocOwner a = n)) && (let x := c.rewrite (s.ascData n); decide (s.ctxInvalid x (s.ascData n) = false) && decide (s.ctxReaches n x = true) && decide (x.persist = false) && decide (x.an0 = c.an0) && decide (x.an1 = c.an1) && decide ((x.sciKey a).same (c.sciKey a) = true) && decide (c.poisoned = false)) | _ => false)))) = true ∧
    (let p : Path := Path.device; let s := s0; decide (s.Takes p Reg.ascCmd) && (let n := p.allot; (let a := s.fld (privKey n Reg.ascCmdAssoc) 15 0; decide (s.unitBusy 8 n = false) && decide (s.ctl.mode ≠ .sentry) && decide (s.isFollower = false) && decide (s.HbmRoom) && decide (s.StoreRoom 1) && (match s.ctx a with | some c => (decide (n = 0 ∨ s.assocOwner a = n)) && decide (s.slotBound (slotOf a 0) = false) && decide (s.slotBound (slotOf a 1) = false) && decide (c.kind = 1) | _ => false)))) = true ∧
    (let p : Path := Path.device; let s := s2; decide (s.Takes p Reg.ascCmd) && (let n := p.allot; (let a := s.fld (privKey n Reg.ascCmdAssoc) 15 0; decide (s.unitBusy 8 n = false) && decide (s.ctl.mode ≠ .sentry) && decide (s.isFollower = false) && decide (s.HbmRoom) && decide (s.StoreRoom 1) && (match s.ctx a with | some c => (decide (n = 0 ∨ s.assocOwner a = n)) && decide (c.kind = 1) && decide (s.rotatable a c = true) | _ => false)))) = true ∧
    (let p : Path := Path.device; let s := s13; decide (s.Takes p Reg.ascCmd) && (let n := p.allot; (let a := s.fld (privKey n Reg.ascCmdAssoc) 15 0; decide (s.unitBusy 8 n = false) && decide (s.ctl.mode ≠ .sentry) && decide (s.isFollower = false) && decide (s.HbmRoom) && decide (s.StoreRoom 1) && (match s.ctx a with | some c => (decide (n = 0 ∨ s.assocOwner a = n)) && decide (c.kind = 2) && (match s.groupOfTrib c.trib with | some g => decide (c.cloakTx = true) && decide (s.slotUsable (slotOf a (1 - c.txSlot)) = true) && decide (c.an (1 - c.txSlot) = (c.an c.txSlot + 1) % 4) && decide ((s.gpages g).flip = none) | _ => false) | _ => false)))) = true ∧
    (let p : Path := Path.device; let s := s0; let op : Fin 16 := 7; decide (s.Takes p Reg.ascCmd) && (let n := p.allot; decide (s.unitBusy 8 n = false) && decide (s.ctl.mode ≠ .sentry) && decide (s.isFollower = false) && decide (s.HbmRoom) && decide (s.StoreRoom 1) && decide (7 ≤ op.val))) = true := by decide +kernel

theorem witness_ReceivedFramesAreChecked_1 :
    (let i : Fin 544 := 24; let f : List Byte := rxf 3; let s := s2; decide (s.flg Reg.pmcTagCfg 31 = false) && decide (s.lineInput i = true) && (decide (32 ≤ i.val → (s.tribRx (i - 32)).left = f.length)) && decide (be16 f (12 + 4 * s.inputTags i) = 0x88E5) && (match s.rxAssoc i (parseTag (s.inputTags i) f) with | some a => (match s.ctx a with | some c => decide (c.kind = 1) && decide (tagValid (s.inputTags i) f = true) && decide (a ∈ s.asc.cache) && (match s.rxSlot a c (parseTag (s.inputTags i) f).an with | some k => decide (s.allotState c.owner ≠ .frozen) && decide (c.poisoned = false) && decide (c.dead k = false) && decide (s.mayStart (slotOf a k) = true) && decide (s.preCheck a k (c.rxPn k (parseTag (s.inputTags i) f).pn) c = none) && (match s.freePair 1 with | some _ => decide (c.autoRotate = false) | _ => false) | _ => false) | _ => false) | _ => false)) = true ∧
    (let i : Fin 544 := 24; let f : List Byte := rxf 3; let s := s12; decide (s.flg Reg.pmcTagCfg 31 = false) && decide (s.lineInput i = true) && (decide (32 ≤ i.val → (s.tribRx (i - 32)).left = f.length)) && decide (be16 f (12 + 4 * s.inputTags i) = 0x88E5) && decide (s.rxAssoc i (parseTag (s.inputTags i) f) = none)) = true ∧
    (let i : Fin 544 := 3; let s := s0; decide (s.lineInput i = false)) = true ∧
    (let i : Fin 544 := 41; let f : List Byte := zeroBytes 16; let s := s8; decide (s.lineInput i = true) && decide (32 ≤ i.val) && decide ((s.tribRx (i - 32)).left ≠ f.length)) = true ∧
    (let id : Nat := 7; let s := s4; (match s.frame? id with | some f => decide (f.id = id) && decide (f.encrypt = false) && decide (f.pn ≠ 0) && decide (f.verdict = none) && (match s.ctx f.assoc with | some c => decide (c.fresh (f.slot % 2) = false) && (decide (∀ w ∈ s.cls.probeWait, w.2 ≠ id)) && decide (s.isFollower = false) && decide (s.ctl.mode ≠ .sentry) && decide (f.rxFault = 0) && decide (c.late (f.slot % 2) f.pn = false) && decide (c.rxAsked = true) && decide (s.clsLive = false ∨ s.cls.probes.length < 1024) | _ => false) | _ => false)) = true ∧
    (let id : Nat := 7; let s := s9; (match s.frame? id with | some f => decide (f.id = id) && decide (f.encrypt = false) && decide (f.pn ≠ 0) && decide (f.verdict = none) && (match s.ctx f.assoc with | some c => decide (c.fresh (f.slot % 2) = false) && (decide (∀ w ∈ s.cls.probeWait, w.2 ≠ id)) && decide (s.isFollower = false) && decide (s.ctl.mode ≠ .sentry) && decide (f.rxFault = 0) && decide (c.late (f.slot % 2) f.pn = false) && decide (c.rxAsked = true) && decide (s.clsLive = true) && decide (1024 ≤ s.cls.probes.length) | _ => false) | _ => false)) = true := by decide +kernel

theorem witness_ReceivedFramesAreChecked_2 :
    (let id : Nat := 7; let s := s5; (match s.frame? id with | some f => decide (f.id = id) && decide (f.encrypt = false) && decide (f.pn ≠ 0) && decide (f.verdict = none) && (match s.ctx f.assoc with | some c => decide (c.fresh (f.slot % 2) = false) && (decide (∀ w ∈ s.cls.probeWait, w.2 ≠ id)) && decide (s.isFollower = false) && decide (s.ctl.mode ≠ .sentry) && decide (f.rxFault = 0) && decide (c.late (f.slot % 2) f.pn = true) | _ => false) | _ => false)) = true ∧
    (let id : Nat := 7; let s := s6; (match s.frame? id with | some f => decide (f.id = id) && decide (f.encrypt = false) && decide (f.pn ≠ 0) && decide (f.verdict = none) && (match s.ctx f.assoc with | some c => decide (c.fresh (f.slot % 2) = false) && (decide (∀ w ∈ s.cls.probeWait, w.2 ≠ id)) && decide (s.isFollower = false) && decide (s.ctl.mode ≠ .sentry) && decide (f.rxFault ≠ 0) && decide (s.leaving f = false) | _ => false) | _ => false)) = true := by decide +kernel

theorem witness_CloakWritebackAndRetirement_1 :
    (let tr : Fin 512 := 9; let s := s0; decide (s.cloakRx tr = false)) = true ∧
    (let tr : Fin 512 := 9; let n : BitVec 48 := 70; let s := s13; (match s.cloakOf tr with | some (a, c) => decide (c.cloakRx = true) && decide (s.tribCarried tr = true) && decide (c.sheafLate n.toNat = false) && (match s.cloakSlot a c (s.rxKeyIndex tr n.toNat) with | some _ => decide (s.rxPairsOf tr ≠ []) && decide (c.autoRotate = false) | _ => false) | _ => false)) = true ∧
    (let tr : Fin 512 := 9; let s := s0; decide (SMap.get noneOf s.asc.rxSheaf tr = none)) = true ∧
    (let tr : Fin 512 := 9; let s := s14; (match SMap.get noneOf s.asc.rxSheaf tr with | some (_, code, ok) => (match s.ctx (code / 2) with | some _ => decide (ok = true) | _ => false) | _ => false)) = true ∧
    (let tr : Fin 512 := 9; let s := s15; (match SMap.get noneOf s.asc.rxSheaf tr with | some (_, code, ok) => (match s.ctx (code / 2) with | some c => decide (ok = false) && decide (s.isFollower = false) && decide (c.tagFailAt = none) && decide (s.ctl.mode ≠ .sentry) | _ => false) | _ => false)) = true ∧
    (let a : Fin 65536 := 7; let s := s0; decide (a.val ∉ s.asc.cache)) = true := by decide +kernel

theorem witness_CloakWritebackAndRetirement_2 :
    (let a : Fin 65536 := 5; let s := s0; decide (a.val ∈ s.asc.cache) && (match s.ctx a with | some _ => (match s.queueDomain 64 with | some d => decide (s.mgd.initDone = true) && decide (s.islandUp 16 = true) && decide (512 * (a.val + 1) ≤ d.size) && decide (s.HbmRoom) | _ => false) | _ => false)) = true ∧
    (let a : Fin 65536 := 5; let s := s0; (match s.ctx a with | some c => decide (c.holdLeft = 0 ∨ s.now < c.holdLeft ∨ s.isFollower = true) | _ => false)) = true ∧
    (let a : Fin 65536 := 5; let s := s16; (match s.ctx a with | some c => decide (c.holdLeft ≠ 0) && decide (c.holdLeft ≤ s.now) && decide (s.Calm) && decide (s.slotRecUsed (slotOf a (1 - c.txSlot)) = false) | _ => false)) = true := by decide +kernel

end G10

namespace G11

def it (s : State) (k : ItemKind) (sl : List Nat) (p : Nat) : State := { s with cph := { s.cph with items := [(4, some ⟨k, sl, [], [p]⟩), (5, some ⟨k, [11], [], [9]⟩)], nextItem := 6 } }
def fal (s : State) : State := { s with kvt := { s.kvt with slots := [(10, some { slot0 0 with st := .fallow }), (11, some (slot0 0)), (vaultBase + 1, some (slot0 0))] } }
def tst (s : State) (v : Option (Nat × Nat)) (st : Nat) : State := { s with cph := { s.cph with testing := [(3, v), (9, none)], pairs := modAt (fun x => { x with st := st }) s.cph.pairs 3 } }
def spares : State := { full with cph := { full.cph with pairs := full.cph.pairs.mapIdx (fun i x => if i % 18 ≥ 15 then { x with st := i % 5 } else x) } }
def dsc : List Byte := [2, 0, 0, 16] ++ leBytes 4 (2^31 + 1) ++ leBytes 4 0 ++ leBytes 4 32 ++ leBytes 4 0 ++ leBytes 4 77 ++ leBytes 8 4096 ++ leBytes 8 8192 ++ List.replicate 16 7 ++ zeroBytes 8
def rings (s : State) : State :=
  let s := { s with hif := { s.hif with linkUp := true, allots := .running :: List.replicate 7 .running ++ List.replicate 56 .absent } }
  let s := [0*16+1, 3*16+1].foldl (fun (s : State) k => { s with hif := { s.hif with ringHost := SMap.set zeroOf s.hif.ringHost k 5 } }) s
  ([0,3].flatMap (fun n => [(n,1),(n,11)])).foldl (fun (s : State) k => (s.setFlg (privKey k.1 (Reg.hifRingCfg k.2)) 31 true).setFld (privKey k.1 (Reg.hifRingCfg k.2)) 4 0 8) s
def jb0 : Job := ⟨3, 1, 0, dsc, none, 0xFF, 0, [], none⟩
def jobs (s : State) (j : Job) : State := { s with cph := { s.cph with jobs := [(2, some j)], nextJob := 3 }, kvt := { s.kvt with slots := s.kvt.slots.map (fun e => (e.1, e.2.map (fun k => { k with attr := (BitVec.ofNat 32 (3 * 2^22)) ||| 0x1800#32 }))) } }
def s0 : State := full
def s1 : State := it full (.encFrame 3) [10] 3
def s2 : State := it (fal full) (.encFrame 3) [10] 3
def s6 : State := { full with line := { full.line with lanes := [], groups := [], eth := [] }, rows := { full.rows with pages := [], pairs := [] }, cph := { full.cph with pairs := [] } }
def s7 : State := tst full none 3
def s8 : State := tst full none 2
def s9 : State := tst full (some (0,7)) 3
def s11 : State := rings full
def s12 : State := jobs (rings full) jb0
def s13 : State := it (jobs (rings full) { jb0 with item := some 4, output := [1,2], pair := 3 }) (.job 2) [vaultBase + 1] 3

theorem witness_CipherPairsAreComparedAndTested_CipherResultsAreCompared :
    (let p : Fin 72 := 3; let id : Nat := 0; let s := s0; ((s.item id).all (fun i => decide (p.val ∉ i.pairs)))) = true ∧
    (let p : Fin 72 := 3; let id : Nat := 4; let s := s1; (match s.item id with | some i => decide (p.val ∈ i.pairs) && decide (s.ctl.mode ≠ .sentry) && decide (s.cph.burst + 1 ≠ max 1 (s.fld Reg.cphCfg 23 16)) && decide ((s.cpair p).window + 1 ≠ max 1 (s.fld Reg.cphCfg 7 0)) && decide (p.val < s.cph.pairs.length) | _ => false)) = true ∧
    (let id : Nat := 4; let s := s2; (match s.item id with | some i => ((i.slots).any (fun c => (s.slot c).any (fun k => decide (k.st = .fallow)))) && decide (s.ctl.mode ≠ .sentry) | _ => false)) = true ∧
    (let id : Nat := 4; let s := s1; (match s.item id with | some i => ((i.slots).all (fun c => (s.slot c).all (fun k => decide (k.st ≠ .fallow)))) | _ => false)) = true := by decide +kernel

theorem witness_CipherPairsAreComparedAndTested_PairsAreTestedAndRetired_1 :
    (let p : Fin 72 := 3; let s := s9; let v : Option (Nat × Nat) := some (0,7); decide (s.cph.testing.find? (fun e => e.1 == p.val) = some (p.val, v)) && decide (s.Calm) && decide (s.cph.vacant = []) && decide (s.cph.cmd ≠ some p.val) && decide ((s.cpair p).st ≠ 1) && (match v with | some (_, _) => true | _ => false)) = true ∧
    (let p : Fin 72 := 3; let s := s7; let v : Option (Nat × Nat) := none; decide (s.cph.testing.find? (fun e => e.1 == p.val) = some (p.val, v)) && decide (s.Calm) && decide (s.cph.vacant = []) && decide (s.cph.cmd ≠ some p.val) && decide ((s.cpair p).st ≠ 1) && decide (v = none)) = true ∧
    (let q : Path := Path.device; let p : Fin 128 := 3; let s := s8; decide (s.Reaches q Reg.cphPairCmd) && decide (s.cph.cmd = none) && decide (p.val < 72) && decide (s.ctl.mode ≠ .zeroized) && decide ((s.cpair p).st = 2) && decide (s.Calm) && decide (s.cph.vacant = [])) = true ∧
    (let q : Path := Path.device; let p : Fin 128 := 3; let s := s8; decide (s.Reaches q Reg.cphPairCmd) && decide (s.cph.cmd = none) && decide (p.val < 72) && decide (s.ctl.mode ≠ .zeroized) && decide ((s.cpair p).st = 2 ∨ (s.cpair p).st = 4)) = true ∧
    (let q : Path := Path.device; let p : Fin 128 := 3; let s := s6; decide (s.Reaches q Reg.cphPairCmd) && decide (s.cph.cmd = none) && decide (p.val < 72) && decide (s.ctl.mode ≠ .zeroized) && decide ((s.cpair p).st = 0 ∨ (s.cpair p).st = 3) && ([Instr.pairRetire q p, .pairKat q p]).any (fun c => true)) = true ∧
    (let q : Path := Path.device; let p : Fin 128 := 3; let s := s0; let op : Fin 16 := 3; decide (s.Reaches q Reg.cphPairCmd) && decide (s.cph.cmd = none) && decide (p.val < 72) && decide (s.ctl.mode ≠ .zeroized) && decide (3 ≤ op.val)) = true := by decide +kernel

theorem witness_CipherPairsAreComparedAndTested_PairsAreTestedAndRetired_2 :
    (let q : Path := Path.device; let p : Fin 128 := 72; let s := s0; decide (s.Reaches q Reg.cphPairCmd) && decide (s.cph.cmd = none) && decide (72 ≤ p.val) && ([Instr.pairRetire q p, .pairKat q p, .pairCmdUnknown q 3 p]).any (fun c => true)) = true := by decide +kernel

theorem witness_LookasideJobs_1 :
    (let n : Fin 64 := 0; let r : Fin 9 := 1; let d : List Byte := dsc; let s := s11; decide (r.val ≠ 0) && decide (s.mayFetch n r = true) && decide (jobValid d = true)) = true ∧
    (let n : Fin 64 := 0; let r : Fin 9 := 1; let d : List Byte := []; let s := s11; decide (r.val ≠ 0) && decide (s.mayFetch n r = true) && decide (jobValid d = false) && decide (s.ctl.mode ≠ .sentry)) = true ∧
    (let n : Fin 64 := 0; let r : Fin 9 := 0; let s := s0; decide (r.val = 0 ∨ s.mayFetch n r = false)) = true ∧
    (let s := s0; decide (s.flushAll = s) && decide (s.chooseJob = none)) = true ∧
    (let s := s12; decide (s.flushAll = s) && (match s.chooseJob with | some (_, j, _) => (let d := JobDesc.of j.desc; (match s.jobPair d with | some _ => decide (d.srcScratch = false) && decide (d.mode ≠ 6) && (decide (d.dstScratch = false ∨ j.allot ∉ s.mgd.winInit)) && (decide (∀ c ∈ d.slots, s.jobSlotOk j.allot d c = true ∧ vaultBase ≤ c)) | _ => false)) | _ => false)) = true ∧
    (let n : Nat := 2; let s := s13; (match s.job n with | some j => (match j.item with | some _ => decide (j.fin = none) && decide (j.status = 0) && decide ((JobDesc.of j.desc).dstScratch = false) && decide (j.output ≠ []) | _ => false) | _ => false)) = true := by decide +kernel

theorem witness_LookasideJobs_2 :
    (let n : Nat := 0; let s := s0; decide (s.job n = none)) = true := by decide +kernel

end G11

namespace G12

def vk (a : Word) : KeySlot := { slot0 a with key := zeroBytes 32 }
def kb : State := { full with armed := [10], kvt := { full.kvt with slots := [(10, some (slot0 0x4000)), (11, some (slot0 0x4000)), (12, some (slot0 0x00C04000)), (vaultBase + 1, some (vk 0x600)), (vaultBase + 3, some { slot0 0 with st := .fallow }), (vaultBase+254, some (vk 0))] } }
def cmdk (s : State) (slot attr arg : Nat) : State := [0,3].foldl (fun (s : State) n => ((s.wr (privKey n Reg.kvtCmdSlot) (BitVec.ofNat 32 slot)).wr (privKey n Reg.kvtCmdAttr) (BitVec.ofNat 32 attr)).wr (privKey n Reg.kvtCmdArg) (BitVec.ofNat 32 arg)) s
def v2 : Nat := 2^31 + 2
def sess (s : State) (acc : Bool) (recs : List Byte) : State := { s with kvt := { s.kvt with session := some ⟨[1],[2],[3],[4],acc,recs,[]⟩ } }
def unh (s : State) : State := { s with kvt := { s.kvt with rbgHealthy := false } }
def rn (s : State) (r : RunCmd) : State := { s with kvt := { s.kvt with runs := [r] }, st := { s.st with queue := [⟨.sealedRec, 2, .other, .unit 10 r.win, true⟩] } }
def zer (s : State) : State := { m s .zeroized with hdg := { s.hdg with live := true } }
def s0 : State := kb
def s1 : State := cmdk kb v2 0x600 0x00080001
def s2 : State := cmdk kb 10 0x4001 0x00080001
def s6 : State := cmdk (unh kb) v2 0x600 2
def s7 : State := cmdk kb (2^31+3) 0 5
def s8 : State := sess kb false []
def s9 : State := sess (cmdk kb v2 0x600 0) true (beBytes 4 v2 ++ beBytes 4 0x600 ++ zeroBytes 56)
def s10 : State := { kb with kvt := { kb.kvt with anchors := [⟨some [], false⟩, ⟨none, false⟩] } }
def s12 : State := rn kb ⟨10, 3, 1, 1, 0, 0, 0⟩
def s13 : State := rn kb ⟨10, 0, 3, 0, 15, 0, 0⟩
def s15 : State := zer kb

theorem witness_KeysAreLoadedAndErased_1 :
    (let p : Path := Path.device; let s := s1; decide (s.Takes p Reg.kvtCmd) && (let n := p.allot; decide (s.VaultOpen n) && (match s.reachSlot n (s.kvtSlotWord n) with | .ok c => decide (s.StoreRoom 4) && decide (s.loadCode c (s.kvtAttr n) = 0) && decide (s.flg Reg.kvtPolicy 8 = false) | _ => false))) = true ∧
    (let p : Path := Path.device; let s := s1; decide (s.Takes p Reg.kvtCmd) && (let n := p.allot; decide (s.VaultOpen n) && (match s.reachSlot n (s.kvtSlotWord n) with | .ok c => decide (s.StoreRoom 4) && decide (s.loadCode c (s.kvtAttr n) = 0) && decide (vaultBase ≤ c) && decide (s.kvt.rbgHealthy = true) | _ => false))) = true ∧
    (let p : Path := Path.device; let s := s1; decide (s.Takes p Reg.kvtCmd) && (let n := p.allot; decide (s.VaultOpen n) && (match s.reachSlot n (s.kvtSlotWord n) with | .ok c => decide (s.StoreRoom 4) && decide (s.loadCode c (s.kvtAttr n) = 0) && decide (vaultBase ≤ c) && decide (1 ≤ s.kvtArg n 23 16) && decide (s.kvtArg n 23 16 ≤ 48) && decide (s.useSlot n (s.kvtArg n 8 0) 9 = 0) | _ => false))) = true ∧
    (let p : Path := Path.device; let s := s6; decide (s.Takes p Reg.kvtCmd) && (let n := p.allot; decide (s.VaultOpen n) && (match s.reachSlot n (s.kvtSlotWord n) with | .ok c => decide (vaultBase ≤ c) && decide (s.kvt.rbgHealthy = false) | _ => false))) = true ∧
    (let p : Path := Path.device; let s := s2; decide (s.Takes p Reg.kvtCmd) && (let n := p.allot; decide (s.VaultOpen n) && (match s.reachSlot n (s.kvtSlotWord n) with | .ok c => decide (s.slotUsable c = true) && decide (s.slotRecUsed c = false) && decide (s.Calm) | _ => false))) = true ∧
    (let p : Path := Path.device; let s := s2; decide (s.Takes p Reg.kvtCmd) && (let n := p.allot; decide (s.VaultOpen n) && (match s.reachSlot n (s.kvtSlotWord n) with | .ok c => (match s.slot c with | some _ => true | _ => false) | _ => false))) = true := by decide +kernel

theorem witness_KeysAreLoadedAndErased_2 :
    (let p : Path := Path.device; let s := s1; decide (s.Takes p Reg.kvtCmd) && (let n := p.allot; decide (s.VaultOpen n) && (match s.reachSlot n (s.kvtSlotWord n) with | .ok c => decide (n = 0) && decide (vaultBase ≤ c) && decide (s.allotExists (s.kvtArg n 5 0) = true) && decide (s.slotBound c = false) | _ => false))) = true ∧
    (let v : Bool := true; let sl : Fin 131072 := 3; let s := s0; (let c := (if v then vaultBase + sl % 256 else sl.val); (match s.slot c with | some k => decide (k.st = .fallow) && decide (k.inflight = 0) | _ => false))) = true ∧
    (let v : Bool := false; let sl : Fin 131072 := 10; let s := s0; (let c := (if v then vaultBase + sl % 256 else sl.val); (match s.slot c with | some k => decide (k.st ≠ .fallow ∨ k.inflight ≠ 0) | _ => false))) = true := by decide +kernel

theorem witness_ProvisioningAndIdentity_1 :
    (let p : Path := Path.device; let s := s0; decide (s.Takes p Reg.kvtCmd) && decide (p.allot = 0) && decide (s.VaultOpen 0) && decide (s.kvt.session = none) && decide (s.kvt.rbgHealthy = true)) = true ∧
    (let p : Path := Path.device; let s := s8; decide (s.Takes p Reg.kvtCmd) && decide (p.allot = 0) && decide (s.VaultOpen 0) && (match s.kvt.session with | some x => decide (x.accepted = false) | _ => false)) = true ∧
    (let p : Path := Path.device; let s := s8; decide (s.Takes p Reg.kvtCmd) && decide (p.allot = 0) && decide (s.VaultOpen 0) && decide (s.kvt.session.isSome = true)) = true ∧
    (let p : Path := Path.device; let s := s0; decide (s.Takes p Reg.kvtCmd) && decide (p.allot = 0) && decide (s.VaultOpen 0) && decide (s.isArmed 10 = true) && (let a := ofBe (s.xfer 0 4); (let b := ofBe (s.xfer (4 + a) 4); decide (a ≤ 7000) && decide (b ≤ 7000) && decide (s.StoreRoom 1)))) = true ∧
    (let p : Path := Path.device; let s := s0; decide (s.Takes p Reg.kvtCmd) && decide (p.allot = 0) && decide (s.VaultOpen 0) && decide (s.isArmed 10 = true) && (match s.kvt.anchors[s.kvtArg 0 1 0]? with | some ⟨a, _⟩ => decide (a = none) | _ => false)) = true ∧
    (let p : Path := Path.device; let s := s10; decide (s.Takes p Reg.kvtCmd) && decide (p.allot = 0) && decide (s.VaultOpen 0) && decide (s.isArmed 10 = true) && (match s.kvt.anchors[s.kvtArg 0 1 0]? with | some ⟨a, _⟩ => decide (a.isSome = true) | _ => false)) = true := by decide +kernel

theorem witness_ProvisioningAndIdentity_2 :
    (let s := s0; decide (s.kvt.session = none)) = true ∧
    (let s := s9; (match s.kvt.session with | some x => decide (x.accepted = true) | _ => false)) = true ∧
    (let s := s8; (match s.kvt.session with | some x => decide (x.accepted = false) | _ => false)) = true := by decide +kernel

theorem witness_LifeCycleCommandsAndVaultTimers_LifeCycleCommands :
    (let p : Path := Path.device; let s := s7; decide (s.Takes p Reg.kvtCmd) && decide (s.unitBusy 10 p.allot = false) && decide (p.allot = 0) && decide (s.isArmed 10 = true) && decide (s.ctl.mode = .ready) && (match lifeOfCode (s.kvtArg 0 2 0) with | some g => decide (g ≠ .returned) && decide (lifeMay s.boot.otpLife g = true) && (decide (s.kvt.rbgHealthy = true ∨ g = .scrapped)) && decide (s.WipeRoom) | _ => false)) = true ∧
    (let p : Path := Path.device; let s := s0; decide (s.Takes p Reg.kvtCmd) && decide (s.unitBusy 10 p.allot = false) && decide (p.allot = 0) && decide (s.isArmed 10 = true) && decide (s.ctl.mode ≠ .zeroized) && decide (s.ctl.mode ≠ .sentry) && decide (s.boot.otpLife ≠ .raw)) = true ∧
    (let p : Path := Path.device; let s := s15; decide (s.Takes p Reg.kvtCmd) && decide (s.unitBusy 10 p.allot = false) && decide (p.allot = 0) && decide (s.isArmed 10 = true) && decide (s.ctl.mode = .zeroized) && (match rootIndex s.boot.otpLife with | some _ => decide (s.hdg.live = true) && (decide (∀ x ∈ s.hdg.sensors, x.tripped = false ∧ x.raw = false)) && decide (s.kvt.reseeds < 32) && decide (s.kvt.rbgHealthy = true) && decide (s.WipeRoom) | _ => false)) = true ∧
    (let p : Path := Path.device; let s := s0; let op : Fin 32 := 19; decide (s.Takes p Reg.kvtCmd) && decide (s.unitBusy 10 p.allot = false) && decide (19 ≤ op.val) && decide (s.ctl.mode ≠ .sentry)) = true := by decide +kernel

theorem witness_LifeCycleCommandsAndVaultTimers_VaultTimersAndGenerator_1 :
    (let n : Fin 64 := 3; let s := s12; (match s.kvtRunning n with | some r => decide (r.op ∈ [1, 2, 3, 4, 10]) && decide (0 < r.waits) | _ => false)) = true ∧
    (let n : Fin 64 := 0; let s := s13; (match s.kvtRunning n with | some r => decide (r.waits = 0) && decide (r.code = 15) | _ => false)) = true ∧
    (let n : Fin 64 := 0; let s := s0; decide (s.kvtRunning n = none)) = true ∧
    (let s := s0; decide (s.kvt.rbgHealthy = true) && decide (s.kvt.rbgUp = true)) = true ∧
    (let s := s6; decide (s.kvt.rbgHealthy = false ∨ s.kvt.rbgUp = false)) = true ∧
    (let s := s6; decide (s.kvt.rbgHealthy = false) && decide (s.kvt.runs = [])) = true := by decide +kernel

theorem witness_LifeCycleCommandsAndVaultTimers_VaultTimersAndGenerator_2 :
    (let s := s0; decide (s.ctl.mode.erases = false) && decide (s.ctl.mode ≠ .sentry)) = true := by decide +kernel

end G12

namespace G13a

def pz (ini : Bool) (key : List Byte) : Pairing := ⟨ini, [1], [2], [3], [], [], key⟩
def it (t len : Nat) (body : List Byte) : List Byte := beBytes 1 (128 + t) ++ [0] ++ beBytes 2 len ++ slice (body ++ zeroBytes (len)) 0 (len - 4)
def dcell (kind seq ack : Nat) : List Byte := let b := [0xD1#8, 0x7A#8] ++ beBytes 1 (kind * 64) ++ [0] ++ beBytes 3 seq ++ beBytes 3 ack ++ [0] ++ zeroBytes 257; b ++ beBytes 4 (crc32 b)
def yk (s : State) (md : Mode) (f : Yok → Yok) : State := let s := m s md; { s with ctl := { s.ctl with prevMode := .service, intake := md == .yokeLead }, yok := f { s.yok with lanes := 15, paired := true, twinMode := 7 } }
def dc (n : Nat) (t : Nat) : DCell := ⟨n, 0, [1], t, 5⟩
def txf : List Byte := let b := [2,2,3,4,5,6, 2,9,9,9,9,9, 0x08, 0x06] ++ zeroBytes 46; b ++ leBytes 4 (crc32 b)
def fr0 : Frame := { newFrame full txf 3 true 5 3 2 false with whole := true, cells := 1, refs := 1, id := 7 }
def fd : Frame := { newFrame full txf 24 false 5 3 2 true with whole := true, cells := 1, refs := 1, id := 9, recNo := 4 }
def full2 : State := { full with asc := { full.asc with cache := [5,6] } , now := 7000000000 }
def foll (f : Yok → Yok) : State := yk full2 .yokeFollower f
def resy (f : Yok → Yok) : State := yk full2 .yokeResync f
def lead (f : Yok → Yok) : State := yk full2 .yokeLead f
def clk (s : State) : State :=
  let s := s.modCtx 5 (fun c => { c with kind := 2, trib := 9, cloak := 96, an1 := 1 })
  let s := ((s.setFld (Reg.ascTribCloak 9) 15 0 5).setFlg (Reg.ascTribCloak 9) 31 true)
  let s := (List.range 2).foldl (fun s r => ((s.setFld (Reg.rixRcm 0 (32*1 + r)) 15 15 1).setFld (Reg.rixRcm 0 (32*1+r)) 8 0 9)) s
  (List.range 2).foldl (fun s r => ((s.setFld (Reg.rixTcm 0 (32*1 + r)) 15 15 1).setFld (Reg.rixTcm 0 (32*1+r)) 8 0 9)) s
def withF (s : State) (f : Frame) : State := { s with sch := { s.sch with frames := [(f.id, some f)] } }
def dig (n : Nat) : Interval := ⟨n, [], []⟩
def ctxb : List Byte := (beBytes 1 1 ++ beBytes 1 0 ++ beBytes 2 0 ++ beBytes 2 20 ++ beBytes 1 1 ++ beBytes 1 1 ++ beBytes 2 3 ++ beBytes 1 2 ++ beBytes 1 4 ++ beBytes 2 0 ++ beBytes 2 64 ++ List.replicate 48 3)
def s0 : State := full
def s1 : State := lead (fun y => { y with pairing := some (pz true [9]) })
def s2 : State := lead (fun y => { y with pairing := some (pz false []) })
def s4 : State := { yk full2 .service (fun y => { y with twinMode := 4, pairing := some (pz true [1]) }) with ctl := { (m full2 .service).ctl with cmd := none } }
def s6 : State := lead (fun y => { y with unacked := [dc 1 1, dc 2 1, dc 9 2], nextSeq := 12 })
def s7 : State := lead (fun y => { y with lanes := 1, laneRun := [(1, 2), (2, 1)] })
def s11 : State := resy (fun y => { y with locked := true, step := 2 })
def s28 : State := { full2 with fab := { full2.fab with live := [] } }

theorem witness_TwinsPairAndLink_1 :
    (let s := s0; decide (s.yok.pairing = none) && decide (s.loneLead = false)) = true ∧
    (let m : List Byte := zeroBytes 10; let s := s1; (match s.yok.pairing with | some x => decide (x.initiator = true) && decide (s.ctl.mode ≠ .sentry) && decide (s.peerCode x m ≠ 0) | _ => false)) = true ∧
    (let s := s1; (match s.yok.pairing with | some x => decide (x.key ≠ []) && decide (s.ctl.cmd = none) && decide (s.ctl.mode = .yokeLead) | _ => false)) = true ∧
    (let s := s4; (match s.yok.pairing with | some x => decide (x.key ≠ []) && decide (s.ctl.cmd = none) && decide (s.ctl.mode = .service) && decide (s.yok.twinMode = 4) && decide (s.StoreRoom 1) | _ => false)) = true ∧
    (let s := s2; (match s.yok.pairing with | some x => decide (x.key = []) | _ => false)) = true ∧
    (let s := s28; decide (s.dithalOn = false)) = true := by decide +kernel

theorem witness_TwinsPairAndLink_2 :
    (let s := s0; ((s.yok.unacked.head?).all (fun c => decide (s.now < c.sentAt + 2000)))) = true ∧
    (let s := s6; decide (s.yok.unacked ≠ []) && ((s.yok.unacked.head?).all (fun c => decide (c.sentAt + 2000 ≤ s.now))) && (decide (∀ c ∈ s.yok.unacked, c.sends < 4))) = true ∧
    (let s := s0; decide (s.isFollower = false ∨ s.yok.locked = false)) = true ∧
    (let s := s11; decide (s.ctl.mode = .yokeResync) && decide (s.yok.locked = true)) = true := by decide +kernel

set_option maxRecDepth 100000 in
theorem witness_TwinsPairAndLink_3 :
    (let n : Fin 4 := 0; let b : List Byte := dcell 0 5 2; let s := s0; decide (s.dithalOn = true) && decide ((DithalIn.of b).good = true) && decide (s.yok.lanes.testBit n = false) && decide (SMap.get zeroOf s.yok.laneRun n + 1 < 3) && decide (s.yok.lanes ≠ 15)) = true := by decide +kernel

set_option maxRecDepth 100000 in
theorem witness_TwinsPairAndLink_4 :
    (let n : Fin 4 := 1; let b : List Byte := dcell 0 5 2; let s := s7; decide (s.dithalOn = true) && decide ((DithalIn.of b).good = true) && decide (s.yok.lanes.testBit n = false) && decide (SMap.get zeroOf s.yok.laneRun n + 1 = 3) && decide (s.yok.lanes + 2 ^ n.val < 15)) = true := by decide +kernel

set_option maxRecDepth 100000 in
theorem witness_TwinsPairAndLink_5 :
    (let b : List Byte := dcell 0 5 2; let s := s1; decide (s.dithalOn = true) && decide ((DithalIn.of b).good = true) && decide (s.yok.lanes = 15) && decide ((DithalIn.of b).kind = 0) && decide ((DithalIn.of b).nak = false) && decide (s.yok.txWait = [])) = true := by decide +kernel

end G13a

namespace G13

def pz (ini : Bool) (key : List Byte) : Pairing := ⟨ini, [1], [2], [3], [], [], key⟩
def it (t len : Nat) (body : List Byte) : List Byte := beBytes 1 (128 + t) ++ [0] ++ beBytes 2 len ++ slice (body ++ zeroBytes (len)) 0 (len - 4)
def dcell (kind seq ack : Nat) : List Byte := let b := [0xD1#8, 0x7A#8] ++ beBytes 1 (kind * 64) ++ [0] ++ beBytes 3 seq ++ beBytes 3 ack ++ [0] ++ zeroBytes 257; b ++ beBytes 4 (crc32 b)
def yk (s : State) (md : Mode) (f : Yok → Yok) : State := let s := m s md; { s with ctl := { s.ctl with prevMode := .service, intake := md == .yokeLead }, yok := f { s.yok with lanes := 15, paired := true, twinMode := 7 } }
def dc (n : Nat) (t : Nat) : DCell := ⟨n, 0, [1], t, 5⟩
def txf : List Byte := let b := [2,2,3,4,5,6, 2,9,9,9,9,9, 0x08, 0x06] ++ zeroBytes 46; b ++ leBytes 4 (crc32 b)
def fr0 : Frame := { newFrame full txf 3 true 5 3 2 false with whole := true, cells := 1, refs := 1, id := 7 }
def fd : Frame := { newFrame full txf 24 false 5 3 2 true with whole := true, cells := 1, refs := 1, id := 9, recNo := 4 }
def full2 : State := { full with asc := { full.asc with cache := [5,6] } , now := 7000000000 }
def foll (f : Yok → Yok) : State := yk full2 .yokeFollower f
def resy (f : Yok → Yok) : State := yk full2 .yokeResync f
def lead (f : Yok → Yok) : State := yk full2 .yokeLead f
def clk (s : State) : State :=
  let s := s.modCtx 5 (fun c => { c with kind := 2, trib := 9, cloak := 96, an1 := 1 })
  let s := ((s.setFld (Reg.ascTribCloak 9) 15 0 5).setFlg (Reg.ascTribCloak 9) 31 true)
  let s := (List.range 2).foldl (fun s r => ((s.setFld (Reg.rixRcm 0 (32*1 + r)) 15 15 1).setFld (Reg.rixRcm 0 (32*1+r)) 8 0 9)) s
  (List.range 2).foldl (fun s r => ((s.setFld (Reg.rixTcm 0 (32*1 + r)) 15 15 1).setFld (Reg.rixTcm 0 (32*1+r)) 8 0 9)) s
def withF (s : State) (f : Frame) : State := { s with sch := { s.sch with frames := [(f.id, some f)] } }
def dig (n : Nat) : Interval := ⟨n, [], []⟩
def ctxb : List Byte := (beBytes 1 1 ++ beBytes 1 0 ++ beBytes 2 0 ++ beBytes 2 20 ++ beBytes 1 1 ++ beBytes 1 1 ++ beBytes 2 3 ++ beBytes 1 2 ++ beBytes 1 4 ++ beBytes 2 0 ++ beBytes 2 64 ++ List.replicate 48 3)
def s0 : State := full
def s1 : State := lead (fun y => { y with pairing := some (pz true [9]) })
def s9 : State := foll id
def s11 : State := resy (fun y => { y with locked := true, step := 2 })
def s12 : State := clk (foll id)
def s13 : State := withF (foll (fun y => { y with buffers := [(3, [fr0]), (40, [fd, fr0])] })) fd
def s15 : State := (foll (fun y => { y with bMute := some 0, twinLost := false })).setFlg Reg.yokCfg 16 true
def s17 : State := resy (fun y => { y with step := 4, repair := some 3, clean := 2 })
def s18 : State := resy (fun y => { y with step := 6, muted := true})
def s19 : State := (resy (fun y => { y with step := 0, muted := true })).setFlg Reg.yokCfg 17 true
def s22 : State := { foll (fun y => { y with twinLost := true, muted := true }) with armed := [11] }
def s23 : State := { lead (fun y => { y with bHand := some 0 }) with armed := [11] }
def s24 : State := lead (fun y => { y with bHand := some (10^9) })
def s28 : State := foll (fun y => { y with buffers := [(3, [{ fr0 with arrival := 7000000000 }])] })
def s29 : State := { resy (fun y => { y with step := 2 }) with now := 10^15 }

theorem witness_DecisionItemsApply_1 :
    (let b : List Byte := it 1 12 (beBytes 8 1000000000); let s := s0; decide (s.isFollower = false) && ([Instr.streamEpoch b, .clsCommit b, .sciCommit b, .ascCommit b, .ascEvent b, .flipItem b, .kvtCommit b, .regWrite b, .schCommit b, .timemap b, .rixItem b, .streamYield b, .handoverItem b, .streamVerdict b, .sheafVerdict b, .streamInject b, .streamDiverge b, .streamCopy b, .streamSnap b, .streamMark b]).any (fun c => true)) = true ∧
    (let b : List Byte := it 1 12 (beBytes 8 1000000000); let s := s9; decide (s.ctl.mode = .yokeFollower) && decide (itemOk 0x01 12 b = true) && decide (s.yok.twinLost = false) && decide (s.blockNo ≤ 64 * itemAt b 4 8 + 3)) = true ∧
    (let b : List Byte := it 4 40 (beBytes 4 5 ++ [1,2,3,4,5,6,7,8]); let s := s9; decide (s.ctl.mode = .yokeFollower) && decide (itemOk 0x04 40 b = true) && decide (itemAt b 4 4 < 262144)) = true ∧
    (let b : List Byte := it 5 20 (beBytes 4 7 ++ [0x83, 0, 1,2,3,4,5,6,7,8, 0, 5]); let s := s9; decide (s.ctl.mode = .yokeFollower) && decide (itemOk 0x05 20 b = true) && decide (itemAt b 4 4 < 131072)) = true ∧
    (let b : List Byte := it 6 136 (beBytes 2 30 ++ [2, 1] ++ ctxb); let s := s9; decide (s.ctl.mode = .yokeFollower) && decide (itemOk 0x06 136 b = true) && decide (s.HbmRoom) && decide (s.StoreRoom 0) && decide (itemAt b 6 1 = 2) && (let c := Ctx.create (slice b 8 128 ++ zeroBytes 384) (itemAt b 7 1 % 2); decide (c.persist = false))) = true ∧
    (let b : List Byte := it 6 136 (beBytes 2 5 ++ [4, 0]); let s := s9; decide (s.ctl.mode = .yokeFollower) && decide (itemOk 0x06 136 b = true) && decide (s.HbmRoom) && decide (s.StoreRoom 0) && decide (itemAt b 6 1 = 4) && (match s.ctx (itemAt b 4 2) with | some _ => true | _ => false)) = true := by decide +kernel

theorem witness_DecisionItemsApply_2 :
    (let b : List Byte := it 7 12 (beBytes 2 5 ++ [5]); let s := s9; decide (s.ctl.mode = .yokeFollower) && decide (itemOk 0x07 12 b = true) && (match s.ctx (itemAt b 4 2) with | some _ => decide (itemAt b 6 1 = 5) | _ => false)) = true ∧
    (let b : List Byte := it 8 16 (beBytes 2 9 ++ [1, 0] ++ beBytes 6 99); let s := s12; decide (s.ctl.mode = .yokeFollower) && decide (itemOk 0x08 16 b = true) && (match s.cloakOf (itemAt b 4 2) with | some (_, _) => (match s.groupOfTrib (itemAt b 4 2) with | some _ => true | _ => false) | _ => false)) = true ∧
    (let b : List Byte := it 0xA 12 (beBytes 4 0x601004 ++ beBytes 4 0xFFFFFFFF); let s := s9; decide (s.ctl.mode = .yokeFollower) && decide (itemOk 0x0A 12 b = true) && decide (conveyed (itemAt b 4 4) = true)) = true ∧
    (let b : List Byte := it 0xB 24 ([1, 0, 0, 3] ++ beBytes 4 0x12345 ++ beBytes 4 0x888); let s := s9; decide (s.ctl.mode = .yokeFollower) && decide (itemOk 0x0B 24 b = true) && decide (itemAt b 4 1 < 3)) = true ∧
    (let b : List Byte := it 0xC 28 ([2, 0] ++ beBytes 6 77 ++ beBytes 6 5 ++ beBytes 4 9 ++ beBytes 2 3); let s := s9; decide (s.ctl.mode = .yokeFollower) && decide (itemOk 0x0C 28 b = true)) = true ∧
    (let b : List Byte := it 0xD 16 ([1, 2, 3, 0x51, 0x11]); let s := s9; decide (s.ctl.mode = .yokeFollower) && decide (itemOk 0x0D 16 b = true) && decide (itemAt b 4 1 = 1) && decide (itemAt b 5 1 < 8) && decide ((s.pair (itemAt b 5 1)).ahead = []) && decide (itemAt b 10 6 ≤ s.line.sheaf)) = true := by decide +kernel

theorem witness_DecisionItemsApply_3 :
    (let b : List Byte := it 0xD 16 ([1, 2, 3, 0x51, 0x11, 0] ++ beBytes 6 100); let s := s9; decide (s.ctl.mode = .yokeFollower) && decide (itemOk 0x0D 16 b = true) && decide (itemAt b 4 1 = 1) && decide (itemAt b 5 1 < 8) && decide ((s.pair (itemAt b 5 1)).ahead = []) && decide (s.line.sheaf < itemAt b 10 6)) = true ∧
    (let b : List Byte := it 0xD 16 ([2, 1, 1, 0,0,0] ++ beBytes 6 100); let s := s9; decide (s.ctl.mode = .yokeFollower) && decide (itemOk 0x0D 16 b = true) && decide (itemAt b 4 1 = 2) && decide ((s.gpages (itemAt b 5 1 % 16)).txActive ≠ itemAt b 6 1 % 2)) = true ∧
    (let b : List Byte := it 0x10 16 (beBytes 8 500); let s := s9; decide (s.ctl.mode = .yokeFollower) && decide (itemOk 0x10 16 b = true)) = true ∧
    (let b : List Byte := it 0x11 12 (beBytes 8 600); let s := s9; decide (s.ctl.mode = .yokeFollower) && decide (itemOk 0x11 12 b = true)) = true := by decide +kernel

theorem witness_FollowerTakesTheLeadsFrames_1 :
    (let i : Fin 544 := 3; let s := s0; decide (SMap.get (fun _ => []) s.yok.buffers i = [])) = true ∧
    (let i : Fin 544 := 3; let s := s28; (match SMap.get (fun _ => []) s.yok.buffers i with | f :: _ => decide (s.now < f.arrival + 2 * s.lagBlocks * 8 / 25) | _ => false)) = true ∧
    (let i : Fin 544 := 3; let s := s13; (match SMap.get (fun _ => []) s.yok.buffers i with | f :: _ => decide (f.arrival + 2 * s.lagBlocks * 8 / 25 ≤ s.now) | _ => false)) = true ∧
    (let b : List Byte := it 3 16 (beBytes 2 9 ++ beBytes 6 50 ++ [3]); let s := s12; decide (s.ctl.mode = .yokeFollower) && decide (itemOk 0x03 16 b = true) && (match s.cloakOf (itemAt b 4 2) with | some (_, _) => decide (SMap.get noneOf s.asc.rxSheaf (itemAt b 4 2) = none) && decide (itemAt b 12 1 = 3) | _ => false)) = true ∧
    (let b : List Byte := it 0xE 72 (beBytes 2 3 ++ beBytes 2 60 ++ zeroBytes 4 ++ List.replicate 60 7); let s := s9; decide (s.ctl.mode = .yokeFollower) && (let n := itemAt b 6 2; decide (itemVar 0x0E b = true) && decide (b.length = 12 + n + n % 2) && decide (itemAt b 4 2 % 1024 < 544) && decide (s.ctx 0xFFFF = none))) = true ∧
    (let b : List Byte := it 0x12 44 ([1, 0,0,0] ++ beBytes 4 33 ++ [1,2,3,4]); let s := s11; decide (s.ctl.mode = .yokeResync) && decide (itemVar 0x12 b = true) && decide (s.yok.step = 2) && decide (itemAt b 4 1 = 1) && decide (b.length = 44)) = true := by decide +kernel

theorem witness_FollowerTakesTheLeadsFrames_2 :
    (let b : List Byte := it 0x13 28 ([17,0,0,0] ++ beBytes 4 0 ++ [1, 0,0,26] ++ beBytes 12 999); let s := s17; decide (s.ctl.mode = .yokeResync) && decide (itemVar 0x13 b = true) && decide (s.yok.step = 4) && decide (itemAt b 4 1 = 17) && decide (b.length = 28) && decide (ofBe (slice (slice (b.drop 12) 0 16) 0 1) = 1)) = true ∧
    (let b : List Byte := it 0x12 44 ([1, 0,0,0] ++ beBytes 4 33 ++ [1,2,3,4]); let s := s17; decide (s.ctl.mode = .yokeResync) && decide (itemVar 0x12 b = true) && decide (s.yok.step ≠ 2)) = true ∧
    (let b : List Byte := it 0x13 28 ([17,0,0,0] ++ beBytes 4 0 ++ [1, 0,0,26] ++ beBytes 12 999); let s := s11; decide (s.ctl.mode = .yokeResync) && decide (itemVar 0x13 b = true) && decide (s.yok.step ≠ 4)) = true ∧
    (let b : List Byte := it 0x14 16 ([1, 0] ++ beBytes 2 5 ++ beBytes 8 5000); let s := s9; decide (s.isFollower = true) && decide (itemOk 0x14 16 b = true) && decide (1 ≤ itemAt b 4 1) && decide (itemAt b 4 1 ≤ 3) && decide (s.StoreRoom 1)) = true := by decide +kernel

set_option maxRecDepth 100000 in
theorem witness_FollowerTakesTheLeadsFrames_3 :
    (let r : BitVec 48 := BitVec.ofNat 48 (3 * 2^37 + fr0.rxLen * 2^23 + fr0.rxMatch * 2^7 + 5); let s := s13; decide (s.ctl.mode = .yokeFollower) && decide (r.toNat < 2 ^ 47) && (let i := r.toNat / 2 ^ 37 % 1024; decide (s.inputOn i = true) && (match matchFrame (SMap.get (fun _ => []) s.yok.buffers i) (r.toNat / 2 ^ 23 % 16384) (r.toNat / 2 ^ 7 % 65536) with | some ([], f, _) => decide (f.encrypt = true) && decide (f.flood = []) && decide (f.assoc ∈ s.asc.cache) && decide (s.reserveFor f ≤ s.freeCells true + s.freeSpill) | _ => false))) = true := by decide +kernel

set_option maxRecDepth 100000 in
theorem witness_FollowerTakesTheLeadsFrames_4 :
    (let b : List Byte := it 2 12 (beBytes 2 24 ++ [1, 0] ++ beBytes 4 4); let s := s13; decide (s.ctl.mode = .yokeFollower) && decide (itemOk 0x02 12 b = true) && (match s.recFrame (itemAt b 4 2) (itemAt b 8 4) with | some f => decide (s.frame? f.id = some f) && decide (f.encrypt = false) && decide (f.verdict = none) && (match s.ctx f.assoc with | some _ => decide (s.leaving f = false) && decide (itemAt b 6 1 = 1 ∨ itemAt b 6 1 = 2) | _ => false) | _ => false)) = true := by decide +kernel

theorem witness_LeadTakesTheReverseStream_1 :
    (let b : List Byte := it 1 12 (beBytes 8 1000000000); let s := s0; decide (s.ctl.mode ≠ .yokeLead) && ([Instr.ackMark b, .streamDefects b, .streamDigest b, .repairReq b, .stateItem b]).any (fun c => true)) = true ∧
    (let b : List Byte := it 0x20 16 ([1, 0] ++ beBytes 2 5 ++ beBytes 8 5000); let s := s1; decide (s.ctl.mode = .yokeLead) && decide (itemOk 0x20 16 b = true) && (decide (∀ w ∈ s.yok.marks, w.stored = false))) = true ∧
    (let b : List Byte := it 0x21 12 (beBytes 2 5 ++ beBytes 2 6); let s := s1; decide (s.ctl.mode = .yokeLead) && decide (itemOk 0x21 12 b = true)) = true ∧
    (let b : List Byte := it 0x23 8 (beBytes 4 5); let s := s1; decide (s.ctl.mode = .yokeLead) && decide (itemOk 0x23 8 b = true)) = true ∧
    (let b : List Byte := it 0x24 12 [7]; let s := s1; decide (s.ctl.mode = .yokeLead) && decide (itemOk 0x24 12 b = true) && decide (itemAt b 4 1 = 7)) = true ∧
    (let b : List Byte := it 0x24 12 [9]; let s := s1; decide (s.ctl.mode = .yokeLead) && decide (itemOk 0x24 12 b = true) && decide (itemAt b 4 1 ≠ 7) && decide (itemAt b 4 1 ≠ 8) && decide (s.yok.twinLost = false)) = true := by decide +kernel

theorem witness_LeadTakesTheReverseStream_2 :
    (let s := s0; decide (s.ctl.mode.isYoke = false)) = true ∧
    (let s := s1; decide (s.ctl.mode = .yokeLead) && (decide (∀ x ∈ s.yok.past, s.yok.cur.no ≤ x.no + 4))) = true ∧
    (let s := s0; decide (s.isFollower = false ∨ s.yok.repair = none)) = true ∧
    (let s := s17; decide (s.ctl.mode = .yokeResync) && decide (s.yok.repair.isSome = true)) = true := by decide +kernel

theorem witness_TwinsChangeRoles_1 :
    (let s := s9; (let l := s.yok.heardAt + max 1 (s.fld Reg.yokCfg 27 24) * 1000; decide (s.ctl.mode = .yokeFollower) && decide (s.yok.twinLost = false) && decide (l ≤ s.now) && decide (s.yok.bMute = none ∨ s.flg Reg.yokCfg 16 = false))) = true ∧
    (let s := s0; (let l := s.yok.heardAt + max 1 (s.fld Reg.yokCfg 27 24) * 1000; decide (s.ctl.mode ≠ .yokeFollower ∨ s.yok.twinLost = true ∨ s.now < l ∨ (s.yok.bMute.isSome = true ∧ s.flg Reg.yokCfg 16 = true)))) = true ∧
    (let s := s15; decide (s.ctl.mode = .yokeFollower) && decide (s.flg Reg.yokCfg 16 = true) && (match s.yok.bMute with | some b => decide (b ≤ s.blockNo) && decide (s.StoreRoom 1) | _ => false)) = true ∧
    (let s := s0; decide (s.ctl.mode ≠ .yokeFollower ∨ s.flg Reg.yokCfg 16 = false ∨ s.yok.bMute = none)) = true ∧
    (let p : Path := Path.device; let s := s1; decide (s.Reaches p Reg.yokCmd) && decide (s.yok.cmd = none) && decide (s.ctl.mode = .yokeLead) && decide (s.yok.lanes = 15) && decide (s.yok.twinMode = 7) && decide (s.yok.twinLost = false)) = true ∧
    (let p : Path := Path.device; let s := s22; decide (s.Reaches p Reg.yokCmd) && decide (s.yok.cmd = none) && decide (s.ctl.mode = .yokeFollower) && decide (s.isArmed 11 = true) && decide (s.yok.twinLost = true) && decide (s.st.queue.length + s.asc.ctxs.length + 3 ≤ storeCap)) = true := by decide +kernel

theorem witness_TwinsChangeRoles_2 :
    (let p : Path := Path.device; let s := s18; decide (s.Reaches p Reg.yokCmd) && decide (s.yok.cmd = none) && decide (s.isFollower = true) && decide (s.yok.muted = true) && decide (s.yok.lanes = 15) && decide (s.StoreRoom 1)) = true ∧
    (let p : Path := Path.device; let s := s0; decide (s.Reaches p Reg.yokCmd) && decide (s.yok.cmd = none) && ([(2, decide (s.ctl.mode ≠ .yokeLead)), (4, decide (s.ctl.mode = .yokeLead ∧ s.yok.lanes ≠ 15))]).any (fun (_, ok) => decide (ok = true))) = true ∧
    (let p : Path := Path.device; let s := s0; decide (s.Reaches p Reg.yokCmd) && decide (s.yok.cmd = none) && ([(2, decide (s.ctl.mode ≠ .yokeFollower)), (3, decide (s.ctl.mode = .yokeFollower ∧ s.isArmed 11 = false))]).any (fun (_, ok) => decide (ok = true))) = true ∧
    (let p : Path := Path.device; let s := s0; let op : Fin 16 := 4; decide (s.Reaches p Reg.yokCmd) && decide (s.yok.cmd = none) && decide (4 ≤ op.val)) = true ∧
    (let s := s24; (match s.yok.bHand with | some b => decide (s.blockNo < b) | _ => false)) = true ∧
    (let s := s23; (match s.yok.bHand with | some b => decide (b ≤ s.blockNo) && decide (s.ctl.mode = .yokeLead) && decide (s.yok.marks = []) && decide (s.StoreRoom 1) | _ => false)) = true := by decide +kernel

theorem witness_TwinsChangeRoles_3 :
    (let s := s11; decide (s.ctl.mode = .yokeResync) && decide (s.yok.step = 2)) = true ∧
    (let s := s29; decide (s.ctl.mode = .yokeResync) && decide (0 < s.yok.step) && decide (s.yok.resyncAt + s.resyncLimit ≤ s.now)) = true ∧
    (let s := s19; decide (s.ctl.mode = .yokeResync) && decide (s.yok.step = 0) && decide (s.flg Reg.yokCfg 17 = true) && decide (s.yok.resyncAt + 1000000000 ≤ s.now) && decide (s.StoreRoom 1)) = true ∧
    (let s := s0; decide (s.ctl.mode ≠ .yokeResync ∨ s.yok.step = 0 ∨ s.now < s.yok.resyncAt + s.resyncLimit)) = true ∧
    (let s := s0; decide (s.ctl.mode ≠ .yokeResync ∨ 0 < s.yok.step ∨ s.flg Reg.yokCfg 17 = false ∨ s.now < s.yok.resyncAt + 1000000000)) = true ∧
    (let b : List Byte := it 0xF 12 (beBytes 4 0 ++ [0,0,0,1]); let s := s9; decide (s.ctl.mode = .yokeFollower) && decide (itemOk 0x0F 12 b = true) && decide (s.StoreRoom 1) && decide (itemAt b 11 1 = 1)) = true := by decide +kernel

theorem witness_TwinsChangeRoles_4 :
    (let b : List Byte := it 0xF 12 (beBytes 4 0 ++ [0,0,0,0]); let s := s9; decide (s.ctl.mode = .yokeFollower) && decide (itemOk 0x0F 12 b = true) && decide (s.StoreRoom 1) && decide (itemAt b 11 1 ≠ 1)) = true := by decide +kernel

/-- A digest item of interval 5 whose digests are all 0. -/
def digestItem : List Byte := [0xA2, 0, 0x11, 0xCE, 0, 0, 0, 5] ++ List.replicate 4550 0

def leadDigest : State := lead (fun y => { y with past := [dig 5], cur := dig 6 })

theorem slice_digestItem (o k : Nat) (h : 8 ≤ o) : slice digestItem o k = zeroBytes k := by
  obtain ⟨d, rfl⟩ := Nat.exists_eq_add_of_le h
  simp only [slice, digestItem, zeroBytes, List.drop_append, List.drop_replicate, List.length_cons, List.length_nil,
    List.drop_eq_nil_of_le (show ([0xA2, 0, 0x11, 0xCE, 0, 0, 0, 5] : List Byte).length ≤ 8 + d by simp), List.nil_append,
    List.take_replicate, List.length_replicate, List.replicate_append_replicate]
  congr 1
  omega

theorem ofBe_zeroBytes (k : Nat) : ofBe (zeroBytes k) = 0 := by
  induction k with
  | zero => rfl
  | succ k ih => simpa [ofBe, zeroBytes, List.replicate_succ] using ih

theorem witness_LeadTakesTheReverseStream_digest :
    leadDigest.ctl.mode = .yokeLead ∧ itemOk 0x22 4558 digestItem = true ∧
    leadDigest.yok.past.find? (fun x => x.no % 2 ^ 32 == itemAt digestItem 4 4) = some (dig 5) ∧
    ∀ e < 560, SMap.get zeroOf (dig 5).digest e = itemAt digestItem (78 + 8 * e) 8 := by
  refine ⟨by decide +kernel, ?_, by decide +kernel, fun e _ => ?_⟩
  · have h : digestItem.length = 4558 := by
      rw [digestItem, List.length_append, List.length_replicate]
      rfl
    have h2 : slice digestItem 0 4 = [0xA2, 0, 0x11, 0xCE] := by decide +kernel
    simp only [itemOk, h, h2]
    decide
  · rw [itemAt, slice_digestItem _ _ (by omega), ofBe_zeroBytes]
    rfl

end G13

namespace G14

def ch (st : ChState) (src own : Nat) : Channel := { Channel.idle with st := st, source := src, owner := own, value := 7 * secUnits + 12345 * 2^40, freq := 1000, slewPpm := 5 }
def chs (l : List Channel) : State := { full with now := 7000000000, tim := { full.tim with chans := l } }
def l1 : List Channel := [ch .running 0 3, ch .running 1 3, ch .stopped 1 0, ch .acquiring 2 0, { ch .locked 3 0 with missed := 2 }, { ch .locked 2 0 with missed := 1 }, ch .holdover 3 0, ch .stopped 2 0, ch .running 4 0] ++ List.replicate 3 Channel.idle ++ [{ch .running 0 3 with parent := 1, slew := 99}, ch .stopped 0 3, {ch .running 0 0 with parent := 2}, ch .running 0 0]
def args (s : State) (v : Nat) : State := [0, 3].foldl (fun s n => [0, 1, 3, 12, 14].foldl (fun (s : State) c => (((s.wr (privKey n (Reg.timChArg c 0)) 0x8000).wr (privKey n (Reg.timChArg c 1)) (BitVec.ofNat 32 v)).wr (privKey n (Reg.timChArg c 2)) 3)) s) s
def negs (s : State) : State := [0, 3].foldl (fun s n => [0, 1, 3, 12, 14].foldl (fun (s : State) c => (((s.wr (privKey n (Reg.timChArg c 0)) 0x8000).wr (privKey n (Reg.timChArg c 1)) 0xFFFFF000).wr (privKey n (Reg.timChArg c 2)) 0xFFFFFFFF)) s) s
def pps (s : State) : State := { (s.setFlg Reg.timCfg 29 true).setFlg Reg.timCfg 28 true with tim := { s.tim with lastPps := some 6900000000 } }
def pend (s : State) : State := { s with tim := { s.tim with todPending := some 5 } }
def stp : State := chs ((l1.map (fun c => { c with st := .stopped })))
def tod (v : Nat) : List Byte := let b : List Byte := beBytes 3 0x535401 ++ beBytes 1 v ++ beBytes 6 1234 ++ zeroBytes 4; b ++ beBytes 2 (crc16 b)
def s0 : State := chs l1
def s3 : State := pps (chs l1)
def s4 : State := pps stp
def s10 : State := pps (chs (l1.map (fun c => { c with value := 7 * secUnits, slew := 2^50 })))
def s11 : State := pps { chs l1 with tim := { (chs l1).tim with ppsRise := some 6800000000 } }

theorem witness_TimeIsSteeredAndAnnounced_ChannelsAreSteered_1 :
    (let p : Path := Path.device; let c : Fin 16 := 0; let s := s0; decide (s.Takes p (Reg.timChCmd c)) && (let n := p.allot; decide (s.mayTime n c = true) && decide (s.isFollower = false) && decide (s.ctl.mode ≠ .sentry) && decide (s.disciplined c = false) && decide (s.timArg n c 2 + s.timArg n c 3 % 65536 * 2 ^ 32 < 2 ^ 34))) = true ∧
    (let p : Path := Path.device; let c : Fin 16 := 1; let s := s0; decide (s.Takes p (Reg.timChCmd c)) && (let n := p.allot; decide (s.mayTime n c = true) && decide (s.isFollower = false) && decide (s.ctl.mode ≠ .sentry) && decide (s.steerable c = true))) = true ∧
    (let p : Path := Path.device; let c : Fin 16 := 0; let s := s0; let op : Fin 8 := 5; decide (s.Takes p (Reg.timChCmd c)) && (let n := p.allot; decide (s.mayTime n c = true) && decide (s.isFollower = false) && decide (s.ctl.mode ≠ .sentry) && decide (5 ≤ op.val))) = true ∧
    (let p : Path := Path.window 3; let c : Fin 16 := 2; let s := s0; decide (s.Takes p (Reg.timChCmd c)) && decide (s.mayTime p.allot c = false) && decide (s.ctl.mode ≠ .sentry) && ([Instr.channelSet p c, .channelStep p c, .channelSlew p c, .channelStop p c, .timCmdUnknown p c 5]).any (fun i => true)) = true ∧
    (let p : Path := Path.device; let c : Fin 16 := 1; let s := s0; decide (s.Takes p (Reg.timChAdj c)) && decide (s.mayTime p.allot c = true) && decide (s.isFollower = false) && decide (s.steerable c = true)) = true ∧
    (let p : Path := Path.device; let c : Fin 16 := 12; let s := s0; decide (s.Takes p (Reg.timChCtrl c)) && decide (s.mayTime p.allot c = true) && decide (s.tim.chans.length = 16) && decide (12 ≤ c.val)) = true := by decide +kernel

theorem witness_TimeIsSteeredAndAnnounced_ChannelsAreSteered_2 :
    (let p : Path := Path.device; let c : Fin 16 := 0; let s := s0; decide (s.Takes p (Reg.timChCtrl c)) && decide (s.mayTime p.allot c = true) && decide (s.tim.chans.length = 16) && decide ((s.chan c).st ≠ .stopped)) = true := by decide +kernel

theorem witness_TimeIsSteeredAndAnnounced_PpsAndTimeOfDay_1 :
    (let w : Nat := 0; decide (w < 100)) = true ∧
    (let w : Nat := 100; let s := s0; decide (100 ≤ w) && decide (s.tim.todPending = none)) = true ∧
    (let s := s3; let m : List Byte := tod 128; let ago : Nat := 0; (match s.tim.lastPps with | some q => decide (m.length = 16) && decide (ofBe (slice m 0 3) = 0x535401) && decide (ofBe (slice m 14 2) = crc16 (slice m 0 14)) && decide ((ofBe (slice m 3 1)).testBit 7 = true) && decide (q + 10000000 ≤ s.now - ago) && decide (s.now - ago ≤ q + 900000000) | _ => false)) = true ∧
    (let s := s3; let m : List Byte := []; let ago : Nat := 0; (match s.tim.lastPps with | some q => decide (m.length ≠ 16 ∨ ofBe (slice m 14 2) ≠ crc16 (slice m 0 14) ∨ s.now - ago < q + 10000000 ∨ q + 900000000 < s.now - ago) | _ => false)) = true ∧
    (let s := s10; (match s.ppsChannel with | some c => decide (s.flg Reg.timCfg 29 = true) && decide (s.atPpsOut c = true) | _ => false)) = true ∧
    (let s := s11; (match s.ppsChannel with | some _ => decide (s.flg Reg.timCfg 28 = true) && decide (s.atTodOut = true) | _ => false)) = true := by decide +kernel

theorem witness_TimeIsSteeredAndAnnounced_PpsAndTimeOfDay_2 :
    (let s := s0; (match s.ppsChannel with | some c => decide (s.flg Reg.timCfg 29 = false ∨ s.atPpsOut c = false) | _ => false)) = true ∧
    (let s := s0; (match s.ppsChannel with | some _ => decide (s.flg Reg.timCfg 28 = false ∨ s.atTodOut = false) | _ => false)) = true ∧
    (let s := s4; decide (s.ppsChannel = none)) = true := by decide +kernel

end G14

namespace G15

def sn (s : State) (f : Sensor → Sensor) : State := { s with hdg := { s.hdg with sensors := s.hdg.sensors.map f } }
def lv (s : State) : State := { s with hdg := { s.hdg with live := true } }
def cell (s : State) : State := { s with hdg := { s.hdg with live := false } }
def cfgd (s : State) (n lvl : Nat) : State := (List.range 16).foldl (fun (s : State) k => s.wr (Reg.hdgSensorCfg k) (BitVec.ofNat 32 (n * 65536 + lvl))) s
def ev (n : Nat) : EvidRec := ⟨n,1,2,true,false,false,3,4,5,6,7,8,9,10,[1,2],[3],none⟩
def s0 : State := full
def s2 : State := cell full
def s3 : State := sn (lv full) (fun x => { x with fill := 3 })
def s5 : State := sn (lv { full with now := 7000000000 }) (fun x => { x with fill := 3, closesAt := 8000000000, tripped := true, clearAt := 7500000000 })
def s6 : State := sn (cell { full with now := 7000000000 }) (fun x => { x with fill := 3, closesAt := 6000000000, tripped := true, clearAt := 6500000000 })
def s7 : State := sn (lv ({full with now := 10} )) (fun x => { x with fill := 200, closesAt := 500 })
def s11 : State := (lv full).setFlg Reg.hdgCfg 31 true
def s12 : State := { lv full with hdg := { (lv full).hdg with next := 3, log := [(0, some (ev 0)), (2, some (ev 2))] } }

theorem witness_SensorsTripAndZeroPinErases_SensorFiltersFillAndTrip_1 :
    (let k : Fin 16 := 0; let s := s0; (let n := (if (s.sensor k).fill = 0 ∨ (s.sensor k).closesAt ≤ s.now then 1 else (s.sensor k).fill + 1); decide (s.sensed k = true) && decide ((k : Nat) < s.hdg.sensors.length) && decide (n < s.sensorCount k))) = true ∧
    (let k : Fin 16 := 0; let s := s5; (let n := (if (s.sensor k).fill = 0 ∨ (s.sensor k).closesAt ≤ s.now then 1 else (s.sensor k).fill + 1); decide (s.sensed k = true) && decide ((k : Nat) < s.hdg.sensors.length) && decide (s.sensorCount k ≤ n) && decide ((s.sensor k).tripped = true))) = true ∧
    (let k : Fin 16 := 8; let s := s7; (let n := (if (s.sensor k).fill = 0 ∨ (s.sensor k).closesAt ≤ s.now then 1 else (s.sensor k).fill + 1); decide (s.sensed k = true) && decide ((k : Nat) < s.hdg.sensors.length) && decide (s.sensorCount k ≤ n) && decide ((s.sensor k).tripped = false) && decide (s.hdg.live = true) && decide (s.sensorLevel k ≤ 1) && decide (s.ctl.mode ≠ .sentry))) = true ∧
    (let k : Fin 16 := 0; let s := s0; decide ((k : Nat) < s.hdg.sensors.length) && decide ((s.sensor k).fill = 0 ∨ s.now < (s.sensor k).closesAt)) = true ∧
    (let k : Fin 16 := 0; let s := s3; decide ((k : Nat) < s.hdg.sensors.length) && decide ((s.sensor k).fill ≠ 0) && decide ((s.sensor k).closesAt ≤ s.now)) = true ∧
    (let k : Fin 16 := 0; let s := s0; decide ((k : Nat) < s.hdg.sensors.length) && decide ((s.sensor k).tripped = false ∨ s.now < (s.sensor k).clearAt)) = true := by decide +kernel

theorem witness_SensorsTripAndZeroPinErases_SensorFiltersFillAndTrip_2 :
    (let k : Fin 16 := 0; let s := s6; decide ((k : Nat) < s.hdg.sensors.length) && decide ((s.sensor k).tripped = true) && decide ((s.sensor k).clearAt ≤ s.now)) = true := by decide +kernel

theorem witness_SensorsTripAndZeroPinErases_ZeroPinErasesTheRoots :
    (let s := s0; decide (s.hdg.live = true) && decide (s.ctl.mode ≠ .sentry) && decide (s.sensorCount 11 = 1) && decide (s.sensorLevel 11 = 5) && decide ((s.sensor 11).tripped = false)) = true ∧
    (let s := s2; decide (s.hdg.live = false) && decide (s.sensorCount 11 = 1) && decide (s.sensorLevel 11 = 5) && decide ((s.sensor 11).tripped = false)) = true := by decide +kernel

theorem witness_SensorFloorsBindWrites :
    (let p : Path := Path.device; let k : Fin 16 := 0; let win : Bool := true; let v : Word := 0x10000; let s := s0; decide (s.Reaches p (if win then Reg.hdgSensorWin k else Reg.hdgSensorCfg k)) && decide (k.val < 11) && decide (s.flg Reg.hdgCfg 31 = false) && decide (s.cfgAllowed k win v = true)) = true ∧
    (let p : Path := Path.device; let k : Fin 16 := 0; let win : Bool := true; let v : Word := 0; let s := s0; decide (s.Reaches p (if win then Reg.hdgSensorWin k else Reg.hdgSensorCfg k)) && decide (k.val < 11) && decide (s.flg Reg.hdgCfg 31 = false) && decide (s.cfgAllowed k win v = false)) = true ∧
    (let p : Path := Path.device; let k : Fin 16 := 0; let win : Bool := true; let s := s11; decide (s.Reaches p (if win then Reg.hdgSensorWin k else Reg.hdgSensorCfg k)) && decide (k.val < 11) && decide (s.flg Reg.hdgCfg 31 = true)) = true ∧
    (let p : Path := Path.device; let k : Fin 16 := 11; let win : Bool := true; let s := s0; decide (s.Reaches p (if win then Reg.hdgSensorWin k else Reg.hdgSensorCfg k)) && decide (11 ≤ k.val)) = true := by decide +kernel

theorem witness_CellServicesAndEvidence_CellServicesOfTheHedge :
    (let s := s2; decide (s.hdg.live = false)) = true ∧
    (let s := s0; decide (s.hdg.live = true)) = true := by decide +kernel

theorem witness_CellServicesAndEvidence_EvidenceIsReadByIndex :
    (let p : Path := Path.device; let v : Word := 0; let s := s12; decide (s.Reaches p Reg.hdgLogIndex) && (match SMap.get noneOf s.hdg.log (bits v 12 0) with | some _ => decide (bits v 12 0 < s.hdg.next) | _ => false)) = true ∧
    (let p : Path := Path.device; let v : Word := 0; let s := s0; decide (s.Reaches p Reg.hdgLogIndex) && decide (s.hdg.next ≤ bits v 12 0 ∨ SMap.get noneOf s.hdg.log (bits v 12 0) = none)) = true := by decide +kernel

end G15

namespace G16

def rgs (s : State) (al : AllotState) : State :=
  let s := { s with hif := { s.hif with linkUp := true, allots := .running :: List.replicate 7 al ++ List.replicate 56 .absent } }
  let s := [0*16, 3*16, 3*16+1, 9, 3*16+9, 10, 3*16+10, 3*16+12].foldl (fun (s : State) k => { s with hif := { s.hif with ringHost := SMap.set zeroOf s.hif.ringHost k 5, ringMod := SMap.set zeroOf s.hif.ringMod k 2 } }) s
  ([0,3].flatMap (fun n => [(n,0),(n,1),(n,9),(n,10),(n,11),(n,12)])).foldl (fun (s : State) k => (s.setFlg (privKey k.1 (Reg.hifRingCfg k.2)) 31 true).setFld (privKey k.1 (Reg.hifRingCfg k.2)) 4 0 8) s
def own (s : State) : State := ((s.setFld (Reg.ascInputCfg 3) 27 22 3).setFld (Reg.ascInputCfg 40) 27 22 3)
def R : State := own (rgs full .running)
def pt (s : State) (x : List (Nat × Nat × List Byte)) : State := { s with asc := { s.asc with punts := x } }
def uns (s : State) : State := { s with hif := { s.hif with unsig := [(0, 2), (6, 3), (7,1)], unsigAt := [(6, 10^15)], msix := [(3, 0), (4*96+3, 0)] } }
def cdesc (unit op a : Nat) (inLen : Nat) : List Byte := [BitVec.ofNat 8 unit, BitVec.ofNat 8 op, 0, 0] ++ leBytes 4 77 ++ leBytes 4 a ++ leBytes 4 (2^31+254) ++ leBytes 4 30 ++ zeroBytes 20 ++ zeroBytes 8 ++ leBytes 4 inLen ++ leBytes 4 100000 ++ leBytes 8 8192
def idesc (out cls fl len : Nat) : List Byte := leBytes 4 55 ++ leBytes 2 out ++ [BitVec.ofNat 8 cls, BitVec.ofNat 8 fl] ++ leBytes 2 len ++ zeroBytes 20
def bdesc (l : Nat) : List Byte := leBytes 8 65536 ++ leBytes 4 l ++ leBytes 4 66
def timed (s : State) : State := { s with tim := { s.tim with chans := s.tim.chans.map (fun c => { c with owner := 3, st := .running, value := 99 }) } }
def s0 : State := full
def s1 : State := R
def s4 : State := pt R [(3, 7, zeroBytes 300)]
def s6 : State := uns R

theorem witness_RingsTakeDescriptors_1 :
    (let p : Path := Path.device; let r : Fin 16 := 0; let i : BitVec 16 := 5; let s := s1; (let n := p.allot; decide (s.Takes p Reg.hifDoorbell) && decide (r.val < 13) && decide (s.ringExists r = true) && decide (s.ringOn n r = true) && decide (s.doorbellOk n r i.toNat = true))) = true ∧
    (let p : Path := Path.device; let r : Fin 16 := 11; let i : BitVec 16 := 5; let s := s1; (let n := p.allot; decide (s.Takes p Reg.hifDoorbell) && decide (r.val < 13) && decide (s.ringExists r = true) && decide (s.ringOn n r = true) && decide (s.doorbellOk n r i.toNat = false))) = true ∧
    (let desc : List Byte := []; let n : Fin 64 := 0; let s := s1; (let d := CmdDesc.of desc; decide (s.ringReady n = true) && (decide (d.unit = 2 → n.val ≠ 0)) && decide (d.unit ∉ [5, 6, 8, 10, 12]))) = true ∧
    (let desc : List Byte := cdesc 12 4 2 0; let n : Fin 64 := 0; let s := s1; (let d := CmdDesc.of desc; decide (s.ringReady n = true) && (decide (d.unit = 2 → n.val ≠ 0)) && (let c := (d.word 0).toNat % 16; decide (d.unit = 12) && decide (d.op = 4) && decide (d.inLen = 0) && decide (s.unitResponds 12 = true) && decide (s.mayTime n c = true) && decide (s.isFollower = false)))) = true ∧
    (let n : Fin 64 := 0; let s := s0; decide (s.ringReady n = false)) = true ∧
    (let desc : List Byte := []; let n : Fin 64 := 0; let s := s1; decide (s.mayFetch n 9 = true) && decide (s.ctl.mode ≠ .recovery) && decide (s.injValid desc = false)) = true := by decide +kernel

theorem witness_RingsTakeDescriptors_2 :
    (let desc : List Byte := idesc 5 2 0 64; let n : Fin 64 := 3; let s := s1; (let d := InjDesc.of desc; decide (s.mayFetch n 9 = true) && decide (s.ctl.mode ≠ .recovery) && decide (s.injValid desc = true) && decide (s.mayInject n d.output = false ∨ s.isFollower = true))) = true ∧
    (let desc : List Byte := idesc 3 2 0 64; let n : Fin 64 := 0; let s := s1; (let d := InjDesc.of desc; decide (s.mayFetch n 9 = true) && decide (s.ctl.mode ≠ .recovery) && decide (s.injValid desc = true) && decide (s.mayInject n d.output = true) && decide (s.isFollower = false))) = true ∧
    (let entry : List Byte := bdesc 256; let n : Fin 64 := 0; let s := s1; (let l := leAt entry 8 4; decide (s.hif.linkUp = true) && decide (s.ringOn n 10 = true) && decide (s.allotState n = .running) && decide (s.ringWaiting n 10 ≠ 0) && decide (256 ≤ l) && decide (l ≤ 16384) && decide (l % 64 = 0) && (decide (∀ x ∈ s.asc.punts, x.1 ≠ n.val)))) = true ∧
    (let entry : List Byte := bdesc 256; let n : Fin 64 := 3; let s := s4; let x : Nat × List Byte := (7, zeroBytes 300); (let l := leAt entry 8 4; decide (s.hif.linkUp = true) && decide (s.ringOn n 10 = true) && decide (s.allotState n = .running) && decide (s.ringWaiting n 10 ≠ 0) && decide (256 ≤ l) && decide (l ≤ 16384) && decide (l % 64 = 0) && decide (s.asc.punts = [(n.val, x)]) && decide (SMap.get (fun _ => []) s.hif.bufs n = []) && decide (s.ringOn n 11 = true))) = true ∧
    (let n : Fin 64 := 0; let v : Fin 2 := 0; let s := s0; (let k := n.val * 2 + v.val; (let d := SMap.get zeroOf s.hif.unsigAt k + s.fld (privKey n Reg.hifIrqCfg) 9 0 * 1000; decide (SMap.get zeroOf s.hif.unsig k = 0 ∨ s.now < d)))) = true ∧
    (let n : Fin 64 := 0; let v : Fin 2 := 0; let s := s6; (let k := n.val * 2 + v.val; (let d := SMap.get zeroOf s.hif.unsigAt k + s.fld (privKey n Reg.hifIrqCfg) 9 0 * 1000; decide (SMap.get zeroOf s.hif.unsig k ≠ 0) && decide (d ≤ s.now)))) = true := by decide +kernel

end G16

namespace G16b

def rgs (s : State) (al : AllotState) : State :=
  let s := { s with hif := { s.hif with linkUp := true, allots := .running :: List.replicate 7 al ++ List.replicate 56 .absent } }
  let s := [0*16, 3*16, 3*16+1, 9, 3*16+9, 10, 3*16+10, 3*16+12].foldl (fun (s : State) k => { s with hif := { s.hif with ringHost := SMap.set zeroOf s.hif.ringHost k 5, ringMod := SMap.set zeroOf s.hif.ringMod k 2 } }) s
  ([0,3].flatMap (fun n => [(n,0),(n,1),(n,9),(n,10),(n,11),(n,12)])).foldl (fun (s : State) k => (s.setFlg (privKey k.1 (Reg.hifRingCfg k.2)) 31 true).setFld (privKey k.1 (Reg.hifRingCfg k.2)) 4 0 8) s
def own (s : State) : State := ((s.setFld (Reg.ascInputCfg 3) 27 22 3).setFld (Reg.ascInputCfg 40) 27 22 3)
def R : State := own (rgs full .running)
def pt (s : State) (x : List (Nat × Nat × List Byte)) : State := { s with asc := { s.asc with punts := x } }
def uns (s : State) : State := { s with hif := { s.hif with unsig := [(0, 2), (6, 3), (7,1)], unsigAt := [(6, 10^15)], msix := [(3, 0), (4*96+3, 0)] } }
def cdesc (unit op a : Nat) (inLen : Nat) : List Byte := [BitVec.ofNat 8 unit, BitVec.ofNat 8 op, 0, 0] ++ leBytes 4 77 ++ leBytes 4 a ++ leBytes 4 (2^31+254) ++ leBytes 4 30 ++ zeroBytes 20 ++ zeroBytes 8 ++ leBytes 4 inLen ++ leBytes 4 100000 ++ leBytes 8 8192
def idesc (out cls fl len : Nat) : List Byte := leBytes 4 55 ++ leBytes 2 out ++ [BitVec.ofNat 8 cls, BitVec.ofNat 8 fl] ++ leBytes 2 len ++ zeroBytes 20
def bdesc (l : Nat) : List Byte := leBytes 8 65536 ++ leBytes 4 l ++ leBytes 4 66
def timed (s : State) : State := { s with tim := { s.tim with chans := s.tim.chans.map (fun c => { c with owner := 3, st := .running, value := 99 }) } }
def s0 : State := full
def s10 : State := rgs full .frozen
def s18 : State := { rgs full .freezing with now := 10^12 }
def s22 : State := (full.setFlg (Reg.hifAllotCtrl 3) 31 true).setFld (Reg.hifAllotCtrl 3) 19 0 1

theorem witness_AllotmentsResetAndFreeze_1 :
    (let p : Path := Path.device; let n : Fin 64 := 3; let s := s0; decide (s.Reaches p Reg.hifAllotCmd) && decide (s.hif.cmd = none) && decide (n.val ≠ 0) && decide (s.allotExists n = true) && decide (s.Quiet n) && decide (s.Calm) && decide (s.WipeRoom) && decide (s.allotState n = .idle ∨ s.allotState n = .running ∨ s.allotState n = .frozen) && ([Instr.resetDrain p n, .resetSquash p n]).any (fun i => true)) = true ∧
    (let p : Path := Path.device; let n : Fin 64 := 3; let s := s0; decide (s.Reaches p Reg.hifAllotCmd) && decide (s.hif.cmd = none) && decide (n.val ≠ 0) && decide (s.allotExists n = true) && decide (s.Quiet n) && decide (s.ctl.mode.isYoke = false) && decide (s.allotState n = .idle ∨ s.allotState n = .running)) = true ∧
    (let p : Path := Path.device; let n : Fin 64 := 3; let s := s10; decide (s.Reaches p Reg.hifAllotCmd) && decide (s.hif.cmd = none) && decide (n.val ≠ 0) && decide (s.allotExists n = true) && decide (s.Quiet n) && decide (s.ctl.mode.isYoke = false) && decide (s.allotState n = .frozen)) = true ∧
    (let p : Path := Path.device; let s := s0; decide (s.Reaches p Reg.hifAllotCmd)) = true ∧
    (let p : Path := Path.device; let op : Fin 16 := 0; let s := s0; decide (s.Reaches p Reg.hifAllotCmd) && decide (s.hif.cmd = none) && decide (op.val = 0 ∨ 4 < op.val)) = true ∧
    (let p : Path := Path.device; let op : Fin 16 := 1; let s := s0; decide (s.Reaches p Reg.hifAllotCmd) && decide (s.hif.cmd = none) && decide (1 ≤ op.val) && decide (op.val ≤ 4)) = true := by decide +kernel

theorem witness_AllotmentsResetAndFreeze_2 :
    (let p : Path := Path.window 3; let s := s0; (let n := p.allot; decide (s.Takes p Reg.hifAllotState) && decide (n ≠ 0) && decide (s.Quiet n) && decide (s.Calm) && decide (s.WipeRoom) && decide (s.allotState n = .idle ∨ s.allotState n = .running))) = true ∧
    (let n : Fin 64 := 0; let s := s0; (decide (∀ r ∈ s.hif.resets, r.allot ≠ n.val)) && decide (s.allotState n ≠ .freezing ∨ s.drainOver s.hif.freezeAt = false)) = true ∧
    (let n : Fin 64 := 3; let s := s18; (decide (∀ r ∈ s.hif.resets, r.allot ≠ n.val)) && decide (s.allotState n = .freezing) && decide (s.drainOver s.hif.freezeAt = true) && decide (s.ctl.mode ≠ .sentry)) = true ∧
    (let p : Path := Path.device; let n : Fin 64 := 0; let v : Word := 0; let s := s0; decide (s.Reaches p (Reg.hifAllotCtrl n)) && decide (s.allotExists n = true) && ((List.range 13).all (fun r => decide (s.ringOn n r = false))) && decide (s.pasidTaken n v = false)) = true ∧
    (let p : Path := Path.device; let n : Fin 64 := 0; let v : Word := 0x80000001; let s := s22; decide (s.Reaches p (Reg.hifAllotCtrl n)) && decide (s.allotExists n = true) && decide (s.pasidTaken n v = true)) = true := by decide +kernel

end G16b

namespace G16c

def rgs (s : State) (al : AllotState) : State :=
  let s := { s with hif := { s.hif with linkUp := true, allots := .running :: List.replicate 7 al ++ List.replicate 56 .absent } }
  let s := [0*16, 3*16, 3*16+1, 9, 3*16+9, 10, 3*16+10, 3*16+12].foldl (fun (s : State) k => { s with hif := { s.hif with ringHost := SMap.set zeroOf s.hif.ringHost k 5, ringMod := SMap.set zeroOf s.hif.ringMod k 2 } }) s
  ([0,3].flatMap (fun n => [(n,0),(n,1),(n,9),(n,10),(n,11),(n,12)])).foldl (fun (s : State) k => (s.setFlg (privKey k.1 (Reg.hifRingCfg k.2)) 31 true).setFld (privKey k.1 (Reg.hifRingCfg k.2)) 4 0 8) s
def wr (s : State) : State := { s with kvt := { s.kvt with slots := s.kvt.slots ++ [(vaultBase+254, some (slot0 0x10000400))] } }
def cdesc (unit op a w m : Nat) (inLen : Nat) : List Byte := [BitVec.ofNat 8 unit, BitVec.ofNat 8 op, 0, 0] ++ leBytes 4 77 ++ leBytes 4 a ++ leBytes 4 w ++ leBytes 4 m ++ zeroBytes 28 ++ leBytes 4 inLen ++ leBytes 4 100000 ++ leBytes 8 8192
def S0 : State := wr (rgs full .frozen)
def blob (as qs : List (List Byte)) (n m : Nat) : List Byte := let b := ascii "SLMB" ++ beBytes 2 1 ++ beBytes 1 n ++ beBytes 1 m ++ beBytes 8 Config.serial.toNat ++ beBytes 4 as.length ++ beBytes 4 0 ++ beBytes 4 0 ++ beBytes 4 qs.length ++ beBytes 6 (S0.fpOf (vaultBase+254)) ++ zeroBytes 26 ++ as.flatMap id ++ qs.flatMap id
  b ++ slice (Config.cmac (migKey (S0.keyOf (vaultBase+254)) n) b) 0 16
def zblob : List Byte := ascii "SLMB" ++ beBytes 2 1 ++ beBytes 1 3 ++ beBytes 1 30 ++ zeroBytes 72
def cdat (kind owner : Nat) : List Byte := beBytes 1 kind ++ beBytes 1 owner ++ beBytes 2 0 ++ beBytes 2 20 ++ beBytes 1 1 ++ beBytes 1 1 ++ beBytes 2 3 ++ beBytes 1 2 ++ beBytes 1 4 ++ beBytes 2 0 ++ beBytes 2 64 ++ List.replicate 48 3 ++ zeroBytes 12 ++ zeroBytes 2 ++ zeroBytes 46 ++ zeroBytes 256 ++ List.replicate 128 9
def asc (a : Nat) : List Byte := beBytes 2 a ++ zeroBytes 14 ++ slice (cdat 1 3 ++ zeroBytes 64) 0 512
def blobs : List (List Byte) := [blob [] [] 3 30, blob [asc 7] [beBytes 2 7 ++ zeroBytes 22] 3 30, blob [asc 6] [] 3 30, blob [asc 7] [beBytes 2 9 ++ zeroBytes 22] 3 30]
def w31 : Nat := 2^31+254
def own (s : State) : State := (List.range 16).foldl (fun (s : State) i => s.setFld (Reg.clsPortCfg i) 31 26 3) (s.setFld (Reg.ascOutOwner 20) 5 0 3)
def s0 : State := S0

theorem witness_AllotmentsMigrate :
    (let desc : List Byte := cdesc 2 1 3 w31 9 0; let s := s0; (let d := CmdDesc.of desc; (let n := (d.word 0).toNat; (let m := (d.word 2).toNat; decide (s.ringReady 0 = true) && decide (d.unit = 2) && (let code := s.saveCode n (d.word 1).toNat m d.outMax; decide (code ≠ 0)))))) = true ∧
    (let desc : List Byte := cdesc 2 1 3 w31 30 0; let blob : List Byte := zblob; let f : Bool := true; let s := s0; (let d := CmdDesc.of desc; (let n := (d.word 0).toNat; (let b := blob.take d.inLen; decide (s.ringReady 0 = true) && decide (d.unit = 2) && (let code := s.restoreCode n (d.word 1).toNat (MigBlob.of b) f; decide (code ≠ 0)))))) = true ∧
    (let desc : List Byte := cdesc 2 2 3 w31 30 100000; let blob : List Byte := zblob; let f : Bool := true; let s := s0; (let d := CmdDesc.of desc; (let n := (d.word 0).toNat; (let b := blob.take d.inLen; decide (s.ringReady 0 = true) && decide (d.unit = 2) && (let code := s.restoreCode n (d.word 1).toNat (MigBlob.of b) f; (match MigBlob.of b with | some x => (match s.wrapSlot (d.word 1).toNat with | some _ => decide (code = 0) && decide (s.Calm) && decide (s.HbmRoom) && decide (s.StoreRoom (4 * (x.assocs.length + x.slots.length))) | _ => false) | _ => false)))))) = true := by decide +kernel

theorem slice_length (l : List Byte) (o k : Nat) : (slice l o k).length = k := by
  simp only [slice, zeroBytes, List.length_append, List.length_take, List.length_drop, List.length_replicate]
  omega

/-- The blob of S0's allotment 3 is 64 + 528 + 24 + 16 bytes, whatever its serial number and its code. -/
theorem blob_length : (S0.migBlob 3 131326 30).1.length ≤ 100000 := by
  have h1 : S0.assocsOf 3 = [(6, { Ctx.create (zeroBytes 512) 0 with kind := 1, owner := 3 })] := by decide +kernel
  have h2 : S0.migSlots 3 = [] := by decide +kernel
  have h3 : (S0.altOf 3).length = 0 := by decide +kernel
  have h3 := List.length_eq_zero_iff.mp h3
  simp only [State.migBlob, h1, h2, h3, List.length_append, slice_length, List.flatMap_cons, List.flatMap_nil]
  simp only [← List.length_append]
  decide +kernel

theorem witness_AllotmentsMigrate_saved :
    S0.ringReady 0 = true ∧ (CmdDesc.of (cdesc 2 1 3 w31 30 100000)).unit = 2 ∧ S0.wrapSlot w31 = some 131326 ∧
    SMap.wf noneOf S0.asc.ctxs = true ∧ S0.saveCode 3 w31 30 100000 = 0 := by
  have h : S0.wrapSlot w31 = some 131326 := by decide +kernel
  refine ⟨by decide +kernel, by decide +kernel, h, by decide +kernel, ?_⟩
  unfold State.saveCode
  rw [if_neg (by decide +kernel), if_neg (by decide +kernel), if_neg (by decide +kernel), h]
  exact (if_neg (by decide)).trans (if_neg (Nat.not_lt.mpr blob_length))

end G16c

namespace G16d

def dyn (s : State) (a : Nat) : State := { s with hif := { s.hif with dynAddr := some a } }
def nod (s : State) : State := { s with hif := { s.hif with dynAddr := none } }
def down (s : State) : State := { s with hif := { s.hif with linkUp := false }, pow := { s.pow with perstHigh := true } }
def rd (s : State) (x : Nat) (b : Bool) : State := { s with hif := { s.hif with read32 := some (x, b) } }
def hj (s : State) : State := { s with hif := { s.hif with hotJoinDue := true, hjEn := true } }
def s0 : State := full
def s1 : State := { full with hif := { full.hif with hotJoinDue := false } }
def s3 : State := dyn full 9
def s4 : State := down full
def s6 : State := rd (dyn full 9) Reg.stwAlert true
def s7 : State := rd (dyn full 9) 0x300000 false
def s11 : State := m (nod full) .powerRise

theorem witness_LinkAndManagementBus_1 :
    (let s := s4; decide (s.hif.linkUp = false)) = true ∧
    (let s := s0; decide (s.hif.linkUp = true) && decide (s.ctl.mode ≠ .sentry)) = true ∧
    (let v : Fin 8 := 1; let w : Fin 8 := 1; let s := s4; decide (s.pow.perstHigh = true) && decide (s.islandUp 19 = true) && decide (s.hif.linkUp = false) && decide (s.ctl.mode ≠ .sentry) && decide (1 ≤ v.val) && decide (v.val ≤ clamp 1 5 (s.fld Reg.hifLinkCfg 3 0)) && decide (w.val ∈ [1, 2, 4])) = true ∧
    (let s := s0; decide (s.i3cServes = false ∨ s.hif.dynAddr = none) && ([Instr.getpid, .getbcr, .getdcr, .getstatus, .getmxds, .getmwl, .getmrl, .setmwl 8, .setmrl 8, .enec 1, .disec 1]).any (fun i => true)) = true ∧
    (let s := s3; decide (s.i3cServes = true) && (match s.hif.dynAddr with | some _ => true | _ => false)) = true ∧
    (let s := s11; decide (s.i3cServes = false)) = true := by decide +kernel

theorem witness_LinkAndManagementBus_2 :
    (let s := s0; decide (s.i3cServes = true)) = true ∧
    (let s := s0; let v : Fin 128 := 0x58; let b : Fin 128 := 9; decide (s.i3cServes = true) && decide (s.hif.dynAddr = none) && decide (v.val = 0x58 + flag s.pow.yokePos) && ([Instr.entdaa b, .setdasa v b]).any (fun i => true)) = true ∧
    (let s := s0; let v : Fin 128 := 9; decide (v.val ≠ 0x58 + flag s.pow.yokePos)) = true ∧
    (let s := s0; decide (s.i3cServes = true) && decide (s.hif.hotJoinDue = true) && decide (s.hif.hjEn = true) && decide (s.hif.dynAddr = none)) = true ∧
    (let s := s1; decide (s.hif.hotJoinDue = false ∨ s.hif.hjEn = false)) = true ∧
    (let a : Fin 128 := 9; let o : BitVec 32 := BitVec.ofNat 32 Reg.stwAlert; let v : BitVec 32 := BitVec.ofNat 32 Reg.stwAlert; let s := s0; decide (s.i3cHits a = false) && ([Instr.read32 a o, .write32 a o v, .i3cPrivateRead a]).any (fun i => true)) = true := by decide +kernel

theorem witness_LinkAndManagementBus_3 :
    (let a : Fin 128 := 0x58; let o : BitVec 32 := 0x100000; let s := s0; decide (s.i3cHits a = true) && decide (s.i3cReads o.toNat = true)) = true ∧
    (let a : Fin 128 := 0x58; let o : BitVec 32 := BitVec.ofNat 32 Reg.stwAlert; let s := s0; decide (s.i3cHits a = true) && decide (s.i3cReads o.toNat = false)) = true ∧
    (let a : Fin 128 := 0x58; let s := s0; decide (s.i3cHits a = true) && decide (s.hif.read32 = none)) = true ∧
    (let a : Fin 128 := 9; let s := s7; decide (s.i3cHits a = true) && (match s.hif.read32 with | some (_, false) => true | _ => false)) = true ∧
    (let a : Fin 128 := 9; let s := s6; decide (s.i3cHits a = true) && (match s.hif.read32 with | some (x, true) => decide (s.unitResponds (x / 0x100000) = true) | _ => false)) = true ∧
    (let a : Fin 128 := 0x58; let o : BitVec 32 := BitVec.ofNat 32 Reg.stwAlert; let s := s0; decide (s.i3cHits a = true) && decide (s.i3cWrites o.toNat = false)) = true := by decide +kernel

theorem witness_LinkAndManagementBus_4 :
    (let a : Fin 128 := 9; let o : BitVec 32 := BitVec.ofNat 32 Reg.stwAlert; let s := s3; decide (s.i3cHits a = true) && decide (s.i3cWrites o.toNat = true) && decide (o.toNat ∉ [Reg.stwModeCmd, Reg.stwImageCmd, Reg.stwImageArm])) = true ∧
    (let a : Fin 128 := 9; let o : BitVec 32 := BitVec.ofNat 32 Reg.stwImageArm; let v : BitVec 32 := 0x464C4F52; let s := s3; decide (s.i3cHits a = true) && decide (s.i3cWrites o.toNat = true) && decide (o.toNat = Reg.stwImageArm) && decide (s.unitResponds 1 = true) && decide (s.isFollower = false) && decide (v.toNat = 0x464C4F52)) = true := by decide +kernel

end G16d

namespace G17

def r0 (n l : Nat) : EvRec := ⟨1, l, n, 0, 0, false, 0, 0, 0xFF, 4, []⟩
def L (s : State) (f : Ledger → Ledger) : State := { s with led := f s.led }
def batch (s : State) : State := { s with st := { s.st with queue := [⟨.logBatch, costLogBatch, .logBatch [r0 1 0, r0 2 0], .nobody, false⟩, ⟨.otherRec, 2, .other, .nobody, false⟩] } }
def lg (s : State) : State := L s (fun l => { l with log := [(3, some (r0 5 0)), (70, some (r0 9 0)), (71, some (r0 7 0))] })
def st3 (s : State) : State := L s (fun l => { l with staged := [⟨0, r0 30 0⟩, ⟨5, r0 20 1⟩, ⟨0, r0 10 0⟩], seq := 31 })
def opn (s : State) (k : Bool) (n : Nat) : State := L s (fun l => { l with opened := [⟨0, k, r0 90 2⟩, ⟨1, k, r0 91 0⟩], staged := List.replicate n ⟨0, r0 4 0⟩, stageLostAt := some 100 })
def quiet (s : State) : State := { s with st := { s.st with queue := [], mram := none, nor := none }, pow := { s.pow with pfStep := 0, eAvail := 100000 } }
def goodPage (s : State) : State :=
  let s := ((s.wr (Reg.logCalStage 0) 0x534C4341).wr (Reg.logCalStage 1) 0x00010000).wr (Reg.logCalStage 4) (Config.serial.extractLsb' 32 32) |>.wr (Reg.logCalStage 5) (Config.serial.extractLsb' 0 32)
  s.wr (Reg.logCalStage 16383) (BitVec.ofNat 32 (calCrc s.calStage))
def host (s : State) : State := { s with hif := { s.hif with linkUp := true } }
def calp (s : State) : State := L s (fun l => { l with cal := [(0, 7), (500, 9)] })
def rel (s : State) (n : Nat) : State := s.wr Reg.logArg (BitVec.ofNat 32 n)
def at_ (s : State) (n : Nat) : State := { s with now := n }
def fus (s : State) : State := L s (fun l => { l with fu := [(6, 5), (7, 9), (8, 3)], fuSample := [(0, 2^32-1), (3, 5)] })
def dmp (s : State) : State := (s.setFlg Reg.pmcDumpCfg 31 true).setFld Reg.pmcDumpCfg 3 0 3
def s0 : State := full
def s1 : State := at_ (st3 (quiet full)) (10^12)
def s4 : State := at_ (opn full true 3) (10^12)
def s5 : State := at_ (opn full false 3) (10^12)
def s7 : State := at_ (L (opn full true 1024) (fun l => { l with stageLostAt := some (10^12) })) (10^12)
def s9 : State := at_ (opn full true 3) 5
def s10 : State := at_ (L full (fun l => { l with frozen := true })) (10^12)
def s12 : State := L full (fun l => { l with scanned := false })
def s22 : State := L full (fun l => { l with cmd := some 3 })
def s32 : State := m full .service
def s35 : State := at_ ((dmp (fus full)).setFlg Reg.pmcSnapCfg 31 true) (10^12)

theorem witness_LogIsStagedStoredAndCommanded_1 :
    (let s := s0; decide (s.led.opened = [])) = true ∧
    (let s := s9; (match s.led.opened with | o :: _ => decide (s.now < o.first + s.foldNs) | _ => false)) = true ∧
    (let s := s5; (match s.led.opened with | o :: _ => decide (o.first + s.foldNs ≤ s.now) && decide (o.keep = false ∨ s.led.unhealthy = true) | _ => false)) = true ∧
    (let s := s4; (match s.led.opened with | o :: _ => decide (o.first + s.foldNs ≤ s.now) && decide (o.keep = true) && decide (s.led.unhealthy = false) && decide (s.led.staged.length < stageCap) | _ => false)) = true ∧
    (let s := s7; (match s.led.opened with | o :: _ => decide (o.first + s.foldNs ≤ s.now) && decide (o.keep = true) && decide (s.led.unhealthy = false) && decide (stageCap ≤ s.led.staged.length) && decide (s.led.stageReportDue s.now = false) | _ => false)) = true ∧
    (let s := s0; decide (s.led.scanned = false ∨ s.led.frozen = true ∨ s.led.unhealthy = true ∨ s.batchOut = true ∨ s.led.batchDue s.now = false)) = true := by decide +kernel

theorem witness_LogIsStagedStoredAndCommanded_2 :
    (let s := s1; decide (s.led.scanned = true) && decide (s.led.frozen = false) && decide (s.led.unhealthy = false) && decide (s.batchOut = false) && decide (s.led.batchDue s.now = true) && decide (s.st.queue = []) && decide (s.st.mram = none) && decide (s.pow.pfStep = 0) && decide (s.energyOk costLogBatch (costOf s.st.nor) = true)) = true ∧
    (let s := s0; decide (s.led.scanned = true)) = true ∧
    (let s := s12; decide (s.led.scanned = false) && decide (s.led.log = [])) = true ∧
    (let s := s0; (let d := s.led.freezeStart + clamp 1 10000 (s.fld Reg.logFreezeMs 15 0) * 1000000; decide (s.led.frozen = false ∨ s.now < d))) = true ∧
    (let s := s10; (let d := s.led.freezeStart + clamp 1 10000 (s.fld Reg.logFreezeMs 15 0) * 1000000; decide (s.led.frozen = true) && decide (d ≤ s.now) && decide (s.ctl.mode ≠ .sentry))) = true ∧
    (let p : Path := Path.device; let s := s22; let d : Bool := true; decide (s.Reaches p Reg.logCmd) && decide (s.led.cmd.isSome = true) && ([Instr.logFreeze p, .logThaw p, .logRelease p, .copyOut p d, .calWrite p, .calRead p, .logCmdUnknown p 7]).any (fun i => true)) = true := by decide +kernel

theorem witness_LogIsStagedStoredAndCommanded_3 :
    (let p : Path := Path.device; let s := s10; decide (s.Reaches p Reg.logCmd) && decide (s.led.cmd = none) && decide (s.led.frozen = true)) = true ∧
    (let p : Path := Path.device; let s := s0; decide (s.Reaches p Reg.logCmd) && decide (s.led.cmd = none) && (let b := s.st.queue.flatMap (fun (r : StoreReq) => match r.pay with | .logBatch rs => rs | _ => []); decide (s.led.frozen = false) && decide (b.length + s.led.staged.length + 4 ≤ stageCap))) = true ∧
    (let p : Path := Path.device; let s := s0; decide (s.Reaches p Reg.logCmd) && decide (s.led.cmd = none) && decide (s.led.frozen = false)) = true ∧
    (let p : Path := Path.device; let s := s0; decide (s.Reaches p Reg.logCmd) && decide (s.led.cmd = none) && (let n := min (s.rd Reg.logArg).toNat (s.led.seq - 1); decide (s.led.seq = 0 ∨ (∃ m, s.led.mark = some m ∧ n ≤ m)))) = true ∧
    (let p : Path := Path.device; let s := s1; decide (s.Reaches p Reg.logCmd) && decide (s.led.cmd = none) && (let n := min (s.rd Reg.logArg).toNat (s.led.seq - 1); decide (s.led.seq ≠ 0) && ((s.led.mark).all (fun m => decide (m < n))) && decide (s.st.queue.length < storeCap))) = true ∧
    (let p : Path := Path.device; let s := s0; decide (s.Reaches p Reg.logCmd) && decide (s.led.cmd = none) && decide (s.hif.linkUp = true)) = true := by decide +kernel

theorem witness_LogIsStagedStoredAndCommanded_4 :
    (let p : Path := Path.device; let s := s0; let d : Bool := false; decide (s.Reaches p Reg.logCmd) && decide (s.led.cmd = none) && decide (d = false ∨ s.hif.linkUp = false)) = true ∧
    (let p : Path := Path.device; let s := s32; decide (s.Reaches p Reg.logCmd) && decide (s.led.cmd = none) && decide (s.ctl.mode ≠ .ready)) = true ∧
    (let p : Path := Path.device; let s := s0; decide (s.Reaches p Reg.logCmd) && decide (s.led.cmd = none) && decide (s.ctl.mode = .ready) && decide (s.isArmed 14 = false)) = true ∧
    (let p : Path := Path.device; let s := s0; decide (s.Reaches p Reg.logCmd) && decide (s.led.cmd = none) && decide (SMap.wf zeroWord s.led.cal = true) && (decide (∀ e ∈ s.led.cal, e.1 < 16384))) = true ∧
    (let p : Path := Path.device; let s := s0; let op : Fin 16 := 7; decide (s.Reaches p Reg.logCmd) && decide (s.led.cmd = none) && decide (7 ≤ op.val)) = true ∧
    (let p : Path := Path.device; let s := s0; let op : Fin 16 := 0; decide (s.Reaches p Reg.logCmd) && decide (s.led.cmd = none) && decide (op.val < 7)) = true := by decide +kernel

theorem witness_LogIsStagedStoredAndCommanded_5 :
    (let p : Path := Path.device; let v : Word := 0; let s := s0; decide (s.Reaches p Reg.logReadIndex) && (let k := bits v 17 0; decide (k < logSlots))) = true ∧
    (let p : Path := Path.device; let v : Word := 0xFFFFFFFF; let s := s0; decide (s.Reaches p Reg.logReadIndex) && (let k := bits v 17 0; decide (logSlots ≤ k))) = true := by decide +kernel

theorem witness_CountersAreSnapped :
    (let p : Path := Path.device; let v : Word := 0; let s := s0; decide (s.Reaches p Reg.pmcSnapCfg) && decide (bit v 29 = false)) = true ∧
    (let s := s0; (let d := s.led.snapAt + clamp 10 60000 (s.fld Reg.pmcSnapCfg 15 0) * 1000000; decide (s.flg Reg.pmcSnapCfg 31 = false ∨ s.now < d))) = true ∧
    (let s := s35; (let d := s.led.snapAt + clamp 10 60000 (s.fld Reg.pmcSnapCfg 15 0) * 1000000; decide (s.flg Reg.pmcSnapCfg 31 = true) && decide (d ≤ s.now) && decide (s.ctl.mode ≠ .sentry))) = true ∧
    (let p : Path := Path.device; let v : Word := 0x20000000; let s := s0; decide (s.Reaches p Reg.pmcSnapCfg) && decide (bit v 29 = true)) = true ∧
    (let p : Path := Path.device; let k : Fin 256 := 0; let s := s0; decide (s.Reaches p (Reg.pmcFuCfg k))) = true := by decide +kernel

end G17

end Sys2Proof.Tests
end

section
/-! The canonical form of the sparse tables: at reset, and over every command, the idle block and every step. -/

namespace Sys2Proof.Machine

open Sys2Proof

/-- Touching fewer fields than all but the queue is touching no more than those. -/
theorem OutTouches.toAll {m : List Part} {s : State} {o : Host.Outcome State Fault Refusal} (h : OutTouches m s o)
    (sub : m ⊆ Part.all := by decide) : OutTouches Part.all s o := h.mono sub

/-- No command touches the queue, and each keeps canonical form: what the lemma of each command under Laws/ gives, over exec. -/
theorem exec_touches (c : Instr) (s : State) : OutTouches Part.all s (exec c s) := by
  cases c with
  | registerWrite => exact (execRegisterWrite_touches ..).toAll
  | wideValueLowRead => exact (execWideValueLowRead_touches ..).toAll
  | rcFieldRead => exact (execRcFieldRead_touches ..).toAll
  | imageArmWrite => exact (execImageArmWrite_touches ..).toAll
  | kvtArmWrite => exact (execKvtArmWrite_touches ..).toAll
  | calArmWrite => exact (execCalArmWrite_touches ..).toAll
  | yokeArmWrite => exact (execYokeArmWrite_touches ..).toAll
  | bootEntry => exact (execBootEntry_touches ..).toAll
  | imageCandidateRead => exact (execImageCandidateRead_touches ..).toAll
  | mgdInitDone => exact (execMgdInitDone_touches ..).toAll
  | kvtUnsealDone => exact (execKvtUnsealDone_touches ..).toAll
  | calibrateEnd => exact (execCalibrateEnd_touches ..).toAll
  | autoServiceAttempt => exact (execAutoServiceAttempt_touches ..).toAll
  | writeOpen => exact (execWriteOpen_touches ..).toAll
  | writeChunk path slot n => exact (execWriteChunk_touches path slot n s).toAll
  | chunkEnergyTimeout => exact (execChunkEnergyTimeout_touches ..).toAll
  | writeClose => exact (execWriteClose_touches ..).toAll
  | activate => exact (execActivate_touches ..).toAll
  | confirm => exact (execConfirm_touches ..).toAll
  | revert => exact (execRevert_touches ..).toAll
  | reboot => exact (execReboot_touches ..).toAll
  | copyGolden => exact (execCopyGolden_touches ..).toAll
  | imageErase => exact (execImageErase_touches ..).toAll
  | raiseFloor => exact (execRaiseFloor_touches ..).toAll
  | revokeAuth => exact (execRevokeAuth_touches ..).toAll
  | setTrialMax => exact (execSetTrialMax_touches ..).toAll
  | imageCmdUnknown => exact (execImageCmdUnknown_touches ..).toAll
  | goService => exact (execGoService_touches ..).toAll
  | goYoke => exact (execGoYoke_touches ..).toAll
  | goYokeTimeout => exact (execGoYokeTimeout_touches ..).toAll
  | modeStop => exact (execModeStop_touches ..).toAll
  | stopDrainEnd => exact (execStopDrainEnd_touches ..).toAll
  | selfTest => exact (execSelfTest_touches ..).toAll
  | selfTestEnd => exact (execSelfTestEnd_touches ..).toAll
  | unyoke => exact (execUnyoke_touches ..).toAll
  | moduleReset => exact (execModuleReset_touches ..).toAll
  | clearDegrade => exact (execClearDegrade_touches ..).toAll
  | modeCmdUnknown => exact (execModeCmdUnknown_touches ..).toAll
  | recoveryIslandsReleased => exact (execRecoveryIslandsReleased_touches ..).toAll
  | recoveryCauseCleared => exact (execRecoveryCauseCleared_touches ..).toAll
  | escalationWindowExpiry => exact (execEscalationWindowExpiry_touches ..).toAll
  | stewardWatchdog => exact (execStewardWatchdog_touches ..).toAll
  | storeRequest => exact (execStoreRequest_touches ..).toAll
  | storeRetryCheck => exact (execStoreRetryCheck_touches ..).toAll
  | storeComplete => exact (execStoreComplete_touches ..).toAll
  | clientFrameLookup => exact (execClientFrameLookup_touches ..).toAll
  | learnProbe => exact (execLearnProbe_touches ..).toAll
  | learnInsert => exact (execLearnInsert_touches ..).toAll
  | clsSearch => exact (execClsSearch_touches ..).toAll
  | searchNext => exact (execSearchNext_touches ..).toAll
  | clsInsert => exact (execClsInsert_touches ..).toAll
  | clsDelete => exact (execClsDelete_touches ..).toAll
  | flushByPort => exact (execFlushByPort_touches ..).toAll
  | flushDone => exact (execFlushDone_touches ..).toAll
  | digestSnap => exact (execDigestSnap_touches ..).toAll
  | clsCmdUnknown => exact (execClsCmdUnknown_touches ..).toAll
  | hashSeedWrite => exact (execHashSeedWrite_touches ..).toAll
  | reaperVisit => exact (execReaperVisit_touches ..).toAll
  | defaultBypass => exact (execDefaultBypass_touches ..).toAll
  | frameAdmit => exact (execFrameAdmit_touches ..).toAll
  | frameLastCell => exact (execFrameLastCell_touches ..).toAll
  | schPick => exact (execSchPick_touches ..).toAll
  | pickedFrameEnd => exact (execPickedFrameEnd_touches ..).toAll
  | gateChange => exact (execGateChange_touches ..).toAll
  | gateListTakeEffect => exact (execGateListTakeEffect_touches ..).toAll
  | gateEntryAdvance => exact (execGateEntryAdvance_touches ..).toAll
  | launchLate => exact (execLaunchLate_touches ..).toAll
  | schTblRead => exact (execSchTblRead_touches ..).toAll
  | schTblWrite => exact (execSchTblWrite_touches ..).toAll
  | schTblUnknown => exact (execSchTblUnknown_touches ..).toAll
  | mgdRead => exact (execMgdRead_touches ..).toAll
  | mgdWrite => exact (execMgdWrite_touches ..).toAll
  | spillLineVerdict => exact (execSpillLineVerdict_touches ..).toAll
  | verdictTimeout => exact (execVerdictTimeout_touches ..).toAll
  | tagBurstWindowEnd => exact (execTagBurstWindowEnd_touches ..).toAll
  | retillCmd => exact (execRetillCmd_touches ..).toAll
  | retillDone => exact (execRetillDone_touches ..).toAll
  | harrowStep => exact (execHarrowStep_touches ..).toAll
  | allotWindowWrite => exact (execAllotWindowWrite_touches ..).toAll
  | windowInitDone => exact (execWindowInitDone_touches ..).toAll
  | ctxRead => exact (execCtxRead_touches ..).toAll
  | ctxCreate => exact (execCtxCreate_touches ..).toAll
  | ctxWrite => exact (execCtxWrite_touches ..).toAll
  | ctxDelete => exact (execCtxDelete_touches ..).toAll
  | ascRotate => exact (execAscRotate_touches ..).toAll
  | ascFlip => exact (execAscFlip_touches ..).toAll
  | ascCmdUnknown => exact (execAscCmdUnknown_touches ..).toAll
  | lineFrameReceive => exact (execLineFrameReceive_touches ..).toAll
  | decryptFinalCheck => exact (execDecryptFinalCheck_touches ..).toAll
  | ctxWriteback => exact (execCtxWriteback_touches ..).toAll
  | oldHoldExpiry => exact (execOldHoldExpiry_touches ..).toAll
  | cloakSheafReceive => exact (execCloakSheafReceive_touches ..).toAll
  | cloakTagCheck => exact (execCloakTagCheck_touches ..).toAll
  | cipherBlockRelease => exact (execCipherBlockRelease_touches ..).toAll
  | mismatchWindowEnd => exact (execMismatchWindowEnd_touches ..).toAll
  | burstWindowEnd => exact (execBurstWindowEnd_touches ..).toAll
  | spareKatTick => exact (execSpareKatTick_touches ..).toAll
  | katDone => exact (execKatDone_touches ..).toAll
  | workItemEnd => exact (execWorkItemEnd_touches ..).toAll
  | fallowSquash => exact (execFallowSquash_touches ..).toAll
  | pairRetire => exact (execPairRetire_touches ..).toAll
  | pairKat => exact (execPairKat_touches ..).toAll
  | pairCmdUnknown => exact (execPairCmdUnknown_touches ..).toAll
  | lookasideJob => exact (execLookasideJob_touches ..).toAll
  | lookasideAdmit => exact (execLookasideAdmit_touches ..).toAll
  | lookasideComplete => exact (execLookasideComplete_touches ..).toAll
  | kvtLoad => exact (execKvtLoad_touches ..).toAll
  | importKw => exact (execImportKw_touches ..).toAll
  | kvtGenerate => exact (execKvtGenerate_touches ..).toAll
  | kvtDerive => exact (execKvtDerive_touches ..).toAll
  | kvtErase => exact (execKvtErase_touches ..).toAll
  | readAttr => exact (execReadAttr_touches ..).toAll
  | kvtGrant => exact (execKvtGrant_touches ..).toAll
  | provOpen => exact (execProvOpen_touches ..).toAll
  | provAccept => exact (execProvAccept_touches ..).toAll
  | importProv => exact (execImportProv_touches ..).toAll
  | provClose => exact (execProvClose_touches ..).toAll
  | provSessionTimeout => exact (execProvSessionTimeout_touches ..).toAll
  | idExport => exact (execIdExport_touches ..).toAll
  | certWrite => exact (execCertWrite_touches ..).toAll
  | anchorAdd => exact (execAnchorAdd_touches ..).toAll
  | anchorRevoke => exact (execAnchorRevoke_touches ..).toAll
  | lcAdvance => exact (execLcAdvance_touches ..).toAll
  | zeroizeAll => exact (execZeroizeAll_touches ..).toAll
  | reseed => exact (execReseed_touches ..).toAll
  | kvtCmdUnknown => exact (execKvtCmdUnknown_touches ..).toAll
  | loadStoreTimeout => exact (execLoadStoreTimeout_touches ..).toAll
  | slotErased => exact (execSlotErased_touches ..).toAll
  | remaskWalk => exact (execRemaskWalk_touches ..).toAll
  | rbgReseed => exact (execRbgReseed_touches ..).toAll
  | rbgHealthFail => exact (execRbgHealthFail_touches ..).toAll
  | pairingMessage => exact (execPairingMessage_touches ..).toAll
  | pairConfirm => exact (execPairConfirm_touches ..).toAll
  | dithalCellReceive => exact (execDithalCellReceive_touches ..).toAll
  | dithalResendTimeout => exact (execDithalResendTimeout_touches ..).toAll
  | frameRecord => exact (execFrameRecord_touches ..).toAll
  | unmatchedDiscard => exact (execUnmatchedDiscard_touches ..).toAll
  | streamEpoch => exact (execStreamEpoch_touches ..).toAll
  | streamVerdict => exact (execStreamVerdict_touches ..).toAll
  | sheafVerdict => exact (execSheafVerdict_touches ..).toAll
  | clsCommit => exact (execClsCommit_touches ..).toAll
  | sciCommit => exact (execSciCommit_touches ..).toAll
  | ascCommit => exact (execAscCommit_touches ..).toAll
  | ascEvent => exact (execAscEvent_touches ..).toAll
  | flipItem => exact (execFlipItem_touches ..).toAll
  | kvtCommit => exact (execKvtCommit_touches ..).toAll
  | regWrite => exact (execRegWrite_touches ..).toAll
  | schCommit => exact (execSchCommit_touches ..).toAll
  | timemap => exact (execTimemap_touches ..).toAll
  | rixItem => exact (execRixItem_touches ..).toAll
  | streamInject => exact (execStreamInject_touches ..).toAll
  | streamDiverge => exact (execStreamDiverge_touches ..).toAll
  | streamYield => exact (execStreamYield_touches ..).toAll
  | handoverItem => exact (execHandoverItem_touches ..).toAll
  | streamCopy => exact (execStreamCopy_touches ..).toAll
  | streamSnap => exact (execStreamSnap_touches ..).toAll
  | streamMark => exact (execStreamMark_touches ..).toAll
  | ackMark => exact (execAckMark_touches ..).toAll
  | streamDefects => exact (execStreamDefects_touches ..).toAll
  | streamDigest => exact (execStreamDigest_touches ..).toAll
  | repairReq => exact (execRepairReq_touches ..).toAll
  | stateItem => exact (execStateItem_touches ..).toAll
  | digestIntervalEnd => exact (execDigestIntervalEnd_touches ..).toAll
  | repairTimeout => exact (execRepairTimeout_touches ..).toAll
  | yokeLockLost => exact (execYokeLockLost_touches ..).toAll
  | leadSilent => exact (execLeadSilent_touches ..).toAll
  | promotion => exact (execPromotion_touches ..).toAll
  | yokHandover => exact (execYokHandover_touches ..).toAll
  | handoverTakeEffect => exact (execHandoverTakeEffect_touches ..).toAll
  | yokPromote => exact (execYokPromote_touches ..).toAll
  | yokResync => exact (execYokResync_touches ..).toAll
  | yokCmdUnknown => exact (execYokCmdUnknown_touches ..).toAll
  | resyncCutIn => exact (execResyncCutIn_touches ..).toAll
  | resyncTimeout => exact (execResyncTimeout_touches ..).toAll
  | resyncRestart => exact (execResyncRestart_touches ..).toAll
  | channelSet => exact (execChannelSet_touches ..).toAll
  | channelStep => exact (execChannelStep_touches ..).toAll
  | channelSlew => exact (execChannelSlew_touches ..).toAll
  | channelStop => exact (execChannelStop_touches ..).toAll
  | timCmdUnknown => exact (execTimCmdUnknown_touches ..).toAll
  | slewDone => exact (execSlewDone_touches ..).toAll
  | freqWrite => exact (execFreqWrite_touches ..).toAll
  | parentWrite => exact (execParentWrite_touches ..).toAll
  | ppsInEdge => exact (execPpsInEdge_touches ..).toAll
  | ppsEdgeMissed => exact (execPpsEdgeMissed_touches ..).toAll
  | todMessage => exact (execTodMessage_touches ..).toAll
  | ppsOutEdge => exact (execPpsOutEdge_touches ..).toAll
  | todOutSend => exact (execTodOutSend_touches ..).toAll
  | doorbell => exact (execDoorbell_touches ..).toAll
  | commandDescriptor => exact (execCommandDescriptor_touches ..).toAll
  | injectDescriptor => exact (execInjectDescriptor_touches ..).toAll
  | puntDelivery => exact (execPuntDelivery_touches ..).toAll
  | irqCoalesceTimer => exact (execIrqCoalesceTimer_touches ..).toAll
  | resetDrain => exact (execResetDrain_touches ..).toAll
  | resetSquash => exact (execResetSquash_touches ..).toAll
  | selfReset => exact (execSelfReset_touches ..).toAll
  | drainTimeout => exact (execDrainTimeout_touches ..).toAll
  | allotFreeze => exact (execAllotFreeze_touches ..).toAll
  | allotThaw => exact (execAllotThaw_touches ..).toAll
  | allotCmdUnknown => exact (execAllotCmdUnknown_touches ..).toAll
  | migSave => exact (execMigSave_touches ..).toAll
  | migRestore => exact (execMigRestore_touches ..).toAll
  | allotCtrlWrite => exact (execAllotCtrlWrite_touches ..).toAll
  | pcieLinkDown => exact (execPcieLinkDown_touches ..).toAll
  | pcieLinkUp => exact (execPcieLinkUp_touches ..).toAll
  | entdaa => exact (execEntdaa_touches ..).toAll
  | setdasa => exact (execSetdasa_touches ..).toAll
  | rstdaa => exact (execRstdaa_touches ..).toAll
  | rstact => exact (execRstact_touches ..).toAll
  | getpid => exact (execGetpid_touches ..).toAll
  | getbcr => exact (execGetbcr_touches ..).toAll
  | getdcr => exact (execGetdcr_touches ..).toAll
  | getstatus => exact (execGetstatus_touches ..).toAll
  | getmxds => exact (execGetmxds_touches ..).toAll
  | getmwl => exact (execGetmwl_touches ..).toAll
  | getmrl => exact (execGetmrl_touches ..).toAll
  | setmwl => exact (execSetmwl_touches ..).toAll
  | setmrl => exact (execSetmrl_touches ..).toAll
  | enec => exact (execEnec_touches ..).toAll
  | disec => exact (execDisec_touches ..).toAll
  | read32 => exact (execRead32_touches ..).toAll
  | write32 => exact (execWrite32_touches ..).toAll
  | i3cPrivateRead => exact (execI3cPrivateRead_touches ..).toAll
  | hotJoinRequest => exact (execHotJoinRequest_touches ..).toAll
  | foldClose => exact (execFoldClose_touches ..).toAll
  | batchOffer => exact (execBatchOffer_touches ..).toAll
  | logScan => exact (execLogScan_touches ..).toAll
  | logFreeze => exact (execLogFreeze_touches ..).toAll
  | logThaw => exact (execLogThaw_touches ..).toAll
  | freezeExpiry => exact (execFreezeExpiry_touches ..).toAll
  | logRelease => exact (execLogRelease_touches ..).toAll
  | copyOut => exact (execCopyOut_touches ..).toAll
  | calWrite => exact (execCalWrite_touches ..).toAll
  | calRead => exact (execCalRead_touches ..).toAll
  | logCmdUnknown => exact (execLogCmdUnknown_touches ..).toAll
  | logReadIndexWrite => exact (execLogReadIndexWrite_touches ..).toAll
  | counterSnap => exact (execCounterSnap_touches ..).toAll
  | periodicSnap => exact (execPeriodicSnap_touches ..).toAll
  | fuCfgWrite => exact (execFuCfgWrite_touches ..).toAll
  | yokeFreqLocked => exact (execYokeFreqLocked_touches ..).toAll
  | storeDeferralExceeded => exact (execStoreDeferralExceeded_touches ..).toAll
  | rbgRequestTimeout => exact (execRbgRequestTimeout_touches ..).toAll
  | crossingOffer => exact (execCrossingOffer_touches ..).toAll
  | idleProbe => exact (execIdleProbe_touches ..).toAll
  | crossTimeout => exact (execCrossTimeout_touches ..).toAll
  | cellReceive => exact (execCellReceive_touches ..).toAll
  | cellNakReceived => exact (execCellNakReceived_touches ..).toAll
  | busTransaction => exact (execBusTransaction_touches ..).toAll
  | perstAssert => exact (execPerstAssert_touches ..).toAll
  | lidOvertemp => exact (execLidOvertemp_touches ..).toAll
  | dieOvertemp => exact (execDieOvertemp_touches ..).toAll
  | dieThermalShutdown => exact (execDieThermalShutdown_touches ..).toAll
  | inputOvervoltage => exact (execInputOvervoltage_touches ..).toAll
  | feedLost => exact (execFeedLost_touches ..).toAll
  | feedRestored => exact (execFeedRestored_touches ..).toAll
  | supplySample => exact (execSupplySample_touches ..).toAll
  | powerRise => exact (execPowerRise_touches ..).toAll
  | holdupCapMeasure => exact (execHoldupCapMeasure_touches ..).toAll
  | powerFail => exact (execPowerFail_touches ..).toAll
  | pfailSummary => exact (execPfailSummary_touches ..).toAll
  | storeDomainRelease => exact (execStoreDomainRelease_touches ..).toAll
  | powerReturnDuringBleed => exact (execPowerReturnDuringBleed_touches ..).toAll
  | svcMuteAssert => exact (execSvcMuteAssert_touches ..).toAll
  | svcMuteRelease => exact (execSvcMuteRelease_touches ..).toAll
  | yokeIdChanged => exact (execYokeIdChanged_touches ..).toAll
  | zeroPinRequest => exact (execZeroPinRequest_touches ..).toAll
  | laneLos => exact (execLaneLos_touches ..).toAll
  | laneLol => exact (execLaneLol_touches ..).toAll
  | laneClear => exact (execLaneClear_touches ..).toAll
  | fecWindowEnd => exact (execFecWindowEnd_touches ..).toAll
  | pcsStateChange => exact (execPcsStateChange_touches ..).toAll
  | markerFound => exact (execMarkerFound_touches ..).toAll
  | headlandReceive => exact (execHeadlandReceive_touches ..).toAll
  | groupAlignmentCheck => exact (execGroupAlignmentCheck_touches ..).toAll
  | sheafStart => exact (execSheafStart_touches ..).toAll
  | secondLatch => exact (execSecondLatch_touches ..).toAll
  | tribHeader => exact (execTribHeader_touches ..).toAll
  | laneCtrlWrite => exact (execLaneCtrlWrite_touches ..).toAll
  | portEnableWrite => exact (execPortEnableWrite_touches ..).toAll
  | ethFrameReceive => exact (execEthFrameReceive_touches ..).toAll
  | swapCmd => exact (execSwapCmd_touches ..).toAll
  | connectionMemoryWrite => exact (execConnectionMemoryWrite_touches ..).toAll
  | pairCfgWrite => exact (execPairCfgWrite_touches ..).toAll
  | apsClear => exact (execApsClear_touches ..).toAll
  | apsLockout => exact (execApsLockout_touches ..).toAll
  | apsForced => exact (execApsForced_touches ..).toAll
  | apsManualP => exact (execApsManualP_touches ..).toAll
  | apsManualW => exact (execApsManualW_touches ..).toAll
  | apsCmdUnknown => exact (execApsCmdUnknown_touches ..).toAll
  | holdoffExpiry => exact (execHoldoffExpiry_touches ..).toAll
  | wtrExpiry => exact (execWtrExpiry_touches ..).toAll
  | sensorDetection => exact (execSensorDetection_touches ..).toAll
  | sensorWindowClose => exact (execSensorWindowClose_touches ..).toAll
  | sensorTripClear => exact (execSensorTripClear_touches ..).toAll
  | sensorCfgWrite => exact (execSensorCfgWrite_touches ..).toAll
  | rootRefresh => exact (execRootRefresh_touches ..).toAll
  | reserveTest => exact (execReserveTest_touches ..).toAll
  | hdgLogIndexWrite => exact (execHdgLogIndexWrite_touches ..).toAll
  | perstRelease => exact (execPerstRelease_touches ..).toAll
  | overvoltageRelease => exact (execOvervoltageRelease_touches ..).toAll
  | cellExhausted => exact (execCellExhausted_touches ..).toAll

/-- A held command that may run leaves the list of held commands, and nothing else moves. -/
theorem State.release_eq_some {s t : State} {i : Instr} (h : s.release = some (i, t)) :
    i ∈ s.held ∧ t = { s with held := s.held.erase i } := by
  unfold State.release at h
  cases hf : s.held.find? s.releasable with
  | none => rw [hf] at h; cases h
  | some j =>
    rw [hf] at h
    cases h
    exact ⟨List.mem_of_find?_eq_some hf, rfl⟩

/-- The idle block runs a held command or lets the clock tick; it does not touch the queue. -/
theorem State.idle_touches (s : State) : OutTouches Part.all s s.idle := by
  unfold State.idle
  split
  · next i t h =>
    obtain ⟨-, rfl⟩ := State.release_eq_some h
    exact (exec_touches i _).chain (List.Subset.refl _) (Touches.set_held (Touches.rfl' _ s) (by decide))
  · exact (State.tick_touches s).mono (by decide)

/-- A step takes the front of the queue, where one stands, and leaves the rest of the queue and canonical form as they are. -/
theorem step_touches (s : State) : OutTouches Part.all { s with pending := s.pending.tail } (step s) := by
  unfold step
  cases h : s.pending with
  | nil =>
    have e : { s with pending := [].tail } = s := by rw [List.tail_nil, ← h]
    rw [e]
    exact State.idle_touches s
  | cons c rest => exact exec_touches c _

/-- Canonical form does not speak of the queue. -/
theorem State.Canon.withPending {s : State} (h : s.Canon) (q : List Instr) : { s with pending := q }.Canon :=
  ⟨h.regs, h.cnt, h.nor, h.recs, h.log, h.lines⟩

end Sys2Proof.Machine

open Sys2Proof Sys2Proof.Machine

/-- Settles O4: each of the six tables of State.reset lists nothing. -/
theorem resetIsCanonical : Obligations.ResetIsCanonical := by
  unfold Obligations.ResetIsCanonical
  exact ⟨rfl, rfl, rfl, rfl, rfl, rfl⟩

/-- Settles O5, from what each command, a held command that runs and the clock may touch. -/
theorem everyStepKeepsCanonicalForm : Obligations.EveryStepKeepsCanonicalForm := by
  unfold Obligations.EveryStepKeepsCanonicalForm
  intro s t hs ht
  exact ((step_touches s).ofNext ht).canon (hs.withPending s.pending.tail)
end

section
/-! No command ends in a fault or a refusal (log 8): every branch of every command answers a next state. -/

namespace Sys2Proof.Machine

open Sys2Proof

/-- The outcome is a next state. -/
def Answers (o : Host.Outcome State Fault Refusal) : Prop := ∃ t, o = .next t

theorem Answers.next (t : State) : Answers (.next t) := ⟨t, rfl⟩

theorem Answers.ite {c : Prop} [Decidable c] {a b : Host.Outcome State Fault Refusal} (h : Answers a) (k : Answers b) :
    Answers (if c then a else b) := by split <;> assumption

/-! Commands whose outcome depends on more than conditions: one lemma each, along the branches of the command. -/

theorem execImageCandidateRead_answers (readOk : Bool) (s : State) : Answers (execImageCandidateRead readOk s) := by
  unfold execImageCandidateRead
  split
  · exact .next _
  · refine .ite (.next _) (.ite (.next _) (.ite (.next _) ?_))
    split
    · exact .next _
    · exact .ite (.next _) (.next _)

theorem execChunkEnergyTimeout_answers (s : State) : Answers (execChunkEnergyTimeout s) := by
  unfold execChunkEnergyTimeout
  split
  · split
    · exact .ite (.next _) (.next _)
    · exact .next _
  · exact .next _

theorem execStoreComplete_answers (nor good : Bool) (s : State) : Answers (execStoreComplete nor good s) := by
  unfold execStoreComplete
  split <;> exact .next _

theorem execLearnProbe_answers (bad : List (Fin 8)) (fixed : Fin 9) (s : State) : Answers (execLearnProbe bad fixed s) := by
  unfold execLearnProbe
  split
  · exact .next _
  · refine .ite (.next _) ?_
    dsimp only
    split
    · split <;> exact .next _
    · exact .ite (.next _) (.ite (.next _) (.ite (.next _) (.ite (.next _) (.next _))))

theorem execLearnInsert_answers (bad : List (Fin 8)) (fixed : Fin 9) (s : State) :
    Answers (execLearnInsert bad fixed s) := by
  unfold execLearnInsert
  split
  · exact .next _
  · exact .ite (.next _) (.ite (.next _) (.ite (.next _) (.ite (.next _) (.next _))))

theorem execFlushDone_answers (s : State) : Answers (execFlushDone s) := by
  unfold execFlushDone
  split <;> exact .next _

theorem execFrameAdmit_answers (s : State) : Answers (execFrameAdmit s) := by
  unfold execFrameAdmit
  split
  · exact .next _
  · exact .ite (.next _) (.ite (.next _) (.next _))

theorem execFrameLastCell_answers (frame kept : Nat) (s : State) : Answers (execFrameLastCell frame kept s) := by
  unfold execFrameLastCell
  split
  · exact .next _
  · exact .ite (.next _) (.ite (.next _) (.next _))

theorem execSchPick_answers (output : Fin 544) (seen : MemOutcome) (badCheck : Bool) (s : State) :
    Answers (execSchPick output seen badCheck s) := by
  unfold execSchPick
  refine .ite (.next _) ?_
  extract_lets
  split
  · exact .next _
  · split
    · exact .next _
    · exact .ite (.next _) (.ite (.next _) (.ite (.next _) (.next _)))

theorem execPickedFrameEnd_answers (output : Fin 544) (seen : MemOutcome) (s : State) :
    Answers (execPickedFrameEnd output seen s) := by
  unfold execPickedFrameEnd
  extract_lets
  split
  · exact .next _
  · split
    · exact .next _
    · exact .ite (.next _) (.next _)

theorem execGateListTakeEffect_answers (output : Fin 544) (s : State) : Answers (execGateListTakeEffect output s) := by
  unfold execGateListTakeEffect
  extract_lets
  split
  · exact .next _
  · exact .ite (.next _) (.next _)

theorem execLaunchLate_answers (cq : Fin 4352) (assoc : Option (Fin 65536)) (s : State) :
    Answers (execLaunchLate cq assoc s) := by
  unfold execLaunchLate
  extract_lets
  split
  · exact .next _
  · exact .ite (.next _) (.ite (.next _) (.next _))

theorem execMgdRead_answers (queue : Fin 80) (addr : Nat) (seen : MemOutcome) (s : State) :
    Answers (execMgdRead queue addr seen s) := by
  unfold execMgdRead
  extract_lets
  split
  · exact .next _
  · exact .ite (.next _) (.next _)

theorem execMgdWrite_answers (queue : Fin 80) (addr : Nat) (data : List Byte) (seen sent : MemOutcome) (s : State) :
    Answers (execMgdWrite queue addr data seen sent s) := by
  unfold execMgdWrite
  extract_lets
  split
  · exact .next _
  · exact .ite (.next _) (.ite (.next _) (.ite (.next _) (.next _)))

theorem execSpillLineVerdict_answers (frame addr : Nat) (seen : MemOutcome) (s : State) :
    Answers (execSpillLineVerdict frame addr seen s) := by
  unfold execSpillLineVerdict
  split
  · exact .next _
  · refine .ite (.next _) ?_
    split
    · exact .next _
    · exact .ite (.next _) (.ite (.next _) (.next _))

theorem execVerdictTimeout_answers (frame : Nat) (s : State) : Answers (execVerdictTimeout frame s) := by
  unfold execVerdictTimeout
  split
  · exact .next _
  · split
    · exact .next _
    · exact .ite (.next _) (.next _)

theorem execRetillDone_answers (s : State) : Answers (execRetillDone s) := by
  unfold execRetillDone
  split <;> exact .next _

theorem execDecryptFinalCheck_answers (frame : Nat) (s : State) : Answers (execDecryptFinalCheck frame s) := by
  unfold execDecryptFinalCheck
  split
  · exact .next _
  · exact .ite (.next _) (.ite (.next _) (.ite (.next _) (.ite (.next _) (.next _))))

theorem execOldHoldExpiry_answers (assoc : Fin 65536) (s : State) : Answers (execOldHoldExpiry assoc s) := by
  unfold execOldHoldExpiry
  extract_lets
  split
  · exact .next _
  · exact .ite (.next _) (.next _)

theorem execCloakSheafReceive_answers (trib : Fin 512) (sheaf : BitVec 48) (data tag : List Byte) (badCheck : Bool) (s : State) :
    Answers (execCloakSheafReceive trib sheaf data tag badCheck s) := by
  unfold execCloakSheafReceive
  extract_lets
  split
  · exact .next _
  · refine .ite (.next _) (.ite (.next _) (.ite (.next _) ?_))
    extract_lets
    split
    · exact .next _
    · exact .ite (.next _) (.ite (.next _) (.next _))

theorem execCloakTagCheck_answers (trib : Fin 512) (s : State) : Answers (execCloakTagCheck trib s) := by
  unfold execCloakTagCheck
  extract_lets
  split
  · exact .next _
  · exact .ite (.next _) (.next _)

theorem execCipherBlockRelease_answers (pair : Fin 72) (item : Nat) (agree retryAgrees slack released : Bool) (s : State) :
    Answers (execCipherBlockRelease pair item agree retryAgrees slack released s) := by
  unfold execCipherBlockRelease
  split
  · exact .next _
  · exact .ite (.next _) (.ite (.next _) (.ite (.next _) (.next _)))

theorem execKatDone_answers (pair : Fin 72) (pass : Bool) (s : State) : Answers (execKatDone pair pass s) := by
  unfold execKatDone
  extract_lets
  split
  · exact .next _
  · exact .ite (.next _) (.ite (.next _) (.next _))

theorem execFallowSquash_answers (item : Nat) (released : Bool) (s : State) :
    Answers (execFallowSquash item released s) := by
  unfold execFallowSquash
  split
  · exact .next _
  · exact .ite (.next _) (.next _)

theorem execLookasideAdmit_answers (src : List Byte) (fetched : Bool) (seen : MemOutcome) (badCheck : Bool) (s : State) :
    Answers (execLookasideAdmit src fetched seen badCheck s) := by
  unfold execLookasideAdmit
  extract_lets
  split
  · exact .next _
  · extract_lets
    split
    · exact .next _
    · exact .ite (.next _) (.ite (.ite (.next _) (.next _)) (.ite (.next _) (.next _)))

theorem execLookasideComplete_answers (job : Nat) (written : Bool) (seen : MemOutcome) (s : State) :
    Answers (execLookasideComplete job written seen s) := by
  unfold execLookasideComplete
  split
  · exact .next _
  · exact .ite (.next _) (.ite (.next _) (.ite (.next _) (.ite (.next _) (.next _))))

theorem execProvSessionTimeout_answers (s : State) : Answers (execProvSessionTimeout s) := by
  unfold execProvSessionTimeout
  split <;> exact .next _

theorem execLoadStoreTimeout_answers (allot : Fin 64) (s : State) : Answers (execLoadStoreTimeout allot s) := by
  unfold execLoadStoreTimeout
  split <;> exact .next _

theorem execSlotErased_answers (vault : Bool) (slot : Fin 131072) (s : State) : Answers (execSlotErased vault slot s) := by
  unfold execSlotErased
  extract_lets
  split
  · exact .ite (.next _) (.next _)
  · exact .next _

theorem execPairingMessage_answers (msg : List Byte) (s : State) : Answers (execPairingMessage msg s) := by
  unfold execPairingMessage
  split
  · exact .next _
  · refine .ite ?_ (.next _)
    extract_lets
    split <;> exact .next _

theorem execPairConfirm_answers (confirm : List Byte) (s : State) : Answers (execPairConfirm confirm s) := by
  unfold execPairConfirm
  split
  · exact .next _
  · exact .ite (.next _) (.ite (.next _) (.next _))

theorem execUnmatchedDiscard_answers (input : Fin 544) (s : State) : Answers (execUnmatchedDiscard input s) := by
  unfold execUnmatchedDiscard
  split
  · exact .next _
  · exact .ite (.next _) (.next _)

theorem execPpsOutEdge_answers (s : State) : Answers (execPpsOutEdge s) := by
  unfold execPpsOutEdge
  split
  · exact .ite (.next _) (.next _)
  · exact .next _

theorem execTodOutSend_answers (s : State) : Answers (execTodOutSend s) := by
  unfold execTodOutSend
  split
  · exact .ite (.next _) (.next _)
  · exact .next _

theorem execMigRestore_answers (desc blob : List Byte) (fetched : Bool) (s : State) :
    Answers (execMigRestore desc blob fetched s) := by
  unfold execMigRestore
  refine .ite (.next _) (.ite (.next _) (.ite (.next _) ?_))
  split
  · exact .ite (.next _) (.next _)
  · exact .next _

theorem execI3cPrivateRead_answers (addr : Fin 128) (s : State) : Answers (execI3cPrivateRead addr s) := by
  unfold execI3cPrivateRead
  refine .ite (.next _) ?_
  extract_lets
  split
  · exact .next _
  · exact .ite (.next _) (.ite (.next _) (.next _))

theorem execRbgRequestTimeout_answers (allot : Fin 64) (s : State) : Answers (execRbgRequestTimeout allot s) := by
  unfold execRbgRequestTimeout
  split <;> exact .next _

theorem execMarkerFound_answers (lane : Fin 32) (marker : List Byte) (sheafNo : BitVec 48) (s : State) :
    Answers (execMarkerFound lane marker sheafNo s) := by
  unfold execMarkerFound
  extract_lets
  split
  · exact .next _
  · exact .ite (.next _) (.next _)

theorem execHeadlandReceive_answers (lane : Fin 32) (headland : List Byte) (s : State) :
    Answers (execHeadlandReceive lane headland s) := by
  unfold execHeadlandReceive
  extract_lets
  split
  · exact .next _
  · refine .ite (.next _) ?_
    split <;> exact .next _

theorem execModeCmdUnknown_answers (path : Path) (op : Fin 16) (s : State) : Answers (execModeCmdUnknown path op s) :=
  .ite (.next _) (.ite (.next _) (.next _))

theorem execImageCmdUnknown_answers (path : Path) (op : Fin 16) (s : State) : Answers (execImageCmdUnknown path op s) :=
  .ite (.next _) (.ite (.next _) (.next _))

/-- What an I3C write spells is a mode command, an image command or the arming write (R538); of the first two only the undefined codes
branch. -/
theorem State.i3cCommand_answers {s : State} {off : Nat} {val : Word} {o : Host.Outcome State Fault Refusal}
    (h : s.i3cCommand off val = some o) : Answers o := by
  unfold State.i3cCommand at h
  extract_lets slot arg op at h
  split at h
  · cases h
    split
    case h_1 => exact execModeCmdUnknown_answers ..
    case h_9 => exact execModeCmdUnknown_answers ..
    all_goals exact .next _
  · split at h
    · cases h
      split
      case h_1 => exact execImageCmdUnknown_answers ..
      case h_3 => exact ⟨_, rfl⟩
      case h_14 => exact execImageCmdUnknown_answers ..
      all_goals exact .next _
    · split at h
      · cases h
        exact .next _
      · cases h

theorem execWrite32_answers (addr : Fin 128) (off val : BitVec 32) (s : State) : Answers (execWrite32 addr off val s) := by
  unfold execWrite32
  refine .ite (.next _) (.ite (.next _) ?_)
  split
  · next h => exact State.i3cCommand_answers h
  · exact .next _

/-- Every command answers: outright, or in each of its branches. -/
theorem exec_answers (c : Instr) (s : State) : Answers (exec c s) := by
  cases c with
  | registerWrite => exact .ite (.next _) (.next _)
  | wideValueLowRead => exact .next _
  | rcFieldRead => exact .next _
  | imageArmWrite => exact .next _
  | kvtArmWrite => exact .next _
  | calArmWrite => exact .next _
  | yokeArmWrite => exact .next _
  | bootEntry => exact .ite (.next _) (.ite (.next _) (.next _))
  | imageCandidateRead => exact execImageCandidateRead_answers ..
  | mgdInitDone => exact .ite (.ite (.next _) (.ite (.next _) (.next _))) (.ite (.ite (.next _) (.next _)) (.next _))
  | kvtUnsealDone => exact .ite (.next _) (.ite (.next _) (.next _))
  | calibrateEnd => exact .ite (.next _) (.next _)
  | autoServiceAttempt => exact .next _
  | writeOpen => exact .next _
  | writeChunk path slot n => exact .next _
  | chunkEnergyTimeout => exact execChunkEnergyTimeout_answers s
  | writeClose => exact .next _
  | activate => exact .next _
  | confirm => exact .next _
  | revert => exact .next _
  | reboot => exact .next _
  | copyGolden => exact .next _
  | imageErase => exact .next _
  | raiseFloor => exact .next _
  | revokeAuth => exact .next _
  | setTrialMax => exact .next _
  | imageCmdUnknown => exact execImageCmdUnknown_answers ..
  | goService => exact .next _
  | goYoke => exact .next _
  | goYokeTimeout => exact .next _
  | modeStop => exact .next _
  | stopDrainEnd => exact .next _
  | selfTest => exact .next _
  | selfTestEnd => exact .ite (.next _) (.next _)
  | unyoke => exact .next _
  | moduleReset => exact .next _
  | clearDegrade => exact .next _
  | modeCmdUnknown => exact execModeCmdUnknown_answers ..
  | recoveryIslandsReleased => exact .ite (.next _) (.ite (.next _) (.next _))
  | recoveryCauseCleared => exact .ite (.next _) (.ite (.next _) (.next _))
  | escalationWindowExpiry => exact .next _
  | stewardWatchdog => exact .ite (.next _) (.next _)
  | storeRequest => exact .next _
  | storeRetryCheck => exact .next _
  | storeComplete => exact execStoreComplete_answers ..
  | clientFrameLookup => exact .ite (.next _) (.next _)
  | learnProbe => exact execLearnProbe_answers ..
  | learnInsert => exact execLearnInsert_answers ..
  | clsSearch => exact .next _
  | searchNext => exact .next _
  | clsInsert => exact .next _
  | clsDelete => exact .next _
  | flushByPort => exact .next _
  | flushDone => exact execFlushDone_answers ..
  | digestSnap => exact .next _
  | clsCmdUnknown => exact .ite (.next _) (.next _)
  | hashSeedWrite => exact .next _
  | reaperVisit => exact .ite (.next _) (.ite (.next _) (.next _))
  | defaultBypass => exact .next _
  | frameAdmit => exact execFrameAdmit_answers ..
  | frameLastCell => exact execFrameLastCell_answers ..
  | schPick => exact execSchPick_answers ..
  | pickedFrameEnd => exact execPickedFrameEnd_answers ..
  | gateChange => exact .ite (.next _) (.next _)
  | gateListTakeEffect => exact execGateListTakeEffect_answers ..
  | gateEntryAdvance => exact .ite (.next _) (.ite (.next _) (.ite (.next _) (.next _)))
  | launchLate => exact execLaunchLate_answers ..
  | schTblRead => exact .next _
  | schTblWrite => exact .next _
  | schTblUnknown => exact .ite (.next _) (.next _)
  | mgdRead => exact execMgdRead_answers ..
  | mgdWrite => exact execMgdWrite_answers ..
  | spillLineVerdict => exact execSpillLineVerdict_answers ..
  | verdictTimeout => exact execVerdictTimeout_answers ..
  | tagBurstWindowEnd => exact .next _
  | retillCmd => exact .next _
  | retillDone => exact execRetillDone_answers ..
  | harrowStep => exact .ite (.next _) (.ite (.next _) (.next _))
  | allotWindowWrite => exact .next _
  | windowInitDone => exact .ite (.next _) (.next _)
  | ctxRead => exact .next _
  | ctxCreate => exact .next _
  | ctxWrite => exact .next _
  | ctxDelete => exact .next _
  | ascRotate => exact .next _
  | ascFlip => exact .next _
  | ascCmdUnknown => exact .ite (.next _) (.next _)
  | lineFrameReceive => exact .ite (.next _) (.ite (.next _) (.next _))
  | decryptFinalCheck => exact execDecryptFinalCheck_answers ..
  | ctxWriteback => exact .next _
  | oldHoldExpiry => exact execOldHoldExpiry_answers ..
  | cloakSheafReceive => exact execCloakSheafReceive_answers ..
  | cloakTagCheck => exact execCloakTagCheck_answers ..
  | cipherBlockRelease => exact execCipherBlockRelease_answers ..
  | mismatchWindowEnd => exact .next _
  | burstWindowEnd => exact .next _
  | spareKatTick => exact .next _
  | katDone => exact execKatDone_answers ..
  | workItemEnd => exact .next _
  | fallowSquash => exact execFallowSquash_answers ..
  | pairRetire => exact .next _
  | pairKat => exact .next _
  | pairCmdUnknown => exact .ite (.next _) (.next _)
  | lookasideJob => exact .ite (.next _) (.ite (.next _) (.next _))
  | lookasideAdmit => exact execLookasideAdmit_answers ..
  | lookasideComplete => exact execLookasideComplete_answers ..
  | kvtLoad => exact .next _
  | importKw => exact .next _
  | kvtGenerate => exact .next _
  | kvtDerive => exact .next _
  | kvtErase => exact .next _
  | readAttr => exact .next _
  | kvtGrant => exact .next _
  | provOpen => exact .next _
  | provAccept => exact .next _
  | importProv => exact .next _
  | provClose => exact .next _
  | provSessionTimeout => exact execProvSessionTimeout_answers ..
  | idExport => exact .next _
  | certWrite => exact .next _
  | anchorAdd => exact .next _
  | anchorRevoke => exact .next _
  | lcAdvance => exact .next _
  | zeroizeAll => exact .next _
  | reseed => exact .next _
  | kvtCmdUnknown => exact .ite (.next _) (.next _)
  | loadStoreTimeout => exact execLoadStoreTimeout_answers ..
  | slotErased => exact execSlotErased_answers ..
  | remaskWalk => exact .ite (.next _) (.next _)
  | rbgReseed => exact .ite (.next _) (.next _)
  | rbgHealthFail => exact .next _
  | pairingMessage => exact execPairingMessage_answers ..
  | pairConfirm => exact execPairConfirm_answers ..
  | dithalCellReceive => exact .ite (.next _) (.ite (.next _) (.ite (.next _) (.ite (.next _) (.next _))))
  | dithalResendTimeout => exact .next _
  | frameRecord => exact .ite (.next _) (.ite (.next _) (.next _))
  | unmatchedDiscard => exact execUnmatchedDiscard_answers ..
  | streamEpoch => exact .next _
  | streamVerdict => exact .next _
  | sheafVerdict => exact .next _
  | clsCommit => exact .next _
  | sciCommit => exact .next _
  | ascCommit => exact .next _
  | ascEvent => exact .next _
  | flipItem => exact .next _
  | kvtCommit => exact .next _
  | regWrite => exact .next _
  | schCommit => exact .next _
  | timemap => exact .next _
  | rixItem => exact .next _
  | streamInject => exact .next _
  | streamDiverge => exact .next _
  | streamYield => exact .next _
  | handoverItem => exact .next _
  | streamCopy => exact .next _
  | streamSnap => exact .next _
  | streamMark => exact .next _
  | ackMark => exact .next _
  | streamDefects => exact .next _
  | streamDigest => exact .next _
  | repairReq => exact .next _
  | stateItem => exact .next _
  | digestIntervalEnd => exact .ite (.next _) (.next _)
  | repairTimeout => exact .next _
  | yokeLockLost => exact .ite (.next _) (.next _)
  | leadSilent => exact .next _
  | promotion => exact .next _
  | yokHandover => exact .next _
  | handoverTakeEffect => exact .next _
  | yokPromote => exact .next _
  | yokResync => exact .next _
  | yokCmdUnknown => exact .ite (.next _) (.ite (.next _) (.next _))
  | resyncCutIn => exact .ite (.next _) (.ite (.next _) (.next _))
  | resyncTimeout => exact .next _
  | resyncRestart => exact .next _
  | channelSet => exact .next _
  | channelStep => exact .next _
  | channelSlew => exact .next _
  | channelStop => exact .next _
  | timCmdUnknown => exact .ite (.next _) (.next _)
  | slewDone => exact .next _
  | freqWrite => exact .next _
  | parentWrite => exact .next _
  | ppsInEdge => exact .ite (.next _) (.next _)
  | ppsEdgeMissed => exact .next _
  | todMessage => exact .ite (.next _) (.next _)
  | ppsOutEdge => exact execPpsOutEdge_answers ..
  | todOutSend => exact execTodOutSend_answers ..
  | doorbell => exact .next _
  | commandDescriptor => exact .ite (.next _) (.next _)
  | injectDescriptor => exact .ite (.next _) (.next _)
  | puntDelivery => exact .ite (.next _) (.ite (.next _) (.next _))
  | irqCoalesceTimer => exact .ite (.next _) (.next _)
  | resetDrain => exact .next _
  | resetSquash => exact .next _
  | selfReset => exact .next _
  | drainTimeout => exact .ite (.next _) (.ite (.next _) (.next _))
  | allotFreeze => exact .next _
  | allotThaw => exact .next _
  | allotCmdUnknown => exact .ite (.next _) (.next _)
  | migSave => exact .ite (.next _) (.ite (.next _) (.ite (.next _) (.next _)))
  | migRestore => exact execMigRestore_answers ..
  | allotCtrlWrite => exact .next _
  | pcieLinkDown => exact .next _
  | pcieLinkUp => exact .ite (.next _) (.next _)
  | entdaa => exact .ite (.next _) (.next _)
  | setdasa => exact .ite (.next _) (.next _)
  | rstdaa => exact .ite (.next _) (.ite (.next _) (.next _))
  | rstact => exact .ite (.next _) (.next _)
  | getpid => exact .next _
  | getbcr => exact .next _
  | getdcr => exact .next _
  | getstatus => exact .next _
  | getmxds => exact .next _
  | getmwl => exact .next _
  | getmrl => exact .next _
  | setmwl => exact .next _
  | setmrl => exact .next _
  | enec => exact .next _
  | disec => exact .next _
  | read32 => exact .ite (.next _) (.next _)
  | write32 => exact execWrite32_answers ..
  | i3cPrivateRead => exact execI3cPrivateRead_answers ..
  | hotJoinRequest => exact .ite (.next _) (.next _)
  | foldClose => exact .ite (.next _) (.next _)
  | batchOffer => exact .ite (.next _) (.next _)
  | logScan => exact .next _
  | logFreeze => exact .next _
  | logThaw => exact .next _
  | freezeExpiry => exact .next _
  | logRelease => exact .next _
  | copyOut => exact .next _
  | calWrite => exact .next _
  | calRead => exact .next _
  | logCmdUnknown => exact .next _
  | logReadIndexWrite => exact .next _
  | counterSnap => exact .next _
  | periodicSnap => exact .next _
  | fuCfgWrite => exact .next _
  | yokeFreqLocked => exact .next _
  | storeDeferralExceeded => exact .ite (.next _) (.ite (.next _) (.ite (.next _) (.next _)))
  | rbgRequestTimeout => exact execRbgRequestTimeout_answers ..
  | crossingOffer => exact .next _
  | idleProbe => exact .next _
  | crossTimeout => exact .ite (.next _) (.next _)
  | cellReceive => exact .ite (.next _) (.ite (.ite (.next _) (.next _)) (.ite (.next _) (.next _)))
  | cellNakReceived => exact .ite (.next _) (.ite (.next _) (.next _))
  | busTransaction => exact .ite (.next _) (.next _)
  | perstAssert => exact .next _
  | lidOvertemp => exact .next _
  | dieOvertemp => exact .next _
  | dieThermalShutdown => exact .ite (.next _) (.next _)
  | inputOvervoltage => exact .ite (.next _) (.next _)
  | feedLost => exact .next _
  | feedRestored => exact .ite (.next _) (.next _)
  | supplySample => exact .ite (.next _) (.ite (.next _) (.next _))
  | powerRise => exact .ite (.next _) (.next _)
  | holdupCapMeasure => exact .ite (.next _) (.next _)
  | powerFail => exact .ite (.next _) (.next _)
  | pfailSummary => exact .ite (.next _) (.next _)
  | storeDomainRelease => exact .ite (.next _) (.ite (.next _) (.next _))
  | powerReturnDuringBleed => exact .ite (.next _) (.next _)
  | svcMuteAssert => exact .ite (.next _) (.next _)
  | svcMuteRelease => exact .ite (.next _) (.next _)
  | yokeIdChanged => exact .next _
  | zeroPinRequest => exact .ite (.next _) (.next _)
  | laneLos => exact .ite (.next _) (.next _)
  | laneLol => exact .ite (.next _) (.next _)
  | laneClear => exact .ite (.next _) (.next _)
  | fecWindowEnd => exact .ite (.next _) (.next _)
  | pcsStateChange => exact .next _
  | markerFound => exact execMarkerFound_answers ..
  | headlandReceive => exact execHeadlandReceive_answers ..
  | groupAlignmentCheck => exact .ite (.next _) (.next _)
  | sheafStart => exact .ite (.next _) (.ite (.next _) (.ite (.next _) (.next _)))
  | secondLatch => exact .next _
  | tribHeader => exact .ite (.next _) (.ite (.next _) (.ite (.next _) (.ite (.ite (.next _) (.ite (.next _) (.next _))) (.next _))))
  | laneCtrlWrite => exact .next _
  | portEnableWrite => exact .ite (.next _) (.next _)
  | ethFrameReceive => exact .ite (.next _) (.ite (.next _) (.ite (.next _) (.ite (.next _) (.next _))))
  | swapCmd => exact .next _
  | connectionMemoryWrite => exact .next _
  | pairCfgWrite => exact .next _
  | apsClear => exact .next _
  | apsLockout => exact .next _
  | apsForced => exact .next _
  | apsManualP => exact .next _
  | apsManualW => exact .next _
  | apsCmdUnknown => exact .ite (.next _) (.next _)
  | holdoffExpiry => exact .ite (.next _) (.next _)
  | wtrExpiry => exact .ite (.next _) (.next _)
  | sensorDetection => exact .ite (.next _) (.ite (.next _) (.next _))
  | sensorWindowClose => exact .next _
  | sensorTripClear => exact .ite (.next _) (.next _)
  | sensorCfgWrite => exact .next _
  | rootRefresh => exact .next _
  | reserveTest => exact .ite (.next _) (.next _)
  | hdgLogIndexWrite => exact .next _
  | perstRelease => exact .next _
  | overvoltageRelease => exact .ite (.next _) (.ite (.next _) (.next _))
  | cellExhausted => exact .ite (.next _) (.next _)

end Sys2Proof.Machine

open Sys2Proof Sys2Proof.Machine

/-- Settles O7, command by command. -/
theorem noCommandEndsInAFault : Obligations.NoCommandEndsInAFault := by
  unfold Obligations.NoCommandEndsInAFault
  exact exec_answers
end

section
/-! Writes of ARM registers (R571) and of the configuration registers that clamp a field (R8, R12). -/

namespace Sys2Proof.Machine

open Sys2Proof

/-! ## Fields of a word -/

theorem bits_one_eq_flag (w : Word) (k : Nat) : bits w k k = flag (bit w k) := by
  unfold bits bit flag
  rw [← BitVec.testBit_toNat, Nat.testBit_eq_decide_div_mod_eq, Nat.add_sub_cancel_left, pow_one]
  have := Nat.mod_lt (w.toNat / 2 ^ k) (show 0 < 2 by omega)
  split <;> simp_all

theorem flag_inj {a b : Bool} (h : flag a = flag b) : a = b := by
  cases a <;> cases b <;> first | rfl | cases h

theorem FieldRow.write_lt (f : FieldRow) (old val : Word) (lk : Bool) : f.write old val lk < 2 ^ (f.hi + 1 - f.lo) := by
  have ho := bits_lt old f.hi f.lo
  have hv := bits_lt val f.hi f.lo
  unfold FieldRow.write
  split
  · exact ho
  · exact ho
  · exact hv
  · exact hv
  · exact lt_of_le_of_lt (Nat.sub_le _ _) ho
  · exact Nat.or_lt_two_pow ho hv
  · split
    · exact ho
    · exact hv

/-- The fields of a row lie within the word and do not overlap. -/
def FieldsApart (fs : List FieldRow) : Prop :=
  fs.Pairwise (fun f g => f.hi < g.lo ∨ g.hi < f.lo) ∧ ∀ f ∈ fs, f.lo ≤ f.hi ∧ f.hi < 32

theorem bits_foldl_setBits_out (fs : List FieldRow) (v : FieldRow → Nat) (w : Word) (hi lo : Nat) (h : hi < 32)
    (o : ∀ f ∈ fs, hi < f.lo ∨ f.hi < lo) : bits (fs.foldl (fun w f => setBits w f.hi f.lo (v f)) w) hi lo = bits w hi lo := by
  induction fs generalizing w with
  | nil => rfl
  | cons f fs ih =>
    rw [List.foldl_cons, ih _ (fun g hg => o g (List.mem_cons_of_mem _ hg)), bits_setBits_out _ _ _ _ _ _ (o f List.mem_cons_self) h]

/-- After a write each field of a register holds what its access type gives it (R8). -/
theorem bits_mergeWrite {fs : List FieldRow} (ap : FieldsApart fs) {f : FieldRow} (hf : f ∈ fs) (old val : Word) (lk : Bool) :
    bits (mergeWrite fs old val lk) f.hi f.lo = f.write old val lk := by
  obtain ⟨apart, inWord⟩ := ap
  unfold mergeWrite
  generalize (0 : Word) = w
  induction fs generalizing w with
  | nil => cases hf
  | cons g gs ih =>
    obtain ⟨hg, hgs⟩ := List.pairwise_cons.mp apart
    rw [List.foldl_cons]
    rcases List.mem_cons.mp hf with rfl | hf
    · obtain ⟨hle, hlt⟩ := inWord f List.mem_cons_self
      rw [bits_foldl_setBits_out _ _ _ _ _ hlt hg, bits_setBits _ _ _ _ hlt hle (f.write_lt old val lk)]
    · exact ih hf hgs (fun x hx => inWord x (List.mem_cons_of_mem _ hx)) _

theorem bits_clampFld (w : Word) (hi lo a b : Nat) (h : hi < 32) (hl : lo ≤ hi) (hb : b < 2 ^ (hi + 1 - lo)) (hab : a ≤ b) :
    bits (clampFld w hi lo a b) hi lo = clamp a b (bits w hi lo) :=
  bits_setBits _ _ _ _ h hl (clamp_lt _ _ _ _ hb (bits_lt w hi lo) hab)

/-! ## ARM registers (R571) -/

/-- A write of an ARM register that is reached arms its unit exactly when it carries the magic value, and touches no other unit's arm. -/
theorem armWrite_arms {s : State} {p : Path} {off u : Nat} (v magic : Word) (h : s.Reaches p off) (hc : conveyed off = false)
    (hu : off / 0x100000 = u) :
    (u ∈ (s.armWrite p off v magic.toNat).armed ↔ v = magic) ∧
    (∀ x, x ≠ u → (x ∈ (s.armWrite p off v magic.toNat).armed ↔ x ∈ s.armed)) ∧
    s.armWrite p off v magic.toNat = { s with armed := (s.armWrite p off v magic.toNat).armed } := by
  subst hu
  unfold State.armWrite
  rw [hostWrite_of_reaches _ _ h hc]
  split
  · next hv =>
    refine ⟨iff_of_true List.mem_cons_self (BitVec.eq_of_toNat_eq hv), fun x hx => ?_, rfl⟩
    simp [State.disarm, hx]
  · next hv =>
    refine ⟨iff_of_false (by simp [State.disarm]) (fun e => hv (congrArg _ e)), fun x hx => ?_, rfl⟩
    simp [State.disarm, hx]

/-! ## Clamped configuration registers -/

/-- The row r at off is a register that no allotment has a copy of and that has no effect of its own: a write only clamps a field. Each item
is read off the map and the write's definitions by evaluation. -/
structure ClampedRow (off hi lo a b : Nat) (r : RegRow) : Prop where
  addr : (BitVec.ofNat 25 off).toNat = off := by rfl
  aligned : off % 4 = 0 := by rfl
  row : regRowAt off = some r := by rfl
  base : r.base = off := by rfl
  shared : r.priv = false := by rfl
  plain : isCommandReg r.base = false := by rfl
  kept : conveyed off = false := by rfl
  own : ∀ (t : State) v, t.ownEffect 0 r.base (off - r.base) off v = none := by intros; rfl
  inBounds : ∀ (t : State) v, t.outOfBounds off (r.index off) v = false := by intros; rfl
  taken : ∀ (t : State) v, t.writeIgnored 0 off (r.index off) v = some v := by intros; rfl
  noSkew : off ≠ Reg.yokCfg := by decide
  unshaped : shapedBy off (r.index off) = none := by rfl
  noAfter : ∀ (t : State) o n, t.afterWrite 0 off o n = t := by intros; rfl
  apart : FieldsApart r.fields := by unfold FieldsApart; decide
  clamps : ∀ w, regClamp off w = clampFld w hi lo a b := by intros; rfl
  within : hi < 31 ∧ lo ≤ hi ∧ b < 2 ^ (hi + 1 - lo) ∧ a ≤ b := by decide
  quiet : off ≠ Reg.stwAlert ∧ off ≠ Reg.logLost := by decide

theorem mgdHarrowCfg_clamped :
    ClampedRow Reg.mgdHarrowCfg 7 0 1 168 ⟨0x0070000C, [], false, 0x80000018, [⟨31, 31, .rw⟩, ⟨7, 0, .rw⟩]⟩ := {}

theorem logFreezeMs_clamped : ClampedRow Reg.logFreezeMs 15 0 1 10000 ⟨0x00E00014, [], false, 0x3E8, [⟨15, 0, .rw⟩]⟩ := {}

theorem hifDrainCfg_clamped : ClampedRow Reg.hifDrainCfg 15 0 1 1000 ⟨0x00200018, [], false, 0xA, [⟨15, 0, .rw⟩]⟩ := {}

theorem lnfSheafCfg_clamped :
    ClampedRow Reg.lnfSheafCfg 4 0 20 28 ⟨0x00300010, [], false, 0x18, [⟨31, 31, .w1s⟩, ⟨4, 0, .rwl⟩]⟩ := {}

theorem ascPnCfg_clamped :
    ClampedRow Reg.ascPnCfg 4 0 16 24 ⟨0x00800004, [], false, 0x14, [⟨31, 31, .w1s⟩, ⟨4, 0, .rwl⟩]⟩ := {}

theorem logCfg_clamped :
    ClampedRow Reg.logCfg 15 0 1 10000
      ⟨0x00E00004, [], false, 0x40000064, [⟨31, 31, .w1s⟩, ⟨30, 30, .rwl⟩, ⟨26, 24, .rwl⟩, ⟨15, 0, .rwl⟩]⟩ := {}

section

variable {s : State} {off hi lo a b : Nat} {r : RegRow}

/-- Whether the LOCK bit of a register's block is set (R12). -/
def State.lockSet (s : State) (off : Nat) : Bool :=
  match lockRegOf (off / 0x100000) with | some l => s.flg l 31 | none => false

namespace ClampedRow

/-- What a write of such a register does, the Ledger told first where it meets the LOCK bit. -/
theorem write_eq (c : ClampedRow off hi lo a b r) (v : Word) (h : s.Reaches .device off) {t : State}
    (ht : (if lockHit r.fields (s.lockSet off) then (s.disarm (off / 0x100000)).lockIgnored off else s.disarm (off / 0x100000)) = t) :
    exec (.registerWrite .device (BitVec.ofNat 25 off) 4 v) s =
      .next (t.wr off (regClamp off (mergeWrite r.fields (t.rd off) v (s.lockSet off)))) := by
  rw [regWrite_eq s v off r c.addr c.aligned c.row c.shared c.plain c.kept (fun t => c.own t v) h,
    plain_eq (s.disarm (off / 0x100000)) v off r c.base c.shared (r.index off) (fun t => c.inBounds t v) (fun t => c.taken t v) c.noSkew
      c.unshaped c.noAfter (s.lockSet off) rfl, ht]

/-- A write that meets no LOCK bit. -/
theorem write_unlocked (c : ClampedRow off hi lo a b r) (v : Word) (h : s.Reaches .device off)
    (hl : lockHit r.fields (s.lockSet off) = false) :
    exec (.registerWrite .device (BitVec.ofNat 25 off) 4 v) s =
      .next ((s.disarm (off / 0x100000)).wr off (regClamp off (mergeWrite r.fields (s.rd off) v (s.lockSet off)))) :=
  c.write_eq v h (by rw [hl]; rfl)

/-- A write that meets the LOCK bit: the event moves no register that the write reads. -/
theorem write_locked (c : ClampedRow off hi lo a b r) (v : Word) (h : s.Reaches .device off)
    (hl : lockHit r.fields (s.lockSet off) = true) :
    exec (.registerWrite .device (BitVec.ofNat 25 off) 4 v) s =
      .next (((s.disarm (off / 0x100000)).lockIgnored off).wr off
        (regClamp off (mergeWrite r.fields (s.rd off) v (s.lockSet off)))) := by
  have hrd : ((s.disarm (off / 0x100000)).lockIgnored off).rd off = s.rd off := note_rd _ _ _ _ c.quiet.1 c.quiet.2
  rw [c.write_eq v h (if_pos hl), hrd]

/-- The clamped field of the word that is kept. -/
theorem bits_kept (c : ClampedRow off hi lo a b r) {acc : Access} (hf : ⟨hi, lo, acc⟩ ∈ r.fields) (old v : Word) (lk : Bool) :
    bits (regClamp off (mergeWrite r.fields old v lk)) hi lo = clamp a b (FieldRow.write ⟨hi, lo, acc⟩ old v lk) := by
  obtain ⟨hhi, hlo, hb, hab⟩ := c.within
  rw [c.clamps, bits_clampFld _ _ _ _ _ (by omega) hlo hb hab]
  exact congrArg _ (bits_mergeWrite c.apart hf old v lk)

/-- A W1S bit 31 beside the clamped field: set once written 1. -/
theorem bit_kept (c : ClampedRow off hi lo a b r) (hf : ⟨31, 31, .w1s⟩ ∈ r.fields) (old v : Word) (lk : Bool) :
    bit (regClamp off (mergeWrite r.fields old v lk)) 31 = (bit old 31 || bit v 31) := by
  obtain ⟨hhi, -, -, -⟩ := c.within
  rw [c.clamps, clampFld, bit_setBits_out _ _ _ _ _ (.inl hhi) (by decide)]
  apply flag_inj
  rw [← bits_one_eq_flag, bits_mergeWrite c.apart hf old v lk]
  show bits old 31 31 ||| bits v 31 31 = _
  rw [bits_one_eq_flag, bits_one_eq_flag]
  cases bit old 31 <;> cases bit v 31 <;> rfl

/-- An RW field is taken, clamped, whatever the block's LOCK bit says. -/
theorem takes (c : ClampedRow off hi lo a b r) (hf : ⟨hi, lo, .rw⟩ ∈ r.fields) (hl : ∀ lk, lockHit r.fields lk = false) (v : Word)
    (h : s.Reaches .device off) :
    ∃ t, exec (.registerWrite .device (BitVec.ofNat 25 off) 4 v) s = .next t ∧ t.fld off hi lo = clamp a b (bits v hi lo) ∧
      (∀ k, k ≠ off → t.rd k = s.rd k) ∧ t = { s with regs := t.regs, armed := t.armed } := by
  refine ⟨_, c.write_unlocked v h (hl _), ?_, fun k hk => rd_wr_ne _ _ _ _ hk, rfl⟩
  rw [State.fld, rd_wr_self, c.bits_kept hf]
  rfl

/-- An RWL field is taken, clamped, while the register's own LOCK bit is 0. -/
theorem takes_unlocked (c : ClampedRow off hi lo a b r) (hf : ⟨hi, lo, .rwl⟩ ∈ r.fields) (hb : ⟨31, 31, .w1s⟩ ∈ r.fields)
    (hr : lockRegOf (off / 0x100000) = some off) (v : Word) (h : s.Reaches .device off) (hl : s.flg off 31 = false) :
    ∃ t, exec (.registerWrite .device (BitVec.ofNat 25 off) 4 v) s = .next t ∧
      t.fld off hi lo = clamp a b (bits v hi lo) ∧ t.flg off 31 = bit v 31 ∧ (∀ k, k ≠ off → t.rd k = s.rd k) ∧
      t = { s with regs := t.regs, armed := t.armed } := by
  have hs : s.lockSet off = false := by rw [State.lockSet, hr]; exact hl
  refine ⟨_, c.write_unlocked v h (by rw [hs]; rfl), ?_, ?_, fun k hk => rd_wr_ne _ _ _ _ hk, rfl⟩
  · rw [State.fld, rd_wr_self, c.bits_kept hf, hs]
    rfl
  · rw [State.flg, rd_wr_self, c.bit_kept hb]
    rw [State.flg] at hl
    rw [hl, Bool.false_or]

/-- While the register's own LOCK bit is 1 an RWL field keeps its value, and so does the bit; the write is recorded (R12). -/
theorem keeps_locked (c : ClampedRow off hi lo a b r) (hf : ⟨hi, lo, .rwl⟩ ∈ r.fields) (hb : ⟨31, 31, .w1s⟩ ∈ r.fields)
    (hr : lockRegOf (off / 0x100000) = some off) (v : Word) (h : s.Reaches .device off) (hl : s.flg off 31 = true)
    (hc : s.fld off hi lo = clamp a b (s.fld off hi lo)) :
    ∃ t, exec (.registerWrite .device (BitVec.ofNat 25 off) 4 v) s = .next t ∧
      t.fld off hi lo = s.fld off hi lo ∧ t.flg off 31 = true ∧
      t.events Ev.lockWriteIgnored = satAdd (2 ^ 48 - 1) (s.events Ev.lockWriteIgnored) 1 := by
  have hs : s.lockSet off = true := by rw [State.lockSet, hr]; exact hl
  have hit : lockHit r.fields (s.lockSet off) = true := by
    rw [hs, lockHit, Bool.true_and, List.any_eq_true]
    exact ⟨_, hf, rfl⟩
  refine ⟨_, c.write_locked v h hit, ?_, ?_, note_events _ _ _ _ (resp_mode h.2.1) (by decide) (by decide)⟩
  · rw [State.fld, rd_wr_self, c.bits_kept hf, hs]
    exact hc.symm
  · rw [State.flg, rd_wr_self, c.bit_kept hb]
    rw [State.flg] at hl
    rw [hl, Bool.true_or]

end ClampedRow

end

end Sys2Proof.Machine

open Sys2Proof Sys2Proof.Machine

/-- Settles O8: the ARM registers share one lemma, and the six configuration registers the laws of a row that only clamps. -/
theorem armAndConfigurationWrites : Obligations.ArmAndConfigurationWrites := by
  unfold Obligations.ArmAndConfigurationWrites
  refine ⟨fun p v s h => ⟨_, rfl, armWrite_arms v 0x464C4F52#32 h rfl rfl⟩,
    fun p v s h => ⟨_, rfl, armWrite_arms v 0x4B455953#32 h rfl rfl⟩,
    fun p v s h => ⟨_, rfl, armWrite_arms v 0x43414C57#32 h rfl rfl⟩,
    fun p v s h => ⟨_, rfl, armWrite_arms v 0x50524F4D#32 h rfl rfl⟩,
    fun s v off hi lo a b hm h => ?_, fun s v off hi lo a b hm h => ?_⟩
  · simp only [List.mem_cons, Prod.mk.injEq, List.not_mem_nil, or_false] at hm
    obtain ⟨rfl, rfl, rfl, rfl, rfl⟩ | ⟨rfl, rfl, rfl, rfl, rfl⟩ | ⟨rfl, rfl, rfl, rfl, rfl⟩ := hm
    · exact mgdHarrowCfg_clamped.takes (by decide) (by decide) v h
    · exact logFreezeMs_clamped.takes (by decide) (by decide) v h
    · exact hifDrainCfg_clamped.takes (by decide) (by decide) v h
  · simp only [List.mem_cons, Prod.mk.injEq, List.not_mem_nil, or_false] at hm
    obtain ⟨rfl, rfl, rfl, rfl, rfl⟩ | ⟨rfl, rfl, rfl, rfl, rfl⟩ | ⟨rfl, rfl, rfl, rfl, rfl⟩ := hm
    · exact ⟨lnfSheafCfg_clamped.takes_unlocked (by decide) (by decide) rfl v h,
        lnfSheafCfg_clamped.keeps_locked (by decide) (by decide) rfl v h⟩
    · exact ⟨ascPnCfg_clamped.takes_unlocked (by decide) (by decide) rfl v h,
        ascPnCfg_clamped.keeps_locked (by decide) (by decide) rfl v h⟩
    · exact ⟨logCfg_clamped.takes_unlocked (by decide) (by decide) rfl v h,
        logCfg_clamped.keeps_locked (by decide) (by decide) rfl v h⟩
end

section
/-! Reads: what they answer, latch (R7) and clear (R8), and accesses of less than a word (R4). -/

namespace Sys2Proof.Machine

open Sys2Proof

section

/-! ## Setting one key after another -/

variable {β : Type} [DecidableEq β] (d : Nat → β) (key : Nat → Nat) (v : Nat → β)

theorem get_foldl_set_ne (l : List Nat) (m : SMap β) (x : Nat) (h : ∀ k ∈ l, x ≠ key k) :
    SMap.get d (l.foldl (fun m k => SMap.set d m (key k) (v k)) m) x = SMap.get d m x := by
  induction l generalizing m with
  | nil => rfl
  | cons k l ih =>
    rw [List.foldl_cons, ih _ (fun j hj => h j (List.mem_cons_of_mem _ hj)), SMap.get_set_ne _ _ _ _ _ (h k List.mem_cons_self)]

/-- Where different indices have different keys, each key ends with its own value. -/
theorem get_foldl_set_range (inj : Function.Injective key) (n : Nat) (m : SMap β) (k : Nat) (h : k < n) :
    SMap.get d ((List.range n).foldl (fun m k => SMap.set d m (key k) (v k)) m) (key k) = v k := by
  induction n with
  | zero => omega
  | succ n ih =>
    rw [List.range_succ, List.foldl_append, List.foldl_cons, List.foldl_nil, SMap.get_set]
    split
    · next e => rw [inj e]
    · next e => exact ih (lt_of_le_of_ne (Nat.le_of_lt_succ h) (fun e' => e (congrArg key e')))

end

/-! ## Reads (R7, R8) -/

theorem shadowKey_injective (p : Path) (o : Nat) : Function.Injective (fun k => shadowKey p (o + 4 * (k + 1))) := by
  intro j k h
  simp only [shadowKey] at h
  omega

/-- A higher word of a wide value is read from the path's shadow copy. -/
theorem readAt_of_highWord (s : State) (p : Path) {o : Nat} (h : isHighWord o = true) :
    s.readAt p o = (SMap.get zeroWord s.shadow (shadowKey p o), s) := by
  unfold State.readAt
  rw [if_pos h]

/-- The state with the higher words of the wide value at o latched for path p (R7). -/
def State.latched (s : State) (p : Path) (o : Nat) : State :=
  { s with shadow := (List.range (wideAt o - 1)).foldl (fun m k =>
      SMap.set zeroWord m (shadowKey p (o + 4 * (k + 1))) (s.readReg p.allot (o + 4 * (k + 1)))) s.shadow }

theorem get_shadow_latched (s : State) (p : Path) {o k : Nat} (h : k + 1 < wideAt o) :
    SMap.get zeroWord (s.latched p o).shadow (shadowKey p (o + 4 * (k + 1))) = s.readReg p.allot (o + 4 * (k + 1)) :=
  get_foldl_set_range zeroWord (fun k => shadowKey p (o + 4 * (k + 1))) _ (shadowKey_injective p o) _ _ _ (by omega)

theorem get_shadow_latched_ne (s : State) (p : Path) {o x : Nat} (h : ∀ k, k + 1 < wideAt o → x ≠ shadowKey p (o + 4 * (k + 1))) :
    SMap.get zeroWord (s.latched p o).shadow x = SMap.get zeroWord s.shadow x :=
  get_foldl_set_ne zeroWord (fun k => shadowKey p (o + 4 * (k + 1))) _ _ _ _
    (fun k hk => h k (by have := List.mem_range.mp hk; omega))

/-- Where a register's home lies through a path (R511). -/
def RegRow.home (r : RegRow) (p : Path) (o : Nat) : Nat := if r.priv then privKey p.allot o else o

section

variable (s : State) (p : Path) {o : Nat} (h : isHighWord o = false)
include h

/-- A read of any other register of the map answers it as it stands, latches, and clears the RC fields. -/
theorem readAt_of_row {r : RegRow} (hr : regRowAt o = some r) :
    s.readAt p o = (s.readReg p.allot o, if rcMask r.fields = 0 then s.latched p o
      else (s.latched p o).wr (r.home p o) (s.rd (r.home p o) &&& ~~~rcMask r.fields)) := by
  unfold State.readAt
  rw [if_neg (by rw [h]; decide), hr]
  rfl

/-- A read where the map has no register answers and latches. -/
theorem readAt_of_noRow (hr : regRowAt o = none) : s.readAt p o = (s.readReg p.allot o, s.latched p o) := by
  unfold State.readAt
  rw [if_neg (by rw [h]; decide), hr]
  rfl

/-- What a read answers, latches and emits does not depend on whether it clears. -/
theorem readAt_of_lowWord : (s.readAt p o).1 = s.readReg p.allot o ∧ (s.readAt p o).2.shadow = (s.latched p o).shadow ∧
    (s.readAt p o).2.out = s.out := by
  cases hr : regRowAt o with
  | none => rw [readAt_of_noRow s p h hr]; exact ⟨rfl, rfl, rfl⟩
  | some r =>
    rw [readAt_of_row s p h hr]
    dsimp only
    split <;> exact ⟨rfl, rfl, rfl⟩

/-- A read clears the RC fields of the register it reads and no other register (R8). -/
theorem rd_readAt {r : RegRow} (hr : regRowAt o = some r) (k : Nat) :
    (s.readAt p o).2.rd k = if k = r.home p o then s.rd k &&& ~~~rcMask r.fields else s.rd k := by
  rw [readAt_of_row s p h hr]
  dsimp only
  by_cases hk : k = r.home p o
  · rw [if_pos hk, hk]
    split
    · next hm =>
      rw [hm]
      exact BitVec.and_allOnes.symm
    · exact rd_wr_self _ _ _
  · rw [if_neg hk]
    split
    · rfl
    · exact rd_wr_ne _ _ _ _ hk

end


/-- An aligned read of a word that reaches its register answers it. -/
theorem sizedRead_of_readable (s : State) {p : Path} {off o : Nat} (ha : off % 4 = 0) (hr : resolveOff p off = some o)
    (h : s.readable p o = true) : s.sizedRead p off 4 = (s.readAt p o).2.emit (.readValue (s.readAt p o).1) := by
  unfold State.sizedRead State.hostRead
  simp only [ha, hr, h, ne_eq, not_true, or_self, if_false, Bool.true_eq_false]

/-- An access narrower than a word or not aligned is answered by Unsupported Request and does nothing else (R4). -/
theorem sizedRead_of_narrow {s : State} {p : Path} {off size : Nat} (h : size ≠ 4 ∨ off % 4 ≠ 0) :
    s.sizedRead p off size = { s with out := s.out ++ [.unsupported off] } := if_pos h

end Sys2Proof.Machine

open Sys2Proof Sys2Proof.Machine

/-- Settles O9, from what a read that reaches its register answers, latches and clears. -/
theorem readsLatchClearAndNarrow : Obligations.ReadsLatchClearAndNarrow := by
  unfold Obligations.ReadsLatchClearAndNarrow
  refine ⟨fun p off o s ha hr hs => ⟨fun hw => ?_, fun hw => ?_⟩, fun p off o r s ha hr hs hw hrow => ?_, fun p off size v s h => ?_,
    fun p off size s h => ⟨?_, ?_⟩⟩
  · obtain ⟨hv, hsh, hout⟩ := readAt_of_lowWord s p hw
    refine ⟨_, congrArg Host.Outcome.next (sizedRead_of_readable s ha hr hs), ?_, fun k hk => ?_, fun x hx => ?_⟩
    · rw [← hv, ← hout]; rfl
    · exact (congrArg (SMap.get zeroWord · _) hsh).trans (get_shadow_latched s p hk)
    · exact (congrArg (SMap.get zeroWord · _) hsh).trans (get_shadow_latched_ne s p hx)
  · refine congrArg Host.Outcome.next ((sizedRead_of_readable s ha hr hs).trans ?_)
    rw [readAt_of_highWord s p hw]
    rfl
  · obtain ⟨hv, -, hout⟩ := readAt_of_lowWord s p hw
    refine ⟨_, congrArg Host.Outcome.next (sizedRead_of_readable s ha hr hs), ?_, ?_, fun k hk => ?_⟩
    · rw [← hv, ← hout]; rfl
    · exact (rd_readAt s p hw hrow _).trans (if_pos rfl)
    · exact (rd_readAt s p hw hrow _).trans (if_neg hk)
  · exact if_pos h
  · exact congrArg Host.Outcome.next (sizedRead_of_narrow h)
  · exact congrArg Host.Outcome.next (sizedRead_of_narrow h)
end

section
/-! A crossing that times out while a STORE_QUEUE_FULL is still owed (R24, R124): raising it moves the mode of a module in Recovery. -/

namespace Sys2Proof.Machine

open Sys2Proof

/-- The mode of an outcome's next state. -/
def nextMode : Host.Outcome State Fault Refusal → Option Mode
  | .next t => some t.ctl.mode
  | _ => none

/-- A module in Recovery whose store queue has refused a request that is not reported yet; island 3 waits for island 8 to acknowledge. -/
def storeOwedInRecovery : State :=
  { State.reset with
    ctl := { Control.cold with mode := .recovery }
    st := { Stores.idle with refused := true }
    fab := { Fabric.reset 0 with live := [3], inReset := [], cross := [(linkKey 3 8, some ⟨7, true, false, false⟩)] } }

/-- CROSS_TIMEOUT ends with a recheck, which raises the STORE_QUEUE_FULL that is owed; any alarm in Recovery escalates to a module reset
(R114), and that enters Boot. -/
theorem crossTimeout_of_storeOwed_entersBoot :
    nextMode (exec (.crossTimeout 3 8) storeOwedInRecovery) = some .boot := by decide +kernel

end Sys2Proof.Machine

open Sys2Proof Sys2Proof.Machine

/-- Refutes O10: no hypothesis excludes a STORE_QUEUE_FULL that is still owed, and after a CROSS_TIMEOUT in Recovery it takes the module
to Boot, where the statement has the mode unchanged. -/
theorem not_crossingsAndBusCodes : ¬ Obligations.CrossingsAndBusCodes := by
  unfold Obligations.CrossingsAndBusCodes
  rintro ⟨-, -, timesOut, -⟩
  obtain ⟨t, ht, -, -, -, -, -, -, sameMode⟩ :=
    timesOut 3 8 storeOwedInRecovery (by decide) (by decide) (by decide) (by decide) (by decide) (by decide)
  have entersBoot := crossTimeout_of_storeOwed_entersBoot
  rw [ht] at entersBoot
  cases sameMode.symm.trans (Option.some.inj entersBoot)
end

section
/-! Internal cells (R26, R27): what a receiver answers, and what a sender sends again. -/

namespace Sys2Proof.Machine

open Sys2Proof

/-! ## Links -/

theorem ilink_setIlink (s : State) (src dst : Nat) (l : ILink) : (s.setIlink src dst l).ilink src dst = l := by
  rw [State.ilink, State.setIlink, SMap.get_set_self]
  rfl

theorem ilink_emit (s : State) (o : Output) (src dst : Nat) : (s.emit o).ilink src dst = s.ilink src dst := rfl

theorem ILink.sent_expect (l : ILink) (c : ICell) : (l.sent c).expect = l.expect := by
  unfold ILink.sent
  split <;> rfl

theorem ILink.sent_discarding (l : ILink) (c : ICell) : (l.sent c).discarding = l.discarding := by
  unfold ILink.sent
  split <;> rfl

/-- Outputs emitted one after another leave in that order, and nothing else moves. -/
theorem foldl_emit {α : Type} (f : α → Output) (l : List α) (s : State) :
    l.foldl (fun (s : State) a => s.emit (f a)) s = { s with out := s.out ++ l.map f } := by
  induction l generalizing s with
  | nil => rw [List.map_nil, List.append_nil]; rfl
  | cons a l ih =>
    rw [List.foldl_cons, ih, List.map_cons, List.append_cons]
    rfl

/-! ## The receiver (R26) -/

section

variable {src dst : Fin 21} {seq len : Fin 256} {last : Bool} {payload : List Byte} {s : State}

/-- The receiver's link once the sender has sent it the cell. -/
def State.linkSent (s : State) (src dst : Fin 21) (seq len : Fin 256) (last : Bool) (payload : List Byte) : ILink :=
  (s.ilink src dst).sent ⟨seq, src, dst, len, last, slice payload 0 256⟩

variable (hd : s.islandUp dst = true)
include hd

theorem cellReceive_expected (h : seq.val = (s.ilink src dst).expect) :
    exec (.cellReceive src dst seq len last payload true) s =
      .next ((s.setIlink src dst { (s.linkSent src dst seq len last payload).acked seq with
        expect := (seq.val + 1) % 256, discarding := false }).emit (.cellAck src dst seq)) := by
  have he : seq.val = (s.linkSent src dst seq len last payload).expect := h.trans (ILink.sent_expect ..).symm
  exact (if_neg (by rw [hd]; decide)).trans ((if_neg (by decide)).trans (if_pos he))

theorem cellReceive_firstBad (h : (s.ilink src dst).discarding = false) :
    exec (.cellReceive src dst seq len last payload false) s =
      .next ((s.setIlink src dst { s.linkSent src dst seq len last payload with discarding := true }).emit (.cellNak src dst seq)) := by
  have hk : (s.linkSent src dst seq len last payload).discarding = false := (ILink.sent_discarding ..).trans h
  exact (if_neg (by rw [hd]; decide)).trans ((if_pos rfl).trans (if_neg (fun ⟨g, _⟩ => Bool.false_ne_true (hk.symm.trans g))))

theorem cellReceive_outOfOrder (h : seq.val ≠ (s.ilink src dst).expect) :
    exec (.cellReceive src dst seq len last payload true) s =
      .next (s.setIlink src dst (s.linkSent src dst seq len last payload)) := by
  have he : seq.val ≠ (s.linkSent src dst seq len last payload).expect := fun e => h (e.trans (ILink.sent_expect ..))
  exact (if_neg (by rw [hd]; decide)).trans ((if_neg (by decide)).trans (if_neg he))

end

/-! ## The sender (R26, R27) -/

/-- The cells a sender sends again after a negative acknowledge: the one that failed and every later one. -/
def ILink.again (l : ILink) (seq : Nat) : List ICell := l.unacked.dropWhile (fun c => c.seq != seq)

/-- The link after a negative acknowledge: the cells before the failed one have arrived; failures in a row of the first unacknowledged
cell are counted. -/
def ILink.afterNak (l : ILink) (seq : Nat) : ILink :=
  { l with unacked := l.again seq, fails := if (l.again seq).length = l.unacked.length then l.fails + 1 else 1 }

theorem ILink.afterNak_fails_lt (l : ILink) (seq : Nat) (h : l.fails < 3) : (l.afterNak seq).fails < 4 := by
  unfold ILink.afterNak
  dsimp only
  split <;> omega

theorem cellNakReceived_resends {src dst : Fin 21} {seq : Fin 256} {s : State}
    (hc : ∃ c ∈ (s.ilink src dst).unacked, c.seq = seq.val) (hf : (s.ilink src dst).fails < 3) :
    exec (.cellNakReceived src dst seq) s =
      .next (State.wr { s.setIlink src dst ((s.ilink src dst).afterNak seq) with
          out := s.out ++ ((s.ilink src dst).again seq).map .cellSent } Reg.cellResends
        (sat32 ((s.rd Reg.cellResends).toNat + ((s.ilink src dst).again seq).length))) := by
  obtain ⟨c, hm, hs⟩ := hc
  have outstanding : (s.ilink src dst).unacked.any (fun c => c.seq == seq.val) = true :=
    List.any_eq_true.mpr ⟨c, hm, beq_iff_eq.mpr hs⟩
  refine (if_neg (by rw [outstanding]; decide)).trans
    ((if_neg (Nat.not_le.mpr ((s.ilink src dst).afterNak_fails_lt seq hf))).trans ?_)
  rw [foldl_emit]
  rfl

end Sys2Proof.Machine

open Sys2Proof Sys2Proof.Machine

/-- Settles O11, from the receiver's three answers and the sender's resending. -/
theorem internalLinksDeliverInOrder : Obligations.InternalLinksDeliverInOrder := by
  unfold Obligations.InternalLinksDeliverInOrder
  refine ⟨fun src dst seq len last payload s hd => ⟨fun h => ?_, fun h => ?_, fun h => ?_⟩, fun src dst seq s hc hf => ?_⟩
  · refine ⟨_, cellReceive_expected hd h, rfl, ?_⟩
    rw [ilink_emit, ilink_setIlink]
    exact ⟨rfl, rfl⟩
  · refine ⟨_, cellReceive_firstBad hd h, rfl, ?_⟩
    rw [ilink_emit, ilink_setIlink]
    exact ⟨ILink.sent_expect .., rfl⟩
  · refine ⟨_, cellReceive_outOfOrder hd h, rfl, ?_⟩
    rw [ilink_setIlink]
    exact ⟨ILink.sent_expect .., ILink.sent_discarding ..⟩
  · refine ⟨_, cellNakReceived_resends hc hf, rfl, rd_wr_self .., fun k hk => rd_wr_ne _ _ _ _ hk, ?_⟩
    exact congrArg ILink.unacked (ilink_setIlink s src dst ((s.ilink src dst).afterNak seq))
end

section
/-! A die thermal shutdown that meets a STORE_QUEUE_FULL still owed (R35, R113, R124): it begins with the yield of a lead, which reports what
the store queue has refused before the power-fail sequence holds off the mode consequences of alarms. -/

namespace Sys2Proof.Machine

open Sys2Proof

/-- An alarm in Recovery escalates to a module reset (R114), and that enters Boot; the sequence then goes on from there. -/
theorem dieThermalShutdown_of_storeOwed_entersBoot :
    nextMode (exec .dieThermalShutdown storeOwedInRecovery) = some .boot := by decide +kernel

end Sys2Proof.Machine

open Sys2Proof Sys2Proof.Machine

/-- Refutes O12: no hypothesis excludes a STORE_QUEUE_FULL that is still owed, and a DIE_THERMAL_SHUTDOWN in Recovery then takes the module
to Boot, where the statement has the mode unchanged. -/
theorem not_powerFailSequence : ¬ Obligations.PowerFailSequence := by
  unfold Obligations.PowerFailSequence
  rintro ⟨starts, -⟩
  obtain ⟨-, ⟨t, ht, -, -, -, -, -, sameMode⟩, -⟩ := starts storeOwedInRecovery (by decide) (by decide)
  have entersBoot := dieThermalShutdown_of_storeOwed_entersBoot
  rw [ht] at entersBoot
  cases sameMode.symm.trans (Option.some.inj entersBoot)
end

section
/-! PERST# low with STW_ALERT.MIN_LEVEL at 1 (R39, R58, R530): HIF_LINK_DOWN, an event of level 1, sets PENDING and so asserts ALERT_N. -/

namespace Sys2Proof.Machine

open Sys2Proof

/-- The level of ALERT_N of an outcome's next state. -/
def nextAlertN : Host.Outcome State Fault Refusal → Option Bool
  | .next t => some t.pow.alertN
  | _ => none

/-- A module in Service with its host link up, whose STW_ALERT has MIN_LEVEL 1 and nothing pending. -/
def linkUpAlertingAtLevel1 : State :=
  { State.reset.setFld Reg.stwAlert 2 0 1 with
    ctl := { Control.cold with mode := .service }
    hif := { HostIf.reset with linkUp := true } }

/-- The host link goes down with the Host Interface island, and the event that tells it is at MIN_LEVEL. -/
theorem perstAssert_of_linkUp_assertsAlertN :
    nextAlertN (exec .perstAssert linkUpAlertingAtLevel1) = some true := by decide +kernel

end Sys2Proof.Machine

open Sys2Proof Sys2Proof.Machine

/-- Refutes O13: the link that PERST# takes down is recorded, and the record asserts ALERT_N, where the statement has only the pin PERST#
changed among the supplies. -/
theorem not_perstAndPowerRise : ¬ Obligations.PerstAndPowerRise := by
  unfold Obligations.PerstAndPowerRise
  rintro ⟨asserts, -⟩
  obtain ⟨t, ht, onlyPerst, -⟩ := asserts linkUpAlertingAtLevel1
  have alerts := perstAssert_of_linkUp_assertsAlertN
  rw [ht] at alerts
  cases (congrArg Power.alertN onlyPerst).symm.trans (Option.some.inj alerts)
end

section
/-! The gates and results of image commands (R88 to R93, R571): what a write of STW_IMAGE_CMD comes to, case by case. -/

namespace Sys2Proof.Machine

open Sys2Proof

/-! ## Results -/

theorem imageEnd_ended (s : State) {code : Nat} (h : code < 256) : (s.imageEnd code 0 0).Ended Reg.stwImageResult code := by
  unfold State.imageEnd State.Ended
  dsimp only
  rw [rd_wr_self]
  constructor
  · unfold bits
    rw [BitVec.toNat_ofNat]
    omega
  · unfold bit
    rw [← BitVec.testBit_toNat, BitVec.toNat_ofNat, Nat.testBit_eq_decide_div_mod_eq, decide_eq_true_eq]
    omega

/-- Where no job runs, the end of an image command writes its result and nothing else. -/
theorem imageEnd_of_free {s : State} (code detail device : Nat) (free : s.boot.job = none) :
    s.imageEnd code detail device =
      s.wr Reg.stwImageResult (BitVec.ofNat 32 (device * 2 ^ 31 + detail * 2 ^ 20 + 2 ^ 16 + code)) := by
  have same : { s.boot with job := none } = s.boot := by rw [← free]
  unfold State.imageEnd
  rw [same]

/-! ## Gates -/

/-- What a reached write of STW_IMAGE_CMD does: it clears the arm and runs the command. -/
theorem imageWrite_of_reaches {s : State} {p : Path} (op slot arg : Nat) (act : State → State) (h : s.Reaches p Reg.stwImageCmd) :
    s.imageWrite p op slot arg act = (s.disarm 1).imageRun op slot (s.isArmed 1) act := by
  unfold State.imageWrite
  exact hostWrite_of_reaches _ _ h rfl

section

variable {s : State} {op slot : Nat} {armed : Bool} {act : State → State}

theorem imageRun_of_busy (busy : s.boot.job.isSome = true) : s.imageRun op slot armed act = s.note Ev.imageCmdRefused := if_pos busy

variable (free : s.boot.job = none)
include free

theorem imageRun_of_unknown (unknown : 13 ≤ op) : s.imageRun op slot armed act = s.imageEnd 14 0 0 := by
  unfold State.imageRun
  rw [if_neg (by rw [free]; decide), if_pos unknown]

variable (known : op < 13)
include known

theorem imageRun_of_wrongMode (wrong : s.imageModeOk op = false) : s.imageRun op slot armed act = s.imageEnd 4 0 0 := by
  unfold State.imageRun
  rw [if_neg (by rw [free]; decide), if_neg (by omega), if_pos (.inr wrong)]

variable (alive : s.boot.otpLife ≠ .scrapped) (mode : s.imageModeOk op = true)
  (slotKnown : op ∈ [1, 2, 3, 4, 8, 9] → slot ≤ 2) (slotFree : op ∈ [1, 2, 9] → slot ≠ 2 ∧ slot ≠ s.boot.booted)
include alive mode slotKnown slotFree

/-- Past the mode, the slot and the running image only the arm is left. -/
theorem imageRun_eq_ite : s.imageRun op slot armed act = if (op = 10 ∨ op = 11) ∧ armed = false then s.imageEnd 13 0 0 else act s := by
  have inMode : ¬(s.boot.otpLife = .scrapped ∨ s.imageModeOk op = false) := by simp [alive, mode]
  have isSlot : ¬([1, 2, 3, 4, 8, 9].contains op = true ∧ 2 < slot) := fun ⟨h, k⟩ =>
    absurd (slotKnown (List.contains_iff_mem.mp h)) (Nat.not_le.mpr k)
  have isFree : ¬([1, 2, 9].contains op = true ∧ (slot = 2 ∨ slot = s.boot.booted)) := fun ⟨h, k⟩ =>
    k.elim (slotFree (List.contains_iff_mem.mp h)).1 (slotFree (List.contains_iff_mem.mp h)).2
  unfold State.imageRun
  rw [if_neg (by rw [free]; decide), if_neg (by omega), if_neg inMode, if_neg isSlot, if_neg isFree]

theorem imageRun_of_taken (arms : op = 10 ∨ op = 11 → armed = true) : s.imageRun op slot armed act = act s := by
  rw [imageRun_eq_ite free known alive mode slotKnown slotFree, if_neg (fun ⟨h, k⟩ => Bool.false_ne_true (k.symm.trans (arms h)))]

theorem imageRun_of_unarmed (needs : op = 10 ∨ op = 11) (unarmed : armed = false) :
    s.imageRun op slot armed act = s.imageEnd 13 0 0 := by
  rw [imageRun_eq_ite free known alive mode slotKnown slotFree, if_pos ⟨needs, unarmed⟩]

end

/-! ## Commands taken -/

section

variable {s : State} {p : Path} {op slot arg : Nat} {act : State → State} (takes : s.TakesImage p op) (known : op < 13)
  (slotKnown : op ∈ [1, 2, 3, 4, 8, 9] → slot ≤ 2) (slotFree : op ∈ [1, 2, 9] → slot ≠ 2 ∧ slot ≠ s.boot.booted)
include takes known slotKnown slotFree

/-- A command that is taken, whose slot is not in use and which is armed where it has to be, does what it says (R89, R90, R93). -/
theorem imageWrite_of_taken (arms : op = 10 ∨ op = 11 → 1 ∈ s.armed) : s.imageWrite p op slot arg act = act (s.disarm 1) := by
  obtain ⟨reaches, free, alive, mode⟩ := takes
  rw [imageWrite_of_reaches _ _ _ _ reaches]
  exact imageRun_of_taken (s := s.disarm 1) free known alive mode slotKnown slotFree (fun h => List.contains_iff_mem.mpr (arms h))

theorem imageWrite_of_unarmed (needs : op = 10 ∨ op = 11) (unarmed : 1 ∉ s.armed) :
    s.imageWrite p op slot arg act = (s.disarm 1).imageEnd 13 0 0 := by
  obtain ⟨reaches, free, alive, mode⟩ := takes
  rw [imageWrite_of_reaches _ _ _ _ reaches]
  exact imageRun_of_unarmed (s := s.disarm 1) free known alive mode slotKnown slotFree needs
    (Bool.eq_false_iff.mpr (fun h => unarmed (List.contains_iff_mem.mp h)))

end

/-- The same for a command that needs neither a free slot nor an arm. -/
theorem imageWrite_of_unguarded {s : State} {p : Path} {op slot arg : Nat} {act : State → State} (takes : s.TakesImage p op)
    (known : op < 13) (unguarded : op ∉ [1, 2, 9, 10, 11]) (slotKnown : op ∈ [1, 2, 3, 4, 8, 9] → slot ≤ 2) :
    s.imageWrite p op slot arg act = act (s.disarm 1) :=
  imageWrite_of_taken takes known slotKnown (fun h => absurd (List.mem_append_left [10, 11] h) unguarded)
    (fun h => absurd (by rcases h with rfl | rfl <;> decide) unguarded)

theorem imageWrite_of_wrongMode {s : State} {p : Path} {op : Nat} (slot arg : Nat) (act : State → State)
    (reaches : s.Reaches p Reg.stwImageCmd) (free : s.boot.job = none) (known : op < 13) (wrong : s.imageModeOk op = false) :
    s.imageWrite p op slot arg act = (s.disarm 1).imageEnd 4 0 0 := by
  rw [imageWrite_of_reaches _ _ _ _ reaches]
  exact imageRun_of_wrongMode (s := s.disarm 1) free known wrong

/-! ## Commands refused at once -/

/-- While an image command runs a further one is reported and does nothing else (R89). -/
theorem imageWrite_of_busy {s : State} {p : Path} (op slot arg : Nat) (act : State → State) (h : s.Reaches p Reg.stwImageCmd)
    (busy : s.boot.job.isSome = true) : s.imageWrite p op slot arg act = (s.disarm 1).note Ev.imageCmdRefused := by
  rw [imageWrite_of_reaches _ _ _ _ h, imageRun_of_busy (s := s.disarm 1) busy]

/-- Every image command, run while another one is running, comes to the same. -/
theorem exec_imageCommand_of_busy {s : State} {p : Path} (h : s.Reaches p Reg.stwImageCmd) (busy : s.boot.job.isSome = true)
    (k : Fin 16) (n : Fin 4096) (r : Bool) : ∀ c ∈ [Instr.writeOpen p k, .writeChunk p k n, .writeClose p k r, .activate p k, .confirm p,
      .revert p, .reboot p, .copyGolden p k, .imageErase p k, .raiseFloor p n, .revokeAuth p n, .setTrialMax p n, .imageCmdUnknown p 13],
    exec c s = .next ((s.disarm 1).note Ev.imageCmdRefused) := by
  have refused (op slot arg : Nat) (act : State → State) := congrArg (Host.Outcome.next (φ := Fault) (ρ := Refusal))
    (imageWrite_of_busy (p := p) op slot arg act h busy)
  simp only [List.forall_mem_cons]
  exact ⟨refused .., refused .., refused .., refused .., refused .., refused .., refused .., refused .., refused .., refused ..,
    refused .., refused .., refused .., nofun⟩

theorem imageCmdUnknown_ends {s : State} {p : Path} (h : s.Reaches p Reg.stwImageCmd) (free : s.boot.job = none) {op : Fin 16}
    (unknown : 13 ≤ op.val) : exec (.imageCmdUnknown p op) s = .next ((s.disarm 1).imageEnd 14 0 0) := by
  show execImageCmdUnknown p op s = _
  unfold execImageCmdUnknown
  rw [if_neg (by omega), if_neg (by omega), imageWrite_of_reaches _ _ _ _ h, imageRun_of_unknown (s := s.disarm 1) free unknown]

theorem imageCmdNone_disarms {s : State} {p : Path} (h : s.Reaches p Reg.stwImageCmd) :
    exec (.imageCmdUnknown p 0) s = .next (s.disarm 1) := congrArg Host.Outcome.next (hostWrite_of_reaches 0 id h rfl)

/-- A plain write of STW_IMAGE_CMD clears the arm; what it commands is a row of its own. -/
theorem registerWrite_imageCmd_disarms {s : State} {p : Path} (h : s.Reaches p Reg.stwImageCmd) (v : Word) :
    exec (.registerWrite p (BitVec.ofNat 25 Reg.stwImageCmd) 4 v) s = .next (s.disarm 1) := by
  have through : resolveOff p Reg.stwImageCmd = some Reg.stwImageCmd := by
    obtain ⟨rfl | ⟨rfl, -⟩, -, -⟩ := h <;> rfl
  have write : s.writeReg (.registerWrite p (BitVec.ofNat 25 Reg.stwImageCmd) 4 v) p Reg.stwImageCmd v =
      s.hostWrite p Reg.stwImageCmd v (fun s => s.regEffect 0 Reg.stwImageCmd v) := by
    unfold State.writeReg
    rw [through]
    rfl
  exact congrArg Host.Outcome.next (write.trans (hostWrite_of_reaches _ _ h rfl))

end Sys2Proof.Machine

open Sys2Proof Sys2Proof.Machine

/-- Settles O15: a command that finds another one running is only reported, an undefined one ends, and OP 0 clears the arm. -/
theorem imageCommandsRunOneAtATime : Obligations.ImageCommandsRunOneAtATime := by
  unfold Obligations.ImageCommandsRunOneAtATime
  refine fun p s h => ⟨fun busy k n r c hc => ?_, fun free op unknown => ?_, ?_, fun v _ => ?_⟩
  · refine ⟨_, exec_imageCommand_of_busy h busy k n r c hc, (State.note_touches ..).boot (by decide), (State.note_touches ..).st (by decide),
      (State.note_touches ..).ctl (by decide), ?_, ?_⟩
    · exact note_rd _ _ _ _ (by decide) (by decide)
    · exact note_events _ _ _ _ (resp_mode h.2.1) (by decide) (by decide)
  · have ends := imageEnd_of_free (s := s.disarm 1) 14 0 0 free
    refine ⟨_, imageCmdUnknown_ends h free unknown, imageEnd_ended _ (by decide), ?_, fun x hx => ?_⟩
    · rw [ends]; rfl
    · rw [ends]; exact rd_wr_ne _ _ _ _ hx
  · exact ⟨_, imageCmdNone_disarms h, rfl⟩
  · exact ⟨_, registerWrite_imageCmd_disarms h v, rfl⟩
end

section
/-! Store requests (R121, R124): what starting stores leaves of the queue. A NOR store that is not the first of its port stays last in the
queue, so that a slot-state record just requested is the one in force. -/

namespace Sys2Proof.Machine

open Sys2Proof

/-! ## The queue -/

/-- Class and content of the requests in the queue; the mark of a deferral is left out. -/
def State.waiting (s : State) : List (StoreClass × Payload) := s.st.queue.map (fun r => (r.cls, r.pay))

theorem markDeferred_map (r : StoreReq) (q : List StoreReq) :
    (markDeferred r q).map (fun r => (r.cls, r.pay)) = q.map (fun r => (r.cls, r.pay)) := by
  induction q with
  | nil => rfl
  | cons x xs ih =>
    unfold markDeferred
    split
    · next h => subst h; rfl
    · rw [List.map_cons, ih, List.map_cons]

theorem takeRank_rank {k : Nat} {q rest : List StoreReq} {r : StoreReq} (h : takeRank k q = some (r, rest)) : r.cls.rank = k := by
  induction q generalizing rest with
  | nil => cases h
  | cons x xs ih =>
    unfold takeRank at h
    split at h
    · next hx => cases h; exact hx
    · obtain ⟨⟨y, ys⟩, hy, e⟩ := Option.map_eq_some_iff.mp h
      cases e
      exact ih hy

theorem takeRank_length {k : Nat} {q rest : List StoreReq} {r : StoreReq} (h : takeRank k q = some (r, rest)) :
    rest.length + 1 = q.length := by
  induction q generalizing rest with
  | nil => cases h
  | cons x xs ih =>
    unfold takeRank at h
    split at h
    · cases h; rfl
    · obtain ⟨⟨y, ys⟩, hy, e⟩ := Option.map_eq_some_iff.mp h
      cases e
      exact congrArg (· + 1) (ih hy)

/-- A list that holds a store of a rank gives it, whatever follows the list. -/
theorem takeRank_append {k : Nat} {a : List StoreReq} (b : List StoreReq) (h : ∃ y ∈ a, y.cls.rank = k) :
    ∃ r rest, takeRank k (a ++ b) = some (r, rest ++ b) := by
  induction a with
  | nil => obtain ⟨y, hy, -⟩ := h; cases hy
  | cons x xs ih =>
    rw [List.cons_append, takeRank]
    split
    · exact ⟨x, xs, rfl⟩
    · next hx =>
      obtain ⟨y, hy, hk⟩ := h
      have later : y ∈ xs := (List.mem_cons.mp hy).resolve_left (fun e => hx (e ▸ hk))
      obtain ⟨r, rest, e⟩ := ih ⟨y, later, hk⟩
      exact ⟨r, x :: rest, by rw [e]; rfl⟩

theorem takeMram_class {q rest : List StoreReq} {r : StoreReq} (h : takeMram q = some (r, rest)) : r.cls ≠ .nor := by
  induction q generalizing rest with
  | nil => cases h
  | cons x xs ih =>
    unfold takeMram at h
    split at h
    · obtain ⟨⟨y, ys⟩, hy, e⟩ := Option.map_eq_some_iff.mp h
      cases e
      exact ih hy
    · next hx => cases h; exact hx

theorem StoreClass.rank_nor_iff (c : StoreClass) : c.rank = 7 ↔ c = .nor := by cases c <;> decide

theorem nextMram_class {s : State} {r : StoreReq} {rest : List StoreReq} (h : s.nextMram = some (r, rest)) : r.cls ≠ .nor := by
  unfold State.nextMram at h
  split at h
  · next x hx =>
    cases h
    intro e
    have := takeRank_rank hx
    rw [e] at this
    cases this
  · exact takeMram_class h

theorem byClass_class {q : List StoreReq} {r : StoreReq} (h : r ∈ byClass q) : r.cls ≠ .nor := by
  obtain ⟨k, hk, hr⟩ := List.mem_flatMap.mp h
  have hlt := List.mem_range.mp hk
  have he := beq_iff_eq.mp (List.mem_filter.mp hr).2
  intro e
  have := (StoreClass.rank_nor_iff _).mpr e
  omega

/-! ## Starting stores -/

/-- A NOR store runs or waits. -/
def State.norWaits (s : State) : Prop := s.st.nor.isSome = true ∨ ∃ p, (StoreClass.nor, p) ∈ s.waiting

/-- A NOR store of p is last in the queue, and another NOR store runs or waits before it. -/
def State.norLast (s : State) (p : Payload) : Prop :=
  ∃ q, s.waiting = q ++ [(StoreClass.nor, p)] ∧ (s.st.nor.isSome = true ∨ ∃ p', (StoreClass.nor, p') ∈ q)

/-- From s to t only STORE_DEFERRED has been recorded, and what recording gives rise to. -/
def OnlyDefers (s t : State) : Prop :=
  ∀ k : EvKind, k.code ≠ Ev.storeDeferred.code → k.code ≠ Ev.eventRingOverflow.code → k.code ≠ Ev.logStageLost.code →
    s.ctl.mode ≠ .sentry → t.events k = s.events k

theorem OnlyDefers.trans {s t u : State} (h : OnlyDefers s t) (ctl : t.ctl = s.ctl) (k : OnlyDefers t u) : OnlyDefers s u :=
  fun e h1 h2 h3 awake => (k e h1 h2 h3 (by rw [ctl]; exact awake)).trans (h e h1 h2 h3 awake)

theorem OnlyDefers.of_led {s t : State} (led : t.led = s.led) : OnlyDefers s t := fun k _ _ _ _ => events_of_led led k

/-- From s to t stores have started or been deferred: no request has joined, the NOR port has taken at most the first NOR store, and only
STORE_DEFERRED has been recorded. -/
structure StoresStarted (s t : State) : Prop where
  ctl : t.ctl = s.ctl
  shorter : t.st.queue.length ≤ s.st.queue.length
  waits : s.norWaits → t.norWaits
  last : ∀ p, s.norLast p → t.norLast p
  counts : OnlyDefers s t

namespace StoresStarted

theorem refl (s : State) : StoresStarted s s := ⟨rfl, le_refl _, id, fun _ => id, .of_led rfl⟩

theorem trans {s t u : State} (h : StoresStarted s t) (k : StoresStarted t u) : StoresStarted s u where
  ctl := k.ctl.trans h.ctl
  shorter := k.shorter.trans h.shorter
  waits := k.waits ∘ h.waits
  last := fun p => k.last p ∘ h.last p
  counts := h.counts.trans h.ctl k.counts

end StoresStarted

theorem State.defer_started (s : State) (r : StoreReq) : StoresStarted s (s.defer r) := by
  unfold State.defer
  split
  · exact .refl s
  · extract_lets queued marked counted
    have st : (counted.note Ev.storeDeferred).st = marked.st := (State.note_touches ..).st (by decide)
    have waiting : (counted.note Ev.storeDeferred).waiting = s.waiting := by
      unfold State.waiting
      rw [st]
      exact markDeferred_map r s.st.queue
    have nor : (counted.note Ev.storeDeferred).st.nor = s.st.nor := by rw [st]
    refine ⟨(State.note_touches ..).ctl (by decide), ?_, ?_, fun p => ?_, fun k h1 h2 h3 awake => ?_⟩
    · have := congrArg List.length waiting
      simpa only [State.waiting, List.length_map] using this.le
    · unfold State.norWaits
      rw [nor, waiting]
      exact id
    · unfold State.norLast
      rw [nor, waiting]
      exact id
    · rw [note_events counted _ _ _ awake h2 h3, if_neg h1]
      rfl

/-- A store of the MRAM port leaves the queue: the NOR stores stay, and the last of the queue with them. -/
theorem State.takeForMram_started (s : State) {r : StoreReq} (h : r.cls ≠ .nor) :
    StoresStarted s { s with st := { s.st with mram := some r, queue := s.st.queue.erase r } } := by
  have other {y : StoreReq} (hy : y.cls = .nor) : y ≠ r := fun e => h (e ▸ hy)
  have stays {q : List StoreReq} {p : Payload} (hp : (StoreClass.nor, p) ∈ q.map (fun r => (r.cls, r.pay))) :
      (StoreClass.nor, p) ∈ (q.erase r).map (fun r => (r.cls, r.pay)) := by
    obtain ⟨y, hy, e⟩ := List.mem_map.mp hp
    exact List.mem_map.mpr ⟨y, (List.mem_erase_of_ne (other (congrArg Prod.fst e))).mpr hy, e⟩
  refine ⟨rfl, List.length_erase_le, Or.imp id (fun ⟨p, hp⟩ => ⟨p, stays hp⟩), fun p ⟨q, hq, before⟩ => ?_, .of_led rfl⟩
  obtain ⟨a, b, hab, rfl, hb⟩ := List.map_eq_append_iff.mp hq
  obtain ⟨x, rfl, hx⟩ := List.map_eq_singleton_iff.mp hb
  have erased : (s.st.queue.erase r) = a.erase r ++ [x] := by
    rw [hab, List.erase_append]
    split
    · rfl
    · next hr => rw [List.erase_of_not_mem hr, List.erase_of_not_mem (by simpa using (other (congrArg Prod.fst hx)).symm)]
  refine ⟨(a.erase r).map (fun r => (r.cls, r.pay)), ?_, before.imp id (fun ⟨p', hp⟩ => ⟨p', stays hp⟩)⟩
  show (s.st.queue.erase r).map _ = _
  rw [erased, List.map_append, ← hx]
  rfl

theorem State.tryMram_started (s : State) {r : StoreReq} (h : r.cls ≠ .nor) : StoresStarted s (s.tryMram r) := by
  unfold State.tryMram
  split
  · exact .refl s
  · split
    · exact s.takeForMram_started h
    · exact s.defer_started r

theorem foldl_tryMram_started (q : List StoreReq) (s : State) (h : ∀ r ∈ q, r.cls ≠ .nor) : StoresStarted s (q.foldl State.tryMram s) := by
  induction q generalizing s with
  | nil => exact .refl s
  | cons r q ih =>
    exact (s.tryMram_started (h r List.mem_cons_self)).trans (ih _ (fun x hx => h x (List.mem_cons_of_mem _ hx)))

theorem State.startMram_started (s : State) : StoresStarted s s.startMram := by
  unfold State.startMram
  split
  · exact .refl s
  split
  · refine foldl_tryMram_started _ s (fun r hr => ?_)
    split at hr
    · exact byClass_class (List.mem_of_mem_take hr)
    · exact byClass_class hr
  · split
    · exact .refl s
    · next r _ hr => exact s.tryMram_started (nextMram_class hr)

/-- The first NOR store starts: another that is last in the queue behind it stays there. -/
theorem State.takeForNor_started (s : State) {r : StoreReq} {rest : List StoreReq} (idle : s.st.nor = none)
    (h : takeRank 7 s.st.queue = some (r, rest)) : StoresStarted s { s with st := { s.st with nor := some r, queue := rest } } := by
  refine ⟨rfl, by have := takeRank_length h; show rest.length ≤ _; omega, fun _ => .inl rfl, fun p ⟨q, hq, before⟩ => ?_,
    .of_led rfl⟩
  obtain ⟨p', hp⟩ := before.resolve_left (by rw [idle]; decide)
  obtain ⟨a, b, hab, rfl, hb⟩ := List.map_eq_append_iff.mp hq
  obtain ⟨y, hy, e⟩ := List.mem_map.mp hp
  obtain ⟨r', a', taken⟩ := takeRank_append b ⟨y, hy, (StoreClass.rank_nor_iff _).mpr (congrArg Prod.fst e)⟩
  rw [hab, taken] at h
  cases h
  refine ⟨a'.map (fun r => (r.cls, r.pay)), ?_, .inl rfl⟩
  show (a' ++ b).map _ = _
  rw [List.map_append, hb]

theorem State.startNor_started (s : State) : StoresStarted s s.startNor := by
  unfold State.startNor
  split
  · exact .refl s
  · next idle =>
    split
    · exact .refl s
    · next r rest hr =>
      have first : takeRank 7 s.st.queue = some (r, rest) := by
        unfold State.nextNor at hr
        split at hr
        · cases hr
        · exact hr
      split
      · exact s.takeForNor_started idle first
      · exact s.defer_started r

theorem State.startStores_started (s : State) : StoresStarted s s.startStores := s.startMram_started.trans (State.startNor_started _)

/-! ## Requesting NOR stores -/

/-- The request joins the queue. -/
def State.joined (s : State) (r : StoreReq) : State := { s with st := { s.st with queue := s.st.queue ++ [r] } }

theorem pushStore_of_room {s : State} (r : StoreReq) (room : s.st.queue.length < storeCap) : (s.pushStore r).1 = (s.joined r).startStores := by
  unfold State.pushStore
  rw [if_neg (Nat.not_le.mpr room)]
  rfl

theorem joined_waiting (s : State) (r : StoreReq) : (s.joined r).waiting = s.waiting ++ [(r.cls, r.pay)] := List.map_append ..

/-- NOR stores requested one after another in a queue with room for all of them: the last stays last in the queue. -/
theorem foldl_pushStore (rs : List StoreReq) (r : StoreReq) (s : State) (nor : ∀ x ∈ rs ++ [r], x.cls = .nor)
    (before : rs ≠ [] ∨ s.norWaits) (room : s.st.queue.length + (rs ++ [r]).length ≤ storeCap) :
    ((rs ++ [r]).foldl (fun s r => (s.pushStore r).1) s).norLast r.pay ∧
      OnlyDefers s ((rs ++ [r]).foldl (fun s r => (s.pushStore r).1) s) := by
  induction rs generalizing s with
  | nil =>
    have waits := before.resolve_left (fun h => h rfl)
    have started := (s.joined r).startStores_started
    have isNor : r.cls = .nor := nor r List.mem_cons_self
    dsimp only [List.nil_append, List.foldl_cons, List.foldl_nil]
    rw [pushStore_of_room r (Nat.lt_of_succ_le room)]
    refine ⟨started.last _ ⟨s.waiting, ?_, waits⟩, started.counts⟩
    rw [joined_waiting, isNor]
  | cons x xs ih =>
    have started := (s.joined x).startStores_started
    have isNor : x.cls = .nor := nor x List.mem_cons_self
    dsimp only [List.cons_append, List.foldl_cons]
    rw [List.cons_append, List.length_cons] at room
    rw [pushStore_of_room x (by omega)]
    have waits : (s.joined x).startStores.norWaits :=
      started.waits (.inr ⟨x.pay, by rw [joined_waiting, isNor]; exact List.mem_append_right _ List.mem_cons_self⟩)
    have short : (s.joined x).startStores.st.queue.length ≤ s.st.queue.length + 1 := by
      refine started.shorter.trans_eq ?_
      show (s.st.queue ++ [x]).length = _
      rw [List.length_append]; rfl
    obtain ⟨last, counts⟩ := ih (s.joined x).startStores (fun y hy => nor y (List.mem_cons_of_mem _ hy)) (.inr waits)
      (by omega)
    exact ⟨last, started.counts.trans started.ctl counts⟩

/-- The record of a slot-state store that is last in the queue is the one in force. -/
theorem slotMeta_of_norLast {s : State} {c g i : Nat} {m : SlotMeta} (h : s.norLast (.norMeta c g i m)) : s.slotMeta = m := by
  obtain ⟨q, hq, -⟩ := h
  obtain ⟨a, b, hab, -, hb⟩ := List.map_eq_append_iff.mp hq
  obtain ⟨x, rfl, hx⟩ := List.map_eq_singleton_iff.mp hb
  have isMeta : metaPayload x = some m := by
    unfold metaPayload
    rw [show x.pay = _ from congrArg Prod.snd hx]
  unfold State.slotMeta
  rw [hab, List.reverse_append, List.reverse_singleton, List.singleton_append, List.findSome?_cons, isMeta]

end Sys2Proof.Machine
end

section
/-! Slot-state records (R80, R81): a record requested in both copies is the record in force, and its command waits for it (R89, R91). -/

namespace Sys2Proof.Machine

open Sys2Proof

/-! ## The stores of a record -/

theorem placeRecord_stores (s : State) (copy : Nat) (mk : Nat → Nat → Payload) (who : Waiter) :
    ∃ erase g i, (s.placeRecord copy mk who).2 = erase ++ [norStore costProgram (mk g i) who] ∧ erase.length ≤ 1 ∧
      ∀ r ∈ erase, r.cls = .nor := by
  unfold State.placeRecord
  split
  extract_lets stay g' i' erase
  refine ⟨erase, g', i', rfl, ?_, fun r hr => ?_⟩
  · unfold erase
    split
    · exact Nat.zero_le _
    · exact le_refl _
  · unfold erase at hr
    split at hr
    · cases hr
    · rw [List.mem_singleton.mp hr]; rfl

/-- The stores of a record: at most four, all of them on the NOR port, copy 1's record last and behind another. -/
theorem placeCopies_stores (s : State) (mk : Nat → Nat → Nat → Payload) (who : Waiter) :
    ∃ rs g i, (s.placeCopies mk who).2 = rs ++ [norStore costProgram (mk 1 g i) who] ∧ rs ≠ [] ∧ rs.length ≤ 3 ∧
      ∀ r ∈ rs, r.cls = .nor := by
  obtain ⟨e₀, g₀, i₀, h₀, short₀, nor₀⟩ := placeRecord_stores s 0 (mk 0) .nobody
  obtain ⟨e₁, g₁, i₁, h₁, short₁, nor₁⟩ := placeRecord_stores (s.placeRecord 0 (mk 0) .nobody).1 1 (mk 1) who
  refine ⟨e₀ ++ [norStore costProgram (mk 0 g₀ i₀) .nobody] ++ e₁, g₁, i₁, ?_, by simp, ?_, fun r hr => ?_⟩
  · show (s.placeRecord 0 (mk 0) .nobody).2 ++ ((s.placeRecord 0 (mk 0) .nobody).1.placeRecord 1 (mk 1) who).2 = _
    rw [h₀, h₁, ← List.append_assoc]
  · simp only [List.length_append, List.length_singleton]
    omega
  · simp only [List.mem_append, List.mem_singleton] at hr
    obtain (hr | rfl) | hr := hr
    · exact nor₀ r hr
    · rfl
    · exact nor₁ r hr

theorem requestAll_of_room {s : State} {rs : List StoreReq} (room : s.st.queue.length + rs.length ≤ storeCap) :
    s.requestAll rs = (rs.foldl (fun s r => (s.pushStore r).1) s, true) := if_neg (Nat.not_lt.mpr room)

/-- The record has its places in both copies and its SEQ; its stores are not requested yet. -/
def State.recordPlaced (s : State) (mk : Nat → Nat → Nat → Payload) (who : Waiter) : State :=
  { (s.placeCopies mk who).1 with boot := { (s.placeCopies mk who).1.boot with metaSeq := (s.placeCopies mk who).1.boot.metaSeq + 1 } }

theorem storeRecord_of_room {s : State} {mk : Nat → Nat → Nat → Payload} {who : Waiter}
    (room : s.st.queue.length + (s.placeCopies mk who).2.length ≤ storeCap) :
    s.storeRecord mk who = (s.recordPlaced mk who).requestAll (s.placeCopies mk who).2 := if_neg (Nat.not_lt.mpr room)

theorem recordPlaced_touches (s : State) (mk : Nat → Nat → Nat → Payload) (who : Waiter) : Touches [.boot] s (s.recordPlaced mk who) :=
  (State.placeCopies_touches s mk who).set_boot (by decide) id id

/-! ## A record requested -/

/-- With room for its stores, a record of copy 1 is last in the queue once it is requested. -/
theorem storeRecord_norLast {s : State} (mk : Nat → Nat → Nat → Payload) (who : Waiter) (room : s.st.queue.length ≤ 252) :
    (s.storeRecord mk who).2 = true ∧ (∃ g i, (s.storeRecord mk who).1.norLast (mk 1 g i)) ∧ OnlyDefers s (s.storeRecord mk who).1 := by
  obtain ⟨rs, g, i, stores, nonempty, short, nor⟩ := placeCopies_stores s mk who
  have placed := recordPlaced_touches s mk who
  have st : (s.recordPlaced mk who).st = s.st := placed.st (by decide)
  have fits : s.st.queue.length + (s.placeCopies mk who).2.length ≤ storeCap := by
    rw [stores, List.length_append, List.length_singleton]
    unfold storeCap
    omega
  rw [storeRecord_of_room fits, requestAll_of_room (by rw [st]; exact fits), stores]
  have allNor : ∀ x ∈ rs ++ [norStore costProgram (mk 1 g i) who], x.cls = .nor := fun x hx =>
    (List.mem_append.mp hx).elim (nor x) (fun hx => by rw [List.mem_singleton.mp hx]; rfl)
  obtain ⟨last, counts⟩ := foldl_pushStore rs (norStore costProgram (mk 1 g i) who) (s.recordPlaced mk who) allNor (.inl nonempty)
    (by rw [st, ← stores]; exact fits)
  exact ⟨rfl, ⟨g, i, last⟩, (OnlyDefers.of_led (placed.led (by decide))).trans (placed.ctl (by decide)) counts⟩

/-- With room for its stores, a slot-state record requested is in force under the next SEQ. -/
theorem storeMeta_of_room {s : State} (m : SlotMeta) (who : Waiter) (room : s.st.queue.length ≤ 252) :
    (s.storeMeta m who).2 = true ∧ (s.storeMeta m who).1.slotMeta = { m with seq := s.boot.metaSeq } ∧
      OnlyDefers s (s.storeMeta m who).1 := by
  obtain ⟨ok, ⟨g, i, last⟩, counts⟩ := storeRecord_norLast (fun c g i => .norMeta c g i { m with seq := s.boot.metaSeq }) who room
  exact ⟨ok, slotMeta_of_norLast last, counts⟩

/-- With room in the store queue a command's record is requested, and the command runs until it is stored. -/
theorem imageMeta_of_room {s : State} (m : SlotMeta) (code detail : Nat) (room : s.st.queue.length ≤ 252) :
    (s.imageMeta m code detail).boot.job = some (.metaStore code detail) ∧
      (s.imageMeta m code detail).slotMeta = { m with seq := s.boot.metaSeq } ∧ OnlyDefers s (s.imageMeta m code detail) := by
  obtain ⟨ok, inForce, counts⟩ := storeMeta_of_room m (.unit 1 0) room
  unfold State.imageMeta
  generalize s.storeMeta m (.unit 1 0) = stored at ok inForce counts ⊢
  obtain ⟨t, accepted⟩ := stored
  dsimp only at ok inForce counts ⊢
  rw [if_pos ok]
  exact ⟨rfl, inForce, counts⟩

/-! ## Slot states -/

theorem SlotMeta.st_setSt (m : SlotMeta) (k : Nat) (x : SlotState) : (m.setSt k x).st k = x := by
  unfold SlotMeta.setSt SlotMeta.st
  by_cases h0 : k = 0
  · simp only [h0, if_true]
  · by_cases h1 : k = 1
    · simp only [h1, if_true, one_ne_zero, if_false]
    · simp only [h0, h1, if_false]

/-- A Trial slot with PREFER to it is the first candidate of the next Boot (R82). -/
theorem candidates_of_trial (m : SlotMeta) (k : Nat) (seq : Nat) :
    ({ (m.setSt k .trial) with prefer := k, tries := 0, seq := seq } : SlotMeta).candidates.head? = some k := by
  have st : ({ (m.setSt k .trial) with prefer := k, tries := 0, seq := seq } : SlotMeta).st k = .trial := m.st_setSt k .trial
  unfold SlotMeta.candidates
  dsimp only
  rw [st]
  rfl

end Sys2Proof.Machine
end

section
/-! ACTIVATE, CONFIRM and REVERT (R91). -/

namespace Sys2Proof.Machine

open Sys2Proof

variable {s : State} {p : Path}

theorem imageModeOk_of_running {op : Nat} (h : s.ctl.mode = .ready ∨ s.ctl.mode = .service ∨ s.ctl.mode.isYoke = true) :
    s.imageModeOk op = true := by
  have running : ¬((s.ctl.mode = .boot ∧ s.boot.phase = 11) ∨ s.ctl.mode = .zeroized) := by
    rintro (⟨e, -⟩ | e) <;> simp [e, Mode.isYoke] at h
  unfold State.imageModeOk
  rw [if_neg running]
  simpa [or_assoc] using h

/-- CONFIRM is not among the commands that a held Boot and Zeroized accept (R88). -/
theorem imageModeOk_confirm_eq_false (ready : s.ctl.mode ≠ .ready) (service : s.ctl.mode ≠ .service) (yoke : s.ctl.mode.isYoke = false) :
    s.imageModeOk 5 = false := by
  unfold State.imageModeOk
  split
  · decide
  · simp [ready, service, yoke]

theorem activate_eq (takes : s.TakesImage p 4) {k : Fin 16} (hk : k.val < 2) : exec (.activate p k) s = .next
    (if s.slotMeta.st k = .written ∨ s.slotMeta.st k = .good then
      (s.disarm 1).imageMeta { s.slotMeta.setSt k .trial with prefer := k, tries := 0 } 0 0 else (s.disarm 1).imageEnd 2 0 0) := by
  refine congrArg Host.Outcome.next ((imageWrite_of_unguarded takes (by decide) (by decide) (fun _ => by omega)).trans ?_)
  exact if_neg (by omega)

theorem confirm_eq (takes : s.TakesImage p 5) : exec (.confirm p) s = .next
    (if s.boot.booted < 3 ∧ s.slotMeta.st s.boot.booted = .trial then
      ((s.disarm 1).note Ev.imageConfirmed (beBytes 1 s.boot.booted)).imageMeta (s.slotMeta.setSt s.boot.booted .good) 0 0
    else (s.disarm 1).imageEnd 2 0 0) :=
  congrArg Host.Outcome.next (imageWrite_of_unguarded takes (by decide) (by decide) (by decide))

theorem confirm_of_wrongMode (reaches : s.Reaches p Reg.stwImageCmd) (free : s.boot.job = none) (wrong : s.imageModeOk 5 = false) :
    exec (.confirm p) s = .next ((s.disarm 1).imageEnd 4 0 0) :=
  congrArg Host.Outcome.next (imageWrite_of_wrongMode 0 0 _ reaches free (by decide) wrong)

theorem revert_eq (takes : s.TakesImage p 6) : exec (.revert p) s = .next
    (if s.slotMeta.st (1 - s.slotMeta.prefer) = .good then (s.disarm 1).imageMeta { s.slotMeta with prefer := 1 - s.slotMeta.prefer } 0 0
    else (s.disarm 1).imageEnd 2 0 0) :=
  congrArg Host.Outcome.next (imageWrite_of_unguarded takes (by decide) (by decide) (by decide))

/-- An image command that ends at once with a CODE requests no store and leaves the images as they are. -/
theorem imageEnd_ends_only (free : s.boot.job = none) {code : Nat} (h : code < 256) :
    ((s.disarm 1).imageEnd code 0 0).boot = s.boot ∧ ((s.disarm 1).imageEnd code 0 0).st = s.st ∧
      ((s.disarm 1).imageEnd code 0 0).Ended Reg.stwImageResult code := by
  refine ⟨?_, rfl, imageEnd_ended _ h⟩
  rw [imageEnd_of_free (s := s.disarm 1) code 0 0 free]
  rfl

end Sys2Proof.Machine

open Sys2Proof Sys2Proof.Machine

/-- Settles O16: each command requests one slot-state record or ends at once, and the record requested is in force. -/
theorem activateConfirmRevert : Obligations.ActivateConfirmRevert := by
  unfold Obligations.ActivateConfirmRevert
  intro p s reaches free alive room
  refine ⟨fun k hk mode => ⟨fun fit => ?_, fun unwritten notGood => ?_⟩, fun running booted trial => ?_, fun ready service yoke => ?_,
    fun mode other => ?_, fun mode other => ?_⟩
  · have run := (activate_eq ⟨reaches, free, alive, mode⟩ hk).trans (congrArg _ (if_pos fit))
    obtain ⟨job, inForce, -⟩ := imageMeta_of_room (s := s.disarm 1) { s.slotMeta.setSt k .trial with prefer := k, tries := 0 } 0 0 room
    exact ⟨_, run, job, by rw [inForce]; exact candidates_of_trial _ _ _, inForce⟩
  · have run := (activate_eq ⟨reaches, free, alive, mode⟩ hk).trans (congrArg _ (if_neg (not_or.mpr ⟨unwritten, notGood⟩)))
    exact ⟨_, run, imageEnd_ends_only free (by decide)⟩
  · have run := (confirm_eq ⟨reaches, free, alive, imageModeOk_of_running running⟩).trans (congrArg _ (if_pos ⟨booted, trial⟩))
    have noted := State.note_touches (s.disarm 1) Ev.imageConfirmed (beBytes 1 s.boot.booted)
    have boot := noted.boot (by decide)
    have st := noted.st (by decide)
    have ctl := noted.ctl (by decide)
    have awake : s.ctl.mode ≠ .sentry := resp_mode reaches.2.1
    obtain ⟨job, inForce, counts⟩ := imageMeta_of_room (s := (s.disarm 1).note Ev.imageConfirmed (beBytes 1 s.boot.booted))
      (s.slotMeta.setSt s.boot.booted .good) 0 0 (by rw [st]; exact room)
    refine ⟨_, run, job, ?_, ?_⟩
    · rw [inForce, boot]; rfl
    · rw [counts _ (by decide) (by decide) (by decide) (by rw [ctl]; exact awake)]
      exact note_events (s.disarm 1) _ _ _ awake (by decide) (by decide)
  · exact ⟨_, confirm_of_wrongMode reaches free (imageModeOk_confirm_eq_false ready service yoke), imageEnd_ends_only free (by decide)⟩
  · have run := (revert_eq ⟨reaches, free, alive, mode⟩).trans (congrArg _ (if_pos other))
    obtain ⟨job, inForce, -⟩ := imageMeta_of_room (s := s.disarm 1) { s.slotMeta with prefer := 1 - s.slotMeta.prefer } 0 0 room
    exact ⟨_, run, job, inForce⟩
  · have run := (revert_eq ⟨reaches, free, alive, mode⟩).trans (congrArg _ (if_neg other))
    exact ⟨_, run, imageEnd_ends_only free (by decide)⟩
end

section
/-! RAISE_FLOOR and REVOKE_AUTH (R93). -/

namespace Sys2Proof.Machine

open Sys2Proof

theorem getElem?_modAt {α : Type} (f : α → α) (l : List α) (n j : Nat) : (modAt f l n)[j]? = if j = n then l[j]?.map f else l[j]? := by
  induction l generalizing n j with
  | nil => simp [modAt]
  | cons x xs ih =>
    cases n with
    | zero => cases j <;> simp [modAt]
    | succ n =>
      cases j with
      | zero => simp [modAt]
      | succ j => simpa [modAt] using ih n j

/-- A command that records an event and ends leaves the images and OTP as they were. -/
theorem noted_imageEnd_boot {s : State} (e : EvKind) (code : Nat) (free : s.boot.job = none) :
    ((s.note e).imageEnd code 0 0).boot = s.boot := by
  have boot : (s.note e).boot = s.boot := (State.note_touches ..).boot (by decide)
  rw [imageEnd_of_free code 0 0 (by rw [boot]; exact free)]
  exact boot

variable {s : State} {p : Path} {im : Structure}

/-- ROLLBACK of the running image; 0 where none runs. -/
def State.ownRollback (s : State) : Nat := match s.boot.image with | some im => im.rollback | none => 0

theorem ownRollback_of_image (image : s.boot.image = some im) : s.ownRollback = im.rollback := by
  unfold State.ownRollback
  rw [image]

/-- A floor of n is refused: n is out of range, or the running or the golden image is not Good or lies below it. -/
abbrev State.floorRefused (s : State) (n : Nat) : Prop :=
  n = 0 ∨ 128 < n ∨ 2 < s.boot.booted ∨ s.slotMeta.st s.boot.booted ≠ .good ∨ s.ownRollback < n ∨ s.slotMeta.stG ≠ .good ∨
    s.slotMeta.rbG < n

/-- The floor in OTP is n. -/
def State.withFloor (s : State) (n : Nat) : State := { s with boot := { s.boot with floor := n } }

/-- The fuse of authority slot k is burnt. -/
def State.withRevoked (s : State) (k : Nat) : State :=
  { s with boot := { s.boot with auth := modAt (fun (a : AuthSlot) => { a with revoked := true }) s.boot.auth k } }

theorem raiseFloor_eq (takes : s.TakesImage p 10) (armed : 1 ∈ s.armed) (n : Fin 4096) :
    exec (.raiseFloor p n) s = .next (if s.floorRefused n then (s.disarm 1).imageEnd 12 0 0
      else if n.val ≤ s.boot.floor then (s.disarm 1).imageEnd 0 0 0
      else (((s.disarm 1).withFloor n).note Ev.floorRaised).imageEnd 0 0 0) :=
  congrArg Host.Outcome.next
    (imageWrite_of_taken takes (by decide) (fun _ => Nat.zero_le _) (fun h => absurd h (by decide)) (fun _ => armed))

theorem revokeAuth_eq (takes : s.TakesImage p 11) (armed : 1 ∈ s.armed) (image : s.boot.image = some im) (k : Fin 4096) :
    exec (.revokeAuth p k) s = .next (if 3 < k.val ∨ im.authSlot = k.val then (s.disarm 1).imageEnd 12 0 0
      else (((s.disarm 1).withRevoked k).note Ev.authRevoked).imageEnd 0 0 0) := by
  refine congrArg Host.Outcome.next
    ((imageWrite_of_taken takes (by decide) (fun _ => Nat.zero_le _) (fun h => absurd h (by decide)) (fun _ => armed)).trans ?_)
  dsimp only
  split
  · next missing => cases image.symm.trans missing
  · next running =>
    cases image.symm.trans running
    rfl

theorem raiseFloor_of_unarmed (takes : s.TakesImage p 10) (unarmed : 1 ∉ s.armed) (n : Fin 4096) :
    exec (.raiseFloor p n) s = .next ((s.disarm 1).imageEnd 13 0 0) :=
  congrArg Host.Outcome.next (imageWrite_of_unarmed takes (by decide) (fun _ => Nat.zero_le _) (fun h => absurd h (by decide)) (by decide)
    unarmed)

theorem revokeAuth_of_unarmed (takes : s.TakesImage p 11) (unarmed : 1 ∉ s.armed) (k : Fin 4096) :
    exec (.revokeAuth p k) s = .next ((s.disarm 1).imageEnd 13 0 0) :=
  congrArg Host.Outcome.next (imageWrite_of_unarmed takes (by decide) (fun _ => Nat.zero_le _) (fun h => absurd h (by decide)) (by decide)
    unarmed)

/-- An image command that ends at once writes its result and clears the arm. -/
theorem imageEnd_frame (free : s.boot.job = none) (code : Nat) :
    (s.disarm 1).imageEnd code 0 0 =
      { s with regs := ((s.disarm 1).imageEnd code 0 0).regs, armed := ((s.disarm 1).imageEnd code 0 0).armed } := by
  rw [imageEnd_of_free (s := s.disarm 1) code 0 0 free]
  rfl

end Sys2Proof.Machine

open Sys2Proof Sys2Proof.Machine

/-- Settles O18, along the branches of the two armed commands. -/
theorem armedCommandsBurnOtp : Obligations.ArmedCommandsBurnOtp := by
  unfold Obligations.ArmedCommandsBurnOtp
  intro p s im reaches free alive image booted
  have awake : s.ctl.mode ≠ .sentry := resp_mode reaches.2.1
  refine ⟨fun n mode armed top good own golden goldenOwn => ⟨fun above => ?_, fun pos below => ?_⟩, fun n mode armed bad => ?_,
    fun k mode armed known other => ?_, fun k mode armed own => ?_, fun n unarmed => ⟨fun mode => ?_, fun mode => ?_⟩⟩
  · have fits : ¬s.floorRefused n := by
      simp only [State.floorRefused, ownRollback_of_image image, good, golden, ne_eq, not_true, false_or]
      omega
    have run := (raiseFloor_eq ⟨reaches, free, alive, mode⟩ armed n).trans
      (congrArg _ ((if_neg fits).trans (if_neg (Nat.not_le.mpr above))))
    refine ⟨_, run, noted_imageEnd_boot (s := (s.disarm 1).withFloor n) _ _ free, imageEnd_ended _ (by decide), ?_⟩
    exact note_events ((s.disarm 1).withFloor n) _ _ _ awake (by decide) (by decide)
  · have fits : ¬s.floorRefused n := by
      simp only [State.floorRefused, ownRollback_of_image image, good, golden, ne_eq, not_true, false_or]
      omega
    have run := (raiseFloor_eq ⟨reaches, free, alive, mode⟩ armed n).trans (congrArg _ ((if_neg fits).trans (if_pos below)))
    exact ⟨_, run, imageEnd_ended _ (by decide), imageEnd_frame free 0⟩
  · have refused : s.floorRefused n := by
      rw [State.floorRefused, ownRollback_of_image image]
      tauto
    have run := (raiseFloor_eq ⟨reaches, free, alive, mode⟩ armed n).trans (congrArg _ (if_pos refused))
    exact ⟨_, run, imageEnd_ended _ (by decide), imageEnd_frame free 12⟩
  · have run := (revokeAuth_eq ⟨reaches, free, alive, mode⟩ armed image k).trans (congrArg _ (if_neg (by omega)))
    have boot := noted_imageEnd_boot (s := (s.disarm 1).withRevoked k) Ev.authRevoked 0 free
    refine ⟨_, run, imageEnd_ended _ (by decide), fun a ha => ?_, fun j hj => ?_, ?_⟩
    · rw [boot]
      exact (getElem?_modAt _ _ _ _).trans ((if_pos rfl).trans (congrArg (Option.map _) ha))
    · rw [boot]
      exact (getElem?_modAt _ _ _ _).trans (if_neg hj)
    · rw [boot]
      rfl
  · have run := (revokeAuth_eq ⟨reaches, free, alive, mode⟩ armed image k).trans (congrArg _ (if_pos (.inr own)))
    exact ⟨_, run, (imageEnd_ends_only free (by decide)).2.2, (imageEnd_ends_only free (by decide)).1⟩
  · exact ⟨_, raiseFloor_of_unarmed ⟨reaches, free, alive, mode⟩ unarmed n, imageEnd_ended _ (by decide),
      (imageEnd_ends_only free (by decide)).1⟩
  · exact ⟨_, revokeAuth_of_unarmed ⟨reaches, free, alive, mode⟩ unarmed n, imageEnd_ended _ (by decide),
      (imageEnd_ends_only free (by decide)).1⟩
end

section
/-! What a command ends with is lost again where it ends by reporting a STORE_QUEUE_FULL that is still owed (R124): the report is an alarm, and
an alarm names itself as the last one, and in Recovery escalates to a module reset (R114). -/

namespace Sys2Proof.Machine

open Sys2Proof

/-- What an outcome's next state shows. -/
def nextShows {α : Type} (f : State → α) : Host.Outcome State Fault Refusal → Option α
  | .next t => some (f t)
  | _ => none

theorem nextShows_inj {α : Type} {f : State → α} {o : Host.Outcome State Fault Refusal} {t : State} {x : α} (seen : nextShows f o = some x)
    (ht : o = .next t) : f t = x := by
  rw [ht] at seen
  exact Option.some.inj seen

/-- DONE of a result register (R572). -/
def State.done (s : State) (k : Nat) : Bool := bit (s.rd k) 16

/-- The module of storeOwedInRecovery with the second copy of an image command's slot-state record on the NOR port. -/
def recordStoredInRecovery : State :=
  { storeOwedInRecovery with
    boot := { Boot.blank with job := some (.metaStore 0 0) }
    st := { storeOwedInRecovery.st with nor := some ⟨.nor, costProgram, .norMeta 1 0 0 SlotMeta.blank, .unit 1 0, false⟩ } }

/-- The record ends its command, and the module reset that follows clears STW_IMAGE_RESULT. -/
theorem storeComplete_of_storeOwed_clearsResult :
    nextShows (State.done · Reg.stwImageResult) (exec (.storeComplete true true) recordStoredInRecovery) = some false := by decide +kernel

/-- The module of storeOwedInRecovery with a re-till of key index 0 in progress. -/
def retillInRecovery : State :=
  { storeOwedInRecovery with mgd := { Mgd.reset with retill := some ⟨0, ⟨[], [], []⟩, 0⟩ } }

/-- The re-till ends, and the module reset that follows clears MGD_RETILL_STATUS. -/
theorem retillDone_of_storeOwed_clearsStatus :
    nextShows (State.done · Reg.mgdRetillStatus) (exec .retillDone retillInRecovery) = some false := by decide +kernel

/-- A module at step B8 of Boot whose store queue has refused a request that is not reported yet. -/
def storeOwedAtB8 : State :=
  { State.reset with boot := { Boot.blank with phase := 8 }, st := { Stores.idle with refused := true } }

/-- MGD_INIT_FAIL holds Boot, and the STORE_QUEUE_FULL reported after it is the last alarm. -/
theorem mgdInitFail_of_storeOwed_namesTheStoreQueue :
    nextShows (·.ctl.lastCode) (exec (.mgdInitDone false) storeOwedAtB8) = some Ev.storeQueueFull.code := by decide +kernel

end Sys2Proof.Machine

open Sys2Proof Sys2Proof.Machine

/-- Refutes O17: no hypothesis excludes a STORE_QUEUE_FULL that is still owed. In Recovery the store that ends an image command's slot-state
record is followed by a module reset, and STW_IMAGE_RESULT no longer reads DONE. -/
theorem not_slotCommandsWriteTheSlot : ¬ Obligations.SlotCommandsWriteTheSlot := by
  unfold Obligations.SlotCommandsWriteTheSlot
  rintro ⟨-, -, -, -, -, -, -, -, recordEnds⟩
  obtain ⟨t, ht, -, -, -, -, ⟨-, done⟩, -⟩ :=
    recordEnds SlotMeta.blank 0 0 0 costProgram false recordStoredInRecovery rfl rfl rfl (by decide) rfl
  exact Bool.false_ne_true ((nextShows_inj storeComplete_of_storeOwed_clearsResult ht).symm.trans done)

/-- Refutes O19: no hypothesis excludes a STORE_QUEUE_FULL that is still owed. It is reported after MGD_INIT_FAIL, and the last alarm is then
not MGD_INIT_FAIL. -/
theorem not_bootRunsToCalibrate : ¬ Obligations.BootRunsToCalibrate := by
  unfold Obligations.BootRunsToCalibrate
  rintro ⟨-, -, initEnds, -⟩
  obtain ⟨-, -, t, ht, -, -, last⟩ := initEnds storeOwedAtB8 rfl rfl
  have other := (nextShows_inj mgdInitFail_of_storeOwed_namesTheStoreQueue ht).symm.trans last
  exact absurd other (by decide)

/-- Refutes O37: Calm allows Recovery, and no hypothesis excludes a STORE_QUEUE_FULL that is still owed. The end of a re-till is then followed
by a module reset, and MGD_RETILL_STATUS no longer reads DONE. -/
theorem not_memoryIsMaintained : ¬ Obligations.MemoryIsMaintained := by
  unfold Obligations.MemoryIsMaintained
  rintro ⟨-, retillEnds, -⟩
  obtain ⟨t, ht, -, -, -, -, ⟨-, done⟩, -⟩ := (retillEnds retillInRecovery).2 _ rfl (by decide)
  exact Bool.false_ne_true ((nextShows_inj retillDone_of_storeOwed_clearsStatus ht).symm.trans done)
end

section
/-! The reset state (R84, R96, R126). -/

open Sys2Proof Sys2Proof.Machine

/-- Settles O3: each item is read off State.reset, and its register file lists nothing. -/
theorem resetIsBootBeforeB1 : Obligations.ResetIsBootBeforeB1 := by
  unfold Obligations.ResetIsBootBeforeB1
  exact ⟨rfl, rfl, rfl, by decide, rfl, rfl, fun _ => rfl, by decide⟩
end

section
/-! Alarms that a mode command's end, a store request or a recovery step gives rise to where the store queue is full or a
STORE_QUEUE_FULL is still owed (R102, R114, R124). -/

namespace Sys2Proof.Machine

open Sys2Proof

/-- A store of 2 mJ that no other row interprets, already deferred. -/
def deferredStore : StoreReq := ⟨.otherRec, costRecord, .other, .nobody, true⟩

/-- The store queue with no place left. -/
def fullQueue : Stores := { Stores.idle with queue := List.replicate storeCap deferredStore }

/-- A module in Ready whose store queue is full and has refused a request that is not reported yet. -/
def storeOwedWithFullQueue : State :=
  { State.reset with ctl := { Control.cold with mode := .ready }, st := { fullQueue with refused := true } }

/-- The refusal of one more request reports both: nothing is owed any more. -/
theorem storeRequest_of_storeOwed_settlesIt :
    nextShows (·.st.refused) (exec (.storeRequest 4 0) storeOwedWithFullQueue) = some false := by decide +kernel

/-- A module in Recovery at step V4 that has reset island 0, its store queue full. -/
def fullQueueInRecovery : State :=
  { State.reset with ctl := { Control.cold with mode := .recovery, recStep := 4, recIslands := [0] }, st := fullQueue }

/-- V5 asks for a sheaf mark (R152), and its refusal is an alarm, which in Recovery escalates to a module reset (R114): every island is in
reset again. -/
theorem recoveryIslandsReleased_of_fullQueue_resets :
    nextShows (fun t => decide (0 ∈ t.fab.inReset)) (exec (.recoveryIslandsReleased true) fullQueueInRecovery) = some true := by
  decide +kernel

/-- A key slot that holds a key. -/
def loadedSlot : KeySlot := ⟨.loaded, zeroBytes 32, 0, zeroBytes 4, false, 0, 0, 0, false, false⟩

/-- An image with client port 0 and line group 0 on lane 0 of their sides, and every unit. -/
def onePortImage : Structure :=
  { rollback := 1, buildId := 1, expanse := false, golden := false, yokeClass := 0, digest := [], authSlot := 0
    xbar := ⟨1, 1, 1⟩ :: List.replicate 15 ⟨0, 0, 0⟩ ++ [⟨1, 1, 1⟩]
    cipherSplit := [], cellsEnc := 0, cellsDec := 0, ctxCache := 0, regions := [], allotCount := 1, rings := 1, timeMap := []
    floors := [], unitEnable := 0xFFFF, presets := [] }

/-- A module in Ready with every part of the service set healthy and AUTO_TARGET 1, whose automatic attempts run beside a GO_YOKE and which
owes a STORE_QUEUE_FULL. -/
def storeOwedAtAttempt : State :=
  let s := { State.reset with
    ctl := { Control.cold with mode := .ready, autoOn := true, cmd := some .goYoke }
    boot := { Boot.blank with phase := 10, image := some onePortImage, otpLife := .production }
    hdg := { Hedge.blank with roots := List.replicate 4 (some []) }
    fab := { Fabric.reset 0 with live := allIslands, inReset := [] }
    line := { Line.reset with eth := [{ EthPort.reset with up := true }] }
    mgd := { Mgd.reset with initDone := true }
    asc := { Asc.reset with ctxs := [(0, some { Ctx.create (zeroBytes 512) 0 with kind := 1 })] }
    kvt := { Kvt.reset with slots := [(0, some loadedSlot), (1, some loadedSlot)] }
    cph := { Cph.reset with pairs := [{ CPair.reset with st := 1, role := 0 }, { CPair.reset with st := 1, role := 1 }] }
    st := { Stores.idle with refused := true } }
  ((s.setFld Reg.stwModeCfg 1 0 1).setFlg (Reg.lnfEthCtrl 0) 0 true).setFlg (Reg.lnfGrpCtrl 0) 0 true

/-- Every guard of T7 is met. -/
theorem storeOwedAtAttempt_guard : storeOwedAtAttempt.modeGuard 1 = 0 := by decide +kernel

/-- The STORE_QUEUE_FULL owed is an alarm, and its response ends the GO_YOKE with its result (R102). -/
theorem autoServiceAttempt_of_storeOwed_endsGoYoke :
    nextShows (State.done · Reg.stwModeResult) (exec .autoServiceAttempt storeOwedAtAttempt) = some true := by decide +kernel

end Sys2Proof.Machine

open Sys2Proof Sys2Proof.Machine

/-- Refutes O26: no hypothesis excludes a STORE_QUEUE_FULL that is still owed. A request that a full queue refuses then settles it, and the
stores are not left as they were. -/
theorem not_storesStartUnderTheEnergyCheck : ¬ Obligations.StoresStartUnderTheEnergyCheck := by
  unfold Obligations.StoresStartUnderTheEnergyCheck
  rintro ⟨-, queueFull, -⟩
  obtain ⟨t, ht, sameStores, -⟩ := queueFull 4 0 storeOwedWithFullQueue
    (List.length_replicate (n := storeCap)).ge (by decide) (by decide)
  have settled := nextShows_inj storeRequest_of_storeOwed_settlesIt ht
  rw [sameStores] at settled
  cases settled

/-- Refutes O25: no hypothesis leaves room in the store queue. The sheaf mark that V5 asks for is then refused, the alarm escalates to a
module reset, and island 0 is in reset again. -/
theorem not_recoveryReleasesAndResumes : ¬ Obligations.RecoveryReleasesAndResumes := by
  unfold Obligations.RecoveryReleasesAndResumes
  rintro ⟨releases, -⟩
  obtain ⟨t, ht, -, released⟩ := releases fullQueueInRecovery rfl rfl rfl rfl rfl (by decide) (fun _ _ => rfl)
  obtain ⟨-, outOfReset⟩ := released 0 (by decide)
  exact outOfReset (of_decide_eq_true (nextShows_inj recoveryIslandsReleased_of_fullQueue_resets ht))

/-- Refutes O24: no hypothesis excludes a STORE_QUEUE_FULL that is still owed, nor a running GO_YOKE. The automatic attempt reports the alarm,
and STW_MODE_RESULT then tells that GO_YOKE has ended. -/
theorem not_selfTestAndAutomaticAttempts : ¬ Obligations.SelfTestAndAutomaticAttempts := by
  unfold Obligations.SelfTestAndAutomaticAttempts
  rintro ⟨-, -, entersService, -⟩
  obtain ⟨t, ht, -, -, -, sameResult⟩ := entersService storeOwedAtAttempt rfl rfl (by decide +kernel) storeOwedAtAttempt_guard
  have ended := nextShows_inj autoServiceAttempt_of_storeOwed_endsGoYoke ht
  unfold State.done at ended
  rw [sameResult] at ended
  exact absurd ended (by decide +kernel)
end

section
/-! Rules shared by the mode commands: the end of a command, a change of mode, an alarm below level 5, a refused store reported, and the
gates of STW_MODE_CMD (R99, R102, R106, R124, R574, R575). -/

namespace Sys2Proof.Machine

open Sys2Proof

/-! ## The end of a command (R572) -/

theorem result_ended (s : State) (k : Nat) {code : Nat} (h : code < 256) : (s.result k code).Ended k code := by
  unfold State.result State.Ended
  rw [rd_wr_self]
  exact ⟨by rw [bits_setBits_out _ _ _ _ _ _ (.inl (by decide)) (by decide), bits_setBits _ _ _ _ (by decide) (by decide) h],
    bit_setBits_self _ _ _ (by decide) (by decide)⟩

theorem result_ctl (s : State) (k code : Nat) : (s.result k code).ctl = s.ctl := (State.result_touches ..).ctl (by decide)

theorem rd_result_ne (s : State) {k j : Nat} (code : Nat) (h : j ≠ k) : (s.result k code).rd j = s.rd j := rd_wr_ne _ _ _ _ h

theorem note_ctl (s : State) (k : EvKind) (ps : List Byte) : (s.note k ps).ctl = s.ctl := (State.note_touches ..).ctl (by decide)

theorem ended_note {s : State} {k code : Nat} (h : s.Ended k code) (e : EvKind) (ps : List Byte) (h1 : k ≠ Reg.stwAlert)
    (h2 : k ≠ Reg.logLost) : (s.note e ps).Ended k code := by
  unfold State.Ended
  rw [note_rd _ _ _ _ h1 h2]
  exact h

/-- A running mode command ends; whether it was a GO_YOKE or another, its result is written. -/
theorem endModeCmd_ctl (s : State) (code : Nat) : (s.endModeCmd code).ctl = { s.ctl with cmd := none } := by
  unfold State.endModeCmd
  split
  · next none => rw [← none]
  · extract_lets src unpaired
    have ctl : unpaired.ctl = s.ctl := by unfold unpaired; split <;> rfl
    exact (result_ctl ..).trans (congrArg (fun c : Control => { c with cmd := none }) ctl)

theorem endModeCmd_ended {s : State} {c : ModeCmd} (h : s.ctl.cmd = some c) {code : Nat} (hc : code < 256) :
    (s.endModeCmd code).Ended Reg.stwModeResult code := by
  unfold State.endModeCmd
  rw [h]
  exact result_ended _ _ hc

theorem endModeCmd_goYoke {s : State} (h : s.ctl.cmd = some .goYoke) (code : Nat) : (s.endModeCmd code).yok.pairing = none := by
  unfold State.endModeCmd
  rw [h]
  exact congrArg Yok.pairing ((State.result_touches ..).yok (by decide))

/-! ## A change of mode (R99) -/

theorem setMode_ctl {s : State} {m : Mode} (h : s.ctl.mode ≠ m) :
    (s.setMode m).ctl = { s.ctl with mode := m, prevMode := s.ctl.mode } := by
  unfold State.setMode
  extract_lets old told control changed
  have ctl : told.ctl = s.ctl := by
    unfold told
    split
    · rfl
    · exact (State.reportMode_touches ..).ctl (by decide)
  rw [if_neg h, note_ctl]
  unfold changed control
  rw [ctl]

theorem setMode_mode (s : State) (m : Mode) : (s.setMode m).ctl.mode = m := by
  by_cases h : s.ctl.mode = m
  · unfold State.setMode
    rw [if_pos h]
    exact h
  · rw [setMode_ctl h]

theorem setMode_rd (s : State) (m : Mode) (k : Nat) (h1 : k ≠ Reg.stwAlert) (h2 : k ≠ Reg.logLost) : (s.setMode m).rd k = s.rd k := by
  unfold State.setMode
  extract_lets old told control changed
  have regs : told.regs = s.regs := by
    unfold told
    split
    · rfl
    · exact (State.reportMode_touches ..).regs (by decide)
  split
  · rfl
  · exact (note_rd changed _ _ _ h1 h2).trans (rd_of_regs regs k)

/-! ## An alarm below level 5 (R106) -/

/-- Below level 5, and without the Hedge's evidence, the actions of a response are the erasure of the working keys, Degrade and the mute. -/
theorem perform_of_noEvidence (s : State) {lvl : Nat} (h : lvl < 5) (erase : Bool) :
    s.perform lvl erase none =
      let x := if erase then s.eraseWorking else s
      { x with ctl := { x.ctl with degraded := true, halted := x.ctl.halted || decide (3 ≤ lvl) } } := by
  have low : ¬5 ≤ lvl := Nat.not_le.mpr h
  unfold State.perform
  simp only [low, if_false, Option.isSome_none, decide_false, Bool.or_self, Bool.false_and, Bool.false_eq_true]

/-- Control once a response of a level below 5 has been given. -/
def State.answered (s : State) (f : Fired) (lvl : Nat) : Control :=
  { s.ctl with lastCode := f.code, lastLevel := s.ctl.mode.effLevel f.level, responseEnds := s.now + 10000, cmd := none
               degraded := true, halted := s.ctl.halted || decide (3 ≤ lvl) }

theorem beginResponse_ctl (s : State) (code lvl eff : Nat) : (s.beginResponse code lvl eff).ctl =
    { s.ctl with lastCode := code, lastLevel := eff, responseEnds := s.now + (if 5 ≤ lvl then 1000000 else 10000), cmd := none } := by
  unfold State.beginResponse
  extract_lets control named ended
  have ctl : ended.ctl = { named.ctl with cmd := none } := endModeCmd_ctl named 3
  split
  · exact (note_ctl ..).trans ctl
  · exact ctl

theorem answer_ctl (s : State) (fs : List Fired) {lvl : Nat} (h : lvl < 5) (erase : Bool) :
    (s.answer fs lvl erase none).ctl = s.answered (Fired.first fs) lvl := by
  unfold State.answer
  refine ((State.recordAll_touches ..).ctl (by decide)).trans ?_
  rw [perform_of_noEvidence _ h]
  have erased (x : State) : (if erase then x.eraseWorking else x).ctl = x.ctl := by
    split
    · exact (State.eraseWorking_touches ..).ctl (by decide)
    · rfl
  dsimp only
  rw [erased, beginResponse_ctl, if_neg (Nat.not_le.mpr h)]
  rfl

/-! ## A refused store reported (R124) -/

theorem raiseAll_storeQueueFull {s : State} (awake : s.ctl.mode ≠ .sentry) (up : s.ctl.mode ≠ .recovery) :
    s.raiseAll [Fired.plain Ev.storeQueueFull] [] none =
      s.answer [Fired.plain Ev.storeQueueFull] 2 (decide (4 ≤ s.ctl.mode.effLevel 2)) none := by
  unfold State.raiseAll
  extract_lets lvl erase t
  have ctl : t.ctl = s.answered (Fired.plain Ev.storeQueueFull) 2 := answer_ctl s _ (by decide) erase
  have calm : ¬(3 ≤ lvl ∨ t.ctl.mode = .recovery) := by
    rw [ctl]
    exact not_or.mpr ⟨by decide, up⟩
  rw [if_neg (by decide), if_neg awake, if_neg (by decide), if_neg calm]
  rfl

/-- Outside Recovery, what is owed of STORE_QUEUE_FULL is an alarm of level 2, which changes no mode. -/
theorem reportRefused_ctl {s : State} (awake : s.ctl.mode ≠ .sentry) (up : s.ctl.mode ≠ .recovery) :
    s.reportRefused.ctl = s.ctl ∨ s.reportRefused.ctl = s.answered (Fired.plain Ev.storeQueueFull) 2 := by
  unfold State.reportRefused
  split
  · right
    refine (congrArg State.ctl (raiseAll_storeQueueFull (s := { s with st := { s.st with refused := false } }) awake up)).trans ?_
    exact answer_ctl { s with st := { s.st with refused := false } } _ (by decide) _
  · exact .inl rfl

theorem reportRefused_mode {s : State} (awake : s.ctl.mode ≠ .sentry) (up : s.ctl.mode ≠ .recovery) :
    s.reportRefused.ctl.mode = s.ctl.mode :=
  (reportRefused_ctl awake up).elim (fun h => by rw [h]) (fun h => by rw [h]; rfl)

theorem reportRefused_autoOn {s : State} (awake : s.ctl.mode ≠ .sentry) (up : s.ctl.mode ≠ .recovery) :
    s.reportRefused.ctl.autoOn = s.ctl.autoOn :=
  (reportRefused_ctl awake up).elim (fun h => by rw [h]) (fun h => by rw [h]; rfl)

/-- Outside Service and the Yoke modes no part of the service set is missed (R104). -/
theorem recheck_of_ready {s : State} (h : s.ctl.mode = .ready) : s.recheck = s.settleParts.reportRefused := by
  have none : s.setLost = [] := by
    unfold State.setLost
    exact if_neg (by simp [h, Mode.isYoke])
  unfold State.recheck
  rw [if_pos none]

theorem yield_mode {s : State} (awake : s.ctl.mode ≠ .sentry) (up : s.ctl.mode ≠ .recovery) (cause : Nat) :
    (s.yield cause).ctl.mode = s.ctl.mode := by
  have now : (s.yieldNow cause).ctl = s.ctl := (State.yieldNow_touches ..).ctl (by decide)
  unfold State.yield
  rw [reportRefused_mode (by rw [now]; exact awake) (by rw [now]; exact up), now]

/-! ## The gates of STW_MODE_CMD (R102, R574, R575) -/

/-- A mode command begins: the arm of the Steward's block is cleared and the automatic attempts end. -/
def State.modeBegun (s : State) : State := (s.disarm 1).endAuto

section

variable {s : State} {p : Path} (reaches : s.Reaches p Reg.stwModeCmd) (op arg : Nat) (act : State → State)
include reaches

theorem modeWrite_of_reaches : s.modeWrite p op arg act = (s.disarm 1).modeRun op act := hostWrite_of_reaches _ _ reaches rfl

theorem modeWrite_of_busy (busy : s.ctl.cmd.isSome = true) : s.modeWrite p op arg act = s.modeBegun.note Ev.modeCmdRefused := by
  rw [modeWrite_of_reaches reaches]
  exact if_pos busy

variable (free : s.ctl.cmd = none)
include free

theorem modeWrite_of_taken (guard : s.modeGuard op = 0) : s.modeWrite p op arg act = act s.modeBegun := by
  rw [modeWrite_of_reaches reaches]
  exact (if_neg (by simp [State.endAuto, State.disarm, free])).trans (if_pos guard)

theorem modeWrite_of_refused (guard : s.modeGuard op ≠ 0) :
    s.modeWrite p op arg act = (s.modeBegun.result Reg.stwModeResult (s.modeGuard op)).note Ev.modeCmdRefused := by
  rw [modeWrite_of_reaches reaches]
  exact (if_neg (by simp [State.endAuto, State.disarm, free])).trans (if_neg guard)

end

end Sys2Proof.Machine
end

section
/-! What the mode commands do (R99, R102, R574 to R576, T7, T8, T13 to T16). -/

namespace Sys2Proof.Machine

open Sys2Proof

/-! ## Guards that hold (R575) -/

section

variable {s : State}

theorem modeGuard_goService (ready : s.ctl.mode = .ready) (life : s.boot.otpLife ≠ .raw) (set : s.setComplete = true) :
    s.modeGuard 1 = 0 := by simp [State.modeGuard, State.modeAllows, ready, life, set]

theorem modeGuard_goYoke (ready : s.ctl.mode = .ready) (life : s.boot.otpLife ≠ .raw) (set : s.setComplete = true)
    (link : s.yok.lanes = 15) : s.modeGuard 2 = 0 := by simp [State.modeGuard, State.modeAllows, ready, life, set, link]

theorem modeGuard_stop (h : s.ctl.mode = .service ∨ s.ctl.mode.isYoke = true) : s.modeGuard 3 = 0 := by
  have allows : s.modeAllows 3 = true := by simpa [State.modeAllows] using h
  simp [State.modeGuard, allows]

theorem modeGuard_selfTest (ready : s.ctl.mode = .ready) (idle : s.ctl.responseEnds ≤ s.now) : s.modeGuard 4 = 0 := by
  simp [State.modeGuard, State.modeAllows, ready, idle]

theorem modeGuard_unyoke (lead : s.ctl.mode = .yokeLead) : s.modeGuard 5 = 0 := by
  simp [State.modeGuard, State.modeAllows, lead]

theorem modeGuard_moduleReset : s.modeGuard 6 = 0 := by simp [State.modeGuard, State.modeAllows]

theorem modeGuard_clearDegrade (clear : s.ctl.level2 = []) (moves : s.ctl.stuck = false) : s.modeGuard 7 = 0 := by
  simp [State.modeGuard, State.modeAllows, clear, moves]

end

/-! ## Entering and leaving modes -/

/-- T7 from Ready: what the evaluation of the service set may record leaves the mode and the automatic attempts as they are. -/
theorem goService_ctl {s : State} (ready : s.ctl.mode = .ready) :
    ∃ c : Control, c.mode = .ready ∧ c.autoOn = s.ctl.autoOn ∧
      s.goService.ctl = { c with mode := .service, prevMode := .ready, intake := true } := by
  have awake : s.settleParts.ctl.mode ≠ .sentry := by
    show s.ctl.mode ≠ _
    rw [ready]; decide
  have up : s.settleParts.ctl.mode ≠ .recovery := by
    show s.ctl.mode ≠ _
    rw [ready]; decide
  have mode : s.settleParts.reportRefused.ctl.mode = .ready := (reportRefused_mode awake up).trans ready
  refine ⟨s.settleParts.reportRefused.ctl, mode, reportRefused_autoOn awake up, ?_⟩
  unfold State.goService
  rw [recheck_of_ready ready]
  extract_lets t control
  refine (setMode_ctl ?_).trans ?_
  · show t.ctl.mode ≠ _
    rw [mode]; decide
  · show ({ control with mode := _, prevMode := control.mode, intake := _ } : Control) = _
    rw [mode]

/-- T15: the tests asked for are noted, and those of the last Self-Test cleared. -/
def State.selfTestAsked (s : State) (mask : Nat) : State :=
  ({ s with ctl := { s.ctl with selfTestMask := mask } }).setFld Reg.stwSelftest 13 0 0

theorem selfTestAsked_fld (s : State) (mask : Nat) : ((s.selfTestAsked mask).setMode .selfTest).fld Reg.stwSelftest 13 0 = 0 := by
  unfold State.fld
  rw [setMode_rd _ _ _ (by decide) (by decide)]
  unfold State.selfTestAsked State.setFld
  rw [rd_wr_self, bits_setBits _ _ _ _ (by decide) (by decide) (by decide)]

theorem muted_of_selfTest {s : State} (h : s.ctl.mode = .selfTest) : s.muted = true := by
  unfold State.muted
  rw [h]
  exact Bool.or_true _

/-- Outside the Yoke modes nothing of the stream is left to stop. -/
theorem leaveYoke_of_alone {s : State} (alone : s.ctl.mode.isYoke = false) (m : Mode) : s.leaveYoke m = s.setMode m := if_pos alone

/-- A Yoke mode is left, unmuted and out of any resync. -/
theorem leaveYoke_of_yoke {s : State} (yoke : s.ctl.mode.isYoke = true) {m : Mode} (h : s.ctl.mode ≠ m) :
    (s.leaveYoke m).ctl = { s.ctl with mode := m, prevMode := s.ctl.mode } ∧ (s.leaveYoke m).yok.step = 0 ∧
      (s.leaveYoke m).yok.muted = false := by
  have ctl : s.settleMarks.startStream.ctl = s.ctl :=
    ((State.startStream_touches ..).ctl (by decide)).trans ((State.settleMarks_touches ..).ctl (by decide))
  unfold State.leaveYoke
  rw [if_neg (by rw [yoke]; decide)]
  refine ⟨?_, rfl, rfl⟩
  refine (setMode_ctl (s := s.settleMarks.startStream) (by rw [ctl]; exact h)).trans ?_
  rw [ctl]

/-- Once STOP has ended, nothing is queued (T14). -/
theorem endModeCmd_discardFrames_frames (s : State) (m : Mode) (code : Nat) :
    ((s.discardFrames.setMode m).endModeCmd code).sch.frames = [] := by
  rw [(State.endModeCmd_touches ..).sch (by decide), (State.setMode_touches ..).sch (by decide)]
  rfl

/-! ## Pairing -/

theorem emitCell_yok (s : State) (kind : Nat) (c : DCell) : (s.emitCell kind c).yok = s.yok :=
  (State.emitCell_touches ..).yok (by decide)

theorem fillCells_pairing (s : State) (n : Nat) : (s.fillCells n).yok.pairing = s.yok.pairing := by
  induction n generalizing s with
  | zero => rfl
  | succ n ih =>
    unfold State.fillCells
    split
    · rfl
    · split
      · rfl
      · rw [ih, emitCell_yok]

theorem sendDithal_pairing (s : State) (channel : Nat) (bs : List Byte) : (s.sendDithal channel bs).yok.pairing = s.yok.pairing := by
  unfold State.sendDithal
  split
  · exact fillCells_pairing ..
  · rfl

theorem startPairing_pairing (s : State) : s.startPairing.yok.pairing.isSome = true := by
  unfold State.startPairing
  split
  extract_lets
  split
  · rfl
  · rw [sendDithal_pairing]; rfl

theorem startPairing_ctl (s : State) : s.startPairing.ctl = s.ctl := (State.startPairing_touches ..).ctl (by decide)

/-! ## The commands -/

section

variable {s : State} {p : Path} (reaches : s.Reaches p Reg.stwModeCmd) (free : s.ctl.cmd = none)
include reaches free

/-- A mode command whose guards hold does what it says (R575). -/
theorem next_modeWrite (op arg : Nat) (act : State → State) (guard : s.modeGuard op = 0) :
    (Host.Outcome.next (s.modeWrite p op arg act) : Host.Outcome State Fault Refusal) = .next (act s.modeBegun) :=
  congrArg _ (modeWrite_of_taken reaches op arg act free guard)

/-- A mode command that a guard refuses: the first that fails gives the CODE, and nothing of Control moves but the automatic attempts. -/
theorem modeWrite_refuses (op arg : Nat) (act : State → State) {code : Nat} (guard : s.modeGuard op = code) (bad : code ≠ 0)
    (small : code < 256) :
    (s.modeWrite p op arg act).Ended Reg.stwModeResult code ∧ (s.modeWrite p op arg act).ctl = { s.ctl with autoOn := false } ∧
      (s.modeWrite p op arg act).events Ev.modeCmdRefused = satAdd (2 ^ 48 - 1) (s.events Ev.modeCmdRefused) 1 := by
  rw [modeWrite_of_refused reaches op arg act free (by rw [guard]; exact bad), guard]
  refine ⟨ended_note (result_ended s.modeBegun Reg.stwModeResult small) _ _ (by decide) (by decide), ?_, ?_⟩
  · rw [note_ctl, result_ctl]
    rfl
  · refine (note_events (s.modeBegun.result Reg.stwModeResult code) _ _ _ ?_ (by decide) (by decide)).trans ?_
    · rw [result_ctl]
      exact resp_mode reaches.2.1
    · rfl

end

/-- While a mode command runs, another is reported and does nothing else (R102). -/
theorem modeWrite_ignored {s : State} {p : Path} (reaches : s.Reaches p Reg.stwModeCmd) (op arg : Nat) (act : State → State)
    (busy : s.ctl.cmd.isSome = true) :
    (s.modeWrite p op arg act).ctl = { s.ctl with autoOn := false } ∧
      (s.modeWrite p op arg act).rd Reg.stwModeResult = s.rd Reg.stwModeResult ∧
      (s.modeWrite p op arg act).events Ev.modeCmdRefused = satAdd (2 ^ 48 - 1) (s.events Ev.modeCmdRefused) 1 := by
  rw [modeWrite_of_busy reaches op arg act busy]
  exact ⟨note_ctl .., note_rd _ _ _ _ (by decide) (by decide),
    note_events s.modeBegun _ _ _ (resp_mode reaches.2.1) (by decide) (by decide)⟩

end Sys2Proof.Machine

open Sys2Proof Sys2Proof.Machine

/-- Settles O20: past its guards each command acts on the state in which the automatic attempts have ended. -/
theorem modeCommandsComplete : Obligations.ModeCommandsComplete := by
  unfold Obligations.ModeCommandsComplete
  refine fun p s reaches free => ⟨fun ready life set => ?_, fun mask ready idle => ?_, fun lead => ?_, fun clear moves => ?_⟩
  · obtain ⟨c, -, autoOff, ctl⟩ := goService_ctl (s := s.modeBegun) ready
    refine ⟨_, next_modeWrite reaches free 1 0 _ (modeGuard_goService ready life set), ?_⟩
    rw [result_ctl, ctl]
    exact ⟨rfl, rfl, rfl, autoOff, result_ended _ _ (by decide)⟩
  · refine ⟨_, next_modeWrite reaches free 4 mask.toNat _ (modeGuard_selfTest ready idle), ?_⟩
    have ctl := setMode_ctl (s := s.modeBegun.selfTestAsked (mask.toNat % 64)) (m := .selfTest) (by show s.ctl.mode ≠ _; rw [ready]; decide)
    have selfTest := (result_ctl ((s.modeBegun.selfTestAsked (mask.toNat % 64)).setMode .selfTest) Reg.stwModeResult 0).trans ctl
    exact ⟨congrArg Control.mode selfTest, congrArg Control.selfTestMask selfTest,
      (congrArg (bits · 13 0) (rd_result_ne _ 0 (by decide))).trans (selfTestAsked_fld ..),
      congrArg Control.autoOn selfTest, muted_of_selfTest (congrArg Control.mode selfTest), result_ended _ _ (by decide)⟩
  · have yoke : (s.modeBegun.yield 5).ctl.mode = .yokeLead := by
      refine (yield_mode ?_ ?_ 5).trans lead <;> (show s.ctl.mode ≠ _; rw [lead]; decide)
    obtain ⟨ctl, step, muted⟩ := leaveYoke_of_yoke (s := s.modeBegun.yield 5) (by rw [yoke]; rfl) (m := .service) (by rw [yoke]; decide)
    refine ⟨_, next_modeWrite reaches free 5 0 _ (modeGuard_unyoke lead), ?_⟩
    rw [result_ctl, ctl]
    exact ⟨rfl, yoke, step, muted, result_ended _ _ (by decide)⟩
  · exact ⟨_, next_modeWrite reaches free 7 0 _ (modeGuard_clearDegrade clear moves), rfl, rfl, rfl, result_ended _ _ (by decide)⟩

/-- Settles O21: a command that may not act leaves its end's condition false or finds the register busy; STOP ends from Service by emptying
the Scheduler before Ready is entered. -/
theorem runningModeCommands : Obligations.RunningModeCommands := by
  unfold Obligations.RunningModeCommands
  refine ⟨fun p s reaches free ready life set link => ?_, fun s running silent late => ?_, fun s waits => ?_,
    fun p s reaches free mode => ?_, fun s running service drained => ?_, fun s waits => ?_, fun p s reaches busy => ?_⟩
  · refine ⟨_, next_modeWrite reaches free 2 0 _ (modeGuard_goYoke ready life set link), ?_⟩
    rw [startPairing_ctl]
    exact ⟨rfl, rfl, startPairing_pairing _, ready⟩
  · refine ⟨_, congrArg Host.Outcome.next (if_pos ⟨running, silent, late⟩), ?_⟩
    rw [endModeCmd_ctl]
    exact ⟨rfl, endModeCmd_goYoke running 5, rfl, endModeCmd_ended running (by decide)⟩
  · refine congrArg Host.Outcome.next (if_neg fun ⟨running, silent, late⟩ => ?_)
    obtain h | h | h := waits
    · exact h running
    · exact Bool.false_ne_true (silent.symm.trans h)
    · exact Nat.not_le.mpr h late
  · refine ⟨_, next_modeWrite reaches free 3 0 _ (modeGuard_stop mode), rfl, rfl, ?_⟩
    refine yield_mode (s := s.modeBegun) (resp_mode reaches.2.1) ?_ 4
    rintro recovering
    obtain h | h := mode
    · cases recovering.symm.trans h
    · rw [show s.ctl.mode = _ from recovering] at h
      cases h
  · have ctl : s.discardFrames.ctl = s.ctl := (State.discardFrames_touches ..).ctl (by decide)
    have ready := setMode_ctl (s := s.discardFrames) (m := .ready) (by rw [ctl, service]; decide)
    have left := leaveYoke_of_alone (s := s.discardFrames) (by rw [ctl, service]; rfl) .ready
    refine ⟨_, congrArg Host.Outcome.next (if_pos ⟨running, drained⟩), ?_⟩
    rw [left, endModeCmd_ctl, ready, ctl]
    exact ⟨rfl, service, rfl, endModeCmd_discardFrames_frames ..,
      endModeCmd_ended (by rw [ready, ctl]; exact running) (by decide)⟩
  · refine congrArg Host.Outcome.next (if_neg fun ⟨running, drained⟩ => ?_)
    obtain h | ⟨queued, early⟩ := waits
    · exact h running
    · exact drained.elim queued (Nat.not_le.mpr early)
  · have ignored (op arg : Nat) (act : State → State) := modeWrite_ignored reaches op arg act busy
    simp only [List.forall_mem_cons]
    refine ⟨?_, ?_, ?_, ?_, ?_, ?_, ?_, ?_, nofun⟩ <;> exact ⟨_, rfl, ignored ..⟩
end

section
/-! Mode commands that a guard refuses (R575). -/

namespace Sys2Proof.Machine

open Sys2Proof

/-- A mode command that guards refuse with CODE k. -/
abbrev State.RefusesMode (s : State) (c : Instr) (k : Nat) : Prop :=
  ∃ t, exec c s = .next t ∧ t.Ended Reg.stwModeResult k ∧ t.ctl = { s.ctl with autoOn := false } ∧
    t.events Ev.modeCmdRefused = satAdd (2 ^ 48 - 1) (s.events Ev.modeCmdRefused) 1

section

variable {s : State} {p : Path} (reaches : s.Reaches p Reg.stwModeCmd) (free : s.ctl.cmd = none)
include reaches free

theorem refusesMode (c : Instr) (op arg : Nat) (act : State → State) (writes : exec c s = .next (s.modeWrite p op arg act)) {code : Nat}
    (guard : s.modeGuard op = code) (bad : code ≠ 0 := by decide) (small : code < 256 := by decide) : s.RefusesMode c code :=
  ⟨_, writes, modeWrite_refuses reaches free op arg act guard bad small⟩

theorem modeCmdUnknown_refused {op : Fin 16} (unknown : 8 ≤ op.val) : s.RefusesMode (.modeCmdUnknown p op) 7 :=
  refusesMode reaches free (.modeCmdUnknown p op) op.val 0 id ((if_neg (by omega)).trans (if_neg (by omega))) (if_pos unknown)

end

/-- A mode that does not allow an OP is the first guard to fail (R575). -/
theorem modeGuard_of_wrongMode {s : State} {op : Nat} (known : op < 8) (wrong : s.modeAllows op = false) : s.modeGuard op = 1 := by
  unfold State.modeGuard
  rw [if_neg (by omega), if_pos wrong]

end Sys2Proof.Machine

open Sys2Proof Sys2Proof.Machine

/-- Settles O22, guard by guard. -/
theorem firstFailingGuardGivesTheCode : Obligations.FirstFailingGuardGivesTheCode := by
  unfold Obligations.FirstFailingGuardGivesTheCode
  intro p s reaches free m op c ok k
  suffices rows : ∀ x : Instr × Bool × Nat, x ∈ _ → x.2.1 = true → s.RefusesMode x.1 x.2.2 from rows (c, ok, k)
  simp only [List.forall_mem_cons, decide_eq_true_eq]
  refine ⟨modeCmdUnknown_refused reaches free, fun mode => refusesMode reaches free (.goService p) 1 0 _ rfl ?_,
    fun ⟨mode, raw⟩ => refusesMode reaches free (.goService p) 1 0 _ rfl ?_,
    fun ⟨mode, life, set⟩ => refusesMode reaches free (.goService p) 1 0 _ rfl ?_,
    fun ⟨ready, service⟩ => refusesMode reaches free (.goYoke p) 2 0 _ rfl ?_,
    fun ⟨mode, life, set, link⟩ => refusesMode reaches free (.goYoke p) 2 0 _ rfl ?_,
    fun mode => refusesMode reaches free (.modeStop p) 3 0 _ rfl ?_,
    fun mode => refusesMode reaches free (.selfTest p m) 4 m.toNat _ rfl ?_,
    fun ⟨mode, busy⟩ => refusesMode reaches free (.selfTest p m) 4 m.toNat _ rfl ?_,
    fun mode => refusesMode reaches free (.unyoke p) 5 0 _ rfl ?_,
    fun ⟨moves, persists⟩ => refusesMode reaches free (.clearDegrade p) 7 0 _ rfl ?_, nofun⟩
  · exact modeGuard_of_wrongMode (by decide) (by simpa [State.modeAllows] using mode)
  · simp [State.modeGuard, State.modeAllows, mode, raw]
  · simp [State.modeGuard, State.modeAllows, mode, life, set]
  · exact modeGuard_of_wrongMode (by decide) (by simpa [State.modeAllows] using ⟨ready, service⟩)
  · simp [State.modeGuard, State.modeAllows, mode, life, set, link]
  · exact modeGuard_of_wrongMode (by decide) (by simp [State.modeAllows, mode, Mode.isYoke])
  · exact modeGuard_of_wrongMode (by decide) (by simp [State.modeAllows, mode])
  · simp [State.modeGuard, State.modeAllows, mode, busy]
  · exact modeGuard_of_wrongMode (by decide) (by simpa [State.modeAllows] using mode)
  · simp [State.modeGuard, State.modeAllows, moves, persists]
end

section
/-! What a module reset leaves (R110, R124, R126 to R128), and that the Steward watchdog's response leaves it too. -/

namespace Sys2Proof.Machine

open Sys2Proof

/-! ## Operations that leave the Hedge's registers and the supplies -/

/-- From s to t no register of the Hedge has changed, and of the supplies at most ALERT_N. -/
structure KeepsHedge (s t : State) : Prop where
  rd : ∀ x, 0xD00000 ≤ x → x < 0xE00000 → t.rd x = s.rd x
  pow : ∃ a, t.pow = { s.pow with alertN := a }

namespace KeepsHedge

theorem refl (s : State) : KeepsHedge s s := ⟨fun _ _ _ => rfl, s.pow.alertN, rfl⟩

theorem trans {s t u : State} (h : KeepsHedge s t) (k : KeepsHedge t u) : KeepsHedge s u := by
  obtain ⟨a, ha⟩ := h.pow
  obtain ⟨b, hb⟩ := k.pow
  exact ⟨fun x lo hi => (k.rd x lo hi).trans (h.rd x lo hi), b, by rw [hb, ha]⟩

theorem of_touches {m : List Part} {s t : State} (h : Touches m s t) (regs : Part.regs ∉ m := by decide)
    (pow : Part.pow ∉ m := by decide) : KeepsHedge s t :=
  ⟨fun x _ _ => rd_of_regs (h.regs regs) x, s.pow.alertN, h.pow pow⟩

theorem of_same {s t : State} (regs : t.regs = s.regs := by rfl) (pow : t.pow = s.pow := by rfl) : KeepsHedge s t :=
  ⟨fun x _ _ => rd_of_regs regs x, s.pow.alertN, pow⟩

theorem wr (s : State) {k : Nat} (v : Word) (out : k < 0xD00000 ∨ 0xE00000 ≤ k) : KeepsHedge s (s.wr k v) :=
  ⟨fun x lo hi => rd_wr_ne _ _ _ _ (by omega), s.pow.alertN, rfl⟩

theorem result (s : State) {k : Nat} (code : Nat) (out : k < 0xD00000 ∨ 0xE00000 ≤ k) : KeepsHedge s (s.result k code) := wr s _ out

theorem setFlg (s : State) {k : Nat} (b : Nat) (v : Bool) (out : k < 0xD00000 ∨ 0xE00000 ≤ k) : KeepsHedge s (s.setFlg k b v) :=
  wr s _ out

theorem ite {s a b : State} {c : Prop} [Decidable c] (h : KeepsHedge s a) (k : KeepsHedge s b) : KeepsHedge s (if c then a else b) := by
  split <;> assumption

theorem foldl {α : Type} {f : State → α → State} (l : List α) (s : State) (h : ∀ x, ∀ a ∈ l, KeepsHedge x (f x a)) :
    KeepsHedge s (l.foldl f s) := by
  induction l generalizing s with
  | nil => exact refl s
  | cons a l ih => exact (h s a List.mem_cons_self).trans (ih _ fun x b hb => h x b (List.mem_cons_of_mem a hb))

theorem driveAlert (s : State) : KeepsHedge s s.driveAlert := by
  unfold State.driveAlert
  extract_lets low
  exact ite (refl s) ⟨fun _ _ _ => rfl, low, rfl⟩

theorem alert (s : State) (level : Nat) : KeepsHedge s (s.alert level) := by
  unfold State.alert
  extract_lets least t
  have h : KeepsHedge s t := (setFlg s 8 true (.inl (by decide))).trans ((driveAlert _).trans (of_touches (State.fire_touches ..)))
  exact ite (refl s) (ite (refl s) (ite (h.trans (of_touches (State.emit_touches ..))) h))

theorem noteCore (s : State) (t : Nat × Nat × Bool) (c l a : Nat) (o : List Nat) (ps : List Byte) :
    KeepsHedge s (s.noteCore t c l a o ps).1 := by
  by_cases asleep : s.ctl.mode = .sentry
  · unfold State.noteCore
    rw [if_pos asleep]
    exact refl s
  · obtain ⟨os, e⟩ | ⟨x, hx, e⟩ := noteCore_cases s t c l a o ps asleep
    · rw [e]
      exact of_same
    · have recorded : KeepsHedge s x := by
        rw [hx]
        exact of_same
      rw [e]
      exact (recorded.trans (ite (wr x _ (.inr (by decide))) (refl x))).trans ((of_touches (ifpost ..)).trans (alert ..))

theorem noteAt (s : State) (t : Nat × Nat × Bool) (c l a : Nat) (o : List Nat) (ps : List Byte) : KeepsHedge s (s.noteAt t c l a o ps) := by
  unfold State.noteAt
  extract_lets s₁ carried
  have h₁ : KeepsHedge s s₁ := of_touches (State.suspectAfter_touches ..)
  have h₂ := h₁.trans (noteCore s₁ t c l a o carried)
  generalize s₁.noteCore t c l a o carried = x at h₂ ⊢
  obtain ⟨s₂, lost, dropped⟩ := x
  dsimp only at h₂ ⊢
  have h₃ := ite (c := dropped = true) (h₂.trans (noteCore s₂ t Ev.eventRingOverflow.code 0 0xFF [] [])) h₂
  generalize (if dropped = true then (s₂.noteCore t Ev.eventRingOverflow.code 0 0xFF [] []).1 else s₂) = s₃ at h₃ ⊢
  exact ite (h₃.trans (trans of_same (noteCore { s₃ with led := { s₃.led with stageLostAt := some s₃.now } } ..))) h₃

theorem note (s : State) (k : EvKind) (ps : List Byte) : KeepsHedge s (s.note k ps) := noteAt ..

theorem setMode (s : State) (m : Mode) : KeepsHedge s (s.setMode m) := by
  unfold State.setMode
  extract_lets old told ctl changed
  have reported : KeepsHedge s told := ite (refl s) (of_touches (State.reportMode_touches ..))
  exact ite (refl s) (reported.trans (trans of_same (note changed ..)))

theorem portsLost (s : State) (ports : List Nat) (h : ∀ q ∈ ports, q < 32) : KeepsHedge s (s.portsLost ports) := by
  refine foldl _ s fun x q hq => ite (trans (setFlg x 8 true (.inl ?_)) (noteAt ..)) (refl x)
  have := h q hq
  unfold Reg.lnfEthStatus
  omega

theorem stopChannels (s : State) : KeepsHedge s s.stopChannels := by
  unfold State.stopChannels
  extract_lets t tim sch
  refine KeepsHedge.trans (t := t) (foldl _ s fun x e _ => ?_) of_same
  split
  · exact ite (noteAt ..) (refl x)
  · exact refl x

theorem eraseWorking (s : State) : KeepsHedge s s.eraseWorking := by
  unfold State.eraseWorking
  extract_lets t u erase k kvt cph mgd yok v
  have squashed : KeepsHedge s t := (of_touches (State.suppress_touches s)).trans (of_touches (State.squashItems_touches ..))
  have ended : KeepsHedge t u := ite (result t 5 (.inl (by decide))) (refl t)
  have erased : KeepsHedge u v := of_same
  exact squashed.trans (ended.trans (erased.trans ((setFlg v 2 true (.inl (by decide))).trans (stopChannels _))))

theorem endModeCmd (s : State) (code : Nat) : KeepsHedge s (s.endModeCmd code) := by
  unfold State.endModeCmd
  split
  · exact refl s
  · extract_lets yok t ctl
    have unpaired : KeepsHedge s t := ite of_same (refl s)
    exact unpaired.trans (trans of_same (result _ code (.inl (by decide))))

theorem beginResponse (s : State) (code lvl eff : Nat) : KeepsHedge s (s.beginResponse code lvl eff) := by
  unfold State.beginResponse
  extract_lets ctl t u kvt
  have ended : KeepsHedge s u := trans of_same (endModeCmd t 3)
  exact ended.trans (ite (trans of_same (note ..)) (refl u))

theorem recordAll (s : State) (t : Nat × Nat × Bool) (fs : List Fired) (lvl : Nat) (erase : Bool) :
    KeepsHedge s (s.recordAll t fs lvl erase) := by
  unfold State.recordAll
  extract_lets u v
  have recorded : KeepsHedge s u := foldl _ s fun x f _ => noteAt ..
  have roots : KeepsHedge u v := ite (note ..) (refl u)
  exact recorded.trans (roots.trans (ite (note ..) (refl v)))

theorem answer (s : State) (fs : List Fired) {lvl : Nat} (h : lvl < 5) (erase : Bool) : KeepsHedge s (s.answer fs lvl erase none) := by
  unfold State.answer
  extract_lets t u
  have began : KeepsHedge s u := beginResponse ..
  rw [perform_of_noEvidence _ h]
  extract_lets x ctl
  have erased : KeepsHedge u x := ite (eraseWorking u) (refl u)
  exact began.trans (erased.trans (trans of_same (recordAll ..)))

end KeepsHedge

end Sys2Proof.Machine
end

section
/-! What a module reset leaves (R110, R124, R126 to R128). -/

namespace Sys2Proof.Machine

open Sys2Proof

/-! ## Entries kept by their keys -/

theorem lookup_filter_key {β : Type} (q : Nat → Bool) (m : SMap β) (x : Nat) :
    List.lookup x (m.filter (fun e => q e.1)) = if q x then List.lookup x m else none := by
  induction m with
  | nil => exact (ite_self _).symm
  | cons e m ih =>
    obtain ⟨k, v⟩ := e
    rw [List.filter_cons]
    by_cases hx : x = k
    · subst hx
      cases hq : q x with
      | true => simp
      | false => simpa [hq] using ih
    · have other : (x == k) = false := by simpa using hx
      cases q k <;> simp [List.lookup_cons, other, ih]

theorem get_filter_key {β : Type} (d : Nat → β) (q : Nat → Bool) (m : SMap β) (x : Nat) :
    SMap.get d (m.filter (fun e => q e.1)) x = if q x then SMap.get d m x else d x := by
  unfold SMap.get
  rw [lookup_filter_key]
  cases q x <;> rfl

/-- A change of mode moves nothing of Control but the mode and the one before. -/
theorem setMode_ctl_frame (s : State) (m : Mode) : ∃ before, (s.setMode m).ctl = { s.ctl with mode := m, prevMode := before } := by
  by_cases h : s.ctl.mode = m
  · refine ⟨s.ctl.prevMode, ?_⟩
    unfold State.setMode
    rw [if_pos h, ← h]
  · exact ⟨_, setMode_ctl h⟩

/-! ## The reset itself -/

/-- Nothing that outlasts a module reset has changed from s to t: the Hedge and its registers, OTP, MRAM, NOR, the store queue and ports, the
supplies, and Degrade. -/
structure KeepsLasting (s t : State) : Prop where
  hedge : KeepsHedge s t
  st : t.st = s.st
  mram : t.mram = s.mram
  boot : t.boot = s.boot
  hdg : t.hdg = s.hdg
  degraded : s.ctl.degraded = true → t.ctl.degraded = true

theorem KeepsLasting.trans {s t u : State} (h : KeepsLasting s t) (k : KeepsLasting t u) : KeepsLasting s u :=
  ⟨h.hedge.trans k.hedge, k.st.trans h.st, k.mram.trans h.mram, k.boot.trans h.boot, k.hdg.trans h.hdg, k.degraded ∘ h.degraded⟩

theorem KeepsLasting.of_note {s t : State} (h : KeepsHedge s t) (k : Touches Part.note s t) : KeepsLasting s t :=
  ⟨h, k.st (by decide), k.mram (by decide), k.boot (by decide), k.hdg (by decide), fun d => by rw [k.ctl (by decide)]; exact d⟩

/-- t is s after a module reset of cause k (R126). -/
structure WasModuleReset (s t : State) (k : Nat) : Prop where
  cause : t.ctl.resetCause = k
  phase : t.boot.phase = 0
  image : t.boot.image = none
  job : t.boot.job = none
  slots : t.kvt.slots = []
  st : t.st = s.st
  mram : t.mram = s.mram
  nor : t.boot.nor = s.boot.nor
  floor : t.boot.floor = s.boot.floor
  roots : t.hdg.roots = s.hdg.roots
  log : t.hdg.log = s.hdg.log
  evidKey : t.hdg.evidKey = s.hdg.evidKey
  pow : t.pow = { s.pow with alertN := t.pow.alertN }
  cmd : t.ctl.cmd = none
  islands : ∀ i ∈ allIslands, i ∈ t.fab.inReset
  held : t.held = []
  degraded : s.ctl.degraded = true → t.ctl.degraded = true
  rd : ∀ x, x ≠ Reg.stwAlert → x ≠ Reg.logLost →
    t.rd x = if 0xD00000 ≤ x ∧ x < 0xE00000 ∧ x ≠ Reg.hdgCfg then s.rd x else regDefault x

theorem rd_resetCore (s : State) (k x : Nat) : (s.resetCore k).rd x =
    if 0xD00000 ≤ x ∧ x < 0xE00000 ∧ x ≠ Reg.hdgCfg then s.rd x else regDefault x := by
  refine (get_filter_key regDefault (fun k => decide (0xD00000 ≤ k) && decide (k < 0xE00000) && k != Reg.hdgCfg) s.regs x).trans ?_
  simp only [Bool.and_eq_true, decide_eq_true_eq, bne_iff_ne, and_assoc]
  rfl

namespace WasModuleReset

variable {s t u : State} {k : Nat}

/-- The registers, working state and keys go (R126). -/
theorem resetCore (s : State) (k : Nat) : WasModuleReset s (s.resetCore k) k where
  cause := rfl
  phase := rfl
  image := rfl
  job := rfl
  slots := rfl
  st := rfl
  mram := rfl
  nor := rfl
  floor := rfl
  roots := rfl
  log := rfl
  evidKey := rfl
  pow := rfl
  cmd := rfl
  islands := fun _ h => h
  held := rfl
  degraded := id
  rd := fun x _ _ => rd_resetCore s k x

/-- What is recorded of the reset, and the mode it enters, leave it at that. -/
theorem recorded (h : WasModuleReset s t k) (touched : Touches [.regs, .cnt, .ctl, .pow, .led, .hif, .yok, .out] t u)
    (ctl : ∃ m before, u.ctl = { t.ctl with mode := m, prevMode := before }) (pow : ∃ a, u.pow = { t.pow with alertN := a })
    (rd : ∀ x, x ≠ Reg.stwAlert → x ≠ Reg.logLost → u.rd x = t.rd x) : WasModuleReset s u k := by
  obtain ⟨m, before, ctl⟩ := ctl
  obtain ⟨a, pow⟩ := pow
  have boot : u.boot = t.boot := touched.boot (by decide)
  have hdg : u.hdg = t.hdg := touched.hdg (by decide)
  exact {
    cause := by rw [ctl]; exact h.cause
    phase := by rw [boot]; exact h.phase
    image := by rw [boot]; exact h.image
    job := by rw [boot]; exact h.job
    slots := by rw [touched.kvt (by decide)]; exact h.slots
    st := (touched.st (by decide)).trans h.st
    mram := (touched.mram (by decide)).trans h.mram
    nor := by rw [boot]; exact h.nor
    floor := by rw [boot]; exact h.floor
    roots := by rw [hdg]; exact h.roots
    log := by rw [hdg]; exact h.log
    evidKey := by rw [hdg]; exact h.evidKey
    pow := by rw [pow, h.pow]
    cmd := by rw [ctl]; exact h.cmd
    islands := by rw [touched.fab (by decide)]; exact h.islands
    held := (touched.held (by decide)).trans h.held
    degraded := fun d => by rw [ctl]; exact h.degraded d
    rd := fun x h1 h2 => (rd x h1 h2).trans (h.rd x h1 h2) }

/-- What lasts through a reset may have been told of a state before it. -/
theorem of_lasting (k' : KeepsLasting s t) (h : WasModuleReset t u k) : WasModuleReset s u k := by
  obtain ⟨rd, a, pow⟩ := k'.hedge
  exact { h with
    st := h.st.trans k'.st
    mram := h.mram.trans k'.mram
    nor := by rw [h.nor, k'.boot]
    floor := by rw [h.floor, k'.boot]
    roots := by rw [h.roots, k'.hdg]
    log := by rw [h.log, k'.hdg]
    evidKey := by rw [h.evidKey, k'.hdg]
    pow := by rw [h.pow, pow]
    degraded := h.degraded ∘ k'.degraded
    rd := fun x h1 h2 => by
      rw [h.rd x h1 h2]
      split
      · next inHedge => exact rd x inHedge.1 inHedge.2.1
      · rfl }

end WasModuleReset

/-- Losing the host link, if it is up, is an event. -/
theorem linkLost_keepsLasting (s : State) :
    KeepsLasting s (if s.hif.linkUp then ({ s with hif := { s.hif with linkUp := false } }).note Ev.hifLinkDown else s) := by
  split
  · exact .of_note (.trans .of_same (.note ..)) ((Touches.rfl' _ _).set_hif (by decide) |>.trans (State.note_touches ..))
  · exact ⟨.refl s, rfl, rfl, rfl, rfl, id⟩

/-- What follows the reset of the registers and the working state: ALERT_N, the event and the mode. -/
theorem resetRecorded_wasModuleReset (s : State) (k : Nat) :
    WasModuleReset s (((s.resetCore k).driveAlert.note Ev.moduleReset (beBytes 1 k)).setMode .boot) k := by
  have core := (WasModuleReset.resetCore s k).recorded ((State.driveAlert_touches ..).mono (by decide))
    ⟨_, _, (State.driveAlert_touches ..).ctl (by decide)⟩ (KeepsHedge.driveAlert _).pow
    fun x _ _ => rd_of_regs ((State.driveAlert_touches ..).regs (by decide)) x
  have noted := core.recorded ((State.note_touches _ Ev.moduleReset (beBytes 1 k)).mono (by decide)) ⟨_, _, note_ctl ..⟩
    (KeepsHedge.note ..).pow fun x h1 h2 => note_rd _ _ _ _ h1 h2
  exact noted.recorded (State.setMode_touches _ .boot) ⟨_, setMode_ctl_frame ..⟩ (KeepsHedge.setMode ..).pow
    fun x h1 h2 => setMode_rd _ _ _ h1 h2

theorem moduleReset_wasModuleReset (s : State) (k : Nat) : WasModuleReset s (s.moduleReset k) k := by
  unfold State.moduleReset
  extract_lets ports hif link core told
  have portsDown : KeepsLasting s ports :=
    .of_note (KeepsHedge.portsLost s _ fun q hq => List.mem_range.mp hq) (State.portsLost_touches ..)
  have linkDown : KeepsLasting ports link := linkLost_keepsLasting ports
  exact .of_lasting (portsDown.trans linkDown) (resetRecorded_wasModuleReset link k)

theorem moduleReset_mode (s : State) (k : Nat) : (s.moduleReset k).ctl.mode = .boot := by
  unfold State.moduleReset
  extract_lets ports hif link core told
  exact setMode_mode told .boot

/-! ## The Steward watchdog (R127) -/

/-- The response of STEWARD_WATCHDOG erases working keys at most. -/
theorem answer_keepsLasting (s : State) (fs : List Fired) {lvl : Nat} (h : lvl < 5) (erase : Bool) :
    KeepsLasting s (s.answer fs lvl erase none) := by
  have touched : Touches [.regs, .cnt, .ctl, .pow, .led, .hif, .tim, .sch, .mgd, .asc, .cph, .kvt, .yok, .out, .free] s
      (s.answer fs lvl erase none) := by
    unfold State.answer
    extract_lets t began
    rw [perform_of_noEvidence _ h]
    extract_lets x ctl
    refine .chain (State.recordAll_touches ..) (by decide) (.set_ctl (.trans (t := began) ?_ ?_) (by decide))
    · exact (State.beginResponse_touches ..).mono (by decide)
    · exact .ite ((State.eraseWorking_touches ..).mono (by decide)) (.rfl' _ _)
  exact ⟨.answer s fs h erase, touched.st (by decide), touched.mram (by decide), touched.boot (by decide), touched.hdg (by decide),
    fun _ => by rw [answer_ctl s fs h erase]; rfl⟩

end Sys2Proof.Machine

open Sys2Proof Sys2Proof.Machine

/-- Settles O23: each of the three comes to a module reset of a state that keeps what lasts. -/
theorem moduleResetEntersBoot : Obligations.ModuleResetEntersBoot := by
  unfold Obligations.ModuleResetEntersBoot
  intro p s awake c ok k hm holds
  have leaves {s' : State} (kept : KeepsLasting s s') (run : exec c s = .next (s'.moduleReset k)) :
      ∃ t, exec c s = .next t ∧ t.ctl.mode = .boot ∧ WasModuleReset s t k :=
    ⟨_, run, moduleReset_mode .., .of_lasting kept (moduleReset_wasModuleReset ..)⟩
  have resets : ∃ t, exec c s = .next t ∧ t.ctl.mode = .boot ∧ WasModuleReset s t k := by
    simp only [List.mem_cons, Prod.mk.injEq, List.not_mem_nil, or_false] at hm
    obtain ⟨rfl, rfl, rfl⟩ | ⟨rfl, rfl, rfl⟩ | ⟨rfl, rfl, rfl⟩ := hm
    · obtain ⟨reaches, free⟩ := of_decide_eq_true holds
      exact leaves (s' := s.modeBegun) ⟨.of_same, rfl, rfl, rfl, rfl, id⟩ (next_modeWrite reaches free 6 0 _ modeGuard_moduleReset)
    · have takes : s.TakesImage p 7 := of_decide_eq_true holds
      exact leaves (s' := s.disarm 1) ⟨.of_same, rfl, rfl, rfl, rfl, id⟩
        (congrArg Host.Outcome.next (imageWrite_of_unguarded takes (by decide) (by decide) (by decide)))
    · exact leaves (answer_keepsLasting s _ (by decide) _) (if_neg awake)
  obtain ⟨t, run, mode, r⟩ := resets
  exact ⟨t, run, mode, r.cause, r.phase, r.image, r.job, r.slots, r.st, r.mram, r.nor, r.floor, r.roots, r.log, r.evidKey, r.pow, r.cmd,
    r.islands, r.held, r.degraded, r.rd⟩
end

section
/-! What a lane, a group, a sheaf and a context show is lost again where an alarm meets Recovery (R113, R114, R124): STORE_QUEUE_FULL, owed from
before or from the yield of a lead, then escalates to a module reset. -/

namespace Sys2Proof.Machine

open Sys2Proof

/-- LANE_LOS ends with a recheck, which raises the STORE_QUEUE_FULL that is owed; the module reset that follows enters Boot. -/
theorem laneLos_of_storeOwed_entersBoot : nextMode (exec (.laneLos 0) storeOwedInRecovery) = some .boot := by decide +kernel

/-- An image whose line group 0 is a Glafold group of line lane 0. -/
def glafoldImage : Structure := { onePortImage with xbar := List.replicate 16 ⟨0, 0, 0⟩ ++ [⟨2, 1, 1⟩] }

/-- The module of storeOwedInRecovery with a Glafold group, which is not aligned. -/
def glafoldInRecovery : State := { storeOwedInRecovery with boot := { Boot.blank with image := some glafoldImage } }

theorem glafoldInRecovery_unaligned : glafoldInRecovery.isGlafold 0 = true ∧ glafoldInRecovery.alignedNow 0 = false := by decide +kernel

/-- The check declares LOGA, and the module reset that follows clears it. -/
theorem groupAlignmentCheck_of_storeOwed_clearsLoga :
    nextShows (fun t => (t.line.groups[0]?).map (fun x => (x.aligned, x.loga))) (exec (.groupAlignmentCheck 0) glafoldInRecovery) =
      some (some (false, false)) := by decide +kernel

/-- A lead whose sheaf number has come to the durable mark, with its Dithal lanes up and a full store queue. -/
def leadAtMark : State :=
  { State.reset with
    ctl := { Control.cold with mode := .yokeLead }
    boot := { Boot.blank with image := some glafoldImage }
    line := { Line.reset with sheaf := 5, mark := 5 }
    yok := { Yok.reset with lanes := 15 }
    st := fullQueue }

/-- SHEAF_MARK_STALL takes the lead to Recovery (R113), where it yields. STALE finds no place in the queue, and the STORE_QUEUE_FULL that tells
so is an alarm in Recovery: the module reset that follows ends the stall. -/
theorem sheafStart_of_fullQueue_endsStall : nextShows (·.line.stalled) (exec (.sheafStart []) leadAtMark) = some false := by decide +kernel

/-- A context of a MACsec association whose OLD_HOLD ends at 1 ns. -/
def holdingCtx : Ctx := { Ctx.create (zeroBytes 512) 0 with kind := 1, holdLeft := 1 }

/-- The module of storeOwedInRecovery at 1 ns, with that context. -/
def holdEndsInRecovery : State := { storeOwedInRecovery with now := 1, asc := { Asc.reset with ctxs := [(0, some holdingCtx)] } }

/-- The old slot's erasure ends with a recheck, and the module reset that follows takes the context. -/
theorem oldHoldExpiry_of_storeOwed_losesCtx :
    nextShows (State.ctx · 0) (exec (.oldHoldExpiry 0) holdEndsInRecovery) = some none := by decide +kernel

end Sys2Proof.Machine

open Sys2Proof Sys2Proof.Machine

/-- Refutes O27: Calm allows Recovery, and no hypothesis excludes a STORE_QUEUE_FULL that is still owed. LANE_LOS then takes the module to
Boot, where the statement has the mode unchanged. -/
theorem not_lanesPortsAndSeconds : ¬ Obligations.LanesPortsAndSeconds := by
  unfold Obligations.LanesPortsAndSeconds
  rintro ⟨losDeclared, -⟩
  obtain ⟨t, ht, -, -, -, sameMode⟩ := losDeclared 0 storeOwedInRecovery (by decide) rfl
  have entersBoot := laneLos_of_storeOwed_entersBoot
  rw [ht] at entersBoot
  cases sameMode.symm.trans (Option.some.inj entersBoot)

/-- Refutes O28: Calm allows Recovery, and no hypothesis excludes a STORE_QUEUE_FULL that is still owed. The check of a group that is not
aligned is then followed by a module reset, and the group has no LOGA. -/
theorem not_glafoldLanesAlign : ¬ Obligations.GlafoldLanesAlign := by
  unfold Obligations.GlafoldLanesAlign
  rintro ⟨-, -, -, checked⟩
  obtain ⟨glafold, unaligned⟩ := glafoldInRecovery_unaligned
  obtain ⟨t, ht, loga, -⟩ := (checked 0 glafoldInRecovery).2 (by decide) glafold
  have cleared := (nextShows_inj groupAlignmentCheck_of_storeOwed_clearsLoga ht).symm.trans loga
  rw [show glafoldInRecovery.alignedNow (0 : Fin 16).val = false from unaligned] at cleared
  exact absurd cleared (by decide)

/-- Refutes O29: no hypothesis leaves a lead that stalls at its mark room in the store queue. Its yield in Recovery is then followed by a
module reset, and it is not stalled. -/
theorem not_sheavesAndTributaries : ¬ Obligations.SheavesAndTributaries := by
  unfold Obligations.SheavesAndTributaries
  rintro ⟨-, -, stalls, -⟩
  obtain ⟨t, ht, -, stalled, -⟩ := stalls [] leadAtMark rfl rfl rfl (by decide) rfl
  exact Bool.false_ne_true ((nextShows_inj sheafStart_of_fullQueue_endsStall ht).symm.trans stalled)

/-- Refutes O40: Calm allows Recovery, and no hypothesis excludes a STORE_QUEUE_FULL that is still owed. The end of OLD_HOLD is then followed
by a module reset, and the context is gone. -/
theorem not_cloakWritebackAndRetirement : ¬ Obligations.CloakWritebackAndRetirement := by
  unfold Obligations.CloakWritebackAndRetirement
  rintro ⟨-, -, -, retires⟩
  obtain ⟨t, ht, kept, -⟩ := (retires 0 holdEndsInRecovery holdingCtx rfl).2 (by decide) (by decide) (by decide) (by decide)
  cases (nextShows_inj oldHoldExpiry_of_storeOwed_losesCtx ht).symm.trans kept
end

section
/-! What observing a frame, starting a work item and a verdict leave alone (R215, R324, R358, R560). -/

namespace Sys2Proof.Machine

open Sys2Proof

/-! ## Observation points (R555, R560) -/

/-- An untagged frame leaves its mark at an observation point in the filter units alone. -/
theorem observe_untagged (s : State) (p : Nat) (v : Sight) (dropped stomped : Bool) :
    ∃ led, s.observe p none v dropped stomped = { s with led := led } := by
  have counted (ks : List Nat) (x : State) (h : ∃ led, x = { s with led := led }) :
      ∃ led, ks.foldl (fun s k => if s.fuPasses k p v then s.fuCount k v.len else s) x = { s with led := led } := by
    induction ks generalizing x with
    | nil => exact h
    | cons k ks ih =>
      obtain ⟨led, rfl⟩ := h
      rw [List.foldl_cons]
      apply ih
      split
      · exact ⟨_, rfl⟩
      · exact ⟨led, rfl⟩
  exact counted _ s ⟨s.led, rfl⟩

theorem streamPut_events (s : State) (n : Nat) (body : List Byte) (k : EvKind) (awake : s.ctl.mode ≠ .sentry)
    (h1 : k.code ≠ Ev.eventRingOverflow.code) (h2 : k.code ≠ Ev.logStageLost.code) (h3 : k.code ≠ Ev.streamDropped.code) :
    (s.streamPut n body).events k = s.events k := by
  unfold State.streamPut
  split
  · rfl
  split
  · exact (note_events (s.wr _ _) _ _ k awake h1 h2).trans (if_neg h3)
  · exact events_of_led rfl k

/-- Observing a frame counts no event but a stream's drops and what recording them gives rise to. -/
theorem observe_events (s : State) (p : Nat) (tag : Option Nat) (v : Sight) (dropped stomped : Bool) (k : EvKind)
    (awake : s.ctl.mode ≠ .sentry) (h1 : k.code ≠ Ev.eventRingOverflow.code) (h2 : k.code ≠ Ev.logStageLost.code)
    (h3 : k.code ≠ Ev.streamDropped.code) : (s.observe p tag v dropped stomped).events k = s.events k := by
  have quiet (l : List Nat) (f : State → Nat → State)
      (step : ∀ x n, x.ctl = s.ctl → (f x n).ctl = s.ctl ∧ (f x n).events k = x.events k) (x : State) (ctl : x.ctl = s.ctl) :
      (l.foldl f x).ctl = s.ctl ∧ (l.foldl f x).events k = x.events k := by
    induction l generalizing x with
    | nil => exact ⟨ctl, rfl⟩
    | cons n l ih =>
      obtain ⟨ctl', events'⟩ := step x n ctl
      obtain ⟨ctlEnd, eventsEnd⟩ := ih (f x n) ctl'
      exact ⟨ctlEnd, eventsEnd.trans events'⟩
  unfold State.observe
  extract_lets counted
  obtain ⟨ctl, events⟩ : counted.ctl = s.ctl ∧ counted.events k = s.events k := by
    refine quiet _ _ (fun x n ctl => ?_) s rfl
    split
    · exact ⟨ctl, rfl⟩
    · exact ⟨ctl, rfl⟩
  clear_value counted
  split
  · exact events
  · split
    · refine Eq.trans (quiet _ _ (fun x n ctl => ?_) counted ctl).2 events
      extract_lets w
      split
      · exact ⟨((State.streamPut_touches ..).ctl (by decide)).trans ctl, streamPut_events x _ _ k (by rw [ctl]; exact awake) h1 h2 h3⟩
      · exact ⟨ctl, rfl⟩
    · exact events

/-! ## Work items of an association that does not rotate by itself (R336, R358, R389) -/

/-- No context at a, or one with AUTO_ROTATE 0. -/
def State.manual (s : State) (a : Nat) : Prop := ∀ c, s.ctx a = some c → c.autoRotate = false

theorem manual_of_ctx {s : State} {a : Nat} {c : Ctx} (h : s.ctx a = some c) (manual : c.autoRotate = false) : s.manual a :=
  fun _ hc => Option.some.inj (h.symm.trans hc) ▸ manual

theorem manual_of_asc {s t : State} (h : t.asc = s.asc) {a : Nat} (manual : s.manual a) : t.manual a := by
  unfold State.manual State.ctx
  rw [h]
  exact manual

theorem askRotation_touches_of_manual {s : State} {a : Nat} (manual : s.manual a) : Touches Part.note s (s.askRotation a) := by
  unfold State.askRotation
  split
  · exact Touches.rfl' _ s
  · next c hc =>
    rw [manual c hc]
    exact State.noteFor_touches ..

theorem addUsage_touches_of_manual {s : State} {code : Nat} (manual : s.manual (code / 2)) (n : Nat) :
    Touches (.kvt :: Part.note) s (s.addUsage code n) := by
  unfold State.addUsage
  split
  · exact Touches.rfl' _ s
  · next key hkey =>
    extract_lets u soft hard counted asked
    have hcounted : Touches (.kvt :: Part.note) s counted := (State.setSlot_touches ..).mono (by decide)
    have hasked : Touches (.kvt :: Part.note) s asked := by
      unfold asked
      refine Touches.ite (Touches.ite ?_ ?_) hcounted
      · exact Touches.chain (askRotation_touches_of_manual (s := counted) manual) (by decide) hcounted
      · exact Touches.chain (State.noteFor_touches ..) (by decide) hcounted
    exact Touches.ite (Touches.chain (State.noteFor_touches ..) (by decide) hasked) hasked

theorem startItem_touches_of_manual {s : State} {code : Nat} (manual : s.manual (code / 2)) (kind : ItemKind) (n : Nat)
    (ps : List Nat) : Touches (.cph :: .kvt :: Part.note) s (s.startItem kind [code] n ps).2 := by
  show Touches _ s (((State.modSlot { s.stageSlot code with cph := _ } code _).inc _).addUsage code n)
  have staged : Touches (.cph :: .kvt :: Part.note) s (s.stageSlot code) := (State.stageSlot_touches ..).mono (by decide)
  have counted (cph : Cph) (use : KeySlot → KeySlot) :
      Touches (.cph :: .kvt :: Part.note) s ((State.modSlot { s.stageSlot code with cph := cph } code use).inc (Reg.kvtCountLo 4)) :=
    Touches.chain (State.inc_touches ..) (by decide) (Touches.chain (State.modSlot_touches ..) (by decide)
      (Touches.set_cph (x := s.stageSlot code) staged (by decide)))
  exact Touches.chain (addUsage_touches_of_manual (manual_of_asc ((counted _ _).asc (by decide)) manual) n) (by decide) (counted _ _)

/-! ## Frames of the decrypt direction (R313, R324) -/

theorem ctx_of_asc {s t : State} (h : t.asc = s.asc) (a : Nat) : t.ctx a = s.ctx a := by unfold State.ctx; rw [h]

theorem frame_of_sch {s t : State} (h : t.sch = s.sch) (id : Nat) : t.frame? id = s.frame? id := by unfold State.frame?; rw [h]

@[simp] theorem frame_setFrame_same (s : State) (id : Nat) (f : Option Frame) : (s.setFrame id f).frame? id = f := SMap.get_set_self ..

theorem frame_setFrame_ne (s : State) {id j : Nat} (f : Option Frame) (h : j ≠ id) : (s.setFrame id f).frame? j = s.frame? j :=
  SMap.get_set_ne _ _ _ _ _ h

@[simp] theorem ctx_setCtx_same (s : State) (a : Nat) (c : Option Ctx) : (s.setCtx a c).ctx a = c := SMap.get_set_self ..

theorem ctx_setCtx_ne (s : State) {a b : Nat} (c : Option Ctx) (h : b ≠ a) : (s.setCtx a c).ctx b = s.ctx b := SMap.get_set_ne _ _ _ _ _ h

theorem count_inc_same (s : State) (k : Nat) : (s.inc k).count k = s.count k + 1 := SMap.get_set_self zeroOf s.cnt k (s.count k + 1)

theorem modCtx_of_ctx {s : State} {a : Nat} {c : Ctx} (h : s.ctx a = some c) (f : Ctx → Ctx) : s.modCtx a f = s.setCtx a (some (f c)) := by
  unfold State.modCtx
  rw [h]

theorem setVerdict_of_admitted {s : State} {id : Nat} {f : Frame} (h : s.frame? id = some f) (ok : Bool) :
    s.setVerdict id ok = s.setFrame id (some { f with verdict := some ok }) := by
  unfold State.setVerdict
  rw [h]

theorem frame_setVerdict_same {s : State} {id : Nat} {f : Frame} (h : s.frame? id = some f) (ok : Bool) :
    (s.setVerdict id ok).frame? id = some { f with verdict := some ok } := by
  rw [setVerdict_of_admitted h, frame_setFrame_same]

theorem frame_setVerdict_ne {s : State} {id j : Nat} {f : Frame} (h : s.frame? id = some f) (ok : Bool) (other : j ≠ id) :
    (s.setVerdict id ok).frame? j = s.frame? j := by
  rw [setVerdict_of_admitted h, frame_setFrame_ne _ _ other]

theorem decFrame_of_admitted {s : State} {id : Nat} {f : Frame} (h : s.frame? id = some f) : s.decFrame? id = some f := by
  unfold State.decFrame?
  rw [h]

/-- A work item that ends leaves everything but the Cipher Array and the Key Vault. -/
theorem endDecItem_eq (s : State) (id : Nat) : ∃ cph kvt, s.endDecItem id = { s with cph := cph, kvt := kvt } := by
  have touched := State.endDecItem_touches s id
  refine ⟨(s.endDecItem id).cph, (s.endDecItem id).kvt, ?_⟩
  generalize s.endDecItem id = t at touched
  cases t
  rw [State.mk.injEq]
  exact ⟨touched.regs (by decide), touched.shadow (by decide), touched.cnt (by decide), touched.armed (by decide),
    touched.now (by decide), touched.ctl (by decide), touched.pow (by decide), touched.boot (by decide), touched.led (by decide),
    touched.hdg (by decide), touched.hif (by decide), touched.tim (by decide), touched.mram (by decide), touched.st (by decide),
    touched.fab (by decide), touched.line (by decide), touched.rows (by decide), touched.cls (by decide), touched.sch (by decide),
    touched.mgd (by decide), touched.asc (by decide), rfl, rfl, touched.yok (by decide), touched.held (by decide),
    touched.out (by decide), touched.free (by decide), touched.pending (by decide)⟩

/-- The final check of a frame that has no verdict and no probe waiting ends its work item first. -/
theorem execDecryptFinalCheck_of_admitted {s : State} {id : Nat} {f : Frame} (admitted : s.frame? id = some f) (same : f.id = id)
    (decrypt : f.encrypt = false) (pn : f.pn ≠ 0) (fresh : f.verdict = none) (noProbe : ∀ w ∈ s.cls.probeWait, w.2 ≠ id) :
    ∃ cph kvt, execDecryptFinalCheck id s = .next (
      if f.rxFault = 0 then State.finalCheck { s with cph := cph, kvt := kvt } f
      else if s.isFollower then State.localException { s with cph := cph, kvt := kvt } f
      else State.icvFail { s with cph := cph, kvt := kvt } f) := by
  obtain ⟨cph, kvt, ended⟩ := endDecItem_eq s id
  refine ⟨cph, kvt, ?_⟩
  have waits : ¬(f.verdict.isSome ∨ s.cls.probeWait.any (fun w => w.2 == f.id)) := by
    rw [fresh, same, List.any_eq_true]
    rintro (isSome | ⟨w, hw, named⟩)
    · cases isSome
    · exact noProbe w hw (beq_iff_eq.mp named)
  unfold execDecryptFinalCheck
  rw [decFrame_of_admitted admitted]
  dsimp only
  rw [ended, if_neg (by simp [decrypt, pn]), if_neg waits]
  split
  · rfl
  · change (if s.isFollower then _ else _) = _
    split <;> rfl

/-! ## A frame accepted (R215, R324) -/

@[simp] theorem setHigh_rxAsked (c : Ctx) (k v : Nat) : (c.setHigh k v).rxAsked = c.rxAsked := by
  unfold Ctx.setHigh
  split <;> rfl

theorem accept_rxAsked (c : Ctx) (k p : Nat) : (c.accept k p).rxAsked = c.rxAsked := by
  unfold Ctx.accept
  extract_lets h
  split
  · exact setHigh_rxAsked ..
  · exact setHigh_rxAsked ..

/-- The context of a frame's association once the frame is accepted (R324). -/
def Ctx.afterAccept (c : Ctx) (k : Nat) (f : Frame) : Ctx := ((c.accept k f.pn).bump 3 1).bump 4 f.bytes.length

/-- The state in which frame f is accepted in context c of its association. -/
def State.accepted (s : State) (f : Frame) (c : Ctx) : State :=
  (s.setCtx f.assoc (some (c.afterAccept (f.slot % 2) f))).inc (Reg.ascCountLo 1)

/-- While a receive mark is asked for already, an accepted frame changes its context and a counter. -/
theorem acceptFrame_of_asked {s : State} {f : Frame} {c : Ctx} (h : s.ctx f.assoc = some c) (asked : c.rxAsked = true) :
    s.acceptFrame f (f.slot % 2) = s.accepted f c := by
  unfold State.acceptFrame
  rw [modCtx_of_ctx h]
  change State.askRxMark (s.accepted f c) f.assoc = _
  have ctx : (s.accepted f c).ctx f.assoc = some (c.afterAccept (f.slot % 2) f) := ctx_setCtx_same s _ _
  unfold State.askRxMark
  rw [ctx]
  exact if_pos (.inl ((accept_rxAsked ..).trans asked))

section

variable {s : State} {f : Frame} (admitted : s.frame? f.id = some f)
include admitted

theorem releaseFrame_of_room (room : s.clsLive = false ∨ s.cls.probes.length < 1024) :
    (s.releaseFrame f).frame? f.id = some { f with verdict := some true } := by
  unfold State.releaseFrame
  split
  · exact frame_setVerdict_same admitted true
  · next live =>
    rw [if_pos (room.resolve_left live)]
    exact frame_setVerdict_same (by exact admitted) true

theorem releaseFrame_frame_ne {j : Nat} (other : j ≠ f.id) : (s.releaseFrame f).frame? j = s.frame? j := by
  unfold State.releaseFrame
  split
  · exact frame_setVerdict_ne admitted true other
  · split
    · exact frame_setVerdict_ne (by exact admitted) true other
    · rfl

end

theorem releaseFrame_of_full {s : State} (live : s.clsLive = true) (full : 1024 ≤ s.cls.probes.length) (f : Frame) :
    s.releaseFrame f = { s with cls := { s.cls with probeWait := s.cls.probeWait ++ [(s.probeOf f, f.id)] } } := by
  unfold State.releaseFrame
  rw [if_neg (by simp [live]), if_neg (Nat.not_lt.mpr full)]

/-! ## A frame rejected (R324, R327) -/

/-- The frame's verdict and its association's counter, which a rejection sets before it is told. -/
def State.marked (s : State) (f : Frame) (x : Ctx) (c : Nat) : State :=
  (s.setFrame f.id (some { f with verdict := some false })).setCtx f.assoc (some (x.bump c 1))

theorem marked_frame_ne (s : State) (f : Frame) (x : Ctx) (c : Nat) {j : Nat} (other : j ≠ f.id) :
    (s.marked f x c).frame? j = s.frame? j := frame_setFrame_ne s _ other

section

variable {s : State} {f : Frame} {x : Ctx} (admitted : s.frame? f.id = some f) (hctx : s.ctx f.assoc = some x)
include admitted hctx

theorem rejectFrame_touches_marked (c m code : Nat) : Touches Part.note (s.marked f x c) (s.rejectFrame f c m code) := by
  unfold State.rejectFrame
  rw [setVerdict_of_admitted admitted, modCtx_of_ctx (s := s.setFrame f.id _) hctx]
  change Touches _ _ (State.observe (if _ then _ else ((s.marked f x c).inc _).conveyVerdict f code) _ _ _ _ _)
  have told : Touches Part.note (s.marked f x c) (((s.marked f x c).inc (Reg.ascCountLo m)).conveyVerdict f code) :=
    Touches.chain (State.conveyVerdict_touches ..) (by decide) ((State.inc_touches ..).mono (by decide))
  exact (State.observe_touches ..).chain (by decide) (.ite ((State.noteFor_touches ..).chain (by decide) told) told)

theorem rejectFrame_frame (c m code : Nat) : (s.rejectFrame f c m code).frame? f.id = some { f with verdict := some false } :=
  (frame_of_sch ((rejectFrame_touches_marked admitted hctx c m code).sch (by decide)) _).trans (frame_setFrame_same s _ _)

theorem rejectFrame_frame_ne (c m code : Nat) {j : Nat} (other : j ≠ f.id) : (s.rejectFrame f c m code).frame? j = s.frame? j :=
  (frame_of_sch ((rejectFrame_touches_marked admitted hctx c m code).sch (by decide)) _).trans (marked_frame_ne _ _ _ _ other)

theorem rejectFrame_ctx (c m code : Nat) : (s.rejectFrame f c m code).ctx f.assoc = some (x.bump c 1) :=
  (ctx_of_asc ((rejectFrame_touches_marked admitted hctx c m code).asc (by decide)) _).trans (ctx_setCtx_same _ _ _)

end

/-- The rejection of a frame of which no part has left counts no event but a stream's drops and what recording them gives rise to. -/
theorem rejectFrame_events {s : State} {f : Frame} (admitted : s.frame? f.id = some f) (stays : s.leaving f = false) (c m code : Nat)
    (k : EvKind) (awake : s.ctl.mode ≠ .sentry) (h1 : k.code ≠ Ev.eventRingOverflow.code) (h2 : k.code ≠ Ev.logStageLost.code)
    (h3 : k.code ≠ Ev.streamDropped.code) : (s.rejectFrame f c m code).events k = s.events k := by
  unfold State.rejectFrame
  extract_lets failed told owner stomped
  have hfailed : Touches [.sch, .yok, .asc] s failed :=
    (State.modCtx_touches ..).chain (by decide) ((State.setVerdict_touches ..).mono (by decide))
  have htold : Touches [.sch, .yok, .asc, .cnt, .out] s told :=
    (State.conveyVerdict_touches ..).chain (by decide) ((State.inc_touches ..).chain (by decide) (hfailed.mono (by decide)))
  have unsent : stomped = told := if_neg (by
    have : told.sch.sending = s.sch.sending := by
      rw [(State.conveyVerdict_touches ..).sch (by decide)]
      exact (congrArg Sch.sending ((State.modCtx_touches ..).sch (by decide))).trans (by rw [setVerdict_of_admitted admitted]; rfl)
    unfold State.leaving at stays ⊢
    rw [this, stays]
    exact Bool.false_ne_true)
  rw [unsent, observe_events told _ _ _ _ _ k (by rw [htold.ctl (by decide)]; exact awake) h1 h2 h3]
  exact events_of_led (htold.led (by decide)) k

/-! ## The final check (R324, R363) -/

theorem finalCheck_of_late {s : State} {f : Frame} {c : Ctx} (hctx : s.ctx f.assoc = some c) (old : c.fresh (f.slot % 2) = false)
    (lead : s.isFollower = false) (late : c.late (f.slot % 2) f.pn = true) : s.finalCheck f = s.rejectFrame f 7 4 3 := by
  unfold State.finalCheck
  simp only [hctx, old, late, lead, Bool.false_eq_true, false_and, if_false, if_true]

theorem finalCheck_of_inWindow {s : State} {f : Frame} {c : Ctx} (hctx : s.ctx f.assoc = some c) (old : c.fresh (f.slot % 2) = false)
    (inside : c.late (f.slot % 2) f.pn = false) : s.finalCheck f = ((s.acceptFrame f (f.slot % 2)).releaseFrame f).observe 9 f.tag
      ⟨some f.assoc, c.owner, f.input, f.cls, f.bytes.length, 0⟩ false false := by
  unfold State.finalCheck
  simp only [hctx, old, inside, Bool.false_eq_true, false_and, if_false]

/-- ICV_FAIL is recorded and counted before the frame is rejected (R327). -/
def State.icvFailed (s : State) (f : Frame) : State :=
  (s.noteFor Ev.rxIcvFail (s.assocOwner f.assoc) (beBytes 2 f.assoc)).inc (Reg.ascCountLo 2)

theorem icvFailed_touches (s : State) (f : Frame) : Touches Part.note s (s.icvFailed f) :=
  (State.inc_touches ..).chain (by decide) (State.noteFor_touches ..)

theorem icvFailed_leaving (s : State) (f : Frame) : (s.icvFailed f).leaving f = s.leaving f := by
  unfold State.leaving
  rw [(icvFailed_touches s f).sch (by decide)]

theorem icvFail_of_staying {s : State} {f : Frame} (stays : s.leaving f = false) :
    s.icvFail f = (s.icvFailed f).rejectFrame f 5 2 f.rxFault :=
  if_neg (fun leaves => Bool.false_ne_true (stays.symm.trans ((icvFailed_leaving s f).symm.trans leaves)))

theorem icvFailed_events (s : State) (f : Frame) (awake : s.ctl.mode ≠ .sentry) :
    (s.icvFailed f).events Ev.rxIcvFail = satAdd (2 ^ 48 - 1) (s.events Ev.rxIcvFail) 1 :=
  (noteFor_events s _ _ _ _ awake (by decide) (by decide)).trans (if_pos rfl)

section

variable {s : State} {f : Frame} {c : Ctx} (admitted : s.frame? f.id = some f) (hctx : s.ctx f.assoc = some c)
include admitted hctx

/-- An accepted frame is released, or waits for room in the probe queue (R215, R324). -/
theorem finalCheck_accepts (old : c.fresh (f.slot % 2) = false) (inside : c.late (f.slot % 2) f.pn = false) (asked : c.rxAsked = true) :
    (s.clsLive = false ∨ s.cls.probes.length < 1024 → (s.finalCheck f).frame? f.id = some { f with verdict := some true }) ∧
    (s.clsLive = true → 1024 ≤ s.cls.probes.length →
      (s.finalCheck f).frame? f.id = some f ∧ (s.finalCheck f).cls.probeWait = s.cls.probeWait ++ [(s.probeOf f, f.id)]) ∧
    (s.finalCheck f).ctx f.assoc = some (c.afterAccept (f.slot % 2) f) ∧ (∀ b, b ≠ f.assoc → (s.finalCheck f).ctx b = s.ctx b) ∧
    ∀ j, j ≠ f.id → (s.finalCheck f).frame? j = s.frame? j := by
  have admittedA : (s.accepted f c).frame? f.id = some f := admitted
  have seen := State.observe_touches ((s.accepted f c).releaseFrame f) 9 f.tag
    ⟨some f.assoc, c.owner, f.input, f.cls, f.bytes.length, 0⟩ false false
  have contexts := (seen.asc (by decide)).trans ((State.releaseFrame_touches (s.accepted f c) f).asc (by decide))
  rw [finalCheck_of_inWindow hctx old inside, acceptFrame_of_asked hctx asked]
  refine ⟨fun room => ?_, fun live full => ?_, ?_, fun b other => ?_, fun j other => ?_⟩
  · rw [frame_of_sch (seen.sch (by decide))]
    exact releaseFrame_of_room admittedA room
  · rw [frame_of_sch (seen.sch (by decide)), seen.cls (by decide), releaseFrame_of_full (s := s.accepted f c) live full]
    exact ⟨admittedA, rfl⟩
  · exact (ctx_of_asc contexts _).trans (ctx_setCtx_same s _ _)
  · exact (ctx_of_asc contexts _).trans (ctx_setCtx_ne s _ other)
  · rw [frame_of_sch (seen.sch (by decide))]
    exact releaseFrame_frame_ne admittedA other

theorem finalCheck_discardsLate (old : c.fresh (f.slot % 2) = false) (lead : s.isFollower = false) (late : c.late (f.slot % 2) f.pn = true) :
    (s.finalCheck f).frame? f.id = some { f with verdict := some false } ∧ (s.finalCheck f).ctx f.assoc = some (c.bump 7 1) ∧
    ∀ j, j ≠ f.id → (s.finalCheck f).frame? j = s.frame? j := by
  rw [finalCheck_of_late hctx old lead late]
  exact ⟨rejectFrame_frame admitted hctx 7 4 3, rejectFrame_ctx admitted hctx 7 4 3, fun _ => rejectFrame_frame_ne admitted hctx 7 4 3⟩

theorem icvFail_discards (stays : s.leaving f = false) (awake : s.ctl.mode ≠ .sentry) :
    (s.icvFail f).frame? f.id = some { f with verdict := some false } ∧ (s.icvFail f).ctx f.assoc = some (c.bump 5 1) ∧
    (s.icvFail f).events Ev.rxIcvFail = satAdd (2 ^ 48 - 1) (s.events Ev.rxIcvFail) 1 := by
  have failed := icvFailed_touches s f
  have admittedF := (frame_of_sch (failed.sch (by decide)) f.id).trans admitted
  have ctxF := (ctx_of_asc (failed.asc (by decide)) f.assoc).trans hctx
  rw [icvFail_of_staying stays]
  refine ⟨rejectFrame_frame admittedF ctxF _ _ _, rejectFrame_ctx admittedF ctxF _ _ _, ?_⟩
  rw [rejectFrame_events admittedF ((icvFailed_leaving s f).trans stays) _ _ _ _ (by rw [failed.ctl (by decide)]; exact awake)
    (by decide) (by decide) (by decide), icvFailed_events s f awake]

end

/-! ## A received MACsec frame (R161, R313, R324, R358) -/

/-- An untagged MACsec frame of a line input reaches the Association Engine with the tributary's receiver and the filter units changed
alone. -/
theorem execLineFrameReceive_of_macsec {i : Fin 544} {f : List Byte} (badCheck : Bool) {s : State} (untagged : s.flg Reg.pmcTagCfg 31 = false)
    (delivers : s.lineInput i = true) (whole : 32 ≤ i.val → (s.tribRx (i - 32)).left = f.length)
    (macsec : be16 f (12 + 4 * s.inputTags i) = 0x88E5) :
    ∃ line led, execLineFrameReceive i f badCheck s = .next (State.rxMacsec { s with line := line, led := led } (.lineFrameReceive i f badCheck)
      i none ⟨none, s.inputOwner i, i, 0, f.length, 0⟩ f badCheck) := by
  have receiver : ∃ line, (if 32 ≤ i.val then s.setTribRx (i.val - 32) ⟨true, 0⟩ else s) = { s with line := line } := by
    split
    · exact ⟨_, rfl⟩
    · exact ⟨s.line, rfl⟩
  obtain ⟨line, hline⟩ := receiver
  have drawn : State.drawTag { s with line := line } = (none, { s with line := line }) := if_neg (by
    intro tagged
    exact Bool.false_ne_true (untagged.symm.trans tagged))
  obtain ⟨led, seen⟩ := observe_untagged { s with line := line } 7 ⟨none, s.inputOwner i, i, 0, f.length, 0⟩ false false
  refine ⟨line, led, ?_⟩
  unfold execLineFrameReceive
  rw [if_neg (by simp [delivers]), if_neg (fun h => h.2 (whole h.1)), hline]
  dsimp only
  rw [drawn]
  dsimp only
  rw [show State.inputOwner { s with line := line } i = s.inputOwner i from rfl, seen,
    if_pos (show be16 f (12 + 4 * State.inputTags { s with line := line, led := led } i) = 0x88E5 from macsec)]

/-- A MACsec frame of no association is dropped and counted. -/
theorem rxMacsec_of_unknown {s : State} {i : Nat} {f : List Byte} (unknown : s.rxAssoc i (parseTag (s.inputTags i) f) = none) (cmd : Instr)
    (tag : Option Nat) (v : Sight) (badCheck : Bool) :
    s.rxMacsec cmd i tag v f badCheck = (s.inc (Reg.ascCountLo 5)).observe 8 tag { v with assoc := none } true false := by
  unfold State.rxMacsec
  dsimp only
  rw [unknown]

/-- A cached context that is used becomes the most recently used, and nothing else changes. -/
theorem touchCtx_of_cached {s : State} {a : Nat} {c : Ctx} (known : s.ctx a = some c) (cached : a ∈ s.asc.cache) :
    s.touchCtx a = { s with asc := { s.asc with cache := a :: s.asc.cache.filter (· != a) } } := by
  unfold State.touchCtx State.cachePut
  simp [known, cached]

/-- What lets a MACsec frame f of input i pass the pre-check: its association a with context c, the slot k that its AN names, and a
decrypt pair d that can take it (R313, R324, R358). -/
structure State.Decrypts (s : State) (i : Nat) (f : List Byte) (a : Nat) (c : Ctx) (k d : Nat) : Prop where
  assoc : s.rxAssoc i (parseTag (s.inputTags i) f) = some a
  ctx : s.ctx a = some c
  kind : c.kind = 1
  valid : tagValid (s.inputTags i) f = true
  cached : a ∈ s.asc.cache
  slot : s.rxSlot a c (parseTag (s.inputTags i) f).an = some k
  owner : s.allotState c.owner ≠ .frozen
  sound : c.poisoned = false
  alive : c.dead k = false
  starts : s.mayStart (slotOf a k) = true
  passes : s.preCheck a k (c.rxPn k (parseTag (s.inputTags i) f).pn) c = none
  pair : s.freePair 1 = some d

/-- The pre-check says the same of two states with the same limits. -/
theorem preCheck_none_congr {s t : State} {a k pn : Nat} {c : Ctx} (limit : t.rxLimit c k = s.rxLimit c k)
    (passes : s.preCheck a k pn c = none) : t.preCheck a k pn c = none := by
  unfold State.preCheck at passes ⊢
  rw [limit]
  split at passes
  · cases passes
  split at passes
  · cases passes
  split at passes
  · cases passes
  · next h1 h2 h3 => rw [if_neg h1, if_neg h2, if_neg h3]

theorem rxMacsec_of_decrypts {s : State} {i : Nat} {f : List Byte} {a : Nat} {c : Ctx} {k d : Nat} (h : s.Decrypts i f a c k d) (cmd : Instr)
    (tag : Option Nat) (v : Sight) : s.rxMacsec cmd i tag v f false =
      ((s.touchCtx a).rxDispatch i a k (c.rxPn k (parseTag (s.inputTags i) f).pn) d c tag f).observe 8 tag
        { v with assoc := some a, owner := c.owner } false false := by
  obtain ⟨assoc, ctx, kind, valid, cached, slot, owner, sound, alive, starts, passes, pair⟩ := h
  unfold State.rxMacsec
  simp only [assoc, ctx, kind, valid, ne_eq, not_true_eq_false, if_false, Bool.true_eq_false]
  have touched := touchCtx_of_cached ctx cached
  generalize s.touchCtx a = t at touched
  have same : t.rxSlot a c (parseTag (s.inputTags i) f).an = some k ∧ t.allotState c.owner ≠ .frozen ∧ t.mayStart (slotOf a k) = true ∧
      t.rxLimit c k = s.rxLimit c k ∧ t.freePair 1 = some d := by
    rw [touched]
    exact ⟨slot, owner, starts, rfl, pair⟩
  obtain ⟨slot', owner', starts', limit, pair'⟩ := same
  simp only [slot', owner', sound, alive, starts', preCheck_none_congr limit passes, pair', if_false, Bool.false_eq_true, or_self,
    Bool.true_eq_false]

/-- What a dispatched frame x brings to its admission: its recovered bytes and what its association's context fixes (R253, R363). -/
structure Frame.ArrivesFrom (x : Frame) (s : State) (i : Nat) (f : List Byte) (a : Nat) (c : Ctx) (k no : Nat) : Prop where
  encrypt : x.encrypt = false
  assoc : x.assoc = a
  output : x.output = c.decOut
  cls : x.cls = c.decClass
  slot : x.slot = slotOf a k
  pn : x.pn = no
  verdict : x.verdict = none
  bytes : x.bytes = (c.unprotect (s.keyOf (slotOf a k)) (s.inputTags i) k no f).1

theorem rxDispatch_arrives {s : State} {a k : Nat} (manual : s.manual (slotOf a k / 2)) (i pn d : Nat) (c : Ctx) (tag : Option Nat)
    (f : List Byte) : ∃ x, Frame.ArrivesFrom x s i f a c k pn ∧
      (s.rxDispatch i a k pn d c tag f).sch = { s.sch with arrivals := s.sch.arrivals ++ [x], nextId := s.sch.nextId + 1 } := by
  unfold State.rxDispatch
  extract_lets code tags id
  split
  next plain icv opened =>
  extract_lets n started charged fault base x
  have sch : charged.sch = s.sch :=
    ((State.incBy_touches ..).sch (by decide)).trans ((startItem_touches_of_manual manual _ _ _).sch (by decide))
  refine ⟨x, ⟨rfl, rfl, rfl, rfl, rfl, rfl, rfl, (congrArg Prod.fst opened).symm⟩, ?_⟩
  clear_value x
  unfold State.rxArrive
  rw [sch]

theorem slotOf_half {a k : Nat} (h : k < 2) : slotOf a k / 2 = a := by
  unfold slotOf
  omega

theorem rxSlot_lt {s : State} {a : Nat} {c : Ctx} {an k : Nat} (h : s.rxSlot a c an = some k) : k < 2 := by
  have := List.mem_of_find?_eq_some h
  simp only [List.mem_cons, List.not_mem_nil, or_false] at this
  omega

/-- A MACsec frame that passes the pre-check waits for admission (R313, R324, R363). -/
theorem rxMacsec_arrives {s : State} {i : Nat} {f : List Byte} {a : Nat} {c : Ctx} {k d : Nat} (h : s.Decrypts i f a c k d)
    (manual : c.autoRotate = false) (cmd : Instr) (tag : Option Nat) (v : Sight) :
    ∃ x, Frame.ArrivesFrom x s i f a c k (c.rxPn k (parseTag (s.inputTags i) f).pn) ∧
      (s.rxMacsec cmd i tag v f false).sch = { s.sch with arrivals := s.sch.arrivals ++ [x], nextId := s.sch.nextId + 1 } := by
  have touched := touchCtx_of_cached h.ctx h.cached
  rw [rxMacsec_of_decrypts h, (State.observe_touches ..).sch (by decide)]
  rw [touched]
  have half : slotOf a k / 2 = a := slotOf_half (rxSlot_lt h.slot)
  obtain ⟨x, arrives, sch⟩ := rxDispatch_arrives (s := { s with asc := { s.asc with cache := a :: s.asc.cache.filter (· != a) } })
    (by rw [half]; exact manual_of_ctx (by exact h.ctx) manual) i (c.rxPn k (parseTag (s.inputTags i) f).pn) d c tag f
  exact ⟨x, { arrives with }, sch⟩

end Sys2Proof.Machine

open Sys2Proof Sys2Proof.Machine

/-- Settles O39, from what a received frame's dispatch brings to admission and from the branches of the final check. -/
theorem receivedFramesAreChecked : Obligations.ReceivedFramesAreChecked := by
  unfold Obligations.ReceivedFramesAreChecked
  refine ⟨fun i f s untagged delivers whole macsec => ?_, fun i f b s => ?_, ?_⟩
  · obtain ⟨line, led, run⟩ := execLineFrameReceive_of_macsec false untagged delivers whole macsec
    refine ⟨fun a assoc c ctx kind valid cached k slot owner sound alive starts passes d pair manual => ?_, fun unknown => ?_⟩
    · have decrypts : State.Decrypts { s with line := line, led := led } i f a c k d :=
        ⟨assoc, ctx, kind, valid, cached, slot, owner, sound, alive, starts,
          preCheck_none_congr (s := s) (t := { s with line := line, led := led }) rfl passes, pair⟩
      obtain ⟨x, arrives, sch⟩ := rxMacsec_arrives decrypts manual (.lineFrameReceive i f false) none
        ⟨none, s.inputOwner i, i, 0, f.length, 0⟩
      refine ⟨_, run, x, ?_, arrives.encrypt, arrives.assoc, arrives.output, arrives.cls, arrives.slot, arrives.pn, arrives.verdict,
        ?_, ?_, ?_⟩
      · rw [sch]
      · rw [arrives.pn]
        exact arrives.bytes
      · rw [sch]
      · rw [sch]
    · refine ⟨_, run, ?_⟩
      rw [rxMacsec_of_unknown (s := { s with line := line, led := led }) unknown]
      obtain ⟨led', seen⟩ := observe_untagged (State.inc { s with line := line, led := led } (Reg.ascCountLo 5)) 8
        ⟨none, s.inputOwner i, i, 0, f.length, 0⟩ true false
      rw [seen]
      exact ⟨rfl, rfl, count_inc_same s (Reg.ascCountLo 5)⟩
  · exact ⟨fun lost => if_pos lost, fun delivers far other => (if_neg (by simp [delivers])).trans (if_pos ⟨far, other⟩)⟩
  · intro id s f admitted same decrypt pn fresh c ctx old noProbe lead awake
    obtain ⟨cph, kvt, run⟩ := execDecryptFinalCheck_of_admitted admitted same decrypt pn fresh noProbe
    subst same
    refine ⟨fun good inside asked => ?_, fun good late => ?_, fun bad stays => ?_⟩
    · rw [if_pos good] at run
      exact ⟨_, run, finalCheck_accepts (s := { s with cph := cph, kvt := kvt }) admitted ctx old inside asked⟩
    · rw [if_pos good] at run
      exact ⟨_, run, finalCheck_discardsLate (s := { s with cph := cph, kvt := kvt }) admitted ctx old lead late⟩
    · rw [if_neg bad, lead, if_neg Bool.false_ne_true] at run
      exact ⟨_, run, icvFail_discards (s := { s with cph := cph, kvt := kvt }) admitted ctx stays awake⟩
end

section
/-! Row Interchange outside the Yoke modes: page swaps (R180, R183), connection memory writes (R179) and protection pairs (R187). -/

namespace Sys2Proof.Machine

open Sys2Proof

/-! ## A module outside the Yoke modes (R430) -/

section

variable {s : State} (alone : s.ctl.mode.isYoke = false)
include alone

theorem notLead_of_alone : s.ctl.mode ≠ .yokeLead := fun lead => by rw [lead] at alone; cases alone

theorem isFollower_of_alone : s.isFollower = false := by
  unfold State.isFollower
  revert alone
  cases s.ctl.mode <;> decide

theorem convey_of_alone (type : Nat) (content : List Byte) : s.convey type content = s := if_neg (notLead_of_alone alone)

end

/-- An event counts once (R545), unless it is one that recording itself gives rise to. -/
theorem note_counts {s : State} {e : EvKind} (ps : List Byte) (awake : s.ctl.mode ≠ .sentry) (h1 : e.code ≠ Ev.eventRingOverflow.code)
    (h2 : e.code ≠ Ev.logStageLost.code) : (s.note e ps).events e = satAdd (2 ^ 48 - 1) (s.events e) 1 :=
  (note_events _ _ _ _ awake h1 h2).trans (if_pos rfl)

/-! ## Page swaps (R180, R183) -/

/-- A swap of group g is announced for sheaf n. -/
def State.swapAnnounced (s : State) (g n : Nat) : State :=
  ((s.setPages g (fun p => { p with txSwap := some n })).wr Reg.rixSwapSheafLo (BitVec.ofNat 32 n)).wr Reg.rixSwapSheafHi
    (BitVec.ofNat 32 (n / 2 ^ 32 % 65536))

theorem getElem?_setPages_same (s : State) (g : Nat) (f : GroupPages → GroupPages) :
    (s.setPages g f).rows.pages[g]? = s.rows.pages[g]?.map f := (getElem?_modAt ..).trans (if_pos rfl)

theorem getElem?_setPages_ne (s : State) {g h : Nat} (f : GroupPages → GroupPages) (other : h ≠ g) :
    (s.setPages g f).rows.pages[h]? = s.rows.pages[h]? := (getElem?_modAt ..).trans (if_neg other)

theorem getElem?_setPair_same (s : State) (k : Nat) (f : Pair → Pair) :
    (s.setPair k f).rows.pairs[k]? = s.rows.pairs[k]?.map f := (getElem?_modAt ..).trans (if_pos rfl)

theorem getElem?_setPair_ne (s : State) {k j : Nat} (f : Pair → Pair) (other : j ≠ k) :
    (s.setPair k f).rows.pairs[j]? = s.rows.pairs[j]? := (getElem?_modAt ..).trans (if_neg other)

section

variable {s : State} {p : Path} {v : Word} (reaches : s.Reaches p Reg.rixSwapCmd) (alone : s.ctl.mode.isYoke = false)
include reaches alone

theorem swapCmd_of_accepted (accepted : s.swapCode (swapGroup v) = 0) :
    exec (.swapCmd p v) s = .next ((s.disarm 4).swapAnnounced (swapGroup v) (s.swapSheaf (swapGroup v) (swapLead v))) := by
  show execSwapCmd p v s = _
  unfold execSwapCmd
  rw [hostWrite_of_reaches v _ reaches (by decide)]
  have announced (n : Nat) : ((s.disarm 4).swapAnnounced (swapGroup v) n).ctl.mode.isYoke = false := alone
  exact congrArg Host.Outcome.next ((if_pos accepted).trans (convey_of_alone (announced _) _ _))

omit reaches in
theorem swapCode_ne_five : s.swapCode (swapGroup v) ≠ 5 := by
  unfold State.swapCode
  simp only [isFollower_of_alone alone, Bool.false_eq_true, if_false]
  split_ifs <;> decide

theorem swapCmd_of_refused (refused : s.swapCode (swapGroup v) ≠ 0) :
    exec (.swapCmd p v) s = .next ((s.disarm 4).swapRefuse (swapGroup v) (s.swapCode (swapGroup v))) := by
  show execSwapCmd p v s = _
  unfold execSwapCmd
  rw [hostWrite_of_reaches v _ reaches (by decide)]
  exact congrArg Host.Outcome.next ((if_neg refused).trans (if_neg (swapCode_ne_five alone)))

end

theorem swapCode_lt (s : State) (g : Nat) : s.swapCode g < 256 := by
  unfold State.swapCode
  split_ifs <;> decide

/-! ## Connection memories (R179) -/

/-- The register of a connection memory entry. -/
def cmReg (rx : Bool) (page row : Nat) : Nat := if rx then Reg.rixRcm page row else Reg.rixTcm page row

theorem cmEffect_of_free {s : State} {rx : Bool} {page row g : Nat} (group : s.groupOfLane (16 + row / 32) = some g)
    (glafold : s.isGlafold g = true)
    (free : if rx then page ≠ (s.gpages g).rxActive ∧ (s.gpages g).rxSwap = none else page ≠ (s.gpages g).txActive ∧ (s.gpages g).txSwap = none)
    (v : Word) : s.cmEffect rx page row v = s.wr (cmReg rx page row) (if bit v 15 then v &&& 0x81FF#32 else 0) := by
  unfold State.cmEffect
  rw [group]
  refine if_pos ?_
  cases rx <;> simpa [glafold] using free

theorem cmEffect_of_noGroup {s : State} {rx : Bool} {page row : Nat} (group : s.groupOfLane (16 + row / 32) = none) (v : Word) :
    s.cmEffect rx page row v = s.note Ev.rixWriteRefused (beBytes 4 (cmReg rx page row)) := by
  unfold State.cmEffect
  rw [group]
  rfl

theorem cmEffect_ctl (s : State) (rx : Bool) (page row : Nat) (v : Word) : (s.cmEffect rx page row v).ctl = s.ctl :=
  (State.cmEffect_touches ..).ctl (by decide)

theorem connectionMemoryWrite_eq {s : State} {p : Path} {rx : Bool} {page : Fin 2} {row : Fin 512}
    (reaches : s.Reaches p (cmReg rx page row)) (alone : s.ctl.mode.isYoke = false) (v : Word) :
    exec (.connectionMemoryWrite p rx page row v) s =
      .next ((s.disarm (cmReg rx page row / 0x100000)).cmEffect rx page row v) := by
  refine congrArg Host.Outcome.next (hostWrite_of_reaches' v _ reaches ?_)
  rw [cmEffect_ctl]
  exact notLead_of_alone alone

/-! ## Protection pairs (R187) -/

theorem bit_low_word (v : Word) : bit (v &&& 0xFFFF#32) 0 = bit v 0 := by
  unfold bit
  simp

theorem bits_low_word (v : Word) : bits (v &&& 0xFFFF#32) 7 4 = bits v 7 4 := by
  unfold bits
  rw [BitVec.toNat_and, show (0xFFFF#32).toNat = 2 ^ 16 - 1 from rfl, Nat.and_two_pow_sub_one_eq_mod]
  omega

section

variable {s : State} {k : Nat} {v : Word} (off : s.pairEnabled k = false) (on : bit v 0 = true)
include off on

theorem pairCfgEffect_of_allowed (allowed : s.pairAllowed k (v &&& 0xFFFF#32) = true) (sf : (s.group (bits v 7 4)).sf = false)
    (sd : (s.group (bits v 7 4)).sd = false) :
    s.pairCfgEffect k v = (s.wr (Reg.rixPairCfg k) (v &&& 0xFFFF#32)).setPair k (fun _ => Pair.reset) := by
  unfold State.pairCfgEffect
  dsimp only
  rw [if_neg (by simp [off]), if_neg (by simp [bit_low_word, on]), if_pos allowed, bits_low_word]
  refine if_neg ?_
  change ¬((s.group (bits v 7 4)).sf || (s.group (bits v 7 4)).sd) = true
  simp [sf, sd]

theorem pairCfgEffect_of_notAllowed (notAllowed : s.pairAllowed k (v &&& 0xFFFF#32) = false) :
    s.pairCfgEffect k v = (s.wr (Reg.rixPairCfg k) (setBit (v &&& 0xFFFF#32) 0 false)).note Ev.pairRefused (beBytes 1 k) := by
  unfold State.pairCfgEffect
  dsimp only
  rw [if_neg (by simp [off]), if_neg (by simp [bit_low_word, on]), if_neg (by simp [notAllowed])]

end

theorem pairCfgWrite_eq {s : State} {p : Path} {k : Fin 8} (reaches : s.Reaches p (Reg.rixPairCfg k)) (alone : s.ctl.mode.isYoke = false)
    (v : Word) : exec (.pairCfgWrite p k v) s = .next ((s.disarm (Reg.rixPairCfg k / 0x100000)).pairCfgEffect k v) := by
  refine congrArg Host.Outcome.next (hostWrite_of_reaches' v _ reaches ?_)
  rw [(State.pairCfgEffect_touches ..).ctl (by decide)]
  exact notLead_of_alone alone

end Sys2Proof.Machine

open Sys2Proof Sys2Proof.Machine

/-- Settles O30: each command passes its gates, and then writes the standby values it may or notes its refusal. -/
theorem pagesSwapAndPairsAreChecked : Obligations.PagesSwapAndPairsAreChecked := by
  unfold Obligations.PagesSwapAndPairsAreChecked
  refine ⟨fun p v s reaches alone => ⟨fun accepted => ?_, fun refused => ?_⟩, fun p rx page row v s reaches alone => ⟨?_, fun group => ?_⟩,
    fun p k v s reaches alone off on => ⟨fun allowed sf sd => ?_, fun notAllowed => ?_⟩⟩
  · refine ⟨_, swapCmd_of_accepted reaches alone accepted, getElem?_setPages_same .., fun g other => getElem?_setPages_ne _ _ other, ?_, rfl⟩
    exact (rd_wr_ne _ _ _ _ (by decide)).trans (rd_wr_self ..)
  · exact ⟨_, swapCmd_of_refused reaches alone refused, result_ended _ _ (swapCode_lt ..), rfl, rfl⟩
  · intro g group glafold free
    have written := connectionMemoryWrite_eq (rx := rx) reaches alone v
    rw [cmEffect_of_free (s := s.disarm _) (g := g) group glafold free] at written
    exact ⟨_, written, rd_wr_self .., fun j other => rd_wr_ne _ _ _ _ other, rfl⟩
  · have written := connectionMemoryWrite_eq (rx := rx) reaches alone v
    rw [cmEffect_of_noGroup (s := s.disarm _) group] at written
    have counted := note_counts (s := s.disarm (cmReg rx page row / 0x100000)) (e := Ev.rixWriteRefused) (beBytes 4 (cmReg rx page row))
      (resp_mode reaches.2.1) (by decide) (by decide)
    refine ⟨_, written, note_rd _ _ _ _ ?_ ?_, counted⟩
    · cases rx <;> simp [Reg.rixRcm, Reg.rixTcm, Reg.stwAlert] <;> omega
    · cases rx <;> simp [Reg.rixRcm, Reg.rixTcm, Reg.logLost] <;> omega
  · have written := pairCfgWrite_eq reaches alone v
    rw [pairCfgEffect_of_allowed (s := s.disarm _) off on allowed sf sd] at written
    exact ⟨_, written, rd_wr_self .., getElem?_setPair_same .., fun j other => getElem?_setPair_ne _ _ other, rfl⟩
  · have written := pairCfgWrite_eq reaches alone v
    rw [pairCfgEffect_of_notAllowed (s := s.disarm _) off on notAllowed] at written
    have counted := note_counts (s := (s.disarm (Reg.rixPairCfg k / 0x100000)).wr (Reg.rixPairCfg k) (setBit (v &&& 0xFFFF#32) 0 false))
      (e := Ev.pairRefused) (beBytes 1 k) (resp_mode reaches.2.1) (by decide) (by decide)
    refine ⟨_, written, ?_, (State.note_touches ..).rows (by decide), counted⟩
    unfold State.flg
    rw [note_rd _ _ _ _ (by unfold Reg.rixPairCfg Reg.stwAlert; omega) (by unfold Reg.rixPairCfg Reg.logLost; omega), rd_wr_self]
    exact bit_setBits_self _ 0 0 (by decide) (by decide)

end

section
/-! Automatic protection switching outside the Yoke modes: commands (R198) and timers (R196, R197). -/

namespace Sys2Proof.Machine

open Sys2Proof

/-! ## The end of an APS command (R198) -/

/-- Outside the Steward's and the Ledger's blocks recording an event leaves every register. -/
theorem rixApsStatus_kept {s : State} (e : EvKind) (ps : List Byte) (k : Nat) :
    (s.note e ps).rd (Reg.rixApsStatus k) = s.rd (Reg.rixApsStatus k) :=
  note_rd _ _ _ _ (by unfold Reg.rixApsStatus Reg.stwAlert; omega) (by unfold Reg.rixApsStatus Reg.logLost; omega)

theorem apsEnd_rd (s : State) (k code : Nat) : (s.apsEnd k code).rd (Reg.rixApsStatus k) =
    setBits (setBits (s.rd (Reg.rixApsStatus k)) 3 0 code) 8 8 1 := by
  unfold State.apsEnd
  dsimp only
  split
  · exact rd_wr_self ..
  · rw [rixApsStatus_kept, rd_wr_self]

/-- CMD_CODE and its DONE bit. -/
theorem apsEnd_status (s : State) (k : Nat) {code : Nat} (small : code < 16) :
    (s.apsEnd k code).fld (Reg.rixApsStatus k) 3 0 = code ∧ (s.apsEnd k code).flg (Reg.rixApsStatus k) 8 = true := by
  unfold State.fld State.flg
  rw [apsEnd_rd]
  exact ⟨(bits_setBits_out _ _ _ _ _ _ (.inl (by decide)) (by decide)).trans (bits_setBits _ _ _ _ (by decide) (by decide) small),
    bit_setBits_self _ _ _ (by decide) (by decide)⟩

theorem apsEnd_counts {s : State} (awake : s.ctl.mode ≠ .sentry) (k : Nat) {code : Nat} (refused : code ≠ 0) :
    (s.apsEnd k code).events Ev.apsCmdRefused = satAdd (2 ^ 48 - 1) (s.events Ev.apsCmdRefused) 1 := by
  unfold State.apsEnd
  dsimp only
  rw [if_neg refused]
  exact note_counts (s := s.wr _ _) _ awake (by decide) (by decide)

/-! ## The commands (R198) -/

theorem rixApsCmd_notConveyed (k : Fin 8) : conveyed (Reg.rixApsCmd k) = false := by
  revert k
  decide

section

variable {s : State} {p : Path} {k : Fin 8} (reaches : s.Reaches p (Reg.rixApsCmd k)) (alone : s.ctl.mode.isYoke = false)
include reaches

theorem apsCmdUnknown_eq {op : Fin 16} (unknown : 6 ≤ op.val) :
    exec (.apsCmdUnknown p k op) s = .next ((s.disarm (Reg.rixApsCmd k / 0x100000)).apsEnd k 4) :=
  (if_neg (Nat.not_lt.mpr unknown)).trans (congrArg Host.Outcome.next (hostWrite_of_reaches _ _ reaches (rixApsCmd_notConveyed k)))

include alone

theorem apsCommand_eq (op : Nat) (allowed : State → Bool) (act : Pair → Pair) : s.apsCommand p k op allowed act =
    if s.pairEnabled k = false then (s.disarm (Reg.rixApsCmd k / 0x100000)).apsEnd k 2
    else if allowed (s.disarm (Reg.rixApsCmd k / 0x100000)) = false then (s.disarm (Reg.rixApsCmd k / 0x100000)).apsEnd k 1
    else ((s.disarm (Reg.rixApsCmd k / 0x100000)).setPair k act).apsEnd k 0 := by
  unfold State.apsCommand
  rw [hostWrite_of_reaches _ _ reaches (rixApsCmd_notConveyed k)]
  refine if_neg ?_
  rw [isFollower_of_alone (s := s.disarm _) alone]
  exact Bool.false_ne_true

/-- A command that pair k takes. -/
theorem apsCommand_takes {c : Instr} {op n : Nat} {allowed : State → Bool}
    (runs : exec c s = .next (s.apsCommand p k op allowed (fun x => { x with cmd := n, wtr := false }))) (enabled : s.pairEnabled k = true)
    (may : allowed (s.disarm (Reg.rixApsCmd k / 0x100000)) = true) :
    ∃ t, exec c s = .next t ∧ t.rows.pairs[k.val]? = (s.rows.pairs[k.val]?).map (fun x => { x with cmd := n, wtr := false }) ∧
      (∀ j, j ≠ k.val → t.rows.pairs[j]? = s.rows.pairs[j]?) ∧ t.fld (Reg.rixApsStatus k) 3 0 = 0 ∧ t.flg (Reg.rixApsStatus k) 8 = true ∧
      t = { s with regs := t.regs, armed := t.armed, rows := { s.rows with pairs := t.rows.pairs } } := by
  rw [apsCommand_eq reaches alone, if_neg (by simp [enabled]), if_neg (by simp [may])] at runs
  obtain ⟨code, done⟩ := apsEnd_status ((s.disarm (Reg.rixApsCmd k / 0x100000)).setPair k (fun x => { x with cmd := n, wtr := false })) k
    (code := 0) (by decide)
  exact ⟨_, runs, getElem?_setPair_same .., fun j other => getElem?_setPair_ne _ _ other, code, done, rfl⟩

end

/-- A command refused with CODE. -/
theorem aps_refuses {s : State} {k : Nat} {c : Instr} {u code : Nat} (awake : s.ctl.mode ≠ .sentry) (bad : code ≠ 0) (small : code < 16)
    (runs : exec c s = .next ((s.disarm u).apsEnd k code)) :
    ∃ t, exec c s = .next t ∧ t.rows = s.rows ∧ t.fld (Reg.rixApsStatus k) 3 0 = code ∧ t.flg (Reg.rixApsStatus k) 8 = true ∧
      t.events Ev.apsCmdRefused = satAdd (2 ^ 48 - 1) (s.events Ev.apsCmdRefused) 1 := by
  obtain ⟨status, done⟩ := apsEnd_status (s.disarm u) k small
  exact ⟨_, runs, (State.apsEnd_touches ..).rows (by decide), status, done, apsEnd_counts (s := s.disarm u) awake k bad⟩

section

variable {s : State} {p : Path} {k : Fin 8} (reaches : s.Reaches p (Reg.rixApsCmd k)) (alone : s.ctl.mode.isYoke = false)
  {c : Instr} {op : Nat} {allowed : State → Bool} {act : Pair → Pair} (runs : exec c s = .next (s.apsCommand p k op allowed act))
include reaches alone runs

theorem apsCommand_disabled (disabled : s.pairEnabled k = false) :
    exec c s = .next ((s.disarm (Reg.rixApsCmd k / 0x100000)).apsEnd k 2) := by
  rw [runs, apsCommand_eq reaches alone, if_pos disabled]

theorem apsCommand_lower (lower : (s.pairEnabled k && !allowed (s.disarm (Reg.rixApsCmd k / 0x100000))) = true) :
    exec c s = .next ((s.disarm (Reg.rixApsCmd k / 0x100000)).apsEnd k 1) := by
  obtain ⟨enabled, low⟩ := Bool.and_eq_true_iff.mp lower
  rw [runs, apsCommand_eq reaches alone, if_neg (by simp [enabled]), if_pos (by simpa using low)]

end

end Sys2Proof.Machine

open Sys2Proof Sys2Proof.Machine

/-- Settles O31, command by command from the form that all of them share. -/
theorem apsCommandsAndTimers : Obligations.ApsCommandsAndTimers := by
  unfold Obligations.ApsCommandsAndTimers
  refine ⟨fun p k s reaches alone enabled c ok n listed may => ?_, fun p k op s reaches alone c ok n listed holds => ?_,
    fun k s => ⟨?_, ?_⟩⟩
  · simp only [List.mem_cons, Prod.mk.injEq, List.not_mem_nil, or_false] at listed
    obtain ⟨rfl, rfl, rfl⟩ | ⟨rfl, rfl, rfl⟩ | ⟨rfl, rfl, rfl⟩ | ⟨rfl, rfl, rfl⟩ | ⟨rfl, rfl, rfl⟩ := listed
    iterate 5 exact apsCommand_takes reaches alone rfl enabled may
  · have awake := resp_mode reaches.2.1
    simp only [List.mem_cons, Prod.mk.injEq, List.not_mem_nil, or_false] at listed
    have refused {code : Nat} (bad : code ≠ 0) (small : code < 16)
        (runs : exec c s = .next ((s.disarm (Reg.rixApsCmd k / 0x100000)).apsEnd k code)) := aps_refuses awake bad small runs
    obtain ⟨rfl, rfl, rfl⟩ | ⟨rfl, rfl, rfl⟩ | ⟨rfl, rfl, rfl⟩ | ⟨rfl, rfl, rfl⟩ | ⟨rfl, rfl, rfl⟩ | ⟨rfl, rfl, rfl⟩ | ⟨rfl, rfl, rfl⟩ |
      ⟨rfl, rfl, rfl⟩ | ⟨rfl, rfl, rfl⟩ := listed
    iterate 5 exact refused (by decide) (by decide) (apsCommand_disabled reaches alone rfl (by simpa using holds))
    iterate 3 exact refused (by decide) (by decide) (apsCommand_lower reaches alone rfl holds)
    exact refused (by decide) (by decide) (apsCmdUnknown_eq reaches (of_decide_eq_true holds))
  · exact (apply_ite Host.Outcome.next _ _ _).symm
  · exact (apply_ite Host.Outcome.next _ _ _).symm

end

section
/-! Stores requested while the store queue has room are never refused (R124), and full writes of lines whose MINOR is low never refresh
a page nor refuse a domain (R294 to R296): neither raises an alarm. What a twin that mutes keeps muted. -/

namespace Sys2Proof.Machine

open Sys2Proof

/-! ## Stores requested in a queue with room (R121, R124) -/

/-- What a request that the queue takes may touch. -/
def Part.asked : List Part := [.regs, .cnt, .pow, .led, .hif, .st, .yok, .out]

/-- From s to t at most n stores have been requested, and all were taken; only the fields in m may have changed. -/
structure StoresAsked (m : List Part) (n : Nat) (s t : State) : Prop where
  touched : Touches m s t
  queue : t.st.queue.length ≤ s.st.queue.length + n

namespace StoresAsked

theorem refl (m : List Part) (n : Nat) (s : State) : StoresAsked m n s s := ⟨Touches.rfl' _ _, Nat.le_add_right ..⟩

/-- A step that requests no store follows. -/
theorem step {m m' : List Part} {n : Nat} {s t u : State} (h : StoresAsked m n s t) (k : Touches m' t u) (sub : m' ⊆ m := by decide)
    (st : Part.st ∉ m' := by decide) : StoresAsked m n s u := ⟨k.chain sub h.touched, by rw [k.st st]; exact h.queue⟩

theorem mono {m m' : List Part} {n n' : Nat} {s t : State} (h : StoresAsked m n s t) (sub : m ⊆ m') (le : n ≤ n') :
    StoresAsked m' n' s t := ⟨h.touched.mono sub, by have := h.queue; omega⟩

theorem trans {m : List Part} {j k : Nat} {s t u : State} (h : StoresAsked m j s t) (g : StoresAsked m k t u) :
    StoresAsked m (j + k) s u := ⟨h.touched.trans g.touched, by have := h.queue; have := g.queue; omega⟩

/-- Steps that each request at most one store, on a queue with room for all of them. -/
theorem foldl {α : Type} {m : List Part} {f : State → α → State} (l : List α) (s : State)
    (step : ∀ (x : State) (a : α), x.st.queue.length < storeCap → StoresAsked m 1 x (f x a))
    (room : s.st.queue.length + l.length ≤ storeCap) : StoresAsked m l.length s (l.foldl f s) := by
  induction l generalizing s with
  | nil => exact refl m 0 s
  | cons a l ih =>
    rw [List.length_cons] at room ⊢
    have first := step s a (by omega)
    have rest := ih (f s a) (by have := first.queue; omega)
    exact (first.trans rest).mono (fun _ h => h) (by omega)

end StoresAsked

theorem requestStore_of_room {s : State} (r : StoreReq) (room : s.st.queue.length < storeCap) :
    s.requestStore r = ((s.joined r).startStores, true) := by
  have pushed : s.pushStore r = ((s.joined r).startStores, true) := if_neg (Nat.not_le.mpr room)
  unfold State.requestStore
  rw [pushed]
  rfl

theorem joined_startStores_asks (s : State) (r : StoreReq) : StoresAsked Part.asked 1 s (s.joined r).startStores where
  touched := (State.startStores_touches _).chain (by decide) (Touches.set_st (Touches.rfl' _ s) (by decide))
  queue := (State.startStores_started _).shorter.trans_eq (List.length_append ..)

theorem storeSealed_asks {s : State} (p : Payload) (who : Waiter) (room : s.st.queue.length < storeCap) :
    StoresAsked Part.asked 1 s (s.storeSealed p who).1 := by
  unfold State.storeSealed
  rw [requestStore_of_room _ room]
  exact (joined_startStores_asks s _).step (State.inc_touches ..)

theorem storePn_asks {s : State} (a : Nat) (r : PnRec) (who : Waiter) (room : s.st.queue.length < storeCap) :
    StoresAsked Part.asked 1 s (s.storePn a r who).1 := by
  unfold State.storePn
  rw [requestStore_of_room _ room]
  have conveyed (x : State) (kind mark : Nat) {c : Prop} [Decidable c] : Touches [.yok, .out] x (if c then x.conveyMark kind a mark else x) :=
    .ite (State.conveyMark_touches ..) (Touches.rfl' _ _)
  exact ((joined_startStores_asks s _).step (conveyed ..)).step (conveyed ..)

/-- The records of associations that no longer persist are freed (R402). -/
theorem freeRecords_asks {s : State} (room : s.st.queue.length + s.asc.recOf.length ≤ storeCap) :
    StoresAsked Part.asked s.asc.recOf.length s s.freeRecords := by
  refine StoresAsked.foldl _ s (fun x e room => ?_) room
  split
  · exact StoresAsked.refl ..
  · extract_lets keeps asked
    split
    · exact StoresAsked.refl ..
    · exact storeSealed_asks _ _ room

/-! ## Lines with low MINOR (R294 to R296) -/

/-- No line has a MINOR of n or more. -/
def State.MinorsBelow (s : State) (n : Nat) : Prop := ∀ l, (s.gline l).minor < n

theorem minorsBelow_of_room {s : State} (room : s.HbmRoom) : s.MinorsBelow 128 := by
  intro l
  unfold State.gline SMap.get
  cases listed : List.lookup l s.mgd.lines with
  | none => exact Nat.zero_lt_succ _
  | some v =>
    obtain ⟨before, after, lines, -⟩ := List.lookup_eq_some_iff.mp listed
    have low := room.2 (l, v) (by rw [lines]; simp)
    cases v with
    | none => exact Nat.zero_lt_succ _
    | some x => exact low

/-- From s to t lines have been written in full, and no more: no line of t has a MINOR of n or more. -/
structure LinesWritten (n : Nat) (s t : State) : Prop where
  touched : Touches [.cnt, .mgd, .out] s t
  below : t.MinorsBelow n

theorem State.MinorsBelow.mono {s : State} {m n : Nat} (h : s.MinorsBelow m) (le : m ≤ n) : s.MinorsBelow n :=
  fun l => (h l).trans_le le

theorem gline_setLine (s : State) (l j : Nat) (x : GLine) : (s.setLine l x).gline j = if j = l then x else s.gline j := by
  unfold State.gline State.setLine
  dsimp only
  rw [SMap.get_set]
  by_cases same : j = l
  · rw [if_pos same, if_pos same]
    split
    · next zero => exact zero.symm
    · rfl
  · rw [if_neg same, if_neg same]

theorem bumpRoot_lines (s : State) (r : Nat) : (s.bumpRoot r).mgd.lines = s.mgd.lines := by
  unfold State.bumpRoot
  extract_lets m
  split <;> rfl

theorem State.MinorsBelow.of_lines {s t : State} {n : Nat} (h : s.MinorsBelow n) (lines : t.mgd.lines = s.mgd.lines) : t.MinorsBelow n := by
  intro l
  unfold State.gline
  rw [lines]
  exact h l

/-- A full write raises one MINOR by 1 (R294), or is refused with its domain. -/
theorem writeLine_writes {s : State} {n : Nat} (low : s.MinorsBelow n) (le : n ≤ 255) (d : Domain) (l : Nat) (data : List Byte) (q : Nat) :
    LinesWritten (n + 1) s (s.writeLine d l data .good q).1 := by
  unfold State.writeLine
  dsimp only
  split
  · exact ⟨(State.mgdCount_touches ..).mono (by decide), (low.mono (Nat.le_succ n)).of_lines rfl⟩
  · rw [if_pos ((low l).trans_le le), if_neg (by decide)]
    refine ⟨?_, ?_⟩
    · exact (State.emitLine_touches ..).chain (by decide) ((State.mgdCount_touches ..).chain (by decide)
        ((State.bumpRoot_touches ..).chain (by decide) ((State.setLine_touches ..).mono (by decide))))
    · have raised : (s.setLine l ⟨data, (s.gline l).minor + 1, false⟩).MinorsBelow (n + 1) := by
        intro j
        rw [gline_setLine]
        split
        · exact Nat.succ_lt_succ (low l)
        · exact (low j).trans (Nat.lt_succ_self n)
      exact raised.of_lines (bumpRoot_lines ..)

/-- Lines written one after another. -/
theorem foldl_writeLine_writes (d : Domain) (line : Nat → Nat) (data : Nat → List Byte) (q : Nat) (is : List Nat) {s : State} {n : Nat}
    (low : s.MinorsBelow n) (le : n + is.length ≤ 255) :
    LinesWritten (n + is.length) s (is.foldl (fun s i => (s.writeLine d (line i) (data i) .good q).1) s) := by
  induction is generalizing s n with
  | nil => exact ⟨Touches.rfl' _ _, low⟩
  | cons i is ih =>
    rw [List.length_cons] at le ⊢
    have first := writeLine_writes low (by omega) d (line i) (data i) q
    obtain ⟨touched, below⟩ := ih first.below (by omega)
    exact ⟨first.touched.trans touched, below.mono (by omega)⟩

/-- A context's write-back writes 8 lines (R306). -/
theorem writeBack_writes {s : State} {n : Nat} (low : s.MinorsBelow n) (le : n + 8 ≤ 255) (a : Nat) :
    LinesWritten (n + 8) s (s.writeBack a) := by
  have unwritten : LinesWritten (n + 8) s s := ⟨Touches.rfl' _ _, low.mono (by omega)⟩
  unfold State.writeBack
  split
  · split
    · exact unwritten
    · exact foldl_writeLine_writes _ _ _ _ (List.range 8) low le
  · exact unwritten

/-- A context that enters the cache, and the one that leaves it, are all that changes but for HBM (R306). -/
theorem cachePut_writes {s : State} {n : Nat} (low : s.MinorsBelow n) (le : n + 8 ≤ 255) (a : Nat) :
    ∃ cache t, s.cachePut a = { t with asc := { s.asc with cache := cache } } ∧ LinesWritten (n + 8) s t := by
  have unwritten : LinesWritten (n + 8) s s := ⟨Touches.rfl' _ _, low.mono (by omega)⟩
  unfold State.cachePut
  extract_lets cap cached entered written
  split
  · exact ⟨_, s, rfl, unwritten⟩
  · have writes : LinesWritten (n + 8) s written := by
      unfold written
      split
      · split
        · exact writeBack_writes low le _
        · exact unwritten
      · exact unwritten
    have kept : written.asc = s.asc := writes.touched.asc (by decide)
    refine ⟨(a :: cached).take cap, written, ?_, writes⟩
    show ({ written with asc := { written.asc with cache := (a :: cached).take cap } } : State) = _
    rw [kept]

/-- A context command's commit into the cache and HBM leaves the contexts, the sealed records and the store queue (R306). -/
theorem commitCtx_of_room {s : State} (room : s.HbmRoom) (a : Nat) :
    Touches [.cnt, .mgd, .asc, .out] s (s.commitCtx a) ∧ ∃ cache, (s.commitCtx a).asc = { s.asc with cache := cache } := by
  obtain ⟨cache, t, put, wrote⟩ := cachePut_writes (minorsBelow_of_room room) (by decide) a
  have low : (s.cachePut a).MinorsBelow 136 := by
    rw [put]
    exact wrote.below
  have back := (writeBack_writes low (by decide) a).touched
  have entered : Touches [.cnt, .mgd, .asc, .out] s (s.cachePut a) := by
    rw [put]
    exact Touches.set_asc (wrote.touched.mono (by decide)) (by decide)
  exact ⟨back.chain (by decide) entered, cache, (back.asc (by decide)).trans (by rw [put])⟩

end Sys2Proof.Machine
end

section
/-! A twin that mutes: what recording, storing and reporting leave of the mute, and divergence on a follower (R443, R444). -/

namespace Sys2Proof.Machine

open Sys2Proof

/-! ## What leaves the mute (R444) -/

/-- From s to t neither the mode with the rest of the control state nor the Yoke's mute has changed. -/
structure KeepsMute (s t : State) : Prop where
  ctl : t.ctl = s.ctl
  muted : t.yok.muted = s.yok.muted

namespace KeepsMute

theorem refl (s : State) : KeepsMute s s := ⟨rfl, rfl⟩

theorem trans {s t u : State} (h : KeepsMute s t) (k : KeepsMute t u) : KeepsMute s u := ⟨k.ctl.trans h.ctl, k.muted.trans h.muted⟩

theorem of_touches {m : List Part} {s t : State} (h : Touches m s t) (ctl : Part.ctl ∉ m := by decide) (yok : Part.yok ∉ m := by decide) :
    KeepsMute s t := ⟨h.ctl ctl, by rw [h.yok yok]⟩

theorem ite {s a b : State} {c : Prop} [Decidable c] (h : KeepsMute s a) (k : KeepsMute s b) : KeepsMute s (if c then a else b) := by
  split <;> assumption

theorem foldl {α : Type} {f : State → α → State} (l : List α) (s : State) (h : ∀ x a, KeepsMute x (f x a)) : KeepsMute s (l.foldl f s) := by
  induction l generalizing s with
  | nil => exact refl s
  | cons a l ih => exact (h s a).trans (ih (f s a))

theorem suspectAfter (s : State) (code level : Nat) : KeepsMute s (s.suspectAfter code level) := ite ⟨rfl, rfl⟩ (refl s)

theorem noteAt (s : State) (t : Nat × Nat × Bool) (c l a : Nat) (o : List Nat) (ps : List Byte) : KeepsMute s (s.noteAt t c l a o ps) := by
  have core (x : State) (c l a : Nat) (o : List Nat) (ps : List Byte) : KeepsMute x (x.noteCore t c l a o ps).1 :=
    of_touches (State.noteCore_touches ..)
  unfold State.noteAt
  extract_lets suspected carried
  split
  next recorded lost dropped made =>
  have h : KeepsMute s recorded := (suspectAfter ..).trans (by simpa only [made] using core suspected c l a o carried)
  extract_lets told led stamped
  have k : KeepsMute s told := ite (h.trans (core ..)) h
  exact ite (k.trans (trans (t := stamped) ⟨rfl, rfl⟩ (core ..))) k

theorem note (s : State) (e : EvKind) (ps : List Byte) : KeepsMute s (s.note e ps) := noteAt ..

theorem defer (s : State) (r : StoreReq) : KeepsMute s (s.defer r) := by
  unfold State.defer
  extract_lets st marked counted
  exact ite (refl s) (trans (t := counted) ⟨rfl, rfl⟩ (note ..))

theorem tryMram (s : State) (r : StoreReq) : KeepsMute s (s.tryMram r) := by
  unfold State.tryMram
  split
  · exact refl s
  · exact ite ⟨rfl, rfl⟩ (defer s r)

theorem startMram (s : State) : KeepsMute s s.startMram := by
  unfold State.startMram
  refine ite (refl s) (ite (foldl _ s tryMram) ?_)
  split
  · exact refl s
  · exact tryMram ..

theorem startNor (s : State) : KeepsMute s s.startNor := by
  unfold State.startNor
  split
  · exact refl s
  · split
    · exact refl s
    · exact ite ⟨rfl, rfl⟩ (defer ..)

theorem requestStore {s : State} (r : StoreReq) (room : s.st.queue.length < storeCap) : KeepsMute s (s.requestStore r).1 := by
  rw [requestStore_of_room r room]
  exact (trans (s := s) (t := s.joined r) ⟨rfl, rfl⟩ (startMram _)).trans (startNor _)

theorem storeStale {s : State} (b : Bool) (room : s.st.queue.length < storeCap) : KeepsMute s (s.storeStale b) :=
  ite (refl s) (requestStore _ room)

theorem fillCells (s : State) (n : Nat) : KeepsMute s (s.fillCells n) := by
  induction n generalizing s with
  | zero => exact refl s
  | succ n ih =>
    unfold State.fillCells
    refine ite (refl s) ?_
    split
    · exact refl s
    · refine trans ⟨?_, ?_⟩ (ih _)
      · exact (State.emitCell_touches ..).ctl (by decide)
      · rw [emitCell_yok]

theorem sendDithal (s : State) (channel : Nat) (bs : List Byte) : KeepsMute s (s.sendDithal channel bs) := by
  unfold State.sendDithal
  extract_lets parts sent yok
  refine ite (trans ?_ (fillCells ..)) (refl s)
  exact ⟨rfl, rfl⟩

theorem reportState (s : State) : KeepsMute s s.reportState := ite (sendDithal ..) (refl s)

end KeepsMute

/-! ## A follower that diverges (R443, R444) -/

/-- A twin that resyncs, muted (T12). -/
structure State.ResyncsMuted (s : State) : Prop where
  mode : s.ctl.mode = .yokeResync
  muted : s.yok.muted = true

theorem State.ResyncsMuted.kept {s t : State} (h : s.ResyncsMuted) (k : KeepsMute s t) : t.ResyncsMuted :=
  ⟨by rw [k.ctl]; exact h.mode, k.muted.trans h.muted⟩

/-- The stream ends: what was in hand is dropped, and the twin has the mode of a resync. -/
theorem discardFrames_startStream_ctl (s : State) : (s.discardFrames.startStream).ctl = s.ctl :=
  ((State.startStream_touches _).ctl (by decide)).trans ((State.discardFrames_touches s).ctl (by decide))

theorem discardFrames_startStream_st (s : State) : (s.discardFrames.startStream).st = s.st :=
  ((State.startStream_touches _).st (by decide)).trans ((State.discardFrames_touches s).st (by decide))

/-- STALE is stored and the twin reports, whatever is counted and recorded between. -/
theorem holdStale_keepsMute {s : State} (room : s.st.queue.length < storeCap) : KeepsMute s ((s.storeStale true).holdYoke true) :=
  (KeepsMute.storeStale true room).trans (.of_touches (State.holdYoke_touches ..))

theorem beginResync_resyncs {s : State} (mode : s.ctl.mode = .yokeResync) (room : s.st.queue.length < storeCap) :
    s.beginResync.ResyncsMuted := by
  unfold State.beginResync
  extract_lets dropped yok muting stored
  have muted : muting.ResyncsMuted := ⟨by rw [← mode]; exact congrArg Control.mode (discardFrames_startStream_ctl s), rfl⟩
  have st : muting.st = s.st := discardFrames_startStream_st s
  have kept : KeepsMute muting stored :=
    (holdStale_keepsMute (by rw [st]; exact room)).trans (.of_touches (State.inc_touches ..))
  exact muted.kept ((kept.trans (.note ..)).trans (.reportState _))

theorem divertResync_resyncs {s : State} (room : s.st.queue.length < storeCap) : s.divertResync.ResyncsMuted := by
  have moved : (s.setMode .yokeResync).st = s.st := (State.setMode_touches ..).st (by decide)
  unfold State.divertResync
  split
  · unfold State.enterResync
    exact beginResync_resyncs (setMode_mode ..) (by show (s.setMode _).st.queue.length < _; rw [moved]; exact room)
  · extract_lets dropped ctl yok muting
    have mode : dropped.ctl.mode = .yokeResync := (congrArg Control.mode (discardFrames_startStream_ctl _)).trans (setMode_mode ..)
    have st : dropped.st = s.st := (discardFrames_startStream_st _).trans moved
    clear_value dropped
    have muted : muting.ResyncsMuted := ⟨mode, rfl⟩
    exact muted.kept ((holdStale_keepsMute (by rw [← st] at room; exact room)).trans (.reportState _))

/-- A malformed item makes a follower resync, muted (R443 class 5). -/
theorem declareClass_five_resyncs {s : State} (follower : s.ctl.mode = .yokeFollower) (room : s.st.queue.length < storeCap) :
    (s.declareClass 5).ResyncsMuted := by
  unfold State.declareClass
  extract_lets recorded told
  have same : told = recorded := if_neg (by decide)
  have ctl : told.ctl = s.ctl := by rw [same]; exact (State.recordDivergence_touches ..).ctl (by decide)
  have st : (told.note Ev.yokeDiverged).st = s.st := by
    rw [(State.note_touches ..).st (by decide), same]
    exact (State.recordDivergence_touches ..).st (by decide)
  rw [if_pos (by rw [ctl]; exact follower)]
  exact divertResync_resyncs (by rw [st]; exact room)

end Sys2Proof.Machine
end

section
/-! Items of the decision stream on a follower (R426 to R430): what each does to the state it is about. -/

namespace Sys2Proof.Machine

open Sys2Proof

/-! ## The gate of the decision stream (R426) -/

theorem decision_of_notFollower {s : State} (alone : s.isFollower = false) (ok : Bool) (act : State → State) : s.decision ok act = s :=
  if_pos alone

section

variable {s : State} (follower : s.ctl.mode = .yokeFollower)
include follower

theorem isFollower_of_follower : s.isFollower = true := by
  unfold State.isFollower
  rw [follower]
  rfl

theorem decision_of_ok {ok : Bool} (wellFormed : ok = true) (act : State → State) :
    s.decision ok act = act (s.inc (Reg.yokCountLo 4)) :=
  (if_neg (by simp [isFollower_of_follower follower])).trans (if_pos wellFormed)

theorem applies_of_follower (table i : Nat) : s.applies table i = true := by
  unfold State.applies
  rw [follower]
  rfl

end

/-! ## Classifier and SCI entries (R239, R339, R437) -/

/-- An entry that was waited for has come. -/
def State.repaired (s : State) (i : Nat) : State := if s.yok.repair = some i then { s with yok := { s.yok with repair := none } } else s

theorem repaired_repair (s : State) (i : Nat) :
    (s.repaired i).yok.repair = if s.yok.repair = some i then none else s.yok.repair := by
  unfold State.repaired
  split <;> rfl

theorem repaired_altAt (s : State) (i j : Nat) : (s.repaired i).altAt j = s.altAt j := by
  unfold State.repaired
  split <;> rfl

theorem repaired_ctl (s : State) (i : Nat) : (s.repaired i).ctl = s.ctl := by
  unfold State.repaired
  split <;> rfl

theorem takeAlt_altAt_same (s : State) (i : Nat) (b : List Byte) : (s.takeAlt i b).altAt i = altOfItem b := SMap.get_set_self ..

theorem takeAlt_altAt_ne (s : State) {i j : Nat} (b : List Byte) (other : j ≠ i) : (s.takeAlt i b).altAt j = s.altAt j :=
  SMap.get_set_ne _ _ _ _ _ other

theorem takeSci_sciAt_same (s : State) (i : Nat) (b : List Byte) : (s.takeSci i b).sciAt i = sciOfItem b := SMap.get_set_self ..

theorem takeSci_sciAt_ne (s : State) {i j : Nat} (b : List Byte) (other : j ≠ i) : (s.takeSci i b).sciAt j = s.sciAt j :=
  SMap.get_set_ne _ _ _ _ _ other

/-! ## Contexts (R308, R310, R339) -/

/-- The context of one association is x, the others are as they were. -/
structure State.HasCtx (s t : State) (a : Nat) (x : Option Ctx) : Prop where
  same : t.ctx a = x
  others : ∀ b, b ≠ a → t.ctx b = s.ctx b

theorem hasCtx_setCtx (s : State) (a : Nat) (x : Option Ctx) : s.HasCtx (s.setCtx a x) a x :=
  ⟨ctx_setCtx_same .., fun _ other => ctx_setCtx_ne _ _ other⟩

theorem State.HasCtx.of_ctxs {s t u : State} {a : Nat} {x : Option Ctx} (h : s.HasCtx t a x) (ctxs : u.asc.ctxs = t.asc.ctxs) :
    s.HasCtx u a x := by
  have same (b : Nat) : u.ctx b = t.ctx b := by
    unfold State.ctx
    rw [ctxs]
  exact ⟨(same a).trans h.same, fun b other => (same b).trans (h.others b other)⟩

theorem freeRecords_asc {s : State} (room : s.StoreRoom 0) : s.freeRecords.asc = s.asc := (freeRecords_asks room).touched.asc (by decide)

theorem ascCommitItem_create (s : State) (a arg : Nat) (b : List Byte) : s.ascCommitItem a 2 arg b =
    ((s.setCtx a (some (Ctx.create (b ++ zeroBytes 384) (arg % 2)))).commitCtx a).persistOwn a (Ctx.create (b ++ zeroBytes 384) (arg % 2)) := rfl

/-- A context that a follower creates without PERSIST: only the cache, HBM and the records that may be freed follow. -/
theorem commitCtx_persistOwn_hasCtx {s : State} (hbm : s.HbmRoom) (room : s.StoreRoom 0) (a : Nat) {x : Ctx} (volatile : x.persist = false) :
    s.HasCtx (((s.setCtx a (some x)).commitCtx a).persistOwn a x) a (some x) := by
  obtain ⟨touched, cache, asc⟩ := commitCtx_of_room (s := s.setCtx a (some x)) hbm a
  have committed : s.HasCtx ((s.setCtx a (some x)).commitCtx a) a (some x) := (hasCtx_setCtx s a (some x)).of_ctxs (by rw [asc])
  have roomLeft : ((s.setCtx a (some x)).commitCtx a).StoreRoom 0 := by
    unfold State.StoreRoom
    rw [touched.st (by decide), asc]
    exact room
  unfold State.persistOwn
  rw [if_neg (by simp [volatile])]
  exact committed.of_ctxs (by rw [freeRecords_asc roomLeft])

theorem ascCommitItem_deletes {s : State} (room : s.StoreRoom 0) {a : Nat} {c : Ctx} (known : s.ctx a = some c) (arg : Nat) (b : List Byte) :
    s.HasCtx (s.ascCommitItem a 4 arg b) a none := by
  unfold State.ascCommitItem
  rw [known]
  refine (hasCtx_setCtx s a none).of_ctxs ((congrArg Asc.ctxs (freeRecords_asc ?_)).trans rfl)
  exact room

theorem ascEventItem_clearsWait {s : State} {a : Nat} {c : Ctx} (known : s.ctx a = some c) (k : Nat) :
    s.ascEventItem a 5 k = s.setCtx a (some { c with txWait := false, txMark := max c.txMark (s.pnRec a).txMark }) := by
  unfold State.ascEventItem
  rw [known]
  rfl

/-! ## Key slots (R386, R402, R410) -/

/-- Slot c is Loaded with the masked key, the other slots are as they were. -/
structure State.HasKey (s t : State) (c : Nat) (key : List Byte) : Prop where
  key : (t.slot c).map (·.key) = some key
  usable : t.slotUsable c = true
  others : ∀ d, d ≠ c → t.slot d = s.slot d

theorem State.HasKey.of_slots {s t u : State} {c : Nat} {key : List Byte} (h : s.HasKey t c key) (slots : u.kvt.slots = t.kvt.slots) :
    s.HasKey u c key := by
  have same (d : Nat) : u.slot d = t.slot d := by
    unfold State.slot
    rw [slots]
  refine ⟨by rw [same]; exact h.key, ?_, fun d other => (same d).trans (h.others d other)⟩
  unfold State.slotUsable
  rw [same]
  exact h.usable

theorem slot_setSlot_same (s : State) (c : Nat) (k : Option KeySlot) : (s.setSlot c k).slot c = k := SMap.get_set_self ..

theorem slot_setSlot_ne (s : State) {c d : Nat} (k : Option KeySlot) (other : d ≠ c) : (s.setSlot c k).slot d = s.slot d :=
  SMap.get_set_ne _ _ _ _ _ other

theorem setSlot_hasKey {s t : State} (slots : t.kvt.slots = s.kvt.slots) {c : Nat} {k : KeySlot} {key : List Byte} (loaded : k.st = .loaded)
    (masked : k.key = key) : s.HasKey (t.setSlot c (some k)) c key := by
  have same (d : Nat) : t.slot d = s.slot d := by
    unfold State.slot
    rw [slots]
  refine ⟨by rw [slot_setSlot_same, ← masked]; rfl, ?_, fun d other => (slot_setSlot_ne _ _ other).trans (same d)⟩
  unfold State.slotUsable KeySlot.usable
  rw [slot_setSlot_same]
  simp [loaded]

theorem installKey_hasKey (s : State) (c : Nat) (key : List Byte) (a : Word) :
    s.HasKey (s.installKey c key a) c (maskedKey s.storeMask c (slice key 0 (attrBytes a))) := by
  unfold State.installKey
  extract_lets inflight cut updated
  have loaded : s.HasKey updated c (maskedKey s.storeMask c cut) :=
    setSlot_hasKey (s := s) (t := s.updateCopies c cut) (k := ⟨.loaded, maskedKey s.storeMask c cut, _, _, _, _, _, _, _, _⟩) rfl rfl rfl
  split
  · exact loaded.of_slots (by rw [(State.modCtx_touches ..).kvt (by decide)])
  · exact loaded

/-- What a request with a context's change may touch. -/
def Part.marked : List Part := .asc :: Part.asked

theorem setCtx_storePn_asks {s : State} (a : Nat) (c : Option Ctx) (r : PnRec) (who : Waiter) (room : s.st.queue.length < storeCap) :
    StoresAsked Part.marked 1 s ((s.setCtx a c).storePn a r who).1 := by
  obtain ⟨touched, queue⟩ := storePn_asks (s := s.setCtx a c) a r who room
  exact ⟨touched.chain (by decide) ((State.setCtx_touches ..).mono (by decide)), queue⟩

theorem askRxMark_asks {s : State} (a : Nat) (room : s.st.queue.length < storeCap) : StoresAsked Part.marked 1 s (s.askRxMark a) := by
  unfold State.askRxMark
  split
  · exact StoresAsked.refl ..
  · next c known =>
    split
    · exact StoresAsked.refl ..
    · extract_lets asked
      have stored := setCtx_storePn_asks a (some { c with rxAsked := true }) { asked.pnRec a with rxMark := c.rxMark + 2 ^ asked.reserveExp }
        .nobody room
      split
      next t ok made =>
      rw [made] at stored
      split
      · exact stored
      · exact stored.step (State.modCtx_touches ..)

theorem setCtx_askRxMark_asks {s : State} (a : Nat) (c : Option Ctx) (room : s.st.queue.length < storeCap) :
    StoresAsked Part.marked 1 s ((s.setCtx a c).askRxMark a) := by
  obtain ⟨touched, queue⟩ := askRxMark_asks (s := s.setCtx a c) a room
  exact ⟨touched.chain (by decide) ((State.setCtx_touches ..).mono (by decide)), queue⟩

/-- A receive slot that starts requests at most one record (R321). -/
theorem startRxSa_asks {s : State} (a k : Nat) (who : Waiter) (room : s.st.queue.length < storeCap) :
    StoresAsked Part.marked 1 s (s.startRxSa a k who).1 := by
  unfold State.startRxSa
  split
  · exact StoresAsked.refl ..
  · extract_lets fp r
    split
    · split
      · exact setCtx_askRxMark_asks _ _ room
      · exact setCtx_storePn_asks _ _ _ _ room
    · exact setCtx_storePn_asks _ _ _ _ room

theorem sealRec_slots (s : State) (kind id : Nat) (attr : Word) (pt : List Byte) : (s.sealRec kind id attr pt).2.kvt.slots = s.kvt.slots := by
  unfold State.sealRec
  split
  next k t drawn =>
  cases drawn
  extract_lets iv magic aad
  split
  rfl

/-- A slot's sealed record is stored or cleared: no slot changes (R402). -/
theorem sealSlot_slots {s : State} (c : Nat) (key : List Byte) (a : Word) (who : Waiter) (room : s.st.queue.length < storeCap) :
    (s.sealSlot c key a who).1.kvt.slots = s.kvt.slots := by
  have stored (p : Payload) {t : State} (room : t.st.queue.length < storeCap) : (t.storeSealed p who).1.kvt.slots = t.kvt.slots := by
    rw [(storeSealed_asks p who room).touched.kvt (by decide)]
  unfold State.sealSlot
  split
  · have sealed := sealRec_slots s 1 (slotWord c) (setBits (a &&& attrMask) 31 29 1) (slice key 0 32)
    have same := (State.sealRec_touches s 1 (slotWord c) (setBits (a &&& attrMask) 31 29 1) (slice key 0 32)).st (by decide)
    split
    next r t made =>
    rw [made] at sealed same
    exact (stored _ (by rw [same]; exact room)).trans sealed
  · split
    · exact stored _ room
    · rfl

/-- The lead's key of a slot, unwrapped, is loaded there (R410). -/
theorem kvtCommitItem_hasKey {s : State} {c op : Nat} {attr : Word} {wrapped key : List Byte} (loads : op ≠ 2)
    (unwrapped : Config.kwUnwrap (s.keyOf pairKeySlot) wrapped = some key) (room : s.st.queue.length + 2 ≤ storeCap) :
    s.HasKey (s.kvtCommitItem c op attr wrapped) c (maskedKey s.storeMask c (slice key 0 (attrBytes attr))) := by
  unfold State.kvtCommitItem
  rw [if_neg loads, unwrapped]
  dsimp -zeta only
  extract_lets counted started
  have counted_touched : Touches [.asc, .cph, .kvt, .cnt] s counted :=
    (State.inc_touches ..).chain (by decide) ((State.installKey_touches ..).mono (by decide))
  have st : counted.st = s.st := counted_touched.st (by decide)
  have asked : StoresAsked Part.marked 1 counted started := by
    unfold started
    split
    · split
      · exact startRxSa_asks _ _ _ (by rw [st]; omega)
      · exact StoresAsked.refl ..
    · exact StoresAsked.refl ..
  have queue := asked.queue
  rw [st] at queue
  refine (installKey_hasKey s c key attr).of_slots ?_
  rw [sealSlot_slots _ _ _ _ (by omega), asked.touched.kvt (by decide)]
  rfl

/-- A key that does not unwrap makes the follower resync, muted (R443). -/
theorem kvtCommitItem_resyncs {s : State} {c op : Nat} {attr : Word} {wrapped : List Byte} (loads : op ≠ 2)
    (refused : Config.kwUnwrap (s.keyOf pairKeySlot) wrapped = none) (follower : s.ctl.mode = .yokeFollower)
    (room : s.st.queue.length < storeCap) : (s.kvtCommitItem c op attr wrapped).ResyncsMuted := by
  unfold State.kvtCommitItem
  rw [if_neg loads, refused]
  exact declareClass_five_resyncs follower room

end Sys2Proof.Machine
end

section
/-! Row items of the decision stream on a follower (R200, R338), and what each item of the stream comes to there. -/

namespace Sys2Proof.Machine

open Sys2Proof

/-! ## Pairs that take the lead's APS state (R200) -/

theorem pair_of_some {s : State} {k : Nat} {q : Pair} (h : s.rows.pairs[k]? = some q) : s.pair k = q := by
  unfold State.pair
  rw [List.getD_eq_getElem?_getD, h]
  rfl

theorem pair_of_none {s : State} {k : Nat} (h : s.rows.pairs[k]? = none) : s.pair k = Pair.reset := by
  unfold State.pair
  rw [List.getD_eq_getElem?_getD, h]
  rfl

/-- Selector and bridge of a pair, what it sends, and the states it has still to take. -/
def Pair.switching (p : Pair) : Nat × Nat × Nat × Nat × List ApsState := (p.selector, p.bridge, p.sent, p.sentSig, p.ahead)

/-- A selector that changes changes its pair alone, and the number of the first sheaf it takes (R190). -/
theorem switchSelector_rows {s : State} {k sel : Nat} (change : sel ≠ (s.pair k).selector) (req : Nat) :
    ∃ next, (s.switchSelector k sel req).rows = (s.setPair k (fun p => { p with selector := sel, nextSheaf := next })).rows := by
  unfold State.switchSelector
  dsimp only
  rw [if_neg change, (State.note_touches ..).rows (by decide), (State.wr_touches ..).rows (by decide)]
  exact ⟨_, rfl⟩

theorem switchSelector_same (s : State) (k sel req : Nat) :
    ((s.switchSelector k sel req).rows.pairs[k]?).map Pair.switching =
      (s.rows.pairs[k]?).map (fun p => { p with selector := sel }.switching) := by
  by_cases same : sel = (s.pair k).selector
  · rw [show s.switchSelector k sel req = s from if_pos same]
    cases h : s.rows.pairs[k]? with
    | none => rfl
    | some q =>
      rw [pair_of_some h] at same
      subst same
      rfl
  · obtain ⟨next, rows⟩ := switchSelector_rows same req
    rw [rows, getElem?_setPair_same, Option.map_map]
    rfl

theorem switchSelector_ne (s : State) {j k : Nat} (other : j ≠ k) (sel req : Nat) :
    (s.switchSelector k sel req).rows.pairs[j]? = s.rows.pairs[j]? := by
  by_cases same : sel = (s.pair k).selector
  · rw [show s.switchSelector k sel req = s from if_pos same]
  · obtain ⟨next, rows⟩ := switchSelector_rows same req
    rw [rows, getElem?_setPair_ne _ _ other]

/-- The states of pair k whose sheaf is still to come stay ahead. -/
def State.aheadLeft (s : State) (k : Nat) : State :=
  s.setPair k (fun p => { p with ahead := p.ahead.filter (fun x => decide (s.line.sheaf < x.sheaf)) })

/-- Pair k takes a state of its lead. -/
def State.takeAps (s : State) (k : Nat) (x : ApsState) : State :=
  (s.setPair k (fun p => { p with bridge := x.bridge, sent := x.req, sentSig := x.sig })).switchSelector k x.selector x.req

theorem apsDue_eq (s : State) (k : Nat) : s.apsDue k =
    ((s.pair k).ahead.filter (fun x => decide (x.sheaf ≤ s.line.sheaf))).foldl (fun s x => s.takeAps k x) (s.aheadLeft k) := rfl

theorem takeAps_ne (s : State) {j k : Nat} (other : j ≠ k) (x : ApsState) : (s.takeAps k x).rows.pairs[j]? = s.rows.pairs[j]? :=
  (switchSelector_ne _ other _ _).trans (getElem?_setPair_ne _ _ other)

theorem takeAps_same (s : State) (k : Nat) (x : ApsState) : ((s.takeAps k x).rows.pairs[k]?).map Pair.switching =
    (s.rows.pairs[k]?).map (fun p => (x.selector, x.bridge, x.req, x.sig, p.ahead)) := by
  unfold State.takeAps
  rw [switchSelector_same, getElem?_setPair_same, Option.map_map]
  rfl

theorem apsDue_ne (s : State) {j k : Nat} (other : j ≠ k) : (s.apsDue k).rows.pairs[j]? = s.rows.pairs[j]? := by
  rw [apsDue_eq, ← getElem?_setPair_ne s (fun p => { p with ahead := p.ahead.filter (fun x => decide (s.line.sheaf < x.sheaf)) }) other]
  change _ = (s.aheadLeft k).rows.pairs[j]?
  generalize s.aheadLeft k = t
  induction (s.pair k).ahead.filter _ generalizing t with
  | nil => rfl
  | cons x xs ih => exact (ih _).trans (takeAps_ne _ other x)

/-- Pair k with one more state ahead. -/
def State.withAps (s : State) (k : Nat) (x : ApsState) : State := s.setPair k (fun p => { p with ahead := p.ahead ++ [x] })

section

variable {s : State} {k : Nat} (clear : (s.pair k).ahead = []) (x : ApsState)
include clear

theorem withAps_pair : (s.withAps k x).rows.pairs[k]? = (s.rows.pairs[k]?).map (fun p => { p with ahead := [x] }) := by
  rw [State.withAps, getElem?_setPair_same]
  cases h : s.rows.pairs[k]? with
  | none => rfl
  | some q =>
    rw [pair_of_some h] at clear
    rw [Option.map_some, Option.map_some, clear]
    rfl

theorem aheadLeft_withAps_pair : ((s.withAps k x).aheadLeft k).rows.pairs[k]? = (s.rows.pairs[k]?).map (fun p =>
    { p with ahead := [x].filter (fun y : ApsState => decide (s.line.sheaf < y.sheaf)) }) := by
  rw [State.aheadLeft, getElem?_setPair_same, withAps_pair clear x, Option.map_map]
  rfl

theorem apsDue_withAps {q : Pair} (present : s.rows.pairs[k]? = some q) : (s.withAps k x).apsDue k =
    ([x].filter (fun y : ApsState => decide (y.sheaf ≤ s.line.sheaf))).foldl (fun s y => s.takeAps k y) ((s.withAps k x).aheadLeft k) := by
  rw [apsDue_eq, pair_of_some (by rw [withAps_pair clear x, present]; rfl)]
  rfl

theorem apsDue_withAps_absent (absent : s.rows.pairs[k]? = none) : ((s.withAps k x).apsDue k).rows.pairs[k]? = none := by
  rw [apsDue_eq, pair_of_none (by rw [withAps_pair clear x, absent]; rfl)]
  exact (aheadLeft_withAps_pair clear x).trans (by rw [absent]; rfl)

/-- A state whose sheaf has begun is taken at once. -/
theorem apsDue_takes (due : x.sheaf ≤ s.line.sheaf) : (((s.withAps k x).apsDue k).rows.pairs[k]?).map Pair.switching =
    (s.rows.pairs[k]?).map (fun _ => (x.selector, x.bridge, x.req, x.sig, [])) := by
  cases h : s.rows.pairs[k]? with
  | none => rw [apsDue_withAps_absent clear x h]; rfl
  | some q =>
    have begun : [x].filter (fun y : ApsState => decide (y.sheaf ≤ s.line.sheaf)) = [x] := by simp [due]
    have noneLeft : [x].filter (fun y : ApsState => decide (s.line.sheaf < y.sheaf)) = [] := by simpa using due
    rw [apsDue_withAps clear x h, begun]
    refine (takeAps_same _ k x).trans ?_
    rw [aheadLeft_withAps_pair clear x, h, noneLeft]
    rfl

/-- A state whose sheaf is to come waits for it. -/
theorem apsDue_waits (early : s.line.sheaf < x.sheaf) : ((s.withAps k x).apsDue k).rows.pairs[k]? =
    (s.rows.pairs[k]?).map (fun p => { p with ahead := [x] }) := by
  cases h : s.rows.pairs[k]? with
  | none => exact apsDue_withAps_absent clear x h
  | some q =>
    have noneBegun : [x].filter (fun y : ApsState => decide (y.sheaf ≤ s.line.sheaf)) = [] := by simpa using early
    have kept : [x].filter (fun y : ApsState => decide (s.line.sheaf < y.sheaf)) = [x] := by simp [early]
    rw [apsDue_withAps clear x h, noneBegun]
    refine (aheadLeft_withAps_pair clear x).trans ?_
    rw [h, kept]

end

/-! ## What each item comes to on a follower (R426 to R430) -/

section

variable {s : State} (follower : s.ctl.mode = .yokeFollower) {b : List Byte}
include follower

theorem streamEpoch_eq (ok : itemOk 0x01 12 b = true) (heard : s.yok.twinLost = false) (timely : s.blockNo ≤ 64 * itemAt b 4 8 + 3) :
    exec (.streamEpoch b) s = .next { s.inc (Reg.yokCountLo 4) with yok := { s.yok with heardAt := s.now, epoch := itemAt b 4 8 } } := by
  refine congrArg Host.Outcome.next ((decision_of_ok follower ok _).trans ((if_pos follower).trans (if_neg ?_)))
  rintro (lost | late)
  · exact Bool.false_ne_true (heard.symm.trans lost)
  · exact Nat.not_lt.mpr timely late

theorem clsCommit_eq (ok : itemOk 0x04 40 b = true) (inRange : itemAt b 4 4 < 262144) :
    exec (.clsCommit b) s = .next (((s.inc (Reg.yokCountLo 4)).repaired (itemAt b 4 4)).takeAlt (itemAt b 4 4) (slice b 8 32)) := by
  refine congrArg Host.Outcome.next ((decision_of_ok follower ok _).trans (if_pos ⟨?_, inRange⟩))
  refine applies_of_follower (s := (s.inc (Reg.yokCountLo 4)).repaired (itemAt b 4 4)) ?_ 1 _
  rw [repaired_ctl]
  exact follower

theorem sciCommit_eq (ok : itemOk 0x05 20 b = true) (inRange : itemAt b 4 4 < 131072) :
    exec (.sciCommit b) s = .next ((s.inc (Reg.yokCountLo 4)).takeSci (itemAt b 4 4) (slice b 8 12)) :=
  congrArg Host.Outcome.next ((decision_of_ok follower ok _).trans
    (if_pos ⟨applies_of_follower (s := s.inc (Reg.yokCountLo 4)) follower 3 _, inRange⟩))

theorem ascCommit_eq (ok : itemOk 0x06 136 b = true) : exec (.ascCommit b) s =
    .next ((s.inc (Reg.yokCountLo 4)).ascCommitItem (itemAt b 4 2) (itemAt b 6 1) (itemAt b 7 1) (slice b 8 128)) :=
  congrArg Host.Outcome.next ((decision_of_ok follower ok _).trans
    (if_pos (applies_of_follower (s := s.inc (Reg.yokCountLo 4)) follower 4 _)))

theorem ascEvent_eq (ok : itemOk 0x07 12 b = true) : exec (.ascEvent b) s =
    .next ((s.inc (Reg.yokCountLo 4)).ascEventItem (itemAt b 4 2) (itemAt b 6 1) (itemAt b 7 1 % 2)) :=
  congrArg Host.Outcome.next (decision_of_ok follower ok _)

theorem flipItem_eq (ok : itemOk 0x08 16 b = true) {a g : Nat} {c : Ctx} (cloaked : s.cloakOf (itemAt b 4 2) = some (a, c))
    (carried : s.groupOfTrib (itemAt b 4 2) = some g) : exec (.flipItem b) s =
    .next (((s.inc (Reg.yokCountLo 4)).setCtx a
      (some { c with flipPending := true, flipIndex := itemAt b 6 1 % 4, flipSheaf := itemAt b 8 6 })).setPages g
      (fun x => { x with flip := some (itemAt b 4 2, itemAt b 8 6) })) := by
  refine congrArg Host.Outcome.next ((decision_of_ok follower ok _).trans ?_)
  have cloaked' : (s.inc (Reg.yokCountLo 4)).cloakOf (itemAt b 4 2) = some (a, c) := cloaked
  have carried' : (s.inc (Reg.yokCountLo 4)).groupOfTrib (itemAt b 4 2) = some g := carried
  dsimp only
  rw [cloaked', carried']

theorem kvtCommit_eq (ok : itemOk 0x09 56 b = true) {c : Nat} (named : slotOfWord (itemAt b 4 4) = some c) : exec (.kvtCommit b) s =
    .next ((s.inc (Reg.yokCountLo 4)).kvtCommitItem c (itemAt b 12 1) (BitVec.ofNat 32 (itemAt b 8 4)) (slice b 16 40)) := by
  refine congrArg Host.Outcome.next ((decision_of_ok follower ok _).trans ?_)
  rw [named]
  exact if_pos (applies_of_follower (s := s.inc (Reg.yokCountLo 4)) follower 5 _)

theorem regWrite_item_eq (ok : itemOk 0x0A 12 b = true) (conveys : conveyed (itemAt b 4 4) = true) : exec (.regWrite b) s =
    .next ((s.inc (Reg.yokCountLo 4)).regEffect 0 (itemAt b 4 4) (BitVec.ofNat 32 (itemAt b 8 4))) :=
  congrArg Host.Outcome.next ((decision_of_ok follower ok _).trans
    (if_pos ⟨conveys, applies_of_follower (s := s.inc (Reg.yokCountLo 4)) follower 6 _⟩))

theorem schCommit_eq (ok : itemOk 0x0B 24 b = true) (table : itemAt b 4 1 < 3) : exec (.schCommit b) s =
    .next ((s.inc (Reg.yokCountLo 4)).tblWrite (itemAt b 4 1) (itemAt b 5 3)
      ((List.range 4).map (fun w => BitVec.ofNat 32 (itemAt b (8 + 4 * w) 4)))) :=
  congrArg Host.Outcome.next ((decision_of_ok follower ok _).trans
    (if_pos ⟨table, applies_of_follower (s := s.inc (Reg.yokCountLo 4)) follower 6 _⟩))

theorem rixItem_eq (ok : itemOk 0x0D 16 b = true) : exec (.rixItem b) s =
    .next ((s.inc (Reg.yokCountLo 4)).rixItem (itemAt b 4 1) (itemAt b 5 1 % 16) (itemAt b 6 1) (itemAt b 10 6) (slice b 7 3)) :=
  congrArg Host.Outcome.next (decision_of_ok follower ok _)

end

/-- The APS state that a RIX item of KIND 1 conveys (R200). -/
def apsOfItem (b : List Byte) : ApsState :=
  ⟨itemAt b 10 6, itemAt b 6 1 / 2 % 2, itemAt b 6 1 % 2, ofBe (slice (slice b 7 3) 0 1) / 16, ofBe (slice (slice b 7 3) 1 1)⟩

theorem rixItem_aps (s : State) {b : List Byte} (kind : itemAt b 4 1 = 1) (inRange : itemAt b 5 1 < 8) :
    s.rixItem (itemAt b 4 1) (itemAt b 5 1 % 16) (itemAt b 6 1) (itemAt b 10 6) (slice b 7 3) =
      (s.withAps (itemAt b 5 1) (apsOfItem b)).apsDue (itemAt b 5 1) := by
  rw [kind, Nat.mod_eq_of_lt (by omega)]
  exact if_pos inRange

theorem rixItem_swap (s : State) {kind k v : Nat} (isSwap : kind = 2) (standby : (s.gpages k).txActive ≠ v % 2) (sheaf : Nat) (aps : List Byte) :
    s.rixItem kind k v sheaf aps = s.setPages k (fun p => { p with txSwap := some sheaf }) := by
  rw [isSwap]
  exact if_neg standby

end Sys2Proof.Machine

open Sys2Proof Sys2Proof.Machine

/-- Settles O47, item by item from what each comes to on a follower. -/
theorem decisionItemsApply : Obligations.DecisionItemsApply := by
  unfold Obligations.DecisionItemsApply
  refine ⟨fun b s alone c listed => ?_, fun b s follower => ⟨fun ok heard timely => streamEpoch_eq follower ok heard timely, fun ok inRange => ?_,
    fun ok inRange => ?_, fun ok hbm room => ⟨fun op c made volatile => ?_, fun op c known => ?_⟩, fun ok c known kind => ?_,
    fun ok a c cloaked g carried => ?_, fun ok c named op room => ⟨_, kvtCommit_eq follower ok named, fun key unwrapped => ?_, fun refused => ?_⟩,
    fun ok conveys => regWrite_item_eq follower ok conveys, fun ok table => schCommit_eq follower ok table,
    fun ok => congrArg _ (decision_of_ok follower ok _), fun ok => ⟨fun kind inRange clear => ?_, fun kind standby => ?_⟩,
    fun ok => congrArg _ (decision_of_ok follower ok _), fun ok => congrArg _ (decision_of_ok follower ok _)⟩⟩
  · fin_cases listed
    all_goals exact congrArg Host.Outcome.next (decision_of_notFollower alone _ _)
  · refine ⟨_, clsCommit_eq follower ok inRange, takeAlt_altAt_same .., fun i other => ?_, repaired_repair ..⟩
    exact (takeAlt_altAt_ne _ _ other).trans (repaired_altAt ..)
  · exact ⟨_, sciCommit_eq follower ok inRange, takeSci_sciAt_same .., fun i other => takeSci_sciAt_ne _ _ other⟩
  · have run := ascCommit_eq follower ok
    rw [op, ascCommitItem_create, ← made] at run
    obtain ⟨same, others⟩ := commitCtx_persistOwn_hasCtx (s := s.inc (Reg.yokCountLo 4)) hbm room (itemAt b 4 2) volatile
    exact ⟨_, run, same, others⟩
  · have run := ascCommit_eq follower ok
    rw [op] at run
    obtain ⟨same, others⟩ := ascCommitItem_deletes (s := s.inc (Reg.yokCountLo 4)) room known (itemAt b 7 1) (slice b 8 128)
    exact ⟨_, run, same, others⟩
  · have run := ascEvent_eq follower ok
    rw [kind, ascEventItem_clearsWait (s := s.inc (Reg.yokCountLo 4)) known] at run
    exact ⟨_, run, ctx_setCtx_same .., fun i other => ctx_setCtx_ne _ _ other⟩
  · exact ⟨_, flipItem_eq follower ok cloaked carried, ctx_setCtx_same .., getElem?_setPages_same .., fun h other => getElem?_setPages_ne _ _ other⟩
  · obtain ⟨key, usable, others⟩ := kvtCommitItem_hasKey (s := s.inc (Reg.yokCountLo 4)) (c := c) (attr := BitVec.ofNat 32 (itemAt b 8 4))
      (op := itemAt b 12 1) (by omega) unwrapped (by change s.st.queue.length + 2 ≤ _; omega)
    exact ⟨key, usable, others⟩
  · obtain ⟨mode, muted⟩ := kvtCommitItem_resyncs (s := s.inc (Reg.yokCountLo 4)) (c := c) (attr := BitVec.ofNat 32 (itemAt b 8 4))
      (op := itemAt b 12 1) (by omega) refused follower (by change s.st.queue.length < _; omega)
    exact ⟨mode, muted⟩
  · have run := rixItem_eq follower ok
    rw [rixItem_aps _ kind inRange] at run
    have clear' : ((s.inc (Reg.yokCountLo 4)).pair (itemAt b 5 1)).ahead = [] := clear
    refine ⟨_, run, fun k other => ?_, apsDue_takes clear' (apsOfItem b), apsDue_waits clear' (apsOfItem b)⟩
    exact (apsDue_ne _ other).trans (getElem?_setPair_ne _ _ other)
  · have run := rixItem_eq follower ok
    rw [rixItem_swap (s.inc (Reg.yokCountLo 4)) kind standby] at run
    exact ⟨_, run, getElem?_setPages_same .., fun k other => getElem?_setPages_ne _ _ other⟩

end

section
/-! Client lookup and learning (R203, R212 to R215, R229 to R232): what watching a frame keeps, and the branches of a lookup, a learn
probe and a learn insertion that showed no double-bit error. -/

namespace Sys2Proof.Machine

open Sys2Proof

/-! ## Counters -/

theorem count_of_cnt {s t : State} (h : t.cnt = s.cnt) (k : Nat) : t.count k = s.count k := by unfold State.count; rw [h]

theorem count_incBy_ne (s : State) {k j : Nat} (n : Nat) (other : j ≠ k) : (s.incBy k n).count j = s.count j :=
  SMap.get_set_ne _ _ _ _ _ other

theorem count_inc_ne (s : State) {k j : Nat} (other : j ≠ k) : (s.inc k).count j = s.count j := count_incBy_ne s 1 other

/-! ## What watching and recording keep (R525, R551, R560, R563) -/

/-- A key of the units 3 to 13, which neither watch nor record. -/
abbrev WorkKey (k : Nat) : Prop := 0x300000 ≤ k ∧ k < 0xE00000

/-- From s to t frames were watched and events recorded: the registers and counters of units 3 to 13 are kept, and so is every part that
neither touches. -/
structure Watches (s t : State) : Prop where
  touches : Touches (.free :: Part.note) s t
  rd : ∀ k, WorkKey k → t.rd k = s.rd k
  count : ∀ k, WorkKey k → t.count k = s.count k

namespace Watches

theorem refl (s : State) : Watches s s := ⟨.rfl' _ s, fun _ _ => rfl, fun _ _ => rfl⟩

theorem trans {s t u : State} (h : Watches s t) (k : Watches t u) : Watches s u :=
  ⟨h.touches.trans k.touches, fun x w => (k.rd x w).trans (h.rd x w), fun x w => (k.count x w).trans (h.count x w)⟩

theorem ite {s a b : State} {c : Prop} [Decidable c] (h : Watches s a) (k : Watches s b) : Watches s (if c then a else b) := by
  split <;> assumption

theorem foldl {α : Type} {f : State → α → State} (l : List α) (s : State) (h : ∀ x a, Watches x (f x a)) : Watches s (l.foldl f s) := by
  induction l generalizing s with
  | nil => exact refl s
  | cons a l ih => exact (h s a).trans (ih (f s a))

theorem of_touches {m : List Part} {s t : State} (h : Touches m s t) (sub : m ⊆ .free :: Part.note := by decide)
    (regs : Part.regs ∉ m := by decide) (cnt : Part.cnt ∉ m := by decide) : Watches s t :=
  ⟨h.mono sub, fun k _ => rd_of_regs (h.regs regs) k, fun k _ => count_of_cnt (h.cnt cnt) k⟩

theorem inc (s : State) {k : Nat} (outside : ¬WorkKey k) : Watches s (s.inc k) :=
  ⟨(State.inc_touches ..).mono (by decide), fun _ _ => rfl, fun _ w => count_inc_ne s fun e => outside (e ▸ w)⟩

theorem wr (s : State) {k : Nat} (v : Word) (outside : ¬WorkKey k) : Watches s (s.wr k v) :=
  ⟨(State.wr_touches ..).mono (by decide), fun _ w => rd_wr_ne _ _ _ _ fun e => outside (e ▸ w), fun _ _ => rfl⟩

theorem stageLost (s : State) : Watches s s.stageLost := wr s _ (by decide)

theorem alert (s : State) (l : Nat) : Watches s (s.alert l) :=
  ⟨(State.alert_touches ..).mono (by decide), fun k w => alert_rd _ _ _ fun e => absurd (e ▸ w) (by decide : ¬WorkKey Reg.stwAlert),
    fun k _ => count_of_cnt ((State.alert_touches ..).cnt (by decide)) k⟩

theorem postTo (s : State) (n : Nat) (r : EvRec) : Watches s (s.postTo n r).1 := by
  unfold State.postTo
  split
  · exact refl s
  split
  · exact (of_touches (.set_hif (m := [.hif]) (.rfl' _ s) (by decide))).trans (inc _ (by decide))
  · extract_lets put hif noted
    have marked : Watches s noted := of_touches (m := [.hif, .out]) (.set_hif (State.ringPut_touches ..) (by decide))
    exact (marked.trans (inc _ (by decide))).trans (of_touches (State.signal_touches ..))

theorem postAll (s : State) (r : EvRec) (ns : List Nat) : Watches s (s.postAll r ns).1 := by
  induction ns generalizing s with
  | nil => exact refl s
  | cons n ns ih => exact (postTo s n r).trans (ih _)

theorem noteCore (s : State) (t : Nat × Nat × Bool) (c l a : Nat) (o : List Nat) (ps : List Byte) :
    Watches s (s.noteCore t c l a o ps).1 := by
  refine ⟨(State.noteCore_touches ..).mono (by decide), fun k w => noteCore_rd _ _ _ _ _ _ _ _ ?_ ?_, fun k w => ?_⟩
  · exact fun e => absurd (e ▸ w) (by decide : ¬WorkKey Reg.stwAlert)
  · exact fun e => absurd (e ▸ w) (by decide : ¬WorkKey Reg.logLost)
  by_cases asleep : s.ctl.mode = .sentry
  · unfold State.noteCore
    rw [if_pos asleep]
  obtain ⟨os, folded⟩ | ⟨x, formed, recorded⟩ := noteCore_cases s t c l a o ps asleep
  · rw [folded]
    rfl
  · rw [recorded, (alert ..).count k w]
    have posted (x : State) (r : EvRec) (ns : List Nat) : Watches x (if 1 ≤ l then x.postAll r ns else (x, false)).1 := by
      split
      · exact postAll ..
      · exact refl x
    rw [(posted ..).count k w, (ite (stageLost x) (refl x)).count k w, formed]
    rfl

theorem noteAt (s : State) (t : Nat × Nat × Bool) (c l a : Nat) (o : List Nat) (ps : List Byte) : Watches s (s.noteAt t c l a o ps) := by
  unfold State.noteAt
  extract_lets suspected carried
  split
  next recorded lost dropped made =>
  have core : Watches suspected recorded := by simpa only [made] using noteCore suspected t c l a o carried
  have h : Watches s recorded := (of_touches (State.suspectAfter_touches ..)).trans core
  extract_lets told led stamped
  have k : Watches s told := ite (h.trans (noteCore ..)) h
  have stamp : Watches told stamped := of_touches (.set_led (m := [.led]) (.rfl' _ told) (by decide) id)
  exact ite ((k.trans stamp).trans (noteCore ..)) k

theorem note (s : State) (e : EvKind) (ps : List Byte) : Watches s (s.note e ps) := noteAt ..

theorem noteFor (s : State) (e : EvKind) (n : Nat) (ps : List Byte) : Watches s (s.noteFor e n ps) := noteAt ..

theorem streamPut (s : State) (n : Nat) (body : List Byte) : Watches s (s.streamPut n body) := by
  have beyond {base step : Nat} (high : 0xF00000 ≤ base) : ¬WorkKey (base + step * n) := fun w => by
    have := w.2
    omega
  unfold State.streamPut
  refine ite (refl s) (ite ((wr s _ (beyond (by decide))).trans (note ..)) ?_)
  exact (of_touches (State.dma_touches ..)).trans (inc _ (beyond (by decide)))

theorem observe (s : State) (p : Nat) (tag : Option Nat) (v : Sight) (dropped stomped : Bool) :
    Watches s (s.observe p tag v dropped stomped) := by
  unfold State.observe
  extract_lets counted
  have filtered : Watches s counted := foldl _ s fun x n => ite (of_touches (State.fuCount_touches ..)) (refl x)
  split
  · exact filtered
  · exact ite (filtered.trans (foldl _ _ fun x n => ite (streamPut ..) (refl x))) filtered

theorem drawTag (s : State) : Watches s s.drawTag.2 := of_touches (State.drawTag_touches s)

end Watches

/-! ## What a lookup reads of a state (R203 to R206, R210, R212) -/

theorem workKey_clsPortCfg (p : Fin 16) : WorkKey (Reg.clsPortCfg p) := by
  unfold WorkKey Reg.clsPortCfg
  omega

theorem workKey_clsPortMiss (p : Fin 16) : WorkKey (Reg.clsPortMiss p) := by
  unfold WorkKey Reg.clsPortMiss
  omega

section

variable {s t : State} (same : ∀ k, WorkKey k → t.rd k = s.rd k)
include same

theorem fld_of_rd {k : Nat} (work : WorkKey k) (hi lo : Nat) : t.fld k hi lo = s.fld k hi lo := congrArg (bits · hi lo) (same k work)

theorem flg_of_rd {k : Nat} (work : WorkKey k) (b : Nat) : t.flg k b = s.flg k b := congrArg (bit · b) (same k work)

theorem vlanTags_of_rd (f : List Byte) : t.vlanTags f = s.vlanTags f := by
  unfold State.vlanTags State.isTpid
  rw [fld_of_rd same (by decide)]

theorem tunnelOf_of_rd {k : Nat} (below : k < 16) (f : List Byte) : t.tunnelOf k f = s.tunnelOf k f := by
  have work : WorkKey (Reg.clsProfile k) := by
    unfold WorkKey Reg.clsProfile
    omega
  unfold State.tunnelOf State.outerIp State.endpoint
  simp only [vlanTags_of_rd same, fld_of_rd same work, flg_of_rd same work]

theorem frameKey_of_rd (p : Fin 16) (f : List Byte) : t.frameKey p f = s.frameKey p f := by
  have profile : s.fld (Reg.clsPortCfg p) 11 8 < 16 := bits_lt ..
  unfold State.frameKey State.frameVid
  simp only [vlanTags_of_rd same, fld_of_rd same (workKey_clsPortCfg p), flg_of_rd same (workKey_clsPortCfg p),
    tunnelOf_of_rd same profile]

theorem candidates_of_rd (k : AltKey) : t.candidates k = s.candidates k := by
  unfold State.candidates State.hash0 State.hash1
  rw [same _ (by decide), same _ (by decide)]

theorem altFind_of_rd (alt : t.cls.alt = s.cls.alt) (k : AltKey) : t.altFind k = s.altFind k := by
  unfold State.altFind State.altFindBut State.altAt
  rw [candidates_of_rd same, alt]

end

theorem altAt_of_alt {s t : State} (h : t.cls.alt = s.cls.alt) (i : Nat) : t.altAt i = s.altAt i := by unfold State.altAt; rw [h]

namespace Watches

variable {s t : State} (h : Watches s t)
include h

theorem cls : t.cls = s.cls := h.touches.cls (by decide)

theorem sch : t.sch = s.sch := h.touches.sch (by decide)

theorem altFind (k : AltKey) : t.altFind k = s.altFind k := altFind_of_rd h.rd (congrArg Cls.alt h.cls) k

theorem clsLive : t.clsLive = s.clsLive := by
  unfold State.clsLive State.unitEnabled State.islandUp
  rw [h.touches.boot (by decide), h.touches.fab (by decide)]

theorem portUp (p : Fin 16) : t.portUp p = s.portUp p := by
  have work : WorkKey (Reg.lnfEthCtrl p) := by
    unfold WorkKey Reg.lnfEthCtrl
    omega
  unfold State.portUp State.portEnabled State.portKind State.xbar State.ethPort
  rw [h.touches.line (by decide), h.touches.boot (by decide), flg_of_rd h.rd work]

end Watches

/-! ## Entries of the table (R210, R213) -/

/-- Entry i takes a value, without a commit of the engine. -/
def State.setAlt (s : State) (i : Nat) (e : Option AltEntry) : State :=
  { s with cls := { s.cls with alt := SMap.set noneOf s.cls.alt i e } }

@[simp] theorem altAt_setAlt_same (s : State) (i : Nat) (e : Option AltEntry) : (s.setAlt i e).altAt i = e := SMap.get_set_self ..

theorem altAt_setAlt_ne (s : State) {i j : Nat} (e : Option AltEntry) (other : j ≠ i) : (s.setAlt i e).altAt j = s.altAt j :=
  SMap.get_set_ne _ _ _ _ _ other

@[simp] theorem altAt_incBy (s : State) (k n i : Nat) : (s.incBy k n).altAt i = s.altAt i := altAt_of_alt rfl i

@[simp] theorem altAt_inc (s : State) (k i : Nat) : (s.inc k).altAt i = s.altAt i := altAt_incBy s k 1 i

@[simp] theorem altFind_inc (s : State) (k : Nat) (key : AltKey) : (s.inc k).altFind key = s.altFind key :=
  altFind_of_rd (fun _ _ => rfl) rfl key

/-- Without a double-bit error the search of R212 sees all eight candidates. -/
theorem altFindBut_nil (s : State) (k : AltKey) : s.altFindBut k [] = s.altFind k := rfl

/-- Without a double-bit error a read of the table only counts the errors corrected. -/
theorem altErrors_nil (s : State) (n : Nat) : s.altErrors [] n = s.incBy (Reg.clsCountLo 15) (n * 2 ^ 48) := rfl

theorem altHit_of_entry {s : State} {i : Nat} {e : AltEntry} (entry : s.altAt i = some e) :
    s.altHit i = s.setAlt i (some { e with hit := true }) := by
  unfold State.altHit
  rw [entry]
  rfl

/-! ## The lookup (R203, R212 to R214) -/

/-- A lookup of a key has read the table: it is counted, and the errors it corrected with it. -/
def State.lookedUp (s : State) (errors : Nat) : State := (s.inc (Reg.clsCountLo 0)).incBy (Reg.clsCountLo 15) errors

theorem lookedUp_touches (s : State) (errors : Nat) : Touches [.cnt] s (s.lookedUp errors) := (State.inc_touches ..).trans (State.incBy_touches ..)

section

variable {s : State} {p n : Nat} {f : List Byte} {k : AltKey} (live : s.clsLive = true) (key : s.frameKey p f = some (some k))
include live key

theorem lookup_of_miss (miss : s.altFind k = none) :
    s.lookup p f [] n = ((s.lookedUp (n * 2 ^ 48)).inc (Reg.clsCountLo 2)).missPath f p := by
  unfold State.lookup
  rw [if_neg (by simp [live]), key]
  simp only [List.map_nil, altFindBut_nil, altFind_inc, miss, altErrors_nil]
  exact if_neg (by simp)

theorem lookup_of_hit {i : Nat} {e : AltEntry} (found : s.altFind k = some i) (entry : s.altAt i = some e) :
    s.lookup p f [] n = (((s.lookedUp (n * 2 ^ 48)).inc (Reg.clsCountLo 1)).setAlt i (some { e with hit := true })).classified f p e.assoc
      (if e.output = 0x3FF then none else some e.output) (if e.classEn then some e.cls else none) [] := by
  have hit : ((s.lookedUp (n * 2 ^ 48)).inc (Reg.clsCountLo 1)).altHit i = _ :=
    altHit_of_entry (by rw [altAt_inc, State.lookedUp, altAt_incBy, altAt_inc, entry])
  unfold State.lookup
  rw [if_neg (by simp [live]), key]
  simp only [List.map_nil, altFindBut_nil, altFind_inc, found, altErrors_nil, altAt_incBy, altAt_inc, entry]
  rw [← hit, State.lookedUp]

end

/-- A unicast frame that misses where no default association is named and no flood list is used is dropped and counted (R214). -/
theorem missPath_drops {s : State} {f : List Byte} {p : Nat} (unicast : (f.getD 0 0).toNat % 2 = 0)
    (noDefault : s.flg (Reg.clsPortMiss p) 31 = false) (noFlood : s.flg (Reg.clsPortCfg p) 1 = false) :
    s.missPath f p = s.inc (Reg.clsCountLo 5) := by
  have individual : ((f.getD 0 0).toNat % 2 == 1) = false := by rw [unicast]; rfl
  unfold State.missPath
  simp only [individual, noDefault, noFlood, Bool.false_eq_true, false_and, if_false]

/-- The frame that waits for admission once its association's context is known (R253). -/
def classifiedFrame (s : State) (f : List Byte) (p a : Nat) (out cls : Option Nat) (flood : List Nat) (c : Ctx) : Frame :=
  { newFrame s f p true a (out.getD c.encOut) (cls.getD c.encClass) (out.getD c.encOut != c.encOut || cls.getD c.encClass != c.encClass) with
    flood := flood }

theorem classified_of_ctx {s : State} {a : Nat} {c : Ctx} (known : s.ctx a = some c) (f : List Byte) (p : Nat) (out cls : Option Nat)
    (flood : List Nat) : s.classified f p a out cls flood =
      { s with sch := { s.sch with arrivals := s.sch.arrivals ++ [classifiedFrame s f p a out cls flood c] } } := by
  unfold State.classified
  rw [known]
  rfl

/-! ## A client frame at the observation points (R203, R560) -/

theorem sawClassified_of_dropped (s : State) (tag : Option Nat) (v : Sight) : Watches s (s.sawClassified tag v s.sch.arrivals.length) := by
  unfold State.sawClassified
  rw [List.drop_length]
  exact Watches.observe ..

theorem sawClassified_of_ctx {s : State} {a : Nat} {c : Ctx} (known : s.ctx a = some c) (f : List Byte) (p : Nat) (out cls : Option Nat)
    (flood : List Nat) (tag : Option Nat) (v : Sight) :
    Watches
      { s with sch := { s.sch with arrivals := s.sch.arrivals ++ [{ classifiedFrame s f p a out cls flood c with tag := tag }] } }
      ((s.classified f p a out cls flood).sawClassified tag v s.sch.arrivals.length) := by
  rw [classified_of_ctx known]
  unfold State.sawClassified
  dsimp only
  rw [List.drop_left, List.take_left]
  exact Watches.observe ..

/-- A client frame at point 0, tagged or not. -/
def State.firstSeen (s : State) (p : Fin 16) (f : List Byte) : State :=
  s.drawTag.2.observe 0 s.drawTag.1 ⟨none, s.drawTag.2.portOwner p, p, 0, f.length, 0⟩ (!s.drawTag.2.portUp p) false

theorem firstSeen_watches (s : State) (p : Fin 16) (f : List Byte) : Watches s (s.firstSeen p f) := (Watches.drawTag s).trans (.observe ..)

theorem clientFrameLookup_of_down {p : Fin 16} {s : State} (down : s.portUp p = false) (f : List Byte) (bad : List (Fin 8)) (fixed : Fin 9) :
    exec (.clientFrameLookup p f bad fixed) s = .next (s.firstSeen p f) := if_pos (((firstSeen_watches ..).portUp p).trans down)

theorem clientFrameLookup_of_up {p : Fin 16} {s : State} (up : s.portUp p = true) (f : List Byte) (bad : List (Fin 8)) (fixed : Fin 9) :
    ∃ tag v, exec (.clientFrameLookup p f bad fixed) s =
      .next (((s.firstSeen p f).lookup p f bad fixed.val).sawClassified tag v (s.firstSeen p f).sch.arrivals.length) := by
  have up' : ¬(s.firstSeen p f).portUp p = false := by rw [(firstSeen_watches ..).portUp, up]; decide
  exact ⟨_, _, if_neg up'⟩

section

variable {p : Fin 16} {f : List Byte} {k : AltKey} {s : State} (up : s.portUp p = true) (live : s.clsLive = true)
  (key : s.frameKey p f = some (some k))
include up live key

/-- A frame whose key finds entry i waits for admission as the entry says, and sets HIT (R212, R213, R253). -/
theorem clientFrameLookup_of_hit {i : Nat} {e : AltEntry} {c : Ctx} (found : s.altFind k = some i) (entry : s.altAt i = some e)
    (known : s.ctx e.assoc = some c) (fixed : Fin 9) :
    ∃ u tag t, exec (.clientFrameLookup p f [] fixed) s = .next t ∧ t.cls = (s.setAlt i (some { e with hit := true })).cls ∧
      t.sch = { s.sch with arrivals := s.sch.arrivals ++ [{ classifiedFrame u f p e.assoc (if e.output = 0x3FF then none else some e.output)
        (if e.classEn then some e.cls else none) [] c with tag := tag }] } := by
  have seen := firstSeen_watches s p f
  obtain ⟨tag, v, run⟩ := clientFrameLookup_of_up up f [] fixed
  rw [lookup_of_hit (seen.clsLive.trans live) ((frameKey_of_rd seen.rd p f).trans key) ((seen.altFind k).trans found)
    ((altAt_of_alt (congrArg Cls.alt seen.cls) i).trans entry), seen.sch] at run
  generalize fixed.val * 2 ^ 48 = errors at run
  have counted : Touches [.cnt] (s.firstSeen p f) (((s.firstSeen p f).lookedUp errors).inc (Reg.clsCountLo 1)) :=
    (lookedUp_touches ..).trans (State.inc_touches ..)
  generalize ((s.firstSeen p f).lookedUp errors).inc (Reg.clsCountLo 1) = u at run counted
  have sch : u.sch = s.sch := (counted.sch (by decide)).trans seen.sch
  have cls : u.cls = s.cls := (counted.cls (by decide)).trans seen.cls
  have asc : u.asc = s.asc := (counted.asc (by decide)).trans (seen.touches.asc (by decide))
  have known' : (u.setAlt i (some { e with hit := true })).ctx e.assoc = some c := (ctx_of_asc asc _).trans known
  rw [← sch] at run
  have told := sawClassified_of_ctx known' f p (if e.output = 0x3FF then none else some e.output) (if e.classEn then some e.cls else none) []
    tag v
  refine ⟨u.setAlt i (some { e with hit := true }), tag, _, run, told.cls.trans ?_, told.sch.trans ?_⟩
  · unfold State.setAlt
    rw [cls]
  · rw [← sch]
    rfl

/-- A frame that misses, where the miss path leads nowhere, is counted and nothing more (R214). -/
theorem clientFrameLookup_of_miss (miss : s.altFind k = none) (unicast : (f.getD 0 0).toNat % 2 = 0)
    (noDefault : s.flg (Reg.clsPortMiss p) 31 = false) (noFlood : s.flg (Reg.clsPortCfg p) 1 = false) (fixed : Fin 9) :
    ∃ t, exec (.clientFrameLookup p f [] fixed) s = .next t ∧ t.sch = s.sch ∧ t.cls = s.cls ∧
      t.count (Reg.clsCountLo 5) = s.count (Reg.clsCountLo 5) + 1 := by
  have seen := firstSeen_watches s p f
  obtain ⟨tag, v, run⟩ := clientFrameLookup_of_up up f [] fixed
  rw [lookup_of_miss (seen.clsLive.trans live) ((frameKey_of_rd seen.rd p f).trans key) ((seen.altFind k).trans miss), seen.sch] at run
  generalize fixed.val * 2 ^ 48 = errors at run
  have counted : Touches [.cnt] (s.firstSeen p f) (((s.firstSeen p f).lookedUp errors).inc (Reg.clsCountLo 2)) :=
    (lookedUp_touches ..).trans (State.inc_touches ..)
  have count : (((s.firstSeen p f).lookedUp errors).inc (Reg.clsCountLo 2)).count (Reg.clsCountLo 5) = s.count (Reg.clsCountLo 5) := by
    rw [count_inc_ne _ (by decide), State.lookedUp, count_incBy_ne _ _ (by decide), count_inc_ne _ (by decide), seen.count _ (by decide)]
  generalize ((s.firstSeen p f).lookedUp errors).inc (Reg.clsCountLo 2) = u at run counted count
  have same : ∀ k, WorkKey k → u.rd k = s.rd k := fun k w => (rd_of_regs (counted.regs (by decide)) k).trans (seen.rd k w)
  have sch : u.sch = s.sch := (counted.sch (by decide)).trans seen.sch
  have cls : u.cls = s.cls := (counted.cls (by decide)).trans seen.cls
  rw [missPath_drops unicast ((flg_of_rd same (workKey_clsPortMiss p) 31).trans noDefault)
    ((flg_of_rd same (workKey_clsPortCfg p) 1).trans noFlood), ← sch] at run
  have told := sawClassified_of_dropped (u.inc (Reg.clsCountLo 5)) tag v
  refine ⟨_, run, told.sch.trans sch, told.cls.trans cls, ?_⟩
  exact (told.count _ (by decide)).trans ((count_inc_same ..).trans (congrArg (· + 1) count))

end

/-! ## What a learn probe or request asks of a state (R226, R229, R230) -/

section

variable {s t : State}

theorem mayLearn_of_regs (regs : t.regs = s.regs) (ctl : t.ctl = s.ctl) (p : Nat) : t.mayLearn p = s.mayLearn p := by
  unfold State.mayLearn State.isFollower State.flg State.fld
  simp only [rd_of_regs regs, ctl]

theorem atQuota_of_regs (regs : t.regs = s.regs) (alt : t.cls.alt = s.cls.alt) (p : Nat) : t.atQuota p = s.atQuota p := by
  unfold State.atQuota State.quota State.learnedCount State.fld
  rw [rd_of_regs regs, alt]

theorem flushing_of_flushes (flushes : t.cls.flushes = s.cls.flushes) (p : Nat) : t.flushing p = s.flushing p := by
  unfold State.flushing
  rw [flushes]

theorem learned_of_regs (regs : t.regs = s.regs) (r : LearnReq) : t.learned r = s.learned r := by
  unfold State.learned State.portOwner State.fld
  rw [rd_of_regs regs]

end

/-! ## Learn probes (R215, R230) -/

/-- The probes that wait for a pipe are ps. -/
def State.withProbes (s : State) (ps : List LearnReq) : State := { s with cls := { s.cls with probes := ps } }

/-- The oldest probe has left its queue and read the table: it is counted, and the errors it corrected with it. -/
def State.probing (s : State) (rest : List LearnReq) (errors : Nat) : State :=
  ((s.withProbes rest).inc (Reg.clsCountLo 7)).incBy (Reg.clsCountLo 15) errors

theorem probing_touches (s : State) (rest : List LearnReq) (errors : Nat) : Touches [.cnt] (s.withProbes rest) (s.probing rest errors) :=
  (State.inc_touches ..).trans (State.incBy_touches ..)

theorem probing_regs (s : State) (rest : List LearnReq) (errors : Nat) : (s.probing rest errors).regs = s.regs :=
  (probing_touches ..).regs (by decide)

theorem probing_cls (s : State) (rest : List LearnReq) (errors : Nat) : (s.probing rest errors).cls = { s.cls with probes := rest } :=
  (probing_touches ..).cls (by decide)

theorem nextProbe_of_noWait {s : State} (noWait : s.cls.probeWait = []) : s.nextProbe = s := by
  unfold State.nextProbe
  rw [noWait]

theorem nextProbe_of_wait {s : State} {w : LearnReq × Nat} {more : List (LearnReq × Nat)} (wait : s.cls.probeWait = w :: more) :
    s.nextProbe = State.setVerdict { s with cls := { s.cls with probes := s.cls.probes ++ [w.1], probeWait := more } } w.2 true := by
  unfold State.nextProbe
  rw [wait]

theorem frame_setVerdict (s : State) (id : Nat) (ok : Bool) :
    (s.setVerdict id ok).frame? id = (s.frame? id).map (fun x => { x with verdict := some ok }) := by
  cases held : s.frame? id with
  | some f => exact frame_setVerdict_same held ok
  | none =>
    unfold State.setVerdict
    rw [held]
    exact held

theorem learnProbe_of_dead {s : State} {r : LearnReq} {rest : List LearnReq} (queue : s.cls.probes = r :: rest)
    {w : LearnReq × Nat} {more : List (LearnReq × Nat)} (wait : s.cls.probeWait = w :: more) (dead : s.clsLive = false)
    (bad : List (Fin 8)) (fixed : Fin 9) : exec (.learnProbe bad fixed) s =
      .next (State.setVerdict { s with cls := { s.cls with probes := rest ++ [w.1], probeWait := more } } w.2 true) := by
  have entered : State.nextProbe { s with cls := { s.cls with probes := rest } } = _ := nextProbe_of_wait wait
  show execLearnProbe bad fixed s = _
  unfold execLearnProbe
  rw [queue]
  dsimp only
  rw [entered]
  refine if_pos (Eq.trans ?_ dead)
  unfold State.clsLive State.unitEnabled State.islandUp
  rw [(State.setVerdict_touches ..).boot (by decide), (State.setVerdict_touches ..).fab (by decide)]

/-- What the probe for r does once it has read the table and met no entry, or entry i. -/
def State.probeMeets (s : State) (r : LearnReq) : Option Nat → Host.Outcome State Fault Refusal
  | some i =>
    match (s.altHit i).altAt i with
    | none => .next (s.altHit i)
    | some e => .next (if (s.altHit i).mayLearn r.port then (s.altHit i).stationMove i e r else s.altHit i)
  | none =>
    if s.mayLearn r.port = false then .next s
    else if s.flushing r.port then .next (s.inc (Reg.clsCountLo 11))
    else if s.atQuota r.port then .next (s.inc (Reg.clsCountLo 10))
    else if 4096 ≤ s.cls.learnQ.length then .next ((s.inc (Reg.clsCountLo 11)).note Ev.learnQueueFull)
    else .next { s with cls := { s.cls with learnQ := s.cls.learnQ ++ [r] } }

/-- A probe that meets its own association sets HIT, whether changes are permitted or not. -/
theorem probeMeets_known {s : State} {r : LearnReq} {i : Nat} {e : AltEntry} (entry : s.altAt i = some e) (known : e.assoc = r.assoc) :
    s.probeMeets r (some i) = .next (s.setAlt i (some { e with hit := true })) := by
  unfold State.probeMeets
  simp only [altHit_of_entry entry, altAt_setAlt_same, State.stationMove, known, if_true, ite_self]

theorem probeMeets_none {s : State} {r : LearnReq} (may : s.mayLearn r.port = true) (noFlush : s.flushing r.port = false)
    (below : s.atQuota r.port = false) (room : s.cls.learnQ.length < 4096) :
    s.probeMeets r none = .next { s with cls := { s.cls with learnQ := s.cls.learnQ ++ [r] } } := by
  unfold State.probeMeets
  rw [if_neg (ne_false_of_eq_true may), if_neg (ne_true_of_eq_false noFlush), if_neg (ne_true_of_eq_false below),
    if_neg (Nat.not_le.mpr room)]

section

variable {s : State} {r : LearnReq} {rest : List LearnReq} (queue : s.cls.probes = r :: rest) (noWait : s.cls.probeWait = [])
  (live : s.clsLive = true)
include queue noWait live

theorem learnProbe_of_live (fixed : Fin 9) : exec (.learnProbe [] fixed) s =
    (s.probing rest (fixed.val * 2 ^ 48)).probeMeets r (s.altFind ⟨1, r.domain, r.key⟩) := by
  have entered : State.nextProbe { s with cls := { s.cls with probes := rest } } = s.withProbes rest := nextProbe_of_noWait noWait
  have live' : ¬(s.withProbes rest).clsLive = false := ne_false_of_eq_true live
  have find : (s.withProbes rest).altFind ⟨1, r.domain, r.key⟩ = s.altFind ⟨1, r.domain, r.key⟩ := altFind_of_rd (fun _ _ => rfl) rfl _
  show execLearnProbe [] fixed s = _
  unfold execLearnProbe
  rw [queue]
  dsimp only
  rw [entered, if_neg live', List.map_nil, altErrors_nil, altFindBut_nil, altFind_inc, find]
  generalize fixed.val * 2 ^ 48 = errors
  rw [← State.probing]
  cases s.altFind ⟨1, r.domain, r.key⟩ <;> rfl

theorem learnProbe_of_match {i : Nat} {e : AltEntry} (found : s.altFind ⟨1, r.domain, r.key⟩ = some i) (entry : s.altAt i = some e)
    (known : e.assoc = r.assoc) (fixed : Fin 9) :
    ∃ errors, exec (.learnProbe [] fixed) s = .next ((s.probing rest errors).setAlt i (some { e with hit := true })) := by
  have run := learnProbe_of_live queue noWait live fixed
  generalize fixed.val * 2 ^ 48 = errors at run
  rw [found] at run
  have alt : (s.probing rest errors).cls.alt = s.cls.alt := by rw [probing_cls]
  exact ⟨errors, run.trans (probeMeets_known ((altAt_of_alt alt i).trans entry) known)⟩

theorem learnProbe_of_miss (miss : s.altFind ⟨1, r.domain, r.key⟩ = none) (may : s.mayLearn r.port = true)
    (noFlush : s.flushing r.port = false) (below : s.atQuota r.port = false) (room : s.cls.learnQ.length < 4096) (fixed : Fin 9) :
    ∃ errors, exec (.learnProbe [] fixed) s = .next { s.probing rest errors with
      cls := { s.cls with probes := rest, learnQ := s.cls.learnQ ++ [r] } } := by
  have run := learnProbe_of_live queue noWait live fixed
  generalize fixed.val * 2 ^ 48 = errors at run
  have ctl : (s.probing rest errors).ctl = s.ctl := (probing_touches ..).ctl (by decide)
  have alt : (s.probing rest errors).cls.alt = s.cls.alt := by rw [probing_cls]
  have flushes : (s.probing rest errors).cls.flushes = s.cls.flushes := by rw [probing_cls]
  have room' : (s.probing rest errors).cls.learnQ.length < 4096 := by rw [probing_cls]; exact room
  rw [miss, probeMeets_none ((mayLearn_of_regs (probing_regs ..) ctl _).trans may) ((flushing_of_flushes flushes _).trans noFlush)
    ((atQuota_of_regs (probing_regs ..) alt _).trans below) room', probing_cls] at run
  exact ⟨errors, run⟩

end

/-! ## Commits of the engine (R210, R230, R232) -/

/-- From s to t ports may have reached their QUOTA, or left it again, and the events of that been recorded: the table, the learn requests
and the counters of units 3 to 13 are kept. -/
structure QuotasChecked (s t : State) : Prop where
  alt : t.cls.alt = s.cls.alt
  learnQ : t.cls.learnQ = s.cls.learnQ
  count : ∀ k, WorkKey k → t.count k = s.count k

namespace QuotasChecked

theorem refl (s : State) : QuotasChecked s s := ⟨rfl, rfl, fun _ _ => rfl⟩

theorem trans {s t u : State} (h : QuotasChecked s t) (k : QuotasChecked t u) : QuotasChecked s u :=
  ⟨k.alt.trans h.alt, k.learnQ.trans h.learnQ, fun x w => (k.count x w).trans (h.count x w)⟩

theorem of_watches {s t : State} (h : Watches s t) : QuotasChecked s t := ⟨congrArg Cls.alt h.cls, congrArg Cls.learnQ h.cls, h.count⟩

theorem quotaCheck (s : State) (p : Nat) : QuotasChecked s (s.quotaCheck p) := by
  unfold State.quotaCheck
  split
  · split
    · exact refl s
    · exact trans (t := { s with cls := { s.cls with quotaSeen := p :: s.cls.quotaSeen } }) ⟨rfl, rfl, fun _ _ => rfl⟩
        (of_watches (.noteFor ..))
  · exact ⟨rfl, rfl, fun _ _ => rfl⟩

theorem foldl_quotaCheck (ps : List Nat) (s : State) : QuotasChecked s (ps.foldl State.quotaCheck s) := by
  induction ps generalizing s with
  | nil => exact refl s
  | cons p ps ih => exact (quotaCheck s p).trans (ih _)

/-- A commit puts entry i into the table, which a lead conveys. -/
theorem altPut (s : State) (i : Nat) (e : Option AltEntry) : QuotasChecked (s.setAlt i e) (s.altPut i e) := by
  have conveyed : Touches [.yok, .out] (s.setAlt i e) (s.altWrite i e) := State.convey_touches ..
  unfold State.altPut
  extract_lets ports
  exact (of_watches (.of_touches conveyed)).trans (foldl_quotaCheck ..)

end QuotasChecked

/-! ## Learn insertions (R217, R231, R232) -/

/-- The learn requests that wait for the engine are rs. -/
def State.withLearnQ (s : State) (rs : List LearnReq) : State := { s with cls := { s.cls with learnQ := rs } }

/-- The oldest learn request has left its queue and its probe read the table: the errors it corrected are counted. -/
def State.takenUp (s : State) (rest : List LearnReq) (errors : Nat) : State := (s.withLearnQ rest).incBy (Reg.clsCountLo 15) errors

theorem takenUp_touches (s : State) (rest : List LearnReq) (errors : Nat) : Touches [.cnt] (s.withLearnQ rest) (s.takenUp rest errors) :=
  State.incBy_touches ..

theorem takenUp_regs (s : State) (rest : List LearnReq) (errors : Nat) : (s.takenUp rest errors).regs = s.regs :=
  (takenUp_touches ..).regs (by decide)

theorem takenUp_cls (s : State) (rest : List LearnReq) (errors : Nat) : (s.takenUp rest errors).cls = { s.cls with learnQ := rest } :=
  (takenUp_touches ..).cls (by decide)

theorem takenUp_alt (s : State) (rest : List LearnReq) (errors : Nat) : (s.takenUp rest errors).cls.alt = s.cls.alt := by rw [takenUp_cls]

theorem takenUp_altAt (s : State) (rest : List LearnReq) (errors i : Nat) : (s.takenUp rest errors).altAt i = s.altAt i :=
  altAt_of_alt (takenUp_alt ..) i

theorem takenUp_altFind (s : State) (rest : List LearnReq) (errors : Nat) (k : AltKey) : (s.takenUp rest errors).altFind k = s.altFind k :=
  altFind_of_rd (fun k _ => rd_of_regs (takenUp_regs ..) k) (takenUp_alt ..) k

/-- An insertion takes the first empty candidate slot, with HIT 0 and the AGE of this sweep (R217). -/
theorem place_of_empty {s : State} {e : AltEntry} {i : Nat}
    (empty : (s.candidates e.toKey).find? (fun j => (s.altAt j).isNone) = some i) (noEvict learn : Bool) :
    s.place e noEvict learn = (s.altPut i (some { e with hit := false, age := s.cls.sweep }), ⟨0, i, 0⟩) := by
  unfold State.place
  extract_lets placed cs
  have same : cs.find? (fun j => (s.altAt j).isNone) = some i := empty
  rw [same]

section

variable {s : State} {r : LearnReq} {rest : List LearnReq} (queue : s.cls.learnQ = r :: rest)
include queue

theorem learnInsert_of_present (present : (s.altFind ⟨1, r.domain, r.key⟩).isSome = true) (fixed : Fin 9) :
    exec (.learnInsert [] fixed) s = .next (s.takenUp rest (fixed.val * 2 ^ 48)) := by
  show execLearnInsert [] fixed s = _
  unfold execLearnInsert
  rw [queue]
  dsimp only
  rw [List.map_nil, altErrors_nil, ← State.withLearnQ, ← State.takenUp, takenUp_altFind]
  exact if_pos present

theorem learnInsert_of_empty {i : Nat} (miss : s.altFind ⟨1, r.domain, r.key⟩ = none) (noFlush : s.flushing r.port = false)
    (may : s.mayLearn r.port = true) (below : s.atQuota r.port = false)
    (empty : (s.candidates ⟨1, r.domain, r.key⟩).find? (fun j => (s.altAt j).isNone) = some i) (fixed : Fin 9) :
    ∃ errors, exec (.learnInsert [] fixed) s =
      .next (((s.takenUp rest errors).altPut i (some { s.learned r with age := s.cls.sweep })).inc (Reg.clsCountLo 8)) := by
  show ∃ errors, execLearnInsert [] fixed s = _
  unfold execLearnInsert
  rw [queue]
  dsimp only
  rw [List.map_nil, altErrors_nil, ← State.withLearnQ, ← State.takenUp, takenUp_altFind, miss]
  generalize fixed.val * 2 ^ 48 = errors
  have regs := takenUp_regs s rest errors
  have ctl : (s.takenUp rest errors).ctl = s.ctl := (takenUp_touches ..).ctl (by decide)
  have flushes : (s.takenUp rest errors).cls.flushes = s.cls.flushes := by rw [takenUp_cls]
  have sweep : (s.takenUp rest errors).cls.sweep = s.cls.sweep := by rw [takenUp_cls]
  have empty' : ((s.takenUp rest errors).candidates (s.learned r).toKey).find? (fun j => ((s.takenUp rest errors).altAt j).isNone) = some i := by
    simp only [candidates_of_rd fun k _ => rd_of_regs regs k, takenUp_altAt]
    exact empty
  rw [flushing_of_flushes flushes, mayLearn_of_regs regs ctl, atQuota_of_regs regs (takenUp_alt ..), learned_of_regs regs,
    place_of_empty empty', sweep, noFlush, may, below]
  exact ⟨errors, rfl⟩

end

end Sys2Proof.Machine

open Sys2Proof Sys2Proof.Machine

/-- Settles O33: the branch that each command takes under its hypotheses, and what the observation points, the commit and the verdict leave of
its result. -/
theorem framesLookUpAndLearn : Obligations.FramesLookUpAndLearn := by
  unfold Obligations.FramesLookUpAndLearn
  refine ⟨fun p f fixed k i e c s up live key found entry known => ?_, fun p f fixed k s up live key miss unicast noDefault noFlood =>
    clientFrameLookup_of_miss up live key miss unicast noDefault noFlood fixed, fun p f fixed s down => ?_,
    fun fixed s r rest queue noWait live => ⟨fun miss may noFlush below room => ?_, fun i e found entry own => ?_⟩,
    fun fixed s r rest queue i miss noFlush may below empty => ?_, fun s r rest queue present => ?_,
    fun s r rest queue w more wait dead => ?_⟩
  · obtain ⟨u, tag, t, run, cls, sch⟩ := clientFrameLookup_of_hit up live key found entry known fixed
    have alt := congrArg Cls.alt cls
    refine ⟨t, run, _, congrArg Sch.arrivals sch, rfl, rfl, ?_, ?_, rfl, rfl, (altAt_of_alt alt i).trans (altAt_setAlt_same ..),
      fun j other => (altAt_of_alt alt j).trans (altAt_setAlt_ne _ _ other)⟩
    · exact apply_ite (Option.getD · c.encOut) ..
    · exact apply_ite (Option.getD · c.encClass) ..
  · exact ⟨_, clientFrameLookup_of_down down f [] fixed, (firstSeen_watches s p f).sch, (firstSeen_watches s p f).cls⟩
  · obtain ⟨errors, run⟩ := learnProbe_of_miss queue noWait live miss may noFlush below room fixed
    exact ⟨_, run, rfl, rfl⟩
  · obtain ⟨errors, run⟩ := learnProbe_of_match queue noWait live found entry own fixed
    have cls := probing_cls s rest errors
    refine ⟨_, run, altAt_setAlt_same .., fun j other => ?_, (congrArg Cls.probes cls :), (congrArg Cls.learnQ cls :), rfl⟩
    exact (altAt_setAlt_ne _ _ other).trans (altAt_of_alt (congrArg Cls.alt cls :) j)
  · obtain ⟨errors, run⟩ := learnInsert_of_empty queue miss noFlush may below empty fixed
    have put := QuotasChecked.altPut (s.takenUp rest errors) i (some { s.learned r with age := s.cls.sweep })
    have taken := takenUp_cls s rest errors
    refine ⟨_, run, put.learnQ.trans (congrArg Cls.learnQ taken :), ?_, fun j other => ?_, ?_⟩
    · rw [altAt_inc, altAt_of_alt put.alt, altAt_setAlt_same]
    · rw [altAt_inc, altAt_of_alt put.alt, altAt_setAlt_ne _ _ other, takenUp_altAt]
    · rw [count_inc_same, put.count _ (by decide)]
      exact congrArg (· + 1) (count_incBy_ne _ _ (by decide))
  · exact learnInsert_of_present queue present 0
  · exact ⟨_, learnProbe_of_dead queue wait dead [] 0, (State.setVerdict_touches ..).cls (by decide), frame_setVerdict ..⟩

end

section
/-! The last cell of a frame that spills onto a line whose counters have run out (R247, R250, R296): the refused line is an alarm, and in
Recovery it escalates to a module reset (R98, R114). -/

namespace Sys2Proof.Machine

open Sys2Proof

/-- An image with no cells on die and a spill region of 1 MiB at the start of HBM. -/
def spillImage : Structure := { onePortImage with regions := [⟨0, 1, 2, 0⟩] }

/-- A client frame of one byte for association 0 that is not whole. -/
def frameAtLastCell : Frame := { newFrame State.reset [0] 0 true 0 0 0 false with refs := 1, reserved := 1 }

/-- A module in Recovery whose Memory Guard runs. Its first page has MAJOR 2^56 − 1 and the first line of the page MINOR 255. A frame in
the queue of association 0 has its last cell to come. -/
def spillInRecovery : State :=
  { State.reset with
    ctl := { Control.cold with mode := .recovery }
    boot := { Boot.blank with image := some spillImage }
    fab := { Fabric.reset 0 with live := [13, 16], inReset := [] }
    mgd := { Mgd.reset with initDone := true, lines := [(0, some ⟨zeroBytes 64, 255, false⟩)], majors := [(0, 2 ^ 56 - 1)] }
    sch := { Sch.reset with frames := [(0, some frameAtLastCell)], nextId := 1, queues := [(0, [⟨0, 0, 0⟩])], resEnc := 1 } }

/-- The cell spills, REGION_REFUSED is an alarm in Recovery, and the module reset that follows empties every queue. -/
theorem frameLastCell_of_refusedSpill_losesQueues :
    nextShows (·.sch.queues) (exec (.frameLastCell 0 0) spillInRecovery) = some [] := by decide +kernel

end Sys2Proof.Machine

open Sys2Proof Sys2Proof.Machine

/-- Refutes O35: no hypothesis excludes that a spilled line is refused for its counters. REGION_REFUSED is an alarm, and in Recovery the last
cell of a frame is then followed by a module reset, where the statement has the queues unchanged. -/
theorem not_framesAreAdmittedPickedAndSent : ¬ Obligations.FramesAreAdmittedPickedAndSent := by
  unfold Obligations.FramesAreAdmittedPickedAndSent
  rintro ⟨-, lastCell, -⟩
  obtain ⟨t, ht, -, -, sameQueues, -⟩ := (lastCell 0 0 spillInRecovery frameAtLastCell rfl).1 rfl (by decide) _ rfl
  cases (nextShows_inj frameLastCell_of_refusedSpill_losesQueues ht).symm.trans sameQueues
end

section
/-! The Scheduler's table commands (R274): what a command's end leaves, what a window may reach, and what a write of an entry changes. -/

namespace Sys2Proof.Machine

open Sys2Proof

/-! ## The end of a unit's command (R520, R572) -/

/-- The end of a command writes its result; what follows may only raise an alert or lose a staged record. -/
theorem cmdEnd_rd (s : State) (unit n off code : Nat) {k : Nat} (h1 : k ≠ Reg.stwAlert) (h2 : k ≠ Reg.logLost) :
    (s.cmdEnd unit n off code).rd k = (s.result (privKey n off) code).rd k := by
  have completed (x : State) (tag st pair out idx : Nat) : (x.complete n tag st pair 0 out idx 0).rd k = x.rd k :=
    rd_of_regs ((State.complete_touches ..).regs (by decide)) k
  unfold State.cmdEnd
  extract_lets ended
  split
  · rfl
  extract_lets taken out
  split
  · exact completed ..
  split
  · exact (completed ..).trans (rd_of_regs ((State.dma_touches ..).regs (by decide)) k)
  · exact (completed ..).trans (noteFor_rd _ _ _ _ _ h1 h2)

/-- A command that ends with a CODE other than 0 has no output, and no event follows from it. -/
theorem cmdEnd_led_of_refused (s : State) (unit n off : Nat) {code : Nat} (refused : code ≠ 0) :
    (s.cmdEnd unit n off code).led = s.led := by
  unfold State.cmdEnd
  extract_lets ended
  split
  · rfl
  extract_lets taken out
  have noOutput : out = [] := if_neg refused
  rw [if_pos noOutput]
  exact (State.complete_touches ..).led (by decide)

/-! ## The end of a table command (R274) -/

theorem schTblResult_outside (n : Nat) :
    privKey n Reg.schTblResult ≠ Reg.stwAlert ∧ privKey n Reg.schTblResult ≠ Reg.logLost := by
  unfold privKey Reg.schTblResult Reg.stwAlert Reg.logLost
  omega

theorem schTblData_outside (n : Nat) {k : Nat} (word : k < 4) : privKey n (Reg.schTblData k) ≠ Reg.stwAlert ∧
    privKey n (Reg.schTblData k) ≠ Reg.logLost ∧ privKey n (Reg.schTblData k) ≠ privKey n Reg.schTblResult := by
  unfold privKey Reg.schTblData Reg.stwAlert Reg.logLost Reg.schTblResult
  omega

theorem schEnd_zero (s : State) (n : Nat) : s.schEnd n 0 = s.cmdEnd 6 n Reg.schTblResult 0 := rfl

theorem schEnd_done (s : State) (n : Nat) : (s.schEnd n 0).Ended (privKey n Reg.schTblResult) 0 := by
  obtain ⟨h1, h2⟩ := schTblResult_outside n
  unfold State.Ended
  rw [schEnd_zero, cmdEnd_rd _ _ _ _ _ h1 h2]
  exact result_ended _ _ (by decide)

theorem schEnd_done_data (s : State) (n : Nat) {k : Nat} (word : k < 4) :
    (s.schEnd n 0).rd (privKey n (Reg.schTblData k)) = s.rd (privKey n (Reg.schTblData k)) := by
  obtain ⟨h1, h2, h3⟩ := schTblData_outside n word
  rw [schEnd_zero, cmdEnd_rd _ _ _ _ _ h1 h2, rd_result_ne _ _ h3]

theorem schEnd_sch (s : State) (n code : Nat) : (s.schEnd n code).sch = s.sch := (State.schEnd_touches ..).sch (by decide)

/-- CODE 4 is recorded. -/
theorem schEnd_four (s : State) (n : Nat) :
    s.schEnd n 4 = (s.cmdEnd 6 n Reg.schTblResult 4).noteFor Ev.schTblRefused n (beBytes 1 4) := rfl

theorem schEnd_undefined (s : State) (n : Nat) : (s.schEnd n 4).Ended (privKey n Reg.schTblResult) 4 := by
  obtain ⟨h1, h2⟩ := schTblResult_outside n
  unfold State.Ended
  rw [schEnd_four, noteFor_rd _ _ _ _ _ h1 h2, cmdEnd_rd _ _ _ _ _ h1 h2]
  exact result_ended _ _ (by decide)

theorem schEnd_undefined_counts {s : State} (awake : s.ctl.mode ≠ .sentry) (n : Nat) :
    (s.schEnd n 4).events Ev.schTblRefused = satAdd (2 ^ 48 - 1) (s.events Ev.schTblRefused) 1 := by
  have ctl : (s.cmdEnd 6 n Reg.schTblResult 4).ctl = s.ctl := (State.cmdEnd_touches ..).ctl (by decide)
  rw [schEnd_four, noteFor_events _ _ _ _ _ (by rw [ctl]; exact awake) (by decide) (by decide), if_pos rfl,
    events_of_led (cmdEnd_led_of_refused s 6 n _ (by decide))]

/-! ## What a window reaches (R274, R512) -/

theorem schRun_of_undefined (s : State) (n : Nat) {table op : Nat} (asked : op ≠ 0) (undefined : 3 ≤ table ∨ 3 ≤ op) :
    s.schRun n table op = s.schEnd n 4 := (if_neg asked).trans (if_pos undefined)

/-- The INDEX that a table command of window n names. -/
def State.tblIndex (s : State) (n : Nat) : Nat := s.fld (privKey n Reg.schTblIndex) 20 0

/-- Words 0 to 3 of a list stand in the data registers of window n. -/
def State.showWords (s : State) (n : Nat) (ws : List Word) : State :=
  (List.range 4).foldl (fun s k => s.wr (privKey n (Reg.schTblData k)) (ws.getD k 0)) s

/-- Words 0 to 3 of window n. -/
def State.askedWords (s : State) (n : Nat) : List Word := (List.range 4).map (fun k => s.rd (privKey n (Reg.schTblData k)))

section

variable {s : State} {n table : Nat} (defined : table < 3) (inRange : s.tblIndex n < (if table = 2 then 544 * 2048 else 65536))
  (own : n = 0 ∨ (table ≠ 2 ∧ s.assocOwner (s.tblIndex n) = n))
include defined inRange own

/-- A defined command on an entry that the window reaches passes the guards of CODE 4, 5 and 1. -/
theorem schRun_of_reached {op : Nat} (op12 : op = 1 ∨ op = 2) : s.schRun n table op =
    if op = 1 then (s.showWords n (s.tblRead table (s.tblIndex n))).schEnd n 0
    else if s.isFollower then s.schEnd n 2
    else if table = 2 ∧ s.gateHeld (s.tblIndex n) then s.schEnd n 3
    else ((s.tblWrite table (s.tblIndex n) (s.askedWords n)).convey 0x0B (beBytes 1 table ++ beBytes 3 (s.tblIndex n) ++
      (s.askedWords n).flatMap (fun w => beBytes 4 w.toNat))).schEnd n 0 := by
  have asked : op ≠ 0 := by omega
  have known : ¬(3 ≤ table ∨ 3 ≤ op) := by omega
  have mayGates : ¬(n ≠ 0 ∧ table = 2) := fun ⟨window, gates⟩ => own.elim window fun h => h.1 gates
  have inside : ¬((if table = 2 then 544 * 2048 else 65536) ≤ s.tblIndex n) := Nat.not_le.mpr inRange
  have owner : ¬(n ≠ 0 ∧ s.assocOwner (s.tblIndex n) ≠ n) := fun ⟨window, foreign⟩ => own.elim window fun h => foreign h.2
  unfold State.schRun
  exact (if_neg asked).trans ((if_neg known).trans ((if_neg mayGates).trans ((if_neg inside).trans (if_neg owner))))

theorem schRun_reads : s.schRun n table 1 = (s.showWords n (s.tblRead table (s.tblIndex n))).schEnd n 0 :=
  (schRun_of_reached defined inRange own (.inl rfl)).trans (if_pos rfl)

theorem schRun_writes (lead : s.isFollower = false) (free : table = 2 → s.gateHeld (s.tblIndex n) = false) :
    ∃ item, s.schRun n table 2 = ((s.tblWrite table (s.tblIndex n) (s.askedWords n)).convey 0x0B item).schEnd n 0 := by
  have notHeld : ¬(table = 2 ∧ s.gateHeld (s.tblIndex n) = true) := fun ⟨gates, held⟩ => by
    rw [free gates] at held
    cases held
  exact ⟨_, (schRun_of_reached defined inRange own (.inr rfl)).trans ((if_neg (by decide)).trans ((if_neg (by simp [lead])).trans
    (if_neg notHeld)))⟩

end

theorem rd_foldl_wr_range (s : State) {key : Nat → Nat} (inj : Function.Injective key) (val : Nat → Word) {n k : Nat} (h : k < n) :
    ((List.range n).foldl (fun s k => s.wr (key k) (val k)) s).rd (key k) = val k := by
  induction n with
  | zero => omega
  | succ n ih =>
    rw [List.range_succ, List.foldl_append]
    by_cases last : k = n
    · rw [last]
      exact rd_wr_self ..
    · exact (rd_wr_ne _ _ _ _ (fun e => last (inj e))).trans (ih (by omega))

theorem schTblData_injective (n : Nat) : Function.Injective (fun k => privKey n (Reg.schTblData k)) := fun a b h => by
  simp only [privKey, Reg.schTblData] at h
  omega

theorem showWords_rd (s : State) (n : Nat) (ws : List Word) {k : Nat} (word : k < 4) :
    (s.showWords n ws).rd (privKey n (Reg.schTblData k)) = ws.getD k 0 :=
  rd_foldl_wr_range s (schTblData_injective n) (fun k => ws.getD k 0) word

theorem showWords_sch (s : State) (n : Nat) (ws : List Word) : (s.showWords n ws).sch = s.sch :=
  (Touches.foldl (m := [.regs]) _ s (.rfl' _ s) fun _ _ h => .chain (State.wr_touches ..) (by decide) h).sch (by decide)

/-! ## A write of an entry (R261, R274) -/

/-- A write of an entry sets the words of its own table alone; only a bucket follows. -/
theorem tblWrite_cases (s : State) {table : Nat} (defined : table < 3) (i : Nat) (w : List Word) :
    (table = 0 ∧ ∃ b, s.tblWrite table i w = { s with sch := { s.sch with
      aq := SMap.set aqDefault s.sch.aq i ⟨weightOne (w.getD 0 0 &&& 0xC3FFFFFF#32), w.getD 1 0, w.getD 2 0 &&& 0xFFFFFF#32⟩, buckets := b } }) ∨
    (table = 1 ∧ ∃ b, s.tblWrite table i w = { s with sch := { s.sch with
      pol := SMap.set polDefault s.sch.pol i ⟨w.getD 0 0 &&& 0x80FFFFFF#32, w.getD 1 0, (s.polWords i).w2⟩, buckets := b } }) ∨
    (table = 2 ∧ s.tblWrite table i w = { s with sch := { s.sch with
      gateTbl := SMap.set gateTblDefault s.sch.gateTbl i (bits (w.getD 0 0) 7 0, (w.getD 1 0).toNat) } }) := by
  match table, defined with
  | 0, _ => exact .inl ⟨rfl, _, rfl⟩
  | 1, _ => exact .inr (.inl ⟨rfl, _, rfl⟩)
  | 2, _ => exact .inr (.inr ⟨rfl, rfl⟩)

section

variable (s : State) {table : Nat} (defined : table < 3) (i : Nat) (w : List Word)
include defined

theorem tblWrite_aqWords (j : Nat) : (s.tblWrite table i w).aqWords j = if table = 0 ∧ j = i then
    ⟨weightOne (w.getD 0 0 &&& 0xC3FFFFFF#32), w.getD 1 0, w.getD 2 0 &&& 0xFFFFFF#32⟩ else s.aqWords j := by
  obtain ⟨rfl, b, written⟩ | ⟨rfl, b, written⟩ | ⟨rfl, written⟩ := tblWrite_cases s defined i w
  · rw [written]
    exact (SMap.get_set aqDefault s.sch.aq i j _).trans (if_congr (by simp) rfl rfl)
  · rw [written]
    rfl
  · rw [written]
    rfl

theorem tblWrite_polWords (j : Nat) : (s.tblWrite table i w).polWords j = if table = 1 ∧ j = i then
    ⟨w.getD 0 0 &&& 0x80FFFFFF#32, w.getD 1 0, (s.polWords j).w2⟩ else s.polWords j := by
  obtain ⟨rfl, b, written⟩ | ⟨rfl, b, written⟩ | ⟨rfl, written⟩ := tblWrite_cases s defined i w
  · rw [written]
    rfl
  · rw [written]
    refine (SMap.get_set polDefault s.sch.pol i j _).trans ?_
    by_cases same : j = i
    · rw [if_pos same, if_pos ⟨rfl, same⟩, same]
    · rw [if_neg same, if_neg fun h => same h.2]
      rfl
  · rw [written]
    rfl

theorem tblWrite_gateTbl (j : Nat) : SMap.get gateTblDefault (s.tblWrite table i w).sch.gateTbl j = if table = 2 ∧ j = i then
    (bits (w.getD 0 0) 7 0, (w.getD 1 0).toNat) else SMap.get gateTblDefault s.sch.gateTbl j := by
  obtain ⟨rfl, b, written⟩ | ⟨rfl, b, written⟩ | ⟨rfl, written⟩ := tblWrite_cases s defined i w
  · rw [written]
    rfl
  · rw [written]
    rfl
  · rw [written]
    exact (SMap.get_set gateTblDefault s.sch.gateTbl i j _).trans (if_congr (by simp) rfl rfl)

theorem tblWrite_frame : (s.tblWrite table i w).sch.queues = s.sch.queues ∧ (s.tblWrite table i w).sch.frames = s.sch.frames ∧
    (s.tblWrite table i w).sch.gates = s.sch.gates := by
  obtain ⟨rfl, b, written⟩ | ⟨rfl, b, written⟩ | ⟨rfl, written⟩ := tblWrite_cases s defined i w
  · exact written ▸ ⟨rfl, rfl, rfl⟩
  · exact written ▸ ⟨rfl, rfl, rfl⟩
  · exact written ▸ ⟨rfl, rfl, rfl⟩

end

theorem aqWords_of_sch {s t : State} (h : t.sch = s.sch) (a : Nat) : t.aqWords a = s.aqWords a := by unfold State.aqWords; rw [h]

theorem polWords_of_sch {s t : State} (h : t.sch = s.sch) (a : Nat) : t.polWords a = s.polWords a := by unfold State.polWords; rw [h]

/-! ## The commands -/

section

variable {s : State} {p : Path} (takes : s.Takes p Reg.schTblCmd)
include takes

theorem schTblRead_eq (table : Fin 3) : exec (.schTblRead p table) s = .next ((s.schRun p.allot table.val 1).disarm 6) :=
  congrArg Host.Outcome.next (cmdWrite_of_takes _ _ takes)

theorem schTblWrite_eq (table : Fin 3) : exec (.schTblWrite p table) s = .next ((s.schRun p.allot table.val 2).disarm 6) :=
  congrArg Host.Outcome.next (cmdWrite_of_takes _ _ takes)

theorem schTblUnknown_eq {table op : Fin 4} (asked : op.val ≠ 0) (undefined : 3 ≤ table.val ∨ 3 ≤ op.val) :
    exec (.schTblUnknown p table op) s = .next ((s.schEnd p.allot 4).disarm 6) := by
  show execSchTblUnknown p table op s = _
  unfold execSchTblUnknown
  rw [if_neg (by omega), cmdWrite_of_takes _ _ takes, schRun_of_undefined _ _ asked undefined]
  rfl

end

end Sys2Proof.Machine
end
section
/-! Gate lists (R264, R265, R268): what places, announces and changes a list, and what it leaves. -/

namespace Sys2Proof.Machine

open Sys2Proof

/-! ## The gates of an output -/

@[simp] theorem gate_setGate_same (s : State) (o : Nat) (g : GateSt) : (s.setGate o g).gate o = g := by
  unfold State.gate State.setGate
  rw [SMap.get_set_self]
  split
  · next idle => exact idle.symm
  · rfl

theorem gate_setGate_ne (s : State) {o k : Nat} (g : GateSt) (other : k ≠ o) : (s.setGate o g).gate k = s.gate k :=
  congrArg (Option.getD · GateSt.idle) (SMap.get_set_ne _ _ _ _ _ other)

theorem gate_of_sch {s t : State} (h : t.sch = s.sch) (o : Nat) : t.gate o = s.gate o := by unfold State.gate; rw [h]

/-- From s to t the list of output o may have started, stopped or found its place; which list governs and what is announced stay. -/
structure GateMoved (o : Nat) (s t : State) : Prop where
  touches : Touches [.sch] s t
  active : (t.gate o).active = (s.gate o).active
  pending : (t.gate o).pending = (s.gate o).pending
  others : ∀ k, k ≠ o → t.gate k = s.gate k
  table : t.sch.gateTbl = s.sch.gateTbl

namespace GateMoved

theorem refl (o : Nat) (s : State) : GateMoved o s s := ⟨.rfl' _ s, rfl, rfl, fun _ _ => rfl, rfl⟩

theorem trans {o : Nat} {s t u : State} (h : GateMoved o s t) (k : GateMoved o t u) : GateMoved o s u :=
  ⟨h.touches.trans k.touches, k.active.trans h.active, k.pending.trans h.pending, fun j other => (k.others j other).trans (h.others j other),
    k.table.trans h.table⟩

theorem setGate {o : Nat} {s : State} {g : GateSt} (active : g.active = (s.gate o).active) (pending : g.pending = (s.gate o).pending) :
    GateMoved o s (s.setGate o g) :=
  ⟨State.setGate_touches .., by rw [gate_setGate_same, active], by rw [gate_setGate_same, pending], fun _ => gate_setGate_ne _ _, rfl⟩

theorem placeGate (o : Nat) (s : State) : GateMoved o s (s.placeGate o) := setGate rfl rfl

theorem gateResume (o : Nat) (s : State) : GateMoved o s (s.gateResume o) := by
  unfold State.gateResume
  split
  · split
    · exact refl o s
    · exact placeGate o s
  · split
    · exact setGate rfl rfl
    · exact refl o s

end GateMoved

/-! ## A write of SCH_GATE_CFG (R264, R265, R268) -/

/-- The fields of SCH_GATE_CFG as a write leaves them: a CHANNEL above 11 acts as 0. -/
def gateCfgWord (v : Word) : Word :=
  if 12 ≤ bits (v &&& 0x8FFF07FF#32) 27 24 then setBits (v &&& 0x8FFF07FF#32) 27 24 0 else v &&& 0x8FFF07FF#32

theorem gateCfgWord_length (v : Word) : bits (gateCfgWord v) 10 0 = bits v 10 0 := by
  have masked : bits (v &&& 0x8FFF07FF#32) 10 0 = bits v 10 0 := by
    unfold bits
    rw [BitVec.toNat_and, Nat.pow_zero, Nat.div_one, Nat.div_one, Nat.and_mod_two_pow]
    exact (Nat.and_two_pow_sub_one_eq_mod ..).trans (Nat.mod_mod ..)
  unfold gateCfgWord
  split
  · rw [bits_setBits_out _ _ _ _ _ _ (.inl (by decide)) (by decide), masked]
  · exact masked

theorem writeGateCfg_moves (s : State) (o : Nat) (v : Word) :
    GateMoved o (s.wr (Reg.schGateCfg o) (gateCfgWord v)) (s.writeGateCfg o v) := by
  have resumed := GateMoved.gateResume o (s.wr (Reg.schGateCfg o) (gateCfgWord v))
  unfold State.writeGateCfg
  extract_lets w w' moved resumed'
  change GateMoved o _ (if moved && (resumed'.gate o).running then resumed'.placeGate o else resumed')
  split
  · exact resumed.trans (.placeGate o _)
  · exact resumed

theorem writeGateCfg_rd (s : State) (o : Nat) (v : Word) (k : Nat) :
    (s.writeGateCfg o v).rd k = (s.wr (Reg.schGateCfg o) (gateCfgWord v)).rd k :=
  rd_of_regs ((writeGateCfg_moves s o v).touches.regs (by decide)) k

/-- The time of an output's gates does not depend on its lists. -/
theorem gateNow_of_touches {s t : State} (h : Touches [.sch] s t) (o : Nat) : t.gateNow o = s.gateNow o := by
  have chan (c : Nat) : t.chan c = s.chan c := by unfold State.chan; rw [h.tim (by decide)]
  have channel : t.gateChannel o = s.gateChannel o := by unfold State.gateChannel State.fld; rw [rd_of_regs (h.regs (by decide))]
  have follower : t.isFollower = s.isFollower := by unfold State.isFollower; rw [h.ctl (by decide)]
  have map (c : Nat) : t.blockMap c = s.blockMap c := by unfold State.blockMap; rw [chan, follower, h.line (by decide)]
  have block : t.blockNo = s.blockNo := by unfold State.blockNo; rw [h.line (by decide), h.now (by decide)]
  have value (c : Nat) : t.chanValue c = s.chanValue c := by unfold State.chanValue; simp only [chan]
  unfold State.gateNow State.blockTime State.blockFine
  rw [channel, chan, map, block, value]

theorem writeGateCfg_gateNow (s : State) (o : Nat) (v : Word) :
    (s.writeGateCfg o v).gateNow o = (s.wr (Reg.schGateCfg o) (gateCfgWord v)).gateNow o :=
  gateNow_of_touches (writeGateCfg_moves s o v).touches o

theorem intervalsOk_of_moved {o : Nat} {s t : State} (h : GateMoved o s t) (len : Nat) : t.intervalsOk o len = s.intervalsOk o len := by
  unfold State.intervalsOk State.gateEntry
  rw [h.active, h.table]

/-- T_c: the first cycle start that does not lie before channel time soon (R265). -/
def changeAt (base cyc soon : Nat) : Nat := if soon ≤ base then base else base + (soon - base + cyc - 1) / cyc * cyc

/-- BASE of SCH_GATE_BASE and CYCLE_NS of SCH_GATE_CYCLE. -/
def State.gateBase (s : State) (o : Nat) : Nat := (s.rd (Reg.schGateBaseLo o)).toNat + (s.rd (Reg.schGateBaseHi o)).toNat * 2 ^ 32
def State.gateCycle (s : State) (o : Nat) : Nat := clamp 1 1000000000 (s.fld (Reg.schGateCycle o) 29 0)

theorem writeGateCfg_gateBase (s : State) (o : Nat) (v : Word) : (s.writeGateCfg o v).gateBase o = s.gateBase o := by
  unfold State.gateBase
  rw [writeGateCfg_rd, writeGateCfg_rd, rd_wr_ne _ _ _ _ (by unfold Reg.schGateBaseLo Reg.schGateCfg; omega),
    rd_wr_ne _ _ _ _ (by unfold Reg.schGateBaseHi Reg.schGateCfg; omega)]

theorem writeGateCfg_gateCycle (s : State) (o : Nat) (v : Word) : (s.writeGateCfg o v).gateCycle o = s.gateCycle o := by
  unfold State.gateCycle State.fld
  rw [writeGateCfg_rd, rd_wr_ne _ _ _ _ (by unfold Reg.schGateCycle Reg.schGateCfg; omega)]

section

variable {s : State} {o : Nat} {v : Word} (change : bit v 28 = true)
include change

theorem gateCfgEffect_announces (none : (s.gate o).pending = none) (enable : bit v 31 = true) (some : 1 ≤ bits v 10 0)
    (fits : bits v 10 0 ≤ 1024) (lasts : s.intervalsOk o (bits v 10 0) = true) :
    s.gateCfgEffect o v = (s.writeGateCfg o v).setGate o { (s.writeGateCfg o v).gate o with
      pending := .some (changeAt (s.gateBase o) (s.gateCycle o) ((s.writeGateCfg o v).gateNow o + 20000), s.gateBase o, s.gateCycle o,
        bits v 10 0) } := by
  have moved := writeGateCfg_moves s o v
  have free : ((s.writeGateCfg o v).gate o).pending = .none := moved.pending.trans none
  have lasts' : (s.writeGateCfg o v).intervalsOk o (bits v 10 0) = true := (intervalsOk_of_moved moved _).trans lasts
  rw [← writeGateCfg_gateBase s o v, ← writeGateCfg_gateCycle s o v]
  unfold State.gateCfgEffect
  extract_lets written
  rw [if_neg (by simp [change])]
  refine if_neg ?_
  rw [free, lasts', enable]
  simp only [Option.isSome_none, Bool.false_eq_true, Bool.true_eq_false, or_false, false_or]
  omega

theorem gateCfgEffect_refuses (length : bits v 10 0 = 0 ∨ 1024 < bits v 10 0) :
    s.gateCfgEffect o v = ((s.writeGateCfg o v).setFlg (Reg.schGateStatus o) 30 true).noteFor Ev.gateChangeRefused
      ((s.writeGateCfg o v).outOwner o) (beBytes 2 o) := by
  unfold State.gateCfgEffect
  extract_lets written
  rw [if_neg (by simp [change])]
  refine if_pos ?_
  exact .inr (length.imp_right .inl)

theorem gateChange_eq {p : Path} {out : Fin 544} (reaches : s.Reaches p (Reg.schGateCfg out)) (alone : s.ctl.mode.isYoke = false) :
    exec (.gateChange p out v) s = .next ((s.disarm (Reg.schGateCfg out / 0x100000)).gateCfgEffect out v) := by
  show execGateChange p out v s = _
  unfold execGateChange
  rw [if_neg (by simp [change])]
  refine congrArg Host.Outcome.next (hostWrite_of_reaches' v _ reaches ?_)
  rw [(State.gateCfgEffect_touches ..).ctl (by decide)]
  exact notLead_of_alone alone

end

theorem noteFor_counts {s : State} {e : EvKind} (n : Nat) (ps : List Byte) (awake : s.ctl.mode ≠ .sentry)
    (h1 : e.code ≠ Ev.eventRingOverflow.code) (h2 : e.code ≠ Ev.logStageLost.code) :
    (s.noteFor e n ps).events e = satAdd (2 ^ 48 - 1) (s.events e) 1 :=
  (noteFor_events _ _ _ _ _ awake h1 h2).trans (if_pos rfl)

theorem gate_noteFor (s : State) (e : EvKind) (n : Nat) (ps : List Byte) (o : Nat) : (s.noteFor e n ps).gate o = s.gate o :=
  gate_of_sch ((State.noteFor_touches ..).sch (by decide)) o

theorem gateStatus_of_refusal (s : State) (o : Nat) (ps : List Byte) (n : Nat) :
    ((s.setFlg (Reg.schGateStatus o) 30 true).noteFor Ev.gateChangeRefused n ps).flg (Reg.schGateStatus o) 30 = true := by
  unfold State.flg
  rw [noteFor_rd _ _ _ _ _ (by unfold Reg.schGateStatus Reg.stwAlert; omega) (by unfold Reg.schGateStatus Reg.logLost; omega)]
  exact (congrArg (bit · 30) (rd_wr_self ..)).trans (bit_setBits_self _ _ _ (by decide) (by decide))

/-! ## A change that takes effect (R265) -/

/-- An announced list governs from its entry 0 at T_c. -/
def GateSt.governed (g : GateSt) (tc base cyc len : Nat) : GateSt :=
  { g with active := 1 - g.active, base := base, cycle := cyc, len := len, entry := 0, cycleAt := tc, endsAt := tc, running := false,
           pending := none, oversize := false }

/-- The list that governs from T_c on runs if it may. -/
def State.governGate (s : State) (o tc base cyc len : Nat) : State :=
  let t := s.setGate o ((s.gate o).governed tc base cyc len)
  if t.gateMay o then t.setGate o { t.gate o with running := true, endsAt := tc + ((t.spans o).getD 0 (0, 0)).2 } else t

theorem governGate_gate (s : State) (o tc base cyc len : Nat) : ∃ ends running, (s.governGate o tc base cyc len).gate o =
    { (s.gate o).governed tc base cyc len with endsAt := ends, running := running } := by
  unfold State.governGate
  extract_lets t
  have governed : t.gate o = (s.gate o).governed tc base cyc len := gate_setGate_same ..
  split
  · refine ⟨tc + ((t.spans o).getD 0 (0, 0)).2, true, (gate_setGate_same ..).trans ?_⟩
    exact congrArg (fun g : GateSt => { g with running := true, endsAt := tc + ((t.spans o).getD 0 (0, 0)).2 }) governed
  · exact ⟨_, _, governed⟩

theorem governGate_gate_ne (s : State) {o k : Nat} (other : k ≠ o) (tc base cyc len : Nat) :
    (s.governGate o tc base cyc len).gate k = s.gate k := by
  unfold State.governGate
  extract_lets t
  have kept : t.gate k = s.gate k := gate_setGate_ne s _ other
  split
  · exact (gate_setGate_ne _ _ other).trans kept
  · exact kept

theorem governGate_touches (s : State) (o tc base cyc len : Nat) : Touches [.sch] s (s.governGate o tc base cyc len) :=
  .ite (.chain (State.setGate_touches ..) (by decide) (State.setGate_touches ..)) (State.setGate_touches ..)

section

variable {s : State} {o : Fin 544}

theorem gateListTakeEffect_of_none (none : (s.gate o).pending = none) : exec (.gateListTakeEffect o) s = .next s := by
  show execGateListTakeEffect o s = _
  unfold execGateListTakeEffect
  dsimp only
  rw [none]

variable {tc base cyc len : Nat} (announced : (s.gate o).pending = some (tc, base, cyc, len))
include announced

theorem gateListTakeEffect_of_early (early : s.gateNow o < tc) : exec (.gateListTakeEffect o) s = .next s := by
  show execGateListTakeEffect o s = _
  unfold execGateListTakeEffect
  dsimp only
  rw [announced]
  exact if_pos early

theorem gateListTakeEffect_of_due (due : tc ≤ s.gateNow o) : exec (.gateListTakeEffect o) s =
    .next ((s.governGate o tc base cyc len).noteFor Ev.gateListChange ((s.governGate o tc base cyc len).outOwner o)
      (beBytes 2 o ++ beBytes 1 (1 - (s.gate o).active))) := by
  show execGateListTakeEffect o s = _
  unfold execGateListTakeEffect
  extract_lets out g
  rw [show g.pending = some (tc, base, cyc, len) from announced]
  exact if_neg (Nat.not_lt.mpr due)

end

/-! ## Entries and cycles (R264, R268) -/

section

variable {s : State} {o : Fin 544}

theorem gateEntryAdvance_of_idle (idle : s.gateMay o = false ∨ (s.gate o).running = false) :
    exec (.gateEntryAdvance o) s = .next (s.gateResume o) := if_pos idle

variable (may : s.gateMay o = true) (runs : (s.gate o).running = true)
include may runs

theorem gateEntryAdvance_of_running : exec (.gateEntryAdvance o) s =
    if s.gateNow o < (s.gate o).endsAt then .next s
    else if (s.gate o).entry + 1 < (s.spans o).length then .next (s.setGate o { s.gate o with
      entry := (s.gate o).entry + 1, endsAt := (s.gate o).endsAt + ((s.spans o).getD ((s.gate o).entry + 1) (0, 0)).2 })
    else .next (s.setGate o { s.gate o with
      entry := 0, cycleAt := (s.gate o).cycleAt + (s.gate o).cycle,
      endsAt := (s.gate o).cycleAt + (s.gate o).cycle + ((s.spans o).getD 0 (0, 0)).2 }) :=
  if_neg (by simp [may, runs])

end

end Sys2Proof.Machine
end

section
/-! A frame that leaves its queue before its pick (R248, R254, R270). -/

namespace Sys2Proof.Machine

open Sys2Proof

/-! ## Queues (R253, R254) -/

@[simp] theorem queue_setQueue_same (s : State) (k : Nat) (l : List QEntry) : (s.setQueue k l).queue k = l := SMap.get_set_self ..

theorem queue_setQueue_ne (s : State) {k j : Nat} (l : List QEntry) (other : j ≠ k) : (s.setQueue k l).queue j = s.queue j :=
  SMap.get_set_ne _ _ _ _ _ other

theorem queue_of_queues {s t : State} (h : t.sch.queues = s.sch.queues) (k : Nat) : t.queue k = s.queue k := by unfold State.queue; rw [h]

/-- Besides the queue only deficits change (R254). -/
theorem popQueue_sch (s : State) (k : Nat) : ∃ d, (s.popQueue k).sch =
    { s.sch with queues := SMap.set noQueue s.sch.queues k ((s.queue k).drop 1), deficit := d } := by
  have zeroed (x : State) (j : Nat) (b : Bool) : ∃ d, (x.zeroDeficit j b).sch = { x.sch with deficit := d } := by
    cases b
    · exact ⟨_, rfl⟩
    · exact ⟨_, rfl⟩
  unfold State.popQueue
  extract_lets q popped
  obtain ⟨d, once⟩ := zeroed popped k (popped.queue k == [])
  obtain ⟨d', twice⟩ := zeroed (popped.zeroDeficit k (popped.queue k == [])) (200000 + q) (popped.children q == [])
  exact ⟨d', twice.trans (congrArg (fun x : Sch => { x with deficit := d' }) once)⟩

/-! ## Cells and spill (R248, R250) -/

/-- From s to t cells were counted and events of spill recorded: queues, frames, the times of LAUNCH_LATE and every other event stay. -/
structure CellsCounted (s t : State) : Prop where
  touches : Touches (.sch :: Part.note) s t
  queues : t.sch.queues = s.sch.queues
  frames : t.sch.frames = s.sch.frames
  lateAt : t.sch.lateAt = s.sch.lateAt
  events : s.ctl.mode ≠ .sentry → t.events Ev.launchLate = s.events Ev.launchLate

namespace CellsCounted

theorem refl (s : State) : CellsCounted s s := ⟨.rfl' _ s, rfl, rfl, rfl, fun _ => rfl⟩

theorem trans {s t u : State} (h : CellsCounted s t) (k : CellsCounted t u) : CellsCounted s u where
  touches := h.touches.trans k.touches
  queues := k.queues.trans h.queues
  frames := k.frames.trans h.frames
  lateAt := k.lateAt.trans h.lateAt
  events awake := (k.events (by rw [h.touches.ctl (by decide)]; exact awake)).trans (h.events awake)

theorem note (s : State) (e : EvKind) (ps : List Byte) (other : Ev.launchLate.code ≠ e.code) : CellsCounted s (s.note e ps) where
  touches := (State.note_touches ..).mono (by decide)
  queues := by rw [(State.note_touches ..).sch (by decide)]
  frames := by rw [(State.note_touches ..).sch (by decide)]
  lateAt := by rw [(State.note_touches ..).sch (by decide)]
  events awake := (note_events _ _ _ _ awake (by decide) (by decide)).trans (if_neg other)

theorem addCells (s : State) (enc : Bool) (used reserved : Int) : CellsCounted s (s.addCells enc used reserved) := by
  have touched : Touches (.sch :: Part.note) s (s.addCells enc used reserved) := (State.addCells_touches ..).mono (by decide)
  cases enc
  · exact ⟨touched, rfl, rfl, rfl, fun _ => rfl⟩
  · exact ⟨touched, rfl, rfl, rfl, fun _ => rfl⟩

/-- The direction's spill flag. -/
theorem setSpill (s : State) (enc b : Bool) : CellsCounted s
    (if enc then { s with sch := { s.sch with spillEnc := b } } else { s with sch := { s.sch with spillDec := b } }) := by
  cases enc
  · exact ⟨.set_sch (.rfl' _ s) (by decide), rfl, rfl, rfl, fun _ => rfl⟩
  · exact ⟨.set_sch (.rfl' _ s) (by decide), rfl, rfl, rfl, fun _ => rfl⟩

theorem spillCheck (s : State) (enc : Bool) : CellsCounted s (s.spillCheck enc) := by
  unfold State.spillCheck
  extract_lets on off off' active free put dir
  split
  · split
    · exact (setSpill s enc false).trans (note _ _ _ (by decide))
    · exact refl s
  · split
    · exact (setSpill s enc true).trans (note _ _ _ (by decide))
    · exact refl s

theorem setSpillUsed (s : State) (n : Nat) : CellsCounted s { s with sch := { s.sch with spillUsed := n } } :=
  ⟨.set_sch (.rfl' _ s) (by decide), rfl, rfl, rfl, fun _ => rfl⟩

end CellsCounted

/-! ## The last reference to a frame (R248, R260) -/

/-- What a frame is once one reference to it has gone. -/
def Frame.dropped (f : Frame) : Option Frame :=
  if 1 < f.refs then some { f with refs := f.refs - 1 } else if f.whole then none else some { f with refs := 0, reserved := 0 }

theorem dropRef_of_frame {s : State} {id : Nat} {f : Frame} (held : s.frame? id = some f) :
    CellsCounted (s.setFrame id f.dropped) (s.dropRef id) := by
  unfold State.dropRef Frame.dropped
  rw [held]
  dsimp only
  split
  · exact .refl _
  · exact (CellsCounted.setSpillUsed _ _).trans ((CellsCounted.addCells ..).trans (.spillCheck ..))

/-! ## A head that is dropped (R256, R270) -/

/-- The head of queue k leaves it, and its frame loses a reference; besides, watching and counting. -/
structure HeadDropped (k : Nat) (e : QEntry) (f : Frame) (s t : State) : Prop where
  touches : Touches (.sch :: Part.note) s t
  queue : t.queue k = (s.queue k).drop 1
  others : ∀ j, j ≠ k → t.queue j = s.queue j
  frame : t.frame? e.frame = f.dropped
  frames : ∀ i, i ≠ e.frame → t.frame? i = s.frame? i
  lateAt : t.sch.lateAt = s.sch.lateAt
  events : s.ctl.mode ≠ .sentry → t.events Ev.launchLate = s.events Ev.launchLate

theorem head_cases {s : State} {k : Nat} {e : QEntry} {f : Frame} (head : s.head k = some (e, f)) :
    ∃ rest, s.queue k = e :: rest ∧ s.frame? e.frame = some f := by
  unfold State.head at head
  split at head
  · cases head
  · next e' rest queue =>
    obtain ⟨f', held, same⟩ := Option.map_eq_some_iff.mp head
    cases same
    exact ⟨rest, queue, held⟩

theorem frame_of_frames {s t : State} (h : t.sch.frames = s.sch.frames) (i : Nat) : t.frame? i = s.frame? i := by
  unfold State.frame?
  rw [h]

theorem dropHead_of_head {s : State} {k : Nat} {e : QEntry} {f : Frame} (head : s.head k = some (e, f)) (status : Nat) :
    HeadDropped k e f s (s.dropHead k status) := by
  obtain ⟨rest, queue, held⟩ := head_cases head
  have watched := State.observe_touches s 4 f.tag (s.sight f e.assoc k) true false
  have silent (awake : s.ctl.mode ≠ .sentry) := observe_events s 4 f.tag (s.sight f e.assoc k) true false Ev.launchLate awake
    (by decide) (by decide) (by decide)
  unfold State.dropHead
  rw [queue]
  dsimp only
  rw [held]
  dsimp only
  generalize s.observe 4 f.tag (s.sight f e.assoc k) true false = seen at watched silent ⊢
  have told := State.injectDone_touches (seen.popQueue k) f status 0
  have popped := State.popQueue_touches seen k
  obtain ⟨d, sch⟩ := popQueue_sch seen k
  rw [← told.sch (by decide)] at sch
  have before : Touches (.sch :: Part.note) s ((seen.popQueue k).injectDone f status 0) :=
    (watched.mono (by decide)).trans ((popped.mono (by decide)).trans (told.mono (by decide)))
  have led : ((seen.popQueue k).injectDone f status 0).led = seen.led := (told.led (by decide)).trans (popped.led (by decide))
  rw [watched.sch (by decide), queue_of_queues (congrArg Sch.queues (watched.sch (by decide)))] at sch
  generalize (seen.popQueue k).injectDone f status 0 = u at sch before led ⊢
  have held' : u.frame? e.frame = some f := (frame_of_frames (congrArg Sch.frames sch :) _).trans held
  have freed := dropRef_of_frame held'
  refine ⟨before.trans (((State.setFrame_touches ..).mono (by decide)).trans freed.touches), ?_, fun j other => ?_, ?_, fun i other => ?_,
    freed.lateAt.trans (congrArg Sch.lateAt sch :), fun awake => ?_⟩
  · rw [queue_of_queues freed.queues]
    exact (queue_of_queues (t := u) (s := s.setQueue k _) (congrArg Sch.queues sch :) k).trans (queue_setQueue_same ..)
  · rw [queue_of_queues freed.queues]
    exact (queue_of_queues (t := u) (s := s.setQueue k _) (congrArg Sch.queues sch :) j).trans (queue_setQueue_ne _ _ other)
  · rw [frame_of_frames freed.frames, frame_setFrame_same]
  · rw [frame_of_frames freed.frames, frame_setFrame_ne _ _ other]
    exact frame_of_frames (congrArg Sch.frames sch :) i
  · rw [freed.events (by rw [(State.setFrame_touches ..).ctl (by decide), before.ctl (by decide)]; exact awake)]
    exact (events_of_led (t := u.setFrame e.frame f.dropped) led _).trans (silent awake)

/-! ## The late limit (R270) -/

/-- The queue that LAUNCH_LATE names: an association's, or the direct FIFO of a class queue. -/
def launchKey (q : Nat) (a : Option (Fin 65536)) : Nat := a.elim (directKey q) Fin.val

/-- LAUNCH_LATE is due for class queue q: once per second. -/
def State.launchLateDue (s : State) (q : Nat) : Bool :=
  match SMap.get noneOf s.sch.lateAt q with | some t => decide (t + 1000000000 ≤ s.now) | none => true

/-- LAUNCH_LATE is recorded for class queue q while it is due. -/
def State.tellLaunchLate (s : State) (q : Nat) : State :=
  if s.launchLateDue q then State.noteFor { s with sch := { s.sch with lateAt := SMap.set noneOf s.sch.lateAt q (some s.now) } }
    Ev.launchLate (s.outOwner (q / 8)) (beBytes 2 q)
  else s

theorem tellLaunchLate_keeps (s : State) (q : Nat) : (s.tellLaunchLate q).sch.queues = s.sch.queues ∧
    (s.tellLaunchLate q).sch.frames = s.sch.frames := by
  unfold State.tellLaunchLate
  split
  · rw [(State.noteFor_touches ..).sch (by decide)]
    exact ⟨rfl, rfl⟩
  · exact ⟨rfl, rfl⟩

theorem tellLaunchLate_first {s : State} {q : Nat} (first : SMap.get noneOf s.sch.lateAt q = none) (awake : s.ctl.mode ≠ .sentry) :
    (s.tellLaunchLate q).events Ev.launchLate = satAdd (2 ^ 48 - 1) (s.events Ev.launchLate) 1 := by
  have due : s.launchLateDue q = true := by
    unfold State.launchLateDue
    rw [first]
  unfold State.tellLaunchLate
  rw [if_pos due]
  exact noteFor_counts _ _ (by exact awake) (by decide) (by decide)

section

variable {s : State} {q : Fin 4352} {a : Option (Fin 65536)} {e : QEntry} {f : Frame} (head : s.head (launchKey q a) = some (e, f))
include head

theorem launchLate_of_inTime (inTime : s.tooLate q e f = false) : exec (.launchLate q a) s = .next s := by
  show execLaunchLate q a s = _
  unfold execLaunchLate
  extract_lets cq k
  have named : k = launchKey q a := by cases a <;> rfl
  clear_value k
  subst named
  rw [head]
  exact if_pos (.inr inTime)

theorem launchLate_of_late (child : launchKey q a ∈ s.children q) (late : s.tooLate q e f = true) :
    exec (.launchLate q a) s = .next (((s.schCount 7 1).dropHead (launchKey q a) 11).tellLaunchLate q) := by
  show execLaunchLate q a s = _
  unfold execLaunchLate
  extract_lets cq k
  have named : k = launchKey q a := by cases a <;> rfl
  clear_value k
  subst named
  rw [head]
  refine (if_neg ?_).trans (apply_ite Host.Outcome.next ..).symm
  have present : (s.children cq).contains (launchKey q a) = true := List.contains_iff_mem.mpr child
  rw [present, show s.tooLate cq e f = true from late]
  simp

end

end Sys2Proof.Machine

open Sys2Proof Sys2Proof.Machine

/-- Settles O34: each command passes its guards, and then shows, writes, announces, places or drops what it may, and nothing else. -/
theorem schedulerTablesGatesAndLaunches : Obligations.SchedulerTablesGatesAndLaunches := by
  unfold Obligations.SchedulerTablesGatesAndLaunches
  refine ⟨fun p table s takes inRange own => ⟨?_, fun lead free => ?_⟩, fun p table op s takes asked undefined awake => ?_,
    fun p o v s reaches alone awake change none => ⟨fun enable some fits lasts base hbase cyc hcyc soon hsoon => ?_, fun length => ?_⟩,
    fun o s => ⟨gateListTakeEffect_of_none, fun tc base cyc len announced => ⟨gateListTakeEffect_of_early announced, fun due awake => ?_⟩⟩,
    fun o s => ⟨gateEntryAdvance_of_idle, fun may runs => ?_⟩,
    fun q a s k hk e f head child => ?_⟩
  · have run := schTblRead_eq takes table
    rw [schRun_reads table.isLt inRange own] at run
    refine ⟨_, run, (schEnd_sch ..).trans (showWords_sch ..), schEnd_done .., fun k word => ?_⟩
    exact (schEnd_done_data _ _ word).trans (showWords_rd _ _ _ word)
  · obtain ⟨item, writes⟩ := schRun_writes table.isLt inRange own lead free
    have run := schTblWrite_eq takes table
    rw [writes] at run
    have sch := (schEnd_sch (State.convey _ 0x0B item) p.allot 0).trans ((State.convey_touches
      (s.tblWrite table (s.tblIndex p.allot) (s.askedWords p.allot)) 0x0B item).sch (by decide))
    obtain ⟨queues, frames, gates⟩ := tblWrite_frame s table.isLt (s.tblIndex p.allot) (s.askedWords p.allot)
    refine ⟨_, run, schEnd_done .., fun i => (aqWords_of_sch sch i).trans (tblWrite_aqWords s table.isLt _ _ i),
      fun i => (polWords_of_sch sch i).trans ?_, fun i => ?_, (congrArg Sch.queues sch).trans queues, (congrArg Sch.frames sch).trans frames,
      (congrArg Sch.gates sch).trans gates⟩
    · exact tblWrite_polWords s table.isLt _ _ i
    · exact (congrArg (SMap.get gateTblDefault ·.gateTbl i) sch).trans (tblWrite_gateTbl s table.isLt _ _ i)
  · exact ⟨_, schTblUnknown_eq takes asked undefined, schEnd_sch .., schEnd_undefined .., schEnd_undefined_counts awake _⟩
  · subst hbase hcyc hsoon
    have run := gateChange_eq change reaches alone
    rw [gateCfgEffect_announces (s := s.disarm _) change none enable some fits lasts] at run
    have moved := writeGateCfg_moves (s.disarm (Reg.schGateCfg o / 0x100000)) o v
    have sameTime : ((s.disarm (Reg.schGateCfg o / 0x100000)).writeGateCfg o v).gateNow o = (s.writeGateCfg o v).gateNow o := by
      rw [writeGateCfg_gateNow, writeGateCfg_gateNow]
      rfl
    refine ⟨_, run, ?_, ?_, fun k other => (gate_setGate_ne _ _ other).trans (moved.others k other), ?_⟩
    · rw [gate_setGate_same, sameTime]
      rfl
    · rw [gate_setGate_same]
      exact moved.active
    · exact (congrArg (bits · 10 0) ((writeGateCfg_rd ..).trans (rd_wr_self ..))).trans (gateCfgWord_length v)
  · have run := gateChange_eq change reaches alone
    rw [gateCfgEffect_refuses change length] at run
    have moved := writeGateCfg_moves (s.disarm (Reg.schGateCfg o / 0x100000)) o v
    refine ⟨_, run, ?_, gateStatus_of_refusal .., ?_⟩
    · rw [gate_noteFor]
      exact moved.pending.trans none
    · have touched := State.writeGateCfg_touches (s.disarm (Reg.schGateCfg o / 0x100000)) o v
      rw [noteFor_counts _ _ (by exact touched.ctl (by decide) ▸ awake) (by decide) (by decide)]
      exact congrArg (satAdd _ · 1) (events_of_led (touched.led (by decide)) _)
  · obtain ⟨ends, running, gate⟩ := governGate_gate s o tc base cyc len
    have touched := governGate_touches s o tc base cyc len
    have counted := noteFor_counts (s := s.governGate o tc base cyc len) (e := Ev.gateListChange) ((s.governGate o tc base cyc len).outOwner o)
      (beBytes 2 o ++ beBytes 1 (1 - (s.gate o).active)) (by rw [touched.ctl (by decide)]; exact awake) (by decide) (by decide)
    have governs := (gate_noteFor (s.governGate o tc base cyc len) Ev.gateListChange ((s.governGate o tc base cyc len).outOwner o)
      (beBytes 2 o ++ beBytes 1 (1 - (s.gate o).active)) o).trans gate
    exact ⟨_, gateListTakeEffect_of_due announced due, congrArg GateSt.active governs, congrArg GateSt.base governs,
      congrArg GateSt.cycle governs, congrArg GateSt.len governs, congrArg GateSt.entry governs, congrArg GateSt.cycleAt governs,
      congrArg GateSt.pending governs, fun k other => (gate_noteFor ..).trans (governGate_gate_ne s other ..),
      counted.trans (congrArg (satAdd _ · 1) (events_of_led (touched.led (by decide)) _))⟩
  · rw [gateEntryAdvance_of_running may runs]
    refine ⟨fun early => if_pos early, fun ended more => ?_, fun ended last => ?_⟩
    · rw [if_neg (Nat.not_lt.mpr ended), if_pos more]
    · rw [if_neg (Nat.not_lt.mpr ended), if_neg (Nat.not_lt.mpr last)]
  · obtain rfl : k = launchKey q a := by cases a <;> exact hk
    refine ⟨fun late awake => ?_, launchLate_of_inTime head⟩
    have dropped := dropHead_of_head (s := s.schCount 7 1) head 11
    obtain ⟨queues, frames⟩ := tellLaunchLate_keeps ((s.schCount 7 1).dropHead (launchKey q a) 11) q
    refine ⟨_, launchLate_of_late head child late, (queue_of_queues queues _).trans dropped.queue,
      fun j other => (queue_of_queues queues j).trans (dropped.others j other), (frame_of_frames frames _).trans dropped.frame,
      fun i other => (frame_of_frames frames i).trans (dropped.frames i other), fun first => ?_⟩
    have first' : SMap.get noneOf ((s.schCount 7 1).dropHead (launchKey q a) 11).sch.lateAt q = none := by
      rw [dropped.lateAt]
      exact first
    have awake' : ((s.schCount 7 1).dropHead (launchKey q a) 11).ctl.mode ≠ .sentry := by
      rw [dropped.touches.ctl (by decide)]
      exact awake
    exact (tellLaunchLate_first first' awake').trans (congrArg (satAdd _ · 1) (dropped.events awake))

end

section
/-! The lines of HBM under the Memory Guard: what a re-till's sweep, a full write and a failed line leave of them (R277, R284, R288,
R294, R297). -/

namespace Sys2Proof.Machine

open Sys2Proof

theorem gline_of_lines {s t : State} (h : t.mgd.lines = s.mgd.lines) (l : Nat) : t.gline l = s.gline l := by
  unfold State.gline
  rw [h]

theorem gline_note (s : State) (e : EvKind) (ps : List Byte) (l : Nat) : (s.note e ps).gline l = s.gline l :=
  gline_of_lines (congrArg Mgd.lines ((State.note_touches ..).mgd (by decide))) l

/-! ## The sweep of a re-till (R297) -/

/-- From s to t a re-till's sweep went on: lines keep their data and their poison, and no MINOR rises. -/
structure Swept (s t : State) : Prop where
  only : t = { s with
    mgd := { s.mgd with lines := t.mgd.lines, majors := t.mgd.majors, retill := t.mgd.retill }
    free := t.free }
  kept : ∀ l, (t.gline l).data = (s.gline l).data ∧ (t.gline l).poison = (s.gline l).poison
  minor : ∀ l, (t.gline l).minor ≤ (s.gline l).minor

namespace Swept

theorem refl (s : State) : Swept s s := ⟨rfl, fun _ => ⟨rfl, rfl⟩, fun _ => le_refl _⟩

theorem trans {s t u : State} (h : Swept s t) (k : Swept t u) : Swept s u where
  only := k.only.trans (by rw [h.only])
  kept l := ⟨(k.kept l).1.trans (h.kept l).1, (k.kept l).2.trans (h.kept l).2⟩
  minor l := (k.minor l).trans (h.minor l)

/-- Whatever else a sweep sets, lines apart. -/
theorem of_lines {s t : State} (lines : t.mgd.lines = s.mgd.lines) (only : t = { s with
    mgd := { s.mgd with lines := t.mgd.lines, majors := t.mgd.majors, retill := t.mgd.retill }
    free := t.free }) : Swept s t :=
  ⟨only, fun l => by rw [gline_of_lines lines]; exact ⟨rfl, rfl⟩, fun l => by rw [gline_of_lines lines]⟩

theorem restartLine (s : State) (l : Nat) : Swept s (s.setLine l { s.gline l with minor := 0 }) where
  only := rfl
  kept j := by
    rw [gline_setLine]
    split
    · next same => exact ⟨by rw [same], by rw [same]⟩
    · exact ⟨rfl, rfl⟩
  minor j := by
    rw [gline_setLine]
    split
    · exact Nat.zero_le _
    · exact le_refl _

theorem restartLines (es : SMap (Option GLine)) (s : State) :
    Swept s (es.foldl (fun s e => s.setLine e.1 { s.gline e.1 with minor := 0 }) s) := by
  induction es generalizing s with
  | nil => exact refl s
  | cons e es ih => exact (restartLine s e.1).trans (ih _)

theorem restartPages (s : State) (lo hi : Nat) : Swept s (s.restartPages lo hi) :=
  (of_lines rfl rfl : Swept s { s with mgd := { s.mgd with majors := SMap.dropRange s.mgd.majors lo hi } }).trans (restartLines ..)

theorem restartSpan (ds : List Domain) (s : State) (n m : Nat) : Swept s (s.restartSpan n m ds) := by
  induction ds generalizing s n m with
  | nil => exact refl s
  | cons d ds ih => exact (restartPages s ..).trans (ih ..)

theorem sweepTo (s : State) (r : Retill) (m : Nat) : Swept s (s.sweepTo r m) :=
  (restartSpan (s.keyDomains r.idx) s r.swept m).trans (of_lines rfl rfl)

theorem retillSweep (s : State) : Swept s s.retillSweep := by
  unfold State.retillSweep
  split
  · exact refl s
  · exact (of_lines rfl rfl : Swept s s.draw.2).trans (sweepTo ..)

variable {s t : State} (h : Swept s t)
include h

theorem queueDomain (q : Nat) : t.queueDomain q = s.queueDomain q := by rw [h.only]; rfl
theorem expanse : t.expanse = s.expanse := by rw [h.only]; rfl
theorem refused : t.mgd.refused = s.mgd.refused := by rw [h.only]
theorem winInit : t.mgd.winInit = s.mgd.winInit := by rw [h.only]
theorem burst : t.mgd.burst = s.mgd.burst := by rw [h.only]
theorem fld (k hi lo : Nat) : t.fld k hi lo = s.fld k hi lo := by rw [h.only]; rfl
theorem ctl : t.ctl = s.ctl := by rw [h.only]
theorem led : t.led = s.led := by rw [h.only]

theorem kept_of_gline {v : State} {l : Nat} (same : v.gline l = t.gline l) :
    (v.gline l).data = (s.gline l).data ∧ (v.gline l).poison = (s.gline l).poison := by
  rw [same]
  exact h.kept l

end Swept

theorem retillSweep_of_none {s : State} (none : s.mgd.retill = none) : s.retillSweep = s := by
  unfold State.retillSweep
  rw [none]

/-! ## A full write (R294) -/

theorem bumpRoot_eq (s : State) (r : Nat) : ∃ major minor,
    s.bumpRoot r = { s with mgd := { s.mgd with rootMajor := major, rootMinor := minor } } := by
  unfold State.bumpRoot
  extract_lets m
  split
  · exact ⟨_, _, rfl⟩
  · exact ⟨_, _, rfl⟩

theorem emitLine_eq (s : State) (d : Domain) (l : Nat) : ∃ out, s.emitLine d l = { s with out := out } := ⟨_, rfl⟩

/-- From s to t line l was written with data: it takes the next MINOR and no longer carries the poison tag. -/
structure LineWritten (l : Nat) (data : List Byte) (s t : State) : Prop where
  only : t = { s with
    mgd := { s.mgd with lines := t.mgd.lines, rootMajor := t.mgd.rootMajor, rootMinor := t.mgd.rootMinor }
    cnt := t.cnt, out := t.out }
  line : t.gline l = ⟨data, (s.gline l).minor + 1, false⟩
  others : ∀ j, j ≠ l → t.gline j = s.gline j

/-- A write whose domain is not refused and whose MINOR has room is taken. -/
theorem writeLine_of_room {s : State} {d : Domain} {l : Nat} (taken : d.id ∉ s.mgd.refused) (room : (s.gline l).minor < 255)
    (data : List Byte) (q : Nat) : ∃ t, s.writeLine d l data .good q = (t, 0) ∧ LineWritten l data s t := by
  have refused : ¬(s.mgd.refused.contains d.id = true) := fun r => taken (List.contains_iff_mem.mp r)
  unfold State.writeLine
  dsimp only
  rw [if_neg refused, if_pos room, if_neg (by decide)]
  obtain ⟨major, minor, bumped⟩ := bumpRoot_eq (s.setLine l ⟨data, (s.gline l).minor + 1, false⟩) (l / 256)
  rw [bumped]
  obtain ⟨out, emitted⟩ := emitLine_eq (State.mgdCount { s.setLine l ⟨data, (s.gline l).minor + 1, false⟩ with
    mgd := { (s.setLine l ⟨data, (s.gline l).minor + 1, false⟩).mgd with rootMajor := major, rootMinor := minor } } 1 1) d l
  rw [emitted]
  have line (j : Nat) := gline_setLine s l j ⟨data, (s.gline l).minor + 1, false⟩
  exact ⟨_, rfl, rfl, (line l).trans (if_pos rfl), fun j other => (line j).trans (if_neg other)⟩

/-! ## A line that fails (R277, R288) -/

theorem failInfo_info (s : State) (a q kind : Nat) :
    (s.failInfo a q kind).rd Reg.mgdFailInfo = BitVec.ofNat 32 (q * 65536 + kind * 256 + 1) := rd_wr_self ..

theorem failInfo_addrLo (s : State) (a q kind : Nat) : (s.failInfo a q kind).rd Reg.mgdFailAddrLo = BitVec.ofNat 32 a :=
  (rd_wr_ne _ _ _ _ (by decide)).trans ((rd_wr_ne _ _ _ _ (by decide)).trans (rd_wr_self ..))

theorem failInfo_rd_ne (s : State) (a q kind : Nat) {k : Nat} (other : k ∉ [Reg.mgdFailAddrLo, Reg.mgdFailAddrHi, Reg.mgdFailInfo]) :
    (s.failInfo a q kind).rd k = s.rd k := by
  simp only [List.mem_cons, List.not_mem_nil, or_false, not_or] at other
  obtain ⟨lo, hi, info⟩ := other
  exact (rd_wr_ne _ _ _ _ info).trans ((rd_wr_ne _ _ _ _ hi).trans (rd_wr_ne _ _ _ _ lo))

/-- From s to t line l failed: it carries the poison tag, and of the Memory Guard nothing else changed. -/
structure LineFailed (l : Nat) (s t : State) : Prop where
  touches : Touches (.mgd :: Part.note) s t
  mgd : t.mgd = { s.mgd with lines := t.mgd.lines }
  poisoned : (t.gline l).poison = true
  others : ∀ j, j ≠ l → t.gline j = s.gline j

/-- The line at address a fails with a kind: recorded, poisoned and told as event e. -/
def State.failLine (s : State) (d : Domain) (l a q kind : Nat) (e : EvKind) (ps : List Byte) : State :=
  ((s.failInfo a q kind).poisonLines d l 1).note e ps

theorem failLine_mgd (s : State) (d : Domain) (l a q kind : Nat) (e : EvKind) (ps : List Byte) :
    (s.failLine d l a q kind e ps).mgd = (s.setLine l { s.gline l with poison := true }).mgd :=
  (State.note_touches ..).mgd (by decide)

theorem failLine_fails (s : State) (d : Domain) (l a q kind : Nat) (e : EvKind) (ps : List Byte) :
    LineFailed l s (s.failLine d l a q kind e ps) := by
  have mgd := failLine_mgd s d l a q kind e ps
  have line (j : Nat) := (gline_of_lines (congrArg Mgd.lines mgd) j).trans (gline_setLine ..)
  refine ⟨?_, by rw [mgd]; rfl, by rw [line, if_pos rfl], fun j other => by rw [line, if_neg other]⟩
  exact (State.note_touches ..).chain (by decide) ((State.poisonLines_touches ..).chain (by decide)
    ((State.failInfo_touches ..).mono (by decide)))

theorem failLine_rd (s : State) (d : Domain) (l a q kind : Nat) (e : EvKind) (ps : List Byte) {k : Nat} (alert : k ≠ Reg.stwAlert)
    (lost : k ≠ Reg.logLost) : (s.failLine d l a q kind e ps).rd k = (s.failInfo a q kind).rd k :=
  (note_rd _ _ _ _ alert lost).trans (rd_of_regs ((State.poisonLines_touches ..).regs (by decide)) k)

/-- The line l of domain d fails its tag (R288). -/
def State.tagFailed (s : State) (d : Domain) (l q : Nat) : State :=
  (s.mgdCount 4 1).failLine d l (d.base + (64 * l - d.prot)) q 0 Ev.tagFail (beBytes 1 0 ++ beBytes 8 (d.base + (64 * l - d.prot)))

theorem tagFailed_fails (s : State) (d : Domain) (l q : Nat) : LineFailed l (s.mgdCount 4 1) (s.tagFailed d l q) := failLine_fails ..

theorem tagFailed_burst (s : State) (d : Domain) (l q : Nat) : (s.tagFailed d l q).mgd.burst = s.mgd.burst := by
  rw [(tagFailed_fails s d l q).mgd]
  rfl

theorem tagFailed_rd (s : State) (d : Domain) (l q : Nat) {k : Nat} (alert : k ≠ Reg.stwAlert) (lost : k ≠ Reg.logLost) :
    (s.tagFailed d l q).rd k = (s.failInfo (d.base + (64 * l - d.prot)) q 0).rd k := failLine_rd _ _ _ _ _ _ _ _ alert lost

/-- A failing line tag that does not fill the burst window counts in it, and no more. -/
theorem tagFailure_of_noBurst {s : State} (d : Domain) (l q : Nat) (below : s.mgd.burst + 1 ≠ max 1 (s.fld Reg.mgdTagCfg 15 8)) :
    s.tagFailure d l q 0 =
      { s.tagFailed d l q with mgd := { (s.tagFailed d l q).mgd with burst := (s.tagFailed d l q).mgd.burst + 1 } } := by
  have limit : (s.tagFailed d l q).fld Reg.mgdTagCfg 15 8 = s.fld Reg.mgdTagCfg 15 8 := by
    unfold State.fld
    rw [tagFailed_rd _ _ _ _ (by decide) (by decide), failInfo_rd_ne _ _ _ _ (by decide)]
  rw [← tagFailed_burst s d l q, ← limit] at below
  exact if_neg below

end Sys2Proof.Machine
end

section
/-! What the Memory Guard answers to a request: the gate, what a line's read shows, reads and writes (R279, R283, R288, R290, R291,
R294, R300). -/

namespace Sys2Proof.Machine

open Sys2Proof

theorem guardUp_iff (s : State) : s.guardUp = true ↔ s.islandUp 13 = true ∧ s.islandUp 16 = true ∧ s.mgd.initDone = true := by
  unfold State.guardUp
  rw [Bool.and_eq_true, Bool.and_eq_true, and_assoc]

/-! ## The gate (R279, R280, R300) -/

theorem mgdGate_of_islandDown {s : State} (q addr : Nat) (down : s.islandUp 13 = false ∨ s.islandUp 16 = false) :
    s.mgdGate q addr = (s.emit (.memAnswer q addr 4 []), none) := if_pos down

theorem mgdGate_of_noKeys {s : State} (q addr : Nat) (up13 : s.islandUp 13 = true) (up16 : s.islandUp 16 = true)
    (noKeys : s.mgd.initDone = false) : s.mgdGate q addr = (s.emit (.memAnswer q addr 2 []), none) := by
  have up : ¬(s.islandUp 13 = false ∨ s.islandUp 16 = false) := by
    rw [up13, up16]
    decide
  exact (if_neg up).trans (if_pos noKeys)

section

variable {s : State} {q addr : Nat} (up : s.guardUp = true)
include up

theorem mgdGate_of_up : s.mgdGate q addr =
    match s.retillSweep.queueDomain q with
    | some d =>
      if d.base ≤ addr ∧ addr < d.base + d.size then
        if s.retillSweep.mgd.winInit.contains q then (s.retillSweep.emit (.memAnswer q addr 3 []), none) else (s.retillSweep, some d)
      else (((s.retillSweep.mgdCount 14 1).note Ev.mgdRangeRefused (beBytes 1 q ++ beBytes 8 addr)).emit (.memAnswer q addr 2 []), none)
    | none => (((s.retillSweep.mgdCount 14 1).note Ev.mgdRangeRefused (beBytes 1 q ++ beBytes 8 addr)).emit (.memAnswer q addr 2 []), none) := by
  obtain ⟨up13, up16, keys⟩ := (guardUp_iff s).mp up
  have started : ¬(s.islandUp 13 = false ∨ s.islandUp 16 = false) := by
    rw [up13, up16]
    decide
  have keyed : ¬(s.mgd.initDone = false) := by
    rw [keys]
    decide
  exact (if_neg started).trans (if_neg keyed)

/-- A request inside its queue's domain passes. -/
theorem mgdGate_of_inside {d : Domain} (domain : s.queueDomain q = some d) (lo : d.base ≤ addr) (hi : addr < d.base + d.size)
    (ready : q ∉ s.mgd.winInit) : s.mgdGate q addr = (s.retillSweep, some d) := by
  have swept := Swept.retillSweep s
  have free : ¬(s.retillSweep.mgd.winInit.contains q = true) := by
    rw [swept.winInit]
    exact fun c => ready (List.contains_iff_mem.mp c)
  rw [mgdGate_of_up up, swept.queueDomain, domain]
  exact (if_pos ⟨lo, hi⟩).trans (if_neg free)

/-- A request outside its queue's domain is counted, recorded and refused. -/
theorem mgdGate_of_outside (outside : ∀ d, s.queueDomain q = some d → addr < d.base ∨ d.base + d.size ≤ addr) : s.mgdGate q addr =
    (((s.retillSweep.mgdCount 14 1).note Ev.mgdRangeRefused (beBytes 1 q ++ beBytes 8 addr)).emit (.memAnswer q addr 2 []), none) := by
  rw [mgdGate_of_up up, (Swept.retillSweep s).queueDomain]
  cases domain : s.queueDomain q with
  | none => rfl
  | some d =>
    have out := outside d domain
    exact if_neg (by omega)

end

/-- A read or a write that the gate turns away ends there. -/
theorem request_of_turnedAway {q : Fin 80} {addr : Nat} {s t : State} (gate : s.mgdGate q addr = (t, none)) {data : List Byte}
    {seen sent : MemOutcome} {c : Instr} (request : c ∈ [Instr.mgdRead q addr seen, .mgdWrite q addr data seen sent]) :
    exec c s = .next t := by
  simp only [List.mem_cons, List.not_mem_nil, or_false] at request
  obtain rfl | rfl := request
  · show execMgdRead q addr seen s = _
    unfold execMgdRead
    dsimp only
    rw [gate]
  · show execMgdWrite q addr data seen sent s = _
    unfold execMgdWrite
    dsimp only
    rw [gate]

/-! ## What a line's read shows (R288, R290) -/

section

variable {s : State} (d : Domain) {l : Nat} (q : Nat)

theorem verify_of_clean (clean : (s.gline l).poison = false) : s.verify d l q .good = (s.cacheLook l, 0) :=
  if_neg (by rw [show ((s.cacheLook l).gline l).poison = false from clean]; decide)

theorem verify_of_poison (poison : (s.gline l).poison = true) : s.verify d l q .good = ((s.cacheLook l).poisoned) := if_pos poison

/-- A failing line tag that does not fill the burst window poisons the line and names itself. -/
theorem verify_lineTag (l : Nat) (below : s.mgd.burst + 1 ≠ max 1 (s.fld Reg.mgdTagCfg 15 8)) : ∃ t, s.verify d l q .lineTag = (t, 1) ∧
    (t.gline l).poison = true ∧ (∀ j, j ≠ l → t.gline j = s.gline j) ∧
    t.rd Reg.mgdFailInfo = BitVec.ofNat 32 (q * 65536 + 1) ∧ t.mgd.burst = s.mgd.burst + 1 := by
  have failed := tagFailed_fails (s.cacheLook l) d l q
  refine ⟨((s.cacheLook l).tagFailure d l q 0).mgdCount 5 1, rfl, ?_⟩
  rw [tagFailure_of_noBurst (s := s.cacheLook l) d l q below]
  refine ⟨failed.poisoned, failed.others, ?_, congrArg (· + 1) (tagFailed_burst (s.cacheLook l) d l q)⟩
  exact (tagFailed_rd (s.cacheLook l) d l q (by decide) (by decide)).trans (failInfo_info ..)

/-- A line that cannot be corrected fails. -/
theorem verify_uncorrected (l : Nat) : ∃ t, s.verify d l q .uncorrected = (t, 1) ∧ LineFailed l s t := by
  have failed := failLine_fails ((s.cacheLook l).mgdCount 9 1) d l (d.base + (64 * l - d.prot)) q 3 Ev.hbmUncorr
    (beBytes 8 (d.base + (64 * l - d.prot)))
  have counted : Touches (.mgd :: Part.note) s ((s.cacheLook l).mgdCount 9 1) :=
    (State.mgdCount_touches ..).chain (by decide) ((State.cacheLook_touches ..).mono (by decide))
  exact ⟨_, rfl, (State.mgdCount_touches ..).chain (by decide) (counted.trans failed.touches), failed.mgd, failed.poisoned, failed.others⟩

end

/-! ## Reads (R290, R291) -/

section

variable {q : Fin 80} {addr : Nat} {s u : State} {d : Domain} (gate : s.mgdGate q addr = (u, some d))
include gate

/-- A spill queue of Expanse gets the line before its verdict. -/
theorem mgdRead_of_spill (expanse : u.expanse = true) (spill : 66 ≤ q.val) :
    exec (.mgdRead q addr .good) s = .next (u.emit (.memAnswer q addr 0 (u.gline (d.line addr)).data)) := by
  show execMgdRead q addr .good s = _
  unfold execMgdRead
  dsimp only
  rw [gate]
  exact if_pos ⟨expanse, spill, by decide⟩

/-- Any other read is answered with what its verdict shows. -/
theorem mgdRead_of_verdict {seen : MemOutcome} {t : State} {st : Nat} (judged : u.expanse = false ∨ q.val < 66)
    (verdict : (u.mgdCount 0 1).verify d (d.line addr) q seen = (t, st)) (keeps : st = 0 ∨ (q.val ≠ 64 ∧ q.val ≠ 65)) :
    exec (.mgdRead q addr seen) s = .next (t.emit (.memAnswer q addr st (if st = 0 then (t.gline (d.line addr)).data else []))) := by
  have notSpill : ¬(u.expanse = true ∧ 66 ≤ q.val ∧ seen ≠ .linkFail) := by
    rintro ⟨expanse, spill, -⟩
    obtain compact | low := judged
    · exact Bool.false_ne_true (compact.symm.trans expanse)
    · exact Nat.not_le.mpr low spill
  show execMgdRead q addr seen s = _
  unfold execMgdRead
  dsimp only
  rw [gate]
  dsimp only
  rw [if_neg notSpill, verdict]
  dsimp only
  obtain rfl | ⟨not64, not65⟩ := keeps
  · rfl
  · rw [if_neg not64, if_neg not65, ite_self]

/-- A line without poison, or one that is not judged yet, is answered with its data. -/
theorem mgdRead_answers_line (given : (u.gline (d.line addr)).poison = false ∨ (u.expanse = true ∧ 66 ≤ q.val)) : ∃ c,
    exec (.mgdRead q addr .good) s = .next (State.emit { u with cnt := c } (.memAnswer q addr 0 (u.gline (d.line addr)).data)) := by
  by_cases spill : u.expanse = true ∧ 66 ≤ q.val
  · exact ⟨u.cnt, mgdRead_of_spill gate spill.1 spill.2⟩
  · have judged : u.expanse = false ∨ q.val < 66 := by
      rwa [← Bool.not_eq_true, ← Nat.not_le, ← not_and_or]
    have clean := verify_of_clean (s := u.mgdCount 0 1) d q (given.resolve_right spill)
    exact ⟨((u.mgdCount 0 1).cacheLook (d.line addr)).cnt, mgdRead_of_verdict gate judged clean (.inl rfl)⟩

section

variable (judged : u.expanse = false ∨ q.val < 66) (not64 : q.val ≠ 64) (not65 : q.val ≠ 65)
include judged not64 not65

theorem mgdRead_answers_poison (poison : (u.gline (d.line addr)).poison = true) : ∃ c,
    exec (.mgdRead q addr .good) s = .next (State.emit { u with cnt := c } (.memAnswer q addr 1 [])) :=
  ⟨((u.mgdCount 0 1).cacheLook (d.line addr)).poisoned.1.cnt,
    mgdRead_of_verdict gate judged (verify_of_poison (s := u.mgdCount 0 1) d q poison) (.inr ⟨not64, not65⟩)⟩

theorem mgdRead_of_lineTag {t : State} (verdict : (u.mgdCount 0 1).verify d (d.line addr) q .lineTag = (t, 1)) :
    exec (.mgdRead q addr .lineTag) s = .next (t.emit (.memAnswer q addr 1 [])) :=
  mgdRead_of_verdict gate judged verdict (.inr ⟨not64, not65⟩)

end

/-! ## Writes (R294) -/

/-- A full write is answered with its status. -/
theorem mgdWrite_of_full {data : List Byte} {seen sent : MemOutcome} {t : State} {st : Nat} (aligned : addr % 64 = 0)
    (full : 64 ≤ data.length) (wrote : u.writeLine d (d.line addr) (data.take 64) sent q = (t, st)) :
    exec (.mgdWrite q addr data seen sent) s = .next (t.emit (.memAnswer q addr st [])) := by
  show execMgdWrite q addr data seen sent s = _
  unfold execMgdWrite
  dsimp only
  rw [gate]
  dsimp only
  rw [if_pos ⟨aligned, full⟩, wrote]

/-- A partial write of a line without poison merges, and is answered with the status of the line's write. -/
theorem mgdWrite_of_partial {data : List Byte} {sent : MemOutcome} {t : State} {st : Nat} (short : data.length < 64)
    (clean : (u.gline (d.line addr)).poison = false)
    (wrote : ((u.mgdCount 2 1).cacheLook (d.line addr)).writeLine d (d.line addr)
      (patch (u.gline (d.line addr)).data (addr % 64) (data.take (64 - addr % 64))) sent q = (t, st)) :
    exec (.mgdWrite q addr data .good sent) s = .next (t.emit (.memAnswer q addr st [])) := by
  show execMgdWrite q addr data .good sent s = _
  unfold execMgdWrite
  dsimp only
  rw [gate]
  dsimp only
  rw [if_neg (by omega), verify_of_clean (s := u.mgdCount 2 1) d q clean]
  dsimp only
  rw [if_pos rfl]
  exact congrArg (fun x : State × Nat => Host.Outcome.next (x.1.emit (.memAnswer q addr x.2 []))) wrote

end

end Sys2Proof.Machine
end

section
/-! The verdict of a spilled line, or none in time, and its frame (R292). -/

namespace Sys2Proof.Machine

open Sys2Proof

theorem modFrame_of_frame {s : State} {id : Nat} {f : Frame} (held : s.frame? id = some f) (g : Frame → Frame) :
    s.modFrame id g = s.setFrame id (some (g f)) := by
  unfold State.modFrame
  rw [held]

theorem frame_failInfo (s : State) (a q kind id : Nat) : (s.failInfo a q kind).frame? id = s.frame? id :=
  frame_of_sch ((State.failInfo_touches ..).sch (by decide)) id

/-! ## A late stomp -/

/-- From s to t frame id, which was f, was stomped late; of the Memory Guard only the time of the last report changed. -/
structure StompedLate (id : Nat) (f : Frame) (s t : State) : Prop where
  frame : t.frame? id = some { f with lineBad := true }
  others : ∀ i, i ≠ id → t.frame? i = s.frame? i
  mgd : t.mgd = { s.mgd with stompAt := t.mgd.stompAt }

theorem StompedLate.lines {id : Nat} {f : Frame} {s t : State} (h : StompedLate id f s t) : t.mgd.lines = s.mgd.lines := by rw [h.mgd]

theorem StompedLate.late {id : Nat} {f : Frame} {s t : State} (h : StompedLate id f s t) : t.mgd.late = s.mgd.late := by rw [h.mgd]

theorem lateStomp_stomps {s : State} {id : Nat} {f : Frame} (held : s.frame? id = some f) : StompedLate id f s (s.lateStomp id) := by
  have stomped : StompedLate id f s ((s.setFrame id (some { f with lineBad := true })).mgdCount 10 1) :=
    ⟨frame_setFrame_same .., fun _ other => frame_setFrame_ne _ _ other, rfl⟩
  unfold State.lateStomp
  rw [modFrame_of_frame held]
  extract_lets counted due
  split
  · have told := State.note_touches { counted with mgd := { counted.mgd with stompAt := some counted.now } } Ev.mgdLateStomp (beBytes 4 id)
    have sch := told.sch (by decide)
    have mgd := told.mgd (by decide)
    exact ⟨(frame_of_sch sch id).trans stomped.frame, fun i other => (frame_of_sch sch i).trans (stomped.others i other), by rw [mgd]; rfl⟩
  · exact stomped

/-! ## Verdicts -/

/-- A verdict in time of a line that a frame waits for. -/
theorem spillLineVerdict_of_waiting {id addr q : Nat} {s t : State} {d : Domain} {f : Frame} {seen : MemOutcome} {st : Nat}
    (region : s.spillDomain addr = some (q, d)) (verdict : (s.mgdCount 0 1).verify d (d.line addr) q seen = (t, st))
    (inTime : id ∉ t.mgd.late) (held : t.frame? id = some f) (waits : addr / 64 * 64 ∈ f.linesWait) (live : f.lineBad = false) :
    exec (.spillLineVerdict id addr seen) s = .next
      (if st = 0 then t.setFrame id (some { f with linesWait := f.linesWait.filter (· != addr / 64 * 64) }) else t.lateStomp id) := by
  have notLate : ¬(t.mgd.late.contains id = true) := fun c => inTime (List.contains_iff_mem.mp c)
  have awaited : ¬(f.linesWait.contains (addr / 64 * 64) = false ∨ f.lineBad = true) := by
    rw [List.contains_iff_mem.mpr waits, live]
    decide
  show execSpillLineVerdict id addr seen s = _
  unfold execSpillLineVerdict
  rw [region]
  dsimp only
  rw [verdict]
  dsimp only
  rw [if_neg notLate, held]
  dsimp only
  rw [if_neg awaited, modFrame_of_frame held]
  exact (apply_ite Host.Outcome.next ..).symm

/-- A frame without a verdict in time is late, stomped, and named with its first line. -/
theorem verdictTimeout_of_waiting {id a : Nat} {rest : List Nat} {s : State} {f : Frame} (held : s.frame? id = some f)
    (waits : f.linesWait = a :: rest) (live : f.lineBad = false) : exec (.verdictTimeout id) s = .next
      ((State.lateStomp { s with mgd := { s.mgd with late := id :: s.mgd.late } } id).failInfo a
        (match s.spillDomain a with | some (q, _) => q | none => 66) 5) := by
  show execVerdictTimeout id s = _
  unfold execVerdictTimeout
  rw [held]
  dsimp only
  rw [waits]
  dsimp only
  rw [if_neg (by rw [live]; decide)]
  rfl

end Sys2Proof.Machine

open Sys2Proof Sys2Proof.Machine

/-- Settles O36: the gate turns a request away or passes it after the sweep, which keeps every line's data and poison; what passes is
answered by the line's verdict or its write, and a spilled line's verdict goes to its frame. -/
theorem memoryRequestsAreAnswered : Obligations.MemoryRequestsAreAnswered := by
  unfold Obligations.MemoryRequestsAreAnswered
  refine ⟨fun q addr s up d domain lo hi ready => ?_, fun q addr data seen sent s c request => ⟨fun down => ?_, fun up13 up16 noKeys => ?_,
    fun up awake outside => ?_⟩, fun id addr s q d region inTime f held waits live => ⟨fun clean => ?_, ?_⟩,
    fun id s f held a rest waits live => ?_, fun s => rfl⟩
  · have gate := mgdGate_of_inside up domain lo hi ready
    have swept := Swept.retillSweep s
    have still (none : s.mgd.retill = none) := retillSweep_of_none none
    generalize s.retillSweep = u at gate swept still
    have poison := (swept.kept (d.line addr)).2
    have minor := swept.minor (d.line addr)
    rw [← swept.expanse, ← swept.refused, ← poison]
    refine ⟨fun given => ?_, fun poisoned not64 not65 judged => ?_, fun below not64 not65 judged => ?_, fun data seen aligned full taken room => ?_,
      fun data short taken room clean => ?_⟩
    · obtain ⟨c, answered⟩ := mgdRead_answers_line gate given
      refine ⟨_, answered, ?_, swept.kept, fun none => ?_⟩
      · rw [← (swept.kept (d.line addr)).1]
        exact List.getLast?_concat ..
      · rw [still none]
        rfl
    · obtain ⟨c, answered⟩ := mgdRead_answers_poison gate judged not64 not65 poisoned
      refine ⟨_, answered, List.getLast?_concat .., swept.kept, fun none => ?_⟩
      rw [still none]
      rfl
    · rw [← swept.burst, ← swept.fld] at below
      obtain ⟨t, verdict, poisoned, others, info, burst⟩ := verify_lineTag (s := u.mgdCount 0 1) d q (d.line addr) below
      refine ⟨_, mgdRead_of_lineTag gate judged not64 not65 verdict, poisoned,
        fun l other => swept.kept_of_gline (others l other), info, burst.trans (congrArg (· + 1) swept.burst), List.getLast?_concat ..⟩
    · obtain ⟨t, wrote, written⟩ := writeLine_of_room taken (minor.trans_lt room) (data.take 64) q
      refine ⟨_, mgdWrite_of_full gate aligned full wrote, congrArg GLine.data written.line, congrArg GLine.poison written.line,
        fun l other => swept.kept_of_gline (written.others l other), List.getLast?_concat .., fun none => ?_⟩
      obtain rfl := still none
      exact ⟨congrArg GLine.minor written.line, written.others, by rw [written.only]; rfl, by rw [written.only]; rfl⟩
    · obtain ⟨t, wrote, written⟩ := writeLine_of_room (s := (u.mgdCount 2 1).cacheLook (d.line addr)) taken (minor.trans_lt room)
        (patch (u.gline (d.line addr)).data (addr % 64) (data.take (64 - addr % 64))) q
      refine ⟨_, mgdWrite_of_partial gate short clean wrote, ?_,
        fun l other => (swept.kept_of_gline (written.others l other)).1, List.getLast?_concat .., fun none => ?_⟩
      · rw [← (swept.kept (d.line addr)).1]
        exact congrArg GLine.data written.line
      · obtain rfl := still none
        rw [written.only]
        rfl
  · exact request_of_turnedAway (mgdGate_of_islandDown q addr down) request
  · exact request_of_turnedAway (mgdGate_of_noKeys q addr up13 up16 noKeys) request
  · have swept := Swept.retillSweep s
    refine ⟨_, request_of_turnedAway (mgdGate_of_outside up outside) request, fun l => swept.kept_of_gline (gline_note ..), ?_,
      List.getLast?_concat ..⟩
    have counted := note_counts (s := s.retillSweep.mgdCount 14 1) (e := Ev.mgdRangeRefused) (beBytes 1 q ++ beBytes 8 addr)
      (show s.retillSweep.ctl.mode ≠ .sentry by rw [swept.ctl]; exact awake) (by decide) (by decide)
    exact counted.trans (congrArg (satAdd _ · 1) (events_of_led swept.led _))
  · have verdict := verify_of_clean (s := s.mgdCount 0 1) d q clean
    exact ⟨_, spillLineVerdict_of_waiting region verdict inTime held waits live, frame_setFrame_same ..,
      fun i other => frame_setFrame_ne _ _ other, rfl⟩
  · obtain ⟨t, verdict, failed⟩ := verify_uncorrected (s := s.mgdCount 0 1) d q (d.line addr)
    have sch (i : Nat) := frame_of_sch (failed.touches.sch (by decide)) i
    have late : t.mgd.late = s.mgd.late := by
      rw [failed.mgd]
      rfl
    have held' : t.frame? id = some f := (sch id).trans held
    have stomped := lateStomp_stomps held'
    have line (l : Nat) : (t.lateStomp id).gline l = t.gline l := gline_of_lines stomped.lines l
    refine ⟨_, spillLineVerdict_of_waiting region verdict (late ▸ inTime) held' waits live, stomped.frame,
      fun i other => (stomped.others i other).trans (sch i), ?_, fun l other => ?_⟩
    · exact (congrArg GLine.poison (line _)).trans failed.poisoned
    · exact (line l).trans (failed.others l other)
  · have stomped := lateStomp_stomps (s := { s with mgd := { s.mgd with late := id :: s.mgd.late } }) held
    refine ⟨_, verdictTimeout_of_waiting held waits live, (frame_failInfo ..).trans stomped.frame,
      fun i other => (frame_failInfo ..).trans (stomped.others i other), stomped.late, stomped.lines, failInfo_addrLo .., fun q d region => ?_⟩
    rw [region]
    exact failInfo_info ..
end

section
/-! The context commands of a window (R304, R308, R309, R335, R338, R577): their end, the checks they share, the SCI index they keep, and what
each leaves of the contexts. -/

namespace Sys2Proof.Machine

open Sys2Proof

/-! ## The end of a context command (R572, R577) -/

theorem ascCmdResult_outside (n : Nat) : privKey n Reg.ascCmdResult ≠ Reg.stwAlert ∧ privKey n Reg.ascCmdResult ≠ Reg.logLost := by
  unfold privKey Reg.ascCmdResult Reg.stwAlert Reg.logLost
  omega

theorem ascCmdData_outside (n : Nat) {w : Nat} (word : w < 128) : privKey n (Reg.ascCmdData w) ≠ Reg.stwAlert ∧
    privKey n (Reg.ascCmdData w) ≠ Reg.logLost ∧ privKey n (Reg.ascCmdData w) ≠ privKey n Reg.ascCmdResult := by
  unfold privKey Reg.ascCmdData Reg.stwAlert Reg.logLost Reg.ascCmdResult
  omega

theorem ascEnd_asc (s : State) (n code : Nat) : (s.ascEnd n code).asc = s.asc := (State.ascEnd_touches ..).asc (by decide)

theorem ascEnd_zero (s : State) (n : Nat) : s.ascEnd n 0 = s.cmdEnd 8 n Reg.ascCmdResult 0 := rfl

theorem ascEnd_done (s : State) (n : Nat) : (s.ascEnd n 0).Ended (privKey n Reg.ascCmdResult) 0 := by
  obtain ⟨notAlert, notLost⟩ := ascCmdResult_outside n
  unfold State.Ended
  rw [ascEnd_zero, cmdEnd_rd _ _ _ _ _ notAlert notLost]
  exact result_ended _ _ (by decide)

theorem ascEnd_done_data (s : State) (n : Nat) {w : Nat} (word : w < 128) :
    (s.ascEnd n 0).rd (privKey n (Reg.ascCmdData w)) = s.rd (privKey n (Reg.ascCmdData w)) := by
  obtain ⟨notAlert, notLost, notResult⟩ := ascCmdData_outside n word
  rw [ascEnd_zero, cmdEnd_rd _ _ _ _ _ notAlert notLost, rd_result_ne _ _ notResult]

/-- CODE 11 is recorded with the association that the command names. -/
theorem ascEnd_eleven (s : State) (n : Nat) : s.ascEnd n 11 = (s.cmdEnd 8 n Reg.ascCmdResult 11).noteFor Ev.ascCmdRefused n
    (beBytes 1 11 ++ beBytes 2 (s.fld (privKey n Reg.ascCmdAssoc) 15 0)) := rfl

theorem ascEnd_undefined (s : State) (n : Nat) : (s.ascEnd n 11).Ended (privKey n Reg.ascCmdResult) 11 := by
  obtain ⟨notAlert, notLost⟩ := ascCmdResult_outside n
  unfold State.Ended
  rw [ascEnd_eleven, noteFor_rd _ _ _ _ _ notAlert notLost, cmdEnd_rd _ _ _ _ _ notAlert notLost]
  exact result_ended _ _ (by decide)

theorem ascEnd_undefined_counts {s : State} (awake : s.ctl.mode ≠ .sentry) (n : Nat) :
    (s.ascEnd n 11).events Ev.ascCmdRefused = satAdd (2 ^ 48 - 1) (s.events Ev.ascCmdRefused) 1 := by
  have ctl : (s.cmdEnd 8 n Reg.ascCmdResult 11).ctl = s.ctl := (State.cmdEnd_touches ..).ctl (by decide)
  rw [ascEnd_eleven, noteFor_counts _ _ (by rw [ctl]; exact awake) (by decide) (by decide),
    events_of_led (cmdEnd_led_of_refused s 8 n _ (by decide))]

/-! ## The checks before a command (R309, R577) -/

/-- What a defined command does past the checks of CODE 1, 11, 7 and 2. -/
def State.ascAct (s : State) (n op a arg : Nat) : State :=
  match op with
  | 1 => s.ascRead n a
  | 2 => s.ascCreate n a arg
  | 3 => s.ascWrite n a
  | 4 => s.ascDelete n a
  | 5 => s.rotateCmd n a
  | _ => s.flipCmd n a arg

theorem ascRun_of_undefined {s : State} {n op : Nat} (idle : s.unitBusy 8 n = false) (undefined : 7 ≤ op) (arg : Nat) :
    s.ascRun n op arg = s.ascEnd n 11 :=
  (if_neg (show ¬ op = 0 by omega)).trans ((if_neg (by simp [idle])).trans (if_pos undefined))

/-- A defined command reaches an association of its own window, and CREATE one without a context (R309). -/
theorem ascRun_of_reached {s : State} {n op a : Nat} (idle : s.unitBusy 8 n = false) (lead : s.isFollower = false)
    (assoc : a = s.fld (privKey n Reg.ascCmdAssoc) 15 0) (asked : op ≠ 0) (defined : op ≤ 6)
    (reached : (n = 0 ∨ s.assocOwner a = n) ∨ (op = 2 ∧ s.ctx a = none)) (arg : Nat) :
    s.ascRun n op arg = s.ascAct n op a arg := by
  subst assoc
  have notFollower : ¬(s.isFollower = true ∧ 2 ≤ op) := by simp [lead]
  have mayReach : ¬(n ≠ 0 ∧ s.assocOwner (s.fld (privKey n Reg.ascCmdAssoc) 15 0) ≠ n ∧
      (!(op == 2 && (s.ctx (s.fld (privKey n Reg.ascCmdAssoc) 15 0)).isNone)) = true) := by
    rintro ⟨window, foreign, notCreate⟩
    obtain own | ⟨create, unused⟩ := reached
    · exact own.elim window foreign
    · simp [create, unused] at notCreate
  exact (if_neg asked).trans ((if_neg (by simp [idle])).trans ((if_neg (Nat.not_lt.mpr defined)).trans
    ((if_neg notFollower).trans (if_neg mayReach))))

theorem ascCommand_of_takes {s : State} {p : Path} (takes : s.Takes p Reg.ascCmd) (i : Instr) (op arg : Nat) :
    s.cmdWrite i p Reg.ascCmd (fun n s => s.ascRun n op arg) = (s.ascRun p.allot op arg).disarm 8 := cmdWrite_of_takes i _ takes

theorem ascCmdUnknown_eq {s : State} {p : Path} (takes : s.Takes p Reg.ascCmd) (idle : s.unitBusy 8 p.allot = false) {op : Fin 16}
    (undefined : 7 ≤ op.val) : exec (.ascCmdUnknown p op) s = .next ((s.ascEnd p.allot 11).disarm 8) := by
  rw [← ascRun_of_undefined idle undefined 0, ← ascCommand_of_takes takes (.ascCmdUnknown p op)]
  exact if_neg (Nat.not_lt.mpr undefined)

section

variable {s : State} {p : Path} {a : Nat} (takes : s.Takes p Reg.ascCmd) (idle : s.unitBusy 8 p.allot = false)
  (lead : s.isFollower = false) (assoc : a = s.fld (privKey p.allot Reg.ascCmdAssoc) 15 0)
include takes idle lead assoc

/-- A taken write of ASC_CMD with a defined OP comes to the command's own act. -/
theorem ascCommand_acts (i : Instr) {op : Nat} (asked : op ≠ 0) (defined : op ≤ 6)
    (reached : (p.allot = 0 ∨ s.assocOwner a = p.allot) ∨ (op = 2 ∧ s.ctx a = none)) (arg : Nat) :
    s.cmdWrite i p Reg.ascCmd (fun n s => s.ascRun n op arg) = (s.ascAct p.allot op a arg).disarm 8 := by
  rw [ascCommand_of_takes takes, ascRun_of_reached idle lead assoc asked defined reached]

theorem ctxCreate_eq (unused : s.ctx a = none) (arg : Fin 16) :
    exec (.ctxCreate p arg) s = .next ((s.ascCreate p.allot a arg).disarm 8) :=
  congrArg Host.Outcome.next (ascCommand_acts takes idle lead assoc _ (by decide) (by decide) (.inr ⟨rfl, unused⟩) arg)

variable (own : p.allot = 0 ∨ s.assocOwner a = p.allot)
include own

theorem ctxRead_eq : exec (.ctxRead p) s = .next ((s.ascRead p.allot a).disarm 8) :=
  congrArg Host.Outcome.next (ascCommand_acts takes idle lead assoc _ (by decide) (by decide) (.inl own) 0)

theorem ctxWrite_eq : exec (.ctxWrite p) s = .next ((s.ascWrite p.allot a).disarm 8) :=
  congrArg Host.Outcome.next (ascCommand_acts takes idle lead assoc _ (by decide) (by decide) (.inl own) 0)

theorem ctxDelete_eq : exec (.ctxDelete p) s = .next ((s.ascDelete p.allot a).disarm 8) :=
  congrArg Host.Outcome.next (ascCommand_acts takes idle lead assoc _ (by decide) (by decide) (.inl own) 0)

theorem ascRotate_eq : exec (.ascRotate p) s = .next ((s.rotateCmd p.allot a).disarm 8) :=
  congrArg Host.Outcome.next (ascCommand_acts takes idle lead assoc _ (by decide) (by decide) (.inl own) 0)

theorem ascFlip_eq (arg : Fin 16) : exec (.ascFlip p arg) s = .next ((s.flipCmd p.allot a arg).disarm 8) :=
  congrArg Host.Outcome.next (ascCommand_acts takes idle lead assoc _ (by decide) (by decide) (.inl own) arg)

end

/-! ## The SCI index (R314) -/

theorem convey_asc (s : State) (type : Nat) (content : List Byte) : (s.convey type content).asc = s.asc :=
  (State.convey_touches ..).asc (by decide)

theorem sciPut_asc (s : State) (i : Nat) (e : Option SciKey) :
    (s.sciPut i e).asc = { s.asc with sci := SMap.set noneOf s.asc.sci i e } := convey_asc ..

theorem sciPut_sciAt (s : State) (i j : Nat) (e : Option SciKey) : (s.sciPut i e).sciAt j = if j = i then e else s.sciAt j := by
  unfold State.sciAt
  rw [sciPut_asc]
  exact SMap.get_set ..

theorem sciInsert_of_free {s : State} {k : SciKey} {i : Nat} (unknown : s.sciFind k = none)
    (place : (s.sciCandidates k).find? (fun j => (s.sciAt j).isNone) = some i) : s.sciInsert k = (s.sciPut i (some k), true) := by
  unfold State.sciInsert
  rw [unknown]
  dsimp only
  rw [place]

theorem sciRemove_of_found {s : State} {k : SciKey} {i : Nat} (found : s.sciFind k = some i) : s.sciRemove k = s.sciPut i none := by
  unfold State.sciRemove
  rw [found]

/-- From s to t the SCI index has been written, and no more of the contexts, the sealed records, HBM or the stores. -/
structure Indexed (s t : State) : Prop where
  touches : Touches [.asc, .yok, .out] s t
  asc : t.asc = { s.asc with sci := t.asc.sci }

theorem Indexed.refl (s : State) : Indexed s s := ⟨Touches.rfl' _ _, rfl⟩

theorem sciPut_indexed (s : State) (i : Nat) (e : Option SciKey) : Indexed s (s.sciPut i e) :=
  ⟨State.sciPut_touches .., by rw [sciPut_asc]⟩

theorem sciRemove_indexed (s : State) (k : SciKey) : Indexed s (s.sciRemove k) := by
  unfold State.sciRemove
  split
  · exact sciPut_indexed ..
  · exact .refl s

theorem Indexed.hbmRoom {s t : State} (h : Indexed s t) (room : s.HbmRoom) : t.HbmRoom := by
  unfold State.HbmRoom
  rw [h.touches.mgd (by decide)]
  exact room

theorem Indexed.storeRoom {s t : State} {n : Nat} (h : Indexed s t) (room : s.StoreRoom n) : t.StoreRoom n := by
  unfold State.StoreRoom
  rw [h.touches.st (by decide), h.asc]
  exact room

theorem Indexed.ctxs {s t : State} (h : Indexed s t) : t.asc.ctxs = s.asc.ctxs := by rw [h.asc]

theorem sciAt_of_sci {s t : State} (h : t.asc.sci = s.asc.sci) (i : Nat) : t.sciAt i = s.sciAt i := by
  unfold State.sciAt
  rw [h]

/-- The other contexts are those of an earlier state that has the same contexts. -/
theorem State.HasCtx.since {s t u : State} {a : Nat} {x : Option Ctx} (h : t.HasCtx u a x) (ctxs : t.asc.ctxs = s.asc.ctxs) : s.HasCtx u a x :=
  ⟨h.same, fun b other => (h.others b other).trans (by unfold State.ctx; rw [ctxs])⟩

/-- The key of a MACsec context takes slot i of the SCI index. -/
def State.indexKey (s : State) (i a : Nat) (c : Ctx) : State := if c.kind = 1 then s.sciPut i (some (c.sciKey a)) else s

theorem indexKey_indexed (s : State) (i a : Nat) (c : Ctx) : Indexed s (s.indexKey i a c) := by
  unfold State.indexKey
  split
  · exact sciPut_indexed ..
  · exact .refl s

theorem indexKey_sciAt_same (s : State) (i a : Nat) (c : Ctx) :
    (s.indexKey i a c).sciAt i = if c.kind = 1 then some (c.sciKey a) else s.sciAt i := by
  unfold State.indexKey
  split
  · rw [sciPut_sciAt, if_pos rfl]
  · rfl

theorem indexKey_sciAt_ne (s : State) {i j : Nat} (a : Nat) (c : Ctx) (other : j ≠ i) : (s.indexKey i a c).sciAt j = s.sciAt j := by
  unfold State.indexKey
  split
  · rw [sciPut_sciAt, if_neg other]
  · rfl

/-- The key of a MACsec context leaves the SCI index. -/
def State.unindex (s : State) (a : Nat) (c : Ctx) : State := if c.kind = 1 then s.sciRemove (c.sciKey a) else s

theorem unindex_indexed (s : State) (a : Nat) (c : Ctx) : Indexed s (s.unindex a c) := by
  unfold State.unindex
  split
  · exact sciRemove_indexed ..
  · exact .refl s

theorem unindex_sciAt {s : State} {a i : Nat} {c : Ctx} (macsec : c.kind = 1) (found : s.sciFind (c.sciKey a) = some i) :
    (s.unindex a c).sciAt i = none := by
  unfold State.unindex
  rw [if_pos macsec, sciRemove_of_found found, sciPut_sciAt, if_pos rfl]

/-- A context without PERSIST needs only a place for its key, where it has one (R314). -/
theorem ascReserve_of_volatile {s : State} {a i : Nat} {c : Ctx} (n : Nat) (volatile : c.persist = false) (unknown : s.sciFind (c.sciKey a) = none)
    (place : (s.sciCandidates (c.sciKey a)).find? (fun j => (s.sciAt j).isNone) = some i) :
    s.ascReserve n a c (if c.kind = 1 then some (c.sciKey a) else none) = (s.indexKey i a c, 0) := by
  unfold State.ascReserve State.indexKey
  by_cases macsec : c.kind = 1
  · simp [macsec, sciInsert_of_free unknown place, volatile]
  · simp [macsec, volatile]

/-! ## A context that commits (R306, R308) -/

theorem storeRoom_mono {s : State} {m n : Nat} (room : s.StoreRoom n) (le : m ≤ n) : s.StoreRoom m := by
  unfold State.StoreRoom at room ⊢
  omega

/-- Context a is c, only the cache has changed of the other state of the Association Engine, and the command of window n has ended
with CODE 0. -/
structure CtxCommitted (n a : Nat) (c : Ctx) (s t : State) : Prop where
  asc : t.asc = { (s.setCtx a (some c)).asc with cache := t.asc.cache }
  done : t.Ended (privKey n Reg.ascCmdResult) 0

theorem CtxCommitted.hasCtx {n a : Nat} {c : Ctx} {s t : State} (h : CtxCommitted n a c s t) : s.HasCtx t a (some c) :=
  (hasCtx_setCtx s a (some c)).of_ctxs (by rw [h.asc])

theorem CtxCommitted.sci {n a : Nat} {c : Ctx} {s t : State} (h : CtxCommitted n a c s t) : t.asc.sci = s.asc.sci := by
  rw [h.asc]
  rfl

/-- A context without PERSIST is committed into the cache and HBM, and its command ends at once (R306, R308). -/
theorem ctxCommitted_of_volatile {s : State} (hbm : s.HbmRoom) (room : s.StoreRoom 0) {c : Ctx} (volatile : c.persist = false)
    (n a op arg : Nat) :
    CtxCommitted n a c s ((((s.setCtx a (some c)).commitCtx a).conveyCtx a op arg c.head).ascFinish n op a c) := by
  obtain ⟨touched, cache, asc⟩ := commitCtx_of_room (s := s.setCtx a (some c)) hbm a
  have told := State.conveyCtx_touches ((s.setCtx a (some c)).commitCtx a) a op arg c.head
  have toldAsc := (told.asc (by decide)).trans asc
  have roomLeft : (((s.setCtx a (some c)).commitCtx a).conveyCtx a op arg c.head).StoreRoom 0 := by
    unfold State.StoreRoom
    rw [told.st (by decide), touched.st (by decide), toldAsc]
    exact room
  unfold State.ascFinish
  rw [if_neg (by simp [volatile])]
  refine ⟨?_, ascEnd_done ..⟩
  rw [ascEnd_asc, freeRecords_asc roomLeft, toldAsc]

/-! ## READ (R308) -/

theorem ascCmdData_injective (n : Nat) : Function.Injective (fun w => privKey n (Reg.ascCmdData w)) := fun a b same => by
  simp only [privKey, Reg.ascCmdData] at same
  omega

theorem putAscData_rd (s : State) (n : Nat) (b : List Byte) {w : Nat} (word : w < 128) :
    (s.putAscData n b).rd (privKey n (Reg.ascCmdData w)) = BitVec.ofNat 32 (be32 b (4 * w)) :=
  rd_foldl_wr_range s (ascCmdData_injective n) (fun w => BitVec.ofNat 32 (be32 b (4 * w))) word

theorem ascRead_of_ctx {s : State} {a : Nat} {c : Ctx} (known : s.ctx a = some c) (n : Nat) :
    s.ascRead n a = (s.putAscData n (s.ctxBytes c)).ascEnd n 0 := by
  unfold State.ascRead
  rw [known]

theorem ascRead_asc (s : State) (n a : Nat) : (s.ascRead n a).asc = s.asc :=
  (ascEnd_asc ..).trans ((State.putAscData_touches ..).asc (by decide))

theorem ascRead_rd {s : State} {a : Nat} {c : Ctx} (known : s.ctx a = some c) (n : Nat) {w : Nat} (word : w < 128) :
    (s.ascRead n a).rd (privKey n (Reg.ascCmdData w)) = BitVec.ofNat 32 (be32 (s.ctxBytes c) (4 * w)) := by
  rw [ascRead_of_ctx known, ascEnd_done_data _ _ word, putAscData_rd _ _ _ word]

/-! ## CREATE (R308, R309) -/

/-- The bytes that the last DELETE of an association kept are gone. -/
def State.forgetGone (s : State) (a : Nat) : State := { s with asc := { s.asc with gone := SMap.set noneOf s.asc.gone a none } }

/-- A new context takes its key's place in the SCI index and commits. -/
theorem ascCreate_of_valid {s : State} {n a arg i : Nat} {c : Ctx} (unused : s.ctx a = none) (created : c = Ctx.create (s.ascData n) (arg % 2))
    (valid : s.ctxInvalid c (s.ascData n) = false) (reaches : s.ctxReaches n c = true) (volatile : c.persist = false)
    (unknown : s.sciFind (c.sciKey a) = none) (place : (s.sciCandidates (c.sciKey a)).find? (fun j => (s.sciAt j).isNone) = some i) :
    s.ascCreate n a arg =
      (((((s.indexKey i a c).forgetGone a).setCtx a (some c)).commitCtx a).conveyCtx a 2 arg c.head).ascFinish n 2 a c := by
  subst created
  unfold State.ascCreate
  dsimp only
  rw [if_neg (by simp [unused]), if_neg (by simp [valid]), if_neg (by simp [reaches]), if_neg (by simp [volatile]),
    ascReserve_of_volatile n volatile unknown place]
  rfl

/-! ## WRITE (R307, R308) -/

/-- A context that is not poisoned and keeps its AN and its key is rewritten and commits; the SCI index stays. -/
theorem ascWrite_of_valid {s : State} {n a : Nat} {c x : Ctx} (known : s.ctx a = some c) (rewritten : x = c.rewrite (s.ascData n))
    (valid : s.ctxInvalid x (s.ascData n) = false) (reaches : s.ctxReaches n x = true) (volatile : x.persist = false)
    (an0 : x.an0 = c.an0) (an1 : x.an1 = c.an1) (sameKey : (x.sciKey a).same (c.sciKey a) = true) (sound : c.poisoned = false) :
    s.ascWrite n a = (((s.setCtx a (some x)).commitCtx a).conveyCtx a 3 0 x.head).ascFinish n 3 a x := by
  subst rewritten
  have stays : (c.kind == 1 && !(((c.rewrite (s.ascData n)).sciKey a).same (c.sciKey a))) = false := by simp [sameKey]
  unfold State.ascWrite
  rw [known]
  dsimp only
  rw [if_neg (by simp [valid]), if_neg (by simp [reaches]), if_neg (by simp [volatile]), if_neg (by simp [an0, an1]), stays]
  simp [State.ascReserve, volatile, sound]

/-! ## DELETE (R308) -/

/-- Context a is gone, its bytes kept with KIND 0 and its place in the cache free. -/
def State.dropCtx (s : State) (a : Nat) (c : Ctx) : State :=
  { s.setCtx a none with asc := { (s.setCtx a none).asc with
      gone := SMap.set noneOf s.asc.gone a (some { c with kind := 0 }), cache := s.asc.cache.filter (· != a) } }

theorem ascDelete_of_free {s : State} {a : Nat} {c : Ctx} (known : s.ctx a = some c) (free0 : s.slotBound (slotOf a 0) = false)
    (free1 : s.slotBound (slotOf a 1) = false) (n : Nat) :
    s.ascDelete n a = (((s.unindex a c).dropCtx a c).conveyCtx a 4 0 ({ c with kind := 0 }).head).freeRecords.ascEnd n 0 := by
  unfold State.ascDelete
  rw [known]
  dsimp only
  rw [if_neg (by simp [free0, free1])]
  rfl

theorem ascDelete_asc {s : State} {a : Nat} {c : Ctx} (known : s.ctx a = some c) (free0 : s.slotBound (slotOf a 0) = false)
    (free1 : s.slotBound (slotOf a 1) = false) (room : s.StoreRoom 0) (n : Nat) :
    (s.ascDelete n a).asc = ((s.unindex a c).dropCtx a c).asc := by
  have told := State.conveyCtx_touches ((s.unindex a c).dropCtx a c) a 4 0 ({ c with kind := 0 }).head
  have roomLeft : (((s.unindex a c).dropCtx a c).conveyCtx a 4 0 ({ c with kind := 0 }).head).StoreRoom 0 := by
    unfold State.StoreRoom
    rw [told.st (by decide), told.asc (by decide)]
    exact (unindex_indexed s a c).storeRoom room
  rw [ascDelete_of_free known free0 free1, ascEnd_asc, freeRecords_asc roomLeft, told.asc (by decide)]

theorem dropCtx_hasCtx (s : State) (a : Nat) (c : Ctx) : s.HasCtx (s.dropCtx a c) a none := (hasCtx_setCtx s a none).of_ctxs rfl

theorem dropCtx_sci (s : State) (a : Nat) (c : Ctx) : (s.dropCtx a c).asc.sci = s.asc.sci := rfl

theorem dropCtx_cache (s : State) (a : Nat) (c : Ctx) : a ∉ (s.dropCtx a c).asc.cache := fun listed => by
  have kept := (List.mem_filter.mp listed).2
  simp at kept

/-! ## ROTATE and FLIP (R335, R338) -/

theorem startRun_busy (s : State) (unit n op waits code arg : Nat) : (s.startRun unit n op waits code arg).unitBusy unit n = true := by
  simp [State.unitBusy, State.startRun]

theorem storePn_of_room {s : State} (a : Nat) (r : PnRec) (who : Waiter) (room : s.st.queue.length < storeCap) : (s.storePn a r who).2 = true := by
  unfold State.storePn
  rw [requestStore_of_room _ room]
  rfl

/-- The context of a rotation that is being prepared (R335). -/
def Ctx.preparing (c : Ctx) : Ctx := { c with rotating := some (1 - c.txSlot, false) }

/-- The record of the new SA is requested once the context shows the slot that is being prepared (R335). -/
theorem prepareRotate_of_room {s : State} {a : Nat} {c : Ctx} (known : s.ctx a = some c) (who : Waiter) (room : s.st.queue.length < storeCap) :
    ∃ r, s.prepareRotate a who = (((s.setCtx a (some c.preparing)).storePn a r who).1, true) := by
  unfold State.prepareRotate
  rw [known]
  exact ⟨_, Prod.ext (if_pos (storePn_of_room (s := s.setCtx a (some c.preparing)) a _ who room))
    (storePn_of_room (s := s.setCtx a (some c.preparing)) a _ who room)⟩

/-- ROTATE waits for the record that it has requested. -/
theorem rotateCmd_of_rotatable {s : State} {a : Nat} {c : Ctx} (known : s.ctx a = some c) (macsec : c.kind = 1) (may : s.rotatable a c = true)
    (room : s.st.queue.length < storeCap) (n : Nat) :
    ∃ r, s.rotateCmd n a = ((s.setCtx a (some c.preparing)).storePn a r (.unit 8 n)).1.startRun 8 n 5 1 0 a := by
  obtain ⟨r, prepared⟩ := prepareRotate_of_room known (.unit 8 n) room
  refine ⟨r, ?_⟩
  unfold State.rotateCmd
  rw [known]
  dsimp only
  rw [if_neg (by simp [macsec]), if_neg (by simp [may]), prepared]
  rfl

theorem rotateCmd_hasCtx {s : State} {a : Nat} {c : Ctx} (known : s.ctx a = some c) (macsec : c.kind = 1) (may : s.rotatable a c = true)
    (room : s.st.queue.length < storeCap) (n : Nat) :
    s.HasCtx (s.rotateCmd n a) a (some c.preparing) ∧ (s.rotateCmd n a).unitBusy 8 n = true := by
  obtain ⟨r, run⟩ := rotateCmd_of_rotatable known macsec may room n
  have asked := (storePn_asks (s := s.setCtx a (some c.preparing)) a r (.unit 8 n) room).touched.asc (by decide)
  rw [run]
  exact ⟨(hasCtx_setCtx s a _).of_ctxs (congrArg Asc.ctxs asked), startRun_busy ..⟩

/-- A context whose flip is announced for sheaf n (R338). -/
def Ctx.flipping (c : Ctx) (n : Nat) : Ctx := { c with flipPending := true, flipIndex := c.an (1 - c.txSlot), flipSheaf := n }

/-- The flip of association a in group g is announced for sheaf n. -/
def State.flipAnnounced (s : State) (a g : Nat) (c : Ctx) (n : Nat) : State :=
  (s.setCtx a (some (c.flipping n))).setPages g (fun p => { p with flip := some (c.trib, n) })

/-- The sheaf of a flip with lead L, which gives way to a swap of the same sheaf (R183, R338). -/
def State.flipSheafOf (s : State) (g lead : Nat) : Nat :=
  s.line.sheaf + 1 + max 2 lead + (if (s.gpages g).txSwap = some (s.line.sheaf + 1 + max 2 lead) then 1 else 0)

theorem convey_rows (s : State) (type : Nat) (content : List Byte) : (s.convey type content).rows = s.rows :=
  (State.convey_touches ..).rows (by decide)

section

variable {s : State} {a g : Nat} {c : Ctx} (known : s.ctx a = some c) (cloak : c.kind = 2) (group : s.groupOfTrib c.trib = some g)
  (transmits : c.cloakTx = true) (ready : s.slotUsable (slotOf a (1 - c.txSlot)) = true) (next : c.an (1 - c.txSlot) = (c.an c.txSlot + 1) % 4)
  (free : (s.gpages g).flip = none)
include known cloak group transmits ready next free

/-- FLIP of a cloaked transmit tributary whose next slot is ready announces its sheaf and waits for it. -/
theorem flipCmd_of_ready (n lead : Nat) :
    ∃ item, s.flipCmd n a lead = ((s.flipAnnounced a g c (s.flipSheafOf g lead)).convey 0x08 item).startRun 8 n 6 1 0 g := by
  have sheaf : s.flipSheafOf g lead = if (s.gpages g).txSwap = some (s.line.sheaf + 1 + max 2 lead) then s.line.sheaf + 1 + max 2 lead + 1
      else s.line.sheaf + 1 + max 2 lead := by
    unfold State.flipSheafOf
    split <;> rfl
  rw [sheaf]
  unfold State.flipCmd
  rw [known]
  dsimp only
  rw [if_neg (by simp [cloak]), group]
  dsimp only
  rw [if_neg (by simp [transmits, ready, next]), if_neg (by simp [free])]
  exact ⟨_, rfl⟩

theorem flipCmd_hasCtx (n lead : Nat) : s.HasCtx (s.flipCmd n a lead) a (some (c.flipping (s.flipSheafOf g lead))) := by
  obtain ⟨item, run⟩ := flipCmd_of_ready known cloak group transmits ready next free n lead
  rw [run]
  exact (hasCtx_setCtx s a _).of_ctxs (congrArg Asc.ctxs (convey_asc (s.flipAnnounced a g c (s.flipSheafOf g lead)) 0x08 item))

theorem flipCmd_rows (n lead : Nat) : (s.flipCmd n a lead).rows = (s.flipAnnounced a g c (s.flipSheafOf g lead)).rows := by
  obtain ⟨item, run⟩ := flipCmd_of_ready known cloak group transmits ready next free n lead
  rw [run]
  exact convey_rows (s.flipAnnounced a g c (s.flipSheafOf g lead)) 0x08 item

theorem flipCmd_busy (n lead : Nat) : (s.flipCmd n a lead).unitBusy 8 n = true := by
  obtain ⟨item, run⟩ := flipCmd_of_ready known cloak group transmits ready next free n lead
  rw [run]
  exact startRun_busy ..

end

end Sys2Proof.Machine

open Sys2Proof Sys2Proof.Machine

/-- Settles O38, command by command: past the shared checks each comes to its own act, and the stores and the write-back that follow find
room, so that they leave the contexts. -/
theorem contextCommands : Obligations.ContextCommands := by
  unfold Obligations.ContextCommands
  rintro p s takes n rfl a assoc idle awake lead hbm room
  have room0 : s.StoreRoom 0 := storeRoom_mono room (by decide)
  have queueRoom : s.st.queue.length < storeCap := by
    unfold State.StoreRoom at room
    omega
  refine ⟨fun c known own => ?reads, fun arg unused c created valid reaches volatile unknown i place => ?creates,
    fun c known own => ⟨fun x rewritten valid reaches volatile an0 an1 sameKey sound => ?writes, fun free0 free1 => ?deletes,
      fun macsec may => ?rotates, fun arg cloak g group transmits ready next free sheaf hsheaf => ?flips⟩, fun op undefined => ?refuses⟩
  case reads =>
    refine ⟨_, ctxRead_eq takes idle lead assoc own, ascRead_asc .., ?_, fun w word => ascRead_rd known p.allot word⟩
    rw [ascRead_of_ctx known]
    exact ascEnd_done ..
  case creates =>
    have run := ctxCreate_eq takes idle lead assoc unused arg
    rw [ascCreate_of_valid unused created valid reaches volatile unknown place] at run
    have indexed := indexKey_indexed s i a c
    have committed := ctxCommitted_of_volatile (s := (s.indexKey i a c).forgetGone a) (indexed.hbmRoom hbm) (indexed.storeRoom room0) volatile
      p.allot a 2 arg.val
    have contexts := committed.hasCtx.since indexed.ctxs
    have index := sciAt_of_sci committed.sci
    exact ⟨_, run, contexts.same, contexts.others, committed.done, (index i).trans (indexKey_sciAt_same ..),
      fun j other => (index j).trans (indexKey_sciAt_ne _ _ _ other)⟩
  case writes =>
    have run := ctxWrite_eq takes idle lead assoc own
    rw [ascWrite_of_valid known rewritten valid reaches volatile an0 an1 sameKey sound] at run
    have committed := ctxCommitted_of_volatile hbm room0 volatile p.allot a 3 0
    exact ⟨_, run, committed.hasCtx.same, committed.hasCtx.others, committed.sci, committed.done⟩
  case deletes =>
    have asc := ascDelete_asc known free0 free1 room0 p.allot
    have contexts := ((dropCtx_hasCtx (s.unindex a c) a c).of_ctxs (congrArg Asc.ctxs asc)).since (unindex_indexed s a c).ctxs
    refine ⟨_, ctxDelete_eq takes idle lead assoc own, contexts.same, contexts.others, ?_, fun macsec i found => ?_, ?_⟩
    · exact asc ▸ dropCtx_cache (s.unindex a c) a c
    · exact (sciAt_of_sci ((congrArg Asc.sci asc).trans (dropCtx_sci ..)) i).trans (unindex_sciAt macsec found)
    · rw [ascDelete_of_free known free0 free1]
      exact ascEnd_done ..
  case rotates =>
    obtain ⟨⟨same, others⟩, busy⟩ := rotateCmd_hasCtx known macsec may queueRoom p.allot
    exact ⟨_, ascRotate_eq takes idle lead assoc own, same, others, busy⟩
  case flips =>
    subst hsheaf
    have contexts := flipCmd_hasCtx known cloak group transmits ready next free p.allot arg.val
    have rows := flipCmd_rows known cloak group transmits ready next free p.allot arg.val
    exact ⟨_, ascFlip_eq takes idle lead assoc own arg, contexts.same, (congrArg (·.pages[g]?) rows).trans (getElem?_setPages_same ..),
      fun h other => (congrArg (·.pages[h]?) rows).trans (getElem?_setPages_ne _ _ other),
      flipCmd_busy known cloak group transmits ready next free p.allot arg.val⟩
  case refuses =>
    exact ⟨_, ascCmdUnknown_eq takes idle undefined, ascEnd_asc .., ascEnd_undefined .., ascEnd_undefined_counts awake _⟩
end

section
/-! A step (log 2, log 3): the front command runs on the queue's rest, the idle block lets the clock tick, and neither puts anything into the
queue. -/

open Sys2Proof Sys2Proof.Machine

/-- Settles O1: the branch of step that a queue with a front takes. -/
theorem frontCommandRuns : Obligations.FrontCommandRuns := by
  unfold Obligations.FrontCommandRuns
  intro c rest s front
  unfold step
  rw [front]

/-- Settles O2: with nothing held none is released, and a tick does not touch the queue. -/
theorem emptyQueueIdles : Obligations.EmptyQueueIdles := by
  unfold Obligations.EmptyQueueIdles
  intro s empty nothingHeld
  have idles : s.release = none := by
    unfold State.release
    rw [nothingHeld]
    rfl
  refine ⟨?_, ((State.tick_touches s).pending (by decide)).trans empty⟩
  unfold step
  rw [empty]
  show s.idle = _
  unfold State.idle
  rw [idles]

/-- Settles O6, from what each command, a held command that runs and the clock may touch. -/
theorem commandsLeaveTheQueueAlone : Obligations.CommandsLeaveTheQueueAlone := by
  unfold Obligations.CommandsLeaveTheQueueAlone
  intro s t next
  exact ((step_touches s).ofNext next).pending (by decide)
end

section
/-! Recovery again (R111, R114, R124): the end of a known-answer test, of an ERASE and of an allotment's reset, and the loss of the classifier
come to a recheck of the service set, and the STORE_QUEUE_FULL that is owed then resets the module. -/

namespace Sys2Proof.Machine

open Sys2Proof

/-- The module of storeOwedInRecovery with a spare, pair 0, under test. -/
def testingInRecovery : State := { storeOwedInRecovery with cph := { Cph.reset with testing := [(0, none)] } }

/-- The test passes, and the module reset that follows takes every pair back to State.reset's: pair 0 is no spare. -/
theorem katDone_of_storeOwed_losesSpare :
    nextShows (fun t => (t.cph.pairs[0]?).map (·.st)) (exec (.katDone 0 true) testingInRecovery) = some (some 0) := by decide +kernel

/-- The classifier's island is lost, and the module reset that follows ends the bypass. -/
theorem defaultBypass_of_storeOwed_endsBypass :
    nextShows (·.cls.bypass) (exec .defaultBypass storeOwedInRecovery) = some false := by decide +kernel

/-- The module of storeOwedInRecovery past the end of its life cycle's Raw state, with a key in data slot 0. -/
def keyInRecovery : State :=
  { storeOwedInRecovery with
    boot := { Boot.blank with image := some onePortImage, otpLife := .production }
    kvt := { Kvt.reset with slots := [(0, some loadedSlot)] } }

/-- ERASE takes the slot through Fallow, and the module reset that follows empties it. -/
theorem kvtErase_of_storeOwed_emptiesSlot :
    nextShows (fun t => (t.slot 0).map (·.st)) (exec (.kvtErase .device) keyInRecovery) = some none := by decide +kernel

/-- The module of storeOwedInRecovery past Boot with two allotments; allotment 1 owns a key in vault slot 0. -/
def ownedKeyInRecovery : State :=
  { storeOwedInRecovery with
    boot := { Boot.blank with phase := 10, image := some { onePortImage with allotCount := 2 }, otpLife := .production }
    hif := { HostIf.reset with allots := [.running, .idle] }
    kvt := { Kvt.reset with slots := [(vaultBase, some { loadedSlot with attr := 0x00400000#32 })] } }

/-- The reset of allotment 1 erases its slot, and the module reset that follows starts Boot anew. -/
theorem resetDrain_of_storeOwed_startsBoot :
    nextShows (·.boot.phase) (exec (.resetDrain .device 1) ownedKeyInRecovery) = some 0 := by decide +kernel

end Sys2Proof.Machine

open Sys2Proof Sys2Proof.Machine

/-- Refutes O41: Calm allows Recovery, and no hypothesis excludes a STORE_QUEUE_FULL that is still owed. The end of a test is then followed by
a module reset, and the pair that passed is no spare. -/
theorem not_cipherPairsAreComparedAndTested : ¬ Obligations.CipherPairsAreComparedAndTested := by
  unfold Obligations.CipherPairsAreComparedAndTested
  rintro ⟨-, -, -, -, -, -, -, -, tested, -⟩
  obtain ⟨-, spare⟩ := tested 0 testingInRecovery none rfl (by decide) rfl (by decide) (by decide)
  obtain ⟨⟨t, ht, pairs, -⟩, -⟩ := spare rfl
  have lost := nextShows_inj katDone_of_storeOwed_losesSpare ht
  rw [pairs] at lost
  exact absurd lost (by decide +kernel)

/-- Refutes O32: Calm allows Recovery, and no hypothesis excludes a STORE_QUEUE_FULL that is still owed. The loss of the classifier's island is
then followed by a module reset, and there is no bypass. -/
theorem not_classifierCommandsAndSeeds : ¬ Obligations.ClassifierCommandsAndSeeds := by
  unfold Obligations.ClassifierCommandsAndSeeds
  rintro ⟨-, -, -, -, -, lost⟩
  obtain ⟨t, ht, -, -, cls, -⟩ := lost storeOwedInRecovery (by decide)
  have ended := nextShows_inj defaultBypass_of_storeOwed_endsBypass ht
  rw [cls] at ended
  cases ended

/-- Refutes O43: Calm allows Recovery, and no hypothesis excludes a STORE_QUEUE_FULL that is still owed. ERASE is then followed by a module
reset, and the slot is empty where the statement has it Fallow. -/
theorem not_keysAreLoadedAndErased : ¬ Obligations.KeysAreLoadedAndErased := by
  unfold Obligations.KeysAreLoadedAndErased
  rintro ⟨commands, -⟩
  obtain ⟨-, -, erases, -⟩ := commands .device keyInRecovery (by decide) 0 rfl (by decide) 0 (by rfl)
  obtain ⟨t, ht, fallow, -⟩ := erases (by decide) (by decide) (by decide)
  cases (nextShows_inj kvtErase_of_storeOwed_emptiesSlot ht).symm.trans fallow

/-- Refutes O56: Calm allows Recovery, and no hypothesis excludes a STORE_QUEUE_FULL that is still owed. The reset of an allotment that owns a
key is then followed by a module reset, and Boot is not as before. -/
theorem not_allotmentsResetAndFreeze : ¬ Obligations.AllotmentsResetAndFreeze := by
  unfold Obligations.AllotmentsResetAndFreeze
  rintro ⟨commands, -⟩
  obtain ⟨resets, -⟩ := commands .device 1 ownedKeyInRecovery (by decide) rfl (by decide) (by decide) (by decide)
  obtain ⟨t, ht, -, -, boot, -⟩ := resets (by decide) (by decide) (by decide) (.resetDrain .device 1) (by simp)
  have anew := nextShows_inj resetDrain_of_storeOwed_startsBoot ht
  rw [boot] at anew
  cases anew
end

section
/-! Corners that a statement's words leave out and its clauses meet: an event at STW_ALERT.MIN_LEVEL, the generator's own reseed, an injected frame
in a queue. -/

namespace Sys2Proof.Machine

open Sys2Proof

/-- A module in Service whose STW_ALERT has MIN_LEVEL 1 and nothing pending. -/
def alertingAtLevel1 : State := { State.reset.setFld Reg.stwAlert 2 0 1 with ctl := { Control.cold with mode := .service } }

/-- YOKE_ID_CHANGED is an event of level 1: PENDING rises and asserts ALERT_N (R58). -/
theorem yokeIdChanged_of_alertingAtLevel1_assertsAlertN :
    nextAlertN (exec .yokeIdChanged alertingAtLevel1) = some true := by decide +kernel

/-- A module in Ready whose generator has served 65,535 requests since its last reseed. -/
def generatorBeforeReseed : State :=
  { State.reset with
    ctl := { Control.cold with mode := .ready }
    boot := { Boot.blank with image := some onePortImage, otpLife := .production }
    kvt := { Kvt.reset with rbgHealthy := true, rbgCount := 65535 } }

/-- PROV_OPEN draws what it asks the generator for; its request, its event and its end draw nothing. -/
theorem provOpen_free {s : State} (noSession : s.kvt.session = none) (healthy : s.kvt.rbgHealthy = true) (n : Nat) :
    (s.provOpen n).free = (s.rbgTake 3).2.free := by
  unfold State.provOpen
  rw [noSession, healthy, if_neg (by decide), if_neg (by decide)]
  rw [(State.kvtEnd_touches ..).free (by decide), (State.note_touches ..).free (by decide), (State.putXfer_touches ..).free (by decide)]

/-- PROV_OPEN is the request after which the generator reseeds (R382): a fourth value is drawn. -/
theorem provOpen_of_generatorBeforeReseed_drawsFour {t : State} (ht : exec (.provOpen .device) generatorBeforeReseed = .next t) :
    t.free = 4 := by
  have run : exec (.provOpen .device) generatorBeforeReseed = .next ((generatorBeforeReseed.provOpen 0).disarm 10) :=
    congrArg Host.Outcome.next (cmdWrite_of_takes _ _ (by decide))
  cases ht.symm.trans run
  exact (provOpen_free rfl rfl 0).trans (by decide)

/-- A module in Ready with its host link up and an injected frame of one byte in the queue of association 0. -/
def linkUpInjected : State :=
  { State.reset with
    ctl := { Control.cold with mode := .ready }
    hif := { HostIf.reset with linkUp := true }
    sch := { Sch.reset with
      frames := [(0, some { frameAtLastCell with inject := some ⟨0, 0, 0, false, false⟩ })], nextId := 1, queues := [(0, [⟨0, 0, 0⟩])] } }

/-- The link goes down, and the injected frame leaves its queue. -/
theorem pcieLinkDown_of_linkUpInjected_emptiesQueue :
    nextShows (·.sch.queues) (exec .pcieLinkDown linkUpInjected) = some [] := by decide +kernel

end Sys2Proof.Machine

open Sys2Proof Sys2Proof.Machine

/-- Refutes O14: an event at MIN_LEVEL asserts ALERT_N, where the statement has a change of YOKE_ID leave the supplies as they are. -/
theorem not_supplyFeedsHeatAndMute : ¬ Obligations.SupplyFeedsHeatAndMute := by
  unfold Obligations.SupplyFeedsHeatAndMute
  rintro ⟨-, -, -, -, -, -, -, -, -, -, -, -, yokeId⟩
  obtain ⟨t, ht, pow, -⟩ := yokeId alertingAtLevel1 (by decide)
  have asserts := yokeIdChanged_of_alertingAtLevel1_assertsAlertN
  rw [ht] at asserts
  exact Bool.false_ne_true ((congrArg Power.alertN pow).symm.trans (Option.some.inj asserts))

/-- Refutes O44: PROV_OPEN draws three values and, where its request is the last before the generator's own reseed, one more. -/
theorem not_provisioningAndIdentity : ¬ Obligations.ProvisioningAndIdentity := by
  unfold Obligations.ProvisioningAndIdentity
  rintro ⟨commands, -⟩
  obtain ⟨opens, -⟩ := commands .device generatorBeforeReseed (by decide) rfl (by decide)
  obtain ⟨t, ht, x, -, -, -, -, draws, -⟩ := opens rfl rfl
  cases (provOpen_of_generatorBeforeReseed_drawsFour ht).symm.trans draws

/-- Refutes O58: an injected frame leaves its queue when the link goes down, where the statement has the queues unchanged. -/
theorem not_linkAndManagementBus : ¬ Obligations.LinkAndManagementBus := by
  unfold Obligations.LinkAndManagementBus
  rintro ⟨-, linkDown, -⟩
  obtain ⟨t, ht, -, -, -, -, -, -, queues, -⟩ := linkDown linkUpInjected rfl (by decide)
  cases (nextShows_inj pcieLinkDown_of_linkUpInjected_emptiesQueue ht).symm.trans queues
end

section
/-! A SET that moves its clock by more than 1 µs (R461), and HEDGE_ZERO_N in a Boot that has no way out (R100). -/

namespace Sys2Proof.Machine

open Sys2Proof

/-- A module in Ready whose time channel 0 runs from SOURCE 1, stands at 1 ms and has its value at the last sheaf. -/
def mappedChannelAt1Ms : State :=
  { State.reset with
    ctl := { Control.cold with mode := .ready }
    boot := { Boot.blank with image := some onePortImage }
    tim := { TimeSt.reset with chans := [{ Channel.idle with st := .running, source := 1, value := 1000000 * 2 ^ 40, mapC := some 0 }] } }

/-- SET puts the channel to 0, and the move starts its block maps anew (log 108). -/
theorem channelSet_of_mappedChannelAt1Ms_dropsMap :
    nextShows (fun t => (t.tim.chans[0]?).map (·.mapC)) (exec (.channelSet .device 0) mappedChannelAt1Ms) = some (some none) := by
  decide +kernel

/-- A Scrapped module in Boot with its Hedge on main power, whose evidence log is full. -/
def scrappedInBoot : State :=
  { State.reset with boot := { Boot.blank with otpLife := .scrapped }, hdg := { Hedge.blank with live := true, next := evidCap, fullRaised := true } }

/-- The response of level 5 leaves a Scrapped module in Boot. -/
theorem zeroPinRequest_of_scrappedInBoot_staysInBoot :
    nextMode (exec (.zeroPinRequest 3000) scrappedInBoot) = some .boot := by decide +kernel

end Sys2Proof.Machine

open Sys2Proof Sys2Proof.Machine

/-- Refutes O51: a SET that moves its clock by more than 1 µs drops the channel's block maps, where the statement changes its value, slew and
state alone. -/
theorem not_timeIsSteeredAndAnnounced : ¬ Obligations.TimeIsSteeredAndAnnounced := by
  unfold Obligations.TimeIsSteeredAndAnnounced
  rintro ⟨commands, -⟩
  obtain ⟨sets, -⟩ := commands .device 0 mappedChannelAt1Ms 0 (by decide) rfl (by decide) (by decide) (by decide)
  obtain ⟨t, ht, channel, -⟩ := sets _ rfl (by decide) (by decide)
  have dropped := nextShows_inj channelSet_of_mappedChannelAt1Ms_dropsMap ht
  rw [show t.tim.chans[0]? = _ from channel] at dropped
  cases dropped

/-- Refutes O52: HEDGE_ZERO_N leaves a Scrapped module in Boot, where the statement has every live module enter Zeroized. -/
theorem not_sensorsTripAndZeroPinErases : ¬ Obligations.SensorsTripAndZeroPinErases := by
  unfold Obligations.SensorsTripAndZeroPinErases
  rintro ⟨-, -, -, requested, -⟩
  obtain ⟨t, ht, zeroized, -⟩ := requested 3000 scrappedInBoot rfl (by decide) (by decide) (by decide) (by decide)
  have stays := zeroPinRequest_of_scrappedInBoot_staysInBoot
  rw [ht] at stays
  cases zeroized.symm.trans (Option.some.inj stays)
end

section
/-! The Hedge's configuration writes and its services on the cell (R480, R487, R488, R495, R504, R505). -/

namespace Sys2Proof.Machine

open Sys2Proof

/-! ## A sensor's configuration word -/

/-- The register of a sensor's configuration word. -/
def sensorCfgReg (k : Nat) (win : Bool) : Nat := if win then Reg.hdgSensorWin k else Reg.hdgSensorCfg k

theorem sensorCfgReg_range {k : Nat} (h : k < 16) (win : Bool) : 0x00D00100 ≤ sensorCfgReg k win ∧ sensorCfgReg k win < 0x00D00200 := by
  unfold sensorCfgReg Reg.hdgSensorWin Reg.hdgSensorCfg
  split <;> omega

/-- No lead conveys a write of the Hedge's block. -/
theorem conveyed_hedge {off : Nat} (h : off / 0x100000 = 13) : conveyed off = false := by
  simp only [conveyed, h]

theorem exec_sensorCfgWrite {s : State} {p : Path} {k : Fin 16} {win : Bool} (v : Word) (h : s.Reaches p (sensorCfgReg k win)) :
    exec (.sensorCfgWrite p k win v) s = .next ((s.disarm 13).sensorCfgEffect k win v) := by
  have block : sensorCfgReg k win / 0x100000 = 13 := by
    have := sensorCfgReg_range k.isLt win
    omega
  refine congrArg Host.Outcome.next ((hostWrite_of_reaches (off := sensorCfgReg k win) v _ h (conveyed_hedge block)).trans ?_)
  rw [block]

theorem sensorCfgReg_ne_recorded {k : Nat} (h : k < 16) (win : Bool) :
    sensorCfgReg k win ≠ Reg.stwAlert ∧ sensorCfgReg k win ≠ Reg.logLost := by
  have := sensorCfgReg_range h win
  unfold Reg.stwAlert Reg.logLost
  omega

section

variable {s : State} {k : Nat} (win : Bool) (v : Word)

theorem sensorCfgEffect_of_readOnly (h : 11 ≤ k) : s.sensorCfgEffect k win v = s := if_pos h

theorem sensorCfgEffect_of_locked (h : k < 11) (locked : s.flg Reg.hdgCfg 31 = true) :
    s.sensorCfgEffect k win v = s.note Ev.lockWriteIgnored (beBytes 4 (sensorCfgReg k win)) :=
  (if_neg (Nat.not_le.mpr h)).trans (if_pos locked)

theorem sensorCfgEffect_of_open (h : k < 11) (free : s.flg Reg.hdgCfg 31 = false) :
    s.sensorCfgEffect k win v = if s.cfgAllowed k win v = false then s.note Ev.structureBound (beBytes 4 (sensorCfgReg k win))
      else s.wr (sensorCfgReg k win) (if win then v else v &&& 0x7FFFF#32) :=
  (if_neg (Nat.not_le.mpr h)).trans (if_neg (by rw [free]; decide))

theorem sensorCfgEffect_of_refused (h : k < 11) (free : s.flg Reg.hdgCfg 31 = false) (refused : s.cfgAllowed k win v = false) :
    s.sensorCfgEffect k win v = s.note Ev.structureBound (beBytes 4 (sensorCfgReg k win)) :=
  (sensorCfgEffect_of_open win v h free).trans (if_pos refused)

theorem sensorCfgEffect_of_allowed (h : k < 11) (free : s.flg Reg.hdgCfg 31 = false) (allowed : s.cfgAllowed k win v = true) :
    s.sensorCfgEffect k win v = s.wr (sensorCfgReg k win) (if win then v else v &&& 0x7FFFF#32) :=
  (sensorCfgEffect_of_open win v h free).trans (if_neg (by rw [allowed]; decide))

end

/-! ## The evidence log's read window -/

theorem exec_hdgLogIndexWrite {s : State} {p : Path} (v : Word) (h : s.Reaches p Reg.hdgLogIndex) :
    exec (.hdgLogIndexWrite p v) s = .next ((s.disarm 13).hdgIndexEffect v) :=
  congrArg Host.Outcome.next (hostWrite_of_reaches v _ h (conveyed_hedge rfl))

theorem hdgLogData_injective : Function.Injective Reg.hdgLogData := fun a b h => by
  unfold Reg.hdgLogData at h
  omega

theorem putEvidence_rd (s : State) (b : List Byte) {w : Nat} (h : w < 32) :
    (s.putEvidence b).rd (Reg.hdgLogData w) = BitVec.ofNat 32 (ofBe (slice b (4 * w) 4)) :=
  rd_foldl_wr_range s hdgLogData_injective (fun w => BitVec.ofNat 32 (ofBe (slice b (4 * w) 4))) h

theorem putEvidence_nil_rd (s : State) {w : Nat} (h : w < 32) : (s.putEvidence []).rd (Reg.hdgLogData w) = 0 := by
  have blank : slice [] (4 * w) 4 = zeroBytes 4 := by simp [slice]
  rw [putEvidence_rd s _ h, blank]
  rfl

theorem putEvidence_hdg (s : State) (b : List Byte) : (s.putEvidence b).hdg = s.hdg :=
  (Touches.foldl (m := [.regs]) _ s (.rfl' _ s) fun _ _ h => .chain (State.wr_touches ..) (by decide) h).hdg (by decide)

theorem hdgLogData_ne_index (w : Nat) : Reg.hdgLogData w ≠ Reg.hdgLogIndex := by
  unfold Reg.hdgLogData Reg.hdgLogIndex
  omega

theorem bits_ofNat_low {n : Nat} (h : n < 2 ^ 13) : bits (BitVec.ofNat 32 n) 12 0 = n := by
  simp only [bits, BitVec.toNat_ofNat]
  omega

theorem bit_ofNat_high {n : Nat} (h : n < 2 ^ 13) : bit (BitVec.ofNat 32 n) 31 = false := by
  unfold bit
  rw [BitVec.getLsbD_ofNat, Nat.testBit_eq_false_of_lt (by omega)]
  rfl

/-- HDG_LOG_INDEX with VALID 1 shows VALID and the index. -/
theorem validIndex_shows {n : Nat} (h : n < 2 ^ 13) :
    bit (setBit (BitVec.ofNat 32 n) 31 true) 31 = true ∧ bits (setBit (BitVec.ofNat 32 n) 31 true) 12 0 = n := by
  unfold setBit
  exact ⟨bit_setBits_self _ 31 1 (by decide) (by decide),
    (bits_setBits_out _ 31 31 1 12 0 (.inl (by decide)) (by decide)).trans (bits_ofNat_low h)⟩

section

variable {s : State} (v : Word)

theorem hdgIndexEffect_of_record {r : EvidRec} (found : SMap.get noneOf s.hdg.log (bits v 12 0) = some r) (below : bits v 12 0 < s.hdg.next) :
    s.hdgIndexEffect v = (s.putEvidence r.bytes).wr Reg.hdgLogIndex (setBit (BitVec.ofNat 32 (bits v 12 0)) 31 true) := by
  have shown : (if bits v 12 0 < s.hdg.next then SMap.get noneOf s.hdg.log (bits v 12 0) else none) = some r := (if_pos below).trans found
  simp only [State.hdgIndexEffect, shown]

theorem hdgIndexEffect_of_none (h : s.hdg.next ≤ bits v 12 0 ∨ SMap.get noneOf s.hdg.log (bits v 12 0) = none) :
    s.hdgIndexEffect v = (s.putEvidence []).wr Reg.hdgLogIndex (BitVec.ofNat 32 (bits v 12 0)) := by
  have missing : (if bits v 12 0 < s.hdg.next then SMap.get noneOf s.hdg.log (bits v 12 0) else none) = none := by
    split
    · next below => exact h.resolve_left (Nat.not_le.mpr below)
    · rfl
  simp only [State.hdgIndexEffect, missing]

end

end Sys2Proof.Machine

open Sys2Proof Sys2Proof.Machine

/-- Settles O53, by what a write does past its gates: nothing from sensor 11 on, else the lock, then the floor decides. -/
theorem sensorFloorsBindWrites : Obligations.SensorFloorsBindWrites := by
  unfold Obligations.SensorFloorsBindWrites
  intro p k win v s reaches
  have run := exec_sensorCfgWrite v reaches
  have awake : (s.disarm 13).ctl.mode ≠ .sentry := resp_mode reaches.2.1
  obtain ⟨notAlert, notLost⟩ := sensorCfgReg_ne_recorded k.isLt win
  refine ⟨fun low free allowed => ?_, fun low free refused => ?_, fun low locked => ?_, fun high => ?_⟩
  · rw [sensorCfgEffect_of_allowed (s := s.disarm 13) win v low free allowed] at run
    exact ⟨_, run, rd_wr_self .., fun x other => rd_wr_ne _ _ _ _ other, rfl⟩
  · rw [sensorCfgEffect_of_refused (s := s.disarm 13) win v low free refused] at run
    exact ⟨_, run, note_rd _ _ _ _ notAlert notLost, note_events _ _ _ _ awake (by decide) (by decide)⟩
  · rw [sensorCfgEffect_of_locked (s := s.disarm 13) win v low locked] at run
    exact ⟨_, run, note_rd _ _ _ _ notAlert notLost, note_events _ _ _ _ awake (by decide) (by decide)⟩
  · rw [sensorCfgEffect_of_readOnly win v high] at run
    exact ⟨_, run, rfl⟩

/-- Settles O54, by what each service answers on its supply, and by the words that a write of HDG_LOG_INDEX copies. -/
theorem cellServicesAndEvidence : Obligations.CellServicesAndEvidence := by
  unfold Obligations.CellServicesAndEvidence
  refine ⟨fun mv s cell => ?_, fun s => rfl, fun s cell => ?_, fun mv s live => ⟨if_pos live, if_pos live⟩, fun p v s reaches => ⟨?_, ?_⟩⟩
  · have onCell : ¬s.hdg.live = true := by rw [cell]; decide
    refine ⟨s.reserveTest mv, if_neg onCell, decide_eq_true_iff, ?_, rfl⟩
    show (if 4095 < mv then 4095 else mv) = min mv 4095
    split <;> omega
  · have onCell : ¬s.hdg.live = true := by rw [cell]; decide
    exact ⟨_, if_neg onCell, rfl, rfl, rfl, rfl, rfl, rfl, rfl, rfl, rfl⟩
  · intro r found below
    have run := exec_hdgLogIndexWrite v reaches
    rw [hdgIndexEffect_of_record (s := s.disarm 13) v found below] at run
    have shows := validIndex_shows (bits_lt v 12 0)
    refine ⟨_, run, ?_, ?_, fun w word => ?_, ((State.wr_touches ..).hdg (by decide)).trans (putEvidence_hdg ..)⟩
    · rw [State.flg, rd_wr_self]
      exact shows.1
    · rw [State.fld, rd_wr_self]
      exact shows.2
    · rw [rd_wr_ne _ _ _ _ (hdgLogData_ne_index w), putEvidence_rd _ _ word]
  · intro absent
    have run := exec_hdgLogIndexWrite v reaches
    rw [hdgIndexEffect_of_none (s := s.disarm 13) v absent] at run
    refine ⟨_, run, ?_, ?_, fun w word => ?_, ((State.wr_touches ..).hdg (by decide)).trans (putEvidence_hdg ..)⟩
    · rw [State.flg, rd_wr_self]
      exact bit_ofNat_high (bits_lt v 12 0)
    · rw [State.fld, rd_wr_self]
      exact bits_ofNat_low (bits_lt v 12 0)
    · rw [rd_wr_ne _ _ _ _ (hdgLogData_ne_index w), putEvidence_nil_rd _ word]
end

section
/-! What recording an event leaves of each part it touches (R525 to R527, R540, R542 to R551, R554), and a stream's record with it (R562, R563). -/

namespace Sys2Proof.Machine

open Sys2Proof

/-! ## The relation -/

/-- A register or counter that recording, the streams and the store queue write: STW_ALERT, LOG_LOST, the deferral count, the event ring's two
counters, the streams' indices and drops. -/
abbrev RecordKey (k : Nat) : Prop :=
  k = Reg.stwAlert ∨ k = Reg.logLost ∨ k = Reg.stwStoreDeferrals ∨ k = Reg.hifCountLo 3 ∨ k = Reg.hifCountLo 4 ∨ (0xF0010C ≤ k ∧ k < 0xF00240)

/-- From s to t events were recorded, and stream records with them: of each part that this touches only what recording writes has changed. -/
structure Recorded (s t : State) : Prop where
  touches : Touches Part.note s t
  rd : ∀ k, ¬RecordKey k → t.rd k = s.rd k
  count : ∀ k, ¬RecordKey k → t.count k = s.count k
  led : ∃ evc opened staged seq lostAt,
    t.led = { s.led with evc := evc, opened := opened, staged := staged, seq := seq, stageLostAt := lostAt }
  pow : ∃ a, t.pow = { s.pow with alertN := a }
  hif : ∃ m ovf unsig at_ pba,
    t.hif = { s.hif with ringMod := m, ringOvf := ovf, unsig := unsig, unsigAt := at_, pba := pba }
  ring : ∀ i, i % 16 ≠ 12 → SMap.get zeroOf t.hif.ringMod i = SMap.get zeroOf s.hif.ringMod i
  yok : ∃ n, t.yok = { s.yok with suspect := n }
  out : ∃ os, t.out = s.out ++ os

namespace Recorded

theorem refl (s : State) : Recorded s s :=
  ⟨.rfl' _ s, fun _ _ => rfl, fun _ _ => rfl, ⟨_, _, _, _, _, rfl⟩, ⟨_, rfl⟩, ⟨_, _, _, _, _, rfl⟩, fun _ _ => rfl, ⟨_, rfl⟩,
    ⟨[], (List.append_nil _).symm⟩⟩

theorem trans {s t u : State} (h : Recorded s t) (k : Recorded t u) : Recorded s u := by
  obtain ⟨_, _, _, _, _, led⟩ := h.led
  obtain ⟨e, o, g, q, l, led'⟩ := k.led
  obtain ⟨_, pow⟩ := h.pow
  obtain ⟨a, pow'⟩ := k.pow
  obtain ⟨_, _, _, _, _, hif⟩ := h.hif
  obtain ⟨m, v, x, y, z, hif'⟩ := k.hif
  obtain ⟨_, yok⟩ := h.yok
  obtain ⟨n, yok'⟩ := k.yok
  obtain ⟨os, out⟩ := h.out
  obtain ⟨ps, out'⟩ := k.out
  exact ⟨h.touches.trans k.touches, fun i w => (k.rd i w).trans (h.rd i w), fun i w => (k.count i w).trans (h.count i w),
    ⟨e, o, g, q, l, by rw [led', led]⟩, ⟨a, by rw [pow', pow]⟩, ⟨m, v, x, y, z, by rw [hif', hif]⟩,
    fun i w => (k.ring i w).trans (h.ring i w), ⟨n, by rw [yok', yok]⟩, ⟨os ++ ps, by rw [out', out, List.append_assoc]⟩⟩

theorem ite {s a b : State} {c : Prop} [Decidable c] (h : Recorded s a) (k : Recorded s b) : Recorded s (if c then a else b) := by
  split <;> assumption

theorem foldl {α : Type} {f : State → α → State} (l : List α) (s : State) (h : ∀ x, ∀ a ∈ l, Recorded x (f x a)) :
    Recorded s (l.foldl f s) := by
  induction l generalizing s with
  | nil => exact refl s
  | cons a l ih => exact (h s a List.mem_cons_self).trans (ih _ fun x b hb => h x b (List.mem_cons_of_mem a hb))

/-! ## Its steps -/

theorem wr (s : State) {k : Nat} (v : Word) (own : RecordKey k) : Recorded s (s.wr k v) :=
  ⟨(State.wr_touches ..).mono (by decide), fun _ other => rd_wr_ne _ _ _ _ fun e => other (e ▸ own), fun _ _ => rfl, ⟨_, _, _, _, _, rfl⟩,
    ⟨_, rfl⟩, ⟨_, _, _, _, _, rfl⟩, fun _ _ => rfl, ⟨_, rfl⟩, ⟨[], (List.append_nil _).symm⟩⟩

theorem inc (s : State) {k : Nat} (own : RecordKey k) : Recorded s (s.inc k) :=
  ⟨(State.inc_touches ..).mono (by decide), fun _ _ => rfl, fun _ other => count_inc_ne s fun e => other (e ▸ own),
    ⟨_, _, _, _, _, rfl⟩, ⟨_, rfl⟩, ⟨_, _, _, _, _, rfl⟩, fun _ _ => rfl, ⟨_, rfl⟩, ⟨[], (List.append_nil _).symm⟩⟩

theorem emit (s : State) (o : Output) : Recorded s (s.emit o) :=
  ⟨(State.emit_touches ..).mono (by decide), fun _ _ => rfl, fun _ _ => rfl, ⟨_, _, _, _, _, rfl⟩, ⟨_, rfl⟩, ⟨_, _, _, _, _, rfl⟩,
    fun _ _ => rfl, ⟨_, rfl⟩, ⟨[o], rfl⟩⟩

theorem setLed (s : State) (evc : SMap Nat) (opened : List OpenRec) (staged : List Staged) (seq : Nat) (lostAt : Option Nat) :
    Recorded s { s with led := { s.led with evc := evc, opened := opened, staged := staged, seq := seq, stageLostAt := lostAt } } :=
  ⟨.set_led (.rfl' _ s) (by decide) id, fun _ _ => rfl, fun _ _ => rfl, ⟨_, _, _, _, _, rfl⟩, ⟨_, rfl⟩, ⟨_, _, _, _, _, rfl⟩,
    fun _ _ => rfl, ⟨_, rfl⟩, ⟨[], (List.append_nil _).symm⟩⟩

theorem setPow (s : State) (a : Bool) : Recorded s { s with pow := { s.pow with alertN := a } } :=
  ⟨.set_pow (.rfl' _ s) (by decide), fun _ _ => rfl, fun _ _ => rfl, ⟨_, _, _, _, _, rfl⟩, ⟨_, rfl⟩, ⟨_, _, _, _, _, rfl⟩,
    fun _ _ => rfl, ⟨_, rfl⟩, ⟨[], (List.append_nil _).symm⟩⟩

theorem setHif (s : State) {m : SMap Nat} (ovf : List Nat) (unsig unsigAt : SMap Nat) (pba : List Nat)
    (ring : ∀ i, i % 16 ≠ 12 → SMap.get zeroOf m i = SMap.get zeroOf s.hif.ringMod i) :
    Recorded s { s with hif := { s.hif with ringMod := m, ringOvf := ovf, unsig := unsig, unsigAt := unsigAt, pba := pba } } :=
  ⟨.set_hif (.rfl' _ s) (by decide), fun _ _ => rfl, fun _ _ => rfl, ⟨_, _, _, _, _, rfl⟩, ⟨_, rfl⟩, ⟨_, _, _, _, _, rfl⟩,
    ring, ⟨_, rfl⟩, ⟨[], (List.append_nil _).symm⟩⟩

theorem setSuspect (s : State) (n : Nat) : Recorded s { s with yok := { s.yok with suspect := n } } :=
  ⟨.set_yok (.rfl' _ s) (by decide), fun _ _ => rfl, fun _ _ => rfl, ⟨_, _, _, _, _, rfl⟩, ⟨_, rfl⟩, ⟨_, _, _, _, _, rfl⟩,
    fun _ _ => rfl, ⟨_, rfl⟩, ⟨[], (List.append_nil _).symm⟩⟩

/-! ## Interrupts, alert and rings -/

theorem fire (s : State) (v : Nat) : Recorded s (s.fire v) := by
  unfold State.fire
  exact ite (setHif s _ _ _ _ fun _ _ => rfl) (emit ..)

theorem signal (s : State) (n v : Nat) : Recorded s (s.signal n v) := by
  unfold State.signal
  extract_lets cfg lim u
  exact ite ((setHif s _ _ _ _ fun _ _ => rfl).trans (fire ..)) (setHif s _ _ _ _ fun _ _ => rfl)

theorem driveAlert (s : State) : Recorded s s.driveAlert := by
  unfold State.driveAlert
  extract_lets low
  exact ite (refl s) ((setPow ..).trans (emit ..))

theorem alert (s : State) (level : Nat) : Recorded s (s.alert level) := by
  unfold State.alert
  extract_lets least t
  have raised : Recorded s t := ((wr s _ (by decide)).trans (driveAlert _)).trans (fire ..)
  exact ite (refl s) (ite (refl s) (ite (raised.trans (emit ..)) raised))

theorem stageLost (s : State) : Recorded s s.stageLost := wr s _ (by decide)

theorem ringPut_event (s : State) (n size : Nat) (bs : List Byte) : Recorded s (s.ringPut n 12 size bs) := by
  unfold State.ringPut
  extract_lets m slot written
  refine (emit ..).trans (setHif written _ _ _ _ fun i other => SMap.get_set_ne _ _ _ _ _ ?_)
  omega

theorem postTo (s : State) (n : Nat) (r : EvRec) : Recorded s (s.postTo n r).1 := by
  unfold State.postTo
  split
  · exact refl s
  split
  · exact (setHif s _ _ _ _ fun _ _ => rfl).trans (inc _ (by decide))
  · extract_lets put hif noted
    have marked : Recorded s noted := (ringPut_event ..).trans (setHif put _ _ _ _ fun _ _ => rfl)
    exact (marked.trans (inc _ (by decide))).trans (signal ..)

theorem postAll (s : State) (r : EvRec) (ns : List Nat) : Recorded s (s.postAll r ns).1 := by
  induction ns generalizing s with
  | nil => exact refl s
  | cons n ns ih => exact (postTo s n r).trans (ih _)

/-! ## Events -/

/-- A record that closes enters staging, and no other part of the Ledger moves. -/
theorem ledger_close (l : Ledger) (now : Nat) (keep : Bool) (r : EvRec) : ∃ staged, (l.close now keep r).1 = { l with staged := staged } := by
  unfold Ledger.close
  split
  · exact ⟨_, rfl⟩
  split
  · exact ⟨_, rfl⟩
  · split <;> exact ⟨_, rfl⟩

theorem ledger_closeOldest (l : Ledger) (now : Nat) :
    ∃ opened staged, (l.closeOldest now).1 = { l with opened := opened, staged := staged } := by
  unfold Ledger.closeOldest
  split
  · exact ⟨_, _, rfl⟩
  next o os _ =>
    obtain ⟨staged, closed⟩ := ledger_close { l with opened := os } now o.keep o.rcd
    exact ⟨os, staged, by rw [closed]⟩

/-- Room for one more open record is made by closing the oldest. -/
theorem ledger_room (l : Ledger) (now : Nat) : ∃ opened staged,
    (if l.opened.length < openCap then (l, false) else l.closeOldest now).1 = { l with opened := opened, staged := staged } := by
  split
  · exact ⟨_, _, rfl⟩
  · exact ledger_closeOldest ..

theorem ledger_formed (s : State) (t : Nat × Nat × Bool) (c l a : Nat) (p : List Byte) :
    ∃ evc opened staged seq, (formed s t c l a p).1 = { s.led with evc := evc, opened := opened, staged := staged, seq := seq } := by
  unfold formed
  extract_lets led keep stepped x
  split
  · obtain ⟨opened, staged, kept⟩ : ∃ opened staged, x.1 = { stepped with opened := opened, staged := staged } := ledger_room ..
    exact ⟨led.evc, _, staged, stepped.seq,
      congrArg (fun y : Ledger => { y with opened := x.1.opened ++ [OpenRec.mk s.now keep (rcdOf s t c l a p)] }) kept⟩
  · obtain ⟨staged, closed⟩ := ledger_close stepped s.now keep (rcdOf s t c l a p)
    exact ⟨led.evc, led.opened, staged, stepped.seq, closed⟩

theorem noteCore (s : State) (t : Nat × Nat × Bool) (c l a : Nat) (o : List Nat) (ps : List Byte) :
    Recorded s (s.noteCore t c l a o ps).1 := by
  by_cases asleep : s.ctl.mode = .sentry
  · unfold State.noteCore
    rw [if_pos asleep]
    exact refl s
  obtain ⟨os, folded⟩ | ⟨x, record, recorded⟩ := noteCore_cases s t c l a o ps asleep
  · rw [folded]
    exact setLed ..
  · rw [recorded]
    have posted (x : State) (r : EvRec) (ns : List Nat) : Recorded x (if 1 ≤ l then x.postAll r ns else (x, false)).1 := by
      split
      · exact postAll ..
      · exact refl x
    obtain ⟨evc, opened, staged, seq, made⟩ := ledger_formed s t c l a ps
    have entered : Recorded s x := by
      rw [record, made]
      exact setLed ..
    exact ((entered.trans (ite (stageLost x) (refl x))).trans (posted ..)).trans (alert ..)

theorem suspectAfter (s : State) (code level : Nat) : Recorded s (s.suspectAfter code level) := ite (setSuspect ..) (refl s)

theorem noteAt (s : State) (t : Nat × Nat × Bool) (c l a : Nat) (o : List Nat) (ps : List Byte) :
    Recorded s (s.noteAt t c l a o ps) := by
  unfold State.noteAt
  extract_lets suspected carried
  split
  next recorded lost dropped made =>
  have core : Recorded suspected recorded := by simpa only [made] using noteCore suspected t c l a o carried
  have h : Recorded s recorded := (suspectAfter ..).trans core
  extract_lets told led stamped
  have k : Recorded s told := ite (h.trans (noteCore ..)) h
  exact ite ((k.trans (setLed told ..)).trans (noteCore ..)) k

theorem note (s : State) (e : EvKind) (ps : List Byte) : Recorded s (s.note e ps) := noteAt ..

theorem noteFor (s : State) (e : EvKind) (n : Nat) (ps : List Byte) : Recorded s (s.noteFor e n ps) := noteAt ..

theorem noteAs (s : State) (c l a : Nat) (o : List Nat) (ps : List Byte) : Recorded s (s.noteAs c l a o ps) := noteAt ..

/-! ## Streams -/

theorem streamPut (s : State) {n : Nat} (low : n < 16) (body : List Byte) : Recorded s (s.streamPut n body) := by
  have drops : RecordKey (Reg.pmcStreamDrops n) := by
    unfold Reg.pmcStreamDrops RecordKey
    omega
  have index : RecordKey (Reg.pmcStreamIndex n) := by
    unfold Reg.pmcStreamIndex RecordKey
    omega
  unfold State.streamPut
  exact ite (refl s) (ite ((wr s _ drops).trans (note ..)) ((emit ..).trans (inc _ index)))

theorem streamAll (s : State) (pass : Word → Bool) (body : List Byte) : Recorded s (s.streamAll pass body) := by
  unfold State.streamAll
  exact foldl _ s fun x k mem => ite (streamPut x (List.mem_range.mp mem) body) (refl x)

/-! ## What follows -/

theorem mem_out {s t : State} (h : Recorded s t) {o : Output} (mem : o ∈ s.out) : o ∈ t.out := by
  obtain ⟨os, out⟩ := h.out
  rw [out]
  exact List.mem_append_left _ mem

theorem fld {s t : State} (h : Recorded s t) {k : Nat} (other : ¬RecordKey k) (hi lo : Nat) : t.fld k hi lo = s.fld k hi lo :=
  congrArg (bits · hi lo) (h.rd k other)

theorem flg {s t : State} (h : Recorded s t) {k : Nat} (other : ¬RecordKey k) (b : Nat) : t.flg k b = s.flg k b :=
  congrArg (bit · b) (h.rd k other)

end Recorded

end Sys2Proof.Machine
end

section
/-! Counter snapshots and filter units (R555, R558, R559, R562). -/

namespace Sys2Proof.Machine

open Sys2Proof

/-! ## Filter samples -/

/-- The Ledger with unit k's sample number set. -/
def Ledger.numberSample (l : Ledger) (k no : Nat) : Ledger := { l with fuSample := SMap.set zeroOf l.fuSample k no }

theorem streamAll_events (s : State) (pass : Word → Bool) (body : List Byte) (awake : s.ctl.mode ≠ .sentry) :
    (s.streamAll pass body).events Ev.dumpDropped = s.events Ev.dumpDropped := by
  have quiet (l : List Nat) (x : State) (ctl : x.ctl = s.ctl) :
      (l.foldl (fun s k => let w := s.rd (Reg.pmcStreamCfg k); if bit w 31 && pass w then s.streamPut k body else s) x).events Ev.dumpDropped =
        x.events Ev.dumpDropped := by
    induction l generalizing x with
    | nil => rfl
    | cons k l ih =>
      rw [List.foldl_cons]
      extract_lets w
      split
      · exact (ih _ (((State.streamPut_touches ..).ctl (by decide)).trans ctl)).trans
          (streamPut_events x _ _ _ (by rw [ctl]; exact awake) (by decide) (by decide) (by decide))
      · exact ih _ ctl
  exact quiet _ s rfl

theorem sampleUnit_eq (s : State) (k : Nat) : ∃ u, Recorded s u ∧
    (s.ctl.mode ≠ .sentry → u.events Ev.dumpDropped = s.events Ev.dumpDropped) ∧
    s.sampleUnit k = { u with led := u.led.numberSample k ((SMap.get zeroOf s.led.fuSample k + 1) % 2 ^ 32) } :=
  ⟨_, .streamAll .., fun awake => streamAll_events _ _ _ awake, rfl⟩

/-- From s to t the filter units below n have had one sample each, and nothing but the samples' records has come of it. -/
structure Sampled (n : Nat) (s t : State) : Prop where
  rd : ∀ k, ¬RecordKey k → t.rd k = s.rd k
  count : ∀ k, ¬RecordKey k → t.count k = s.count k
  sample : ∀ k, SMap.get zeroOf t.led.fuSample k =
    if k < n then (SMap.get zeroOf s.led.fuSample k + 1) % 2 ^ 32 else SMap.get zeroOf s.led.fuSample k
  fu : t.led.fu = s.led.fu
  dumpSeq : t.led.dumpSeq = s.led.dumpSeq
  snapAt : t.led.snapAt = s.led.snapAt
  out : ∃ os, t.out = s.out ++ os
  mode : t.ctl = s.ctl
  events : s.ctl.mode ≠ .sentry → t.events Ev.dumpDropped = s.events Ev.dumpDropped

theorem Sampled.zero (s : State) : Sampled 0 s s :=
  ⟨fun _ _ => rfl, fun _ _ => rfl, fun _ => rfl, rfl, rfl, rfl, ⟨[], (List.append_nil _).symm⟩, rfl, fun _ => rfl⟩

theorem Sampled.step {n : Nat} {s t : State} (h : Sampled n s t) : Sampled (n + 1) s (t.sampleUnit n) := by
  obtain ⟨u, recorded, quiet, sampled⟩ := sampleUnit_eq t n
  obtain ⟨_, _, _, _, _, led⟩ := recorded.led
  obtain ⟨os, out⟩ := h.out
  obtain ⟨ps, more⟩ := recorded.out
  have ctl : (t.sampleUnit n).ctl = t.ctl := (State.sampleUnit_touches ..).ctl (by decide)
  rw [sampled] at ctl ⊢
  refine ⟨fun k other => (recorded.rd k other).trans (h.rd k other), fun k other => (recorded.count k other).trans (h.count k other),
    fun k => ?_, by rw [← h.fu]; show u.led.fu = _; rw [led], by rw [← h.dumpSeq]; show u.led.dumpSeq = _; rw [led],
    by rw [← h.snapAt]; show u.led.snapAt = _; rw [led], ⟨os ++ ps, by show u.out = _; rw [more, out, List.append_assoc]⟩,
    ctl.trans h.mode, fun awake => ?_⟩
  · show SMap.get zeroOf (SMap.set zeroOf u.led.fuSample n _) k = _
    rw [led, SMap.get_set, h.sample, h.sample]
    by_cases same : k = n
    · simp [same]
    · have : k < n + 1 ↔ k < n := by omega
      simp [same, this]
  · exact (quiet (by rw [h.mode]; exact awake)).trans (h.events awake)

theorem sampled_foldl (s : State) (n : Nat) : Sampled n s ((List.range n).foldl State.sampleUnit s) := by
  induction n with
  | zero => exact .zero s
  | succ n ih =>
    rw [List.range_succ, List.foldl_append]
    exact ih.step

/-! ## Dumps -/

/-- Where the next dump goes in the dump ring. -/
def State.dumpAddr (s : State) : Nat :=
  (s.rd Reg.pmcDumpBaseLo).toNat / 32768 * 32768 + (s.rd Reg.pmcDumpBaseHi).toNat * 2 ^ 32 + s.count Reg.pmcDumpIndex % s.dumpSlots * 32768

theorem dump_of_full {s : State} (p : Bool) (full : s.dumpSlots ≤ s.dumpLevel) :
    s.dump p = (s.wr Reg.pmcDrops (sat32 ((s.rd Reg.pmcDrops).toNat + 1))).note Ev.dumpDropped := if_pos (.inl full)

theorem slice_middle (a b c : List Byte) : slice (a ++ (b ++ c)) a.length b.length = b := by
  simp only [slice, List.drop_left, List.take_left, Nat.sub_self]
  exact List.append_nil b

/-- SEQ of a dump's body. -/
theorem dumpBody_seq (s : State) (p : Bool) : slice (s.dumpBody p) 4 4 = beBytes 4 s.led.dumpSeq := by
  unfold State.dumpBody
  simp only [List.append_assoc]
  exact slice_middle [0x53#8, 0x4C#8, 0x50#8, 0x44#8] (beBytes 4 s.led.dumpSeq) _

theorem dump_of_room {s : State} (p : Bool) (room : s.dumpLevel < s.dumpSlots) (up : s.hif.linkUp = true) :
    (s.dump p).led = { s.led with dumpSeq := s.led.dumpSeq + 1 } ∧ (s.dump p).count Reg.pmcDumpIndex = s.count Reg.pmcDumpIndex + 1 ∧
    .hostWrite (s.dmaTag 0 false) (s.dumpAddr + 4) (beBytes 4 s.led.dumpSeq) ∈ (s.dump p).out ∧
    (∀ k, (s.dump p).rd k = s.rd k) ∧ (s.dump p).ctl = s.ctl := by
  have goes : ¬(s.dumpSlots ≤ s.dumpLevel ∨ s.hif.linkUp = false) := by
    rw [up]
    rintro (full | down)
    · omega
    · cases down
  unfold State.dump
  rw [if_neg goes]
  extract_lets body base addr first rest seq
  refine ⟨rfl, count_inc_same .., ?_, fun _ => rfl, rfl⟩
  rw [← dumpBody_seq s p]
  exact List.mem_append_right _ (List.mem_singleton.mpr rfl)

/-! ## Snapshots -/

/-- What a snapshot samples, once its dump is done. -/
def State.dumped (s : State) (p : Bool) : State := if s.flg Reg.pmcDumpCfg 31 then s.dump p else s

theorem snapshot_sampled (s : State) (p : Bool) : Sampled 256 (s.dumped p) (s.snapshot p) := sampled_foldl ..

/-- A snapshot's dump keeps every sample number, every count, the time of the last snapshot, and the mode. -/
theorem dumped_keeps (s : State) (p : Bool) : (∃ evc opened staged seq lostAt dumpSeq, (s.dumped p).led =
      { s.led with evc := evc, opened := opened, staged := staged, seq := seq, stageLostAt := lostAt, dumpSeq := dumpSeq }) ∧
    (s.dumped p).ctl = s.ctl ∧ ∀ k, ¬RecordKey k → k ≠ Reg.pmcDrops → (s.dumped p).rd k = s.rd k := by
  unfold State.dumped State.dump
  split
  · split
    · have recorded := Recorded.note (s.wr Reg.pmcDrops (sat32 ((s.rd Reg.pmcDrops).toNat + 1))) Ev.dumpDropped []
      obtain ⟨_, _, _, _, _, led⟩ := recorded.led
      exact ⟨⟨_, _, _, _, _, _, led⟩, note_ctl _ _ _, fun k other drops => (recorded.rd k other).trans (rd_wr_ne _ _ _ _ drops)⟩
    · exact ⟨⟨_, _, _, _, _, _, rfl⟩, rfl, fun _ _ _ => rfl⟩
  · exact ⟨⟨_, _, _, _, _, _, rfl⟩, rfl, fun _ _ _ => rfl⟩

theorem snapshot_snapped {s : State} (awake : s.ctl.mode ≠ .sentry) (p : Bool) : s.Snapped (s.snapshot p) := by
  have sampled := snapshot_sampled s p
  obtain ⟨⟨_, _, _, _, _, _, led⟩, ctl, _⟩ := dumped_keeps s p
  have awake' : (s.dumped p).ctl.mode ≠ .sentry := by rwa [ctl]
  refine ⟨fun k low => ?_, by rw [sampled.fu, led], fun off => ?_, fun on up room => ?_, fun on full => ?_⟩
  · rw [sampled.sample, if_pos low, led]
  · have none : s.dumped p = s := if_neg (by rw [off]; decide)
    rw [none] at sampled
    exact ⟨sampled.dumpSeq, sampled.count _ (by decide)⟩
  · have once : s.dumped p = s.dump p := if_pos on
    obtain ⟨led, index, written, -, -⟩ := dump_of_room p room up
    obtain ⟨os, out⟩ := sampled.out
    rw [once] at sampled out
    exact ⟨sampled.dumpSeq.trans (by rw [led]), (sampled.count _ (by decide)).trans index, out ▸ List.mem_append_left os written⟩
  · have dropped : s.dumped p = _ := (if_pos on).trans (dump_of_full p full)
    rw [dropped] at sampled awake'
    have recorded := Recorded.note (s.wr Reg.pmcDrops (sat32 ((s.rd Reg.pmcDrops).toNat + 1))) Ev.dumpDropped []
    obtain ⟨_, _, _, _, _, led⟩ := recorded.led
    refine ⟨sampled.dumpSeq.trans (by rw [led]; rfl), ?_, (sampled.events awake').trans (note_events _ _ _ _ awake (by decide) (by decide))⟩
    exact (sampled.rd _ (by decide)).trans ((recorded.rd _ (by decide)).trans (rd_wr_self ..))

theorem snapshot_snapAt (s : State) (p : Bool) : (s.snapshot p).led.snapAt = s.led.snapAt := by
  obtain ⟨⟨_, _, _, _, _, _, led⟩, -⟩ := dumped_keeps s p
  rw [(snapshot_sampled s p).snapAt, led]

theorem snapshot_snapCfg (s : State) (p : Bool) : (s.snapshot p).rd Reg.pmcSnapCfg = s.rd Reg.pmcSnapCfg :=
  ((snapshot_sampled s p).rd _ (by decide)).trans ((dumped_keeps s p).2.2 _ (by decide) (by decide))

/-- A snapshot does not read PMC_SNAP_CFG, the arms or the time of the last one. -/
theorem snapped_of_cfg {s u t : State} (rd : ∀ k, k ≠ Reg.pmcSnapCfg → u.rd k = s.rd k) (cnt : u.cnt = s.cnt) (hif : u.hif = s.hif)
    (at_ : Nat) (led : u.led = { s.led with snapAt := at_ }) (h : u.Snapped t) : s.Snapped t := by
  have count (k : Nat) : u.count k = s.count k := count_of_cnt cnt k
  have fld (k hi lo : Nat) (other : k ≠ Reg.pmcSnapCfg) : u.fld k hi lo = s.fld k hi lo := congrArg (bits · hi lo) (rd k other)
  have flg (k b : Nat) (other : k ≠ Reg.pmcSnapCfg) : u.flg k b = s.flg k b := congrArg (bit · b) (rd k other)
  have level : u.dumpLevel = s.dumpLevel := by rw [State.dumpLevel, count, fld _ _ _ (by decide)]; rfl
  have slots : u.dumpSlots = s.dumpSlots := by rw [State.dumpSlots, fld _ _ _ (by decide)]; rfl
  have tag : u.dmaTag 0 false = s.dmaTag 0 false := by
    rw [State.dmaTag, flg _ _ (by decide), fld _ _ _ (by decide)]
    rfl
  have events : u.events Ev.dumpDropped = s.events Ev.dumpDropped := by rw [State.events, led]; rfl
  simpa only [State.Snapped, led, hif, level, slots, tag, events, count, flg _ _ (show Reg.pmcDumpCfg ≠ Reg.pmcSnapCfg by decide),
    rd _ (show Reg.pmcDumpBaseLo ≠ Reg.pmcSnapCfg by decide), rd _ (show Reg.pmcDumpBaseHi ≠ Reg.pmcSnapCfg by decide),
    rd _ (show Reg.pmcDrops ≠ Reg.pmcSnapCfg by decide)] using h

/-! ## The two writes -/

theorem get_erase_self {β : Type} (d : Nat → β) (m : SMap β) (k : Nat) : SMap.get d (SMap.erase m k) k = d k := by
  unfold SMap.get SMap.erase
  rw [lookup_filter_self]

theorem get_erase_ne {β : Type} (d : Nat → β) (m : SMap β) {k j : Nat} (other : j ≠ k) : SMap.get d (SMap.erase m k) j = SMap.get d m j := by
  unfold SMap.get SMap.erase
  rw [lookup_filter_ne _ _ _ other]


/-- No lead conveys a write of the recorder's block. -/
theorem conveyed_recorder {off : Nat} (h : off / 0x100000 = 15) : conveyed off = false := by
  simp only [conveyed, h]

/-- The state that a write of PMC_SNAP_CFG leaves before the snapshot it asks for. -/
def State.snapCfgSet (s : State) (v : Word) : State :=
  (if s.flg Reg.pmcSnapCfg 31 then s else { s with led := { s.led with snapAt := s.now } }).wr Reg.pmcSnapCfg
    (setBits (v &&& 0xC0000000#32) 15 0 (clamp 10 60000 (bits v 15 0)))

theorem snapCfgEffect_eq (s : State) (v : Word) :
    s.snapCfgEffect v = if bit v 29 then (s.snapCfgSet v).snapshot false else s.snapCfgSet v := rfl

theorem exec_counterSnap {s : State} {p : Path} (v : Word) (h : s.Reaches p Reg.pmcSnapCfg) :
    exec (.counterSnap p v) s = .next ((s.disarm 15).snapCfgEffect v) :=
  congrArg Host.Outcome.next (hostWrite_of_reaches v _ h (conveyed_recorder rfl))

/-- Besides the register, a write of PMC_SNAP_CFG without SNAP starts the period where it was off. -/
theorem snapCfgSet_disarm_eq (s : State) (v : Word) : (s.disarm 15).snapCfgSet v = { s with
    regs := ((s.disarm 15).snapCfgSet v).regs, armed := ((s.disarm 15).snapCfgSet v).armed
    led := { s.led with snapAt := if s.flg Reg.pmcSnapCfg 31 = true then s.led.snapAt else s.now } } := by
  by_cases on : s.flg Reg.pmcSnapCfg 31 = true
  · have kept : (s.disarm 15).snapCfgSet v = (s.disarm 15).wr Reg.pmcSnapCfg _ := congrArg (State.wr · _ _) (if_pos on)
    rw [kept, if_pos on]
    rfl
  · have set : (s.disarm 15).snapCfgSet v = State.wr { s.disarm 15 with led := { s.led with snapAt := s.now } } Reg.pmcSnapCfg _ :=
      congrArg (State.wr · _ _) (if_neg on)
    rw [set, if_neg on]
    rfl

theorem snapCfgSet_rd (s : State) (v : Word) {k : Nat} (other : k ≠ Reg.pmcSnapCfg) : (s.snapCfgSet v).rd k = s.rd k := by
  unfold State.snapCfgSet
  rw [rd_wr_ne _ _ _ _ other]
  split <;> rfl

theorem snapCfgSet_snapped {s : State} (awake : s.ctl.mode ≠ .sentry) (v : Word) :
    s.Snapped (((s.disarm 15).snapCfgSet v).snapshot false) := by
  have set := snapCfgSet_disarm_eq s v
  have awake' : ((s.disarm 15).snapCfgSet v).ctl.mode ≠ .sentry := by
    rw [congrArg State.ctl set]
    exact awake
  have cnt := congrArg State.cnt set
  have hif := congrArg State.hif set
  have led := congrArg State.led set
  exact snapped_of_cfg (fun _ other => snapCfgSet_rd (s.disarm 15) v other) cnt hif _ led (snapshot_snapped awake' false)

/-! ## The period -/

/-- The state in which the last periodic snapshot was at a given ns. -/
def State.snappedAt (s : State) (at_ : Nat) : State := { s with led := { s.led with snapAt := at_ } }

theorem snappedAt_snapped {s : State} (awake : s.ctl.mode ≠ .sentry) (at_ : Nat) (p : Bool) : s.Snapped ((s.snappedAt at_).snapshot p) := by
  have led : (s.snappedAt at_).led = { s.led with snapAt := at_ } := rfl
  exact snapped_of_cfg (u := s.snappedAt at_) (fun _ _ => rfl) rfl rfl at_ led (snapshot_snapped (s := s.snappedAt at_) awake p)

/-- The ns at which the next periodic snapshot is due. -/
def State.snapDue (s : State) : Nat := s.led.snapAt + clamp 10 60000 (s.fld Reg.pmcSnapCfg 15 0) * 1000000

theorem exec_periodicSnap (s : State) : exec .periodicSnap s =
    .next (if s.flg Reg.pmcSnapCfg 31 = true ∧ s.snapDue ≤ s.now then (s.snappedAt s.snapDue).snapshot true else s) := by
  refine congrArg Host.Outcome.next ?_
  simp only [Bool.and_eq_true, decide_eq_true_eq]
  rfl

theorem snapCfgEffect_snapCfg (s : State) (v : Word) : (s.snapCfgEffect v).rd Reg.pmcSnapCfg =
    setBits (v &&& 0xC0000000#32) 15 0 (clamp 10 60000 (bits v 15 0)) := by
  have set : (s.snapCfgSet v).rd Reg.pmcSnapCfg = setBits (v &&& 0xC0000000#32) 15 0 (clamp 10 60000 (bits v 15 0)) := rd_wr_self ..
  rw [snapCfgEffect_eq]
  split
  · exact (snapshot_snapCfg ..).trans set
  · exact set

theorem clamp_period_lt (v : Nat) : clamp 10 60000 v < 2 ^ 16 := by
  unfold clamp
  split
  · omega
  · split <;> omega

theorem bit_top_flags (v : Word) {b : Nat} (top : b = 30 ∨ b = 31) : bit (v &&& 0xC0000000#32) b = bit v b := by
  unfold bit
  rw [BitVec.getLsbD_and]
  obtain rfl | rfl := top
  · rw [show BitVec.getLsbD 0xC0000000#32 30 = true by decide, Bool.and_true]
  · rw [show BitVec.getLsbD 0xC0000000#32 31 = true by decide, Bool.and_true]

theorem exec_fuCfgWrite {s : State} {p : Path} {k : Fin 256} (v : Word) (h : s.Reaches p (Reg.pmcFuCfg k)) :
    exec (.fuCfgWrite p k v) s = .next ((s.disarm 15).fuCfgEffect k v) := by
  have block : Reg.pmcFuCfg k / 0x100000 = 15 := by
    have := k.isLt
    unfold Reg.pmcFuCfg
    omega
  refine congrArg Host.Outcome.next ((hostWrite_of_reaches v _ h (conveyed_recorder block)).trans ?_)
  rw [block]

end Sys2Proof.Machine

open Sys2Proof Sys2Proof.Machine

/-- Settles O60, by what a snapshot's dump and its 256 samples do, one after another. -/
theorem countersAreSnapped : Obligations.CountersAreSnapped := by
  unfold Obligations.CountersAreSnapped
  refine ⟨fun p v s reaches => ?_, fun s d due => ⟨fun early => ?_, fun on late awake => ?_⟩, fun p v s reaches snap => ?_,
    fun p k v s reaches => ?_⟩
  · refine ⟨_, exec_counterSnap v reaches, ?_, ?_, ?_, fun noSnap => ?_⟩
    · rw [State.fld, snapCfgEffect_snapCfg]
      exact bits_setBits _ _ _ _ (by decide) (by decide) (clamp_period_lt _)
    · rw [State.flg, snapCfgEffect_snapCfg, bit_setBits_out _ _ _ _ _ (.inl (by decide)) (by decide)]
      exact bit_top_flags v (.inr rfl)
    · rw [State.flg, snapCfgEffect_snapCfg, bit_setBits_out _ _ _ _ _ (.inl (by decide)) (by decide)]
      exact bit_top_flags v (.inl rfl)
    · rw [snapCfgEffect_eq, if_neg (by rw [noSnap]; decide)]
      exact snapCfgSet_disarm_eq s v
  · obtain rfl : d = s.snapDue := due
    rw [exec_periodicSnap, if_neg]
    rintro ⟨on, late⟩
    obtain off | before := early
    · rw [off] at on
      cases on
    · omega
  · obtain rfl : d = s.snapDue := due
    have run := exec_periodicSnap s
    rw [if_pos ⟨on, late⟩] at run
    exact ⟨_, run, snappedAt_snapped awake _ _, snapshot_snapAt ..⟩
  · refine ⟨_, exec_counterSnap v reaches, ?_⟩
    rw [snapCfgEffect_eq, if_pos snap]
    exact snapCfgSet_snapped (resp_mode reaches.2.1) v
  · refine ⟨_, exec_fuCfgWrite v reaches, rd_wr_self .., fun x other => rd_wr_ne _ _ _ _ other, ?_, ?_, fun j matches_ bytes => ?_, rfl⟩
    · exact (get_erase_ne _ _ (Nat.ne_of_lt (Nat.lt_succ_self _))).trans (get_erase_self ..)
    · exact get_erase_self ..
    · exact (get_erase_ne _ _ bytes).trans (get_erase_ne _ _ matches_)
end

section
/-! What cells on the Dithal link and stores in a queue with room leave, with the events that either records (R121, R124, R418 to R420). -/

namespace Sys2Proof.Machine

open Sys2Proof

/-- From s to t events were recorded, cells sent to the twin, and stores requested or started: of each part that this touches only what
it writes has changed. -/
structure Told (s t : State) : Prop where
  touches : Touches Part.asked s t
  rd : ∀ k, ¬RecordKey k → t.rd k = s.rd k
  count : ∀ k, ¬RecordKey k → t.count k = s.count k
  yok : ∃ n u q w, t.yok = { s.yok with suspect := n, unacked := u, nextSeq := q, txWait := w }
  out : ∃ os, t.out = s.out ++ os

namespace Told

theorem refl (s : State) : Told s s :=
  ⟨.rfl' _ s, fun _ _ => rfl, fun _ _ => rfl, ⟨_, _, _, _, rfl⟩, ⟨[], (List.append_nil _).symm⟩⟩

theorem trans {s t u : State} (h : Told s t) (k : Told t u) : Told s u := by
  obtain ⟨_, _, _, _, yok⟩ := h.yok
  obtain ⟨n, c, q, w, yok'⟩ := k.yok
  obtain ⟨os, out⟩ := h.out
  obtain ⟨ps, out'⟩ := k.out
  exact ⟨h.touches.trans k.touches, fun i x => (k.rd i x).trans (h.rd i x), fun i x => (k.count i x).trans (h.count i x),
    ⟨n, c, q, w, by rw [yok', yok]⟩, ⟨os ++ ps, by rw [out', out, List.append_assoc]⟩⟩

theorem ite {s a b : State} {c : Prop} [Decidable c] (h : Told s a) (k : Told s b) : Told s (if c then a else b) := by
  split <;> assumption

theorem foldl {α : Type} {f : State → α → State} (l : List α) (s : State) (h : ∀ x a, Told x (f x a)) : Told s (l.foldl f s) := by
  induction l generalizing s with
  | nil => exact refl s
  | cons a l ih => exact (h s a).trans (ih (f s a))

theorem of_recorded {s t : State} (h : Recorded s t) : Told s t := by
  obtain ⟨n, yok⟩ := h.yok
  exact ⟨h.touches.mono (by decide), h.rd, h.count, ⟨n, _, _, _, yok⟩, h.out⟩

theorem note (s : State) (e : EvKind) (ps : List Byte) : Told s (s.note e ps) := of_recorded (.note ..)

/-! ## Cells -/

theorem setQueues (s : State) (u : List DCell) (q : Nat) (w : List (Nat × List Byte)) :
    Told s { s with yok := { s.yok with unacked := u, nextSeq := q, txWait := w } } :=
  ⟨.set_yok (.rfl' _ s) (by decide), fun _ _ => rfl, fun _ _ => rfl, ⟨_, _, _, _, rfl⟩, ⟨[], (List.append_nil _).symm⟩⟩

theorem emit (s : State) (o : Output) : Told s (s.emit o) := of_recorded (.emit ..)

theorem emitCell (s : State) (kind : Nat) (c : DCell) : Told s (s.emitCell kind c) := ite (refl s) (emit ..)

theorem fillCells (s : State) (n : Nat) : Told s (s.fillCells n) := by
  induction n generalizing s with
  | zero => exact refl s
  | succ n ih =>
    unfold State.fillCells
    refine ite (refl s) ?_
    split
    · exact refl s
    · exact ((setQueues ..).trans (emitCell ..)).trans (ih _)

theorem sendDithal (s : State) (channel : Nat) (bs : List Byte) : Told s (s.sendDithal channel bs) := by
  unfold State.sendDithal
  extract_lets parts sent
  exact ite (((emit ..).trans (setQueues sent _ _ _)).trans (fillCells ..)) (refl s)

theorem convey (s : State) (type : Nat) (content : List Byte) : Told s (s.convey type content) := ite (sendDithal ..) (refl s)

theorem report (s : State) (type : Nat) (content : List Byte) : Told s (s.report type content) := ite (sendDithal ..) (refl s)

theorem reportMode (s : State) (m : Mode) : Told s (s.reportMode m) := report ..

theorem reportState (s : State) : Told s s.reportState := report ..

/-! ## Stores -/

theorem setStores (s : State) (st : Stores) : Told s { s with st := st } :=
  ⟨.set_st (.rfl' _ s) (by decide), fun _ _ => rfl, fun _ _ => rfl, ⟨_, _, _, _, rfl⟩, ⟨[], (List.append_nil _).symm⟩⟩

theorem wr (s : State) {k : Nat} (v : Word) (own : RecordKey k) : Told s (s.wr k v) := of_recorded (.wr s v own)

theorem defer (s : State) (r : StoreReq) : Told s (s.defer r) := by
  unfold State.defer
  exact ite (refl s) (((setStores ..).trans (wr (k := Reg.stwStoreDeferrals) _ _ (by decide))).trans (note ..))

theorem tryMram (s : State) (r : StoreReq) : Told s (s.tryMram r) := by
  unfold State.tryMram
  split
  · exact refl s
  · exact ite (setStores ..) (defer ..)

theorem startMram (s : State) : Told s s.startMram := by
  unfold State.startMram
  refine ite (refl s) (ite (foldl _ s tryMram) ?_)
  split
  · exact refl s
  · exact tryMram ..

theorem startNor (s : State) : Told s s.startNor := by
  unfold State.startNor
  split
  · exact refl s
  · split
    · exact refl s
    · exact ite (setStores ..) (defer ..)

theorem startStores (s : State) : Told s s.startStores := (startMram s).trans (startNor _)

theorem requestStore {s : State} (r : StoreReq) (room : s.st.queue.length < storeCap) : Told s (s.requestStore r).1 := by
  rw [requestStore_of_room r room]
  exact (setStores ..).trans (startStores _)

theorem storeStale {s : State} (b : Bool) (room : s.st.queue.length < storeCap) : Told s (s.storeStale b) :=
  ite (refl s) (requestStore _ room)

/-! ## What follows -/

theorem ctl {s t : State} (h : Told s t) : t.ctl = s.ctl := h.touches.ctl (by decide)

theorem fld {s t : State} (h : Told s t) {k : Nat} (other : ¬RecordKey k) (hi lo : Nat) : t.fld k hi lo = s.fld k hi lo :=
  congrArg (bits · hi lo) (h.rd k other)

theorem flg {s t : State} (h : Told s t) {k : Nat} (other : ¬RecordKey k) (b : Nat) : t.flg k b = s.flg k b :=
  congrArg (bit · b) (h.rd k other)

theorem mem_out {s t : State} (h : Told s t) {o : Output} (mem : o ∈ s.out) : o ∈ t.out := by
  obtain ⟨os, out⟩ := h.out
  rw [out]
  exact List.mem_append_left _ mem

end Told

end Sys2Proof.Machine
end

section
/-! Pairing (R413 to R417) and the Dithal link (R418 to R420, R423). -/

namespace Sys2Proof.Machine

open Sys2Proof

/-! ## A change of mode and the Yoke -/

theorem setMode_yok (s : State) (m : Mode) :
    ∃ n u q w, (s.setMode m).yok = { s.yok with suspect := n, unacked := u, nextSeq := q, txWait := w } := by
  unfold State.setMode
  extract_lets old told control changed
  split
  · exact ⟨_, _, _, _, rfl⟩
  · have reported : Told s told := Told.ite (Told.refl s) (Told.reportMode ..)
    obtain ⟨_, u, q, w, yok⟩ := reported.yok
    obtain ⟨n, recorded⟩ := (Recorded.note changed Ev.modeChange (beBytes 1 old.code ++ beBytes 1 m.code)).yok
    exact ⟨n, u, q, w, by rw [recorded]; show { told.yok with suspect := n } = _; rw [yok]⟩

/-! ## The pairing message (R414 to R416) -/

theorem execPairingMessage_waits {s : State} (none_ : s.yok.pairing = none) (paired : s.loneLead = false) (m : List Byte) :
    ∃ held, exec (.pairingMessage m) s = .next { s with held := held ++ [.pairingMessage m] } := by
  show ∃ held, execPairingMessage m s = _
  unfold execPairingMessage
  rw [none_, paired]
  exact ⟨_, rfl⟩

theorem execPairingMessage_takes {s : State} {x : Pairing} (pairing : s.yok.pairing = some x) (m : List Byte) :
    exec (.pairingMessage m) s = .next (s.takePairMessage x m) := by
  show execPairingMessage m s = _
  unfold execPairingMessage
  rw [pairing]

theorem endModeCmd_yok (s : State) (code : Nat) : ∃ p, (s.endModeCmd code).yok = { s.yok with pairing := p } ∧ (s.yok.pairing = none → p = none) := by
  unfold State.endModeCmd
  split
  · exact ⟨_, rfl, id⟩
  · extract_lets src ended
    have yok : ∃ p, ended.yok = { s.yok with pairing := p } ∧ (s.yok.pairing = none → p = none) := by
      unfold ended
      split
      · exact ⟨none, rfl, fun _ => rfl⟩
      · exact ⟨_, rfl, id⟩
    exact yok

/-- Pairing that fails ends, and what ends with it leaves the Yoke's other state, the slots and the events alone. -/
theorem pairFail_ends {s : State} (awake : s.ctl.mode ≠ .sentry) (code : Nat) : (s.pairFail code).yok.pairing = none ∧
    (s.pairFail code).yok.pairCode = code ∧ (s.pairFail code).kvt.slots = s.kvt.slots ∧
    (s.pairFail code).events Ev.yokePairFail = satAdd (2 ^ 48 - 1) (s.events Ev.yokePairFail) 1 := by
  unfold State.pairFail
  extract_lets src ended noted
  obtain ⟨n, yok⟩ : ∃ n, noted.yok = { ended.yok with suspect := n } := (Recorded.note ..).yok
  have kvt : noted.kvt = s.kvt := (State.note_touches ..).kvt (by decide)
  have events : noted.events Ev.yokePairFail = satAdd (2 ^ 48 - 1) (s.events Ev.yokePairFail) 1 :=
    note_events ended Ev.yokePairFail _ _ awake (by decide) (by decide)
  have pairing : noted.yok.pairing = none := by rw [yok]
  split
  · obtain ⟨p, yok', gone⟩ := endModeCmd_yok noted 5
    refine ⟨by rw [yok']; exact gone pairing, by rw [yok', yok], ?_, ?_⟩
    · rw [(State.endModeCmd_touches ..).kvt (by decide), kvt]
    · rw [events_of_led ((State.endModeCmd_touches ..).led (by decide)), events]
  · exact ⟨pairing, by rw [yok], by rw [kvt], events⟩

theorem pairAccept_of_initiator {s : State} {x : Pairing} (initiator : x.initiator = true) {m z : List Byte}
    (agreed : Config.ecdh x.ecdhSeed (slice m 56 97) = some z) :
    s.pairAccept x m = s.pairKeyed { x with peer := m, hr := Config.sha384 (slice x.own 0 3776 ++ slice m 0 3776) }
      (pairKeyOf (slice z 0 48) (slice (Config.mlkemDecap x.kemSeed (slice m 156 1568)) 0 32)
        (Config.sha384 (slice x.own 0 3776 ++ slice m 0 3776))) := by
  unfold State.pairAccept
  rw [agreed]
  exact if_pos initiator

theorem pairKeyed_yok (s : State) (x : Pairing) (key : List Byte) :
    (s.pairKeyed x key).yok.pairing = some { x with key := key, ecdhSeed := [], kemSeed := [] } ∧
    (s.pairKeyed x key).yok.twinMode = ofBe (slice x.peer 5 1) := by
  unfold State.pairKeyed
  extract_lets src begun
  obtain ⟨n, u, q, w, sent⟩ := (Told.sendDithal (begun.installKey pairKeySlot key pairAttr) 2 (confirmOf key (flag (!x.initiator)))).yok
  have installed : (begun.installKey pairKeySlot key pairAttr).yok = begun.yok := (State.installKey_touches ..).yok (by decide)
  rw [sent, installed]
  exact ⟨rfl, rfl⟩

theorem pairKeyed_hasKey (s : State) (x : Pairing) (key : List Byte) : ∃ k, s.HasKey (s.pairKeyed x key) pairKeySlot k := by
  unfold State.pairKeyed
  extract_lets src begun
  have sent : ((begun.installKey pairKeySlot key pairAttr).sendDithal 2 (confirmOf key (flag (!x.initiator)))).kvt.slots =
      (begun.installKey pairKeySlot key pairAttr).kvt.slots := by rw [(State.sendDithal_touches ..).kvt (by decide)]
  obtain ⟨loaded, usable, others⟩ := (installKey_hasKey begun pairKeySlot key pairAttr).of_slots sent
  exact ⟨_, loaded, usable, others⟩

/-! ## CONFIRM (R416, R417) -/

theorem execPairConfirm_pairs {s : State} {x : Pairing} (pairing : s.yok.pairing = some x) (keyed : x.key ≠ []) :
    exec (.pairConfirm (confirmOf x.key (flag x.initiator))) s = .next s.pairDone := by
  show execPairConfirm _ s = _
  unfold execPairConfirm
  rw [pairing]
  exact (if_neg keyed).trans (if_pos rfl)

theorem execPairConfirm_early {s : State} {x : Pairing} (pairing : s.yok.pairing = some x) (early : x.key = []) (c : List Byte) :
    exec (.pairConfirm c) s = .next s := by
  show execPairConfirm c s = _
  unfold execPairConfirm
  rw [pairing]
  exact if_pos early

theorem yokeJoined_of_idle {s : State} (idle : s.ctl.cmd = none) : s.yokeJoined = { s with ctl := { s.ctl with autoOn := false } } := by
  unfold State.yokeJoined
  exact if_neg (by rw [idle]; decide)

/-- Pairing complete, before the role is taken. -/
def State.pairNoted (s : State) (role : Mode) : State :=
  State.note { s with yok := { s.yok with pairing := none, pairCode := 1, paired := true } } Ev.yokePaired (beBytes 1 role.code)

theorem pairNoted_yok (s : State) (role : Mode) :
    ∃ n, (s.pairNoted role).yok = { s.yok with pairing := none, pairCode := 1, paired := true, suspect := n } := (Recorded.note ..).yok

theorem pairNoted_ctl (s : State) (role : Mode) : (s.pairNoted role).ctl = s.ctl := note_ctl ..

theorem pairDone_of_lead {s : State} (lead : s.ctl.mode = .yokeLead) :
    s.pairDone = (State.startStream { s.pairNoted .yokeLead with yok := { (s.pairNoted .yokeLead).yok with twinLost := false } }).yokeJoined := by
  unfold State.pairDone
  rw [lead]
  rfl

theorem pairDone_of_service {s : State} (service : s.ctl.mode = .service) (ready : s.yok.twinMode = 4) :
    s.pairDone = ((s.pairNoted .yokeLead).becomeLead.startStream).yokeJoined := by
  have role : roleOf s.ctl.mode s.yok.twinMode s.pow.yokePos = .lead := by
    rw [service, ready]
    rfl
  unfold State.pairDone
  rw [role]
  rfl

/-- The lead with its intake open and its outputs its own, before STALE is cleared. -/
def State.leading (s : State) : State :=
  { s.setMode .yokeLead with
    ctl := { (s.setMode .yokeLead).ctl with intake := true }
    yok := { (s.setMode .yokeLead).yok with muted := false, twinLost := false, step := 0, locked := false, bMute := none, bHand := none } }

theorem becomeLead_eq (s : State) : s.becomeLead = (s.leading.storeStale false).holdYoke false := rfl

theorem leading_st (s : State) : s.leading.st = s.st := (State.setMode_touches ..).st (by decide)

/-- A module that becomes lead: its control state, and what the Yoke keeps (R417, R445). -/
theorem becomeLead_leads {s : State} (room : s.st.queue.length < storeCap) : s.becomeLead.ctl = { (s.setMode .yokeLead).ctl with intake := true } ∧
    ∃ n u q w, s.becomeLead.yok = { s.yok with
      suspect := n, unacked := u, nextSeq := q, txWait := w, muted := false, twinLost := false, step := 0, locked := false, bMute := none, bHand := none } := by
  have told : Told s.leading (s.leading.storeStale false) := .storeStale false (by rw [leading_st]; exact room)
  have hold := State.holdYoke_touches (s.leading.storeStale false) false
  obtain ⟨n, u, q, w, stored⟩ := told.yok
  obtain ⟨_, _, _, _, moved⟩ := setMode_yok s .yokeLead
  rw [becomeLead_eq, hold.ctl (by decide), hold.yok (by decide), told.ctl, stored]
  exact ⟨rfl, n, u, q, w, by unfold State.leading; rw [moved]⟩

/-! ## Lanes (R418) -/

theorem dithalCell_of_off {s : State} (off : s.dithalOn = false) (n : Fin 4) (b : List Byte) : exec (.dithalCellReceive n b) s = .next s :=
  if_pos off

/-- The lanes in use and the run of lane n. -/
def State.putLane (s : State) (n lanes run : Nat) : State :=
  { s with yok := { s.yok with lanes := lanes, laneRun := SMap.set zeroOf s.yok.laneRun n run } }

theorem laneCell_of_unlocked {s : State} {n : Nat} (unlocked : s.yok.lanes.testBit n = false) :
    s.laneCell n true = if 3 ≤ SMap.get zeroOf s.yok.laneRun n + 1 then s.putLane n (s.yok.lanes + 2 ^ n) 0
      else s.putLane n s.yok.lanes (SMap.get zeroOf s.yok.laneRun n + 1) := by
  unfold State.laneCell
  extract_lets y run put
  exact (if_neg (by rw [unlocked]; decide)).trans (if_pos rfl)

theorem laneCell_of_locked {s : State} {n : Nat} (locked : s.yok.lanes.testBit n = true) : s.laneCell n true = s.putLane n s.yok.lanes 0 := by
  unfold State.laneCell
  extract_lets y run put
  exact (if_pos locked).trans (if_pos rfl)

theorem putLane_laneRun (s : State) (n lanes run : Nat) : SMap.get zeroOf (s.putLane n lanes run).yok.laneRun n = run := SMap.get_set_self ..

/-- A cell that leaves the link down and the lanes not all in use. -/
theorem dithalCell_of_down {s : State} (on : s.dithalOn = true) (n : Fin 4) (b : List Byte) (was : s.yok.lanes ≠ 15)
    (stays : (s.laneCell n (DithalIn.of b).good).yok.lanes ≠ 15) :
    exec (.dithalCellReceive n b) s = .next (s.laneCell n (DithalIn.of b).good) :=
  (if_neg (by rw [on]; decide)).trans ((if_neg fun up => stays up.2).trans ((if_neg fun down => was down.1).trans (if_neg stays)))

theorem dithalCell_of_up {s : State} (on : s.dithalOn = true) (n : Fin 4) (b : List Byte) (was : s.yok.lanes = 15)
    (stays : (s.laneCell n (DithalIn.of b).good).yok.lanes = 15) :
    exec (.dithalCellReceive n b) s = .next ((s.laneCell n (DithalIn.of b).good).linkCell (DithalIn.of b)) :=
  (if_neg (by rw [on]; decide)).trans ((if_neg fun up => up.1 was).trans ((if_neg fun down => down.2 stays).trans (if_pos stays)))

/-! ## Acknowledgement and resending (R419, R420) -/

theorem fillCells_of_nothing {s : State} (none_ : s.yok.txWait = []) (n : Nat) : s.fillCells n = s := by
  cases n with
  | zero => rfl
  | succ n =>
    unfold State.fillCells
    rw [none_]
    exact ite_same rfl rfl

/-- An idle cell with no NAK, while nothing waits to be sent, only acknowledges. -/
theorem linkCell_of_idle {s : State} {c : DithalIn} (good : c.good = true) (idle : c.kind = 0) (ack : c.nak = false) (none_ : s.yok.txWait = []) :
    s.linkCell c = s.takeAck c.ack := by
  unfold State.linkCell
  rw [if_neg (by rw [good]; decide)]
  simp only [ack, idle, Bool.false_eq_true, false_and, if_false, Nat.zero_ne_one]
  exact fillCells_of_nothing (s := s.takeAck c.ack) none_ 512

theorem takeAck_unacked (s : State) (ack : Nat) : (s.takeAck ack).yok.unacked =
    s.yok.unacked.filter (fun c => decide (0x800000 ≤ (ack + 0x1000000 - c.seq) % 0x1000000)) := by
  show s.yok.unacked.filter _ = _
  congr 1
  funext c
  rw [← decide_not]
  exact decide_eq_decide.mpr Nat.not_lt

/-- A cell is sent once more. -/
def DCell.again (c : DCell) (now : Nat) : DCell := { c with sends := c.sends + 1, sentAt := now }

theorem resend_keeps (s : State) : s.resend.yok = { s.yok with unacked := s.yok.unacked.map (·.again s.now) } ∧
    s.resend.count (Reg.yokCountLo 5) = s.count (Reg.yokCountLo 5) + s.yok.unacked.length := by
  unfold State.resend
  extract_lets cs src sending
  have sent : Touches [.out] sending (cs.foldl (fun s c => s.emitCell 1 c) sending) :=
    Touches.foldl _ _ (.rfl' _ _) fun _ _ h => .chain (State.emitCell_touches ..) (by decide) h
  refine ⟨sent.yok (by decide), ?_⟩
  refine (SMap.get_set_self ..).trans ?_
  rw [count_of_cnt (sent.cnt (by decide)), List.length_map]
  rfl

theorem dithalResend_waits {s : State} (young : ∀ c, s.yok.unacked.head? = some c → s.now < c.sentAt + 2000) :
    exec .dithalResendTimeout s = .next s := by
  show execDithalResendTimeout s = _
  unfold execDithalResendTimeout
  cases waiting : s.yok.unacked with
  | nil => rfl
  | cons c cs => exact congrArg Host.Outcome.next (if_pos (young c (by rw [waiting]; rfl)))

theorem dithalResend_resends {s : State} (some_ : s.yok.unacked ≠ []) (old : ∀ c, s.yok.unacked.head? = some c → c.sentAt + 2000 ≤ s.now)
    (few : ∀ c ∈ s.yok.unacked, c.sends < 4) : exec .dithalResendTimeout s = .next s.resend := by
  have again : s.resendOrDown = s.resend := by
    refine if_neg fun many => ?_
    obtain ⟨c, mem, worn⟩ := List.any_eq_true.mp many
    exact absurd (few c mem) (Nat.not_lt.mpr (of_decide_eq_true worn))
  show execDithalResendTimeout s = _
  unfold execDithalResendTimeout
  cases waiting : s.yok.unacked with
  | nil => exact absurd waiting some_
  | cons c cs => exact congrArg Host.Outcome.next ((if_neg (Nat.not_lt.mpr (old c (by rw [waiting]; rfl)))).trans again)

/-! ## The recovered clock (R423) -/

theorem yokeLockLost_of_resync {s : State} (resync : s.ctl.mode = .yokeResync) (locked : s.yok.locked = true) :
    exec .yokeLockLost s = .next (State.note { s with yok := { s.yok with locked := false } } Ev.yokeLockLost) := by
  have follows : s.isFollower = true := by
    unfold State.isFollower
    rw [resync]
    rfl
  refine (if_pos ⟨follows, locked⟩).trans (congrArg Host.Outcome.next (if_neg ?_))
  rw [note_ctl]
  show s.ctl.mode ≠ _
  rw [resync]
  decide

end Sys2Proof.Machine

open Sys2Proof Sys2Proof.Machine

/-- Settles O46, by what a pairing message, CONFIRM, a cell of the link and its resend limit do one by one. -/
theorem twinsPairAndLink : Obligations.TwinsPairAndLink := by
  unfold Obligations.TwinsPairAndLink
  refine ⟨fun m s none_ paired => ?_, fun m s x pairing initiator awake => ?_, fun s x pairing => ⟨fun keyed idle lead => ?_,
    fun keyed idle service ready room => ?_, fun early c => execPairConfirm_early pairing early c⟩,
    fun n b s off => dithalCell_of_off off n b, fun n b s on good => ⟨fun unlocked few part => ?_, fun unlocked third part => ?_,
    fun up kind nak none_ => ?_⟩, fun s => ⟨dithalResend_waits, fun some_ old few => ?_⟩, fun s => rfl, fun s => ⟨fun free => ?_, fun resync locked => ?_⟩⟩
  · obtain ⟨held, run⟩ := execPairingMessage_waits none_ paired m
    exact ⟨_, run, List.mem_append_right _ (List.mem_singleton.mpr rfl), rfl⟩
  · refine ⟨_, execPairingMessage_takes pairing m, fun refused => ?_, fun accepted z agreed => ?_⟩
    · rw [show s.takePairMessage x m = s.pairFail (s.peerCode x m) from if_neg refused]
      exact pairFail_ends awake _
    · rw [show s.takePairMessage x m = s.pairAccept x m from if_pos accepted, pairAccept_of_initiator initiator agreed]
      obtain ⟨k, loaded⟩ := pairKeyed_hasKey s { x with peer := m, hr := Config.sha384 (slice x.own 0 3776 ++ slice m 0 3776) } (pairKeyOf (slice z 0 48)
        (slice (Config.mlkemDecap x.kemSeed (slice m 156 1568)) 0 32) (Config.sha384 (slice x.own 0 3776 ++ slice m 0 3776)))
      obtain ⟨pairing, twin⟩ := pairKeyed_yok s { x with peer := m, hr := Config.sha384 (slice x.own 0 3776 ++ slice m 0 3776) } (pairKeyOf (slice z 0 48)
        (slice (Config.mlkemDecap x.kemSeed (slice m 156 1568)) 0 32) (Config.sha384 (slice x.own 0 3776 ++ slice m 0 3776)))
      exact ⟨loaded.usable, loaded.others, twin, _, pairing, rfl, rfl, rfl, rfl⟩
  · have awake : s.ctl.mode ≠ .sentry := by rw [lead]; decide
    obtain ⟨n, yok⟩ := pairNoted_yok s .yokeLead
    have ctl := pairNoted_ctl s .yokeLead
    have events : (s.pairNoted .yokeLead).events Ev.yokePaired = satAdd (2 ^ 48 - 1) (s.events Ev.yokePaired) 1 :=
      note_events _ _ _ _ awake (by decide) (by decide)
    refine ⟨_, (execPairConfirm_pairs pairing keyed).trans (congrArg _ (pairDone_of_lead lead)), ?_⟩
    rw [yokeJoined_of_idle (by show (s.pairNoted .yokeLead).ctl.cmd = none; rw [ctl, idle])]
    unfold State.startStream
    exact ⟨congrArg Yok.paired yok, congrArg Yok.pairing yok, congrArg Yok.pairCode yok, rfl, (congrArg Control.mode ctl).trans lead, events⟩
  · have moves : s.ctl.mode ≠ .yokeLead := by rw [service]; decide
    obtain ⟨n, yok⟩ := pairNoted_yok s .yokeLead
    have ctl := pairNoted_ctl s .yokeLead
    have st : (s.pairNoted .yokeLead).st = s.st := (State.note_touches ..).st (by decide)
    obtain ⟨ctl', _, _, _, _, yok'⟩ := becomeLead_leads (s := s.pairNoted .yokeLead) (by rw [st]; have : _ + _ + 1 ≤ _ := room; omega)
    rw [setMode_ctl (by rw [ctl]; exact moves), ctl] at ctl'
    rw [yok] at yok'
    refine ⟨_, (execPairConfirm_pairs pairing keyed).trans (congrArg _ (pairDone_of_service service ready)), ?_⟩
    rw [yokeJoined_of_idle (by show (s.pairNoted .yokeLead).becomeLead.ctl.cmd = none; rw [ctl']; exact idle)]
    unfold State.startStream
    exact ⟨congrArg Yok.paired yok', congrArg Yok.pairing yok', congrArg Control.mode ctl', (congrArg Control.prevMode ctl').trans service,
      congrArg Control.intake ctl'⟩
  · have put := laneCell_of_unlocked unlocked
    rw [if_neg (by omega)] at put
    rw [dithalCell_of_down on n b part (by rw [good, put]; exact part), good, put]
    exact ⟨_, rfl, putLane_laneRun .., rfl, rfl⟩
  · have put := laneCell_of_unlocked unlocked
    rw [if_pos (by omega)] at put
    rw [dithalCell_of_down on n b (by have := Nat.two_pow_pos n.val; omega) (by rw [good, put]; exact Nat.ne_of_lt part), good, put]
    exact ⟨_, rfl, rfl, putLane_laneRun .., rfl⟩
  · have locked : s.yok.lanes.testBit n = true := by
      rw [up]
      revert n
      decide
    have put := laneCell_of_locked locked
    rw [dithalCell_of_up on n b up (by rw [good, put]; exact up), good, put, linkCell_of_idle (s := s.putLane n s.yok.lanes 0) good kind nak none_]
    exact ⟨_, rfl, up, takeAck_unacked .., rfl⟩
  · obtain ⟨yok, count⟩ := resend_keeps s
    exact ⟨_, dithalResend_resends some_ old few, (congrArg Yok.unacked yok :), count, (congrArg Yok.lanes yok :)⟩
  · refine if_neg fun ⟨follows, locked⟩ => ?_
    obtain alone | unlocked := free
    · rw [alone] at follows
      cases follows
    · rw [unlocked] at locked
      cases locked
  · obtain ⟨n, yok⟩ := (Recorded.note { s with yok := { s.yok with locked := false } } Ev.yokeLockLost []).yok
    exact ⟨_, yokeLockLost_of_resync resync locked, by rw [yok], note_ctl .., note_events _ _ _ _ (by show s.ctl.mode ≠ _; rw [resync]; decide) (by decide) (by decide)⟩
end

section
/-! PROMOTE at the end of the sheaf numbers (R153, R447): the mark that the new lead asks for lies above 2^48 − 1. -/

namespace Sys2Proof.Machine

open Sys2Proof

/-- A follower whose lead is silent, with YOK_CMD armed and the sheaf mark 2^48 − 1 durable. -/
def silentAtLastMark : State :=
  { State.reset with
    ctl := { Control.cold with mode := .yokeFollower }
    boot := { Boot.blank with image := some onePortImage }
    mram := { Mram.blank with sheafMark := 2 ^ 48 - 1 }
    yok := { Yok.reset with twinLost := true }
    armed := [11] }

/-- PROMOTE makes it lead, and SHEAF_MARK_STALL, an alarm of level 3, takes the lead to Recovery (R113). -/
theorem yokPromote_of_silentAtLastMark_recovers : nextMode (exec (.yokPromote .device) silentAtLastMark) = some .recovery := by
  decide +kernel

end Sys2Proof.Machine

open Sys2Proof Sys2Proof.Machine

/-- Refutes O50: no hypothesis on PROMOTE keeps the next sheaf mark within 48 bits. On a follower whose durable mark is 2^48 − 1 the promotion
stalls at once, and the module is in Recovery where the statement has it lead. -/
theorem not_twinsChangeRoles : ¬ Obligations.TwinsChangeRoles := by
  unfold Obligations.TwinsChangeRoles
  rintro ⟨-, -, commands, -⟩
  obtain ⟨-, promotes, -⟩ := commands .device silentAtLastMark (by decide) rfl
  obtain ⟨t, ht, lead, -⟩ := promotes rfl (by decide) rfl (by decide)
  have recovers := yokPromote_of_silentAtLastMark_recovers
  rw [ht] at recovers
  cases lead.symm.trans (Option.some.inj recovers)
end

section
/-! The reverse stream at the lead, and the ends of digest intervals and repairs (R428, R437 to R443, R449). -/

namespace Sys2Proof.Machine

open Sys2Proof

/-! ## The gate of the reverse stream (R428) -/

theorem reverse_of_notLead {s : State} (other : s.ctl.mode ≠ .yokeLead) (ok : Bool) (act : State → State) : s.reverse ok act = s :=
  if_neg fun h => other h.1

theorem reverse_of_lead {s : State} (lead : s.ctl.mode = .yokeLead) {ok : Bool} (good : ok = true) (act : State → State) :
    s.reverse ok act = act (s.inc (Reg.yokCountLo 4)) := if_pos ⟨lead, good⟩

/-! ## Marks without the twin (R438) -/

/-- From s to t marks have taken effect: neither the mode, nor what the lead knows of its twin, nor the loss of a twin is touched. -/
structure KeepsTwin (s t : State) : Prop where
  ctl : t.ctl = s.ctl
  lost : t.yok.twinLost = s.yok.twinLost
  mode : t.yok.twinMode = s.yok.twinMode
  events : s.ctl.mode ≠ .sentry → t.events Ev.yokeTwinLost = s.events Ev.yokeTwinLost

namespace KeepsTwin

theorem refl (s : State) : KeepsTwin s s := ⟨rfl, rfl, rfl, fun _ => rfl⟩

theorem trans {s t u : State} (h : KeepsTwin s t) (k : KeepsTwin t u) : KeepsTwin s u :=
  ⟨k.ctl.trans h.ctl, k.lost.trans h.lost, k.mode.trans h.mode, fun awake => (k.events (by rw [h.ctl]; exact awake)).trans (h.events awake)⟩

theorem ite {s a b : State} {c : Prop} [Decidable c] (h : KeepsTwin s a) (k : KeepsTwin s b) : KeepsTwin s (if c then a else b) := by
  split <;> assumption

theorem foldl {α : Type} {f : State → α → State} (l : List α) (s : State) (h : ∀ x a, KeepsTwin x (f x a)) : KeepsTwin s (l.foldl f s) := by
  induction l generalizing s with
  | nil => exact refl s
  | cons a l ih => exact (h s a).trans (ih (f s a))

theorem of_touches {m : List Part} {s t : State} (h : Touches m s t) (ctl : Part.ctl ∉ m := by decide) (yok : Part.yok ∉ m := by decide)
    (led : Part.led ∉ m := by decide) : KeepsTwin s t :=
  ⟨h.ctl ctl, by rw [h.yok yok], by rw [h.yok yok], fun _ => events_of_led (h.led led) _⟩

theorem convey (s : State) (type : Nat) (content : List Byte) : KeepsTwin s (s.convey type content) := by
  have told := Told.convey s type content
  obtain ⟨_, _, _, _, yok⟩ := told.yok
  exact ⟨told.ctl, by rw [yok], by rw [yok], fun _ => events_of_led ((State.convey_touches ..).led (by decide)) _⟩

theorem noteFor (s : State) {e : EvKind} (n : Nat) (ps : List Byte) (other : Ev.yokeTwinLost.code ≠ e.code) : KeepsTwin s (s.noteFor e n ps) := by
  have recorded := Recorded.noteFor s e n ps
  obtain ⟨_, yok⟩ := recorded.yok
  exact ⟨recorded.touches.ctl (by decide), by rw [yok], by rw [yok],
    fun awake => (noteFor_events s e n ps _ awake (by decide) (by decide)).trans (if_neg other)⟩

theorem commitRotate (s : State) (a : Nat) : KeepsTwin s (s.commitRotate a) := by
  unfold State.commitRotate
  split
  · exact refl s
  split
  · exact refl s
  · extract_lets mark next rotated held conveyed
    have started : KeepsTwin s held := of_touches ((State.startHold_touches ..).chain (by decide) (State.setCtx_touches s a (some rotated)))
    exact (started.trans (convey ..)).trans (noteFor _ _ _ (by decide))

theorem txDurable (s : State) (a : Nat) (r : PnRec) : KeepsTwin s (s.txDurable a r) := by
  unfold State.txDurable
  split
  · exact refl s
  · exact ite (ite ((of_touches (State.setCtx_touches ..)).trans (commitRotate ..)) (of_touches (State.setCtx_touches ..)))
      (ite (ite ((of_touches (State.setCtx_touches ..)).trans (convey ..)) (of_touches (State.setCtx_touches ..))) (refl s))

theorem applyMark (s : State) (w : MarkWait) : KeepsTwin s (s.applyMark w) := by
  unfold State.applyMark
  refine ite (of_touches (State.sheafMarkInForce_touches ..)) ?_
  split
  · exact ite (txDurable ..) (of_touches (State.rxDurable_touches ..))
  · exact refl s

theorem settleMarks (s : State) : KeepsTwin s s.settleMarks := by
  unfold State.settleMarks
  extract_lets ws
  have cleared (marks : List MarkWait) : KeepsTwin s { s with yok := { s.yok with marks := marks } } := ⟨rfl, rfl, rfl, fun _ => rfl⟩
  exact (cleared _).trans (foldl _ _ applyMark)

end KeepsTwin

theorem twinGone_of_lead {s : State} (lead : s.ctl.mode = .yokeLead) (known : s.yok.twinLost = false) :
    s.twinGone.yok.twinLost = true ∧ s.twinGone.yok.twinMode = 0 ∧
    s.twinGone.events Ev.yokeTwinLost = satAdd (2 ^ 48 - 1) (s.events Ev.yokeTwinLost) 1 := by
  have settled := KeepsTwin.settleMarks { s with yok := { s.yok with twinLost := true, twinMode := 0 } }
  have gone : s.twinGone = (State.settleMarks { s with yok := { s.yok with twinLost := true, twinMode := 0 } }).note Ev.yokeTwinLost :=
    if_neg fun stays => stays.elim (fun other => other lead) fun lost => by rw [known] at lost; cases lost
  obtain ⟨_, yok⟩ := (Recorded.note (State.settleMarks { s with yok := { s.yok with twinLost := true, twinMode := 0 } }) Ev.yokeTwinLost []).yok
  have awake : s.ctl.mode ≠ .sentry := by rw [lead]; decide
  rw [gone, yok]
  refine ⟨settled.lost, settled.mode, ?_⟩
  refine (note_events _ _ _ _ (by rw [settled.ctl]; exact awake) (by decide) (by decide)).trans ?_
  rw [if_pos rfl, settled.events awake]
  rfl

theorem twinState_of_follower (s : State) (step : Nat) : s.twinState 7 step = { s with yok := { s.yok with twinMode := 7 } } := by
  simp [State.twinState]

/-! ## Acknowledged marks (R438) -/

/-- A mark that the twin's answer covers no longer waits for the twin. -/
def MarkWait.answered (w : MarkWait) (kind a m : Nat) : MarkWait :=
  if w.kind = kind ∧ w.assoc = a ∧ w.mark ≤ m then { w with acked := true } else w

theorem answered_stored (w : MarkWait) (kind a m : Nat) : (w.answered kind a m).stored = w.stored := by
  unfold MarkWait.answered
  split <;> rfl

/-- Marking what was not answered yet is marking all that the answer covers. -/
theorem answered_eq (w : MarkWait) (kind a m : Nat) :
    (if (w.kind == kind && w.assoc == a && decide (w.mark ≤ m) && !w.acked) = true then { w with acked := true } else w) = w.answered kind a m := by
  unfold MarkWait.answered
  cases acked : w.acked with
  | false => simp [and_assoc]
  | true =>
    have same : { w with acked := true } = w := by rw [← acked]
    simp [same]

theorem ackMark_of_unstored {s : State} (unstored : ∀ w ∈ s.yok.marks, w.stored = false) (kind a m : Nat) :
    (s.ackMark kind a m).yok.marks = s.yok.marks.map (·.answered kind a m) := by
  unfold State.ackMark
  extract_lets hit due src marked
  have none_ : due = [] := List.filter_eq_nil_iff.mpr fun w mem => by simp [unstored w mem]
  have marks : marked.yok.marks = s.yok.marks.map (·.answered kind a m) := List.map_congr_left fun w _ => answered_eq w kind a m
  have waiting : marked.yok.marks.filter (fun w => w.stored && w.acked) = [] := by
    refine List.filter_eq_nil_iff.mpr fun w mem => ?_
    rw [marks] at mem
    obtain ⟨x, old, rfl⟩ := List.mem_map.mp mem
    simp [answered_stored, unstored x old]
  rw [none_]
  unfold State.dropMarks
  extract_lets ready reported
  have kept : reported = marked := by
    show List.foldl _ marked (marked.yok.marks.filter _) = _
    rw [waiting]
    rfl
  show reported.yok.marks.filter (fun w => !ready w) = _
  rw [kept, marks]
  refine List.filter_eq_self.mpr fun w mem => ?_
  obtain ⟨x, old, rfl⟩ := List.mem_map.mp mem
  simp [ready, answered_stored, unstored x old]

/-! ## Defects (R439) -/

/-- The hold-off that a defect of the twin starts or ends is the pairs' own. -/
theorem holdoffFollows_pairs (s : State) (g : Nat) (sf sd : Bool) : ∃ pairs, s.holdoffFollows g sf sd = { s with rows := { s.rows with pairs := pairs } } := by
  unfold State.holdoffFollows State.startHoldoff State.stopHoldoff
  split
  · split
    · exact ⟨_, rfl⟩
    · split <;> exact ⟨_, rfl⟩
  · split
    · split <;> exact ⟨_, rfl⟩
    · exact ⟨_, rfl⟩

theorem takeDefects_rows (s : State) (sf sd : Nat) :
    ∃ pairs, (s.takeDefects sf sd).rows = { s.rows with twinSf := sf, twinSd := sd, pairs := pairs } := by
  have follows (l : List (Nat × Bool × Bool)) (x : State) :
      ∃ pairs, (l.foldl (fun s x => s.holdoffFollows x.1 x.2.1 x.2.2) x).rows = { x.rows with pairs := pairs } := by
    induction l generalizing x with
    | nil => exact ⟨_, rfl⟩
    | cons y l ih =>
      obtain ⟨_, step⟩ := holdoffFollows_pairs x y.1 y.2.1 y.2.2
      obtain ⟨pairs, rest⟩ := ih (x.holdoffFollows y.1 y.2.1 y.2.2)
      exact ⟨pairs, by rw [List.foldl_cons, rest, step]⟩
  exact follows _ _

/-! ## Digests and repairs (R437, R442) -/

theorem compareDigests_of_same {s : State} {x : Interval} {item : List Byte}
    (same : ∀ e < 560, SMap.get zeroOf x.digest e = itemAt item (78 + 8 * e) 8) : s.compareDigests x item =
      State.incBy { s with yok := { s.yok with past := s.yok.past.filter (fun y => y.no != x.no) } } (Reg.yokCountLo 7) 0 := by
  have agree : (List.range 560).filter (fun e => SMap.get zeroOf x.digest e != itemAt item (78 + 8 * e) 8) = [] :=
    List.filter_eq_nil_iff.mpr fun e mem => by simp [same e (List.mem_range.mp mem)]
  unfold State.compareDigests
  rw [agree]
  rfl

theorem altWrite_same (s : State) (i j : Nat) : (s.altWrite i (s.altAt i)).altAt j = s.altAt j := by
  unfold State.altWrite
  extract_lets src written
  have cls : (written.convey 0x04 (beBytes 4 i ++ (match s.altAt i with | some x => x.bytes | none => zeroBytes 32))).cls = written.cls :=
    (State.convey_touches ..).cls (by decide)
  have kept : written.altAt j = s.altAt j := by
    show SMap.get noneOf (SMap.set noneOf s.cls.alt i (s.altAt i)) j = _
    rw [SMap.get_set]
    split
    · next same => rw [same]
    · rfl
  rw [← kept]
  exact congrArg (SMap.get noneOf · j) (congrArg Cls.alt cls)

/-- A state that differs in four parts at most. -/
theorem eq_of_touches_conveyed {s t : State} (h : Touches [.cnt, .cls, .yok, .out] s t) :
    t = { s with cls := t.cls, yok := t.yok, cnt := t.cnt, out := t.out } := by
  cases s
  cases t
  simp only [State.mk.injEq, true_and]
  exact ⟨h.regs (by decide), h.shadow (by decide), h.armed (by decide), h.now (by decide), h.ctl (by decide), h.pow (by decide), h.boot (by decide), h.led (by decide), h.hdg (by decide), h.hif (by decide), h.tim (by decide), h.mram (by decide), h.st (by decide), h.fab (by decide), h.line (by decide), h.rows (by decide), h.sch (by decide), h.mgd (by decide), h.asc (by decide), h.cph (by decide), h.kvt (by decide), h.held (by decide), h.free (by decide), h.pending (by decide)⟩

/-! ## Interval ends and repairs (R441, R443) -/

theorem leadInterval_of_early {s : State} (early : ∀ x ∈ s.yok.past, s.yok.cur.no ≤ x.no + 4) : s.leadInterval = s := by
  have late : s.yok.past.filter (fun x => decide (x.no + 4 < s.yok.cur.no)) = [] :=
    List.filter_eq_nil_iff.mpr fun x mem => by simpa using early x mem
  have kept : s.yok.past.filter (fun x => decide (s.yok.cur.no ≤ x.no + 4)) = s.yok.past :=
    List.filter_eq_self.mpr fun x mem => by simpa using early x mem
  unfold State.leadInterval
  rw [late, kept]

theorem digestIntervalEnd_of_lead {s : State} (lead : s.ctl.mode = .yokeLead) (early : ∀ x ∈ s.yok.past, s.yok.cur.no ≤ x.no + 4) :
    exec .digestIntervalEnd s = .next { s.inc (Reg.yokCountLo 6) with yok := { s.yok with suspect := s.yok.suspect - 1 } } := by
  have yokes : ¬s.ctl.mode.isYoke = false := by rw [lead]; decide
  refine (if_neg yokes).trans (congrArg Host.Outcome.next ((if_pos lead).trans ?_))
  exact leadInterval_of_early (s := { s.inc (Reg.yokCountLo 6) with yok := { s.yok with suspect := s.yok.suspect - 1 } }) early

theorem declareClass_six_of_resync {s : State} (resync : s.ctl.mode = .yokeResync) :
    s.declareClass 6 = { s.recordDivergence 0xFFFF 6 false with yok := { s.yok with clean := 0 } } := by
  unfold State.declareClass
  extract_lets recorded told
  have follows : ¬told.ctl.mode = .yokeFollower := by
    show ¬s.ctl.mode = .yokeFollower
    rw [resync]
    decide
  exact if_neg follows

theorem repairTimeout_of_resync {s : State} (resync : s.ctl.mode = .yokeResync) (asked : s.yok.repair.isSome = true) :
    exec .repairTimeout s = .next { s.recordDivergence 0xFFFF 6 false with yok := { s.yok with repair := none, clean := 0 } } := by
  have follows : s.isFollower = true := by
    unfold State.isFollower
    rw [resync]
    rfl
  refine congrArg Host.Outcome.next ((if_pos ⟨follows, asked⟩).trans ?_)
  exact declareClass_six_of_resync (s := { s with yok := { s.yok with repair := none } }) resync

theorem recordDivergence_shows (s : State) : (s.recordDivergence 0xFFFF 6 false).fld Reg.yokDiverge 15 8 = 6 ∧
    (s.recordDivergence 0xFFFF 6 false).count (Reg.yokCountLo 8) = s.count (Reg.yokCountLo 8) + 1 := by
  refine ⟨?_, count_inc_same ..⟩
  have made : (s.recordDivergence 0xFFFF 6 false).regs = (s.wr Reg.yokDiverge (BitVec.ofNat 32 (0 * 65536 + 6 * 256 + 0 * 2 + 1))).regs := rfl
  rw [State.fld, rd_of_regs made, rd_wr_self]
  decide

end Sys2Proof.Machine

open Sys2Proof Sys2Proof.Machine

/-- Settles O49, item by item past the gate of the reverse stream. -/
theorem leadTakesTheReverseStream : Obligations.LeadTakesTheReverseStream := by
  unfold Obligations.LeadTakesTheReverseStream
  refine ⟨fun b s other c listed => ?_, fun b s lead => ⟨fun ok unstored => ?_, fun ok => ?_, fun ok x found same => ?_, fun ok => ?_,
    fun ok seven => ?_, fun ok seven eight known => ?_⟩, fun s => ⟨fun alone => if_pos alone, fun lead early => ?_⟩,
    fun s => ⟨fun free => ?_, fun resync asked => ?_⟩⟩
  · simp only [List.mem_cons, List.not_mem_nil, or_false] at listed
    obtain rfl | rfl | rfl | rfl | rfl := listed
    all_goals exact congrArg Host.Outcome.next (reverse_of_notLead other _ _)
  · exact ⟨_, congrArg Host.Outcome.next (reverse_of_lead lead ok _), ackMark_of_unstored (s := s.inc (Reg.yokCountLo 4)) unstored _ _ _⟩
  · obtain ⟨pairs, rows⟩ := takeDefects_rows (s.inc (Reg.yokCountLo 4)) (itemAt b 4 2) (itemAt b 6 2)
    exact ⟨_, congrArg Host.Outcome.next (reverse_of_lead lead ok _), by rw [rows], by rw [rows], by rw [rows]; rfl⟩
  · have run : exec (.streamDigest b) s = .next ((s.inc (Reg.yokCountLo 4)).compareDigests x b) := by
      refine congrArg Host.Outcome.next ((reverse_of_lead lead ok _).trans ?_)
      rw [show (s.inc (Reg.yokCountLo 4)).yok.past.find? (fun x => x.no % 2 ^ 32 == itemAt b 4 4) = some x from found]
    rw [compareDigests_of_same same] at run
    exact ⟨_, run, rfl, rfl, rfl⟩
  · have run : exec (.repairReq b) s = .next (if itemAt b 4 4 < 262144 then
        (s.inc (Reg.yokCountLo 4)).altWrite (itemAt b 4 4) ((s.inc (Reg.yokCountLo 4)).altAt (itemAt b 4 4)) else s.inc (Reg.yokCountLo 4)) :=
      congrArg Host.Outcome.next (reverse_of_lead lead ok _)
    refine ⟨_, run, fun i => ?_, eq_of_touches_conveyed (OutTouches.ofNext run (execRepairReq_touches b s))⟩
    split
    · exact altWrite_same ..
    · rfl
  · refine congrArg Host.Outcome.next ((reverse_of_lead lead ok _).trans ?_)
    rw [seven]
    exact twinState_of_follower (s.inc (Reg.yokCountLo 4)) _
  · have run : exec (.stateItem b) s = .next (State.twinGone { s.inc (Reg.yokCountLo 4) with yok := { s.yok with twinMode := itemAt b 4 1 } }) :=
      congrArg Host.Outcome.next ((reverse_of_lead lead ok _).trans (if_pos ⟨seven, eight⟩))
    exact ⟨_, run, twinGone_of_lead (s := { s.inc (Reg.yokCountLo 4) with yok := { s.yok with twinMode := itemAt b 4 1 } }) lead known⟩
  · exact ⟨_, digestIntervalEnd_of_lead lead early, rfl, count_inc_same ..⟩
  · refine congrArg Host.Outcome.next (if_neg fun ⟨follows, asked⟩ => ?_)
    obtain alone | none_ := free
    · rw [alone] at follows
      cases follows
    · rw [none_] at asked
      cases asked
  · exact ⟨_, repairTimeout_of_resync resync asked, rfl, rfl, recordDivergence_shows s⟩
end

section
/-! A MARK above 2^48 − 1 on a follower that owes a STORE_QUEUE_FULL (R111, R114, R124, R153, R438). -/

namespace Sys2Proof.Machine

open Sys2Proof

/-- A follower whose store queue has refused a request that is not reported yet. -/
def storeOwedFollower : State := { storeOwedInRecovery with ctl := { Control.cold with mode := .yokeFollower } }

/-- The MARK item of the sheaf mark 2^48. -/
def farMark : List Byte := [0x94, 0, 0, 16, 3, 0, 0, 0, 0, 1, 0, 0, 0, 0, 0, 0]

theorem farMark_ok : itemOk 0x14 16 farMark = true ∧ itemAt farMark 4 1 = 3 ∧ itemAt farMark 8 8 = 2 ^ 48 := by decide

/-- The mark stalls the sheaves and takes the follower to Recovery (R113). The STORE_QUEUE_FULL that is owed is then an alarm in Recovery, and
the module reset that follows forgets every mark. -/
theorem streamMark_of_farMark_forgets : nextShows (·.yok.marks) (exec (.streamMark farMark) storeOwedFollower) = some [] := by decide +kernel

end Sys2Proof.Machine

open Sys2Proof Sys2Proof.Machine

/-- Refutes O48: the statement bounds neither the mark that a MARK names nor what the store queue owes. A MARK of 2^48 takes a follower that owes
a STORE_QUEUE_FULL through Recovery to a module reset, where the statement has the mark wait. -/
theorem not_followerTakesTheLeadsFrames : ¬ Obligations.FollowerTakesTheLeadsFrames := by
  unfold Obligations.FollowerTakesTheLeadsFrames
  rintro ⟨-, -, -, -, -, -, marks⟩
  obtain ⟨isMark, kind, -⟩ := farMark_ok
  obtain ⟨t, ht, waits⟩ := marks farMark storeOwedFollower (by decide) isMark (by omega) (by omega) (by decide)
  rw [nextShows_inj streamMark_of_farMark_forgets ht] at waits
  cases waits
end

section
/-! The recorder's folding, staging, batches and log, and its commands (R544 to R553, R564 to R566, R571). -/

namespace Sys2Proof.Machine

open Sys2Proof

/-! ## Folding (R544, R546, R551) -/

theorem close_drops (l : Ledger) (now : Nat) {keep : Bool} (r : EvRec) (h : keep = false ∨ l.unhealthy = true) :
    l.close now keep r = (l, false) := if_pos h

theorem close_stages {l : Ledger} (now : Nat) (r : EvRec) {keep : Bool} (kept : keep = true) (healthy : l.unhealthy = false)
    (room : l.staged.length < stageCap) : l.close now keep r = ({ l with staged := l.staged ++ [⟨now, r⟩] }, false) := by
  unfold Ledger.close
  rw [if_neg (by simp [kept, healthy]), if_pos room]

theorem close_full {l : Ledger} (now : Nat) (r : EvRec) {keep : Bool} (kept : keep = true) (healthy : l.unhealthy = false)
    (full : stageCap ≤ l.staged.length) : l.close now keep r =
      ({ l with staged := (dropOldestBelow r.level l.staged).elim l.staged (· ++ [⟨now, r⟩]) }, true) := by
  unfold Ledger.close
  rw [if_neg (by simp [kept, healthy]), if_neg (Nat.not_lt.mpr full)]
  cases dropOldestBelow r.level l.staged <;> rfl

section
variable {s : State} {o : OpenRec} {os : List OpenRec} (opened : s.led.opened = o :: os) (due : o.first + s.foldNs ≤ s.now)
include opened due

theorem foldClose_kept {l : Ledger} (closes : ({ s.led with opened := os }).close s.now o.keep o.rcd = (l, false)) :
    execFoldClose s = .next { s with led := l } := by
  unfold execFoldClose Ledger.closeOldest
  simp [opened, due, closes]

theorem foldClose_lost {l : Ledger} (closes : ({ s.led with opened := os }).close s.now o.keep o.rcd = (l, true))
    (reported : l.stageReportDue s.now = false) : execFoldClose s = .next ({ s with led := l }).stageLost := by
  have later : ({ s with led := l }).stageLost.led.stageReportDue ({ s with led := l }).stageLost.now = false := reported
  unfold execFoldClose Ledger.closeOldest
  simp [opened, due, closes, later]

end

theorem foldClose_of_early {s : State} {o : OpenRec} {os : List OpenRec} (opened : s.led.opened = o :: os) (early : s.now < o.first + s.foldNs) :
    execFoldClose s = .next s := by
  unfold execFoldClose
  simp [opened, Nat.not_le.mpr early]

theorem foldClose_of_none {s : State} (opened : s.led.opened = []) : execFoldClose s = .next s := by
  unfold execFoldClose
  simp [opened]

/-! ## Batches (R547, R550) -/

theorem nextMram_sole {s : State} {r : StoreReq} (sole : s.st.queue = [r]) (mram : r.cls ≠ .nor) : s.nextMram = some (r, []) := by
  unfold State.nextMram
  rw [sole]
  by_cases first : r.cls.rank = 1 <;> simp [takeRank, takeMram, first, mram]

/-- The only store that waits, one for the idle MRAM port, starts once its check passes. -/
theorem startStores_sole {s : State} {r : StoreReq} (sole : s.st.queue = [r]) (mram : r.cls ≠ .nor) (idle : s.st.mram = none)
    (powered : s.pow.pfStep = 0) (energy : s.energyOk r.cost (costOf s.st.nor) = true) :
    s.startStores = { s with st := { s.st with mram := some r, queue := [] } } := by
  have started : s.startMram = { s with st := { s.st with mram := some r, queue := [] } } := by
    unfold State.startMram State.tryMram
    simp [powered, nextMram_sole sole mram, idle, energy, sole]
  unfold State.startStores State.startNor
  rw [started]
  cases s.st.nor <;> simp [State.nextNor, powered, takeRank]

/-- The store of the next batch. -/
abbrev Ledger.batchStore (l : Ledger) : StoreReq := ⟨.logBatch, costLogBatch, .logBatch (l.batch.map (·.rcd)), .nobody, false⟩

theorem batchOffer_waits {s : State}
    (h : s.led.scanned = false ∨ s.led.frozen = true ∨ s.led.unhealthy = true ∨ s.batchOut = true ∨ s.led.batchDue s.now = false) :
    execBatchOffer s = .next s := if_pos h

section
variable {s : State} (scanned : s.led.scanned = true) (thawed : s.led.frozen = false) (healthy : s.led.unhealthy = false)
  (none_ : s.batchOut = false) (due : s.led.batchDue s.now = true)
include scanned thawed healthy none_ due

/-- A due batch is offered alone, and starts at once where nothing else is queued. -/
theorem batchOffer_starts (empty : s.st.queue = []) (idle : s.st.mram = none) (powered : s.pow.pfStep = 0)
    (energy : s.energyOk costLogBatch (costOf s.st.nor) = true) :
    execBatchOffer s = .next { s with
      led := { s.led with staged := s.led.staged.filter (fun x => !s.led.batch.contains x) }
      st := { s.st with mram := some s.led.batchStore } } := by
  have sole : (s.joined s.led.batchStore).st.queue = [s.led.batchStore] := congrArg (· ++ [s.led.batchStore]) empty
  have offered := requestStore_of_room (s := s) s.led.batchStore (by rw [empty]; decide)
  rw [startStores_sole sole StoreClass.noConfusion idle powered energy] at offered
  have ready : ¬(s.led.scanned = false ∨ s.led.frozen = true ∨ s.led.unhealthy = true ∨ s.batchOut = true ∨ s.led.batchDue s.now = false) := by
    simp [scanned, thawed, healthy, none_, due]
  unfold execBatchOffer
  dsimp only
  rw [if_neg ready, offered]
  have emptied : { s.st with queue := [], mram := some s.led.batchStore } = { s.st with mram := some s.led.batchStore } := by rw [← empty]
  exact congrArg (fun st => Host.Outcome.next
    { s with led := { s.led with staged := s.led.staged.filter (fun x => !s.led.batch.contains x) }, st := st }) emptied

end

/-! ## The scan (R549) -/

/-- The best slot so far, and the next of the log. -/
def newerSlot (best : Option (Nat × Nat)) (e : Nat × Option EvRec) : Option (Nat × Nat) :=
  match e.2 with
  | none => best
  | some r => match best with
    | some (q, k) => if r.seq < q then some (q, k) else some (r.seq, e.1)
    | none => some (r.seq, e.1)

theorem newest_eq_foldl (l : Ledger) : l.newest = (l.log.foldl newerSlot none).map (·.2) := rfl

/-- The best slot of a list holds one of its records, and none has a higher SEQ; without one the list holds no record. -/
def BestOf (log : List (Nat × Option EvRec)) : Option (Nat × Nat) → Prop
  | none => ∀ k r, (k, some r) ∉ log
  | some (q, k) => (∃ r, (k, some r) ∈ log ∧ r.seq = q) ∧ ∀ j r, (j, some r) ∈ log → r.seq ≤ q

theorem newerSlot_best (log : List (Nat × Option EvRec)) {best : Option (Nat × Nat)} (h : BestOf log best) (k : Nat) (c : Option EvRec) :
    BestOf (log ++ [(k, c)]) (newerSlot best (k, c)) := by
  cases c with
  | none =>
    cases best with
    | none => simpa [newerSlot, BestOf] using h
    | some b => simpa [newerSlot, BestOf] using h
  | some r =>
    cases best with
    | none =>
      refine ⟨⟨r, by simp, rfl⟩, fun j q mem => ?_⟩
      obtain old | new := List.mem_append.mp mem
      · exact absurd old (h j q)
      · cases List.mem_singleton.mp new
        exact le_refl _
    | some b =>
      obtain ⟨⟨r', at_, top⟩, most⟩ := h
      unfold newerSlot
      dsimp only
      split
      next lower =>
        refine ⟨⟨r', List.mem_append_left _ at_, top⟩, fun j q mem => ?_⟩
        obtain old | new := List.mem_append.mp mem
        · exact most j q old
        · cases List.mem_singleton.mp new
          exact lower.le
      next higher =>
        refine ⟨⟨r, by simp, rfl⟩, fun j q mem => ?_⟩
        obtain old | new := List.mem_append.mp mem
        · exact (most j q old).trans (Nat.not_lt.mp higher)
        · cases List.mem_singleton.mp new
          exact le_refl _

theorem foldl_newerSlot_best (log : List (Nat × Option EvRec)) : BestOf log (log.foldl newerSlot none) := by
  induction log using List.reverseRecOn with
  | nil => exact fun _ _ => List.not_mem_nil
  | append_singleton log e ih =>
    rw [List.foldl_append]
    exact newerSlot_best log ih e.1 e.2

/-- The newest slot is the one whose record has the highest SEQ. -/
theorem newest_of_highest {l : Ledger} {k : Nat} {r : EvRec} (at_ : (k, some r) ∈ l.log)
    (highest : ∀ j q, (j, some q) ∈ l.log → j ≠ k → q.seq < r.seq) : l.newest = some k := by
  have best := foldl_newerSlot_best l.log
  rw [newest_eq_foldl]
  match l.log.foldl newerSlot none, best with
  | none, nothing => exact absurd at_ (nothing k r)
  | some (q, j), ⟨⟨r', at', top⟩, most⟩ =>
    by_cases same : j = k
    · rw [same]
      rfl
    · have := highest j r' at' same
      have := most k r at_
      omega

theorem newest_of_empty {l : Ledger} (empty : l.log = []) : l.newest = none := by
  unfold Ledger.newest
  rw [empty]
  rfl

/-- A slot of the block holds a record. -/
abbrev HoldsIn (b : Nat) (e : Nat × Option EvRec) : Prop := e.1 / 64 = b ∧ e.2.isSome = true

/-- The place after the records of the block so far, and after the next slot of the log. -/
def fillAfter (b m : Nat) (e : Nat × Option EvRec) : Nat := if HoldsIn b e then max m (e.1 % 64 + 1) else m

theorem fillOf_eq_foldl (l : Ledger) (b : Nat) : l.fillOf b = l.log.foldl (fillAfter b) 0 := rfl

/-- The fill of a block is 0 or the place after one of its records, and each of its records lies before it. -/
def FillOf (b : Nat) (log : List (Nat × Option EvRec)) (f : Nat) : Prop :=
  (f = 0 ∨ ∃ e ∈ log, HoldsIn b e ∧ f = e.1 % 64 + 1) ∧ ∀ e ∈ log, HoldsIn b e → e.1 % 64 < f

theorem fillAfter_fill {b f : Nat} {log : List (Nat × Option EvRec)} (h : FillOf b log f) (x : Nat × Option EvRec) :
    FillOf b (log ++ [x]) (fillAfter b f x) := by
  obtain ⟨place, above⟩ := h
  have older : f = 0 ∨ ∃ e ∈ log ++ [x], HoldsIn b e ∧ f = e.1 % 64 + 1 :=
    place.imp id fun ⟨e, mem, he⟩ => ⟨e, List.mem_append_left _ mem, he⟩
  unfold fillAfter
  split
  next holds =>
    refine ⟨?_, fun e mem he => ?_⟩
    · obtain last | last := max_choice f (x.1 % 64 + 1)
      · rw [last]
        exact older
      · exact .inr ⟨x, by simp, holds, last⟩
    · obtain old | new := List.mem_append.mp mem
      · exact lt_of_lt_of_le (above e old he) (le_max_left ..)
      · rw [List.mem_singleton.mp new]
        exact Nat.le_max_right ..
  next empty =>
    refine ⟨older, fun e mem he => ?_⟩
    obtain old | new := List.mem_append.mp mem
    · exact above e old he
    · exact absurd (List.mem_singleton.mp new ▸ he) empty

theorem fillOf_fill (l : Ledger) (b : Nat) : FillOf b l.log (l.fillOf b) := by
  rw [fillOf_eq_foldl]
  induction l.log using List.reverseRecOn with
  | nil => exact ⟨.inl rfl, fun _ mem => absurd mem List.not_mem_nil⟩
  | append_singleton log x ih =>
    rw [List.foldl_append]
    exact fillAfter_fill ih x

theorem logScan_of_unscanned {s : State} (g : Bool) (h : s.led.scanned = false) : execLogScan g s = .next { s with led := { s.led with
    scanned := true, block := s.led.newest.elim 0 (· / 64), fill := s.led.fillOf (s.led.newest.elim 0 (· / 64))
    unhealthy := s.led.unhealthy && !(s.ctl.resetCause == 0 && g) } } := by
  unfold execLogScan
  rw [h]
  cases s.led.newest <;> rfl

/-! ## What recording stages -/

theorem close_staged {l : Ledger} (now : Nat) (keep : Bool) (r : EvRec) (room : l.staged.length < stageCap) :
    (∃ more, more.length ≤ 1 ∧ (l.close now keep r).1.staged = l.staged ++ more) ∧ (l.close now keep r).2 = false := by
  unfold Ledger.close
  rw [if_pos room]
  split
  · exact ⟨⟨[], by simp⟩, rfl⟩
  · exact ⟨⟨[⟨now, r⟩], by simp⟩, rfl⟩

theorem closeOldest_staged {l : Ledger} (now : Nat) (room : l.staged.length < stageCap) :
    (∃ more, more.length ≤ 1 ∧ (l.closeOldest now).1.staged = l.staged ++ more) ∧ (l.closeOldest now).2 = false := by
  unfold Ledger.closeOldest
  split
  · exact ⟨⟨[], by simp⟩, rfl⟩
  · exact close_staged (l := { l with opened := _ }) _ _ _ room

theorem formed_staged {s : State} (t : Nat × Nat × Bool) (c l a : Nat) (ps : List Byte) (room : s.led.staged.length < stageCap) :
    (∃ more, more.length ≤ 1 ∧ (formed s t c l a ps).1.staged = s.led.staged ++ more) ∧ (formed s t c l a ps).2 = false := by
  unfold formed
  extract_lets led keep stepped x
  split
  · show (∃ more, more.length ≤ 1 ∧ x.1.staged = s.led.staged ++ more) ∧ x.2 = false
    by_cases free : stepped.opened.length < openCap
    · rw [show x = (stepped, false) from if_pos free]
      exact ⟨⟨[], by simp [stepped, led, Ledger.bump]⟩, rfl⟩
    · rw [show x = stepped.closeOldest s.now from if_neg free]
      exact closeOldest_staged (l := stepped) s.now room
  · exact close_staged (l := stepped) _ _ _ room

theorem noteCore_lost (s : State) (t : Nat × Nat × Bool) (c l a : Nat) (o : List Nat) (ps : List Byte) :
    (s.noteCore t c l a o ps).2.1 = false ∨ (s.noteCore t c l a o ps).2.1 = (formed s t c l a ps).2 := by
  unfold State.noteCore
  split
  · exact .inl rfl
  extract_lets led folds
  split
  · exact .inl rfl
  · exact .inr rfl

theorem noteCore_staged {s : State} (t : Nat × Nat × Bool) (c l a : Nat) (o : List Nat) (ps : List Byte) (room : s.led.staged.length < stageCap) :
    (∃ more, more.length ≤ 1 ∧ (s.noteCore t c l a o ps).1.led.staged = s.led.staged ++ more) ∧ (s.noteCore t c l a o ps).2.1 = false := by
  obtain ⟨grows, kept⟩ := formed_staged t c l a ps room
  refine ⟨?_, (noteCore_lost s t c l a o ps).elim id fun e => e.trans kept⟩
  by_cases asleep : s.ctl.mode = .sentry
  · unfold State.noteCore
    rw [if_pos asleep]
    exact ⟨[], by simp⟩
  obtain ⟨os, folded⟩ | ⟨x, record, recorded⟩ := noteCore_cases s t c l a o ps asleep
  · rw [folded]
    exact ⟨[], by simp [Ledger.bump]⟩
  · have led : (s.noteCore t c l a o ps).1.led = (formed s t c l a ps).1 := by
      rw [recorded, kept, (State.alert_touches ..).led (by decide)]
      exact ((ifpost ..).led (by decide)).trans (congrArg State.led record)
    rw [led]
    exact grows

/-- While staging has room for two, an event adds its records behind what is staged. -/
theorem note_staged {s : State} (e : EvKind) (ps : List Byte) (room : s.led.staged.length + 2 ≤ stageCap) :
    s.led.staged <+: (s.note e ps).led.staged := by
  unfold State.note State.noteAs State.noteAt
  extract_lets suspected carried
  have same : suspected.led = s.led := (State.suspectAfter_touches ..).led (by decide)
  split
  next recorded lost dropped made =>
  obtain ⟨⟨more, one, grown⟩, kept⟩ := noteCore_staged (s := suspected) s.logTime e.code e.level 0xFF [] carried (by rw [same]; omega)
  rw [made] at grown kept
  extract_lets told led stamped
  have noReport : ¬(lost = true ∧ told.led.stageReportDue told.now = true) := by
    rw [show lost = false from kept]
    simp
  rw [if_neg noReport]
  have first : s.led.staged <+: recorded.led.staged := ⟨more, by rw [← same]; exact grown.symm⟩
  have grown' : recorded.led.staged.length = s.led.staged.length + more.length := by
    rw [← List.length_append, ← same]
    exact congrArg List.length grown
  obtain ⟨⟨more', _, grown''⟩, _⟩ := noteCore_staged (s := recorded) s.logTime Ev.eventRingOverflow.code 0 0xFF [] [] (by omega)
  by_cases full : dropped = true
  · rw [show told = (recorded.noteCore s.logTime Ev.eventRingOverflow.code 0 0xFF [] []).1 from if_pos full]
    exact first.trans ⟨more', grown''.symm⟩
  · rw [show told = recorded from if_neg full]
    exact first

/-! ## A store that is requested waits or runs (R121) -/

/-- A store of p for w waits or runs. -/
def Outstanding (p : Payload) (w : Waiter) (s : State) : Prop :=
  ∃ x, (x ∈ s.st.queue ∨ s.st.mram = some x ∨ s.st.nor = some x) ∧ x.pay = p ∧ x.who = w

namespace Outstanding

variable {p : Payload} {w : Waiter}

theorem of_st {s t : State} (h : Outstanding p w s) (st : t.st = s.st) : Outstanding p w t := by
  unfold Outstanding
  rw [st]
  exact h

theorem mem_markDeferred {r x : StoreReq} {q : List StoreReq} (mem : x ∈ q) : ∃ y ∈ markDeferred r q, y.pay = x.pay ∧ y.who = x.who := by
  induction q with
  | nil => cases mem
  | cons z q ih =>
    unfold markDeferred
    split
    next same =>
      obtain rfl | later := List.mem_cons.mp mem
      · exact ⟨_, List.mem_cons_self, by rw [same], by rw [same]⟩
      · exact ⟨x, List.mem_cons_of_mem _ later, rfl, rfl⟩
    · obtain rfl | later := List.mem_cons.mp mem
      · exact ⟨x, List.mem_cons_self, rfl, rfl⟩
      · obtain ⟨y, mem', same⟩ := ih later
        exact ⟨y, List.mem_cons_of_mem _ mem', same⟩

theorem defer {s : State} (h : Outstanding p w s) (r : StoreReq) : Outstanding p w (s.defer r) := by
  unfold State.defer
  split
  · exact h
  · extract_lets marked counted
    refine of_st ?_ ((State.note_touches ..).st (by decide))
    obtain ⟨x, at_, pay, who⟩ := h
    obtain waits | runs := at_
    · obtain ⟨y, mem, pay', who'⟩ := mem_markDeferred (r := r) waits
      exact ⟨y, .inl mem, pay'.trans pay, who'.trans who⟩
    · exact ⟨x, .inr runs, pay, who⟩

theorem tryMram {s : State} (h : Outstanding p w s) (r : StoreReq) : Outstanding p w (s.tryMram r) := by
  unfold State.tryMram
  split
  · exact h
  next idle =>
    split
    · obtain ⟨x, waits | runs | runs, same⟩ := h
      · by_cases taken : x = r
        · exact ⟨x, .inr (.inl (congrArg some taken.symm)), same⟩
        · exact ⟨x, .inl ((List.mem_erase_of_ne taken).mpr waits), same⟩
      · rw [idle] at runs
        cases runs
      · exact ⟨x, .inr (.inr runs), same⟩
    · exact h.defer r

theorem startMram {s : State} (h : Outstanding p w s) : Outstanding p w s.startMram := by
  have each (q : List StoreReq) (s : State) (h : Outstanding p w s) : Outstanding p w (q.foldl State.tryMram s) := by
    induction q generalizing s with
    | nil => exact h
    | cons r q ih => exact ih _ (h.tryMram r)
  unfold State.startMram
  split
  · exact h
  split
  · exact each _ s h
  · split
    · exact h
    · exact h.tryMram _

theorem takeRank_mem {k : Nat} {q rest : List StoreReq} {r x : StoreReq} (h : takeRank k q = some (r, rest)) (mem : x ∈ q) :
    x = r ∨ x ∈ rest := by
  induction q generalizing rest with
  | nil => cases mem
  | cons z q ih =>
    unfold takeRank at h
    split at h
    · cases h
      exact List.mem_cons.mp mem
    · obtain ⟨⟨r', ys⟩, found, same⟩ := Option.map_eq_some_iff.mp h
      cases same
      obtain rfl | later := List.mem_cons.mp mem
      · exact .inr List.mem_cons_self
      · exact (ih found later).imp id (List.mem_cons_of_mem _)

theorem startNor {s : State} (h : Outstanding p w s) : Outstanding p w s.startNor := by
  unfold State.startNor
  split
  · exact h
  next idle =>
    split
    · exact h
    next r rest next_ =>
      split
      · obtain ⟨x, waits | runs | runs, same⟩ := h
        · have first : takeRank 7 s.st.queue = some (r, rest) := by
            unfold State.nextNor at next_
            split at next_
            · cases next_
            · exact next_
          obtain taken | stays := takeRank_mem first waits
          · exact ⟨x, .inr (.inr (congrArg some taken.symm)), same⟩
          · exact ⟨x, .inl stays, same⟩
        · exact ⟨x, .inr (.inl runs), same⟩
        · rw [idle] at runs
          cases runs
      · exact h.defer r

theorem startStores {s : State} (h : Outstanding p w s) : Outstanding p w s.startStores := h.startMram.startNor

theorem requestStore {s : State} (r : StoreReq) (room : s.st.queue.length < storeCap) : Outstanding r.pay r.who (s.requestStore r).1 := by
  rw [requestStore_of_room r room]
  exact startStores ⟨r, .inl (List.mem_append_right _ List.mem_cons_self), rfl, rfl⟩

end Outstanding

/-! ## The gate of LOG_CMD (R571) -/

section
variable {s : State} {p : Path} (reached : s.Reaches p Reg.logCmd) (op : Nat) (act : Bool → State → State)
include reached

theorem logWrite_of_reaches : s.logWrite p op act =
    if s.led.cmd.isSome then (s.disarm 14).result Reg.logResult 1 else act (s.isArmed 14) (s.disarm 14) := by
  unfold State.logWrite
  rw [hostWrite_of_reaches _ _ reached (by decide), show Reg.logCmd / 0x100000 = 14 from rfl]
  rfl

theorem logWrite_busy (busy : s.led.cmd.isSome = true) : s.logWrite p op act = (s.disarm 14).result Reg.logResult 1 :=
  (logWrite_of_reaches reached op act).trans (if_pos busy)

theorem logWrite_free (free : s.led.cmd = none) : s.logWrite p op act = act (s.isArmed 14) (s.disarm 14) :=
  (logWrite_of_reaches reached op act).trans (if_neg (by rw [free]; decide))

theorem awake_of_logCmd : s.ctl.mode ≠ .sentry := resp_mode reached.2.1

end

theorem disarm_isArmed (s : State) (unit : Nat) : (s.disarm unit).isArmed unit = false := by
  unfold State.isArmed State.disarm
  simp

/-! ## Freezes (R550) -/

theorem thawLog_of_frozen {s : State} (cause : Nat) (frozen : s.led.frozen = true) (awake : s.ctl.mode ≠ .sentry) :
    (s.thawLog cause).led.frozen = false ∧ (s.thawLog cause).st = s.st ∧ (s.thawLog cause).led.log = s.led.log ∧
      (s.thawLog cause).events Ev.logThawed = satAdd (2 ^ 48 - 1) (s.events Ev.logThawed) 1 := by
  have thawed : s.thawLog cause = State.note { s with led := { s.led with frozen := false } } Ev.logThawed
      (beBytes 1 cause ++ beBytes 4 (s.fld Reg.logLost 31 16)) := if_pos frozen
  have counted := note_events { s with led := { s.led with frozen := false } } Ev.logThawed
    (beBytes 1 cause ++ beBytes 4 (s.fld Reg.logLost 31 16)) Ev.logThawed awake (by decide) (by decide)
  rw [thawed]
  have told := Recorded.note { s with led := { s.led with frozen := false } } Ev.logThawed (beBytes 1 cause ++ beBytes 4 (s.fld Reg.logLost 31 16))
  obtain ⟨_, _, _, _, _, led⟩ := told.led
  exact ⟨by rw [led], told.touches.st (by decide), by rw [led], counted.trans (if_pos rfl)⟩

theorem thawLog_of_thawed {s : State} (cause : Nat) (thawed : s.led.frozen = false) : s.thawLog cause = s := if_neg (by simp [thawed])

end Sys2Proof.Machine
end

section
/-! The Ledger's commands at LOG_CMD, its reads, and its part in the calibration page (R547 to R552, R564 to R566, R571). -/

namespace Sys2Proof.Machine

open Sys2Proof

/-! ## The Ledger across recordings and stores -/

/-- From s to t the Ledger has changed only by what recording events writes. -/
def LedRecorded (s t : State) : Prop :=
  ∃ evc opened staged seq lostAt, t.led = { s.led with evc := evc, opened := opened, staged := staged, seq := seq, stageLostAt := lostAt }

namespace LedRecorded

theorem of_led {s t : State} (h : t.led = s.led) : LedRecorded s t := ⟨_, _, _, _, _, h⟩

theorem refl (s : State) : LedRecorded s s := of_led rfl

theorem trans {s t u : State} (h : LedRecorded s t) (k : LedRecorded t u) : LedRecorded s u := by
  obtain ⟨_, _, _, _, _, led⟩ := h
  obtain ⟨e, o, g, q, l, led'⟩ := k
  exact ⟨e, o, g, q, l, by rw [led', led]⟩

theorem note (s : State) (e : EvKind) (ps : List Byte) : LedRecorded s (s.note e ps) := (Recorded.note ..).led

theorem noteAt (s : State) (t : Nat × Nat × Bool) (c l a : Nat) (o : List Nat) (ps : List Byte) : LedRecorded s (s.noteAt t c l a o ps) :=
  (Recorded.noteAt ..).led

theorem ite {s a b : State} {c : Prop} [Decidable c] (h : LedRecorded s a) (k : LedRecorded s b) : LedRecorded s (if c then a else b) := by
  split <;> assumption

theorem foldl {α : Type} {f : State → α → State} (l : List α) (s : State) (h : ∀ x a, LedRecorded x (f x a)) :
    LedRecorded s (l.foldl f s) := by
  induction l generalizing s with
  | nil => exact refl s
  | cons a l ih => exact (h s a).trans (ih (f s a))

theorem defer (s : State) (r : StoreReq) : LedRecorded s (s.defer r) := by
  unfold State.defer
  split
  · exact refl s
  · extract_lets marked counted
    exact (of_led (s := s) (t := counted) rfl).trans (note ..)

theorem tryMram (s : State) (r : StoreReq) : LedRecorded s (s.tryMram r) := by
  unfold State.tryMram
  split
  · exact refl s
  · exact ite (of_led rfl) (defer ..)

theorem startMram (s : State) : LedRecorded s s.startMram := by
  unfold State.startMram
  refine ite (refl s) (ite (foldl _ s tryMram) ?_)
  split
  · exact refl s
  · exact tryMram ..

theorem startNor (s : State) : LedRecorded s s.startNor := by
  unfold State.startNor
  split
  · exact refl s
  · split
    · exact refl s
    · exact ite (of_led rfl) (defer ..)

theorem startStores (s : State) : LedRecorded s s.startStores := (startMram s).trans (startNor _)

theorem requestStore_room {s : State} (r : StoreReq) (room : s.st.queue.length < storeCap) : LedRecorded s (s.requestStore r).1 := by
  rw [requestStore_of_room r room]
  exact (of_led (s := s) (t := s.joined r) rfl).trans (startStores _)

theorem recordAll (s : State) (t : Nat × Nat × Bool) (fs : List Fired) (lvl : Nat) (erase : Bool) :
    LedRecorded s (s.recordAll t fs lvl erase) := by
  unfold State.recordAll
  extract_lets noted rooted
  have first : LedRecorded s noted := foldl fs s fun _ _ => noteAt ..
  have second : LedRecorded s rooted := ite (first.trans (note ..)) first
  exact ite (second.trans (note ..)) second

theorem beginResponse (s : State) (c l e : Nat) : LedRecorded s (s.beginResponse c l e) := by
  unfold State.beginResponse
  extract_lets control named ended
  have same : LedRecorded s ended := of_led ((State.endModeCmd_touches named 3).led (by decide))
  split
  · exact same.trans ((of_led (s := ended) (t := { ended with kvt := { ended.kvt with session := none } }) rfl).trans (note ..))
  · exact same

/-- In Ready an alarm of level 2 erases nothing. -/
theorem raiseAll_storeQueueFull {s : State} (ready : s.ctl.mode = .ready) :
    LedRecorded s (s.raiseAll [Fired.plain Ev.storeQueueFull] [] none) := by
  have mild : decide (4 ≤ s.ctl.mode.effLevel 2) = false := by
    rw [ready]
    decide
  rw [Machine.raiseAll_storeQueueFull (by rw [ready]; decide) (by rw [ready]; decide), mild]
  unfold State.answer
  extract_lets time began
  rw [perform_of_noEvidence began (by decide)]
  refine LedRecorded.trans ?_ (recordAll ..)
  exact (beginResponse s _ _ _).trans (of_led rfl)

theorem reportRefused {s : State} (ready : s.ctl.mode = .ready) : LedRecorded s s.reportRefused := by
  have raised : LedRecorded s (State.raiseAll { s with st := { s.st with refused := false } } [Fired.plain Ev.storeQueueFull] [] none) :=
    (of_led (t := { s with st := { s.st with refused := false } }) rfl).trans (raiseAll_storeQueueFull ready)
  unfold State.reportRefused
  exact ite (raised.trans (of_led rfl)) (refl s)

theorem requestStore {s : State} (ready : s.ctl.mode = .ready) (r : StoreReq) : LedRecorded s (s.requestStore r).1 := by
  by_cases room : s.st.queue.length < storeCap
  · exact requestStore_room r room
  · have full : s.requestStore r = (State.reportRefused { s with st := { s.st with refused := true } }, false) := by
      have pushed : s.pushStore r = ({ s with st := { s.st with refused := true } }, false) := if_pos (Nat.not_lt.mp room)
      unfold State.requestStore
      rw [pushed]
      rfl
    rw [full]
    exact (of_led (s := s) (t := { s with st := { s.st with refused := true } }) rfl).trans (reportRefused ready)

theorem cal {s t : State} (h : LedRecorded s t) : t.led.cal = s.led.cal := by
  obtain ⟨_, _, _, _, _, led⟩ := h
  rw [led]

theorem mark {s t : State} (h : LedRecorded s t) : t.led.mark = s.led.mark := by
  obtain ⟨_, _, _, _, _, led⟩ := h
  rw [led]

theorem log {s t : State} (h : LedRecorded s t) : t.led.log = s.led.log := by
  obtain ⟨_, _, _, _, _, led⟩ := h
  rw [led]

end LedRecorded

/-! ## LOG_FREEZE, LOG_THAW and RELEASE (R549, R550) -/

/-- The records of the batches that wait. -/
def State.batched (s : State) : List EvRec :=
  s.st.queue.flatMap (fun (r : StoreReq) => match r.pay with | .logBatch rs => rs | _ => [])

/-- The log is frozen: the batches that have not started are staged again. -/
def State.frozenNow (s : State) : State :=
  { s with
    st := { s.st with queue := s.st.queue.filter (fun (r : StoreReq) => !(r.cls == StoreClass.logBatch)) }
    led := { s.led with frozen := true, freezeStart := s.now, staged := restaged s.batched ++ s.led.staged } }

section
variable {s : State} {p : Path} (reached : s.Reaches p Reg.logCmd)
include reached

theorem ended_of_busy (busy : s.led.cmd.isSome = true) (op : Nat) (act : Bool → State → State) : ∃ t,
    Host.Outcome.next (s.logWrite p op act) = (.next t : Host.Outcome State Fault Refusal) ∧ t.Ended Reg.logResult 1 ∧
      t = { s with regs := t.regs, armed := t.armed } ∧ t.isArmed 14 = false :=
  ⟨_, congrArg Host.Outcome.next (logWrite_busy reached op act busy), result_ended _ _ (by decide), rfl, disarm_isArmed s 14⟩

variable (free : s.led.cmd = none)
include free

theorem logFreeze_again (frozen : s.led.frozen = true) : ∃ t, exec (.logFreeze p) s = .next t ∧ t.Ended Reg.logResult 2 ∧
    t = { s with regs := t.regs, armed := t.armed } :=
  ⟨_, congrArg Host.Outcome.next ((logWrite_free reached 1 _ free).trans (if_pos frozen)), result_ended _ _ (by decide), rfl⟩

theorem logFreeze_starts (thawed : s.led.frozen = false) : exec (.logFreeze p) s =
    .next (((s.disarm 14).frozenNow.note Ev.logFrozen).result Reg.logResult 0) :=
  congrArg Host.Outcome.next ((logWrite_free reached 1 _ free).trans (if_neg (by
    rw [show (s.disarm 14).led.frozen = false from thawed]
    decide)))

theorem logFreeze_keeps (thawed : s.led.frozen = false) (room : s.batched.length + s.led.staged.length + 4 ≤ stageCap) : ∃ t,
    exec (.logFreeze p) s = .next t ∧ t.led.frozen = true ∧ t.led.freezeStart = s.now ∧ (restaged s.batched ++ s.led.staged) <+: t.led.staged ∧
      (∀ r ∈ t.st.queue, r.cls ≠ .logBatch) ∧ t.st.mram = s.st.mram ∧ t.Ended Reg.logResult 0 ∧
      t.events Ev.logFrozen = satAdd (2 ^ 48 - 1) (s.events Ev.logFrozen) 1 := by
  have told := Recorded.note (s.disarm 14).frozenNow Ev.logFrozen []
  have st : ((s.disarm 14).frozenNow.note Ev.logFrozen).st = (s.disarm 14).frozenNow.st := told.touches.st (by decide)
  obtain ⟨_, _, _, _, _, led⟩ := told.led
  refine ⟨_, logFreeze_starts reached free thawed, congrArg Ledger.frozen led, congrArg Ledger.freezeStart led, ?_, fun r mem => ?_,
    (congrArg Stores.mram st).trans rfl, result_ended _ _ (by decide), ?_⟩
  · refine note_staged (s := (s.disarm 14).frozenNow) Ev.logFrozen [] ?_
    show (restaged s.batched ++ s.led.staged).length + 2 ≤ stageCap
    rw [List.length_append, restaged, List.length_map]
    omega
  · have kept := (List.mem_filter.mp ((congrArg Stores.queue st) ▸ mem : r ∈ (s.disarm 14).frozenNow.st.queue)).2
    intro batch
    rw [batch] at kept
    exact absurd kept (by decide)
  · exact (note_events (s.disarm 14).frozenNow Ev.logFrozen [] Ev.logFrozen (awake_of_logCmd reached) (by decide) (by decide)).trans (if_pos rfl)

theorem logThaw_ends (frozen : s.led.frozen = true) : ∃ t, exec (.logThaw p) s = .next t ∧ t.led.frozen = false ∧ t.st = s.st ∧
    t.led.log = s.led.log ∧ t.Ended Reg.logResult 0 ∧ t.events Ev.logThawed = satAdd (2 ^ 48 - 1) (s.events Ev.logThawed) 1 := by
  obtain ⟨ended, st, log, counted⟩ := thawLog_of_frozen (s := s.disarm 14) 1 frozen (awake_of_logCmd reached)
  exact ⟨_, congrArg Host.Outcome.next ((logWrite_free reached 2 _ free).trans (if_pos frozen)), ended, st, log,
    result_ended _ _ (by decide), counted⟩

theorem logThaw_refused (thawed : s.led.frozen = false) : ∃ t, exec (.logThaw p) s = .next t ∧ t.Ended Reg.logResult 2 ∧
    t = { s with regs := t.regs, armed := t.armed } :=
  ⟨_, congrArg Host.Outcome.next ((logWrite_free reached 2 _ free).trans (if_neg (by
    rw [show (s.disarm 14).led.frozen = false from thawed]
    decide))), result_ended _ _ (by decide), rfl⟩

/-- A mark that adds nothing ends at once. -/
theorem logRelease_done {n : Nat} (at_ : n = min (s.rd Reg.logArg).toNat (s.led.seq - 1))
    (old : s.led.seq = 0 ∨ ∃ m, s.led.mark = some m ∧ n ≤ m) : ∃ t, exec (.logRelease p) s = .next t ∧ t.Ended Reg.logResult 0 ∧
      t = { s with regs := t.regs, armed := t.armed } := by
  refine ⟨_, congrArg Host.Outcome.next ((logWrite_free reached 3 _ free).trans (if_pos ?_)), result_ended _ _ (by decide), rfl⟩
  refine old.imp id fun ⟨m, mark, le⟩ => ?_
  rw [show (s.disarm 14).led.mark = some m from mark]
  exact decide_eq_true (at_ ▸ le)

theorem logRelease_stores {n : Nat} (at_ : n = min (s.rd Reg.logArg).toNat (s.led.seq - 1)) (some_ : s.led.seq ≠ 0)
    (new : ∀ m, s.led.mark = some m → m < n) (room : s.st.queue.length < storeCap) : ∃ t, exec (.logRelease p) s = .next t ∧
      t.led.cmd = some 3 ∧ t.led.mark = s.led.mark ∧
      ∃ x, (x ∈ t.st.queue ∨ t.st.mram = some x ∨ t.st.nor = some x) ∧ x.pay = .releaseMark n ∧ x.who = .unit 14 0 := by
  have adds : ¬(s.led.seq = 0 ∨ (match s.led.mark with | some m => decide (n ≤ m) | none => false) = true) := by
    refine not_or.mpr ⟨some_, ?_⟩
    cases mark : s.led.mark with
    | none => exact Bool.false_ne_true
    | some m => exact fun le => absurd (new m mark) (Nat.not_lt.mpr (of_decide_eq_true le))
  have asks : s.logWrite p 3 (fun _ s =>
      let n := min (s.rd Reg.logArg).toNat (s.led.seq - 1)
      if s.led.seq = 0 ∨ (match s.led.mark with | some m => decide (n ≤ m) | none => false) = true then s.result Reg.logResult 0
      else
        let (s, ok) := s.requestStore (recordStore .otherRec (.releaseMark n) (.unit 14 0))
        if ok then { s with led := { s.led with cmd := some 3 } } else s.result Reg.logResult 9) =
      { ((s.disarm 14).requestStore (recordStore .otherRec (.releaseMark n) (.unit 14 0))).1 with
        led := { ((s.disarm 14).requestStore (recordStore .otherRec (.releaseMark n) (.unit 14 0))).1.led with cmd := some 3 } } := by
    rw [logWrite_free reached 3 _ free]
    refine (if_neg (at_ ▸ adds)).trans ?_
    rw [show min ((s.disarm 14).rd Reg.logArg).toNat ((s.disarm 14).led.seq - 1) = n from at_.symm,
      requestStore_of_room (s := s.disarm 14) _ room]
    rfl
  refine ⟨_, congrArg Host.Outcome.next asks, rfl, ?_, ?_⟩
  · exact (LedRecorded.requestStore_room (s := s.disarm 14) _ room).mark
  · exact Outstanding.requestStore (s := s.disarm 14) (recordStore .otherRec (.releaseMark n) (.unit 14 0)) room

/-! ## COPY_OUT (R552) -/

theorem copyOut_copies (link : s.hif.linkUp = true) : ∃ t, exec (.copyOut p true) s = .next t ∧ t.Ended Reg.logResult 0 ∧
    t = { s with regs := t.regs, armed := t.armed, out := t.out } ∧
    t.out = s.out ++ [.hostWrite (s.dmaTag 0 true) ((s.rd Reg.logHostLo).toNat / 4096 * 4096 + (s.rd Reg.logHostHi).toNat * 2 ^ 32)
      ((List.range logSlots).flatMap s.led.slotBytes)] :=
  ⟨_, congrArg Host.Outcome.next ((logWrite_free reached 4 _ free).trans (if_pos (Bool.and_eq_true_iff.mpr ⟨rfl, link⟩))),
    result_ended _ _ (by decide), rfl, rfl⟩

theorem copyOut_fails {d : Bool} (down : d = false ∨ s.hif.linkUp = false) : ∃ t, exec (.copyOut p d) s = .next t ∧
    t.Ended Reg.logResult 7 ∧ t.led.log = s.led.log ∧ t.count (Reg.hifCountLo 5) = s.count (Reg.hifCountLo 5) + 1 ∧
    t.events Ev.hifDmaError = satAdd (2 ^ 48 - 1) (s.events Ev.hifDmaError) 1 := by
  have told := Recorded.noteFor ((s.disarm 14).inc (Reg.hifCountLo 5)) Ev.hifDmaError 0 []
  have shut : ¬(d && (s.disarm 14).hif.linkUp) = true := by
    show ¬(d && s.hif.linkUp) = true
    obtain h | h := down <;> simp [h]
  refine ⟨_, congrArg Host.Outcome.next ((logWrite_free reached 4 _ free).trans (if_neg shut)), result_ended _ _ (by decide),
    LedRecorded.log told.led, (told.count _ (by decide)).trans (count_inc_same (s.disarm 14) _), ?_⟩
  exact (noteFor_events ((s.disarm 14).inc (Reg.hifCountLo 5)) Ev.hifDmaError 0 [] Ev.hifDmaError (awake_of_logCmd reached)
    (by decide) (by decide)).trans (if_pos rfl)

/-! ## The calibration page (R564 to R566) -/

theorem calWrite_of_other (other : s.ctl.mode ≠ .ready) : exec (.calWrite p) s = .next ((s.disarm 14).result Reg.logResult 4) :=
  congrArg Host.Outcome.next ((logWrite_free reached 5 _ free).trans (if_pos other))

section
variable (ready : s.ctl.mode = .ready)
include ready

theorem calWrite_of_unarmed (unarmed : s.isArmed 14 = false) :
    exec (.calWrite p) s = .next ((s.disarm 14).result Reg.logResult 3) :=
  congrArg Host.Outcome.next ((logWrite_free reached 5 _ free).trans ((if_neg (not_not.mpr ready)).trans (if_pos unarmed)))

variable (armed : s.isArmed 14 = true)
include armed

theorem calWrite_of_bad {i : Nat} (bad : calFirstBad s.calStage = some i) :
    exec (.calWrite p) s = .next (((s.disarm 14).setFld Reg.logResult 31 18 i).result Reg.logResult 5) := by
  have stage : (s.disarm 14).calStage = s.calStage := rfl
  refine congrArg Host.Outcome.next ((logWrite_free reached 5 _ free).trans
    ((if_neg (not_not.mpr ready)).trans ((if_neg (by rw [armed]; decide)).trans ?_)))
  rw [stage, bad]

/-- The store of the calibration page. -/
abbrev State.calStore (s : State) : StoreReq := ⟨.calibration, costPage, .calPage s.calToStore, .unit 14 0, false⟩

theorem calWrite_of_good (good : calFirstBad s.calStage = none) : exec (.calWrite p) s =
    .next (if ((s.disarm 14).requestStore s.calStore).2 then
      { ((s.disarm 14).requestStore s.calStore).1 with led := { ((s.disarm 14).requestStore s.calStore).1.led with cmd := some 5 } }
    else ((s.disarm 14).requestStore s.calStore).1.result Reg.logResult 9) := by
  have stage : (s.disarm 14).calStage = s.calStage := rfl
  have page : (s.disarm 14).calToStore = s.calToStore := by
    unfold State.calToStore
    rw [stage]
    rfl
  refine congrArg Host.Outcome.next ((logWrite_free reached 5 _ free).trans
    ((if_neg (not_not.mpr ready)).trans ((if_neg (by rw [armed]; decide)).trans ?_)))
  rw [stage, good]
  dsimp only
  rw [page]

end

end

end Sys2Proof.Machine
end

section
/-! What CAL_READ and LOG_READ_INDEX show, and the Ledger's statement (R544, R547, R549, R550, R552, R565, R571). -/

namespace Sys2Proof.Machine

open Sys2Proof

/-! ## Tables shown in registers -/

theorem rd_clearRegs (s : State) {lo hi k : Nat} (above : lo ≤ k) (below : k < hi) : (s.clearRegs lo hi).rd k = regDefault k := by
  have gone : (SMap.dropRange s.regs lo hi).lookup k = none := by
    refine List.lookup_eq_none_iff.mpr fun e mem => ?_
    have outside := (List.mem_filter.mp mem).2
    refine bne_iff_ne.mpr fun same => ?_
    simp [← same, above, below] at outside
  unfold State.rd State.clearRegs SMap.get
  rw [gone]

theorem regDefault_calStage {i : Nat} (h : i < 16384) : regDefault (Reg.logCalStage i) = 0 := by
  have key : Reg.logCalStage i % 0x2000000 = 0xE10000 + 4 * i := by
    unfold Reg.logCalStage
    omega
  have unit : (0xE10000 + 4 * i) / 0x100000 = 14 := by omega
  unfold regDefault regReset
  rw [key]
  extract_lets u
  rw [show u = 14 from unit]
  exact congrArg (BitVec.ofNat 32) ((if_neg (by omega)).trans (if_neg (by omega)))

/-- The words of a table written one by one read as the table has them; a word that it does not list keeps its value. -/
theorem rd_foldl_wr_table {key : Nat → Nat} (inj : Function.Injective key) (m : SMap Word) (rising : m.Pairwise (fun p q => p.1 < q.1))
    (s : State) (i : Nat) : (m.foldl (fun s e => s.wr (key e.1) e.2) s).rd (key i) = (m.lookup i).getD (s.rd (key i)) := by
  induction m generalizing s with
  | nil => rfl
  | cons e m ih =>
    obtain ⟨a, v⟩ := e
    obtain ⟨first, rest⟩ := List.pairwise_cons.mp rising
    rw [List.foldl_cons, ih rest]
    by_cases same : i = a
    · have later : m.lookup i = none :=
        List.lookup_eq_none_iff.mpr fun e mem => bne_iff_ne.mpr (by have := first e mem; dsimp only at this; omega)
      rw [later, List.lookup_cons, same]
      simp [rd_wr_self]
    · rw [List.lookup_cons, show (i == a) = false from beq_eq_false_iff_ne.mpr same]
      exact congrArg ((m.lookup i).getD ·) (rd_wr_ne _ _ _ _ fun e => same (inj e))

theorem logCalStage_injective : Function.Injective Reg.logCalStage := fun a b h => by
  unfold Reg.logCalStage at h
  omega

theorem foldl_wr_regs {α : Type} (l : List α) (key : α → Nat) (val : α → Word) (s : State) :
    ∃ regs, l.foldl (fun s e => s.wr (key e) (val e)) s = { s with regs := regs } := by
  induction l generalizing s with
  | nil => exact ⟨_, rfl⟩
  | cons e l ih => exact ih (s.wr (key e) (val e))

theorem calWord_eq (s : State) (i : Nat) : s.calWord i = (s.led.cal.lookup i).getD 0 := by
  unfold State.calWord SMap.get
  cases s.led.cal.lookup i <;> rfl

section
variable {s : State} {p : Path}

theorem calRead_shows (reached : s.Reaches p Reg.logCmd) (free : s.led.cmd = none) (wf : SMap.wf zeroWord s.led.cal = true) :
    ∃ t, exec (.calRead p) s = .next t ∧ (∀ i < 16384, t.rd (Reg.logCalStage i) = s.calWord i) ∧ t.Ended Reg.logResult 0 ∧
      t = { s with regs := t.regs, armed := t.armed } := by
  obtain ⟨regs, shown⟩ := foldl_wr_regs s.led.cal (fun e => Reg.logCalStage e.1) (fun e => e.2)
    ((s.disarm 14).clearRegs (Reg.logCalStage 0) (Reg.logCalStage 16384))
  refine ⟨_, congrArg Host.Outcome.next ((logWrite_free reached 6 _ free).trans (congrArg (State.result · Reg.logResult 0) shown)),
    fun i below => ?_, result_ended _ _ (by decide), rfl⟩
  have other : Reg.logCalStage i ≠ Reg.logResult := by
    unfold Reg.logCalStage Reg.logResult
    omega
  rw [rd_result_ne _ 0 other, ← shown, rd_foldl_wr_table logCalStage_injective _ ((SMap.wf_iff _ _).mp wf).1 _ i, calWord_eq,
    rd_clearRegs _ (by unfold Reg.logCalStage; omega) (by unfold Reg.logCalStage; omega), regDefault_calStage below]

theorem logCmdUnknown_ends (reached : s.Reaches p Reg.logCmd) (free : s.led.cmd = none) {op : Fin 16} (undefined : 7 ≤ op.val) :
    ∃ t, exec (.logCmdUnknown p op) s = .next t ∧ t.Ended Reg.logResult 8 ∧ t = { s with regs := t.regs, armed := t.armed } :=
  ⟨_, congrArg Host.Outcome.next ((logWrite_free reached op.val _ free).trans (if_pos undefined)), result_ended _ _ (by decide), rfl⟩

theorem logCmdUnknown_nothing (reached : s.Reaches p Reg.logCmd) (free : s.led.cmd = none) {op : Fin 16} (defined : op.val < 7) :
    ∃ t, exec (.logCmdUnknown p op) s = .next t ∧ t = { s with armed := t.armed } :=
  ⟨_, congrArg Host.Outcome.next ((logWrite_free reached op.val _ free).trans (if_neg (Nat.not_le.mpr defined))), rfl⟩

/-! ## LOG_READ_INDEX (R552) -/

theorem logReadData_injective : Function.Injective Reg.logReadData := fun a b h => by
  unfold Reg.logReadData at h
  omega

theorem logReadIndex_shows (reached : s.Reaches p Reg.logReadIndex) (v : Word) {k : Nat} (at_ : k = bits v 17 0) :
    ∃ t, exec (.logReadIndexWrite p v) s = .next t ∧ t = { s with regs := t.regs, armed := t.armed } ∧
      (k < logSlots → t.rd Reg.logReadIndex = BitVec.ofNat 32 (2 ^ 31 + k) ∧
        ∀ w < 16, t.rd (Reg.logReadData w) = BitVec.ofNat 32 (ofBe (slice (s.led.slotBytes k) (4 * w) 4))) ∧
      (logSlots ≤ k → t.rd Reg.logReadIndex = BitVec.ofNat 32 k ∧ ∀ w < 16, t.rd (Reg.logReadData w) = s.rd (Reg.logReadData w)) := by
  have gated : exec (.logReadIndexWrite p v) s = .next ((s.disarm 14).logIndexEffect v) :=
    congrArg Host.Outcome.next (hostWrite_of_reaches v _ reached (by decide))
  have data {w : Nat} (low : w < 16) : Reg.logReadData w ≠ Reg.logReadIndex := by
    unfold Reg.logReadData Reg.logReadIndex
    omega
  by_cases below : k < logSlots
  · obtain ⟨regs, shown⟩ := foldl_wr_regs (List.range 16) Reg.logReadData
      (fun w => BitVec.ofNat 32 (ofBe (slice (s.led.slotBytes k) (4 * w) 4))) (s.disarm 14)
    have copies : (s.disarm 14).logIndexEffect v =
        ({ s.disarm 14 with regs := regs } : State).wr Reg.logReadIndex (BitVec.ofNat 32 (2 ^ 31 + k)) := by
      unfold State.logIndexEffect
      rw [← at_]
      refine (if_neg (Nat.not_le.mpr below)).trans ?_
      exact congrArg (fun x : State => x.wr Reg.logReadIndex (BitVec.ofNat 32 (2 ^ 31 + k))) shown
    refine ⟨_, gated.trans (congrArg Host.Outcome.next copies), rfl, fun _ => ⟨rd_wr_self .., fun w low => ?_⟩,
      fun above => absurd below (Nat.not_lt.mpr above)⟩
    rw [rd_wr_ne _ _ _ _ (data low), ← shown]
    exact rd_foldl_wr_range _ logReadData_injective _ low
  · have outside : (s.disarm 14).logIndexEffect v = (s.disarm 14).wr Reg.logReadIndex (BitVec.ofNat 32 k) := by
      unfold State.logIndexEffect
      rw [← at_]
      exact if_pos (Nat.not_lt.mp below)
    exact ⟨_, gated.trans (congrArg Host.Outcome.next outside), rfl, fun h => absurd h below,
      fun _ => ⟨rd_wr_self .., fun w low => rd_wr_ne _ _ _ _ (data low)⟩⟩

end

/-! ## CAL_WRITE, put together (R565) -/

theorem calFirstBad_lt {w : Nat → Word} {i : Nat} (bad : calFirstBad w = some i) : i < 16384 := by
  unfold calFirstBad at bad
  exact List.mem_range.mp (List.mem_of_find?_eq_some bad)

theorem fld_setFld_result (s : State) (k i code : Nat) (below : i < 16384) : ((s.setFld k 31 18 i).result k code).fld k 31 18 = i := by
  unfold State.fld State.result State.setFld
  rw [rd_wr_self, rd_wr_self, bits_setBits_out _ _ _ _ _ _ (.inr (by decide)) (by decide),
    bits_setBits_out _ _ _ _ _ _ (.inr (by decide)) (by decide)]
  exact bits_setBits _ _ _ _ (by decide) (by decide) below

theorem calWrite_ends {s : State} {p : Path} (reached : s.Reaches p Reg.logCmd) (free : s.led.cmd = none) :
    ∃ t, exec (.calWrite p) s = .next t ∧ t.led.cal = s.led.cal ∧ (s.ctl.mode ≠ .ready → t.Ended Reg.logResult 4 ∧ t.st = s.st) ∧
      (s.ctl.mode = .ready → s.isArmed 14 = false → t.Ended Reg.logResult 3 ∧ t.st = s.st) ∧
      (s.ctl.mode = .ready → s.isArmed 14 = true → s.st.queue.length < storeCap →
        (∀ i, calFirstBad s.calStage = some i → t.Ended Reg.logResult 5 ∧ t.fld Reg.logResult 31 18 = i ∧ t.st = s.st) ∧
        (calFirstBad s.calStage = none → t.led.cmd = some 5 ∧
          ∃ x, (x ∈ t.st.queue ∨ t.st.mram = some x ∨ t.st.nor = some x) ∧ x.pay = .calPage s.calToStore)) := by
  by_cases ready : s.ctl.mode = .ready
  swap
  · exact ⟨_, calWrite_of_other reached free ready, rfl, fun _ => ⟨result_ended _ _ (by decide), rfl⟩, fun h => absurd h ready,
      fun h => absurd h ready⟩
  cases armed : s.isArmed 14 with
  | false =>
    exact ⟨_, calWrite_of_unarmed reached free ready armed, rfl, fun h => absurd ready h, fun _ _ => ⟨result_ended _ _ (by decide), rfl⟩,
      fun _ h => absurd h (by decide)⟩
  | true =>
    cases page : calFirstBad s.calStage with
    | some i =>
      refine ⟨_, calWrite_of_bad reached free ready armed page, rfl, fun h => absurd ready h, fun _ h => absurd h (by decide),
        fun _ _ _ => ⟨fun j same => ?_, fun h => absurd h (Option.some_ne_none i)⟩⟩
      cases same
      exact ⟨result_ended _ _ (by decide), fld_setFld_result _ _ _ _ (calFirstBad_lt page), rfl⟩
    | none =>
      have kept := LedRecorded.requestStore (s := s.disarm 14) ready s.calStore
      refine ⟨_, calWrite_of_good reached free ready armed page, ?_, fun h => absurd ready h, fun _ h => absurd h (by decide),
        fun _ _ room => ⟨fun j same => absurd same.symm (Option.some_ne_none j), fun _ => ?_⟩⟩
      · split
        · exact kept.cal
        · exact kept.cal
      · have taken : ((s.disarm 14).requestStore s.calStore).2 = true := congrArg Prod.snd (requestStore_of_room (s := s.disarm 14) _ room)
        rw [if_pos taken]
        obtain ⟨x, at_, pay, _⟩ := Outstanding.requestStore (s := s.disarm 14) s.calStore room
        exact ⟨rfl, x, at_, pay⟩

end Sys2Proof.Machine

open Sys2Proof Sys2Proof.Machine

/-- Settles O59: each row is followed through its gate; recording an event leaves the log, the mark, the calibration page and the stores
alone, staging room keeps what is staged in front, and a store that a queue with room takes waits or runs. -/
theorem logIsStagedStoredAndCommanded : Obligations.LogIsStagedStoredAndCommanded := by
  refine ⟨fun s none_ => foldClose_of_none none_, fun s o os opened early => foldClose_of_early opened early, fun s o os opened due => ?_,
    fun s => ⟨fun waits => batchOffer_waits waits, ?_⟩, fun g s scanned => ?_, fun g s unscanned => ?_, fun s d at_ => ⟨fun stays => ?_, ?_⟩,
    fun p s reached => ⟨fun busy d i mem => ?_, fun free => ?_⟩, fun p v s k reached at_ => logReadIndex_shows reached v at_⟩
  · refine ⟨fun drops => foldClose_kept opened due (close_drops _ _ _ drops), fun keep healthy room => ?_, fun keep healthy full reported => ?_⟩
    · exact foldClose_kept opened due (close_stages (l := { s.led with opened := os }) s.now o.rcd keep healthy room)
    · have shut := foldClose_lost opened due (close_full (l := { s.led with opened := os }) s.now o.rcd keep healthy full) reported
      refine ⟨_, shut, rfl, ?_, ?_, rfl⟩
      · show (dropOldestBelow o.rcd.level s.led.staged).elim _ _ = _
        cases dropOldestBelow o.rcd.level s.led.staged <;> rfl
      · refine (congrArg (bits · 31 16) (rd_wr_self ..)).trans (bits_setBits _ _ _ _ (by decide) (by decide) ?_)
        unfold satAdd
        split <;> omega
  · intro b batch scanned thawed healthy none_ due empty idle powered energy
    rw [batch]
    exact batchOffer_starts scanned thawed healthy none_ due empty idle powered energy
  · show execLogScan g s = _
    unfold execLogScan
    rw [scanned]
    rfl
  · refine ⟨_, logScan_of_unscanned g unscanned, rfl, rfl, rfl, rfl, rfl, fun empty => ?_, fun k r at_ highest _ => ?_⟩
    · have none_ := newest_of_empty empty
      refine ⟨congrArg (Option.elim · 0 (· / 64)) none_, ?_⟩
      show s.led.fillOf _ = 0
      unfold Ledger.fillOf
      rw [empty]
      rfl
    · have block : s.led.newest.elim 0 (· / 64) = k / 64 := congrArg (Option.elim · 0 (· / 64)) (newest_of_highest at_ highest)
      obtain ⟨place, above⟩ := fillOf_fill s.led (k / 64)
      refine ⟨block, ?_⟩
      show (∀ e ∈ s.led.log, e.1 / 64 = k / 64 → e.2.isSome = true → e.1 % 64 < s.led.fillOf (s.led.newest.elim 0 (· / 64))) ∧
        ∃ e, e ∈ s.led.log ∧ e.1 / 64 = k / 64 ∧ e.2.isSome = true ∧ s.led.fillOf (s.led.newest.elim 0 (· / 64)) = e.1 % 64 + 1
      rw [block]
      refine ⟨fun e mem same holds => above e mem ⟨same, holds⟩, ?_⟩
      obtain zero | ⟨e, mem, ⟨same, holds⟩, last⟩ := place
      · exact absurd (above _ at_ ⟨rfl, rfl⟩) (by omega)
      · exact ⟨e, mem, same, holds, last⟩
  · show Host.Outcome.next (if s.led.freezeStart + clamp 1 10000 (s.fld Reg.logFreezeMs 15 0) * 1000000 ≤ s.now then s.thawLog 2 else s) = _
    refine congrArg Host.Outcome.next (stays.elim (fun thawed => ite_same (thawLog_of_thawed 2 thawed) rfl) fun early => if_neg ?_)
    omega
  · intro frozen expired awake
    obtain ⟨ended, st, log, counted⟩ := thawLog_of_frozen 2 frozen awake
    exact ⟨_, congrArg Host.Outcome.next (if_pos (at_ ▸ expired)), ended, st, log, counted⟩
  · simp only [List.mem_cons, List.not_mem_nil, or_false] at mem
    obtain rfl | rfl | rfl | rfl | rfl | rfl | rfl := mem <;> exact ended_of_busy reached busy _ _
  · exact ⟨logFreeze_again reached free, fun b at_ thawed room => by rw [at_] at room ⊢; exact logFreeze_keeps reached free thawed room,
      logThaw_ends reached free, logThaw_refused reached free,
      fun n at_ => ⟨logRelease_done reached free at_, logRelease_stores reached free at_⟩,
      copyOut_copies reached free, fun d => copyOut_fails reached free, calWrite_ends reached free,
      fun wf _ => calRead_shows reached free wf, fun op => ⟨logCmdUnknown_ends reached free, logCmdUnknown_nothing reached free⟩⟩
end

section
/-! Rings and their completion records: what an operation leaves of them, and the record that a completion writes (R515, R516, R521). -/

namespace Sys2Proof.Machine

open Sys2Proof

/-! ## Operations that leave the rings' registers and indices -/

/-- From s to t nothing has changed but what recording an event writes, of registers, of ring indices and of ring commands; what has left
the module has left. -/
structure RingsKept (s t : State) : Prop where
  rd : ∀ k, ¬RecordKey k → t.rd k = s.rd k
  ring : ∀ i, i % 16 ≠ 12 → SMap.get zeroOf t.hif.ringMod i = SMap.get zeroOf s.hif.ringMod i
  cmds : t.hif.ringCmds = s.hif.ringCmds
  link : t.hif.linkUp = s.hif.linkUp
  out : ∃ os, t.out = s.out ++ os

namespace RingsKept

theorem refl (s : State) : RingsKept s s := ⟨fun _ _ => rfl, fun _ _ => rfl, rfl, rfl, [], (List.append_nil _).symm⟩

theorem trans {s t u : State} (h : RingsKept s t) (k : RingsKept t u) : RingsKept s u := by
  obtain ⟨os, out⟩ := h.out
  obtain ⟨ps, out'⟩ := k.out
  exact ⟨fun i w => (k.rd i w).trans (h.rd i w), fun i w => (k.ring i w).trans (h.ring i w), k.cmds.trans h.cmds, k.link.trans h.link,
    os ++ ps, by rw [out', out, List.append_assoc]⟩

theorem ite {s a b : State} {c : Prop} [Decidable c] (h : RingsKept s a) (k : RingsKept s b) : RingsKept s (if c then a else b) := by
  split <;> assumption

theorem foldl {α : Type} {f : State → α → State} (l : List α) (s : State) (h : ∀ x a, RingsKept x (f x a)) : RingsKept s (l.foldl f s) := by
  induction l generalizing s with
  | nil => exact refl s
  | cons a l ih => exact (h s a).trans (ih (f s a))

theorem of_recorded {s t : State} (h : Recorded s t) : RingsKept s t := by
  obtain ⟨_, _, _, _, _, hif⟩ := h.hif
  exact ⟨h.rd, h.ring, by rw [hif], by rw [hif], h.out⟩

/-- An operation that touches neither registers, rings nor outputs. -/
theorem of_touches {m : List Part} {s t : State} (h : Touches m s t) (regs : Part.regs ∉ m := by decide) (hif : Part.hif ∉ m := by decide)
    (out : Part.out ∉ m := by decide) : RingsKept s t :=
  ⟨fun k _ => rd_of_regs (h.regs regs) k, fun i _ => by rw [h.hif hif], by rw [h.hif hif], by rw [h.hif hif],
    [], by rw [h.out out, List.append_nil]⟩

theorem note (s : State) (e : EvKind) (ps : List Byte) : RingsKept s (s.note e ps) := of_recorded (.note ..)

theorem noteFor (s : State) (e : EvKind) (n : Nat) (ps : List Byte) : RingsKept s (s.noteFor e n ps) := of_recorded (.noteFor ..)

theorem dmaError (s : State) (n : Nat) : RingsKept s (s.dmaError n) := (of_touches (State.inc_touches ..)).trans (noteFor ..)

theorem gatesLost (s : State) (c : Nat) : RingsKept s (s.gatesLost c) :=
  foldl _ s fun x o => ite ((of_touches (State.setGate_touches ..)).trans (noteFor ..)) (refl x)

end RingsKept

/-! ## A completion record -/

/-- The registers that a completion record of allotment n follows. -/
def completionKeys (n : Nat) : List Nat :=
  [Reg.hifAllotCtrl n, privKey n (Reg.hifRingBaseLo 11), privKey n (Reg.hifRingBaseHi 11), privKey n (Reg.hifRingCfg 11)]

/-- In s and u the next completion record of allotment n goes to the same place with the same PHASE. -/
structure SameRing (n : Nat) (s u : State) : Prop where
  rd : ∀ k ∈ completionKeys n, u.rd k = s.rd k
  index : u.ringM n 11 = s.ringM n 11
  link : u.hif.linkUp = s.hif.linkUp

namespace SameRing

variable {n : Nat} {s u : State}

theorem refl (n : Nat) (s : State) : SameRing n s s := ⟨fun _ _ => rfl, rfl, rfl⟩

theorem trans {v : State} (h : SameRing n s u) (k : SameRing n u v) : SameRing n s v :=
  ⟨fun i w => (k.rd i w).trans (h.rd i w), k.index.trans h.index, k.link.trans h.link⟩

theorem completionKeys_record (known : n < 64) {k : Nat} (h : k ∈ completionKeys n) : ¬RecordKey k := by
  simp only [completionKeys, List.mem_cons, List.not_mem_nil, or_false, Reg.hifAllotCtrl, privKey, Reg.hifRingBaseLo, Reg.hifRingBaseHi,
    Reg.hifRingCfg] at h
  simp only [RecordKey, Reg.stwAlert, Reg.logLost, Reg.stwStoreDeferrals, Reg.hifCountLo]
  omega

theorem of_kept (known : n < 64) (h : RingsKept s u) : SameRing n s u :=
  ⟨fun k mem => h.rd k (completionKeys_record known mem), h.ring (n * 16 + 11) (by omega), h.link⟩

theorem of_fields (regs : u.regs = s.regs) (mod : u.hif.ringMod = s.hif.ringMod) (link : u.hif.linkUp = s.hif.linkUp) : SameRing n s u :=
  ⟨fun k _ => rd_of_regs regs k, by unfold State.ringM; rw [mod], link⟩

theorem of_regs (hif : u.hif = s.hif) (regs : ∀ k ∈ completionKeys n, u.rd k = s.rd k) : SameRing n s u :=
  ⟨regs, by unfold State.ringM; rw [hif], by rw [hif]⟩

theorem ringOn (h : SameRing n s u) : u.ringOn n 11 = s.ringOn n 11 :=
  congrArg (bit · 31) (h.rd _ (by simp [completionKeys]))

theorem ringLog2 (h : SameRing n s u) : u.ringLog2 n 11 = s.ringLog2 n 11 :=
  congrArg (fun w => clamp 4 16 (bits w 4 0)) (h.rd _ (by simp [completionKeys]))

theorem ringBase (h : SameRing n s u) : u.ringBase n 11 = s.ringBase n 11 := by
  unfold State.ringBase
  rw [h.rd _ (by simp [completionKeys]), h.rd (privKey n (Reg.hifRingBaseHi 11)) (by simp [completionKeys])]

theorem ringPhase (h : SameRing n s u) : u.ringPhase n 11 = s.ringPhase n 11 := by
  unfold State.ringPhase
  rw [h.index, h.ringLog2]

theorem dmaTag (h : SameRing n s u) : u.dmaTag n false = s.dmaTag n false := by
  have ctrl := h.rd (Reg.hifAllotCtrl n) (by simp [completionKeys])
  unfold State.dmaTag State.flg State.fld
  rw [ctrl]
  rfl

end SameRing

theorem ringM_of_kept {s t : State} (h : RingsKept s t) (n : Nat) {r : Nat} (host : r < 12) : t.ringM n r = s.ringM n r :=
  h.ring _ (by omega)

section
variable {n tag status pair b67 len idx ring : Nat}

/-- A completion with the link up and the completion ring on writes its record. -/
theorem complete_completes {s u : State} (same : SameRing n s u) (link : s.hif.linkUp = true) (on : s.ringOn n 11 = true) :
    s.Completes (u.complete n tag status pair b67 len idx ring) n tag status pair b67 len idx ring := by
  have goes : ¬(u.hif.linkUp = false ∨ u.ringOn n 11 = false) := by
    rw [same.link, same.ringOn, link, on]
    decide
  unfold State.complete
  rw [if_neg goes]
  extract_lets word
  have kept := RingsKept.of_recorded (Recorded.signal ((u.ringPut n 11 16
    ((completion tag status pair b67 len idx ring).take 12 ++ leBytes 4 word)).inc (Reg.hifCountLo 2)) n 0)
  obtain ⟨os, out⟩ := kept.out
  refine ⟨?_, ?_⟩
  · rw [out, ← same.dmaTag, ← same.ringBase, ← same.index, ← same.ringLog2, ← same.ringPhase]
    refine List.mem_append_left _ ?_
    exact List.mem_append_right _ (List.mem_singleton.mpr rfl)
  · refine (ringM_of_kept kept n (by decide)).trans ?_
    rw [← same.index]
    exact SMap.get_set_self ..

/-- Only the completion ring's index moves, and no ring command is lost. -/
theorem complete_rings (s : State) : ∀ i, i % 16 < 11 →
    SMap.get zeroOf (s.complete n tag status pair b67 len idx ring).hif.ringMod i = SMap.get zeroOf s.hif.ringMod i := by
  intro i host
  unfold State.complete
  split
  · rfl
  · extract_lets word
    have kept := RingsKept.of_recorded (Recorded.signal ((s.ringPut n 11 16
      ((completion tag status pair b67 len idx ring).take 12 ++ leBytes 4 word)).inc (Reg.hifCountLo 2)) n 0)
    refine (kept.ring i (by omega)).trans ?_
    exact SMap.get_set_ne _ _ _ _ _ (by omega)

theorem complete_rd (s : State) (k : Nat) : (s.complete n tag status pair b67 len idx ring).rd k = s.rd k :=
  rd_of_regs ((State.complete_touches ..).regs (by decide)) k

theorem complete_count (s : State) {k : Nat} (h2 : k ≠ Reg.hifCountLo 2) (other : ¬RecordKey k) :
    (s.complete n tag status pair b67 len idx ring).count k = s.count k := by
  unfold State.complete
  split
  · rfl
  · extract_lets word
    exact ((Recorded.signal _ n 0).count k other).trans (count_inc_ne _ h2)

theorem Completes_kept {s t u : State} (h : s.Completes t n tag status pair b67 len idx ring) (kept : RingsKept t u) :
    s.Completes u n tag status pair b67 len idx ring := by
  obtain ⟨written, index⟩ := h
  obtain ⟨os, out⟩ := kept.out
  exact ⟨by rw [out]; exact List.mem_append_left _ written, (ringM_of_kept kept n (by decide)).trans index⟩

end

/-! ## A descriptor is fetched (R517) -/

section
variable {n r : Nat} {s : State}

theorem link_of_mayFetch (may : s.mayFetch n r = true) : s.hif.linkUp = true ∧ s.ringOn n 11 = true := by
  unfold State.mayFetch at may
  simp only [Bool.and_eq_true] at may
  exact ⟨may.1.1.1.1.1, may.1.1.1.2⟩

/-- The state after the descriptor at the index of ring r has been fetched. -/
abbrev State.fetched (s : State) (n r : Nat) : State := (s.fetchNext n r).2.inc (Reg.hifCountLo 1)

theorem fetchNext_same (host : r ≠ 11) : SameRing n s (s.fetchNext n r).2 :=
  ⟨fun _ _ => rfl, SMap.get_set_ne _ _ _ _ _ (by omega), rfl⟩

theorem fetched_same (host : r ≠ 11) : SameRing n s (s.fetched n r) := (fetchNext_same host).trans ⟨fun _ _ => rfl, rfl, rfl⟩

theorem fetched_index : (s.fetched n r).ringM n r = (s.ringM n r + 1) % 65536 := SMap.get_set_self ..

end

theorem eq_of_touches_complete {s t : State} (h : Touches [.cnt, .hif, .out] s t) : t = { s with hif := t.hif, cnt := t.cnt, out := t.out } := by
  cases s
  cases t
  simp only [State.mk.injEq, true_and]
  exact ⟨h.regs (by decide), h.shadow (by decide), h.armed (by decide), h.now (by decide), h.ctl (by decide), h.pow (by decide),
    h.boot (by decide), h.led (by decide), h.hdg (by decide), h.tim (by decide), h.mram (by decide), h.st (by decide),
    h.fab (by decide), h.line (by decide), h.rows (by decide), h.cls (by decide), h.sch (by decide), h.mgd (by decide),
    h.asc (by decide), h.cph (by decide), h.kvt (by decide), h.yok (by decide), h.held (by decide), h.free (by decide), h.pending (by decide)⟩

end Sys2Proof.Machine
end

section
/-! Doorbells, command, inject and receive rings, and coalesced interrupts (R515 to R524, R527). -/

namespace Sys2Proof.Machine

open Sys2Proof

/-! ## Doorbells (R515) -/

/-- A register write of a window that takes commands acts; at most the unit's arm is cleared. -/
theorem privWrite_of_takes {s : State} {p : Path} {off : Nat} (i : Instr) (engine : Bool) (act : Nat → State → State) (h : s.Takes p off) :
    s.privWrite i p off engine act = act p.allot (s.touchArm p (off / 0x100000)) := by
  obtain ⟨bus, window, responds, notResetting, notFrozen, notFreezing⟩ := h
  have reaches : ¬(p.allot ≠ 0 ∧ (s.ctl.mode = .zeroized ∨ s.allotExists p.allot = false)) := by
    rintro ⟨own, zeroized | absent⟩
    · exact (window own).1 zeroized
    · exact absurd ((window own).2.symm.trans absent) (by decide)
  unfold State.privWrite
  dsimp only
  rw [if_neg bus, if_neg reaches, if_neg (by rw [responds]; decide)]
  cases state : s.allotState p.allot with
  | resetting => exact absurd state notResetting
  | frozen => exact absurd state notFrozen
  | freezing => exact absurd state notFreezing
  | _ => rfl

theorem touchArm_eq (s : State) (p : Path) (u : Nat) : ∃ armed, s.touchArm p u = { s with armed := armed } := by
  unfold State.touchArm
  split
  · split <;> exact ⟨_, rfl⟩
  · exact ⟨_, rfl⟩

section
variable {s : State} {p : Path} {r : Fin 16} (i : BitVec 16) (takes : s.Takes p Reg.hifDoorbell) (host : r.val < 13) (exists_ : s.ringExists r = true)
  (on : s.ringOn p.allot r = true)
include takes host exists_ on

theorem doorbell_gate : ∃ armed, exec (.doorbell p r i) s = .next (
    if s.doorbellOk p.allot r i.toNat then
      State.inc { s with armed := armed, hif := { s.hif with ringHost := SMap.set zeroOf s.hif.ringHost (p.allot * 16 + r) i.toNat } } (Reg.hifCountLo 0)
    else State.ringError { s with armed := armed } p.allot r) := by
  obtain ⟨armed, touched⟩ := touchArm_eq s p 2
  have gate : ¬(13 ≤ r.val ∨ s.ringExists r = false ∨ s.ringOn p.allot r = false) := by
    rw [exists_, on]
    simpa using host
  refine ⟨armed, congrArg Host.Outcome.next ((privWrite_of_takes _ false _ takes).trans ?_)⟩
  rw [show Reg.hifDoorbell / 0x100000 = 2 from rfl, touched]
  exact if_neg gate

theorem doorbell_takes (ok : s.doorbellOk p.allot r i.toNat = true) : ∃ t, exec (.doorbell p r i) s = .next t ∧ t.ringH p.allot r = i.toNat ∧
    (∀ m q, m * 16 + q ≠ p.allot * 16 + r.val → t.ringH m q = s.ringH m q) ∧
    t.count (Reg.hifCountLo 0) = s.count (Reg.hifCountLo 0) + 1 ∧
    t = { s with hif := { s.hif with ringHost := t.hif.ringHost }, cnt := t.cnt, armed := t.armed } := by
  obtain ⟨armed, gate⟩ := doorbell_gate i takes host exists_ on
  rw [if_pos ok] at gate
  refine ⟨_, gate, SMap.get_set_self .., fun m q other => SMap.get_set_ne _ _ _ _ _ other, ?_, rfl⟩
  exact count_inc_same { s with armed := armed, hif := { s.hif with ringHost := SMap.set zeroOf s.hif.ringHost (p.allot * 16 + r) i.toNat } } _

theorem doorbell_refused (bad : s.doorbellOk p.allot r i.toNat = false) : ∃ t, exec (.doorbell p r i) s = .next t ∧
    t.ringOn p.allot r = false ∧ t.hif.ringHost = s.hif.ringHost ∧ t.events Ev.ringError = satAdd (2 ^ 48 - 1) (s.events Ev.ringError) 1 := by
  obtain ⟨armed, gate⟩ := doorbell_gate i takes host exists_ on
  rw [if_neg (by rw [bad]; decide)] at gate
  have recorded := Recorded.noteFor ((State.setFlg { s with armed := armed } (privKey p.allot (Reg.hifRingCfg r)) 31 false).allotRuns p.allot)
    Ev.ringError p.allot (beBytes 1 r)
  have counted := noteFor_events ((State.setFlg { s with armed := armed } (privKey p.allot (Reg.hifRingCfg r)) 31 false).allotRuns p.allot)
    Ev.ringError p.allot (beBytes 1 r) Ev.ringError (resp_mode takes.2.2.1) (by decide) (by decide)
  obtain ⟨_, _, _, _, _, hif⟩ := recorded.hif
  refine ⟨_, gate, ?_, (congrArg HostIf.ringHost hif :), counted.trans (if_pos rfl)⟩
  have outside : ¬RecordKey (privKey p.allot (Reg.hifRingCfg r)) := by
    simp only [RecordKey, privKey, Reg.hifRingCfg, Reg.stwAlert, Reg.logLost, Reg.stwStoreDeferrals, Reg.hifCountLo]
    omega
  refine (congrArg (bit · 31) (recorded.rd _ outside)).trans ((congrArg (bit · 31) (rd_wr_self ..)).trans ?_)
  exact bit_setBits_self _ _ _ (by decide) (by decide)

end

/-! ## Coalesced interrupts (R527) -/

theorem irqCoalesceTimer_waits {n : Fin 64} {v : Fin 2} {s : State}
    (h : SMap.get zeroOf s.hif.unsig (n.val * 2 + v.val) = 0 ∨
      s.now < SMap.get zeroOf s.hif.unsigAt (n.val * 2 + v.val) + s.fld (privKey n Reg.hifIrqCfg) 9 0 * 1000) :
    exec (.irqCoalesceTimer n v) s = .next s := if_pos h

theorem fire_masked {s : State} {v : Nat} (masked : s.vectorMasked v = true) :
    v ∈ (s.fire v).hif.pba ∧ (s.fire v).out = s.out ∧ s.fire v = { s with hif := (s.fire v).hif, out := (s.fire v).out } := by
  unfold State.fire
  rw [if_pos masked]
  refine ⟨?_, rfl, rfl⟩
  show v ∈ if s.hif.pba.contains v = true then s.hif.pba else v :: s.hif.pba
  split
  next held => exact List.contains_iff_mem.mp held
  · exact List.mem_cons_self

theorem fire_unmasked {s : State} {v : Nat} (open_ : s.vectorMasked v = false) : s.fire v = s.emit (.msix v) :=
  if_neg (by rw [open_]; decide)

theorem fire_unsig (s : State) (v : Nat) : (s.fire v).hif.unsig = s.hif.unsig := by
  unfold State.fire
  split <;> rfl

theorem irqCoalesceTimer_fires {n : Fin 64} {v : Fin 2} {s : State} (due : SMap.get zeroOf s.hif.unsig (n.val * 2 + v.val) ≠ 0)
    (late : SMap.get zeroOf s.hif.unsigAt (n.val * 2 + v.val) + s.fld (privKey n Reg.hifIrqCfg) 9 0 * 1000 ≤ s.now) :
    ∃ t, exec (.irqCoalesceTimer n v) s = .next t ∧ SMap.get zeroOf t.hif.unsig (n.val * 2 + v.val) = 0 ∧ t = { s with hif := t.hif, out := t.out } ∧
      if s.vectorMasked (32 * n + v) = true then 32 * n.val + v.val ∈ t.hif.pba ∧ t.out = s.out
      else t.out = s.out ++ [.msix (32 * n + v)] ∧ t.hif.pba = s.hif.pba := by
  have fires : exec (.irqCoalesceTimer n v) s =
      .next (State.fire { s with hif := { s.hif with unsig := SMap.set zeroOf s.hif.unsig (n.val * 2 + v.val) 0 } } (32 * n.val + v.val)) :=
    if_neg (not_or.mpr ⟨due, Nat.not_lt.mpr late⟩)
  have cleared : SMap.get zeroOf (State.fire { s with hif := { s.hif with unsig := SMap.set zeroOf s.hif.unsig (n.val * 2 + v.val) 0 } }
      (32 * n.val + v.val)).hif.unsig (n.val * 2 + v.val) = 0 := by
    rw [fire_unsig]
    exact SMap.get_set_self zeroOf s.hif.unsig _ 0
  refine ⟨_, fires, cleared, ?_⟩
  split
  next masked =>
    obtain ⟨pending, out, rest⟩ := fire_masked
      (s := { s with hif := { s.hif with unsig := SMap.set zeroOf s.hif.unsig (n.val * 2 + v.val) 0 } }) masked
    exact ⟨rest, pending, out⟩
  next open_ =>
    rw [fire_unmasked (s := { s with hif := { s.hif with unsig := SMap.set zeroOf s.hif.unsig (n.val * 2 + v.val) 0 } })
      (Bool.eq_false_of_not_eq_true open_)]
    exact ⟨rfl, rfl, rfl⟩

/-! ## Receive buffers (R524) -/

/-- The receive ring of a running allotment offers a buffer of a legal length. -/
abbrev State.offersBuffer (s : State) (n l : Nat) : Prop :=
  s.hif.linkUp = true ∧ s.ringOn n 10 = true ∧ s.allotState n = .running ∧ s.ringWaiting n 10 ≠ 0 ∧ 256 ≤ l ∧ l ≤ 16384 ∧ l % 64 = 0

/-- The state once the buffer of an entry is posted. -/
def State.posted (s : State) (n : Nat) (entry : List Byte) : State :=
  let bufs := SMap.get (fun _ => []) s.hif.bufs n ++ [(leAt entry 0 8, leAt entry 8 4, leAt entry 12 4, s.ringM n 10)]
  { (s.fetchNext n 10).2 with hif := { (s.fetchNext n 10).2.hif with bufs := SMap.set (fun _ => []) s.hif.bufs n bufs } }

theorem puntDelivery_posts {n : Fin 64} {entry : List Byte} {s : State} (offers : s.offersBuffer n (leAt entry 8 4)) :
    exec (.puntDelivery n entry) s = .next ((s.posted n entry).drainPunts n 256) := by
  obtain ⟨link, on, running, waits, long, short, whole⟩ := offers
  have runs : ¬(s.hif.linkUp = false ∨ s.ringOn n 10 = false ∨ s.allotState n ≠ .running ∨ s.ringWaiting n 10 = 0) := by
    simp [link, on, running, waits]
  refine (if_neg runs).trans (if_neg ?_)
  omega

/-- Without a punt of the allotment the buffer waits. -/
theorem drainPunts_of_none {n : Nat} {s : State} (none_ : ∀ x ∈ s.asc.punts, x.1 ≠ n) (k : Nat) : s.drainPunts n k = s := by
  have absent : s.asc.punts.find? (fun p => p.1 == n) = none :=
    List.find?_eq_none.mpr fun x mem => by simpa using none_ x mem
  cases k with
  | zero => rfl
  | succ k =>
    unfold State.drainPunts
    split
    · rw [absent]
    · rfl

theorem complete_mem_out {s : State} {n tag st pair b67 len idx ring : Nat} {o : Output} (mem : o ∈ s.out) :
    o ∈ (s.complete n tag st pair b67 len idx ring).out := by
  unfold State.complete
  split
  · exact mem
  · extract_lets word
    exact (Recorded.signal _ n 0).mem_out (List.mem_append_left _ mem)

/-- The punt that waits goes into the buffer that the allotment has posted. -/
theorem deliverPunt_of_buffer {n : Nat} {s : State} {addr len tag idx : Nat} (buffer : SMap.get (fun _ => []) s.hif.bufs n = [(addr, len, tag, idx)])
    (input : Nat) (f : List Byte) : s.deliverPunt n input f =
      (State.dma { s with hif := { s.hif with bufs := SMap.set (fun _ => []) s.hif.bufs n [] } } n true addr (f.take len)).complete
        n tag (if len < f.length then 8 else 0) 0xFF input f.length idx 10 := by
  unfold State.deliverPunt
  rw [buffer]

/-- The state once the punts are taken and the one buffer of the allotment is used. -/
def State.puntTaken (s : State) (n : Nat) : State :=
  { s with asc := { s.asc with punts := [] }, hif := { s.hif with bufs := SMap.set (fun _ => []) s.hif.bufs n [] } }

theorem drainPunts_of_sole {n : Nat} {s : State} (link : s.hif.linkUp = true) (on : s.ringOn n 10 = true) {addr len tag idx : Nat}
    (buffer : SMap.get (fun _ => []) s.hif.bufs n = [(addr, len, tag, idx)]) {x : Nat × List Byte} (sole : s.asc.punts = [(n, x)]) (k : Nat) :
    s.drainPunts n (k + 1) = ((s.puntTaken n).dma n true addr (x.2.take len)).complete
      n tag (if len < x.2.length then 8 else 0) 0xFF x.1 x.2.length idx 10 := by
  have ready : s.bufReady n = true := by
    unfold State.bufReady
    rw [link, on, buffer]
    rfl
  have oldest : s.asc.punts.find? (fun p => p.1 == n) = some (n, x) := by
    rw [sole]
    simp
  have rest : s.asc.punts.erase (n, x) = [] := by
    rw [sole]
    simp
  unfold State.drainPunts
  rw [if_pos ready, oldest]
  dsimp only
  rw [rest, deliverPunt_of_buffer (s := { s with asc := { s.asc with punts := [] } }) buffer]
  refine drainPunts_of_none (fun p mem => ?_) k
  rw [(State.complete_touches ..).asc (by decide)] at mem
  cases mem

theorem puntDelivery_waits {n : Fin 64} {entry : List Byte} {s : State} (offers : s.offersBuffer n (leAt entry 8 4))
    (none_ : ∀ x ∈ s.asc.punts, x.1 ≠ n.val) : ∃ t, exec (.puntDelivery n entry) s = .next t ∧ t.ringM n 10 = (s.ringM n 10 + 1) % 65536 ∧
      SMap.get (fun _ => []) t.hif.bufs n = SMap.get (fun _ => []) s.hif.bufs n ++ [(leAt entry 0 8, leAt entry 8 4, leAt entry 12 4, s.ringM n 10)] ∧
      t = { s with hif := t.hif } := by
  have posts := puntDelivery_posts offers
  rw [drainPunts_of_none (s := s.posted n entry) none_] at posts
  exact ⟨_, posts, SMap.get_set_self .., SMap.get_set_self .., rfl⟩

theorem dmaTag_of_regs {s t : State} (regs : t.regs = s.regs) (n : Nat) (payload : Bool) : t.dmaTag n payload = s.dmaTag n payload := by
  unfold State.dmaTag State.flg State.fld State.rd
  rw [regs]

theorem puntTaken_same (n : Nat) (entry : List Byte) (s : State) (addr : Nat) (bs : List Byte) :
    SameRing n s (((s.posted n entry).puntTaken n).dma n true addr bs) := by
  refine (fetchNext_same (r := 10) (by decide)).trans (.of_fields ?_ ?_ ?_) <;>
    dsimp only [State.posted, State.puntTaken, State.dma, State.emit]

theorem puntDelivery_takes {n : Fin 64} {entry : List Byte} {s : State} (offers : s.offersBuffer n (leAt entry 8 4)) {x : Nat × List Byte}
    (sole : s.asc.punts = [(n.val, x)]) (empty : SMap.get (fun _ => []) s.hif.bufs n = []) (on : s.ringOn n 11 = true) :
    ∃ t, exec (.puntDelivery n entry) s = .next t ∧ .hostWrite (s.dmaTag n true) (leAt entry 0 8) (x.2.take (leAt entry 8 4)) ∈ t.out ∧
      s.Completes t n (leAt entry 12 4) (if leAt entry 8 4 < x.2.length then 8 else 0) 0xFF x.1 x.2.length (s.ringM n 10) 10 ∧
      t.asc = { s.asc with punts := [] } := by
  obtain ⟨link, receives, _⟩ := id offers
  have buffer : SMap.get (fun _ => []) (s.posted n entry).hif.bufs n = [(leAt entry 0 8, leAt entry 8 4, leAt entry 12 4, s.ringM n 10)] := by
    unfold State.posted
    dsimp only
    rw [SMap.get_set_self, empty, List.nil_append]
  have drains := drainPunts_of_sole (s := s.posted n entry) link receives buffer sole 255
  have written : Output.hostWrite (s.dmaTag n true) (leAt entry 0 8) (x.2.take (leAt entry 8 4)) ∈
      (((s.posted n entry).puntTaken n).dma n true (leAt entry 0 8) (x.2.take (leAt entry 8 4))).out := by
    rw [← dmaTag_of_regs (t := (s.posted n entry).puntTaken n) (by dsimp only [State.posted, State.puntTaken, State.fetchNext])]
    exact List.mem_append_right _ List.mem_cons_self
  have run := (puntDelivery_posts offers).trans (congrArg Host.Outcome.next drains)
  have completes := complete_completes (tag := leAt entry 12 4) (status := if leAt entry 8 4 < x.2.length then 8 else 0) (pair := 0xFF) (b67 := x.1)
    (len := x.2.length) (idx := s.ringM n 10) (ring := 10) (puntTaken_same n entry s (leAt entry 0 8) (x.2.take (leAt entry 8 4))) link on
  exact ⟨_, run, complete_mem_out written, completes, (State.complete_touches ..).asc (by decide)⟩

end Sys2Proof.Machine
end

section
/-! Command and inject rings, and the rings' statement (R515 to R524, R527). -/

namespace Sys2Proof.Machine

open Sys2Proof

/-! ## Command descriptors (R518 to R520) -/

section
variable {n : Fin 64} {desc : List Byte} (input : List Byte) (f w : Bool) {s : State} (ready : s.ringReady n = true)

theorem ringReady_false (h : s.ringReady n = false) : exec (.commandDescriptor n desc input f w) s = .next s := if_pos (.inl h)

theorem mayFetch_of_ringReady {n : Nat} (h : s.ringReady n = true) : s.mayFetch n 0 = true ∧ ∀ c ∈ s.hif.ringCmds, c.allot ≠ n := by
  unfold State.ringReady at h
  simp only [Bool.and_eq_true, List.all_eq_true] at h
  exact ⟨h.1.1, fun c mem => bne_iff_ne.mp (h.1.2 c mem)⟩

variable (own : (CmdDesc.of desc).unit = 2 → n.val ≠ 0)
include ready own

theorem commandDescriptor_runs : exec (.commandDescriptor n desc input f w) s =
    .next ((s.fetched n 0).runDescriptor n (s.ringM n 0) (CmdDesc.of desc) input f w) := by
  refine if_neg ?_
  rintro (h | ⟨hif, zero⟩)
  · exact absurd (ready.symm.trans h) (by decide)
  · exact own hif zero

/-- A unit that has no ring commands. -/
theorem commandDescriptor_unserved (other : (CmdDesc.of desc).unit ∉ [5, 6, 8, 10, 12]) : ∃ t, exec (.commandDescriptor n desc input f w) s = .next t ∧
    s.Completes t n (CmdDesc.of desc).tag (if (CmdDesc.of desc).unit = 2 then 0xF1 else 0xF0) (CmdDesc.of desc).unit 0 0 (s.ringM n 0) 0 ∧
      t.ringM n 0 = (s.ringM n 0 + 1) % 65536 ∧ t.count (Reg.hifCountLo 1) = s.count (Reg.hifCountLo 1) + 1 ∧
      t = { s with hif := t.hif, cnt := t.cnt, out := t.out } := by
  have unserved : ([5, 6, 8, 10, 12].contains (CmdDesc.of desc).unit) = false := by
    simpa using other
  obtain ⟨link, on⟩ := link_of_mayFetch (mayFetch_of_ringReady ready).1
  have run : exec (.commandDescriptor n desc input f w) s = .next ((s.fetched n 0).complete n (CmdDesc.of desc).tag
      (if (CmdDesc.of desc).unit = 2 then 0xF1 else 0xF0) (CmdDesc.of desc).unit 0 0 (s.ringM n 0) 0) :=
    (commandDescriptor_runs input f w ready own).trans (congrArg Host.Outcome.next (if_pos (.inl unserved)))
  refine ⟨_, run, complete_completes (fetched_same (by decide)) link on, ?_, ?_, ?_⟩
  · exact (complete_rings _ _ (by omega)).trans fetched_index
  · exact (complete_count _ (by decide) (by decide)).trans (count_inc_same (s.fetchNext n 0).2 _)
  · refine eq_of_touches_complete (.chain (State.complete_touches ..) (by decide) ?_)
    exact .chain (State.inc_touches ..) (by decide) (.chain (State.fetchNext_touches ..) (by decide) (.rfl' _ s))

end

/-! ## STOP on a ring (R460, R519, R520) -/

/-- A ring's command of a unit without output ends: its result is written and its record follows. -/
theorem cmdEnd_of_silent {s : State} {unit n off : Nat} {c : RingCmd} (issued : s.hif.ringCmds.find? (fun c => c.allot == n && c.unit == unit) = some c)
    (silent : ∀ x : State, x.ringOutput c = []) (code : Nat) : s.cmdEnd unit n off code =
      State.complete { s.result (privKey n off) code with hif := { s.hif with ringCmds := s.hif.ringCmds.filter (· != c) } }
        n c.tag code c.unit 0 0 c.idx 0 := by
  unfold State.cmdEnd
  extract_lets ended
  have found : ended.hif.ringCmds.find? (fun c => c.allot == n && c.unit == unit) = some c := issued
  rw [found]
  dsimp only
  rw [silent, List.take_nil, ite_self, if_pos rfl]
  rfl

theorem rd_foldl_wr_ne {α : Type} (l : List α) (key : α → Nat) (val : α → Word) (s : State) {k : Nat} (other : ∀ a ∈ l, k ≠ key a) :
    (l.foldl (fun s a => s.wr (key a) (val a)) s).rd k = s.rd k := by
  induction l generalizing s with
  | nil => rfl
  | cons a l ih =>
    exact (ih (s.wr (key a) (val a)) fun b mem => other b (List.mem_cons_of_mem _ mem)).trans (rd_wr_ne _ _ _ _ (other a List.mem_cons_self))

theorem completionKeys_tim {n c w k : Nat} (low : c < 16) (word : w < 5) (mem : k ∈ completionKeys n) :
    k ≠ privKey n (Reg.timChArg c w) := by
  simp only [completionKeys, List.mem_cons, List.not_mem_nil, or_false, Reg.hifAllotCtrl, privKey, Reg.hifRingBaseLo, Reg.hifRingBaseHi,
    Reg.hifRingCfg] at mem
  unfold privKey Reg.timChArg
  omega

theorem loadWindow_same {n : Nat} {d : CmdDesc} (tim : d.unit = 12) (input : List Byte) (s : State) :
    SameRing n s (s.loadWindow n d input) := by
  refine .of_regs ((State.loadWindow_touches ..).hif (by decide)) fun k mem => ?_
  unfold State.loadWindow
  rw [tim]
  exact rd_foldl_wr_ne _ _ _ _ fun w word => completionKeys_tim (Nat.mod_lt _ (by decide)) (by have := List.mem_range.mp word; omega) mem

/-- The channel that STOP leaves. -/
def Channel.stopped (x : Channel) : Channel :=
  { x with st := .stopped, value := 0, offO := 0, offA := 0, slew := 0, good := 0, missed := 0, todSeen := false, mapC := none }

/-- The state in which STOP of channel c ends. -/
def State.stopDone (s : State) (c : Nat) : State :=
  if c < 12 then ((s.setChan c Channel.stopped).note Ev.timeSet (beBytes 1 c)).gatesLost c
  else (s.setChan c Channel.stopped).note Ev.timeSet (beBytes 1 c)

theorem runStop_of_allowed {s : State} {n c : Nat} (may : s.mayTime n c = true) (lead : s.isFollower = false) :
    s.runStop n c = (s.stopDone c).timEnd n c 0 := by
  have allowed : s.timRefusal n c true = 0 := by
    unfold State.timRefusal State.mapped
    rw [may, lead]
    rfl
  unfold State.runStop
  dsimp only
  rw [if_neg (by rw [allowed]; decide)]
  rfl

theorem stopDone_kept (s : State) (c : Nat) : RingsKept s (s.stopDone c) := by
  have stopped : RingsKept s ((s.setChan c Channel.stopped).note Ev.timeSet (beBytes 1 c)) :=
    (RingsKept.of_touches (State.setChan_touches ..)).trans (.note ..)
  exact .ite (stopped.trans (.gatesLost ..)) stopped

theorem stopDone_touches (s : State) (c : Nat) : Touches [.regs, .cnt, .pow, .led, .hif, .tim, .sch, .yok, .out] s (s.stopDone c) := by
  have noted : Touches [.regs, .cnt, .pow, .led, .hif, .tim, .sch, .yok, .out] s ((s.setChan c Channel.stopped).note Ev.timeSet (beBytes 1 c)) :=
    .chain (State.note_touches ..) (by decide) (.chain (State.setChan_touches ..) (by decide) (.rfl' _ s))
  exact .ite (.chain (State.gatesLost_touches ..) (by decide) noted) noted

theorem stopDone_tim (s : State) (c : Nat) : (s.stopDone c).tim = (s.setChan c Channel.stopped).tim := by
  have noted : ((s.setChan c Channel.stopped).note Ev.timeSet (beBytes 1 c)).tim = (s.setChan c Channel.stopped).tim :=
    (State.note_touches ..).tim (by decide)
  unfold State.stopDone
  split
  · exact ((State.gatesLost_touches ..).tim (by decide)).trans noted
  · exact noted

/-- The descriptor's command is running. -/
def State.issued (s : State) (c : RingCmd) : State := { s with hif := { s.hif with ringCmds := s.hif.ringCmds ++ [c] } }

theorem find?_issued {l : List RingCmd} {n : Nat} (none_ : ∀ c ∈ l, c.allot ≠ n) {c : RingCmd} (own : c.allot = n) :
    (l ++ [c]).find? (fun x => x.allot == n && x.unit == c.unit) = some c := by
  have absent : l.find? (fun x => x.allot == n && x.unit == c.unit) = none :=
    List.find?_eq_none.mpr fun x mem => by simp [none_ x mem]
  rw [List.find?_append, absent]
  simp [own]

section
variable {n : Fin 64} {desc : List Byte} (input : List Byte) (f w : Bool) {s : State} (ready : s.ringReady n = true) {d : CmdDesc}
  (named : d = CmdDesc.of desc) (tim : d.unit = 12) (stop : d.op = 4) (empty : d.inLen = 0) (responds : s.unitResponds 12 = true)
include ready named tim stop empty responds

/-- The command of a STOP descriptor. -/
abbrev stopCmd (n idx : Nat) (d : CmdDesc) (w : Bool) : RingCmd := ⟨n, d.unit, d.op, idx, d.tag, d.outAddr, d.outMax, w⟩

theorem commandDescriptor_stop : exec (.commandDescriptor n desc input f w) s = .next
    (((((s.fetched n 0).loadWindow n d []).issued (stopCmd n (s.ringM n 0) d w)).runStop n ((d.word 0).toNat % 16)).disarm d.unit) := by
  have runs := commandDescriptor_runs input f w ready (desc := desc) (fun hif => by rw [← named, tim] at hif; cases hif)
  have needs : d.needs = (0, 0) := by
    unfold CmdDesc.needs
    rw [tim, stop]
    rfl
  rw [runs, ← named]
  refine congrArg Host.Outcome.next ?_
  unfold State.runDescriptor
  have served : ¬(([5, 6, 8, 10, 12].contains d.unit) = false ∨ (s.fetched n 0).unitResponds d.unit = false) := by
    rw [tim]
    exact not_or.mpr ⟨by decide, by rw [show (s.fetched n 0).unitResponds 12 = true from responds]; decide⟩
  have serves : ¬ringServes d.unit d.op = false := by
    rw [tim, stop]
    decide
  have fits : ¬(d.inLen < d.needs.1 ∨ d.outMax < d.needs.2) := by
    rw [needs]
    omega
  have noInput : ¬(0 < d.inLen ∧ f = false) := by omega
  have idle : (s.fetched n 0).ringBusy n d.unit = none := by
    unfold State.ringBusy
    rw [tim]
    rfl
  have ran (x : State) : x.ringRun n d = x.runStop n ((d.word 0).toNat % 16) := by
    unfold State.ringRun
    rw [tim, stop]
    rfl
  dsimp only
  rw [if_neg served, if_neg serves, if_neg fits, if_neg noInput, idle, empty]
  dsimp only
  rw [ran, List.take_zero]
  rfl

/-- The state in which STOP begins. -/
theorem commandDescriptor_begins : ∃ begun, exec (.commandDescriptor n desc input f w) s =
      .next ((begun.runStop n ((d.word 0).toNat % 16)).disarm d.unit) ∧ Touches [.regs, .cnt, .hif] s begun ∧
    begun.hif.ringCmds = s.hif.ringCmds ++ [stopCmd n (s.ringM n 0) d w] ∧ SameRing n s begun ∧
    begun.ringM n 0 = (s.ringM n 0 + 1) % 65536 := by
  have hif : ((s.fetched n 0).loadWindow n d []).hif = (s.fetched n 0).hif := (State.loadWindow_touches ..).hif (by decide)
  refine ⟨_, commandDescriptor_stop input f w ready named tim stop empty responds, ?_, ?_, ?_, ?_⟩
  · exact .set_hif (.chain (State.loadWindow_touches ..) (by decide) (.chain (State.inc_touches ..) (by decide)
      (.chain (State.fetchNext_touches ..) (by decide) (.rfl' _ s)))) (by decide)
  · exact (congrArg (fun h : HostIf => h.ringCmds ++ [stopCmd n (s.ringM n 0) d w]) hif :)
  · exact ((fetched_same (by decide)).trans (loadWindow_same tim [] _)).trans (.of_fields rfl rfl rfl)
  · exact (congrArg (fun h : HostIf => SMap.get zeroOf h.ringMod (n * 16 + 0)) hif).trans fetched_index

end

theorem timChResult_eq (c : Nat) : Reg.timChResult c = Reg.timChArg c 4 := by
  unfold Reg.timChResult Reg.timChArg
  omega

/-- STOP of channel c on a ring has written its result, and the command is no longer running. -/
def State.stopEnded (s : State) (n c : Nat) (cmd : RingCmd) : State :=
  { (s.stopDone c).result (privKey n (Reg.timChResult c)) 0 with
    hif := { (s.stopDone c).hif with ringCmds := (s.stopDone c).hif.ringCmds.filter (· != cmd) } }

theorem stopEnded_same {n : Nat} (known : n < 64) {c : Nat} (low : c < 16) (s : State) (cmd : RingCmd) : SameRing n s (s.stopEnded n c cmd) := by
  refine (SameRing.of_kept known (stopDone_kept s c)).trans ⟨fun k mem => ?_, rfl, rfl⟩
  refine rd_result_ne (s.stopDone c) 0 ?_
  rw [timChResult_eq]
  exact completionKeys_tim low (by decide) mem

theorem stopEnded_tim (s : State) (n c : Nat) (cmd : RingCmd) : (s.stopEnded n c cmd).tim = (s.stopDone c).tim := by
  unfold State.stopEnded
  dsimp only
  exact (State.result_touches ..).tim (by decide)

/-- STOP as the one ring command of its allotment ends with its record. -/
theorem runStop_completes {s : State} {n c : Nat} (may : s.mayTime n c = true) (lead : s.isFollower = false) {cmd : RingCmd}
    (issued : s.hif.ringCmds.find? (fun x => x.allot == n && x.unit == 12) = some cmd) (tim : cmd.unit = 12) :
    s.runStop n c = (s.stopEnded n c cmd).complete n cmd.tag 0 12 0 0 cmd.idx 0 := by
  have found : (s.stopDone c).hif.ringCmds.find? (fun x => x.allot == n && x.unit == 12) = some cmd := by
    rw [(stopDone_kept s c).cmds]
    exact issued
  have silent (x : State) : x.ringOutput cmd = [] := by
    unfold State.ringOutput
    rw [tim]
    rfl
  rw [← tim]
  exact (runStop_of_allowed may lead).trans (cmdEnd_of_silent found silent 0)

section
variable {n : Fin 64} {desc : List Byte} (input : List Byte) (f w : Bool) {s : State} (ready : s.ringReady n = true) {d : CmdDesc}
  (named : d = CmdDesc.of desc) (tim : d.unit = 12) (stop : d.op = 4) (empty : d.inLen = 0) (responds : s.unitResponds 12 = true)
include ready named tim stop empty responds

theorem stop_completes {c : Nat} (at_ : c = (d.word 0).toNat % 16) (may : s.mayTime n c = true) (lead : s.isFollower = false) :
    ∃ t, exec (.commandDescriptor n desc input f w) s = .next t ∧ t.ringM n 0 = (s.ringM n 0 + 1) % 65536 ∧
      s.Completes t n d.tag 0 12 0 0 (s.ringM n 0) 0 ∧
      (t.tim.chans[c]?).map (fun x => (x.st, x.value)) = (s.tim.chans[c]?).map (fun _ => (.stopped, 0)) ∧
      (∀ e, e ≠ c → t.tim.chans[e]? = s.tim.chans[e]?) ∧ t.Ended (privKey n (Reg.timChResult c)) 0 ∧ t.kvt = s.kvt ∧ t.asc = s.asc := by
  obtain ⟨begun, run, touched, cmds, same, index⟩ := commandDescriptor_begins input f w ready named tim stop empty responds
  obtain ⟨link, on⟩ := link_of_mayFetch (mayFetch_of_ringReady ready).1
  have issued : begun.hif.ringCmds.find? (fun x => x.allot == n.val && x.unit == 12) = some (stopCmd n (s.ringM n 0) d w) := by
    rw [cmds, ← tim]
    exact find?_issued (c := stopCmd n (s.ringM n 0) d w) (mayFetch_of_ringReady ready).2 rfl
  have may' : begun.mayTime n c = true := by
    unfold State.mayTime State.chan
    rw [touched.tim (by decide)]
    exact may
  have lead' : begun.isFollower = false := by
    unfold State.isFollower
    rw [touched.ctl (by decide)]
    exact lead
  rw [← at_, runStop_completes may' lead' issued tim] at run
  have ended : SameRing n s (begun.stopEnded n c (stopCmd n (s.ringM n 0) d w)) :=
    same.trans (stopEnded_same n.isLt (at_ ▸ Nat.mod_lt _ (by decide)) ..)
  have stopped : (begun.stopDone c).tim = { s.tim with chans := modAt Channel.stopped s.tim.chans c } := by
    rw [stopDone_tim, ← touched.tim (by decide)]
    rfl
  have chans : ((begun.stopEnded n c (stopCmd n (s.ringM n 0) d w)).complete n d.tag 0 12 0 0 (s.ringM n 0) 0).tim.chans =
      modAt Channel.stopped s.tim.chans c := by
    rw [(State.complete_touches ..).tim (by decide), stopEnded_tim, stopped]
  have parts := stopDone_touches begun c
  refine ⟨_, run, ?_, ?_, ?_, fun e other => ?_, ?_, ?_, ?_⟩
  · exact (complete_rings _ (n * 16 + 0) (by omega)).trans (((stopDone_kept begun c).ring (n * 16 + 0) (by omega)).trans index)
  · exact Completes_kept (complete_completes ended link on) (.of_touches (State.disarm_touches ..))
  · refine (congrArg (fun l : List Channel => (l[c]?).map fun x => (x.st, x.value)) chans).trans ?_
    rw [getElem?_modAt, if_pos rfl, Option.map_map]
    rfl
  · exact (congrArg (fun l : List Channel => l[e]?) chans).trans ((getElem?_modAt ..).trans (if_neg other))
  · have written := result_ended (begun.stopDone c) (privKey n (Reg.timChResult c)) (code := 0) (by decide)
    have read := complete_rd (n := n) (tag := d.tag) (status := 0) (pair := 12) (b67 := 0) (len := 0) (idx := s.ringM n 0) (ring := 0)
      (begun.stopEnded n c (stopCmd n (s.ringM n 0) d w)) (privKey n (Reg.timChResult c))
    exact ⟨(congrArg (bits · 7 0) read).trans written.1, (congrArg (bit · 16) read).trans written.2⟩
  · exact ((State.complete_touches ..).kvt (by decide)).trans ((parts.kvt (by decide)).trans (touched.kvt (by decide)))
  · exact ((State.complete_touches ..).asc (by decide)).trans ((parts.asc (by decide)).trans (touched.asc (by decide)))

end

/-! ## Inject descriptors (R522, R523, R431) -/

/-- A descriptor refused before its frame is fetched. -/
theorem inject_refused {n : Fin 64} {desc frame : List Byte} {f : Bool} {s : State} (may : s.mayFetch n 9 = true) {tag code : Nat}
    (run : exec (.injectDescriptor n desc frame f) s = .next ((s.fetched n 9).complete n tag code 0xFF 0 0 (s.ringM n 9) 9)) :
    ∃ t, exec (.injectDescriptor n desc frame f) s = .next t ∧ s.Completes t n tag code 0xFF 0 0 (s.ringM n 9) 9 ∧ t.sch = s.sch := by
  obtain ⟨link, on⟩ := link_of_mayFetch may
  exact ⟨_, run, complete_completes (fetched_same (by decide)) link on, (State.complete_touches ..).sch (by decide)⟩

section
variable {n : Fin 64} {desc : List Byte} (frame : List Byte) (f : Bool) {s : State} (may : s.mayFetch n 9 = true) (up : s.ctl.mode ≠ .recovery)
  {d : InjDesc} (named : d = InjDesc.of desc)
include may up named

theorem injectDescriptor_runs : exec (.injectDescriptor n desc frame f) s = .next (
    if s.injValid desc = false then (s.fetched n 9).complete n d.tag 3 0xFF 0 0 (s.ringM n 9) 9
    else if s.mayInject n d.output = false ∨ s.isFollower = true then (s.fetched n 9).complete n d.tag 4 0xFF 0 0 (s.ringM n 9) 9
    else if f = false then ((s.fetched n 9).dmaError n).complete n d.tag 7 0xFF 0 0 (s.ringM n 9) 9
    else (s.fetched n 9).injectFrame n (s.ringM n 9) d frame) := by
  rw [named]
  refine if_neg (not_or.mpr ⟨?_, up⟩)
  rw [may]
  decide

variable (valid : s.injValid desc = true) (allowed : s.mayInject n d.output = true) (lead : s.isFollower = false)
include valid allowed lead

theorem inject_fetches : exec (.injectDescriptor n desc frame f) s = .next (
    if f = false then ((s.fetched n 9).dmaError n).complete n d.tag 7 0xFF 0 0 (s.ringM n 9) 9
    else (s.fetched n 9).injectFrame n (s.ringM n 9) d frame) := by
  rw [injectDescriptor_runs frame f may up named, if_neg (by rw [valid]; decide), if_neg (by simp [allowed, lead])]

theorem inject_unread : ∃ t, exec (.injectDescriptor n desc frame false) s = .next t ∧
    s.Completes t n d.tag 7 0xFF 0 0 (s.ringM n 9) 9 ∧ t.sch = s.sch := by
  obtain ⟨link, on⟩ := link_of_mayFetch may
  exact ⟨_, inject_fetches frame false may up named valid allowed lead,
    complete_completes ((fetched_same (by decide)).trans (.of_kept n.isLt (.dmaError ..))) link on,
    ((State.complete_touches ..).sch (by decide)).trans ((State.dmaError_touches ..).sch (by decide))⟩

theorem inject_arrives : ∃ t, exec (.injectDescriptor n desc frame true) s = .next t ∧ ∃ f, t.sch.arrivals = s.sch.arrivals ++ [f] ∧
    t.sch = { s.sch with arrivals := t.sch.arrivals } ∧ t.ringM n 9 = (s.ringM n 9 + 1) % 65536 ∧
    f.bytes = slice frame 0 (d.len - 4) ++ fcsOf (slice frame 0 (d.len - 4)) ∧ f.output = d.output ∧ f.cls = d.cls ∧ f.direct = true ∧
    f.launch = (if d.launch then some d.launchAt else none) ∧ f.inject = some ⟨n, s.ringM n 9, d.tag, d.oneStep, d.twoStep⟩ := by
  have run := inject_fetches frame true may up named valid allowed lead
  rw [if_neg (by decide)] at run
  have sch : ((s.fetched n 9).injectFrame n (s.ringM n 9) d frame).sch = { s.sch with arrivals := s.sch.arrivals ++
      [(s.fetched n 9).injFrame (slice frame 0 (d.len - 4) ++ fcsOf (slice frame 0 (d.len - 4))) d.output d.cls
        (if d.launch then some d.launchAt else none) (some ⟨n, s.ringM n 9, d.tag, d.oneStep, d.twoStep⟩)] } :=
    (State.convey_touches ..).sch (by decide)
  have hif : ((s.fetched n 9).injectFrame n (s.ringM n 9) d frame).hif = (s.fetched n 9).hif := (State.convey_touches ..).hif (by decide)
  exact ⟨_, run, _, congrArg Sch.arrivals sch, by rw [sch], (congrArg (fun h : HostIf => SMap.get zeroOf h.ringMod (n * 16 + 9)) hif).trans fetched_index,
    rfl, rfl, rfl, rfl, rfl, rfl⟩

end

end Sys2Proof.Machine

open Sys2Proof Sys2Proof.Machine

/-- Settles O55: each row is followed through its gate; a completion record goes where the ring stood, since neither a fetch nor an event
that is recorded moves the completion ring. -/
theorem ringsTakeDescriptors : Obligations.RingsTakeDescriptors := by
  refine ⟨fun p n at_ r i s takes host known on => ?_, fun desc d named n input f w s ready own => ⟨fun other => ?_, fun c at_ tim stop empty responds may lead => ?_⟩,
    fun n desc input f w s unready => ringReady_false input f w unready, fun desc d named n frame s may up => ⟨fun f bad => ?_, fun f valid refused => ?_, fun valid allowed lead => ?_⟩,
    fun entry l at_ n s link on running waits long short whole => ?_, fun n v k at_ s d due => ?_⟩
  · subst at_
    exact ⟨doorbell_takes i takes host known on, doorbell_refused i takes host known on⟩
  · subst named
    exact commandDescriptor_unserved input f w ready own other
  · exact stop_completes input f w ready named tim stop empty responds at_ may lead
  · exact inject_refused may ((injectDescriptor_runs frame f may up named).trans (congrArg Host.Outcome.next (if_pos bad)))
  · refine inject_refused may ((injectDescriptor_runs frame f may up named).trans (congrArg Host.Outcome.next ?_))
    rw [if_neg (by rw [valid]; decide), if_pos refused]
  · exact ⟨inject_unread frame may up named valid allowed lead, inject_arrives frame may up named valid allowed lead⟩
  · subst at_
    exact ⟨puntDelivery_waits ⟨link, on, running, waits, long, short, whole⟩,
      fun x sole empty completes => puntDelivery_takes ⟨link, on, running, waits, long, short, whole⟩ sole empty completes⟩
  · subst at_ due
    exact ⟨irqCoalesceTimer_waits, irqCoalesceTimer_fires⟩
end

section
/-! Lookaside jobs (R366 to R368, R370 to R372): what completing a ring's ended jobs, filling vacant roles and starting an item leave. -/

namespace Sys2Proof.Machine

open Sys2Proof

theorem job_setJob_self (s : State) (k : Nat) (j : Option Job) : (s.setJob k j).job k = j := SMap.get_set_self noneOf s.cph.jobs k j

theorem job_setJob_ne (s : State) {k m : Nat} (j : Option Job) (other : m ≠ k) : (s.setJob k j).job m = s.job m :=
  SMap.get_set_ne noneOf s.cph.jobs k m j other

/-! ## Ended jobs complete (R370) -/

/-- From s to t ended jobs have completed: they are gone, and of the Cipher Array nothing else has changed. -/
structure Flushed (s t : State) : Prop where
  cph : ∃ jobs, t.cph = { s.cph with jobs := jobs }
  job : ∀ m, t.job m = s.job m ∨ t.job m = none
  rings : ∀ i, i % 16 < 11 → SMap.get zeroOf t.hif.ringMod i = SMap.get zeroOf s.hif.ringMod i
  led : t.led = s.led
  out : ∃ os, t.out = s.out ++ os

namespace Flushed

theorem refl (s : State) : Flushed s s := ⟨⟨_, rfl⟩, fun _ => .inl rfl, fun _ _ => rfl, rfl, [], (List.append_nil _).symm⟩

theorem trans {s t u : State} (h : Flushed s t) (k : Flushed t u) : Flushed s u := by
  obtain ⟨_, cph⟩ := h.cph
  obtain ⟨jobs, cph'⟩ := k.cph
  obtain ⟨os, out⟩ := h.out
  obtain ⟨ps, out'⟩ := k.out
  exact ⟨⟨jobs, by rw [cph', cph]⟩, fun m => (k.job m).elim (fun e => by rw [e]; exact h.job m) .inr,
    fun i w => (k.rings i w).trans (h.rings i w), k.led.trans h.led, os ++ ps, by rw [out', out, List.append_assoc]⟩

theorem inc (s : State) (k : Nat) : Flushed s (s.inc k) :=
  ⟨⟨_, rfl⟩, fun _ => .inl rfl, fun _ _ => rfl, rfl, [], (List.append_nil _).symm⟩

theorem ite {s a b : State} {c : Prop} [Decidable c] (h : Flushed s a) (k : Flushed s b) : Flushed s (if c then a else b) := by
  split <;> assumption

theorem complete_out (s : State) (n tag st pair b67 len idx ring : Nat) : ∃ os, (s.complete n tag st pair b67 len idx ring).out = s.out ++ os := by
  unfold State.complete
  split
  · exact ⟨[], (List.append_nil _).symm⟩
  · extract_lets word
    obtain ⟨os, out⟩ := (Recorded.signal ((s.ringPut n 11 16 ((completion tag st pair b67 len idx ring).take 12 ++ leBytes 4 word)).inc
      (Reg.hifCountLo 2)) n 0).out
    exact ⟨_, out.trans (List.append_assoc ..)⟩

theorem complete (s : State) (n tag st pair b67 len idx ring : Nat) : Flushed s (s.complete n tag st pair b67 len idx ring) := by
  have cph : (s.complete n tag st pair b67 len idx ring).cph = s.cph := (State.complete_touches ..).cph (by decide)
  exact ⟨⟨_, cph⟩, fun m => .inl (by unfold State.job; rw [cph]), complete_rings s, (State.complete_touches ..).led (by decide), complete_out ..⟩

theorem postJob (s : State) (j : Job) (st len : Nat) : Flushed s (s.postJob j st len) := by
  unfold State.postJob
  extract_lets counted posted owned
  have first : Flushed s counted := by
    unfold counted
    split
    · exact inc ..
    · exact refl s
  have third : Flushed posted owned := ite (refl _) (inc ..)
  exact ((first.trans (inc ..)).trans third).trans (complete ..)

theorem clearJob (s : State) (k : Nat) : Flushed s (s.setJob k none) := by
  refine ⟨⟨_, rfl⟩, fun m => ?_, fun _ _ => rfl, rfl, [], (List.append_nil _).symm⟩
  by_cases same : m = k
  · exact .inr (by rw [same, job_setJob_self])
  · exact .inl (job_setJob_ne s none same)

theorem flushRing (s : State) (allot ring fuel : Nat) : Flushed s (s.flushRing allot ring fuel) := by
  induction fuel generalizing s with
  | zero => exact refl s
  | succ fuel ih =>
    unfold State.flushRing
    split
    · split
      · exact ((clearJob ..).trans (postJob ..)).trans (ih _)
      · exact refl s
    · exact refl s

theorem items {s t : State} (h : Flushed s t) : t.cph.items = s.cph.items := by
  obtain ⟨_, cph⟩ := h.cph
  rw [cph]

theorem nextJob {s t : State} (h : Flushed s t) : t.cph.nextJob = s.cph.nextJob := by
  obtain ⟨_, cph⟩ := h.cph
  rw [cph]

end Flushed

/-! ## Roles are filled (R354) -/

/-- From s to t roles have been filled: no work item and no job has changed, and what has left the module has left. -/
structure RolesFilled (s t : State) : Prop where
  items : t.cph.items = s.cph.items
  jobs : t.cph.jobs = s.cph.jobs
  out : ∃ os, t.out = s.out ++ os

namespace RolesFilled

theorem refl (s : State) : RolesFilled s s := ⟨rfl, rfl, [], (List.append_nil _).symm⟩

theorem trans {s t u : State} (h : RolesFilled s t) (k : RolesFilled t u) : RolesFilled s u := by
  obtain ⟨os, out⟩ := h.out
  obtain ⟨ps, out'⟩ := k.out
  exact ⟨k.items.trans h.items, k.jobs.trans h.jobs, os ++ ps, by rw [out', out, List.append_assoc]⟩

theorem of_cph {s t : State} (items : t.cph.items = s.cph.items) (jobs : t.cph.jobs = s.cph.jobs) (out : t.out = s.out) : RolesFilled s t :=
  ⟨items, jobs, [], by rw [out, List.append_nil]⟩

theorem note (s : State) (e : EvKind) (ps : List Byte) : RolesFilled s (s.note e ps) :=
  ⟨by rw [(State.note_touches ..).cph (by decide)], by rw [(State.note_touches ..).cph (by decide)], (Recorded.note ..).out⟩

theorem substitute (s : State) (p role x : Nat) : RolesFilled s (s.substitute p role x) := of_cph rfl rfl rfl

theorem startKat (s : State) (p : Nat) (v : Option (Nat × Nat)) : RolesFilled s (s.startKat p v) := of_cph rfl rfl rfl

theorem vacancies (s : State) (vs : List (Nat × Nat)) : RolesFilled s { s with cph := { s.cph with vacant := vs } } := of_cph rfl rfl rfl

theorem exhaustion (s : State) (b : Bool) : RolesFilled s { s with cph := { s.cph with exhausted := b } } := of_cph rfl rfl rfl

theorem fillOne (s : State) (v : Nat × Nat) (rest : List (Nat × Nat)) : RolesFilled s (s.fillOne v rest) := by
  unfold State.fillOne
  extract_lets pairs taken
  have took : RolesFilled s taken := vacancies s rest
  clear_value taken
  split
  · exact took.trans (startKat ..)
  split
  · exact refl s
  split
  · split
    · exact (took.trans (substitute ..)).trans (note ..)
    · exact refl s
  split
  · exact refl s
  · exact ((exhaustion s true).trans (note ..)).trans (note ..)

theorem fillVacant (s : State) (fuel : Nat) : RolesFilled s (s.fillVacant fuel) := by
  induction fuel generalizing s with
  | zero => exact refl s
  | succ fuel ih =>
    unfold State.fillVacant
    split
    · exact exhaustion s false
    · extract_lets filled
      split
      · exact (fillOne ..).trans (ih _)
      · exact fillOne ..

end RolesFilled

/-! ## A descriptor is fetched (R366, R370) -/

/-- The state in which a fetched job waits. -/
def State.enlisted (s : State) (n r : Nat) (d : List Byte) (fin : Option (Nat × Nat)) : State :=
  let t := (s.fetched n r).setJob s.cph.nextJob (some ⟨n, r, s.ringM n r, d, none, 0xFF, 0, [], fin⟩)
  { t with cph := { t.cph with nextJob := s.cph.nextJob + 1 } }

theorem enlisted_job_self (s : State) (n r : Nat) (d : List Byte) (fin : Option (Nat × Nat)) :
    (s.enlisted n r d fin).job s.cph.nextJob = some ⟨n, r, s.ringM n r, d, none, 0xFF, 0, [], fin⟩ := by
  unfold State.enlisted
  exact job_setJob_self (s.fetched n r) s.cph.nextJob (some ⟨n, r, s.ringM n r, d, none, 0xFF, 0, [], fin⟩)

theorem enlisted_job_ne (s : State) (n r : Nat) (d : List Byte) (fin : Option (Nat × Nat)) {j : Nat} (other : j ≠ s.cph.nextJob) :
    (s.enlisted n r d fin).job j = s.job j := by
  unfold State.enlisted
  exact job_setJob_ne (s.fetched n r) (some ⟨n, r, s.ringM n r, d, none, 0xFF, 0, [], fin⟩) other

section
variable {n : Fin 64} {r : Fin 9} {d : List Byte} {s : State}

theorem lookasideJob_idle (h : r.val = 0 ∨ s.mayFetch n r = false) : exec (.lookasideJob n r d) s = .next s := if_pos h

variable (ring : r.val ≠ 0) (may : s.mayFetch n r = true)
include ring may

theorem lookasideJob_fetches : exec (.lookasideJob n r d) s = .next (if jobValid d = true then s.enlisted n r d none else
    ((s.enlisted n r d (some (3, 0))).noteFor Ev.cphJobRefused n (beBytes 1 r)).flushRing n r ((s.enlisted n r d (some (3, 0))).cph.jobs.length + 1)) := by
  refine (if_neg (not_or.mpr ⟨ring, by rw [may]; decide⟩)).trans ?_
  cases jobValid d <;> rfl

theorem lookasideJob_waits (valid : jobValid d = true) : ∃ t, exec (.lookasideJob n r d) s = .next t ∧
    t.job s.cph.nextJob = some ⟨n, r, s.ringM n r, d, none, 0xFF, 0, [], none⟩ ∧ t.cph.nextJob = s.cph.nextJob + 1 ∧
    (∀ j, j ≠ s.cph.nextJob → t.job j = s.job j) ∧ t.ringM n r = (s.ringM n r + 1) % 65536 ∧ t.cph.items = s.cph.items := by
  have run := lookasideJob_fetches (d := d) ring may
  rw [if_pos valid] at run
  exact ⟨_, run, enlisted_job_self s n r d none, rfl, fun j other => enlisted_job_ne s n r d none other, fetched_index, rfl⟩

theorem lookasideJob_refused (bad : jobValid d = false) (awake : s.ctl.mode ≠ .sentry) : ∃ t, exec (.lookasideJob n r d) s = .next t ∧
    t.cph.nextJob = s.cph.nextJob + 1 ∧ t.ringM n r = (s.ringM n r + 1) % 65536 ∧ t.cph.items = s.cph.items ∧
    t.events Ev.cphJobRefused = satAdd (2 ^ 48 - 1) (s.events Ev.cphJobRefused) 1 := by
  have run := lookasideJob_fetches (d := d) ring may
  rw [if_neg (by rw [bad]; decide)] at run
  have flushed := Flushed.flushRing ((s.enlisted n r d (some (3, 0))).noteFor Ev.cphJobRefused n (beBytes 1 r)) n r
    ((s.enlisted n r d (some (3, 0))).cph.jobs.length + 1)
  have cph : ((s.enlisted n r d (some (3, 0))).noteFor Ev.cphJobRefused n (beBytes 1 r)).cph = (s.enlisted n r d (some (3, 0))).cph :=
    (State.noteFor_touches ..).cph (by decide)
  have next := congrArg Cph.nextJob cph
  have held := congrArg Cph.items cph
  have kept := RingsKept.noteFor (s.enlisted n r d (some (3, 0))) Ev.cphJobRefused n (beBytes 1 r)
  refine ⟨_, run, flushed.nextJob.trans next, ?_, flushed.items.trans held, ?_⟩
  · exact (flushed.rings _ (by omega)).trans ((kept.ring _ (by omega)).trans fetched_index)
  · exact (events_of_led flushed.led _).trans ((noteFor_events (s.enlisted n r d (some (3, 0))) Ev.cphJobRefused n (beBytes 1 r) Ev.cphJobRefused awake (by decide) (by decide)).trans
      (if_pos rfl))

end

end Sys2Proof.Machine
end

section
/-! Admitting and completing lookaside jobs (R367, R368, R371, R372). -/

namespace Sys2Proof.Machine

open Sys2Proof

/-! ## A work item starts and ends (R358) -/

theorem addUsage_cph_of_vault (s : State) {c : Nat} (n : Nat) (vault : vaultBase ≤ c) : (s.addUsage c n).cph = s.cph := by
  unfold State.addUsage
  split
  · rfl
  · extract_lets used soft hard kept told
    have same : told.cph = kept.cph := by
      unfold told
      split
      · rw [if_neg (Nat.not_lt.mpr vault)]
        exact (State.noteFor_touches ..).cph (by decide)
      · rfl
    split
    · exact ((State.noteFor_touches ..).cph (by decide)).trans same
    · exact same

theorem stageSlot_cph (s : State) (c : Nat) : ∃ caches, (s.stageSlot c).cph = { s.cph with caches := caches } := by
  unfold State.stageSlot
  split
  · exact ⟨_, rfl⟩
  · exact ⟨_, rfl⟩

theorem foldl_stageSlot_cph (slots : List Nat) (s : State) : ∃ caches, (slots.foldl State.stageSlot s).cph = { s.cph with caches := caches } := by
  induction slots generalizing s with
  | nil => exact ⟨_, rfl⟩
  | cons c slots ih =>
    obtain ⟨caches, first⟩ := stageSlot_cph s c
    obtain ⟨caches', rest⟩ := ih (s.stageSlot c)
    exact ⟨caches', by rw [List.foldl_cons, rest, first]⟩

/-- A started item holds slot c and its blocks count as use of it. -/
def State.slotInUse (blocks : Nat) (s : State) (c : Nat) : State :=
  ((s.modSlot c (fun k => { k with inflight := k.inflight + 1, st := if k.st = .loaded then .active else k.st })).inc (Reg.kvtCountLo 4)).addUsage c blocks

theorem foldl_slotInUse_cph (blocks : Nat) (slots : List Nat) (s : State) (vault : ∀ c ∈ slots, vaultBase ≤ c) :
    (slots.foldl (State.slotInUse blocks) s).cph = s.cph := by
  induction slots generalizing s with
  | nil => rfl
  | cons c slots ih =>
    obtain ⟨head, tail⟩ := List.forall_mem_cons.mp vault
    refine (ih _ tail).trans ?_
    unfold State.slotInUse
    exact (addUsage_cph_of_vault _ blocks head).trans ((State.modSlot_touches ..).cph (by decide))

theorem startItem_id (s : State) (kind : ItemKind) (slots : List Nat) (blocks : Nat) (pairs : List Nat) :
    (s.startItem kind slots blocks pairs).1 = s.cph.nextItem := rfl

theorem startItem_cph (s : State) (kind : ItemKind) {slots : List Nat} (blocks : Nat) (pairs : List Nat) (vault : ∀ c ∈ slots, vaultBase ≤ c) :
    ∃ caches keys, (s.startItem kind slots blocks pairs).2.cph =
      { s.cph with caches := caches, items := SMap.set noneOf s.cph.items s.cph.nextItem (some ⟨kind, slots, keys, pairs⟩), nextItem := s.cph.nextItem + 1 } := by
  obtain ⟨caches, staged⟩ := foldl_stageSlot_cph slots s
  refine ⟨caches, slots.map ((slots.foldl State.stageSlot s).keySnapshot (pairs.headD 0)), (foldl_slotInUse_cph blocks slots _ vault).trans ?_⟩
  rw [staged]

theorem endItem_item (s : State) (i : Nat) : (s.endItem i).item i = none := by
  unfold State.endItem
  split
  case _ absent => exact absent
  case _ x _ =>
    have cph : ∀ (slots : List Nat) (u : State), (slots.foldl (fun s c => s.modSlot c (fun k => { k with inflight := k.inflight - 1 })) u).cph = u.cph := by
      intro slots
      induction slots with
      | nil => exact fun _ => rfl
      | cons c slots ih => exact fun u => (ih _).trans ((State.modSlot_touches ..).cph (by decide))
    unfold State.item
    rw [cph]
    exact SMap.get_set_self noneOf s.cph.items i none

theorem endItem_out (s : State) (i : Nat) : (s.endItem i).out = s.out := (State.endItem_touches ..).out (by decide)

/-! ## A picked job starts (R367, R368, R371) -/

/-- The bookkeeping of DWRR and of the round robin over rings when allotment j.allot's job is picked. -/
def State.served (s : State) (j : Job) (deficit : SMap Nat) : State :=
  { s with cph := { s.cph with deficit := deficit, turn := some j.allot, lastRing := SMap.set zeroOf s.cph.lastRing j.allot j.ring } }

section
variable {src : List Byte} {seen : MemOutcome} {s : State} (flushed : s.flushAll = s)
include flushed

theorem lookasideAdmit_idle (bad : Bool) (none_ : s.chooseJob = none) : exec (.lookasideAdmit src true seen bad) s = .next s := by
  refine Eq.trans (b := execLookasideAdmit src true seen bad s) rfl ?_
  unfold execLookasideAdmit
  rw [flushed]
  dsimp only
  rw [none_]

theorem lookasideAdmit_starts {n p : Nat} {j : Job} {deficit : SMap Nat} (bad : Bool) (picked : s.chooseJob = some (n, j, deficit))
    (pair : s.jobPair (JobDesc.of j.desc) = some p) (host : (JobDesc.of j.desc).srcScratch = false)
    (open_ : (JobDesc.of j.desc).dstScratch = false ∨ j.allot ∉ s.mgd.winInit) :
    exec (.lookasideAdmit src true seen bad) s = .next ((s.served j deficit).startJob n j p (slice src 0 (JobDesc.of j.desc).srcLen) bad) := by
  have free : (((JobDesc.of j.desc).srcScratch || (JobDesc.of j.desc).dstScratch) && s.mgd.winInit.contains j.allot) = false := by
    rw [host, Bool.false_or, Bool.and_eq_false_iff]
    exact open_.imp id (fun out => by simpa using out)
  refine Eq.trans (b := execLookasideAdmit src true seen bad s) rfl ?_
  unfold execLookasideAdmit
  rw [flushed]
  dsimp only
  rw [picked]
  dsimp only
  rw [pair]
  dsimp only
  rw [if_neg (by rw [free]; decide), if_neg (by rw [host]; decide), if_neg (by decide)]
  rfl

end

/-- A job whose slots are all its own vault slots starts as a work item on its pair, with the result of R367. -/
theorem startJob_starts {s : State} {n p : Nat} {j : Job} {d : JobDesc} (desc : d = JobDesc.of j.desc) (src : List Byte) (plain : d.mode ≠ 6)
    (slots : ∀ c ∈ d.slots, s.jobSlotOk j.allot d c = true ∧ vaultBase ≤ c) :
    ((s.startJob n j p src false).job n = some { j with
        item := some s.cph.nextItem, pair := p
        status := (jobResult d (s.keyOf (d.slots.getD 0 0)) (s.keyOf (d.slots.getD 1 0)) src).1
        output := (jobResult d (s.keyOf (d.slots.getD 0 0)) (s.keyOf (d.slots.getD 1 0)) src).2 }) ∧
      (∀ m, m ≠ n → (s.startJob n j p src false).job m = s.job m) ∧
      ((s.startJob n j p src false).item s.cph.nextItem).map (fun x => (x.kind, x.slots, x.pairs)) = some (.job n, d.slots, [p]) ∧
      (s.startJob n j p src false).cph.turn = s.cph.turn := by
  obtain ⟨caches, keys, cph⟩ := startItem_cph s (.job n) d.blocks [p] (fun c mem => (slots c mem).2)
  have allowed : d.slots.all (s.jobSlotOk j.allot d) = true := List.all_eq_true.mpr (fun c mem => (slots c mem).1)
  have counted : ((s.startItem (.job n) d.slots d.blocks [p]).2.cphCount 4 d.blocks).cph = (s.startItem (.job n) d.slots d.blocks [p]).2.cph :=
    (State.cphCount_touches ..).cph (by decide)
  have run : s.startJob n j p src false = ((s.startItem (.job n) d.slots d.blocks [p]).2.cphCount 4 d.blocks).setJob n
      (some { j with
        item := some s.cph.nextItem, pair := p
        status := (jobResult d (s.keyOf (d.slots.getD 0 0)) (s.keyOf (d.slots.getD 1 0)) src).1
        output := (jobResult d (s.keyOf (d.slots.getD 0 0)) (s.keyOf (d.slots.getD 1 0)) src).2 }) := by
    unfold State.startJob
    rw [← desc]
    dsimp only
    rw [if_neg (by rw [allowed]; decide), if_neg (by decide), if_neg (fun both => plain both.1)]
    rfl
  rw [run]
  refine ⟨job_setJob_self .., fun m other => (job_setJob_ne _ _ other).trans ?_, ?_, ?_⟩
  · unfold State.job
    rw [counted, cph]
  · have items : ((s.startItem (.job n) d.slots d.blocks [p]).2.cphCount 4 d.blocks).cph.items =
        SMap.set noneOf s.cph.items s.cph.nextItem (some ⟨.job n, d.slots, keys, [p]⟩) := by rw [counted, cph]
    show ((SMap.get noneOf ((s.startItem (.job n) d.slots d.blocks [p]).2.cphCount 4 d.blocks).cph.items s.cph.nextItem).map _) = _
    rw [items, SMap.get_set_self]
    rfl
  · show ((s.startItem (.job n) d.slots d.blocks [p]).2.cphCount 4 d.blocks).cph.turn = _
    rw [counted, cph]

/-! ## A done job completes (R371, R372) -/

theorem lookasideComplete_idle {n : Nat} {seen : MemOutcome} {s : State} (gone : s.job n = none) : exec (.lookasideComplete n true seen) s = .next s := by
  refine Eq.trans (b := execLookasideComplete n true seen s) rfl ?_
  unfold execLookasideComplete
  rw [gone]

/-- The state in which job j has ended with a STATUS and its item i is gone. -/
def State.jobOver (s : State) (n i status len : Nat) (j : Job) : State := (s.endItem i).setJob n (some { j with fin := some (status, len) })

theorem endJob_eq {s : State} {n i : Nat} {j : Job} (status len : Nat) (job : s.job n = some j) (item : j.item = some i) :
    s.endJob n status len = ((s.jobOver n i status len j).flushRing j.allot j.ring ((s.jobOver n i status len j).cph.jobs.length + 1)).fillVacant 72 := by
  unfold State.endJob State.jobOver
  rw [job]
  dsimp only
  rw [item]

/-- A job with an item ends: its item is gone, its end is kept until it completes, and what has left the module has left. -/
theorem endJob_ends {s : State} {n i status len : Nat} {j : Job} (job : s.job n = some j) (item : j.item = some i) :
    (s.endJob n status len).item i = none ∧
      ((s.endJob n status len).job n = none ∨ (s.endJob n status len).job n = some { j with fin := some (status, len) }) ∧
      ∃ os, (s.endJob n status len).out = s.out ++ os := by
  rw [endJob_eq status len job item]
  have gone : (s.jobOver n i status len j).item i = none := endItem_item s i
  have kept : (s.jobOver n i status len j).job n = some { j with fin := some (status, len) } := job_setJob_self ..
  have out : (s.jobOver n i status len j).out = s.out := endItem_out s i
  generalize s.jobOver n i status len j = u at gone kept out ⊢
  have flushed := Flushed.flushRing u j.allot j.ring (u.cph.jobs.length + 1)
  have filled := RolesFilled.fillVacant (u.flushRing j.allot j.ring (u.cph.jobs.length + 1)) 72
  obtain ⟨os, first⟩ := flushed.out
  obtain ⟨ps, second⟩ := filled.out
  refine ⟨?_, ?_, os ++ ps, ?_⟩
  · unfold State.item at gone ⊢
    rw [filled.items, flushed.items]
    exact gone
  · have same : ((u.flushRing j.allot j.ring (u.cph.jobs.length + 1)).fillVacant 72).job n = (u.flushRing j.allot j.ring (u.cph.jobs.length + 1)).job n := by
      unfold State.job
      rw [filled.jobs]
    rw [same]
    exact (flushed.job n).symm.imp id (fun e => e.trans kept)
  · rw [second, first, out, List.append_assoc]

theorem lookasideComplete_writes {n i : Nat} {seen : MemOutcome} {s : State} {j : Job} (job : s.job n = some j) (item : j.item = some i) (runs : j.fin = none)
    (good : j.status = 0) (host : (JobDesc.of j.desc).dstScratch = false) (some_ : j.output ≠ []) :
    exec (.lookasideComplete n true seen) s = .next ((s.dma j.allot true (JobDesc.of j.desc).dst j.output).endJob n 0 j.output.length) := by
  refine Eq.trans (b := execLookasideComplete n true seen s) rfl ?_
  unfold execLookasideComplete
  rw [job]
  dsimp only
  rw [if_neg (by simp [item, runs]), if_neg (by rw [good]; decide), if_neg (by rw [host]; decide), if_neg (by decide), if_neg some_]

end Sys2Proof.Machine

open Sys2Proof Sys2Proof.Machine

/-- Settles O42: a fetch and a completion each change one job, and an admission adds one item and one running job. -/
theorem lookasideJobs : Obligations.LookasideJobs := by
  unfold Obligations.LookasideJobs
  refine ⟨fun n r d s ring may => ⟨lookasideJob_waits ring may, lookasideJob_refused ring may⟩, fun n r d s => lookasideJob_idle,
    fun src seen s flushed => ⟨lookasideAdmit_idle flushed false, ?_⟩, fun n seen s j job i item runs good host some_ => ?_, fun n seen s => lookasideComplete_idle⟩
  · rintro n j deficit picked d rfl p pair host plain open_ slots
    exact ⟨_, lookasideAdmit_starts flushed false picked pair host open_,
      startJob_starts (s := s.served j deficit) rfl (slice src 0 (JobDesc.of j.desc).srcLen) plain slots⟩
  · obtain ⟨gone, fin, os, out⟩ := endJob_ends (s := s.dma j.allot true (JobDesc.of j.desc).dst j.output) (status := 0) (len := j.output.length) job item
    refine ⟨_, lookasideComplete_writes job item runs good host some_, ?_, gone, fin⟩
    rw [out]
    exact List.mem_append_left os (List.mem_append_right s.out (List.mem_singleton_self _))

end

section
/-! SAVE and RESTORE up to their first write (R532 to R534): refusals, the blob of SAVE and the capped associations. -/

namespace Sys2Proof.Machine

open Sys2Proof

section
variable {s : State} {desc : List Byte}

/-! ## A descriptor of the HIF unit is fetched -/

/-- A migration command that is refused, or whose transfer fails, leaves a completion record and no more but events. -/
theorem refused_completes (may : s.mayFetch 0 0 = true) {u : State} (kept : RingsKept (s.fetched 0 0) u)
    (touched : Touches Part.note (s.fetched 0 0) u) (tag code : Nat) :
    s.Completes (u.complete 0 tag code 2 0 0 (s.ringM 0 0) 0) 0 tag code 2 0 0 (s.ringM 0 0) 0 ∧
      Touches Part.note s (u.complete 0 tag code 2 0 0 (s.ringM 0 0) 0) ∧
      (u.complete 0 tag code 2 0 0 (s.ringM 0 0) 0).ringM 0 0 = (s.ringM 0 0 + 1) % 65536 := by
  obtain ⟨link, on⟩ := link_of_mayFetch may
  refine ⟨complete_completes ((fetched_same (by decide)).trans (.of_kept (by decide) kept)) link on, ?_, ?_⟩
  · exact (State.complete_touches ..).chain (by decide) (touched.chain (fun _ h => h)
      ((State.inc_touches ..).chain (by decide) ((State.fetchNext_touches ..).mono (by decide))))
  · exact (complete_rings _ (0 * 16 + 0) (by decide)).trans ((ringM_of_kept kept 0 (by decide)).trans fetched_index)

theorem dmaError_touches (s : State) (n : Nat) : Touches Part.note s (s.dmaError n) :=
  (State.noteFor_touches ..).chain (by decide) ((State.inc_touches ..).mono (by decide))

/-! ## SAVE (R532, R533) -/

variable (ready : s.ringReady 0 = true) (unit : (CmdDesc.of desc).unit = 2)
include ready unit

/-- The code of the SAVE that a descriptor names. -/
abbrev State.saveCodeOf (s : State) (d : CmdDesc) : Nat := s.saveCode (d.word 0).toNat (d.word 1).toNat (d.word 2).toNat d.outMax

theorem migSave_refused (w : Bool) (refused : s.saveCodeOf (CmdDesc.of desc) ≠ 0) : exec (.migSave desc w) s =
    .next ((s.fetched 0 0).complete 0 (CmdDesc.of desc).tag (s.saveCodeOf (CmdDesc.of desc)) 2 0 0 (s.ringM 0 0) 0) := by
  rw [← unit]
  exact (if_neg (by simp [ready, unit])).trans (if_pos refused)

theorem migSave_unwritten (open_ : s.saveCodeOf (CmdDesc.of desc) = 0) : exec (.migSave desc false) s =
    .next (((s.fetched 0 0).dmaError 0).complete 0 (CmdDesc.of desc).tag 0xF2 2 0 0 (s.ringM 0 0) 0) := by
  rw [← unit]
  exact (if_neg (by simp [ready, unit])).trans ((if_neg (not_not.mpr open_)).trans (if_pos rfl))

/-- The state that a SAVE leaves before its event and its record. -/
def State.saved (s : State) (d : CmdDesc) (blob : List Byte) : State :=
  ((s.fetched 0 0).dma 0 true d.outAddr blob).capAssocs (d.word 0).toNat (d.word 2).toNat

theorem migSave_writes {k : Nat} (wrap : s.wrapSlot ((CmdDesc.of desc).word 1).toNat = some k)
    (open_ : s.saveCodeOf (CmdDesc.of desc) = 0) {b : List Byte} {counts : List Nat}
    (blob : s.migBlob ((CmdDesc.of desc).word 0).toNat k ((CmdDesc.of desc).word 2).toNat = (b, counts)) :
    exec (.migSave desc true) s = .next (((s.saved (CmdDesc.of desc) b).noteFor Ev.migSaved ((CmdDesc.of desc).word 0).toNat
      (counts.flatMap (beBytes 4))).complete 0 (CmdDesc.of desc).tag 0 2 0 b.length (s.ringM 0 0) 0) := by
  have made : (s.fetched 0 0).migBlob ((CmdDesc.of desc).word 0).toNat (((s.fetched 0 0).wrapSlot ((CmdDesc.of desc).word 1).toNat).getD 0)
      ((CmdDesc.of desc).word 2).toNat = (b, counts) := by
    rw [show (s.fetched 0 0).wrapSlot ((CmdDesc.of desc).word 1).toNat = some k from wrap]
    exact blob
  rw [← unit]
  refine (if_neg (by simp [ready, unit])).trans ((if_neg (not_not.mpr open_)).trans ((if_neg (by decide)).trans ?_))
  split
  next b' counts' blob' =>
  cases made.symm.trans blob'
  rfl

end

/-! ## Capped associations (R533) -/

theorem ctx_modCtx (s : State) (b a : Nat) (f : Ctx → Ctx) : (s.modCtx b f).ctx a = if a = b then (s.ctx a).map f else s.ctx a := by
  unfold State.modCtx
  by_cases same : a = b
  · subst same
    rw [if_pos rfl]
    cases known : s.ctx a with
    | none => exact known
    | some c => exact ctx_setCtx_same ..
  · rw [if_neg same]
    split
    · exact ctx_setCtx_ne _ _ same
    · rfl

theorem ctx_foldl_modCtx {α : Type} (key : α → Nat) (f : Ctx → Ctx) (l : List α) (distinct : (l.map key).Nodup) (s : State) (a : Nat) :
    (l.foldl (fun s e => s.modCtx (key e) f) s).ctx a = if a ∈ l.map key then (s.ctx a).map f else s.ctx a := by
  induction l generalizing s with
  | nil => rfl
  | cons e l ih =>
    rw [List.map_cons, List.nodup_cons] at distinct
    rw [List.foldl_cons, ih distinct.2, ctx_modCtx, List.map_cons]
    by_cases same : a = key e
    · subst same
      rw [if_neg distinct.1, if_pos rfl, if_pos List.mem_cons_self]
    · simp [same]

/-- The entry of a key in a map of canonical form. -/
theorem get_of_mem {β : Type} [DecidableEq β] (d : Nat → β) {m : SMap β} (wf : SMap.wf d m = true) {k : Nat} {v : β} (mem : (k, v) ∈ m) :
    SMap.get d m k = v := by
  obtain ⟨rising, -⟩ := (SMap.wf_iff d m).mp wf
  have found : List.lookup k m = some v := by
    obtain ⟨before, after, rfl⟩ := List.append_of_mem mem
    refine List.lookup_eq_some_iff.mpr ⟨before, after, rfl, fun p left => ?_⟩
    have lower := (List.pairwise_append.mp rising).2.2 p left (k, v) List.mem_cons_self
    simpa using Nat.ne_of_gt lower
  unfold SMap.get
  rw [found]

theorem mem_of_get {β : Type} {m : SMap (Option β)} {k : Nat} {v : β} (found : SMap.get noneOf m k = some v) : (k, some v) ∈ m := by
  unfold SMap.get at found
  split at found
  · next w listed =>
    subst found
    obtain ⟨before, after, rfl, -⟩ := List.lookup_eq_some_iff.mp listed
    simp
  · cases found

section
variable {s : State} (wf : SMap.wf noneOf s.asc.ctxs = true) (n : Nat)
include wf

theorem assocsOf_ids_nodup : ((s.assocsOf n).map (·.1)).Nodup := by
  have rising := ((SMap.wf_iff noneOf s.asc.ctxs).mp wf).1
  refine List.pairwise_map.mpr (List.Pairwise.imp (fun h => Nat.ne_of_lt h) ?_)
  refine List.Pairwise.filterMap (R := fun p q => p.1 < q.1) _ (fun p q lower x px y qy => ?_) rising
  have key {p : Nat × Option Ctx} {x : Nat × Ctx}
      (h : x ∈ (match p.2 with | some c => if c.owner = n then some (p.1, c) else none | none => none)) : x.1 = p.1 := by
    split at h
    · split at h
      · cases h; rfl
      · cases h
    · cases h
  rw [key px, key qy]
  exact lower

theorem mem_assocsOf (a : Nat) : a ∈ (s.assocsOf n).map (·.1) ↔ ∃ c, s.ctx a = some c ∧ c.owner = n := by
  unfold State.assocsOf
  simp only [List.mem_map, List.mem_filterMap, Prod.exists, exists_and_right, exists_eq_right]
  constructor
  · rintro ⟨c, k, v, mem, entry⟩
    split at entry
    · split at entry
      · next own =>
        cases entry
        exact ⟨_, get_of_mem noneOf wf mem, own⟩
      · cases entry
    · cases entry
  · rintro ⟨c, known, own⟩
    exact ⟨c, a, some c, mem_of_get known, if_pos own⟩

/-- A context whose transmit SA is capped (R533). -/
def Ctx.capped (m : Nat) (c : Ctx) : Ctx := { c with cap := some (c.txNext + 2 ^ m - 1) }

/-- The associations of n are capped, and no other changes (R533). -/
theorem capAssocs_ctx (m a : Nat) : (s.capAssocs n m).ctx a =
    (s.ctx a).map (fun c => if c.owner = n then c.capped m else c) := by
  refine (ctx_foldl_modCtx (·.1) (Ctx.capped m) (s.assocsOf n) (assocsOf_ids_nodup wf n) s a).trans ?_
  by_cases own : ∃ c, s.ctx a = some c ∧ c.owner = n
  · obtain ⟨c, known, own'⟩ := own
    rw [if_pos ((mem_assocsOf wf n a).mpr ⟨c, known, own'⟩), known, Option.map_some, Option.map_some, if_pos own']
  · rw [if_neg (mt (mem_assocsOf wf n a).mp own)]
    cases known : s.ctx a with
    | none => rfl
    | some c => rw [Option.map_some, if_neg fun h => own ⟨c, known, h⟩]

end

end Sys2Proof.Machine
end

section
/-! What a RESTORE leaves as it was while it applies a blob (R535): rings, mode, and whose the contexts are. -/

namespace Sys2Proof.Machine

open Sys2Proof

/-! ## What a RESTORE keeps while it applies a blob -/

/-- Association a has a context, and its owner is o. -/
def State.OwnedBy (s : State) (o a : Nat) : Prop := (s.ctx a).map (·.owner) = some o

/-- From s to t the rings, the mode and the counter of MIG_RESTORED are as they were, and what allotment o owned it still owns. -/
structure RestoreKeeps (o : Nat) (s t : State) : Prop where
  ctl : t.ctl = s.ctl
  rd : ∀ k, ¬RecordKey k → t.rd k = s.rd k
  ring : ∀ i, i % 16 ≠ 12 → SMap.get zeroOf t.hif.ringMod i = SMap.get zeroOf s.hif.ringMod i
  link : t.hif.linkUp = s.hif.linkUp
  counts : s.ctl.mode ≠ .sentry → t.events Ev.migRestored = s.events Ev.migRestored
  owned : ∀ a, s.OwnedBy o a → t.OwnedBy o a

theorem ownedBy_of_ctxs {s t : State} (ctxs : t.asc.ctxs = s.asc.ctxs) {o a : Nat} (h : s.OwnedBy o a) : t.OwnedBy o a := by
  unfold State.OwnedBy State.ctx
  rw [ctxs]
  exact h

@[simp] theorem Ctx.setHigh_owner (c : Ctx) (k v : Nat) : (c.setHigh k v).owner = c.owner := by
  unfold Ctx.setHigh
  split <;> rfl

@[simp] theorem Ctx.setFresh_owner (c : Ctx) (k : Nat) (v : Bool) : (c.setFresh k v).owner = c.owner := by
  unfold Ctx.setFresh
  split <;> rfl

@[simp] theorem Ctx.setDead_owner (c : Ctx) (k : Nat) (v : Bool) : (c.setDead k v).owner = c.owner := by
  unfold Ctx.setDead
  split <;> rfl

namespace RestoreKeeps

variable {o : Nat}

theorem refl (s : State) : RestoreKeeps o s s := ⟨rfl, fun _ _ => rfl, fun _ _ => rfl, rfl, fun _ => rfl, fun _ => id⟩

theorem trans {s t u : State} (h : RestoreKeeps o s t) (k : RestoreKeeps o t u) : RestoreKeeps o s u :=
  ⟨k.ctl.trans h.ctl, fun i w => (k.rd i w).trans (h.rd i w), fun i w => (k.ring i w).trans (h.ring i w), k.link.trans h.link,
    fun awake => (k.counts (by rw [h.ctl]; exact awake)).trans (h.counts awake), fun a => k.owned a ∘ h.owned a⟩

theorem ite {s a b : State} {c : Prop} [Decidable c] (h : RestoreKeeps o s a) (k : RestoreKeeps o s b) : RestoreKeeps o s (if c then a else b) := by
  split <;> assumption

theorem foldl {α : Type} {f : State → α → State} (l : List α) (s : State) (h : ∀ x a, RestoreKeeps o x (f x a)) :
    RestoreKeeps o s (l.foldl f s) := by
  induction l generalizing s with
  | nil => exact refl s
  | cons a l ih => exact (h s a).trans (ih (f s a))

/-- An operation that touches no register, ring, event or mode, and of the Association Engine not the contexts. -/
theorem of_touches {m : List Part} {s t : State} (h : Touches m s t) (ctxs : t.asc.ctxs = s.asc.ctxs) (ctl : Part.ctl ∉ m := by decide)
    (regs : Part.regs ∉ m := by decide) (hif : Part.hif ∉ m := by decide) (led : Part.led ∉ m := by decide) : RestoreKeeps o s t :=
  ⟨h.ctl ctl, fun k _ => rd_of_regs (h.regs regs) k, fun i _ => by rw [h.hif hif], by rw [h.hif hif],
    fun _ => events_of_led (h.led led) _, fun _ => ownedBy_of_ctxs ctxs⟩

theorem of_untouched {m : List Part} {s t : State} (h : Touches m s t) (asc : Part.asc ∉ m := by decide) (ctl : Part.ctl ∉ m := by decide)
    (regs : Part.regs ∉ m := by decide) (hif : Part.hif ∉ m := by decide) (led : Part.led ∉ m := by decide) : RestoreKeeps o s t :=
  of_touches h (by rw [h.asc asc]) ctl regs hif led

theorem noteAs (s : State) (code level allot : Nat) (owners : List Nat) (ps : List Byte) (other : Ev.migRestored.code ≠ code) :
    RestoreKeeps o s (s.noteAs code level allot owners ps) := by
  obtain ⟨touches, rd, -, -, -, ⟨_, _, _, _, _, hif⟩, ring, -, -⟩ := Recorded.noteAs s code level allot owners ps
  refine ⟨touches.ctl (by decide), rd, ring, by rw [hif], fun awake => ?_, fun _ => ownedBy_of_ctxs (by rw [touches.asc (by decide)])⟩
  rw [noteAs_events s code level allot owners ps _ awake (by decide) (by decide), if_neg other]

theorem note (s : State) (e : EvKind) (ps : List Byte) (other : Ev.migRestored.code ≠ e.code := by decide) :
    RestoreKeeps o s (s.note e ps) := noteAs _ _ _ _ _ _ other

theorem noteFor (s : State) (e : EvKind) (n : Nat) (ps : List Byte) (other : Ev.migRestored.code ≠ e.code := by decide) :
    RestoreKeeps o s (s.noteFor e n ps) := noteAs _ _ _ _ _ _ other

/-! ### Contexts -/

theorem setCtx (s : State) (a : Nat) {c : Ctx} (own : s.OwnedBy o a → c.owner = o) : RestoreKeeps o s (s.setCtx a (some c)) := by
  refine ⟨rfl, fun _ _ => rfl, fun _ _ => rfl, rfl, fun _ => rfl, fun b h => ?_⟩
  unfold State.OwnedBy
  by_cases same : b = a
  · subst same
    rw [ctx_setCtx_same, Option.map_some, own h]
  · rw [ctx_setCtx_ne _ _ same]
    exact h

/-- A context is set to one that keeps the owner of the context it had. -/
theorem setCtx_sameOwner {s : State} {a : Nat} {c d : Ctx} (known : s.ctx a = some c) (same : d.owner = c.owner) :
    RestoreKeeps o s (s.setCtx a (some d)) := by
  refine setCtx s a fun h => ?_
  unfold State.OwnedBy at h
  rw [known] at h
  exact same.trans (Option.some.inj h)

theorem modCtx (s : State) (a : Nat) {f : Ctx → Ctx} (same : ∀ c, (f c).owner = c.owner) : RestoreKeeps o s (s.modCtx a f) := by
  unfold State.modCtx
  split
  next c known => exact setCtx_sameOwner known (same c)
  next => exact refl s

/-! ### Stores -/

theorem wr (s : State) {k : Nat} (v : Word) (own : RecordKey k) : RestoreKeeps o s (s.wr k v) :=
  ⟨rfl, (Recorded.wr s v own).rd, fun _ _ => rfl, rfl, fun _ => rfl, fun _ => id⟩

theorem setStores (s : State) (st : Stores) : RestoreKeeps o s { s with st := st } :=
  of_untouched (m := [.st]) (.set_st (.rfl' _ s) (by decide))

theorem defer (s : State) (r : StoreReq) : RestoreKeeps o s (s.defer r) := by
  unfold State.defer
  exact ite (refl s) (((setStores ..).trans (wr (k := Reg.stwStoreDeferrals) _ _ (by decide))).trans (note ..))

theorem tryMram (s : State) (r : StoreReq) : RestoreKeeps o s (s.tryMram r) := by
  unfold State.tryMram
  split
  · exact refl s
  · exact ite (setStores ..) (defer ..)

theorem startMram (s : State) : RestoreKeeps o s s.startMram := by
  unfold State.startMram
  refine ite (refl s) (ite (foldl _ s tryMram) ?_)
  split
  · exact refl s
  · exact tryMram ..

theorem startNor (s : State) : RestoreKeeps o s s.startNor := by
  unfold State.startNor
  split
  · exact refl s
  · split
    · exact refl s
    · exact ite (setStores ..) (defer ..)

theorem startStores (s : State) : RestoreKeeps o s s.startStores := (startMram s).trans (startNor _)

theorem requestStore {s : State} (r : StoreReq) (room : s.st.queue.length < storeCap) : RestoreKeeps o s (s.requestStore r).1 := by
  rw [requestStore_of_room r room]
  exact (of_untouched (m := [.st]) (.set_st (.rfl' _ s) (by decide))).trans (startStores _)

theorem storeSealed {s : State} (p : Payload) (who : Waiter) (room : s.st.queue.length < storeCap) :
    RestoreKeeps o s (s.storeSealed p who).1 := by
  unfold State.storeSealed
  have kept := requestStore (o := o) (recordStore .sealedRec p who) room
  split
  next t ok made =>
  rw [made] at kept
  exact ite (kept.trans (of_untouched (State.inc_touches ..))) kept

theorem storePn {s : State} (a : Nat) (r : PnRec) (who : Waiter) (room : s.st.queue.length < storeCap) :
    RestoreKeeps o s (s.storePn a r who).1 := by
  unfold State.storePn
  rw [requestStore_of_room _ room]
  have conveyed (x : State) (kind mark : Nat) {c : Prop} [Decidable c] : RestoreKeeps o x (if c then x.conveyMark kind a mark else x) :=
    ite (of_untouched (State.conveyMark_touches ..)) (refl x)
  have kept := requestStore (o := o) (recordStore .reservation (.pnRec a r) who) room
  rw [requestStore_of_room _ room] at kept
  exact (kept.trans (conveyed ..)).trans (conveyed ..)

/-- A record is stored for a context that has changed but for its owner. -/
theorem setCtx_storePn {s : State} {a : Nat} {c d : Ctx} (known : s.ctx a = some c) (same : d.owner = c.owner) (r : PnRec) (who : Waiter)
    (room : s.st.queue.length < storeCap) : RestoreKeeps o s ((s.setCtx a (some d)).storePn a r who).1 :=
  (setCtx_sameOwner known same).trans (storePn a r who room)

theorem askRxMark {s : State} (a : Nat) (room : s.st.queue.length < storeCap) : RestoreKeeps o s (s.askRxMark a) := by
  unfold State.askRxMark
  split
  · exact refl s
  · next c known =>
    refine ite (refl s) ?_
    extract_lets asked
    have kept := setCtx_storePn (o := o) (d := { c with rxAsked := true }) known rfl
      { asked.pnRec a with rxMark := c.rxMark + 2 ^ asked.reserveExp } .nobody room
    split
    next t ok made =>
    rw [made] at kept
    exact ite kept (kept.trans (modCtx t a fun _ => rfl))

theorem startRxSa {s : State} (a k : Nat) (who : Waiter) (room : s.st.queue.length < storeCap) :
    RestoreKeeps o s (s.startRxSa a k who).1 := by
  unfold State.startRxSa
  split
  · exact refl s
  · next c known =>
    extract_lets fp r
    split
    · split
      · refine (setCtx_sameOwner known ?_).trans (askRxMark a room)
        exact (Ctx.setDead_owner ..).trans (Ctx.setHigh_owner ..)
      · refine setCtx_storePn known ?_ _ _ room
        exact (Ctx.setDead_owner ..).trans (Ctx.setHigh_owner ..)
    · refine setCtx_storePn known ?_ _ _ room
      exact (Ctx.setDead_owner ..).trans ((Ctx.setFresh_owner ..).trans (Ctx.setHigh_owner ..))

theorem startTxSa {s : State} (a k : Nat) (who : Waiter) (room : s.st.queue.length < storeCap) :
    RestoreKeeps o s (s.startTxSa a k who).1 := by
  unfold State.startTxSa
  split
  · exact refl s
  · next c known =>
    extract_lets fp next set conveyed
    have told : Touches [.yok, .out] set conveyed := State.convey_touches ..
    have kept : RestoreKeeps o s set := setCtx_sameOwner known rfl
    refine (kept.trans (of_untouched told)).trans (storePn a _ _ ?_)
    rw [told.st (by decide)]
    exact room

/-- What a context keeps of its reservation record and counters is lost and its SAs start again (R320, R321): its owner stays. -/
theorem rebuild {s : State} (a : Nat) (room : s.st.queue.length + 2 ≤ storeCap) : RestoreKeeps o s (s.rebuild a) := by
  unfold State.rebuild
  split
  · exact refl s
  · next c known =>
    extract_lets r has tx rx cleared other set started
    have own : other.owner = c.owner := by
      unfold other
      split
      · exact Ctx.setFresh_owner ..
      · exact Ctx.setDead_owner ..
    have setKept : RestoreKeeps o s set := setCtx_sameOwner known own
    have startedKept : RestoreKeeps o s started := ite (setKept.trans (startRxSa a rx .nobody (show s.st.queue.length < storeCap by omega))) setKept
    have asked : StoresAsked Part.marked 1 set started := by
      unfold started
      split
      · exact startRxSa_asks a rx .nobody (show s.st.queue.length < storeCap by omega)
      · exact .refl ..
    have queue : started.st.queue.length ≤ s.st.queue.length + 1 := asked.queue
    refine ite (ite ?_ ?_) startedKept
    · exact startedKept.trans (modCtx _ _ fun _ => rfl)
    · exact startedKept.trans (startTxSa a tx .nobody (by omega))

theorem sealSlot {s : State} (c : Nat) (key : List Byte) (a : Word) (who : Waiter) (room : s.st.queue.length < storeCap) :
    RestoreKeeps o s (s.sealSlot c key a who).1 := by
  unfold State.sealSlot
  split
  · have drawn := State.sealRec_touches s 1 (slotWord c) (setBits (a &&& attrMask) 31 29 1) (slice key 0 32)
    split
    next r t made =>
    rw [made] at drawn
    refine (of_untouched drawn).trans (storeSealed _ _ ?_)
    rw [drawn.st (by decide)]
    exact room
  · split
    · exact storeSealed _ _ room
    · exact refl s

theorem installKey (s : State) (c : Nat) (key : List Byte) (a : Word) : RestoreKeeps o s (s.installKey c key a) := by
  unfold State.installKey
  extract_lets inflight cut updated
  have loaded : RestoreKeeps o s updated :=
    of_untouched (m := [.cph, .kvt]) (.set_kvt (.set_cph (.rfl' _ s) (by decide)) (by decide))
  refine ite (loaded.trans (modCtx _ _ fun x => ?_)) loaded
  dsimp only
  split <;> split <;> rfl

end RestoreKeeps

end Sys2Proof.Machine
end

section
/-! One association of a blob after another (R535): the stores they ask for and the lines they write. -/

namespace Sys2Proof.Machine

open Sys2Proof

/-! ## A context's lines are written once each (R294, R306) -/

/-- A full write of a line whose MINOR is low raises that MINOR by at most 1, and no other. -/
theorem writeLine_raises {s : State} {l : Nat} (low : (s.gline l).minor < 255) (d : Domain) (data : List Byte) (q : Nat) :
    Touches [.cnt, .mgd, .out] s (s.writeLine d l data .good q).1 ∧
      ∀ j, ((s.writeLine d l data .good q).1.gline j).minor ≤ (s.gline j).minor + if j = l then 1 else 0 := by
  unfold State.writeLine
  dsimp only
  split
  · exact ⟨(State.mgdCount_touches ..).mono (by decide), fun j => Nat.le_add_right ..⟩
  · rw [if_neg (by decide)]
    refine ⟨?_, fun j => ?_⟩
    · exact (State.emitLine_touches ..).chain (by decide) ((State.mgdCount_touches ..).chain (by decide)
        ((State.bumpRoot_touches ..).chain (by decide) ((State.setLine_touches ..).mono (by decide))))
    · have lines : ((((s.setLine l ⟨data, (s.gline l).minor + 1, false⟩).bumpRoot (l / 256)).mgdCount 1 1).emitLine d l).mgd.lines =
          (s.setLine l ⟨data, (s.gline l).minor + 1, false⟩).mgd.lines := by
        rw [(State.emitLine_touches ..).mgd (by decide), (State.mgdCount_touches ..).mgd (by decide)]
        exact bumpRoot_lines ..
      rw [gline_of_lines lines, gline_setLine]
      split
      · next e => rw [e]
      · exact Nat.le_refl _

/-- Different lines written one after another. -/
theorem foldl_writeLine_raises (d : Domain) (line : Nat → Nat) (data : Nat → List Byte) (q : Nat) (is : List Nat) {s : State}
    (low : ∀ i ∈ is, (s.gline (line i)).minor < 255) (distinct : (is.map line).Nodup) :
    Touches [.cnt, .mgd, .out] s (is.foldl (fun s i => (s.writeLine d (line i) (data i) .good q).1) s) ∧
      ∀ j, ((is.foldl (fun s i => (s.writeLine d (line i) (data i) .good q).1) s).gline j).minor ≤
        (s.gline j).minor + if j ∈ is.map line then 1 else 0 := by
  induction is generalizing s with
  | nil => exact ⟨.rfl' _ s, fun _ => Nat.le_refl _⟩
  | cons i is ih =>
    rw [List.map_cons, List.nodup_cons] at distinct
    obtain ⟨touched, raised⟩ := writeLine_raises (low i List.mem_cons_self) d (data i) q
    obtain ⟨touched', raised'⟩ := ih (s := (s.writeLine d (line i) (data i) .good q).1) (fun k mem => by
      have other : line k ≠ line i := fun e => distinct.1 (e ▸ List.mem_map_of_mem mem)
      have := raised (line k)
      rw [if_neg other] at this
      exact this.trans_lt (low k (List.mem_cons_of_mem _ mem))) distinct.2
    refine ⟨touched.trans touched', fun j => (raised' j).trans ?_⟩
    have first := raised j
    by_cases here : j = line i
    · rw [if_pos here] at first
      rw [here, if_neg distinct.1, if_pos (by simp)]
      rw [here] at first
      exact first
    · rw [if_neg here] at first
      simp only [List.map_cons, List.mem_cons, here, false_or]
      omega

theorem Domain.line_injective (d : Domain) (a : Nat) : Function.Injective (fun i => d.line (d.base + 512 * a + 64 * i)) := by
  intro i j same
  simp only [Domain.line] at same
  omega

/-- A context's write-back raises no MINOR by more than 1 (R306). -/
theorem writeBack_raises {s : State} {n : Nat} (low : s.MinorsBelow n) (le : n ≤ 255) (a : Nat) : LinesWritten (n + 1) s (s.writeBack a) := by
  have unwritten : LinesWritten (n + 1) s s := ⟨.rfl' _ s, low.mono (Nat.le_succ n)⟩
  unfold State.writeBack
  split
  · next c d known domain =>
    split
    · exact unwritten
    · obtain ⟨touched, raised⟩ := foldl_writeLine_raises d (fun i => d.line (d.base + 512 * a + 64 * i)) (fun i => slice (s.ctxBytes c) (64 * i) 64)
        64 (List.range 8) (s := s) (fun i _ => (low _).trans_le le) (List.nodup_range.map (d.line_injective a))
      refine ⟨touched, fun j => ?_⟩
      have before := low j
      refine (raised j).trans_lt ?_
      split <;> omega
  · exact unwritten

/-- A context that enters the cache may push out another, which is written back (R306). -/
theorem cachePut_raises {s : State} {n : Nat} (low : s.MinorsBelow n) (le : n ≤ 255) (a : Nat) :
    ∃ cache t, s.cachePut a = { t with asc := { s.asc with cache := cache } } ∧ LinesWritten (n + 1) s t := by
  have unwritten : LinesWritten (n + 1) s s := ⟨.rfl' _ s, low.mono (Nat.le_succ n)⟩
  unfold State.cachePut
  extract_lets cap cached entered written
  split
  · exact ⟨_, s, rfl, unwritten⟩
  · have writes : LinesWritten (n + 1) s written := by
      unfold written
      split
      · split
        · exact writeBack_raises low le _
        · exact unwritten
      · exact unwritten
    have kept : written.asc = s.asc := writes.touched.asc (by decide)
    refine ⟨(a :: cached).take cap, written, ?_, writes⟩
    show ({ written with asc := { written.asc with cache := (a :: cached).take cap } } : State) = _
    rw [kept]

/-- A context's commit raises no MINOR by more than 2, and leaves the contexts (R306). -/
theorem commitCtx_raises {s : State} {n : Nat} (low : s.MinorsBelow n) (le : n + 2 ≤ 256) (a : Nat) :
    Touches [.cnt, .mgd, .asc, .out] s (s.commitCtx a) ∧ (s.commitCtx a).asc.ctxs = s.asc.ctxs ∧ (s.commitCtx a).MinorsBelow (n + 2) := by
  obtain ⟨cache, t, put, wrote⟩ := cachePut_raises low (by omega) a
  have entered : (s.cachePut a).MinorsBelow (n + 1) := by
    rw [put]
    exact wrote.below
  have back := writeBack_raises entered (by omega) a
  have touched : Touches [.cnt, .mgd, .asc, .out] s (s.cachePut a) := by
    rw [put]
    exact .set_asc (wrote.touched.mono (by decide)) (by decide)
  refine ⟨back.touched.chain (by decide) touched, ?_, back.below⟩
  refine (congrArg Asc.ctxs (back.touched.asc (by decide))).trans ?_
  rw [put]

/-! ## How many stores an association asks for (R319 to R321, R402, R535) -/

theorem startTxSa_asks {s : State} (a k : Nat) (who : Waiter) (room : s.st.queue.length < storeCap) :
    StoresAsked Part.marked 1 s (s.startTxSa a k who).1 := by
  unfold State.startTxSa
  split
  · exact .refl ..
  · next c known =>
    extract_lets fp next set conveyed
    have told : Touches [.asc, .yok, .out] s conveyed := (State.convey_touches ..).chain (by decide) ((State.setCtx_touches ..).mono (by decide))
    have same : conveyed.st = s.st := told.st (by decide)
    obtain ⟨touched, queue⟩ := storePn_asks (s := conveyed) a { conveyed.pnRec a with txFp := fp, txSlot := k == 1, txMark := next + 2 ^ conveyed.reserveExp }
      who (by rw [same]; exact room)
    exact ⟨touched.chain (by decide) (told.mono (by decide)), by rw [same] at queue; exact queue⟩

theorem rebuild_asks {s : State} (a : Nat) (room : s.st.queue.length + 2 ≤ storeCap) : StoresAsked Part.marked 2 s (s.rebuild a) := by
  unfold State.rebuild
  split
  · exact .refl ..
  · next c known =>
    extract_lets r has tx rx cleared other set started
    have setAsked : StoresAsked Part.marked 1 s set := (StoresAsked.refl _ 1 s).step (State.setCtx_touches ..)
    have asked : StoresAsked Part.marked 1 s started := by
      unfold started
      split
      · have first := startRxSa_asks (s := set) a rx .nobody (show s.st.queue.length < storeCap by omega)
        exact ⟨first.touched.chain (fun _ h => h) setAsked.touched, first.queue⟩
      · exact setAsked
    have queue := asked.queue
    split
    · split
      · exact (asked.step (State.modCtx_touches ..)).mono (fun _ h => h) (by decide)
      · exact asked.trans (startTxSa_asks a tx .nobody (by omega))
    · exact asked.mono (fun _ h => h) (by decide)

/-- What loading and sealing slots with their associations' records may touch. -/
def Part.restored : List Part := [.regs, .cnt, .pow, .led, .hif, .st, .asc, .cph, .kvt, .yok, .out, .free]

theorem sealSlot_asks {s : State} (c : Nat) (key : List Byte) (a : Word) (who : Waiter) (room : s.st.queue.length < storeCap) :
    StoresAsked Part.restored 1 s (s.sealSlot c key a who).1 := by
  unfold State.sealSlot
  split
  · have drawn := State.sealRec_touches s 1 (slotWord c) (setBits (a &&& attrMask) 31 29 1) (slice key 0 32)
    split
    next r t made =>
    rw [made] at drawn
    have same : t.st = s.st := drawn.st (by decide)
    obtain ⟨touched, queue⟩ := storeSealed_asks (s := t) (.slotRec c (some r)) who (by rw [same]; exact room)
    exact ⟨touched.chain (by decide) (drawn.mono (by decide)), by rw [same] at queue; exact queue⟩
  · split
    · exact (storeSealed_asks _ _ room).mono (by decide) (Nat.le_refl 1)
    · exact .refl ..

/-! ## One association of a blob (R535) -/

/-- From s to t a RESTORE has gone on: n stores were requested and taken, and no MINOR has risen by more than r. -/
structure RestoreSteps (o n r : Nat) (s t : State) : Prop where
  keeps : RestoreKeeps o s t
  queue : t.st.queue.length ≤ s.st.queue.length + n
  minors : ∀ b, s.MinorsBelow b → b + r ≤ 256 → t.MinorsBelow (b + r)

namespace RestoreSteps

variable {o n r : Nat} {s t u : State}

theorem refl (s : State) : RestoreSteps o 0 0 s s := ⟨.refl s, Nat.le_refl _, fun _ low _ => low⟩

theorem trans {n' r' : Nat} (h : RestoreSteps o n r s t) (k : RestoreSteps o n' r' t u) : RestoreSteps o (n + n') (r + r') s u where
  keeps := h.keeps.trans k.keeps
  queue := by have := h.queue; have := k.queue; omega
  minors := fun b low le => (k.minors (b + r) (h.minors b low (by omega)) (by omega)).mono (by omega)

theorem mono {n' : Nat} (h : RestoreSteps o n r s t) (le : n ≤ n') : RestoreSteps o n' r s t :=
  ⟨h.keeps, h.queue.trans (by omega), h.minors⟩

/-- Stores were requested, and no line written. -/
theorem of_asked {m : List Part} (keeps : RestoreKeeps o s t) (asked : StoresAsked m n s t) (mgd : Part.mgd ∉ m := by decide) :
    RestoreSteps o n 0 s t :=
  ⟨keeps, asked.queue, fun _ low _ => low.of_lines (by rw [asked.touched.mgd mgd])⟩

/-- No store was requested, and no line written. -/
theorem of_touches {m : List Part} (keeps : RestoreKeeps o s t) (touched : Touches m s t) (st : Part.st ∉ m := by decide)
    (mgd : Part.mgd ∉ m := by decide) : RestoreSteps o 0 0 s t :=
  ⟨keeps, by rw [touched.st st]; exact Nat.le_refl _, fun _ low _ => low.of_lines (by rw [touched.mgd mgd])⟩

end RestoreSteps

/-- A slot record of a blob: slot code, key and ATTR. -/
abbrev SlotKey := Nat × List Byte × Word

/-- A slot of an association is loaded, counted and sealed (R388, R402). -/
def State.restoreKey (s : State) (k : SlotKey) : State :=
  (((s.installKey k.1 k.2.1 k.2.2).kvtCount 0).sealSlot k.1 (slice k.2.1 0 (attrBytes k.2.2)) k.2.2 .nobody).1

theorem restoreKey_steps {o : Nat} {s : State} (k : SlotKey) (room : s.st.queue.length < storeCap) : RestoreSteps o 1 0 s (s.restoreKey k) := by
  have loaded : Touches [.asc, .cph, .kvt, .cnt] s ((s.installKey k.1 k.2.1 k.2.2).kvtCount 0) :=
    (State.kvtCount_touches ..).chain (by decide) ((State.installKey_touches ..).mono (by decide))
  have kept : RestoreKeeps o s ((s.installKey k.1 k.2.1 k.2.2).kvtCount 0) :=
    (RestoreKeeps.installKey ..).trans (.of_untouched (State.kvtCount_touches ..))
  have room' : ((s.installKey k.1 k.2.1 k.2.2).kvtCount 0).st.queue.length < storeCap := by
    rw [loaded.st (by decide)]
    exact room
  have steps := (RestoreSteps.of_touches kept loaded).trans (.of_asked (RestoreKeeps.sealSlot k.1 (slice k.2.1 0 (attrBytes k.2.2)) k.2.2 .nobody room')
    (sealSlot_asks _ _ _ _ room'))
  exact steps.mono (by decide)

theorem foldl_restoreKey_steps {o : Nat} (ks : List SlotKey) {s : State} (room : s.st.queue.length + ks.length ≤ storeCap) :
    RestoreSteps o ks.length 0 s (ks.foldl State.restoreKey s) := by
  induction ks generalizing s with
  | nil => exact .refl s
  | cons k ks ih =>
    rw [List.length_cons] at room ⊢
    have first := restoreKey_steps (o := o) k (show s.st.queue.length < storeCap by omega)
    have queue := first.queue
    exact (first.trans (ih (by omega))).mono (by omega)

theorem ownedBy_setCtx (s : State) {o a : Nat} {c : Ctx} (own : c.owner = o) : (s.setCtx a (some c)).OwnedBy o a := by
  unfold State.OwnedBy
  rw [ctx_setCtx_same, Option.map_some, own]

/-- A context of o is written, and commits into the cache and HBM. -/
theorem commitCtx_steps {o : Nat} {s : State} {c : Ctx} (own : c.owner = o) (a : Nat) {n : Nat} (low : s.MinorsBelow n) (le : n + 2 ≤ 256) :
    RestoreSteps o 0 2 s ((s.setCtx a (some c)).commitCtx a) ∧ ((s.setCtx a (some c)).commitCtx a).OwnedBy o a := by
  obtain ⟨touched, ctxs, -⟩ := commitCtx_raises (s := s.setCtx a (some c)) low le a
  refine ⟨⟨(RestoreKeeps.setCtx s a fun _ => own).trans (.of_touches touched ctxs), ?_, fun b lower fits => ?_⟩,
    ownedBy_of_ctxs ctxs (ownedBy_setCtx s own)⟩
  · rw [touched.st (by decide)]
    exact Nat.le_refl _
  · exact (commitCtx_raises (s := s.setCtx a (some c)) lower fits a).2.2

theorem RestoreSteps.after {o n r a : Nat} {s t u : State} (h : RestoreSteps o 0 r s t ∧ t.OwnedBy o a) (k : RestoreSteps o n 0 t u) :
    RestoreSteps o n r s u ∧ u.OwnedBy o a :=
  ⟨(h.1.trans k).mono (by omega), k.keeps.owned a h.2⟩

/-- An association's context is written, its slots are loaded, its reservation record is stored and its SAs start: three stores and one for
each slot. -/
theorem restoreAssoc_steps {o : Nat} {s : State} (m : Nat) (b : List Byte) {c : Ctx} (own : c.owner = o) (a : Nat) (ks : List SlotKey)
    {n : Nat} (low : s.MinorsBelow n) (le : n + 2 ≤ 256) (room : s.st.queue.length + (3 + ks.length) ≤ storeCap) :
    RestoreSteps o (3 + ks.length) 2 s (s.restoreAssoc m b c a ks) ∧ (s.restoreAssoc m b c a ks).OwnedBy o a := by
  have head := commitCtx_steps (s := s) own a low le
  unfold State.restoreAssoc
  extract_lets bytes word st committed loaded fresh p
  have headQueue : committed.st.queue.length ≤ s.st.queue.length := head.1.queue
  refine RestoreSteps.after head ?_
  have keyed : RestoreSteps o ks.length 0 committed loaded := foldl_restoreKey_steps ks (show committed.st.queue.length + ks.length ≤ storeCap by omega)
  have queue : loaded.st.queue.length ≤ committed.st.queue.length + ks.length := keyed.queue
  have room' : loaded.st.queue.length < storeCap := by omega
  have stored : RestoreSteps o 1 0 loaded (loaded.storePn a p .nobody).1 := .of_asked (.storePn a p .nobody room') (storePn_asks a p .nobody room')
  split
  next t ok made =>
  rw [made] at stored
  have queue' : t.st.queue.length ≤ loaded.st.queue.length + 1 := stored.queue
  have counted (x : State) (f : Ctx → Ctx) (same : ∀ c, (f c).owner = c.owner) : RestoreSteps o 0 0 x (x.modCtx a f) :=
    .of_touches (.modCtx x a same) (State.modCtx_touches ..)
  have started : RestoreSteps o 2 0 t (if ok = true then t.rebuild a else t.modCtx a fun c => { c with txWait := true, dead0 := true, dead1 := true }) := by
    split
    · exact .of_asked (.rebuild a (by omega)) (rebuild_asks a (by omega))
    · refine RestoreSteps.mono (counted t _ ?_) (Nat.zero_le 2)
      exact fun _ => rfl
  refine RestoreSteps.mono (((keyed.trans stored).trans started).trans (counted _ _ ?_)) (by omega)
  exact fun _ => rfl

/-! ## The associations of a blob, one after another -/

/-- The slots of a blob that belong to association a. -/
def keysOf (ks : List SlotKey) (a : Nat) : List SlotKey := ks.filter (fun k => decide (k.1 < vaultBase) && k.1 / 2 == a)

/-- The stores that the associations of a blob ask for. -/
def storesAsked (ks : List SlotKey) (cs : List (List Byte × Nat × Ctx)) : Nat := (cs.map (fun e => 3 + (keysOf ks e.2.1).length)).sum

theorem foldl_restoreAssoc_steps {o : Nat} (m : Nat) (ks : List SlotKey) (cs : List (List Byte × Nat × Ctx)) (own : ∀ e ∈ cs, e.2.2.owner = o)
    {s : State} {n : Nat} (low : s.MinorsBelow n) (le : n + 2 * cs.length ≤ 256) (room : s.st.queue.length + storesAsked ks cs ≤ storeCap) :
    RestoreKeeps o s (cs.foldl (fun s e => s.restoreAssoc m e.1 e.2.2 e.2.1 (keysOf ks e.2.1)) s) ∧
      ∀ e ∈ cs, (cs.foldl (fun s e => s.restoreAssoc m e.1 e.2.2 e.2.1 (keysOf ks e.2.1)) s).OwnedBy o e.2.1 := by
  induction cs generalizing s n with
  | nil => exact ⟨.refl s, fun _ mem => absurd mem List.not_mem_nil⟩
  | cons e cs ih =>
    rw [List.length_cons] at le
    unfold storesAsked at room
    rw [List.map_cons, List.sum_cons] at room
    obtain ⟨first, owned⟩ := restoreAssoc_steps (s := s) m e.1 (own e List.mem_cons_self) e.2.1 (keysOf ks e.2.1) low (by omega) (by omega)
    have queue := first.queue
    obtain ⟨rest, others⟩ := ih (fun x mem => own x (List.mem_cons_of_mem _ mem)) (first.minors n low (by omega)) (by omega)
      (by unfold storesAsked; omega)
    refine ⟨first.keeps.trans rest, fun x mem => ?_⟩
    obtain rfl | mem := List.mem_cons.mp mem
    · exact rest.owned _ owned
    · exact others x mem

end Sys2Proof.Machine
end

section
/-! A blob is applied (R535): the SCI index, queue records and classifier entries. -/

namespace Sys2Proof.Machine

open Sys2Proof

/-! ## The SCI index (R314) -/

theorem rand_asc (s : State) (w : Nat) : (s.rand w).2.asc = s.asc := (State.rand_touches ..).asc (by decide)

theorem sciPut_ctxs (s : State) (i : Nat) (e : Option SciKey) : (s.sciPut i e).asc.ctxs = s.asc.ctxs := by rw [sciPut_asc]

theorem sciShift_ctxs (path : List Nat) (f : Nat) (s : State) : (s.sciShift path f).asc.ctxs = s.asc.ctxs := by
  induction path generalizing f with
  | nil => rfl
  | cons i rest ih =>
    unfold State.sciShift
    exact (sciPut_ctxs ..).trans (ih _)

theorem sciInsert_ctxs (s : State) (k : SciKey) : (s.sciInsert k).1.asc.ctxs = s.asc.ctxs := by
  unfold State.sciInsert
  split
  · rfl
  · extract_lets cs
    split
    · exact sciPut_ctxs ..
    · have drawn := rand_asc s 3
      split
      next c t made =>
      rw [made] at drawn
      have chained := (State.sciChain_touches t (cs.getD c 0) [] 8).asc (by decide)
      split
      · next path f u found =>
        rw [found] at chained
        exact (sciPut_ctxs ..).trans ((sciShift_ctxs ..).trans (congrArg Asc.ctxs (chained.trans drawn)))
      · next u found =>
        rw [found] at chained
        exact congrArg Asc.ctxs (chained.trans drawn)

theorem migSci_ctxs (cs : List (Nat × Ctx)) (s : State) : ∀ t, s.migSci cs = some t → t.asc.ctxs = s.asc.ctxs := by
  induction cs generalizing s with
  | nil =>
    rintro t ⟨⟩
    rfl
  | cons e cs ih =>
    intro t made
    unfold State.migSci at made
    split at made
    · have inserted := sciInsert_ctxs s (e.2.sciKey e.1)
      split at made
      · next u put =>
        rw [put] at inserted
        exact (ih u t made).trans inserted
      · cases made
    · exact ih s t made

/-- The keys of a blob's contexts in the SCI index leave all else that a RESTORE keeps. -/
theorem migSci_keeps {o : Nat} (cs : List (Nat × Ctx)) (s : State) : RestoreKeeps o s ((s.migSci cs).getD s) := by
  have touched := State.migSci_touches s cs
  cases made : s.migSci cs with
  | none => exact .refl s
  | some t =>
    rw [made] at touched
    exact .of_touches touched (migSci_ctxs cs s t made)

/-! ## Queue records and classifier entries (R207, R274, R535) -/

namespace RestoreKeeps

variable {o : Nat}

theorem quotaCheck (s : State) (p : Nat) : RestoreKeeps o s (s.quotaCheck p) := by
  unfold State.quotaCheck
  have seen (l : List Nat) : RestoreKeeps o s { s with cls := { s.cls with quotaSeen := l } } :=
    of_untouched (m := [.cls]) (.set_cls (.rfl' _ s) (by decide))
  exact ite (ite (refl s) ((seen _).trans (noteFor ..))) (seen _)

theorem altPut (s : State) (i : Nat) (e : Option AltEntry) : RestoreKeeps o s (s.altPut i e) := by
  unfold State.altPut
  extract_lets ports
  exact (of_untouched (State.altWrite_touches ..)).trans (foldl _ _ quotaCheck)

theorem noPlace (s : State) (e : AltEntry) : RestoreKeeps o s (s.noPlace e).1 := noteFor ..

/-- An entry that may not displace another is inserted, or found no place. -/
theorem place_noEvict (s : State) (e : AltEntry) (learn : Bool) : RestoreKeeps o s (s.place e true learn).1 := by
  unfold State.place
  extract_lets aged cs
  split
  · exact altPut ..
  · split
    · exact noPlace ..
    · have drawn := State.rand_touches s 3
      split
      next c t made =>
      rw [made] at drawn
      have chained := State.chain_touches t (cs.getD c 0) [] 8
      split
      next r u found =>
      rw [found] at chained
      have kept : RestoreKeeps o s u := (of_untouched drawn).trans (of_untouched chained)
      split
      · exact kept.trans (((of_untouched (State.shift_touches ..)).trans (altPut ..)).trans (of_untouched (State.incBy_touches ..)))
      · refine kept.trans ?_
        unfold State.evict
        extract_lets mode vs
        rw [if_pos (.inl rfl)]
        exact noPlace ..

/-- The entries of a blob are inserted with NO_EVICT (R535). -/
theorem restoreAlts (n : Nat) (rs : List (List Byte)) (s : State) : RestoreKeeps o s (s.restoreAlts n rs).2 := by
  induction rs generalizing s with
  | nil => exact refl s
  | cons r rs ih =>
    unfold State.restoreAlts
    extract_lets e
    split
    next placed t made =>
    have first : RestoreKeeps o s t := by
      split at made
      · cases made
        exact refl s
      · split at made
        next u placedAt put =>
        cases made
        have kept := place_noEvict (o := o) s { e with owner := n } false
        rw [put] at kept
        exact kept
    have rest := ih t
    split
    next k u restored =>
    rw [restored] at rest
    exact first.trans rest

end RestoreKeeps

/-! ## A blob is applied (R535) -/

/-- The associations of a blob for owner n. -/
def MigBlob.contexts (x : MigBlob) (n : Nat) : List (List Byte × Nat × Ctx) := x.assocs.map (fun r => (r, migCtx r n))

theorem installKeys_keep {o : Nat} (ks : List SlotKey) (f : Word → Word) (s : State) :
    RestoreKeeps o s (ks.foldl (fun s k => (s.installKey k.1 k.2.1 (f k.2.2)).kvtCount 0) s) :=
  .foldl ks s fun _ _ => (RestoreKeeps.installKey ..).trans (.of_untouched (State.kvtCount_touches ..))

/-- Applying a blob whose stores the queue takes. -/
theorem applyBlob_keeps {s : State} (hbm : s.HbmRoom) (n k : Nat) (x : MigBlob) (fewer : x.assocs.length ≤ 64)
    (room : s.st.queue.length + storesAsked (x.slots.filterMap (openSlot (s.keyOf k))) (x.contexts n) ≤ storeCap) :
    ∃ u, RestoreKeeps n s u ∧ (∀ r ∈ x.assocs, u.OwnedBy n (migCtx r n).1) ∧ (s.applyBlob n k x).2 = u.note Ev.migRestored := by
  unfold State.applyBlob
  extract_lets cs key ks indexed contexts keyed queued
  have first : RestoreKeeps n s indexed := migSci_keeps ..
  have touched : Touches [.asc, .kvt, .yok, .out, .free] s indexed := OptTouches.getD (State.migSci_touches ..) (.rfl' _ s)
  have low : indexed.MinorsBelow 128 := (minorsBelow_of_room hbm).of_lines (by rw [touched.mgd (by decide)])
  obtain ⟨second, owned⟩ := foldl_restoreAssoc_steps (o := n) x.m ks (x.contexts n) (fun e mem => by
      obtain ⟨r, -, rfl⟩ := List.mem_map.mp mem
      rfl) low (by rw [MigBlob.contexts, List.length_map]; omega) (by rw [touched.st (by decide)]; exact room)
  have third : RestoreKeeps n contexts keyed := installKeys_keep _ (setBits · 27 22 n) contexts
  have fourth : RestoreKeeps n keyed queued := .foldl _ _ fun _ _ => .of_untouched (State.restoreQueue_touches ..)
  have fifth := RestoreKeeps.restoreAlts (o := n) n x.alts queued
  have later := (third.trans fourth).trans fifth
  split
  next left u restored =>
  rw [restored] at later
  exact ⟨u, (first.trans second).trans later, fun r mem => later.owned _ (owned _ (List.mem_map_of_mem mem)), rfl⟩

end Sys2Proof.Machine
end

section
/-! RESTORE's checks and its commit (R534, R535). -/

namespace Sys2Proof.Machine

open Sys2Proof

/-! ## The check of the SCI index (R314, R534) depends on the index, the hash seeds and the generator alone -/

/-- s and t agree in what the insertion of a key reads. -/
structure SameIndex (s t : State) : Prop where
  sci : t.asc.sci = s.asc.sci
  regs : t.regs = s.regs
  kvt : t.kvt = s.kvt
  free : t.free = s.free

namespace SameIndex

variable {s t : State}

theorem sciAt (h : SameIndex s t) (i : Nat) : t.sciAt i = s.sciAt i := sciAt_of_sci h.sci i

theorem sciCandidates (h : SameIndex s t) (k : SciKey) : t.sciCandidates k = s.sciCandidates k := by
  unfold State.sciCandidates State.sciHash0 State.sciHash1
  rw [rd_of_regs h.regs, rd_of_regs h.regs]

theorem sciAlternate (h : SameIndex s t) (i : Nat) (k : SciKey) : t.sciAlternate i k = s.sciAlternate i k := by
  unfold State.sciAlternate State.sciHash0 State.sciHash1
  rw [rd_of_regs h.regs, rd_of_regs h.regs]

theorem sciFind (h : SameIndex s t) (k : SciKey) : t.sciFind k = s.sciFind k := by
  unfold State.sciFind
  simp only [h.sciCandidates, h.sciAt]

theorem sciPut (h : SameIndex s t) (i : Nat) (e : Option SciKey) : SameIndex (s.sciPut i e) (t.sciPut i e) where
  sci := by rw [sciPut_asc, sciPut_asc, h.sci]
  regs := by rw [(State.sciPut_touches ..).regs (by decide), (State.sciPut_touches ..).regs (by decide), h.regs]
  kvt := by rw [(State.sciPut_touches ..).kvt (by decide), (State.sciPut_touches ..).kvt (by decide), h.kvt]
  free := by rw [(State.sciPut_touches ..).free (by decide), (State.sciPut_touches ..).free (by decide), h.free]

theorem rand (h : SameIndex s t) (w : Nat) : (t.rand w).1 = (s.rand w).1 ∧ SameIndex (s.rand w).2 (t.rand w).2 := by
  obtain ⟨sci, regs, kvt, free⟩ := h
  unfold State.rand State.rbgTake
  dsimp only
  exact ⟨by rw [free], sci, regs, by rw [kvt], by rw [kvt, free]⟩

theorem sciShift (path : List Nat) (f : Nat) (h : SameIndex s t) : SameIndex (s.sciShift path f) (t.sciShift path f) := by
  induction path generalizing f with
  | nil => exact h
  | cons i rest ih =>
    unfold State.sciShift
    dsimp only
    rw [(ih _).sciAt]
    exact (ih _).sciPut ..

theorem sciChain (n slot : Nat) (path : List Nat) (h : SameIndex s t) :
    (t.sciChain slot path n).1 = (s.sciChain slot path n).1 ∧ SameIndex (s.sciChain slot path n).2 (t.sciChain slot path n).2 := by
  induction n generalizing s t slot path with
  | zero => exact ⟨rfl, h⟩
  | succ n ih =>
    unfold State.sciChain
    rw [h.sciAt]
    cases s.sciAt slot with
    | none => exact ⟨rfl, h⟩
    | some r =>
      obtain ⟨same, after⟩ := h.rand 2
      simp only [h.sciAlternate, h.sciAt, same]
      split
      · exact ⟨rfl, h⟩
      · split
        · exact ih _ _ after
        · exact ⟨rfl, after⟩

theorem sciInsert (h : SameIndex s t) (k : SciKey) : (t.sciInsert k).2 = (s.sciInsert k).2 ∧ SameIndex (s.sciInsert k).1 (t.sciInsert k).1 := by
  unfold State.sciInsert
  obtain ⟨same, after⟩ := h.rand 3
  simp only [h.sciFind, h.sciAt, h.sciCandidates, same]
  split
  · exact ⟨rfl, h⟩
  · split
    · exact ⟨rfl, h.sciPut ..⟩
    · obtain ⟨found, chained⟩ := sciChain 8 ((s.sciCandidates k).getD (s.rand 3).1 0) [] after
      rcases left : (s.rand 3).2.sciChain ((s.sciCandidates k).getD (s.rand 3).1 0) [] 8 with ⟨r, u⟩
      rcases right : (t.rand 3).2.sciChain ((s.sciCandidates k).getD (s.rand 3).1 0) [] 8 with ⟨r', v⟩
      rw [left, right] at found chained
      obtain rfl : r' = r := found
      cases r' with
      | none => exact ⟨rfl, chained⟩
      | some p => exact ⟨rfl, (sciShift p.1 p.2 chained).sciPut ..⟩

theorem migSci (cs : List (Nat × Ctx)) (h : SameIndex s t) : (t.migSci cs).isNone = (s.migSci cs).isNone := by
  induction cs generalizing s t with
  | nil => rfl
  | cons e cs ih =>
    obtain ⟨a, c⟩ := e
    unfold State.migSci
    obtain ⟨same, after⟩ := h.sciInsert (c.sciKey a)
    split
    · rcases left : s.sciInsert (c.sciKey a) with ⟨u, ok⟩
      rcases right : t.sciInsert (c.sciKey a) with ⟨v, ok'⟩
      rw [left, right] at same after
      obtain rfl : ok' = ok := same
      cases ok' with
      | true => exact ih after
      | false => rfl
    · exact ih h

end SameIndex

/-! ## RESTORE (R534, R535) -/

theorem fetched_migCode (s : State) (n : Nat) (b : List Byte) (x : MigBlob) (k : Nat) : (s.fetched 0 0).migCode n b x k = s.migCode n b x k := by
  have index : ((s.fetched 0 0).migSci (x.assocs.map (fun r => migCtx r n))).isNone = (s.migSci (x.assocs.map (fun r => migCtx r n))).isNone :=
    SameIndex.migSci _ ⟨rfl, rfl, rfl, rfl⟩
  unfold State.migCode
  extract_lets key tag cs ids slotFor ks altOk key' tag' slotFor'
  rw [index]
  rfl

section
variable {s : State} {desc : List Byte} (ready : s.ringReady 0 = true) (unit : (CmdDesc.of desc).unit = 2) (blob : List Byte)
include ready unit

/-- The code of the RESTORE that a descriptor names, before its blob is looked into. -/
abbrev State.restoreCodeOf (s : State) (d : CmdDesc) (blob : List Byte) (f : Bool) : Nat :=
  s.restoreCode (d.word 0).toNat (d.word 1).toNat (MigBlob.of (blob.take d.inLen)) f

theorem migRestore_unread {f : Bool} (unread : s.restoreCodeOf (CmdDesc.of desc) blob f = 0xF2) : exec (.migRestore desc blob f) s =
    .next (((s.fetched 0 0).dmaError 0).complete 0 (CmdDesc.of desc).tag 0xF2 2 0 0 (s.ringM 0 0) 0) := by
  rw [← unit, ← unread]
  exact (if_neg (by simp [ready, unit])).trans (if_pos unread)

theorem migRestore_refused {f : Bool} (read : s.restoreCodeOf (CmdDesc.of desc) blob f ≠ 0xF2)
    (refused : s.restoreCodeOf (CmdDesc.of desc) blob f ≠ 0) : exec (.migRestore desc blob f) s =
    .next ((s.fetched 0 0).complete 0 (CmdDesc.of desc).tag (s.restoreCodeOf (CmdDesc.of desc) blob f) 2 0 0 (s.ringM 0 0) 0) := by
  rw [← unit]
  exact (if_neg (by simp [ready, unit])).trans ((if_neg read).trans (if_pos refused))

section
variable {f : Bool} (open_ : s.restoreCodeOf (CmdDesc.of desc) blob f = 0) {x : MigBlob}
  (known : MigBlob.of (blob.take (CmdDesc.of desc).inLen) = some x) {k : Nat} (wrap : s.wrapSlot ((CmdDesc.of desc).word 1).toNat = some k)
include open_ known wrap

theorem migRestore_invalid (invalid : s.migCode ((CmdDesc.of desc).word 0).toNat (blob.take (CmdDesc.of desc).inLen) x k ≠ 0) :
    exec (.migRestore desc blob f) s = .next ((s.fetched 0 0).complete 0 (CmdDesc.of desc).tag
      (s.migCode ((CmdDesc.of desc).word 0).toNat (blob.take (CmdDesc.of desc).inLen) x k) 2 0 0 (s.ringM 0 0) 0) := by
  rw [← fetched_migCode] at invalid
  rw [← unit, ← fetched_migCode]
  refine (if_neg (by simp [ready, unit])).trans ((if_neg fun h => absurd (open_.symm.trans h) (by decide)).trans ((if_neg (not_not.mpr open_)).trans ?_))
  split
  · next x' k' known' wrap' =>
    cases known.symm.trans known'
    cases wrap.symm.trans wrap'
    exact if_pos invalid
  · next none_ => exact absurd wrap (none_ x k known)

theorem migRestore_commits (valid : s.migCode ((CmdDesc.of desc).word 0).toNat (blob.take (CmdDesc.of desc).inLen) x k = 0)
    {left : Nat} {t : State} (applied : (s.fetched 0 0).applyBlob ((CmdDesc.of desc).word 0).toNat k x = (left, t)) :
    exec (.migRestore desc blob f) s = .next (t.complete 0 (CmdDesc.of desc).tag 0 2 0 left (s.ringM 0 0) 0) := by
  rw [← fetched_migCode] at valid
  rw [← unit]
  refine (if_neg (by simp [ready, unit])).trans ((if_neg fun h => absurd (open_.symm.trans h) (by decide)).trans ((if_neg (not_not.mpr open_)).trans ?_))
  split
  · next x' k' known' wrap' =>
    cases known.symm.trans known'
    cases wrap.symm.trans wrap'
    refine (if_neg (not_not.mpr valid)).trans ?_
    split
    next left' t' applied' =>
    cases applied.symm.trans applied'
    rfl
  · next none_ => exact absurd wrap (none_ x k known)

end
end

end Sys2Proof.Machine
end

section
/-! SAVE and RESTORE as O57 states them, given that the store queue takes what the blob's associations ask for.

O57 stays unsettled. RESTORE accepts a blob that names one association several times, and a slot record then counts once for each of those
names, so four stores for each record need not suffice. Whether such a blob's slot records open rests on `Config.kwpUnwrap`, of which the model says
nothing: the statement follows where nothing opens (`allotmentsMigrate_of_noUnwrap`) and fails where everything opens
(`not_allotmentsMigrate_of_unwraps`). -/

namespace Sys2Proof.Machine

open Sys2Proof

/-! ## The two commands -/

section
variable {s : State} {desc : List Byte} (ready : s.ringReady 0 = true) (unit : (CmdDesc.of desc).unit = 2)
include ready unit

theorem migSave_saves {k : Nat} (wrap : s.wrapSlot ((CmdDesc.of desc).word 1).toNat = some k) {n m : Nat}
    (allot : n = ((CmdDesc.of desc).word 0).toNat) (margin : m = ((CmdDesc.of desc).word 2).toNat) {b : List Byte} (made : b = (s.migBlob n k m).1)
    (open_ : s.saveCodeOf (CmdDesc.of desc) = 0) (wf : SMap.wf noneOf s.asc.ctxs = true) :
    ∃ t, exec (.migSave desc true) s = .next t ∧ .hostWrite (s.dmaTag 0 true) (CmdDesc.of desc).outAddr b ∈ t.out ∧
      s.Completes t 0 (CmdDesc.of desc).tag 0 2 0 b.length (s.ringM 0 0) 0 ∧ t.ringM 0 0 = (s.ringM 0 0 + 1) % 65536 ∧
      (∀ a, t.ctx a = (s.ctx a).map (fun c => if c.owner = n then c.capped m else c)) ∧ t.kvt = s.kvt ∧ t.sch = s.sch ∧
      (s.ctl.mode ≠ .sentry → t.events Ev.migSaved = satAdd (2 ^ 48 - 1) (s.events Ev.migSaved) 1) := by
  subst allot margin
  rcases blob : s.migBlob ((CmdDesc.of desc).word 0).toNat k ((CmdDesc.of desc).word 2).toNat with ⟨b', counts⟩
  rw [blob] at made
  subst made
  obtain ⟨link, on⟩ := link_of_mayFetch (mayFetch_of_ringReady ready).1
  have noted := Recorded.noteFor (s.saved (CmdDesc.of desc) b) Ev.migSaved ((CmdDesc.of desc).word 0).toNat (counts.flatMap (beBytes 4))
  have capped : Touches [.asc] ((s.fetched 0 0).dma 0 true (CmdDesc.of desc).outAddr b) (s.saved (CmdDesc.of desc) b) := State.capAssocs_touches ..
  have ring : SameRing 0 (s.fetched 0 0) (s.saved (CmdDesc.of desc) b) :=
    .of_fields (capped.regs (by decide)) (congrArg HostIf.ringMod (capped.hif (by decide))) (congrArg HostIf.linkUp (capped.hif (by decide)))
  have same := (fetched_same (n := 0) (s := s) (by decide)).trans (ring.trans (.of_kept (by decide) (.of_recorded noted)))
  refine ⟨_, migSave_writes ready unit wrap open_ blob, ?_, complete_completes same link on, ?_, fun a => ?_, ?_, ?_, fun awake => ?_⟩
  · refine complete_mem_out (noted.mem_out ?_)
    rw [capped.out (by decide)]
    exact List.mem_append_right _ (List.mem_singleton_self _)
  · refine (complete_rings _ (0 * 16 + 0) (by decide)).trans ((noted.ring (0 * 16 + 0) (by decide)).trans ?_)
    rw [capped.hif (by decide)]
    exact fetched_index
  · have recorded := (State.complete_touches ((s.saved (CmdDesc.of desc) b).noteFor Ev.migSaved ((CmdDesc.of desc).word 0).toNat
      (counts.flatMap (beBytes 4))) 0 (CmdDesc.of desc).tag 0 2 0 b.length (s.ringM 0 0) 0).asc (by decide)
    rw [ctx_of_asc (recorded.trans (noted.touches.asc (by decide)))]
    exact capAssocs_ctx (s := (s.fetched 0 0).dma 0 true (CmdDesc.of desc).outAddr b) wf ..
  · exact ((State.complete_touches ..).kvt (by decide)).trans ((noted.touches.kvt (by decide)).trans (capped.kvt (by decide)))
  · exact ((State.complete_touches ..).sch (by decide)).trans ((noted.touches.sch (by decide)).trans (capped.sch (by decide)))
  · rw [events_of_led ((State.complete_touches ..).led (by decide)),
      noteFor_events _ _ _ _ _ (by rw [capped.ctl (by decide)]; exact awake) (by decide) (by decide), if_pos rfl,
      events_of_led (capped.led (by decide))]
    rfl

/-- A RESTORE that is refused before its blob is looked into. -/
theorem migRestore_refuses (blob : List Byte) (f : Bool) (refused : s.restoreCodeOf (CmdDesc.of desc) blob f ≠ 0) :
    ∃ t, exec (.migRestore desc blob f) s = .next t ∧
      s.Completes t 0 (CmdDesc.of desc).tag (s.restoreCodeOf (CmdDesc.of desc) blob f) 2 0 0 (s.ringM 0 0) 0 ∧ Touches Part.note s t := by
  have may := (mayFetch_of_ringReady ready).1
  by_cases unread : s.restoreCodeOf (CmdDesc.of desc) blob f = 0xF2
  · obtain ⟨completes, touched, -⟩ := refused_completes may (.dmaError (s.fetched 0 0) 0) (dmaError_touches _ 0) (CmdDesc.of desc).tag 0xF2
    exact ⟨_, migRestore_unread ready unit blob unread, by rw [unread]; exact completes, touched⟩
  · obtain ⟨completes, touched, -⟩ := refused_completes may (.refl (s.fetched 0 0)) (.rfl' _ _) (CmdDesc.of desc).tag
      (s.restoreCodeOf (CmdDesc.of desc) blob f)
    exact ⟨_, migRestore_refused ready unit blob unread refused, completes, touched⟩

section
variable (blob : List Byte) {f : Bool} (open_ : s.restoreCodeOf (CmdDesc.of desc) blob f = 0) {x : MigBlob}
  (known : MigBlob.of (blob.take (CmdDesc.of desc).inLen) = some x) {k : Nat} (wrap : s.wrapSlot ((CmdDesc.of desc).word 1).toNat = some k)
include open_ known wrap

/-- A blob whose stores the queue takes becomes the allotment's (R535). -/
theorem migRestore_restores {n : Nat} (allot : n = ((CmdDesc.of desc).word 0).toNat)
    (valid : s.migCode n (blob.take (CmdDesc.of desc).inLen) x k = 0) (awake : s.ctl.mode ≠ .sentry) (hbm : s.HbmRoom)
    (room : s.StoreRoom (4 * (x.assocs.length + x.slots.length)))
    (fits : storesAsked (x.slots.filterMap (openSlot (s.keyOf k))) (x.contexts n) ≤ 4 * (x.assocs.length + x.slots.length)) :
    ∃ t, exec (.migRestore desc blob f) s = .next t ∧ t.ringM 0 0 = (s.ringM 0 0 + 1) % 65536 ∧
      (∀ r ∈ x.assocs, (t.ctx (migCtx r n).1).map (·.owner) = some n) ∧
      t.events Ev.migRestored = satAdd (2 ^ 48 - 1) (s.events Ev.migRestored) 1 ∧
      ∃ l, s.Completes t 0 (CmdDesc.of desc).tag 0 2 0 l (s.ringM 0 0) 0 := by
  subst allot
  unfold State.StoreRoom at room
  have cap : storeCap = 256 := rfl
  obtain ⟨u, keeps, owned, noted⟩ := applyBlob_keeps (s := s.fetched 0 0) hbm ((CmdDesc.of desc).word 0).toNat k x (by omega)
    (show s.st.queue.length + storesAsked (x.slots.filterMap (openSlot (s.keyOf k))) (x.contexts _) ≤ storeCap by omega)
  rcases applied : (s.fetched 0 0).applyBlob ((CmdDesc.of desc).word 0).toNat k x with ⟨left, v⟩
  rw [applied] at noted
  obtain rfl : v = u.note Ev.migRestored := noted
  obtain ⟨link, on⟩ := link_of_mayFetch (mayFetch_of_ringReady ready).1
  have recorded := Recorded.note u Ev.migRestored []
  have ring : SameRing 0 (s.fetched 0 0) u :=
    ⟨fun i mem => keeps.rd i (SameRing.completionKeys_record (by decide) mem), keeps.ring (0 * 16 + 11) (by decide), keeps.link⟩
  have same := (fetched_same (n := 0) (s := s) (by decide)).trans (ring.trans (.of_kept (by decide) (.of_recorded recorded)))
  have awake' : u.ctl.mode ≠ .sentry := by
    rw [keeps.ctl]
    exact awake
  refine ⟨_, migRestore_commits ready unit blob open_ known wrap valid applied, ?_, fun r mem => ?_, ?_, left, complete_completes same link on⟩
  · refine (complete_rings _ (0 * 16 + 0) (by decide)).trans ((recorded.ring (0 * 16 + 0) (by decide)).trans ?_)
    exact (keeps.ring (0 * 16 + 0) (by decide)).trans fetched_index
  · refine ownedBy_of_ctxs (s := u) ?_ (owned r mem)
    rw [(State.complete_touches ..).asc (by decide), recorded.touches.asc (by decide)]
  · rw [events_of_led ((State.complete_touches ..).led (by decide)), note_events _ _ _ _ awake' (by decide) (by decide), if_pos rfl,
      keeps.counts awake]
    rfl

end
end

/-- The stores of a blob's associations are at most four for each of its records, whatever RESTORE accepts. -/
def BlobsFit : Prop := ∀ (s : State) (n k : Nat) (b : List Byte) (x : MigBlob), MigBlob.of b = some x → s.migCode n b x k = 0 →
  storesAsked (x.slots.filterMap (openSlot (s.keyOf k))) (x.contexts n) ≤ 4 * (x.assocs.length + x.slots.length)

theorem allotmentsMigrate_of_fit (fit : BlobsFit) : Obligations.AllotmentsMigrate := by
  refine ⟨?_, ?_⟩
  · rintro desc d rfl n rfl m rfl s ready unit code rfl w
    have may := (mayFetch_of_ringReady ready).1
    refine ⟨fun refused => ?_, fun open_ => ?_, fun k wrap b made open_ wf => migSave_saves ready unit wrap rfl rfl made open_ wf⟩
    · obtain ⟨completes, touched, -⟩ := refused_completes may (.refl (s.fetched 0 0)) (.rfl' _ _) (CmdDesc.of desc).tag (s.saveCodeOf (CmdDesc.of desc))
      exact ⟨_, migSave_refused ready unit w refused, completes, touched.asc (by decide), touched.kvt (by decide), touched.sch (by decide)⟩
    · obtain ⟨completes, touched, -⟩ := refused_completes may (.dmaError (s.fetched 0 0) 0) (dmaError_touches _ 0) (CmdDesc.of desc).tag 0xF2
      exact ⟨_, migSave_unwritten ready unit open_, completes, touched.asc (by decide), touched.kvt (by decide), touched.sch (by decide)⟩
  · rintro desc d rfl n rfl blob b rfl f s ready unit code rfl
    have may := (mayFetch_of_ringReady ready).1
    refine ⟨fun refused => ?_, fun x known k wrap open_ calm hbm room => ?_⟩
    · obtain ⟨t, run, completes, touched⟩ := migRestore_refuses ready unit blob f refused
      exact ⟨t, run, completes, touched.asc (by decide), touched.kvt (by decide), touched.sch (by decide), touched.cls (by decide)⟩
    · split
      · next valid => exact migRestore_restores ready unit blob open_ known wrap rfl valid calm.1 hbm room (fit s _ k _ x known valid)
      · next invalid =>
        obtain ⟨completes, touched, index⟩ := refused_completes may (.refl (s.fetched 0 0)) (.rfl' _ _) (CmdDesc.of desc).tag
          (s.migCode ((CmdDesc.of desc).word 0).toNat (blob.take (CmdDesc.of desc).inLen) x k)
        exact ⟨_, migRestore_invalid ready unit blob open_ known wrap invalid, index, completes, touched.asc (by decide), touched.kvt (by decide),
          touched.sch (by decide), touched.cls (by decide)⟩

theorem openSlot_none (never : ∀ key text, Config.kwpUnwrap key text = none) (wrap r : List Byte) : openSlot wrap r = none := by
  unfold openSlot
  rw [never]
  split
  · next h => cases h
  · rfl

theorem allotmentsMigrate_of_noUnwrap (never : ∀ key text, Config.kwpUnwrap key text = none) : Obligations.AllotmentsMigrate := by
  refine allotmentsMigrate_of_fit fun s n k b x known valid => ?_
  have none_ : x.slots.filterMap (openSlot (s.keyOf k)) = [] := List.filterMap_eq_nil_iff.mpr fun r _ => openSlot_none never ..
  rw [none_]
  unfold storesAsked keysOf MigBlob.contexts
  simp [Function.comp_def]
  omega

/-! ## A blob that names no association twice -/

/-- A slot belongs to one association at most. -/
theorem keysOf_without {ks : List SlotKey} {a b : Nat} (other : b ≠ a) : keysOf (ks.filter (fun k => !(decide (k.1 < vaultBase) && k.1 / 2 == a))) b = keysOf ks b := by
  unfold keysOf
  rw [List.filter_filter]
  refine List.filter_congr fun k _ => ?_
  by_cases here : k.1 / 2 = b
  · simp [here, other]
  · simp [here]

theorem storesAsked_le (cs : List (List Byte × Nat × Ctx)) (distinct : (cs.map (·.2.1)).Nodup) (ks : List SlotKey) :
    storesAsked ks cs ≤ 3 * cs.length + ks.length := by
  induction cs generalizing ks with
  | nil => exact Nat.zero_le _
  | cons e cs ih =>
    rw [List.map_cons, List.nodup_cons] at distinct
    have later : storesAsked (ks.filter (fun k => !(decide (k.1 < vaultBase) && k.1 / 2 == e.2.1))) cs = storesAsked ks cs := by
      refine congrArg List.sum (List.map_congr_left fun x mem => ?_)
      rw [keysOf_without fun same => distinct.1 (List.mem_map.mpr ⟨x, mem, same⟩)]
    have rest := ih distinct.2 (ks.filter (fun k => !(decide (k.1 < vaultBase) && k.1 / 2 == e.2.1)))
    have parts := List.length_eq_length_filter_add (l := ks) (fun k => decide (k.1 < vaultBase) && k.1 / 2 == e.2.1)
    have first : storesAsked ks (e :: cs) = 3 + (keysOf ks e.2.1).length + storesAsked ks cs := List.sum_cons
    have own : (keysOf ks e.2.1).length = (ks.filter (fun k => decide (k.1 < vaultBase) && k.1 / 2 == e.2.1)).length := rfl
    rw [later] at rest
    rw [List.length_cons]
    omega

/-- O57 would hold if RESTORE accepted no blob that names an association twice (a check that R534 does not list and `migCode` does not make). -/
theorem allotmentsMigrate_of_namesOnce (once : ∀ (s : State) (n k : Nat) (b : List Byte) (x : MigBlob), MigBlob.of b = some x →
    s.migCode n b x k = 0 → ((x.contexts n).map (·.2.1)).Nodup) : Obligations.AllotmentsMigrate := by
  refine allotmentsMigrate_of_fit fun s n k b x known valid => (storesAsked_le _ (once s n k b x known valid) _).trans ?_
  have opened := List.length_filterMap_le (openSlot (s.keyOf k)) x.slots
  rw [MigBlob.contexts, List.length_map]
  omega

end Sys2Proof.Machine
end

section
/-! A RESTORE that writes two records into one ring, were every slot record to open: O57's clause on RESTORE needs blobs that name no
association twice. -/

namespace Sys2Proof.Machine

open Sys2Proof

/-! ## A blob that names an association again and again -/

theorem length_slice (l : List Byte) (o k : Nat) : (slice l o k).length = k := by
  simp only [slice, zeroBytes, List.length_append, List.length_take, List.length_drop, List.length_replicate]
  omega

theorem slice_append_left {a : List Byte} {o k : Nat} (within : o + k ≤ a.length) (b : List Byte) : slice (a ++ b) o k = slice a o k := by
  unfold slice
  rw [List.drop_append_of_le_length (by omega), List.take_append_of_le_length (by rw [List.length_drop]; omega)]

theorem recordsAt_append_left {a : List Byte} {o w k : Nat} (within : o + w * k ≤ a.length) (b : List Byte) :
    recordsAt (a ++ b) o w k = recordsAt a o w k := by
  refine List.map_congr_left fun i mem => slice_append_left ?_ b
  have := Nat.mul_le_mul_left w (List.mem_range.mp mem)
  rw [Nat.mul_succ] at this
  omega

/-- A blob is taken apart without a look at its TAG. -/
theorem migBlob_of_tag {body tag tag' : List Byte} {x : MigBlob} (size : tag.length = 16) (size' : tag'.length = 16) (header : 64 ≤ body.length)
    (known : MigBlob.of (body ++ tag') = some x) : MigBlob.of (body ++ tag) = some x := by
  have field (t : List Byte) (o w : Nat) (h : o + w ≤ 64) : slice (body ++ t) o w = slice body o w := slice_append_left (by omega) t
  unfold MigBlob.of at known ⊢
  simp only [field _ _ _ (show 0 + 4 ≤ 64 by decide), field _ _ _ (show 4 + 2 ≤ 64 by decide), field _ _ _ (show 6 + 1 ≤ 64 by decide),
    field _ _ _ (show 7 + 1 ≤ 64 by decide), field _ _ _ (show 32 + 6 ≤ 64 by decide), field _ _ _ (show 16 + 4 ≤ 64 by decide),
    field _ _ _ (show 20 + 4 ≤ 64 by decide), field _ _ _ (show 24 + 4 ≤ 64 by decide), field _ _ _ (show 28 + 4 ≤ 64 by decide),
    List.length_append, size, size'] at known ⊢
  split at known
  · cases known
  · next good =>
    rw [if_neg good, ← known]
    obtain ⟨-, -, length⟩ : _ ∧ _ ∧ _ := by simpa only [not_or, not_not] using good
    congr 2 <;> rw [recordsAt_append_left (by omega), recordsAt_append_left (by omega)]

/-- Allotment 0's command and completion rings are on, with a command descriptor waiting; allotment 3 is frozen, and owns what the blob's contexts name. -/
def migrationHost : State :=
  let s := { State.reset with
    ctl := { Control.cold with mode := .selfTest }
    boot := { State.reset.boot with image := some { onePortImage with allotCount := 4 } }
    hif := { State.reset.hif with
      linkUp := true, allots := [.running, .absent, .absent, .frozen], ringHost := SMap.set zeroOf [] 0 1 }
    kvt := { State.reset.kvt with slots := [(vaultBase, some { loadedSlot with attr := 0x400 })] }
    cph := { State.reset.cph with
      jobs := [(1, some ⟨0, 1, 0, zeroBytes 64, some 4, 0, 0, [], none⟩)], items := [(4, some ⟨.job 1, [], [], []⟩)] }
    st := { Stores.idle with mram := some deferredStore, queue := List.replicate (storeCap - 64) deferredStore } }
  let on := (s.setFlg (privKey 0 (Reg.hifRingCfg 0)) 31 true).setFlg (privKey 0 (Reg.hifRingCfg 11)) 31 true
  (on.setFld (Reg.clsPortCfg 0) 31 26 3).setFld (Reg.ascOutOwner 32) 5 0 3

/-- A context of KIND 2 and of allotment 3, for association 9. -/
def ninthAssociation : List Byte := beBytes 2 9 ++ zeroBytes 14 ++ beBytes 1 2 ++ beBytes 1 3 ++ zeroBytes 510

/-- A record of slot 19, which is association 9's second. -/
def slotNineteen : List Byte := beBytes 4 19 ++ zeroBytes 52

def repeatingBody : List Byte :=
  ascii "SLMB" ++ beBytes 2 1 ++ beBytes 1 3 ++ beBytes 1 30 ++ zeroBytes 8 ++ beBytes 4 8 ++ beBytes 4 8 ++ beBytes 4 0 ++ beBytes 4 0 ++ zeroBytes 32 ++
    (List.replicate 8 ninthAssociation).flatten ++ (List.replicate 8 slotNineteen).flatten

def repeatingBlob : List Byte := repeatingBody ++ slice (Config.cmac (migKey (migrationHost.keyOf vaultBase) 3) repeatingBody) 0 16

/-- RESTORE of allotment 3 under vault slot 0. -/
def restoreDesc : List Byte := [2, 2, 0, 0] ++ zeroBytes 4 ++ leBytes 4 3 ++ leBytes 4 (2 ^ 31) ++ zeroBytes 32 ++ leBytes 4 100000 ++ zeroBytes 12

/-- The blob taken apart. -/
def repeatingParts : MigBlob := ⟨3, 30, 0, List.replicate 8 ninthAssociation, List.replicate 8 slotNineteen, [], []⟩

/-- An unwrapped slot record: 32 bytes of key and an ATTR with PERSIST. -/
def persistentKey : List Byte := zeroBytes 32 ++ beBytes 4 0x200000

/-- The slots that the blob's records open to. -/
def repeatingKeys : List SlotKey := List.replicate 8 (19, zeroBytes 32, 0x200000#32)

theorem repeatingBody_length : repeatingBody.length = 64 + 8 * 528 + 8 * 56 := by decide +kernel

theorem repeatingBlob_length : repeatingBlob.length = 4752 := by
  unfold repeatingBlob
  rw [List.length_append, repeatingBody_length, length_slice]

theorem migBlob_of_repeatingBlob : MigBlob.of repeatingBlob = some repeatingParts :=
  migBlob_of_tag (length_slice ..) rfl (by rw [repeatingBody_length]; decide)
    (show MigBlob.of (repeatingBody ++ zeroBytes 16) = some repeatingParts by decide +kernel)

theorem migSci_of_noMacsec {cs : List (Nat × Ctx)} (other : ∀ e ∈ cs, e.2.kind ≠ 1) (s : State) : s.migSci cs = some s := by
  induction cs with
  | nil => rfl
  | cons e cs ih =>
    unfold State.migSci
    rw [if_neg (other e List.mem_cons_self)]
    exact ih fun x mem => other x (List.mem_cons_of_mem _ mem)

theorem repeatingParts_migSci (s : State) : s.migSci (repeatingParts.assocs.map (fun r => migCtx r 3)) = some s :=
  migSci_of_noMacsec (by decide +kernel) s

/-- What the repeated association's slots come to: the store queue runs full, its alarm squashes allotment 0's job, and the job's record
takes a place in completion ring 11. -/
def repeatedly : State :=
  (repeatingParts.contexts 3).foldl (fun s e => s.restoreAssoc 30 e.1 e.2.2 e.2.1 (keysOf repeatingKeys e.2.1)) (migrationHost.fetched 0 0)

theorem repeatedly_completes : repeatedly.ringM 0 11 = 1 ∧ repeatedly.hif.linkUp = true ∧ repeatedly.ringOn 0 11 = true := by decide +kernel

section
variable (always : ∀ key text, Config.kwpUnwrap key text = some persistentKey)
include always

theorem openSlot_slotNineteen (wrap : List Byte) : openSlot wrap slotNineteen = some (19, zeroBytes 32, 0x200000#32) := by
  unfold openSlot
  rw [always, show slotOfWord (ofBe (slice slotNineteen 0 4)) = some 19 by decide +kernel]
  dsimp only
  rw [show slice persistentKey 0 32 = zeroBytes 32 by decide, show BitVec.ofNat 32 (ofBe (slice persistentKey 32 4)) = 0x200000#32 by decide +kernel]

theorem repeatingParts_opened (wrap : List Byte) :
    repeatingParts.slots.map (openSlot wrap) = List.replicate 8 (some (19, zeroBytes 32, 0x200000#32)) := by
  show (List.replicate 8 slotNineteen).map (openSlot wrap) = _
  rw [List.map_replicate, openSlot_slotNineteen always]

theorem repeatingParts_keys (wrap : List Byte) : repeatingParts.slots.filterMap (openSlot wrap) = repeatingKeys := by
  show (List.replicate 8 slotNineteen).filterMap (openSlot wrap) = _
  rw [List.filterMap_replicate_of_some (openSlot_slotNineteen always wrap)]
  rfl

theorem repeatingBlob_valid : migrationHost.migCode 3 repeatingBlob repeatingParts vaultBase = 0 := by
  have tagAt : repeatingBlob.length - 16 = repeatingBody.length := by rw [repeatingBlob_length, repeatingBody_length]
  have body : repeatingBlob.take (repeatingBlob.length - 16) = repeatingBody := by
    rw [tagAt]
    exact List.take_left' rfl
  have tag : repeatingBlob.drop (repeatingBlob.length - 16) = slice (Config.cmac (migKey (migrationHost.keyOf vaultBase) 3) repeatingBody) 0 16 := by
    rw [tagAt]
    exact List.drop_left' rfl
  unfold State.migCode
  extract_lets key tag' cs ids slotFor ks altOk
  have opened : ks = List.replicate 8 (some (19, zeroBytes 32, 0x200000#32)) := repeatingParts_opened always key
  have sealed : tag' = repeatingBlob.drop (repeatingBlob.length - 16) := by
    rw [tag]
    unfold tag'
    rw [body]
    rfl
  rw [if_neg, if_neg, if_neg, if_neg]
  · rw [show migrationHost.migSci cs = some migrationHost from repeatingParts_migSci _]
    decide
  · rw [opened]
    decide +kernel
  · decide +kernel
  · refine not_or.mpr ⟨not_not.mpr (by decide +kernel), not_or.mpr ⟨not_not.mpr sealed, ?_⟩⟩
    rw [opened]
    decide

theorem applyBlob_repeatingParts : ((migrationHost.fetched 0 0).applyBlob 3 vaultBase repeatingParts).2 = repeatedly.note Ev.migRestored := by
  unfold State.applyBlob
  extract_lets cs key ks indexed contexts keyed queued
  have opened : ks = repeatingKeys := repeatingParts_keys always key
  have start : indexed = migrationHost.fetched 0 0 := congrArg (Option.getD · _) (repeatingParts_migSci _)
  have restored : contexts = repeatedly := by
    unfold contexts
    rw [opened, start]
    rfl
  have kept : keyed = contexts := by
    unfold keyed
    rw [opened, show repeatingKeys.filter (fun k => decide (vaultBase ≤ k.1)) = [] by decide]
    exact List.foldl_nil
  show queued.note Ev.migRestored = _
  rw [show queued = keyed from rfl, kept, restored]

/-- Were every slot record to open to a key with PERSIST, a RESTORE of eight records of one association would write a second record into its
completion ring: the stores of its slots overflow the queue, and in Self Test that alarm ends a lookaside job. -/
theorem not_allotmentsMigrate_of_unwraps : ¬ Obligations.AllotmentsMigrate := by
  unfold Obligations.AllotmentsMigrate
  rintro ⟨-, restore⟩
  have read : repeatingBlob.take 100000 = repeatingBlob := List.take_of_length_le (by rw [repeatingBlob_length]; decide)
  obtain ⟨len, unit, allot, wrapWord⟩ : (CmdDesc.of restoreDesc).inLen = 100000 ∧ (CmdDesc.of restoreDesc).unit = 2 ∧
      ((CmdDesc.of restoreDesc).word 0).toNat = 3 ∧ ((CmdDesc.of restoreDesc).word 1).toNat = 2 ^ 31 := by decide +kernel
  have known : MigBlob.of (repeatingBlob.take (CmdDesc.of restoreDesc).inLen) = some repeatingParts := by
    rw [len, read]
    exact migBlob_of_repeatingBlob
  have ready : migrationHost.ringReady 0 = true := by decide +kernel
  have wrap : migrationHost.wrapSlot ((CmdDesc.of restoreDesc).word 1).toNat = some vaultBase := by
    rw [wrapWord]
    decide +kernel
  have open_ : migrationHost.restoreCodeOf (CmdDesc.of restoreDesc) repeatingBlob true = 0 := by
    unfold State.restoreCodeOf
    rw [known, allot, wrapWord]
    decide +kernel
  have valid : migrationHost.migCode ((CmdDesc.of restoreDesc).word 0).toNat (repeatingBlob.take (CmdDesc.of restoreDesc).inLen) repeatingParts
      vaultBase = 0 := by
    rw [allot, len, read]
    exact repeatingBlob_valid always
  obtain ⟨-, restored⟩ := restore restoreDesc _ rfl _ rfl repeatingBlob _ rfl true migrationHost ready unit _ rfl
  obtain ⟨t, run, -, outcome⟩ := restored repeatingParts known vaultBase wrap open_ (by decide +kernel) (by decide +kernel) (by decide +kernel)
  rw [if_pos valid] at outcome
  obtain ⟨-, -, counted, -, index⟩ := outcome
  rcases applied : (migrationHost.fetched 0 0).applyBlob ((CmdDesc.of restoreDesc).word 0).toNat vaultBase repeatingParts with ⟨left, v⟩
  have noted : v = repeatedly.note Ev.migRestored := by
    rw [allot] at applied
    exact (congrArg Prod.snd applied).symm.trans (applyBlob_repeatingParts always)
  cases run.symm.trans (migRestore_commits ready unit repeatingBlob open_ known wrap valid applied)
  obtain ⟨before, link, on⟩ := repeatedly_completes
  have same : SameRing 0 repeatedly v := by
    rw [noted]
    exact .of_kept (by decide) (.note ..)
  have second := (complete_completes same link on (tag := (CmdDesc.of restoreDesc).tag) (status := 0) (pair := 2) (b67 := 0) (len := left)
    (idx := migrationHost.ringM 0 0) (ring := 0)).2
  rw [before] at second
  exact absurd (index.symm.trans second) (by decide +kernel)

end

end Sys2Proof.Machine
end
